-- ==== Sys2Proof/Word.lean ====
section
/-! DEFINITION. The plain vocabulary of the model: bytes, register words, sparse maps and the result codes of Table 0.6. -/

namespace Sys2Proof

/-- One byte. -/
abbrev Byte := BitVec 8
/-- One register word (R304: every register is 32 bits). -/
abbrev Word := BitVec 32
/-- A sparse map: keys strictly rising, an absent key reads as the caller's default. -/
abbrev SMap (α : Type) := List (Nat × α)

/-- The result codes of R8, Table 0.6. -/
inductive Code where
  | ok | okCorrected | poisoned | uncorrectable | range | privilege | badOpcode | state | busy | degraded
  | lost | timeout | badValue | badLength | wearLimit | integrity | locked | incomplete | auth | overcommit
  | resource | lease | sequence | notSupported
  deriving DecidableEq, Repr

/-- The code's number in Table 0.6. -/
def Code.num : Code → Nat
  | .ok => 0x00 | .okCorrected => 0x01 | .poisoned => 0x02 | .uncorrectable => 0x03 | .range => 0x04
  | .privilege => 0x05 | .badOpcode => 0x06 | .state => 0x07 | .busy => 0x08 | .degraded => 0x09
  | .lost => 0x0A | .timeout => 0x0B | .badValue => 0x10 | .badLength => 0x11 | .wearLimit => 0x12
  | .integrity => 0x13 | .locked => 0x14 | .incomplete => 0x15 | .auth => 0x16 | .overcommit => 0x17
  | .resource => 0x18 | .lease => 0x19 | .sequence => 0x1A | .notSupported => 0x1B

/-- The five severities of R306, encoded 0 to 4. -/
inductive Sev where
  | info | warn | degrade | fault | fatal
  deriving DecidableEq, Repr

/-- The severity's number (Table 4.8). -/
def Sev.num : Sev → Nat
  | .info => 0 | .warn => 1 | .degrade => 2 | .fault => 3 | .fatal => 4

end Sys2Proof
end

