-- ==== Sys2Proof/Syntax.lean ====
section
/-! DEFINITION. The commands of the block: one constructor for each row of spec/opcode_table.json, in its order. Values that the stack measures, and outcomes of
cryptography, are operands. -/

namespace Sys2Proof

/-- The header of a VC0 request (Table 4.2), and the group that delivers it. -/
structure ReqHdr where
  grp : Fin 16
  tag : BitVec 16
  dom : Fin 16
  bow : BitVec 16 := 0
  dl : BitVec 12 := 0
  ord : Bool := false
  addr : BitVec 40 := 0
  deriving DecidableEq, Repr

/-- The outcome of a training slot's receive task (R34 to R38): lanes that passed, the preset scored best, and for each lane the adaptation codes, the
slip, and how many unit intervals it arrives behind the earliest. -/
structure SlotResult where
  lanes : Nat
  preset : Nat
  ctle : List Nat
  dfe : List Nat
  slips : List Nat
  skew : List Nat
  deriving DecidableEq, Repr

/-- A failure criterion of R39 met on a lane: loss of signal, or loss of lock of its clock recovery. -/
structure LaneFinding where
  lane : Fin 17
  los : Bool
  deriving DecidableEq, Repr

/-- How a completion is placed (R98): in a WACK with others of its domain, or alone, with what the completion data buffer gives for each of its
sectors (0 good, 1 corrected, 2 uncorrectable; Table 10.3). -/
inductive CplForm where
  | wack
  | alone (outs : List Nat)
  deriving DecidableEq, Repr

/-- A sector that fails the verify pass (R232): its place, the beat and the bits read wrong, and whether the second read fails too. -/
structure FillFail where
  ch : Nat
  bank : Nat
  row : Nat
  k : Nat
  beat : Nat
  err : Nat
  again : Bool
  deriving DecidableEq, Repr

/-- What cryptography and the ROM give SPDM_MSG: the certificate chain and its hash, the stack's nonce, the summary hash, the signature, and the four
measurement digests. -/
structure SpdmBlobs where
  chain : List Byte := []
  chainHash : List Byte := []
  nonce : List Byte := []
  summary : List Byte := []
  sig : List Byte := []
  digests : List (List Byte) := []
  deriving DecidableEq, Repr

/-- A command. `g` is a lane group, `ch` a channel, `sl` a slice, `d` a domain, `m` a mailbox (16 the service mailbox), `who` a master (Table 13.1), `v` a word written. -/
inductive Instr where
  -- the start
  | powerOnResetRelease (weakRows weakSpares : List Nat) (raised : BitVec 64) (testEn : Bool) (weak gone : List Nat)
  | bistBlockEnd (blk : Fin 5) (pass : Bool) (dur : BitVec 12) (covSa covTr : BitVec 10) (elem : BitVec 24) (fails : List (Nat × Nat × Nat))
  | dramTierReady (silent : BitVec 16)
  | rankTrainingEnd (ch : Fin 32) (pass : Bool) (code vref : BitVec 6) (dead : BitVec 84) (lines : List Nat)
  | initFillEnd (codes bad : List Nat) (fails : List FillFail)
  | coxBoot (okA okB : Bool)
  | coxABootTimeout (okA okB : Bool)
  -- lanes and training
  | groupPowerUp (g : Fin 16)
  | groupDetectEnd (g : Fin 16) (sensed : BitVec 17)
  | groupClockEnd (g : Fin 16) (locked burst : Bool)
  | trainingSlotEnd (g : Fin 16) (task : SlotResult)
  | confirmWordAccept (g : Fin 16) (word : BitVec 64) (on : BitVec 17)
  | groupTrainFail (g : Fin 16)
  | quietEntry (g : Fin 16)
  | keepAliveBurst (g : Fin 16)
  | wakePreambleReceive (g : Fin 16)
  | laneFailureDetect (g : Fin 16) (found : LaneFinding)
  | groupPllLoss (g : Fin 16)
  -- flits, link items and turns
  | flitReceive (g : Fin 16) (raw : List Byte)
  | nakRepeatTimeout (g : Fin 16)
  | status (g : Fin 16) (mask : BitVec 16) (acks : List Nat) (vc1 : BitVec 32) (vc2 : BitVec 16)
  | nak (g n : Fin 16) (exp : BitVec 10)
  | config (g : Fin 16) (vc1 : BitVec 20) (vc2 : BitVec 12)
  | groupSpareItem (g n : Fin 16) (exp : BitVec 10) (l : Fin 17)
  | groupSpareDeadItem (g n : Fin 16) (l : Fin 17)
  | groupLostItem (g n : Fin 16) (last : BitVec 10)
  | groupLostReqItem (g n : Fin 16)
  | ackTimeout (g : Fin 16)
  | groupLoss (g : Fin 16) (cause : Fin 6)
  | turn (g tgrp : Fin 16) (tdir : Bool) (tseq : BitVec 16)
  | turnAck (g tgrp : Fin 16) (tdir : Bool) (tseq : BitVec 16) (res : BitVec 8)
  -- requests, completions and the cache
  | rd (h : ReqHdr) (len : Fin 4) (na md : Bool)
  | wr (h : ReqHdr) (len : Fin 4) (na md : Bool) (mdx data : List Byte)
  | wrp (h : ReqHdr) (mask : BitVec 64) (data : List Byte)
  | afadd (h : ReqHdr) (wsel : Fin 8) (opnd : BitVec 64)
  | aswap (h : ReqHdr) (wsel : Fin 8) (opnd : BitVec 64)
  | acas (h : ReqHdr) (wsel : Fin 8) (opnd swapv : BitVec 64)
  | aand (h : ReqHdr) (wsel : Fin 8) (opnd : BitVec 64)
  | aor (h : ReqHdr) (wsel : Fin 8) (opnd : BitVec 64)
  | flush (h : ReqHdr) (inv : Bool) (rcnt : BitVec 24)
  | zero (h : ReqHdr) (rcnt : BitVec 24)
  | fence (h : ReqHdr) (all : Bool)
  | reservedVc0Opcode (h : ReqHdr) (opc : Fin 64) (len : Fin 4)
  | waitingPacketAdmit (g : Fin 16)
  | requestIssue (id : Nat) (outs : List Nat)
  | bankSchedule (ch : Fin 32)
  | powerDownEntry (ch : Fin 32) (rank : Fin 4)
  | powerDownExit (ch : Fin 32) (rank : Fin 4)
  | readDataReturn (ch : Fin 32) (err : List Nat)
  | completionPlace (g : Fin 16) (n : Nat) (form : CplForm)
  | cacheFillArrive (ch : Fin 32)
  | sliceReadDecode (sl : Fin 32) (set : BitVec 12) (way : Fin 16) (half : Fin 2) (out : Fin 3)
  | sliceFault (sl : Fin 32) (cause : Fin 5)
  | sliceDrainComplete (sl : Fin 32)
  | crossingTrack (sl : Fin 32) (dclk drd dwr : Fin 3) (margin : BitVec 6)
  | cacheOpComplete (sl : Fin 32)
  | victimWritebackDone (sl : Fin 32)
  | atomicPerform (id : Nat) (out : Fin 3) (err : List Nat)
  | mergePerform (id : Nat) (out : Fin 3) (err : List Nat)
  | rangeWorkDone (id : Nat)
  -- DRAM, refresh, repair, fold and regulation
  | refreshTick (ch : Fin 32) (bank : Fin 128)
  | dieTempReading (missing : BitVec 16)
  | rowClose (ch : Fin 32) (word : Fin 3)
  | reportBurstReceive (ch : Fin 32) (rank : Fin 4) (err : List Nat)
  | victimRefreshDone (ch : Fin 32) (bank : Fin 128)
  | hangDetect (ch : Fin 32) (stateCheck : Bool)
  | hangResetComplete (ch : Fin 32)
  | scrubStep (ch : Fin 32) (err : List Nat)
  | scrubWriteback (ch : Fin 32) (err : List Nat)
  | cacheScrub (target : Fin 3) (sl : Fin 32) (set : BitVec 12) (way : Fin 16) (half : Fin 2) (out : Fin 3) (idx : BitVec 17)
  | rollingCalStep (ch : Fin 32)
  | stallCalStep (ch : Fin 32) (pass : Bool) (rd wr : BitVec 6)
  | fastSwapIsolationEnd (ch : Fin 32) (errors : Bool)
  | parityAlert (ch : Fin 32) (bad : Option (Fin 26))
  | rowRepairComplete (ch : Fin 32)
  | bowContextResetDone (d : Fin 16)
  -- packets of VC2, events, stores and sensors
  | rreg (g dom : Fin 16) (rtag : BitVec 16) (raddr : BitVec 24)
  | wreg (g dom : Fin 16) (rtag : BitVec 16) (raddr : BitVec 24) (data : BitVec 32)
  | reservedVc2Opcode (g : Fin 16) (opc : BitVec 8) (dom : Fin 16)
  | mbxWr (g dom : Fin 16) (moff : BitVec 12) (mtag mlen : BitVec 8) (data : List Byte)
  | mbxRd (g dom : Fin 16) (moff : BitVec 12) (mtag mlen : BitVec 8)
  | mbxDb (g dom : Fin 16) (seq : BitVec 16)
  | mailboxDoorbell (m : Fin 17) (seq : BitVec 16)
  | responsePost (m : Fin 17)
  | pmAck (g : Fin 16) (preq : BitVec 8) (pseq : BitVec 16) (res : BitVec 8)
  | evtSend (d : Fin 16)
  | eventRaise (src : Fin 287) (sev : Fin 5) (syn : List Word)
  | mramWordWriteDone (torn : Bool)
  | sensorConversion (n : Fin 50) (raw : Int) (ok : Bool)
  | managedShutdown (n : Fin 50)
  | hwThermalTrip (n : Fin 50)
  -- resets, power and clocks
  | warmResetRelease (fail : List (Nat × Nat))
  | keelLoadCheck (pass : Bool)
  | keelFault (cause : Fin 5)
  | vbkpLow (mv : BitVec 24)
  | stkRefclkReturn (fail : List (Nat × Nat))
  | fabPllResume (bad : List Nat)
  | dckPllLoss (p : Fin 4)
  | dckPllRelockTimeout (p : Fin 4)
  | dckPllRecover (p : Fin 4) (fail : List (Nat × Nat))
  | sleepExit (fail : List (Nat × Nat))
  | deepSleepExit (fail : List (Nat × Nat)) (peak : BitVec 10) (codes : List Nat)
  | coxFault (coxB : Bool) (cause : Fin 4)
  | standbyReloadDone (ok : Bool)
  -- mailbox commands
  | sessionOpen (m : Fin 17)
  | sessionClose (m : Fin 17)
  | leaseAcquire (m : Fin 17)
  | leaseRenew (m : Fin 17)
  | leaseRelease (m : Fin 17)
  | getIdentity (m : Fin 17)
  | spdmMsg (m : Fin 17) (blobs : SpdmBlobs)
  | svcAuthNonce (m : Fin 17)
  | svcAuthProve (m : Fin 17) (ok : Bool)
  | cfgRegionSet (m : Fin 17)
  | cfgRegionGet (m : Fin 17)
  | cfgDomainSet (m : Fin 17)
  | cfgDomainGet (m : Fin 17)
  | cfgHashSet (m : Fin 17)
  | cfgPurge (m : Fin 17)
  | cfgLinkSet (m : Fin 17)
  | cfgTurn (m : Fin 17)
  | regClassSet (m : Fin 17)
  | regGlobalSet (m : Fin 17)
  | regBowSet (m : Fin 17)
  | regRsvSet (m : Fin 17)
  | regRsvFree (m : Fin 17)
  | regGet (m : Fin 17)
  | cachePolicySet (m : Fin 17)
  | cacheOp (m : Fin 17)
  | cacheGet (m : Fin 17)
  | memRead (m : Fin 17)
  | memWrite (m : Fin 17)
  | memZero (m : Fin 17)
  | rprRow (m : Fin 17)
  | rprGet (m : Fin 17)
  | foldMode (m : Fin 17)
  | foldStart (m : Fin 17)
  | tsvKill (m : Fin 17)
  | rfmSet (m : Fin 17)
  | dipSet (m : Fin 17)
  | dmcSet (m : Fin 17)
  | pwrEnter (m : Fin 17)
  | pwrVote (m : Fin 17)
  | pwrGet (m : Fin 17)
  | thmSet (m : Fin 17)
  | calRun (m : Fin 17)
  | calGet (m : Fin 17)
  | fwLoadBegin (m : Fin 17)
  | fwLoad (m : Fin 17)
  | fwVerify (m : Fin 17) (ok : Bool)
  | fwActivate (m : Fin 17) (out : Fin 5)
  | fwTakeover (m : Fin 17)
  | fwSvnCommit (m : Fin 17)
  | fwGet (m : Fin 17)
  | fwSet (m : Fin 17)
  | logRead (m : Fin 17)
  | faultGet (m : Fin 17)
  | evtRouteSet (m : Fin 17)
  | evtRouteGet (m : Fin 17)
  | fcrSet (m : Fin 17)
  | weighEnough (m : Fin 17)
  | resume (m : Fin 17)
  | testLane (m : Fin 17)
  | testEccInj (m : Fin 17)
  | fuseReadCmd (m : Fin 17)
  | fuseProgram (m : Fin 17) (marginal : Bool)
  | fuseLock (m : Fin 17)
  | fuseVerify (m : Fin 17) (weak : List Nat)
  -- register commands
  | registerWrite (who : Fin 18) (off : BitVec 24) (v : Word)
  | persistentWriteCommit (torn : Bool)
  | retrain (who : Fin 18) (g : Fin 16) (v : Word)
  | testModeSet (who : Fin 18) (g : Fin 16) (v : Word)
  | testModeClear (who : Fin 18) (g : Fin 16) (v : Word)
  | injGo (who : Fin 18) (g : Fin 16) (v : Word)
  | chkEnWrite (who : Fin 18) (g : Fin 16) (l : Fin 17) (v : Word)
  | errorsRead (who : Fin 18) (g : Fin 16) (l : Fin 17)
  | turnGo (who : Fin 18) (v : Word)
  | hllCntClr (who : Fin 18) (v : Word)
  | purge (who : Fin 18) (d : Fin 16) (v : Word)
  | regionWrite (second : Bool) (who : Fin 18) (n : Fin 64) (v : Word)
  | rqeCntClr (who : Fin 18) (v : Word)
  | ctxRead (who : Fin 18) (v : Word)
  | ctxWrite (who : Fin 18) (v : Word)
  | counterSnapshot (who : Fin 18) (v : Word)
  | watchSelect (who : Fin 18) (v : Word)
  | bowRangeWrite (second : Bool) (who : Fin 18) (d : Fin 16) (v : Word)
  | reservationWrite (who : Fin 18) (n : Fin 64) (v : Word)
  | regCntClr (who : Fin 18) (v : Word)
  | clean (who : Fin 18) (sl : Fin 32) (v : Word)
  | cleanInv (who : Fin 18) (sl : Fin 32) (v : Word)
  | writeThroughSet (who : Fin 18) (sl : Fin 32) (v : Word)
  | bypassWrite (who : Fin 18) (sl : Fin 32) (v : Word)
  | wayDisableWrite (who : Fin 18) (sl : Fin 32) (v : Word)
  | sccCntClr (who : Fin 18) (sl : Fin 32) (v : Word)
  | chRst (who : Fin 18) (ch : Fin 32) (v : Word)
  | trainGo (who : Fin 18) (ch : Fin 32) (v : Word)
  | dmcCntClr (who : Fin 18) (ch : Fin 32) (v : Word)
  | stThrWrite (who : Fin 18) (v : Word)
  | rfmCntClr (who : Fin 18) (v : Word)
  | injArm (who : Fin 18) (v : Word)
  | pop (who : Fin 18) (v : Word)
  | dipCntClr (who : Fin 18) (v : Word)
  | kill (who : Fin 18) (ch : Fin 32) (v : Word)
  | rprGo (who : Fin 18) (ch : Fin 32) (v : Word)
  | foldGo (who : Fin 18) (v : Word)
  | tsvCntClr (who : Fin 18) (ch : Fin 32) (v : Word)
  | take (who : Fin 18) (v : Word)
  | beat (coxB : Bool)
  | dbSeqWrite (who : Fin 18) (m : Fin 17) (v : Word)
  | mdataAccess (who : Fin 18) (m : Fin 17) (wr : Bool) (v : Word)
  | weStackWrite (who : Fin 18) (v : Word)
  | wrst (who : Fin 18) (v : Word)
  | scratchHighWrite (who : Fin 18) (v : Word)
  | plockSet (who : Fin 18) (v : Word)
  | punlock (who : Fin 18) (v : Word)
  | fcrCntClr (who : Fin 18) (v : Word)
  | ffClr (who : Fin 18) (v : Word)
  | raiseGo (who : Fin 18) (v : Word)
  | alertClear (who : Fin 18) (v : Word)
  | calGo (who : Fin 18) (v : Word)
  | calibrationRunEnd (res : BitVec 14) (codes : List Nat) (good : BitVec 5) (held : BitVec 16)
  | modeWrite (who : Fin 18) (v : Word)
  | mckSelWrite (who : Fin 18) (v : Word)
  | nosleepWrite (who : Fin 18) (d : Fin 16) (v : Word)
  | pckCntClr (who : Fin 18) (v : Word)
  | thmCntClr (who : Fin 18) (v : Word)
  | svcEnWrite (who : Fin 18) (v : Word)
  | deauth (who : Fin 18) (v : Word)
  | drnGo (who : Fin 18) (v : Word)
  | drnAbort (who : Fin 18) (v : Word)
  -- the service port
  | fillBlock (bytes : List Byte)
  | mbxFrame (stag : BitVec 16) (msg : List Byte)
  | svcRregFrame (stag : BitVec 16) (raddr : BitVec 32)
  | svcWregFrame (stag : BitVec 16) (raddr : BitVec 32) (data : Word)
  | frameErr (raw : List Byte)
  | serviceLinkChange (v : Fin 5) (gen3 : Bool)
  -- late events of every unit
  | spareCheckerFail (g : Fin 16) (l : Fin 17)
  | keepAliveReceive (g : Fin 16)
  | turnCdrLock (failing : BitVec 17)
  | strobeTracking (ch : Fin 32) (rank : Fin 4) (dir : Fin 3) (lost : Option (Fin 5))
  | shadowValidationEnd (ch : Fin 32) (pass : Bool) (rd wr : BitVec 6)
  | spareInPlaceStepEnd (ch : Fin 32) (pass : Bool) (rd wr : BitVec 6)
  | suspectWindowEnd (ch : Fin 32)
  | pllRelock (p : Fin 5)
  | ep0StandardRequest (req : BitVec 8) (value len : BitVec 16)
  -- commands without operands, in the order of the table
  | coldBoot
  | linkReady
  | wholeLinkRetrain
  | deepWakeDetect
  | hlRefclkLoss
  | hlRefclkReturn
  | statusSend
  | configSend
  | lostReqTimeout
  | turnAckTimeout
  | turnLastAccept
  | turnSquelchDetect
  | turnTimeout
  | urgencyRecompute
  | reservationWindow
  | bgPromoteExpiry
  | backlogTimeout
  | rowRepairStart
  | foldUnitMove
  | foldChunkEnd
  | foldCleanEnd
  | foldDone
  | sRecompute
  | pmAckTimeout
  | easyPeriodEnd
  | logRecordWrite
  | logTokenRefill
  | lifetimeSecond
  | throttleCompute
  | thermtripLatchClear
  | stkResetAssert
  | warmResetStretchEnd
  | stkWakeRise
  | pwrFailAssert
  | droopDetect
  | mainGoodFall
  | mainGoodRise
  | railLateFall
  | powerFailSwitchover
  | retentionEntryDone
  | keelBrownout
  | vbkpCollapse
  | stkRefclkLoss
  | fabPllLoss
  | mckPllLoss
  | idleEntry
  | idleExit
  | entryDrainEnd
  | sequencerEntry
  | serviceDoorbellWake
  | watchdogExpiry
  | trialEnd
  | leaseExpiry
  | nonceExpiry
  | authLockEnd
  | purgeDone
  | periodicCalibration
  | drainBlock
  | eventCopySend
  | serviceLinkDown
  | remapEntryReloaded
  | contextRebuilt
  | standbyPllUnusable
  deriving DecidableEq, Repr

end Sys2Proof
end

