-- ==== Sys2Proof/WellFormed.lean ====
section
/-! DEFINITION. Which commands are well formed: operand lists of their lengths, and numbers within the widths the spec gives them. -/

namespace Sys2Proof

/-- Every number of a list lies below a bound. -/
def below (n : Nat) (l : List Nat) : Bool := l.all fun x => decide (x < n)

/-- Channels with ranks. -/
def rankList (l : List (Nat × Nat)) : Bool := l.all fun e => decide (e.1 < 32) && decide (e.2 < 4)

/-- How many of the low `w` bits of `v` are 1. -/
def popBits (v w : Nat) : Nat := ((List.range w).filter fun k => v / 2 ^ k % 2 == 1).length

/-- A reserved opcode of VC0 (Table 4.1). -/
def reservedOp (op : Nat) : Bool :=
  decide (op < 0x40) && !([0x00, 0x10, 0x11, 0x20, 0x21, 0x22, 0x23, 0x24, 0x30, 0x31, 0x32].contains op)

/-- A reserved opcode of VC2 that the partner may send (Table 4.1). -/
def reservedVc2Op (op : Nat) : Bool :=
  (decide (0x54 ≤ op) && decide (op ≤ 0x5F)) || (decide (0x66 ≤ op) && decide (op ≤ 0x6F)) || (decide (0x84 ≤ op) && decide (op ≤ 0x8F))

/-- The little-endian number of some bytes. -/
def bytesNat : List Byte → Nat
  | [] => 0
  | b :: r => b.toNat + 256 * bytesNat r

/-- A frame of the service port that is malformed or of an unknown type (Table 21.3). -/
def badFrameBytes (f : List Byte) : Bool :=
  let typ := bytesNat (f.take 1)
  let body := f.length - 8
  decide (f.length < 8) || !(typ == 1 || typ == 2 || typ == 3) || bytesNat ((f.drop 4).take 4) != body ||
    (typ == 1 && (decide (body < 16) || decide (4096 < body))) || (typ == 2 && body != 4) || (typ == 3 && body != 8)

/-- A command is well formed. -/
def Instr.wf : Instr → Bool
  | .coldBoot => true
  | .powerOnResetRelease weakRows weakSpares _ _ weak gone => below 128 weakRows && below 8 weakSpares && below 4194304 weak && below 4194304 gone
  | .bistBlockEnd _ _ _ _ _ _ fails => fails.all fun f => decide (f.2.1 < 32)
  | .dramTierReady _ => true
  | .rankTrainingEnd _ _ _ _ _ lines => lines.length == 84 && below 64 lines
  | .initFillEnd codes bad fails => codes.length == 96 && below 64 codes && below 32 bad && fails.all fun f => decide (f.ch < 32) && decide (f.bank < 128)
  | .coxBoot _ _ => true
  | .coxABootTimeout _ _ => true
  | .groupPowerUp _ => true
  | .groupDetectEnd _ _ => true
  | .groupClockEnd _ _ _ => true
  | .trainingSlotEnd _ task => decide (task.lanes < 2 ^ 17) && decide (task.preset < 8) && task.ctle.length == 17 && below 64 task.ctle && task.dfe.length == 17 && below 64 task.dfe &&
      task.slips.length == 17 && below 32 task.slips && task.skew.length == 17
  | .confirmWordAccept _ _ _ => true
  | .groupTrainFail _ => true
  | .linkReady => true
  | .wholeLinkRetrain => true
  | .quietEntry _ => true
  | .keepAliveBurst _ => true
  | .wakePreambleReceive _ => true
  | .deepWakeDetect => true
  | .laneFailureDetect _ _ => true
  | .hlRefclkLoss => true
  | .hlRefclkReturn => true
  | .groupPllLoss _ => true
  | .flitReceive _ raw => raw.length == 256
  | .nakRepeatTimeout _ => true
  | .statusSend => true
  | .status _ mask acks _ _ => acks.length == popBits mask.toNat 16 && below 1024 acks
  | .nak _ _ _ => true
  | .config _ _ _ => true
  | .configSend => true
  | .groupSpareItem _ _ _ _ => true
  | .groupSpareDeadItem _ _ _ => true
  | .groupLostItem _ _ _ => true
  | .groupLostReqItem _ _ => true
  | .ackTimeout _ => true
  | .groupLoss _ _ => true
  | .lostReqTimeout => true
  | .turn _ _ _ _ => true
  | .turnAck _ _ _ _ _ => true
  | .turnAckTimeout => true
  | .turnLastAccept => true
  | .turnSquelchDetect => true
  | .turnTimeout => true
  | .rd _ _ _ _ => true
  | .wr _ len _ md mdx data => mdx.length == (if md then 8 else 0) && data.length == (if len = 1 then 128 else if len = 2 then 256 else 64)
  | .wrp _ _ data => data.length == 64
  | .afadd _ _ _ => true
  | .aswap _ _ _ => true
  | .acas _ _ _ _ => true
  | .aand _ _ _ => true
  | .aor _ _ _ => true
  | .flush _ _ _ => true
  | .zero _ _ => true
  | .fence _ _ => true
  | .reservedVc0Opcode _ opc _ => reservedOp opc.val
  | .waitingPacketAdmit _ => true
  | .requestIssue _ outs => below 16 outs && outs.all fun v => v % 4 != 3
  | .urgencyRecompute => true
  | .reservationWindow => true
  | .bankSchedule _ => true
  | .bgPromoteExpiry => true
  | .powerDownEntry _ _ => true
  | .powerDownExit _ _ => true
  | .readDataReturn _ err => below (2 ^ 80) err
  | .completionPlace _ _ .wack => true
  | .completionPlace _ _ (.alone outs) => below 3 outs
  | .cacheFillArrive _ => true
  | .sliceReadDecode _ _ _ _ _ => true
  | .sliceFault _ cause => decide (1 ≤ cause.val)
  | .sliceDrainComplete _ => true
  | .crossingTrack _ _ _ _ _ => true
  | .cacheOpComplete _ => true
  | .victimWritebackDone _ => true
  | .atomicPerform _ _ err => below (2 ^ 80) err
  | .mergePerform _ _ err => below (2 ^ 80) err
  | .rangeWorkDone _ => true
  | .refreshTick _ _ => true
  | .dieTempReading _ => true
  | .rowClose _ _ => true
  | .reportBurstReceive _ _ err => below (2 ^ 80) err
  | .backlogTimeout => true
  | .victimRefreshDone _ _ => true
  | .hangDetect _ _ => true
  | .hangResetComplete _ => true
  | .scrubStep _ err => below (2 ^ 80) err
  | .scrubWriteback _ err => below (2 ^ 80) err
  | .cacheScrub _ _ _ _ _ _ _ => true
  | .rollingCalStep _ => true
  | .stallCalStep _ _ _ _ => true
  | .fastSwapIsolationEnd _ _ => true
  | .parityAlert _ _ => true
  | .rowRepairStart => true
  | .rowRepairComplete _ => true
  | .foldUnitMove => true
  | .foldChunkEnd => true
  | .foldCleanEnd => true
  | .foldDone => true
  | .sRecompute => true
  | .bowContextResetDone _ => true
  | .rreg _ _ _ _ => true
  | .wreg _ _ _ _ _ => true
  | .reservedVc2Opcode _ opc _ => reservedVc2Op opc.toNat
  | .mbxWr _ _ _ _ mlen data => data.length == 4 * mlen.toNat
  | .mbxRd _ _ _ _ _ => true
  | .mbxDb _ _ _ => true
  | .mailboxDoorbell _ _ => true
  | .responsePost _ => true
  | .pmAck _ _ _ _ => true
  | .pmAckTimeout => true
  | .evtSend _ => true
  | .eventRaise _ _ syn => decide (syn.length ≤ 4)
  | .easyPeriodEnd => true
  | .logRecordWrite => true
  | .logTokenRefill => true
  | .mramWordWriteDone _ => true
  | .lifetimeSecond => true
  | .sensorConversion _ raw _ => decide (-4096 ≤ raw) && decide (raw < 4096)
  | .throttleCompute => true
  | .managedShutdown _ => true
  | .hwThermalTrip _ => true
  | .thermtripLatchClear => true
  | .stkResetAssert => true
  | .warmResetStretchEnd => true
  | .warmResetRelease fail => rankList fail
  | .stkWakeRise => true
  | .pwrFailAssert => true
  | .droopDetect => true
  | .mainGoodFall => true
  | .mainGoodRise => true
  | .railLateFall => true
  | .powerFailSwitchover => true
  | .retentionEntryDone => true
  | .keelLoadCheck _ => true
  | .keelBrownout => true
  | .keelFault cause => decide (2 ≤ cause.val)
  | .vbkpLow _ => true
  | .vbkpCollapse => true
  | .stkRefclkLoss => true
  | .stkRefclkReturn fail => rankList fail
  | .fabPllLoss => true
  | .fabPllResume bad => below 32 bad
  | .dckPllLoss _ => true
  | .dckPllRelockTimeout _ => true
  | .dckPllRecover _ fail => rankList fail
  | .mckPllLoss => true
  | .idleEntry => true
  | .idleExit => true
  | .entryDrainEnd => true
  | .sequencerEntry => true
  | .sleepExit fail => rankList fail
  | .deepSleepExit fail _ codes => rankList fail && codes.length == 96 && below 64 codes
  | .serviceDoorbellWake => true
  | .watchdogExpiry => true
  | .coxFault _ cause => decide (1 ≤ cause.val)
  | .standbyReloadDone _ => true
  | .trialEnd => true
  | .leaseExpiry => true
  | .sessionOpen _ => true
  | .sessionClose _ => true
  | .leaseAcquire _ => true
  | .leaseRenew _ => true
  | .leaseRelease _ => true
  | .getIdentity _ => true
  | .spdmMsg _ blobs => blobs.chainHash.length == 48 && blobs.nonce.length == 32 && blobs.summary.length == 48 && blobs.sig.length == 96 && blobs.digests.length == 4 && decide (blobs.chain.length < 65536)
  | .svcAuthNonce _ => true
  | .svcAuthProve _ _ => true
  | .nonceExpiry => true
  | .authLockEnd => true
  | .cfgRegionSet _ => true
  | .cfgRegionGet _ => true
  | .cfgDomainSet _ => true
  | .cfgDomainGet _ => true
  | .cfgHashSet _ => true
  | .cfgPurge _ => true
  | .cfgLinkSet _ => true
  | .cfgTurn _ => true
  | .regClassSet _ => true
  | .regGlobalSet _ => true
  | .regBowSet _ => true
  | .regRsvSet _ => true
  | .regRsvFree _ => true
  | .regGet _ => true
  | .cachePolicySet _ => true
  | .cacheOp _ => true
  | .cacheGet _ => true
  | .memRead _ => true
  | .memWrite _ => true
  | .memZero _ => true
  | .rprRow _ => true
  | .rprGet _ => true
  | .foldMode _ => true
  | .foldStart _ => true
  | .tsvKill _ => true
  | .rfmSet _ => true
  | .dipSet _ => true
  | .dmcSet _ => true
  | .pwrEnter _ => true
  | .pwrVote _ => true
  | .pwrGet _ => true
  | .thmSet _ => true
  | .calRun _ => true
  | .calGet _ => true
  | .fwLoadBegin _ => true
  | .fwLoad _ => true
  | .fwVerify _ _ => true
  | .fwActivate _ _ => true
  | .fwTakeover _ => true
  | .fwSvnCommit _ => true
  | .fwGet _ => true
  | .fwSet _ => true
  | .logRead _ => true
  | .faultGet _ => true
  | .evtRouteSet _ => true
  | .evtRouteGet _ => true
  | .fcrSet _ => true
  | .weighEnough _ => true
  | .resume _ => true
  | .testLane _ => true
  | .testEccInj _ => true
  | .fuseReadCmd _ => true
  | .fuseProgram _ _ => true
  | .fuseLock _ => true
  | .fuseVerify _ weak => below 128 weak
  | .registerWrite _ _ _ => true
  | .persistentWriteCommit _ => true
  | .retrain _ _ _ => true
  | .testModeSet _ _ _ => true
  | .testModeClear _ _ _ => true
  | .injGo _ _ _ => true
  | .chkEnWrite _ _ _ _ => true
  | .errorsRead _ _ _ => true
  | .turnGo _ _ => true
  | .hllCntClr _ _ => true
  | .purge _ _ _ => true
  | .purgeDone => true
  | .regionWrite _ _ _ _ => true
  | .rqeCntClr _ _ => true
  | .ctxRead _ _ => true
  | .ctxWrite _ _ => true
  | .counterSnapshot _ _ => true
  | .watchSelect _ _ => true
  | .bowRangeWrite _ _ _ _ => true
  | .reservationWrite _ _ _ => true
  | .regCntClr _ _ => true
  | .clean _ _ _ => true
  | .cleanInv _ _ _ => true
  | .writeThroughSet _ _ _ => true
  | .bypassWrite _ _ _ => true
  | .wayDisableWrite _ _ _ => true
  | .sccCntClr _ _ _ => true
  | .chRst _ _ _ => true
  | .trainGo _ _ _ => true
  | .dmcCntClr _ _ _ => true
  | .stThrWrite _ _ => true
  | .rfmCntClr _ _ => true
  | .injArm _ _ => true
  | .pop _ _ => true
  | .dipCntClr _ _ => true
  | .kill _ _ _ => true
  | .rprGo _ _ _ => true
  | .foldGo _ _ => true
  | .tsvCntClr _ _ _ => true
  | .take _ _ => true
  | .beat _ => true
  | .dbSeqWrite _ _ _ => true
  | .mdataAccess _ _ _ _ => true
  | .weStackWrite _ _ => true
  | .wrst _ _ => true
  | .scratchHighWrite _ _ => true
  | .plockSet _ _ => true
  | .punlock _ _ => true
  | .fcrCntClr _ _ => true
  | .ffClr _ _ => true
  | .raiseGo _ _ => true
  | .alertClear _ _ => true
  | .calGo _ _ => true
  | .calibrationRunEnd _ codes _ _ => below 256 codes
  | .periodicCalibration => true
  | .modeWrite _ _ => true
  | .mckSelWrite _ _ => true
  | .nosleepWrite _ _ _ => true
  | .pckCntClr _ _ => true
  | .thmCntClr _ _ => true
  | .svcEnWrite _ _ => true
  | .deauth _ _ => true
  | .drnGo _ _ => true
  | .drnAbort _ _ => true
  | .drainBlock => true
  | .fillBlock bytes => bytes.length == 4176
  | .mbxFrame _ msg => decide (16 ≤ msg.length) && decide (msg.length ≤ 4096)
  | .svcRregFrame _ _ => true
  | .svcWregFrame _ _ _ => true
  | .frameErr raw => badFrameBytes raw
  | .eventCopySend => true
  | .serviceLinkChange _ _ => true
  | .serviceLinkDown => true
  | .spareCheckerFail _ _ => true
  | .keepAliveReceive _ => true
  | .turnCdrLock _ => true
  | .strobeTracking _ _ _ _ => true
  | .shadowValidationEnd _ _ _ _ => true
  | .spareInPlaceStepEnd _ _ _ _ => true
  | .suspectWindowEnd _ => true
  | .remapEntryReloaded => true
  | .contextRebuilt => true
  | .pllRelock _ => true
  | .standbyPllUnusable => true
  | .ep0StandardRequest _ _ _ => true

end Sys2Proof
end

