-- ==== Sys2Proof/Config.lean ====
section
/-! DEFINITION. What the spec leaves open, as uninterpreted constants: nothing in Lean can evaluate them. -/

namespace Sys2Proof.Config

/-- The fresh open value drawn when the counter `State.free` stands at the argument (log entry 3). -/
opaque freeValue : Nat → Nat

/-- The 128-bit serial of region 0 (R456: one that no other stack carries). -/
opaque serial : Nat

/-- `CREV` and `DREV` of the dies fitted (R1). -/
opaque crev : Nat
/-- See `crev`. -/
opaque drev : Nat

/-- Casrad's USB idVendor (R456). -/
opaque idVendor : Nat

/-- The request-buffer entry that the admission with the given number takes: the spec gives no order of allocation. -/
opaque entryOf : Nat → Nat

/-- The words that Casrad programs in fuse regions 0, 1, 3 and 5 (R456), by fuse word number (4 × row + word), apart from those the spec states. -/
opaque fuseWord : Nat → Nat

/-- The manufacturing trim of each calibration code (R347), in the order of `calCodes`. -/
opaque trim : Nat → Nat

/-- The bits of the TAP's instruction register, and the instruction of Table 20.10 that a value of it names: the spec gives neither. -/
opaque tapBits : Nat
/-- See `tapBits`: 0 BYPASS, 1 IDCODE, 2 SAMPLE/PRELOAD, 3 EXTEST, 4 CLAMP, 5 HIGHZ, 6 die access. -/
opaque tapCode : List Bool → Nat

/-- A boundary-scan or die-access bit that the TAP captures: the spec gives no order of cells. -/
opaque tapCell : Nat → Bool

/-- How many bits the selected path of a boundary scan or of a die holds. -/
opaque tapLength : Nat → Nat

end Sys2Proof.Config
end

