-- ==== Sys2Proof/Machine/Maps.lean ====
section
/-! DEFINITION. Bit fields, byte order, and the operations of the sparse maps that State holds. -/

namespace Sys2Proof.Machine

/-- Bits `lo + w - 1 : lo` of `v`. -/
def bits (v lo w : Nat) : Nat := v / 2 ^ lo % 2 ^ w

/-- Bit `n` of `v`. -/
def bit (v n : Nat) : Bool := v / 2 ^ n % 2 == 1

/-- `v` with bits `lo + w - 1 : lo` replaced by `x`. -/
def setBits (v lo w x : Nat) : Nat :=
  v / 2 ^ (lo + w) * 2 ^ (lo + w) + x % 2 ^ w * 2 ^ lo + v % 2 ^ lo

/-- `v` with bit `n` set. -/
def setBit (v n : Nat) : Nat := if bit v n then v else v + 2 ^ n

/-- `v` with bit `n` cleared. -/
def clrBit (v n : Nat) : Nat := if bit v n then v - 2 ^ n else v

/-- A Boolean as a bit. -/
def b2n (b : Bool) : Nat := if b then 1 else 0

/-- The positions below `w` at which `v` has a 1. -/
def onesOf (v w : Nat) : List Nat := (List.range w).filter (bit v)

/-- How many of the low `w` bits of `v` are 1. -/
def popCount (v w : Nat) : Nat := (onesOf v w).length

/-- The number whose 1 bits are the listed positions. -/
def maskOf (l : List Nat) : Nat := l.foldl setBit 0

/-- Little-endian bytes of `v`, `n` of them (Table 0.3). -/
def leBytes : Nat → Nat → List Byte
  | 0, _ => []
  | n + 1, v => BitVec.ofNat 8 v :: leBytes n (v / 256)

/-- The number that little-endian bytes spell (Table 0.3). -/
def leNat : List Byte → Nat
  | [] => 0
  | b :: r => b.toNat + 256 * leNat r

/-- `n` bytes of `l` from `k`, zero where `l` is too short. -/
def slice (l : List Byte) (k n : Nat) : List Byte :=
  let t := (l.drop k).take n
  t ++ List.replicate (n - t.length) 0

/-- The little-endian number in `n` bytes of `l` from byte `k`. -/
def leAt (l : List Byte) (k n : Nat) : Nat := leNat (slice l k n)

/-- Saturating sum at `m`. -/
def satAdd (a b m : Nat) : Nat := min (a + b) m

end Sys2Proof.Machine

namespace Sys2Proof

/-- The value at key `k`, if listed. -/
def SMap.get? {α : Type} (m : SMap α) (k : Nat) : Option α :=
  match m with
  | [] => none
  | (k', v) :: r => if k' = k then some v else SMap.get? r k

/-- The value at key `k`, or `d` where the key is not listed. -/
def SMap.getD {α : Type} (m : SMap α) (k : Nat) (d : α) : α := (SMap.get? m k).getD d

/-- `m` without key `k`. -/
def SMap.erase {α : Type} (m : SMap α) (k : Nat) : SMap α := m.filter (fun p => p.1 != k)

/-- Insert into a map that does not list `k`, before the first larger key. -/
def SMap.insert {α : Type} (m : SMap α) (k : Nat) (v : α) : SMap α :=
  match m with
  | [] => [(k, v)]
  | (k', v') :: r => if k < k' then (k, v) :: (k', v') :: r else (k', v') :: SMap.insert r k v

/-- `m` with `k` holding `v`. -/
def SMap.set {α : Type} (m : SMap α) (k : Nat) (v : α) : SMap α := SMap.insert (SMap.erase m k) k v

/-- `m` with `k` holding `v`, kept unlisted when `v` is the default `d`. -/
def SMap.put {α : Type} [DecidableEq α] (m : SMap α) (k : Nat) (d v : α) : SMap α :=
  if v = d then SMap.erase m k else SMap.set m k v

/-- The canonical form of a map: keys strictly rising. -/
def SMap.sorted {α : Type} : SMap α → Bool
  | [] => true
  | [_] => true
  | (k, _) :: (k', v') :: r => decide (k < k') && SMap.sorted ((k', v') :: r)

end Sys2Proof
end

