-- ==== Sys2Proof/Machine/RegTypes.lean ====
section
/-! DEFINITION. The types of the register interface: access types (Table 0.4), fields, and the names of the registers (R304). -/

namespace Sys2Proof.Machine

/-- Access types of Table 0.4. -/
inductive Acc where
  | ro | rw | rw1c | rw1s | wo | rc | rwp | rwpl
  deriving DecidableEq, Repr

/-- One field of a register table. `key` is its bit address in the register space (byte offset times 8 plus its lowest bit) for
index 0; `s1` and `s2` are the strides of its indices in bits; `priv` holds P, T, S and F in bits 0 to 3 (Table 0.5);
`rstAt` lists instances whose reset value differs from `rst`; `kept` says that a warm reset keeps it (R6); `legal` lists the
ranges of legal values, empty when every value is legal. -/
structure Fld where
  key : Nat
  s1 : Nat := 0
  s2 : Nat := 0
  w : Nat
  acc : Acc
  priv : Nat
  rst : Nat := 0
  rstAt : List (Nat × Nat) := []
  kept : Bool := false
  legal : List (Nat × Nat) := []
  deriving DecidableEq, Repr

/-- How the instances of a register are reached (R286): by plain index, by domain, one copy per master, or the service mailbox. -/
inductive Reach where
  | plain | domain | banked
  deriving DecidableEq, Repr

/-- The registers of the block map (R304, Table 13.4), one name for all instances of a register. -/
inductive RegId where
  | HLP_CTL
  | HLP_STAT
  | HLP_EQ
  | HLP_PAT_USER
  | HLP_INJ
  | HLP_RETRAIN_CNT
  | HLP_LN_CTL
  | HLP_LN_ERR
  | HLL_CTL
  | HLL_TURN
  | HLL_SPLIT
  | HLL_LINK
  | HLL_CRD
  | HLL_PCFG
  | HLL_FEC
  | HLL_FLIT
  | HLL_EVT
  | HLL_SEQ
  | RQE_CTL
  | RQE_HASH_MASK
  | RQE_STAT
  | RQE_STAT2
  | RQE_FWD
  | RQE_HAZ
  | RQE_DUP
  | RQE_DOM_CTL
  | RQE_DOM_USE
  | RQE_DOM_REJ
  | RQE_RGN_A
  | RQE_RGN_B
  | REG_CTL
  | REG_S
  | REG_S_IN
  | REG_RT_SUM
  | REG_LT_SUM
  | REG_CTX_IDX
  | REG_CTX_CMD
  | REG_CTX_D0
  | REG_CTX_D1
  | REG_CTX_D2
  | REG_CTX_D3
  | REG_CNT_IDX
  | REG_CNT_LO
  | REG_CNT_HI
  | REG_WSEL_IDX
  | REG_WSEL
  | REG_CLASS
  | REG_CLASS2
  | REG_REFS
  | REG_BOW
  | REG_BOW_EN
  | REG_RSV_A
  | REG_RSV_B
  | REG_RSV_C
  | SCC_CTL
  | SCC_STAT
  | SCC_OCC
  | SCC_OPS_CMD
  | SCC_OPS_STAT
  | SCC_POL
  | SCC_WAYS
  | SCC_XING
  | SCC_XING_STAT
  | SCC_FAULT
  | SCC_DOM_WAYS
  | SCC_RD_HIT
  | SCC_RD_MISS
  | SCC_WR_HIT
  | SCC_WR_MISS
  | SCC_WB
  | SCC_ALLOC_FAIL
  | DMC_CTL
  | DMC_WM
  | DMC_WQ
  | DMC_HANG
  | DMC_STAT
  | DMC_HANG_STAT
  | DMC_TRAIN_CTL
  | DMC_TRAIN_STAT
  | DMC_RD_SECT
  | DMC_WR_SECT
  | DMC_ACT_CNT
  | DMC_HIT_CNT
  | DMC_EMPTY_CNT
  | DMC_CONF_CNT
  | DMC_DRAIN_CNT
  | DMC_WSUP_CNT
  | DMC_RANK_STAT
  | DMC_RANK_DLY
  | DMC_RANK_VREF
  | DMC_RANK_PD
  | DMC_BANK
  | RFM_CTL
  | RFM_BKLG
  | RFM_DBL
  | RFM_DIE
  | RFM_VQ
  | RFM_XING
  | RFM_VREF
  | RFM_REF
  | DIP_CTL
  | DIP_THR
  | DIP_INJ
  | DIP_SCRUB_STAT
  | DIP_SCRUB_FIX
  | DIP_ARR
  | DIP_LOG_STAT
  | DIP_LOG_POP
  | DIP_LOG_W
  | DIP_CE
  | DIP_UE
  | DIP_SCRUB
  | DIP_POS
  | TSV_CTL
  | TSV_STAT
  | TSV_DEAD
  | TSV_PHY_DEAD0
  | TSV_PHY_DEAD1
  | TSV_PHY_DEAD2
  | TSV_MAP_IDX
  | TSV_MAP
  | TSV_CAL_CNT
  | TSV_CA
  | TSV_DROP
  | TSV_RPR_CTL
  | TSV_RPR_STAT
  | TSV_FOLD_CTL
  | TSV_FOLD_STAT
  | TSV_FOLD_PTR
  | TSV_RMAP_IDX
  | TSV_RMAP
  | MGT_CTL
  | MGT_STAT
  | MGT_BOOT
  | MGT_TAKE
  | MGT_HEART
  | MGT_FWVER_A
  | MGT_FWVER_B
  | MGT_SVN
  | MGT_QUIESCE
  | MGT_LEASE
  | MBX_STAT
  | MBX_DB
  | MBX_PTR
  | MBX_DATA
  | MBX_CNT
  | GLB_ID
  | GLB_STAT
  | GLB_CTL
  | GLB_SERIAL
  | GLB_UPTIME_LO
  | GLB_UPTIME_HI
  | GLB_SCRATCH_LO
  | GLB_SCRATCH_HI
  | GLB_LAS
  | GLB_LFAIL
  | GLB_LFAIL_DET
  | GLB_PLOCK
  | GLB_PLOCK_CLR
  | GLB_REJ_M
  | FCR_CTL
  | FCR_STAT
  | FCR_RECOV
  | FCR_FF
  | FCR_FF_OVF
  | FCR_FF_TIME_LO
  | FCR_FF_TIME_HI
  | FCR_FF_SYN
  | FCR_FF_CLR
  | FCR_ALERT
  | FCR_LOG
  | FCR_LOG_CNT
  | FCR_LOG_SEQ
  | FCR_RAISE
  | FCR_RAISE_VAL
  | FCR_DOM
  | FCR_SRC
  | PST_STAT
  | PST_WEAR_IDX
  | PST_WEAR
  | PST_WEAR_SUM
  | PST_REC
  | PST_LIFE
  | PST_BOOTS
  | PST_FUSE_STAT
  | PST_FUSE_LOCKS
  | PST_PREG
  | CST_CAL_CTL
  | CST_CAL_STAT
  | CST_CAL_CNT
  | CST_CAL_TIME
  | CST_CAL_MISC
  | CST_CAL_LINK
  | CST_CAL_TSV
  | CST_CAL_TOFS
  | CST_BIST_STAT
  | CST_BIST_DET
  | CST_BIST
  | CST_BOOT_STAT
  | CST_BOOT_LOST
  | CST_BOOT_TIME
  | PCK_CTL
  | PCK_MODE
  | PCK_STAT
  | PCK_CLK
  | PCK_VOTES
  | PCK_VOTE
  | PCK_REFUSE
  | PCK_REFCNT
  | PCK_RLOG_IDX
  | PCK_RLOG0
  | PCK_RLOG1
  | PCK_PF
  | PCK_KEEL
  | THM_CTL
  | THM_THR
  | THM_STAT
  | THM_COOL
  | THM_SENS_IDX
  | THM_SENS
  | THM_TRIP
  | THM_CNT
  | THM_COOL_STAT
  | SVC_CTL
  | SVC_STAT
  | SVC_AUTH_STAT
  | SVC_USB_ID
  | SVC_DRN_ADDR_LO
  | SVC_DRN_ADDR_HI
  | SVC_DRN_LEN
  | SVC_DRN_CTL
  | SVC_DRN_STAT
  | SVC_DRN_DONE
  | SVC_CNT
  | MBXS_STAT
  | MBXS_DB
  | MBXS_PTR
  | MBXS_DATA
  | MBXS_CNT
  deriving DecidableEq, Repr

/-- A register: byte offset of index 0, first index (`lo1`), the index after the last and stride of both indices, how its instances are reached,
and its fields. -/
structure RegDef where
  off : Nat
  lo1 : Nat := 0
  n1 : Nat := 1
  s1 : Nat := 0
  n2 : Nat := 1
  s2 : Nat := 0
  reach : Reach := .plain
  flds : List Fld
  deriving DecidableEq, Repr

end Sys2Proof.Machine
end

