-- ==== Sys2Proof/Machine/Fields.lean ====
section
/-! DEFINITION. Every field of every register table of the spec: where it lies, its width, access type, privilege letters, legal values and reset value. -/

namespace Sys2Proof.Machine.F

/-- R49, Table 2.8. -/
def HLP_CTL_QUIET_EN : Fld := { key := 4194304, s1 := 32768, w := 1, acc := .rw, priv := 9, rst := 0x1 }
/-- R49, Table 2.8. -/
def HLP_CTL_DEEP_EN : Fld := { key := 4194305, s1 := 32768, w := 1, acc := .rw, priv := 9, rst := 0x1 }
/-- R49, Table 2.8. -/
def HLP_CTL_RETRAIN : Fld := { key := 4194306, s1 := 32768, w := 1, acc := .wo, priv := 9 }
/-- R49, Table 2.8. -/
def HLP_CTL_LOOPBACK : Fld := { key := 4194307, s1 := 32768, w := 2, acc := .rw, priv := 9, legal := [(0, 1)] }
/-- R49, Table 2.8. -/
def HLP_CTL_TEST : Fld := { key := 4194309, s1 := 32768, w := 1, acc := .rw, priv := 9 }
/-- R49, Table 2.8. -/
def HLP_CTL_EQ_FIX : Fld := { key := 4194310, s1 := 32768, w := 1, acc := .rw, priv := 9 }
/-- R49, Table 2.8. -/
def HLP_CTL_QUIET_DLY : Fld := { key := 4194312, s1 := 32768, w := 8, acc := .rw, priv := 9, rst := 0x40, legal := [(1, 255)] }
/-- R49, Table 2.8. -/
def HLP_CTL_FAIL_THR : Fld := { key := 4194320, s1 := 32768, w := 8, acc := .rw, priv := 9, rst := 0x40, legal := [(1, 255)] }
/-- R49, Table 2.9. -/
def HLP_STAT_GSTATE : Fld := { key := 4194336, s1 := 32768, w := 4, acc := .ro, priv := 11 }
/-- R49, Table 2.9. -/
def HLP_STAT_DIR : Fld := { key := 4194340, s1 := 32768, w := 1, acc := .ro, priv := 11 }
/-- R49, Table 2.9. -/
def HLP_STAT_PLL_LOCK : Fld := { key := 4194341, s1 := 32768, w := 1, acc := .ro, priv := 9 }
/-- R49, Table 2.9. -/
def HLP_STAT_LANE_USE : Fld := { key := 4194342, s1 := 32768, w := 17, acc := .ro, priv := 9 }
/-- R49, Table 2.9. -/
def HLP_STAT_SPARE_POS : Fld := { key := 4194359, s1 := 32768, w := 5, acc := .ro, priv := 9 }
/-- R49, Table 2.9. -/
def HLP_STAT_DESKEW_MAX : Fld := { key := 4194364, s1 := 32768, w := 3, acc := .ro, priv := 9 }
/-- R49, Table 2.9. -/
def HLP_STAT_EQ_DONE : Fld := { key := 4194367, s1 := 32768, w := 1, acc := .ro, priv := 9 }
/-- R49, Table 2.10. -/
def HLP_EQ_PRESET_RX : Fld := { key := 4194368, s1 := 32768, w := 4, acc := .rw, priv := 9, kept := true, legal := [(0, 7)] }
/-- R49, Table 2.10. -/
def HLP_EQ_PRESET_TX : Fld := { key := 4194372, s1 := 32768, w := 4, acc := .rw, priv := 9, kept := true, legal := [(0, 7)] }
/-- R49, Table 2.10. -/
def HLP_EQ_CTLE : Fld := { key := 4194376, s1 := 32768, w := 6, acc := .ro, priv := 9 }
/-- R49, Table 2.10. -/
def HLP_EQ_DFE1 : Fld := { key := 4194382, s1 := 32768, w := 6, acc := .ro, priv := 9 }
/-- R49, Table 2.10. -/
def HLP_EQ_EQ_LANE : Fld := { key := 4194388, s1 := 32768, w := 5, acc := .rw, priv := 9, legal := [(0, 16)] }
/-- R49, Table 2.11. -/
def HLP_PAT_USER_PATTERN : Fld := { key := 4194400, s1 := 32768, w := 32, acc := .rw, priv := 9 }
/-- R49, Table 2.12. -/
def HLP_INJ_INJ_LANE : Fld := { key := 4194432, s1 := 32768, w := 5, acc := .rw, priv := 9, legal := [(0, 16)] }
/-- R49, Table 2.12. -/
def HLP_INJ_INJ_MODE : Fld := { key := 4194437, s1 := 32768, w := 2, acc := .rw, priv := 9 }
/-- R49, Table 2.12. -/
def HLP_INJ_INJ_LIVE : Fld := { key := 4194439, s1 := 32768, w := 1, acc := .rw, priv := 9 }
/-- R49, Table 2.12. -/
def HLP_INJ_INJ_EXP : Fld := { key := 4194440, s1 := 32768, w := 6, acc := .rw, priv := 9, rst := 0x14, legal := [(4, 40)] }
/-- R49, Table 2.12. -/
def HLP_INJ_INJ_LEN : Fld := { key := 4194446, s1 := 32768, w := 4, acc := .rw, priv := 9 }
/-- R49, Table 2.12. -/
def HLP_INJ_INJ_GO : Fld := { key := 4194450, s1 := 32768, w := 1, acc := .wo, priv := 9 }
/-- R49, Table 2.12. -/
def HLP_INJ_INJ_ACT : Fld := { key := 4194451, s1 := 32768, w := 1, acc := .ro, priv := 9 }
/-- R49, Table 2.12. -/
def HLP_INJ_INJ_CNT : Fld := { key := 4194452, s1 := 32768, w := 12, acc := .ro, priv := 9 }
/-- R49, Table 2.13. -/
def HLP_RETRAIN_CNT_RETRAINS : Fld := { key := 4194464, s1 := 32768, w := 16, acc := .ro, priv := 11, kept := true }
/-- R49, Table 2.13. -/
def HLP_RETRAIN_CNT_LANE_FAILS : Fld := { key := 4194480, s1 := 32768, w := 16, acc := .ro, priv := 11, kept := true }
/-- R49, Table 2.14. -/
def HLP_LN_CTL_SLIP : Fld := { key := 4196352, s1 := 32768, s2 := 64, w := 5, acc := .rw, priv := 9, kept := true }
/-- R49, Table 2.14. -/
def HLP_LN_CTL_SLIP_MAN : Fld := { key := 4196357, s1 := 32768, s2 := 64, w := 1, acc := .rw, priv := 9, kept := true }
/-- R49, Table 2.14. -/
def HLP_LN_CTL_PAT_SEL : Fld := { key := 4196358, s1 := 32768, s2 := 64, w := 3, acc := .rw, priv := 9 }
/-- R49, Table 2.14. -/
def HLP_LN_CTL_GEN_EN : Fld := { key := 4196361, s1 := 32768, s2 := 64, w := 1, acc := .rw, priv := 9 }
/-- R49, Table 2.14. -/
def HLP_LN_CTL_CHK_EN : Fld := { key := 4196362, s1 := 32768, s2 := 64, w := 1, acc := .rw, priv := 9 }
/-- R49, Table 2.14. -/
def HLP_LN_CTL_CHK_LOCK : Fld := { key := 4196363, s1 := 32768, s2 := 64, w := 1, acc := .ro, priv := 9 }
/-- R49, Table 2.14. -/
def HLP_LN_CTL_CHK_ABORT : Fld := { key := 4196364, s1 := 32768, s2 := 64, w := 1, acc := .rw1c, priv := 9 }
/-- R49, Table 2.14. -/
def HLP_LN_CTL_CHK_OWNER : Fld := { key := 4196365, s1 := 32768, s2 := 64, w := 2, acc := .ro, priv := 9 }
/-- R49, Table 2.14. -/
def HLP_LN_CTL_LSTATE : Fld := { key := 4196367, s1 := 32768, s2 := 64, w := 3, acc := .ro, priv := 9 }
/-- R49, Table 2.14. -/
def HLP_LN_CTL_LOS : Fld := { key := 4196370, s1 := 32768, s2 := 64, w := 1, acc := .rw1c, priv := 9 }
/-- R49, Table 2.14. -/
def HLP_LN_CTL_CDR_LOCK : Fld := { key := 4196371, s1 := 32768, s2 := 64, w := 1, acc := .ro, priv := 9 }
/-- R49, Table 2.15. -/
def HLP_LN_ERR_ERRORS : Fld := { key := 4196384, s1 := 32768, s2 := 64, w := 32, acc := .rc, priv := 9 }
/-- R79, Table 3.10. -/
def HLL_CTL_AUTO_BAL : Fld := { key := 4718592, w := 1, acc := .rw, priv := 9, rst := 0x1 }
/-- R79, Table 3.10. -/
def HLL_CTL_CNT_CLR : Fld := { key := 4718593, w := 1, acc := .wo, priv := 9 }
/-- R79, Table 3.10. -/
def HLL_CTL_REPLAY_THR : Fld := { key := 4718600, w := 8, acc := .rw, priv := 9, rst := 0x20, legal := [(1, 255)] }
/-- R79, Table 3.10. -/
def HLL_CTL_NAK_LIMIT : Fld := { key := 4718608, w := 4, acc := .rw, priv := 9, rst := 0x8, legal := [(2, 15)] }
/-- R79, Table 3.10. -/
def HLL_CTL_ACK_TMO : Fld := { key := 4718612, w := 4, acc := .rw, priv := 9, rst := 0x8, legal := [(1, 15)] }
/-- R79, Table 3.11. -/
def HLL_TURN_TURN_GRP : Fld := { key := 4718624, w := 4, acc := .rw, priv := 9 }
/-- R79, Table 3.11. -/
def HLL_TURN_TURN_DIR : Fld := { key := 4718628, w := 1, acc := .rw, priv := 9 }
/-- R79, Table 3.11. -/
def HLL_TURN_TURN_GO : Fld := { key := 4718629, w := 1, acc := .wo, priv := 9 }
/-- R79, Table 3.11. -/
def HLL_TURN_TURN_BUSY : Fld := { key := 4718630, w := 1, acc := .ro, priv := 11 }
/-- R79, Table 3.11. -/
def HLL_TURN_TURN_RES : Fld := { key := 4718632, w := 8, acc := .ro, priv := 9 }
/-- R79, Table 3.11. -/
def HLL_TURN_TURNS : Fld := { key := 4718640, w := 16, acc := .ro, priv := 11, kept := true }
/-- R79, Table 3.12. -/
def HLL_SPLIT_DIR_MAP : Fld := { key := 4718656, w := 16, acc := .ro, priv := 11 }
/-- R79, Table 3.12. -/
def HLL_SPLIT_IN_SVC : Fld := { key := 4718672, w := 16, acc := .ro, priv := 11 }
/-- R79, Table 3.13. -/
def HLL_LINK_LINK_UP : Fld := { key := 4718688, w := 1, acc := .ro, priv := 11 }
/-- R79, Table 3.13. -/
def HLL_LINK_HOME_H2D : Fld := { key := 4718692, w := 4, acc := .ro, priv := 9 }
/-- R79, Table 3.13. -/
def HLL_LINK_HOME_D2H : Fld := { key := 4718696, w := 4, acc := .ro, priv := 9 }
/-- R79, Table 3.14. -/
def HLL_CRD_VC0_MIN : Fld := { key := 4719104, s1 := 32, w := 16, acc := .rw, priv := 9, rst := 0x200, kept := true, legal := [(32, 65535)] }
/-- R79, Table 3.14. -/
def HLL_CRD_VC0_CAP : Fld := { key := 4719120, s1 := 32, w := 16, acc := .rw, priv := 9, rst := 0x8000, kept := true, legal := [(32, 32768)] }
/-- R79, Table 3.15. -/
def HLL_PCFG_P_VC1 : Fld := { key := 4719616, w := 20, acc := .ro, priv := 9 }
/-- R79, Table 3.15. -/
def HLL_PCFG_P_VC2 : Fld := { key := 4719636, w := 12, acc := .ro, priv := 9 }
/-- R79, Table 3.16. -/
def HLL_FEC_FEC_CORR : Fld := { key := 4720640, s1 := 128, w := 32, acc := .ro, priv := 11, kept := true }
/-- R79, Table 3.17. -/
def HLL_FLIT_BAD_FLITS : Fld := { key := 4720672, s1 := 128, w := 16, acc := .ro, priv := 11, kept := true }
/-- R79, Table 3.17. -/
def HLL_FLIT_REPLAYS : Fld := { key := 4720688, s1 := 128, w := 16, acc := .ro, priv := 11, kept := true }
/-- R79, Table 3.18. -/
def HLL_EVT_SPARES : Fld := { key := 4720704, s1 := 128, w := 8, acc := .ro, priv := 11, kept := true }
/-- R79, Table 3.18. -/
def HLL_EVT_LOSSES : Fld := { key := 4720712, s1 := 128, w := 8, acc := .ro, priv := 11, kept := true }
/-- R79, Table 3.18. -/
def HLL_EVT_PROTO : Fld := { key := 4720720, s1 := 128, w := 8, acc := .ro, priv := 9, kept := true }
/-- R79, Table 3.18. -/
def HLL_EVT_NAKS_TX : Fld := { key := 4720728, s1 := 128, w := 8, acc := .ro, priv := 9, kept := true }
/-- R79, Table 3.19. -/
def HLL_SEQ_TX_NEXT : Fld := { key := 4720736, s1 := 128, w := 10, acc := .ro, priv := 9 }
/-- R79, Table 3.19. -/
def HLL_SEQ_TX_ACKED : Fld := { key := 4720746, s1 := 128, w := 10, acc := .ro, priv := 9 }
/-- R79, Table 3.19. -/
def HLL_SEQ_RX_EXP : Fld := { key := 4720756, s1 := 128, w := 10, acc := .ro, priv := 9 }
/-- R136, Table 5.7. -/
def RQE_CTL_HASH_SEL : Fld := { key := 5242880, w := 2, acc := .rw, priv := 9, kept := true }
/-- R136, Table 5.7. -/
def RQE_CTL_CH_LSB : Fld := { key := 5242882, w := 6, acc := .rw, priv := 9, rst := 0x8, kept := true, legal := [(8, 27)] }
/-- R136, Table 5.7. -/
def RQE_CTL_FWD_EN : Fld := { key := 5242888, w := 1, acc := .rw, priv := 9, rst := 0x1 }
/-- R136, Table 5.7. -/
def RQE_CTL_CNT_CLR : Fld := { key := 5242911, w := 1, acc := .wo, priv := 9 }
/-- R136, Table 5.8. -/
def RQE_HASH_MASK_MASK : Fld := { key := 5243008, s1 := 32, w := 29, acc := .rw, priv := 9, rstAt := [(0, 0x108421), (1, 0x210842), (2, 0x421084), (3, 0x842108), (4, 0x1084210)], kept := true }
/-- R136, Table 5.9. -/
def RQE_STAT_RB_USED : Fld := { key := 5243200, w := 15, acc := .ro, priv := 9 }
/-- R136, Table 5.9. -/
def RQE_STAT_ADMITTED : Fld := { key := 5243215, w := 1, acc := .ro, priv := 11, kept := true }
/-- R136, Table 5.9. -/
def RQE_STAT_WDB_USED : Fld := { key := 5243216, w := 15, acc := .ro, priv := 9 }
/-- R136, Table 5.10. -/
def RQE_STAT2_CDB_USED : Fld := { key := 5243232, w := 16, acc := .ro, priv := 9 }
/-- R136, Table 5.10. -/
def RQE_STAT2_RNG_USED : Fld := { key := 5243248, w := 7, acc := .ro, priv := 9 }
/-- R136, Table 5.11. -/
def RQE_FWD_FWD_SECT : Fld := { key := 5243264, w := 32, acc := .ro, priv := 9, kept := true }
/-- R136, Table 5.12. -/
def RQE_HAZ_HAZ_WAIT : Fld := { key := 5243296, w := 32, acc := .ro, priv := 9, kept := true }
/-- R136, Table 5.13. -/
def RQE_DUP_DUP_TAG : Fld := { key := 5243328, w := 16, acc := .ro, priv := 9 }
/-- R136, Table 5.13. -/
def RQE_DUP_DUP_DOM : Fld := { key := 5243344, w := 4, acc := .ro, priv := 9 }
/-- R136, Table 5.13. -/
def RQE_DUP_DUP_CNT : Fld := { key := 5243352, w := 8, acc := .ro, priv := 9, kept := true }
/-- R136, Table 5.14. -/
def RQE_DOM_CTL_EN : Fld := { key := 5244928, s1 := 128, w := 1, acc := .rw, priv := 9, rst := 0x1 }
/-- R136, Table 5.14. -/
def RQE_DOM_CTL_PURGE : Fld := { key := 5244929, s1 := 128, w := 1, acc := .wo, priv := 9 }
/-- R136, Table 5.14. -/
def RQE_DOM_CTL_PURGE_BUSY : Fld := { key := 5244930, s1 := 128, w := 1, acc := .ro, priv := 11 }
/-- R136, Table 5.14. -/
def RQE_DOM_CTL_RB_CAP : Fld := { key := 5244932, s1 := 128, w := 14, acc := .rw, priv := 9, rst := 0x3CCC, kept := true, legal := [(32, 15564)] }
/-- R136, Table 5.15. -/
def RQE_DOM_USE_RB_USED_D : Fld := { key := 5244960, s1 := 128, w := 15, acc := .ro, priv := 11 }
/-- R136, Table 5.15. -/
def RQE_DOM_USE_LINK_LOST : Fld := { key := 5244976, s1 := 128, w := 16, acc := .ro, priv := 11, kept := true }
/-- R136, Table 5.16. -/
def RQE_DOM_REJ_REJ_OPC : Fld := { key := 5244992, s1 := 128, w := 8, acc := .ro, priv := 11, kept := true }
/-- R136, Table 5.16. -/
def RQE_DOM_REJ_REJ_PRIV : Fld := { key := 5245000, s1 := 128, w := 8, acc := .ro, priv := 11, kept := true }
/-- R136, Table 5.16. -/
def RQE_DOM_REJ_REJ_RANGE : Fld := { key := 5245008, s1 := 128, w := 8, acc := .ro, priv := 11, kept := true }
/-- R136, Table 5.16. -/
def RQE_DOM_REJ_REJ_STATE : Fld := { key := 5245016, s1 := 128, w := 8, acc := .ro, priv := 11, kept := true }
/-- R136, Table 5.17. -/
def RQE_RGN_A_DBASE : Fld := { key := 5251072, s1 := 64, w := 16, acc := .rw, priv := 9, kept := true }
/-- R136, Table 5.17. -/
def RQE_RGN_A_RDOM : Fld := { key := 5251088, s1 := 64, w := 4, acc := .rw, priv := 9, kept := true }
/-- R136, Table 5.17. -/
def RQE_RGN_A_WR : Fld := { key := 5251092, s1 := 64, w := 1, acc := .rw, priv := 9, kept := true }
/-- R136, Table 5.17. -/
def RQE_RGN_A_EN : Fld := { key := 5251103, s1 := 64, w := 1, acc := .rw, priv := 9, kept := true }
/-- R136, Table 5.17. -/
def RQE_RGN_B_SIZE_M1 : Fld := { key := 5251104, s1 := 64, w := 16, acc := .rw, priv := 9, kept := true }
/-- R136, Table 5.17. -/
def RQE_RGN_B_PBASE : Fld := { key := 5251120, s1 := 64, w := 16, acc := .rw, priv := 9, kept := true }
/-- R154, Table 6.5. -/
def REG_CTL_MTR_EN : Fld := { key := 5767168, w := 1, acc := .rw, priv := 9, rst := 0x1, kept := true }
/-- R154, Table 6.5. -/
def REG_CTL_DL_OFS : Fld := { key := 5767172, w := 8, acc := .rw, priv := 9, rst := 0xC, kept := true }
/-- R154, Table 6.5. -/
def REG_CTL_CNT_CLR : Fld := { key := 5767199, w := 1, acc := .wo, priv := 9 }
/-- R154, Table 6.6. -/
def REG_S_S_EST : Fld := { key := 5767200, w := 22, acc := .ro, priv := 11, rst := 0x298100 }
/-- R154, Table 6.6. -/
def REG_S_OVC : Fld := { key := 5767222, w := 1, acc := .ro, priv := 11 }
/-- R154, Table 6.6. -/
def REG_S_FOLD_ACT : Fld := { key := 5767223, w := 1, acc := .ro, priv := 9 }
/-- R154, Table 6.7. -/
def REG_S_IN_THETA : Fld := { key := 5767232, w := 10, acc := .ro, priv := 9 }
/-- R154, Table 6.7. -/
def REG_S_IN_HOT_RANKS : Fld := { key := 5767242, w := 8, acc := .ro, priv := 9 }
/-- R154, Table 6.7. -/
def REG_S_IN_ZERO_CH : Fld := { key := 5767250, w := 6, acc := .ro, priv := 9 }
/-- R154, Table 6.8. -/
def REG_RT_SUM_RT_SUM : Fld := { key := 5767264, w := 22, acc := .ro, priv := 9 }
/-- R154, Table 6.8. -/
def REG_LT_SUM_LT_SUM : Fld := { key := 5767296, w := 22, acc := .ro, priv := 9 }
/-- R154, Table 6.9. -/
def REG_CTX_IDX_CTX_IDX : Fld := { key := 5767424, s1 := 268435456, w := 16, acc := .rw, priv := 11 }
/-- R154, Table 6.9. -/
def REG_CTX_CMD_OP : Fld := { key := 5767456, s1 := 268435456, w := 2, acc := .wo, priv := 11, legal := [(1, 2)] }
/-- R154, Table 6.10. -/
def REG_CTX_D0_CLASS : Fld := { key := 5767552, s1 := 268435456, w := 3, acc := .rw, priv := 11 }
/-- R154, Table 6.10. -/
def REG_CTX_D0_LT_TGT : Fld := { key := 5767555, s1 := 268435456, w := 10, acc := .rw, priv := 11, rst := 0x19 }
/-- R154, Table 6.10. -/
def REG_CTX_D0_RES_IDX : Fld := { key := 5767565, s1 := 268435456, w := 6, acc := .rw, priv := 11 }
/-- R154, Table 6.10. -/
def REG_CTX_D0_ODOM : Fld := { key := 5767571, s1 := 268435456, w := 4, acc := .ro, priv := 11 }
/-- R154, Table 6.10. -/
def REG_CTX_D0_ALLOC : Fld := { key := 5767575, s1 := 268435456, w := 2, acc := .rw, priv := 11 }
/-- R154, Table 6.10. -/
def REG_CTX_D0_OWNED : Fld := { key := 5767577, s1 := 268435456, w := 1, acc := .ro, priv := 11 }
/-- R154, Table 6.10. -/
def REG_CTX_D0_MLAT_CLR : Fld := { key := 5767578, s1 := 268435456, w := 1, acc := .wo, priv := 11 }
/-- R154, Table 6.10. -/
def REG_CTX_D1_MLAT : Fld := { key := 5767584, s1 := 268435456, w := 20, acc := .ro, priv := 11 }
/-- R154, Table 6.10. -/
def REG_CTX_D1_LT_STEP : Fld := { key := 5767604, s1 := 268435456, w := 3, acc := .ro, priv := 11 }
/-- R154, Table 6.10. -/
def REG_CTX_D2_HEAD : Fld := { key := 5767616, s1 := 268435456, w := 14, acc := .ro, priv := 9 }
/-- R154, Table 6.10. -/
def REG_CTX_D2_TAIL : Fld := { key := 5767630, s1 := 268435456, w := 14, acc := .ro, priv := 9 }
/-- R154, Table 6.10. -/
def REG_CTX_D3_QCNT : Fld := { key := 5767648, s1 := 268435456, w := 15, acc := .ro, priv := 11 }
/-- R154, Table 6.11. -/
def REG_CNT_IDX_CIDX : Fld := { key := 5767680, s1 := 268435456, w := 11, acc := .rw, priv := 11 }
/-- R154, Table 6.11. -/
def REG_CNT_LO_CNT_LO : Fld := { key := 5767712, s1 := 268435456, w := 32, acc := .ro, priv := 11 }
/-- R154, Table 6.11. -/
def REG_CNT_HI_CNT_HI : Fld := { key := 5767744, s1 := 268435456, w := 32, acc := .ro, priv := 11 }
/-- R154, Table 6.12. -/
def REG_WSEL_IDX_WIDX : Fld := { key := 5767808, s1 := 268435456, w := 8, acc := .rw, priv := 9 }
/-- R154, Table 6.12. -/
def REG_WSEL_WBOW : Fld := { key := 5767840, w := 16, acc := .rw, priv := 9, kept := true }
/-- R154, Table 6.12. -/
def REG_WSEL_WMASK : Fld := { key := 5767856, w := 16, acc := .rw, priv := 9, rst := 0xFFFF, kept := true }
/-- R154, Table 6.13. -/
def REG_CLASS_KIND : Fld := { key := 5769216, s1 := 128, w := 2, acc := .rw, priv := 9, rstAt := [(2, 0x1), (3, 0x1), (4, 0x2), (5, 0x2), (7, 0x3)], kept := true }
/-- R154, Table 6.13. -/
def REG_CLASS_DEF_DL : Fld := { key := 5769218, s1 := 128, w := 12, acc := .rw, priv := 9, rst := 0x1F4, kept := true, legal := [(1, 4095)] }
/-- R154, Table 6.13. -/
def REG_CLASS_SLACK_Q : Fld := { key := 5769230, s1 := 128, w := 8, acc := .rw, priv := 9, rst := 0x10, kept := true, legal := [(1, 255)] }
/-- R154, Table 6.14. -/
def REG_CLASS2_AGE_Q : Fld := { key := 5769248, s1 := 128, w := 16, acc := .rw, priv := 9, rst := 0x400, rstAt := [(7, 0x4000)], kept := true, legal := [(1, 65535)] }
/-- R154, Table 6.14. -/
def REG_CLASS2_EST : Fld := { key := 5769264, s1 := 128, w := 8, acc := .rw, priv := 9, rst := 0x28, kept := true }
/-- R154, Table 6.14. -/
def REG_REFS_RES_REFS : Fld := { key := 5769280, s1 := 128, w := 17, acc := .ro, priv := 9 }
/-- R154, Table 6.15. -/
def REG_BOW_BOW_BASE : Fld := { key := 5771264, s1 := 64, w := 16, acc := .rw, priv := 9, kept := true }
/-- R154, Table 6.15. -/
def REG_BOW_BOW_LAST : Fld := { key := 5771280, s1 := 64, w := 16, acc := .rw, priv := 9, rstAt := [(0, 0xFFFF)], kept := true }
/-- R154, Table 6.15. -/
def REG_BOW_EN_BOW_EN : Fld := { key := 5771296, s1 := 64, w := 1, acc := .rw, priv := 9, rstAt := [(0, 0x1)], kept := true }
/-- R154, Table 6.15. -/
def REG_BOW_EN_BOW_BUSY : Fld := { key := 5771297, s1 := 64, w := 1, acc := .ro, priv := 11 }
/-- R154, Table 6.16. -/
def REG_RSV_A_RQ_RATE : Fld := { key := 5775360, s1 := 128, w := 22, acc := .rw, priv := 9, kept := true }
/-- R154, Table 6.16. -/
def REG_RSV_A_RKIND : Fld := { key := 5775382, s1 := 128, w := 1, acc := .rw, priv := 9, kept := true }
/-- R154, Table 6.16. -/
def REG_RSV_A_RDOM : Fld := { key := 5775383, s1 := 128, w := 4, acc := .rw, priv := 9, kept := true }
/-- R154, Table 6.16. -/
def REG_RSV_A_EN : Fld := { key := 5775391, s1 := 128, w := 1, acc := .rw, priv := 9, kept := true }
/-- R154, Table 6.16. -/
def REG_RSV_B_GRANT : Fld := { key := 5775392, s1 := 128, w := 22, acc := .ro, priv := 11 }
/-- R154, Table 6.16. -/
def REG_RSV_C_RREFS : Fld := { key := 5775424, s1 := 128, w := 17, acc := .ro, priv := 9 }
/-- R175, Table 7.9. -/
def SCC_CTL_ALLOC_EN : Fld := { key := 8388608, s1 := 32768, w := 1, acc := .rw, priv := 9, rst := 0x1, kept := true }
/-- R175, Table 7.9. -/
def SCC_CTL_WT : Fld := { key := 8388609, s1 := 32768, w := 1, acc := .rw, priv := 9, kept := true }
/-- R175, Table 7.9. -/
def SCC_CTL_BYPASS : Fld := { key := 8388610, s1 := 32768, w := 1, acc := .rw, priv := 9, kept := true }
/-- R175, Table 7.9. -/
def SCC_CTL_UE_THR : Fld := { key := 8388616, s1 := 32768, w := 8, acc := .rw, priv := 9, rst := 0x4, kept := true, legal := [(1, 255)] }
/-- R175, Table 7.9. -/
def SCC_CTL_DIS_LIM : Fld := { key := 8388624, s1 := 32768, w := 4, acc := .rw, priv := 9, rst := 0x4, kept := true, legal := [(1, 8)] }
/-- R175, Table 7.9. -/
def SCC_CTL_CNT_CLR : Fld := { key := 8388639, s1 := 32768, w := 1, acc := .wo, priv := 9 }
/-- R175, Table 7.10. -/
def SCC_STAT_SSTATE : Fld := { key := 8388640, s1 := 32768, w := 3, acc := .ro, priv := 11 }
/-- R175, Table 7.10. -/
def SCC_STAT_SFAULT : Fld := { key := 8388643, s1 := 32768, w := 1, acc := .ro, priv := 11, kept := true }
/-- R175, Table 7.10. -/
def SCC_STAT_FCAUSE : Fld := { key := 8388644, s1 := 32768, w := 4, acc := .ro, priv := 9, kept := true }
/-- R175, Table 7.10. -/
def SCC_STAT_WT_CLEAN : Fld := { key := 8388648, s1 := 32768, w := 1, acc := .ro, priv := 11 }
/-- R175, Table 7.11. -/
def SCC_OCC_DIRTY_LINES : Fld := { key := 8388672, s1 := 32768, w := 17, acc := .ro, priv := 9 }
/-- R175, Table 7.11. -/
def SCC_OCC_VALID_64 : Fld := { key := 8388689, s1 := 32768, w := 11, acc := .ro, priv := 9 }
/-- R175, Table 7.12. -/
def SCC_OPS_CMD_OP : Fld := { key := 8388704, s1 := 32768, w := 2, acc := .wo, priv := 9, legal := [(1, 2)] }
/-- R175, Table 7.12. -/
def SCC_OPS_CMD_SCOPE : Fld := { key := 8388706, s1 := 32768, w := 2, acc := .wo, priv := 9, legal := [(0, 2)] }
/-- R175, Table 7.12. -/
def SCC_OPS_CMD_ODOM : Fld := { key := 8388708, s1 := 32768, w := 4, acc := .wo, priv := 9 }
/-- R175, Table 7.12. -/
def SCC_OPS_CMD_OWAYS : Fld := { key := 8388712, s1 := 32768, w := 16, acc := .wo, priv := 9 }
/-- R175, Table 7.13. -/
def SCC_OPS_STAT_OPS_BUSY : Fld := { key := 8388736, s1 := 32768, w := 1, acc := .ro, priv := 9 }
/-- R175, Table 7.13. -/
def SCC_OPS_STAT_OPS_SET : Fld := { key := 8388737, s1 := 32768, w := 12, acc := .ro, priv := 9 }
/-- R175, Table 7.13. -/
def SCC_OPS_STAT_OPS_RES : Fld := { key := 8388752, s1 := 32768, w := 8, acc := .ro, priv := 9, kept := true }
/-- R175, Table 7.13. -/
def SCC_OPS_STAT_OPS_CNT : Fld := { key := 8388760, s1 := 32768, w := 8, acc := .ro, priv := 9, kept := true }
/-- R175, Table 7.14. -/
def SCC_POL_POL_0 : Fld := { key := 8388768, s1 := 32768, w := 3, acc := .rw, priv := 9, kept := true, legal := [(0, 4)] }
/-- R175, Table 7.14. -/
def SCC_POL_POL_1 : Fld := { key := 8388771, s1 := 32768, w := 3, acc := .rw, priv := 9, kept := true, legal := [(0, 4)] }
/-- R175, Table 7.14. -/
def SCC_POL_POL_2 : Fld := { key := 8388774, s1 := 32768, w := 3, acc := .rw, priv := 9, kept := true, legal := [(0, 4)] }
/-- R175, Table 7.14. -/
def SCC_POL_POL_3 : Fld := { key := 8388777, s1 := 32768, w := 3, acc := .rw, priv := 9, kept := true, legal := [(0, 4)] }
/-- R175, Table 7.14. -/
def SCC_POL_POL_4 : Fld := { key := 8388780, s1 := 32768, w := 3, acc := .rw, priv := 9, kept := true, legal := [(0, 4)] }
/-- R175, Table 7.14. -/
def SCC_POL_POL_5 : Fld := { key := 8388783, s1 := 32768, w := 3, acc := .rw, priv := 9, kept := true, legal := [(0, 4)] }
/-- R175, Table 7.14. -/
def SCC_POL_POL_6 : Fld := { key := 8388786, s1 := 32768, w := 3, acc := .rw, priv := 9, kept := true, legal := [(0, 4)] }
/-- R175, Table 7.14. -/
def SCC_POL_POL_7 : Fld := { key := 8388789, s1 := 32768, w := 3, acc := .rw, priv := 9, rst := 0x4, kept := true, legal := [(0, 4)] }
/-- R175, Table 7.15. -/
def SCC_WAYS_WAY_DIS : Fld := { key := 8388800, s1 := 32768, w := 16, acc := .rw1s, priv := 9, kept := true }
/-- R175, Table 7.15. -/
def SCC_WAYS_BG_WAYS : Fld := { key := 8388816, s1 := 32768, w := 16, acc := .rw, priv := 9, kept := true }
/-- R175, Table 7.16. -/
def SCC_XING_CLK_DLY : Fld := { key := 8388832, s1 := 32768, w := 6, acc := .ro, priv := 9 }
/-- R175, Table 7.16. -/
def SCC_XING_RD_DLY : Fld := { key := 8388838, s1 := 32768, w := 6, acc := .ro, priv := 9 }
/-- R175, Table 7.16. -/
def SCC_XING_WR_DLY : Fld := { key := 8388844, s1 := 32768, w := 6, acc := .ro, priv := 9 }
/-- R175, Table 7.17. -/
def SCC_XING_STAT_MARGIN : Fld := { key := 8388864, s1 := 32768, w := 6, acc := .ro, priv := 9 }
/-- R175, Table 7.17. -/
def SCC_XING_STAT_MARGIN_MIN : Fld := { key := 8388870, s1 := 32768, w := 6, acc := .ro, priv := 9, rst := 0x3F, kept := true }
/-- R175, Table 7.17. -/
def SCC_XING_STAT_MARGIN_LIM : Fld := { key := 8388876, s1 := 32768, w := 6, acc := .rw, priv := 9, rst := 0x6, kept := true, legal := [(1, 31)] }
/-- R175, Table 7.18. -/
def SCC_FAULT_UE_WAY : Fld := { key := 8388896, s1 := 32768, w := 4, acc := .ro, priv := 9 }
/-- R175, Table 7.18. -/
def SCC_FAULT_UE_SET : Fld := { key := 8388900, s1 := 32768, w := 12, acc := .ro, priv := 9 }
/-- R175, Table 7.18. -/
def SCC_FAULT_UE_CNT : Fld := { key := 8388912, s1 := 32768, w := 8, acc := .ro, priv := 9, kept := true }
/-- R175, Table 7.18. -/
def SCC_FAULT_TAG_FIX : Fld := { key := 8388920, s1 := 32768, w := 8, acc := .ro, priv := 9, kept := true }
/-- R175, Table 7.19. -/
def SCC_DOM_WAYS_DWAYS_E : Fld := { key := 8389120, s1 := 32768, s2 := 32, w := 16, acc := .rw, priv := 9, rst := 0xFFFF, kept := true }
/-- R175, Table 7.19. -/
def SCC_DOM_WAYS_DWAYS_O : Fld := { key := 8389136, s1 := 32768, s2 := 32, w := 16, acc := .rw, priv := 9, rst := 0xFFFF, kept := true }
/-- R175, Table 7.19. -/
def SCC_RD_HIT_RD_HIT : Fld := { key := 8389632, s1 := 32768, w := 32, acc := .ro, priv := 9, kept := true }
/-- R175, Table 7.19. -/
def SCC_RD_MISS_RD_MISS : Fld := { key := 8389664, s1 := 32768, w := 32, acc := .ro, priv := 9, kept := true }
/-- R175, Table 7.19. -/
def SCC_WR_HIT_WR_HIT : Fld := { key := 8389696, s1 := 32768, w := 32, acc := .ro, priv := 9, kept := true }
/-- R175, Table 7.19. -/
def SCC_WR_MISS_WR_MISS : Fld := { key := 8389728, s1 := 32768, w := 32, acc := .ro, priv := 9, kept := true }
/-- R175, Table 7.19. -/
def SCC_WB_WB_SECT : Fld := { key := 8389760, s1 := 32768, w := 32, acc := .ro, priv := 9, kept := true }
/-- R175, Table 7.19. -/
def SCC_ALLOC_FAIL_ALLOC_FAIL : Fld := { key := 8389792, s1 := 32768, w := 32, acc := .ro, priv := 9, kept := true }
/-- R197, Table 8.9. -/
def DMC_CTL_PD_EN : Fld := { key := 16777216, s1 := 65536, w := 1, acc := .rw, priv := 9, rst := 0x1, kept := true }
/-- R197, Table 8.9. -/
def DMC_CTL_PD_IDLE : Fld := { key := 16777217, s1 := 65536, w := 8, acc := .rw, priv := 9, rst := 0x40, kept := true, legal := [(16, 255)] }
/-- R197, Table 8.9. -/
def DMC_CTL_HIT_CAP : Fld := { key := 16777225, s1 := 65536, w := 6, acc := .rw, priv := 9, rst := 0x10, kept := true, legal := [(1, 63)] }
/-- R197, Table 8.9. -/
def DMC_CTL_CH_RST : Fld := { key := 16777245, s1 := 65536, w := 1, acc := .wo, priv := 9 }
/-- R197, Table 8.9. -/
def DMC_CTL_CNT_CLR : Fld := { key := 16777247, s1 := 65536, w := 1, acc := .wo, priv := 9 }
/-- R197, Table 8.10. -/
def DMC_WM_WM_LO : Fld := { key := 16777248, s1 := 65536, w := 12, acc := .rw, priv := 9, rst := 0x80, kept := true }
/-- R197, Table 8.10. -/
def DMC_WM_WM_HI : Fld := { key := 16777260, s1 := 65536, w := 12, acc := .rw, priv := 9, rst := 0x200, kept := true }
/-- R197, Table 8.11. -/
def DMC_WQ_WQ_CAP : Fld := { key := 16777280, s1 := 65536, w := 12, acc := .rw, priv := 9, rst := 0x400, kept := true, legal := [(64, 2048)] }
/-- R197, Table 8.11. -/
def DMC_WQ_DRAIN_MAX : Fld := { key := 16777292, s1 := 65536, w := 8, acc := .rw, priv := 9, rst := 0x40, kept := true, legal := [(1, 255)] }
/-- R197, Table 8.11. -/
def DMC_WQ_READ_MIN : Fld := { key := 16777300, s1 := 65536, w := 8, acc := .rw, priv := 9, rst := 0x20, kept := true, legal := [(1, 255)] }
/-- R197, Table 8.12. -/
def DMC_HANG_HANG_TMO : Fld := { key := 16777312, s1 := 65536, w := 7, acc := .rw, priv := 9, rst := 0x14, kept := true, legal := [(5, 100)] }
/-- R197, Table 8.12. -/
def DMC_HANG_HANG_LIM : Fld := { key := 16777319, s1 := 65536, w := 4, acc := .rw, priv := 9, rst := 0x3, kept := true, legal := [(1, 15)] }
/-- R197, Table 8.12. -/
def DMC_HANG_BG_PROMOTE : Fld := { key := 16777323, s1 := 65536, w := 8, acc := .rw, priv := 9, rst := 0x32, kept := true, legal := [(1, 255)] }
/-- R197, Table 8.13. -/
def DMC_STAT_CSTATE : Fld := { key := 16777344, s1 := 65536, w := 3, acc := .ro, priv := 11 }
/-- R197, Table 8.13. -/
def DMC_STAT_MODE : Fld := { key := 16777347, s1 := 65536, w := 1, acc := .ro, priv := 9 }
/-- R197, Table 8.13. -/
def DMC_STAT_FORCED : Fld := { key := 16777348, s1 := 65536, w := 1, acc := .ro, priv := 9 }
/-- R197, Table 8.13. -/
def DMC_STAT_WQ_USED : Fld := { key := 16777349, s1 := 65536, w := 12, acc := .ro, priv := 9 }
/-- R197, Table 8.13. -/
def DMC_STAT_RMW_USED : Fld := { key := 16777361, s1 := 65536, w := 5, acc := .ro, priv := 9 }
/-- R197, Table 8.13. -/
def DMC_STAT_HANG_LIM_HIT : Fld := { key := 16777366, s1 := 65536, w := 1, acc := .rw1c, priv := 9, kept := true }
/-- R197, Table 8.14. -/
def DMC_HANG_STAT_HCAUSE : Fld := { key := 16777376, s1 := 65536, w := 2, acc := .ro, priv := 9, kept := true }
/-- R197, Table 8.14. -/
def DMC_HANG_STAT_HANGS : Fld := { key := 16777384, s1 := 65536, w := 8, acc := .ro, priv := 11, kept := true }
/-- R197, Table 8.14. -/
def DMC_HANG_STAT_TMO_CPL : Fld := { key := 16777392, s1 := 65536, w := 16, acc := .ro, priv := 9, kept := true }
/-- R197, Table 8.15. -/
def DMC_TRAIN_CTL_TRAIN_GO : Fld := { key := 16777408, s1 := 65536, w := 1, acc := .wo, priv := 9 }
/-- R197, Table 8.15. -/
def DMC_TRAIN_CTL_TRK_EN : Fld := { key := 16777409, s1 := 65536, w := 1, acc := .rw, priv := 9, rst := 0x1, kept := true }
/-- R197, Table 8.16. -/
def DMC_TRAIN_STAT_TR_PASS : Fld := { key := 16777440, s1 := 65536, w := 4, acc := .ro, priv := 11, kept := true }
/-- R197, Table 8.16. -/
def DMC_TRAIN_STAT_TR_RETRIES : Fld := { key := 16777444, s1 := 65536, w := 8, acc := .ro, priv := 9, kept := true }
/-- R197, Table 8.16. -/
def DMC_TRAIN_STAT_TR_TIME : Fld := { key := 16777452, s1 := 65536, w := 12, acc := .ro, priv := 9, kept := true }
/-- R197, Table 8.16. -/
def DMC_TRAIN_STAT_TR_BUSY : Fld := { key := 16777464, s1 := 65536, w := 1, acc := .ro, priv := 9 }
/-- R197, Table 8.17. -/
def DMC_RD_SECT_RD_SECT : Fld := { key := 16777472, s1 := 65536, w := 32, acc := .ro, priv := 9, kept := true }
/-- R197, Table 8.17. -/
def DMC_WR_SECT_WR_SECT : Fld := { key := 16777504, s1 := 65536, w := 32, acc := .ro, priv := 9, kept := true }
/-- R197, Table 8.17. -/
def DMC_ACT_CNT_ACT_CNT : Fld := { key := 16777536, s1 := 65536, w := 32, acc := .ro, priv := 9, kept := true }
/-- R197, Table 8.17. -/
def DMC_HIT_CNT_HIT_CNT : Fld := { key := 16777568, s1 := 65536, w := 32, acc := .ro, priv := 9, kept := true }
/-- R197, Table 8.17. -/
def DMC_EMPTY_CNT_EMPTY_CNT : Fld := { key := 16777600, s1 := 65536, w := 32, acc := .ro, priv := 9, kept := true }
/-- R197, Table 8.17. -/
def DMC_CONF_CNT_CONF_CNT : Fld := { key := 16777632, s1 := 65536, w := 32, acc := .ro, priv := 9, kept := true }
/-- R197, Table 8.17. -/
def DMC_DRAIN_CNT_DRAIN_CNT : Fld := { key := 16777664, s1 := 65536, w := 32, acc := .ro, priv := 9, kept := true }
/-- R197, Table 8.17. -/
def DMC_WSUP_CNT_WSUP_CNT : Fld := { key := 16777696, s1 := 65536, w := 32, acc := .ro, priv := 9, kept := true }
/-- R197, Table 8.18. -/
def DMC_RANK_STAT_PSTATE : Fld := { key := 16777728, s1 := 65536, s2 := 128, w := 2, acc := .ro, priv := 9 }
/-- R197, Table 8.18. -/
def DMC_RANK_DLY_CA_DLY : Fld := { key := 16777760, s1 := 65536, s2 := 128, w := 6, acc := .ro, priv := 9, kept := true }
/-- R197, Table 8.18. -/
def DMC_RANK_DLY_WL_DLY : Fld := { key := 16777766, s1 := 65536, s2 := 128, w := 6, acc := .ro, priv := 9, kept := true }
/-- R197, Table 8.18. -/
def DMC_RANK_DLY_RG_DLY : Fld := { key := 16777772, s1 := 65536, s2 := 128, w := 6, acc := .ro, priv := 9, kept := true }
/-- R197, Table 8.18. -/
def DMC_RANK_VREF_RD_VREF : Fld := { key := 16777792, s1 := 65536, s2 := 128, w := 7, acc := .ro, priv := 9, kept := true }
/-- R197, Table 8.18. -/
def DMC_RANK_VREF_WR_VREF : Fld := { key := 16777799, s1 := 65536, s2 := 128, w := 7, acc := .ro, priv := 9, kept := true }
/-- R197, Table 8.18. -/
def DMC_RANK_PD_PD_ENTRIES : Fld := { key := 16777824, s1 := 65536, s2 := 128, w := 32, acc := .ro, priv := 9, kept := true }
/-- R197, Table 8.19. -/
def DMC_BANK_ROW_E : Fld := { key := 16779264, s1 := 65536, s2 := 32, w := 16, acc := .ro, priv := 9, rst := 0xFFFF }
/-- R197, Table 8.19. -/
def DMC_BANK_ROW_O : Fld := { key := 16779280, s1 := 65536, s2 := 32, w := 16, acc := .ro, priv := 9, rst := 0xFFFF }
/-- R213, Table 9.5. -/
def RFM_CTL_ST_THR : Fld := { key := 6815744, w := 14, acc := .rw, priv := 9, rst := 0x400, kept := true, legal := [(128, 8192)] }
/-- R213, Table 9.5. -/
def RFM_CTL_POSTPONE : Fld := { key := 6815758, w := 4, acc := .rw, priv := 9, rst := 0x4, kept := true, legal := [(1, 8)] }
/-- R213, Table 9.5. -/
def RFM_CTL_FORCE_2X : Fld := { key := 6815762, w := 1, acc := .rw, priv := 9, kept := true }
/-- R213, Table 9.5. -/
def RFM_CTL_CNT_CLR : Fld := { key := 6815775, w := 1, acc := .wo, priv := 9 }
/-- R213, Table 9.6. -/
def RFM_BKLG_BKLG_THR : Fld := { key := 6815776, w := 7, acc := .rw, priv := 9, rst := 0x30, kept := true, legal := [(16, 64)] }
/-- R213, Table 9.6. -/
def RFM_BKLG_BKLG_TMO : Fld := { key := 6815783, w := 8, acc := .rw, priv := 9, rst := 0x14, kept := true, legal := [(1, 255)] }
/-- R213, Table 9.7. -/
def RFM_DBL_DBL_MAP : Fld := { key := 6815808, w := 16, acc := .ro, priv := 11, rst := 0xFFFF }
/-- R213, Table 9.7. -/
def RFM_DBL_SBAD_MAP : Fld := { key := 6815824, w := 16, acc := .ro, priv := 9 }
/-- R213, Table 9.8. -/
def RFM_DIE_DTEMP : Fld := { key := 6816256, s1 := 32, w := 8, acc := .ro, priv := 9 }
/-- R213, Table 9.8. -/
def RFM_DIE_DBL : Fld := { key := 6816264, s1 := 32, w := 1, acc := .ro, priv := 9, rst := 0x1 }
/-- R213, Table 9.8. -/
def RFM_DIE_SBAD : Fld := { key := 6816265, s1 := 32, w := 1, acc := .ro, priv := 9 }
/-- R213, Table 9.8. -/
def RFM_DIE_RATE_CHG : Fld := { key := 6816266, s1 := 32, w := 16, acc := .ro, priv := 9, kept := true }
/-- R213, Table 9.9. -/
def RFM_VQ_VQ_USED : Fld := { key := 6817792, s1 := 128, w := 7, acc := .ro, priv := 9 }
/-- R213, Table 9.9. -/
def RFM_VQ_VQ_PEAK : Fld := { key := 6817799, s1 := 128, w := 7, acc := .ro, priv := 9, kept := true }
/-- R213, Table 9.9. -/
def RFM_VQ_DIE_OVF : Fld := { key := 6817806, s1 := 128, w := 1, acc := .rw1c, priv := 9, kept := true }
/-- R213, Table 9.9. -/
def RFM_VQ_SW_ERR : Fld := { key := 6817807, s1 := 128, w := 1, acc := .rw1c, priv := 9, kept := true }
/-- R213, Table 9.9. -/
def RFM_VQ_RPT_UE : Fld := { key := 6817808, s1 := 128, w := 8, acc := .ro, priv := 9, kept := true }
/-- R213, Table 9.10. -/
def RFM_XING_XINGS : Fld := { key := 6817824, s1 := 128, w := 32, acc := .ro, priv := 11, kept := true }
/-- R213, Table 9.11. -/
def RFM_VREF_VREFS : Fld := { key := 6817856, s1 := 128, w := 32, acc := .ro, priv := 11, kept := true }
/-- R213, Table 9.12. -/
def RFM_REF_MAX_DEBT : Fld := { key := 6817888, s1 := 128, w := 4, acc := .ro, priv := 9, kept := true }
/-- R213, Table 9.12. -/
def RFM_REF_OVERDUE : Fld := { key := 6817892, s1 := 128, w := 24, acc := .ro, priv := 9, kept := true }
/-- R213, Table 9.12. -/
def RFM_REF_SLIPS : Fld := { key := 6817916, s1 := 128, w := 4, acc := .ro, priv := 9, kept := true }
/-- R238, Table 10.7. -/
def DIP_CTL_SCRUB_EN : Fld := { key := 6291456, w := 1, acc := .rw, priv := 9, rst := 0x1, kept := true }
/-- R238, Table 10.7. -/
def DIP_CTL_CSCRUB_EN : Fld := { key := 6291457, w := 1, acc := .rw, priv := 9, rst := 0x1, kept := true }
/-- R238, Table 10.7. -/
def DIP_CTL_SCRUB_PER : Fld := { key := 6291458, w := 8, acc := .rw, priv := 9, rst := 0x18, kept := true, legal := [(1, 255)] }
/-- R238, Table 10.7. -/
def DIP_CTL_ROW_CE_THR : Fld := { key := 6291466, w := 8, acc := .rw, priv := 9, rst := 0x4, kept := true, legal := [(1, 128)] }
/-- R238, Table 10.7. -/
def DIP_CTL_ROW_2BIT : Fld := { key := 6291474, w := 1, acc := .rw, priv := 9, rst := 0x1, kept := true }
/-- R238, Table 10.7. -/
def DIP_CTL_CNT_CLR : Fld := { key := 6291487, w := 1, acc := .wo, priv := 9 }
/-- R238, Table 10.8. -/
def DIP_THR_CE_THR : Fld := { key := 6291488, w := 16, acc := .rw, priv := 9, rst := 0x400, kept := true, legal := [(1, 65535)] }
/-- R238, Table 10.8. -/
def DIP_THR_POS_THR : Fld := { key := 6291504, w := 8, acc := .rw, priv := 9, rst := 0x40, kept := true, legal := [(1, 255)] }
/-- R238, Table 10.9. -/
def DIP_INJ_INJ_CH : Fld := { key := 6291520, w := 5, acc := .rw, priv := 9 }
/-- R238, Table 10.9. -/
def DIP_INJ_INJ_POS1 : Fld := { key := 6291525, w := 7, acc := .rw, priv := 9, rst := 0x7F, legal := [(0, 79), (127, 127)] }
/-- R238, Table 10.9. -/
def DIP_INJ_INJ_POS2 : Fld := { key := 6291532, w := 7, acc := .rw, priv := 9, rst := 0x7F, legal := [(0, 79), (127, 127)] }
/-- R238, Table 10.9. -/
def DIP_INJ_INJ_BEAT : Fld := { key := 6291539, w := 3, acc := .rw, priv := 9 }
/-- R238, Table 10.9. -/
def DIP_INJ_INJ_ARM : Fld := { key := 6291542, w := 1, acc := .wo, priv := 9 }
/-- R238, Table 10.9. -/
def DIP_INJ_INJ_ARMED : Fld := { key := 6291543, w := 1, acc := .ro, priv := 9 }
/-- R238, Table 10.10. -/
def DIP_SCRUB_STAT_PASS_CNT : Fld := { key := 6291552, w := 16, acc := .ro, priv := 11, kept := true }
/-- R238, Table 10.10. -/
def DIP_SCRUB_STAT_SCRUB_PAUSED : Fld := { key := 6291568, w := 1, acc := .ro, priv := 9 }
/-- R238, Table 10.10. -/
def DIP_SCRUB_STAT_SCRUB_UNSAFE : Fld := { key := 6291569, w := 1, acc := .ro, priv := 9 }
/-- R238, Table 10.11. -/
def DIP_SCRUB_FIX_SCRUB_FIX : Fld := { key := 6291584, w := 32, acc := .ro, priv := 9, kept := true }
/-- R238, Table 10.12. -/
def DIP_ARR_ARR_CE : Fld := { key := 6291616, w := 16, acc := .ro, priv := 9, kept := true }
/-- R238, Table 10.12. -/
def DIP_ARR_ARR_UE : Fld := { key := 6291632, w := 16, acc := .ro, priv := 9, kept := true }
/-- R238, Table 10.13. -/
def DIP_LOG_STAT_LOG_CNT : Fld := { key := 6291648, w := 7, acc := .ro, priv := 9 }
/-- R238, Table 10.13. -/
def DIP_LOG_STAT_LOG_OVF : Fld := { key := 6291655, w := 1, acc := .rw1c, priv := 9, kept := true }
/-- R238, Table 10.13. -/
def DIP_LOG_STAT_LOG_TOTAL : Fld := { key := 6291656, w := 24, acc := .ro, priv := 9, kept := true }
/-- R238, Table 10.14. -/
def DIP_LOG_POP_POP : Fld := { key := 6291680, w := 1, acc := .wo, priv := 9 }
/-- R238, Table 10.15. -/
def DIP_LOG_W_LOG_WORD : Fld := { key := 6291712, s1 := 32, w := 32, acc := .ro, priv := 9 }
/-- R238, Table 10.16. -/
def DIP_CE_CE_CNT : Fld := { key := 6293504, s1 := 128, w := 32, acc := .ro, priv := 11, kept := true }
/-- R238, Table 10.16. -/
def DIP_UE_UE_CNT : Fld := { key := 6293536, s1 := 128, w := 16, acc := .ro, priv := 11, kept := true }
/-- R238, Table 10.16. -/
def DIP_UE_POISON_RD : Fld := { key := 6293552, s1 := 128, w := 16, acc := .ro, priv := 9, kept := true }
/-- R238, Table 10.17. -/
def DIP_SCRUB_SCRUB_BANK : Fld := { key := 6293568, s1 := 128, w := 7, acc := .ro, priv := 9, kept := true }
/-- R238, Table 10.17. -/
def DIP_SCRUB_SCRUB_ROW : Fld := { key := 6293575, s1 := 128, w := 16, acc := .ro, priv := 9, kept := true }
/-- R238, Table 10.17. -/
def DIP_POS_TOP_POS : Fld := { key := 6293600, s1 := 128, w := 7, acc := .ro, priv := 9, rst := 0x7F }
/-- R238, Table 10.17. -/
def DIP_POS_TOP_CNT : Fld := { key := 6293607, s1 := 128, w := 8, acc := .ro, priv := 9 }
/-- R238, Table 10.17. -/
def DIP_POS_SUSP_POS : Fld := { key := 6293615, s1 := 128, w := 7, acc := .ro, priv := 9, rst := 0x7F }
/-- R238, Table 10.17. -/
def DIP_POS_ROW_TRIG : Fld := { key := 6293622, s1 := 128, w := 10, acc := .ro, priv := 9, kept := true }
/-- R260, Table 11.8. -/
def TSV_CTL_ROLL_EN : Fld := { key := 7340032, s1 := 16384, w := 1, acc := .rw, priv := 9, rst := 0x1, kept := true }
/-- R260, Table 11.8. -/
def TSV_CTL_FAST_EN : Fld := { key := 7340033, s1 := 16384, w := 1, acc := .rw, priv := 9, rst := 0x1, kept := true }
/-- R260, Table 11.8. -/
def TSV_CTL_KILL_PHY : Fld := { key := 7340040, s1 := 16384, w := 7, acc := .rw, priv := 9, legal := [(0, 83)] }
/-- R260, Table 11.8. -/
def TSV_CTL_KILL : Fld := { key := 7340047, s1 := 16384, w := 1, acc := .wo, priv := 9 }
/-- R260, Table 11.8. -/
def TSV_CTL_CNT_CLR : Fld := { key := 7340063, s1 := 16384, w := 1, acc := .wo, priv := 9 }
/-- R260, Table 11.9. -/
def TSV_STAT_TSTATE : Fld := { key := 7340064, s1 := 16384, w := 3, acc := .ro, priv := 11 }
/-- R260, Table 11.9. -/
def TSV_STAT_DFAIL : Fld := { key := 7340067, s1 := 16384, w := 3, acc := .ro, priv := 11, kept := true }
/-- R260, Table 11.9. -/
def TSV_STAT_SHADOW_PHY : Fld := { key := 7340070, s1 := 16384, w := 7, acc := .ro, priv := 9 }
/-- R260, Table 11.9. -/
def TSV_STAT_CAL_PHY : Fld := { key := 7340077, s1 := 16384, w := 7, acc := .ro, priv := 9 }
/-- R260, Table 11.9. -/
def TSV_STAT_CAL_BUSY : Fld := { key := 7340084, s1 := 16384, w := 1, acc := .ro, priv := 9 }
/-- R260, Table 11.9. -/
def TSV_STAT_STALL_CAL : Fld := { key := 7340085, s1 := 16384, w := 1, acc := .ro, priv := 9 }
/-- R260, Table 11.9. -/
def TSV_STAT_CA_SPARES : Fld := { key := 7340086, s1 := 16384, w := 2, acc := .ro, priv := 9, kept := true }
/-- R260, Table 11.9. -/
def TSV_STAT_STB_SPARE : Fld := { key := 7340088, s1 := 16384, w := 1, acc := .ro, priv := 9, kept := true }
/-- R260, Table 11.10. -/
def TSV_DEAD_DEAD_POS1 : Fld := { key := 7340096, s1 := 16384, w := 7, acc := .ro, priv := 9 }
/-- R260, Table 11.10. -/
def TSV_DEAD_DEAD_POS2 : Fld := { key := 7340103, s1 := 16384, w := 7, acc := .ro, priv := 9 }
/-- R260, Table 11.10. -/
def TSV_DEAD_CAL_FAILS : Fld := { key := 7340110, s1 := 16384, w := 10, acc := .ro, priv := 9, kept := true }
/-- R260, Table 11.10. -/
def TSV_DEAD_FAST_CNT : Fld := { key := 7340120, s1 := 16384, w := 8, acc := .ro, priv := 9, kept := true }
/-- R260, Table 11.11. -/
def TSV_PHY_DEAD0_PHY_DEAD : Fld := { key := 7340128, s1 := 16384, w := 32, acc := .ro, priv := 9, kept := true }
/-- R260, Table 11.11. -/
def TSV_PHY_DEAD1_PHY_DEAD : Fld := { key := 7340160, s1 := 16384, w := 32, acc := .ro, priv := 9, kept := true }
/-- R260, Table 11.11. -/
def TSV_PHY_DEAD2_PHY_DEAD : Fld := { key := 7340192, s1 := 16384, w := 20, acc := .ro, priv := 9, kept := true }
/-- R260, Table 11.12. -/
def TSV_MAP_IDX_LPOS : Fld := { key := 7340224, s1 := 16384, w := 7, acc := .rw, priv := 9, legal := [(0, 79)] }
/-- R260, Table 11.12. -/
def TSV_MAP_PHY : Fld := { key := 7340256, s1 := 16384, w := 7, acc := .ro, priv := 9 }
/-- R260, Table 11.12. -/
def TSV_MAP_RD_DLYT : Fld := { key := 7340263, s1 := 16384, w := 6, acc := .ro, priv := 9 }
/-- R260, Table 11.12. -/
def TSV_MAP_WR_DLYT : Fld := { key := 7340269, s1 := 16384, w := 6, acc := .ro, priv := 9 }
/-- R260, Table 11.13. -/
def TSV_CAL_CNT_CAL_STEPS : Fld := { key := 7340288, s1 := 16384, w := 32, acc := .ro, priv := 9, kept := true }
/-- R260, Table 11.14. -/
def TSV_CA_CA_DEAD : Fld := { key := 7340320, s1 := 16384, w := 26, acc := .ro, priv := 9, kept := true }
/-- R260, Table 11.14. -/
def TSV_CA_STB_DEAD : Fld := { key := 7340346, s1 := 16384, w := 5, acc := .ro, priv := 9, kept := true }
/-- R260, Table 11.15. -/
def TSV_DROP_DROP_WR : Fld := { key := 7340352, s1 := 16384, w := 32, acc := .ro, priv := 11, kept := true }
/-- R260, Table 11.16. -/
def TSV_RPR_CTL_RPR_ROW : Fld := { key := 7340384, s1 := 16384, w := 15, acc := .rw, priv := 9 }
/-- R260, Table 11.16. -/
def TSV_RPR_CTL_RPR_BANK : Fld := { key := 7340399, s1 := 16384, w := 5, acc := .rw, priv := 9 }
/-- R260, Table 11.16. -/
def TSV_RPR_CTL_RPR_RANK : Fld := { key := 7340404, s1 := 16384, w := 2, acc := .rw, priv := 9 }
/-- R260, Table 11.16. -/
def TSV_RPR_CTL_RPR_GO : Fld := { key := 7340406, s1 := 16384, w := 1, acc := .wo, priv := 9 }
/-- R260, Table 11.17. -/
def TSV_RPR_STAT_RPR_BUSY : Fld := { key := 7340416, s1 := 16384, w := 1, acc := .ro, priv := 9 }
/-- R260, Table 11.17. -/
def TSV_RPR_STAT_RPR_QUEUED : Fld := { key := 7340417, s1 := 16384, w := 4, acc := .ro, priv := 9 }
/-- R260, Table 11.17. -/
def TSV_RPR_STAT_RPR_RES : Fld := { key := 7340421, s1 := 16384, w := 8, acc := .ro, priv := 9, kept := true }
/-- R260, Table 11.17. -/
def TSV_RPR_STAT_RPR_DONE : Fld := { key := 7340429, s1 := 16384, w := 10, acc := .ro, priv := 11, kept := true }
/-- R260, Table 11.17. -/
def TSV_RPR_STAT_NOSPARE : Fld := { key := 7340439, s1 := 16384, w := 9, acc := .ro, priv := 9, kept := true }
/-- R260, Table 11.18. -/
def TSV_FOLD_CTL_FR_MODE : Fld := { key := 7864320, w := 1, acc := .rwp, priv := 9, kept := true }
/-- R260, Table 11.18. -/
def TSV_FOLD_CTL_FOLD_AUTO : Fld := { key := 7864321, w := 1, acc := .rwp, priv := 9, kept := true }
/-- R260, Table 11.18. -/
def TSV_FOLD_CTL_FOLD_CH : Fld := { key := 7864322, w := 5, acc := .rw, priv := 9 }
/-- R260, Table 11.18. -/
def TSV_FOLD_CTL_FOLD_GO : Fld := { key := 7864327, w := 1, acc := .wo, priv := 9 }
/-- R260, Table 11.18. -/
def TSV_FOLD_STAT_FSTATE : Fld := { key := 7864352, w := 3, acc := .ro, priv := 11, kept := true }
/-- R260, Table 11.18. -/
def TSV_FOLD_STAT_FOLDED_CH : Fld := { key := 7864355, w := 5, acc := .ro, priv := 11, kept := true }
/-- R260, Table 11.18. -/
def TSV_FOLD_STAT_FCHUNK : Fld := { key := 7864360, w := 5, acc := .ro, priv := 9 }
/-- R260, Table 11.18. -/
def TSV_FOLD_PTR_FOLD_PTR : Fld := { key := 7864384, w := 22, acc := .ro, priv := 11, kept := true }
/-- R260, Table 11.19. -/
def TSV_RMAP_IDX_RM_CH : Fld := { key := 7864448, w := 5, acc := .rw, priv := 9 }
/-- R260, Table 11.19. -/
def TSV_RMAP_IDX_RM_BANK : Fld := { key := 7864453, w := 7, acc := .rw, priv := 9 }
/-- R260, Table 11.19. -/
def TSV_RMAP_IDX_RM_SPARE : Fld := { key := 7864460, w := 5, acc := .rw, priv := 9 }
/-- R260, Table 11.19. -/
def TSV_RMAP_RROW : Fld := { key := 7864480, w := 15, acc := .ro, priv := 9, kept := true }
/-- R260, Table 11.19. -/
def TSV_RMAP_RV : Fld := { key := 7864495, w := 1, acc := .ro, priv := 9, kept := true }
/-- R260, Table 11.19. -/
def TSV_RMAP_RBAD : Fld := { key := 7864496, w := 1, acc := .ro, priv := 9, kept := true }
/-- R284, Table 12.22. -/
def MGT_CTL_STBY_EN : Fld := { key := 3145728, w := 1, acc := .rw, priv := 9, rst := 0x1, kept := true }
/-- R284, Table 12.22. -/
def MGT_CTL_TAKE : Fld := { key := 3145729, w := 1, acc := .wo, priv := 9 }
/-- R284, Table 12.22. -/
def MGT_CTL_WDT_US : Fld := { key := 3145730, w := 8, acc := .rw, priv := 9, rst := 0x64, kept := true, legal := [(20, 250)] }
/-- R284, Table 12.22. -/
def MGT_CTL_TRIAL_S : Fld := { key := 3145738, w := 8, acc := .rw, priv := 9, rst := 0xA, kept := true, legal := [(1, 255)] }
/-- R284, Table 12.23. -/
def MGT_STAT_ACTIVE : Fld := { key := 3145760, w := 1, acc := .ro, priv := 11 }
/-- R284, Table 12.23. -/
def MGT_STAT_A_STATE : Fld := { key := 3145761, w := 3, acc := .ro, priv := 9 }
/-- R284, Table 12.23. -/
def MGT_STAT_B_STATE : Fld := { key := 3145764, w := 3, acc := .ro, priv := 9 }
/-- R284, Table 12.23. -/
def MGT_STAT_A_SLOT : Fld := { key := 3145767, w := 1, acc := .ro, priv := 9 }
/-- R284, Table 12.23. -/
def MGT_STAT_B_SLOT : Fld := { key := 3145768, w := 1, acc := .ro, priv := 9 }
/-- R284, Table 12.23. -/
def MGT_STAT_MCK_PLL : Fld := { key := 3145769, w := 1, acc := .ro, priv := 9 }
/-- R284, Table 12.23. -/
def MGT_STAT_TRIAL : Fld := { key := 3145770, w := 1, acc := .ro, priv := 11 }
/-- R284, Table 12.24. -/
def MGT_BOOT_BOOT_SLOT : Fld := { key := 3145792, w := 1, acc := .rwp, priv := 9, kept := true }
/-- R284, Table 12.24. -/
def MGT_TAKE_TAKEOVERS : Fld := { key := 3145824, w := 8, acc := .ro, priv := 11, kept := true }
/-- R284, Table 12.24. -/
def MGT_TAKE_TCAUSE : Fld := { key := 3145832, w := 4, acc := .ro, priv := 9 }
/-- R284, Table 12.25. -/
def MGT_HEART_BEAT : Fld := { key := 3145856, w := 1, acc := .wo, priv := 8 }
/-- R284, Table 12.25. -/
def MGT_FWVER_A_VER_A : Fld := { key := 3145888, w := 32, acc := .ro, priv := 11, kept := true }
/-- R284, Table 12.25. -/
def MGT_FWVER_B_VER_B : Fld := { key := 3145920, w := 32, acc := .ro, priv := 11, kept := true }
/-- R284, Table 12.25. -/
def MGT_SVN_SVN_FUSE : Fld := { key := 3145952, w := 7, acc := .ro, priv := 11, kept := true }
/-- R284, Table 12.25. -/
def MGT_SVN_SVN_A : Fld := { key := 3145959, w := 7, acc := .ro, priv := 9, kept := true }
/-- R284, Table 12.25. -/
def MGT_SVN_SVN_B : Fld := { key := 3145966, w := 7, acc := .ro, priv := 9, kept := true }
/-- R284, Table 12.26. -/
def MGT_QUIESCE_WE_STACK : Fld := { key := 3145984, w := 1, acc := .rw, priv := 9 }
/-- R284, Table 12.26. -/
def MGT_QUIESCE_WE_DONE : Fld := { key := 3145985, w := 1, acc := .ro, priv := 11 }
/-- R284, Table 12.26. -/
def MGT_QUIESCE_WE_DOM : Fld := { key := 3146000, w := 16, acc := .rw, priv := 9 }
/-- R284, Table 12.27. -/
def MGT_LEASE_HOLDER : Fld := { key := 3146240, s1 := 32, w := 8, acc := .ro, priv := 9, rst := 0xFF }
/-- R284, Table 12.27. -/
def MGT_LEASE_LEFT_MS : Fld := { key := 3146248, s1 := 32, w := 7, acc := .ro, priv := 9 }
/-- R284, Table 12.28. -/
def MBX_STAT_MSTATE : Fld := { key := 3407872, s1 := 16384, w := 2, acc := .ro, priv := 10 }
/-- R284, Table 12.28. -/
def MBX_STAT_EXP_SEQ : Fld := { key := 3407888, s1 := 16384, w := 16, acc := .ro, priv := 10 }
/-- R284, Table 12.28. -/
def MBX_DB_DB_SEQ : Fld := { key := 3407904, s1 := 16384, w := 16, acc := .wo, priv := 10 }
/-- R284, Table 12.28. -/
def MBX_PTR_MOFS : Fld := { key := 3407936, s1 := 16384, w := 12, acc := .rw, priv := 10 }
/-- R284, Table 12.28. -/
def MBX_PTR_MBUF : Fld := { key := 3407948, s1 := 16384, w := 1, acc := .rw, priv := 10 }
/-- R284, Table 12.28. -/
def MBX_DATA_MDATA : Fld := { key := 3407968, s1 := 16384, w := 32, acc := .rw, priv := 10 }
/-- R284, Table 12.28. -/
def MBX_CNT_CMDS : Fld := { key := 3408000, s1 := 16384, w := 16, acc := .ro, priv := 10, kept := true }
/-- R284, Table 12.28. -/
def MBX_CNT_DB_IGN : Fld := { key := 3408016, s1 := 16384, w := 16, acc := .ro, priv := 10, kept := true }
/-- R305, Table 13.5. -/
def GLB_ID_JREV : Fld := { key := 0, w := 8, acc := .ro, priv := 15, kept := true }
/-- R305, Table 13.5. -/
def GLB_ID_CREV : Fld := { key := 8, w := 8, acc := .ro, priv := 15, kept := true }
/-- R305, Table 13.5. -/
def GLB_ID_DREV : Fld := { key := 16, w := 8, acc := .ro, priv := 15, kept := true }
/-- R305, Table 13.5. -/
def GLB_ID_PART : Fld := { key := 24, w := 8, acc := .ro, priv := 15, rst := 0x81 }
/-- R305, Table 13.6. -/
def GLB_STAT_WHO : Fld := { key := 32, s1 := 268435456, w := 5, acc := .ro, priv := 15 }
/-- R305, Table 13.6. -/
def GLB_STAT_SVC_AUTH : Fld := { key := 37, s1 := 268435456, w := 1, acc := .ro, priv := 15 }
/-- R305, Table 13.7. -/
def GLB_CTL_WRST : Fld := { key := 64, w := 1, acc := .wo, priv := 13 }
/-- R305, Table 13.7. -/
def GLB_CTL_T_WR_EN : Fld := { key := 65, w := 1, acc := .rw, priv := 13, rst := 0x1, kept := true }
/-- R305, Table 13.8. -/
def GLB_SERIAL_SERIAL : Fld := { key := 128, s1 := 32, w := 32, acc := .ro, priv := 15, kept := true }
/-- R305, Table 13.9. -/
def GLB_UPTIME_LO_UP_LO : Fld := { key := 256, w := 32, acc := .ro, priv := 15 }
/-- R305, Table 13.9. -/
def GLB_UPTIME_HI_UP_HI : Fld := { key := 288, w := 32, acc := .ro, priv := 15 }
/-- R305, Table 13.10. -/
def GLB_SCRATCH_LO_SCR_LO : Fld := { key := 320, w := 32, acc := .rw, priv := 13, kept := true }
/-- R305, Table 13.10. -/
def GLB_SCRATCH_HI_SCR_HI : Fld := { key := 352, w := 32, acc := .rw, priv := 13, kept := true }
/-- R305, Table 13.11. -/
def GLB_LAS_LA_RES : Fld := { key := 384, s1 := 268435456, w := 8, acc := .ro, priv := 15 }
/-- R305, Table 13.11. -/
def GLB_LAS_LA_WR : Fld := { key := 392, s1 := 268435456, w := 1, acc := .ro, priv := 15 }
/-- R305, Table 13.11. -/
def GLB_LAS_LA_OFS : Fld := { key := 394, s1 := 268435456, w := 22, acc := .ro, priv := 15 }
/-- R305, Table 13.11. -/
def GLB_LFAIL_LF_RES : Fld := { key := 416, s1 := 268435456, w := 8, acc := .ro, priv := 15, kept := true }
/-- R305, Table 13.11. -/
def GLB_LFAIL_LF_WR : Fld := { key := 424, s1 := 268435456, w := 1, acc := .ro, priv := 15, kept := true }
/-- R305, Table 13.11. -/
def GLB_LFAIL_LF_OFS : Fld := { key := 426, s1 := 268435456, w := 22, acc := .ro, priv := 15, kept := true }
/-- R305, Table 13.11. -/
def GLB_LFAIL_DET_LF_DET : Fld := { key := 448, s1 := 268435456, w := 32, acc := .ro, priv := 15, kept := true }
/-- R305, Table 13.12. -/
def GLB_PLOCK_PLOCK : Fld := { key := 512, w := 8, acc := .rw1s, priv := 9, kept := true }
/-- R305, Table 13.12. -/
def GLB_PLOCK_CLR_PUNLOCK : Fld := { key := 544, w := 8, acc := .wo, priv := 4 }
/-- R305, Table 13.13. -/
def GLB_REJ_M_REJ : Fld := { key := 1024, s1 := 32, w := 32, acc := .ro, priv := 15, kept := true }
/-- R322, Table 14.9. -/
def FCR_CTL_EASY_MS : Fld := { key := 1572864, w := 10, acc := .rw, priv := 9, rst := 0xA, kept := true, legal := [(1, 1000)] }
/-- R322, Table 14.9. -/
def FCR_CTL_LOG_RATE : Fld := { key := 1572874, w := 4, acc := .rw, priv := 9, rst := 0x4, kept := true, legal := [(1, 8)] }
/-- R322, Table 14.9. -/
def FCR_CTL_CNT_CLR : Fld := { key := 1572895, w := 1, acc := .wo, priv := 9 }
/-- R322, Table 14.10. -/
def FCR_STAT_XSTATE : Fld := { key := 1572896, w := 2, acc := .ro, priv := 11 }
/-- R322, Table 14.10. -/
def FCR_STAT_EASY_LEFT : Fld := { key := 1572898, w := 10, acc := .ro, priv := 9 }
/-- R322, Table 14.10. -/
def FCR_RECOV_RECOVERIES : Fld := { key := 1572928, w := 32, acc := .ro, priv := 11, kept := true }
/-- R322, Table 14.11. -/
def FCR_FF_FF_VALID : Fld := { key := 1572992, w := 1, acc := .ro, priv := 11, kept := true }
/-- R322, Table 14.11. -/
def FCR_FF_FF_SRC : Fld := { key := 1572993, w := 9, acc := .ro, priv := 11, kept := true }
/-- R322, Table 14.11. -/
def FCR_FF_FF_SEV : Fld := { key := 1573002, w := 3, acc := .ro, priv := 11, kept := true }
/-- R322, Table 14.11. -/
def FCR_FF_FF_OVF : Fld := { key := 1573005, w := 1, acc := .ro, priv := 11, kept := true }
/-- R322, Table 14.11. -/
def FCR_FF_FF_MERGE : Fld := { key := 1573008, w := 16, acc := .ro, priv := 9, kept := true }
/-- R322, Table 14.11. -/
def FCR_FF_OVF_FF_OVF_CNT : Fld := { key := 1573024, w := 16, acc := .ro, priv := 9, kept := true }
/-- R322, Table 14.11. -/
def FCR_FF_OVF_FF_OVF_SRC : Fld := { key := 1573040, w := 9, acc := .ro, priv := 9, kept := true }
/-- R322, Table 14.12. -/
def FCR_FF_TIME_LO_FF_TLO : Fld := { key := 1573056, w := 32, acc := .ro, priv := 9, kept := true }
/-- R322, Table 14.12. -/
def FCR_FF_TIME_HI_FF_THI : Fld := { key := 1573088, w := 32, acc := .ro, priv := 9, kept := true }
/-- R322, Table 14.12. -/
def FCR_FF_SYN_FF_SYN : Fld := { key := 1573120, s1 := 32, w := 32, acc := .ro, priv := 9, kept := true }
/-- R322, Table 14.13. -/
def FCR_FF_CLR_FF_CLR : Fld := { key := 1573248, w := 1, acc := .wo, priv := 9 }
/-- R322, Table 14.14. -/
def FCR_ALERT_ALERT : Fld := { key := 1573376, w := 1, acc := .rw1c, priv := 13, kept := true }
/-- R322, Table 14.14. -/
def FCR_ALERT_FW_ALERT : Fld := { key := 1573377, w := 1, acc := .rw, priv := 8 }
/-- R322, Table 14.14. -/
def FCR_ALERT_PIN : Fld := { key := 1573378, w := 1, acc := .ro, priv := 13 }
/-- R322, Table 14.14. -/
def FCR_ALERT_ALERT_SRC : Fld := { key := 1573379, w := 9, acc := .ro, priv := 13, kept := true }
/-- R322, Table 14.14. -/
def FCR_ALERT_ALERT_CNT : Fld := { key := 1573388, w := 20, acc := .ro, priv := 13, kept := true }
/-- R322, Table 14.15. -/
def FCR_LOG_LOG_HEAD : Fld := { key := 1573408, w := 13, acc := .ro, priv := 9, kept := true }
/-- R322, Table 14.15. -/
def FCR_LOG_LOG_WEAR : Fld := { key := 1573421, w := 1, acc := .ro, priv := 9, kept := true }
/-- R322, Table 14.15. -/
def FCR_LOG_LOG_QUSED : Fld := { key := 1573422, w := 7, acc := .ro, priv := 9 }
/-- R322, Table 14.15. -/
def FCR_LOG_CNT_LOG_DROP : Fld := { key := 1573440, w := 16, acc := .ro, priv := 9, kept := true }
/-- R322, Table 14.15. -/
def FCR_LOG_CNT_SVC_LOST : Fld := { key := 1573456, w := 16, acc := .ro, priv := 13, kept := true }
/-- R322, Table 14.15. -/
def FCR_LOG_SEQ_RSEQ_NEXT : Fld := { key := 1573472, w := 32, acc := .ro, priv := 9, kept := true }
/-- R322, Table 14.16. -/
def FCR_RAISE_RAISE_SRC : Fld := { key := 1573504, w := 9, acc := .rw, priv := 9 }
/-- R322, Table 14.16. -/
def FCR_RAISE_RAISE_SEV : Fld := { key := 1573513, w := 3, acc := .rw, priv := 9, legal := [(0, 4)] }
/-- R322, Table 14.16. -/
def FCR_RAISE_RAISE_GO : Fld := { key := 1573516, w := 1, acc := .wo, priv := 9 }
/-- R322, Table 14.16. -/
def FCR_RAISE_VAL_RAISE_VAL : Fld := { key := 1573536, w := 32, acc := .rw, priv := 9 }
/-- R322, Table 14.17. -/
def FCR_DOM_DEVT_EN : Fld := { key := 1573888, s1 := 32, w := 1, acc := .rw, priv := 11, rst := 0x1, kept := true }
/-- R322, Table 14.17. -/
def FCR_DOM_DSEV_MIN : Fld := { key := 1573889, s1 := 32, w := 3, acc := .rw, priv := 11, kept := true, legal := [(0, 4)] }
/-- R322, Table 14.17. -/
def FCR_DOM_DQ_USED : Fld := { key := 1573892, s1 := 32, w := 6, acc := .ro, priv := 11 }
/-- R322, Table 14.17. -/
def FCR_DOM_DLOST : Fld := { key := 1573904, s1 := 32, w := 16, acc := .ro, priv := 11, kept := true }
/-- R322, Table 14.18. -/
def FCR_SRC_DMASK : Fld := { key := 1581056, s1 := 32, w := 16, acc := .rw, priv := 9, rst := 0x1, kept := true }
/-- R322, Table 14.18. -/
def FCR_SRC_EVT_MIN : Fld := { key := 1581072, s1 := 32, w := 3, acc := .rw, priv := 9, rst := 0x1, kept := true, legal := [(0, 4), (7, 7)] }
/-- R322, Table 14.18. -/
def FCR_SRC_ALERT_MIN : Fld := { key := 1581075, s1 := 32, w := 3, acc := .rw, priv := 9, rst := 0x2, kept := true, legal := [(0, 4), (7, 7)] }
/-- R322, Table 14.18. -/
def FCR_SRC_SVC_MIN : Fld := { key := 1581078, s1 := 32, w := 3, acc := .rw, priv := 9, kept := true, legal := [(0, 4), (7, 7)] }
/-- R322, Table 14.18. -/
def FCR_SRC_LOG_MIN : Fld := { key := 1581081, s1 := 32, w := 3, acc := .rw, priv := 9, kept := true, legal := [(0, 4), (7, 7)] }
/-- R322, Table 14.18. -/
def FCR_SRC_ACT : Fld := { key := 1581084, s1 := 32, w := 2, acc := .rw, priv := 9, kept := true, legal := [(0, 2)] }
/-- R342, Table 15.7. -/
def PST_STAT_PORT_BUSY : Fld := { key := 2097152, w := 1, acc := .ro, priv := 9 }
/-- R342, Table 15.7. -/
def PST_STAT_PORT_OWNER : Fld := { key := 2097153, w := 3, acc := .ro, priv := 9 }
/-- R342, Table 15.7. -/
def PST_STAT_PQ_USED : Fld := { key := 2097156, w := 7, acc := .ro, priv := 9 }
/-- R342, Table 15.8. -/
def PST_WEAR_IDX_WIDX : Fld := { key := 2097184, w := 21, acc := .rw, priv := 9 }
/-- R342, Table 15.8. -/
def PST_WEAR_WCNT : Fld := { key := 2097216, w := 20, acc := .ro, priv := 9 }
/-- R342, Table 15.8. -/
def PST_WEAR_WWARN : Fld := { key := 2097236, w := 1, acc := .ro, priv := 9 }
/-- R342, Table 15.8. -/
def PST_WEAR_WLIM : Fld := { key := 2097237, w := 1, acc := .ro, priv := 9 }
/-- R342, Table 15.9. -/
def PST_WEAR_SUM_NWARN : Fld := { key := 2097248, w := 16, acc := .ro, priv := 11 }
/-- R342, Table 15.9. -/
def PST_WEAR_SUM_NLIM : Fld := { key := 2097264, w := 16, acc := .ro, priv := 11 }
/-- R342, Table 15.9. -/
def PST_REC_TORN_CNT : Fld := { key := 2097280, w := 16, acc := .ro, priv := 9, kept := true }
/-- R342, Table 15.9. -/
def PST_REC_LOST_CNT : Fld := { key := 2097296, w := 16, acc := .ro, priv := 9, kept := true }
/-- R342, Table 15.10. -/
def PST_LIFE_LIFE_S : Fld := { key := 2097312, w := 32, acc := .ro, priv := 15, kept := true }
/-- R342, Table 15.10. -/
def PST_BOOTS_BOOTS : Fld := { key := 2097344, w := 32, acc := .ro, priv := 15, kept := true }
/-- R342, Table 15.11. -/
def PST_FUSE_STAT_POLICY : Fld := { key := 2097408, w := 1, acc := .ro, priv := 13, kept := true }
/-- R342, Table 15.11. -/
def PST_FUSE_STAT_FMARG : Fld := { key := 2097409, w := 8, acc := .ro, priv := 13, kept := true }
/-- R342, Table 15.11. -/
def PST_FUSE_STAT_FSPARE : Fld := { key := 2097417, w := 4, acc := .ro, priv := 13, kept := true }
/-- R342, Table 15.11. -/
def PST_FUSE_STAT_FFAIL : Fld := { key := 2097421, w := 9, acc := .ro, priv := 13, kept := true }
/-- R342, Table 15.12. -/
def PST_FUSE_LOCKS_FLOCKED : Fld := { key := 2097440, w := 9, acc := .ro, priv := 13, kept := true }
/-- R342, Table 15.12. -/
def PST_FUSE_LOCKS_FCOMPLETE : Fld := { key := 2097456, w := 9, acc := .ro, priv := 13 }
/-- R342, Table 15.13. -/
def PST_PREG_PVAL : Fld := { key := 2359296, s1 := 32, w := 32, acc := .rwpl, priv := 13, kept := true }
/-- R351, Table 16.4. -/
def CST_CAL_CTL_RUN_MASK : Fld := { key := 2621440, w := 5, acc := .rw, priv := 9, rst := 0x1F, legal := [(1, 31)] }
/-- R351, Table 16.4. -/
def CST_CAL_CTL_PER_MASK : Fld := { key := 2621445, w := 5, acc := .rw, priv := 9, rst := 0x1F, kept := true }
/-- R351, Table 16.4. -/
def CST_CAL_CTL_CAL_PER : Fld := { key := 2621450, w := 8, acc := .rw, priv := 9, rst := 0x18, kept := true, legal := [(1, 255)] }
/-- R351, Table 16.4. -/
def CST_CAL_CTL_CAL_GO : Fld := { key := 2621458, w := 1, acc := .wo, priv := 9 }
/-- R351, Table 16.5. -/
def CST_CAL_STAT_CAL_BUSY : Fld := { key := 2621472, w := 1, acc := .ro, priv := 9 }
/-- R351, Table 16.5. -/
def CST_CAL_STAT_CAL_FAILED : Fld := { key := 2621473, w := 5, acc := .ro, priv := 11, kept := true }
/-- R351, Table 16.5. -/
def CST_CAL_STAT_CAL_CAUSE : Fld := { key := 2621478, w := 2, acc := .ro, priv := 9, kept := true }
/-- R351, Table 16.5. -/
def CST_CAL_STAT_RES_MEAS : Fld := { key := 2621480, w := 14, acc := .ro, priv := 9 }
/-- R351, Table 16.6. -/
def CST_CAL_CNT_CAL_COUNT : Fld := { key := 2621504, w := 32, acc := .ro, priv := 15, kept := true }
/-- R351, Table 16.6. -/
def CST_CAL_TIME_CAL_TIME : Fld := { key := 2621536, w := 32, acc := .ro, priv := 15, kept := true }
/-- R351, Table 16.7. -/
def CST_CAL_MISC_KTRIM : Fld := { key := 2621568, w := 4, acc := .ro, priv := 9, kept := true }
/-- R351, Table 16.7. -/
def CST_CAL_MISC_FTRIM : Fld := { key := 2621572, w := 7, acc := .ro, priv := 9, kept := true }
/-- R351, Table 16.7. -/
def CST_CAL_MISC_ATRIM : Fld := { key := 2621579, w := 7, acc := .ro, priv := 9, kept := true }
/-- R351, Table 16.7. -/
def CST_CAL_LINK_DRV : Fld := { key := 2621952, s1 := 32, w := 6, acc := .ro, priv := 9, kept := true }
/-- R351, Table 16.7. -/
def CST_CAL_LINK_TERM : Fld := { key := 2621958, s1 := 32, w := 6, acc := .ro, priv := 9, kept := true }
/-- R351, Table 16.8. -/
def CST_CAL_TSV_TSTR : Fld := { key := 2622464, s1 := 32, w := 5, acc := .ro, priv := 9, kept := true }
/-- R351, Table 16.8. -/
def CST_CAL_TOFS_TOFS : Fld := { key := 2623488, s1 := 32, w := 8, acc := .ro, priv := 9, kept := true }
/-- R366, Table 17.5. -/
def CST_BIST_STAT_BIST_FAIL : Fld := { key := 2625536, w := 5, acc := .ro, priv := 13, kept := true }
/-- R366, Table 17.5. -/
def CST_BIST_STAT_BIST_RERUN : Fld := { key := 2625541, w := 5, acc := .ro, priv := 13, kept := true }
/-- R366, Table 17.5. -/
def CST_BIST_STAT_BIST_BUSY : Fld := { key := 2625546, w := 1, acc := .ro, priv := 13 }
/-- R366, Table 17.5. -/
def CST_BIST_STAT_STEP_TIME : Fld := { key := 2625547, w := 12, acc := .ro, priv := 13, kept := true }
/-- R366, Table 17.6. -/
def CST_BIST_DET_DET_BLK : Fld := { key := 2625568, w := 3, acc := .ro, priv := 13, kept := true }
/-- R366, Table 17.6. -/
def CST_BIST_DET_DET_ELEM : Fld := { key := 2625576, w := 24, acc := .ro, priv := 13, kept := true }
/-- R366, Table 17.7. -/
def CST_BIST_COV_SA : Fld := { key := 2625664, s1 := 32, w := 10, acc := .ro, priv := 15, kept := true }
/-- R366, Table 17.7. -/
def CST_BIST_COV_TR : Fld := { key := 2625674, s1 := 32, w := 10, acc := .ro, priv := 15, kept := true }
/-- R366, Table 17.7. -/
def CST_BIST_DUR : Fld := { key := 2625684, s1 := 32, w := 12, acc := .ro, priv := 15, kept := true }
/-- R366, Table 17.8. -/
def CST_BOOT_STAT_BOOT_KIND : Fld := { key := 2626048, w := 3, acc := .ro, priv := 15 }
/-- R366, Table 17.8. -/
def CST_BOOT_STAT_WCAUSE : Fld := { key := 2626051, w := 2, acc := .ro, priv := 15 }
/-- R366, Table 17.8. -/
def CST_BOOT_STAT_RET_RES : Fld := { key := 2626053, w := 8, acc := .ro, priv := 15 }
/-- R366, Table 17.8. -/
def CST_BOOT_LOST_LOST_CH : Fld := { key := 2626080, w := 32, acc := .ro, priv := 15 }
/-- R366, Table 17.9. -/
def CST_BOOT_TIME_LR_TIME : Fld := { key := 2626112, w := 16, acc := .ro, priv := 15 }
/-- R366, Table 17.9. -/
def CST_BOOT_TIME_STRETCH : Fld := { key := 2626128, w := 16, acc := .ro, priv := 13, kept := true }
/-- R390, Table 18.10. -/
def PCK_CTL_IDLE_EN : Fld := { key := 524288, w := 1, acc := .rw, priv := 9, rst := 0x1, kept := true }
/-- R390, Table 18.10. -/
def PCK_CTL_IDLE_DLY : Fld := { key := 524289, w := 8, acc := .rw, priv := 9, rst := 0x20, kept := true, legal := [(8, 255)] }
/-- R390, Table 18.10. -/
def PCK_CTL_PWAKE_SEV : Fld := { key := 524297, w := 3, acc := .rw, priv := 9, rst := 0x3, kept := true, legal := [(0, 4), (7, 7)] }
/-- R390, Table 18.10. -/
def PCK_CTL_DROOP_EN : Fld := { key := 524300, w := 1, acc := .rw, priv := 9, rst := 0x1, kept := true }
/-- R390, Table 18.10. -/
def PCK_CTL_CNT_CLR : Fld := { key := 524319, w := 1, acc := .wo, priv := 9 }
/-- R390, Table 18.11. -/
def PCK_MODE_MODE : Fld := { key := 524320, w := 2, acc := .rw, priv := 8 }
/-- R390, Table 18.12. -/
def PCK_STAT_PSTATE : Fld := { key := 524352, w := 3, acc := .ro, priv := 15 }
/-- R390, Table 18.12. -/
def PCK_STAT_PF_WIN : Fld := { key := 524355, w := 1, acc := .ro, priv := 13 }
/-- R390, Table 18.12. -/
def PCK_STAT_MAIN_OK : Fld := { key := 524356, w := 1, acc := .ro, priv := 13 }
/-- R390, Table 18.12. -/
def PCK_STAT_VBKP_OK : Fld := { key := 524357, w := 1, acc := .ro, priv := 13 }
/-- R390, Table 18.12. -/
def PCK_STAT_KEEL_MODE : Fld := { key := 524358, w := 2, acc := .ro, priv := 13 }
/-- R390, Table 18.12. -/
def PCK_STAT_WAKE_SRC : Fld := { key := 524360, w := 3, acc := .ro, priv := 13, kept := true }
/-- R390, Table 18.12. -/
def PCK_STAT_RET_AVAIL : Fld := { key := 524363, w := 1, acc := .ro, priv := 13 }
/-- R390, Table 18.13. -/
def PCK_CLK_MCK_SEL : Fld := { key := 524384, w := 1, acc := .rw, priv := 8 }
/-- R390, Table 18.13. -/
def PCK_CLK_MCK_LOCK : Fld := { key := 524385, w := 1, acc := .ro, priv := 9 }
/-- R390, Table 18.13. -/
def PCK_CLK_FAB_SRC : Fld := { key := 524386, w := 1, acc := .ro, priv := 9 }
/-- R390, Table 18.13. -/
def PCK_CLK_DCK_SRC : Fld := { key := 524387, w := 4, acc := .ro, priv := 9 }
/-- R390, Table 18.13. -/
def PCK_CLK_STBY_LOCK : Fld := { key := 524391, w := 1, acc := .ro, priv := 9 }
/-- R390, Table 18.14. -/
def PCK_VOTES_VOTES : Fld := { key := 524416, w := 16, acc := .ro, priv := 11 }
/-- R390, Table 18.14. -/
def PCK_VOTE_NOSLEEP : Fld := { key := 524800, s1 := 32, w := 1, acc := .rw, priv := 11, kept := true }
/-- R390, Table 18.15. -/
def PCK_REFUSE_REFUSALS : Fld := { key := 524448, w := 32, acc := .ro, priv := 11, kept := true }
/-- R390, Table 18.16. -/
def PCK_REFCNT_REF_N : Fld := { key := 525312, s1 := 32, w := 16, acc := .ro, priv := 9, kept := true }
/-- R390, Table 18.16. -/
def PCK_REFCNT_ABORT_N : Fld := { key := 525328, s1 := 32, w := 16, acc := .ro, priv := 9, kept := true }
/-- R390, Table 18.17. -/
def PCK_RLOG_IDX_RL_IDX : Fld := { key := 524480, w := 4, acc := .rw, priv := 9 }
/-- R390, Table 18.17. -/
def PCK_RLOG0_RL_CODE : Fld := { key := 524512, w := 4, acc := .ro, priv := 9, kept := true }
/-- R390, Table 18.17. -/
def PCK_RLOG0_RL_STATE : Fld := { key := 524516, w := 2, acc := .ro, priv := 9, kept := true }
/-- R390, Table 18.17. -/
def PCK_RLOG0_RL_DOM : Fld := { key := 524518, w := 4, acc := .ro, priv := 9, kept := true }
/-- R390, Table 18.17. -/
def PCK_RLOG0_RL_ABORT : Fld := { key := 524522, w := 1, acc := .ro, priv := 9, kept := true }
/-- R390, Table 18.17. -/
def PCK_RLOG1_RL_TIME : Fld := { key := 524544, w := 32, acc := .ro, priv := 9, kept := true }
/-- R390, Table 18.18. -/
def PCK_PF_PF_CNT : Fld := { key := 524576, w := 16, acc := .ro, priv := 13, kept := true }
/-- R390, Table 18.18. -/
def PCK_PF_PF_US : Fld := { key := 524592, w := 11, acc := .ro, priv := 13, kept := true }
/-- R390, Table 18.18. -/
def PCK_PF_PF_CAUSE : Fld := { key := 524603, w := 1, acc := .ro, priv := 13, kept := true }
/-- R390, Table 18.18. -/
def PCK_PF_PF_LATE : Fld := { key := 524604, w := 1, acc := .ro, priv := 13, kept := true }
/-- R390, Table 18.19. -/
def PCK_KEEL_KEEL_CAUSE : Fld := { key := 524608, w := 3, acc := .ro, priv := 13, kept := true }
/-- R390, Table 18.19. -/
def PCK_KEEL_RET_MA : Fld := { key := 524611, w := 10, acc := .ro, priv := 13, kept := true }
/-- R390, Table 18.19. -/
def PCK_KEEL_BO_LATCH : Fld := { key := 524621, w := 1, acc := .ro, priv := 13 }
/-- R404, Table 19.5. -/
def THM_CTL_SLOPE : Fld := { key := 1048576, w := 10, acc := .rw, priv := 9, rst := 0x50, kept := true, legal := [(1, 1000)] }
/-- R404, Table 19.5. -/
def THM_CTL_CAP : Fld := { key := 1048586, w := 10, acc := .rw, priv := 9, rst := 0x384, kept := true, legal := [(1, 900)] }
/-- R404, Table 19.5. -/
def THM_CTL_FALL : Fld := { key := 1048596, w := 8, acc := .rw, priv := 9, rst := 0xA, kept := true, legal := [(1, 255)] }
/-- R404, Table 19.5. -/
def THM_CTL_CNT_CLR : Fld := { key := 1048607, w := 1, acc := .wo, priv := 9 }
/-- R404, Table 19.6. -/
def THM_THR_THR_J : Fld := { key := 1048608, w := 8, acc := .rw, priv := 9, rst := 0x64, kept := true, legal := [(60, 100)] }
/-- R404, Table 19.6. -/
def THM_THR_THR_C : Fld := { key := 1048616, w := 8, acc := .rw, priv := 9, rst := 0x5F, kept := true, legal := [(60, 95)] }
/-- R404, Table 19.6. -/
def THM_THR_THR_D : Fld := { key := 1048624, w := 8, acc := .rw, priv := 9, rst := 0x5C, kept := true, legal := [(60, 92)] }
/-- R404, Table 19.7. -/
def THM_STAT_THETA : Fld := { key := 1048640, w := 10, acc := .ro, priv := 11 }
/-- R404, Table 19.7. -/
def THM_STAT_HOT_SENS : Fld := { key := 1048650, w := 6, acc := .ro, priv := 9 }
/-- R404, Table 19.7. -/
def THM_STAT_EXCESS : Fld := { key := 1048656, w := 12, acc := .ro, priv := 9 }
/-- R404, Table 19.7. -/
def THM_STAT_TS_ACT : Fld := { key := 1048668, w := 1, acc := .ro, priv := 13 }
/-- R404, Table 19.8. -/
def THM_COOL_INLET_MAX : Fld := { key := 1048672, w := 10, acc := .rw, priv := 9, rst := 0x190, kept := true, legal := [(20, 500)] }
/-- R404, Table 19.8. -/
def THM_COOL_RISE_MAX : Fld := { key := 1048682, w := 10, acc := .rw, priv := 9, rst := 0x96, kept := true, legal := [(10, 400)] }
/-- R404, Table 19.9. -/
def THM_SENS_IDX_SIDX : Fld := { key := 1048704, w := 6, acc := .rw, priv := 11, legal := [(0, 49)] }
/-- R404, Table 19.9. -/
def THM_SENS_TEMP : Fld := { key := 1048736, w := 13, acc := .ro, priv := 11 }
/-- R404, Table 19.9. -/
def THM_SENS_VALID : Fld := { key := 1048749, w := 1, acc := .ro, priv := 11 }
/-- R404, Table 19.9. -/
def THM_SENS_TMAX : Fld := { key := 1048750, w := 12, acc := .ro, priv := 9, kept := true }
/-- R404, Table 19.10. -/
def THM_TRIP_TS_KIND : Fld := { key := 1048768, w := 2, acc := .ro, priv := 13 }
/-- R404, Table 19.10. -/
def THM_TRIP_TS_SENS : Fld := { key := 1048770, w := 6, acc := .ro, priv := 13 }
/-- R404, Table 19.10. -/
def THM_TRIP_TS_TEMP : Fld := { key := 1048776, w := 13, acc := .ro, priv := 13 }
/-- R404, Table 19.10. -/
def THM_TRIP_TS_DS : Fld := { key := 1048789, w := 1, acc := .ro, priv := 13 }
/-- R404, Table 19.10. -/
def THM_TRIP_TS_NEW : Fld := { key := 1048790, w := 1, acc := .rw1c, priv := 13 }
/-- R404, Table 19.11. -/
def THM_CNT_THR_MS : Fld := { key := 1048800, w := 32, acc := .ro, priv := 11, kept := true }
/-- R404, Table 19.11. -/
def THM_COOL_STAT_INLET : Fld := { key := 1048832, w := 11, acc := .ro, priv := 13 }
/-- R404, Table 19.11. -/
def THM_COOL_STAT_RISE : Fld := { key := 1048843, w := 11, acc := .ro, priv := 13 }
/-- R442, Table 21.6. -/
def SVC_CTL_SVC_EN : Fld := { key := 3670016, w := 1, acc := .rw, priv := 9, rst := 0x1, kept := true }
/-- R442, Table 21.6. -/
def SVC_CTL_GEN2_ONLY : Fld := { key := 3670017, w := 1, acc := .rw, priv := 13, kept := true }
/-- R442, Table 21.6. -/
def SVC_CTL_CL1_EN : Fld := { key := 3670018, w := 1, acc := .rw, priv := 13, rst := 0x1, kept := true }
/-- R442, Table 21.6. -/
def SVC_CTL_DEAUTH : Fld := { key := 3670019, w := 1, acc := .wo, priv := 4 }
/-- R442, Table 21.7. -/
def SVC_STAT_SLSTATE : Fld := { key := 3670048, w := 3, acc := .ro, priv := 13 }
/-- R442, Table 21.7. -/
def SVC_STAT_SGEN : Fld := { key := 3670051, w := 2, acc := .ro, priv := 13 }
/-- R442, Table 21.7. -/
def SVC_STAT_USB_CFG : Fld := { key := 3670053, w := 1, acc := .ro, priv := 13 }
/-- R442, Table 21.7. -/
def SVC_STAT_MEM_RDY : Fld := { key := 3670054, w := 1, acc := .ro, priv := 13 }
/-- R442, Table 21.7. -/
def SVC_STAT_AUTH_LOCK : Fld := { key := 3670055, w := 1, acc := .ro, priv := 13 }
/-- R442, Table 21.7. -/
def SVC_AUTH_STAT_AUTH_FAILS : Fld := { key := 3670080, w := 8, acc := .ro, priv := 13, kept := true }
/-- R442, Table 21.7. -/
def SVC_AUTH_STAT_AUTH_OKS : Fld := { key := 3670088, w := 16, acc := .ro, priv := 13, kept := true }
/-- R442, Table 21.7. -/
def SVC_AUTH_STAT_KEY_SRC : Fld := { key := 3670104, w := 2, acc := .ro, priv := 13, kept := true }
/-- R442, Table 21.8. -/
def SVC_USB_ID_VID : Fld := { key := 3670112, w := 16, acc := .ro, priv := 13, kept := true }
/-- R442, Table 21.8. -/
def SVC_USB_ID_PID : Fld := { key := 3670128, w := 16, acc := .ro, priv := 13, rst := 0x128 }
/-- R442, Table 21.9. -/
def SVC_DRN_ADDR_LO_DRN_ALO : Fld := { key := 3670156, w := 20, acc := .rw, priv := 13 }
/-- R442, Table 21.9. -/
def SVC_DRN_ADDR_HI_DRN_AHI : Fld := { key := 3670176, w := 5, acc := .rw, priv := 13 }
/-- R442, Table 21.9. -/
def SVC_DRN_LEN_DRN_LEN : Fld := { key := 3670208, w := 26, acc := .rw, priv := 13, legal := [(1, 33554432)] }
/-- R442, Table 21.10. -/
def SVC_DRN_CTL_DRN_OP : Fld := { key := 3670240, w := 2, acc := .rw, priv := 13, rst := 0x1, legal := [(1, 2)] }
/-- R442, Table 21.10. -/
def SVC_DRN_CTL_DRN_GO : Fld := { key := 3670242, w := 1, acc := .wo, priv := 4 }
/-- R442, Table 21.10. -/
def SVC_DRN_CTL_DRN_ABORT : Fld := { key := 3670243, w := 1, acc := .wo, priv := 13 }
/-- R442, Table 21.10. -/
def SVC_DRN_STAT_DRN_BUSY : Fld := { key := 3670272, w := 1, acc := .ro, priv := 13 }
/-- R442, Table 21.10. -/
def SVC_DRN_STAT_DRN_RES : Fld := { key := 3670280, w := 8, acc := .ro, priv := 13 }
/-- R442, Table 21.10. -/
def SVC_DRN_STAT_DRN_WORST : Fld := { key := 3670288, w := 8, acc := .ro, priv := 13 }
/-- R442, Table 21.11. -/
def SVC_DRN_DONE_DRN_DONE : Fld := { key := 3670304, w := 26, acc := .ro, priv := 13 }
/-- R442, Table 21.11. -/
def SVC_CNT_FRAMES : Fld := { key := 3670336, w := 16, acc := .ro, priv := 13, kept := true }
/-- R442, Table 21.11. -/
def SVC_CNT_FRAME_ERRS : Fld := { key := 3670352, w := 16, acc := .ro, priv := 13, kept := true }
/-- R284, Table 12.28. -/
def MBXS_STAT_MSTATE : Fld := { key := 3391488, w := 2, acc := .ro, priv := 12 }
/-- R284, Table 12.28. -/
def MBXS_STAT_EXP_SEQ : Fld := { key := 3391504, w := 16, acc := .ro, priv := 12 }
/-- R284, Table 12.28. -/
def MBXS_DB_DB_SEQ : Fld := { key := 3391520, w := 16, acc := .wo, priv := 12 }
/-- R284, Table 12.28. -/
def MBXS_PTR_MOFS : Fld := { key := 3391552, w := 12, acc := .rw, priv := 12 }
/-- R284, Table 12.28. -/
def MBXS_PTR_MBUF : Fld := { key := 3391564, w := 1, acc := .rw, priv := 12 }
/-- R284, Table 12.28. -/
def MBXS_DATA_MDATA : Fld := { key := 3391584, w := 32, acc := .rw, priv := 12 }
/-- R284, Table 12.28. -/
def MBXS_CNT_CMDS : Fld := { key := 3391616, w := 16, acc := .ro, priv := 12, kept := true }
/-- R284, Table 12.28. -/
def MBXS_CNT_DB_IGN : Fld := { key := 3391632, w := 16, acc := .ro, priv := 12, kept := true }

end Sys2Proof.Machine.F
end

