-- ==== Sys2Proof/Machine/State.lean ====
section
/-! DEFINITION. The state of the stack: every register, queue, buffer, memory and mode the spec names, as plain data. The defaults of
the structures are the reset values. -/

namespace Sys2Proof.Machine

/-! ## Faults and events (FCR) -/

/-- A raise as FCR latches it (R306): source, severity, timestamp, syndrome words, and the marks of its log record (Table 14.4). -/
structure Raise where
  src : Nat
  sev : Sev
  stamp : Nat
  syn : List Nat
  first : Bool := false
  test : Bool := false
  xst : Nat := 0
  deriving DecidableEq, Repr

/-- An EVT waiting for a domain (R311). -/
structure Evt where
  src : Nat
  sev : Sev
  detail : Nat
  time : Nat
  deriving DecidableEq, Repr

/-- FCR's queues and timers (ch. 14). -/
structure Fcr where
  evq : SMap (List Evt) := []
  eseq : SMap Nat := []
  loss : SMap Bool := []
  svcq : List Raise := []
  logq : List Raise := []
  tokens : Nat := 64
  lastDrop : Option Nat := none
  easy : Option Nat := none
  lastReact : Option Nat := none
  latched : List (Nat × Nat × Nat) := []
  last : SMap Nat := []
  lowTill : Nat := 0
  deriving DecidableEq, Repr

/-! ## Persistent store (PST) -/

/-- Who made a register access and where its answer goes (R285, R295). -/
inductive Origin where
  | packet (dom rtag : Nat)
  | svc (stag : Nat)
  | core
  | mailbox (m : Nat)
  deriving DecidableEq, Repr

/-- What the completion of an MRAM word write does (R301, R314, R252, R348, R446, R245). -/
inductive PortAct where
  | none
  | preg (who : Nat) (org : Origin) (reg : RegId) (i j v : Nat)
  | hw
  | logWord (first : Bool) (src : Nat)
  | logEnd (first : Bool) (src : Nat)
  | repair (c b spare : Nat)
  | calEnd
  | fw (m : Nat)
  | retire (c kind which : Nat)
  deriving DecidableEq, Repr

/-- A word waiting for, or at, the MRAM write port (R324): class, word index, and the bits to store under a mask. -/
structure MWord where
  cls : Nat
  idx : Nat
  mask : Nat
  val : Nat
  act : PortAct
  deriving DecidableEq, Repr

/-- PST's arrays and the write port (ch. 15). -/
structure Pst where
  mram : SMap Nat := []
  wear : SMap Nat := []
  bad : List Nat := []
  port : Option MWord := none
  q : List MWord := []
  since : Nat := 0
  only : Bool := false
  lifeAon : Nat := 0
  dropped : Nat := 0
  blown : SMap Nat := []
  blownSpare : SMap Nat := []
  latch : SMap Nat := []
  marginal : List Nat := []
  redir : List (Nat × Nat) := []
  deriving DecidableEq, Repr

/-! ## The link (HLP and HLL) -/

/-- Group states of Table 2.3, encoded by `GSTATE` in this order. -/
inductive GState where
  | off | detect | clock | eq | align | deskew | confirm | active | quiet | deep | turn | test | failed
  deriving DecidableEq, Repr

/-- A sequenced flit that the stack sent and that is not yet acknowledged (R57): number, `FTYPE`, the used part of its packet area,
and the packets whose last byte lies in it. -/
structure TxFlit where
  fseq : Nat
  ftype : Nat
  area : List Byte
  ends : List (List Byte)
  deriving DecidableEq, Repr

/-- One lane group at the stack's end (ch. 2 and 3). Masks hold one bit for each physical lane. `bad` are the lanes that BIST marked FAILED for the
first training (Table 17.2). `presetRx` and `presetTx` are the presets in effect, `best` the preset that training scored best, `eqRx` the stored receiver
adaptation by lane × 8 + preset (`CTLE` + 64 × `DFE1`; R28, R34), `deskews` the deskew delay of each lane in unit intervals (R38). `scored` and
`scoredTx` are the lanes scored in either direction. `injAt` is when the last injection started and `injBurst` the symbols from then on that a single or
burst injection inverts (R46); `txAt` is when the stack's transmitter has sent what it was given. -/
structure Grp where
  gst : GState := .off
  slot : Nat := 0
  fast : Bool := false
  attempt : Nat := 0
  trained : Bool := false
  dir : Bool := false
  pll : Bool := false
  eqDone : Bool := false
  failed : Nat := 0
  bad : Nat := 0
  carry : Nat := 0
  spare : Option Nat := none
  scored : Nat := 0
  scoredTx : Nat := 0
  best : Nat := 0
  presetRx : Nat := 0
  presetTx : Nat := 0
  eqRx : SMap Nat := []
  aligned : Nat := 0
  partner : Option (Nat × Nat) := none
  deskews : SMap Nat := []
  locks : Nat := 0
  owner : SMap Nat := []
  chkLock : Nat := 0
  injAct : Bool := false
  injAt : Nat := 0
  injBurst : Nat := 0
  txAt : Nat := 0
  fecWin : SMap Nat := []
  fecStart : Nat := 0
  inSvc : Bool := false
  txNext : Nat := 0
  txAcked : Nat := 1023
  fresh : Bool := true
  replay : List TxFlit := []
  replaying : Option (Nat × Nat) := none
  rxExp : Nat := 0
  nakOut : Bool := false
  nakCnt : Nat := 0
  needStart : Bool := false
  sparing : Option Nat := none
  frozen : Bool := false
  partBuf : List Byte := []
  unrep : Bool := false
  epCnt : Nat := 0
  epStart : Nat := 0
  lostReq : Bool := false
  deriving DecidableEq, Repr

/-- The steps of a turn (Table 3.8): accepted, LAST sent or received, drivers off, START awaited. -/
inductive TurnStep where
  | accepted | last | quietLine | locked
  deriving DecidableEq, Repr

/-- A turn in progress (R74, R75): group, new direction (true device-to-host), who asked, how far it is, and whether the group was the home on which
the stack received (R69). -/
structure Turn where
  grp : Nat
  dir : Bool
  tseq : Nat
  byStack : Bool
  step : TurnStep := .accepted
  wasHome : Bool := false
  deriving DecidableEq, Repr

/-- What leaves the stack at its bumps: flits with the bits that injection inverts in them (8 × byte + bit, R46), runs of IDLE flits, bursts on lanes,
the pattern `sel` of Table 2.6 on a mask of lanes at a preset, CONFIRM words, frames on the service port. -/
inductive Out where
  | flit (g fseq ftype : Nat) (area : List Byte) (flips : List Nat)
  | idle (g n : Nat)
  | square (g : Nat)
  | alignWord (g : Nat)
  | pattern (g lanes sel preset : Nat)
  | confirm (g word preset : Nat)
  | wake (g l : Nat)
  | ep1 (frame : List Byte)
  | ep2 (frame : List Byte)
  | ep3 (frame : List Byte)
  | ep0 (data : List Byte)
  deriving DecidableEq, Repr

/-- The link as a whole (ch. 2 to 4). `vc2Hold` are VC2 packets of a new home that wait for the old home's LAST (R69); `vc2Queue` those that wait
behind a persistent register write of their own domain (R112). `capOld` holds, for a domain, the old `VC0_CAP` and the group and number of the flit that
carries the new CONFIG once it is placed (R63). `holdLost` says that the old home of `vc2Hold` was lost, so that its re-sent packets come first. -/
structure Link where
  grp : SMap Grp := []
  up : Bool := false
  everUp : Bool := false
  homeH : Option Nat := none
  homeD : Option Nat := none
  cfgRx : Option (Nat × Nat) := none
  cfgSent : Bool := false
  cfgDue : Bool := false
  capOld : SMap (Nat × Option (Nat × Nat)) := []
  vc0Free : Nat := 32768
  vc0Held : SMap Nat := []
  vc0Ret : SMap Nat := []
  vc2Held : SMap Nat := []
  vc2Ret : SMap Nat := []
  vc1Avail : Nat := 0
  vc2Avail : Nat := 0
  vc1Last : Nat := 0
  vc2Last : Nat := 0
  credUnrep : Bool := false
  vc2Unrep : Bool := false
  lastStatus : Option Nat := none
  turn : Option Turn := none
  turnReq : Option Turn := none
  tseq : Nat := 0
  pseq : Nat := 0
  pmReq : Option (Nat × Nat) := none
  items : List (List Byte) := []
  resend : List (List Byte) := []
  vc2Out : List (List Byte) := []
  vc2Hold : List (List Byte) := []
  holdLost : Bool := false
  vc2Queue : List (List Byte) := []
  refclk : Bool := true
  deriving DecidableEq, Repr

/-! ## Power, clocks and states (PCK) -/

/-- Where the stack is: the steps of Table 17.1, the power states of R367, and the sequences between them. -/
inductive Pow where
  | off | boot | run | idle | sleep | entering | deepSleep | powerFail | warm | hold
  deriving DecidableEq, Repr

/-- An entry in progress (R374): the mailbox that asked, the state (1 SLEEP, 2 DEEP SLEEP, 3 OFF), and whether the partner has answered. -/
structure Entry where
  mbx : Nat
  target : Nat
  acked : Bool := false
  deriving DecidableEq, Repr

/-- An entry of the refusal log (Table 18.17): code, state, domain, abort, lifetime seconds. -/
structure Refused where
  code : Nat
  target : Nat
  dom : Nat
  abort : Bool
  life : Nat
  deriving DecidableEq, Repr

/-- PCK's sequencers and latches (ch. 17, 18, 20). `step` is the step of Table 17.1 (50, 51, 52 for 5a, 5b, 5c), 0 when none runs and
`stepAt` when step 4 began; `since` the moment
`LR_TIME` counts from; `lost` the always-on latch of `LOST_CH`; `kindLost` the latch of a brown-out or D-source shutdown (R365, R400); `wake` a
wake cause seen after WFI; `mainLow` when MAIN_GOOD fell; `fabDown`, `dckDown` the clocks that have stopped; `stby` the standby PLL is usable. -/
structure Pck where
  pow : Pow := .off
  wrstDue : Option (Nat × Nat) := none
  step : Nat := 0
  stepAt : Nat := 0
  since : Nat := 0
  bistRan : List Nat := []
  bistEnd : List Nat := []
  tiers : Nat := 0
  noDie : Nat := 0
  vbkp : Bool := false
  mainGood : Bool := false
  mainLow : Nat := 0
  resetLow : Bool := false
  refclk : Bool := true
  refLost : Bool := false
  lost : Nat := 0
  kindLost : Bool := false
  entry : Option Entry := none
  commit : Option Nat := none
  wfi : Bool := false
  wake : Option Nat := none
  pfAt : Nat := 0
  warmAt : Nat := 0
  warmCause : Nat := 0
  stretched : Bool := false
  fabDown : Bool := false
  dckDown : Nat := 0
  failedPll : List Nat := []
  stby : Bool := true
  test : Bool := false
  rlog : List Refused := []
  offReq : Bool := false
  deriving DecidableEq, Repr

/-! ## Thermal (THM) -/

/-- THM (ch. 19): the newest reading of each sensor in 1/16 °C, thirteen bits in two's complement, with `VALID`; `TMAX`; the computations
in a row with the inlet or the rise above its limit; the shutdown that is latched (kind as `TS_KIND`, and whether it is a D source) and THERMTRIP#. -/
structure Thm where
  temp : SMap (Nat × Bool) := []
  tmax : SMap Nat := []
  hotIn : Nat := 0
  hotRise : Nat := 0
  shut : Option Bool := none
  tripped : Bool := false
  deriving DecidableEq, Repr

/-! ## Calibration (CST) -/

/-- The calibration engine (ch. 16): the run in progress and the store writes of runs that ended, each with its items and the mailbox that waits;
whether stored values exist (R345); a word of the present store write was at its limit; the lifetime hour of the last periodic run. -/
structure Cst where
  run : Option (Nat × Option Nat) := none
  store : List (Nat × Option Nat) := []
  stored : Bool := false
  worn : Bool := false
  last : Nat := 0
  deriving DecidableEq, Repr

/-! ## Management (MGT) -/

/-- How the mailbox command in hand will be answered: now, or when what it waits for has happened. -/
inductive Await where
  | none
  | due (c : Code) (detail : Nat) (payload : List Byte)
  | quiesce (dom : Option Nat) (until' : Nat)
  | memRead (n : Nat)
  | memWrite
  | turn
  | cal
  | words (left : Nat) (limit : Bool) (payload : List Byte)
  | drain
  deriving DecidableEq, Repr

/-- A mailbox (R274, R275): its buffers, the `SEQ` of the command in hand and when it was taken, whether its effect has run, its journal entry (R270), and its answer. -/
structure Mbx where
  cmd : SMap Byte := []
  resp : SMap Byte := []
  seq : Nat := 0
  taken : Nat := 0
  ran : Bool := false
  journal : Bool := false
  await : Await := .none
  spdm : Nat := 0
  transcript : List Byte := []
  deriving DecidableEq, Repr

/-- A firmware load (Table 12.3): target boathouse, `TLEN`, the runs of bytes written, and whether it verified. -/
structure Load where
  target : Nat
  tlen : Nat
  runs : List (Nat × Nat) := []
  begun : Nat := 0
  verified : Bool := false
  deriving DecidableEq, Repr

/-- MGT (ch. 12). `take` is a planned takeover that waits for a command boundary (its `TCAUSE`; 15 the restart of R267), `leases` holds identifier and expiry by resource (0 to 4); `beat` the last restart of each core's watchdog; `nonce` its value and
expiry; `fails` the times of recent failed proofs; `applied` the field values the firmware last applied (R26); `busy` when each mailbox's command opened
its window, and the fields that it writes (R25); `stored` and `ctxSet` the settings and contexts that the firmware restores (R24). -/
structure Mgt where
  mbx : SMap Mbx := []
  leases : SMap (Nat × Nat) := []
  beat : Nat × Nat := (0, 0)
  rom : Nat := 0
  load : Option Load := none
  trial : Option (Nat × Nat) := none
  take : Option Nat := none
  auth : Bool := false
  nonce : Option (List Byte × Nat) := none
  fails : List Nat := []
  lockTo : Nat := 0
  applied : SMap Nat := []
  busy : SMap (Nat × List Nat) := []
  stored : List (RegId × Nat × Nat × List (Fld × Nat)) := []
  ctxSet : SMap (Nat × Nat × Nat × Nat) := []
  heldA : Bool := false
  deriving DecidableEq, Repr

/-! ## The register interface (GLB) -/

/-- A register access waiting behind a persistent write of the same master (R297): who, from where, write, offset, value. -/
structure RegAcc where
  who : Nat
  org : Origin
  wr : Bool
  off : Nat
  val : Nat
  deriving DecidableEq, Repr

/-- The register interface (ch. 13): waiting accesses and the 64-bit staging latch of each master (R300). -/
structure Glb where
  waits : SMap (List RegAcc) := []
  latch : SMap Nat := []
  deriving DecidableEq, Repr

/-! ## The service port (SVC) -/

/-- A bulk transfer (R437, R438): fill or drain, the next device address, blocks left, and whether a block's requests are out. -/
structure Xfer where
  fill : Bool
  addr : Nat
  left : Nat
  out : Bool := false
  deriving DecidableEq, Repr

/-- The service port (ch. 21): the tag of the MBX frame in hand, register frames in hand, the transfer, fill blocks in the 64 KiB buffer, the next record's
sequence number, and `SVC_LOST` at the previous record. -/
structure Svc where
  mbxTag : Option Nat := none
  xfer : Option Xfer := none
  buf : List (List Byte) := []
  recSeq : Nat := 0
  lostSeen : Nat := 0
  deriving DecidableEq, Repr

/-! ## The request engine (RQE) -/

/-- The operations of VC0 (Table 4.1). -/
inductive ROp where
  | rd | wr | wrp | afadd | aswap | acas | aand | aor | flush | zero | fence
  deriving DecidableEq, Repr

/-- A VC0 packet as RQE reads it (Tables 4.2 and 4.3): its opcode byte and its fields. -/
structure Vc0 where
  opc : Nat
  tag : Nat := 0
  dom : Nat := 0
  len : Nat := 0
  na : Bool := false
  md : Bool := false
  bow : Nat := 0
  dl : Nat := 0
  ord : Bool := false
  opf : Bool := false
  addr : Nat := 0
  wsel : Nat := 0
  rcnt : Nat := 0
  mask : Nat := 0
  opnd : Nat := 0
  swapv : Nat := 0
  data : List Byte := []
  mdx : List Byte := []
  deriving DecidableEq, Repr

/-- A sector's content: 64 data bytes and the metadata byte (bit 0 poison, R89). -/
structure Sector where
  data : List Byte
  md : Nat := 0
  deriving DecidableEq, Repr

/-- What a completion will carry (R97, R99, R100). -/
structure Cpl where
  status : Code
  sects : List Sector := []
  old : Nat := 0
  deriving DecidableEq, Repr

/-- Who issued a request: a host domain, or the internal domain for a mailbox command, a drain or a fill (R281, R437). -/
inductive Issuer where
  | host
  | mailbox (m : Nat)
  | service
  deriving DecidableEq, Repr

/-- A request-buffer entry (R123, R129). `pend` are the runs (first sector, count; device address divided by 64) still to be written, or still to be read;
`got` are the sectors read so far with their outcome; `visible` says that address comparison sees a write (R110). `runs` is the whole range of a FLUSH
or ZERO, `todo` the part of it that the range engine has yet to issue (R132), and `tmo` the channel whose hang ends it with TIMEOUT (R194). `bad` are the
sectors whose word in the write data buffer cannot be corrected (Table 10.3). -/
structure Req where
  id : Nat
  op : ROp
  p : Vc0
  iss : Issuer := .host
  at' : Nat := 0
  dev : Nat := 0
  bytes : Nat := 64
  visible : Bool := true
  issued : Bool := false
  performed : Bool := false
  prior : Bool := false
  rsvd : Bool := false
  pend : List (Nat × Nat) := []
  got : List (Nat × Sector × Code) := []
  cpl : Option Cpl := none
  sent : Bool := false
  hz : Bool := false
  ustep : Nat := 0
  runs : List (Nat × Nat) := []
  todo : List (Nat × Nat) := []
  tmo : Option Nat := none
  bad : List Nat := []
  deriving DecidableEq, Repr

/-- The request engine (ch. 5). `waitAt` is since when the head of each group has waited, `rot` the group after the last one served in part, and `taken`
the packets taken in which FAB cycle (R114). -/
structure Rqe where
  reqs : List Req := []
  nextId : Nat := 0
  waiting : SMap (List Vc0) := []
  waitAt : SMap Nat := []
  rot : Nat := 0
  taken : Nat × Nat := (0, 0)
  rejQ : List (List Byte) := []
  deriving DecidableEq, Repr

/-! ## The regulator (REG) -/

/-- Words 0 and 1 of a bow number's context (R139, Table 6.10); `ODOM` and `OWNED` follow from the ranges in force, words 2 and 3 from the
request buffer. -/
structure Ctx where
  cls : Nat := 0
  ltTgt : Nat := 0x19
  resIdx : Nat := 0
  alloc : Nat := 0
  mlat : Nat := 0
  ltStep : Nat := 0
  deriving DecidableEq, Repr

/-- The regulator (ch. 6). `sNext` holds S, `OVC`, `FOLD_ACT`, `HOT_RANKS` and `ZERO_CH` from the next window; `rangeJob` the ranges
changed under R138 whose contexts are still to be reset; `d0` what each master last wrote to REG_CTX_D0 (Table 6.10). -/
structure Regul where
  ctx : SMap Ctx := []
  d0 : SMap Nat := []
  cnt : SMap Nat := []
  watch : SMap (Nat × Nat) := []
  rsvBytes : SMap Nat := []
  meter : Nat := 0
  theta : Nat := 0
  thetaNext : Nat := 0
  foldAct : Bool := false
  hotRanks : Nat := 0
  zeroCh : Nat := 0
  sNext : Option (Nat × Bool × Bool × Nat × Nat) := none
  grantNext : Option (List (Nat × Nat)) := none
  rangeJob : SMap (List (Nat × Nat)) := []
  deriving DecidableEq, Repr

/-! ## The wide cache (SCC) -/

/-- A line of a slice: its tag entry (Table 7.2) and its two sectors. Sector states: 0 I, 1 P, 2 C, 3 D. -/
structure Line where
  tag : Nat := 0
  st0 : Nat := 0
  st1 : Nat := 0
  adom : Nat := 0
  bg : Bool := false
  d0 : Sector := { data := [] }
  d1 : Sector := { data := [] }
  deriving DecidableEq, Repr

/-- A line in a victim buffer (R164): set, tag, when it came in the order of admissions, and the sectors waiting for their DRAM write. -/
structure Victim where
  set : Nat
  tag : Nat
  ord : Nat := 0
  s0 : Option Sector := none
  s1 : Option Sector := none
  deriving DecidableEq, Repr

/-- An operation of R166: invalidate, scope (0 ALL, 1 DOMAIN, 2 WAYS), domain, ways, and how far its walk is (way × 4,096 + set). -/
structure SliceOp where
  inv : Bool
  scope : Nat
  odom : Nat := 0
  ways : Nat := 0
  pos : Nat := 0
  deriving DecidableEq, Repr

/-- The wide cache (ch. 7). Lines are keyed by (slice × 4,096 + set) × 16 + way, recency orders by slice × 4,096 + set. The tag fields of `line` are
the working copy of a tag entry and `dur` is the durable copy, as Table 7.2 lays it out (R156).
`retain` holds what `SSTATE` a slice in RETAIN returns to. -/
structure Scc where
  line : SMap Line := []
  dur : SMap Nat := []
  order : SMap (List Nat) := []
  victim : SMap (List Victim) := []
  op : SMap SliceOp := []
  ueWay : SMap (List Nat) := []
  retain : SMap Nat := []
  deriving DecidableEq, Repr

/-! ## TSVs, row repair and fold (TSV) -/

/-- A rolling, in-place or fast step of a channel (R242 to R246): the target line, the position it carries, and whether a fast swap runs. -/
structure CalStep where
  line : Nat
  pos : Option Nat := none
  fast : Bool := false
  deriving DecidableEq, Repr

/-- A MAPSW on its way (R240): position `pos` is taken from `line`; once it applies, `shadow` is the shadow or `isolate` the line under isolation; `at'` is the
cycle in which it issued. -/
structure MapSw where
  pos : Nat
  line : Nat
  shadow : Option Nat := none
  isolate : Option Nat := none
  at' : Option Nat := none
  deriving DecidableEq, Repr

/-- A channel's lines (R240): the map from position to line (127 none), the MAPSW commands on their way, oldest first, the shadow's failed validations in a row, each spare's, the
line isolated after a fast swap, the spare that becomes the shadow, the suspect that waits for a swap or a check (R247), and the repair in
progress: bank, row, spare, and whether the store holds its entry. -/
structure TsvCh where
  map : SMap Nat := []
  sw : List MapSw := []
  dly : SMap (Nat × Nat) := []
  step : Option CalStep := none
  fails : Nat := 0
  spareFails : SMap Nat := []
  isolated : Option Nat := none
  inPlace : Option Nat := none
  fastWait : Option Nat := none
  cur : Option (Nat × Nat × Nat) := none
  stored : Bool := false
  deriving DecidableEq, Repr

/-- TSV state that no register field holds (ch. 11). Remap entries are keyed by (channel × 128 + bank) × 32 + spare and coded as R330. `rmapLost`
are the entries that await their reload (Table 10.3), `rprQ` the queued rows (channel, bank, row) in order of first request (R447), `foldWin` the
fold's current 1,024 ns window and the units started in it, `foldMove` a move in progress, with whether its sectors have been read (R255), `foldPoison`
a source folded untrained (R258). -/
structure Tsv where
  rmap : SMap Nat := []
  ch : SMap TsvCh := []
  rmapLost : List Nat := []
  rprQ : List (Nat × Nat × Nat) := []
  foldWin : Nat × Nat := (0, 0)
  foldMove : Option Bool := none
  foldPoison : Bool := false
  deriving DecidableEq, Repr

/-! ## DRAM channels (DMC) and refresh (RFM) -/

/-- A bank: its open physical row and whether that ACT counts (R205), the DCK cycles from which ACT, PRE and column commands are allowed
(Table 8.1), consecutive hits (R180), whether no column followed the last ACT, whether a demand PRE closed it, when each unit of its refresh debt arose,
oldest first, and its next tick (R200), the die's row pointer (R199), and the rows a victim refresh has left (R209). -/
structure Bank where
  row : Option Nat := none
  counts : Bool := true
  actOk : Nat := 0
  preOk : Nat := 0
  colOk : Nat := 0
  hits : Nat := 0
  fresh : Bool := false
  conf : Bool := false
  owed : List Nat := []
  tick : Nat := 0
  rptr : Nat := 0
  vref : Option (List Nat) := none
  deriving DecidableEq, Repr

/-- A rank: its last four ACTs, the last with its bank group, from when commands are allowed (tXP, tXS), when PDE was issued, from when the PDE that follows
a PREA may issue, when it last had work, the end of its last write per bank group (tWTR), and the report protocol of R207 with the die's queue. -/
structure Rank where
  acts : List Nat := []
  lastAct : Option (Nat × Nat) := none
  cmdOk : Nat := 0
  pde : Nat := 0
  pdeDue : Option Nat := none
  busyAt : Nat := 0
  wrEnd : SMap Nat := []
  dieq : List Nat := []
  dieOvf : Bool := false
  rptSent : Nat := 0
  rptOut : Bool := false
  ack : Bool := false
  deriving DecidableEq, Repr

/-- A read or read-modify-write on a bank queue (R129): request, sector (device address divided by 64), channel address, and when it came. -/
structure DEnt where
  req : Nat
  sec : Nat
  c : Nat
  rmw : Bool
  fill : Bool
  at' : Nat
  promoted : Bool := false
  deriving DecidableEq, Repr

/-- What a sector on the write queue is: data of a WR, a sector of a ZERO, or a D sector that a FLUSH cleans (R132, R183). -/
inductive WKind where
  | wr | zero | clean
  deriving DecidableEq, Repr

/-- A sector on the write queue (R183). -/
structure WEnt where
  req : Nat
  sec : Nat
  c : Nat
  at' : Nat := 0
  promoted : Bool := false
  kind : WKind := .wr
  deriving DecidableEq, Repr

/-- An operation in the read-modify-write unit (R128): request, sector, whether it found its sector in the slice, and the cycle of its RD. -/
structure UEnt where
  req : Nat
  sec : Nat
  hit : Bool
  read : Option Nat := none
  deriving DecidableEq, Repr

/-- The engines whose bursts are internal traffic: patrol scrub, the fold, row repair (Table 8.2, R255, Table 11.5). -/
inductive Engine where
  | scrub | fold | repair
  deriving DecidableEq, Repr

/-- A command that an engine asks of a channel: RD or WR of a physical row, or the PRE that ends a scrub step (R227). `ord` is its place in the order of
admissions. -/
structure Burst where
  own : Engine
  bank : Nat
  row : Nat
  wr : Bool := false
  pre : Bool := false
  at' : Nat := 0
  ord : Nat := 0
  promoted : Bool := false
  deriving DecidableEq, Repr

/-- Interface training of a channel (R189, R190): the rank and step it is at, the attempt, when it began, and whether it was ordered in RUN. -/
structure Train where
  rank : Nat
  step : Nat := 0
  attempt : Nat := 0
  began : Nat := 0
  inRun : Bool := false
  ranks : List Nat := []
  failed : Bool := false
  deriving DecidableEq, Repr

/-- A channel controller (ch. 8) with the channel's part of RFM (ch. 9). `cyc` counts its DCK cycles and `rowAt` is the last in which a row command
issued. `fills` are fill data on their way to the slice, with their outcome. `eng` are the commands that engines wait for and `engAt` the cycle in which the data of the last of them
are complete. `scrub` is a scrub step in progress, with whether its row has been opened, `scrubAt` when it started, and `unitSc` the scrubbed sector that
the unit holds, with the cycle of its RD (R227, R228). `walkAt` and `walkUp` belong to the write-back that the slice's walk wants next. `hung` marks a
channel that hangs in a power-fail flush (Table 8.8), `rptAt` is when the last report burst starts and whose it is (R207), and `bkAt` says that a
backlog condition holds, or when the last one ended (R211). -/
structure Dmc where
  cyc : Nat := 0
  rowAt : Nat := 0
  bank : SMap Bank := []
  rank : SMap Rank := []
  q : List DEnt := []
  wq : List WEnt := []
  fly : List (DEnt × Nat) := []
  fillWait : List DEnt := []
  fills : List (Nat × Option Sector × Code) := []
  rmw : List UEnt := []
  eng : List Burst := []
  engAt : Nat := 0
  scrub : Option Bool := none
  scrubAt : Nat := 0
  unitSc : Option (Nat × Option Nat) := none
  walkAt : Nat := 0
  walkUp : Bool := false
  lastCol : Option (Nat × Nat × Bool) := none
  lastBurst : Option (Nat × Nat) := none
  rptAt : Option (Nat × Nat) := none
  reads : Nat := 0
  burst : Nat := 0
  oppo : Bool := false
  force : Bool := false
  cmdAt : Nat := 0
  stallTo : Nat := 0
  hangs : List Nat := []
  hung : Bool := false
  train : Option Train := none
  closing : List (Nat × Nat) := []
  vq : List (Nat × Nat × Nat) := []
  bkAt : Option (Option Nat) := none
  deriving DecidableEq, Repr

/-- RFM state of the whole stack: the threshold the dies leave behind and until when (R206), and the stroke words by physical row, with the word that the
start left in every row not listed (R204, R231). -/
structure Rfm where
  thrOld : Nat := 0x400
  thrAt : Nat := 0
  stroke : SMap Nat := []
  strokeBase : Nat := 0
  miss : SMap Nat := []
  held : SMap Bool := []
  deriving DecidableEq, Repr

/-! ## Data integrity (DIP) -/

/-- DIP state that no register field holds (ch. 10): the error log, when a channel last logged a corrected word, the 1 s and 1 ms windows
with the suspect positions, the row tracker (bank, row, location map), the armed injection, and scrub's write-backs. -/
structure Dip where
  log : List (List Nat) := []
  lastCe : SMap Nat := []
  ceWin : SMap (Nat × Nat × Bool) := []
  pos : SMap Nat := []
  susp : SMap (List Nat) := []
  rows : SMap (List (Nat × Nat × Nat)) := []
  inj : Option (Nat × Nat × Nat × Nat) := none
  wb : SMap (List Nat) := []
  passed : List Nat := []
  ctxLost : List Nat := []
  deriving DecidableEq, Repr

/-! ## Test access port (ch. 20) -/

/-- The states of the TAP controller (R422: IEEE 1149.1). -/
inductive TapState where
  | logicReset | runIdle | selectDr | captureDr | shiftDr | exit1Dr | pauseDr | exit2Dr | updateDr
  | selectIr | captureIr | shiftIr | exit1Ir | pauseIr | exit2Ir | updateIr
  deriving DecidableEq, Repr

/-- The instructions of Table 20.10. -/
inductive TapInstr where
  | bypass | idcode | sample | extest | clamp | highz | die
  deriving DecidableEq, Repr

/-- The test access port: the controller, the instruction in force, and the bits in the shift register on the path from TDI to TDO, first out first. The
board holds TRST# low in service, so the reset state is the one in force (R422). -/
structure Tap where
  st : TapState := .logicReset
  ir : TapInstr := .idcode
  sh : List Bool := []
  deriving DecidableEq, Repr

/-- The whole state. -/
structure State where
  pending : List Instr := []
  now : Nat := 0
  upBase : Nat := 0
  free : Nat := 0
  regs : SMap Nat := []
  mem : List Host.Cell := []
  memMeta : SMap Nat := []
  memErr : SMap Nat := []
  out : List Out := []
  link : Link := {}
  rqe : Rqe := {}
  reg : Regul := {}
  scc : Scc := {}
  dmc : SMap Dmc := []
  rfm : Rfm := {}
  dip : Dip := {}
  tsv : Tsv := {}
  fcr : Fcr := {}
  pck : Pck := {}
  pst : Pst := {}
  thm : Thm := {}
  cst : Cst := {}
  mgt : Mgt := {}
  glb : Glb := {}
  svc : Svc := {}
  tap : Tap := {}
  deriving DecidableEq, Repr

/-- The reasons a step can stop with a fault. No meaning of this model raises one: the spec gives every command an effect. -/
inductive Fault where
  | none
  deriving DecidableEq, Repr

/-- The reasons a step refuses a command. -/
inductive Refusal where
  /-- The command has no meaning yet; raised by the arm of `exec` alone; safe. -/
  | notModelled (mnemonic : String)
  deriving DecidableEq, Repr

/-- The stack before main power first arrives, with the reset value of every register (Reset columns) and nothing in memory. -/
def State.reset : State := {}

end Sys2Proof.Machine
end

