-- ==== Sys2Proof/Machine/Ops.lean ====
section
/-! DEFINITION. The operations that every family uses: register fields, time, free values, the MRAM write port and the raise of an event. -/

namespace Sys2Proof.Machine

/-! ## Register fields -/

/-- The place of instance `i`, `j` of a field in the register store. -/
def Fld.at (f : Fld) (i j : Nat) : Nat := f.key + f.s1 * i + f.s2 * j

/-- The reset value of instance `i` of a field (the Reset column, R5). -/
def Fld.reset (f : Fld) (i : Nat) : Nat := SMap.getD f.rstAt i f.rst

/-- The value of a field. -/
def State.rd (s : State) (f : Fld) (i : Nat := 0) (j : Nat := 0) : Nat := SMap.getD s.regs (f.at i j) (f.reset i)

/-- Store a value in a field, cut to the field's width. -/
def State.wr (s : State) (f : Fld) (v : Nat) (i : Nat := 0) (j : Nat := 0) : State :=
  { s with regs := SMap.put s.regs (f.at i j) (f.reset i) (v % 2 ^ f.w) }

/-- A one-bit field as a Boolean. -/
def State.on (s : State) (f : Fld) (i : Nat := 0) (j : Nat := 0) : Bool := s.rd f i j == 1

/-- Add to a counter that saturates at its width. -/
def State.inc (s : State) (f : Fld) (n : Nat := 1) (i : Nat := 0) (j : Nat := 0) : State :=
  s.wr f (min (s.rd f i j + n) (2 ^ f.w - 1)) i j

/-- Clear a field for the instances `0` to `n - 1`. -/
def State.clearAll (s : State) (f : Fld) (n : Nat) : State := (List.range n).foldl (fun t i => t.wr f 0 i) s

/-- Clear several fields for the instances `0` to `n - 1`. -/
def State.clearFields (s : State) (fs : List Fld) (n : Nat) : State := fs.foldl (fun t f => t.clearAll f n) s

/-! ## Time and free values -/

/-- Model time in units of 125 ps (log entry 4). -/
def usec : Nat := 8000
/-- One millisecond of model time. -/
def msec : Nat := 8000000
/-- One second of model time. -/
def second : Nat := 8000000000

/-- GLB_UPTIME: ACK cycles of 0.25 µs since VBKP came up (R305, Table 13.9). -/
def State.uptime (s : State) : Nat := (s.now - s.upBase) / 2000

/-- Draw a fresh open value. -/
def State.draw (s : State) : Nat × State := (Config.freeValue s.free, { s with free := s.free + 1 })

/-- Several free values at once. -/
def State.draws (s : State) (n : Nat) : List Nat × State := ((List.range n).map fun k => Config.freeValue (s.free + k), { s with free := s.free + n })

/-! ## The MRAM write port (R324, R445) -/

/-- An MRAM word. -/
def State.mramAt (s : State) (i : Nat) : Nat := SMap.getD s.pst.mram i 0

/-- A word's wear counter. -/
def State.wearAt (s : State) (i : Nat) : Nat := SMap.getD s.pst.wear i 0

/-- The content a queued word will leave (R324). -/
def MWord.result (w : MWord) (old : Nat) : Nat :=
  (List.range 32).foldl (fun v k => if bit w.mask k then (if bit w.val k then setBit v k else clrBit v k) else v) old

/-- The endurance limit and the warning level of R327. -/
def wearLimit : Nat := 1000000
/-- See `wearLimit`. -/
def wearWarn : Nat := 900000

/-- Where the repair map ends: repair-map words come before first-fault words within class 1 (R445). -/
def isRepairWord (w : MWord) : Bool := w.cls == 1 && decide (0x0C0000 ≤ w.idx) && decide (w.idx < 0x0E0000)

/-- The word the port takes next from those waiting (R445). -/
def portPick (q : List MWord) (since : Nat) : Option MWord :=
  let low := (q.find? (·.cls == 3)).or ((q.find? (·.cls == 4)).or (q.find? (·.cls == 5)))
  match q.find? isRepairWord with
  | some w => some w
  | none =>
    if since ≥ 7 && low.isSome then low
    else (q.find? (·.cls == 1)).or ((q.find? (·.cls == 2)).or low)

/-- The word a restricted port takes next (R324): repair-map entries, the fold words, the first-fault record, the record of source 246. -/
def portPickOnly (q : List MWord) : Option MWord :=
  (q.find? isRepairWord).or ((q.find? (·.cls == 2)).or ((q.find? (·.cls == 1)).or q.head?))

/-- Start the next word when the port is free (R324, R445). Repair-map words neither count towards the seven nor break the count. -/
def State.portStart (s : State) : State :=
  match s.pst.port with
  | some _ => s
  | none =>
    match (if s.pst.only then portPickOnly s.pst.q else portPick s.pst.q s.pst.since) with
    | none => s
    | some w =>
      let q := s.pst.q.erase w
      let lowWaits := q.any (fun x => decide (x.cls ≥ 3))
      let since := if isRepairWord w then s.pst.since
        else if w.cls ≤ 2 then (if lowWaits then s.pst.since + 1 else 0) else 0
      { s with pst.port := some w, pst.q := q, pst.since := since }

/-- Queue words for the port. While the port is restricted (R324), only pending repair-map words, the fold words, a first-fault record and
the record of source 246 are taken; every other write that arrives is dropped. -/
def portAllowed (w : MWord) : Bool :=
  match w.act with
  | .logWord first src => first || src == 246
  | .logEnd first src => first || src == 246
  | .preg .. => false
  | _ => isRepairWord w || w.idx == 0x120003 || w.idx == 0x120004

/-- See `portAllowed`: queue words and start the port if it is free. -/
def State.portPut (s : State) (ws : List MWord) : State :=
  ({ s with pst.q := s.pst.q ++ (if s.pst.only then ws.filter portAllowed else ws) }).portStart

/-- The word index of stack word `n` of Table 15.2 (the persistent-register area starts at 0x48_0000). -/
def pregIdx (n : Nat) : Nat := 0x120000 + n

/-- Store bits of a stack word that hardware changes (R325), at the class of persistent registers. -/
def State.putStackWord (s : State) (n lo w v : Nat) : State :=
  s.portPut [{ cls := 2, idx := pregIdx n, mask := (2 ^ w - 1) * 2 ^ lo, val := (v % 2 ^ w) * 2 ^ lo, act := .hw }]

/-! ## Raising an event (R306 to R317) -/

/-- The unit of a source (R316): channel, group, or the source itself. -/
def unitOf (src : Nat) : Nat × Nat :=
  if src < 192 then (0, src / 6) else if src < 240 then (1, (src - 192) / 3) else (2, src)

/-- A reaction applies when the severity reaches its threshold; 7 disables it (R309). -/
def reaches (sev : Sev) (thr : Nat) : Bool := decide (thr < 7) && decide (thr ≤ sev.num)

/-- FAULT and FATAL. -/
def grave (v : Sev) : Bool := v == .fault || v == .fatal

/-- Queue an EVT for domain `d` (R311): the domain filter, coalescing and the full queue. -/
def queueEvt (s : State) (d : Nat) (r : Raise) : State :=
  if !(s.on F.FCR_DOM_DEVT_EN d && decide (s.rd F.FCR_DOM_DSEV_MIN d ≤ r.sev.num)) then s else
  let q := SMap.getD s.fcr.evq d []
  let e : Evt := { src := r.src, sev := r.sev, detail := r.syn.headD 0 % 2 ^ 32, time := r.stamp % 2 ^ 32 }
  let missed (t : State) : State :=
    { (t.inc F.FCR_DOM_DLOST 1 d) with fcr.loss := SMap.put t.fcr.loss d false true }
  if q.any (·.src == r.src) then
    missed { s with fcr.evq := SMap.put s.fcr.evq d [] (q.map fun x => if x.src == r.src then e else x) }
  else if q.length ≥ 32 then missed s
  else { s with fcr.evq := SMap.put s.fcr.evq d [] (q ++ [e]) }

/-- Queue a copy for the service port (R313). -/
def queueCopy (s : State) (r : Raise) : State :=
  if s.fcr.svcq.length ≥ 64 then s.inc F.FCR_LOG_CNT_SVC_LOST else { s with fcr.svcq := s.fcr.svcq ++ [r] }

/-- The sixteen words of a log record (Table 14.4) before its CRC. -/
def logWords (s : State) (seq : Nat) (r : Raise) : List Nat :=
  [seq, r.src + r.sev.num * 512 + b2n r.first * 4096 + b2n r.test * 8192 + r.xst * 16384,
   r.stamp % 2 ^ 32, r.stamp / 2 ^ 32 % 2 ^ 32,
   s.rd F.PST_LIFE_LIFE_S, s.rd F.PST_BOOTS_BOOTS,
   r.syn.getD 0 0, r.syn.getD 1 0, r.syn.getD 2 0, r.syn.getD 3 0, 0, 0, 0, 0, 0]

/-- One bit of the IEEE 802.3 CRC-32, least significant bit first. -/
def crcBit (c : Nat) (b : Bool) : Nat :=
  let x := c / 2
  if (c % 2 == 1) != b then Nat.xor x 0xEDB88320 else x

/-- One byte of the CRC. -/
def crcByte (c : Nat) (b : Byte) : Nat := (List.range 8).foldl (fun c k => crcBit c (bit b.toNat k)) c

/-- The IEEE 802.3 frame check sequence of a byte string (R52). -/
def crc32 (l : List Byte) : Nat := Nat.xor (l.foldl crcByte 0xFFFFFFFF) 0xFFFFFFFF

/-- The CRC of 32-bit words, least significant byte first (R328). -/
def crcWords (ws : List Nat) : Nat := crc32 (ws.flatMap (leBytes 4))

/-- Hand a log record to the MRAM port: copy 0, then copy 1 (R314). A first-fault record goes at class 1, others at class 4 (R324). -/
def State.logToPort (s : State) (r : Raise) : State :=
  let seq := s.rd F.FCR_LOG_SEQ_RSEQ_NEXT
  let head := s.rd F.FCR_LOG_LOG_HEAD
  let body := logWords s seq r
  let ws := body ++ [crcWords body]
  let cls := if r.first then 1 else 4
  let copy (base : Nat) (lastAct : PortAct) : List MWord :=
    ws.zipIdx.map fun (v, k) =>
      { cls := cls, idx := base + 16 * head + k, mask := 2 ^ 32 - 1, val := v,
        act := if k = 15 then lastAct else .logWord r.first r.src }
  let s := s.portPut (copy 0x0E0000 (.logWord r.first r.src) ++ copy 0x100000 (.logEnd r.first r.src))
  (s.wr F.FCR_LOG_SEQ_RSEQ_NEXT (seq + 1)).wr F.FCR_LOG_LOG_HEAD ((head + 1) % 8192)

/-- Queue a fault-log record (R315): the answer's second part says which cause dropped it, if any. A first-fault record goes to the port at once (R316);
like every FAULT or FATAL record it takes a token if one is left. -/
def queueLog (s : State) (r : Raise) : State × Option Nat :=
  if s.on F.FCR_LOG_LOG_WEAR then (s, none) else
  if r.first then ({ s with fcr.tokens := s.fcr.tokens - 1 }.logToPort r, none) else
  let n := s.fcr.logq.length
  if n ≥ (if grave r.sev then 64 else 56) then (s.inc F.FCR_LOG_CNT_LOG_DROP, some 0)
  else if s.fcr.tokens = 0 && !(grave r.sev) then (s.inc F.FCR_LOG_CNT_LOG_DROP, some 2)
  else ({ s with fcr.tokens := s.fcr.tokens - 1, fcr.logq := s.fcr.logq ++ [r] }, none)

/-- First-fault capture (R316). -/
def capture (s : State) (r : Raise) : State :=
  if !s.on F.FCR_FF_FF_VALID then
    let s := ((((s.wr F.FCR_FF_FF_VALID 1).wr F.FCR_FF_FF_SRC r.src).wr F.FCR_FF_FF_SEV r.sev.num).wr
      F.FCR_FF_TIME_LO_FF_TLO r.stamp).wr F.FCR_FF_TIME_HI_FF_THI (r.stamp / 2 ^ 32)
    (List.range 4).foldl (fun t i => t.wr F.FCR_FF_SYN_FF_SYN (r.syn.getD i 0) i) s
  else if unitOf r.src = unitOf (s.rd F.FCR_FF_FF_SRC) && s.rd F.FCR_STAT_XSTATE ≠ 0 then s.inc F.FCR_FF_FF_MERGE
  else ((s.wr F.FCR_FF_FF_OVF 1).inc F.FCR_FF_OVF_FF_OVF_CNT).wr F.FCR_FF_OVF_FF_OVF_SRC r.src

/-- The fault state after a FAULT or FATAL raise (R317, Table 14.5). -/
def faultState (s : State) (v : Sev) : State :=
  if s.rd F.FCR_STAT_XSTATE = 2 then s
  else if v == .fatal then { s.wr F.FCR_STAT_XSTATE 2 with fcr.easy := none }
  else { s.wr F.FCR_STAT_XSTATE 1 with fcr.easy := some (s.now + s.rd F.FCR_CTL_EASY_MS * msec) }

/-- The action of `ACT` on a FAULT or FATAL raise (R309). A reaction reset is taken at most once in 10 s. -/
def react (s : State) (src : Nat) : State :=
  let weigh := s.wr F.MGT_QUIESCE_WE_STACK 1
  match s.rd F.FCR_SRC_ACT src with
  | 1 => weigh
  | 2 =>
    match s.fcr.lastReact with
    | some t => if s.now < t + 10 * second then weigh
        else { s with pck.wrstDue := some (s.now + usec, 2), fcr.lastReact := some s.now }
    | none => { s with pck.wrstDue := some (s.now + usec, 2), fcr.lastReact := some s.now }
  | _ => s

/-- STK_ALERT# is asserted, or was less than 10 µs ago (R312). -/
def alertLow (s : State) : Bool := s.on F.FCR_ALERT_ALERT || s.on F.FCR_ALERT_FW_ALERT || decide (s.now < s.fcr.lowTill)

/-- From state `s` an alert is asserted in `t`: where the pin was not low, it stays low for 10 µs (R312). -/
def holdAlert (s t : State) : State := if alertLow s then t else { t with fcr.lowTill := t.now + 10 * usec }

/-- One raise, latched and acted on (R309), with the cause if its log record was dropped. In SLEEP a raise of `PWAKE_SEV` is a wake source (Table 18.5). -/
def raiseOnce (s : State) (src : Nat) (v : Sev) (syn : List Nat) (test : Bool) : State × Option Nat :=
  let r0 : Raise := { src := src, sev := v, stamp := s.uptime, syn := syn.map (· % 2 ^ 32), test := test }
  let first := grave v && !s.on F.FCR_FF_FF_VALID
  let s := if grave v then faultState (capture s r0) v else s
  let r := { r0 with first := first, xst := s.rd F.FCR_STAT_XSTATE }
  let s := (onesOf (s.rd F.FCR_SRC_DMASK src) 16).foldl
    (fun t d => if reaches v (s.rd F.FCR_SRC_EVT_MIN src) then queueEvt t d r else t) s
  let s := if reaches v (s.rd F.FCR_SRC_ALERT_MIN src) then
      holdAlert s (((s.wr F.FCR_ALERT_ALERT 1).wr F.FCR_ALERT_ALERT_SRC src).inc F.FCR_ALERT_ALERT_CNT) else s
  let s := if reaches v (s.rd F.FCR_SRC_SVC_MIN src) then queueCopy s r else s
  let asleep := s.pck.pow == .sleep || (s.pck.pow == .entering && s.pck.wfi && s.rd F.PCK_MODE_MODE == 1)
  let s := if asleep && s.pck.wake.isNone && reaches v (s.rd F.PCK_CTL_PWAKE_SEV) then { s with pck.wake := some 5 } else s
  let (s, d) := if reaches v (s.rd F.FCR_SRC_LOG_MIN src) || grave v then queueLog s r else (s, none)
  (if grave v then react s src else s, d)

/-- Raise a source (R309). Dropping of log records is a lasting condition that raises source 283 when it begins (R315). -/
def State.raiseAs (s : State) (src : Nat) (v : Sev) (syn : List Nat) (test : Bool) : State :=
  match raiseOnce s src v syn test with
  | (s, none) => s
  | (s, some cause) =>
    let begins := match s.fcr.lastDrop with
      | none => true
      | some t => decide (t + msec ≤ s.now)
    let s := { s with fcr.lastDrop := some s.now }
    if begins then (raiseOnce s 283 .warn [2 ^ cause * 256] false).1 else s

/-- Raise a source with its syndrome words. -/
def State.raise (s : State) (src : Nat) (v : Sev) (syn : List Nat) : State := s.raiseAs src v syn false

/-- Raise a global source: word 0 holds the unit in bits 7:0 and the value in bits 31:8 (R308). -/
def State.raiseG (s : State) (src : Nat) (v : Sev) (unit value : Nat) (more : List Nat := []) : State :=
  s.raise src v ((unit % 256 + value % 2 ^ 24 * 256) :: more)

/-- A lasting condition is seen (R307): whether it had been absent for 1 ms. `key` tells the units of a condition apart. -/
def State.lasting (s : State) (key : Nat) : Bool × State :=
  let fresh := match SMap.get? s.fcr.last key with
    | none => true
    | some t => decide (t + msec ≤ s.now)
  (fresh, { s with fcr.last := SMap.set s.fcr.last key s.now })

/-- Raise a global source that names a lasting condition: only when the condition has been absent for 1 ms (R307). -/
def State.raiseLasting (s : State) (key src : Nat) (v : Sev) (unit value : Nat) : State :=
  let (fresh, s) := s.lasting key
  if fresh then s.raiseG src v unit value else s

end Sys2Proof.Machine
end

