-- ==== Sys2Proof/Machine/Tap.lean ====
section
/-! DEFINITION. The test access port (R422, R423): its controller, its instructions and the device identification. No row of the table drives TCK, TMS,
TDI or TRST# (log entry 120). -/

namespace Sys2Proof.Machine

/-- IDCODE (R423): revision B, part 0x8128, Casrad's manufacturer code 0x3A7, and a 1. -/
def idcode : Nat := 1 * 2 ^ 28 + 0x8128 * 2 ^ 12 + 0x3A7 * 2 + 1

/-- The next state of the controller on a rising TCK, by TMS (R422: IEEE 1149.1). -/
def TapState.next : TapState → Bool → TapState
  | .logicReset, m => if m then .logicReset else .runIdle
  | .runIdle, m => if m then .selectDr else .runIdle
  | .selectDr, m => if m then .selectIr else .captureDr
  | .captureDr, m => if m then .exit1Dr else .shiftDr
  | .shiftDr, m => if m then .exit1Dr else .shiftDr
  | .exit1Dr, m => if m then .updateDr else .pauseDr
  | .pauseDr, m => if m then .exit2Dr else .pauseDr
  | .exit2Dr, m => if m then .updateDr else .shiftDr
  | .updateDr, m => if m then .selectDr else .runIdle
  | .selectIr, m => if m then .logicReset else .captureIr
  | .captureIr, m => if m then .exit1Ir else .shiftIr
  | .shiftIr, m => if m then .exit1Ir else .shiftIr
  | .exit1Ir, m => if m then .updateIr else .pauseIr
  | .pauseIr, m => if m then .exit2Ir else .pauseIr
  | .exit2Ir, m => if m then .updateIr else .shiftIr
  | .updateIr, m => if m then .selectDr else .runIdle

/-- The instruction of a number of `Config.tapCode`. -/
def tapOf : Nat → TapInstr
  | 1 => .idcode
  | 2 => .sample
  | 3 => .extest
  | 4 => .clamp
  | 5 => .highz
  | 6 => .die
  | _ => .bypass

/-- Table 20.10: what an instruction acts as, by TEST_EN at the release of power-on reset. -/
def tapActs (test : Bool) (i : TapInstr) : TapInstr :=
  match i with
  | .bypass | .idcode | .sample => i
  | .extest | .clamp | .highz | .die => if test then i else .bypass

/-- What the path of an instruction captures: one 0 for BYPASS, IDCODE's 32 bits, cells otherwise. -/
def tapCapture (i : TapInstr) : List Bool :=
  match i with
  | .bypass | .clamp | .highz => [false]
  | .idcode => (List.range 32).map (bit idcode)
  | .sample | .extest => (List.range (Config.tapLength 0)).map Config.tapCell
  | .die => (List.range (Config.tapLength 1)).map Config.tapCell

/-- A rising edge of TCK. The controller acts in the state that it leaves. -/
def tapClock (tms tdi : Bool) (s : State) : State :=
  let x := s.tap
  let y : Tap := match x.st with
    | .logicReset => { x with ir := .idcode }
    | .captureDr => { x with sh := tapCapture (tapActs s.pck.test x.ir) }
    | .captureIr => { x with sh := (List.range Config.tapBits).map fun k => decide (k = 0) }
    | .shiftDr | .shiftIr => { x with sh := x.sh.drop 1 ++ [tdi] }
    | .updateIr => { x with ir := tapOf (Config.tapCode x.sh) }
    | _ => x
  { s with tap := { y with st := x.st.next tms } }

/-- TRST# low resets the TAP asynchronously (R422). -/
def tapReset (s : State) : State := { s with tap := {} }

end Sys2Proof.Machine
end

