-- ==== Sys2Proof/Machine/Codes.lean ====
section
/-! DEFINITION. The codes of the flit: CRC-32 (R52), Reed–Solomon RS(128,124) over GF(256) (R53), the flit's layout (R50) and the lane of each byte (R54). -/

namespace Sys2Proof.Machine

/-- Multiply by α in GF(2^8) with field polynomial x^8 + x^4 + x^3 + x^2 + 1 (R53). -/
def gfDouble (a : Nat) : Nat := if a < 128 then 2 * a else Nat.xor (2 * a) 0x11D

/-- `n` steps of shift-and-add multiplication. -/
def gfMulAux : Nat → Nat → Nat → Nat
  | 0, _, _ => 0
  | n + 1, a, b => Nat.xor (if b % 2 = 1 then a else 0) (gfMulAux n (gfDouble a) (b / 2))

/-- The product in GF(2^8). -/
def gfMul (a b : Nat) : Nat := gfMulAux 8 a b

/-- α to the power `n`. -/
def gfExp : Nat → Nat
  | 0 => 1
  | n + 1 => gfDouble (gfExp n)

/-- `a` to the power `n`. -/
def gfPow (a : Nat) : Nat → Nat
  | 0 => 1
  | n + 1 => gfMul a (gfPow a n)

/-- The inverse, a to the power 254. -/
def gfInv (a : Nat) : Nat := gfPow a 254

/-- The generator's coefficients below x^4: g(x) = (x + 1)(x + α)(x + α²)(x + α³), as (x³, x², x, 1). -/
def rsGen : Nat × Nat × Nat × Nat :=
  let mulRoot (p : List Nat) (r : Nat) : List Nat := List.zipWith Nat.xor (p ++ [0]) (0 :: p.map (gfMul r))
  match (mulRoot (mulRoot (mulRoot (mulRoot [1] 1) 2) 4) 8) with
  | [_, a, b, c, d] => (a, b, c, d)
  | _ => (0, 0, 0, 0)

/-- One step of the division of M(x)·x⁴ by g(x). -/
def rsStep (g r : Nat × Nat × Nat × Nat) (m : Nat) : Nat × Nat × Nat × Nat :=
  let fb := Nat.xor m r.1
  (Nat.xor r.2.1 (gfMul fb g.1), Nat.xor r.2.2.1 (gfMul fb g.2.1), Nat.xor r.2.2.2 (gfMul fb g.2.2.1), gfMul fb g.2.2.2)

/-- The four parity symbols of 124 message symbols, highest power first (R53). -/
def rsParity (m : List Nat) : List Nat :=
  let r := m.foldl (rsStep rsGen) (0, 0, 0, 0)
  [r.1, r.2.1, r.2.2.1, r.2.2.2]

/-- The syndrome at root α^i of a 128-symbol word, first symbol the coefficient of x^127. -/
def rsSyndrome (w : List Nat) (i : Nat) : Nat := w.foldl (fun acc x => Nat.xor (gfMul acc (gfExp i)) x) 0

/-- Decode one codeword: the corrected symbols and the positions corrected, or none when uncorrectable. At most two symbols are corrected. -/
def rsDecode (w : List Nat) : Option (List Nat × List Nat) :=
  let s0 := rsSyndrome w 0
  let s1 := rsSyndrome w 1
  let s2 := rsSyndrome w 2
  let s3 := rsSyndrome w 3
  let fix (p e : Nat) (w : List Nat) : List Nat := w.modify p (fun x => Nat.xor x e)
  if s0 = 0 ∧ s1 = 0 ∧ s2 = 0 ∧ s3 = 0 then some (w, []) else
  -- one error: the syndromes are a geometric sequence whose ratio is the locator of the position
  let single := (List.range 128).find? fun p =>
    let x := gfExp (127 - p)
    decide (s0 ≠ 0) && gfMul s0 x == s1 && gfMul s1 x == s2 && gfMul s2 x == s3
  match single with
  | some p => some (fix p s0 w, [p])
  | none =>
    let det := Nat.xor (gfMul s1 s1) (gfMul s0 s2)
    if det = 0 then none else
    let di := gfInv det
    let a1 := gfMul di (Nat.xor (gfMul s0 s3) (gfMul s1 s2))
    let a2 := gfMul di (Nat.xor (gfMul s1 s3) (gfMul s2 s2))
    let roots := (List.range 128).filter fun p =>
      let x := gfExp (127 - p)
      Nat.xor (Nat.xor (gfMul x x) (gfMul a1 x)) a2 == 0
    match roots with
    | [p, q] =>
      let x := gfExp (127 - p)
      let y := gfExp (127 - q)
      let e2 := gfMul (Nat.xor s1 (gfMul s0 x)) (gfInv (Nat.xor x y))
      some (fix q e2 (fix p (Nat.xor s0 e2) w), [p, q])
    | _ => none

/-- Codeword `k` of a flit: bytes k, k + 2, … (R53). -/
def codeword (fl : List Byte) (k n : Nat) : List Nat := (List.range n).map fun i => (fl.getD (k + 2 * i) 0).toNat

/-- The 256 bytes of a flit (R50, Table 3.1): header, packet area filled with PAD, CRC and FEC. -/
def flitBytes (fseq ftype : Nat) (area : List Byte) : List Byte :=
  let body := leBytes 2 (fseq % 1024 * 64 + ftype % 16 * 4) ++ (area ++ List.replicate (242 - area.length) 0xFF).take 242
  let m := body ++ leBytes 4 (crc32 body)
  let p0 := rsParity (codeword m 0 124)
  let p1 := rsParity (codeword m 1 124)
  m ++ (List.zip p0 p1).flatMap fun (a, b) => [BitVec.ofNat 8 a, BitVec.ofNat 8 b]

/-- A received flit after FEC (R53): its bytes, or none when a codeword is uncorrectable, and the flit bytes corrected in either codeword. -/
def flitFec (fl : List Byte) : Option (List Byte) × List Nat :=
  match rsDecode (codeword fl 0 128), rsDecode (codeword fl 1 128) with
  | some (a, pa), some (b, pb) =>
    (some ((List.zip a b).flatMap fun (x, y) => [BitVec.ofNat 8 x, BitVec.ofNat 8 y]), pa.map (2 * ·) ++ pb.map (fun p => 2 * p + 1))
  | some (_, pa), none => (none, pa.map (2 * ·))
  | none, some (_, pb) => (none, pb.map (fun p => 2 * p + 1))
  | none, none => (none, [])

/-- Whether the CRC of a flit matches (R52). -/
def flitCrcOk (fl : List Byte) : Bool := crc32 (fl.take 244) == leAt fl 244 4

/-! ## Bytes, words and symbols of a lane (R32, R54) -/

/-- The logical lane that carries flit byte `b` (R54). -/
def laneOfByte (b : Nat) : Nat := b % 128 / 2 % 16

/-- The HLK cycle of the flit in which byte `b` is sent (R54). -/
def cycleOfByte (b : Nat) : Nat := b / 128

/-- The byte of its lane's 64-bit word that carries flit byte `b` (R54): bits 8j + 7:8j of the word. -/
def wordByteOf (b : Nat) : Nat := 2 * (b % 128 / 32) + b % 2

/-- The flit byte in byte `j` of logical lane `k`'s word in cycle `c`: the inverse of R54's map. -/
def flitByteOf (c k j : Nat) : Nat := 128 * c + 32 * (j / 2) + 2 * k + j % 2

/-- The 64-bit word that logical lane `k` sends in cycle `c` of a flit (R54). -/
def laneWord (fl : List Byte) (c k : Nat) : Nat := leNat ((List.range 8).map fun j => fl.getD (flitByteOf c k j) 0)

/-- The level of a bit pair, by its odd and its even bit (R32, Gray mapping). -/
def grayLevel : Bool → Bool → Nat
  | false, false => 0
  | false, true => 1
  | true, true => 2
  | true, false => 3

/-- The 32 symbols of a lane word in the order sent: bits 1:0 first, bits 63:62 last (R32). -/
def wordLevels (w : Nat) : List Nat := (List.range 32).map fun n => grayLevel (bit w (2 * n + 1)) (bit w (2 * n))

/-- The 64 symbols that logical lane `k` sends for a flit, over its two HLK cycles. -/
def laneLevels (fl : List Byte) (k : Nat) : List Nat := wordLevels (laneWord fl 0 k) ++ wordLevels (laneWord fl 1 k)

/-- The bit of the flit that is the odd bit of symbol `n`, 0 to 63, of logical lane `k` (R32, R46, R54), as 8 × byte + bit. -/
def oddBitOf (k n : Nat) : Nat :=
  let b := 2 * (n % 32) + 1
  8 * flitByteOf (n / 32) k (b / 8) + b % 8

/-! ## Training words, patterns and presets (R33, R36, R43) -/

/-- The ALIGN word (R36). -/
def alignWord : Nat := 0x2222222222222D4B

/-- The CONFIRM word (R36): the preset asked for, the map of the sender's usable receive lanes, and its mark. -/
def confirmWord (preset map : Nat) : Nat := preset % 16 + map % 2 ^ 17 * 2 ^ 4 + 0xC04F * 2 ^ 48

/-- The first `n` bits of the sequence of a feedback shift register of `deg` bits with the given taps, from a register holding `r`. -/
def lfsrBits (deg : Nat) (taps : List Nat) : Nat → Nat → List Bool
  | 0, _ => []
  | n + 1, r =>
    let b := (taps.filter fun t => bit r (t - 1)).length % 2
    decide (b = 1) :: lfsrBits deg taps n ((2 * r + b) % 2 ^ deg)

/-- Bits paired into words of `n` bits, earliest bit lowest. -/
def bitsWord (l : List Bool) : Nat := l.foldr (fun b w => b2n b + 2 * w) 0

/-- `n` 64-bit words of the pattern `sel` of Table 2.6, as a number with the first word lowest; `user` is `PATTERN` and `seed` the phase of a PRBS, which
the spec does not give. In PRBSQ13 the first bit of each pair is the odd bit (log entry 115). -/
def patternBits (sel user seed n : Nat) : Nat :=
  let rep (w : Nat) : Nat := (List.range n).foldl (fun acc i => acc + w % 2 ^ 64 * 2 ^ (64 * i)) 0
  let swap (w : Nat) : Nat := (List.range (32 * n)).foldl (fun acc i => acc + (bits w (2 * i) 1 * 2 + bits w (2 * i + 1) 1) * 4 ^ i) 0
  match sel with
  | 0 => swap (bitsWord (lfsrBits 13 [13, 12, 2, 1] (64 * n) (seed % (2 ^ 13 - 1) + 1)))
  | 1 => bitsWord (lfsrBits 31 [31, 28] (64 * n) (seed % (2 ^ 31 - 1) + 1))
  | 2 => bitsWord (lfsrBits 7 [7, 6] (64 * n) (seed % (2 ^ 7 - 1) + 1))
  | 3 => rep alignWord
  | 4 => rep (user % 2 ^ 32 + user % 2 ^ 32 * 2 ^ 32)
  -- levels 0, 1, 2, 3 are the pairs 00, 01, 11, 10
  | 5 => (List.range n).foldl (fun acc i => acc + (if i % 2 = 1 then 0xAAAAAAAAAAAAAAAA else 0) * 2 ^ (64 * i)) 0
  | _ => rep 0xB4B4B4B4B4B4B4B4

/-- Whether the checker counts 64-bit words rather than bits (R43). -/
def countsWords (sel : Nat) : Bool := sel == 3 || sel == 4

/-- What a checker counts over `n` received 64-bit words against the pattern (R43): mismatched words for ALIGN and USER, else bit errors. -/
def checkErrors (sel user seed n rx : Nat) : Nat :=
  let d := Nat.xor (patternBits sel user seed n) (rx % 2 ^ (64 * n))
  if countsWords sel then ((List.range n).filter fun i => bits d (64 * i) 64 != 0).length else popCount d (64 * n)

/-- Tap weights of a transmitter preset in hundredths: pre-cursor, main, post-cursor (Table 2.2). -/
def presetTaps : Nat → Int × Int × Int
  | 0 => (0, 100, 0)
  | 1 => (0, 90, -10)
  | 2 => (0, 80, -20)
  | 3 => (-5, 85, -10)
  | 4 => (-5, 75, -20)
  | 5 => (-10, 80, -10)
  | 6 => (-10, 70, -20)
  | _ => (-15, 70, -15)

/-- What the three-tap equaliser makes of three levels in a row at a preset, in hundredths of a level (R33). -/
def equalise (preset : Nat) (after cur before : Int) : Int :=
  let t := presetTaps preset
  t.1 * after + t.2.1 * cur + t.2.2 * before

/-- The physical lane of logical lane `k`: logical lanes map in ascending order onto the carrying lanes (R29). -/
def physLane (carry k : Nat) : Nat := (onesOf carry 17).getD k 0

end Sys2Proof.Machine
end

