-- ==== Sys2Proof/Machine/Phy.lean ====
section
/-! DEFINITION. Link lanes and groups (HLP, ch. 2): training, lane failure, power states of the lanes, generator and checker. -/

namespace Sys2Proof.Machine

/-- A group at reset: G0 to G7 host-to-device, G8 to G15 device-to-host (R28). -/
def grp0 (g : Nat) : Grp := { dir := decide (8 ≤ g) }

/-- Group `g`. -/
def State.grp (s : State) (g : Nat) : Grp := SMap.getD s.link.grp g (grp0 g)

/-- Store group `g`. -/
def State.setGrp (s : State) (g : Nat) (x : Grp) : State :=
  { s with link := { s.link with grp := SMap.put s.link.grp g (grp0 g) x } }

/-- Change group `g`. -/
def State.modGrp (s : State) (g : Nat) (f : Grp → Grp) : State := s.setGrp g (f (s.grp g))

/-- All seventeen lanes of a group (R27). -/
def allLanes : Nat := 0x1FFFF

/-- The lanes of `m` that are not FAILED. -/
def usable (x : Grp) : Nat := maskOf ((onesOf allLanes 17).filter fun l => !bit x.failed l)

/-- Mapping of R29: logical lanes 0 to 15 take the usable lanes in ascending order; a seventeenth usable lane is the spare. -/
def mapLanes (x : Grp) : Grp :=
  let u := onesOf (usable x) 17
  { x with carry := maskOf (u.take 16), spare := u.getD 16 31 |> fun l => if l = 31 then none else some l }

/-- A fresh stream in both roles (R68): numbering from 0, nothing held, START first. -/
def freshStream (x : Grp) : Grp :=
  { x with txNext := 0, txAcked := 1023, fresh := true, replay := [], replaying := none, rxExp := 0, nakOut := false, nakCnt := 0,
           needStart := false, sparing := none, frozen := false, partBuf := [], unrep := false, epCnt := 0, lostReq := false }

/-- Symbol `n` since the last injection started is inverted (R46): the first of a single or burst injection, one each `2^INJ_EXP` of a periodic one. -/
def injected (s : State) (g n : Nat) : Bool :=
  let x := s.grp g
  decide (n < x.injBurst) || x.injAct && n % 2 ^ s.rd F.HLP_INJ_INJ_EXP g == 0 && n != 0

/-- The bits of a flit that injection inverts, when its first symbol leaves at time `t` (R46): the odd bit of each injected symbol of the lane. A flit is
64 symbols on every lane, 64 a nanosecond. -/
def flipsAt (s : State) (g t : Nat) : List Nat :=
  let x := s.grp g
  let l := s.rd F.HLP_INJ_INJ_LANE g
  if s.on F.HLP_INJ_INJ_LIVE g && bit x.carry l && (x.injAct || x.injBurst != 0) && decide (x.injAt ≤ t) then
    ((List.range 64).filter fun n => injected s g ((t - x.injAt) * 8 + n)).map (oddBitOf (popCount x.carry l))
  else []

/-- Injection events since `INJ_GO` (R46, Table 2.12): a single symbol and a burst are one event; periodic injection makes one each `2^INJ_EXP` symbols of
15.625 ps (64 GBd), saturating at 4,095. -/
def injCount (s : State) (g : Nat) : Nat :=
  if (s.grp g).injAct then min 4095 ((s.now - (s.grp g).injAt) * 8 / 2 ^ s.rd F.HLP_INJ_INJ_EXP g) else s.rd F.HLP_INJ_INJ_CNT g

/-- A running injection ends; its count stays. -/
def endInjection (s : State) (g : Nat) : State :=
  if (s.grp g).injAct then (s.wr F.HLP_INJ_INJ_CNT (injCount s g) g).modGrp g fun x => { x with injAct := false } else s

/-! ## Checkers and generators (R43 to R45) -/

/-- The owner of a lane's checker, as `CHK_OWNER` (Table 2.7): 0 none, 1 repair, 2 calibration, 3 user. -/
def chkOwner (x : Grp) (l : Nat) : Nat := SMap.getD x.owner l 0

/-- What the checker of a lane has counted since the last look (R43): the words received in between are an open value. The idle spare is compared with
PRBSQ13 and counts nothing here. -/
def sampleErrors (s : State) (g l : Nat) : State :=
  if chkOwner (s.grp g) l = 0 then s else
  let (n, s) := s.draw
  let (seed, s) := s.draw
  let (rx, s) := s.draw
  s.inc F.HLP_LN_ERR_ERRORS (checkErrors (s.rd F.HLP_LN_CTL_PAT_SEL g l) (s.rd F.HLP_PAT_USER_PATTERN g) seed n rx) g l

/-- The checker of a lane is handed to an owner; whether it is synchronised is a measurement (Table 2.14). -/
def giveChecker (s : State) (g l owner : Nat) : State :=
  let (n, s) := s.draw
  s.modGrp g fun x => { x with owner := SMap.put x.owner l 0 owner, chkLock := if n % 2 = 1 then setBit x.chkLock l else clrBit x.chkLock l }

/-- A user test of lane `l` ends when a higher owner takes the checker; its error count is kept (R45). -/
def takeChecker (s : State) (g l owner : Nat) : State :=
  let s := sampleErrors s g l
  let s := if chkOwner (s.grp g) l = 3 then (s.wr F.HLP_LN_CTL_CHK_ABORT 1 g l).wr F.HLP_LN_CTL_CHK_EN 0 g l else s
  giveChecker s g l owner

/-- A checker is released. -/
def dropChecker (s : State) (g l : Nat) : State :=
  (sampleErrors s g l).modGrp g fun x => { x with owner := SMap.put x.owner l 0 0, chkLock := clrBit x.chkLock l }

/-- The detail word of RESOURCE for a lane checker (R45). -/
def checkerDetail (x : Grp) (g l : Nat) : Nat := 1 + g * 2 ^ 8 + l * 2 ^ 16 + chkOwner x l * 2 ^ 24

/-- The generator and the checker of a lane are turned off: the lane no longer meets R44. -/
def endTest (s : State) (g l : Nat) : State :=
  let s := if chkOwner (s.grp g) l = 0 then s else dropChecker s g l
  let s := if s.on F.HLP_LN_CTL_CHK_EN g l then s.wr F.HLP_LN_CTL_CHK_EN 0 g l else s
  if s.on F.HLP_LN_CTL_GEN_EN g l then s.wr F.HLP_LN_CTL_GEN_EN 0 g l else s

/-- Every lane of the group leaves its test. -/
def endTests (s : State) (g : Nat) : State := (onesOf allLanes 17).foldl (fun t l => endTest t g l) s

/-- Injection and tests of a group end: its lanes carry flits no longer, and are neither spare nor FAILED-ON. -/
def endUse (s : State) (g : Nat) : State := endTests (endInjection s g) g

/-- A group leaves every lane off (Table 2.3, last row; R40). -/
def groupOff (s : State) (g : Nat) : State :=
  (endUse s g).modGrp g fun x =>
    { freshStream x with gst := .off, slot := 0, fast := false, pll := false, locks := 0, carry := 0, spare := none, inSvc := false }

/-- A group goes to DETECT, in its R28 direction once it trains; entries after the first training count in `RETRAINS` (Table 2.13). -/
def groupDetect (s : State) (g : Nat) : State :=
  let s := if (s.grp g).trained then s.inc F.HLP_RETRAIN_CNT_RETRAINS 1 g else s
  (endUse s g).modGrp g fun x =>
    { x with
      gst := .detect, slot := 0, fast := false, pll := false, failed := x.bad, carry := 0, spare := none, scored := 0, scoredTx := 0, aligned := 0
      locks := 0, partner := none, inSvc := false, eqDone := false }

/-- A group fails training: every lane of it is OFF (R40). -/
def groupFailed (s : State) (g : Nat) : State :=
  (endUse s g).modGrp g fun x => { x with gst := .failed, pll := false, carry := 0, spare := none, locks := 0 }

/-- OFF to DETECT (Table 2.3): main rails good, HL_REFCLK present, and the link-training step. -/
def groupPowerUp (g : Nat) (s : State) : State :=
  let ok : Bool := match s.pck.pow with
    | .run | .idle | .entering => true
    | _ => false
  if (s.grp g).gst = .off ∧ s.link.refclk ∧ ok then
    (groupDetect s g).modGrp g fun x => { x with attempt := 1 }
  else s

/-- DETECT ends: lanes without far-end termination are FAILED; fewer than sixteen sensed fails the group (Table 2.3). -/
def groupDetectEnd (g sensed : Nat) (s : State) : State :=
  if (s.grp g).gst ≠ .detect then s else
  let s := s.modGrp g fun x => { x with failed := Nat.lor x.bad (allLanes - sensed % 2 ^ 17) }
  if popCount (usable (s.grp g)) 17 ≥ 16 then s.modGrp g fun x => { x with gst := .clock } else groupFailed s g

/-- CLOCK ends: PLL locked and the partner's SQUARE burst ended on every lane, or 1 ms expired (Table 2.3). Once locked the stack sends its own burst,
by R34's exchange of roles. The slot count starts at the end of the burst. -/
def groupClockEnd (g : Nat) (locked burst : Bool) (s : State) : State :=
  let x := s.grp g
  if x.gst ≠ .clock then s else
  let s := if locked then { s with out := s.out ++ [Out.pattern g (usable x) 5 x.presetTx] } else s
  if locked && burst then
    if x.fast then s.modGrp g fun x => { x with gst := .align, slot := 16, pll := true, locks := usable x, partner := none }
    else s.modGrp g fun x => { x with gst := .eq, slot := 0, pll := true, locks := usable x }
  else groupFailed s g

/-- Mark every lane outside `keep` FAILED; the group fails when fewer than sixteen lanes remain (R34). -/
def keepLanes (s : State) (g keep : Nat) (next : Grp → Grp) : State :=
  let s := s.modGrp g fun x => { x with failed := maskOf ((onesOf allLanes 17).filter fun l => bit x.failed l || !bit keep l) }
  if popCount (usable (s.grp g)) 17 ≥ 16 then s.modGrp g next else groupFailed s g

/-- Latch the slip of each lane found by hardware; a lane with `SLIP_MAN` keeps its own (R47). -/
def latchSlips (s : State) (g : Nat) (slips : List Nat) : State :=
  (List.range 17).foldl (fun t l =>
    if t.on F.HLP_LN_CTL_SLIP_MAN g l then t else t.wr F.HLP_LN_CTL_SLIP (slips.getD l 0) g l) s

/-- The arrival of the earliest lane of a mask, in unit intervals. -/
def earliest (lanes : Nat) (skew : List Nat) : Nat := ((onesOf lanes 17).map (skew.getD · 0)).min?.getD 0

/-- The lanes of a mask that arrive at most 2.0 ns, 128 unit intervals, behind the earliest (Table 2.3). -/
def inSkew (lanes : Nat) (skew : List Nat) : Nat :=
  maskOf ((onesOf lanes 17).filter fun l => decide (skew.getD l 0 ≤ earliest lanes skew + 128))

/-- The deskew delays of R38: each usable lane is delayed to the latest of them. -/
def setDeskew (x : Grp) (skew : List Nat) : Grp :=
  let us := onesOf (usable x) 17
  let last := (us.map (skew.getD · 0)).max?.getD 0
  { x with deskews := us.foldl (fun m l => SMap.put m l 0 (last - skew.getD l 0)) [] }

/-- `DESKEW_MAX`: the largest deskew delay in units of 0.5 ns, 32 unit intervals, rounded up (Table 2.9). -/
def deskewMax (x : Grp) : Nat := ((x.deskews.map (·.2)).max?.getD 0 + 31) / 32

/-- The idle spare lane of a group on which the stack transmits carries PRBSQ13 (R43). -/
def spareStream (s : State) (g : Nat) : State :=
  let x := s.grp g
  match x.spare with
  | some l => if x.dir then { s with out := s.out ++ [Out.pattern g (2 ^ l) 0 x.presetTx] } else s
  | none => s

/-- The group becomes ACTIVE with lanes mapped by R29 and its R28 direction, or the direction it had on entry to DEEP (R42). With `TEST` = 1 it goes
on to TEST (Table 2.3). -/
def activate (s : State) (g : Nat) : State :=
  spareStream (s.modGrp g fun x => mapLanes { x with
    gst := if s.on F.HLP_CTL_TEST g then .test else .active, trained := true, bad := 0, attempt := 0, dir := if x.fast then x.dir else decide (8 ≤ g), fast := false }) g

/-- The preset that the stack asks the partner to transmit with: its scored choice, or `PRESET_RX` with `EQ_FIX` (R36, Table 2.8). -/
def askedPreset (s : State) (g : Nat) : Nat := if s.on F.HLP_CTL_EQ_FIX g then s.rd F.HLP_EQ_PRESET_RX g else (s.grp g).best

/-- Presets after training (R34, Table 2.10): the stack's transmitter takes what the partner asked for, or `PRESET_TX` with `EQ_FIX`. -/
def applyPresets (s : State) (g : Nat) (asked : Nat) : State :=
  s.modGrp g fun x => { x with presetRx := askedPreset s g, presetTx := if s.on F.HLP_CTL_EQ_FIX g then s.rd F.HLP_EQ_PRESET_TX g else asked }

/-- CONFIRM completes when both CONFIRM words stand on at least sixteen lanes: a lane is usable only if both maps mark it (R36). -/
def confirmDone (s : State) (g : Nat) : State :=
  match (s.grp g).partner with
  | none => groupFailed s g
  | some (asked, map) =>
    let s := s.modGrp g fun x => { x with failed := maskOf ((onesOf allLanes 17).filter fun l => bit x.failed l || !bit map l) }
    if popCount (usable (s.grp g)) 17 ≥ 16 then activate (applyPresets s g asked) g else groupFailed s g

/-- What the stack sends in the slot that begins when `n` slots are done (Table 2.4): PRBSQ13 at P0 to P7, the ALIGN word and the CONFIRM word at P4. -/
def slotSend (s : State) (g n : Nat) : State :=
  let x := s.grp g
  let put (o : Out) : State := { s with out := s.out ++ [o] }
  match x.gst with
  | .eq => if decide (8 ≤ n) && decide (n ≤ 15) then put (.pattern g (usable x) 0 (n - 8)) else s
  | .align => if n = 17 then put (.pattern g (usable x) 3 4) else s
  | .confirm => if n = 19 then put (.confirm g (confirmWord (askedPreset s g) (usable x)) 4) else s
  | _ => s

/-- The adaptation that a receive slot stores for each lane that it scored at preset `p` (R28, R34). -/
def storeEq (x : Grp) (p : Nat) (r : SlotResult) : Grp :=
  { x with eqRx := (onesOf r.lanes 17).foldl (fun m l => SMap.put m (l * 8 + p) 0 (r.ctle.getD l 0 % 64 + 64 * (r.dfe.getD l 0 % 64))) x.eqRx }

/-- The task of slot `n` is done (R35, Tables 2.3 and 2.4). -/
def slotDone (s : State) (g n : Nat) (r : SlotResult) : State :=
  let join (a b : Nat) : Nat := maskOf (onesOf allLanes 17 |>.filter fun l => bit a l || bit b l)
  match (s.grp g).gst with
  | .eq =>
    if n ≤ 8 then s.modGrp g fun x => { storeEq x (n - 1) r with scored := join x.scored r.lanes, best := r.preset % 8 }
    else
      let s := s.modGrp g fun x => { x with scoredTx := join x.scoredTx r.lanes }
      if n = 16 then
        keepLanes s g (maskOf ((onesOf (s.grp g).scored 17).filter (bit (s.grp g).scoredTx))) fun x => { x with gst := .align, eqDone := true }
      else s
  | .align =>
    if n = 17 then latchSlips (s.modGrp g fun x => { x with aligned := r.lanes, deskews := (List.range 17).foldl (fun m l => SMap.put m l 0 (r.skew.getD l 0)) [] }) g r.slips
    else
      -- ALIGN ends; the skew check of DESKEW then sets the deskew delays (Table 2.3)
      let s := keepLanes s g (s.grp g).aligned fun x => { x with gst := .deskew }
      let x := s.grp g
      let skew := (List.range 17).map fun l => SMap.getD x.deskews l 0
      if x.gst = .deskew then keepLanes s g (inSkew (usable x) skew) fun x => { setDeskew x skew with gst := .confirm } else s
  | .confirm => if n ≥ 20 then confirmDone s g else s
  | _ => s

/-- A training slot ends, and the stack sends in the next one where that is its own (R35). -/
def trainingSlotEnd (g : Nat) (r : SlotResult) (s : State) : State :=
  let n := (s.grp g).slot + 1
  slotSend (slotDone (s.modGrp g fun x => { x with slot := n }) g n r) g n

/-- A CONFIRM word is accepted after 64 identical copies on the lanes `on` (R36) and recorded; slot 20 decides (Table 2.3). A word that is not valid, or
not on sixteen lanes, is none. -/
def confirmWordAccept (g word on : Nat) (s : State) : State :=
  if (s.grp g).gst = .confirm ∧ bits word 48 16 = 0xC04F ∧ bits word 21 27 = 0 ∧ popCount on 17 ≥ 16 then
    s.modGrp g fun x => { x with partner := some (bits word 0 4, maskOf ((onesOf on 17).filter (bit (bits word 4 17)))) }
  else s

/-- R37: a group that reaches FAILED in the link-training step, or after a return of HL_REFCLK (R48), is retrained from DETECT, three attempts in
all. `attempt` is zero outside such a series. -/
def groupTrainFail (g : Nat) (s : State) : State :=
  let x := s.grp g
  if x.gst = .failed ∧ x.attempt < 3 ∧ (s.pck.step = 8 ∨ x.attempt ≠ 0) then (groupDetect s g).modGrp g fun y => { y with attempt := x.attempt + 1 } else s

/-- The lane state shown in `LSTATE` (Table 2.14). -/
def laneState (x : Grp) (l : Nat) : Nat :=
  match x.gst with
  | .off | .failed => 0
  | .detect | .clock | .eq | .align | .deskew | .confirm => if bit x.failed l then 6 else 1
  | .deep => 5
  | .quiet => if bit x.failed l then 6 else if x.spare = some l then 3 else 4
  | .test => if bit x.failed l then 6 else 7
  | .active | .turn => if bit x.failed l then 6 else if x.spare = some l then 3 else 2

/-- `GSTATE` (Table 2.9). -/
def GState.num : GState → Nat
  | .off => 0 | .detect => 1 | .clock => 2 | .eq => 3 | .align => 4 | .deskew => 5 | .confirm => 6 | .active => 7 | .quiet => 8
  | .deep => 9 | .turn => 10 | .test => 11 | .failed => 12

/-- R44: a lane's generator and checker may be enabled only while the lane is the spare, is FAILED, or belongs to a group in TEST. -/
def laneFree (x : Grp) (l : Nat) : Bool := x.gst = .test || x.spare = some l || laneState x l == 6

/-- A lane that no longer carries flits stops live injection (R46). -/
def stopInjection (s : State) (g l : Nat) : State :=
  if (s.grp g).injAct && s.rd F.HLP_INJ_INJ_LANE g == l && s.on F.HLP_INJ_INJ_LIVE g then endInjection s g else s

/-! ## What the stack drives (R33, R40, R43, R44) -/

/-- What the stack's driver of a lane puts out, with the preset of its equaliser. -/
inductive LaneDrive where
  | off
  | commonMode
  | flits (preset : Nat)
  | pattern (sel preset : Nat)
  deriving DecidableEq, Repr

/-- The driver of lane `l`: off where the stack does not transmit, in DEEP, OFF and FAILED, and in near-end loopback (Table 2.8); common mode in QUIET
and on a FAILED-ON lane unless the generator drives (R40); flits on carrying lanes; PRBSQ13 on the idle spare (R43). Training slots are in `Out`. -/
def laneDrive (s : State) (g l : Nat) : LaneDrive :=
  let x := s.grp g
  let gen : LaneDrive := if s.on F.HLP_LN_CTL_GEN_EN g l then .pattern (s.rd F.HLP_LN_CTL_PAT_SEL g l) x.presetTx else .commonMode
  match x.gst with
  | .active | .turn =>
    if !x.dir then .off else if bit x.carry l then .flits x.presetTx else if x.spare = some l && !s.on F.HLP_LN_CTL_GEN_EN g l then .pattern 0 x.presetTx else gen
  | .quiet => if !x.dir then .off else gen
  | .test => if !x.dir || s.rd F.HLP_CTL_LOOPBACK g == 1 then .off else gen
  | _ => .off

end Sys2Proof.Machine
end

