-- ==== Sys2Proof/Machine/Operands.lean ====
section
/-! DEFINITION. The forms of packets and link items: lengths, fields read from bytes, and the bytes the stack sends (ch. 3 and 4). -/

namespace Sys2Proof.Machine

/-- Bytes of the data of `LEN` (R83): 64, 128 or 256, and 64 for `LEN` = 3. -/
def lenBytes (len : Nat) : Nat := if len = 1 then 128 else if len = 2 then 256 else 64

/-- Cells of 16 bytes that a packet occupies (R61). -/
def cellsOf (n : Nat) : Nat := (n + 15) / 16

/-- The length of a packet from the partner, from its first eight bytes (Table 4.1). -/
def packetLen (l : List Byte) : Nat :=
  let op := (l.getD 0 0).toNat
  let len := leAt l 3 1 / 16 % 4
  -- byte 3 holds `DOM` in bits 3:0, `LEN` in bits 5:4, `NA` in bit 6 and `MD` in bit 7 (Table 4.2)
  let mdBit := bit (leAt l 3 1) 7
  if op < 0x10 then 16
  else if op = 0x10 then 16 + (if mdBit then 8 else 0) + lenBytes len
  else if op = 0x11 then 88
  else if op < 0x20 then 16 + lenBytes len
  else if op = 0x22 then 32
  else if op < 0x30 then 24
  else if op < 0x40 then 16
  else if op = 0x51 then 12
  else if op = 0x62 then 8 + 4 * leAt l 4 1
  else 8

/-- The opcodes that the partner may send (R82, Table 4.1). -/
def partnerMaySend (op : Nat) : Bool :=
  decide (op < 0x40) || op == 0x50 || op == 0x51 || (decide (0x54 ≤ op) && decide (op ≤ 0x60)) || op == 0x62 || op == 0x63 ||
  (decide (0x66 ≤ op) && decide (op ≤ 0x6F)) || op == 0x80 || op == 0x81 || (decide (0x83 ≤ op) && decide (op ≤ 0x8F))

/-- A VC0 packet read from its bytes (Tables 4.2 and 4.3, R90, R91). -/
def vc0Of (l : List Byte) : Vc0 :=
  let h := leAt l 0 16
  let op := bits h 0 8
  let md := bit h 31
  let n := lenBytes (bits h 28 2)
  { opc := op, tag := bits h 8 16, dom := bits h 24 4, len := bits h 28 2, na := bit h 30 && (op == 0x00 || op == 0x10), md := md, bow := bits h 32 16
    dl := bits h 48 12, ord := bit h 60, opf := bit h 61, addr := bits h 64 40, wsel := bits h 104 3, rcnt := bits h 104 24
    mask := if op = 0x11 then leAt l 16 8 else 0
    opnd := if decide (0x20 ≤ op) && decide (op < 0x30) then leAt l 16 8 else 0
    swapv := if op = 0x22 then leAt l 24 8 else 0
    data := if op = 0x11 then slice l 24 64 else if op = 0x10 then slice l (if md then 24 else 16) n else []
    mdx := if op = 0x10 && md then slice l 16 8 else [] }

/-- The length of a VC0 packet on the wire (Table 4.1), for its credit. -/
def vc0Len (p : Vc0) : Nat :=
  if p.opc < 0x10 then 16
  else if p.opc = 0x10 then 16 + (if p.md then 8 else 0) + lenBytes p.len
  else if p.opc = 0x11 then 88
  else if p.opc < 0x20 then 16 + lenBytes p.len
  else if p.opc = 0x22 then 32
  else if p.opc < 0x30 then 24
  else 16

/-- The completion header (R97, Table 4.4). -/
def cplHeader (opc tag dom status mdata : Nat) : List Byte :=
  leBytes 8 (opc % 256 + tag % 2 ^ 16 * 2 ^ 8 + dom % 16 * 2 ^ 24 + status % 16 * 2 ^ 28 + mdata % 2 ^ 32 * 2 ^ 32)

/-- A CPL: a completion with no data (R98). -/
def cplBytes (tag dom : Nat) (c : Code) : List Byte := cplHeader 0x40 tag dom c.num 0

/-- A CPLA (R92). -/
def cplaBytes (tag dom : Nat) (c : Code) (old : Nat) : List Byte := cplHeader 0x44 tag dom c.num 0 ++ leBytes 8 old

/-- A CPLD of its length, with `MDATA` under R99. -/
def cpldBytes (tag dom : Nat) (c : Code) (sects : List (List Byte × Nat)) : List Byte :=
  let opc := if sects.length = 1 then 0x41 else if sects.length = 2 then 0x42 else 0x43
  cplHeader opc tag dom c.num (leNat (sects.map fun x => BitVec.ofNat 8 x.2)) ++ sects.flatMap (·.1)

/-- A WACK (Table 4.5). -/
def wackBytes (dom : Nat) (tags : List Nat) : List Byte :=
  leBytes 4 (0x45 + dom % 16 * 256 + tags.length * 65536) ++ tags.flatMap (leBytes 2)

/-- RCPL and WCPL (Table 4.6). -/
def rcplBytes (dom rtag : Nat) (c : Code) (v : Nat) : List Byte :=
  leBytes 8 (0x52 + dom % 16 * 2 ^ 8 + rtag % 2 ^ 16 * 2 ^ 16 + c.num * 2 ^ 32) ++ leBytes 4 v
/-- See `rcplBytes`. -/
def wcplBytes (dom rtag : Nat) (c : Code) : List Byte :=
  leBytes 8 (0x53 + dom % 16 * 2 ^ 8 + rtag % 2 ^ 16 * 2 ^ 16 + c.num * 2 ^ 32)

/-- MBX_RDY (Table 4.7). -/
def mbxRdyBytes (dom seq : Nat) (c : Nat) : List Byte := leBytes 8 (0x61 + dom % 16 * 2 ^ 8 + seq % 2 ^ 16 * 2 ^ 16 + c % 256 * 2 ^ 48)

/-- MBX_RDATA and MBX_ACK (Table 4.7). -/
def mbxAnsBytes (opc dom moff mlen mtag : Nat) (c : Code) (data : List Byte) : List Byte :=
  leBytes 8 (opc + dom % 16 * 2 ^ 8 + moff % 2 ^ 12 * 2 ^ 16 + mlen % 256 * 2 ^ 32 + mtag % 256 * 2 ^ 40 + c.num * 2 ^ 48) ++ data

/-- EVT (Table 4.8). -/
def evtBytes (dom : Nat) (e : Evt) (loss : Bool) (eseq : Nat) : List Byte :=
  leBytes 16 (0x70 + dom % 16 * 2 ^ 8 + e.sev.num * 2 ^ 12 + b2n loss * 2 ^ 15 + e.src % 512 * 2 ^ 16 + eseq % 2 ^ 16 * 2 ^ 32
    + e.detail % 2 ^ 32 * 2 ^ 64 + e.time % 2 ^ 32 * 2 ^ 96)

/-- TURN and TURN_ACK (Table 4.9). -/
def turnBytes (opc g : Nat) (dir : Bool) (seq res : Nat) : List Byte :=
  leBytes 8 (opc + (g % 16 + b2n dir * 16) * 2 ^ 8 + seq % 2 ^ 16 * 2 ^ 16 + res % 256 * 2 ^ 32)

/-- PM_REQ (Table 4.9). -/
def pmReqBytes (preq seq : Nat) : List Byte := leBytes 8 (0x82 + preq % 256 * 2 ^ 8 + seq % 2 ^ 16 * 2 ^ 16)

/-- NAK and GROUP items (Table 3.5). -/
def nakItem (g e : Nat) : List Byte := leBytes 4 (0xF1 + g % 16 * 2 ^ 8 + e % 1024 * 2 ^ 16)
/-- See `nakItem`. -/
def groupItem (g kind fseq lane : Nat) : List Byte :=
  leBytes 4 (0xF4 + (g % 16 + kind % 8 * 16) * 2 ^ 8 + (fseq % 1024 + lane % 32 * 1024) * 2 ^ 16)

/-- The stack's STATUS item (Table 3.4): `ACK_MASK`, ten bits for each group in the mask, and `VC0_RET` of sixteen domains. -/
def statusItem (acks : List (Nat × Nat)) (ret : Nat → Nat) : List Byte :=
  let packed := (acks.zipIdx.map fun (a, k) => a.2 % 1024 * 2 ^ (10 * k)).foldl (· + ·) 0
  leBytes 4 (0xF0 + maskOf (acks.map (·.1)) * 2 ^ 16) ++ leBytes ((10 * acks.length + 7) / 8) packed
    ++ (List.range 16).flatMap fun d => leBytes 2 (ret d)

/-- The stack's VC2RET item (Table 3.5). -/
def vc2retItem (ret : Nat → Nat) : List Byte := leBytes 4 0xF3 ++ (List.range 16).flatMap fun d => leBytes 1 (ret d)

/-- The stack's CONFIG item (Table 3.5). -/
def configItem (crd : Nat → Nat × Nat) : List Byte :=
  leBytes 4 0xF2 ++ (List.range 16).flatMap fun d => leBytes 2 (crd d).1 ++ leBytes 2 (crd d).2

/-- The length of a link item from the partner, none for a code that is not one the partner sends (Table 3.3). -/
def itemLen (l : List Byte) : Option Nat :=
  match (l.getD 0 0).toNat with
  | 0xF0 => some (4 + (10 * popCount (leAt l 2 2) 16 + 7) / 8 + 6)
  | 0xF1 => some 4
  | 0xF2 => some 68
  | 0xF4 => some 4
  | _ => none

/-- The items and packets of a packet area (R55): what is complete, the start of a packet left over, and whether a protocol error ended it. -/
def parseArea : Nat → List Byte → List (List Byte) × List Byte × Bool
  | 0, _ => ([], [], false)
  | n + 1, l =>
    match l with
    | [] => ([], [], false)
    | b :: r =>
      let c := b.toNat
      if c = 0xFF then parseArea n r
      else if c < 0x90 then
        if !partnerMaySend c then ([], [], true)
        else if l.length < 8 || l.length < packetLen l then ([], l, false)
        else
          let (us, rest, bad) := parseArea n (l.drop (packetLen l))
          (l.take (packetLen l) :: us, rest, bad)
      else
        match itemLen l with
        | none => ([], [], true)
        | some k =>
          if l.length < k || l.length < 4 then ([], [], true)
          else
            let (us, rest, bad) := parseArea n (l.drop k)
            (l.take k :: us, rest, bad)

end Sys2Proof.Machine
end

