-- ==== Sys2Proof/Machine/Link.lean ====
section
/-! DEFINITION. Flits, replay, credits, sparing, group loss and turns (HLL, ch. 3), from the stack's end of the link. -/

namespace Sys2Proof.Machine

/-! ## Groups in service (R68, R69) -/

/-- The groups in service in a direction, ascending. -/
def inService (s : State) (dir : Bool) : List Nat := (List.range 16).filter fun g => (s.grp g).inSvc && (s.grp g).dir == dir

/-- The home group of a direction. -/
def homeOf (s : State) (dir : Bool) : Option Nat := if dir then s.link.homeD else s.link.homeH

/-- Group `g` is turning (R75). -/
def turning (s : State) (g : Nat) : Bool := s.link.turn.any fun t => t.grp == g

/-- The home moves to the lowest-numbered remaining group when it leaves service or turns; before link-ready it is the lowest in service (R69,
Table 3.8). -/
def fixHome (s : State) (dir : Bool) : State :=
  let gs := (inService s dir).filter fun g => !turning s g
  let h := match homeOf s dir with
    | some g => if s.link.up && gs.contains g then some g else gs.head?
    | none => gs.head?
  if dir then { s with link.homeD := h } else { s with link.homeH := h }

/-- Whether the stack can place `n` sequenced flits on group `g` now (R57, R73, Table 3.8). -/
def canPlace (s : State) (g : Nat) (n : Nat := 1) : Bool :=
  let x := s.grp g
  x.inSvc && x.dir && !x.lostReq && decide (x.replay.length + n ≤ 256) && (x.gst == .active || x.gst == .quiet)

/-- New packets may go on the device-to-host home: no packet of a lost group has still to be sent ahead of them (Table 3.7, step 3). -/
def homeClear (s : State) : Bool := s.link.resend.isEmpty && !((List.range 16).any fun g => (s.grp g).lostReq)

/-- Flits leave on group `g`, one every 1.0 ns; a QUIET group is woken by the preamble first (R41, R78), and injection inverts bits (R46). -/
def emit (s : State) (g : Nat) (fl : List TxFlit) : State :=
  if fl.isEmpty then s else
  let x := s.grp g
  let pre := if x.gst = .quiet then [Out.square g] else []
  let t0 := max s.now x.txAt
  let s := s.setGrp g { x with gst := if x.gst = .quiet then .active else x.gst, txAt := t0 + 8 * fl.length }
  { s with out := s.out ++ pre ++ fl.zipIdx.map fun (f, k) => Out.flit g f.fseq f.ftype f.area (flipsAt s g (t0 + 8 * k)) }

/-- Send one sequenced flit on group `g`: numbered, kept for replay (R57), a START when it is the stream's first (Table 3.2). -/
def sendFlit (s : State) (g ftype : Nat) (area : List Byte) (ends : List (List Byte)) : State :=
  let x := s.grp g
  let f : TxFlit := { fseq := x.txNext, ftype := if x.fresh && ftype = 1 then 2 else ftype, area := area, ends := ends }
  emit (s.setGrp g { x with txNext := (x.txNext + 1) % 1024, fresh := false, replay := x.replay ++ [f] }) g [f]

/-- Flits that a packet needs (R55). -/
def flitsOf (p : List Byte) : Nat := if p.length ≤ 242 then 1 else 2

/-- Place one packet on group `g`; a packet longer than the packet area continues in the next flit (R55). -/
def placePacket (s : State) (g : Nat) (p : List Byte) : State :=
  if p.length ≤ 242 then sendFlit s g 1 p [p] else sendFlit (sendFlit s g 1 (p.take 242) []) g 1 (p.drop 242) [p]

/-- A link item is CONFIG (Table 3.3). -/
def isConfig (i : List Byte) : Bool := leAt i 0 1 == 0xF2

/-- The flit that is to carry a CONFIG is known: group `g`, its next number (R63). -/
def markConfig (s : State) (g : Nat) (i : List Byte) : State :=
  if isConfig i then { s with link.capOld := s.link.capOld.map fun e => (e.1, (e.2.1, some (g, (s.grp g).txNext))) } else s

/-- Send what waits for the device-to-host home group: packets of a lost group ahead of any new packet (R73), link items (R59),
then VC2 packets under the partner's VC2 credit (R64, R65). -/
def drainHome : Nat → State → State
  | 0, s => s
  | n + 1, s =>
    match s.link.homeD with
    | none => s
    | some h =>
      match s.link.resend with
      | p :: r => if canPlace s h (flitsOf p) then drainHome n (placePacket { s with link.resend := r } h p) else s
      | [] =>
        match s.link.items with
        | i :: r => if canPlace s h then drainHome n (sendFlit (markConfig { s with link.items := r } h i) h 1 i []) else s
        | [] =>
          match s.link.vc2Out with
          | [] => s
          | p :: r =>
            if canPlace s h (flitsOf p) && homeClear s && s.link.cfgRx.isSome && decide (cellsOf p.length ≤ s.link.vc2Avail) then
              drainHome n (placePacket { s with link.vc2Out := r, link.vc2Avail := s.link.vc2Avail - cellsOf p.length } h p)
            else s

/-- How much may wait for the home group. -/
def waitingHome (s : State) : Nat := s.link.resend.length + s.link.items.length + s.link.vc2Out.length

/-- Send everything that can go. -/
def drain (s : State) : State := drainHome (waitingHome s) s

/-- Send a link item on the home group (R59). -/
def sendItem (s : State) (i : List Byte) : State := drain { s with link.items := s.link.items ++ [i] }

/-- Send a VC2 packet on the home group (R69, R112). -/
def sendVc2 (s : State) (p : List Byte) : State := drain { s with link.vc2Out := s.link.vc2Out ++ [p] }

/-- Completions named by a VC1 packet: its domain and how many requests it answers (R98). -/
def cplCount (p : List Byte) : Option (Nat × Nat) :=
  let op := leAt p 0 1
  if op = 0x45 then some (leAt p 1 1 % 16, leAt p 2 1)
  else if decide (0x40 ≤ op) && decide (op < 0x45) then some (leAt p 3 1 % 16, 1) else none

/-- Add discarded completions to `LINK_LOST` (R134). -/
def countLost (s : State) (ps : List (List Byte)) : State :=
  ps.foldl (fun t p => match cplCount p with
    | some (d, n) => t.inc F.RQE_DOM_USE_LINK_LOST n d
    | none => t) s

/-- Credits and pools at a new link-up (R65): release counts zero, pools full, CONFIG to be exchanged again. -/
def resetCredits (s : State) : State :=
  { s with link := { s.link with
      cfgRx := none, cfgSent := false, cfgDue := false, capOld := [], vc0Free := 32768, vc0Held := [], vc0Ret := []
      vc2Held := [], vc2Ret := [], vc1Avail := 0, vc2Avail := 0, vc1Last := 0, vc2Last := 0, credUnrep := false, vc2Unrep := false
      lastStatus := none } }

/-- The answers of accesses that came as packets are discarded (R134). -/
def silence (s : State) : State :=
  let quiet (o : Origin) : Origin := match o with
    | .packet _ _ => .core
    | o => o
  let act (w : MWord) : MWord := match w.act with
    | .preg who o r i j v => { w with act := .preg who (quiet o) r i j v }
    | _ => w
  { s with
    pst.q := s.pst.q.map act
    pst.port := s.pst.port.map act
    glb.waits := s.glb.waits.map fun e => (e.1, e.2.map fun a => { a with org := quiet a.org }) }

/-- What a link that went down loses (R134): partial and waiting packets, unacknowledged and unsent answers; requests admitted before run on. -/
def dropLink (s : State) : State :=
  let flown := ((List.range 16).flatMap fun g => (s.grp g).replay.flatMap (·.ends)) ++ s.link.resend ++ s.rqe.rejQ
  let s := silence (countLost s flown)
  let s := resetCredits { s with
    rqe := { s.rqe with waiting := [], waitAt := [], rejQ := [], reqs := s.rqe.reqs.map fun r => if r.iss = .host then { r with prior := true } else r } }
  { s with link := { s.link with
      up := false, homeH := none, homeD := none, turn := none, turnReq := none, pmReq := none, items := [], resend := [], vc2Out := [], vc2Hold := []
      holdLost := false, vc2Queue := [] } }

/-- Every group retrains from DETECT (R68). -/
def allDetect (s : State) : State :=
  (List.range 16).foldl (fun t g => (groupDetect t g).modGrp g freshStream) s

/-- R68, R134: a direction is left with no group. Source 274 carries the groups in service before the loss. -/
def wholeRetrain (before : Nat) (s : State) : State :=
  allDetect (dropLink (s.raiseG 274 .fault 0 before))

/-- The stack's credit advertisement, ahead of the items that wait: at link-up it is in the home group's first flit (R65). -/
def sendConfig (s : State) : State :=
  drain { s with link.cfgSent := true, link.cfgDue := false
                 link.items := configItem (fun d => (s.rd F.HLL_CRD_VC0_MIN d, s.rd F.HLL_CRD_VC0_CAP d)) :: s.link.items }

/-- R74's test of a turn: OK, STATE or BUSY. -/
def turnCheck (s : State) (g : Nat) (dir : Bool) : Code :=
  let x := s.grp g
  if !(x.gst == .active || x.gst == .quiet) || x.dir == dir || decide ((inService s x.dir).length ≤ 2) || !x.inSvc then .state
  else if s.link.turn.isSome || s.link.turnReq.isSome || x.sparing.isSome then .busy else .ok

/-- The stack asks for a turn (R74). -/
def requestTurn (s : State) (g : Nat) (dir : Bool) : State :=
  let q := s.link.tseq
  sendVc2 { s with link.tseq := (q + 1) % 65536, link.turnReq := some { grp := g, dir := dir, tseq := q, byStack := true } }
    (turnBytes 0x80 g dir q 0)

/-- R70: with `AUTO_BAL`, ask for a turn of the highest-numbered group of the fuller direction. -/
def autoBalance (s : State) : State :=
  let h := inService s false
  let d := inService s true
  let want : Option (Nat × Bool) :=
    if h.length < 2 ∧ d.length ≥ 3 then d.getLast?.map (·, false)
    else if d.length < 2 ∧ h.length ≥ 3 then h.getLast?.map (·, true) else none
  match want with
  | some (g, dir) =>
    if s.on F.HLL_CTL_AUTO_BAL && s.link.cfgRx.isSome && turnCheck s g dir == .ok then requestTurn s g dir else s
  | none => s

/-- A group that trained to ACTIVE enters service with a START flit numbered 0 (R68); the stack's first flit on its home carries CONFIG (R65). -/
def enterService (g : Nat) (s : State) : State :=
  let x := s.grp g
  if x.gst = .active ∧ ¬ x.inSvc then
    let s := s.setGrp g { freshStream x with inSvc := true }
    let s := fixHome (fixHome s false) true
    let s := if s.link.homeD.isSome && !s.link.cfgSent then sendConfig s else s
    autoBalance (drain s)
  else s

/-- A group leaves service: homes move, and the link retrains as a whole when a direction is left with none (R68, R69). -/
def leaveService (s : State) (g : Nat) : State :=
  let before := (inService s false).length + (inService s true).length
  let s := s.modGrp g fun x => { x with inSvc := false }
  let s := fixHome (fixHome s false) true
  if s.link.up && ((inService s false).isEmpty || (inService s true).isEmpty) then wholeRetrain before s else drain (autoBalance s)

/-- A TURN of the stack that has not been placed yet is taken back (R74). -/
def dropTurn (s : State) : State :=
  match s.link.turnReq with
  | some t => { s with link.turnReq := none, link.vc2Out := s.link.vc2Out.filter (· != turnBytes 0x80 t.grp t.dir t.tseq 0) }
  | none => s

/-- A turn is given up with a result in `TURN_RES` (R74, R75). VC2 packets that wait for its LAST then wait for the old home's re-sent packets (R69). -/
def abandonTurn (s : State) (c : Code) : State :=
  let mine := match s.link.turn with
    | some t => t.byStack
    | none => s.link.turnReq.isSome
  let wait := s.link.turn.any fun t => t.wasHome && t.step == .accepted
  let s := dropTurn { s with link.turn := none, link.holdLost := s.link.holdLost || wait }
  if mine then s.wr F.HLL_TURN_TURN_RES c.num else s

/-- A turn of group `g`, in progress or asked for, is abandoned with TIMEOUT when the group leaves service (Table 3.9). -/
def abandonTurnOf (s : State) (g : Nat) : State :=
  if (s.link.turn.any fun t => t.grp == g) || s.link.turn.isNone && (s.link.turnReq.any fun t => t.grp == g) then abandonTurn s .timeout else s

/-- The streams of a group `x` that leaves service, `y` its state now (Table 3.7): the stack as sender keeps the flits for LOST, as receiver it freezes. -/
def loseStream (x y : Grp) : Grp :=
  if x.dir then { y with lostReq := true, replay := x.replay, txNext := x.txNext, inSvc := false }
  else { freshStream y with frozen := true, rxExp := x.rxExp, inSvc := false }

/-- The item that starts step 1 of Table 3.7: LOST_REQ from the sender, LOST with the last flit accepted from the receiver. -/
def lossItem (g : Nat) (x : Grp) : List Byte := if x.dir then groupItem g 3 x.txAcked 0 else groupItem g 2 ((x.rxExp + 1023) % 1024) 0

/-- A group is lost (R72, Table 3.7): the event, the freeze and LOST when the stack receives, LOST_REQ when it sends, and DETECT. A LOST of the partner
needs no LOST_REQ (`ask` false). -/
def groupLostWith (ask : Bool) (g cause : Nat) (s : State) : State :=
  let x := s.grp g
  if !x.inSvc then s else
  let s := (s.raise (192 + 3 * g + 1) .fault [g + cause * 16 + b2n x.dir * 128]).inc F.HLL_EVT_LOSSES 1 g
  let s := (groupDetect (abandonTurnOf s g) g).modGrp g (loseStream x)
  leaveService (if ask then { s with link.items := s.link.items ++ [lossItem g x] } else s) g

/-- A loss that the stack detects or answers. -/
def groupLost (g cause : Nat) (s : State) : State := groupLostWith true g cause s

/-- A group in service is withdrawn by a write of `RETRAIN` or `TEST`, with the hand-over of Table 3.7 but no loss counted (log entry 31). -/
def withdraw (g : Nat) (toTest : Bool) (s : State) : State :=
  let x := s.grp g
  let was := x.inSvc
  let s := if toTest then s.modGrp g fun y => { y with gst := .test } else groupDetect s g
  if !was then s else
  let s := (abandonTurnOf s g).modGrp g (loseStream x)
  leaveService { s with link.items := s.link.items ++ [lossItem g x] } g

/-- A loss that the partner detected: its cause is the partner's, so the cause in the event is a free value of Table 14.1's six. -/
def groupLostByPartner (ask : Bool) (g : Nat) (s : State) : State :=
  let (v, s) := s.draw
  groupLostWith ask g (v % 6) s

/-- Link items in flits that were lost with their group (log entry 116): GROUP items go again, CONFIG anew, and STATUS and VC2RET are due. -/
def resendItems (s : State) (fs : List TxFlit) : State :=
  if fs.isEmpty then s else
  let groups := (fs.map (·.area)).filter fun a => leAt a 0 1 == 0xF4
  let s := { s with link.items := groups ++ s.link.items, link.credUnrep := true, link.vc2Unrep := true }
  if fs.any fun f => isConfig f.area then
    sendConfig { s with link.capOld := s.link.capOld.map fun e => (e.1, (e.2.1, none)) }
  else s

/-- Packets of a lost group whose last byte lies after `FSEQ` go out again, in order, on the home group (Table 3.7, steps 2 and 3). -/
def resendLost (g fseq : Nat) (s : State) : State :=
  let x := s.grp g
  if !x.dir then s else
  -- a LOST that the partner's receiver detected itself loses the group here too (R73)
  let s := if x.inSvc then groupLostByPartner false g s else s
  let x := s.grp g
  if !x.lostReq then s else
  let after := match x.replay.findIdx? (·.fseq == fseq) with
    | some k => x.replay.drop (k + 1)
    | none => x.replay
  let s := { (s.modGrp g fun y => { freshStream y with lostReq := false }) with
    link.resend := s.link.resend ++ after.flatMap (·.ends) }
  drain (resendItems s after)

/-! ## Replay (R57, R58, R60) -/

/-- Release every flit up to and including `a`, if `a` lies in the window (R57). -/
def ackTo (s : State) (g a : Nat) : State :=
  let x := s.grp g
  match x.replay.findIdx? (·.fseq == a) with
  | some k => s.setGrp g { x with replay := x.replay.drop (k + 1), txAcked := a, replaying := none }
  | none => s

/-- A replay episode starts on group `g` (R60): counted, and the replay storm raised at the threshold. -/
def countEpisode (s : State) (g : Nat) : State :=
  let s := s.inc F.HLL_FLIT_REPLAYS 1 g
  let x := s.grp g
  let fresh := decide (x.epStart + 100 * usec ≤ s.now)
  let n := if fresh then 1 else x.epCnt + 1
  let s := s.setGrp g { x with epCnt := n, epStart := if fresh then s.now else x.epStart }
  if n = s.rd F.HLL_CTL_REPLAY_THR then s.raise (192 + 3 * g + 2) .warn [g + min n 255 * 256] else s

/-- Resend the unacknowledged flits of a group from `e` on, with their original bytes (R57). -/
def replayFrom (s : State) (g e : Nat) : State :=
  let x := s.grp g
  match x.replay.findIdx? (·.fseq == e) with
  | none => s
  | some k =>
    let keep := x.replay.drop k
    let s := countEpisode s g
    let x := s.grp g
    let acked := if k = 0 then x.txAcked else (e + 1023) % 1024
    emit (s.setGrp g { x with replay := keep, txAcked := acked, replaying := some (e, max s.now x.txAt + keep.length * 8) }) g keep

/-- Step 1 of Table 3.8 for the stack as old sender: LAST, after a START on a fresh stream, once the replay buffer has room (R57). -/
def tryLast (s : State) : State :=
  match s.link.turn with
  | none => s
  | some t =>
    let x := s.grp t.grp
    if t.step = .accepted ∧ x.dir ∧ x.replay.length + (1 + b2n x.fresh) ≤ 256 then
      let s := if x.fresh then sendFlit s t.grp 1 [] [] else s
      { sendFlit s t.grp 3 [] [] with link.turn := some { t with step := .last } }
    else s

/-- A NAK for `e` (R57): ignored while a replay from `e` runs or when `e` lies outside the window. -/
def receiveNak (g e : Nat) (s : State) : State :=
  let x := s.grp g
  if !(x.dir && x.inSvc) then s else
  match x.replaying with
  | some (e', until') => if e' = e ∧ s.now < until' then s else drain (tryLast (replayFrom s g e))
  | none => drain (tryLast (replayFrom s g e))

/-- Send NAK(EXP) (R58); `NAK_LIMIT` of them in a row for one EXP lose the group (R60). -/
def sendNak (s : State) (g : Nat) : State :=
  let x := s.grp g
  let s := (s.setGrp g { x with nakOut := true, nakCnt := x.nakCnt + 1 }).inc F.HLL_EVT_NAKS_TX 1 g
  let s := sendItem s (nakItem g x.rxExp)
  if x.nakCnt + 1 ≥ s.rd F.HLL_CTL_NAK_LIMIT then groupLost g 0 s else s

/-- A protocol error on group `g` loses it (R60). -/
def protocolError (s : State) (g : Nat) : State := groupLost g 2 (s.inc F.HLL_EVT_PROTO 1 g)

/-- FEC results of a received flit (R53): symbols corrected are counted for the group and attributed to their physical lanes (R39, R43). -/
def countFec (s : State) (g : Nat) (pos : List Nat) : State :=
  let s := s.inc F.HLL_FEC_FEC_CORR pos.length g
  let x := s.grp g
  let x := if x.fecStart + usec ≤ s.now then { x with fecWin := [], fecStart := s.now } else x
  let s := s.setGrp g x
  pos.foldl (fun t b =>
    let l := physLane x.carry (laneOfByte b)
    let t := if chkOwner x l = 0 then t.inc F.HLP_LN_ERR_ERRORS 1 g l else t
    t.modGrp g fun y => { y with fecWin := SMap.put y.fecWin l 0 (SMap.getD y.fecWin l 0 + 1) }) s

/-- A turn completes: `TURNS` counts it, `TURN_RES` records OK for the stack's own request. `TEST` set during the turn withdraws the group now
(Table 2.3). R70 then applies; a direction left with no group retrains the link (R68). -/
def turnDone (s : State) (t : Turn) : State :=
  let s := (s.inc F.HLL_TURN_TURNS).modGrp t.grp fun x => { x with gst := .active, dir := t.dir }
  let s := if t.byStack then s.wr F.HLL_TURN_TURN_RES 0 else s
  let s := spareStream (drain (fixHome (fixHome { s with link.turn := none } false) true)) t.grp
  if s.on F.HLP_CTL_TEST t.grp then withdraw t.grp true s
  else if s.link.up && ((inService s false).isEmpty || (inService s true).isEmpty) then
    wholeRetrain ((inService s false).length + (inService s true).length) s
  else autoBalance s

/-- A START accepted: the stream resumes after sparing, with its event, or in the new direction of a turn (Tables 3.6 and 3.8). -/
def startAccepted (s : State) (g : Nat) : State :=
  let x := s.grp g
  let s := s.setGrp g { x with needStart := false, sparing := none }
  let s := match x.sparing with
    | some l => (s.inc F.HLL_EVT_SPARES 1 g).raise (192 + 3 * g) .warn [g + l * 16]
    | none => s
  match s.link.turn with
  | some t => if t.grp = g ∧ t.step = .locked then turnDone s t else s
  | none => s

/-- The receiver's sequence rules for one flit as received (R58). The answer's second part is the packet area to deliver, if the flit was accepted. -/
def receiveFlit (s : State) (g : Nat) (raw : List Byte) : State × Option (List Byte) :=
  let x := s.grp g
  let reject (s : State) : State × Option (List Byte) :=
    let s := s.inc F.HLL_FLIT_BAD_FLITS 1 g
    ((if x.nakOut then s else sendNak s g), none)
  let s := countFec s g (flitFec raw).2
  match (flitFec raw).1 with
  | none => reject s
  | some fl =>
    if !flitCrcOk fl then reject s else
    let h := leAt fl 0 2
    let ftype := bits h 2 4
    let fseq := bits h 6 10
    if ftype ≥ 5 then (protocolError s g, none)
    else if ftype = 0 then (s, none)
    else if ftype = 4 then (s.modGrp g (fun y => if y.gst = .active then { y with gst := .quiet } else y), none)
    else if x.needStart ∧ ftype ≠ 2 then (s, none)
    else if fseq ≠ x.rxExp then (s, none)
    else
      let s := s.modGrp g fun y => { y with rxExp := (y.rxExp + 1) % 1024, nakOut := false, nakCnt := 0, unrep := true }
      let s := if ftype = 2 then startAccepted s g else s
      let s := if ftype = 3 then
          match s.link.turn with
          | some t => if t.grp = g ∧ t.step = .accepted then { s with link.turn := some { t with step := .last } } else s
          | none => s
        else s
      (s, some ((fl.drop 2).take 242))

/-! ## Status, credits and the release of cells (R59, R62 to R64) -/

/-- The groups of `ACK_MASK` (Table 3.4): in service and host-to-device; a turning group until its LAST is acknowledged, or from then on. -/
def ackMember (s : State) (g : Nat) : Bool :=
  let x := s.grp g
  let moved := s.link.turn.any fun t => t.grp == g && t.step == .quietLine
  x.inSvc && (x.dir == moved)

/-- Send a STATUS item: acknowledgements of the groups on which the stack receives, and the VC0 releases; a VC2RET item follows when VC2
cells were released (R56, R59). A group on which nothing has been accepted shows 1,023 (log entry 117). -/
def sendStatus (s : State) : State :=
  let gs := (List.range 16).filter (ackMember s)
  let acks := gs.map fun g => (g, ((s.grp g).rxExp + 1023) % 1024)
  let ret := s.link.vc0Ret
  let v2 := s.link.vc2Unrep
  let s := gs.foldl (fun t g => t.modGrp g fun x => { x with unrep := false }) s
  let s := sendItem { s with link.credUnrep := false, link.vc2Unrep := false, link.lastStatus := some s.now }
    (statusItem acks fun d => SMap.getD ret d 0)
  if v2 then sendItem s (vc2retItem fun d => SMap.getD s.link.vc2Ret d 0) else s

/-- STATUS_SEND's condition: 128 ns since the last STATUS, and something unreported (R59). -/
def statusDue (s : State) : Bool :=
  (match s.link.lastStatus with
   | none => true
   | some t => decide (t + 1024 ≤ s.now)) &&
  (s.link.credUnrep || s.link.vc2Unrep || (List.range 16).any fun g => ackMember s g && (s.grp g).unrep)

/-- A received STATUS: acknowledgements in ascending group order, then the releases of VC1 and VC2 cells (R57, R64). -/
def receiveStatus (mask : Nat) (acks : List Nat) (vc1 vc2 : Nat) (s : State) : State :=
  let s := (List.zip (onesOf mask 16) acks).foldl (fun t p => if (t.grp p.1).dir then ackTo t p.1 (p.2 % 1024) else t) s
  let d1 := (vc1 + 2 ^ 32 - s.link.vc1Last) % 2 ^ 32
  let d2 := (vc2 + 2 ^ 16 - s.link.vc2Last) % 2 ^ 16
  drain <| tryLast { s with link := { s.link with
    vc1Avail := s.link.vc1Avail + d1, vc2Avail := s.link.vc2Avail + d2, vc1Last := vc1 % 2 ^ 32, vc2Last := vc2 % 2 ^ 16 } }

/-- Release VC0 cells of a domain (R62). -/
def releaseVc0 (s : State) (d n : Nat) : State :=
  { s with link := { s.link with
    vc0Free := s.link.vc0Free + n
    vc0Held := SMap.put s.link.vc0Held d 0 (SMap.getD s.link.vc0Held d 0 - n)
    vc0Ret := SMap.put s.link.vc0Ret d 0 ((SMap.getD s.link.vc0Ret d 0 + n) % 65536)
    credUnrep := true } }

/-- Release VC2 cells of a domain once its packet is consumed (R62). -/
def releaseVc2 (s : State) (d n : Nat) : State :=
  { s with link := { s.link with
    vc2Held := SMap.put s.link.vc2Held d 0 (SMap.getD s.link.vc2Held d 0 - n)
    vc2Ret := SMap.put s.link.vc2Ret d 0 ((SMap.getD s.link.vc2Ret d 0 + n) % 256)
    vc2Unrep := true } }

/-- A CONFIG has still to be sent. -/
def configOut (s : State) : Bool := s.link.cfgDue || s.link.items.any isConfig

/-- The `VC0_CAP` the stack judges against: the larger of old and new until the flit that carries the new CONFIG is acknowledged (R63). -/
def capInForce (s : State) (d : Nat) : Nat :=
  let cap := s.rd F.HLL_CRD_VC0_CAP d
  match SMap.get? s.link.capOld d with
  | none => cap
  | some (old, none) => max old cap
  | some (old, some (g, f)) => if configOut s || (s.grp g).replay.any (·.fseq == f) then max old cap else cap

/-- Room for a VC0 packet of `n` cells of domain `d` (R63). -/
def roomVc0 (s : State) (d n : Nat) : Bool :=
  decide (n ≤ s.link.vc0Free) && decide (SMap.getD s.link.vc0Held d 0 + n ≤ capInForce s d)

/-- Hold the cells of an arrived VC0 packet. -/
def holdVc0 (s : State) (d n : Nat) : State :=
  { s with link := { s.link with vc0Free := s.link.vc0Free - n, vc0Held := SMap.put s.link.vc0Held d 0 (SMap.getD s.link.vc0Held d 0 + n) } }

/-- Room for a VC2 packet of `n` cells of domain `d`: sixteen cells a domain (R62). -/
def roomVc2 (s : State) (d n : Nat) : Bool := decide (SMap.getD s.link.vc2Held d 0 + n ≤ 16)

/-- Hold the cells of an arrived VC2 packet. -/
def holdVc2 (s : State) (d n : Nat) : State :=
  { s with link.vc2Held := SMap.put s.link.vc2Held d 0 (SMap.getD s.link.vc2Held d 0 + n) }

/-- A received CONFIG (R65): the partner's pools, and packets may be sent, a TURN of R70 among them. -/
def receiveConfig (vc1 vc2 : Nat) (s : State) : State :=
  let d1 := match s.link.cfgRx with
    | some (a, _) => s.link.vc1Avail + vc1 - a
    | none => vc1
  let d2 := match s.link.cfgRx with
    | some (_, b) => s.link.vc2Avail + vc2 - b
    | none => vc2
  autoBalance (drain { s with link := { s.link with cfgRx := some (vc1, vc2), vc1Avail := d1, vc2Avail := d2 } })

/-! ## Sparing (R71) -/

/-- Remap group `g` without lane `l`. A spare that now carries flits leaves its test (R44). -/
def remapWithout (s : State) (g l : Nat) : State :=
  let s := match (s.grp g).spare with
    | some k => endTest s g k
    | none => s
  (stopInjection s g l).modGrp g fun x => mapLanes { x with failed := setBit x.failed l }

/-- The stack expects flits on the group: ACTIVE, or a turn before its LAST is acknowledged (R39, Table 3.9). -/
def flitsExpected (s : State) (g : Nat) : Bool :=
  (s.grp g).gst == .active || s.link.turn.any fun t => t.grp == g && (t.step == .accepted || t.step == .last)

/-- A carrying lane fails at the stack's receiver (R39, R71): FAILED, counted, spared with GROUP SPARE, or the group is lost; in a turn as well, where
LAST is then sent again (Table 3.9). -/
def laneFails (g l : Nat) (s : State) : State :=
  let x := s.grp g
  if !(x.inSvc && flitsExpected s g && bit x.carry l && !x.dir) then s else
  let s := (s.inc F.HLP_RETRAIN_CNT_LANE_FAILS 1 g)
  if x.spare.isSome then
    let s := remapWithout s g l
    let s := if turning s g then { s with link.turn := s.link.turn.map fun t => { t with step := .accepted } } else s
    sendItem (s.modGrp g fun y => { y with needStart := true, sparing := some l }) (groupItem g 0 x.rxExp l)
  else groupLost g 3 (s.modGrp g fun y => { y with failed := setBit y.failed l })

/-- LANE_FAILURE_DETECT: loss of signal, which `LOS` latches, or loss of lock of the lane's clock recovery (R39, Table 2.14). -/
def laneDetect (g l : Nat) (los : Bool) (s : State) : State :=
  let x := s.grp g
  if !(x.inSvc && flitsExpected s g && bit x.carry l && !x.dir) then s else
  laneFails g l (if los then s.wr F.HLP_LN_CTL_LOS 1 g l else s.modGrp g fun y => { y with locks := clrBit y.locks l })

/-- Lanes to which FEC attributes `FAIL_THR` or more symbol errors within the 1 µs window fail; the spare never does (R39). -/
def fecFails (g : Nat) (s : State) : State :=
  (List.range 17).foldl (fun t l =>
    if bit (t.grp g).carry l && decide (s.rd F.HLP_CTL_FAIL_THR g ≤ SMap.getD (t.grp g).fecWin l 0) then
      laneFails g l (t.modGrp g fun y => { y with fecWin := SMap.put y.fecWin l 0 0 })
    else t) s

/-- A received GROUP SPARE (Table 3.6): remap, START numbered EXP, and replay from EXP. A LAST that becomes the START is followed by another LAST. -/
def spareItem (g e l : Nat) (s : State) : State :=
  let x := s.grp g
  if !(x.dir && x.inSvc && bit x.carry l) then s
  else if x.spare.isNone then groupLost g 3 s
  else
    let s := (remapWithout s g l).inc F.HLL_EVT_SPARES 1 g
    let s := s.raise (192 + 3 * g) .warn [g + l * 16]
    match (s.grp g).replay.findIdx? (·.fseq == e) with
    | some k =>
      -- the flits before EXP are accepted; those from EXP on are replayed, the first of them as START
      let last := ((s.grp g).replay.drop k).head?.any fun f => f.ftype == 3
      let s := s.modGrp g fun y => { y with replay := y.replay.take k ++ (y.replay.drop k).modify 0 fun f => { f with ftype := 2 } }
      let s := replayFrom s g e
      let s := if last && turning s g then { s with link.turn := s.link.turn.map fun t => { t with step := .accepted } } else s
      drain (tryLast s)
    | none =>
      -- EXP is the next number: nothing is to be replayed, and the START is empty
      let s := s.modGrp g fun y => { y with replay := [], txAcked := (y.txNext + 1023) % 1024, fresh := true }
      let s := sendFlit s g 1 [] []
      let s := if turning s g then { s with link.turn := s.link.turn.map fun t => { t with step := .accepted } } else s
      drain (tryLast s)

/-- The spare of a group is FAILED and the group runs without one (R71). -/
def spareDead (g l : Nat) (s : State) : State :=
  let x := s.grp g
  if x.inSvc ∧ x.spare = some l then
    (s.modGrp g fun y => { y with spare := none, failed := setBit y.failed l }).raise (192 + 3 * g) .warn [g + l * 16 + 512]
  else s

/-! ## Turns (R74, R75) -/

/-- The steps after acceptance. The stack as old sender ends the group's stream with LAST and moves the home; as old receiver it waits for the
partner's LAST. A QUIET group is woken by its sender first (Table 3.9). -/
def beginTurn (s : State) (t : Turn) : State :=
  let x := s.grp t.grp
  let home := !x.dir && homeOf s false == some t.grp
  let s := if x.dir && x.gst == .quiet then { s with out := s.out ++ [Out.square t.grp] } else s
  let s := (dropTurn s).modGrp t.grp fun x => { x with gst := .turn }
  drain (tryLast (fixHome { s with link.turn := some { t with step := .accepted, wasHome := home } } x.dir))

/-- A TURN from the partner (R74): accepted or refused, and answered with TURN_ACK. The partner's request wins over the stack's own. -/
def receiveTurn (g : Nat) (dir : Bool) (tseq : Nat) (s : State) : State :=
  let s := if s.link.turnReq.isSome && s.link.turn.isNone then
      dropTurn (s.wr F.HLL_TURN_TURN_RES Code.busy.num) else s
  let c := turnCheck s g dir
  let s := sendVc2 s (turnBytes 0x81 g dir tseq c.num)
  if c = .ok then beginTurn s { grp := g, dir := dir, tseq := tseq, byStack := false } else s

/-- A TURN_ACK (R74, R105): one that matches no outstanding TURN is ignored. -/
def receiveTurnAck (tseq res : Nat) (s : State) : State :=
  match s.link.turnReq with
  | none => s
  | some t =>
    if t.tseq ≠ tseq then s
    else if res = 0 then beginTurn s t
    else dropTurn (s.wr F.HLL_TURN_TURN_RES res)

/-- No TURN_ACK within 10 µs of the TURN being placed: the stack withdraws its request with TIMEOUT, and R70 may ask again (R74). -/
def turnAckTimeout (s : State) : State :=
  match s.link.turnReq with
  | none => s
  | some t =>
    if s.link.vc2Out.contains (turnBytes 0x80 t.grp t.dir t.tseq 0) then s
    else autoBalance (dropTurn (s.wr F.HLL_TURN_TURN_RES Code.timeout.num))

/-- Steps 2 and 3 of Table 3.8: LAST accepted and acknowledged, and the old sender's drivers off. -/
def turnLastAccept (s : State) : State :=
  match s.link.turn with
  | none => s
  | some t =>
    if t.step ≠ .last then s
    else if (s.grp t.grp).dir then
      -- the stack is the old sender: every flit up to LAST has been acknowledged
      if (s.grp t.grp).replay.isEmpty then { s.modGrp t.grp freshStream with link.turn := some { t with step := .quietLine } } else s
    else { sendStatus s with link.turn := some { t with step := .quietLine } }

/-- Steps 4, 5 and 7: the stack, as old receiver, drives SQUARE, then ALIGN, then START numbered 0 in the new direction. -/
def turnSquelch (s : State) : State :=
  match s.link.turn with
  | none => s
  | some t =>
    if t.step ≠ .quietLine ∨ (s.grp t.grp).dir then s
    else
      let s := { s with out := s.out ++ [Out.square t.grp, Out.alignWord t.grp] }
      let s := s.modGrp t.grp fun x => { freshStream x with dir := true }
      turnDone (sendFlit s t.grp 2 [] []) t

/-- Step 6: the stack, as old sender, locks on the partner's SQUARE and checks ALIGN; failing lanes are spared before START, or the group is lost. -/
def turnCdrLock (failing : Nat) (s : State) : State :=
  match s.link.turn with
  | none => s
  | some t =>
    if t.step ≠ .quietLine ∨ ¬ (s.grp t.grp).dir then s
    else
      let bad := (onesOf failing 17).filter (bit (s.grp t.grp).carry)
      match bad with
      | [] => { (s.modGrp t.grp fun x => { freshStream x with dir := false, needStart := true }) with link.turn := some { t with step := .locked } }
      | [l] =>
        if (s.grp t.grp).spare.isSome then
          let s := remapWithout s t.grp l
          let s := s.modGrp t.grp fun x => { freshStream x with dir := false, needStart := true, sparing := some l }
          sendItem { s with link.turn := some { t with step := .locked } } (groupItem t.grp 0 0 l)
        else groupLost t.grp 3 s
      | _ => groupLost t.grp 3 s

/-- R75: no START within 4 µs of the acceptance loses the group, and either end records TIMEOUT in `TURN_RES`. -/
def turnTimeout (s : State) : State :=
  match s.link.turn with
  | none => s
  | some t => (groupLost t.grp 5 s).wr F.HLL_TURN_TURN_RES Code.timeout.num

/-! ## QUIET, DEEP and the reference clock (R41, R42, R48, R78) -/

/-- QUIET entry of a device-to-host group by the stack: `QUIET_DLY` IDLE flits and the QUIET flit, then drivers to common mode. For a group the stack
receives on, the partner's QUIET flit does it (R41, Table 2.3). -/
def quietEntry (g : Nat) (s : State) : State :=
  let x := s.grp g
  if x.gst = .active ∧ x.inSvc ∧ x.dir ∧ s.on F.HLP_CTL_QUIET_EN g then
    let n := s.rd F.HLP_CTL_QUIET_DLY g
    let t0 := max s.now x.txAt
    let flips := flipsAt s g (t0 + 8 * n)
    let s := s.modGrp g fun y => { y with gst := .quiet, txAt := t0 + 8 * (n + 1) }
    { s with out := s.out ++ [Out.idle g n, Out.flit g x.txNext 4 [] flips] }
  else s

/-- A keep-alive burst of the stack on a QUIET group it transmits on (R41). -/
def keepAlive (g : Nat) (s : State) : State :=
  if (s.grp g).gst = .quiet ∧ (s.grp g).dir then { s with out := s.out ++ [Out.square g] } else s

/-- The wake preamble received on a QUIET group (R41). -/
def wakePreamble (g : Nat) (s : State) : State :=
  if (s.grp g).gst = .quiet ∧ ¬ (s.grp g).dir then s.modGrp g fun x => { x with gst := .active } else s

/-- A keep-alive burst received in QUIET corrects the frozen phase: clock recovery is locked (R41). -/
def keepAliveReceive (g : Nat) (s : State) : State :=
  if (s.grp g).gst = .quiet ∧ ¬ (s.grp g).dir then s.modGrp g fun x => { x with locks := usable x } else s

/-- Every group in service goes to DEEP once its flits are acknowledged (R42, R78); injection and tests end and TEST is left (Table 2.8). -/
def enterDeep (s : State) : State :=
  (List.range 16).foldl (fun t g =>
    let x := t.grp g
    if x.gst = .active ∨ x.gst = .quiet then
      (endUse t g).modGrp g fun y => { y with gst := .deep, pll := false, locks := 0 }
    else if x.gst = .test then groupOff ((t.wr F.HLP_CTL_TEST 0 g).wr F.HLP_CTL_LOOPBACK 0 g) g
    else t.wr F.HLP_CTL_TEST 0 g) s

/-- The wake lane of R42: the lowest-numbered usable lane of the first group, in the order given, that is in DEEP and has one. -/
def wakeLane (s : State) (order : List Nat) : Option (Nat × Nat) :=
  order.findSome? fun g => if (s.grp g).gst = .deep then (onesOf (usable (s.grp g)) 17).head?.map (g, ·) else none

/-- Where the stack listens: G0, then G1 and so on. -/
def listenLane (s : State) : Option (Nat × Nat) := wakeLane s (List.range 16)

/-- Where the stack drives its wake signal: G15, then G14 and so on. -/
def driveWake (s : State) : State :=
  match wakeLane s (List.range 16).reverse with
  | some (g, l) => { s with out := s.out ++ [.wake g l] }
  | none => s

/-- The wake signal on a wake lane in DEEP: every group relocks and runs the fast path (R34, R42). -/
def deepWake (s : State) : State :=
  (List.range 16).foldl (fun t g =>
    if (t.grp g).gst = .deep then t.modGrp g fun x => { x with gst := .clock, fast := true, slot := 16, aligned := 0, partner := none } else t) s

/-- A group back from DEEP in SLEEP restarts its stream with START numbered 0; the in-service map and the credits are kept (R78). -/
def resumeDeep (g : Nat) (s : State) : State :=
  if (s.grp g).gst = .active ∧ (s.grp g).inSvc then drain (s.modGrp g freshStream |>.modGrp g fun x => { x with inSvc := true }) else s

/-- A group whose training ends enters service, resumes its stream after DEEP, or leaves service when its fast path failed or `TEST` holds it (R68, R78).
`before` is its state before. -/
def serviceChange (g : Nat) (before : GState) (s : State) : State :=
  let x := s.grp g
  if x.gst = .active ∧ before ≠ .active then (if x.inSvc then resumeDeep g s else enterService g s)
  else if (x.gst = .failed ∨ x.gst = .test) ∧ x.inSvc then leaveService (s.modGrp g freshStream) g
  else s

/-- The effects of an absent HL_REFCLK: every group goes to OFF, and the link is down (R48). -/
def refclkGone (s : State) : State :=
  let before := (inService s false).length + (inService s true).length
  let s := { s.raiseG 272 .fault 0 0 with link.refclk := false }
  let s := dropLink (if s.link.up then s.raiseG 274 .fault 0 before else s)
  (List.range 16).foldl groupOff s

/-- HL_REFCLK absent for more than 1 µs (R48). In SLEEP and DEEP SLEEP, and with main rails off, the loss has no effect until wake (Table 20.12). -/
def refclkLoss (s : State) : State :=
  if !s.link.refclk then s
  else match s.pck.pow with
    | .run | .idle | .entering | .warm | .powerFail => refclkGone s
    | _ => { s with link.refclk := false }

/-- HL_REFCLK returns: each group trains from DETECT (R48). -/
def refclkReturn (s : State) : State :=
  if s.link.refclk then s else
  let s := { s with link.refclk := true }
  (List.range 16).foldl (fun t g => groupPowerUp g t) s

end Sys2Proof.Machine
end

