-- ==== Sys2Proof/Machine/Address.lean ====
section
/-! DEFINITION. Where an address lands: the channel hash (R120), the decode of a channel address (R121), fold redirection (R254) and row repair. -/

namespace Sys2Proof.Machine

/-- `FSTATE` values of TSV_FOLD_STAT: NONE, READY, CLEAN, MIGRATE, PAUSED, DONE. -/
def fNone : Nat := 0
/-- See `fNone`. -/
def fReady : Nat := 1
/-- See `fNone`. -/
def fClean : Nat := 2
/-- See `fNone`. -/
def fMigrate : Nat := 3
/-- See `fNone`. -/
def fPaused : Nat := 4
/-- See `fNone`. -/
def fDone : Nat := 5

/-- The units of a fold (R254): 31 chunks of 131,072. -/
def foldUnits : Nat := 4063232

/-- `FSTATE`. -/
def State.fstate (s : State) : Nat := s.rd F.TSV_FOLD_STAT_FSTATE

/-- The parity of the bits of `v` below `w`. -/
def parity (v w : Nat) : Nat := popCount v w % 2

/-- `L` of R120. -/
def hashL (s : State) : Nat :=
  match s.rd F.RQE_CTL_HASH_SEL with
  | 0 => 8
  | 1 => 12
  | 2 => 8
  | _ => s.rd F.RQE_CTL_CH_LSB

/-- mask[i] of R120. -/
def hashMask (s : State) (i : Nat) : Nat :=
  match s.rd F.RQE_CTL_HASH_SEL with
  | 0 => maskOf [8 + i, 13 + i, 18 + i, 23 + i, 28 + i]
  | 1 => maskOf [12 + i, 17 + i, 22 + i, 27 + i]
  | 2 => 2 ^ (8 + i)
  | _ => s.rd F.RQE_HASH_MASK_MASK i * 256

/-- The channel and the channel address of a device address (R120). -/
def mapDev (s : State) (d : Nat) : Nat × Nat :=
  let l := hashL s
  let ch := (List.range 5).foldl (fun c i => c + parity (Nat.land d (hashMask s i)) 37 * 2 ^ i) 0
  (ch, d / 2 ^ (l + 5) * 2 ^ l + d % 2 ^ l)

/-- R120's condition on custom masks: for i ≠ j bit `L` + j of mask[i] is zero, and bit `L` + i is one. -/
def masksLegal (l : Nat) (mask : Nat → Nat) : Bool :=
  (List.range 5).all fun i => (List.range 5).all fun j => bit (mask i * 256) (l + j) == (i == j)

/-- Fold redirection (R254). -/
def redirect (s : State) (ch c : Nat) : Nat × Nat :=
  let fs := s.fstate
  if (fs = fMigrate ∨ fs = fPaused ∨ fs = fDone) ∧ ch = s.rd F.TSV_FOLD_STAT_FOLDED_CH ∧ c / 1024 < s.rd F.TSV_FOLD_PTR_FOLD_PTR then
    let j := c / 2 ^ 27
    (if j < ch then j else j + 1, 0xF8000000 + c % 2 ^ 27)
  else (ch, c)

/-- Where a sector (device address divided by 64) lies after hash and redirection: channel and channel address. -/
def place (s : State) (sec : Nat) : Nat × Nat :=
  let (ch, c) := mapDev s (sec * 64)
  redirect s ch c

/-- Rank of a channel address (Table 5.3). -/
def rankOf (c : Nat) : Nat := bits c 15 2
/-- Bank within its rank: 4 × bank group + bank (Table 5.3). -/
def bankInRank (c : Nat) : Nat := Nat.xor (bits c 10 3) (bits c 17 3) * 4 + Nat.xor (bits c 13 2) (bits c 20 2)
/-- Bank of the channel, 0 to 127 (R176). -/
def bankOf (c : Nat) : Nat := rankOf c * 32 + bankInRank c
/-- Row (Table 5.3). -/
def rowOf (c : Nat) : Nat := bits c 17 15
/-- Sector in the row (Table 5.3). -/
def sectorInRow (c : Nat) : Nat := bits c 6 4
/-- Cache set, tag and sector in the line (Table 5.3). -/
def setOf (c : Nat) : Nat := bits c 7 12
/-- See `setOf`. -/
def tagOf (c : Nat) : Nat := bits c 19 13
/-- See `setOf`. -/
def halfOf (c : Nat) : Nat := bits c 6 1

/-- The channel address with a given bank, row and sector: the inverse of Table 5.3. -/
def addrOf (bank row sec : Nat) : Nat :=
  let rank := bank / 32
  let bg := bank % 32 / 4
  let b := bank % 4
  sec * 64 + Nat.xor bg (row % 8) * 2 ^ 10 + Nat.xor b (bits row 3 2) * 2 ^ 13 + rank * 2 ^ 15 + row * 2 ^ 17

/-! ## The controller of a channel -/

/-- A channel's controller. -/
def State.dmcOf (s : State) (ch : Nat) : Dmc := SMap.getD s.dmc ch {}

/-- Store a channel's controller. -/
def State.setDmc (s : State) (ch : Nat) (d : Dmc) : State := { s with dmc := SMap.put s.dmc ch {} d }

/-- The sectors of some runs that lie in a channel. -/
def sectorsIn (s : State) (ch : Nat) (runs : List (Nat × Nat)) : Nat :=
  (runs.map fun q => ((List.range q.2).filter fun k => (place s (q.1 + k)).1 == ch).length).foldl (· + ·) 0

/-- The sectors in the victim buffer of a slice. -/
def victimSectors (s : State) (sl : Nat) : Nat :=
  ((SMap.getD s.scc.victim sl []).map fun v => b2n v.s0.isSome + b2n v.s1.isSome).foldl (· + ·) 0

/-- `WQ_USED` (R183): the write-data slots of WR and WRP bound for the channel (R123), the sectors of the slice's victim buffer, and ZERO sectors that the
range engine has issued to it. -/
def wqUsed (s : State) (ch : Nat) : Nat :=
  ((s.rqe.reqs.map fun r => if r.op == .wr || r.op == .wrp then sectorsIn s ch r.pend else 0).foldl (· + ·) 0) +
  ((s.dmcOf ch).wq.filter fun e => e.kind == .zero).length + victimSectors s ch

/-! ## The state of a channel (Tables 8.13 and 11.3) -/

/-- `CSTATE` of a channel: 0 OFF, 1 TRAIN, 2 RUN, 3 HRST, 4 SREF. -/
def State.cstate (s : State) (ch : Nat) : Nat := s.rd F.DMC_STAT_CSTATE ch

/-- `TSTATE` of a channel (Table 11.3): 0 NORMAL, 1 SPARED, 2 NOSHADOW, 3 DEADBIT, 4 DEGRADED2, 5 FAILED, 6 FOLDED, 7 OFF. -/
def tstate (s : State) (ch : Nat) : Nat :=
  let n := s.rd F.TSV_STAT_DFAIL ch
  if s.fstate = fDone ∧ s.rd F.TSV_FOLD_STAT_FOLDED_CH = ch then 6
  else if s.cstate ch = 0 then 7
  else if n ≥ 7 ∨ popCount (s.rd F.TSV_CA_CA_DEAD ch) 26 ≥ 3 ∨ popCount (s.rd F.TSV_CA_STB_DEAD ch) 5 ≥ 2 then 5
  else if n = 6 then 4 else if n = 5 then 3 else if n = 4 then 2 else if n = 0 then 0 else 1

/-- DEGRADED2 (Table 11.3). -/
def degraded2 (s : State) (ch : Nat) : Bool := tstate s ch == 4

/-- A channel that serves nothing: FAILED, or untrained and not folded (R248). -/
def deadChannel (s : State) (ch : Nat) : Bool := tstate s ch == 5 || tstate s ch == 7

end Sys2Proof.Machine
end

