-- ==== Sys2Proof/Machine/Regulator.lean ====
section
/-! DEFINITION. Bow numbers and regulation (REG, ch. 6). -/

namespace Sys2Proof.Machine

/-! ## Owners and contexts (R137 to R140) -/

/-- Whether bow number `b` lies in the enabled range of domain `d` (R137). -/
def inBowRange (s : State) (d b : Nat) : Bool :=
  s.on F.REG_BOW_EN_BOW_EN d && decide (s.rd F.REG_BOW_BOW_BASE d ≤ b) && decide (b ≤ s.rd F.REG_BOW_BOW_LAST d)

/-- The owner of a bow number: `ODOM` when `OWNED`. -/
def bowOwner (s : State) (b : Nat) : Option Nat := (List.range 16).find? fun d => inBowRange s d b

/-- The context of a bow number. -/
def State.ctx (s : State) (b : Nat) : Ctx := SMap.getD s.reg.ctx b {}

/-- Store a context. -/
def State.setCtx (s : State) (b : Nat) (x : Ctx) : State := { s with reg.ctx := SMap.put s.reg.ctx b {} x }

/-- Contexts of class `k` with a reservation (`RES_REFS`), and contexts drawing on entry `n` (`RREFS`). -/
def resRefs (s : State) (k : Nat) : Nat := (s.reg.ctx.filter fun x => x.2.cls == k && x.2.resIdx != 0).length
/-- See `resRefs`. -/
def rsvRefs (s : State) (n : Nat) : Nat := if n = 0 then 0 else (s.reg.ctx.filter fun x => x.2.resIdx == n).length

/-- The requests of a bow number on its flow queue, in admission order (R129). -/
def flowQueue (s : State) (b : Nat) : List Req := s.rqe.reqs.filter fun r => r.iss == .host && r.p.bow == b

/-- The kind of a class: 0 BE, 1 LT, 2 RT, 3 BG (Table 6.13). -/
def classKind (s : State) (k : Nat) : Nat := s.rd F.REG_CLASS_KIND k

/-- R140's test of a context WRITE. -/
def ctxCheck (s : State) (b cls ltTgt resIdx : Nat) : Code :=
  if cls = 7 ∨ ltTgt = 0 then .badValue
  else if resIdx = 0 then .ok
  else
    let kind := classKind s cls
    let rkind := s.rd F.REG_RSV_A_RKIND resIdx
    let kindOk := (kind = 2 ∧ rkind = 1) ∨ (kind = 1 ∧ rkind = 0)
    let resOk := match bowOwner s b with
      | none => false
      | some d => s.on F.REG_RSV_A_EN resIdx && s.rd F.REG_RSV_A_RDOM resIdx == d
    if ¬ kindOk then .badValue else if !resOk then .range else .ok

/-- Whether a master may reach the context of a bow number: P and F masters any, a T master those of its own enabled range (R139). -/
def ctxReach (s : State) (who b : Nat) : Bool := if 1 ≤ who ∧ who ≤ 15 then inBowRange s who b else true

/-- Clear a master's window of data registers. -/
def clearWindow (s : State) (who : Nat) : State :=
  [F.REG_CTX_D0_CLASS, F.REG_CTX_D0_LT_TGT, F.REG_CTX_D0_RES_IDX, F.REG_CTX_D0_ODOM, F.REG_CTX_D0_ALLOC, F.REG_CTX_D0_OWNED,
   F.REG_CTX_D0_MLAT_CLR, F.REG_CTX_D1_MLAT, F.REG_CTX_D1_LT_STEP, F.REG_CTX_D2_HEAD, F.REG_CTX_D2_TAIL, F.REG_CTX_D3_QCNT].foldl
    (fun t f => t.wr f 0 who) s

/-- `OP` = READ: the context is copied into the master's window (R139). -/
def ctxRead (s : State) (who b : Nat) : State :=
  let x := s.ctx b
  let q := flowQueue s b
  let ent (o : Option Req) : Nat := match o with
    | some r => Config.entryOf r.id
    | none => 0
  [(F.REG_CTX_D0_CLASS, x.cls), (F.REG_CTX_D0_LT_TGT, x.ltTgt), (F.REG_CTX_D0_RES_IDX, x.resIdx),
   (F.REG_CTX_D0_ODOM, (bowOwner s b).getD 0), (F.REG_CTX_D0_ALLOC, x.alloc), (F.REG_CTX_D0_OWNED, b2n (bowOwner s b).isSome),
   (F.REG_CTX_D0_MLAT_CLR, 0), (F.REG_CTX_D1_MLAT, x.mlat), (F.REG_CTX_D1_LT_STEP, x.ltStep),
   (F.REG_CTX_D2_HEAD, ent q.head?), (F.REG_CTX_D2_TAIL, ent q.getLast?), (F.REG_CTX_D3_QCNT, q.length)].foldl
    (fun t p => t.wr p.1 p.2 who) s

/-- What a master last wrote to REG_CTX_D0; a READ does not change it (Table 6.10). -/
def ctxD0 (s : State) (who : Nat) : Nat := SMap.getD s.reg.d0 who 0xC8

/-- `OP` = WRITE with the values of REG_CTX_D0, already checked (R139, R140). -/
def ctxWrite (s : State) (b cls ltTgt resIdx alloc : Nat) (clr : Bool) : State :=
  let x := s.ctx b
  s.setCtx b { x with
    cls := cls, ltTgt := ltTgt, resIdx := resIdx, alloc := alloc, mlat := if clr then 0 else x.mlat }

/-! ## The urgency law (R144) -/

/-- The age of a request in ns: whole FAB cycles since its admission, halved (R143, R144). -/
def ageOf (s : State) (r : Req) : Nat := (s.now / 4 - r.at' / 4) / 2

/-- The step of a queued request. Ages are in ns; all divisions round down. -/
def urgency (s : State) (r : Req) : Nat :=
  let x := s.ctx r.p.bow
  let k := if r.iss = .host then x.cls else 7
  let a := ageOf s r
  let kind := classKind s k
  let u :=
    if kind = 2 then
      let dl := if r.p.dl ≠ 0 then r.p.dl else s.rd F.REG_CLASS_DEF_DL k
      let slack := dl - s.rd F.REG_CTL_DL_OFS - a - s.rd F.REG_CLASS2_EST k
      7 - min 6 (slack / s.rd F.REG_CLASS_SLACK_Q k)
    else if kind = 1 then min 7 (1 + 6 * x.mlat / (128 * x.ltTgt))
    else if kind = 0 then min 2 (a / s.rd F.REG_CLASS2_AGE_Q k)
    else min 1 (a / s.rd F.REG_CLASS2_AGE_Q k)
  if (kind = 2 ∨ kind = 1) ∧ ¬ r.rsvd then min u 2 else u

/-! ## Counters, samples and watches (R143, R151, R152) -/

/-- Add to a 64-bit saturating counter. -/
def State.cnt (s : State) (i n : Nat) : State :=
  { s with reg.cnt := SMap.put s.reg.cnt i 0 (min (SMap.getD s.reg.cnt i 0 + n) (2 ^ 64 - 1)) }

/-- The selector of a watch: `WBOW` and `WMASK`. -/
def watchSel (s : State) (w : Nat) : Nat × Nat := SMap.getD s.reg.watch w (0, 0xFFFF)

/-- Whether watch `w` counts bow number `b` (R152). -/
def watches (s : State) (w b : Nat) : Bool :=
  let (bow, m) := watchSel s w
  Nat.land b m == Nat.land bow m

/-- Bytes read and written by a performed request, counted for its class, its domain and the watches of its bow number (Table 6.3). -/
def countBytes (s : State) (r : Req) (rd wr : Nat) : State :=
  let k := if r.iss = .host then (s.ctx r.p.bow).cls else 7
  let s := (s.cnt (2 * k) rd).cnt (2 * k + 1) wr
  if r.iss = .host then
    let s := (s.cnt (0x20 + 2 * r.p.dom) rd).cnt (0x21 + 2 * r.p.dom) wr
    (List.range 256).foldl (fun t w => if watches t w r.p.bow then t.cnt (0x203 + 4 * w) (rd + wr) else t) s
  else s

/-- The histogram bucket of a sample (Table 6.4). -/
def bucket (ns : Nat) : Nat :=
  ([16, 24, 32, 40, 48, 56, 64, 80, 96, 128, 192, 256, 512, 1024, 4096].filter (· ≤ ns)).length

/-- The deadline d of an RT request, in ns (R144). -/
def deadline (s : State) (r : Req) : Nat :=
  (if r.p.dl ≠ 0 then r.p.dl else s.rd F.REG_CLASS_DEF_DL (s.ctx r.p.bow).cls) - s.rd F.REG_CTL_DL_OFS

/-- An RT request whose completion is placed at an age above d misses its deadline (R144). -/
def noteMiss (s : State) (r : Req) : State :=
  let k := (s.ctx r.p.bow).cls
  if classKind s k = 2 ∧ ageOf s r > deadline s r then s.cnt (0x10 + k) 1 else s

/-- One latency sample of a completed RD or atomic, when its completion is placed (R143). -/
def sample (s : State) (r : Req) : State :=
  let ns := min (ageOf s r) 65535
  let b := r.p.bow
  let x := s.ctx b
  let m := x.mlat - x.mlat / 16 + ns
  let s := s.setCtx b { x with mlat := m, ltStep := min 7 (1 + 6 * m / (128 * x.ltTgt)) }
  let s := s.cnt (0x100 + 16 * x.cls + bucket ns) 1
  (List.range 256).foldl (fun t w =>
    if watches t w b then
      let t := (t.cnt (0x200 + 4 * w) 1).cnt (0x201 + 4 * w) ns
      { t with reg.cnt := SMap.put t.reg.cnt (0x202 + 4 * w) 0 (max (SMap.getD t.reg.cnt (0x202 + 4 * w) 0) ns) }
    else t) s

/-- Whether `CIDX` names a counter of Table 6.3. -/
def cidxLegal (i : Nat) : Bool :=
  decide (i < 0x18) || (decide (0x20 ≤ i) && decide (i < 0x40)) || (decide (0x100 ≤ i) && decide (i < 0x180)) ||
  (decide (0x200 ≤ i) && decide (i < 0x600))

/-- Counters that master `who` may read: a T master only the byte counters of its own domain (R151). -/
def cidxReach (who i : Nat) : Bool := if 1 ≤ who ∧ who ≤ 15 then i == 0x20 + 2 * who || i == 0x21 + 2 * who else true

/-! ## Admission accounting (R145, R150) -/

/-- The bytes a request counts at admission (R145). -/
def admitBytes (op : ROp) (len : Nat) : Nat :=
  match op with
  | .rd | .wr => lenBytes len
  | .wrp | .afadd | .aswap | .acas | .aand | .aor => 64
  | .flush | .zero | .fence => 0

/-- `RSVD` at admission (R145). -/
def rsvdFlag (s : State) (bow : Nat) : Bool :=
  let x := s.ctx bow
  let n := x.resIdx
  let kind := classKind s x.cls
  let rk := s.rd F.REG_RSV_A_RKIND n
  n != 0 && s.on F.REG_RSV_A_EN n && ((kind == 2 && rk == 1) || (kind == 1 && rk == 0)) &&
    decide (SMap.getD s.reg.rsvBytes n 0 < s.rd F.REG_RSV_B_GRANT n)

/-- The throttle meter's limit M of a window (R150). -/
def meterLimit (s : State) : Nat := 3276800 * (1000 - s.reg.theta) / 1000

/-- Whether the throttle meter holds a request of `n` bytes (R150). -/
def meterHolds (s : State) (rsvd : Bool) (n : Nat) : Bool :=
  s.on F.REG_CTL_MTR_EN && decide (0 < s.reg.theta) && !rsvd && decide (0 < n) && decide (meterLimit s < s.reg.meter + n)

/-- Count admitted bytes on the reservation and the meter. -/
def countAdmit (s : State) (bow n : Nat) : State :=
  let i := (s.ctx bow).resIdx
  { s with
    reg.meter := s.reg.meter + n
    reg.rsvBytes := if i = 0 then s.reg.rsvBytes else SMap.put s.reg.rsvBytes i 0 (SMap.getD s.reg.rsvBytes i 0 + n) }

/-- Count the bytes of sectors that the range engine issues, which are never held: on the reservation of a host request and on the meter (R145, R150). -/
def countRange (s : State) (host : Bool) (bow n : Nat) : State :=
  if host then countAdmit s bow (64 * n) else { s with reg.meter := s.reg.meter + 64 * n }

/-! ## S, reservations and grants (R146 to R149) -/

/-- The die that holds rank `r` of channel `c` (R14). -/
def dieOf (c r : Nat) : Nat := r * 4 + c / 8

/-- A channel that contributes 0 to S: DEGRADED2, failed, folded out, off, or under controller reset (Table 6.2). -/
def zeroChannel (s : State) (c : Nat) : Bool :=
  decide (4 ≤ tstate s c) || s.cstate c == 3

/-- S before the next window, with `FOLD_ACT`, `HOT_RANKS` and `ZERO_CH` (R146). -/
def computeS (s : State) (theta : Nat) : Nat × Bool × Nat × Nat :=
  let none0 := (List.range 32).filter (zeroChannel s)
  let hot := ((List.range 32).flatMap fun c => (List.range 4).map fun r => dieOf c r).filter fun n => s.on F.RFM_DIE_DBL n
  let sum := ((List.range 32).map fun c =>
    if zeroChannel s c then 0
    else ((List.range 4).map fun r => if s.on F.RFM_DIE_DBL (dieOf c r) then 20920 else 21250).foldl (· + ·) 0).foldl (· + ·) 0
  let fold := decide (s.fstate = fMigrate)
  ((sum - if fold then 20000 else 0) * (1000 - theta) / 1000, fold, hot.length, none0.length)

/-- Sum of the enabled rates of a kind: 1 RT, 0 LT. -/
def rateSum (s : State) (kind : Nat) : Nat :=
  ((List.range 63).map fun k =>
    let n := k + 1
    if s.on F.REG_RSV_A_EN n && s.rd F.REG_RSV_A_RKIND n == kind then s.rd F.REG_RSV_A_RQ_RATE n else 0).foldl (· + ·) 0

/-- The reservable budget A (R148). -/
def budget (S : Nat) : Nat := S * 85 / 100

/-- `GRANT` of every entry and `OVC` for an estimate S (R149). -/
def grantsFor (s : State) (S : Nat) : List (Nat × Nat) × Bool :=
  let rt := rateSum s 1
  let lt := rateSum s 0
  let fl := S * 98 / 100
  let excess := decide (budget S < rt + lt)
  ((List.range 63).map fun k =>
    let n := k + 1
    let q := if s.on F.REG_RSV_A_EN n then s.rd F.REG_RSV_A_RQ_RATE n else 0
    let isRt := s.rd F.REG_RSV_A_RKIND n == 1
    (n, if !excess then q
        else if rt ≤ fl then (if isRt then q else min q (q * (fl - rt) / lt))
        else (if isRt then q * fl / rt else 0)),
   excess)

/-- Write `GRANT` of every entry. -/
def putGrants (s : State) (gs : List (Nat × Nat)) : State := gs.foldl (fun t p => t.wr F.REG_RSV_B_GRANT p.2 p.1) s

/-- `RT_SUM` and `LT_SUM` (Table 6.8). -/
def putSums (s : State) : State := (s.wr F.REG_RT_SUM_RT_SUM (rateSum s 1)).wr F.REG_LT_SUM_LT_SUM (rateSum s 0)

/-- Raise OVERCOMMIT when `OVC` goes from 0 to 1 (R149). -/
def noteOvc (s : State) (was now' : Bool) : State :=
  if !was && now' then s.raiseG 260 .warn 0 (rateSum s 1 + rateSum s 0) else s

/-- `OVC` as the last computation left it. -/
def ovcPending (s : State) : Bool :=
  match s.reg.sNext with
  | some (_, o, _) => o
  | none => s.on F.REG_S_OVC

/-- Every 1 ms (R146, R147, R149): the new S and grants apply from the next window. -/
def sRecompute (s : State) : State :=
  let (S, fold, hot, none0) := computeS s s.reg.thetaNext
  let (gs, ovc) := grantsFor s S
  let s' := { s with reg.sNext := some (S, ovc, fold, hot, none0), reg.grantNext := some gs }
  noteOvc s' (ovcPending s) ovc

/-- A 1 µs window begins (R145, R150): counts restart, and S, grants and theta that were computed apply. -/
def reservationWindow (s : State) : State :=
  let s := { s with reg.rsvBytes := [], reg.meter := 0, reg.theta := s.reg.thetaNext }
  let s := match s.reg.sNext with
    | some (S, ovc, fold, hot, none0) =>
      { (s.wr F.REG_S_S_EST S).wr F.REG_S_OVC (b2n ovc) with
        reg.foldAct := fold, reg.hotRanks := hot, reg.zeroCh := none0, reg.sNext := none }
    | none => s
  match s.reg.grantNext with
  | some gs => { putGrants s gs with reg.grantNext := none }
  | none => s

/-- R147 at every start: S is 2,720,000 MB/s and every enabled entry has its grant before the first request is admitted. -/
def regStart (s : State) : State :=
  let s := { s.wr F.REG_S_S_EST 2720000 with reg.sNext := none, reg.grantNext := none, reg.rsvBytes := [], reg.meter := 0 }
  let (gs, ovc) := grantsFor s 2720000
  noteOvc ((putSums (putGrants s gs)).wr F.REG_S_OVC (b2n ovc)) (s.on F.REG_S_OVC) ovc

/-- R147 after an accepted write of REG[n]_RSV_A: grants from the S in effect, from the next window. -/
def regrant (s : State) : State :=
  let (gs, ovc) := grantsFor s (s.rd F.REG_S_S_EST)
  let s := { putSums s with
    reg.grantNext := some gs, reg.sNext := s.reg.sNext.map fun (p : Nat × Bool × Bool × Nat × Nat) => (p.1, ovc, p.2.2) }
  noteOvc (s.wr F.REG_S_OVC (b2n ovc)) (s.on F.REG_S_OVC) ovc

/-- R148's test of a write of REG[n]_RSV_A: the entry after the write has the given rate, kind, domain and enable. -/
def rsvCheck (s : State) (n rate kind dom : Nat) (en : Bool) : Code :=
  let was := s.on F.REG_RSV_A_EN n
  let old := if was then s.rd F.REG_RSV_A_RQ_RATE n else 0
  let excess := decide (budget (s.rd F.REG_S_S_EST) < rateSum s 1 + rateSum s 0 - old + rate)
  if en ∧ ¬ was ∧ rate = 0 then .badValue
  else if was ∧ (kind ≠ s.rd F.REG_RSV_A_RKIND n ∨ dom ≠ s.rd F.REG_RSV_A_RDOM n) then .state
  else if was ∧ ¬ en ∧ rsvRefs s n ≠ 0 then .state
  else if en ∧ (¬ was ∨ old < rate) ∧ excess then .overcommit
  else .ok

/-! ## Bow ranges (R138) -/

/-- R138's test of a domain's new range. `used` is `RB_USED_D`. -/
def bowCheck (s : State) (d base last : Nat) (en : Bool) (used : Nat) : Code :=
  let overlaps := (List.range 16).any fun e =>
    e != d && s.on F.REG_BOW_EN_BOW_EN e && decide (base ≤ s.rd F.REG_BOW_BOW_LAST e) && decide (s.rd F.REG_BOW_BOW_BASE e ≤ last)
  if last < base ∨ (en ∧ overlaps) then .range
  else if s.on F.RQE_DOM_CTL_EN d ∨ used ≠ 0 ∨ s.on F.REG_BOW_EN_BOW_BUSY d then .state
  else .ok

/-- The enabled range of a domain as (first, last), if any. -/
def enabledRange (s : State) (d : Nat) : List (Nat × Nat) :=
  if s.on F.REG_BOW_EN_BOW_EN d then [(s.rd F.REG_BOW_BOW_BASE d, s.rd F.REG_BOW_BOW_LAST d)] else []

/-- A range change starts resetting the contexts that changed owner. `old` is the range before the write. -/
def bowChanged (s : State) (d : Nat) (old : List (Nat × Nat)) : State :=
  { s.wr F.REG_BOW_EN_BOW_BUSY 1 d with reg.rangeJob := SMap.set s.reg.rangeJob d old }

/-- Bow number `b` lies in one of the ranges. -/
def inRanges (rs : List (Nat × Nat)) (b : Nat) : Bool := rs.any fun r => decide (r.1 ≤ b) && decide (b ≤ r.2)

/-- The contexts of every bow number that entered or left the range have been reset (R138). -/
def bowReset (d : Nat) (s : State) : State :=
  match SMap.get? s.reg.rangeJob d with
  | none => s
  | some old =>
    let new := enabledRange s d
    { s.wr F.REG_BOW_EN_BOW_BUSY 0 d with
      reg.rangeJob := SMap.erase s.reg.rangeJob d
      reg.ctx := s.reg.ctx.filter fun x => inRanges old x.1 == inRanges new x.1 }

end Sys2Proof.Machine
end

