-- ==== Sys2Proof/Machine/Request.lean ====
section
/-! DEFINITION. The request engine (RQE, ch. 5): admission, hazards, forwarding, completions, purge. -/

namespace Sys2Proof.Machine

/-- The operation of an opcode, if it is not reserved (Table 4.1). -/
def opOf (opc : Nat) : Option ROp :=
  match opc with
  | 0x00 => some .rd | 0x10 => some .wr | 0x11 => some .wrp | 0x20 => some .afadd | 0x21 => some .aswap | 0x22 => some .acas
  | 0x23 => some .aand | 0x24 => some .aor | 0x30 => some .flush | 0x31 => some .zero | 0x32 => some .fence | _ => none

/-- Atomics (Table 4.3). -/
def isAtomic (o : ROp) : Bool := o == .afadd || o == .aswap || o == .acas || o == .aand || o == .aor

/-- Accesses that are pending until written (R126). -/
def isWriter (o : ROp) : Bool := o == .wr || o == .wrp || o == .zero || isAtomic o

/-! ## The region table (R118) -/

/-- The enabled entry of domain `d` that holds block `blk`. -/
def regionOf (s : State) (d blk : Nat) : Option Nat :=
  (List.range 64).find? fun n =>
    s.on F.RQE_RGN_A_EN n && s.rd F.RQE_RGN_A_RDOM n == d && decide (s.rd F.RQE_RGN_A_DBASE n ≤ blk) &&
    decide (blk ≤ s.rd F.RQE_RGN_A_DBASE n + s.rd F.RQE_RGN_B_SIZE_M1 n)

/-- The entries that cover the blocks `blk` to `last`, in order, jumping from the end of one entry to the next; none where a block lies in no
enabled region. The fuel is one more than the entries. -/
def coverBlocks (s : State) (d last : Nat) : Nat → Nat → Option (List (Nat × Nat × Nat))
  | 0, _ => none
  | n + 1, blk =>
    match regionOf s d blk with
    | none => none
    | some e =>
      let stop := min last (s.rd F.RQE_RGN_A_DBASE e + s.rd F.RQE_RGN_B_SIZE_M1 e)
      if stop = last then some [(e, blk, last)]
      else match coverBlocks s d last n (stop + 1) with
        | none => none
        | some r => some ((e, blk, stop) :: r)

/-- Blocks of a range that lie in some region without write permission: R12 puts PRIVILEGE before RANGE, so every block is looked at. -/
def readOnlyTouched (s : State) (d first last : Nat) : Bool :=
  (List.range 64).any fun n =>
    s.on F.RQE_RGN_A_EN n && s.rd F.RQE_RGN_A_RDOM n == d && !s.on F.RQE_RGN_A_WR n &&
    decide (s.rd F.RQE_RGN_A_DBASE n ≤ last) && decide (first ≤ s.rd F.RQE_RGN_A_DBASE n + s.rd F.RQE_RGN_B_SIZE_M1 n)

/-- A 2 MiB block. -/
def blockSize : Nat := 2 ^ 21

/-- The device address of a domain address in entry `n` (R118). -/
def devAddr (s : State) (n a : Nat) : Nat := s.rd F.RQE_RGN_B_PBASE n * blockSize + (a - s.rd F.RQE_RGN_A_DBASE n * blockSize)

/-- The bytes a request touches: first address and length. Address bits 5:0 are reserved (R81, R84). A WRP whose `MASK` is zero touches none (R91). -/
def span (o : ROp) (p : Vc0) : Nat × Nat :=
  let a := p.addr / 64 * 64
  match o with
  | .rd | .wr => (a, lenBytes p.len)
  | .flush | .zero => (a, 4096 * (p.rcnt + 1))
  | .fence => (0, 0)
  | .wrp => (a, if p.mask = 0 then 0 else 64)
  | _ => (a, 64)

/-- The address form of R86. -/
def addrForm (o : ROp) (p : Vc0) : Bool :=
  let a := p.addr / 64 * 64
  match o with
  | .fence => true
  | .rd | .wr => decide (a < 2 ^ 37) && decide (a % lenBytes p.len = 0)
  | .flush | .zero => decide (a < 2 ^ 37) && decide (a % 4096 = 0)
  | _ => decide (a < 2 ^ 37)

/-- The sector runs (first sector, count) of the device addresses a request touches, if every block lies in a region. -/
def runsOf (s : State) (o : ROp) (p : Vc0) : Option (List (Nat × Nat)) :=
  let (a, n) := span o p
  if n = 0 then some [] else
  match coverBlocks s p.dom ((a + n - 1) / blockSize) 65 (a / blockSize) with
  | none => none
  | some es => some <| es.map fun (e, b0, b1) =>
      let lo := max a (b0 * blockSize)
      let hi := min (a + n) ((b1 + 1) * blockSize)
      (devAddr s e lo / 64, (hi - lo) / 64)

/-- The pair (`DOM`, `TAG`) is in use until its completion is placed (R125). -/
def tagInUse (s : State) (d t : Nat) : Bool := s.rqe.reqs.any fun r => r.iss == .host && r.p.dom == d && r.p.tag == t && !r.sent

/-- The admission checks of Table 5.1 in the order of R12. -/
def admitCheck (s : State) (p : Vc0) : Code :=
  match opOf p.opc with
  | none => .badOpcode
  | some o =>
    if (o = .rd ∨ o = .wr) ∧ p.len = 3 then .badOpcode
    else
      let (a, n) := span o p
      let needWr := o == .wr || o == .wrp || o == .zero || isAtomic o
      let form := addrForm o p
      if needWr && n != 0 && readOnlyTouched s p.dom (a / blockSize) ((a + n - 1) / blockSize) then .privilege
      else if !form then .range
      else if o ≠ .fence ∧ (runsOf s o p).isNone then .range
      else if ¬ (o = .fence ∧ p.opf) ∧ ¬ inBowRange s p.dom p.bow then .range
      else if !s.on F.RQE_DOM_CTL_EN p.dom || bit (s.rd F.MGT_QUIESCE_WE_DOM) p.dom then .state
      else if tagInUse s p.dom p.tag then .state
      else .ok

/-! ## Buffers (R117, R123, R124) -/

/-- Sectors of some runs. -/
def runLen (rs : List (Nat × Nat)) : Nat := (rs.map (·.2)).foldl (· + ·) 0

/-- Whether a sector lies in some runs. -/
def inRuns (rs : List (Nat × Nat)) (x : Nat) : Bool := rs.any fun r => decide (r.1 ≤ x) && decide (x < r.1 + r.2)

/-- Runs without one sector. -/
def dropSector (rs : List (Nat × Nat)) (x : Nat) : List (Nat × Nat) :=
  rs.flatMap fun r =>
    if r.1 ≤ x ∧ x < r.1 + r.2 then [(r.1, x - r.1), (x + 1, r.1 + r.2 - x - 1)].filter fun q => q.2 != 0 else [r]

/-- The sectors of some runs, in order. -/
def runSectors (rs : List (Nat × Nat)) : List Nat := rs.flatMap fun r => (List.range r.2).map (r.1 + ·)

/-- Write-data slots a request holds (Table 5.4). -/
def wdbSlots (r : Req) : Nat :=
  if r.op = .wr ∨ r.op = .wrp then runLen r.pend
  else if isAtomic r.op then b2n (!r.performed) else 0

/-- Completion-data slots a request holds (Table 5.4); internal reads use none (R124). -/
def cdbSlots (r : Req) : Nat :=
  if r.sent || r.iss != .host then 0 else if r.op = .rd then lenBytes r.p.len / 64 else if isAtomic r.op then 1 else 0

/-- Range-engine slots (Table 5.4). -/
def rngSlots (r : Req) : Nat := if (r.op = .flush ∨ r.op = .zero) ∧ ¬ r.performed then 1 else 0

/-- A sum over the request buffer. -/
def sumReqs (s : State) (f : Req → Nat) : Nat := (s.rqe.reqs.map f).foldl (· + ·) 0

/-- Entries of a domain (`RB_USED_D`). -/
def rbUsed (s : State) (d : Nat) : Nat := (s.rqe.reqs.filter fun r => r.iss == .host && r.p.dom == d).length

/-- Whether an admissible packet finds the room of Table 5.4, its domain's `RB_CAP`, the throttle meter open (R117, R150), and for a write the
write queues of its channels below `WQ_CAP` (R183). -/
def hasRoom (s : State) (o : ROp) (p : Vc0) : Bool :=
  let n := lenBytes p.len / 64
  let wdb := if o = .wr then n else if o = .wrp then b2n (p.mask != 0) else b2n (isAtomic o)
  let cdb := if o = .rd then n else b2n (isAtomic o)
  let rng := b2n (o == .flush || o == .zero)
  decide ((s.rqe.reqs.filter (·.iss == .host)).length < 15564) && decide (rbUsed s p.dom < s.rd F.RQE_DOM_CTL_RB_CAP p.dom) &&
  decide (sumReqs s (fun r => if r.iss = .host then wdbSlots r else 0) + wdb ≤ 16384 - 1024) && decide (sumReqs s cdbSlots + cdb ≤ 32768) && decide (sumReqs s rngSlots + rng ≤ 64) &&
  !meterHolds s (rsvdFlag s p.bow) (admitBytes o p.len) &&
  ((o != .wr && (o != .wrp || p.mask == 0)) || ((runsOf s o p).getD []).all fun q => (List.range q.2).all fun k =>
    let ch := (place s (q.1 + k)).1
    decide (wqUsed s ch < s.rd F.DMC_WQ_WQ_CAP ch))

/-! ## Order: hazards, ORD and FENCE (R110, R111, R126, R130, R131) -/

/-- An earlier `ORD` request of the same domain and bow number is unperformed (R110, R130). -/
def ordBlocked (s : State) (r : Req) : Bool :=
  r.p.ord && r.op != .fence && s.rqe.reqs.any fun q =>
    decide (q.id < r.id) && q.iss == .host && q.p.dom == r.p.dom && q.p.bow == r.p.bow && q.p.ord && q.op != .fence && !q.performed

/-- An unperformed FENCE holds the request (R111, R131). -/
def fenceBlocked (s : State) (r : Req) : Bool :=
  r.iss == .host && s.rqe.reqs.any fun q =>
    q.op == .fence && decide (q.id < r.id) && !q.performed && q.p.dom == r.p.dom && (q.p.opf || (r.p.bow == q.p.bow && !(r.op == .fence && r.p.opf)))

/-- A FENCE may be performed: every earlier request that it covers has been (R111). -/
def fenceReady (s : State) (f : Req) : Bool :=
  s.rqe.reqs.all fun q =>
    !(decide (q.id < f.id) && q.iss == .host && q.p.dom == f.p.dom && (f.p.opf || q.p.bow == f.p.bow || (q.op == .fence && q.p.opf)) && !q.performed)

/-- The sectors a read or a single-sector request touches. -/
def sectorsOf (r : Req) : List Nat := (List.range (r.bytes / 64)).map (r.dev / 64 + ·)

/-- The bank queue of a bank (R129): the requests whose sectors lie in it, from admission to the release of their entry, in admission order. A FLUSH or a ZERO
joins it with each sector that the range engine issues. -/
def bankQueue (s : State) (ch b : Nat) : List Req :=
  s.rqe.reqs.filter fun r =>
    if r.op == .flush || r.op == .zero then (s.dmcOf ch).wq.any fun e => e.req == r.id && bankOf e.c == b
    else r.op != .fence && (sectorsOf r).any fun x => let p := place s x; p.1 == ch && bankOf p.2 == b

/-- The newest pending access to a sector among requests admitted before `id`. -/
def newestPending (s : State) (id sec : Nat) : Option Req :=
  (s.rqe.reqs.filter fun q => decide (q.id < id) && isWriter q.op && inRuns q.pend sec).getLast?

/-- A sector of zero data and zero metadata, and a poisoned one with zero data (R171, R222). -/
def zeroSector : Sector := { data := List.replicate 64 0, md := 0 }
/-- See `zeroSector`. -/
def poisoned0 : Sector := { data := List.replicate 64 0, md := 1 }

/-- The sector that a pending WR stores (R90): its data and metadata byte, or poison with zero data where the write data buffer has lost it (Table 10.3). -/
def wrSector (w : Req) (sec : Nat) : Sector :=
  let k := sec - w.dev / 64
  if w.bad.contains sec then poisoned0 else
  { data := slice w.p.data (64 * k) 64, md := if w.p.md then (w.p.mdx.getD k 0).toNat else 0 }

/-- Whether a read can be forwarded: every sector's newest pending access is a visible WR (Table 5.5). -/
def forwardable (s : State) (r : Req) : Bool :=
  s.on F.RQE_CTL_FWD_EN && (sectorsOf r).all fun x => match newestPending s r.id x with
    | some w => w.op == .wr && w.visible
    | none => false

/-- Whether some sector of a request has a pending access admitted before it. -/
def hazard (s : State) (r : Req) : Bool := (sectorsOf r).any fun x => (newestPending s r.id x).isSome

/-- Replace a request. -/
def setReq (s : State) (r : Req) : State := { s with rqe.reqs := s.rqe.reqs.map fun q => if q.id = r.id then r else q }

/-- A request by its admission number. -/
def findReq (s : State) (id : Nat) : Option Req := s.rqe.reqs.find? (·.id == id)

/-- Entries whose completion is sent and whose writes are done leave the buffer (R123). -/
def sweep (s : State) : State :=
  { s with rqe.reqs := s.rqe.reqs.filter fun r => !(r.sent && r.pend.isEmpty && r.performed) }

/-- The status of a read from its sectors (R13, R99 to R101): UNCORRECTABLE, POISONED, DEGRADED, OK_CORRECTED, OK. -/
def worst (cs : List Code) : Code :=
  if cs.contains .uncorrectable then .uncorrectable else if cs.contains .poisoned then .poisoned
  else if cs.contains .degraded then .degraded else if cs.contains .okCorrected then .okCorrected else .ok

/-- The status of a WR at admission (R90, R101, and R240's rule for DEGRADED2 channels). -/
def wrStatus (s : State) (p : Vc0) (runs : List (Nat × Nat)) : Code :=
  if p.md && (p.mdx.take (lenBytes p.len / 64)).any (fun b => bit b.toNat 0) then .poisoned
  else if (runSectors runs).any fun x => degraded2 s (place s x).1 then .degraded else .ok

/-- Bytes that a request counts when it is performed (Table 6.3): read and written. A WRP that merges counts when its merge ends, since one that ends with
TIMEOUT is not counted. -/
def perfBytes (r : Req) : Nat × Nat :=
  match r.op with
  | .rd => (r.bytes, 0)
  | .wr => (0, r.bytes)
  | .wrp => (0, if r.p.mask = 0 then 64 else 0)
  | .zero => (0, 4096 * (r.p.rcnt + 1))
  | .flush | .fence => (0, 0)
  | _ => (8, 8)

/-- A request is performed (R108): counted, and marked. -/
def markPerformed (s : State) (r : Req) : State :=
  let (a, b) := perfBytes r
  countBytes (setReq s { r with performed := true, visible := true }) r a b

/-- A poisoned sector that a read returns (R224). -/
def countPoison (s : State) (ch : Nat) (c : Code) : State := if c = .poisoned then s.inc F.DIP_UE_POISON_RD 1 ch else s

/-- Forward a read from the write data buffer: performed now (R126). A sector that the buffer has lost is sent under R100 (Table 10.3). -/
def forward (s : State) (r : Req) : State :=
  let got := (sectorsOf r).filterMap fun x => (newestPending s r.id x).map fun w => wrSector w x
  let lost (x : Nat) : Bool := match newestPending s r.id x with
    | some w => w.bad.contains x
    | none => false
  let code (x : Sector) : Code := if bit x.md 0 then .poisoned else .ok
  let codes := (sectorsOf r).filterMap fun x => (newestPending s r.id x).map fun w => if lost x then .uncorrectable else code (wrSector w x)
  let r' := { r with issued := true, pend := [], cpl := some { status := worst codes, sects := got } }
  let s := (sectorsOf r).foldl (fun t x => match newestPending s r.id x with
    | some w => if lost x then t else countPoison t (place s x).1 (code (wrSector w x))
    | none => t) s
  markPerformed (s.inc F.RQE_FWD_FWD_SECT got.length) r'

/-- A request whose sectors have a pending access waits, and is counted once (R126 to R128). -/
def waitHazard (s : State) (r : Req) : State :=
  if r.issued || r.hz || !hazard s r then s else setReq (s.inc F.RQE_HAZ_HAZ_WAIT) { r with hz := true }

/-- What one request can do without being issued, now that order allows it (Table 5.5 is judged here): a write becomes visible, a read is forwarded or
waits, an atomic or a merge waits, a WRP with an empty mask and a FENCE complete. -/
def settleOne (s : State) (id : Nat) : State :=
  match findReq s id with
  | none => s
  | some r =>
    if r.performed || ordBlocked s r || fenceBlocked s r then s
    else match r.op with
      | .wr => markPerformed s r
      | .wrp =>
        if r.p.mask = 0 then markPerformed s { r with cpl := some { status := .ok } } else
        markPerformed (if hazard s r then s.inc F.RQE_HAZ_HAZ_WAIT else s) r
      | .rd => if !r.issued && !r.hz && hazard s r && forwardable s r then forward s r else waitHazard s r
      | .flush | .zero => s
      | .fence => if fenceReady s r then markPerformed s { r with cpl := some { status := .ok } } else s
      | _ => waitHazard s r

/-- Let every request that order no longer holds proceed, in admission order (R110, R111). -/
def settle (s : State) : State := sweep ((s.rqe.reqs.map (·.id)).foldl settleOne s)

/-! ## Admission (R115 to R117, R123) -/

/-- Reject a packet: its CPL goes to the rejection queue and its cells are released (R116). -/
def reject (s : State) (p : Vc0) (c : Code) : State :=
  let s := match c with
    | .badOpcode => s.inc F.RQE_DOM_REJ_REJ_OPC 1 p.dom
    | .privilege => s.inc F.RQE_DOM_REJ_REJ_PRIV 1 p.dom
    | .range => s.inc F.RQE_DOM_REJ_REJ_RANGE 1 p.dom
    | _ => s.inc F.RQE_DOM_REJ_REJ_STATE 1 p.dom
  let s := if c = .state ∧ tagInUse s p.dom p.tag then
      ((s.wr F.RQE_DUP_DUP_TAG p.tag).wr F.RQE_DUP_DUP_DOM p.dom).inc F.RQE_DUP_DUP_CNT else s
  releaseVc0 { s with rqe.rejQ := s.rqe.rejQ ++ [cplBytes p.tag p.dom c] } p.dom (cellsOf (vc0Len p))

/-- RQE works: in RUN, IDLE and ENTERING with FAB running (R320, R359, R382). Internal traffic needs no more (R282). -/
def rqeRuns (s : State) : Bool := (s.pck.pow == .run || s.pck.pow == .idle || s.pck.pow == .entering) && !s.pck.fabDown

/-- RQE takes VC0 packets: not under stack weigh-enough (R282). -/
def rqeOpen (s : State) : Bool := rqeRuns s && !s.on F.MGT_QUIESCE_WE_STACK

/-- Take an admissible packet into the request buffer, and do at once what the rules place at admission. -/
def admitPacket (s : State) (o : ROp) (p : Vc0) (iss : Issuer) (runs : List (Nat × Nat)) : State :=
  let id := s.rqe.nextId
  let dev := match runs with
    | r :: _ => r.1 * 64
    | [] => 0
  let zeroMask := decide (o = .wrp) && p.mask == 0
  -- a WRP whose mask is all ones is executed exactly as a 64-byte WR without metadata (R91)
  let full := decide (o = .wrp) && p.mask == 2 ^ 64 - 1
  let o' := if full then .wr else o
  let p' := if full then { p with len := 0, md := false, na := false } else p
  let cpl : Option Cpl := if o' = .wr then some { status := wrStatus s p' runs } else none
  let r : Req :=
    { id := id, op := o', p := p', iss := iss, at' := s.now, dev := dev, bytes := if o' = .rd ∨ o' = .wr then lenBytes p'.len else 64
      visible := false, rsvd := rsvdFlag s p.bow, pend := if zeroMask || o = .fence then [] else runs, cpl := cpl
      runs := if o = .flush ∨ o = .zero then runs else [], todo := if o = .flush ∨ o = .zero then runs else [] }
  let s := if iss = .host then countAdmit (s.wr F.RQE_STAT_ADMITTED 1) p.bow (admitBytes o p.len) else s
  let s := { s with rqe.nextId := id + 1, rqe.reqs := s.rqe.reqs ++ [r] }
  settle s

/-- RQE takes another packet in this FAB cycle: at most 24 (R114). -/
def cycleFree (s : State) : Bool := s.rqe.taken.1 != s.now / 4 || decide (s.rqe.taken.2 < 24)

/-- A packet is taken in this FAB cycle. -/
def countTaken (s : State) : State :=
  { s with rqe.taken := (s.now / 4, if s.rqe.taken.1 = s.now / 4 then s.rqe.taken.2 + 1 else 1) }

/-- One packet at the head of a group: rejected, admitted, or left waiting (R115, R117). The answer says whether it was taken. -/
def takePacket (s : State) (p : Vc0) : State × Bool :=
  if s.rqe.rejQ.length ≥ 256 || !rqeOpen s || !cycleFree s then (s, false) else
  match admitCheck s p with
  | .ok =>
    match opOf p.opc with
    | none => (s, false)
    | some o =>
      if hasRoom s o p then
        (releaseVc0 (admitPacket (countTaken s) o p .host ((runsOf s o p).getD [])) p.dom (cellsOf (vc0Len p)), true)
      else (s, false)
  | c => (reject (countTaken s) p c, true)

/-- The head of group `g` waits from now on, unless it waits already. -/
def headWaits (s : State) (g : Nat) : State :=
  if (SMap.get? s.rqe.waitAt g).isSome then s else { s with rqe.waitAt := SMap.set s.rqe.waitAt g s.now }

/-- Take the packets waiting at the head of group `g` for as long as the head can be taken. A group that is left because the FAB cycle has taken 24 is served
in part: the rotation goes on from the group after it (R114). -/
def takeWaiting : Nat → State → Nat → State
  | 0, s, _ => s
  | n + 1, s, g =>
    match SMap.getD s.rqe.waiting g [] with
    | [] => s
    | p :: rest =>
      match takePacket s p with
      | (s', true) => takeWaiting n { s' with rqe.waiting := SMap.put s'.rqe.waiting g [] rest, rqe.waitAt := SMap.erase s'.rqe.waitAt g } g
      | (_, false) => headWaits (if cycleFree s then s else { s with rqe.rot := (g + 1) % 16 }) g

/-- Insert a group behind those that have waited at least as long. -/
def insertWaiting (s : State) (g : Nat) : List Nat → List Nat
  | [] => [g]
  | h :: r =>
    if SMap.getD s.rqe.waitAt h s.now ≤ SMap.getD s.rqe.waitAt g s.now then h :: insertWaiting s g r else g :: h :: r

/-- The groups with a packet waiting, in the order in which RQE serves them: the head that has waited longest first, then in rotation (R114). -/
def serveOrder (s : State) : List Nat :=
  let gs := (((List.range 16).map fun k => (s.rqe.rot + k) % 16).filter fun g => !(SMap.getD s.rqe.waiting g []).isEmpty)
  gs.foldl (fun l g => insertWaiting s g l) []

/-- Room released lets waiting packets in (R114, R117). -/
def retake (s : State) : State := (serveOrder s).foldl (fun t g => takeWaiting (SMap.getD t.rqe.waiting g []).length t g) s

/-- A VC0 packet delivered on group `g`, its cells already held: it waits behind earlier packets of its group (R107, R117). -/
def deliverVc0 (g : Nat) (p : Vc0) (s : State) : State :=
  let q := SMap.getD s.rqe.waiting g []
  let s := if s.pck.pow = .idle then { s with pck.pow := .run } else s
  takeWaiting (q.length + 1) { s with rqe.waiting := SMap.put s.rqe.waiting g [] (q ++ [p]) } g

/-- A VC0 packet arrives on group `g` (R63, R65): no packet arrives on a group the stack does not receive on; without room in its pool, or
before link-ready, it is a protocol error. -/
def arriveVc0 (g : Nat) (p : Vc0) (s : State) : State :=
  let x := s.grp g
  if !(x.inSvc && !x.dir && !x.frozen) then s
  else if !s.link.up || !roomVc0 s p.dom (cellsOf (vc0Len p)) then protocolError s g
  else deliverVc0 g p (holdVc0 s p.dom (cellsOf (vc0Len p)))

/-! ## Completions (R97 to R101, R143) -/

/-- The bytes of a request's completion (R98, R99, R100). -/
def completionBytes (r : Req) (c : Cpl) : List Byte :=
  if c.status = .timeout then cplBytes r.p.tag r.p.dom .timeout
  else if r.op = .rd then
    cpldBytes r.p.tag r.p.dom c.status (c.sects.map fun x => (x.data, if r.p.md then x.md else x.md % 2))
  else if isAtomic r.op then cplaBytes r.p.tag r.p.dom c.status c.old
  else cplBytes r.p.tag r.p.dom c.status

/-- Requests whose completion is ready and not yet sent, in admission order. -/
def readyReqs (s : State) : List Req := s.rqe.reqs.filter fun r => r.iss == .host && r.cpl.isSome && !r.sent

/-- A completion is sent: its latency sample, a missed deadline, and the entry's release (R123, R143, R144). -/
def markSent (s : State) (r : Req) : State :=
  let timed : Bool := match r.cpl with
    | some c => c.status == .timeout
    | none => true
  let s := if r.op = .rd || isAtomic r.op then if timed then s else sample s r else s
  let s := if timed then s else noteMiss s r
  sweep (setReq s { r with sent := true })

/-- Spend VC1 cells and place a packet on group `g` (R64). -/
def placeVc1 (s : State) (g : Nat) (p : List Byte) : State :=
  placePacket { s with link.vc1Avail := s.link.vc1Avail - cellsOf p.length } g p

/-- Whether a VC1 packet can be placed on group `g` now. -/
def vc1Room (s : State) (g : Nat) (p : List Byte) : Bool :=
  canPlace s g (flitsOf p) && s.link.up && s.link.cfgRx.isSome && (homeClear s || s.link.homeD != some g) && decide (cellsOf p.length ≤ s.link.vc1Avail)

/-- A completion that answers a request admitted before the link went down is discarded and counted (R134). -/
def discardPrior (s : State) (r : Req) : State :=
  sweep (setReq (s.inc F.RQE_DOM_USE_LINK_LOST 1 r.p.dom) { r with sent := true })

/-! ## Purge (R133) -/

/-- R133, step 4: the last entry of the domain has left. -/
def purgeDone (d : Nat) (s : State) : State :=
  if (s.on F.RQE_DOM_CTL_PURGE_BUSY d) ∧ rbUsed s d = 0 then (s.wr F.RQE_DOM_CTL_PURGE_BUSY 0 d).raiseG 280 .info d 0 else s

/-- Link-ready (R68, R134): two groups in each direction, the partner's pools large enough (R65), and no request left from before the loss.
A link-up after the first since cold boot restarts `ESEQ` and marks a loss (R311). -/
def linkReady (s : State) : State :=
  let pools := match s.link.cfgRx with
    | some (a, b) => decide (1024 ≤ a) && decide (64 ≤ b)
    | none => false
  let prior := s.rqe.reqs.any fun r => r.iss == .host && r.prior
  if !s.link.up && pools && !prior && decide (2 ≤ (inService s false).length) && decide (2 ≤ (inService s true).length) then
    let again := s.link.everUp
    let all (b : Bool) : SMap Bool := if b then (List.range 16).map (·, true) else s.fcr.loss
    autoBalance { s with link.up := true, link.everUp := true, fcr.eseq := if again then [] else s.fcr.eseq, fcr.loss := all again }
  else s

end Sys2Proof.Machine
end

