-- ==== Sys2Proof/Machine/Memory.lean ====
section
/-! DEFINITION. The DRAM cells behind the channels: bytes in one canonical form, metadata and stored errors, and row repair (R250). -/

namespace Sys2Proof.Machine

/-- What an unlisted byte reads as: zero, as the fill of R231 leaves it (log entry 5). -/
def memDefault : Byte := 0

/-- A byte of memory. -/
def Memory.get (m : List Host.Cell) (a : Nat) : Byte := SMap.getD m a memDefault

/-- Write a byte; writing what an unlisted address reads as removes the entry. -/
def Memory.put (m : List Host.Cell) (a : Nat) (b : Byte) : List Host.Cell := SMap.put m a memDefault b

/-- The canonical form: addresses strictly rising, no entry equal to what an unlisted address reads as. -/
def Memory.wf (m : List Host.Cell) : Bool := SMap.sorted m && m.all fun c => c.2 != memDefault

/-- Write consecutive bytes from an address. -/
def Memory.putBytes (m : List Host.Cell) (a : Nat) : List Byte → List Host.Cell
  | [] => m
  | b :: r => Memory.putBytes (Memory.put m a b) (a + 1) r

/-- Read consecutive bytes. -/
def Memory.getBytes (m : List Host.Cell) (a n : Nat) : List Byte := (List.range n).map fun k => Memory.get m (a + k)

/-- A remap entry (R250, R330): bit 15 `RV` with `RROW` in bits 14:0; 1 is an unusable spare; 0 is free. -/
def rmapKey (ch bank spare : Nat) : Nat := (ch * 128 + bank) * 32 + spare

/-- The remap entry of a spare. -/
def State.rmap (s : State) (ch bank spare : Nat) : Nat := SMap.getD s.tsv.rmap (rmapKey ch bank spare) 0

/-- The spare that replaces row `r` of a bank, if any (R250). -/
def spareOf (s : State) (ch bank r : Nat) : Option Nat := (List.range 32).find? fun k => s.rmap ch bank k == 0x8000 + r

/-- The physical row that serves row `r`: the row itself, or 32,768 plus its spare. -/
def physRow (s : State) (ch bank r : Nat) : Nat :=
  match spareOf s ch bank r with
  | some k => 32768 + k
  | none => r

/-- The number of a physical sector: channel, bank, physical row and sector in the row. -/
def physSector (ch bank prow k : Nat) : Nat := ((ch * 128 + bank) * 65536 + prow) * 16 + k

/-- The physical sector of a channel address. -/
def sectorAt (s : State) (ch c : Nat) : Nat := physSector ch (bankOf c) (physRow s ch (bankOf c) (rowOf c)) (sectorInRow c)

/-- Store a sector with fresh check bits: data, metadata and poison, and no stored error (R89, R214). -/
def State.storeSector (s : State) (ps : Nat) (x : Sector) : State :=
  { s with
    mem := Memory.putBytes s.mem (ps * 64) (slice x.data 0 64)
    memMeta := SMap.put s.memMeta ps 0 (x.md % 256)
    memErr := s.memErr.filter fun e => e.1 / 8 != ps }

/-- A sector's stored content before any error is decoded. -/
def State.rawSector (s : State) (ps : Nat) : Sector := { data := Memory.getBytes s.mem (ps * 64) 64, md := SMap.getD s.memMeta ps 0 }

/-- Invert the armed positions of the stored copy of a sector that channel `ch` writes, once (R236). -/
def inject (s : State) (ch ps : Nat) : State :=
  match s.dip.inj with
  | none => s
  | some (c, p1, p2, beat) =>
    if c ≠ ch then s else
    let m := Nat.xor (if p1 = 127 then 0 else 2 ^ p1) (if p2 = 127 then 0 else 2 ^ p2)
    { s.wr F.DIP_INJ_INJ_ARMED 0 with dip.inj := none, memErr := SMap.put s.memErr (ps * 8 + beat) 0 m }

/-- A sector reaches the DRAM cells of channel `ch`, from any requester. -/
def State.dramStore (s : State) (ch ps : Nat) (x : Sector) : State := inject (s.storeSector ps x) ch ps

/-- Write a sector of a channel to DRAM, one WR burst. A failed or untrained channel discards it (R248). -/
def State.dramWrite (s : State) (ch c : Nat) (x : Sector) : State :=
  if deadChannel s ch then s.inc F.TSV_DROP_DROP_WR 1 ch else (s.dramStore ch (sectorAt s ch c) x).inc F.DMC_WR_SECT_WR_SECT 1 ch

end Sys2Proof.Machine
end

