-- ==== Sys2Proof/Machine/Cache.lean ====
section
/-! DEFINITION. The wide cache (SCC, ch. 7): lookup, allocation, write-back, operations, faults. -/

namespace Sys2Proof.Machine

/-! ## Slices and lines -/

/-- `SSTATE` values (Table 7.10). -/
def ssOff : Nat := 0
/-- See `ssOff`. -/
def ssOn : Nat := 1
/-- See `ssOff`. -/
def ssDrain : Nat := 2
/-- See `ssOff`. -/
def ssBypass : Nat := 3
/-- See `ssOff`. -/
def ssFlush : Nat := 4
/-- See `ssOff`. -/
def ssRetain : Nat := 5

/-- `SSTATE` of a slice. -/
def State.sstate (s : State) (sl : Nat) : Nat := s.rd F.SCC_STAT_SSTATE sl

/-- The key of a line. -/
def lineKey (sl set way : Nat) : Nat := (sl * 4096 + set) * 16 + way

/-- A line. -/
def State.line (s : State) (sl set way : Nat) : Line := SMap.getD s.scc.line (lineKey sl set way) {}

/-- A way is invalid when both its sectors are I; its tag is then meaningless and not kept (R156). -/
def normLine (x : Line) : Line := if x.st0 = 0 ∧ x.st1 = 0 then {} else x

/-- The tag entry of a line as Table 7.2 lays it out. -/
def tagWord (x : Line) : Nat := x.tag + x.st0 * 2 ^ 13 + x.st1 * 2 ^ 15 + x.adom * 2 ^ 17 + b2n x.bg * 2 ^ 21

/-- A line with the tag entry that a word of Table 7.2 spells. -/
def withTag (x : Line) (w : Nat) : Line :=
  { x with tag := bits w 0 13, st0 := bits w 13 2, st1 := bits w 15 2, adom := bits w 17 4, bg := bit w 21 }

/-- Store a line, with the working and the durable copy of its tag entry in one cycle (R156). -/
def State.setLine (s : State) (sl set way : Nat) (x : Line) : State :=
  { s with
    scc.line := SMap.put s.scc.line (lineKey sl set way) {} (normLine x)
    scc.dur := SMap.put s.scc.dur (lineKey sl set way) 0 (tagWord (normLine x)) }

/-- State and content of a half of a line. -/
def Line.st (x : Line) (h : Nat) : Nat := if h = 0 then x.st0 else x.st1
/-- See `Line.st`. -/
def Line.sect (x : Line) (h : Nat) : Sector := if h = 0 then x.d0 else x.d1
/-- A line with a half changed. An invalid half keeps no data. -/
def Line.withHalf (x : Line) (h st : Nat) (d : Sector) : Line :=
  let d := if st = 2 ∨ st = 3 then d else { data := [] }
  if h = 0 then { x with st0 := st, d0 := d } else { x with st1 := st, d1 := d }

/-- The recency order of a set, least recent first (R162). -/
def State.order (s : State) (sl set : Nat) : List Nat := SMap.getD s.scc.order (sl * 4096 + set) (List.range 16)

/-- Move a way to the most-recent or the least-recent end. -/
def State.moveWay (s : State) (sl set way : Nat) (recent : Bool) : State :=
  let rest := (s.order sl set).filter (· != way)
  { s with scc.order := SMap.put s.scc.order (sl * 4096 + set) (List.range 16) (if recent then rest ++ [way] else way :: rest) }

/-- The way whose line has the tag of channel address `c` (R157). -/
def wayOf (s : State) (sl c : Nat) : Option Nat :=
  (List.range 16).find? fun w => let x := s.line sl (setOf c) w; (x.st0 != 0 || x.st1 != 0) && x.tag == tagOf c

/-- The channel address of a sector of a line. -/
def lineAddr (set tag h : Nat) : Nat := tag * 2 ^ 19 + set * 128 + h * 64

/-- Lines with a D sector (`DIRTY_LINES`) and lines with a C or D sector, of a slice. -/
def sliceLines (s : State) (sl : Nat) : List (Nat × Line) := s.scc.line.filter fun e => e.1 / 65536 == sl
/-- See `sliceLines`. -/
def dirtyLines (s : State) (sl : Nat) : Nat := ((sliceLines s sl).filter fun e => e.2.st0 == 3 || e.2.st1 == 3).length
/-- See `sliceLines`. -/
def validLines (s : State) (sl : Nat) : Nat :=
  ((sliceLines s sl).filter fun e => decide (2 ≤ e.2.st0) || decide (2 ≤ e.2.st1)).length

/-- `WT_CLEAN` (R165). -/
def wtClean (s : State) (sl : Nat) : Bool :=
  (s.on F.SCC_CTL_WT sl && dirtyLines s sl == 0) || s.sstate sl == ssBypass || s.sstate sl == ssOff

/-- Lines in the victim buffer of a slice. -/
def State.victims (s : State) (sl : Nat) : List Victim := SMap.getD s.scc.victim sl []

/-- A sector in the victim buffer (R157). -/
def victimSector (s : State) (sl c : Nat) : Option Sector :=
  (s.victims sl).findSome? fun v => if v.set == setOf c && v.tag == tagOf c then (if halfOf c = 0 then v.s0 else v.s1) else none

/-- A slice answers lookups in ON, and in DRAIN for the sectors on its drain list (Table 7.7). -/
def sliceServes (s : State) (sl : Nat) : Bool := s.sstate sl == ssOn || s.sstate sl == ssDrain

/-- The content of a sector that hits in the slice or its victim buffer (R157). -/
def cacheHit (s : State) (sl c : Nat) : Option Sector :=
  match victimSector s sl c with
  | some x => some x
  | none =>
    if !sliceServes s sl then none else
    match wayOf s sl c with
    | some w => let x := s.line sl (setOf c) w; if 2 ≤ x.st (halfOf c) then some (x.sect (halfOf c)) else none
    | none => none

/-- A sector waits for its fill (state P). -/
def fillPending (s : State) (sl c : Nat) : Bool :=
  match wayOf s sl c with
  | some w => (s.line sl (setOf c) w).st (halfOf c) == 1
  | none => false

/-! ## Allocation (R161 to R163) -/

/-- `DWAYS` of a domain. -/
def dWays (s : State) (sl d : Nat) : Nat :=
  if d % 2 = 0 then s.rd F.SCC_DOM_WAYS_DWAYS_E sl (d / 2) else s.rd F.SCC_DOM_WAYS_DWAYS_O sl (d / 2)

/-- The policy of a request as `POL_k` codes it: 0 ALL, 1 READ, 2 WRITE, 3 STREAM, 4 NONE (Table 7.6). -/
def policyOf (s : State) (sl : Nat) (r : Req) : Nat :=
  let pol (k : Nat) : Nat := match k with
    | 0 => s.rd F.SCC_POL_POL_0 sl | 1 => s.rd F.SCC_POL_POL_1 sl | 2 => s.rd F.SCC_POL_POL_2 sl | 3 => s.rd F.SCC_POL_POL_3 sl
    | 4 => s.rd F.SCC_POL_POL_4 sl | 5 => s.rd F.SCC_POL_POL_5 sl | 6 => s.rd F.SCC_POL_POL_6 sl | _ => s.rd F.SCC_POL_POL_7 sl
  if r.iss ≠ .host then pol 7
  else match (s.ctx r.p.bow).alloc with
    | 0 => pol (s.ctx r.p.bow).cls
    | 1 => 0
    | 2 => 3
    | _ => 4

/-- Whether a miss may allocate (R161). -/
def allocates (s : State) (sl : Nat) (r : Req) (isWrite : Bool) : Bool :=
  s.on F.SCC_CTL_ALLOC_EN sl && s.sstate sl == ssOn && !(r.iss == .host && r.p.na) && (r.op == .rd || r.op == .wr) &&
  (match policyOf s sl r with
   | 0 => true | 1 => !isWrite | 2 => isWrite | 3 => true | _ => false)

/-- The ways a host allocation may take (R162, step 1). -/
def hostWays (s : State) (sl set d : Nat) : List Nat :=
  (List.range 16).filter fun w =>
    bit (dWays s sl d) w && !bit (s.rd F.SCC_WAYS_WAY_DIS sl) w && !((s.line sl set w).st0 == 1 || (s.line sl set w).st1 == 1)

/-- The ways background allocation may take (R163). -/
def bgWays (s : State) (sl set : Nat) : List Nat :=
  (List.range 16).filter fun w =>
    let x := s.line sl set w
    bit (s.rd F.SCC_WAYS_BG_WAYS sl) w && !bit (s.rd F.SCC_WAYS_WAY_DIS sl) w && !(x.st0 == 1 || x.st1 == 1) &&
    ((x.st0 == 0 && x.st1 == 0) || (x.bg && x.st0 != 3 && x.st1 != 3))

/-- The victim among some ways: the lowest-numbered invalid one, else the first in the recency order. -/
def pickVictim (s : State) (sl set : Nat) (ws : List Nat) : Option Nat :=
  match ws.find? fun w => (s.line sl set w).st0 == 0 && (s.line sl set w).st1 == 0 with
  | some w => some w
  | none => (s.order sl set).find? (ws.contains ·)

/-- Empty a way for a new line: D sectors go to the victim buffer (Table 7.4). -/
def evict (s : State) (sl set w : Nat) : State :=
  let x := s.line sl set w
  let v : Victim := { set := set, tag := x.tag, ord := s.rqe.nextId, s0 := if x.st0 = 3 then some x.d0 else none, s1 := if x.st1 = 3 then some x.d1 else none }
  let s := if x.st0 = 3 ∨ x.st1 = 3 then { s with scc.victim := SMap.put s.scc.victim sl [] (s.victims sl ++ [v]) } else s
  s.setLine sl set w {}

/-- Allocate a way for the line of `c` (R161 to R163): the way of a line already present is used as it is, unless it is disabled (R172). None when nothing
may be taken. -/
def allocate (s : State) (sl c : Nat) (r : Req) : State × Option Nat :=
  let set := setOf c
  let fail (s : State) : State × Option Nat := (s.inc F.SCC_ALLOC_FAIL_ALLOC_FAIL 1 sl, none)
  match wayOf s sl c with
  | some w => (s, if bit (s.rd F.SCC_WAYS_WAY_DIS sl) w then none else some w)
  | none =>
    let host := r.iss == .host
    match pickVictim s sl set (if host then hostWays s sl set r.p.dom else bgWays s sl set) with
    | none => fail s
    | some w =>
      let x := s.line sl set w
      if (x.st0 = 3 ∨ x.st1 = 3) ∧ ((s.victims sl).length ≥ 32 ∨ s.rd F.DMC_WQ_WQ_CAP sl ≤ wqUsed s sl) then fail s
      else
        let s := evict s sl set w
        let s := { s with scc.line := SMap.set s.scc.line (lineKey sl set w) { tag := tagOf c, adom := r.p.dom, bg := !host } }
        let s := if host then s.moveWay sl set w (policyOf s sl r != 3) else s
        (s, some w)

/-- A host hit moves its way to the most-recent end (R162). -/
def touchWay (s : State) (sl c : Nat) (r : Req) : State :=
  match wayOf s sl c with
  | some w => if r.iss = .host then s.moveWay sl (setOf c) w true else s
  | none => s

/-- Every write into the slice is also written to DRAM (R165). -/
def writesThrough (s : State) (sl : Nat) : Bool := s.on F.SCC_CTL_WT sl

/-- Write a sector that the slice holds, or that was allocated: D, or C where it is written through (R158, R165). The DRAM write of a sector that is written
through is the caller's to queue. -/
def cacheWrite (s : State) (sl w c : Nat) (x : Sector) : State :=
  let l := s.line sl (setOf c) w
  s.setLine sl (setOf c) w (l.withHalf (halfOf c) (if writesThrough s sl then 2 else 3) x)

/-- Update a sector held in the victim buffer (R158). -/
def victimWrite (s : State) (sl c : Nat) (x : Sector) : State :=
  let upd (v : Victim) : Victim :=
    if v.set = setOf c ∧ v.tag = tagOf c then (if halfOf c = 0 then { v with s0 := v.s0.map fun _ => x } else { v with s1 := v.s1.map fun _ => x }) else v
  { s with scc.victim := SMap.put s.scc.victim sl [] ((s.victims sl).map upd) }

/-! ## Write-back, operations, drain (R164, R166, R169, R173) -/

/-- Write back a D sector of a line and leave it in a state: 2 C or 0 I. -/
def cleanHalf (s : State) (sl set w h next : Nat) : State :=
  let x := s.line sl set w
  if x.st h = 3 then
    let s := s.dramWrite sl (lineAddr set x.tag h) (x.sect h)
    (s.setLine sl set w (x.withHalf h next (x.sect h))).inc F.SCC_WB_WB_SECT 1 sl
  else if x.st h = 2 ∧ next = 0 then s.setLine sl set w (x.withHalf h 0 (x.sect h))
  else s

/-- Clean both halves of a way of a set. -/
def cleanLine (s : State) (sl set w next : Nat) : State := cleanHalf (cleanHalf s sl set w 0 next) sl set w 1 next

/-- The listed lines of a slice that a test selects, in way-major order, ascending set within each way (R166). -/
def selectLines (s : State) (sl : Nat) (p : Nat → Line → Bool) : List (Nat × Nat) :=
  (List.range 16).flatMap fun w => ((sliceLines s sl).filter fun e => e.1 % 16 == w && p w e.2).map fun e => (e.1 / 16 % 4096, w)

/-- Clean every selected line. -/
def cleanLines (s : State) (sl next : Nat) (ls : List (Nat × Nat)) : State := ls.foldl (fun t e => cleanLine t sl e.1 e.2 next) s

/-- The lines in an operation's scope (R166). -/
def inScope (o : SliceOp) (w : Nat) (x : Line) : Bool :=
  match o.scope with
  | 0 => true
  | 1 => x.adom == o.odom && !x.bg
  | _ => bit o.ways w

/-- Start an operation (R166): BUSY while one runs, STATE unless the slice is in ON or DRAIN. -/
def startOp (s : State) (sl : Nat) (o : SliceOp) : Code × State :=
  if !(s.sstate sl == ssOn || s.sstate sl == ssDrain) then (.state, s)
  else if (SMap.get? s.scc.op sl).isSome then (.busy, s)
  else (.ok, { s with scc.op := SMap.set s.scc.op sl o })

/-- A line with a D sector. -/
def Line.dirty (x : Line) : Bool := x.st0 == 3 || x.st1 == 3

/-- The halves of a line that are not D become I. -/
def dropClean (s : State) (sl : Nat) (ls : List (Nat × Nat)) : State :=
  ls.foldl (fun t e =>
    let x := t.line sl e.1 e.2
    let x := if x.st0 = 3 then x else x.withHalf 0 0 x.d0
    let x := if x.st1 = 3 then x else x.withHalf 1 0 x.d1
    t.setLine sl e.1 e.2 x) s

/-- The first D sector among some lines: set, way, half. -/
def firstDirty (s : State) (sl : Nat) (ls : List (Nat × Nat)) : Option (Nat × Nat × Nat) :=
  ls.findSome? fun e =>
    let x := s.line sl e.1 e.2
    if x.st0 = 3 then some (e.1, e.2, 0) else if x.st1 = 3 then some (e.1, e.2, 1) else none

/-- The next D sector on an operation's walk (R166). -/
def opNext (s : State) (sl : Nat) (o : SliceOp) : Option (Nat × Nat × Nat) :=
  firstDirty s sl ((selectLines s sl fun w x => inScope o w x && x.dirty).filter fun e => decide (o.pos ≤ e.2 * 4096 + e.1))

/-- The write-back that a slice wants next as class 7 traffic, and the state it leaves: of a retired way (R172), of an operation (R166), of the drain list or a
flush (R169, R173). -/
def walkNext (s : State) (sl : Nat) : Option ((Nat × Nat × Nat) × Nat) :=
  let st := s.sstate sl
  if st = ssOff ∨ st = ssRetain then none else
  match firstDirty s sl (selectLines s sl fun w x => bit (s.rd F.SCC_WAYS_WAY_DIS sl) w && x.dirty) with
  | some e => some (e, 0)
  | none =>
    if st = ssDrain ∨ st = ssFlush then (firstDirty s sl (selectLines s sl fun _ x => x.dirty)).map fun e => (e, 0) else
    match SMap.get? s.scc.op sl with
    | some o => (opNext s sl o).map fun e => (e, if o.inv then 0 else 2)
    | none => none

/-- A write-back of the walk issues: the sector reaches DRAM, and the walk moves on. -/
def walkIssue (s : State) (sl : Nat) (e : Nat × Nat × Nat) (next : Nat) : State :=
  let s := cleanHalf s sl e.1 e.2.1 e.2.2 next
  match SMap.get? s.scc.op sl with
  | some o => if inScope o e.2.1 (s.line sl e.1 e.2.1) then { s with scc.op := SMap.set s.scc.op sl { o with pos := max o.pos (e.2.1 * 4096 + e.1) } } else s
  | none => s

/-- An operation ends its walk (R166) once no D sector lies before it: with `inv` what is not D becomes I, and `OPS_BUSY` clears. The write-backs to a channel
that serves nothing are discarded at once (R248). -/
def opComplete (sl : Nat) (s : State) : State :=
  match SMap.get? s.scc.op sl with
  | none => s
  | some o =>
    if !(s.sstate sl == ssOn || s.sstate sl == ssDrain) then s else
    let s := if deadChannel s sl then cleanLines s sl (if o.inv then 0 else 2) (selectLines s sl (inScope o)) else s
    if (opNext s sl o).isSome then s else
    let s := if o.inv then dropClean s sl (selectLines s sl (inScope o)) else s
    ({ s with scc.op := SMap.erase s.scc.op sl }.wr F.SCC_OPS_STAT_OPS_RES Code.ok.num sl).inc F.SCC_OPS_STAT_OPS_CNT 1 sl

/-- Abandon an operation with `OPS_RES` = STATE (R167, R169, Table 7.8). -/
def abandonOp (s : State) (sl : Nat) : State :=
  match SMap.get? s.scc.op sl with
  | none => s
  | some _ => { s with scc.op := SMap.erase s.scc.op sl }.wr F.SCC_OPS_STAT_OPS_RES Code.state.num sl

/-- Make every sector of a slice that is not D invalid: what remains is the drain list (Table 7.7). -/
def keepDirty (s : State) (sl : Nat) : State := dropClean s sl (selectLines s sl fun _ _ => true)

/-- Write back a sector of the victim buffer, if the line holds it (R164). -/
def victimOut (s : State) (sl : Nat) (v : Victim) (h : Nat) (o : Option Sector) : State :=
  match o with
  | some x => (s.dramWrite sl (lineAddr v.set v.tag h) x).inc F.SCC_WB_WB_SECT 1 sl
  | none => s

/-- Every D sector of a slice is written back and every sector is I; the victim buffer empties first (R169, Table 7.7). -/
def flushSlice (s : State) (sl : Nat) : State :=
  let s := (s.victims sl).foldl (fun t v => victimOut (victimOut t sl v 0 v.s0) sl v 1 v.s1) s
  let s := cleanLines s sl 0 (selectLines s sl fun _ _ => true)
  { s with
    scc.victim := SMap.erase s.scc.victim sl
    scc.line := s.scc.line.filter fun e => e.1 / 65536 != sl
    scc.dur := s.scc.dur.filter fun e => e.1 / 65536 != sl }

/-- Begin the drain to BYPASS (Table 7.7, and a write of `BYPASS` = 1): an operation in progress ends with STATE. -/
def startDrain (s : State) (sl : Nat) : State := (keepDirty (abandonOp s sl) sl).wr F.SCC_STAT_SSTATE ssDrain sl

/-- Both copies of a tag entry are lost, and with them its line (R173): which entry is a free value. -/
def loseLine (s : State) (sl : Nat) : State :=
  let (v, s) := s.draw
  s.setLine sl (v % 4096) (v / 4096 % 16) {}

/-- A slice is faulted (R173): cause 1 crossing, 2 timeout, 3 ways disabled, 4 tag copies lost, 5 BIST. A slice found faulty by BIST starts in BYPASS;
in a power-fail flush the flush takes the drain list, and an operation ends with STATE (Table 7.8). -/
def sliceFault (sl cause : Nat) (s : State) : State :=
  if s.on F.SCC_STAT_SFAULT sl || s.sstate sl == ssOff then s else
  let clean := dirtyLines s sl == 0 || wtClean s sl
  let sev : Sev := if cause = 4 ∧ ¬ clean then .fatal else .fault
  let s := ((s.wr F.SCC_STAT_SFAULT 1 sl).wr F.SCC_STAT_FCAUSE cause sl).raiseG 263 sev sl cause
  let s := if cause = 4 then loseLine s sl else s
  if cause = 5 ∨ s.sstate sl = ssBypass then s.wr F.SCC_STAT_SSTATE ssBypass sl
  else if s.sstate sl = ssDrain then abandonOp s sl
  else if s.sstate sl = ssFlush then keepDirty (abandonOp s sl) sl
  else startDrain s sl

/-- The drain list is empty and the slice enters BYPASS (Table 7.7). The list of a channel that serves nothing is discarded (R248). -/
def drainComplete (sl : Nat) (s : State) : State :=
  if s.sstate sl ≠ ssDrain ∨ (¬ deadChannel s sl ∧ (dirtyLines s sl ≠ 0 ∨ s.victims sl ≠ [])) then s
  else (flushSlice s sl).wr F.SCC_STAT_SSTATE ssBypass sl

/-- Retire a way (R172): its D sectors are written back and every other sector is I; at `DIS_LIM` the slice is faulted. -/
def retireWay (s : State) (sl w : Nat) : State :=
  let d := s.rd F.SCC_WAYS_WAY_DIS sl
  if bit d w then s else
  let s := (s.wr F.SCC_WAYS_WAY_DIS (setBit d w) sl)
  let ls := selectLines s sl fun v _ => v == w
  let s := if deadChannel s sl then cleanLines s sl 0 ls else dropClean s sl ls
  let s := s.raiseG 264 .warn sl w
  if popCount (s.rd F.SCC_WAYS_WAY_DIS sl) 16 ≥ s.rd F.SCC_CTL_DIS_LIM sl then sliceFault sl 3 s else s

/-- Count an uncorrectable read of a way (R171, R172): `UE_THR` of them within 1 s retire it. -/
def countSliceUe (s : State) (sl set w : Nat) : State :=
  let s := ((s.inc F.SCC_FAULT_UE_CNT 1 sl).wr F.SCC_FAULT_UE_WAY w sl).wr F.SCC_FAULT_UE_SET set sl
  let k := sl * 16 + w
  let ts := ((SMap.getD s.scc.ueWay k []).filter fun t => decide (s.now < t + second)) ++ [s.now]
  let s := { s with scc.ueWay := SMap.set s.scc.ueWay k ts }
  if ts.length ≥ s.rd F.SCC_CTL_UE_THR sl then retireWay { s with scc.ueWay := SMap.erase s.scc.ueWay k } sl w else s

/-- The outcome of decoding a sector read from the slice (R171): 0 good, 1 corrected and rewritten, 2 uncorrectable. An uncorrectable C sector is
made I; an uncorrectable D sector is made I and written to DRAM poisoned with zero data. -/
def sliceDecode (sl set w h out : Nat) (s : State) : State :=
  let x := s.line sl set w
  if out ≠ 2 ∨ x.st h < 2 then s else
  let s := if x.st h = 3 then s.dramWrite sl (lineAddr set x.tag h) poisoned0 else s
  countSliceUe (s.setLine sl set w (x.withHalf h 0 (x.sect h))) sl set w

/-- The WR of a sector in the victim buffer issues (R164): what the buffer holds reaches DRAM. -/
def victimIssue (s : State) (sl : Nat) (v : Victim) (h : Nat) : State :=
  let s := victimOut s sl v h (if h = 0 then v.s0 else v.s1)
  let done (u : Victim) : Victim := if u = v then (if h = 0 then { u with s0 := none } else { u with s1 := none }) else u
  { s with scc.victim := SMap.put s.scc.victim sl [] ((s.victims sl).map done) }

/-- The oldest line of the victim buffer whose DRAM writes are done leaves (R164). A channel that serves nothing discards them (R248). -/
def victimDone (sl : Nat) (s : State) : State :=
  let s := if deadChannel s sl then match s.victims sl with
      | [] => s
      | v :: r => { victimOut (victimOut s sl v 0 v.s0) sl v 1 v.s1 with scc.victim := SMap.put s.scc.victim sl [] ({ v with s0 := none, s1 := none } :: r) }
    else s
  match (s.victims sl).find? fun v => v.s0.isNone && v.s1.isNone with
  | none => s
  | some v => { s with scc.victim := SMap.put s.scc.victim sl [] ((s.victims sl).erase v) }

/-- A copy of a tag entry that cannot be corrected is rewritten from the other (R156): `kind` 1 the working copy, 2 the durable one. -/
def tagFix (s : State) (sl set w kind : Nat) : State :=
  let x := s.line sl set w
  let k := lineKey sl set w
  if kind = 1 then { s with scc.line := SMap.put s.scc.line k {} (normLine (withTag x (SMap.getD s.scc.dur k 0))) }.inc F.SCC_FAULT_TAG_FIX 1 sl
  else { s with scc.dur := SMap.put s.scc.dur k 0 (tagWord x) }.inc F.SCC_FAULT_TAG_FIX 1 sl

/-- What a lookup of the set of `c` finds of its tag copies (R156, R173): `kind` 0 nothing, 1 a working copy and 2 a durable copy that cannot be corrected.
Which way's entry it is is a free value. -/
def tagLookup (s : State) (sl c kind : Nat) : State :=
  if kind = 0 ∨ 3 ≤ kind then s else
  let (v, s) := s.draw
  tagFix s sl (setOf c) (v % 16) kind

/-- The working copies of a slice are rebuilt from the durable ones (R167, R168). -/
def rebuildTags (s : State) (sl : Nat) : State :=
  (selectLines s sl fun _ _ => true).foldl (fun t e =>
    let k := lineKey sl e.1 e.2
    { t with scc.line := SMap.put t.scc.line k {} (normLine (withTag (t.line sl e.1 e.2) (SMap.getD t.scc.dur k 0))) }) s

/-- A fill arrives for a P sector (Table 7.4): C with its data, or I when it is uncorrectable. -/
def fillSector (s : State) (sl c : Nat) (x : Option Sector) : State :=
  match wayOf s sl c with
  | none => s
  | some w =>
    let l := s.line sl (setOf c) w
    if l.st (halfOf c) ≠ 1 then s else
    match x with
    | some d => s.setLine sl (setOf c) w (l.withHalf (halfOf c) 2 d)
    | none => s.setLine sl (setOf c) w (l.withHalf (halfOf c) 0 zeroSector)

/-- Every P sector becomes I (warm reset, slice fault, power-fail flush). -/
def dropFills (s : State) (sl : Nat) : State :=
  (selectLines s sl fun _ x => x.st0 == 1 || x.st1 == 1).foldl (fun t e =>
    let x := t.line sl e.1 e.2
    let x := if x.st0 = 1 then x.withHalf 0 0 x.d0 else x
    let x := if x.st1 = 1 then x.withHalf 1 0 x.d1 else x
    t.setLine sl e.1 e.2 x) s

/-- The crossing's replica path moves a code by at most one step; a margin below the limit is a slice fault (R170). `dir` per code: 0 stay, 1 up, 2 down. -/
def crossingTrack (sl dclk drd dwr margin : Nat) (s : State) : State :=
  if s.sstate sl = ssOff ∨ s.sstate sl = ssRetain then s else
  let step (v d : Nat) : Nat := if d = 1 then min (v + 1) 63 else if d = 2 then v - 1 else v
  let s := s.wr F.SCC_XING_CLK_DLY (step (s.rd F.SCC_XING_CLK_DLY sl) dclk) sl
  let s := s.wr F.SCC_XING_RD_DLY (step (s.rd F.SCC_XING_RD_DLY sl) drd) sl
  let s := s.wr F.SCC_XING_WR_DLY (step (s.rd F.SCC_XING_WR_DLY sl) dwr) sl
  let s := s.wr F.SCC_XING_STAT_MARGIN margin sl
  let s := if margin < s.rd F.SCC_XING_STAT_MARGIN_MIN sl then s.wr F.SCC_XING_STAT_MARGIN_MIN margin sl else s
  if margin < s.rd F.SCC_XING_STAT_MARGIN_LIM sl then sliceFault sl 1 s else s

/-- The scopes of Table 7.12 as an operation. -/
def sliceOpOf (op scope odom ways : Nat) : SliceOp := { inv := op == 2, scope := scope, odom := odom, ways := ways }

end Sys2Proof.Machine
end

