-- ==== Sys2Proof/Machine/Integrity.lean ====
section
/-! DEFINITION. Data integrity (DIP, ch. 10): the BCH code, decoding with dead positions, records, thresholds and the hand-over to row repair. -/

namespace Sys2Proof.Machine

/-! ## The code (R214 to R219) -/

/-- The generator g(x) (R214). -/
def bchG : Nat := 0xC599

/-- The remainder of a polynomial of degree below `n + 15` by g(x). -/
def bchRem : Nat → Nat → Nat
  | 0, v => v
  | n + 1, v => bchRem n (if bit v (n + 15) then Nat.xor v (bchG * 2 ^ n) else v)

/-- The codeword of 65 information bits (R215). -/
def bchEnc (m : Nat) : Nat := m * 2 ^ 15 + bchRem 65 (m * 2 ^ 15)

/-- Multiply by α in GF(2^7), with α^7 = α^3 + 1 (R214). -/
def gfAlpha (v : Nat) : Nat := if v < 64 then 2 * v else Nat.xor (2 * v - 128) 9

/-- α^n. -/
def apow (n : Nat) : Nat := (List.range (n % 127)).foldl (fun v _ => gfAlpha v) 1

/-- The logarithm of a non-zero element; 127 for zero. -/
def alog (v : Nat) : Nat := ((List.range 127).find? fun n => apow n == v).getD 127

/-- The value of a word at α^m: the sum of α^(m·n) over its positions. -/
def synd (r m : Nat) : Nat := (onesOf r 80).foldl (fun v n => Nat.xor v (apow (m * n))) 0

/-- The syndrome word `SYND` (R218). -/
def syndWord (r : Nat) : Nat := synd r 1 + synd r 3 * 128 + popCount r 80 % 2 * 2 ^ 14

/-- What decoding a word gives (R219): the corrected positions, or uncorrectable. -/
inductive Dec where
  | clean
  | fix (ps : List Nat)
  | ue
  deriving DecidableEq, Repr

/-- R219's decode. -/
def bchDec (r : Nat) : Dec :=
  let s1 := synd r 1
  let s3 := synd r 3
  let odd := popCount r 80 % 2 == 1
  if s1 = 0 ∧ s3 = 0 ∧ !odd then .clean
  else
    let l1 := alog s1
    if odd then (if s1 ≠ 0 ∧ s3 = apow (3 * l1) ∧ l1 < 80 then .fix [l1] else .ue)
    else if s1 = 0 then .ue
    else
      let d := Nat.xor s3 (apow (3 * l1))
      if d = 0 then .ue
      else
        let c := apow (alog d + 127 * 3 - 3 * l1)
        -- y^2 + y = c has a root exactly when the trace of c is 0
        match (List.range 127).find? fun y => Nat.xor (apow (2 * y)) (apow y) == c with
        | none => .ue
        | some y =>
          let i := (l1 + y) % 127
          let y1 := Nat.xor (apow y) 1
          if y1 = 0 then .ue else
          let j := (l1 + alog y1) % 127
          if i ≥ 80 ∨ j ≥ 80 then .ue else .fix (if i < j then [i, j] else [j, i])

/-- The information bits of beat `k` of a sector (R216). -/
def beatInfo (x : Sector) (k : Nat) : Nat := leAt x.data (8 * k) 8 + b2n (bit x.md k) * 2 ^ 64

/-- A word with positions flipped. -/
def flips (r : Nat) (ps : List Nat) : Nat := ps.foldl (fun v p => Nat.xor v (2 ^ p)) r

/-- A word with positions read as 0 (R248). -/
def blanked (r : Nat) (dead : List Nat) : Nat := dead.foldl clrBit r

/-- One decoded beat: what decoding found outside the dead positions (R220), its syndrome word, and the information bits. -/
structure Beat where
  k : Nat
  dec : Dec
  synd : Nat
  info : Nat
  deriving DecidableEq, Repr

/-- Read one beat: stored codeword, stored and transient errors, dead positions, decode (R219, R220). -/
def readBeat (x : Sector) (dead : List Nat) (err k : Nat) : Beat :=
  let w := bchEnc (beatInfo x k)
  let r := blanked (Nat.xor w (err % 2 ^ 80)) dead
  if r = w then { k := k, dec := .clean, synd := 0, info := beatInfo x k } else
  match bchDec r with
  | .clean => { k := k, dec := .clean, synd := 0, info := r / 2 ^ 15 }
  | .fix ps =>
    let seen := ps.filter fun p => !dead.contains p
    { k := k, dec := if seen.isEmpty then .clean else .fix seen, synd := syndWord r, info := flips r ps / 2 ^ 15 }
  | .ue => { k := k, dec := .ue, synd := syndWord r, info := r / 2 ^ 15 }

/-- The eight beats of a sector. -/
def readBeats (x : Sector) (dead : List Nat) (err : Nat → Nat) : List Beat := (List.range 8).map fun k => readBeat x dead (err k) k

/-- The sector that decoded beats carry. -/
def beatsSector (bs : List Beat) : Sector :=
  { data := bs.flatMap fun b => leBytes 8 b.info, md := maskOf ((bs.filter fun b => bit b.info 64).map (·.k)) }

/-- A sector's outcome (R221): uncorrectable, corrected, or clean. -/
def beatsCode (bs : List Beat) : Code :=
  if bs.any (·.dec == .ue) then .uncorrectable else if bs.all (·.dec == .clean) then .ok else .okCorrected

/-! ## Lines and dead positions (R240, R248) -/

/-- A channel's line state. -/
def State.tsvCh (s : State) (ch : Nat) : TsvCh := SMap.getD s.tsv.ch ch {}

/-- Store a channel's line state. -/
def State.setTsv (s : State) (ch : Nat) (x : TsvCh) : State := { s with tsv.ch := SMap.put s.tsv.ch ch {} x }

/-- The line that carries position `n`, 127 if none. -/
def State.lineOf (s : State) (ch n : Nat) : Nat := SMap.getD (s.tsvCh ch).map n n

/-- The dead positions of a channel. -/
def deadPos (s : State) (ch : Nat) : List Nat := (((s.tsvCh ch).map).filter fun e => e.2 == 127).map (·.1)

/-! ## Hand-over to row repair (R251) -/

/-- The row is queued or under repair. -/
def rprKnown (s : State) (ch bank r : Nat) : Bool :=
  s.tsv.rprQ.contains (ch, bank, r) || (match (s.tsvCh ch).cur with
    | some (b, q, _) => b == bank && q == r
    | none => false)

/-- Channel `ch` is the source of a fold that has begun. -/
def foldSource (s : State) (ch : Nat) : Bool := decide (fClean ≤ s.fstate) && s.rd F.TSV_FOLD_STAT_FOLDED_CH == ch

/-- Queue a row: the answer of `RPR_GO` (Table 11.16). -/
def rprQueue (s : State) (ch bank r : Nat) : Code × State :=
  if tstate s ch ≥ 5 ∨ foldSource s ch then (.state, s)
  else if rprKnown s ch bank r then (.ok, s)
  else if (s.tsv.rprQ.filter (·.1 == ch)).length ≥ 8 then (.busy, s)
  else (.ok, { s with tsv.rprQ := s.tsv.rprQ ++ [(ch, bank, r)] })

/-- The logical row behind a physical row, if any: a spare serves the row of its entry (R251). -/
def logicalRow (s : State) (ch bank prow : Nat) : Option Nat :=
  if prow < 32768 then some prow
  else
    let e := s.rmap ch bank (prow - 32768)
    if e ≥ 0x8000 then some (e - 0x8000) else none

/-- A hand-over by hardware: dropped when the queue is full (R251). The answer says whether the row was new. -/
def handOver (s : State) (ch bank prow : Nat) : State × Bool :=
  match logicalRow s ch bank prow with
  | none => (s, false)
  | some r => if rprKnown s ch bank r then (s, false) else ((rprQueue s ch bank r).2, true)

/-! ## Error records (R233, R234) -/

/-- What a record says of the place and the requester of a read (Table 10.5). -/
structure Where where
  ch : Nat := 0
  src : Nat := 0
  req : Nat := 0
  rank : Nat := 0
  loc : Nat := 0
  bank : Nat := 0
  sect : Nat := 0
  dom : Option Nat := none
  deriving DecidableEq, Repr

/-- `EKIND` of a decode. -/
def eKind : Dec → Nat
  | .fix [_] => 0
  | .fix _ => 1
  | _ => 2

/-- Corrected positions, 127 if none. -/
def posOf (d : Dec) (n : Nat) : Nat := match d with
  | .fix ps => ps.getD n 127
  | _ => 127

/-- The four words of a record. -/
def errRecord (s : State) (w : Where) (b : Beat) (trig : Nat) : List Nat :=
  [b.synd + b.k * 2 ^ 15 + w.src * 2 ^ 18 + eKind b.dec * 2 ^ 21 + w.ch * 2 ^ 23 + w.req * 2 ^ 28,
   posOf b.dec 0 + posOf b.dec 1 * 2 ^ 7 + w.rank * 2 ^ 14 + w.loc % 65536 * 2 ^ 16,
   w.bank + w.sect * 2 ^ 5 + w.dom.getD 0 * 2 ^ 9 + b2n w.dom.isSome * 2 ^ 13 + trig * 2 ^ 14,
   s.uptime % 2 ^ 32]

/-- Place a record in the log (R234). -/
def dipLog (s : State) (rec' : List Nat) : State :=
  if s.dip.log.length ≥ 64 then s.wr F.DIP_LOG_STAT_LOG_OVF 1
  else { s.inc F.DIP_LOG_STAT_LOG_TOTAL with dip.log := s.dip.log ++ [rec'] }

/-- Raise a channel source with a record as its syndrome (R233, R308). -/
def raiseRec (s : State) (src : Nat) (v : Sev) (rec' : List Nat) : State := s.raise src v rec'

/-- Record and raise a trigger of R235. -/
def dipTrigger (s : State) (w : Where) (b : Beat) (trig : Nat) : State :=
  let r := errRecord s w b trig
  raiseRec (dipLog s r) (6 * w.ch) .warn r

/-! ## Thresholds (R235) -/

/-- The channel's 1 s window: count a corrected codeword, and trigger once when it reaches `CE_THR`. -/
def ceRate (s : State) (w : Where) (b : Beat) : State :=
  let old := SMap.getD s.dip.ceWin w.ch (0, s.now, false)
  let fresh := decide (old.2.1 + second ≤ s.now)
  let n := if fresh then 1 else old.1 + 1
  let t0 := if fresh then s.now else old.2.1
  let done := !fresh && old.2.2
  let hit := !done && decide (s.rd F.DIP_THR_CE_THR ≤ n)
  let s := { s with dip.ceWin := SMap.set s.dip.ceWin w.ch (n, t0, done || hit) }
  if hit then dipTrigger s w b 1 else s

/-- The suspect positions of a channel. -/
def suspects (s : State) (ch : Nat) : List Nat := SMap.getD s.dip.susp ch []

/-- Single corrections at a position in the current 1 ms window. -/
def posCount (s : State) (ch p : Nat) : Nat := SMap.getD s.dip.pos (ch * 128 + p) 0

/-- The suspect position with the highest count goes to `SUSP_POS`. -/
def showSuspect (s : State) (ch : Nat) : State :=
  let top := (suspects s ch).foldl (fun a p => if a = 127 ∨ posCount s ch a < posCount s ch p then p else a) 127
  s.wr F.DIP_POS_SUSP_POS top ch

/-- A new suspect position is offered to dead-line detection: a fast swap starts, or waits for a shadow, or for the check of R247 (R246). -/
def fastStart (s : State) (ch n : Nat) : State :=
  let t := s.tsvCh ch
  let shadow := s.rd F.TSV_STAT_SHADOW_PHY ch
  if t.step.any (·.fast) then s
  else if shadow ≠ 127 then
    if s.on F.TSV_CTL_FAST_EN ch then
      (s.wr F.TSV_STAT_CAL_BUSY 1 ch).setTsv ch { t with step := some { line := s.lineOf ch n, pos := some n, fast := true } }
    else s
  else s.setTsv ch { t with fastWait := some n }

/-- Count a single-bit correction at a position; at `POS_THR` it becomes suspect. -/
def posHit (s : State) (w : Where) (b : Beat) (p : Nat) : State :=
  let n := posCount s w.ch p + 1
  let s := { s with dip.pos := SMap.set s.dip.pos (w.ch * 128 + p) n }
  if n ≥ s.rd F.DIP_THR_POS_THR ∧ ¬ (suspects s w.ch).contains p then
    let s := showSuspect { s with dip.susp := SMap.set s.dip.susp w.ch (suspects s w.ch ++ [p]) } w.ch
    fastStart (dipTrigger s w b 3) w.ch p
  else s

/-- A 1 ms window of a channel ends: positions below `POS_THR` stop being suspect, and `TOP_POS` and `TOP_CNT` are set. -/
def windowEnd (ch : Nat) (s : State) : State :=
  let keep := (suspects s ch).filter fun p => decide (s.rd F.DIP_THR_POS_THR ≤ posCount s ch p)
  let top := (List.range 80).foldl (fun a p => if posCount s ch p > (if a = 127 then 0 else posCount s ch a) then p else a) 127
  let cnt := if top = 127 then 0 else min 255 (posCount s ch top)
  let s := showSuspect { s with dip.susp := SMap.put s.dip.susp ch [] keep } ch
  { (s.wr F.DIP_POS_TOP_POS top ch).wr F.DIP_POS_TOP_CNT cnt ch with
    dip.pos := s.dip.pos.filter fun e => e.1 / 128 != ch }

/-- The row tracker: set the location's bit, and hand the row over at `ROW_CE_THR` bits or at a two-bit correction. -/
def trackRow (s : State) (w : Where) (b : Beat) : State :=
  let ps := match b.dec with
    | .fix ps => ps
    | _ => []
  if ps.all (suspects s w.ch).contains then s else
  let bank := w.rank * 32 + w.bank
  let es := SMap.getD s.dip.rows w.ch []
  let loc := w.sect * 8 + b.k
  let known := es.find? fun e => e.1 == bank && e.2.1 == w.loc
  let m := setBit (match known with
    | some e => e.2.2
    | none => 0) loc
  let rest := es.filter fun e => !(e.1 == bank && e.2.1 == w.loc)
  let put (s : State) (l : List (Nat × Nat × Nat)) : State := { s with dip.rows := SMap.put s.dip.rows w.ch [] l }
  if popCount m 128 ≥ s.rd F.DIP_CTL_ROW_CE_THR ∨ (ps.length = 2 ∧ s.on F.DIP_CTL_ROW_2BIT) then
    let (s, new) := handOver (put s rest) w.ch bank w.loc
    if new then dipTrigger (s.inc F.DIP_POS_ROW_TRIG 1 w.ch) w b 2 else s
  else
    match known with
    | some _ => put s (es.map fun e => if e.1 = bank ∧ e.2.1 = w.loc then (e.1, e.2.1, m) else e)
    | none =>
      if es.length < 32 then put s (es ++ [(bank, w.loc, m)])
      else
        -- the entry with the fewest bits set, the oldest among equals, gives way
        let least := es.foldl (fun a e => if popCount e.2.2 128 < popCount a.2.2 128 then e else a) (es.headD (0, 0, 0))
        put s (es.erase least ++ [(bank, w.loc, m)])

/-! ## Reporting the beats of a read (R221, R234, R235) -/

/-- One decoded beat of a sector: counts, records, thresholds, events. Verify results feed no threshold (R232). -/
def reportBeat (s : State) (w : Where) (b : Beat) : State :=
  match b.dec with
  | .clean => s
  | .ue =>
    let s := s.inc F.DIP_UE_UE_CNT 1 w.ch
    let r := errRecord s w b 0
    let s := dipLog s r
    if w.src = 6 then s else raiseRec s (6 * w.ch + 1) .degrade r
  | .fix ps =>
    let s := s.inc F.DIP_CE_CE_CNT 1 w.ch
    let due := match SMap.get? s.dip.lastCe w.ch with
      | none => true
      | some t => decide (t + msec ≤ s.now)
    let s := if due then { dipLog s (errRecord s w b 0) with dip.lastCe := SMap.set s.dip.lastCe w.ch s.now } else s
    if w.req = 5 then s else
    let s := ceRate s w b
    if w.src ≠ 0 then s else
    let s := if ps.length = 1 then posHit s w b (ps.headD 0) else s
    trackRow s w b

/-- Report every beat of a sector. -/
def reportBeats (s : State) (w : Where) (bs : List Beat) : State := bs.foldl (fun t b => reportBeat t w b) s

/-- What decoding makes of a word: 0 nothing, 1 a correction that restores codeword `w`, 2 uncorrectable, 3 a correction to another codeword. -/
def decKind (w r : Nat) : Nat :=
  match bchDec r with
  | .clean => if r = w then 0 else 3
  | .fix ps => if flips r ps = w then 1 else 3
  | .ue => 2

/-- The word that an array other than DRAM gives for codeword `w` when a command says how its decoding ends (`kind` 0 nothing, 1 corrected, 2 uncorrectable):
the errors are the free value `u` where they end so, and else one, or three neighbouring, positions of free place (R217 to R219). -/
def arrayRead (w kind u : Nat) : Nat :=
  let r := Nat.xor w (u % 2 ^ 80)
  if kind = 0 then w
  else if decKind w r = kind then r
  else if kind = 1 then Nat.xor w (2 ^ (u % 80))
  else Nat.xor w (7 * 2 ^ (u % 78))

/-- Decode beat `k` of an array that keeps information bits `info` as a codeword (R217 to R219). -/
def arrayBeat (info k kind u : Nat) : Beat :=
  let r := arrayRead (bchEnc info) kind u
  match bchDec r with
  | .clean => { k := k, dec := .clean, synd := syndWord r, info := r / 2 ^ 15 }
  | .fix ps => { k := k, dec := .fix ps, synd := syndWord r, info := flips r ps / 2 ^ 15 }
  | .ue => { k := k, dec := .ue, synd := syndWord r, info := r / 2 ^ 15 }

/-- The beats of a sector kept as eight codewords that was found corrected (`out` 1) or uncorrectable (`out` 2): one beat at least is so, which one
and what the others hold are free values (17 of them). -/
def arrayBeats (x : Sector) (out : Nat) (vs : List Nat) : List Beat :=
  (List.range 8).map fun k =>
    arrayBeat (beatInfo x k) k (if k = vs.getD 16 0 % 8 then out else vs.getD (2 * k + 1) 0 % (out + 1)) (vs.getD (2 * k) 0)

/-- The cache-side checker's finding is counted, recorded and raised for the slice's channel (R171, R234, R235, Table 10.5). -/
def sliceFound (sl set w h out req : Nat) (dom : Option Nat) (s : State) : State :=
  if out = 1 ∨ out = 2 then
    let (vs, s) := s.draws 17
    reportBeats s { ch := sl, src := 1, req := req, loc := set + w * 4096, sect := h, dom := dom } (arrayBeats ((s.line sl set w).sect h) out vs)
  else s

/-- Where a physical sector lies, for a record. -/
def whereOf (ch ps req : Nat) (dom : Option Nat) : Where :=
  let bank := ps / 16 / 65536 % 128
  { ch := ch, src := 0, req := req, rank := bank / 32, loc := ps / 16 % 65536, bank := bank % 32, sect := ps % 16, dom := dom }

/-- Read a physical sector of a channel from DRAM: transient errors are XORed with the stored ones, decoded and reported. The answer is the
sector as it is used, and its outcome. -/
def readDram (s : State) (ch ps req : Nat) (dom : Option Nat) (err : Nat → Nat) : State × Sector × Code × List Beat :=
  let x := s.rawSector ps
  let bs := readBeats x (deadPos s ch) fun k => Nat.xor (SMap.getD s.memErr (ps * 8 + k) 0) (err k)
  (reportBeats s (whereOf ch ps req dom) bs, beatsSector bs, beatsCode bs, bs)

/-- A sector as a host read receives it (R100, R221): an uncorrectable sector is 64 zero bytes with bit 0 of its `MDATA` set. -/
def asSent (x : Sector) (c : Code) : Sector := if c = .uncorrectable then poisoned0 else x

/-- The outcome of one sector for a completion (R13, R224, R248): POISONED where the sector carries poison, DEGRADED on a DEGRADED2 channel. -/
def sectorCode (s : State) (ch : Nat) (x : Sector) (c : Code) : Code :=
  if c = .uncorrectable then c
  else if bit x.md 0 then .poisoned
  else if degraded2 s ch then .degraded else c

/-- Copy a sector inside DRAM (R222): corrected content with its metadata and poison, or zero data poisoned. -/
def copySector (s : State) (src srcPs dst dstPs : Nat) : State :=
  let (s, x, c, _) := readDram s src srcPs 4 none fun _ => 0
  s.dramStore dst dstPs (if c = .uncorrectable then poisoned0 else x)

/-! ## The protected arrays (R223, Table 10.3) -/

/-- A word of a Jaold array that holds `info` was corrected or uncorrectable: decoded, counted and recorded (R223, R234, Table 10.5). `src` is 2 for the
write data buffer, 3 for the completion data buffer, 4 for the context table, whose corrected words have a 1 ms limit of their own, and 5 for the remap
table; `idx` is the entry. -/
def arrayWord (s : State) (ue : Bool) (src ch idx info req : Nat) (dom : Option Nat) : State :=
  let s := s.inc (if ue then F.DIP_ARR_ARR_UE else F.DIP_ARR_ARR_CE)
  let (vs, s) := s.draws 2
  let b := arrayBeat info (vs.getD 1 0 % 8) (if ue then 2 else 1) (vs.getD 0 0)
  let r := errRecord s { ch := ch, src := src, req := req, loc := idx / 2, dom := dom } b 0
  let key := if src = 4 then 32 else ch
  let due := match SMap.get? s.dip.lastCe key with
    | none => true
    | some t => decide (t + msec ≤ s.now)
  if ue then dipLog s r
  else if due then { dipLog s r with dip.lastCe := SMap.set s.dip.lastCe key s.now } else s

/-- A word of a data buffer read for a request: `out` 1 corrected, 2 uncorrectable (Table 10.3). Which slot it is is a free value. -/
def bufferWord (s : State) (src out ch : Nat) (r : Req) (x : Sector) : State :=
  if out = 0 ∨ 3 ≤ out then s else
  let (v, s) := s.draw
  let s := arrayWord s (out == 2) src ch (v % 2 ^ 15) (beatInfo x 0) (if r.iss = .host then (if r.op = .rd then 0 else 1) else 6) (if r.iss = .host then some r.p.dom else none)
  if out = 2 then s.raiseG 262 .degrade src (v % 2 ^ 15) else s

/-- The 64 bits of a context that word `idx` of the table holds: words 0 and 1, or 2 and 3 (Table 6.10). -/
def ctxInfo (s : State) (b : Nat) : Nat :=
  let x := s.ctx b
  x.cls + x.ltTgt * 2 ^ 3 + x.resIdx * 2 ^ 13 + (bowOwner s b).getD 0 * 2 ^ 19 + x.alloc * 2 ^ 23 + b2n (bowOwner s b).isSome * 2 ^ 25 +
    x.mlat * 2 ^ 32 + x.ltStep * 2 ^ 52

/-- An uncorrectable context word (Table 10.3, R234): words 0 and 1 return to reset values, and the rebuild of words 2 and 3 begins. -/
def ctxUncorrectable (s : State) (b : Nat) : State :=
  let s := ((arrayWord s true 4 0 b (ctxInfo s b) 3 none).setCtx b {}).raiseG 261 .degrade 0 b
  { s with dip.ctxLost := if s.dip.ctxLost.contains b then s.dip.ctxLost else s.dip.ctxLost ++ [b] }

/-- An uncorrectable remap entry (Table 10.3): the bank's requests wait for its reload. -/
def remapUncorrectable (s : State) (k : Nat) : State :=
  let s := (arrayWord s true 5 (k / 4096) k (SMap.getD s.tsv.rmap k 0) 3 none).raiseG 262 .degrade 5 k
  { s with tsv.rmapLost := if s.tsv.rmapLost.contains k then s.tsv.rmapLost else s.tsv.rmapLost ++ [k] }

/-- RQE has rebuilt words 2 and 3 of the context lost first: its bow number issues again (R223). -/
def contextRebuilt (s : State) : State := { s with dip.ctxLost := s.dip.ctxLost.drop 1 }

/-- The remap entry lost first has been reloaded from its MRAM copy (R223): held requests to its bank are released. -/
def remapReloaded (s : State) : State := { s with tsv.rmapLost := s.tsv.rmapLost.drop 1 }

/-- Requests to a bank wait for the reload of one of its entries (R223). -/
def bankHeld (s : State) (ch bank : Nat) : Bool := s.tsv.rmapLost.any fun k => k / 32 == ch * 128 + bank

end Sys2Proof.Machine
end

