-- ==== Sys2Proof/Machine/Bank.lean ====
section
/-! DEFINITION. The banks and the buses of a DRAM channel (ch. 8): the intervals of Table 8.1 and the effect of ACT, PRE, RD and WR. -/

namespace Sys2Proof.Machine

/-! ## Timing (Table 8.1, DCK cycles) -/

/-- ACT to column, same bank. -/
def tRCD : Nat := 23
/-- PRE to ACT, same bank. -/
def tRP : Nat := 23
/-- ACT to PRE, same bank. -/
def tRAS : Nat := 48
/-- RD to its data. -/
def tCL : Nat := 21
/-- WR to its data. -/
def tCWL : Nat := 15
/-- End of write data to PRE, same bank. -/
def tWR : Nat := 26
/-- RD to PRE, same bank. -/
def tRTP : Nat := 8
/-- Window of at most four ACT per rank. -/
def tFAW : Nat := 16
/-- RD to WR, any rank. -/
def tRTW : Nat := 10
/-- REFpb to ACT, same bank. -/
def tRFC : Nat := 192
/-- PDX to any command of the rank. -/
def tXP : Nat := 10
/-- PDE to PDX. -/
def tCKE : Nat := 8
/-- SRX to any command of the rank. -/
def tXS : Nat := 208

/-- Bank `b` (0 to 127) and rank `r` of a controller. -/
def Dmc.bankOf (d : Dmc) (b : Nat) : Bank := SMap.getD d.bank b {}
/-- See `Dmc.bankOf`. -/
def Dmc.rankOf (d : Dmc) (r : Nat) : Rank := SMap.getD d.rank r {}
/-- Store a bank. -/
def Dmc.setBank (d : Dmc) (b : Nat) (x : Bank) : Dmc := { d with bank := SMap.put d.bank b {} x }
/-- Store a rank. -/
def Dmc.setRank (d : Dmc) (r : Nat) (x : Rank) : Dmc := { d with rank := SMap.put d.rank r {} x }

/-- Bank group of a bank of the channel. -/
def groupOfBank (b : Nat) : Nat := b / 4

/-- `PSTATE` of a rank: 0 OFF, 1 ACT, 2 PPD, 3 SREF. -/
def pstate (s : State) (ch r : Nat) : Nat := s.rd F.DMC_RANK_STAT_PSTATE ch r

/-- The rank takes commands in this cycle: active, and not on its way into power-down. -/
def rankReady (s : State) (ch : Nat) (d : Dmc) (b : Nat) : Bool :=
  pstate s ch (b / 32) == 1 && decide ((d.rankOf (b / 32)).cmdOk ≤ d.cyc) && (d.rankOf (b / 32)).pdeDue.isNone

/-- An ACT of bank `b` keeps tRP, tRC, tRRD, tFAW. -/
def actOk (s : State) (ch : Nat) (d : Dmc) (b : Nat) : Bool :=
  let r := d.rankOf (b / 32)
  rankReady s ch d b && (d.bankOf b).row.isNone && decide ((d.bankOf b).actOk ≤ d.cyc) &&
  (match r.lastAct with
   | some (t, g) => decide (t + (if g = groupOfBank b then 4 else 2) ≤ d.cyc)
   | none => true) &&
  (if r.acts.length < 4 then true else decide (r.acts.getD 0 0 + tFAW ≤ d.cyc))

/-- A PRE of bank `b` keeps tRAS, tRTP, tWR. -/
def preOk (s : State) (ch : Nat) (d : Dmc) (b : Nat) : Bool := rankReady s ch d b && (d.bankOf b).row.isSome && decide ((d.bankOf b).preOk ≤ d.cyc)

/-- The data TSVs are free for a burst of rank `r` that starts at `start`, beside a burst that has its place (tBL, tRTRS). -/
def burstFits (at' : Option (Nat × Nat)) (r start : Nat) : Bool :=
  match at' with
  | some (t, q) => let gap := if q = r then 1 else 3; decide (t + gap ≤ start) || decide (start + gap ≤ t)
  | none => true

/-- A column command of bank `b` keeps tRCD, tCCD, tRTW, tWTR, tRTRS, and the stall of a calibration. -/
def colOk (s : State) (ch : Nat) (d : Dmc) (b : Nat) (wr : Bool) : Bool :=
  let start := d.cyc + (if wr then tCWL else tCL)
  rankReady s ch d b && decide ((d.bankOf b).colOk ≤ d.cyc) && decide (d.stallTo ≤ d.cyc) &&
  (match d.lastCol with
   | some (t, g, w) =>
     let gap := if g = groupOfBank b then 2 else 1
     decide (t + (if !w && wr then max gap tRTW else gap) ≤ d.cyc)
   | none => true) &&
  burstFits d.lastBurst (b / 32) start && burstFits d.rptAt (b / 32) start &&
  (wr || (d.rankOf (b / 32)).wrEnd.all fun e => decide (e.2 + (if e.1 = groupOfBank b then 8 else 4) ≤ d.cyc))

/-! ## Commands on the TSVs -/

/-- `ROW_E` or `ROW_O` (Table 8.20). -/
def showRow (s : State) (ch b : Nat) (row : Option Nat) : State :=
  s.wr (if b % 2 = 0 then F.DMC_BANK_ROW_E else F.DMC_BANK_ROW_O) (row.getD 0xFFFF) ch (b / 2)

/-- The rank and the watchdog note a command. -/
def noteCmd (d : Dmc) (b : Nat) : Dmc := d.setRank (b / 32) { d.rankOf (b / 32) with busyAt := d.cyc }

/-- ACT of a physical row; `counts` is off for victim refresh (R205). -/
def doAct (s : State) (ch b row : Nat) (counts : Bool) : State :=
  let d := noteCmd (s.dmcOf ch) b
  let r := d.rankOf (b / 32)
  let acts := r.acts ++ [d.cyc]
  let d := d.setRank (b / 32) { r with acts := acts.drop (acts.length - 4), lastAct := some (d.cyc, groupOfBank b) }
  let x := d.bankOf b
  let d := d.setBank b { x with row := some row, counts := counts, colOk := d.cyc + tRCD, preOk := d.cyc + tRAS, fresh := true }
  showRow (s.setDmc ch d) ch b (some row)

/-- PRE: the row closes, and its stroke word awaits its update (R205). -/
def doPre (s : State) (ch b : Nat) : State :=
  let d := noteCmd (s.dmcOf ch) b
  let x := d.bankOf b
  match x.row with
  | none => s
  | some row =>
    let d := d.setBank b { x with row := none, actOk := d.cyc + tRP, fresh := false, conf := false }
    let d := if x.counts then { d with closing := d.closing ++ [(b, row)] } else d
    showRow (s.setDmc ch d) ch b none

/-- PREA and the end of every open row of a rank. -/
def doPreAll (s : State) (ch r : Nat) : State := (List.range 32).foldl (fun t k => doPre t ch (32 * r + k)) s

/-- A column command's effect on the bank, the rank and the data TSVs. -/
def doCol (s : State) (ch b : Nat) (wr : Bool) : State :=
  let d := { noteCmd (s.dmcOf ch) b with cmdAt := s.now }
  let x := d.bankOf b
  let s := if x.fresh then s else s.inc F.DMC_HIT_CNT_HIT_CNT 1 ch
  let endWr := d.cyc + tCWL + 1
  let d := d.setBank b { x with preOk := max x.preOk (if wr then endWr + tWR else d.cyc + tRTP), fresh := false }
  let d := if wr then d.setRank (b / 32) { d.rankOf (b / 32) with wrEnd := SMap.set (d.rankOf (b / 32)).wrEnd (groupOfBank b) endWr } else d
  let d := { d with
    lastCol := some (d.cyc, groupOfBank b, wr), lastBurst := some (d.cyc + (if wr then tCWL else tCL), b / 32) }
  if wr then s.setDmc ch d else (s.setDmc ch d).inc F.DMC_RD_SECT_RD_SECT 1 ch

/-- The physical row that an entry needs. -/
def entRow (s : State) (ch c : Nat) : Nat := physRow s ch (bankOf c) (rowOf c)

/-- A WR of a physical row can issue in this cycle: the row is open and every interval is kept. -/
def rowSlot (s : State) (ch bank row : Nat) : Bool := ((s.dmcOf ch).bankOf bank).row == some row && colOk s ch (s.dmcOf ch) bank true

/-- A WR of channel address `c` can issue in this cycle. -/
def writeSlot (s : State) (ch c : Nat) : Bool := rowSlot s ch (bankOf c) (entRow s ch c)

/-- The WR that writes a sector issues, and the sector is in DRAM (R187). -/
def burstWrite (s : State) (ch c : Nat) (x : Sector) : State := (doCol s ch (bankOf c) true).dramWrite ch c x

end Sys2Proof.Machine
end

