-- ==== Sys2Proof/Machine/Issue.lean ====
section
/-! DEFINITION. From the request engine to the cache and the channels (R126 to R132, R158, R187, R219 to R226): issue, data return, atomics, merges,
range work. -/

namespace Sys2Proof.Machine

/-! ## When a sector may be read or written (R126, R127) -/

/-- A request reads or cleans a sector, by its whole range. -/
def looksAt (q : Req) (sec : Nat) : Bool := (q.op == .rd && (sectorsOf q).contains sec) || (q.op == .flush && inRuns q.runs sec)

/-- A read or FLUSH admitted earlier that touches a sector and is not performed holds a write of it back (R127). -/
def earlierReader (s : State) (id sec : Nat) : Bool := s.rqe.reqs.any fun q => decide (q.id < id) && !q.performed && looksAt q sec

/-- The stretch of a warm reset or the flush of a power failure runs: the reads still queued are abandoned (Tables 17.3, 18.8). -/
def sinking (s : State) : Bool := (s.pck.pow == .warm && !s.pck.stretched) || (s.pck.pow == .powerFail && s.rd F.PCK_STAT_KEEL_MODE == 0)

/-- Nothing admitted earlier holds this request's write to a sector back. -/
def mayWrite (s : State) (id sec : Nat) : Bool := (sinking s || !earlierReader s id sec) && (newestPending s id sec).isNone

/-- A request has written one of its sectors. -/
def wrote (s : State) (id sec : Nat) : State :=
  match findReq s id with
  | none => s
  | some r => setReq s { r with pend := dropSector r.pend sec }

/-- The row whose repair the stack starts next (R447): none while a repair runs, and else the oldest queued row of a channel in RUN. -/
def repairHead (s : State) : Option (Nat × Nat × Nat) :=
  if (List.range 32).any fun c => (s.tsvCh c).cur.isSome then none else s.tsv.rprQ.find? fun q => s.cstate q.1 == 2

/-- Channel address `c` lies in the row that waits for the start of its repair (Table 11.5, step 1). -/
def repairWaits (s : State) (ch c : Nat) : Bool := repairHead s == some (ch, bankOf c, rowOf c)

/-- A move of the fold holds the unit of a channel address (R254, R255). -/
def unitHeld (s : State) (ch c : Nat) : Bool :=
  s.tsv.foldMove.isSome && ch == s.rd F.TSV_FOLD_STAT_FOLDED_CH && c / 1024 == s.rd F.TSV_FOLD_PTR_FOLD_PTR

/-- A held fold unit (R254, R255), or a row under repair or about to be repaired (R252), holds new issues to a channel address. -/
def rowHeld (s : State) (ch c : Nat) : Bool :=
  bankHeld s ch (bankOf c) || unitHeld s ch c || repairWaits s ch c ||
  (match (s.tsvCh ch).cur with
   | some (b, r, _) => b == bankOf c && r == rowOf c
   | none => false)

/-- A row under repair takes no write that has not been handed to it yet (Table 11.5). -/
def rowLocked (s : State) (ch c : Nat) : Bool :=
  match (s.tsvCh ch).cur with
  | some (b, r, _) => b == bankOf c && r == rowOf c
  | none => false

/-! ## Reads -/

/-- A read receives one of its sectors: performed and completed when it has them all (R108, R101). -/
def gotSector (s : State) (id sec : Nat) (x : Sector) (c : Code) (ch : Nat) : State :=
  match findReq s id with
  | none => s
  | some r =>
    if r.performed then s else
    let code := sectorCode s ch x c
    let s := countPoison s ch code
    let r := { r with pend := dropSector r.pend sec, got := r.got ++ [(sec, asSent x c, code)] }
    if r.pend.isEmpty then
      let sects := (sectorsOf r).filterMap fun k => (r.got.find? (·.1 == k)).map (·.2.1)
      markPerformed s { r with cpl := some { status := worst (r.got.map (·.2.2)), sects := sects } }
    else setReq s r

/-- The controller holds an issued, unperformed request (R192): a read, an operation of the unit, or range work. -/
def unperformed (d : Dmc) : Bool :=
  !(d.q.isEmpty && d.fly.isEmpty && d.fillWait.isEmpty && d.rmw.isEmpty) || d.wq.any (·.kind != .wr)

/-- A controller that holds no issued request starts its watchdog with the next one (R192). -/
def startWatch (s : State) (d : Dmc) : Dmc := if unperformed d then d else { d with cmdAt := s.now }

/-- Queue a read of a sector at its bank (R129). -/
def queueRead (s : State) (ch : Nat) (e : DEnt) : State :=
  let d := startWatch s (s.dmcOf ch)
  s.setDmc ch { d with q := d.q ++ [{ e with at' := d.cyc }] }

/-- A lookup of the slice meets what its tag copies give (R156, R173): 0 nothing, 1 the working and 2 the durable copy of an entry of the set cannot be
corrected, 3 both. -/
def lookup (s : State) (ch c kind : Nat) : State :=
  if s.sstate ch = ssOff then s else if kind = 3 then sliceFault ch 4 s else tagLookup s ch c kind

/-- One sector of a read goes to the slice, to a fill in progress or just done, or to DRAM (Table 7.3). `out` is what the cache-side checker finds (R171),
and 4 times what the lookup finds. -/
def readSector (r : Req) (s : State) (sec out : Nat) : State :=
  let (ch, c) := place s sec
  if deadChannel s ch then gotSector s r.id sec poisoned0 .uncorrectable ch else
  let s := lookup s ch c (out / 4)
  let out := out % 4
  let e : DEnt := { req := r.id, sec := sec, c := c, rmw := false, fill := false, at' := 0 }
  let miss (s : State) : State :=
    if fillPending s ch c then
      let d := s.dmcOf ch
      match d.fills.find? (·.1 == c) with
      | some f => gotSector s r.id sec (f.2.1.getD poisoned0) f.2.2 ch
      | none => s.setDmc ch { d with fillWait := d.fillWait ++ [e] }
    else
      let s := s.inc F.SCC_RD_MISS_RD_MISS 1 ch
      if allocates s ch r false then
        match allocate s ch c r with
        | (s, some w) =>
          let x := s.line ch (setOf c) w
          queueRead (s.setLine ch (setOf c) w (x.withHalf (halfOf c) 1 zeroSector)) ch { e with fill := true }
        | (s, none) => queueRead s ch e
      else queueRead s ch e
  match victimSector s ch c with
  | some x => gotSector (s.inc F.SCC_RD_HIT_RD_HIT 1 ch) r.id sec x .ok ch
  | none =>
    match cacheHit s ch c, wayOf s ch c with
    | some x, some w =>
      let s := sliceFound ch (setOf c) w (halfOf c) out (if r.iss = .host then 0 else 6) (if r.iss = .host then some r.p.dom else none) s
      if out ≠ 2 then gotSector ((touchWay s ch c r).inc F.SCC_RD_HIT_RD_HIT 1 ch) r.id sec x (if out = 1 then .okCorrected else .ok) ch
      else
        let dirty := (s.line ch (setOf c) w).st (halfOf c) == 3
        let s := sliceDecode ch (setOf c) w (halfOf c) 2 s
        if dirty then gotSector (s.inc F.SCC_RD_HIT_RD_HIT 1 ch) r.id sec poisoned0 .uncorrectable ch else miss s
    | _, _ => miss s

/-- A read is issued when no order and no hazard holds it (R126, R130, R131). -/
def issueRead (s : State) (r : Req) (outs : List Nat) : State :=
  if r.issued || r.performed || hazard s r || (sectorsOf r).any (fun x => let p := place s x; rowHeld s p.1 p.2) then s else
  let s := setReq s { r with issued := true }
  settle (((sectorsOf r).zipIdx).foldl (fun t e => readSector r t e.1 (outs.getD e.2 0)) s)

/-! ## Writes -/

/-- A write joins the channel's write queue (R183). -/
def queueWrite (s : State) (ch : Nat) (e : WEnt) : State :=
  let d := startWatch s (s.dmcOf ch)
  s.setDmc ch { d with wq := d.wq ++ [{ e with at' := d.cyc }] }

/-- A queued WR that no one can see any more (Table 8.4): a WR admitted later writes its sector, and every request between them that touches it has been
performed. -/
def superseded (s : State) (e : WEnt) : Bool :=
  let later (q : Req) : Bool := q.op == .wr && q.visible && decide (e.req < q.id) && inRuns q.pend e.sec
  e.kind == .wr && s.rqe.reqs.any fun w => later w && s.rqe.reqs.all fun q =>
    !(decide (e.req < q.id) && decide (q.id < w.id) && !q.performed && (inRuns q.pend e.sec || looksAt q e.sec))

/-- Superseded writes leave the queue without a DRAM write. -/
def supersede (s : State) (ch : Nat) : State :=
  ((s.dmcOf ch).wq.filter (superseded s)).foldl (fun t e =>
    let d := t.dmcOf ch
    (wrote (t.setDmc ch { d with wq := d.wq.erase e }) e.req e.sec).inc F.DMC_WSUP_CNT_WSUP_CNT 1 ch) s

/-- A sector of the drain list that a write replaces leaves the list (Table 7.7). -/
def leaveList (s : State) (ch c : Nat) : State :=
  match wayOf s ch c with
  | some w =>
    let l := s.line ch (setOf c) w
    if s.sstate ch = ssDrain ∧ l.st (halfOf c) = 3 then s.setLine ch (setOf c) w (l.withHalf (halfOf c) 0 zeroSector) else s
  | none => s

/-- One sector of a WR: written in the slice on a hit or an allocation, or queued for DRAM (Table 7.3, R183). What is written through waits on the queue too
(R165). -/
def writeSector (id : Nat) (s : State) (sec out : Nat) : State :=
  match findReq s id with
  | none => s
  | some r =>
    let (ch, c) := place s sec
    if !inRuns r.pend sec || rowHeld s ch c || (s.dmcOf ch).wq.any (fun e => e.req == id && e.sec == sec) then s
    else if deadChannel s ch then wrote (s.dramWrite ch c (wrSector r sec)) id sec
    else
      let s := lookup s ch c (out / 4)
      let x := wrSector r sec
      let queue (t : State) : State := queueWrite t ch { req := id, sec := sec, c := c }
      let done (t : State) : State := if writesThrough t ch then queue t else wrote t id sec
      match victimSector s ch c with
      | some _ => if mayWrite s id sec then wrote ((victimWrite s ch c x).inc F.SCC_WR_HIT_WR_HIT 1 ch) id sec else s
      | none =>
        let miss (s : State) : State :=
          if allocates s ch r true then
            if !mayWrite s id sec then s else
            match allocate (s.inc F.SCC_WR_MISS_WR_MISS 1 ch) ch c r with
            | (s, some w) => done (cacheWrite s ch w c x)
            | (s, none) => queue s
          else queue (s.inc F.SCC_WR_MISS_WR_MISS 1 ch)
        match wayOf s ch c with
        | some w =>
          let st := (s.line ch (setOf c) w).st (halfOf c)
          if st = 1 then s
          else if s.sstate ch = ssDrain ∨ !sliceServes s ch then queue (s.inc F.SCC_WR_MISS_WR_MISS 1 ch)
          else if st = 0 then miss s
          else if mayWrite s id sec then done (cacheWrite ((touchWay s ch c r).inc F.SCC_WR_HIT_WR_HIT 1 ch) ch w c x)
          else s
        | none => miss s

/-- The write data buffer is read for a sector of a request (Table 10.3): `out` 0 good, 1 corrected, 2 uncorrectable. -/
def readBuffer (r : Req) (s : State) (sec out : Nat) : State :=
  match findReq s r.id with
  | none => s
  | some q =>
    let s := bufferWord s 2 out (place s sec).1 q (wrSector q sec)
    if out = 2 then setReq s { q with bad := q.bad ++ [sec] } else s

/-- A WR's sectors that can go now go to the slice or the write queue. `outs` are what the reads of its slots find, with 4 times what the lookups find. -/
def issueWrite (s : State) (r : Req) (outs : List Nat) : State :=
  let secs := (runSectors r.pend).zipIdx
  let s := if r.issued then s else secs.foldl (fun t e => readBuffer r t e.1 (outs.getD e.2 0 % 4)) s
  let s := match findReq s r.id with
    | some q => setReq s { q with issued := true }
    | none => s
  settle (secs.foldl (fun t e => writeSector r.id t e.1 (outs.getD e.2 0)) s)

/-! ## Read-modify-write (R128, R225) -/

/-- The sector of an atomic or a WRP. -/
def rmwSector (r : Req) : Nat := r.dev / 64

/-- An atomic or a merge enters the unit of its channel: sixteen at once, one per sector (R128). A miss needs a DRAM read first. `out` is what the read of
its slot finds, with 4 times what the lookup finds. -/
def issueRmw (s : State) (r : Req) (out : Nat) : State :=
  let sec := rmwSector r
  let (ch, c) := place s sec
  let d := s.dmcOf ch
  if r.issued || !mayWrite s r.id sec || rowHeld s ch c || fillPending s ch c || decide (16 ≤ d.rmw.length + b2n d.unitSc.isSome) ||
      d.rmw.any (·.sec == sec) || (d.unitSc.any fun u => u.1 == sectorAt s ch c) then s
  else
    let s := readBuffer r (lookup s ch c (out / 4)) sec (out % 4)
    let hit := (cacheHit s ch c).isSome || deadChannel s ch
    let s := match findReq s r.id with
      | some q => setReq s { q with issued := true }
      | none => s
    let d := startWatch s (s.dmcOf ch)
    let s := s.setDmc ch { d with rmw := d.rmw ++ [{ req := r.id, sec := sec, hit := hit }] }
    if hit then s else queueRead s ch { req := r.id, sec := sec, c := c, rmw := true, fill := false, at' := 0 }

/-! ## Range work (R93, R94, R132) -/

/-- A sector of a range has been issued by the range engine, and counts (R145, R150). -/
def sectorIssued (s : State) (id sec : Nat) : State :=
  match findReq s id with
  | none => s
  | some r => countRange (setReq s { r with todo := dropSector r.todo sec }) (r.iss == .host) r.p.bow 1

/-- The range engine issues a sector of a ZERO (Table 7.3): in the slice on a hit, else on the write queue, which takes no more at `WQ_CAP` (R183). -/
def zeroSectorAt (r : Req) (s : State) (sec : Nat) : State :=
  let (ch, c) := place s sec
  let go (s : State) : State := sectorIssued s r.id sec
  let queue (t : State) : State := queueWrite t ch { req := r.id, sec := sec, c := c, kind := .zero }
  if deadChannel s ch then wrote ((go s).dramWrite ch c zeroSector) r.id sec else
  match victimSector s ch c with
  | some _ => wrote ((victimWrite (go s) ch c zeroSector).inc F.SCC_WR_HIT_WR_HIT 1 ch) r.id sec
  | none =>
    let miss (s : State) : State :=
      if s.rd F.DMC_WQ_WQ_CAP ch ≤ wqUsed s ch then s else queue ((go s).inc F.SCC_WR_MISS_WR_MISS 1 ch)
    match wayOf s ch c with
    | some w =>
      if (s.line ch (setOf c) w).st (halfOf c) < 2 ∨ s.sstate ch ≠ ssOn then miss s
      else
        let t := if r.iss = .host then (go s).moveWay ch (setOf c) w true else go s
        let t := (cacheWrite t ch w c zeroSector).inc F.SCC_WR_HIT_WR_HIT 1 ch
        if writesThrough t ch then queue t else wrote t r.id sec
    | none => miss s

/-- The range engine issues a sector of a FLUSH: a D sector is written back, and with `INV` the sector is made I. A copy in the victim buffer is on its way to
DRAM already. -/
def flushSectorAt (r : Req) (s : State) (sec : Nat) : State :=
  let (ch, c) := place s sec
  let go (s : State) : State := sectorIssued s r.id sec
  if (victimSector s ch c).isSome && !deadChannel s ch then s else
  match wayOf s ch c with
  | some w =>
    let next := if r.p.opf then 0 else 2
    if (s.line ch (setOf c) w).st (halfOf c) = 3 ∧ ¬ deadChannel s ch then queueWrite (go s) ch { req := r.id, sec := sec, c := c, kind := .clean }
    else wrote (cleanHalf (go s) ch (setOf c) w (halfOf c) next) r.id sec
  | none => wrote (go s) r.id sec

/-- A sector of a range can be issued: nothing admitted before is still to be written to it, no fill is under way, its row is not held, and for a ZERO no
earlier reader waits (R93, R127, R252). -/
def rangeOpen (s : State) (r : Req) (sec : Nat) : Bool :=
  let (ch, c) := place s sec
  (newestPending s r.id sec).isNone && !(r.op == .zero && earlierReader s r.id sec) && !rowHeld s ch c && !fillPending s ch c

/-- The range engine issues what it can of the next 2 MiB block of a range (R132). -/
def rangeIssue (s : State) (id : Nat) : State :=
  match findReq s id with
  | none => s
  | some r =>
    match r.todo with
    | [] => s
    | (a, _) :: _ =>
      let secs := (r.todo.filter fun q => q.1 / 32768 == a / 32768).flatMap fun q => (List.range (min q.2 ((a / 32768 + 1) * 32768 - q.1))).map (q.1 + ·)
      settle (secs.foldl (fun t x => if rangeOpen t r x then (if r.op = .zero then zeroSectorAt r t x else flushSectorAt r t x) else t) s)

/-- A FLUSH or ZERO is worked on once every earlier one is, four at once (R132); from then on each issue takes the next of its work. -/
def issueRange (s : State) (r : Req) : State :=
  let working := (s.rqe.reqs.filter fun q => (q.op == .flush || q.op == .zero) && q.issued && !q.performed).length
  let first := (s.rqe.reqs.find? fun q => (q.op == .flush || q.op == .zero) && !q.issued && !q.performed).map (·.id)
  if r.performed || (!r.issued && (decide (4 ≤ working) || first != some r.id)) then s else rangeIssue (setReq s { r with issued := true }) r.id

/-- Issue request `id` to SCC or DMC (R130). Nothing is issued while `ORD`, a FENCE or the rebuild of its context holds it. -/
def issue (id : Nat) (outs : List Nat) (s : State) : State :=
  match findReq s id with
  | none => s
  | some r =>
    let still := s.pck.fabDown || s.pck.pow == .powerFail || s.pck.pow == .warm || s.pck.pow == .sleep || s.pck.pow == .deepSleep
    if still || ordBlocked s r || fenceBlocked s r || (r.iss == .host && s.dip.ctxLost.contains r.p.bow) then s else
    match r.op with
    | .rd => issueRead s r outs
    | .wr => if r.visible then issueWrite s r outs else s
    | .wrp => if r.pend.isEmpty then s else issueRmw s r (outs.getD 0 0)
    | .flush | .zero => issueRange s r
    | .fence => s
    | _ => issueRmw s r (outs.getD 0 0)

/-! ## Data return (R219, R221, Table 7.4) -/

/-- The requester of a DRAM read, for its record (Table 10.5), and its domain. -/
def requester (s : State) (e : DEnt) : Nat × Option Nat :=
  match findReq s e.req with
  | some r => (if e.rmw then 1 else if r.iss = .host then 0 else if e.fill then 2 else 6, if r.iss = .host then some r.p.dom else none)
  | none => (6, none)

/-- Read data that the channel's burst carries: decoded, given to the read, to the reads that wait for the same fill, and to the fill.
`err` are the errors of this burst by beat. -/
def readReturn (ch : Nat) (err : List Nat) (s : State) : State :=
  let d := s.dmcOf ch
  match d.fly with
  | [] => s
  | (e, t) :: rest =>
    if d.cyc < t + 22 then s else
    let s := s.setDmc ch { d with fly := rest }
    let (req, dom) := requester s e
    let (s, x, c) : State × Sector × Code :=
      if deadChannel s ch then (s, poisoned0, .uncorrectable) else
      let (s, x, c, _) := readDram s ch (sectorAt s ch e.c) req dom fun k => err.getD k 0
      (s, x, c)
    let s := gotSector s e.req e.sec x c ch
    if !e.fill then settle s else
    let d := s.dmcOf ch
    let (mine, others) := d.fillWait.partition fun w => w.c == e.c
    let s := s.setDmc ch { d with fillWait := others, fills := d.fills ++ [(e.c, if c = .uncorrectable then none else some x, c)] }
    settle (mine.foldl (fun t w => gotSector t w.req w.sec x c ch) s)

/-- The oldest fill of a channel arrives at its slice (Table 7.4). -/
def fillArrive (ch : Nat) (s : State) : State :=
  let d := s.dmcOf ch
  match d.fills with
  | [] => s
  | (c, x, _) :: rest => fillSector (s.setDmc ch { d with fills := rest }) ch c x

/-! ## Performing atomics and merges -/

/-- R92's table. -/
def atomicNew (o : ROp) (w opnd swapv : Nat) : Nat :=
  match o with
  | .afadd => (w + opnd) % 2 ^ 64
  | .aswap => opnd
  | .acas => if w = opnd then swapv else w
  | .aand => Nat.land w opnd
  | .aor => Nat.lor w opnd
  | _ => w

/-- A sector with bytes `k` to `k + 7` replaced. -/
def putWord (x : Sector) (k v : Nat) : Sector := { x with data := x.data.take k ++ leBytes 8 v ++ x.data.drop (k + 8) }

/-- The read-modify-write unit reads a sector where R128 says: the slice on a hit, DRAM otherwise. An uncorrectable slice sector follows R171 and
R226. The last part of the answer says whether it was read from the slice, with its way. -/
def rmwRead (s : State) (ch c out : Nat) (dom : Option Nat) (err : Nat → Nat) (merge : Bool) : State × Sector × Code × List Beat × Option Nat :=
  let fromDram (s : State) : State × Sector × Code × List Beat × Option Nat :=
    let (s, x, k, bs) := readDram (s.inc F.SCC_RD_MISS_RD_MISS 1 ch) ch (sectorAt s ch c) 1 dom err
    (s, x, k, bs, none)
  match victimSector s ch c with
  | some x => (s.inc F.SCC_RD_HIT_RD_HIT 1 ch, x, .ok, [], none)
  | none =>
    match cacheHit s ch c, wayOf s ch c with
    | some x, some w =>
      let s := sliceFound ch (setOf c) w (halfOf c) out 1 dom s
      let hit := s.inc F.SCC_RD_HIT_RD_HIT 1 ch
      if out ≠ 2 then (if dom.isSome then hit.moveWay ch (setOf c) w true else hit, x, if out = 1 then .okCorrected else .ok, [], some w) else
      let dirty := (s.line ch (setOf c) w).st (halfOf c) == 3
      let s := sliceDecode ch (setOf c) w (halfOf c) 2 s
      if dirty ∧ ¬ merge then (s.inc F.SCC_RD_HIT_RD_HIT 1 ch, poisoned0, .uncorrectable, [], none)
      else if dirty then (s.inc F.SCC_RD_MISS_RD_MISS 1 ch, poisoned0, .uncorrectable, (List.range 8).map fun k => { k := k, dec := .ue, synd := 0, info := 0 }, none)
      else fromDram s
    | _, _ => fromDram s

/-- The slice or its victim buffer takes the write of a sector that the unit read there: a slice in ON, that does not write through. Otherwise the write needs
a WR (R128, R165, Table 7.7). -/
def staysInSlice (s : State) (ch c : Nat) (way : Option Nat) : Bool :=
  (victimSector s ch c).isSome || (way.isSome && s.sstate ch == ssOn && !writesThrough s ch)

/-- The unit writes the sector back to where it was read (R128). -/
def rmwWrite (s : State) (ch c : Nat) (way : Option Nat) (x : Sector) : State :=
  let miss (s : State) : State := (leaveList (burstWrite s ch c x) ch c).inc F.SCC_WR_MISS_WR_MISS 1 ch
  if (victimSector s ch c).isSome then (victimWrite s ch c x).inc F.SCC_WR_HIT_WR_HIT 1 ch
  else match way with
    | some w =>
      if (s.line ch (setOf c) w).st (halfOf c) ≥ 2 ∧ s.sstate ch = ssOn then
        let t := (cacheWrite s ch w c x).inc F.SCC_WR_HIT_WR_HIT 1 ch
        if writesThrough s ch then burstWrite t ch c x else t
      else miss s
    | none => miss s

/-- The operation leaves the unit. -/
def rmwLeave (s : State) (ch id : Nat) : State :=
  let d := s.dmcOf ch
  s.setDmc ch { d with rmw := d.rmw.filter (·.req != id) }

/-- The data that an operation of the unit needs are there: a hit, or tCL and the burst after its RD. -/
def unitReady (d : Dmc) (e : UEnt) : Bool :=
  e.hit || (match e.read with
    | some t => decide (t + 22 ≤ d.cyc)
    | none => false)

/-- The unit holds a request whose sector can be read now. -/
def rmwReady (s : State) (ch id : Nat) : Bool := (s.dmcOf ch).rmw.any fun e => e.req == id && unitReady (s.dmcOf ch) e

/-- An operation that found its sector in the slice finds it there no more: it reads DRAM instead. -/
def rmwMissed (s : State) (ch c id : Nat) : Bool :=
  !deadChannel s ch && (cacheHit s ch c).isNone && (s.dmcOf ch).rmw.any fun e => e.req == id && e.hit

/-- Send such an operation to DRAM. -/
def rmwReread (s : State) (ch c sec id : Nat) : State :=
  let d := s.dmcOf ch
  queueRead (s.setDmc ch { d with rmw := d.rmw.map fun e => if e.req = id then { e with hit := false } else e }) ch
    { req := id, sec := sec, c := c, rmw := true, fill := false, at' := 0 }

/-- The read-modify-write unit performs atomic `id` (R128, R92): its WR, where it needs one, takes the column slot of this DCK cycle. -/
def atomicPerform (id out : Nat) (err : List Nat) (s : State) : State :=
  match findReq s id with
  | none => s
  | some r =>
    let (ch, c) := place s (rmwSector r)
    if !isAtomic r.op || r.performed || !rmwReady s ch id then s else
    let finish (s : State) (st : Code) (old : Nat) : State :=
      settle (markPerformed (rmwLeave s ch id) { r with pend := [], cpl := some { status := st, old := old } })
    if deadChannel s ch || r.bad.contains (rmwSector r) then finish s .uncorrectable 0
    else if rmwMissed s ch c id then rmwReread s ch c (rmwSector r) id else
    let dom := if r.iss = .host then some r.p.dom else none
    let old := s
    let (s, x, k, _, way) := rmwRead s ch c out dom (fun b => err.getD b 0) false
    if k = .uncorrectable then finish s .uncorrectable 0
    else if bit x.md 0 then finish (countPoison s ch .poisoned) .poisoned 0
    else if !staysInSlice s ch c way && !writeSlot s ch c then old
    else
      let off := 8 * r.p.wsel
      let w := leAt x.data off 8
      finish (rmwWrite s ch c way (putWord x off (atomicNew r.op w r.p.opnd r.p.swapv))) (sectorCode s ch x k) w

/-- The merged sector (Table 10.4). -/
def mergeSector (r : Req) (x : Sector) (bad : List Nat) : Sector :=
  if r.bad.contains (rmwSector r) then poisoned0 else
  { data := (List.range 64).map fun k =>
      if bit r.p.mask k then r.p.data.getD k 0 else if bad.contains (k / 8) then 0 else x.data.getD k 0
    md := if bad.isEmpty then x.md else setBit (bad.foldl clrBit x.md) 0 }

/-- A partial-write merge writes the whole sector with fresh check bits (R225, R226), with the column slot of this DCK cycle where it needs one. A write to a
dead channel is discarded (R248). -/
def mergePerform (id out : Nat) (err : List Nat) (s : State) : State :=
  match findReq s id with
  | none => s
  | some r =>
    let sec := rmwSector r
    let (ch, c) := place s sec
    if r.op ≠ .wrp ∨ !rmwReady s ch id then s else
    let finish (s : State) (st : Code) : State :=
      let r' : Req := { r with pend := [], cpl := some { status := st } }
      settle (countBytes (setReq (rmwLeave s ch id) r') r' 0 64)
    if deadChannel s ch then finish s .uncorrectable
    else if rmwMissed s ch c id then rmwReread s ch c sec id else
    let dom := if r.iss = .host then some r.p.dom else none
    let old := s
    let (s, x, _, bs, way) := rmwRead s ch c out dom (fun b => err.getD b 0) true
    if !staysInSlice s ch c way && !writeSlot s ch c then old else
    let bad := (bs.filter (·.dec == .ue)).map (·.k)
    let poisoned := !bad.isEmpty || bit x.md 0 || r.bad.contains sec
    let s := rmwWrite s ch c way (mergeSector r x bad)
    finish s (if poisoned then .poisoned else if degraded2 s ch then .degraded else .ok)

/-! ## The end of range work (R132, R194) -/

/-- The channels in which a range still has work issued. -/
def rangeAt (s : State) (id : Nat) : List Nat := (s.dmc.filter fun e => e.2.wq.any fun w => w.req == id).map (·.1)

/-- The range engine finishes the range of request `id` and its completion is due (R132): all its work is issued and done. After a hang of a channel that held
some of it, it ends with TIMEOUT once its work in the other channels has ended, and its ZERO sectors there wait for the replay (R194). -/
def rangeDone (id : Nat) (s : State) : State :=
  match findReq s id with
  | none => s
  | some r =>
    if !(r.op == .flush || r.op == .zero) || !r.issued || r.performed || !r.todo.isEmpty then s else
    match r.tmo with
    | some c =>
      if (rangeAt s id).any (· != c) then s else
      let left := ((s.dmcOf c).wq.filter fun w => w.req == id).map fun w => (w.sec, 1)
      settle (setReq (s.inc F.DMC_HANG_STAT_TMO_CPL 1 c) { r with performed := true, pend := left, cpl := some { status := .timeout } })
    | none =>
      if !(rangeAt s id).isEmpty then s else
      let deg := (runSectors r.runs).any fun x => degraded2 s (place s x).1
      settle (markPerformed s { r with pend := [], cpl := some { status := if deg then .degraded else .ok } })

/-! ## Completions leave (R97 to R101, R223) -/

/-- What the completion data buffer gives for a read that is sent (Table 10.3): a corrected word is sent corrected, and an uncorrectable one makes its sector one
of R100. `outs` are what its sectors' words are found as: 0 good, 1 corrected, 2 uncorrectable. -/
def fromBuffer (s : State) (r : Req) (c : Cpl) (outs : List Nat) : State × Cpl :=
  if r.op ≠ .rd then (s, c) else
  let found := c.sects.zipIdx
  let s := found.foldl (fun t e => bufferWord t 3 (outs.getD e.2 0) (place t (r.dev / 64 + e.2)).1 r e.1) s
  let sects := found.map fun e => if outs.getD e.2 0 = 2 then poisoned0 else e.1
  (s, { c with sects := sects, status := if found.any fun e => outs.getD e.2 0 == 2 then .uncorrectable else c.status })

/-- What the completion data buffer gives for a completion that is placed alone. -/
def bufferFindings : CplForm → List Nat
  | .wack => []
  | .alone outs => outs

/-- The completed writes that share a WACK with `r` (R98): those of its domain that ended OK, thirty at most. -/
def wackGroup (s : State) (r : Req) : List Req :=
  ((readyReqs s).filter fun q => q.op == .wr && !q.prior && q.p.dom == r.p.dom && q.cpl == some { status := .ok }).take 30

/-- Place completion number `n` of those ready (rejections first) on group `g`: in a WACK with the OK writes of its domain, or
alone with what the completion data buffer gives (R98). -/
def completionPlace (g n : Nat) (form : CplForm) (s : State) : State :=
  if n < s.rqe.rejQ.length then
    let p := s.rqe.rejQ.getD n []
    if vc1Room s g p then retake (placeVc1 { s with rqe.rejQ := s.rqe.rejQ.eraseIdx n } g p) else s
  else
    match (readyReqs s)[n - s.rqe.rejQ.length]? with
    | none => s
    | some r =>
      if r.prior then retake (settle (discardPrior s r)) else
      match r.cpl with
      | none => s
      | some c =>
        if form == .wack && r.op == .wr && c.status == .ok then
          let group := wackGroup s r
          let p := wackBytes r.p.dom (group.map (·.p.tag))
          if vc1Room s g p then retake (settle (group.foldl markSent (placeVc1 s g p))) else s
        else if vc1Room s g (completionBytes r c) then
          let (s, c) := fromBuffer s r c (bufferFindings form)
          retake (settle (markSent (placeVc1 s g (completionBytes r c)) r))
        else s

/-! ## Purge (R133) -/

/-- Work of a range that has not been written leaves the write queues: a range that a purge removes stops at a sector boundary. -/
def rangeStopped (s : State) (r : Req) : State :=
  (rangeAt s r.id).foldl (fun t c => t.setDmc c { t.dmcOf c with wq := (t.dmcOf c).wq.filter fun w => w.req != r.id }) s

/-- Start a purge of domain `d` (R133, steps 1 and 2): `EN` clears, waiting packets are rejected with STATE, and every request neither issued
nor performed whose completion has not been sent completes with TIMEOUT, a FLUSH or ZERO at work among them. -/
def startPurge (d : Nat) (s : State) : State :=
  let range (r : Req) : Bool := r.op == .flush || r.op == .zero
  let hit (r : Req) : Bool := r.iss == .host && r.p.dom == d && (!r.issued || range r) && !r.performed && !r.sent
  let gone := s.rqe.reqs.filter hit
  let s := (gone.filter range).foldl rangeStopped s
  let s := (s.wr F.RQE_DOM_CTL_EN 0 d).wr F.RQE_DOM_CTL_PURGE_BUSY 1 d
  let remove (r : Req) : Req := if hit r then { r with performed := true, pend := [], todo := [], cpl := some { status := .timeout } } else r
  let s := { s with rqe.reqs := s.rqe.reqs.map remove }
  retake (settle (s.inc F.RQE_DOM_REJ_REJ_STATE gone.length d))

/-! ## Internal requests (R281, R437) -/

/-- Internal traffic finds its entry, and `n` slots of the write data buffer, among those kept for it (R124, Table 5.4). -/
def internalRoom (s : State) (n : Nat) : Bool :=
  decide ((s.rqe.reqs.filter (·.iss != .host)).length < 820) && decide (sumReqs s (fun r => if r.iss = .host then 0 else wdbSlots r) + n ≤ 1024)

/-- A read as internal traffic of class 7: its runs of sectors, at most 64 sectors at once, enter the request buffer. -/
def internalRead (s : State) (iss : Issuer) (addr n : Nat) : State :=
  let id := s.rqe.nextId
  let r : Req := { id := id, op := .rd, p := { opc := 0, na := true }, iss := iss, at' := s.now, dev := addr, bytes := n * 64, pend := [(addr / 64, n)] }
  { countRange s false 0 n with rqe.nextId := id + 1, rqe.reqs := s.rqe.reqs ++ [r] }

/-- A write as internal traffic, with the metadata bytes of its sectors: performed at once, pending until written. -/
def internalWrite (s : State) (iss : Issuer) (addr : Nat) (data mdx : List Byte) : State :=
  let id := s.rqe.nextId
  let n := data.length / 64
  let r : Req :=
    { id := id, op := .wr, p := { opc := 0x10, na := true, md := true, data := data, mdx := mdx }, iss := iss, at' := s.now, dev := addr, bytes := n * 64
      pend := [(addr / 64, n)], cpl := some { status := .ok } }
  let r := { r with visible := true, performed := true, sent := true }
  markPerformed { countRange s false 0 n with rqe.nextId := id + 1, rqe.reqs := s.rqe.reqs ++ [r] } r

/-- A ZERO as internal traffic: `n` blocks of 4 KiB from a device address (Table 12.13). -/
def internalZero (s : State) (iss : Issuer) (addr n : Nat) : State :=
  let id := s.rqe.nextId
  let r : Req := { id := id, op := .zero, p := { opc := 0x31, na := true, rcnt := n - 1 }, iss := iss, at' := s.now, dev := addr, bytes := n * 4096,
                   pend := [(addr / 64, 64 * n)], runs := [(addr / 64, 64 * n)], todo := [(addr / 64, 64 * n)], sent := true }
  { s with rqe.nextId := id + 1, rqe.reqs := s.rqe.reqs ++ [r] }

/-- The first device address that internal commands may not name (R281): 128 GiB, or 124 GiB in fold-ready mode. -/
def devLimit (s : State) : Nat := if s.on F.TSV_FOLD_CTL_FR_MODE then 124 * 2 ^ 30 else 128 * 2 ^ 30

end Sys2Proof.Machine
end

