-- ==== Sys2Proof/Machine/Tsv.lean ====
section
/-! DEFINITION. TSV lines, row repair and channel fold (ch. 11). -/

namespace Sys2Proof.Machine

/-! ## Lines (R240 to R247) -/

/-- `PHY_DEAD` as one number of 84 bits. -/
def phyDead (s : State) (ch : Nat) : Nat :=
  s.rd F.TSV_PHY_DEAD0_PHY_DEAD ch + s.rd F.TSV_PHY_DEAD1_PHY_DEAD ch * 2 ^ 32 + s.rd F.TSV_PHY_DEAD2_PHY_DEAD ch * 2 ^ 64

/-- Store `PHY_DEAD`. -/
def putPhyDead (s : State) (ch v : Nat) : State :=
  ((s.wr F.TSV_PHY_DEAD0_PHY_DEAD v ch).wr F.TSV_PHY_DEAD1_PHY_DEAD (v / 2 ^ 32) ch).wr F.TSV_PHY_DEAD2_PHY_DEAD (v / 2 ^ 64) ch

/-- The shadow line of a channel, if any. -/
def shadowOf (s : State) (ch : Nat) : Option Nat :=
  let p := s.rd F.TSV_STAT_SHADOW_PHY ch
  if p = 127 then none else some p

/-- Set the shadow line, or none. -/
def setShadow (s : State) (ch : Nat) (p : Option Nat) : State := s.wr F.TSV_STAT_SHADOW_PHY (p.getD 127) ch

/-- The position that a line carries, if any. -/
def carries (s : State) (ch p : Nat) : Option Nat := (List.range 80).find? fun n => s.lineOf ch n == p

/-- Position `n` is taken from line `p`, or has none (127). -/
def setMap (s : State) (ch n p : Nat) : State :=
  let t := s.tsvCh ch
  s.setTsv ch { t with map := SMap.put t.map n n p }

/-- The spare lines: alive, idle, neither shadow nor under isolation. -/
def spareLines (s : State) (ch : Nat) : List Nat :=
  (List.range 84).filter fun p =>
    !bit (phyDead s ch) p && (carries s ch p).isNone && shadowOf s ch != some p && (s.tsvCh ch).isolated != some p

/-- The next target of a rolling step from line `p`: ascending, wrapping after P83, neither dead nor the shadow (R242). -/
def nextTarget (s : State) (ch p : Nat) : Nat :=
  (((List.range 84).map fun k => (p + k) % 84).find? fun q => !bit (phyDead s ch) q && shadowOf s ch != some q).getD 0

/-- A MAPSW takes effect at its burst boundary (R240): a rolling step is complete, and a line that a fast swap freed is isolated (Table 11.2, R246). -/
def applyMapSw (s : State) (ch : Nat) (m : MapSw) : State :=
  let s := setMap s ch m.pos m.line
  let s := match m.shadow with
    | some p =>
      let s := ((setShadow s ch (some p)).inc F.TSV_CAL_CNT_CAL_STEPS 1 ch).wr F.TSV_STAT_CAL_BUSY 0 ch
      s.wr F.TSV_STAT_CAL_PHY (nextTarget s ch ((p + 1) % 84)) ch
    | none => s
  match m.isolate with
  | some p => (s.setTsv ch { s.tsvCh ch with isolated := some p }).wr F.TSV_STAT_CAL_BUSY 0 ch
  | none => s

/-- A MAPSW is to be sent: in RUN it waits for a row-command slot and its boundary, elsewhere no burst is there to wait for. -/
def mapSw (s : State) (ch : Nat) (m : MapSw) : State :=
  if s.cstate ch = 2 then s.setTsv ch { s.tsvCh ch with sw := (s.tsvCh ch).sw ++ [m] } else applyMapSw s ch m

/-- Every MAPSW on its way takes effect (Table 11.7). -/
def applyAllMapSw (s : State) (ch : Nat) : State := (s.tsvCh ch).sw.foldl (fun t m => applyMapSw t ch m) (s.setTsv ch { s.tsvCh ch with sw := [] })

/-- A MAPSW that has not issued when the channel leaves RUN is given up with its step; one that has issued, or that covers a dead line, takes effect
(Table 17.4). -/
def endMapSw (s : State) (ch : Nat) : State :=
  (s.tsvCh ch).sw.foldl (fun t m => if m.at'.isSome || (m.shadow.isNone && m.isolate.isNone) then applyMapSw t ch m else setShadow t ch (some m.line))
    (s.setTsv ch { s.tsvCh ch with sw := [] })

/-- The map rebuilt at a cold boot and after DEEP SLEEP (R241). -/
def rebuildMap (s : State) (ch : Nat) : State :=
  let usable := (List.range 84).filter fun p => !bit (phyDead s ch) p
  let m := (List.range 80).foldl (fun m n => SMap.put m n n (usable.getD n 127)) ([] : SMap Nat)
  let s := s.setTsv ch { s.tsvCh ch with map := m, sw := [], step := none, fails := 0, spareFails := [], isolated := none, inPlace := none, fastWait := none }
  ((setShadow s ch usable[80]?).wr F.TSV_STAT_CAL_BUSY 0 ch).wr F.TSV_STAT_STALL_CAL (b2n (usable[80]?.isNone && s.on F.TSV_CTL_ROLL_EN ch)) ch

/-! ## The retired-resource log (R331) -/

/-- Word index of copy `k` of a channel's record. -/
def retireIdx (ch k : Nat) : Nat := 0x125000 + 256 * k + 8 * ch

/-- A copy of the record is valid (R328). -/
def retireOk (s : State) (ch k : Nat) : Bool :=
  let ws := (List.range 8).map fun j => s.mramAt (retireIdx ch k + j)
  ws.getD 7 0 == crcWords (ws.take 7) && !(s.pst.bad.any fun i => decide (retireIdx ch k ≤ i) && decide (i < retireIdx ch k + 8))

/-- a is newer than b, modulo 2^32 (R328). -/
def newerSeq (a b : Nat) : Bool := let d := (a + 2 ^ 32 - b) % 2 ^ 32; decide (1 ≤ d) && decide (d ≤ 2 ^ 31 - 1)

/-- The newer valid copy, if any (R329). -/
def newerCopy (ok0 ok1 : Bool) (q0 q1 : Nat) : Option Nat :=
  match ok0, ok1 with
  | true, true => some (if newerSeq q1 q0 then 1 else 0)
  | true, false => some 0
  | false, true => some 1
  | false, false => none

/-- The sequence number of the newer copy. -/
def retireSeq (s : State) (ch : Nat) : Nat :=
  match newerCopy (retireOk s ch 0) (retireOk s ch 1) (s.mramAt (retireIdx ch 0)) (s.mramAt (retireIdx ch 1)) with
  | some k => s.mramAt (retireIdx ch k)
  | none => 0

/-- Write the channel's record, whose end raises event 6c + 3 (R331, R245). -/
def retireLog (s : State) (ch kind which : Nat) : State :=
  let d := phyDead s ch
  let body := [(retireSeq s ch + 1) % 2 ^ 32, bits d 0 32, bits d 32 32, bits d 64 20,
    s.rd F.TSV_CA_CA_DEAD ch + s.rd F.TSV_CA_STB_DEAD ch * 2 ^ 26,
    s.rd F.TSV_STAT_DFAIL ch + s.rd F.TSV_STAT_CA_SPARES ch * 8 + s.rd F.TSV_STAT_STB_SPARE ch * 32, 0]
  let ws := body ++ [crcWords body]
  let copy (k : Nat) : List MWord := ws.zipIdx.map fun (v, j) =>
    { cls := 4, idx := retireIdx ch k + j, mask := 2 ^ 32 - 1, val := v
      act := if k = 1 ∧ j = 7 then .retire ch kind which else .none }
  s.portPut (copy 0 ++ copy 1)

/-- Raise event 6c + 3 (Table 11.4, Table 14.1). -/
def tsvEvent (s : State) (ch kind which : Nat) : State :=
  let sev : Sev := if kind = 4 then .fault else if kind = 0 ∨ kind = 1 ∨ kind = 5 ∨ kind = 6 then .warn else .degrade
  s.raise (6 * ch + 3) sev [kind + which * 16, tstate s ch + s.rd F.TSV_STAT_DFAIL ch * 8]

/-! ## Fold state (R256 to R258) -/

/-- Chunk in progress, 31 when not migrating (Table 11.18). -/
def fChunk (s : State) : Nat :=
  if s.fstate = fMigrate ∨ s.fstate = fPaused then min 30 (s.rd F.TSV_FOLD_PTR_FOLD_PTR / 131072) else 31

/-- The fold-progress event (Table 14.2). -/
def foldEvent (s : State) : State := s.raiseG 275 .info (s.rd F.TSV_FOLD_STAT_FOLDED_CH) (s.fstate + fChunk s * 8)

/-- Change `FSTATE`: the fold-state word is written (R257). -/
def setFstate (s : State) (v : Nat) : State :=
  let s := s.wr F.TSV_FOLD_STAT_FSTATE v
  s.putStackWord 3 2 8 (v + s.rd F.TSV_FOLD_STAT_FOLDED_CH * 8)

/-- Enter CLEAN for channel `ch` (Table 11.6). -/
def startFold (s : State) (ch : Nat) : State :=
  let s := setFstate (s.wr F.TSV_FOLD_STAT_FOLDED_CH ch) fClean
  let s := s.wr F.DIP_SCRUB_STAT_SCRUB_PAUSED 1
  let s := if s.sstate ch = ssBypass ∨ s.sstate ch = ssDrain then s else startDrain s ch
  foldEvent { s with tsv.foldPoison := s.cstate ch == 0 }

/-- A trigger of R258: a fold starts, or event 6c + 3 recommends one. -/
def foldTrigger (s : State) (ch : Nat) : State :=
  if s.on F.TSV_FOLD_CTL_FOLD_AUTO ∧ s.fstate = fReady then startFold s ch else tsvEvent s ch 8 0

/-- A write of `FOLD_GO`, and FOLD_START (R256). -/
def foldGo (s : State) (ch : Nat) : Code × State := if s.fstate = fReady ∧ s.cstate ch ≠ 0 then (.ok, startFold s ch) else (.state, s)

/-- A move in progress is dropped, to be made again: nothing has been written that a request can see (Table 11.7). -/
def foldDrop (s : State) : State :=
  (List.range 32).foldl (fun t c => t.setDmc c { t.dmcOf c with eng := (t.dmcOf c).eng.filter fun b => b.own != .fold }) { s with tsv.foldMove := none }

/-- MIGRATE pauses (Table 11.6). -/
def foldPause (s : State) : State := if s.fstate = fMigrate then setFstate (foldDrop s) fPaused else s

/-- PAUSED resumes once every channel concerned is in RUN and the link is up. -/
def foldResume (s : State) : State :=
  if s.fstate = fPaused ∧ s.link.up ∧
      (List.range 32).all (fun c => s.cstate c == 2 || (s.tsv.foldPoison && c == s.rd F.TSV_FOLD_STAT_FOLDED_CH)) then
    setFstate s fMigrate else s

/-- Slice f has reached BYPASS (Table 11.6). -/
def foldCleanEnd (s : State) : State :=
  let f := s.rd F.TSV_FOLD_STAT_FOLDED_CH
  if s.fstate = fClean ∧ (s.sstate f = ssBypass ∨ s.sstate f = ssOff) then setFstate s fMigrate else s

/-- A request to a unit of channel `f` is issued and unperformed, or one of its writes is queued (R255). -/
def unitBusy (s : State) (f u : Nat) : Bool :=
  let d := s.dmcOf f
  let inUnit (c : Nat) : Bool := c / 1024 == u
  d.q.any (fun e => inUnit e.c) || d.wq.any (fun e => inUnit e.c) || d.fly.any (fun e => inUnit e.1.c) ||
  d.fillWait.any (fun e => inUnit e.c) || d.rmw.any (fun e => let p := place s e.sec; p.1 == f && inUnit p.2) ||
  (s.victims f).any (fun v => inUnit (lineAddr v.set v.tag 0))

/-- An engine asks a channel for `n` bursts of a physical row. -/
def askBursts (s : State) (ch : Nat) (own : Engine) (bank row : Nat) (wr : Bool) (n : Nat) : State :=
  let d := startWatch s (s.dmcOf ch)
  s.setDmc ch { d with eng := d.eng ++ List.replicate n { own := own, bank := bank, row := row, wr := wr, at' := d.cyc, ord := s.rqe.nextId } }

/-- A channel holds no burst of an engine any more, and the data of the last are there. -/
def burstsDone (s : State) (ch : Nat) (own : Engine) : Bool :=
  let d := s.dmcOf ch
  !(d.eng.any fun b => b.own == own) && decide (d.engAt ≤ d.cyc)

/-- The channel that unit `u` of the fold moves to (R254). -/
def foldTarget (s : State) (u : Nat) : Nat :=
  let j := u / 131072
  if j < s.rd F.TSV_FOLD_STAT_FOLDED_CH then j else j + 1

/-- The target's bursts of a move. -/
def foldWrites (s : State) (u : Nat) : State :=
  let t := foldTarget s u
  let c := 0xF8000000 + u * 1024 % 2 ^ 27
  { askBursts s t .fold (bankOf c) (physRow s t (bankOf c) (rowOf c)) true 16 with tsv.foldMove := some true }

/-- The source of the fold gives no data: it is untrained or failed. -/
def foldBlind (s : State) : Bool := s.tsv.foldPoison || tstate s (s.rd F.TSV_FOLD_STAT_FOLDED_CH) == 5

/-- The move of the next unit starts (R255): nothing for it is issued and unperformed, and at most 20 units start in a window of 1,024 ns. It counts on the
throttle meter, which never holds it (R150). -/
def foldBegin (s : State) : State :=
  let f := s.rd F.TSV_FOLD_STAT_FOLDED_CH
  let u := s.rd F.TSV_FOLD_PTR_FOLD_PTR
  let (w, n) := if s.tsv.foldWin.1 + 8192 ≤ s.now then (s.now, 0) else s.tsv.foldWin
  if s.tsv.foldMove.isSome ∨ s.fstate ≠ fMigrate ∨ foldUnits ≤ u ∨ 20 ≤ n ∨ unitBusy s f u ∨ s.cstate (foldTarget s u) ≠ 2 ∨
      (s.cstate f ≠ 2 ∧ ¬ s.tsv.foldPoison) then s
  else
    let s := { countRange s false 0 16 with tsv.foldWin := (w, n + 1), tsv.foldMove := some false }
    if foldBlind s then foldWrites s u
    else askBursts s f .fold (bankOf (u * 1024)) (physRow s f (bankOf (u * 1024)) (rowOf (u * 1024))) false 16

/-- The sectors of the unit have been read, and their writes are asked for. -/
def foldAdvance (s : State) : State :=
  if s.tsv.foldMove = some false ∧ burstsDone s (s.rd F.TSV_FOLD_STAT_FOLDED_CH) .fold then foldWrites s (s.rd F.TSV_FOLD_PTR_FOLD_PTR) else s

/-- A fold unit is copied to its target and `FOLD_PTR` advances (R254, R255): its bursts have issued in both channels. It counts as class 7 traffic (Table 6.3). -/
def foldUnitMove (s : State) : State :=
  let f := s.rd F.TSV_FOLD_STAT_FOLDED_CH
  let u := s.rd F.TSV_FOLD_PTR_FOLD_PTR
  let t := foldTarget s u
  if s.fstate ≠ fMigrate ∨ s.tsv.foldMove ≠ some true ∨ ¬ burstsDone s t .fold then s
  else
    let step (s : State) (k : Nat) : State :=
      let c := u * 1024 + 64 * k
      let dst := sectorAt s t (0xF8000000 + c % 2 ^ 27)
      if foldBlind s then s.dramStore t dst poisoned0 else copySector s f (sectorAt s f c) t dst
    let s := (List.range 16).foldl step s
    let s := (s.cnt 14 1024).cnt 15 1024
    { s.wr F.TSV_FOLD_PTR_FOLD_PTR (u + 1) with tsv.foldMove := none }

/-- A chunk has completed (R257). -/
def foldChunkEnd (s : State) : State :=
  let u := s.rd F.TSV_FOLD_PTR_FOLD_PTR
  if s.fstate = fMigrate ∧ u ≠ 0 ∧ u % 131072 = 0 then foldEvent (s.putStackWord 4 0 22 u) else s

/-- The fold is done: channel f and its slice are powered off (Table 11.6). -/
def foldDone (s : State) : State :=
  let f := s.rd F.TSV_FOLD_STAT_FOLDED_CH
  if s.fstate = fMigrate ∧ s.rd F.TSV_FOLD_PTR_FOLD_PTR = foldUnits then
    let s := setFstate s fDone
    let s := ((s.wr F.DMC_STAT_CSTATE 0 f).wr F.SCC_STAT_SSTATE ssOff f).wr F.DIP_SCRUB_STAT_SCRUB_PAUSED 0
    foldEvent ({ s with tsv.foldPoison := false }.setDmc f {})
  else s

/-- A fold found complete at cold boot because the source is untrained, or interrupted (Table 11.6, R257). -/
def foldAtBoot (s : State) (ch : Nat) : State :=
  let s := setFstate ((s.wr F.TSV_FOLD_STAT_FOLDED_CH ch).wr F.TSV_FOLD_PTR_FOLD_PTR foldUnits) fDone
  s.putStackWord 4 0 22 foldUnits

/-! ## Dead lines (R245, Table 11.3) -/

/-- A spare becomes the shadow after its in-place step (R246, Table 11.3). -/
def nextShadow (s : State) (ch : Nat) : State :=
  match shadowOf s ch with
  | some _ => s
  | none =>
    if (s.tsvCh ch).isolated.isSome then s else
    match spareLines s ch with
    | p :: _ => s.setTsv ch { s.tsvCh ch with inPlace := some p, fails := 0 }
    | [] => s.wr F.TSV_STAT_STALL_CAL (s.rd F.TSV_CTL_ROLL_EN ch) ch

/-- A data line is declared dead (R245): its bit, `DFAIL`, the cover of its position, and the record whose end raises event 6c + 3. -/
def declareDead (ch p : Nat) (s : State) : State :=
  if bit (phyDead s ch) p then s else
  let s := applyAllMapSw s ch
  let pos := carries s ch p
  let n0 := s.rd F.TSV_STAT_DFAIL ch
  let s := (putPhyDead s ch (setBit (phyDead s ch) p)).inc F.TSV_STAT_DFAIL 1 ch
  let n := s.rd F.TSV_STAT_DFAIL ch
  let newly := n != n0
  let t := s.tsvCh ch
  -- a step on the line, or a step that the cover needs the shadow for, is abandoned
  let drop : Bool := pos.isSome || (match t.step with
    | some q => q.line == p
    | none => false) || shadowOf s ch == some p
  let t := { t with step := if drop then none else t.step }
  let t := { t with
    isolated := if t.isolated = some p then none else t.isolated, inPlace := if t.inPlace = some p then none else t.inPlace
    fastWait := if pos.isSome && t.fastWait == pos then none else t.fastWait }
  let s := (s.setTsv ch t).wr F.TSV_STAT_CAL_BUSY (b2n t.step.isSome) ch
  let s := match pos with
    | some q =>
      match shadowOf s ch with
      | some sh => setShadow (mapSw s ch { pos := q, line := sh }) ch none
      | none =>
        match spareLines s ch with
        | x :: _ => let s := mapSw s ch { pos := q, line := x }; s.setTsv ch { s.tsvCh ch with inPlace := none }
        | [] => setMap s ch q 127
    | none => if shadowOf s ch = some p then setShadow s ch none else s
  let s := nextShadow s ch
  let kind := if n ≤ 3 then 0 else n - 3
  let s := retireLog s ch (min kind 4) p
  if newly ∧ (n = 6 ∨ n = 7) then foldTrigger s ch else s

/-- A write of `KILL`, and TSV_KILL (R245): STATE if the line is already dead. -/
def killLine (s : State) (ch p : Nat) : Code × State := if bit (phyDead s ch) p then (.state, s) else (.ok, declareDead ch p s)

/-- A command/address line is spared (R249): a third failure ends the channel. -/
def caFail (ch line : Nat) (s : State) : State :=
  let d := s.rd F.TSV_CA_CA_DEAD ch
  if bit d line then s else
  let s := (s.wr F.TSV_CA_CA_DEAD (setBit d line) ch).wr F.TSV_STAT_CA_SPARES (min 2 (popCount (setBit d line) 26)) ch
  if popCount (setBit d line) 26 = 3 then foldTrigger (retireLog s ch 4 line) ch else if popCount (setBit d line) 26 > 3 then retireLog s ch 4 line else retireLog s ch 5 line

/-- A strobe pair is spared (R249): a second failure ends the channel. -/
def strobeFail (ch pair : Nat) (s : State) : State :=
  let d := s.rd F.TSV_CA_STB_DEAD ch
  if bit d pair then s else
  let s := (s.wr F.TSV_CA_STB_DEAD (setBit d pair) ch).wr F.TSV_STAT_STB_SPARE 1 ch
  if popCount (setBit d pair) 5 = 2 then foldTrigger (retireLog s ch 4 pair) ch else if popCount (setBit d pair) 5 > 2 then retireLog s ch 4 pair else retireLog s ch 6 pair

/-! ## Rolling calibration, fast swap, stalling calibration -/

/-- A channel whose lines can be calibrated now. -/
def calReady (s : State) (ch : Nat) : Bool := s.cstate ch == 2 && s.on F.TSV_CTL_ROLL_EN ch

/-- A rolling step starts (R242): with a shadow, and with nothing else in progress on the lines. -/
def rollStep (ch : Nat) (s : State) : State :=
  let t := s.tsvCh ch
  if !calReady s ch || (shadowOf s ch).isNone || t.step.isSome || t.isolated.isSome || t.inPlace.isSome || !t.sw.isEmpty then s else
  let p := nextTarget s ch (s.rd F.TSV_STAT_CAL_PHY ch)
  ((s.wr F.TSV_STAT_CAL_PHY p ch).wr F.TSV_STAT_CAL_BUSY 1 ch).setTsv ch { t with step := some { line := p, pos := carries s ch p } }

/-- Store a line's delay codes. -/
def putDly (s : State) (ch p rd wr : Nat) : State :=
  s.setTsv ch { s.tsvCh ch with dly := SMap.set (s.tsvCh ch).dly p (rd % 64, wr % 64) }

/-- The validation of a step ends (R242, R243, R246): MAPSW, or a failure that counts. `rd` and `wr` are the codes the sweep found. -/
def validationEnd (ch : Nat) (pass : Bool) (rd wr : Nat) (s : State) : State :=
  let t := s.tsvCh ch
  match t.step with
  | none => s
  | some st =>
    let s := (s.setTsv ch { t with step := none }).wr F.TSV_STAT_CAL_BUSY 0 ch
    let t := s.tsvCh ch
    match st.pos, shadowOf s ch with
    | some n, some sh =>
      if pass then
        let s := (setShadow (putDly s ch sh rd wr) ch none).wr F.TSV_STAT_CAL_BUSY 1 ch
        let s := s.setTsv ch { s.tsvCh ch with fails := 0 }
        mapSw s ch (if st.fast then { pos := n, line := sh, isolate := some st.line } else { pos := n, line := sh, shadow := some st.line })
      else
        let s := (s.inc F.TSV_DEAD_CAL_FAILS 1 ch).setTsv ch { t with fails := t.fails + 1 }
        if t.fails + 1 ≥ 3 then declareDead ch sh (s.setTsv ch { t with fails := 0 }) else s
    | none, _ =>
      if pass then
        let s := (putDly s ch st.line rd wr).inc F.TSV_CAL_CNT_CAL_STEPS 1 ch
        (s.setTsv ch { s.tsvCh ch with spareFails := SMap.erase t.spareFails st.line }).wr F.TSV_STAT_CAL_PHY
          (nextTarget s ch ((st.line + 1) % 84)) ch
      else
        let k := SMap.getD t.spareFails st.line 0 + 1
        let s := (s.inc F.TSV_DEAD_CAL_FAILS 1 ch).setTsv ch { t with spareFails := SMap.set t.spareFails st.line k }
        if k ≥ 2 then declareDead ch st.line s else s
    | some _, none => s

/-- The isolation test of the freed line ends (R246). -/
def isolationEnd (ch : Nat) (errors : Bool) (s : State) : State :=
  let t := s.tsvCh ch
  match t.isolated with
  | none => s
  | some p =>
    if errors then declareDead ch p s
    else (setShadow (s.setTsv ch { t with isolated := none }) ch (some p)).inc F.TSV_DEAD_FAST_CNT 1 ch

/-- The in-place step of a spare ends (R246): it becomes the shadow, or fails; two failures in a row end it. A suspect that waited is then swapped. -/
def inPlaceEnd (ch : Nat) (pass : Bool) (rd wr : Nat) (s : State) : State :=
  let t := s.tsvCh ch
  match t.inPlace with
  | none => s
  | some p =>
    if pass then
      let s := putDly (s.setTsv ch { t with inPlace := none, fastWait := none, spareFails := SMap.erase t.spareFails p }) ch p rd wr
      let s := setShadow s ch (some p)
      match t.fastWait with
      | some n => if (suspects s ch).contains n then fastStart s ch n else s
      | none => s
    else
      let k := SMap.getD t.spareFails p 0 + 1
      let s := s.setTsv ch { t with spareFails := SMap.set t.spareFails p k }
      if k ≥ 2 then declareDead ch p s else s

/-- A stall of at most 3 µs on the channel's column commands (R244). -/
def stallColumns (s : State) (ch cycles : Nat) : State :=
  let d := s.dmcOf ch
  s.setDmc ch { d with stallTo := max d.stallTo (d.cyc + cycles) }

/-- Without a shadow: the check of a suspect position in place (R247), or the next line's stalling calibration (R244). -/
def stallStep (ch : Nat) (pass : Bool) (rd wr : Nat) (s : State) : State :=
  let t := s.tsvCh ch
  if (shadowOf s ch).isSome || t.inPlace.isSome || t.isolated.isSome || !t.sw.isEmpty || s.cstate ch != 2 then s else
  match t.fastWait with
  | some n =>
    let s := stallColumns (s.setTsv ch { t with fastWait := none }) ch 4800
    if pass || s.lineOf ch n == 127 then s else declareDead ch (s.lineOf ch n) s
  | none =>
    if !s.on F.TSV_CTL_ROLL_EN ch then s else
    let p := nextTarget s ch (s.rd F.TSV_STAT_CAL_PHY ch)
    let s := (stallColumns s ch 4800).wr F.TSV_STAT_STALL_CAL 1 ch
    if pass then
      (((putDly s ch p rd wr).inc F.TSV_CAL_CNT_CAL_STEPS 1 ch)).wr F.TSV_STAT_CAL_PHY (nextTarget s ch ((p + 1) % 84)) ch
    else s.inc F.TSV_DEAD_CAL_FAILS 1 ch

/-- A step in progress is abandoned; map and codes are kept (Table 11.7). -/
def abandonStep (s : State) (ch : Nat) : State :=
  let s := endMapSw s ch
  (s.setTsv ch { s.tsvCh ch with step := none }).wr F.TSV_STAT_CAL_BUSY 0 ch

/-- A die signals a parity failure (R249): the channel issues nothing for at most 200 ns, and a line that the loopback finds bad is spared. -/
def parityAlert (ch : Nat) (bad : Option Nat) (s : State) : State :=
  if s.cstate ch ≠ 2 then s else
  let d := s.dmcOf ch
  let s := s.setDmc ch ((List.range 4).foldl (fun d r => d.setRank r { d.rankOf r with cmdOk := max (d.rankOf r).cmdOk (d.cyc + 320) }) d)
  match bad with
  | some l => caFail ch l s
  | none => s

/-! ## Row repair (R250 to R252, R447) -/

/-- The repair-map word of a remap entry in copy `k` (R330). -/
def rmapWord (ch bank spare k : Nat) : Nat := 0x0C0000 + 0x10000 * k + (ch * 128 + bank) * 16 + spare / 2

/-- The words that store an entry in both copies (Table 11.5, step 3; R330). -/
def rmapWords (ch bank spare v : Nat) (act : PortAct) : List MWord :=
  let sh := spare % 2 * 16
  let w (k : Nat) (a : PortAct) : MWord := { cls := 1, idx := rmapWord ch bank spare k, mask := 0xFFFF * 2 ^ sh, val := v * 2 ^ sh, act := a }
  [w 0 .none, w 1 act]

/-- A request issued to a row, or a queued write to it, that must end first (Table 11.5, step 1). -/
def rowBusy (s : State) (ch bank r : Nat) : Bool :=
  let d := s.dmcOf ch
  let at' (c : Nat) : Bool := bankOf c == bank && rowOf c == r
  d.q.any (fun e => at' e.c) || d.wq.any (fun e => at' e.c) || d.fly.any (fun e => at' e.1.c) ||
  d.rmw.any (fun e => let p := place s e.sec; p.1 == ch && at' p.2) || (s.victims ch).any (fun v => at' (lineAddr v.set v.tag 0))

/-- The stroke word of a spare is written as zero (R204). -/
def clearStroke (s : State) (ch bank prow : Nat) : State :=
  { s with rfm.stroke := SMap.put s.rfm.stroke ((ch * 128 + bank) * 65536 + prow) s.rfm.strokeBase 0 }

/-- A channel's repairs may start. -/
def rprReady (s : State) (q : Nat × Nat × Nat) : Bool := s.cstate q.1 == 2 && !rowBusy s q.1 q.2.1 q.2.2

/-- The oldest queued repair that can start takes the stack's slot (R447): the row is held and copied to the lowest free spare, whose bursts the channel
schedules, and its entry goes to the write port (Table 11.5, steps 1 to 3). Without a spare it ends with RESOURCE (R252). -/
def repairStart (s : State) : State :=
  if (List.range 32).any fun c => (s.tsvCh c).cur.isSome then s else
  match s.tsv.rprQ.find? (rprReady s) with
  | none => s
  | some (ch, bank, r) =>
    let s := { s with tsv.rprQ := s.tsv.rprQ.erase (ch, bank, r) }
    match (List.range 32).find? fun k => s.rmap ch bank k == 0 with
    | none => tsvEvent ((s.wr F.TSV_RPR_STAT_RPR_RES Code.resource.num ch).inc F.TSV_RPR_STAT_NOSPARE 1 ch) ch 7 bank
    | some sp =>
      let src := physRow s ch bank r
      let s := (List.range 16).foldl (fun t k => copySector t ch (physSector ch bank src k) ch (physSector ch bank (32768 + sp) k)) s
      let s := askBursts (askBursts (clearStroke s ch bank (32768 + sp)) ch .repair bank src false 16) ch .repair bank (32768 + sp) true 16
      let old := match spareOf s ch bank r with
        | some k => rmapWords ch bank k 1 .none
        | none => []
      let s := s.setTsv ch { s.tsvCh ch with cur := some (bank, r, sp), stored := false }
      (s.wr F.TSV_RPR_STAT_RPR_BUSY 1 ch).portPut (old ++ rmapWords ch bank sp (0x8000 + r) (.repair ch bank sp))

/-- Put an entry into the Jaold table. -/
def setRmap (s : State) (ch bank spare v : Nat) : State := { s with tsv.rmap := SMap.put s.tsv.rmap (rmapKey ch bank spare) 0 v }

/-- The stored entry is written to the Jaold table and the row is retired (Table 11.5, steps 4 and 5). -/
def repairComplete (ch : Nat) (s : State) : State :=
  let t := s.tsvCh ch
  match t.cur with
  | none => s
  | some (bank, r, sp) =>
    if !t.stored || bankHeld s ch bank || (s.dmcOf ch).eng.any (·.own == .repair) then s else
    let s := match spareOf s ch bank r with
      | some k => setRmap s ch bank k 1
      | none => s
    let s := (setRmap s ch bank sp (0x8000 + r)).setTsv ch { t with cur := none, stored := false }
    ((s.wr F.TSV_RPR_STAT_RPR_BUSY 0 ch).wr F.TSV_RPR_STAT_RPR_RES Code.ok.num ch).inc F.TSV_RPR_STAT_RPR_DONE 1 ch

/-- The repair ends because its word is at its limit (Table 15.3): RESOURCE, and the row stays in use. -/
def repairWorn (ch : Nat) (s : State) : State :=
  ((s.setTsv ch { s.tsvCh ch with cur := none, stored := false }).wr F.TSV_RPR_STAT_RPR_BUSY 0 ch).wr F.TSV_RPR_STAT_RPR_RES Code.resource.num ch

end Sys2Proof.Machine
end

