-- ==== Sys2Proof/Machine/Engines.lean ====
section
/-! DEFINITION. What starts by itself in a channel before a cycle is scheduled: patrol scrub (R227, R228, R230) and the upkeep of the write queue. -/

namespace Sys2Proof.Machine

/-! ## Patrol scrub (R227, R228, R230) -/

/-- A physical row that row repair has retired (R227): an ordinary row that a spare replaces, or a spare whose entry is unusable. -/
def rowRetired (s : State) (ch bank prow : Nat) : Bool :=
  if prow < 32768 then (spareOf s ch bank prow).isSome else s.rmap ch bank (prow - 32768) == 1

/-- The row after (`b`, `r`) in a pass; bank 128 is the end of the pass. -/
def scrubNext (b r : Nat) : Nat × Nat := if r < 32799 then (b, r + 1) else (b + 1, 0)

/-- The scrub of a channel goes on to its next row; `PASS_CNT` counts once every channel in RUN has completed a pass (R227). -/
def scrubAdvance (s : State) (ch : Nat) : State :=
  let (nb, nr) := scrubNext (s.rd F.DIP_SCRUB_SCRUB_BANK ch) (s.rd F.DIP_SCRUB_SCRUB_ROW ch)
  let s := (s.wr F.DIP_SCRUB_SCRUB_BANK (nb % 128) ch).wr F.DIP_SCRUB_SCRUB_ROW nr ch
  let s := s.setDmc ch { s.dmcOf ch with scrub := none }
  if nb < 128 then s else
  let passed := if s.dip.passed.contains ch then s.dip.passed else s.dip.passed ++ [ch]
  if (List.range 32).all fun c => s.cstate c != 2 || passed.contains c then
    { s.inc F.DIP_SCRUB_STAT_PASS_CNT with dip.passed := [] }
  else { s with dip.passed := passed }

/-- The interval between two scrub steps of a channel, in units of time (R227). -/
def scrubPeriod (s : State) : Nat := s.rd F.DIP_CTL_SCRUB_PER * 3600000000 / 4198400 * usec

/-- A channel scrubs now: in RUN, in RUN or IDLE of the stack, and not while a fold holds scrub (R227, R230). -/
def scrubRuns (s : State) (ch : Nat) : Bool :=
  (s.pck.pow == .run || s.pck.pow == .idle) && s.cstate ch == 2 && s.on F.DIP_CTL_SCRUB_EN && !s.on F.DIP_SCRUB_STAT_SCRUB_PAUSED

/-- A scrub step starts once its interval has passed and the step before has ended: it asks for the sixteen reads of its row and the PRE. A retired row is
skipped. -/
def scrubBegin (s : State) (ch : Nat) : State :=
  let d := s.dmcOf ch
  if !scrubRuns s ch || d.scrub.isSome || decide (s.now < d.scrubAt + scrubPeriod s) then s else
  let b := s.rd F.DIP_SCRUB_SCRUB_BANK ch
  let r := s.rd F.DIP_SCRUB_SCRUB_ROW ch
  if rowRetired s ch b r then scrubAdvance s ch else
  let s := askBursts s ch .scrub b r false 16
  let d := s.dmcOf ch
  s.setDmc ch { d with
    eng := d.eng ++ [{ own := .scrub, bank := b, row := r, pre := true, at' := d.cyc, ord := s.rqe.nextId }], scrub := some false, scrubAt := s.now }

/-- The write queue holds a write to a physical sector: a WR or WRP slot, a ZERO sector or one of the victim buffer (R183, R228). -/
def writeQueued (s : State) (ch ps : Nat) : Bool :=
  let at' (p : Nat × Nat) : Bool := p.1 == ch && sectorAt s ch p.2 == ps
  (s.rqe.reqs.any fun r => (r.op == .wr || r.op == .wrp) && (runSectors r.pend).any fun x => at' (place s x)) ||
  ((s.dmcOf ch).wq.any fun e => e.kind == .zero && at' (ch, e.c)) ||
  (s.victims ch).any fun v =>
    (v.s0.isSome && at' (ch, lineAddr v.set v.tag 0)) || (v.s1.isSome && at' (ch, lineAddr v.set v.tag 1))

/-- The last write-back of a scrub step has ended, or the step needs none: the step is over. -/
def scrubStepOver (s : State) (ch : Nat) : State :=
  if (SMap.getD s.dip.wb ch []).isEmpty && (s.dmcOf ch).unitSc.isNone then scrubAdvance s ch else s

/-- The unit takes the next scrubbed sector: dropped when a write to it is queued, and held back while an operation holds it or the unit is full (R228). -/
def unitTake (s : State) (ch : Nat) : State :=
  let d := s.dmcOf ch
  match SMap.getD s.dip.wb ch [] with
  | [] => s
  | ps :: rest =>
    if d.unitSc.isSome then s else
    let t : State := { s with dip.wb := SMap.put s.dip.wb ch [] rest }
    if writeQueued s ch ps then scrubStepOver t ch
    else if decide (16 ≤ d.rmw.length) || d.rmw.any fun e => let p := place s e.sec; p.1 == ch && sectorAt s ch p.2 == ps then s
    else t.setDmc ch { startWatch s d with unitSc := some (ps, none) }

/-! ## The upkeep of the queues -/

/-- A sector that a FLUSH was to clean, and that is neither D nor on its way out of the victim buffer any more, is clean (R93). -/
def pruneClean (s : State) (ch : Nat) : State :=
  let gone (e : WEnt) : Bool := e.kind == .clean && (victimSector s ch e.c).isNone && (match wayOf s ch e.c with
    | some w => (s.line ch (setOf e.c) w).st (halfOf e.c) != 3
    | none => true)
  ((s.dmcOf ch).wq.filter gone).foldl (fun t e =>
    let d := t.dmcOf ch
    let t := t.setDmc ch { d with wq := d.wq.erase e }
    let t := match wayOf t ch e.c, findReq t e.req with
      | some w, some r => if r.p.opf then cleanHalf t ch (setOf e.c) w (halfOf e.c) 0 else t
      | _, _ => t
    wrote t e.req e.sec) s

/-- The PRE of a scrub step is not needed where its row has been closed. -/
def prunePre (s : State) (ch : Nat) : State :=
  let d := s.dmcOf ch
  let idle := !(d.eng.any fun b => b.own == .scrub && !b.pre)
  s.setDmc ch { d with eng := d.eng.filter fun b => !(b.pre && idle && (d.bankOf b.bank).row != some b.row) }

/-- Since when the write-back that the slice's walk wants has waited. -/
def walkWaits (s : State) (ch : Nat) : State :=
  let d := s.dmcOf ch
  match walkNext s ch with
  | some _ => if d.walkAt = 0 then s.setDmc ch { d with walkAt := d.cyc } else s
  | none => s.setDmc ch { d with walkAt := 0, walkUp := false }

/-- The move of the fold's next unit starts, or goes on, where channel `ch` is its source or its target. -/
def foldWork (s : State) (ch : Nat) : State :=
  if s.fstate = fMigrate ∧ (s.rd F.TSV_FOLD_STAT_FOLDED_CH = ch ∨ foldTarget s (s.rd F.TSV_FOLD_PTR_FOLD_PTR) = ch) then foldBegin (foldAdvance s) else s

/-- The oldest MAPSW takes effect 32 cycles after it issued (R240). A suspect position that waited for a shadow is then swapped. -/
def mapSwEnd (s : State) (ch : Nat) : State :=
  let t := s.tsvCh ch
  match t.sw with
  | [] => s
  | m :: rest =>
    match m.at' with
    | none => s
    | some c =>
      if (s.dmcOf ch).cyc < c + 32 then s else
      let s := applyMapSw (s.setTsv ch { t with sw := rest }) ch m
      match t.fastWait, shadowOf s ch with
      | some n, some _ => (fun u => if (suspects u ch).contains n then fastStart u ch n else u) (s.setTsv ch { s.tsvCh ch with fastWait := none })
      | _, _ => s

/-- What happens in a channel before its picks of a cycle. -/
def upkeep (s : State) (ch : Nat) : State :=
  walkWaits (supersede (pruneClean (prunePre (foldWork (unitTake (scrubBegin (mapSwEnd s ch) ch) ch) ch) ch) ch) ch) ch

end Sys2Proof.Machine
end

