-- ==== Sys2Proof/Machine/Dram.lean ====
section
/-! DEFINITION. The DRAM channel controller (DMC, ch. 8): scheduling, drain mode, power-down, training, hang reset. -/

namespace Sys2Proof.Machine

/-! ## Refresh commands (R199, R200, R207) -/

/-- Words of a report burst from up to sixteen records (Table 9.3): the information bits of beat `k`. -/
def reportBeatInfo (recs : List Nat) (ovf more : Bool) (k : Nat) : Nat :=
  let r (n : Nat) : Nat := recs.getD n 0
  r (2 * k) + r (2 * k + 1) * 2 ^ 24 + b2n (decide (2 * k < recs.length)) * 2 ^ 48 + b2n (decide (2 * k + 1 < recs.length)) * 2 ^ 49 +
    (if k = 0 then b2n ovf * 2 ^ 50 + b2n more * 2 ^ 51 else 0)

/-- The physical rows that a REFpb at step `k` of a bank's row pointer refreshes: eight rows, and at a multiple of 1,024 a group of eight spare rows (R199). -/
def refreshRows (k : Nat) : List Nat :=
  (List.range 8).map (8 * k + ·) ++ (if k % 1024 = 0 then (List.range 8).map (32768 + 8 * (k / 1024) + ·) else [])

/-- The initialisation fill and its verify run: every REFpb carries `RPT` = 0 (R231). -/
def filling (s : State) : Bool := s.pck.pow == .boot && s.pck.step == 6

/-- The REFpb issued now to a bank of rank `r` carries `RPT` = 1 (R207): no report of the rank is outstanding, sixteen entries of the victim queue stay free
beside those that outstanding reports can fill, and the data TSVs have the cycle of the burst. -/
def asksReport (s : State) (d : Dmc) (r : Nat) : Bool :=
  let out := ((List.range 4).filter fun q => (d.rankOf q).rptOut).length
  !filling s && !(d.rankOf r).rptOut && decide (d.vq.length + 16 * out ≤ 48) && burstFits d.lastBurst r (d.cyc + tCL) && burstFits d.rptAt r (d.cyc + tCL)

/-- REFpb of a bank (R199, R200): its debt falls by the oldest unit, and the die's row pointer moves on. With `RPT` it carries the verdict on the rank's
last report (R207). -/
def doRefresh (s : State) (ch b : Nat) (overdue : Bool) : State :=
  let d := { noteCmd (s.dmcOf ch) b with cmdAt := s.now }
  let x := d.bankOf b
  let d := d.setBank b { x with owed := x.owed.drop 1, rptr := (x.rptr + 1) % 4096, actOk := d.cyc + tRFC }
  let r := d.rankOf (b / 32)
  let d := if asksReport s d (b / 32) then
      let q := if r.ack then r.dieq.drop r.rptSent else r.dieq
      { d.setRank (b / 32) { r with dieq := q, rptSent := min 16 q.length, rptOut := true } with rptAt := some (d.cyc + tCL, b / 32) }
    else d
  let s := s.setDmc ch d
  if overdue then s.inc F.RFM_REF_OVERDUE 1 ch else s

/-! ## What a bank wants (R179, R180, R209) -/

/-- What a bank serves next: a refresh, a victim refresh, a read, a write, the WR of an operation of the unit, a sector of the victim buffer, the write-back
of a walk, the RD of a scrubbed sector, or a command of an engine. -/
inductive Want where
  | refresh (overdue : Bool)
  | victim
  | read (e : DEnt)
  | write (e : WEnt)
  | unit
  | back (v : Victim) (h : Nat)
  | walk (e : Nat × Nat × Nat) (next : Nat)
  | scrubRead
  | eng (b : Burst)
  deriving DecidableEq, Repr

/-- A candidate with its key (R179): band, step and row hit, then age. `row` is the physical row that it needs; `dem` marks demand (Table 8.2). -/
structure Cand where
  bank : Nat
  want : Want
  band : Nat
  step : Nat
  hit : Bool
  age : Nat
  row : Nat := 0
  dem : Bool := false
  deriving DecidableEq, Repr

/-- `a` goes before `b` (R179). -/
def Cand.before (a b : Cand) : Bool :=
  if a.band ≠ b.band then decide (a.band < b.band)
  else if a.step ≠ b.step then decide (b.step < a.step)
  else if a.hit ≠ b.hit then a.hit
  else decide (b.age < a.age)

/-- The best of some candidates, the first among equals. -/
def bestCand : List Cand → Option Cand
  | [] => none
  | c :: r => match bestCand r with
    | none => some c
    | some x => some (if x.before c then x else c)

/-- The victim rows of an aggressor (R208). -/
def victimRows (row : Nat) : List Nat :=
  ([row - 2, row - 1, row + 1, row + 2].filter fun v =>
    v != row && decide (v ≤ row + 2) && decide (row ≤ v + 2) && (decide (v < 32768) == decide (row < 32768)) && decide (v < 32800)).eraseDups

/-- Work that needs an ordinary or spare row: age counts admissions, the earlier the older (log entry 123). -/
def rowCand (d : Dmc) (bank row : Nat) (want : Want) (band step ord : Nat) (dem : Bool) : Cand :=
  { bank := bank, want := want, band := band, step := step, hit := (d.bankOf bank).row == some row, age := 2 ^ 48 - ord, row := row, dem := dem }

/-- The work of a request at a channel address: class 7 is background until promoted, and else its urgency places it (Table 8.2). Work that a waiting repair
must see ended goes first (Table 11.5, step 1). -/
def reqCand (s : State) (ch : Nat) (d : Dmc) (want : Want) (id c : Nat) (urgent promoted : Bool) : Cand :=
  let step := match findReq s id with
    | some r => if r.iss = .host ∧ urgent then r.ustep else 0
    | none => 0
  let host : Bool := match findReq s id with
    | some r => r.iss == .host
    | none => true
  let (band, step) := if repairWaits s ch c then (3, 7) else if !host && !promoted then (6, 0) else if 3 ≤ step then (3, step) else (4, step)
  rowCand d (bankOf c) (entRow s ch c) want band step id host

/-- A write of the queue can go: no order holds it, and no repair (R127, R187, R252). -/
def writeFree (s : State) (ch : Nat) (e : WEnt) : Bool := (e.kind == .clean || mayWrite s e.req e.sec) && !rowLocked s ch e.c

/-- The sectors of the victim buffer that wait for their write (R164). -/
def backCands (s : State) (ch : Nat) (d : Dmc) : List Cand :=
  (s.victims ch).flatMap fun v => ((List.range 2).filter fun h => (if h = 0 then v.s0 else v.s1).isSome && !rowLocked s ch (lineAddr v.set v.tag h)).map fun h =>
    let c := lineAddr v.set v.tag h
    rowCand d (bankOf c) (entRow s ch c) (.back v h) (if repairWaits s ch c then 3 else 4) (if repairWaits s ch c then 7 else 0) v.ord true

/-- The oldest of some candidates. -/
def oldestCand : List Cand → Option Cand
  | [] => none
  | c :: r => match oldestCand r with
    | none => some c
    | some x => some (if c.age < x.age then x else c)

/-- The writes of a drain: the write queue and the victim buffer. A replay takes them in admission order (Table 8.7). -/
def drainCands (s : State) (ch : Nat) (d : Dmc) : List Cand :=
  let ws := ((d.wq.filter (writeFree s ch)).map fun e => reqCand s ch d (.write e) e.req e.c false e.promoted) ++ backCands s ch d
  if d.force then (oldestCand ws).toList else ws

/-- The operations of the unit whose data are there and that write DRAM: each waits for its row (R128, R184). -/
def unitCands (s : State) (ch : Nat) (d : Dmc) : List Cand :=
  let ops := d.rmw.filter fun e =>
    let c := (place s e.sec).2
    unitReady d e && !deadChannel s ch && !staysInSlice s ch c (if (cacheHit s ch c).isSome then wayOf s ch c else none)
  let scrub := match d.unitSc with
    | some (ps, none) => [rowCand d (ps / 16 / 65536 % 128) (ps / 16 % 65536) .scrubRead 6 0 s.rqe.nextId false]
    | some (ps, some t) => if t + 22 ≤ d.cyc then [rowCand d (ps / 16 / 65536 % 128) (ps / 16 % 65536) .unit 6 0 s.rqe.nextId false] else []
    | none => []
  ops.map (fun e => reqCand s ch d .unit e.req (place s e.sec).2 true false) ++ scrub

/-- The write-back that the slice's walk wants next: class 7 (R166). -/
def walkCand (s : State) (ch : Nat) (d : Dmc) : List Cand :=
  match walkNext s ch with
  | some (e, next) =>
    let c := lineAddr e.1 (s.line ch e.1 e.2.1).tag e.2.2
    if rowLocked s ch c then [] else [rowCand d (bankOf c) (entRow s ch c) (.walk e next) (if d.walkUp then 4 else 6) 0 s.rqe.nextId false]
  | none => []

/-- What the engines want: scrub in band 6, moves of the fold in band 4 at step 2 (R255), the copy of a repair with the work it waits for (log entry 124). The
PRE of a scrub step follows its reads. -/
def engCands (d : Dmc) (drain : Bool) : List Cand :=
  let reads := d.eng.any fun b => b.own == .scrub && !b.pre
  (d.eng.filter fun b => if b.pre then !reads else b.wr == drain).map fun b =>
    let (band, step) := match b.own with
      | .scrub => (if b.promoted then 4 else 6, 0)
      | .fold => (4, 2)
      | .repair => (3, 7)
    rowCand d b.bank b.row (.eng b) band step b.ord false

/-- The work of a channel in the mode it is in (R184): reads wait in DRAIN mode and writes in READ mode, but for those of the unit. -/
def workCands (s : State) (ch : Nat) (d : Dmc) : List Cand :=
  let drain := s.on F.DMC_STAT_MODE ch
  ((d.q.filter fun e => e.rmw || !drain).map fun e => reqCand s ch d (.read e) e.req e.c true e.promoted) ++ unitCands s ch d ++
    (if drain then drainCands s ch d ++ walkCand s ch d else []) ++ engCands d drain

/-- The candidates of a bank (R179, R209): its refresh, its victim refresh, and the work for it. A victim refresh once begun holds the bank. -/
def candsOf (s : State) (ch : Nat) (d : Dmc) (work : List Cand) (b : Nat) : List Cand :=
  let x := d.bankOf b
  match x.vref with
  | some [] => []
  | some _ => [{ bank := b, want := .victim, band := 2, step := 0, hit := false, age := 0 }]
  | none =>
    let late := decide (s.rd F.RFM_CTL_POSTPONE ≤ x.owed.length)
    let ref := match x.owed with
      | [] => []
      | t :: _ => [{ bank := b, want := .refresh late, band := if late then 1 else 5, step := 0, hit := false, age := d.cyc - t : Cand }]
    let vic := match d.vq.find? (·.1 == b) with
      | some v => [{ bank := b, want := .victim, band := 2, step := 0, hit := false, age := s.now - v.2.2 : Cand }]
      | none => []
    ref ++ vic ++ work.filter (·.bank == b)

/-- Work rather than refresh. -/
def Cand.work (c : Cand) : Bool := match c.want with
  | .refresh _ => false
  | .victim => false
  | _ => true

/-- A miss that a hit of the same band and step goes ahead of (R180). -/
def Cand.behind (c x : Cand) : Bool := x.work && !x.hit && x.band == c.band && x.step == c.step

/-- The pick of a bank: after `HIT_CAP` hits ahead of a miss of its step, the oldest such miss (R180). -/
def pickOf (s : State) (ch : Nat) (d : Dmc) (work : List Cand) (b : Nat) : Option Cand :=
  let cs := candsOf s ch d work b
  match bestCand cs with
  | none => none
  | some c =>
    if c.work && c.hit && decide (s.rd F.DMC_CTL_HIT_CAP ch ≤ (d.bankOf b).hits) then
      match bestCand (cs.filter c.behind) with
      | some m => some m
      | none => some c
    else some c

/-- The banks with something to serve. -/
def busyBanks (d : Dmc) (work : List Cand) : List Nat :=
  (List.range 128).filter fun b =>
    let x := d.bankOf b
    !x.owed.isEmpty || x.vref.isSome || d.vq.any (·.1 == b) || work.any (·.bank == b)

/-- A row command that a pick needs and may issue now. -/
inductive RowCmd where
  | act (row : Nat) (counts : Bool)
  | pre (conf : Bool)
  | ref (overdue : Bool)
  deriving DecidableEq, Repr

/-- The row command of a pick, if it can issue in this cycle. -/
def rowCmd (s : State) (ch : Nat) (d : Dmc) (c : Cand) : Option RowCmd :=
  let b := c.bank
  let x := d.bankOf b
  let close (conf : Bool) : Option RowCmd := if preOk s ch d b then some (.pre conf) else none
  let ends : Bool := match c.want with
    | .eng e => e.pre
    | _ => false
  match c.want with
  | .refresh o =>
    if x.row.isSome then close false
    else if rankReady s ch d b && decide (x.actOk ≤ d.cyc) then some (.ref o) else none
  | .victim =>
    if x.row.isSome then close false
    else
      let row := match x.vref with
        | some (v :: _) => some v
        | some [] => none
        | none => (d.vq.find? (·.1 == b)).bind fun v => (victimRows v.2.1).head?
      match row with
      | some v => if actOk s ch d b then some (.act v false) else none
      | none => none
  | _ =>
    match x.row with
    | some q => if ends then (if q = c.row then close false else none) else if q = c.row then none else close c.dem
    | none => if !ends && actOk s ch d b then some (.act c.row true) else none

/-! ## READ and DRAIN mode (Table 8.3, R185) -/

/-- A forcing cause of R185: the stretch of a warm reset or the flush of a power failure while anything is still to be written, a replay, or a FLUSH over
sectors to be written for it. -/
def forcing (s : State) (ch : Nat) : Bool :=
  let d := s.dmcOf ch
  (sinking s && (decide (0 < wqUsed s ch) || !d.wq.isEmpty || !d.rmw.isEmpty || (s.sstate ch == ssFlush && (walkNext s ch).isSome))) ||
  (d.force && (d.wq.any (writeFree s ch) || decide (0 < victimSectors s ch))) ||
  s.rqe.reqs.any fun q => q.op == .flush && q.issued && !q.performed &&
    d.wq.any fun e => e.req == q.id || (e.kind != .clean && decide (e.req < q.id) && inRuns q.runs e.sec && writeFree s ch e)

/-- A read of the channel is queued: not one of the unit, which no mode holds. -/
def readQueued (d : Dmc) : Bool := (d.q.any fun e => !e.rmw) || d.eng.any fun b => !b.wr && !b.pre

/-- Writes wait that `WQ_USED` does not count: cleaning by FLUSH, a walk, an engine (log entry 125). -/
def otherWrites (s : State) (ch : Nat) (d : Dmc) : Bool := d.wq.any (·.kind == .clean) || (walkNext s ch).isSome || d.eng.any (·.wr)

/-- The mode of the next cycle. -/
def updateMode (s : State) (ch : Nat) : State :=
  let d := s.dmcOf ch
  let used := wqUsed s ch
  let f := forcing s ch
  let d := if d.force && !(d.wq.any (writeFree s ch) || decide (0 < victimSectors s ch)) then { d with force := false } else d
  let readQ := readQueued d
  let urgent := d.q.any fun e => !e.rmw && (match findReq s e.req with
    | some r => decide (3 ≤ r.ustep)
    | none => false)
  let cap := s.rd F.DMC_WQ_WQ_CAP ch
  let toRead (s : State) : State := (s.wr F.DMC_STAT_MODE 0 ch).setDmc ch { d with reads := 0, oppo := false }
  let toDrain (s : State) (oppo : Bool) : State := (s.wr F.DMC_STAT_MODE 1 ch).setDmc ch { d with burst := 0, oppo := oppo }
  let s := (s.setDmc ch d).wr F.DMC_STAT_FORCED (b2n f) ch
  if s.on F.DMC_STAT_MODE ch then
    if f then s
    else if d.oppo ∧ readQ ∧ used < s.rd F.DMC_WM_WM_HI ch then toRead s
    else if used ≤ s.rd F.DMC_WM_WM_LO ch then toRead s
    else if s.rd F.DMC_WQ_DRAIN_MAX ch ≤ d.burst ∧ urgent ∧ used < cap then toRead s
    else s
  else
    if f then toDrain s false
    else if s.rd F.DMC_WM_WM_HI ch ≤ used ∧ (s.rd F.DMC_WQ_READ_MIN ch ≤ d.reads ∨ cap ≤ used) then
      (toDrain s false).inc F.DMC_DRAIN_CNT_DRAIN_CNT 1 ch
    else if !readQ ∧ (1 ≤ used ∨ otherWrites s ch d) then toDrain s true
    else s

/-! ## One DCK cycle (R177, R181) -/

/-- Issue a row command. -/
def issueRow (s : State) (ch : Nat) (c : Cand) (cmd : RowCmd) : State :=
  let b := c.bank
  let d := s.dmcOf ch
  let s := s.setDmc ch { d with rowAt := d.cyc }
  match cmd with
  | .ref o => doRefresh s ch b o
  | .pre conf =>
    let x := (s.dmcOf ch).bankOf b
    let s := doPre s ch b
    let d := s.dmcOf ch
    let y := d.bankOf b
    match x.vref, c.want with
    | some (_ :: r), _ => s.setDmc ch (d.setBank b { y with vref := some r })
    | _, .eng e => if e.pre then s.setDmc ch { d with eng := d.eng.erase e } else s
    | _, _ => if conf then (s.setDmc ch (d.setBank b { y with conf := true })).inc F.DMC_CONF_CNT_CONF_CNT 1 ch else s
  | .act row counts =>
    let x := (s.dmcOf ch).bankOf b
    let s := doAct s ch b row counts
    let d := s.dmcOf ch
    let y := d.bankOf b
    if counts then
      let d := d.setBank b { y with hits := 0, conf := false }
      let scrubs : Bool := match c.want with
        | .eng e => e.own == .scrub
        | _ => false
      let s := (s.setDmc ch (if scrubs then { d with scrub := some true } else d)).inc F.DMC_ACT_CNT_ACT_CNT 1 ch
      if x.conf || !c.dem then s else s.inc F.DMC_EMPTY_CNT_EMPTY_CNT 1 ch
    else match x.vref with
      | some _ => s
      | none =>
        let rows := match d.vq.find? (·.1 == b) with
          | some v => victimRows v.2.1
          | none => []
        s.setDmc ch (d.setBank b { y with vref := some rows })

/-- A pick's column command is a WR. -/
def Cand.writes (c : Cand) : Bool := match c.want with
  | .write _ => true
  | .unit => true
  | .back _ _ => true
  | .walk _ _ => true
  | .eng b => b.wr
  | _ => false

/-- The column command of a pick can issue in this cycle. -/
def colReady (s : State) (ch : Nat) (d : Dmc) (c : Cand) : Bool :=
  let ends : Bool := match c.want with
    | .eng e => e.pre
    | _ => false
  c.work && !ends && (d.bankOf c.bank).row == some c.row && colOk s ch d c.bank c.writes

/-- Count a hit served ahead of a waiting miss of its step (R180). -/
def countHit (s : State) (ch : Nat) (c : Cand) (work : List Cand) (wasFresh : Bool) : State :=
  let d := s.dmcOf ch
  let x := d.bankOf c.bank
  s.setDmc ch (d.setBank c.bank { x with hits := if !wasFresh && work.any (fun m => m.bank == c.bank && c.behind m) then x.hits + 1 else x.hits })

/-- A WR of the drain has issued (Table 8.3). -/
def countBurst (s : State) (ch : Nat) : State := s.setDmc ch { s.dmcOf ch with burst := (s.dmcOf ch).burst + 1 }

/-- A queued write issues: its sector is in DRAM (R187), or clean. -/
def writeIssue (s : State) (ch : Nat) (e : WEnt) : State :=
  let d := s.dmcOf ch
  let s := countBurst (s.setDmc ch { d with wq := d.wq.erase e }) ch
  let s := match e.kind, findReq s e.req with
    | .zero, _ => leaveList (s.dramWrite ch e.c zeroSector) ch e.c
    | .wr, some r => leaveList (s.dramWrite ch e.c (wrSector r e.sec)) ch e.c
    | .clean, some r => (match wayOf s ch e.c with
      | some w => cleanHalf s ch (setOf e.c) w (halfOf e.c) (if r.p.opf then 0 else 2)
      | none => s)
    | _, none => s
  wrote s e.req e.sec

/-- A slice under a flush order that holds no D sector any more takes `SSTATE` = OFF (R169). -/
def flushEnd (s : State) (sl : Nat) : State := if s.sstate sl = ssFlush ∧ dirtyLines s sl = 0 then s.wr F.SCC_STAT_SSTATE ssOff sl else s

/-- A command of an engine issues. -/
def engIssue (s : State) (ch : Nat) (b : Burst) : State :=
  let d := s.dmcOf ch
  let d := { d with eng := d.eng.erase b, engAt := d.cyc + 1 + (if b.wr then tCWL else tCL), reads := d.reads + b2n (!b.wr)
                    scrub := if b.own = .scrub then some true else d.scrub }
  if b.wr then (countBurst (s.setDmc ch d) ch).inc F.DMC_WR_SECT_WR_SECT 1 ch else s.setDmc ch d

/-- Issue a column command: RD puts data in flight or gives the unit its sector, WR writes its sector (R187). -/
def issueCol (s : State) (ch : Nat) (c : Cand) (work : List Cand) : State :=
  let fresh := ((s.dmcOf ch).bankOf c.bank).fresh
  let s := countHit (doCol s ch c.bank c.writes) ch c work fresh
  let d := s.dmcOf ch
  match c.want with
  | .read e =>
    let d := { d with q := d.q.erase e }
    s.setDmc ch (if e.rmw then { d with rmw := d.rmw.map fun x => if x.req = e.req then { x with read := some d.cyc } else x }
      else { d with fly := d.fly ++ [(e, d.cyc)], reads := d.reads + 1 })
  | .write e => writeIssue s ch e
  | .back v h => victimIssue (countBurst s ch) ch v h
  | .walk e next => flushEnd (walkIssue ((countBurst s ch).setDmc ch { (countBurst s ch).dmcOf ch with walkAt := d.cyc, walkUp := false }) ch e next) ch
  | .scrubRead => s.setDmc ch { d with unitSc := d.unitSc.map fun u => (u.1, some d.cyc) }
  | .eng b => engIssue s ch b
  | _ => s

/-- The rank whose PDE issues now, if any (Table 8.5). -/
def pdeRank (d : Dmc) : Option Nat := (List.range 4).find? fun r => match (d.rankOf r).pdeDue with
  | some t => decide (t ≤ d.cyc)
  | none => false

/-- PDE: the rank is in precharge power-down (Table 8.5). -/
def doPde (s : State) (ch r : Nat) : State :=
  let d := s.dmcOf ch
  let s := s.setDmc ch ({ d with rowAt := d.cyc }.setRank r { d.rankOf r with pde := d.cyc, pdeDue := none })
  (s.wr F.DMC_RANK_STAT_PSTATE 2 ch r).inc F.DMC_RANK_PD_PD_ENTRIES 1 ch r

/-- A MAPSW waits for a row-command slot (R240). -/
def mapSwWaits (s : State) (ch : Nat) : Bool := match (s.tsvCh ch).sw with
  | m :: _ => m.at'.isNone
  | [] => false

/-- MAPSW issues. -/
def issueMapSw (s : State) (ch : Nat) : State :=
  let d := s.dmcOf ch
  let t := s.tsvCh ch
  (s.setDmc ch { d with rowAt := d.cyc }).setTsv ch { t with sw := (t.sw.take 1).map (fun m => { m with at' := some d.cyc }) ++ t.sw.drop 1 }

/-- The row command of a cycle: a PDE that is due, a MAPSW that waits (log entry 127), or that of the best pick that can issue one. -/
def rowSlotUse (s : State) (ch : Nat) (picks : List Cand) : State :=
  let d := s.dmcOf ch
  match pdeRank d, mapSwWaits s ch with
  | some r, _ => doPde s ch r
  | none, true => issueMapSw s ch
  | none, false =>
    match bestCand (picks.filter fun c => (rowCmd s ch d c).isSome) with
    | some c => match rowCmd s ch d c with
      | some cmd => issueRow s ch c cmd
      | none => s
    | none => s

/-- The column command of a cycle. A WR of the unit issues with the row that performs its operation (R128): its slot is left free. -/
def colSlotUse (s : State) (ch : Nat) (picks work : List Cand) : State :=
  match bestCand (picks.filter (colReady s ch (s.dmcOf ch))) with
  | some c => if c.want = .unit then s else settle (issueCol s ch c work)
  | none => s

/-- One DCK cycle of channel `ch` (R177, R179, R181): the mode, the picks, one row and one column command. In training on `TRAIN_GO` only
refresh is served (R189). -/
def bankSchedule (ch : Nat) (s : State) : State :=
  let d := s.dmcOf ch
  let inTrain : Bool := match d.train with
    | some t => t.inRun
    | none => false
  if !(s.cstate ch == 2 || (s.cstate ch == 1 && inTrain)) || d.hung then s else
  let s := s.setDmc ch { d with cyc := d.cyc + 1 }
  let s := if inTrain then s else updateMode (upkeep s ch) ch
  let d := s.dmcOf ch
  let work := if inTrain then [] else workCands s ch d
  let picks := (busyBanks d work).filterMap fun b => pickOf s ch d work b
  colSlotUse (rowSlotUse s ch picks) ch picks work

/-- Class 7 work that has waited `BG_PROMOTE` µs moves to band 4 (Table 8.2). -/
def bgPromote (ch : Nat) (s : State) : State :=
  let d := s.dmcOf ch
  let due (t : Nat) : Bool := decide (t + s.rd F.DMC_HANG_BG_PROMOTE ch * 1600 ≤ d.cyc)
  let internal (id : Nat) : Bool := match findReq s id with
    | some r => r.iss != .host
    | none => false
  s.setDmc ch { d with
    q := d.q.map fun e => if internal e.req && due e.at' then { e with promoted := true } else e
    wq := d.wq.map fun e => if internal e.req && due e.at' then { e with promoted := true } else e
    eng := d.eng.map fun b => if b.own = .scrub ∧ due b.at' then { b with promoted := true } else b
    walkUp := d.walkUp || (d.walkAt != 0 && due d.walkAt) }

/-! ## Rank power states (R188) -/

/-- Work for a rank: a request admitted for one of its banks or in flight, a write-back, an engine's command, a victim refresh, or refresh owed. -/
def rankWork (s : State) (ch r : Nat) : Bool :=
  let d := s.dmcOf ch
  let mine (b : Nat) : Bool := b / 32 == r
  d.q.any (fun e => rankOf e.c == r) || d.wq.any (fun e => rankOf e.c == r) || d.fly.any (fun e => rankOf e.1.c == r) ||
  d.rmw.any (fun e => let p := place s e.sec; p.1 == ch && rankOf p.2 == r) || d.eng.any (fun b => mine b.bank) || d.vq.any (fun v => mine v.1) ||
  (s.victims ch).any (fun v => rankOf (lineAddr v.set v.tag 0) == r) || (walkCand s ch d).any (fun c => mine c.bank) ||
  (d.unitSc.any fun u => mine (u.1 / 16 / 65536 % 128)) ||
  (List.range 32).any fun k => !(d.bankOf (32 * r + k)).owed.isEmpty || (d.bankOf (32 * r + k)).vref.isSome || !(bankQueue s ch (32 * r + k)).isEmpty

/-- A refresh of the rank comes due within 64 cycles (Table 8.5). -/
def tickNear (d : Dmc) (r : Nat) : Bool := (List.range 32).any fun k => decide ((d.bankOf (32 * r + k)).tick ≤ d.cyc + 64)

/-- The row-command slot of the present cycle is free (R177). -/
def rowFree (d : Dmc) : Bool := d.rowAt != d.cyc

/-- A rank begins its way into precharge power-down (Table 8.5): PREA now, PDE after tRP. -/
def powerDownEntry (ch r : Nat) (s : State) : State :=
  let d := s.dmcOf ch
  let openBanks := (List.range 32).filter fun k => (d.bankOf (32 * r + k)).row.isSome
  if s.on F.DMC_CTL_PD_EN ch ∧ s.cstate ch = 2 ∧ pstate s ch r = 1 ∧ (d.rankOf r).pdeDue = none ∧ ¬ rankWork s ch r ∧ ¬ tickNear d r ∧ rowFree d ∧
      (d.rankOf r).busyAt + s.rd F.DMC_CTL_PD_IDLE ch ≤ d.cyc ∧ openBanks.all (fun k => preOk s ch d (32 * r + k)) then
    let s := doPreAll s ch r
    let d := s.dmcOf ch
    s.setDmc ch ({ d with rowAt := d.cyc }.setRank r { d.rankOf r with pdeDue := some (d.cyc + tRP) })
  else s

/-- A rank leaves precharge power-down for work (Table 8.5): PDX. -/
def powerDownExit (ch r : Nat) (s : State) : State :=
  let d := s.dmcOf ch
  if pstate s ch r = 2 ∧ rankWork s ch r ∧ rowFree d ∧ (d.rankOf r).pde + tCKE ≤ d.cyc then
    (s.setDmc ch ({ d with rowAt := d.cyc }.setRank r { d.rankOf r with cmdOk := d.cyc + tXP, busyAt := d.cyc })).wr F.DMC_RANK_STAT_PSTATE 1 ch r
  else s

/-- The first cycle in which every open row of a channel can close, every burst has ended, and the ranks in power-down take a command again. -/
def closeAt (s : State) (ch : Nat) : Nat :=
  let d := s.dmcOf ch
  let burst := match d.lastBurst with
    | some (t, _) => t + 1
    | none => 0
  let rows := (List.range 128).map fun b => if (d.bankOf b).row.isSome then (d.bankOf b).preOk else 0
  let ranks := (List.range 4).map fun r => if pstate s ch r = 2 then max (d.cyc + 1) ((d.rankOf r).pde + tCKE) + tXP else (d.rankOf r).cmdOk
  (rows ++ ranks).foldl max (max (d.cyc + 1) burst)

/-- Every rank of a channel goes to self-refresh (Table 8.5): PDX, PREA rank by rank once every interval allows, SRE after tRP. An outstanding
report will be sent again (Table 9.4). -/
def srefEnter (s : State) (ch : Nat) : State :=
  let t := closeAt s ch
  let s := (List.range 4).foldl (fun u r =>
    let u := doPreAll (u.setDmc ch { u.dmcOf ch with cyc := t + r }) ch r
    let d := u.dmcOf ch
    (u.setDmc ch (d.setRank r { d.rankOf r with rptOut := false, ack := false, rptSent := 0, pdeDue := none })).wr F.DMC_RANK_STAT_PSTATE 3 ch r) s
  s.setDmc ch { s.dmcOf ch with cyc := t + 3 + tRP, rowAt := t + 3 + tRP, rptAt := none }

/-- Mean interval of the REFpb of a bank of rank `r`, in DCK cycles: by the rate of its die (Table 9.1). -/
def tREFI (s : State) (ch r : Nat) : Nat := if s.on F.RFM_DIE_DBL (dieOf ch r) then 6250 else 12500

/-- SRX: every bank owes one refresh, its ticks restart, and a victim refresh cut short starts again (R203). Where the die's row pointers have come to
is a free value. -/
def srefExit (s : State) (ch : Nat) : State :=
  let (vs, s) := s.draws 128
  let d := s.dmcOf ch
  let t0 := d.cyc + tXS
  let d := (List.range 4).foldl (fun d r => d.setRank r { d.rankOf r with cmdOk := t0, busyAt := d.cyc, acts := [], lastAct := none, wrEnd := [] }) d
  let d := (List.range 128).foldl (fun d b =>
    let p := tREFI s ch (b / 32)
    d.setBank b { d.bankOf b with actOk := t0, owed := [t0], tick := t0 + p + b * p / 128, rptr := vs.getD b 0 % 4096, vref := none, row := none }) d
  let s := s.setDmc ch { d with lastCol := none, lastBurst := none, rptAt := none, cmdAt := s.now }
  let s := if s.rd F.RFM_REF_MAX_DEBT ch = 0 then s.wr F.RFM_REF_MAX_DEBT 1 ch else s
  (List.range 4).foldl (fun t r => t.wr F.DMC_RANK_STAT_PSTATE 1 ch r) s

/-! ## Hang reset (R192 to R195) -/

/-- Complete a request of a hung channel with TIMEOUT (R194). -/
def timeOut (s : State) (r : Req) : State := setReq s { r with performed := true, visible := true, pend := [], cpl := some { status := .timeout } }

/-- Requests other than range work with issued, unperformed work in a channel: reads, atomics and merges. -/
def hungReqs (s : State) (ch : Nat) : List Req :=
  let d := s.dmcOf ch
  s.rqe.reqs.filter fun r =>
    d.q.any (·.req == r.id) || d.fly.any (·.1.req == r.id) || d.fillWait.any (·.req == r.id) || d.rmw.any (·.req == r.id)

/-- Range work of a host that the channel holds: it issues no more, and its TIMEOUT follows once its work in the other channels has ended (R194). -/
def hungRange (s : State) (ch : Nat) (r : Req) : State :=
  if (r.op = .flush ∨ r.op = .zero) ∧ r.iss = .host ∧ !r.performed ∧ (s.dmcOf ch).wq.any (·.req == r.id) then
    setReq s { r with todo := [], tmo := some (r.tmo.getD ch) }
  else s

/-- The sectors that FLUSH work was to clean stay as they are (R194). -/
def dropCleanWork (s : State) (ch : Nat) : State :=
  ((s.dmcOf ch).wq.filter (·.kind == .clean)).foldl (fun t e =>
    let d := t.dmcOf ch
    let t := t.setDmc ch { d with wq := d.wq.erase e }
    match findReq t e.req with
    | some r => if r.iss = .host then wrote t e.req e.sec else setReq t { r with todo := (e.sec, 1) :: r.todo }
    | none => t) s

/-- The event of a hang or of a failed training (Table 14.1). -/
def hangEvent (s : State) (ch rank : Nat) : State :=
  s.raise (6 * ch + 5) .fault [s.rd F.DMC_HANG_STAT_HCAUSE ch + rank * 4 + s.rd F.DMC_STAT_HANG_LIM_HIT ch * 16 + s.rd F.DMC_HANG_STAT_HANGS ch * 256]

/-- The engines' commands leave a channel: a move of the fold is dropped wherever it is, a repair starts again, a scrub step is repeated (R230, Table 11.7). -/
def leaveEngines (s : State) (ch : Nat) : State :=
  let d := s.dmcOf ch
  let s := if d.eng.any (·.own == .fold) then foldDrop s else s
  let d := s.dmcOf ch
  { s.setDmc ch { d with eng := [], engAt := 0, scrub := none, unitSc := none } with dip.wb := SMap.erase s.dip.wb ch }

/-- Abandon what a channel works on when it leaves RUN: calibration step, scrub step, armed injection, repair (R236, Table 11.7). -/
def leaveRun (s : State) (ch : Nat) : State :=
  let s := leaveEngines (abandonStep s ch) ch
  let s := match s.dip.inj with
    | some (c, _, _, _) => if c = ch then { s.wr F.DIP_INJ_INJ_ARMED 0 with dip.inj := none } else s
    | none => s
  let t := s.tsvCh ch
  match t.cur with
  | some (b, r, _) =>
    if t.stored then s else
    let s := (s.setTsv ch { t with cur := none, stored := false }).wr F.TSV_RPR_STAT_RPR_BUSY 0 ch
    { s with tsv.rprQ := (ch, b, r) :: s.tsv.rprQ }
  | none => s

/-- What a channel holds of reads and of the unit is gone: reads and operations, fills, and what waits for them. -/
def dropReads (s : State) (ch : Nat) : State :=
  let s := dropFills s ch
  s.setDmc ch { s.dmcOf ch with q := [], fly := [], fillWait := [], fills := [], rmw := [] }

/-- A hang reset starts (Table 8.7). In a power-fail flush a hang takes no reset: the channel writes no more (Table 8.8). -/
def hangStart (ch cause : Nat) (s : State) : State :=
  if s.cstate ch ≠ 2 then s else
  if s.pck.pow = .powerFail then s.setDmc ch { s.dmcOf ch with hung := true } else
  let d := s.dmcOf ch
  let hangs := (d.hangs.filter fun t => decide (s.now < t + second)) ++ [s.now]
  let limit := decide (s.rd F.DMC_HANG_HANG_LIM ch ≤ hangs.length)
  let s := ((s.wr F.DMC_STAT_CSTATE 3 ch).wr F.DMC_HANG_STAT_HCAUSE cause ch).inc F.DMC_HANG_STAT_HANGS 1 ch
  let newly := limit && !s.on F.DMC_STAT_HANG_LIM_HIT ch
  let s := if limit then s.wr F.DMC_STAT_HANG_LIM_HIT 1 ch else s
  let s := hangEvent s ch 0
  let s := foldPause (srefEnter (leaveRun s ch) ch)
  let hung := hungReqs s ch
  let host := hung.filter (·.iss == .host)
  let s := dropCleanWork (s.rqe.reqs.foldl (fun t r => hungRange t ch r) s) ch
  let s := (host.foldl timeOut s).inc F.DMC_HANG_STAT_TMO_CPL (host.filter fun r => !r.sent).length ch
  let s := hung.foldl (fun t r => if r.iss = .host then t else setReq t { r with issued := false, got := [], pend := if r.op = .rd then [(r.dev / 64, r.bytes / 64)] else r.pend }) s
  let s := dropReads s ch
  let s := settle (s.setDmc ch { s.dmcOf ch with hangs := hangs })
  if newly then foldTrigger s ch else s

/-- The watchdog's criterion (R192): issued work, and no column command and no refresh for `HANG_TMO` µs. -/
def hangDetect (ch : Nat) (stateCheck : Bool) (s : State) : State :=
  let d := s.dmcOf ch
  if stateCheck then hangStart ch 2 s
  else if unperformed d && decide (d.cmdAt + s.rd F.DMC_HANG_HANG_TMO ch * usec ≤ s.now) then hangStart ch 1 s
  else s

/-- A channel returns to RUN, and a forced drain replays its write queue (Table 8.7). -/
def backToRun (s : State) (ch : Nat) : State :=
  let s := (srefExit s ch).wr F.DMC_STAT_CSTATE 2 ch
  let d := s.dmcOf ch
  foldResume (s.setDmc ch { d with force := !d.wq.isEmpty || decide (0 < victimSectors s ch), hung := false })

/-- The hang reset ends (Table 8.7). -/
def hangComplete (ch : Nat) (s : State) : State := if s.cstate ch = 3 then backToRun s ch else s

/-! ## Training (R189 to R191) -/

/-- Begin training some ranks of a channel. -/
def trainStart (s : State) (ch : Nat) (inRun : Bool) (ranks : List Nat) : State :=
  match ranks with
  | [] => s
  | r :: rest =>
    let s := ((s.wr F.DMC_STAT_CSTATE 1 ch).wr F.DMC_TRAIN_STAT_TR_BUSY 1 ch).wr F.DMC_TRAIN_STAT_TR_RETRIES 0 ch
    let keep := (List.range 4).filter fun k => bit (s.rd F.DMC_TRAIN_STAT_TR_PASS ch) k && !ranks.contains k
    let s := s.wr F.DMC_TRAIN_STAT_TR_PASS (maskOf keep) ch
    s.setDmc ch { s.dmcOf ch with train := some { rank := r, began := s.now, inRun := inRun, ranks := rest } }

/-- Refresh starts with a channel's first RUN (R200): its banks owe nothing, and their first ticks lie ahead. -/
def refreshStart (s : State) (ch : Nat) : State :=
  let d := s.dmcOf ch
  s.setDmc ch ((List.range 128).foldl (fun d b => d.setBank b { d.bankOf b with owed := [], tick := d.cyc + b * tREFI s ch (b / 32) / 128 }) d)

/-- A channel serves nothing any more (R248): what it has queued ends as on an untrained channel. Reads complete UNCORRECTABLE, writes are discarded, and the
operations of the unit end when they are performed. -/
def channelOff (s : State) (ch : Nat) : State :=
  let d := s.dmcOf ch
  let s := s.setDmc ch { d with q := [], fly := [], fillWait := [], fills := [], wq := [], rmw := d.rmw.map fun e => { e with hit := true } }
  let ents := (d.q.filter fun e => !e.rmw) ++ d.fly.map (·.1) ++ d.fillWait
  let s := ents.foldl (fun t e => gotSector t e.req e.sec poisoned0 .uncorrectable ch) s
  let s := d.wq.foldl (fun t e => wrote (if e.kind = .clean then t else t.dramWrite ch e.c zeroSector) e.req e.sec) s
  settle (dropFills s ch)

/-- Training of a channel ends. -/
def trainEnd (s : State) (ch : Nat) (t : Train) (ok : Bool) : State :=
  let s := (s.setDmc ch { s.dmcOf ch with train := none, cmdAt := s.now }).wr F.DMC_TRAIN_STAT_TR_BUSY 0 ch
  let s := s.wr F.DMC_TRAIN_STAT_TR_TIME (min 4095 ((s.now - t.began) / (10 * usec))) ch
  if ok then
    let s := if s.pck.pow = .boot then refreshStart s ch else s
    (List.range 4).foldl (fun u r => u.wr F.DMC_RANK_STAT_PSTATE 1 ch r) (s.wr F.DMC_STAT_CSTATE 2 ch)
  else
    let s := (List.range 4).foldl (fun u r => u.wr F.DMC_RANK_STAT_PSTATE 0 ch r) (s.wr F.DMC_STAT_CSTATE 0 ch)
    hangEvent (channelOff (s.wr F.DMC_HANG_STAT_HCAUSE 0 ch) ch) ch t.rank

/-- Store what a training step found: its code or reference, and for the eye steps each line's delay; lines without an eye are dead (R245). -/
def trainCodes (s : State) (ch : Nat) (t : Train) (code vref : Nat) (dead : Nat) (lines : List Nat) : State :=
  let put (s : State) (wr : Bool) : State :=
    let s := (List.range 84).foldl (fun u p =>
      let (a, b) := SMap.getD (u.tsvCh ch).dly p (0, 0)
      let v := lines.getD p 0
      if wr then putDly u ch p a v else putDly u ch p v b) s
    (onesOf dead 84).foldl (fun u p => declareDead ch p u) s
  match t.step with
  | 0 => s.wr F.DMC_RANK_DLY_CA_DLY code ch t.rank
  | 1 => s.wr F.DMC_RANK_DLY_WL_DLY code ch t.rank
  | 2 => s.wr F.DMC_RANK_DLY_RG_DLY code ch t.rank
  | 3 => put (s.wr F.DMC_RANK_VREF_RD_VREF vref ch t.rank) false
  | _ => put (s.wr F.DMC_RANK_VREF_WR_VREF vref ch t.rank) true

/-- A training step of a channel ends (R190). A failed step restarts the rank; the third failure leaves the channel untrained. -/
def trainStepEnd (ch : Nat) (pass : Bool) (code vref : Nat) (dead : Nat) (lines : List Nat) (s : State) : State :=
  match (s.dmcOf ch).train with
  | none => s
  | some t =>
    let set (s : State) (t : Train) : State := s.setDmc ch { s.dmcOf ch with train := some t }
    if pass then
      let s := trainCodes s ch t code vref dead lines
      if t.step < 4 then set s { t with step := t.step + 1 }
      else
        let s := s.wr F.DMC_TRAIN_STAT_TR_PASS (setBit (s.rd F.DMC_TRAIN_STAT_TR_PASS ch) t.rank) ch
        match t.ranks with
        | [] => trainEnd s ch t true
        | r :: rest => set s { t with rank := r, ranks := rest, step := 0, attempt := 0 }
    else if t.attempt ≥ 2 then trainEnd s ch t false
    else set (s.inc F.DMC_TRAIN_STAT_TR_RETRIES 1 ch) { t with step := 0, attempt := t.attempt + 1 }

/-- Strobe tracking (R191): at most one step towards the measured centre. `dir`: 0 stay, 1 up, 2 down. A pair that loses tracking is spared. -/
def strobeTrack (ch r dir : Nat) (lost : Option Nat) (s : State) : State :=
  if s.cstate ch ≠ 2 ∨ ¬ s.on F.DMC_TRAIN_CTL_TRK_EN ch then s else
  let v := s.rd F.DMC_RANK_DLY_RG_DLY ch r
  let s := s.wr F.DMC_RANK_DLY_RG_DLY (if dir = 1 then min 63 (v + 1) else if dir = 2 then v - 1 else v) ch r
  match lost with
  | some p => strobeFail ch p s
  | none => s

end Sys2Proof.Machine
end

