-- ==== Sys2Proof/Machine/Refresh.lean ====
section
/-! DEFINITION. Refresh and stroke counts (RFM, ch. 9), patrol scrub and integrity work that runs by itself (R227 to R230). -/

namespace Sys2Proof.Machine

/-! ## Ticks (R200, R201) -/

/-- A bank's refresh tick (R200): it comes at its cycle, the next follows at the rate that its die has now, and the debt grows; at `POSTPONE` + 1 the bank has
slipped (R201). A channel in OFF, or a rank in self-refresh, has no ticks. -/
def refreshTick (ch b : Nat) (s : State) : State :=
  if !(s.cstate ch == 1 || s.cstate ch == 2) || pstate s ch (b / 32) == 3 || pstate s ch (b / 32) == 0 then s else
  let d := s.dmcOf ch
  let x := d.bankOf b
  if d.cyc < x.tick then s else
  let owed := if x.owed.length < 15 then x.owed ++ [x.tick] else x.owed
  let n := owed.length
  let s := s.setDmc ch (d.setBank b { x with owed := owed, tick := x.tick + tREFI s ch (b / 32) })
  let s := if s.rd F.RFM_REF_MAX_DEBT ch < n then s.wr F.RFM_REF_MAX_DEBT n ch else s
  if x.owed.length < n ∧ n = s.rd F.RFM_CTL_POSTPONE + 1 then
    (s.inc F.RFM_REF_SLIPS 1 ch).raise (6 * ch + 4) .fault [b + n * 256]
  else s

/-! ## Die temperature (R202) -/

/-- Two's complement of 8 bits. -/
def signed8 (v : Nat) : Int := if v % 256 < 128 then (v % 256 : Int) else (v % 256 : Int) - 256

/-- Set a die's rate. -/
def setRate (s : State) (n : Nat) (dbl : Bool) : State :=
  if s.on F.RFM_DIE_DBL n == dbl then s
  else
    let s := (s.wr F.RFM_DIE_DBL (b2n dbl) n).inc F.RFM_DIE_RATE_CHG 1 n
    let m := s.rd F.RFM_DBL_DBL_MAP
    s.wr F.RFM_DBL_DBL_MAP (if dbl then setBit m n else clrBit m n)

/-- Every die at the doubled rate, as from each start and wake until its first valid reading (R202). -/
def allDoubled (s : State) : State := (List.range 16).foldl (fun t n => setRate t n true) s

/-- Set a die's `SBAD`. -/
def setSbad (s : State) (n : Nat) (v : Bool) : State :=
  let m := s.rd F.RFM_DBL_SBAD_MAP
  (s.wr F.RFM_DIE_SBAD (b2n v) n).wr F.RFM_DBL_SBAD_MAP (if v then setBit m n else clrBit m n)

/-- The reading of one die: none is missing, `valid` is THM's mark (R202). A sensor missing once leaves things as they are. -/
def dieReading (n : Nat) (t : Option Nat) (valid : Bool) (s : State) : State :=
  let force := s.on F.RFM_CTL_FORCE_2X
  match t with
  | none =>
    let k := SMap.getD s.rfm.miss n 0 + 1
    let s := { s with rfm.miss := SMap.put s.rfm.miss n 0 k }
    if k ≥ 2 then setRate (setSbad { s with rfm.held := SMap.put s.rfm.held n false true } n true) n true else s
  | some v =>
    let s := { s with rfm.miss := SMap.erase s.rfm.miss n }
    if !valid then setRate (setSbad { s with rfm.held := SMap.put s.rfm.held n false true } n true) n true
    else
      let s := setSbad (s.wr F.RFM_DIE_DTEMP v n) n false
      let c := signed8 v
      if c > 85 ∨ force then setRate s n true
      else if c ≤ 82 then setRate { s with rfm.held := SMap.erase s.rfm.held n } n false
      else s

/-! ## Stroke words (R204 to R206) -/

/-- A die compares with the new threshold, or within 50 µs of a write of `ST_THR` with either (R206): which one is open. -/
def dieThreshold (s : State) : Nat × State :=
  if s.now < s.rfm.thrAt + 50 * usec ∧ s.rfm.thrAt ≠ 0 then
    let (v, s) := s.draw
    (if v % 2 = 0 then s.rfm.thrOld else s.rd F.RFM_CTL_ST_THR, s)
  else (s.rd F.RFM_CTL_ST_THR, s)

/-- The check bits of a stroke count: an extended Hamming code over bits 15:0, whose columns the spec does not give (log entry 126). Data bit `k` has
position `strokePos k`; check bits 0 to 4 stand at the powers of two, and bit 5 is the parity of the rest. -/
def strokePos (k : Nat) : Nat := [3, 5, 6, 7, 9, 10, 11, 12, 13, 14, 15, 17, 18, 19, 20, 21].getD k 0

/-- See `strokePos`. -/
def strokeCheck (v : Nat) : Nat :=
  let c := maskOf ((List.range 5).filter fun i => ((List.range 16).filter fun k => bit v k && bit (strokePos k) i).length % 2 == 1)
  c + (popCount v 16 + popCount c 5) % 2 * 32

/-- The stroke word of a count (Table 9.2): `SCOUNT`, `SCHK`, zeros. -/
def strokeWord (v : Nat) : Nat := v % 65536 + strokeCheck v * 65536

/-- Number of a physical row: channel, bank, row. -/
def rowKey (ch b row : Nat) : Nat := (ch * 128 + b) * 65536 + row

/-- `SCOUNT` of a row, the word corrected (R205). -/
def strokeCount (s : State) (key : Nat) : Nat := SMap.getD s.rfm.stroke key s.rfm.strokeBase % 65536

/-- A stroke word holds the count `v`, with valid check bits. -/
def setStroke (s : State) (key v : Nat) : State := { s with rfm.stroke := SMap.put s.rfm.stroke key s.rfm.strokeBase (strokeWord v) }

/-- The report of a closed row joins its die's queue, or overflows it (R206). -/
def dieReport (s : State) (ch b row n : Nat) (unc : Bool) : State :=
  let key := rowKey ch b row
  let d := s.dmcOf ch
  let r := d.rankOf (b / 32)
  if r.dieq.length < 32 then
    setStroke (s.setDmc ch (d.setRank (b / 32) { r with dieq := r.dieq ++ [b % 32 + row * 32 + b2n unc * 2 ^ 21] })) key 0
  else setStroke (s.setDmc ch (d.setRank (b / 32) { r with dieOvf := true })) key n

/-- The stroke word of a closed row is updated (R205, R206), with the threshold that the die uses and the state that it leaves. -/
def strokeUpdate (ch b row word : Nat) (t : Nat × State) : State :=
  let key := rowKey ch b row
  let n := if word = 2 then t.1 else min 65535 (strokeCount t.2 key + 1)
  if n < t.1 then setStroke t.2 key n else dieReport t.2 ch b row n (word == 2)

/-- A row closes and the die updates its stroke word (R205, R206). `word`: 0 good, 1 correctable, 2 uncorrectable. The closes of a channel are taken in order. -/
def rowClose (ch word : Nat) (s : State) : State :=
  match (s.dmcOf ch).closing with
  | [] => s
  | (b, row) :: rest => strokeUpdate ch b row word (dieThreshold (s.setDmc ch { s.dmcOf ch with closing := rest }))

/-- A write of `ST_THR` is on its way to the dies (R206). -/
def thresholdSent (old : Nat) (s : State) : State := { s with rfm.thrOld := old, rfm.thrAt := s.now }

/-! ## Reports and the victim queue (R207, R208, R211) -/

/-- Whether a backlog condition of the victim queue holds. -/
def backlogged (s : State) (ch : Nat) : Bool :=
  let d := s.dmcOf ch
  decide (s.rd F.RFM_BKLG_BKLG_THR ≤ d.vq.length) || (match d.vq with
    | v :: _ => decide (v.2.2 + s.rd F.RFM_BKLG_BKLG_TMO * usec ≤ s.now)
    | [] => false)

/-- The backlog event (R211). -/
def backlogEvent (s : State) (ch : Nat) (ovf : Bool) : State :=
  let d := s.dmcOf ch
  let wait := match d.vq with
    | v :: _ => min 255 ((s.now - v.2.2) / usec)
    | [] => 0
  s.raise (6 * ch + 2) (if ovf then .degrade else .warn) [d.vq.length + b2n ovf * 128 + wait * 256]

/-- Follow the backlog condition, and the overflow that a report shows: the event is raised again only after the condition has been absent for 1 ms. -/
def trackBacklog (s : State) (ch : Nat) (ovf : Bool) : State :=
  let d := s.dmcOf ch
  let holds := backlogged s ch
  let fresh : Bool := match d.bkAt with
    | none => true
    | some none => false
    | some (some t) => decide (t + msec ≤ s.now)
  let bk := if holds then some none else if d.bkAt = some none then some (some s.now) else d.bkAt
  let s := s.setDmc ch { d with bkAt := bk }
  if fresh && (holds || ovf) then backlogEvent s ch ovf else s

/-- The burst of a rank's report has come in (R207). -/
def reportIn (d : Dmc) (r : Nat) : Bool := (d.rankOf r).rptOut && (match d.rptAt with
  | some (t, q) => q != r || decide (t < d.cyc)
  | none => true)

/-- A report burst arrives and is checked (R207): its records go to the victim queue, and the verdict waits for the next `RPT`. `err` are errors by beat. -/
def reportReceive (ch r : Nat) (err : List Nat) (s : State) : State :=
  let d := s.dmcOf ch
  let x := d.rankOf r
  if !reportIn d r then s else
  let recs := x.dieq.take x.rptSent
  let more := decide (x.rptSent < x.dieq.length)
  let sect (k : Nat) : Nat := bchEnc (reportBeatInfo recs x.dieOvf more k)
  let beats := (List.range 8).map fun k =>
    let w := blanked (Nat.xor (sect k) (err.getD k 0 % 2 ^ 80)) (deadPos s ch)
    match bchDec w with
    | .clean => { k := k, dec := .clean, synd := 0, info := w / 2 ^ 15 : Beat }
    | .fix ps =>
      let seen := ps.filter fun p => !(deadPos s ch).contains p
      { k := k, dec := if seen.isEmpty then .clean else .fix seen, synd := syndWord w, info := flips w ps / 2 ^ 15 }
    | .ue => { k := k, dec := .ue, synd := syndWord w, info := 0 }
  let s := reportBeats s { ch := ch, src := 6, req := 6, rank := r } beats
  let d := s.dmcOf ch
  if beats.any (·.dec == .ue) then
    (s.setDmc ch (d.setRank r { x with rptOut := false, ack := false })).inc F.RFM_VQ_RPT_UE 1 ch
  else
    let got := recs.map fun v => (r * 32 + v % 32, v / 32 % 65536, s.now)
    let ovf := x.dieOvf
    let d := { d.setRank r { x with rptOut := false, ack := true, dieOvf := false } with vq := d.vq ++ got }
    let s := (s.setDmc ch d).inc F.RFM_XING_XINGS got.length ch
    let s := if recs.any fun v => bit v 21 then s.wr F.RFM_VQ_SW_ERR 1 ch else s
    let s := if s.rd F.RFM_VQ_VQ_PEAK ch < d.vq.length then s.wr F.RFM_VQ_VQ_PEAK d.vq.length ch else s
    trackBacklog (if ovf then s.wr F.RFM_VQ_DIE_OVF 1 ch else s) ch ovf

/-- The oldest victim record has waited `BKLG_TMO` µs (R211). -/
def backlogTimeout (ch : Nat) (s : State) : State := trackBacklog s ch false

/-- The last PRE of a bank's victim refresh has issued: the record leaves the queue (R209). -/
def victimRefreshDone (ch b : Nat) (s : State) : State :=
  let d := s.dmcOf ch
  let x := d.bankOf b
  if x.vref ≠ some [] then s else
  match d.vq.find? (·.1 == b) with
  | none => s.setDmc ch (d.setBank b { x with vref := none })
  | some v =>
    trackBacklog ((s.setDmc ch { d.setBank b { x with vref := none } with vq := d.vq.erase v }).inc F.RFM_VREF_VREFS 1 ch) ch false

/-! ## Patrol scrub (R227, R228, R230) -/

/-- A scrub step reads sector `k` of row `r` (R227): the state and the sectors found corrected so far. -/
def scrubRead (ch b r : Nat) (err : List Nat) (t : State × List Nat) (k : Nat) : State × List Nat :=
  let ps := physSector ch b r k
  let (u, _, c, _) := readDram t.1 ch ps 3 none fun j => err.getD (8 * k + j) 0
  let u := if c = .uncorrectable then (handOver u ch b r).1 else u
  (u, if c = .okCorrected then t.2 ++ [ps] else t.2)

/-- A scrub step of a channel has had its reads and its PRE (R227): the sectors are decoded, and the corrected ones await their write-back. `err` are
transient errors by sector × 8 + beat. -/
def scrubStep (ch : Nat) (err : List Nat) (s : State) : State :=
  let d := s.dmcOf ch
  if s.cstate ch != 2 || d.scrub.isNone || !burstsDone s ch .scrub || !(SMap.getD s.dip.wb ch []).isEmpty || d.unitSc.isSome then s else
  let b := s.rd F.DIP_SCRUB_SCRUB_BANK ch
  let r := s.rd F.DIP_SCRUB_SCRUB_ROW ch
  let got := (List.range 16).foldl (scrubRead ch b r err) (s, [])
  scrubStepOver { got.1 with dip.wb := SMap.put got.1.dip.wb ch [] got.2 } ch

/-- The unit has read the scrubbed sector that it holds again (R228): written back with fresh check bits, in the column slot of this DCK cycle, or left where it
is uncorrectable now. -/
def scrubWriteback (ch : Nat) (err : List Nat) (s : State) : State :=
  let d := s.dmcOf ch
  match d.unitSc with
  | some (ps, some t) =>
    let bank := ps / 16 / 65536 % 128
    if d.cyc < t + 22 || s.cstate ch != 2 then s else
    let done (u : State) : State := scrubStepOver (u.setDmc ch { u.dmcOf ch with unitSc := none }) ch
    let (u, x, c, _) := readDram s ch ps 3 none fun k => err.getD k 0
    if c = .uncorrectable then done u
    else if !rowSlot s ch bank (ps / 16 % 65536) then s
    else done ((((doCol u ch bank true).dramStore ch ps x).inc F.DMC_WR_SECT_WR_SECT 1 ch).inc F.DIP_SCRUB_FIX_SCRUB_FIX)
  | _ => s

/-- SCC's scrub reads a line of a slice that is ON, or a word of a Jaold table (R229). `target`: 0 a line, 1 a context word, 2 a remap entry. `out`: 0 good,
1 corrected, 2 uncorrectable. A corrected word is rewritten. -/
def cacheScrub (target sl set w h out idx : Nat) (s : State) : State :=
  if !s.on F.DIP_CTL_CSCRUB_EN then s else
  match target with
  | 0 =>
    if s.sstate sl ≠ ssOn ∨ out = 0 then s
    else if (s.line sl set w).st h < 2 then s
    else sliceDecode sl set w h out (sliceFound sl set w h out 3 none s)
  | 1 => if out = 0 then s else if out = 1 then arrayWord s false 4 0 idx (ctxInfo s idx) 3 none else ctxUncorrectable s idx
  | _ => if out = 0 then s else if out = 1 then arrayWord s false 5 (idx / 4096) idx (SMap.getD s.tsv.rmap idx 0) 3 none else remapUncorrectable s idx

end Sys2Proof.Machine
end

