-- ==== Sys2Proof/Machine/Mgt.lean ====
section
/-! DEFINITION. The management cores, boathouses, mailboxes and leases (ch. 12): state, doorbells, responses, takeovers and the timers. The
commands themselves are in Commands. -/

namespace Sys2Proof.Machine

/-! ## Mailboxes (R274 to R277) -/

/-- Mailbox `m`: 0 to 15 the domains', 16 the service mailbox. -/
def State.mbx (s : State) (m : Nat) : Mbx := SMap.getD s.mgt.mbx m {}
/-- Store a mailbox. -/
def State.setMbx (s : State) (m : Nat) (x : Mbx) : State := { s with mgt.mbx := SMap.put s.mgt.mbx m {} x }
/-- Change a mailbox. -/
def State.modMbx (s : State) (m : Nat) (f : Mbx → Mbx) : State := s.setMbx m (f (s.mbx m))

/-- `MSTATE`: 0 CLOSED, 1 READY, 2 BUSY (Table 12.28). -/
def mstate (s : State) (m : Nat) : Nat := if m < 16 then s.rd F.MBX_STAT_MSTATE m else s.rd F.MBXS_STAT_MSTATE
/-- Set `MSTATE`. -/
def setMstate (s : State) (m v : Nat) : State := if m < 16 then s.wr F.MBX_STAT_MSTATE v m else s.wr F.MBXS_STAT_MSTATE v
/-- `EXP_SEQ`. -/
def expSeq (s : State) (m : Nat) : Nat := if m < 16 then s.rd F.MBX_STAT_EXP_SEQ m else s.rd F.MBXS_STAT_EXP_SEQ
/-- Set `EXP_SEQ`, modulo 65,536. -/
def setExpSeq (s : State) (m v : Nat) : State := if m < 16 then s.wr F.MBX_STAT_EXP_SEQ v m else s.wr F.MBXS_STAT_EXP_SEQ v
/-- `CMDS` counts responses posted. -/
def countCmd (s : State) (m : Nat) : State := if m < 16 then s.inc F.MBX_CNT_CMDS 1 m else s.inc F.MBXS_CNT_CMDS
/-- `DB_IGN` counts doorbells ignored while BUSY. -/
def countIgn (s : State) (m : Nat) : State := if m < 16 then s.inc F.MBX_CNT_DB_IGN 1 m else s.inc F.MBXS_CNT_DB_IGN

/-- `n` bytes of a buffer from byte `k`. -/
def bufGet (b : SMap Byte) (k n : Nat) : List Byte := (List.range n).map fun i => SMap.getD b (k + i) 0
/-- Store bytes in a buffer of 4 KiB from byte `k`. -/
def bufPut (b : SMap Byte) (k : Nat) : List Byte → SMap Byte
  | [] => b
  | x :: r => bufPut (if k < 4096 then SMap.put b k 0 x else b) (k + 1) r

/-- `OPCODE` of the command in the buffer (Table 12.5). -/
def cmdOpcode (s : State) (m : Nat) : Nat := leNat (bufGet (s.mbx m).cmd 0 2)
/-- `LENGTH` of the command. -/
def cmdLen (s : State) (m : Nat) : Nat := leNat (bufGet (s.mbx m).cmd 4 2)
/-- `LEASE` of the command. -/
def cmdLease (s : State) (m : Nat) : Nat := leNat (bufGet (s.mbx m).cmd 8 4)
/-- The command's payload. -/
def cmdPayload (s : State) (m : Nat) : List Byte := bufGet (s.mbx m).cmd 16 (min (cmdLen s m) 4080)

/-- A core is active: Cox A or Cox B in ACTIVE, or Cox A in RECOVERY (R264, R267). -/
def recovery (s : State) : Bool := s.rd F.MGT_STAT_A_STATE == 5
/-- See `recovery`. -/
def coreServes (s : State) : Bool := s.rd F.MGT_STAT_A_STATE == 2 || s.rd F.MGT_STAT_B_STATE == 2 || recovery s

/-- A frame of the service port (Table 21.3). -/
def svcFrame (typ stag : Nat) (body : List Byte) : List Byte := leBytes 2 typ ++ leBytes 2 stag ++ leBytes 4 body.length ++ body

/-- The service link is up: CL0, CL0s or CL1 (Table 21.7). -/
def svcUp (s : State) : Bool := decide (2 ≤ s.rd F.SVC_STAT_SLSTATE)

/-- Send an answer frame on EP1 IN while the link is up (R430). -/
def sendFrame (s : State) (f : List Byte) : State := if svcUp s then { s with out := s.out ++ [.ep1 f] } else s

/-- A FRAME_ERR answer (R430). -/
def frameErr (s : State) (stag : Nat) (c : Code) : State :=
  sendFrame (s.inc F.SVC_CNT_FRAME_ERRS) (svcFrame 0x84 stag (leBytes 4 c.num))

/-- The response message (Table 12.5). The lease identifier is that of the command (log entry 20). -/
def responseBytes (s : State) (m : Nat) (c : Code) (detail : Nat) (payload : List Byte) : List Byte :=
  bufGet (s.mbx m).cmd 0 4 ++ leBytes 2 payload.length ++ leBytes 1 1 ++ leBytes 1 c.num ++ leBytes 4 (cmdLease s m) ++ leBytes 4 detail ++ payload

/-- Tell the master that its response stands in the buffer: MBX_RDY to a domain while the link is up (Table 12.7), MBX_RESP to the service host (R431). -/
def tellMaster (s : State) (m : Nat) (c : Code) (msg : List Byte) : State :=
  if m < 16 then (if s.link.up then sendVc2 s (mbxRdyBytes m (s.mbx m).seq c.num) else s)
  else match s.svc.mbxTag with
    | some tag => { sendFrame s (svcFrame 0x81 tag msg) with svc.mbxTag := none }
    | none => s

/-- Write a response into the response buffer and tell the master (R275, R276). -/
def respond (s : State) (m : Nat) (c : Code) (detail : Nat) (payload : List Byte) : State :=
  let msg := responseBytes s m c detail payload
  tellMaster (countCmd (s.modMbx m fun x => { x with resp := bufPut x.resp 0 msg }) m) m c msg

/-! ## Leases (R278) -/

/-- `HOLDER` of resource 0x10 + `i`. -/
def leaseHolder (s : State) (i : Nat) : Nat := s.rd F.MGT_LEASE_HOLDER i
/-- The identifier of a lease. -/
def leaseIdent (s : State) (i : Nat) : Nat := (SMap.getD s.mgt.leases i (0, 0)).1
/-- The resource (0 to 4) whose lease mailbox `m` holds under an identifier. -/
def leaseOf (s : State) (m ident : Nat) : Option Nat :=
  if ident = 0 then none else (List.range 5).find? fun i => leaseHolder s i == m && leaseIdent s i == ident

/-- Free a lease. A firmware-update lease that ends abandons a load that is not activated (Table 12.4). -/
def freeLease (s : State) (i : Nat) : State :=
  let s := (s.wr F.MGT_LEASE_HOLDER 0xFF i).wr F.MGT_LEASE_LEFT_MS 0 i
  { s with mgt.leases := SMap.erase s.mgt.leases i, mgt.load := if i = 1 then none else s.mgt.load }

/-- Every lease of a master is released. -/
def releaseLeases (s : State) (m : Nat) : State :=
  (List.range 5).foldl (fun t i => if leaseHolder t i = m then freeLease t i else t) s

/-- A lease is renewed: 100 ms from now. -/
def renewLease (s : State) (i : Nat) : State :=
  { s with mgt.leases := SMap.set s.mgt.leases i (leaseIdent s i, s.now + 100 * msec) }

/-- A lease expires 100 ms after its last renewal: source 259 (R278). Settings already applied stay. -/
def leaseExpiry (i : Nat) (s : State) : State :=
  let h := leaseHolder s i
  if h = 0xFF ∨ s.now < (SMap.getD s.mgt.leases i (0, 0)).2 then s
  else (freeLease s i).raiseG 259 .warn (0x10 + i) h

/-! ## Doorbells (R275, Table 12.7) -/

/-- The opcodes of Tables 12.8 to 12.20. -/
def knownOpcode (o : Nat) : Bool :=
  let n := match o / 256 with
    | 1 => 5 | 2 => 4 | 3 => 8 | 4 => 6 | 5 => 3 | 6 => 3 | 7 => 8 | 8 => 4 | 9 => 2 | 10 => 8 | 11 => 5 | 12 => 4 | 13 => 4
    | _ => 0
  decide (o % 256 < n)

/-- The command is taken: BUSY. An opcode of no table is answered BAD_OPCODE (R279). -/
def takeCommand (s : State) (m seq : Nat) : State :=
  let known := knownOpcode (cmdOpcode s m)
  (setMstate s m 2).modMbx m fun x =>
    { x with seq := seq, taken := s.now, ran := !known, journal := false, await := if known then .none else .due .badOpcode 0 [] }

/-- A doorbell is judged against the mailbox state (Table 12.7). In CLOSED an opcode of no table is BAD_OPCODE, which R12 ranks before STATE. A header with
`RESP` = 1, with a `RESULT` or `DETAIL` that is not zero, or with a `SEQ` other than the doorbell's has no code: it is taken as it stands (log entry 122). -/
def doorbell (m seq : Nat) (s : State) : State :=
  let session := cmdOpcode s m == 0x0100
  match mstate s m with
  | 0 => if session then takeCommand s m seq
    else respond (s.modMbx m fun x => { x with seq := seq }) m (if knownOpcode (cmdOpcode s m) then .state else .badOpcode) 0 []
  | 1 =>
    if seq ≠ expSeq s m ∧ ¬ session then respond (s.modMbx m fun x => { x with seq := seq }) m .sequence 0 []
    else takeCommand s m seq
  | _ => countIgn s m

/-! ## Cores, boathouses and takeovers (R264 to R273) -/

/-- State of a core: 0 RESET, 1 ROM, 2 ACTIVE, 3 STANDBY, 4 LOADING, 5 RECOVERY, 6 HALTED. `b` is true for Cox B. -/
def coreState (s : State) (b : Bool) : Nat := if b then s.rd F.MGT_STAT_B_STATE else s.rd F.MGT_STAT_A_STATE
/-- Set a core's state. -/
def setCore (s : State) (b : Bool) (v : Nat) : State := if b then s.wr F.MGT_STAT_B_STATE v else s.wr F.MGT_STAT_A_STATE v
/-- The boathouse that a core runs. -/
def coreSlot (s : State) (b : Bool) : Nat := if b then s.rd F.MGT_STAT_B_SLOT else s.rd F.MGT_STAT_A_SLOT
/-- Set the boathouse that a core runs. -/
def setSlot (s : State) (b : Bool) (v : Nat) : State := if b then s.wr F.MGT_STAT_B_SLOT v else s.wr F.MGT_STAT_A_SLOT v
/-- The active core: true for Cox B. -/
def activeCore (s : State) : Bool := s.on F.MGT_STAT_ACTIVE

/-- Word `k` of a boathouse. -/
def imageWord (s : State) (slot k : Nat) : Nat := s.mramAt (0x60000 * slot + k)

/-- `IVER` and `SVN` of a boathouse's header (Table 12.1). -/
def imageVer (s : State) (slot : Nat) : Nat := imageWord s slot 2
/-- See `imageVer`. -/
def imageSvn (s : State) (slot : Nat) : Nat := bits (imageWord s slot 1) 16 8

/-- An operator key digest is fused (R265): region 4, rows 21 to 23. -/
def operatorFused (s : State) : Bool := (List.range 12).any fun k => SMap.getD s.pst.latch (84 + k) 0 != 0

/-- The checks of R265 on the header. -/
def headerOk (s : State) (slot : Nat) : Bool :=
  let w := imageWord s slot
  let ilen := w 3
  let dlen := w 4
  w 0 == 0x4D495843 && w 1 % 65536 == 1 && w 2 != 0 && decide (ilen ≤ 262144) && decide (dlen ≤ 262144) && decide (w 5 < ilen) &&
  w 6 == 0x200 + ilen + dlen && decide (w 6 ≤ 1572864) && decide (s.rd F.MGT_SVN_SVN_FUSE ≤ imageSvn s slot) && decide (imageSvn s slot ≤ 64) &&
  (!operatorFused s || bit (w 1) 24)

/-- An image verifies (R265). `crypto` says that hash, keys and signatures do. A failed key region leaves no image verifying (Table 15.5). -/
def imageOk (s : State) (slot : Nat) (crypto : Bool) : Bool :=
  crypto && headerOk s slot && !bit (s.rd F.PST_FUSE_STAT_FFAIL) 3 && !bit (s.rd F.PST_FUSE_STAT_FFAIL) 4

/-- Whether a boathouse is marked valid: word 5 of Table 15.2. -/
def boatValid (s : State) (slot : Nat) : Bool := bit (s.mramAt (pregIdx 5)) (1 + slot)

/-- Write a boathouse's `IVER`, `SVN` and validity: registers at once, and their stack words. -/
def markBoat (s : State) (slot : Nat) (valid : Bool) : State :=
  let v := if valid then imageVer s slot else 0
  let n := imageSvn s slot
  let s := s.wr (if slot = 0 then F.MGT_FWVER_A_VER_A else F.MGT_FWVER_B_VER_B) v
  let s := if valid then s.wr (if slot = 0 then F.MGT_SVN_SVN_A else F.MGT_SVN_SVN_B) n else s
  let s := s.putStackWord 5 (1 + slot) 1 (b2n valid)
  let s := s.putStackWord (6 + slot) 0 32 v
  if valid then s.putStackWord 8 (7 * slot) 7 n else s

/-- Verification of a boathouse in the ROM fails: source 256, and it is invalid. -/
def badImage (s : State) (slot : Nat) : State := (markBoat s slot false).raiseG 256 .warn slot Code.integrity.num

/-- A core takes an image: the boathouse of `BOOT_SLOT`, else the other (R264, step 1). `ok` says by boathouse whether its hash and signatures verify. -/
def romImage (s : State) (ok : Nat → Bool) : Option Nat × State :=
  let first := s.rd F.MGT_BOOT_BOOT_SLOT
  let other := 1 - first
  if imageOk s first (ok first) then (some first, s)
  else if imageOk s other (ok other) then (some other, badImage s first)
  else (none, badImage (badImage s first) other)

/-- R267: Cox A stays in the ROM in RECOVERY. -/
def enterRecovery (s : State) : State := ((setCore s false 5).wr F.MGT_STAT_ACTIVE 0).raiseG 258 .fault 0 0

/-- Every command in hand and not answered is executed again from its start by a core that becomes active (R270). -/
def replayJournal (s : State) : State :=
  (List.range 17).foldl (fun t m => if mstate t m = 2 ∧ (t.mbx m).journal then t.modMbx m fun x => { x with ran := false, await := .none } else t) s

/-- Core `b` boots from the ROM and becomes active, and takes up the journal; the other core, if it waits in the ROM, loads the same boathouse and stands by. -/
def romBoot (s : State) (b : Bool) (ok : Nat → Bool) : State :=
  match romImage s ok with
  | (none, s) => enterRecovery s
  | (some slot, s) =>
    let s := ((setSlot (setCore s b 2) b slot).wr F.MGT_STAT_ACTIVE (b2n b))
    let s := { s with mgt.beat := (s.now, s.now) }
    replayJournal (if coreState s (!b) = 1 then
      if s.on F.MGT_CTL_STBY_EN then setSlot (setCore s (!b) 3) (!b) slot else setCore s (!b) 0
    else s)

/-- COX_BOOT: a core that waits in the ROM boots it (R264, R268). -/
def coxBoot (okA okB : Bool) (s : State) : State :=
  let ok (slot : Nat) : Bool := if slot = 0 then okA else okB
  if s.pck.test then s
  else if coreState s false = 1 then romBoot s false ok
  else if coreState s true = 1 ∧ ¬ coreServes s then romBoot s true ok
  else s

/-- R264, step 4: Cox A fails its self-check or takes no image in time; Cox B boots, and Cox A is held in reset until both cores are next released. -/
def coxATimeout (okA okB : Bool) (s : State) : State :=
  if coreState s false = 1 ∧ coreState s true = 1 ∧ ¬ s.pck.test then
    romBoot { setCore s false 0 with mgt.heldA := true } true fun slot => if slot = 0 then okA else okB
  else s

/-- The grants move to the other core (Table 12.2); the former core goes to a state: 0 held in reset, 4 reloading, 3 standby with its old image. -/
def takeover (s : State) (cause former : Nat) : State :=
  let a := activeCore s
  let s := (setCore (setCore s a former) (!a) 2).wr F.MGT_STAT_ACTIVE (b2n (!a))
  let s := (s.wr F.MGT_TAKE_TCAUSE cause).inc F.MGT_TAKE_TAKEOVERS
  replayJournal { s with mgt.take := none, mgt.beat := (s.now, s.now) }

/-- A mailbox has a command in hand. -/
def inHand (s : State) : Bool := (List.range 17).any fun m => mstate s m == 2 && (s.mbx m).ran && (s.mbx m).journal

/-- A planned takeover runs at a command boundary (R271). With FW_ACTIVATE the trial starts: the former core stands by with the old image (Table 12.3, step 5). -/
def runTakeover (s : State) : State :=
  match s.mgt.take with
  | none => s
  | some cause =>
    if inHand s then s
    else if cause = 15 then
      -- FW_ACTIVATE in RECOVERY restarts both cores (R267)
      { setCore (setCore s false 1) true 1 with mgt.take := none, mgt.load := none, mgt.heldA := false }
    else if coreState s (!activeCore s) ≠ 3 then { s with mgt.take := none }
    else if cause = 5 then
      let slot := coreSlot s (!activeCore s)
      let s := (takeover s 5 3).wr F.MGT_STAT_TRIAL 1
      { s with mgt.trial := some (slot, s.now), mgt.load := none }.raiseG 281 .info slot 1
    else takeover s cause 4

/-- `TAKE` and FW_TAKEOVER: STATE unless the standby is in STANDBY. -/
def planTakeover (s : State) (cause : Nat) : Code × State :=
  if coreState s (!activeCore s) = 3 then (.ok, runTakeover { s with mgt.take := some cause }) else (.state, s)

/-- The trial ends without success: the new boathouse is invalid (Table 12.4). -/
def trialFailed (s : State) : State :=
  match s.mgt.trial with
  | some (slot, _) => ((markBoat { s with mgt.trial := none } slot false).wr F.MGT_STAT_TRIAL 0).raiseG 281 .info slot 3
  | none => s

/-- A core fault (R268): a faulted standby is reset and reloads; a faulted active core is taken over, or restarts from the ROM. A restart from the ROM
runs the image of `BOOT_SLOT`, so it ends a trial as failed (log entry 128). -/
def coreFault (b : Bool) (cause : Nat) (s : State) : State :=
  let running := coreState s b == 2 || coreState s b == 3 || coreState s b == 4 || coreState s b == 5
  if ¬ running then s else
  let s := s.raiseG 257 .fault (b2n b) cause
  if coreState s b = 2 then
    if coreState s (!b) = 3 then
      if s.mgt.trial.isSome then trialFailed (takeover s 6 0) else takeover s cause 0
    else setCore (trialFailed s) b 1
  else if coreState s b = 5 then setCore s b 1
  else setCore s b 4

/-- A core's watchdog expires when `BEAT` was not written for `WDT_US` µs (R268). -/
def watchdogExpiry (b : Bool) (s : State) : State :=
  let last := if b then s.mgt.beat.2 else s.mgt.beat.1
  if s.now < last + s.rd F.MGT_CTL_WDT_US * usec then s else coreFault b 1 s

/-- A write of `BEAT`: a core restarts its own watchdog. -/
def beat (b : Bool) (s : State) : State :=
  { s with mgt.beat := if b then (s.mgt.beat.1, s.now) else (s.now, s.mgt.beat.2) }

/-- The former core, or a standby that was reset, reloads the running boathouse and enters STANDBY (Table 12.2, R268). -/
def standbyReload (ok : Bool) (s : State) : State :=
  let a := activeCore s
  let st := coreState s (!a)
  if coreState s a ≠ 2 ∨ ¬ (st = 0 ∨ st = 4) ∨ ¬ s.on F.MGT_CTL_STBY_EN ∨ (a ∧ s.mgt.heldA) then s
  else if imageOk s (coreSlot s a) ok then setSlot (setCore s (!a) 3) (!a) (coreSlot s a)
  else (setCore s (!a) 4).raiseG 256 .warn (coreSlot s a) Code.integrity.num

/-- The trial passes after `TRIAL_S` s: `BOOT_SLOT` names the new boathouse, and the standby reloads it (Table 12.3, step 6). -/
def trialEnd (s : State) : State :=
  match s.mgt.trial with
  | some (slot, t) =>
    if s.now < t + s.rd F.MGT_CTL_TRIAL_S * second then s else
    let s := ((s.wr F.MGT_BOOT_BOOT_SLOT slot).wr F.MGT_STAT_TRIAL 0).putStackWord 5 0 1 slot
    (setCore { s with mgt.trial := none } (!activeCore s) 4).raiseG 281 .info slot 2
  | none => s

/-! ## Answers (R277) -/

/-- `WE_DONE` (Table 12.26). -/
def weDone (s : State) : Bool :=
  (s.rqe.reqs.all fun r => r.iss != .host) && (List.range 32).all fun c => wqUsed s c == 0

/-- The read of a mailbox command, once its data are there. -/
def mailReq (s : State) (m : Nat) : Option Req := s.rqe.reqs.find? fun r => r.iss == .mailbox m && r.op == .rd && r.cpl.isSome

/-- The payload of a MEM_READ answer (Table 12.13): outcome, metadata bytes, data. -/
def memReadPayload (c : Cpl) : List Byte :=
  let md := c.sects.map fun x => BitVec.ofNat 8 x.md
  leBytes 1 c.status.num ++ md ++ List.replicate (63 - md.length) 0 ++ c.sects.flatMap (·.data)

/-- An FW_LOAD whose chunk is not fully written within 10 ms of the command being taken (R446). -/
def loadLate (s : State) (m : Nat) : Bool :=
  cmdOpcode s m == 0x0A01 && decide ((s.mbx m).taken + 10 * msec ≤ s.now) && (match (s.mbx m).await with
    | .words (_ + 1) _ _ => true
    | _ => false)

/-- The detail word of RESOURCE for the MRAM write port (Table 22.2). -/
def portDetail (s : State) : Nat := 0x03 + ((s.pst.port.map (·.cls)).getD 0) * 256 + min 127 s.pst.q.length * 2048

/-- The answer of a command in hand, once what it waits for has happened. -/
def answerOf (s : State) (m : Nat) : Option (Code × Nat × List Byte) :=
  match (s.mbx m).await with
  | .due c d p => some (c, d, p)
  | .quiesce none t => if weDone s then some (.ok, 0, []) else if t ≤ s.now then some (.timeout, 0, []) else none
  | .quiesce (some d) _ => if rbUsed s d = 0 then some (.ok, 0, []) else none
  | .memRead _ => (mailReq s m).bind fun r => r.cpl.map fun c => (.ok, 0, memReadPayload c)
  | .memWrite => if s.rqe.reqs.all fun r => r.iss != .mailbox m then some (.ok, 0, []) else none
  | .turn => if s.link.turn.isNone && s.link.turnReq.isNone then some (.ok, 0, leBytes 1 (s.rd F.HLL_TURN_TURN_RES)) else none
  | .words 0 lim p => some (if lim then .wearLimit else .ok, 0, p)
  | _ => if loadLate s m then some (.resource, portDetail s, []) else none

/-- A chunk that is fully written counts as loaded (Table 12.3): its offset, and the payload's data bytes. -/
def loadDone (s : State) (m : Nat) : State :=
  match s.mgt.load with
  | some l => { s with mgt.load := some { l with runs := l.runs ++ [(leAt (cmdPayload s m) 0 4, cmdLen s m - 8)] } }
  | none => s

/-- A session that closes takes with it the master's leases, and the service host's authentication (R278, R435). -/
def afterPost (s : State) (m opc : Nat) (c : Code) : State :=
  if opc = 0x0101 ∧ c = .ok then
    let s := releaseLeases (setMstate s m 0) m
    if m = 16 then { s with mgt.auth := false } else s
  else setMstate (if opc = 0x0A01 ∧ c = .ok then loadDone s m else s) m 1

/-- The firmware posts the response of a mailbox: READY, or CLOSED after SESSION_CLOSE (Table 12.7). The response OK to PWR_ENTER is the commit point
(R374, step 4). A planned takeover runs once no command is in hand. -/
def responsePost (m : Nat) (s : State) : State :=
  if mstate s m ≠ 2 ∨ ¬ coreServes s then s else
  match answerOf s m with
  | none => s
  | some (c, d, p) =>
    let opc := cmdOpcode s m
    let s := if loadLate s m then { s with pst.q := s.pst.q.filter fun w => w.act != .fw m } else s
    let s := respond s m c d p
    let s := setExpSeq (afterPost s m opc c) m ((s.mbx m).seq + 1)
    let s := s.modMbx m fun x => { x with ran := false, journal := false, await := .none }
    let s : State := match s.pck.entry with
      | some e => if opc = 0x0800 ∧ c = Code.ok ∧ e.mbx = m then { s with pck.commit := some e.target } else s
      | none => s
    let reqs := s.rqe.reqs.filter fun (r : Req) => !(r.iss == .mailbox m && r.cpl.isSome && r.op != .wr && r.op != .zero)
    runTakeover { s with rqe.reqs := reqs, mgt.busy := SMap.erase s.mgt.busy m }

/-- Every mailbox is CLOSED and every lease is released (Table 12.7, last row). -/
def closeMailboxes (s : State) : State :=
  let s := (List.range 17).foldl (fun t m => releaseLeases ((setMstate t m 0).modMbx m fun x =>
    { x with ran := false, journal := false, await := .none, seq := 0, spdm := 0, transcript := [] }) m) s
  { s with mgt.busy := [], svc.mbxTag := none }

/-- Authentication ends (R435): the service host's leases are released, and a transfer ends with STATE (Table 21.5). -/
def endAuth (s : State) : State :=
  if !s.mgt.auth then s else
  let s := releaseLeases { s with mgt.auth := false } 16
  match s.svc.xfer with
  | some _ =>
    ({ s with svc.xfer := none, svc.buf := [] }.wr F.SVC_DRN_STAT_DRN_BUSY 0).wr F.SVC_DRN_STAT_DRN_RES Code.state.num
  | none => s

end Sys2Proof.Machine
end

