-- ==== Sys2Proof/Machine/Faults.lean ====
section
/-! DEFINITION. What FCR does after a raise is latched (ch. 14): the queues that empty, the log, the easy period, and the register actions. The raise itself is in Ops. -/

namespace Sys2Proof.Machine

/-- A raise from a unit of the stack (R306, R309): sources 0 to 286, with the syndrome words given. -/
def eventRaise (src : Nat) (v : Sev) (syn : List Nat) (s : State) : State := if 287 ≤ src then s else s.raise src v (syn.take 4)

/-- `EASY_LEFT`: whole ms left in the easy period (Table 14.10). -/
def easyLeft (s : State) : Nat := match s.fcr.easy with
  | some t => (t - s.now + msec - 1) / msec
  | none => 0

/-- The easy period ends with no FAULT raise (Table 14.5): `XSTATE` is OK, `RECOVERIES` is stored, and source 278 is raised. -/
def easyEnd (s : State) : State :=
  match s.fcr.easy with
  | some t =>
    if s.now < t ∨ s.rd F.FCR_STAT_XSTATE ≠ 1 then s else
    let n := min (s.rd F.FCR_RECOV_RECOVERIES + 1) (2 ^ 32 - 1)
    let s := ({ s with fcr.easy := none }.wr F.FCR_STAT_XSTATE 0).wr F.FCR_RECOV_RECOVERIES n
    let s := s.putStackWord 2 0 32 n
    s.raiseG 278 .info 0 n [s.rd F.FCR_FF_FF_MERGE, s.rd F.FCR_FF_OVF_FF_OVF_CNT]
  | none => s

/-- An EVT can be placed in a flit now: nothing of VC2 waits before it, and the partner has a cell (R311, R64). -/
def evtRoom (s : State) : Bool :=
  let home := match s.link.homeD with
    | some g => canPlace s g && homeClear s
    | none => false
  s.link.up && s.link.cfgRx.isSome && home && waitingHome s == 0 && decide (1 ≤ s.link.vc2Avail)

/-- The EVT at the head of domain `d`'s queue is placed in a flit (R104, R311). -/
def evtSend (d : Nat) (s : State) : State :=
  match SMap.getD s.fcr.evq d [] with
  | [] => s
  | e :: rest =>
    if !evtRoom s then s else
    let n := SMap.getD s.fcr.eseq d 0
    let loss := SMap.getD s.fcr.loss d false
    let s := { s with
      fcr.evq := SMap.put s.fcr.evq d [] rest
      fcr.eseq := SMap.put s.fcr.eseq d 0 ((n + 1) % 65536)
      fcr.loss := SMap.put s.fcr.loss d false false }
    sendVc2 s (evtBytes d e loss n)

/-- A fault-log record is at, or waiting for, the MRAM port. -/
def logAtPort (s : State) : Bool :=
  let isLog (w : MWord) : Bool := match w.act with
    | .logWord first _ => !first
    | .logEnd first _ => !first
    | _ => false
  s.pst.q.any isLog || (match s.pst.port with
    | some w => isLog w
    | none => false)

/-- The record at the head of the log queue goes to the MRAM port (R314, R315). -/
def logWrite (s : State) : State :=
  match s.fcr.logq with
  | [] => s
  | r :: rest =>
    if s.on F.FCR_LOG_LOG_WEAR then { s with fcr.logq := rest }
    else if logAtPort s || s.pst.only then s
    else { s with fcr.logq := rest }.logToPort r

/-- The rate budget refills by `LOG_RATE` tokens each second, to at most 64 (R315). -/
def tokenRefill (s : State) : State := { s with fcr.tokens := min 64 (s.fcr.tokens + s.rd F.FCR_CTL_LOG_RATE) }

/-- The 32-byte record of an event copy (R436). -/
def copyRecord (s : State) (r : Raise) : List Byte :=
  let lost := decide (s.svc.lostSeen < s.rd F.FCR_LOG_CNT_SVC_LOST)
  leBytes 4 (r.src + r.sev.num * 512 + b2n lost * 4096) ++ leBytes 4 s.svc.recSeq ++ leBytes 8 r.stamp
    ++ (List.range 4).flatMap fun i => leBytes 4 (r.syn.getD i 0)

/-- A queued copy is sent on EP2 IN while the service host is authenticated (R436). -/
def copySend (s : State) : State :=
  match s.fcr.svcq with
  | [] => s
  | r :: rest =>
    if !s.mgt.auth || !svcUp s then s else
    { s with
      out := s.out ++ [.ep2 (copyRecord s r)]
      fcr.svcq := rest
      svc.recSeq := s.svc.recSeq + 1
      svc.lostSeen := s.rd F.FCR_LOG_CNT_SVC_LOST }

/-- R457: the EVT queues and the service-copy queue are discarded. The first EVT to each domain after the exit carries `LOSS` (R311). -/
def discardQueues (s : State) : State :=
  let s := s.inc F.FCR_LOG_CNT_SVC_LOST s.fcr.svcq.length
  { s with fcr.evq := [], fcr.svcq := [], fcr.loss := (List.range 16).map (·, true) }

/-! ## Register actions (R316, R322) -/

/-- `FF_CLR`: the first-fault record and its counts; STATE in FAULT. -/
def ffClear (s : State) : Code × State :=
  if s.rd F.FCR_STAT_XSTATE = 1 then (.state, s) else
  let s := s.clearFields [F.FCR_FF_FF_VALID, F.FCR_FF_FF_SRC, F.FCR_FF_FF_SEV, F.FCR_FF_FF_OVF, F.FCR_FF_FF_MERGE, F.FCR_FF_OVF_FF_OVF_CNT,
    F.FCR_FF_OVF_FF_OVF_SRC, F.FCR_FF_TIME_LO_FF_TLO, F.FCR_FF_TIME_HI_FF_THI] 1
  (.ok, s.clearAll F.FCR_FF_SYN_FF_SYN 4)

/-- `CNT_CLR` of FCR_CTL (Table 14.9). -/
def fcrClear (s : State) : State :=
  let s := s.clearFields [F.FCR_LOG_CNT_LOG_DROP, F.FCR_LOG_CNT_SVC_LOST, F.FCR_ALERT_ALERT_CNT] 1
  { s with svc.lostSeen := 0 }.clearAll F.FCR_DOM_DLOST 16

/-- The severity that a number names. -/
def sevOf (n : Nat) : Sev := match n with
  | 0 => .info | 1 => .warn | 2 => .degrade | 3 => .fault | _ => .fatal

/-- `RAISE_GO` (Table 14.16): a test raise. -/
def raiseGo (s : State) : State :=
  s.raiseAs (s.rd F.FCR_RAISE_RAISE_SRC) (sevOf (s.rd F.FCR_RAISE_RAISE_SEV)) [s.rd F.FCR_RAISE_VAL_RAISE_VAL] true

/-- `PIN`: STK_ALERT# driven low, for 10 µs at least (R312); held low while the integrity policy holds the stack (R337). -/
def alertPin (s : State) : Bool := alertLow s || s.pck.pow == .hold && !s.pck.test

/-! ## Power management with the partner (R106) -/

/-- Send PM_REQ: 1 SLEEP, 2 DEEP_SLEEP, 3 ABORT. -/
def sendPm (s : State) (preq : Nat) : State :=
  let n := s.link.pseq
  sendVc2 { s with link.pseq := (n + 1) % 65536, link.pmReq := if preq = 3 then none else some (preq, n) } (pmReqBytes preq n)

end Sys2Proof.Machine
end

