-- ==== Sys2Proof/Machine/Calib.lean ====
section
/-! DEFINITION. The calibration engine (ch. 16). -/

namespace Sys2Proof.Machine

/-- A calibration code: its field and instance, its item (Table 16.1), its legal range, and its greatest change (Table 16.2). -/
structure CalCode where
  fld : Fld
  idx : Nat
  item : Nat
  lo : Nat
  hi : Nat
  step : Nat

/-- The codes in the order the store holds them, one word each (log entry 21). -/
def calCodes : List CalCode :=
  (List.range 16).map (fun g => { fld := F.CST_CAL_LINK_DRV, idx := g, item := 0, lo := 16, hi := 47, step := 4 })
  ++ (List.range 16).map (fun g => { fld := F.CST_CAL_LINK_TERM, idx := g, item := 0, lo := 16, hi := 47, step := 4 })
  ++ (List.range 32).map (fun c => { fld := F.CST_CAL_TSV_TSTR, idx := c, item := 1, lo := 4, hi := 27, step := 3 })
  ++ (List.range 50).map (fun n => { fld := F.CST_CAL_TOFS_TOFS, idx := n, item := 2, lo := 0, hi := 255, step := 32 })
  ++ [{ fld := F.CST_CAL_MISC_KTRIM, idx := 0, item := 3, lo := 0, hi := 15, step := 2 },
      { fld := F.CST_CAL_MISC_FTRIM, idx := 0, item := 4, lo := 0, hi := 127, step := 8 },
      { fld := F.CST_CAL_MISC_ATRIM, idx := 0, item := 4, lo := 0, hi := 127, step := 8 }]

/-- The distance of two codes; `TOFS` codes are two's complement. -/
def calDist (k : CalCode) (a b : Nat) : Nat :=
  if k.item = 2 then (signed8 a - signed8 b).natAbs else max a b - min a b

/-- A new code is plausible (R345): in range, and no further from the stored value, if there is one, than Table 16.2 allows. -/
def plausible (k : CalCode) (v : Nat) (old : Option Nat) : Bool :=
  decide (k.lo ≤ v) && decide (v ≤ k.hi) && (match old with
    | some o => decide (calDist k v o ≤ k.step)
    | none => true)

/-- The spare of a group whose check the link item makes (Table 16.1): in service, and the stack receives on it. -/
def calSpare (s : State) (g : Nat) : Option Nat := if (s.grp g).inSvc && !(s.grp g).dir then (s.grp g).spare else none

/-- Calibration takes the checkers of the idle spares at owner priority 2; a checker that repair holds is waited for (R45, Table 2.7). -/
def takeCheckers (s : State) : State :=
  (List.range 16).foldl (fun t g => match calSpare t g with
    | some l => if chkOwner (t.grp g) l = 1 then t else takeChecker t g l 2
    | none => t) s

/-- Calibration releases the checkers that it holds. -/
def freeCheckers (s : State) : State :=
  (List.range 16).foldl (fun t g => (t.grp g).owner.foldl (fun u e => if e.2 = 2 then dropChecker u g e.1 else u) t) s

/-- Start a run of the items of a mask; `mbx` waits for its end. -/
def calStart (s : State) (mask : Nat) (mbx : Option Nat) : State :=
  let s := if bit mask 0 then takeCheckers s else s
  { s.wr F.CST_CAL_STAT_CAL_BUSY 1 with cst.run := some (mask, mbx) }

/-- A write of `CAL_GO`, and CAL_RUN (R346, R350): BUSY while a run is in progress, STATE outside RUN. STATE comes first in R12. -/
def calGo (s : State) (mask : Nat) (mbx : Option Nat) : Code × State :=
  if s.pck.pow ≠ .run then (.state, s)
  else if s.cst.run.isSome then (.busy, s)
  else (.ok, calStart s mask mbx)

/-- The engine is free again. -/
def calFree (s : State) : State := { (freeCheckers s).wr F.CST_CAL_STAT_CAL_BUSY 0 with cst.run := none }

/-- The answer to the mailbox that waits for a run: the bits of the items that failed. -/
def calAnswer (s : State) (mbx : Option Nat) (failed : Nat) : State :=
  match mbx with
  | some m => s.modMbx m fun x => if x.await = .cal then { x with await := .due .ok 0 (leBytes 1 failed) } else x
  | none => s

/-- A run is abandoned (Table 16.3): codes, count and store stay. A CAL_RUN that waits for it is told that every item failed (log entry 129). -/
def calAbandon (s : State) : State :=
  match s.cst.run with
  | some (mask, mbx) => calFree (calAnswer s mbx mask)
  | none => calFree s

/-- The periodic run is due every `CAL_PER` hours of lifetime count, in RUN or IDLE; it merges into a run in progress (R346, Table 16.3). -/
def periodicCal (s : State) : State :=
  let mask := s.rd F.CST_CAL_CTL_PER_MASK
  let life := s.rd F.PST_LIFE_LIFE_S
  if mask = 0 ∨ ¬ (s.pck.pow = .run ∨ s.pck.pow = .idle) ∨ life < s.cst.last + 3600 * s.rd F.CST_CAL_CTL_CAL_PER then s else
  let s := { s with cst.last := life }
  match s.cst.run with
  | some (m, b) => { (if bit mask 0 && !bit m 0 then takeCheckers s else s) with cst.run := some (Nat.lor m mask, b) }
  | none => calStart s mask none

/-- Word index of copy `k` of the calibration store. -/
def calIdx (k : Nat) : Nat := 0x124000 + 2048 * k

/-- A copy of the store is valid (R328). -/
def calOk (s : State) (k : Nat) : Bool :=
  let ws := (List.range 2048).map fun j => s.mramAt (calIdx k + j)
  ws.getD 2047 0 == crcWords (ws.take 2047) && !(s.pst.bad.any fun i => decide (calIdx k ≤ i) && decide (i < calIdx k + 2048))

/-- The newer valid copy of the store, if any (R329). -/
def calCopy (s : State) : Option Nat := newerCopy (calOk s 0) (calOk s 1) (s.mramAt (calIdx 0)) (s.mramAt (calIdx 1))

/-- Write the store (R348): copy 0, then copy 1, at class 3. Words that do not differ are not written (R327), so a run that changed no code writes
only the others. -/
def calStore (s : State) (mask : Nat) (mbx : Option Nat) : State :=
  let seq := match calCopy s with
    | some k => (s.mramAt (calIdx k) + 1) % 2 ^ 32
    | none => 1
  let vals := calCodes.map fun k => s.rd k.fld k.idx
  let body := [seq] ++ vals ++ [s.rd F.CST_CAL_STAT_RES_MEAS, s.rd F.CST_CAL_CNT_CAL_COUNT, s.rd F.CST_CAL_TIME_CAL_TIME]
  let body := body ++ List.replicate (2047 - body.length) 0
  let ws := body ++ [crcWords body]
  let copy (k : Nat) (act : PortAct) : List MWord := ws.zipIdx.map fun (v, j) =>
    { cls := 3, idx := calIdx k + j, mask := 2 ^ 32 - 1, val := v, act := if j = 2047 then act else .none }
  { s with cst.store := s.cst.store ++ [(mask, mbx)] }.portPut (copy 0 .none ++ copy 1 .calEnd)

/-- The store write has ended: CAL_RUN is answered (R349). A word at its wear limit reports every item of the run as failed. -/
def calStored (s : State) : State :=
  match s.cst.store with
  | (mask, mbx) :: rest =>
    let failed := if s.cst.worn then mask else Nat.land (s.rd F.CST_CAL_STAT_CAL_FAILED) mask
    calAnswer { s with cst.store := rest, cst.stored := s.cst.stored || !s.cst.worn, cst.worn := false } mbx failed
  | [] => s

/-- The engine ends a run (R343 to R348). `codes` are the new codes in the order of `calCodes`, `good` the items whose result after trim meets Table 16.2,
`held` the groups whose lane checker stayed taken for 100 µs (Table 16.3). Every run that reaches its end counts, and writes the store. -/
def calEnd (res : Nat) (codes : List Nat) (good held : Nat) (s : State) : State :=
  match s.cst.run with
  | none => s
  | some (mask, mbx) =>
    let s := calFree (s.wr F.CST_CAL_STAT_RES_MEAS res)
    let old : Nat → Option Nat := match calCopy s with
      | some c => fun j => if s.cst.stored then some (s.mramAt (calIdx c + j + 1)) else none
      | none => fun _ => none
    let refBad := decide (res < 9950) || decide (10050 < res)
    let new := calCodes.zip (codes ++ List.replicate (calCodes.length - codes.length) 0)
    let heldCode (k : CalCode) : Bool := k.item == 0 && bit held k.idx
    let limit (item : Nat) : Bool :=
      bit mask item && (!bit good item || new.zipIdx.any fun e => e.1.1.item == item && !heldCode e.1.1 && !plausible e.1.1 e.1.2 (old e.2))
    let bad := maskOf ((List.range 5).filter limit)
    let busy := if bit mask 0 && !bit bad 0 && held % 65536 != 0 then 1 else 0
    let failed := if refBad then mask else bad + busy
    let take (s : State) (e : CalCode × Nat) : State :=
      if refBad || !bit mask e.1.item || bit bad e.1.item || heldCode e.1 then s else s.wr e.1.fld e.2 e.1.idx
    let s := new.foldl take s
    let s := (s.wr F.CST_CAL_STAT_CAL_FAILED failed).wr F.CST_CAL_STAT_CAL_CAUSE (if refBad then 1 else if bad ≠ 0 then 2 else if busy ≠ 0 then 3 else 0)
    let s := if refBad then s else (onesOf bad 5).foldl (fun t i => t.raiseG 276 .warn i 0) s
    let s := (s.inc F.CST_CAL_CNT_CAL_COUNT).wr F.CST_CAL_TIME_CAL_TIME (s.rd F.PST_LIFE_LIFE_S)
    calStore s mask mbx

/-- The codes in use before the first run (R347): the newer valid copy of the store, or the manufacturing trims. `TORN` and `RECORD_LOST` as R329. -/
def calLoad (s : State) : State :=
  let load (s : State) (f : Nat → Nat) : State := calCodes.zipIdx.foldl (fun t (k, j) => t.wr k.fld (f j) k.idx) s
  match calCopy s with
  | some c =>
    let w (j : Nat) : Nat := s.mramAt (calIdx c + j)
    let n := calCodes.length
    let torn := !(calOk s 0 && calOk s 1)
    let s := load { s with cst.stored := true, cst.last := s.rd F.PST_LIFE_LIFE_S } fun j => w (j + 1)
    let s := (s.wr F.CST_CAL_CNT_CAL_COUNT (w (n + 2))).wr F.CST_CAL_TIME_CAL_TIME (w (n + 3))
    if torn then
      let other := 1 - c
      ((s.raiseG 253 .info 2 0).inc F.PST_REC_TORN_CNT).portPut
        ((List.range 2048).map fun j => { cls := 4, idx := calIdx other + j, mask := 2 ^ 32 - 1, val := w j, act := .none })
    else s
  | none => (load { s with cst.stored := false, cst.last := s.rd F.PST_LIFE_LIFE_S } Config.trim).raiseG 254 .fault 2 0 |>.inc F.PST_REC_LOST_CNT

end Sys2Proof.Machine
end

