-- ==== Sys2Proof/Machine/RegMap.lean ====
section
/-! DEFINITION. The block map of R304: every register of the spec with its offset, its instances and its fields. -/

namespace Sys2Proof.Machine

/-! The layout of each register (R304 and the register tables of each chapter). -/

/-- R49. -/
def info_HLP_CTL : RegDef := { off := 0x80000, n1 := 16, s1 := 0x1000, flds := [F.HLP_CTL_QUIET_EN, F.HLP_CTL_DEEP_EN, F.HLP_CTL_RETRAIN, F.HLP_CTL_LOOPBACK, F.HLP_CTL_TEST, F.HLP_CTL_EQ_FIX, F.HLP_CTL_QUIET_DLY, F.HLP_CTL_FAIL_THR] }
/-- R49. -/
def info_HLP_STAT : RegDef := { off := 0x80004, n1 := 16, s1 := 0x1000, flds := [F.HLP_STAT_GSTATE, F.HLP_STAT_DIR, F.HLP_STAT_PLL_LOCK, F.HLP_STAT_LANE_USE, F.HLP_STAT_SPARE_POS, F.HLP_STAT_DESKEW_MAX, F.HLP_STAT_EQ_DONE] }
/-- R49. -/
def info_HLP_EQ : RegDef := { off := 0x80008, n1 := 16, s1 := 0x1000, flds := [F.HLP_EQ_PRESET_RX, F.HLP_EQ_PRESET_TX, F.HLP_EQ_CTLE, F.HLP_EQ_DFE1, F.HLP_EQ_EQ_LANE] }
/-- R49. -/
def info_HLP_PAT_USER : RegDef := { off := 0x8000C, n1 := 16, s1 := 0x1000, flds := [F.HLP_PAT_USER_PATTERN] }
/-- R49. -/
def info_HLP_INJ : RegDef := { off := 0x80010, n1 := 16, s1 := 0x1000, flds := [F.HLP_INJ_INJ_LANE, F.HLP_INJ_INJ_MODE, F.HLP_INJ_INJ_LIVE, F.HLP_INJ_INJ_EXP, F.HLP_INJ_INJ_LEN, F.HLP_INJ_INJ_GO, F.HLP_INJ_INJ_ACT, F.HLP_INJ_INJ_CNT] }
/-- R49. -/
def info_HLP_RETRAIN_CNT : RegDef := { off := 0x80014, n1 := 16, s1 := 0x1000, flds := [F.HLP_RETRAIN_CNT_RETRAINS, F.HLP_RETRAIN_CNT_LANE_FAILS] }
/-- R49. -/
def info_HLP_LN_CTL : RegDef := { off := 0x80100, n1 := 16, s1 := 0x1000, n2 := 17, s2 := 0x8, flds := [F.HLP_LN_CTL_SLIP, F.HLP_LN_CTL_SLIP_MAN, F.HLP_LN_CTL_PAT_SEL, F.HLP_LN_CTL_GEN_EN, F.HLP_LN_CTL_CHK_EN, F.HLP_LN_CTL_CHK_LOCK, F.HLP_LN_CTL_CHK_ABORT, F.HLP_LN_CTL_CHK_OWNER, F.HLP_LN_CTL_LSTATE, F.HLP_LN_CTL_LOS, F.HLP_LN_CTL_CDR_LOCK] }
/-- R49. -/
def info_HLP_LN_ERR : RegDef := { off := 0x80104, n1 := 16, s1 := 0x1000, n2 := 17, s2 := 0x8, flds := [F.HLP_LN_ERR_ERRORS] }
/-- R79. -/
def info_HLL_CTL : RegDef := { off := 0x90000, flds := [F.HLL_CTL_AUTO_BAL, F.HLL_CTL_CNT_CLR, F.HLL_CTL_REPLAY_THR, F.HLL_CTL_NAK_LIMIT, F.HLL_CTL_ACK_TMO] }
/-- R79. -/
def info_HLL_TURN : RegDef := { off := 0x90004, flds := [F.HLL_TURN_TURN_GRP, F.HLL_TURN_TURN_DIR, F.HLL_TURN_TURN_GO, F.HLL_TURN_TURN_BUSY, F.HLL_TURN_TURN_RES, F.HLL_TURN_TURNS] }
/-- R79. -/
def info_HLL_SPLIT : RegDef := { off := 0x90008, flds := [F.HLL_SPLIT_DIR_MAP, F.HLL_SPLIT_IN_SVC] }
/-- R79. -/
def info_HLL_LINK : RegDef := { off := 0x9000C, flds := [F.HLL_LINK_LINK_UP, F.HLL_LINK_HOME_H2D, F.HLL_LINK_HOME_D2H] }
/-- R79. -/
def info_HLL_CRD : RegDef := { off := 0x90040, n1 := 16, s1 := 0x4, reach := .domain, flds := [F.HLL_CRD_VC0_MIN, F.HLL_CRD_VC0_CAP] }
/-- R79. -/
def info_HLL_PCFG : RegDef := { off := 0x90080, flds := [F.HLL_PCFG_P_VC1, F.HLL_PCFG_P_VC2] }
/-- R79. -/
def info_HLL_FEC : RegDef := { off := 0x90100, n1 := 16, s1 := 0x10, flds := [F.HLL_FEC_FEC_CORR] }
/-- R79. -/
def info_HLL_FLIT : RegDef := { off := 0x90104, n1 := 16, s1 := 0x10, flds := [F.HLL_FLIT_BAD_FLITS, F.HLL_FLIT_REPLAYS] }
/-- R79. -/
def info_HLL_EVT : RegDef := { off := 0x90108, n1 := 16, s1 := 0x10, flds := [F.HLL_EVT_SPARES, F.HLL_EVT_LOSSES, F.HLL_EVT_PROTO, F.HLL_EVT_NAKS_TX] }
/-- R79. -/
def info_HLL_SEQ : RegDef := { off := 0x9010C, n1 := 16, s1 := 0x10, flds := [F.HLL_SEQ_TX_NEXT, F.HLL_SEQ_TX_ACKED, F.HLL_SEQ_RX_EXP] }
/-- R136. -/
def info_RQE_CTL : RegDef := { off := 0xA0000, flds := [F.RQE_CTL_HASH_SEL, F.RQE_CTL_CH_LSB, F.RQE_CTL_FWD_EN, F.RQE_CTL_CNT_CLR] }
/-- R136. -/
def info_RQE_HASH_MASK : RegDef := { off := 0xA0010, n1 := 5, s1 := 0x4, flds := [F.RQE_HASH_MASK_MASK] }
/-- R136. -/
def info_RQE_STAT : RegDef := { off := 0xA0028, flds := [F.RQE_STAT_RB_USED, F.RQE_STAT_ADMITTED, F.RQE_STAT_WDB_USED] }
/-- R136. -/
def info_RQE_STAT2 : RegDef := { off := 0xA002C, flds := [F.RQE_STAT2_CDB_USED, F.RQE_STAT2_RNG_USED] }
/-- R136. -/
def info_RQE_FWD : RegDef := { off := 0xA0030, flds := [F.RQE_FWD_FWD_SECT] }
/-- R136. -/
def info_RQE_HAZ : RegDef := { off := 0xA0034, flds := [F.RQE_HAZ_HAZ_WAIT] }
/-- R136. -/
def info_RQE_DUP : RegDef := { off := 0xA0038, flds := [F.RQE_DUP_DUP_TAG, F.RQE_DUP_DUP_DOM, F.RQE_DUP_DUP_CNT] }
/-- R136. -/
def info_RQE_DOM_CTL : RegDef := { off := 0xA0100, n1 := 16, s1 := 0x10, reach := .domain, flds := [F.RQE_DOM_CTL_EN, F.RQE_DOM_CTL_PURGE, F.RQE_DOM_CTL_PURGE_BUSY, F.RQE_DOM_CTL_RB_CAP] }
/-- R136. -/
def info_RQE_DOM_USE : RegDef := { off := 0xA0104, n1 := 16, s1 := 0x10, reach := .domain, flds := [F.RQE_DOM_USE_RB_USED_D, F.RQE_DOM_USE_LINK_LOST] }
/-- R136. -/
def info_RQE_DOM_REJ : RegDef := { off := 0xA0108, n1 := 16, s1 := 0x10, reach := .domain, flds := [F.RQE_DOM_REJ_REJ_OPC, F.RQE_DOM_REJ_REJ_PRIV, F.RQE_DOM_REJ_REJ_RANGE, F.RQE_DOM_REJ_REJ_STATE] }
/-- R136. -/
def info_RQE_RGN_A : RegDef := { off := 0xA0400, n1 := 64, s1 := 0x8, flds := [F.RQE_RGN_A_DBASE, F.RQE_RGN_A_RDOM, F.RQE_RGN_A_WR, F.RQE_RGN_A_EN] }
/-- R136. -/
def info_RQE_RGN_B : RegDef := { off := 0xA0404, n1 := 64, s1 := 0x8, flds := [F.RQE_RGN_B_SIZE_M1, F.RQE_RGN_B_PBASE] }
/-- R154. -/
def info_REG_CTL : RegDef := { off := 0xB0000, flds := [F.REG_CTL_MTR_EN, F.REG_CTL_DL_OFS, F.REG_CTL_CNT_CLR] }
/-- R154. -/
def info_REG_S : RegDef := { off := 0xB0004, flds := [F.REG_S_S_EST, F.REG_S_OVC, F.REG_S_FOLD_ACT] }
/-- R154. -/
def info_REG_S_IN : RegDef := { off := 0xB0008, flds := [F.REG_S_IN_THETA, F.REG_S_IN_HOT_RANKS, F.REG_S_IN_ZERO_CH] }
/-- R154. -/
def info_REG_RT_SUM : RegDef := { off := 0xB000C, flds := [F.REG_RT_SUM_RT_SUM] }
/-- R154. -/
def info_REG_LT_SUM : RegDef := { off := 0xB0010, flds := [F.REG_LT_SUM_LT_SUM] }
/-- R154. -/
def info_REG_CTX_IDX : RegDef := { off := 0xB0020, reach := .banked, flds := [F.REG_CTX_IDX_CTX_IDX] }
/-- R154. -/
def info_REG_CTX_CMD : RegDef := { off := 0xB0024, reach := .banked, flds := [F.REG_CTX_CMD_OP] }
/-- R154. -/
def info_REG_CTX_D0 : RegDef := { off := 0xB0030, reach := .banked, flds := [F.REG_CTX_D0_CLASS, F.REG_CTX_D0_LT_TGT, F.REG_CTX_D0_RES_IDX, F.REG_CTX_D0_ODOM, F.REG_CTX_D0_ALLOC, F.REG_CTX_D0_OWNED, F.REG_CTX_D0_MLAT_CLR] }
/-- R154. -/
def info_REG_CTX_D1 : RegDef := { off := 0xB0034, reach := .banked, flds := [F.REG_CTX_D1_MLAT, F.REG_CTX_D1_LT_STEP] }
/-- R154. -/
def info_REG_CTX_D2 : RegDef := { off := 0xB0038, reach := .banked, flds := [F.REG_CTX_D2_HEAD, F.REG_CTX_D2_TAIL] }
/-- R154. -/
def info_REG_CTX_D3 : RegDef := { off := 0xB003C, reach := .banked, flds := [F.REG_CTX_D3_QCNT] }
/-- R154. -/
def info_REG_CNT_IDX : RegDef := { off := 0xB0040, reach := .banked, flds := [F.REG_CNT_IDX_CIDX] }
/-- R154. -/
def info_REG_CNT_LO : RegDef := { off := 0xB0044, reach := .banked, flds := [F.REG_CNT_LO_CNT_LO] }
/-- R154. -/
def info_REG_CNT_HI : RegDef := { off := 0xB0048, reach := .banked, flds := [F.REG_CNT_HI_CNT_HI] }
/-- R154. -/
def info_REG_WSEL_IDX : RegDef := { off := 0xB0050, reach := .banked, flds := [F.REG_WSEL_IDX_WIDX] }
/-- R154. -/
def info_REG_WSEL : RegDef := { off := 0xB0054, flds := [F.REG_WSEL_WBOW, F.REG_WSEL_WMASK] }
/-- R154. -/
def info_REG_CLASS : RegDef := { off := 0xB0100, n1 := 8, s1 := 0x10, flds := [F.REG_CLASS_KIND, F.REG_CLASS_DEF_DL, F.REG_CLASS_SLACK_Q] }
/-- R154. -/
def info_REG_CLASS2 : RegDef := { off := 0xB0104, n1 := 8, s1 := 0x10, flds := [F.REG_CLASS2_AGE_Q, F.REG_CLASS2_EST] }
/-- R154. -/
def info_REG_REFS : RegDef := { off := 0xB0108, n1 := 8, s1 := 0x10, flds := [F.REG_REFS_RES_REFS] }
/-- R154. -/
def info_REG_BOW : RegDef := { off := 0xB0200, n1 := 16, s1 := 0x8, reach := .domain, flds := [F.REG_BOW_BOW_BASE, F.REG_BOW_BOW_LAST] }
/-- R154. -/
def info_REG_BOW_EN : RegDef := { off := 0xB0204, n1 := 16, s1 := 0x8, reach := .domain, flds := [F.REG_BOW_EN_BOW_EN, F.REG_BOW_EN_BOW_BUSY] }
/-- R154. -/
def info_REG_RSV_A : RegDef := { off := 0xB0400, lo1 := 1, n1 := 64, s1 := 0x10, flds := [F.REG_RSV_A_RQ_RATE, F.REG_RSV_A_RKIND, F.REG_RSV_A_RDOM, F.REG_RSV_A_EN] }
/-- R154. -/
def info_REG_RSV_B : RegDef := { off := 0xB0404, lo1 := 1, n1 := 64, s1 := 0x10, flds := [F.REG_RSV_B_GRANT] }
/-- R154. -/
def info_REG_RSV_C : RegDef := { off := 0xB0408, lo1 := 1, n1 := 64, s1 := 0x10, flds := [F.REG_RSV_C_RREFS] }
/-- R175. -/
def info_SCC_CTL : RegDef := { off := 0x100000, n1 := 32, s1 := 0x1000, flds := [F.SCC_CTL_ALLOC_EN, F.SCC_CTL_WT, F.SCC_CTL_BYPASS, F.SCC_CTL_UE_THR, F.SCC_CTL_DIS_LIM, F.SCC_CTL_CNT_CLR] }
/-- R175. -/
def info_SCC_STAT : RegDef := { off := 0x100004, n1 := 32, s1 := 0x1000, flds := [F.SCC_STAT_SSTATE, F.SCC_STAT_SFAULT, F.SCC_STAT_FCAUSE, F.SCC_STAT_WT_CLEAN] }
/-- R175. -/
def info_SCC_OCC : RegDef := { off := 0x100008, n1 := 32, s1 := 0x1000, flds := [F.SCC_OCC_DIRTY_LINES, F.SCC_OCC_VALID_64] }
/-- R175. -/
def info_SCC_OPS_CMD : RegDef := { off := 0x10000C, n1 := 32, s1 := 0x1000, flds := [F.SCC_OPS_CMD_OP, F.SCC_OPS_CMD_SCOPE, F.SCC_OPS_CMD_ODOM, F.SCC_OPS_CMD_OWAYS] }
/-- R175. -/
def info_SCC_OPS_STAT : RegDef := { off := 0x100010, n1 := 32, s1 := 0x1000, flds := [F.SCC_OPS_STAT_OPS_BUSY, F.SCC_OPS_STAT_OPS_SET, F.SCC_OPS_STAT_OPS_RES, F.SCC_OPS_STAT_OPS_CNT] }
/-- R175. -/
def info_SCC_POL : RegDef := { off := 0x100014, n1 := 32, s1 := 0x1000, flds := [F.SCC_POL_POL_0, F.SCC_POL_POL_1, F.SCC_POL_POL_2, F.SCC_POL_POL_3, F.SCC_POL_POL_4, F.SCC_POL_POL_5, F.SCC_POL_POL_6, F.SCC_POL_POL_7] }
/-- R175. -/
def info_SCC_WAYS : RegDef := { off := 0x100018, n1 := 32, s1 := 0x1000, flds := [F.SCC_WAYS_WAY_DIS, F.SCC_WAYS_BG_WAYS] }
/-- R175. -/
def info_SCC_XING : RegDef := { off := 0x10001C, n1 := 32, s1 := 0x1000, flds := [F.SCC_XING_CLK_DLY, F.SCC_XING_RD_DLY, F.SCC_XING_WR_DLY] }
/-- R175. -/
def info_SCC_XING_STAT : RegDef := { off := 0x100020, n1 := 32, s1 := 0x1000, flds := [F.SCC_XING_STAT_MARGIN, F.SCC_XING_STAT_MARGIN_MIN, F.SCC_XING_STAT_MARGIN_LIM] }
/-- R175. -/
def info_SCC_FAULT : RegDef := { off := 0x100024, n1 := 32, s1 := 0x1000, flds := [F.SCC_FAULT_UE_WAY, F.SCC_FAULT_UE_SET, F.SCC_FAULT_UE_CNT, F.SCC_FAULT_TAG_FIX] }
/-- R175. -/
def info_SCC_DOM_WAYS : RegDef := { off := 0x100040, n1 := 32, s1 := 0x1000, n2 := 8, s2 := 0x4, flds := [F.SCC_DOM_WAYS_DWAYS_E, F.SCC_DOM_WAYS_DWAYS_O] }
/-- R175. -/
def info_SCC_RD_HIT : RegDef := { off := 0x100080, n1 := 32, s1 := 0x1000, flds := [F.SCC_RD_HIT_RD_HIT] }
/-- R175. -/
def info_SCC_RD_MISS : RegDef := { off := 0x100084, n1 := 32, s1 := 0x1000, flds := [F.SCC_RD_MISS_RD_MISS] }
/-- R175. -/
def info_SCC_WR_HIT : RegDef := { off := 0x100088, n1 := 32, s1 := 0x1000, flds := [F.SCC_WR_HIT_WR_HIT] }
/-- R175. -/
def info_SCC_WR_MISS : RegDef := { off := 0x10008C, n1 := 32, s1 := 0x1000, flds := [F.SCC_WR_MISS_WR_MISS] }
/-- R175. -/
def info_SCC_WB : RegDef := { off := 0x100090, n1 := 32, s1 := 0x1000, flds := [F.SCC_WB_WB_SECT] }
/-- R175. -/
def info_SCC_ALLOC_FAIL : RegDef := { off := 0x100094, n1 := 32, s1 := 0x1000, flds := [F.SCC_ALLOC_FAIL_ALLOC_FAIL] }
/-- R197. -/
def info_DMC_CTL : RegDef := { off := 0x200000, n1 := 32, s1 := 0x2000, flds := [F.DMC_CTL_PD_EN, F.DMC_CTL_PD_IDLE, F.DMC_CTL_HIT_CAP, F.DMC_CTL_CH_RST, F.DMC_CTL_CNT_CLR] }
/-- R197. -/
def info_DMC_WM : RegDef := { off := 0x200004, n1 := 32, s1 := 0x2000, flds := [F.DMC_WM_WM_LO, F.DMC_WM_WM_HI] }
/-- R197. -/
def info_DMC_WQ : RegDef := { off := 0x200008, n1 := 32, s1 := 0x2000, flds := [F.DMC_WQ_WQ_CAP, F.DMC_WQ_DRAIN_MAX, F.DMC_WQ_READ_MIN] }
/-- R197. -/
def info_DMC_HANG : RegDef := { off := 0x20000C, n1 := 32, s1 := 0x2000, flds := [F.DMC_HANG_HANG_TMO, F.DMC_HANG_HANG_LIM, F.DMC_HANG_BG_PROMOTE] }
/-- R197. -/
def info_DMC_STAT : RegDef := { off := 0x200010, n1 := 32, s1 := 0x2000, flds := [F.DMC_STAT_CSTATE, F.DMC_STAT_MODE, F.DMC_STAT_FORCED, F.DMC_STAT_WQ_USED, F.DMC_STAT_RMW_USED, F.DMC_STAT_HANG_LIM_HIT] }
/-- R197. -/
def info_DMC_HANG_STAT : RegDef := { off := 0x200014, n1 := 32, s1 := 0x2000, flds := [F.DMC_HANG_STAT_HCAUSE, F.DMC_HANG_STAT_HANGS, F.DMC_HANG_STAT_TMO_CPL] }
/-- R197. -/
def info_DMC_TRAIN_CTL : RegDef := { off := 0x200018, n1 := 32, s1 := 0x2000, flds := [F.DMC_TRAIN_CTL_TRAIN_GO, F.DMC_TRAIN_CTL_TRK_EN] }
/-- R197. -/
def info_DMC_TRAIN_STAT : RegDef := { off := 0x20001C, n1 := 32, s1 := 0x2000, flds := [F.DMC_TRAIN_STAT_TR_PASS, F.DMC_TRAIN_STAT_TR_RETRIES, F.DMC_TRAIN_STAT_TR_TIME, F.DMC_TRAIN_STAT_TR_BUSY] }
/-- R197. -/
def info_DMC_RD_SECT : RegDef := { off := 0x200020, n1 := 32, s1 := 0x2000, flds := [F.DMC_RD_SECT_RD_SECT] }
/-- R197. -/
def info_DMC_WR_SECT : RegDef := { off := 0x200024, n1 := 32, s1 := 0x2000, flds := [F.DMC_WR_SECT_WR_SECT] }
/-- R197. -/
def info_DMC_ACT_CNT : RegDef := { off := 0x200028, n1 := 32, s1 := 0x2000, flds := [F.DMC_ACT_CNT_ACT_CNT] }
/-- R197. -/
def info_DMC_HIT_CNT : RegDef := { off := 0x20002C, n1 := 32, s1 := 0x2000, flds := [F.DMC_HIT_CNT_HIT_CNT] }
/-- R197. -/
def info_DMC_EMPTY_CNT : RegDef := { off := 0x200030, n1 := 32, s1 := 0x2000, flds := [F.DMC_EMPTY_CNT_EMPTY_CNT] }
/-- R197. -/
def info_DMC_CONF_CNT : RegDef := { off := 0x200034, n1 := 32, s1 := 0x2000, flds := [F.DMC_CONF_CNT_CONF_CNT] }
/-- R197. -/
def info_DMC_DRAIN_CNT : RegDef := { off := 0x200038, n1 := 32, s1 := 0x2000, flds := [F.DMC_DRAIN_CNT_DRAIN_CNT] }
/-- R197. -/
def info_DMC_WSUP_CNT : RegDef := { off := 0x20003C, n1 := 32, s1 := 0x2000, flds := [F.DMC_WSUP_CNT_WSUP_CNT] }
/-- R197. -/
def info_DMC_RANK_STAT : RegDef := { off := 0x200040, n1 := 32, s1 := 0x2000, n2 := 4, s2 := 0x10, flds := [F.DMC_RANK_STAT_PSTATE] }
/-- R197. -/
def info_DMC_RANK_DLY : RegDef := { off := 0x200044, n1 := 32, s1 := 0x2000, n2 := 4, s2 := 0x10, flds := [F.DMC_RANK_DLY_CA_DLY, F.DMC_RANK_DLY_WL_DLY, F.DMC_RANK_DLY_RG_DLY] }
/-- R197. -/
def info_DMC_RANK_VREF : RegDef := { off := 0x200048, n1 := 32, s1 := 0x2000, n2 := 4, s2 := 0x10, flds := [F.DMC_RANK_VREF_RD_VREF, F.DMC_RANK_VREF_WR_VREF] }
/-- R197. -/
def info_DMC_RANK_PD : RegDef := { off := 0x20004C, n1 := 32, s1 := 0x2000, n2 := 4, s2 := 0x10, flds := [F.DMC_RANK_PD_PD_ENTRIES] }
/-- R197. -/
def info_DMC_BANK : RegDef := { off := 0x200100, n1 := 32, s1 := 0x2000, n2 := 64, s2 := 0x4, flds := [F.DMC_BANK_ROW_E, F.DMC_BANK_ROW_O] }
/-- R213. -/
def info_RFM_CTL : RegDef := { off := 0xD0000, flds := [F.RFM_CTL_ST_THR, F.RFM_CTL_POSTPONE, F.RFM_CTL_FORCE_2X, F.RFM_CTL_CNT_CLR] }
/-- R213. -/
def info_RFM_BKLG : RegDef := { off := 0xD0004, flds := [F.RFM_BKLG_BKLG_THR, F.RFM_BKLG_BKLG_TMO] }
/-- R213. -/
def info_RFM_DBL : RegDef := { off := 0xD0008, flds := [F.RFM_DBL_DBL_MAP, F.RFM_DBL_SBAD_MAP] }
/-- R213. -/
def info_RFM_DIE : RegDef := { off := 0xD0040, n1 := 16, s1 := 0x4, flds := [F.RFM_DIE_DTEMP, F.RFM_DIE_DBL, F.RFM_DIE_SBAD, F.RFM_DIE_RATE_CHG] }
/-- R213. -/
def info_RFM_VQ : RegDef := { off := 0xD0100, n1 := 32, s1 := 0x10, flds := [F.RFM_VQ_VQ_USED, F.RFM_VQ_VQ_PEAK, F.RFM_VQ_DIE_OVF, F.RFM_VQ_SW_ERR, F.RFM_VQ_RPT_UE] }
/-- R213. -/
def info_RFM_XING : RegDef := { off := 0xD0104, n1 := 32, s1 := 0x10, flds := [F.RFM_XING_XINGS] }
/-- R213. -/
def info_RFM_VREF : RegDef := { off := 0xD0108, n1 := 32, s1 := 0x10, flds := [F.RFM_VREF_VREFS] }
/-- R213. -/
def info_RFM_REF : RegDef := { off := 0xD010C, n1 := 32, s1 := 0x10, flds := [F.RFM_REF_MAX_DEBT, F.RFM_REF_OVERDUE, F.RFM_REF_SLIPS] }
/-- R238. -/
def info_DIP_CTL : RegDef := { off := 0xC0000, flds := [F.DIP_CTL_SCRUB_EN, F.DIP_CTL_CSCRUB_EN, F.DIP_CTL_SCRUB_PER, F.DIP_CTL_ROW_CE_THR, F.DIP_CTL_ROW_2BIT, F.DIP_CTL_CNT_CLR] }
/-- R238. -/
def info_DIP_THR : RegDef := { off := 0xC0004, flds := [F.DIP_THR_CE_THR, F.DIP_THR_POS_THR] }
/-- R238. -/
def info_DIP_INJ : RegDef := { off := 0xC0008, flds := [F.DIP_INJ_INJ_CH, F.DIP_INJ_INJ_POS1, F.DIP_INJ_INJ_POS2, F.DIP_INJ_INJ_BEAT, F.DIP_INJ_INJ_ARM, F.DIP_INJ_INJ_ARMED] }
/-- R238. -/
def info_DIP_SCRUB_STAT : RegDef := { off := 0xC000C, flds := [F.DIP_SCRUB_STAT_PASS_CNT, F.DIP_SCRUB_STAT_SCRUB_PAUSED, F.DIP_SCRUB_STAT_SCRUB_UNSAFE] }
/-- R238. -/
def info_DIP_SCRUB_FIX : RegDef := { off := 0xC0010, flds := [F.DIP_SCRUB_FIX_SCRUB_FIX] }
/-- R238. -/
def info_DIP_ARR : RegDef := { off := 0xC0014, flds := [F.DIP_ARR_ARR_CE, F.DIP_ARR_ARR_UE] }
/-- R238. -/
def info_DIP_LOG_STAT : RegDef := { off := 0xC0018, flds := [F.DIP_LOG_STAT_LOG_CNT, F.DIP_LOG_STAT_LOG_OVF, F.DIP_LOG_STAT_LOG_TOTAL] }
/-- R238. -/
def info_DIP_LOG_POP : RegDef := { off := 0xC001C, flds := [F.DIP_LOG_POP_POP] }
/-- R238. -/
def info_DIP_LOG_W : RegDef := { off := 0xC0020, n1 := 4, s1 := 0x4, flds := [F.DIP_LOG_W_LOG_WORD] }
/-- R238. -/
def info_DIP_CE : RegDef := { off := 0xC0100, n1 := 32, s1 := 0x10, flds := [F.DIP_CE_CE_CNT] }
/-- R238. -/
def info_DIP_UE : RegDef := { off := 0xC0104, n1 := 32, s1 := 0x10, flds := [F.DIP_UE_UE_CNT, F.DIP_UE_POISON_RD] }
/-- R238. -/
def info_DIP_SCRUB : RegDef := { off := 0xC0108, n1 := 32, s1 := 0x10, flds := [F.DIP_SCRUB_SCRUB_BANK, F.DIP_SCRUB_SCRUB_ROW] }
/-- R238. -/
def info_DIP_POS : RegDef := { off := 0xC010C, n1 := 32, s1 := 0x10, flds := [F.DIP_POS_TOP_POS, F.DIP_POS_TOP_CNT, F.DIP_POS_SUSP_POS, F.DIP_POS_ROW_TRIG] }
/-- R260. -/
def info_TSV_CTL : RegDef := { off := 0xE0000, n1 := 32, s1 := 0x800, flds := [F.TSV_CTL_ROLL_EN, F.TSV_CTL_FAST_EN, F.TSV_CTL_KILL_PHY, F.TSV_CTL_KILL, F.TSV_CTL_CNT_CLR] }
/-- R260. -/
def info_TSV_STAT : RegDef := { off := 0xE0004, n1 := 32, s1 := 0x800, flds := [F.TSV_STAT_TSTATE, F.TSV_STAT_DFAIL, F.TSV_STAT_SHADOW_PHY, F.TSV_STAT_CAL_PHY, F.TSV_STAT_CAL_BUSY, F.TSV_STAT_STALL_CAL, F.TSV_STAT_CA_SPARES, F.TSV_STAT_STB_SPARE] }
/-- R260. -/
def info_TSV_DEAD : RegDef := { off := 0xE0008, n1 := 32, s1 := 0x800, flds := [F.TSV_DEAD_DEAD_POS1, F.TSV_DEAD_DEAD_POS2, F.TSV_DEAD_CAL_FAILS, F.TSV_DEAD_FAST_CNT] }
/-- R260. -/
def info_TSV_PHY_DEAD0 : RegDef := { off := 0xE000C, n1 := 32, s1 := 0x800, flds := [F.TSV_PHY_DEAD0_PHY_DEAD] }
/-- R260. -/
def info_TSV_PHY_DEAD1 : RegDef := { off := 0xE0010, n1 := 32, s1 := 0x800, flds := [F.TSV_PHY_DEAD1_PHY_DEAD] }
/-- R260. -/
def info_TSV_PHY_DEAD2 : RegDef := { off := 0xE0014, n1 := 32, s1 := 0x800, flds := [F.TSV_PHY_DEAD2_PHY_DEAD] }
/-- R260. -/
def info_TSV_MAP_IDX : RegDef := { off := 0xE0018, n1 := 32, s1 := 0x800, flds := [F.TSV_MAP_IDX_LPOS] }
/-- R260. -/
def info_TSV_MAP : RegDef := { off := 0xE001C, n1 := 32, s1 := 0x800, flds := [F.TSV_MAP_PHY, F.TSV_MAP_RD_DLYT, F.TSV_MAP_WR_DLYT] }
/-- R260. -/
def info_TSV_CAL_CNT : RegDef := { off := 0xE0020, n1 := 32, s1 := 0x800, flds := [F.TSV_CAL_CNT_CAL_STEPS] }
/-- R260. -/
def info_TSV_CA : RegDef := { off := 0xE0024, n1 := 32, s1 := 0x800, flds := [F.TSV_CA_CA_DEAD, F.TSV_CA_STB_DEAD] }
/-- R260. -/
def info_TSV_DROP : RegDef := { off := 0xE0028, n1 := 32, s1 := 0x800, flds := [F.TSV_DROP_DROP_WR] }
/-- R260. -/
def info_TSV_RPR_CTL : RegDef := { off := 0xE002C, n1 := 32, s1 := 0x800, flds := [F.TSV_RPR_CTL_RPR_ROW, F.TSV_RPR_CTL_RPR_BANK, F.TSV_RPR_CTL_RPR_RANK, F.TSV_RPR_CTL_RPR_GO] }
/-- R260. -/
def info_TSV_RPR_STAT : RegDef := { off := 0xE0030, n1 := 32, s1 := 0x800, flds := [F.TSV_RPR_STAT_RPR_BUSY, F.TSV_RPR_STAT_RPR_QUEUED, F.TSV_RPR_STAT_RPR_RES, F.TSV_RPR_STAT_RPR_DONE, F.TSV_RPR_STAT_NOSPARE] }
/-- R260. -/
def info_TSV_FOLD_CTL : RegDef := { off := 0xF0000, flds := [F.TSV_FOLD_CTL_FR_MODE, F.TSV_FOLD_CTL_FOLD_AUTO, F.TSV_FOLD_CTL_FOLD_CH, F.TSV_FOLD_CTL_FOLD_GO] }
/-- R260. -/
def info_TSV_FOLD_STAT : RegDef := { off := 0xF0004, flds := [F.TSV_FOLD_STAT_FSTATE, F.TSV_FOLD_STAT_FOLDED_CH, F.TSV_FOLD_STAT_FCHUNK] }
/-- R260. -/
def info_TSV_FOLD_PTR : RegDef := { off := 0xF0008, flds := [F.TSV_FOLD_PTR_FOLD_PTR] }
/-- R260. -/
def info_TSV_RMAP_IDX : RegDef := { off := 0xF0010, flds := [F.TSV_RMAP_IDX_RM_CH, F.TSV_RMAP_IDX_RM_BANK, F.TSV_RMAP_IDX_RM_SPARE] }
/-- R260. -/
def info_TSV_RMAP : RegDef := { off := 0xF0014, flds := [F.TSV_RMAP_RROW, F.TSV_RMAP_RV, F.TSV_RMAP_RBAD] }
/-- R284. -/
def info_MGT_CTL : RegDef := { off := 0x60000, flds := [F.MGT_CTL_STBY_EN, F.MGT_CTL_TAKE, F.MGT_CTL_WDT_US, F.MGT_CTL_TRIAL_S] }
/-- R284. -/
def info_MGT_STAT : RegDef := { off := 0x60004, flds := [F.MGT_STAT_ACTIVE, F.MGT_STAT_A_STATE, F.MGT_STAT_B_STATE, F.MGT_STAT_A_SLOT, F.MGT_STAT_B_SLOT, F.MGT_STAT_MCK_PLL, F.MGT_STAT_TRIAL] }
/-- R284. -/
def info_MGT_BOOT : RegDef := { off := 0x60008, flds := [F.MGT_BOOT_BOOT_SLOT] }
/-- R284. -/
def info_MGT_TAKE : RegDef := { off := 0x6000C, flds := [F.MGT_TAKE_TAKEOVERS, F.MGT_TAKE_TCAUSE] }
/-- R284. -/
def info_MGT_HEART : RegDef := { off := 0x60010, flds := [F.MGT_HEART_BEAT] }
/-- R284. -/
def info_MGT_FWVER_A : RegDef := { off := 0x60014, flds := [F.MGT_FWVER_A_VER_A] }
/-- R284. -/
def info_MGT_FWVER_B : RegDef := { off := 0x60018, flds := [F.MGT_FWVER_B_VER_B] }
/-- R284. -/
def info_MGT_SVN : RegDef := { off := 0x6001C, flds := [F.MGT_SVN_SVN_FUSE, F.MGT_SVN_SVN_A, F.MGT_SVN_SVN_B] }
/-- R284. -/
def info_MGT_QUIESCE : RegDef := { off := 0x60020, flds := [F.MGT_QUIESCE_WE_STACK, F.MGT_QUIESCE_WE_DONE, F.MGT_QUIESCE_WE_DOM] }
/-- R284. -/
def info_MGT_LEASE : RegDef := { off := 0x60040, n1 := 5, s1 := 0x4, flds := [F.MGT_LEASE_HOLDER, F.MGT_LEASE_LEFT_MS] }
/-- R284. -/
def info_MBX_STAT : RegDef := { off := 0x68000, n1 := 16, s1 := 0x800, reach := .domain, flds := [F.MBX_STAT_MSTATE, F.MBX_STAT_EXP_SEQ] }
/-- R284. -/
def info_MBX_DB : RegDef := { off := 0x68004, n1 := 16, s1 := 0x800, reach := .domain, flds := [F.MBX_DB_DB_SEQ] }
/-- R284. -/
def info_MBX_PTR : RegDef := { off := 0x68008, n1 := 16, s1 := 0x800, reach := .domain, flds := [F.MBX_PTR_MOFS, F.MBX_PTR_MBUF] }
/-- R284. -/
def info_MBX_DATA : RegDef := { off := 0x6800C, n1 := 16, s1 := 0x800, reach := .domain, flds := [F.MBX_DATA_MDATA] }
/-- R284. -/
def info_MBX_CNT : RegDef := { off := 0x68010, n1 := 16, s1 := 0x800, reach := .domain, flds := [F.MBX_CNT_CMDS, F.MBX_CNT_DB_IGN] }
/-- R305. -/
def info_GLB_ID : RegDef := { off := 0x0, flds := [F.GLB_ID_JREV, F.GLB_ID_CREV, F.GLB_ID_DREV, F.GLB_ID_PART] }
/-- R305. -/
def info_GLB_STAT : RegDef := { off := 0x4, reach := .banked, flds := [F.GLB_STAT_WHO, F.GLB_STAT_SVC_AUTH] }
/-- R305. -/
def info_GLB_CTL : RegDef := { off := 0x8, flds := [F.GLB_CTL_WRST, F.GLB_CTL_T_WR_EN] }
/-- R305. -/
def info_GLB_SERIAL : RegDef := { off := 0x10, n1 := 4, s1 := 0x4, flds := [F.GLB_SERIAL_SERIAL] }
/-- R305. -/
def info_GLB_UPTIME_LO : RegDef := { off := 0x20, flds := [F.GLB_UPTIME_LO_UP_LO] }
/-- R305. -/
def info_GLB_UPTIME_HI : RegDef := { off := 0x24, flds := [F.GLB_UPTIME_HI_UP_HI] }
/-- R305. -/
def info_GLB_SCRATCH_LO : RegDef := { off := 0x28, flds := [F.GLB_SCRATCH_LO_SCR_LO] }
/-- R305. -/
def info_GLB_SCRATCH_HI : RegDef := { off := 0x2C, flds := [F.GLB_SCRATCH_HI_SCR_HI] }
/-- R305. -/
def info_GLB_LAS : RegDef := { off := 0x30, reach := .banked, flds := [F.GLB_LAS_LA_RES, F.GLB_LAS_LA_WR, F.GLB_LAS_LA_OFS] }
/-- R305. -/
def info_GLB_LFAIL : RegDef := { off := 0x34, reach := .banked, flds := [F.GLB_LFAIL_LF_RES, F.GLB_LFAIL_LF_WR, F.GLB_LFAIL_LF_OFS] }
/-- R305. -/
def info_GLB_LFAIL_DET : RegDef := { off := 0x38, reach := .banked, flds := [F.GLB_LFAIL_DET_LF_DET] }
/-- R305. -/
def info_GLB_PLOCK : RegDef := { off := 0x40, flds := [F.GLB_PLOCK_PLOCK] }
/-- R305. -/
def info_GLB_PLOCK_CLR : RegDef := { off := 0x44, flds := [F.GLB_PLOCK_CLR_PUNLOCK] }
/-- R305. -/
def info_GLB_REJ_M : RegDef := { off := 0x80, n1 := 18, s1 := 0x4, reach := .domain, flds := [F.GLB_REJ_M_REJ] }
/-- R322. -/
def info_FCR_CTL : RegDef := { off := 0x30000, flds := [F.FCR_CTL_EASY_MS, F.FCR_CTL_LOG_RATE, F.FCR_CTL_CNT_CLR] }
/-- R322. -/
def info_FCR_STAT : RegDef := { off := 0x30004, flds := [F.FCR_STAT_XSTATE, F.FCR_STAT_EASY_LEFT] }
/-- R322. -/
def info_FCR_RECOV : RegDef := { off := 0x30008, flds := [F.FCR_RECOV_RECOVERIES] }
/-- R322. -/
def info_FCR_FF : RegDef := { off := 0x30010, flds := [F.FCR_FF_FF_VALID, F.FCR_FF_FF_SRC, F.FCR_FF_FF_SEV, F.FCR_FF_FF_OVF, F.FCR_FF_FF_MERGE] }
/-- R322. -/
def info_FCR_FF_OVF : RegDef := { off := 0x30014, flds := [F.FCR_FF_OVF_FF_OVF_CNT, F.FCR_FF_OVF_FF_OVF_SRC] }
/-- R322. -/
def info_FCR_FF_TIME_LO : RegDef := { off := 0x30018, flds := [F.FCR_FF_TIME_LO_FF_TLO] }
/-- R322. -/
def info_FCR_FF_TIME_HI : RegDef := { off := 0x3001C, flds := [F.FCR_FF_TIME_HI_FF_THI] }
/-- R322. -/
def info_FCR_FF_SYN : RegDef := { off := 0x30020, n1 := 4, s1 := 0x4, flds := [F.FCR_FF_SYN_FF_SYN] }
/-- R322. -/
def info_FCR_FF_CLR : RegDef := { off := 0x30030, flds := [F.FCR_FF_CLR_FF_CLR] }
/-- R322. -/
def info_FCR_ALERT : RegDef := { off := 0x30040, flds := [F.FCR_ALERT_ALERT, F.FCR_ALERT_FW_ALERT, F.FCR_ALERT_PIN, F.FCR_ALERT_ALERT_SRC, F.FCR_ALERT_ALERT_CNT] }
/-- R322. -/
def info_FCR_LOG : RegDef := { off := 0x30044, flds := [F.FCR_LOG_LOG_HEAD, F.FCR_LOG_LOG_WEAR, F.FCR_LOG_LOG_QUSED] }
/-- R322. -/
def info_FCR_LOG_CNT : RegDef := { off := 0x30048, flds := [F.FCR_LOG_CNT_LOG_DROP, F.FCR_LOG_CNT_SVC_LOST] }
/-- R322. -/
def info_FCR_LOG_SEQ : RegDef := { off := 0x3004C, flds := [F.FCR_LOG_SEQ_RSEQ_NEXT] }
/-- R322. -/
def info_FCR_RAISE : RegDef := { off := 0x30050, flds := [F.FCR_RAISE_RAISE_SRC, F.FCR_RAISE_RAISE_SEV, F.FCR_RAISE_RAISE_GO] }
/-- R322. -/
def info_FCR_RAISE_VAL : RegDef := { off := 0x30054, flds := [F.FCR_RAISE_VAL_RAISE_VAL] }
/-- R322. -/
def info_FCR_DOM : RegDef := { off := 0x30080, n1 := 16, s1 := 0x4, reach := .domain, flds := [F.FCR_DOM_DEVT_EN, F.FCR_DOM_DSEV_MIN, F.FCR_DOM_DQ_USED, F.FCR_DOM_DLOST] }
/-- R322. -/
def info_FCR_SRC : RegDef := { off := 0x30400, n1 := 288, s1 := 0x4, flds := [F.FCR_SRC_DMASK, F.FCR_SRC_EVT_MIN, F.FCR_SRC_ALERT_MIN, F.FCR_SRC_SVC_MIN, F.FCR_SRC_LOG_MIN, F.FCR_SRC_ACT] }
/-- R342. -/
def info_PST_STAT : RegDef := { off := 0x40000, flds := [F.PST_STAT_PORT_BUSY, F.PST_STAT_PORT_OWNER, F.PST_STAT_PQ_USED] }
/-- R342. -/
def info_PST_WEAR_IDX : RegDef := { off := 0x40004, flds := [F.PST_WEAR_IDX_WIDX] }
/-- R342. -/
def info_PST_WEAR : RegDef := { off := 0x40008, flds := [F.PST_WEAR_WCNT, F.PST_WEAR_WWARN, F.PST_WEAR_WLIM] }
/-- R342. -/
def info_PST_WEAR_SUM : RegDef := { off := 0x4000C, flds := [F.PST_WEAR_SUM_NWARN, F.PST_WEAR_SUM_NLIM] }
/-- R342. -/
def info_PST_REC : RegDef := { off := 0x40010, flds := [F.PST_REC_TORN_CNT, F.PST_REC_LOST_CNT] }
/-- R342. -/
def info_PST_LIFE : RegDef := { off := 0x40014, flds := [F.PST_LIFE_LIFE_S] }
/-- R342. -/
def info_PST_BOOTS : RegDef := { off := 0x40018, flds := [F.PST_BOOTS_BOOTS] }
/-- R342. -/
def info_PST_FUSE_STAT : RegDef := { off := 0x40020, flds := [F.PST_FUSE_STAT_POLICY, F.PST_FUSE_STAT_FMARG, F.PST_FUSE_STAT_FSPARE, F.PST_FUSE_STAT_FFAIL] }
/-- R342. -/
def info_PST_FUSE_LOCKS : RegDef := { off := 0x40024, flds := [F.PST_FUSE_LOCKS_FLOCKED, F.PST_FUSE_LOCKS_FCOMPLETE] }
/-- R342. -/
def info_PST_PREG : RegDef := { off := 0x48000, n1 := 512, s1 := 0x4, flds := [F.PST_PREG_PVAL] }
/-- R351. -/
def info_CST_CAL_CTL : RegDef := { off := 0x50000, flds := [F.CST_CAL_CTL_RUN_MASK, F.CST_CAL_CTL_PER_MASK, F.CST_CAL_CTL_CAL_PER, F.CST_CAL_CTL_CAL_GO] }
/-- R351. -/
def info_CST_CAL_STAT : RegDef := { off := 0x50004, flds := [F.CST_CAL_STAT_CAL_BUSY, F.CST_CAL_STAT_CAL_FAILED, F.CST_CAL_STAT_CAL_CAUSE, F.CST_CAL_STAT_RES_MEAS] }
/-- R351. -/
def info_CST_CAL_CNT : RegDef := { off := 0x50008, flds := [F.CST_CAL_CNT_CAL_COUNT] }
/-- R351. -/
def info_CST_CAL_TIME : RegDef := { off := 0x5000C, flds := [F.CST_CAL_TIME_CAL_TIME] }
/-- R351. -/
def info_CST_CAL_MISC : RegDef := { off := 0x50010, flds := [F.CST_CAL_MISC_KTRIM, F.CST_CAL_MISC_FTRIM, F.CST_CAL_MISC_ATRIM] }
/-- R351. -/
def info_CST_CAL_LINK : RegDef := { off := 0x50040, n1 := 16, s1 := 0x4, flds := [F.CST_CAL_LINK_DRV, F.CST_CAL_LINK_TERM] }
/-- R351. -/
def info_CST_CAL_TSV : RegDef := { off := 0x50080, n1 := 32, s1 := 0x4, flds := [F.CST_CAL_TSV_TSTR] }
/-- R351. -/
def info_CST_CAL_TOFS : RegDef := { off := 0x50100, n1 := 50, s1 := 0x4, flds := [F.CST_CAL_TOFS_TOFS] }
/-- R366. -/
def info_CST_BIST_STAT : RegDef := { off := 0x50200, flds := [F.CST_BIST_STAT_BIST_FAIL, F.CST_BIST_STAT_BIST_RERUN, F.CST_BIST_STAT_BIST_BUSY, F.CST_BIST_STAT_STEP_TIME] }
/-- R366. -/
def info_CST_BIST_DET : RegDef := { off := 0x50204, flds := [F.CST_BIST_DET_DET_BLK, F.CST_BIST_DET_DET_ELEM] }
/-- R366. -/
def info_CST_BIST : RegDef := { off := 0x50210, n1 := 5, s1 := 0x4, flds := [F.CST_BIST_COV_SA, F.CST_BIST_COV_TR, F.CST_BIST_DUR] }
/-- R366. -/
def info_CST_BOOT_STAT : RegDef := { off := 0x50240, flds := [F.CST_BOOT_STAT_BOOT_KIND, F.CST_BOOT_STAT_WCAUSE, F.CST_BOOT_STAT_RET_RES] }
/-- R366. -/
def info_CST_BOOT_LOST : RegDef := { off := 0x50244, flds := [F.CST_BOOT_LOST_LOST_CH] }
/-- R366. -/
def info_CST_BOOT_TIME : RegDef := { off := 0x50248, flds := [F.CST_BOOT_TIME_LR_TIME, F.CST_BOOT_TIME_STRETCH] }
/-- R390. -/
def info_PCK_CTL : RegDef := { off := 0x10000, flds := [F.PCK_CTL_IDLE_EN, F.PCK_CTL_IDLE_DLY, F.PCK_CTL_PWAKE_SEV, F.PCK_CTL_DROOP_EN, F.PCK_CTL_CNT_CLR] }
/-- R390. -/
def info_PCK_MODE : RegDef := { off := 0x10004, flds := [F.PCK_MODE_MODE] }
/-- R390. -/
def info_PCK_STAT : RegDef := { off := 0x10008, flds := [F.PCK_STAT_PSTATE, F.PCK_STAT_PF_WIN, F.PCK_STAT_MAIN_OK, F.PCK_STAT_VBKP_OK, F.PCK_STAT_KEEL_MODE, F.PCK_STAT_WAKE_SRC, F.PCK_STAT_RET_AVAIL] }
/-- R390. -/
def info_PCK_CLK : RegDef := { off := 0x1000C, flds := [F.PCK_CLK_MCK_SEL, F.PCK_CLK_MCK_LOCK, F.PCK_CLK_FAB_SRC, F.PCK_CLK_DCK_SRC, F.PCK_CLK_STBY_LOCK] }
/-- R390. -/
def info_PCK_VOTES : RegDef := { off := 0x10010, flds := [F.PCK_VOTES_VOTES] }
/-- R390. -/
def info_PCK_VOTE : RegDef := { off := 0x10040, n1 := 16, s1 := 0x4, reach := .domain, flds := [F.PCK_VOTE_NOSLEEP] }
/-- R390. -/
def info_PCK_REFUSE : RegDef := { off := 0x10014, flds := [F.PCK_REFUSE_REFUSALS] }
/-- R390. -/
def info_PCK_REFCNT : RegDef := { off := 0x10080, lo1 := 1, n1 := 8, s1 := 0x4, flds := [F.PCK_REFCNT_REF_N, F.PCK_REFCNT_ABORT_N] }
/-- R390. -/
def info_PCK_RLOG_IDX : RegDef := { off := 0x10018, flds := [F.PCK_RLOG_IDX_RL_IDX] }
/-- R390. -/
def info_PCK_RLOG0 : RegDef := { off := 0x1001C, flds := [F.PCK_RLOG0_RL_CODE, F.PCK_RLOG0_RL_STATE, F.PCK_RLOG0_RL_DOM, F.PCK_RLOG0_RL_ABORT] }
/-- R390. -/
def info_PCK_RLOG1 : RegDef := { off := 0x10020, flds := [F.PCK_RLOG1_RL_TIME] }
/-- R390. -/
def info_PCK_PF : RegDef := { off := 0x10024, flds := [F.PCK_PF_PF_CNT, F.PCK_PF_PF_US, F.PCK_PF_PF_CAUSE, F.PCK_PF_PF_LATE] }
/-- R390. -/
def info_PCK_KEEL : RegDef := { off := 0x10028, flds := [F.PCK_KEEL_KEEL_CAUSE, F.PCK_KEEL_RET_MA, F.PCK_KEEL_BO_LATCH] }
/-- R404. -/
def info_THM_CTL : RegDef := { off := 0x20000, flds := [F.THM_CTL_SLOPE, F.THM_CTL_CAP, F.THM_CTL_FALL, F.THM_CTL_CNT_CLR] }
/-- R404. -/
def info_THM_THR : RegDef := { off := 0x20004, flds := [F.THM_THR_THR_J, F.THM_THR_THR_C, F.THM_THR_THR_D] }
/-- R404. -/
def info_THM_STAT : RegDef := { off := 0x20008, flds := [F.THM_STAT_THETA, F.THM_STAT_HOT_SENS, F.THM_STAT_EXCESS, F.THM_STAT_TS_ACT] }
/-- R404. -/
def info_THM_COOL : RegDef := { off := 0x2000C, flds := [F.THM_COOL_INLET_MAX, F.THM_COOL_RISE_MAX] }
/-- R404. -/
def info_THM_SENS_IDX : RegDef := { off := 0x20010, flds := [F.THM_SENS_IDX_SIDX] }
/-- R404. -/
def info_THM_SENS : RegDef := { off := 0x20014, flds := [F.THM_SENS_TEMP, F.THM_SENS_VALID, F.THM_SENS_TMAX] }
/-- R404. -/
def info_THM_TRIP : RegDef := { off := 0x20018, flds := [F.THM_TRIP_TS_KIND, F.THM_TRIP_TS_SENS, F.THM_TRIP_TS_TEMP, F.THM_TRIP_TS_DS, F.THM_TRIP_TS_NEW] }
/-- R404. -/
def info_THM_CNT : RegDef := { off := 0x2001C, flds := [F.THM_CNT_THR_MS] }
/-- R404. -/
def info_THM_COOL_STAT : RegDef := { off := 0x20020, flds := [F.THM_COOL_STAT_INLET, F.THM_COOL_STAT_RISE] }
/-- R442. -/
def info_SVC_CTL : RegDef := { off := 0x70000, flds := [F.SVC_CTL_SVC_EN, F.SVC_CTL_GEN2_ONLY, F.SVC_CTL_CL1_EN, F.SVC_CTL_DEAUTH] }
/-- R442. -/
def info_SVC_STAT : RegDef := { off := 0x70004, flds := [F.SVC_STAT_SLSTATE, F.SVC_STAT_SGEN, F.SVC_STAT_USB_CFG, F.SVC_STAT_MEM_RDY, F.SVC_STAT_AUTH_LOCK] }
/-- R442. -/
def info_SVC_AUTH_STAT : RegDef := { off := 0x70008, flds := [F.SVC_AUTH_STAT_AUTH_FAILS, F.SVC_AUTH_STAT_AUTH_OKS, F.SVC_AUTH_STAT_KEY_SRC] }
/-- R442. -/
def info_SVC_USB_ID : RegDef := { off := 0x7000C, flds := [F.SVC_USB_ID_VID, F.SVC_USB_ID_PID] }
/-- R442. -/
def info_SVC_DRN_ADDR_LO : RegDef := { off := 0x70010, flds := [F.SVC_DRN_ADDR_LO_DRN_ALO] }
/-- R442. -/
def info_SVC_DRN_ADDR_HI : RegDef := { off := 0x70014, flds := [F.SVC_DRN_ADDR_HI_DRN_AHI] }
/-- R442. -/
def info_SVC_DRN_LEN : RegDef := { off := 0x70018, flds := [F.SVC_DRN_LEN_DRN_LEN] }
/-- R442. -/
def info_SVC_DRN_CTL : RegDef := { off := 0x7001C, flds := [F.SVC_DRN_CTL_DRN_OP, F.SVC_DRN_CTL_DRN_GO, F.SVC_DRN_CTL_DRN_ABORT] }
/-- R442. -/
def info_SVC_DRN_STAT : RegDef := { off := 0x70020, flds := [F.SVC_DRN_STAT_DRN_BUSY, F.SVC_DRN_STAT_DRN_RES, F.SVC_DRN_STAT_DRN_WORST] }
/-- R442. -/
def info_SVC_DRN_DONE : RegDef := { off := 0x70024, flds := [F.SVC_DRN_DONE_DRN_DONE] }
/-- R442. -/
def info_SVC_CNT : RegDef := { off := 0x70028, flds := [F.SVC_CNT_FRAMES, F.SVC_CNT_FRAME_ERRS] }
/-- R284. -/
def info_MBXS_STAT : RegDef := { off := 0x67800, flds := [F.MBXS_STAT_MSTATE, F.MBXS_STAT_EXP_SEQ] }
/-- R284. -/
def info_MBXS_DB : RegDef := { off := 0x67804, flds := [F.MBXS_DB_DB_SEQ] }
/-- R284. -/
def info_MBXS_PTR : RegDef := { off := 0x67808, flds := [F.MBXS_PTR_MOFS, F.MBXS_PTR_MBUF] }
/-- R284. -/
def info_MBXS_DATA : RegDef := { off := 0x6780C, flds := [F.MBXS_DATA_MDATA] }
/-- R284. -/
def info_MBXS_CNT : RegDef := { off := 0x67810, flds := [F.MBXS_CNT_CMDS, F.MBXS_CNT_DB_IGN] }

/-- The layout of a register. -/
def RegId.info : RegId → RegDef
  | .HLP_CTL => info_HLP_CTL
  | .HLP_STAT => info_HLP_STAT
  | .HLP_EQ => info_HLP_EQ
  | .HLP_PAT_USER => info_HLP_PAT_USER
  | .HLP_INJ => info_HLP_INJ
  | .HLP_RETRAIN_CNT => info_HLP_RETRAIN_CNT
  | .HLP_LN_CTL => info_HLP_LN_CTL
  | .HLP_LN_ERR => info_HLP_LN_ERR
  | .HLL_CTL => info_HLL_CTL
  | .HLL_TURN => info_HLL_TURN
  | .HLL_SPLIT => info_HLL_SPLIT
  | .HLL_LINK => info_HLL_LINK
  | .HLL_CRD => info_HLL_CRD
  | .HLL_PCFG => info_HLL_PCFG
  | .HLL_FEC => info_HLL_FEC
  | .HLL_FLIT => info_HLL_FLIT
  | .HLL_EVT => info_HLL_EVT
  | .HLL_SEQ => info_HLL_SEQ
  | .RQE_CTL => info_RQE_CTL
  | .RQE_HASH_MASK => info_RQE_HASH_MASK
  | .RQE_STAT => info_RQE_STAT
  | .RQE_STAT2 => info_RQE_STAT2
  | .RQE_FWD => info_RQE_FWD
  | .RQE_HAZ => info_RQE_HAZ
  | .RQE_DUP => info_RQE_DUP
  | .RQE_DOM_CTL => info_RQE_DOM_CTL
  | .RQE_DOM_USE => info_RQE_DOM_USE
  | .RQE_DOM_REJ => info_RQE_DOM_REJ
  | .RQE_RGN_A => info_RQE_RGN_A
  | .RQE_RGN_B => info_RQE_RGN_B
  | .REG_CTL => info_REG_CTL
  | .REG_S => info_REG_S
  | .REG_S_IN => info_REG_S_IN
  | .REG_RT_SUM => info_REG_RT_SUM
  | .REG_LT_SUM => info_REG_LT_SUM
  | .REG_CTX_IDX => info_REG_CTX_IDX
  | .REG_CTX_CMD => info_REG_CTX_CMD
  | .REG_CTX_D0 => info_REG_CTX_D0
  | .REG_CTX_D1 => info_REG_CTX_D1
  | .REG_CTX_D2 => info_REG_CTX_D2
  | .REG_CTX_D3 => info_REG_CTX_D3
  | .REG_CNT_IDX => info_REG_CNT_IDX
  | .REG_CNT_LO => info_REG_CNT_LO
  | .REG_CNT_HI => info_REG_CNT_HI
  | .REG_WSEL_IDX => info_REG_WSEL_IDX
  | .REG_WSEL => info_REG_WSEL
  | .REG_CLASS => info_REG_CLASS
  | .REG_CLASS2 => info_REG_CLASS2
  | .REG_REFS => info_REG_REFS
  | .REG_BOW => info_REG_BOW
  | .REG_BOW_EN => info_REG_BOW_EN
  | .REG_RSV_A => info_REG_RSV_A
  | .REG_RSV_B => info_REG_RSV_B
  | .REG_RSV_C => info_REG_RSV_C
  | .SCC_CTL => info_SCC_CTL
  | .SCC_STAT => info_SCC_STAT
  | .SCC_OCC => info_SCC_OCC
  | .SCC_OPS_CMD => info_SCC_OPS_CMD
  | .SCC_OPS_STAT => info_SCC_OPS_STAT
  | .SCC_POL => info_SCC_POL
  | .SCC_WAYS => info_SCC_WAYS
  | .SCC_XING => info_SCC_XING
  | .SCC_XING_STAT => info_SCC_XING_STAT
  | .SCC_FAULT => info_SCC_FAULT
  | .SCC_DOM_WAYS => info_SCC_DOM_WAYS
  | .SCC_RD_HIT => info_SCC_RD_HIT
  | .SCC_RD_MISS => info_SCC_RD_MISS
  | .SCC_WR_HIT => info_SCC_WR_HIT
  | .SCC_WR_MISS => info_SCC_WR_MISS
  | .SCC_WB => info_SCC_WB
  | .SCC_ALLOC_FAIL => info_SCC_ALLOC_FAIL
  | .DMC_CTL => info_DMC_CTL
  | .DMC_WM => info_DMC_WM
  | .DMC_WQ => info_DMC_WQ
  | .DMC_HANG => info_DMC_HANG
  | .DMC_STAT => info_DMC_STAT
  | .DMC_HANG_STAT => info_DMC_HANG_STAT
  | .DMC_TRAIN_CTL => info_DMC_TRAIN_CTL
  | .DMC_TRAIN_STAT => info_DMC_TRAIN_STAT
  | .DMC_RD_SECT => info_DMC_RD_SECT
  | .DMC_WR_SECT => info_DMC_WR_SECT
  | .DMC_ACT_CNT => info_DMC_ACT_CNT
  | .DMC_HIT_CNT => info_DMC_HIT_CNT
  | .DMC_EMPTY_CNT => info_DMC_EMPTY_CNT
  | .DMC_CONF_CNT => info_DMC_CONF_CNT
  | .DMC_DRAIN_CNT => info_DMC_DRAIN_CNT
  | .DMC_WSUP_CNT => info_DMC_WSUP_CNT
  | .DMC_RANK_STAT => info_DMC_RANK_STAT
  | .DMC_RANK_DLY => info_DMC_RANK_DLY
  | .DMC_RANK_VREF => info_DMC_RANK_VREF
  | .DMC_RANK_PD => info_DMC_RANK_PD
  | .DMC_BANK => info_DMC_BANK
  | .RFM_CTL => info_RFM_CTL
  | .RFM_BKLG => info_RFM_BKLG
  | .RFM_DBL => info_RFM_DBL
  | .RFM_DIE => info_RFM_DIE
  | .RFM_VQ => info_RFM_VQ
  | .RFM_XING => info_RFM_XING
  | .RFM_VREF => info_RFM_VREF
  | .RFM_REF => info_RFM_REF
  | .DIP_CTL => info_DIP_CTL
  | .DIP_THR => info_DIP_THR
  | .DIP_INJ => info_DIP_INJ
  | .DIP_SCRUB_STAT => info_DIP_SCRUB_STAT
  | .DIP_SCRUB_FIX => info_DIP_SCRUB_FIX
  | .DIP_ARR => info_DIP_ARR
  | .DIP_LOG_STAT => info_DIP_LOG_STAT
  | .DIP_LOG_POP => info_DIP_LOG_POP
  | .DIP_LOG_W => info_DIP_LOG_W
  | .DIP_CE => info_DIP_CE
  | .DIP_UE => info_DIP_UE
  | .DIP_SCRUB => info_DIP_SCRUB
  | .DIP_POS => info_DIP_POS
  | .TSV_CTL => info_TSV_CTL
  | .TSV_STAT => info_TSV_STAT
  | .TSV_DEAD => info_TSV_DEAD
  | .TSV_PHY_DEAD0 => info_TSV_PHY_DEAD0
  | .TSV_PHY_DEAD1 => info_TSV_PHY_DEAD1
  | .TSV_PHY_DEAD2 => info_TSV_PHY_DEAD2
  | .TSV_MAP_IDX => info_TSV_MAP_IDX
  | .TSV_MAP => info_TSV_MAP
  | .TSV_CAL_CNT => info_TSV_CAL_CNT
  | .TSV_CA => info_TSV_CA
  | .TSV_DROP => info_TSV_DROP
  | .TSV_RPR_CTL => info_TSV_RPR_CTL
  | .TSV_RPR_STAT => info_TSV_RPR_STAT
  | .TSV_FOLD_CTL => info_TSV_FOLD_CTL
  | .TSV_FOLD_STAT => info_TSV_FOLD_STAT
  | .TSV_FOLD_PTR => info_TSV_FOLD_PTR
  | .TSV_RMAP_IDX => info_TSV_RMAP_IDX
  | .TSV_RMAP => info_TSV_RMAP
  | .MGT_CTL => info_MGT_CTL
  | .MGT_STAT => info_MGT_STAT
  | .MGT_BOOT => info_MGT_BOOT
  | .MGT_TAKE => info_MGT_TAKE
  | .MGT_HEART => info_MGT_HEART
  | .MGT_FWVER_A => info_MGT_FWVER_A
  | .MGT_FWVER_B => info_MGT_FWVER_B
  | .MGT_SVN => info_MGT_SVN
  | .MGT_QUIESCE => info_MGT_QUIESCE
  | .MGT_LEASE => info_MGT_LEASE
  | .MBX_STAT => info_MBX_STAT
  | .MBX_DB => info_MBX_DB
  | .MBX_PTR => info_MBX_PTR
  | .MBX_DATA => info_MBX_DATA
  | .MBX_CNT => info_MBX_CNT
  | .GLB_ID => info_GLB_ID
  | .GLB_STAT => info_GLB_STAT
  | .GLB_CTL => info_GLB_CTL
  | .GLB_SERIAL => info_GLB_SERIAL
  | .GLB_UPTIME_LO => info_GLB_UPTIME_LO
  | .GLB_UPTIME_HI => info_GLB_UPTIME_HI
  | .GLB_SCRATCH_LO => info_GLB_SCRATCH_LO
  | .GLB_SCRATCH_HI => info_GLB_SCRATCH_HI
  | .GLB_LAS => info_GLB_LAS
  | .GLB_LFAIL => info_GLB_LFAIL
  | .GLB_LFAIL_DET => info_GLB_LFAIL_DET
  | .GLB_PLOCK => info_GLB_PLOCK
  | .GLB_PLOCK_CLR => info_GLB_PLOCK_CLR
  | .GLB_REJ_M => info_GLB_REJ_M
  | .FCR_CTL => info_FCR_CTL
  | .FCR_STAT => info_FCR_STAT
  | .FCR_RECOV => info_FCR_RECOV
  | .FCR_FF => info_FCR_FF
  | .FCR_FF_OVF => info_FCR_FF_OVF
  | .FCR_FF_TIME_LO => info_FCR_FF_TIME_LO
  | .FCR_FF_TIME_HI => info_FCR_FF_TIME_HI
  | .FCR_FF_SYN => info_FCR_FF_SYN
  | .FCR_FF_CLR => info_FCR_FF_CLR
  | .FCR_ALERT => info_FCR_ALERT
  | .FCR_LOG => info_FCR_LOG
  | .FCR_LOG_CNT => info_FCR_LOG_CNT
  | .FCR_LOG_SEQ => info_FCR_LOG_SEQ
  | .FCR_RAISE => info_FCR_RAISE
  | .FCR_RAISE_VAL => info_FCR_RAISE_VAL
  | .FCR_DOM => info_FCR_DOM
  | .FCR_SRC => info_FCR_SRC
  | .PST_STAT => info_PST_STAT
  | .PST_WEAR_IDX => info_PST_WEAR_IDX
  | .PST_WEAR => info_PST_WEAR
  | .PST_WEAR_SUM => info_PST_WEAR_SUM
  | .PST_REC => info_PST_REC
  | .PST_LIFE => info_PST_LIFE
  | .PST_BOOTS => info_PST_BOOTS
  | .PST_FUSE_STAT => info_PST_FUSE_STAT
  | .PST_FUSE_LOCKS => info_PST_FUSE_LOCKS
  | .PST_PREG => info_PST_PREG
  | .CST_CAL_CTL => info_CST_CAL_CTL
  | .CST_CAL_STAT => info_CST_CAL_STAT
  | .CST_CAL_CNT => info_CST_CAL_CNT
  | .CST_CAL_TIME => info_CST_CAL_TIME
  | .CST_CAL_MISC => info_CST_CAL_MISC
  | .CST_CAL_LINK => info_CST_CAL_LINK
  | .CST_CAL_TSV => info_CST_CAL_TSV
  | .CST_CAL_TOFS => info_CST_CAL_TOFS
  | .CST_BIST_STAT => info_CST_BIST_STAT
  | .CST_BIST_DET => info_CST_BIST_DET
  | .CST_BIST => info_CST_BIST
  | .CST_BOOT_STAT => info_CST_BOOT_STAT
  | .CST_BOOT_LOST => info_CST_BOOT_LOST
  | .CST_BOOT_TIME => info_CST_BOOT_TIME
  | .PCK_CTL => info_PCK_CTL
  | .PCK_MODE => info_PCK_MODE
  | .PCK_STAT => info_PCK_STAT
  | .PCK_CLK => info_PCK_CLK
  | .PCK_VOTES => info_PCK_VOTES
  | .PCK_VOTE => info_PCK_VOTE
  | .PCK_REFUSE => info_PCK_REFUSE
  | .PCK_REFCNT => info_PCK_REFCNT
  | .PCK_RLOG_IDX => info_PCK_RLOG_IDX
  | .PCK_RLOG0 => info_PCK_RLOG0
  | .PCK_RLOG1 => info_PCK_RLOG1
  | .PCK_PF => info_PCK_PF
  | .PCK_KEEL => info_PCK_KEEL
  | .THM_CTL => info_THM_CTL
  | .THM_THR => info_THM_THR
  | .THM_STAT => info_THM_STAT
  | .THM_COOL => info_THM_COOL
  | .THM_SENS_IDX => info_THM_SENS_IDX
  | .THM_SENS => info_THM_SENS
  | .THM_TRIP => info_THM_TRIP
  | .THM_CNT => info_THM_CNT
  | .THM_COOL_STAT => info_THM_COOL_STAT
  | .SVC_CTL => info_SVC_CTL
  | .SVC_STAT => info_SVC_STAT
  | .SVC_AUTH_STAT => info_SVC_AUTH_STAT
  | .SVC_USB_ID => info_SVC_USB_ID
  | .SVC_DRN_ADDR_LO => info_SVC_DRN_ADDR_LO
  | .SVC_DRN_ADDR_HI => info_SVC_DRN_ADDR_HI
  | .SVC_DRN_LEN => info_SVC_DRN_LEN
  | .SVC_DRN_CTL => info_SVC_DRN_CTL
  | .SVC_DRN_STAT => info_SVC_DRN_STAT
  | .SVC_DRN_DONE => info_SVC_DRN_DONE
  | .SVC_CNT => info_SVC_CNT
  | .MBXS_STAT => info_MBXS_STAT
  | .MBXS_DB => info_MBXS_DB
  | .MBXS_PTR => info_MBXS_PTR
  | .MBXS_DATA => info_MBXS_DATA
  | .MBXS_CNT => info_MBXS_CNT

/-- The registers of block HLP. -/
def regsHlp : List RegId :=
  [RegId.HLP_CTL, RegId.HLP_STAT, RegId.HLP_EQ, RegId.HLP_PAT_USER, RegId.HLP_INJ, RegId.HLP_RETRAIN_CNT, RegId.HLP_LN_CTL, RegId.HLP_LN_ERR]

/-- The registers of block HLL. -/
def regsHll : List RegId :=
  [RegId.HLL_CTL, RegId.HLL_TURN, RegId.HLL_SPLIT, RegId.HLL_LINK, RegId.HLL_CRD, RegId.HLL_PCFG, RegId.HLL_FEC, RegId.HLL_FLIT,
   RegId.HLL_EVT, RegId.HLL_SEQ]

/-- The registers of block RQE. -/
def regsRqe : List RegId :=
  [RegId.RQE_CTL, RegId.RQE_HASH_MASK, RegId.RQE_STAT, RegId.RQE_STAT2, RegId.RQE_FWD, RegId.RQE_HAZ, RegId.RQE_DUP, RegId.RQE_DOM_CTL,
   RegId.RQE_DOM_USE, RegId.RQE_DOM_REJ, RegId.RQE_RGN_A, RegId.RQE_RGN_B]

/-- The registers of block REG. -/
def regsReg : List RegId :=
  [RegId.REG_CTL, RegId.REG_S, RegId.REG_S_IN, RegId.REG_RT_SUM, RegId.REG_LT_SUM, RegId.REG_CTX_IDX, RegId.REG_CTX_CMD, RegId.REG_CTX_D0,
   RegId.REG_CTX_D1, RegId.REG_CTX_D2, RegId.REG_CTX_D3, RegId.REG_CNT_IDX, RegId.REG_CNT_LO, RegId.REG_CNT_HI, RegId.REG_WSEL_IDX, RegId.REG_WSEL,
   RegId.REG_CLASS, RegId.REG_CLASS2, RegId.REG_REFS, RegId.REG_BOW, RegId.REG_BOW_EN, RegId.REG_RSV_A, RegId.REG_RSV_B, RegId.REG_RSV_C]

/-- The registers of block SCC. -/
def regsScc : List RegId :=
  [RegId.SCC_CTL, RegId.SCC_STAT, RegId.SCC_OCC, RegId.SCC_OPS_CMD, RegId.SCC_OPS_STAT, RegId.SCC_POL, RegId.SCC_WAYS, RegId.SCC_XING,
   RegId.SCC_XING_STAT, RegId.SCC_FAULT, RegId.SCC_DOM_WAYS, RegId.SCC_RD_HIT, RegId.SCC_RD_MISS, RegId.SCC_WR_HIT, RegId.SCC_WR_MISS, RegId.SCC_WB,
   RegId.SCC_ALLOC_FAIL]

/-- The registers of block DMC. -/
def regsDmc : List RegId :=
  [RegId.DMC_CTL, RegId.DMC_WM, RegId.DMC_WQ, RegId.DMC_HANG, RegId.DMC_STAT, RegId.DMC_HANG_STAT, RegId.DMC_TRAIN_CTL, RegId.DMC_TRAIN_STAT,
   RegId.DMC_RD_SECT, RegId.DMC_WR_SECT, RegId.DMC_ACT_CNT, RegId.DMC_HIT_CNT, RegId.DMC_EMPTY_CNT, RegId.DMC_CONF_CNT, RegId.DMC_DRAIN_CNT, RegId.DMC_WSUP_CNT,
   RegId.DMC_RANK_STAT, RegId.DMC_RANK_DLY, RegId.DMC_RANK_VREF, RegId.DMC_RANK_PD, RegId.DMC_BANK]

/-- The registers of block RFM. -/
def regsRfm : List RegId :=
  [RegId.RFM_CTL, RegId.RFM_BKLG, RegId.RFM_DBL, RegId.RFM_DIE, RegId.RFM_VQ, RegId.RFM_XING, RegId.RFM_VREF, RegId.RFM_REF]

/-- The registers of block DIP. -/
def regsDip : List RegId :=
  [RegId.DIP_CTL, RegId.DIP_THR, RegId.DIP_INJ, RegId.DIP_SCRUB_STAT, RegId.DIP_SCRUB_FIX, RegId.DIP_ARR, RegId.DIP_LOG_STAT, RegId.DIP_LOG_POP,
   RegId.DIP_LOG_W, RegId.DIP_CE, RegId.DIP_UE, RegId.DIP_SCRUB, RegId.DIP_POS]

/-- The registers of block TSV. -/
def regsTsv : List RegId :=
  [RegId.TSV_CTL, RegId.TSV_STAT, RegId.TSV_DEAD, RegId.TSV_PHY_DEAD0, RegId.TSV_PHY_DEAD1, RegId.TSV_PHY_DEAD2, RegId.TSV_MAP_IDX, RegId.TSV_MAP,
   RegId.TSV_CAL_CNT, RegId.TSV_CA, RegId.TSV_DROP, RegId.TSV_RPR_CTL, RegId.TSV_RPR_STAT, RegId.TSV_FOLD_CTL, RegId.TSV_FOLD_STAT, RegId.TSV_FOLD_PTR,
   RegId.TSV_RMAP_IDX, RegId.TSV_RMAP]

/-- The registers of block MGT. -/
def regsMgt : List RegId :=
  [RegId.MGT_CTL, RegId.MGT_STAT, RegId.MGT_BOOT, RegId.MGT_TAKE, RegId.MGT_HEART, RegId.MGT_FWVER_A, RegId.MGT_FWVER_B, RegId.MGT_SVN,
   RegId.MGT_QUIESCE, RegId.MGT_LEASE]

/-- The registers of block MBX. -/
def regsMbx : List RegId :=
  [RegId.MBX_STAT, RegId.MBX_DB, RegId.MBX_PTR, RegId.MBX_DATA, RegId.MBX_CNT]

/-- The registers of block GLB. -/
def regsGlb : List RegId :=
  [RegId.GLB_ID, RegId.GLB_STAT, RegId.GLB_CTL, RegId.GLB_SERIAL, RegId.GLB_UPTIME_LO, RegId.GLB_UPTIME_HI, RegId.GLB_SCRATCH_LO, RegId.GLB_SCRATCH_HI,
   RegId.GLB_LAS, RegId.GLB_LFAIL, RegId.GLB_LFAIL_DET, RegId.GLB_PLOCK, RegId.GLB_PLOCK_CLR, RegId.GLB_REJ_M]

/-- The registers of block FCR. -/
def regsFcr : List RegId :=
  [RegId.FCR_CTL, RegId.FCR_STAT, RegId.FCR_RECOV, RegId.FCR_FF, RegId.FCR_FF_OVF, RegId.FCR_FF_TIME_LO, RegId.FCR_FF_TIME_HI, RegId.FCR_FF_SYN,
   RegId.FCR_FF_CLR, RegId.FCR_ALERT, RegId.FCR_LOG, RegId.FCR_LOG_CNT, RegId.FCR_LOG_SEQ, RegId.FCR_RAISE, RegId.FCR_RAISE_VAL, RegId.FCR_DOM,
   RegId.FCR_SRC]

/-- The registers of block PST. -/
def regsPst : List RegId :=
  [RegId.PST_STAT, RegId.PST_WEAR_IDX, RegId.PST_WEAR, RegId.PST_WEAR_SUM, RegId.PST_REC, RegId.PST_LIFE, RegId.PST_BOOTS, RegId.PST_FUSE_STAT,
   RegId.PST_FUSE_LOCKS, RegId.PST_PREG]

/-- The registers of block CST. -/
def regsCst : List RegId :=
  [RegId.CST_CAL_CTL, RegId.CST_CAL_STAT, RegId.CST_CAL_CNT, RegId.CST_CAL_TIME, RegId.CST_CAL_MISC, RegId.CST_CAL_LINK, RegId.CST_CAL_TSV, RegId.CST_CAL_TOFS,
   RegId.CST_BIST_STAT, RegId.CST_BIST_DET, RegId.CST_BIST, RegId.CST_BOOT_STAT, RegId.CST_BOOT_LOST, RegId.CST_BOOT_TIME]

/-- The registers of block PCK. -/
def regsPck : List RegId :=
  [RegId.PCK_CTL, RegId.PCK_MODE, RegId.PCK_STAT, RegId.PCK_CLK, RegId.PCK_VOTES, RegId.PCK_VOTE, RegId.PCK_REFUSE, RegId.PCK_REFCNT,
   RegId.PCK_RLOG_IDX, RegId.PCK_RLOG0, RegId.PCK_RLOG1, RegId.PCK_PF, RegId.PCK_KEEL]

/-- The registers of block THM. -/
def regsThm : List RegId :=
  [RegId.THM_CTL, RegId.THM_THR, RegId.THM_STAT, RegId.THM_COOL, RegId.THM_SENS_IDX, RegId.THM_SENS, RegId.THM_TRIP, RegId.THM_CNT,
   RegId.THM_COOL_STAT]

/-- The registers of block SVC. -/
def regsSvc : List RegId :=
  [RegId.SVC_CTL, RegId.SVC_STAT, RegId.SVC_AUTH_STAT, RegId.SVC_USB_ID, RegId.SVC_DRN_ADDR_LO, RegId.SVC_DRN_ADDR_HI, RegId.SVC_DRN_LEN, RegId.SVC_DRN_CTL,
   RegId.SVC_DRN_STAT, RegId.SVC_DRN_DONE, RegId.SVC_CNT]

/-- The registers of block MBXS. -/
def regsMbxs : List RegId :=
  [RegId.MBXS_STAT, RegId.MBXS_DB, RegId.MBXS_PTR, RegId.MBXS_DATA, RegId.MBXS_CNT]

/-- The registers that can lie in a 64 KiB page of the register space (Table 13.4). -/
def regsOfPage (p : Nat) : List RegId :=
  match p with
  | 0 => regsGlb
  | 1 => regsPck
  | 2 => regsThm
  | 3 => regsFcr
  | 4 => regsPst
  | 5 => regsCst
  | 6 => regsMgt ++ regsMbx ++ regsMbxs
  | 7 => regsSvc
  | 8 => regsHlp
  | 9 => regsHll
  | 10 => regsRqe
  | 11 => regsReg
  | 12 => regsDip
  | 13 => regsRfm
  | 14 => regsTsv
  | 15 => regsTsv
  | 16 => regsScc
  | 17 => regsScc
  | 32 => regsDmc
  | 33 => regsDmc
  | 34 => regsDmc
  | 35 => regsDmc
  | _ => []

/-- Every register. -/
def allRegs : List RegId :=
  regsHlp ++ regsHll ++ regsRqe ++ regsReg ++ regsScc ++ regsDmc ++ regsRfm ++ regsDip ++ regsTsv ++ regsMgt ++ regsMbx ++ regsGlb ++ regsFcr ++ regsPst ++ regsCst ++ regsPck ++ regsThm ++ regsSvc ++ regsMbxs

end Sys2Proof.Machine
end

