-- ==== Sys2Proof/Machine/Answer.lean ====
section
/-! DEFINITION. How a register access ends: the Last Access Status (R295), the answer on its path (R102, R432), and which fields a reset keeps (R6, R368). -/

namespace Sys2Proof.Machine

/-- The offset of an instance of a register. -/
def regOffset (r : RegId) (i j : Nat) : Nat := r.info.off + r.info.s1 * (if r.info.reach = .banked then 0 else i) + r.info.s2 * j

/-- R295: the access sets GLB_LAS; a result other than OK also sets GLB_LFAIL and its detail and counts. -/
def recordAcc (s : State) (who : Nat) (wr : Bool) (off : Nat) (c : Code) (detail : Nat) : State :=
  let s := ((s.wr F.GLB_LAS_LA_RES c.num who).wr F.GLB_LAS_LA_WR (b2n wr) who).wr F.GLB_LAS_LA_OFS (off / 4) who
  if c = .ok then s else
  let s := ((s.wr F.GLB_LFAIL_LF_RES c.num who).wr F.GLB_LFAIL_LF_WR (b2n wr) who).wr F.GLB_LFAIL_LF_OFS (off / 4) who
  (s.wr F.GLB_LFAIL_DET_LF_DET detail who).inc F.GLB_REJ_M_REJ 1 who

/-- One word of a mailbox command's persistent writes has ended. -/
def wordDone (s : State) (m : Nat) (c : Code) : State :=
  s.modMbx m fun x => match x.await with
    | .words n lim p => { x with await := .words (n - 1) (lim || c != .ok) p }
    | _ => x

/-- The answer of an access, on the path it came by: RCPL or WCPL (R102), a response frame (R432), nothing for a core, or the count of a mailbox
command. A packet's answer that finds no link is discarded (R134). -/
def answerAcc (s : State) (org : Origin) (wr : Bool) (c : Code) (v : Nat) : State :=
  match org with
  | .packet d t => if s.link.up then sendVc2 (releaseVc2 s d 1) (if wr then wcplBytes d t c else rcplBytes d t c v) else s
  | .svc tag => sendFrame s (svcFrame (if wr then 0x83 else 0x82) tag (leBytes 4 c.num ++ (if wr then [] else leBytes 4 v)))
  | .core => s
  | .mailbox m => wordDone s m c

/-- A persistent write ends without being made: WEAR_LIMIT (R301) or LOST (R324). -/
def refusePreg (s : State) (w : MWord) (c : Code) : State :=
  match w.act with
  | .preg who org r i j _ => answerAcc (recordAcc s who true (regOffset r i j) c 0) org true c 0
  | _ => s

/-! ## What a reset keeps -/

/-- An instance of `f` lies `d` bits above its first instance. -/
def strideHit (f : Fld) (def' : RegDef) (d : Nat) : Bool :=
  if def'.reach = .banked then d == 0 else
  let i := if f.s1 = 0 then 0 else d / f.s1
  let rest := if f.s1 = 0 then d else d % f.s1
  let j := if f.s2 = 0 then 0 else rest / f.s2
  decide (def'.lo1 ≤ i) && decide (i < def'.n1) && decide (j < def'.n2) && f.s1 * i + f.s2 * j == d

/-- The field that a place of the register store belongs to. -/
def fieldAt (k : Nat) : Option Fld :=
  let k := k % 2 ^ 28
  (regsOfPage (k / 524288)).findSome? fun r => r.info.flds.find? fun f => decide (f.key ≤ k) && strideHit f r.info (k - f.key)

/-- Fields of hardware state that a warm reset leaves as it is, beside those the tables mark as kept: they describe dies, lanes, latches and supplies
that the reset does not touch (R361, R362, R399). -/
def heldFields : List Fld :=
  [F.SCC_STAT_SSTATE, F.SCC_XING_CLK_DLY, F.SCC_XING_RD_DLY, F.SCC_XING_WR_DLY, F.SCC_XING_STAT_MARGIN, F.DMC_STAT_CSTATE, F.DMC_RANK_STAT_PSTATE,
   F.TSV_STAT_SHADOW_PHY, F.TSV_STAT_CAL_PHY, F.TSV_STAT_STALL_CAL, F.DIP_SCRUB_STAT_SCRUB_PAUSED, F.CST_CAL_STAT_RES_MEAS,
   F.PCK_STAT_MAIN_OK, F.PCK_STAT_VBKP_OK, F.PCK_STAT_KEEL_MODE, F.PCK_STAT_RET_AVAIL, F.PCK_KEEL_BO_LATCH, F.PCK_CLK_FAB_SRC, F.PCK_CLK_DCK_SRC,
   F.PCK_CLK_STBY_LOCK, F.THM_TRIP_TS_KIND, F.THM_TRIP_TS_SENS, F.THM_TRIP_TS_TEMP, F.THM_TRIP_TS_DS, F.THM_TRIP_TS_NEW, F.SVC_STAT_SLSTATE,
   F.SVC_STAT_SGEN, F.SVC_STAT_USB_CFG, F.SVC_STAT_AUTH_LOCK, F.CST_BOOT_STAT_BOOT_KIND, F.CST_BOOT_STAT_WCAUSE, F.CST_BOOT_STAT_RET_RES,
   F.CST_BOOT_LOST_LOST_CH, F.CST_BOOT_TIME_LR_TIME, F.MGT_BOOT_BOOT_SLOT]

/-- The same for DEEP SLEEP and retention, where the cores keep their TCMs and continue after WFI (R262). -/
def heldDeep : List Fld :=
  [F.DMC_STAT_CSTATE, F.DMC_RANK_STAT_PSTATE, F.SCC_STAT_SSTATE, F.DIP_SCRUB_STAT_SCRUB_PAUSED, F.PCK_STAT_MAIN_OK, F.PCK_STAT_VBKP_OK,
   F.PCK_STAT_KEEL_MODE, F.PCK_STAT_RET_AVAIL, F.PCK_KEEL_BO_LATCH, F.THM_TRIP_TS_KIND, F.THM_TRIP_TS_SENS, F.THM_TRIP_TS_TEMP, F.THM_TRIP_TS_DS,
   F.THM_TRIP_TS_NEW, F.MGT_STAT_ACTIVE, F.MGT_STAT_A_STATE, F.MGT_STAT_B_STATE, F.MGT_STAT_A_SLOT, F.MGT_STAT_B_SLOT, F.MGT_STAT_TRIAL,
   F.SVC_STAT_AUTH_LOCK, F.MGT_BOOT_BOOT_SLOT]

/-- The register store after a reset that keeps what its tables mark as kept, persistent fields, and the fields listed. -/
def keptRegs (s : State) (held : List Fld) : SMap Nat :=
  s.regs.filter fun e => match fieldAt e.1 with
    | some f => f.kept || f.acc == .rwp || f.acc == .rwpl || held.any (·.key == f.key)
    | none => false

end Sys2Proof.Machine
end

