-- ==== Sys2Proof/Machine/Power.lean ====
section
/-! DEFINITION. Power failure, retention, Keel, warm reset, clocks, entries to and exits from the power states (ch. 17, 18, 20, and R320). -/

namespace Sys2Proof.Machine

/-! ## Shared steps -/

/-- The channels of the stack. -/
def channels : List Nat := List.range 32

/-- A transfer of the service port ends with a result (Table 21.5). -/
def endXfer (s : State) (c : Code) : State :=
  match s.svc.xfer with
  | some _ =>
    ({ s with svc.xfer := none, svc.buf := [] }.wr F.SVC_DRN_STAT_DRN_BUSY 0).wr F.SVC_DRN_STAT_DRN_RES c.num
  | none => s

/-- Store the fold words (R257): word 3 where it differs, and `FOLD_PTR`. Equal writes are not made (R327). -/
def storeFold (s : State) : State :=
  let w := s.rd F.TSV_FOLD_CTL_FR_MODE + s.rd F.TSV_FOLD_CTL_FOLD_AUTO * 2 + s.fstate * 4 + s.rd F.TSV_FOLD_STAT_FOLDED_CH * 32
  let s := s.putStackWord 3 0 10 w
  if s.fstate = fPaused then s.putStackWord 4 0 22 (s.rd F.TSV_FOLD_PTR_FOLD_PTR) else s

/-- The records of the fault log that a restricted port drops: those queued in FCR, and those at the port (R324). -/
def droppedRecords (s : State) : Nat :=
  s.fcr.logq.length + (s.pst.q.filter fun w => match w.act with
    | .logEnd first src => !first && src != 246
    | _ => false).length

/-- The port takes only the list of R324 from now on; dropped register writes complete with LOST. -/
def restrictPort (s : State) : State :=
  let gone := s.pst.q.filter fun w => !portAllowed w
  let s := { s with pst.q := s.pst.q.filter portAllowed, pst.only := true, fcr.logq := [] }
  gone.foldl (fun t w => refusePreg t w .lost) s

/-- Records that wait in FCR while the port is restricted: that of source 246 goes to the port, the others are dropped (R324). -/
def passPfRecord (s : State) : State :=
  let (mine, _) := s.fcr.logq.partition fun r => r.src == 246
  mine.foldl State.logToPort { s with fcr.logq := [] }

/-- A sector of a channel's queues, units or victim buffer is still to be written (R414). -/
def queuedWrites (s : State) (ch : Nat) : Bool :=
  !(s.victims ch).isEmpty || !(s.dmcOf ch).wq.isEmpty || !(s.dmcOf ch).rmw.isEmpty ||
  s.rqe.reqs.any fun r => isWriter r.op && r.op != .zero && r.visible && (r.pend.any fun q => (List.range (min q.2 4)).any fun k => (place s (q.1 + k)).1 == ch)

/-- A queued sector or a D sector of a channel is still to be written (R384). -/
def unwritten (s : State) (ch : Nat) : Bool := dirtyLines s ch != 0 || queuedWrites s ch

/-- A whole sector reaches its destination without waiting for a cycle: the victim buffer or, when `cache`, the slice where it is held, else DRAM (R359, R382). -/
def sinkStore (cache : Bool) (s : State) (ch c : Nat) (x : Sector) : State :=
  match victimSector s ch c, wayOf s ch c with
  | some _, _ => victimWrite s ch c x
  | none, some w =>
    if cache ∧ s.sstate ch = ssOn ∧ (s.line ch (setOf c) w).st (halfOf c) ≥ 2 ∧ ¬ deadChannel s ch then
      let t := cacheWrite s ch w c x
      if writesThrough s ch then t.dramWrite ch c x else t
    else leaveList (s.dramWrite ch c x) ch c
  | none, none => s.dramWrite ch c x

/-- A sector of a WR reaches its destination. -/
def sinkSector (cache : Bool) (ok : Nat → Bool) (r : Req) (s : State) (sec : Nat) : State :=
  let (ch, c) := place s sec
  if ok ch then sinkStore cache s ch c (wrSector r sec) else s

/-- The ZERO sectors on a channel's write queue are written: no earlier write to them is pending (R93). -/
def sinkZeros (cache : Bool) (ok : Nat → Bool) (s : State) (ch : Nat) : State :=
  if !ok ch then s else ((s.dmcOf ch).wq.filter (·.kind == .zero)).foldl (fun t e => sinkStore cache t ch e.c zeroSector) s

/-- A WRP held in the write data buffer or the unit is merged into its sector. -/
def sinkMerge (cache : Bool) (ok : Nat → Bool) (s : State) (r : Req) : State :=
  let (ch, c) := place s (rmwSector r)
  if r.pend.isEmpty || !ok ch || deadChannel s ch then s else
  let (s, x, _, bs, _) := rmwRead s ch c 0 none (fun _ => 0) true
  sinkStore cache s ch c (mergeSector r x ((bs.filter (·.dec == .ue)).map (·.k)))

/-- An atomic held in a unit completes its write. -/
def sinkAtomic (cache : Bool) (ok : Nat → Bool) (s : State) (r : Req) : State :=
  let (ch, c) := place s (rmwSector r)
  if !((s.dmcOf ch).rmw.any (·.req == r.id)) || !ok ch || deadChannel s ch || r.bad.contains (rmwSector r) then s else
  let (s, x, k, _, _) := rmwRead s ch c 0 none (fun _ => 0) false
  if k = .uncorrectable ∨ bit x.md 0 then s else
  let off := 8 * r.p.wsel
  sinkStore cache s ch c (putWord x off (atomicNew r.op (leAt x.data off 8) r.p.opnd r.p.swapv))

/-- Every sector of the write data buffer and every operation of the units is written, in admission order; every other request is abandoned
(R359, R382). `ok` says which channels can still write. -/
def sinkWrites (cache : Bool) (ok : Nat → Bool) (s : State) : State :=
  let one (s : State) (r : Req) : State :=
    match r.op with
    | .wr => (runSectors r.pend).foldl (sinkSector cache ok r) s
    | .wrp => sinkMerge cache ok s r
    | .afadd | .aswap | .acas | .aand | .aor => if r.performed then s else sinkAtomic cache ok s r
    | _ => s
  { s.rqe.reqs.foldl one (channels.foldl (sinkZeros cache ok) s) with rqe := { nextId := s.rqe.nextId } }

/-- The sectors of a victim buffer are written. -/
def sinkVictims (s : State) (ch : Nat) : State :=
  let s := (s.victims ch).foldl (fun t v => victimOut (victimOut t ch v 0 v.s0) ch v 1 v.s1) s
  { s with scc.victim := SMap.erase s.scc.victim ch }

/-- The queues of a controller are empty; the victim queue, the debts and the dies' report queues are kept (Table 9.4). -/
def clearDmc (s : State) (ch : Nat) : State :=
  let d := s.dmcOf ch
  (s.setDmc ch { d with
    q := [], wq := [], fly := [], fillWait := [], fills := [], rmw := [], eng := [], engAt := 0, scrub := none, unitSc := none, walkAt := 0, walkUp := false
    lastCol := none, lastBurst := none, rptAt := none, reads := 0, burst := 0, oppo := false, force := false, hung := false, stallTo := 0
    train := none }).wr F.DMC_STAT_MODE 0 ch

/-- The TSV sequencer ends the bursts, closes every row and puts every rank of a trained channel in self-refresh (Table 17.3). -/
def sequencerSref (s : State) (ch : Nat) : State :=
  let s := dropFills (leaveRun s ch) ch
  let s := clearDmc s ch
  if s.cstate ch = 0 then s else (srefEnter s ch).wr F.DMC_STAT_CSTATE 4 ch

/-- The link as a start leaves it: no group in service, no stream, credits to be exchanged again (R68, R78). The tags count on. -/
def freshLink (s : State) : State :=
  let old := s.link
  let s := silence s
  let s := { s with link := { grp := old.grp, everUp := old.everUp, refclk := old.refclk, tseq := old.tseq, pseq := old.pseq } }
  (List.range 16).foldl (fun t g => t.modGrp g fun x => { freshStream x with inSvc := false, failed := x.failed }) s

/-- Every group trains from DETECT in its R28 direction once HL_REFCLK is present; a group in DEEP takes the fast path when `fast`. -/
def startGroups (s : State) (fast : Bool) : State :=
  (List.range 16).foldl (fun t g =>
    if fast ∧ (t.grp g).gst = .deep ∧ t.link.refclk then t.modGrp g fun x => { x with gst := .clock, fast := true, slot := 16, aligned := 0, partner := none }
    else
      let t := groupOff t g
      if t.link.refclk then (groupDetect t g).modGrp g fun x => { x with attempt := 1, dir := decide (8 ≤ g) } else t) s

/-- The service link is down (R435, Table 21.5). -/
def svcDown (s : State) : State :=
  let was := decide (s.rd F.SVC_STAT_SLSTATE ≠ 0)
  let s := endXfer s .timeout
  let s := endAuth { s with svc.mbxTag := none }
  let s := (((s.wr F.SVC_STAT_SLSTATE 0).wr F.SVC_STAT_SGEN 0).wr F.SVC_STAT_USB_CFG 0)
  if was then s.raiseG 285 .info 0 0 else s

/-- The main domain is isolated: lanes off, the service port down, queues of R457 discarded. Groups in DEEP keep that state. -/
def isolateMain (s : State) : State :=
  let s := discardQueues (freshLink (endAuth (endXfer s .state)))
  let s := (List.range 16).foldl (fun t g => if (t.grp g).gst = .deep then t else groupOff t g) s
  ((s.wr F.SVC_STAT_SLSTATE 0).wr F.SVC_STAT_SGEN 0).wr F.SVC_STAT_USB_CFG 0

/-! ## Power failure (R381 to R384, R412) -/

/-- What every power-fail and shutdown sequence does at its start. An entry in progress is abandoned and not counted (Table 18.9). -/
def beginSequence (s : State) : State :=
  let s := calAbandon (endXfer (foldPause s) .state)
  let s := restrictPort { s with pck.pow := .powerFail, pck.pfAt := s.now, pck.entry := none, pck.commit := none, pck.wfi := false, pck.wake := none,
                                 pck.wrstDue := none, mgt.take := none }
  storeFold s

/-- The flush order to a slice (R169): allocation stops, an operation is abandoned. -/
def flushOrder (s : State) (sl : Nat) : State :=
  let st := s.sstate sl
  if st = ssOn ∨ st = ssDrain ∨ st = ssRetain then (abandonOp s sl).wr F.SCC_STAT_SSTATE ssFlush sl else s

/-- A power-fail sequence starts from RUN, IDLE, SLEEP or an entry (R381): cause 0 PWR_FAIL#, 1 droop or MAIN_GOOD. -/
def pfStart (cause : Nat) (s : State) : State :=
  let ok := s.pck.pow == .run || s.pck.pow == .idle || s.pck.pow == .sleep || s.pck.pow == .entering
  if !ok || s.thm.shut.isSome then s else
  let n := droppedRecords s
  let s := ((s.inc F.PCK_PF_PF_CNT).wr F.PCK_PF_PF_CAUSE cause).wr F.PCK_PF_PF_LATE 0
  let s := beginSequence s
  let s := passPfRecord ({ s with pst.dropped := n }.raiseG 246 .degrade cause n)
  channels.foldl flushOrder s

/-- The channels that cannot write what they still hold: a hang takes no reset now (Table 8.8), training and self-refresh serve nothing. -/
def canWrite (s : State) (ch : Nat) : Bool := (s.cstate ch == 2 || s.cstate ch == 4 || s.cstate ch == 0) && !(s.dmcOf ch).hung

/-- The switch-over to Keel. Unless it is late, slices and queues are written to DRAM first (R382, R384). A D-source shutdown abandons retention. -/
def switchOver (late : Bool) (s : State) : State :=
  let bad := channels.filter fun c => unwritten s c && (late || !canWrite s c)
  let ok (c : Nat) : Bool := !bad.contains c
  let s := if late then s else
    let s := channels.foldl (fun t c => if ok c then flushSlice t c else t) s
    sinkWrites false ok s
  let s := { s with rqe := { nextId := s.rqe.nextId }, pck.lost := Nat.lor s.pck.lost (maskOf bad), scc.victim := [], scc.line := [], scc.dur := [], scc.order := [], scc.op := [] }
  let s := channels.foldl sequencerSref s
  let s := channels.foldl (fun t c => if t.sstate c = ssFlush then t.wr F.SCC_STAT_SSTATE ssOff c else t) s
  let s := isolateMain s
  let s := (s.wr F.PCK_PF_PF_US (min 2047 ((s.now - s.pck.pfAt) / usec))).wr F.PCK_STAT_KEEL_MODE 1
  let s := if late then s.wr F.PCK_PF_PF_LATE 1 else s
  if s.thm.shut.isSome then { s with thm.tripped := true } else s

/-- A sequence runs and has not switched over. -/
def beforeSwitch (s : State) : Bool := s.pck.pow == .powerFail && s.rd F.PCK_STAT_KEEL_MODE == 0

/-- No victim refresh waits in a channel that can issue one: SRE waits for it (R212). -/
def victimsIdle (s : State) : Bool := channels.all fun c => s.cstate c != 2 || (s.dmcOf c).hung || ((s.dmcOf c).vq.isEmpty && (s.dmcOf c).bank.all fun e => e.2.vref.isNone)

/-- POWER_FAIL_SWITCHOVER (Table 18.8). -/
def pfSwitch (s : State) : State := if beforeSwitch s && victimsIdle s then switchOver false s else s

/-- A rail falls below 85% before the switch-over (R384). -/
def railLate (s : State) : State := if beforeSwitch s then switchOver true s else s

/-- DRAM content and everything the main domain held are lost. -/
def loseContent (s : State) : State :=
  { s with mem := [], memMeta := [], memErr := [], rfm := {}, scc := {}, dmc := [], rqe := { nextId := s.rqe.nextId } }

/-- The MRAM list is written and Keel goes to low-power mode (Table 18.8); with `RET_AVAIL` = 0 or after a D source nothing is retained (R386, R400). -/
def retentionDone (s : State) : State :=
  if !(s.pck.pow == .powerFail && s.rd F.PCK_STAT_KEEL_MODE == 1 && s.pst.port.isNone && s.pst.q.isEmpty) then s else
  let s := { s with pst.only := false }
  if !s.on F.PCK_STAT_RET_AVAIL ∨ s.thm.shut = some true then
    loseContent { s.wr F.PCK_STAT_KEEL_MODE 0 with pck.pow := .off, pck.kindLost := true }
  else { s.wr F.PCK_STAT_KEEL_MODE 2 with pck.pow := .deepSleep }

/-- Keel: a brown-out collapses retention (R387). -/
def keelBrownout (s : State) : State :=
  let k := s.rd F.PCK_STAT_KEEL_MODE
  if !((s.pck.pow == .deepSleep && k == 2) || (s.pck.pow == .powerFail && k == 1)) then s else
  let s := (s.wr F.PCK_KEEL_BO_LATCH 1).wr F.PCK_STAT_KEEL_MODE 0
  loseContent { s with pck.pow := .off, pck.kindLost := true, pst.only := false, fcr.latched := s.fcr.latched ++ [(249, 0, 0)] }

/-- Source 250 (R388). -/
def keelFault (cause : Nat) (s : State) : State :=
  if s.pck.pow = .off ∨ cause < 1 ∨ 4 < cause then s else (s.wr F.PCK_KEEL_KEEL_CAUSE cause).raiseG 250 .fault 0 cause

/-- The load check of the cold boot (R386). -/
def keelCheck (pass : Bool) (s : State) : State :=
  if s.pck.pow ≠ .boot then s else
  let s := s.wr F.PCK_STAT_RET_AVAIL (b2n pass)
  if pass then s else keelFault 1 s

/-- VBKP below its operating minimum (R419). -/
def vbkpLow (mv : Nat) (s : State) : State :=
  if !s.pck.vbkp then s else (s.wr F.PCK_STAT_VBKP_OK 0).raiseLasting 3000 248 .warn 6 mv

/-- VBKP below 2.7 V: the always-on domain resets, and DRAM content is lost (R419, R399). No latch is kept (R365). -/
def vbkpCollapse (s : State) : State :=
  let s := loseContent s
  let s := { s with
    thm := { temp := s.thm.temp, tmax := s.thm.tmax }
    fcr.latched := []
    pst.lifeAon := 0
    pst.only := false
    pck := { mainGood := s.pck.mainGood, resetLow := s.pck.resetLow, refclk := s.pck.refclk } }
  [F.PCK_STAT_VBKP_OK, F.PCK_STAT_KEEL_MODE, F.PCK_STAT_RET_AVAIL, F.PCK_KEEL_BO_LATCH, F.THM_TRIP_TS_KIND, F.THM_TRIP_TS_SENS, F.THM_TRIP_TS_TEMP,
   F.THM_TRIP_TS_DS, F.THM_TRIP_TS_NEW].foldl (fun t f => t.wr f 0) s

/-! ## Warm reset (R358 to R363) -/

/-- Reads, FLUSH, ZERO and FENCE still queued are abandoned, and atomics that no unit holds; a ZERO stops at a sector boundary (Table 17.3). -/
def abandonReads (s : State) : State :=
  let held (r : Req) : Bool := s.dmc.any fun e => e.2.rmw.any (·.req == r.id)
  let s := { s with rqe.reqs := s.rqe.reqs.filter fun r => r.op == .wr || r.op == .wrp || (isAtomic r.op && held r) }
  channels.foldl (fun t c =>
    let d := t.dmcOf c
    t.setDmc c { d with q := d.q.filter (·.rmw), fillWait := [], wq := d.wq.filter (·.kind != .clean) }) s

/-- Work that a warm reset ends at once, in RQE, MGT and the engines. -/
def warmEnds (s : State) : State :=
  let s := abandonReads (calAbandon (endXfer (foldPause s) .state))
  let s := (List.range 16).foldl (fun t d => bowReset d t) s
  let s := channels.foldl abandonOp s
  { s with rqe := { s.rqe with waiting := [], waitAt := [], rejQ := [] }, pck.entry := none, pck.commit := none, pck.wfi := false, pck.wrstDue := none, mgt.take := none }

/-- The fields that a reset during a cold boot leaves, beside the kept and persistent ones: those of the always-on domain. -/
def heldBoot : List Fld :=
  [F.PCK_STAT_MAIN_OK, F.PCK_STAT_VBKP_OK, F.PCK_STAT_KEEL_MODE, F.PCK_STAT_RET_AVAIL, F.PCK_KEEL_BO_LATCH, F.THM_TRIP_TS_KIND, F.THM_TRIP_TS_SENS,
   F.THM_TRIP_TS_TEMP, F.THM_TRIP_TS_DS, F.THM_TRIP_TS_NEW, F.CST_CAL_STAT_RES_MEAS]

/-- STK_RESET# during steps 4 to 6 of a cold boot (R355): the main domain is held in reset until the pin is released; what the fuse read and the scan
loaded is kept. -/
def bootHold (s : State) : State :=
  { s with regs := keptRegs s heldBoot, pck.step := 3, cst.run := none, dmc := [], scc := {}, rfm := {}
           tsv := { rmap := s.tsv.rmap } }

/-- A warm-reset cause: 0 STK_RESET#, 1 `WRST`, 2 reaction or lost STK_REFCLK (R358). No effect in the cases of R363; before step 6 of a cold boot ends
it restarts the boot at step 4 (R355); in SLEEP it runs from the release row (R363). -/
def warmAssert (cause : Nat) (s : State) : State :=
  if s.thm.shut.isSome then s else
  match s.pck.pow with
  | .run | .idle | .entering => { warmEnds s with pck.pow := .warm, pck.warmAt := s.now, pck.warmCause := cause, pck.stretched := false }
  | .sleep => { warmEnds s with pck.pow := .warm, pck.warmAt := s.now, pck.warmCause := cause, pck.stretched := true, pck.wake := none }
  | .boot => if 4 ≤ s.pck.step ∧ s.pck.step ≠ 8 then bootHold s else s
  | _ => s

/-- The stretch ends once no channel is under a hang reset, or at 400 µs (R360): every accepted write is written, fills are abandoned, the ranks are in
self-refresh (Table 17.3). -/
def stretchEnd (s : State) : State :=
  if s.pck.pow ≠ .warm ∨ s.pck.stretched ∨ (channels.any (fun c => s.cstate c == 3) ∧ s.now < s.pck.warmAt + 400 * usec) then s else
  let s := channels.foldl dropFills s
  let s := sinkWrites true (fun _ => true) s
  let s := channels.foldl sinkVictims s
  let s := channels.foldl sequencerSref s
  { s.wr F.CST_BOOT_TIME_STRETCH (min 65535 ((s.now - s.pck.warmAt) / 800)) with pck.stretched := true }

/-- The ranks that fail their checks after self-refresh are trained in full; the other channels return to RUN (R191). -/
def wakeChannels (s : State) (fail : List (Nat × Nat)) : State :=
  channels.foldl (fun t c =>
    if t.cstate c ≠ 4 then t else
    let t := backToRun t c
    trainStart t c false ((List.range 4).filter fun r => fail.contains (c, r))) s

/-- Both cores leave reset into the boot ROM (R264). What basic commands have set is remembered (R24, R26). -/
def coresToRom (s : State) : State :=
  { ((setCore (setCore s false 1) true 1).wr F.MGT_STAT_ACTIVE 0) with
    mgt := { applied := s.mgt.applied, stored := s.mgt.stored, ctxSet := s.mgt.ctxSet, fails := s.mgt.fails, lockTo := s.mgt.lockTo, rom := s.now } }

/-- What a warm reset leaves of each unit (Tables 17.3, 17.4; R153, R167, R361). -/
def warmUnits (s : State) : State :=
  let ch (s : State) (c : Nat) : State :=
    let t := s.tsvCh c
    s.setTsv c { t with step := none, isolated := none, inPlace := none, fastWait := none, cur := none, stored := false }
  let s := channels.foldl ch s
  let reg : Regul := { ctx := s.reg.ctx.map fun e => (e.1, { e.2 with mlat := 0, ltStep := 0 }), cnt := s.reg.cnt, watch := s.reg.watch }
  { s with
    reg := { reg with ctx := reg.ctx.filter fun e => e.2 != {} }
    scc := { line := s.scc.line, dur := s.scc.dur }
    rfm := { thrOld := s.rfm.thrOld, thrAt := s.rfm.thrAt, stroke := s.rfm.stroke, strokeBase := s.rfm.strokeBase }
    dip := { passed := s.dip.passed }
    tsv := { s.tsv with rprQ := [], foldWin := (0, 0), rmapLost := [] }
    fcr := { s.fcr with easy := none }
    cst := { store := s.cst.store, stored := s.cst.stored, worn := s.cst.worn, last := s.cst.last }
    pst := { s.pst with q := s.pst.q.filter (·.cls != 5) }
    glb := {}
    svc := { recSeq := s.svc.recSeq, lostSeen := s.svc.lostSeen } }

/-- What every start reports (R365), with the channels that lost content. -/
def reportStart (s : State) (kind wcause : Nat) (lost : Nat) (bad : Bool) : State :=
  let s := (s.wr F.CST_BOOT_STAT_BOOT_KIND kind).wr F.CST_BOOT_STAT_WCAUSE wcause
  let s := (s.wr F.CST_BOOT_STAT_RET_RES (if bad then Code.lost.num else 0)).wr F.CST_BOOT_LOST_LOST_CH lost
  { s with pck.lost := 0, pck.kindLost := false, pck.since := s.now }

/-- The firmware restores the settings, and after DEEP SLEEP the contexts, that basic commands set and the reset
lost: a new write of each (R24, log entry 121). -/
def restoreSettings (contexts : Bool) (s : State) : State :=
  let s := s.mgt.stored.foldl (fun t w => w.2.2.2.foldl (fun u f => if f.1.kept then u else u.wr f.1 f.2 w.2.1 w.2.2.1) t) s
  if contexts then s.mgt.ctxSet.foldl (fun t e => ctxWrite t e.1 e.2.1 e.2.2.1 e.2.2.2.1 e.2.2.2.2 false) s else s

/-- The slices leave RETAIN for what they were before (R167, R168). -/
def unretain (s : State) : State := { s.scc.retain.foldl (fun t e => t.wr F.SCC_STAT_SSTATE e.2 e.1) s with scc.retain := [] }

/-- The release row of Table 17.3. -/
def warmRelease (fail : List (Nat × Nat)) (s : State) : State :=
  let cause := s.pck.warmCause
  let s := unretain (endAuth (closeMailboxes s))
  let s := { s with regs := keptRegs s heldFields }
  let s := channels.foldl (fun t c => dropFills (rebuildTags t c) c) (warmUnits (freshLink s))
  let s := coresToRom s
  let s := reportStart s 3 cause s.pck.lost (s.pck.lost != 0)
  let s := { s with pck.pow := .run, pck.step := 8, pck.stretched := false, pck.fabDown := false, pck.dckDown := 0, pck.wake := none }
  let s := wakeChannels s fail
  let s := (s.wr F.SVC_STAT_MEM_RDY 1).wr F.PCK_CLK_MCK_LOCK 1
  let s := regStart (restoreSettings false s)
  if s.link.refclk then startGroups s false else refclkGone { s with link.refclk := true }

/-! ## STK_REFCLK and the PLLs (R320, R380, R414) -/

/-- STK_REFCLK is gone (R414): ranks to self-refresh, unwritten channels latched, nothing served. -/
def stkGone (s : State) : State :=
  let s := s.raiseG 273 .fatal 0 0
  let bad := channels.filter (queuedWrites s)
  let s := { warmEnds s with pck.lost := Nat.lor s.pck.lost (maskOf bad) }
  let s := { s with rqe := { nextId := s.rqe.nextId } }
  let s := channels.foldl sequencerSref s
  { s with pck.pow := .warm, pck.warmAt := s.now, pck.warmCause := 2, pck.stretched := true }

/-- STK_REFCLK absent for more than 1 µs. In SLEEP it acts on exit; in a power-fail sequence the sequencer still enters self-refresh, and unflushed channels
are latched (Table 20.12). Elsewhere only its absence is noted. -/
def stkLoss (s : State) : State :=
  if !s.pck.refclk then s else
  let s := { s with pck.refclk := false }
  match s.pck.pow with
  | .run | .idle | .entering | .warm => stkGone s
  | .powerFail => if beforeSwitch s then switchOver true s else s
  | _ => s

/-- STK_REFCLK present again for 100 µs (R414). -/
def stkReturn (fail : List (Nat × Nat)) (s : State) : State :=
  if s.pck.refclk then s else
  let s := { s with pck.refclk := true }
  if s.pck.pow = .warm ∧ s.pck.stretched ∧ s.pck.warmCause = 2 then warmRelease fail s else s

/-- The FAB PLL loses lock (Table 14.7): FAB stops with its state held, and the standby PLL is switched in. A second loss is a second fault. -/
def fabLoss (s : State) : State :=
  if s.pck.failedPll.contains 4 then s else
  let s := s.raiseG 265 .fault 0 0
  { s with pck.fabDown := true, pck.failedPll := s.pck.failedPll ++ [4] }

/-- FAB resumes on the standby PLL once the crossing codes are re-verified (R170); slices that fail are faulted. -/
def fabResume (bad : List Nat) (s : State) : State :=
  if !s.pck.fabDown || !s.pck.stby then s else
  let s := { (s.wr F.PCK_CLK_FAB_SRC 1).wr F.PCK_CLK_STBY_LOCK 0 with pck.fabDown := false, pck.stby := false }
  let s := bad.foldl (fun t sl => if sl < 32 then sliceFault sl 1 t else t) s
  retake (settle s)

/-- A DCK PLL loses lock (Table 14.7): its eight channels end their bursts and enter self-refresh. -/
def dckLoss (p : Nat) (s : State) : State :=
  if 4 ≤ p ∨ s.pck.failedPll.contains p then s else
  let s := s.raiseG (267 + p) .fault p 0
  let s := { s with pck.failedPll := s.pck.failedPll ++ [p], pck.dckDown := setBit s.pck.dckDown p }
  (List.range 8).foldl (fun t k =>
    let c := 8 * p + k
    if t.cstate c ≠ 2 then t else
    let t := leaveRun t c
    -- reads in flight are reissued when the channels return
    let d := t.dmcOf c
    let t := t.setDmc c { d with q := d.q ++ d.fly.map (·.1), fly := [] }
    foldPause ((srefEnter t c).wr F.DMC_STAT_CSTATE 4 c)) s

/-- The own PLL is still unlocked at 400 µs: the standby PLL is switched in and serves that group until the next cold boot (R320). -/
def dckTimeout (p : Nat) (s : State) : State :=
  if !(bit s.pck.dckDown p && s.pck.failedPll.contains p && s.pck.stby) then s else
  let s := (s.wr F.PCK_CLK_DCK_SRC (setBit (s.rd F.PCK_CLK_DCK_SRC) p)).wr F.PCK_CLK_STBY_LOCK 0
  { s with pck.stby := false }.raiseG 266 .warn 0 2

/-- The channels of a DCK group return to RUN on a locked clock: SRX, reads reissued, writes replayed (Table 14.7). -/
def dckRecover (p : Nat) (fail : List (Nat × Nat)) (s : State) : State :=
  let clocked := !s.pck.failedPll.contains p || bit (s.rd F.PCK_CLK_DCK_SRC) p
  if !bit s.pck.dckDown p || !clocked then s else
  let s := { s with pck.dckDown := clrBit s.pck.dckDown p }
  (List.range 8).foldl (fun t k =>
    let c := 8 * p + k
    if t.cstate c ≠ 4 then t else
    let t := backToRun t c
    trainStart t c false ((List.range 4).filter fun r => fail.contains (c, r))) s

/-- A failed PLL relocks: 0 to 3 the DCK PLLs, 4 FAB (R320). It becomes the standby PLL if the standby is in use, and else serves its clock again. -/
def pllRelock (p : Nat) (s : State) : State :=
  if !s.pck.failedPll.contains p then s else
  let s := { s with pck.failedPll := s.pck.failedPll.filter (· != p) }
  let inUse := if p = 4 then s.on F.PCK_CLK_FAB_SRC else bit (s.rd F.PCK_CLK_DCK_SRC) p
  if inUse then { s.wr F.PCK_CLK_STBY_LOCK 1 with pck.stby := true }
  else if p = 4 then retake (settle { s with pck.fabDown := false })
  else s

/-- The standby PLL loses lock or becomes unusable (source 266, value 1). -/
def stbyUnusable (s : State) : State :=
  if !s.pck.stby then s else { s.wr F.PCK_CLK_STBY_LOCK 0 with pck.stby := false }.raiseG 266 .warn 0 1

/-- The MCK PLL loses lock: MCK returns to the fast oscillator (R380). -/
def mckLoss (s : State) : State :=
  if !s.on F.PCK_CLK_MCK_LOCK then s else ((s.wr F.PCK_CLK_MCK_LOCK 0).wr F.PCK_CLK_MCK_SEL 0).raiseG 271 .warn 0 0

/-! ## IDLE (R372) -/

/-- IDLE is entered once no host request is held and none waits. -/
def idleEntry (s : State) : State :=
  let held := (s.rqe.reqs.any fun r => r.iss == .host) || s.rqe.waiting.any fun e => !e.2.isEmpty
  if s.pck.pow = .run ∧ s.on F.PCK_CTL_IDLE_EN ∧ ¬ held ∧ s.pck.step = 0 then { s with pck.pow := .idle } else s

/-- IDLE is left in the FAB cycle in which a VC0 packet is delivered. -/
def idleExit (s : State) : State := if s.pck.pow = .idle then { s with pck.pow := .run } else s

/-! ## Entry (R373 to R376) -/

/-- `VOTES`. -/
def votes (s : State) : Nat := maskOf ((List.range 16).filter fun d => s.on F.PCK_VOTE_NOSLEEP d)

/-- `SCRUB_UNSAFE` (R230). -/
def scrubUnsafe (s : State) : Bool := (s.dip.wb.any fun e => !e.2.isEmpty) || s.dmc.any fun e => e.2.scrub == some true || e.2.unitSc.isSome

/-- Firmware update in progress: steps 1 to 5 of Table 12.3, its takeover and its trial. -/
def updating (s : State) : Bool := s.mgt.load.isSome || s.mgt.take == some 5 || s.mgt.trial.isSome

/-- The refusers of Table 18.4, but for the partner, in ascending code; the second part is the domain. State: 1 SLEEP, 2 DEEP SLEEP, 3 OFF. -/
def refuser (s : State) (target : Nat) : Option (Nat × Nat) :=
  let deepish := target ≤ 2
  if votes s ≠ 0 then some (1, ((List.range 16).find? (bit (votes s))).getD 0)
  else if updating s then some (2, 0xFF)
  else if deepish ∧ (s.fstate = fClean ∨ s.fstate = fMigrate ∨ s.fstate = fPaused) then some (3, 0xFF)
  else if s.reg.thetaNext ≠ 0 then some (4, 0xFF)
  else if 2 ≤ target ∧ (s.pst.port.isSome ∨ ¬ s.pst.q.isEmpty ∨ ¬ s.fcr.logq.isEmpty) then some (5, 0xFF)
  else if deepish ∧ scrubUnsafe s then some (6, 0xFF)
  else none

/-- The partner declines because a group in service may not go to DEEP (code 7, for every state). -/
def deepDenied (s : State) : Bool := (List.range 16).any fun g => (s.grp g).inSvc && !s.on F.HLP_CTL_DEEP_EN g

/-- A refusal or an abort (R376): counts, the log of sixteen entries, and source 279. -/
def refuse (s : State) (target code dom : Nat) (abort : Bool) : State :=
  let s := (s.inc F.PCK_REFUSE_REFUSALS).inc (if abort then F.PCK_REFCNT_ABORT_N else F.PCK_REFCNT_REF_N) 1 code
  let e : Refused := { code := code, target := target, dom := if code = 1 then dom else 0, abort := abort, life := s.rd F.PST_LIFE_LIFE_S }
  let s := { s with pck.rlog := (e :: s.pck.rlog).take 16 }
  s.raiseG 279 .info code (if code = 1 then dom else 0)

/-- The detail word of a refusal (R373). -/
def refuseDetail (code dom : Nat) (abort : Bool) : Nat := code + (if code = 1 then dom else 0xFF) * 2 ^ 8 + b2n abort * 2 ^ 16

/-- The entry ends with BUSY: the mailbox is answered, and the stack stays in RUN. -/
def endEntry (s : State) (e : Entry) (code dom : Nat) (abort : Bool) : State :=
  let s := refuse s e.target code dom abort
  let s := { s with pck.entry := none, pck.pow := .run, link.pmReq := none }
  s.modMbx e.mbx fun x => { x with await := .due .busy (refuseDetail code dom abort) [] }

/-- PM_ACK from the partner (R106, R374): OK binds it; another result is refuser 7. One that matches no outstanding PM_REQ is ignored. -/
def pmAck (seq res : Nat) (s : State) : State :=
  match s.link.pmReq, s.pck.entry with
  | some (_, n), some e =>
    if n ≠ seq ∨ e.acked then s
    else if res = 0 then { s with pck.entry := some { e with acked := true }, link.pmReq := none }
    else endEntry s e 7 0xFF false
  | _, _ => s

/-- No PM_ACK within 10 µs (R106). -/
def pmTimeout (s : State) : State :=
  match s.pck.entry with
  | some e => if e.acked ∨ s.link.pmReq.isNone then s else endEntry s e 7 0xFF false
  | none => s

/-- The drain of an entry (R374, step 2): every request done and answered, no turn, no hang reset, empty victim queues. -/
def drained (s : State) : Bool :=
  (s.rqe.reqs.all fun r => r.iss != .host && r.performed) && s.rqe.rejQ.isEmpty && s.link.turn.isNone && s.link.turnReq.isNone &&
  channels.all fun c => s.cstate c != 3 && s.cstate c != 1 && (s.dmcOf c).vq.isEmpty

/-- The drain ends; codes 1 to 6 are checked again, and the entry is aborted or its mailbox is answered OK (R374, steps 3 and 4). -/
def entryDrainEnd (s : State) : State :=
  match s.pck.entry with
  | none => s
  | some e =>
    if !e.acked || !drained s || s.pck.commit.isSome then s else
    match refuser s e.target with
    | some (code, dom) => endEntry (sendPm s 3) e code dom true
    | none => s.modMbx e.mbx fun x => if x.await = .drain then { x with await := .due .ok 0 [] } else x

/-- A write of `MODE` with the following WFI (R374, step 4). STATE before the commit point. For DEEP SLEEP the slices start writing back (R168). -/
def modeWrite (s : State) (v : Nat) : Code × State :=
  if s.pck.commit.isNone then (.state, s) else
  let s := if v = 2 then channels.foldl flushOrder s else s
  (.ok, { s.wr F.PCK_MODE_MODE v with pck.wfi := decide (v ≠ 0) })

/-- Every flit that carries an answer is acknowledged (R78). -/
def linkQuiet (s : State) : Bool :=
  (s.link.homeD.isNone || s.link.cfgRx.isNone || waitingHome s == 0) && (List.range 16).all fun g => !(s.grp g).inSvc || (s.grp g).replay.isEmpty

/-- A slice goes to retention voltage (R168). -/
def retainSlice (s : State) (sl : Nat) : State :=
  if s.sstate sl = ssOff then s else
  { s.wr F.SCC_STAT_SSTATE ssRetain sl with scc.retain := SMap.set s.scc.retain sl (s.sstate sl) }

/-- Nothing waits to be written to a channel, and no victim refresh waits (R212, R363). -/
def channelsQuiet (s : State) : Bool :=
  victimsIdle s && (s.rqe.reqs.all (·.pend.isEmpty)) && channels.all fun c => deadChannel s c || ((s.dmcOf c).wq.isEmpty && (s.victims c).isEmpty)

/-- The always-on sequencer completes an entry after WFI (R375). A wake cause that came meanwhile ends the state at once (Table 18.9): it waits here for the
row of that exit. -/
def sequencerEntry (s : State) : State :=
  let mode := s.rd F.PCK_MODE_MODE
  let portDone := mode != 3 || s.pst.port.isNone && s.pst.q.isEmpty
  if !(s.pck.pow == .entering && s.pck.wfi && linkQuiet s && channelsQuiet s && portDone) then s else
  let s := calAbandon { s with pck.entry := none, pck.commit := none, pck.wfi := false, link.pmReq := none }
  let s := (s.wr F.PCK_CLK_MCK_SEL 0).wr F.PCK_CLK_MCK_LOCK 0
  match mode with
  | 1 =>
    let s := channels.foldl (fun t c => retainSlice t c) s
    let s := channels.foldl sequencerSref s
    enterDeep { s with pck.pow := .sleep }
  | 2 =>
    let s := channels.foldl flushSlice s
    let s := channels.foldl (fun t c => t.wr F.SCC_STAT_SSTATE ssOff c) s
    let s := channels.foldl sequencerSref s
    let s := isolateMain (enterDeep s)
    { s.wr F.PCK_STAT_KEEL_MODE 2 with pck.pow := .deepSleep }
  | 3 => loseContent { isolateMain s with pck.pow := .off, pck.kindLost := false, pck.offReq := true }
  | _ => s

/-! ## Exits (R377 to R379) -/

/-- A wake cause in SLEEP, or after WFI while the entry still runs (R377, Table 18.9): 1 partner, 2 service doorbell, 3 STK_WAKE, 5 raise. Out of DEEP SLEEP
and OFF only STK_WAKE leads. -/
def wakeCause (c : Nat) (s : State) : State :=
  let asleep := s.pck.pow == .sleep || (s.pck.pow == .entering && s.pck.wfi && (s.rd F.PCK_MODE_MODE == 1 || c == 3))
  if asleep && s.pck.wake.isNone then { s with pck.wake := some c } else s

/-- STK_RESET# and HL_REFCLK as an exit finds them (R48, R363, Table 20.12). -/
def exitEnds (s : State) : State :=
  let s := if s.link.refclk then s else refclkGone { s with link.refclk := true }
  if s.pck.resetLow then warmAssert 0 s else s

/-- The exit from SLEEP (Table 18.6). The stack wakes the link unless the partner did. -/
def sleepExit (fail : List (Nat × Nat)) (s : State) : State :=
  match s.pck.pow, s.pck.wake with
  | .sleep, some c =>
    let s := ((s.wr F.PCK_STAT_WAKE_SRC c).wr F.PCK_MODE_MODE 0).wr F.PCK_CLK_MCK_LOCK 1
    let s := channels.foldl rebuildTags (unretain s)
    let s := { s with pck.wake := none, pck.pow := .run }
    if !s.pck.refclk then stkGone s else
    let s := wakeChannels (allDoubled s) fail
    let s := deepWake (if c = 1 then s else driveWake s)
    exitEnds (retake (regStart s))
  | _, _ => s

/-- Raise what the always-on domain has latched (R308, R400). -/
def raiseLatched (s : State) : State :=
  let l := s.fcr.latched
  l.foldl (fun t e => t.raiseG e.1 .fatal e.2.1 e.2.2) { s with fcr.latched := [] }

/-- A slice after a fill: every sector I; a faulted or bypassed one in BYPASS, that of a folded channel OFF (R168, R173, Table 7.9). -/
def freshSlice (s : State) (sl : Nat) : State :=
  if s.fstate = fDone ∧ s.rd F.TSV_FOLD_STAT_FOLDED_CH = sl then s.wr F.SCC_STAT_SSTATE ssOff sl
  else s.wr F.SCC_STAT_SSTATE (if s.on F.SCC_STAT_SFAULT sl || s.on F.SCC_CTL_BYPASS sl then ssBypass else ssOn) sl

/-- Crossing training leaves three codes in each slice, 96 codes in the order of the slices (R170). -/
def crossingCodes (s : State) (codes : List Nat) : State :=
  channels.foldl (fun t c =>
    ((t.wr F.SCC_XING_CLK_DLY (codes.getD (3 * c) 0) c).wr F.SCC_XING_RD_DLY (codes.getD (3 * c + 1) 0) c).wr F.SCC_XING_WR_DLY
      (codes.getD (3 * c + 2) 0) c) s

/-- The exit from DEEP SLEEP or retention (Table 18.7): `peak` mA were drawn, the ranks in `fail` fail their checks. -/
def deepExit (fail : List (Nat × Nat)) (peak : Nat) (codes : List Nat) (s : State) : State :=
  match s.pck.pow, s.pck.wake with
  | .deepSleep, some c =>
    if !s.pck.mainGood || s.thm.shut.isSome || !s.pck.refclk then s else
    let s := closeMailboxes s
    let s := { s with regs := keptRegs s heldDeep }
    let s := ((s.wr F.PCK_STAT_WAKE_SRC c).wr F.PCK_KEEL_RET_MA (min 1023 peak)).wr F.PCK_STAT_KEEL_MODE 0
    let old := s
    let s := warmUnits (freshLink s)
    let s := { s with
      reg := {}
      dip := { passed := [] }
      scc := {}
      rfm := { old.rfm with miss := [], held := [] }
      pck := { s.pck with pow := .run, wake := none, step := 8, entry := none, commit := none, wfi := false, fabDown := false, dckDown := 0 } }
    let s := reportStart s 2 0 s.pck.lost (s.pck.lost != 0)
    let s := s.clearFields [F.DIP_SCRUB_SCRUB_BANK, F.DIP_SCRUB_SCRUB_ROW] 32
    let s := channels.foldl rebuildMap s
    let s := crossingCodes s codes
    let s := channels.foldl freshSlice s
    let s := calStart s 31 none
    let s := wakeChannels s fail
    let s := ((s.wr F.SVC_STAT_MEM_RDY 1).wr F.PCK_CLK_MCK_LOCK 1).wr F.PCK_CLK_STBY_LOCK 1
    let s := raiseLatched (regStart (restoreSettings true { s with pck.stby := true, pck.failedPll := [] }))
    exitEnds (startGroups s true)
  | _, _ => s

end Sys2Proof.Machine
end

