-- ==== Sys2Proof/Machine/Thermal.lean ====
section
/-! DEFINITION. Thermal sensors, the throttle, shutdown and coolant (ch. 19). -/

namespace Sys2Proof.Machine

/-- Two's complement of thirteen bits (Table 19.9). -/
def signed13 (v : Nat) : Int := if v % 8192 < 4096 then (v % 8192 : Int) else (v % 8192 : Int) - 8192

/-- An integer as `w` bits of two's complement. -/
def twos (w : Nat) (v : Int) : Nat := (v % (2 ^ w : Nat)).toNat

/-- The newest reading of a sensor in 1/16 °C, if it is valid. -/
def validTemp (s : State) (n : Nat) : Option Int :=
  match SMap.get? s.thm.temp n with
  | some (v, true) => some (signed13 v)
  | _ => none

/-- A sensor is converted in the power state at hand (R392, Table 19.4). -/
def converted (s : State) (n : Nat) : Bool :=
  match s.pck.pow with
  | .run | .idle | .sleep | .entering | .warm | .powerFail => decide (n < 50)
  | .deepSleep => decide (32 ≤ n) && decide (n < 48)
  | _ => false

/-- A conversion ends (R392): the offset of the calibration is added; a failed conversion or a reading outside −40 °C to 150 °C is invalid. -/
def sensorConversion (n : Nat) (raw : Int) (ok : Bool) (s : State) : State :=
  if !converted s n then s else
  let t := raw + signed8 (s.rd F.CST_CAL_TOFS_TOFS n)
  let valid := ok && decide (-640 ≤ t) && decide (t ≤ 2400)
  let s := { s with thm.temp := SMap.set s.thm.temp n (twos 13 t, valid) }
  if !valid then s.raiseLasting (2000 + n) 243 .warn n 0
  else
    let m := min 4095 t.toNat
    if SMap.getD s.thm.tmax n 0 < m then { s with thm.tmax := SMap.set s.thm.tmax n m } else s

/-- The sensors of a kind: J, C, D (Table 19.1). -/
def sensorsJ : List Nat := List.range 24
/-- See `sensorsJ`. -/
def sensorsC : List Nat := (List.range 8).map (24 + ·)
/-- See `sensorsJ`. -/
def sensorsD : List Nat := (List.range 16).map (32 + ·)

/-- The largest excess and the first sensor that gives it (R393, R394). A substituted reading equals the highest valid one of its kind, so it adds nothing. -/
def excess (s : State) : Nat × Option Nat :=
  let one (thr : Nat) (acc : Nat × Option Nat) (n : Nat) : Nat × Option Nat :=
    match validTemp s n with
    | some t => let e := (t - 16 * (thr : Int)).toNat; if acc.1 < e then (e, some n) else acc
    | none => acc
  let a := sensorsJ.foldl (one (s.rd F.THM_THR_THR_J)) (0, none)
  let a := sensorsC.foldl (one (s.rd F.THM_THR_THR_C)) a
  sensorsD.foldl (one (s.rd F.THM_THR_THR_D)) a

/-- A kind has no valid reading: theta is held at 500 per-mille or higher (R393). -/
def blind (s : State) : Bool :=
  [sensorsJ, sensorsC, sensorsD].any fun l => l.all fun n => (validTemp s n).isNone

/-- The new theta from the excess (R394). -/
def nextTheta (s : State) (e : Nat) : Nat :=
  let theta := s.reg.thetaNext
  let target := min (s.rd F.THM_CTL_CAP) (s.rd F.THM_CTL_SLOPE * e / 16)
  let t := if theta ≤ target then target else max target (theta - s.rd F.THM_CTL_FALL)
  if blind s then max 500 t else t

/-- Sixteenths of a degree as tenths, rounding down. -/
def tenths (t : Int) : Int := 10 * t / 16

/-- Count a computation with a condition: the new count, at most three, and whether it has just reached three. -/
def countThree (old : Nat) (holds : Bool) : Nat × Bool :=
  if holds then (min 3 (old + 1), old == 2) else (0, false)

/-- The inlet of R402. -/
def inletCheck (s : State) (i : Int) : State :=
  let (n, now3) := countThree s.thm.hotIn (decide ((16 * s.rd F.THM_COOL_INLET_MAX : Nat) < 10 * i))
  let s := { s.wr F.THM_COOL_STAT_INLET (twos 11 (tenths i)) with thm.hotIn := n }
  if now3 then s.raiseG 244 .warn 48 (twos 24 (tenths i)) else s

/-- The rise of R402. -/
def riseCheck (s : State) (d : Int) : State :=
  let (n, now3) := countThree s.thm.hotRise (decide ((16 * s.rd F.THM_COOL_RISE_MAX : Nat) < 10 * d))
  let s := { s.wr F.THM_COOL_STAT_RISE (twos 11 (tenths d)) with thm.hotRise := n }
  let s := if now3 then s.raiseG 245 .degrade 49 (twos 24 (tenths d)) else s
  if d < -16 then s.raiseLasting 2049 243 .warn 49 0 else s

/-- The coolant checks of R402. An invalid reading interrupts a count. -/
def coolantCheck (s : State) : State :=
  match validTemp s 48, validTemp s 49 with
  | some i, some o => riseCheck (inletCheck s i) (o - i)
  | some i, none => { inletCheck s i with thm.hotRise := 0 }
  | none, _ => { s with thm.hotIn := 0, thm.hotRise := 0 }

/-- The computation of each 1 ms (R394, R395, R402). -/
def throttleCompute (s : State) : State :=
  if !converted s 0 then s else
  let (e, hot) := excess s
  let old := s.reg.thetaNext
  let t := nextTheta s e
  let s := ((s.wr F.THM_STAT_THETA t).wr F.THM_STAT_HOT_SENS (hot.getD 63)).wr F.THM_STAT_EXCESS (min 4095 e)
  let s := { s with reg.thetaNext := t }
  let s := if 0 < t then s.inc F.THM_CNT_THR_MS else s
  let s := if old = 0 ∧ 0 < t then
      match hot with
      | some n => s.raiseG 240 .warn n t
      -- theta leaves 0 under R393 with no excess: the spec names no sensor
      | none => let (v, s) := s.draw; s.raiseG 240 .warn (v % 50) t
    else s
  coolantCheck s

/-- Latch the shutdown in the always-on domain (R308, R396, Table 19.10). -/
def latchTrip (s : State) (kind src n : Nat) (isD : Bool) (t : Int) : State :=
  let fresh := s.thm.shut.isNone
  let s := { s with fcr.latched := s.fcr.latched ++ [(src, n, twos 24 (t / 16))] }
  if !fresh then s else
  let s := (((s.wr F.THM_TRIP_TS_KIND kind).wr F.THM_TRIP_TS_SENS n).wr F.THM_TRIP_TS_TEMP (twos 13 t)).wr F.THM_TRIP_TS_DS
    (b2n (s.pck.pow == .deepSleep))
  { s.wr F.THM_TRIP_TS_NEW 1 with thm.shut := some isD }

/-- The sequence of Table 19.2 runs from the state reached (R396, Table 19.4). -/
def shutdownRun (s : State) (isD : Bool) : State :=
  match s.pck.pow with
  | .powerFail => if beforeSwitch s then s else { s with thm.tripped := true }
  | .deepSleep => { loseContent s with thm.tripped := true, pck.pow := .off, pck.kindLost := true }.wr F.PCK_STAT_KEEL_MODE 0
  | _ =>
    if isD then
      let s := isolateMain (loseContent (beginSequence s))
      { s.wr F.PCK_STAT_KEEL_MODE 1 with thm.tripped := true }
    else channels.foldl flushOrder (beginSequence s)

/-- A valid reading at or above a limit of Table 19.1, with the kind of its sensor. -/
def overLimit (s : State) (n limJ limD : Nat) : Option (Bool × Int) :=
  if !converted s n then none else
  match validTemp s n with
  | some t =>
    if n < 24 then (if (16 * limJ : Nat) ≤ t then some (false, t) else none)
    else if 32 ≤ n ∧ n < 48 then (if (16 * limD : Nat) ≤ t then some (true, t) else none)
    else none
  | none => none

/-- R396: a J sensor at 115 °C or a D sensor at 105 °C starts the managed shutdown. The first crossing fixes the kind. -/
def managedShutdown (n : Nat) (s : State) : State :=
  match overLimit s n 115 105 with
  | none => s
  | some (isD, t) => if s.thm.shut.isSome then s else shutdownRun (latchTrip s (if isD then 2 else 1) 241 n isD t) isD

/-- R397: the hardware-only threshold asserts THERMTRIP# at once, and starts the sequence if none has started. -/
def hwThermalTrip (n : Nat) (s : State) : State :=
  match overLimit s n 123 113 with
  | none => s
  | some (isD, t) =>
    if s.thm.tripped && s.fcr.latched.any (·.1 == 242) then s else
    let first := s.thm.shut.isNone
    let s := latchTrip s 3 242 n isD t
    { (if first then shutdownRun s isD else s) with thm.tripped := true }

/-- MAIN_GOOD rises: the latch clears when it was low for at least 1 ms and VBKP is present (R399). -/
def tripClear (s : State) : State :=
  if s.pck.vbkp && decide (s.pck.mainLow + msec ≤ s.now) then { s with thm.shut := none, thm.tripped := false } else s

/-- THERMTRIP_LATCH_CLEAR: the rise of MAIN_GOOD that clears the latch. -/
def thermtripLatchClear (s : State) : State := if s.pck.mainGood then s else tripClear s

/-- `CNT_CLR` of THM_CTL (Table 19.5). -/
def thmClear (s : State) : State := { s.wr F.THM_CNT_THR_MS 0 with thm.tmax := [] }

end Sys2Proof.Machine
end

