-- ==== Sys2Proof/Machine/Boot.lean ====
section
/-! DEFINITION. Cold boot: fuses, the scan of the persistent store, self-test, the steps of Table 17.1, and link-ready (ch. 15, 17, R424). -/

namespace Sys2Proof.Machine

/-! ## The anti-fuse array (R333 to R337, R456) -/

/-- The rows of a fuse region (Table 15.4): its first row and its number of rows. -/
def fuseRows (r : Nat) : Nat × Nat :=
  match r with
  | 0 => (0, 2) | 1 => (2, 14) | 2 => (16, 1) | 3 => (17, 4) | 4 => (21, 4) | 5 => (25, 3) | 6 => (28, 1) | 7 => (29, 1) | _ => (32, 32)

/-- The first word of a region, and its number of words. -/
def fuseSpan (r : Nat) : Nat × Nat := let x := fuseRows r; (4 * x.1, 4 * x.2)

/-- The regions that can be locked. -/
def lockable : List Nat := [0, 1, 2, 3, 4, 5, 8]

/-- The region of a fuse word, if it lies in one. -/
def fuseRegion (w : Nat) : Option Nat := (List.range 9).find? fun r =>
  let x := fuseSpan r
  decide (x.1 ≤ w) && decide (w < x.1 + x.2)

/-- The content words that a region is shipped with (R456), without its digest. -/
def shipped (w : Nat) : Nat :=
  if w < 4 then Config.serial / 2 ^ (32 * w) % 2 ^ 32
  else if w = 4 then 0x10 + Config.crev % 256 * 2 ^ 8 + Config.drev % 256 * 2 ^ 16 + 0x81 * 2 ^ 24
  else if w = 5 then Config.idVendor % 65536
  else if w = 116 then 0x2B
  else match fuseRegion w with
    | some 1 => Config.fuseWord w % 2 ^ 32
    | some 3 => Config.fuseWord w % 2 ^ 32
    | some 5 => Config.fuseWord w % 2 ^ 32
    | _ => if w = 504 ∨ w = 505 then Config.fuseWord w % 2 ^ 32 else if w = 508 ∨ w = 509 then Config.fuseWord (w - 4) % 2 ^ 32 else 0

/-- A fuse word as shipped: complete regions end in their check word and their marker (R333, R456). -/
def factoryWord (w : Nat) : Nat :=
  match fuseRegion w with
  | some r =>
    let (b, n) := fuseSpan r
    if ¬ (r = 0 ∨ r = 1 ∨ r = 3 ∨ r = 5) then shipped w
    else if w = b + n - 1 then 0x5EA10000 + r
    else if w = b + n - 2 then crcWords ((List.range (n - 2)).map fun k => shipped (b + k))
    else shipped w
  | none => shipped w

/-- A fuse word of the array: as shipped, with what has been blown since (an unblown bit reads 0). -/
def fuseCell (s : State) (w : Nat) : Nat := Nat.lor (factoryWord w) (SMap.getD s.pst.blown w 0)

/-- A word of the shadow latches (R335). -/
def fuseLatch (s : State) (w : Nat) : Nat := SMap.getD s.pst.latch w 0

/-- The valid entries of the redirection table: (spare, row) (R334). `weak` says which rows are marginal. -/
def redirTable (s : State) (weak : Nat → Bool) : List (Nat × Nat) :=
  let entry (base k : Nat) : Nat := bits (fuseCell s (base + k / 4)) (8 * (k % 4)) 8
  let read (base : Nat) : List (Nat × Nat) :=
    (List.range 8).filterMap fun k => if bit (entry base k) 7 then some (k, entry base k % 128) else none
  if !weak 126 then read 504 else if !weak 127 then read 508 else []

/-- The content of a used spare: what its row was shipped with, and what has been blown into the spare. -/
def spareCell (s : State) (k row j : Nat) : Nat := Nat.lor (factoryWord (4 * row + j)) (SMap.getD s.pst.blownSpare (4 * k + j) 0)

/-- A region's marker and check word are valid in the latches (Table 15.12). -/
def fuseComplete (s : State) (r : Nat) : Bool :=
  let (b, n) := fuseSpan r
  fuseLatch s (b + n - 1) == 0x5EA10000 + r && fuseLatch s (b + n - 2) == crcWords ((List.range (n - 2)).map fun k => fuseLatch s (b + k))

/-- The regions that are locked: those of region 7, or every lockable region when region 7 has failed (Table 15.5). -/
def fuseLocked (s : State) (r : Nat) : Bool :=
  lockable.contains r && (bit (fuseLatch s 116) r || bit (s.rd F.PST_FUSE_STAT_FFAIL) 7)

/-- Steps of the thermometer blown in a 64-bit pattern. -/
def thermSteps (v : Nat) : Nat := popCount v 64

/-- A row is read into its latches; a marginal row takes its spare, or fails (R335). The failed rows are collected. -/
def latchRow (weak weakSpare : Nat → Bool) (redir : List (Nat × Nat)) (acc : State × List Nat) (row : Nat) : State × List Nat :=
  let (s, bad) := acc
  let put (s : State) (f : Nat → Nat) : State :=
    (List.range 4).foldl (fun t j => { t with pst.latch := SMap.put t.pst.latch (4 * row + j) 0 (f j) }) s
  let spare := (redir.find? fun e => e.2 == row && !weakSpare e.1).map (·.1)
  if !weak row then (put s fun j => fuseCell s (4 * row + j), bad)
  else match spare with
    | some k => ((put s fun j => spareCell s k row j).raiseG 255 .warn row 3, bad)
    | none => ((put s fun j => fuseCell s (4 * row + j)).raiseG 255 .warn row 1, bad ++ [row])

/-- Fuse read and digest check (R335, R336): the answer is the set of failed regions. -/
def fuseRead (weak weakSpare : Nat → Bool) (s : State) : State × Nat :=
  let redir := redirTable s weak
  let (s, bad) := (List.range 128).foldl (latchRow weak weakSpare redir) ({ s with pst.redir := redir }, [])
  let byRow := (List.range 9).filter fun r => bad.any fun row => fuseRegion (4 * row) == some r
  let s := s.wr F.PST_FUSE_STAT_FFAIL (maskOf byRow)
  -- the lock bits as read; that a failed region 7 locks every region is the boot ROM's outcome, which comes after (R337)
  let digest := lockable.filter fun r => bit (fuseLatch s 116) r && !fuseComplete s r
  let s := digest.foldl (fun t r => t.raiseG 255 .warn ((fuseRows r).1 + (fuseRows r).2 - 1) 4) s
  let all := maskOf (byRow ++ digest)
  let marginal := ((List.range 128).filter weak).length
  let s := ((s.wr F.PST_FUSE_STAT_FFAIL all).wr F.PST_FUSE_STAT_FMARG (min 255 marginal)).wr F.PST_FUSE_STAT_FSPARE redir.length
  (s, if bad.isEmpty then all else all + 512)

/-- `FLOCKED` follows the latches. -/
def showLocks (s : State) : State := s.wr F.PST_FUSE_LOCKS_FLOCKED (maskOf ((List.range 9).filter (fuseLocked s)))

/-- What the latches show in registers: identity, locks, rollback count, the service key (R1, R337, Tables 13.9, 15.11, 21.x). `raised` is the
thermometer at the raised margin (Table 15.5). -/
def fuseShow (raised : Nat) (s : State) : State :=
  let w := fuseLatch s
  let s := (List.range 4).foldl (fun t k => t.wr F.GLB_SERIAL_SERIAL (w k) k) s
  let s := ((s.wr F.GLB_ID_JREV (bits (w 4) 0 8)).wr F.GLB_ID_CREV (bits (w 4) 8 8)).wr F.GLB_ID_DREV (bits (w 4) 16 8)
  let s := s.wr F.SVC_USB_ID_VID (bits (w 5) 0 16)
  let normal := thermSteps (w 112 + w 113 * 2 ^ 32)
  let svn := if bit (s.rd F.PST_FUSE_STAT_FFAIL) 6 then max normal (thermSteps raised) else normal
  let key := if (List.range 12).any fun k => w (128 + k) != 0 then 1 else if (List.range 12).any fun k => w (84 + k) != 0 then 2 else 3
  showLocks ((s.wr F.MGT_SVN_SVN_FUSE svn).wr F.SVC_AUTH_STAT_KEY_SRC key)

/-! ## The scan of the persistent store (R314, R325, R329 to R332) -/

/-- R329: source 253, counted. -/
def raiseTorn (s : State) (area idx : Nat) : State := (s.raiseG 253 .info area idx).inc F.PST_REC_TORN_CNT
/-- R329: source 254, counted. -/
def raiseGone (s : State) (area idx : Nat) : State := (s.raiseG 254 .fault area idx).inc F.PST_REC_LOST_CNT

/-- Wear after a write (R327): 251 at the warning level, 252 at the limit. -/
def wearEvents (s : State) (idx old new : Nat) : State :=
  let s := if old < wearWarn ∧ wearWarn ≤ new then s.raiseG 251 .warn 0 idx else s
  if old < wearLimit ∧ wearLimit ≤ new then s.raiseG 252 .degrade 0 idx else s

/-- A word's wear becomes `n`; the counter saturates at its width. -/
def setWear (s : State) (idx n : Nat) : State :=
  let old := s.wearAt idx
  let n := min n (2 ^ 20 - 1)
  wearEvents { s with pst.wear := SMap.put s.pst.wear idx 0 n } idx old n

/-- A corrected word is rewritten, which adds to its wear (R332); a word at its limit is left (R327). -/
def rewriteWord (s : State) (idx : Nat) : State := if s.wearAt idx ≥ wearLimit then s else setWear s idx (s.wearAt idx + 1)

/-- Sixteen bits of a repair-map word as an entry of the table (R330). -/
def rmapDecode (v : Nat) : Nat := if v = 0 then 0 else if bit v 15 then v else 1

/-- One word of the repair map (R330): offset in the copy. -/
def rmapLoadWord (s : State) (k : Nat) : State :=
  let i0 := 0x0C0000 + k
  let i1 := 0x0D0000 + k
  let bad0 := s.pst.bad.contains i0
  let bad1 := s.pst.bad.contains i1
  let put (s : State) (v : Nat) : State :=
    let key := k / 16 * 32 + k % 16 * 2
    { s with tsv.rmap := SMap.put (SMap.put s.tsv.rmap key 0 (rmapDecode (v % 65536))) (key + 1) 0 (rmapDecode (v / 65536 % 65536)) }
  if bad0 && bad1 then raiseGone (put s 0x00010001) 0 k
  else if bad0 then raiseTorn (put s (s.mramAt i1)) 0 k
  else if bad1 then raiseTorn (put s (s.mramAt i0)) 0 k
  else if s.mramAt i0 = s.mramAt i1 then put s (s.mramAt i0)
  else (put s (s.mramAt i1)).portPut [{ cls := 1, idx := i0, mask := 2 ^ 32 - 1, val := s.mramAt i1, act := .none }]

/-- A valid entry that names the row of a lower-numbered valid entry of its bank is unusable, in both copies (R250, R330). -/
def rmapDoubles (s : State) : State :=
  let doubled := s.tsv.rmap.filter fun e => decide (0x8000 ≤ e.2) && s.tsv.rmap.any fun d => d.1 / 32 == e.1 / 32 && decide (d.1 < e.1) && d.2 == e.2
  doubled.foldl (fun t e =>
    let ch := e.1 / 4096
    let bank := e.1 / 32 % 128
    ({ t with tsv.rmap := SMap.put t.tsv.rmap e.1 0 1 }).portPut (rmapWords ch bank (e.1 % 32) 1 .none)) s

/-- The remap table is loaded from the repair map (R330). Words that hold zero in both copies are free spares. -/
def rmapLoad (s : State) : State :=
  let inMap (i : Nat) : Bool := decide (0x0C0000 ≤ i) && decide (i < 0x0E0000)
  let used := ((s.pst.mram.map (·.1)) ++ s.pst.bad).filter inMap
  rmapDoubles ((used.map fun i => (i - 0x0C0000) % 65536).eraseDups.foldl rmapLoadWord { s with tsv.rmap := [] })

/-- A channel's retired resources (R331), with R329. -/
def retireLoad (s : State) (ch : Nat) : State :=
  let ok0 := retireOk s ch 0
  let ok1 := retireOk s ch 1
  match newerCopy ok0 ok1 (s.mramAt (retireIdx ch 0)) (s.mramAt (retireIdx ch 1)) with
  | none => raiseGone s 4 ch
  | some k =>
    let w (j : Nat) : Nat := s.mramAt (retireIdx ch k + j)
    let s := ((s.wr F.TSV_PHY_DEAD0_PHY_DEAD (w 1) ch).wr F.TSV_PHY_DEAD1_PHY_DEAD (w 2) ch).wr F.TSV_PHY_DEAD2_PHY_DEAD (w 3) ch
    let s := (s.wr F.TSV_CA_CA_DEAD (bits (w 4) 0 26) ch).wr F.TSV_CA_STB_DEAD (bits (w 4) 26 5) ch
    let s := ((s.wr F.TSV_STAT_DFAIL (bits (w 5) 0 3) ch).wr F.TSV_STAT_CA_SPARES (bits (w 5) 3 2) ch).wr F.TSV_STAT_STB_SPARE (bits (w 5) 5 1) ch
    if ok0 && ok1 then s else
    (raiseTorn s 4 ch).portPut ((List.range 8).map fun j =>
      { cls := 4, idx := retireIdx ch (1 - k) + j, mask := 2 ^ 32 - 1, val := w j, act := .none })

/-- `RSEQ` of a copy of a fault-log entry, if the copy is valid (R314, R328). -/
def logSeq (s : State) (copy e : Nat) : Option Nat :=
  let i := 0x0E0000 + 0x20000 * copy + 16 * e
  let ws := (List.range 16).map fun k => s.mramAt (i + k)
  if ws.getD 15 0 = crcWords (ws.take 15) ∧ ¬ (s.pst.bad.any fun b => decide (i ≤ b) && decide (b < i + 16)) then some (ws.getD 0 0) else none

/-- `RSEQ` of a fault-log entry: the newer valid copy. -/
def entrySeq (s : State) (e : Nat) : Option Nat :=
  match logSeq s 0 e, logSeq s 1 e with
  | some a, some b => some (if newerSeq b a then b else a)
  | some a, none => some a
  | none, b => b

/-- An entry of the fault log with a copy that fails its check (R329): 253 when the other is valid, 254 when neither is. An entry whose words were never
written is no record (log entry 130). -/
def logTorn (s : State) (e : Nat) : State :=
  let used (copy : Nat) : Bool :=
    let i := 0x0E0000 + 0x20000 * copy + 16 * e
    (List.range 16).any fun k => s.mramAt (i + k) != 0 || s.pst.bad.contains (i + k)
  match (logSeq s 0 e).isSome, (logSeq s 1 e).isSome with
  | true, true => s
  | false, false => if used 0 || used 1 then raiseGone s 3 e else s
  | _, _ => raiseTorn s 3 e

/-- The head of the fault log, and the next sequence number (R314). An empty log continues from stack word 9 (Table 15.2). -/
def logScan (s : State) : State :=
  let best := (List.range 8192).foldl (fun (acc : Option (Nat × Nat)) e =>
    match entrySeq s e, acc with
    | some q, some (_, m) => if newerSeq q m then some (e, q) else acc
    | some q, none => some (e, q)
    | none, _ => acc) none
  let (head, next) := match best with
    | some (e, q) => ((e + 1) % 8192, (q + 1) % 2 ^ 32)
    | none => (0, s.mramAt (pregIdx 9))
  (List.range 8192).foldl logTorn (((s.wr F.FCR_LOG_LOG_HEAD head).wr F.FCR_LOG_SEQ_RSEQ_NEXT next).putStackWord 9 0 32 next)

/-- The stack words appear in their registers (Table 15.2). -/
def stackWords (s : State) : State :=
  let w (n : Nat) : Nat := s.mramAt (pregIdx n)
  let fs := bits (w 3) 2 3
  let s := (s.wr F.PST_LIFE_LIFE_S (w 0 + s.pst.lifeAon)).wr F.PST_BOOTS_BOOTS (w 1)
  let s := (s.wr F.FCR_RECOV_RECOVERIES (w 2)).wr F.TSV_FOLD_CTL_FR_MODE (bits (w 3) 0 1)
  let s := (s.wr F.TSV_FOLD_CTL_FOLD_AUTO (bits (w 3) 1 1)).wr F.TSV_FOLD_STAT_FSTATE fs
  let s := (s.wr F.TSV_FOLD_STAT_FOLDED_CH (bits (w 3) 5 5)).wr F.TSV_FOLD_PTR_FOLD_PTR (bits (w 4) 0 22)
  let s := (s.wr F.MGT_BOOT_BOOT_SLOT (bits (w 5) 0 1)).wr F.GLB_PLOCK_PLOCK (bits (w 5) 8 8)
  let s := (s.wr F.FCR_LOG_LOG_WEAR (bits (w 5) 16 1)).wr F.MGT_FWVER_A_VER_A (w 6)
  (((s.wr F.MGT_FWVER_B_VER_B (w 7)).wr F.MGT_SVN_SVN_A (bits (w 8) 0 7)).wr F.MGT_SVN_SVN_B (bits (w 8) 7 7))

/-- The whole scan (R332). `weak` are words that were corrected and are rewritten, `gone` words that are uncorrectable. The fault log comes first: what the
other records raise is logged behind its head. -/
def storeScan (weak gone : List Nat) (s : State) : State :=
  let s := weak.foldl rewriteWord { s with pst.bad := gone }
  calLoad (channels.foldl retireLoad (rmapLoad (logScan (stackWords s))))

/-! ## The steps of Table 17.1 -/

/-- The state at step 2: what the always-on domain, the fuses and the MRAM keep (R5, R352). -/
def bootState (s : State) : State :=
  let z := State.reset
  let aon : List Fld := [F.THM_TRIP_TS_KIND, F.THM_TRIP_TS_SENS, F.THM_TRIP_TS_TEMP, F.THM_TRIP_TS_DS, F.THM_TRIP_TS_NEW]
  let t : State := { z with
    pending := s.pending
    now := s.now
    upBase := if s.pck.vbkp then s.upBase else s.now
    free := s.free
    out := s.out
    link := { refclk := s.link.refclk }
    fcr := { latched := s.fcr.latched, loss := s.fcr.loss }
    thm := { shut := s.thm.shut, tripped := s.thm.tripped }
    pst := { mram := s.pst.mram, wear := s.pst.wear, bad := s.pst.bad, blown := s.pst.blown, blownSpare := s.pst.blownSpare, lifeAon := s.pst.lifeAon, port := s.pst.port }
    pck := { pow := .boot, step := 2, since := s.now, vbkp := true, mainGood := true, resetLow := s.pck.resetLow, refclk := s.pck.refclk
             lost := s.pck.lost, kindLost := s.pck.kindLost, mainLow := s.pck.mainLow } }
  if s.pck.vbkp then aon.foldl (fun u f => u.wr f (s.rd f)) t else t

/-- COLD_BOOT (R352): main power arrives with no retained content, or VBKP returns. Out of an OFF that PWR_ENTER led to, only STK_WAKE leads (Table 18.5). -/
def coldBoot (s : State) : State :=
  let s := if s.pck.mainGood then s else tripClear s
  if s.pck.pow ≠ .off ∨ s.thm.shut.isSome ∨ (s.pck.offReq ∧ s.pck.wake ≠ some 3) then s else
  let t := (bootState s).wr F.PCK_STAT_VBKP_OK 1
  if s.pck.wake = some 3 then t.wr F.PCK_STAT_WAKE_SRC 3 else t

/-- Step 4 begins. -/
def bistBegin (s : State) : State :=
  let s := ((s.wr F.CST_BIST_STAT_BIST_FAIL 0).wr F.CST_BIST_STAT_BIST_RERUN 0).wr F.CST_BIST_DET_DET_BLK 7
  { s.wr F.CST_BIST_DET_DET_ELEM 0 with
    pck.step := 4, pck.stepAt := s.now, pck.bistRan := [], pck.bistEnd := [], pck.tiers := 0, pck.noDie := 0 }

/-- Steps 2 and 3 (R335 to R337, R326, R353, R424), and the scan of step 4 (R330, R332). Marginal rows and spares, the thermometer at the raised margin,
words of MRAM corrected and uncorrectable, and TEST_EN are what the reads find. -/
def powerOnRelease (weakRows weakSpares : List Nat) (raised : Nat) (testEn : Bool) (weak gone : List Nat) (s : State) : State :=
  if s.pck.pow ≠ .boot ∨ s.pck.step ≠ 2 ∨ ¬ s.pck.refclk then s else
  let (s, failed) := fuseRead (weakRows.contains ·) (weakSpares.contains ·) { tapReset s with pck.test := testEn }
  let policy := if bit failed 2 then true else bit (fuseLatch s 64) 0
  let s := fuseShow raised (s.wr F.PST_FUSE_STAT_POLICY (b2n policy))
  let s := stackWords s
  let boots := min (s.rd F.PST_BOOTS_BOOTS + 1) (2 ^ 32 - 1)
  let s := (s.wr F.PST_BOOTS_BOOTS boots).putStackWord 1 0 32 boots
  if testEn ∨ (policy ∧ failed ≠ 0) then { s with pck.pow := .hold, pck.step := 0 }
  else
    let s := (storeScan weak gone s).wr F.PST_BOOTS_BOOTS boots
    if s.pck.resetLow then { s with pck.step := 3 } else bistBegin s

/-- A block's failure is handled (Table 17.2). `fails`: kind, unit and index of each failing element. Block 2: ways (0) and tag arrays (1); block 3: data (0),
command/address (1) and strobe (2) lines; block 4: lanes. -/
def bistHandle (b : Nat) (fails : List (Nat × Nat × Nat)) (s : State) : State :=
  let faulted (s : State) (sl : Nat) : State :=
    if s.on F.SCC_STAT_SFAULT sl then s else ((s.wr F.SCC_STAT_SFAULT 1 sl).wr F.SCC_STAT_FCAUSE 5 sl).raiseG 263 .fault sl 5
  let one (s : State) (f : Nat × Nat × Nat) : State :=
    let (kind, u, n) := f
    match b with
    | 2 =>
      if kind = 0 then
        let d := setBit (s.rd F.SCC_WAYS_WAY_DIS u) n
        let s := (s.wr F.SCC_WAYS_WAY_DIS d u).raiseG 264 .warn u n
        if popCount d 16 ≥ s.rd F.SCC_CTL_DIS_LIM u then faulted s u else s
      else faulted s u
    | 3 => if kind = 0 then declareDead u n s else if kind = 1 then caFail u n s else strobeFail u n s
    | 4 => s.modGrp u fun x => { x with bad := setBit x.bad n }
    | _ => s
  fails.foldl one s

/-- A BIST block may run: its chain has come to it (R356). -/
def bistTurn (s : State) (b : Nat) : Bool :=
  !s.pck.bistEnd.contains b && (match b with
    | 1 => s.pck.bistEnd.contains 0
    | 4 => s.pck.bistEnd.contains 3
    | _ => decide (b < 5))

/-- A BIST block finishes (R357): a failing block is run once more if its second run can end within 40 ms. `dur` in 10 µs units, coverage in 0.1%. -/
def bistBlockEnd (b : Nat) (pass : Bool) (dur covSa covTr elem : Nat) (fails : List (Nat × Nat × Nat)) (s : State) : State :=
  if s.pck.pow ≠ .boot ∨ s.pck.step ≠ 4 ∨ ¬ bistTurn s b then s else
  let full := b = 1 ∨ b = 2
  let s := ((s.wr F.CST_BIST_COV_SA (if full then 1000 else covSa) b).wr F.CST_BIST_COV_TR covTr b).wr F.CST_BIST_DUR dur b
  let first := !s.pck.bistRan.contains b
  if !pass && first && decide (s.now + dur * 10 * usec ≤ s.pck.stepAt + 40 * msec) then
    { s.wr F.CST_BIST_STAT_BIST_RERUN (setBit (s.rd F.CST_BIST_STAT_BIST_RERUN) b) with pck.bistRan := s.pck.bistRan ++ [b] }
  else
    let s := { s with pck.bistEnd := s.pck.bistEnd ++ [b] }
    let s := if pass then s else
      let s := s.wr F.CST_BIST_STAT_BIST_FAIL (setBit (s.rd F.CST_BIST_STAT_BIST_FAIL) b)
      let s := if b < s.rd F.CST_BIST_DET_DET_BLK then (s.wr F.CST_BIST_DET_DET_BLK b).wr F.CST_BIST_DET_DET_ELEM elem else s
      bistHandle b fails (s.raiseG 277 .degrade b 0)
    if s.pck.bistEnd.length < 5 then s else
    let s := s.wr F.CST_BIST_STAT_STEP_TIME (min 4095 ((s.now - s.pck.stepAt) / (10 * usec)))
    calStart { s with pck.step := 50 } 31 none

/-- A run ends (R343 to R348); the first of a boot ends step 5a. -/
def calibrationRunEnd (res : Nat) (codes : List Nat) (good held : Nat) (s : State) : State :=
  if s.cst.run.isNone then s else
  let s := calEnd res codes good held s
  if s.pck.pow = .boot ∧ s.pck.step = 50 then { s with pck.step := 51 } else s

/-- The folded channel, when a fold is done. -/
def foldedCh (s : State) : Option Nat := if s.fstate = fDone then some (s.rd F.TSV_FOLD_STAT_FOLDED_CH) else none

/-- Training of every channel whose dies answer begins (step 5c): R241, R189, R354. -/
def trainAll (s : State) : State :=
  let one (s : State) (c : Nat) : State :=
    if foldedCh s = some c then s
    else match (List.range 4).find? fun r => bit s.pck.noDie (dieOf c r) with
    | some r => trainEnd s c { rank := r, began := s.now } false
    | none => trainStart (rebuildMap s c) c false [0, 1, 2, 3]
  channels.foldl one s

/-- Every training has ended: step 6 begins. -/
def trainDone (s : State) : State :=
  if s.pck.pow = .boot ∧ s.pck.step = 52 ∧ channels.all (fun c => (s.dmcOf c).train.isNone) then { s with pck.step := 6 } else s

/-- A tier of dies is ready, or 26 ms have passed (R354). `silent` are the dies of the tier that do not answer, by position. -/
def dramTierReady (silent : Nat) (s : State) : State :=
  if s.pck.pow ≠ .boot ∨ s.pck.step ≠ 51 then s else
  let s := { s with pck.tiers := s.pck.tiers + 1, pck.noDie := Nat.lor s.pck.noDie (silent % 16 * 2 ^ (4 * s.pck.tiers)) }
  if s.pck.tiers < 4 then s else trainDone (trainAll { s with pck.step := 52 })

/-- A training step ends (R190). A channel left untrained after DEEP SLEEP is folded (R258). -/
def rankTrainingEnd (ch : Nat) (pass : Bool) (code vref dead : Nat) (lines : List Nat) (s : State) : State :=
  let inRun : Bool := match (s.dmcOf ch).train with
    | some t => t.inRun
    | none => true
  let was := s.cstate ch
  let s := trainStepEnd ch pass code vref dead lines s
  let s := if was = 1 ∧ s.cstate ch = 0 ∧ ¬ inRun ∧ s.rd F.CST_BOOT_STAT_BOOT_KIND = 2 ∧ s.pck.pow ≠ .boot then
      (if s.fstate = fReady then startFold s ch else tsvEvent s ch 8 0) else s
  trainDone (foldResume s)

/-- A sector fails its verify read (R232): logged, and its row handed over when the second read fails too. `err` is the error of one codeword. -/
def verifyFail (s : State) (v : FillFail) : State :=
  let ⟨ch, bank, row, k, beat, err, again⟩ := v
  if s.cstate ch ≠ 2 then s else
  let ps := physSector ch bank row k
  let bs := readBeats zeroSector (deadPos s ch) fun j => if j = beat then err else 0
  let s := reportBeats s (whereOf ch ps 5 none) bs
  if again then (handOver s ch bank row).1 else s

/-- A fold that a cold boot finds (Table 11.6, R257): READY with an untrained channel, interrupted moves, CLEAN. -/
def foldAtStart (s : State) : State :=
  let untrained := channels.filter fun c => s.cstate c == 0
  match s.fstate, untrained with
  | 1, c :: _ => foldAtBoot s c
  | 3, _ => foldAtBoot s (s.rd F.TSV_FOLD_STAT_FOLDED_CH)
  | 4, _ => foldAtBoot s (s.rd F.TSV_FOLD_STAT_FOLDED_CH)
  | _, _ => s

/-- Step 6 ends, and steps 7 and 8 begin (R231, R232, R264, R365). `codes` are those of the crossing training, `bad` the slices that fail it. -/
def initFillEnd (codes bad : List Nat) (fails : List FillFail) (s : State) : State :=
  if s.pck.pow ≠ .boot ∨ s.pck.step ≠ 6 then s else
  let kind := if s.pck.kindLost then 1 else 0
  let lost := if s.pck.kindLost then 2 ^ 32 - 1 else 0
  let since := s.pck.since
  -- the fill writes every stroke word as zero, and the close of each row's verify counts once (R204, R205)
  let s := { s with mem := [], memMeta := [], memErr := [], rfm.stroke := [], rfm.strokeBase := strokeWord 1 }
  let s := fails.foldl verifyFail s
  let s := foldAtStart s
  let f := foldedCh s
  let s := match f with
    | some c => (s.wr F.DMC_STAT_CSTATE 0 c).setDmc c {}
    | none => s
  let s := channels.foldl freshSlice (crossingCodes s codes)
  let s := bad.foldl (fun t sl => sliceFault sl 1 t) s
  let s := ((s.wr F.SVC_STAT_MEM_RDY 1).wr F.PCK_CLK_MCK_LOCK 1).wr F.PCK_CLK_STBY_LOCK 1
  let s := reportStart s kind 0 lost (kind != 0)
  let s := coresToRom (regStart (raiseLatched { s with pck.pow := .run, pck.step := 8, pck.since := since }))
  let s := if s.fstate = fClean then startFold s (s.rd F.TSV_FOLD_STAT_FOLDED_CH) else s
  startGroups s false

/-- Link-ready (R68): what a start still owes (R359, R365), and the fold resumes (Table 11.6). -/
def linkReadyStep (s : State) : State :=
  let up := s.link.up
  let s := linkReady s
  if up ∨ ¬ s.link.up then s else
  let s := if s.pck.step ≠ 8 then s else
    let s : State := { s.wr F.CST_BOOT_TIME_LR_TIME (min 65535 ((s.now - s.pck.since) / (10 * usec))) with pck.step := 0 }
    if s.rd F.CST_BOOT_STAT_BOOT_KIND = 3 then s.raiseG 284 .info (s.rd F.CST_BOOT_STAT_WCAUSE) 0 else s
  foldResume s

/-! ## Pins and supplies (R377, R379, R412) -/

/-- The reset is released: the pin is high, and the stack restarts, or a cold boot goes back to step 4 (R355, R360). -/
def resetRelease (fail : List (Nat × Nat)) (s : State) : State :=
  let s := { s with pck.resetLow := false }
  match s.pck.pow with
  | .warm => if s.pck.stretched ∧ s.pck.refclk then warmRelease fail s else s
  | .boot => if s.pck.step = 3 then bistBegin s else s
  | _ => s

/-- STK_RESET# is accepted low (R358). -/
def resetAssert (s : State) : State := warmAssert 0 { s with pck.resetLow := true }

/-- STK_WAKE rises (R377): it wakes SLEEP and DEEP SLEEP, and boots OFF. -/
def stkWake (s : State) : State :=
  match s.pck.pow with
  | .sleep | .entering => wakeCause 3 s
  | .deepSleep => if s.pck.wake.isNone then { s with pck.wake := some 3 } else s
  | .off =>
    -- a cold boot needs main rails and VBKP; the latch of a shutdown clears by R399 alone. With the rails down it starts as they rise (R352).
    if !s.pck.vbkp then s else if s.pck.mainGood then coldBoot { s with pck.wake := some 3 } else { s with pck.wake := some 3 }
  | _ => s

/-- MAIN_GOOD falls (R412). -/
def mainFall (s : State) : State :=
  if !s.pck.mainGood then s else
  let s := { s with pck.mainGood := false, pck.mainLow := s.now }
  match s.pck.pow with
  | .run | .idle | .sleep | .entering =>
    let s := pfStart 1 s
    if beforeSwitch s then switchOver true s else s
  | .warm => if s.thm.shut.isSome then s else switchOver true (pfStart 1 { s with pck.pow := .run })
  | .boot => loseContent { s with pck.pow := .off }
  | .hold => { s with pck.pow := .off }
  | .deepSleep => (List.range 16).foldl groupOff s
  | _ => s

/-- MAIN_GOOD rises (R379, R387, R399). -/
def mainRise (s : State) : State :=
  if s.pck.mainGood then s else
  let s := { tripClear s with pck.mainGood := true }
  match s.pck.pow with
  | .deepSleep => if s.pck.wake.isNone then { s with pck.wake := some 4 } else s
  | .off => if s.pck.vbkp then coldBoot s else s
  -- the sequence completes, then exits as rails returning (Table 18.9)
  | .powerFail => { s with pck.wake := some 4 }
  | _ => s

end Sys2Proof.Machine
end

