-- ==== Sys2Proof/Machine/RegRead.lean ====
section
/-! DEFINITION. What a register shows when it is read: the fields that hardware determines at the time of the read (R5, "hw"), by block. Every
other field shows what the register store holds. -/

namespace Sys2Proof.Machine

/-- The values of the fields that are read from hardware state; a field not listed is read from the register store. -/
abbrev HwFields := List (Fld × Nat)

/-- HLP (Tables 2.9 to 2.15). -/
def hwHlp (s : State) (r : RegId) (g l : Nat) : HwFields :=
  let x := s.grp g
  match r with
  | .HLP_STAT => [(F.HLP_STAT_GSTATE, x.gst.num), (F.HLP_STAT_DIR, b2n x.dir), (F.HLP_STAT_PLL_LOCK, b2n x.pll), (F.HLP_STAT_LANE_USE, x.carry),
      (F.HLP_STAT_SPARE_POS, x.spare.getD 31), (F.HLP_STAT_DESKEW_MAX, deskewMax x), (F.HLP_STAT_EQ_DONE, b2n x.eqDone)]
  | .HLP_EQ =>
    let e := SMap.getD x.eqRx (s.rd F.HLP_EQ_EQ_LANE g * 8 + x.presetRx) 0
    [(F.HLP_EQ_PRESET_RX, x.presetRx), (F.HLP_EQ_PRESET_TX, x.presetTx), (F.HLP_EQ_CTLE, e % 64), (F.HLP_EQ_DFE1, e / 64)]
  | .HLP_INJ => [(F.HLP_INJ_INJ_ACT, b2n x.injAct), (F.HLP_INJ_INJ_CNT, injCount s g)]
  | .HLP_LN_CTL => [(F.HLP_LN_CTL_CHK_LOCK, b2n (bit x.chkLock l)), (F.HLP_LN_CTL_CHK_OWNER, chkOwner x l), (F.HLP_LN_CTL_LSTATE, laneState x l),
      (F.HLP_LN_CTL_CDR_LOCK, b2n (bit x.locks l))]
  | _ => []

/-- HLL (Tables 3.11 to 3.19). -/
def hwHll (s : State) (r : RegId) (g : Nat) : HwFields :=
  match r with
  | .HLL_TURN => [(F.HLL_TURN_TURN_BUSY, b2n (s.link.turn.isSome || s.link.turnReq.isSome))]
  | .HLL_SPLIT => [(F.HLL_SPLIT_DIR_MAP, maskOf ((List.range 16).filter fun k => (s.grp k).dir)),
      (F.HLL_SPLIT_IN_SVC, maskOf ((List.range 16).filter fun k => (s.grp k).inSvc))]
  | .HLL_LINK => [(F.HLL_LINK_LINK_UP, b2n s.link.up), (F.HLL_LINK_HOME_H2D, s.link.homeH.getD 0), (F.HLL_LINK_HOME_D2H, s.link.homeD.getD 0)]
  | .HLL_PCFG => [(F.HLL_PCFG_P_VC1, (s.link.cfgRx.getD (0, 0)).1), (F.HLL_PCFG_P_VC2, (s.link.cfgRx.getD (0, 0)).2)]
  | .HLL_SEQ => [(F.HLL_SEQ_TX_NEXT, (s.grp g).txNext), (F.HLL_SEQ_TX_ACKED, (s.grp g).txAcked), (F.HLL_SEQ_RX_EXP, (s.grp g).rxExp)]
  | _ => []

/-- RQE (Tables 5.8 to 5.13). -/
def hwRqe (s : State) (r : RegId) (d : Nat) : HwFields :=
  match r with
  | .RQE_STAT => [(F.RQE_STAT_RB_USED, s.rqe.reqs.length), (F.RQE_STAT_WDB_USED, sumReqs s wdbSlots)]
  | .RQE_STAT2 => [(F.RQE_STAT2_CDB_USED, sumReqs s cdbSlots), (F.RQE_STAT2_RNG_USED, sumReqs s rngSlots)]
  | .RQE_DOM_USE => [(F.RQE_DOM_USE_RB_USED_D, rbUsed s d)]
  | _ => []

/-- REG (Tables 6.6 to 6.16). `who` selects the watch that REG_WSEL shows (R152). -/
def hwReg (s : State) (r : RegId) (who i : Nat) : HwFields :=
  match r with
  | .REG_S => [(F.REG_S_FOLD_ACT, b2n s.reg.foldAct)]
  | .REG_S_IN => [(F.REG_S_IN_THETA, s.reg.theta), (F.REG_S_IN_HOT_RANKS, s.reg.hotRanks), (F.REG_S_IN_ZERO_CH, s.reg.zeroCh)]
  | .REG_WSEL =>
    let w := watchSel s (s.rd F.REG_WSEL_IDX_WIDX who)
    [(F.REG_WSEL_WBOW, w.1), (F.REG_WSEL_WMASK, w.2)]
  | .REG_REFS => [(F.REG_REFS_RES_REFS, resRefs s i)]
  | .REG_RSV_C => [(F.REG_RSV_C_RREFS, rsvRefs s i)]
  | _ => []

/-- SCC (Tables 7.10 to 7.13). -/
def hwScc (s : State) (r : RegId) (sl : Nat) : HwFields :=
  match r with
  | .SCC_STAT => [(F.SCC_STAT_WT_CLEAN, b2n (wtClean s sl))]
  | .SCC_OCC => [(F.SCC_OCC_DIRTY_LINES, dirtyLines s sl), (F.SCC_OCC_VALID_64, validLines s sl / 64)]
  | .SCC_OPS_STAT =>
    let at' : Nat := match SMap.get? s.scc.op sl with
      | some o => o.pos % 4096
      | none => 0
    [(F.SCC_OPS_STAT_OPS_BUSY, b2n (SMap.get? s.scc.op sl).isSome), (F.SCC_OPS_STAT_OPS_SET, at')]
  | _ => []

/-- DMC (Tables 8.13 to 8.16). -/
def hwDmc (s : State) (r : RegId) (ch : Nat) : HwFields :=
  match r with
  | .DMC_STAT => [(F.DMC_STAT_WQ_USED, wqUsed s ch), (F.DMC_STAT_RMW_USED, (s.dmcOf ch).rmw.length + b2n (s.dmcOf ch).unitSc.isSome)]
  | _ => []

/-- RFM and DIP (Tables 9.9, 10.8 to 10.11). -/
def hwRfmDip (s : State) (r : RegId) (i : Nat) : HwFields :=
  match r with
  | .RFM_VQ => [(F.RFM_VQ_VQ_USED, (s.dmcOf i).vq.length)]
  | .DIP_SCRUB_STAT => [(F.DIP_SCRUB_STAT_SCRUB_UNSAFE, b2n (scrubUnsafe s))]
  | .DIP_LOG_STAT => [(F.DIP_LOG_STAT_LOG_CNT, s.dip.log.length)]
  | .DIP_LOG_W => [(F.DIP_LOG_W_LOG_WORD, (s.dip.log.headD []).getD i 0)]
  | _ => []

/-- TSV (Tables 11.9 to 11.19). -/
def hwTsv (s : State) (r : RegId) (ch : Nat) : HwFields :=
  match r with
  | .TSV_STAT => [(F.TSV_STAT_TSTATE, tstate s ch)]
  | .TSV_DEAD => [(F.TSV_DEAD_DEAD_POS1, (deadPos s ch).getD 0 127), (F.TSV_DEAD_DEAD_POS2, (deadPos s ch).getD 1 127)]
  | .TSV_MAP =>
    let p := s.lineOf ch (s.rd F.TSV_MAP_IDX_LPOS ch)
    let d := SMap.getD (s.tsvCh ch).dly p (0, 0)
    [(F.TSV_MAP_PHY, p), (F.TSV_MAP_RD_DLYT, d.1), (F.TSV_MAP_WR_DLYT, d.2)]
  | .TSV_RPR_STAT => [(F.TSV_RPR_STAT_RPR_QUEUED, (s.tsv.rprQ.filter (·.1 == ch)).length)]
  | .TSV_FOLD_STAT => [(F.TSV_FOLD_STAT_FCHUNK, fChunk s)]
  | .TSV_RMAP =>
    let e := s.rmap (s.rd F.TSV_RMAP_IDX_RM_CH) (s.rd F.TSV_RMAP_IDX_RM_BANK) (s.rd F.TSV_RMAP_IDX_RM_SPARE)
    [(F.TSV_RMAP_RROW, if e = 1 then 0 else bits e 0 15), (F.TSV_RMAP_RV, bits e 15 1), (F.TSV_RMAP_RBAD, b2n (e == 1))]
  | _ => []

/-- Milliseconds before a lease expires, rounded up (Table 12.27). -/
def leaseLeft (s : State) (i : Nat) : Nat :=
  if leaseHolder s i = 0xFF then 0 else ((SMap.getD s.mgt.leases i (0, 0)).2 - s.now + msec - 1) / msec

/-- The word of a mailbox buffer at `MOFS` (Table 12.30). -/
def mdata (s : State) (m mofs mbuf : Nat) : Nat :=
  leNat (bufGet (if mbuf = 1 then (s.mbx m).resp else (s.mbx m).cmd) (mofs / 4 * 4) 4)

/-- MGT and the mailboxes (Tables 12.23 to 12.30). -/
def hwMgt (s : State) (r : RegId) (i : Nat) : HwFields :=
  match r with
  | .MGT_STAT => [(F.MGT_STAT_MCK_PLL, s.rd F.PCK_CLK_MCK_SEL)]
  | .MGT_QUIESCE => [(F.MGT_QUIESCE_WE_DONE, b2n (weDone s))]
  | .MGT_LEASE => [(F.MGT_LEASE_LEFT_MS, leaseLeft s i)]
  | .MBX_DATA => [(F.MBX_DATA_MDATA, mdata s i (s.rd F.MBX_PTR_MOFS i) (s.rd F.MBX_PTR_MBUF i))]
  | .MBXS_DATA => [(F.MBXS_DATA_MDATA, mdata s 16 (s.rd F.MBXS_PTR_MOFS) (s.rd F.MBXS_PTR_MBUF))]
  | _ => []

/-- GLB and FCR (Tables 13.6, 13.9, 14.10 to 14.18). -/
def hwGlbFcr (s : State) (r : RegId) (who i : Nat) : HwFields :=
  match r with
  | .GLB_STAT => [(F.GLB_STAT_WHO, who), (F.GLB_STAT_SVC_AUTH, b2n s.mgt.auth)]
  | .GLB_UPTIME_LO => [(F.GLB_UPTIME_LO_UP_LO, s.uptime % 2 ^ 32)]
  | .GLB_UPTIME_HI => [(F.GLB_UPTIME_HI_UP_HI, s.uptime / 2 ^ 32)]
  | .FCR_STAT => [(F.FCR_STAT_EASY_LEFT, easyLeft s)]
  | .FCR_ALERT => [(F.FCR_ALERT_PIN, b2n (alertPin s))]
  | .FCR_LOG => [(F.FCR_LOG_LOG_QUSED, s.fcr.logq.length)]
  | .FCR_DOM => [(F.FCR_DOM_DQ_USED, (SMap.getD s.fcr.evq i []).length)]
  | _ => []

/-- PST and CST (Tables 15.6 to 15.13, 16.x, 17.x). -/
def hwPstCst (s : State) (r : RegId) (n : Nat) : HwFields :=
  match r with
  | .PST_STAT => [(F.PST_STAT_PORT_BUSY, b2n s.pst.port.isSome), (F.PST_STAT_PORT_OWNER, (s.pst.port.map (·.cls)).getD 0),
      (F.PST_STAT_PQ_USED, min 127 s.pst.q.length)]
  | .PST_WEAR =>
    let w := s.wearAt (s.rd F.PST_WEAR_IDX_WIDX)
    [(F.PST_WEAR_WCNT, w), (F.PST_WEAR_WWARN, b2n (decide (wearWarn ≤ w))), (F.PST_WEAR_WLIM, b2n (decide (wearLimit ≤ w)))]
  | .PST_WEAR_SUM => [(F.PST_WEAR_SUM_NWARN, min 65535 (s.pst.wear.filter fun e => decide (wearWarn ≤ e.2)).length),
      (F.PST_WEAR_SUM_NLIM, min 65535 (s.pst.wear.filter fun e => decide (wearLimit ≤ e.2)).length)]
  | .PST_FUSE_LOCKS => [(F.PST_FUSE_LOCKS_FCOMPLETE, maskOf ((List.range 9).filter (fuseComplete s)))]
  | .PST_PREG => [(F.PST_PREG_PVAL, s.mramAt (pregIdx n))]
  | .CST_BIST_STAT => [(F.CST_BIST_STAT_BIST_BUSY, b2n (s.pck.pow == .boot && s.pck.step == 4))]
  | _ => []

/-- `PSTATE` (Table 18.11). -/
def pstateNum (s : State) : Nat := match s.pck.pow with
  | .idle => 1 | .sleep => 2 | .entering => 5 | .powerFail => 6 | _ => 0

/-- PCK, THM and SVC (Tables 18.11 to 18.19, 19.6 to 19.8). -/
def hwPckThm (s : State) (r : RegId) : HwFields :=
  match r with
  | .PCK_STAT => [(F.PCK_STAT_PSTATE, pstateNum s), (F.PCK_STAT_PF_WIN, b2n ((List.range 32).all (wtClean s))),
      (F.PCK_STAT_MAIN_OK, b2n (s.pck.mainGood && !(s.pck.pow == .powerFail && s.on F.PCK_PF_PF_CAUSE)))]
  | .PCK_VOTES => [(F.PCK_VOTES_VOTES, votes s)]
  | .PCK_RLOG0 => match s.pck.rlog[s.rd F.PCK_RLOG_IDX_RL_IDX]? with
    | some e => [(F.PCK_RLOG0_RL_CODE, e.code), (F.PCK_RLOG0_RL_STATE, e.target), (F.PCK_RLOG0_RL_DOM, e.dom), (F.PCK_RLOG0_RL_ABORT, b2n e.abort)]
    | none => []
  | .PCK_RLOG1 => [(F.PCK_RLOG1_RL_TIME, ((s.pck.rlog[s.rd F.PCK_RLOG_IDX_RL_IDX]?).map (·.life)).getD 0)]
  | .THM_STAT => [(F.THM_STAT_TS_ACT, b2n (s.thm.shut.isSome && s.pck.pow == .powerFail))]
  | .THM_SENS =>
    let n := s.rd F.THM_SENS_IDX_SIDX
    let t := SMap.getD s.thm.temp n (0, false)
    [(F.THM_SENS_TEMP, t.1), (F.THM_SENS_VALID, b2n t.2), (F.THM_SENS_TMAX, SMap.getD s.thm.tmax n 0)]
  | _ => []

/-- The fields of instance `i`, `j` of a register that hardware determines, read by master `who`. -/
def hwFields (s : State) (r : RegId) (who i j : Nat) : HwFields :=
  match r.info.off / 0x10000 with
  | 0 | 3 => hwGlbFcr s r who i
  | 1 | 2 => hwPckThm s r
  | 4 | 5 => hwPstCst s r i
  | 6 => hwMgt s r i
  | 8 => hwHlp s r i j
  | 9 => hwHll s r i
  | 10 => hwRqe s r i
  | 11 => hwReg s r who i
  | 12 | 13 => hwRfmDip s r i
  | 14 | 15 => hwTsv s r i
  | 16 | 17 => hwScc s r i
  | 32 | 33 | 34 | 35 => hwDmc s r i
  | _ => []

/-- The value that one field shows. -/
def showField (s : State) (hw : HwFields) (f : Fld) (i j : Nat) : Nat :=
  match hw.find? fun p => p.1.key == f.key with
  | some p => p.2 % 2 ^ f.w
  | none => if f.acc = .wo then 0 else s.rd f i j

/-- The lowest bit of a field in its register. -/
def Fld.lo (f : Fld) : Nat := f.key % 32

/-- The word that a register shows, with the fields a test selects; every other field reads zero (R288). -/
def showReg (s : State) (r : RegId) (who i j : Nat) (may : Fld → Bool) : Nat :=
  let hw := hwFields s r who i j
  r.info.flds.foldl (fun v f => if may f then v + showField s hw f i j * 2 ^ f.lo else v) 0

end Sys2Proof.Machine
end

