-- ==== Sys2Proof/Machine/Transfer.lean ====
section
/-! DEFINITION. The bulk transfer engine of the service port (R437 to R439, R441, ch. 21). -/

namespace Sys2Proof.Machine

/-- `DRN_ADDR`. -/
def drnAddr (s : State) : Nat := s.rd F.SVC_DRN_ADDR_LO_DRN_ALO * 4096 + s.rd F.SVC_DRN_ADDR_HI_DRN_AHI * 2 ^ 32

/-- A write of `DRN_GO` (R438). A length of zero, which only reset leaves in `DRN_LEN`, moves no block and ends at once with OK (log entry 34). -/
def drnGo (s : State) : Code × State :=
  let n := s.rd F.SVC_DRN_LEN_DRN_LEN
  let a := drnAddr s
  let ok : Bool := match s.pck.pow with
    | .run | .idle => true
    | _ => false
  if devLimit s < a + 4096 * n then (.range, s)
  else if !s.on F.SVC_STAT_MEM_RDY || !ok then (.state, s)
  else if s.on F.SVC_DRN_STAT_DRN_BUSY then (.busy, s)
  else
    let s := (s.wr F.SVC_DRN_DONE_DRN_DONE 0).wr F.SVC_DRN_STAT_DRN_WORST 0
    if n = 0 then (.ok, s.wr F.SVC_DRN_STAT_DRN_RES Code.ok.num)
    else (.ok, { s with svc.xfer := some { fill := s.rd F.SVC_DRN_CTL_DRN_OP == 2, addr := a, left := n } }.wr F.SVC_DRN_STAT_DRN_BUSY 1)

/-- `DRN_ABORT` stops a transfer at a block boundary with STATE (Table 21.5). A block that is being read is dropped. -/
def drnAbort (s : State) : State :=
  endXfer { s with rqe.reqs := s.rqe.reqs.filter fun (r : Req) => !(r.iss == .service && r.op == .rd) } .state

/-- The code that a number names, among the outcomes of R13. -/
def outcomeOf (n : Nat) : Code := match n with
  | 1 => .okCorrected | 2 => .poisoned | 3 => .uncorrectable | 9 => .degraded | _ => .ok

/-- A block is done: `DRN_DONE` counts it and `DRN_WORST` takes the first outcome of R13; the last block ends the transfer with OK. -/
def blockDone (s : State) (x : Xfer) (c : Code) : State :=
  let w := worst [outcomeOf (s.rd F.SVC_DRN_STAT_DRN_WORST), c]
  let s := (s.inc F.SVC_DRN_DONE_DRN_DONE).wr F.SVC_DRN_STAT_DRN_WORST w.num
  if x.left ≤ 1 then endXfer s .ok
  else { s with svc.xfer := some { x with addr := x.addr + 4096, left := x.left - 1, out := false } }

/-- The 4,176 bytes of a drain block (R437). -/
def drainBytes (addr : Nat) (c : Code) (last : Bool) (xs : List Sector) : List Byte :=
  let body := (xs.map fun x => BitVec.ofNat 8 x.md) ++ xs.flatMap (·.data)
  leBytes 8 addr ++ [BitVec.ofNat 8 c.num, BitVec.ofNat 8 (b2n last), 0, 0] ++ leBytes 4 (crc32 body) ++ body

/-- A drain block: its 64 sectors are read, and sent on EP3 IN once they are there (R437, R438). -/
def drainBlock (s : State) : State :=
  match s.svc.xfer with
  | some x =>
    if x.fill || !svcUp s then s
    else if !x.out then
      if rqeRuns s && internalRoom s 0 then internalRead { s with svc.xfer := some { x with out := true } } .service x.addr 64 else s
    else match s.rqe.reqs.find? fun r => r.iss == .service && r.op == .rd && r.cpl.isSome with
      | some r =>
        match r.cpl with
        | some c =>
          let s := { s with out := s.out ++ [.ep3 (drainBytes x.addr c.status (decide (x.left ≤ 1)) c.sects)]
                            rqe.reqs := s.rqe.reqs.filter fun q => q.id != r.id }
          blockDone s x c.status
        | none => s
      | none => s
  | none => s

/-- A fill block (R438): 4,176 bytes whose CRC is checked; its sectors are written with their metadata bytes at the engine's address. A block that finds
no room is not taken: the host sends it again. -/
def fillBlock (bytes : List Byte) (s : State) : State :=
  match s.svc.xfer with
  | some x =>
    if !x.fill || !svcUp s || !rqeRuns s || bytes.length != 4176 || !internalRoom s 64 then s
    else if crc32 (bytes.drop 16) != leAt bytes 12 4 then endXfer s .integrity
    else
      let mdx := slice bytes 16 64
      let p : Vc0 := { opc := 0x10, md := true, mdx := mdx, len := 3 }
      let poisoned := mdx.any fun b => bit b.toNat 0
      let c := if poisoned then .poisoned else wrStatus s { p with md := false } [(x.addr / 64, 64)]
      blockDone (internalWrite s .service x.addr (slice bytes 80 4096) mdx) x c
  | none => s

end Sys2Proof.Machine
end

