-- ==== Sys2Proof/Machine/RegHooks.lean ====
section
/-! DEFINITION. What a register write does beyond storing its fields, by block: the checks after the generic ones, in the order of R12, and the
actions that it starts. Every function is given the state before the write, the state with the written fields stored, the register and its instance, and
the written word with the bits of fields that the master may not write at zero; it answers a code, the detail word, and the state after. -/

namespace Sys2Proof.Machine

/-- The answer of a hook: result code, detail word, state after. -/
abbrev Hook := Code × Nat × State

/-- The write is accepted. -/
def okH (s : State) : Hook := (.ok, 0, s)
/-- The write is refused and changes nothing (R291). -/
def noH (s : State) (c : Code) : Hook := (c, 0, s)
/-- An answer without a detail word. -/
def codeH (s : State) (p : Code × State) : Hook := if p.1 = .ok then okH p.2 else noH s p.1

/-- The value of a field in a written word. -/
def Fld.val (f : Fld) (m : Nat) : Nat := bits m f.lo f.w
/-- A one-bit field of a written word. -/
def Fld.hit (f : Fld) (m : Nat) : Bool := f.val m == 1

/-! ## HLP (Tables 2.8 to 2.15) -/

/-- A group in service whose direction would keep fewer than two groups without it. -/
def needed (s : State) (g : Nat) : Bool := (s.grp g).inSvc && decide ((inService s (s.grp g).dir).length ≤ 2)

/-- The group may leave OFF for DETECT (Table 2.3). -/
def retrain (s : State) (g : Nat) : State :=
  if (s.grp g).gst = .off then (if s.link.refclk then groupDetect s g else s)
  else if (s.grp g).gst = .test then groupDetect s g
  else if (s.grp g).inSvc then withdraw g false s else groupDetect s g

/-- A write of HLP[g]_CTL: RETRAIN, LOOPBACK and TEST. -/
def hookHlpCtl (s t : State) (g m : Nat) : Hook :=
  let was := s.on F.HLP_CTL_TEST g
  let test := F.HLP_CTL_TEST.hit m
  let go := F.HLP_CTL_RETRAIN.hit m
  let enters : Bool := test && !was
  let active : Bool := (s.grp g).gst == .active || (s.grp g).gst == .quiet
  if needed s g && (go || enters) then noH s .state
  else if F.HLP_CTL_LOOPBACK.val m = 1 && !(test && (enters && active || (s.grp g).gst == .test)) then noH s .state
  else
    let t := if enters && active then withdraw g true t
      else if was && !test && (s.grp g).gst == .test then groupDetect t g else t
    okH (if go then retrain t g else t)

/-- A write of HLP[g]_INJ (R46). A write that changes the injection while one runs ends it (log entry 35). -/
def hookHlpInj (s t : State) (g m : Nat) : Hook :=
  let x := s.grp g
  let live := F.HLP_INJ_INJ_LIVE.hit m
  if live && decide (F.HLP_INJ_INJ_EXP.val m < 12) then noH s .badValue
  else if live && !(x.gst == .active && x.dir) then noH s .state
  else
    let changed := [F.HLP_INJ_INJ_LANE, F.HLP_INJ_INJ_MODE, F.HLP_INJ_INJ_LIVE, F.HLP_INJ_INJ_EXP, F.HLP_INJ_INJ_LEN].any fun f => f.val m != s.rd f g
    let t := if changed || F.HLP_INJ_INJ_GO.hit m then
        (t.wr F.HLP_INJ_INJ_CNT (injCount s g) g).modGrp g fun y => { y with injAct := false, injBurst := 0 } else t
    if !F.HLP_INJ_INJ_GO.hit m then okH t else
    let reach : Bool := !live || bit x.carry (F.HLP_INJ_INJ_LANE.val m)
    let mode := F.HLP_INJ_INJ_MODE.val m
    let t := t.wr F.HLP_INJ_INJ_CNT (b2n (reach && (mode == 1 || mode == 3))) g
    let n := if mode = 1 then 1 else if mode = 3 then F.HLP_INJ_INJ_LEN.val m + 1 else 0
    okH (if reach then t.modGrp g fun y => { y with injAct := decide (mode = 2), injAt := s.now, injBurst := n } else t)

/-- A write of HLP[g]_LN[l]_CTL (R43 to R45, R47). -/
def hookHlpLane (s t : State) (g l m : Nat) : Hook :=
  let x := s.grp g
  let gen := F.HLP_LN_CTL_GEN_EN.hit m && !s.on F.HLP_LN_CTL_GEN_EN g l
  let chk := F.HLP_LN_CTL_CHK_EN.hit m && !s.on F.HLP_LN_CTL_CHK_EN g l
  -- near-end loopback joins the lane's generator to its own checker (Table 2.8, log entry 119)
  let loop : Bool := s.rd F.HLP_CTL_LOOPBACK g == 1
  if F.HLP_LN_CTL_PAT_SEL.val m = 7 then noH s .badValue
  else if gen && !(laneFree x l && (x.dir || loop)) || chk && !(laneFree x l && (!x.dir || loop)) then noH s .state
  else if chk && (chkOwner x l == 1 || chkOwner x l == 2) then (.resource, checkerDetail x g l, s)
  else
    let t := if F.HLP_LN_CTL_SLIP_MAN.hit m then t else t.wr F.HLP_LN_CTL_SLIP (s.rd F.HLP_LN_CTL_SLIP g l) g l
    let t := if gen then { t with out := t.out ++ [Out.pattern g (2 ^ l) (F.HLP_LN_CTL_PAT_SEL.val m) x.presetTx] }
      else if s.on F.HLP_LN_CTL_GEN_EN g l && !F.HLP_LN_CTL_GEN_EN.hit m && x.spare == some l then spareStream t g else t
    let drop := s.on F.HLP_LN_CTL_CHK_EN g l && !F.HLP_LN_CTL_CHK_EN.hit m && chkOwner x l == 3
    okH (if chk then giveChecker t g l 3 else if drop then dropChecker t g l else t)

/-- HLP. -/
def hookHlp (s t : State) (r : RegId) (g l m : Nat) : Hook :=
  match r with
  | .HLP_CTL => hookHlpCtl s t g m
  | .HLP_INJ => hookHlpInj s t g m
  | .HLP_LN_CTL => hookHlpLane s t g l m
  | _ => okH t

/-! ## HLL (Tables 3.10 to 3.19) -/

/-- Every HLL counter. -/
def hllClear (s : State) : State :=
  (s.clearFields [F.HLL_FEC_FEC_CORR, F.HLL_FLIT_BAD_FLITS, F.HLL_FLIT_REPLAYS, F.HLL_EVT_SPARES, F.HLL_EVT_LOSSES, F.HLL_EVT_PROTO,
    F.HLL_EVT_NAKS_TX] 16).wr F.HLL_TURN_TURNS 0

/-- A write of HLL_TURN (R74): with `TURN_GO` the stack asks for a turn. -/
def hookTurn (s t : State) (m : Nat) : Hook :=
  if !F.HLL_TURN_TURN_GO.hit m then okH t else
  let g := F.HLL_TURN_TURN_GRP.val m
  let dir := F.HLL_TURN_TURN_DIR.hit m
  match turnCheck s g dir with
  | .ok => okH (requestTurn t g dir)
  | c => noH s c

/-- A write of HLL_CRD[d] (R62, R63, R65): a new CONFIG is due, and the old cap stays in force until it is acknowledged. -/
def hookCrd (s t : State) (d m : Nat) : Hook :=
  let mn := F.HLL_CRD_VC0_MIN.val m
  let sum := ((List.range 16).map fun e => if e = d then mn else s.rd F.HLL_CRD_VC0_MIN e).sum
  if F.HLL_CRD_VC0_CAP.val m < mn then noH s .badValue
  else if 32768 < sum then noH s .range
  else if s.link.cfgSent then okH { t with link.cfgDue := true, link.capOld := SMap.set s.link.capOld d (capInForce s d, none) }
  else okH t

/-- HLL. -/
def hookHll (s t : State) (r : RegId) (d m : Nat) : Hook :=
  match r with
  | .HLL_CTL =>
    let t := if F.HLL_CTL_CNT_CLR.hit m then hllClear t else t
    okH (if F.HLL_CTL_AUTO_BAL.hit m && !s.on F.HLL_CTL_AUTO_BAL then autoBalance t else t)
  | .HLL_TURN => hookTurn s t m
  | .HLL_CRD => hookCrd s t d m
  | _ => okH t

/-! ## RQE (Tables 5.7 to 5.17) -/

/-- Every RQE counter. -/
def rqeClear (s : State) : State :=
  (s.clearFields [F.RQE_FWD_FWD_SECT, F.RQE_HAZ_HAZ_WAIT, F.RQE_DUP_DUP_CNT] 1).clearFields
    [F.RQE_DOM_USE_LINK_LOST, F.RQE_DOM_REJ_REJ_OPC, F.RQE_DOM_REJ_REJ_PRIV, F.RQE_DOM_REJ_REJ_RANGE, F.RQE_DOM_REJ_REJ_STATE] 16

/-- A write of RQE_CTL (R120, R122). -/
def hookRqeCtl (s t : State) (m : Nat) : Hook :=
  let sel := F.RQE_CTL_HASH_SEL.val m
  let lsb := F.RQE_CTL_CH_LSB.val m
  if sel = 3 && !masksLegal lsb (s.rd F.RQE_HASH_MASK_MASK) then noH s .badValue
  else if s.on F.RQE_STAT_ADMITTED && (sel != s.rd F.RQE_CTL_HASH_SEL || lsb != s.rd F.RQE_CTL_CH_LSB) then noH s .state
  else okH (if F.RQE_CTL_CNT_CLR.hit m then rqeClear t else t)

/-- A write of RQE[d]_DOM_CTL (R133). -/
def hookDomCtl (s t : State) (d m : Nat) : Hook :=
  let purge := F.RQE_DOM_CTL_PURGE.hit m
  if s.on F.RQE_DOM_CTL_PURGE_BUSY d && (purge || F.RQE_DOM_CTL_EN.hit m) then noH s .state
  else okH (if purge then startPurge d t else retake t)

/-- The last block that an entry reaches, when its size and base are as in a state. -/
def regionEnd (s : State) (n base : Nat) : Nat := base + s.rd F.RQE_RGN_B_SIZE_M1 n

/-- Another enabled entry of the same domain overlaps in domain address space (R119). -/
def regionOverlap (s : State) (n dom base : Nat) : Bool :=
  (List.range 64).any fun k =>
    k != n && s.on F.RQE_RGN_A_EN k && s.rd F.RQE_RGN_A_RDOM k == dom &&
    decide (base ≤ regionEnd s k (s.rd F.RQE_RGN_A_DBASE k)) && decide (s.rd F.RQE_RGN_A_DBASE k ≤ regionEnd s n base)

/-- The last device block that an entry may reach: fold-ready mode withholds the top 4 GiB (R119, R253). -/
def lastBlock (s : State) : Nat := if s.on F.TSV_FOLD_CTL_FR_MODE then 0xF7FF else 0xFFFF

/-- A write of RQE[n]_RGN_A (R119). -/
def hookRgnA (s t : State) (n m : Nat) : Hook :=
  let was := s.on F.RQE_RGN_A_EN n
  let changes := [F.RQE_RGN_A_DBASE, F.RQE_RGN_A_RDOM, F.RQE_RGN_A_WR].any fun f => f.val m != s.rd f n
  let base := F.RQE_RGN_A_DBASE.val m
  if !F.RQE_RGN_A_EN.hit m then okH t
  else if was then (if changes then noH s .state else okH t)
  else if 0xFFFF < regionEnd s n base || lastBlock s < regionEnd s n (s.rd F.RQE_RGN_B_PBASE n) || regionOverlap s n (F.RQE_RGN_A_RDOM.val m) base then
    noH s .range
  else okH t

/-- A write of RQE[n]_RGN_B (R119). -/
def hookRgnB (s t : State) (n m : Nat) : Hook :=
  let changes := [F.RQE_RGN_B_SIZE_M1, F.RQE_RGN_B_PBASE].any fun f => f.val m != s.rd f n
  if s.on F.RQE_RGN_A_EN n && changes then noH s .state else okH t

/-- RQE. -/
def hookRqe (s t : State) (r : RegId) (i m : Nat) : Hook :=
  match r with
  | .RQE_CTL => hookRqeCtl s t m
  | .RQE_HASH_MASK => if s.on F.RQE_STAT_ADMITTED && F.RQE_HASH_MASK_MASK.val m != s.rd F.RQE_HASH_MASK_MASK i then noH s .state else okH t
  | .RQE_DOM_CTL => hookDomCtl s t i m
  | .RQE_RGN_A => hookRgnA s t i m
  | .RQE_RGN_B => hookRgnB s t i m
  | _ => okH t

/-! ## REG (Tables 6.5 to 6.16) -/

/-- A field, or the context 2^40 + b, lies in the window of a basic command (R25): at most 50 µs, and the time of the words that it stores. -/
def windowHolds (s : State) (k : Nat) : Bool :=
  s.mgt.busy.any fun e => e.2.2.contains k && (decide (s.now < e.2.1 + 50 * usec) || (match (SMap.getD s.mgt.mbx e.1 {}).await with
    | .words (_ + 1) _ _ => true
    | _ => false))

/-- A write of REG_CTX_CMD (R139, R140). A refusal with PRIVILEGE clears the window. -/
def hookCtxCmd (s : State) (who m : Nat) : Hook :=
  let op := F.REG_CTX_CMD_OP.val m
  let b := s.rd F.REG_CTX_IDX_CTX_IDX who
  let w := ctxD0 s who
  if !ctxReach s who b then (.privilege, 0, clearWindow s who)
  else if op = 0 ∨ op = 3 then noH s .badValue
  else if op = 1 then okH (ctxRead s who b)
  else match ctxCheck s b (F.REG_CTX_D0_CLASS.val w) (F.REG_CTX_D0_LT_TGT.val w) (F.REG_CTX_D0_RES_IDX.val w) with
    | .badValue => noH s .badValue
    | c =>
      if decide (who ≤ 16) && windowHolds s (2 ^ 40 + b) then noH s .busy
      else if c ≠ .ok then noH s c
      else okH (ctxWrite s b (F.REG_CTX_D0_CLASS.val w) (F.REG_CTX_D0_LT_TGT.val w) (F.REG_CTX_D0_RES_IDX.val w) (F.REG_CTX_D0_ALLOC.val w)
        (F.REG_CTX_D0_MLAT_CLR.hit w))

/-- A write of `CIDX` takes a snapshot (R151). -/
def hookCntIdx (s t : State) (who m : Nat) : Hook :=
  let i := F.REG_CNT_IDX_CIDX.val m
  if !cidxReach who i then (.privilege, 0, (s.wr F.REG_CNT_LO_CNT_LO 0 who).wr F.REG_CNT_HI_CNT_HI 0 who)
  else if !cidxLegal i then noH s .range
  else
    let v := SMap.getD s.reg.cnt i 0
    okH ((t.wr F.REG_CNT_LO_CNT_LO v who).wr F.REG_CNT_HI_CNT_HI (v / 2 ^ 32) who)

/-- A write of REG_WSEL sets the selector of the addressed watch and clears its four counters (R152). -/
def hookWsel (s : State) (who m : Nat) : Hook :=
  let w := s.rd F.REG_WSEL_IDX_WIDX who
  let cnt := (List.range 4).foldl (fun c j => SMap.erase c (0x200 + 4 * w + j)) s.reg.cnt
  okH { s with reg.cnt := cnt, reg.watch := SMap.put s.reg.watch w (0, 0xFFFF) (F.REG_WSEL_WBOW.val m, F.REG_WSEL_WMASK.val m) }

/-- A write of REG[k]_CLASS (R141): `KIND` is RO for class 7. -/
def hookClass (s t : State) (k m : Nat) : Hook :=
  let kind := F.REG_CLASS_KIND.val m
  if k = 7 then okH (t.wr F.REG_CLASS_KIND (s.rd F.REG_CLASS_KIND 7) 7)
  else if kind = 3 then noH s .badValue
  else if kind ≠ s.rd F.REG_CLASS_KIND k ∧ resRefs s k ≠ 0 then noH s .state
  else okH t

/-- A write of REG[n]_RSV_A (R147, R148). -/
def hookRsv (s t : State) (n m : Nat) : Hook :=
  match rsvCheck s n (F.REG_RSV_A_RQ_RATE.val m) (F.REG_RSV_A_RKIND.val m) (F.REG_RSV_A_RDOM.val m) (F.REG_RSV_A_EN.hit m) with
  | .ok => okH (regrant t)
  | c => noH s c

/-- A write of REG[d]_BOW or REG[d]_BOW_EN (R138). -/
def hookBow (s t : State) (d base last : Nat) (en : Bool) : Hook :=
  match bowCheck s d base last en (rbUsed s d) with
  | .ok => okH (bowChanged t d (enabledRange s d))
  | c => noH s c

/-- REG. -/
def hookReg (s t : State) (r : RegId) (who i m : Nat) : Hook :=
  match r with
  | .REG_CTL => okH (if F.REG_CTL_CNT_CLR.hit m then { t with reg.cnt := [] } else t)
  | .REG_CTX_D0 => okH { s with reg.d0 := SMap.put s.reg.d0 who 0xC8 m }
  | .REG_CTX_CMD => hookCtxCmd s who m
  | .REG_CNT_IDX => hookCntIdx s t who m
  | .REG_WSEL => hookWsel s who m
  | .REG_CLASS => hookClass s t i m
  | .REG_RSV_A => hookRsv s t i m
  | .REG_BOW => hookBow s t i (F.REG_BOW_BOW_BASE.val m) (F.REG_BOW_BOW_LAST.val m) (s.on F.REG_BOW_EN_BOW_EN i)
  | .REG_BOW_EN => hookBow s t i (s.rd F.REG_BOW_BOW_BASE i) (s.rd F.REG_BOW_BOW_LAST i) (F.REG_BOW_EN_BOW_EN.hit m)
  | _ => okH t

/-! ## SCC (Tables 7.9 to 7.19) -/

/-- A slice's counters. -/
def sccClear (s : State) (sl : Nat) : State :=
  [F.SCC_OPS_STAT_OPS_CNT, F.SCC_FAULT_UE_CNT, F.SCC_FAULT_TAG_FIX, F.SCC_RD_HIT_RD_HIT, F.SCC_RD_MISS_RD_MISS, F.SCC_WR_HIT_WR_HIT,
   F.SCC_WR_MISS_WR_MISS, F.SCC_WB_WB_SECT, F.SCC_ALLOC_FAIL_ALLOC_FAIL].foldl (fun t f => t.wr f 0 sl) s

/-- A write of SCC[s]_CTL (R165, R173). `BYPASS` and `WT` act when they change, and a write of `WT` = 1 waits for no operation (log entry 36). -/
def hookSccCtl (s t : State) (sl m : Nat) : Hook :=
  let byWas := s.on F.SCC_CTL_BYPASS sl
  let by' := F.SCC_CTL_BYPASS.hit m
  let wt := F.SCC_CTL_WT.hit m
  if !by' && (s.on F.SCC_STAT_SFAULT sl || s.sstate sl == ssDrain) then noH s .state
  else if wt && (SMap.get? s.scc.op sl).isSome then noH s .busy
  else
    let t := if F.SCC_CTL_CNT_CLR.hit m then sccClear t sl else t
    let t := if wt && !s.on F.SCC_CTL_WT sl then (startOp t sl (sliceOpOf 1 0 0 0)).2 else t
    let folded := (s.fstate == fDone) && sl == s.rd F.TSV_FOLD_STAT_FOLDED_CH
    okH (if by' && !byWas && s.sstate sl == ssOn then startDrain t sl
      else if byWas && !by' && s.sstate sl == ssBypass && !folded then t.wr F.SCC_STAT_SSTATE ssOn sl else t)

/-- A write of SCC[s]_OPS_CMD (R166). -/
def hookOps (s : State) (sl m : Nat) : Hook :=
  let op := F.SCC_OPS_CMD_OP.val m
  let scope := F.SCC_OPS_CMD_SCOPE.val m
  let ways := F.SCC_OPS_CMD_OWAYS.val m
  if op = 0 ∨ op = 3 ∨ scope = 3 ∨ (scope = 2 ∧ ways = 0) then noH s .badValue
  else codeH s (startOp s sl (sliceOpOf op scope (F.SCC_OPS_CMD_ODOM.val m) ways))

/-- A write of `WAY_DIS` retires the ways it newly names (R172). -/
def hookWays (s t : State) (sl m : Nat) : Hook :=
  let old := s.rd F.SCC_WAYS_WAY_DIS sl
  let new' := (onesOf (F.SCC_WAYS_WAY_DIS.val m) 16).filter fun w => !bit old w
  okH (new'.foldl (fun u w => retireWay u sl w) (t.wr F.SCC_WAYS_WAY_DIS old sl))

/-- SCC. -/
def hookScc (s t : State) (r : RegId) (sl m : Nat) : Hook :=
  match r with
  | .SCC_CTL => hookSccCtl s t sl m
  | .SCC_OPS_CMD => hookOps s sl m
  | .SCC_WAYS => hookWays s t sl m
  | _ => okH t

/-! ## DMC, RFM and DIP -/

/-- A channel's counters (those that count since cold boot apart, log entry 37). -/
def dmcClear (s : State) (ch : Nat) : State :=
  let s := [F.DMC_RD_SECT_RD_SECT, F.DMC_WR_SECT_WR_SECT, F.DMC_ACT_CNT_ACT_CNT, F.DMC_HIT_CNT_HIT_CNT, F.DMC_EMPTY_CNT_EMPTY_CNT,
    F.DMC_CONF_CNT_CONF_CNT, F.DMC_DRAIN_CNT_DRAIN_CNT, F.DMC_WSUP_CNT_WSUP_CNT, F.DMC_HANG_STAT_TMO_CPL].foldl (fun t f => t.wr f 0 ch) s
  (List.range 4).foldl (fun t k => t.wr F.DMC_RANK_PD_PD_ENTRIES 0 ch k) s

/-- DMC (Tables 8.9 to 8.19). -/
def hookDmc (s t : State) (r : RegId) (ch m : Nat) : Hook :=
  match r with
  | .DMC_CTL =>
    if F.DMC_CTL_CH_RST.hit m && s.cstate ch != 2 then noH s .state
    else
      let t := if F.DMC_CTL_CNT_CLR.hit m then dmcClear t ch else t
      okH (if F.DMC_CTL_CH_RST.hit m then hangStart ch 3 t else t)
  | .DMC_WM =>
    if F.DMC_WM_WM_LO.val m < F.DMC_WM_WM_HI.val m ∧ F.DMC_WM_WM_HI.val m ≤ s.rd F.DMC_WQ_WQ_CAP ch then okH t else noH s .badValue
  | .DMC_WQ => if F.DMC_WQ_WQ_CAP.val m < s.rd F.DMC_WM_WM_HI ch then noH s .badValue else okH t
  | .DMC_TRAIN_CTL =>
    if !F.DMC_TRAIN_CTL_TRAIN_GO.hit m then okH t
    else if s.on F.MGT_QUIESCE_WE_STACK && s.cstate ch == 2 then okH (trainStart (leaveRun t ch) ch true (List.range 4))
    else noH s .state
  | _ => okH t

/-- Every RFM counter (log entry 37). -/
def rfmClear (s : State) : State :=
  s.clearFields [F.RFM_VQ_VQ_PEAK, F.RFM_VQ_RPT_UE, F.RFM_XING_XINGS, F.RFM_VREF_VREFS, F.RFM_REF_MAX_DEBT, F.RFM_REF_OVERDUE, F.RFM_REF_SLIPS] 32

/-- RFM (Tables 9.5 to 9.12). -/
def hookRfm (s t : State) (r : RegId) (m : Nat) : Hook :=
  match r with
  | .RFM_CTL =>
    let t := if F.RFM_CTL_CNT_CLR.hit m then rfmClear t else t
    let t := if F.RFM_CTL_ST_THR.val m ≠ s.rd F.RFM_CTL_ST_THR then thresholdSent (s.rd F.RFM_CTL_ST_THR) t else t
    okH (if F.RFM_CTL_FORCE_2X.hit m then (List.range 16).foldl (fun u n => setRate u n true) t else t)
  | _ => okH t

/-- Every DIP counter (log entry 37). -/
def dipClear (s : State) : State :=
  (s.clearFields [F.DIP_SCRUB_FIX_SCRUB_FIX, F.DIP_ARR_ARR_CE, F.DIP_ARR_ARR_UE] 1).clearFields
    [F.DIP_CE_CE_CNT, F.DIP_UE_UE_CNT, F.DIP_UE_POISON_RD, F.DIP_POS_ROW_TRIG] 32

/-- DIP (Tables 10.7 to 10.17). -/
def hookDip (s t : State) (r : RegId) (m : Nat) : Hook :=
  match r with
  | .DIP_CTL => okH (if F.DIP_CTL_CNT_CLR.hit m then dipClear t else t)
  | .DIP_INJ =>
    if !F.DIP_INJ_INJ_ARM.hit m then okH t
    else if s.on F.DIP_INJ_INJ_ARMED then noH s .state
    else okH { t.wr F.DIP_INJ_INJ_ARMED 1 with
      dip.inj := some (F.DIP_INJ_INJ_CH.val m, F.DIP_INJ_INJ_POS1.val m, F.DIP_INJ_INJ_POS2.val m, F.DIP_INJ_INJ_BEAT.val m) }
  | .DIP_LOG_POP => okH (if F.DIP_LOG_POP_POP.hit m then { t with dip.log := t.dip.log.drop 1 } else t)
  | _ => okH t

/-! ## TSV and fold (Tables 11.8 to 11.19) -/

/-- A channel's TSV counters. -/
def tsvClear (s : State) (ch : Nat) : State :=
  [F.TSV_DEAD_CAL_FAILS, F.TSV_DEAD_FAST_CNT, F.TSV_CAL_CNT_CAL_STEPS, F.TSV_DROP_DROP_WR, F.TSV_RPR_STAT_RPR_DONE, F.TSV_RPR_STAT_NOSPARE].foldl
    (fun t f => t.wr f 0 ch) s

/-- A write of TSV_FOLD_CTL (R253, R256): the tests of `FR_MODE`, and `FOLD_GO`. A change of `FR_MODE` moves `FSTATE` between NONE and READY. -/
def hookFold (s t : State) (m : Nat) : Hook :=
  let fr := F.TSV_FOLD_CTL_FR_MODE.hit m
  let was := s.on F.TSV_FOLD_CTL_FR_MODE
  let reaches' := (List.range 64).any fun n => s.on F.RQE_RGN_A_EN n && decide (0xF7FF < regionEnd s n (s.rd F.RQE_RGN_B_PBASE n))
  if fr && reaches' || !fr && decide (fReady < s.fstate) then noH s .state
  else
    let t := if fr && !was && s.fstate == fNone then setFstate t fReady
      else if !fr && was && s.fstate == fReady then setFstate t fNone else t
    if F.TSV_FOLD_CTL_FOLD_GO.hit m then codeH s (foldGo t (F.TSV_FOLD_CTL_FOLD_CH.val m)) else okH t

/-- TSV. -/
def hookTsv (s t : State) (r : RegId) (ch m : Nat) : Hook :=
  match r with
  | .TSV_CTL =>
    let t := if F.TSV_CTL_CNT_CLR.hit m then tsvClear t ch else t
    let t := t.wr F.TSV_STAT_STALL_CAL (b2n (F.TSV_CTL_ROLL_EN.hit m && (shadowOf s ch).isNone)) ch
    if F.TSV_CTL_KILL.hit m then codeH s (killLine t ch (F.TSV_CTL_KILL_PHY.val m)) else okH t
  | .TSV_RPR_CTL =>
    if F.TSV_RPR_CTL_RPR_GO.hit m then
      codeH s (rprQueue t ch (F.TSV_RPR_CTL_RPR_RANK.val m * 32 + F.TSV_RPR_CTL_RPR_BANK.val m) (F.TSV_RPR_CTL_RPR_ROW.val m))
    else okH t
  | .TSV_FOLD_CTL => hookFold s t m
  | _ => okH t

/-! ## MGT and the mailboxes (Tables 12.22 to 12.30) -/

/-- A write of MGT_QUIESCE (R282): waiting packets are looked at again. -/
def hookQuiesce (t : State) : Hook := okH (retake t)

/-- A write of `MDATA` (R276): the word at `MOFS` is stored, and `MOFS` advances. Only the firmware may write a response buffer. -/
def hookMdata (s : State) (who m mofs mbuf v : Nat) (adv : State → State) : Hook :=
  if mbuf = 1 ∧ who ≠ 17 then noH s .privilege
  else if mbuf = 0 ∧ mstate s m = 2 then noH s .state
  else
    let b := leBytes 4 v
    let k := mofs / 4 * 4
    okH (adv (s.modMbx m fun x => if mbuf = 1 then { x with resp := bufPut x.resp k b } else { x with cmd := bufPut x.cmd k b }))

/-- The offset after an access of `MDATA` (Table 12.30). -/
def nextMofs (mofs : Nat) : Nat := (mofs / 4 * 4 + 4) % 4096

/-- MGT. -/
def hookMgt (s t : State) (r : RegId) (who i m : Nat) : Hook :=
  match r with
  | .MGT_CTL =>
    let off := s.on F.MGT_CTL_STBY_EN && !F.MGT_CTL_STBY_EN.hit m
    let standby := !activeCore s
    let t := if off && (coreState s standby == 3 || coreState s standby == 4 || coreState s standby == 1) then setCore t standby 0 else t
    if F.MGT_CTL_TAKE.hit m then codeH s (planTakeover t 4) else okH t
  | .MGT_HEART => okH (if F.MGT_HEART_BEAT.hit m then beat (activeCore s) t else t)
  | .MGT_QUIESCE => hookQuiesce t
  | .MBX_DB => okH (doorbell i (F.MBX_DB_DB_SEQ.val m) t)
  | .MBXS_DB => okH (wakeCause 2 (doorbell 16 (F.MBXS_DB_DB_SEQ.val m) t))
  | .MBX_PTR => okH (t.wr F.MBX_PTR_MOFS (F.MBX_PTR_MOFS.val m / 4 * 4) i)
  | .MBXS_PTR => okH (t.wr F.MBXS_PTR_MOFS (F.MBXS_PTR_MOFS.val m / 4 * 4))
  | .MBX_DATA =>
    let o := s.rd F.MBX_PTR_MOFS i
    hookMdata s who i o (s.rd F.MBX_PTR_MBUF i) m fun u => u.wr F.MBX_PTR_MOFS (nextMofs o) i
  | .MBXS_DATA =>
    let o := s.rd F.MBXS_PTR_MOFS
    hookMdata s who 16 o (s.rd F.MBXS_PTR_MBUF) m fun u => u.wr F.MBXS_PTR_MOFS (nextMofs o)
  | _ => okH t

/-! ## GLB, FCR, CST, PCK, THM and SVC -/

/-- A write of a word of GLB_SCRATCH (R300). -/
def hookScratch (s : State) (who : Nat) (high : Bool) (v : Nat) : Hook :=
  if !high then okH { s with glb.latch := SMap.set s.glb.latch who v }
  else
    let s := match SMap.get? s.glb.latch who with
      | some lo => { s.wr F.GLB_SCRATCH_LO_SCR_LO lo with glb.latch := SMap.erase s.glb.latch who }
      | none => s
    okH (s.wr F.GLB_SCRATCH_HI_SCR_HI v)

/-- A warm reset is due 1 µs after a write of `WRST` (Table 13.7). -/
def wrstDue (s : State) : State :=
  match s.pck.wrstDue with
  | some _ => s
  | none => { s with pck.wrstDue := some (s.now + usec, 1) }

/-- GLB and FCR. -/
def hookGlbFcr (s t : State) (r : RegId) (who m : Nat) : Hook :=
  match r with
  | .GLB_CTL => okH (if F.GLB_CTL_WRST.hit m then wrstDue t else t)
  | .GLB_SCRATCH_LO => hookScratch s who false m
  | .GLB_SCRATCH_HI => hookScratch s who true m
  | .FCR_CTL => okH (if F.FCR_CTL_CNT_CLR.hit m then fcrClear t else t)
  | .FCR_ALERT => okH (if t.on F.FCR_ALERT_FW_ALERT then holdAlert s t else t)
  | .FCR_FF_CLR => if F.FCR_FF_CLR_FF_CLR.hit m then codeH s (ffClear t) else okH t
  | .FCR_RAISE =>
    if 286 < F.FCR_RAISE_RAISE_SRC.val m then noH s .range
    else okH (if F.FCR_RAISE_RAISE_GO.hit m then raiseGo t else t)
  | _ => okH t

/-- `CNT_CLR` of PCK_CTL (Table 18.10). -/
def pckClear (s : State) : State :=
  let s := (s.wr F.PCK_REFUSE_REFUSALS 0).clearFields [F.PCK_REFCNT_REF_N, F.PCK_REFCNT_ABORT_N] 8
  { s with pck.rlog := [] }

/-- CST, PCK and THM. -/
def hookPckThm (s t : State) (r : RegId) (m : Nat) : Hook :=
  match r with
  | .CST_CAL_CTL => if F.CST_CAL_CTL_CAL_GO.hit m then codeH s (calGo t (F.CST_CAL_CTL_RUN_MASK.val m) none) else okH t
  | .PCK_CTL => okH (if F.PCK_CTL_CNT_CLR.hit m then pckClear t else t)
  | .PCK_MODE => codeH s (modeWrite s (F.PCK_MODE_MODE.val m))
  | .PCK_CLK => if s.on F.PCK_CLK_MCK_LOCK then okH t else noH s .state
  | .THM_CTL => okH (if F.THM_CTL_CNT_CLR.hit m then thmClear t else t)
  | _ => okH t

/-- SVC (Tables 21.6 to 21.11). -/
def hookSvc (s t : State) (r : RegId) (m : Nat) : Hook :=
  match r with
  | .SVC_CTL =>
    let t := if s.on F.SVC_CTL_SVC_EN && !t.on F.SVC_CTL_SVC_EN then svcDown t else t
    okH (if F.SVC_CTL_DEAUTH.hit m then endAuth t else t)
  | .SVC_DRN_CTL =>
    let p := if F.SVC_DRN_CTL_DRN_GO.hit m then drnGo t else (.ok, t)
    if p.1 = .ok then okH (if F.SVC_DRN_CTL_DRN_ABORT.hit m then drnAbort p.2 else p.2) else noH s p.1
  | _ => okH t

/-- The hook of a register. -/
def regHook (s t : State) (r : RegId) (who i j m : Nat) : Hook :=
  match r.info.off / 0x10000 with
  | 0 | 3 => hookGlbFcr s t r who m
  | 1 | 2 | 5 => hookPckThm s t r m
  | 6 => hookMgt s t r who i m
  | 7 => hookSvc s t r m
  | 8 => hookHlp s t r i j m
  | 9 => hookHll s t r i m
  | 10 => hookRqe s t r i m
  | 11 => hookReg s t r who i m
  | 12 => hookDip s t r m
  | 13 => hookRfm s t r m
  | 14 | 15 => hookTsv s t r i m
  | 16 | 17 => hookScc s t r i m
  | 32 | 33 | 34 | 35 => hookDmc s t r i m
  | _ => okH t

end Sys2Proof.Machine
end

