-- ==== Sys2Proof/Machine/RegAccess.lean ====
section
/-! DEFINITION. A register access (ch. 13): which register an offset names, who may reach it, what is checked and in which order, and how it is answered. -/

namespace Sys2Proof.Machine

/-! ## Which register (R286, R304) -/

/-- The instance of a register at a byte distance from its first, if the distance names one. -/
def instAt (r : RegId) (d : Nat) : Option (Nat × Nat) :=
  let q := r.info
  let i := if q.s1 = 0 then 0 else d / q.s1
  let rest := if q.s1 = 0 then d else d % q.s1
  let j := if q.s2 = 0 then 0 else rest / q.s2
  if decide (q.lo1 ≤ i) && decide (i < q.n1) && decide (j < q.n2) && q.s1 * i + q.s2 * j == d then some (i, j) else none

/-- The register and instance that a byte offset names; none where no table assigns it (R294). -/
def regAt (off : Nat) : Option (RegId × Nat × Nat) :=
  let off := off / 4 * 4
  (regsOfPage (off / 0x10000)).findSome? fun r =>
    if off < r.info.off then none else (instAt r (off - r.info.off)).map fun p => (r, p.1, p.2)

/-- The index of the instance that a master reaches: banked registers have one copy for each (R286). -/
def ownIdx (r : RegId) (who i : Nat) : Nat := if r.info.reach = .banked then who else i

/-! ## Privilege (R285 to R289) -/

/-- The letters of Table 13.1 that a master holds for an instance: P 1, T 2, S 4, F 8. T reaches only the master's own instance of a register arrayed
by domain (R286), and `T_WR_EN` = 0 takes it from the writes of `WHO` 1 to 15 (R289). -/
def letters (s : State) (r : RegId) (who i : Nat) (wr : Bool) : Nat :=
  let own := r.info.reach != .domain || i == who
  if who = 17 then 8
  else if who = 16 then (if s.mgt.auth then 5 else 0)
  else if who = 0 then 1 + 2 * b2n own
  else if who < 16 then 2 * b2n (own && (!wr || s.on F.GLB_CTL_T_WR_EN))
  else 0

/-- A master with some letters may access a field (R288). -/
def mayField (ls : Nat) (f : Fld) : Bool := Nat.land ls f.priv != 0

/-- The registers that a service host may read before it is authenticated (R287). -/
def openReg (r : RegId) : Bool :=
  match r with
  | .GLB_ID | .GLB_STAT | .GLB_SERIAL | .GLB_LAS | .GLB_LFAIL | .GLB_LFAIL_DET => true
  | _ => false

/-! ## Reach (R298) -/

/-- Registers can be accessed: in the power states of Table 13.3, in an entry, in a sequence before its switch-over, and in a cold boot once power-on reset
is released (Table 21.4). -/
def regsOpen (s : State) : Bool :=
  match s.pck.pow with
  | .run | .idle | .sleep | .entering | .powerFail => true
  | .boot => decide (4 ≤ s.pck.step)
  | _ => false

/-- A group's block, or HLL, while the group is in DEEP (Table 13.3). Registers of HLL that belong to no group are out of reach while any group is. -/
def inDeep (s : State) (r : RegId) (g : Nat) : Bool :=
  let page := r.info.off / 0x10000
  if page = 8 then (s.grp g).gst == .deep
  else if r.info.off ≥ 0x90100 then (s.grp g).gst == .deep
  else (List.range 16).any fun k => (s.grp k).gst == .deep

/-- The block's clock domain is stopped (R298, Table 13.3, R320). -/
def clockStopped (s : State) (r : RegId) (i : Nat) : Bool :=
  let page := r.info.off / 0x10000
  let sleep := s.pck.pow == .sleep
  if page = 8 ∨ page = 9 then sleep && inDeep s r i
  else if page = 10 ∨ page = 11 ∨ page = 16 ∨ page = 17 then sleep || s.pck.fabDown
  else if 12 ≤ page ∧ page ≤ 15 ∨ 32 ≤ page then
    sleep || (decide (1 < r.info.n1) && decide (r.info.n1 = 32) && bit s.pck.dckDown (i / 8))
  else false

/-! ## Reads -/

/-- A measurement that a read looks at: a checker's errors. -/
def preRead (s : State) (r : RegId) (i j : Nat) : State :=
  match r with
  | .HLP_LN_ERR => sampleErrors s i j
  | _ => s

/-- What a read with result OK does to the register: fields of type RC clear when the master may read them (R293), and `MOFS` advances (Table 12.30). -/
def postRead (s : State) (r : RegId) (i j : Nat) (may : Fld → Bool) : State :=
  let s := r.info.flds.foldl (fun t f => if f.acc = .rc && may f then t.wr f 0 i j else t) s
  match r with
  | .MBX_DATA => s.wr F.MBX_PTR_MOFS (nextMofs (s.rd F.MBX_PTR_MOFS i)) i
  | .MBXS_DATA => s.wr F.MBXS_PTR_MOFS (nextMofs (s.rd F.MBXS_PTR_MOFS))
  | _ => s

/-- A read of the response buffer while the mailbox is BUSY is refused (R276). -/
def readRefused (s : State) (r : RegId) (i : Nat) : Bool :=
  match r with
  | .MBX_DATA => s.on F.MBX_PTR_MBUF i && mstate s i == 2
  | .MBXS_DATA => s.on F.MBXS_PTR_MBUF && mstate s 16 == 2
  | _ => false

/-- A register is read: result code, value, and the state after (R288, R290, R293). -/
def readReg (s : State) (who : Nat) (r : RegId) (i0 j : Nat) : Code × Nat × State :=
  let i := ownIdx r who i0
  let ls := letters s r who i false
  let open' := who = 16 ∧ ¬ s.mgt.auth
  let may (f : Fld) : Bool := if open' then openReg r else mayField ls f
  if !(r.info.flds.any may) then (.privilege, 0, s)
  else if clockStopped s r i || readRefused s r i then (.state, 0, s)
  else
    let s := preRead s r i j
    (.ok, showReg s r who i j may, postRead s r i j may)

/-! ## Writes -/

/-- A written value that a field may not hold (R10, R291). Fields of one bit and fields that only some values start are judged by the hook. -/
def illegal (f : Fld) (v : Nat) : Bool :=
  match f.legal with
  | [] => false
  | l => !(l.any fun p => decide (p.1 ≤ f.val v) && decide (f.val v ≤ p.2))

/-- Store the written fields (R291): RW takes the value, RW1C clears, RW1S sets; persistent fields are stored when their MRAM write completes. -/
def storeFields (s : State) (r : RegId) (i j v : Nat) (may : Fld → Bool) : State :=
  r.info.flds.foldl (fun t f =>
    if !may f then t else
    match f.acc with
    | .rw | .rwp => t.wr f (f.val v) i j
    | .rwpl => t
    | .rw1c => t.wr f (t.rd f i j - Nat.land (t.rd f i j) (f.val v)) i j
    | .rw1s => t.wr f (Nat.lor (t.rd f i j) (f.val v)) i j
    | _ => t) s

/-- The word with the bits of fields that the master may not write at zero. -/
def maskedWord (r : RegId) (v : Nat) (may : Fld → Bool) : Nat :=
  r.info.flds.foldl (fun m f => if may f then m + f.val v * 2 ^ f.lo else m) 0

/-- The stack word, mask and value that a write of persistent fields would store (R301, R303, R325, Table 15.2), none where it leaves them as they are. -/
def persistWord (s : State) (r : RegId) (i m : Nat) : Option (Nat × Nat × Nat) :=
  let differs (n mask val : Nat) : Option (Nat × Nat × Nat) := if mask = 0 then none else some (n, mask, val)
  match r with
  | .TSV_FOLD_CTL =>
    let a := F.TSV_FOLD_CTL_FR_MODE.val m
    let b := F.TSV_FOLD_CTL_FOLD_AUTO.val m
    if a = s.rd F.TSV_FOLD_CTL_FR_MODE ∧ b = s.rd F.TSV_FOLD_CTL_FOLD_AUTO then none else differs 3 3 (a + 2 * b)
  | .MGT_BOOT => if F.MGT_BOOT_BOOT_SLOT.val m = s.rd F.MGT_BOOT_BOOT_SLOT then none else differs 5 1 (F.MGT_BOOT_BOOT_SLOT.val m)
  | .GLB_PLOCK =>
    let new' := maskOf ((onesOf (F.GLB_PLOCK_PLOCK.val m) 8).filter fun k => !bit (s.rd F.GLB_PLOCK_PLOCK) k)
    differs 5 (new' * 256) (new' * 256)
  | .GLB_PLOCK_CLR => differs 5 (Nat.land (s.rd F.GLB_PLOCK_PLOCK) (F.GLB_PLOCK_CLR_PUNLOCK.val m) * 256) 0
  | .PST_PREG => if i < 32 ∨ s.mramAt (pregIdx i) = m then none else differs i (2 ^ 32 - 1) m
  | _ => none

/-- The lock group of the register is locked (R303). -/
def pregLocked (s : State) (r : RegId) (i : Nat) : Bool :=
  match r with
  | .PST_PREG => decide (32 ≤ i) && bit (s.rd F.GLB_PLOCK_PLOCK) (i / 64)
  | _ => false

/-- A field of the write lies in the window of a basic command (R25). -/
def inWindow (s : State) (who : Nat) (r : RegId) (i j : Nat) (may : Fld → Bool) : Bool :=
  decide (who ≤ 16) && r.info.flds.any fun f => may f && f.acc != .ro && f.acc != .rc && windowHolds s (f.at i j)

/-- How a write stands: done with a code and detail word, or waiting for its MRAM word. -/
inductive WriteEnd where
  | done (c : Code) (detail : Nat)
  | waits
  deriving DecidableEq, Repr

/-- The checks of a write in the order of R12, with R25's exception, and its effect (R288 to R292, R301, R303). -/
def writeReg (s : State) (who : Nat) (org : Origin) (r : RegId) (i0 j v : Nat) : WriteEnd × State :=
  let i := ownIdx r who i0
  let ls := letters s r who i true
  let may (f : Fld) : Bool := mayField ls f
  let m := maskedWord r v may
  let no (c : Code) : WriteEnd × State := (.done c 0, s)
  if !(r.info.flds.any may) then no .privilege
  else
    let h := regHook s (storeFields s r i j v may) r who i j m
    if h.1 = .privilege then (.done .privilege 0, h.2.2)
    else if (r.info.flds.any fun f => may f && illegal f v) ∨ h.1 = .badValue then no .badValue
    else if inWindow s who r i j may then no .busy
    else if h.1 = .range then no .range
    else if pregLocked s r i then no .locked
    else if clockStopped s r i then no .state
    else if h.1 ≠ .ok ∧ h.1 ≠ .overcommit ∧ h.1 ≠ .busy ∧ h.1 ≠ .resource then no h.1
    else match persistWord s r i m with
      | none => if h.1 = .ok then (.done .ok 0, h.2.2) else (.done h.1 h.2.1, s)
      | some (n, mask, val) =>
        if wearLimit ≤ s.wearAt (pregIdx n) then no .wearLimit
        else if h.1 ≠ .ok then (.done h.1 h.2.1, s)
        else if s.pst.only then no .lost
        else (.waits, s.portPut [{ cls := 2, idx := pregIdx n, mask := mask, val := val, act := .preg who org r i j v }])

/-- The stored write takes effect: every field of the write, and its action (R301). Privilege was judged when the write was accepted, and every
field of a register that holds a persistent one has the same letters. -/
def applyPreg (s : State) (who : Nat) (r : RegId) (i j v : Nat) : State :=
  let may (_ : Fld) : Bool := true
  let m := maskedWord r v may
  match r with
  | .GLB_PLOCK_CLR => s.wr F.GLB_PLOCK_PLOCK (s.rd F.GLB_PLOCK_PLOCK - Nat.land (s.rd F.GLB_PLOCK_PLOCK) (F.GLB_PLOCK_CLR_PUNLOCK.val m))
  | _ =>
    let t := storeFields s r i j v may
    let h := regHook s t r who i j m
    if h.1 = .ok then h.2.2 else t

/-! ## Accesses and their answers (R294 to R297) -/

/-- A persistent write of the master is under way (R297). -/
def pregPending (s : State) (who : Nat) : Bool :=
  let mine (w : MWord) : Bool := match w.act with
    | .preg w' org _ _ _ _ => w' == who && (match org with
      | .mailbox _ => false
      | _ => true)
    | _ => false
  s.pst.q.any mine || (match s.pst.port with
    | some w => mine w
    | none => false)

/-- An access that reads: its value, the Last Access Status and the answer. A location that no table assigns reads zero (R294); the registers of
R295 show what they held before. -/
def runRead (s : State) (a : RegAcc) : State :=
  match regAt a.off with
  | none => answerAcc (recordAcc s a.who false a.off .ok 0) a.org false .ok 0
  | some (r, i, j) =>
    let (c, v, t) := readReg s a.who r i j
    answerAcc (recordAcc t a.who false a.off c 0) a.org false c v

/-- An access that writes. -/
def runWrite (s : State) (a : RegAcc) : State :=
  match regAt a.off with
  | none => answerAcc (recordAcc s a.who true a.off .ok 0) a.org true .ok 0
  | some (r, i, j) =>
    match writeReg s a.who a.org r i j a.val with
    | (.done c d, t) => answerAcc (recordAcc t a.who true a.off c d) a.org true c 0
    | (.waits, t) => t

/-- Execute one access. -/
def runAcc (s : State) (a : RegAcc) : State := if a.wr then runWrite s a else runRead s a

/-- An access arrives: the accesses of one master are executed one at a time, in order (R297). -/
def access (s : State) (a : RegAcc) : State :=
  if !regsOpen s then s
  else if pregPending s a.who then { s with glb.waits := SMap.set s.glb.waits a.who (SMap.getD s.glb.waits a.who [] ++ [a]) }
  else runAcc s a

/-- Execute waiting accesses of a master until one waits for the MRAM port again. The fuel is how many wait. -/
def runWaitsOf : Nat → Nat → State → State
  | 0, _, s => s
  | n + 1, who, s =>
    if pregPending s who then s else
    match SMap.getD s.glb.waits who [] with
    | [] => s
    | a :: rest => runWaitsOf n who (runAcc { s with glb.waits := SMap.put s.glb.waits who [] rest } a)

/-- Execute waiting accesses of every master, in the order of R297: `WHO` 17, 16, then 0 to 15. -/
def runWaits (s : State) : State :=
  ([17, 16] ++ List.range 16).foldl (fun t who => runWaitsOf (SMap.getD t.glb.waits who []).length who t) s

/-- A write by one instance of a register's name, as a register row commands it: by the master, on its path. -/
def writeBy (s : State) (who : Nat) (r : RegId) (i j v : Nat) : State :=
  access s { who := who, org := .core, wr := true, off := regOffset r i j, val := v }

/-- A read likewise. -/
def readBy (s : State) (who : Nat) (r : RegId) (i j : Nat) : State :=
  access s { who := who, org := .core, wr := false, off := regOffset r i j, val := 0 }

end Sys2Proof.Machine
end

