-- ==== Sys2Proof/Machine/Store.lean ====
section
/-! DEFINITION. The end of an MRAM word write and what follows from it (R301, R324, R327, Table 15.3), and the lifetime counter (R326). -/

namespace Sys2Proof.Machine

/-- The MRAM words that the repair in progress on channel `ch` writes (Table 11.5, step 3): in both copies, the spare's word and that of the spare it replaces. -/
def repairIdx (s : State) (ch : Nat) : List Nat :=
  match (s.tsvCh ch).cur with
  | none => []
  | some (bank, r, sp) =>
    let old := match spareOf s ch bank r with
      | some k => [rmapWord ch bank k 0, rmapWord ch bank k 1]
      | none => []
    old ++ [rmapWord ch bank sp 0, rmapWord ch bank sp 1]

/-- The channel whose repair writes a word, if any. -/
def repairOf (s : State) (idx : Nat) : Option Nat := (List.range 32).find? fun c => (repairIdx s c).contains idx

/-- Whether a word belongs to a fault-log record; a log record's words. -/
def isLogWord (w : MWord) : Bool :=
  match w.act with
  | .logWord _ _ => true
  | .logEnd _ _ => true
  | _ => false

/-- Logging stops when a log word reaches its limit (R315). -/
def logWorn (s : State) : State :=
  if s.on F.FCR_LOG_LOG_WEAR then s else
  ((s.wr F.FCR_LOG_LOG_WEAR 1).putStackWord 5 16 1 1).raiseG 283 .warn 0 2

/-- The words of the store write in progress that are still queued are given up: the store keeps the older copy (Table 15.3). -/
def dropCalWords : List MWord → List MWord
  | [] => []
  | w :: rest => if w.cls = 3 then (if w.act = .calEnd then rest else dropCalWords rest) else w :: dropCalWords rest

/-- A write to a word at its limit is refused and changes nothing; the outcome is the area's (R327, Table 15.3). The event that a retirement's record
announces is raised all the same. -/
def wordWorn (s : State) (w : MWord) : State :=
  match w.act with
  | .preg .. => refusePreg s w .wearLimit
  | .fw m => wordDone s m .wearLimit
  | .retire c kind which => tsvEvent s c kind which
  | _ =>
    if w.cls = 3 then
      calStored { s with cst.worn := true, pst.q := if w.act = .calEnd then s.pst.q else dropCalWords s.pst.q }
    else match (if isRepairWord w then repairOf s w.idx else none) with
      | none => s
      | some ch =>
        let ws := repairIdx s ch
        repairWorn ch { s with pst.q := s.pst.q.filter fun x => !(isRepairWord x && ws.contains x.idx) }

/-- What the end of a word's write sets off (R301, R245, R252, R348, R446). -/
def wordStored (s : State) (w : MWord) : State :=
  match w.act with
  | .preg who org r i j v =>
    answerAcc (recordAcc (applyPreg s who r i j v) who true (regOffset r i j) .ok 0) org true .ok 0
  | .repair c _ _ => s.setTsv c { s.tsvCh c with stored := true }
  | .calEnd => calStored s
  | .fw m => wordDone s m .ok
  | .retire c kind which => tsvEvent s c kind which
  | _ => s

/-- Store the content of a word and count its wear (R327). Word 0 of the stack words carries the lifetime count (R326). -/
def storeWord (s : State) (idx v : Nat) : State :=
  let s := { s with pst.mram := SMap.put s.pst.mram idx 0 v, pst.bad := s.pst.bad.erase idx }
  let s := if idx = pregIdx 0 then { s with pst.lifeAon := s.rd F.PST_LIFE_LIFE_S - v } else s
  setWear s idx (s.wearAt idx + 1)

/-- The word at the port ends: `torn` says that its verify failed twice, which leaves an open content and sets the word's wear to the limit (R324). -/
def finishWord (s : State) (w : MWord) (torn : Bool) : State :=
  let old := s.mramAt w.idx
  let new := w.result old
  let atLimit (s : State) : Bool := decide (wearLimit ≤ s.wearAt w.idx)
  if new = old ∧ ¬ s.pst.bad.contains w.idx then wordStored s w
  else if atLimit s then wordWorn s w
  else
    let done : State := if torn then
        let (v, s) := s.draw
        wordWorn (setWear { s with pst.mram := SMap.put s.pst.mram w.idx 0 (v % 2 ^ 32) } w.idx wearLimit) w
      else wordStored (storeWord s w.idx new) w
    if isLogWord w && atLimit done then logWorn done else done

/-- The word write in progress ends, and the port and the masters that waited go on (R297, R324). -/
def wordEnd (torn : Bool) (s : State) : State :=
  match s.pst.port with
  | none => s
  | some w => runWaits (finishWord { s with pst.port := none } w torn).portStart

/-- The port holds a persistent-register write of some access. -/
def pregAtPort (s : State) : Bool :=
  match s.pst.port with
  | some w => (match w.act with
    | .preg .. => true
    | _ => false)
  | none => false

/-- PERSISTENT_WRITE_COMMIT: the write at the port is that of a register (R301). -/
def persistentCommit (torn : Bool) (s : State) : State := if pregAtPort s then wordEnd torn s else s

/-- The lifetime count runs (R326): in RUN, IDLE, SLEEP and ENTERING, and in sequences up to the switch-over. -/
def lifeRuns (s : State) : Bool :=
  match s.pck.pow with
  | .run | .idle | .sleep | .entering | .warm => true
  | .powerFail => beforeSwitch s
  | _ => false

/-- A second of the lifetime count (R326): stored once per hour of count. -/
def lifetimeSecond (s : State) : State :=
  if !lifeRuns s then s else
  let n := s.pst.lifeAon + 1
  let s := { s.inc F.PST_LIFE_LIFE_S with pst.lifeAon := n }
  if n % 3600 = 0 then s.putStackWord 0 0 32 (s.rd F.PST_LIFE_LIFE_S) else s

end Sys2Proof.Machine
end

