-- ==== Sys2Proof/Machine/Service.lean ====
section
/-! DEFINITION. The service port: its link, its frames and the service host's authentication (ch. 21). -/

namespace Sys2Proof.Machine

/-! ## Frames (R430 to R432) -/

/-- Frames are executed where the register interface is reached (Table 21.4), over a link that is up. -/
def framesOpen (s : State) : Bool := svcUp s && regsOpen s

/-- A frame is counted (Table 21.11). -/
def countFrame (s : State) : State := s.inc F.SVC_CNT_FRAMES

/-- An MBX frame (R431): the message is written and the doorbell rings, unless the mailbox is BUSY or a frame is outstanding. In SLEEP it wakes the
stack (Table 21.4). -/
def mbxFrame (stag : Nat) (msg : List Byte) (s : State) : State :=
  if !framesOpen s then s else
  let s := countFrame s
  if msg.length < 16 ∨ 4096 < msg.length then frameErr s stag .badLength
  else if s.svc.mbxTag.isSome ∨ mstate s 16 = 2 then frameErr s stag .state
  else
    let s := { s.modMbx 16 fun x => { x with cmd := bufPut x.cmd 0 msg } with svc.mbxTag := some stag }
    wakeCause 2 (doorbell 16 (leAt msg 2 2) s)

/-- An RREG frame: a read by `WHO` 16 (R432). -/
def svcRreg (stag raddr : Nat) (s : State) : State :=
  if !framesOpen s then s else
  access (countFrame s) { who := 16, org := .svc stag, wr := false, off := raddr % 2 ^ 24, val := 0 }

/-- A WREG frame: a write by `WHO` 16 (R432). -/
def svcWreg (stag raddr data : Nat) (s : State) : State :=
  if !framesOpen s then s else
  access (countFrame s) { who := 16, org := .svc stag, wr := true, off := raddr % 2 ^ 24, val := data % 2 ^ 32 }

/-- A malformed or unknown frame is answered with FRAME_ERR (R430). -/
def badFrame (stag : Nat) (c : Code) (s : State) : State := if !framesOpen s then s else frameErr (countFrame s) stag c

/-- A frame as it arrives on EP1 OUT (R430, Table 21.3). -/
def frameArrive (f : List Byte) (s : State) : State :=
  let typ := leAt f 0 1
  let stag := leAt f 2 2
  let flen := leAt f 4 4
  let body := f.drop 8
  if f.length < 8 ∨ (1 ≤ typ ∧ typ ≤ 3 ∧ flen ≠ body.length) then badFrame stag .badLength s
  else match typ with
    | 1 => mbxFrame stag body s
    | 2 => if flen = 4 then svcRreg stag (leAt body 0 4) s else badFrame stag .badLength s
    | 3 => if flen = 8 then svcWreg stag (leAt body 0 4) (leAt body 4 4) s else badFrame stag .badLength s
    | _ => badFrame stag .badOpcode s

/-! ## The link (R428) -/

/-- The lanes of the service port are driven (Table 21.4). -/
def svcPowered (s : State) : Bool :=
  match s.pck.pow with
  | .run | .idle | .sleep | .entering | .warm => true
  | .powerFail => beforeSwitch s
  | .boot => decide (4 ≤ s.pck.step)
  | _ => false

/-- Set the link state; each change raises source 285 (R428). -/
def setSlstate (s : State) (v : Nat) : State :=
  if s.rd F.SVC_STAT_SLSTATE = v then s else
  (s.wr F.SVC_STAT_SLSTATE v).raiseG 285 .info 0 (b2n (decide (2 ≤ v)))

/-- The service link changes state (R428): 0 down, 1 training, 2 CL0, 3 CL0s, 4 CL1. `gen3` says that Gen 3 trains. A link that drops retrains. -/
def linkChange (v : Nat) (gen3 : Bool) (s : State) : State :=
  let cur := s.rd F.SVC_STAT_SLSTATE
  if v = 0 then svcDown s
  else if !svcPowered s || !s.on F.SVC_CTL_SVC_EN then s
  else match v with
    | 1 => setSlstate (if 2 ≤ cur then svcDown s else s) 1
    | 2 =>
      if cur = 0 then s
      else if cur = 1 then setSlstate (s.wr F.SVC_STAT_SGEN (if gen3 && !s.on F.SVC_CTL_GEN2_ONLY then 3 else 2)) 2
      else setSlstate s 2
    | 3 => if cur = 2 then setSlstate s 3 else s
    | 4 => if (cur = 2 ∨ cur = 3) ∧ s.on F.SVC_CTL_CL1_EN then setSlstate s 4 else s
    | _ => s

/-! ## Standard requests on EP0 (R429; layouts of USB 3.2, PRESUMED, log entry 60) -/

/-- The device descriptor: idVendor and idProduct as R429 says. -/
def deviceDesc (s : State) : List Byte :=
  [18, 1, 0x20, 3, 0, 0, 0, 9] ++ leBytes 2 (s.rd F.SVC_USB_ID_VID) ++ leBytes 2 (s.rd F.SVC_USB_ID_PID) ++ [0, 0, 0, 0, 0, 1]

/-- One bulk endpoint of Table 21.2: packets of 1,024 bytes, bursts of sixteen. -/
def endpointDesc (a : Byte) : List Byte := [7, 5, a, 2, 0, 4, 0] ++ [6, 0x30, 15, 0, 0, 0]

/-- The configuration: one interface of class 0xFF with the endpoints of Table 21.2. -/
def configDesc : List Byte :=
  let eps := [0x01, 0x81, 0x82, 0x03, 0x83].flatMap fun (a : Byte) => endpointDesc a
  [9, 2] ++ leBytes 2 (18 + eps.length) ++ [1, 1, 0, 0xC0, 0] ++ [9, 4, 0, 0, 5, 0xFF, 0, 0, 0] ++ eps

/-- A standard request: request code, value and length of the setup packet. SET_CONFIGURATION configures the function. -/
def ep0Request (req value len : Nat) (s : State) : State :=
  if !svcUp s then s else
  let send (d : List Byte) : State := { s with out := s.out ++ [.ep0 (d.take len)] }
  match req with
  | 6 => if value / 256 = 1 then send (deviceDesc s) else if value / 256 = 2 then send configDesc else s
  | 8 => send [BitVec.ofNat 8 (s.rd F.SVC_STAT_USB_CFG)]
  | 9 => if value % 256 ≤ 1 then s.wr F.SVC_STAT_USB_CFG (value % 256) else s
  | _ => s

/-! ## Authentication (R433, R434) -/

/-- The nonce becomes invalid ten seconds after it was issued. -/
def nonceExpiry (s : State) : State :=
  match s.mgt.nonce with
  | some (_, t) => if t ≤ s.now then { s with mgt.nonce := none } else s
  | none => s

/-- Sixty seconds after the fourth failure, `AUTH_LOCK` clears. -/
def authLockEnd (s : State) : State :=
  if s.on F.SVC_STAT_AUTH_LOCK && decide (s.mgt.lockTo ≤ s.now) then { s.wr F.SVC_STAT_AUTH_LOCK 0 with mgt.fails := [] } else s

/-- A failed proof (R434): counted, source 282 with AUTH as value; the fourth within 60 s locks. -/
def authFailed (s : State) : State :=
  let s := (s.inc F.SVC_AUTH_STAT_AUTH_FAILS).raiseG 282 .warn 0 Code.auth.num
  let fails := (s.mgt.fails.filter fun t => decide (s.now < t + 60 * second)) ++ [s.now]
  let s := { s with mgt.fails := fails }
  if 4 ≤ fails.length then { s.wr F.SVC_STAT_AUTH_LOCK 1 with mgt.lockTo := s.now + 60 * second } else s

/-- A proof that succeeds: the service host holds P and S, and the event records count from 0 (R433, R436). -/
def authPassed (s : State) : State := { s.inc F.SVC_AUTH_STAT_AUTH_OKS with mgt.auth := true, svc.recSeq := 0 }

end Sys2Proof.Machine
end

