-- ==== Sys2Proof/Machine/Actions.lean ====
section
/-! DEFINITION. The commands that are a write or a read of one register: the access of ch. 13 with the bits that the command names (Tables of the
register's chapter). `who` is the master (Table 13.1), `v` the word written; a write by a packet or a frame that carries its answer is RREG, WREG,
SVC_RREG_FRAME or SVC_WREG_FRAME. -/

namespace Sys2Proof.Machine

/-- A word with some fields at given values. -/
def withBits (v : Nat) (fs : List (Fld × Nat)) : Nat := fs.foldl (fun w f => setBits w f.1.lo f.1.w f.2) v

/-- A write of one register with the bits that make it the command it is. -/
def regAction (r : RegId) (i j : Nat) (fs : List (Fld × Nat)) (who v : Nat) (s : State) : State := writeBy s who r i j (withBits v fs)

/-- REGISTER_WRITE (R291): any write, by its offset. -/
def registerWrite (who off v : Nat) (s : State) : State := access s { who := who, org := .core, wr := true, off := off, val := v }

/-- ERRORS_READ (R293): a read of a lane's `ERRORS` counter. -/
def errorsRead (who g l : Nat) (s : State) : State := readBy s who .HLP_LN_ERR g l

/-- MDATA_ACCESS (R276): a read or a write of the data word of a mailbox, 16 the service mailbox. -/
def mdataAccess (who m : Nat) (wr : Bool) (v : Nat) (s : State) : State :=
  let r : RegId := if m < 16 then .MBX_DATA else .MBXS_DATA
  let i := if m < 16 then m else 0
  if wr then writeBy s who r i 0 v else readBy s who r i 0

/-- BEAT (R268): a core restarts its own watchdog. The active core's write is that of MGT_HEART; the standby core writes its own copy (R263). -/
def beatWrite (coxB : Bool) (s : State) : State :=
  if coxB = activeCore s then writeBy s 17 .MGT_HEART 0 0 1
  else if regsOpen s && (coreState s coxB == 3 || coreState s coxB == 4) then beat coxB s else s

/-- RETRAIN (R34): a write of HLP[g]_CTL with `RETRAIN` = 1. -/
def retrainWrite (who g v : Nat) (s : State) : State := regAction .HLP_CTL g 0 [(F.HLP_CTL_RETRAIN, 1)] who v s

/-- TEST_MODE_SET (R34): `TEST` = 1. -/
def testSet (who g v : Nat) (s : State) : State := regAction .HLP_CTL g 0 [(F.HLP_CTL_TEST, 1)] who v s

/-- TEST_MODE_CLEAR (R34): `TEST` = 0. -/
def testClear (who g v : Nat) (s : State) : State := regAction .HLP_CTL g 0 [(F.HLP_CTL_TEST, 0)] who v s

/-- INJ_GO (R46). -/
def injGo (who g v : Nat) (s : State) : State := regAction .HLP_INJ g 0 [(F.HLP_INJ_INJ_GO, 1)] who v s

/-- CHK_EN_WRITE (R45): `CHK_EN` = 1 of a lane. -/
def chkEnWrite (who g l v : Nat) (s : State) : State := regAction .HLP_LN_CTL g l [(F.HLP_LN_CTL_CHK_EN, 1)] who v s

/-- TURN_GO (R74). -/
def turnGo (who v : Nat) (s : State) : State := regAction .HLL_TURN 0 0 [(F.HLL_TURN_TURN_GO, 1)] who v s

/-- HLL_CNT_CLR (R79). -/
def hllCntClr (who v : Nat) (s : State) : State := regAction .HLL_CTL 0 0 [(F.HLL_CTL_CNT_CLR, 1)] who v s

/-- PURGE (R133). -/
def purgeWrite (who d v : Nat) (s : State) : State := regAction .RQE_DOM_CTL d 0 [(F.RQE_DOM_CTL_PURGE, 1)] who v s

/-- REGION_WRITE (R119): a word of a region entry, `RGN_B` when `second`. -/
def regionWrite (second : Bool) (who n v : Nat) (s : State) : State := regAction (if second then .RQE_RGN_B else .RQE_RGN_A) n 0 [] who v s

/-- RQE_CNT_CLR (R136). -/
def rqeCntClr (who v : Nat) (s : State) : State := regAction .RQE_CTL 0 0 [(F.RQE_CTL_CNT_CLR, 1)] who v s

/-- CTX_READ (R139): `OP` = READ. -/
def ctxReadGo (who v : Nat) (s : State) : State := regAction .REG_CTX_CMD 0 0 [(F.REG_CTX_CMD_OP, 1)] who v s

/-- CTX_WRITE (R140): `OP` = WRITE. -/
def ctxWriteGo (who v : Nat) (s : State) : State := regAction .REG_CTX_CMD 0 0 [(F.REG_CTX_CMD_OP, 2)] who v s

/-- COUNTER_SNAPSHOT (R151): a write of `CIDX`. -/
def counterSnapshot (who v : Nat) (s : State) : State := regAction .REG_CNT_IDX 0 0 [] who v s

/-- WATCH_SELECT (R152). -/
def watchSelect (who v : Nat) (s : State) : State := regAction .REG_WSEL 0 0 [] who v s

/-- BOW_RANGE_WRITE (R138): REG[d]_BOW, or REG[d]_BOW_EN when `second`. -/
def bowRangeWrite (second : Bool) (who d v : Nat) (s : State) : State := regAction (if second then .REG_BOW_EN else .REG_BOW) d 0 [] who v s

/-- RESERVATION_WRITE (R148). -/
def reservationWrite (who n v : Nat) (s : State) : State := regAction .REG_RSV_A n 0 [] who v s

/-- REG_CNT_CLR (R154). -/
def regCntClr (who v : Nat) (s : State) : State := regAction .REG_CTL 0 0 [(F.REG_CTL_CNT_CLR, 1)] who v s

/-- CLEAN (R166). -/
def cleanWrite (who sl v : Nat) (s : State) : State := regAction .SCC_OPS_CMD sl 0 [(F.SCC_OPS_CMD_OP, 1)] who v s

/-- CLEAN_INV (R166). -/
def cleanInvWrite (who sl v : Nat) (s : State) : State := regAction .SCC_OPS_CMD sl 0 [(F.SCC_OPS_CMD_OP, 2)] who v s

/-- WRITE_THROUGH_SET (R165): `WT` = 1. -/
def writeThroughSet (who sl v : Nat) (s : State) : State := regAction .SCC_CTL sl 0 [(F.SCC_CTL_WT, 1)] who v s

/-- BYPASS_WRITE (R173): a write of SCC[s]_CTL. -/
def bypassWrite (who sl v : Nat) (s : State) : State := regAction .SCC_CTL sl 0 [] who v s

/-- WAY_DISABLE_WRITE (R172). -/
def wayDisable (who sl v : Nat) (s : State) : State := regAction .SCC_WAYS sl 0 [] who v s

/-- SCC_CNT_CLR (R175). -/
def sccCntClr (who sl v : Nat) (s : State) : State := regAction .SCC_CTL sl 0 [(F.SCC_CTL_CNT_CLR, 1)] who v s

/-- CH_RST (R192). -/
def chRst (who ch v : Nat) (s : State) : State := regAction .DMC_CTL ch 0 [(F.DMC_CTL_CH_RST, 1)] who v s

/-- TRAIN_GO (R189). -/
def trainGo (who ch v : Nat) (s : State) : State := regAction .DMC_TRAIN_CTL ch 0 [(F.DMC_TRAIN_CTL_TRAIN_GO, 1)] who v s

/-- DMC_CNT_CLR (R197). -/
def dmcCntClr (who ch v : Nat) (s : State) : State := regAction .DMC_CTL ch 0 [(F.DMC_CTL_CNT_CLR, 1)] who v s

/-- ST_THR_WRITE (R206): a write of RFM_CTL. -/
def stThrWrite (who v : Nat) (s : State) : State := regAction .RFM_CTL 0 0 [] who v s

/-- RFM_CNT_CLR (R213). -/
def rfmCntClr (who v : Nat) (s : State) : State := regAction .RFM_CTL 0 0 [(F.RFM_CTL_CNT_CLR, 1)] who v s

/-- INJ_ARM (R236). -/
def injArm (who v : Nat) (s : State) : State := regAction .DIP_INJ 0 0 [(F.DIP_INJ_INJ_ARM, 1)] who v s

/-- POP (R234). -/
def popWrite (who v : Nat) (s : State) : State := regAction .DIP_LOG_POP 0 0 [(F.DIP_LOG_POP_POP, 1)] who v s

/-- DIP_CNT_CLR (R238). -/
def dipCntClr (who v : Nat) (s : State) : State := regAction .DIP_CTL 0 0 [(F.DIP_CTL_CNT_CLR, 1)] who v s

/-- KILL (R245). -/
def killWrite (who ch v : Nat) (s : State) : State := regAction .TSV_CTL ch 0 [(F.TSV_CTL_KILL, 1)] who v s

/-- RPR_GO (R251). -/
def rprGo (who ch v : Nat) (s : State) : State := regAction .TSV_RPR_CTL ch 0 [(F.TSV_RPR_CTL_RPR_GO, 1)] who v s

/-- FOLD_GO (R256). -/
def foldGoWrite (who v : Nat) (s : State) : State := regAction .TSV_FOLD_CTL 0 0 [(F.TSV_FOLD_CTL_FOLD_GO, 1)] who v s

/-- TSV_CNT_CLR (R260). -/
def tsvCntClr (who ch v : Nat) (s : State) : State := regAction .TSV_CTL ch 0 [(F.TSV_CTL_CNT_CLR, 1)] who v s

/-- TAKE (R271). -/
def takeWrite (who v : Nat) (s : State) : State := regAction .MGT_CTL 0 0 [(F.MGT_CTL_TAKE, 1)] who v s

/-- DB_SEQ_WRITE (R275): mailbox 16 is the service mailbox. -/
def dbSeqWrite (who m v : Nat) (s : State) : State :=
  regAction (if m < 16 then .MBX_DB else .MBXS_DB) (if m < 16 then m else 0) 0 [] who v s

/-- WE_STACK_WRITE (R282). -/
def weStackWrite (who v : Nat) (s : State) : State := regAction .MGT_QUIESCE 0 0 [] who v s

/-- WRST (R358). -/
def wrstWrite (who v : Nat) (s : State) : State := regAction .GLB_CTL 0 0 [(F.GLB_CTL_WRST, 1)] who v s

/-- SCRATCH_HIGH_WRITE (R300). -/
def scratchHigh (who v : Nat) (s : State) : State := regAction .GLB_SCRATCH_HI 0 0 [] who v s

/-- PLOCK_SET (R303). -/
def plockSet (who v : Nat) (s : State) : State := regAction .GLB_PLOCK 0 0 [] who v s

/-- PUNLOCK (R303). -/
def punlock (who v : Nat) (s : State) : State := regAction .GLB_PLOCK_CLR 0 0 [] who v s

/-- FCR_CNT_CLR (R322). -/
def fcrCntClr (who v : Nat) (s : State) : State := regAction .FCR_CTL 0 0 [(F.FCR_CTL_CNT_CLR, 1)] who v s

/-- FF_CLR (R316). -/
def ffClrWrite (who v : Nat) (s : State) : State := regAction .FCR_FF_CLR 0 0 [(F.FCR_FF_CLR_FF_CLR, 1)] who v s

/-- RAISE_GO (R309). -/
def raiseGoWrite (who v : Nat) (s : State) : State := regAction .FCR_RAISE 0 0 [(F.FCR_RAISE_RAISE_GO, 1)] who v s

/-- ALERT_CLEAR (R312): a 1 in `ALERT` clears the latch. -/
def alertClear (who v : Nat) (s : State) : State := regAction .FCR_ALERT 0 0 [(F.FCR_ALERT_ALERT, 1)] who v s

/-- CAL_GO (R346). -/
def calGoWrite (who v : Nat) (s : State) : State := regAction .CST_CAL_CTL 0 0 [(F.CST_CAL_CTL_CAL_GO, 1)] who v s

/-- MODE_WRITE (R374): the firmware writes `MODE` and executes WFI. -/
def modeWriteReg (who v : Nat) (s : State) : State := regAction .PCK_MODE 0 0 [] who v s

/-- MCK_SEL_WRITE (R380). -/
def mckSelWrite (who v : Nat) (s : State) : State := regAction .PCK_CLK 0 0 [(F.PCK_CLK_MCK_SEL, 1)] who v s

/-- NOSLEEP_WRITE (R376). -/
def nosleepWrite (who d v : Nat) (s : State) : State := regAction .PCK_VOTE d 0 [] who v s

/-- PCK_CNT_CLR (R390). -/
def pckCntClr (who v : Nat) (s : State) : State := regAction .PCK_CTL 0 0 [(F.PCK_CTL_CNT_CLR, 1)] who v s

/-- THM_CNT_CLR (R404). -/
def thmCntClr (who v : Nat) (s : State) : State := regAction .THM_CTL 0 0 [(F.THM_CTL_CNT_CLR, 1)] who v s

/-- SVC_EN_WRITE (R442). -/
def svcEnWrite (who v : Nat) (s : State) : State := regAction .SVC_CTL 0 0 [] who v s

/-- DEAUTH (R435). -/
def deauthWrite (who v : Nat) (s : State) : State := regAction .SVC_CTL 0 0 [(F.SVC_CTL_DEAUTH, 1)] who v s

/-- DRN_GO (R438). -/
def drnGoWrite (who v : Nat) (s : State) : State := regAction .SVC_DRN_CTL 0 0 [(F.SVC_DRN_CTL_DRN_GO, 1)] who v s

/-- DRN_ABORT (R441). -/
def drnAbortWrite (who v : Nat) (s : State) : State := regAction .SVC_DRN_CTL 0 0 [(F.SVC_DRN_CTL_DRN_ABORT, 1)] who v s

end Sys2Proof.Machine
end

