-- ==== Sys2Proof/Machine/Deliver.lean ====
section
/-! DEFINITION. What arrives from the partner: flits, link items and packets (ch. 3 and 4). -/

namespace Sys2Proof.Machine

/-- The stack receives flits on group `g` (R65): in service, host-to-device, and not frozen (Table 3.7). -/
def hears (s : State) (g : Nat) : Bool := (s.grp g).inSvc && !(s.grp g).dir && !(s.grp g).frozen

/-! ## Packets of VC2 (R102 to R106) -/

/-- A reserved VC2 opcode is consumed; BAD_OPCODE goes to Last Access Status, whose direction and offset the spec leaves open here (log entry 61). -/
def reservedVc2 (who : Nat) (s : State) : State :=
  let (v, s) := s.draw
  recordAcc s who (bit v 0) (v / 2 % 2 ^ 24) .badOpcode 0

/-- MBX_WR (R103, R276): the command buffer is written, and MBX_ACK answers. -/
def mbxWrite (dom moff mtag : Nat) (data : List Byte) (s : State) : State :=
  let n := data.length / 4
  let off := moff / 4 * 4
  let c : Code := if n = 0 ∨ 62 < n then .badLength else if 4096 < off + 4 * n then .range else if mstate s dom = 2 then .state else .ok
  let s := if c = .ok then s.modMbx dom fun x => { x with cmd := bufPut x.cmd off data } else s
  sendVc2 s (mbxAnsBytes 0x65 dom off n mtag c [])

/-- MBX_RD (R103, R276): the response buffer is read, and MBX_RDATA answers. -/
def mbxRead (dom moff mlen mtag : Nat) (s : State) : State :=
  let off := moff / 4 * 4
  let c : Code := if mlen = 0 ∨ 62 < mlen then .badLength else if 4096 < off + 4 * mlen then .range else if mstate s dom = 2 then .state else .ok
  if c = .ok then sendVc2 s (mbxAnsBytes 0x64 dom off mlen mtag .ok (bufGet (s.mbx dom).resp off (4 * mlen)))
  else sendVc2 s (mbxAnsBytes 0x64 dom off 0 mtag c [])

/-- The domain whose cells a VC2 packet occupies: link-management packets count against D0 (R62). -/
def vc2Dom (l : List Byte) : Nat := if leAt l 0 1 ≥ 0x80 then 0 else leAt l 1 1 % 16

/-- A VC2 packet has its effect, and its cells are released. A register access releases its cell when it is answered. -/
def runVc2 (s : State) (l : List Byte) : State :=
  let op := leAt l 0 1
  let dom := vc2Dom l
  let h := leAt l 2 2
  if op = 0x50 ∨ op = 0x51 then
    access s { who := dom, org := .packet dom h, wr := op == 0x51, off := leAt l 4 3, val := leAt l 8 4 }
  else
    let s := releaseVc2 s dom (cellsOf (packetLen l))
    match op with
    | 0x60 => doorbell dom h s
    | 0x62 => mbxWrite dom (h % 4096) (leAt l 5 1) (slice l 8 (4 * leAt l 4 1)) s
    | 0x63 => mbxRead dom (h % 4096) (leAt l 4 1) (leAt l 5 1) s
    | 0x80 => receiveTurn (leAt l 1 1 % 16) (bit (leAt l 1 1) 4) h s
    | 0x81 => receiveTurnAck h (leAt l 4 1) s
    | 0x83 => pmAck h (leAt l 4 1) s
    | _ => reservedVc2 dom s

/-- The packet waits: an earlier packet of its domain does, or a persistent write of the domain is under way, behind which accesses wait by themselves
(R112, R297). Link-management packets belong to no domain and do not wait. -/
def vc2Behind (s : State) (l : List Byte) : Bool :=
  let op := leAt l 0 1
  decide (op < 0x80) && ((s.link.vc2Queue.any fun q => vc2Dom q == vc2Dom l) || (op != 0x50 && op != 0x51 && pregPending s (vc2Dom l)))

/-- A VC2 packet is delivered: it is executed in the order of its domain (R112). -/
def consumeVc2 (s : State) (l : List Byte) : State :=
  if vc2Behind s l then { s with link.vc2Queue := s.link.vc2Queue ++ [l] } else runVc2 s l

/-- Execute the packets that waited for a persistent write of their domain. -/
def flushVc2 (s : State) : State := s.link.vc2Queue.foldl consumeVc2 { s with link.vc2Queue := [] }

/-- VC2 packets of a new home wait for the old home's LAST (R69). -/
def vc2Waits (s : State) (g : Nat) : Bool :=
  match s.link.turn with
  | some t => t.wasHome && t.grp != g && t.step == .accepted
  | none => false

/-- Deliver the VC2 packets that waited for a LAST. -/
def flushHold (s : State) : State := s.link.vc2Hold.foldl consumeVc2 { s with link.vc2Hold := [] }

/-- A VC2 packet that arrives after the turning old home was lost: nothing marks the end of the re-sent packets, so an open value says whether it is a
new packet that came before them, a re-sent one, or the first new one after them (R69, log entry 118). -/
def afterLoss (s : State) (l : List Byte) : State :=
  let (v, s) := s.draw
  if v % 3 = 0 then { s with link.vc2Hold := s.link.vc2Hold ++ [l] }
  else if v % 3 = 1 then consumeVc2 s l
  else consumeVc2 (flushHold { s with link.holdLost := false }) l

/-- A VC2 packet arrives on group `g` (R63, R65, R69): a protocol error before the partner's CONFIG, before link-ready unless it belongs to a turn, and
without room in its pool. -/
def arriveVc2 (g : Nat) (l : List Byte) (s : State) : State :=
  let n := cellsOf (packetLen l)
  let d := vc2Dom l
  let turn : Bool := leAt l 0 1 == 0x80 || leAt l 0 1 == 0x81
  if !hears s g then s
  else if s.link.cfgRx.isNone || (!s.link.up && !turn) || !roomVc2 s d n then protocolError s g
  else
    let s := holdVc2 s d n
    if vc2Waits s g then { s with link.vc2Hold := s.link.vc2Hold ++ [l] }
    else if s.link.holdLost then afterLoss s l
    else consumeVc2 s l

/-! ## Link items (R56, R57, R65, R71, R73) -/

/-- The larger caps that a CONFIG kept in force end once its flit is acknowledged (R63). -/
def pruneCaps (s : State) : State :=
  if configOut s then s else
  { s with link.capOld := s.link.capOld.filter fun e => match e.2.2 with
    | some (g, f) => (s.grp g).replay.any (·.fseq == f)
    | none => true }

/-- STATUS. -/
def statusItemIn (g mask : Nat) (acks : List Nat) (vc1 vc2 : Nat) (s : State) : State :=
  if hears s g then pruneCaps (receiveStatus mask acks vc1 vc2 s) else s

/-- NAK of the flits that the stack sent on group `n`. -/
def nakItemIn (g n e : Nat) (s : State) : State := if hears s g then receiveNak n e s else s

/-- CONFIG. -/
def configItemIn (g vc1 vc2 : Nat) (s : State) : State := if hears s g then receiveConfig vc1 vc2 s else s

/-- GROUP SPARE of group `n`. -/
def groupSpareIn (g n e l : Nat) (s : State) : State := if hears s g then spareItem n e l s else s

/-- GROUP SPARE_DEAD. -/
def groupSpareDeadIn (g n l : Nat) (s : State) : State := if hears s g then spareDead n l s else s

/-- GROUP LOST. -/
def groupLostIn (g n e : Nat) (s : State) : State := if hears s g then resendLost n e s else s

/-- GROUP LOST_REQ: the group is frozen and LOST answers (Table 3.7). -/
def groupLostReqIn (g n : Nat) (s : State) : State := if hears s g && !(s.grp n).dir && (s.grp n).inSvc then groupLostByPartner true n s else s

/-- A link item from its bytes. -/
def itemIn (g : Nat) (l : List Byte) (s : State) : State :=
  let n := leAt l 1 1 % 16
  let h := leAt l 2 2
  match leAt l 0 1 with
  | 0xF0 =>
    let k := popCount h 16
    let a := (10 * k + 7) / 8
    let acks := (List.range k).map fun i => bits (leAt l 4 a) (10 * i) 10
    statusItemIn g h acks (leAt l (4 + a) 4) (leAt l (8 + a) 2) s
  | 0xF1 => nakItemIn g n (h % 1024) s
  | 0xF2 => configItemIn g (leAt l 4 4 % 2 ^ 20) (leAt l 4 4 / 2 ^ 20) s
  | 0xF4 => match bits (leAt l 1 1) 4 3 with
    | 0 => groupSpareIn g n (h % 1024) (bits h 10 5) s
    | 1 => groupSpareDeadIn g n (bits h 10 5) s
    | 2 => groupLostIn g n (h % 1024) s
    | 3 => groupLostReqIn g n s
    | _ => s
  | _ => s

/-- One item or packet of a packet area. -/
def unitIn (g : Nat) (s : State) (l : List Byte) : State :=
  let op := leAt l 0 1
  if !hears s g then s
  else if op ≥ 0xF0 then itemIn g l s
  else if op < 0x40 then arriveVc0 g (vc0Of l) s
  else arriveVc2 g l s

/-- FLIT_RECEIVE (R55, R58): 256 bytes are checked, and what they complete is delivered. -/
def flitIn (g : Nat) (raw : List Byte) (s : State) : State :=
  if !hears s g then s else
  match receiveFlit s g (slice raw 0 256) with
  | (s, none) => fecFails g (drain s)
  | (s, some area) =>
    let (us, rest, bad) := parseArea 512 ((s.grp g).partBuf ++ area)
    let s := us.foldl (unitIn g) (s.modGrp g fun x => { x with partBuf := rest })
    let s := if bad && hears s g then protocolError s g else s
    let held : Bool := match s.link.turn with
      | some t => t.wasHome && t.step == .accepted
      | none => s.link.holdLost
    fecFails g (drain (if held then s else flushHold s))

/-- CONFIG_SEND (R65): the new advertisement, whose flit's acknowledgement ends the larger caps (R63). -/
def configSend (s : State) : State := if s.link.cfgDue && s.link.homeD.isSome then sendConfig s else s

end Sys2Proof.Machine
end

