-- ==== Sys2Proof/Machine/Mailbox.lean ====
section
/-! DEFINITION. How the firmware executes a mailbox command (R12, R25, R26, R267, R278 to R280): who may send it, in which order it is checked, how
it writes registers, and how its answer is due. -/

namespace Sys2Proof.Machine

/-! ## The order of rejections (R12) -/

/-- The place of a code in R12's order; a code outside the list comes after it. -/
def codeRank (c : Code) : Nat :=
  match c with
  | .sequence => 0 | .badOpcode => 1 | .notSupported => 2 | .privilege => 3 | .auth => 4 | .badLength => 5 | .badValue => 6 | .range => 7
  | .lease => 8 | .locked => 9 | .incomplete => 10 | .state => 11 | .wearLimit => 12 | .overcommit => 13 | .busy => 14 | .resource => 15
  | .ok => 99 | _ => 50

/-- The first that applies of two codes. -/
def firstCode (a b : Code) : Code := if codeRank b < codeRank a then b else a

/-- A test: its code when it fails. -/
def need (ok : Bool) (c : Code) : Code := if ok then .ok else c

/-- The first that applies of several tests. -/
def firstOf (cs : List Code) : Code := cs.foldl firstCode .ok

/-! ## Who (R279) -/

/-- "P": D0 or the authenticated service host. -/
def isP (s : State) (m : Nat) : Bool := m == 0 || (m == 16 && s.mgt.auth)
/-- "P, T": any domain, or the authenticated service host. -/
def isPT (s : State) (m : Nat) : Bool := decide (m < 16) || s.mgt.auth
/-- "Any": every master, the service host included before authentication. -/
def isAny (_ : State) (_ : Nat) : Bool := true
/-- The service host. -/
def isSvc (_ : State) (m : Nat) : Bool := m == 16
/-- A domain. -/
def isDom (_ : State) (m : Nat) : Bool := decide (m < 16)

/-- In RECOVERY only the D0 and service mailboxes are served, with groups 0x01, 0x02, 0x0A and 0x0B (R267). -/
def supported (s : State) (m opc : Nat) : Bool :=
  let g := opc / 256
  !recovery s || ((m == 0 || m == 16) && (g == 1 || g == 2 || g == 0x0A || g == 0x0B))

/-! ## Register writes by the firmware (R280) -/

/-- A register write of a command: the instance, and the fields it sets. -/
abbrev FwWrite := RegId × Nat × Nat × List (Fld × Nat)

/-- The word that leaves the other writable fields as they are. -/
def baseWord (s : State) (r : RegId) (i j : Nat) : Nat :=
  r.info.flds.foldl (fun w f => match f.acc with
    | .rw => setBits w f.lo f.w (s.rd f i j)
    | .rwp => setBits w f.lo f.w (s.rd f i j)
    | _ => w) 0

/-- What the writes of a command have come to: first code, its detail word, words that wait for the MRAM port, the bow-number range before the
command where it has written one, and the state. -/
structure Writes where
  c : Code := .ok
  detail : Nat := 0
  waits : Nat := 0
  bow : Option (List (Nat × Nat)) := none
  st : State
  deriving DecidableEq, Repr

/-- A register of a domain's bow-number range (R138). -/
def isRangeReg (r : RegId) : Bool := r == .REG_BOW || r == .REG_BOW_EN

/-- The state in which a command's next write is judged: the range change that the same command began does not hold back its other half (R138, R280). -/
def judgedIn (a : Writes) (r : RegId) (i : Nat) : State :=
  if a.bow.isSome && isRangeReg r then a.st.wr F.REG_BOW_EN_BOW_BUSY 0 i else a.st

/-- The two range registers of a command are one range change, from the range before the command (R138, R280). -/
def joinRange (a : Writes) (r : RegId) (i : Nat) (t : State) : Writes :=
  if isRangeReg r then
    let old := a.bow.getD (enabledRange a.st i)
    { a with bow := some old, st := { t with reg.rangeJob := SMap.set t.reg.rangeJob i old } }
  else { a with st := t }

/-- One write by the firmware for mailbox `m`, as `WHO` 17. -/
def fwWrite (m : Nat) (a : Writes) (w : FwWrite) : Writes :=
  let (r, i, j, fs) := w
  if fs.any fun f => decide (2 ^ f.1.w ≤ f.2) then { a with c := firstCode a.c .badValue }
  else match writeReg (judgedIn a r i) 17 (.mailbox m) r i j (withBits (baseWord a.st r i j) fs) with
    | (.done .ok _, t) => joinRange a r i (recordAcc t 17 true (regOffset r i j) .ok 0)
    | (.done c d, _) => if codeRank c < codeRank a.c then { a with c := c, detail := d } else a
    | (.waits, t) => { a with waits := a.waits + 1, st := t }

/-- All the writes of a command, in order: every instance or none. -/
def fwWrites (s : State) (m : Nat) (ws : List FwWrite) : Writes := ws.foldl (fwWrite m) { st := s }

/-- A basic command's window opens on the fields that it writes (R25). -/
def openWindow (s : State) (m : Nat) (keys : List Nat) : State := { s with mgt.busy := SMap.set s.mgt.busy m (s.now, keys) }

/-- A write that sets a function's settings, and not one that starts something or belongs to a test (R24, log entry 121). -/
def isSetting (w : FwWrite) : Bool :=
  (match w.1 with
   | .HLL_TURN | .SCC_OPS_CMD | .TSV_RPR_CTL | .TSV_FOLD_CTL | .TSV_CTL | .MGT_QUIESCE | .HLP_LN_CTL | .DIP_INJ => false
   | _ => true) && w.2.2.2.all fun f => f.1.acc == .rw

/-- A setting replaces an earlier one of the same register. -/
def storeSetting (ws : List FwWrite) (w : FwWrite) : List FwWrite :=
  ws.filter (fun v => !(v.1 == w.1 && v.2.1 == w.2.1 && v.2.2.1 == w.2.2.1)) ++ [w]

/-- The fields that the writes set: R26 remembers their values, and R25 closes their window to host writes. -/
def noteApplied (s : State) (m : Nat) (ws : List FwWrite) : State :=
  let fs := ws.flatMap fun w => w.2.2.2.map fun f => (f.1.at w.2.1 w.2.2.1, f.2)
  let s := openWindow s m (fs.map (·.1))
  { s with mgt.applied := fs.foldl (fun a f => SMap.set a f.1 f.2) s.mgt.applied, mgt.stored := (ws.filter isSetting).foldl storeSetting s.mgt.stored }

/-- The override word of a *_GET response (R26, R280): bit i when some instance of field i no longer holds the value last applied. -/
def overrides (s : State) (params : List (List (Fld × Nat × Nat))) : Nat :=
  let one (p : Fld × Nat × Nat) : Bool := match SMap.get? s.mgt.applied (p.1.at p.2.1 p.2.2) with
    | some v => s.rd p.1 p.2.1 p.2.2 != v
    | none => false
  maskOf ((List.range params.length).filter fun i => (params.getD i []).any one)

/-! ## A command -/

/-- What a command's body comes to: a code with its detail word, the state if it is accepted (or, with `keep`, in any case), and the answer: a payload,
or what it waits for. -/
structure Reply where
  c : Code := .ok
  detail : Nat := 0
  st : State
  pay : List Byte := []
  await : Option Await := none
  keep : Bool := false
  deriving DecidableEq, Repr

/-- A command that reads: its payload. -/
def replyWith (s : State) (pay : List Byte) : Reply := { st := s, pay := pay }

/-- A command that writes registers: refused whole at the first code, else accepted; it waits for the words it stores. -/
def replyWrites (s : State) (m : Nat) (pre : Code) (ws : List FwWrite) (pay : List Byte := []) : Reply :=
  let a := fwWrites s m ws
  let c := firstCode pre a.c
  if c = .ok then
    { st := noteApplied a.st m ws, pay := pay, await := if a.waits = 0 then none else some (.words a.waits false pay) }
  else { c := c, detail := if c = a.c then a.detail else 0, st := s }

/-- The command in mailbox `m` is executed, if it is the one named and not executed yet: the checks of R12, its effect, its answer. The lease it carries
is renewed (R278); its journal entry stands until its response (R270). -/
def runCmd (m opc : Nat) (who : State → Nat → Bool) (lenOk : List Byte → Bool) (lease : Option Nat) (body : State → List Byte → Reply) (s : State) : State :=
  if mstate s m ≠ 2 ∨ (s.mbx m).ran ∨ cmdOpcode s m ≠ opc ∨ ¬ coreServes s then s else
  let p := cmdPayload s m
  let held := leaseOf s m (cmdLease s m)
  let s := match held with
    | some i => renewLease s i
    | none => s
  let leased : Bool := match lease with
    | some i => held == some i
    | none => true
  let r := body s p
  let pre := firstOf [need (supported s m opc) .notSupported, need (who s m) .privilege, need (lenOk p && decide (cmdLen s m ≤ 4080)) .badLength, need leased .lease]
  let c := firstCode pre r.c
  let s' := if c = .ok ∨ (r.keep ∧ c = r.c) then r.st else s
  let aw := if c = .ok then r.await.getD (.due .ok 0 r.pay) else .due c (if c = r.c then r.detail else 0) []
  s'.modMbx m fun x => { x with ran := true, journal := true, await := aw }

/-- A payload of exactly `n` bytes. -/
def len (n : Nat) (p : List Byte) : Bool := p.length == n

/-- The lease of a resource of Table 12.6: configuration, firmware, fuses, test, power. -/
def cfgLease : Option Nat := some 0
/-- See `cfgLease`. -/
def fwLease : Option Nat := some 1
/-- See `cfgLease`. -/
def fuseLease : Option Nat := some 2
/-- See `cfgLease`. -/
def testLease : Option Nat := some 3
/-- See `cfgLease`. -/
def powerLease : Option Nat := some 4

end Sys2Proof.Machine
end

