-- ==== Sys2Proof/Machine/CmdConfig.lean ====
section
/-! DEFINITION. The mailbox commands of sessions, configuration, regulation, cache, memory, repair and settings (Tables 12.8, 12.10 to 12.14). -/

namespace Sys2Proof.Machine

/-- A byte and a two-byte field of a payload. -/
def b1 (p : List Byte) (k : Nat) : Nat := leAt p k 1
/-- See `b1`. -/
def b2 (p : List Byte) (k : Nat) : Nat := leAt p k 2
/-- See `b1`. -/
def b4 (p : List Byte) (k : Nat) : Nat := leAt p k 4
/-- Numbers as bytes. -/
def u8 (n : Nat) : List Byte := leBytes 1 n
/-- See `u8`. -/
def u16 (n : Nat) : List Byte := leBytes 2 n
/-- See `u8`. -/
def u32 (n : Nat) : List Byte := leBytes 4 n

/-! ## Sessions and leases (Table 12.8) -/

/-- The running image's `IVER` and `SVN`: those of the active core's boathouse; none in RECOVERY. -/
def runningVer (s : State) : Nat := if recovery s then 0 else imageVer s (coreSlot s (activeCore s))
/-- See `runningVer`. -/
def runningSvn (s : State) : Nat := if recovery s then 0 else imageSvn s (coreSlot s (activeCore s))

/-- SESSION_OPEN. -/
def sessionOpen (m : Nat) : State → State :=
  runCmd m 0x0100 isAny (len 0) none fun s _ => replyWith s (u32 (runningVer s) ++ u16 4080 ++ u16 0)

/-- SESSION_CLOSE: what it ends, ends when the response is posted. -/
def sessionClose (m : Nat) : State → State := runCmd m 0x0101 isAny (len 0) none fun s _ => replyWith s []

/-- The resource that a LEASE_ACQUIRE names, if Table 12.6 has it. -/
def leaseIndex (r : Nat) : Option Nat := if 0x10 ≤ r ∧ r ≤ 0x14 then some (r - 0x10) else none

/-- LEASE_ACQUIRE (R278): a fresh identifier that is not zero; the holder's own lease is renewed. -/
def leaseAcquire (m : Nat) : State → State :=
  runCmd m 0x0102 isP (len 1) none fun s p =>
    match leaseIndex (b1 p 0) with
    | none => { c := .badValue, st := s }
    | some i =>
      let h := leaseHolder s i
      if h = m then replyWith (renewLease s i) (u32 (leaseIdent s i))
      else if h ≠ 0xFF then { c := .resource, detail := b1 p 0 + h * 256, st := s }
      else
        let (v, s) := s.draw
        let ident := v % (2 ^ 32 - 1) + 1
        replyWith { s.wr F.MGT_LEASE_HOLDER m i with mgt.leases := SMap.set s.mgt.leases i (ident, s.now + 100 * msec) } (u32 ident)

/-- LEASE_RENEW: the lease was renewed by the command that carries it. -/
def leaseRenew (m : Nat) : State → State :=
  runCmd m 0x0103 isAny (len 0) none fun s _ =>
    match leaseOf s m (cmdLease s m) with
    | some _ => replyWith s (u16 100)
    | none => { c := .lease, st := s }

/-- LEASE_RELEASE. -/
def leaseRelease (m : Nat) : State → State :=
  runCmd m 0x0104 isAny (len 0) none fun s _ =>
    match leaseOf s m (cmdLease s m) with
    | some i => replyWith (freeLease s i) []
    | none => { c := .lease, st := s }

/-! ## Configuration (Table 12.10) -/

/-- The fields of a region entry in payload order. -/
def regionParams (n : Nat) : List (List (Fld × Nat × Nat)) :=
  [[], [(F.RQE_RGN_A_RDOM, n, 0)], [(F.RQE_RGN_A_DBASE, n, 0)], [(F.RQE_RGN_B_SIZE_M1, n, 0)], [(F.RQE_RGN_B_PBASE, n, 0)], [(F.RQE_RGN_A_WR, n, 0)],
   [(F.RQE_RGN_A_EN, n, 0)]]

/-- CFG_REGION_SET (R119). -/
def cfgRegionSet (m : Nat) : State → State :=
  runCmd m 0x0300 isP (len 9) cfgLease fun s p =>
    let n := b1 p 0
    replyWrites s m (need (decide (n < 64)) .range)
      [(.RQE_RGN_B, n, 0, [(F.RQE_RGN_B_SIZE_M1, b2 p 4), (F.RQE_RGN_B_PBASE, b2 p 6)]),
       (.RQE_RGN_A, n, 0, [(F.RQE_RGN_A_RDOM, b1 p 1), (F.RQE_RGN_A_DBASE, b2 p 2), (F.RQE_RGN_A_WR, b1 p 8 % 2), (F.RQE_RGN_A_EN, b1 p 8 / 2 % 2)])]

/-- CFG_REGION_GET. -/
def cfgRegionGet (m : Nat) : State → State :=
  runCmd m 0x0301 isP (len 1) none fun s p =>
    let n := b1 p 0
    if 64 ≤ n then { c := .range, st := s } else
    replyWith s (u8 n ++ u8 (s.rd F.RQE_RGN_A_RDOM n) ++ u16 (s.rd F.RQE_RGN_A_DBASE n) ++ u16 (s.rd F.RQE_RGN_B_SIZE_M1 n) ++
      u16 (s.rd F.RQE_RGN_B_PBASE n) ++ u8 (s.rd F.RQE_RGN_A_WR n + 2 * s.rd F.RQE_RGN_A_EN n) ++ u32 (overrides s (regionParams n)))

/-- The allocation-ways field of a domain. -/
def waysField (d : Nat) : Fld := if d % 2 = 0 then F.SCC_DOM_WAYS_DWAYS_E else F.SCC_DOM_WAYS_DWAYS_O

/-- The fields of a domain's settings in payload order. -/
def domainParams (d : Nat) : List (List (Fld × Nat × Nat)) :=
  [[], [(F.RQE_DOM_CTL_EN, d, 0)], [(F.REG_BOW_BOW_BASE, d, 0)], [(F.REG_BOW_BOW_LAST, d, 0)], [(F.REG_BOW_EN_BOW_EN, d, 0)], [(F.RQE_DOM_CTL_RB_CAP, d, 0)],
   [(F.HLL_CRD_VC0_MIN, d, 0)], [(F.HLL_CRD_VC0_CAP, d, 0)], (List.range 32).map fun sl => (waysField d, sl, d / 2)]

/-- CFG_DOMAIN_SET. The range changes while the domain is disabled (R138): a domain to be disabled is disabled first, one to be enabled last, and a
range that is to be off is turned off before it changes. -/
def cfgDomainSet (m : Nat) : State → State :=
  runCmd m 0x0302 isP (len 15) cfgLease fun s p =>
    let d := b1 p 0
    let range : FwWrite := (.REG_BOW, d, 0, [(F.REG_BOW_BOW_BASE, b2 p 2), (F.REG_BOW_BOW_LAST, b2 p 4)])
    let en : FwWrite := (.REG_BOW_EN, d, 0, [(F.REG_BOW_EN_BOW_EN, b1 p 6)])
    let bow := if b1 p 6 = 0 then [en, range] else [range, en]
    let dom : FwWrite := (.RQE_DOM_CTL, d, 0, [(F.RQE_DOM_CTL_EN, b1 p 1), (F.RQE_DOM_CTL_RB_CAP, b2 p 7)])
    let ways : List FwWrite := (List.range 32).map fun sl => (.SCC_DOM_WAYS, sl, d / 2, [(waysField d, b2 p 13)])
    replyWrites s m (need (decide (d < 16)) .range)
      ((if b1 p 1 = 0 then [dom] else []) ++ bow ++
       [(.HLL_CRD, d, 0, [(F.HLL_CRD_VC0_MIN, b2 p 9), (F.HLL_CRD_VC0_CAP, b2 p 11)])] ++ ways ++ (if b1 p 1 = 0 then [] else [dom]))

/-- CFG_DOMAIN_GET: P, or a domain for itself. -/
def cfgDomainGet (m : Nat) : State → State :=
  runCmd m 0x0303 isPT (len 1) none fun s p =>
    let d := b1 p 0
    if !isP s m && d != m then { c := .privilege, st := s }
    else if 16 ≤ d then { c := .range, st := s } else
    replyWith s (u8 d ++ u8 (s.rd F.RQE_DOM_CTL_EN d) ++ u16 (s.rd F.REG_BOW_BOW_BASE d) ++ u16 (s.rd F.REG_BOW_BOW_LAST d) ++ u8 (s.rd F.REG_BOW_EN_BOW_EN d) ++
      u16 (s.rd F.RQE_DOM_CTL_RB_CAP d) ++ u16 (s.rd F.HLL_CRD_VC0_MIN d) ++ u16 (s.rd F.HLL_CRD_VC0_CAP d) ++ u16 (s.rd (waysField d) 0 (d / 2)) ++
      u32 (overrides s (domainParams d)))

/-- CFG_HASH_SET (R122): the masks, then what selects them. -/
def cfgHashSet (m : Nat) : State → State :=
  runCmd m 0x0304 isP (len 22) cfgLease fun s p =>
    let masks : List FwWrite := (List.range 5).map fun i => (.RQE_HASH_MASK, i, 0, [(F.RQE_HASH_MASK_MASK, b4 p (2 + 4 * i))])
    replyWrites s m (need (!s.on F.RQE_STAT_ADMITTED) .state)
      (masks ++ [(.RQE_CTL, 0, 0, [(F.RQE_CTL_HASH_SEL, b1 p 0), (F.RQE_CTL_CH_LSB, b1 p 1)])])

/-- CFG_PURGE (R133). -/
def cfgPurge (m : Nat) : State → State :=
  runCmd m 0x0305 isP (len 1) cfgLease fun s p =>
    let d := b1 p 0
    replyWrites s m (need (decide (d < 16)) .range) [(.RQE_DOM_CTL, d, 0, [(F.RQE_DOM_CTL_PURGE, 1)])]

/-- CFG_LINK_SET. -/
def cfgLinkSet (m : Nat) : State → State :=
  runCmd m 0x0306 isP (len 4) cfgLease fun s p =>
    let f := b1 p 0
    let groups : List FwWrite := (List.range 16).map fun g => (.HLP_CTL, g, 0, [(F.HLP_CTL_QUIET_EN, f / 2 % 2), (F.HLP_CTL_DEEP_EN, f / 4 % 2)])
    replyWrites s m .ok
      ([(.HLL_CTL, 0, 0, [(F.HLL_CTL_AUTO_BAL, f % 2), (F.HLL_CTL_NAK_LIMIT, b1 p 1), (F.HLL_CTL_ACK_TMO, b1 p 2), (F.HLL_CTL_REPLAY_THR, b1 p 3)])] ++ groups)

/-- CFG_TURN (R74): answered with the result of the turn. -/
def cfgTurn (m : Nat) : State → State :=
  runCmd m 0x0307 isP (len 2) cfgLease fun s p =>
    let r := replyWrites s m (need (decide (b1 p 0 < 16)) .range)
      [(.HLL_TURN, 0, 0, [(F.HLL_TURN_TURN_GRP, b1 p 0), (F.HLL_TURN_TURN_DIR, b1 p 1), (F.HLL_TURN_TURN_GO, 1)])]
    { r with await := some .turn }

/-! ## Regulation (Table 12.11) -/

/-- REG_CLASS_SET (R141). -/
def regClassSet (m : Nat) : State → State :=
  runCmd m 0x0400 isP (len 8) cfgLease fun s p =>
    let k := b1 p 0
    replyWrites s m (need (decide (k < 8)) .range)
      [(.REG_CLASS, k, 0, [(F.REG_CLASS_KIND, b1 p 1), (F.REG_CLASS_DEF_DL, b2 p 2), (F.REG_CLASS_SLACK_Q, b1 p 4)]),
       (.REG_CLASS2, k, 0, [(F.REG_CLASS2_EST, b1 p 5), (F.REG_CLASS2_AGE_Q, b2 p 6)])]

/-- REG_GLOBAL_SET. -/
def regGlobalSet (m : Nat) : State → State :=
  runCmd m 0x0401 isP (len 2) cfgLease fun s p =>
    replyWrites s m .ok [(.REG_CTL, 0, 0, [(F.REG_CTL_MTR_EN, b1 p 0), (F.REG_CTL_DL_OFS, b1 p 1)])]

/-- REG_BOW_SET (R139, R140): every context of the run or none. -/
def regBowSet (m : Nat) : State → State :=
  runCmd m 0x0402 isPT (len 9) none fun s p =>
    let first := b2 p 0
    let last := b2 p 2
    let cls := b1 p 4
    let tgt := b2 p 5
    let idx := b1 p 7
    let alloc := b1 p 8
    let run := (List.range (last + 1 - first)).map (first + ·)
    let own := isP s m || run.all fun b => ctxReach s m b
    let values := decide (cls < 8) && decide (tgt < 1024) && decide (idx < 64) && decide (alloc < 4)
    let c := firstOf ([need own .privilege, need values .badValue, need (decide (first ≤ last) && decide (last ≤ first + 255)) .range] ++
      (run.take 256).map fun b => ctxCheck s b cls tgt idx)
    if c = .ok then
      let t := run.foldl (fun t b => ctxWrite t b cls tgt idx alloc false) s
      let t := openWindow t m (run.map (2 ^ 40 + ·))
      replyWith { t with mgt.ctxSet := run.foldl (fun a b => SMap.set a b (cls, tgt, idx, alloc)) t.mgt.ctxSet } [] else { c := c, st := s }

/-- The lowest free reservation entry. -/
def freeRsv (s : State) : Option Nat := (List.range 64).find? fun n => n != 0 && !s.on F.REG_RSV_A_EN n

/-- The grant of an entry from the next window (R147, R149). -/
def nextGrant (s : State) (n : Nat) : Nat :=
  match s.reg.grantNext with
  | some gs => ((gs.find? fun g => g.1 == n).map (·.2)).getD 0
  | none => s.rd F.REG_RSV_B_GRANT n

/-- REG_RSV_SET (R148). -/
def regRsvSet (m : Nat) : State → State :=
  runCmd m 0x0403 isP (len 8) cfgLease fun s p =>
    match (if b1 p 0 = 0 then freeRsv s else some (b1 p 0)) with
    | none => { c := firstOf [need (decide (b1 p 1 < 2) && decide (b1 p 2 < 16) && decide (b4 p 4 < 2 ^ 22)) .badValue, rsvCheck s 64 (b4 p 4) (b1 p 1) (b1 p 2) true, .resource], detail := 0x04, st := s }
    | some n =>
      let r := replyWrites s m (need (decide (n < 64)) .range)
        [(.REG_RSV_A, n, 0, [(F.REG_RSV_A_RKIND, b1 p 1), (F.REG_RSV_A_RDOM, b1 p 2), (F.REG_RSV_A_RQ_RATE, b4 p 4), (F.REG_RSV_A_EN, 1)])]
      { r with pay := u8 n ++ [0, 0, 0] ++ u32 (nextGrant r.st n) }

/-- REG_RSV_FREE (R148). -/
def regRsvFree (m : Nat) : State → State :=
  runCmd m 0x0404 isP (len 1) cfgLease fun s p =>
    replyWrites s m (need (decide (1 ≤ b1 p 0) && decide (b1 p 0 < 64)) .range) [(.REG_RSV_A, b1 p 0, 0, [(F.REG_RSV_A_EN, 0)])]

/-- REG_GET. -/
def regGet (m : Nat) : State → State :=
  runCmd m 0x0405 isPT (len 0) none fun s _ =>
    replyWith s (u32 (s.rd F.REG_S_S_EST) ++ u32 (s.rd F.REG_S_OVC) ++ u32 (rateSum s 1) ++ u32 (rateSum s 0) ++ u16 s.reg.theta)

/-! ## Cache (Table 12.12) -/

/-- The policy field of a class. -/
def polFields : List Fld :=
  [F.SCC_POL_POL_0, F.SCC_POL_POL_1, F.SCC_POL_POL_2, F.SCC_POL_POL_3, F.SCC_POL_POL_4, F.SCC_POL_POL_5, F.SCC_POL_POL_6, F.SCC_POL_POL_7]

/-- The fields of the cache settings in payload order. -/
def cacheParams : List (List (Fld × Nat × Nat)) :=
  let all (f : Fld) : List (Fld × Nat × Nat) := (List.range 32).map fun sl => (f, sl, 0)
  [polFields.flatMap all, all F.SCC_CTL_ALLOC_EN, all F.SCC_CTL_WT, all F.SCC_WAYS_BG_WAYS]

/-- CACHE_POLICY_SET: every slice or none; BUSY under R165. -/
def cachePolicySet (m : Nat) : State → State :=
  runCmd m 0x0500 isP (len 6) cfgLease fun s p =>
    let pol := leAt p 0 3
    let one (sl : Nat) : List FwWrite :=
      [(.SCC_POL, sl, 0, polFields.zipIdx.map fun e => (e.1, bits pol (3 * e.2) 3)), (.SCC_WAYS, sl, 0, [(F.SCC_WAYS_BG_WAYS, b2 p 4)]),
       (.SCC_CTL, sl, 0, [(F.SCC_CTL_ALLOC_EN, b1 p 3 % 2), (F.SCC_CTL_WT, b1 p 3 / 2 % 2)])]
    replyWrites s m .ok ((List.range 32).flatMap one)

/-- CACHE_OP (R166): on the slices of the mask. -/
def cacheOp (m : Nat) : State → State :=
  runCmd m 0x0501 isP (len 12) cfgLease fun s p =>
    let fs := [(F.SCC_OPS_CMD_OP, b1 p 0), (F.SCC_OPS_CMD_SCOPE, b1 p 1), (F.SCC_OPS_CMD_ODOM, b1 p 2), (F.SCC_OPS_CMD_OWAYS, b2 p 4)]
    -- with no slice named the values are judged all the same (R10)
    let legal := decide (1 ≤ b1 p 0) && decide (b1 p 0 ≤ 2) && decide (b1 p 1 ≤ 2) && decide (b1 p 2 < 16) && !(b1 p 1 == 2 && b2 p 4 == 0)
    replyWrites s m (need legal .badValue) ((onesOf (b4 p 8) 32).map fun sl => (.SCC_OPS_CMD, sl, 0, fs))

/-- CACHE_GET. -/
def cacheGet (m : Nat) : State → State :=
  runCmd m 0x0502 isP (len 0) none fun s _ =>
    let one (sl : Nat) : List Byte := u8 (s.sstate sl + 8 * s.rd F.SCC_STAT_SFAULT sl + 16 * b2n (SMap.get? s.scc.op sl).isSome)
    replyWith s ((List.range 32).flatMap one ++ u32 (overrides s cacheParams))

/-! ## Memory (Table 12.13, R281) -/

/-- Memory commands run in RUN and IDLE. -/
def memOpen (s : State) : Bool :=
  match s.pck.pow with
  | .run | .idle => true
  | _ => false

/-- The tests of a memory command on `n` units of `u` bytes. -/
def memCheck (s : State) (addr align n lo hi u : Nat) : Code :=
  firstOf [need (addr % align == 0 && decide (lo ≤ n) && decide (n ≤ hi)) .badValue, need (decide (addr + n * u ≤ devLimit s)) .range, need (memOpen s) .state]

/-- MEM_READ: answered when its data are there. A command executed again takes up the read that is under way (R270). -/
def memRead (m : Nat) (s : State) : State :=
  if !internalRoom s 0 then s else s |> runCmd m 0x0600 isP (len 10) none fun s p =>
    let n := b2 p 8
    let c := memCheck s (leAt p 0 8) 64 n 1 62 64
    if c ≠ .ok then { c := c, st := s } else
    let again := s.rqe.reqs.any fun r => r.iss == .mailbox m
    { st := if again then s else internalRead s (.mailbox m) (leAt p 0 8) n, await := some (.memRead n) }

/-- MEM_WRITE: as a WR with `MD` = 0 (R281). -/
def memWrite (m : Nat) (s : State) : State :=
  if !internalRoom s (min 62 (b2 (cmdPayload s m) 8)) then s else s |> runCmd m 0x0601 isP (fun p => decide (16 ≤ p.length) && p.length == 16 + 64 * b2 p 8) none fun s p =>
    let n := b2 p 8
    let a := leAt p 0 8
    let c := memCheck s a 64 n 1 62 64
    if c ≠ .ok then { c := c, st := s } else
    let out := wrStatus s { opc := 0x10 } [(a / 64, n)]
    replyWith (internalWrite s (.mailbox m) a (p.drop 16) (List.replicate n 0)) (u8 out.num)

/-- MEM_ZERO. -/
def memZero (m : Nat) (s : State) : State :=
  if !internalRoom s 0 then s else s |> runCmd m 0x0602 isP (len 12) none fun s p =>
    let n := b4 p 8
    let c := memCheck s (leAt p 0 8) 4096 n 1 (2 ^ 32) 4096
    if c ≠ .ok then { c := c, st := s } else
    let again := s.rqe.reqs.any fun r => r.iss == .mailbox m
    { st := if again then s else internalZero s (.mailbox m) (leAt p 0 8) n, await := some .memWrite }

/-! ## Repair, fold and memory service settings (Table 12.14) -/

/-- RPR_ROW (R251). -/
def rprRow (m : Nat) : State → State :=
  runCmd m 0x0700 isP (len 6) cfgLease fun s p =>
    let c := b1 p 0
    replyWrites s m (need (decide (c < 32)) .range)
      [(.TSV_RPR_CTL, c, 0, [(F.TSV_RPR_CTL_RPR_RANK, b1 p 1), (F.TSV_RPR_CTL_RPR_BANK, b1 p 2), (F.TSV_RPR_CTL_RPR_ROW, b2 p 4), (F.TSV_RPR_CTL_RPR_GO, 1)])]

/-- RPR_GET. Its override word follows the fields of RPR_ROW, the only settings of the register. -/
def rprGet (m : Nat) : State → State :=
  runCmd m 0x0701 isPT (len 1) none fun s p =>
    let c := b1 p 0
    if 32 ≤ c then { c := .range, st := s } else
    let ps := [[], [(F.TSV_RPR_CTL_RPR_RANK, c, 0)], [(F.TSV_RPR_CTL_RPR_BANK, c, 0)], [(F.TSV_RPR_CTL_RPR_ROW, c, 0)]]
    replyWith s (u8 (tstate s c) ++ u8 (s.rd F.TSV_STAT_DFAIL c) ++ u16 (s.rd F.TSV_RPR_STAT_RPR_DONE c) ++ u16 (s.rd F.TSV_RPR_STAT_NOSPARE c) ++
      u32 (overrides s ps))

/-- FOLD_MODE (R253): two persistent fields, answered once they are stored. -/
def foldMode (m : Nat) : State → State :=
  runCmd m 0x0702 isP (len 2) cfgLease fun s p =>
    replyWrites s m .ok [(.TSV_FOLD_CTL, 0, 0, [(F.TSV_FOLD_CTL_FR_MODE, b1 p 0), (F.TSV_FOLD_CTL_FOLD_AUTO, b1 p 1)])]

/-- FOLD_START (R256). -/
def foldStart (m : Nat) : State → State :=
  runCmd m 0x0703 isP (len 1) cfgLease fun s p =>
    replyWrites s m (need (decide (b1 p 0 < 32)) .range) [(.TSV_FOLD_CTL, 0, 0, [(F.TSV_FOLD_CTL_FOLD_CH, b1 p 0), (F.TSV_FOLD_CTL_FOLD_GO, 1)])]

/-- TSV_KILL (R245). -/
def tsvKill (m : Nat) : State → State :=
  runCmd m 0x0704 isP (len 2) cfgLease fun s p =>
    replyWrites s m (need (decide (b1 p 0 < 32)) .range) [(.TSV_CTL, b1 p 0, 0, [(F.TSV_CTL_KILL_PHY, b1 p 1), (F.TSV_CTL_KILL, 1)])]

/-- RFM_SET. -/
def rfmSet (m : Nat) : State → State :=
  runCmd m 0x0705 isP (len 6) cfgLease fun s p =>
    replyWrites s m .ok
      [(.RFM_CTL, 0, 0, [(F.RFM_CTL_ST_THR, b2 p 0), (F.RFM_CTL_POSTPONE, b1 p 2), (F.RFM_CTL_FORCE_2X, b1 p 3)]),
       (.RFM_BKLG, 0, 0, [(F.RFM_BKLG_BKLG_THR, b1 p 4), (F.RFM_BKLG_BKLG_TMO, b1 p 5)])]

/-- DIP_SET. -/
def dipSet (m : Nat) : State → State :=
  runCmd m 0x0706 isP (len 8) cfgLease fun s p =>
    replyWrites s m .ok
      [(.DIP_CTL, 0, 0, [(F.DIP_CTL_SCRUB_EN, b1 p 0), (F.DIP_CTL_CSCRUB_EN, b1 p 1), (F.DIP_CTL_SCRUB_PER, b1 p 2), (F.DIP_CTL_ROW_CE_THR, b1 p 3),
         (F.DIP_CTL_ROW_2BIT, b1 p 4)]),
       (.DIP_THR, 0, 0, [(F.DIP_THR_CE_THR, b2 p 5), (F.DIP_THR_POS_THR, b1 p 7)])]

/-- DMC_SET: every channel or none. Of WM and WQ, the one that makes room comes first. -/
def dmcSet (m : Nat) : State → State :=
  runCmd m 0x0707 isP (len 9) cfgLease fun s p =>
    let one (c : Nat) : List FwWrite :=
      let wm : FwWrite := (.DMC_WM, c, 0, [(F.DMC_WM_WM_LO, b2 p 2), (F.DMC_WM_WM_HI, b2 p 4)])
      let wq : FwWrite := (.DMC_WQ, c, 0, [(F.DMC_WQ_WQ_CAP, b2 p 6)])
      [(.DMC_CTL, c, 0, [(F.DMC_CTL_PD_EN, b1 p 0), (F.DMC_CTL_HIT_CAP, b1 p 1)])] ++
      (if s.rd F.DMC_WQ_WQ_CAP c ≤ b2 p 6 then [wq, wm] else [wm, wq]) ++ [(.DMC_HANG, c, 0, [(F.DMC_HANG_HANG_TMO, b1 p 8)])]
    replyWrites s m .ok ((List.range 32).flatMap one)

end Sys2Proof.Machine
end

