-- ==== Sys2Proof/Machine/CmdSystem.lean ====
section
/-! DEFINITION. The mailbox commands of identity, power, calibration, firmware, logs, quiesce, test and fuses (Tables 12.9, 12.15 to 12.20). -/

namespace Sys2Proof.Machine

/-! ## Identity and authentication (Table 12.9, R433, R434) -/

/-- GET_IDENTITY. -/
def getIdentity (m : Nat) : State → State :=
  runCmd m 0x0200 isAny (len 0) none fun s _ =>
    let id := s.rd F.GLB_ID_JREV + s.rd F.GLB_ID_CREV * 2 ^ 8 + s.rd F.GLB_ID_DREV * 2 ^ 16 + s.rd F.GLB_ID_PART * 2 ^ 24
    replyWith s ((List.range 4).flatMap (fun k => u32 (s.rd F.GLB_SERIAL_SERIAL k)) ++ u32 id ++ u32 (runningVer s) ++ u8 (s.rd F.MGT_SVN_SVN_FUSE))

/-- SVC_AUTH_NONCE: 48 fresh bytes, valid for ten seconds; an older nonce is replaced. -/
def svcAuthNonce (m : Nat) : State → State :=
  runCmd m 0x0202 isSvc (len 0) none fun s _ =>
    let (v, s) := s.draw
    let n := leBytes 48 v
    replyWith { s with mgt.nonce := some (n, s.now + 10 * second) } n

/-- SVC_AUTH_PROVE: `ok` says that the signature verifies over the nonce, the serial and GLB_ID, and that the key has the reference digest. -/
def svcAuthProve (m : Nat) (ok : Bool) : State → State :=
  runCmd m 0x0203 isSvc (len 193) none fun s _ =>
    if s.on F.SVC_STAT_AUTH_LOCK then { c := .auth, st := s }
    else match s.mgt.nonce with
      | none => { c := .state, st := s }
      | some (_, t) =>
        if t ≤ s.now then { c := .state, st := s }
        else
          let s := { s with mgt.nonce := none }
          if ok then replyWith (authPassed s) [] else { c := .auth, st := authFailed s, keep := true }

/-! ## Attestation (R283, Table 12.21) -/

/-- An SPDM ERROR message (log entry 63: the codes are those of DSP0274). -/
def spdmError (code data : Nat) : List Byte := u8 0x12 ++ u8 0x7F ++ u8 code ++ u8 data

/-- VERSION: the one entry is 1.2. -/
def spdmVersion : List Byte := u8 0x10 ++ u8 0x04 ++ [0, 0, 0] ++ u8 1 ++ u16 0x1200

/-- CAPABILITIES: CTExponent 14; CERT, CHAL and MEAS with signature; 4,080 bytes. -/
def spdmCapabilities : List Byte := u8 0x12 ++ u8 0x61 ++ [0, 0, 0] ++ u8 14 ++ [0, 0] ++ u32 0x16 ++ u32 4080 ++ u32 4080

/-- ALGORITHMS: measurement hash SHA-384, ECDSA P-384, SHA-384. -/
def spdmAlgorithms : List Byte :=
  u8 0x12 ++ u8 0x63 ++ [0, 0] ++ u16 36 ++ u8 1 ++ u8 0 ++ u32 4 ++ u32 0x80 ++ u32 2 ++ List.replicate 16 0

/-- The signed tail of a response: nonce, no opaque data. -/
def spdmTail (b : SpdmBlobs) (signed : Bool) : List Byte := slice b.nonce 0 32 ++ u16 0 ++ (if signed then slice b.sig 0 96 else [])

/-- CHALLENGE_AUTH for slot 0; the summary is present when it was asked for. -/
def spdmChallenge (b : SpdmBlobs) (summary : Bool) : List Byte :=
  u8 0x12 ++ u8 0x03 ++ u8 0 ++ u8 1 ++ slice b.chainHash 0 48 ++ slice b.nonce 0 32 ++ (if summary then slice b.summary 0 48 else []) ++ u16 0 ++ slice b.sig 0 96

/-- A measurement block: the SHA-384 digest of index 1 to 4. -/
def spdmBlock (b : SpdmBlobs) (i : Nat) : List Byte :=
  let kind := if i = 1 then 0 else if i = 4 then 2 else 1
  u8 i ++ u8 1 ++ u16 51 ++ u8 kind ++ u16 48 ++ slice (b.digests.getD (i - 1) []) 0 48

/-- MEASUREMENTS for the indices `is`; `total` is the number of indices when only that was asked. -/
def spdmMeasurements (b : SpdmBlobs) (is : List Nat) (total : Nat) (signed : Bool) : List Byte :=
  let rec' := is.flatMap (spdmBlock b)
  u8 0x12 ++ u8 0x60 ++ u8 total ++ u8 0 ++ u8 is.length ++ leBytes 3 rec'.length ++ rec' ++ spdmTail b signed

/-- CERTIFICATE: at most 4,000 bytes of the chain of slot 0. -/
def spdmCertificate (b : SpdmBlobs) (q : List Byte) : List Byte :=
  let off := leAt q 4 2
  if q.length ≠ 8 ∨ b1 q 2 ≠ 0 ∨ b.chain.length ≤ off then spdmError 1 0 else
  let part := (b.chain.drop off).take (min 4000 (leAt q 6 2))
  u8 0x12 ++ u8 0x02 ++ [0, 0] ++ u16 part.length ++ u16 (b.chain.length - off - part.length) ++ part

/-- A NEGOTIATE_ALGORITHMS request that offers the stack's algorithms and carries nothing it does not accept. -/
def spdmOffers (q : List Byte) : Bool := decide (32 ≤ q.length) && b2 q 4 == q.length && bit (b4 q 8) 7 && bit (b4 q 12) 1 && bit (b1 q 6) 0

/-- The request needs state 3: the algorithms are agreed. -/
def spdmLate (b : SpdmBlobs) (keyGone : Bool) (q : List Byte) : List Byte :=
  match b1 q 1 with
  | 0x81 => if q.length ≠ 4 then spdmError 1 0 else u8 0x12 ++ u8 0x01 ++ u8 0 ++ u8 1 ++ slice b.chainHash 0 48
  | 0x82 => if keyGone then spdmError 5 0 else spdmCertificate b q
  | 0x83 =>
    let h := b1 q 3
    if keyGone then spdmError 5 0
    else if q.length ≠ 36 ∨ b1 q 2 ≠ 0 ∨ ¬ (h = 0 ∨ h = 1 ∨ h = 0xFF) then spdmError 1 0
    else spdmChallenge b (h != 0)
  | _ =>
    let signed := bit (b1 q 2) 0
    let op := b1 q 3
    if q.length ≠ (if signed then 37 else 4) ∨ (signed ∧ leAt q 36 1 % 16 ≠ 0) then spdmError 1 0
    else if op = 0 then spdmMeasurements b [] 4 signed
    else if op = 0xFF then spdmMeasurements b [1, 2, 3, 4] 0 signed
    else if 1 ≤ op ∧ op ≤ 4 then spdmMeasurements b [op] 0 signed
    else spdmError 1 0

/-- The answer to a request in a state of the exchange (0 none, 1 versions, 2 capabilities, 3 algorithms), and the next state. A repeated request of an
earlier step is answered as it was. -/
def spdmStep (b : SpdmBlobs) (keyGone : Bool) (st : Nat) (done : Bool) (q : List Byte) : List Byte × Nat :=
  let code := b1 q 1
  if q.length < 4 then (spdmError 1 0, st)
  else if code = 0x84 then (if b1 q 0 ≠ 0x10 then (spdmError 0x41 0, st) else (spdmVersion, 1))
  else if b1 q 0 ≠ 0x12 then (spdmError 0x41 0, st)
  else if code = 0xE1 then
    if st = 1 ∨ done then (if q.length ≠ 20 then (spdmError 1 0, st) else (spdmCapabilities, max st 2)) else (spdmError 4 0, st)
  else if code = 0xE3 then
    if st = 2 ∨ done then (if spdmOffers q then (spdmAlgorithms, max st 3) else (spdmError 1 0, st)) else (spdmError 4 0, st)
  else if code = 0x81 ∨ code = 0x82 ∨ code = 0x83 ∨ code = 0xE0 then (if st = 3 then (spdmLate b keyGone q, st) else (spdmError 4 0, st))
  else (spdmError 7 code, st)

/-- The last exchange of the transcript is the request with its fixed answer. -/
def spdmSeen (t q : List Byte) : Bool :=
  let fixed := if b1 q 1 = 0xE1 then spdmCapabilities else spdmAlgorithms
  t.drop (t.length - (q ++ fixed).length) == q ++ fixed

/-- SPDM_MSG: `RESULT` is OK whatever SPDM answers. Each mailbox keeps its own transcript, which begins at GET_VERSION. -/
def spdmMsg (m : Nat) (b : SpdmBlobs) : State → State :=
  runCmd m 0x0201 isAny (fun _ => true) none fun s q =>
    let x := s.mbx m
    let (a, st) := spdmStep b (bit (s.rd F.PST_FUSE_STAT_FFAIL) 5) x.spdm (spdmSeen x.transcript q) q
    let t := if b1 a 1 = 0x7F ∨ spdmSeen x.transcript q then x.transcript else if b1 q 1 = 0x84 then q ++ a else x.transcript ++ q ++ a
    replyWith (s.modMbx m fun y => { y with spdm := st, transcript := t }) a

/-! ## Power and thermal (Table 12.15) -/

/-- The same mailbox's entry to the same state is under way: the command is executed again (R270). -/
def entryAgain (s : State) (m target : Nat) : Bool :=
  match s.pck.entry with
  | some e => e.mbx == m && e.target == target
  | none => false

/-- PWR_ENTER (R373, R374). -/
def pwrEnter (m : Nat) : State → State :=
  runCmd m 0x0800 isP (len 1) powerLease fun s p =>
    let t := b1 p 0
    let pre := firstOf [need (decide (1 ≤ t) && decide (t ≤ 3)) .badValue, need (t != 2 || s.on F.PCK_STAT_RET_AVAIL) .notSupported,
      need (s.pck.pow == .run || s.pck.pow == .idle || entryAgain s m t) .state]
    if pre ≠ .ok then { c := pre, st := s }
    else if entryAgain s m t then { st := s, await := some .drain }
    else
      let no := match refuser s t with
        | some x => some x
        | none => if deepDenied s then some (7, 0xFF) else none
      match no with
      | some (code, dom) => { c := .busy, detail := refuseDetail code dom false, st := refuse s t code dom false, keep := true }
      | none =>
        let s := sendPm s (if t = 1 then 1 else 2)
        { st := { s with pck.pow := .entering, pck.entry := some { mbx := m, target := t } }, await := some .drain }

/-- PWR_VOTE (R376): a domain's own vote. -/
def pwrVote (m : Nat) : State → State :=
  runCmd m 0x0801 isDom (len 1) none fun s p => replyWrites s m .ok [(.PCK_VOTE, m, 0, [(F.PCK_VOTE_NOSLEEP, b1 p 0 % 2)])]

/-- PWR_GET (R390). -/
def pwrGet (m : Nat) : State → State :=
  runCmd m 0x0802 isPT (len 0) none fun s _ =>
    replyWith s (u8 (pstateNum s) ++ u16 (votes s) ++ u8 0 ++ u32 (s.rd F.PCK_REFUSE_REFUSALS) ++
      u32 (overrides s [(List.range 16).map fun d => (F.PCK_VOTE_NOSLEEP, d, 0)]))

/-- THM_SET (R395). -/
def thmSet (m : Nat) : State → State :=
  runCmd m 0x0803 isP (len 4) cfgLease fun s p => replyWrites s m .ok [(.THM_CTL, 0, 0, [(F.THM_CTL_SLOPE, b2 p 0), (F.THM_CTL_CAP, b2 p 2)])]

/-! ## Calibration (Table 12.16) -/

/-- A run, or its store write, for this mailbox: the command is executed again (R270). -/
def calAgain (s : State) (m : Nat) : Bool :=
  (match s.cst.run with
   | some (_, x) => x == some m
   | none => false) || s.cst.store.any fun e => e.2 == some m

/-- CAL_RUN (R346, R349). -/
def calRun (m : Nat) : State → State :=
  runCmd m 0x0900 isP (len 1) cfgLease fun s p =>
    let mask := b1 p 0
    let pre := need (decide (1 ≤ mask) && decide (mask < 32)) .badValue
    if pre ≠ .ok then { c := pre, st := s }
    else if calAgain s m then { st := s, await := some .cal }
    else
      let (c, t) := calGo s mask (some m)
      { c := c, st := openWindow t m [F.CST_CAL_CTL_CAL_GO.at 0 0], await := some .cal }

/-- CAL_GET. -/
def calGet (m : Nat) : State → State :=
  runCmd m 0x0901 isPT (len 0) none fun s _ => replyWith s (u32 (s.rd F.CST_CAL_CNT_CAL_COUNT) ++ u32 (s.rd F.CST_CAL_TIME_CAL_TIME))

/-! ## Firmware (Table 12.17, R272) -/

/-- The boathouse that no core runs. -/
def loadTarget (s : State) : Nat :=
  if recovery s then 1 - s.rd F.MGT_BOOT_BOOT_SLOT else 1 - min 1 (coreSlot s (activeCore s))

/-- FW_LOAD_BEGIN: the target is marked invalid. A command executed again finds its own load. -/
def fwLoadBegin (m : Nat) : State → State :=
  runCmd m 0x0A00 isP (len 4) fwLease fun s p =>
    let t := b4 p 0
    let again : Bool := match s.mgt.load with
      | some l => l.begun == (s.mbx m).taken && l.tlen == t
      | none => false
    let c := firstOf [need (decide (1 ≤ t) && decide (t ≤ 1572864)) .badValue, need ((s.mgt.load.isNone && s.mgt.trial.isNone) || again) .state]
    if c ≠ .ok then { c := c, st := s } else
    let slot := loadTarget s
    replyWith { markBoat s slot false with mgt.load := some { target := slot, tlen := t, begun := (s.mbx m).taken } } (u8 slot)

/-- FW_LOAD: the words that differ go to the port (R327, R446). -/
def fwLoad (m : Nat) : State → State :=
  runCmd m 0x0A01 isP (fun p => decide (8 ≤ p.length) && p.length % 4 == 0) fwLease fun s p =>
    let off := b4 p 0
    let n := p.length - 8
    match s.mgt.load with
    | none => { c := firstOf [need (off % 4 == 0) .badValue, .state], st := s }
    | some l =>
      let c := firstOf [need (off % 4 == 0) .badValue, need (decide (off + n ≤ l.tlen)) .range]
      if c ≠ .ok then { c := c, st := s } else
      let word (k : Nat) : MWord :=
        { cls := 5, idx := 0x60000 * l.target + off / 4 + k, mask := 2 ^ 32 - 1, val := b4 p (8 + 4 * k), act := .fw m }
      let ws := ((List.range (n / 4)).map word).filter fun w => s.mramAt w.idx != w.val || s.pst.bad.contains w.idx
      { st := ({ s with pst.q := s.pst.q.filter fun (w : MWord) => w.act != PortAct.fw m }).portPut ws, await := some (.words ws.length false []) }

/-- Every byte below `TLEN` has been loaded: the runs, taken in order of offset, leave no gap. -/
def covered (runs : List (Nat × Nat)) (tlen : Nat) : Bool :=
  let grow (reach : Nat) : Nat := runs.foldl (fun r e => if e.1 ≤ r then max r (e.1 + e.2) else r) reach
  decide (tlen ≤ (List.range runs.length).foldl (fun r _ => grow r) 0)

/-- FW_VERIFY: `crypto` says that hash, keys and signatures of the target verify (R265). -/
def fwVerify (m : Nat) (crypto : Bool) : State → State :=
  runCmd m 0x0A02 isP (len 0) fwLease fun s _ =>
    match s.mgt.load with
    | none => { c := .state, st := s }
    | some l =>
      if ¬ covered l.runs l.tlen then { c := .state, st := s }
      else if !imageOk s l.target crypto then { c := .integrity, st := badImage s l.target, keep := true }
      else
        replyWith { markBoat s l.target true with mgt.load := some { l with verified := true } }
          (u32 (imageVer s l.target) ++ u8 (imageSvn s l.target))

/-- The boathouse that FW_ACTIVATE activates. -/
def activeTarget (s : State) : Nat := match s.mgt.load with
  | some l => l.target
  | none => loadTarget s

/-- FW_ACTIVATE: how the standby's load ends — 0 verified, 1 to 3 a fault of the standby with that cause, 4 verification failed (Table 12.4). -/
def fwActivate (m out : Nat) : State → State :=
  runCmd m 0x0A03 isP (len 0) fwLease fun s _ =>
    let slot := activeTarget s
    let standby := !activeCore s
    if ¬ boatValid s slot ∨ ¬ (recovery s ∨ coreState s standby = 3 ∨ s.mgt.take = some 5) then { c := .state, st := s }
    else if recovery s then replyWith { s with mgt.take := some 15 } []
    else if out = 4 then { c := .integrity, st := { badImage s slot with mgt.load := none }, keep := true }
    else if out ≠ 0 then { c := .timeout, st := coreFault standby out s, keep := true }
    else replyWith { setSlot s standby slot with mgt.take := some 5 } []

/-- FW_TAKEOVER (R271). -/
def fwTakeover (m : Nat) : State → State :=
  runCmd m 0x0A04 isP (len 0) fwLease fun s _ =>
    if coreState s (!activeCore s) ≠ 3 then { c := .state, st := s } else replyWith { openWindow s m [F.MGT_CTL_TAKE.at 0 0] with mgt.take := some 4 } []

/-! ### The anti-fuse array -/

/-- Bits are blown into a fuse word, and its latch holds them (R338). -/
def blow (s : State) (w v : Nat) : State :=
  { s with
    pst.blown := SMap.put s.pst.blown w 0 (Nat.lor (SMap.getD s.pst.blown w 0) v)
    pst.latch := SMap.put s.pst.latch w 0 (Nat.lor (fuseLatch s w) v) }

/-- FW_SVN_COMMIT (R340): the lowest unblown steps up to the running `SVN`. A boathouse left below the thermometer is invalid (R266). -/
def svnCommit (s : State) : State :=
  let n := runningSvn s
  let have' := s.rd F.MGT_SVN_SVN_FUSE
  if n ≤ have' then s else
  let cells := fuseLatch s 112 + fuseLatch s 113 * 2 ^ 32
  let free := ((List.range 64).filter fun k => !bit cells k).take (n - have')
  let v := maskOf free
  let s := (blow (blow s 112 (v % 2 ^ 32)) 113 (v / 2 ^ 32)).wr F.MGT_SVN_SVN_FUSE n
  [0, 1].foldl (fun t k => if boatValid t k ∧ imageSvn t k < n then markBoat t k false else t) s

/-- FW_SVN_COMMIT. -/
def fwSvnCommit (m : Nat) : State → State :=
  runCmd m 0x0A05 isP (len 0) fwLease fun s _ =>
    if s.mgt.trial.isSome then { c := .state, st := s } else
    let t := svnCommit s
    replyWith t (u8 (t.rd F.MGT_SVN_SVN_FUSE))

/-- FW_GET. -/
def fwGet (m : Nat) : State → State :=
  runCmd m 0x0A06 isAny (len 0) none fun s _ =>
    let valid := b2n (boatValid s 0) + 2 * b2n (boatValid s 1)
    replyWith s (u32 (s.rd F.MGT_FWVER_A_VER_A) ++ u8 (s.rd F.MGT_SVN_SVN_A) ++ u8 valid ++ [0, 0] ++ u32 (s.rd F.MGT_FWVER_B_VER_B) ++
      u8 (s.rd F.MGT_SVN_SVN_B) ++ u8 (s.rd F.MGT_BOOT_BOOT_SLOT) ++ u8 (s.rd F.MGT_STAT_ACTIVE) ++ u8 (s.rd F.MGT_STAT_TRIAL) ++
      u32 (overrides s [[(F.MGT_CTL_WDT_US, 0, 0)], [(F.MGT_CTL_TRIAL_S, 0, 0)], [(F.MGT_CTL_STBY_EN, 0, 0)]]))

/-- FW_SET. -/
def fwSet (m : Nat) : State → State :=
  runCmd m 0x0A07 isP (len 4) cfgLease fun s p =>
    replyWrites s m .ok [(.MGT_CTL, 0, 0, [(F.MGT_CTL_WDT_US, b2 p 0), (F.MGT_CTL_TRIAL_S, b1 p 2), (F.MGT_CTL_STBY_EN, b1 p 3)])]

/-! ## Logs and faults (Table 12.18) -/

/-- The sixteen words of a log entry, from a valid copy that carries the sequence number expected there (R314). -/
def logEntry (s : State) (e seq : Nat) : Option (List Nat) :=
  let words (copy : Nat) : List Nat := (List.range 16).map fun k => s.mramAt (0x0E0000 + 0x20000 * copy + 16 * e + k)
  if logSeq s 0 e = some seq then some (words 0) else if logSeq s 1 e = some seq then some (words 1) else none

/-- The records of the fault log, oldest first; stale copies are skipped (R314). -/
def logRecords (s : State) : List (List Nat) :=
  let head := s.rd F.FCR_LOG_LOG_HEAD
  let next := s.rd F.FCR_LOG_SEQ_RSEQ_NEXT
  (List.range 8192).filterMap fun k =>
    let back := 8192 - k
    logEntry s ((head + 8192 - back) % 8192) ((next + 2 ^ 32 - back) % 2 ^ 32)

/-- LOG_READ. Fewer records than asked for are returned where the log ends. -/
def logRead (m : Nat) : State → State :=
  runCmd m 0x0B00 isP (len 5) none fun s p =>
    let rs := logRecords s
    let n := b1 p 4
    let c := firstOf [need (decide (1 ≤ n) && decide (n ≤ 63)) .badValue, need (decide (b4 p 0 < rs.length)) .range]
    if c ≠ .ok then { c := c, st := s } else replyWith s (((rs.drop (b4 p 0)).take n).flatMap fun ws => ws.flatMap u32)

/-- FAULT_GET: the first-fault registers in the order of their offsets. -/
def faultGet (m : Nat) : State → State :=
  runCmd m 0x0B01 isPT (len 0) none fun s _ =>
    let w (r : RegId) (i : Nat) : Nat := (readReg s 17 r i 0).2.1
    replyWith s (u32 (w .FCR_FF 0) ++ u32 (w .FCR_FF_OVF 0) ++ u32 (w .FCR_FF_TIME_LO 0) ++ u32 (w .FCR_FF_TIME_HI 0) ++
      (List.range 4).flatMap fun i => u32 (w .FCR_FF_SYN i))

/-- The thresholds and the action of a preset (Table 14.3). -/
def preset (n : Nat) : Nat × Nat × Nat × Nat × Nat :=
  match n with
  | 0 => (1, 2, 0, 0, 0) | 1 => (0, 0, 0, 0, 0) | 2 => (3, 3, 3, 7, 0) | _ => (1, 2, 0, 0, 1)

/-- The preset that a source's fields hold, or 0xFF. -/
def presetOf (s : State) (src : Nat) : Nat :=
  let have' := (s.rd F.FCR_SRC_EVT_MIN src, s.rd F.FCR_SRC_ALERT_MIN src, s.rd F.FCR_SRC_SVC_MIN src, s.rd F.FCR_SRC_LOG_MIN src, s.rd F.FCR_SRC_ACT src)
  ((List.range 4).find? fun n => preset n == have').getD 0xFF

/-- EVT_ROUTE_SET (R310). -/
def evtRouteSet (m : Nat) : State → State :=
  runCmd m 0x0B02 isP (len 5) cfgLease fun s p =>
    let src := b2 p 0
    let (e, a, v, l, act) := preset (b1 p 4)
    replyWrites s m (firstOf [need (decide (b1 p 4 < 4)) .badValue, need (decide (src < 288)) .range])
      [(.FCR_SRC, src, 0, [(F.FCR_SRC_DMASK, b2 p 2), (F.FCR_SRC_EVT_MIN, e), (F.FCR_SRC_ALERT_MIN, a), (F.FCR_SRC_SVC_MIN, v), (F.FCR_SRC_LOG_MIN, l),
        (F.FCR_SRC_ACT, act)])]

/-- EVT_ROUTE_GET (R310). -/
def evtRouteGet (m : Nat) : State → State :=
  runCmd m 0x0B03 isP (len 2) none fun s p =>
    let src := b2 p 0
    if 288 ≤ src then { c := .range, st := s } else
    let at' (f : Fld) : Fld × Nat × Nat := (f, src, 0)
    let ps := [[], [at' F.FCR_SRC_DMASK], [at' F.FCR_SRC_EVT_MIN, at' F.FCR_SRC_ALERT_MIN, at' F.FCR_SRC_SVC_MIN, at' F.FCR_SRC_LOG_MIN, at' F.FCR_SRC_ACT]]
    replyWith s (u16 src ++ u16 (s.rd F.FCR_SRC_DMASK src) ++ u8 (presetOf s src) ++ u32 (overrides s ps))

/-- FCR_SET. -/
def fcrSet (m : Nat) : State → State :=
  runCmd m 0x0B04 isP (len 2) cfgLease fun s p => replyWrites s m .ok [(.FCR_CTL, 0, 0, [(F.FCR_CTL_EASY_MS, b2 p 0)])]

/-! ## Quiesce and test (Table 12.19) -/

/-- The write of WEIGH_ENOUGH and RESUME: the stack's bit, or a domain's bit. -/
def quiesceWrite (s : State) (p : List Byte) (on : Bool) : FwWrite :=
  let doms := s.rd F.MGT_QUIESCE_WE_DOM
  if b1 p 0 = 0 then (.MGT_QUIESCE, 0, 0, [(F.MGT_QUIESCE_WE_STACK, b2n on)])
  else (.MGT_QUIESCE, 0, 0, [(F.MGT_QUIESCE_WE_DOM, if on then setBit doms (b1 p 1 % 16) else clrBit doms (b1 p 1 % 16))])

/-- The tests on a scope. -/
def scopeCheck (p : List Byte) : Code := firstOf [need (decide (b1 p 0 < 2)) .badValue, need (b1 p 0 == 0 || decide (b1 p 1 < 16)) .range]

/-- WEIGH_ENOUGH (R282). -/
def weighEnough (m : Nat) : State → State :=
  runCmd m 0x0C00 isP (len 2) testLease fun s p =>
    let r := replyWrites s m (scopeCheck p) [quiesceWrite s p true]
    { r with await := some (if b1 p 0 = 0 then .quiesce none (s.now + msec) else .quiesce (some (b1 p 1)) 0) }

/-- RESUME (R282): STATE where the scope is not in weigh-enough. -/
def resume (m : Nat) : State → State :=
  runCmd m 0x0C01 isP (len 2) testLease fun s p =>
    let held := if b1 p 0 = 0 then s.on F.MGT_QUIESCE_WE_STACK else bit (s.rd F.MGT_QUIESCE_WE_DOM) (b1 p 1)
    replyWrites s m (firstOf [scopeCheck p, need held .state]) [quiesceWrite s p false]

/-- TEST_LANE (R44, R45), once: the settings, then the lane's errors. -/
def testLaneOnce (m : Nat) : State → State :=
  runCmd m 0x0C02 isP (len 4) testLease fun s p =>
    let g := b1 p 0
    let l := b1 p 1
    let r := replyWrites s m (need (decide (g < 16) && decide (l < 17)) .range)
      [(.HLP_LN_CTL, g, l, [(F.HLP_LN_CTL_PAT_SEL, b1 p 2), (F.HLP_LN_CTL_GEN_EN, b1 p 3 % 2), (F.HLP_LN_CTL_CHK_EN, b1 p 3 / 2 % 2)])]
    if r.c = .ok then
      let (_, v, t) := readReg r.st 17 .HLP_LN_ERR g l
      { r with st := t, pay := u32 v }
    else r

/-- TEST_LANE: the firmware tries again for up to 1.1 ms while a higher owner holds the checker (R45). -/
def testLane (m : Nat) (s : State) : State :=
  let t := testLaneOnce m s
  let refused : Bool := match (t.mbx m).await with
    | .due .resource _ _ => true
    | _ => false
  if !(s.mbx m).ran && refused && decide (s.now < (s.mbx m).taken + 1100 * usec) then s else t

/-- TEST_ECC_INJ (R236). -/
def testEccInj (m : Nat) : State → State :=
  runCmd m 0x0C03 isP (len 4) testLease fun s p =>
    replyWrites s m (need (decide (b1 p 0 < 32)) .range)
      [(.DIP_INJ, 0, 0, [(F.DIP_INJ_INJ_CH, b1 p 0), (F.DIP_INJ_INJ_POS1, b1 p 1), (F.DIP_INJ_INJ_POS2, b1 p 2), (F.DIP_INJ_INJ_BEAT, b1 p 3),
        (F.DIP_INJ_INJ_ARM, 1)])]

/-! ## Fuses (Table 12.20) -/

/-- FUSE_READ: the device secret reads zero (R340). -/
def fuseReadCmd (m : Nat) : State → State :=
  runCmd m 0x0D00 isP (len 1) none fun s p =>
    let r := b1 p 0
    if 9 ≤ r then { c := .range, st := s } else
    let (b, n) := fuseSpan r
    replyWith s ((List.range n).flatMap fun k => u32 (if r = 5 then 0 else fuseLatch s (b + k)))

/-- What a programmed word changes in registers: the service key's source, and the integrity policy. -/
def fuseRefresh (s : State) : State :=
  let w := fuseLatch s
  let key := if (List.range 12).any fun k => w (128 + k) != 0 then 1 else if (List.range 12).any fun k => w (84 + k) != 0 then 2 else 3
  let s := s.wr F.SVC_AUTH_STAT_KEY_SRC key
  if bit (s.rd F.PST_FUSE_STAT_FFAIL) 2 then s else s.wr F.PST_FUSE_STAT_POLICY (b2n (bit (w 64) 0))

/-- A row's spare takes what was blown into the row. -/
def copyToSpare (s : State) (k row : Nat) : State :=
  (List.range 4).foldl (fun t j =>
    let v := Nat.lor (SMap.getD t.pst.blownSpare (4 * k + j) 0) (SMap.getD t.pst.blown (4 * row + j) 0)
    { t with pst.blownSpare := SMap.put t.pst.blownSpare (4 * k + j) 0 v }) s

/-- The lowest spare that no valid entry of the redirection table uses. -/
def freeSpare (s : State) : Option Nat :=
  (List.range 8).find? fun k => !(s.pst.redir.any fun e => e.1 == k) && !bit (fuseCell s (504 + k / 4)) (8 * (k % 4) + 7)

/-- A row that reads back marginal takes the lowest free spare, with its entry in both copies of the table (R334); none left is RESOURCE. -/
def spareRow (s : State) (row : Nat) : Option State :=
  match freeSpare s with
  | none => none
  | some k =>
    let e := (0x80 + row) * 2 ^ (8 * (k % 4))
    let s := blow (blow (copyToSpare s k row) (504 + k / 4) e) (508 + k / 4) e
    let s := { s with pst.redir := s.pst.redir ++ [(k, row)] }
    some (s.wr F.PST_FUSE_STAT_FSPARE s.pst.redir.length)

/-- FUSE_PROGRAM (R338): `marginal` says that the row reads back marginal. -/
def fuseProgram (m : Nat) (marginal : Bool) : State → State :=
  runCmd m 0x0D01 isP (len 8) fuseLease fun s p =>
    let r := b1 p 0
    let (b, n) := fuseSpan r
    let c := firstOf [need (decide (r < 9) && decide (b1 p 1 < n)) .range, need (r != 6 && r != 7 && !fuseLocked s r) .locked]
    if c ≠ .ok then { c := c, st := s } else
    let w := b + b1 p 1
    let s := fuseRefresh (blow s w (b4 p 4))
    match s.pst.redir.find? fun e => e.2 == w / 4 with
    | some e => replyWith (copyToSpare s e.1 (w / 4)) []
    | none =>
      if !marginal then replyWith s [] else
      match spareRow s (w / 4) with
      | some t => replyWith t []
      | none => { c := .resource, detail := 0x02 + w / 4 * 2 ^ 8, st := s, keep := true }

/-- FUSE_LOCK (R339). -/
def fuseLock (m : Nat) : State → State :=
  runCmd m 0x0D02 isP (len 1) fuseLease fun s p =>
    let r := b1 p 0
    let c := firstOf [need (decide (r < 9)) .range, need (lockable.contains r && !fuseLocked s r) .locked, need (fuseComplete s r) .incomplete]
    if c ≠ .ok then { c := c, st := s } else replyWith (showLocks (blow s 116 (2 ^ r))) []

/-- FUSE_VERIFY: the rows in `weak` disagree at the two margins; the latches stay (R335). -/
def fuseVerify (m : Nat) (weak : List Nat) : State → State :=
  runCmd m 0x0D03 isP (len 1) none fun s p =>
    let r := b1 p 0
    if 9 ≤ r then { c := .range, st := s } else
    let (b, n) := fuseRows r
    replyWith s ((List.range n).flatMap fun k => u8 (b2n (weak.contains (b + k)) + 2 * b2n (s.pst.redir.any fun e => e.2 == b + k)))

end Sys2Proof.Machine
end

