-- ==== Sys2Proof/Machine/Events.lean ====
section
/-! DEFINITION. Events of the table that join several operations, and the packets that rows of the table spell (Tables 4.2, 4.6, 4.7, 4.9). -/

namespace Sys2Proof.Machine

/-- The answer of a meaning. -/
abbrev Answer := Host.Outcome State Fault Refusal

/-! ## Time -/

/-- A tick of the model's clock, taken when no command waits (log entry 4): a warm reset that is due begins (R309, R358). -/
def tick (s : State) : State :=
  let s := { s with now := s.now + 1 }
  match s.pck.wrstDue with
  | some (t, cause) => if t ≤ s.now then warmAssert cause { s with pck.wrstDue := none } else s
  | none => s

/-! ## Packets -/

/-- The header of a VC0 packet (Table 4.2). -/
def vc0Head (h : ReqHdr) (opc : Nat) : Vc0 :=
  { opc := opc, tag := h.tag.toNat, dom := h.dom.val, bow := h.bow.toNat, dl := h.dl.toNat, ord := h.ord, addr := h.addr.toNat }

/-- A reserved VC0 opcode, framed by its table length (R82). -/
def reservedVc0 (h : ReqHdr) (opc len : Nat) (s : State) : State :=
  if reservedOp opc then arriveVc0 h.grp.val { vc0Head h opc with len := len } s else s

/-- TURN and TURN_ACK. -/
def turnPacket (opc g : Nat) (dir : Bool) (seq res : Nat) : List Byte := u8 opc ++ u8 (g + 16 * b2n dir) ++ u16 seq ++ u8 res ++ [0, 0, 0]

/-- RREG, and WREG without its data. -/
def regPacket (opc dom rtag raddr : Nat) : List Byte := u8 opc ++ u8 dom ++ u16 rtag ++ u32 raddr

/-- MBX_WR without its data, MBX_RD; MBX_DB with `SEQ` in place of the offset. -/
def mbxPacket (opc dom moff mlen mtag : Nat) : List Byte := u8 opc ++ u8 dom ++ u16 moff ++ u8 mlen ++ u8 mtag ++ [0, 0]

/-- PM_ACK. -/
def pmPacket (preq seq res : Nat) : List Byte := u8 0x83 ++ u8 preq ++ u16 seq ++ u8 res ++ [0, 0, 0]

/-- A reserved VC2 opcode that the partner may send (R82). -/
def reservedVc2Packet (g opc dom : Nat) (s : State) : State :=
  if reservedVc2Op opc then arriveVc2 g (regPacket opc dom 0 0) s else s

/-! ## The link -/

/-- The groups in service. -/
def serviceCount (s : State) : Nat := (inService s false).length + (inService s true).length

/-- WHOLE_LINK_RETRAIN (R134): a direction of a link that is up has no group. -/
def linkGone (s : State) : State :=
  if s.link.up && ((inService s false).isEmpty || (inService s true).isEmpty) then wholeRetrain (serviceCount s) s else s

/-- DEEP_WAKE_DETECT (R42, R377): the partner's wake signal in SLEEP, on the lane where the stack listens; the detector is disarmed in DEEP SLEEP. -/
def wakeDetected (s : State) : State :=
  if (listenLane s).isNone then s else
  match s.pck.pow with
  | .sleep | .entering => deepWake (wakeCause 1 s)
  | _ => s

/-- GROUP_PLL_LOSS (R48): a group whose PLL loses lock, with HL_REFCLK present, is lost; one not in service goes to DETECT as a lost group does. -/
def groupPllLoss (g : Nat) (s : State) : State :=
  let x := s.grp g
  if !s.link.refclk || !x.pll then s
  else if x.inSvc then groupLost g 4 s else groupDetect s g

/-- NAK_REPEAT_TIMEOUT (R58): a NAK is outstanding and no flit came. -/
def nakRepeat (g : Nat) (s : State) : State := if hears s g && (s.grp g).nakOut then sendNak s g else s

/-- ACK_TIMEOUT (R60): flits that the stack sent stay unacknowledged. -/
def ackTimeout (g : Nat) (s : State) : State :=
  let x := s.grp g
  if x.dir && !x.replay.isEmpty && (x.gst == .active || x.gst == .quiet || x.gst == .turn) then groupLost g 1 s else s

/-- LOST_REQ_TIMEOUT (R73): no LOST answers the stack's LOST_REQ within 4 µs. -/
def lostReqTimeout (s : State) : State :=
  if (List.range 16).any fun g => (s.grp g).lostReq then wholeRetrain (serviceCount s) s else s

/-- SPARE_CHECKER_FAIL (R71): the idle spare of a group that the stack receives on is FAILED, and the partner is told. -/
def spareCheckerFail (g l : Nat) (s : State) : State :=
  if hears s g && (s.grp g).spare == some l then sendItem (spareDead g l s) (groupItem g 1 0 l) else s

/-! ## Requests, cache, memory -/

/-- URGENCY_RECOMPUTE (R144): the step of every request in the buffer. -/
def urgencyRecompute (s : State) : State := { s with rqe.reqs := s.rqe.reqs.map fun r => { r with ustep := urgency s r } }

/-- SLICE_FAULT (R173): a criterion met in service, causes 1 to 4. -/
def sliceFaultEvent (sl cause : Nat) (s : State) : State := if cause = 0 ∨ 4 < cause then s else sliceFault sl cause s

/-- The newest reading of a DRAM die's sensor as RFM takes it: whole degrees, rounding down, eight bits, with its mark (R202, R392). -/
def dieTemp (s : State) (n : Nat) : Option (Nat × Bool) :=
  (SMap.get? s.thm.temp (32 + n)).map fun e => (twos 8 (min 127 (signed13 e.1 / 16)), e.2)

/-- DIE_TEMP_READING (R202): each die's sensor, but for those in `missing`. -/
def dieReadings (missing : Nat) (s : State) : State :=
  match s.pck.pow with
  | .run | .idle | .entering =>
    (List.range 16).foldl (fun t n => match (if bit missing n then none else dieTemp t n) with
      | some (v, ok) => dieReading n (some v) ok t
      | none => dieReading n none true t) s
  | _ => s

/-! ## Mailboxes and power -/

/-- MAILBOX_DOORBELL (R275); the service mailbox's also wakes the stack (R377). -/
def doorbellRing (m seq : Nat) (s : State) : State :=
  if !regsOpen s then s else
  let t := doorbell m seq s
  if m = 16 then wakeCause 2 t else t

/-- DROOP_DETECT (R381): only with `DROOP_EN`. -/
def droopDetect (s : State) : State := if s.on F.PCK_CTL_DROOP_EN then flushVc2 (runWaits (pfStart 1 s)) else s

end Sys2Proof.Machine
end

