-- ==== Sys2Proof/Machine/ExecDram.lean ====
section
/-! DEFINITION. Commands of DRAM channels, refresh, integrity, TSVs, fold and regulation (ch. 6, 8 to 11). One meaning for each row, over the operations of the units. -/

namespace Sys2Proof.Machine

/-- REFRESH_TICK (R200): a bank's refresh tick adds one to its debt, making refresh due or overdue. -/
def execRefreshTick (ch : Fin 32) (bank : Fin 128) (s : State) : Answer :=
  .next (refreshTick ch.val bank.val s)

/-- DIE_TEMP_READING (R202): every 1 ms, RFM reads each DRAM die sensor and sets the normal or doubled rate. -/
def execDieTempReading (missing : BitVec 16) (s : State) : Answer :=
  .next (dieReadings missing.toNat s)

/-- ROW_CLOSE (R205): a row closes and the die updates its stroke word. -/
def execRowClose (ch : Fin 32) (word : Fin 3) (s : State) : Answer :=
  .next (rowClose ch.val word.val s)

/-- REPORT_BURST_RECEIVE (R207): a report burst is received and checked, its records go to the victim queue, and the verdict is set for the next REFpb. -/
def execReportBurstReceive (ch : Fin 32) (rank : Fin 4) (err : List Nat) (s : State) : Answer :=
  .next (reportReceive ch.val rank.val err s)

/-- BACKLOG_TIMEOUT (R211): the oldest victim record has waited BKLG_TMO µs and the backlog event is raised. -/
def execBacklogTimeout (s : State) : Answer :=
  .next (channels.foldl (fun t c => backlogTimeout c t) s)

/-- VICTIM_REFRESH_DONE (R209): the last PRE of a victim refresh issues and the record leaves the queue. -/
def execVictimRefreshDone (ch : Fin 32) (bank : Fin 128) (s : State) : Answer :=
  .next (victimRefreshDone ch.val bank.val s)

/-- HANG_DETECT (R192): a channel's watchdog expires or its state check fails, and a hang reset starts. -/
def execHangDetect (ch : Fin 32) (stateCheck : Bool) (s : State) : Answer :=
  .next (hangDetect ch.val stateCheck s)

/-- HANG_RESET_COMPLETE (R193): the channel's hang reset ends, it returns to RUN and a forced drain replays the write queue. -/
def execHangResetComplete (ch : Fin 32) (s : State) : Answer :=
  .next (hangComplete ch.val s)

/-- SCRUB_STEP (R227): a patrol scrub step opens a row, reads and decodes it, and passes corrected sectors to the unit. -/
def execScrubStep (ch : Fin 32) (err : List Nat) (s : State) : Answer :=
  .next (scrubStep ch.val err s)

/-- SCRUB_WRITEBACK (R228): the unit rereads a scrubbed sector and writes it back, or drops the write-back. -/
def execScrubWriteback (ch : Fin 32) (err : List Nat) (s : State) : Answer :=
  .next (scrubWriteback ch.val err s)

/-- CACHE_SCRUB (R229): SCC scrubs slice lines and the Jaold tables, rewriting corrected words. -/
def execCacheScrub (target : Fin 3) (sl : Fin 32) (set : BitVec 12) (way : Fin 16) (half : Fin 2) (out : Fin 3) (idx : BitVec 17) (s : State) : Answer :=
  .next (cacheScrub target.val sl.val set.toNat way.val half.val out.val idx.toNat s)

/-- ROLLING_CAL_STEP (R242): every 10 ms, the next TSV line is swept and validated on the shadow and swapped by MAPSW. -/
def execRollingCalStep (ch : Fin 32) (s : State) : Answer :=
  .next (rollStep ch.val s)

/-- STALL_CAL_STEP (R244): with no shadow, every 10 ms an active line is recalibrated in place with a stall of at most 3 µs. -/
def execStallCalStep (ch : Fin 32) (pass : Bool) (rd wr : BitVec 6) (s : State) : Answer :=
  .next (stallStep ch.val pass rd.toNat wr.toNat s)

/-- FAST_SWAP_ISOLATION_END (R246): the freed line's 1 ms PRBS7 test ends; it becomes the shadow or is declared dead. -/
def execFastSwapIsolationEnd (ch : Fin 32) (errors : Bool) (s : State) : Answer :=
  .next (isolationEnd ch.val errors s)

/-- PARITY_ALERT (R249): a die signals a command-parity failure, DMC resynchronises, reissues and checks the lines by loopback. -/
def execParityAlert (ch : Fin 32) (bad : Option (Fin 26)) (s : State) : Answer :=
  .next (parityAlert ch.val (bad.map (·.val)) s)

/-- ROW_REPAIR_START (R252): a queued repair takes the stack's repair slot, holds the row and copies it to a spare. -/
def execRowRepairStart (s : State) : Answer :=
  .next (repairStart s)

/-- ROW_REPAIR_COMPLETE (R252): the remap entry is stored and written to the Jaold table, and held requests go to the spare. -/
def execRowRepairComplete (ch : Fin 32) (s : State) : Answer :=
  .next (repairComplete ch.val s)

/-- FOLD_UNIT_MOVE (R255): a fold unit is copied to its target and FOLD_PTR advances. -/
def execFoldUnitMove (s : State) : Answer :=
  .next (foldUnitMove (foldResume s))

/-- FOLD_CHUNK_END (R257): a chunk completes, FOLD_PTR is stored and the fold-progress event is raised. -/
def execFoldChunkEnd (s : State) : Answer :=
  .next (foldChunkEnd s)

/-- FOLD_CLEAN_END (R256): slice f reaches BYPASS and the fold enters MIGRATE. -/
def execFoldCleanEnd (s : State) : Answer :=
  .next (foldCleanEnd s)

/-- FOLD_DONE (R256): FOLD_PTR reaches its end and channel f and its slice are powered off. -/
def execFoldDone (s : State) : Answer :=
  .next (foldDone s)

/-- S_RECOMPUTE (R146): every 1 ms, REG recomputes S from rank rates, fold and theta. -/
def execSRecompute (s : State) : Answer :=
  .next (sRecompute s)

/-- BOW_CONTEXT_RESET_DONE (R138): the contexts that changed owner have been reset and BOW_BUSY clears. -/
def execBowContextResetDone (d : Fin 16) (s : State) : Answer :=
  .next (bowReset d.val s)

end Sys2Proof.Machine
end

