-- ==== Sys2Proof/Machine/ExecLanes.lean ====
section
/-! DEFINITION. Commands of lanes and training (ch. 2). One meaning for each row, over the operations of the units. -/

namespace Sys2Proof.Machine

/-- GROUP_POWER_UP (R34): a group leaves OFF for DETECT, powering its lanes and enabling termination. -/
def execGroupPowerUp (g : Fin 16) (s : State) : Answer :=
  .next (groupPowerUp g.val s)

/-- GROUP_DETECT_END (R34): far-end termination is sensed on at least 16 lanes, or 1 ms expires, and the group goes to CLOCK or FAILED. -/
def execGroupDetectEnd (g : Fin 16) (sensed : BitVec 17) (s : State) : Answer :=
  .next (serviceChange g.val (s.grp g.val).gst (groupDetectEnd g.val sensed.toNat s))

/-- GROUP_CLOCK_END (R34): the group PLL has locked and the SQUARE burst has ended, starting the slot count, or 1 ms expires and the group fails. -/
def execGroupClockEnd (g : Fin 16) (locked burst : Bool) (s : State) : Answer :=
  .next (serviceChange g.val (s.grp g.val).gst (groupClockEnd g.val locked burst s))

/-- TRAINING_SLOT_END (R35): a training slot of Table 2.4 ends after its counted HL_REFCLK cycles and the group moves to the next slot or state. -/
def execTrainingSlotEnd (g : Fin 16) (task : SlotResult) (s : State) : Answer :=
  .next (serviceChange g.val (s.grp g.val).gst (trainingSlotEnd g.val task s))

/-- CONFIRM_WORD_ACCEPT (R36): a CONFIRM word is accepted after 64 identical copies; slot 20's end then applies presets, maps lanes and makes the group ACTIVE. -/
def execConfirmWordAccept (g : Fin 16) (word : BitVec 64) (on : BitVec 17) (s : State) : Answer :=
  .next (confirmWordAccept g.val word.toNat on.toNat s)

/-- GROUP_TRAIN_FAIL (R37): a group reaches FAILED during cold-boot training and is retrained from DETECT, up to three attempts. -/
def execGroupTrainFail (g : Fin 16) (s : State) : Answer :=
  .next (groupTrainFail g.val s)

/-- LINK_READY (R68): two groups are in service in each direction with no admitted request left from a prior loss, and link-ready is reported. -/
def execLinkReady (s : State) : Answer :=
  .next (linkReadyStep s)

/-- WHOLE_LINK_RETRAIN (R134): a direction is left with no group, every group retrains, partial and waiting packets are discarded and completions are dropped. -/
def execWholeLinkRetrain (s : State) : Answer :=
  .next (linkGone s)

/-- QUIET_ENTRY (R41): after QUIET_DLY idle flits and a QUIET-entry flit, a direction's drivers go to common mode. -/
def execQuietEntry (g : Fin 16) (s : State) : Answer :=
  .next (quietEntry g.val s)

/-- KEEP_ALIVE_BURST (R41): every 500 ns in QUIET, the transmitting end sends a 64 UI SQUARE burst. -/
def execKeepAliveBurst (g : Fin 16) (s : State) : Answer :=
  .next (keepAlive g.val s)

/-- WAKE_PREAMBLE_RECEIVE (R41): a wake preamble is received in QUIET and flits resume. -/
def execWakePreambleReceive (g : Fin 16) (s : State) : Answer :=
  .next (wakePreamble g.val s)

/-- DEEP_WAKE_DETECT (R42): the wake signal is detected on a wake lane in DEEP and the group relocks and runs the fast path of slots 17 to 20. -/
def execDeepWakeDetect (s : State) : Answer :=
  .next (wakeDetected s)

/-- LANE_FAILURE_DETECT (R39): a flit-carrying lane meets a failure criterion, is set FAILED and reported to HLL. -/
def execLaneFailureDetect (g : Fin 16) (found : LaneFinding) (s : State) : Answer :=
  .next (laneDetect g.val found.lane.val found.los s)

/-- HL_REFCLK_LOSS (R48): HL_REFCLK is absent for more than 1 µs and every group goes to OFF. -/
def execHlRefclkLoss (s : State) : Answer :=
  .next (refclkLoss s)

/-- HL_REFCLK_RETURN (R48): HL_REFCLK returns and each group trains from DETECT. -/
def execHlRefclkReturn (s : State) : Answer :=
  .next (refclkReturn s)

/-- GROUP_PLL_LOSS (R48): a single group PLL loses lock while HL_REFCLK is present, and the group is treated as lost. -/
def execGroupPllLoss (g : Fin 16) (s : State) : Answer :=
  .next (groupPllLoss g.val s)

end Sys2Proof.Machine
end

