-- ==== Sys2Proof/Machine/ExecLate.lean ====
section
/-! DEFINITION. Commands of lanes, TSVs, tables, clocks and EP0 that the table lists last. One meaning for each row, over the operations of the units. -/

namespace Sys2Proof.Machine

/-- SPARE_CHECKER_FAIL (R71): the checker on the idle spare lane fails its PRBSQ13 stream; the spare is marked FAILED and GROUP SPARE_DEAD is sent. -/
def execSpareCheckerFail (g : Fin 16) (l : Fin 17) (s : State) : Answer :=
  .next (spareCheckerFail g.val l.val s)

/-- KEEP_ALIVE_RECEIVE (R41): a keep-alive burst from the partner arrives in QUIET, and the receiver corrects its frozen CDR phase against spread. -/
def execKeepAliveReceive (g : Fin 16) (s : State) : Answer :=
  .next (keepAliveReceive g.val s)

/-- TURN_CDR_LOCK (R75): as the old sender, the stack's CDR locks on the partner's SQUARE and checks ALIGN at the stored slip, sparing or losing failing lanes before START. -/
def execTurnCdrLock (failing : BitVec 17) (s : State) : Answer :=
  .next (turnCdrLock failing.toNat s)

/-- STROBE_TRACKING (R191): once per 1 ms per rank, with TRK_EN set, RG_DLY moves at most one step towards the measured strobe centre, and a pair that loses tracking is spared. -/
def execStrobeTracking (ch : Fin 32) (rank : Fin 4) (dir : Fin 3) (lost : Option (Fin 5)) (s : State) : Answer :=
  .next (strobeTrack ch.val rank.val dir.val (lost.map (·.val)) s)

/-- SHADOW_VALIDATION_END (R243): the sweep and validation of a shadow ends, about 2 ms into a rolling step or 100 µs after a suspect mark, and MAPSW is issued or the failure is counted. -/
def execShadowValidationEnd (ch : Fin 32) (pass : Bool) (rd wr : BitVec 6) (s : State) : Answer :=
  .next (validationEnd ch.val pass rd.toNat wr.toNat s)

/-- SPARE_IN_PLACE_STEP_END (R246): the in-place step of a spare ends within 2 ms, and the spare becomes the shadow, or is declared dead after failing twice. -/
def execSpareInPlaceStepEnd (ch : Fin 32) (pass : Bool) (rd wr : BitVec 6) (s : State) : Answer :=
  .next (inPlaceEnd ch.val pass rd.toNat wr.toNat s)

/-- SUSPECT_WINDOW_END (R235): a 1 ms correction window ends, clearing suspect positions whose count stayed below POS_THR and updating TOP_POS. -/
def execSuspectWindowEnd (ch : Fin 32) (s : State) : Answer :=
  .next (windowEnd ch.val s)

/-- REMAP_ENTRY_RELOADED (R223): an uncorrectable remap-table entry has been reloaded from its MRAM copy within 20 µs, and the held requests to the bank are released. -/
def execRemapEntryReloaded (s : State) : Answer :=
  .next (remapReloaded s)

/-- CONTEXT_REBUILT (R223): RQE finishes rebuilding words 2 and 3 of a context from the request buffer within 8.2 µs, and requests of that bow number are issued again. -/
def execContextRebuilt (s : State) : Answer :=
  .next (contextRebuilt s)

/-- PLL_RELOCK (R320): a failed FAB or DCK PLL regains lock and becomes the standby PLL. -/
def execPllRelock (p : Fin 5) (s : State) : Answer :=
  .next (pllRelock p.val s)

/-- STANDBY_PLL_UNUSABLE (R308): the standby PLL loses lock or becomes unusable, and source 266 is raised with value 1. -/
def execStandbyPllUnusable (s : State) : Answer :=
  .next (stbyUnusable s)

/-- EP0_STANDARD_REQUEST (R429): the service host sends a standard control request on EP0, for example to configure the function, which sets USB_CFG. -/
def execEp0StandardRequest (req : BitVec 8) (value len : BitVec 16) (s : State) : Answer :=
  .next (ep0Request req.toNat value.toNat len.toNat s)

end Sys2Proof.Machine
end

