-- ==== Sys2Proof/Machine/ExecLink.lean ====
section
/-! DEFINITION. Commands of flits, link items, losses and turns (ch. 3). One meaning for each row, over the operations of the units. -/

namespace Sys2Proof.Machine

/-- FLIT_RECEIVE (R58): a flit is received and checked by FEC and CRC, then accepted, discarded or NAKed, and its completed packets are delivered. -/
def execFlitReceive (g : Fin 16) (raw : List Byte) (s : State) : Answer :=
  .next (flitIn g.val raw s)

/-- NAK_REPEAT_TIMEOUT (R58): a NAK is outstanding and no flit has been accepted for 1 µs, so NAK(EXP) is sent again. -/
def execNakRepeatTimeout (g : Fin 16) (s : State) : Answer :=
  .next (nakRepeat g.val s)

/-- STATUS_SEND (R59): at a flit boundary 128 ns after the previous STATUS, with something unreported, a STATUS item is placed on the home group. -/
def execStatusSend (s : State) : Answer :=
  .next (if statusDue s then sendStatus s else s)

/-- STATUS (R57): a received STATUS item releases acknowledged flits from the replay buffer and credits the VC1 and VC2 pools. -/
def execStatus (g : Fin 16) (mask : BitVec 16) (acks : List Nat) (vc1 : BitVec 32) (vc2 : BitVec 16) (s : State) : Answer :=
  .next (statusItemIn g.val mask.toNat acks vc1.toNat vc2.toNat s)

/-- NAK (R57): a received NAK releases earlier flits and starts a replay from the expected number. -/
def execNak (g n : Fin 16) (exp : BitVec 10) (s : State) : Answer :=
  .next (nakItemIn g.val n.val exp.toNat s)

/-- CONFIG (R65): a received CONFIG item records the partner's VC1 and VC2 pools and permits packet sending. -/
def execConfig (g : Fin 16) (vc1 : BitVec 20) (vc2 : BitVec 12) (s : State) : Answer :=
  .next (configItemIn g.val vc1.toNat vc2.toNat s)

/-- CONFIG_SEND (R65): the stack sends a new CONFIG within 1 µs of a write to HLL_CRD. -/
def execConfigSend (s : State) : Answer :=
  .next (configSend s)

/-- GROUP_SPARE_ITEM (R71): a received GROUP SPARE makes the sender remap, send START with FSEQ = EXP and replay. -/
def execGroupSpareItem (g n : Fin 16) (exp : BitVec 10) (l : Fin 17) (s : State) : Answer :=
  .next (groupSpareIn g.val n.val exp.toNat l.val s)

/-- GROUP_SPARE_DEAD_ITEM (R71): a received GROUP SPARE_DEAD marks the spare FAILED and the group runs without a spare. -/
def execGroupSpareDeadItem (g n : Fin 16) (l : Fin 17) (s : State) : Answer :=
  .next (groupSpareDeadIn g.val n.val l.val s)

/-- GROUP_LOST_ITEM (R73): a received GROUP LOST makes the sender resend the unacknowledged packets of the lost group on the home group. -/
def execGroupLostItem (g n : Fin 16) (last : BitVec 10) (s : State) : Answer :=
  .next (groupLostIn g.val n.val last.toNat s)

/-- GROUP_LOST_REQ_ITEM (R73): a received GROUP LOST_REQ makes the receiver freeze the group and answer with LOST. -/
def execGroupLostReqItem (g n : Fin 16) (s : State) : Answer :=
  .next (groupLostReqIn g.val n.val s)

/-- ACK_TIMEOUT (R60): the sender has held unacknowledged flits for ACK_TMO µs without progress, and the group is lost. -/
def execAckTimeout (g : Fin 16) (s : State) : Answer :=
  .next (ackTimeout g.val s)

/-- GROUP_LOSS (R72): a group is lost: event raised, group sent to DETECT and the loss sequence of Table 3.7 begun. -/
def execGroupLoss (g : Fin 16) (cause : Fin 6) (s : State) : Answer :=
  .next (groupLost g.val cause.val s)

/-- LOST_REQ_TIMEOUT (R73): no LOST arrives within 4 µs of LOST_REQ and the whole link retrains. -/
def execLostReqTimeout (s : State) : Answer :=
  .next (lostReqTimeout s)

/-- TURN (R74): a TURN packet from the partner is accepted or refused and answered with TURN_ACK. -/
def execTurn (g tgrp : Fin 16) (tdir : Bool) (tseq : BitVec 16) (s : State) : Answer :=
  .next (arriveVc2 g.val (turnPacket 0x80 tgrp.val tdir tseq.toNat 0) s)

/-- TURN_ACK (R74): a TURN_ACK matching an outstanding TURN is received and the turn proceeds or is withdrawn; an unmatched one is ignored. -/
def execTurnAck (g tgrp : Fin 16) (tdir : Bool) (tseq : BitVec 16) (res : BitVec 8) (s : State) : Answer :=
  .next (arriveVc2 g.val (turnPacket 0x81 tgrp.val tdir tseq.toNat res.toNat) s)

/-- TURN_ACK_TIMEOUT (R74): no TURN_ACK arrives within 10 µs and the stack withdraws its request with TIMEOUT. -/
def execTurnAckTimeout (s : State) : Answer :=
  .next (turnAckTimeout s)

/-- TURN_LAST_ACCEPT (R75): the LAST flit of a turning group is accepted and acknowledged, and the old sender turns off its drivers. -/
def execTurnLastAccept (s : State) : Answer :=
  .next (turnLastAccept s)

/-- TURN_SQUELCH_DETECT (R75): squelch reports loss of signal on the turning group, and the old receiver drives SQUARE, then ALIGN, then START after the guard. -/
def execTurnSquelchDetect (s : State) : Answer :=
  .next (turnSquelch s)

/-- TURN_TIMEOUT (R75): the START in the new direction does not come within 4 µs and the group is lost with TIMEOUT. -/
def execTurnTimeout (s : State) : Answer :=
  .next (turnTimeout s)

end Sys2Proof.Machine
end

