-- ==== Sys2Proof/Machine/ExecMailbox.lean ====
section
/-! DEFINITION. The mailbox commands (ch. 12). One meaning for each row, over the operations of the units. -/

namespace Sys2Proof.Machine

/-- SESSION_OPEN (R275): a session opens and the expected sequence is set. -/
def execSessionOpen (m : Fin 17) (s : State) : Answer :=
  .next (sessionOpen m.val s)

/-- SESSION_CLOSE (R278): a session closes and the master's leases are released. -/
def execSessionClose (m : Fin 17) (s : State) : Answer :=
  .next (sessionClose m.val s)

/-- LEASE_ACQUIRE (R278): a master acquires a lease or is refused with RESOURCE. -/
def execLeaseAcquire (m : Fin 17) (s : State) : Answer :=
  .next (leaseAcquire m.val s)

/-- LEASE_RENEW (R278): a lease is renewed. -/
def execLeaseRenew (m : Fin 17) (s : State) : Answer :=
  .next (leaseRenew m.val s)

/-- LEASE_RELEASE (R278): a lease is released. -/
def execLeaseRelease (m : Fin 17) (s : State) : Answer :=
  .next (leaseRelease m.val s)

/-- GET_IDENTITY (R280): the stack returns its serial, GLB_ID, image version and SVN. -/
def execGetIdentity (m : Fin 17) (s : State) : Answer :=
  .next (getIdentity m.val s)

/-- SPDM_MSG (R283): one SPDM 1.2 request is answered. -/
def execSpdmMsg (m : Fin 17) (blobs : SpdmBlobs) (s : State) : Answer :=
  .next (spdmMsg m.val blobs s)

/-- SVC_AUTH_NONCE (R433): a fresh 48-byte nonce is issued to the service host. -/
def execSvcAuthNonce (m : Fin 17) (s : State) : Answer :=
  .next (svcAuthNonce m.val s)

/-- SVC_AUTH_PROVE (R433): the service host's signed proof is verified and authentication set or refused. -/
def execSvcAuthProve (m : Fin 17) (ok : Bool) (s : State) : Answer :=
  .next (svcAuthProve m.val ok s)

/-- NONCE_EXPIRY (R433): the nonce becomes invalid 10 s after issue. -/
def execNonceExpiry (s : State) : Answer :=
  .next (nonceExpiry s)

/-- AUTH_LOCK_END (R434): 60 s after the fourth failure, AUTH_LOCK clears. -/
def execAuthLockEnd (s : State) : Answer :=
  .next (authLockEnd s)

/-- CFG_REGION_SET (R119): a region entry is written through basic control. -/
def execCfgRegionSet (m : Fin 17) (s : State) : Answer :=
  .next (cfgRegionSet m.val s)

/-- CFG_REGION_GET (R280): a region entry is returned with override marks. -/
def execCfgRegionGet (m : Fin 17) (s : State) : Answer :=
  .next (cfgRegionGet m.val s)

/-- CFG_DOMAIN_SET (R280): a domain's enable, bow range, buffer cap, credits and cache ways are set. -/
def execCfgDomainSet (m : Fin 17) (s : State) : Answer :=
  .next (cfgDomainSet m.val s)

/-- CFG_DOMAIN_GET (R280): a domain's settings are returned with override marks. -/
def execCfgDomainGet (m : Fin 17) (s : State) : Answer :=
  .next (cfgDomainGet m.val s)

/-- CFG_HASH_SET (R122): the address hash is set while no request has been admitted. -/
def execCfgHashSet (m : Fin 17) (s : State) : Answer :=
  .next (cfgHashSet m.val s)

/-- CFG_PURGE (R133): a purge of a domain is started. -/
def execCfgPurge (m : Fin 17) (s : State) : Answer :=
  .next (cfgPurge m.val s)

/-- CFG_LINK_SET (R280): link balancing, power and replay settings are written for all groups. -/
def execCfgLinkSet (m : Fin 17) (s : State) : Answer :=
  .next (cfgLinkSet m.val s)

/-- CFG_TURN (R74): a turn of a group is requested and its result returned. -/
def execCfgTurn (m : Fin 17) (s : State) : Answer :=
  .next (cfgTurn m.val s)

/-- REG_CLASS_SET (R141): a class's kind and parameters are set. -/
def execRegClassSet (m : Fin 17) (s : State) : Answer :=
  .next (regClassSet m.val s)

/-- REG_GLOBAL_SET (R280): MTR_EN and DL_OFS are set. -/
def execRegGlobalSet (m : Fin 17) (s : State) : Answer :=
  .next (regGlobalSet m.val s)

/-- REG_BOW_SET (R140): the contexts of a run of bow numbers are written. -/
def execRegBowSet (m : Fin 17) (s : State) : Answer :=
  .next (regBowSet m.val s)

/-- REG_RSV_SET (R148): a reservation is created or changed under the overcommit test. -/
def execRegRsvSet (m : Fin 17) (s : State) : Answer :=
  .next (regRsvSet m.val s)

/-- REG_RSV_FREE (R148): an unreferenced reservation is freed. -/
def execRegRsvFree (m : Fin 17) (s : State) : Answer :=
  .next (regRsvFree m.val s)

/-- REG_GET (R280): s, OVC, reserved sums and theta are returned. -/
def execRegGet (m : Fin 17) (s : State) : Answer :=
  .next (regGet m.val s)

/-- CACHE_POLICY_SET (R166): policies, enables and background ways are written to all slices. -/
def execCachePolicySet (m : Fin 17) (s : State) : Answer :=
  .next (cachePolicySet m.val s)

/-- CACHE_OP (R166): a clean or invalidate operation is started on the masked slices. -/
def execCacheOp (m : Fin 17) (s : State) : Answer :=
  .next (cacheOp m.val s)

/-- CACHE_GET (R280): the state of every slice is returned. -/
def execCacheGet (m : Fin 17) (s : State) : Answer :=
  .next (cacheGet m.val s)

/-- MEM_READ (R281): device memory sectors are read as internal requests. -/
def execMemRead (m : Fin 17) (s : State) : Answer :=
  .next (memRead m.val s)

/-- MEM_WRITE (R281): device memory sectors are written as internal requests. -/
def execMemWrite (m : Fin 17) (s : State) : Answer :=
  .next (memWrite m.val s)

/-- MEM_ZERO (R281): a device memory range is zeroed. -/
def execMemZero (m : Fin 17) (s : State) : Answer :=
  .next (memZero m.val s)

/-- RPR_ROW (R251): a row is queued for repair through basic control. -/
def execRprRow (m : Fin 17) (s : State) : Answer :=
  .next (rprRow m.val s)

/-- RPR_GET (R280): a channel's TSV state and repair counts are returned. -/
def execRprGet (m : Fin 17) (s : State) : Answer :=
  .next (rprGet m.val s)

/-- FOLD_MODE (R253): fold-ready mode and automatic fold are set. -/
def execFoldMode (m : Fin 17) (s : State) : Answer :=
  .next (foldMode m.val s)

/-- FOLD_START (R256): a fold of a channel is started. -/
def execFoldStart (m : Fin 17) (s : State) : Answer :=
  .next (foldStart m.val s)

/-- TSV_KILL (R245): a data line is declared dead through basic control. -/
def execTsvKill (m : Fin 17) (s : State) : Answer :=
  .next (tsvKill m.val s)

/-- RFM_SET (R280): stroke threshold, postponement, doubling and backlog settings are written. -/
def execRfmSet (m : Fin 17) (s : State) : Answer :=
  .next (rfmSet m.val s)

/-- DIP_SET (R280): scrub and error-threshold settings are written. -/
def execDipSet (m : Fin 17) (s : State) : Answer :=
  .next (dipSet m.val s)

/-- DMC_SET (R280): channel controller settings are written to all channels. -/
def execDmcSet (m : Fin 17) (s : State) : Answer :=
  .next (dmcSet m.val s)

/-- PWR_ENTER (R373): entry to SLEEP, DEEP SLEEP or OFF is requested and checked against the refusers. -/
def execPwrEnter (m : Fin 17) (s : State) : Answer :=
  .next (pwrEnter m.val s)

/-- PWR_VOTE (R376): a domain places or withdraws its no-sleep vote. -/
def execPwrVote (m : Fin 17) (s : State) : Answer :=
  .next (pwrVote m.val s)

/-- PWR_GET (R390): power state, votes and refusals are returned. -/
def execPwrGet (m : Fin 17) (s : State) : Answer :=
  .next (pwrGet m.val s)

/-- THM_SET (R395): throttle slope and cap are set. -/
def execThmSet (m : Fin 17) (s : State) : Answer :=
  .next (thmSet m.val s)

/-- CAL_RUN (R349): a calibration run of the masked items is started and answered after the store write. -/
def execCalRun (m : Fin 17) (s : State) : Answer :=
  .next (calRun m.val s)

/-- CAL_GET (R280): the calibration count and time are returned. -/
def execCalGet (m : Fin 17) (s : State) : Answer :=
  .next (calGet m.val s)

/-- FW_LOAD_BEGIN (R272): a firmware load begins and the target boathouse is marked invalid. -/
def execFwLoadBegin (m : Fin 17) (s : State) : Answer :=
  .next (fwLoadBegin m.val s)

/-- FW_LOAD (R446): a firmware chunk is written to the target boathouse. -/
def execFwLoad (m : Fin 17) (s : State) : Answer :=
  .next (fwLoad m.val s)

/-- FW_VERIFY (R265): the loaded image is verified and the target marked valid. -/
def execFwVerify (m : Fin 17) (ok : Bool) (s : State) : Answer :=
  .next (fwVerify m.val ok s)

/-- FW_ACTIVATE (R272): the standby loads the new image and takes over, starting the trial. -/
def execFwActivate (m : Fin 17) (out : Fin 5) (s : State) : Answer :=
  .next (fwActivate m.val out.val s)

/-- FW_TAKEOVER (R271): a planned takeover is performed at a command boundary. -/
def execFwTakeover (m : Fin 17) (s : State) : Answer :=
  .next (fwTakeover m.val s)

/-- FW_SVN_COMMIT (R340): rollback thermometer steps are blown up to the running SVN. -/
def execFwSvnCommit (m : Fin 17) (s : State) : Answer :=
  .next (fwSvnCommit m.val s)

/-- FW_GET (R280): boathouse versions, validity and slots are returned. -/
def execFwGet (m : Fin 17) (s : State) : Answer :=
  .next (fwGet m.val s)

/-- FW_SET (R280): watchdog, trial and standby settings are written. -/
def execFwSet (m : Fin 17) (s : State) : Answer :=
  .next (fwSet m.val s)

/-- LOG_READ (R314): fault-log records are returned, skipping stale copies. -/
def execLogRead (m : Fin 17) (s : State) : Answer :=
  .next (logRead m.val s)

/-- FAULT_GET (R316): the first-fault record is returned. -/
def execFaultGet (m : Fin 17) (s : State) : Answer :=
  .next (faultGet m.val s)

/-- EVT_ROUTE_SET (R310): a source's domain mask and reaction preset are set. -/
def execEvtRouteSet (m : Fin 17) (s : State) : Answer :=
  .next (evtRouteSet m.val s)

/-- EVT_ROUTE_GET (R310): a source's routing and matching preset are returned. -/
def execEvtRouteGet (m : Fin 17) (s : State) : Answer :=
  .next (evtRouteGet m.val s)

/-- FCR_SET (R280): the easy period is set. -/
def execFcrSet (m : Fin 17) (s : State) : Answer :=
  .next (fcrSet m.val s)

/-- WEIGH_ENOUGH (R282): the stack or a domain is quiesced, and the command answers when drained or times out. -/
def execWeighEnough (m : Fin 17) (s : State) : Answer :=
  .next (weighEnough m.val s)

/-- RESUME (R282): weigh-enough is ended for the stack or a domain. -/
def execResume (m : Fin 17) (s : State) : Answer :=
  .next (resume m.val s)

/-- TEST_LANE (R45): a lane's generator and checker are set for a user test and errors are returned. -/
def execTestLane (m : Fin 17) (s : State) : Answer :=
  .next (testLane m.val s)

/-- TEST_ECC_INJ (R236): an ECC error injection is armed in a channel. -/
def execTestEccInj (m : Fin 17) (s : State) : Answer :=
  .next (testEccInj m.val s)

/-- FUSE_READ_CMD (R340): the shadow words of a fuse region are returned, with the secret reading zero. -/
def execFuseReadCmd (m : Fin 17) (s : State) : Answer :=
  .next (fuseReadCmd m.val s)

/-- FUSE_PROGRAM (R338): bits are blown into a fuse word, sparing a marginal row. -/
def execFuseProgram (m : Fin 17) (marginal : Bool) (s : State) : Answer :=
  .next (fuseProgram m.val marginal s)

/-- FUSE_LOCK (R339): a complete region's lock fuse is blown. -/
def execFuseLock (m : Fin 17) (s : State) : Answer :=
  .next (fuseLock m.val s)

/-- FUSE_VERIFY (R335): fuse rows are reread at two margins and findings are reported. -/
def execFuseVerify (m : Fin 17) (weak : List Nat) (s : State) : Answer :=
  .next (fuseVerify m.val weak s)

end Sys2Proof.Machine
end

