-- ==== Sys2Proof/Machine/ExecPower.lean ====
section
/-! DEFINITION. Commands of resets, supplies, clocks, power states and cores (ch. 12, 14, 17, 18, 20). One meaning for each row, over the operations of the units. -/

namespace Sys2Proof.Machine

/-- STK_RESET_ASSERT (R358): STK_RESET# is accepted low and a warm reset with its stretch begins. -/
def execStkResetAssert (s : State) : Answer :=
  .next (resetAssert s)

/-- WARM_RESET_STRETCH_END (R360): every channel's queues empty and the sequencer puts ranks in self-refresh. -/
def execWarmResetStretchEnd (s : State) : Answer :=
  .next (stretchEnd s)

/-- WARM_RESET_RELEASE (R359): the internal reset is released at the later of sequencer end and pin deassertion, and the stack restarts. -/
def execWarmResetRelease (fail : List (Nat × Nat)) (s : State) : Answer :=
  .next (resetRelease fail s)

/-- STK_WAKE_RISE (R377): STK_WAKE's accepted rising edge wakes the stack from SLEEP or DEEP SLEEP, or cold-boots it from OFF. -/
def execStkWakeRise (s : State) : Answer :=
  .next (stkWake s)

/-- PWR_FAIL_ASSERT (R381): PWR_FAIL# is accepted low and the power-fail sequence starts. -/
def execPwrFailAssert (s : State) : Answer :=
  .next (flushVc2 (runWaits (pfStart 0 s)))

/-- DROOP_DETECT (R381): a rail stays below 92% for 200 ns with DROOP_EN and the power-fail sequence starts. -/
def execDroopDetect (s : State) : Answer :=
  .next (droopDetect s)

/-- MAIN_GOOD_FALL (R412): MAIN_GOOD falls while the main domain is on and the stack switches over at once. -/
def execMainGoodFall (s : State) : Answer :=
  .next (mainFall s)

/-- MAIN_GOOD_RISE (R379): MAIN_GOOD rises and exits DEEP SLEEP, ends retention or starts a cold boot. -/
def execMainGoodRise (s : State) : Answer :=
  .next (mainRise s)

/-- RAIL_LATE_FALL (R384): a rail falls below 85% before the switch-over and PCK switches over at once with PF_LATE. -/
def execRailLateFall (s : State) : Answer :=
  .next (railLate s)

/-- POWER_FAIL_SWITCHOVER (R382): the flush ends, retention moves to Keel and the main domain is isolated. -/
def execPowerFailSwitchover (s : State) : Answer :=
  .next (pfSwitch s)

/-- RETENTION_ENTRY_DONE (R382): the MRAM list is completed on Keel power and Keel enters low-power mode. -/
def execRetentionEntryDone (s : State) : Answer :=
  .next (retentionDone s)

/-- KEEL_LOAD_CHECK (R386): at cold boot Keel is loaded with 400 mA for 100 µs, and a failure clears RET_AVAIL. -/
def execKeelLoadCheck (pass : Bool) (s : State) : Answer :=
  .next (keelCheck pass s)

/-- KEEL_BROWNOUT (R387): keel exceeds its current limit, retention collapses and BO_LATCH sets. -/
def execKeelBrownout (s : State) : Answer :=
  .next (keelBrownout s)

/-- KEEL_FAULT (R388): a Keel fault of cause 2 to 4 raises source 250. -/
def execKeelFault (cause : Fin 5) (s : State) : Answer :=
  .next (keelFault cause.val s)

/-- VBKP_LOW (R419): VBKP stays below its operating minimum for 10 µs and source 248 is raised. -/
def execVbkpLow (mv : BitVec 24) (s : State) : Answer :=
  .next (vbkpLow mv.toNat s)

/-- VBKP_COLLAPSE (R419): VBKP falls below 2.7 V and the always-on domain resets. -/
def execVbkpCollapse (s : State) : Answer :=
  .next (vbkpCollapse s)

/-- STK_REFCLK_LOSS (R414): STK_REFCLK is absent for 1 µs; ranks enter self-refresh and unwritten channels are latched. -/
def execStkRefclkLoss (s : State) : Answer :=
  .next (stkLoss s)

/-- STK_REFCLK_RETURN (R414): STK_REFCLK has been present again for 100 µs and a warm reset runs from the release row. -/
def execStkRefclkReturn (fail : List (Nat × Nat)) (s : State) : Answer :=
  .next (stkReturn fail s)

/-- FAB_PLL_LOSS (R320): the FAB PLL loses lock, FAB stops and the standby PLL is switched in. -/
def execFabPllLoss (s : State) : Answer :=
  .next (fabLoss s)

/-- FAB_PLL_RESUME (R320): crossing codes are re-verified and FAB resumes on the standby PLL. -/
def execFabPllResume (bad : List Nat) (s : State) : Answer :=
  .next (fabResume bad s)

/-- DCK_PLL_LOSS (R320): a DCK PLL loses lock and its eight channels enter self-refresh. -/
def execDckPllLoss (p : Fin 4) (s : State) : Answer :=
  .next (dckLoss p.val s)

/-- DCK_PLL_RELOCK_TIMEOUT (R320): the own PLL is still unlocked at 400 µs and the standby PLL is switched in. -/
def execDckPllRelockTimeout (p : Fin 4) (s : State) : Answer :=
  .next (dckTimeout p.val s)

/-- DCK_PLL_RECOVER (R320): the channels exit self-refresh, reissue reads, replay their writes and return to RUN. -/
def execDckPllRecover (p : Fin 4) (fail : List (Nat × Nat)) (s : State) : Answer :=
  .next (dckRecover p.val fail s)

/-- MCK_PLL_LOSS (R380): the MCK PLL loses lock and MCK returns to the fast oscillator. -/
def execMckPllLoss (s : State) : Answer :=
  .next (mckLoss s)

/-- IDLE_ENTRY (R372): no host request for IDLE_DLY ns and the stack enters IDLE. -/
def execIdleEntry (s : State) : Answer :=
  .next (idleEntry s)

/-- IDLE_EXIT (R372): a VC0 packet is delivered and the stack leaves IDLE. -/
def execIdleExit (s : State) : Answer :=
  .next (idleExit s)

/-- ENTRY_DRAIN_END (R374): the entry drain ends, refusers are rechecked, and the entry is aborted or committed. -/
def execEntryDrainEnd (s : State) : Answer :=
  .next (entryDrainEnd s)

/-- SEQUENCER_ENTRY (R375): after WFI, the always-on sequencer completes the entry to SLEEP, DEEP SLEEP or OFF. -/
def execSequencerEntry (s : State) : Answer :=
  .next (sequencerEntry s)

/-- SLEEP_EXIT (R378): a wake source ends SLEEP and the stack returns to RUN within 20 µs. -/
def execSleepExit (fail : List (Nat × Nat)) (s : State) : Answer :=
  .next (sleepExit fail s)

/-- DEEP_SLEEP_EXIT (R379): main power returns with a cause, retained fields are restored and the link retrains. -/
def execDeepSleepExit (fail : List (Nat × Nat)) (peak : BitVec 10) (codes : List Nat) (s : State) : Answer :=
  .next (deepExit fail peak.toNat codes s)

/-- SERVICE_DOORBELL_WAKE (R377): a service mailbox doorbell in SLEEP wakes the stack. -/
def execServiceDoorbellWake (s : State) : Answer :=
  .next (wakeCause 2 s)

/-- WATCHDOG_EXPIRY (R268): a core's watchdog expires and a core fault is taken. -/
def execWatchdogExpiry (s : State) : Answer :=
  .next (watchdogExpiry true (watchdogExpiry false s))

/-- COX_FAULT (R268): a core fault resets the standby, or starts a takeover or restart of the active core. -/
def execCoxFault (coxB : Bool) (cause : Fin 4) (s : State) : Answer :=
  .next (coreFault coxB cause.val s)

/-- STANDBY_RELOAD_DONE (R269): the former core reloads the running boathouse and enters STANDBY. -/
def execStandbyReloadDone (ok : Bool) (s : State) : Answer :=
  .next (standbyReload ok s)

/-- TRIAL_END (R272): the trial period ends, BOOT_SLOT names the new boathouse and the standby reloads. -/
def execTrialEnd (s : State) : Answer :=
  .next (trialEnd s)

/-- LEASE_EXPIRY (R278): a lease expires 100 ms after its last renewal and source 259 is raised. -/
def execLeaseExpiry (s : State) : Answer :=
  .next ((List.range 5).foldl (fun t i => leaseExpiry i t) s)

end Sys2Proof.Machine
end

