-- ==== Sys2Proof/Machine/ExecRegister.lean ====
section
/-! DEFINITION. Commands that are a register access, and what follows from them (ch. 13 and the registers' chapters). One meaning for each row, over the operations of the units. -/

namespace Sys2Proof.Machine

/-- REGISTER_WRITE (R291): a write to a register with no behaviour of its own is checked and applied whole or not at all. -/
def execRegisterWrite (who : Fin 18) (off : BitVec 24) (v : Word) (s : State) : Answer :=
  .next (registerWrite who.val off.toNat v.toNat s)

/-- PERSISTENT_WRITE_COMMIT (R301): the MRAM write of an RWP or RWPL field completes and the register takes its new value. -/
def execPersistentWriteCommit (torn : Bool) (s : State) : Answer :=
  .next (flushVc2 (persistentCommit torn s))

/-- RETRAIN (R34): a write of RETRAIN sends a group to DETECT. -/
def execRetrain (who : Fin 18) (g : Fin 16) (v : Word) (s : State) : Answer :=
  .next (retrainWrite who.val g.val v.toNat s)

/-- TEST_MODE_SET (R34): a write of TEST = 1 withdraws a group from service into TEST. -/
def execTestModeSet (who : Fin 18) (g : Fin 16) (v : Word) (s : State) : Answer :=
  .next (testSet who.val g.val v.toNat s)

/-- TEST_MODE_CLEAR (R34): a write of TEST = 0 returns the group to DETECT. -/
def execTestModeClear (who : Fin 18) (g : Fin 16) (v : Word) (s : State) : Answer :=
  .next (testClear who.val g.val v.toNat s)

/-- INJ_GO (R46): lane error injection starts. -/
def execInjGo (who : Fin 18) (g : Fin 16) (v : Word) (s : State) : Answer :=
  .next (injGo who.val g.val v.toNat s)

/-- CHK_EN_WRITE (R45): a user test takes the lane checker, or is refused with RESOURCE. -/
def execChkEnWrite (who : Fin 18) (g : Fin 16) (l : Fin 17) (v : Word) (s : State) : Answer :=
  .next (chkEnWrite who.val g.val l.val v.toNat s)

/-- ERRORS_READ (R293): a read of the lane ERRORS counter returns and clears it. -/
def execErrorsRead (who : Fin 18) (g : Fin 16) (l : Fin 17) (s : State) : Answer :=
  .next (errorsRead who.val g.val l.val s)

/-- TURN_GO (R74): a write of TURN_GO sends a TURN request. -/
def execTurnGo (who : Fin 18) (v : Word) (s : State) : Answer :=
  .next (turnGo who.val v.toNat s)

/-- HLL_CNT_CLR (R79): every HLL counter is cleared. -/
def execHllCntClr (who : Fin 18) (v : Word) (s : State) : Answer :=
  .next (hllCntClr who.val v.toNat s)

/-- PURGE (R133): a write of PURGE starts a purge that removes a domain's unissued requests with TIMEOUT. -/
def execPurge (who : Fin 18) (d : Fin 16) (v : Word) (s : State) : Answer :=
  .next (purgeWrite who.val d.val v.toNat s)

/-- PURGE_DONE (R133): a domain's last request-buffer entry leaves and PURGE_BUSY clears. -/
def execPurgeDone (s : State) : Answer :=
  .next ((List.range 16).foldl (fun t d => purgeDone d t) s)

/-- REGION_WRITE (R119): a write to a region entry is checked for enable, overlap and range. -/
def execRegionWrite (second : Bool) (who : Fin 18) (n : Fin 64) (v : Word) (s : State) : Answer :=
  .next (regionWrite second who.val n.val v.toNat s)

/-- RQE_CNT_CLR (R136): every RQE counter is cleared. -/
def execRqeCntClr (who : Fin 18) (v : Word) (s : State) : Answer :=
  .next (rqeCntClr who.val v.toNat s)

/-- CTX_READ (R139): a context is copied into the master's window. -/
def execCtxRead (who : Fin 18) (v : Word) (s : State) : Answer :=
  .next (ctxReadGo who.val v.toNat s)

/-- CTX_WRITE (R140): the window value is checked and written into a context. -/
def execCtxWrite (who : Fin 18) (v : Word) (s : State) : Answer :=
  .next (ctxWriteGo who.val v.toNat s)

/-- COUNTER_SNAPSHOT (R151): a write of CIDX copies a REG counter into the master's window. -/
def execCounterSnapshot (who : Fin 18) (v : Word) (s : State) : Answer :=
  .next (counterSnapshot who.val v.toNat s)

/-- WATCH_SELECT (R152): a write of REG_WSEL sets a watch selector and clears its counters. -/
def execWatchSelect (who : Fin 18) (v : Word) (s : State) : Answer :=
  .next (watchSelect who.val v.toNat s)

/-- BOW_RANGE_WRITE (R138): a domain's bow range is changed and contexts reset. -/
def execBowRangeWrite (second : Bool) (who : Fin 18) (d : Fin 16) (v : Word) (s : State) : Answer :=
  .next (bowRangeWrite second who.val d.val v.toNat s)

/-- RESERVATION_WRITE (R148): a reservation entry write is checked and grants are reset. -/
def execReservationWrite (who : Fin 18) (n : Fin 64) (v : Word) (s : State) : Answer :=
  .next (reservationWrite who.val n.val v.toNat s)

/-- REG_CNT_CLR (R154): every REG counter is cleared. -/
def execRegCntClr (who : Fin 18) (v : Word) (s : State) : Answer :=
  .next (regCntClr who.val v.toNat s)

/-- CLEAN (R166): a CLEAN operation is started on a slice. -/
def execClean (who : Fin 18) (sl : Fin 32) (v : Word) (s : State) : Answer :=
  .next (cleanWrite who.val sl.val v.toNat s)

/-- CLEAN_INV (R166): a CLEAN_INV operation is started on a slice. -/
def execCleanInv (who : Fin 18) (sl : Fin 32) (v : Word) (s : State) : Answer :=
  .next (cleanInvWrite who.val sl.val v.toNat s)

/-- WRITE_THROUGH_SET (R165): a write of WT = 1 starts a clean of the slice. -/
def execWriteThroughSet (who : Fin 18) (sl : Fin 32) (v : Word) (s : State) : Answer :=
  .next (writeThroughSet who.val sl.val v.toNat s)

/-- BYPASS_WRITE (R173): a write of BYPASS drains a slice into bypass or returns it to ON. -/
def execBypassWrite (who : Fin 18) (sl : Fin 32) (v : Word) (s : State) : Answer :=
  .next (bypassWrite who.val sl.val v.toNat s)

/-- WAY_DISABLE_WRITE (R172): a write of WAY_DIS retires a way. -/
def execWayDisableWrite (who : Fin 18) (sl : Fin 32) (v : Word) (s : State) : Answer :=
  .next (wayDisable who.val sl.val v.toNat s)

/-- SCC_CNT_CLR (R175): a slice's counters are cleared. -/
def execSccCntClr (who : Fin 18) (sl : Fin 32) (v : Word) (s : State) : Answer :=
  .next (sccCntClr who.val sl.val v.toNat s)

/-- CH_RST (R192): a write of CH_RST starts a hang reset. -/
def execChRst (who : Fin 18) (ch : Fin 32) (v : Word) (s : State) : Answer :=
  .next (chRst who.val ch.val v.toNat s)

/-- TRAIN_GO (R189): a channel retrains all ranks while refresh continues. -/
def execTrainGo (who : Fin 18) (ch : Fin 32) (v : Word) (s : State) : Answer :=
  .next (trainGo who.val ch.val v.toNat s)

/-- DMC_CNT_CLR (R197): a channel's counters are cleared. -/
def execDmcCntClr (who : Fin 18) (ch : Fin 32) (v : Word) (s : State) : Answer :=
  .next (dmcCntClr who.val ch.val v.toNat s)

/-- ST_THR_WRITE (R206): a new stroke threshold is sent to every die within 50 µs. -/
def execStThrWrite (who : Fin 18) (v : Word) (s : State) : Answer :=
  .next (stThrWrite who.val v.toNat s)

/-- RFM_CNT_CLR (R213): every RFM counter is cleared. -/
def execRfmCntClr (who : Fin 18) (v : Word) (s : State) : Answer :=
  .next (rfmCntClr who.val v.toNat s)

/-- INJ_ARM (R236): ECC error injection is armed for the next sector written. -/
def execInjArm (who : Fin 18) (v : Word) (s : State) : Answer :=
  .next (injArm who.val v.toNat s)

/-- POP (R234): the oldest DIP log record is removed. -/
def execPop (who : Fin 18) (v : Word) (s : State) : Answer :=
  .next (popWrite who.val v.toNat s)

/-- DIP_CNT_CLR (R238): every DIP counter is cleared. -/
def execDipCntClr (who : Fin 18) (v : Word) (s : State) : Answer :=
  .next (dipCntClr who.val v.toNat s)

/-- KILL (R245): a write of KILL declares a data line dead. -/
def execKill (who : Fin 18) (ch : Fin 32) (v : Word) (s : State) : Answer :=
  .next (killWrite who.val ch.val v.toNat s)

/-- RPR_GO (R251): a write of RPR_GO queues a row repair. -/
def execRprGo (who : Fin 18) (ch : Fin 32) (v : Word) (s : State) : Answer :=
  .next (rprGo who.val ch.val v.toNat s)

/-- FOLD_GO (R256): a write of FOLD_GO starts a fold. -/
def execFoldGo (who : Fin 18) (v : Word) (s : State) : Answer :=
  .next (foldGoWrite who.val v.toNat s)

/-- TSV_CNT_CLR (R260): a channel's TSV counters are cleared. -/
def execTsvCntClr (who : Fin 18) (ch : Fin 32) (v : Word) (s : State) : Answer :=
  .next (tsvCntClr who.val ch.val v.toNat s)

/-- TAKE (R271): a write of TAKE starts a planned takeover. -/
def execTake (who : Fin 18) (v : Word) (s : State) : Answer :=
  .next (takeWrite who.val v.toNat s)

/-- BEAT (R268): a core restarts its own watchdog. -/
def execBeat (coxB : Bool) (s : State) : Answer :=
  .next (beatWrite coxB s)

/-- DB_SEQ_WRITE (R275): a write of DB_SEQ rings the mailbox doorbell. -/
def execDbSeqWrite (who : Fin 18) (m : Fin 17) (v : Word) (s : State) : Answer :=
  .next (dbSeqWrite who.val m.val v.toNat s)

/-- MDATA_ACCESS (R276): a mailbox data-word access reads or writes a buffer and advances MOFS. -/
def execMdataAccess (who : Fin 18) (m : Fin 17) (wr : Bool) (v : Word) (s : State) : Answer :=
  .next (mdataAccess who.val m.val wr v.toNat s)

/-- WE_STACK_WRITE (R282): a write of WE_STACK sets or ends stack weigh-enough. -/
def execWeStackWrite (who : Fin 18) (v : Word) (s : State) : Answer :=
  .next (weStackWrite who.val v.toNat s)

/-- WRST (R358): a write of WRST starts a warm reset 1 µs later. -/
def execWrst (who : Fin 18) (v : Word) (s : State) : Answer :=
  .next (wrstWrite who.val v.toNat s)

/-- SCRATCH_HIGH_WRITE (R300): a high-word write applies the staged 64-bit scratch value. -/
def execScratchHighWrite (who : Fin 18) (v : Word) (s : State) : Answer :=
  .next (scratchHigh who.val v.toNat s)

/-- PLOCK_SET (R303): PLOCK bits are set and stored in MRAM. -/
def execPlockSet (who : Fin 18) (v : Word) (s : State) : Answer :=
  .next (plockSet who.val v.toNat s)

/-- PUNLOCK (R303): the authenticated service host clears PLOCK bits. -/
def execPunlock (who : Fin 18) (v : Word) (s : State) : Answer :=
  .next (punlock who.val v.toNat s)

/-- FCR_CNT_CLR (R322): the FCR loss, alert and drop counters are cleared. -/
def execFcrCntClr (who : Fin 18) (v : Word) (s : State) : Answer :=
  .next (fcrCntClr who.val v.toNat s)

/-- FF_CLR (R316): the first-fault record is cleared. -/
def execFfClr (who : Fin 18) (v : Word) (s : State) : Answer :=
  .next (ffClrWrite who.val v.toNat s)

/-- RAISE_GO (R309): a test raise of a source is made. -/
def execRaiseGo (who : Fin 18) (v : Word) (s : State) : Answer :=
  .next (raiseGoWrite who.val v.toNat s)

/-- ALERT_CLEAR (R312): a write of 1 clears the alert latch. -/
def execAlertClear (who : Fin 18) (v : Word) (s : State) : Answer :=
  .next (alertClear who.val v.toNat s)

/-- CAL_GO (R346): a write of CAL_GO starts a calibration run. -/
def execCalGo (who : Fin 18) (v : Word) (s : State) : Answer :=
  .next (calGoWrite who.val v.toNat s)

/-- CALIBRATION_RUN_END (R348): a calibration run ends, applies plausible codes and writes the store. -/
def execCalibrationRunEnd (res : BitVec 14) (codes : List Nat) (good : BitVec 5) (held : BitVec 16) (s : State) : Answer :=
  .next (calibrationRunEnd res.toNat codes good.toNat held.toNat s)

/-- PERIODIC_CALIBRATION (R346): every CAL_PER hours, a run of PER_MASK items starts. -/
def execPeriodicCalibration (s : State) : Answer :=
  .next (periodicCal s)

/-- MODE_WRITE (R374): the firmware writes MODE after the commit point and executes WFI. -/
def execModeWrite (who : Fin 18) (v : Word) (s : State) : Answer :=
  .next (modeWriteReg who.val v.toNat s)

/-- MCK_SEL_WRITE (R380): MCK is moved to its PLL. -/
def execMckSelWrite (who : Fin 18) (v : Word) (s : State) : Answer :=
  .next (mckSelWrite who.val v.toNat s)

/-- NOSLEEP_WRITE (R376): a domain's no-sleep vote is written. -/
def execNosleepWrite (who : Fin 18) (d : Fin 16) (v : Word) (s : State) : Answer :=
  .next (nosleepWrite who.val d.val v.toNat s)

/-- PCK_CNT_CLR (R390): refusal counters and the refusal log are cleared. -/
def execPckCntClr (who : Fin 18) (v : Word) (s : State) : Answer :=
  .next (pckCntClr who.val v.toNat s)

/-- THM_CNT_CLR (R404): THR_MS and every TMAX are cleared. -/
def execThmCntClr (who : Fin 18) (v : Word) (s : State) : Answer :=
  .next (thmCntClr who.val v.toNat s)

/-- SVC_EN_WRITE (R442): SVC_EN takes the service link down or lets it up. -/
def execSvcEnWrite (who : Fin 18) (v : Word) (s : State) : Answer :=
  .next (svcEnWrite who.val v.toNat s)

/-- DEAUTH (R435): service authentication is ended. -/
def execDeauth (who : Fin 18) (v : Word) (s : State) : Answer :=
  .next (deauthWrite who.val v.toNat s)

/-- DRN_GO (R438): a drain or fill transfer starts. -/
def execDrnGo (who : Fin 18) (v : Word) (s : State) : Answer :=
  .next (drnGoWrite who.val v.toNat s)

/-- DRN_ABORT (R441): the transfer stops at a block boundary with STATE. -/
def execDrnAbort (who : Fin 18) (v : Word) (s : State) : Answer :=
  .next (drnAbortWrite who.val v.toNat s)

end Sys2Proof.Machine
end

