-- ==== Sys2Proof/Machine/ExecRequest.lean ====
section
/-! DEFINITION. Commands of requests, completions and the cache (ch. 4 to 7). One meaning for each row, over the operations of the units. -/

namespace Sys2Proof.Machine

/-- RD (R115): a read request is checked, admitted and queued, or rejected or made to wait. -/
def execRd (h : ReqHdr) (len : Fin 4) (na md : Bool) (s : State) : Answer :=
  .next (arriveVc0 h.grp.val { vc0Head h 0x00 with len := len.val, na := na, md := md } s)

/-- WR (R90): a write request is admitted into the write data buffer and acknowledged. -/
def execWr (h : ReqHdr) (len : Fin 4) (na md : Bool) (mdx data : List Byte) (s : State) : Answer :=
  .next (arriveVc0 h.grp.val { vc0Head h 0x10 with len := len.val, na := na, md := md, mdx := mdx, data := data } s)

/-- WRP (R91): a masked partial write is admitted and merged into its sector. -/
def execWrp (h : ReqHdr) (mask : BitVec 64) (data : List Byte) (s : State) : Answer :=
  .next (arriveVc0 h.grp.val { vc0Head h 0x11 with mask := mask.toNat, data := data } s)

/-- AFADD (R92): an atomic fetch-and-add is admitted and executed in the channel's read-modify-write unit. -/
def execAfadd (h : ReqHdr) (wsel : Fin 8) (opnd : BitVec 64) (s : State) : Answer :=
  .next (arriveVc0 h.grp.val { vc0Head h 0x20 with wsel := wsel.val, opnd := opnd.toNat } s)

/-- ASWAP (R92): an atomic swap is admitted and executed. -/
def execAswap (h : ReqHdr) (wsel : Fin 8) (opnd : BitVec 64) (s : State) : Answer :=
  .next (arriveVc0 h.grp.val { vc0Head h 0x21 with wsel := wsel.val, opnd := opnd.toNat } s)

/-- ACAS (R92): an atomic compare-and-swap is admitted and executed. -/
def execAcas (h : ReqHdr) (wsel : Fin 8) (opnd swapv : BitVec 64) (s : State) : Answer :=
  .next (arriveVc0 h.grp.val { vc0Head h 0x22 with wsel := wsel.val, opnd := opnd.toNat, swapv := swapv.toNat } s)

/-- AAND (R92): an atomic AND is admitted and executed. -/
def execAand (h : ReqHdr) (wsel : Fin 8) (opnd : BitVec 64) (s : State) : Answer :=
  .next (arriveVc0 h.grp.val { vc0Head h 0x23 with wsel := wsel.val, opnd := opnd.toNat } s)

/-- AOR (R92): an atomic OR is admitted and executed. -/
def execAor (h : ReqHdr) (wsel : Fin 8) (opnd : BitVec 64) (s : State) : Answer :=
  .next (arriveVc0 h.grp.val { vc0Head h 0x24 with wsel := wsel.val, opnd := opnd.toNat } s)

/-- FLUSH (R93): a FLUSH is admitted to the range engine, which cleans, and optionally invalidates, its range. -/
def execFlush (h : ReqHdr) (inv : Bool) (rcnt : BitVec 24) (s : State) : Answer :=
  .next (arriveVc0 h.grp.val { vc0Head h 0x30 with opf := inv, rcnt := rcnt.toNat } s)

/-- ZERO (R94): a ZERO is admitted to the range engine, which zeroes its range. -/
def execZero (h : ReqHdr) (rcnt : BitVec 24) (s : State) : Answer :=
  .next (arriveVc0 h.grp.val { vc0Head h 0x31 with rcnt := rcnt.toNat } s)

/-- FENCE (R111): a FENCE is admitted and holds the later requests it covers until the earlier ones are performed. -/
def execFence (h : ReqHdr) (all : Bool) (s : State) : Answer :=
  .next (arriveVc0 h.grp.val { vc0Head h 0x32 with ord := false, addr := 0, opf := all } s)

/-- RESERVED_VC0_OPCODE (R82): a reserved VC0 opcode is framed by its table length and answered with CPL BAD_OPCODE. -/
def execReservedVc0Opcode (h : ReqHdr) (opc : Fin 64) (len : Fin 4) (s : State) : Answer :=
  .next (reservedVc0 h opc.val len.val s)

/-- WAITING_PACKET_ADMIT (R117): room frees for a packet waiting at its group head, and the packet is admitted. -/
def execWaitingPacketAdmit (g : Fin 16) (s : State) : Answer :=
  .next (settle (takeWaiting (SMap.getD s.rqe.waiting g.val []).length s g.val))

/-- REQUEST_ISSUE (R130): a request whose hazard, ORD and FENCE waits have cleared is issued to SCC or DMC. -/
def execRequestIssue (id : Nat) (outs : List Nat) (s : State) : Answer :=
  .next (issue id outs s)

/-- URGENCY_RECOMPUTE (R144): every 16 FAB cycles, REG recomputes the urgency step of every queued request. -/
def execUrgencyRecompute (s : State) : Answer :=
  .next (urgencyRecompute s)

/-- RESERVATION_WINDOW (R145): a 1 µs window begins, resetting reservation byte counts and the throttle-meter count. -/
def execReservationWindow (s : State) : Answer :=
  .next (reservationWindow s)

/-- BANK_SCHEDULE (R179): in each DCK cycle the controller picks a request or refresh per bank and issues the allowed commands. -/
def execBankSchedule (ch : Fin 32) (s : State) : Answer :=
  .next (bankSchedule ch.val s)

/-- BG_PROMOTE_EXPIRY (R179): a background request has waited BG_PROMOTE µs and is promoted to band 4. -/
def execBgPromoteExpiry (s : State) : Answer :=
  .next (channels.foldl (fun t c => bgPromote c t) s)

/-- POWER_DOWN_ENTRY (R188): a rank idle for PD_IDLE cycles, with no refresh due, receives PREA and PDE. -/
def execPowerDownEntry (ch : Fin 32) (rank : Fin 4) (s : State) : Answer :=
  .next (powerDownEntry ch.val rank.val s)

/-- POWER_DOWN_EXIT (R188): a request or due refresh for a rank in PPD makes it exit with PDX. -/
def execPowerDownExit (ch : Fin 32) (rank : Fin 4) (s : State) : Answer :=
  .next (powerDownExit ch.val rank.val s)

/-- READ_DATA_RETURN (R219): read data return from DRAM, are decoded codeword by codeword, and the completion is assembled. -/
def execReadDataReturn (ch : Fin 32) (err : List Nat) (s : State) : Answer :=
  .next (readReturn ch.val err s)

/-- COMPLETION_PLACE (R98): a completion or WACK is placed in a flit and the request's buffer entries are released. -/
def execCompletionPlace (g : Fin 16) (n : Nat) (form : CplForm) (s : State) : Answer :=
  .next (completionPlace g.val n form s)

/-- CACHE_FILL_ARRIVE (R159): fill data arrive for a P sector, which becomes C, or I when the fill is uncorrectable. -/
def execCacheFillArrive (ch : Fin 32) (s : State) : Answer :=
  .next (fillArrive ch.val s)

/-- SLICE_READ_DECODE (R171): a sector read from the slice is decoded; corrected data are rewritten and uncorrectable sectors are invalidated or poisoned. -/
def execSliceReadDecode (sl : Fin 32) (set : BitVec 12) (way : Fin 16) (half : Fin 2) (out : Fin 3) (s : State) : Answer :=
  .next (sliceDecode sl.val set.toNat way.val half.val out.val s)

/-- SLICE_FAULT (R173): a slice fault criterion is met and the slice enters DRAIN and holds requests. -/
def execSliceFault (sl : Fin 32) (cause : Fin 5) (s : State) : Answer :=
  .next (sliceFaultEvent sl.val cause.val s)

/-- SLICE_DRAIN_COMPLETE (R173): the drain list of a slice empties and the slice enters BYPASS. -/
def execSliceDrainComplete (sl : Fin 32) (s : State) : Answer :=
  .next (drainComplete sl.val s)

/-- CROSSING_TRACK (R170): once per 1 µs the replica path moves a slice's crossing delay code by at most one step. -/
def execCrossingTrack (sl : Fin 32) (dclk drd dwr : Fin 3) (margin : BitVec 6) (s : State) : Answer :=
  .next (crossingTrack sl.val dclk.val drd.val dwr.val margin.toNat s)

/-- CACHE_OP_COMPLETE (R166): a slice clean or invalidate operation finishes its walk and OPS_BUSY clears. -/
def execCacheOpComplete (sl : Fin 32) (s : State) : Answer :=
  .next (opComplete sl.val s)

/-- VICTIM_WRITEBACK_DONE (R164): a victim-buffer sector's DRAM write completes and the line leaves the buffer. -/
def execVictimWritebackDone (sl : Fin 32) (s : State) : Answer :=
  .next (victimDone sl.val s)

/-- ATOMIC_PERFORM (R128): the read-modify-write unit reads, corrects, applies the atomic and writes the sector back. -/
def execAtomicPerform (id : Nat) (out : Fin 3) (err : List Nat) (s : State) : Answer :=
  .next (atomicPerform id out.val err s)

/-- MERGE_PERFORM (R225): a partial-write merge writes the whole sector with fresh check bits per Table 10.4. -/
def execMergePerform (id : Nat) (out : Fin 3) (err : List Nat) (s : State) : Answer :=
  .next (mergePerform id out.val err s)

/-- RANGE_WORK_DONE (R132): the range engine finishes a FLUSH or ZERO range and its completion is sent. -/
def execRangeWorkDone (id : Nat) (s : State) : Answer :=
  .next (rangeDone id s)

end Sys2Proof.Machine
end

