-- ==== Sys2Proof/Machine/ExecService.lean ====
section
/-! DEFINITION. Commands of the service port (ch. 21). One meaning for each row, over the operations of the units. -/

namespace Sys2Proof.Machine

/-- DRAIN_BLOCK (R437): a 4 KiB block is read and sent on the drain stream. -/
def execDrainBlock (s : State) : Answer :=
  .next (drainBlock s)

/-- FILL_BLOCK (R438): a received fill block is CRC-checked and written. -/
def execFillBlock (bytes : List Byte) (s : State) : Answer :=
  .next (fillBlock bytes s)

/-- MBX_FRAME (R431): a service MBX frame writes the service mailbox and rings its doorbell. -/
def execMbxFrame (stag : BitVec 16) (msg : List Byte) (s : State) : Answer :=
  .next (mbxFrame stag.toNat msg s)

/-- SVC_RREG_FRAME (R432): a service register-read frame is executed as WHO 16 and answered. -/
def execSvcRregFrame (stag : BitVec 16) (raddr : BitVec 32) (s : State) : Answer :=
  .next (svcRreg stag.toNat raddr.toNat s)

/-- SVC_WREG_FRAME (R432): a service register-write frame is executed as WHO 16 and answered. -/
def execSvcWregFrame (stag : BitVec 16) (raddr : BitVec 32) (data : Word) (s : State) : Answer :=
  .next (svcWreg stag.toNat raddr.toNat data.toNat s)

/-- FRAME_ERR (R430): a malformed or unknown frame is answered with FRAME_ERR. -/
def execFrameErr (raw : List Byte) (s : State) : Answer :=
  .next (frameArrive raw s)

/-- EVENT_COPY_SEND (R436): a queued event copy is sent on EP2 IN while authenticated. -/
def execEventCopySend (s : State) : Answer :=
  .next (copySend s)

/-- SERVICE_LINK_CHANGE (R428): the service USB4 link changes state, and source 285 is raised. -/
def execServiceLinkChange (v : Fin 5) (gen3 : Bool) (s : State) : Answer :=
  .next (linkChange v.val gen3 s)

/-- SERVICE_LINK_DOWN (R435): the service link drops, ending authentication and any transfer. -/
def execServiceLinkDown (s : State) : Answer :=
  .next (svcDown s)

end Sys2Proof.Machine
end

