-- ==== Sys2Proof/Machine/ExecStart.lean ====
section
/-! DEFINITION. Commands of the start (ch. 15, 17, 12). One meaning for each row, over the operations of the units. -/

namespace Sys2Proof.Machine

/-- COLD_BOOT (R352): main power arrives with no retained content, or VBKP returns, and the cold-boot sequence of Table 17.1 begins. -/
def execColdBoot (s : State) : Answer :=
  .next (coldBoot s)

/-- POWER_ON_RESET_RELEASE (R353): once main rails have been good for 1 ms and STK_REFCLK has been present for 100 µs, power-on reset is released and the fuse read begins. -/
def execPowerOnResetRelease (weakRows weakSpares : List Nat) (raised : BitVec 64) (testEn : Bool) (weak gone : List Nat) (s : State) : Answer :=
  .next (powerOnRelease weakRows weakSpares raised.toNat testEn weak gone s)

/-- BIST_BLOCK_END (R357): a BIST block finishes; a failing block is rerun if time allows, otherwise its failure is recorded and source 277 is raised. -/
def execBistBlockEnd (blk : Fin 5) (pass : Bool) (dur : BitVec 12) (covSa covTr : BitVec 10) (elem : BitVec 24) (fails : List (Nat × Nat × Nat)) (s : State) : Answer :=
  .next (bistBlockEnd blk.val pass dur.toNat covSa.toNat covTr.toNat elem.toNat fails s)

/-- DRAM_TIER_READY (R354): a DRAM tier reports that its internal initialisation is complete, or the 26 ms limit expires, and the next tier is released from reset. -/
def execDramTierReady (silent : BitVec 16) (s : State) : Answer :=
  .next (dramTierReady silent.toNat s)

/-- RANK_TRAINING_END (R190): a rank's training step ends; a step that found no passing setting is retried, and a channel whose rank fails its third attempt is left untrained. -/
def execRankTrainingEnd (ch : Fin 32) (pass : Bool) (code vref : BitVec 6) (dead : BitVec 84) (lines : List Nat) (s : State) : Answer :=
  .next (rankTrainingEnd ch.val pass code.toNat vref.toNat dead.toNat lines s)

/-- INIT_FILL_END (R231): the initialisation fill of DRAM, cache die and arrays completes and the verify pass begins. -/
def execInitFillEnd (codes bad : List Nat) (fails : List FillFail) (s : State) : Answer :=
  .next (initFillEnd codes bad fails s)

/-- COX_BOOT (R264): the Cox cores leave reset into the boot ROM, load and verify a boathouse, and become active or standby. -/
def execCoxBoot (okA okB : Bool) (s : State) : Answer :=
  .next (coxBoot okA okB s)

/-- COX_A_BOOT_TIMEOUT (R264): cox A fails its TCM self-check or takes no image within 25 ms, and Cox B boots and becomes active instead. -/
def execCoxABootTimeout (okA okB : Bool) (s : State) : Answer :=
  .next (coxATimeout okA okB s)

end Sys2Proof.Machine
end

