-- ==== Sys2Proof/Machine/ExecUnits.lean ====
section
/-! DEFINITION. Commands of VC2 packets, mailbox doorbells, events, stores and sensors (ch. 4, 12, 14, 15, 19). One meaning for each row, over the operations of the units. -/

namespace Sys2Proof.Machine

/-- RREG (R102): a register read packet is executed and answered with RCPL. -/
def execRreg (g dom : Fin 16) (rtag : BitVec 16) (raddr : BitVec 24) (s : State) : Answer :=
  .next (arriveVc2 g.val (regPacket 0x50 dom.val rtag.toNat raddr.toNat) s)

/-- WREG (R102): a register write packet is executed and answered with WCPL. -/
def execWreg (g dom : Fin 16) (rtag : BitVec 16) (raddr : BitVec 24) (data : BitVec 32) (s : State) : Answer :=
  .next (arriveVc2 g.val (regPacket 0x51 dom.val rtag.toNat raddr.toNat ++ leBytes 4 data.toNat) s)

/-- RESERVED_VC2_OPCODE (R82): a reserved VC2 opcode is consumed and BAD_OPCODE is recorded in Last Access Status. -/
def execReservedVc2Opcode (g : Fin 16) (opc : BitVec 8) (dom : Fin 16) (s : State) : Answer :=
  .next (reservedVc2Packet g.val opc.toNat dom.val s)

/-- MBX_WR (R103): a mailbox write packet writes the command buffer and is answered with MBX_ACK. -/
def execMbxWr (g dom : Fin 16) (moff : BitVec 12) (mtag mlen : BitVec 8) (data : List Byte) (s : State) : Answer :=
  .next (arriveVc2 g.val (mbxPacket 0x62 dom.val moff.toNat mlen.toNat mtag.toNat ++ data) s)

/-- MBX_RD (R103): a mailbox read packet reads the response buffer and is answered with MBX_RDATA. -/
def execMbxRd (g dom : Fin 16) (moff : BitVec 12) (mtag mlen : BitVec 8) (s : State) : Answer :=
  .next (arriveVc2 g.val (mbxPacket 0x63 dom.val moff.toNat mlen.toNat mtag.toNat) s)

/-- MBX_DB (R275): a doorbell packet rings the mailbox with its SEQ. -/
def execMbxDb (g dom : Fin 16) (seq : BitVec 16) (s : State) : Answer :=
  .next (arriveVc2 g.val (mbxPacket 0x60 dom.val seq.toNat 0 0) s)

/-- MAILBOX_DOORBELL (R275): a doorbell is judged against the mailbox state and the command is taken, refused or ignored. -/
def execMailboxDoorbell (m : Fin 17) (seq : BitVec 16) (s : State) : Answer :=
  .next (doorbellRing m.val seq.toNat s)

/-- RESPONSE_POST (R275): the firmware posts a response, the mailbox becomes READY and MBX_RDY is sent. -/
def execResponsePost (m : Fin 17) (s : State) : Answer :=
  .next (responsePost m.val s)

/-- PM_ACK (R106): the partner's answer to PM_REQ is received. -/
def execPmAck (g : Fin 16) (preq : BitVec 8) (pseq : BitVec 16) (res : BitVec 8) (s : State) : Answer :=
  .next (arriveVc2 g.val (pmPacket preq.toNat pseq.toNat res.toNat) s)

/-- PM_ACK_TIMEOUT (R106): no PM_ACK arrives within 10 µs and the entry is refused as the partner declining. -/
def execPmAckTimeout (s : State) : Answer :=
  .next (pmTimeout s)

/-- EVT_SEND (R311): a queued EVT is placed in a flit to its domain under VC2 credit. -/
def execEvtSend (d : Fin 16) (s : State) : Answer :=
  .next (evtSend d.val s)

/-- EVENT_RAISE (R309): FCR latches a raise and applies domain packets, alert, service copy, log, action and capture. -/
def execEventRaise (src : Fin 287) (sev : Fin 5) (syn : List Word) (s : State) : Answer :=
  .next (eventRaise src.val (sevOf sev.val) (syn.map (·.toNat)) s)

/-- EASY_PERIOD_END (R317): the easy period ends with no FAULT raise, XSTATE returns to OK and source 278 is raised. -/
def execEasyPeriodEnd (s : State) : Answer :=
  .next (easyEnd s)

/-- LOG_RECORD_WRITE (R314): a queued fault-log record is written to both ring copies through the MRAM port. -/
def execLogRecordWrite (s : State) : Answer :=
  .next (logWrite s)

/-- LOG_TOKEN_REFILL (R315): the log rate budget refills by LOG_RATE tokens per second. -/
def execLogTokenRefill (s : State) : Answer :=
  .next (tokenRefill s)

/-- MRAM_WORD_WRITE_DONE (R324): an MRAM word write and verify completes, and the port is arbitrated for the next word. -/
def execMramWordWriteDone (torn : Bool) (s : State) : Answer :=
  .next (flushVc2 (wordEnd torn s))

/-- LIFETIME_SECOND (R326): the lifetime counter advances each second and stores word 0 once per hour. -/
def execLifetimeSecond (s : State) : Answer :=
  .next (lifetimeSecond s)

/-- SENSOR_CONVERSION (R392): each sensor is converted every 100 µs and invalid readings raise source 243. -/
def execSensorConversion (n : Fin 50) (raw : Int) (ok : Bool) (s : State) : Answer :=
  .next (sensorConversion n.val raw ok s)

/-- THROTTLE_COMPUTE (R394): every 1 ms, THM computes theta, checks the coolant and delivers theta to REG. -/
def execThrottleCompute (s : State) : Answer :=
  .next (throttleCompute s)

/-- MANAGED_SHUTDOWN (R396): a J or D sensor crosses its shutdown limit and the managed shutdown of Table 19.2 runs. -/
def execManagedShutdown (n : Fin 50) (s : State) : Answer :=
  .next (managedShutdown n.val s)

/-- HW_THERMAL_TRIP (R397): a reading at the hardware-only threshold asserts THERMTRIP# within 2 µs. -/
def execHwThermalTrip (n : Fin 50) (s : State) : Answer :=
  .next (hwThermalTrip n.val s)

/-- THERMTRIP_LATCH_CLEAR (R399): MAIN_GOOD low for 1 ms then rising with VBKP present clears the shutdown latch. -/
def execThermtripLatchClear (s : State) : Answer :=
  .next (thermtripLatchClear s)

end Sys2Proof.Machine
end

