-- ==== Sys2Proof/Machine/Dispatch.lean ====
section
/-! DEFINITION. The meaning of every command of the table: one arm for each constructor of Instr. -/

namespace Sys2Proof.Machine

/-- The effect of a command on everything but the queue. -/
def exec (i : Instr) (s : State) : Host.Outcome State Fault Refusal :=
  match i with
  | .coldBoot => Sys2Proof.Machine.execColdBoot s
  | .powerOnResetRelease weakRows weakSpares raised testEn weak gone => Sys2Proof.Machine.execPowerOnResetRelease weakRows weakSpares raised testEn weak gone s
  | .bistBlockEnd blk pass dur covSa covTr elem fails => Sys2Proof.Machine.execBistBlockEnd blk pass dur covSa covTr elem fails s
  | .dramTierReady silent => Sys2Proof.Machine.execDramTierReady silent s
  | .rankTrainingEnd ch pass code vref dead lines => Sys2Proof.Machine.execRankTrainingEnd ch pass code vref dead lines s
  | .initFillEnd codes bad fails => Sys2Proof.Machine.execInitFillEnd codes bad fails s
  | .coxBoot okA okB => Sys2Proof.Machine.execCoxBoot okA okB s
  | .coxABootTimeout okA okB => Sys2Proof.Machine.execCoxABootTimeout okA okB s
  | .groupPowerUp g => Sys2Proof.Machine.execGroupPowerUp g s
  | .groupDetectEnd g sensed => Sys2Proof.Machine.execGroupDetectEnd g sensed s
  | .groupClockEnd g locked burst => Sys2Proof.Machine.execGroupClockEnd g locked burst s
  | .trainingSlotEnd g task => Sys2Proof.Machine.execTrainingSlotEnd g task s
  | .confirmWordAccept g word on => Sys2Proof.Machine.execConfirmWordAccept g word on s
  | .groupTrainFail g => Sys2Proof.Machine.execGroupTrainFail g s
  | .linkReady => Sys2Proof.Machine.execLinkReady s
  | .wholeLinkRetrain => Sys2Proof.Machine.execWholeLinkRetrain s
  | .quietEntry g => Sys2Proof.Machine.execQuietEntry g s
  | .keepAliveBurst g => Sys2Proof.Machine.execKeepAliveBurst g s
  | .wakePreambleReceive g => Sys2Proof.Machine.execWakePreambleReceive g s
  | .deepWakeDetect => Sys2Proof.Machine.execDeepWakeDetect s
  | .laneFailureDetect g found => Sys2Proof.Machine.execLaneFailureDetect g found s
  | .hlRefclkLoss => Sys2Proof.Machine.execHlRefclkLoss s
  | .hlRefclkReturn => Sys2Proof.Machine.execHlRefclkReturn s
  | .groupPllLoss g => Sys2Proof.Machine.execGroupPllLoss g s
  | .flitReceive g raw => Sys2Proof.Machine.execFlitReceive g raw s
  | .nakRepeatTimeout g => Sys2Proof.Machine.execNakRepeatTimeout g s
  | .statusSend => Sys2Proof.Machine.execStatusSend s
  | .status g mask acks vc1 vc2 => Sys2Proof.Machine.execStatus g mask acks vc1 vc2 s
  | .nak g n exp => Sys2Proof.Machine.execNak g n exp s
  | .config g vc1 vc2 => Sys2Proof.Machine.execConfig g vc1 vc2 s
  | .configSend => Sys2Proof.Machine.execConfigSend s
  | .groupSpareItem g n exp l => Sys2Proof.Machine.execGroupSpareItem g n exp l s
  | .groupSpareDeadItem g n l => Sys2Proof.Machine.execGroupSpareDeadItem g n l s
  | .groupLostItem g n last => Sys2Proof.Machine.execGroupLostItem g n last s
  | .groupLostReqItem g n => Sys2Proof.Machine.execGroupLostReqItem g n s
  | .ackTimeout g => Sys2Proof.Machine.execAckTimeout g s
  | .groupLoss g cause => Sys2Proof.Machine.execGroupLoss g cause s
  | .lostReqTimeout => Sys2Proof.Machine.execLostReqTimeout s
  | .turn g tgrp tdir tseq => Sys2Proof.Machine.execTurn g tgrp tdir tseq s
  | .turnAck g tgrp tdir tseq res => Sys2Proof.Machine.execTurnAck g tgrp tdir tseq res s
  | .turnAckTimeout => Sys2Proof.Machine.execTurnAckTimeout s
  | .turnLastAccept => Sys2Proof.Machine.execTurnLastAccept s
  | .turnSquelchDetect => Sys2Proof.Machine.execTurnSquelchDetect s
  | .turnTimeout => Sys2Proof.Machine.execTurnTimeout s
  | .rd h len na md => Sys2Proof.Machine.execRd h len na md s
  | .wr h len na md mdx data => Sys2Proof.Machine.execWr h len na md mdx data s
  | .wrp h mask data => Sys2Proof.Machine.execWrp h mask data s
  | .afadd h wsel opnd => Sys2Proof.Machine.execAfadd h wsel opnd s
  | .aswap h wsel opnd => Sys2Proof.Machine.execAswap h wsel opnd s
  | .acas h wsel opnd swapv => Sys2Proof.Machine.execAcas h wsel opnd swapv s
  | .aand h wsel opnd => Sys2Proof.Machine.execAand h wsel opnd s
  | .aor h wsel opnd => Sys2Proof.Machine.execAor h wsel opnd s
  | .flush h inv rcnt => Sys2Proof.Machine.execFlush h inv rcnt s
  | .zero h rcnt => Sys2Proof.Machine.execZero h rcnt s
  | .fence h all => Sys2Proof.Machine.execFence h all s
  | .reservedVc0Opcode h opc len => Sys2Proof.Machine.execReservedVc0Opcode h opc len s
  | .waitingPacketAdmit g => Sys2Proof.Machine.execWaitingPacketAdmit g s
  | .requestIssue id outs => Sys2Proof.Machine.execRequestIssue id outs s
  | .urgencyRecompute => Sys2Proof.Machine.execUrgencyRecompute s
  | .reservationWindow => Sys2Proof.Machine.execReservationWindow s
  | .bankSchedule ch => Sys2Proof.Machine.execBankSchedule ch s
  | .bgPromoteExpiry => Sys2Proof.Machine.execBgPromoteExpiry s
  | .powerDownEntry ch rank => Sys2Proof.Machine.execPowerDownEntry ch rank s
  | .powerDownExit ch rank => Sys2Proof.Machine.execPowerDownExit ch rank s
  | .readDataReturn ch err => Sys2Proof.Machine.execReadDataReturn ch err s
  | .completionPlace g n form => Sys2Proof.Machine.execCompletionPlace g n form s
  | .cacheFillArrive ch => Sys2Proof.Machine.execCacheFillArrive ch s
  | .sliceReadDecode sl set way half out => Sys2Proof.Machine.execSliceReadDecode sl set way half out s
  | .sliceFault sl cause => Sys2Proof.Machine.execSliceFault sl cause s
  | .sliceDrainComplete sl => Sys2Proof.Machine.execSliceDrainComplete sl s
  | .crossingTrack sl dclk drd dwr margin => Sys2Proof.Machine.execCrossingTrack sl dclk drd dwr margin s
  | .cacheOpComplete sl => Sys2Proof.Machine.execCacheOpComplete sl s
  | .victimWritebackDone sl => Sys2Proof.Machine.execVictimWritebackDone sl s
  | .atomicPerform id out err => Sys2Proof.Machine.execAtomicPerform id out err s
  | .mergePerform id out err => Sys2Proof.Machine.execMergePerform id out err s
  | .rangeWorkDone id => Sys2Proof.Machine.execRangeWorkDone id s
  | .refreshTick ch bank => Sys2Proof.Machine.execRefreshTick ch bank s
  | .dieTempReading missing => Sys2Proof.Machine.execDieTempReading missing s
  | .rowClose ch word => Sys2Proof.Machine.execRowClose ch word s
  | .reportBurstReceive ch rank err => Sys2Proof.Machine.execReportBurstReceive ch rank err s
  | .backlogTimeout => Sys2Proof.Machine.execBacklogTimeout s
  | .victimRefreshDone ch bank => Sys2Proof.Machine.execVictimRefreshDone ch bank s
  | .hangDetect ch stateCheck => Sys2Proof.Machine.execHangDetect ch stateCheck s
  | .hangResetComplete ch => Sys2Proof.Machine.execHangResetComplete ch s
  | .scrubStep ch err => Sys2Proof.Machine.execScrubStep ch err s
  | .scrubWriteback ch err => Sys2Proof.Machine.execScrubWriteback ch err s
  | .cacheScrub target sl set way half out idx => Sys2Proof.Machine.execCacheScrub target sl set way half out idx s
  | .rollingCalStep ch => Sys2Proof.Machine.execRollingCalStep ch s
  | .stallCalStep ch pass rd wr => Sys2Proof.Machine.execStallCalStep ch pass rd wr s
  | .fastSwapIsolationEnd ch errors => Sys2Proof.Machine.execFastSwapIsolationEnd ch errors s
  | .parityAlert ch bad => Sys2Proof.Machine.execParityAlert ch bad s
  | .rowRepairStart => Sys2Proof.Machine.execRowRepairStart s
  | .rowRepairComplete ch => Sys2Proof.Machine.execRowRepairComplete ch s
  | .foldUnitMove => Sys2Proof.Machine.execFoldUnitMove s
  | .foldChunkEnd => Sys2Proof.Machine.execFoldChunkEnd s
  | .foldCleanEnd => Sys2Proof.Machine.execFoldCleanEnd s
  | .foldDone => Sys2Proof.Machine.execFoldDone s
  | .sRecompute => Sys2Proof.Machine.execSRecompute s
  | .bowContextResetDone d => Sys2Proof.Machine.execBowContextResetDone d s
  | .rreg g dom rtag raddr => Sys2Proof.Machine.execRreg g dom rtag raddr s
  | .wreg g dom rtag raddr data => Sys2Proof.Machine.execWreg g dom rtag raddr data s
  | .reservedVc2Opcode g opc dom => Sys2Proof.Machine.execReservedVc2Opcode g opc dom s
  | .mbxWr g dom moff mtag mlen data => Sys2Proof.Machine.execMbxWr g dom moff mtag mlen data s
  | .mbxRd g dom moff mtag mlen => Sys2Proof.Machine.execMbxRd g dom moff mtag mlen s
  | .mbxDb g dom seq => Sys2Proof.Machine.execMbxDb g dom seq s
  | .mailboxDoorbell m seq => Sys2Proof.Machine.execMailboxDoorbell m seq s
  | .responsePost m => Sys2Proof.Machine.execResponsePost m s
  | .pmAck g preq pseq res => Sys2Proof.Machine.execPmAck g preq pseq res s
  | .pmAckTimeout => Sys2Proof.Machine.execPmAckTimeout s
  | .evtSend d => Sys2Proof.Machine.execEvtSend d s
  | .eventRaise src sev syn => Sys2Proof.Machine.execEventRaise src sev syn s
  | .easyPeriodEnd => Sys2Proof.Machine.execEasyPeriodEnd s
  | .logRecordWrite => Sys2Proof.Machine.execLogRecordWrite s
  | .logTokenRefill => Sys2Proof.Machine.execLogTokenRefill s
  | .mramWordWriteDone torn => Sys2Proof.Machine.execMramWordWriteDone torn s
  | .lifetimeSecond => Sys2Proof.Machine.execLifetimeSecond s
  | .sensorConversion n raw ok => Sys2Proof.Machine.execSensorConversion n raw ok s
  | .throttleCompute => Sys2Proof.Machine.execThrottleCompute s
  | .managedShutdown n => Sys2Proof.Machine.execManagedShutdown n s
  | .hwThermalTrip n => Sys2Proof.Machine.execHwThermalTrip n s
  | .thermtripLatchClear => Sys2Proof.Machine.execThermtripLatchClear s
  | .stkResetAssert => Sys2Proof.Machine.execStkResetAssert s
  | .warmResetStretchEnd => Sys2Proof.Machine.execWarmResetStretchEnd s
  | .warmResetRelease fail => Sys2Proof.Machine.execWarmResetRelease fail s
  | .stkWakeRise => Sys2Proof.Machine.execStkWakeRise s
  | .pwrFailAssert => Sys2Proof.Machine.execPwrFailAssert s
  | .droopDetect => Sys2Proof.Machine.execDroopDetect s
  | .mainGoodFall => Sys2Proof.Machine.execMainGoodFall s
  | .mainGoodRise => Sys2Proof.Machine.execMainGoodRise s
  | .railLateFall => Sys2Proof.Machine.execRailLateFall s
  | .powerFailSwitchover => Sys2Proof.Machine.execPowerFailSwitchover s
  | .retentionEntryDone => Sys2Proof.Machine.execRetentionEntryDone s
  | .keelLoadCheck pass => Sys2Proof.Machine.execKeelLoadCheck pass s
  | .keelBrownout => Sys2Proof.Machine.execKeelBrownout s
  | .keelFault cause => Sys2Proof.Machine.execKeelFault cause s
  | .vbkpLow mv => Sys2Proof.Machine.execVbkpLow mv s
  | .vbkpCollapse => Sys2Proof.Machine.execVbkpCollapse s
  | .stkRefclkLoss => Sys2Proof.Machine.execStkRefclkLoss s
  | .stkRefclkReturn fail => Sys2Proof.Machine.execStkRefclkReturn fail s
  | .fabPllLoss => Sys2Proof.Machine.execFabPllLoss s
  | .fabPllResume bad => Sys2Proof.Machine.execFabPllResume bad s
  | .dckPllLoss p => Sys2Proof.Machine.execDckPllLoss p s
  | .dckPllRelockTimeout p => Sys2Proof.Machine.execDckPllRelockTimeout p s
  | .dckPllRecover p fail => Sys2Proof.Machine.execDckPllRecover p fail s
  | .mckPllLoss => Sys2Proof.Machine.execMckPllLoss s
  | .idleEntry => Sys2Proof.Machine.execIdleEntry s
  | .idleExit => Sys2Proof.Machine.execIdleExit s
  | .entryDrainEnd => Sys2Proof.Machine.execEntryDrainEnd s
  | .sequencerEntry => Sys2Proof.Machine.execSequencerEntry s
  | .sleepExit fail => Sys2Proof.Machine.execSleepExit fail s
  | .deepSleepExit fail peak codes => Sys2Proof.Machine.execDeepSleepExit fail peak codes s
  | .serviceDoorbellWake => Sys2Proof.Machine.execServiceDoorbellWake s
  | .watchdogExpiry => Sys2Proof.Machine.execWatchdogExpiry s
  | .coxFault coxB cause => Sys2Proof.Machine.execCoxFault coxB cause s
  | .standbyReloadDone ok => Sys2Proof.Machine.execStandbyReloadDone ok s
  | .trialEnd => Sys2Proof.Machine.execTrialEnd s
  | .leaseExpiry => Sys2Proof.Machine.execLeaseExpiry s
  | .sessionOpen m => Sys2Proof.Machine.execSessionOpen m s
  | .sessionClose m => Sys2Proof.Machine.execSessionClose m s
  | .leaseAcquire m => Sys2Proof.Machine.execLeaseAcquire m s
  | .leaseRenew m => Sys2Proof.Machine.execLeaseRenew m s
  | .leaseRelease m => Sys2Proof.Machine.execLeaseRelease m s
  | .getIdentity m => Sys2Proof.Machine.execGetIdentity m s
  | .spdmMsg m blobs => Sys2Proof.Machine.execSpdmMsg m blobs s
  | .svcAuthNonce m => Sys2Proof.Machine.execSvcAuthNonce m s
  | .svcAuthProve m ok => Sys2Proof.Machine.execSvcAuthProve m ok s
  | .nonceExpiry => Sys2Proof.Machine.execNonceExpiry s
  | .authLockEnd => Sys2Proof.Machine.execAuthLockEnd s
  | .cfgRegionSet m => Sys2Proof.Machine.execCfgRegionSet m s
  | .cfgRegionGet m => Sys2Proof.Machine.execCfgRegionGet m s
  | .cfgDomainSet m => Sys2Proof.Machine.execCfgDomainSet m s
  | .cfgDomainGet m => Sys2Proof.Machine.execCfgDomainGet m s
  | .cfgHashSet m => Sys2Proof.Machine.execCfgHashSet m s
  | .cfgPurge m => Sys2Proof.Machine.execCfgPurge m s
  | .cfgLinkSet m => Sys2Proof.Machine.execCfgLinkSet m s
  | .cfgTurn m => Sys2Proof.Machine.execCfgTurn m s
  | .regClassSet m => Sys2Proof.Machine.execRegClassSet m s
  | .regGlobalSet m => Sys2Proof.Machine.execRegGlobalSet m s
  | .regBowSet m => Sys2Proof.Machine.execRegBowSet m s
  | .regRsvSet m => Sys2Proof.Machine.execRegRsvSet m s
  | .regRsvFree m => Sys2Proof.Machine.execRegRsvFree m s
  | .regGet m => Sys2Proof.Machine.execRegGet m s
  | .cachePolicySet m => Sys2Proof.Machine.execCachePolicySet m s
  | .cacheOp m => Sys2Proof.Machine.execCacheOp m s
  | .cacheGet m => Sys2Proof.Machine.execCacheGet m s
  | .memRead m => Sys2Proof.Machine.execMemRead m s
  | .memWrite m => Sys2Proof.Machine.execMemWrite m s
  | .memZero m => Sys2Proof.Machine.execMemZero m s
  | .rprRow m => Sys2Proof.Machine.execRprRow m s
  | .rprGet m => Sys2Proof.Machine.execRprGet m s
  | .foldMode m => Sys2Proof.Machine.execFoldMode m s
  | .foldStart m => Sys2Proof.Machine.execFoldStart m s
  | .tsvKill m => Sys2Proof.Machine.execTsvKill m s
  | .rfmSet m => Sys2Proof.Machine.execRfmSet m s
  | .dipSet m => Sys2Proof.Machine.execDipSet m s
  | .dmcSet m => Sys2Proof.Machine.execDmcSet m s
  | .pwrEnter m => Sys2Proof.Machine.execPwrEnter m s
  | .pwrVote m => Sys2Proof.Machine.execPwrVote m s
  | .pwrGet m => Sys2Proof.Machine.execPwrGet m s
  | .thmSet m => Sys2Proof.Machine.execThmSet m s
  | .calRun m => Sys2Proof.Machine.execCalRun m s
  | .calGet m => Sys2Proof.Machine.execCalGet m s
  | .fwLoadBegin m => Sys2Proof.Machine.execFwLoadBegin m s
  | .fwLoad m => Sys2Proof.Machine.execFwLoad m s
  | .fwVerify m ok => Sys2Proof.Machine.execFwVerify m ok s
  | .fwActivate m out => Sys2Proof.Machine.execFwActivate m out s
  | .fwTakeover m => Sys2Proof.Machine.execFwTakeover m s
  | .fwSvnCommit m => Sys2Proof.Machine.execFwSvnCommit m s
  | .fwGet m => Sys2Proof.Machine.execFwGet m s
  | .fwSet m => Sys2Proof.Machine.execFwSet m s
  | .logRead m => Sys2Proof.Machine.execLogRead m s
  | .faultGet m => Sys2Proof.Machine.execFaultGet m s
  | .evtRouteSet m => Sys2Proof.Machine.execEvtRouteSet m s
  | .evtRouteGet m => Sys2Proof.Machine.execEvtRouteGet m s
  | .fcrSet m => Sys2Proof.Machine.execFcrSet m s
  | .weighEnough m => Sys2Proof.Machine.execWeighEnough m s
  | .resume m => Sys2Proof.Machine.execResume m s
  | .testLane m => Sys2Proof.Machine.execTestLane m s
  | .testEccInj m => Sys2Proof.Machine.execTestEccInj m s
  | .fuseReadCmd m => Sys2Proof.Machine.execFuseReadCmd m s
  | .fuseProgram m marginal => Sys2Proof.Machine.execFuseProgram m marginal s
  | .fuseLock m => Sys2Proof.Machine.execFuseLock m s
  | .fuseVerify m weak => Sys2Proof.Machine.execFuseVerify m weak s
  | .registerWrite who off v => Sys2Proof.Machine.execRegisterWrite who off v s
  | .persistentWriteCommit torn => Sys2Proof.Machine.execPersistentWriteCommit torn s
  | .retrain who g v => Sys2Proof.Machine.execRetrain who g v s
  | .testModeSet who g v => Sys2Proof.Machine.execTestModeSet who g v s
  | .testModeClear who g v => Sys2Proof.Machine.execTestModeClear who g v s
  | .injGo who g v => Sys2Proof.Machine.execInjGo who g v s
  | .chkEnWrite who g l v => Sys2Proof.Machine.execChkEnWrite who g l v s
  | .errorsRead who g l => Sys2Proof.Machine.execErrorsRead who g l s
  | .turnGo who v => Sys2Proof.Machine.execTurnGo who v s
  | .hllCntClr who v => Sys2Proof.Machine.execHllCntClr who v s
  | .purge who d v => Sys2Proof.Machine.execPurge who d v s
  | .purgeDone => Sys2Proof.Machine.execPurgeDone s
  | .regionWrite second who n v => Sys2Proof.Machine.execRegionWrite second who n v s
  | .rqeCntClr who v => Sys2Proof.Machine.execRqeCntClr who v s
  | .ctxRead who v => Sys2Proof.Machine.execCtxRead who v s
  | .ctxWrite who v => Sys2Proof.Machine.execCtxWrite who v s
  | .counterSnapshot who v => Sys2Proof.Machine.execCounterSnapshot who v s
  | .watchSelect who v => Sys2Proof.Machine.execWatchSelect who v s
  | .bowRangeWrite second who d v => Sys2Proof.Machine.execBowRangeWrite second who d v s
  | .reservationWrite who n v => Sys2Proof.Machine.execReservationWrite who n v s
  | .regCntClr who v => Sys2Proof.Machine.execRegCntClr who v s
  | .clean who sl v => Sys2Proof.Machine.execClean who sl v s
  | .cleanInv who sl v => Sys2Proof.Machine.execCleanInv who sl v s
  | .writeThroughSet who sl v => Sys2Proof.Machine.execWriteThroughSet who sl v s
  | .bypassWrite who sl v => Sys2Proof.Machine.execBypassWrite who sl v s
  | .wayDisableWrite who sl v => Sys2Proof.Machine.execWayDisableWrite who sl v s
  | .sccCntClr who sl v => Sys2Proof.Machine.execSccCntClr who sl v s
  | .chRst who ch v => Sys2Proof.Machine.execChRst who ch v s
  | .trainGo who ch v => Sys2Proof.Machine.execTrainGo who ch v s
  | .dmcCntClr who ch v => Sys2Proof.Machine.execDmcCntClr who ch v s
  | .stThrWrite who v => Sys2Proof.Machine.execStThrWrite who v s
  | .rfmCntClr who v => Sys2Proof.Machine.execRfmCntClr who v s
  | .injArm who v => Sys2Proof.Machine.execInjArm who v s
  | .pop who v => Sys2Proof.Machine.execPop who v s
  | .dipCntClr who v => Sys2Proof.Machine.execDipCntClr who v s
  | .kill who ch v => Sys2Proof.Machine.execKill who ch v s
  | .rprGo who ch v => Sys2Proof.Machine.execRprGo who ch v s
  | .foldGo who v => Sys2Proof.Machine.execFoldGo who v s
  | .tsvCntClr who ch v => Sys2Proof.Machine.execTsvCntClr who ch v s
  | .take who v => Sys2Proof.Machine.execTake who v s
  | .beat coxB => Sys2Proof.Machine.execBeat coxB s
  | .dbSeqWrite who m v => Sys2Proof.Machine.execDbSeqWrite who m v s
  | .mdataAccess who m wr v => Sys2Proof.Machine.execMdataAccess who m wr v s
  | .weStackWrite who v => Sys2Proof.Machine.execWeStackWrite who v s
  | .wrst who v => Sys2Proof.Machine.execWrst who v s
  | .scratchHighWrite who v => Sys2Proof.Machine.execScratchHighWrite who v s
  | .plockSet who v => Sys2Proof.Machine.execPlockSet who v s
  | .punlock who v => Sys2Proof.Machine.execPunlock who v s
  | .fcrCntClr who v => Sys2Proof.Machine.execFcrCntClr who v s
  | .ffClr who v => Sys2Proof.Machine.execFfClr who v s
  | .raiseGo who v => Sys2Proof.Machine.execRaiseGo who v s
  | .alertClear who v => Sys2Proof.Machine.execAlertClear who v s
  | .calGo who v => Sys2Proof.Machine.execCalGo who v s
  | .calibrationRunEnd res codes good held => Sys2Proof.Machine.execCalibrationRunEnd res codes good held s
  | .periodicCalibration => Sys2Proof.Machine.execPeriodicCalibration s
  | .modeWrite who v => Sys2Proof.Machine.execModeWrite who v s
  | .mckSelWrite who v => Sys2Proof.Machine.execMckSelWrite who v s
  | .nosleepWrite who d v => Sys2Proof.Machine.execNosleepWrite who d v s
  | .pckCntClr who v => Sys2Proof.Machine.execPckCntClr who v s
  | .thmCntClr who v => Sys2Proof.Machine.execThmCntClr who v s
  | .svcEnWrite who v => Sys2Proof.Machine.execSvcEnWrite who v s
  | .deauth who v => Sys2Proof.Machine.execDeauth who v s
  | .drnGo who v => Sys2Proof.Machine.execDrnGo who v s
  | .drnAbort who v => Sys2Proof.Machine.execDrnAbort who v s
  | .drainBlock => Sys2Proof.Machine.execDrainBlock s
  | .fillBlock bytes => Sys2Proof.Machine.execFillBlock bytes s
  | .mbxFrame stag msg => Sys2Proof.Machine.execMbxFrame stag msg s
  | .svcRregFrame stag raddr => Sys2Proof.Machine.execSvcRregFrame stag raddr s
  | .svcWregFrame stag raddr data => Sys2Proof.Machine.execSvcWregFrame stag raddr data s
  | .frameErr raw => Sys2Proof.Machine.execFrameErr raw s
  | .eventCopySend => Sys2Proof.Machine.execEventCopySend s
  | .serviceLinkChange v gen3 => Sys2Proof.Machine.execServiceLinkChange v gen3 s
  | .serviceLinkDown => Sys2Proof.Machine.execServiceLinkDown s
  | .spareCheckerFail g l => Sys2Proof.Machine.execSpareCheckerFail g l s
  | .keepAliveReceive g => Sys2Proof.Machine.execKeepAliveReceive g s
  | .turnCdrLock failing => Sys2Proof.Machine.execTurnCdrLock failing s
  | .strobeTracking ch rank dir lost => Sys2Proof.Machine.execStrobeTracking ch rank dir lost s
  | .shadowValidationEnd ch pass rd wr => Sys2Proof.Machine.execShadowValidationEnd ch pass rd wr s
  | .spareInPlaceStepEnd ch pass rd wr => Sys2Proof.Machine.execSpareInPlaceStepEnd ch pass rd wr s
  | .suspectWindowEnd ch => Sys2Proof.Machine.execSuspectWindowEnd ch s
  | .remapEntryReloaded => Sys2Proof.Machine.execRemapEntryReloaded s
  | .contextRebuilt => Sys2Proof.Machine.execContextRebuilt s
  | .pllRelock p => Sys2Proof.Machine.execPllRelock p s
  | .standbyPllUnusable => Sys2Proof.Machine.execStandbyPllUnusable s
  | .ep0StandardRequest req value len => Sys2Proof.Machine.execEp0StandardRequest req value len s

end Sys2Proof.Machine
end

