-- ==== Sys2Proof/Safety.lean ====
section
/-! DEFINITION. What a safe step and a safe state are, and the conditions that statements about register writes share. -/

namespace Sys2Proof.Machine

/-- A step that neither faults nor refuses. -/
def Answer.goesOn : Answer → Prop
  | .next _ => True
  | .fault _ => False
  | .refused _ => False

/-- The device memory is held in its one form. -/
def State.memWf (s : State) : Prop := Memory.wf s.mem = true

/-- What the checks before a register's own action ask of a write (R12, R25, R288, R291, R298, R303): a field that the master may write, legal
values, no window of a basic command, no lock, and a running clock. -/
def WriteOpen (s : State) (who : Nat) (r : RegId) (i0 j v : Nat) : Prop :=
  r.info.flds.any (mayField (letters s r who (ownIdx r who i0) true)) = true ∧
  (r.info.flds.any fun f => mayField (letters s r who (ownIdx r who i0) true) f && illegal f v) = false ∧
  inWindow s who r (ownIdx r who i0) j (mayField (letters s r who (ownIdx r who i0) true)) = false ∧
  pregLocked s r (ownIdx r who i0) = false ∧ clockStopped s r (ownIdx r who i0) = false

/-- A write is executed at once and reaches the register's own action: registers can be accessed, no persistent write of its master is under way, and
the checks before the action pass. -/
def WriteReady (s : State) (who : Nat) (r : RegId) (i0 j v : Nat) : Prop :=
  regsOpen s = true ∧ pregPending s who = false ∧ WriteOpen s who r i0 j v

/-- A master may write a field of an instance of a register (R288). -/
def MayWrite (s : State) (who : Nat) (r : RegId) (i0 : Nat) (f : Fld) : Prop := mayField (letters s r who (ownIdx r who i0) true) f = true

/-- The word of a write with the fields that its master may not write at zero. -/
def writtenWord (s : State) (who : Nat) (r : RegId) (i0 v : Nat) : Nat := maskedWord r v (mayField (letters s r who (ownIdx r who i0) true))

/-- What the register's own action makes of a write. -/
def writeHook (s : State) (who : Nat) (r : RegId) (i0 j v : Nat) : Hook :=
  regHook s (storeFields s r (ownIdx r who i0) j v (mayField (letters s r who (ownIdx r who i0) true))) r who (ownIdx r who i0) j
    (writtenWord s who r i0 v)

/-- A master's write of `v` to an instance of a register meets every check before the register's own action, and the master may write the fields `fs`. -/
def CanWrite (s : State) (who : Nat) (r : RegId) (i0 j v : Nat) (fs : List Fld) : Prop :=
  WriteReady s who r i0 j v ∧ ∀ f ∈ fs, MayWrite s who r i0 f

/-- A master's read of an instance of a register is executed at once and is not refused, and the master may read the fields `fs` (R287, R288, R298). -/
def CanRead (s : State) (who : Nat) (r : RegId) (i0 j : Nat) (fs : List Fld) : Prop :=
  regsOpen s = true ∧ pregPending s who = false ∧ (who = 16 → s.mgt.auth = true) ∧ clockStopped s r (ownIdx r who i0) = false ∧
  readRefused s r (ownIdx r who i0) = false ∧ j < r.info.n2 ∧ fs ≠ [] ∧
  ∀ f ∈ fs, f ∈ r.info.flds ∧ mayField (letters s r who (ownIdx r who i0) false) f = true

/-- The result of the last access of a master, as GLB_LAS shows it (R295). -/
def lastResult (s : State) (who : Nat) : Nat := s.rd F.GLB_LAS_LA_RES who

/-- The symbols that FEC corrects in a flit bring no lane of the group to `FAIL_THR` (R39, R53). -/
def FecQuiet (s : State) (g : Nat) (raw : List Byte) : Prop :=
  ∀ l, l < 17 → SMap.getD (s.grp g).fecWin l 0 + (flitFec raw).2.length < s.rd F.HLP_CTL_FAIL_THR g

/-- A VC0 packet arrives on a group that the stack hears, with the link up, room in its pool, no packet of the group before it, room for a
rejection, and the request engine open and free in this cycle: the engine judges it at once (R63, R115, R117). -/
def Heard (s : State) (g : Nat) (p : Vc0) : Prop :=
  hears s g = true ∧ s.link.up = true ∧ roomVc0 s p.dom (cellsOf (vc0Len p)) = true ∧ SMap.getD s.rqe.waiting g [] = [] ∧
  s.rqe.rejQ.length < 256 ∧ rqeOpen s = true ∧ cycleFree s = true

/-- A VC2 packet of `n` cells of domain `d` arrives on a group that the stack hears, after the partner's CONFIG, with the link up, room in its pool
and no packet held or queued before it (R63, R65, R69, R112). -/
def HeardVc2 (s : State) (g d n : Nat) : Prop :=
  hears s g = true ∧ s.link.up = true ∧ s.link.cfgRx.isSome = true ∧ roomVc2 s d n = true ∧ vc2Waits s g = false ∧
  s.link.holdLost = false ∧ s.link.vc2Hold = [] ∧ s.link.vc2Queue = []

/-- Mailbox `m` holds a command of this opcode that is taken and not executed, the firmware runs, and the state serves the opcode (R12, R267, R275). -/
def InHand (s : State) (m opc : Nat) : Prop :=
  mstate s m = 2 ∧ (s.mbx m).ran = false ∧ cmdOpcode s m = opc ∧ coreServes s = true ∧ supported s m opc = true

/-- The state in which a mailbox command runs: the lease that it carries is renewed (R278). -/
def renewed (s : State) (m : Nat) : State := match leaseOf s m (cmdLease s m) with
  | some i => renewLease s i
  | none => s

/-- The command is executed, journalled, and waits for what `aw` says (R270, R277). -/
def Answered (t : State) (m : Nat) (aw : Await) : Prop := (t.mbx m).ran = true ∧ (t.mbx m).journal = true ∧ (t.mbx m).await = aw

/-- A command that only reads: the answer `p` is due with OK, and registers, memory, requests, link and store stay. -/
def ReadsOnly (s t : State) (m : Nat) (p : List Byte) : Prop :=
  Answered t m (.due .ok 0 p) ∧ t.regs = s.regs ∧ t.mem = s.mem ∧ t.rqe = s.rqe ∧ t.link = s.link ∧ t.pst = s.pst

/-- Every register write of a command is accepted (R280). -/
def Accepted (s : State) (m : Nat) (ws : List FwWrite) : Prop := (fwWrites (renewed s m) m ws).c = .ok

/-- An accepted command that writes registers leaves them as its writes do, in order, and is answered OK, at once or when its words are stored (R280, R301). -/
def Written (s t : State) (m : Nat) (ws : List FwWrite) (pay : List Byte) : Prop :=
  t.regs = (fwWrites (renewed s m) m ws).st.regs ∧ t.mem = (fwWrites (renewed s m) m ws).st.mem ∧
  Answered t m (if (fwWrites (renewed s m) m ws).waits = 0 then .due .ok 0 pay else .words (fwWrites (renewed s m) m ws).waits false pay)

/-- A word waits for the MRAM port, or is at it. -/
def AtPort (s : State) (w : MWord) : Prop := w ∈ s.pst.q ∨ s.pst.port = some w

/-- The entries of the request buffer bear rising admission numbers, all below the next one. -/
def IdsRise (s : State) : Prop := (s.rqe.reqs.map (·.id) ++ [s.rqe.nextId]).Pairwise (· < ·)

/-- The canonical form: memory in its one form, metadata, stored errors and the register store with rising keys, and rising admission numbers. -/
def Canon (s : State) : Prop :=
  Memory.wf s.mem = true ∧ SMap.sorted s.regs = true ∧ SMap.sorted s.memMeta = true ∧ SMap.sorted s.memErr = true ∧ IdsRise s

/-- A DCK cycle of a channel has nothing but refresh and power-down to serve: it trains on `TRAIN_GO`, or is in RUN with no work of any kind. -/
def OnlyRefresh (s : State) (ch : Nat) : Prop :=
  (s.dmcOf ch).hung = false ∧ (s.dmcOf ch).vq = [] ∧ (s.tsvCh ch).sw = [] ∧
  ((s.cstate ch = 1 ∧ (s.dmcOf ch).train.any (·.inRun) = true) ∨
   (s.cstate ch = 2 ∧ (s.dmcOf ch).train = none ∧ (s.dmcOf ch).q = [] ∧ (s.dmcOf ch).wq = [] ∧ (s.dmcOf ch).rmw = [] ∧ (s.dmcOf ch).eng = [] ∧
    (s.dmcOf ch).unitSc = none ∧ s.victims ch = [] ∧ walkNext s ch = none ∧ SMap.getD s.dip.wb ch [] = [] ∧ s.fstate ≠ fMigrate ∧
    s.on F.DIP_CTL_SCRUB_EN = false))

/-- No packet waits at the head of any group. -/
def NoneWaits (s : State) : Prop := ∀ g, g < 16 → SMap.getD s.rqe.waiting g [] = []

end Sys2Proof.Machine
end

