-- ==== Sys2Proof/Certificates/Slice0/Obligations.lean ====
section
/-! DEFINITION. The statements for the provers. Each says in its docstring which rules of the spec it rests on. -/

open Sys2Proof Sys2Proof.Machine

/-- O1. A step takes the command at the front of the queue and runs exec on it with the rest of the queue (00_scope.md; 95_what_each_step_holds.md). -/
def Obligations.StepRunsFrontCommand : Prop :=
  ∀ (c : Instr) (s : State) (rest : List Instr), step { s with pending := c :: rest } = exec c { s with pending := rest }

/-- O2. With no command waiting a step advances model time, and starts a warm reset that is due (17_reset_boot_and_self_test.md). -/
def Obligations.EmptyQueueTicksTheClock : Prop :=
  (∀ s : State, s.pending = [] → s.pck.wrstDue = none → step s = .next { s with now := s.now + 1 }) ∧
  (∀ (s : State) (due cause : Nat), s.pending = [] → s.pck.wrstDue = some (due, cause) → s.now + 1 < due → step s = .next { s with now := s.now + 1 }) ∧
  (∀ (s : State) (due cause : Nat), s.pending = [] → s.pck.wrstDue = some (due, cause) → due ≤ s.now + 1 →
    step s = .next (warmAssert cause { s with now := s.now + 1, pck.wrstDue := none }))

/-- O3. Training: OFF to DETECT, DETECT to CLOCK, CLOCK to EQ or the fast path, and the three attempts of the cold boot (R34; R37; Table 2.3 (02_mladhorn_lanes.md)). -/
def Obligations.TrainingStartsAndSenses : Prop :=
  (∀ (s : State) (g : Fin 16), (s.grp g.val).gst = .off → s.link.refclk = true → (s.pck.pow = .run ∨ s.pck.pow = .idle ∨ s.pck.pow = .entering) →
    ∃ t, exec (.groupPowerUp g) s = .next t ∧ (t.grp g.val).gst = .detect ∧ (t.grp g.val).attempt = 1 ∧
      (∀ k, k ≠ g.val → t.grp k = s.grp k) ∧ t.mem = s.mem ∧ t.rqe = s.rqe ∧ t.pending = s.pending) ∧
  (∀ (s : State) (g : Fin 16) (sensed : BitVec 17), (s.grp g.val).gst = .detect → (s.grp g.val).inSvc = false →
    ∃ t, exec (.groupDetectEnd g sensed) s = .next t ∧ (t.grp g.val).failed = Nat.lor (s.grp g.val).bad (allLanes - sensed.toNat) ∧
      (t.grp g.val).gst = (if 16 ≤ popCount (usable (t.grp g.val)) 17 then .clock else .failed) ∧
      (∀ k, k ≠ g.val → t.grp k = s.grp k) ∧ t.mem = s.mem ∧ t.rqe = s.rqe ∧ t.pending = s.pending) ∧
  (∀ (s : State) (g : Fin 16) (locked burst : Bool), (s.grp g.val).gst = .clock → (s.grp g.val).inSvc = true → (locked && burst) = false →
    ∃ t, exec (.groupClockEnd g locked burst) s = .next t ∧ (t.grp g.val).inSvc = false ∧ t.pending = s.pending) ∧
  (∀ (s : State) (g : Fin 16) (locked burst : Bool), (s.grp g.val).gst = .clock → ((s.grp g.val).inSvc = false ∨ (locked && burst) = true) →
    ∃ t, exec (.groupClockEnd g locked burst) s = .next t ∧
      (t.grp g.val).gst = (if locked && burst then (if (s.grp g.val).fast then .align else .eq) else .failed) ∧
      ((locked && burst) = true → (t.grp g.val).slot = (if (s.grp g.val).fast then 16 else 0) ∧ (t.grp g.val).pll = true) ∧
      (∀ k, k ≠ g.val → t.grp k = s.grp k) ∧ t.mem = s.mem ∧ t.rqe = s.rqe ∧ t.pending = s.pending) ∧
  (∀ (s : State) (g : Fin 16), (s.grp g.val).gst = .failed → (s.pck.step = 8 ∨ (s.grp g.val).attempt ≠ 0) →
    ∃ t, exec (.groupTrainFail g) s = .next t ∧
      ((s.grp g.val).attempt < 3 → (t.grp g.val).gst = .detect ∧ (t.grp g.val).attempt = (s.grp g.val).attempt + 1) ∧
      (3 ≤ (s.grp g.val).attempt → t = s) ∧ (∀ k, k ≠ g.val → t.grp k = s.grp k))

/-- O4. The slots of Table 2.4 are counted; a CONFIRM word is judged; a group that completes CONFIRM is ACTIVE and in service (R34; R35; R36; R68). -/
def Obligations.TrainingSlotsLeadToService : Prop :=
  (∀ (s : State) (g : Fin 16) (r : SlotResult), (s.grp g.val).gst = .eq → (s.grp g.val).slot ≠ 15 →
    ∃ t, exec (.trainingSlotEnd g r) s = .next t ∧ (t.grp g.val).slot = (s.grp g.val).slot + 1 ∧ (t.grp g.val).gst = .eq ∧
      (∀ k, k ≠ g.val → t.grp k = s.grp k)) ∧
  (∀ (s : State) (g : Fin 16) (r : SlotResult), (s.grp g.val).gst = .eq → (s.grp g.val).slot = 15 → (s.grp g.val).inSvc = false →
    ∃ t, exec (.trainingSlotEnd g r) s = .next t ∧
      (16 ≤ popCount (usable (t.grp g.val)) 17 → (t.grp g.val).gst = .align ∧ (t.grp g.val).eqDone = true) ∧
      (popCount (usable (t.grp g.val)) 17 < 16 → (t.grp g.val).gst = .failed)) ∧
  (∀ (s : State) (g : Fin 16) (r : SlotResult) (asked map : Nat), (s.grp g.val).gst = .confirm → 19 ≤ (s.grp g.val).slot →
    (s.grp g.val).partner = some (asked, map) → (s.grp g.val).inSvc = false → s.on F.HLP_CTL_TEST g.val = false →
    16 ≤ popCount (usable { s.grp g.val with
      failed := maskOf ((onesOf allLanes 17).filter fun l => bit (s.grp g.val).failed l || !bit map l) }) 17 →
    ∃ t, exec (.trainingSlotEnd g r) s = .next t ∧ (t.grp g.val).gst = .active ∧ (t.grp g.val).inSvc = true) ∧
  (∀ (s : State) (g : Fin 16) (r : SlotResult), (s.grp g.val).gst = .confirm → 19 ≤ (s.grp g.val).slot → (s.grp g.val).partner = none →
    (s.grp g.val).inSvc = false →
    ∃ t, exec (.trainingSlotEnd g r) s = .next t ∧ (t.grp g.val).gst = .failed ∧ ∀ k, k ≠ g.val → t.grp k = s.grp k) ∧
  (∀ (s : State) (g : Fin 16) (word : BitVec 64) (on : BitVec 17), (s.grp g.val).gst = .confirm →
    bits word.toNat 48 16 = 0xC04F → bits word.toNat 21 27 = 0 → 16 ≤ popCount on.toNat 17 →
    ∃ t, exec (.confirmWordAccept g word on) s = .next t ∧ (t.grp g.val).gst = .confirm ∧
      (t.grp g.val).partner = some (bits word.toNat 0 4, maskOf ((onesOf on.toNat 17).filter (bit (bits word.toNat 4 17))))) ∧
  (∀ (s : State) (g : Fin 16) (word : BitVec 64) (on : BitVec 17), (s.grp g.val).gst = .confirm →
    (bits word.toNat 48 16 ≠ 0xC04F ∨ bits word.toNat 21 27 ≠ 0 ∨ popCount on.toNat 17 < 16) →
    exec (.confirmWordAccept g word on) s = .next s)

/-- O5. QUIET entry, keep-alive bursts, the wake preamble, and the wake signal in DEEP (R41; R42; R78). -/
def Obligations.QuietAndDeepFollowTheLanePowerStates : Prop :=
  (∀ (s : State) (g : Fin 16), (s.grp g.val).gst = .active → (s.grp g.val).inSvc = true → (s.grp g.val).dir = true → s.on F.HLP_CTL_QUIET_EN g.val = true →
    ∃ t flips, exec (.quietEntry g) s = .next t ∧ (t.grp g.val).gst = .quiet ∧
      t.out = s.out ++ [Out.idle g.val (s.rd F.HLP_CTL_QUIET_DLY g.val), Out.flit g.val (s.grp g.val).txNext 4 [] flips] ∧
      ((s.grp g.val).injAct = false → (s.grp g.val).injBurst = 0 → flips = []) ∧
      t.regs = s.regs ∧ t.mem = s.mem ∧ ∀ k, k ≠ g.val → t.grp k = s.grp k) ∧
  (∀ (s : State) (g : Fin 16), (s.grp g.val).gst = .quiet → (s.grp g.val).dir = true →
    exec (.keepAliveBurst g) s = .next { s with out := s.out ++ [Out.square g.val] }) ∧
  (∀ (s : State) (g : Fin 16), (s.grp g.val).gst = .quiet → (s.grp g.val).dir = false →
    ∃ t, exec (.wakePreambleReceive g) s = .next t ∧ (t.grp g.val).gst = .active ∧ t.regs = s.regs ∧ t.mem = s.mem ∧ t.out = s.out ∧
      ∀ k, k ≠ g.val → t.grp k = s.grp k) ∧
  (∀ (s : State) (g : Fin 16), (s.grp g.val).gst = .quiet → (s.grp g.val).dir = false →
    ∃ t, exec (.keepAliveReceive g) s = .next t ∧ (t.grp g.val).gst = .quiet ∧ (t.grp g.val).locks = usable (s.grp g.val) ∧ t.regs = s.regs ∧
      t.mem = s.mem ∧ t.out = s.out ∧ ∀ k, k ≠ g.val → t.grp k = s.grp k) ∧
  (∀ s : State, s.pck.pow = .sleep → (listenLane s).isSome = true →
    ∃ t, exec .deepWakeDetect s = .next t ∧ t.mem = s.mem ∧
      ∀ k : Fin 16, (s.grp k.val).gst = .deep → (t.grp k.val).gst = .clock ∧ (t.grp k.val).fast = true) ∧
  (∀ s : State, listenLane s = none → exec .deepWakeDetect s = .next s)

/-- O6. A failed lane is spared or its group is lost; a dead spare leaves the group without one; GROUP SPARE remaps the sender (R39; R71; Table 3.6 (03_flits_replay_and_turns.md)). -/
def Obligations.LaneFailureTakesTheSpare : Prop :=
  (∀ (s : State) (g : Fin 16) (l : Fin 17) (los : Bool), (s.grp g.val).inSvc = true → flitsExpected s g.val = true →
    bit (s.grp g.val).carry l.val = true → (s.grp g.val).dir = false → (s.grp g.val).spare.isSome = true →
    ∃ t, exec (.laneFailureDetect g { lane := l, los := los }) s = .next t ∧ (t.grp g.val).failed = setBit (s.grp g.val).failed l.val ∧ (t.grp g.val).needStart = true ∧
      (t.grp g.val).sparing = some l.val ∧ (t.grp g.val).inSvc = (s.grp g.val).inSvc) ∧
  (∀ (s : State) (g : Fin 16) (l : Fin 17) (los : Bool), (s.grp g.val).inSvc = true → flitsExpected s g.val = true →
    bit (s.grp g.val).carry l.val = true → (s.grp g.val).dir = false → (s.grp g.val).spare = none →
    ∃ t, exec (.laneFailureDetect g { lane := l, los := los }) s = .next t ∧ (t.grp g.val).gst = .detect ∧ (t.grp g.val).inSvc = false) ∧
  (∀ (s : State) (g : Fin 16) (l : Fin 17), hears s g.val = true → (s.grp g.val).spare = some l.val →
    ∃ t, exec (.spareCheckerFail g l) s = .next t ∧ (t.grp g.val).spare = none ∧ (t.grp g.val).failed = setBit (s.grp g.val).failed l.val) ∧
  (∀ (s : State) (g n : Fin 16) (l : Fin 17), hears s g.val = true → (s.grp n.val).inSvc = true → (s.grp n.val).spare = some l.val →
    ∃ t, exec (.groupSpareDeadItem g n l) s = .next t ∧ (t.grp n.val).spare = none ∧ (t.grp n.val).failed = setBit (s.grp n.val).failed l.val ∧
      t.mem = s.mem ∧ ∀ k, k ≠ n.val → t.grp k = s.grp k) ∧
  (∀ (s : State) (g n : Fin 16) (exp : BitVec 10) (l : Fin 17), hears s g.val = true → (s.grp n.val).dir = true → (s.grp n.val).inSvc = true →
    bit (s.grp n.val).carry l.val = true →
    ∃ t, exec (.groupSpareItem g n exp l) s = .next t ∧
      ((s.grp n.val).spare.isSome = true → (t.grp n.val).failed = setBit (s.grp n.val).failed l.val) ∧
      ((s.grp n.val).spare = none → (t.grp n.val).gst = .detect ∧ (t.grp n.val).inSvc = false))

/-- O7. A lost group leaves service and goes to DETECT, whatever found the loss; the whole link retrains when LOST does not come (R48; R60; R68; R72; R73; R75; Table 3.7 (03_flits_replay_and_turns.md)). -/
def Obligations.LostGroupsGoToDetect : Prop :=
  (∀ (s : State) (g : Fin 16) (cause : Fin 6), (s.grp g.val).inSvc = true →
    ∃ t, exec (.groupLoss g cause) s = .next t ∧ (t.grp g.val).gst = .detect ∧ (t.grp g.val).inSvc = false) ∧
  (∀ (s : State) (g : Fin 16), s.link.refclk = true → (s.grp g.val).pll = true →
    ∃ t, exec (.groupPllLoss g) s = .next t ∧ (t.grp g.val).gst = .detect ∧ (t.grp g.val).inSvc = false) ∧
  (∀ (s : State) (g : Fin 16), (s.grp g.val).inSvc = true → (s.grp g.val).dir = true → (s.grp g.val).replay ≠ [] →
    ((s.grp g.val).gst = .active ∨ (s.grp g.val).gst = .quiet ∨ (s.grp g.val).gst = .turn) →
    ∃ t, exec (.ackTimeout g) s = .next t ∧ (t.grp g.val).gst = .detect ∧ (t.grp g.val).inSvc = false) ∧
  (∀ (s : State) (u : Turn), s.link.turn = some u → u.grp < 16 → (s.grp u.grp).inSvc = true →
    ∃ t, exec .turnTimeout s = .next t ∧ (t.grp u.grp).gst = .detect ∧ (t.grp u.grp).inSvc = false) ∧
  (∀ (s : State) (g n : Fin 16), hears s g.val = true → (s.grp n.val).dir = false → (s.grp n.val).inSvc = true →
    ∃ t, exec (.groupLostReqItem g n) s = .next t ∧ (t.grp n.val).gst = .detect ∧ (t.grp n.val).inSvc = false) ∧
  (∀ (s : State) (g n : Fin 16) (last : BitVec 10), hears s g.val = true → (s.grp n.val).dir = true → (s.grp n.val).inSvc = false →
    (s.grp n.val).lostReq = true →
    ∃ t, exec (.groupLostItem g n last) s = .next t ∧ (t.grp n.val).lostReq = false) ∧
  (∀ s : State, (∃ g : Fin 16, (s.grp g.val).lostReq = true) →
    ∃ t, exec .lostReqTimeout s = .next t ∧ t.link.up = false ∧ ∀ g : Fin 16, (t.grp g.val).gst = .detect) ∧
  (∀ s : State, s.link.up = true → (inService s false = [] ∨ inService s true = []) →
    ∃ t, exec .wholeLinkRetrain s = .next t ∧ t.link.up = false ∧ ∀ g : Fin 16, (t.grp g.val).gst = .detect)

/-- O8. HL_REFCLK: every group goes to OFF when it is lost in operation, and trains from DETECT when it returns (R48; R37). -/
def Obligations.ReferenceClockLossStopsEveryGroup : Prop :=
  (∀ s : State, s.link.refclk = true →
    (s.pck.pow = .run ∨ s.pck.pow = .idle ∨ s.pck.pow = .entering ∨ s.pck.pow = .warm ∨ s.pck.pow = .powerFail) →
    ∃ t, exec .hlRefclkLoss s = .next t ∧ t.link.refclk = false ∧ ∀ g : Fin 16, (t.grp g.val).gst = .off) ∧
  (∀ s : State, s.link.refclk = false → (s.pck.pow = .run ∨ s.pck.pow = .idle ∨ s.pck.pow = .entering) →
    ∃ t, exec .hlRefclkReturn s = .next t ∧ t.link.refclk = true ∧
      ∀ g : Fin 16, (s.grp g.val).gst = .off → (t.grp g.val).gst = .detect ∧ (t.grp g.val).attempt = 1)

/-- O9. RETRAIN and TEST of HLP[g]_CTL: a group goes to DETECT, into TEST, and back to DETECT (R34; R291; Table 2.3 (02_mladhorn_lanes.md); Table 2.8 (02_mladhorn_lanes.md)). -/
def Obligations.GroupControlWrites : Prop :=
  (∀ (s : State) (who : Fin 18) (g : Fin 16) (v : Word),
    CanWrite s who.val .HLP_CTL g.val 0 (withBits v.toNat [(F.HLP_CTL_RETRAIN, 1)]) [F.HLP_CTL_RETRAIN, F.HLP_CTL_TEST] →
    needed s g.val = false → F.HLP_CTL_LOOPBACK.val v.toNat ≠ 1 → F.HLP_CTL_TEST.hit v.toNat = s.on F.HLP_CTL_TEST g.val → s.link.refclk = true →
    ∃ t, exec (.retrain who g v) s = .next t ∧ lastResult t who.val = Code.ok.num ∧ (t.grp g.val).gst = .detect ∧ (t.grp g.val).inSvc = false) ∧
  (∀ (s : State) (who : Fin 18) (g : Fin 16) (v : Word),
    CanWrite s who.val .HLP_CTL g.val 0 (withBits v.toNat [(F.HLP_CTL_RETRAIN, 1)]) [F.HLP_CTL_RETRAIN] → needed s g.val = true →
    exec (.retrain who g v) s = .next (recordAcc s who.val true (regOffset .HLP_CTL g.val 0) .state 0)) ∧
  (∀ (s : State) (who : Fin 18) (g : Fin 16) (v : Word),
    CanWrite s who.val .HLP_CTL g.val 0 (withBits v.toNat [(F.HLP_CTL_TEST, 1)]) [F.HLP_CTL_TEST] →
    needed s g.val = false → F.HLP_CTL_LOOPBACK.val v.toNat ≠ 1 → F.HLP_CTL_RETRAIN.hit v.toNat = false → s.on F.HLP_CTL_TEST g.val = false →
    ((s.grp g.val).gst = .active ∨ (s.grp g.val).gst = .quiet) →
    ∃ t, exec (.testModeSet who g v) s = .next t ∧ lastResult t who.val = Code.ok.num ∧ (t.grp g.val).gst = .test ∧ (t.grp g.val).inSvc = false ∧ t.on F.HLP_CTL_TEST g.val = true) ∧
  (∀ (s : State) (who : Fin 18) (g : Fin 16) (v : Word),
    CanWrite s who.val .HLP_CTL g.val 0 (withBits v.toNat [(F.HLP_CTL_TEST, 0)]) [F.HLP_CTL_TEST] →
    F.HLP_CTL_LOOPBACK.val v.toNat ≠ 1 → F.HLP_CTL_RETRAIN.hit v.toNat = false → s.on F.HLP_CTL_TEST g.val = true → (s.grp g.val).gst = .test →
    ∃ t, exec (.testModeClear who g v) s = .next t ∧ lastResult t who.val = Code.ok.num ∧ (t.grp g.val).gst = .detect ∧ t.on F.HLP_CTL_TEST g.val = false ∧
      ∀ l, l < 17 → t.on F.HLP_LN_CTL_GEN_EN g.val l = false ∧ t.on F.HLP_LN_CTL_CHK_EN g.val l = false)

/-- O10. Error injection starts, a user test takes a lane's checker or is refused with RESOURCE, and ERRORS clears when read (R43; R44; R45; R46; R293). -/
def Obligations.LaneTestWrites : Prop :=
  (∀ (s : State) (who : Fin 18) (g : Fin 16) (v : Word),
    CanWrite s who.val .HLP_INJ g.val 0 (withBits v.toNat [(F.HLP_INJ_INJ_GO, 1)])
      [F.HLP_INJ_INJ_GO, F.HLP_INJ_INJ_LIVE, F.HLP_INJ_INJ_EXP, F.HLP_INJ_INJ_LANE, F.HLP_INJ_INJ_MODE] →
    (F.HLP_INJ_INJ_LIVE.hit v.toNat = true → 12 ≤ F.HLP_INJ_INJ_EXP.val v.toNat ∧ (s.grp g.val).gst = .active ∧ (s.grp g.val).dir = true) →
    ∃ t, exec (.injGo who g v) s = .next t ∧ lastResult t who.val = Code.ok.num ∧
      (let reach := !F.HLP_INJ_INJ_LIVE.hit v.toNat || bit (s.grp g.val).carry (F.HLP_INJ_INJ_LANE.val v.toNat)
       let mode := F.HLP_INJ_INJ_MODE.val v.toNat
       t.rd F.HLP_INJ_INJ_CNT g.val = b2n (reach && (mode == 1 || mode == 3)) ∧ (t.grp g.val).injAct = (reach && mode == 2) ∧
       ((t.grp g.val).injAct = true → (t.grp g.val).injAt = s.now))) ∧
  (∀ (s : State) (who : Fin 18) (g : Fin 16) (l : Fin 17) (v : Word),
    CanWrite s who.val .HLP_LN_CTL g.val l.val (withBits v.toNat [(F.HLP_LN_CTL_CHK_EN, 1)])
      [F.HLP_LN_CTL_CHK_EN, F.HLP_LN_CTL_GEN_EN, F.HLP_LN_CTL_PAT_SEL] →
    F.HLP_LN_CTL_PAT_SEL.val v.toNat ≠ 7 → F.HLP_LN_CTL_GEN_EN.hit v.toNat = s.on F.HLP_LN_CTL_GEN_EN g.val l.val →
    s.on F.HLP_LN_CTL_CHK_EN g.val l.val = false → laneFree (s.grp g.val) l.val = true → (s.grp g.val).dir = false →
    (chkOwner (s.grp g.val) l.val = 0 →
      ∃ t, exec (.chkEnWrite who g l v) s = .next t ∧ lastResult t who.val = Code.ok.num ∧ t.on F.HLP_LN_CTL_CHK_EN g.val l.val = true ∧ chkOwner (t.grp g.val) l.val = 3) ∧
    ((chkOwner (s.grp g.val) l.val = 1 ∨ chkOwner (s.grp g.val) l.val = 2) →
      exec (.chkEnWrite who g l v) s = .next (recordAcc s who.val true (regOffset .HLP_LN_CTL g.val l.val) .resource (checkerDetail (s.grp g.val) g.val l.val)))) ∧
  (∀ (s : State) (who : Fin 18) (g : Fin 16) (l : Fin 17), CanRead s who.val .HLP_LN_ERR g.val l.val [F.HLP_LN_ERR_ERRORS] →
    ∃ t, exec (.errorsRead who g l) s = .next t ∧ lastResult t who.val = Code.ok.num ∧ t.rd F.HLP_LN_ERR_ERRORS g.val l.val = 0 ∧ t.mem = s.mem)

/-- O11. TURN_GO asks for a turn or is refused by R74; CNT_CLR of HLL_CTL clears the counters of the link layer (R70; R74; R79; R291). -/
def Obligations.LinkRegisterWrites : Prop :=
  (∀ (s : State) (who : Fin 18) (v : Word),
    CanWrite s who.val .HLL_TURN 0 0 (withBits v.toNat [(F.HLL_TURN_TURN_GO, 1)]) [F.HLL_TURN_TURN_GO, F.HLL_TURN_TURN_GRP, F.HLL_TURN_TURN_DIR] →
    (turnCheck s (F.HLL_TURN_TURN_GRP.val v.toNat) (F.HLL_TURN_TURN_DIR.hit v.toNat) = .ok →
      ∃ t, exec (.turnGo who v) s = .next t ∧ lastResult t who.val = Code.ok.num ∧ t.link.tseq = (s.link.tseq + 1) % 65536 ∧
        ∃ q, t.link.turnReq = some q ∧ q.grp = F.HLL_TURN_TURN_GRP.val v.toNat ∧ q.dir = F.HLL_TURN_TURN_DIR.hit v.toNat ∧
          q.tseq = s.link.tseq ∧ q.byStack = true) ∧
    (∀ c, turnCheck s (F.HLL_TURN_TURN_GRP.val v.toNat) (F.HLL_TURN_TURN_DIR.hit v.toNat) = c → c ≠ .ok →
      ∃ t, exec (.turnGo who v) s = .next t ∧ lastResult t who.val = c.num ∧ t.link = s.link ∧ t.out = s.out)) ∧
  (∀ (s : State) (who : Fin 18) (v : Word), CanWrite s who.val .HLL_CTL 0 0 (withBits v.toNat [(F.HLL_CTL_CNT_CLR, 1)]) [F.HLL_CTL_CNT_CLR] →
    ∃ t, exec (.hllCntClr who v) s = .next t ∧ lastResult t who.val = Code.ok.num ∧ t.rd F.HLL_TURN_TURNS = 0 ∧
      ∀ g, g < 16 → ∀ f ∈ [F.HLL_FEC_FEC_CORR, F.HLL_FLIT_BAD_FLITS, F.HLL_FLIT_REPLAYS, F.HLL_EVT_SPARES, F.HLL_EVT_LOSSES, F.HLL_EVT_PROTO,
        F.HLL_EVT_NAKS_TX], t.rd f g = 0)

/-- O12. Purge, region entries and counters of the request engine (R119; R133; R136; R291). -/
def Obligations.RequestEngineWrites : Prop :=
  (∀ (s : State) (who : Fin 18) (d : Fin 16) (v : Word),
    CanWrite s who.val .RQE_DOM_CTL d.val 0 (withBits v.toNat [(F.RQE_DOM_CTL_PURGE, 1)]) [F.RQE_DOM_CTL_PURGE, F.RQE_DOM_CTL_EN] →
    (s.on F.RQE_DOM_CTL_PURGE_BUSY d.val = false →
      ∃ t, exec (.purge who d v) s = .next t ∧ lastResult t who.val = Code.ok.num ∧ t.on F.RQE_DOM_CTL_EN d.val = false ∧ t.on F.RQE_DOM_CTL_PURGE_BUSY d.val = true) ∧
    (s.on F.RQE_DOM_CTL_PURGE_BUSY d.val = true →
      exec (.purge who d v) s = .next (recordAcc s who.val true (regOffset .RQE_DOM_CTL d.val 0) .state 0))) ∧
  (∀ s : State, ∃ t, exec .purgeDone s = .next t ∧ t.mem = s.mem ∧ t.rqe = s.rqe ∧
    ∀ d, d < 16 → t.on F.RQE_DOM_CTL_PURGE_BUSY d = (s.on F.RQE_DOM_CTL_PURGE_BUSY d && decide (rbUsed s d ≠ 0))) ∧
  (∀ (s : State) (who : Fin 18) (n : Fin 64) (v : Word),
    CanWrite s who.val .RQE_RGN_A n.val 0 v.toNat [F.RQE_RGN_A_EN, F.RQE_RGN_A_DBASE, F.RQE_RGN_A_RDOM, F.RQE_RGN_A_WR] →
    ((F.RQE_RGN_A_EN.hit v.toNat = false ∨ s.on F.RQE_RGN_A_EN n.val = false ∧
        regionEnd s n.val (F.RQE_RGN_A_DBASE.val v.toNat) ≤ 0xFFFF ∧ regionEnd s n.val (s.rd F.RQE_RGN_B_PBASE n.val) ≤ lastBlock s ∧
        regionOverlap s n.val (F.RQE_RGN_A_RDOM.val v.toNat) (F.RQE_RGN_A_DBASE.val v.toNat) = false) →
      ∃ t, exec (.regionWrite false who n v) s = .next t ∧ lastResult t who.val = Code.ok.num ∧ t.mem = s.mem ∧ t.rqe = s.rqe ∧
        ∀ f ∈ [F.RQE_RGN_A_EN, F.RQE_RGN_A_DBASE, F.RQE_RGN_A_RDOM, F.RQE_RGN_A_WR], t.rd f n.val = f.val v.toNat) ∧
    (F.RQE_RGN_A_EN.hit v.toNat = true → s.on F.RQE_RGN_A_EN n.val = false →
      (0xFFFF < regionEnd s n.val (F.RQE_RGN_A_DBASE.val v.toNat) ∨ lastBlock s < regionEnd s n.val (s.rd F.RQE_RGN_B_PBASE n.val) ∨
        regionOverlap s n.val (F.RQE_RGN_A_RDOM.val v.toNat) (F.RQE_RGN_A_DBASE.val v.toNat) = true) →
      exec (.regionWrite false who n v) s = .next (recordAcc s who.val true (regOffset .RQE_RGN_A n.val 0) .range 0)) ∧
    (F.RQE_RGN_A_EN.hit v.toNat = true → s.on F.RQE_RGN_A_EN n.val = true → F.RQE_RGN_A_DBASE.val v.toNat ≠ s.rd F.RQE_RGN_A_DBASE n.val →
      exec (.regionWrite false who n v) s = .next (recordAcc s who.val true (regOffset .RQE_RGN_A n.val 0) .state 0))) ∧
  (∀ (s : State) (who : Fin 18) (n : Fin 64) (v : Word),
    CanWrite s who.val .RQE_RGN_B n.val 0 v.toNat [F.RQE_RGN_B_SIZE_M1, F.RQE_RGN_B_PBASE] → s.on F.RQE_RGN_A_EN n.val = false →
    ∃ t, exec (.regionWrite true who n v) s = .next t ∧ lastResult t who.val = Code.ok.num ∧
      t.rd F.RQE_RGN_B_SIZE_M1 n.val = F.RQE_RGN_B_SIZE_M1.val v.toNat ∧ t.rd F.RQE_RGN_B_PBASE n.val = F.RQE_RGN_B_PBASE.val v.toNat) ∧
  (∀ (s : State) (who : Fin 18) (v : Word),
    CanWrite s who.val .RQE_CTL 0 0 (withBits v.toNat [(F.RQE_CTL_CNT_CLR, 1)]) [F.RQE_CTL_CNT_CLR, F.RQE_CTL_HASH_SEL, F.RQE_CTL_CH_LSB] →
    F.RQE_CTL_HASH_SEL.val v.toNat = s.rd F.RQE_CTL_HASH_SEL → F.RQE_CTL_CH_LSB.val v.toNat = s.rd F.RQE_CTL_CH_LSB → s.rd F.RQE_CTL_HASH_SEL ≠ 3 →
    ∃ t, exec (.rqeCntClr who v) s = .next t ∧ lastResult t who.val = Code.ok.num ∧ (∀ f ∈ [F.RQE_FWD_FWD_SECT, F.RQE_HAZ_HAZ_WAIT, F.RQE_DUP_DUP_CNT], t.rd f = 0) ∧
      ∀ d, d < 16 → ∀ f ∈ [F.RQE_DOM_USE_LINK_LOST, F.RQE_DOM_REJ_REJ_OPC, F.RQE_DOM_REJ_REJ_PRIV, F.RQE_DOM_REJ_REJ_RANGE, F.RQE_DOM_REJ_REJ_STATE],
        t.rd f d = 0)

/-- O13. CTX_READ and CTX_WRITE move a bow's context through a master's window, under R139's reach and R140's checks (R25; R139; R140). -/
def Obligations.ContextWindowCommands : Prop :=
  (∀ (s : State) (who : Fin 18) (v : Word),
    CanWrite s who.val .REG_CTX_CMD 0 0 (withBits v.toNat [(F.REG_CTX_CMD_OP, 1)]) [F.REG_CTX_CMD_OP] →
    (ctxReach s who.val (s.rd F.REG_CTX_IDX_CTX_IDX who.val) = true →
      ∃ t, exec (.ctxRead who v) s = .next t ∧ lastResult t who.val = Code.ok.num ∧ t.reg = s.reg ∧
        (let x := s.ctx (s.rd F.REG_CTX_IDX_CTX_IDX who.val)
         t.rd F.REG_CTX_D0_CLASS who.val = x.cls % 2 ^ F.REG_CTX_D0_CLASS.w ∧ t.rd F.REG_CTX_D0_LT_TGT who.val = x.ltTgt % 2 ^ F.REG_CTX_D0_LT_TGT.w ∧
         t.rd F.REG_CTX_D0_RES_IDX who.val = x.resIdx % 2 ^ F.REG_CTX_D0_RES_IDX.w ∧ t.rd F.REG_CTX_D0_ALLOC who.val = x.alloc % 2 ^ F.REG_CTX_D0_ALLOC.w ∧
         t.rd F.REG_CTX_D1_MLAT who.val = x.mlat % 2 ^ F.REG_CTX_D1_MLAT.w ∧
         t.rd F.REG_CTX_D0_OWNED who.val = b2n (bowOwner s (s.rd F.REG_CTX_IDX_CTX_IDX who.val)).isSome ∧
         t.rd F.REG_CTX_D3_QCNT who.val = (flowQueue s (s.rd F.REG_CTX_IDX_CTX_IDX who.val)).length % 2 ^ F.REG_CTX_D3_QCNT.w)) ∧
    (ctxReach s who.val (s.rd F.REG_CTX_IDX_CTX_IDX who.val) = false →
      ∃ t, exec (.ctxRead who v) s = .next t ∧ lastResult t who.val = Code.privilege.num ∧ t.reg = s.reg ∧
        t.rd F.REG_CTX_D0_CLASS who.val = 0 ∧ t.rd F.REG_CTX_D0_RES_IDX who.val = 0 ∧ t.rd F.REG_CTX_D1_MLAT who.val = 0)) ∧
  (∀ (s : State) (who : Fin 18) (v : Word),
    CanWrite s who.val .REG_CTX_CMD 0 0 (withBits v.toNat [(F.REG_CTX_CMD_OP, 2)]) [F.REG_CTX_CMD_OP] →
    ctxReach s who.val (s.rd F.REG_CTX_IDX_CTX_IDX who.val) = true →
    ctxCheck s (s.rd F.REG_CTX_IDX_CTX_IDX who.val) (F.REG_CTX_D0_CLASS.val (ctxD0 s who.val)) (F.REG_CTX_D0_LT_TGT.val (ctxD0 s who.val))
      (F.REG_CTX_D0_RES_IDX.val (ctxD0 s who.val)) = .ok →
    (who.val = 17 ∨ windowHolds s (2 ^ 40 + s.rd F.REG_CTX_IDX_CTX_IDX who.val) = false) →
    ∃ t, exec (.ctxWrite who v) s = .next t ∧ lastResult t who.val = Code.ok.num ∧
      (let b := s.rd F.REG_CTX_IDX_CTX_IDX who.val
       (t.ctx b).cls = F.REG_CTX_D0_CLASS.val (ctxD0 s who.val) ∧ (t.ctx b).ltTgt = F.REG_CTX_D0_LT_TGT.val (ctxD0 s who.val) ∧
       (t.ctx b).resIdx = F.REG_CTX_D0_RES_IDX.val (ctxD0 s who.val) ∧ (t.ctx b).alloc = F.REG_CTX_D0_ALLOC.val (ctxD0 s who.val) ∧
       (F.REG_CTX_D0_MLAT_CLR.hit (ctxD0 s who.val) = true → (t.ctx b).mlat = 0) ∧ ∀ k, k ≠ b → t.ctx k = s.ctx k))

/-- O14. Counter snapshots, watches, bow ranges, reservations and the counters of the regulator (R138; R148; R151; R152; R154). -/
def Obligations.RegulatorWrites : Prop :=
  (∀ (s : State) (who : Fin 18) (v : Word), CanWrite s who.val .REG_CNT_IDX 0 0 v.toNat [F.REG_CNT_IDX_CIDX] →
    cidxReach who.val (F.REG_CNT_IDX_CIDX.val v.toNat) = true → cidxLegal (F.REG_CNT_IDX_CIDX.val v.toNat) = true →
    ∃ t, exec (.counterSnapshot who v) s = .next t ∧ lastResult t who.val = Code.ok.num ∧ t.reg = s.reg ∧
      t.rd F.REG_CNT_LO_CNT_LO who.val = SMap.getD s.reg.cnt (F.REG_CNT_IDX_CIDX.val v.toNat) 0 % 2 ^ 32 ∧
      t.rd F.REG_CNT_HI_CNT_HI who.val = SMap.getD s.reg.cnt (F.REG_CNT_IDX_CIDX.val v.toNat) 0 / 2 ^ 32 % 2 ^ F.REG_CNT_HI_CNT_HI.w) ∧
  (∀ (s : State) (who : Fin 18) (v : Word), CanWrite s who.val .REG_WSEL 0 0 v.toNat [F.REG_WSEL_WBOW, F.REG_WSEL_WMASK] →
    ∃ t, exec (.watchSelect who v) s = .next t ∧ lastResult t who.val = Code.ok.num ∧
      SMap.getD t.reg.watch (s.rd F.REG_WSEL_IDX_WIDX who.val) (0, 0xFFFF) = (F.REG_WSEL_WBOW.val v.toNat, F.REG_WSEL_WMASK.val v.toNat) ∧
      (∀ j, j < 4 → SMap.getD t.reg.cnt (0x200 + 4 * s.rd F.REG_WSEL_IDX_WIDX who.val + j) 0 = 0) ∧
      ∀ k, k ≠ s.rd F.REG_WSEL_IDX_WIDX who.val → SMap.getD t.reg.watch k (0, 0xFFFF) = SMap.getD s.reg.watch k (0, 0xFFFF)) ∧
  (∀ (s : State) (who : Fin 18) (d : Fin 16) (v : Word), CanWrite s who.val .REG_BOW d.val 0 v.toNat [F.REG_BOW_BOW_BASE, F.REG_BOW_BOW_LAST] →
    bowCheck s d.val (F.REG_BOW_BOW_BASE.val v.toNat) (F.REG_BOW_BOW_LAST.val v.toNat) (s.on F.REG_BOW_EN_BOW_EN d.val) (rbUsed s d.val) = .ok →
    ∃ t, exec (.bowRangeWrite false who d v) s = .next t ∧ lastResult t who.val = Code.ok.num ∧ t.on F.REG_BOW_EN_BOW_BUSY d.val = true ∧
      t.rd F.REG_BOW_BOW_BASE d.val = F.REG_BOW_BOW_BASE.val v.toNat ∧ t.rd F.REG_BOW_BOW_LAST d.val = F.REG_BOW_BOW_LAST.val v.toNat) ∧
  (∀ (s : State) (who : Fin 18) (d : Fin 16) (v : Word), CanWrite s who.val .REG_BOW_EN d.val 0 v.toNat [F.REG_BOW_EN_BOW_EN] →
    bowCheck s d.val (s.rd F.REG_BOW_BOW_BASE d.val) (s.rd F.REG_BOW_BOW_LAST d.val) (F.REG_BOW_EN_BOW_EN.hit v.toNat) (rbUsed s d.val) = .ok →
    ∃ t, exec (.bowRangeWrite true who d v) s = .next t ∧ lastResult t who.val = Code.ok.num ∧ t.on F.REG_BOW_EN_BOW_BUSY d.val = true ∧
      t.on F.REG_BOW_EN_BOW_EN d.val = F.REG_BOW_EN_BOW_EN.hit v.toNat) ∧
  (∀ (s : State) (who : Fin 18) (n : Fin 64) (v : Word),
    CanWrite s who.val .REG_RSV_A n.val 0 v.toNat [F.REG_RSV_A_RQ_RATE, F.REG_RSV_A_RKIND, F.REG_RSV_A_RDOM, F.REG_RSV_A_EN] →
    (∀ c, rsvCheck s n.val (F.REG_RSV_A_RQ_RATE.val v.toNat) (F.REG_RSV_A_RKIND.val v.toNat) (F.REG_RSV_A_RDOM.val v.toNat) (F.REG_RSV_A_EN.hit v.toNat) = c →
      ∃ t, exec (.reservationWrite who n v) s = .next t ∧ lastResult t who.val = c.num ∧
        (c = .ok → t.reg.grantNext.isSome = true ∧
          ∀ f ∈ [F.REG_RSV_A_RQ_RATE, F.REG_RSV_A_RKIND, F.REG_RSV_A_RDOM, F.REG_RSV_A_EN], t.rd f n.val = f.val v.toNat) ∧
        (c ≠ .ok → t.reg = s.reg ∧
          ∀ f ∈ [F.REG_RSV_A_RQ_RATE, F.REG_RSV_A_RKIND, F.REG_RSV_A_RDOM, F.REG_RSV_A_EN], t.rd f n.val = s.rd f n.val))) ∧
  (∀ (s : State) (who : Fin 18) (v : Word), CanWrite s who.val .REG_CTL 0 0 (withBits v.toNat [(F.REG_CTL_CNT_CLR, 1)]) [F.REG_CTL_CNT_CLR] →
    ∃ t, exec (.regCntClr who v) s = .next t ∧ lastResult t who.val = Code.ok.num ∧ t.reg = { s.reg with cnt := [] })

/-- O15. Cache operations, write-through, bypass, way disable and counters of a slice (R165; R166; R172; R173; R175; Table 7.7 (07_wide_cache.md)). -/
def Obligations.SliceRegisterWrites : Prop :=
  (∀ (s : State) (who : Fin 18) (sl : Fin 32) (v : Word),
    CanWrite s who.val .SCC_OPS_CMD sl.val 0 (withBits v.toNat [(F.SCC_OPS_CMD_OP, 1)])
      [F.SCC_OPS_CMD_OP, F.SCC_OPS_CMD_SCOPE, F.SCC_OPS_CMD_ODOM, F.SCC_OPS_CMD_OWAYS] →
    F.SCC_OPS_CMD_SCOPE.val v.toNat ≠ 3 → (F.SCC_OPS_CMD_SCOPE.val v.toNat = 2 → F.SCC_OPS_CMD_OWAYS.val v.toNat ≠ 0) →
    (s.sstate sl.val = ssOn ∨ s.sstate sl.val = ssDrain) →
    (SMap.get? s.scc.op sl.val = none → ∃ t, exec (.clean who sl v) s = .next t ∧ lastResult t who.val = Code.ok.num ∧
      SMap.get? t.scc.op sl.val = some (sliceOpOf 1 (F.SCC_OPS_CMD_SCOPE.val v.toNat) (F.SCC_OPS_CMD_ODOM.val v.toNat) (F.SCC_OPS_CMD_OWAYS.val v.toNat))) ∧
    ((SMap.get? s.scc.op sl.val).isSome = true →
      exec (.clean who sl v) s = .next (recordAcc s who.val true (regOffset .SCC_OPS_CMD sl.val 0) .busy 0))) ∧
  (∀ (s : State) (who : Fin 18) (sl : Fin 32) (v : Word),
    CanWrite s who.val .SCC_OPS_CMD sl.val 0 (withBits v.toNat [(F.SCC_OPS_CMD_OP, 2)])
      [F.SCC_OPS_CMD_OP, F.SCC_OPS_CMD_SCOPE, F.SCC_OPS_CMD_ODOM, F.SCC_OPS_CMD_OWAYS] →
    F.SCC_OPS_CMD_SCOPE.val v.toNat ≠ 3 → (F.SCC_OPS_CMD_SCOPE.val v.toNat = 2 → F.SCC_OPS_CMD_OWAYS.val v.toNat ≠ 0) →
    (s.sstate sl.val = ssOn ∨ s.sstate sl.val = ssDrain) →
    (SMap.get? s.scc.op sl.val = none → ∃ t, exec (.cleanInv who sl v) s = .next t ∧ lastResult t who.val = Code.ok.num ∧
      SMap.get? t.scc.op sl.val = some (sliceOpOf 2 (F.SCC_OPS_CMD_SCOPE.val v.toNat) (F.SCC_OPS_CMD_ODOM.val v.toNat) (F.SCC_OPS_CMD_OWAYS.val v.toNat))) ∧
    ((SMap.get? s.scc.op sl.val).isSome = true →
      exec (.cleanInv who sl v) s = .next (recordAcc s who.val true (regOffset .SCC_OPS_CMD sl.val 0) .busy 0))) ∧
  (∀ (s : State) (who : Fin 18) (sl : Fin 32) (v : Word),
    CanWrite s who.val .SCC_CTL sl.val 0 (withBits v.toNat [(F.SCC_CTL_WT, 1)]) [F.SCC_CTL_WT, F.SCC_CTL_BYPASS] → s.on F.SCC_CTL_WT sl.val = false →
    (F.SCC_CTL_BYPASS.hit v.toNat = s.on F.SCC_CTL_BYPASS sl.val) → s.on F.SCC_STAT_SFAULT sl.val = false → SMap.get? s.scc.op sl.val = none →
    s.sstate sl.val = ssOn →
    ∃ t, exec (.writeThroughSet who sl v) s = .next t ∧ lastResult t who.val = Code.ok.num ∧ t.on F.SCC_CTL_WT sl.val = true ∧
      SMap.get? t.scc.op sl.val = some (sliceOpOf 1 0 0 0)) ∧
  (∀ (s : State) (who : Fin 18) (sl : Fin 32) (v : Word), CanWrite s who.val .SCC_CTL sl.val 0 v.toNat [F.SCC_CTL_WT, F.SCC_CTL_BYPASS] →
    F.SCC_CTL_WT.hit v.toNat = false →
    (F.SCC_CTL_BYPASS.hit v.toNat = true → s.on F.SCC_CTL_BYPASS sl.val = false → s.sstate sl.val = ssOn →
      ∃ t, exec (.bypassWrite who sl v) s = .next t ∧ lastResult t who.val = Code.ok.num ∧ t.sstate sl.val = ssDrain ∧ t.on F.SCC_CTL_BYPASS sl.val = true) ∧
    (F.SCC_CTL_BYPASS.hit v.toNat = false → s.on F.SCC_CTL_BYPASS sl.val = true → s.on F.SCC_STAT_SFAULT sl.val = false → s.sstate sl.val = ssBypass →
      (s.fstate ≠ fDone ∨ s.rd F.TSV_FOLD_STAT_FOLDED_CH ≠ sl.val) →
      ∃ t, exec (.bypassWrite who sl v) s = .next t ∧ lastResult t who.val = Code.ok.num ∧ t.sstate sl.val = ssOn ∧ t.on F.SCC_CTL_BYPASS sl.val = false) ∧
    (F.SCC_CTL_BYPASS.hit v.toNat = false → (s.on F.SCC_STAT_SFAULT sl.val = true ∨ s.sstate sl.val = ssDrain) →
      exec (.bypassWrite who sl v) s = .next (recordAcc s who.val true (regOffset .SCC_CTL sl.val 0) .state 0))) ∧
  (∀ (s : State) (who : Fin 18) (sl : Fin 32) (v : Word), CanWrite s who.val .SCC_WAYS sl.val 0 v.toNat [F.SCC_WAYS_WAY_DIS] →
    ∃ t, exec (.wayDisableWrite who sl v) s = .next t ∧ lastResult t who.val = Code.ok.num ∧ ∀ w, w < 16 →
      bit (t.rd F.SCC_WAYS_WAY_DIS sl.val) w = (bit (s.rd F.SCC_WAYS_WAY_DIS sl.val) w || bit (F.SCC_WAYS_WAY_DIS.val v.toNat) w)) ∧
  (∀ (s : State) (who : Fin 18) (sl : Fin 32) (v : Word),
    CanWrite s who.val .SCC_CTL sl.val 0 (withBits v.toNat [(F.SCC_CTL_CNT_CLR, 1)]) [F.SCC_CTL_CNT_CLR, F.SCC_CTL_WT, F.SCC_CTL_BYPASS] →
    F.SCC_CTL_WT.hit v.toNat = false → F.SCC_CTL_BYPASS.hit v.toNat = s.on F.SCC_CTL_BYPASS sl.val →
    (F.SCC_CTL_BYPASS.hit v.toNat = true ∨ s.on F.SCC_STAT_SFAULT sl.val = false ∧ s.sstate sl.val ≠ ssDrain) →
    ∃ t, exec (.sccCntClr who sl v) s = .next t ∧ lastResult t who.val = Code.ok.num ∧ ∀ f ∈ [F.SCC_OPS_STAT_OPS_CNT, F.SCC_FAULT_UE_CNT, F.SCC_FAULT_TAG_FIX, F.SCC_RD_HIT_RD_HIT,
      F.SCC_RD_MISS_RD_MISS, F.SCC_WR_HIT_WR_HIT, F.SCC_WR_MISS_WR_MISS, F.SCC_WB_WB_SECT, F.SCC_ALLOC_FAIL_ALLOC_FAIL], t.rd f sl.val = 0)

/-- O16. CH_RST, TRAIN_GO, the stroke threshold, error injection, the integrity log and the counters of DMC, RFM and DIP (R189; R192; R196; R197; R206; R213; R234; R236; R238). -/
def Obligations.MemoryUnitWrites : Prop :=
  (∀ (s : State) (who : Fin 18) (ch : Fin 32) (v : Word), CanWrite s who.val .DMC_CTL ch.val 0 (withBits v.toNat [(F.DMC_CTL_CH_RST, 1)]) [F.DMC_CTL_CH_RST] →
    (s.cstate ch.val = 2 → s.pck.pow = .powerFail → ∃ t, exec (.chRst who ch v) s = .next t ∧ lastResult t who.val = Code.ok.num ∧ (t.dmcOf ch.val).hung = true ∧ t.cstate ch.val = 2) ∧
    (s.cstate ch.val = 2 → s.pck.pow ≠ .powerFail → ∃ t, exec (.chRst who ch v) s = .next t ∧ lastResult t who.val = Code.ok.num ∧ t.cstate ch.val = 3 ∧ t.rd F.DMC_HANG_STAT_HCAUSE ch.val = 3) ∧
    (s.cstate ch.val ≠ 2 → exec (.chRst who ch v) s = .next (recordAcc s who.val true (regOffset .DMC_CTL ch.val 0) .state 0))) ∧
  (∀ (s : State) (who : Fin 18) (ch : Fin 32) (v : Word), CanWrite s who.val .DMC_TRAIN_CTL ch.val 0 (withBits v.toNat [(F.DMC_TRAIN_CTL_TRAIN_GO, 1)]) [F.DMC_TRAIN_CTL_TRAIN_GO] →
    s.on F.MGT_QUIESCE_WE_STACK = true → s.cstate ch.val = 2 →
    ∃ t, exec (.trainGo who ch v) s = .next t ∧ lastResult t who.val = Code.ok.num ∧ t.cstate ch.val = 1 ∧ t.on F.DMC_TRAIN_STAT_TR_BUSY ch.val = true ∧
      ∃ x, (t.dmcOf ch.val).train = some x ∧ x.rank = 0 ∧ x.inRun = true ∧ x.ranks = [1, 2, 3]) ∧
  (∀ (s : State) (who : Fin 18) (ch : Fin 32) (v : Word), CanWrite s who.val .DMC_CTL ch.val 0 (withBits v.toNat [(F.DMC_CTL_CNT_CLR, 1)]) [F.DMC_CTL_CNT_CLR, F.DMC_CTL_CH_RST] → F.DMC_CTL_CH_RST.hit v.toNat = false →
    ∃ t, exec (.dmcCntClr who ch v) s = .next t ∧ lastResult t who.val = Code.ok.num ∧ (∀ f ∈ [F.DMC_RD_SECT_RD_SECT, F.DMC_WR_SECT_WR_SECT, F.DMC_ACT_CNT_ACT_CNT, F.DMC_HIT_CNT_HIT_CNT,
      F.DMC_EMPTY_CNT_EMPTY_CNT, F.DMC_CONF_CNT_CONF_CNT, F.DMC_DRAIN_CNT_DRAIN_CNT, F.DMC_WSUP_CNT_WSUP_CNT, F.DMC_HANG_STAT_TMO_CPL], t.rd f ch.val = 0) ∧
      ∀ k, k < 4 → t.rd F.DMC_RANK_PD_PD_ENTRIES ch.val k = 0) ∧
  (∀ (s : State) (who : Fin 18) (v : Word), CanWrite s who.val .RFM_CTL 0 0 v.toNat [F.RFM_CTL_ST_THR] → F.RFM_CTL_ST_THR.val v.toNat ≠ s.rd F.RFM_CTL_ST_THR →
    ∃ t, exec (.stThrWrite who v) s = .next t ∧ lastResult t who.val = Code.ok.num ∧ t.rfm.thrOld = s.rd F.RFM_CTL_ST_THR ∧ t.rfm.thrAt = s.now ∧
      t.rd F.RFM_CTL_ST_THR = F.RFM_CTL_ST_THR.val v.toNat) ∧
  (∀ (s : State) (who : Fin 18) (v : Word), CanWrite s who.val .RFM_CTL 0 0 (withBits v.toNat [(F.RFM_CTL_CNT_CLR, 1)]) [F.RFM_CTL_CNT_CLR] →
    ∃ t, exec (.rfmCntClr who v) s = .next t ∧ lastResult t who.val = Code.ok.num ∧ ∀ ch, ch < 32 → ∀ f ∈ [F.RFM_VQ_VQ_PEAK, F.RFM_VQ_RPT_UE, F.RFM_XING_XINGS, F.RFM_VREF_VREFS,
      F.RFM_REF_MAX_DEBT, F.RFM_REF_OVERDUE, F.RFM_REF_SLIPS], t.rd f ch = 0) ∧
  (∀ (s : State) (who : Fin 18) (v : Word), CanWrite s who.val .DIP_INJ 0 0 (withBits v.toNat [(F.DIP_INJ_INJ_ARM, 1)]) [F.DIP_INJ_INJ_ARM, F.DIP_INJ_INJ_CH, F.DIP_INJ_INJ_POS1, F.DIP_INJ_INJ_POS2, F.DIP_INJ_INJ_BEAT] →
    (s.on F.DIP_INJ_INJ_ARMED = false → ∃ t, exec (.injArm who v) s = .next t ∧ lastResult t who.val = Code.ok.num ∧ t.on F.DIP_INJ_INJ_ARMED = true ∧
      t.dip.inj = some (F.DIP_INJ_INJ_CH.val v.toNat, F.DIP_INJ_INJ_POS1.val v.toNat, F.DIP_INJ_INJ_POS2.val v.toNat, F.DIP_INJ_INJ_BEAT.val v.toNat)) ∧
    (s.on F.DIP_INJ_INJ_ARMED = true → exec (.injArm who v) s = .next (recordAcc s who.val true (regOffset .DIP_INJ 0 0) .state 0))) ∧
  (∀ (s : State) (who : Fin 18) (v : Word), CanWrite s who.val .DIP_LOG_POP 0 0 (withBits v.toNat [(F.DIP_LOG_POP_POP, 1)]) [F.DIP_LOG_POP_POP] →
    ∃ t, exec (.pop who v) s = .next t ∧ lastResult t who.val = Code.ok.num ∧ t.dip = { s.dip with log := s.dip.log.drop 1 }) ∧
  (∀ (s : State) (who : Fin 18) (v : Word), CanWrite s who.val .DIP_CTL 0 0 (withBits v.toNat [(F.DIP_CTL_CNT_CLR, 1)]) [F.DIP_CTL_CNT_CLR] →
    ∃ t, exec (.dipCntClr who v) s = .next t ∧ lastResult t who.val = Code.ok.num ∧ (∀ f ∈ [F.DIP_SCRUB_FIX_SCRUB_FIX, F.DIP_ARR_ARR_CE, F.DIP_ARR_ARR_UE], t.rd f = 0) ∧
      ∀ ch, ch < 32 → ∀ f ∈ [F.DIP_CE_CE_CNT, F.DIP_UE_UE_CNT, F.DIP_UE_POISON_RD, F.DIP_POS_ROW_TRIG], t.rd f ch = 0)

/-- O17. KILL, RPR_GO, FOLD_GO and the counters of a channel's TSV unit (R245; R251; R256; R260). -/
def Obligations.TierRegisterWrites : Prop :=
  (∀ (s : State) (who : Fin 18) (ch : Fin 32) (v : Word), CanWrite s who.val .TSV_CTL ch.val 0 (withBits v.toNat [(F.TSV_CTL_KILL, 1)]) [F.TSV_CTL_KILL, F.TSV_CTL_KILL_PHY] →
    (bit (phyDead s ch.val) (F.TSV_CTL_KILL_PHY.val v.toNat) = false → F.TSV_CTL_KILL_PHY.val v.toNat < 84 →
      ∃ t, exec (.kill who ch v) s = .next t ∧ lastResult t who.val = Code.ok.num ∧ bit (phyDead t ch.val) (F.TSV_CTL_KILL_PHY.val v.toNat) = true) ∧
    (bit (phyDead s ch.val) (F.TSV_CTL_KILL_PHY.val v.toNat) = true → exec (.kill who ch v) s = .next (recordAcc s who.val true (regOffset .TSV_CTL ch.val 0) .state 0))) ∧
  (∀ (s : State) (who : Fin 18) (ch : Fin 32) (v : Word), CanWrite s who.val .TSV_RPR_CTL ch.val 0 (withBits v.toNat [(F.TSV_RPR_CTL_RPR_GO, 1)]) [F.TSV_RPR_CTL_RPR_GO, F.TSV_RPR_CTL_RPR_RANK, F.TSV_RPR_CTL_RPR_BANK, F.TSV_RPR_CTL_RPR_ROW] →
    tstate s ch.val < 5 → foldSource s ch.val = false →
    (let bank := F.TSV_RPR_CTL_RPR_RANK.val v.toNat * 32 + F.TSV_RPR_CTL_RPR_BANK.val v.toNat
     let row := F.TSV_RPR_CTL_RPR_ROW.val v.toNat
     rprKnown s ch.val bank row = false →
     ((s.tsv.rprQ.filter (·.1 == ch.val)).length < 8 → ∃ t, exec (.rprGo who ch v) s = .next t ∧ lastResult t who.val = Code.ok.num ∧ t.tsv.rprQ = s.tsv.rprQ ++ [(ch.val, bank, row)]) ∧
     (8 ≤ (s.tsv.rprQ.filter (·.1 == ch.val)).length → exec (.rprGo who ch v) s = .next (recordAcc s who.val true (regOffset .TSV_RPR_CTL ch.val 0) .busy 0)))) ∧
  (∀ (s : State) (who : Fin 18) (v : Word), CanWrite s who.val .TSV_FOLD_CTL 0 0 (withBits v.toNat [(F.TSV_FOLD_CTL_FOLD_GO, 1)]) [F.TSV_FOLD_CTL_FOLD_GO, F.TSV_FOLD_CTL_FOLD_CH, F.TSV_FOLD_CTL_FR_MODE, F.TSV_FOLD_CTL_FOLD_AUTO] →
    F.TSV_FOLD_CTL_FR_MODE.hit v.toNat = true → s.on F.TSV_FOLD_CTL_FR_MODE = true → F.TSV_FOLD_CTL_FOLD_AUTO.val v.toNat = s.rd F.TSV_FOLD_CTL_FOLD_AUTO →
    (∀ n, n < 64 → s.on F.RQE_RGN_A_EN n = true → regionEnd s n (s.rd F.RQE_RGN_B_PBASE n) ≤ 0xF7FF) →
    (s.fstate = fReady ∧ s.cstate (F.TSV_FOLD_CTL_FOLD_CH.val v.toNat) ≠ 0 →
      ∃ t, exec (.foldGo who v) s = .next t ∧ lastResult t who.val = Code.ok.num ∧ t.fstate = fClean ∧ t.rd F.TSV_FOLD_STAT_FOLDED_CH = F.TSV_FOLD_CTL_FOLD_CH.val v.toNat ∧
        t.on F.DIP_SCRUB_STAT_SCRUB_PAUSED = true) ∧
    (s.fstate ≠ fReady → exec (.foldGo who v) s = .next (recordAcc s who.val true (regOffset .TSV_FOLD_CTL 0 0) .state 0))) ∧
  (∀ (s : State) (who : Fin 18) (ch : Fin 32) (v : Word), CanWrite s who.val .TSV_CTL ch.val 0 (withBits v.toNat [(F.TSV_CTL_CNT_CLR, 1)]) [F.TSV_CTL_CNT_CLR, F.TSV_CTL_KILL] → F.TSV_CTL_KILL.hit v.toNat = false →
    ∃ t, exec (.tsvCntClr who ch v) s = .next t ∧ lastResult t who.val = Code.ok.num ∧ ∀ f ∈ [F.TSV_DEAD_CAL_FAILS, F.TSV_DEAD_FAST_CNT, F.TSV_CAL_CNT_CAL_STEPS, F.TSV_DROP_DROP_WR,
      F.TSV_RPR_STAT_RPR_DONE, F.TSV_RPR_STAT_NOSPARE], t.rd f ch.val = 0)

/-- O18. Planned takeover, heartbeat, mailbox doorbell and data word, and stack weigh-enough (R263; R268; R271; R275; R276; R282). -/
def Obligations.ManagementRegisterWrites : Prop :=
  (∀ (s : State) (who : Fin 18) (v : Word), CanWrite s who.val .MGT_CTL 0 0 (withBits v.toNat [(F.MGT_CTL_TAKE, 1)]) [F.MGT_CTL_TAKE, F.MGT_CTL_STBY_EN] →
    (s.on F.MGT_CTL_STBY_EN = true → F.MGT_CTL_STBY_EN.hit v.toNat = false → exec (.take who v) s = .next (recordAcc s who.val true (regOffset .MGT_CTL 0 0) .state 0)) ∧
    (coreState s (!activeCore s) = 3 → inHand s = false → (s.on F.MGT_CTL_STBY_EN = false ∨ F.MGT_CTL_STBY_EN.hit v.toNat = true) → ∃ t, exec (.take who v) s = .next t ∧ lastResult t who.val = Code.ok.num ∧ activeCore t = !activeCore s ∧
      coreState t (activeCore t) = 2 ∧ t.rd F.MGT_TAKE_TCAUSE = 4) ∧
    (coreState s (!activeCore s) ≠ 3 → exec (.take who v) s = .next (recordAcc s who.val true (regOffset .MGT_CTL 0 0) .state 0))) ∧
  (∀ (s : State) (b : Bool),
    (b = activeCore s → CanWrite s 17 .MGT_HEART 0 0 1 [F.MGT_HEART_BEAT] → ∃ t, exec (.beat b) s = .next t ∧ (if b then t.mgt.beat.2 else t.mgt.beat.1) = s.now ∧
      (if b then t.mgt.beat.1 else t.mgt.beat.2) = (if b then s.mgt.beat.1 else s.mgt.beat.2)) ∧
    (b ≠ activeCore s → regsOpen s = true → (coreState s b = 3 ∨ coreState s b = 4) →
      exec (.beat b) s = .next { s with mgt.beat := if b then (s.mgt.beat.1, s.now) else (s.now, s.mgt.beat.2) })) ∧
  (∀ (s : State) (who : Fin 18) (m : Fin 17) (v : Word), m.val < 16 → CanWrite s who.val .MBX_DB m.val 0 v.toNat [F.MBX_DB_DB_SEQ] →
    (mstate s m.val = 1 → (F.MBX_DB_DB_SEQ.val v.toNat = expSeq s m.val ∨ cmdOpcode s m.val = 0x0100) →
      ∃ t, exec (.dbSeqWrite who m v) s = .next t ∧ lastResult t who.val = Code.ok.num ∧ mstate t m.val = 2 ∧ (t.mbx m.val).seq = F.MBX_DB_DB_SEQ.val v.toNat ∧ (t.mbx m.val).cmd = (s.mbx m.val).cmd) ∧
    (mstate s m.val = 2 → ∃ t, exec (.dbSeqWrite who m v) s = .next t ∧ lastResult t who.val = Code.ok.num ∧ mstate t m.val = 2 ∧ t.mbx m.val = s.mbx m.val)) ∧
  (∀ (s : State) (who : Fin 18) (v : Word), CanWrite s who.val .MBXS_DB 0 0 v.toNat [F.MBXS_DB_DB_SEQ] → mstate s 16 = 1 →
    (F.MBXS_DB_DB_SEQ.val v.toNat = expSeq s 16 ∨ cmdOpcode s 16 = 0x0100) →
    ∃ t, exec (.dbSeqWrite who 16 v) s = .next t ∧ lastResult t who.val = Code.ok.num ∧ mstate t 16 = 2 ∧ (t.mbx 16).seq = F.MBXS_DB_DB_SEQ.val v.toNat) ∧
  (∀ (s : State) (who : Fin 18) (m : Fin 17) (v : Word), m.val < 16 → CanWrite s who.val .MBX_DATA m.val 0 v.toNat [F.MBX_DATA_MDATA] → s.on F.MBX_PTR_MBUF m.val = false →
    mstate s m.val ≠ 2 → ∃ t, exec (.mdataAccess who m true v) s = .next t ∧ lastResult t who.val = Code.ok.num ∧
      (t.mbx m.val).cmd = bufPut (s.mbx m.val).cmd (s.rd F.MBX_PTR_MOFS m.val / 4 * 4) (leBytes 4 v.toNat) ∧ (t.mbx m.val).resp = (s.mbx m.val).resp ∧
      t.rd F.MBX_PTR_MOFS m.val = nextMofs (s.rd F.MBX_PTR_MOFS m.val)) ∧
  (∀ (s : State) (who : Fin 18) (m : Fin 17) (v : Word), m.val < 16 → CanRead s who.val .MBX_DATA m.val 0 [F.MBX_DATA_MDATA] →
    ∃ t, exec (.mdataAccess who m false v) s = .next t ∧ lastResult t who.val = Code.ok.num ∧ t.mbx m.val = s.mbx m.val ∧
      t.rd F.MBX_PTR_MOFS m.val = nextMofs (s.rd F.MBX_PTR_MOFS m.val)) ∧
  (∀ (s : State) (who : Fin 18) (v : Word), CanWrite s who.val .MGT_QUIESCE 0 0 v.toNat [F.MGT_QUIESCE_WE_STACK] →
    (F.MGT_QUIESCE_WE_STACK.hit v.toNat = true → ∃ t, exec (.weStackWrite who v) s = .next t ∧ lastResult t who.val = Code.ok.num ∧ t.on F.MGT_QUIESCE_WE_STACK = true) ∧
    (F.MGT_QUIESCE_WE_STACK.hit v.toNat = false → (∀ g, g < 16 → SMap.getD s.rqe.waiting g [] = []) →
      ∃ t, exec (.weStackWrite who v) s = .next t ∧ lastResult t who.val = Code.ok.num ∧ t.on F.MGT_QUIESCE_WE_STACK = false ∧ t.rqe = s.rqe ∧ t.mem = s.mem))

/-- O19. WRST, the staged scratch word, PLOCK and PUNLOCK, and the registers of the fault and report unit (R300; R301; R303; R309; R312; R316; R322; R358). -/
def Obligations.GlobalRegisterWrites : Prop :=
  (∀ (s : State) (who : Fin 18) (v : Word), CanWrite s who.val .GLB_CTL 0 0 (withBits v.toNat [(F.GLB_CTL_WRST, 1)]) [F.GLB_CTL_WRST] → s.pck.wrstDue = none →
    ∃ t, exec (.wrst who v) s = .next t ∧ lastResult t who.val = Code.ok.num ∧ t.pck = { s.pck with wrstDue := some (s.now + usec, 1) } ∧ t.mem = s.mem ∧ t.link = s.link) ∧
  (∀ (s : State) (who : Fin 18) (v : Word) (lo : Nat), CanWrite s who.val .GLB_SCRATCH_HI 0 0 v.toNat [F.GLB_SCRATCH_HI_SCR_HI] → SMap.get? s.glb.latch who.val = some lo →
    ∃ t, exec (.scratchHighWrite who v) s = .next t ∧ lastResult t who.val = Code.ok.num ∧ t.rd F.GLB_SCRATCH_HI_SCR_HI = v.toNat ∧ t.rd F.GLB_SCRATCH_LO_SCR_LO = lo % 2 ^ 32 ∧
      SMap.get? t.glb.latch who.val = none) ∧
  (∀ (s : State) (who : Fin 18) (v : Word), CanWrite s who.val .GLB_PLOCK 0 0 v.toNat [F.GLB_PLOCK_PLOCK] → s.wearAt (pregIdx 5) < wearLimit → s.pst.only = false →
    (∀ k, k < 8 → bit (F.GLB_PLOCK_PLOCK.val v.toNat) k = true → bit (s.rd F.GLB_PLOCK_PLOCK) k = false →
      ∃ t, exec (.plockSet who v) s = .next t ∧ pregPending t who.val = true ∧ t.rd F.GLB_PLOCK_PLOCK = s.rd F.GLB_PLOCK_PLOCK) ∧
    ((∀ k, k < 8 → bit (F.GLB_PLOCK_PLOCK.val v.toNat) k = true → bit (s.rd F.GLB_PLOCK_PLOCK) k = true) →
      ∃ t, exec (.plockSet who v) s = .next t ∧ lastResult t who.val = Code.ok.num ∧ t.rd F.GLB_PLOCK_PLOCK = s.rd F.GLB_PLOCK_PLOCK)) ∧
  (∀ (s : State) (who : Fin 18) (v : Word), CanWrite s who.val .GLB_PLOCK_CLR 0 0 v.toNat [F.GLB_PLOCK_CLR_PUNLOCK] → s.wearAt (pregIdx 5) < wearLimit → s.pst.only = false →
    Nat.land (s.rd F.GLB_PLOCK_PLOCK) (F.GLB_PLOCK_CLR_PUNLOCK.val v.toNat) ≠ 0 →
    who.val = 16 ∧ s.mgt.auth = true ∧ ∃ t, exec (.punlock who v) s = .next t ∧ pregPending t who.val = true ∧ t.rd F.GLB_PLOCK_PLOCK = s.rd F.GLB_PLOCK_PLOCK) ∧
  (∀ (s : State) (who : Fin 18) (v : Word), CanWrite s who.val .FCR_CTL 0 0 (withBits v.toNat [(F.FCR_CTL_CNT_CLR, 1)]) [F.FCR_CTL_CNT_CLR] →
    ∃ t, exec (.fcrCntClr who v) s = .next t ∧ lastResult t who.val = Code.ok.num ∧ t.rd F.FCR_LOG_CNT_LOG_DROP = 0 ∧ t.rd F.FCR_LOG_CNT_SVC_LOST = 0 ∧ t.rd F.FCR_ALERT_ALERT_CNT = 0 ∧
      ∀ d, d < 16 → t.rd F.FCR_DOM_DLOST d = 0) ∧
  (∀ (s : State) (who : Fin 18) (v : Word), CanWrite s who.val .FCR_FF_CLR 0 0 (withBits v.toNat [(F.FCR_FF_CLR_FF_CLR, 1)]) [F.FCR_FF_CLR_FF_CLR] →
    (s.rd F.FCR_STAT_XSTATE ≠ 1 → ∃ t, exec (.ffClr who v) s = .next t ∧ lastResult t who.val = Code.ok.num ∧ t.on F.FCR_FF_FF_VALID = false ∧ t.rd F.FCR_FF_OVF_FF_OVF_CNT = 0 ∧
      t.rd F.FCR_FF_FF_MERGE = 0) ∧
    (s.rd F.FCR_STAT_XSTATE = 1 → exec (.ffClr who v) s = .next (recordAcc s who.val true (regOffset .FCR_FF_CLR 0 0) .state 0))) ∧
  (∀ (s : State) (who : Fin 18) (v : Word), CanWrite s who.val .FCR_RAISE 0 0 (withBits v.toNat [(F.FCR_RAISE_RAISE_GO, 1)]) [F.FCR_RAISE_RAISE_GO, F.FCR_RAISE_RAISE_SRC, F.FCR_RAISE_RAISE_SEV] → F.FCR_RAISE_RAISE_SRC.val v.toNat ≤ 286 →
    ∃ t, exec (.raiseGo who v) s = .next t ∧ lastResult t who.val = Code.ok.num ∧
      (reaches (sevOf (F.FCR_RAISE_RAISE_SEV.val v.toNat)) (s.rd F.FCR_SRC_ALERT_MIN (F.FCR_RAISE_RAISE_SRC.val v.toNat)) = true → t.on F.FCR_ALERT_ALERT = true) ∧
      (grave (sevOf (F.FCR_RAISE_RAISE_SEV.val v.toNat)) = true → t.on F.FCR_FF_FF_VALID = true)) ∧
  (∀ (s : State) (who : Fin 18) (v : Word), CanWrite s who.val .FCR_ALERT 0 0 (withBits v.toNat [(F.FCR_ALERT_ALERT, 1)]) [F.FCR_ALERT_ALERT] →
    ∃ t, exec (.alertClear who v) s = .next t ∧ lastResult t who.val = Code.ok.num ∧ t.on F.FCR_ALERT_ALERT = false ∧ t.rd F.FCR_ALERT_ALERT_SRC = s.rd F.FCR_ALERT_ALERT_SRC)

/-- O20. CAL_GO, MODE, MCK_SEL, no-sleep votes, the service link's enable, de-authentication and service transfers (R346; R374; R376; R380; R390; R404; R435; R438; R441; R442). -/
def Obligations.PowerAndServiceWrites : Prop :=
  (∀ (s : State) (who : Fin 18) (v : Word), CanWrite s who.val .CST_CAL_CTL 0 0 (withBits v.toNat [(F.CST_CAL_CTL_CAL_GO, 1)]) [F.CST_CAL_CTL_CAL_GO, F.CST_CAL_CTL_RUN_MASK] →
    (s.pck.pow = .run → s.cst.run = none → ∃ t, exec (.calGo who v) s = .next t ∧ lastResult t who.val = Code.ok.num ∧ t.on F.CST_CAL_STAT_CAL_BUSY = true ∧
      t.cst.run = some (F.CST_CAL_CTL_RUN_MASK.val v.toNat, none)) ∧
    (s.pck.pow = .run → s.cst.run.isSome = true → exec (.calGo who v) s = .next (recordAcc s who.val true (regOffset .CST_CAL_CTL 0 0) .busy 0)) ∧
    (s.pck.pow ≠ .run → exec (.calGo who v) s = .next (recordAcc s who.val true (regOffset .CST_CAL_CTL 0 0) .state 0))) ∧
  (∀ (s : State) (who : Fin 18) (v : Word), CanWrite s who.val .PCK_MODE 0 0 v.toNat [F.PCK_MODE_MODE] →
    (s.pck.commit.isSome = true → ∃ t, exec (.modeWrite who v) s = .next t ∧ lastResult t who.val = Code.ok.num ∧ t.pck.wfi = decide (F.PCK_MODE_MODE.val v.toNat ≠ 0)) ∧
    (s.pck.commit = none → exec (.modeWrite who v) s = .next (recordAcc s who.val true (regOffset .PCK_MODE 0 0) .state 0))) ∧
  (∀ (s : State) (who : Fin 18) (v : Word), CanWrite s who.val .PCK_CLK 0 0 (withBits v.toNat [(F.PCK_CLK_MCK_SEL, 1)]) [F.PCK_CLK_MCK_SEL] →
    (s.on F.PCK_CLK_MCK_LOCK = true → ∃ t, exec (.mckSelWrite who v) s = .next t ∧ lastResult t who.val = Code.ok.num ∧ t.on F.PCK_CLK_MCK_SEL = true) ∧
    (s.on F.PCK_CLK_MCK_LOCK = false → exec (.mckSelWrite who v) s = .next (recordAcc s who.val true (regOffset .PCK_CLK 0 0) .state 0))) ∧
  (∀ (s : State) (who : Fin 18) (d : Fin 16) (v : Word), CanWrite s who.val .PCK_VOTE d.val 0 v.toNat [F.PCK_VOTE_NOSLEEP] →
    ∃ t, exec (.nosleepWrite who d v) s = .next t ∧ lastResult t who.val = Code.ok.num ∧ t.rd F.PCK_VOTE_NOSLEEP d.val = F.PCK_VOTE_NOSLEEP.val v.toNat ∧
      ∀ e, e ≠ d.val → e < 16 → t.rd F.PCK_VOTE_NOSLEEP e = s.rd F.PCK_VOTE_NOSLEEP e) ∧
  (∀ (s : State) (who : Fin 18) (v : Word), CanWrite s who.val .PCK_CTL 0 0 (withBits v.toNat [(F.PCK_CTL_CNT_CLR, 1)]) [F.PCK_CTL_CNT_CLR] →
    ∃ t, exec (.pckCntClr who v) s = .next t ∧ lastResult t who.val = Code.ok.num ∧ t.rd F.PCK_REFUSE_REFUSALS = 0 ∧ t.pck.rlog = [] ∧
      ∀ k, k < 8 → t.rd F.PCK_REFCNT_REF_N k = 0 ∧ t.rd F.PCK_REFCNT_ABORT_N k = 0) ∧
  (∀ (s : State) (who : Fin 18) (v : Word), CanWrite s who.val .THM_CTL 0 0 (withBits v.toNat [(F.THM_CTL_CNT_CLR, 1)]) [F.THM_CTL_CNT_CLR] → ∃ t, exec (.thmCntClr who v) s = .next t ∧ lastResult t who.val = Code.ok.num ∧ t.rd F.THM_CNT_THR_MS = 0 ∧ t.thm.tmax = []) ∧
  (∀ (s : State) (who : Fin 18) (v : Word), CanWrite s who.val .SVC_CTL 0 0 v.toNat [F.SVC_CTL_SVC_EN] → s.on F.SVC_CTL_SVC_EN = true → F.SVC_CTL_SVC_EN.hit v.toNat = false →
    ∃ t, exec (.svcEnWrite who v) s = .next t ∧ lastResult t who.val = Code.ok.num ∧ t.on F.SVC_CTL_SVC_EN = false ∧ t.rd F.SVC_STAT_SLSTATE = 0 ∧ t.on F.SVC_STAT_USB_CFG = false ∧
      t.mgt.auth = false ∧ t.svc.xfer = none) ∧
  (∀ (s : State) (who : Fin 18) (v : Word), CanWrite s who.val .SVC_CTL 0 0 (withBits v.toNat [(F.SVC_CTL_DEAUTH, 1)]) [F.SVC_CTL_DEAUTH, F.SVC_CTL_SVC_EN] → ∃ t, exec (.deauth who v) s = .next t ∧ lastResult t who.val = Code.ok.num ∧ t.mgt.auth = false ∧
      (s.mgt.auth = true → t.svc.xfer = none)) ∧
  (∀ (s : State) (who : Fin 18) (v : Word), CanWrite s who.val .SVC_DRN_CTL 0 0 (withBits v.toNat [(F.SVC_DRN_CTL_DRN_GO, 1)]) [F.SVC_DRN_CTL_DRN_GO, F.SVC_DRN_CTL_DRN_OP, F.SVC_DRN_CTL_DRN_ABORT] → F.SVC_DRN_CTL_DRN_ABORT.hit v.toNat = false →
    drnAddr s + 4096 * s.rd F.SVC_DRN_LEN_DRN_LEN ≤ devLimit s → s.rd F.SVC_DRN_LEN_DRN_LEN ≠ 0 → s.on F.SVC_STAT_MEM_RDY = true → (s.pck.pow = .run ∨ s.pck.pow = .idle) →
    (s.on F.SVC_DRN_STAT_DRN_BUSY = false → ∃ t, exec (.drnGo who v) s = .next t ∧ lastResult t who.val = Code.ok.num ∧ t.on F.SVC_DRN_STAT_DRN_BUSY = true ∧ t.rd F.SVC_DRN_DONE_DRN_DONE = 0 ∧
      ∃ x, t.svc.xfer = some x ∧ x.fill = (F.SVC_DRN_CTL_DRN_OP.val v.toNat == 2) ∧ x.addr = drnAddr s ∧ x.left = s.rd F.SVC_DRN_LEN_DRN_LEN) ∧
    (s.on F.SVC_DRN_STAT_DRN_BUSY = true → exec (.drnGo who v) s = .next (recordAcc s who.val true (regOffset .SVC_DRN_CTL 0 0) .busy 0))) ∧
  (∀ (s : State) (who : Fin 18) (v : Word), CanWrite s who.val .SVC_DRN_CTL 0 0 (withBits v.toNat [(F.SVC_DRN_CTL_DRN_ABORT, 1)]) [F.SVC_DRN_CTL_DRN_ABORT, F.SVC_DRN_CTL_DRN_GO] → F.SVC_DRN_CTL_DRN_GO.hit v.toNat = false →
    s.svc.xfer.isSome = true → ∃ t, exec (.drnAbort who v) s = .next t ∧ lastResult t who.val = Code.ok.num ∧ t.svc.xfer = none ∧ t.on F.SVC_DRN_STAT_DRN_BUSY = false ∧
      t.rd F.SVC_DRN_STAT_DRN_RES = Code.state.num)

/-- O21. A register write is applied whole or refused whole, and the access record shows its result (R10; R12; R288; R291; R294; R295; R298). -/
def Obligations.AccessIsCheckedWholeOrNothing : Prop :=
  (∀ (s : State) (who : Fin 18) (off : BitVec 24) (v : Word), regsOpen s = true → pregPending s who.val = false → regAt off.toNat = none →
    exec (.registerWrite who off v) s = .next (recordAcc s who.val true off.toNat .ok 0)) ∧
  (∀ (s : State) (who : Fin 18) (off : BitVec 24) (v : Word) (r : RegId) (i j : Nat), regsOpen s = true → pregPending s who.val = false →
    regAt off.toNat = some (r, i, j) →
    (r.info.flds.any (mayField (letters s r who.val (ownIdx r who.val i) true)) = false →
      exec (.registerWrite who off v) s = .next (recordAcc s who.val true off.toNat .privilege 0)) ∧
    (r.info.flds.any (mayField (letters s r who.val (ownIdx r who.val i) true)) = true → (writeHook s who.val r i j v.toNat).1 ≠ .privilege →
      (r.info.flds.any fun f => mayField (letters s r who.val (ownIdx r who.val i) true) f && illegal f v.toNat) = true →
      exec (.registerWrite who off v) s = .next (recordAcc s who.val true off.toNat .badValue 0)) ∧
    (r.info.flds.any (mayField (letters s r who.val (ownIdx r who.val i) true)) = true →
      (r.info.flds.any fun f => mayField (letters s r who.val (ownIdx r who.val i) true) f && illegal f v.toNat) = false →
      (writeHook s who.val r i j v.toNat).1 = .ok →
      inWindow s who.val r (ownIdx r who.val i) j (mayField (letters s r who.val (ownIdx r who.val i) true)) = false →
      pregLocked s r (ownIdx r who.val i) = false → clockStopped s r (ownIdx r who.val i) = true →
      exec (.registerWrite who off v) s = .next (recordAcc s who.val true off.toNat .state 0))) ∧
  (∀ (s : State) (who : Fin 18) (g : Fin 16) (v : Word), CanWrite s who.val .HLP_PAT_USER g.val 0 v.toNat [F.HLP_PAT_USER_PATTERN] →
    ∃ t, exec (.registerWrite who (BitVec.ofNat 24 (regOffset .HLP_PAT_USER g.val 0)) v) s = .next t ∧ lastResult t who.val = Code.ok.num ∧ t.rd F.HLP_PAT_USER_PATTERN g.val = v.toNat ∧
      t.rd F.GLB_LAS_LA_WR who.val = 1 ∧ t.rd F.GLB_LAS_LA_OFS who.val = regOffset .HLP_PAT_USER g.val 0 / 4 ∧
      ∀ k, k < 16 → k ≠ g.val → t.rd F.HLP_PAT_USER_PATTERN k = s.rd F.HLP_PAT_USER_PATTERN k)

/-- O22. The byte offset of every register instance of the spec's tables names that instance, and no other (R286; R294; R304; 13_register_interface.md). -/
def Obligations.RegisterMapFindsEveryRegister : Prop :=
  ∀ (r : RegId) (i j b : Nat), r.info.lo1 ≤ i → i < r.info.n1 → j < r.info.n2 → b < 4 →
    regAt (regOffset r i j + b) = some (r, (if r.info.s1 = 0 then 0 else i), j)

/-- O23. A flit that fails FEC or CRC is answered with NAK once; the expected one is accepted; another number is discarded (R52; R53; R58; R60). -/
def Obligations.FlitsAreCheckedAndSequenced : Prop :=
  (∀ (s : State) (g : Fin 16) (raw : List Byte), hears s g.val = true → FecQuiet s g.val (slice raw 0 256) →
    ((flitFec (slice raw 0 256)).1 = none ∨ ∃ fl, (flitFec (slice raw 0 256)).1 = some fl ∧ flitCrcOk fl = false) →
    ∃ t, exec (.flitReceive g raw) s = .next t ∧ t.mem = s.mem ∧ t.rqe = s.rqe ∧
      ((s.grp g.val).nakOut = false → (s.grp g.val).nakCnt + 1 < s.rd F.HLL_CTL_NAK_LIMIT →
        (t.grp g.val).nakOut = true ∧ (t.grp g.val).nakCnt = (s.grp g.val).nakCnt + 1 ∧ (t.grp g.val).rxExp = (s.grp g.val).rxExp ∧ (t.grp g.val).inSvc = true) ∧
      ((s.grp g.val).nakOut = true → (t.grp g.val).nakCnt = (s.grp g.val).nakCnt ∧ (t.grp g.val).rxExp = (s.grp g.val).rxExp ∧ (t.grp g.val).inSvc = true)) ∧
  (∀ (s : State) (g : Fin 16) (raw fl : List Byte), hears s g.val = true → FecQuiet s g.val (slice raw 0 256) →
    (flitFec (slice raw 0 256)).1 = some fl → flitCrcOk fl = true →
    bits (leAt fl 0 2) 2 4 = 1 → bits (leAt fl 0 2) 6 10 = (s.grp g.val).rxExp → (s.grp g.val).needStart = false → (s.grp g.val).partBuf = [] →
    (fl.drop 2).take 242 = List.replicate 242 0xFF → s.link.vc2Hold = [] →
    ∃ t, exec (.flitReceive g raw) s = .next t ∧ (t.grp g.val).rxExp = ((s.grp g.val).rxExp + 1) % 1024 ∧ (t.grp g.val).nakOut = false ∧
      (t.grp g.val).nakCnt = 0 ∧ (t.grp g.val).unrep = true ∧ (t.grp g.val).partBuf = [] ∧ t.mem = s.mem ∧ t.rqe = s.rqe) ∧
  (∀ (s : State) (g : Fin 16) (raw fl : List Byte), hears s g.val = true → FecQuiet s g.val (slice raw 0 256) →
    (flitFec (slice raw 0 256)).1 = some fl → flitCrcOk fl = true →
    bits (leAt fl 0 2) 2 4 = 1 → bits (leAt fl 0 2) 6 10 ≠ (s.grp g.val).rxExp →
    ∃ t, exec (.flitReceive g raw) s = .next t ∧ (t.grp g.val).rxExp = (s.grp g.val).rxExp ∧ (t.grp g.val).nakOut = (s.grp g.val).nakOut ∧
      (t.grp g.val).inSvc = true ∧ t.mem = s.mem ∧ t.rqe = s.rqe) ∧
  (∀ (s : State) (g : Fin 16), hears s g.val = true → (s.grp g.val).nakOut = true →
    ∃ t, exec (.nakRepeatTimeout g) s = .next t ∧
      ((s.grp g.val).nakCnt + 1 < s.rd F.HLL_CTL_NAK_LIMIT → (t.grp g.val).nakCnt = (s.grp g.val).nakCnt + 1 ∧ (t.grp g.val).inSvc = true) ∧
      (s.rd F.HLL_CTL_NAK_LIMIT ≤ (s.grp g.val).nakCnt + 1 → (t.grp g.val).inSvc = false ∧ (t.grp g.val).gst = .detect))

/-- O24. STATUS is sent when due and releases what it acknowledges; NAK replays from EXP; CONFIG sets the partner's pools (R57; R59; R64; R65). -/
def Obligations.StatusNakAndConfigItems : Prop :=
  (∀ s : State, (statusDue s = true → ∃ t, exec .statusSend s = .next t ∧ t.link.lastStatus = some s.now ∧ t.link.credUnrep = false ∧ t.link.vc2Unrep = false ∧
      (∀ g, g < 16 → ackMember s g = true → (t.grp g).unrep = false) ∧ t.regs = s.regs ∧ t.mem = s.mem) ∧
    (statusDue s = false → exec .statusSend s = .next s)) ∧
  (∀ (s : State) (g : Fin 16) (vc1 : BitVec 32) (vc2 : BitVec 16), hears s g.val = true →
    ∃ t, exec (.status g 0 [] vc1 vc2) s = .next t ∧ t.link.vc1Last = vc1.toNat ∧ t.link.vc2Last = vc2.toNat ∧
      t.link.vc1Avail = s.link.vc1Avail + (vc1.toNat + 2 ^ 32 - s.link.vc1Last) % 2 ^ 32 ∧ t.mem = s.mem ∧ t.regs = s.regs) ∧
  (∀ (s : State) (g n : Fin 16) (a k : Nat) (vc1 : BitVec 32) (vc2 : BitVec 16), hears s g.val = true → (s.grp n.val).dir = true → a < 1024 →
    (s.grp n.val).replay.findIdx? (·.fseq == a) = some k →
    ∃ t rest, exec (.status g (BitVec.ofNat 16 (2 ^ n.val)) [a] vc1 vc2) s = .next t ∧ (t.grp n.val).txAcked = a ∧ (t.grp n.val).replaying = none ∧
      (t.grp n.val).replay = (s.grp n.val).replay.drop (k + 1) ++ rest) ∧
  (∀ (s : State) (g n : Fin 16) (e : BitVec 10) (k : Nat), hears s g.val = true → (s.grp n.val).dir = true → (s.grp n.val).inSvc = true →
    (s.grp n.val).replaying = none → (s.grp n.val).replay.findIdx? (·.fseq == e.toNat) = some k →
    ∃ t flips rest, exec (.nak g n e) s = .next t ∧ t.mem = s.mem ∧ flips.length = ((s.grp n.val).replay.drop k).length ∧
      ((s.grp n.val).injAct = false → (s.grp n.val).injBurst = 0 → ∀ x ∈ flips, x = []) ∧
      t.out = s.out ++ (if (s.grp n.val).gst = .quiet then [Out.square n.val] else []) ++
        List.zipWith (fun f x => Out.flit n.val f.fseq f.ftype f.area x) ((s.grp n.val).replay.drop k) flips ++ rest) ∧
  (∀ (s : State) (g : Fin 16) (vc1 : BitVec 20) (vc2 : BitVec 12), hears s g.val = true →
    ∃ t, exec (.config g vc1 vc2) s = .next t ∧ t.link.cfgRx = some (vc1.toNat, vc2.toNat) ∧ t.regs = s.regs ∧ t.mem = s.mem ∧
      (s.link.cfgRx = none → t.link.vc1Avail = vc1.toNat)) ∧
  (∀ (s : State) (g : Nat), s.link.homeD = some g →
    (s.link.cfgDue = true → ∃ t, exec .configSend s = .next t ∧ t.link.cfgDue = false ∧ t.link.cfgSent = true ∧ t.regs = s.regs ∧ t.mem = s.mem) ∧
    (s.link.cfgDue = false → exec .configSend s = .next s))

/-- O25. A turn: the partner's request, the answer to the stack's own, and the steps of Table 3.8 (R69; R74; R75; R105; Table 3.8 (03_flits_replay_and_turns.md)). -/
def Obligations.TurnsFollowTheirTable : Prop :=
  (∀ (s : State) (g tg : Fin 16) (dir : Bool) (q : BitVec 16), hears s g.val = true → s.link.cfgRx.isSome = true → roomVc2 s 0 1 = true →
    vc2Waits s g.val = false → s.link.holdLost = false →
    (s.link.turnReq = none → turnCheck s tg.val dir = .ok → ∃ t x, exec (.turn g tg dir q) s = .next t ∧ t.link.turn = some x ∧ x.grp = tg.val ∧ x.dir = dir ∧
      x.tseq = q.toNat ∧ x.byStack = false ∧ (t.grp tg.val).gst = .turn) ∧
    (s.link.turnReq = none → turnCheck s tg.val dir ≠ .ok → ∃ t, exec (.turn g tg dir q) s = .next t ∧ t.link.turn = s.link.turn ∧ t.link.turnReq = none) ∧
    (s.link.turnReq.isSome = true → s.link.turn = none → ∃ t, exec (.turn g tg dir q) s = .next t ∧ t.link.turnReq = none ∧
      t.rd F.HLL_TURN_TURN_RES = Code.busy.num ∧
      (turnCheck { s with link.turnReq := none } tg.val dir = .ok → ∃ x, t.link.turn = some x ∧ x.grp = tg.val ∧ x.dir = dir ∧ x.byStack = false))) ∧
  (∀ (s : State) (g tg : Fin 16) (dir : Bool) (q : BitVec 16) (res : BitVec 8) (own : Turn), hears s g.val = true → s.link.cfgRx.isSome = true →
    roomVc2 s 0 1 = true → vc2Waits s g.val = false → s.link.holdLost = false → s.link.turnReq = some own →
    (own.tseq = q.toNat → res.toNat = 0 → ∃ t x, exec (.turnAck g tg dir q res) s = .next t ∧ t.link.turn = some x ∧ x.grp = own.grp ∧ x.dir = own.dir ∧
      t.link.turnReq = none) ∧
    (own.tseq = q.toNat → res.toNat ≠ 0 → ∃ t, exec (.turnAck g tg dir q res) s = .next t ∧ t.link.turn = s.link.turn ∧ t.link.turnReq = none ∧
      t.rd F.HLL_TURN_TURN_RES = res.toNat) ∧
    (own.tseq ≠ q.toNat → ∃ t, exec (.turnAck g tg dir q res) s = .next t ∧ t.link.turn = s.link.turn ∧ t.link.turnReq = some own)) ∧
  (∀ (s : State) (own : Turn), s.link.turnReq = some own →
    (s.link.vc2Out.contains (turnBytes 0x80 own.grp own.dir own.tseq 0) = true → exec .turnAckTimeout s = .next s) ∧
    (s.link.vc2Out.contains (turnBytes 0x80 own.grp own.dir own.tseq 0) = false → ∃ t, exec .turnAckTimeout s = .next t ∧
      t.rd F.HLL_TURN_TURN_RES = Code.timeout.num ∧
      (2 ≤ (inService s false).length → 2 ≤ (inService s true).length → t.link = { s.link with turnReq := none }))) ∧
  (∀ (s : State) (x : Turn), s.link.turn = some x → x.step = .last → ((s.grp x.grp).dir = true → (s.grp x.grp).replay = []) →
    ∃ t, exec .turnLastAccept s = .next t ∧ t.link.turn = some { x with step := .quietLine }) ∧
  (∀ (s : State) (x : Turn), s.link.turn = some x → x.step = .quietLine → x.grp < 16 → (s.grp x.grp).dir = false → (s.grp x.grp).gst = .turn →
    (s.grp x.grp).inSvc = true → x.dir = true → s.on F.HLP_CTL_TEST x.grp = false → 2 ≤ (inService s false).length →
    ∃ t flips rest, exec .turnSquelchDetect s = .next t ∧ (t.grp x.grp).dir = true ∧ (t.grp x.grp).gst = .active ∧ t.link.turn = none ∧
      t.out = s.out ++ [Out.square x.grp, Out.alignWord x.grp, Out.flit x.grp 0 2 [] flips] ++ rest)

/-- O26. Link-ready is reported with two groups in each direction, the partner's pools and no request left from before a loss (R65; R68; R134). -/
def Obligations.LinkReadyNeedsTwoGroupsEachWay : Prop :=
  (∀ (s : State) (a b : Nat), s.link.up = false → s.link.cfgRx = some (a, b) → 1024 ≤ a → 64 ≤ b →
    (s.rqe.reqs.any fun r => r.iss == .host && r.prior) = false → 2 ≤ (inService s false).length → 2 ≤ (inService s true).length →
    ∃ t, exec .linkReady s = .next t ∧ t.link.up = true ∧ t.link.everUp = true ∧ (s.link.everUp = true → t.fcr.eseq = []) ∧ t.mem = s.mem ∧ t.rqe = s.rqe) ∧
  (∀ s : State, s.link.up = false → ((inService s false).length < 2 ∨ (inService s true).length < 2 ∨
      (s.rqe.reqs.any fun r => r.iss == .host && r.prior) = true ∨ s.link.cfgRx = none) → exec .linkReady s = .next s)

/-- O27. RD, WR and WRP that pass the checks and find room become entries of the request buffer (R90; R91; R115; R123). -/
def Obligations.ReadsWritesAndMergesAreAdmitted : Prop :=
  (∀ (s : State) (h : ReqHdr) (len : Fin 4) (na md : Bool) (p : Vc0), p = { vc0Head h 0x00 with len := len.val, na := na, md := md } → Heard s h.grp.val p → IdsRise s → admitCheck s p = .ok →
    hasRoom s .rd p = true → ∃ t r, exec (.rd h len na md) s = .next t ∧ r ∈ t.rqe.reqs ∧ r.id = s.rqe.nextId ∧ r.p = p ∧ r.op = .rd ∧ r.iss = .host ∧
      r.sent = false ∧ t.rqe.nextId = s.rqe.nextId + 1 ∧ t.on F.RQE_STAT_ADMITTED = true) ∧
  (∀ (s : State) (h : ReqHdr) (len : Fin 4) (na md : Bool) (mdx data : List Byte) (p : Vc0), p = { vc0Head h 0x10 with len := len.val, na := na, md := md, mdx := mdx, data := data } → Heard s h.grp.val p → IdsRise s → admitCheck s p = .ok →
    hasRoom s .wr p = true → ∃ t r, exec (.wr h len na md mdx data) s = .next t ∧ r ∈ t.rqe.reqs ∧ r.id = s.rqe.nextId ∧ r.p = p ∧ r.op = .wr ∧ r.iss = .host ∧
      r.sent = false ∧ t.rqe.nextId = s.rqe.nextId + 1 ∧ t.on F.RQE_STAT_ADMITTED = true) ∧
  (∀ (s : State) (h : ReqHdr) (mask : BitVec 64) (data : List Byte) (p : Vc0), p = { vc0Head h 0x11 with mask := mask.toNat, data := data } → Heard s h.grp.val p → IdsRise s → admitCheck s p = .ok →
    hasRoom s .wrp p = true → ∃ t r, exec (.wrp h mask data) s = .next t ∧ r ∈ t.rqe.reqs ∧ r.id = s.rqe.nextId ∧ r.p = p ∧ r.op = (if p.mask = 2 ^ 64 - 1 then .wr else .wrp) ∧ r.iss = .host ∧
      r.sent = false ∧ t.rqe.nextId = s.rqe.nextId + 1 ∧ t.on F.RQE_STAT_ADMITTED = true)

/-- O28. AFADD, ASWAP, ACAS, AAND and AOR that pass the checks and find room become entries of the request buffer (R92; R115; R123). -/
def Obligations.AtomicsAreAdmitted : Prop :=
  (∀ (s : State) (h : ReqHdr) (wsel : Fin 8) (opnd : BitVec 64) (p : Vc0), p = { vc0Head h 0x20 with wsel := wsel.val, opnd := opnd.toNat } → Heard s h.grp.val p → IdsRise s → admitCheck s p = .ok →
    hasRoom s .afadd p = true → ∃ t r, exec (.afadd h wsel opnd) s = .next t ∧ r ∈ t.rqe.reqs ∧ r.id = s.rqe.nextId ∧ r.p = p ∧ r.op = .afadd ∧ r.iss = .host ∧
      r.sent = false ∧ t.rqe.nextId = s.rqe.nextId + 1 ∧ t.on F.RQE_STAT_ADMITTED = true) ∧
  (∀ (s : State) (h : ReqHdr) (wsel : Fin 8) (opnd : BitVec 64) (p : Vc0), p = { vc0Head h 0x21 with wsel := wsel.val, opnd := opnd.toNat } → Heard s h.grp.val p → IdsRise s → admitCheck s p = .ok →
    hasRoom s .aswap p = true → ∃ t r, exec (.aswap h wsel opnd) s = .next t ∧ r ∈ t.rqe.reqs ∧ r.id = s.rqe.nextId ∧ r.p = p ∧ r.op = .aswap ∧ r.iss = .host ∧
      r.sent = false ∧ t.rqe.nextId = s.rqe.nextId + 1 ∧ t.on F.RQE_STAT_ADMITTED = true) ∧
  (∀ (s : State) (h : ReqHdr) (wsel : Fin 8) (opnd : BitVec 64) (p : Vc0), p = { vc0Head h 0x23 with wsel := wsel.val, opnd := opnd.toNat } → Heard s h.grp.val p → IdsRise s → admitCheck s p = .ok →
    hasRoom s .aand p = true → ∃ t r, exec (.aand h wsel opnd) s = .next t ∧ r ∈ t.rqe.reqs ∧ r.id = s.rqe.nextId ∧ r.p = p ∧ r.op = .aand ∧ r.iss = .host ∧
      r.sent = false ∧ t.rqe.nextId = s.rqe.nextId + 1 ∧ t.on F.RQE_STAT_ADMITTED = true) ∧
  (∀ (s : State) (h : ReqHdr) (wsel : Fin 8) (opnd : BitVec 64) (p : Vc0), p = { vc0Head h 0x24 with wsel := wsel.val, opnd := opnd.toNat } → Heard s h.grp.val p → IdsRise s → admitCheck s p = .ok →
    hasRoom s .aor p = true → ∃ t r, exec (.aor h wsel opnd) s = .next t ∧ r ∈ t.rqe.reqs ∧ r.id = s.rqe.nextId ∧ r.p = p ∧ r.op = .aor ∧ r.iss = .host ∧
      r.sent = false ∧ t.rqe.nextId = s.rqe.nextId + 1 ∧ t.on F.RQE_STAT_ADMITTED = true) ∧
  (∀ (s : State) (h : ReqHdr) (wsel : Fin 8) (opnd swapv : BitVec 64) (p : Vc0), p = { vc0Head h 0x22 with wsel := wsel.val, opnd := opnd.toNat, swapv := swapv.toNat } → Heard s h.grp.val p → IdsRise s → admitCheck s p = .ok →
    hasRoom s .acas p = true → ∃ t r, exec (.acas h wsel opnd swapv) s = .next t ∧ r ∈ t.rqe.reqs ∧ r.id = s.rqe.nextId ∧ r.p = p ∧ r.op = .acas ∧ r.iss = .host ∧
      r.sent = false ∧ t.rqe.nextId = s.rqe.nextId + 1 ∧ t.on F.RQE_STAT_ADMITTED = true)

/-- O29. FLUSH, ZERO and FENCE that pass the checks and find room become entries; a refused packet is answered and uses no number (R63; R65; R82; R93; R94; R111; R116). -/
def Obligations.RangesAndFencesAreAdmitted : Prop :=
  (∀ (s : State) (h : ReqHdr) (inv : Bool) (rcnt : BitVec 24) (p : Vc0), p = { vc0Head h 0x30 with opf := inv, rcnt := rcnt.toNat } → Heard s h.grp.val p → IdsRise s → admitCheck s p = .ok →
    hasRoom s .flush p = true → ∃ t r, exec (.flush h inv rcnt) s = .next t ∧ r ∈ t.rqe.reqs ∧ r.id = s.rqe.nextId ∧ r.p = p ∧ r.op = .flush ∧ r.iss = .host ∧
      r.sent = false ∧ t.rqe.nextId = s.rqe.nextId + 1 ∧ t.on F.RQE_STAT_ADMITTED = true) ∧
  (∀ (s : State) (h : ReqHdr) (rcnt : BitVec 24) (p : Vc0), p = { vc0Head h 0x31 with rcnt := rcnt.toNat } → Heard s h.grp.val p → IdsRise s → admitCheck s p = .ok →
    hasRoom s .zero p = true → ∃ t r, exec (.zero h rcnt) s = .next t ∧ r ∈ t.rqe.reqs ∧ r.id = s.rqe.nextId ∧ r.p = p ∧ r.op = .zero ∧ r.iss = .host ∧
      r.sent = false ∧ t.rqe.nextId = s.rqe.nextId + 1 ∧ t.on F.RQE_STAT_ADMITTED = true) ∧
  (∀ (s : State) (h : ReqHdr) (all : Bool) (p : Vc0), p = { vc0Head h 0x32 with ord := false, addr := 0, opf := all } → Heard s h.grp.val p → IdsRise s → admitCheck s p = .ok →
    hasRoom s .fence p = true → ∃ t r, exec (.fence h all) s = .next t ∧ r ∈ t.rqe.reqs ∧ r.id = s.rqe.nextId ∧ r.p = p ∧ r.op = .fence ∧ r.iss = .host ∧
      r.sent = false ∧ t.rqe.nextId = s.rqe.nextId + 1 ∧ t.on F.RQE_STAT_ADMITTED = true) ∧
  (∀ (s : State) (h : ReqHdr) (len : Fin 4) (na md : Bool) (p : Vc0) (c : Code), p = { vc0Head h 0x00 with len := len.val, na := na, md := md } →
    Heard s h.grp.val p → admitCheck s p = c → c ≠ .ok →
    ∃ t, exec (.rd h len na md) s = .next t ∧ t.rqe.rejQ = s.rqe.rejQ ++ [cplBytes h.tag.toNat h.dom.val c] ∧ t.rqe.reqs = s.rqe.reqs ∧
      t.rqe.nextId = s.rqe.nextId ∧ t.mem = s.mem) ∧
  (∀ (s : State) (h : ReqHdr) (opc : Fin 64) (len : Fin 4), reservedOp opc.val = true → Heard s h.grp.val { vc0Head h opc.val with len := len.val } →
    ∃ t, exec (.reservedVc0Opcode h opc len) s = .next t ∧ t.rqe.rejQ = s.rqe.rejQ ++ [cplBytes h.tag.toNat h.dom.val .badOpcode] ∧
      t.rqe.reqs = s.rqe.reqs ∧ t.rqe.nextId = s.rqe.nextId) ∧
  (∀ (s : State) (h : ReqHdr) (all : Bool) (p : Vc0), p = { vc0Head h 0x32 with ord := false, addr := 0, opf := all } → hears s h.grp.val = true →
    (s.link.up = false ∨ roomVc0 s p.dom (cellsOf (vc0Len p)) = false) →
    ∃ t, exec (.fence h all) s = .next t ∧ (t.grp h.grp.val).inSvc = false ∧ t.rqe.nextId = s.rqe.nextId)

/-- O30. A waiting packet is taken when it can be; requests are issued to the unit of their operation (R117; R128; R130; R131; R132). -/
def Obligations.WaitingPacketsAndIssue : Prop :=
  (∀ (s : State) (g : Fin 16) (p : Vc0) (o : ROp), SMap.getD s.rqe.waiting g.val [] = [p] → IdsRise s → s.rqe.rejQ.length < 256 → rqeOpen s = true →
    cycleFree s = true → admitCheck s p = .ok → opOf p.opc = some o → hasRoom s o p = true →
    ∃ t r, exec (.waitingPacketAdmit g) s = .next t ∧ SMap.getD t.rqe.waiting g.val [] = [] ∧ r ∈ t.rqe.reqs ∧ r.id = s.rqe.nextId ∧
      t.rqe.nextId = s.rqe.nextId + 1) ∧
  (∀ (s : State) (id : Nat) (outs : List Nat) (r : Req), findReq s id = some r →
    (ordBlocked s r = true ∨ fenceBlocked s r = true) → exec (.requestIssue id outs) s = .next s) ∧
  (∀ (s : State) (id : Nat) (outs : List Nat) (r : Req), findReq s id = some r → (s.pck.pow = .run ∨ s.pck.pow = .idle ∨ s.pck.pow = .entering) →
    s.pck.fabDown = false → ordBlocked s r = false → fenceBlocked s r = false → (r.iss = .host → s.dip.ctxLost.contains r.p.bow = false) →
    ((r.op = .flush ∨ r.op = .zero) → r.performed = false →
      (r.issued = true ∨ (s.rqe.reqs.filter fun q => (q.op == .flush || q.op == .zero) && q.issued && !q.performed).length < 4 ∧
        (s.rqe.reqs.find? fun q => (q.op == .flush || q.op == .zero) && !q.issued && !q.performed).map (·.id) = some r.id) →
      ∃ t q, exec (.requestIssue id outs) s = .next t ∧ findReq t id = some q ∧ q.issued = true ∧ q.op = r.op) ∧
    ((isAtomic r.op = true ∨ r.op = .wrp ∧ r.pend ≠ []) → r.issued = false → mayWrite s r.id (rmwSector r) = true →
      rowHeld s (place s (rmwSector r)).1 (place s (rmwSector r)).2 = false → fillPending s (place s (rmwSector r)).1 (place s (rmwSector r)).2 = false →
      (s.dmcOf (place s (rmwSector r)).1).rmw.length + b2n (s.dmcOf (place s (rmwSector r)).1).unitSc.isSome < 16 →
      (s.dmcOf (place s (rmwSector r)).1).rmw.any (·.sec == rmwSector r) = false →
      ((s.dmcOf (place s (rmwSector r)).1).unitSc.any fun u => u.1 == sectorAt s (place s (rmwSector r)).1 (place s (rmwSector r)).2) = false →
      ∃ t q hit, exec (.requestIssue id outs) s = .next t ∧
        (t.dmcOf (place s (rmwSector r)).1).rmw = (s.dmcOf (place s (rmwSector r)).1).rmw ++ [{ req := r.id, sec := rmwSector r, hit := hit }] ∧
        findReq t id = some q ∧ q.issued = true ∧ q.op = r.op) ∧
    (r.op = .rd → r.issued = false → r.performed = false → r.sent = false → hazard s r = false →
      ((sectorsOf r).any fun x => rowHeld s (place s x).1 (place s x).2) = false →
      ∃ t q, exec (.requestIssue id outs) s = .next t ∧ findReq t id = some q ∧ q.issued = true) ∧
    (r.op = .wr → r.visible = true → r.sent = false →
      ∃ t q, exec (.requestIssue id outs) s = .next t ∧ findReq t id = some q ∧ q.issued = true))

/-- O31. Completions leave in VC1; atomics, merges and ranges end with theirs (R92; R98; R123; R128; R132; R194; R225). -/
def Obligations.CompletionsArePlacedAndMemoryAnswers : Prop :=
  (∀ (s : State) (g : Fin 16) (n : Nat) (form : CplForm), NoneWaits s →
    (n < s.rqe.rejQ.length →
      (vc1Room s g.val (s.rqe.rejQ.getD n []) = true → ∃ t, exec (.completionPlace g n form) s = .next t ∧ t.rqe.rejQ = s.rqe.rejQ.eraseIdx n ∧
        t.link.vc1Avail = s.link.vc1Avail - cellsOf (s.rqe.rejQ.getD n []).length) ∧
      (vc1Room s g.val (s.rqe.rejQ.getD n []) = false → exec (.completionPlace g n form) s = .next s)) ∧
    (∀ (r : Req) (c : Cpl), s.rqe.rejQ.length ≤ n → (readyReqs s)[n - s.rqe.rejQ.length]? = some r → r.prior = false → r.cpl = some c →
      (form ≠ .wack ∨ r.op ≠ .wr ∨ c.status ≠ .ok) →
      (vc1Room s g.val (completionBytes r c) = true → ∃ t, exec (.completionPlace g n form) s = .next t ∧ (∀ q ∈ t.rqe.reqs, q.id = r.id → q.sent = true) ∧
        ((r.op = .rd → ∀ k, (bufferFindings form).getD k 0 ≠ 2) → t.link.vc1Avail = s.link.vc1Avail - cellsOf (completionBytes r c).length)) ∧
      (vc1Room s g.val (completionBytes r c) = false → exec (.completionPlace g n form) s = .next s)) ∧
    (∀ (r : Req) (c : Cpl), s.rqe.rejQ.length ≤ n → (readyReqs s)[n - s.rqe.rejQ.length]? = some r → r.prior = false → r.cpl = some c →
      form = .wack → r.op = .wr → c.status = .ok →
      (vc1Room s g.val (wackBytes r.p.dom ((wackGroup s r).map (·.p.tag))) = true → ∃ t, exec (.completionPlace g n form) s = .next t ∧
        (∀ p ∈ wackGroup s r, ∀ q ∈ t.rqe.reqs, q.id = p.id → q.sent = true) ∧
        t.link.vc1Avail = s.link.vc1Avail - cellsOf (wackBytes r.p.dom ((wackGroup s r).map (·.p.tag))).length) ∧
      (vc1Room s g.val (wackBytes r.p.dom ((wackGroup s r).map (·.p.tag))) = false → exec (.completionPlace g n form) s = .next s))) ∧
  (∀ (s : State) (id : Nat) (out : Fin 3) (err : List Nat) (r : Req), findReq s id = some r → isAtomic r.op = true → r.performed = false → r.sent = false →
    rmwReady s (place s (rmwSector r)).1 id = true →
    ((deadChannel s (place s (rmwSector r)).1 = true ∨ r.bad.contains (rmwSector r) = true) →
      ∃ t q, exec (.atomicPerform id out err) s = .next t ∧ findReq t id = some q ∧ q.performed = true ∧ q.pend = [] ∧
        q.cpl = some { status := .uncorrectable, old := 0 }) ∧
    (deadChannel s (place s (rmwSector r)).1 = false → r.bad.contains (rmwSector r) = false → rmwMissed s (place s (rmwSector r)).1 (place s (rmwSector r)).2 id = false →
      ∀ u x k bs way, rmwRead s (place s (rmwSector r)).1 (place s (rmwSector r)).2 out.val (if r.iss = .host then some r.p.dom else none) (fun b => err.getD b 0) false =
          (u, x, k, bs, way) →
      ((staysInSlice u (place s (rmwSector r)).1 (place s (rmwSector r)).2 way = true ∨ writeSlot u (place s (rmwSector r)).1 (place s (rmwSector r)).2 = true) →
        ∃ t q c, exec (.atomicPerform id out err) s = .next t ∧ findReq t id = some q ∧ q.performed = true ∧ q.pend = [] ∧ q.cpl = some c ∧
          (k ≠ .uncorrectable → bit x.md 0 = false → c.old = leAt x.data (8 * r.p.wsel) 8)) ∧
      (k ≠ .uncorrectable → bit x.md 0 = false → staysInSlice u (place s (rmwSector r)).1 (place s (rmwSector r)).2 way = false →
        writeSlot u (place s (rmwSector r)).1 (place s (rmwSector r)).2 = false → exec (.atomicPerform id out err) s = .next s))) ∧
  (∀ (s : State) (id : Nat) (out : Fin 3) (err : List Nat) (r : Req), findReq s id = some r → r.op = .wrp → r.sent = false →
    rmwReady s (place s (rmwSector r)).1 id = true →
    (deadChannel s (place s (rmwSector r)).1 = true ∨ rmwMissed s (place s (rmwSector r)).1 (place s (rmwSector r)).2 id = false ∧
      ∀ u x k bs way, rmwRead s (place s (rmwSector r)).1 (place s (rmwSector r)).2 out.val (if r.iss = .host then some r.p.dom else none) (fun b => err.getD b 0) true =
          (u, x, k, bs, way) →
        (staysInSlice u (place s (rmwSector r)).1 (place s (rmwSector r)).2 way = true ∨ writeSlot u (place s (rmwSector r)).1 (place s (rmwSector r)).2 = true)) →
    ∃ t q, exec (.mergePerform id out err) s = .next t ∧ findReq t id = some q ∧ q.pend = [] ∧ q.cpl.isSome = true) ∧
  (∀ (s : State) (id : Nat) (r : Req), findReq s id = some r → (r.op = .flush ∨ r.op = .zero) → r.issued = true → r.performed = false → r.sent = false →
    (r.todo = [] → r.tmo = none → rangeAt s id = [] → ∃ t q c, exec (.rangeWorkDone id) s = .next t ∧ findReq t id = some q ∧ q.performed = true ∧
      q.cpl = some c ∧ (c.status = .ok ∨ c.status = .degraded)) ∧
    (∀ ch, r.todo = [] → r.tmo = some ch → (∀ x ∈ rangeAt s id, x = ch) → ∃ t q c, exec (.rangeWorkDone id) s = .next t ∧ findReq t id = some q ∧
      q.performed = true ∧ q.cpl = some c ∧ c.status = .timeout) ∧
    ((r.todo ≠ [] ∨ r.tmo = none ∧ rangeAt s id ≠ []) → exec (.rangeWorkDone id) s = .next s)) ∧
  (∀ w opnd swapv : Nat, atomicNew .afadd w opnd swapv = (w + opnd) % 2 ^ 64 ∧ atomicNew .aswap w opnd swapv = opnd ∧
    atomicNew .acas w w swapv = swapv ∧ (w ≠ opnd → atomicNew .acas w opnd swapv = w) ∧ ∀ k, (atomicNew .aand w opnd swapv).testBit k = (w.testBit k && opnd.testBit k) ∧
      (atomicNew .aor w opnd swapv).testBit k = (w.testBit k || opnd.testBit k))

/-- O32. The urgency of every queued request is recomputed; a 1 µs window begins with what was computed for it (R144; R145; R150). -/
def Obligations.RegulatorTicks : Prop :=
  (∀ s : State, exec .urgencyRecompute s = .next { s with rqe.reqs := s.rqe.reqs.map fun r => { r with ustep := urgency s r } }) ∧
  (∀ s : State, ∃ t, exec .reservationWindow s = .next t ∧ t.reg.rsvBytes = [] ∧ t.reg.meter = 0 ∧ t.reg.theta = s.reg.thetaNext ∧ t.reg.sNext = none ∧
    t.reg.grantNext = none ∧ t.reg.cnt = s.reg.cnt ∧ t.mem = s.mem ∧ t.rqe = s.rqe) ∧
  (∀ (s : State) (v : Nat) (ovc fold : Bool) (hot none0 : Nat), s.reg.sNext = some (v, ovc, fold, hot, none0) →
    ∃ t, exec .reservationWindow s = .next t ∧ t.rd F.REG_S_S_EST = v % 2 ^ F.REG_S_S_EST.w ∧ t.on F.REG_S_OVC = ovc)

/-- O33. Fills, decodes, faults, drains, the crossing, cache operations and victims of a slice (R159; R164; R166; R170; R171; R173; Table 7.4 (07_wide_cache.md)). -/
def Obligations.CacheEvents : Prop :=
  (∀ (s : State) (ch : Fin 32) (c w : Nat) (x : Option Sector) (k : Code) (rest : List (Nat × Option Sector × Code)), (s.dmcOf ch.val).fills = (c, x, k) :: rest →
    wayOf s ch.val c = some w → (s.line ch.val (setOf c) w).st (halfOf c) = 1 →
    ∃ t, exec (.cacheFillArrive ch) s = .next t ∧ (t.dmcOf ch.val).fills = rest ∧ t.mem = s.mem ∧
      (∀ d, x = some d → (t.line ch.val (setOf c) w).st (halfOf c) = 2 ∧ (t.line ch.val (setOf c) w).sect (halfOf c) = d) ∧
      (x = none → (t.line ch.val (setOf c) w).st (halfOf c) = 0)) ∧
  (∀ (s : State) (sl : Fin 32) (set : BitVec 12) (way : Fin 16) (half : Fin 2) (out : Fin 3),
    (out ≠ 2 → exec (.sliceReadDecode sl set way half out) s = .next s) ∧
    (out = 2 → 2 ≤ (s.line sl.val set.toNat way.val).st half.val →
      ∃ t, exec (.sliceReadDecode sl set way half out) s = .next t ∧ (t.line sl.val set.toNat way.val).st half.val = 0)) ∧
  (∀ (s : State) (sl : Fin 32) (cause : Fin 5), cause.val ≠ 0 → s.on F.SCC_STAT_SFAULT sl.val = false → s.sstate sl.val ≠ ssOff →
    ∃ t, exec (.sliceFault sl cause) s = .next t ∧ t.on F.SCC_STAT_SFAULT sl.val = true ∧ t.rd F.SCC_STAT_FCAUSE sl.val = cause.val ∧
      (s.sstate sl.val = ssOn → t.sstate sl.val = ssDrain) ∧ (s.sstate sl.val = ssBypass → t.sstate sl.val = ssBypass) ∧
      (s.sstate sl.val = ssDrain → t.sstate sl.val = ssDrain) ∧ (s.sstate sl.val = ssFlush → t.sstate sl.val = ssFlush)) ∧
  (∀ (s : State) (sl : Fin 32),
    (s.sstate sl.val = ssDrain → (deadChannel s sl.val = true ∨ dirtyLines s sl.val = 0 ∧ s.victims sl.val = []) →
      ∃ t, exec (.sliceDrainComplete sl) s = .next t ∧ t.sstate sl.val = ssBypass) ∧
    ((s.sstate sl.val ≠ ssDrain ∨ deadChannel s sl.val = false ∧ (dirtyLines s sl.val ≠ 0 ∨ s.victims sl.val ≠ [])) →
      exec (.sliceDrainComplete sl) s = .next s)) ∧
  (∀ (s : State) (sl : Fin 32) (a b c : Fin 3) (m : BitVec 6), s.sstate sl.val ≠ ssOff → s.sstate sl.val ≠ ssRetain →
    ∃ t, exec (.crossingTrack sl a b c m) s = .next t ∧ t.rd F.SCC_XING_STAT_MARGIN sl.val = m.toNat ∧
      t.rd F.SCC_XING_CLK_DLY sl.val = (let v := s.rd F.SCC_XING_CLK_DLY sl.val; if a = 1 then min (v + 1) 63 else if a = 2 then v - 1 else v) % 2 ^ F.SCC_XING_CLK_DLY.w ∧
      (m.toNat < s.rd F.SCC_XING_STAT_MARGIN_LIM sl.val → t.on F.SCC_STAT_SFAULT sl.val = true)) ∧
  (∀ (s : State) (sl : Fin 32) (o : SliceOp), SMap.get? s.scc.op sl.val = some o → (s.sstate sl.val = ssOn ∨ s.sstate sl.val = ssDrain) → deadChannel s sl.val = false →
    (opNext s sl.val o = none → ∃ t, exec (.cacheOpComplete sl) s = .next t ∧ SMap.get? t.scc.op sl.val = none ∧ t.rd F.SCC_OPS_STAT_OPS_RES sl.val = Code.ok.num) ∧
    ((opNext s sl.val o).isSome = true → exec (.cacheOpComplete sl) s = .next s)) ∧
  (∀ (s : State) (sl : Fin 32) (v : Victim), deadChannel s sl.val = false → ((s.victims sl.val).find? fun v => v.s0.isNone && v.s1.isNone) = some v →
    ∃ t, exec (.victimWritebackDone sl) s = .next t ∧ t.victims sl.val = (s.victims sl.val).erase v)

/-- O34. A DCK cycle, a read burst, the power states of a rank, strobe tracking and the hang reset of a channel (R177; R186; R188; R191; R192; R193; R196; R199; R200; Table 8.2 (08_dram_channels.md); Table 8.5 (08_dram_channels.md)). -/
def Obligations.DramCyclesBurstsAndHangs : Prop :=
  (∀ (s : State) (ch : Fin 32), (s.cstate ch.val = 2 → (s.dmcOf ch.val).hung = false → ∃ t, exec (.bankSchedule ch) s = .next t ∧ (t.dmcOf ch.val).cyc = (s.dmcOf ch.val).cyc + 1) ∧
    ((s.cstate ch.val ≠ 2 ∧ s.cstate ch.val ≠ 1 ∨ (s.dmcOf ch.val).hung = true) → exec (.bankSchedule ch) s = .next s) ∧
    (∀ (b : Nat) (a : Nat) (rest : List Nat), b < 128 → OnlyRefresh s ch.val → (∀ r, r < 4 → ((s.dmcOf ch.val).rankOf r).pdeDue = none) →
      (∀ c, c < 128 → c ≠ b → ((s.dmcOf ch.val).bankOf c).owed = [] ∧ ((s.dmcOf ch.val).bankOf c).vref = none) →
      ((s.dmcOf ch.val).bankOf b).owed = a :: rest → ((s.dmcOf ch.val).bankOf b).vref = none → ((s.dmcOf ch.val).bankOf b).row = none →
      ((s.dmcOf ch.val).bankOf b).actOk ≤ (s.dmcOf ch.val).cyc + 1 → pstate s ch.val (b / 32) = 1 → ((s.dmcOf ch.val).rankOf (b / 32)).cmdOk ≤ (s.dmcOf ch.val).cyc + 1 →
      ∃ t, exec (.bankSchedule ch) s = .next t ∧ ((t.dmcOf ch.val).bankOf b).owed = rest ∧ ((t.dmcOf ch.val).bankOf b).rptr = (((s.dmcOf ch.val).bankOf b).rptr + 1) % 4096 ∧
        ((t.dmcOf ch.val).bankOf b).actOk = (s.dmcOf ch.val).cyc + 1 + tRFC) ∧
    (∀ (r : Fin 4) (a : Nat), OnlyRefresh s ch.val → ((s.dmcOf ch.val).rankOf r.val).pdeDue = some a → a ≤ (s.dmcOf ch.val).cyc + 1 →
      (∀ q, q < r.val → ((s.dmcOf ch.val).rankOf q).pdeDue = none) →
      ∃ t, exec (.bankSchedule ch) s = .next t ∧ pstate t ch.val r.val = 2 ∧ ((t.dmcOf ch.val).rankOf r.val).pdeDue = none ∧ t.mem = s.mem)) ∧
  (∀ (s : State) (ch : Fin 32) (err : List Nat) (e : DEnt) (c : Nat) (rest : List (DEnt × Nat)), (s.dmcOf ch.val).fly = (e, c) :: rest →
    (c + 22 ≤ (s.dmcOf ch.val).cyc → ∃ t, exec (.readDataReturn ch err) s = .next t ∧ (t.dmcOf ch.val).fly = rest) ∧
    ((s.dmcOf ch.val).cyc < c + 22 → exec (.readDataReturn ch err) s = .next s)) ∧
  (∀ s : State, ∃ t, exec .bgPromoteExpiry s = .next t ∧ t.mem = s.mem ∧ t.rqe = s.rqe ∧ ∀ ch, ch < 32 → (t.dmcOf ch).q.length = (s.dmcOf ch).q.length ∧
    ∀ e ∈ (s.dmcOf ch).q, ∀ r, findReq s e.req = some r →
      (r.iss ≠ .host → e.at' + s.rd F.DMC_HANG_BG_PROMOTE ch * 1600 ≤ (s.dmcOf ch).cyc → { e with promoted := true } ∈ (t.dmcOf ch).q) ∧
      (r.iss = .host → e ∈ (t.dmcOf ch).q)) ∧
  (∀ (s : State) (ch : Fin 32) (rank : Fin 4), s.on F.DMC_CTL_PD_EN ch.val = true → s.cstate ch.val = 2 → pstate s ch.val rank.val = 1 → rankWork s ch.val rank.val = false →
    ((s.dmcOf ch.val).rankOf rank.val).pdeDue = none → tickNear (s.dmcOf ch.val) rank.val = false → rowFree (s.dmcOf ch.val) = true →
    ((s.dmcOf ch.val).rankOf rank.val).busyAt + s.rd F.DMC_CTL_PD_IDLE ch.val ≤ (s.dmcOf ch.val).cyc →
    (∀ k, k < 32 → ((s.dmcOf ch.val).bankOf (32 * rank.val + k)).row.isSome = true → preOk s ch.val (s.dmcOf ch.val) (32 * rank.val + k) = true) →
    ∃ t, exec (.powerDownEntry ch rank) s = .next t ∧ ((t.dmcOf ch.val).rankOf rank.val).pdeDue = some ((s.dmcOf ch.val).cyc + tRP) ∧ t.mem = s.mem ∧
      ∀ k, k < 32 → ((t.dmcOf ch.val).bankOf (32 * rank.val + k)).row = none) ∧
  (∀ (s : State) (ch : Fin 32) (rank : Fin 4), pstate s ch.val rank.val = 2 → rankWork s ch.val rank.val = true → rowFree (s.dmcOf ch.val) = true →
    ((s.dmcOf ch.val).rankOf rank.val).pde + tCKE ≤ (s.dmcOf ch.val).cyc →
    ∃ t, exec (.powerDownExit ch rank) s = .next t ∧ pstate t ch.val rank.val = 1 ∧ ((t.dmcOf ch.val).rankOf rank.val).cmdOk = (s.dmcOf ch.val).cyc + tXP) ∧
  (∀ (s : State) (ch : Fin 32) (stateCheck : Bool), s.cstate ch.val = 2 →
    (s.pck.pow ≠ .powerFail → stateCheck = true → ∃ t, exec (.hangDetect ch stateCheck) s = .next t ∧ t.cstate ch.val = 3 ∧ t.rd F.DMC_HANG_STAT_HCAUSE ch.val = 2) ∧
    (s.pck.pow ≠ .powerFail → stateCheck = false → unperformed (s.dmcOf ch.val) = true → (s.dmcOf ch.val).cmdAt + s.rd F.DMC_HANG_HANG_TMO ch.val * usec ≤ s.now →
      ∃ t, exec (.hangDetect ch stateCheck) s = .next t ∧ t.cstate ch.val = 3 ∧ t.rd F.DMC_HANG_STAT_HCAUSE ch.val = 1 ∧
        (t.dmcOf ch.val).q = [] ∧ (t.dmcOf ch.val).fly = [] ∧ ∀ r, r < 4 → pstate t ch.val r = 3) ∧
    (s.pck.pow = .powerFail → stateCheck = true → exec (.hangDetect ch stateCheck) s = .next (s.setDmc ch.val { s.dmcOf ch.val with hung := true })) ∧
    (stateCheck = false → (unperformed (s.dmcOf ch.val) = false ∨ s.now < (s.dmcOf ch.val).cmdAt + s.rd F.DMC_HANG_HANG_TMO ch.val * usec) →
      exec (.hangDetect ch stateCheck) s = .next s)) ∧
  (∀ (s : State) (ch : Fin 32), s.cstate ch.val = 3 → ∃ t, exec (.hangResetComplete ch) s = .next t ∧ t.cstate ch.val = 2 ∧ (t.dmcOf ch.val).wq = (s.dmcOf ch.val).wq ∧
    (t.dmcOf ch.val).force = (!(s.dmcOf ch.val).wq.isEmpty || decide (0 < victimSectors s ch.val)) ∧
    (∀ b, b < 128 → ((t.dmcOf ch.val).bankOf b).owed = [(s.dmcOf ch.val).cyc + tXS] ∧ ((t.dmcOf ch.val).bankOf b).row = none) ∧
    ∀ r, r < 4 → pstate t ch.val r = 1) ∧
  (∀ (s : State) (ch : Fin 32) (rank : Fin 4) (dir : Fin 3) (lost : Option (Fin 5)), s.cstate ch.val = 2 → s.on F.DMC_TRAIN_CTL_TRK_EN ch.val = true →
    ∃ t, exec (.strobeTracking ch rank dir lost) s = .next t ∧ (t.rd F.DMC_RANK_DLY_RG_DLY ch.val rank.val =
        (if dir = 1 then min 63 (s.rd F.DMC_RANK_DLY_RG_DLY ch.val rank.val + 1)
         else if dir = 2 then s.rd F.DMC_RANK_DLY_RG_DLY ch.val rank.val - 1 else s.rd F.DMC_RANK_DLY_RG_DLY ch.val rank.val) % 64) ∧
      ∀ p, lost = some p → bit (t.rd F.TSV_CA_STB_DEAD ch.val) p.val = true)

/-- O35. The scheduler's choice is never behind another candidate, and promoted order is band, step, hit, age (R179; Table 8.2 (08_dram_channels.md)). -/
def Obligations.SchedulerOrder : Prop :=
  (∀ (l : List Cand) (c : Cand), bestCand l = some c → c ∈ l ∧ ∀ x ∈ l, x.before c = false) ∧
  (∀ l : List Cand, bestCand l = none ↔ l = []) ∧
  (∀ a b : Cand, (a.band < b.band → a.before b = true) ∧ (a.band = b.band → b.step < a.step → a.before b = true) ∧
    (a.band = b.band → a.step = b.step → a.hit = true → b.hit = false → a.before b = true) ∧
    (a.band = b.band → a.step = b.step → a.hit = b.hit → b.age < a.age → a.before b = true) ∧ (a.before b = true → b.before a = false))

/-- O36. Refresh ticks, die temperatures, stroke words, reports and victims (R200; R202; R205; R206; R207; R209; R211). -/
def Obligations.RefreshStrokesAndReports : Prop :=
  (∀ (s : State) (ch : Fin 32) (b : Fin 128), (s.cstate ch.val = 1 ∨ s.cstate ch.val = 2) → pstate s ch.val (b.val / 32) ≠ 0 → pstate s ch.val (b.val / 32) ≠ 3 →
    ((s.dmcOf ch.val).bankOf b.val).owed.length ≤ 15 →
    (((s.dmcOf ch.val).bankOf b.val).tick ≤ (s.dmcOf ch.val).cyc →
      ∃ t, exec (.refreshTick ch b) s = .next t ∧
        ((t.dmcOf ch.val).bankOf b.val).owed = (if ((s.dmcOf ch.val).bankOf b.val).owed.length < 15
          then ((s.dmcOf ch.val).bankOf b.val).owed ++ [((s.dmcOf ch.val).bankOf b.val).tick] else ((s.dmcOf ch.val).bankOf b.val).owed) ∧
        ((t.dmcOf ch.val).bankOf b.val).tick = ((s.dmcOf ch.val).bankOf b.val).tick + (if s.on F.RFM_DIE_DBL (dieOf ch.val (b.val / 32)) then 6250 else 12500) ∧
        ((t.dmcOf ch.val).bankOf b.val).owed.length ≤ t.rd F.RFM_REF_MAX_DEBT ch.val ∧
        t.rd F.RFM_REF_SLIPS ch.val = (if ((s.dmcOf ch.val).bankOf b.val).owed.length = s.rd F.RFM_CTL_POSTPONE ∧ s.rd F.RFM_CTL_POSTPONE < 15
          then min (s.rd F.RFM_REF_SLIPS ch.val + 1) (2 ^ F.RFM_REF_SLIPS.w - 1) else s.rd F.RFM_REF_SLIPS ch.val)) ∧
    ((s.dmcOf ch.val).cyc < ((s.dmcOf ch.val).bankOf b.val).tick → exec (.refreshTick ch b) s = .next s)) ∧
  (∀ (s : State) (ch : Fin 32) (b : Fin 128), pstate s ch.val (b.val / 32) = 3 → exec (.refreshTick ch b) s = .next s) ∧
  (∀ (s : State) (missing : BitVec 16), s.pck.pow = .run → ∃ t, exec (.dieTempReading missing) s = .next t ∧ t.mem = s.mem ∧ ∀ n, n < 16 →
    (∀ v, bit missing.toNat n = false → dieTemp s n = some (v, true) → t.rd F.RFM_DIE_DTEMP n = v % 256 ∧ t.on F.RFM_DIE_SBAD n = false ∧
      (85 < signed8 v ∨ s.on F.RFM_CTL_FORCE_2X = true → t.on F.RFM_DIE_DBL n = true) ∧
      (signed8 v ≤ 82 → s.on F.RFM_CTL_FORCE_2X = false → t.on F.RFM_DIE_DBL n = false)) ∧
    ((bit missing.toNat n = true ∨ dieTemp s n = none) → 1 ≤ SMap.getD s.rfm.miss n 0 → t.on F.RFM_DIE_SBAD n = true ∧ t.on F.RFM_DIE_DBL n = true)) ∧
  (∀ (s : State) (missing : BitVec 16), s.pck.pow = .off → exec (.dieTempReading missing) s = .next s) ∧
  (∀ (s : State) (ch : Fin 32) (word : Fin 3) (b row : Nat) (rest : List (Nat × Nat)), (s.dmcOf ch.val).closing = (b, row) :: rest → (s.rfm.thrAt = 0 ∨ s.rfm.thrAt + 50 * usec ≤ s.now) →
    ∃ t, exec (.rowClose ch word) s = .next t ∧ (t.dmcOf ch.val).closing = rest ∧ t.mem = s.mem ∧
      (let key := rowKey ch.val b row
       let thr := s.rd F.RFM_CTL_ST_THR
       let n := if word = 2 then thr else min 65535 (strokeCount s key + 1)
       (n < thr → SMap.getD t.rfm.stroke key t.rfm.strokeBase = strokeWord n ∧ strokeCount t key = n) ∧
       (thr ≤ n → ((s.dmcOf ch.val).rankOf (b / 32)).dieq.length < 32 → strokeCount t key = 0 ∧ ((t.dmcOf ch.val).rankOf (b / 32)).dieq =
         ((s.dmcOf ch.val).rankOf (b / 32)).dieq ++ [b % 32 + row * 32 + b2n (word == 2) * 2 ^ 21]) ∧
       (thr ≤ n → 32 ≤ ((s.dmcOf ch.val).rankOf (b / 32)).dieq.length → ((t.dmcOf ch.val).rankOf (b / 32)).dieOvf = true))) ∧
  (∀ (s : State) (ch : Fin 32) (rank : Fin 4) (err : List Nat), (reportIn (s.dmcOf ch.val) rank.val = false → exec (.reportBurstReceive ch rank err) s = .next s) ∧
    (reportIn (s.dmcOf ch.val) rank.val = true → ∃ t, exec (.reportBurstReceive ch rank err) s = .next t ∧ ((t.dmcOf ch.val).rankOf rank.val).rptOut = false ∧
      ((((t.dmcOf ch.val).rankOf rank.val).ack = true ∧ (t.dmcOf ch.val).vq = (s.dmcOf ch.val).vq ++
          (((s.dmcOf ch.val).rankOf rank.val).dieq.take ((s.dmcOf ch.val).rankOf rank.val).rptSent).map fun v => (rank.val * 32 + v % 32, v / 32 % 65536, s.now)) ∨
       (((t.dmcOf ch.val).rankOf rank.val).ack = false ∧ (t.dmcOf ch.val).vq = (s.dmcOf ch.val).vq)))) ∧
  (∀ s : State, ∃ t, exec .backlogTimeout s = .next t ∧ t.mem = s.mem ∧ ∀ ch, ch < 32 → (t.dmcOf ch).vq = (s.dmcOf ch).vq ∧
    (backlogged s ch = true → (t.dmcOf ch).bkAt = some none) ∧
    (backlogged s ch = false → (t.dmcOf ch).bkAt = if (s.dmcOf ch).bkAt = some none then some (some s.now) else (s.dmcOf ch).bkAt)) ∧
  (∀ (s : State) (ch : Fin 32) (b : Fin 128) (v : Nat × Nat × Nat), ((s.dmcOf ch.val).bankOf b.val).vref = some [] → (s.dmcOf ch.val).vq.find? (·.1 == b.val) = some v →
    ∃ t, exec (.victimRefreshDone ch b) s = .next t ∧ (t.dmcOf ch.val).vq = (s.dmcOf ch.val).vq.erase v ∧ ((t.dmcOf ch.val).bankOf b.val).vref = none)

/-- O37. Patrol scrub, its write-back, the scrub of slices and tables, and the reload of what was lost (R218; R223; R227; R228; R229). -/
def Obligations.ScrubAndLostWords : Prop :=
  (∀ (s : State) (ch : Fin 32) (err : List Nat), s.cstate ch.val = 2 → (s.dmcOf ch.val).scrub.isSome = true → burstsDone s ch.val .scrub = true →
    SMap.getD s.dip.wb ch.val [] = [] → (s.dmcOf ch.val).unitSc = none →
    ∃ t, exec (.scrubStep ch err) s = .next t ∧ t.mem = s.mem ∧
      (SMap.getD t.dip.wb ch.val [] = [] → (t.dmcOf ch.val).scrub = none ∧
        t.rd F.DIP_SCRUB_SCRUB_BANK ch.val = (scrubNext (s.rd F.DIP_SCRUB_SCRUB_BANK ch.val) (s.rd F.DIP_SCRUB_SCRUB_ROW ch.val)).1 % 128 ∧
        t.rd F.DIP_SCRUB_SCRUB_ROW ch.val = (scrubNext (s.rd F.DIP_SCRUB_SCRUB_BANK ch.val) (s.rd F.DIP_SCRUB_SCRUB_ROW ch.val)).2) ∧
      (SMap.getD t.dip.wb ch.val [] ≠ [] → (t.dmcOf ch.val).scrub = (s.dmcOf ch.val).scrub ∧
        t.rd F.DIP_SCRUB_SCRUB_BANK ch.val = s.rd F.DIP_SCRUB_SCRUB_BANK ch.val ∧ t.rd F.DIP_SCRUB_SCRUB_ROW ch.val = s.rd F.DIP_SCRUB_SCRUB_ROW ch.val)) ∧
  (∀ (s : State) (ch : Fin 32) (err : List Nat), (s.cstate ch.val ≠ 2 ∨ (s.dmcOf ch.val).scrub = none) → exec (.scrubStep ch err) s = .next s) ∧
  (∀ (s : State) (ch : Fin 32) (ps : Nat) (rest : List Nat), SMap.getD s.dip.wb ch.val [] = ps :: rest → (s.dmcOf ch.val).unitSc = none → writeQueued s ch.val ps = true →
    SMap.getD (unitTake s ch.val).dip.wb ch.val [] = rest ∧ ((unitTake s ch.val).dmcOf ch.val).unitSc = none ∧ (unitTake s ch.val).mem = s.mem) ∧
  (∀ (s : State) (ch : Fin 32) (err : List Nat) (ps c : Nat), (s.dmcOf ch.val).unitSc = some (ps, some c) → s.cstate ch.val = 2 →
    (c + 22 ≤ (s.dmcOf ch.val).cyc → ∃ t, exec (.scrubWriteback ch err) s = .next t ∧
      (rowSlot s ch.val (ps / 16 / 65536 % 128) (ps / 16 % 65536) = true → (t.dmcOf ch.val).unitSc = none) ∧ ∀ a, a / 64 ≠ ps → Memory.get t.mem a = Memory.get s.mem a) ∧
    ((s.dmcOf ch.val).cyc < c + 22 → exec (.scrubWriteback ch err) s = .next s)) ∧
  (∀ (s : State) (target : Fin 3) (sl : Fin 32) (set : BitVec 12) (way : Fin 16) (half : Fin 2) (out : Fin 3) (idx : BitVec 17), s.on F.DIP_CTL_CSCRUB_EN = true →
    (out = 0 → exec (.cacheScrub target sl set way half out idx) s = .next s) ∧
    (out = 1 → target = 0 → ∃ t, exec (.cacheScrub target sl set way half out idx) s = .next t ∧ t.scc = s.scc ∧ t.mem = s.mem ∧ t.rqe = s.rqe) ∧
    (out = 1 → target ≠ 0 → ∃ t, exec (.cacheScrub target sl set way half out idx) s = .next t ∧
      t.rd F.DIP_ARR_ARR_CE = min (s.rd F.DIP_ARR_ARR_CE + 1) (2 ^ F.DIP_ARR_ARR_CE.w - 1) ∧ t.reg = s.reg ∧ t.tsv = s.tsv ∧ t.mem = s.mem) ∧
    (out = 2 → target = 0 → s.sstate sl.val = ssOn → 2 ≤ (s.line sl.val set.toNat way.val).st half.val →
      ∃ t, exec (.cacheScrub target sl set way half out idx) s = .next t ∧ (t.line sl.val set.toNat way.val).st half.val = 0) ∧
    (out = 2 → target = 1 → ∃ t, exec (.cacheScrub target sl set way half out idx) s = .next t ∧ t.ctx idx.toNat = {} ∧ t.dip.ctxLost.contains idx.toNat = true) ∧
    (out = 2 → target = 2 → ∃ t, exec (.cacheScrub target sl set way half out idx) s = .next t ∧ t.tsv.rmapLost.contains idx.toNat = true)) ∧
  (∀ s : State, exec .remapEntryReloaded s = .next { s with tsv.rmapLost := s.tsv.rmapLost.drop 1 }) ∧
  (∀ s : State, exec .contextRebuilt s = .next { s with dip.ctxLost := s.dip.ctxLost.drop 1 }) ∧
  (∀ (s : State) (ch : Fin 32), ∃ t, exec (.suspectWindowEnd ch) s = .next t ∧ suspects t ch.val = (suspects s ch.val).filter (fun p => decide (s.rd F.DIP_THR_POS_THR ≤ posCount s ch.val p)) ∧
    t.mem = s.mem ∧ t.tsv = s.tsv ∧ ∀ p, p < 128 → posCount t ch.val p = 0)

/-- O38. Calibration of lines, swaps, dead lines and the repair of a row (R242; R243; R244; R245; R246; R249; R252). -/
def Obligations.LinesAndRowRepair : Prop :=
  (∀ (s : State) (ch : Fin 32) (sh : Nat), calReady s ch.val = true → shadowOf s ch.val = some sh → (s.tsvCh ch.val).step = none → (s.tsvCh ch.val).isolated = none → (s.tsvCh ch.val).inPlace = none →
    (s.tsvCh ch.val).sw = [] → ∃ t x, exec (.rollingCalStep ch) s = .next t ∧ (t.tsvCh ch.val).step = some x ∧ x.line = nextTarget s ch.val (s.rd F.TSV_STAT_CAL_PHY ch.val) ∧
      x.pos = carries s ch.val x.line ∧ t.on F.TSV_STAT_CAL_BUSY ch.val = true ∧ t.mem = s.mem ∧ t.dmc = s.dmc) ∧
  (∀ (s : State) (ch : Fin 32) (pass : Bool) (rd wr : BitVec 6), shadowOf s ch.val = none → (s.tsvCh ch.val).inPlace = none → (s.tsvCh ch.val).isolated = none → (s.tsvCh ch.val).fastWait = none →
    (s.tsvCh ch.val).sw = [] → s.cstate ch.val = 2 → s.on F.TSV_CTL_ROLL_EN ch.val = true →
    ∃ t, exec (.stallCalStep ch pass rd wr) s = .next t ∧ t.on F.TSV_STAT_STALL_CAL ch.val = true ∧ (s.dmcOf ch.val).cyc + 4800 ≤ (t.dmcOf ch.val).stallTo ∧
      (pass = true → SMap.get? (t.tsvCh ch.val).dly (nextTarget s ch.val (s.rd F.TSV_STAT_CAL_PHY ch.val)) = some (rd.toNat, wr.toNat)) ∧
      (pass = false → t.tsv = s.tsv)) ∧
  (∀ (s : State) (ch : Fin 32) (errors : Bool) (p : Fin 84), (s.tsvCh ch.val).isolated = some p.val →
    (errors = false → ∃ t, exec (.fastSwapIsolationEnd ch errors) s = .next t ∧ shadowOf t ch.val = some p.val ∧ (t.tsvCh ch.val).isolated = none) ∧
    (errors = true → ∃ t, exec (.fastSwapIsolationEnd ch errors) s = .next t ∧ bit (phyDead t ch.val) p.val = true)) ∧
  (∀ (s : State) (ch : Fin 32) (pass : Bool) (rd wr : BitVec 6) (x : CalStep) (n : Nat) (sh : Fin 84), (s.tsvCh ch.val).step = some x → x.pos = some n → x.line < 84 → shadowOf s ch.val = some sh.val →
    (pass = true → ∃ t, exec (.shadowValidationEnd ch pass rd wr) s = .next t ∧ (t.tsvCh ch.val).step = none ∧
      SMap.get? (t.tsvCh ch.val).dly sh.val = some (rd.toNat, wr.toNat) ∧
      (s.cstate ch.val = 2 → shadowOf t ch.val = none ∧ t.on F.TSV_STAT_CAL_BUSY ch.val = true ∧ (t.tsvCh ch.val).map = (s.tsvCh ch.val).map ∧
        (t.tsvCh ch.val).sw = (s.tsvCh ch.val).sw ++ [if x.fast then { pos := n, line := sh.val, isolate := some x.line } else { pos := n, line := sh.val, shadow := some x.line }]) ∧
      (s.cstate ch.val ≠ 2 → t.lineOf ch.val n = sh.val ∧ (x.fast = false → shadowOf t ch.val = some x.line) ∧
        (x.fast = true → shadowOf t ch.val = none ∧ (t.tsvCh ch.val).isolated = some x.line))) ∧
    (pass = false → ∃ t, exec (.shadowValidationEnd ch pass rd wr) s = .next t ∧ (t.tsvCh ch.val).step = none ∧
      t.rd F.TSV_DEAD_CAL_FAILS ch.val = min (s.rd F.TSV_DEAD_CAL_FAILS ch.val + 1) (2 ^ F.TSV_DEAD_CAL_FAILS.w - 1) ∧
      (2 ≤ (s.tsvCh ch.val).fails → bit (phyDead t ch.val) sh.val = true))) ∧
  (∀ (s : State) (ch : Fin 32) (m : MapSw) (c : Nat) (rest : List MapSw), (s.tsvCh ch.val).sw = m :: rest → m.at' = some c → (s.tsvCh ch.val).fastWait = none →
    (c + 32 ≤ (s.dmcOf ch.val).cyc → (mapSwEnd s ch.val).lineOf ch.val m.pos = m.line ∧ ((mapSwEnd s ch.val).tsvCh ch.val).sw = rest) ∧
    ((s.dmcOf ch.val).cyc < c + 32 → mapSwEnd s ch.val = s)) ∧
  (∀ (s : State) (ch : Fin 32) (rd wr : BitVec 6) (p : Fin 84), (s.tsvCh ch.val).inPlace = some p.val → (s.tsvCh ch.val).fastWait = none →
    ∃ t, exec (.spareInPlaceStepEnd ch true rd wr) s = .next t ∧ shadowOf t ch.val = some p.val ∧ (t.tsvCh ch.val).inPlace = none) ∧
  (∀ (s : State) (ch : Fin 32) (bad : Option (Fin 26)), s.cstate ch.val = 2 → ∃ t, exec (.parityAlert ch bad) s = .next t ∧
    (∀ r, r < 4 → ((t.dmcOf ch.val).rankOf r).cmdOk = max ((s.dmcOf ch.val).rankOf r).cmdOk ((s.dmcOf ch.val).cyc + 320)) ∧ ∀ l, bad = some l → bit (t.rd F.TSV_CA_CA_DEAD ch.val) l.val = true) ∧
  (∀ (s : State) (ch : Fin 32) (bank row : Nat), (∀ c, c < 32 → (s.tsvCh c).cur = none) → s.tsv.rprQ.find? (rprReady s) = some (ch.val, bank, row) →
    (∀ sp, ((List.range 32).find? fun k => s.rmap ch.val bank k == 0) = some sp → ∃ t, exec .rowRepairStart s = .next t ∧
      (t.tsvCh ch.val).cur = some (bank, row, sp) ∧ (t.tsvCh ch.val).stored = false ∧ t.on F.TSV_RPR_STAT_RPR_BUSY ch.val = true) ∧
    (((List.range 32).find? fun k => s.rmap ch.val bank k == 0) = none → ∃ t, exec .rowRepairStart s = .next t ∧ (t.tsvCh ch.val).cur = none ∧
      t.mem = s.mem ∧ t.rd F.TSV_RPR_STAT_RPR_RES ch.val = Code.resource.num)) ∧
  (∀ (s : State) (ch : Fin 32) (bank row sp : Nat), (s.tsvCh ch.val).cur = some (bank, row, sp) → (s.tsvCh ch.val).stored = true → bankHeld s ch.val bank = false →
    ((s.dmcOf ch.val).eng.any fun b => b.own == .repair) = false → ∃ t, exec (.rowRepairComplete ch) s = .next t ∧ t.rmap ch.val bank sp = 0x8000 + row ∧ (t.tsvCh ch.val).cur = none ∧ t.mem = s.mem ∧
      t.on F.TSV_RPR_STAT_RPR_BUSY ch.val = false ∧ t.rd F.TSV_RPR_STAT_RPR_RES ch.val = Code.ok.num)

/-- O39. The steps of a fold, the estimate S, and contexts that change owner (R138; R146; R254; R255; R256; R257). -/
def Obligations.FoldAndRegulation : Prop :=
  (∀ s : State, s.fstate = fMigrate → s.rd F.TSV_FOLD_STAT_FOLDED_CH < 32 → s.rd F.TSV_FOLD_PTR_FOLD_PTR < foldUnits →
    (let u := s.rd F.TSV_FOLD_PTR_FOLD_PTR
     let k := foldTarget s u
     (unitBusy s (s.rd F.TSV_FOLD_STAT_FOLDED_CH) u = true → foldBegin s = s) ∧
     (s.tsv.foldMove = some true → burstsDone s k .fold = true → ∃ t, exec .foldUnitMove s = .next t ∧ t.rd F.TSV_FOLD_PTR_FOLD_PTR = u + 1 ∧ t.tsv.foldMove = none ∧
       ∀ a, (∀ n, n < 16 → a / 64 ≠ sectorAt s k (0xF8000000 + (u * 1024 + 64 * n) % 2 ^ 27)) → Memory.get t.mem a = Memory.get s.mem a) ∧
     ((s.tsv.foldMove ≠ some true ∨ burstsDone s k .fold = false) → exec .foldUnitMove s = .next s))) ∧
  (∀ s : State, s.fstate ≠ fMigrate → s.fstate ≠ fPaused → exec .foldUnitMove s = .next s ∧ exec .foldChunkEnd s = .next s ∧ exec .foldDone s = .next s) ∧
  (∀ s : State, s.fstate = fMigrate → s.rd F.TSV_FOLD_PTR_FOLD_PTR ≠ 0 → s.rd F.TSV_FOLD_PTR_FOLD_PTR < 2 ^ 22 → s.rd F.TSV_FOLD_PTR_FOLD_PTR % 131072 = 0 →
    ∃ t w, exec .foldChunkEnd s = .next t ∧ (w ∈ t.pst.q ∨ t.pst.port = some w) ∧ w.idx = pregIdx 4 ∧ w.val = s.rd F.TSV_FOLD_PTR_FOLD_PTR ∧ t.mem = s.mem) ∧
  (∀ s : State, s.fstate = fClean → (s.sstate (s.rd F.TSV_FOLD_STAT_FOLDED_CH) = ssBypass ∨ s.sstate (s.rd F.TSV_FOLD_STAT_FOLDED_CH) = ssOff) →
    ∃ t, exec .foldCleanEnd s = .next t ∧ t.fstate = fMigrate) ∧
  (∀ s : State, s.fstate = fClean → s.sstate (s.rd F.TSV_FOLD_STAT_FOLDED_CH) = ssDrain → exec .foldCleanEnd s = .next s) ∧
  (∀ s : State, s.fstate = fMigrate → s.rd F.TSV_FOLD_STAT_FOLDED_CH < 32 → s.rd F.TSV_FOLD_PTR_FOLD_PTR = foldUnits →
    ∃ t, exec .foldDone s = .next t ∧ t.fstate = fDone ∧ t.cstate (s.rd F.TSV_FOLD_STAT_FOLDED_CH) = 0 ∧ t.sstate (s.rd F.TSV_FOLD_STAT_FOLDED_CH) = ssOff ∧
      t.on F.DIP_SCRUB_STAT_SCRUB_PAUSED = false ∧ t.mem = s.mem) ∧
  (∀ s : State, ∃ t, exec .sRecompute s = .next t ∧ t.mem = s.mem ∧ t.reg.grantNext = some (grantsFor s (computeS s s.reg.thetaNext).1).1 ∧
    t.reg.sNext = some ((computeS s s.reg.thetaNext).1, (grantsFor s (computeS s s.reg.thetaNext).1).2, (computeS s s.reg.thetaNext).2)) ∧
  (∀ (s : State) (d : Fin 16) (old : List (Nat × Nat)), SMap.get? s.reg.rangeJob d.val = some old →
    ∃ t, exec (.bowContextResetDone d) s = .next t ∧ t.on F.REG_BOW_EN_BOW_BUSY d.val = false ∧ SMap.get? t.reg.rangeJob d.val = none ∧
      ∀ b, (inRanges old b ≠ inRanges (enabledRange s d.val) b → t.ctx b = {}) ∧ (inRanges old b = inRanges (enabledRange s d.val) b → t.ctx b = s.ctx b))

/-- O40. RREG and WREG carry their fields to the register access of their domain; a reserved VC2 opcode is BAD_OPCODE (R102; R286; R294; R295; R62; R82; Table 4.6 (04_packets_and_opcodes.md)). -/
def Obligations.RegisterPacketsReachTheMap : Prop :=
  (∀ (s : State) (g dom : Fin 16) (rtag : BitVec 16) (raddr : BitVec 24), HeardVc2 s g.val dom.val 1 →
    exec (.rreg g dom rtag raddr) s = .next (access (holdVc2 s dom.val 1)
      { who := dom.val, org := .packet dom.val rtag.toNat, wr := false, off := raddr.toNat, val := 0 })) ∧
  (∀ (s : State) (g dom : Fin 16) (rtag : BitVec 16) (raddr : BitVec 24) (data : BitVec 32), HeardVc2 s g.val dom.val 1 →
    exec (.wreg g dom rtag raddr data) s = .next (access (holdVc2 s dom.val 1)
      { who := dom.val, org := .packet dom.val rtag.toNat, wr := true, off := raddr.toNat, val := data.toNat })) ∧
  (∀ (s : State) (g dom : Fin 16) (rtag : BitVec 16) (raddr : BitVec 24), HeardVc2 s g.val dom.val 1 → regsOpen s = true → pregPending s dom.val = false →
    regAt raddr.toNat = none →
    (∃ t, exec (.rreg g dom rtag raddr) s = .next t ∧ lastResult t dom.val = Code.ok.num ∧ t.rd F.GLB_LAS_LA_OFS dom.val = raddr.toNat / 4 ∧
      t.on F.GLB_LAS_LA_WR dom.val = false ∧ t.mem = s.mem) ∧
    ∀ data : BitVec 32, ∃ t, exec (.wreg g dom rtag raddr data) s = .next t ∧ lastResult t dom.val = Code.ok.num ∧
      t.rd F.GLB_LAS_LA_OFS dom.val = raddr.toNat / 4 ∧ t.on F.GLB_LAS_LA_WR dom.val = true ∧ t.mem = s.mem) ∧
  (∀ (s : State) (g dom : Fin 16) (opc : BitVec 8), reservedVc2Op opc.toNat = true →
    (let d := if opc.toNat < 0x80 then dom.val else 0
     HeardVc2 s g.val d 1 → pregPending s d = false → ∃ t, exec (.reservedVc2Opcode g opc dom) s = .next t ∧ lastResult t d = Code.badOpcode.num ∧
      t.rd F.GLB_LFAIL_LF_RES d = Code.badOpcode.num ∧ SMap.getD t.link.vc2Held d 0 = SMap.getD s.link.vc2Held d 0 ∧ t.mem = s.mem)) ∧
  (∀ (s : State) (g dom : Fin 16) (rtag : BitVec 16) (raddr : BitVec 24) (data : BitVec 32), hears s g.val = false →
    exec (.rreg g dom rtag raddr) s = .next s ∧ exec (.wreg g dom rtag raddr data) s = .next s)

/-- O41. MBX_WR, MBX_RD, doorbells and responses, and PM_ACK (R103; R106; R274; R275; R276; R374; Table 12.7 (12_cox_cores_and_mailboxes.md)). -/
def Obligations.MailboxPacketsAndDoorbells : Prop :=
  (∀ (s : State) (g dom : Fin 16) (moff : BitVec 12) (mtag mlen : BitVec 8) (data : List Byte), data.length = 4 * mlen.toNat → 1 ≤ mlen.toNat → mlen.toNat ≤ 62 →
    HeardVc2 s g.val dom.val (cellsOf (8 + data.length)) → pregPending s dom.val = false → mstate s dom.val ≠ 2 →
    (moff.toNat / 4 * 4 + data.length ≤ 4096 → ∃ t, exec (.mbxWr g dom moff mtag mlen data) s = .next t ∧
      t.mbx dom.val = { s.mbx dom.val with cmd := bufPut (s.mbx dom.val).cmd (moff.toNat / 4 * 4) data } ∧ ∀ m, m ≠ dom.val → t.mbx m = s.mbx m) ∧
    (4096 < moff.toNat / 4 * 4 + data.length → ∃ t, exec (.mbxWr g dom moff mtag mlen data) s = .next t ∧ t.mgt = s.mgt)) ∧
  (∀ (s : State) (g dom : Fin 16) (moff : BitVec 12) (mtag mlen : BitVec 8), HeardVc2 s g.val dom.val 1 → pregPending s dom.val = false → 1 ≤ mlen.toNat → mlen.toNat ≤ 62 →
    moff.toNat / 4 * 4 + 4 * mlen.toNat ≤ 4096 → mstate s dom.val ≠ 2 →
    exec (.mbxRd g dom moff mtag mlen) s = .next (sendVc2 (releaseVc2 (holdVc2 s dom.val 1) dom.val 1)
      (mbxAnsBytes 0x64 dom.val (moff.toNat / 4 * 4) mlen.toNat mtag.toNat .ok (bufGet (s.mbx dom.val).resp (moff.toNat / 4 * 4) (4 * mlen.toNat))))) ∧
  (∀ (s : State) (g dom : Fin 16) (seq : BitVec 16), HeardVc2 s g.val dom.val 1 → pregPending s dom.val = false → mstate s dom.val = 1 → seq.toNat = expSeq s dom.val →
    ∃ t, exec (.mbxDb g dom seq) s = .next t ∧ mstate t dom.val = 2 ∧ (t.mbx dom.val).seq = seq.toNat ∧ (t.mbx dom.val).taken = s.now ∧
      (knownOpcode (cmdOpcode s dom.val) = true → (t.mbx dom.val).ran = false) ∧
      (knownOpcode (cmdOpcode s dom.val) = false → (t.mbx dom.val).await = .due .badOpcode 0 [])) ∧
  (∀ (s : State) (m : Fin 17) (seq : BitVec 16), regsOpen s = true → s.pck.pow = .run →
    (mstate s m.val = 1 → seq.toNat = expSeq s m.val → knownOpcode (cmdOpcode s m.val) = true →
      ∃ t, exec (.mailboxDoorbell m seq) s = .next t ∧ mstate t m.val = 2 ∧ (t.mbx m.val).seq = seq.toNat ∧ (t.mbx m.val).ran = false) ∧
    (mstate s m.val = 1 → seq.toNat ≠ expSeq s m.val → cmdOpcode s m.val ≠ 0x0100 → ∃ t, exec (.mailboxDoorbell m seq) s = .next t ∧ mstate t m.val = 1 ∧
      (t.mbx m.val).resp = bufPut (s.mbx m.val).resp 0 (responseBytes s m.val .sequence 0 [])) ∧
    (mstate s m.val = 2 → exec (.mailboxDoorbell m seq) s = .next (countIgn s m.val))) ∧
  (∀ (s : State) (m : Fin 17) (c : Code) (d : Nat) (p : List Byte), mstate s m.val = 2 → coreServes s = true → answerOf s m.val = some (c, d, p) →
    ∃ t, exec (.responsePost m) s = .next t ∧ mstate t m.val = (if cmdOpcode s m.val = 0x0101 ∧ c = .ok then 0 else 1) ∧
      expSeq t m.val = ((s.mbx m.val).seq + 1) % 65536 ∧ (t.mbx m.val).resp = bufPut (s.mbx m.val).resp 0 (responseBytes s m.val c d p) ∧
      (t.mbx m.val).await = .none) ∧
  (∀ (s : State) (m : Fin 17), mstate s m.val = 2 → coreServes s = true → answerOf s m.val = none → exec (.responsePost m) s = .next s) ∧
  (∀ (s : State) (g : Fin 16) (preq res : BitVec 8) (pseq : BitVec 16) (q : Nat) (e : Entry), HeardVc2 s g.val 0 1 → s.link.pmReq = some (q, pseq.toNat) →
    s.pck.entry = some e → e.acked = false →
    (res = 0 → ∃ t, exec (.pmAck g preq pseq res) s = .next t ∧ t.pck.entry = some { e with acked := true } ∧ t.link.pmReq = none) ∧
    (res ≠ 0 → ∃ t, exec (.pmAck g preq pseq res) s = .next t ∧ t.pck.entry = none ∧ t.pck.pow = .run ∧ t.link.pmReq = none)) ∧
  (∀ (s : State) (e : Entry), s.pck.entry = some e → e.acked = false → s.link.pmReq.isSome = true →
    ∃ t, exec .pmAckTimeout s = .next t ∧ t.pck.entry = none ∧ t.pck.pow = .run)

/-- O42. A raise reaches the domains, the alert, the log, the first-fault record and the fault state; EVTs and copies leave their queues (R306; R309; R311; R312; R313; R315; R316; R317; R436). -/
def Obligations.EventsAreRaisedAndSent : Prop :=
  (∀ (s : State) (src : Fin 287) (sev : Fin 5) (syn : List Word), ∃ t, exec (.eventRaise src sev syn) s = .next t ∧
    t.mem = s.mem ∧ t.rqe = s.rqe ∧ t.link = s.link ∧ t.dmc = s.dmc ∧ t.mgt = s.mgt ∧
    (sev.val < 3 → reaches (sevOf sev.val) (s.rd F.FCR_SRC_LOG_MIN src.val) = true → s.on F.FCR_LOG_LOG_WEAR = false → s.fcr.logq.length < 56 → s.fcr.tokens ≠ 0 →
      (∃ r, t.fcr.logq = s.fcr.logq ++ [r] ∧ r.src = src.val ∧ r.sev = sevOf sev.val ∧ r.stamp = s.uptime) ∧ t.fcr.tokens = s.fcr.tokens - 1) ∧
    (sev.val < 3 → reaches (sevOf sev.val) (s.rd F.FCR_SRC_LOG_MIN src.val) = false → reaches (sevOf sev.val) (s.rd F.FCR_SRC_ALERT_MIN src.val) = true →
      t.on F.FCR_ALERT_ALERT = true ∧ t.rd F.FCR_ALERT_ALERT_SRC = src.val) ∧
    (∀ d, d < 16 → sev.val < 3 → reaches (sevOf sev.val) (s.rd F.FCR_SRC_LOG_MIN src.val) = false → reaches (sevOf sev.val) (s.rd F.FCR_SRC_EVT_MIN src.val) = true →
      bit (s.rd F.FCR_SRC_DMASK src.val) d = true → s.on F.FCR_DOM_DEVT_EN d = true → s.rd F.FCR_DOM_DSEV_MIN d ≤ (sevOf sev.val).num →
      (SMap.getD s.fcr.evq d []).length < 32 → (∀ e ∈ SMap.getD s.fcr.evq d [], e.src ≠ src.val) →
      ∃ e, SMap.getD t.fcr.evq d [] = SMap.getD s.fcr.evq d [] ++ [e] ∧ e.src = src.val ∧ e.sev = sevOf sev.val) ∧
    (sev.val = 3 → s.rd F.FCR_STAT_XSTATE ≠ 2 → t.rd F.FCR_STAT_XSTATE = 1 ∧ t.fcr.easy = some (s.now + s.rd F.FCR_CTL_EASY_MS * msec)) ∧
    (sev.val = 4 → t.rd F.FCR_STAT_XSTATE = 2) ∧
    (3 ≤ sev.val → s.on F.FCR_FF_FF_VALID = false → t.on F.FCR_FF_FF_VALID = true ∧ t.rd F.FCR_FF_FF_SRC = src.val ∧ t.rd F.FCR_FF_FF_SEV = (sevOf sev.val).num) ∧
    (3 ≤ sev.val → s.on F.FCR_FF_FF_VALID = true → t.rd F.FCR_FF_FF_SRC = s.rd F.FCR_FF_FF_SRC)) ∧
  (∀ (s : State) (u : Nat), s.fcr.easy = some u → u ≤ s.now → s.rd F.FCR_STAT_XSTATE = 1 →
    ∃ t, exec .easyPeriodEnd s = .next t ∧ t.rd F.FCR_STAT_XSTATE = 0 ∧ t.fcr.easy = none ∧
      t.rd F.FCR_RECOV_RECOVERIES = min (s.rd F.FCR_RECOV_RECOVERIES + 1) (2 ^ 32 - 1)) ∧
  (∀ (s : State) (u : Nat), s.fcr.easy = some u → s.now < u → exec .easyPeriodEnd s = .next s) ∧
  (∀ (s : State) (d : Fin 16) (e : Evt) (rest : List Evt), SMap.getD s.fcr.evq d.val [] = e :: rest →
    (evtRoom s = true → ∃ t, exec (.evtSend d) s = .next t ∧ SMap.getD t.fcr.evq d.val [] = rest ∧
      SMap.getD t.fcr.eseq d.val 0 = (SMap.getD s.fcr.eseq d.val 0 + 1) % 65536 ∧ SMap.getD t.fcr.loss d.val false = false) ∧
    (evtRoom s = false → exec (.evtSend d) s = .next s)) ∧
  (∀ (s : State) (r : Raise) (rest : List Raise), s.fcr.svcq = r :: rest →
    (s.mgt.auth = true → svcUp s = true → ∃ t, exec .eventCopySend s = .next t ∧ t.fcr.svcq = rest ∧ t.out = s.out ++ [.ep2 (copyRecord s r)] ∧ t.regs = s.regs) ∧
    (s.mgt.auth = false → exec .eventCopySend s = .next s))

/-- O43. The log, the word writes of the MRAM port, persistent registers and the lifetime count (R301; R314; R315; R324; R326; R327). -/
def Obligations.WordsOfTheStore : Prop :=
  (∀ (s : State) (r : Raise) (rest : List Raise), s.fcr.logq = r :: rest → s.on F.FCR_LOG_LOG_WEAR = false → logAtPort s = false → s.pst.only = false →
    ∃ t, exec .logRecordWrite s = .next t ∧ t.fcr.logq = rest ∧ t.rd F.FCR_LOG_LOG_HEAD = (s.rd F.FCR_LOG_LOG_HEAD + 1) % 8192 ∧
      ∀ k, k < 16 → ∀ base, (base = 0x0E0000 ∨ base = 0x100000) → ∃ w, AtPort t w ∧ w.idx = base + 16 * s.rd F.FCR_LOG_LOG_HEAD + k ∧ w.mask = 2 ^ 32 - 1 ∧
        w.val = (logWords s (s.rd F.FCR_LOG_SEQ_RSEQ_NEXT) r ++ [crcWords (logWords s (s.rd F.FCR_LOG_SEQ_RSEQ_NEXT) r)]).getD k 0) ∧
  (∀ s : State, s.fcr.logq = [] → exec .logRecordWrite s = .next s) ∧
  (∀ s : State, exec .logTokenRefill s = .next { s with fcr.tokens := min 64 (s.fcr.tokens + s.rd F.FCR_CTL_LOG_RATE) }) ∧
  (∀ (s : State) (w : MWord), s.pst.port = some w → s.glb.waits = [] → s.link.vc2Queue = [] → w.act = .hw → w.cls = 2 → isRepairWord w = false → s.wearAt w.idx < wearLimit →
    w.result (s.mramAt w.idx) ≠ s.mramAt w.idx →
    (∃ t, exec (.mramWordWriteDone false) s = .next t ∧ t.mramAt w.idx = w.result (s.mramAt w.idx) ∧ t.wearAt w.idx = s.wearAt w.idx + 1) ∧
    ∃ t, exec (.mramWordWriteDone true) s = .next t ∧ t.wearAt w.idx = wearLimit) ∧
  (∀ (s : State) (w : MWord), s.pst.port = some w → s.glb.waits = [] → s.link.vc2Queue = [] → w.act = .hw → isRepairWord w = false → s.wearAt w.idx < wearLimit →
    w.result (s.mramAt w.idx) ≠ s.mramAt w.idx → ∀ k, k ≠ w.idx → ∃ t, exec (.mramWordWriteDone false) s = .next t ∧ t.mramAt k = s.mramAt k) ∧
  (∀ (s : State) (torn : Bool), s.pst.port = none → s.link.vc2Queue = [] → exec (.mramWordWriteDone torn) s = .next s ∧ exec (.persistentWriteCommit torn) s = .next s) ∧
  (∀ (s : State) (w : MWord) (who : Fin 17) (n : Nat) (v : Word), s.pst.port = some w → s.glb.waits = [] → s.link.vc2Queue = [] → w.act = .preg who.val .core .PST_PREG n 0 v.toNat → n < 512 →
    s.wearAt w.idx < wearLimit → w.result (s.mramAt w.idx) ≠ s.mramAt w.idx →
    ∃ t, exec (.persistentWriteCommit false) s = .next t ∧ lastResult t who.val = Code.ok.num ∧ t.mramAt w.idx = w.result (s.mramAt w.idx)) ∧
  (∀ s : State, lifeRuns s = true → ∃ t, exec .lifetimeSecond s = .next t ∧ t.rd F.PST_LIFE_LIFE_S = min (s.rd F.PST_LIFE_LIFE_S + 1) (2 ^ 32 - 1) ∧
    t.pst.lifeAon = s.pst.lifeAon + 1 ∧ t.mem = s.mem) ∧
  (∀ s : State, s.pck.pow = .off → exec .lifetimeSecond s = .next s)

/-- O44. Sensor conversions, the throttle's computation, the two shutdown limits and the latch (R392; R393; R394; R396; R397; R399; Table 19.1 (19_thermal_and_coolant.md)). -/
def Obligations.ThermalSensorsAndTrips : Prop :=
  (∀ (s : State) (n : Fin 50) (raw : Int) (ok : Bool), s.pck.pow = .run →
    (let r := raw + signed8 (s.rd F.CST_CAL_TOFS_TOFS n.val)
     ∃ t, exec (.sensorConversion n raw ok) s = .next t ∧ SMap.get? t.thm.temp n.val = some (twos 13 r, ok && decide (-640 ≤ r) && decide (r ≤ 2400)) ∧
      t.mem = s.mem ∧ (ok = true → -640 ≤ r → r ≤ 2400 → min 4095 r.toNat ≤ SMap.getD t.thm.tmax n.val 0))) ∧
  (∀ (s : State) (n : Fin 50) (raw : Int) (ok : Bool), s.pck.pow = .off → exec (.sensorConversion n raw ok) s = .next s ∧ exec .throttleCompute s = .next s) ∧
  (∀ s : State, s.pck.pow = .run → ∃ t, exec .throttleCompute s = .next t ∧ t.reg.thetaNext = nextTheta s (excess s).1 ∧
    t.rd F.THM_STAT_THETA = nextTheta s (excess s).1 % 1024 ∧ t.rd F.THM_STAT_EXCESS = min 4095 (excess s).1 ∧ t.mem = s.mem ∧ t.rqe = s.rqe) ∧
  (∀ (s : State) (e : Nat), (blind s = true → 500 ≤ nextTheta s e) ∧
    (blind s = false → s.reg.thetaNext - s.rd F.THM_CTL_FALL ≤ nextTheta s e ∧
      nextTheta s e ≤ max s.reg.thetaNext (min (s.rd F.THM_CTL_CAP) (s.rd F.THM_CTL_SLOPE * e / 16)))) ∧
  (∀ (s : State) (n : Fin 50) (isD : Bool) (r : Int), s.pck.pow = .run → s.thm.shut = none → overLimit s n.val 115 105 = some (isD, r) →
    ∃ t, exec (.managedShutdown n) s = .next t ∧ t.thm.shut = some isD ∧ t.rd F.THM_TRIP_TS_KIND = (if isD then 2 else 1) ∧ t.rd F.THM_TRIP_TS_SENS = n.val ∧
      t.pck.pow = .powerFail ∧ (isD = true → t.mem = [] ∧ t.thm.tripped = true) ∧ (isD = false → t.mem = s.mem)) ∧
  (∀ (s : State) (n : Fin 50), overLimit s n.val 115 105 = none → exec (.managedShutdown n) s = .next s) ∧
  (∀ (s : State) (n : Fin 50) (isD : Bool) (r : Int), s.pck.pow = .run → s.thm.tripped = false → overLimit s n.val 123 113 = some (isD, r) →
    ∃ t, exec (.hwThermalTrip n) s = .next t ∧ t.thm.tripped = true ∧ t.thm.shut.isSome = true) ∧
  (∀ (s : State) (n : Fin 50), overLimit s n.val 123 113 = none → exec (.hwThermalTrip n) s = .next s) ∧
  (∀ s : State, s.pck.mainGood = false → s.pck.vbkp = true → (s.pck.mainLow + msec ≤ s.now → ∃ t, exec .thermtripLatchClear s = .next t ∧ t.thm.shut = none ∧ t.thm.tripped = false) ∧
    (s.now < s.pck.mainLow + msec → exec .thermtripLatchClear s = .next s))

/-- O45. A cold boot from main power to RUN: fuses, self-test, calibration, dies, training, fill, cores (R190; R231; R264; R267; R335; R346; R352; R354; R357; R365; Table 17.1 (17_reset_boot_and_self_test.md)). -/
def Obligations.ColdBootSteps : Prop :=
  (∀ s : State, s.pck.mainGood = true → (s.pck.pow = .off → s.thm.shut = none → (s.pck.offReq = false ∨ s.pck.wake = some 3) → ∃ t, exec .coldBoot s = .next t ∧ t.pck.pow = .boot ∧ t.pck.step = 2 ∧ t.mem = [] ∧
      t.pst.mram = s.pst.mram ∧ t.now = s.now ∧ t.pending = s.pending ∧ t.on F.PCK_STAT_VBKP_OK = true) ∧
    (s.pck.pow ≠ .off → exec .coldBoot s = .next s)) ∧
  (∀ (s : State) (wr ws : List Nat) (raised : BitVec 64) (te : Bool) (weak gone : List Nat), s.pck.pow = .boot → s.pck.step = 2 → s.pck.refclk = true →
    ∃ t, exec (.powerOnResetRelease wr ws raised te weak gone) s = .next t ∧ t.rd F.PST_BOOTS_BOOTS = min (s.mramAt (pregIdx 1) % 2 ^ 32 + 1) (2 ^ 32 - 1) ∧
      (te = true → t.pck.pow = .hold) ∧ (te = false → wr = [] → t.rd F.PST_FUSE_STAT_FFAIL = 0 → t.pck.pow = .boot ∧ t.pck.step = (if s.pck.resetLow then 3 else 4))) ∧
  (∀ (s : State) (b : Fin 5) (pass : Bool) (dur : BitVec 12) (sa tr : BitVec 10) (el : BitVec 24) (fails : List (Nat × Nat × Nat)), s.pck.pow = .boot → s.pck.step = 4 →
    bistTurn s b.val = true →
    (pass = true → ∃ t, exec (.bistBlockEnd b pass dur sa tr el fails) s = .next t ∧ t.pck.bistEnd = s.pck.bistEnd ++ [b.val] ∧ t.rd F.CST_BIST_DUR b.val = dur.toNat ∧
      t.pck.step = (if s.pck.bistEnd.length + 1 < 5 then 4 else 50) ∧ (4 ≤ s.pck.bistEnd.length → t.cst.run = some (31, none))) ∧
    (pass = false → s.pck.bistRan.contains b.val = false → s.now + dur.toNat * 10 * usec ≤ s.pck.stepAt + 40 * msec →
      ∃ t, exec (.bistBlockEnd b pass dur sa tr el fails) s = .next t ∧ t.pck.bistEnd = s.pck.bistEnd ∧ t.pck.bistRan = s.pck.bistRan ++ [b.val])) ∧
  (∀ (s : State) (res : BitVec 14) (codes : List Nat) (good held mask : Nat) (mbx : Option Nat), s.cst.run = some (mask, mbx) →
    ∃ t, exec (.calibrationRunEnd res codes good held) s = .next t ∧ t.cst.run = none ∧ t.on F.CST_CAL_STAT_CAL_BUSY = false ∧ t.rd F.CST_CAL_STAT_RES_MEAS = res.toNat ∧
      (s.pck.pow = .boot → s.pck.step = 50 → t.pck.step = 51) ∧
      ((res.toNat < 9950 ∨ 10050 < res.toNat) → t.rd F.CST_CAL_STAT_CAL_CAUSE = 1 ∧ ∀ n, n < 50 → t.rd F.CST_CAL_TOFS_TOFS n = s.rd F.CST_CAL_TOFS_TOFS n)) ∧
  (∀ s : State, s.cst.run = none → (s.pck.pow = .run ∨ s.pck.pow = .idle) → s.rd F.CST_CAL_CTL_PER_MASK ≠ 0 →
    s.cst.last + 3600 * s.rd F.CST_CAL_CTL_CAL_PER ≤ s.rd F.PST_LIFE_LIFE_S →
    ∃ t, exec .periodicCalibration s = .next t ∧ t.cst.run = some (s.rd F.CST_CAL_CTL_PER_MASK, none) ∧ t.cst.last = s.rd F.PST_LIFE_LIFE_S) ∧
  (∀ (s : State) (silent : BitVec 16), s.pck.pow = .boot → s.pck.step = 51 →
    (s.pck.tiers + 1 < 4 → ∃ t, exec (.dramTierReady silent) s = .next t ∧ t.pck.tiers = s.pck.tiers + 1 ∧ t.pck.step = 51 ∧ 
      t.pck.noDie = Nat.lor s.pck.noDie (silent.toNat % 16 * 2 ^ (4 * s.pck.tiers))) ∧
    (4 ≤ s.pck.tiers + 1 → ∃ t, exec (.dramTierReady silent) s = .next t ∧ (t.pck.step = 52 ∨ t.pck.step = 6) ∧
      ((∀ c, c < 32 → (t.dmcOf c).train = none) ↔ t.pck.step = 6))) ∧
  (∀ (s : State) (ch : Fin 32) (pass : Bool) (code vref : BitVec 6) (dead : BitVec 84) (lines : List Nat) (x : Train), (s.dmcOf ch.val).train = some x →
    (pass = true → x.step < 4 → ∃ t, exec (.rankTrainingEnd ch pass code vref dead lines) s = .next t ∧ (t.dmcOf ch.val).train = some { x with step := x.step + 1 }) ∧
    (pass = true → 4 ≤ x.step → x.ranks = [] → ∃ t, exec (.rankTrainingEnd ch pass code vref dead lines) s = .next t ∧ (t.dmcOf ch.val).train = none ∧ t.cstate ch.val = 2) ∧
    (pass = false → x.attempt < 2 → ∃ t, exec (.rankTrainingEnd ch pass code vref dead lines) s = .next t ∧
      (t.dmcOf ch.val).train = some { x with step := 0, attempt := x.attempt + 1 }) ∧
    (pass = false → 2 ≤ x.attempt → ∃ t, exec (.rankTrainingEnd ch pass code vref dead lines) s = .next t ∧ (t.dmcOf ch.val).train = none ∧ t.cstate ch.val = 0)) ∧
  (∀ (s : State) (codes bad : List Nat) (fails : List FillFail), s.pck.pow = .boot → s.pck.step = 6 → ∃ t, exec (.initFillEnd codes bad fails) s = .next t ∧ t.pck.pow = .run ∧
    t.pck.step = 8 ∧ t.mem = [] ∧ coreState t false = 1 ∧ coreState t true = 1 ∧ t.on F.SVC_STAT_MEM_RDY = true ∧ (s.link.refclk = true → ∀ g, g < 16 → (t.grp g).gst = .detect)) ∧
  (∀ (s : State) (okA okB : Bool), s.pck.test = false → coreState s false = 1 →
    (let b := s.rd F.MGT_BOOT_BOOT_SLOT
     let ok (n : Nat) : Bool := if n = 0 then okA else okB
     (imageOk s b (ok b) = true → ∃ t, exec (.coxBoot okA okB) s = .next t ∧ coreState t false = 2 ∧ activeCore t = false ∧ coreSlot t false = b % 2 ∧
       (coreState s true = 1 → coreState t true = if s.on F.MGT_CTL_STBY_EN then 3 else 0)) ∧
     (imageOk s b (ok b) = false → imageOk s (1 - b) (ok (1 - b)) = false → ∃ t, exec (.coxBoot okA okB) s = .next t ∧ coreState t false = 5) ∧
     (coreState s true = 1 → imageOk s b (ok b) = true → ∃ t, exec (.coxABootTimeout okA okB) s = .next t ∧ coreState t false = 0 ∧ coreState t true = 2 ∧ activeCore t = true)))

/-- O46. STK_RESET#, the stretch and the release; power failure, switch-over, retention and its collapse (R358; R360; R361; R363; R381; R382; R384; R386; R387; R388; R412; R419). -/
def Obligations.ResetsAndSupplies : Prop :=
  (∀ s : State, s.thm.shut = none → ((s.pck.pow = .run ∨ s.pck.pow = .idle ∨ s.pck.pow = .entering) → ∃ t, exec .stkResetAssert s = .next t ∧ t.pck.pow = .warm ∧
      t.pck.stretched = false ∧ t.pck.resetLow = true ∧ t.mem = s.mem) ∧
    (s.pck.pow = .sleep → ∃ t, exec .stkResetAssert s = .next t ∧ t.pck.pow = .warm ∧ t.pck.stretched = true) ∧
    (s.pck.pow = .boot → s.pck.step = 4 → ∃ t, exec .stkResetAssert s = .next t ∧ t.pck.step = 3 ∧ t.pck.resetLow = true)) ∧
  (∀ s : State, s.pck.pow = .warm → s.pck.stretched = false → (∀ c, c < 32 → s.cstate c ≠ 3) →
    ∃ t, exec .warmResetStretchEnd s = .next t ∧ t.pck.stretched = true ∧ t.rqe.reqs = [] ∧ ∀ c, c < 32 → s.cstate c ≠ 0 → t.cstate c = 4) ∧
  (∀ (s : State) (fail : List (Nat × Nat)), s.pck.pow = .warm → s.pck.stretched = true → s.pck.refclk = true →
    ∃ t, exec (.warmResetRelease fail) s = .next t ∧ t.pck.pow = .run ∧ t.pck.step = 8 ∧ t.pck.resetLow = false ∧ t.mem = s.mem ∧ t.link.up = false ∧
      (s.mgt.stored = [] → coreState t false = 1 ∧ coreState t true = 1 ∧ t.rd F.CST_BOOT_STAT_BOOT_KIND = 3 ∧
        t.rd F.CST_BOOT_STAT_WCAUSE = s.pck.warmCause % 4 ∧ ∀ m, m < 17 → mstate t m = 0)) ∧
  (∀ (s : State) (fail : List (Nat × Nat)), s.pck.pow = .boot → s.pck.step = 3 → ∃ t, exec (.warmResetRelease fail) s = .next t ∧ t.pck.step = 4 ∧ t.pck.resetLow = false) ∧
  (∀ s : State, (s.pck.pow = .sleep → s.pck.wake = none → exec .stkWakeRise s = .next { s with pck.wake := some 3 }) ∧
    (s.pck.pow = .deepSleep → s.pck.wake = none → exec .stkWakeRise s = .next { s with pck.wake := some 3 }) ∧
    (s.pck.pow = .off → s.pck.mainGood = false → s.pck.vbkp = true → exec .stkWakeRise s = .next { s with pck.wake := some 3 }) ∧
    (s.pck.pow = .off → s.pck.mainGood = true → s.pck.vbkp = true → s.thm.shut = none → ∃ t, exec .stkWakeRise s = .next t ∧ t.pck.pow = .boot ∧ t.rd F.PCK_STAT_WAKE_SRC = 3)) ∧
  (∀ s : State, (s.pck.pow = .run ∨ s.pck.pow = .idle ∨ s.pck.pow = .sleep ∨ s.pck.pow = .entering) → s.thm.shut = none → s.glb.waits = [] → s.link.vc2Queue = [] →
    (∃ t, exec .pwrFailAssert s = .next t ∧ t.pck.pow = .powerFail ∧ t.pst.only = true ∧ t.rd F.PCK_PF_PF_CAUSE = 0 ∧ t.mem = s.mem ∧
      ∀ sl, sl < 32 → s.sstate sl = ssOn → t.sstate sl = ssFlush) ∧
    (s.on F.PCK_CTL_DROOP_EN = true → ∃ t, exec .droopDetect s = .next t ∧ t.pck.pow = .powerFail ∧ t.rd F.PCK_PF_PF_CAUSE = 1) ∧
    (s.on F.PCK_CTL_DROOP_EN = false → exec .droopDetect s = .next s)) ∧
  (∀ s : State, s.pck.mainGood = true → ((s.pck.pow = .run ∨ s.pck.pow = .idle ∨ s.pck.pow = .sleep ∨ s.pck.pow = .entering ∨ s.pck.pow = .warm) → s.thm.shut = none →
      s.rd F.PCK_STAT_KEEL_MODE = 0 → ∃ t, exec .mainGoodFall s = .next t ∧ t.pck.mainGood = false ∧
      t.pck.pow = .powerFail ∧ t.rd F.PCK_STAT_KEEL_MODE = 1 ∧ t.on F.PCK_PF_PF_LATE = true ∧ t.mem = s.mem) ∧
    (s.pck.pow = .boot → ∃ t, exec .mainGoodFall s = .next t ∧ t.pck.pow = .off ∧ t.mem = []) ∧ exec .mainGoodRise s = .next s) ∧
  (∀ s : State, s.pck.mainGood = false → (s.pck.pow = .deepSleep → s.pck.wake = none → ∃ t, exec .mainGoodRise s = .next t ∧ t.pck.wake = some 4 ∧ t.pck.mainGood = true) ∧
    (s.pck.pow = .off → s.pck.vbkp = true → s.thm.shut = none → (s.pck.offReq = false ∨ s.pck.wake = some 3) → ∃ t, exec .mainGoodRise s = .next t ∧ t.pck.pow = .boot ∧ t.pck.step = 2) ∧ exec .mainGoodFall s = .next s) ∧
  (∀ s : State, (beforeSwitch s = true →
      (victimsIdle s = true → ∃ t, exec .powerFailSwitchover s = .next t ∧ t.rd F.PCK_STAT_KEEL_MODE = 1 ∧ t.pck.pow = .powerFail ∧ t.rqe.reqs = [] ∧ t.scc.line = [] ∧
        ∀ c, c < 32 → s.cstate c ≠ 0 → t.cstate c = 4) ∧
      ∃ t, exec .railLateFall s = .next t ∧ t.rd F.PCK_STAT_KEEL_MODE = 1 ∧ t.on F.PCK_PF_PF_LATE = true ∧ t.mem = s.mem) ∧
    (beforeSwitch s = false → exec .railLateFall s = .next s) ∧ (beforeSwitch s = false ∨ victimsIdle s = false → exec .powerFailSwitchover s = .next s)) ∧
  (∀ s : State, s.pck.pow = .powerFail → s.rd F.PCK_STAT_KEEL_MODE = 1 → s.pst.port = none → s.pst.q = [] →
    (s.on F.PCK_STAT_RET_AVAIL = true → s.thm.shut ≠ some true → ∃ t, exec .retentionEntryDone s = .next t ∧ t.pck.pow = .deepSleep ∧ t.rd F.PCK_STAT_KEEL_MODE = 2 ∧ t.mem = s.mem) ∧
    (s.on F.PCK_STAT_RET_AVAIL = false → ∃ t, exec .retentionEntryDone s = .next t ∧ t.pck.pow = .off ∧ t.mem = [])) ∧
  (∀ (s : State) (pass : Bool), (s.pck.pow = .boot → ∃ t, exec (.keelLoadCheck pass) s = .next t ∧ t.on F.PCK_STAT_RET_AVAIL = pass ∧
      (pass = false → t.rd F.PCK_KEEL_KEEL_CAUSE = 1)) ∧ (s.pck.pow ≠ .boot → exec (.keelLoadCheck pass) s = .next s)) ∧
  (∀ s : State, (s.pck.pow = .deepSleep → s.rd F.PCK_STAT_KEEL_MODE = 2 → ∃ t, exec .keelBrownout s = .next t ∧ t.pck.pow = .off ∧ t.mem = [] ∧ t.on F.PCK_KEEL_BO_LATCH = true) ∧
    (s.pck.pow = .run → exec .keelBrownout s = .next s)) ∧
  (∀ (s : State) (cause : Fin 5), s.pck.pow ≠ .off → (cause ≠ 0 → ∃ t, exec (.keelFault cause) s = .next t ∧ t.rd F.PCK_KEEL_KEEL_CAUSE = cause.val) ∧
    (cause = 0 → exec (.keelFault cause) s = .next s)) ∧
  (∀ (s : State) (mv : BitVec 24), s.pck.vbkp = true → ∃ t, exec (.vbkpLow mv) s = .next t ∧ t.on F.PCK_STAT_VBKP_OK = false ∧ t.mem = s.mem) ∧
  (∀ s : State, ∃ t, exec .vbkpCollapse s = .next t ∧ t.mem = [] ∧ t.pck.vbkp = false ∧ t.pck.pow = .off ∧ t.fcr.latched = [] ∧ t.pst.mram = s.pst.mram)

/-- O47. Lost clocks and PLLs, IDLE, the entries to SLEEP, DEEP SLEEP and OFF, and the exits (R320; R372; R374; R375; R377; R378; R379; R380; R414; Table 14.7 (14_faults_and_events.md)). -/
def Obligations.ClocksAndPowerStates : Prop :=
  (∀ s : State, (s.pck.refclk = true → (s.pck.pow = .run ∨ s.pck.pow = .idle ∨ s.pck.pow = .entering ∨ s.pck.pow = .warm) →
      ∃ t, exec .stkRefclkLoss s = .next t ∧ t.pck.refclk = false ∧ t.pck.pow = .warm ∧ t.pck.stretched = true ∧ t.rqe.reqs = []) ∧
    (s.pck.refclk = true → beforeSwitch s = true → ∃ t, exec .stkRefclkLoss s = .next t ∧ t.pck.refclk = false ∧ t.rd F.PCK_STAT_KEEL_MODE = 1 ∧ t.mem = s.mem) ∧
    ((s.pck.pow = .sleep ∨ s.pck.pow = .deepSleep ∨ s.pck.pow = .boot) → exec .stkRefclkLoss s = .next { s with pck.refclk := false }) ∧
    (s.pck.refclk = false → exec .stkRefclkLoss s = .next s)) ∧
  (∀ (s : State) (fail : List (Nat × Nat)), s.pck.refclk = false → (s.pck.pow = .warm → s.pck.stretched = true → s.pck.warmCause = 2 →
      ∃ t, exec (.stkRefclkReturn fail) s = .next t ∧ t.pck.refclk = true ∧ t.pck.pow = .run) ∧
    (s.pck.pow ≠ .warm → exec (.stkRefclkReturn fail) s = .next { s with pck.refclk := true })) ∧
  (∀ s : State, (s.pck.failedPll.contains 4 = false → ∃ t, exec .fabPllLoss s = .next t ∧ t.pck.fabDown = true ∧ t.pck.failedPll = s.pck.failedPll ++ [4]) ∧
    (s.pck.failedPll.contains 4 = true → exec .fabPllLoss s = .next s)) ∧
  (∀ (s : State) (bad : List Nat), (s.pck.fabDown = true → s.pck.stby = true → ∃ t, exec (.fabPllResume bad) s = .next t ∧ t.pck.fabDown = false ∧ t.pck.stby = false ∧
      t.on F.PCK_CLK_FAB_SRC = true) ∧ (s.pck.stby = false → exec (.fabPllResume bad) s = .next s)) ∧
  (∀ (s : State) (p : Fin 4), s.pck.failedPll.contains p.val = false → ∃ t, exec (.dckPllLoss p) s = .next t ∧ t.pck.failedPll = s.pck.failedPll ++ [p.val] ∧
    bit t.pck.dckDown p.val = true ∧ ∀ k, k < 8 → s.cstate (8 * p.val + k) = 2 → t.cstate (8 * p.val + k) = 4) ∧
  (∀ (s : State) (p : Fin 4), bit s.pck.dckDown p.val = true → s.pck.failedPll.contains p.val = true → s.pck.stby = true →
    ∃ t, exec (.dckPllRelockTimeout p) s = .next t ∧ bit (t.rd F.PCK_CLK_DCK_SRC) p.val = true ∧ t.pck.stby = false) ∧
  (∀ (s : State) (p : Fin 4), bit s.pck.dckDown p.val = true → s.pck.failedPll.contains p.val = false →
    ∃ t, exec (.dckPllRecover p []) s = .next t ∧ bit t.pck.dckDown p.val = false ∧ ∀ k, k < 8 → s.cstate (8 * p.val + k) = 4 → t.cstate (8 * p.val + k) = 2) ∧
  (∀ (s : State) (p : Fin 4) (fail : List (Nat × Nat)), bit s.pck.dckDown p.val = false → exec (.dckPllRecover p fail) s = .next s ∧ exec (.dckPllRelockTimeout p) s = .next s) ∧
  (∀ s : State, (s.on F.PCK_CLK_MCK_LOCK = true → ∃ t, exec .mckPllLoss s = .next t ∧ t.on F.PCK_CLK_MCK_LOCK = false ∧ t.on F.PCK_CLK_MCK_SEL = false) ∧
    (s.on F.PCK_CLK_MCK_LOCK = false → exec .mckPllLoss s = .next s)) ∧
  (∀ (s : State) (p : Fin 5), (s.pck.failedPll.contains p.val = true → ∃ t, exec (.pllRelock p) s = .next t ∧ t.pck.failedPll = s.pck.failedPll.filter (· != p.val)) ∧
    (s.pck.failedPll.contains p.val = false → exec (.pllRelock p) s = .next s)) ∧
  (∀ s : State, (s.pck.stby = true → ∃ t, exec .standbyPllUnusable s = .next t ∧ t.pck.stby = false ∧ t.on F.PCK_CLK_STBY_LOCK = false) ∧
    (s.pck.stby = false → exec .standbyPllUnusable s = .next s)) ∧
  (∀ s : State, (s.pck.pow = .run → s.on F.PCK_CTL_IDLE_EN = true → s.pck.step = 0 → (∀ r ∈ s.rqe.reqs, r.iss ≠ .host) → s.rqe.waiting = [] → exec .idleEntry s = .next { s with pck.pow := .idle }) ∧
    (s.on F.PCK_CTL_IDLE_EN = false → exec .idleEntry s = .next s) ∧ (s.pck.pow = .idle → exec .idleExit s = .next { s with pck.pow := .run })) ∧
  (∀ (s : State) (e : Entry), s.pck.entry = some e → e.acked = true → drained s = true → s.pck.commit = none →
    (refuser s e.target = none → (s.mbx e.mbx).await = .drain → ∃ t, exec .entryDrainEnd s = .next t ∧ (t.mbx e.mbx).await = .due .ok 0 [] ∧ t.pck = s.pck) ∧
    (∀ c d, refuser s e.target = some (c, d) → ∃ t, exec .entryDrainEnd s = .next t ∧ t.pck.entry = none ∧ t.pck.pow = .run ∧
      (t.mbx e.mbx).await = .due .busy (refuseDetail c d true) [])) ∧
  (∀ s : State, s.pck.pow = .entering → s.pck.wfi = true → linkQuiet s = true → channelsQuiet s = true →
    (s.rd F.PCK_MODE_MODE = 1 → ∃ t, exec .sequencerEntry s = .next t ∧ t.pck.pow = .sleep ∧ t.mem = s.mem) ∧
    (s.rd F.PCK_MODE_MODE = 2 → ∃ t, exec .sequencerEntry s = .next t ∧ t.pck.pow = .deepSleep ∧ t.rd F.PCK_STAT_KEEL_MODE = 2) ∧
    (s.rd F.PCK_MODE_MODE = 3 → s.pst.port = none → s.pst.q = [] → ∃ t, exec .sequencerEntry s = .next t ∧ t.pck.pow = .off ∧ t.mem = [])) ∧
  (∀ (s : State) (fail : List (Nat × Nat)) (c : Nat), s.pck.wake = some c → c < 8 → s.pck.refclk = true → s.pck.resetLow = false →
    (s.pck.pow = .sleep → ∃ t, exec (.sleepExit fail) s = .next t ∧ t.pck.pow = .run ∧ t.pck.wake = none ∧ t.rd F.PCK_STAT_WAKE_SRC = c) ∧
    (s.pck.pow = .deepSleep → s.pck.mainGood = true → s.thm.shut = none → ∀ (peak : BitVec 10) (codes : List Nat), ∃ t, exec (.deepSleepExit fail peak codes) s = .next t ∧
      t.pck.pow = .run ∧ t.mem = s.mem ∧ (s.mgt.stored = [] → t.rd F.PCK_STAT_WAKE_SRC = c ∧ t.rd F.PCK_STAT_KEEL_MODE = 0 ∧ t.rd F.CST_BOOT_STAT_BOOT_KIND = 2 ∧
        ∀ m, m < 17 → mstate t m = 0))) ∧
  (∀ (s : State) (fail : List (Nat × Nat)) (peak : BitVec 10) (codes : List Nat), s.pck.wake = none → exec (.sleepExit fail) s = .next s ∧ exec (.deepSleepExit fail peak codes) s = .next s ∧
    (s.pck.pow = .sleep → exec .serviceDoorbellWake s = .next { s with pck.wake := some 2 }) ∧ (s.pck.pow = .run → exec .serviceDoorbellWake s = .next s))

/-- O48. Watchdogs, core faults, the standby's reload, the end of a trial, and leases that expire (R264; R268; R270; R278; R433; R434; Table 12.3 (12_cox_cores_and_mailboxes.md)). -/
def Obligations.CoresAndLeases : Prop :=
  (∀ s : State, activeCore s = false → coreState s false = 2 → coreState s true = 3 → s.mgt.trial = none → 0 < s.rd F.MGT_CTL_WDT_US →
    (s.mgt.beat.1 + s.rd F.MGT_CTL_WDT_US * usec ≤ s.now → ∃ t, exec .watchdogExpiry s = .next t ∧ coreState t false = 0 ∧ coreState t true = 2 ∧ activeCore t = true ∧
      t.rd F.MGT_TAKE_TCAUSE = 1 ∧ t.mem = s.mem) ∧
    (s.now < s.mgt.beat.1 + s.rd F.MGT_CTL_WDT_US * usec → s.now < s.mgt.beat.2 + s.rd F.MGT_CTL_WDT_US * usec → exec .watchdogExpiry s = .next s)) ∧
  (∀ (s : State) (b : Bool) (cause : Fin 4),
    ((coreState s b = 3 ∨ coreState s b = 4) → ∃ t, exec (.coxFault b cause) s = .next t ∧ coreState t b = 4 ∧ coreState t (!b) = coreState s (!b)) ∧
    (coreState s b = 2 → coreState s (!b) ≠ 3 → ∃ t, exec (.coxFault b cause) s = .next t ∧ coreState t b = 1 ∧ t.mgt.trial = none ∧ t.mem = s.mem) ∧
    (coreState s b = 2 → coreState s (!b) = 3 → activeCore s = b →
      ∃ t, exec (.coxFault b cause) s = .next t ∧ coreState t b = 0 ∧ coreState t (!b) = 2 ∧ activeCore t = (!b) ∧ t.mgt.trial = none ∧
      t.rd F.MGT_TAKE_TCAUSE = (if s.mgt.trial.isSome = true then 6 else cause.val)) ∧
    (coreState s b = 0 → exec (.coxFault b cause) s = .next s)) ∧
  (∀ (s : State) (ok : Bool), coreState s (activeCore s) = 2 → (coreState s (!activeCore s) = 0 ∨ coreState s (!activeCore s) = 4) → s.on F.MGT_CTL_STBY_EN = true →
    (activeCore s = false ∨ s.mgt.heldA = false) →
    (imageOk s (coreSlot s (activeCore s)) ok = true → ∃ t, exec (.standbyReloadDone ok) s = .next t ∧ coreState t (!activeCore s) = 3 ∧
      coreSlot t (!activeCore s) = coreSlot s (activeCore s) % 2) ∧
    (imageOk s (coreSlot s (activeCore s)) ok = false → ∃ t, exec (.standbyReloadDone ok) s = .next t ∧ coreState t (!activeCore s) = 4)) ∧
  (∀ (s : State) (slot u : Nat), s.mgt.trial = some (slot, u) →
    (u + s.rd F.MGT_CTL_TRIAL_S * second ≤ s.now → ∃ t, exec .trialEnd s = .next t ∧ t.mgt.trial = none ∧ t.rd F.MGT_BOOT_BOOT_SLOT = slot % 2 ∧ t.rd F.MGT_STAT_TRIAL = 0 ∧
      coreState t (!activeCore s) = 4) ∧
    (s.now < u + s.rd F.MGT_CTL_TRIAL_S * second → exec .trialEnd s = .next s)) ∧
  (∀ s : State, ∃ t, exec .leaseExpiry s = .next t ∧ t.mem = s.mem ∧ t.rqe = s.rqe ∧ ∀ i, i < 5 →
    ((SMap.getD s.mgt.leases i (0, 0)).2 ≤ s.now → leaseHolder t i = 0xFF) ∧
    (s.now < (SMap.getD s.mgt.leases i (0, 0)).2 → leaseHolder t i = leaseHolder s i ∧ leaseIdent t i = leaseIdent s i)) ∧
  (∀ (s : State) (x : List Byte × Nat), s.mgt.nonce = some x → (x.2 ≤ s.now → exec .nonceExpiry s = .next { s with mgt.nonce := none }) ∧
    (s.now < x.2 → exec .nonceExpiry s = .next s)) ∧
  (∀ s : State, s.on F.SVC_STAT_AUTH_LOCK = true → (s.mgt.lockTo ≤ s.now → ∃ t, exec .authLockEnd s = .next t ∧ t.on F.SVC_STAT_AUTH_LOCK = false ∧ t.mgt.fails = []) ∧
    (s.now < s.mgt.lockTo → exec .authLockEnd s = .next s))

/-- O49. Frames, bulk blocks, the service link, EP0 requests, and the lock of a turned group (R75; R428; R429; R430; R431; R432; R435; R437; R438). -/
def Obligations.ServicePortCommands : Prop :=
  (∀ (s : State) (stag : BitVec 16) (raddr : BitVec 32) (data : Word), framesOpen s = true →
    exec (.svcRregFrame stag raddr) s = .next (access (countFrame s) { who := 16, org := .svc stag.toNat, wr := false, off := raddr.toNat % 2 ^ 24, val := 0 }) ∧
    exec (.svcWregFrame stag raddr data) s = .next (access (countFrame s) { who := 16, org := .svc stag.toNat, wr := true, off := raddr.toNat % 2 ^ 24, val := data.toNat }) ∧
    (s.mgt.auth = false → pregPending s 16 = false → (∃ r i j, regAt (raddr.toNat % 2 ^ 24) = some (r, i, j) ∧ openReg r = false) →
      ∃ t, exec (.svcRregFrame stag raddr) s = .next t ∧ lastResult t 16 = Code.privilege.num)) ∧
  (∀ (s : State) (stag : BitVec 16) (raddr : BitVec 32) (data : Word) (msg raw : List Byte), framesOpen s = false → exec (.svcRregFrame stag raddr) s = .next s ∧
    exec (.svcWregFrame stag raddr data) s = .next s ∧ exec (.mbxFrame stag msg) s = .next s ∧ exec (.frameErr raw) s = .next s) ∧
  (∀ (s : State) (stag : BitVec 16) (msg : List Byte), framesOpen s = true → s.pck.pow = .run → 16 ≤ msg.length → msg.length ≤ 4096 → s.svc.mbxTag = none → mstate s 16 = 1 →
    leAt msg 2 2 = expSeq s 16 → knownOpcode (leAt msg 0 2) = true →
    ∃ t, exec (.mbxFrame stag msg) s = .next t ∧ mstate t 16 = 2 ∧ t.svc.mbxTag = some stag.toNat ∧ (t.mbx 16).cmd = bufPut (s.mbx 16).cmd 0 msg ∧ (t.mbx 16).ran = false) ∧
  (∀ (s : State) (raw : List Byte), framesOpen s = true → 8 ≤ raw.length → 4 ≤ leAt raw 0 1 → ∃ t, exec (.frameErr raw) s = .next t ∧
    t.out = s.out ++ [.ep1 (svcFrame 0x84 (leAt raw 2 2) (leBytes 4 Code.badOpcode.num))] ∧ t.mem = s.mem ∧ t.mgt = s.mgt) ∧
  (∀ (s : State) (bytes : List Byte) (x : Xfer), s.svc.xfer = some x → x.fill = true → svcUp s = true → rqeRuns s = true → bytes.length = 4176 → internalRoom s 64 = true →
    (crc32 (bytes.drop 16) = leAt bytes 12 4 → 1 < x.left → ∃ t, exec (.fillBlock bytes) s = .next t ∧
      t.svc.xfer = some { x with addr := x.addr + 4096, left := x.left - 1, out := false }) ∧
    (crc32 (bytes.drop 16) = leAt bytes 12 4 → x.left = 1 → ∃ t, exec (.fillBlock bytes) s = .next t ∧ t.svc.xfer = none ∧ t.rd F.SVC_DRN_STAT_DRN_RES = Code.ok.num) ∧
    (crc32 (bytes.drop 16) ≠ leAt bytes 12 4 → ∃ t, exec (.fillBlock bytes) s = .next t ∧ t.svc.xfer = none ∧ t.rd F.SVC_DRN_STAT_DRN_RES = Code.integrity.num ∧ t.mem = s.mem)) ∧
  (∀ (s : State) (x : Xfer), s.svc.xfer = some x → x.fill = false → svcUp s = true → x.out = false → rqeRuns s = true → internalRoom s 0 = true →
    ∃ t, exec .drainBlock s = .next t ∧ t.svc.xfer = some { x with out := true } ∧ t.mem = s.mem) ∧
  (∀ (s : State) (x : Xfer) (r : Req) (c : Cpl), s.svc.xfer = some x → x.fill = false → svcUp s = true → x.out = true →
    (s.rqe.reqs.find? fun r => r.iss == .service && r.op == .rd && r.cpl.isSome) = some r → r.cpl = some c →
    ∃ t, exec .drainBlock s = .next t ∧ t.out = s.out ++ [.ep3 (drainBytes x.addr c.status (decide (x.left ≤ 1)) c.sects)] ∧ t.mem = s.mem) ∧
  (∀ s : State, s.svc.xfer = none → exec .drainBlock s = .next s ∧ ∀ bytes, exec (.fillBlock bytes) s = .next s) ∧
  (∀ (s : State) (gen3 : Bool), svcPowered s = true → s.on F.SVC_CTL_SVC_EN = true →
    (s.rd F.SVC_STAT_SLSTATE = 0 → ∃ t, exec (.serviceLinkChange 1 gen3) s = .next t ∧ t.rd F.SVC_STAT_SLSTATE = 1) ∧
    (s.rd F.SVC_STAT_SLSTATE = 1 → ∃ t, exec (.serviceLinkChange 2 gen3) s = .next t ∧ t.rd F.SVC_STAT_SLSTATE = 2 ∧
      t.rd F.SVC_STAT_SGEN = (if gen3 = true ∧ s.on F.SVC_CTL_GEN2_ONLY = false then 3 else 2)) ∧
    (s.rd F.SVC_STAT_SLSTATE = 2 → ∃ t, exec (.serviceLinkChange 3 gen3) s = .next t ∧ t.rd F.SVC_STAT_SLSTATE = 3)) ∧
  (∀ s : State, ∃ t, exec .serviceLinkDown s = .next t ∧ t.rd F.SVC_STAT_SLSTATE = 0 ∧ t.mgt.auth = false ∧ t.svc.xfer = none ∧ t.svc.mbxTag = none ∧ t.mem = s.mem) ∧
  (∀ (s : State) (value len : BitVec 16), svcUp s = true →
    (value.toNat / 256 = 1 → exec (.ep0StandardRequest 6 value len) s = .next { s with out := s.out ++ [.ep0 ((deviceDesc s).take len.toNat)] }) ∧
    (value.toNat % 256 ≤ 1 → ∃ t, exec (.ep0StandardRequest 9 value len) s = .next t ∧ t.rd F.SVC_STAT_USB_CFG = value.toNat % 256)) ∧
  (∀ (s : State) (x : Turn), s.link.turn = some x → x.step = .quietLine → (s.grp x.grp).dir = true →
    ∃ t, exec (.turnCdrLock 0) s = .next t ∧ t.link.turn = some { x with step := .locked } ∧ (t.grp x.grp).dir = false ∧ (t.grp x.grp).needStart = true) ∧
  (∀ (s : State) (failing : BitVec 17), s.link.turn = none → exec (.turnCdrLock failing) s = .next s)

/-- O50. A mailbox command runs only while it is in hand, and not twice; a sender without the right is refused (R12; R25; R270; R275; R279; R280). -/
def Obligations.MailboxCommandsRunOnceInOrder : Prop :=
  (∀ (s : State) (m : Fin 17), (mstate s m.val ≠ 2 ∨ (s.mbx m.val).ran = true ∨ coreServes s = false) → ∀ c ∈ [Instr.sessionOpen m, Instr.sessionClose m, Instr.leaseAcquire m, Instr.leaseRenew m, Instr.leaseRelease m, Instr.getIdentity m, Instr.svcAuthNonce m, Instr.cfgRegionSet m, Instr.cfgRegionGet m, Instr.cfgDomainSet m, Instr.cfgDomainGet m, Instr.cfgHashSet m, Instr.cfgPurge m, Instr.cfgLinkSet m, Instr.cfgTurn m, Instr.regClassSet m, Instr.regGlobalSet m, Instr.regBowSet m, Instr.regRsvSet m, Instr.regRsvFree m, Instr.regGet m, Instr.cachePolicySet m, Instr.cacheOp m, Instr.cacheGet m, Instr.memRead m, Instr.memWrite m, Instr.memZero m, Instr.rprRow m, Instr.rprGet m, Instr.foldMode m, Instr.foldStart m, Instr.tsvKill m, Instr.rfmSet m, Instr.dipSet m, Instr.dmcSet m, Instr.pwrEnter m, Instr.pwrVote m, Instr.pwrGet m, Instr.thmSet m, Instr.calRun m, Instr.calGet m, Instr.fwLoadBegin m, Instr.fwLoad m, Instr.fwTakeover m, Instr.fwSvnCommit m, Instr.fwGet m, Instr.fwSet m, Instr.logRead m, Instr.faultGet m, Instr.evtRouteSet m, Instr.evtRouteGet m, Instr.fcrSet m, Instr.weighEnough m, Instr.resume m, Instr.testEccInj m, Instr.fuseReadCmd m, Instr.fuseLock m], exec c s = .next s) ∧
  (∀ (s : State) (m : Fin 17), m.val ≠ 0 → m.val ≠ 16 →
    (InHand s m.val 0x0600 → internalRoom s 0 = true → ∃ t, exec (.memRead m) s = .next t ∧ Answered t m.val (.due .privilege 0 []) ∧ t.mem = s.mem ∧ t.regs = s.regs ∧ t.rqe = s.rqe) ∧
    (InHand s m.val 0x0803 → ∃ t, exec (.thmSet m) s = .next t ∧ Answered t m.val (.due .privilege 0 []) ∧ t.regs = s.regs ∧ t.link = s.link) ∧
    (InHand s m.val 0x0C01 → ∃ t, exec (.resume m) s = .next t ∧ Answered t m.val (.due .privilege 0 []) ∧ t.regs = s.regs ∧ t.rqe = s.rqe)) ∧
  (∀ (s : State) (m : Nat) (ws : List FwWrite), (fwWrites s m ws).c ≠ .ok → ∀ pay, (replyWrites s m .ok ws pay).c = (fwWrites s m ws).c ∧ (replyWrites s m .ok ws pay).st = s) ∧
  (∀ l : List Code, firstOf l = .ok ↔ ∀ c ∈ l, c = .ok) ∧
  (∀ (l : List Code) (c : Code), c ∈ l → codeRank (firstOf l) ≤ codeRank c)

/-- O51. Sessions, leases, identity, attestation and the service host's authentication (R278; R283; R433; R434; Table 12.6 (12_cox_cores_and_mailboxes.md); Table 12.8 (12_cox_cores_and_mailboxes.md); Table 12.9 (12_cox_cores_and_mailboxes.md)). -/
def Obligations.SessionIdentityAndLeaseCommands : Prop :=
  (∀ (s : State) (m : Fin 17), InHand s m.val 0x0100 → cmdLen s m.val = 0 → ∃ t, exec (.sessionOpen m) s = .next t ∧ ReadsOnly s t m.val (u32 (runningVer s) ++ u16 4080 ++ u16 0)) ∧
  (∀ (s : State) (m : Fin 17), InHand s m.val 0x0101 → cmdLen s m.val = 0 → ∃ t, exec (.sessionClose m) s = .next t ∧ ReadsOnly s t m.val []) ∧
  (∀ (s : State) (m : Fin 17) (i : Fin 5), InHand s m.val 0x0102 → isP s m.val = true → cmdLen s m.val = 1 → b1 (cmdPayload s m.val) 0 = 0x10 + i.val →
    (leaseHolder s i.val = 0xFF → ∃ t ident, exec (.leaseAcquire m) s = .next t ∧ Answered t m.val (.due .ok 0 (u32 ident)) ∧ leaseHolder t i.val = m.val ∧
      leaseIdent t i.val = ident ∧ ident ≠ 0 ∧ SMap.get? t.mgt.leases i.val = some (ident, s.now + 100 * msec)) ∧
    (leaseHolder s i.val ≠ 0xFF → leaseHolder s i.val ≠ m.val → ∃ t, exec (.leaseAcquire m) s = .next t ∧
      Answered t m.val (.due .resource (0x10 + i.val + leaseHolder s i.val * 256) []) ∧ leaseHolder t i.val = leaseHolder s i.val)) ∧
  (∀ (s : State) (m : Fin 17) (i : Nat), InHand s m.val 0x0103 → cmdLen s m.val = 0 → leaseOf s m.val (cmdLease s m.val) = some i →
    ∃ t, exec (.leaseRenew m) s = .next t ∧ Answered t m.val (.due .ok 0 (u16 100)) ∧ SMap.get? t.mgt.leases i = some (leaseIdent s i, s.now + 100 * msec)) ∧
  (∀ (s : State) (m : Fin 17), InHand s m.val 0x0103 → cmdLen s m.val = 0 → leaseOf s m.val (cmdLease s m.val) = none → ∃ t, exec (.leaseRenew m) s = .next t ∧ Answered t m.val (.due .lease 0 [])) ∧
  (∀ (s : State) (m : Fin 17) (i : Nat), InHand s m.val 0x0104 → cmdLen s m.val = 0 → leaseOf s m.val (cmdLease s m.val) = some i →
    ∃ t, exec (.leaseRelease m) s = .next t ∧ Answered t m.val (.due .ok 0 []) ∧ leaseHolder t i = 0xFF) ∧
  (∀ (s : State) (m : Fin 17), InHand s m.val 0x0200 → cmdLen s m.val = 0 → 
    (∃ t a, exec (.getIdentity m) s = .next t ∧ ReadsOnly s t m.val a ∧ a.length = 25)) ∧
  (∀ (s : State) (m : Fin 17) (b : SpdmBlobs), InHand s m.val 0x0201 → cmdLen s m.val = 4 → b1 (cmdPayload s m.val) 0 = 0x10 → b1 (cmdPayload s m.val) 1 = 0x84 →
    ∃ t, exec (.spdmMsg m b) s = .next t ∧ Answered t m.val (.due .ok 0 spdmVersion) ∧ (t.mbx m.val).spdm = 1 ∧ t.regs = s.regs) ∧
  (∀ (s : State) (m : Fin 17), InHand s m.val 0x0202 → isSvc s m.val = true → cmdLen s m.val = 0 → ∃ t n, exec (.svcAuthNonce m) s = .next t ∧ Answered t m.val (.due .ok 0 n) ∧ n.length = 48 ∧ t.mgt.nonce = some (n, s.now + 10 * second)) ∧
  (∀ (s : State) (m : Fin 17) (ok : Bool) (n : List Byte) (u : Nat), InHand s m.val 0x0203 → isSvc s m.val = true → cmdLen s m.val = 193 → s.on F.SVC_STAT_AUTH_LOCK = false → s.mgt.nonce = some (n, u) →
    (s.now < u → ok = true → ∃ t, exec (.svcAuthProve m ok) s = .next t ∧ Answered t m.val (.due .ok 0 []) ∧ t.mgt.auth = true ∧ t.mgt.nonce = none) ∧
    (s.now < u → ok = false → ∃ t, exec (.svcAuthProve m ok) s = .next t ∧ Answered t m.val (.due .auth 0 []) ∧ t.mgt.auth = s.mgt.auth ∧ t.mgt.nonce = none) ∧
    (u ≤ s.now → ∃ t, exec (.svcAuthProve m ok) s = .next t ∧ Answered t m.val (.due .state 0 []) ∧ t.mgt.auth = s.mgt.auth))

/-- O52. The commands of configuration, regulation and cache write their registers, all or none (R119; R122; R133; R138; R140; R141; R148; R166; R280; Table 12.10 (12_cox_cores_and_mailboxes.md); Table 12.11 (12_cox_cores_and_mailboxes.md); Table 12.12 (12_cox_cores_and_mailboxes.md)). -/
def Obligations.ConfigurationCommands : Prop :=
  (∀ (s : State) (m : Fin 17), InHand s m.val 0x0300 → isP s m.val = true → cmdLen s m.val = 9 → leaseOf s m.val (cmdLease s m.val) = some 0 → 
    (let p := cmdPayload s m.val
     b1 p 0 < 64 → Accepted s m.val ([(.RQE_RGN_B, b1 p 0, 0, [(F.RQE_RGN_B_SIZE_M1, b2 p 4), (F.RQE_RGN_B_PBASE, b2 p 6)]), (.RQE_RGN_A, b1 p 0, 0, [(F.RQE_RGN_A_RDOM, b1 p 1), (F.RQE_RGN_A_DBASE, b2 p 2), (F.RQE_RGN_A_WR, b1 p 8 % 2), (F.RQE_RGN_A_EN, b1 p 8 / 2 % 2)])]) →
     ∃ t, exec (.cfgRegionSet m) s = .next t ∧ Written s t m.val ([(.RQE_RGN_B, b1 p 0, 0, [(F.RQE_RGN_B_SIZE_M1, b2 p 4), (F.RQE_RGN_B_PBASE, b2 p 6)]), (.RQE_RGN_A, b1 p 0, 0, [(F.RQE_RGN_A_RDOM, b1 p 1), (F.RQE_RGN_A_DBASE, b2 p 2), (F.RQE_RGN_A_WR, b1 p 8 % 2), (F.RQE_RGN_A_EN, b1 p 8 / 2 % 2)])]) [] ∧ t.rd F.RQE_RGN_A_RDOM (b1 p 0) = b1 p 1 ∧ t.rd F.RQE_RGN_A_EN (b1 p 0) = b1 p 8 / 2 % 2 ∧ t.rd F.RQE_RGN_B_PBASE (b1 p 0) = b2 p 6)) ∧
  (∀ (s : State) (m : Fin 17), InHand s m.val 0x0301 → isP s m.val = true → cmdLen s m.val = 1 → 
    (let p := cmdPayload s m.val
     b1 p 0 < 64 → ∃ t a, exec (.cfgRegionGet m) s = .next t ∧ ReadsOnly s t m.val a ∧ a.length = 13)) ∧
  (∀ (s : State) (m : Fin 17), InHand s m.val 0x0302 → isP s m.val = true → cmdLen s m.val = 15 → leaseOf s m.val (cmdLease s m.val) = some 0 → 
    (let p := cmdPayload s m.val
     b1 p 0 < 16 → Accepted s m.val ((if b1 p 1 = 0 then [(.RQE_DOM_CTL, b1 p 0, 0, [(F.RQE_DOM_CTL_EN, b1 p 1), (F.RQE_DOM_CTL_RB_CAP, b2 p 7)])] else []) ++
       (if b1 p 6 = 0 then [(.REG_BOW_EN, b1 p 0, 0, [(F.REG_BOW_EN_BOW_EN, b1 p 6)]), (.REG_BOW, b1 p 0, 0, [(F.REG_BOW_BOW_BASE, b2 p 2), (F.REG_BOW_BOW_LAST, b2 p 4)])]
        else [(.REG_BOW, b1 p 0, 0, [(F.REG_BOW_BOW_BASE, b2 p 2), (F.REG_BOW_BOW_LAST, b2 p 4)]), (.REG_BOW_EN, b1 p 0, 0, [(F.REG_BOW_EN_BOW_EN, b1 p 6)])]) ++
       [(.HLL_CRD, b1 p 0, 0, [(F.HLL_CRD_VC0_MIN, b2 p 9), (F.HLL_CRD_VC0_CAP, b2 p 11)])] ++
       (List.range 32).map (fun sl => (.SCC_DOM_WAYS, sl, b1 p 0 / 2, [(waysField (b1 p 0), b2 p 13)])) ++
       (if b1 p 1 = 0 then [] else [(.RQE_DOM_CTL, b1 p 0, 0, [(F.RQE_DOM_CTL_EN, b1 p 1), (F.RQE_DOM_CTL_RB_CAP, b2 p 7)])])) →
     ∃ t, exec (.cfgDomainSet m) s = .next t ∧ Written s t m.val ((if b1 p 1 = 0 then [(.RQE_DOM_CTL, b1 p 0, 0, [(F.RQE_DOM_CTL_EN, b1 p 1), (F.RQE_DOM_CTL_RB_CAP, b2 p 7)])] else []) ++
       (if b1 p 6 = 0 then [(.REG_BOW_EN, b1 p 0, 0, [(F.REG_BOW_EN_BOW_EN, b1 p 6)]), (.REG_BOW, b1 p 0, 0, [(F.REG_BOW_BOW_BASE, b2 p 2), (F.REG_BOW_BOW_LAST, b2 p 4)])]
        else [(.REG_BOW, b1 p 0, 0, [(F.REG_BOW_BOW_BASE, b2 p 2), (F.REG_BOW_BOW_LAST, b2 p 4)]), (.REG_BOW_EN, b1 p 0, 0, [(F.REG_BOW_EN_BOW_EN, b1 p 6)])]) ++
       [(.HLL_CRD, b1 p 0, 0, [(F.HLL_CRD_VC0_MIN, b2 p 9), (F.HLL_CRD_VC0_CAP, b2 p 11)])] ++
       (List.range 32).map (fun sl => (.SCC_DOM_WAYS, sl, b1 p 0 / 2, [(waysField (b1 p 0), b2 p 13)])) ++
       (if b1 p 1 = 0 then [] else [(.RQE_DOM_CTL, b1 p 0, 0, [(F.RQE_DOM_CTL_EN, b1 p 1), (F.RQE_DOM_CTL_RB_CAP, b2 p 7)])])) [] ∧ t.rd F.RQE_DOM_CTL_RB_CAP (b1 p 0) = b2 p 7 ∧ t.rd F.HLL_CRD_VC0_CAP (b1 p 0) = b2 p 11)) ∧
  (∀ (s : State) (m : Fin 17), InHand s m.val 0x0303 → isP s m.val = true → cmdLen s m.val = 1 → 
    (let p := cmdPayload s m.val
     b1 p 0 < 16 → ∃ t a, exec (.cfgDomainGet m) s = .next t ∧ ReadsOnly s t m.val a ∧ a.length = 19)) ∧
  (∀ (s : State) (m : Fin 17), InHand s m.val 0x0304 → isP s m.val = true → cmdLen s m.val = 22 → leaseOf s m.val (cmdLease s m.val) = some 0 → 
    (let p := cmdPayload s m.val
     s.on F.RQE_STAT_ADMITTED = false → Accepted s m.val ((List.range 5).map (fun i => (.RQE_HASH_MASK, i, 0, [(F.RQE_HASH_MASK_MASK, b4 p (2 + 4 * i))])) ++ [(.RQE_CTL, 0, 0, [(F.RQE_CTL_HASH_SEL, b1 p 0), (F.RQE_CTL_CH_LSB, b1 p 1)])]) →
     ∃ t, exec (.cfgHashSet m) s = .next t ∧ Written s t m.val ((List.range 5).map (fun i => (.RQE_HASH_MASK, i, 0, [(F.RQE_HASH_MASK_MASK, b4 p (2 + 4 * i))])) ++ [(.RQE_CTL, 0, 0, [(F.RQE_CTL_HASH_SEL, b1 p 0), (F.RQE_CTL_CH_LSB, b1 p 1)])]) [] ∧ t.rd F.RQE_CTL_HASH_SEL = b1 p 0 ∧ t.rd F.RQE_CTL_CH_LSB = b1 p 1)) ∧
  (∀ (s : State) (m : Fin 17), InHand s m.val 0x0305 → isP s m.val = true → cmdLen s m.val = 1 → leaseOf s m.val (cmdLease s m.val) = some 0 → 
    (let p := cmdPayload s m.val
     b1 p 0 < 16 → Accepted s m.val ([(.RQE_DOM_CTL, b1 p 0, 0, [(F.RQE_DOM_CTL_PURGE, 1)])]) →
     ∃ t, exec (.cfgPurge m) s = .next t ∧ Written s t m.val ([(.RQE_DOM_CTL, b1 p 0, 0, [(F.RQE_DOM_CTL_PURGE, 1)])]) [])) ∧
  (∀ (s : State) (m : Fin 17), InHand s m.val 0x0306 → isP s m.val = true → cmdLen s m.val = 4 → leaseOf s m.val (cmdLease s m.val) = some 0 → 
    (let p := cmdPayload s m.val
     Accepted s m.val ([(.HLL_CTL, 0, 0, [(F.HLL_CTL_AUTO_BAL, b1 p 0 % 2), (F.HLL_CTL_NAK_LIMIT, b1 p 1), (F.HLL_CTL_ACK_TMO, b1 p 2), (F.HLL_CTL_REPLAY_THR, b1 p 3)])] ++
       (List.range 16).map (fun g => (.HLP_CTL, g, 0, [(F.HLP_CTL_QUIET_EN, b1 p 0 / 2 % 2), (F.HLP_CTL_DEEP_EN, b1 p 0 / 4 % 2)]))) →
     ∃ t, exec (.cfgLinkSet m) s = .next t ∧ Written s t m.val ([(.HLL_CTL, 0, 0, [(F.HLL_CTL_AUTO_BAL, b1 p 0 % 2), (F.HLL_CTL_NAK_LIMIT, b1 p 1), (F.HLL_CTL_ACK_TMO, b1 p 2), (F.HLL_CTL_REPLAY_THR, b1 p 3)])] ++
       (List.range 16).map (fun g => (.HLP_CTL, g, 0, [(F.HLP_CTL_QUIET_EN, b1 p 0 / 2 % 2), (F.HLP_CTL_DEEP_EN, b1 p 0 / 4 % 2)]))) [] ∧ t.rd F.HLL_CTL_NAK_LIMIT = b1 p 1 ∧ t.rd F.HLL_CTL_ACK_TMO = b1 p 2)) ∧
  (∀ (s : State) (m : Fin 17), InHand s m.val 0x0307 → isP s m.val = true → cmdLen s m.val = 2 → leaseOf s m.val (cmdLease s m.val) = some 0 → 
    (let p := cmdPayload s m.val
     b1 p 0 < 16 → Accepted s m.val [(.HLL_TURN, 0, 0, [(F.HLL_TURN_TURN_GRP, b1 p 0), (F.HLL_TURN_TURN_DIR, b1 p 1), (F.HLL_TURN_TURN_GO, 1)])] →
     ∃ t, exec (.cfgTurn m) s = .next t ∧ Answered t m.val .turn)) ∧
  (∀ (s : State) (m : Fin 17), InHand s m.val 0x0400 → isP s m.val = true → cmdLen s m.val = 8 → leaseOf s m.val (cmdLease s m.val) = some 0 → 
    (let p := cmdPayload s m.val
     b1 p 0 < 7 → Accepted s m.val ([(.REG_CLASS, b1 p 0, 0, [(F.REG_CLASS_KIND, b1 p 1), (F.REG_CLASS_DEF_DL, b2 p 2), (F.REG_CLASS_SLACK_Q, b1 p 4)]), (.REG_CLASS2, b1 p 0, 0, [(F.REG_CLASS2_EST, b1 p 5), (F.REG_CLASS2_AGE_Q, b2 p 6)])]) →
     ∃ t, exec (.regClassSet m) s = .next t ∧ Written s t m.val ([(.REG_CLASS, b1 p 0, 0, [(F.REG_CLASS_KIND, b1 p 1), (F.REG_CLASS_DEF_DL, b2 p 2), (F.REG_CLASS_SLACK_Q, b1 p 4)]), (.REG_CLASS2, b1 p 0, 0, [(F.REG_CLASS2_EST, b1 p 5), (F.REG_CLASS2_AGE_Q, b2 p 6)])]) [] ∧ t.rd F.REG_CLASS_KIND (b1 p 0) = b1 p 1 ∧ t.rd F.REG_CLASS2_AGE_Q (b1 p 0) = b2 p 6)) ∧
  (∀ (s : State) (m : Fin 17), InHand s m.val 0x0401 → isP s m.val = true → cmdLen s m.val = 2 → leaseOf s m.val (cmdLease s m.val) = some 0 → 
    (let p := cmdPayload s m.val
     Accepted s m.val ([(.REG_CTL, 0, 0, [(F.REG_CTL_MTR_EN, b1 p 0), (F.REG_CTL_DL_OFS, b1 p 1)])]) →
     ∃ t, exec (.regGlobalSet m) s = .next t ∧ Written s t m.val ([(.REG_CTL, 0, 0, [(F.REG_CTL_MTR_EN, b1 p 0), (F.REG_CTL_DL_OFS, b1 p 1)])]) [] ∧ t.rd F.REG_CTL_DL_OFS = b1 p 1)) ∧
  (∀ (s : State) (m : Fin 17), InHand s m.val 0x0402 → isP s m.val = true → cmdLen s m.val = 9 → 
    (let p := cmdPayload s m.val
     b2 p 0 ≤ b2 p 2 → b2 p 2 ≤ b2 p 0 + 255 → b1 p 4 < 7 → 1 ≤ b2 p 5 → b2 p 5 < 1024 → b1 p 7 = 0 → b1 p 8 < 4 →
     ∃ t, exec (.regBowSet m) s = .next t ∧ Answered t m.val (.due .ok 0 []) ∧ t.regs = s.regs ∧ ∀ b, b2 p 0 ≤ b → b ≤ b2 p 2 →
       (t.ctx b).cls = b1 p 4 ∧ (t.ctx b).ltTgt = b2 p 5 ∧ (t.ctx b).resIdx = 0 ∧ (t.ctx b).alloc = b1 p 8)) ∧
  (∀ (s : State) (m : Fin 17), InHand s m.val 0x0403 → isP s m.val = true → cmdLen s m.val = 8 → leaseOf s m.val (cmdLease s m.val) = some 0 → 
    (let p := cmdPayload s m.val
     1 ≤ b1 p 0 → b1 p 0 < 64 → Accepted s m.val [(.REG_RSV_A, b1 p 0, 0, [(F.REG_RSV_A_RKIND, b1 p 1), (F.REG_RSV_A_RDOM, b1 p 2), (F.REG_RSV_A_RQ_RATE, b4 p 4), (F.REG_RSV_A_EN, 1)])] →
     ∃ t a, exec (.regRsvSet m) s = .next t ∧ Answered t m.val (.due .ok 0 a) ∧ a.length = 8 ∧ t.on F.REG_RSV_A_EN (b1 p 0) = true ∧ t.rd F.REG_RSV_A_RQ_RATE (b1 p 0) = b4 p 4)) ∧
  (∀ (s : State) (m : Fin 17), InHand s m.val 0x0404 → isP s m.val = true → cmdLen s m.val = 1 → leaseOf s m.val (cmdLease s m.val) = some 0 → 
    (let p := cmdPayload s m.val
     1 ≤ b1 p 0 → b1 p 0 < 64 → Accepted s m.val ([(.REG_RSV_A, b1 p 0, 0, [(F.REG_RSV_A_EN, 0)])]) →
     ∃ t, exec (.regRsvFree m) s = .next t ∧ Written s t m.val ([(.REG_RSV_A, b1 p 0, 0, [(F.REG_RSV_A_EN, 0)])]) [] ∧ t.on F.REG_RSV_A_EN (b1 p 0) = false)) ∧
  (∀ (s : State) (m : Fin 17), InHand s m.val 0x0405 → isP s m.val = true → cmdLen s m.val = 0 → 
    (∃ t, exec (.regGet m) s = .next t ∧ ReadsOnly s t m.val (u32 (s.rd F.REG_S_S_EST) ++ u32 (s.rd F.REG_S_OVC) ++ u32 (rateSum s 1) ++ u32 (rateSum s 0) ++ u16 s.reg.theta))) ∧
  (∀ (s : State) (m : Fin 17), InHand s m.val 0x0500 → isP s m.val = true → cmdLen s m.val = 6 → leaseOf s m.val (cmdLease s m.val) = some 0 → 
    (let p := cmdPayload s m.val
     Accepted s m.val ((List.range 32).flatMap (fun sl => [(.SCC_POL, sl, 0, polFields.zipIdx.map fun e => (e.1, bits (leAt p 0 3) (3 * e.2) 3)), (.SCC_WAYS, sl, 0, [(F.SCC_WAYS_BG_WAYS, b2 p 4)]),
       (.SCC_CTL, sl, 0, [(F.SCC_CTL_ALLOC_EN, b1 p 3 % 2), (F.SCC_CTL_WT, b1 p 3 / 2 % 2)])])) →
     ∃ t, exec (.cachePolicySet m) s = .next t ∧ Written s t m.val ((List.range 32).flatMap (fun sl => [(.SCC_POL, sl, 0, polFields.zipIdx.map fun e => (e.1, bits (leAt p 0 3) (3 * e.2) 3)), (.SCC_WAYS, sl, 0, [(F.SCC_WAYS_BG_WAYS, b2 p 4)]),
       (.SCC_CTL, sl, 0, [(F.SCC_CTL_ALLOC_EN, b1 p 3 % 2), (F.SCC_CTL_WT, b1 p 3 / 2 % 2)])])) [])) ∧
  (∀ (s : State) (m : Fin 17), InHand s m.val 0x0501 → isP s m.val = true → cmdLen s m.val = 12 → leaseOf s m.val (cmdLease s m.val) = some 0 → 
    (let p := cmdPayload s m.val
     1 ≤ b1 p 0 → b1 p 0 ≤ 2 → b1 p 1 ≤ 2 → b1 p 2 < 16 → (b1 p 1 = 2 → b2 p 4 ≠ 0) → Accepted s m.val ((onesOf (b4 p 8) 32).map (fun sl => (.SCC_OPS_CMD, sl, 0, [(F.SCC_OPS_CMD_OP, b1 p 0), (F.SCC_OPS_CMD_SCOPE, b1 p 1), (F.SCC_OPS_CMD_ODOM, b1 p 2), (F.SCC_OPS_CMD_OWAYS, b2 p 4)]))) →
     ∃ t, exec (.cacheOp m) s = .next t ∧ Written s t m.val ((onesOf (b4 p 8) 32).map (fun sl => (.SCC_OPS_CMD, sl, 0, [(F.SCC_OPS_CMD_OP, b1 p 0), (F.SCC_OPS_CMD_SCOPE, b1 p 1), (F.SCC_OPS_CMD_ODOM, b1 p 2), (F.SCC_OPS_CMD_OWAYS, b2 p 4)]))) [])) ∧
  (∀ (s : State) (m : Fin 17), InHand s m.val 0x0501 → isP s m.val = true → cmdLen s m.val = 12 → leaseOf s m.val (cmdLease s m.val) = some 0 → 
    (let p := cmdPayload s m.val
     (b1 p 0 = 0 ∨ 2 < b1 p 0 ∨ 2 < b1 p 1) → onesOf (b4 p 8) 32 = [] → ∃ t, exec (.cacheOp m) s = .next t ∧ Answered t m.val (.due .badValue 0 []) ∧ t.regs = s.regs)) ∧
  (∀ (s : State) (m : Fin 17), InHand s m.val 0x0502 → isP s m.val = true → cmdLen s m.val = 0 → 
    (∃ t a, exec (.cacheGet m) s = .next t ∧ ReadsOnly s t m.val a ∧ a.length = 36))

/-- O53. MEM_READ, MEM_WRITE and MEM_ZERO, and the commands of repair, fold and memory service (R206; R245; R251; R253; R256; R281; Table 12.13 (12_cox_cores_and_mailboxes.md); Table 12.14 (12_cox_cores_and_mailboxes.md)). -/
def Obligations.MemoryRepairAndTuningCommands : Prop :=
  (∀ (s : State) (m : Fin 17), InHand s m.val 0x0600 → isP s m.val = true → cmdLen s m.val = 10 → 
    (let p := cmdPayload s m.val
     internalRoom s 0 = true → memCheck s (leAt p 0 8) 64 (b2 p 8) 1 62 64 = .ok → (∀ r ∈ s.rqe.reqs, r.iss ≠ .mailbox m.val) →
     ∃ t r, exec (.memRead m) s = .next t ∧ Answered t m.val (.memRead (b2 p 8)) ∧ t.rqe.reqs = s.rqe.reqs ++ [r] ∧ r.op = .rd ∧ r.iss = .mailbox m.val ∧ r.dev = leAt p 0 8 ∧
       r.bytes = 64 * b2 p 8 ∧ r.id = s.rqe.nextId ∧ t.mem = s.mem)) ∧
  (∀ (s : State) (m : Fin 17), InHand s m.val 0x0600 → isP s m.val = true → cmdLen s m.val = 10 → 
    (let p := cmdPayload s m.val
     ∀ c, internalRoom s 0 = true → memCheck s (leAt p 0 8) 64 (b2 p 8) 1 62 64 = c → c ≠ .ok → ∃ t, exec (.memRead m) s = .next t ∧ Answered t m.val (.due c 0 []) ∧ t.rqe = s.rqe)) ∧
  (∀ (s : State) (m : Fin 17), InHand s m.val 0x0601 → isP s m.val = true → 
    (let p := cmdPayload s m.val
     internalRoom s (min 62 (b2 p 8)) = true → cmdLen s m.val = 16 + 64 * b2 p 8 → memCheck s (leAt p 0 8) 64 (b2 p 8) 1 62 64 = .ok → IdsRise s →
     ∃ t r, exec (.memWrite m) s = .next t ∧ Answered t m.val (.due .ok 0 (u8 (wrStatus s { opc := 0x10 } [(leAt p 0 8 / 64, b2 p 8)]).num)) ∧ r ∈ t.rqe.reqs ∧
       r.id = s.rqe.nextId ∧ r.op = .wr ∧ r.dev = leAt p 0 8 ∧ r.p.data = p.drop 16 ∧ r.pend = [(leAt p 0 8 / 64, b2 p 8)])) ∧
  (∀ (s : State) (m : Fin 17) (k : Nat), internalRoom s k = false → k ≤ 62 →
    (k = 0 → exec (.memRead m) s = .next s ∧ exec (.memZero m) s = .next s) ∧ (k = min 62 (b2 (cmdPayload s m.val) 8) → exec (.memWrite m) s = .next s)) ∧
  (∀ (s : State) (m : Fin 17), InHand s m.val 0x0602 → isP s m.val = true → cmdLen s m.val = 12 → 
    (let p := cmdPayload s m.val
     internalRoom s 0 = true → memCheck s (leAt p 0 8) 4096 (b4 p 8) 1 (2 ^ 32) 4096 = .ok → (∀ r ∈ s.rqe.reqs, r.iss ≠ .mailbox m.val) →
     ∃ t r, exec (.memZero m) s = .next t ∧ Answered t m.val .memWrite ∧ t.rqe.reqs = s.rqe.reqs ++ [r] ∧ r.op = .zero ∧ r.dev = leAt p 0 8 ∧
       r.pend = [(leAt p 0 8 / 64, 64 * b4 p 8)])) ∧
  (∀ (s : State) (m : Fin 17), InHand s m.val 0x0700 → isP s m.val = true → cmdLen s m.val = 6 → leaseOf s m.val (cmdLease s m.val) = some 0 → 
    (let p := cmdPayload s m.val
     b1 p 0 < 32 → Accepted s m.val ([(.TSV_RPR_CTL, b1 p 0, 0, [(F.TSV_RPR_CTL_RPR_RANK, b1 p 1), (F.TSV_RPR_CTL_RPR_BANK, b1 p 2), (F.TSV_RPR_CTL_RPR_ROW, b2 p 4), (F.TSV_RPR_CTL_RPR_GO, 1)])]) →
     ∃ t, exec (.rprRow m) s = .next t ∧ Written s t m.val ([(.TSV_RPR_CTL, b1 p 0, 0, [(F.TSV_RPR_CTL_RPR_RANK, b1 p 1), (F.TSV_RPR_CTL_RPR_BANK, b1 p 2), (F.TSV_RPR_CTL_RPR_ROW, b2 p 4), (F.TSV_RPR_CTL_RPR_GO, 1)])]) [])) ∧
  (∀ (s : State) (m : Fin 17), InHand s m.val 0x0701 → isP s m.val = true → cmdLen s m.val = 1 → 
    (let p := cmdPayload s m.val
     b1 p 0 < 32 → ∃ t a, exec (.rprGet m) s = .next t ∧ ReadsOnly s t m.val a ∧ a.length = 10)) ∧
  (∀ (s : State) (m : Fin 17), InHand s m.val 0x0702 → isP s m.val = true → cmdLen s m.val = 2 → leaseOf s m.val (cmdLease s m.val) = some 0 → 
    (let p := cmdPayload s m.val
     Accepted s m.val ([(.TSV_FOLD_CTL, 0, 0, [(F.TSV_FOLD_CTL_FR_MODE, b1 p 0), (F.TSV_FOLD_CTL_FOLD_AUTO, b1 p 1)])]) →
     ∃ t, exec (.foldMode m) s = .next t ∧ Written s t m.val ([(.TSV_FOLD_CTL, 0, 0, [(F.TSV_FOLD_CTL_FR_MODE, b1 p 0), (F.TSV_FOLD_CTL_FOLD_AUTO, b1 p 1)])]) [])) ∧
  (∀ (s : State) (m : Fin 17), InHand s m.val 0x0703 → isP s m.val = true → cmdLen s m.val = 1 → leaseOf s m.val (cmdLease s m.val) = some 0 → 
    (let p := cmdPayload s m.val
     b1 p 0 < 32 → Accepted s m.val ([(.TSV_FOLD_CTL, 0, 0, [(F.TSV_FOLD_CTL_FOLD_CH, b1 p 0), (F.TSV_FOLD_CTL_FOLD_GO, 1)])]) →
     ∃ t, exec (.foldStart m) s = .next t ∧ Written s t m.val ([(.TSV_FOLD_CTL, 0, 0, [(F.TSV_FOLD_CTL_FOLD_CH, b1 p 0), (F.TSV_FOLD_CTL_FOLD_GO, 1)])]) [])) ∧
  (∀ (s : State) (m : Fin 17), InHand s m.val 0x0704 → isP s m.val = true → cmdLen s m.val = 2 → leaseOf s m.val (cmdLease s m.val) = some 0 → 
    (let p := cmdPayload s m.val
     b1 p 0 < 32 → Accepted s m.val ([(.TSV_CTL, b1 p 0, 0, [(F.TSV_CTL_KILL_PHY, b1 p 1), (F.TSV_CTL_KILL, 1)])]) →
     ∃ t, exec (.tsvKill m) s = .next t ∧ Written s t m.val ([(.TSV_CTL, b1 p 0, 0, [(F.TSV_CTL_KILL_PHY, b1 p 1), (F.TSV_CTL_KILL, 1)])]) [])) ∧
  (∀ (s : State) (m : Fin 17), InHand s m.val 0x0705 → isP s m.val = true → cmdLen s m.val = 6 → leaseOf s m.val (cmdLease s m.val) = some 0 → 
    (let p := cmdPayload s m.val
     Accepted s m.val ([(.RFM_CTL, 0, 0, [(F.RFM_CTL_ST_THR, b2 p 0), (F.RFM_CTL_POSTPONE, b1 p 2), (F.RFM_CTL_FORCE_2X, b1 p 3)]), (.RFM_BKLG, 0, 0, [(F.RFM_BKLG_BKLG_THR, b1 p 4), (F.RFM_BKLG_BKLG_TMO, b1 p 5)])]) →
     ∃ t, exec (.rfmSet m) s = .next t ∧ Written s t m.val ([(.RFM_CTL, 0, 0, [(F.RFM_CTL_ST_THR, b2 p 0), (F.RFM_CTL_POSTPONE, b1 p 2), (F.RFM_CTL_FORCE_2X, b1 p 3)]), (.RFM_BKLG, 0, 0, [(F.RFM_BKLG_BKLG_THR, b1 p 4), (F.RFM_BKLG_BKLG_TMO, b1 p 5)])]) [] ∧ t.rd F.RFM_CTL_ST_THR = b2 p 0 ∧ t.rd F.RFM_CTL_POSTPONE = b1 p 2)) ∧
  (∀ (s : State) (m : Fin 17), InHand s m.val 0x0706 → isP s m.val = true → cmdLen s m.val = 8 → leaseOf s m.val (cmdLease s m.val) = some 0 → 
    (let p := cmdPayload s m.val
     Accepted s m.val ([(.DIP_CTL, 0, 0, [(F.DIP_CTL_SCRUB_EN, b1 p 0), (F.DIP_CTL_CSCRUB_EN, b1 p 1), (F.DIP_CTL_SCRUB_PER, b1 p 2), (F.DIP_CTL_ROW_CE_THR, b1 p 3), (F.DIP_CTL_ROW_2BIT, b1 p 4)]),
       (.DIP_THR, 0, 0, [(F.DIP_THR_CE_THR, b2 p 5), (F.DIP_THR_POS_THR, b1 p 7)])]) →
     ∃ t, exec (.dipSet m) s = .next t ∧ Written s t m.val ([(.DIP_CTL, 0, 0, [(F.DIP_CTL_SCRUB_EN, b1 p 0), (F.DIP_CTL_CSCRUB_EN, b1 p 1), (F.DIP_CTL_SCRUB_PER, b1 p 2), (F.DIP_CTL_ROW_CE_THR, b1 p 3), (F.DIP_CTL_ROW_2BIT, b1 p 4)]),
       (.DIP_THR, 0, 0, [(F.DIP_THR_CE_THR, b2 p 5), (F.DIP_THR_POS_THR, b1 p 7)])]) [] ∧ t.rd F.DIP_CTL_SCRUB_PER = b1 p 2 ∧ t.rd F.DIP_THR_CE_THR = b2 p 5)) ∧
  (∀ (s : State) (m : Fin 17), InHand s m.val 0x0707 → isP s m.val = true → cmdLen s m.val = 9 → leaseOf s m.val (cmdLease s m.val) = some 0 → 
    (let p := cmdPayload s m.val
     Accepted s m.val ((List.range 32).flatMap (fun c => [(.DMC_CTL, c, 0, [(F.DMC_CTL_PD_EN, b1 p 0), (F.DMC_CTL_HIT_CAP, b1 p 1)])] ++ (if s.rd F.DMC_WQ_WQ_CAP c ≤ b2 p 6
       then [(.DMC_WQ, c, 0, [(F.DMC_WQ_WQ_CAP, b2 p 6)]), (.DMC_WM, c, 0, [(F.DMC_WM_WM_LO, b2 p 2), (F.DMC_WM_WM_HI, b2 p 4)])]
       else [(.DMC_WM, c, 0, [(F.DMC_WM_WM_LO, b2 p 2), (F.DMC_WM_WM_HI, b2 p 4)]), (.DMC_WQ, c, 0, [(F.DMC_WQ_WQ_CAP, b2 p 6)])]) ++ [(.DMC_HANG, c, 0, [(F.DMC_HANG_HANG_TMO, b1 p 8)])])) →
     ∃ t, exec (.dmcSet m) s = .next t ∧ Written s t m.val ((List.range 32).flatMap (fun c => [(.DMC_CTL, c, 0, [(F.DMC_CTL_PD_EN, b1 p 0), (F.DMC_CTL_HIT_CAP, b1 p 1)])] ++ (if s.rd F.DMC_WQ_WQ_CAP c ≤ b2 p 6
       then [(.DMC_WQ, c, 0, [(F.DMC_WQ_WQ_CAP, b2 p 6)]), (.DMC_WM, c, 0, [(F.DMC_WM_WM_LO, b2 p 2), (F.DMC_WM_WM_HI, b2 p 4)])]
       else [(.DMC_WM, c, 0, [(F.DMC_WM_WM_LO, b2 p 2), (F.DMC_WM_WM_HI, b2 p 4)]), (.DMC_WQ, c, 0, [(F.DMC_WQ_WQ_CAP, b2 p 6)])]) ++ [(.DMC_HANG, c, 0, [(F.DMC_HANG_HANG_TMO, b1 p 8)])])) []))

/-- O54. The commands of power, thermal, calibration and firmware (R265; R271; R272; R340; R346; R373; R374; R376; R390; R395; Table 12.3 (12_cox_cores_and_mailboxes.md)). -/
def Obligations.PowerCalibrationAndFirmwareCommands : Prop :=
  (∀ (s : State) (m : Fin 17), InHand s m.val 0x0800 → isP s m.val = true → cmdLen s m.val = 1 → leaseOf s m.val (cmdLease s m.val) = some 4 → 
    (let p := cmdPayload s m.val
     let g := b1 p 0
     1 ≤ g → g ≤ 3 → (g = 2 → s.on F.PCK_STAT_RET_AVAIL = true) → (s.pck.pow = .run ∨ s.pck.pow = .idle) → s.pck.entry = none →
     (refuser (renewed s m.val) g = none → deepDenied s = false → ∃ t, exec (.pwrEnter m) s = .next t ∧ Answered t m.val .drain ∧ t.pck.pow = .entering ∧
       t.pck.entry = some { mbx := m.val, target := g } ∧ t.link.pmReq.isSome = true ∧ t.mem = s.mem) ∧
     (∀ c d, refuser (renewed s m.val) g = some (c, d) → ∃ t, exec (.pwrEnter m) s = .next t ∧ Answered t m.val (.due .busy (refuseDetail c d false) []) ∧
       t.pck.pow = s.pck.pow ∧ t.pck.entry = none) ∧
     (refuser (renewed s m.val) g = none → deepDenied s = true → ∃ t, exec (.pwrEnter m) s = .next t ∧ Answered t m.val (.due .busy (refuseDetail 7 0xFF false) []) ∧
       t.pck.pow = s.pck.pow ∧ t.pck.entry = none))) ∧
  (∀ (s : State) (m : Fin 17), InHand s m.val 0x0801 → isDom s m.val = true → cmdLen s m.val = 1 → 
    (let p := cmdPayload s m.val
     Accepted s m.val ([(.PCK_VOTE, m.val, 0, [(F.PCK_VOTE_NOSLEEP, b1 p 0 % 2)])]) →
     ∃ t, exec (.pwrVote m) s = .next t ∧ Written s t m.val ([(.PCK_VOTE, m.val, 0, [(F.PCK_VOTE_NOSLEEP, b1 p 0 % 2)])]) [] ∧ t.rd F.PCK_VOTE_NOSLEEP m.val = b1 p 0 % 2)) ∧
  (∀ (s : State) (m : Fin 17), InHand s m.val 0x0802 → isPT s m.val = true → cmdLen s m.val = 0 → 
    (∃ t a, exec (.pwrGet m) s = .next t ∧ ReadsOnly s t m.val a ∧ a.length = 12)) ∧
  (∀ (s : State) (m : Fin 17), InHand s m.val 0x0803 → isP s m.val = true → cmdLen s m.val = 4 → leaseOf s m.val (cmdLease s m.val) = some 0 → 
    (let p := cmdPayload s m.val
     Accepted s m.val ([(.THM_CTL, 0, 0, [(F.THM_CTL_SLOPE, b2 p 0), (F.THM_CTL_CAP, b2 p 2)])]) →
     ∃ t, exec (.thmSet m) s = .next t ∧ Written s t m.val ([(.THM_CTL, 0, 0, [(F.THM_CTL_SLOPE, b2 p 0), (F.THM_CTL_CAP, b2 p 2)])]) [] ∧ t.rd F.THM_CTL_SLOPE = b2 p 0 ∧ t.rd F.THM_CTL_CAP = b2 p 2)) ∧
  (∀ (s : State) (m : Fin 17), InHand s m.val 0x0900 → isP s m.val = true → cmdLen s m.val = 1 → leaseOf s m.val (cmdLease s m.val) = some 0 → 
    (let p := cmdPayload s m.val
     1 ≤ b1 p 0 → b1 p 0 < 32 → s.cst.run = none → s.cst.store = [] →
     (s.pck.pow = .run → ∃ t, exec (.calRun m) s = .next t ∧ Answered t m.val .cal ∧ t.cst.run = some (b1 p 0, some m.val) ∧ t.on F.CST_CAL_STAT_CAL_BUSY = true) ∧
     (s.pck.pow = .idle → ∃ t, exec (.calRun m) s = .next t ∧ Answered t m.val (.due .state 0 []) ∧ t.cst = s.cst))) ∧
  (∀ (s : State) (m : Fin 17), InHand s m.val 0x0901 → isPT s m.val = true → cmdLen s m.val = 0 → 
    (∃ t, exec (.calGet m) s = .next t ∧ ReadsOnly s t m.val (u32 (s.rd F.CST_CAL_CNT_CAL_COUNT) ++ u32 (s.rd F.CST_CAL_TIME_CAL_TIME)))) ∧
  (∀ (s : State) (m : Fin 17), InHand s m.val 0x0A00 → isP s m.val = true → cmdLen s m.val = 4 → leaseOf s m.val (cmdLease s m.val) = some 1 → 
    (let p := cmdPayload s m.val
     1 ≤ b4 p 0 → b4 p 0 ≤ 1572864 → s.mgt.load = none → s.mgt.trial = none → ∃ t l, exec (.fwLoadBegin m) s = .next t ∧
       Answered t m.val (.due .ok 0 (u8 (loadTarget s))) ∧ t.mgt.load = some l ∧ l.target = loadTarget s ∧ l.tlen = b4 p 0 ∧ l.runs = [] ∧ l.verified = false)) ∧
  (∀ (s : State) (m : Fin 17) (l : Load), InHand s m.val 0x0A01 → isP s m.val = true → leaseOf s m.val (cmdLease s m.val) = some 1 → s.mgt.load = some l → s.pst.only = false →
    (let p := cmdPayload s m.val
     8 ≤ cmdLen s m.val → cmdLen s m.val ≤ 4080 → cmdLen s m.val % 4 = 0 → b4 p 0 % 4 = 0 → b4 p 0 + (cmdLen s m.val - 8) ≤ l.tlen →
     ∃ t n, exec (.fwLoad m) s = .next t ∧ Answered t m.val (.words n false []) ∧ n ≤ (cmdLen s m.val - 8) / 4 ∧ t.regs = s.regs ∧
       ∀ k, k < (cmdLen s m.val - 8) / 4 → s.mramAt (0x60000 * l.target + b4 p 0 / 4 + k) ≠ b4 p (8 + 4 * k) →
         ∃ w, AtPort t w ∧ w.idx = 0x60000 * l.target + b4 p 0 / 4 + k ∧ w.val = b4 p (8 + 4 * k) ∧ w.act = .fw m.val)) ∧
  (∀ (s : State) (m : Fin 17) (ok : Bool) (l : Load), InHand s m.val 0x0A02 → isP s m.val = true → cmdLen s m.val = 0 → leaseOf s m.val (cmdLease s m.val) = some 1 → s.mgt.load = some l → covered l.runs l.tlen = true →
    (imageOk s l.target ok = true → ∃ t, exec (.fwVerify m ok) s = .next t ∧ Answered t m.val (.due .ok 0 (u32 (imageVer s l.target) ++ u8 (imageSvn s l.target))) ∧
      t.mgt.load = some { l with verified := true }) ∧
    (imageOk s l.target ok = false → ∃ t, exec (.fwVerify m ok) s = .next t ∧ Answered t m.val (.due .integrity 0 []) ∧ t.mgt.load = some l)) ∧
  (∀ (s : State) (m : Fin 17) (out : Fin 5), InHand s m.val 0x0A03 → isP s m.val = true → cmdLen s m.val = 0 → leaseOf s m.val (cmdLease s m.val) = some 1 → recovery s = false → boatValid s (activeTarget s) = true → coreState s (!activeCore s) = 3 →
    (out = 0 → ∃ t, exec (.fwActivate m out) s = .next t ∧ Answered t m.val (.due .ok 0 []) ∧ t.mgt.take = some 5 ∧ coreSlot t (!activeCore s) = activeTarget s % 2) ∧
    (1 ≤ out.val → out.val ≤ 3 → ∃ t, exec (.fwActivate m out) s = .next t ∧ Answered t m.val (.due .timeout 0 []) ∧ coreState t (!activeCore s) = 4) ∧
    (out = 4 → ∃ t, exec (.fwActivate m out) s = .next t ∧ Answered t m.val (.due .integrity 0 []) ∧ t.mgt.load = none)) ∧
  (∀ (s : State) (m : Fin 17), InHand s m.val 0x0A04 → isP s m.val = true → cmdLen s m.val = 0 → leaseOf s m.val (cmdLease s m.val) = some 1 → 
    (coreState s (!activeCore s) = 3 → ∃ t, exec (.fwTakeover m) s = .next t ∧ Answered t m.val (.due .ok 0 []) ∧ t.mgt.take = some 4) ∧
    (coreState s (!activeCore s) ≠ 3 → ∃ t, exec (.fwTakeover m) s = .next t ∧ Answered t m.val (.due .state 0 []) ∧ t.mgt.take = s.mgt.take)) ∧
  (∀ (s : State) (m : Fin 17), InHand s m.val 0x0A05 → isP s m.val = true → cmdLen s m.val = 0 → leaseOf s m.val (cmdLease s m.val) = some 1 → s.mgt.trial = none → runningSvn s ≤ 64 →
    ∃ t, exec (.fwSvnCommit m) s = .next t ∧ t.rd F.MGT_SVN_SVN_FUSE = max (s.rd F.MGT_SVN_SVN_FUSE) (runningSvn s) ∧
      Answered t m.val (.due .ok 0 (u8 (max (s.rd F.MGT_SVN_SVN_FUSE) (runningSvn s))))) ∧
  (∀ (s : State) (m : Fin 17), InHand s m.val 0x0A06 → cmdLen s m.val = 0 → 
    (∃ t a, exec (.fwGet m) s = .next t ∧ ReadsOnly s t m.val a ∧ a.length = 20)) ∧
  (∀ (s : State) (m : Fin 17), InHand s m.val 0x0A07 → isP s m.val = true → cmdLen s m.val = 4 → leaseOf s m.val (cmdLease s m.val) = some 0 → 
    (let p := cmdPayload s m.val
     Accepted s m.val ([(.MGT_CTL, 0, 0, [(F.MGT_CTL_WDT_US, b2 p 0), (F.MGT_CTL_TRIAL_S, b1 p 2), (F.MGT_CTL_STBY_EN, b1 p 3)])]) →
     ∃ t, exec (.fwSet m) s = .next t ∧ Written s t m.val ([(.MGT_CTL, 0, 0, [(F.MGT_CTL_WDT_US, b2 p 0), (F.MGT_CTL_TRIAL_S, b1 p 2), (F.MGT_CTL_STBY_EN, b1 p 3)])]) [] ∧ t.rd F.MGT_CTL_WDT_US = b2 p 0 ∧ t.rd F.MGT_CTL_TRIAL_S = b1 p 2))

/-- O55. The commands of logs and routing, weigh-enough, tests and fuses (R236; R282; R310; R314; R335; R338; R339; R340; Table 12.18 (12_cox_cores_and_mailboxes.md); Table 12.19 (12_cox_cores_and_mailboxes.md); Table 12.20 (12_cox_cores_and_mailboxes.md)). -/
def Obligations.LogQuiesceTestAndFuseCommands : Prop :=
  (∀ (s : State) (m : Fin 17), InHand s m.val 0x0B00 → isP s m.val = true → cmdLen s m.val = 5 → 
    (let p := cmdPayload s m.val
     1 ≤ b1 p 4 → b1 p 4 ≤ 63 → b4 p 0 < (logRecords s).length →
     ∃ t, exec (.logRead m) s = .next t ∧ ReadsOnly s t m.val (((((logRecords s).drop (b4 p 0)).take (b1 p 4))).flatMap fun ws => ws.flatMap u32))) ∧
  (∀ (s : State) (m : Fin 17), InHand s m.val 0x0B01 → isPT s m.val = true → cmdLen s m.val = 0 → 
    (∃ t a, exec (.faultGet m) s = .next t ∧ ReadsOnly s t m.val a ∧ a.length = 32)) ∧
  (∀ (s : State) (m : Fin 17), InHand s m.val 0x0B02 → isP s m.val = true → cmdLen s m.val = 5 → leaseOf s m.val (cmdLease s m.val) = some 0 → 
    (let p := cmdPayload s m.val
     b1 p 4 < 4 → b2 p 0 < 288 → Accepted s m.val ([(.FCR_SRC, b2 p 0, 0, [(F.FCR_SRC_DMASK, b2 p 2), (F.FCR_SRC_EVT_MIN, (preset (b1 p 4)).1), (F.FCR_SRC_ALERT_MIN, (preset (b1 p 4)).2.1), (F.FCR_SRC_SVC_MIN, (preset (b1 p 4)).2.2.1),
       (F.FCR_SRC_LOG_MIN, (preset (b1 p 4)).2.2.2.1), (F.FCR_SRC_ACT, (preset (b1 p 4)).2.2.2.2)])]) →
     ∃ t, exec (.evtRouteSet m) s = .next t ∧ Written s t m.val ([(.FCR_SRC, b2 p 0, 0, [(F.FCR_SRC_DMASK, b2 p 2), (F.FCR_SRC_EVT_MIN, (preset (b1 p 4)).1), (F.FCR_SRC_ALERT_MIN, (preset (b1 p 4)).2.1), (F.FCR_SRC_SVC_MIN, (preset (b1 p 4)).2.2.1),
       (F.FCR_SRC_LOG_MIN, (preset (b1 p 4)).2.2.2.1), (F.FCR_SRC_ACT, (preset (b1 p 4)).2.2.2.2)])]) [] ∧ t.rd F.FCR_SRC_DMASK (b2 p 0) = b2 p 2 ∧ presetOf t (b2 p 0) ≤ b1 p 4)) ∧
  (∀ (s : State) (m : Fin 17), InHand s m.val 0x0B03 → isP s m.val = true → cmdLen s m.val = 2 → 
    (let p := cmdPayload s m.val
     b2 p 0 < 288 → ∃ t a, exec (.evtRouteGet m) s = .next t ∧ ReadsOnly s t m.val a ∧ a.length = 9)) ∧
  (∀ (s : State) (m : Fin 17), InHand s m.val 0x0B04 → isP s m.val = true → cmdLen s m.val = 2 → leaseOf s m.val (cmdLease s m.val) = some 0 → 
    (let p := cmdPayload s m.val
     Accepted s m.val ([(.FCR_CTL, 0, 0, [(F.FCR_CTL_EASY_MS, b2 p 0)])]) →
     ∃ t, exec (.fcrSet m) s = .next t ∧ Written s t m.val ([(.FCR_CTL, 0, 0, [(F.FCR_CTL_EASY_MS, b2 p 0)])]) [] ∧ t.rd F.FCR_CTL_EASY_MS = b2 p 0)) ∧
  (∀ (s : State) (m : Fin 17), InHand s m.val 0x0C00 → isP s m.val = true → cmdLen s m.val = 2 → leaseOf s m.val (cmdLease s m.val) = some 3 → 
    (let p := cmdPayload s m.val
     scopeCheck p = .ok → Accepted s m.val [quiesceWrite (renewed s m.val) p true] →
     ∃ t, exec (.weighEnough m) s = .next t ∧ Answered t m.val (if b1 p 0 = 0 then .quiesce none (s.now + msec) else .quiesce (some (b1 p 1)) 0) ∧
       (b1 p 0 = 0 → t.on F.MGT_QUIESCE_WE_STACK = true) ∧ (b1 p 0 = 1 → bit (t.rd F.MGT_QUIESCE_WE_DOM) (b1 p 1) = true))) ∧
  (∀ (s : State) (m : Fin 17), InHand s m.val 0x0C01 → isP s m.val = true → cmdLen s m.val = 2 → leaseOf s m.val (cmdLease s m.val) = some 3 → 
    (let p := cmdPayload s m.val
     b1 p 0 = 0 → s.on F.MGT_QUIESCE_WE_STACK = true → Accepted s m.val ([quiesceWrite (renewed s m.val) p false]) →
     ∃ t, exec (.resume m) s = .next t ∧ Written s t m.val ([quiesceWrite (renewed s m.val) p false]) [] ∧ t.on F.MGT_QUIESCE_WE_STACK = false)) ∧
  (∀ (s : State) (m : Fin 17), InHand s m.val 0x0C02 → isP s m.val = true → cmdLen s m.val = 4 → leaseOf s m.val (cmdLease s m.val) = some 3 → 
    (let p := cmdPayload s m.val
     b1 p 0 < 16 → b1 p 1 < 17 →
     Accepted s m.val [(.HLP_LN_CTL, b1 p 0, b1 p 1, [(F.HLP_LN_CTL_PAT_SEL, b1 p 2), (F.HLP_LN_CTL_GEN_EN, b1 p 3 % 2), (F.HLP_LN_CTL_CHK_EN, b1 p 3 / 2 % 2)])] →
     ∃ t v, exec (.testLane m) s = .next t ∧ Answered t m.val (.due .ok 0 (u32 v)) ∧ t.rd F.HLP_LN_CTL_PAT_SEL (b1 p 0) (b1 p 1) = b1 p 2)) ∧
  (∀ (s : State) (m : Fin 17), InHand s m.val 0x0C03 → isP s m.val = true → cmdLen s m.val = 4 → leaseOf s m.val (cmdLease s m.val) = some 3 → 
    (let p := cmdPayload s m.val
     b1 p 0 < 32 → Accepted s m.val ([(.DIP_INJ, 0, 0, [(F.DIP_INJ_INJ_CH, b1 p 0), (F.DIP_INJ_INJ_POS1, b1 p 1), (F.DIP_INJ_INJ_POS2, b1 p 2), (F.DIP_INJ_INJ_BEAT, b1 p 3), (F.DIP_INJ_INJ_ARM, 1)])]) →
     ∃ t, exec (.testEccInj m) s = .next t ∧ Written s t m.val ([(.DIP_INJ, 0, 0, [(F.DIP_INJ_INJ_CH, b1 p 0), (F.DIP_INJ_INJ_POS1, b1 p 1), (F.DIP_INJ_INJ_POS2, b1 p 2), (F.DIP_INJ_INJ_BEAT, b1 p 3), (F.DIP_INJ_INJ_ARM, 1)])]) [] ∧ t.on F.DIP_INJ_INJ_ARMED = true ∧ t.dip.inj = some (b1 p 0, b1 p 1, b1 p 2, b1 p 3))) ∧
  (∀ (s : State) (m : Fin 17), InHand s m.val 0x0D00 → isP s m.val = true → cmdLen s m.val = 1 → 
    (let p := cmdPayload s m.val
     b1 p 0 < 9 → ∃ t, exec (.fuseReadCmd m) s = .next t ∧ ReadsOnly s t m.val ((List.range (fuseSpan (b1 p 0)).2).flatMap fun k => u32 (if b1 p 0 = 5 then 0 else fuseLatch s ((fuseSpan (b1 p 0)).1 + k))))) ∧
  (∀ (s : State) (m : Fin 17) (marginal : Bool), InHand s m.val 0x0D01 → isP s m.val = true → cmdLen s m.val = 8 → leaseOf s m.val (cmdLease s m.val) = some 2 → 
    (let p := cmdPayload s m.val
     let w := (fuseSpan (b1 p 0)).1 + b1 p 1
     b1 p 0 < 9 → b1 p 0 ≠ 6 → b1 p 0 ≠ 7 → b1 p 1 < (fuseSpan (b1 p 0)).2 →
     (fuseLocked s (b1 p 0) = false → marginal = false → ∃ t, exec (.fuseProgram m marginal) s = .next t ∧ Answered t m.val (.due .ok 0 []) ∧
       fuseLatch t w = Nat.lor (fuseLatch s w) (b4 p 4) ∧ ∀ k, k ≠ w → fuseLatch t k = fuseLatch s k) ∧
     (fuseLocked s (b1 p 0) = true → ∃ t, exec (.fuseProgram m marginal) s = .next t ∧ Answered t m.val (.due .locked 0 []) ∧ t.pst = s.pst))) ∧
  (∀ (s : State) (m : Fin 17), InHand s m.val 0x0D02 → isP s m.val = true → cmdLen s m.val = 1 → leaseOf s m.val (cmdLease s m.val) = some 2 → 
    (let p := cmdPayload s m.val
     lockable.contains (b1 p 0) = true → fuseLocked s (b1 p 0) = false →
     (fuseComplete s (b1 p 0) = true → ∃ t, exec (.fuseLock m) s = .next t ∧ Answered t m.val (.due .ok 0 []) ∧ fuseLocked t (b1 p 0) = true) ∧
     (fuseComplete s (b1 p 0) = false → ∃ t, exec (.fuseLock m) s = .next t ∧ Answered t m.val (.due .incomplete 0 []) ∧ t.pst = s.pst))) ∧
  (∀ (s : State) (m : Fin 17) (weak : List Nat), InHand s m.val 0x0D03 → isP s m.val = true → cmdLen s m.val = 1 → 
    (let p := cmdPayload s m.val
     b1 p 0 < 9 → ∃ t a, exec (.fuseVerify m weak) s = .next t ∧ ReadsOnly s t m.val a ∧ a.length = (fuseRows (b1 p 0)).2))

/-- O56. The channel hash of R120: its masks, the channel, the channel address, and one place for each device address (R120). -/
def Obligations.DeviceAddressMapIsOneToOne : Prop :=
  (∀ s : State, s.rd F.RQE_CTL_HASH_SEL = 0 → hashL s = 8 ∧ ∀ i, i < 5 → ∀ k, bit (hashMask s i) k = (k == 8 + i || k == 13 + i || k == 18 + i || k == 23 + i || k == 28 + i)) ∧
  (∀ s : State, s.rd F.RQE_CTL_HASH_SEL = 1 → hashL s = 12 ∧ ∀ i, i < 5 → ∀ k, bit (hashMask s i) k = (k == 12 + i || k == 17 + i || k == 22 + i || k == 27 + i)) ∧
  (∀ s : State, s.rd F.RQE_CTL_HASH_SEL = 2 → hashL s = 8 ∧ ∀ i, i < 5 → ∀ k, bit (hashMask s i) k = (k == 8 + i)) ∧
  (∀ s : State, s.rd F.RQE_CTL_HASH_SEL = 3 → hashL s = s.rd F.RQE_CTL_CH_LSB ∧ ∀ i, hashMask s i = s.rd F.RQE_HASH_MASK_MASK i * 256) ∧
  (∀ s : State, (s.rd F.RQE_CTL_HASH_SEL < 3 ∨ s.rd F.RQE_CTL_HASH_SEL = 3 ∧ masksLegal (s.rd F.RQE_CTL_CH_LSB) (s.rd F.RQE_HASH_MASK_MASK) = true) →
    (∀ i, i < 5 → hashMask s i % 256 = 0 ∧ ∀ j, j < 5 → bit (hashMask s i) (hashL s + j) = (i == j)) ∧
    (∀ d, d < 2 ^ 37 → (mapDev s d).1 < 32 ∧ (∀ i, i < 5 → bit (mapDev s d).1 i = (popCount (Nat.land d (hashMask s i)) 37 % 2 == 1)) ∧
      (mapDev s d).2 / 2 ^ hashL s = d / 2 ^ (hashL s + 5) ∧ (mapDev s d).2 % 2 ^ hashL s = d % 2 ^ hashL s) ∧
    (∀ d e, d < 2 ^ 37 → e < 2 ^ 37 → mapDev s d = mapDev s e → d = e))

/-- O57. A location that no table assigns reads zero, ignores writes, answers OK and raises nothing (R294). -/
def Obligations.UnassignedLocationsReadZero : Prop :=
  ∀ (s : State) (a : RegAcc), a.who < 18 → regsOpen s = true → pregPending s a.who = false → regAt a.off = none →
    access s a = answerAcc (recordAcc s a.who a.wr a.off .ok 0) a.org a.wr .ok 0 ∧
    (a.org = .core → lastResult (access s a) a.who = Code.ok.num ∧
      (∃ regs, access s a = { s with regs := regs }) ∧
      (∀ k, k ≠ F.GLB_LAS_LA_RES.at a.who 0 → k ≠ F.GLB_LAS_LA_WR.at a.who 0 → k ≠ F.GLB_LAS_LA_OFS.at a.who 0 →
        SMap.get? (access s a).regs k = SMap.get? s.regs k))

/-- O58. A master without a letter for a register reads zero, writes nothing, and records PRIVILEGE (R5). -/
def Obligations.AMasterWithoutALetterIsRefused : Prop :=
  (∀ (s : State) (who : Nat) (r : RegId) (i j : Nat), r.info.flds.any (mayField (letters s r who (ownIdx r who i) false)) = false →
    (who = 16 → s.mgt.auth = false → openReg r = false) → readReg s who r i j = (.privilege, 0, s)) ∧
  (∀ (s : State) (who : Nat) (org : Origin) (r : RegId) (i j v : Nat), r.info.flds.any (mayField (letters s r who (ownIdx r who i) true)) = false →
    writeReg s who org r i j v = (.done .privilege 0, s)) ∧
  (∀ (s : State) (a : RegAcc) (r : RegId) (i j : Nat), a.who < 18 → regsOpen s = true → pregPending s a.who = false → regAt a.off = some (r, i, j) → a.org = .core →
    r.info.flds.any (mayField (letters s r a.who (ownIdx r a.who i) a.wr)) = false → (a.who = 16 → s.mgt.auth = false → openReg r = false) →
    lastResult (access s a) a.who = Code.privilege.num ∧ (∃ regs, access s a = { s with regs := regs }) ∧
    (∀ k, k ∉ [F.GLB_LAS_LA_RES.at a.who 0, F.GLB_LAS_LA_WR.at a.who 0, F.GLB_LAS_LA_OFS.at a.who 0, F.GLB_LFAIL_LF_RES.at a.who 0, F.GLB_LFAIL_LF_WR.at a.who 0,
        F.GLB_LFAIL_LF_OFS.at a.who 0, F.GLB_LFAIL_DET_LF_DET.at a.who 0, F.GLB_REJ_M_REJ.at a.who 0] →
      SMap.get? (access s a).regs k = SMap.get? s.regs k))

/-- O59. The state before main power first arrives: registers at their reset values, nothing held, nothing under way (R142; R310; Table 6.1 (06_bow_numbers_and_regulation.md); 13_register_interface.md). -/
def Obligations.ResetState : Prop :=
  Canon State.reset ∧ State.reset.pending = [] ∧ State.reset.mem = [] ∧ State.reset.rqe.reqs = [] ∧ State.reset.out = [] ∧ State.reset.pck.pow = .off ∧
  (∀ g, g < 16 → (State.reset.grp g).gst = .off ∧ (State.reset.grp g).inSvc = false) ∧
  (∀ m, m < 17 → mstate State.reset m = 0) ∧ (∀ i, i < 5 → leaseHolder State.reset i = 0xFF) ∧
  ((List.range 8).map fun k => State.reset.rd F.REG_CLASS_KIND k) = [0, 0, 1, 1, 2, 2, 0, 3] ∧
  (∀ src, src < 288 → presetOf State.reset src = 0 ∧ State.reset.rd F.FCR_SRC_DMASK src = 1) ∧
  (∀ d, d < 16 → State.reset.rd F.HLL_CRD_VC0_CAP d = 0x8000 ∧ State.reset.rd F.RQE_DOM_CTL_RB_CAP d = 0x3CCC) ∧
  State.reset.rd F.RQE_CTL_CH_LSB = 8 ∧ State.reset.rd F.HLL_CTL_ACK_TMO = 8 ∧ State.reset.rd F.HLL_CTL_NAK_LIMIT = 8 ∧ State.reset.rd F.RFM_CTL_ST_THR = 0x400 ∧
  State.reset.rd F.DIP_CTL_SCRUB_PER = 24 ∧ State.reset.rd F.THM_CTL_SLOPE = 80 ∧ State.reset.rd F.THM_CTL_CAP = 900 ∧ State.reset.rd F.FCR_CTL_EASY_MS = 10 ∧
  State.reset.rd F.MGT_CTL_WDT_US = 100 ∧ State.reset.rd F.MGT_CTL_TRIAL_S = 10 ∧ State.reset.link.up = false

/-- O60. Every step keeps the canonical form of the state and the order of admission numbers (00_scope.md; 05_request_engine.md; 10_data_integrity.md). -/
def Obligations.StepKeepsTheCanonicalForm : Prop :=
  ∀ s t : State, Canon s → step s = .next t → Canon t
end

