-- ==== Sys2Proof/Laws/Maps.lean ====
section
/-! SUPPORT. What the operations of the sparse maps do: a read after a write, and the sorted form. -/

namespace Sys2Proof.SMap

variable {α : Type}

@[simp] theorem get?_nil (k : Nat) : get? ([] : SMap α) k = none := rfl

theorem get?_cons (p : Nat × α) (r : SMap α) (k : Nat) : get? (p :: r) k = if p.1 = k then some p.2 else get? r k := by
  obtain ⟨a, b⟩ := p
  rfl

theorem get?_insert_same (m : SMap α) (k : Nat) (v : α) (h : get? m k = none) : get? (insert m k v) k = some v := by
  induction m with
  | nil => simp [insert, get?_cons]
  | cons p r ih =>
    obtain ⟨a, b⟩ := p
    rw [get?_cons] at h
    by_cases ha : a = k
    · simp [ha] at h
    · simp only [ha, if_false] at h
      unfold insert
      split
      · simp [get?_cons]
      · rw [get?_cons]
        simp [ha, ih h]

theorem get?_insert_ne (m : SMap α) (k j : Nat) (v : α) (h : j ≠ k) : get? (insert m k v) j = get? m j := by
  induction m with
  | nil => simp [insert, get?_cons, Ne.symm h]
  | cons p r ih =>
    obtain ⟨a, b⟩ := p
    unfold insert
    split
    · rw [get?_cons]
      simp [Ne.symm h]
    · rw [get?_cons, get?_cons, ih]

@[simp] theorem get?_erase_same (m : SMap α) (k : Nat) : get? (erase m k) k = none := by
  induction m with
  | nil => rfl
  | cons p r ih =>
    unfold erase at ih ⊢
    by_cases h : p.1 = k
    · simp [h, ih]
    · simp [h, get?_cons, ih]

theorem get?_erase_ne (m : SMap α) (k j : Nat) (h : j ≠ k) : get? (erase m k) j = get? m j := by
  induction m with
  | nil => rfl
  | cons p r ih =>
    unfold erase at ih ⊢
    by_cases hp : p.1 = k
    · rw [List.filter_cons_of_neg (by simp [hp]), ih, get?_cons, if_neg (by rw [hp]; exact Ne.symm h)]
    · rw [List.filter_cons_of_pos (by simp [hp]), get?_cons, get?_cons, ih]

/-- A key that was just set reads as what was set. -/
@[simp] theorem get?_set_same (m : SMap α) (k : Nat) (v : α) : get? (set m k v) k = some v :=
  get?_insert_same _ _ _ (get?_erase_same m k)

/-- Setting a key leaves every other key as it was. -/
theorem get?_set_ne (m : SMap α) (k j : Nat) (v : α) (h : j ≠ k) : get? (set m k v) j = get? m j := by
  rw [set, get?_insert_ne _ _ _ _ h, get?_erase_ne _ _ _ h]

@[simp] theorem getD_nil (k : Nat) (d : α) : getD ([] : SMap α) k d = d := rfl

@[simp] theorem getD_set_same (m : SMap α) (k : Nat) (v d : α) : getD (set m k v) k d = v := by simp [getD]

theorem getD_set_ne (m : SMap α) (k j : Nat) (v d : α) (h : j ≠ k) : getD (set m k v) j d = getD m j d := by
  simp [getD, get?_set_ne _ _ _ _ h]

theorem getD_erase_same (m : SMap α) (k : Nat) (d : α) : getD (erase m k) k d = d := by simp [getD]

theorem getD_erase_ne (m : SMap α) (k j : Nat) (d : α) (h : j ≠ k) : getD (erase m k) j d = getD m j d := by
  simp [getD, get?_erase_ne _ _ _ h]

variable [DecidableEq α]

/-- A key that was just put reads as what was put. -/
@[simp] theorem getD_put_same (m : SMap α) (k : Nat) (d v : α) : getD (put m k d v) k d = v := by
  unfold put
  split
  · rw [getD_erase_same]
    symm
    assumption
  · exact getD_set_same ..

/-- Putting a key leaves every other key as it was, whatever the reader's default. -/
theorem getD_put_ne (m : SMap α) (k j : Nat) (d v e : α) (h : j ≠ k) : getD (put m k d v) j e = getD m j e := by
  unfold put
  split
  · exact getD_erase_ne _ _ _ _ h
  · exact getD_set_ne _ _ _ _ _ h

/-! ## The sorted form -/

omit [DecidableEq α] in
theorem sorted_cons (p : Nat × α) (r : SMap α) : sorted (p :: r) = true ↔ (∀ q ∈ r, p.1 < q.1) ∧ sorted r = true := by
  induction r generalizing p with
  | nil => obtain ⟨a, b⟩ := p; simp [sorted]
  | cons q r ih =>
    obtain ⟨a, b⟩ := p
    obtain ⟨c, d⟩ := q
    simp only [sorted, Bool.and_eq_true, decide_eq_true_eq, List.mem_cons, forall_eq_or_imp]
    constructor
    · rintro ⟨h1, h2⟩
      refine ⟨⟨h1, ?_⟩, h2⟩
      intro x hx
      exact lt_trans h1 (((ih (c, d)).1 h2).1 x hx)
    · rintro ⟨⟨h1, _⟩, h2⟩
      exact ⟨h1, h2⟩

omit [DecidableEq α] in
theorem sorted_filter (m : SMap α) (p : Nat × α → Bool) (h : sorted m = true) : sorted (m.filter p) = true := by
  induction m with
  | nil => rfl
  | cons q r ih =>
    obtain ⟨h1, h2⟩ := (sorted_cons q r).1 h
    by_cases hq : p q = true
    · rw [List.filter_cons_of_pos hq, sorted_cons]
      exact ⟨fun x hx => h1 x (List.mem_of_mem_filter hx), ih h2⟩
    · rw [List.filter_cons_of_neg hq]
      exact ih h2

omit [DecidableEq α] in
theorem mem_insert (m : SMap α) (k : Nat) (v : α) (x : Nat × α) : x ∈ insert m k v ↔ x = (k, v) ∨ x ∈ m := by
  induction m with
  | nil => simp [insert]
  | cons q r ih =>
    obtain ⟨a, b⟩ := q
    unfold insert
    split
    · simp
    · simp only [List.mem_cons, ih]
      tauto

omit [DecidableEq α] in
theorem sorted_insert (m : SMap α) (k : Nat) (v : α) (h : sorted m = true) (hk : ∀ x ∈ m, x.1 ≠ k) :
    sorted (insert m k v) = true := by
  induction m with
  | nil => rfl
  | cons q r ih =>
    obtain ⟨a, b⟩ := q
    obtain ⟨h1, h2⟩ := (sorted_cons (a, b) r).1 h
    unfold insert
    split
    next hlt =>
      rw [sorted_cons]
      refine ⟨?_, h⟩
      intro x hx
      rcases List.mem_cons.1 hx with rfl | hx
      · exact hlt
      · exact lt_trans hlt (h1 x hx)
    next hge =>
      rw [sorted_cons]
      refine ⟨?_, ih h2 fun x hx => hk x (List.mem_cons_of_mem _ hx)⟩
      intro x hx
      rcases (mem_insert r k v x).1 hx with rfl | hx
      · have := hk (a, b) (List.mem_cons_self ..)
        simp only [ne_eq] at this
        show a < k
        omega
      · exact h1 x hx

omit [DecidableEq α] in
theorem erase_ne (m : SMap α) (k : Nat) : ∀ x ∈ erase m k, x.1 ≠ k := by
  intro x hx
  simpa using (List.mem_filter.1 hx).2

omit [DecidableEq α] in
/-- Setting a key keeps the sorted form. -/
theorem sorted_set (m : SMap α) (k : Nat) (v : α) (h : sorted m = true) : sorted (set m k v) = true :=
  sorted_insert _ _ _ (sorted_filter _ _ h) (erase_ne m k)

/-- Putting a key keeps the sorted form. -/
theorem sorted_put (m : SMap α) (k : Nat) (d v : α) (h : sorted m = true) : sorted (put m k d v) = true := by
  unfold put
  split
  · exact sorted_filter _ _ h
  · exact sorted_set _ _ _ h

/-- Putting a key lists no entry that equals the default. -/
theorem all_put (m : SMap α) (k : Nat) (d v : α) (h : ∀ x ∈ m, x.2 ≠ d) : ∀ x ∈ put m k d v, x.2 ≠ d := by
  intro x hx
  unfold put at hx
  split at hx
  · exact h x (List.mem_of_mem_filter hx)
  next hv =>
    rcases (mem_insert _ _ _ _).1 hx with rfl | hx
    · exact hv
    · exact h x (List.mem_of_mem_filter hx)

end Sys2Proof.SMap
end

