-- ==== Sys2Proof/Laws/State.lean ====
section
/-! SUPPORT. One lemma per field per update of the state, so that no proof unfolds a record update, and what a register field reads after a write. -/

namespace Sys2Proof.Machine

variable (s : State)

/-! ## `wr` -/

@[simp] theorem State.wr_pending (f : Fld) (v i j : Nat) : (s.wr f v i j).pending = s.pending := rfl
@[simp] theorem State.wr_now (f : Fld) (v i j : Nat) : (s.wr f v i j).now = s.now := rfl
@[simp] theorem State.wr_upBase (f : Fld) (v i j : Nat) : (s.wr f v i j).upBase = s.upBase := rfl
@[simp] theorem State.wr_free (f : Fld) (v i j : Nat) : (s.wr f v i j).free = s.free := rfl
@[simp] theorem State.wr_mem (f : Fld) (v i j : Nat) : (s.wr f v i j).mem = s.mem := rfl
@[simp] theorem State.wr_memMeta (f : Fld) (v i j : Nat) : (s.wr f v i j).memMeta = s.memMeta := rfl
@[simp] theorem State.wr_memErr (f : Fld) (v i j : Nat) : (s.wr f v i j).memErr = s.memErr := rfl
@[simp] theorem State.wr_out (f : Fld) (v i j : Nat) : (s.wr f v i j).out = s.out := rfl
@[simp] theorem State.wr_link (f : Fld) (v i j : Nat) : (s.wr f v i j).link = s.link := rfl
@[simp] theorem State.wr_rqe (f : Fld) (v i j : Nat) : (s.wr f v i j).rqe = s.rqe := rfl
@[simp] theorem State.wr_reg (f : Fld) (v i j : Nat) : (s.wr f v i j).reg = s.reg := rfl
@[simp] theorem State.wr_scc (f : Fld) (v i j : Nat) : (s.wr f v i j).scc = s.scc := rfl
@[simp] theorem State.wr_dmc (f : Fld) (v i j : Nat) : (s.wr f v i j).dmc = s.dmc := rfl
@[simp] theorem State.wr_rfm (f : Fld) (v i j : Nat) : (s.wr f v i j).rfm = s.rfm := rfl
@[simp] theorem State.wr_dip (f : Fld) (v i j : Nat) : (s.wr f v i j).dip = s.dip := rfl
@[simp] theorem State.wr_tsv (f : Fld) (v i j : Nat) : (s.wr f v i j).tsv = s.tsv := rfl
@[simp] theorem State.wr_fcr (f : Fld) (v i j : Nat) : (s.wr f v i j).fcr = s.fcr := rfl
@[simp] theorem State.wr_pck (f : Fld) (v i j : Nat) : (s.wr f v i j).pck = s.pck := rfl
@[simp] theorem State.wr_pst (f : Fld) (v i j : Nat) : (s.wr f v i j).pst = s.pst := rfl
@[simp] theorem State.wr_thm (f : Fld) (v i j : Nat) : (s.wr f v i j).thm = s.thm := rfl
@[simp] theorem State.wr_cst (f : Fld) (v i j : Nat) : (s.wr f v i j).cst = s.cst := rfl
@[simp] theorem State.wr_mgt (f : Fld) (v i j : Nat) : (s.wr f v i j).mgt = s.mgt := rfl
@[simp] theorem State.wr_glb (f : Fld) (v i j : Nat) : (s.wr f v i j).glb = s.glb := rfl
@[simp] theorem State.wr_svc (f : Fld) (v i j : Nat) : (s.wr f v i j).svc = s.svc := rfl
@[simp] theorem State.wr_tap (f : Fld) (v i j : Nat) : (s.wr f v i j).tap = s.tap := rfl
@[simp] theorem State.wr_grp (f : Fld) (v i j : Nat) (k' : Nat) : (s.wr f v i j).grp k' = s.grp k' := rfl
@[simp] theorem State.wr_dmcOf (f : Fld) (v i j : Nat) (k' : Nat) : (s.wr f v i j).dmcOf k' = s.dmcOf k' := rfl
@[simp] theorem State.wr_tsvCh (f : Fld) (v i j : Nat) (k' : Nat) : (s.wr f v i j).tsvCh k' = s.tsvCh k' := rfl
@[simp] theorem State.wr_ctx (f : Fld) (v i j : Nat) (k' : Nat) : (s.wr f v i j).ctx k' = s.ctx k' := rfl
@[simp] theorem State.wr_mbx (f : Fld) (v i j : Nat) (k' : Nat) : (s.wr f v i j).mbx k' = s.mbx k' := rfl
@[simp] theorem State.wr_line (f : Fld) (v i j : Nat) (a' b' c' : Nat) : (s.wr f v i j).line a' b' c' = s.line a' b' c' := rfl

/-! ## `inc` -/

@[simp] theorem State.inc_pending (f : Fld) (n i j : Nat) : (s.inc f n i j).pending = s.pending := rfl
@[simp] theorem State.inc_now (f : Fld) (n i j : Nat) : (s.inc f n i j).now = s.now := rfl
@[simp] theorem State.inc_upBase (f : Fld) (n i j : Nat) : (s.inc f n i j).upBase = s.upBase := rfl
@[simp] theorem State.inc_free (f : Fld) (n i j : Nat) : (s.inc f n i j).free = s.free := rfl
@[simp] theorem State.inc_mem (f : Fld) (n i j : Nat) : (s.inc f n i j).mem = s.mem := rfl
@[simp] theorem State.inc_memMeta (f : Fld) (n i j : Nat) : (s.inc f n i j).memMeta = s.memMeta := rfl
@[simp] theorem State.inc_memErr (f : Fld) (n i j : Nat) : (s.inc f n i j).memErr = s.memErr := rfl
@[simp] theorem State.inc_out (f : Fld) (n i j : Nat) : (s.inc f n i j).out = s.out := rfl
@[simp] theorem State.inc_link (f : Fld) (n i j : Nat) : (s.inc f n i j).link = s.link := rfl
@[simp] theorem State.inc_rqe (f : Fld) (n i j : Nat) : (s.inc f n i j).rqe = s.rqe := rfl
@[simp] theorem State.inc_reg (f : Fld) (n i j : Nat) : (s.inc f n i j).reg = s.reg := rfl
@[simp] theorem State.inc_scc (f : Fld) (n i j : Nat) : (s.inc f n i j).scc = s.scc := rfl
@[simp] theorem State.inc_dmc (f : Fld) (n i j : Nat) : (s.inc f n i j).dmc = s.dmc := rfl
@[simp] theorem State.inc_rfm (f : Fld) (n i j : Nat) : (s.inc f n i j).rfm = s.rfm := rfl
@[simp] theorem State.inc_dip (f : Fld) (n i j : Nat) : (s.inc f n i j).dip = s.dip := rfl
@[simp] theorem State.inc_tsv (f : Fld) (n i j : Nat) : (s.inc f n i j).tsv = s.tsv := rfl
@[simp] theorem State.inc_fcr (f : Fld) (n i j : Nat) : (s.inc f n i j).fcr = s.fcr := rfl
@[simp] theorem State.inc_pck (f : Fld) (n i j : Nat) : (s.inc f n i j).pck = s.pck := rfl
@[simp] theorem State.inc_pst (f : Fld) (n i j : Nat) : (s.inc f n i j).pst = s.pst := rfl
@[simp] theorem State.inc_thm (f : Fld) (n i j : Nat) : (s.inc f n i j).thm = s.thm := rfl
@[simp] theorem State.inc_cst (f : Fld) (n i j : Nat) : (s.inc f n i j).cst = s.cst := rfl
@[simp] theorem State.inc_mgt (f : Fld) (n i j : Nat) : (s.inc f n i j).mgt = s.mgt := rfl
@[simp] theorem State.inc_glb (f : Fld) (n i j : Nat) : (s.inc f n i j).glb = s.glb := rfl
@[simp] theorem State.inc_svc (f : Fld) (n i j : Nat) : (s.inc f n i j).svc = s.svc := rfl
@[simp] theorem State.inc_tap (f : Fld) (n i j : Nat) : (s.inc f n i j).tap = s.tap := rfl
@[simp] theorem State.inc_grp (f : Fld) (n i j : Nat) (k' : Nat) : (s.inc f n i j).grp k' = s.grp k' := rfl
@[simp] theorem State.inc_dmcOf (f : Fld) (n i j : Nat) (k' : Nat) : (s.inc f n i j).dmcOf k' = s.dmcOf k' := rfl
@[simp] theorem State.inc_tsvCh (f : Fld) (n i j : Nat) (k' : Nat) : (s.inc f n i j).tsvCh k' = s.tsvCh k' := rfl
@[simp] theorem State.inc_ctx (f : Fld) (n i j : Nat) (k' : Nat) : (s.inc f n i j).ctx k' = s.ctx k' := rfl
@[simp] theorem State.inc_mbx (f : Fld) (n i j : Nat) (k' : Nat) : (s.inc f n i j).mbx k' = s.mbx k' := rfl
@[simp] theorem State.inc_line (f : Fld) (n i j : Nat) (a' b' c' : Nat) : (s.inc f n i j).line a' b' c' = s.line a' b' c' := rfl

/-! ## `draw` -/

@[simp] theorem State.draw_pending : (s.draw.2).pending = s.pending := rfl
@[simp] theorem State.draw_now : (s.draw.2).now = s.now := rfl
@[simp] theorem State.draw_upBase : (s.draw.2).upBase = s.upBase := rfl
@[simp] theorem State.draw_regs : (s.draw.2).regs = s.regs := rfl
@[simp] theorem State.draw_mem : (s.draw.2).mem = s.mem := rfl
@[simp] theorem State.draw_memMeta : (s.draw.2).memMeta = s.memMeta := rfl
@[simp] theorem State.draw_memErr : (s.draw.2).memErr = s.memErr := rfl
@[simp] theorem State.draw_out : (s.draw.2).out = s.out := rfl
@[simp] theorem State.draw_link : (s.draw.2).link = s.link := rfl
@[simp] theorem State.draw_rqe : (s.draw.2).rqe = s.rqe := rfl
@[simp] theorem State.draw_reg : (s.draw.2).reg = s.reg := rfl
@[simp] theorem State.draw_scc : (s.draw.2).scc = s.scc := rfl
@[simp] theorem State.draw_dmc : (s.draw.2).dmc = s.dmc := rfl
@[simp] theorem State.draw_rfm : (s.draw.2).rfm = s.rfm := rfl
@[simp] theorem State.draw_dip : (s.draw.2).dip = s.dip := rfl
@[simp] theorem State.draw_tsv : (s.draw.2).tsv = s.tsv := rfl
@[simp] theorem State.draw_fcr : (s.draw.2).fcr = s.fcr := rfl
@[simp] theorem State.draw_pck : (s.draw.2).pck = s.pck := rfl
@[simp] theorem State.draw_pst : (s.draw.2).pst = s.pst := rfl
@[simp] theorem State.draw_thm : (s.draw.2).thm = s.thm := rfl
@[simp] theorem State.draw_cst : (s.draw.2).cst = s.cst := rfl
@[simp] theorem State.draw_mgt : (s.draw.2).mgt = s.mgt := rfl
@[simp] theorem State.draw_glb : (s.draw.2).glb = s.glb := rfl
@[simp] theorem State.draw_svc : (s.draw.2).svc = s.svc := rfl
@[simp] theorem State.draw_tap : (s.draw.2).tap = s.tap := rfl
@[simp] theorem State.draw_grp  (k' : Nat) : (s.draw.2).grp k' = s.grp k' := rfl
@[simp] theorem State.draw_dmcOf  (k' : Nat) : (s.draw.2).dmcOf k' = s.dmcOf k' := rfl
@[simp] theorem State.draw_tsvCh  (k' : Nat) : (s.draw.2).tsvCh k' = s.tsvCh k' := rfl
@[simp] theorem State.draw_ctx  (k' : Nat) : (s.draw.2).ctx k' = s.ctx k' := rfl
@[simp] theorem State.draw_mbx  (k' : Nat) : (s.draw.2).mbx k' = s.mbx k' := rfl
@[simp] theorem State.draw_line  (a' b' c' : Nat) : (s.draw.2).line a' b' c' = s.line a' b' c' := rfl
@[simp] theorem State.draw_rd  (f' : Fld) (i' j' : Nat) : (s.draw.2).rd f' i' j' = s.rd f' i' j' := rfl

/-! ## `setGrp` -/

@[simp] theorem State.setGrp_pending (g : Nat) (x : Grp) : (s.setGrp g x).pending = s.pending := rfl
@[simp] theorem State.setGrp_now (g : Nat) (x : Grp) : (s.setGrp g x).now = s.now := rfl
@[simp] theorem State.setGrp_upBase (g : Nat) (x : Grp) : (s.setGrp g x).upBase = s.upBase := rfl
@[simp] theorem State.setGrp_free (g : Nat) (x : Grp) : (s.setGrp g x).free = s.free := rfl
@[simp] theorem State.setGrp_regs (g : Nat) (x : Grp) : (s.setGrp g x).regs = s.regs := rfl
@[simp] theorem State.setGrp_mem (g : Nat) (x : Grp) : (s.setGrp g x).mem = s.mem := rfl
@[simp] theorem State.setGrp_memMeta (g : Nat) (x : Grp) : (s.setGrp g x).memMeta = s.memMeta := rfl
@[simp] theorem State.setGrp_memErr (g : Nat) (x : Grp) : (s.setGrp g x).memErr = s.memErr := rfl
@[simp] theorem State.setGrp_out (g : Nat) (x : Grp) : (s.setGrp g x).out = s.out := rfl
@[simp] theorem State.setGrp_rqe (g : Nat) (x : Grp) : (s.setGrp g x).rqe = s.rqe := rfl
@[simp] theorem State.setGrp_reg (g : Nat) (x : Grp) : (s.setGrp g x).reg = s.reg := rfl
@[simp] theorem State.setGrp_scc (g : Nat) (x : Grp) : (s.setGrp g x).scc = s.scc := rfl
@[simp] theorem State.setGrp_dmc (g : Nat) (x : Grp) : (s.setGrp g x).dmc = s.dmc := rfl
@[simp] theorem State.setGrp_rfm (g : Nat) (x : Grp) : (s.setGrp g x).rfm = s.rfm := rfl
@[simp] theorem State.setGrp_dip (g : Nat) (x : Grp) : (s.setGrp g x).dip = s.dip := rfl
@[simp] theorem State.setGrp_tsv (g : Nat) (x : Grp) : (s.setGrp g x).tsv = s.tsv := rfl
@[simp] theorem State.setGrp_fcr (g : Nat) (x : Grp) : (s.setGrp g x).fcr = s.fcr := rfl
@[simp] theorem State.setGrp_pck (g : Nat) (x : Grp) : (s.setGrp g x).pck = s.pck := rfl
@[simp] theorem State.setGrp_pst (g : Nat) (x : Grp) : (s.setGrp g x).pst = s.pst := rfl
@[simp] theorem State.setGrp_thm (g : Nat) (x : Grp) : (s.setGrp g x).thm = s.thm := rfl
@[simp] theorem State.setGrp_cst (g : Nat) (x : Grp) : (s.setGrp g x).cst = s.cst := rfl
@[simp] theorem State.setGrp_mgt (g : Nat) (x : Grp) : (s.setGrp g x).mgt = s.mgt := rfl
@[simp] theorem State.setGrp_glb (g : Nat) (x : Grp) : (s.setGrp g x).glb = s.glb := rfl
@[simp] theorem State.setGrp_svc (g : Nat) (x : Grp) : (s.setGrp g x).svc = s.svc := rfl
@[simp] theorem State.setGrp_tap (g : Nat) (x : Grp) : (s.setGrp g x).tap = s.tap := rfl
@[simp] theorem State.setGrp_dmcOf (g : Nat) (x : Grp) (k' : Nat) : (s.setGrp g x).dmcOf k' = s.dmcOf k' := rfl
@[simp] theorem State.setGrp_tsvCh (g : Nat) (x : Grp) (k' : Nat) : (s.setGrp g x).tsvCh k' = s.tsvCh k' := rfl
@[simp] theorem State.setGrp_ctx (g : Nat) (x : Grp) (k' : Nat) : (s.setGrp g x).ctx k' = s.ctx k' := rfl
@[simp] theorem State.setGrp_mbx (g : Nat) (x : Grp) (k' : Nat) : (s.setGrp g x).mbx k' = s.mbx k' := rfl
@[simp] theorem State.setGrp_line (g : Nat) (x : Grp) (a' b' c' : Nat) : (s.setGrp g x).line a' b' c' = s.line a' b' c' := rfl
@[simp] theorem State.setGrp_rd (g : Nat) (x : Grp) (f' : Fld) (i' j' : Nat) : (s.setGrp g x).rd f' i' j' = s.rd f' i' j' := rfl

/-! ## `modGrp` -/

@[simp] theorem State.modGrp_pending (g : Nat) (k : Grp → Grp) : (s.modGrp g k).pending = s.pending := rfl
@[simp] theorem State.modGrp_now (g : Nat) (k : Grp → Grp) : (s.modGrp g k).now = s.now := rfl
@[simp] theorem State.modGrp_upBase (g : Nat) (k : Grp → Grp) : (s.modGrp g k).upBase = s.upBase := rfl
@[simp] theorem State.modGrp_free (g : Nat) (k : Grp → Grp) : (s.modGrp g k).free = s.free := rfl
@[simp] theorem State.modGrp_regs (g : Nat) (k : Grp → Grp) : (s.modGrp g k).regs = s.regs := rfl
@[simp] theorem State.modGrp_mem (g : Nat) (k : Grp → Grp) : (s.modGrp g k).mem = s.mem := rfl
@[simp] theorem State.modGrp_memMeta (g : Nat) (k : Grp → Grp) : (s.modGrp g k).memMeta = s.memMeta := rfl
@[simp] theorem State.modGrp_memErr (g : Nat) (k : Grp → Grp) : (s.modGrp g k).memErr = s.memErr := rfl
@[simp] theorem State.modGrp_out (g : Nat) (k : Grp → Grp) : (s.modGrp g k).out = s.out := rfl
@[simp] theorem State.modGrp_rqe (g : Nat) (k : Grp → Grp) : (s.modGrp g k).rqe = s.rqe := rfl
@[simp] theorem State.modGrp_reg (g : Nat) (k : Grp → Grp) : (s.modGrp g k).reg = s.reg := rfl
@[simp] theorem State.modGrp_scc (g : Nat) (k : Grp → Grp) : (s.modGrp g k).scc = s.scc := rfl
@[simp] theorem State.modGrp_dmc (g : Nat) (k : Grp → Grp) : (s.modGrp g k).dmc = s.dmc := rfl
@[simp] theorem State.modGrp_rfm (g : Nat) (k : Grp → Grp) : (s.modGrp g k).rfm = s.rfm := rfl
@[simp] theorem State.modGrp_dip (g : Nat) (k : Grp → Grp) : (s.modGrp g k).dip = s.dip := rfl
@[simp] theorem State.modGrp_tsv (g : Nat) (k : Grp → Grp) : (s.modGrp g k).tsv = s.tsv := rfl
@[simp] theorem State.modGrp_fcr (g : Nat) (k : Grp → Grp) : (s.modGrp g k).fcr = s.fcr := rfl
@[simp] theorem State.modGrp_pck (g : Nat) (k : Grp → Grp) : (s.modGrp g k).pck = s.pck := rfl
@[simp] theorem State.modGrp_pst (g : Nat) (k : Grp → Grp) : (s.modGrp g k).pst = s.pst := rfl
@[simp] theorem State.modGrp_thm (g : Nat) (k : Grp → Grp) : (s.modGrp g k).thm = s.thm := rfl
@[simp] theorem State.modGrp_cst (g : Nat) (k : Grp → Grp) : (s.modGrp g k).cst = s.cst := rfl
@[simp] theorem State.modGrp_mgt (g : Nat) (k : Grp → Grp) : (s.modGrp g k).mgt = s.mgt := rfl
@[simp] theorem State.modGrp_glb (g : Nat) (k : Grp → Grp) : (s.modGrp g k).glb = s.glb := rfl
@[simp] theorem State.modGrp_svc (g : Nat) (k : Grp → Grp) : (s.modGrp g k).svc = s.svc := rfl
@[simp] theorem State.modGrp_tap (g : Nat) (k : Grp → Grp) : (s.modGrp g k).tap = s.tap := rfl
@[simp] theorem State.modGrp_dmcOf (g : Nat) (k : Grp → Grp) (k' : Nat) : (s.modGrp g k).dmcOf k' = s.dmcOf k' := rfl
@[simp] theorem State.modGrp_tsvCh (g : Nat) (k : Grp → Grp) (k' : Nat) : (s.modGrp g k).tsvCh k' = s.tsvCh k' := rfl
@[simp] theorem State.modGrp_ctx (g : Nat) (k : Grp → Grp) (k' : Nat) : (s.modGrp g k).ctx k' = s.ctx k' := rfl
@[simp] theorem State.modGrp_mbx (g : Nat) (k : Grp → Grp) (k' : Nat) : (s.modGrp g k).mbx k' = s.mbx k' := rfl
@[simp] theorem State.modGrp_line (g : Nat) (k : Grp → Grp) (a' b' c' : Nat) : (s.modGrp g k).line a' b' c' = s.line a' b' c' := rfl
@[simp] theorem State.modGrp_rd (g : Nat) (k : Grp → Grp) (f' : Fld) (i' j' : Nat) : (s.modGrp g k).rd f' i' j' = s.rd f' i' j' := rfl

/-! ## `setDmc` -/

@[simp] theorem State.setDmc_pending (c : Nat) (x : Dmc) : (s.setDmc c x).pending = s.pending := rfl
@[simp] theorem State.setDmc_now (c : Nat) (x : Dmc) : (s.setDmc c x).now = s.now := rfl
@[simp] theorem State.setDmc_upBase (c : Nat) (x : Dmc) : (s.setDmc c x).upBase = s.upBase := rfl
@[simp] theorem State.setDmc_free (c : Nat) (x : Dmc) : (s.setDmc c x).free = s.free := rfl
@[simp] theorem State.setDmc_regs (c : Nat) (x : Dmc) : (s.setDmc c x).regs = s.regs := rfl
@[simp] theorem State.setDmc_mem (c : Nat) (x : Dmc) : (s.setDmc c x).mem = s.mem := rfl
@[simp] theorem State.setDmc_memMeta (c : Nat) (x : Dmc) : (s.setDmc c x).memMeta = s.memMeta := rfl
@[simp] theorem State.setDmc_memErr (c : Nat) (x : Dmc) : (s.setDmc c x).memErr = s.memErr := rfl
@[simp] theorem State.setDmc_out (c : Nat) (x : Dmc) : (s.setDmc c x).out = s.out := rfl
@[simp] theorem State.setDmc_link (c : Nat) (x : Dmc) : (s.setDmc c x).link = s.link := rfl
@[simp] theorem State.setDmc_rqe (c : Nat) (x : Dmc) : (s.setDmc c x).rqe = s.rqe := rfl
@[simp] theorem State.setDmc_reg (c : Nat) (x : Dmc) : (s.setDmc c x).reg = s.reg := rfl
@[simp] theorem State.setDmc_scc (c : Nat) (x : Dmc) : (s.setDmc c x).scc = s.scc := rfl
@[simp] theorem State.setDmc_rfm (c : Nat) (x : Dmc) : (s.setDmc c x).rfm = s.rfm := rfl
@[simp] theorem State.setDmc_dip (c : Nat) (x : Dmc) : (s.setDmc c x).dip = s.dip := rfl
@[simp] theorem State.setDmc_tsv (c : Nat) (x : Dmc) : (s.setDmc c x).tsv = s.tsv := rfl
@[simp] theorem State.setDmc_fcr (c : Nat) (x : Dmc) : (s.setDmc c x).fcr = s.fcr := rfl
@[simp] theorem State.setDmc_pck (c : Nat) (x : Dmc) : (s.setDmc c x).pck = s.pck := rfl
@[simp] theorem State.setDmc_pst (c : Nat) (x : Dmc) : (s.setDmc c x).pst = s.pst := rfl
@[simp] theorem State.setDmc_thm (c : Nat) (x : Dmc) : (s.setDmc c x).thm = s.thm := rfl
@[simp] theorem State.setDmc_cst (c : Nat) (x : Dmc) : (s.setDmc c x).cst = s.cst := rfl
@[simp] theorem State.setDmc_mgt (c : Nat) (x : Dmc) : (s.setDmc c x).mgt = s.mgt := rfl
@[simp] theorem State.setDmc_glb (c : Nat) (x : Dmc) : (s.setDmc c x).glb = s.glb := rfl
@[simp] theorem State.setDmc_svc (c : Nat) (x : Dmc) : (s.setDmc c x).svc = s.svc := rfl
@[simp] theorem State.setDmc_tap (c : Nat) (x : Dmc) : (s.setDmc c x).tap = s.tap := rfl
@[simp] theorem State.setDmc_grp (c : Nat) (x : Dmc) (k' : Nat) : (s.setDmc c x).grp k' = s.grp k' := rfl
@[simp] theorem State.setDmc_tsvCh (c : Nat) (x : Dmc) (k' : Nat) : (s.setDmc c x).tsvCh k' = s.tsvCh k' := rfl
@[simp] theorem State.setDmc_ctx (c : Nat) (x : Dmc) (k' : Nat) : (s.setDmc c x).ctx k' = s.ctx k' := rfl
@[simp] theorem State.setDmc_mbx (c : Nat) (x : Dmc) (k' : Nat) : (s.setDmc c x).mbx k' = s.mbx k' := rfl
@[simp] theorem State.setDmc_line (c : Nat) (x : Dmc) (a' b' c' : Nat) : (s.setDmc c x).line a' b' c' = s.line a' b' c' := rfl
@[simp] theorem State.setDmc_rd (c : Nat) (x : Dmc) (f' : Fld) (i' j' : Nat) : (s.setDmc c x).rd f' i' j' = s.rd f' i' j' := rfl

/-! ## `setTsv` -/

@[simp] theorem State.setTsv_pending (c : Nat) (x : TsvCh) : (s.setTsv c x).pending = s.pending := rfl
@[simp] theorem State.setTsv_now (c : Nat) (x : TsvCh) : (s.setTsv c x).now = s.now := rfl
@[simp] theorem State.setTsv_upBase (c : Nat) (x : TsvCh) : (s.setTsv c x).upBase = s.upBase := rfl
@[simp] theorem State.setTsv_free (c : Nat) (x : TsvCh) : (s.setTsv c x).free = s.free := rfl
@[simp] theorem State.setTsv_regs (c : Nat) (x : TsvCh) : (s.setTsv c x).regs = s.regs := rfl
@[simp] theorem State.setTsv_mem (c : Nat) (x : TsvCh) : (s.setTsv c x).mem = s.mem := rfl
@[simp] theorem State.setTsv_memMeta (c : Nat) (x : TsvCh) : (s.setTsv c x).memMeta = s.memMeta := rfl
@[simp] theorem State.setTsv_memErr (c : Nat) (x : TsvCh) : (s.setTsv c x).memErr = s.memErr := rfl
@[simp] theorem State.setTsv_out (c : Nat) (x : TsvCh) : (s.setTsv c x).out = s.out := rfl
@[simp] theorem State.setTsv_link (c : Nat) (x : TsvCh) : (s.setTsv c x).link = s.link := rfl
@[simp] theorem State.setTsv_rqe (c : Nat) (x : TsvCh) : (s.setTsv c x).rqe = s.rqe := rfl
@[simp] theorem State.setTsv_reg (c : Nat) (x : TsvCh) : (s.setTsv c x).reg = s.reg := rfl
@[simp] theorem State.setTsv_scc (c : Nat) (x : TsvCh) : (s.setTsv c x).scc = s.scc := rfl
@[simp] theorem State.setTsv_dmc (c : Nat) (x : TsvCh) : (s.setTsv c x).dmc = s.dmc := rfl
@[simp] theorem State.setTsv_rfm (c : Nat) (x : TsvCh) : (s.setTsv c x).rfm = s.rfm := rfl
@[simp] theorem State.setTsv_dip (c : Nat) (x : TsvCh) : (s.setTsv c x).dip = s.dip := rfl
@[simp] theorem State.setTsv_fcr (c : Nat) (x : TsvCh) : (s.setTsv c x).fcr = s.fcr := rfl
@[simp] theorem State.setTsv_pck (c : Nat) (x : TsvCh) : (s.setTsv c x).pck = s.pck := rfl
@[simp] theorem State.setTsv_pst (c : Nat) (x : TsvCh) : (s.setTsv c x).pst = s.pst := rfl
@[simp] theorem State.setTsv_thm (c : Nat) (x : TsvCh) : (s.setTsv c x).thm = s.thm := rfl
@[simp] theorem State.setTsv_cst (c : Nat) (x : TsvCh) : (s.setTsv c x).cst = s.cst := rfl
@[simp] theorem State.setTsv_mgt (c : Nat) (x : TsvCh) : (s.setTsv c x).mgt = s.mgt := rfl
@[simp] theorem State.setTsv_glb (c : Nat) (x : TsvCh) : (s.setTsv c x).glb = s.glb := rfl
@[simp] theorem State.setTsv_svc (c : Nat) (x : TsvCh) : (s.setTsv c x).svc = s.svc := rfl
@[simp] theorem State.setTsv_tap (c : Nat) (x : TsvCh) : (s.setTsv c x).tap = s.tap := rfl
@[simp] theorem State.setTsv_grp (c : Nat) (x : TsvCh) (k' : Nat) : (s.setTsv c x).grp k' = s.grp k' := rfl
@[simp] theorem State.setTsv_dmcOf (c : Nat) (x : TsvCh) (k' : Nat) : (s.setTsv c x).dmcOf k' = s.dmcOf k' := rfl
@[simp] theorem State.setTsv_ctx (c : Nat) (x : TsvCh) (k' : Nat) : (s.setTsv c x).ctx k' = s.ctx k' := rfl
@[simp] theorem State.setTsv_mbx (c : Nat) (x : TsvCh) (k' : Nat) : (s.setTsv c x).mbx k' = s.mbx k' := rfl
@[simp] theorem State.setTsv_line (c : Nat) (x : TsvCh) (a' b' c' : Nat) : (s.setTsv c x).line a' b' c' = s.line a' b' c' := rfl
@[simp] theorem State.setTsv_rd (c : Nat) (x : TsvCh) (f' : Fld) (i' j' : Nat) : (s.setTsv c x).rd f' i' j' = s.rd f' i' j' := rfl

/-! ## `setCtx` -/

@[simp] theorem State.setCtx_pending (b : Nat) (x : Ctx) : (s.setCtx b x).pending = s.pending := rfl
@[simp] theorem State.setCtx_now (b : Nat) (x : Ctx) : (s.setCtx b x).now = s.now := rfl
@[simp] theorem State.setCtx_upBase (b : Nat) (x : Ctx) : (s.setCtx b x).upBase = s.upBase := rfl
@[simp] theorem State.setCtx_free (b : Nat) (x : Ctx) : (s.setCtx b x).free = s.free := rfl
@[simp] theorem State.setCtx_regs (b : Nat) (x : Ctx) : (s.setCtx b x).regs = s.regs := rfl
@[simp] theorem State.setCtx_mem (b : Nat) (x : Ctx) : (s.setCtx b x).mem = s.mem := rfl
@[simp] theorem State.setCtx_memMeta (b : Nat) (x : Ctx) : (s.setCtx b x).memMeta = s.memMeta := rfl
@[simp] theorem State.setCtx_memErr (b : Nat) (x : Ctx) : (s.setCtx b x).memErr = s.memErr := rfl
@[simp] theorem State.setCtx_out (b : Nat) (x : Ctx) : (s.setCtx b x).out = s.out := rfl
@[simp] theorem State.setCtx_link (b : Nat) (x : Ctx) : (s.setCtx b x).link = s.link := rfl
@[simp] theorem State.setCtx_rqe (b : Nat) (x : Ctx) : (s.setCtx b x).rqe = s.rqe := rfl
@[simp] theorem State.setCtx_scc (b : Nat) (x : Ctx) : (s.setCtx b x).scc = s.scc := rfl
@[simp] theorem State.setCtx_dmc (b : Nat) (x : Ctx) : (s.setCtx b x).dmc = s.dmc := rfl
@[simp] theorem State.setCtx_rfm (b : Nat) (x : Ctx) : (s.setCtx b x).rfm = s.rfm := rfl
@[simp] theorem State.setCtx_dip (b : Nat) (x : Ctx) : (s.setCtx b x).dip = s.dip := rfl
@[simp] theorem State.setCtx_tsv (b : Nat) (x : Ctx) : (s.setCtx b x).tsv = s.tsv := rfl
@[simp] theorem State.setCtx_fcr (b : Nat) (x : Ctx) : (s.setCtx b x).fcr = s.fcr := rfl
@[simp] theorem State.setCtx_pck (b : Nat) (x : Ctx) : (s.setCtx b x).pck = s.pck := rfl
@[simp] theorem State.setCtx_pst (b : Nat) (x : Ctx) : (s.setCtx b x).pst = s.pst := rfl
@[simp] theorem State.setCtx_thm (b : Nat) (x : Ctx) : (s.setCtx b x).thm = s.thm := rfl
@[simp] theorem State.setCtx_cst (b : Nat) (x : Ctx) : (s.setCtx b x).cst = s.cst := rfl
@[simp] theorem State.setCtx_mgt (b : Nat) (x : Ctx) : (s.setCtx b x).mgt = s.mgt := rfl
@[simp] theorem State.setCtx_glb (b : Nat) (x : Ctx) : (s.setCtx b x).glb = s.glb := rfl
@[simp] theorem State.setCtx_svc (b : Nat) (x : Ctx) : (s.setCtx b x).svc = s.svc := rfl
@[simp] theorem State.setCtx_tap (b : Nat) (x : Ctx) : (s.setCtx b x).tap = s.tap := rfl
@[simp] theorem State.setCtx_grp (b : Nat) (x : Ctx) (k' : Nat) : (s.setCtx b x).grp k' = s.grp k' := rfl
@[simp] theorem State.setCtx_dmcOf (b : Nat) (x : Ctx) (k' : Nat) : (s.setCtx b x).dmcOf k' = s.dmcOf k' := rfl
@[simp] theorem State.setCtx_tsvCh (b : Nat) (x : Ctx) (k' : Nat) : (s.setCtx b x).tsvCh k' = s.tsvCh k' := rfl
@[simp] theorem State.setCtx_mbx (b : Nat) (x : Ctx) (k' : Nat) : (s.setCtx b x).mbx k' = s.mbx k' := rfl
@[simp] theorem State.setCtx_line (b : Nat) (x : Ctx) (a' b' c' : Nat) : (s.setCtx b x).line a' b' c' = s.line a' b' c' := rfl
@[simp] theorem State.setCtx_rd (b : Nat) (x : Ctx) (f' : Fld) (i' j' : Nat) : (s.setCtx b x).rd f' i' j' = s.rd f' i' j' := rfl

/-! ## `setMbx` -/

@[simp] theorem State.setMbx_pending (m : Nat) (x : Mbx) : (s.setMbx m x).pending = s.pending := rfl
@[simp] theorem State.setMbx_now (m : Nat) (x : Mbx) : (s.setMbx m x).now = s.now := rfl
@[simp] theorem State.setMbx_upBase (m : Nat) (x : Mbx) : (s.setMbx m x).upBase = s.upBase := rfl
@[simp] theorem State.setMbx_free (m : Nat) (x : Mbx) : (s.setMbx m x).free = s.free := rfl
@[simp] theorem State.setMbx_regs (m : Nat) (x : Mbx) : (s.setMbx m x).regs = s.regs := rfl
@[simp] theorem State.setMbx_mem (m : Nat) (x : Mbx) : (s.setMbx m x).mem = s.mem := rfl
@[simp] theorem State.setMbx_memMeta (m : Nat) (x : Mbx) : (s.setMbx m x).memMeta = s.memMeta := rfl
@[simp] theorem State.setMbx_memErr (m : Nat) (x : Mbx) : (s.setMbx m x).memErr = s.memErr := rfl
@[simp] theorem State.setMbx_out (m : Nat) (x : Mbx) : (s.setMbx m x).out = s.out := rfl
@[simp] theorem State.setMbx_link (m : Nat) (x : Mbx) : (s.setMbx m x).link = s.link := rfl
@[simp] theorem State.setMbx_rqe (m : Nat) (x : Mbx) : (s.setMbx m x).rqe = s.rqe := rfl
@[simp] theorem State.setMbx_reg (m : Nat) (x : Mbx) : (s.setMbx m x).reg = s.reg := rfl
@[simp] theorem State.setMbx_scc (m : Nat) (x : Mbx) : (s.setMbx m x).scc = s.scc := rfl
@[simp] theorem State.setMbx_dmc (m : Nat) (x : Mbx) : (s.setMbx m x).dmc = s.dmc := rfl
@[simp] theorem State.setMbx_rfm (m : Nat) (x : Mbx) : (s.setMbx m x).rfm = s.rfm := rfl
@[simp] theorem State.setMbx_dip (m : Nat) (x : Mbx) : (s.setMbx m x).dip = s.dip := rfl
@[simp] theorem State.setMbx_tsv (m : Nat) (x : Mbx) : (s.setMbx m x).tsv = s.tsv := rfl
@[simp] theorem State.setMbx_fcr (m : Nat) (x : Mbx) : (s.setMbx m x).fcr = s.fcr := rfl
@[simp] theorem State.setMbx_pck (m : Nat) (x : Mbx) : (s.setMbx m x).pck = s.pck := rfl
@[simp] theorem State.setMbx_pst (m : Nat) (x : Mbx) : (s.setMbx m x).pst = s.pst := rfl
@[simp] theorem State.setMbx_thm (m : Nat) (x : Mbx) : (s.setMbx m x).thm = s.thm := rfl
@[simp] theorem State.setMbx_cst (m : Nat) (x : Mbx) : (s.setMbx m x).cst = s.cst := rfl
@[simp] theorem State.setMbx_glb (m : Nat) (x : Mbx) : (s.setMbx m x).glb = s.glb := rfl
@[simp] theorem State.setMbx_svc (m : Nat) (x : Mbx) : (s.setMbx m x).svc = s.svc := rfl
@[simp] theorem State.setMbx_tap (m : Nat) (x : Mbx) : (s.setMbx m x).tap = s.tap := rfl
@[simp] theorem State.setMbx_grp (m : Nat) (x : Mbx) (k' : Nat) : (s.setMbx m x).grp k' = s.grp k' := rfl
@[simp] theorem State.setMbx_dmcOf (m : Nat) (x : Mbx) (k' : Nat) : (s.setMbx m x).dmcOf k' = s.dmcOf k' := rfl
@[simp] theorem State.setMbx_tsvCh (m : Nat) (x : Mbx) (k' : Nat) : (s.setMbx m x).tsvCh k' = s.tsvCh k' := rfl
@[simp] theorem State.setMbx_ctx (m : Nat) (x : Mbx) (k' : Nat) : (s.setMbx m x).ctx k' = s.ctx k' := rfl
@[simp] theorem State.setMbx_line (m : Nat) (x : Mbx) (a' b' c' : Nat) : (s.setMbx m x).line a' b' c' = s.line a' b' c' := rfl
@[simp] theorem State.setMbx_rd (m : Nat) (x : Mbx) (f' : Fld) (i' j' : Nat) : (s.setMbx m x).rd f' i' j' = s.rd f' i' j' := rfl

/-! ## `modMbx` -/

@[simp] theorem State.modMbx_pending (m : Nat) (k : Mbx → Mbx) : (s.modMbx m k).pending = s.pending := rfl
@[simp] theorem State.modMbx_now (m : Nat) (k : Mbx → Mbx) : (s.modMbx m k).now = s.now := rfl
@[simp] theorem State.modMbx_upBase (m : Nat) (k : Mbx → Mbx) : (s.modMbx m k).upBase = s.upBase := rfl
@[simp] theorem State.modMbx_free (m : Nat) (k : Mbx → Mbx) : (s.modMbx m k).free = s.free := rfl
@[simp] theorem State.modMbx_regs (m : Nat) (k : Mbx → Mbx) : (s.modMbx m k).regs = s.regs := rfl
@[simp] theorem State.modMbx_mem (m : Nat) (k : Mbx → Mbx) : (s.modMbx m k).mem = s.mem := rfl
@[simp] theorem State.modMbx_memMeta (m : Nat) (k : Mbx → Mbx) : (s.modMbx m k).memMeta = s.memMeta := rfl
@[simp] theorem State.modMbx_memErr (m : Nat) (k : Mbx → Mbx) : (s.modMbx m k).memErr = s.memErr := rfl
@[simp] theorem State.modMbx_out (m : Nat) (k : Mbx → Mbx) : (s.modMbx m k).out = s.out := rfl
@[simp] theorem State.modMbx_link (m : Nat) (k : Mbx → Mbx) : (s.modMbx m k).link = s.link := rfl
@[simp] theorem State.modMbx_rqe (m : Nat) (k : Mbx → Mbx) : (s.modMbx m k).rqe = s.rqe := rfl
@[simp] theorem State.modMbx_reg (m : Nat) (k : Mbx → Mbx) : (s.modMbx m k).reg = s.reg := rfl
@[simp] theorem State.modMbx_scc (m : Nat) (k : Mbx → Mbx) : (s.modMbx m k).scc = s.scc := rfl
@[simp] theorem State.modMbx_dmc (m : Nat) (k : Mbx → Mbx) : (s.modMbx m k).dmc = s.dmc := rfl
@[simp] theorem State.modMbx_rfm (m : Nat) (k : Mbx → Mbx) : (s.modMbx m k).rfm = s.rfm := rfl
@[simp] theorem State.modMbx_dip (m : Nat) (k : Mbx → Mbx) : (s.modMbx m k).dip = s.dip := rfl
@[simp] theorem State.modMbx_tsv (m : Nat) (k : Mbx → Mbx) : (s.modMbx m k).tsv = s.tsv := rfl
@[simp] theorem State.modMbx_fcr (m : Nat) (k : Mbx → Mbx) : (s.modMbx m k).fcr = s.fcr := rfl
@[simp] theorem State.modMbx_pck (m : Nat) (k : Mbx → Mbx) : (s.modMbx m k).pck = s.pck := rfl
@[simp] theorem State.modMbx_pst (m : Nat) (k : Mbx → Mbx) : (s.modMbx m k).pst = s.pst := rfl
@[simp] theorem State.modMbx_thm (m : Nat) (k : Mbx → Mbx) : (s.modMbx m k).thm = s.thm := rfl
@[simp] theorem State.modMbx_cst (m : Nat) (k : Mbx → Mbx) : (s.modMbx m k).cst = s.cst := rfl
@[simp] theorem State.modMbx_glb (m : Nat) (k : Mbx → Mbx) : (s.modMbx m k).glb = s.glb := rfl
@[simp] theorem State.modMbx_svc (m : Nat) (k : Mbx → Mbx) : (s.modMbx m k).svc = s.svc := rfl
@[simp] theorem State.modMbx_tap (m : Nat) (k : Mbx → Mbx) : (s.modMbx m k).tap = s.tap := rfl
@[simp] theorem State.modMbx_grp (m : Nat) (k : Mbx → Mbx) (k' : Nat) : (s.modMbx m k).grp k' = s.grp k' := rfl
@[simp] theorem State.modMbx_dmcOf (m : Nat) (k : Mbx → Mbx) (k' : Nat) : (s.modMbx m k).dmcOf k' = s.dmcOf k' := rfl
@[simp] theorem State.modMbx_tsvCh (m : Nat) (k : Mbx → Mbx) (k' : Nat) : (s.modMbx m k).tsvCh k' = s.tsvCh k' := rfl
@[simp] theorem State.modMbx_ctx (m : Nat) (k : Mbx → Mbx) (k' : Nat) : (s.modMbx m k).ctx k' = s.ctx k' := rfl
@[simp] theorem State.modMbx_line (m : Nat) (k : Mbx → Mbx) (a' b' c' : Nat) : (s.modMbx m k).line a' b' c' = s.line a' b' c' := rfl
@[simp] theorem State.modMbx_rd (m : Nat) (k : Mbx → Mbx) (f' : Fld) (i' j' : Nat) : (s.modMbx m k).rd f' i' j' = s.rd f' i' j' := rfl

/-! ## `setLine` -/

@[simp] theorem State.setLine_pending (sl set way : Nat) (x : Line) : (s.setLine sl set way x).pending = s.pending := rfl
@[simp] theorem State.setLine_now (sl set way : Nat) (x : Line) : (s.setLine sl set way x).now = s.now := rfl
@[simp] theorem State.setLine_upBase (sl set way : Nat) (x : Line) : (s.setLine sl set way x).upBase = s.upBase := rfl
@[simp] theorem State.setLine_free (sl set way : Nat) (x : Line) : (s.setLine sl set way x).free = s.free := rfl
@[simp] theorem State.setLine_regs (sl set way : Nat) (x : Line) : (s.setLine sl set way x).regs = s.regs := rfl
@[simp] theorem State.setLine_mem (sl set way : Nat) (x : Line) : (s.setLine sl set way x).mem = s.mem := rfl
@[simp] theorem State.setLine_memMeta (sl set way : Nat) (x : Line) : (s.setLine sl set way x).memMeta = s.memMeta := rfl
@[simp] theorem State.setLine_memErr (sl set way : Nat) (x : Line) : (s.setLine sl set way x).memErr = s.memErr := rfl
@[simp] theorem State.setLine_out (sl set way : Nat) (x : Line) : (s.setLine sl set way x).out = s.out := rfl
@[simp] theorem State.setLine_link (sl set way : Nat) (x : Line) : (s.setLine sl set way x).link = s.link := rfl
@[simp] theorem State.setLine_rqe (sl set way : Nat) (x : Line) : (s.setLine sl set way x).rqe = s.rqe := rfl
@[simp] theorem State.setLine_reg (sl set way : Nat) (x : Line) : (s.setLine sl set way x).reg = s.reg := rfl
@[simp] theorem State.setLine_dmc (sl set way : Nat) (x : Line) : (s.setLine sl set way x).dmc = s.dmc := rfl
@[simp] theorem State.setLine_rfm (sl set way : Nat) (x : Line) : (s.setLine sl set way x).rfm = s.rfm := rfl
@[simp] theorem State.setLine_dip (sl set way : Nat) (x : Line) : (s.setLine sl set way x).dip = s.dip := rfl
@[simp] theorem State.setLine_tsv (sl set way : Nat) (x : Line) : (s.setLine sl set way x).tsv = s.tsv := rfl
@[simp] theorem State.setLine_fcr (sl set way : Nat) (x : Line) : (s.setLine sl set way x).fcr = s.fcr := rfl
@[simp] theorem State.setLine_pck (sl set way : Nat) (x : Line) : (s.setLine sl set way x).pck = s.pck := rfl
@[simp] theorem State.setLine_pst (sl set way : Nat) (x : Line) : (s.setLine sl set way x).pst = s.pst := rfl
@[simp] theorem State.setLine_thm (sl set way : Nat) (x : Line) : (s.setLine sl set way x).thm = s.thm := rfl
@[simp] theorem State.setLine_cst (sl set way : Nat) (x : Line) : (s.setLine sl set way x).cst = s.cst := rfl
@[simp] theorem State.setLine_mgt (sl set way : Nat) (x : Line) : (s.setLine sl set way x).mgt = s.mgt := rfl
@[simp] theorem State.setLine_glb (sl set way : Nat) (x : Line) : (s.setLine sl set way x).glb = s.glb := rfl
@[simp] theorem State.setLine_svc (sl set way : Nat) (x : Line) : (s.setLine sl set way x).svc = s.svc := rfl
@[simp] theorem State.setLine_tap (sl set way : Nat) (x : Line) : (s.setLine sl set way x).tap = s.tap := rfl
@[simp] theorem State.setLine_grp (sl set way : Nat) (x : Line) (k' : Nat) : (s.setLine sl set way x).grp k' = s.grp k' := rfl
@[simp] theorem State.setLine_dmcOf (sl set way : Nat) (x : Line) (k' : Nat) : (s.setLine sl set way x).dmcOf k' = s.dmcOf k' := rfl
@[simp] theorem State.setLine_tsvCh (sl set way : Nat) (x : Line) (k' : Nat) : (s.setLine sl set way x).tsvCh k' = s.tsvCh k' := rfl
@[simp] theorem State.setLine_ctx (sl set way : Nat) (x : Line) (k' : Nat) : (s.setLine sl set way x).ctx k' = s.ctx k' := rfl
@[simp] theorem State.setLine_mbx (sl set way : Nat) (x : Line) (k' : Nat) : (s.setLine sl set way x).mbx k' = s.mbx k' := rfl
@[simp] theorem State.setLine_rd (sl set way : Nat) (x : Line) (f' : Fld) (i' j' : Nat) : (s.setLine sl set way x).rd f' i' j' = s.rd f' i' j' := rfl

/-! ## `moveWay` -/

@[simp] theorem State.moveWay_pending (sl set way : Nat) (recent : Bool) : (s.moveWay sl set way recent).pending = s.pending := rfl
@[simp] theorem State.moveWay_now (sl set way : Nat) (recent : Bool) : (s.moveWay sl set way recent).now = s.now := rfl
@[simp] theorem State.moveWay_upBase (sl set way : Nat) (recent : Bool) : (s.moveWay sl set way recent).upBase = s.upBase := rfl
@[simp] theorem State.moveWay_free (sl set way : Nat) (recent : Bool) : (s.moveWay sl set way recent).free = s.free := rfl
@[simp] theorem State.moveWay_regs (sl set way : Nat) (recent : Bool) : (s.moveWay sl set way recent).regs = s.regs := rfl
@[simp] theorem State.moveWay_mem (sl set way : Nat) (recent : Bool) : (s.moveWay sl set way recent).mem = s.mem := rfl
@[simp] theorem State.moveWay_memMeta (sl set way : Nat) (recent : Bool) : (s.moveWay sl set way recent).memMeta = s.memMeta := rfl
@[simp] theorem State.moveWay_memErr (sl set way : Nat) (recent : Bool) : (s.moveWay sl set way recent).memErr = s.memErr := rfl
@[simp] theorem State.moveWay_out (sl set way : Nat) (recent : Bool) : (s.moveWay sl set way recent).out = s.out := rfl
@[simp] theorem State.moveWay_link (sl set way : Nat) (recent : Bool) : (s.moveWay sl set way recent).link = s.link := rfl
@[simp] theorem State.moveWay_rqe (sl set way : Nat) (recent : Bool) : (s.moveWay sl set way recent).rqe = s.rqe := rfl
@[simp] theorem State.moveWay_reg (sl set way : Nat) (recent : Bool) : (s.moveWay sl set way recent).reg = s.reg := rfl
@[simp] theorem State.moveWay_dmc (sl set way : Nat) (recent : Bool) : (s.moveWay sl set way recent).dmc = s.dmc := rfl
@[simp] theorem State.moveWay_rfm (sl set way : Nat) (recent : Bool) : (s.moveWay sl set way recent).rfm = s.rfm := rfl
@[simp] theorem State.moveWay_dip (sl set way : Nat) (recent : Bool) : (s.moveWay sl set way recent).dip = s.dip := rfl
@[simp] theorem State.moveWay_tsv (sl set way : Nat) (recent : Bool) : (s.moveWay sl set way recent).tsv = s.tsv := rfl
@[simp] theorem State.moveWay_fcr (sl set way : Nat) (recent : Bool) : (s.moveWay sl set way recent).fcr = s.fcr := rfl
@[simp] theorem State.moveWay_pck (sl set way : Nat) (recent : Bool) : (s.moveWay sl set way recent).pck = s.pck := rfl
@[simp] theorem State.moveWay_pst (sl set way : Nat) (recent : Bool) : (s.moveWay sl set way recent).pst = s.pst := rfl
@[simp] theorem State.moveWay_thm (sl set way : Nat) (recent : Bool) : (s.moveWay sl set way recent).thm = s.thm := rfl
@[simp] theorem State.moveWay_cst (sl set way : Nat) (recent : Bool) : (s.moveWay sl set way recent).cst = s.cst := rfl
@[simp] theorem State.moveWay_mgt (sl set way : Nat) (recent : Bool) : (s.moveWay sl set way recent).mgt = s.mgt := rfl
@[simp] theorem State.moveWay_glb (sl set way : Nat) (recent : Bool) : (s.moveWay sl set way recent).glb = s.glb := rfl
@[simp] theorem State.moveWay_svc (sl set way : Nat) (recent : Bool) : (s.moveWay sl set way recent).svc = s.svc := rfl
@[simp] theorem State.moveWay_tap (sl set way : Nat) (recent : Bool) : (s.moveWay sl set way recent).tap = s.tap := rfl
@[simp] theorem State.moveWay_grp (sl set way : Nat) (recent : Bool) (k' : Nat) : (s.moveWay sl set way recent).grp k' = s.grp k' := rfl
@[simp] theorem State.moveWay_dmcOf (sl set way : Nat) (recent : Bool) (k' : Nat) : (s.moveWay sl set way recent).dmcOf k' = s.dmcOf k' := rfl
@[simp] theorem State.moveWay_tsvCh (sl set way : Nat) (recent : Bool) (k' : Nat) : (s.moveWay sl set way recent).tsvCh k' = s.tsvCh k' := rfl
@[simp] theorem State.moveWay_ctx (sl set way : Nat) (recent : Bool) (k' : Nat) : (s.moveWay sl set way recent).ctx k' = s.ctx k' := rfl
@[simp] theorem State.moveWay_mbx (sl set way : Nat) (recent : Bool) (k' : Nat) : (s.moveWay sl set way recent).mbx k' = s.mbx k' := rfl
@[simp] theorem State.moveWay_rd (sl set way : Nat) (recent : Bool) (f' : Fld) (i' j' : Nat) : (s.moveWay sl set way recent).rd f' i' j' = s.rd f' i' j' := rfl

/-! ## `storeSector` -/

@[simp] theorem State.storeSector_pending (ps : Nat) (x : Sector) : (s.storeSector ps x).pending = s.pending := rfl
@[simp] theorem State.storeSector_now (ps : Nat) (x : Sector) : (s.storeSector ps x).now = s.now := rfl
@[simp] theorem State.storeSector_upBase (ps : Nat) (x : Sector) : (s.storeSector ps x).upBase = s.upBase := rfl
@[simp] theorem State.storeSector_free (ps : Nat) (x : Sector) : (s.storeSector ps x).free = s.free := rfl
@[simp] theorem State.storeSector_regs (ps : Nat) (x : Sector) : (s.storeSector ps x).regs = s.regs := rfl
@[simp] theorem State.storeSector_out (ps : Nat) (x : Sector) : (s.storeSector ps x).out = s.out := rfl
@[simp] theorem State.storeSector_link (ps : Nat) (x : Sector) : (s.storeSector ps x).link = s.link := rfl
@[simp] theorem State.storeSector_rqe (ps : Nat) (x : Sector) : (s.storeSector ps x).rqe = s.rqe := rfl
@[simp] theorem State.storeSector_reg (ps : Nat) (x : Sector) : (s.storeSector ps x).reg = s.reg := rfl
@[simp] theorem State.storeSector_scc (ps : Nat) (x : Sector) : (s.storeSector ps x).scc = s.scc := rfl
@[simp] theorem State.storeSector_dmc (ps : Nat) (x : Sector) : (s.storeSector ps x).dmc = s.dmc := rfl
@[simp] theorem State.storeSector_rfm (ps : Nat) (x : Sector) : (s.storeSector ps x).rfm = s.rfm := rfl
@[simp] theorem State.storeSector_dip (ps : Nat) (x : Sector) : (s.storeSector ps x).dip = s.dip := rfl
@[simp] theorem State.storeSector_tsv (ps : Nat) (x : Sector) : (s.storeSector ps x).tsv = s.tsv := rfl
@[simp] theorem State.storeSector_fcr (ps : Nat) (x : Sector) : (s.storeSector ps x).fcr = s.fcr := rfl
@[simp] theorem State.storeSector_pck (ps : Nat) (x : Sector) : (s.storeSector ps x).pck = s.pck := rfl
@[simp] theorem State.storeSector_pst (ps : Nat) (x : Sector) : (s.storeSector ps x).pst = s.pst := rfl
@[simp] theorem State.storeSector_thm (ps : Nat) (x : Sector) : (s.storeSector ps x).thm = s.thm := rfl
@[simp] theorem State.storeSector_cst (ps : Nat) (x : Sector) : (s.storeSector ps x).cst = s.cst := rfl
@[simp] theorem State.storeSector_mgt (ps : Nat) (x : Sector) : (s.storeSector ps x).mgt = s.mgt := rfl
@[simp] theorem State.storeSector_glb (ps : Nat) (x : Sector) : (s.storeSector ps x).glb = s.glb := rfl
@[simp] theorem State.storeSector_svc (ps : Nat) (x : Sector) : (s.storeSector ps x).svc = s.svc := rfl
@[simp] theorem State.storeSector_tap (ps : Nat) (x : Sector) : (s.storeSector ps x).tap = s.tap := rfl
@[simp] theorem State.storeSector_grp (ps : Nat) (x : Sector) (k' : Nat) : (s.storeSector ps x).grp k' = s.grp k' := rfl
@[simp] theorem State.storeSector_dmcOf (ps : Nat) (x : Sector) (k' : Nat) : (s.storeSector ps x).dmcOf k' = s.dmcOf k' := rfl
@[simp] theorem State.storeSector_tsvCh (ps : Nat) (x : Sector) (k' : Nat) : (s.storeSector ps x).tsvCh k' = s.tsvCh k' := rfl
@[simp] theorem State.storeSector_ctx (ps : Nat) (x : Sector) (k' : Nat) : (s.storeSector ps x).ctx k' = s.ctx k' := rfl
@[simp] theorem State.storeSector_mbx (ps : Nat) (x : Sector) (k' : Nat) : (s.storeSector ps x).mbx k' = s.mbx k' := rfl
@[simp] theorem State.storeSector_line (ps : Nat) (x : Sector) (a' b' c' : Nat) : (s.storeSector ps x).line a' b' c' = s.line a' b' c' := rfl
@[simp] theorem State.storeSector_rd (ps : Nat) (x : Sector) (f' : Fld) (i' j' : Nat) : (s.storeSector ps x).rd f' i' j' = s.rd f' i' j' := rfl

/-! ## What the updates write -/

@[simp] theorem State.setGrp_grp_same (g : Nat) (x : Grp) : (s.setGrp g x).grp g = x := SMap.getD_put_same ..
theorem State.setGrp_grp_ne (g k : Nat) (x : Grp) (h : k ≠ g) : (s.setGrp g x).grp k = s.grp k := SMap.getD_put_ne _ _ _ _ _ _ h
@[simp] theorem State.modGrp_grp_same (g : Nat) (k : Grp → Grp) : (s.modGrp g k).grp g = k (s.grp g) := SMap.getD_put_same ..
@[simp] theorem State.setDmc_dmcOf_same (c : Nat) (x : Dmc) : (s.setDmc c x).dmcOf c = x := SMap.getD_put_same ..
theorem State.setDmc_dmcOf_ne (c k : Nat) (x : Dmc) (h : k ≠ c) : (s.setDmc c x).dmcOf k = s.dmcOf k := SMap.getD_put_ne _ _ _ _ _ _ h
@[simp] theorem State.setTsv_tsvCh_same (c : Nat) (x : TsvCh) : (s.setTsv c x).tsvCh c = x := SMap.getD_put_same ..
theorem State.setTsv_tsvCh_ne (c k : Nat) (x : TsvCh) (h : k ≠ c) : (s.setTsv c x).tsvCh k = s.tsvCh k := SMap.getD_put_ne _ _ _ _ _ _ h
@[simp] theorem State.setCtx_ctx_same (b : Nat) (x : Ctx) : (s.setCtx b x).ctx b = x := SMap.getD_put_same ..
theorem State.setCtx_ctx_ne (b k : Nat) (x : Ctx) (h : k ≠ b) : (s.setCtx b x).ctx k = s.ctx k := SMap.getD_put_ne _ _ _ _ _ _ h
@[simp] theorem State.setMbx_mbx_same (m : Nat) (x : Mbx) : (s.setMbx m x).mbx m = x := SMap.getD_put_same ..
theorem State.setMbx_mbx_ne (m k : Nat) (x : Mbx) (h : k ≠ m) : (s.setMbx m x).mbx k = s.mbx k := SMap.getD_put_ne _ _ _ _ _ _ h
@[simp] theorem State.modMbx_mbx_same (m : Nat) (k : Mbx → Mbx) : (s.modMbx m k).mbx m = k (s.mbx m) := SMap.getD_put_same ..
@[simp] theorem State.setLine_line_same (sl set way : Nat) (x : Line) : (s.setLine sl set way x).line sl set way = normLine x := SMap.getD_put_same ..

/-! ## Register fields -/

/-- A field just written reads as the value cut to its width. -/
@[simp] theorem State.rd_wr_same (f : Fld) (v i j : Nat) : (s.wr f v i j).rd f i j = v % 2 ^ f.w := SMap.getD_put_same ..

/-- A write to one place leaves every other place as it was. -/
theorem State.rd_wr_ne (f f' : Fld) (v i j i' j' : Nat) (h : f'.at i' j' ≠ f.at i j) : (s.wr f v i j).rd f' i' j' = s.rd f' i' j' :=
  SMap.getD_put_ne _ _ _ _ _ _ h

/-- A counter that was just advanced. -/
@[simp] theorem State.rd_inc_same (f : Fld) (n i j : Nat) : (s.inc f n i j).rd f i j = min (s.rd f i j + n) (2 ^ f.w - 1) := by
  unfold State.inc
  rw [State.rd_wr_same, Nat.mod_eq_of_lt]
  have := Nat.two_pow_pos f.w
  omega

/-- Advancing a counter leaves every other place as it was. -/
theorem State.rd_inc_ne (f f' : Fld) (n i j i' j' : Nat) (h : f'.at i' j' ≠ f.at i j) : (s.inc f n i j).rd f' i' j' = s.rd f' i' j' :=
  State.rd_wr_ne _ _ _ _ _ _ _ _ h

end Sys2Proof.Machine
end

