-- ==== Sys2Proof/Laws/Raise.lean ====
section
/-! SUPPORT. What the MRAM port and the raise of an event can do: which parts of the state they reach. -/

namespace Sys2Proof.Machine

/-- A place of the register store that a raise may write: the registers of FCR (page 3 of the block map), and `WE_STACK`. -/
def raisePlace (k : Nat) : Bool := k / 524288 % 512 == 3 || k == F.MGT_QUIESCE_WE_STACK.at 0 0

/-- What a raise can change: FCR, the MRAM port, FCR's registers with `WE_STACK`, a warm reset that becomes due, and a wake cause. -/
def RaiseReach (s t : State) : Prop :=
  ∃ regs fcr pst due wake,
    t = { s with regs := regs, fcr := fcr, pst := pst, pck := { s.pck with wrstDue := due, wake := wake } } ∧
    ∀ k, raisePlace k = false → SMap.get? regs k = SMap.get? s.regs k

theorem RaiseReach.refl (s : State) : RaiseReach s s := ⟨_, _, _, _, _, rfl, fun _ _ => rfl⟩

theorem RaiseReach.trans {s t u : State} (h : RaiseReach s t) (g : RaiseReach t u) : RaiseReach s u := by
  obtain ⟨r, f, p, d, w, rfl, hr⟩ := h
  obtain ⟨r', f', p', d', w', rfl, hr'⟩ := g
  exact ⟨r', f', p', d', w', rfl, fun k hk => (hr' k hk).trans (hr k hk)⟩

theorem RaiseReach.ite {c : Prop} [Decidable c] {s a b : State} (ha : RaiseReach s a) (hb : RaiseReach s b) :
    RaiseReach s (if c then a else b) := by
  split
  · exact ha
  · exact hb

theorem RaiseReach.foldl {α : Type} {s t : State} (l : List α) (g : State → α → State) (h : RaiseReach s t)
    (hg : ∀ u x, RaiseReach s u → RaiseReach s (g u x)) : RaiseReach s (l.foldl g t) := by
  induction l generalizing t with
  | nil => exact h
  | cons a r ih => exact ih (hg _ _ h)

theorem RaiseReach.wr {s t : State} (f : Fld) (v i j : Nat) (h : RaiseReach s t) (hp : raisePlace (f.at i j) = true) :
    RaiseReach s (t.wr f v i j) := by
  refine h.trans ⟨_, _, _, _, _, rfl, ?_⟩
  intro k hk
  have hne : k ≠ f.at i j := by
    rintro rfl
    rw [hp] at hk
    exact Bool.noConfusion hk
  simp only [SMap.put]
  split
  · exact SMap.get?_erase_ne _ _ _ hne
  · exact SMap.get?_set_ne _ _ _ _ hne

theorem RaiseReach.inc {s t : State} (f : Fld) (n i j : Nat) (h : RaiseReach s t) (hp : raisePlace (f.at i j) = true) :
    RaiseReach s (t.inc f n i j) := h.wr _ _ _ _ hp

/-- A part of the state outside the register store, the queues of FCR and the port. -/
theorem RaiseReach.upd {s t u : State} (h : RaiseReach s t)
    (hu : ∃ fcr pst due wake, u = { t with fcr := fcr, pst := pst, pck := { t.pck with wrstDue := due, wake := wake } }) : RaiseReach s u := by
  obtain ⟨f, p, d, w, rfl⟩ := hu
  exact h.trans ⟨_, _, _, _, _, rfl, fun _ _ => rfl⟩

/-- The MRAM port changes the port and its queue alone. -/
theorem State.portStart_eq (s : State) : ∃ pst, s.portStart = { s with pst := pst } := by
  unfold State.portStart
  split
  · exact ⟨_, rfl⟩
  · split
    · exact ⟨_, rfl⟩
    · exact ⟨_, rfl⟩

/-- Queueing words for the MRAM port changes the port and its queue alone. -/
theorem State.portPut_eq (s : State) (ws : List MWord) : ∃ pst, s.portPut ws = { s with pst := pst } := by
  obtain ⟨p, hp⟩ := State.portStart_eq { s with pst.q := s.pst.q ++ (if s.pst.only then ws.filter portAllowed else ws) }
  exact ⟨p, hp⟩

theorem State.putStackWord_eq (s : State) (n lo w v : Nat) : ∃ pst, s.putStackWord n lo w v = { s with pst := pst } :=
  State.portPut_eq ..

theorem RaiseReach.portPut {s t : State} (ws : List MWord) (h : RaiseReach s t) : RaiseReach s (t.portPut ws) := by
  obtain ⟨p, hp⟩ := t.portPut_eq ws
  exact h.upd ⟨t.fcr, p, t.pck.wrstDue, t.pck.wake, hp⟩

theorem raisePlace_dlost (d : Nat) (h : d < 16) : raisePlace (F.FCR_DOM_DLOST.at d 0) = true := by
  interval_cases d <;> decide

theorem RaiseReach.queueEvt {s t : State} (d : Nat) (r : Raise) (hd : d < 16) (h : RaiseReach s t) : RaiseReach s (queueEvt t d r) := by
  unfold Sys2Proof.Machine.queueEvt
  have missed : ∀ u : State, RaiseReach s u →
      RaiseReach s { (u.inc F.FCR_DOM_DLOST 1 d) with fcr.loss := SMap.put u.fcr.loss d false true } := fun u hu =>
    (hu.inc _ _ _ _ (raisePlace_dlost d hd)).upd ⟨_, _, _, _, rfl⟩
  refine .ite h (.ite (missed _ (h.upd ⟨_, _, _, _, rfl⟩)) (.ite (missed _ h) (h.upd ⟨_, _, _, _, rfl⟩)))

theorem RaiseReach.queueCopy {s t : State} (r : Raise) (h : RaiseReach s t) : RaiseReach s (queueCopy t r) := by
  unfold Sys2Proof.Machine.queueCopy
  exact .ite (h.inc _ _ _ _ (by decide)) (h.upd ⟨_, _, _, _, rfl⟩)

theorem RaiseReach.logToPort {s t : State} (r : Raise) (h : RaiseReach s t) : RaiseReach s (t.logToPort r) := by
  unfold State.logToPort
  exact ((h.portPut _).wr _ _ _ _ (by decide)).wr _ _ _ _ (by decide)

theorem RaiseReach.queueLog {s t : State} (r : Raise) (h : RaiseReach s t) : RaiseReach s (queueLog t r).1 := by
  unfold Sys2Proof.Machine.queueLog
  split
  · exact h
  · split
    · exact (h.upd ⟨_, _, _, _, rfl⟩).logToPort r
    · have hd : RaiseReach s (t.inc F.FCR_LOG_CNT_LOG_DROP) := h.inc _ _ _ _ (by decide)
      dsimp only
      generalize (if grave r.sev = true then 64 else 56) = m
      by_cases hn : t.fcr.logq.length ≥ m
      · rw [if_pos hn]; exact hd
      · rw [if_neg hn]
        split
        · exact hd
        · exact h.upd ⟨_, _, _, _, rfl⟩

theorem raisePlace_syn (i : Nat) (h : i < 4) : raisePlace (F.FCR_FF_SYN_FF_SYN.at i 0) = true := by
  interval_cases i <;> decide

theorem RaiseReach.capture {s t : State} (r : Raise) (h : RaiseReach s t) : RaiseReach s (capture t r) := by
  unfold Sys2Proof.Machine.capture
  refine .ite ?_ (.ite (h.inc _ _ _ _ (by decide)) ?_)
  · have h5 := ((((h.wr F.FCR_FF_FF_VALID 1 0 0 (by decide)).wr F.FCR_FF_FF_SRC r.src 0 0 (by decide)).wr F.FCR_FF_FF_SEV r.sev.num 0 0
      (by decide)).wr F.FCR_FF_TIME_LO_FF_TLO r.stamp 0 0 (by decide)).wr F.FCR_FF_TIME_HI_FF_THI (r.stamp / 2 ^ 32) 0 0 (by decide)
    have h6 := h5.wr F.FCR_FF_SYN_FF_SYN (r.syn.getD 0 0) 0 0 (by decide)
    have h7 := h6.wr F.FCR_FF_SYN_FF_SYN (r.syn.getD 1 0) 1 0 (by decide)
    have h8 := h7.wr F.FCR_FF_SYN_FF_SYN (r.syn.getD 2 0) 2 0 (by decide)
    exact h8.wr F.FCR_FF_SYN_FF_SYN (r.syn.getD 3 0) 3 0 (by decide)
  · exact ((h.wr _ _ _ _ (by decide)).inc _ _ _ _ (by decide)).wr _ _ _ _ (by decide)

theorem RaiseReach.faultState {s t : State} (v : Sev) (h : RaiseReach s t) : RaiseReach s (faultState t v) := by
  unfold Sys2Proof.Machine.faultState
  exact .ite h (.ite ((h.wr F.FCR_STAT_XSTATE 2 0 0 (by decide)).upd ⟨_, _, _, _, rfl⟩)
    ((h.wr F.FCR_STAT_XSTATE 1 0 0 (by decide)).upd ⟨_, _, _, _, rfl⟩))

theorem RaiseReach.react {s t : State} (src : Nat) (h : RaiseReach s t) : RaiseReach s (react t src) := by
  unfold Sys2Proof.Machine.react
  have weigh := h.wr F.MGT_QUIESCE_WE_STACK 1 0 0 (by decide)
  split
  · exact weigh
  · split
    · exact .ite weigh (h.upd ⟨_, _, _, _, rfl⟩)
    · exact h.upd ⟨_, _, _, _, rfl⟩
  · exact h

theorem RaiseReach.holdAlert {s t : State} (a : State) (h : RaiseReach s t) : RaiseReach s (holdAlert a t) := by
  unfold Sys2Proof.Machine.holdAlert
  exact .ite h (h.upd ⟨_, _, _, _, rfl⟩)

theorem RaiseReach.raiseOnce {s t : State} (src : Nat) (v : Sev) (syn : List Nat) (test : Bool) (h : RaiseReach s t) :
    RaiseReach s (raiseOnce t src v syn test).1 := by
  unfold Sys2Proof.Machine.raiseOnce
  extract_lets r0 first s1 r s2 s3 s4 q p s5
  have h1 : RaiseReach s s1 := .ite ((h.capture _).faultState v) h
  clear_value s1
  have h2 : RaiseReach s s2 := by
    have key : ∀ (l : List Nat) (u : State), (∀ d ∈ l, d < 16) → RaiseReach s u →
        RaiseReach s (l.foldl (fun t d => if reaches v (s1.rd F.FCR_SRC_EVT_MIN src) then Sys2Proof.Machine.queueEvt t d r else t) u) := by
      intro l
      induction l with
      | nil => intro u _ hu; exact hu
      | cons a q ih =>
        intro u hl hu
        exact ih _ (fun d hd => hl d (List.mem_cons_of_mem _ hd)) (.ite (hu.queueEvt a r (hl a (List.mem_cons_self ..))) hu)
    refine key _ _ ?_ h1
    intro d hd
    exact List.mem_range.1 (List.mem_of_mem_filter hd)
  clear_value s2
  have h3 : RaiseReach s s3 := .ite ((((h2.wr F.FCR_ALERT_ALERT 1 0 0 (by decide)).wr F.FCR_ALERT_ALERT_SRC src 0 0 (by decide)).inc _ _ _ _ (by decide)).holdAlert _) h2
  clear_value s3
  have h4 : RaiseReach s s4 := .ite (h3.queueCopy r) h3
  clear_value s4
  have h5 : RaiseReach s s5 := .ite (h4.upd ⟨_, _, _, _, rfl⟩) h4
  clear_value s5
  split
  next s6 d hs6 =>
  have h6 : RaiseReach s s6 := by
    have hx := congrArg Prod.fst hs6
    dsimp only at hx
    rw [← hx]
    split
    · exact h5.queueLog r
    · exact h5
  exact .ite (h6.react src) h6

/-- A raise reaches what `RaiseReach` says and nothing else. -/
theorem RaiseReach.raiseAs {s t : State} (src : Nat) (v : Sev) (syn : List Nat) (test : Bool) (h : RaiseReach s t) :
    RaiseReach s (t.raiseAs src v syn test) := by
  unfold State.raiseAs
  have h1 := h.raiseOnce src v syn test
  split
  next s1 e => rw [e] at h1; exact h1
  next s1 c e =>
    rw [e] at h1
    dsimp only at h1
    have h2 : RaiseReach s { s1 with fcr.lastDrop := some s1.now } := h1.upd ⟨_, _, _, _, rfl⟩
    exact .ite (h2.raiseOnce _ _ _ _) h2

theorem State.raise_reach (s : State) (src : Nat) (v : Sev) (syn : List Nat) : RaiseReach s (s.raise src v syn) := (RaiseReach.refl s).raiseAs ..

theorem State.raiseG_reach (s : State) (src : Nat) (v : Sev) (unit value : Nat) (more : List Nat) :
    RaiseReach s (s.raiseG src v unit value more) := s.raise_reach ..

/-- What a raise leaves as it was. -/
theorem RaiseReach.same {s t : State} (h : RaiseReach s t) :
    t.pending = s.pending ∧ t.now = s.now ∧ t.upBase = s.upBase ∧ t.free = s.free ∧ t.mem = s.mem ∧ t.memMeta = s.memMeta ∧
    t.memErr = s.memErr ∧ t.out = s.out ∧ t.link = s.link ∧ t.rqe = s.rqe ∧ t.reg = s.reg ∧ t.scc = s.scc ∧ t.dmc = s.dmc ∧
    t.rfm = s.rfm ∧ t.dip = s.dip ∧ t.tsv = s.tsv ∧ t.thm = s.thm ∧ t.cst = s.cst ∧ t.mgt = s.mgt ∧ t.glb = s.glb ∧ t.svc = s.svc ∧
    t.pck.pow = s.pck.pow ∧ t.pck.step = s.pck.step := by
  obtain ⟨r, f, p, d, w, rfl, _⟩ := h
  exact ⟨rfl, rfl, rfl, rfl, rfl, rfl, rfl, rfl, rfl, rfl, rfl, rfl, rfl, rfl, rfl, rfl, rfl, rfl, rfl, rfl, rfl, rfl, rfl⟩

/-- A register field outside FCR and `WE_STACK` reads the same after a raise. -/
theorem RaiseReach.rd {s t : State} (h : RaiseReach s t) (f : Fld) (i j : Nat) (hp : raisePlace (f.at i j) = false) : t.rd f i j = s.rd f i j := by
  obtain ⟨r, fc, p, d, w, rfl, hr⟩ := h
  simp only [State.rd, SMap.getD, hr _ hp]

end Sys2Proof.Machine
end

