-- ==== Sys2Proof/Laws/Link.lean ====
section
/-! SUPPORT. What sending on the link can do: flits go out, and the sending groups' streams advance. -/

namespace Sys2Proof.Machine

/-- What sending can change in a group: its numbering, its replay buffer, when its lanes are free again, and QUIET to ACTIVE. -/
def GrpSent (x y : Grp) : Prop :=
  ∃ a b c d e, y = { x with gst := a, txNext := b, fresh := c, replay := d, txAt := e } ∧ (a = x.gst ∨ (x.gst = .quiet ∧ a = .active))

theorem GrpSent.refl (x : Grp) : GrpSent x x := ⟨_, _, _, _, _, rfl, .inl rfl⟩

theorem GrpSent.trans {x y z : Grp} (h : GrpSent x y) (g : GrpSent y z) : GrpSent x z := by
  obtain ⟨a, b, c, d, e, rfl, ha⟩ := h
  obtain ⟨a', b', c', d', e', rfl, ha'⟩ := g
  refine ⟨a', b', c', d', e', rfl, ?_⟩
  rcases ha' with h' | ⟨h1, h2⟩
  · rcases ha with h | ⟨h3, h4⟩
    · exact .inl (h'.trans h)
    · exact .inr ⟨h3, h'.trans h4⟩
  · rcases ha with h | ⟨h3, h4⟩
    · exact .inr ⟨h ▸ h1, h2⟩
    · exact absurd (h4.symm.trans h1) (by decide)

/-- What sending can change: the link's queues, the credit left, the groups' streams and what has left the stack. -/
def SendReach (s t : State) : Prop :=
  (∃ grp resend items vc2Out vc2Avail capOld out, t = { s with
    link := { s.link with grp := grp, resend := resend, items := items, vc2Out := vc2Out, vc2Avail := vc2Avail, capOld := capOld }, out := out }) ∧
  ∀ g, GrpSent (s.grp g) (t.grp g)

theorem SendReach.refl (s : State) : SendReach s s := ⟨⟨_, _, _, _, _, _, _, rfl⟩, fun _ => .refl _⟩

theorem SendReach.trans {s t u : State} (h : SendReach s t) (g : SendReach t u) : SendReach s u := by
  obtain ⟨⟨a, b, c, d, e, q, o, rfl⟩, h2⟩ := h
  obtain ⟨⟨a', b', c', d', e', q', o', rfl⟩, g2⟩ := g
  exact ⟨⟨_, _, _, _, _, _, _, rfl⟩, fun k => (h2 k).trans (g2 k)⟩

/-- A change of the queues or of the credit alone. -/
theorem SendReach.queues (s : State) (resend items vc2Out : List (List Byte)) (v : Nat) :
    SendReach s { s with link := { s.link with resend := resend, items := items, vc2Out := vc2Out, vc2Avail := v } } :=
  ⟨⟨_, _, _, _, _, _, _, rfl⟩, fun _ => .refl _⟩

/-- One group changes as sending may change it, and flits leave. -/
theorem SendReach.setGrp {s : State} (g : Nat) {x : Grp} (h : GrpSent (s.grp g) x) (out : List Out) :
    SendReach s { s.setGrp g x with out := out } := by
  refine ⟨⟨_, _, _, _, _, _, _, rfl⟩, fun k => ?_⟩
  by_cases hk : k = g
  · subst hk
    exact (State.setGrp_grp_same s k x).symm ▸ h
  · exact (State.setGrp_grp_ne s g k x hk).symm ▸ .refl _

theorem emit_reach (s : State) (g : Nat) (fl : List TxFlit) : SendReach s (emit s g fl) := by
  unfold emit
  split
  · exact .refl s
  · refine SendReach.setGrp g ⟨_, _, _, _, _, rfl, ?_⟩ _
    split
    next hq => exact .inr ⟨hq, rfl⟩
    · exact .inl rfl

theorem sendFlit_reach (s : State) (g ft : Nat) (area : List Byte) (ends : List (List Byte)) : SendReach s (sendFlit s g ft area ends) := by
  unfold sendFlit
  exact (SendReach.setGrp g ⟨_, _, _, _, _, rfl, .inl rfl⟩ s.out).trans (emit_reach ..)

theorem markConfig_reach (s : State) (g : Nat) (i : List Byte) : SendReach s (markConfig s g i) := by
  unfold markConfig
  split
  · exact ⟨⟨_, _, _, _, _, _, _, rfl⟩, fun _ => .refl _⟩
  · exact .refl s

theorem placePacket_reach (s : State) (g : Nat) (p : List Byte) : SendReach s (placePacket s g p) := by
  unfold placePacket
  split
  · exact sendFlit_reach ..
  · exact (sendFlit_reach ..).trans (sendFlit_reach ..)

theorem SendReach.ite {s a b : State} {c : Prop} [Decidable c] (ha : SendReach s a) (hb : SendReach s b) : SendReach s (if c then a else b) := by
  split
  · exact ha
  · exact hb

theorem drainHome_reach (n : Nat) (s : State) : SendReach s (drainHome n s) := by
  induction n generalizing s with
  | zero => exact .refl s
  | succ n ih =>
    unfold drainHome
    split
    · exact .refl s
    · split
      · exact .ite (((SendReach.queues s _ _ _ _).trans (placePacket_reach ..)).trans (ih _)) (.refl s)
      · split
        · exact .ite ((((SendReach.queues s _ _ _ _).trans (markConfig_reach ..)).trans (sendFlit_reach ..)).trans (ih _)) (.refl s)
        · split
          · exact .refl s
          · exact .ite (((SendReach.queues s _ _ _ _).trans (placePacket_reach ..)).trans (ih _)) (.refl s)

theorem drain_reach (s : State) : SendReach s (drain s) := drainHome_reach _ _

theorem sendItem_reach (s : State) (i : List Byte) : SendReach s (sendItem s i) := (SendReach.queues s _ _ _ _).trans (drain_reach _)

theorem sendVc2_reach (s : State) (p : List Byte) : SendReach s (sendVc2 s p) := (SendReach.queues s _ _ _ _).trans (drain_reach _)

/-- What sending leaves as it was. -/
theorem SendReach.same {s t : State} (h : SendReach s t) :
    t.pending = s.pending ∧ t.now = s.now ∧ t.upBase = s.upBase ∧ t.free = s.free ∧ t.regs = s.regs ∧ t.mem = s.mem ∧
    t.memMeta = s.memMeta ∧ t.memErr = s.memErr ∧ t.rqe = s.rqe ∧ t.reg = s.reg ∧ t.scc = s.scc ∧ t.dmc = s.dmc ∧ t.rfm = s.rfm ∧
    t.dip = s.dip ∧ t.tsv = s.tsv ∧ t.fcr = s.fcr ∧ t.pck = s.pck ∧ t.pst = s.pst ∧ t.thm = s.thm ∧ t.cst = s.cst ∧ t.mgt = s.mgt ∧
    t.glb = s.glb ∧ t.svc = s.svc ∧ t.tap = s.tap := by
  obtain ⟨⟨a, b, c, d, e, q, o, rfl⟩, _⟩ := h
  exact ⟨rfl, rfl, rfl, rfl, rfl, rfl, rfl, rfl, rfl, rfl, rfl, rfl, rfl, rfl, rfl, rfl, rfl, rfl, rfl, rfl, rfl, rfl, rfl, rfl⟩

/-- What sending leaves as it was in the link. -/
theorem SendReach.link {s t : State} (h : SendReach s t) :
    t.link.up = s.link.up ∧ t.link.homeH = s.link.homeH ∧ t.link.homeD = s.link.homeD ∧ t.link.cfgRx = s.link.cfgRx ∧
    t.link.cfgSent = s.link.cfgSent ∧ t.link.turn = s.link.turn ∧ t.link.turnReq = s.link.turnReq ∧ t.link.refclk = s.link.refclk ∧
    t.link.vc1Avail = s.link.vc1Avail ∧ t.link.vc1Last = s.link.vc1Last ∧ t.link.vc2Last = s.link.vc2Last ∧ t.link.vc0Free = s.link.vc0Free ∧
    t.link.lastStatus = s.link.lastStatus ∧ t.link.pmReq = s.link.pmReq ∧ t.link.tseq = s.link.tseq := by
  obtain ⟨⟨a, b, c, d, e, q, o, rfl⟩, _⟩ := h
  exact ⟨rfl, rfl, rfl, rfl, rfl, rfl, rfl, rfl, rfl, rfl, rfl, rfl, rfl, rfl, rfl⟩

/-- What sending leaves as it was in a group. -/
theorem SendReach.group {s t : State} (h : SendReach s t) (g : Nat) :
    (t.grp g).inSvc = (s.grp g).inSvc ∧ (t.grp g).dir = (s.grp g).dir ∧ (t.grp g).failed = (s.grp g).failed ∧
    (t.grp g).carry = (s.grp g).carry ∧ (t.grp g).spare = (s.grp g).spare ∧ (t.grp g).rxExp = (s.grp g).rxExp ∧
    (t.grp g).needStart = (s.grp g).needStart ∧ (t.grp g).nakOut = (s.grp g).nakOut ∧ (t.grp g).lostReq = (s.grp g).lostReq ∧
    (t.grp g).frozen = (s.grp g).frozen ∧ (t.grp g).sparing = (s.grp g).sparing ∧ (t.grp g).txAcked = (s.grp g).txAcked := by
  obtain ⟨a, b, c, d, e, eq, _⟩ := h.2 g
  rw [eq]
  exact ⟨rfl, rfl, rfl, rfl, rfl, rfl, rfl, rfl, rfl, rfl, rfl, rfl⟩

/-- A group that is not QUIET keeps its state while the stack sends. -/
theorem SendReach.gst {s t : State} (h : SendReach s t) (g : Nat) (hq : (s.grp g).gst ≠ .quiet) : (t.grp g).gst = (s.grp g).gst := by
  obtain ⟨a, b, c, d, e, eq, ha⟩ := h.2 g
  rw [eq]
  rcases ha with rfl | ⟨h1, _⟩
  · rfl
  · exact absurd h1 hq

/-! ## One group -/

/-- What an operation on one group can change: register fields, open values drawn, and that group. -/
def OnGroup (g : Nat) (s t : State) : Prop :=
  (∃ regs grp free, t = { s with regs := regs, free := free, link := { s.link with grp := grp } }) ∧ ∀ k, k ≠ g → t.grp k = s.grp k

theorem OnGroup.refl (g : Nat) (s : State) : OnGroup g s s := ⟨⟨_, _, _, rfl⟩, fun _ _ => rfl⟩

theorem OnGroup.trans {g : Nat} {s t u : State} (h : OnGroup g s t) (k : OnGroup g t u) : OnGroup g s u := by
  obtain ⟨⟨a, b, c, rfl⟩, h2⟩ := h
  obtain ⟨⟨a', b', c', rfl⟩, k2⟩ := k
  exact ⟨⟨_, _, _, rfl⟩, fun j hj => (k2 j hj).trans (h2 j hj)⟩

theorem State.modGrp_on (s : State) (g : Nat) (f : Grp → Grp) : OnGroup g s (s.modGrp g f) :=
  ⟨⟨_, _, _, rfl⟩, fun _ hk => State.setGrp_grp_ne _ _ _ _ hk⟩

theorem State.setGrp_on (s : State) (g : Nat) (x : Grp) : OnGroup g s (s.setGrp g x) :=
  ⟨⟨_, _, _, rfl⟩, fun _ hk => State.setGrp_grp_ne _ _ _ _ hk⟩

theorem State.wr_on (s : State) (g : Nat) (f : Fld) (v i j : Nat) : OnGroup g s (s.wr f v i j) := ⟨⟨_, _, _, rfl⟩, fun _ _ => rfl⟩

theorem State.inc_on (s : State) (g : Nat) (f : Fld) (n i j : Nat) : OnGroup g s (s.inc f n i j) := ⟨⟨_, _, _, rfl⟩, fun _ _ => rfl⟩

theorem State.draw_on (s : State) (g : Nat) : OnGroup g s s.draw.2 := ⟨⟨_, _, _, rfl⟩, fun _ _ => rfl⟩

theorem OnGroup.ite {g : Nat} {s a b : State} {c : Prop} [Decidable c] (ha : OnGroup g s a) (hb : OnGroup g s b) :
    OnGroup g s (if c then a else b) := by
  split
  · exact ha
  · exact hb

theorem OnGroup.foldl {g : Nat} {s : State} {α : Type} (l : List α) (f : State → α → State) (h : ∀ t x, OnGroup g t (f t x)) :
    OnGroup g s (l.foldl f s) := by
  induction l generalizing s with
  | nil => exact .refl g s
  | cons a r ih => exact (h s a).trans ih

theorem endInjection_on (s : State) (g : Nat) : OnGroup g s (endInjection s g) :=
  .ite ((State.wr_on ..).trans (State.modGrp_on ..)) (.refl _ _)

theorem sampleErrors_on (s : State) (g l : Nat) : OnGroup g s (sampleErrors s g l) := by
  unfold sampleErrors
  exact .ite (.refl _ _) (((State.draw_on s g).trans (State.draw_on ..)).trans ((State.draw_on ..).trans (State.inc_on ..)))

theorem dropChecker_on (s : State) (g l : Nat) : OnGroup g s (dropChecker s g l) := by
  unfold dropChecker
  exact (sampleErrors_on s g l).trans (State.modGrp_on ..)

theorem endTest_on (s : State) (g l : Nat) : OnGroup g s (endTest s g l) := by
  unfold endTest
  exact ((OnGroup.ite (.refl _ _) (dropChecker_on s g l)).trans (.ite (State.wr_on ..) (.refl _ _))).trans (.ite (State.wr_on ..) (.refl _ _))

theorem endUse_on (s : State) (g : Nat) : OnGroup g s (endUse s g) :=
  (endInjection_on s g).trans (.foldl _ _ fun t l => endTest_on t g l)

/-- What ending tests and injection changes in a group: the injection mark, and who has the checkers and whether they are synchronised. -/
def Tested (x y : Grp) : Prop := ∃ b o c, y = { x with injAct := b, owner := o, chkLock := c }

theorem Tested.trans {x y z : Grp} (h : Tested x y) (k : Tested y z) : Tested x z := by
  obtain ⟨b, o, c, rfl⟩ := h
  obtain ⟨b', o', c', rfl⟩ := k
  exact ⟨b', o', c', rfl⟩

theorem endInjection_grp (s : State) (g : Nat) : Tested (s.grp g) ((endInjection s g).grp g) := by
  unfold endInjection
  split
  · rw [State.modGrp_grp_same, State.wr_grp]
    exact ⟨_, _, _, rfl⟩
  · exact ⟨_, _, _, rfl⟩

theorem sampleErrors_grp (s : State) (g l k : Nat) : (sampleErrors s g l).grp k = s.grp k := by
  unfold sampleErrors
  split <;> rfl

theorem endTest_grp (s : State) (g l : Nat) : Tested (s.grp g) ((endTest s g l).grp g) := by
  unfold endTest
  extract_lets s1 s2
  have h1 : Tested (s.grp g) (s1.grp g) := by
    dsimp only [s1]
    split
    · exact ⟨_, _, _, rfl⟩
    · unfold dropChecker
      rw [State.modGrp_grp_same, sampleErrors_grp]
      exact ⟨_, _, _, rfl⟩
  have h2 : s2.grp g = s1.grp g := by
    dsimp only [s2]
    split <;> rfl
  have h3 : (if s2.on F.HLP_LN_CTL_GEN_EN g l = true then s2.wr F.HLP_LN_CTL_GEN_EN 0 g l else s2).grp g = s2.grp g := by
    split <;> rfl
  rw [h3, h2]
  exact h1

theorem endUse_grp (s : State) (g : Nat) : Tested (s.grp g) ((endUse s g).grp g) := by
  unfold endUse endTests
  refine (endInjection_grp s g).trans ?_
  generalize endInjection s g = t
  induction onesOf allLanes 17 generalizing t with
  | nil => exact ⟨_, _, _, rfl⟩
  | cons a r ih => exact (endTest_grp t g a).trans (ih _)

theorem groupDetect_on (s : State) (g : Nat) : OnGroup g s (groupDetect s g) := by
  unfold groupDetect
  exact ((OnGroup.ite (State.inc_on ..) (.refl _ _)).trans (endUse_on ..)).trans (State.modGrp_on ..)

/-- A group sent to DETECT. -/
theorem groupDetect_grp (s : State) (g : Nat) : ∃ b o c, (groupDetect s g).grp g = { s.grp g with
    gst := .detect, slot := 0, fast := false, pll := false, failed := (s.grp g).bad, carry := 0, spare := none, scored := 0, scoredTx := 0, aligned := 0
    locks := 0, partner := none, owner := o, chkLock := c, inSvc := false, eqDone := false, injAct := b } := by
  unfold groupDetect
  dsimp only
  generalize hs1 : (if (s.grp g).trained = true then s.inc F.HLP_RETRAIN_CNT_RETRAINS 1 g else s) = s1
  have h1 : s1.grp g = s.grp g := by
    rw [← hs1]
    split <;> rfl
  obtain ⟨b, o, c, hb⟩ := endUse_grp s1 g
  exact ⟨b, o, c, by rw [State.modGrp_grp_same, hb, h1]⟩

theorem groupOff_on (s : State) (g : Nat) : OnGroup g s (groupOff s g) := by
  unfold groupOff
  exact (endUse_on ..).trans (State.modGrp_on ..)

theorem groupOff_gst (s : State) (g : Nat) : ((groupOff s g).grp g).gst = .off := by simp [groupOff, freshStream]

theorem groupFailed_on (s : State) (g : Nat) : OnGroup g s (groupFailed s g) := by
  unfold groupFailed
  exact (endUse_on ..).trans (State.modGrp_on ..)

/-- A group that fails training. -/
theorem groupFailed_grp (s : State) (g : Nat) : ∃ b o c, (groupFailed s g).grp g = { s.grp g with
    gst := .failed, pll := false, carry := 0, spare := none, locks := 0, owner := o, chkLock := c, injAct := b } := by
  obtain ⟨b, o, c, hb⟩ := endUse_grp s g
  exact ⟨b, o, c, by rw [groupFailed, State.modGrp_grp_same, hb]⟩

theorem keepLanes_on (s : State) (g keep : Nat) (f : Grp → Grp) : OnGroup g s (keepLanes s g keep f) := by
  unfold keepLanes
  exact (State.modGrp_on ..).trans (.ite (State.modGrp_on ..) (groupFailed_on ..))

/-- What an operation on one group leaves as it was. -/
theorem OnGroup.same {g : Nat} {s t : State} (h : OnGroup g s t) :
    t.pending = s.pending ∧ t.now = s.now ∧ t.upBase = s.upBase ∧ t.mem = s.mem ∧ t.memMeta = s.memMeta ∧
    t.memErr = s.memErr ∧ t.out = s.out ∧ t.rqe = s.rqe ∧ t.reg = s.reg ∧ t.scc = s.scc ∧ t.dmc = s.dmc ∧ t.rfm = s.rfm ∧ t.dip = s.dip ∧
    t.tsv = s.tsv ∧ t.fcr = s.fcr ∧ t.pck = s.pck ∧ t.pst = s.pst ∧ t.thm = s.thm ∧ t.cst = s.cst ∧ t.mgt = s.mgt ∧ t.glb = s.glb ∧
    t.svc = s.svc ∧ t.tap = s.tap := by
  obtain ⟨⟨a, b, c, rfl⟩, _⟩ := h
  exact ⟨rfl, rfl, rfl, rfl, rfl, rfl, rfl, rfl, rfl, rfl, rfl, rfl, rfl, rfl, rfl, rfl, rfl, rfl, rfl, rfl, rfl, rfl, rfl⟩

/-! ## Homes, turns asked for, service -/

/-- What changes of homes, requests for turns and sending can reach: the link, but not whether it is up, its reference clock, or a group's service,
lanes and direction; and what has left the stack. -/
def LinkReach (s t : State) : Prop :=
  (∃ link out, t = { s with link := link, out := out }) ∧ (∀ g, GrpSent (s.grp g) (t.grp g)) ∧ t.link.up = s.link.up ∧
  t.link.refclk = s.link.refclk ∧ t.link.cfgRx = s.link.cfgRx

theorem LinkReach.refl (s : State) : LinkReach s s := ⟨⟨_, _, rfl⟩, fun _ => .refl _, rfl, rfl, rfl⟩

theorem LinkReach.trans {s t u : State} (h : LinkReach s t) (k : LinkReach t u) : LinkReach s u := by
  obtain ⟨⟨a, b, rfl⟩, h2, h3, h4, h5⟩ := h
  obtain ⟨⟨a', b', rfl⟩, k2, k3, k4, k5⟩ := k
  exact ⟨⟨_, _, rfl⟩, fun j => (h2 j).trans (k2 j), k3.trans h3, k4.trans h4, k5.trans h5⟩

theorem LinkReach.ite {s a b : State} {c : Prop} [Decidable c] (ha : LinkReach s a) (hb : LinkReach s b) : LinkReach s (if c then a else b) := by
  split
  · exact ha
  · exact hb

theorem SendReach.toLink {s t : State} (h : SendReach s t) : LinkReach s t := by
  obtain ⟨⟨a, b, c, d, e, q, o, rfl⟩, h2⟩ := h
  exact ⟨⟨_, _, rfl⟩, h2, rfl, rfl, rfl⟩

theorem fixHome_reach (s : State) (dir : Bool) : LinkReach s (fixHome s dir) := by
  unfold fixHome
  cases dir <;> exact ⟨⟨_, _, rfl⟩, fun _ => .refl _, rfl, rfl, rfl⟩

theorem requestTurn_reach (s : State) (g : Nat) (dir : Bool) : LinkReach s (requestTurn s g dir) := by
  unfold requestTurn
  exact LinkReach.trans ⟨⟨_, _, rfl⟩, fun _ => .refl _, rfl, rfl, rfl⟩ (sendVc2_reach ..).toLink

theorem autoBalance_reach (s : State) : LinkReach s (autoBalance s) := by
  unfold autoBalance
  dsimp only
  split
  · exact .ite (requestTurn_reach ..) (.refl s)
  · exact .refl s

theorem sendConfig_reach (s : State) : LinkReach s (sendConfig s) := by
  unfold sendConfig
  generalize hu : ({ s with
    link.cfgSent := true, link.cfgDue := false
    link.items := configItem (fun d => (s.rd F.HLL_CRD_VC0_MIN d, s.rd F.HLL_CRD_VC0_CAP d)) :: s.link.items } : State) = u
  refine LinkReach.trans ?_ (drain_reach u).toLink
  rw [← hu]
  exact ⟨⟨_, _, rfl⟩, fun _ => .refl _, rfl, rfl, rfl⟩

/-- What `LinkReach` leaves as it was. -/
theorem LinkReach.same {s t : State} (h : LinkReach s t) :
    t.pending = s.pending ∧ t.now = s.now ∧ t.upBase = s.upBase ∧ t.free = s.free ∧ t.regs = s.regs ∧ t.mem = s.mem ∧
    t.memMeta = s.memMeta ∧ t.memErr = s.memErr ∧ t.rqe = s.rqe ∧ t.reg = s.reg ∧ t.scc = s.scc ∧ t.dmc = s.dmc ∧ t.rfm = s.rfm ∧
    t.dip = s.dip ∧ t.tsv = s.tsv ∧ t.fcr = s.fcr ∧ t.pck = s.pck ∧ t.pst = s.pst ∧ t.thm = s.thm ∧ t.cst = s.cst ∧ t.mgt = s.mgt ∧
    t.glb = s.glb ∧ t.svc = s.svc ∧ t.tap = s.tap := by
  obtain ⟨⟨a, b, rfl⟩, _⟩ := h
  exact ⟨rfl, rfl, rfl, rfl, rfl, rfl, rfl, rfl, rfl, rfl, rfl, rfl, rfl, rfl, rfl, rfl, rfl, rfl, rfl, rfl, rfl, rfl, rfl, rfl⟩

/-- What `LinkReach` leaves as it was in a group. -/
theorem LinkReach.group {s t : State} (h : LinkReach s t) (g : Nat) :
    (t.grp g).inSvc = (s.grp g).inSvc ∧ (t.grp g).dir = (s.grp g).dir ∧ (t.grp g).failed = (s.grp g).failed ∧
    (t.grp g).carry = (s.grp g).carry ∧ (t.grp g).spare = (s.grp g).spare ∧ (t.grp g).rxExp = (s.grp g).rxExp ∧
    (t.grp g).needStart = (s.grp g).needStart ∧ (t.grp g).nakOut = (s.grp g).nakOut ∧ (t.grp g).lostReq = (s.grp g).lostReq ∧
    (t.grp g).frozen = (s.grp g).frozen ∧ (t.grp g).sparing = (s.grp g).sparing ∧ (t.grp g).txAcked = (s.grp g).txAcked := by
  obtain ⟨a, b, c, d, e, eq, _⟩ := h.2.1 g
  rw [eq]
  exact ⟨rfl, rfl, rfl, rfl, rfl, rfl, rfl, rfl, rfl, rfl, rfl, rfl⟩

/-- A group that is not QUIET keeps its state under `LinkReach`. -/
theorem LinkReach.gst {s t : State} (h : LinkReach s t) (g : Nat) (hq : (s.grp g).gst ≠ .quiet) : (t.grp g).gst = (s.grp g).gst := by
  obtain ⟨a, b, c, d, e, eq, ha⟩ := h.2.1 g
  rw [eq]
  rcases ha with rfl | ⟨h1, _⟩
  · rfl
  · exact absurd h1 hq

/-! ## The whole link -/

theorem countLost_regs (s : State) (ps : List (List Byte)) : ∃ regs, countLost s ps = { s with regs := regs } := by
  unfold countLost
  induction ps generalizing s with
  | nil => exact ⟨_, rfl⟩
  | cons p r ih =>
    rw [List.foldl_cons]
    split
    next d n _ =>
      obtain ⟨q, hq⟩ := ih (s.inc F.RQE_DOM_USE_LINK_LOST n d)
      exact ⟨q, hq⟩
    · exact ih s

/-- A link that goes down: it is down, and its groups are as they were. -/
theorem dropLink_eq (s : State) : ∃ regs link rqe pst glb, dropLink s = { s with regs := regs, link := link, rqe := rqe, pst := pst, glb := glb } ∧
    link.up = false ∧ link.grp = s.link.grp ∧ link.refclk = s.link.refclk := by
  unfold dropLink
  dsimp only
  generalize (((List.range 16).flatMap fun g => (s.grp g).replay.flatMap (·.ends)) ++ s.link.resend ++ s.rqe.rejQ) = ps
  obtain ⟨r, hr⟩ := countLost_regs s ps
  rw [hr]
  have hs : ∀ u : State, ∃ p g, silence u = { u with pst := p, glb := g } := fun u => ⟨_, _, rfl⟩
  obtain ⟨p, g, hp⟩ := hs { s with regs := r }
  rw [hp]
  exact ⟨_, _, _, _, _, rfl, rfl, rfl, rfl⟩

/-- What an operation over groups can change: register fields, open values drawn, and the groups. -/
def OnGroups (s t : State) : Prop := ∃ regs grp free, t = { s with regs := regs, free := free, link := { s.link with grp := grp } }

theorem OnGroup.any {g : Nat} {s t : State} (h : OnGroup g s t) : OnGroups s t := h.1

theorem OnGroups.refl (s : State) : OnGroups s s := ⟨_, _, _, rfl⟩

theorem OnGroups.trans {s t u : State} (h : OnGroups s t) (k : OnGroups t u) : OnGroups s u := by
  obtain ⟨a, b, c, rfl⟩ := h
  obtain ⟨a', b', c', rfl⟩ := k
  exact ⟨_, _, _, rfl⟩

/-- An operation on each group in turn, where each acts on its own group: every group ends as its own operation leaves it. -/
theorem groups_fold (op : State → Nat → State) (hop : ∀ t g, OnGroup g t (op t g)) (P : Nat → Grp → Prop)
    (hP : ∀ t g, P g ((op t g).grp g)) (n : Nat) (s : State) :
    OnGroups s ((List.range n).foldl op s) ∧ ∀ g, g < n → P g (((List.range n).foldl op s).grp g) := by
  induction n with
  | zero => exact ⟨.refl s, fun g hg => absurd hg (by omega)⟩
  | succ n ih =>
    rw [List.range_succ, List.foldl_append, List.foldl_cons, List.foldl_nil]
    refine ⟨ih.1.trans (hop _ _).any, ?_⟩
    intro g hg
    by_cases h : g = n
    · rw [h]; exact hP _ n
    · rw [(hop _ _).2 g h]
      exact ih.2 g (by omega)

/-- The same, with what each group was before. -/
theorem groups_fold_from (op : State → Nat → State) (hop : ∀ t g, OnGroup g t (op t g)) (P : Nat → Grp → Grp → Prop)
    (hP : ∀ t g, P g (t.grp g) ((op t g).grp g)) (n : Nat) (s : State) :
    OnGroups s ((List.range n).foldl op s) ∧ (∀ g, g < n → P g (s.grp g) (((List.range n).foldl op s).grp g)) ∧
    ∀ g, n ≤ g → ((List.range n).foldl op s).grp g = s.grp g := by
  induction n with
  | zero => exact ⟨.refl s, fun g hg => absurd hg (by omega), fun _ _ => rfl⟩
  | succ n ih =>
    rw [List.range_succ, List.foldl_append, List.foldl_cons, List.foldl_nil]
    refine ⟨ih.1.trans (hop _ _).any, ?_, ?_⟩
    · intro g hg
      by_cases h : g = n
      · rw [h, ← ih.2.2 n (le_refl n)]
        exact hP _ n
      · rw [(hop _ _).2 g h]
        exact ih.2.1 g (by omega)
    · intro g hg
      rw [(hop _ _).2 g (by omega)]
      exact ih.2.2 g (by omega)

theorem allDetect_spec (s : State) : OnGroups s (allDetect s) ∧ ∀ g, g < 16 → ((allDetect s).grp g).gst = .detect ∧ ((allDetect s).grp g).inSvc = false := by
  refine groups_fold (fun t g => (groupDetect t g).modGrp g freshStream) (fun t g => (groupDetect_on t g).trans (State.modGrp_on ..))
    (fun _ x => x.gst = .detect ∧ x.inSvc = false) ?_ 16 s
  intro t g
  obtain ⟨b, o, c, hb⟩ := groupDetect_grp t g
  rw [State.modGrp_grp_same, hb]
  exact ⟨rfl, rfl⟩

/-- The whole link retrains: it is down and every group is in DETECT, out of service. -/
theorem wholeRetrain_spec (n : Nat) (s : State) : (wholeRetrain n s).link.up = false ∧
    ∀ g, g < 16 → ((wholeRetrain n s).grp g).gst = .detect ∧ ((wholeRetrain n s).grp g).inSvc = false := by
  unfold wholeRetrain
  have h := allDetect_spec (dropLink (s.raiseG 274 .fault 0 n))
  refine ⟨?_, h.2⟩
  obtain ⟨r, g, f, hg⟩ := h.1
  rw [hg]
  obtain ⟨r', l, q, p, gl, hd, hu, _⟩ := dropLink_eq (s.raiseG 274 .fault 0 n)
  rw [hd]
  exact hu

/-- A group that leaves service in a state where it is in DETECT stays there, out of service. -/
theorem leaveService_detect (s : State) (g : Nat) (hg : g < 16) (h : (s.grp g).gst = .detect) :
    ((leaveService s g).grp g).gst = .detect ∧ ((leaveService s g).grp g).inSvc = false := by
  unfold leaveService
  dsimp only
  generalize hm : s.modGrp g (fun x => { x with inSvc := false }) = m
  have hg1 : (m.grp g).gst = .detect := by rw [← hm, State.modGrp_grp_same]; exact h
  have hg2 : (m.grp g).inSvc = false := by rw [← hm, State.modGrp_grp_same]
  have hf := (fixHome_reach m false).trans (fixHome_reach _ true)
  split
  · exact (wholeRetrain_spec _ _).2 g hg
  · have hr := hf.trans ((autoBalance_reach _).trans (drain_reach _).toLink)
    exact ⟨(hr.gst g (by rw [hg1]; decide)).trans hg1, (hr.group g).1.trans hg2⟩

theorem abandonTurn_eq (s : State) (c : Code) : ∃ regs a b w q,
    abandonTurn s c = { s with regs := regs, link := { s.link with turn := a, turnReq := b, holdLost := w, vc2Out := q } } := by
  unfold abandonTurn dropTurn
  dsimp only
  split <;> split <;> split <;> exact ⟨_, _, _, _, _, rfl⟩

/-- A lost group is in DETECT and out of service. -/
theorem groupLostWith_spec (ask : Bool) (g cause : Nat) (s : State) (hg : g < 16) (hin : (s.grp g).inSvc = true) :
    ((groupLostWith ask g cause s).grp g).gst = .detect ∧ ((groupLostWith ask g cause s).grp g).inSvc = false := by
  unfold groupLostWith
  extract_lets x s1 s2
  rw [if_neg (by simp [x, hin])]
  apply leaveService_detect _ _ hg
  have h2 : (s2.grp g).gst = .detect := by
    obtain ⟨b, o, c, hb⟩ := groupDetect_grp (abandonTurnOf s1 g) g
    have e : s2.grp g = loseStream x ((groupDetect (abandonTurnOf s1 g) g).grp g) := State.modGrp_grp_same ..
    rw [e, hb]
    clear_value x
    unfold loseStream
    split <;> rfl
  clear_value s2
  split
  · exact h2
  · exact h2

end Sys2Proof.Machine
end

