-- ==== Sys2Proof/Laws/Access.lean ====
section
/-! SUPPORT. Register accesses: what recording an access reaches, what an accepted and a refused write come to, and the fields of a written word. -/

namespace Sys2Proof.Machine

/-! ## Bit fields of a written word -/

theorem bits_lt (v lo w : Nat) : bits v lo w < 2 ^ w := Nat.mod_lt _ (Nat.two_pow_pos w)

/-- A field just set reads as the value cut to its width. -/
theorem bits_setBits_same (v lo w x : Nat) : bits (setBits v lo w x) lo w = x % 2 ^ w := by
  unfold bits setBits
  have h1 : v / 2 ^ (lo + w) * 2 ^ (lo + w) + x % 2 ^ w * 2 ^ lo + v % 2 ^ lo = v % 2 ^ lo + 2 ^ lo * (x % 2 ^ w + 2 ^ w * (v / 2 ^ (lo + w))) := by
    rw [pow_add]
    ring
  rw [h1, Nat.add_mul_div_left _ _ (Nat.two_pow_pos lo), Nat.div_eq_of_lt (Nat.mod_lt _ (Nat.two_pow_pos lo)), Nat.zero_add,
    Nat.add_mul_mod_self_left, Nat.mod_mod]

/-- Fields in ascending order that do not overlap. -/
def fldsSorted : List Fld → Bool
  | [] => true
  | [f] => decide (f.lo + f.w ≤ 32)
  | f :: g :: r => decide (f.lo + f.w ≤ g.lo) && fldsSorted (g :: r)

theorem fldsSorted_cons (f : Fld) (r : List Fld) (h : fldsSorted (f :: r) = true) : fldsSorted r = true ∧ ∀ g ∈ r, f.lo + f.w ≤ g.lo := by
  induction r generalizing f with
  | nil => exact ⟨rfl, by simp⟩
  | cons g q ih =>
    simp only [fldsSorted, Bool.and_eq_true, decide_eq_true_eq] at h
    refine ⟨h.2, ?_⟩
    intro x hx
    rcases List.mem_cons.1 hx with rfl | hx
    · exact h.1
    · have := (ih g h.2).2 x hx
      omega

/-- The fields of every register stand in ascending order without overlap. -/
theorem info_sorted (r : RegId) : fldsSorted r.info.flds = true := by
  cases r <;> decide

theorem bits_add_high (m x lo w k : Nat) (h : lo + w ≤ k) : bits (m + x * 2 ^ k) lo w = bits m lo w := by
  obtain ⟨d, rfl⟩ := Nat.exists_eq_add_of_le h
  unfold bits
  have h1 : m + x * 2 ^ (lo + w + d) = m + 2 ^ lo * (2 ^ w * (2 ^ d * x)) := by
    rw [pow_add, pow_add]
    ring
  rw [h1, Nat.add_mul_div_left _ _ (Nat.two_pow_pos lo), Nat.add_mul_mod_self_left]

theorem bits_add_here (m x lo w : Nat) (hm : m < 2 ^ lo) (hx : x < 2 ^ w) : bits (m + x * 2 ^ lo) lo w = x := by
  unfold bits
  rw [Nat.add_mul_div_right _ _ (Nat.two_pow_pos lo), Nat.div_eq_of_lt hm, Nat.zero_add, Nat.mod_eq_of_lt hx]

theorem bits_of_lt (m lo w : Nat) (hm : m < 2 ^ lo) : bits m lo w = 0 := by
  unfold bits
  rw [Nat.div_eq_of_lt hm, Nat.zero_mod]

/-- Adding fields above a place leaves the place as it was. -/
theorem bits_maskFold (l : List Fld) (v m lo w : Nat) (may : Fld → Bool) (h : ∀ g ∈ l, lo + w ≤ g.lo) :
    bits (l.foldl (fun m f => if may f then m + f.val v * 2 ^ f.lo else m) m) lo w = bits m lo w := by
  induction l generalizing m with
  | nil => rfl
  | cons g r ih =>
    rw [List.foldl_cons, ih _ fun x hx => h x (List.mem_cons_of_mem _ hx)]
    split
    · exact bits_add_high _ _ _ _ _ (h g (List.mem_cons_self ..))
    · rfl

theorem val_maskFold (l : List Fld) (v m : Nat) (may : Fld → Bool) (f : Fld) (hs : fldsSorted l = true) (hf : f ∈ l)
    (hm : ∀ g ∈ l, m < 2 ^ g.lo) :
    f.val (l.foldl (fun m f => if may f then m + f.val v * 2 ^ f.lo else m) m) = if may f then f.val v else 0 := by
  induction l generalizing m with
  | nil => exact absurd hf (by simp)
  | cons g r ih =>
    obtain ⟨hs', hlo⟩ := fldsSorted_cons g r hs
    rw [List.foldl_cons]
    have hg := hm g (List.mem_cons_self ..)
    rcases List.mem_cons.1 hf with rfl | hf
    · show bits _ f.lo f.w = _
      rw [bits_maskFold _ _ _ _ _ _ hlo]
      split
      · exact bits_add_here _ _ _ _ hg (bits_lt ..)
      · exact bits_of_lt _ _ _ hg
    · refine ih _ hs' hf ?_
      intro x hx
      have h1 := hlo x hx
      have h2 : g.val v < 2 ^ g.w := bits_lt ..
      have h3 : m + g.val v * 2 ^ g.lo < 2 ^ x.lo := by
        calc m + g.val v * 2 ^ g.lo < 2 ^ g.lo + g.val v * 2 ^ g.lo := by omega
          _ = (g.val v + 1) * 2 ^ g.lo := by ring
          _ ≤ 2 ^ g.w * 2 ^ g.lo := Nat.mul_le_mul_right _ h2
          _ = 2 ^ (g.lo + g.w) := by rw [pow_add]; ring
          _ ≤ 2 ^ x.lo := Nat.pow_le_pow_right (by decide) h1
      split
      · exact h3
      · exact hm x (List.mem_cons_of_mem _ hx)

/-- The word with the fields that a master may not write at zero: a field keeps its value where the master may write it. -/
theorem val_maskedWord (r : RegId) (v : Nat) (may : Fld → Bool) (f : Fld) (hf : f ∈ r.info.flds) :
    f.val (maskedWord r v may) = if may f then f.val v else 0 :=
  val_maskFold _ _ _ _ _ (info_sorted r) hf fun g _ => Nat.two_pow_pos g.lo

/-- The last field that a command sets in its word. -/
theorem val_withBits_last (v : Nat) (fs : List (Fld × Nat)) (f : Fld) (x : Nat) : f.val (withBits v (fs ++ [(f, x)])) = x % 2 ^ f.w := by
  unfold withBits Fld.val
  rw [List.foldl_append]
  exact bits_setBits_same ..

/-- The one field that a command sets in its word. -/
@[simp] theorem val_withBits_one (v : Nat) (f : Fld) (x : Nat) : f.val (withBits v [(f, x)]) = x % 2 ^ f.w := val_withBits_last v [] f x

/-! ## What recording an access reaches (R295) -/

/-- A place of the Last Access Status registers or of a rejection counter. -/
def lasPlace (k : Nat) : Bool := (decide (384 ≤ k % 2 ^ 28) && decide (k % 2 ^ 28 < 480)) || (decide (1024 ≤ k) && decide (k < 1600))

/-- Recording an access changes the register store alone, and in it the Last Access Status registers and `REJ` alone. -/
theorem recordAcc_reach (s : State) (who : Nat) (wr : Bool) (off : Nat) (c : Code) (d : Nat) (hw : who < 18) :
    ∃ regs, recordAcc s who wr off c d = { s with regs := regs } ∧ ∀ k, lasPlace k = false → SMap.get? regs k = SMap.get? s.regs k := by
  have step : ∀ (t : State) (f : Fld) (v : Nat), (∃ regs, t = { s with regs := regs } ∧ ∀ k, lasPlace k = false → SMap.get? regs k = SMap.get? s.regs k) →
      lasPlace (f.at who 0) = true →
      ∃ regs, t.wr f v who = { s with regs := regs } ∧ ∀ k, lasPlace k = false → SMap.get? regs k = SMap.get? s.regs k := by
    rintro t f v ⟨r, rfl, hr⟩ hp
    refine ⟨_, rfl, ?_⟩
    intro k hk
    have hne : k ≠ f.at who 0 := by
      rintro rfl
      rw [hp] at hk
      exact Bool.noConfusion hk
    rw [← hr k hk]
    simp only [SMap.put]
    split
    · exact SMap.get?_erase_ne _ _ _ hne
    · exact SMap.get?_set_ne _ _ _ _ hne
  have place : ∀ f ∈ [F.GLB_LAS_LA_RES, F.GLB_LAS_LA_WR, F.GLB_LAS_LA_OFS, F.GLB_LFAIL_LF_RES, F.GLB_LFAIL_LF_WR, F.GLB_LFAIL_LF_OFS,
      F.GLB_LFAIL_DET_LF_DET, F.GLB_REJ_M_REJ], lasPlace (f.at who 0) = true := by
    interval_cases who <;> decide
  have h1 := step _ F.GLB_LAS_LA_RES c.num ⟨_, rfl, fun _ _ => rfl⟩ (place _ (by simp))
  have h2 := step _ F.GLB_LAS_LA_WR (b2n wr) h1 (place _ (by simp))
  have h3 := step _ F.GLB_LAS_LA_OFS (off / 4) h2 (place _ (by simp))
  have h4 := step _ F.GLB_LFAIL_LF_RES c.num h3 (place _ (by simp))
  have h5 := step _ F.GLB_LFAIL_LF_WR (b2n wr) h4 (place _ (by simp))
  have h6 := step _ F.GLB_LFAIL_LF_OFS (off / 4) h5 (place _ (by simp))
  have h7 := step _ F.GLB_LFAIL_DET_LF_DET d h6 (place _ (by simp))
  unfold recordAcc
  dsimp only
  split
  · exact h3
  · exact step _ F.GLB_REJ_M_REJ _ h7 (place _ (by simp))

/-- A field outside the Last Access Status registers reads the same after an access was recorded. -/
theorem recordAcc_rd (s : State) (who : Nat) (wr : Bool) (off : Nat) (c : Code) (d : Nat) (hw : who < 18) (f : Fld) (i j : Nat)
    (hp : lasPlace (f.at i j) = false) : (recordAcc s who wr off c d).rd f i j = s.rd f i j := by
  obtain ⟨r, h1, h2⟩ := recordAcc_reach s who wr off c d hw
  rw [h1]
  simp only [State.rd, SMap.getD, h2 _ hp]

/-- `LA_RES` after an access was recorded (R295). -/
theorem recordAcc_res (s : State) (who : Nat) (wr : Bool) (off : Nat) (c : Code) (d : Nat) :
    (recordAcc s who wr off c d).rd F.GLB_LAS_LA_RES who = c.num := by
  have hc : c.num % 2 ^ F.GLB_LAS_LA_RES.w = c.num := by cases c <;> rfl
  have ne1 : F.GLB_LAS_LA_RES.at who 0 ≠ F.GLB_LAS_LA_WR.at who 0 := by simp [Fld.at, F.GLB_LAS_LA_RES, F.GLB_LAS_LA_WR]
  have ne2 : F.GLB_LAS_LA_RES.at who 0 ≠ F.GLB_LAS_LA_OFS.at who 0 := by simp [Fld.at, F.GLB_LAS_LA_RES, F.GLB_LAS_LA_OFS]
  have ne3 : F.GLB_LAS_LA_RES.at who 0 ≠ F.GLB_LFAIL_LF_RES.at who 0 := by simp [Fld.at, F.GLB_LAS_LA_RES, F.GLB_LFAIL_LF_RES]
  have ne4 : F.GLB_LAS_LA_RES.at who 0 ≠ F.GLB_LFAIL_LF_WR.at who 0 := by simp [Fld.at, F.GLB_LAS_LA_RES, F.GLB_LFAIL_LF_WR]
  have ne5 : F.GLB_LAS_LA_RES.at who 0 ≠ F.GLB_LFAIL_LF_OFS.at who 0 := by simp [Fld.at, F.GLB_LAS_LA_RES, F.GLB_LFAIL_LF_OFS]
  have ne6 : F.GLB_LAS_LA_RES.at who 0 ≠ F.GLB_LFAIL_DET_LF_DET.at who 0 := by simp [Fld.at, F.GLB_LAS_LA_RES, F.GLB_LFAIL_DET_LF_DET]
  have ne7 : F.GLB_LAS_LA_RES.at who 0 ≠ F.GLB_REJ_M_REJ.at who 0 := by
    simp only [Fld.at, F.GLB_LAS_LA_RES, F.GLB_REJ_M_REJ]
    omega
  unfold recordAcc
  dsimp only
  split
  · rw [State.rd_wr_ne _ _ _ _ _ _ _ _ ne2, State.rd_wr_ne _ _ _ _ _ _ _ _ ne1, State.rd_wr_same, hc]
  · rw [State.rd_inc_ne _ _ _ _ _ _ _ _ ne7, State.rd_wr_ne _ _ _ _ _ _ _ _ ne6, State.rd_wr_ne _ _ _ _ _ _ _ _ ne5,
      State.rd_wr_ne _ _ _ _ _ _ _ _ ne4, State.rd_wr_ne _ _ _ _ _ _ _ _ ne3, State.rd_wr_ne _ _ _ _ _ _ _ _ ne2,
      State.rd_wr_ne _ _ _ _ _ _ _ _ ne1, State.rd_wr_same, hc]

/-! ## Accesses that are executed at once -/

/-- A write that arrives where registers are open and no persistent write of its master is under way is executed at once. -/
theorem access_write (s : State) (a : RegAcc) (hopen : regsOpen s = true) (hp : pregPending s a.who = false) (hw : a.wr = true) :
    access s a = runWrite s a := by
  simp [access, hopen, hp, runAcc, hw]

/-- The same for a read. -/
theorem access_read (s : State) (a : RegAcc) (hopen : regsOpen s = true) (hp : pregPending s a.who = false) (hw : a.wr = false) :
    access s a = runRead s a := by
  simp [access, hopen, hp, runAcc, hw]

/-- A write whose checks are done is recorded and answered with its result. -/
theorem runWrite_done (s : State) (a : RegAcc) (r : RegId) (i j : Nat) (c : Code) (d : Nat) (t : State) (hat : regAt a.off = some (r, i, j))
    (hw : writeReg s a.who a.org r i j a.val = (.done c d, t)) :
    runWrite s a = answerAcc (recordAcc t a.who true a.off c d) a.org true c 0 := by
  simp [runWrite, hat, hw]

/-- A write that every check passes, of a register that stores nothing in MRAM, is done with OK and has its action's effect. -/
theorem writeReg_ok (s : State) (who : Nat) (org : Origin) (r : RegId) (i0 j v : Nat) (h : WriteOpen s who r i0 j v)
    (hh : (writeHook s who r i0 j v).1 = .ok) (hp : persistWord s r (ownIdx r who i0) (writtenWord s who r i0 v) = none) :
    writeReg s who org r i0 j v = (.done .ok 0, (writeHook s who r i0 j v).2.2) := by
  obtain ⟨h1, h2, h3, h4, h5⟩ := h
  unfold writeHook at hh ⊢
  unfold writtenWord at hp hh ⊢
  unfold writeReg
  dsimp only
  simp only [h1, h2, h3, h4, h5, hh, hp]
  simp

/-- A write that passes the checks and that the register's own action refuses with STATE changes nothing but the record of the access. -/
theorem writeReg_refused (s : State) (who : Nat) (org : Origin) (r : RegId) (i0 j v : Nat) (c : Code) (h : WriteOpen s who r i0 j v)
    (hh : (writeHook s who r i0 j v).1 = c) (hc : c = .state ∨ c = .badValue ∨ c = .range) :
    writeReg s who org r i0 j v = (.done c 0, s) := by
  obtain ⟨h1, h2, h3, h4, h5⟩ := h
  unfold writeHook writtenWord at hh
  unfold writeReg
  dsimp only
  simp only [h1, h2, h3, h4, h5, hh]
  rcases hc with rfl | rfl | rfl <;> simp

/-- A register row whose write passes every check: the register's own action, and the record of the access. -/
theorem writeBy_ok (s : State) (who : Nat) (r : RegId) (i j v : Nat) (hat : regAt (regOffset r i j) = some (r, i, j))
    (h : WriteReady s who r i j v) (hh : (writeHook s who r i j v).1 = .ok)
    (hp : persistWord s r (ownIdx r who i) (writtenWord s who r i v) = none) :
    writeBy s who r i j v = recordAcc (writeHook s who r i j v).2.2 who true (regOffset r i j) .ok 0 := by
  obtain ⟨h1, h2, h3⟩ := h
  unfold writeBy
  rw [access_write _ _ h1 h2 rfl, runWrite_done _ _ r i j .ok 0 _ hat (writeReg_ok s who .core r i j v h3 hh hp)]
  rfl

/-- The written word holds what the master may write. -/
theorem writtenWord_val (s : State) (who : Nat) (r : RegId) (i0 v : Nat) (f : Fld) (hf : f ∈ r.info.flds) (h : MayWrite s who r i0 f) :
    f.val (writtenWord s who r i0 v) = f.val v := by
  rw [writtenWord, val_maskedWord _ _ _ _ hf]
  exact if_pos h

end Sys2Proof.Machine
end

