-- ==== Sys2Proof/Laws/Memory.lean ====
section
/-! SUPPORT. The device memory: a read after a write, and the canonical form that every memory operation keeps. -/

namespace Sys2Proof.Machine

/-- The canonical form, as two facts. -/
theorem Memory.wf_iff (m : List Host.Cell) : Memory.wf m = true ↔ SMap.sorted m = true ∧ ∀ c ∈ m, c.2 ≠ memDefault := by
  simp [Memory.wf]

@[simp] theorem Memory.wf_nil : Memory.wf [] = true := rfl

/-- A byte that was just written reads as what was written. -/
@[simp] theorem Memory.get_put_same (m : List Host.Cell) (a : Nat) (b : Byte) : Memory.get (Memory.put m a b) a = b :=
  SMap.getD_put_same ..

/-- A write of one byte leaves every other byte as it was. -/
theorem Memory.get_put_ne (m : List Host.Cell) (a k : Nat) (b : Byte) (h : k ≠ a) :
    Memory.get (Memory.put m a b) k = Memory.get m k := SMap.getD_put_ne _ _ _ _ _ _ h

/-- A write of one byte keeps the canonical form. -/
theorem Memory.wf_put (m : List Host.Cell) (a : Nat) (b : Byte) (h : Memory.wf m = true) : Memory.wf (Memory.put m a b) = true := by
  rw [Memory.wf_iff] at h ⊢
  exact ⟨SMap.sorted_put _ _ _ _ h.1, SMap.all_put _ _ _ _ h.2⟩

/-- A write of consecutive bytes keeps the canonical form. -/
theorem Memory.wf_putBytes (m : List Host.Cell) (a : Nat) (l : List Byte) (h : Memory.wf m = true) :
    Memory.wf (Memory.putBytes m a l) = true := by
  induction l generalizing m a with
  | nil => exact h
  | cons b r ih => exact ih _ _ (Memory.wf_put _ _ _ h)

/-- A write of consecutive bytes leaves every byte outside them as it was. -/
theorem Memory.get_putBytes_out (m : List Host.Cell) (a k : Nat) (l : List Byte) (h : k < a ∨ a + l.length ≤ k) :
    Memory.get (Memory.putBytes m a l) k = Memory.get m k := by
  induction l generalizing m a with
  | nil => rfl
  | cons b r ih =>
    simp only [List.length_cons] at h
    rw [Memory.putBytes, ih _ _ (by omega), Memory.get_put_ne _ _ _ _ (by omega)]

/-- A byte of the consecutive bytes just written reads as what was written. -/
theorem Memory.get_putBytes_in (m : List Host.Cell) (a k : Nat) (l : List Byte) (h : k < l.length) :
    Memory.get (Memory.putBytes m a l) (a + k) = l.getD k 0 := by
  induction l generalizing m a k with
  | nil => simp at h
  | cons b r ih =>
    cases k with
    | zero => rw [Memory.putBytes, Nat.add_zero, Memory.get_putBytes_out _ _ _ _ (by omega)]; simp
    | succ k =>
      rw [Memory.putBytes, show a + (k + 1) = a + 1 + k by omega, ih _ _ _ (by simpa using h)]
      simp

/-- Reading back consecutive bytes gives the bytes that were written. -/
theorem Memory.getBytes_putBytes (m : List Host.Cell) (a : Nat) (l : List Byte) :
    Memory.getBytes (Memory.putBytes m a l) a l.length = l := by
  apply List.ext_getElem
  · simp [Memory.getBytes]
  · intro k h1 h2
    simp [Memory.getBytes, Memory.get_putBytes_in _ _ _ _ h2, List.getElem?_eq_getElem h2]

/-- A sector has 64 bytes, whatever it was made of. -/
@[simp] theorem slice_length (l : List Byte) (k n : Nat) : (slice l k n).length = n := by
  simp [slice]

/-- Storing a sector keeps the canonical form of memory. -/
theorem State.storeSector_wf (s : State) (ps : Nat) (x : Sector) (h : Memory.wf s.mem = true) :
    Memory.wf (s.storeSector ps x).mem = true := Memory.wf_putBytes _ _ _ h

/-- Storing a sector changes its own 64 bytes alone. -/
theorem State.storeSector_frame (s : State) (ps a : Nat) (x : Sector) (h : a / 64 ≠ ps) :
    Memory.get (s.storeSector ps x).mem a = Memory.get s.mem a :=
  Memory.get_putBytes_out _ _ _ _ (by rw [slice_length]; omega)

/-- A stored sector reads back with its data and metadata. -/
theorem State.rawSector_storeSector (s : State) (ps : Nat) (x : Sector) :
    (s.storeSector ps x).rawSector ps = { data := slice x.data 0 64, md := x.md % 256 } := by
  have h := Memory.getBytes_putBytes s.mem (ps * 64) (slice x.data 0 64)
  rw [slice_length] at h
  simp [State.rawSector, State.storeSector, h]

end Sys2Proof.Machine
end

