-- ==== Sys2Proof/Laws/Keeps.lean ====
section
/-! SUPPORT. What every operation keeps: the queue of waiting commands, and the canonical form of memory and of the register store. The
files KeepsLink, KeepsDram, KeepsPower, KeepsRegister, KeepsMailbox and KeepsExec say it of each operation once. -/

namespace Sys2Proof.Machine

/-- `t` comes from `s` with the queue as it was and the canonical form kept. -/
def Keeps (s t : State) : Prop := t.pending = s.pending ∧ (Canon s → Canon t)

theorem Keeps.refl (s : State) : Keeps s s := ⟨rfl, id⟩

theorem Keeps.trans {s t u : State} (h : Keeps s t) (k : Keeps t u) : Keeps s u := ⟨k.1.trans h.1, fun c => k.2 (h.2 c)⟩

/-- The admission numbers still rise when requests leave or change in place. -/
theorem IdsRise.sub {s t : State} (h : IdsRise s) (e : (t.rqe.reqs.map (·.id)).Sublist (s.rqe.reqs.map (·.id))) (n : t.rqe.nextId = s.rqe.nextId) :
    IdsRise t := by
  unfold IdsRise at *
  rw [n]
  exact h.sublist (e.append (List.Sublist.refl _))

/-- And when a request enters with the next number. -/
theorem IdsRise.push {s t : State} (h : IdsRise s) (r : Req) (hr : r.id = s.rqe.nextId) (e : t.rqe.reqs = s.rqe.reqs ++ [r])
    (n : t.rqe.nextId = s.rqe.nextId + 1) : IdsRise t := by
  unfold IdsRise at *
  rw [n, e, List.map_append, List.map_singleton, hr, List.pairwise_append]
  refine ⟨h, List.pairwise_singleton _ _, fun a ha b hb => ?_⟩
  rw [List.mem_singleton.1 hb]
  rw [List.mem_append, List.mem_singleton] at ha
  rcases ha with ha | ha
  · exact Nat.lt_succ_of_lt ((List.pairwise_append.1 h).2.2 a ha _ (List.mem_singleton.2 rfl))
  · exact ha ▸ Nat.lt_succ_self _

/-- A change of requests in place leaves their numbers. -/
theorem ids_map {l : List Req} {f : Req → Req} (hf : ∀ r ∈ l, (f r).id = r.id) : ((l.map f).map (·.id)).Sublist (l.map (·.id)) := by
  rw [List.map_map]
  exact (List.map_congr_left hf) ▸ List.Sublist.refl _

/-- Requests that leave take their numbers with them. -/
theorem ids_filter {l : List Req} {p : Req → Bool} : ((l.filter p).map (·.id)).Sublist (l.map (·.id)) := List.filter_sublist.map _

/-- A change of other parts of the state. -/
theorem Keeps.upd {s t u : State} (h : Keeps s t) (e : u.pending = t.pending ∧ u.mem = t.mem ∧ u.regs = t.regs ∧ u.memMeta = t.memMeta ∧
    u.memErr = t.memErr) (q : IdsRise t → IdsRise u) : Keeps s u := by
  obtain ⟨e1, e2, e3, e4, e5⟩ := e
  refine h.trans ⟨e1, ?_⟩
  unfold Canon
  rw [e2, e3, e4, e5]
  exact fun c => ⟨c.1, c.2.1, c.2.2.1, c.2.2.2.1, q c.2.2.2.2⟩

/-- A change of other parts of the state, as a record. -/
theorem Keeps.mk {s t : State} {now : Nat} {upBase : Nat} {free : Nat} {out : List Out} {link : Link} {waiting : SMap (List Vc0)} {waitAt : SMap Nat} {rot : Nat} {taken : Nat × Nat} {rejQ : List (List Byte)} {reg : Regul} {scc : Scc} {dmc : SMap Dmc} {rfm : Rfm} {dip : Dip} {tsv : Tsv} {fcr : Fcr} {pck : Pck} {pst : Pst} {thm : Thm} {cst : Cst} {mgt : Mgt} {glb : Glb} {svc : Svc} {tap : Tap} (h : Keeps s t) :
    Keeps s (State.mk t.pending now upBase free t.regs t.mem t.memMeta t.memErr out link (Rqe.mk t.rqe.reqs t.rqe.nextId waiting waitAt rot taken rejQ) reg scc dmc rfm dip tsv fcr pck pst thm cst mgt glb svc tap) := h.upd ⟨rfl, rfl, rfl, rfl, rfl⟩ id

/-- What the stack sends is no part of the form. -/
theorem Keeps.sends {s t : State} {out : List Out} (h : Keeps s t) : Keeps s { t with out := out } := .mk h

/-- The same, when requests leave or change in place. -/
theorem Keeps.mkSub {s t : State} {now : Nat} {upBase : Nat} {free : Nat} {out : List Out} {link : Link} {rqe : Rqe} {reg : Regul} {scc : Scc} {dmc : SMap Dmc} {rfm : Rfm} {dip : Dip} {tsv : Tsv} {fcr : Fcr} {pck : Pck} {pst : Pst} {thm : Thm} {cst : Cst} {mgt : Mgt} {glb : Glb} {svc : Svc} {tap : Tap} (h : Keeps s t)
    (e : (rqe.reqs.map (·.id)).Sublist (t.rqe.reqs.map (·.id))) (n : rqe.nextId = t.rqe.nextId) :
    Keeps s (State.mk t.pending now upBase free t.regs t.mem t.memMeta t.memErr out link rqe reg scc dmc rfm dip tsv fcr pck pst thm cst mgt glb svc tap) := h.upd ⟨rfl, rfl, rfl, rfl, rfl⟩ fun k => k.sub e n

/-- The same, when the request buffer is emptied. -/
theorem Keeps.mkClear {s t : State} {now : Nat} {upBase : Nat} {free : Nat} {out : List Out} {link : Link} {waiting : SMap (List Vc0)} {waitAt : SMap Nat} {rot : Nat} {taken : Nat × Nat} {rejQ : List (List Byte)} {n : Nat} {reg : Regul} {scc : Scc} {dmc : SMap Dmc} {rfm : Rfm} {dip : Dip} {tsv : Tsv} {fcr : Fcr} {pck : Pck} {pst : Pst} {thm : Thm} {cst : Cst} {mgt : Mgt} {glb : Glb} {svc : Svc} {tap : Tap} (h : Keeps s t) :
    Keeps s (State.mk t.pending now upBase free t.regs t.mem t.memMeta t.memErr out link (Rqe.mk [] n waiting waitAt rot taken rejQ) reg scc dmc rfm dip tsv fcr pck pst thm cst mgt glb svc tap) := h.upd ⟨rfl, rfl, rfl, rfl, rfl⟩ fun _ => List.pairwise_singleton _ _

/-- The same, when a request enters. -/
theorem Keeps.mkPush {s t : State} {now : Nat} {upBase : Nat} {free : Nat} {out : List Out} {link : Link} {waiting : SMap (List Vc0)} {waitAt : SMap Nat} {rot : Nat} {taken : Nat × Nat} {rejQ : List (List Byte)} {reg : Regul} {scc : Scc} {dmc : SMap Dmc} {rfm : Rfm} {dip : Dip} {tsv : Tsv} {fcr : Fcr} {pck : Pck} {pst : Pst} {thm : Thm} {cst : Cst} {mgt : Mgt} {glb : Glb} {svc : Svc} {tap : Tap} {r : Req} (h : Keeps s t) (hr : r.id = t.rqe.nextId) :
    Keeps s (State.mk t.pending now upBase free t.regs t.mem t.memMeta t.memErr out link (Rqe.mk (t.rqe.reqs ++ [r]) (t.rqe.nextId + 1) waiting waitAt rot taken rejQ) reg scc dmc rfm dip tsv fcr pck pst thm cst mgt glb svc tap) :=
  h.upd ⟨rfl, rfl, rfl, rfl, rfl⟩ fun k => k.push r hr rfl rfl

/-- The register store keeps some of its entries only. -/
theorem Keeps.mkFilter {s t : State} {now : Nat} {upBase : Nat} {free : Nat} {out : List Out} {link : Link} {waiting : SMap (List Vc0)} {waitAt : SMap Nat} {rot : Nat} {taken : Nat × Nat} {rejQ : List (List Byte)} {reg : Regul} {scc : Scc} {dmc : SMap Dmc} {rfm : Rfm} {dip : Dip} {tsv : Tsv} {fcr : Fcr} {pck : Pck} {pst : Pst} {thm : Thm} {cst : Cst} {mgt : Mgt} {glb : Glb} {svc : Svc} {tap : Tap} {p : Nat × Nat → Bool} (h : Keeps s t) :
    Keeps s (State.mk t.pending now upBase free (t.regs.filter p) t.mem t.memMeta t.memErr out link (Rqe.mk t.rqe.reqs t.rqe.nextId waiting waitAt rot taken rejQ) reg scc dmc rfm dip tsv fcr pck pst thm cst mgt glb svc tap) :=
  h.trans ⟨rfl, fun c => ⟨c.1, SMap.sorted_filter _ _ c.2.1, c.2.2⟩⟩

/-- DRAM content is lost, and every request. -/
theorem Keeps.mkLost {s t : State} {now : Nat} {upBase : Nat} {free : Nat} {out : List Out} {link : Link} {waiting : SMap (List Vc0)} {waitAt : SMap Nat} {rot : Nat} {taken : Nat × Nat} {rejQ : List (List Byte)} {n : Nat} {reg : Regul} {scc : Scc} {dmc : SMap Dmc} {rfm : Rfm} {dip : Dip} {tsv : Tsv} {fcr : Fcr} {pck : Pck} {pst : Pst} {thm : Thm} {cst : Cst} {mgt : Mgt} {glb : Glb} {svc : Svc} {tap : Tap} (h : Keeps s t) :
    Keeps s (State.mk t.pending now upBase free t.regs [] [] [] out link (Rqe.mk [] n waiting waitAt rot taken rejQ) reg scc dmc rfm dip tsv fcr pck pst thm cst mgt glb svc tap) :=
  h.trans ⟨rfl, fun c => ⟨rfl, c.2.1, rfl, rfl, List.pairwise_singleton _ _⟩⟩

/-- Memory is filled. -/
theorem Keeps.mkFill {s t : State} {now : Nat} {upBase : Nat} {free : Nat} {out : List Out} {link : Link} {waiting : SMap (List Vc0)} {waitAt : SMap Nat} {rot : Nat} {taken : Nat × Nat} {rejQ : List (List Byte)} {reg : Regul} {scc : Scc} {dmc : SMap Dmc} {rfm : Rfm} {dip : Dip} {tsv : Tsv} {fcr : Fcr} {pck : Pck} {pst : Pst} {thm : Thm} {cst : Cst} {mgt : Mgt} {glb : Glb} {svc : Svc} {tap : Tap} (h : Keeps s t) :
    Keeps s (State.mk t.pending now upBase free t.regs [] [] [] out link (Rqe.mk t.rqe.reqs t.rqe.nextId waiting waitAt rot taken rejQ) reg scc dmc rfm dip tsv fcr pck pst thm cst mgt glb svc tap) :=
  h.trans ⟨rfl, fun c => ⟨rfl, c.2.1, rfl, rfl, c.2.2.2.2⟩⟩

theorem Keeps.foldlP {α β : Type} {s : State} {f : State × β → α → State × β} (l : List α) {p : State × β} (hp : Keeps s p.1)
    (hf : ∀ q x, Keeps s q.1 → Keeps s (f q x).1) : Keeps s (l.foldl f p).1 := by
  induction l generalizing p with
  | nil => exact hp
  | cons x l ih => exact ih (hf p x hp)

theorem Keeps.ite {c : Prop} [Decidable c] {s a b : State} (ha : Keeps s a) (hb : Keeps s b) : Keeps s (if c then a else b) := by
  split
  · exact ha
  · exact hb

theorem Keeps.ite1 {β : Type} {c : Prop} [Decidable c] {s : State} {a b : State × β} (ha : Keeps s a.1) (hb : Keeps s b.1) :
    Keeps s (if c then a else b).1 := by
  split
  · exact ha
  · exact hb

theorem Keeps.ite2 {β : Type} {c : Prop} [Decidable c] {s : State} {a b : β × State} (ha : Keeps s a.2) (hb : Keeps s b.2) :
    Keeps s (if c then a else b).2 := by
  split
  · exact ha
  · exact hb

theorem Keeps.ite22 {β γ : Type} {c : Prop} [Decidable c] {s : State} {a b : β × γ × State} (ha : Keeps s a.2.2) (hb : Keeps s b.2.2) :
    Keeps s (if c then a else b).2.2 := by
  split
  · exact ha
  · exact hb

theorem Keeps.foldl {α : Type} {s t : State} {l : List α} {g : State → α → State} (h : Keeps s t)
    (hg : ∀ u x, Keeps s u → Keeps s (g u x)) : Keeps s (l.foldl g t) := by
  induction l generalizing t with
  | nil => exact h
  | cons a r ih => exact ih (hg _ _ h)

/-- To show something of a state that keeps, show first that it keeps. -/
theorem Keeps.cut {s x : State} {P : Prop} (h : Keeps s x) (k : Keeps s x → P) : P := k h

theorem State.wr_keeps {s₀ s : State} (h : Keeps s₀ s) (f : Fld) (v i j : Nat) : Keeps s₀ (s.wr f v i j) :=
  h.trans ⟨rfl, fun c => ⟨c.1, SMap.sorted_put _ _ _ _ c.2.1, c.2.2⟩⟩

theorem State.inc_keeps {s₀ s : State} (h : Keeps s₀ s) (f : Fld) (n i j : Nat) : Keeps s₀ (s.inc f n i j) := State.wr_keeps h ..

theorem State.storeSector_keeps {s₀ s : State} (h : Keeps s₀ s) (ps : Nat) (x : Sector) : Keeps s₀ (s.storeSector ps x) :=
  h.trans ⟨rfl, fun c => ⟨State.storeSector_wf s ps x c.1, c.2.1, SMap.sorted_put _ _ _ _ c.2.2.1, SMap.sorted_filter _ _ c.2.2.2.1, c.2.2.2.2⟩⟩

end Sys2Proof.Machine
end

