-- ==== Sys2Proof/Laws/KeepsLink.lean ====
section
/-! SUPPORT. What every operation keeps: of the shared operations, the lanes, the link, the address map, the regulator, the request engine and memory. -/

namespace Sys2Proof.Machine

/-! ## Ops -/

theorem State.clearAll_keeps {s₀ : State} {a0 : State} (a1 : Fld) (a2 : ℕ) (h0 : Keeps s₀ a0) :
    Keeps s₀ (@State.clearAll a0 a1 a2) := by
  unfold State.clearAll
  repeat' first
    | with_reducible assumption
    | with_reducible apply State.wr_keeps
    | with_reducible refine Keeps.foldl ?_ (fun u x hu => ?_)

theorem State.clearFields_keeps {s₀ : State} {a0 : State} (a1 : List Fld) (a2 : ℕ) (h0 : Keeps s₀ a0) :
    Keeps s₀ (@State.clearFields a0 a1 a2) := by
  unfold State.clearFields
  repeat' first
    | with_reducible assumption
    | with_reducible apply State.clearAll_keeps
    | with_reducible refine Keeps.foldl ?_ (fun u x hu => ?_)

theorem State.draw_keeps {s₀ : State} {a0 : State} (h0 : Keeps s₀ a0) :
    Keeps s₀ (@State.draw a0).2 := by
  unfold State.draw
  repeat' first
    | (with_reducible apply Keeps.mk; with_reducible assumption)

theorem State.draw_keeps_eq {s₀ : State} {a0 : State} {r0 : ℕ} {r1 : State}
    (e : @State.draw a0 = (r0, r1)) (h0 : Keeps s₀ a0) : Keeps s₀ r1 := by
  have := State.draw_keeps  h0
  rw [e] at this
  exact this

theorem State.draws_keeps {s₀ : State} {a0 : State} (n : ℕ) (h0 : Keeps s₀ a0) :
    Keeps s₀ (@State.draws a0 n).2 := .mk h0

theorem State.portStart_keeps {s₀ : State} {a0 : State} (h0 : Keeps s₀ a0) :
    Keeps s₀ (@State.portStart a0) := by
  unfold State.portStart
  repeat' first
    | split
    | (with_reducible apply Keeps.mk; with_reducible assumption)

theorem State.portPut_keeps {s₀ : State} {a0 : State} (a1 : List MWord) (h0 : Keeps s₀ a0) :
    Keeps s₀ (@State.portPut a0 a1) := by
  unfold State.portPut
  repeat' first
    | (with_reducible apply Keeps.mk; with_reducible first | assumption | exact Keeps.refl _ | refine Keeps.foldl ?_ (fun u x hu => ?_) | apply Keeps.ite | apply State.portStart_keeps)

theorem State.putStackWord_keeps {s₀ : State} {a0 : State} (a1 : ℕ) (a2 : ℕ) (a3 : ℕ) (a4 : ℕ) (h0 : Keeps s₀ a0) :
    Keeps s₀ (@State.putStackWord a0 a1 a2 a3 a4) := by
  unfold State.putStackWord
  repeat' first
    | with_reducible assumption
    | with_reducible apply State.portPut_keeps

theorem queueEvt_keeps {s₀ : State} {a0 : State} (a1 : ℕ) (a2 : Raise) (h0 : Keeps s₀ a0) :
    Keeps s₀ (@queueEvt a0 a1 a2) := by
  unfold queueEvt
  repeat' first
    | (with_reducible apply Keeps.mk; with_reducible first | assumption | exact Keeps.refl _ | refine Keeps.foldl ?_ (fun u x hu => ?_) | apply Keeps.ite | apply State.inc_keeps)

theorem queueCopy_keeps {s₀ : State} {a0 : State} (a1 : Raise) (h0 : Keeps s₀ a0) :
    Keeps s₀ (@queueCopy a0 a1) := by
  unfold queueCopy
  repeat' first
    | (with_reducible apply Keeps.mk; with_reducible first | assumption | exact Keeps.refl _ | refine Keeps.foldl ?_ (fun u x hu => ?_) | apply Keeps.ite | apply State.inc_keeps)

theorem State.logToPort_keeps {s₀ : State} {a0 : State} (a1 : Raise) (h0 : Keeps s₀ a0) :
    Keeps s₀ (@State.logToPort a0 a1) := by
  unfold State.logToPort
  repeat' first
    | with_reducible assumption
    | with_reducible apply State.portPut_keeps
    | with_reducible apply State.wr_keeps

theorem queueLog_keeps {s₀ : State} {a0 : State} (a1 : Raise) (h0 : Keeps s₀ a0) :
    Keeps s₀ (@queueLog a0 a1).1 := by
  unfold queueLog
  repeat' first
    | with_reducible apply Keeps.ite1
    | (with_reducible apply Keeps.mk; with_reducible first | assumption | exact Keeps.refl _ | refine Keeps.foldl ?_ (fun u x hu => ?_) | apply Keeps.ite | apply State.logToPort_keeps | apply State.inc_keeps)

theorem queueLog_keeps_eq {s₀ : State} {a0 : State} (a1 : Raise) {r0 : State} {r1 : Option ℕ}
    (e : @queueLog a0 a1 = (r0, r1)) (h0 : Keeps s₀ a0) : Keeps s₀ r0 := by
  have := queueLog_keeps a1 h0
  rw [e] at this
  exact this

theorem capture_keeps {s₀ : State} {a0 : State} (a1 : Raise) (h0 : Keeps s₀ a0) :
    Keeps s₀ (@capture a0 a1) := by
  unfold capture
  repeat' first
    | with_reducible assumption
    | with_reducible apply State.wr_keeps
    | with_reducible apply State.inc_keeps
    | with_reducible refine Keeps.foldl ?_ (fun u x hu => ?_)
    | with_reducible apply Keeps.ite

theorem faultState_keeps {s₀ : State} {a0 : State} (a1 : Sev) (h0 : Keeps s₀ a0) :
    Keeps s₀ (@faultState a0 a1) := by
  unfold faultState
  repeat' first
    | (with_reducible apply Keeps.mk; with_reducible first | assumption | exact Keeps.refl _ | refine Keeps.foldl ?_ (fun u x hu => ?_) | apply Keeps.ite | apply State.wr_keeps)

theorem react_keeps {s₀ : State} {a0 : State} (a1 : ℕ) (h0 : Keeps s₀ a0) :
    Keeps s₀ (@react a0 a1) := by
  unfold react
  repeat' first
    | split
    | (with_reducible apply Keeps.mk; with_reducible first | assumption | exact Keeps.refl _ | refine Keeps.foldl ?_ (fun u x hu => ?_) | apply Keeps.ite | apply State.wr_keeps)

theorem holdAlert_keeps {s₀ : State} {a0 : State} {a1 : State} (h0 : Keeps s₀ a0) (h1 : Keeps s₀ a1) :
    Keeps s₀ (@holdAlert a0 a1) := by
  unfold holdAlert
  repeat' first
    | with_reducible assumption
    | with_reducible exact Keeps.refl _
    | with_reducible apply State.wr_keeps
    | with_reducible apply State.inc_keeps
    | with_reducible refine Keeps.foldl ?_ (fun u x hu => ?_)
    | with_reducible apply Keeps.ite
    | with_reducible apply Keeps.ite1
    | with_reducible apply Keeps.ite2
    | with_reducible apply Keeps.ite22
    | (lift_lets; intro x; refine Keeps.cut (x := x) ?_ (fun hx => ?_))
    | (lift_lets; intro x)
    | split
    | dsimp only
    | dsimp only [x]
    | (with_reducible apply Keeps.mk; with_reducible assumption)

theorem raiseOnce_keeps {s₀ : State} {s : State} (src : Nat) (v : Sev) (syn : List Nat) (test : Bool) (h : Keeps s₀ s) :
    Keeps s₀ (raiseOnce s src v syn test).1 := by
  unfold raiseOnce
  extract_lets r0 first s1 r s2 s3 s4 q p s5
  have h1 : Keeps s₀ s1 := .ite (faultState_keeps _ (capture_keeps _ h)) h
  clear_value s1
  have h2 : Keeps s₀ s2 := .foldl h1 fun u d hu => .ite (queueEvt_keeps d r hu) hu
  clear_value s2
  have h3 : Keeps s₀ s3 := .ite (holdAlert_keeps h2 (State.inc_keeps (State.wr_keeps (State.wr_keeps h2 ..) ..) ..)) h2
  clear_value s3
  have h4 : Keeps s₀ s4 := .ite (queueCopy_keeps r h3) h3
  clear_value s4
  have h5 : Keeps s₀ s5 := .ite (.mk h4) h4
  clear_value s5
  split
  next s6 d hs6 =>
  have h6 : Keeps s₀ s6 := by
    have hx := congrArg Prod.fst hs6
    dsimp only at hx
    rw [← hx]
    split
    · exact queueLog_keeps r h5
    · exact h5
  exact .ite (react_keeps src h6) h6

theorem raiseOnce_keeps_eq {s₀ : State} {s : State} {src : Nat} {v : Sev} {syn : List Nat} {test : Bool} {t : State} {d : Option Nat}
    (e : raiseOnce s src v syn test = (t, d)) (h : Keeps s₀ s) : Keeps s₀ t := by
  have := raiseOnce_keeps src v syn test h
  rw [e] at this
  exact this

theorem State.raiseAs_keeps {s₀ : State} {a0 : State} (a1 : ℕ) (a2 : Sev) (a3 : List ℕ) (a4 : Bool) (h0 : Keeps s₀ a0) :
    Keeps s₀ (@State.raiseAs a0 a1 a2 a3 a4) := by
  unfold State.raiseAs
  repeat' first
    | with_reducible apply Keeps.ite
    | split
    | (with_reducible apply Keeps.mk; with_reducible first | assumption | exact Keeps.refl _ | refine Keeps.foldl ?_ (fun u x hu => ?_) | apply Keeps.ite | apply raiseOnce_keeps | (apply raiseOnce_keeps_eq; on_goal 1 => assumption))

theorem State.raise_keeps {s₀ : State} {a0 : State} (a1 : ℕ) (a2 : Sev) (a3 : List ℕ) (h0 : Keeps s₀ a0) :
    Keeps s₀ (@State.raise a0 a1 a2 a3) := by
  unfold State.raise
  repeat' first
    | with_reducible assumption
    | with_reducible apply State.raiseAs_keeps

theorem State.raiseG_keeps {s₀ : State} {a0 : State} (a1 : ℕ) (a2 : Sev) (a3 : ℕ) (a4 : ℕ) (a5 : (List ℕ)) (h0 : Keeps s₀ a0) :
    Keeps s₀ (@State.raiseG a0 a1 a2 a3 a4 a5) := by
  unfold State.raiseG
  repeat' first
    | with_reducible assumption
    | with_reducible apply State.raise_keeps

theorem State.lasting_keeps {s₀ : State} {a0 : State} (a1 : ℕ) (h0 : Keeps s₀ a0) :
    Keeps s₀ (@State.lasting a0 a1).2 := by
  unfold State.lasting
  repeat' first
    | (with_reducible apply Keeps.mk; with_reducible assumption)

theorem State.lasting_keeps_eq {s₀ : State} {a0 : State} (a1 : ℕ) {r0 : Bool} {r1 : State}
    (e : @State.lasting a0 a1 = (r0, r1)) (h0 : Keeps s₀ a0) : Keeps s₀ r1 := by
  have := State.lasting_keeps a1 h0
  rw [e] at this
  exact this

theorem State.raiseLasting_keeps {s₀ : State} {a0 : State} (a1 : ℕ) (a2 : ℕ) (a3 : Sev) (a4 : ℕ) (a5 : ℕ) (h0 : Keeps s₀ a0) :
    Keeps s₀ (@State.raiseLasting a0 a1 a2 a3 a4 a5) := by
  unfold State.raiseLasting
  repeat' first
    | with_reducible assumption
    | with_reducible apply State.lasting_keeps
    | with_reducible apply State.raiseG_keeps
    | with_reducible apply Keeps.ite

/-! ## Phy -/

theorem State.setGrp_keeps {s₀ : State} {a0 : State} (a1 : ℕ) (a2 : Grp) (h0 : Keeps s₀ a0) :
    Keeps s₀ (@State.setGrp a0 a1 a2) := by
  unfold State.setGrp
  repeat' first
    | (with_reducible apply Keeps.mk; with_reducible assumption)

theorem State.modGrp_keeps {s₀ : State} {a0 : State} (a1 : ℕ) (a2 : Grp → Grp) (h0 : Keeps s₀ a0) :
    Keeps s₀ (@State.modGrp a0 a1 a2) := by
  unfold State.modGrp
  repeat' first
    | with_reducible assumption
    | with_reducible apply State.setGrp_keeps

theorem endInjection_keeps {s₀ : State} {a0 : State} (a1 : ℕ) (h0 : Keeps s₀ a0) :
    Keeps s₀ (@endInjection a0 a1) := by
  unfold endInjection
  repeat' first
    | with_reducible assumption
    | with_reducible apply State.modGrp_keeps
    | with_reducible apply State.wr_keeps
    | with_reducible apply Keeps.ite

theorem sampleErrors_keeps {s₀ : State} {a0 : State} (a1 : ℕ) (a2 : ℕ) (h0 : Keeps s₀ a0) :
    Keeps s₀ (@sampleErrors a0 a1 a2) := by
  unfold sampleErrors
  repeat' first
    | with_reducible assumption
    | with_reducible apply State.draw_keeps
    | with_reducible apply State.inc_keeps
    | with_reducible apply Keeps.ite

theorem giveChecker_keeps {s₀ : State} {a0 : State} (a1 : ℕ) (a2 : ℕ) (a3 : ℕ) (h0 : Keeps s₀ a0) :
    Keeps s₀ (@giveChecker a0 a1 a2 a3) := by
  unfold giveChecker
  repeat' first
    | with_reducible assumption
    | with_reducible apply State.draw_keeps
    | with_reducible apply State.modGrp_keeps

theorem takeChecker_keeps {s₀ : State} {a0 : State} (a1 : ℕ) (a2 : ℕ) (a3 : ℕ) (h0 : Keeps s₀ a0) :
    Keeps s₀ (@takeChecker a0 a1 a2 a3) := by
  unfold takeChecker
  repeat' first
    | with_reducible assumption
    | with_reducible apply sampleErrors_keeps
    | with_reducible apply State.wr_keeps
    | with_reducible apply giveChecker_keeps
    | with_reducible apply Keeps.ite

theorem dropChecker_keeps {s₀ : State} {a0 : State} (a1 : ℕ) (a2 : ℕ) (h0 : Keeps s₀ a0) :
    Keeps s₀ (@dropChecker a0 a1 a2) := by
  unfold dropChecker
  repeat' first
    | with_reducible assumption
    | with_reducible apply State.modGrp_keeps
    | with_reducible apply sampleErrors_keeps

theorem endTest_keeps {s₀ : State} {a0 : State} (a1 : ℕ) (a2 : ℕ) (h0 : Keeps s₀ a0) :
    Keeps s₀ (@endTest a0 a1 a2) := by
  unfold endTest
  repeat' first
    | with_reducible assumption
    | with_reducible exact Keeps.refl _
    | with_reducible apply dropChecker_keeps
    | with_reducible apply State.wr_keeps
    | with_reducible apply State.wr_keeps
    | with_reducible apply State.inc_keeps
    | with_reducible refine Keeps.foldl ?_ (fun u x hu => ?_)
    | with_reducible apply Keeps.ite

theorem endTests_keeps {s₀ : State} {a0 : State} (a1 : ℕ) (h0 : Keeps s₀ a0) :
    Keeps s₀ (@endTests a0 a1) := by
  unfold endTests
  repeat' first
    | with_reducible assumption
    | with_reducible exact Keeps.refl _
    | with_reducible apply endTest_keeps
    | with_reducible apply State.wr_keeps
    | with_reducible apply State.inc_keeps
    | with_reducible refine Keeps.foldl ?_ (fun u x hu => ?_)

theorem endUse_keeps {s₀ : State} {a0 : State} (a1 : ℕ) (h0 : Keeps s₀ a0) :
    Keeps s₀ (@endUse a0 a1) := by
  unfold endUse
  repeat' first
    | with_reducible assumption
    | with_reducible exact Keeps.refl _
    | with_reducible apply endTests_keeps
    | with_reducible apply endInjection_keeps

theorem groupOff_keeps {s₀ : State} {a0 : State} (a1 : ℕ) (h0 : Keeps s₀ a0) :
    Keeps s₀ (@groupOff a0 a1) := by
  unfold groupOff
  repeat' first
    | with_reducible assumption
    | with_reducible exact Keeps.refl _
    | with_reducible apply State.modGrp_keeps
    | with_reducible apply endUse_keeps

theorem groupDetect_keeps {s₀ : State} {a0 : State} (a1 : ℕ) (h0 : Keeps s₀ a0) :
    Keeps s₀ (@groupDetect a0 a1) := by
  unfold groupDetect
  repeat' first
    | with_reducible assumption
    | with_reducible exact Keeps.refl _
    | with_reducible apply State.inc_keeps
    | with_reducible apply State.modGrp_keeps
    | with_reducible apply endUse_keeps
    | with_reducible apply State.wr_keeps
    | with_reducible apply State.inc_keeps
    | with_reducible refine Keeps.foldl ?_ (fun u x hu => ?_)
    | with_reducible apply Keeps.ite

theorem groupFailed_keeps {s₀ : State} {a0 : State} (a1 : ℕ) (h0 : Keeps s₀ a0) :
    Keeps s₀ (@groupFailed a0 a1) := by
  unfold groupFailed
  repeat' first
    | with_reducible assumption
    | with_reducible exact Keeps.refl _
    | with_reducible apply State.modGrp_keeps
    | with_reducible apply endUse_keeps

theorem groupPowerUp_keeps {s₀ : State} (a0 : ℕ) {a1 : State} (h1 : Keeps s₀ a1) :
    Keeps s₀ (@groupPowerUp a0 a1) := by
  unfold groupPowerUp
  repeat' first
    | with_reducible assumption
    | with_reducible apply State.modGrp_keeps
    | with_reducible apply groupDetect_keeps
    | with_reducible apply Keeps.ite

theorem groupDetectEnd_keeps {s₀ : State} (a0 : ℕ) (a1 : ℕ) {a2 : State} (h2 : Keeps s₀ a2) :
    Keeps s₀ (@groupDetectEnd a0 a1 a2) := by
  unfold groupDetectEnd
  repeat' first
    | with_reducible assumption
    | with_reducible apply State.modGrp_keeps
    | with_reducible apply groupFailed_keeps
    | with_reducible apply Keeps.ite

theorem groupClockEnd_keeps {s₀ : State} (a0 : ℕ) (a1 : Bool) (a2 : Bool) {a3 : State} (h3 : Keeps s₀ a3) :
    Keeps s₀ (@groupClockEnd a0 a1 a2 a3) := by
  unfold groupClockEnd
  repeat' first
    | with_reducible assumption
    | with_reducible exact Keeps.refl _
    | with_reducible apply State.modGrp_keeps
    | with_reducible apply groupFailed_keeps
    | with_reducible apply State.wr_keeps
    | with_reducible apply State.inc_keeps
    | with_reducible refine Keeps.foldl ?_ (fun u x hu => ?_)
    | with_reducible apply Keeps.ite
    | with_reducible apply Keeps.ite1
    | with_reducible apply Keeps.ite2
    | with_reducible apply Keeps.ite22
    | split
    | dsimp only
    | dsimp only [x]
    | (with_reducible apply Keeps.mk; with_reducible assumption)

theorem keepLanes_keeps {s₀ : State} {a0 : State} (a1 : ℕ) (a2 : ℕ) (a3 : Grp → Grp) (h0 : Keeps s₀ a0) :
    Keeps s₀ (@keepLanes a0 a1 a2 a3) := by
  unfold keepLanes
  repeat' first
    | with_reducible assumption
    | with_reducible apply State.modGrp_keeps
    | with_reducible apply groupFailed_keeps
    | with_reducible apply Keeps.ite

theorem latchSlips_keeps {s₀ : State} {a0 : State} (a1 : ℕ) (a2 : List ℕ) (h0 : Keeps s₀ a0) :
    Keeps s₀ (@latchSlips a0 a1 a2) := by
  unfold latchSlips
  repeat' first
    | with_reducible assumption
    | with_reducible apply State.wr_keeps
    | with_reducible refine Keeps.foldl ?_ (fun u x hu => ?_)
    | with_reducible apply Keeps.ite

theorem spareStream_keeps {s₀ : State} {a0 : State} (a1 : ℕ) (h0 : Keeps s₀ a0) :
    Keeps s₀ (@spareStream a0 a1) := by
  unfold spareStream
  repeat' first
    | with_reducible assumption
    | with_reducible exact Keeps.refl _
    | with_reducible apply State.wr_keeps
    | with_reducible apply State.inc_keeps
    | with_reducible refine Keeps.foldl ?_ (fun u x hu => ?_)
    | with_reducible apply Keeps.ite
    | with_reducible apply Keeps.ite1
    | with_reducible apply Keeps.ite2
    | with_reducible apply Keeps.ite22
    | (lift_lets; intro x; refine Keeps.cut (x := x) ?_ (fun hx => ?_))
    | (lift_lets; intro x)
    | split
    | dsimp only
    | dsimp only [x]
    | (with_reducible apply Keeps.mk; with_reducible assumption)

theorem activate_keeps {s₀ : State} {a0 : State} (a1 : ℕ) (h0 : Keeps s₀ a0) :
    Keeps s₀ (@activate a0 a1) := by
  unfold activate
  repeat' first
    | with_reducible assumption
    | with_reducible exact Keeps.refl _
    | with_reducible apply spareStream_keeps
    | with_reducible apply State.modGrp_keeps

theorem applyPresets_keeps {s₀ : State} {a0 : State} (a1 : ℕ) (a2 : ℕ) (h0 : Keeps s₀ a0) :
    Keeps s₀ (@applyPresets a0 a1 a2) := by
  unfold applyPresets
  repeat' first
    | with_reducible assumption
    | with_reducible exact Keeps.refl _
    | with_reducible apply State.modGrp_keeps

theorem confirmDone_keeps {s₀ : State} {a0 : State} (a1 : ℕ) (h0 : Keeps s₀ a0) :
    Keeps s₀ (@confirmDone a0 a1) := by
  unfold confirmDone
  repeat' first
    | with_reducible assumption
    | with_reducible apply groupFailed_keeps
    | with_reducible apply State.modGrp_keeps
    | with_reducible apply activate_keeps
    | with_reducible apply applyPresets_keeps
    | with_reducible apply Keeps.ite
    | split

theorem slotSend_keeps {s₀ : State} {a0 : State} (a1 : ℕ) (a2 : ℕ) (h0 : Keeps s₀ a0) :
    Keeps s₀ (@slotSend a0 a1 a2) := by
  unfold slotSend
  repeat' first
    | with_reducible assumption
    | with_reducible exact Keeps.refl _
    | with_reducible apply State.wr_keeps
    | with_reducible apply State.inc_keeps
    | with_reducible refine Keeps.foldl ?_ (fun u x hu => ?_)
    | with_reducible apply Keeps.ite
    | with_reducible apply Keeps.ite1
    | with_reducible apply Keeps.ite2
    | with_reducible apply Keeps.ite22
    | (lift_lets; intro x; refine Keeps.cut (x := x) ?_ (fun hx => ?_))
    | (lift_lets; intro x)
    | split
    | dsimp only
    | dsimp only [x]
    | (with_reducible apply Keeps.mk; with_reducible assumption)

theorem slotDone_keeps {s₀ : State} {a0 : State} (a1 : ℕ) (a2 : ℕ) (a3 : SlotResult) (h0 : Keeps s₀ a0) :
    Keeps s₀ (@slotDone a0 a1 a2 a3) := by
  unfold slotDone
  repeat' first
    | with_reducible assumption
    | with_reducible exact Keeps.refl _
    | with_reducible apply State.modGrp_keeps
    | with_reducible apply keepLanes_keeps
    | with_reducible apply latchSlips_keeps
    | with_reducible apply confirmDone_keeps
    | with_reducible apply State.wr_keeps
    | with_reducible apply State.inc_keeps
    | with_reducible refine Keeps.foldl ?_ (fun u x hu => ?_)
    | with_reducible apply Keeps.ite
    | with_reducible apply Keeps.ite1
    | with_reducible apply Keeps.ite2
    | with_reducible apply Keeps.ite22
    | (lift_lets; intro x; refine Keeps.cut (x := x) ?_ (fun hx => ?_))
    | (lift_lets; intro x)
    | split

theorem trainingSlotEnd_keeps {s₀ : State} (a0 : ℕ) (a1 : SlotResult) {a2 : State} (h2 : Keeps s₀ a2) :
    Keeps s₀ (@trainingSlotEnd a0 a1 a2) := by
  unfold trainingSlotEnd
  repeat' first
    | with_reducible assumption
    | with_reducible exact Keeps.refl _
    | with_reducible apply slotSend_keeps
    | with_reducible apply slotDone_keeps
    | with_reducible apply State.modGrp_keeps

theorem confirmWordAccept_keeps {s₀ : State} (a0 : ℕ) (a1 : ℕ) (a2 : ℕ) {a3 : State} (h3 : Keeps s₀ a3) :
    Keeps s₀ (@confirmWordAccept a0 a1 a2 a3) := by
  unfold confirmWordAccept
  repeat' first
    | with_reducible assumption
    | with_reducible apply State.modGrp_keeps
    | with_reducible apply confirmDone_keeps
    | with_reducible apply groupFailed_keeps
    | with_reducible apply Keeps.ite

theorem groupTrainFail_keeps {s₀ : State} (a0 : ℕ) {a1 : State} (h1 : Keeps s₀ a1) :
    Keeps s₀ (@groupTrainFail a0 a1) := by
  unfold groupTrainFail
  repeat' first
    | with_reducible assumption
    | with_reducible apply State.modGrp_keeps
    | with_reducible apply groupDetect_keeps
    | with_reducible apply Keeps.ite

theorem stopInjection_keeps {s₀ : State} {a0 : State} (a1 : ℕ) (a2 : ℕ) (h0 : Keeps s₀ a0) :
    Keeps s₀ (@stopInjection a0 a1 a2) := by
  unfold stopInjection
  repeat' first
    | with_reducible assumption
    | with_reducible apply endInjection_keeps
    | with_reducible apply Keeps.ite

/-! ## Link -/

theorem fixHome_keeps {s₀ : State} {a0 : State} (a1 : Bool) (h0 : Keeps s₀ a0) :
    Keeps s₀ (@fixHome a0 a1) := by
  unfold fixHome
  repeat' first
    | (with_reducible apply Keeps.mk; with_reducible first | assumption | exact Keeps.refl _ | refine Keeps.foldl ?_ (fun u x hu => ?_) | apply Keeps.ite)

theorem emit_keeps {s₀ : State} {a0 : State} (a1 : ℕ) (a2 : List TxFlit) (h0 : Keeps s₀ a0) :
    Keeps s₀ (@emit a0 a1 a2) := by
  unfold emit
  repeat' first
    | with_reducible assumption
    | with_reducible exact Keeps.refl _
    | with_reducible apply State.setGrp_keeps
    | with_reducible apply State.wr_keeps
    | with_reducible apply State.inc_keeps
    | with_reducible refine Keeps.foldl ?_ (fun u x hu => ?_)
    | with_reducible apply Keeps.ite
    | with_reducible apply Keeps.ite1
    | with_reducible apply Keeps.ite2
    | with_reducible apply Keeps.ite22
    | (lift_lets; intro x; refine Keeps.cut (x := x) ?_ (fun hx => ?_))
    | (lift_lets; intro x)
    | split
    | dsimp only
    | dsimp only [x]
    | (with_reducible apply Keeps.mk; with_reducible first | assumption | exact Keeps.refl _ | refine Keeps.foldl ?_ (fun u x hu => ?_) | apply Keeps.ite | apply State.setGrp_keeps)

theorem sendFlit_keeps {s₀ : State} {a0 : State} (a1 : ℕ) (a2 : ℕ) (a3 : List Byte) (a4 : List (List Byte)) (h0 : Keeps s₀ a0) :
    Keeps s₀ (@sendFlit a0 a1 a2 a3 a4) := by
  unfold sendFlit
  repeat' first
    | with_reducible assumption
    | with_reducible exact Keeps.refl _
    | with_reducible apply emit_keeps
    | with_reducible apply State.setGrp_keeps

theorem placePacket_keeps {s₀ : State} {a0 : State} (a1 : ℕ) (a2 : List Byte) (h0 : Keeps s₀ a0) :
    Keeps s₀ (@placePacket a0 a1 a2) := by
  unfold placePacket
  repeat' first
    | with_reducible assumption
    | with_reducible apply sendFlit_keeps
    | with_reducible apply Keeps.ite

theorem markConfig_keeps {s₀ : State} {a0 : State} (a1 : ℕ) (a2 : List Byte) (h0 : Keeps s₀ a0) :
    Keeps s₀ (@markConfig a0 a1 a2) := by
  unfold markConfig
  repeat' first
    | with_reducible assumption
    | with_reducible exact Keeps.refl _
    | with_reducible apply State.wr_keeps
    | with_reducible apply State.inc_keeps
    | with_reducible refine Keeps.foldl ?_ (fun u x hu => ?_)
    | with_reducible apply Keeps.ite
    | with_reducible apply Keeps.ite1
    | with_reducible apply Keeps.ite2
    | with_reducible apply Keeps.ite22
    | (lift_lets; intro x; refine Keeps.cut (x := x) ?_ (fun hx => ?_))
    | (lift_lets; intro x)
    | split
    | dsimp only
    | dsimp only [x]
    | (with_reducible apply Keeps.mk; with_reducible assumption)

theorem drainHome_keeps {s₀ : State} (a0 : ℕ) {a1 : State} (h1 : Keeps s₀ a1) :
    Keeps s₀ (@drainHome a0 a1) := by
  induction a0 generalizing a1 with
  | zero => exact h1
  | succ n ih =>
    unfold drainHome
    repeat' first
      | with_reducible apply ih
      | with_reducible assumption
      | with_reducible exact Keeps.refl _
      | with_reducible apply placePacket_keeps
      | with_reducible apply sendFlit_keeps
      | with_reducible apply markConfig_keeps
      | with_reducible apply State.wr_keeps
      | with_reducible apply State.inc_keeps
      | with_reducible refine Keeps.foldl ?_ (fun u x hu => ?_)
      | with_reducible apply Keeps.ite
      | with_reducible apply Keeps.ite1
      | with_reducible apply Keeps.ite2
      | with_reducible apply Keeps.ite22
      | (lift_lets; intro x; refine Keeps.cut (x := x) ?_ (fun hx => ?_))
      | (lift_lets; intro x)
      | split
      | dsimp only
      | dsimp only [x]
      | (with_reducible apply Keeps.mk; with_reducible assumption)

theorem drain_keeps {s₀ : State} {a0 : State} (h0 : Keeps s₀ a0) :
    Keeps s₀ (@drain a0) := by
  unfold drain
  repeat' first
    | with_reducible assumption
    | with_reducible apply drainHome_keeps

theorem sendItem_keeps {s₀ : State} {a0 : State} (a1 : List Byte) (h0 : Keeps s₀ a0) :
    Keeps s₀ (@sendItem a0 a1) := by
  unfold sendItem
  repeat' first
    | (with_reducible apply Keeps.mk; with_reducible first | assumption | exact Keeps.refl _ | refine Keeps.foldl ?_ (fun u x hu => ?_) | apply Keeps.ite | apply drain_keeps)

theorem sendVc2_keeps {s₀ : State} {a0 : State} (a1 : List Byte) (h0 : Keeps s₀ a0) :
    Keeps s₀ (@sendVc2 a0 a1) := by
  unfold sendVc2
  repeat' first
    | (with_reducible apply Keeps.mk; with_reducible first | assumption | exact Keeps.refl _ | refine Keeps.foldl ?_ (fun u x hu => ?_) | apply Keeps.ite | apply drain_keeps)

theorem countLost_keeps {s₀ : State} {a0 : State} (a1 : List (List Byte)) (h0 : Keeps s₀ a0) :
    Keeps s₀ (@countLost a0 a1) := by
  unfold countLost
  repeat' first
    | with_reducible assumption
    | with_reducible apply State.inc_keeps
    | with_reducible refine Keeps.foldl ?_ (fun u x hu => ?_)
    | split

theorem resetCredits_keeps {s₀ : State} {a0 : State} (h0 : Keeps s₀ a0) :
    Keeps s₀ (@resetCredits a0) := by
  unfold resetCredits
  repeat' first
    | (with_reducible apply Keeps.mk; with_reducible assumption)

theorem silence_keeps {s₀ : State} {a0 : State} (h0 : Keeps s₀ a0) :
    Keeps s₀ (@silence a0) := by
  unfold silence
  repeat' first
    | (with_reducible apply Keeps.mk; with_reducible assumption)

theorem dropLink_keeps {s₀ : State} {a0 : State} (h0 : Keeps s₀ a0) :
    Keeps s₀ (@dropLink a0) := by
  unfold dropLink
  extract_lets flown s1 q s2
  refine Keeps.mk (t := s2) (resetCredits_keeps (Keeps.mkSub (t := s1) (silence_keeps (countLost_keeps _ h0)) (ids_map fun r _ => ?_) rfl))
  split <;> rfl

theorem allDetect_keeps {s₀ : State} {a0 : State} (h0 : Keeps s₀ a0) :
    Keeps s₀ (@allDetect a0) := by
  unfold allDetect
  repeat' first
    | with_reducible assumption
    | with_reducible apply State.modGrp_keeps
    | with_reducible apply groupDetect_keeps
    | with_reducible refine Keeps.foldl ?_ (fun u x hu => ?_)

theorem wholeRetrain_keeps {s₀ : State} (a0 : ℕ) {a1 : State} (h1 : Keeps s₀ a1) :
    Keeps s₀ (@wholeRetrain a0 a1) := by
  unfold wholeRetrain
  repeat' first
    | with_reducible assumption
    | with_reducible apply allDetect_keeps
    | with_reducible apply dropLink_keeps
    | with_reducible apply State.raiseG_keeps

theorem sendConfig_keeps {s₀ : State} {a0 : State} (h0 : Keeps s₀ a0) :
    Keeps s₀ (@sendConfig a0) := by
  unfold sendConfig
  repeat' first
    | with_reducible assumption
    | with_reducible exact Keeps.refl _
    | with_reducible apply drain_keeps
    | with_reducible apply State.wr_keeps
    | with_reducible apply State.inc_keeps
    | with_reducible refine Keeps.foldl ?_ (fun u x hu => ?_)
    | with_reducible apply Keeps.ite
    | with_reducible apply Keeps.ite1
    | with_reducible apply Keeps.ite2
    | with_reducible apply Keeps.ite22
    | (lift_lets; intro x; refine Keeps.cut (x := x) ?_ (fun hx => ?_))
    | (lift_lets; intro x)
    | split
    | dsimp only
    | dsimp only [x]
    | (with_reducible apply Keeps.mk; with_reducible assumption)

theorem requestTurn_keeps {s₀ : State} {a0 : State} (a1 : ℕ) (a2 : Bool) (h0 : Keeps s₀ a0) :
    Keeps s₀ (@requestTurn a0 a1 a2) := by
  unfold requestTurn
  repeat' first
    | (with_reducible apply Keeps.mk; with_reducible first | assumption | exact Keeps.refl _ | refine Keeps.foldl ?_ (fun u x hu => ?_) | apply Keeps.ite | apply sendVc2_keeps)

theorem autoBalance_keeps {s₀ : State} {a0 : State} (h0 : Keeps s₀ a0) :
    Keeps s₀ (@autoBalance a0) := by
  unfold autoBalance
  repeat' first
    | with_reducible assumption
    | with_reducible apply requestTurn_keeps
    | split
    | dsimp only

theorem enterService_keeps {s₀ : State} (a0 : ℕ) {a1 : State} (h1 : Keeps s₀ a1) :
    Keeps s₀ (@enterService a0 a1) := by
  unfold enterService
  repeat' first
    | with_reducible assumption
    | with_reducible apply State.setGrp_keeps
    | with_reducible apply fixHome_keeps
    | with_reducible apply sendConfig_keeps
    | with_reducible apply autoBalance_keeps
    | with_reducible apply drain_keeps
    | with_reducible apply Keeps.ite

theorem leaveService_keeps {s₀ : State} {a0 : State} (a1 : ℕ) (h0 : Keeps s₀ a0) :
    Keeps s₀ (@leaveService a0 a1) := by
  unfold leaveService
  repeat' first
    | with_reducible assumption
    | with_reducible apply State.modGrp_keeps
    | with_reducible apply fixHome_keeps
    | with_reducible apply wholeRetrain_keeps
    | with_reducible apply drain_keeps
    | with_reducible apply autoBalance_keeps
    | with_reducible apply Keeps.ite

theorem dropTurn_keeps {s₀ : State} {a0 : State} (h0 : Keeps s₀ a0) :
    Keeps s₀ (@dropTurn a0) := by
  unfold dropTurn
  repeat' first
    | with_reducible assumption
    | with_reducible exact Keeps.refl _
    | with_reducible apply State.wr_keeps
    | with_reducible apply State.inc_keeps
    | with_reducible refine Keeps.foldl ?_ (fun u x hu => ?_)
    | with_reducible apply Keeps.ite
    | with_reducible apply Keeps.ite1
    | with_reducible apply Keeps.ite2
    | with_reducible apply Keeps.ite22
    | (lift_lets; intro x; refine Keeps.cut (x := x) ?_ (fun hx => ?_))
    | (lift_lets; intro x)
    | split
    | dsimp only
    | dsimp only [x]
    | (with_reducible apply Keeps.mk; with_reducible assumption)

theorem abandonTurn_keeps {s₀ : State} {a0 : State} (a1 : Code) (h0 : Keeps s₀ a0) :
    Keeps s₀ (@abandonTurn a0 a1) := by
  unfold abandonTurn
  repeat' first
    | with_reducible assumption
    | with_reducible exact Keeps.refl _
    | with_reducible apply dropTurn_keeps
    | with_reducible apply State.wr_keeps
    | with_reducible apply State.wr_keeps
    | with_reducible apply State.inc_keeps
    | with_reducible refine Keeps.foldl ?_ (fun u x hu => ?_)
    | with_reducible apply Keeps.ite
    | with_reducible apply Keeps.ite1
    | with_reducible apply Keeps.ite2
    | with_reducible apply Keeps.ite22
    | (lift_lets; intro x; refine Keeps.cut (x := x) ?_ (fun hx => ?_))
    | (lift_lets; intro x)
    | split
    | dsimp only
    | dsimp only [x]
    | (with_reducible apply Keeps.mk; with_reducible assumption)

theorem abandonTurnOf_keeps {s₀ : State} {a0 : State} (a1 : ℕ) (h0 : Keeps s₀ a0) :
    Keeps s₀ (@abandonTurnOf a0 a1) := by
  unfold abandonTurnOf
  exact .ite (abandonTurn_keeps _ h0) h0

theorem groupLostWith_keeps {s₀ : State} (a0 : Bool) (a1 : ℕ) (a2 : ℕ) {a3 : State} (h3 : Keeps s₀ a3) :
    Keeps s₀ (@groupLostWith a0 a1 a2 a3) := by
  unfold groupLostWith
  repeat' first
    | with_reducible assumption
    | with_reducible exact Keeps.refl _
    | with_reducible apply State.inc_keeps
    | with_reducible apply State.raise_keeps
    | with_reducible apply State.modGrp_keeps
    | with_reducible apply groupDetect_keeps
    | with_reducible apply abandonTurnOf_keeps
    | with_reducible apply leaveService_keeps
    | with_reducible apply State.wr_keeps
    | with_reducible apply State.inc_keeps
    | with_reducible refine Keeps.foldl ?_ (fun u x hu => ?_)
    | with_reducible apply Keeps.ite
    | with_reducible apply Keeps.ite1
    | with_reducible apply Keeps.ite2
    | with_reducible apply Keeps.ite22
    | (lift_lets; intro x; refine Keeps.cut (x := x) ?_ (fun hx => ?_))
    | (lift_lets; intro x)
    | split
    | dsimp only
    | dsimp only [x]
    | (with_reducible apply Keeps.mk; with_reducible first | assumption | exact Keeps.refl _ | refine Keeps.foldl ?_ (fun u x hu => ?_) | apply Keeps.ite | apply State.inc_keeps | apply State.raise_keeps | apply State.modGrp_keeps)

theorem groupLost_keeps {s₀ : State} (a0 : ℕ) (a1 : ℕ) {a2 : State} (h2 : Keeps s₀ a2) :
    Keeps s₀ (@groupLost a0 a1 a2) := by
  unfold groupLost
  repeat' first
    | with_reducible assumption
    | with_reducible exact Keeps.refl _
    | with_reducible apply groupLostWith_keeps

theorem withdraw_keeps {s₀ : State} (a0 : ℕ) (a1 : Bool) {a2 : State} (h2 : Keeps s₀ a2) :
    Keeps s₀ (@withdraw a0 a1 a2) := by
  unfold withdraw
  repeat' first
    | split
    | (with_reducible apply Keeps.mk; with_reducible first | assumption | exact Keeps.refl _ | refine Keeps.foldl ?_ (fun u x hu => ?_) | apply Keeps.ite | apply State.modGrp_keeps | apply groupDetect_keeps | apply abandonTurnOf_keeps | apply leaveService_keeps)

theorem groupLostByPartner_keeps {s₀ : State} (a0 : Bool) (a1 : ℕ) {a2 : State} (h2 : Keeps s₀ a2) :
    Keeps s₀ (@groupLostByPartner a0 a1 a2) := by
  unfold groupLostByPartner
  repeat' first
    | with_reducible assumption
    | with_reducible exact Keeps.refl _
    | with_reducible apply State.draw_keeps
    | (with_reducible apply State.draw_keeps_eq; on_goal 1 => with_reducible assumption)
    | with_reducible apply groupLostWith_keeps

theorem resendItems_keeps {s₀ : State} {a0 : State} (a1 : List TxFlit) (h0 : Keeps s₀ a0) :
    Keeps s₀ (@resendItems a0 a1) := by
  unfold resendItems
  repeat' first
    | with_reducible assumption
    | with_reducible exact Keeps.refl _
    | with_reducible apply sendConfig_keeps
    | with_reducible apply State.wr_keeps
    | with_reducible apply State.inc_keeps
    | with_reducible refine Keeps.foldl ?_ (fun u x hu => ?_)
    | with_reducible apply Keeps.ite
    | with_reducible apply Keeps.ite1
    | with_reducible apply Keeps.ite2
    | with_reducible apply Keeps.ite22
    | (lift_lets; intro x; refine Keeps.cut (x := x) ?_ (fun hx => ?_))
    | (lift_lets; intro x)
    | split
    | dsimp only
    | dsimp only [x]
    | (with_reducible apply Keeps.mk; with_reducible assumption)

theorem resendLost_keeps {s₀ : State} (a0 : ℕ) (a1 : ℕ) {a2 : State} (h2 : Keeps s₀ a2) :
    Keeps s₀ (@resendLost a0 a1 a2) := by
  unfold resendLost
  repeat' first
    | with_reducible assumption
    | with_reducible exact Keeps.refl _
    | with_reducible apply groupLostByPartner_keeps
    | with_reducible apply State.modGrp_keeps
    | with_reducible apply drain_keeps
    | with_reducible apply resendItems_keeps
    | with_reducible apply State.wr_keeps
    | with_reducible apply State.inc_keeps
    | with_reducible refine Keeps.foldl ?_ (fun u x hu => ?_)
    | with_reducible apply Keeps.ite
    | with_reducible apply Keeps.ite1
    | with_reducible apply Keeps.ite2
    | with_reducible apply Keeps.ite22
    | (lift_lets; intro x; refine Keeps.cut (x := x) ?_ (fun hx => ?_))
    | (lift_lets; intro x)
    | split
    | dsimp only
    | dsimp only [x]
    | (with_reducible apply Keeps.mk; with_reducible first | assumption | exact Keeps.refl _ | refine Keeps.foldl ?_ (fun u x hu => ?_) | apply Keeps.ite | apply groupLostByPartner_keeps | apply State.modGrp_keeps)

theorem ackTo_keeps {s₀ : State} {a0 : State} (a1 : ℕ) (a2 : ℕ) (h0 : Keeps s₀ a0) :
    Keeps s₀ (@ackTo a0 a1 a2) := by
  unfold ackTo
  repeat' first
    | with_reducible assumption
    | with_reducible apply State.setGrp_keeps
    | (lift_lets; intro x)
    | split

theorem countEpisode_keeps {s₀ : State} {a0 : State} (a1 : ℕ) (h0 : Keeps s₀ a0) :
    Keeps s₀ (@countEpisode a0 a1) := by
  unfold countEpisode
  repeat' first
    | with_reducible assumption
    | with_reducible apply State.inc_keeps
    | with_reducible apply State.setGrp_keeps
    | with_reducible apply State.raise_keeps
    | with_reducible apply Keeps.ite

theorem replayFrom_keeps {s₀ : State} {a0 : State} (a1 : ℕ) (a2 : ℕ) (h0 : Keeps s₀ a0) :
    Keeps s₀ (@replayFrom a0 a1 a2) := by
  unfold replayFrom
  repeat' first
    | with_reducible assumption
    | with_reducible exact Keeps.refl _
    | with_reducible apply countEpisode_keeps
    | with_reducible apply emit_keeps
    | with_reducible apply State.setGrp_keeps
    | with_reducible apply State.wr_keeps
    | with_reducible apply State.inc_keeps
    | with_reducible refine Keeps.foldl ?_ (fun u x hu => ?_)
    | with_reducible apply Keeps.ite
    | with_reducible apply Keeps.ite1
    | with_reducible apply Keeps.ite2
    | with_reducible apply Keeps.ite22
    | (lift_lets; intro x; refine Keeps.cut (x := x) ?_ (fun hx => ?_))
    | (lift_lets; intro x)
    | split

theorem tryLast_keeps {s₀ : State} {a0 : State} (h0 : Keeps s₀ a0) :
    Keeps s₀ (@tryLast a0) := by
  unfold tryLast
  repeat' first
    | with_reducible assumption
    | with_reducible exact Keeps.refl _
    | with_reducible apply sendFlit_keeps
    | with_reducible apply State.wr_keeps
    | with_reducible apply State.inc_keeps
    | with_reducible refine Keeps.foldl ?_ (fun u x hu => ?_)
    | with_reducible apply Keeps.ite
    | with_reducible apply Keeps.ite1
    | with_reducible apply Keeps.ite2
    | with_reducible apply Keeps.ite22
    | (lift_lets; intro x; refine Keeps.cut (x := x) ?_ (fun hx => ?_))
    | (lift_lets; intro x)
    | split
    | dsimp only
    | dsimp only [x]
    | (with_reducible apply Keeps.mk; with_reducible first | assumption | exact Keeps.refl _ | refine Keeps.foldl ?_ (fun u x hu => ?_) | apply Keeps.ite | apply sendFlit_keeps)

theorem receiveNak_keeps {s₀ : State} (a0 : ℕ) (a1 : ℕ) {a2 : State} (h2 : Keeps s₀ a2) :
    Keeps s₀ (@receiveNak a0 a1 a2) := by
  unfold receiveNak
  repeat' first
    | with_reducible assumption
    | with_reducible exact Keeps.refl _
    | with_reducible apply drain_keeps
    | with_reducible apply tryLast_keeps
    | with_reducible apply replayFrom_keeps
    | with_reducible apply State.wr_keeps
    | with_reducible apply State.inc_keeps
    | with_reducible refine Keeps.foldl ?_ (fun u x hu => ?_)
    | with_reducible apply Keeps.ite
    | with_reducible apply Keeps.ite1
    | with_reducible apply Keeps.ite2
    | with_reducible apply Keeps.ite22
    | split

theorem sendNak_keeps {s₀ : State} {a0 : State} (a1 : ℕ) (h0 : Keeps s₀ a0) :
    Keeps s₀ (@sendNak a0 a1) := by
  unfold sendNak
  repeat' first
    | with_reducible assumption
    | with_reducible apply State.inc_keeps
    | with_reducible apply State.setGrp_keeps
    | with_reducible apply sendItem_keeps
    | with_reducible apply groupLost_keeps
    | with_reducible apply Keeps.ite

theorem protocolError_keeps {s₀ : State} {a0 : State} (a1 : ℕ) (h0 : Keeps s₀ a0) :
    Keeps s₀ (@protocolError a0 a1) := by
  unfold protocolError
  repeat' first
    | with_reducible assumption
    | with_reducible apply groupLost_keeps
    | with_reducible apply State.inc_keeps

theorem countFec_keeps {s₀ : State} {a0 : State} (a1 : ℕ) (a2 : List ℕ) (h0 : Keeps s₀ a0) :
    Keeps s₀ (@countFec a0 a1 a2) := by
  unfold countFec
  repeat' first
    | with_reducible assumption
    | with_reducible apply State.inc_keeps
    | with_reducible apply State.setGrp_keeps
    | with_reducible apply State.modGrp_keeps
    | with_reducible refine Keeps.foldl ?_ (fun u x hu => ?_)
    | with_reducible apply Keeps.ite

theorem turnDone_keeps {s₀ : State} {a0 : State} (a1 : Turn) (h0 : Keeps s₀ a0) :
    Keeps s₀ (@turnDone a0 a1) := by
  unfold turnDone
  repeat' first
    | with_reducible assumption
    | with_reducible exact Keeps.refl _
    | with_reducible apply State.modGrp_keeps
    | with_reducible apply State.inc_keeps
    | with_reducible apply State.wr_keeps
    | with_reducible apply spareStream_keeps
    | with_reducible apply drain_keeps
    | with_reducible apply fixHome_keeps
    | with_reducible apply withdraw_keeps
    | with_reducible apply wholeRetrain_keeps
    | with_reducible apply autoBalance_keeps
    | with_reducible apply State.wr_keeps
    | with_reducible apply State.inc_keeps
    | with_reducible refine Keeps.foldl ?_ (fun u x hu => ?_)
    | with_reducible apply Keeps.ite
    | with_reducible apply Keeps.ite1
    | with_reducible apply Keeps.ite2
    | with_reducible apply Keeps.ite22
    | (lift_lets; intro x; refine Keeps.cut (x := x) ?_ (fun hx => ?_))
    | (lift_lets; intro x)
    | split
    | dsimp only
    | dsimp only [x]
    | (with_reducible apply Keeps.mk; with_reducible first | assumption | exact Keeps.refl _ | refine Keeps.foldl ?_ (fun u x hu => ?_) | apply Keeps.ite | apply State.modGrp_keeps | apply State.inc_keeps | apply State.wr_keeps)

theorem startAccepted_keeps {s₀ : State} {a0 : State} (a1 : ℕ) (h0 : Keeps s₀ a0) :
    Keeps s₀ (@startAccepted a0 a1) := by
  unfold startAccepted
  repeat' first
    | with_reducible assumption
    | with_reducible apply State.setGrp_keeps
    | with_reducible apply State.raise_keeps
    | with_reducible apply State.inc_keeps
    | with_reducible apply turnDone_keeps
    | split
    | dsimp only

theorem receiveFlit_keeps {s₀ : State} {a0 : State} (a1 : ℕ) (a2 : List Byte) (h0 : Keeps s₀ a0) :
    Keeps s₀ (@receiveFlit a0 a1 a2).1 := by
  unfold receiveFlit
  repeat' first
    | with_reducible apply Keeps.ite1
    | split
    | dsimp only
    | (with_reducible apply Keeps.mk; with_reducible first | assumption | exact Keeps.refl _ | refine Keeps.foldl ?_ (fun u x hu => ?_) | apply Keeps.ite | apply State.inc_keeps | apply sendNak_keeps | apply countFec_keeps | apply protocolError_keeps | apply State.modGrp_keeps | apply startAccepted_keeps)

theorem receiveFlit_keeps_eq {s₀ : State} {a0 : State} (a1 : ℕ) (a2 : List Byte) {r0 : State} {r1 : Option (List Byte)}
    (e : @receiveFlit a0 a1 a2 = (r0, r1)) (h0 : Keeps s₀ a0) : Keeps s₀ r0 := by
  have := receiveFlit_keeps a1 a2 h0
  rw [e] at this
  exact this

theorem sendStatus_keeps {s₀ : State} {a0 : State} (h0 : Keeps s₀ a0) :
    Keeps s₀ (@sendStatus a0) := by
  unfold sendStatus
  repeat' first
    | (with_reducible apply Keeps.mk; with_reducible first | assumption | exact Keeps.refl _ | refine Keeps.foldl ?_ (fun u x hu => ?_) | apply Keeps.ite | apply State.modGrp_keeps | apply sendItem_keeps)

theorem receiveStatus_keeps {s₀ : State} (a0 : ℕ) (a1 : List ℕ) (a2 : ℕ) (a3 : ℕ) {a4 : State} (h4 : Keeps s₀ a4) :
    Keeps s₀ (@receiveStatus a0 a1 a2 a3 a4) := by
  unfold receiveStatus
  repeat' first
    | with_reducible assumption
    | with_reducible exact Keeps.refl _
    | with_reducible apply ackTo_keeps
    | with_reducible apply drain_keeps
    | with_reducible apply tryLast_keeps
    | with_reducible apply State.wr_keeps
    | with_reducible apply State.inc_keeps
    | with_reducible refine Keeps.foldl ?_ (fun u x hu => ?_)
    | with_reducible apply Keeps.ite
    | with_reducible apply Keeps.ite1
    | with_reducible apply Keeps.ite2
    | with_reducible apply Keeps.ite22
    | (lift_lets; intro x; refine Keeps.cut (x := x) ?_ (fun hx => ?_))
    | (lift_lets; intro x)
    | split
    | dsimp only
    | dsimp only [x]
    | (with_reducible apply Keeps.mk; with_reducible first | assumption | exact Keeps.refl _ | refine Keeps.foldl ?_ (fun u x hu => ?_))

theorem releaseVc0_keeps {s₀ : State} {a0 : State} (a1 : ℕ) (a2 : ℕ) (h0 : Keeps s₀ a0) :
    Keeps s₀ (@releaseVc0 a0 a1 a2) := by
  unfold releaseVc0
  repeat' first
    | (with_reducible apply Keeps.mk; with_reducible assumption)

theorem releaseVc2_keeps {s₀ : State} {a0 : State} (a1 : ℕ) (a2 : ℕ) (h0 : Keeps s₀ a0) :
    Keeps s₀ (@releaseVc2 a0 a1 a2) := by
  unfold releaseVc2
  repeat' first
    | (with_reducible apply Keeps.mk; with_reducible assumption)

theorem holdVc0_keeps {s₀ : State} {a0 : State} (a1 : ℕ) (a2 : ℕ) (h0 : Keeps s₀ a0) :
    Keeps s₀ (@holdVc0 a0 a1 a2) := by
  unfold holdVc0
  repeat' first
    | (with_reducible apply Keeps.mk; with_reducible assumption)

theorem holdVc2_keeps {s₀ : State} {a0 : State} (a1 : ℕ) (a2 : ℕ) (h0 : Keeps s₀ a0) :
    Keeps s₀ (@holdVc2 a0 a1 a2) := by
  unfold holdVc2
  repeat' first
    | (with_reducible apply Keeps.mk; with_reducible assumption)

theorem receiveConfig_keeps {s₀ : State} (a0 : ℕ) (a1 : ℕ) {a2 : State} (h2 : Keeps s₀ a2) :
    Keeps s₀ (@receiveConfig a0 a1 a2) := by
  unfold receiveConfig
  refine autoBalance_keeps ?_
  repeat' first
    | (with_reducible apply Keeps.mk; with_reducible first | assumption | exact Keeps.refl _ | refine Keeps.foldl ?_ (fun u x hu => ?_) | apply Keeps.ite | apply drain_keeps)

theorem remapWithout_keeps {s₀ : State} {a0 : State} (a1 : ℕ) (a2 : ℕ) (h0 : Keeps s₀ a0) :
    Keeps s₀ (@remapWithout a0 a1 a2) := by
  unfold remapWithout
  repeat' first
    | with_reducible assumption
    | with_reducible exact Keeps.refl _
    | with_reducible apply endTest_keeps
    | with_reducible apply State.modGrp_keeps
    | with_reducible apply stopInjection_keeps
    | with_reducible apply State.wr_keeps
    | with_reducible apply State.inc_keeps
    | with_reducible refine Keeps.foldl ?_ (fun u x hu => ?_)
    | with_reducible apply Keeps.ite
    | with_reducible apply Keeps.ite1
    | with_reducible apply Keeps.ite2
    | with_reducible apply Keeps.ite22
    | split

theorem laneFails_keeps {s₀ : State} (a0 : ℕ) (a1 : ℕ) {a2 : State} (h2 : Keeps s₀ a2) :
    Keeps s₀ (@laneFails a0 a1 a2) := by
  unfold laneFails
  repeat' first
    | with_reducible assumption
    | with_reducible exact Keeps.refl _
    | with_reducible apply State.inc_keeps
    | with_reducible apply remapWithout_keeps
    | with_reducible apply sendItem_keeps
    | with_reducible apply State.modGrp_keeps
    | with_reducible apply groupLost_keeps
    | with_reducible apply State.wr_keeps
    | with_reducible apply State.inc_keeps
    | with_reducible refine Keeps.foldl ?_ (fun u x hu => ?_)
    | with_reducible apply Keeps.ite
    | with_reducible apply Keeps.ite1
    | with_reducible apply Keeps.ite2
    | with_reducible apply Keeps.ite22
    | (lift_lets; intro x; refine Keeps.cut (x := x) ?_ (fun hx => ?_))
    | (lift_lets; intro x)
    | split
    | dsimp only
    | dsimp only [x]
    | (with_reducible apply Keeps.mk; with_reducible first | assumption | exact Keeps.refl _ | refine Keeps.foldl ?_ (fun u x hu => ?_) | apply Keeps.ite | apply State.inc_keeps | apply remapWithout_keeps)

theorem laneDetect_keeps {s₀ : State} (a0 : ℕ) (a1 : ℕ) (a2 : Bool) {a3 : State} (h3 : Keeps s₀ a3) :
    Keeps s₀ (@laneDetect a0 a1 a2 a3) := by
  unfold laneDetect
  repeat' first
    | with_reducible assumption
    | with_reducible exact Keeps.refl _
    | with_reducible apply laneFails_keeps
    | with_reducible apply State.wr_keeps
    | with_reducible apply State.modGrp_keeps
    | with_reducible apply State.wr_keeps
    | with_reducible apply State.inc_keeps
    | with_reducible refine Keeps.foldl ?_ (fun u x hu => ?_)
    | with_reducible apply Keeps.ite

theorem fecFails_keeps {s₀ : State} (a0 : ℕ) {a1 : State} (h1 : Keeps s₀ a1) :
    Keeps s₀ (@fecFails a0 a1) := by
  unfold fecFails
  repeat' first
    | with_reducible assumption
    | with_reducible exact Keeps.refl _
    | with_reducible apply laneFails_keeps
    | with_reducible apply State.modGrp_keeps
    | with_reducible apply State.wr_keeps
    | with_reducible apply State.inc_keeps
    | with_reducible refine Keeps.foldl ?_ (fun u x hu => ?_)
    | with_reducible apply Keeps.ite

theorem spareItem_keeps {s₀ : State} (a0 : ℕ) (a1 : ℕ) (a2 : ℕ) {a3 : State} (h3 : Keeps s₀ a3) :
    Keeps s₀ (@spareItem a0 a1 a2 a3) := by
  unfold spareItem
  repeat' first
    | with_reducible assumption
    | with_reducible exact Keeps.refl _
    | with_reducible apply groupLost_keeps
    | with_reducible apply State.inc_keeps
    | with_reducible apply remapWithout_keeps
    | with_reducible apply State.raise_keeps
    | with_reducible apply State.modGrp_keeps
    | with_reducible apply replayFrom_keeps
    | with_reducible apply drain_keeps
    | with_reducible apply tryLast_keeps
    | with_reducible apply sendFlit_keeps
    | with_reducible apply State.wr_keeps
    | with_reducible apply State.inc_keeps
    | with_reducible refine Keeps.foldl ?_ (fun u x hu => ?_)
    | with_reducible apply Keeps.ite
    | with_reducible apply Keeps.ite1
    | with_reducible apply Keeps.ite2
    | with_reducible apply Keeps.ite22
    | (lift_lets; intro x; refine Keeps.cut (x := x) ?_ (fun hx => ?_))
    | (lift_lets; intro x)
    | split
    | dsimp only
    | dsimp only [x]
    | (with_reducible apply Keeps.mk; with_reducible first | assumption | exact Keeps.refl _ | refine Keeps.foldl ?_ (fun u x hu => ?_) | apply Keeps.ite | apply groupLost_keeps | apply State.inc_keeps | apply remapWithout_keeps | apply State.raise_keeps | apply State.modGrp_keeps | apply replayFrom_keeps | apply drain_keeps | apply tryLast_keeps | apply sendFlit_keeps)

theorem spareDead_keeps {s₀ : State} (a0 : ℕ) (a1 : ℕ) {a2 : State} (h2 : Keeps s₀ a2) :
    Keeps s₀ (@spareDead a0 a1 a2) := by
  unfold spareDead
  repeat' first
    | with_reducible assumption
    | with_reducible apply State.raise_keeps
    | with_reducible apply State.modGrp_keeps
    | with_reducible apply Keeps.ite

theorem beginTurn_keeps {s₀ : State} {a0 : State} (a1 : Turn) (h0 : Keeps s₀ a0) :
    Keeps s₀ (@beginTurn a0 a1) := by
  unfold beginTurn
  repeat' first
    | with_reducible assumption
    | with_reducible exact Keeps.refl _
    | with_reducible apply State.modGrp_keeps
    | with_reducible apply dropTurn_keeps
    | with_reducible apply drain_keeps
    | with_reducible apply tryLast_keeps
    | with_reducible apply fixHome_keeps
    | with_reducible apply State.wr_keeps
    | with_reducible apply State.inc_keeps
    | with_reducible refine Keeps.foldl ?_ (fun u x hu => ?_)
    | with_reducible apply Keeps.ite
    | with_reducible apply Keeps.ite1
    | with_reducible apply Keeps.ite2
    | with_reducible apply Keeps.ite22
    | (lift_lets; intro x; refine Keeps.cut (x := x) ?_ (fun hx => ?_))
    | (lift_lets; intro x)
    | split
    | dsimp only
    | dsimp only [x]
    | (with_reducible apply Keeps.mk; with_reducible first | assumption | exact Keeps.refl _ | refine Keeps.foldl ?_ (fun u x hu => ?_) | apply Keeps.ite | apply State.modGrp_keeps)

theorem receiveTurn_keeps {s₀ : State} (a0 : ℕ) (a1 : Bool) (a2 : ℕ) {a3 : State} (h3 : Keeps s₀ a3) :
    Keeps s₀ (@receiveTurn a0 a1 a2 a3) := by
  unfold receiveTurn
  repeat' first
    | with_reducible assumption
    | with_reducible exact Keeps.refl _
    | with_reducible apply dropTurn_keeps
    | with_reducible apply State.wr_keeps
    | with_reducible apply sendVc2_keeps
    | with_reducible apply beginTurn_keeps
    | with_reducible apply State.wr_keeps
    | with_reducible apply State.inc_keeps
    | with_reducible refine Keeps.foldl ?_ (fun u x hu => ?_)
    | with_reducible apply Keeps.ite

theorem receiveTurnAck_keeps {s₀ : State} (a0 : ℕ) (a1 : ℕ) {a2 : State} (h2 : Keeps s₀ a2) :
    Keeps s₀ (@receiveTurnAck a0 a1 a2) := by
  unfold receiveTurnAck
  repeat' first
    | with_reducible assumption
    | with_reducible exact Keeps.refl _
    | with_reducible apply beginTurn_keeps
    | with_reducible apply dropTurn_keeps
    | with_reducible apply State.wr_keeps
    | with_reducible apply State.wr_keeps
    | with_reducible apply State.inc_keeps
    | with_reducible refine Keeps.foldl ?_ (fun u x hu => ?_)
    | with_reducible apply Keeps.ite
    | with_reducible apply Keeps.ite1
    | with_reducible apply Keeps.ite2
    | with_reducible apply Keeps.ite22
    | split

theorem turnAckTimeout_keeps {s₀ : State} {a0 : State} (h0 : Keeps s₀ a0) :
    Keeps s₀ (@turnAckTimeout a0) := by
  unfold turnAckTimeout
  repeat' first
    | with_reducible assumption
    | with_reducible exact Keeps.refl _
    | with_reducible apply autoBalance_keeps
    | with_reducible apply dropTurn_keeps
    | with_reducible apply State.wr_keeps
    | with_reducible apply State.wr_keeps
    | with_reducible apply State.inc_keeps
    | with_reducible refine Keeps.foldl ?_ (fun u x hu => ?_)
    | with_reducible apply Keeps.ite
    | with_reducible apply Keeps.ite1
    | with_reducible apply Keeps.ite2
    | with_reducible apply Keeps.ite22
    | split

theorem turnLastAccept_keeps {s₀ : State} {a0 : State} (h0 : Keeps s₀ a0) :
    Keeps s₀ (@turnLastAccept a0) := by
  unfold turnLastAccept
  repeat' first
    | with_reducible assumption
    | with_reducible exact Keeps.refl _
    | with_reducible apply State.modGrp_keeps
    | with_reducible apply sendStatus_keeps
    | with_reducible apply State.wr_keeps
    | with_reducible apply State.inc_keeps
    | with_reducible refine Keeps.foldl ?_ (fun u x hu => ?_)
    | with_reducible apply Keeps.ite
    | with_reducible apply Keeps.ite1
    | with_reducible apply Keeps.ite2
    | with_reducible apply Keeps.ite22
    | (lift_lets; intro x; refine Keeps.cut (x := x) ?_ (fun hx => ?_))
    | (lift_lets; intro x)
    | split
    | dsimp only
    | dsimp only [x]
    | (with_reducible apply Keeps.mk; with_reducible first | assumption | exact Keeps.refl _ | refine Keeps.foldl ?_ (fun u x hu => ?_) | apply Keeps.ite | apply State.modGrp_keeps | apply sendStatus_keeps)

theorem turnSquelch_keeps {s₀ : State} {a0 : State} (h0 : Keeps s₀ a0) :
    Keeps s₀ (@turnSquelch a0) := by
  unfold turnSquelch
  repeat' first
    | split
    | (with_reducible apply Keeps.mk; with_reducible first | assumption | exact Keeps.refl _ | refine Keeps.foldl ?_ (fun u x hu => ?_) | apply Keeps.ite | apply State.modGrp_keeps | apply turnDone_keeps | apply sendFlit_keeps)

theorem turnCdrLock_keeps {s₀ : State} (a0 : ℕ) {a1 : State} (h1 : Keeps s₀ a1) :
    Keeps s₀ (@turnCdrLock a0 a1) := by
  unfold turnCdrLock
  repeat' first
    | (lift_lets; intro x)
    | split
    | dsimp only [x]
    | (with_reducible apply Keeps.mk; with_reducible first | assumption | exact Keeps.refl _ | refine Keeps.foldl ?_ (fun u x hu => ?_) | apply Keeps.ite | apply State.modGrp_keeps | apply State.inc_keeps | apply remapWithout_keeps | apply sendItem_keeps | apply groupLost_keeps)

theorem turnTimeout_keeps {s₀ : State} {a0 : State} (h0 : Keeps s₀ a0) :
    Keeps s₀ (@turnTimeout a0) := by
  unfold turnTimeout
  repeat' first
    | with_reducible assumption
    | with_reducible apply groupLost_keeps
    | with_reducible apply State.wr_keeps
    | split

theorem quietEntry_keeps {s₀ : State} (a0 : ℕ) {a1 : State} (h1 : Keeps s₀ a1) :
    Keeps s₀ (@quietEntry a0 a1) := by
  unfold quietEntry
  repeat' first
    | (with_reducible apply Keeps.mk; with_reducible first | assumption | exact Keeps.refl _ | refine Keeps.foldl ?_ (fun u x hu => ?_) | apply Keeps.ite | apply State.modGrp_keeps)

theorem keepAlive_keeps {s₀ : State} (a0 : ℕ) {a1 : State} (h1 : Keeps s₀ a1) :
    Keeps s₀ (@keepAlive a0 a1) := by
  unfold keepAlive
  repeat' first
    | (with_reducible apply Keeps.mk; with_reducible first | assumption | exact Keeps.refl _ | refine Keeps.foldl ?_ (fun u x hu => ?_) | apply Keeps.ite)

theorem wakePreamble_keeps {s₀ : State} (a0 : ℕ) {a1 : State} (h1 : Keeps s₀ a1) :
    Keeps s₀ (@wakePreamble a0 a1) := by
  unfold wakePreamble
  repeat' first
    | with_reducible assumption
    | with_reducible apply State.modGrp_keeps
    | with_reducible apply Keeps.ite

theorem keepAliveReceive_keeps {s₀ : State} (a0 : ℕ) {a1 : State} (h1 : Keeps s₀ a1) :
    Keeps s₀ (@keepAliveReceive a0 a1) := by
  unfold keepAliveReceive
  repeat' first
    | with_reducible assumption
    | with_reducible apply State.modGrp_keeps
    | with_reducible apply Keeps.ite

theorem enterDeep_keeps {s₀ : State} {a0 : State} (h0 : Keeps s₀ a0) :
    Keeps s₀ (@enterDeep a0) := by
  unfold enterDeep
  repeat' first
    | with_reducible assumption
    | with_reducible exact Keeps.refl _
    | with_reducible apply State.modGrp_keeps
    | with_reducible apply endUse_keeps
    | with_reducible apply groupOff_keeps
    | with_reducible apply State.wr_keeps
    | with_reducible apply State.wr_keeps
    | with_reducible apply State.inc_keeps
    | with_reducible refine Keeps.foldl ?_ (fun u x hu => ?_)
    | with_reducible apply Keeps.ite

theorem driveWake_keeps {s₀ : State} {a0 : State} (h0 : Keeps s₀ a0) :
    Keeps s₀ (@driveWake a0) := by
  unfold driveWake
  repeat' first
    | with_reducible assumption
    | with_reducible exact Keeps.refl _
    | with_reducible apply State.wr_keeps
    | with_reducible apply State.inc_keeps
    | with_reducible refine Keeps.foldl ?_ (fun u x hu => ?_)
    | with_reducible apply Keeps.ite
    | with_reducible apply Keeps.ite1
    | with_reducible apply Keeps.ite2
    | with_reducible apply Keeps.ite22
    | split
    | dsimp only
    | dsimp only [x]
    | (with_reducible apply Keeps.mk; with_reducible assumption)

theorem deepWake_keeps {s₀ : State} {a0 : State} (h0 : Keeps s₀ a0) :
    Keeps s₀ (@deepWake a0) := by
  unfold deepWake
  repeat' first
    | with_reducible assumption
    | with_reducible apply State.modGrp_keeps
    | with_reducible refine Keeps.foldl ?_ (fun u x hu => ?_)
    | with_reducible apply Keeps.ite

theorem resumeDeep_keeps {s₀ : State} (a0 : ℕ) {a1 : State} (h1 : Keeps s₀ a1) :
    Keeps s₀ (@resumeDeep a0 a1) := by
  unfold resumeDeep
  repeat' first
    | with_reducible assumption
    | with_reducible apply drain_keeps
    | with_reducible apply State.modGrp_keeps
    | with_reducible apply Keeps.ite

theorem serviceChange_keeps {s₀ : State} (a0 : ℕ) (a1 : GState) {a2 : State} (h2 : Keeps s₀ a2) :
    Keeps s₀ (@serviceChange a0 a1 a2) := by
  unfold serviceChange
  repeat' first
    | with_reducible assumption
    | with_reducible exact Keeps.refl _
    | with_reducible apply resumeDeep_keeps
    | with_reducible apply enterService_keeps
    | with_reducible apply leaveService_keeps
    | with_reducible apply State.modGrp_keeps
    | with_reducible apply State.wr_keeps
    | with_reducible apply State.inc_keeps
    | with_reducible refine Keeps.foldl ?_ (fun u x hu => ?_)
    | with_reducible apply Keeps.ite

theorem refclkGone_keeps {s₀ : State} {a0 : State} (h0 : Keeps s₀ a0) :
    Keeps s₀ (@refclkGone a0) := by
  unfold refclkGone
  repeat' first
    | with_reducible assumption
    | with_reducible exact Keeps.refl _
    | with_reducible apply State.raiseG_keeps
    | with_reducible apply dropLink_keeps
    | with_reducible apply groupOff_keeps
    | with_reducible apply State.wr_keeps
    | with_reducible apply State.inc_keeps
    | with_reducible refine Keeps.foldl ?_ (fun u x hu => ?_)
    | with_reducible apply Keeps.ite
    | with_reducible apply Keeps.ite1
    | with_reducible apply Keeps.ite2
    | with_reducible apply Keeps.ite22
    | (lift_lets; intro x; refine Keeps.cut (x := x) ?_ (fun hx => ?_))
    | (lift_lets; intro x)
    | split
    | dsimp only
    | dsimp only [x]
    | (with_reducible apply Keeps.mk; with_reducible first | assumption | exact Keeps.refl _ | refine Keeps.foldl ?_ (fun u x hu => ?_) | apply Keeps.ite | apply State.raiseG_keeps)

theorem refclkLoss_keeps {s₀ : State} {a0 : State} (h0 : Keeps s₀ a0) :
    Keeps s₀ (@refclkLoss a0) := by
  unfold refclkLoss
  repeat' first
    | with_reducible assumption
    | with_reducible exact Keeps.refl _
    | with_reducible apply refclkGone_keeps
    | with_reducible apply State.wr_keeps
    | with_reducible apply State.inc_keeps
    | with_reducible refine Keeps.foldl ?_ (fun u x hu => ?_)
    | with_reducible apply Keeps.ite
    | with_reducible apply Keeps.ite1
    | with_reducible apply Keeps.ite2
    | with_reducible apply Keeps.ite22
    | (lift_lets; intro x; refine Keeps.cut (x := x) ?_ (fun hx => ?_))
    | (lift_lets; intro x)
    | split
    | dsimp only
    | dsimp only [x]
    | (with_reducible apply Keeps.mk; with_reducible assumption)

theorem refclkReturn_keeps {s₀ : State} {a0 : State} (h0 : Keeps s₀ a0) :
    Keeps s₀ (@refclkReturn a0) := by
  unfold refclkReturn
  repeat' first
    | (with_reducible apply Keeps.mk; with_reducible first | assumption | exact Keeps.refl _ | refine Keeps.foldl ?_ (fun u x hu => ?_) | apply Keeps.ite | apply groupPowerUp_keeps)

/-! ## Address -/

theorem State.setDmc_keeps {s₀ : State} {a0 : State} (a1 : ℕ) (a2 : Dmc) (h0 : Keeps s₀ a0) :
    Keeps s₀ (@State.setDmc a0 a1 a2) := by
  unfold State.setDmc
  repeat' first
    | (with_reducible apply Keeps.mk; with_reducible assumption)

/-! ## Regulator -/

theorem State.setCtx_keeps {s₀ : State} {a0 : State} (a1 : ℕ) (a2 : Ctx) (h0 : Keeps s₀ a0) :
    Keeps s₀ (@State.setCtx a0 a1 a2) := by
  unfold State.setCtx
  repeat' first
    | (with_reducible apply Keeps.mk; with_reducible assumption)

theorem clearWindow_keeps {s₀ : State} {a0 : State} (a1 : ℕ) (h0 : Keeps s₀ a0) :
    Keeps s₀ (@clearWindow a0 a1) := by
  unfold clearWindow
  repeat' first
    | with_reducible assumption
    | with_reducible apply State.wr_keeps
    | with_reducible refine Keeps.foldl ?_ (fun u x hu => ?_)

theorem ctxRead_keeps {s₀ : State} {a0 : State} (a1 : ℕ) (a2 : ℕ) (h0 : Keeps s₀ a0) :
    Keeps s₀ (@ctxRead a0 a1 a2) := by
  unfold ctxRead
  repeat' first
    | with_reducible assumption
    | with_reducible apply State.wr_keeps
    | with_reducible refine Keeps.foldl ?_ (fun u x hu => ?_)

theorem ctxWrite_keeps {s₀ : State} {a0 : State} (a1 : ℕ) (a2 : ℕ) (a3 : ℕ) (a4 : ℕ) (a5 : ℕ) (a6 : Bool) (h0 : Keeps s₀ a0) :
    Keeps s₀ (@ctxWrite a0 a1 a2 a3 a4 a5 a6) := by
  unfold ctxWrite
  repeat' first
    | with_reducible assumption
    | with_reducible apply State.setCtx_keeps

theorem State.cnt_keeps {s₀ : State} {a0 : State} (a1 : ℕ) (a2 : ℕ) (h0 : Keeps s₀ a0) :
    Keeps s₀ (@State.cnt a0 a1 a2) := by
  unfold State.cnt
  repeat' first
    | (with_reducible apply Keeps.mk; with_reducible assumption)

theorem countBytes_keeps {s₀ : State} {a0 : State} (a1 : Req) (a2 : ℕ) (a3 : ℕ) (h0 : Keeps s₀ a0) :
    Keeps s₀ (@countBytes a0 a1 a2 a3) := by
  unfold countBytes
  repeat' first
    | with_reducible assumption
    | with_reducible apply State.cnt_keeps
    | with_reducible refine Keeps.foldl ?_ (fun u x hu => ?_)
    | with_reducible apply Keeps.ite

theorem noteMiss_keeps {s₀ : State} {a0 : State} (a1 : Req) (h0 : Keeps s₀ a0) :
    Keeps s₀ (@noteMiss a0 a1) := by
  unfold noteMiss
  exact .ite (State.cnt_keeps _ _ h0) h0

theorem sample_keeps {s₀ : State} {a0 : State} (a1 : Req) (h0 : Keeps s₀ a0) :
    Keeps s₀ (@sample a0 a1) := by
  unfold sample
  repeat' first
    | (with_reducible apply Keeps.mk; with_reducible first | assumption | exact Keeps.refl _ | refine Keeps.foldl ?_ (fun u x hu => ?_) | apply Keeps.ite | apply State.setCtx_keeps | apply State.cnt_keeps)

theorem countAdmit_keeps {s₀ : State} {a0 : State} (a1 : ℕ) (a2 : ℕ) (h0 : Keeps s₀ a0) :
    Keeps s₀ (@countAdmit a0 a1 a2) := by
  unfold countAdmit
  repeat' first
    | (with_reducible apply Keeps.mk; with_reducible assumption)

theorem countRange_keeps {s₀ : State} {a0 : State} (a1 : Bool) (a2 : ℕ) (a3 : ℕ) (h0 : Keeps s₀ a0) :
    Keeps s₀ (@countRange a0 a1 a2 a3) := by
  unfold countRange
  exact .ite (countAdmit_keeps _ _ h0) (.mk h0)

theorem putGrants_keeps {s₀ : State} {a0 : State} (a1 : List (ℕ × ℕ)) (h0 : Keeps s₀ a0) :
    Keeps s₀ (@putGrants a0 a1) := by
  unfold putGrants
  repeat' first
    | with_reducible assumption
    | with_reducible apply State.wr_keeps
    | with_reducible refine Keeps.foldl ?_ (fun u x hu => ?_)

theorem putSums_keeps {s₀ : State} {a0 : State} (h0 : Keeps s₀ a0) :
    Keeps s₀ (@putSums a0) := by
  unfold putSums
  repeat' first
    | with_reducible assumption
    | with_reducible apply State.wr_keeps

theorem noteOvc_keeps {s₀ : State} {a0 : State} (a1 : Bool) (a2 : Bool) (h0 : Keeps s₀ a0) :
    Keeps s₀ (@noteOvc a0 a1 a2) := by
  unfold noteOvc
  repeat' first
    | with_reducible assumption
    | with_reducible apply State.raiseG_keeps
    | with_reducible apply Keeps.ite

theorem sRecompute_keeps {s₀ : State} {a0 : State} (h0 : Keeps s₀ a0) :
    Keeps s₀ (@sRecompute a0) := by
  unfold sRecompute
  repeat' first
    | (with_reducible apply Keeps.mk; with_reducible first | assumption | exact Keeps.refl _ | refine Keeps.foldl ?_ (fun u x hu => ?_) | apply Keeps.ite | apply noteOvc_keeps)

theorem reservationWindow_keeps {s₀ : State} {a0 : State} (h0 : Keeps s₀ a0) :
    Keeps s₀ (@reservationWindow a0) := by
  unfold reservationWindow
  repeat' first
    | split
    | dsimp only
    | (with_reducible apply Keeps.mk; with_reducible first | assumption | exact Keeps.refl _ | refine Keeps.foldl ?_ (fun u x hu => ?_) | apply Keeps.ite | apply State.wr_keeps | apply putGrants_keeps)

theorem regStart_keeps {s₀ : State} {a0 : State} (h0 : Keeps s₀ a0) :
    Keeps s₀ (@regStart a0) := by
  unfold regStart
  repeat' first
    | with_reducible apply State.wr_keeps
    | with_reducible apply putSums_keeps
    | with_reducible apply putGrants_keeps
    | (with_reducible apply Keeps.mk; with_reducible first | assumption | exact Keeps.refl _ | refine Keeps.foldl ?_ (fun u x hu => ?_) | apply Keeps.ite | apply State.wr_keeps | apply noteOvc_keeps)

theorem regrant_keeps {s₀ : State} {a0 : State} (h0 : Keeps s₀ a0) :
    Keeps s₀ (@regrant a0) := by
  unfold regrant
  repeat' first
    | (with_reducible apply Keeps.mk; with_reducible first | assumption | exact Keeps.refl _ | refine Keeps.foldl ?_ (fun u x hu => ?_) | apply Keeps.ite | apply putSums_keeps | apply noteOvc_keeps | apply State.wr_keeps)

theorem bowChanged_keeps {s₀ : State} {a0 : State} (a1 : ℕ) (a2 : List (ℕ × ℕ)) (h0 : Keeps s₀ a0) :
    Keeps s₀ (@bowChanged a0 a1 a2) := by
  unfold bowChanged
  repeat' first
    | (with_reducible apply Keeps.mk; with_reducible first | assumption | exact Keeps.refl _ | refine Keeps.foldl ?_ (fun u x hu => ?_) | apply Keeps.ite | apply State.wr_keeps)

theorem bowReset_keeps {s₀ : State} (a0 : ℕ) {a1 : State} (h1 : Keeps s₀ a1) :
    Keeps s₀ (@bowReset a0 a1) := by
  unfold bowReset
  repeat' first
    | split
    | (with_reducible apply Keeps.mk; with_reducible first | assumption | exact Keeps.refl _ | refine Keeps.foldl ?_ (fun u x hu => ?_) | apply Keeps.ite | apply State.wr_keeps)

/-! ## Request -/

theorem setReq_keeps {s₀ : State} {a0 : State} (a1 : Req) (h0 : Keeps s₀ a0) :
    Keeps s₀ (@setReq a0 a1) := by
  refine Keeps.mkSub h0 (ids_map fun q _ => ?_) rfl
  split
  · exact Eq.symm ‹_›
  · rfl

theorem sweep_keeps {s₀ : State} {a0 : State} (h0 : Keeps s₀ a0) :
    Keeps s₀ (@sweep a0) := Keeps.mkSub h0 ids_filter rfl

theorem markPerformed_keeps {s₀ : State} {a0 : State} (a1 : Req) (h0 : Keeps s₀ a0) :
    Keeps s₀ (@markPerformed a0 a1) := by
  unfold markPerformed
  repeat' first
    | with_reducible assumption
    | with_reducible apply countBytes_keeps
    | with_reducible apply setReq_keeps

theorem countPoison_keeps {s₀ : State} {a0 : State} (a1 : ℕ) (a2 : Code) (h0 : Keeps s₀ a0) :
    Keeps s₀ (@countPoison a0 a1 a2) := by
  unfold countPoison
  repeat' first
    | with_reducible assumption
    | with_reducible apply State.inc_keeps
    | with_reducible apply Keeps.ite

theorem forward_keeps {s₀ : State} {a0 : State} (a1 : Req) (h0 : Keeps s₀ a0) :
    Keeps s₀ (@forward a0 a1) := by
  unfold forward
  repeat' first
    | with_reducible assumption
    | with_reducible exact Keeps.refl _
    | with_reducible apply countPoison_keeps
    | with_reducible apply markPerformed_keeps
    | with_reducible apply State.inc_keeps
    | with_reducible apply State.wr_keeps
    | with_reducible apply State.inc_keeps
    | with_reducible refine Keeps.foldl ?_ (fun u x hu => ?_)
    | with_reducible apply Keeps.ite
    | with_reducible apply Keeps.ite1
    | with_reducible apply Keeps.ite2
    | with_reducible apply Keeps.ite22
    | split

theorem waitHazard_keeps {s₀ : State} {a0 : State} (a1 : Req) (h0 : Keeps s₀ a0) :
    Keeps s₀ (@waitHazard a0 a1) := by
  unfold waitHazard
  exact .ite h0 (setReq_keeps _ (State.inc_keeps h0 ..))

theorem settleOne_keeps {s₀ : State} {a0 : State} (a1 : ℕ) (h0 : Keeps s₀ a0) :
    Keeps s₀ (@settleOne a0 a1) := by
  unfold settleOne
  repeat' first
    | with_reducible assumption
    | with_reducible apply markPerformed_keeps
    | with_reducible apply forward_keeps
    | with_reducible apply waitHazard_keeps
    | with_reducible apply State.inc_keeps
    | split

theorem settle_keeps {s₀ : State} {a0 : State} (h0 : Keeps s₀ a0) :
    Keeps s₀ (@settle a0) := by
  unfold settle
  repeat' first
    | with_reducible assumption
    | with_reducible apply sweep_keeps
    | with_reducible apply settleOne_keeps
    | with_reducible refine Keeps.foldl ?_ (fun u x hu => ?_)

theorem reject_keeps {s₀ : State} {a0 : State} (a1 : Vc0) (a2 : Code) (h0 : Keeps s₀ a0) :
    Keeps s₀ (@reject a0 a1 a2) := by
  unfold reject
  repeat' first
    | with_reducible apply releaseVc0_keeps
    | split
    | (with_reducible apply Keeps.mk; with_reducible first | assumption | exact Keeps.refl _ | refine Keeps.foldl ?_ (fun u x hu => ?_) | apply Keeps.ite | apply State.inc_keeps | apply State.wr_keeps)

theorem admitPacket_keeps {s₀ : State} {a0 : State} (a1 : ROp) (a2 : Vc0) (a3 : Issuer) (a4 : List (ℕ × ℕ)) (h0 : Keeps s₀ a0) :
    Keeps s₀ (@admitPacket a0 a1 a2 a3 a4) := by
  unfold admitPacket
  extract_lets id dev zeroMask full o' p' cpl r s1 q s2
  have h1 : Keeps s₀ s1 := .ite (countAdmit_keeps _ _ (State.wr_keeps h0 ..)) h0
  have e1 : s1.rqe = a0.rqe := by
    dsimp only [s1]
    split <;> rfl
  have h2 : Keeps s₀ s2 := h1.upd ⟨rfl, rfl, rfl, rfl, rfl⟩ fun k => k.push r (congrArg Rqe.nextId e1).symm rfl
    (congrArg (fun x => Rqe.nextId x + 1) e1).symm
  clear_value s2
  exact settle_keeps h2

theorem countTaken_keeps {s₀ : State} {a0 : State} (h0 : Keeps s₀ a0) :
    Keeps s₀ (@countTaken a0) := by
  unfold countTaken
  repeat' first
    | with_reducible assumption
    | with_reducible exact Keeps.refl _
    | with_reducible apply State.wr_keeps
    | with_reducible apply State.inc_keeps
    | with_reducible refine Keeps.foldl ?_ (fun u x hu => ?_)
    | with_reducible apply Keeps.ite
    | with_reducible apply Keeps.ite1
    | with_reducible apply Keeps.ite2
    | with_reducible apply Keeps.ite22
    | (lift_lets; intro x; refine Keeps.cut (x := x) ?_ (fun hx => ?_))
    | (lift_lets; intro x)
    | split
    | dsimp only
    | dsimp only [x]
    | (with_reducible apply Keeps.mk; with_reducible assumption)

theorem takePacket_keeps {s₀ : State} {a0 : State} (a1 : Vc0) (h0 : Keeps s₀ a0) :
    Keeps s₀ (@takePacket a0 a1).1 := by
  unfold takePacket
  repeat' first
    | with_reducible assumption
    | with_reducible exact Keeps.refl _
    | with_reducible apply releaseVc0_keeps
    | with_reducible apply admitPacket_keeps
    | with_reducible apply countTaken_keeps
    | with_reducible apply reject_keeps
    | with_reducible apply State.wr_keeps
    | with_reducible apply State.inc_keeps
    | with_reducible refine Keeps.foldl ?_ (fun u x hu => ?_)
    | with_reducible apply Keeps.ite
    | with_reducible apply Keeps.ite1
    | with_reducible apply Keeps.ite2
    | with_reducible apply Keeps.ite22
    | split

theorem takePacket_keeps_eq {s₀ : State} {a0 : State} (a1 : Vc0) {r0 : State} {r1 : Bool}
    (e : @takePacket a0 a1 = (r0, r1)) (h0 : Keeps s₀ a0) : Keeps s₀ r0 := by
  have := takePacket_keeps a1 h0
  rw [e] at this
  exact this

theorem headWaits_keeps {s₀ : State} {a0 : State} (a1 : ℕ) (h0 : Keeps s₀ a0) :
    Keeps s₀ (@headWaits a0 a1) := by
  unfold headWaits
  repeat' first
    | with_reducible assumption
    | with_reducible exact Keeps.refl _
    | with_reducible apply State.wr_keeps
    | with_reducible apply State.inc_keeps
    | with_reducible refine Keeps.foldl ?_ (fun u x hu => ?_)
    | with_reducible apply Keeps.ite
    | with_reducible apply Keeps.ite1
    | with_reducible apply Keeps.ite2
    | with_reducible apply Keeps.ite22
    | (lift_lets; intro x; refine Keeps.cut (x := x) ?_ (fun hx => ?_))
    | (lift_lets; intro x)
    | split
    | dsimp only
    | dsimp only [x]
    | (with_reducible apply Keeps.mk; with_reducible assumption)

theorem takeWaiting_keeps {s₀ : State} (a0 : ℕ) {a1 : State} (a2 : ℕ) (h1 : Keeps s₀ a1) :
    Keeps s₀ (@takeWaiting a0 a1 a2) := by
  induction a0 generalizing a1 a2 with
  | zero => exact h1
  | succ n ih =>
    unfold takeWaiting
    repeat' first
      | with_reducible apply ih
      | with_reducible assumption
      | with_reducible exact Keeps.refl _
      | with_reducible apply takePacket_keeps
      | (with_reducible apply takePacket_keeps_eq; on_goal 1 => with_reducible assumption)
      | with_reducible apply headWaits_keeps
      | with_reducible apply State.wr_keeps
      | with_reducible apply State.inc_keeps
      | with_reducible refine Keeps.foldl ?_ (fun u x hu => ?_)
      | with_reducible apply Keeps.ite
      | with_reducible apply Keeps.ite1
      | with_reducible apply Keeps.ite2
      | with_reducible apply Keeps.ite22
      | (lift_lets; intro x; refine Keeps.cut (x := x) ?_ (fun hx => ?_))
      | (lift_lets; intro x)
      | split
      | dsimp only
      | dsimp only [x]
      | (with_reducible apply Keeps.mk; with_reducible first | assumption | exact Keeps.refl _ | refine Keeps.foldl ?_ (fun u x hu => ?_) | apply Keeps.ite | apply takePacket_keeps | (apply takePacket_keeps_eq; on_goal 1 => assumption))

theorem retake_keeps {s₀ : State} {a0 : State} (h0 : Keeps s₀ a0) :
    Keeps s₀ (@retake a0) := by
  unfold retake
  repeat' first
    | with_reducible assumption
    | with_reducible apply takeWaiting_keeps
    | with_reducible refine Keeps.foldl ?_ (fun u x hu => ?_)

theorem deliverVc0_keeps {s₀ : State} (a0 : ℕ) (a1 : Vc0) {a2 : State} (h2 : Keeps s₀ a2) :
    Keeps s₀ (@deliverVc0 a0 a1 a2) := by
  unfold deliverVc0
  repeat' first
    | dsimp only
    | (with_reducible apply Keeps.mk; with_reducible first | assumption | exact Keeps.refl _ | refine Keeps.foldl ?_ (fun u x hu => ?_) | apply Keeps.ite | apply takeWaiting_keeps)

theorem arriveVc0_keeps {s₀ : State} (a0 : ℕ) (a1 : Vc0) {a2 : State} (h2 : Keeps s₀ a2) :
    Keeps s₀ (@arriveVc0 a0 a1 a2) := by
  unfold arriveVc0
  repeat' first
    | with_reducible assumption
    | with_reducible apply protocolError_keeps
    | with_reducible apply deliverVc0_keeps
    | with_reducible apply holdVc0_keeps
    | with_reducible apply Keeps.ite

theorem markSent_keeps {s₀ : State} {a0 : State} (a1 : Req) (h0 : Keeps s₀ a0) :
    Keeps s₀ (@markSent a0 a1) := by
  unfold markSent
  repeat' first
    | with_reducible apply noteMiss_keeps
    | with_reducible assumption
    | with_reducible apply sample_keeps
    | with_reducible apply sweep_keeps
    | with_reducible apply setReq_keeps
    | with_reducible apply Keeps.ite

theorem placeVc1_keeps {s₀ : State} {a0 : State} (a1 : ℕ) (a2 : List Byte) (h0 : Keeps s₀ a0) :
    Keeps s₀ (@placeVc1 a0 a1 a2) := by
  unfold placeVc1
  repeat' first
    | (with_reducible apply Keeps.mk; with_reducible first | assumption | exact Keeps.refl _ | refine Keeps.foldl ?_ (fun u x hu => ?_) | apply Keeps.ite | apply placePacket_keeps)

theorem discardPrior_keeps {s₀ : State} {a0 : State} (a1 : Req) (h0 : Keeps s₀ a0) :
    Keeps s₀ (@discardPrior a0 a1) := by
  unfold discardPrior
  repeat' first
    | with_reducible assumption
    | with_reducible apply sweep_keeps
    | with_reducible apply setReq_keeps
    | with_reducible apply State.inc_keeps

theorem purgeDone_keeps {s₀ : State} (a0 : ℕ) {a1 : State} (h1 : Keeps s₀ a1) :
    Keeps s₀ (@purgeDone a0 a1) := by
  unfold purgeDone
  repeat' first
    | with_reducible assumption
    | with_reducible apply State.raiseG_keeps
    | with_reducible apply State.wr_keeps
    | with_reducible apply Keeps.ite

theorem linkReady_keeps {s₀ : State} {a0 : State} (h0 : Keeps s₀ a0) :
    Keeps s₀ (@linkReady a0) := by
  unfold linkReady
  repeat' first
    | (with_reducible apply Keeps.mk; with_reducible first | assumption | exact Keeps.refl _ | refine Keeps.foldl ?_ (fun u x hu => ?_) | apply Keeps.ite | apply autoBalance_keeps)

/-! ## Memory -/

theorem inject_keeps {s₀ : State} {a0 : State} (a1 : ℕ) (a2 : ℕ) (h0 : Keeps s₀ a0) : Keeps s₀ (inject a0 a1 a2) := by
  unfold inject
  split
  · exact h0
  · dsimp only
    refine .ite h0 ?_
    refine (State.wr_keeps h0 F.DIP_INJ_INJ_ARMED 0 0 0).trans ⟨rfl, fun c => ⟨c.1, c.2.1, c.2.2.1, ?_, c.2.2.2.2⟩⟩
    exact SMap.sorted_put _ _ _ _ c.2.2.2.1

theorem State.dramStore_keeps {s₀ : State} {a0 : State} (a1 : ℕ) (a2 : ℕ) (a3 : Sector) (h0 : Keeps s₀ a0) :
    Keeps s₀ (@State.dramStore a0 a1 a2 a3) := by
  unfold State.dramStore
  repeat' first
    | with_reducible assumption
    | with_reducible apply inject_keeps
    | with_reducible apply State.storeSector_keeps

theorem State.dramWrite_keeps {s₀ : State} {a0 : State} (a1 : ℕ) (a2 : ℕ) (a3 : Sector) (h0 : Keeps s₀ a0) :
    Keeps s₀ (@State.dramWrite a0 a1 a2 a3) := by
  unfold State.dramWrite
  repeat' first
    | with_reducible assumption
    | with_reducible apply State.inc_keeps
    | with_reducible apply State.dramStore_keeps
    | with_reducible apply Keeps.ite

end Sys2Proof.Machine
end

