-- ==== Sys2Proof/Laws/KeepsDram.lean ====
section
/-! SUPPORT. What every operation keeps: of the cache, the words, the banks, issue, the data lines, the engines, the channels and refresh. -/

namespace Sys2Proof.Machine

/-! ## Cache -/

theorem State.setLine_keeps {s₀ : State} {a0 : State} (a1 : ℕ) (a2 : ℕ) (a3 : ℕ) (a4 : Line) (h0 : Keeps s₀ a0) :
    Keeps s₀ (@State.setLine a0 a1 a2 a3 a4) := by
  unfold State.setLine
  repeat' first
    | (with_reducible apply Keeps.mk; with_reducible assumption)

theorem State.moveWay_keeps {s₀ : State} {a0 : State} (a1 : ℕ) (a2 : ℕ) (a3 : ℕ) (a4 : Bool) (h0 : Keeps s₀ a0) :
    Keeps s₀ (@State.moveWay a0 a1 a2 a3 a4) := by
  unfold State.moveWay
  repeat' first
    | (with_reducible apply Keeps.mk; with_reducible assumption)

theorem evict_keeps {s₀ : State} {a0 : State} (a1 : ℕ) (a2 : ℕ) (a3 : ℕ) (h0 : Keeps s₀ a0) :
    Keeps s₀ (@evict a0 a1 a2 a3) := by
  unfold evict
  repeat' first
    | (with_reducible apply Keeps.mk; with_reducible first | assumption | exact Keeps.refl _ | refine Keeps.foldl ?_ (fun u x hu => ?_) | apply Keeps.ite | apply State.setLine_keeps)

theorem allocate_keeps {s₀ : State} {a0 : State} (a1 : ℕ) (a2 : ℕ) (a3 : Req) (h0 : Keeps s₀ a0) :
    Keeps s₀ (@allocate a0 a1 a2 a3).1 := by
  unfold allocate
  repeat' first
    | split
    | dsimp only
    | (with_reducible apply Keeps.mk; with_reducible first | assumption | exact Keeps.refl _ | refine Keeps.foldl ?_ (fun u x hu => ?_) | apply Keeps.ite | apply State.inc_keeps | apply evict_keeps | apply State.moveWay_keeps)

theorem allocate_keeps_eq {s₀ : State} {a0 : State} (a1 : ℕ) (a2 : ℕ) (a3 : Req) {r0 : State} {r1 : Option ℕ}
    (e : @allocate a0 a1 a2 a3 = (r0, r1)) (h0 : Keeps s₀ a0) : Keeps s₀ r0 := by
  have := allocate_keeps a1 a2 a3 h0
  rw [e] at this
  exact this

theorem touchWay_keeps {s₀ : State} {a0 : State} (a1 : ℕ) (a2 : ℕ) (a3 : Req) (h0 : Keeps s₀ a0) :
    Keeps s₀ (@touchWay a0 a1 a2 a3) := by
  unfold touchWay
  repeat' first
    | with_reducible assumption
    | with_reducible apply State.moveWay_keeps
    | split

theorem cacheWrite_keeps {s₀ : State} {a0 : State} (a1 : ℕ) (a2 : ℕ) (a3 : ℕ) (a4 : Sector) (h0 : Keeps s₀ a0) :
    Keeps s₀ (@cacheWrite a0 a1 a2 a3 a4) := by
  unfold cacheWrite
  repeat' first
    | with_reducible assumption
    | with_reducible apply State.setLine_keeps

theorem victimWrite_keeps {s₀ : State} {a0 : State} (a1 : ℕ) (a2 : ℕ) (a3 : Sector) (h0 : Keeps s₀ a0) :
    Keeps s₀ (@victimWrite a0 a1 a2 a3) := by
  unfold victimWrite
  repeat' first
    | (with_reducible apply Keeps.mk; with_reducible assumption)

theorem cleanHalf_keeps {s₀ : State} {a0 : State} (a1 : ℕ) (a2 : ℕ) (a3 : ℕ) (a4 : ℕ) (a5 : ℕ) (h0 : Keeps s₀ a0) :
    Keeps s₀ (@cleanHalf a0 a1 a2 a3 a4 a5) := by
  unfold cleanHalf
  repeat' first
    | with_reducible assumption
    | with_reducible apply State.dramWrite_keeps
    | with_reducible apply State.inc_keeps
    | with_reducible apply State.setLine_keeps
    | with_reducible apply Keeps.ite

theorem cleanLine_keeps {s₀ : State} {a0 : State} (a1 : ℕ) (a2 : ℕ) (a3 : ℕ) (a4 : ℕ) (h0 : Keeps s₀ a0) :
    Keeps s₀ (@cleanLine a0 a1 a2 a3 a4) := by
  unfold cleanLine
  repeat' first
    | with_reducible assumption
    | with_reducible apply cleanHalf_keeps

theorem cleanLines_keeps {s₀ : State} {a0 : State} (a1 : ℕ) (a2 : ℕ) (a3 : List (ℕ × ℕ)) (h0 : Keeps s₀ a0) :
    Keeps s₀ (@cleanLines a0 a1 a2 a3) := by
  unfold cleanLines
  repeat' first
    | with_reducible assumption
    | with_reducible apply cleanLine_keeps
    | with_reducible refine Keeps.foldl ?_ (fun u x hu => ?_)

theorem startOp_keeps {s₀ : State} {a0 : State} (a1 : ℕ) (a2 : SliceOp) (h0 : Keeps s₀ a0) :
    Keeps s₀ (@startOp a0 a1 a2).2 := by
  unfold startOp
  repeat' first
    | with_reducible apply Keeps.ite2
    | (with_reducible apply Keeps.mk; with_reducible assumption)

theorem startOp_keeps_eq {s₀ : State} {a0 : State} (a1 : ℕ) (a2 : SliceOp) {r0 : Code} {r1 : State}
    (e : @startOp a0 a1 a2 = (r0, r1)) (h0 : Keeps s₀ a0) : Keeps s₀ r1 := by
  have := startOp_keeps a1 a2 h0
  rw [e] at this
  exact this

theorem dropClean_keeps {s₀ : State} {a0 : State} (a1 : ℕ) (a2 : List (ℕ × ℕ)) (h0 : Keeps s₀ a0) :
    Keeps s₀ (@dropClean a0 a1 a2) := by
  unfold dropClean
  repeat' first
    | with_reducible assumption
    | with_reducible exact Keeps.refl _
    | with_reducible apply State.setLine_keeps
    | with_reducible apply State.wr_keeps
    | with_reducible apply State.inc_keeps
    | with_reducible refine Keeps.foldl ?_ (fun u x hu => ?_)

theorem walkIssue_keeps {s₀ : State} {a0 : State} (a1 : ℕ) (a2 : ℕ × ℕ × ℕ) (a3 : ℕ) (h0 : Keeps s₀ a0) :
    Keeps s₀ (@walkIssue a0 a1 a2 a3) := by
  unfold walkIssue
  repeat' first
    | with_reducible assumption
    | with_reducible exact Keeps.refl _
    | with_reducible apply cleanHalf_keeps
    | with_reducible apply State.wr_keeps
    | with_reducible apply State.inc_keeps
    | with_reducible refine Keeps.foldl ?_ (fun u x hu => ?_)
    | with_reducible apply Keeps.ite
    | with_reducible apply Keeps.ite1
    | with_reducible apply Keeps.ite2
    | with_reducible apply Keeps.ite22
    | (lift_lets; intro x; refine Keeps.cut (x := x) ?_ (fun hx => ?_))
    | (lift_lets; intro x)
    | split
    | dsimp only
    | dsimp only [x]
    | (with_reducible apply Keeps.mk; with_reducible first | assumption | exact Keeps.refl _ | refine Keeps.foldl ?_ (fun u x hu => ?_) | apply Keeps.ite | apply cleanHalf_keeps)

theorem opComplete_keeps {s₀ : State} (a0 : ℕ) {a1 : State} (h1 : Keeps s₀ a1) :
    Keeps s₀ (@opComplete a0 a1) := by
  unfold opComplete
  repeat' first
    | with_reducible assumption
    | with_reducible exact Keeps.refl _
    | with_reducible apply cleanLines_keeps
    | with_reducible apply dropClean_keeps
    | with_reducible apply State.inc_keeps
    | with_reducible apply State.wr_keeps
    | with_reducible apply State.wr_keeps
    | with_reducible apply State.inc_keeps
    | with_reducible refine Keeps.foldl ?_ (fun u x hu => ?_)
    | with_reducible apply Keeps.ite
    | with_reducible apply Keeps.ite1
    | with_reducible apply Keeps.ite2
    | with_reducible apply Keeps.ite22
    | (lift_lets; intro x; refine Keeps.cut (x := x) ?_ (fun hx => ?_))
    | (lift_lets; intro x)
    | split
    | dsimp only
    | dsimp only [x]
    | (with_reducible apply Keeps.mk; with_reducible first | assumption | exact Keeps.refl _ | refine Keeps.foldl ?_ (fun u x hu => ?_) | apply Keeps.ite | apply cleanLines_keeps | apply dropClean_keeps)

theorem abandonOp_keeps {s₀ : State} {a0 : State} (a1 : ℕ) (h0 : Keeps s₀ a0) :
    Keeps s₀ (@abandonOp a0 a1) := by
  unfold abandonOp
  repeat' first
    | split
    | (with_reducible apply Keeps.mk; with_reducible first | assumption | exact Keeps.refl _ | refine Keeps.foldl ?_ (fun u x hu => ?_) | apply Keeps.ite | apply State.wr_keeps)

theorem keepDirty_keeps {s₀ : State} {a0 : State} (a1 : ℕ) (h0 : Keeps s₀ a0) :
    Keeps s₀ (@keepDirty a0 a1) := by
  unfold keepDirty
  repeat' first
    | with_reducible assumption
    | with_reducible exact Keeps.refl _
    | with_reducible apply dropClean_keeps

theorem victimOut_keeps {s₀ : State} {a0 : State} (a1 : ℕ) (a2 : Victim) (a3 : ℕ) (a4 : Option Sector) (h0 : Keeps s₀ a0) :
    Keeps s₀ (@victimOut a0 a1 a2 a3 a4) := by
  unfold victimOut
  split
  · exact State.inc_keeps (State.dramWrite_keeps _ _ _ h0) ..
  · exact h0

theorem flushSlice_keeps {s₀ : State} {a0 : State} (a1 : ℕ) (h0 : Keeps s₀ a0) :
    Keeps s₀ (@flushSlice a0 a1) := by
  unfold flushSlice
  repeat' first
    | split
    | dsimp only
    | (with_reducible apply Keeps.mk; with_reducible first | assumption | exact Keeps.refl _ | refine Keeps.foldl ?_ (fun u x hu => ?_) | apply Keeps.ite | apply cleanLines_keeps | apply victimOut_keeps)

theorem startDrain_keeps {s₀ : State} {a0 : State} (a1 : ℕ) (h0 : Keeps s₀ a0) :
    Keeps s₀ (@startDrain a0 a1) := by
  unfold startDrain
  repeat' first
    | with_reducible assumption
    | with_reducible apply State.wr_keeps
    | with_reducible apply keepDirty_keeps
    | with_reducible apply abandonOp_keeps

theorem loseLine_keeps {s₀ : State} {a0 : State} (a1 : ℕ) (h0 : Keeps s₀ a0) :
    Keeps s₀ (@loseLine a0 a1) := by
  unfold loseLine
  repeat' first
    | with_reducible assumption
    | with_reducible exact Keeps.refl _
    | with_reducible apply State.draw_keeps
    | (with_reducible apply State.draw_keeps_eq; on_goal 1 => with_reducible assumption)
    | with_reducible apply State.setLine_keeps

theorem sliceFault_keeps {s₀ : State} (a0 : ℕ) (a1 : ℕ) {a2 : State} (h2 : Keeps s₀ a2) :
    Keeps s₀ (@sliceFault a0 a1 a2) := by
  unfold sliceFault
  repeat' first
    | with_reducible assumption
    | with_reducible exact Keeps.refl _
    | with_reducible apply State.raiseG_keeps
    | with_reducible apply State.wr_keeps
    | with_reducible apply loseLine_keeps
    | with_reducible apply abandonOp_keeps
    | with_reducible apply keepDirty_keeps
    | with_reducible apply startDrain_keeps
    | with_reducible apply State.wr_keeps
    | with_reducible apply State.inc_keeps
    | with_reducible refine Keeps.foldl ?_ (fun u x hu => ?_)
    | with_reducible apply Keeps.ite

theorem drainComplete_keeps {s₀ : State} (a0 : ℕ) {a1 : State} (h1 : Keeps s₀ a1) :
    Keeps s₀ (@drainComplete a0 a1) := by
  unfold drainComplete
  repeat' first
    | with_reducible assumption
    | with_reducible apply State.wr_keeps
    | with_reducible apply flushSlice_keeps
    | with_reducible apply Keeps.ite

theorem retireWay_keeps {s₀ : State} {a0 : State} (a1 : ℕ) (a2 : ℕ) (h0 : Keeps s₀ a0) :
    Keeps s₀ (@retireWay a0 a1 a2) := by
  unfold retireWay
  repeat' first
    | with_reducible assumption
    | with_reducible exact Keeps.refl _
    | with_reducible apply State.wr_keeps
    | with_reducible apply cleanLines_keeps
    | with_reducible apply dropClean_keeps
    | with_reducible apply State.raiseG_keeps
    | with_reducible apply sliceFault_keeps
    | with_reducible apply State.wr_keeps
    | with_reducible apply State.inc_keeps
    | with_reducible refine Keeps.foldl ?_ (fun u x hu => ?_)
    | with_reducible apply Keeps.ite

theorem countSliceUe_keeps {s₀ : State} {a0 : State} (a1 : ℕ) (a2 : ℕ) (a3 : ℕ) (h0 : Keeps s₀ a0) :
    Keeps s₀ (countSliceUe a0 a1 a2 a3) := by
  unfold countSliceUe
  extract_lets s1 k ts sc s2
  have h1 : Keeps s₀ s1 := State.wr_keeps (State.wr_keeps (State.inc_keeps h0 ..) ..) ..
  have h2 : Keeps s₀ s2 := .mk h1
  clear_value s1 ts sc s2
  exact .ite (retireWay_keeps _ _ (.mk h2)) h2

theorem sliceDecode_keeps {s₀ : State} (a0 : ℕ) (a1 : ℕ) (a2 : ℕ) (a3 : ℕ) (a4 : ℕ) {a5 : State} (h5 : Keeps s₀ a5) :
    Keeps s₀ (@sliceDecode a0 a1 a2 a3 a4 a5) := by
  unfold sliceDecode
  repeat' first
    | with_reducible assumption
    | with_reducible apply State.dramWrite_keeps
    | with_reducible apply countSliceUe_keeps
    | with_reducible apply State.setLine_keeps
    | with_reducible apply Keeps.ite

theorem victimIssue_keeps {s₀ : State} {a0 : State} (a1 : ℕ) (a2 : Victim) (a3 : ℕ) (h0 : Keeps s₀ a0) :
    Keeps s₀ (@victimIssue a0 a1 a2 a3) := by
  unfold victimIssue
  repeat' first
    | with_reducible assumption
    | with_reducible exact Keeps.refl _
    | with_reducible apply victimOut_keeps
    | with_reducible apply State.wr_keeps
    | with_reducible apply State.inc_keeps
    | with_reducible refine Keeps.foldl ?_ (fun u x hu => ?_)
    | with_reducible apply Keeps.ite
    | with_reducible apply Keeps.ite1
    | with_reducible apply Keeps.ite2
    | with_reducible apply Keeps.ite22
    | (lift_lets; intro x; refine Keeps.cut (x := x) ?_ (fun hx => ?_))
    | (lift_lets; intro x)
    | split
    | dsimp only
    | dsimp only [x]
    | (with_reducible apply Keeps.mk; with_reducible first | assumption | exact Keeps.refl _ | refine Keeps.foldl ?_ (fun u x hu => ?_) | apply Keeps.ite | apply victimOut_keeps)

theorem victimDone_keeps {s₀ : State} (a0 : ℕ) {a1 : State} (h1 : Keeps s₀ a1) :
    Keeps s₀ (@victimDone a0 a1) := by
  unfold victimDone
  repeat' first
    | with_reducible assumption
    | with_reducible exact Keeps.refl _
    | with_reducible apply victimOut_keeps
    | with_reducible apply State.wr_keeps
    | with_reducible apply State.inc_keeps
    | with_reducible refine Keeps.foldl ?_ (fun u x hu => ?_)
    | with_reducible apply Keeps.ite
    | with_reducible apply Keeps.ite1
    | with_reducible apply Keeps.ite2
    | with_reducible apply Keeps.ite22
    | (lift_lets; intro x; refine Keeps.cut (x := x) ?_ (fun hx => ?_))
    | (lift_lets; intro x)
    | split
    | dsimp only
    | dsimp only [x]
    | (with_reducible apply Keeps.mk; with_reducible first | assumption | exact Keeps.refl _ | refine Keeps.foldl ?_ (fun u x hu => ?_) | apply Keeps.ite | apply victimOut_keeps)

theorem tagFix_keeps {s₀ : State} {a0 : State} (a1 : ℕ) (a2 : ℕ) (a3 : ℕ) (a4 : ℕ) (h0 : Keeps s₀ a0) :
    Keeps s₀ (@tagFix a0 a1 a2 a3 a4) := by
  unfold tagFix
  repeat' first
    | with_reducible assumption
    | with_reducible exact Keeps.refl _
    | with_reducible apply State.inc_keeps
    | with_reducible apply State.wr_keeps
    | with_reducible apply State.inc_keeps
    | with_reducible refine Keeps.foldl ?_ (fun u x hu => ?_)
    | with_reducible apply Keeps.ite
    | with_reducible apply Keeps.ite1
    | with_reducible apply Keeps.ite2
    | with_reducible apply Keeps.ite22
    | (lift_lets; intro x; refine Keeps.cut (x := x) ?_ (fun hx => ?_))
    | (lift_lets; intro x)
    | split
    | dsimp only
    | dsimp only [x]
    | (with_reducible apply Keeps.mk; with_reducible assumption)

theorem tagLookup_keeps {s₀ : State} {a0 : State} (a1 : ℕ) (a2 : ℕ) (a3 : ℕ) (h0 : Keeps s₀ a0) :
    Keeps s₀ (@tagLookup a0 a1 a2 a3) := by
  unfold tagLookup
  repeat' first
    | with_reducible assumption
    | with_reducible exact Keeps.refl _
    | with_reducible apply State.draw_keeps
    | (with_reducible apply State.draw_keeps_eq; on_goal 1 => with_reducible assumption)
    | with_reducible apply tagFix_keeps
    | with_reducible apply State.wr_keeps
    | with_reducible apply State.inc_keeps
    | with_reducible refine Keeps.foldl ?_ (fun u x hu => ?_)
    | with_reducible apply Keeps.ite

theorem rebuildTags_keeps {s₀ : State} {a0 : State} (a1 : ℕ) (h0 : Keeps s₀ a0) :
    Keeps s₀ (@rebuildTags a0 a1) := by
  unfold rebuildTags
  repeat' first
    | with_reducible assumption
    | with_reducible exact Keeps.refl _
    | with_reducible apply State.wr_keeps
    | with_reducible apply State.inc_keeps
    | with_reducible refine Keeps.foldl ?_ (fun u x hu => ?_)
    | with_reducible apply Keeps.ite
    | with_reducible apply Keeps.ite1
    | with_reducible apply Keeps.ite2
    | with_reducible apply Keeps.ite22
    | (lift_lets; intro x; refine Keeps.cut (x := x) ?_ (fun hx => ?_))
    | (lift_lets; intro x)
    | split
    | dsimp only
    | dsimp only [x]
    | (with_reducible apply Keeps.mk; with_reducible assumption)

theorem fillSector_keeps {s₀ : State} {a0 : State} (a1 : ℕ) (a2 : ℕ) (a3 : Option Sector) (h0 : Keeps s₀ a0) :
    Keeps s₀ (@fillSector a0 a1 a2 a3) := by
  unfold fillSector
  repeat' first
    | with_reducible assumption
    | with_reducible apply State.setLine_keeps
    | with_reducible apply Keeps.ite
    | split

theorem dropFills_keeps {s₀ : State} {a0 : State} (a1 : ℕ) (h0 : Keeps s₀ a0) :
    Keeps s₀ (@dropFills a0 a1) := by
  unfold dropFills
  repeat' first
    | with_reducible assumption
    | with_reducible apply State.setLine_keeps
    | with_reducible refine Keeps.foldl ?_ (fun u x hu => ?_)

theorem crossingTrack_keeps {s₀ : State} (a0 : ℕ) (a1 : ℕ) (a2 : ℕ) (a3 : ℕ) (a4 : ℕ) {a5 : State} (h5 : Keeps s₀ a5) :
    Keeps s₀ (@crossingTrack a0 a1 a2 a3 a4 a5) := by
  unfold crossingTrack
  repeat' first
    | with_reducible assumption
    | with_reducible apply State.wr_keeps
    | with_reducible apply sliceFault_keeps
    | with_reducible apply Keeps.ite

/-! ## Integrity -/

theorem State.setTsv_keeps {s₀ : State} {a0 : State} (a1 : ℕ) (a2 : TsvCh) (h0 : Keeps s₀ a0) :
    Keeps s₀ (@State.setTsv a0 a1 a2) := by
  unfold State.setTsv
  repeat' first
    | (with_reducible apply Keeps.mk; with_reducible assumption)

theorem rprQueue_keeps {s₀ : State} {a0 : State} (a1 : ℕ) (a2 : ℕ) (a3 : ℕ) (h0 : Keeps s₀ a0) :
    Keeps s₀ (@rprQueue a0 a1 a2 a3).2 := by
  unfold rprQueue
  repeat' first
    | with_reducible apply Keeps.ite2
    | (with_reducible apply Keeps.mk; with_reducible assumption)

theorem rprQueue_keeps_eq {s₀ : State} {a0 : State} (a1 : ℕ) (a2 : ℕ) (a3 : ℕ) {r0 : Code} {r1 : State}
    (e : @rprQueue a0 a1 a2 a3 = (r0, r1)) (h0 : Keeps s₀ a0) : Keeps s₀ r1 := by
  have := rprQueue_keeps a1 a2 a3 h0
  rw [e] at this
  exact this

theorem handOver_keeps {s₀ : State} {a0 : State} (a1 : ℕ) (a2 : ℕ) (a3 : ℕ) (h0 : Keeps s₀ a0) :
    Keeps s₀ (@handOver a0 a1 a2 a3).1 := by
  unfold handOver
  repeat' first
    | with_reducible assumption
    | with_reducible apply rprQueue_keeps
    | split

theorem handOver_keeps_eq {s₀ : State} {a0 : State} (a1 : ℕ) (a2 : ℕ) (a3 : ℕ) {r0 : State} {r1 : Bool}
    (e : @handOver a0 a1 a2 a3 = (r0, r1)) (h0 : Keeps s₀ a0) : Keeps s₀ r0 := by
  have := handOver_keeps a1 a2 a3 h0
  rw [e] at this
  exact this

theorem dipLog_keeps {s₀ : State} {a0 : State} (a1 : List ℕ) (h0 : Keeps s₀ a0) :
    Keeps s₀ (@dipLog a0 a1) := by
  unfold dipLog
  repeat' first
    | (with_reducible apply Keeps.mk; with_reducible first | assumption | exact Keeps.refl _ | refine Keeps.foldl ?_ (fun u x hu => ?_) | apply Keeps.ite | apply State.wr_keeps | apply State.inc_keeps)

theorem raiseRec_keeps {s₀ : State} {a0 : State} (a1 : ℕ) (a2 : Sev) (a3 : List ℕ) (h0 : Keeps s₀ a0) :
    Keeps s₀ (@raiseRec a0 a1 a2 a3) := by
  unfold raiseRec
  repeat' first
    | with_reducible assumption
    | with_reducible apply State.raise_keeps

theorem dipTrigger_keeps {s₀ : State} {a0 : State} (a1 : Where) (a2 : Beat) (a3 : ℕ) (h0 : Keeps s₀ a0) :
    Keeps s₀ (@dipTrigger a0 a1 a2 a3) := by
  unfold dipTrigger
  repeat' first
    | with_reducible assumption
    | with_reducible apply raiseRec_keeps
    | with_reducible apply dipLog_keeps

theorem ceRate_keeps {s₀ : State} {a0 : State} (a1 : Where) (a2 : Beat) (h0 : Keeps s₀ a0) :
    Keeps s₀ (@ceRate a0 a1 a2) := by
  unfold ceRate
  repeat' first
    | with_reducible apply Keeps.ite
    | (with_reducible apply Keeps.mk; with_reducible first | assumption | exact Keeps.refl _ | refine Keeps.foldl ?_ (fun u x hu => ?_) | apply Keeps.ite | apply dipTrigger_keeps)

theorem showSuspect_keeps {s₀ : State} {a0 : State} (a1 : ℕ) (h0 : Keeps s₀ a0) :
    Keeps s₀ (@showSuspect a0 a1) := by
  unfold showSuspect
  repeat' first
    | with_reducible assumption
    | with_reducible apply State.wr_keeps

theorem fastStart_keeps {s₀ : State} {a0 : State} (a1 : ℕ) (a2 : ℕ) (h0 : Keeps s₀ a0) :
    Keeps s₀ (@fastStart a0 a1 a2) := by
  unfold fastStart
  repeat' first
    | with_reducible assumption
    | with_reducible apply State.setTsv_keeps
    | with_reducible apply State.wr_keeps
    | with_reducible apply Keeps.ite

theorem posHit_keeps {s₀ : State} {a0 : State} (a1 : Where) (a2 : Beat) (a3 : ℕ) (h0 : Keeps s₀ a0) :
    Keeps s₀ (@posHit a0 a1 a2 a3) := by
  unfold posHit
  repeat' first
    | dsimp only
    | (with_reducible apply Keeps.mk; with_reducible first | assumption | exact Keeps.refl _ | refine Keeps.foldl ?_ (fun u x hu => ?_) | apply Keeps.ite | apply showSuspect_keeps | apply fastStart_keeps | apply dipTrigger_keeps)

theorem windowEnd_keeps {s₀ : State} (a0 : ℕ) {a1 : State} (h1 : Keeps s₀ a1) :
    Keeps s₀ (@windowEnd a0 a1) := by
  unfold windowEnd
  repeat' first
    | (with_reducible apply Keeps.mk; with_reducible first | assumption | exact Keeps.refl _ | refine Keeps.foldl ?_ (fun u x hu => ?_) | apply Keeps.ite | apply showSuspect_keeps | apply State.wr_keeps)

theorem trackRow_keeps {s₀ : State} {a0 : State} (a1 : Where) (a2 : Beat) (h0 : Keeps s₀ a0) :
    Keeps s₀ (@trackRow a0 a1 a2) := by
  unfold trackRow
  repeat' first
    | split
    | (with_reducible apply Keeps.mk; with_reducible first | assumption | exact Keeps.refl _ | refine Keeps.foldl ?_ (fun u x hu => ?_) | apply Keeps.ite | apply handOver_keeps | (apply handOver_keeps_eq; on_goal 1 => assumption) | apply dipTrigger_keeps | apply State.inc_keeps)

theorem reportBeat_keeps {s₀ : State} {a0 : State} (a1 : Where) (a2 : Beat) (h0 : Keeps s₀ a0) :
    Keeps s₀ (@reportBeat a0 a1 a2) := by
  unfold reportBeat
  repeat' first
    | with_reducible apply ceRate_keeps
    | with_reducible apply posHit_keeps
    | split
    | (with_reducible apply Keeps.mk; with_reducible first | assumption | exact Keeps.refl _ | refine Keeps.foldl ?_ (fun u x hu => ?_) | apply Keeps.ite | apply State.inc_keeps | apply dipLog_keeps | apply raiseRec_keeps | apply ceRate_keeps | apply posHit_keeps | apply trackRow_keeps)

theorem reportBeats_keeps {s₀ : State} {a0 : State} (a1 : Where) (a2 : List Beat) (h0 : Keeps s₀ a0) :
    Keeps s₀ (@reportBeats a0 a1 a2) := by
  unfold reportBeats
  repeat' first
    | with_reducible assumption
    | with_reducible apply reportBeat_keeps
    | with_reducible refine Keeps.foldl ?_ (fun u x hu => ?_)

theorem sliceFound_keeps {s₀ : State} (a0 a1 a2 a3 a4 a5 : ℕ) (a6 : Option ℕ) {a7 : State} (h7 : Keeps s₀ a7) :
    Keeps s₀ (@sliceFound a0 a1 a2 a3 a4 a5 a6 a7) := by
  unfold sliceFound
  exact .ite (reportBeats_keeps _ _ (State.draws_keeps _ h7)) h7

theorem readDram_keeps {s₀ : State} {a0 : State} (a1 : ℕ) (a2 : ℕ) (a3 : ℕ) (a4 : Option ℕ) (a5 : ℕ → ℕ) (h0 : Keeps s₀ a0) :
    Keeps s₀ (@readDram a0 a1 a2 a3 a4 a5).1 := by
  unfold readDram
  repeat' first
    | with_reducible assumption
    | with_reducible apply reportBeats_keeps

theorem readDram_keeps_eq {s₀ : State} {a0 : State} (a1 : ℕ) (a2 : ℕ) (a3 : ℕ) (a4 : Option ℕ) (a5 : ℕ → ℕ) {r0 : State} {r1 : Sector} {r2 : Code} {r3 : List Beat}
    (e : @readDram a0 a1 a2 a3 a4 a5 = (r0, r1, r2, r3)) (h0 : Keeps s₀ a0) : Keeps s₀ r0 := by
  have := readDram_keeps a1 a2 a3 a4 a5 h0
  rw [e] at this
  exact this

theorem copySector_keeps {s₀ : State} {a0 : State} (a1 : ℕ) (a2 : ℕ) (a3 : ℕ) (a4 : ℕ) (h0 : Keeps s₀ a0) :
    Keeps s₀ (@copySector a0 a1 a2 a3 a4) := by
  unfold copySector
  repeat' first
    | with_reducible assumption
    | with_reducible apply readDram_keeps
    | with_reducible apply State.dramStore_keeps

theorem arrayWord_keeps {s₀ : State} {a0 : State} (a1 : Bool) (a2 : ℕ) (a3 : ℕ) (a4 : ℕ) (a5 : ℕ) (a6 : ℕ) (a7 : Option ℕ) (h0 : Keeps s₀ a0) :
    Keeps s₀ (@arrayWord a0 a1 a2 a3 a4 a5 a6 a7) := by
  unfold arrayWord
  repeat' first
    | with_reducible assumption
    | with_reducible exact Keeps.refl _
    | with_reducible apply State.inc_keeps
    | with_reducible apply State.draws_keeps
    | (with_reducible apply State.draws_keeps_eq; on_goal 1 => with_reducible assumption)
    | with_reducible apply dipLog_keeps
    | with_reducible apply State.wr_keeps
    | with_reducible apply State.inc_keeps
    | with_reducible refine Keeps.foldl ?_ (fun u x hu => ?_)
    | with_reducible apply Keeps.ite
    | with_reducible apply Keeps.ite1
    | with_reducible apply Keeps.ite2
    | with_reducible apply Keeps.ite22
    | (lift_lets; intro x; refine Keeps.cut (x := x) ?_ (fun hx => ?_))
    | (lift_lets; intro x)
    | split
    | dsimp only
    | dsimp only [x]
    | (with_reducible apply Keeps.mk; with_reducible first | assumption | exact Keeps.refl _ | refine Keeps.foldl ?_ (fun u x hu => ?_) | apply Keeps.ite | apply State.inc_keeps | apply State.draws_keeps | (apply State.draws_keeps_eq; on_goal 1 => assumption) | apply dipLog_keeps)

theorem bufferWord_keeps {s₀ : State} {a0 : State} (a1 : ℕ) (a2 : ℕ) (a3 : ℕ) (a4 : Req) (a5 : Sector) (h0 : Keeps s₀ a0) :
    Keeps s₀ (@bufferWord a0 a1 a2 a3 a4 a5) := by
  unfold bufferWord
  repeat' first
    | with_reducible assumption
    | with_reducible exact Keeps.refl _
    | with_reducible apply State.draw_keeps
    | (with_reducible apply State.draw_keeps_eq; on_goal 1 => with_reducible assumption)
    | with_reducible apply arrayWord_keeps
    | with_reducible apply State.raiseG_keeps
    | with_reducible apply State.wr_keeps
    | with_reducible apply State.inc_keeps
    | with_reducible refine Keeps.foldl ?_ (fun u x hu => ?_)
    | with_reducible apply Keeps.ite

theorem ctxUncorrectable_keeps {s₀ : State} {a0 : State} (a1 : ℕ) (h0 : Keeps s₀ a0) :
    Keeps s₀ (@ctxUncorrectable a0 a1) := by
  unfold ctxUncorrectable
  repeat' first
    | with_reducible assumption
    | with_reducible exact Keeps.refl _
    | with_reducible apply State.raiseG_keeps
    | with_reducible apply State.setCtx_keeps
    | with_reducible apply arrayWord_keeps
    | with_reducible apply State.wr_keeps
    | with_reducible apply State.inc_keeps
    | with_reducible refine Keeps.foldl ?_ (fun u x hu => ?_)
    | with_reducible apply Keeps.ite
    | with_reducible apply Keeps.ite1
    | with_reducible apply Keeps.ite2
    | with_reducible apply Keeps.ite22
    | (lift_lets; intro x; refine Keeps.cut (x := x) ?_ (fun hx => ?_))
    | (lift_lets; intro x)
    | split
    | dsimp only
    | dsimp only [x]
    | (with_reducible apply Keeps.mk; with_reducible first | assumption | exact Keeps.refl _ | refine Keeps.foldl ?_ (fun u x hu => ?_) | apply Keeps.ite | apply State.raiseG_keeps)

theorem remapUncorrectable_keeps {s₀ : State} {a0 : State} (a1 : ℕ) (h0 : Keeps s₀ a0) :
    Keeps s₀ (@remapUncorrectable a0 a1) := by
  unfold remapUncorrectable
  repeat' first
    | with_reducible assumption
    | with_reducible exact Keeps.refl _
    | with_reducible apply State.raiseG_keeps
    | with_reducible apply arrayWord_keeps
    | with_reducible apply State.wr_keeps
    | with_reducible apply State.inc_keeps
    | with_reducible refine Keeps.foldl ?_ (fun u x hu => ?_)
    | with_reducible apply Keeps.ite
    | with_reducible apply Keeps.ite1
    | with_reducible apply Keeps.ite2
    | with_reducible apply Keeps.ite22
    | (lift_lets; intro x; refine Keeps.cut (x := x) ?_ (fun hx => ?_))
    | (lift_lets; intro x)
    | split
    | dsimp only
    | dsimp only [x]
    | (with_reducible apply Keeps.mk; with_reducible first | assumption | exact Keeps.refl _ | refine Keeps.foldl ?_ (fun u x hu => ?_) | apply Keeps.ite | apply State.raiseG_keeps)

theorem contextRebuilt_keeps {s₀ : State} {a0 : State} (h0 : Keeps s₀ a0) :
    Keeps s₀ (@contextRebuilt a0) := by
  unfold contextRebuilt
  repeat' first
    | (with_reducible apply Keeps.mk; with_reducible assumption)

theorem remapReloaded_keeps {s₀ : State} {a0 : State} (h0 : Keeps s₀ a0) :
    Keeps s₀ (@remapReloaded a0) := by
  unfold remapReloaded
  repeat' first
    | (with_reducible apply Keeps.mk; with_reducible assumption)

/-! ## Bank -/

theorem showRow_keeps {s₀ : State} {a0 : State} (a1 : ℕ) (a2 : ℕ) (a3 : Option ℕ) (h0 : Keeps s₀ a0) :
    Keeps s₀ (@showRow a0 a1 a2 a3) := by
  unfold showRow
  repeat' first
    | with_reducible assumption
    | with_reducible apply State.wr_keeps

theorem doAct_keeps {s₀ : State} {a0 : State} (a1 : ℕ) (a2 : ℕ) (a3 : ℕ) (a4 : Bool) (h0 : Keeps s₀ a0) :
    Keeps s₀ (@doAct a0 a1 a2 a3 a4) := by
  unfold doAct
  repeat' first
    | with_reducible assumption
    | with_reducible apply showRow_keeps
    | with_reducible apply State.setDmc_keeps

theorem doPre_keeps {s₀ : State} {a0 : State} (a1 : ℕ) (a2 : ℕ) (h0 : Keeps s₀ a0) :
    Keeps s₀ (@doPre a0 a1 a2) := by
  unfold doPre
  repeat' first
    | with_reducible assumption
    | with_reducible apply showRow_keeps
    | with_reducible apply State.setDmc_keeps
    | split
    | dsimp only

theorem doPreAll_keeps {s₀ : State} {a0 : State} (a1 : ℕ) (a2 : ℕ) (h0 : Keeps s₀ a0) :
    Keeps s₀ (@doPreAll a0 a1 a2) := by
  unfold doPreAll
  repeat' first
    | with_reducible assumption
    | with_reducible apply doPre_keeps
    | with_reducible refine Keeps.foldl ?_ (fun u x hu => ?_)

theorem doCol_keeps {s₀ : State} {a0 : State} (a1 : ℕ) (a2 : ℕ) (a3 : Bool) (h0 : Keeps s₀ a0) :
    Keeps s₀ (@doCol a0 a1 a2 a3) := by
  unfold doCol
  repeat' first
    | with_reducible assumption
    | with_reducible apply State.inc_keeps
    | with_reducible apply State.setDmc_keeps
    | with_reducible apply Keeps.ite

theorem burstWrite_keeps {s₀ : State} {a0 : State} (a1 : ℕ) (a2 : ℕ) (a3 : Sector) (h0 : Keeps s₀ a0) :
    Keeps s₀ (@burstWrite a0 a1 a2 a3) := by
  unfold burstWrite
  repeat' first
    | with_reducible assumption
    | with_reducible exact Keeps.refl _
    | with_reducible apply State.dramWrite_keeps
    | with_reducible apply doCol_keeps

/-! ## Issue -/

theorem wrote_keeps {s₀ : State} {a0 : State} (a1 : ℕ) (a2 : ℕ) (h0 : Keeps s₀ a0) :
    Keeps s₀ (@wrote a0 a1 a2) := by
  unfold wrote
  repeat' first
    | with_reducible assumption
    | with_reducible apply setReq_keeps
    | split

theorem gotSector_keeps {s₀ : State} {a0 : State} (a1 : ℕ) (a2 : ℕ) (a3 : Sector) (a4 : Code) (a5 : ℕ) (h0 : Keeps s₀ a0) :
    Keeps s₀ (@gotSector a0 a1 a2 a3 a4 a5) := by
  unfold gotSector
  repeat' first
    | with_reducible assumption
    | with_reducible apply countPoison_keeps
    | with_reducible apply markPerformed_keeps
    | with_reducible apply setReq_keeps
    | with_reducible apply Keeps.ite
    | split

theorem queueRead_keeps {s₀ : State} {a0 : State} (a1 : ℕ) (a2 : DEnt) (h0 : Keeps s₀ a0) :
    Keeps s₀ (@queueRead a0 a1 a2) := by
  unfold queueRead
  repeat' first
    | with_reducible assumption
    | with_reducible apply State.setDmc_keeps

theorem lookup_keeps {s₀ : State} {a0 : State} (a1 : ℕ) (a2 : ℕ) (a3 : ℕ) (h0 : Keeps s₀ a0) :
    Keeps s₀ (@lookup a0 a1 a2 a3) := by
  unfold lookup
  repeat' first
    | with_reducible assumption
    | with_reducible exact Keeps.refl _
    | with_reducible apply sliceFault_keeps
    | with_reducible apply tagLookup_keeps
    | with_reducible apply State.wr_keeps
    | with_reducible apply State.inc_keeps
    | with_reducible refine Keeps.foldl ?_ (fun u x hu => ?_)
    | with_reducible apply Keeps.ite

theorem readSector_keeps {s₀ : State} (a0 : Req) {a1 : State} (a2 : ℕ) (a3 : ℕ) (h1 : Keeps s₀ a1) :
    Keeps s₀ (@readSector a0 a1 a2 a3) := by
  unfold readSector
  repeat' first
    | with_reducible assumption
    | with_reducible exact Keeps.refl _
    | with_reducible apply gotSector_keeps
    | with_reducible apply lookup_keeps
    | with_reducible apply State.setDmc_keeps
    | with_reducible apply State.inc_keeps
    | with_reducible apply allocate_keeps
    | (with_reducible apply allocate_keeps_eq; on_goal 1 => with_reducible assumption)
    | with_reducible apply queueRead_keeps
    | with_reducible apply State.setLine_keeps
    | with_reducible apply sliceFound_keeps
    | with_reducible apply touchWay_keeps
    | with_reducible apply sliceDecode_keeps
    | with_reducible apply State.wr_keeps
    | with_reducible apply State.inc_keeps
    | with_reducible refine Keeps.foldl ?_ (fun u x hu => ?_)
    | with_reducible apply Keeps.ite
    | with_reducible apply Keeps.ite1
    | with_reducible apply Keeps.ite2
    | with_reducible apply Keeps.ite22
    | (lift_lets; intro x; refine Keeps.cut (x := x) ?_ (fun hx => ?_))
    | (lift_lets; intro x)
    | split

theorem issueRead_keeps {s₀ : State} {a0 : State} (a1 : Req) (a2 : List ℕ) (h0 : Keeps s₀ a0) :
    Keeps s₀ (@issueRead a0 a1 a2) := by
  unfold issueRead
  repeat' first
    | with_reducible assumption
    | with_reducible apply setReq_keeps
    | with_reducible apply settle_keeps
    | with_reducible apply readSector_keeps
    | with_reducible refine Keeps.foldl ?_ (fun u x hu => ?_)
    | with_reducible apply Keeps.ite

theorem queueWrite_keeps {s₀ : State} {a0 : State} (a1 : ℕ) (a2 : WEnt) (h0 : Keeps s₀ a0) :
    Keeps s₀ (@queueWrite a0 a1 a2) := by
  unfold queueWrite
  repeat' first
    | with_reducible assumption
    | with_reducible exact Keeps.refl _
    | with_reducible apply State.setDmc_keeps

theorem supersede_keeps {s₀ : State} {a0 : State} (a1 : ℕ) (h0 : Keeps s₀ a0) :
    Keeps s₀ (@supersede a0 a1) := by
  unfold supersede
  repeat' first
    | with_reducible assumption
    | with_reducible exact Keeps.refl _
    | with_reducible apply State.inc_keeps
    | with_reducible apply wrote_keeps
    | with_reducible apply State.setDmc_keeps
    | with_reducible apply State.wr_keeps
    | with_reducible apply State.inc_keeps
    | with_reducible refine Keeps.foldl ?_ (fun u x hu => ?_)

theorem leaveList_keeps {s₀ : State} {a0 : State} (a1 : ℕ) (a2 : ℕ) (h0 : Keeps s₀ a0) :
    Keeps s₀ (@leaveList a0 a1 a2) := by
  unfold leaveList
  repeat' first
    | with_reducible assumption
    | with_reducible exact Keeps.refl _
    | with_reducible apply State.setLine_keeps
    | with_reducible apply State.wr_keeps
    | with_reducible apply State.inc_keeps
    | with_reducible refine Keeps.foldl ?_ (fun u x hu => ?_)
    | with_reducible apply Keeps.ite
    | with_reducible apply Keeps.ite1
    | with_reducible apply Keeps.ite2
    | with_reducible apply Keeps.ite22
    | split

theorem writeSector_keeps {s₀ : State} (a0 : ℕ) {a1 : State} (a2 : ℕ) (a3 : ℕ) (h1 : Keeps s₀ a1) :
    Keeps s₀ (@writeSector a0 a1 a2 a3) := by
  unfold writeSector
  repeat' first
    | with_reducible assumption
    | with_reducible exact Keeps.refl _
    | with_reducible apply wrote_keeps
    | with_reducible apply State.dramWrite_keeps
    | with_reducible apply lookup_keeps
    | with_reducible apply queueWrite_keeps
    | with_reducible apply State.inc_keeps
    | with_reducible apply victimWrite_keeps
    | with_reducible apply allocate_keeps
    | (with_reducible apply allocate_keeps_eq; on_goal 1 => with_reducible assumption)
    | with_reducible apply cacheWrite_keeps
    | with_reducible apply touchWay_keeps
    | with_reducible apply State.wr_keeps
    | with_reducible apply State.inc_keeps
    | with_reducible refine Keeps.foldl ?_ (fun u x hu => ?_)
    | with_reducible apply Keeps.ite
    | with_reducible apply Keeps.ite1
    | with_reducible apply Keeps.ite2
    | with_reducible apply Keeps.ite22
    | (lift_lets; intro x; refine Keeps.cut (x := x) ?_ (fun hx => ?_))
    | (lift_lets; intro x)
    | split

theorem readBuffer_keeps {s₀ : State} (a0 : Req) {a1 : State} (a2 : ℕ) (a3 : ℕ) (h1 : Keeps s₀ a1) :
    Keeps s₀ (@readBuffer a0 a1 a2 a3) := by
  unfold readBuffer
  repeat' first
    | with_reducible assumption
    | with_reducible exact Keeps.refl _
    | with_reducible apply bufferWord_keeps
    | with_reducible apply setReq_keeps
    | with_reducible apply State.wr_keeps
    | with_reducible apply State.inc_keeps
    | with_reducible refine Keeps.foldl ?_ (fun u x hu => ?_)
    | with_reducible apply Keeps.ite
    | with_reducible apply Keeps.ite1
    | with_reducible apply Keeps.ite2
    | with_reducible apply Keeps.ite22
    | split

theorem issueWrite_keeps {s₀ : State} {a0 : State} (a1 : Req) (a2 : List ℕ) (h0 : Keeps s₀ a0) :
    Keeps s₀ (@issueWrite a0 a1 a2) := by
  unfold issueWrite
  repeat' first
    | with_reducible assumption
    | with_reducible exact Keeps.refl _
    | with_reducible apply readBuffer_keeps
    | with_reducible apply setReq_keeps
    | with_reducible apply settle_keeps
    | with_reducible apply writeSector_keeps
    | with_reducible apply State.wr_keeps
    | with_reducible apply State.inc_keeps
    | with_reducible refine Keeps.foldl ?_ (fun u x hu => ?_)
    | with_reducible apply Keeps.ite
    | with_reducible apply Keeps.ite1
    | with_reducible apply Keeps.ite2
    | with_reducible apply Keeps.ite22
    | split

theorem issueRmw_keeps {s₀ : State} {a0 : State} (a1 : Req) (a2 : ℕ) (h0 : Keeps s₀ a0) :
    Keeps s₀ (@issueRmw a0 a1 a2) := by
  unfold issueRmw
  repeat' first
    | with_reducible assumption
    | with_reducible exact Keeps.refl _
    | with_reducible apply readBuffer_keeps
    | with_reducible apply lookup_keeps
    | with_reducible apply setReq_keeps
    | with_reducible apply State.setDmc_keeps
    | with_reducible apply queueRead_keeps
    | with_reducible apply State.wr_keeps
    | with_reducible apply State.inc_keeps
    | with_reducible refine Keeps.foldl ?_ (fun u x hu => ?_)
    | with_reducible apply Keeps.ite
    | with_reducible apply Keeps.ite1
    | with_reducible apply Keeps.ite2
    | with_reducible apply Keeps.ite22
    | split

theorem sectorIssued_keeps {s₀ : State} {a0 : State} (a1 : ℕ) (a2 : ℕ) (h0 : Keeps s₀ a0) :
    Keeps s₀ (@sectorIssued a0 a1 a2) := by
  unfold sectorIssued
  repeat' first
    | with_reducible assumption
    | with_reducible exact Keeps.refl _
    | with_reducible apply countRange_keeps
    | with_reducible apply setReq_keeps
    | with_reducible apply State.wr_keeps
    | with_reducible apply State.inc_keeps
    | with_reducible refine Keeps.foldl ?_ (fun u x hu => ?_)
    | with_reducible apply Keeps.ite
    | with_reducible apply Keeps.ite1
    | with_reducible apply Keeps.ite2
    | with_reducible apply Keeps.ite22
    | split

theorem zeroSectorAt_keeps {s₀ : State} (a0 : Req) {a1 : State} (a2 : ℕ) (h1 : Keeps s₀ a1) :
    Keeps s₀ (@zeroSectorAt a0 a1 a2) := by
  unfold zeroSectorAt
  repeat' first
    | with_reducible assumption
    | with_reducible exact Keeps.refl _
    | with_reducible apply sectorIssued_keeps
    | with_reducible apply queueWrite_keeps
    | with_reducible apply wrote_keeps
    | with_reducible apply State.dramWrite_keeps
    | with_reducible apply State.inc_keeps
    | with_reducible apply victimWrite_keeps
    | with_reducible apply State.moveWay_keeps
    | with_reducible apply cacheWrite_keeps
    | with_reducible apply State.wr_keeps
    | with_reducible apply State.inc_keeps
    | with_reducible refine Keeps.foldl ?_ (fun u x hu => ?_)
    | with_reducible apply Keeps.ite
    | with_reducible apply Keeps.ite1
    | with_reducible apply Keeps.ite2
    | with_reducible apply Keeps.ite22
    | (lift_lets; intro x; refine Keeps.cut (x := x) ?_ (fun hx => ?_))
    | (lift_lets; intro x)
    | split

theorem flushSectorAt_keeps {s₀ : State} (a0 : Req) {a1 : State} (a2 : ℕ) (h1 : Keeps s₀ a1) :
    Keeps s₀ (@flushSectorAt a0 a1 a2) := by
  unfold flushSectorAt
  repeat' first
    | with_reducible assumption
    | with_reducible exact Keeps.refl _
    | with_reducible apply sectorIssued_keeps
    | with_reducible apply queueWrite_keeps
    | with_reducible apply wrote_keeps
    | with_reducible apply cleanHalf_keeps
    | with_reducible apply State.wr_keeps
    | with_reducible apply State.inc_keeps
    | with_reducible refine Keeps.foldl ?_ (fun u x hu => ?_)
    | with_reducible apply Keeps.ite
    | with_reducible apply Keeps.ite1
    | with_reducible apply Keeps.ite2
    | with_reducible apply Keeps.ite22
    | (lift_lets; intro x; refine Keeps.cut (x := x) ?_ (fun hx => ?_))
    | (lift_lets; intro x)
    | split

theorem rangeIssue_keeps {s₀ : State} {a0 : State} (a1 : ℕ) (h0 : Keeps s₀ a0) :
    Keeps s₀ (@rangeIssue a0 a1) := by
  unfold rangeIssue
  repeat' first
    | with_reducible assumption
    | with_reducible exact Keeps.refl _
    | with_reducible apply settle_keeps
    | with_reducible apply zeroSectorAt_keeps
    | with_reducible apply flushSectorAt_keeps
    | with_reducible apply State.wr_keeps
    | with_reducible apply State.inc_keeps
    | with_reducible refine Keeps.foldl ?_ (fun u x hu => ?_)
    | with_reducible apply Keeps.ite
    | with_reducible apply Keeps.ite1
    | with_reducible apply Keeps.ite2
    | with_reducible apply Keeps.ite22
    | (lift_lets; intro x; refine Keeps.cut (x := x) ?_ (fun hx => ?_))
    | (lift_lets; intro x)
    | split

theorem issueRange_keeps {s₀ : State} {a0 : State} (a1 : Req) (h0 : Keeps s₀ a0) :
    Keeps s₀ (@issueRange a0 a1) := by
  unfold issueRange
  repeat' first
    | with_reducible assumption
    | with_reducible exact Keeps.refl _
    | with_reducible apply rangeIssue_keeps
    | with_reducible apply setReq_keeps
    | with_reducible apply State.wr_keeps
    | with_reducible apply State.inc_keeps
    | with_reducible refine Keeps.foldl ?_ (fun u x hu => ?_)
    | with_reducible apply Keeps.ite

theorem issue_keeps {s₀ : State} (a0 : ℕ) (a1 : List ℕ) {a2 : State} (h2 : Keeps s₀ a2) :
    Keeps s₀ (@issue a0 a1 a2) := by
  unfold issue
  repeat' first
    | with_reducible assumption
    | with_reducible exact Keeps.refl _
    | with_reducible apply issueRead_keeps
    | with_reducible apply issueWrite_keeps
    | with_reducible apply issueRmw_keeps
    | with_reducible apply issueRange_keeps
    | with_reducible apply State.wr_keeps
    | with_reducible apply State.inc_keeps
    | with_reducible refine Keeps.foldl ?_ (fun u x hu => ?_)
    | with_reducible apply Keeps.ite
    | with_reducible apply Keeps.ite1
    | with_reducible apply Keeps.ite2
    | with_reducible apply Keeps.ite22
    | (lift_lets; intro x; refine Keeps.cut (x := x) ?_ (fun hx => ?_))
    | (lift_lets; intro x)
    | split

theorem readReturn_keeps {s₀ : State} (a0 : ℕ) (a1 : List ℕ) {a2 : State} (h2 : Keeps s₀ a2) :
    Keeps s₀ (@readReturn a0 a1 a2) := by
  unfold readReturn
  repeat' first
    | with_reducible assumption
    | with_reducible exact Keeps.refl _
    | with_reducible apply State.setDmc_keeps
    | with_reducible apply readDram_keeps
    | (with_reducible apply readDram_keeps_eq; on_goal 1 => with_reducible assumption)
    | with_reducible apply gotSector_keeps
    | with_reducible apply settle_keeps
    | with_reducible apply State.wr_keeps
    | with_reducible apply State.inc_keeps
    | with_reducible refine Keeps.foldl ?_ (fun u x hu => ?_)
    | with_reducible apply Keeps.ite
    | with_reducible apply Keeps.ite1
    | with_reducible apply Keeps.ite2
    | with_reducible apply Keeps.ite22
    | (lift_lets; intro x; refine Keeps.cut (x := x) ?_ (fun hx => ?_))
    | (lift_lets; intro x)
    | split

theorem fillArrive_keeps {s₀ : State} (a0 : ℕ) {a1 : State} (h1 : Keeps s₀ a1) :
    Keeps s₀ (@fillArrive a0 a1) := by
  unfold fillArrive
  repeat' first
    | with_reducible assumption
    | with_reducible apply fillSector_keeps
    | with_reducible apply State.setDmc_keeps
    | (lift_lets; intro x)
    | split

theorem rmwRead_keeps {s₀ : State} {a0 : State} (a1 : ℕ) (a2 : ℕ) (a3 : ℕ) (a4 : Option ℕ) (a5 : ℕ → ℕ) (a6 : Bool) (h0 : Keeps s₀ a0) :
    Keeps s₀ (@rmwRead a0 a1 a2 a3 a4 a5 a6).1 := by
  unfold rmwRead
  repeat' first
    | with_reducible assumption
    | with_reducible apply readDram_keeps
    | with_reducible apply sliceDecode_keeps
    | with_reducible apply sliceFound_keeps
    | with_reducible apply State.inc_keeps
    | with_reducible apply State.moveWay_keeps
    | with_reducible apply Keeps.ite1
    | split

theorem rmwRead_keeps_eq {s₀ : State} {a0 : State} (a1 : ℕ) (a2 : ℕ) (a3 : ℕ) (a4 : Option ℕ) (a5 : ℕ → ℕ) (a6 : Bool) {r0 : State} {r1 : Sector} {r2 : Code} {r3 : List Beat} {r4 : Option ℕ}
    (e : @rmwRead a0 a1 a2 a3 a4 a5 a6 = (r0, r1, r2, r3, r4)) (h0 : Keeps s₀ a0) : Keeps s₀ r0 := by
  have := rmwRead_keeps a1 a2 a3 a4 a5 a6 h0
  rw [e] at this
  exact this

theorem rmwWrite_keeps {s₀ : State} {a0 : State} (a1 : ℕ) (a2 : ℕ) (a3 : Option ℕ) (a4 : Sector) (h0 : Keeps s₀ a0) :
    Keeps s₀ (@rmwWrite a0 a1 a2 a3 a4) := by
  unfold rmwWrite
  repeat' first
    | with_reducible assumption
    | with_reducible exact Keeps.refl _
    | with_reducible apply State.inc_keeps
    | with_reducible apply leaveList_keeps
    | with_reducible apply burstWrite_keeps
    | with_reducible apply victimWrite_keeps
    | with_reducible apply cacheWrite_keeps
    | with_reducible apply State.wr_keeps
    | with_reducible apply State.inc_keeps
    | with_reducible refine Keeps.foldl ?_ (fun u x hu => ?_)
    | with_reducible apply Keeps.ite
    | with_reducible apply Keeps.ite1
    | with_reducible apply Keeps.ite2
    | with_reducible apply Keeps.ite22
    | (lift_lets; intro x; refine Keeps.cut (x := x) ?_ (fun hx => ?_))
    | (lift_lets; intro x)
    | split

theorem rmwLeave_keeps {s₀ : State} {a0 : State} (a1 : ℕ) (a2 : ℕ) (h0 : Keeps s₀ a0) :
    Keeps s₀ (@rmwLeave a0 a1 a2) := by
  unfold rmwLeave
  repeat' first
    | with_reducible assumption
    | with_reducible apply State.setDmc_keeps

theorem rmwReread_keeps {s₀ : State} {a0 : State} (a1 : ℕ) (a2 : ℕ) (a3 : ℕ) (a4 : ℕ) (h0 : Keeps s₀ a0) :
    Keeps s₀ (@rmwReread a0 a1 a2 a3 a4) := by
  unfold rmwReread
  repeat' first
    | with_reducible assumption
    | with_reducible exact Keeps.refl _
    | with_reducible apply queueRead_keeps
    | with_reducible apply State.setDmc_keeps

theorem atomicPerform_keeps {s₀ : State} (a0 : ℕ) (a1 : ℕ) (a2 : List ℕ) {a3 : State} (h3 : Keeps s₀ a3) :
    Keeps s₀ (@atomicPerform a0 a1 a2 a3) := by
  unfold atomicPerform
  repeat' first
    | with_reducible assumption
    | with_reducible exact Keeps.refl _
    | with_reducible apply settle_keeps
    | with_reducible apply markPerformed_keeps
    | with_reducible apply rmwLeave_keeps
    | with_reducible apply rmwReread_keeps
    | with_reducible apply rmwRead_keeps
    | (with_reducible apply rmwRead_keeps_eq; on_goal 1 => with_reducible assumption)
    | with_reducible apply countPoison_keeps
    | with_reducible apply rmwWrite_keeps
    | with_reducible apply State.wr_keeps
    | with_reducible apply State.inc_keeps
    | with_reducible refine Keeps.foldl ?_ (fun u x hu => ?_)
    | with_reducible apply Keeps.ite
    | with_reducible apply Keeps.ite1
    | with_reducible apply Keeps.ite2
    | with_reducible apply Keeps.ite22
    | (lift_lets; intro x; refine Keeps.cut (x := x) ?_ (fun hx => ?_))
    | (lift_lets; intro x)
    | split

theorem mergePerform_keeps {s₀ : State} (a0 : ℕ) (a1 : ℕ) (a2 : List ℕ) {a3 : State} (h3 : Keeps s₀ a3) :
    Keeps s₀ (@mergePerform a0 a1 a2 a3) := by
  unfold mergePerform
  repeat' first
    | with_reducible assumption
    | with_reducible exact Keeps.refl _
    | with_reducible apply settle_keeps
    | with_reducible apply countBytes_keeps
    | with_reducible apply setReq_keeps
    | with_reducible apply rmwLeave_keeps
    | with_reducible apply rmwReread_keeps
    | with_reducible apply rmwRead_keeps
    | (with_reducible apply rmwRead_keeps_eq; on_goal 1 => with_reducible assumption)
    | with_reducible apply rmwWrite_keeps
    | with_reducible apply State.wr_keeps
    | with_reducible apply State.inc_keeps
    | with_reducible refine Keeps.foldl ?_ (fun u x hu => ?_)
    | with_reducible apply Keeps.ite
    | with_reducible apply Keeps.ite1
    | with_reducible apply Keeps.ite2
    | with_reducible apply Keeps.ite22
    | (lift_lets; intro x; refine Keeps.cut (x := x) ?_ (fun hx => ?_))
    | (lift_lets; intro x)
    | split

theorem rangeDone_keeps {s₀ : State} (a0 : ℕ) {a1 : State} (h1 : Keeps s₀ a1) :
    Keeps s₀ (@rangeDone a0 a1) := by
  unfold rangeDone
  repeat' first
    | with_reducible assumption
    | with_reducible exact Keeps.refl _
    | with_reducible apply settle_keeps
    | with_reducible apply setReq_keeps
    | with_reducible apply State.inc_keeps
    | with_reducible apply markPerformed_keeps
    | with_reducible apply State.wr_keeps
    | with_reducible apply State.inc_keeps
    | with_reducible refine Keeps.foldl ?_ (fun u x hu => ?_)
    | with_reducible apply Keeps.ite
    | with_reducible apply Keeps.ite1
    | with_reducible apply Keeps.ite2
    | with_reducible apply Keeps.ite22
    | (lift_lets; intro x; refine Keeps.cut (x := x) ?_ (fun hx => ?_))
    | (lift_lets; intro x)
    | split

theorem fromBuffer_keeps {s₀ : State} {a0 : State} (a1 : Req) (a2 : Cpl) (a3 : List ℕ) (h0 : Keeps s₀ a0) :
    Keeps s₀ (@fromBuffer a0 a1 a2 a3).1 := by
  unfold fromBuffer
  repeat' first
    | with_reducible assumption
    | with_reducible exact Keeps.refl _
    | with_reducible apply bufferWord_keeps
    | with_reducible apply State.wr_keeps
    | with_reducible apply State.inc_keeps
    | with_reducible refine Keeps.foldl ?_ (fun u x hu => ?_)
    | with_reducible apply Keeps.ite
    | with_reducible apply Keeps.ite1

theorem fromBuffer_keeps_eq {s₀ : State} {a0 : State} (a1 : Req) (a2 : Cpl) (a3 : List ℕ) {r0 : State} {r1 : Cpl}
    (e : @fromBuffer a0 a1 a2 a3 = (r0, r1)) (h0 : Keeps s₀ a0) : Keeps s₀ r0 := by
  have := fromBuffer_keeps a1 a2 a3 h0
  rw [e] at this
  exact this

theorem completionPlace_keeps {s₀ : State} (a0 : ℕ) (a1 : ℕ) (a2 : CplForm) {a4 : State} (h4 : Keeps s₀ a4) :
    Keeps s₀ (@completionPlace a0 a1 a2 a4) := by
  unfold completionPlace
  repeat' first
    | with_reducible assumption
    | with_reducible exact Keeps.refl _
    | with_reducible apply retake_keeps
    | with_reducible apply placeVc1_keeps
    | with_reducible apply settle_keeps
    | with_reducible apply discardPrior_keeps
    | with_reducible apply markSent_keeps
    | with_reducible apply fromBuffer_keeps
    | (with_reducible apply fromBuffer_keeps_eq; on_goal 1 => with_reducible assumption)
    | with_reducible apply State.wr_keeps
    | with_reducible apply State.inc_keeps
    | with_reducible refine Keeps.foldl ?_ (fun u x hu => ?_)
    | with_reducible apply Keeps.ite
    | with_reducible apply Keeps.ite1
    | with_reducible apply Keeps.ite2
    | with_reducible apply Keeps.ite22
    | (lift_lets; intro x; refine Keeps.cut (x := x) ?_ (fun hx => ?_))
    | (lift_lets; intro x)
    | split
    | dsimp only
    | dsimp only [x]
    | (with_reducible apply Keeps.mk; with_reducible assumption)

theorem rangeStopped_keeps {s₀ : State} {a0 : State} (a1 : Req) (h0 : Keeps s₀ a0) :
    Keeps s₀ (@rangeStopped a0 a1) := by
  unfold rangeStopped
  repeat' first
    | with_reducible assumption
    | with_reducible exact Keeps.refl _
    | with_reducible apply State.setDmc_keeps
    | with_reducible apply State.wr_keeps
    | with_reducible apply State.inc_keeps
    | with_reducible refine Keeps.foldl ?_ (fun u x hu => ?_)

theorem startPurge_keeps {s₀ : State} (a0 : ℕ) {a1 : State} (h1 : Keeps s₀ a1) :
    Keeps s₀ (@startPurge a0 a1) := by
  unfold startPurge
  extract_lets range hit gone s1 s2 remove q s3
  have h2 : Keeps s₀ s1 := Keeps.foldl h1 fun u x hu => rangeStopped_keeps x hu
  have h3 : Keeps s₀ s3 := by
    refine Keeps.mkSub (t := s2) (State.wr_keeps (State.wr_keeps h2 ..) ..) (ids_map fun r _ => ?_) rfl
    dsimp only [remove]
    split <;> rfl
  exact retake_keeps (settle_keeps (State.inc_keeps h3 ..))

theorem internalRead_keeps {s₀ : State} {a0 : State} (a1 : Issuer) (a2 : ℕ) (a3 : ℕ) (h0 : Keeps s₀ a0) :
    Keeps s₀ (@internalRead a0 a1 a2 a3) := Keeps.mkPush (countRange_keeps false 0 a3 h0) rfl

theorem internalWrite_keeps {s₀ : State} {a0 : State} (a1 : Issuer) (a2 : ℕ) (a3 : List Byte) (a4 : List Byte) (h0 : Keeps s₀ a0) :
    Keeps s₀ (@internalWrite a0 a1 a2 a3 a4) := markPerformed_keeps _ (Keeps.mkPush (countRange_keeps false 0 (a3.length / 64) h0) rfl)

theorem internalZero_keeps {s₀ : State} {a0 : State} (a1 : Issuer) (a2 : ℕ) (a3 : ℕ) (h0 : Keeps s₀ a0) :
    Keeps s₀ (@internalZero a0 a1 a2 a3) := Keeps.mkPush h0 rfl

/-! ## Tsv -/

theorem putPhyDead_keeps {s₀ : State} {a0 : State} (a1 : ℕ) (a2 : ℕ) (h0 : Keeps s₀ a0) :
    Keeps s₀ (@putPhyDead a0 a1 a2) := by
  unfold putPhyDead
  repeat' first
    | with_reducible assumption
    | with_reducible apply State.wr_keeps

theorem setShadow_keeps {s₀ : State} {a0 : State} (a1 : ℕ) (a2 : Option ℕ) (h0 : Keeps s₀ a0) :
    Keeps s₀ (@setShadow a0 a1 a2) := by
  unfold setShadow
  repeat' first
    | with_reducible assumption
    | with_reducible apply State.wr_keeps

theorem setMap_keeps {s₀ : State} {a0 : State} (a1 : ℕ) (a2 : ℕ) (a3 : ℕ) (h0 : Keeps s₀ a0) :
    Keeps s₀ (@setMap a0 a1 a2 a3) := by
  unfold setMap
  repeat' first
    | with_reducible assumption
    | with_reducible exact Keeps.refl _
    | with_reducible apply State.setTsv_keeps

theorem applyMapSw_keeps {s₀ : State} {a0 : State} (a1 : ℕ) (a2 : MapSw) (h0 : Keeps s₀ a0) :
    Keeps s₀ (@applyMapSw a0 a1 a2) := by
  unfold applyMapSw
  repeat' first
    | with_reducible assumption
    | with_reducible exact Keeps.refl _
    | with_reducible apply setMap_keeps
    | with_reducible apply State.wr_keeps
    | with_reducible apply State.inc_keeps
    | with_reducible apply setShadow_keeps
    | with_reducible apply State.setTsv_keeps
    | with_reducible apply State.wr_keeps
    | with_reducible apply State.inc_keeps
    | with_reducible refine Keeps.foldl ?_ (fun u x hu => ?_)
    | with_reducible apply Keeps.ite
    | with_reducible apply Keeps.ite1
    | with_reducible apply Keeps.ite2
    | with_reducible apply Keeps.ite22
    | (lift_lets; intro x; refine Keeps.cut (x := x) ?_ (fun hx => ?_))
    | (lift_lets; intro x)
    | split

theorem mapSw_keeps {s₀ : State} {a0 : State} (a1 : ℕ) (a2 : MapSw) (h0 : Keeps s₀ a0) :
    Keeps s₀ (@mapSw a0 a1 a2) := by
  unfold mapSw
  repeat' first
    | with_reducible assumption
    | with_reducible exact Keeps.refl _
    | with_reducible apply State.setTsv_keeps
    | with_reducible apply applyMapSw_keeps
    | with_reducible apply State.wr_keeps
    | with_reducible apply State.inc_keeps
    | with_reducible refine Keeps.foldl ?_ (fun u x hu => ?_)
    | with_reducible apply Keeps.ite

theorem applyAllMapSw_keeps {s₀ : State} {a0 : State} (a1 : ℕ) (h0 : Keeps s₀ a0) :
    Keeps s₀ (@applyAllMapSw a0 a1) := by
  unfold applyAllMapSw
  repeat' first
    | with_reducible assumption
    | with_reducible exact Keeps.refl _
    | with_reducible apply applyMapSw_keeps
    | with_reducible apply State.setTsv_keeps
    | with_reducible apply State.wr_keeps
    | with_reducible apply State.inc_keeps
    | with_reducible refine Keeps.foldl ?_ (fun u x hu => ?_)

theorem endMapSw_keeps {s₀ : State} {a0 : State} (a1 : ℕ) (h0 : Keeps s₀ a0) :
    Keeps s₀ (@endMapSw a0 a1) := by
  unfold endMapSw
  repeat' first
    | with_reducible assumption
    | with_reducible exact Keeps.refl _
    | with_reducible apply applyMapSw_keeps
    | with_reducible apply setShadow_keeps
    | with_reducible apply State.setTsv_keeps
    | with_reducible apply State.wr_keeps
    | with_reducible apply State.inc_keeps
    | with_reducible refine Keeps.foldl ?_ (fun u x hu => ?_)
    | with_reducible apply Keeps.ite

theorem rebuildMap_keeps {s₀ : State} {a0 : State} (a1 : ℕ) (h0 : Keeps s₀ a0) :
    Keeps s₀ (@rebuildMap a0 a1) := by
  unfold rebuildMap
  repeat' first
    | with_reducible assumption
    | with_reducible apply State.setTsv_keeps
    | with_reducible apply State.wr_keeps
    | with_reducible apply setShadow_keeps

theorem retireLog_keeps {s₀ : State} {a0 : State} (a1 : ℕ) (a2 : ℕ) (a3 : ℕ) (h0 : Keeps s₀ a0) :
    Keeps s₀ (@retireLog a0 a1 a2 a3) := by
  unfold retireLog
  repeat' first
    | with_reducible assumption
    | with_reducible apply State.portPut_keeps

theorem tsvEvent_keeps {s₀ : State} {a0 : State} (a1 : ℕ) (a2 : ℕ) (a3 : ℕ) (h0 : Keeps s₀ a0) :
    Keeps s₀ (@tsvEvent a0 a1 a2 a3) := by
  unfold tsvEvent
  repeat' first
    | with_reducible assumption
    | with_reducible apply State.raise_keeps

theorem foldEvent_keeps {s₀ : State} {a0 : State} (h0 : Keeps s₀ a0) :
    Keeps s₀ (@foldEvent a0) := by
  unfold foldEvent
  repeat' first
    | with_reducible assumption
    | with_reducible apply State.raiseG_keeps

theorem setFstate_keeps {s₀ : State} {a0 : State} (a1 : ℕ) (h0 : Keeps s₀ a0) :
    Keeps s₀ (@setFstate a0 a1) := by
  unfold setFstate
  repeat' first
    | with_reducible assumption
    | with_reducible apply State.wr_keeps
    | with_reducible apply State.putStackWord_keeps

theorem startFold_keeps {s₀ : State} {a0 : State} (a1 : ℕ) (h0 : Keeps s₀ a0) :
    Keeps s₀ (@startFold a0 a1) := by
  unfold startFold
  repeat' first
    | (with_reducible apply Keeps.mk; with_reducible first | assumption | exact Keeps.refl _ | refine Keeps.foldl ?_ (fun u x hu => ?_) | apply Keeps.ite | apply setFstate_keeps | apply State.wr_keeps | apply startDrain_keeps | apply foldEvent_keeps)

theorem foldTrigger_keeps {s₀ : State} {a0 : State} (a1 : ℕ) (h0 : Keeps s₀ a0) :
    Keeps s₀ (@foldTrigger a0 a1) := by
  unfold foldTrigger
  repeat' first
    | with_reducible assumption
    | with_reducible apply startFold_keeps
    | with_reducible apply tsvEvent_keeps
    | with_reducible apply Keeps.ite

theorem foldGo_keeps {s₀ : State} {a0 : State} (a1 : ℕ) (h0 : Keeps s₀ a0) :
    Keeps s₀ (@foldGo a0 a1).2 := by
  unfold foldGo
  repeat' first
    | with_reducible assumption
    | with_reducible apply startFold_keeps
    | with_reducible apply Keeps.ite2

theorem foldGo_keeps_eq {s₀ : State} {a0 : State} (a1 : ℕ) {r0 : Code} {r1 : State}
    (e : @foldGo a0 a1 = (r0, r1)) (h0 : Keeps s₀ a0) : Keeps s₀ r1 := by
  have := foldGo_keeps a1 h0
  rw [e] at this
  exact this

theorem foldDrop_keeps {s₀ : State} {a0 : State} (h0 : Keeps s₀ a0) :
    Keeps s₀ (@foldDrop a0) := by
  unfold foldDrop
  repeat' first
    | with_reducible assumption
    | with_reducible exact Keeps.refl _
    | with_reducible apply State.setDmc_keeps
    | with_reducible apply State.wr_keeps
    | with_reducible apply State.inc_keeps
    | with_reducible refine Keeps.foldl ?_ (fun u x hu => ?_)
    | with_reducible apply Keeps.ite
    | with_reducible apply Keeps.ite1
    | with_reducible apply Keeps.ite2
    | with_reducible apply Keeps.ite22
    | (lift_lets; intro x; refine Keeps.cut (x := x) ?_ (fun hx => ?_))
    | (lift_lets; intro x)
    | split
    | dsimp only
    | dsimp only [x]
    | (with_reducible apply Keeps.mk; with_reducible assumption)

theorem foldPause_keeps {s₀ : State} {a0 : State} (h0 : Keeps s₀ a0) :
    Keeps s₀ (@foldPause a0) := by
  unfold foldPause
  repeat' first
    | with_reducible assumption
    | with_reducible exact Keeps.refl _
    | with_reducible apply setFstate_keeps
    | with_reducible apply foldDrop_keeps
    | with_reducible apply State.wr_keeps
    | with_reducible apply State.inc_keeps
    | with_reducible refine Keeps.foldl ?_ (fun u x hu => ?_)
    | with_reducible apply Keeps.ite

theorem foldResume_keeps {s₀ : State} {a0 : State} (h0 : Keeps s₀ a0) :
    Keeps s₀ (@foldResume a0) := by
  unfold foldResume
  repeat' first
    | with_reducible assumption
    | with_reducible apply setFstate_keeps
    | with_reducible apply Keeps.ite

theorem foldCleanEnd_keeps {s₀ : State} {a0 : State} (h0 : Keeps s₀ a0) :
    Keeps s₀ (@foldCleanEnd a0) := by
  unfold foldCleanEnd
  repeat' first
    | with_reducible assumption
    | with_reducible apply setFstate_keeps
    | with_reducible apply Keeps.ite

theorem askBursts_keeps {s₀ : State} {a0 : State} (a1 : ℕ) (a2 : Engine) (a3 : ℕ) (a4 : ℕ) (a5 : Bool) (a6 : ℕ) (h0 : Keeps s₀ a0) :
    Keeps s₀ (@askBursts a0 a1 a2 a3 a4 a5 a6) := by
  unfold askBursts
  repeat' first
    | with_reducible assumption
    | with_reducible exact Keeps.refl _
    | with_reducible apply State.setDmc_keeps

theorem foldWrites_keeps {s₀ : State} {a0 : State} (a1 : ℕ) (h0 : Keeps s₀ a0) :
    Keeps s₀ (@foldWrites a0 a1) := by
  unfold foldWrites
  repeat' first
    | with_reducible assumption
    | with_reducible exact Keeps.refl _
    | with_reducible apply askBursts_keeps
    | with_reducible apply State.wr_keeps
    | with_reducible apply State.inc_keeps
    | with_reducible refine Keeps.foldl ?_ (fun u x hu => ?_)
    | with_reducible apply Keeps.ite
    | with_reducible apply Keeps.ite1
    | with_reducible apply Keeps.ite2
    | with_reducible apply Keeps.ite22
    | (lift_lets; intro x; refine Keeps.cut (x := x) ?_ (fun hx => ?_))
    | (lift_lets; intro x)
    | split
    | dsimp only
    | dsimp only [x]
    | (with_reducible apply Keeps.mk; with_reducible first | assumption | exact Keeps.refl _ | refine Keeps.foldl ?_ (fun u x hu => ?_) | apply Keeps.ite | apply askBursts_keeps)

theorem foldBegin_keeps {s₀ : State} {a0 : State} (h0 : Keeps s₀ a0) :
    Keeps s₀ (@foldBegin a0) := by
  unfold foldBegin
  repeat' first
    | with_reducible assumption
    | with_reducible exact Keeps.refl _
    | with_reducible apply countRange_keeps
    | with_reducible apply foldWrites_keeps
    | with_reducible apply askBursts_keeps
    | with_reducible apply State.wr_keeps
    | with_reducible apply State.inc_keeps
    | with_reducible refine Keeps.foldl ?_ (fun u x hu => ?_)
    | with_reducible apply Keeps.ite
    | with_reducible apply Keeps.ite1
    | with_reducible apply Keeps.ite2
    | with_reducible apply Keeps.ite22
    | (lift_lets; intro x; refine Keeps.cut (x := x) ?_ (fun hx => ?_))
    | (lift_lets; intro x)
    | split
    | dsimp only
    | dsimp only [x]
    | (with_reducible apply Keeps.mk; with_reducible first | assumption | exact Keeps.refl _ | refine Keeps.foldl ?_ (fun u x hu => ?_) | apply Keeps.ite | apply countRange_keeps)

theorem foldAdvance_keeps {s₀ : State} {a0 : State} (h0 : Keeps s₀ a0) :
    Keeps s₀ (@foldAdvance a0) := by
  unfold foldAdvance
  repeat' first
    | with_reducible assumption
    | with_reducible exact Keeps.refl _
    | with_reducible apply foldWrites_keeps
    | with_reducible apply State.wr_keeps
    | with_reducible apply State.inc_keeps
    | with_reducible refine Keeps.foldl ?_ (fun u x hu => ?_)
    | with_reducible apply Keeps.ite

theorem foldUnitMove_keeps {s₀ : State} {a0 : State} (h0 : Keeps s₀ a0) :
    Keeps s₀ (@foldUnitMove a0) := by
  unfold foldUnitMove
  repeat' first
    | with_reducible assumption
    | with_reducible exact Keeps.refl _
    | with_reducible apply State.dramStore_keeps
    | with_reducible apply copySector_keeps
    | with_reducible apply State.cnt_keeps
    | with_reducible apply State.wr_keeps
    | with_reducible apply State.wr_keeps
    | with_reducible apply State.inc_keeps
    | with_reducible refine Keeps.foldl ?_ (fun u x hu => ?_)
    | with_reducible apply Keeps.ite
    | with_reducible apply Keeps.ite1
    | with_reducible apply Keeps.ite2
    | with_reducible apply Keeps.ite22
    | (lift_lets; intro x; refine Keeps.cut (x := x) ?_ (fun hx => ?_))
    | (lift_lets; intro x)
    | split
    | dsimp only
    | dsimp only [x]
    | (with_reducible apply Keeps.mk; with_reducible first | assumption | exact Keeps.refl _ | refine Keeps.foldl ?_ (fun u x hu => ?_) | apply Keeps.ite | apply State.dramStore_keeps | apply copySector_keeps | apply State.cnt_keeps | apply State.wr_keeps)

theorem foldChunkEnd_keeps {s₀ : State} {a0 : State} (h0 : Keeps s₀ a0) :
    Keeps s₀ (@foldChunkEnd a0) := by
  unfold foldChunkEnd
  repeat' first
    | with_reducible assumption
    | with_reducible apply foldEvent_keeps
    | with_reducible apply State.putStackWord_keeps
    | with_reducible apply Keeps.ite

theorem foldDone_keeps {s₀ : State} {a0 : State} (h0 : Keeps s₀ a0) :
    Keeps s₀ (@foldDone a0) := by
  unfold foldDone
  repeat' first
    | (with_reducible apply Keeps.mk; with_reducible first | assumption | exact Keeps.refl _ | refine Keeps.foldl ?_ (fun u x hu => ?_) | apply Keeps.ite | apply setFstate_keeps | apply State.wr_keeps | apply foldEvent_keeps | apply State.setDmc_keeps)

theorem foldAtBoot_keeps {s₀ : State} {a0 : State} (a1 : ℕ) (h0 : Keeps s₀ a0) :
    Keeps s₀ (@foldAtBoot a0 a1) := by
  unfold foldAtBoot
  repeat' first
    | with_reducible assumption
    | with_reducible apply setFstate_keeps
    | with_reducible apply State.wr_keeps
    | with_reducible apply State.putStackWord_keeps

theorem nextShadow_keeps {s₀ : State} {a0 : State} (a1 : ℕ) (h0 : Keeps s₀ a0) :
    Keeps s₀ (nextShadow a0 a1) := by
  unfold nextShadow
  cases shadowOf a0 a1 with
  | some _ => exact h0
  | none =>
    refine .ite h0 ?_
    cases spareLines a0 a1 with
    | nil => exact State.wr_keeps h0 ..
    | cons p l => exact State.setTsv_keeps _ _ h0

theorem cover_spare_keeps {s₀ : State} (ch : ℕ) (q : ℕ) {s : State} (h : Keeps s₀ s) :
    Keeps s₀ (
        match spareLines s ch with
        | x :: _ => let s := mapSw s ch { pos := q, line := x }; s.setTsv ch { s.tsvCh ch with inPlace := none }
        | [] => setMap s ch q 127) := by
  generalize spareLines s ch = l
  cases l with
  | nil => exact setMap_keeps _ _ _ h
  | cons x l => exact State.setTsv_keeps _ _ (mapSw_keeps _ _ h)

theorem cover_shadow_keeps {s₀ : State} (ch : ℕ) (q : ℕ) {s t : State} (h : Keeps s₀ s) (ht : Keeps s₀ t) :
    Keeps s₀ (match shadowOf s ch with
      | some sh => setShadow (mapSw s ch { pos := q, line := sh }) ch none
      | none => t) := by
  generalize shadowOf s ch = l
  cases l with
  | none => exact ht
  | some sh => exact setShadow_keeps _ _ (mapSw_keeps _ _ h)

theorem cover_keeps {s₀ : State} (ch p : ℕ) (pos : Option ℕ) {s : State} (h : Keeps s₀ s) :
    Keeps s₀ (match pos with
    | some q =>
      match shadowOf s ch with
      | some sh => setShadow (mapSw s ch { pos := q, line := sh }) ch none
      | none =>
        match spareLines s ch with
        | x :: _ => let s := mapSw s ch { pos := q, line := x }; s.setTsv ch { s.tsvCh ch with inPlace := none }
        | [] => setMap s ch q 127
    | none => if shadowOf s ch = some p then setShadow s ch none else s) := by
  cases pos with
  | none => exact .ite (setShadow_keeps _ _ h) h
  | some q => exact cover_shadow_keeps ch q h (cover_spare_keeps ch q h)

theorem declareDead_keeps {s₀ : State} (a0 : ℕ) (a1 : ℕ) {a2 : State} (h2 : Keeps s₀ a2) :
    Keeps s₀ (declareDead a0 a1 a2) := by
  unfold declareDead
  refine .ite h2 ?_
  extract_lets s0 pos n0 s1 n newly t drop t1 t2 s2 s3 s4 kind s5
  have h0 : Keeps s₀ s0 := applyAllMapSw_keeps _ h2
  clear_value s0
  have h1 : Keeps s₀ s1 := State.inc_keeps (putPhyDead_keeps _ _ h0) ..
  have h2' : Keeps s₀ s2 := State.wr_keeps (State.setTsv_keeps _ _ h1) ..
  clear_value pos n0 s1 n newly t drop t1 t2 s2
  have h3 : Keeps s₀ s3 := cover_keeps _ _ _ h2'
  clear_value s3
  have h4 : Keeps s₀ s4 := nextShadow_keeps _ h3
  clear_value s4
  have h5 : Keeps s₀ s5 := retireLog_keeps _ _ _ h4
  clear_value s5
  exact .ite (foldTrigger_keeps _ h5) h5

theorem killLine_keeps {s₀ : State} {a0 : State} (a1 : ℕ) (a2 : ℕ) (h0 : Keeps s₀ a0) :
    Keeps s₀ (@killLine a0 a1 a2).2 := by
  unfold killLine
  repeat' first
    | with_reducible assumption
    | with_reducible apply declareDead_keeps
    | with_reducible apply Keeps.ite2

theorem killLine_keeps_eq {s₀ : State} {a0 : State} (a1 : ℕ) (a2 : ℕ) {r0 : Code} {r1 : State}
    (e : @killLine a0 a1 a2 = (r0, r1)) (h0 : Keeps s₀ a0) : Keeps s₀ r1 := by
  have := killLine_keeps a1 a2 h0
  rw [e] at this
  exact this

theorem caFail_keeps {s₀ : State} (a0 : ℕ) (a1 : ℕ) {a2 : State} (h2 : Keeps s₀ a2) :
    Keeps s₀ (@caFail a0 a1 a2) := by
  unfold caFail
  repeat' first
    | with_reducible assumption
    | with_reducible apply State.wr_keeps
    | with_reducible apply foldTrigger_keeps
    | with_reducible apply retireLog_keeps
    | with_reducible apply Keeps.ite

theorem strobeFail_keeps {s₀ : State} (a0 : ℕ) (a1 : ℕ) {a2 : State} (h2 : Keeps s₀ a2) :
    Keeps s₀ (@strobeFail a0 a1 a2) := by
  unfold strobeFail
  repeat' first
    | with_reducible assumption
    | with_reducible apply State.wr_keeps
    | with_reducible apply foldTrigger_keeps
    | with_reducible apply retireLog_keeps
    | with_reducible apply Keeps.ite

theorem rollStep_keeps {s₀ : State} (a0 : ℕ) {a1 : State} (h1 : Keeps s₀ a1) :
    Keeps s₀ (@rollStep a0 a1) := by
  unfold rollStep
  repeat' first
    | with_reducible assumption
    | with_reducible apply State.setTsv_keeps
    | with_reducible apply State.wr_keeps
    | with_reducible apply Keeps.ite

theorem putDly_keeps {s₀ : State} {a0 : State} (a1 : ℕ) (a2 : ℕ) (a3 : ℕ) (a4 : ℕ) (h0 : Keeps s₀ a0) :
    Keeps s₀ (@putDly a0 a1 a2 a3 a4) := by
  unfold putDly
  repeat' first
    | with_reducible assumption
    | with_reducible apply State.setTsv_keeps

theorem validationEnd_keeps {s₀ : State} (a0 : ℕ) (a1 : Bool) (a2 : ℕ) (a3 : ℕ) {a4 : State} (h4 : Keeps s₀ a4) :
    Keeps s₀ (@validationEnd a0 a1 a2 a3 a4) := by
  unfold validationEnd
  repeat' first
    | with_reducible assumption
    | with_reducible exact Keeps.refl _
    | with_reducible apply State.wr_keeps
    | with_reducible apply State.setTsv_keeps
    | with_reducible apply setShadow_keeps
    | with_reducible apply putDly_keeps
    | with_reducible apply mapSw_keeps
    | with_reducible apply State.inc_keeps
    | with_reducible apply declareDead_keeps
    | with_reducible apply State.wr_keeps
    | with_reducible apply State.inc_keeps
    | with_reducible refine Keeps.foldl ?_ (fun u x hu => ?_)
    | with_reducible apply Keeps.ite
    | with_reducible apply Keeps.ite1
    | with_reducible apply Keeps.ite2
    | with_reducible apply Keeps.ite22
    | (lift_lets; intro x; refine Keeps.cut (x := x) ?_ (fun hx => ?_))
    | (lift_lets; intro x)
    | split

theorem isolationEnd_keeps {s₀ : State} (a0 : ℕ) (a1 : Bool) {a2 : State} (h2 : Keeps s₀ a2) :
    Keeps s₀ (@isolationEnd a0 a1 a2) := by
  unfold isolationEnd
  repeat' first
    | with_reducible assumption
    | with_reducible apply declareDead_keeps
    | with_reducible apply State.inc_keeps
    | with_reducible apply setShadow_keeps
    | with_reducible apply State.setTsv_keeps
    | (lift_lets; intro x)
    | split

theorem inPlaceEnd_keeps {s₀ : State} (a0 : ℕ) (a1 : Bool) (a2 : ℕ) (a3 : ℕ) {a4 : State} (h4 : Keeps s₀ a4) :
    Keeps s₀ (@inPlaceEnd a0 a1 a2 a3 a4) := by
  unfold inPlaceEnd
  repeat' first
    | with_reducible assumption
    | with_reducible apply putDly_keeps
    | with_reducible apply State.setTsv_keeps
    | with_reducible apply setShadow_keeps
    | with_reducible apply fastStart_keeps
    | with_reducible apply declareDead_keeps
    | with_reducible apply Keeps.ite
    | (lift_lets; intro x)
    | split

theorem stallColumns_keeps {s₀ : State} {a0 : State} (a1 : ℕ) (a2 : ℕ) (h0 : Keeps s₀ a0) :
    Keeps s₀ (@stallColumns a0 a1 a2) := by
  unfold stallColumns
  repeat' first
    | with_reducible assumption
    | with_reducible apply State.setDmc_keeps

theorem stallStep_keeps {s₀ : State} (a0 : ℕ) (a1 : Bool) (a2 : ℕ) (a3 : ℕ) {a4 : State} (h4 : Keeps s₀ a4) :
    Keeps s₀ (@stallStep a0 a1 a2 a3 a4) := by
  unfold stallStep
  repeat' first
    | with_reducible assumption
    | with_reducible apply stallColumns_keeps
    | with_reducible apply State.setTsv_keeps
    | with_reducible apply declareDead_keeps
    | with_reducible apply State.wr_keeps
    | with_reducible apply State.inc_keeps
    | with_reducible apply putDly_keeps
    | with_reducible apply Keeps.ite
    | split

theorem abandonStep_keeps {s₀ : State} {a0 : State} (a1 : ℕ) (h0 : Keeps s₀ a0) :
    Keeps s₀ (@abandonStep a0 a1) := by
  unfold abandonStep
  repeat' first
    | with_reducible assumption
    | with_reducible exact Keeps.refl _
    | with_reducible apply endMapSw_keeps
    | with_reducible apply State.wr_keeps
    | with_reducible apply State.setTsv_keeps

theorem parityAlert_keeps {s₀ : State} (a0 : ℕ) (a1 : Option ℕ) {a2 : State} (h2 : Keeps s₀ a2) :
    Keeps s₀ (@parityAlert a0 a1 a2) := by
  unfold parityAlert
  repeat' first
    | with_reducible assumption
    | with_reducible exact Keeps.refl _
    | with_reducible apply State.setDmc_keeps
    | with_reducible apply caFail_keeps
    | with_reducible apply State.wr_keeps
    | with_reducible apply State.inc_keeps
    | with_reducible refine Keeps.foldl ?_ (fun u x hu => ?_)
    | with_reducible apply Keeps.ite
    | with_reducible apply Keeps.ite1
    | with_reducible apply Keeps.ite2
    | with_reducible apply Keeps.ite22
    | (lift_lets; intro x; refine Keeps.cut (x := x) ?_ (fun hx => ?_))
    | (lift_lets; intro x)
    | split

theorem clearStroke_keeps {s₀ : State} {a0 : State} (a1 : ℕ) (a2 : ℕ) (a3 : ℕ) (h0 : Keeps s₀ a0) :
    Keeps s₀ (@clearStroke a0 a1 a2 a3) := by
  unfold clearStroke
  repeat' first
    | (with_reducible apply Keeps.mk; with_reducible assumption)

theorem repairStart_keeps {s₀ : State} {a0 : State} (h0 : Keeps s₀ a0) :
    Keeps s₀ (@repairStart a0) := by
  unfold repairStart
  repeat' first
    | with_reducible assumption
    | with_reducible exact Keeps.refl _
    | with_reducible apply tsvEvent_keeps
    | with_reducible apply State.inc_keeps
    | with_reducible apply State.wr_keeps
    | with_reducible apply copySector_keeps
    | with_reducible apply askBursts_keeps
    | with_reducible apply clearStroke_keeps
    | with_reducible apply State.setTsv_keeps
    | with_reducible apply State.portPut_keeps
    | with_reducible apply State.wr_keeps
    | with_reducible apply State.inc_keeps
    | with_reducible refine Keeps.foldl ?_ (fun u x hu => ?_)
    | with_reducible apply Keeps.ite
    | with_reducible apply Keeps.ite1
    | with_reducible apply Keeps.ite2
    | with_reducible apply Keeps.ite22
    | (lift_lets; intro x; refine Keeps.cut (x := x) ?_ (fun hx => ?_))
    | (lift_lets; intro x)
    | split
    | dsimp only
    | dsimp only [x]
    | (with_reducible apply Keeps.mk; with_reducible assumption)

theorem setRmap_keeps {s₀ : State} {a0 : State} (a1 : ℕ) (a2 : ℕ) (a3 : ℕ) (a4 : ℕ) (h0 : Keeps s₀ a0) :
    Keeps s₀ (@setRmap a0 a1 a2 a3 a4) := by
  unfold setRmap
  repeat' first
    | (with_reducible apply Keeps.mk; with_reducible assumption)

theorem repairComplete_keeps {s₀ : State} (a0 : ℕ) {a1 : State} (h1 : Keeps s₀ a1) :
    Keeps s₀ (@repairComplete a0 a1) := by
  unfold repairComplete
  repeat' first
    | with_reducible assumption
    | with_reducible apply setRmap_keeps
    | with_reducible apply State.setTsv_keeps
    | with_reducible apply State.inc_keeps
    | with_reducible apply State.wr_keeps
    | split
    | dsimp only

theorem repairWorn_keeps {s₀ : State} (a0 : ℕ) {a1 : State} (h1 : Keeps s₀ a1) :
    Keeps s₀ (@repairWorn a0 a1) := by
  unfold repairWorn
  repeat' first
    | with_reducible assumption
    | with_reducible apply State.wr_keeps
    | with_reducible apply State.setTsv_keeps

/-! ## Engines -/

theorem scrubAdvance_keeps {s₀ : State} {a0 : State} (a1 : ℕ) (h0 : Keeps s₀ a0) :
    Keeps s₀ (@scrubAdvance a0 a1) := by
  unfold scrubAdvance
  repeat' first
    | with_reducible assumption
    | with_reducible exact Keeps.refl _
    | with_reducible apply State.wr_keeps
    | with_reducible apply State.setDmc_keeps
    | with_reducible apply State.inc_keeps
    | with_reducible apply State.wr_keeps
    | with_reducible apply State.inc_keeps
    | with_reducible refine Keeps.foldl ?_ (fun u x hu => ?_)
    | with_reducible apply Keeps.ite
    | with_reducible apply Keeps.ite1
    | with_reducible apply Keeps.ite2
    | with_reducible apply Keeps.ite22
    | (lift_lets; intro x; refine Keeps.cut (x := x) ?_ (fun hx => ?_))
    | (lift_lets; intro x)
    | split
    | dsimp only
    | dsimp only [x]
    | (with_reducible apply Keeps.mk; with_reducible first | assumption | exact Keeps.refl _ | refine Keeps.foldl ?_ (fun u x hu => ?_) | apply Keeps.ite | apply State.wr_keeps | apply State.setDmc_keeps | apply State.inc_keeps)

theorem scrubBegin_keeps {s₀ : State} {a0 : State} (a1 : ℕ) (h0 : Keeps s₀ a0) :
    Keeps s₀ (@scrubBegin a0 a1) := by
  unfold scrubBegin
  repeat' first
    | with_reducible assumption
    | with_reducible exact Keeps.refl _
    | with_reducible apply scrubAdvance_keeps
    | with_reducible apply askBursts_keeps
    | with_reducible apply State.setDmc_keeps
    | with_reducible apply State.wr_keeps
    | with_reducible apply State.inc_keeps
    | with_reducible refine Keeps.foldl ?_ (fun u x hu => ?_)
    | with_reducible apply Keeps.ite

theorem scrubStepOver_keeps {s₀ : State} {a0 : State} (a1 : ℕ) (h0 : Keeps s₀ a0) :
    Keeps s₀ (@scrubStepOver a0 a1) := by
  unfold scrubStepOver
  repeat' first
    | with_reducible assumption
    | with_reducible exact Keeps.refl _
    | with_reducible apply scrubAdvance_keeps
    | with_reducible apply State.wr_keeps
    | with_reducible apply State.inc_keeps
    | with_reducible refine Keeps.foldl ?_ (fun u x hu => ?_)
    | with_reducible apply Keeps.ite

theorem unitTake_keeps {s₀ : State} {a0 : State} (a1 : ℕ) (h0 : Keeps s₀ a0) :
    Keeps s₀ (@unitTake a0 a1) := by
  unfold unitTake
  repeat' first
    | with_reducible assumption
    | with_reducible exact Keeps.refl _
    | with_reducible apply scrubStepOver_keeps
    | with_reducible apply State.setDmc_keeps
    | with_reducible apply State.wr_keeps
    | with_reducible apply State.inc_keeps
    | with_reducible refine Keeps.foldl ?_ (fun u x hu => ?_)
    | with_reducible apply Keeps.ite
    | with_reducible apply Keeps.ite1
    | with_reducible apply Keeps.ite2
    | with_reducible apply Keeps.ite22
    | (lift_lets; intro x; refine Keeps.cut (x := x) ?_ (fun hx => ?_))
    | (lift_lets; intro x)
    | split
    | dsimp only
    | dsimp only [x]
    | (with_reducible apply Keeps.mk; with_reducible assumption)

theorem pruneClean_keeps {s₀ : State} {a0 : State} (a1 : ℕ) (h0 : Keeps s₀ a0) :
    Keeps s₀ (@pruneClean a0 a1) := by
  unfold pruneClean
  repeat' first
    | with_reducible assumption
    | with_reducible exact Keeps.refl _
    | with_reducible apply State.setDmc_keeps
    | with_reducible apply cleanHalf_keeps
    | with_reducible apply wrote_keeps
    | with_reducible apply State.wr_keeps
    | with_reducible apply State.inc_keeps
    | with_reducible refine Keeps.foldl ?_ (fun u x hu => ?_)
    | with_reducible apply Keeps.ite
    | with_reducible apply Keeps.ite1
    | with_reducible apply Keeps.ite2
    | with_reducible apply Keeps.ite22
    | split

theorem prunePre_keeps {s₀ : State} {a0 : State} (a1 : ℕ) (h0 : Keeps s₀ a0) :
    Keeps s₀ (@prunePre a0 a1) := by
  unfold prunePre
  repeat' first
    | with_reducible assumption
    | with_reducible exact Keeps.refl _
    | with_reducible apply State.setDmc_keeps

theorem walkWaits_keeps {s₀ : State} {a0 : State} (a1 : ℕ) (h0 : Keeps s₀ a0) :
    Keeps s₀ (@walkWaits a0 a1) := by
  unfold walkWaits
  repeat' first
    | with_reducible assumption
    | with_reducible exact Keeps.refl _
    | with_reducible apply State.setDmc_keeps
    | with_reducible apply State.wr_keeps
    | with_reducible apply State.inc_keeps
    | with_reducible refine Keeps.foldl ?_ (fun u x hu => ?_)
    | with_reducible apply Keeps.ite
    | with_reducible apply Keeps.ite1
    | with_reducible apply Keeps.ite2
    | with_reducible apply Keeps.ite22
    | (lift_lets; intro x; refine Keeps.cut (x := x) ?_ (fun hx => ?_))
    | (lift_lets; intro x)
    | split

theorem foldWork_keeps {s₀ : State} {a0 : State} (a1 : ℕ) (h0 : Keeps s₀ a0) :
    Keeps s₀ (@foldWork a0 a1) := by
  unfold foldWork
  repeat' first
    | with_reducible assumption
    | with_reducible exact Keeps.refl _
    | with_reducible apply foldBegin_keeps
    | with_reducible apply foldAdvance_keeps
    | with_reducible apply State.wr_keeps
    | with_reducible apply State.inc_keeps
    | with_reducible refine Keeps.foldl ?_ (fun u x hu => ?_)
    | with_reducible apply Keeps.ite

theorem mapSwEnd_keeps {s₀ : State} {a0 : State} (a1 : ℕ) (h0 : Keeps s₀ a0) :
    Keeps s₀ (@mapSwEnd a0 a1) := by
  unfold mapSwEnd
  repeat' first
    | with_reducible assumption
    | with_reducible exact Keeps.refl _
    | with_reducible apply applyMapSw_keeps
    | with_reducible apply State.setTsv_keeps
    | with_reducible apply fastStart_keeps
    | with_reducible apply State.wr_keeps
    | with_reducible apply State.inc_keeps
    | with_reducible refine Keeps.foldl ?_ (fun u x hu => ?_)
    | with_reducible apply Keeps.ite
    | with_reducible apply Keeps.ite1
    | with_reducible apply Keeps.ite2
    | with_reducible apply Keeps.ite22
    | (lift_lets; intro x; refine Keeps.cut (x := x) ?_ (fun hx => ?_))
    | (lift_lets; intro x)
    | split

theorem upkeep_keeps {s₀ : State} {a0 : State} (a1 : ℕ) (h0 : Keeps s₀ a0) :
    Keeps s₀ (@upkeep a0 a1) := by
  unfold upkeep
  repeat' first
    | with_reducible assumption
    | with_reducible exact Keeps.refl _
    | with_reducible apply walkWaits_keeps
    | with_reducible apply supersede_keeps
    | with_reducible apply pruneClean_keeps
    | with_reducible apply prunePre_keeps
    | with_reducible apply foldWork_keeps
    | with_reducible apply unitTake_keeps
    | with_reducible apply scrubBegin_keeps
    | with_reducible apply mapSwEnd_keeps

/-! ## Dram -/

theorem doRefresh_keeps {s₀ : State} {a0 : State} (a1 : ℕ) (a2 : ℕ) (a3 : Bool) (h0 : Keeps s₀ a0) :
    Keeps s₀ (@doRefresh a0 a1 a2 a3) := by
  unfold doRefresh
  repeat' first
    | with_reducible assumption
    | with_reducible apply State.setDmc_keeps
    | with_reducible apply State.inc_keeps
    | with_reducible apply Keeps.ite

theorem updateMode_keeps {s₀ : State} {a0 : State} (a1 : ℕ) (h0 : Keeps s₀ a0) :
    Keeps s₀ (@updateMode a0 a1) := by
  unfold updateMode
  repeat' first
    | with_reducible assumption
    | with_reducible apply State.setDmc_keeps
    | with_reducible apply State.wr_keeps
    | with_reducible apply State.inc_keeps
    | with_reducible apply Keeps.ite

theorem issueRow_keeps {s₀ : State} {a0 : State} (a1 : ℕ) (a2 : Cand) (a3 : RowCmd) (h0 : Keeps s₀ a0) :
    Keeps s₀ (@issueRow a0 a1 a2 a3) := by
  unfold issueRow
  repeat' first
    | with_reducible assumption
    | with_reducible apply doRefresh_keeps
    | with_reducible apply doPre_keeps
    | with_reducible apply State.setDmc_keeps
    | with_reducible apply State.inc_keeps
    | with_reducible apply doAct_keeps
    | split
    | dsimp only

theorem countHit_keeps {s₀ : State} {a0 : State} (a1 : ℕ) (a2 : Cand) (a3 : List Cand) (a4 : Bool) (h0 : Keeps s₀ a0) :
    Keeps s₀ (@countHit a0 a1 a2 a3 a4) := by
  unfold countHit
  repeat' first
    | with_reducible assumption
    | with_reducible exact Keeps.refl _
    | with_reducible apply State.setDmc_keeps

theorem countBurst_keeps {s₀ : State} {a0 : State} (a1 : ℕ) (h0 : Keeps s₀ a0) :
    Keeps s₀ (@countBurst a0 a1) := by
  unfold countBurst
  repeat' first
    | with_reducible assumption
    | with_reducible exact Keeps.refl _
    | with_reducible apply State.setDmc_keeps

theorem writeIssue_keeps {s₀ : State} {a0 : State} (a1 : ℕ) (a2 : WEnt) (h0 : Keeps s₀ a0) :
    Keeps s₀ (@writeIssue a0 a1 a2) := by
  unfold writeIssue
  repeat' first
    | with_reducible assumption
    | with_reducible exact Keeps.refl _
    | with_reducible apply countBurst_keeps
    | with_reducible apply State.setDmc_keeps
    | with_reducible apply leaveList_keeps
    | with_reducible apply State.dramWrite_keeps
    | with_reducible apply cleanHalf_keeps
    | with_reducible apply wrote_keeps
    | with_reducible apply State.wr_keeps
    | with_reducible apply State.inc_keeps
    | with_reducible refine Keeps.foldl ?_ (fun u x hu => ?_)
    | with_reducible apply Keeps.ite
    | with_reducible apply Keeps.ite1
    | with_reducible apply Keeps.ite2
    | with_reducible apply Keeps.ite22
    | split

theorem flushEnd_keeps {s₀ : State} {a0 : State} (a1 : ℕ) (h0 : Keeps s₀ a0) :
    Keeps s₀ (@flushEnd a0 a1) := by
  unfold flushEnd
  repeat' first
    | with_reducible assumption
    | with_reducible exact Keeps.refl _
    | with_reducible apply State.wr_keeps
    | with_reducible apply State.wr_keeps
    | with_reducible apply State.inc_keeps
    | with_reducible refine Keeps.foldl ?_ (fun u x hu => ?_)
    | with_reducible apply Keeps.ite

theorem engIssue_keeps {s₀ : State} {a0 : State} (a1 : ℕ) (a2 : Burst) (h0 : Keeps s₀ a0) :
    Keeps s₀ (@engIssue a0 a1 a2) := by
  unfold engIssue
  repeat' first
    | with_reducible assumption
    | with_reducible exact Keeps.refl _
    | with_reducible apply State.inc_keeps
    | with_reducible apply countBurst_keeps
    | with_reducible apply State.setDmc_keeps
    | with_reducible apply State.wr_keeps
    | with_reducible apply State.inc_keeps
    | with_reducible refine Keeps.foldl ?_ (fun u x hu => ?_)
    | with_reducible apply Keeps.ite

theorem issueCol_keeps {s₀ : State} {a0 : State} (a1 : ℕ) (a2 : Cand) (a3 : List Cand) (h0 : Keeps s₀ a0) :
    Keeps s₀ (@issueCol a0 a1 a2 a3) := by
  unfold issueCol
  repeat' first
    | with_reducible assumption
    | with_reducible exact Keeps.refl _
    | with_reducible apply countHit_keeps
    | with_reducible apply doCol_keeps
    | with_reducible apply State.setDmc_keeps
    | with_reducible apply writeIssue_keeps
    | with_reducible apply victimIssue_keeps
    | with_reducible apply countBurst_keeps
    | with_reducible apply flushEnd_keeps
    | with_reducible apply walkIssue_keeps
    | with_reducible apply engIssue_keeps
    | with_reducible apply State.wr_keeps
    | with_reducible apply State.inc_keeps
    | with_reducible refine Keeps.foldl ?_ (fun u x hu => ?_)
    | with_reducible apply Keeps.ite
    | with_reducible apply Keeps.ite1
    | with_reducible apply Keeps.ite2
    | with_reducible apply Keeps.ite22
    | (lift_lets; intro x; refine Keeps.cut (x := x) ?_ (fun hx => ?_))
    | (lift_lets; intro x)
    | split

theorem doPde_keeps {s₀ : State} {a0 : State} (a1 : ℕ) (a2 : ℕ) (h0 : Keeps s₀ a0) :
    Keeps s₀ (@doPde a0 a1 a2) := by
  unfold doPde
  repeat' first
    | with_reducible assumption
    | with_reducible exact Keeps.refl _
    | with_reducible apply State.setDmc_keeps
    | with_reducible apply State.inc_keeps
    | with_reducible apply State.wr_keeps

theorem issueMapSw_keeps {s₀ : State} {a0 : State} (a1 : ℕ) (h0 : Keeps s₀ a0) :
    Keeps s₀ (@issueMapSw a0 a1) := by
  unfold issueMapSw
  repeat' first
    | with_reducible assumption
    | with_reducible exact Keeps.refl _
    | with_reducible apply State.setTsv_keeps
    | with_reducible apply State.setDmc_keeps

theorem rowSlotUse_keeps {s₀ : State} {a0 : State} (a1 : ℕ) (a2 : List Cand) (h0 : Keeps s₀ a0) :
    Keeps s₀ (@rowSlotUse a0 a1 a2) := by
  unfold rowSlotUse
  repeat' first
    | with_reducible assumption
    | with_reducible exact Keeps.refl _
    | with_reducible apply doPde_keeps
    | with_reducible apply issueMapSw_keeps
    | with_reducible apply issueRow_keeps
    | with_reducible apply State.wr_keeps
    | with_reducible apply State.inc_keeps
    | with_reducible refine Keeps.foldl ?_ (fun u x hu => ?_)
    | with_reducible apply Keeps.ite
    | with_reducible apply Keeps.ite1
    | with_reducible apply Keeps.ite2
    | with_reducible apply Keeps.ite22
    | (lift_lets; intro x; refine Keeps.cut (x := x) ?_ (fun hx => ?_))
    | (lift_lets; intro x)
    | split

theorem colSlotUse_keeps {s₀ : State} {a0 : State} (a1 : ℕ) (a2 : List Cand) (a3 : List Cand) (h0 : Keeps s₀ a0) :
    Keeps s₀ (@colSlotUse a0 a1 a2 a3) := by
  unfold colSlotUse
  repeat' first
    | with_reducible assumption
    | with_reducible exact Keeps.refl _
    | with_reducible apply settle_keeps
    | with_reducible apply issueCol_keeps
    | with_reducible apply State.wr_keeps
    | with_reducible apply State.inc_keeps
    | with_reducible refine Keeps.foldl ?_ (fun u x hu => ?_)
    | with_reducible apply Keeps.ite
    | with_reducible apply Keeps.ite1
    | with_reducible apply Keeps.ite2
    | with_reducible apply Keeps.ite22
    | split

theorem bankSchedule_keeps {s₀ : State} (a0 : ℕ) {a1 : State} (h1 : Keeps s₀ a1) :
    Keeps s₀ (@bankSchedule a0 a1) := by
  unfold bankSchedule
  repeat' first
    | with_reducible assumption
    | with_reducible exact Keeps.refl _
    | with_reducible apply State.setDmc_keeps
    | with_reducible apply updateMode_keeps
    | with_reducible apply upkeep_keeps
    | with_reducible apply colSlotUse_keeps
    | with_reducible apply rowSlotUse_keeps
    | with_reducible apply State.wr_keeps
    | with_reducible apply State.inc_keeps
    | with_reducible refine Keeps.foldl ?_ (fun u x hu => ?_)
    | with_reducible apply Keeps.ite

theorem bgPromote_keeps {s₀ : State} (a0 : ℕ) {a1 : State} (h1 : Keeps s₀ a1) :
    Keeps s₀ (@bgPromote a0 a1) := by
  unfold bgPromote
  repeat' first
    | with_reducible assumption
    | with_reducible apply State.setDmc_keeps

theorem powerDownEntry_keeps {s₀ : State} (a0 : ℕ) (a1 : ℕ) {a2 : State} (h2 : Keeps s₀ a2) :
    Keeps s₀ (@powerDownEntry a0 a1 a2) := by
  unfold powerDownEntry
  repeat' first
    | with_reducible assumption
    | with_reducible apply doPreAll_keeps
    | with_reducible apply State.setDmc_keeps
    | with_reducible apply State.inc_keeps
    | with_reducible apply State.wr_keeps
    | with_reducible apply Keeps.ite

theorem powerDownExit_keeps {s₀ : State} (a0 : ℕ) (a1 : ℕ) {a2 : State} (h2 : Keeps s₀ a2) :
    Keeps s₀ (@powerDownExit a0 a1 a2) := by
  unfold powerDownExit
  repeat' first
    | with_reducible assumption
    | with_reducible apply State.wr_keeps
    | with_reducible apply State.setDmc_keeps
    | with_reducible apply Keeps.ite

theorem srefEnter_keeps {s₀ : State} {a0 : State} (a1 : ℕ) (h0 : Keeps s₀ a0) :
    Keeps s₀ (@srefEnter a0 a1) := by
  unfold srefEnter
  repeat' first
    | with_reducible assumption
    | with_reducible apply doPreAll_keeps
    | with_reducible apply State.wr_keeps
    | with_reducible apply State.setDmc_keeps
    | with_reducible refine Keeps.foldl ?_ (fun u x hu => ?_)

theorem srefExit_keeps {s₀ : State} {a0 : State} (a1 : ℕ) (h0 : Keeps s₀ a0) :
    Keeps s₀ (@srefExit a0 a1) := by
  unfold srefExit
  repeat' first
    | with_reducible assumption
    | with_reducible exact Keeps.refl _
    | with_reducible apply State.draws_keeps
    | (with_reducible apply State.draws_keeps_eq; on_goal 1 => with_reducible assumption)
    | with_reducible apply State.setDmc_keeps
    | with_reducible apply State.wr_keeps
    | with_reducible apply State.wr_keeps
    | with_reducible apply State.inc_keeps
    | with_reducible refine Keeps.foldl ?_ (fun u x hu => ?_)
    | with_reducible apply Keeps.ite

theorem timeOut_keeps {s₀ : State} {a0 : State} (a1 : Req) (h0 : Keeps s₀ a0) :
    Keeps s₀ (@timeOut a0 a1) := by
  unfold timeOut
  repeat' first
    | with_reducible assumption
    | with_reducible apply setReq_keeps

theorem hungRange_keeps {s₀ : State} {a0 : State} (a1 : ℕ) (a2 : Req) (h0 : Keeps s₀ a0) :
    Keeps s₀ (@hungRange a0 a1 a2) := by
  unfold hungRange
  repeat' first
    | with_reducible assumption
    | with_reducible exact Keeps.refl _
    | with_reducible apply setReq_keeps
    | with_reducible apply State.wr_keeps
    | with_reducible apply State.inc_keeps
    | with_reducible refine Keeps.foldl ?_ (fun u x hu => ?_)
    | with_reducible apply Keeps.ite

theorem dropCleanWork_keeps {s₀ : State} {a0 : State} (a1 : ℕ) (h0 : Keeps s₀ a0) :
    Keeps s₀ (@dropCleanWork a0 a1) := by
  unfold dropCleanWork
  repeat' first
    | with_reducible assumption
    | with_reducible exact Keeps.refl _
    | with_reducible apply State.setDmc_keeps
    | with_reducible apply wrote_keeps
    | with_reducible apply setReq_keeps
    | with_reducible apply State.wr_keeps
    | with_reducible apply State.inc_keeps
    | with_reducible refine Keeps.foldl ?_ (fun u x hu => ?_)
    | with_reducible apply Keeps.ite
    | with_reducible apply Keeps.ite1
    | with_reducible apply Keeps.ite2
    | with_reducible apply Keeps.ite22
    | (lift_lets; intro x; refine Keeps.cut (x := x) ?_ (fun hx => ?_))
    | (lift_lets; intro x)
    | split
    | dsimp only

theorem hangEvent_keeps {s₀ : State} {a0 : State} (a1 : ℕ) (a2 : ℕ) (h0 : Keeps s₀ a0) :
    Keeps s₀ (@hangEvent a0 a1 a2) := by
  unfold hangEvent
  repeat' first
    | with_reducible assumption
    | with_reducible apply State.raise_keeps

theorem leaveEngines_keeps {s₀ : State} {a0 : State} (a1 : ℕ) (h0 : Keeps s₀ a0) :
    Keeps s₀ (@leaveEngines a0 a1) := by
  unfold leaveEngines
  repeat' first
    | with_reducible assumption
    | with_reducible exact Keeps.refl _
    | with_reducible apply foldDrop_keeps
    | with_reducible apply State.setDmc_keeps
    | with_reducible apply State.wr_keeps
    | with_reducible apply State.inc_keeps
    | with_reducible refine Keeps.foldl ?_ (fun u x hu => ?_)
    | with_reducible apply Keeps.ite
    | with_reducible apply Keeps.ite1
    | with_reducible apply Keeps.ite2
    | with_reducible apply Keeps.ite22
    | (lift_lets; intro x; refine Keeps.cut (x := x) ?_ (fun hx => ?_))
    | (lift_lets; intro x)
    | split
    | dsimp only
    | dsimp only [x]
    | (with_reducible apply Keeps.mk; with_reducible first | assumption | exact Keeps.refl _ | refine Keeps.foldl ?_ (fun u x hu => ?_) | apply Keeps.ite | apply foldDrop_keeps | apply State.setDmc_keeps)

theorem leaveRun_keeps {s₀ : State} {a0 : State} (a1 : ℕ) (h0 : Keeps s₀ a0) :
    Keeps s₀ (@leaveRun a0 a1) := by
  unfold leaveRun
  repeat' first
    | with_reducible assumption
    | with_reducible exact Keeps.refl _
    | with_reducible apply leaveEngines_keeps
    | with_reducible apply abandonStep_keeps
    | with_reducible apply State.wr_keeps
    | with_reducible apply State.setTsv_keeps
    | with_reducible apply State.wr_keeps
    | with_reducible apply State.inc_keeps
    | with_reducible refine Keeps.foldl ?_ (fun u x hu => ?_)
    | with_reducible apply Keeps.ite
    | with_reducible apply Keeps.ite1
    | with_reducible apply Keeps.ite2
    | with_reducible apply Keeps.ite22
    | (lift_lets; intro x; refine Keeps.cut (x := x) ?_ (fun hx => ?_))
    | (lift_lets; intro x)
    | split
    | dsimp only
    | dsimp only [x]
    | (with_reducible apply Keeps.mk; with_reducible first | assumption | exact Keeps.refl _ | refine Keeps.foldl ?_ (fun u x hu => ?_) | apply Keeps.ite | apply leaveEngines_keeps | apply abandonStep_keeps | apply State.wr_keeps)

theorem dropReads_keeps {s₀ : State} {a0 : State} (a1 : ℕ) (h0 : Keeps s₀ a0) :
    Keeps s₀ (@dropReads a0 a1) := by
  unfold dropReads
  repeat' first
    | with_reducible assumption
    | with_reducible exact Keeps.refl _
    | with_reducible apply dropFills_keeps
    | with_reducible apply State.setDmc_keeps

theorem hangStart_keeps {s₀ : State} (a0 : ℕ) (a1 : ℕ) {a2 : State} (h2 : Keeps s₀ a2) :
    Keeps s₀ (@hangStart a0 a1 a2) := by
  unfold hangStart
  repeat' first
    | with_reducible assumption
    | with_reducible exact Keeps.refl _
    | with_reducible apply State.setDmc_keeps
    | with_reducible apply State.inc_keeps
    | with_reducible apply State.wr_keeps
    | with_reducible apply hangEvent_keeps
    | with_reducible apply foldPause_keeps
    | with_reducible apply srefEnter_keeps
    | with_reducible apply leaveRun_keeps
    | with_reducible apply dropCleanWork_keeps
    | with_reducible apply hungRange_keeps
    | with_reducible apply timeOut_keeps
    | with_reducible apply setReq_keeps
    | with_reducible apply dropReads_keeps
    | with_reducible apply settle_keeps
    | with_reducible apply foldTrigger_keeps
    | with_reducible apply State.wr_keeps
    | with_reducible apply State.inc_keeps
    | with_reducible refine Keeps.foldl ?_ (fun u x hu => ?_)
    | with_reducible apply Keeps.ite

theorem hangDetect_keeps {s₀ : State} (a0 : ℕ) (a1 : Bool) {a2 : State} (h2 : Keeps s₀ a2) :
    Keeps s₀ (@hangDetect a0 a1 a2) := by
  unfold hangDetect
  repeat' first
    | with_reducible assumption
    | with_reducible apply hangStart_keeps
    | with_reducible apply Keeps.ite

theorem backToRun_keeps {s₀ : State} {a0 : State} (a1 : ℕ) (h0 : Keeps s₀ a0) :
    Keeps s₀ (@backToRun a0 a1) := by
  unfold backToRun
  repeat' first
    | with_reducible assumption
    | with_reducible apply State.wr_keeps
    | with_reducible apply srefExit_keeps
    | with_reducible apply foldResume_keeps
    | with_reducible apply State.setDmc_keeps

theorem hangComplete_keeps {s₀ : State} (a0 : ℕ) {a1 : State} (h1 : Keeps s₀ a1) :
    Keeps s₀ (@hangComplete a0 a1) := by
  unfold hangComplete
  repeat' first
    | with_reducible assumption
    | with_reducible apply backToRun_keeps
    | with_reducible apply Keeps.ite

theorem trainStart_keeps {s₀ : State} {a0 : State} (a1 : ℕ) (a2 : Bool) (a3 : List ℕ) (h0 : Keeps s₀ a0) :
    Keeps s₀ (@trainStart a0 a1 a2 a3) := by
  unfold trainStart
  repeat' first
    | with_reducible assumption
    | with_reducible apply State.wr_keeps
    | with_reducible apply State.setDmc_keeps
    | split

theorem refreshStart_keeps {s₀ : State} {a0 : State} (a1 : ℕ) (h0 : Keeps s₀ a0) :
    Keeps s₀ (@refreshStart a0 a1) := by
  unfold refreshStart
  repeat' first
    | with_reducible assumption
    | with_reducible exact Keeps.refl _
    | with_reducible apply State.setDmc_keeps

theorem channelOff_keeps {s₀ : State} {a0 : State} (a1 : ℕ) (h0 : Keeps s₀ a0) :
    Keeps s₀ (@channelOff a0 a1) := by
  unfold channelOff
  repeat' first
    | with_reducible assumption
    | with_reducible exact Keeps.refl _
    | with_reducible apply State.setDmc_keeps
    | with_reducible apply gotSector_keeps
    | with_reducible apply wrote_keeps
    | with_reducible apply State.dramWrite_keeps
    | with_reducible apply settle_keeps
    | with_reducible apply dropFills_keeps
    | with_reducible apply State.wr_keeps
    | with_reducible apply State.inc_keeps
    | with_reducible refine Keeps.foldl ?_ (fun u x hu => ?_)
    | with_reducible apply Keeps.ite

theorem trainEnd_keeps {s₀ : State} {a0 : State} (a1 : ℕ) (a2 : Train) (a3 : Bool) (h0 : Keeps s₀ a0) :
    Keeps s₀ (@trainEnd a0 a1 a2 a3) := by
  unfold trainEnd
  repeat' first
    | with_reducible assumption
    | with_reducible exact Keeps.refl _
    | with_reducible apply State.wr_keeps
    | with_reducible apply State.setDmc_keeps
    | with_reducible apply refreshStart_keeps
    | with_reducible apply hangEvent_keeps
    | with_reducible apply channelOff_keeps
    | with_reducible apply State.wr_keeps
    | with_reducible apply State.inc_keeps
    | with_reducible refine Keeps.foldl ?_ (fun u x hu => ?_)
    | with_reducible apply Keeps.ite

theorem trainCodes_keeps {s₀ : State} {a0 : State} (a1 : ℕ) (a2 : Train) (a3 : ℕ) (a4 : ℕ) (a5 : ℕ) (a6 : List ℕ) (h0 : Keeps s₀ a0) :
    Keeps s₀ (@trainCodes a0 a1 a2 a3 a4 a5 a6) := by
  unfold trainCodes
  repeat' first
    | with_reducible assumption
    | with_reducible apply putDly_keeps
    | with_reducible apply declareDead_keeps
    | with_reducible apply State.wr_keeps
    | with_reducible refine Keeps.foldl ?_ (fun u x hu => ?_)
    | split

theorem trainStepEnd_keeps {s₀ : State} (a0 : ℕ) (a1 : Bool) (a2 : ℕ) (a3 : ℕ) (a4 : ℕ) (a5 : List ℕ) {a6 : State} (h6 : Keeps s₀ a6) :
    Keeps s₀ (@trainStepEnd a0 a1 a2 a3 a4 a5 a6) := by
  unfold trainStepEnd
  repeat' first
    | with_reducible assumption
    | with_reducible apply State.setDmc_keeps
    | with_reducible apply trainCodes_keeps
    | with_reducible apply State.wr_keeps
    | with_reducible apply trainEnd_keeps
    | with_reducible apply State.inc_keeps
    | split

theorem strobeTrack_keeps {s₀ : State} (a0 : ℕ) (a1 : ℕ) (a2 : ℕ) (a3 : Option ℕ) {a4 : State} (h4 : Keeps s₀ a4) :
    Keeps s₀ (@strobeTrack a0 a1 a2 a3 a4) := by
  unfold strobeTrack
  repeat' first
    | with_reducible assumption
    | with_reducible apply State.wr_keeps
    | with_reducible apply strobeFail_keeps
    | split

/-! ## Refresh -/

theorem refreshTick_keeps {s₀ : State} (a0 : ℕ) (a1 : ℕ) {a2 : State} (h2 : Keeps s₀ a2) :
    Keeps s₀ (@refreshTick a0 a1 a2) := by
  unfold refreshTick
  repeat' first
    | with_reducible assumption
    | with_reducible apply State.setDmc_keeps
    | with_reducible apply State.wr_keeps
    | with_reducible apply State.raise_keeps
    | with_reducible apply State.inc_keeps
    | with_reducible apply Keeps.ite

theorem setRate_keeps {s₀ : State} {a0 : State} (a1 : ℕ) (a2 : Bool) (h0 : Keeps s₀ a0) :
    Keeps s₀ (@setRate a0 a1 a2) := by
  unfold setRate
  repeat' first
    | with_reducible assumption
    | with_reducible apply State.inc_keeps
    | with_reducible apply State.wr_keeps
    | with_reducible apply Keeps.ite

theorem allDoubled_keeps {s₀ : State} {a0 : State} (h0 : Keeps s₀ a0) :
    Keeps s₀ (@allDoubled a0) := by
  unfold allDoubled
  repeat' first
    | with_reducible assumption
    | with_reducible exact Keeps.refl _
    | with_reducible apply setRate_keeps
    | with_reducible apply State.wr_keeps
    | with_reducible apply State.inc_keeps
    | with_reducible refine Keeps.foldl ?_ (fun u x hu => ?_)

theorem setSbad_keeps {s₀ : State} {a0 : State} (a1 : ℕ) (a2 : Bool) (h0 : Keeps s₀ a0) :
    Keeps s₀ (@setSbad a0 a1 a2) := by
  unfold setSbad
  repeat' first
    | with_reducible assumption
    | with_reducible apply State.wr_keeps

theorem dieReading_keeps {s₀ : State} (a0 : ℕ) (a1 : Option ℕ) (a2 : Bool) {a3 : State} (h3 : Keeps s₀ a3) :
    Keeps s₀ (@dieReading a0 a1 a2 a3) := by
  unfold dieReading
  repeat' first
    | split
    | dsimp only
    | (with_reducible apply Keeps.mk; with_reducible first | assumption | exact Keeps.refl _ | refine Keeps.foldl ?_ (fun u x hu => ?_) | apply Keeps.ite | apply setRate_keeps | apply setSbad_keeps | apply State.wr_keeps)

theorem dieThreshold_keeps {s₀ : State} {a0 : State} (h0 : Keeps s₀ a0) :
    Keeps s₀ (@dieThreshold a0).2 := by
  unfold dieThreshold
  repeat' first
    | with_reducible assumption
    | with_reducible apply State.draw_keeps
    | with_reducible apply Keeps.ite2

theorem dieThreshold_keeps_eq {s₀ : State} {a0 : State} {r0 : ℕ} {r1 : State}
    (e : @dieThreshold a0 = (r0, r1)) (h0 : Keeps s₀ a0) : Keeps s₀ r1 := by
  have := dieThreshold_keeps  h0
  rw [e] at this
  exact this

theorem setStroke_keeps {s₀ : State} {a0 : State} (a1 : ℕ) (a2 : ℕ) (h0 : Keeps s₀ a0) :
    Keeps s₀ (@setStroke a0 a1 a2) := by
  unfold setStroke
  repeat' first
    | (with_reducible apply Keeps.mk; with_reducible assumption)

theorem dieReport_keeps {s₀ : State} {a0 : State} (a1 : ℕ) (a2 : ℕ) (a3 : ℕ) (a4 : ℕ) (a5 : Bool) (h0 : Keeps s₀ a0) :
    Keeps s₀ (@dieReport a0 a1 a2 a3 a4 a5) := by
  unfold dieReport
  repeat' first
    | with_reducible assumption
    | with_reducible apply setStroke_keeps
    | with_reducible apply State.setDmc_keeps
    | with_reducible apply Keeps.ite

theorem strokeUpdate_keeps {s₀ : State} (ch b row word : ℕ) {t : ℕ × State} (h : Keeps s₀ t.2) : Keeps s₀ (strokeUpdate ch b row word t) := by
  unfold strokeUpdate
  extract_lets key n
  clear_value key n
  exact .ite (setStroke_keeps _ _ h) (dieReport_keeps _ _ _ _ _ h)

theorem rowClose_keeps {s₀ : State} (a0 : ℕ) (a1 : ℕ) {a2 : State} (h2 : Keeps s₀ a2) : Keeps s₀ (rowClose a0 a1 a2) := by
  unfold rowClose
  split
  · exact h2
  · exact strokeUpdate_keeps _ _ _ _ (dieThreshold_keeps (State.setDmc_keeps _ _ h2))

theorem thresholdSent_keeps {s₀ : State} (a0 : ℕ) {a1 : State} (h1 : Keeps s₀ a1) :
    Keeps s₀ (@thresholdSent a0 a1) := by
  unfold thresholdSent
  repeat' first
    | (with_reducible apply Keeps.mk; with_reducible assumption)

theorem backlogEvent_keeps {s₀ : State} {a0 : State} (a1 : ℕ) (a2 : Bool) (h0 : Keeps s₀ a0) :
    Keeps s₀ (@backlogEvent a0 a1 a2) := by
  unfold backlogEvent
  repeat' first
    | with_reducible assumption
    | with_reducible apply State.lasting_keeps
    | with_reducible apply State.raise_keeps

theorem trackBacklog_keeps {s₀ : State} {a0 : State} (a1 : ℕ) (a2 : Bool) (h0 : Keeps s₀ a0) :
    Keeps s₀ (@trackBacklog a0 a1 a2) := by
  unfold trackBacklog
  repeat' first
    | with_reducible assumption
    | with_reducible exact Keeps.refl _
    | with_reducible apply State.setDmc_keeps
    | with_reducible apply backlogEvent_keeps
    | with_reducible apply State.wr_keeps
    | with_reducible apply State.inc_keeps
    | with_reducible refine Keeps.foldl ?_ (fun u x hu => ?_)
    | with_reducible apply Keeps.ite

theorem reportReceive_keeps {s₀ : State} (a0 : ℕ) (a1 : ℕ) (a2 : List ℕ) {a3 : State} (h3 : Keeps s₀ a3) :
    Keeps s₀ (@reportReceive a0 a1 a2 a3) := by
  unfold reportReceive
  repeat' first
    | with_reducible assumption
    | with_reducible exact Keeps.refl _
    | with_reducible apply reportBeats_keeps
    | with_reducible apply State.inc_keeps
    | with_reducible apply State.setDmc_keeps
    | with_reducible apply State.wr_keeps
    | with_reducible apply trackBacklog_keeps
    | with_reducible apply State.wr_keeps
    | with_reducible apply State.inc_keeps
    | with_reducible refine Keeps.foldl ?_ (fun u x hu => ?_)
    | with_reducible apply Keeps.ite

theorem backlogTimeout_keeps {s₀ : State} (a0 : ℕ) {a1 : State} (h1 : Keeps s₀ a1) :
    Keeps s₀ (@backlogTimeout a0 a1) := by
  unfold backlogTimeout
  repeat' first
    | with_reducible assumption
    | with_reducible exact Keeps.refl _
    | with_reducible apply trackBacklog_keeps

theorem victimRefreshDone_keeps {s₀ : State} (a0 : ℕ) (a1 : ℕ) {a2 : State} (h2 : Keeps s₀ a2) :
    Keeps s₀ (@victimRefreshDone a0 a1 a2) := by
  unfold victimRefreshDone
  repeat' first
    | with_reducible assumption
    | with_reducible exact Keeps.refl _
    | with_reducible apply State.setDmc_keeps
    | with_reducible apply trackBacklog_keeps
    | with_reducible apply State.inc_keeps
    | with_reducible apply State.wr_keeps
    | with_reducible apply State.inc_keeps
    | with_reducible refine Keeps.foldl ?_ (fun u x hu => ?_)
    | with_reducible apply Keeps.ite
    | with_reducible apply Keeps.ite1
    | with_reducible apply Keeps.ite2
    | with_reducible apply Keeps.ite22
    | (lift_lets; intro x; refine Keeps.cut (x := x) ?_ (fun hx => ?_))
    | (lift_lets; intro x)
    | split

theorem scrubRead_keeps {s₀ : State} (ch b r : ℕ) (err : List ℕ) {t : State × List ℕ} (k : ℕ) (h : Keeps s₀ t.1) :
    Keeps s₀ (scrubRead ch b r err t k).1 := by
  unfold scrubRead
  extract_lets ps
  split
  next u x c y e =>
  have hu : Keeps s₀ u := readDram_keeps_eq _ _ _ _ _ e h
  exact .ite (handOver_keeps _ _ _ hu) hu

theorem scrubStep_keeps {s₀ : State} (a0 : ℕ) (a1 : List ℕ) {a2 : State} (h2 : Keeps s₀ a2) :
    Keeps s₀ (scrubStep a0 a1 a2) := by
  unfold scrubStep
  extract_lets d b r got
  have hg : Keeps s₀ got.1 := .foldlP _ h2 fun q x hq => scrubRead_keeps _ _ _ _ _ hq
  clear_value got
  exact .ite h2 (scrubStepOver_keeps _ (.mk hg))

theorem scrubWriteback_keeps {s₀ : State} (a0 : ℕ) (a1 : List ℕ) {a2 : State} (h2 : Keeps s₀ a2) :
    Keeps s₀ (@scrubWriteback a0 a1 a2) := by
  unfold scrubWriteback
  repeat' first
    | with_reducible assumption
    | with_reducible exact Keeps.refl _
    | with_reducible apply scrubStepOver_keeps
    | with_reducible apply State.setDmc_keeps
    | with_reducible apply readDram_keeps
    | (with_reducible apply readDram_keeps_eq; on_goal 1 => with_reducible assumption)
    | with_reducible apply State.inc_keeps
    | with_reducible apply State.dramStore_keeps
    | with_reducible apply doCol_keeps
    | with_reducible apply State.wr_keeps
    | with_reducible apply State.inc_keeps
    | with_reducible refine Keeps.foldl ?_ (fun u x hu => ?_)
    | with_reducible apply Keeps.ite
    | with_reducible apply Keeps.ite1
    | with_reducible apply Keeps.ite2
    | with_reducible apply Keeps.ite22
    | (lift_lets; intro x; refine Keeps.cut (x := x) ?_ (fun hx => ?_))
    | (lift_lets; intro x)
    | split
    | dsimp only

theorem cacheScrub_keeps {s₀ : State} (a0 : ℕ) (a1 : ℕ) (a2 : ℕ) (a3 : ℕ) (a4 : ℕ) (a5 : ℕ) (a6 : ℕ) {a7 : State} (h7 : Keeps s₀ a7) :
    Keeps s₀ (@cacheScrub a0 a1 a2 a3 a4 a5 a6 a7) := by
  unfold cacheScrub
  repeat' first
    | with_reducible assumption
    | with_reducible apply State.inc_keeps
    | with_reducible apply sliceDecode_keeps
    | with_reducible apply sliceFound_keeps
    | with_reducible apply arrayWord_keeps
    | with_reducible apply ctxUncorrectable_keeps
    | with_reducible apply remapUncorrectable_keeps
    | split

end Sys2Proof.Machine
end

