-- ==== Sys2Proof/Laws/KeepsPower.lean ====
section
/-! SUPPORT. What every operation keeps: of management, faults, calibration, answers, power, heat and the test access port. -/

namespace Sys2Proof.Machine

/-! ## Mgt -/

theorem State.setMbx_keeps {s₀ : State} {a0 : State} (a1 : ℕ) (a2 : Mbx) (h0 : Keeps s₀ a0) :
    Keeps s₀ (@State.setMbx a0 a1 a2) := by
  unfold State.setMbx
  repeat' first
    | (with_reducible apply Keeps.mk; with_reducible assumption)

theorem State.modMbx_keeps {s₀ : State} {a0 : State} (a1 : ℕ) (a2 : Mbx → Mbx) (h0 : Keeps s₀ a0) :
    Keeps s₀ (@State.modMbx a0 a1 a2) := by
  unfold State.modMbx
  repeat' first
    | with_reducible assumption
    | with_reducible apply State.setMbx_keeps

theorem setMstate_keeps {s₀ : State} {a0 : State} (a1 : ℕ) (a2 : ℕ) (h0 : Keeps s₀ a0) :
    Keeps s₀ (@setMstate a0 a1 a2) := by
  unfold setMstate
  repeat' first
    | with_reducible assumption
    | with_reducible apply State.wr_keeps
    | with_reducible apply Keeps.ite

theorem setExpSeq_keeps {s₀ : State} {a0 : State} (a1 : ℕ) (a2 : ℕ) (h0 : Keeps s₀ a0) :
    Keeps s₀ (@setExpSeq a0 a1 a2) := by
  unfold setExpSeq
  repeat' first
    | with_reducible assumption
    | with_reducible apply State.wr_keeps
    | with_reducible apply Keeps.ite

theorem countCmd_keeps {s₀ : State} {a0 : State} (a1 : ℕ) (h0 : Keeps s₀ a0) :
    Keeps s₀ (@countCmd a0 a1) := by
  unfold countCmd
  repeat' first
    | with_reducible assumption
    | with_reducible apply State.inc_keeps
    | with_reducible apply Keeps.ite

theorem countIgn_keeps {s₀ : State} {a0 : State} (a1 : ℕ) (h0 : Keeps s₀ a0) :
    Keeps s₀ (@countIgn a0 a1) := by
  unfold countIgn
  repeat' first
    | with_reducible assumption
    | with_reducible apply State.inc_keeps
    | with_reducible apply Keeps.ite

theorem sendFrame_keeps {s₀ : State} {a0 : State} (a1 : List Byte) (h0 : Keeps s₀ a0) :
    Keeps s₀ (@sendFrame a0 a1) := by
  unfold sendFrame
  repeat' first
    | (with_reducible apply Keeps.mk; with_reducible first | assumption | exact Keeps.refl _ | refine Keeps.foldl ?_ (fun u x hu => ?_) | apply Keeps.ite)

theorem frameErr_keeps {s₀ : State} {a0 : State} (a1 : ℕ) (a2 : Code) (h0 : Keeps s₀ a0) :
    Keeps s₀ (@frameErr a0 a1 a2) := by
  unfold frameErr
  repeat' first
    | with_reducible assumption
    | with_reducible apply sendFrame_keeps
    | with_reducible apply State.inc_keeps

theorem tellMaster_keeps {s₀ : State} {a0 : State} (a1 : ℕ) (a2 : Code) (a3 : List Byte) (h0 : Keeps s₀ a0) :
    Keeps s₀ (@tellMaster a0 a1 a2 a3) := by
  unfold tellMaster
  repeat' first
    | split
    | (with_reducible apply Keeps.mk; with_reducible first | assumption | exact Keeps.refl _ | refine Keeps.foldl ?_ (fun u x hu => ?_) | apply Keeps.ite | apply sendVc2_keeps | apply sendFrame_keeps)

theorem respond_keeps {s₀ : State} {a0 : State} (a1 : ℕ) (a2 : Code) (a3 : ℕ) (a4 : List Byte) (h0 : Keeps s₀ a0) :
    Keeps s₀ (@respond a0 a1 a2 a3 a4) := by
  unfold respond
  repeat' first
    | with_reducible assumption
    | with_reducible apply tellMaster_keeps
    | with_reducible apply countCmd_keeps
    | with_reducible apply State.modMbx_keeps

theorem freeLease_keeps {s₀ : State} {a0 : State} (a1 : ℕ) (h0 : Keeps s₀ a0) :
    Keeps s₀ (@freeLease a0 a1) := by
  unfold freeLease
  repeat' first
    | (with_reducible apply Keeps.mk; with_reducible first | assumption | exact Keeps.refl _ | refine Keeps.foldl ?_ (fun u x hu => ?_) | apply Keeps.ite | apply State.wr_keeps)

theorem releaseLeases_keeps {s₀ : State} {a0 : State} (a1 : ℕ) (h0 : Keeps s₀ a0) :
    Keeps s₀ (@releaseLeases a0 a1) := by
  unfold releaseLeases
  repeat' first
    | with_reducible assumption
    | with_reducible apply freeLease_keeps
    | with_reducible refine Keeps.foldl ?_ (fun u x hu => ?_)
    | with_reducible apply Keeps.ite

theorem renewLease_keeps {s₀ : State} {a0 : State} (a1 : ℕ) (h0 : Keeps s₀ a0) :
    Keeps s₀ (@renewLease a0 a1) := by
  unfold renewLease
  repeat' first
    | (with_reducible apply Keeps.mk; with_reducible assumption)

theorem leaseExpiry_keeps {s₀ : State} (a0 : ℕ) {a1 : State} (h1 : Keeps s₀ a1) :
    Keeps s₀ (@leaseExpiry a0 a1) := by
  unfold leaseExpiry
  repeat' first
    | with_reducible assumption
    | with_reducible apply State.raiseG_keeps
    | with_reducible apply freeLease_keeps
    | with_reducible apply Keeps.ite

theorem takeCommand_keeps {s₀ : State} {a0 : State} (a1 : ℕ) (a2 : ℕ) (h0 : Keeps s₀ a0) :
    Keeps s₀ (@takeCommand a0 a1 a2) := by
  unfold takeCommand
  repeat' first
    | with_reducible assumption
    | with_reducible apply State.modMbx_keeps
    | with_reducible apply setMstate_keeps

theorem doorbell_keeps {s₀ : State} (a0 : ℕ) (a1 : ℕ) {a2 : State} (h2 : Keeps s₀ a2) :
    Keeps s₀ (@doorbell a0 a1 a2) := by
  unfold doorbell
  repeat' first
    | with_reducible assumption
    | with_reducible apply takeCommand_keeps
    | with_reducible apply respond_keeps
    | with_reducible apply State.modMbx_keeps
    | with_reducible apply countIgn_keeps
    | with_reducible apply Keeps.ite
    | split

theorem setCore_keeps {s₀ : State} {a0 : State} (a1 : Bool) (a2 : ℕ) (h0 : Keeps s₀ a0) :
    Keeps s₀ (@setCore a0 a1 a2) := by
  unfold setCore
  repeat' first
    | with_reducible assumption
    | with_reducible apply State.wr_keeps
    | with_reducible apply Keeps.ite

theorem setSlot_keeps {s₀ : State} {a0 : State} (a1 : Bool) (a2 : ℕ) (h0 : Keeps s₀ a0) :
    Keeps s₀ (@setSlot a0 a1 a2) := by
  unfold setSlot
  repeat' first
    | with_reducible assumption
    | with_reducible apply State.wr_keeps
    | with_reducible apply Keeps.ite

theorem markBoat_keeps {s₀ : State} {a0 : State} (a1 : ℕ) (a2 : Bool) (h0 : Keeps s₀ a0) :
    Keeps s₀ (@markBoat a0 a1 a2) := by
  unfold markBoat
  repeat' first
    | with_reducible assumption
    | with_reducible apply State.wr_keeps
    | with_reducible apply State.putStackWord_keeps
    | with_reducible apply Keeps.ite

theorem badImage_keeps {s₀ : State} {a0 : State} (a1 : ℕ) (h0 : Keeps s₀ a0) :
    Keeps s₀ (@badImage a0 a1) := by
  unfold badImage
  repeat' first
    | with_reducible assumption
    | with_reducible apply State.raiseG_keeps
    | with_reducible apply markBoat_keeps

theorem romImage_keeps {s₀ : State} {a0 : State} (a1 : ℕ → Bool) (h0 : Keeps s₀ a0) :
    Keeps s₀ (@romImage a0 a1).2 := by
  unfold romImage
  repeat' first
    | with_reducible assumption
    | with_reducible apply badImage_keeps
    | with_reducible apply Keeps.ite2

theorem romImage_keeps_eq {s₀ : State} {a0 : State} (a1 : ℕ → Bool) {r0 : Option ℕ} {r1 : State}
    (e : @romImage a0 a1 = (r0, r1)) (h0 : Keeps s₀ a0) : Keeps s₀ r1 := by
  have := romImage_keeps a1 h0
  rw [e] at this
  exact this

theorem enterRecovery_keeps {s₀ : State} {a0 : State} (h0 : Keeps s₀ a0) :
    Keeps s₀ (@enterRecovery a0) := by
  unfold enterRecovery
  repeat' first
    | with_reducible assumption
    | with_reducible apply State.raiseG_keeps
    | with_reducible apply State.wr_keeps
    | with_reducible apply setCore_keeps

theorem replayJournal_keeps {s₀ : State} {a0 : State} (h0 : Keeps s₀ a0) :
    Keeps s₀ (@replayJournal a0) := by
  unfold replayJournal
  repeat' first
    | with_reducible assumption
    | with_reducible apply State.modMbx_keeps
    | with_reducible refine Keeps.foldl ?_ (fun u x hu => ?_)
    | with_reducible apply Keeps.ite

theorem romBoot_keeps {s₀ : State} {a0 : State} (a1 : Bool) (a2 : ℕ → Bool) (h0 : Keeps s₀ a0) :
    Keeps s₀ (romBoot a0 a1 a2) := by
  unfold romBoot
  have hr := romImage_keeps a2 h0
  split
  next e => rw [e] at hr; exact enterRecovery_keeps hr
  next slot u e =>
    rw [e] at hr
    extract_lets s1 m s2
    have h1 : Keeps s₀ s1 := State.wr_keeps (setSlot_keeps _ _ (setCore_keeps _ _ hr)) ..
    have h2 : Keeps s₀ s2 := .mk h1
    clear_value s1 m s2
    exact replayJournal_keeps (.ite (.ite (setSlot_keeps _ _ (setCore_keeps _ _ h2)) (setCore_keeps _ _ h2)) h2)

theorem coxBoot_keeps {s₀ : State} (a0 : Bool) (a1 : Bool) {a2 : State} (h2 : Keeps s₀ a2) :
    Keeps s₀ (@coxBoot a0 a1 a2) := by
  unfold coxBoot
  repeat' first
    | with_reducible assumption
    | with_reducible apply romBoot_keeps
    | with_reducible apply Keeps.ite

theorem coxATimeout_keeps {s₀ : State} (a0 : Bool) (a1 : Bool) {a2 : State} (h2 : Keeps s₀ a2) :
    Keeps s₀ (@coxATimeout a0 a1 a2) := by
  unfold coxATimeout
  repeat' first
    | with_reducible assumption
    | with_reducible exact Keeps.refl _
    | with_reducible apply romBoot_keeps
    | with_reducible apply setCore_keeps
    | with_reducible apply State.wr_keeps
    | with_reducible apply State.inc_keeps
    | with_reducible refine Keeps.foldl ?_ (fun u x hu => ?_)
    | with_reducible apply Keeps.ite
    | with_reducible apply Keeps.ite1
    | with_reducible apply Keeps.ite2
    | with_reducible apply Keeps.ite22
    | (lift_lets; intro x; refine Keeps.cut (x := x) ?_ (fun hx => ?_))
    | (lift_lets; intro x)
    | split
    | dsimp only
    | dsimp only [x]
    | (with_reducible apply Keeps.mk; with_reducible first | assumption | exact Keeps.refl _ | refine Keeps.foldl ?_ (fun u x hu => ?_) | apply Keeps.ite | apply romBoot_keeps | apply setCore_keeps)

theorem takeover_keeps {s₀ : State} {a0 : State} (a1 : ℕ) (a2 : ℕ) (h0 : Keeps s₀ a0) :
    Keeps s₀ (@takeover a0 a1 a2) := by
  unfold takeover
  repeat' first
    | (with_reducible apply Keeps.mk; with_reducible first | assumption | exact Keeps.refl _ | refine Keeps.foldl ?_ (fun u x hu => ?_) | apply Keeps.ite | apply State.wr_keeps | apply setCore_keeps | apply State.inc_keeps | apply replayJournal_keeps)

theorem runTakeover_keeps {s₀ : State} {a0 : State} (h0 : Keeps s₀ a0) :
    Keeps s₀ (@runTakeover a0) := by
  unfold runTakeover
  repeat' first
    | split
    | (with_reducible apply Keeps.mk; with_reducible first | assumption | exact Keeps.refl _ | refine Keeps.foldl ?_ (fun u x hu => ?_) | apply Keeps.ite | apply setCore_keeps | apply State.wr_keeps | apply takeover_keeps | apply State.raiseG_keeps)

theorem planTakeover_keeps {s₀ : State} {a0 : State} (a1 : ℕ) (h0 : Keeps s₀ a0) :
    Keeps s₀ (@planTakeover a0 a1).2 := by
  unfold planTakeover
  repeat' first
    | with_reducible apply Keeps.ite2
    | (with_reducible apply Keeps.mk; with_reducible first | assumption | exact Keeps.refl _ | refine Keeps.foldl ?_ (fun u x hu => ?_) | apply Keeps.ite | apply runTakeover_keeps)

theorem planTakeover_keeps_eq {s₀ : State} {a0 : State} (a1 : ℕ) {r0 : Code} {r1 : State}
    (e : @planTakeover a0 a1 = (r0, r1)) (h0 : Keeps s₀ a0) : Keeps s₀ r1 := by
  have := planTakeover_keeps a1 h0
  rw [e] at this
  exact this

theorem trialFailed_keeps {s₀ : State} {a0 : State} (h0 : Keeps s₀ a0) :
    Keeps s₀ (@trialFailed a0) := by
  unfold trialFailed
  repeat' first
    | split
    | (with_reducible apply Keeps.mk; with_reducible first | assumption | exact Keeps.refl _ | refine Keeps.foldl ?_ (fun u x hu => ?_) | apply Keeps.ite | apply State.raiseG_keeps | apply State.wr_keeps | apply markBoat_keeps)

theorem coreFault_keeps {s₀ : State} (a0 : Bool) (a1 : ℕ) {a2 : State} (h2 : Keeps s₀ a2) :
    Keeps s₀ (@coreFault a0 a1 a2) := by
  unfold coreFault
  repeat' first
    | with_reducible assumption
    | with_reducible apply State.raiseG_keeps
    | with_reducible apply trialFailed_keeps
    | with_reducible apply takeover_keeps
    | with_reducible apply setCore_keeps
    | with_reducible apply State.wr_keeps
    | with_reducible apply Keeps.ite

theorem watchdogExpiry_keeps {s₀ : State} (a0 : Bool) {a1 : State} (h1 : Keeps s₀ a1) :
    Keeps s₀ (@watchdogExpiry a0 a1) := by
  unfold watchdogExpiry
  repeat' first
    | with_reducible assumption
    | with_reducible apply coreFault_keeps
    | with_reducible apply Keeps.ite

theorem beat_keeps {s₀ : State} (a0 : Bool) {a1 : State} (h1 : Keeps s₀ a1) :
    Keeps s₀ (@beat a0 a1) := by
  unfold beat
  repeat' first
    | (with_reducible apply Keeps.mk; with_reducible assumption)

theorem standbyReload_keeps {s₀ : State} (a0 : Bool) {a1 : State} (h1 : Keeps s₀ a1) :
    Keeps s₀ (@standbyReload a0 a1) := by
  unfold standbyReload
  repeat' first
    | with_reducible assumption
    | with_reducible apply setSlot_keeps
    | with_reducible apply setCore_keeps
    | with_reducible apply State.raiseG_keeps
    | with_reducible apply Keeps.ite

theorem trialEnd_keeps {s₀ : State} {a0 : State} (h0 : Keeps s₀ a0) :
    Keeps s₀ (@trialEnd a0) := by
  unfold trialEnd
  repeat' first
    | split
    | (with_reducible apply Keeps.mk; with_reducible first | assumption | exact Keeps.refl _ | refine Keeps.foldl ?_ (fun u x hu => ?_) | apply Keeps.ite | apply State.putStackWord_keeps | apply State.wr_keeps | apply State.raiseG_keeps | apply setCore_keeps)

theorem loadDone_keeps {s₀ : State} {a0 : State} (a1 : ℕ) (h0 : Keeps s₀ a0) :
    Keeps s₀ (@loadDone a0 a1) := by
  unfold loadDone
  repeat' first
    | split
    | (with_reducible apply Keeps.mk; with_reducible assumption)

theorem afterPost_keeps {s₀ : State} {a0 : State} (a1 : ℕ) (a2 : ℕ) (a3 : Code) (h0 : Keeps s₀ a0) :
    Keeps s₀ (@afterPost a0 a1 a2 a3) := by
  unfold afterPost
  repeat' first
    | (with_reducible apply Keeps.mk; with_reducible first | assumption | exact Keeps.refl _ | refine Keeps.foldl ?_ (fun u x hu => ?_) | apply Keeps.ite | apply releaseLeases_keeps | apply setMstate_keeps | apply loadDone_keeps)

theorem responsePost_keeps {s₀ : State} (a0 : ℕ) {a1 : State} (h1 : Keeps s₀ a1) :
    Keeps s₀ (@responsePost a0 a1) := by
  unfold responsePost
  refine .ite h1 ?_
  split
  · exact h1
  next c d p e =>
  extract_lets opc q s1 s2 s3 s4 q2 s5 reqs
  have k1 : Keeps s₀ s1 := .ite (.mk h1) h1
  have k4 : Keeps s₀ s4 := State.modMbx_keeps _ _ (setExpSeq_keeps _ _ (afterPost_keeps _ _ _ (respond_keeps _ _ _ _ k1)))
  have k5 : Keeps s₀ s5 := by
    dsimp only [s5]
    split
    · exact .ite (.mk k4) k4
    · exact k4
  exact runTakeover_keeps (Keeps.mkSub k5 ids_filter rfl)

theorem closeMailboxes_keeps {s₀ : State} {a0 : State} (h0 : Keeps s₀ a0) :
    Keeps s₀ (@closeMailboxes a0) := by
  unfold closeMailboxes
  repeat' first
    | (with_reducible apply Keeps.mk; with_reducible first | assumption | exact Keeps.refl _ | refine Keeps.foldl ?_ (fun u x hu => ?_) | apply Keeps.ite | apply releaseLeases_keeps | apply State.modMbx_keeps | apply setMstate_keeps)

theorem endAuth_keeps {s₀ : State} {a0 : State} (h0 : Keeps s₀ a0) :
    Keeps s₀ (@endAuth a0) := by
  unfold endAuth
  repeat' first
    | split
    | dsimp only
    | (with_reducible apply Keeps.mk; with_reducible first | assumption | exact Keeps.refl _ | refine Keeps.foldl ?_ (fun u x hu => ?_) | apply Keeps.ite | apply releaseLeases_keeps | apply State.wr_keeps)

/-! ## Faults -/

theorem eventRaise_keeps {s₀ : State} (a0 : ℕ) (a1 : Sev) (a2 : List ℕ) {a3 : State} (h3 : Keeps s₀ a3) :
    Keeps s₀ (@eventRaise a0 a1 a2 a3) := by
  unfold eventRaise
  repeat' first
    | with_reducible assumption
    | with_reducible apply State.raise_keeps
    | with_reducible apply Keeps.ite

theorem easyEnd_keeps {s₀ : State} {a0 : State} (h0 : Keeps s₀ a0) :
    Keeps s₀ (@easyEnd a0) := by
  unfold easyEnd
  repeat' first
    | split
    | (with_reducible apply Keeps.mk; with_reducible first | assumption | exact Keeps.refl _ | refine Keeps.foldl ?_ (fun u x hu => ?_) | apply Keeps.ite | apply State.wr_keeps | apply State.putStackWord_keeps | apply State.raiseG_keeps)

theorem evtSend_keeps {s₀ : State} (a0 : ℕ) {a1 : State} (h1 : Keeps s₀ a1) :
    Keeps s₀ (@evtSend a0 a1) := by
  unfold evtSend
  repeat' first
    | split
    | (with_reducible apply Keeps.mk; with_reducible first | assumption | exact Keeps.refl _ | refine Keeps.foldl ?_ (fun u x hu => ?_) | apply Keeps.ite | apply sendVc2_keeps)

theorem logWrite_keeps {s₀ : State} {a0 : State} (h0 : Keeps s₀ a0) :
    Keeps s₀ (@logWrite a0) := by
  unfold logWrite
  repeat' first
    | split
    | (with_reducible apply Keeps.mk; with_reducible first | assumption | exact Keeps.refl _ | refine Keeps.foldl ?_ (fun u x hu => ?_) | apply Keeps.ite | apply State.logToPort_keeps)

theorem tokenRefill_keeps {s₀ : State} {a0 : State} (h0 : Keeps s₀ a0) :
    Keeps s₀ (@tokenRefill a0) := by
  unfold tokenRefill
  repeat' first
    | (with_reducible apply Keeps.mk; with_reducible assumption)

theorem copySend_keeps {s₀ : State} {a0 : State} (h0 : Keeps s₀ a0) :
    Keeps s₀ (@copySend a0) := by
  unfold copySend
  repeat' first
    | split
    | (with_reducible apply Keeps.mk; with_reducible assumption)

theorem discardQueues_keeps {s₀ : State} {a0 : State} (h0 : Keeps s₀ a0) :
    Keeps s₀ (@discardQueues a0) := by
  unfold discardQueues
  repeat' first
    | (with_reducible apply Keeps.mk; with_reducible first | assumption | exact Keeps.refl _ | refine Keeps.foldl ?_ (fun u x hu => ?_) | apply Keeps.ite | apply State.inc_keeps)

theorem ffClear_keeps {s₀ : State} {a0 : State} (h0 : Keeps s₀ a0) :
    Keeps s₀ (@ffClear a0).2 := by
  unfold ffClear
  repeat' first
    | with_reducible assumption
    | with_reducible apply State.clearFields_keeps
    | with_reducible apply State.clearAll_keeps
    | with_reducible apply Keeps.ite2

theorem ffClear_keeps_eq {s₀ : State} {a0 : State} {r0 : Code} {r1 : State}
    (e : @ffClear a0 = (r0, r1)) (h0 : Keeps s₀ a0) : Keeps s₀ r1 := by
  have := ffClear_keeps  h0
  rw [e] at this
  exact this

theorem fcrClear_keeps {s₀ : State} {a0 : State} (h0 : Keeps s₀ a0) :
    Keeps s₀ (@fcrClear a0) := by
  unfold fcrClear
  repeat' first
    | (with_reducible apply Keeps.mk; with_reducible first | assumption | exact Keeps.refl _ | refine Keeps.foldl ?_ (fun u x hu => ?_) | apply Keeps.ite | apply State.clearFields_keeps | apply State.clearAll_keeps)

theorem raiseGo_keeps {s₀ : State} {a0 : State} (h0 : Keeps s₀ a0) :
    Keeps s₀ (@raiseGo a0) := by
  unfold raiseGo
  repeat' first
    | with_reducible assumption
    | with_reducible apply State.raiseAs_keeps

theorem sendPm_keeps {s₀ : State} {a0 : State} (a1 : ℕ) (h0 : Keeps s₀ a0) :
    Keeps s₀ (@sendPm a0 a1) := by
  unfold sendPm
  repeat' first
    | (with_reducible apply Keeps.mk; with_reducible first | assumption | exact Keeps.refl _ | refine Keeps.foldl ?_ (fun u x hu => ?_) | apply Keeps.ite | apply sendVc2_keeps)

/-! ## Calib -/

theorem takeCheckers_keeps {s₀ : State} {a0 : State} (h0 : Keeps s₀ a0) :
    Keeps s₀ (@takeCheckers a0) := by
  unfold takeCheckers
  repeat' first
    | with_reducible assumption
    | with_reducible exact Keeps.refl _
    | with_reducible apply takeChecker_keeps
    | with_reducible apply State.wr_keeps
    | with_reducible apply State.inc_keeps
    | with_reducible refine Keeps.foldl ?_ (fun u x hu => ?_)
    | with_reducible apply Keeps.ite
    | with_reducible apply Keeps.ite1
    | with_reducible apply Keeps.ite2
    | with_reducible apply Keeps.ite22
    | split

theorem freeCheckers_keeps {s₀ : State} {a0 : State} (h0 : Keeps s₀ a0) :
    Keeps s₀ (@freeCheckers a0) := by
  unfold freeCheckers
  repeat' first
    | with_reducible assumption
    | with_reducible exact Keeps.refl _
    | with_reducible apply dropChecker_keeps
    | with_reducible apply State.wr_keeps
    | with_reducible apply State.inc_keeps
    | with_reducible refine Keeps.foldl ?_ (fun u x hu => ?_)
    | with_reducible apply Keeps.ite

theorem calStart_keeps {s₀ : State} {a0 : State} (a1 : ℕ) (a2 : Option ℕ) (h0 : Keeps s₀ a0) :
    Keeps s₀ (@calStart a0 a1 a2) := by
  unfold calStart
  repeat' first
    | with_reducible assumption
    | with_reducible exact Keeps.refl _
    | with_reducible apply takeCheckers_keeps
    | with_reducible apply State.wr_keeps
    | with_reducible apply State.wr_keeps
    | with_reducible apply State.inc_keeps
    | with_reducible refine Keeps.foldl ?_ (fun u x hu => ?_)
    | with_reducible apply Keeps.ite
    | with_reducible apply Keeps.ite1
    | with_reducible apply Keeps.ite2
    | with_reducible apply Keeps.ite22
    | (lift_lets; intro x; refine Keeps.cut (x := x) ?_ (fun hx => ?_))
    | (lift_lets; intro x)
    | split
    | dsimp only
    | dsimp only [x]
    | (with_reducible apply Keeps.mk; with_reducible first | assumption | exact Keeps.refl _ | refine Keeps.foldl ?_ (fun u x hu => ?_) | apply Keeps.ite | apply takeCheckers_keeps | apply State.wr_keeps)

theorem calGo_keeps {s₀ : State} {a0 : State} (a1 : ℕ) (a2 : Option ℕ) (h0 : Keeps s₀ a0) :
    Keeps s₀ (@calGo a0 a1 a2).2 := by
  unfold calGo
  repeat' first
    | with_reducible assumption
    | with_reducible apply calStart_keeps
    | with_reducible apply Keeps.ite2

theorem calGo_keeps_eq {s₀ : State} {a0 : State} (a1 : ℕ) (a2 : Option ℕ) {r0 : Code} {r1 : State}
    (e : @calGo a0 a1 a2 = (r0, r1)) (h0 : Keeps s₀ a0) : Keeps s₀ r1 := by
  have := calGo_keeps a1 a2 h0
  rw [e] at this
  exact this

theorem calFree_keeps {s₀ : State} {a0 : State} (h0 : Keeps s₀ a0) :
    Keeps s₀ (@calFree a0) := by
  unfold calFree
  repeat' first
    | with_reducible assumption
    | with_reducible exact Keeps.refl _
    | with_reducible apply State.wr_keeps
    | with_reducible apply freeCheckers_keeps
    | with_reducible apply State.wr_keeps
    | with_reducible apply State.inc_keeps
    | with_reducible refine Keeps.foldl ?_ (fun u x hu => ?_)
    | with_reducible apply Keeps.ite
    | with_reducible apply Keeps.ite1
    | with_reducible apply Keeps.ite2
    | with_reducible apply Keeps.ite22
    | (lift_lets; intro x; refine Keeps.cut (x := x) ?_ (fun hx => ?_))
    | (lift_lets; intro x)
    | split
    | dsimp only
    | dsimp only [x]
    | (with_reducible apply Keeps.mk; with_reducible first | assumption | exact Keeps.refl _ | refine Keeps.foldl ?_ (fun u x hu => ?_) | apply Keeps.ite | apply State.wr_keeps)

theorem calAnswer_keeps {s₀ : State} {a0 : State} (a1 : Option ℕ) (a2 : ℕ) (h0 : Keeps s₀ a0) :
    Keeps s₀ (@calAnswer a0 a1 a2) := by
  unfold calAnswer
  repeat' first
    | with_reducible assumption
    | with_reducible apply State.modMbx_keeps
    | split

theorem calAbandon_keeps {s₀ : State} {a0 : State} (h0 : Keeps s₀ a0) :
    Keeps s₀ (@calAbandon a0) := by
  unfold calAbandon
  repeat' first
    | with_reducible assumption
    | with_reducible exact Keeps.refl _
    | with_reducible apply calFree_keeps
    | with_reducible apply calAnswer_keeps
    | with_reducible apply State.wr_keeps
    | with_reducible apply State.inc_keeps
    | with_reducible refine Keeps.foldl ?_ (fun u x hu => ?_)
    | with_reducible apply Keeps.ite
    | with_reducible apply Keeps.ite1
    | with_reducible apply Keeps.ite2
    | with_reducible apply Keeps.ite22
    | split

theorem periodicCal_keeps {s₀ : State} {a0 : State} (h0 : Keeps s₀ a0) :
    Keeps s₀ (@periodicCal a0) := by
  unfold periodicCal
  repeat' first
    | with_reducible assumption
    | with_reducible exact Keeps.refl _
    | with_reducible apply takeCheckers_keeps
    | with_reducible apply calStart_keeps
    | with_reducible apply State.wr_keeps
    | with_reducible apply State.inc_keeps
    | with_reducible refine Keeps.foldl ?_ (fun u x hu => ?_)
    | with_reducible apply Keeps.ite
    | with_reducible apply Keeps.ite1
    | with_reducible apply Keeps.ite2
    | with_reducible apply Keeps.ite22
    | (lift_lets; intro x; refine Keeps.cut (x := x) ?_ (fun hx => ?_))
    | (lift_lets; intro x)
    | split
    | dsimp only
    | dsimp only [x]
    | (with_reducible apply Keeps.mk; with_reducible first | assumption | exact Keeps.refl _ | refine Keeps.foldl ?_ (fun u x hu => ?_) | apply Keeps.ite | apply takeCheckers_keeps)

theorem calStore_keeps {s₀ : State} {a0 : State} (a1 : ℕ) (a2 : Option ℕ) (h0 : Keeps s₀ a0) :
    Keeps s₀ (@calStore a0 a1 a2) := by
  unfold calStore
  repeat' first
    | (with_reducible apply Keeps.mk; with_reducible first | assumption | exact Keeps.refl _ | refine Keeps.foldl ?_ (fun u x hu => ?_) | apply Keeps.ite | apply State.portPut_keeps)

theorem calStored_keeps {s₀ : State} {a0 : State} (h0 : Keeps s₀ a0) :
    Keeps s₀ (@calStored a0) := by
  unfold calStored
  repeat' first
    | split
    | dsimp only
    | (with_reducible apply Keeps.mk; with_reducible first | assumption | exact Keeps.refl _ | refine Keeps.foldl ?_ (fun u x hu => ?_) | apply Keeps.ite | apply calAnswer_keeps)

theorem calEnd_keeps {s₀ : State} (a0 : ℕ) (a1 : List ℕ) (a2 : ℕ) (a3 : ℕ) {a4 : State} (h4 : Keeps s₀ a4) :
    Keeps s₀ (@calEnd a0 a1 a2 a3 a4) := by
  unfold calEnd
  repeat' first
    | with_reducible assumption
    | with_reducible exact Keeps.refl _
    | with_reducible apply calFree_keeps
    | with_reducible apply State.wr_keeps
    | with_reducible apply State.raiseG_keeps
    | with_reducible apply State.inc_keeps
    | with_reducible apply calStore_keeps
    | with_reducible apply State.wr_keeps
    | with_reducible apply State.inc_keeps
    | with_reducible refine Keeps.foldl ?_ (fun u x hu => ?_)
    | with_reducible apply Keeps.ite
    | with_reducible apply Keeps.ite1
    | with_reducible apply Keeps.ite2
    | with_reducible apply Keeps.ite22
    | (lift_lets; intro x; refine Keeps.cut (x := x) ?_ (fun hx => ?_))
    | (lift_lets; intro x)
    | split
    | dsimp only

theorem calLoad_keeps {s₀ : State} {a0 : State} (h0 : Keeps s₀ a0) :
    Keeps s₀ (@calLoad a0) := by
  unfold calLoad
  extract_lets load
  have hl (t : State) (f : Nat → Nat) (ht : Keeps s₀ t) : Keeps s₀ (load t f) := .foldl ht fun u p hu => State.wr_keeps hu ..
  have hc (b : Bool) : Keeps s₀ { a0 with cst.stored := b, cst.last := a0.rd F.PST_LIFE_LIFE_S } := .mk h0
  clear_value load
  generalize calCopy a0 = o
  cases o with
  | none => exact State.inc_keeps (State.raiseG_keeps _ _ _ _ _ (hl _ _ (hc _))) ..
  | some c =>
    have h2 (f : Nat → Nat) (a b : Nat) := State.wr_keeps (State.wr_keeps (hl _ f (hc true)) F.CST_CAL_CNT_CAL_COUNT a 0 0) F.CST_CAL_TIME_CAL_TIME b 0 0
    exact .ite (State.portPut_keeps _ (State.inc_keeps (State.raiseG_keeps _ _ _ _ _ (h2 _ _ _)) ..)) (h2 _ _ _)

/-! ## Answer -/

theorem recordAcc_keeps {s₀ : State} {a0 : State} (a1 : ℕ) (a2 : Bool) (a3 : ℕ) (a4 : Code) (a5 : ℕ) (h0 : Keeps s₀ a0) :
    Keeps s₀ (@recordAcc a0 a1 a2 a3 a4 a5) := by
  unfold recordAcc
  repeat' first
    | with_reducible assumption
    | with_reducible apply State.wr_keeps
    | with_reducible apply State.inc_keeps
    | with_reducible apply Keeps.ite

theorem wordDone_keeps {s₀ : State} {a0 : State} (a1 : ℕ) (a2 : Code) (h0 : Keeps s₀ a0) :
    Keeps s₀ (@wordDone a0 a1 a2) := by
  unfold wordDone
  repeat' first
    | with_reducible assumption
    | with_reducible apply State.modMbx_keeps

theorem answerAcc_keeps {s₀ : State} {a0 : State} (a1 : Origin) (a2 : Bool) (a3 : Code) (a4 : ℕ) (h0 : Keeps s₀ a0) :
    Keeps s₀ (@answerAcc a0 a1 a2 a3 a4) := by
  unfold answerAcc
  repeat' first
    | with_reducible assumption
    | with_reducible apply sendVc2_keeps
    | with_reducible apply releaseVc2_keeps
    | with_reducible apply sendFrame_keeps
    | with_reducible apply wordDone_keeps
    | split

theorem refusePreg_keeps {s₀ : State} {a0 : State} (a1 : MWord) (a2 : Code) (h0 : Keeps s₀ a0) :
    Keeps s₀ (@refusePreg a0 a1 a2) := by
  unfold refusePreg
  repeat' first
    | with_reducible assumption
    | with_reducible apply answerAcc_keeps
    | with_reducible apply recordAcc_keeps
    | split

/-! ## Power -/

theorem Keeps.mkKept {s t : State} {now : Nat} {upBase : Nat} {free : Nat} {out : List Out} {link : Link} {waiting : SMap (List Vc0)} {waitAt : SMap Nat} {rot : Nat} {taken : Nat × Nat} {rejQ : List (List Byte)} {reg : Regul} {scc : Scc} {dmc : SMap Dmc} {rfm : Rfm} {dip : Dip} {tsv : Tsv} {fcr : Fcr} {pck : Pck} {pst : Pst} {thm : Thm} {cst : Cst} {mgt : Mgt} {glb : Glb} {svc : Svc} {tap : Tap} {l : List Fld} (h : Keeps s t) :
    Keeps s (State.mk t.pending now upBase free (keptRegs t l) t.mem t.memMeta t.memErr out link (Rqe.mk t.rqe.reqs t.rqe.nextId waiting waitAt rot taken rejQ) reg scc dmc rfm dip tsv fcr pck pst thm cst mgt glb svc tap) := by
  unfold keptRegs
  exact h.mkFilter

theorem endXfer_keeps {s₀ : State} {a0 : State} (a1 : Code) (h0 : Keeps s₀ a0) :
    Keeps s₀ (@endXfer a0 a1) := by
  unfold endXfer
  repeat' first
    | with_reducible assumption
    | with_reducible exact Keeps.refl _
    | with_reducible apply State.wr_keeps
    | with_reducible apply State.wr_keeps
    | with_reducible apply State.inc_keeps
    | with_reducible refine Keeps.foldl ?_ (fun u x hu => ?_)
    | with_reducible apply Keeps.ite
    | with_reducible apply Keeps.ite1
    | with_reducible apply Keeps.ite2
    | with_reducible apply Keeps.ite22
    | (lift_lets; intro x; refine Keeps.cut (x := x) ?_ (fun hx => ?_))
    | (lift_lets; intro x)
    | split
    | dsimp only
    | dsimp only [x]
    | (with_reducible apply Keeps.mk; with_reducible assumption)

theorem storeFold_keeps {s₀ : State} {a0 : State} (h0 : Keeps s₀ a0) :
    Keeps s₀ (@storeFold a0) := by
  unfold storeFold
  repeat' first
    | with_reducible assumption
    | with_reducible apply State.putStackWord_keeps
    | with_reducible apply Keeps.ite

theorem restrictPort_keeps {s₀ : State} {a0 : State} (h0 : Keeps s₀ a0) :
    Keeps s₀ (@restrictPort a0) := by
  unfold restrictPort
  repeat' first
    | (with_reducible apply Keeps.mk; with_reducible first | assumption | exact Keeps.refl _ | refine Keeps.foldl ?_ (fun u x hu => ?_) | apply Keeps.ite | apply refusePreg_keeps)

theorem passPfRecord_keeps {s₀ : State} {a0 : State} (h0 : Keeps s₀ a0) :
    Keeps s₀ (@passPfRecord a0) := by
  unfold passPfRecord
  repeat' first
    | (with_reducible apply Keeps.mk; with_reducible first | assumption | exact Keeps.refl _ | refine Keeps.foldl ?_ (fun u x hu => ?_) | apply Keeps.ite | apply State.logToPort_keeps)

theorem sinkStore_keeps {s₀ : State} (a0 : Bool) {a1 : State} (a2 : ℕ) (a3 : ℕ) (a4 : Sector) (h1 : Keeps s₀ a1) :
    Keeps s₀ (@sinkStore a0 a1 a2 a3 a4) := by
  unfold sinkStore
  repeat' first
    | with_reducible assumption
    | with_reducible exact Keeps.refl _
    | with_reducible apply victimWrite_keeps
    | with_reducible apply cacheWrite_keeps
    | with_reducible apply State.dramWrite_keeps
    | with_reducible apply leaveList_keeps
    | with_reducible apply State.wr_keeps
    | with_reducible apply State.inc_keeps
    | with_reducible refine Keeps.foldl ?_ (fun u x hu => ?_)
    | with_reducible apply Keeps.ite
    | with_reducible apply Keeps.ite1
    | with_reducible apply Keeps.ite2
    | with_reducible apply Keeps.ite22
    | (lift_lets; intro x; refine Keeps.cut (x := x) ?_ (fun hx => ?_))
    | (lift_lets; intro x)
    | split

theorem sinkSector_keeps {s₀ : State} (a0 : Bool) (a1 : ℕ → Bool) (a2 : Req) {a3 : State} (a4 : ℕ) (h3 : Keeps s₀ a3) :
    Keeps s₀ (@sinkSector a0 a1 a2 a3 a4) := by
  unfold sinkSector
  repeat' first
    | with_reducible assumption
    | with_reducible exact Keeps.refl _
    | with_reducible apply sinkStore_keeps
    | with_reducible apply State.wr_keeps
    | with_reducible apply State.inc_keeps
    | with_reducible refine Keeps.foldl ?_ (fun u x hu => ?_)
    | with_reducible apply Keeps.ite

theorem sinkZeros_keeps {s₀ : State} (a0 : Bool) (a1 : ℕ → Bool) {a2 : State} (a3 : ℕ) (h2 : Keeps s₀ a2) :
    Keeps s₀ (@sinkZeros a0 a1 a2 a3) := by
  unfold sinkZeros
  repeat' first
    | with_reducible assumption
    | with_reducible exact Keeps.refl _
    | with_reducible apply sinkStore_keeps
    | with_reducible apply State.wr_keeps
    | with_reducible apply State.inc_keeps
    | with_reducible refine Keeps.foldl ?_ (fun u x hu => ?_)
    | with_reducible apply Keeps.ite

theorem sinkMerge_keeps {s₀ : State} (a0 : Bool) (a1 : ℕ → Bool) {a2 : State} (a3 : Req) (h2 : Keeps s₀ a2) :
    Keeps s₀ (@sinkMerge a0 a1 a2 a3) := by
  unfold sinkMerge
  repeat' first
    | with_reducible assumption
    | with_reducible exact Keeps.refl _
    | with_reducible apply rmwRead_keeps
    | (with_reducible apply rmwRead_keeps_eq; on_goal 1 => with_reducible assumption)
    | with_reducible apply sinkStore_keeps
    | with_reducible apply State.wr_keeps
    | with_reducible apply State.inc_keeps
    | with_reducible refine Keeps.foldl ?_ (fun u x hu => ?_)
    | with_reducible apply Keeps.ite

theorem sinkAtomic_keeps {s₀ : State} (a0 : Bool) (a1 : ℕ → Bool) {a2 : State} (a3 : Req) (h2 : Keeps s₀ a2) :
    Keeps s₀ (@sinkAtomic a0 a1 a2 a3) := by
  unfold sinkAtomic
  repeat' first
    | with_reducible assumption
    | with_reducible exact Keeps.refl _
    | with_reducible apply rmwRead_keeps
    | (with_reducible apply rmwRead_keeps_eq; on_goal 1 => with_reducible assumption)
    | with_reducible apply sinkStore_keeps
    | with_reducible apply State.wr_keeps
    | with_reducible apply State.inc_keeps
    | with_reducible refine Keeps.foldl ?_ (fun u x hu => ?_)
    | with_reducible apply Keeps.ite

theorem sinkWrites_keeps {s₀ : State} (a0 : Bool) (a1 : ℕ → Bool) {a2 : State} (h2 : Keeps s₀ a2) :
    Keeps s₀ (sinkWrites a0 a1 a2) := by
  unfold sinkWrites
  refine .mkClear (.foldl (.foldl h2 fun u x hu => sinkZeros_keeps _ _ _ hu) fun u r hu => ?_)
  split
  · exact .foldl hu fun v x hv => sinkSector_keeps _ _ _ _ hv
  · exact sinkMerge_keeps _ _ _ hu
  all_goals first | exact hu | exact .ite hu (sinkAtomic_keeps _ _ _ hu)

theorem sinkVictims_keeps {s₀ : State} {a0 : State} (a1 : ℕ) (h0 : Keeps s₀ a0) :
    Keeps s₀ (@sinkVictims a0 a1) := by
  unfold sinkVictims
  repeat' first
    | with_reducible assumption
    | with_reducible exact Keeps.refl _
    | with_reducible apply victimOut_keeps
    | with_reducible apply State.wr_keeps
    | with_reducible apply State.inc_keeps
    | with_reducible refine Keeps.foldl ?_ (fun u x hu => ?_)
    | with_reducible apply Keeps.ite
    | with_reducible apply Keeps.ite1
    | with_reducible apply Keeps.ite2
    | with_reducible apply Keeps.ite22
    | (lift_lets; intro x; refine Keeps.cut (x := x) ?_ (fun hx => ?_))
    | (lift_lets; intro x)
    | split
    | dsimp only
    | dsimp only [x]
    | (with_reducible apply Keeps.mk; with_reducible first | assumption | exact Keeps.refl _ | refine Keeps.foldl ?_ (fun u x hu => ?_))

theorem clearDmc_keeps {s₀ : State} {a0 : State} (a1 : ℕ) (h0 : Keeps s₀ a0) :
    Keeps s₀ (@clearDmc a0 a1) := by
  unfold clearDmc
  repeat' first
    | with_reducible assumption
    | with_reducible apply State.wr_keeps
    | with_reducible apply State.setDmc_keeps

theorem sequencerSref_keeps {s₀ : State} {a0 : State} (a1 : ℕ) (h0 : Keeps s₀ a0) :
    Keeps s₀ (@sequencerSref a0 a1) := by
  unfold sequencerSref
  repeat' first
    | with_reducible assumption
    | with_reducible apply dropFills_keeps
    | with_reducible apply leaveRun_keeps
    | with_reducible apply clearDmc_keeps
    | with_reducible apply State.wr_keeps
    | with_reducible apply srefEnter_keeps
    | with_reducible apply Keeps.ite

theorem freshLink_keeps {s₀ : State} {a0 : State} (h0 : Keeps s₀ a0) :
    Keeps s₀ (@freshLink a0) := by
  unfold freshLink
  repeat' first
    | (with_reducible apply Keeps.mk; with_reducible first | assumption | exact Keeps.refl _ | refine Keeps.foldl ?_ (fun u x hu => ?_) | apply Keeps.ite | apply silence_keeps | apply State.modGrp_keeps)

theorem startGroups_keeps {s₀ : State} {a0 : State} (a1 : Bool) (h0 : Keeps s₀ a0) :
    Keeps s₀ (@startGroups a0 a1) := by
  unfold startGroups
  repeat' first
    | with_reducible assumption
    | with_reducible apply State.modGrp_keeps
    | with_reducible apply groupOff_keeps
    | with_reducible apply groupDetect_keeps
    | with_reducible refine Keeps.foldl ?_ (fun u x hu => ?_)
    | with_reducible apply Keeps.ite

theorem svcDown_keeps {s₀ : State} {a0 : State} (h0 : Keeps s₀ a0) :
    Keeps s₀ (@svcDown a0) := by
  unfold svcDown
  repeat' first
    | (with_reducible apply Keeps.mk; with_reducible first | assumption | exact Keeps.refl _ | refine Keeps.foldl ?_ (fun u x hu => ?_) | apply Keeps.ite | apply endXfer_keeps | apply endAuth_keeps | apply State.wr_keeps | apply State.raiseG_keeps)

theorem isolateMain_keeps {s₀ : State} {a0 : State} (h0 : Keeps s₀ a0) :
    Keeps s₀ (@isolateMain a0) := by
  unfold isolateMain
  repeat' first
    | with_reducible assumption
    | with_reducible apply discardQueues_keeps
    | with_reducible apply freshLink_keeps
    | with_reducible apply endAuth_keeps
    | with_reducible apply endXfer_keeps
    | with_reducible apply groupOff_keeps
    | with_reducible apply State.wr_keeps
    | with_reducible refine Keeps.foldl ?_ (fun u x hu => ?_)
    | with_reducible apply Keeps.ite

theorem beginSequence_keeps {s₀ : State} {a0 : State} (h0 : Keeps s₀ a0) :
    Keeps s₀ (@beginSequence a0) := by
  unfold beginSequence
  repeat' first
    | (with_reducible apply Keeps.mk; with_reducible first | assumption | exact Keeps.refl _ | refine Keeps.foldl ?_ (fun u x hu => ?_) | apply Keeps.ite | apply calAbandon_keeps | apply endXfer_keeps | apply foldPause_keeps | apply restrictPort_keeps | apply storeFold_keeps)

theorem flushOrder_keeps {s₀ : State} {a0 : State} (a1 : ℕ) (h0 : Keeps s₀ a0) :
    Keeps s₀ (@flushOrder a0 a1) := by
  unfold flushOrder
  repeat' first
    | with_reducible assumption
    | with_reducible apply State.wr_keeps
    | with_reducible apply abandonOp_keeps
    | with_reducible apply Keeps.ite

theorem pfStart_keeps {s₀ : State} (a0 : ℕ) {a1 : State} (h1 : Keeps s₀ a1) :
    Keeps s₀ (@pfStart a0 a1) := by
  unfold pfStart
  repeat' first
    | (with_reducible apply Keeps.mk; with_reducible first | assumption | exact Keeps.refl _ | refine Keeps.foldl ?_ (fun u x hu => ?_) | apply Keeps.ite | apply State.wr_keeps | apply State.inc_keeps | apply beginSequence_keeps | apply passPfRecord_keeps | apply State.raiseG_keeps | apply flushOrder_keeps)

theorem switchOver_keeps {s₀ : State} (a0 : Bool) {a1 : State} (h1 : Keeps s₀ a1) :
    Keeps s₀ (@switchOver a0 a1) := by
  unfold switchOver
  repeat' first
    | (with_reducible apply Keeps.mk; with_reducible first | assumption | exact Keeps.refl _ | refine Keeps.foldl ?_ (fun u x hu => ?_) | apply Keeps.ite | apply flushSlice_keeps | apply sinkWrites_keeps | apply sequencerSref_keeps | apply State.wr_keeps | apply isolateMain_keeps)
    | (with_reducible apply Keeps.mkClear; with_reducible first | assumption | exact Keeps.refl _ | refine Keeps.foldl ?_ (fun u x hu => ?_) | apply Keeps.ite)

theorem pfSwitch_keeps {s₀ : State} {a0 : State} (h0 : Keeps s₀ a0) :
    Keeps s₀ (@pfSwitch a0) := by
  unfold pfSwitch
  repeat' first
    | with_reducible assumption
    | with_reducible apply switchOver_keeps
    | with_reducible apply Keeps.ite

theorem railLate_keeps {s₀ : State} {a0 : State} (h0 : Keeps s₀ a0) :
    Keeps s₀ (@railLate a0) := by
  unfold railLate
  repeat' first
    | with_reducible assumption
    | with_reducible apply switchOver_keeps
    | with_reducible apply Keeps.ite

theorem loseContent_keeps {s₀ : State} {a0 : State} (h0 : Keeps s₀ a0) :
    Keeps s₀ (@loseContent a0) := by
  unfold loseContent
  repeat' first
    | exact Keeps.mkLost h0

theorem retentionDone_keeps {s₀ : State} {a0 : State} (h0 : Keeps s₀ a0) :
    Keeps s₀ (@retentionDone a0) := by
  unfold retentionDone
  repeat' first
    | (with_reducible apply Keeps.mk; with_reducible first | assumption | exact Keeps.refl _ | refine Keeps.foldl ?_ (fun u x hu => ?_) | apply Keeps.ite | apply loseContent_keeps | apply State.wr_keeps)

theorem keelBrownout_keeps {s₀ : State} {a0 : State} (h0 : Keeps s₀ a0) :
    Keeps s₀ (@keelBrownout a0) := by
  unfold keelBrownout
  repeat' first
    | (with_reducible apply Keeps.mk; with_reducible first | assumption | exact Keeps.refl _ | refine Keeps.foldl ?_ (fun u x hu => ?_) | apply Keeps.ite | apply State.wr_keeps | apply loseContent_keeps)

theorem keelFault_keeps {s₀ : State} (a0 : ℕ) {a1 : State} (h1 : Keeps s₀ a1) :
    Keeps s₀ (@keelFault a0 a1) := by
  unfold keelFault
  repeat' first
    | with_reducible assumption
    | with_reducible apply State.raiseG_keeps
    | with_reducible apply State.wr_keeps
    | with_reducible apply Keeps.ite

theorem keelCheck_keeps {s₀ : State} (a0 : Bool) {a1 : State} (h1 : Keeps s₀ a1) :
    Keeps s₀ (@keelCheck a0 a1) := by
  unfold keelCheck
  repeat' first
    | with_reducible assumption
    | with_reducible apply State.wr_keeps
    | with_reducible apply keelFault_keeps
    | with_reducible apply Keeps.ite

theorem vbkpLow_keeps {s₀ : State} (a0 : ℕ) {a1 : State} (h1 : Keeps s₀ a1) :
    Keeps s₀ (@vbkpLow a0 a1) := by
  unfold vbkpLow
  repeat' first
    | (with_reducible apply Keeps.mk; with_reducible first | assumption | exact Keeps.refl _ | refine Keeps.foldl ?_ (fun u x hu => ?_) | apply Keeps.ite | apply State.raiseLasting_keeps | apply State.wr_keeps)

theorem vbkpCollapse_keeps {s₀ : State} {a0 : State} (h0 : Keeps s₀ a0) :
    Keeps s₀ (@vbkpCollapse a0) := by
  unfold vbkpCollapse
  repeat' first
    | (with_reducible apply Keeps.mk; with_reducible first | assumption | exact Keeps.refl _ | refine Keeps.foldl ?_ (fun u x hu => ?_) | apply Keeps.ite | apply loseContent_keeps | apply State.wr_keeps)

theorem abandonReads_keeps {s₀ : State} {a0 : State} (h0 : Keeps s₀ a0) :
    Keeps s₀ (abandonReads a0) := by
  unfold abandonReads
  extract_lets held q t
  have ht : Keeps s₀ t := .mkSub h0 ids_filter rfl
  clear_value held q t
  exact .foldl ht fun u x hu => State.setDmc_keeps _ _ hu

theorem warmEnds_keeps {s₀ : State} {a0 : State} (h0 : Keeps s₀ a0) :
    Keeps s₀ (@warmEnds a0) := by
  unfold warmEnds
  repeat' first
    | with_reducible assumption
    | with_reducible exact Keeps.refl _
    | with_reducible apply abandonReads_keeps
    | with_reducible apply calAbandon_keeps
    | with_reducible apply endXfer_keeps
    | with_reducible apply foldPause_keeps
    | with_reducible apply bowReset_keeps
    | with_reducible apply abandonOp_keeps
    | with_reducible apply State.wr_keeps
    | with_reducible apply State.inc_keeps
    | with_reducible refine Keeps.foldl ?_ (fun u x hu => ?_)
    | with_reducible apply Keeps.ite
    | with_reducible apply Keeps.ite1
    | with_reducible apply Keeps.ite2
    | with_reducible apply Keeps.ite22
    | (lift_lets; intro x; refine Keeps.cut (x := x) ?_ (fun hx => ?_))
    | (lift_lets; intro x)
    | split
    | dsimp only
    | dsimp only [x]
    | (with_reducible apply Keeps.mk; with_reducible first | assumption | exact Keeps.refl _ | refine Keeps.foldl ?_ (fun u x hu => ?_))

theorem bootHold_keeps {s₀ : State} {a0 : State} (h0 : Keeps s₀ a0) : Keeps s₀ (bootHold a0) :=
  .mkKept h0

theorem warmAssert_keeps {s₀ : State} (a0 : ℕ) {a1 : State} (h1 : Keeps s₀ a1) :
    Keeps s₀ (@warmAssert a0 a1) := by
  unfold warmAssert
  repeat' first
    | with_reducible assumption
    | with_reducible exact Keeps.refl _
    | with_reducible apply warmEnds_keeps
    | with_reducible apply bootHold_keeps
    | with_reducible apply State.wr_keeps
    | with_reducible apply State.inc_keeps
    | with_reducible refine Keeps.foldl ?_ (fun u x hu => ?_)
    | with_reducible apply Keeps.ite
    | with_reducible apply Keeps.ite1
    | with_reducible apply Keeps.ite2
    | with_reducible apply Keeps.ite22
    | (lift_lets; intro x; refine Keeps.cut (x := x) ?_ (fun hx => ?_))
    | (lift_lets; intro x)
    | split
    | dsimp only
    | dsimp only [x]
    | (with_reducible apply Keeps.mk; with_reducible first | assumption | exact Keeps.refl _ | refine Keeps.foldl ?_ (fun u x hu => ?_) | apply Keeps.ite | apply warmEnds_keeps)

theorem stretchEnd_keeps {s₀ : State} {a0 : State} (h0 : Keeps s₀ a0) :
    Keeps s₀ (@stretchEnd a0) := by
  unfold stretchEnd
  repeat' first
    | with_reducible assumption
    | with_reducible exact Keeps.refl _
    | with_reducible apply dropFills_keeps
    | with_reducible apply sinkWrites_keeps
    | with_reducible apply sinkVictims_keeps
    | with_reducible apply sequencerSref_keeps
    | with_reducible apply State.wr_keeps
    | with_reducible apply State.wr_keeps
    | with_reducible apply State.inc_keeps
    | with_reducible refine Keeps.foldl ?_ (fun u x hu => ?_)
    | with_reducible apply Keeps.ite
    | with_reducible apply Keeps.ite1
    | with_reducible apply Keeps.ite2
    | with_reducible apply Keeps.ite22
    | (lift_lets; intro x; refine Keeps.cut (x := x) ?_ (fun hx => ?_))
    | (lift_lets; intro x)
    | split
    | dsimp only
    | dsimp only [x]
    | (with_reducible apply Keeps.mk; with_reducible first | assumption | exact Keeps.refl _ | refine Keeps.foldl ?_ (fun u x hu => ?_) | apply Keeps.ite | apply dropFills_keeps | apply sinkWrites_keeps | apply sinkVictims_keeps | apply sequencerSref_keeps | apply State.wr_keeps)

theorem wakeChannels_keeps {s₀ : State} {a0 : State} (a1 : List (ℕ × ℕ)) (h0 : Keeps s₀ a0) :
    Keeps s₀ (@wakeChannels a0 a1) := by
  unfold wakeChannels
  repeat' first
    | with_reducible assumption
    | with_reducible apply backToRun_keeps
    | with_reducible apply trainStart_keeps
    | with_reducible refine Keeps.foldl ?_ (fun u x hu => ?_)
    | with_reducible apply Keeps.ite

theorem coresToRom_keeps {s₀ : State} {a0 : State} (h0 : Keeps s₀ a0) :
    Keeps s₀ (@coresToRom a0) := by
  unfold coresToRom
  repeat' first
    | (with_reducible apply Keeps.mk; with_reducible first | assumption | exact Keeps.refl _ | refine Keeps.foldl ?_ (fun u x hu => ?_) | apply Keeps.ite | apply State.wr_keeps | apply setCore_keeps)

theorem warmUnits_keeps {s₀ : State} {a0 : State} (h0 : Keeps s₀ a0) :
    Keeps s₀ (@warmUnits a0) := by
  unfold warmUnits
  repeat' first
    | (with_reducible apply Keeps.mk; with_reducible first | assumption | exact Keeps.refl _ | refine Keeps.foldl ?_ (fun u x hu => ?_) | apply Keeps.ite | apply State.setTsv_keeps)

theorem reportStart_keeps {s₀ : State} {a0 : State} (a1 : ℕ) (a2 : ℕ) (a3 : ℕ) (a4 : Bool) (h0 : Keeps s₀ a0) :
    Keeps s₀ (@reportStart a0 a1 a2 a3 a4) := by
  unfold reportStart
  repeat' first
    | (with_reducible apply Keeps.mk; with_reducible first | assumption | exact Keeps.refl _ | refine Keeps.foldl ?_ (fun u x hu => ?_) | apply Keeps.ite | apply State.wr_keeps)

theorem restoreSettings_keeps {s₀ : State} (a0 : Bool) {a1 : State} (h1 : Keeps s₀ a1) :
    Keeps s₀ (@restoreSettings a0 a1) := by
  unfold restoreSettings
  repeat' first
    | with_reducible assumption
    | with_reducible exact Keeps.refl _
    | with_reducible apply State.wr_keeps
    | with_reducible apply ctxWrite_keeps
    | with_reducible apply State.wr_keeps
    | with_reducible apply State.inc_keeps
    | with_reducible refine Keeps.foldl ?_ (fun u x hu => ?_)
    | with_reducible apply Keeps.ite

theorem unretain_keeps {s₀ : State} {a0 : State} (h0 : Keeps s₀ a0) :
    Keeps s₀ (@unretain a0) := by
  unfold unretain
  repeat' first
    | with_reducible assumption
    | with_reducible exact Keeps.refl _
    | with_reducible apply State.wr_keeps
    | with_reducible apply State.wr_keeps
    | with_reducible apply State.inc_keeps
    | with_reducible refine Keeps.foldl ?_ (fun u x hu => ?_)
    | with_reducible apply Keeps.ite
    | with_reducible apply Keeps.ite1
    | with_reducible apply Keeps.ite2
    | with_reducible apply Keeps.ite22
    | (lift_lets; intro x; refine Keeps.cut (x := x) ?_ (fun hx => ?_))
    | (lift_lets; intro x)
    | split
    | dsimp only
    | dsimp only [x]
    | (with_reducible apply Keeps.mk; with_reducible first | assumption | exact Keeps.refl _ | refine Keeps.foldl ?_ (fun u x hu => ?_))

theorem warmRelease_keeps {s₀ : State} (a0 : List (ℕ × ℕ)) {a1 : State} (h1 : Keeps s₀ a1) :
    Keeps s₀ (@warmRelease a0 a1) := by
  unfold warmRelease
  repeat' first
    | with_reducible assumption
    | with_reducible exact Keeps.refl _
    | with_reducible apply unretain_keeps
    | with_reducible apply endAuth_keeps
    | with_reducible apply closeMailboxes_keeps
    | with_reducible apply dropFills_keeps
    | with_reducible apply rebuildTags_keeps
    | with_reducible apply warmUnits_keeps
    | with_reducible apply freshLink_keeps
    | with_reducible apply coresToRom_keeps
    | with_reducible apply reportStart_keeps
    | with_reducible apply wakeChannels_keeps
    | with_reducible apply State.wr_keeps
    | with_reducible apply regStart_keeps
    | with_reducible apply restoreSettings_keeps
    | with_reducible apply startGroups_keeps
    | with_reducible apply refclkGone_keeps
    | with_reducible refine Keeps.mkKept ?_
    | with_reducible apply State.wr_keeps
    | with_reducible apply State.inc_keeps
    | with_reducible refine Keeps.foldl ?_ (fun u x hu => ?_)
    | with_reducible apply Keeps.ite
    | with_reducible apply Keeps.ite1
    | with_reducible apply Keeps.ite2
    | with_reducible apply Keeps.ite22
    | (lift_lets; intro x; refine Keeps.cut (x := x) ?_ (fun hx => ?_))
    | (lift_lets; intro x)
    | split
    | dsimp only
    | dsimp only [x]
    | (with_reducible apply Keeps.mk; with_reducible first | assumption | exact Keeps.refl _ | refine Keeps.foldl ?_ (fun u x hu => ?_) | apply Keeps.ite | apply unretain_keeps | apply endAuth_keeps | apply closeMailboxes_keeps | apply dropFills_keeps | apply rebuildTags_keeps | apply warmUnits_keeps | apply freshLink_keeps | apply coresToRom_keeps | apply reportStart_keeps | apply wakeChannels_keeps | apply State.wr_keeps | apply regStart_keeps)

theorem stkGone_keeps {s₀ : State} {a0 : State} (h0 : Keeps s₀ a0) :
    Keeps s₀ (@stkGone a0) := by
  unfold stkGone
  repeat' first
    | dsimp only
    | (with_reducible apply Keeps.mk; with_reducible first | assumption | exact Keeps.refl _ | refine Keeps.foldl ?_ (fun u x hu => ?_) | apply Keeps.ite | apply State.raiseG_keeps | apply warmEnds_keeps | apply sequencerSref_keeps)
    | (with_reducible apply Keeps.mkClear; with_reducible first | assumption | exact Keeps.refl _ | refine Keeps.foldl ?_ (fun u x hu => ?_) | apply Keeps.ite | apply State.raiseG_keeps | apply warmEnds_keeps)

theorem stkLoss_keeps {s₀ : State} {a0 : State} (h0 : Keeps s₀ a0) :
    Keeps s₀ (@stkLoss a0) := by
  unfold stkLoss
  repeat' first
    | split
    | dsimp only
    | (with_reducible apply Keeps.mk; with_reducible first | assumption | exact Keeps.refl _ | refine Keeps.foldl ?_ (fun u x hu => ?_) | apply Keeps.ite | apply stkGone_keeps | apply switchOver_keeps)

theorem stkReturn_keeps {s₀ : State} (a0 : List (ℕ × ℕ)) {a1 : State} (h1 : Keeps s₀ a1) :
    Keeps s₀ (@stkReturn a0 a1) := by
  unfold stkReturn
  repeat' first
    | (with_reducible apply Keeps.mk; with_reducible first | assumption | exact Keeps.refl _ | refine Keeps.foldl ?_ (fun u x hu => ?_) | apply Keeps.ite | apply warmRelease_keeps)

theorem fabLoss_keeps {s₀ : State} {a0 : State} (h0 : Keeps s₀ a0) :
    Keeps s₀ (@fabLoss a0) := by
  unfold fabLoss
  repeat' first
    | (with_reducible apply Keeps.mk; with_reducible first | assumption | exact Keeps.refl _ | refine Keeps.foldl ?_ (fun u x hu => ?_) | apply Keeps.ite | apply State.raiseG_keeps)

theorem fabResume_keeps {s₀ : State} (a0 : List ℕ) {a1 : State} (h1 : Keeps s₀ a1) :
    Keeps s₀ (@fabResume a0 a1) := by
  unfold fabResume
  repeat' first
    | (with_reducible apply Keeps.mk; with_reducible first | assumption | exact Keeps.refl _ | refine Keeps.foldl ?_ (fun u x hu => ?_) | apply Keeps.ite | apply State.wr_keeps | apply sliceFault_keeps | apply retake_keeps | apply settle_keeps)

theorem dckLoss_keeps {s₀ : State} (a0 : ℕ) {a1 : State} (h1 : Keeps s₀ a1) :
    Keeps s₀ (@dckLoss a0 a1) := by
  unfold dckLoss
  repeat' first
    | (with_reducible apply Keeps.mk; with_reducible first | assumption | exact Keeps.refl _ | refine Keeps.foldl ?_ (fun u x hu => ?_) | apply Keeps.ite | apply State.raiseG_keeps | apply leaveRun_keeps | apply State.setDmc_keeps | apply foldPause_keeps | apply State.wr_keeps | apply srefEnter_keeps)

theorem dckTimeout_keeps {s₀ : State} (a0 : ℕ) {a1 : State} (h1 : Keeps s₀ a1) :
    Keeps s₀ (@dckTimeout a0 a1) := by
  unfold dckTimeout
  repeat' first
    | (with_reducible apply Keeps.mk; with_reducible first | assumption | exact Keeps.refl _ | refine Keeps.foldl ?_ (fun u x hu => ?_) | apply Keeps.ite | apply State.wr_keeps | apply State.raiseG_keeps)

theorem dckRecover_keeps {s₀ : State} (a0 : ℕ) (a1 : List (ℕ × ℕ)) {a2 : State} (h2 : Keeps s₀ a2) :
    Keeps s₀ (@dckRecover a0 a1 a2) := by
  unfold dckRecover
  repeat' first
    | (with_reducible apply Keeps.mk; with_reducible first | assumption | exact Keeps.refl _ | refine Keeps.foldl ?_ (fun u x hu => ?_) | apply Keeps.ite | apply backToRun_keeps | apply trainStart_keeps)

theorem pllRelock_keeps {s₀ : State} (a0 : ℕ) {a1 : State} (h1 : Keeps s₀ a1) :
    Keeps s₀ (@pllRelock a0 a1) := by
  unfold pllRelock
  repeat' first
    | dsimp only
    | (with_reducible apply Keeps.mk; with_reducible first | assumption | exact Keeps.refl _ | refine Keeps.foldl ?_ (fun u x hu => ?_) | apply Keeps.ite | apply State.wr_keeps | apply retake_keeps | apply settle_keeps)

theorem stbyUnusable_keeps {s₀ : State} {a0 : State} (h0 : Keeps s₀ a0) :
    Keeps s₀ (@stbyUnusable a0) := by
  unfold stbyUnusable
  repeat' first
    | (with_reducible apply Keeps.mk; with_reducible first | assumption | exact Keeps.refl _ | refine Keeps.foldl ?_ (fun u x hu => ?_) | apply Keeps.ite | apply State.raiseG_keeps | apply State.wr_keeps)

theorem mckLoss_keeps {s₀ : State} {a0 : State} (h0 : Keeps s₀ a0) :
    Keeps s₀ (@mckLoss a0) := by
  unfold mckLoss
  repeat' first
    | with_reducible assumption
    | with_reducible apply State.raiseG_keeps
    | with_reducible apply State.wr_keeps
    | with_reducible apply Keeps.ite

theorem idleEntry_keeps {s₀ : State} {a0 : State} (h0 : Keeps s₀ a0) :
    Keeps s₀ (@idleEntry a0) := by
  unfold idleEntry
  repeat' first
    | (with_reducible apply Keeps.mk; with_reducible first | assumption | exact Keeps.refl _ | refine Keeps.foldl ?_ (fun u x hu => ?_) | apply Keeps.ite)

theorem idleExit_keeps {s₀ : State} {a0 : State} (h0 : Keeps s₀ a0) :
    Keeps s₀ (@idleExit a0) := by
  unfold idleExit
  repeat' first
    | (with_reducible apply Keeps.mk; with_reducible first | assumption | exact Keeps.refl _ | refine Keeps.foldl ?_ (fun u x hu => ?_) | apply Keeps.ite)

theorem refuse_keeps {s₀ : State} {a0 : State} (a1 : ℕ) (a2 : ℕ) (a3 : ℕ) (a4 : Bool) (h0 : Keeps s₀ a0) :
    Keeps s₀ (@refuse a0 a1 a2 a3 a4) := by
  unfold refuse
  repeat' first
    | (with_reducible apply Keeps.mk; with_reducible first | assumption | exact Keeps.refl _ | refine Keeps.foldl ?_ (fun u x hu => ?_) | apply Keeps.ite | apply State.inc_keeps | apply State.raiseG_keeps)

theorem endEntry_keeps {s₀ : State} {a0 : State} (a1 : Entry) (a2 : ℕ) (a3 : ℕ) (a4 : Bool) (h0 : Keeps s₀ a0) :
    Keeps s₀ (@endEntry a0 a1 a2 a3 a4) := by
  unfold endEntry
  repeat' first
    | (with_reducible apply Keeps.mk; with_reducible first | assumption | exact Keeps.refl _ | refine Keeps.foldl ?_ (fun u x hu => ?_) | apply Keeps.ite | apply refuse_keeps | apply State.modMbx_keeps)

theorem pmAck_keeps {s₀ : State} (a0 : ℕ) (a1 : ℕ) {a2 : State} (h2 : Keeps s₀ a2) :
    Keeps s₀ (@pmAck a0 a1 a2) := by
  unfold pmAck
  repeat' first
    | split
    | (with_reducible apply Keeps.mk; with_reducible first | assumption | exact Keeps.refl _ | refine Keeps.foldl ?_ (fun u x hu => ?_) | apply Keeps.ite | apply endEntry_keeps)

theorem pmTimeout_keeps {s₀ : State} {a0 : State} (h0 : Keeps s₀ a0) :
    Keeps s₀ (@pmTimeout a0) := by
  unfold pmTimeout
  repeat' first
    | with_reducible assumption
    | with_reducible apply endEntry_keeps
    | split

theorem entryDrainEnd_keeps {s₀ : State} {a0 : State} (h0 : Keeps s₀ a0) :
    Keeps s₀ (@entryDrainEnd a0) := by
  unfold entryDrainEnd
  repeat' first
    | with_reducible assumption
    | with_reducible apply endEntry_keeps
    | with_reducible apply sendPm_keeps
    | with_reducible apply State.modMbx_keeps
    | split

theorem modeWrite_keeps {s₀ : State} {a0 : State} (a1 : ℕ) (h0 : Keeps s₀ a0) :
    Keeps s₀ (@modeWrite a0 a1).2 := by
  unfold modeWrite
  repeat' first
    | with_reducible assumption
    | with_reducible exact Keeps.refl _
    | with_reducible apply flushOrder_keeps
    | with_reducible apply State.wr_keeps
    | with_reducible apply State.wr_keeps
    | with_reducible apply State.inc_keeps
    | with_reducible refine Keeps.foldl ?_ (fun u x hu => ?_)
    | with_reducible apply Keeps.ite
    | with_reducible apply Keeps.ite1
    | with_reducible apply Keeps.ite2
    | with_reducible apply Keeps.ite22
    | (lift_lets; intro x; refine Keeps.cut (x := x) ?_ (fun hx => ?_))
    | (lift_lets; intro x)
    | split
    | dsimp only
    | dsimp only [x]
    | (with_reducible apply Keeps.mk; with_reducible first | assumption | exact Keeps.refl _ | refine Keeps.foldl ?_ (fun u x hu => ?_) | apply Keeps.ite | apply flushOrder_keeps | apply State.wr_keeps)

theorem modeWrite_keeps_eq {s₀ : State} {a0 : State} (a1 : ℕ) {r0 : Code} {r1 : State}
    (e : @modeWrite a0 a1 = (r0, r1)) (h0 : Keeps s₀ a0) : Keeps s₀ r1 := by
  have := modeWrite_keeps a1 h0
  rw [e] at this
  exact this

theorem retainSlice_keeps {s₀ : State} {a0 : State} (a1 : ℕ) (h0 : Keeps s₀ a0) :
    Keeps s₀ (@retainSlice a0 a1) := by
  unfold retainSlice
  repeat' first
    | (with_reducible apply Keeps.mk; with_reducible first | assumption | exact Keeps.refl _ | refine Keeps.foldl ?_ (fun u x hu => ?_) | apply Keeps.ite | apply State.wr_keeps)

theorem sequencerEntry_keeps {s₀ : State} {a0 : State} (h0 : Keeps s₀ a0) :
    Keeps s₀ (@sequencerEntry a0) := by
  unfold sequencerEntry
  repeat' first
    | (lift_lets; intro x)
    | split
    | dsimp only [x]
    | (with_reducible apply Keeps.mk; with_reducible first | assumption | exact Keeps.refl _ | refine Keeps.foldl ?_ (fun u x hu => ?_) | apply Keeps.ite | apply calAbandon_keeps | apply State.wr_keeps | apply retainSlice_keeps | apply sequencerSref_keeps | apply enterDeep_keeps | apply flushSlice_keeps | apply isolateMain_keeps | apply loseContent_keeps)

theorem wakeCause_keeps {s₀ : State} (a0 : ℕ) {a1 : State} (h1 : Keeps s₀ a1) :
    Keeps s₀ (@wakeCause a0 a1) := by
  unfold wakeCause
  repeat' first
    | (with_reducible apply Keeps.mk; with_reducible first | assumption | exact Keeps.refl _ | refine Keeps.foldl ?_ (fun u x hu => ?_) | apply Keeps.ite)

theorem exitEnds_keeps {s₀ : State} {a0 : State} (h0 : Keeps s₀ a0) :
    Keeps s₀ (@exitEnds a0) := by
  unfold exitEnds
  repeat' first
    | with_reducible assumption
    | with_reducible exact Keeps.refl _
    | with_reducible apply refclkGone_keeps
    | with_reducible apply warmAssert_keeps
    | with_reducible apply State.wr_keeps
    | with_reducible apply State.inc_keeps
    | with_reducible refine Keeps.foldl ?_ (fun u x hu => ?_)
    | with_reducible apply Keeps.ite
    | with_reducible apply Keeps.ite1
    | with_reducible apply Keeps.ite2
    | with_reducible apply Keeps.ite22
    | (lift_lets; intro x; refine Keeps.cut (x := x) ?_ (fun hx => ?_))
    | (lift_lets; intro x)
    | split
    | dsimp only
    | dsimp only [x]
    | (with_reducible apply Keeps.mk; with_reducible assumption)

theorem sleepExit_keeps {s₀ : State} (a0 : List (ℕ × ℕ)) {a1 : State} (h1 : Keeps s₀ a1) :
    Keeps s₀ (@sleepExit a0 a1) := by
  unfold sleepExit
  repeat' first
    | with_reducible assumption
    | with_reducible exact Keeps.refl _
    | with_reducible apply State.wr_keeps
    | with_reducible apply rebuildTags_keeps
    | with_reducible apply unretain_keeps
    | with_reducible apply stkGone_keeps
    | with_reducible apply wakeChannels_keeps
    | with_reducible apply allDoubled_keeps
    | with_reducible apply deepWake_keeps
    | with_reducible apply driveWake_keeps
    | with_reducible apply exitEnds_keeps
    | with_reducible apply retake_keeps
    | with_reducible apply regStart_keeps
    | with_reducible apply State.wr_keeps
    | with_reducible apply State.inc_keeps
    | with_reducible refine Keeps.foldl ?_ (fun u x hu => ?_)
    | with_reducible apply Keeps.ite
    | with_reducible apply Keeps.ite1
    | with_reducible apply Keeps.ite2
    | with_reducible apply Keeps.ite22
    | (lift_lets; intro x; refine Keeps.cut (x := x) ?_ (fun hx => ?_))
    | (lift_lets; intro x)
    | split
    | dsimp only
    | dsimp only [x]
    | (with_reducible apply Keeps.mk; with_reducible first | assumption | exact Keeps.refl _ | refine Keeps.foldl ?_ (fun u x hu => ?_))

theorem raiseLatched_keeps {s₀ : State} {a0 : State} (h0 : Keeps s₀ a0) :
    Keeps s₀ (@raiseLatched a0) := by
  unfold raiseLatched
  repeat' first
    | (with_reducible apply Keeps.mk; with_reducible first | assumption | exact Keeps.refl _ | refine Keeps.foldl ?_ (fun u x hu => ?_) | apply Keeps.ite | apply State.raiseG_keeps)

theorem freshSlice_keeps {s₀ : State} {a0 : State} (a1 : ℕ) (h0 : Keeps s₀ a0) :
    Keeps s₀ (@freshSlice a0 a1) := by
  unfold freshSlice
  repeat' first
    | with_reducible assumption
    | with_reducible apply State.wr_keeps
    | with_reducible apply Keeps.ite

theorem crossingCodes_keeps {s₀ : State} {a0 : State} (a1 : List ℕ) (h0 : Keeps s₀ a0) :
    Keeps s₀ (@crossingCodes a0 a1) := by
  unfold crossingCodes
  repeat' first
    | with_reducible assumption
    | with_reducible apply State.wr_keeps
    | with_reducible refine Keeps.foldl ?_ (fun u x hu => ?_)

theorem deepExit_keeps {s₀ : State} (a0 : List (ℕ × ℕ)) (a1 : ℕ) (a2 : List ℕ) {a3 : State} (h3 : Keeps s₀ a3) :
    Keeps s₀ (@deepExit a0 a1 a2 a3) := by
  unfold deepExit
  repeat' first
    | with_reducible assumption
    | with_reducible exact Keeps.refl _
    | with_reducible apply closeMailboxes_keeps
    | with_reducible apply State.wr_keeps
    | with_reducible apply warmUnits_keeps
    | with_reducible apply freshLink_keeps
    | with_reducible apply reportStart_keeps
    | with_reducible apply State.clearFields_keeps
    | with_reducible apply rebuildMap_keeps
    | with_reducible apply crossingCodes_keeps
    | with_reducible apply freshSlice_keeps
    | with_reducible apply calStart_keeps
    | with_reducible apply wakeChannels_keeps
    | with_reducible apply raiseLatched_keeps
    | with_reducible apply regStart_keeps
    | with_reducible apply restoreSettings_keeps
    | with_reducible apply exitEnds_keeps
    | with_reducible apply startGroups_keeps
    | with_reducible refine Keeps.mkKept ?_
    | with_reducible apply State.wr_keeps
    | with_reducible apply State.inc_keeps
    | with_reducible refine Keeps.foldl ?_ (fun u x hu => ?_)
    | with_reducible apply Keeps.ite
    | with_reducible apply Keeps.ite1
    | with_reducible apply Keeps.ite2
    | with_reducible apply Keeps.ite22
    | (lift_lets; intro x; refine Keeps.cut (x := x) ?_ (fun hx => ?_))
    | (lift_lets; intro x)
    | split
    | dsimp only
    | dsimp only [x]
    | (with_reducible apply Keeps.mk; with_reducible first | assumption | exact Keeps.refl _ | refine Keeps.foldl ?_ (fun u x hu => ?_) | apply Keeps.ite | apply closeMailboxes_keeps | apply State.wr_keeps | apply warmUnits_keeps)

/-! ## Thermal -/

theorem sensorConversion_keeps {s₀ : State} (a0 : ℕ) (a1 : ℤ) (a2 : Bool) {a3 : State} (h3 : Keeps s₀ a3) :
    Keeps s₀ (@sensorConversion a0 a1 a2 a3) := by
  unfold sensorConversion
  repeat' first
    | dsimp only
    | (with_reducible apply Keeps.mk; with_reducible first | assumption | exact Keeps.refl _ | refine Keeps.foldl ?_ (fun u x hu => ?_) | apply Keeps.ite | apply State.raiseLasting_keeps)

theorem inletCheck_keeps {s₀ : State} {a0 : State} (a1 : ℤ) (h0 : Keeps s₀ a0) :
    Keeps s₀ (@inletCheck a0 a1) := by
  unfold inletCheck
  repeat' first
    | (with_reducible apply Keeps.mk; with_reducible first | assumption | exact Keeps.refl _ | refine Keeps.foldl ?_ (fun u x hu => ?_) | apply Keeps.ite | apply State.wr_keeps | apply State.raiseG_keeps)

theorem riseCheck_keeps {s₀ : State} {a0 : State} (a1 : ℤ) (h0 : Keeps s₀ a0) :
    Keeps s₀ (@riseCheck a0 a1) := by
  unfold riseCheck
  repeat' first
    | (with_reducible apply Keeps.mk; with_reducible first | assumption | exact Keeps.refl _ | refine Keeps.foldl ?_ (fun u x hu => ?_) | apply Keeps.ite | apply State.wr_keeps | apply State.raiseG_keeps | apply State.raiseLasting_keeps)

theorem coolantCheck_keeps {s₀ : State} {a0 : State} (h0 : Keeps s₀ a0) :
    Keeps s₀ (@coolantCheck a0) := by
  unfold coolantCheck
  repeat' first
    | split
    | (with_reducible apply Keeps.mk; with_reducible first | assumption | exact Keeps.refl _ | refine Keeps.foldl ?_ (fun u x hu => ?_) | apply Keeps.ite | apply riseCheck_keeps | apply inletCheck_keeps)

theorem throttleCompute_keeps {s₀ : State} {a0 : State} (h0 : Keeps s₀ a0) :
    Keeps s₀ (@throttleCompute a0) := by
  unfold throttleCompute
  repeat' first
    | split
    | (with_reducible apply Keeps.mk; with_reducible first | assumption | exact Keeps.refl _ | refine Keeps.foldl ?_ (fun u x hu => ?_) | apply Keeps.ite | apply State.wr_keeps | apply State.inc_keeps | apply State.raiseG_keeps | apply State.draw_keeps | (apply State.draw_keeps_eq; on_goal 1 => assumption) | apply coolantCheck_keeps)

theorem latchTrip_keeps {s₀ : State} {a0 : State} (a1 : ℕ) (a2 : ℕ) (a3 : ℕ) (a4 : Bool) (a5 : ℤ) (h0 : Keeps s₀ a0) :
    Keeps s₀ (@latchTrip a0 a1 a2 a3 a4 a5) := by
  unfold latchTrip
  repeat' first
    | (with_reducible apply Keeps.mk; with_reducible first | assumption | exact Keeps.refl _ | refine Keeps.foldl ?_ (fun u x hu => ?_) | apply Keeps.ite | apply State.wr_keeps)

theorem shutdownRun_keeps {s₀ : State} {a0 : State} (a1 : Bool) (h0 : Keeps s₀ a0) :
    Keeps s₀ (@shutdownRun a0 a1) := by
  unfold shutdownRun
  repeat' first
    | split
    | (with_reducible apply Keeps.mk; with_reducible first | assumption | exact Keeps.refl _ | refine Keeps.foldl ?_ (fun u x hu => ?_) | apply Keeps.ite | apply State.wr_keeps | apply loseContent_keeps | apply isolateMain_keeps | apply beginSequence_keeps | apply flushOrder_keeps)

theorem managedShutdown_keeps {s₀ : State} (a0 : ℕ) {a1 : State} (h1 : Keeps s₀ a1) :
    Keeps s₀ (@managedShutdown a0 a1) := by
  unfold managedShutdown
  repeat' first
    | with_reducible assumption
    | with_reducible apply shutdownRun_keeps
    | with_reducible apply latchTrip_keeps
    | split

theorem hwThermalTrip_keeps {s₀ : State} (a0 : ℕ) {a1 : State} (h1 : Keeps s₀ a1) :
    Keeps s₀ (@hwThermalTrip a0 a1) := by
  unfold hwThermalTrip
  repeat' first
    | split
    | (with_reducible apply Keeps.mk; with_reducible first | assumption | exact Keeps.refl _ | refine Keeps.foldl ?_ (fun u x hu => ?_) | apply Keeps.ite | apply latchTrip_keeps | apply shutdownRun_keeps)

theorem tripClear_keeps {s₀ : State} {a0 : State} (h0 : Keeps s₀ a0) :
    Keeps s₀ (@tripClear a0) := by
  unfold tripClear
  repeat' first
    | (with_reducible apply Keeps.mk; with_reducible first | assumption | exact Keeps.refl _ | refine Keeps.foldl ?_ (fun u x hu => ?_) | apply Keeps.ite)

theorem thermtripLatchClear_keeps {s₀ : State} {a0 : State} (h0 : Keeps s₀ a0) :
    Keeps s₀ (@thermtripLatchClear a0) := by
  unfold thermtripLatchClear
  repeat' first
    | with_reducible assumption
    | with_reducible apply tripClear_keeps
    | with_reducible apply Keeps.ite

theorem thmClear_keeps {s₀ : State} {a0 : State} (h0 : Keeps s₀ a0) :
    Keeps s₀ (@thmClear a0) := by
  unfold thmClear
  repeat' first
    | (with_reducible apply Keeps.mk; with_reducible first | assumption | exact Keeps.refl _ | refine Keeps.foldl ?_ (fun u x hu => ?_) | apply Keeps.ite | apply State.wr_keeps)

/-! ## Tap -/

theorem tapClock_keeps {s₀ : State} (a0 : Bool) (a1 : Bool) {a2 : State} (h2 : Keeps s₀ a2) :
    Keeps s₀ (@tapClock a0 a1 a2) := by
  unfold tapClock
  repeat' first
    | with_reducible assumption
    | with_reducible exact Keeps.refl _
    | with_reducible apply State.wr_keeps
    | with_reducible apply State.inc_keeps
    | with_reducible refine Keeps.foldl ?_ (fun u x hu => ?_)
    | with_reducible apply Keeps.ite
    | with_reducible apply Keeps.ite1
    | with_reducible apply Keeps.ite2
    | with_reducible apply Keeps.ite22
    | (lift_lets; intro x; refine Keeps.cut (x := x) ?_ (fun hx => ?_))
    | (lift_lets; intro x)
    | split
    | dsimp only
    | dsimp only [x]
    | (with_reducible apply Keeps.mk; with_reducible assumption)

theorem tapReset_keeps {s₀ : State} {a0 : State} (h0 : Keeps s₀ a0) :
    Keeps s₀ (@tapReset a0) := by
  unfold tapReset
  repeat' first
    | with_reducible assumption
    | with_reducible exact Keeps.refl _
    | with_reducible apply State.wr_keeps
    | with_reducible apply State.inc_keeps
    | with_reducible refine Keeps.foldl ?_ (fun u x hu => ?_)
    | with_reducible apply Keeps.ite
    | with_reducible apply Keeps.ite1
    | with_reducible apply Keeps.ite2
    | with_reducible apply Keeps.ite22
    | split
    | dsimp only
    | dsimp only [x]
    | (with_reducible apply Keeps.mk; with_reducible assumption)

end Sys2Proof.Machine
end

