-- ==== Sys2Proof/Laws/KeepsRegister.lean ====
section
/-! SUPPORT. What every operation keeps: of boot, transfers and register accesses. -/

namespace Sys2Proof.Machine

/-! ## Boot -/

theorem latchRow_keeps {s₀ : State} (w x : ℕ → Bool) (redir : List (ℕ × ℕ)) {t : State × List ℕ} (row : ℕ) (h : Keeps s₀ t.1) :
    Keeps s₀ (latchRow w x redir t row).1 := by
  unfold latchRow
  split
  next s bad =>
  extract_lets put spare
  have hp (f : ℕ → ℕ) : Keeps s₀ (put s f) := .foldl h fun u y hu => .mk hu
  clear_value put spare
  refine .ite1 (hp _) ?_
  cases spare with
  | none => dsimp only; with_reducible apply State.raiseG_keeps; exact hp _
  | some k => dsimp only; with_reducible apply State.raiseG_keeps; exact hp _

theorem fuseRead_keeps {s₀ : State} (a0 : ℕ → Bool) (a1 : ℕ → Bool) {a2 : State} (h2 : Keeps s₀ a2) :
    Keeps s₀ (@fuseRead a0 a1 a2).1 := by
  unfold fuseRead
  repeat' first
    | with_reducible apply State.wr_keeps
    | with_reducible apply State.raiseG_keeps
    | (refine Keeps.foldlP _ ?_ (fun q x hq => latchRow_keeps _ _ _ _ hq))
    | (with_reducible apply Keeps.mk; with_reducible first | assumption | exact Keeps.refl _ | refine Keeps.foldl ?_ (fun u x hu => ?_))

theorem fuseRead_keeps_eq {s₀ : State} (a0 : ℕ → Bool) (a1 : ℕ → Bool) {a2 : State} {r0 : State} {r1 : ℕ}
    (e : @fuseRead a0 a1 a2 = (r0, r1)) (h2 : Keeps s₀ a2) : Keeps s₀ r0 := by
  have := fuseRead_keeps a0 a1 h2
  rw [e] at this
  exact this

theorem showLocks_keeps {s₀ : State} {a0 : State} (h0 : Keeps s₀ a0) :
    Keeps s₀ (@showLocks a0) := by
  unfold showLocks
  repeat' first
    | with_reducible assumption
    | with_reducible exact Keeps.refl _
    | with_reducible apply State.wr_keeps

theorem fuseShow_keeps {s₀ : State} (a0 : ℕ) {a1 : State} (h1 : Keeps s₀ a1) :
    Keeps s₀ (@fuseShow a0 a1) := by
  unfold fuseShow
  repeat' first
    | with_reducible assumption
    | with_reducible apply State.wr_keeps
    | with_reducible apply showLocks_keeps
    | with_reducible refine Keeps.foldl ?_ (fun u x hu => ?_)

theorem raiseTorn_keeps {s₀ : State} {a0 : State} (a1 : ℕ) (a2 : ℕ) (h0 : Keeps s₀ a0) :
    Keeps s₀ (@raiseTorn a0 a1 a2) := by
  unfold raiseTorn
  repeat' first
    | with_reducible assumption
    | with_reducible apply State.inc_keeps
    | with_reducible apply State.raiseG_keeps

theorem raiseGone_keeps {s₀ : State} {a0 : State} (a1 : ℕ) (a2 : ℕ) (h0 : Keeps s₀ a0) :
    Keeps s₀ (@raiseGone a0 a1 a2) := by
  unfold raiseGone
  repeat' first
    | with_reducible assumption
    | with_reducible apply State.inc_keeps
    | with_reducible apply State.raiseG_keeps

theorem wearEvents_keeps {s₀ : State} {a0 : State} (a1 : ℕ) (a2 : ℕ) (a3 : ℕ) (h0 : Keeps s₀ a0) :
    Keeps s₀ (@wearEvents a0 a1 a2 a3) := by
  unfold wearEvents
  repeat' first
    | with_reducible assumption
    | with_reducible exact Keeps.refl _
    | with_reducible apply State.raiseG_keeps
    | with_reducible apply Keeps.ite

theorem setWear_keeps {s₀ : State} {a0 : State} (a1 : ℕ) (a2 : ℕ) (h0 : Keeps s₀ a0) :
    Keeps s₀ (@setWear a0 a1 a2) := by
  unfold setWear
  repeat' first
    | with_reducible exact Keeps.refl _
    | (with_reducible apply Keeps.mk; with_reducible first | assumption | exact Keeps.refl _ | refine Keeps.foldl ?_ (fun u x hu => ?_) | apply Keeps.ite | apply wearEvents_keeps)

theorem rewriteWord_keeps {s₀ : State} {a0 : State} (a1 : ℕ) (h0 : Keeps s₀ a0) :
    Keeps s₀ (@rewriteWord a0 a1) := by
  unfold rewriteWord
  repeat' first
    | with_reducible assumption
    | with_reducible exact Keeps.refl _
    | with_reducible apply setWear_keeps
    | with_reducible apply Keeps.ite

theorem rmapLoadWord_keeps {s₀ : State} {a0 : State} (a1 : ℕ) (h0 : Keeps s₀ a0) :
    Keeps s₀ (@rmapLoadWord a0 a1) := by
  unfold rmapLoadWord
  repeat' first
    | with_reducible apply raiseTorn_keeps
    | (with_reducible apply Keeps.mk; with_reducible first | assumption | exact Keeps.refl _ | refine Keeps.foldl ?_ (fun u x hu => ?_) | apply Keeps.ite | apply raiseGone_keeps | apply raiseTorn_keeps | apply State.portPut_keeps)

theorem rmapDoubles_keeps {s₀ : State} {a0 : State} (h0 : Keeps s₀ a0) :
    Keeps s₀ (@rmapDoubles a0) := by
  unfold rmapDoubles
  repeat' first
    | with_reducible exact Keeps.refl _
    | (with_reducible apply Keeps.mk; with_reducible first | assumption | exact Keeps.refl _ | refine Keeps.foldl ?_ (fun u x hu => ?_) | apply Keeps.ite | apply State.portPut_keeps)

theorem rmapLoad_keeps {s₀ : State} {a0 : State} (h0 : Keeps s₀ a0) :
    Keeps s₀ (@rmapLoad a0) := by
  unfold rmapLoad
  repeat' first
    | with_reducible apply rmapDoubles_keeps
    | (with_reducible apply Keeps.mk; with_reducible first | assumption | exact Keeps.refl _ | refine Keeps.foldl ?_ (fun u x hu => ?_) | apply Keeps.ite | apply rmapDoubles_keeps | apply rmapLoadWord_keeps)

theorem retireLoad_keeps {s₀ : State} {a0 : State} (a1 : ℕ) (h0 : Keeps s₀ a0) :
    Keeps s₀ (@retireLoad a0 a1) := by
  unfold retireLoad
  repeat' first
    | with_reducible assumption
    | with_reducible apply raiseGone_keeps
    | with_reducible apply State.wr_keeps
    | with_reducible apply State.portPut_keeps
    | with_reducible apply raiseTorn_keeps
    | split
    | dsimp only

theorem logTorn_keeps {s₀ : State} {a0 : State} (a1 : ℕ) (h0 : Keeps s₀ a0) :
    Keeps s₀ (@logTorn a0 a1) := by
  unfold logTorn
  repeat' first
    | with_reducible assumption
    | with_reducible exact Keeps.refl _
    | with_reducible apply raiseGone_keeps
    | with_reducible apply raiseTorn_keeps
    | with_reducible apply State.wr_keeps
    | with_reducible apply State.inc_keeps
    | with_reducible refine Keeps.foldl ?_ (fun u x hu => ?_)
    | with_reducible apply Keeps.ite
    | with_reducible apply Keeps.ite1
    | with_reducible apply Keeps.ite2
    | with_reducible apply Keeps.ite22
    | (lift_lets; intro x; refine Keeps.cut (x := x) ?_ (fun hx => ?_))
    | (lift_lets; intro x)
    | split

theorem logScan_keeps {s₀ : State} {a0 : State} (h0 : Keeps s₀ a0) :
    Keeps s₀ (@logScan a0) := by
  unfold logScan
  repeat' first
    | with_reducible assumption
    | with_reducible exact Keeps.refl _
    | with_reducible apply logTorn_keeps
    | with_reducible apply State.putStackWord_keeps
    | with_reducible apply State.wr_keeps
    | with_reducible apply State.wr_keeps
    | with_reducible apply State.inc_keeps
    | with_reducible refine Keeps.foldl ?_ (fun u x hu => ?_)

theorem stackWords_keeps {s₀ : State} {a0 : State} (h0 : Keeps s₀ a0) :
    Keeps s₀ (@stackWords a0) := by
  unfold stackWords
  repeat' first
    | with_reducible assumption
    | with_reducible exact Keeps.refl _
    | with_reducible apply State.wr_keeps

theorem storeScan_keeps {s₀ : State} (a0 : List ℕ) (a1 : List ℕ) {a2 : State} (h2 : Keeps s₀ a2) :
    Keeps s₀ (@storeScan a0 a1 a2) := by
  unfold storeScan
  repeat' first
    | with_reducible assumption
    | with_reducible exact Keeps.refl _
    | with_reducible apply rewriteWord_keeps
    | with_reducible apply calLoad_keeps
    | with_reducible apply retireLoad_keeps
    | with_reducible apply rmapLoad_keeps
    | with_reducible apply logScan_keeps
    | with_reducible apply stackWords_keeps
    | with_reducible apply State.wr_keeps
    | with_reducible apply State.inc_keeps
    | with_reducible refine Keeps.foldl ?_ (fun u x hu => ?_)
    | with_reducible apply Keeps.ite
    | with_reducible apply Keeps.ite1
    | with_reducible apply Keeps.ite2
    | with_reducible apply Keeps.ite22
    | (lift_lets; intro x; refine Keeps.cut (x := x) ?_ (fun hx => ?_))
    | (lift_lets; intro x)
    | split
    | dsimp only
    | dsimp only [x]
    | (with_reducible apply Keeps.mk; with_reducible assumption)

theorem bootState_keeps {s₀ : State} {a0 : State} (h0 : Keeps s₀ a0) : Keeps s₀ (bootState a0) := by
  unfold bootState
  extract_lets z aon t
  have ht : Keeps s₀ t := ⟨h0.1, fun _ => ⟨rfl, rfl, rfl, rfl, List.pairwise_singleton _ _⟩⟩
  clear_value t
  exact .ite (.foldl ht fun u f hu => State.wr_keeps hu ..) ht

theorem coldBoot_keeps {s₀ : State} {a0 : State} (h0 : Keeps s₀ a0) :
    Keeps s₀ (@coldBoot a0) := by
  unfold coldBoot
  repeat' first
    | with_reducible assumption
    | with_reducible apply tripClear_keeps
    | with_reducible apply State.wr_keeps
    | with_reducible apply bootState_keeps
    | with_reducible apply Keeps.ite

theorem bistBegin_keeps {s₀ : State} {a0 : State} (h0 : Keeps s₀ a0) :
    Keeps s₀ (@bistBegin a0) := by
  unfold bistBegin
  repeat' first
    | with_reducible exact Keeps.refl _
    | (with_reducible apply Keeps.mk; with_reducible first | assumption | exact Keeps.refl _ | refine Keeps.foldl ?_ (fun u x hu => ?_) | apply Keeps.ite | apply State.wr_keeps)

theorem scanned_keeps {s₀ s : State} (h : Keeps s₀ s) : Keeps s₀ (if s.pck.resetLow then { s with pck.step := 3 } else bistBegin s) :=
  .ite (.mk h) (bistBegin_keeps h)

theorem powerOnRelease_keeps {s₀ : State} (a0 a1 : List ℕ) (a2 : ℕ) (a3 : Bool) (a4 a5 : List ℕ) {a6 : State} (h6 : Keeps s₀ a6) :
    Keeps s₀ (powerOnRelease a0 a1 a2 a3 a4 a5 a6) := by
  unfold powerOnRelease
  refine .ite h6 ?_
  have ht : Keeps s₀ { tapReset a6 with pck.test := a3 } := .mk (tapReset_keeps h6)
  split
  next s failed e =>
  have hs : Keeps s₀ s := fuseRead_keeps_eq _ _ e ht
  clear e
  extract_lets policy s1 s2 boots s3 p1 s4 p2
  have h1 : Keeps s₀ s1 := fuseShow_keeps _ (State.wr_keeps hs ..)
  have h2 : Keeps s₀ s2 := stackWords_keeps h1
  clear_value s1 s2 boots
  have h3 : Keeps s₀ s3 := State.putStackWord_keeps _ _ _ _ (State.wr_keeps h2 ..)
  clear_value s3
  have h4 : Keeps s₀ s4 := State.wr_keeps (storeScan_keeps _ _ h3) ..
  exact .ite (.mk h3) (scanned_keeps h4)

theorem bistHandle_keeps {s₀ : State} (a0 : ℕ) (a1 : List (ℕ × ℕ × ℕ)) {a2 : State} (h2 : Keeps s₀ a2) :
    Keeps s₀ (@bistHandle a0 a1 a2) := by
  unfold bistHandle
  repeat' first
    | with_reducible assumption
    | with_reducible apply State.raiseG_keeps
    | with_reducible apply State.wr_keeps
    | with_reducible apply declareDead_keeps
    | with_reducible apply caFail_keeps
    | with_reducible apply strobeFail_keeps
    | with_reducible apply State.modGrp_keeps
    | with_reducible refine Keeps.foldl ?_ (fun u x hu => ?_)
    | with_reducible apply Keeps.ite
    | split

theorem bistBlockEnd_keeps {s₀ : State} (a0 : ℕ) (a1 : Bool) (a2 : ℕ) (a3 : ℕ) (a4 : ℕ) (a5 : ℕ) (a6 : List (ℕ × ℕ × ℕ)) {a7 : State} (h7 : Keeps s₀ a7) :
    Keeps s₀ (@bistBlockEnd a0 a1 a2 a3 a4 a5 a6 a7) := by
  unfold bistBlockEnd
  repeat' first
    | with_reducible apply State.raiseG_keeps
    | (with_reducible apply Keeps.mk; with_reducible first | assumption | exact Keeps.refl _ | refine Keeps.foldl ?_ (fun u x hu => ?_) | apply Keeps.ite | apply State.wr_keeps | apply bistHandle_keeps | apply State.raiseG_keeps | apply calStart_keeps)

theorem calibrationRunEnd_keeps {s₀ : State} (a0 : ℕ) (a1 : List ℕ) (a2 : ℕ) (a3 : ℕ) {a4 : State} (h4 : Keeps s₀ a4) :
    Keeps s₀ (@calibrationRunEnd a0 a1 a2 a3 a4) := by
  unfold calibrationRunEnd
  repeat' first
    | with_reducible exact Keeps.refl _
    | (with_reducible apply Keeps.mk; with_reducible first | assumption | exact Keeps.refl _ | refine Keeps.foldl ?_ (fun u x hu => ?_) | apply Keeps.ite | apply calEnd_keeps)

theorem trainAll_keeps {s₀ : State} {a0 : State} (h0 : Keeps s₀ a0) :
    Keeps s₀ (@trainAll a0) := by
  unfold trainAll
  repeat' first
    | with_reducible assumption
    | with_reducible exact Keeps.refl _
    | with_reducible apply trainEnd_keeps
    | with_reducible apply trainStart_keeps
    | with_reducible apply rebuildMap_keeps
    | with_reducible apply State.wr_keeps
    | with_reducible apply State.inc_keeps
    | with_reducible refine Keeps.foldl ?_ (fun u x hu => ?_)
    | with_reducible apply Keeps.ite
    | with_reducible apply Keeps.ite1
    | with_reducible apply Keeps.ite2
    | with_reducible apply Keeps.ite22
    | split

theorem trainDone_keeps {s₀ : State} {a0 : State} (h0 : Keeps s₀ a0) :
    Keeps s₀ (@trainDone a0) := by
  unfold trainDone
  repeat' first
    | with_reducible assumption
    | (with_reducible apply Keeps.mk; with_reducible first | assumption | exact Keeps.refl _ | refine Keeps.foldl ?_ (fun u x hu => ?_) | apply Keeps.ite)

theorem dramTierReady_keeps {s₀ : State} (a0 : ℕ) {a1 : State} (h1 : Keeps s₀ a1) :
    Keeps s₀ (@dramTierReady a0 a1) := by
  unfold dramTierReady
  repeat' first
    | with_reducible apply trainDone_keeps
    | dsimp only
    | (with_reducible apply Keeps.mk; with_reducible first | assumption | exact Keeps.refl _ | refine Keeps.foldl ?_ (fun u x hu => ?_) | apply Keeps.ite | apply trainDone_keeps | apply trainAll_keeps)

theorem rankTrainingEnd_keeps {s₀ : State} (a0 : ℕ) (a1 : Bool) (a2 : ℕ) (a3 : ℕ) (a4 : ℕ) (a5 : List ℕ) {a6 : State} (h6 : Keeps s₀ a6) :
    Keeps s₀ (@rankTrainingEnd a0 a1 a2 a3 a4 a5 a6) := by
  unfold rankTrainingEnd
  repeat' first
    | with_reducible assumption
    | with_reducible apply trainStepEnd_keeps
    | with_reducible apply startFold_keeps
    | with_reducible apply tsvEvent_keeps
    | with_reducible apply trainDone_keeps
    | with_reducible apply foldResume_keeps
    | with_reducible apply Keeps.ite

theorem verifyFail_keeps {s₀ : State} {a0 : State} (a1 : FillFail) (h0 : Keeps s₀ a0) :
    Keeps s₀ (@verifyFail a0 a1) := by
  unfold verifyFail
  repeat' first
    | with_reducible assumption
    | with_reducible apply reportBeats_keeps
    | with_reducible apply handOver_keeps
    | with_reducible apply Keeps.ite

theorem foldAtStart_keeps {s₀ : State} {a0 : State} (h0 : Keeps s₀ a0) :
    Keeps s₀ (@foldAtStart a0) := by
  unfold foldAtStart
  repeat' first
    | with_reducible assumption
    | with_reducible exact Keeps.refl _
    | with_reducible apply foldAtBoot_keeps
    | (lift_lets; intro x)
    | split

theorem initFillEnd_keeps {s₀ : State} (a0 : List ℕ) (a1 : List ℕ) (a2 : List FillFail) {a3 : State} (h3 : Keeps s₀ a3) :
    Keeps s₀ (@initFillEnd a0 a1 a2 a3) := by
  unfold initFillEnd
  repeat' first
    | with_reducible apply startGroups_keeps
    | with_reducible apply Keeps.mkFill
    | split
    | (with_reducible apply Keeps.mk; with_reducible first | assumption | exact Keeps.refl _ | refine Keeps.foldl ?_ (fun u x hu => ?_) | apply Keeps.ite | apply verifyFail_keeps | apply foldAtStart_keeps | apply State.setDmc_keeps | apply State.wr_keeps | apply freshSlice_keeps | apply crossingCodes_keeps | apply sliceFault_keeps | apply reportStart_keeps | apply coresToRom_keeps | apply regStart_keeps | apply raiseLatched_keeps | apply startFold_keeps)

theorem linkReadyStep_keeps {s₀ : State} {a0 : State} (h0 : Keeps s₀ a0) :
    Keeps s₀ (@linkReadyStep a0) := by
  unfold linkReadyStep
  repeat' first
    | with_reducible apply State.raiseG_keeps
    | (with_reducible apply Keeps.mk; with_reducible first | assumption | exact Keeps.refl _ | refine Keeps.foldl ?_ (fun u x hu => ?_) | apply Keeps.ite | apply linkReady_keeps | apply State.wr_keeps | apply State.raiseG_keeps | apply foldResume_keeps)

theorem resetRelease_keeps {s₀ : State} (a0 : List (ℕ × ℕ)) {a1 : State} (h1 : Keeps s₀ a1) :
    Keeps s₀ (@resetRelease a0 a1) := by
  unfold resetRelease
  repeat' first
    | with_reducible assumption
    | with_reducible exact Keeps.refl _
    | with_reducible apply warmRelease_keeps
    | with_reducible apply bistBegin_keeps
    | with_reducible apply State.wr_keeps
    | with_reducible apply State.inc_keeps
    | with_reducible refine Keeps.foldl ?_ (fun u x hu => ?_)
    | with_reducible apply Keeps.ite
    | with_reducible apply Keeps.ite1
    | with_reducible apply Keeps.ite2
    | with_reducible apply Keeps.ite22
    | (lift_lets; intro x; refine Keeps.cut (x := x) ?_ (fun hx => ?_))
    | (lift_lets; intro x)
    | split
    | dsimp only
    | dsimp only [x]
    | (with_reducible apply Keeps.mk; with_reducible assumption)

theorem resetAssert_keeps {s₀ : State} {a0 : State} (h0 : Keeps s₀ a0) :
    Keeps s₀ (@resetAssert a0) := by
  unfold resetAssert
  repeat' first
    | with_reducible exact Keeps.refl _
    | (with_reducible apply Keeps.mk; with_reducible first | assumption | exact Keeps.refl _ | refine Keeps.foldl ?_ (fun u x hu => ?_) | apply Keeps.ite | apply warmAssert_keeps)

theorem stkWake_keeps {s₀ : State} {a0 : State} (h0 : Keeps s₀ a0) :
    Keeps s₀ (@stkWake a0) := by
  unfold stkWake
  repeat' first
    | with_reducible apply State.wr_keeps
    | split
    | (with_reducible apply Keeps.mk; with_reducible first | assumption | exact Keeps.refl _ | refine Keeps.foldl ?_ (fun u x hu => ?_) | apply Keeps.ite | apply wakeCause_keeps | apply State.wr_keeps | apply coldBoot_keeps)

theorem mainFall_keeps {s₀ : State} {a0 : State} (h0 : Keeps s₀ a0) :
    Keeps s₀ (@mainFall a0) := by
  unfold mainFall
  repeat' first
    | with_reducible assumption
    | with_reducible exact Keeps.refl _
    | with_reducible apply pfStart_keeps
    | with_reducible apply switchOver_keeps
    | with_reducible apply loseContent_keeps
    | with_reducible apply groupOff_keeps
    | with_reducible apply State.wr_keeps
    | with_reducible apply State.inc_keeps
    | with_reducible refine Keeps.foldl ?_ (fun u x hu => ?_)
    | with_reducible apply Keeps.ite
    | with_reducible apply Keeps.ite1
    | with_reducible apply Keeps.ite2
    | with_reducible apply Keeps.ite22
    | (lift_lets; intro x; refine Keeps.cut (x := x) ?_ (fun hx => ?_))
    | (lift_lets; intro x)
    | split
    | dsimp only
    | dsimp only [x]
    | (with_reducible apply Keeps.mk; with_reducible assumption)

theorem mainRise_keeps {s₀ : State} {a0 : State} (h0 : Keeps s₀ a0) :
    Keeps s₀ (@mainRise a0) := by
  unfold mainRise
  repeat' first
    | with_reducible apply tripClear_keeps
    | split
    | dsimp only
    | (with_reducible apply Keeps.mk; with_reducible first | assumption | exact Keeps.refl _ | refine Keeps.foldl ?_ (fun u x hu => ?_) | apply Keeps.ite | apply tripClear_keeps | apply coldBoot_keeps)

/-! ## Transfer -/

theorem drnGo_keeps {s₀ : State} {a0 : State} (h0 : Keeps s₀ a0) :
    Keeps s₀ (@drnGo a0).2 := by
  unfold drnGo
  repeat' first
    | with_reducible apply Keeps.ite2
    | (with_reducible apply Keeps.mk; with_reducible first | assumption | exact Keeps.refl _ | refine Keeps.foldl ?_ (fun u x hu => ?_) | apply Keeps.ite | apply State.wr_keeps)

theorem drnGo_keeps_eq {s₀ : State} {a0 : State} {r0 : Code} {r1 : State}
    (e : @drnGo a0 = (r0, r1)) (h0 : Keeps s₀ a0) : Keeps s₀ r1 := by
  have := drnGo_keeps  h0
  rw [e] at this
  exact this

theorem drnAbort_keeps {s₀ : State} {a0 : State} (h0 : Keeps s₀ a0) :
    Keeps s₀ (@drnAbort a0) := endXfer_keeps _ (Keeps.mkSub h0 ids_filter rfl)

theorem blockDone_keeps {s₀ : State} {a0 : State} (a1 : Xfer) (a2 : Code) (h0 : Keeps s₀ a0) :
    Keeps s₀ (@blockDone a0 a1 a2) := by
  unfold blockDone
  repeat' first
    | (with_reducible apply Keeps.mk; with_reducible first | assumption | exact Keeps.refl _ | refine Keeps.foldl ?_ (fun u x hu => ?_) | apply Keeps.ite | apply State.wr_keeps | apply State.inc_keeps | apply endXfer_keeps)

theorem drainBlock_keeps {s₀ : State} {a0 : State} (h0 : Keeps s₀ a0) :
    Keeps s₀ (@drainBlock a0) := by
  unfold drainBlock
  repeat' first
    | with_reducible assumption
    | split
    | (with_reducible apply internalRead_keeps; exact .mk h0)
    | exact blockDone_keeps _ _ (Keeps.mkSub h0 ids_filter rfl)

theorem fillBlock_keeps {s₀ : State} (a0 : List Byte) {a1 : State} (h1 : Keeps s₀ a1) :
    Keeps s₀ (@fillBlock a0 a1) := by
  unfold fillBlock
  repeat' first
    | with_reducible assumption
    | with_reducible apply endXfer_keeps
    | with_reducible apply blockDone_keeps
    | with_reducible apply internalWrite_keeps
    | split

/-! ## RegHooks -/

theorem okH_keeps {s₀ : State} {a0 : State} (h0 : Keeps s₀ a0) :
    Keeps s₀ (@okH a0).2.2 := by
  unfold okH
  repeat' first
    | with_reducible assumption

theorem okH_keeps_eq {s₀ : State} {a0 : State} {r0 : Code} {r1 : ℕ} {r2 : State}
    (e : @okH a0 = (r0, r1, r2)) (h0 : Keeps s₀ a0) : Keeps s₀ r2 := by
  have := okH_keeps  h0
  rw [e] at this
  exact this

theorem noH_keeps {s₀ : State} {a0 : State} (a1 : Code) (h0 : Keeps s₀ a0) :
    Keeps s₀ (@noH a0 a1).2.2 := by
  unfold noH
  repeat' first
    | with_reducible assumption

theorem noH_keeps_eq {s₀ : State} {a0 : State} (a1 : Code) {r0 : Code} {r1 : ℕ} {r2 : State}
    (e : @noH a0 a1 = (r0, r1, r2)) (h0 : Keeps s₀ a0) : Keeps s₀ r2 := by
  have := noH_keeps a1 h0
  rw [e] at this
  exact this

theorem codeH_keeps {s₀ : State} {a0 : State} {p : Code × State} (h0 : Keeps s₀ a0) (h1 : Keeps s₀ p.2) : Keeps s₀ (codeH a0 p).2.2 := by
  unfold codeH
  split
  · exact h1
  · exact h0

theorem retrain_keeps {s₀ : State} {a0 : State} (a1 : ℕ) (h0 : Keeps s₀ a0) :
    Keeps s₀ (@retrain a0 a1) := by
  unfold retrain
  repeat' first
    | with_reducible assumption
    | with_reducible apply groupDetect_keeps
    | with_reducible apply endTests_keeps
    | with_reducible apply withdraw_keeps
    | with_reducible apply Keeps.ite

theorem hookHlpCtl_keeps {s₀ : State} {a0 : State} {a1 : State} (a2 : ℕ) (a3 : ℕ) (h0 : Keeps s₀ a0) (h1 : Keeps s₀ a1) :
    Keeps s₀ (@hookHlpCtl a0 a1 a2 a3).2.2 := by
  unfold hookHlpCtl
  repeat' first
    | with_reducible assumption
    | with_reducible apply noH_keeps
    | with_reducible apply withdraw_keeps
    | with_reducible apply groupDetect_keeps
    | with_reducible apply endTests_keeps
    | with_reducible apply okH_keeps
    | with_reducible apply retrain_keeps
    | with_reducible apply Keeps.ite
    | with_reducible apply Keeps.ite22

theorem hookHlpCtl_keeps_eq {s₀ : State} {a0 : State} {a1 : State} (a2 : ℕ) (a3 : ℕ) {r0 : Code} {r1 : ℕ} {r2 : State}
    (e : @hookHlpCtl a0 a1 a2 a3 = (r0, r1, r2)) (h0 : Keeps s₀ a0) (h1 : Keeps s₀ a1) : Keeps s₀ r2 := by
  have := hookHlpCtl_keeps a2 a3 h0 h1
  rw [e] at this
  exact this

theorem hookHlpInj_keeps {s₀ : State} {a0 : State} {a1 : State} (a2 : ℕ) (a3 : ℕ) (h0 : Keeps s₀ a0) (h1 : Keeps s₀ a1) :
    Keeps s₀ (@hookHlpInj a0 a1 a2 a3).2.2 := by
  unfold hookHlpInj
  repeat' first
    | with_reducible assumption
    | with_reducible apply noH_keeps
    | with_reducible apply State.modGrp_keeps
    | with_reducible apply State.wr_keeps
    | with_reducible apply okH_keeps
    | with_reducible apply Keeps.ite
    | with_reducible apply Keeps.ite22

theorem hookHlpInj_keeps_eq {s₀ : State} {a0 : State} {a1 : State} (a2 : ℕ) (a3 : ℕ) {r0 : Code} {r1 : ℕ} {r2 : State}
    (e : @hookHlpInj a0 a1 a2 a3 = (r0, r1, r2)) (h0 : Keeps s₀ a0) (h1 : Keeps s₀ a1) : Keeps s₀ r2 := by
  have := hookHlpInj_keeps a2 a3 h0 h1
  rw [e] at this
  exact this

theorem hookHlpLane_keeps {s₀ : State} {a0 : State} {a1 : State} (a2 : ℕ) (a3 : ℕ) (a4 : ℕ) (h0 : Keeps s₀ a0) (h1 : Keeps s₀ a1) :
    Keeps s₀ (@hookHlpLane a0 a1 a2 a3 a4).2.2 := by
  unfold hookHlpLane
  repeat' first
    | with_reducible assumption
    | with_reducible exact Keeps.refl _
    | with_reducible apply noH_keeps
    | (with_reducible apply noH_keeps_eq; on_goal 1 => with_reducible assumption)
    | with_reducible apply State.wr_keeps
    | with_reducible apply spareStream_keeps
    | with_reducible apply okH_keeps
    | (with_reducible apply okH_keeps_eq; on_goal 1 => with_reducible assumption)
    | with_reducible apply giveChecker_keeps
    | with_reducible apply dropChecker_keeps
    | with_reducible apply State.wr_keeps
    | with_reducible apply State.inc_keeps
    | with_reducible refine Keeps.foldl ?_ (fun u x hu => ?_)
    | with_reducible apply Keeps.ite
    | with_reducible apply Keeps.ite1
    | with_reducible apply Keeps.ite2
    | with_reducible apply Keeps.ite22
    | split
    | dsimp only
    | dsimp only [x]
    | (with_reducible apply Keeps.mk; with_reducible first | assumption | exact Keeps.refl _ | refine Keeps.foldl ?_ (fun u x hu => ?_) | apply Keeps.ite | apply noH_keeps | (apply noH_keeps_eq; on_goal 1 => assumption) | apply State.wr_keeps)

theorem hookHlpLane_keeps_eq {s₀ : State} {a0 : State} {a1 : State} (a2 : ℕ) (a3 : ℕ) (a4 : ℕ) {r0 : Code} {r1 : ℕ} {r2 : State}
    (e : @hookHlpLane a0 a1 a2 a3 a4 = (r0, r1, r2)) (h0 : Keeps s₀ a0) (h1 : Keeps s₀ a1) : Keeps s₀ r2 := by
  have := hookHlpLane_keeps a2 a3 a4 h0 h1
  rw [e] at this
  exact this

theorem hookHlp_keeps {s₀ : State} {a0 : State} {a1 : State} (a2 : RegId) (a3 : ℕ) (a4 : ℕ) (a5 : ℕ) (h0 : Keeps s₀ a0) (h1 : Keeps s₀ a1) :
    Keeps s₀ (@hookHlp a0 a1 a2 a3 a4 a5).2.2 := by
  unfold hookHlp
  repeat' first
    | with_reducible assumption
    | with_reducible apply hookHlpCtl_keeps
    | with_reducible apply hookHlpInj_keeps
    | with_reducible apply hookHlpLane_keeps
    | with_reducible apply okH_keeps
    | split

theorem hookHlp_keeps_eq {s₀ : State} {a0 : State} {a1 : State} (a2 : RegId) (a3 : ℕ) (a4 : ℕ) (a5 : ℕ) {r0 : Code} {r1 : ℕ} {r2 : State}
    (e : @hookHlp a0 a1 a2 a3 a4 a5 = (r0, r1, r2)) (h0 : Keeps s₀ a0) (h1 : Keeps s₀ a1) : Keeps s₀ r2 := by
  have := hookHlp_keeps a2 a3 a4 a5 h0 h1
  rw [e] at this
  exact this

theorem hllClear_keeps {s₀ : State} {a0 : State} (h0 : Keeps s₀ a0) :
    Keeps s₀ (@hllClear a0) := by
  unfold hllClear
  repeat' first
    | with_reducible assumption
    | with_reducible apply State.wr_keeps
    | with_reducible apply State.clearFields_keeps

theorem hookTurn_keeps {s₀ : State} {a0 : State} {a1 : State} (a2 : ℕ) (h0 : Keeps s₀ a0) (h1 : Keeps s₀ a1) :
    Keeps s₀ (@hookTurn a0 a1 a2).2.2 := by
  unfold hookTurn
  repeat' first
    | with_reducible assumption
    | with_reducible apply okH_keeps
    | with_reducible apply requestTurn_keeps
    | with_reducible apply noH_keeps
    | split
    | dsimp only

theorem hookTurn_keeps_eq {s₀ : State} {a0 : State} {a1 : State} (a2 : ℕ) {r0 : Code} {r1 : ℕ} {r2 : State}
    (e : @hookTurn a0 a1 a2 = (r0, r1, r2)) (h0 : Keeps s₀ a0) (h1 : Keeps s₀ a1) : Keeps s₀ r2 := by
  have := hookTurn_keeps a2 h0 h1
  rw [e] at this
  exact this

theorem hookCrd_keeps {s₀ : State} {a0 : State} {a1 : State} (a2 : ℕ) (a3 : ℕ) (h0 : Keeps s₀ a0) (h1 : Keeps s₀ a1) :
    Keeps s₀ (@hookCrd a0 a1 a2 a3).2.2 := by
  unfold hookCrd
  repeat' first
    | with_reducible apply Keeps.ite22
    | (with_reducible apply Keeps.mk; with_reducible first | assumption | exact Keeps.refl _ | refine Keeps.foldl ?_ (fun u x hu => ?_) | apply Keeps.ite | apply noH_keeps | (apply noH_keeps_eq; on_goal 1 => assumption) | apply okH_keeps)

theorem hookCrd_keeps_eq {s₀ : State} {a0 : State} {a1 : State} (a2 : ℕ) (a3 : ℕ) {r0 : Code} {r1 : ℕ} {r2 : State}
    (e : @hookCrd a0 a1 a2 a3 = (r0, r1, r2)) (h0 : Keeps s₀ a0) (h1 : Keeps s₀ a1) : Keeps s₀ r2 := by
  have := hookCrd_keeps a2 a3 h0 h1
  rw [e] at this
  exact this

theorem hookHll_keeps {s₀ : State} {a0 : State} {a1 : State} (a2 : RegId) (a3 : ℕ) (a4 : ℕ) (h0 : Keeps s₀ a0) (h1 : Keeps s₀ a1) :
    Keeps s₀ (@hookHll a0 a1 a2 a3 a4).2.2 := by
  unfold hookHll
  repeat' first
    | with_reducible assumption
    | with_reducible apply hllClear_keeps
    | with_reducible apply okH_keeps
    | with_reducible apply autoBalance_keeps
    | with_reducible apply hookTurn_keeps
    | with_reducible apply hookCrd_keeps
    | split

theorem hookHll_keeps_eq {s₀ : State} {a0 : State} {a1 : State} (a2 : RegId) (a3 : ℕ) (a4 : ℕ) {r0 : Code} {r1 : ℕ} {r2 : State}
    (e : @hookHll a0 a1 a2 a3 a4 = (r0, r1, r2)) (h0 : Keeps s₀ a0) (h1 : Keeps s₀ a1) : Keeps s₀ r2 := by
  have := hookHll_keeps a2 a3 a4 h0 h1
  rw [e] at this
  exact this

theorem rqeClear_keeps {s₀ : State} {a0 : State} (h0 : Keeps s₀ a0) :
    Keeps s₀ (@rqeClear a0) := by
  unfold rqeClear
  repeat' first
    | with_reducible assumption
    | with_reducible apply State.clearFields_keeps

theorem hookRqeCtl_keeps {s₀ : State} {a0 : State} {a1 : State} (a2 : ℕ) (h0 : Keeps s₀ a0) (h1 : Keeps s₀ a1) :
    Keeps s₀ (@hookRqeCtl a0 a1 a2).2.2 := by
  unfold hookRqeCtl
  repeat' first
    | with_reducible assumption
    | with_reducible apply noH_keeps
    | with_reducible apply okH_keeps
    | with_reducible apply rqeClear_keeps
    | with_reducible apply Keeps.ite
    | with_reducible apply Keeps.ite22

theorem hookRqeCtl_keeps_eq {s₀ : State} {a0 : State} {a1 : State} (a2 : ℕ) {r0 : Code} {r1 : ℕ} {r2 : State}
    (e : @hookRqeCtl a0 a1 a2 = (r0, r1, r2)) (h0 : Keeps s₀ a0) (h1 : Keeps s₀ a1) : Keeps s₀ r2 := by
  have := hookRqeCtl_keeps a2 h0 h1
  rw [e] at this
  exact this

theorem hookDomCtl_keeps {s₀ : State} {a0 : State} {a1 : State} (a2 : ℕ) (a3 : ℕ) (h0 : Keeps s₀ a0) (h1 : Keeps s₀ a1) :
    Keeps s₀ (@hookDomCtl a0 a1 a2 a3).2.2 := by
  unfold hookDomCtl
  repeat' first
    | with_reducible assumption
    | with_reducible apply noH_keeps
    | with_reducible apply okH_keeps
    | with_reducible apply startPurge_keeps
    | with_reducible apply retake_keeps
    | with_reducible apply Keeps.ite
    | with_reducible apply Keeps.ite22

theorem hookDomCtl_keeps_eq {s₀ : State} {a0 : State} {a1 : State} (a2 : ℕ) (a3 : ℕ) {r0 : Code} {r1 : ℕ} {r2 : State}
    (e : @hookDomCtl a0 a1 a2 a3 = (r0, r1, r2)) (h0 : Keeps s₀ a0) (h1 : Keeps s₀ a1) : Keeps s₀ r2 := by
  have := hookDomCtl_keeps a2 a3 h0 h1
  rw [e] at this
  exact this

theorem hookRgnA_keeps {s₀ : State} {a0 : State} {a1 : State} (a2 : ℕ) (a3 : ℕ) (h0 : Keeps s₀ a0) (h1 : Keeps s₀ a1) :
    Keeps s₀ (@hookRgnA a0 a1 a2 a3).2.2 := by
  unfold hookRgnA
  repeat' first
    | with_reducible assumption
    | with_reducible apply okH_keeps
    | with_reducible apply noH_keeps
    | with_reducible apply Keeps.ite22

theorem hookRgnA_keeps_eq {s₀ : State} {a0 : State} {a1 : State} (a2 : ℕ) (a3 : ℕ) {r0 : Code} {r1 : ℕ} {r2 : State}
    (e : @hookRgnA a0 a1 a2 a3 = (r0, r1, r2)) (h0 : Keeps s₀ a0) (h1 : Keeps s₀ a1) : Keeps s₀ r2 := by
  have := hookRgnA_keeps a2 a3 h0 h1
  rw [e] at this
  exact this

theorem hookRgnB_keeps {s₀ : State} {a0 : State} {a1 : State} (a2 : ℕ) (a3 : ℕ) (h0 : Keeps s₀ a0) (h1 : Keeps s₀ a1) :
    Keeps s₀ (@hookRgnB a0 a1 a2 a3).2.2 := by
  unfold hookRgnB
  repeat' first
    | with_reducible assumption
    | with_reducible apply noH_keeps
    | with_reducible apply okH_keeps
    | with_reducible apply Keeps.ite22

theorem hookRgnB_keeps_eq {s₀ : State} {a0 : State} {a1 : State} (a2 : ℕ) (a3 : ℕ) {r0 : Code} {r1 : ℕ} {r2 : State}
    (e : @hookRgnB a0 a1 a2 a3 = (r0, r1, r2)) (h0 : Keeps s₀ a0) (h1 : Keeps s₀ a1) : Keeps s₀ r2 := by
  have := hookRgnB_keeps a2 a3 h0 h1
  rw [e] at this
  exact this

theorem hookRqe_keeps {s₀ : State} {a0 : State} {a1 : State} (a2 : RegId) (a3 : ℕ) (a4 : ℕ) (h0 : Keeps s₀ a0) (h1 : Keeps s₀ a1) :
    Keeps s₀ (@hookRqe a0 a1 a2 a3 a4).2.2 := by
  unfold hookRqe
  repeat' first
    | with_reducible assumption
    | with_reducible apply hookRqeCtl_keeps
    | with_reducible apply noH_keeps
    | with_reducible apply okH_keeps
    | with_reducible apply hookDomCtl_keeps
    | with_reducible apply hookRgnA_keeps
    | with_reducible apply hookRgnB_keeps
    | split

theorem hookRqe_keeps_eq {s₀ : State} {a0 : State} {a1 : State} (a2 : RegId) (a3 : ℕ) (a4 : ℕ) {r0 : Code} {r1 : ℕ} {r2 : State}
    (e : @hookRqe a0 a1 a2 a3 a4 = (r0, r1, r2)) (h0 : Keeps s₀ a0) (h1 : Keeps s₀ a1) : Keeps s₀ r2 := by
  have := hookRqe_keeps a2 a3 a4 h0 h1
  rw [e] at this
  exact this

theorem hookCtxCmd_keeps {s₀ : State} {a0 : State} (a1 : ℕ) (a2 : ℕ) (h0 : Keeps s₀ a0) :
    Keeps s₀ (@hookCtxCmd a0 a1 a2).2.2 := by
  unfold hookCtxCmd
  repeat' first
    | with_reducible assumption
    | with_reducible apply noH_keeps
    | with_reducible apply clearWindow_keeps
    | with_reducible apply okH_keeps
    | with_reducible apply ctxRead_keeps
    | with_reducible apply ctxWrite_keeps
    | with_reducible apply Keeps.ite22
    | split

theorem hookCtxCmd_keeps_eq {s₀ : State} {a0 : State} (a1 : ℕ) (a2 : ℕ) {r0 : Code} {r1 : ℕ} {r2 : State}
    (e : @hookCtxCmd a0 a1 a2 = (r0, r1, r2)) (h0 : Keeps s₀ a0) : Keeps s₀ r2 := by
  have := hookCtxCmd_keeps a1 a2 h0
  rw [e] at this
  exact this

theorem hookCntIdx_keeps {s₀ : State} {a0 : State} {a1 : State} (a2 : ℕ) (a3 : ℕ) (h0 : Keeps s₀ a0) (h1 : Keeps s₀ a1) :
    Keeps s₀ (@hookCntIdx a0 a1 a2 a3).2.2 := by
  unfold hookCntIdx
  repeat' first
    | with_reducible assumption
    | with_reducible apply State.wr_keeps
    | with_reducible apply noH_keeps
    | with_reducible apply okH_keeps
    | with_reducible apply Keeps.ite22

theorem hookCntIdx_keeps_eq {s₀ : State} {a0 : State} {a1 : State} (a2 : ℕ) (a3 : ℕ) {r0 : Code} {r1 : ℕ} {r2 : State}
    (e : @hookCntIdx a0 a1 a2 a3 = (r0, r1, r2)) (h0 : Keeps s₀ a0) (h1 : Keeps s₀ a1) : Keeps s₀ r2 := by
  have := hookCntIdx_keeps a2 a3 h0 h1
  rw [e] at this
  exact this

theorem hookWsel_keeps {s₀ : State} {a0 : State} (a1 : ℕ) (a2 : ℕ) (h0 : Keeps s₀ a0) :
    Keeps s₀ (@hookWsel a0 a1 a2).2.2 := by
  unfold hookWsel
  repeat' first
    | (with_reducible apply Keeps.mk; with_reducible first | assumption | exact Keeps.refl _ | refine Keeps.foldl ?_ (fun u x hu => ?_) | apply Keeps.ite | apply okH_keeps)

theorem hookWsel_keeps_eq {s₀ : State} {a0 : State} (a1 : ℕ) (a2 : ℕ) {r0 : Code} {r1 : ℕ} {r2 : State}
    (e : @hookWsel a0 a1 a2 = (r0, r1, r2)) (h0 : Keeps s₀ a0) : Keeps s₀ r2 := by
  have := hookWsel_keeps a1 a2 h0
  rw [e] at this
  exact this

theorem hookClass_keeps {s₀ : State} {a0 : State} {a1 : State} (a2 : ℕ) (a3 : ℕ) (h0 : Keeps s₀ a0) (h1 : Keeps s₀ a1) :
    Keeps s₀ (@hookClass a0 a1 a2 a3).2.2 := by
  unfold hookClass
  repeat' first
    | with_reducible assumption
    | with_reducible apply okH_keeps
    | with_reducible apply State.wr_keeps
    | with_reducible apply noH_keeps
    | with_reducible apply Keeps.ite22

theorem hookClass_keeps_eq {s₀ : State} {a0 : State} {a1 : State} (a2 : ℕ) (a3 : ℕ) {r0 : Code} {r1 : ℕ} {r2 : State}
    (e : @hookClass a0 a1 a2 a3 = (r0, r1, r2)) (h0 : Keeps s₀ a0) (h1 : Keeps s₀ a1) : Keeps s₀ r2 := by
  have := hookClass_keeps a2 a3 h0 h1
  rw [e] at this
  exact this

theorem hookRsv_keeps {s₀ : State} {a0 : State} {a1 : State} (a2 : ℕ) (a3 : ℕ) (h0 : Keeps s₀ a0) (h1 : Keeps s₀ a1) :
    Keeps s₀ (@hookRsv a0 a1 a2 a3).2.2 := by
  unfold hookRsv
  repeat' first
    | with_reducible assumption
    | with_reducible apply okH_keeps
    | with_reducible apply regrant_keeps
    | with_reducible apply noH_keeps
    | split

theorem hookRsv_keeps_eq {s₀ : State} {a0 : State} {a1 : State} (a2 : ℕ) (a3 : ℕ) {r0 : Code} {r1 : ℕ} {r2 : State}
    (e : @hookRsv a0 a1 a2 a3 = (r0, r1, r2)) (h0 : Keeps s₀ a0) (h1 : Keeps s₀ a1) : Keeps s₀ r2 := by
  have := hookRsv_keeps a2 a3 h0 h1
  rw [e] at this
  exact this

theorem hookBow_keeps {s₀ : State} {a0 : State} {a1 : State} (a2 : ℕ) (a3 : ℕ) (a4 : ℕ) (a5 : Bool) (h0 : Keeps s₀ a0) (h1 : Keeps s₀ a1) :
    Keeps s₀ (@hookBow a0 a1 a2 a3 a4 a5).2.2 := by
  unfold hookBow
  repeat' first
    | with_reducible assumption
    | with_reducible apply okH_keeps
    | with_reducible apply bowChanged_keeps
    | with_reducible apply noH_keeps
    | split

theorem hookBow_keeps_eq {s₀ : State} {a0 : State} {a1 : State} (a2 : ℕ) (a3 : ℕ) (a4 : ℕ) (a5 : Bool) {r0 : Code} {r1 : ℕ} {r2 : State}
    (e : @hookBow a0 a1 a2 a3 a4 a5 = (r0, r1, r2)) (h0 : Keeps s₀ a0) (h1 : Keeps s₀ a1) : Keeps s₀ r2 := by
  have := hookBow_keeps a2 a3 a4 a5 h0 h1
  rw [e] at this
  exact this

theorem hookReg_keeps {s₀ : State} {a0 : State} {a1 : State} (a2 : RegId) (a3 : ℕ) (a4 : ℕ) (a5 : ℕ) (h0 : Keeps s₀ a0) (h1 : Keeps s₀ a1) :
    Keeps s₀ (@hookReg a0 a1 a2 a3 a4 a5).2.2 := by
  unfold hookReg
  repeat' first
    | split
    | (with_reducible apply Keeps.mk; with_reducible first | assumption | exact Keeps.refl _ | refine Keeps.foldl ?_ (fun u x hu => ?_) | apply Keeps.ite | apply okH_keeps | (apply okH_keeps_eq; on_goal 1 => assumption) | apply State.wr_keeps | apply hookCtxCmd_keeps | (apply hookCtxCmd_keeps_eq; on_goal 1 => assumption) | apply hookCntIdx_keeps | (apply hookCntIdx_keeps_eq; on_goal 1 => assumption) | apply hookWsel_keeps | (apply hookWsel_keeps_eq; on_goal 1 => assumption) | apply hookClass_keeps | (apply hookClass_keeps_eq; on_goal 1 => assumption) | apply hookRsv_keeps | (apply hookRsv_keeps_eq; on_goal 1 => assumption) | apply hookBow_keeps)

theorem hookReg_keeps_eq {s₀ : State} {a0 : State} {a1 : State} (a2 : RegId) (a3 : ℕ) (a4 : ℕ) (a5 : ℕ) {r0 : Code} {r1 : ℕ} {r2 : State}
    (e : @hookReg a0 a1 a2 a3 a4 a5 = (r0, r1, r2)) (h0 : Keeps s₀ a0) (h1 : Keeps s₀ a1) : Keeps s₀ r2 := by
  have := hookReg_keeps a2 a3 a4 a5 h0 h1
  rw [e] at this
  exact this

theorem sccClear_keeps {s₀ : State} {a0 : State} (a1 : ℕ) (h0 : Keeps s₀ a0) :
    Keeps s₀ (@sccClear a0 a1) := by
  unfold sccClear
  repeat' first
    | with_reducible assumption
    | with_reducible apply State.wr_keeps
    | with_reducible refine Keeps.foldl ?_ (fun u x hu => ?_)

theorem hookSccCtl_keeps {s₀ : State} {a0 : State} {a1 : State} (a2 : ℕ) (a3 : ℕ) (h0 : Keeps s₀ a0) (h1 : Keeps s₀ a1) :
    Keeps s₀ (@hookSccCtl a0 a1 a2 a3).2.2 := by
  unfold hookSccCtl
  repeat' first
    | with_reducible assumption
    | with_reducible apply noH_keeps
    | with_reducible apply sccClear_keeps
    | with_reducible apply startOp_keeps
    | with_reducible apply okH_keeps
    | with_reducible apply startDrain_keeps
    | with_reducible apply State.wr_keeps
    | with_reducible apply Keeps.ite
    | with_reducible apply Keeps.ite22

theorem hookSccCtl_keeps_eq {s₀ : State} {a0 : State} {a1 : State} (a2 : ℕ) (a3 : ℕ) {r0 : Code} {r1 : ℕ} {r2 : State}
    (e : @hookSccCtl a0 a1 a2 a3 = (r0, r1, r2)) (h0 : Keeps s₀ a0) (h1 : Keeps s₀ a1) : Keeps s₀ r2 := by
  have := hookSccCtl_keeps a2 a3 h0 h1
  rw [e] at this
  exact this

theorem hookOps_keeps {s₀ : State} {a0 : State} (a1 : ℕ) (a2 : ℕ) (h0 : Keeps s₀ a0) :
    Keeps s₀ (@hookOps a0 a1 a2).2.2 := by
  unfold hookOps
  repeat' first
    | with_reducible assumption
    | with_reducible apply noH_keeps
    | with_reducible apply codeH_keeps
    | with_reducible apply startOp_keeps
    | with_reducible apply Keeps.ite22

theorem hookOps_keeps_eq {s₀ : State} {a0 : State} (a1 : ℕ) (a2 : ℕ) {r0 : Code} {r1 : ℕ} {r2 : State}
    (e : @hookOps a0 a1 a2 = (r0, r1, r2)) (h0 : Keeps s₀ a0) : Keeps s₀ r2 := by
  have := hookOps_keeps a1 a2 h0
  rw [e] at this
  exact this

theorem hookWays_keeps {s₀ : State} {a0 : State} {a1 : State} (a2 : ℕ) (a3 : ℕ) (h0 : Keeps s₀ a0) (h1 : Keeps s₀ a1) :
    Keeps s₀ (@hookWays a0 a1 a2 a3).2.2 := by
  unfold hookWays
  repeat' first
    | with_reducible assumption
    | with_reducible apply okH_keeps
    | with_reducible apply retireWay_keeps
    | with_reducible apply State.wr_keeps
    | with_reducible refine Keeps.foldl ?_ (fun u x hu => ?_)

theorem hookWays_keeps_eq {s₀ : State} {a0 : State} {a1 : State} (a2 : ℕ) (a3 : ℕ) {r0 : Code} {r1 : ℕ} {r2 : State}
    (e : @hookWays a0 a1 a2 a3 = (r0, r1, r2)) (h0 : Keeps s₀ a0) (h1 : Keeps s₀ a1) : Keeps s₀ r2 := by
  have := hookWays_keeps a2 a3 h0 h1
  rw [e] at this
  exact this

theorem hookScc_keeps {s₀ : State} {a0 : State} {a1 : State} (a2 : RegId) (a3 : ℕ) (a4 : ℕ) (h0 : Keeps s₀ a0) (h1 : Keeps s₀ a1) :
    Keeps s₀ (@hookScc a0 a1 a2 a3 a4).2.2 := by
  unfold hookScc
  repeat' first
    | with_reducible assumption
    | with_reducible apply hookSccCtl_keeps
    | with_reducible apply hookOps_keeps
    | with_reducible apply hookWays_keeps
    | with_reducible apply okH_keeps
    | split

theorem hookScc_keeps_eq {s₀ : State} {a0 : State} {a1 : State} (a2 : RegId) (a3 : ℕ) (a4 : ℕ) {r0 : Code} {r1 : ℕ} {r2 : State}
    (e : @hookScc a0 a1 a2 a3 a4 = (r0, r1, r2)) (h0 : Keeps s₀ a0) (h1 : Keeps s₀ a1) : Keeps s₀ r2 := by
  have := hookScc_keeps a2 a3 a4 h0 h1
  rw [e] at this
  exact this

theorem dmcClear_keeps {s₀ : State} {a0 : State} (a1 : ℕ) (h0 : Keeps s₀ a0) :
    Keeps s₀ (@dmcClear a0 a1) := by
  unfold dmcClear
  repeat' first
    | with_reducible assumption
    | with_reducible apply State.wr_keeps
    | with_reducible refine Keeps.foldl ?_ (fun u x hu => ?_)

theorem hookDmc_keeps {s₀ : State} {a0 : State} {a1 : State} (a2 : RegId) (a3 : ℕ) (a4 : ℕ) (h0 : Keeps s₀ a0) (h1 : Keeps s₀ a1) :
    Keeps s₀ (@hookDmc a0 a1 a2 a3 a4).2.2 := by
  unfold hookDmc
  repeat' first
    | with_reducible assumption
    | with_reducible apply noH_keeps
    | with_reducible apply dmcClear_keeps
    | with_reducible apply okH_keeps
    | with_reducible apply hangStart_keeps
    | with_reducible apply trainStart_keeps
    | with_reducible apply leaveRun_keeps
    | split

theorem hookDmc_keeps_eq {s₀ : State} {a0 : State} {a1 : State} (a2 : RegId) (a3 : ℕ) (a4 : ℕ) {r0 : Code} {r1 : ℕ} {r2 : State}
    (e : @hookDmc a0 a1 a2 a3 a4 = (r0, r1, r2)) (h0 : Keeps s₀ a0) (h1 : Keeps s₀ a1) : Keeps s₀ r2 := by
  have := hookDmc_keeps a2 a3 a4 h0 h1
  rw [e] at this
  exact this

theorem rfmClear_keeps {s₀ : State} {a0 : State} (h0 : Keeps s₀ a0) :
    Keeps s₀ (@rfmClear a0) := by
  unfold rfmClear
  repeat' first
    | with_reducible assumption
    | with_reducible apply State.clearFields_keeps

theorem hookRfm_keeps {s₀ : State} {a0 : State} {a1 : State} (a2 : RegId) (a3 : ℕ) (h0 : Keeps s₀ a0) (h1 : Keeps s₀ a1) :
    Keeps s₀ (@hookRfm a0 a1 a2 a3).2.2 := by
  unfold hookRfm
  repeat' first
    | with_reducible assumption
    | with_reducible apply rfmClear_keeps
    | with_reducible apply thresholdSent_keeps
    | with_reducible apply okH_keeps
    | with_reducible apply setRate_keeps
    | with_reducible refine Keeps.foldl ?_ (fun u x hu => ?_)
    | split

theorem hookRfm_keeps_eq {s₀ : State} {a0 : State} {a1 : State} (a2 : RegId) (a3 : ℕ) {r0 : Code} {r1 : ℕ} {r2 : State}
    (e : @hookRfm a0 a1 a2 a3 = (r0, r1, r2)) (h0 : Keeps s₀ a0) (h1 : Keeps s₀ a1) : Keeps s₀ r2 := by
  have := hookRfm_keeps a2 a3 h0 h1
  rw [e] at this
  exact this

theorem dipClear_keeps {s₀ : State} {a0 : State} (h0 : Keeps s₀ a0) :
    Keeps s₀ (@dipClear a0) := by
  unfold dipClear
  repeat' first
    | with_reducible assumption
    | with_reducible apply State.clearFields_keeps

theorem hookDip_keeps {s₀ : State} {a0 : State} {a1 : State} (a2 : RegId) (a3 : ℕ) (h0 : Keeps s₀ a0) (h1 : Keeps s₀ a1) :
    Keeps s₀ (@hookDip a0 a1 a2 a3).2.2 := by
  unfold hookDip
  repeat' first
    | split
    | (with_reducible apply Keeps.mk; with_reducible first | assumption | exact Keeps.refl _ | refine Keeps.foldl ?_ (fun u x hu => ?_) | apply Keeps.ite | apply okH_keeps | (apply okH_keeps_eq; on_goal 1 => assumption) | apply dipClear_keeps | apply noH_keeps | (apply noH_keeps_eq; on_goal 1 => assumption) | apply State.wr_keeps)

theorem hookDip_keeps_eq {s₀ : State} {a0 : State} {a1 : State} (a2 : RegId) (a3 : ℕ) {r0 : Code} {r1 : ℕ} {r2 : State}
    (e : @hookDip a0 a1 a2 a3 = (r0, r1, r2)) (h0 : Keeps s₀ a0) (h1 : Keeps s₀ a1) : Keeps s₀ r2 := by
  have := hookDip_keeps a2 a3 h0 h1
  rw [e] at this
  exact this

theorem tsvClear_keeps {s₀ : State} {a0 : State} (a1 : ℕ) (h0 : Keeps s₀ a0) :
    Keeps s₀ (@tsvClear a0 a1) := by
  unfold tsvClear
  repeat' first
    | with_reducible assumption
    | with_reducible apply State.wr_keeps
    | with_reducible refine Keeps.foldl ?_ (fun u x hu => ?_)

theorem hookFold_keeps {s₀ : State} {a0 : State} {a1 : State} (a2 : ℕ) (h0 : Keeps s₀ a0) (h1 : Keeps s₀ a1) :
    Keeps s₀ (@hookFold a0 a1 a2).2.2 := by
  unfold hookFold
  repeat' first
    | with_reducible assumption
    | with_reducible apply noH_keeps
    | with_reducible apply setFstate_keeps
    | with_reducible apply codeH_keeps
    | with_reducible apply foldGo_keeps
    | with_reducible apply okH_keeps
    | with_reducible apply Keeps.ite
    | with_reducible apply Keeps.ite22

theorem hookFold_keeps_eq {s₀ : State} {a0 : State} {a1 : State} (a2 : ℕ) {r0 : Code} {r1 : ℕ} {r2 : State}
    (e : @hookFold a0 a1 a2 = (r0, r1, r2)) (h0 : Keeps s₀ a0) (h1 : Keeps s₀ a1) : Keeps s₀ r2 := by
  have := hookFold_keeps a2 h0 h1
  rw [e] at this
  exact this

theorem hookTsv_keeps {s₀ : State} {a0 : State} {a1 : State} (a2 : RegId) (a3 : ℕ) (a4 : ℕ) (h0 : Keeps s₀ a0) (h1 : Keeps s₀ a1) :
    Keeps s₀ (@hookTsv a0 a1 a2 a3 a4).2.2 := by
  unfold hookTsv
  repeat' first
    | with_reducible assumption
    | with_reducible apply tsvClear_keeps
    | with_reducible apply State.wr_keeps
    | with_reducible apply codeH_keeps
    | with_reducible apply killLine_keeps
    | with_reducible apply okH_keeps
    | with_reducible apply rprQueue_keeps
    | with_reducible apply hookFold_keeps
    | with_reducible apply Keeps.ite22
    | split

theorem hookTsv_keeps_eq {s₀ : State} {a0 : State} {a1 : State} (a2 : RegId) (a3 : ℕ) (a4 : ℕ) {r0 : Code} {r1 : ℕ} {r2 : State}
    (e : @hookTsv a0 a1 a2 a3 a4 = (r0, r1, r2)) (h0 : Keeps s₀ a0) (h1 : Keeps s₀ a1) : Keeps s₀ r2 := by
  have := hookTsv_keeps a2 a3 a4 h0 h1
  rw [e] at this
  exact this

theorem hookQuiesce_keeps {s₀ : State} {a0 : State} (h0 : Keeps s₀ a0) :
    Keeps s₀ (@hookQuiesce a0).2.2 := by
  unfold hookQuiesce
  repeat' first
    | with_reducible assumption
    | with_reducible apply okH_keeps
    | with_reducible apply retake_keeps

theorem hookQuiesce_keeps_eq {s₀ : State} {a0 : State} {r0 : Code} {r1 : ℕ} {r2 : State}
    (e : @hookQuiesce a0 = (r0, r1, r2)) (h0 : Keeps s₀ a0) : Keeps s₀ r2 := by
  have := hookQuiesce_keeps  h0
  rw [e] at this
  exact this

theorem hookMdata_keeps {s₀ : State} {a0 : State} (a1 : ℕ) (a2 : ℕ) (a3 : ℕ) (a4 : ℕ) (a5 : ℕ) (a6 : State → State) (h0 : Keeps s₀ a0) (h6 : ∀ u, Keeps s₀ u → Keeps s₀ (a6 u)) :
    Keeps s₀ (@hookMdata a0 a1 a2 a3 a4 a5 a6).2.2 := by
  unfold hookMdata
  repeat' first
    | with_reducible assumption
    | with_reducible apply h6
    | with_reducible apply noH_keeps
    | with_reducible apply okH_keeps
    | with_reducible apply State.modMbx_keeps
    | with_reducible apply Keeps.ite22

theorem hookMdata_keeps_eq {s₀ : State} {a0 : State} (a1 : ℕ) (a2 : ℕ) (a3 : ℕ) (a4 : ℕ) (a5 : ℕ) (a6 : State → State) {r0 : Code} {r1 : ℕ} {r2 : State}
    (e : @hookMdata a0 a1 a2 a3 a4 a5 a6 = (r0, r1, r2)) (h0 : Keeps s₀ a0) (h6 : ∀ u, Keeps s₀ u → Keeps s₀ (a6 u)) : Keeps s₀ r2 := by
  have := hookMdata_keeps a1 a2 a3 a4 a5 a6 h0 h6
  rw [e] at this
  exact this

theorem hookMgt_keeps {s₀ : State} {a0 : State} {a1 : State} (a2 : RegId) (a3 : ℕ) (a4 : ℕ) (a5 : ℕ) (h0 : Keeps s₀ a0) (h1 : Keeps s₀ a1) :
    Keeps s₀ (@hookMgt a0 a1 a2 a3 a4 a5).2.2 := by
  unfold hookMgt
  repeat' first
    | with_reducible assumption
    | (with_reducible refine fun u (hu : Keeps s₀ u) => ?_)
    | with_reducible apply codeH_keeps
    | with_reducible apply planTakeover_keeps
    | with_reducible apply okH_keeps
    | with_reducible apply setCore_keeps
    | with_reducible apply beat_keeps
    | with_reducible apply hookQuiesce_keeps
    | with_reducible apply doorbell_keeps
    | with_reducible apply wakeCause_keeps
    | with_reducible apply State.wr_keeps
    | with_reducible apply hookMdata_keeps
    | split

theorem hookMgt_keeps_eq {s₀ : State} {a0 : State} {a1 : State} (a2 : RegId) (a3 : ℕ) (a4 : ℕ) (a5 : ℕ) {r0 : Code} {r1 : ℕ} {r2 : State}
    (e : @hookMgt a0 a1 a2 a3 a4 a5 = (r0, r1, r2)) (h0 : Keeps s₀ a0) (h1 : Keeps s₀ a1) : Keeps s₀ r2 := by
  have := hookMgt_keeps a2 a3 a4 a5 h0 h1
  rw [e] at this
  exact this

theorem hookScratch_keeps {s₀ : State} {a0 : State} (a1 : ℕ) (a2 : Bool) (a3 : ℕ) (h0 : Keeps s₀ a0) :
    Keeps s₀ (@hookScratch a0 a1 a2 a3).2.2 := by
  unfold hookScratch
  repeat' first
    | split
    | (with_reducible apply Keeps.mk; with_reducible first | assumption | exact Keeps.refl _ | refine Keeps.foldl ?_ (fun u x hu => ?_) | apply Keeps.ite | apply okH_keeps | (apply okH_keeps_eq; on_goal 1 => assumption) | apply State.wr_keeps)

theorem hookScratch_keeps_eq {s₀ : State} {a0 : State} (a1 : ℕ) (a2 : Bool) (a3 : ℕ) {r0 : Code} {r1 : ℕ} {r2 : State}
    (e : @hookScratch a0 a1 a2 a3 = (r0, r1, r2)) (h0 : Keeps s₀ a0) : Keeps s₀ r2 := by
  have := hookScratch_keeps a1 a2 a3 h0
  rw [e] at this
  exact this

theorem wrstDue_keeps {s₀ : State} {a0 : State} (h0 : Keeps s₀ a0) :
    Keeps s₀ (@wrstDue a0) := by
  unfold wrstDue
  repeat' first
    | split
    | (with_reducible apply Keeps.mk; with_reducible assumption)

theorem hookGlbFcr_keeps {s₀ : State} {a0 : State} {a1 : State} (a2 : RegId) (a3 : ℕ) (a4 : ℕ) (h0 : Keeps s₀ a0) (h1 : Keeps s₀ a1) :
    Keeps s₀ (@hookGlbFcr a0 a1 a2 a3 a4).2.2 := by
  unfold hookGlbFcr
  repeat' first
    | with_reducible assumption
    | with_reducible exact Keeps.refl _
    | with_reducible apply okH_keeps
    | (with_reducible apply okH_keeps_eq; on_goal 1 => with_reducible assumption)
    | with_reducible apply wrstDue_keeps
    | with_reducible apply hookScratch_keeps
    | (with_reducible apply hookScratch_keeps_eq; on_goal 1 => with_reducible assumption)
    | with_reducible apply fcrClear_keeps
    | with_reducible apply holdAlert_keeps
    | with_reducible apply codeH_keeps
    | with_reducible apply ffClear_keeps
    | (with_reducible apply ffClear_keeps_eq; on_goal 1 => with_reducible assumption)
    | with_reducible apply noH_keeps
    | (with_reducible apply noH_keeps_eq; on_goal 1 => with_reducible assumption)
    | with_reducible apply raiseGo_keeps
    | with_reducible apply State.wr_keeps
    | with_reducible apply State.inc_keeps
    | with_reducible refine Keeps.foldl ?_ (fun u x hu => ?_)
    | with_reducible apply Keeps.ite
    | with_reducible apply Keeps.ite1
    | with_reducible apply Keeps.ite2
    | with_reducible apply Keeps.ite22
    | split

theorem hookGlbFcr_keeps_eq {s₀ : State} {a0 : State} {a1 : State} (a2 : RegId) (a3 : ℕ) (a4 : ℕ) {r0 : Code} {r1 : ℕ} {r2 : State}
    (e : @hookGlbFcr a0 a1 a2 a3 a4 = (r0, r1, r2)) (h0 : Keeps s₀ a0) (h1 : Keeps s₀ a1) : Keeps s₀ r2 := by
  have := hookGlbFcr_keeps a2 a3 a4 h0 h1
  rw [e] at this
  exact this

theorem pckClear_keeps {s₀ : State} {a0 : State} (h0 : Keeps s₀ a0) :
    Keeps s₀ (@pckClear a0) := by
  unfold pckClear
  repeat' first
    | (with_reducible apply Keeps.mk; with_reducible first | assumption | exact Keeps.refl _ | refine Keeps.foldl ?_ (fun u x hu => ?_) | apply Keeps.ite | apply State.clearFields_keeps | apply State.wr_keeps)

theorem hookPckThm_keeps {s₀ : State} {a0 : State} {a1 : State} (a2 : RegId) (a3 : ℕ) (h0 : Keeps s₀ a0) (h1 : Keeps s₀ a1) :
    Keeps s₀ (@hookPckThm a0 a1 a2 a3).2.2 := by
  unfold hookPckThm
  repeat' first
    | with_reducible assumption
    | with_reducible apply codeH_keeps
    | with_reducible apply calGo_keeps
    | with_reducible apply okH_keeps
    | with_reducible apply pckClear_keeps
    | with_reducible apply modeWrite_keeps
    | with_reducible apply noH_keeps
    | with_reducible apply thmClear_keeps
    | split

theorem hookPckThm_keeps_eq {s₀ : State} {a0 : State} {a1 : State} (a2 : RegId) (a3 : ℕ) {r0 : Code} {r1 : ℕ} {r2 : State}
    (e : @hookPckThm a0 a1 a2 a3 = (r0, r1, r2)) (h0 : Keeps s₀ a0) (h1 : Keeps s₀ a1) : Keeps s₀ r2 := by
  have := hookPckThm_keeps a2 a3 h0 h1
  rw [e] at this
  exact this

theorem hookSvc_keeps {s₀ : State} {a0 : State} {a1 : State} (a2 : RegId) (a3 : ℕ) (h0 : Keeps s₀ a0) (h1 : Keeps s₀ a1) :
    Keeps s₀ (@hookSvc a0 a1 a2 a3).2.2 := by
  unfold hookSvc
  repeat' first
    | with_reducible assumption
    | with_reducible apply svcDown_keeps
    | with_reducible apply okH_keeps
    | with_reducible apply endAuth_keeps
    | with_reducible apply drnGo_keeps
    | with_reducible apply drnAbort_keeps
    | with_reducible apply noH_keeps
    | with_reducible apply Keeps.ite22
    | split

theorem hookSvc_keeps_eq {s₀ : State} {a0 : State} {a1 : State} (a2 : RegId) (a3 : ℕ) {r0 : Code} {r1 : ℕ} {r2 : State}
    (e : @hookSvc a0 a1 a2 a3 = (r0, r1, r2)) (h0 : Keeps s₀ a0) (h1 : Keeps s₀ a1) : Keeps s₀ r2 := by
  have := hookSvc_keeps a2 a3 h0 h1
  rw [e] at this
  exact this

theorem regHook_keeps {s₀ : State} {a0 : State} {a1 : State} (a2 : RegId) (a3 : ℕ) (a4 : ℕ) (a5 : ℕ) (a6 : ℕ) (h0 : Keeps s₀ a0) (h1 : Keeps s₀ a1) :
    Keeps s₀ (@regHook a0 a1 a2 a3 a4 a5 a6).2.2 := by
  unfold regHook
  repeat' first
    | with_reducible assumption
    | with_reducible apply hookGlbFcr_keeps
    | with_reducible apply hookPckThm_keeps
    | with_reducible apply hookMgt_keeps
    | with_reducible apply hookSvc_keeps
    | with_reducible apply hookHlp_keeps
    | with_reducible apply hookHll_keeps
    | with_reducible apply hookRqe_keeps
    | with_reducible apply hookReg_keeps
    | with_reducible apply hookDip_keeps
    | with_reducible apply hookRfm_keeps
    | with_reducible apply hookTsv_keeps
    | with_reducible apply hookScc_keeps
    | with_reducible apply hookDmc_keeps
    | with_reducible apply okH_keeps
    | split

theorem regHook_keeps_eq {s₀ : State} {a0 : State} {a1 : State} (a2 : RegId) (a3 : ℕ) (a4 : ℕ) (a5 : ℕ) (a6 : ℕ) {r0 : Code} {r1 : ℕ} {r2 : State}
    (e : @regHook a0 a1 a2 a3 a4 a5 a6 = (r0, r1, r2)) (h0 : Keeps s₀ a0) (h1 : Keeps s₀ a1) : Keeps s₀ r2 := by
  have := regHook_keeps a2 a3 a4 a5 a6 h0 h1
  rw [e] at this
  exact this

/-! ## RegAccess -/

theorem preRead_keeps {s₀ : State} {a0 : State} (a1 : RegId) (a2 : ℕ) (a3 : ℕ) (h0 : Keeps s₀ a0) :
    Keeps s₀ (@preRead a0 a1 a2 a3) := by
  unfold preRead
  repeat' first
    | with_reducible assumption
    | with_reducible apply State.draw_keeps
    | with_reducible apply State.wr_keeps
    | with_reducible apply sampleErrors_keeps
    | split

theorem postRead_keeps {s₀ : State} {a0 : State} (a1 : RegId) (a2 : ℕ) (a3 : ℕ) (a4 : Fld → Bool) (h0 : Keeps s₀ a0) :
    Keeps s₀ (@postRead a0 a1 a2 a3 a4) := by
  unfold postRead
  repeat' first
    | with_reducible assumption
    | with_reducible apply State.wr_keeps
    | with_reducible refine Keeps.foldl ?_ (fun u x hu => ?_)
    | split

theorem readReg_keeps {s₀ : State} {a0 : State} (a1 : ℕ) (a2 : RegId) (a3 : ℕ) (a4 : ℕ) (h0 : Keeps s₀ a0) :
    Keeps s₀ (@readReg a0 a1 a2 a3 a4).2.2 := by
  unfold readReg
  repeat' first
    | with_reducible assumption
    | with_reducible apply preRead_keeps
    | with_reducible apply postRead_keeps
    | with_reducible apply Keeps.ite22

theorem readReg_keeps_eq {s₀ : State} {a0 : State} (a1 : ℕ) (a2 : RegId) (a3 : ℕ) (a4 : ℕ) {r0 : Code} {r1 : ℕ} {r2 : State}
    (e : @readReg a0 a1 a2 a3 a4 = (r0, r1, r2)) (h0 : Keeps s₀ a0) : Keeps s₀ r2 := by
  have := readReg_keeps a1 a2 a3 a4 h0
  rw [e] at this
  exact this

theorem storeFields_keeps {s₀ : State} {a0 : State} (a1 : RegId) (a2 : ℕ) (a3 : ℕ) (a4 : ℕ) (a5 : Fld → Bool) (h0 : Keeps s₀ a0) :
    Keeps s₀ (@storeFields a0 a1 a2 a3 a4 a5) := by
  unfold storeFields
  repeat' first
    | with_reducible assumption
    | with_reducible apply State.wr_keeps
    | with_reducible refine Keeps.foldl ?_ (fun u x hu => ?_)
    | split

theorem writeReg_keeps {s₀ : State} {a0 : State} (a1 : ℕ) (a2 : Origin) (a3 : RegId) (a4 : ℕ) (a5 : ℕ) (a6 : ℕ) (h0 : Keeps s₀ a0) :
    Keeps s₀ (@writeReg a0 a1 a2 a3 a4 a5 a6).2 := by
  unfold writeReg
  repeat' first
    | with_reducible assumption
    | with_reducible apply regHook_keeps
    | with_reducible apply storeFields_keeps
    | with_reducible apply State.portPut_keeps
    | with_reducible apply Keeps.ite2
    | split

theorem writeReg_keeps_eq {s₀ : State} {a0 : State} (a1 : ℕ) (a2 : Origin) (a3 : RegId) (a4 : ℕ) (a5 : ℕ) (a6 : ℕ) {r0 : WriteEnd} {r1 : State}
    (e : @writeReg a0 a1 a2 a3 a4 a5 a6 = (r0, r1)) (h0 : Keeps s₀ a0) : Keeps s₀ r1 := by
  have := writeReg_keeps a1 a2 a3 a4 a5 a6 h0
  rw [e] at this
  exact this

theorem applyPreg_keeps {s₀ : State} {a0 : State} (a1 : ℕ) (a2 : RegId) (a3 : ℕ) (a4 : ℕ) (a5 : ℕ) (h0 : Keeps s₀ a0) :
    Keeps s₀ (@applyPreg a0 a1 a2 a3 a4 a5) := by
  unfold applyPreg
  repeat' first
    | with_reducible assumption
    | with_reducible apply State.wr_keeps
    | with_reducible apply storeFields_keeps
    | with_reducible apply regHook_keeps
    | with_reducible apply Keeps.ite
    | split

theorem runRead_keeps {s₀ : State} {a0 : State} (a1 : RegAcc) (h0 : Keeps s₀ a0) :
    Keeps s₀ (@runRead a0 a1) := by
  unfold runRead
  repeat' first
    | with_reducible assumption
    | with_reducible apply answerAcc_keeps
    | with_reducible apply recordAcc_keeps
    | with_reducible apply readReg_keeps
    | split

theorem runWrite_keeps {s₀ : State} {a0 : State} (a1 : RegAcc) (h0 : Keeps s₀ a0) :
    Keeps s₀ (@runWrite a0 a1) := by
  unfold runWrite
  repeat' first
    | with_reducible assumption
    | with_reducible apply answerAcc_keeps
    | with_reducible apply recordAcc_keeps
    | (with_reducible apply writeReg_keeps_eq; on_goal 1 => with_reducible assumption)
    | split

theorem runAcc_keeps {s₀ : State} {a0 : State} (a1 : RegAcc) (h0 : Keeps s₀ a0) :
    Keeps s₀ (@runAcc a0 a1) := by
  unfold runAcc
  repeat' first
    | with_reducible assumption
    | with_reducible apply runWrite_keeps
    | with_reducible apply runRead_keeps
    | with_reducible apply Keeps.ite

theorem access_keeps {s₀ : State} {a0 : State} (a1 : RegAcc) (h0 : Keeps s₀ a0) :
    Keeps s₀ (@access a0 a1) := by
  unfold access
  repeat' first
    | (with_reducible apply Keeps.mk; with_reducible first | assumption | exact Keeps.refl _ | refine Keeps.foldl ?_ (fun u x hu => ?_) | apply Keeps.ite | apply runAcc_keeps)

theorem runWaitsOf_keeps {s₀ : State} (a0 : ℕ) (a1 : ℕ) {a2 : State} (h2 : Keeps s₀ a2) :
    Keeps s₀ (@runWaitsOf a0 a1 a2) := by
  induction a0 generalizing a1 a2 with
  | zero => exact h2
  | succ n ih =>
    unfold runWaitsOf
    repeat' first
      | with_reducible apply ih
      | split
      | (with_reducible apply Keeps.mk; with_reducible first | assumption | exact Keeps.refl _ | refine Keeps.foldl ?_ (fun u x hu => ?_) | apply Keeps.ite | apply runAcc_keeps)

theorem runWaits_keeps {s₀ : State} {a0 : State} (h0 : Keeps s₀ a0) :
    Keeps s₀ (@runWaits a0) := by
  unfold runWaits
  repeat' first
    | with_reducible assumption
    | with_reducible apply runWaitsOf_keeps
    | with_reducible refine Keeps.foldl ?_ (fun u x hu => ?_)

theorem writeBy_keeps {s₀ : State} {a0 : State} (a1 : ℕ) (a2 : RegId) (a3 : ℕ) (a4 : ℕ) (a5 : ℕ) (h0 : Keeps s₀ a0) :
    Keeps s₀ (@writeBy a0 a1 a2 a3 a4 a5) := by
  unfold writeBy
  repeat' first
    | with_reducible assumption
    | with_reducible apply access_keeps

theorem readBy_keeps {s₀ : State} {a0 : State} (a1 : ℕ) (a2 : RegId) (a3 : ℕ) (a4 : ℕ) (h0 : Keeps s₀ a0) :
    Keeps s₀ (@readBy a0 a1 a2 a3 a4) := by
  unfold readBy
  repeat' first
    | with_reducible assumption
    | with_reducible apply access_keeps

end Sys2Proof.Machine
end

