-- ==== Sys2Proof/Laws/KeepsMailbox.lean ====
section
/-! SUPPORT. What every operation keeps: of the store, the service port, the actions, what is delivered, the mailbox commands and the events. -/

namespace Sys2Proof.Machine

/-! ## Store -/

theorem logWorn_keeps {s₀ : State} {a0 : State} (h0 : Keeps s₀ a0) :
    Keeps s₀ (@logWorn a0) := by
  unfold logWorn
  repeat' first
    | with_reducible assumption
    | with_reducible apply State.raiseG_keeps
    | with_reducible apply State.putStackWord_keeps
    | with_reducible apply State.wr_keeps
    | with_reducible apply Keeps.ite

theorem wordWorn_keeps {s₀ : State} {a0 : State} (a1 : MWord) (h0 : Keeps s₀ a0) :
    Keeps s₀ (@wordWorn a0 a1) := by
  unfold wordWorn
  repeat' first
    | split
    | (with_reducible apply Keeps.mk; with_reducible first | assumption | exact Keeps.refl _ | refine Keeps.foldl ?_ (fun u x hu => ?_) | apply Keeps.ite | apply refusePreg_keeps | apply wordDone_keeps | apply tsvEvent_keeps | apply calStored_keeps | apply repairWorn_keeps)

theorem wordStored_keeps {s₀ : State} {a0 : State} (a1 : MWord) (h0 : Keeps s₀ a0) :
    Keeps s₀ (@wordStored a0 a1) := by
  unfold wordStored
  repeat' first
    | with_reducible assumption
    | with_reducible apply answerAcc_keeps
    | with_reducible apply recordAcc_keeps
    | with_reducible apply applyPreg_keeps
    | with_reducible apply State.setTsv_keeps
    | with_reducible apply calStored_keeps
    | with_reducible apply wordDone_keeps
    | with_reducible apply tsvEvent_keeps
    | split

theorem storeWord_keeps {s₀ : State} {a0 : State} (a1 : ℕ) (a2 : ℕ) (h0 : Keeps s₀ a0) :
    Keeps s₀ (@storeWord a0 a1 a2) := by
  unfold storeWord
  repeat' first
    | dsimp only
    | (with_reducible apply Keeps.mk; with_reducible first | assumption | exact Keeps.refl _ | refine Keeps.foldl ?_ (fun u x hu => ?_) | apply Keeps.ite | apply setWear_keeps)

theorem finishWord_keeps {s₀ : State} {a0 : State} (a1 : MWord) (a2 : Bool) (h0 : Keeps s₀ a0) :
    Keeps s₀ (@finishWord a0 a1 a2) := by
  unfold finishWord
  repeat' first
    | (with_reducible apply Keeps.mk; with_reducible first | assumption | exact Keeps.refl _ | refine Keeps.foldl ?_ (fun u x hu => ?_) | apply Keeps.ite | apply wordStored_keeps | apply wordWorn_keeps | apply State.draw_keeps | (apply State.draw_keeps_eq; on_goal 1 => assumption) | apply setWear_keeps | apply storeWord_keeps | apply logWorn_keeps)

theorem wordEnd_keeps {s₀ : State} (a0 : Bool) {a1 : State} (h1 : Keeps s₀ a1) :
    Keeps s₀ (@wordEnd a0 a1) := by
  unfold wordEnd
  repeat' first
    | split
    | (with_reducible apply Keeps.mk; with_reducible first | assumption | exact Keeps.refl _ | refine Keeps.foldl ?_ (fun u x hu => ?_) | apply Keeps.ite | apply runWaits_keeps | apply State.portStart_keeps | apply finishWord_keeps)

theorem persistentCommit_keeps {s₀ : State} (a0 : Bool) {a1 : State} (h1 : Keeps s₀ a1) :
    Keeps s₀ (@persistentCommit a0 a1) := by
  unfold persistentCommit
  repeat' first
    | with_reducible assumption
    | with_reducible apply wordEnd_keeps
    | with_reducible apply Keeps.ite

theorem lifetimeSecond_keeps {s₀ : State} {a0 : State} (h0 : Keeps s₀ a0) :
    Keeps s₀ (@lifetimeSecond a0) := by
  unfold lifetimeSecond
  repeat' first
    | (with_reducible apply Keeps.mk; with_reducible first | assumption | exact Keeps.refl _ | refine Keeps.foldl ?_ (fun u x hu => ?_) | apply Keeps.ite | apply State.inc_keeps | apply State.putStackWord_keeps)

/-! ## Service -/

theorem countFrame_keeps {s₀ : State} {a0 : State} (h0 : Keeps s₀ a0) :
    Keeps s₀ (@countFrame a0) := by
  unfold countFrame
  repeat' first
    | with_reducible assumption
    | with_reducible apply State.inc_keeps

theorem mbxFrame_keeps {s₀ : State} (a0 : ℕ) (a1 : List Byte) {a2 : State} (h2 : Keeps s₀ a2) :
    Keeps s₀ (@mbxFrame a0 a1 a2) := by
  unfold mbxFrame
  repeat' first
    | (with_reducible apply Keeps.mk; with_reducible first | assumption | exact Keeps.refl _ | refine Keeps.foldl ?_ (fun u x hu => ?_) | apply Keeps.ite | apply countFrame_keeps | apply frameErr_keeps | apply State.modMbx_keeps | apply wakeCause_keeps | apply doorbell_keeps)

theorem svcRreg_keeps {s₀ : State} (a0 : ℕ) (a1 : ℕ) {a2 : State} (h2 : Keeps s₀ a2) :
    Keeps s₀ (@svcRreg a0 a1 a2) := by
  unfold svcRreg
  repeat' first
    | with_reducible assumption
    | with_reducible apply access_keeps
    | with_reducible apply countFrame_keeps
    | with_reducible apply Keeps.ite

theorem svcWreg_keeps {s₀ : State} (a0 : ℕ) (a1 : ℕ) (a2 : ℕ) {a3 : State} (h3 : Keeps s₀ a3) :
    Keeps s₀ (@svcWreg a0 a1 a2 a3) := by
  unfold svcWreg
  repeat' first
    | with_reducible assumption
    | with_reducible apply access_keeps
    | with_reducible apply countFrame_keeps
    | with_reducible apply Keeps.ite

theorem badFrame_keeps {s₀ : State} (a0 : ℕ) (a1 : Code) {a2 : State} (h2 : Keeps s₀ a2) :
    Keeps s₀ (@badFrame a0 a1 a2) := by
  unfold badFrame
  repeat' first
    | with_reducible assumption
    | with_reducible apply frameErr_keeps
    | with_reducible apply countFrame_keeps
    | with_reducible apply Keeps.ite

theorem frameArrive_keeps {s₀ : State} (a0 : List Byte) {a1 : State} (h1 : Keeps s₀ a1) :
    Keeps s₀ (@frameArrive a0 a1) := by
  unfold frameArrive
  repeat' first
    | with_reducible assumption
    | with_reducible apply badFrame_keeps
    | with_reducible apply mbxFrame_keeps
    | with_reducible apply svcRreg_keeps
    | with_reducible apply svcWreg_keeps
    | with_reducible apply Keeps.ite
    | split

theorem setSlstate_keeps {s₀ : State} {a0 : State} (a1 : ℕ) (h0 : Keeps s₀ a0) :
    Keeps s₀ (@setSlstate a0 a1) := by
  unfold setSlstate
  repeat' first
    | with_reducible assumption
    | with_reducible apply State.raiseG_keeps
    | with_reducible apply State.wr_keeps
    | with_reducible apply Keeps.ite

theorem linkChange_keeps {s₀ : State} (a0 : ℕ) (a1 : Bool) {a2 : State} (h2 : Keeps s₀ a2) :
    Keeps s₀ (@linkChange a0 a1 a2) := by
  unfold linkChange
  repeat' first
    | with_reducible assumption
    | with_reducible apply svcDown_keeps
    | with_reducible apply setSlstate_keeps
    | with_reducible apply State.wr_keeps
    | with_reducible apply Keeps.ite
    | split

theorem ep0Request_keeps {s₀ : State} (a0 : ℕ) (a1 : ℕ) (a2 : ℕ) {a3 : State} (h3 : Keeps s₀ a3) :
    Keeps s₀ (@ep0Request a0 a1 a2 a3) := by
  unfold ep0Request
  repeat' first
    | split
    | (with_reducible apply Keeps.mk; with_reducible first | assumption | exact Keeps.refl _ | refine Keeps.foldl ?_ (fun u x hu => ?_) | apply Keeps.ite | apply State.wr_keeps)

theorem nonceExpiry_keeps {s₀ : State} {a0 : State} (h0 : Keeps s₀ a0) :
    Keeps s₀ (@nonceExpiry a0) := by
  unfold nonceExpiry
  repeat' first
    | split
    | (with_reducible apply Keeps.mk; with_reducible assumption)

theorem authLockEnd_keeps {s₀ : State} {a0 : State} (h0 : Keeps s₀ a0) :
    Keeps s₀ (@authLockEnd a0) := by
  unfold authLockEnd
  repeat' first
    | (with_reducible apply Keeps.mk; with_reducible first | assumption | exact Keeps.refl _ | refine Keeps.foldl ?_ (fun u x hu => ?_) | apply Keeps.ite | apply State.wr_keeps)

theorem authFailed_keeps {s₀ : State} {a0 : State} (h0 : Keeps s₀ a0) :
    Keeps s₀ (@authFailed a0) := by
  unfold authFailed
  repeat' first
    | (with_reducible apply Keeps.mk; with_reducible first | assumption | exact Keeps.refl _ | refine Keeps.foldl ?_ (fun u x hu => ?_) | apply Keeps.ite | apply State.raiseG_keeps | apply State.inc_keeps | apply State.wr_keeps)

theorem authPassed_keeps {s₀ : State} {a0 : State} (h0 : Keeps s₀ a0) :
    Keeps s₀ (@authPassed a0) := by
  unfold authPassed
  repeat' first
    | (with_reducible apply Keeps.mk; with_reducible first | assumption | exact Keeps.refl _ | refine Keeps.foldl ?_ (fun u x hu => ?_) | apply Keeps.ite | apply State.inc_keeps)

/-! ## Actions -/

theorem regAction_keeps {s₀ : State} (a0 : RegId) (a1 : ℕ) (a2 : ℕ) (a3 : List (Fld × ℕ)) (a4 : ℕ) (a5 : ℕ) {a6 : State} (h6 : Keeps s₀ a6) :
    Keeps s₀ (@regAction a0 a1 a2 a3 a4 a5 a6) := by
  unfold regAction
  repeat' first
    | with_reducible assumption
    | with_reducible apply writeBy_keeps

theorem registerWrite_keeps {s₀ : State} (a0 : ℕ) (a1 : ℕ) (a2 : ℕ) {a3 : State} (h3 : Keeps s₀ a3) :
    Keeps s₀ (@registerWrite a0 a1 a2 a3) := by
  unfold registerWrite
  repeat' first
    | with_reducible assumption
    | with_reducible apply access_keeps

theorem errorsRead_keeps {s₀ : State} (a0 : ℕ) (a1 : ℕ) (a2 : ℕ) {a3 : State} (h3 : Keeps s₀ a3) :
    Keeps s₀ (@errorsRead a0 a1 a2 a3) := by
  unfold errorsRead
  repeat' first
    | with_reducible assumption
    | with_reducible apply readBy_keeps

theorem mdataAccess_keeps {s₀ : State} (a0 : ℕ) (a1 : ℕ) (a2 : Bool) (a3 : ℕ) {a4 : State} (h4 : Keeps s₀ a4) :
    Keeps s₀ (@mdataAccess a0 a1 a2 a3 a4) := by
  unfold mdataAccess
  repeat' first
    | with_reducible assumption
    | with_reducible apply writeBy_keeps
    | with_reducible apply readBy_keeps
    | with_reducible apply Keeps.ite

theorem beatWrite_keeps {s₀ : State} (a0 : Bool) {a1 : State} (h1 : Keeps s₀ a1) :
    Keeps s₀ (@beatWrite a0 a1) := by
  unfold beatWrite
  repeat' first
    | with_reducible assumption
    | with_reducible apply writeBy_keeps
    | with_reducible apply beat_keeps
    | with_reducible apply Keeps.ite

theorem retrainWrite_keeps {s₀ : State} (a0 : ℕ) (a1 : ℕ) (a2 : ℕ) {a3 : State} (h3 : Keeps s₀ a3) :
    Keeps s₀ (@retrainWrite a0 a1 a2 a3) := by
  unfold retrainWrite
  repeat' first
    | with_reducible assumption
    | with_reducible apply regAction_keeps

theorem testSet_keeps {s₀ : State} (a0 : ℕ) (a1 : ℕ) (a2 : ℕ) {a3 : State} (h3 : Keeps s₀ a3) :
    Keeps s₀ (@testSet a0 a1 a2 a3) := by
  unfold testSet
  repeat' first
    | with_reducible assumption
    | with_reducible apply regAction_keeps

theorem testClear_keeps {s₀ : State} (a0 : ℕ) (a1 : ℕ) (a2 : ℕ) {a3 : State} (h3 : Keeps s₀ a3) :
    Keeps s₀ (@testClear a0 a1 a2 a3) := by
  unfold testClear
  repeat' first
    | with_reducible assumption
    | with_reducible apply regAction_keeps

theorem injGo_keeps {s₀ : State} (a0 : ℕ) (a1 : ℕ) (a2 : ℕ) {a3 : State} (h3 : Keeps s₀ a3) :
    Keeps s₀ (@injGo a0 a1 a2 a3) := by
  unfold injGo
  repeat' first
    | with_reducible assumption
    | with_reducible apply regAction_keeps

theorem chkEnWrite_keeps {s₀ : State} (a0 : ℕ) (a1 : ℕ) (a2 : ℕ) (a3 : ℕ) {a4 : State} (h4 : Keeps s₀ a4) :
    Keeps s₀ (@chkEnWrite a0 a1 a2 a3 a4) := by
  unfold chkEnWrite
  repeat' first
    | with_reducible assumption
    | with_reducible apply regAction_keeps

theorem turnGo_keeps {s₀ : State} (a0 : ℕ) (a1 : ℕ) {a2 : State} (h2 : Keeps s₀ a2) :
    Keeps s₀ (@turnGo a0 a1 a2) := by
  unfold turnGo
  repeat' first
    | with_reducible assumption
    | with_reducible apply regAction_keeps

theorem hllCntClr_keeps {s₀ : State} (a0 : ℕ) (a1 : ℕ) {a2 : State} (h2 : Keeps s₀ a2) :
    Keeps s₀ (@hllCntClr a0 a1 a2) := by
  unfold hllCntClr
  repeat' first
    | with_reducible assumption
    | with_reducible apply regAction_keeps

theorem purgeWrite_keeps {s₀ : State} (a0 : ℕ) (a1 : ℕ) (a2 : ℕ) {a3 : State} (h3 : Keeps s₀ a3) :
    Keeps s₀ (@purgeWrite a0 a1 a2 a3) := by
  unfold purgeWrite
  repeat' first
    | with_reducible assumption
    | with_reducible apply regAction_keeps

theorem regionWrite_keeps {s₀ : State} (a0 : Bool) (a1 : ℕ) (a2 : ℕ) (a3 : ℕ) {a4 : State} (h4 : Keeps s₀ a4) :
    Keeps s₀ (@regionWrite a0 a1 a2 a3 a4) := by
  unfold regionWrite
  repeat' first
    | with_reducible assumption
    | with_reducible apply regAction_keeps

theorem rqeCntClr_keeps {s₀ : State} (a0 : ℕ) (a1 : ℕ) {a2 : State} (h2 : Keeps s₀ a2) :
    Keeps s₀ (@rqeCntClr a0 a1 a2) := by
  unfold rqeCntClr
  repeat' first
    | with_reducible assumption
    | with_reducible apply regAction_keeps

theorem ctxReadGo_keeps {s₀ : State} (a0 : ℕ) (a1 : ℕ) {a2 : State} (h2 : Keeps s₀ a2) :
    Keeps s₀ (@ctxReadGo a0 a1 a2) := by
  unfold ctxReadGo
  repeat' first
    | with_reducible assumption
    | with_reducible apply regAction_keeps

theorem ctxWriteGo_keeps {s₀ : State} (a0 : ℕ) (a1 : ℕ) {a2 : State} (h2 : Keeps s₀ a2) :
    Keeps s₀ (@ctxWriteGo a0 a1 a2) := by
  unfold ctxWriteGo
  repeat' first
    | with_reducible assumption
    | with_reducible apply regAction_keeps

theorem counterSnapshot_keeps {s₀ : State} (a0 : ℕ) (a1 : ℕ) {a2 : State} (h2 : Keeps s₀ a2) :
    Keeps s₀ (@counterSnapshot a0 a1 a2) := by
  unfold counterSnapshot
  repeat' first
    | with_reducible assumption
    | with_reducible apply regAction_keeps

theorem watchSelect_keeps {s₀ : State} (a0 : ℕ) (a1 : ℕ) {a2 : State} (h2 : Keeps s₀ a2) :
    Keeps s₀ (@watchSelect a0 a1 a2) := by
  unfold watchSelect
  repeat' first
    | with_reducible assumption
    | with_reducible apply regAction_keeps

theorem bowRangeWrite_keeps {s₀ : State} (a0 : Bool) (a1 : ℕ) (a2 : ℕ) (a3 : ℕ) {a4 : State} (h4 : Keeps s₀ a4) :
    Keeps s₀ (@bowRangeWrite a0 a1 a2 a3 a4) := by
  unfold bowRangeWrite
  repeat' first
    | with_reducible assumption
    | with_reducible apply regAction_keeps

theorem reservationWrite_keeps {s₀ : State} (a0 : ℕ) (a1 : ℕ) (a2 : ℕ) {a3 : State} (h3 : Keeps s₀ a3) :
    Keeps s₀ (@reservationWrite a0 a1 a2 a3) := by
  unfold reservationWrite
  repeat' first
    | with_reducible assumption
    | with_reducible apply regAction_keeps

theorem regCntClr_keeps {s₀ : State} (a0 : ℕ) (a1 : ℕ) {a2 : State} (h2 : Keeps s₀ a2) :
    Keeps s₀ (@regCntClr a0 a1 a2) := by
  unfold regCntClr
  repeat' first
    | with_reducible assumption
    | with_reducible apply regAction_keeps

theorem cleanWrite_keeps {s₀ : State} (a0 : ℕ) (a1 : ℕ) (a2 : ℕ) {a3 : State} (h3 : Keeps s₀ a3) :
    Keeps s₀ (@cleanWrite a0 a1 a2 a3) := by
  unfold cleanWrite
  repeat' first
    | with_reducible assumption
    | with_reducible apply regAction_keeps

theorem cleanInvWrite_keeps {s₀ : State} (a0 : ℕ) (a1 : ℕ) (a2 : ℕ) {a3 : State} (h3 : Keeps s₀ a3) :
    Keeps s₀ (@cleanInvWrite a0 a1 a2 a3) := by
  unfold cleanInvWrite
  repeat' first
    | with_reducible assumption
    | with_reducible apply regAction_keeps

theorem writeThroughSet_keeps {s₀ : State} (a0 : ℕ) (a1 : ℕ) (a2 : ℕ) {a3 : State} (h3 : Keeps s₀ a3) :
    Keeps s₀ (@writeThroughSet a0 a1 a2 a3) := by
  unfold writeThroughSet
  repeat' first
    | with_reducible assumption
    | with_reducible apply regAction_keeps

theorem bypassWrite_keeps {s₀ : State} (a0 : ℕ) (a1 : ℕ) (a2 : ℕ) {a3 : State} (h3 : Keeps s₀ a3) :
    Keeps s₀ (@bypassWrite a0 a1 a2 a3) := by
  unfold bypassWrite
  repeat' first
    | with_reducible assumption
    | with_reducible apply regAction_keeps

theorem wayDisable_keeps {s₀ : State} (a0 : ℕ) (a1 : ℕ) (a2 : ℕ) {a3 : State} (h3 : Keeps s₀ a3) :
    Keeps s₀ (@wayDisable a0 a1 a2 a3) := by
  unfold wayDisable
  repeat' first
    | with_reducible assumption
    | with_reducible apply regAction_keeps

theorem sccCntClr_keeps {s₀ : State} (a0 : ℕ) (a1 : ℕ) (a2 : ℕ) {a3 : State} (h3 : Keeps s₀ a3) :
    Keeps s₀ (@sccCntClr a0 a1 a2 a3) := by
  unfold sccCntClr
  repeat' first
    | with_reducible assumption
    | with_reducible apply regAction_keeps

theorem chRst_keeps {s₀ : State} (a0 : ℕ) (a1 : ℕ) (a2 : ℕ) {a3 : State} (h3 : Keeps s₀ a3) :
    Keeps s₀ (@chRst a0 a1 a2 a3) := by
  unfold chRst
  repeat' first
    | with_reducible assumption
    | with_reducible apply regAction_keeps

theorem trainGo_keeps {s₀ : State} (a0 : ℕ) (a1 : ℕ) (a2 : ℕ) {a3 : State} (h3 : Keeps s₀ a3) :
    Keeps s₀ (@trainGo a0 a1 a2 a3) := by
  unfold trainGo
  repeat' first
    | with_reducible assumption
    | with_reducible apply regAction_keeps

theorem dmcCntClr_keeps {s₀ : State} (a0 : ℕ) (a1 : ℕ) (a2 : ℕ) {a3 : State} (h3 : Keeps s₀ a3) :
    Keeps s₀ (@dmcCntClr a0 a1 a2 a3) := by
  unfold dmcCntClr
  repeat' first
    | with_reducible assumption
    | with_reducible apply regAction_keeps

theorem stThrWrite_keeps {s₀ : State} (a0 : ℕ) (a1 : ℕ) {a2 : State} (h2 : Keeps s₀ a2) :
    Keeps s₀ (@stThrWrite a0 a1 a2) := by
  unfold stThrWrite
  repeat' first
    | with_reducible assumption
    | with_reducible apply regAction_keeps

theorem rfmCntClr_keeps {s₀ : State} (a0 : ℕ) (a1 : ℕ) {a2 : State} (h2 : Keeps s₀ a2) :
    Keeps s₀ (@rfmCntClr a0 a1 a2) := by
  unfold rfmCntClr
  repeat' first
    | with_reducible assumption
    | with_reducible apply regAction_keeps

theorem injArm_keeps {s₀ : State} (a0 : ℕ) (a1 : ℕ) {a2 : State} (h2 : Keeps s₀ a2) :
    Keeps s₀ (@injArm a0 a1 a2) := by
  unfold injArm
  repeat' first
    | with_reducible assumption
    | with_reducible apply regAction_keeps

theorem popWrite_keeps {s₀ : State} (a0 : ℕ) (a1 : ℕ) {a2 : State} (h2 : Keeps s₀ a2) :
    Keeps s₀ (@popWrite a0 a1 a2) := by
  unfold popWrite
  repeat' first
    | with_reducible assumption
    | with_reducible apply regAction_keeps

theorem dipCntClr_keeps {s₀ : State} (a0 : ℕ) (a1 : ℕ) {a2 : State} (h2 : Keeps s₀ a2) :
    Keeps s₀ (@dipCntClr a0 a1 a2) := by
  unfold dipCntClr
  repeat' first
    | with_reducible assumption
    | with_reducible apply regAction_keeps

theorem killWrite_keeps {s₀ : State} (a0 : ℕ) (a1 : ℕ) (a2 : ℕ) {a3 : State} (h3 : Keeps s₀ a3) :
    Keeps s₀ (@killWrite a0 a1 a2 a3) := by
  unfold killWrite
  repeat' first
    | with_reducible assumption
    | with_reducible apply regAction_keeps

theorem rprGo_keeps {s₀ : State} (a0 : ℕ) (a1 : ℕ) (a2 : ℕ) {a3 : State} (h3 : Keeps s₀ a3) :
    Keeps s₀ (@rprGo a0 a1 a2 a3) := by
  unfold rprGo
  repeat' first
    | with_reducible assumption
    | with_reducible apply regAction_keeps

theorem foldGoWrite_keeps {s₀ : State} (a0 : ℕ) (a1 : ℕ) {a2 : State} (h2 : Keeps s₀ a2) :
    Keeps s₀ (@foldGoWrite a0 a1 a2) := by
  unfold foldGoWrite
  repeat' first
    | with_reducible assumption
    | with_reducible apply regAction_keeps

theorem tsvCntClr_keeps {s₀ : State} (a0 : ℕ) (a1 : ℕ) (a2 : ℕ) {a3 : State} (h3 : Keeps s₀ a3) :
    Keeps s₀ (@tsvCntClr a0 a1 a2 a3) := by
  unfold tsvCntClr
  repeat' first
    | with_reducible assumption
    | with_reducible apply regAction_keeps

theorem takeWrite_keeps {s₀ : State} (a0 : ℕ) (a1 : ℕ) {a2 : State} (h2 : Keeps s₀ a2) :
    Keeps s₀ (@takeWrite a0 a1 a2) := by
  unfold takeWrite
  repeat' first
    | with_reducible assumption
    | with_reducible apply regAction_keeps

theorem dbSeqWrite_keeps {s₀ : State} (a0 : ℕ) (a1 : ℕ) (a2 : ℕ) {a3 : State} (h3 : Keeps s₀ a3) :
    Keeps s₀ (@dbSeqWrite a0 a1 a2 a3) := by
  unfold dbSeqWrite
  repeat' first
    | with_reducible assumption
    | with_reducible apply regAction_keeps

theorem weStackWrite_keeps {s₀ : State} (a0 : ℕ) (a1 : ℕ) {a2 : State} (h2 : Keeps s₀ a2) :
    Keeps s₀ (@weStackWrite a0 a1 a2) := by
  unfold weStackWrite
  repeat' first
    | with_reducible assumption
    | with_reducible apply regAction_keeps

theorem wrstWrite_keeps {s₀ : State} (a0 : ℕ) (a1 : ℕ) {a2 : State} (h2 : Keeps s₀ a2) :
    Keeps s₀ (@wrstWrite a0 a1 a2) := by
  unfold wrstWrite
  repeat' first
    | with_reducible assumption
    | with_reducible apply regAction_keeps

theorem scratchHigh_keeps {s₀ : State} (a0 : ℕ) (a1 : ℕ) {a2 : State} (h2 : Keeps s₀ a2) :
    Keeps s₀ (@scratchHigh a0 a1 a2) := by
  unfold scratchHigh
  repeat' first
    | with_reducible assumption
    | with_reducible apply regAction_keeps

theorem plockSet_keeps {s₀ : State} (a0 : ℕ) (a1 : ℕ) {a2 : State} (h2 : Keeps s₀ a2) :
    Keeps s₀ (@plockSet a0 a1 a2) := by
  unfold plockSet
  repeat' first
    | with_reducible assumption
    | with_reducible apply regAction_keeps

theorem punlock_keeps {s₀ : State} (a0 : ℕ) (a1 : ℕ) {a2 : State} (h2 : Keeps s₀ a2) :
    Keeps s₀ (@punlock a0 a1 a2) := by
  unfold punlock
  repeat' first
    | with_reducible assumption
    | with_reducible apply regAction_keeps

theorem fcrCntClr_keeps {s₀ : State} (a0 : ℕ) (a1 : ℕ) {a2 : State} (h2 : Keeps s₀ a2) :
    Keeps s₀ (@fcrCntClr a0 a1 a2) := by
  unfold fcrCntClr
  repeat' first
    | with_reducible assumption
    | with_reducible apply regAction_keeps

theorem ffClrWrite_keeps {s₀ : State} (a0 : ℕ) (a1 : ℕ) {a2 : State} (h2 : Keeps s₀ a2) :
    Keeps s₀ (@ffClrWrite a0 a1 a2) := by
  unfold ffClrWrite
  repeat' first
    | with_reducible assumption
    | with_reducible apply regAction_keeps

theorem raiseGoWrite_keeps {s₀ : State} (a0 : ℕ) (a1 : ℕ) {a2 : State} (h2 : Keeps s₀ a2) :
    Keeps s₀ (@raiseGoWrite a0 a1 a2) := by
  unfold raiseGoWrite
  repeat' first
    | with_reducible assumption
    | with_reducible apply regAction_keeps

theorem alertClear_keeps {s₀ : State} (a0 : ℕ) (a1 : ℕ) {a2 : State} (h2 : Keeps s₀ a2) :
    Keeps s₀ (@alertClear a0 a1 a2) := by
  unfold alertClear
  repeat' first
    | with_reducible assumption
    | with_reducible apply regAction_keeps

theorem calGoWrite_keeps {s₀ : State} (a0 : ℕ) (a1 : ℕ) {a2 : State} (h2 : Keeps s₀ a2) :
    Keeps s₀ (@calGoWrite a0 a1 a2) := by
  unfold calGoWrite
  repeat' first
    | with_reducible assumption
    | with_reducible apply regAction_keeps

theorem modeWriteReg_keeps {s₀ : State} (a0 : ℕ) (a1 : ℕ) {a2 : State} (h2 : Keeps s₀ a2) :
    Keeps s₀ (@modeWriteReg a0 a1 a2) := by
  unfold modeWriteReg
  repeat' first
    | with_reducible assumption
    | with_reducible apply regAction_keeps

theorem mckSelWrite_keeps {s₀ : State} (a0 : ℕ) (a1 : ℕ) {a2 : State} (h2 : Keeps s₀ a2) :
    Keeps s₀ (@mckSelWrite a0 a1 a2) := by
  unfold mckSelWrite
  repeat' first
    | with_reducible assumption
    | with_reducible apply regAction_keeps

theorem nosleepWrite_keeps {s₀ : State} (a0 : ℕ) (a1 : ℕ) (a2 : ℕ) {a3 : State} (h3 : Keeps s₀ a3) :
    Keeps s₀ (@nosleepWrite a0 a1 a2 a3) := by
  unfold nosleepWrite
  repeat' first
    | with_reducible assumption
    | with_reducible apply regAction_keeps

theorem pckCntClr_keeps {s₀ : State} (a0 : ℕ) (a1 : ℕ) {a2 : State} (h2 : Keeps s₀ a2) :
    Keeps s₀ (@pckCntClr a0 a1 a2) := by
  unfold pckCntClr
  repeat' first
    | with_reducible assumption
    | with_reducible apply regAction_keeps

theorem thmCntClr_keeps {s₀ : State} (a0 : ℕ) (a1 : ℕ) {a2 : State} (h2 : Keeps s₀ a2) :
    Keeps s₀ (@thmCntClr a0 a1 a2) := by
  unfold thmCntClr
  repeat' first
    | with_reducible assumption
    | with_reducible apply regAction_keeps

theorem svcEnWrite_keeps {s₀ : State} (a0 : ℕ) (a1 : ℕ) {a2 : State} (h2 : Keeps s₀ a2) :
    Keeps s₀ (@svcEnWrite a0 a1 a2) := by
  unfold svcEnWrite
  repeat' first
    | with_reducible assumption
    | with_reducible apply regAction_keeps

theorem deauthWrite_keeps {s₀ : State} (a0 : ℕ) (a1 : ℕ) {a2 : State} (h2 : Keeps s₀ a2) :
    Keeps s₀ (@deauthWrite a0 a1 a2) := by
  unfold deauthWrite
  repeat' first
    | with_reducible assumption
    | with_reducible apply regAction_keeps

theorem drnGoWrite_keeps {s₀ : State} (a0 : ℕ) (a1 : ℕ) {a2 : State} (h2 : Keeps s₀ a2) :
    Keeps s₀ (@drnGoWrite a0 a1 a2) := by
  unfold drnGoWrite
  repeat' first
    | with_reducible assumption
    | with_reducible apply regAction_keeps

theorem drnAbortWrite_keeps {s₀ : State} (a0 : ℕ) (a1 : ℕ) {a2 : State} (h2 : Keeps s₀ a2) :
    Keeps s₀ (@drnAbortWrite a0 a1 a2) := by
  unfold drnAbortWrite
  repeat' first
    | with_reducible assumption
    | with_reducible apply regAction_keeps

/-! ## Deliver -/

theorem reservedVc2_keeps {s₀ : State} (a0 : ℕ) {a1 : State} (h1 : Keeps s₀ a1) :
    Keeps s₀ (@reservedVc2 a0 a1) := by
  unfold reservedVc2
  repeat' first
    | with_reducible assumption
    | with_reducible apply State.draw_keeps
    | with_reducible apply recordAcc_keeps

theorem mbxWrite_keeps {s₀ : State} (a0 : ℕ) (a1 : ℕ) (a2 : ℕ) (a3 : List Byte) {a4 : State} (h4 : Keeps s₀ a4) :
    Keeps s₀ (@mbxWrite a0 a1 a2 a3 a4) := by
  unfold mbxWrite
  repeat' first
    | with_reducible assumption
    | with_reducible apply State.modMbx_keeps
    | with_reducible apply sendVc2_keeps
    | with_reducible apply Keeps.ite

theorem mbxRead_keeps {s₀ : State} (a0 : ℕ) (a1 : ℕ) (a2 : ℕ) (a3 : ℕ) {a4 : State} (h4 : Keeps s₀ a4) :
    Keeps s₀ (@mbxRead a0 a1 a2 a3 a4) := by
  unfold mbxRead
  repeat' first
    | with_reducible assumption
    | with_reducible apply sendVc2_keeps
    | with_reducible apply Keeps.ite

theorem runVc2_keeps {s₀ : State} {a0 : State} (a1 : List Byte) (h0 : Keeps s₀ a0) :
    Keeps s₀ (@runVc2 a0 a1) := by
  unfold runVc2
  repeat' first
    | with_reducible assumption
    | with_reducible apply access_keeps
    | with_reducible apply releaseVc2_keeps
    | with_reducible apply doorbell_keeps
    | with_reducible apply mbxWrite_keeps
    | with_reducible apply mbxRead_keeps
    | with_reducible apply receiveTurn_keeps
    | with_reducible apply receiveTurnAck_keeps
    | with_reducible apply pmAck_keeps
    | with_reducible apply reservedVc2_keeps
    | with_reducible apply Keeps.ite
    | split

theorem consumeVc2_keeps {s₀ : State} {a0 : State} (a1 : List Byte) (h0 : Keeps s₀ a0) :
    Keeps s₀ (@consumeVc2 a0 a1) := by
  unfold consumeVc2
  exact .ite (.mk h0) (runVc2_keeps _ h0)

theorem flushVc2_keeps {s₀ : State} {a0 : State} (h0 : Keeps s₀ a0) :
    Keeps s₀ (@flushVc2 a0) := by
  unfold flushVc2
  exact .foldl (.mk h0) fun _ _ hu => consumeVc2_keeps _ hu

theorem flushHold_keeps {s₀ : State} {a0 : State} (h0 : Keeps s₀ a0) :
    Keeps s₀ (@flushHold a0) := by
  unfold flushHold
  repeat' first
    | (with_reducible apply Keeps.mk; with_reducible first | assumption | exact Keeps.refl _ | refine Keeps.foldl ?_ (fun u x hu => ?_) | apply Keeps.ite | apply consumeVc2_keeps)

theorem afterLoss_keeps {s₀ : State} {a0 : State} (a1 : List Byte) (h0 : Keeps s₀ a0) :
    Keeps s₀ (@afterLoss a0 a1) := by
  unfold afterLoss
  repeat' first
    | with_reducible assumption
    | with_reducible exact Keeps.refl _
    | with_reducible apply State.draw_keeps
    | (with_reducible apply State.draw_keeps_eq; on_goal 1 => with_reducible assumption)
    | with_reducible apply consumeVc2_keeps
    | with_reducible apply flushHold_keeps
    | with_reducible apply State.wr_keeps
    | with_reducible apply State.inc_keeps
    | with_reducible refine Keeps.foldl ?_ (fun u x hu => ?_)
    | with_reducible apply Keeps.ite
    | with_reducible apply Keeps.ite1
    | with_reducible apply Keeps.ite2
    | with_reducible apply Keeps.ite22
    | (lift_lets; intro x; refine Keeps.cut (x := x) ?_ (fun hx => ?_))
    | (lift_lets; intro x)
    | split
    | dsimp only
    | dsimp only [x]
    | (with_reducible apply Keeps.mk; with_reducible first | assumption | exact Keeps.refl _ | refine Keeps.foldl ?_ (fun u x hu => ?_) | apply Keeps.ite | apply State.draw_keeps)

theorem arriveVc2_keeps {s₀ : State} (a0 : ℕ) (a1 : List Byte) {a2 : State} (h2 : Keeps s₀ a2) :
    Keeps s₀ (@arriveVc2 a0 a1 a2) := by
  unfold arriveVc2
  repeat' first
    | with_reducible assumption
    | with_reducible exact Keeps.refl _
    | with_reducible apply protocolError_keeps
    | with_reducible apply holdVc2_keeps
    | with_reducible apply afterLoss_keeps
    | with_reducible apply consumeVc2_keeps
    | with_reducible apply State.wr_keeps
    | with_reducible apply State.inc_keeps
    | with_reducible refine Keeps.foldl ?_ (fun u x hu => ?_)
    | with_reducible apply Keeps.ite
    | with_reducible apply Keeps.ite1
    | with_reducible apply Keeps.ite2
    | with_reducible apply Keeps.ite22
    | (lift_lets; intro x; refine Keeps.cut (x := x) ?_ (fun hx => ?_))
    | (lift_lets; intro x)
    | split
    | dsimp only
    | dsimp only [x]
    | (with_reducible apply Keeps.mk; with_reducible first | assumption | exact Keeps.refl _ | refine Keeps.foldl ?_ (fun u x hu => ?_) | apply Keeps.ite | apply protocolError_keeps | apply holdVc2_keeps)

theorem pruneCaps_keeps {s₀ : State} {a0 : State} (h0 : Keeps s₀ a0) :
    Keeps s₀ (@pruneCaps a0) := by
  unfold pruneCaps
  repeat' first
    | (with_reducible apply Keeps.mk; with_reducible first | assumption | exact Keeps.refl _ | refine Keeps.foldl ?_ (fun u x hu => ?_) | apply Keeps.ite)

theorem statusItemIn_keeps {s₀ : State} (a0 : ℕ) (a1 : ℕ) (a2 : List ℕ) (a3 : ℕ) (a4 : ℕ) {a5 : State} (h5 : Keeps s₀ a5) :
    Keeps s₀ (@statusItemIn a0 a1 a2 a3 a4 a5) := by
  unfold statusItemIn
  repeat' first
    | with_reducible assumption
    | with_reducible apply pruneCaps_keeps
    | with_reducible apply receiveStatus_keeps
    | with_reducible apply Keeps.ite

theorem nakItemIn_keeps {s₀ : State} (a0 : ℕ) (a1 : ℕ) (a2 : ℕ) {a3 : State} (h3 : Keeps s₀ a3) :
    Keeps s₀ (@nakItemIn a0 a1 a2 a3) := by
  unfold nakItemIn
  repeat' first
    | with_reducible assumption
    | with_reducible apply receiveNak_keeps
    | with_reducible apply Keeps.ite

theorem configItemIn_keeps {s₀ : State} (a0 : ℕ) (a1 : ℕ) (a2 : ℕ) {a3 : State} (h3 : Keeps s₀ a3) :
    Keeps s₀ (@configItemIn a0 a1 a2 a3) := by
  unfold configItemIn
  repeat' first
    | with_reducible assumption
    | with_reducible apply receiveConfig_keeps
    | with_reducible apply Keeps.ite

theorem groupSpareIn_keeps {s₀ : State} (a0 : ℕ) (a1 : ℕ) (a2 : ℕ) (a3 : ℕ) {a4 : State} (h4 : Keeps s₀ a4) :
    Keeps s₀ (@groupSpareIn a0 a1 a2 a3 a4) := by
  unfold groupSpareIn
  repeat' first
    | with_reducible assumption
    | with_reducible apply spareItem_keeps
    | with_reducible apply Keeps.ite

theorem groupSpareDeadIn_keeps {s₀ : State} (a0 : ℕ) (a1 : ℕ) (a2 : ℕ) {a3 : State} (h3 : Keeps s₀ a3) :
    Keeps s₀ (@groupSpareDeadIn a0 a1 a2 a3) := by
  unfold groupSpareDeadIn
  repeat' first
    | with_reducible assumption
    | with_reducible apply spareDead_keeps
    | with_reducible apply Keeps.ite

theorem groupLostIn_keeps {s₀ : State} (a0 : ℕ) (a1 : ℕ) (a2 : ℕ) {a3 : State} (h3 : Keeps s₀ a3) :
    Keeps s₀ (@groupLostIn a0 a1 a2 a3) := by
  unfold groupLostIn
  repeat' first
    | with_reducible assumption
    | with_reducible apply resendLost_keeps
    | with_reducible apply Keeps.ite

theorem groupLostReqIn_keeps {s₀ : State} (a0 : ℕ) (a1 : ℕ) {a2 : State} (h2 : Keeps s₀ a2) :
    Keeps s₀ (@groupLostReqIn a0 a1 a2) := by
  unfold groupLostReqIn
  repeat' first
    | with_reducible assumption
    | with_reducible apply groupLostByPartner_keeps
    | with_reducible apply Keeps.ite

theorem itemIn_keeps {s₀ : State} (a0 : ℕ) (a1 : List Byte) {a2 : State} (h2 : Keeps s₀ a2) :
    Keeps s₀ (@itemIn a0 a1 a2) := by
  unfold itemIn
  repeat' first
    | with_reducible assumption
    | with_reducible apply statusItemIn_keeps
    | with_reducible apply nakItemIn_keeps
    | with_reducible apply configItemIn_keeps
    | with_reducible apply groupSpareIn_keeps
    | with_reducible apply groupSpareDeadIn_keeps
    | with_reducible apply groupLostIn_keeps
    | with_reducible apply groupLostReqIn_keeps
    | split

theorem unitIn_keeps {s₀ : State} (a0 : ℕ) {a1 : State} (a2 : List Byte) (h1 : Keeps s₀ a1) :
    Keeps s₀ (@unitIn a0 a1 a2) := by
  unfold unitIn
  repeat' first
    | with_reducible assumption
    | with_reducible apply itemIn_keeps
    | with_reducible apply arriveVc0_keeps
    | with_reducible apply arriveVc2_keeps
    | with_reducible apply Keeps.ite

theorem flitIn_keeps {s₀ : State} (a0 : ℕ) (a1 : List Byte) {a2 : State} (h2 : Keeps s₀ a2) :
    Keeps s₀ (@flitIn a0 a1 a2) := by
  unfold flitIn
  repeat' first
    | with_reducible assumption
    | with_reducible exact Keeps.refl _
    | with_reducible apply receiveFlit_keeps
    | (with_reducible apply receiveFlit_keeps_eq; on_goal 1 => with_reducible assumption)
    | with_reducible apply fecFails_keeps
    | with_reducible apply drain_keeps
    | with_reducible apply unitIn_keeps
    | with_reducible apply State.modGrp_keeps
    | with_reducible apply protocolError_keeps
    | with_reducible apply flushHold_keeps
    | with_reducible apply State.wr_keeps
    | with_reducible apply State.inc_keeps
    | with_reducible refine Keeps.foldl ?_ (fun u x hu => ?_)
    | with_reducible apply Keeps.ite
    | with_reducible apply Keeps.ite1
    | with_reducible apply Keeps.ite2
    | with_reducible apply Keeps.ite22
    | (lift_lets; intro x; refine Keeps.cut (x := x) ?_ (fun hx => ?_))
    | (lift_lets; intro x)
    | split

theorem configSend_keeps {s₀ : State} {a0 : State} (h0 : Keeps s₀ a0) :
    Keeps s₀ (@configSend a0) := by
  unfold configSend
  repeat' first
    | split
    | (with_reducible apply Keeps.mk; with_reducible first | assumption | exact Keeps.refl _ | refine Keeps.foldl ?_ (fun u x hu => ?_) | apply Keeps.ite | apply sendConfig_keeps)

/-! ## Mailbox -/

theorem Keeps.iteR {c : Prop} [Decidable c] {s : State} {a b : Reply} (ha : Keeps s a.st) (hb : Keeps s b.st) : Keeps s (if c then a else b).st := by
  split
  · exact ha
  · exact hb

theorem joinRange_keeps {s₀ t : State} (a : Writes) (r : RegId) (i : ℕ) (h : Keeps s₀ t) : Keeps s₀ (joinRange a r i t).st := by
  unfold joinRange
  split
  · exact .mk h
  · exact h

theorem fwWrite_keeps {s₀ : State} (m : ℕ) {a : Writes} (w : FwWrite) (h : Keeps s₀ a.st) : Keeps s₀ (fwWrite m a w).st := by
  unfold fwWrite
  split
  next r i j fs =>
  split
  · exact h
  · have hj : Keeps s₀ (judgedIn a r i) := by
      unfold judgedIn
      exact .ite (State.wr_keeps h ..) h
    split
    next e => exact joinRange_keeps _ _ _ (recordAcc_keeps _ _ _ _ _ (writeReg_keeps_eq _ _ _ _ _ _ e hj))
    next e =>
      split
      · exact h
      · exact h
    next e => exact writeReg_keeps_eq _ _ _ _ _ _ e hj

theorem fwWrites_keeps {s₀ : State} (m : ℕ) {u : State} (ws : List FwWrite) (h : Keeps s₀ u) : Keeps s₀ (fwWrites u m ws).st := by
  unfold fwWrites
  suffices ∀ a : Writes, Keeps s₀ a.st → Keeps s₀ (ws.foldl (fwWrite m) a).st from this _ h
  induction ws with
  | nil => exact fun a ha => ha
  | cons w l ih => exact fun a ha => ih _ (fwWrite_keeps _ _ ha)

theorem replyWith_keeps {s₀ u : State} (p : List Byte) (h : Keeps s₀ u) : Keeps s₀ (replyWith u p).st := h

theorem openWindow_keeps {s₀ : State} {a0 : State} (a1 : ℕ) (a2 : List ℕ) (h0 : Keeps s₀ a0) :
    Keeps s₀ (@openWindow a0 a1 a2) := by
  unfold openWindow
  repeat' first
    | with_reducible assumption
    | with_reducible exact Keeps.refl _
    | with_reducible apply State.wr_keeps
    | with_reducible apply State.inc_keeps
    | with_reducible refine Keeps.foldl ?_ (fun u x hu => ?_)
    | with_reducible apply Keeps.ite
    | with_reducible apply Keeps.ite1
    | with_reducible apply Keeps.ite2
    | with_reducible apply Keeps.ite22
    | (lift_lets; intro x; refine Keeps.cut (x := x) ?_ (fun hx => ?_))
    | (lift_lets; intro x)
    | split
    | dsimp only
    | dsimp only [x]
    | (with_reducible apply Keeps.mk; with_reducible assumption)

theorem noteApplied_keeps {s₀ : State} {a0 : State} (a1 : ℕ) (a2 : List FwWrite) (h0 : Keeps s₀ a0) :
    Keeps s₀ (@noteApplied a0 a1 a2) := by
  unfold noteApplied
  repeat' first
    | with_reducible assumption
    | with_reducible exact Keeps.refl _
    | with_reducible apply openWindow_keeps
    | with_reducible apply State.wr_keeps
    | with_reducible apply State.inc_keeps
    | with_reducible refine Keeps.foldl ?_ (fun u x hu => ?_)
    | with_reducible apply Keeps.ite
    | with_reducible apply Keeps.ite1
    | with_reducible apply Keeps.ite2
    | with_reducible apply Keeps.ite22
    | (lift_lets; intro x; refine Keeps.cut (x := x) ?_ (fun hx => ?_))
    | (lift_lets; intro x)
    | split
    | dsimp only
    | dsimp only [x]
    | (with_reducible apply Keeps.mk; with_reducible first | assumption | exact Keeps.refl _ | refine Keeps.foldl ?_ (fun u x hu => ?_) | apply Keeps.ite | apply openWindow_keeps)

theorem runCmd_keeps {s₀ : State} (m opc : ℕ) (who : State → ℕ → Bool) (lenOk : List Byte → Bool) (lease : Option ℕ)
    (body : State → List Byte → Reply) {s : State} (hb : ∀ u p r, Keeps s₀ u → body u p = r → Keeps s₀ r.st) (h : Keeps s₀ s) :
    Keeps s₀ (runCmd m opc who lenOk lease body s) := by
  unfold runCmd
  refine .ite h ?_
  extract_lets p held t leased r pre c t' aw
  have ht : Keeps s₀ t := by
    unfold t
    cases held with
    | none => exact h
    | some i => exact renewLease_keeps _ h
  have hr : Keeps s₀ r.st := hb _ _ _ ht rfl
  clear_value t r c
  exact State.modMbx_keeps _ _ (.ite hr ht)

theorem replyWrites_keeps {s₀ u : State} (m : ℕ) (pre : Code) (ws : List FwWrite) (pay : List Byte) (h : Keeps s₀ u) :
    Keeps s₀ (replyWrites u m pre ws pay).st := by
  unfold replyWrites
  exact .iteR (noteApplied_keeps _ _ (fwWrites_keeps _ _ h)) h

/-! ## CmdConfig -/

theorem sessionOpen_keeps {s₀ : State} (a0 : ℕ) {a1 : State} (h1 : Keeps s₀ a1) :
    Keeps s₀ (@sessionOpen a0 a1) := by
  unfold sessionOpen
  repeat' first
    | with_reducible assumption
    | with_reducible exact Keeps.refl _
    | (with_reducible refine fun u (hu : Keeps s₀ u) => ?_)
    | (with_reducible refine runCmd_keeps _ _ _ _ _ _ (fun u p r hu hr => ?_) ?_; on_goal 1 => (try dsimp only at hr); subst hr)
    | with_reducible apply Keeps.iteR
    | with_reducible apply replyWith_keeps

theorem sessionClose_keeps {s₀ : State} (a0 : ℕ) {a1 : State} (h1 : Keeps s₀ a1) :
    Keeps s₀ (@sessionClose a0 a1) := by
  unfold sessionClose
  repeat' first
    | with_reducible assumption
    | (with_reducible refine runCmd_keeps _ _ _ _ _ _ (fun u p r hu hr => ?_) ?_; on_goal 1 => (try dsimp only at hr); subst hr)
    | with_reducible apply replyWith_keeps

theorem leaseAcquire_keeps {s₀ : State} (a0 : ℕ) {a1 : State} (h1 : Keeps s₀ a1) :
    Keeps s₀ (@leaseAcquire a0 a1) := by
  unfold leaseAcquire
  repeat' first
    | split
    | (with_reducible apply Keeps.mk; with_reducible first | assumption | exact Keeps.refl _ | refine Keeps.foldl ?_ (fun u x hu => ?_) | apply Keeps.ite | (refine runCmd_keeps _ _ _ _ _ _ (fun u p r hu hr => ?_) ?_; on_goal 1 => (try dsimp only at hr); subst hr) | apply Keeps.iteR | apply replyWith_keeps | apply replyWrites_keeps | (apply fwWrites_keeps) | apply renewLease_keeps | apply State.draw_keeps | (apply State.draw_keeps_eq; on_goal 1 => assumption) | apply State.wr_keeps)

theorem leaseRenew_keeps {s₀ : State} (a0 : ℕ) {a1 : State} (h1 : Keeps s₀ a1) :
    Keeps s₀ (@leaseRenew a0 a1) := by
  unfold leaseRenew
  repeat' first
    | with_reducible assumption
    | (with_reducible refine runCmd_keeps _ _ _ _ _ _ (fun u p r hu hr => ?_) ?_; on_goal 1 => (try dsimp only at hr); subst hr)
    | with_reducible apply replyWith_keeps
    | split

theorem leaseRelease_keeps {s₀ : State} (a0 : ℕ) {a1 : State} (h1 : Keeps s₀ a1) :
    Keeps s₀ (@leaseRelease a0 a1) := by
  unfold leaseRelease
  repeat' first
    | with_reducible assumption
    | (with_reducible refine runCmd_keeps _ _ _ _ _ _ (fun u p r hu hr => ?_) ?_; on_goal 1 => (try dsimp only at hr); subst hr)
    | with_reducible apply replyWith_keeps
    | with_reducible apply freeLease_keeps
    | split

theorem cfgRegionSet_keeps {s₀ : State} (a0 : ℕ) {a1 : State} (h1 : Keeps s₀ a1) :
    Keeps s₀ (@cfgRegionSet a0 a1) := by
  unfold cfgRegionSet
  repeat' first
    | with_reducible assumption
    | (with_reducible refine runCmd_keeps _ _ _ _ _ _ (fun u p r hu hr => ?_) ?_; on_goal 1 => (try dsimp only at hr); subst hr)
    | with_reducible apply replyWrites_keeps

theorem cfgRegionGet_keeps {s₀ : State} (a0 : ℕ) {a1 : State} (h1 : Keeps s₀ a1) :
    Keeps s₀ (@cfgRegionGet a0 a1) := by
  unfold cfgRegionGet
  repeat' first
    | with_reducible assumption
    | (with_reducible refine runCmd_keeps _ _ _ _ _ _ (fun u p r hu hr => ?_) ?_; on_goal 1 => (try dsimp only at hr); subst hr)
    | with_reducible apply Keeps.iteR
    | with_reducible apply replyWith_keeps

theorem cfgDomainSet_keeps {s₀ : State} (a0 : ℕ) {a1 : State} (h1 : Keeps s₀ a1) :
    Keeps s₀ (@cfgDomainSet a0 a1) := by
  unfold cfgDomainSet
  repeat' first
    | with_reducible assumption
    | (with_reducible refine runCmd_keeps _ _ _ _ _ _ (fun u p r hu hr => ?_) ?_; on_goal 1 => (try dsimp only at hr); subst hr)
    | with_reducible apply replyWrites_keeps

theorem cfgDomainGet_keeps {s₀ : State} (a0 : ℕ) {a1 : State} (h1 : Keeps s₀ a1) :
    Keeps s₀ (@cfgDomainGet a0 a1) := by
  unfold cfgDomainGet
  repeat' first
    | with_reducible assumption
    | (with_reducible refine runCmd_keeps _ _ _ _ _ _ (fun u p r hu hr => ?_) ?_; on_goal 1 => (try dsimp only at hr); subst hr)
    | with_reducible apply Keeps.iteR
    | with_reducible apply replyWith_keeps

theorem cfgHashSet_keeps {s₀ : State} (a0 : ℕ) {a1 : State} (h1 : Keeps s₀ a1) :
    Keeps s₀ (@cfgHashSet a0 a1) := by
  unfold cfgHashSet
  repeat' first
    | with_reducible assumption
    | (with_reducible refine runCmd_keeps _ _ _ _ _ _ (fun u p r hu hr => ?_) ?_; on_goal 1 => (try dsimp only at hr); subst hr)
    | with_reducible apply replyWrites_keeps

theorem cfgPurge_keeps {s₀ : State} (a0 : ℕ) {a1 : State} (h1 : Keeps s₀ a1) :
    Keeps s₀ (@cfgPurge a0 a1) := by
  unfold cfgPurge
  repeat' first
    | with_reducible assumption
    | (with_reducible refine runCmd_keeps _ _ _ _ _ _ (fun u p r hu hr => ?_) ?_; on_goal 1 => (try dsimp only at hr); subst hr)
    | with_reducible apply replyWrites_keeps

theorem cfgLinkSet_keeps {s₀ : State} (a0 : ℕ) {a1 : State} (h1 : Keeps s₀ a1) :
    Keeps s₀ (@cfgLinkSet a0 a1) := by
  unfold cfgLinkSet
  repeat' first
    | with_reducible assumption
    | (with_reducible refine runCmd_keeps _ _ _ _ _ _ (fun u p r hu hr => ?_) ?_; on_goal 1 => (try dsimp only at hr); subst hr)
    | with_reducible apply replyWrites_keeps

theorem cfgTurn_keeps {s₀ : State} (a0 : ℕ) {a1 : State} (h1 : Keeps s₀ a1) :
    Keeps s₀ (@cfgTurn a0 a1) := by
  unfold cfgTurn
  repeat' first
    | with_reducible assumption
    | (with_reducible refine runCmd_keeps _ _ _ _ _ _ (fun u p r hu hr => ?_) ?_; on_goal 1 => (try dsimp only at hr); subst hr)
    | with_reducible apply replyWrites_keeps

theorem regClassSet_keeps {s₀ : State} (a0 : ℕ) {a1 : State} (h1 : Keeps s₀ a1) :
    Keeps s₀ (@regClassSet a0 a1) := by
  unfold regClassSet
  repeat' first
    | with_reducible assumption
    | (with_reducible refine runCmd_keeps _ _ _ _ _ _ (fun u p r hu hr => ?_) ?_; on_goal 1 => (try dsimp only at hr); subst hr)
    | with_reducible apply replyWrites_keeps

theorem regGlobalSet_keeps {s₀ : State} (a0 : ℕ) {a1 : State} (h1 : Keeps s₀ a1) :
    Keeps s₀ (@regGlobalSet a0 a1) := by
  unfold regGlobalSet
  repeat' first
    | with_reducible assumption
    | (with_reducible refine runCmd_keeps _ _ _ _ _ _ (fun u p r hu hr => ?_) ?_; on_goal 1 => (try dsimp only at hr); subst hr)
    | with_reducible apply replyWrites_keeps

theorem regBowSet_keeps {s₀ : State} (a0 : ℕ) {a1 : State} (h1 : Keeps s₀ a1) :
    Keeps s₀ (@regBowSet a0 a1) := by
  unfold regBowSet
  repeat' first
    | with_reducible assumption
    | with_reducible exact Keeps.refl _
    | (with_reducible refine fun u (hu : Keeps s₀ u) => ?_)
    | (with_reducible refine runCmd_keeps _ _ _ _ _ _ (fun u p r hu hr => ?_) ?_; on_goal 1 => (try dsimp only at hr); subst hr)
    | with_reducible apply Keeps.iteR
    | with_reducible apply replyWith_keeps
    | with_reducible apply replyWrites_keeps
    | (with_reducible apply fwWrites_keeps)
    | with_reducible apply ctxWrite_keeps
    | with_reducible apply openWindow_keeps
    | with_reducible apply State.wr_keeps
    | with_reducible apply State.inc_keeps
    | with_reducible refine Keeps.foldl ?_ (fun u x hu => ?_)
    | with_reducible apply Keeps.ite
    | with_reducible apply Keeps.ite1
    | with_reducible apply Keeps.ite2
    | with_reducible apply Keeps.ite22
    | split
    | dsimp only
    | dsimp only [x]
    | (with_reducible apply Keeps.mk; with_reducible first | assumption | exact Keeps.refl _ | refine Keeps.foldl ?_ (fun u x hu => ?_) | apply Keeps.ite | (refine runCmd_keeps _ _ _ _ _ _ (fun u p r hu hr => ?_) ?_; on_goal 1 => (try dsimp only at hr); subst hr) | apply Keeps.iteR | apply replyWith_keeps | apply replyWrites_keeps | (apply fwWrites_keeps) | apply ctxWrite_keeps | apply openWindow_keeps)

theorem regRsvSet_keeps {s₀ : State} (a0 : ℕ) {a1 : State} (h1 : Keeps s₀ a1) :
    Keeps s₀ (@regRsvSet a0 a1) := by
  unfold regRsvSet
  repeat' first
    | with_reducible assumption
    | (with_reducible refine runCmd_keeps _ _ _ _ _ _ (fun u p r hu hr => ?_) ?_; on_goal 1 => (try dsimp only at hr); subst hr)
    | with_reducible apply replyWrites_keeps
    | split

theorem regRsvFree_keeps {s₀ : State} (a0 : ℕ) {a1 : State} (h1 : Keeps s₀ a1) :
    Keeps s₀ (@regRsvFree a0 a1) := by
  unfold regRsvFree
  repeat' first
    | with_reducible assumption
    | (with_reducible refine runCmd_keeps _ _ _ _ _ _ (fun u p r hu hr => ?_) ?_; on_goal 1 => (try dsimp only at hr); subst hr)
    | with_reducible apply replyWrites_keeps

theorem regGet_keeps {s₀ : State} (a0 : ℕ) {a1 : State} (h1 : Keeps s₀ a1) :
    Keeps s₀ (@regGet a0 a1) := by
  unfold regGet
  repeat' first
    | with_reducible assumption
    | (with_reducible refine runCmd_keeps _ _ _ _ _ _ (fun u p r hu hr => ?_) ?_; on_goal 1 => (try dsimp only at hr); subst hr)
    | with_reducible apply replyWith_keeps

theorem cachePolicySet_keeps {s₀ : State} (a0 : ℕ) {a1 : State} (h1 : Keeps s₀ a1) :
    Keeps s₀ (@cachePolicySet a0 a1) := by
  unfold cachePolicySet
  repeat' first
    | with_reducible assumption
    | (with_reducible refine runCmd_keeps _ _ _ _ _ _ (fun u p r hu hr => ?_) ?_; on_goal 1 => (try dsimp only at hr); subst hr)
    | with_reducible apply replyWrites_keeps

theorem cacheOp_keeps {s₀ : State} (a0 : ℕ) {a1 : State} (h1 : Keeps s₀ a1) :
    Keeps s₀ (@cacheOp a0 a1) := by
  unfold cacheOp
  repeat' first
    | with_reducible assumption
    | (with_reducible refine runCmd_keeps _ _ _ _ _ _ (fun u p r hu hr => ?_) ?_; on_goal 1 => (try dsimp only at hr); subst hr)
    | with_reducible apply replyWrites_keeps

theorem cacheGet_keeps {s₀ : State} (a0 : ℕ) {a1 : State} (h1 : Keeps s₀ a1) :
    Keeps s₀ (@cacheGet a0 a1) := by
  unfold cacheGet
  repeat' first
    | with_reducible assumption
    | (with_reducible refine runCmd_keeps _ _ _ _ _ _ (fun u p r hu hr => ?_) ?_; on_goal 1 => (try dsimp only at hr); subst hr)
    | with_reducible apply replyWith_keeps

theorem memRead_keeps {s₀ : State} (a0 : ℕ) {a1 : State} (h1 : Keeps s₀ a1) :
    Keeps s₀ (@memRead a0 a1) := by
  unfold memRead
  repeat' first
    | with_reducible assumption
    | (with_reducible refine runCmd_keeps _ _ _ _ _ _ (fun u p r hu hr => ?_) ?_; on_goal 1 => (try dsimp only at hr); subst hr)
    | with_reducible apply Keeps.iteR
    | with_reducible apply internalRead_keeps
    | with_reducible apply Keeps.ite

theorem memWrite_keeps {s₀ : State} (a0 : ℕ) {a1 : State} (h1 : Keeps s₀ a1) :
    Keeps s₀ (@memWrite a0 a1) := by
  unfold memWrite
  repeat' first
    | with_reducible assumption
    | with_reducible exact Keeps.refl _
    | (with_reducible refine fun u (hu : Keeps s₀ u) => ?_)
    | (with_reducible refine runCmd_keeps _ _ _ _ _ _ (fun u p r hu hr => ?_) ?_; on_goal 1 => (try dsimp only at hr); subst hr)
    | with_reducible apply Keeps.iteR
    | with_reducible apply replyWith_keeps
    | with_reducible apply replyWrites_keeps
    | (with_reducible apply fwWrites_keeps)
    | with_reducible apply internalWrite_keeps
    | with_reducible apply State.wr_keeps
    | with_reducible apply State.inc_keeps
    | with_reducible refine Keeps.foldl ?_ (fun u x hu => ?_)
    | with_reducible apply Keeps.ite

theorem memZero_keeps {s₀ : State} (a0 : ℕ) {a1 : State} (h1 : Keeps s₀ a1) :
    Keeps s₀ (@memZero a0 a1) := by
  unfold memZero
  repeat' first
    | with_reducible assumption
    | (with_reducible refine runCmd_keeps _ _ _ _ _ _ (fun u p r hu hr => ?_) ?_; on_goal 1 => (try dsimp only at hr); subst hr)
    | with_reducible apply Keeps.iteR
    | with_reducible apply internalZero_keeps
    | with_reducible apply Keeps.ite

theorem rprRow_keeps {s₀ : State} (a0 : ℕ) {a1 : State} (h1 : Keeps s₀ a1) :
    Keeps s₀ (@rprRow a0 a1) := by
  unfold rprRow
  repeat' first
    | with_reducible assumption
    | (with_reducible refine runCmd_keeps _ _ _ _ _ _ (fun u p r hu hr => ?_) ?_; on_goal 1 => (try dsimp only at hr); subst hr)
    | with_reducible apply replyWrites_keeps

theorem rprGet_keeps {s₀ : State} (a0 : ℕ) {a1 : State} (h1 : Keeps s₀ a1) :
    Keeps s₀ (@rprGet a0 a1) := by
  unfold rprGet
  repeat' first
    | with_reducible assumption
    | (with_reducible refine runCmd_keeps _ _ _ _ _ _ (fun u p r hu hr => ?_) ?_; on_goal 1 => (try dsimp only at hr); subst hr)
    | with_reducible apply Keeps.iteR
    | with_reducible apply replyWith_keeps

theorem foldMode_keeps {s₀ : State} (a0 : ℕ) {a1 : State} (h1 : Keeps s₀ a1) :
    Keeps s₀ (@foldMode a0 a1) := by
  unfold foldMode
  repeat' first
    | with_reducible assumption
    | (with_reducible refine runCmd_keeps _ _ _ _ _ _ (fun u p r hu hr => ?_) ?_; on_goal 1 => (try dsimp only at hr); subst hr)
    | with_reducible apply replyWrites_keeps

theorem foldStart_keeps {s₀ : State} (a0 : ℕ) {a1 : State} (h1 : Keeps s₀ a1) :
    Keeps s₀ (@foldStart a0 a1) := by
  unfold foldStart
  repeat' first
    | with_reducible assumption
    | (with_reducible refine runCmd_keeps _ _ _ _ _ _ (fun u p r hu hr => ?_) ?_; on_goal 1 => (try dsimp only at hr); subst hr)
    | with_reducible apply replyWrites_keeps

theorem tsvKill_keeps {s₀ : State} (a0 : ℕ) {a1 : State} (h1 : Keeps s₀ a1) :
    Keeps s₀ (@tsvKill a0 a1) := by
  unfold tsvKill
  repeat' first
    | with_reducible assumption
    | (with_reducible refine runCmd_keeps _ _ _ _ _ _ (fun u p r hu hr => ?_) ?_; on_goal 1 => (try dsimp only at hr); subst hr)
    | with_reducible apply replyWrites_keeps

theorem rfmSet_keeps {s₀ : State} (a0 : ℕ) {a1 : State} (h1 : Keeps s₀ a1) :
    Keeps s₀ (@rfmSet a0 a1) := by
  unfold rfmSet
  repeat' first
    | with_reducible assumption
    | (with_reducible refine runCmd_keeps _ _ _ _ _ _ (fun u p r hu hr => ?_) ?_; on_goal 1 => (try dsimp only at hr); subst hr)
    | with_reducible apply replyWrites_keeps

theorem dipSet_keeps {s₀ : State} (a0 : ℕ) {a1 : State} (h1 : Keeps s₀ a1) :
    Keeps s₀ (@dipSet a0 a1) := by
  unfold dipSet
  repeat' first
    | with_reducible assumption
    | (with_reducible refine runCmd_keeps _ _ _ _ _ _ (fun u p r hu hr => ?_) ?_; on_goal 1 => (try dsimp only at hr); subst hr)
    | with_reducible apply replyWrites_keeps

theorem dmcSet_keeps {s₀ : State} (a0 : ℕ) {a1 : State} (h1 : Keeps s₀ a1) :
    Keeps s₀ (@dmcSet a0 a1) := by
  unfold dmcSet
  repeat' first
    | with_reducible assumption
    | (with_reducible refine runCmd_keeps _ _ _ _ _ _ (fun u p r hu hr => ?_) ?_; on_goal 1 => (try dsimp only at hr); subst hr)
    | with_reducible apply replyWrites_keeps

/-! ## CmdSystem -/

theorem getIdentity_keeps {s₀ : State} (a0 : ℕ) {a1 : State} (h1 : Keeps s₀ a1) :
    Keeps s₀ (@getIdentity a0 a1) := by
  unfold getIdentity
  repeat' first
    | with_reducible assumption
    | (with_reducible refine runCmd_keeps _ _ _ _ _ _ (fun u p r hu hr => ?_) ?_; on_goal 1 => (try dsimp only at hr); subst hr)
    | with_reducible apply replyWith_keeps

theorem svcAuthNonce_keeps {s₀ : State} (a0 : ℕ) {a1 : State} (h1 : Keeps s₀ a1) :
    Keeps s₀ (@svcAuthNonce a0 a1) := by
  unfold svcAuthNonce
  repeat' first
    | (with_reducible apply Keeps.mk; with_reducible first | assumption | exact Keeps.refl _ | refine Keeps.foldl ?_ (fun u x hu => ?_) | apply Keeps.ite | (refine runCmd_keeps _ _ _ _ _ _ (fun u p r hu hr => ?_) ?_; on_goal 1 => (try dsimp only at hr); subst hr) | apply Keeps.iteR | apply replyWith_keeps | apply replyWrites_keeps | (apply fwWrites_keeps) | apply State.draw_keeps)

theorem svcAuthProve_keeps {s₀ : State} (a0 : ℕ) (a1 : Bool) {a2 : State} (h2 : Keeps s₀ a2) :
    Keeps s₀ (@svcAuthProve a0 a1 a2) := by
  unfold svcAuthProve
  repeat' first
    | split
    | (with_reducible apply Keeps.mk; with_reducible first | assumption | exact Keeps.refl _ | refine Keeps.foldl ?_ (fun u x hu => ?_) | apply Keeps.ite | (refine runCmd_keeps _ _ _ _ _ _ (fun u p r hu hr => ?_) ?_; on_goal 1 => (try dsimp only at hr); subst hr) | apply Keeps.iteR | apply replyWith_keeps | apply replyWrites_keeps | (apply fwWrites_keeps) | apply authPassed_keeps | apply authFailed_keeps)

theorem spdmMsg_keeps {s₀ : State} (a0 : ℕ) (a1 : SpdmBlobs) {a2 : State} (h2 : Keeps s₀ a2) :
    Keeps s₀ (@spdmMsg a0 a1 a2) := by
  unfold spdmMsg
  repeat' first
    | with_reducible assumption
    | (with_reducible refine runCmd_keeps _ _ _ _ _ _ (fun u p r hu hr => ?_) ?_; on_goal 1 => (try dsimp only at hr); subst hr)
    | with_reducible apply replyWith_keeps
    | with_reducible apply State.modMbx_keeps

theorem pwrEnter_keeps {s₀ : State} (a0 : ℕ) {a1 : State} (h1 : Keeps s₀ a1) :
    Keeps s₀ (@pwrEnter a0 a1) := by
  unfold pwrEnter
  repeat' first
    | split
    | (with_reducible apply Keeps.mk; with_reducible first | assumption | exact Keeps.refl _ | refine Keeps.foldl ?_ (fun u x hu => ?_) | apply Keeps.ite | (refine runCmd_keeps _ _ _ _ _ _ (fun u p r hu hr => ?_) ?_; on_goal 1 => (try dsimp only at hr); subst hr) | apply Keeps.iteR | apply replyWith_keeps | apply replyWrites_keeps | (apply fwWrites_keeps) | apply refuse_keeps | apply sendPm_keeps)

theorem pwrVote_keeps {s₀ : State} (a0 : ℕ) {a1 : State} (h1 : Keeps s₀ a1) :
    Keeps s₀ (@pwrVote a0 a1) := by
  unfold pwrVote
  repeat' first
    | with_reducible assumption
    | (with_reducible refine runCmd_keeps _ _ _ _ _ _ (fun u p r hu hr => ?_) ?_; on_goal 1 => (try dsimp only at hr); subst hr)
    | with_reducible apply replyWrites_keeps

theorem pwrGet_keeps {s₀ : State} (a0 : ℕ) {a1 : State} (h1 : Keeps s₀ a1) :
    Keeps s₀ (@pwrGet a0 a1) := by
  unfold pwrGet
  repeat' first
    | with_reducible assumption
    | (with_reducible refine runCmd_keeps _ _ _ _ _ _ (fun u p r hu hr => ?_) ?_; on_goal 1 => (try dsimp only at hr); subst hr)
    | with_reducible apply replyWith_keeps

theorem thmSet_keeps {s₀ : State} (a0 : ℕ) {a1 : State} (h1 : Keeps s₀ a1) :
    Keeps s₀ (@thmSet a0 a1) := by
  unfold thmSet
  repeat' first
    | with_reducible assumption
    | (with_reducible refine runCmd_keeps _ _ _ _ _ _ (fun u p r hu hr => ?_) ?_; on_goal 1 => (try dsimp only at hr); subst hr)
    | with_reducible apply replyWrites_keeps

theorem calRun_keeps {s₀ : State} (a0 : ℕ) {a1 : State} (h1 : Keeps s₀ a1) :
    Keeps s₀ (@calRun a0 a1) := by
  unfold calRun
  repeat' first
    | with_reducible assumption
    | with_reducible exact Keeps.refl _
    | (with_reducible refine fun u (hu : Keeps s₀ u) => ?_)
    | (with_reducible refine runCmd_keeps _ _ _ _ _ _ (fun u p r hu hr => ?_) ?_; on_goal 1 => (try dsimp only at hr); subst hr)
    | with_reducible apply Keeps.iteR
    | with_reducible apply replyWith_keeps
    | with_reducible apply replyWrites_keeps
    | (with_reducible apply fwWrites_keeps)
    | with_reducible apply calGo_keeps
    | (with_reducible apply calGo_keeps_eq; on_goal 1 => with_reducible assumption)
    | with_reducible apply openWindow_keeps

theorem calGet_keeps {s₀ : State} (a0 : ℕ) {a1 : State} (h1 : Keeps s₀ a1) :
    Keeps s₀ (@calGet a0 a1) := by
  unfold calGet
  repeat' first
    | with_reducible assumption
    | (with_reducible refine runCmd_keeps _ _ _ _ _ _ (fun u p r hu hr => ?_) ?_; on_goal 1 => (try dsimp only at hr); subst hr)
    | with_reducible apply replyWith_keeps

theorem fwLoadBegin_keeps {s₀ : State} (a0 : ℕ) {a1 : State} (h1 : Keeps s₀ a1) :
    Keeps s₀ (@fwLoadBegin a0 a1) := by
  unfold fwLoadBegin
  repeat' first
    | (with_reducible apply Keeps.mk; with_reducible first | assumption | exact Keeps.refl _ | refine Keeps.foldl ?_ (fun u x hu => ?_) | apply Keeps.ite | (refine runCmd_keeps _ _ _ _ _ _ (fun u p r hu hr => ?_) ?_; on_goal 1 => (try dsimp only at hr); subst hr) | apply Keeps.iteR | apply replyWith_keeps | apply replyWrites_keeps | (apply fwWrites_keeps) | apply markBoat_keeps)

theorem fwLoad_keeps {s₀ : State} (a0 : ℕ) {a1 : State} (h1 : Keeps s₀ a1) :
    Keeps s₀ (@fwLoad a0 a1) := by
  unfold fwLoad
  repeat' first
    | split
    | (with_reducible apply Keeps.mk; with_reducible first | assumption | exact Keeps.refl _ | refine Keeps.foldl ?_ (fun u x hu => ?_) | apply Keeps.ite | (refine runCmd_keeps _ _ _ _ _ _ (fun u p r hu hr => ?_) ?_; on_goal 1 => (try dsimp only at hr); subst hr) | apply Keeps.iteR | apply replyWith_keeps | apply replyWrites_keeps | (apply fwWrites_keeps) | apply State.portPut_keeps)

theorem fwVerify_keeps {s₀ : State} (a0 : ℕ) (a1 : Bool) {a2 : State} (h2 : Keeps s₀ a2) :
    Keeps s₀ (@fwVerify a0 a1 a2) := by
  unfold fwVerify
  repeat' first
    | with_reducible assumption
    | with_reducible exact Keeps.refl _
    | (with_reducible refine fun u (hu : Keeps s₀ u) => ?_)
    | (with_reducible refine runCmd_keeps _ _ _ _ _ _ (fun u p r hu hr => ?_) ?_; on_goal 1 => (try dsimp only at hr); subst hr)
    | with_reducible apply Keeps.iteR
    | with_reducible apply replyWith_keeps
    | with_reducible apply replyWrites_keeps
    | (with_reducible apply fwWrites_keeps)
    | with_reducible apply badImage_keeps
    | with_reducible apply markBoat_keeps
    | with_reducible apply State.wr_keeps
    | with_reducible apply State.inc_keeps
    | with_reducible refine Keeps.foldl ?_ (fun u x hu => ?_)
    | with_reducible apply Keeps.ite
    | with_reducible apply Keeps.ite1
    | with_reducible apply Keeps.ite2
    | with_reducible apply Keeps.ite22
    | split
    | dsimp only
    | dsimp only [x]
    | (with_reducible apply Keeps.mk; with_reducible first | assumption | exact Keeps.refl _ | refine Keeps.foldl ?_ (fun u x hu => ?_) | apply Keeps.ite | (refine runCmd_keeps _ _ _ _ _ _ (fun u p r hu hr => ?_) ?_; on_goal 1 => (try dsimp only at hr); subst hr) | apply Keeps.iteR | apply replyWith_keeps | apply replyWrites_keeps | (apply fwWrites_keeps) | apply badImage_keeps | apply markBoat_keeps)

theorem fwActivate_keeps {s₀ : State} (a0 : ℕ) (a1 : ℕ) {a2 : State} (h2 : Keeps s₀ a2) :
    Keeps s₀ (@fwActivate a0 a1 a2) := by
  unfold fwActivate
  repeat' first
    | with_reducible assumption
    | with_reducible exact Keeps.refl _
    | (with_reducible refine fun u (hu : Keeps s₀ u) => ?_)
    | (with_reducible refine runCmd_keeps _ _ _ _ _ _ (fun u p r hu hr => ?_) ?_; on_goal 1 => (try dsimp only at hr); subst hr)
    | with_reducible apply Keeps.iteR
    | with_reducible apply replyWith_keeps
    | with_reducible apply replyWrites_keeps
    | (with_reducible apply fwWrites_keeps)
    | with_reducible apply badImage_keeps
    | with_reducible apply coreFault_keeps
    | with_reducible apply setSlot_keeps
    | with_reducible apply State.wr_keeps
    | with_reducible apply State.inc_keeps
    | with_reducible refine Keeps.foldl ?_ (fun u x hu => ?_)
    | with_reducible apply Keeps.ite
    | with_reducible apply Keeps.ite1
    | with_reducible apply Keeps.ite2
    | with_reducible apply Keeps.ite22
    | split
    | dsimp only
    | dsimp only [x]
    | (with_reducible apply Keeps.mk; with_reducible first | assumption | exact Keeps.refl _ | refine Keeps.foldl ?_ (fun u x hu => ?_) | apply Keeps.ite | (refine runCmd_keeps _ _ _ _ _ _ (fun u p r hu hr => ?_) ?_; on_goal 1 => (try dsimp only at hr); subst hr) | apply Keeps.iteR | apply replyWith_keeps | apply replyWrites_keeps | (apply fwWrites_keeps) | apply badImage_keeps | apply coreFault_keeps | apply setSlot_keeps)

theorem fwTakeover_keeps {s₀ : State} (a0 : ℕ) {a1 : State} (h1 : Keeps s₀ a1) :
    Keeps s₀ (@fwTakeover a0 a1) := by
  unfold fwTakeover
  repeat' first
    | with_reducible assumption
    | with_reducible exact Keeps.refl _
    | (with_reducible refine fun u (hu : Keeps s₀ u) => ?_)
    | (with_reducible refine runCmd_keeps _ _ _ _ _ _ (fun u p r hu hr => ?_) ?_; on_goal 1 => (try dsimp only at hr); subst hr)
    | with_reducible apply Keeps.iteR
    | with_reducible apply replyWith_keeps
    | with_reducible apply replyWrites_keeps
    | (with_reducible apply fwWrites_keeps)
    | with_reducible apply openWindow_keeps
    | with_reducible apply State.wr_keeps
    | with_reducible apply State.inc_keeps
    | with_reducible refine Keeps.foldl ?_ (fun u x hu => ?_)
    | with_reducible apply Keeps.ite
    | with_reducible apply Keeps.ite1
    | with_reducible apply Keeps.ite2
    | with_reducible apply Keeps.ite22
    | split
    | dsimp only
    | dsimp only [x]
    | (with_reducible apply Keeps.mk; with_reducible first | assumption | exact Keeps.refl _ | refine Keeps.foldl ?_ (fun u x hu => ?_) | apply Keeps.ite | (refine runCmd_keeps _ _ _ _ _ _ (fun u p r hu hr => ?_) ?_; on_goal 1 => (try dsimp only at hr); subst hr) | apply Keeps.iteR | apply replyWith_keeps | apply replyWrites_keeps | (apply fwWrites_keeps) | apply openWindow_keeps)

theorem blow_keeps {s₀ : State} {a0 : State} (a1 : ℕ) (a2 : ℕ) (h0 : Keeps s₀ a0) :
    Keeps s₀ (@blow a0 a1 a2) := by
  unfold blow
  repeat' first
    | (with_reducible apply Keeps.mk; with_reducible assumption)

theorem svnCommit_keeps {s₀ : State} {a0 : State} (h0 : Keeps s₀ a0) :
    Keeps s₀ (@svnCommit a0) := by
  unfold svnCommit
  repeat' first
    | with_reducible assumption
    | with_reducible apply State.wr_keeps
    | with_reducible apply blow_keeps
    | with_reducible apply markBoat_keeps
    | with_reducible refine Keeps.foldl ?_ (fun u x hu => ?_)
    | with_reducible apply Keeps.ite

theorem fwSvnCommit_keeps {s₀ : State} (a0 : ℕ) {a1 : State} (h1 : Keeps s₀ a1) :
    Keeps s₀ (@fwSvnCommit a0 a1) := by
  unfold fwSvnCommit
  repeat' first
    | with_reducible assumption
    | (with_reducible refine runCmd_keeps _ _ _ _ _ _ (fun u p r hu hr => ?_) ?_; on_goal 1 => (try dsimp only at hr); subst hr)
    | with_reducible apply Keeps.iteR
    | with_reducible apply replyWith_keeps
    | with_reducible apply svnCommit_keeps

theorem fwGet_keeps {s₀ : State} (a0 : ℕ) {a1 : State} (h1 : Keeps s₀ a1) :
    Keeps s₀ (@fwGet a0 a1) := by
  unfold fwGet
  repeat' first
    | with_reducible assumption
    | (with_reducible refine runCmd_keeps _ _ _ _ _ _ (fun u p r hu hr => ?_) ?_; on_goal 1 => (try dsimp only at hr); subst hr)
    | with_reducible apply replyWith_keeps

theorem fwSet_keeps {s₀ : State} (a0 : ℕ) {a1 : State} (h1 : Keeps s₀ a1) :
    Keeps s₀ (@fwSet a0 a1) := by
  unfold fwSet
  repeat' first
    | with_reducible assumption
    | (with_reducible refine runCmd_keeps _ _ _ _ _ _ (fun u p r hu hr => ?_) ?_; on_goal 1 => (try dsimp only at hr); subst hr)
    | with_reducible apply replyWrites_keeps

theorem logRead_keeps {s₀ : State} (a0 : ℕ) {a1 : State} (h1 : Keeps s₀ a1) :
    Keeps s₀ (@logRead a0 a1) := by
  unfold logRead
  repeat' first
    | with_reducible assumption
    | (with_reducible refine runCmd_keeps _ _ _ _ _ _ (fun u p r hu hr => ?_) ?_; on_goal 1 => (try dsimp only at hr); subst hr)
    | with_reducible apply Keeps.iteR
    | with_reducible apply replyWith_keeps

theorem faultGet_keeps {s₀ : State} (a0 : ℕ) {a1 : State} (h1 : Keeps s₀ a1) :
    Keeps s₀ (@faultGet a0 a1) := by
  unfold faultGet
  repeat' first
    | with_reducible assumption
    | (with_reducible refine runCmd_keeps _ _ _ _ _ _ (fun u p r hu hr => ?_) ?_; on_goal 1 => (try dsimp only at hr); subst hr)
    | with_reducible apply replyWith_keeps

theorem evtRouteSet_keeps {s₀ : State} (a0 : ℕ) {a1 : State} (h1 : Keeps s₀ a1) :
    Keeps s₀ (@evtRouteSet a0 a1) := by
  unfold evtRouteSet
  repeat' first
    | with_reducible assumption
    | (with_reducible refine runCmd_keeps _ _ _ _ _ _ (fun u p r hu hr => ?_) ?_; on_goal 1 => (try dsimp only at hr); subst hr)
    | with_reducible apply replyWrites_keeps

theorem evtRouteGet_keeps {s₀ : State} (a0 : ℕ) {a1 : State} (h1 : Keeps s₀ a1) :
    Keeps s₀ (@evtRouteGet a0 a1) := by
  unfold evtRouteGet
  repeat' first
    | with_reducible assumption
    | (with_reducible refine runCmd_keeps _ _ _ _ _ _ (fun u p r hu hr => ?_) ?_; on_goal 1 => (try dsimp only at hr); subst hr)
    | with_reducible apply Keeps.iteR
    | with_reducible apply replyWith_keeps

theorem fcrSet_keeps {s₀ : State} (a0 : ℕ) {a1 : State} (h1 : Keeps s₀ a1) :
    Keeps s₀ (@fcrSet a0 a1) := by
  unfold fcrSet
  repeat' first
    | with_reducible assumption
    | (with_reducible refine runCmd_keeps _ _ _ _ _ _ (fun u p r hu hr => ?_) ?_; on_goal 1 => (try dsimp only at hr); subst hr)
    | with_reducible apply replyWrites_keeps

theorem weighEnough_keeps {s₀ : State} (a0 : ℕ) {a1 : State} (h1 : Keeps s₀ a1) :
    Keeps s₀ (@weighEnough a0 a1) := by
  unfold weighEnough
  repeat' first
    | with_reducible assumption
    | (with_reducible refine runCmd_keeps _ _ _ _ _ _ (fun u p r hu hr => ?_) ?_; on_goal 1 => (try dsimp only at hr); subst hr)
    | with_reducible apply replyWrites_keeps

theorem resume_keeps {s₀ : State} (a0 : ℕ) {a1 : State} (h1 : Keeps s₀ a1) :
    Keeps s₀ (@resume a0 a1) := by
  unfold resume
  repeat' first
    | with_reducible assumption
    | (with_reducible refine runCmd_keeps _ _ _ _ _ _ (fun u p r hu hr => ?_) ?_; on_goal 1 => (try dsimp only at hr); subst hr)
    | with_reducible apply replyWrites_keeps

theorem testLaneOnce_keeps {s₀ : State} (a0 : ℕ) {a1 : State} (h1 : Keeps s₀ a1) :
    Keeps s₀ (@testLaneOnce a0 a1) := by
  unfold testLaneOnce
  repeat' first
    | with_reducible assumption
    | (with_reducible refine runCmd_keeps _ _ _ _ _ _ (fun u p r hu hr => ?_) ?_; on_goal 1 => (try dsimp only at hr); subst hr)
    | with_reducible apply Keeps.iteR
    | with_reducible apply replyWrites_keeps
    | with_reducible apply readReg_keeps

theorem testLane_keeps {s₀ : State} (a0 : ℕ) {a1 : State} (h1 : Keeps s₀ a1) :
    Keeps s₀ (@testLane a0 a1) := by
  unfold testLane
  repeat' first
    | with_reducible assumption
    | with_reducible apply testLaneOnce_keeps
    | with_reducible apply Keeps.ite

theorem testEccInj_keeps {s₀ : State} (a0 : ℕ) {a1 : State} (h1 : Keeps s₀ a1) :
    Keeps s₀ (@testEccInj a0 a1) := by
  unfold testEccInj
  repeat' first
    | with_reducible assumption
    | (with_reducible refine runCmd_keeps _ _ _ _ _ _ (fun u p r hu hr => ?_) ?_; on_goal 1 => (try dsimp only at hr); subst hr)
    | with_reducible apply replyWrites_keeps

theorem fuseReadCmd_keeps {s₀ : State} (a0 : ℕ) {a1 : State} (h1 : Keeps s₀ a1) :
    Keeps s₀ (@fuseReadCmd a0 a1) := by
  unfold fuseReadCmd
  repeat' first
    | with_reducible assumption
    | (with_reducible refine runCmd_keeps _ _ _ _ _ _ (fun u p r hu hr => ?_) ?_; on_goal 1 => (try dsimp only at hr); subst hr)
    | with_reducible apply Keeps.iteR
    | with_reducible apply replyWith_keeps

theorem fuseRefresh_keeps {s₀ : State} {a0 : State} (h0 : Keeps s₀ a0) :
    Keeps s₀ (@fuseRefresh a0) := by
  unfold fuseRefresh
  repeat' first
    | with_reducible assumption
    | with_reducible apply State.wr_keeps
    | with_reducible apply Keeps.ite

theorem copyToSpare_keeps {s₀ : State} {a0 : State} (a1 : ℕ) (a2 : ℕ) (h0 : Keeps s₀ a0) :
    Keeps s₀ (copyToSpare a0 a1 a2) := by
  unfold copyToSpare
  exact .foldl h0 fun u x hu => .mk hu

theorem spareRow_keeps_eq {s₀ : State} {a0 : State} (a1 : ℕ) {t : State} (e : spareRow a0 a1 = some t) (h0 : Keeps s₀ a0) : Keeps s₀ t := by
  unfold spareRow at e
  split at e
  · cases e
  · cases e
    exact State.wr_keeps (.mk (blow_keeps _ _ (blow_keeps _ _ (copyToSpare_keeps _ _ h0)))) ..

theorem fuseProgram_keeps {s₀ : State} (a0 : ℕ) (a1 : Bool) {a2 : State} (h2 : Keeps s₀ a2) :
    Keeps s₀ (@fuseProgram a0 a1 a2) := by
  unfold fuseProgram
  repeat' first
    | with_reducible assumption
    | (with_reducible refine runCmd_keeps _ _ _ _ _ _ (fun u p r hu hr => ?_) ?_; on_goal 1 => (try dsimp only at hr); subst hr)
    | with_reducible apply replyWith_keeps
    | with_reducible apply fuseRefresh_keeps
    | with_reducible apply blow_keeps
    | with_reducible apply copyToSpare_keeps
    | (with_reducible apply spareRow_keeps_eq; on_goal 1 => with_reducible assumption)
    | split

theorem fuseLock_keeps {s₀ : State} (a0 : ℕ) {a1 : State} (h1 : Keeps s₀ a1) :
    Keeps s₀ (@fuseLock a0 a1) := by
  unfold fuseLock
  repeat' first
    | with_reducible assumption
    | (with_reducible refine runCmd_keeps _ _ _ _ _ _ (fun u p r hu hr => ?_) ?_; on_goal 1 => (try dsimp only at hr); subst hr)
    | with_reducible apply Keeps.iteR
    | with_reducible apply replyWith_keeps
    | with_reducible apply showLocks_keeps
    | with_reducible apply blow_keeps

theorem fuseVerify_keeps {s₀ : State} (a0 : ℕ) (a1 : List ℕ) {a2 : State} (h2 : Keeps s₀ a2) :
    Keeps s₀ (@fuseVerify a0 a1 a2) := by
  unfold fuseVerify
  repeat' first
    | with_reducible assumption
    | (with_reducible refine runCmd_keeps _ _ _ _ _ _ (fun u p r hu hr => ?_) ?_; on_goal 1 => (try dsimp only at hr); subst hr)
    | with_reducible apply Keeps.iteR
    | with_reducible apply replyWith_keeps

/-! ## Events -/

theorem tick_keeps {s₀ : State} {a0 : State} (h0 : Keeps s₀ a0) :
    Keeps s₀ (@tick a0) := by
  unfold tick
  repeat' first
    | (lift_lets; intro x)
    | split
    | dsimp only [x]
    | (with_reducible apply Keeps.mk; with_reducible first | assumption | exact Keeps.refl _ | refine Keeps.foldl ?_ (fun u x hu => ?_) | apply Keeps.ite | apply warmAssert_keeps)

theorem reservedVc0_keeps {s₀ : State} (a0 : ReqHdr) (a1 : ℕ) (a2 : ℕ) {a3 : State} (h3 : Keeps s₀ a3) :
    Keeps s₀ (@reservedVc0 a0 a1 a2 a3) := by
  unfold reservedVc0
  repeat' first
    | with_reducible assumption
    | with_reducible apply arriveVc0_keeps
    | with_reducible apply Keeps.ite

theorem reservedVc2Packet_keeps {s₀ : State} (a0 : ℕ) (a1 : ℕ) (a2 : ℕ) {a3 : State} (h3 : Keeps s₀ a3) :
    Keeps s₀ (@reservedVc2Packet a0 a1 a2 a3) := by
  unfold reservedVc2Packet
  repeat' first
    | with_reducible assumption
    | with_reducible apply arriveVc2_keeps
    | with_reducible apply Keeps.ite

theorem linkGone_keeps {s₀ : State} {a0 : State} (h0 : Keeps s₀ a0) :
    Keeps s₀ (@linkGone a0) := by
  unfold linkGone
  repeat' first
    | with_reducible assumption
    | with_reducible apply wholeRetrain_keeps
    | with_reducible apply Keeps.ite

theorem wakeDetected_keeps {s₀ : State} {a2 : State} (h2 : Keeps s₀ a2) :
    Keeps s₀ (@wakeDetected a2) := by
  unfold wakeDetected
  repeat' first
    | with_reducible assumption
    | with_reducible exact Keeps.refl _
    | with_reducible apply deepWake_keeps
    | with_reducible apply wakeCause_keeps
    | with_reducible apply State.wr_keeps
    | with_reducible apply State.inc_keeps
    | with_reducible refine Keeps.foldl ?_ (fun u x hu => ?_)
    | with_reducible apply Keeps.ite
    | with_reducible apply Keeps.ite1
    | with_reducible apply Keeps.ite2
    | with_reducible apply Keeps.ite22
    | split

theorem groupPllLoss_keeps {s₀ : State} (a0 : ℕ) {a1 : State} (h1 : Keeps s₀ a1) :
    Keeps s₀ (@groupPllLoss a0 a1) := by
  unfold groupPllLoss
  repeat' first
    | with_reducible assumption
    | with_reducible exact Keeps.refl _
    | with_reducible apply groupLost_keeps
    | with_reducible apply groupDetect_keeps
    | with_reducible apply State.wr_keeps
    | with_reducible apply State.inc_keeps
    | with_reducible refine Keeps.foldl ?_ (fun u x hu => ?_)
    | with_reducible apply Keeps.ite

theorem nakRepeat_keeps {s₀ : State} (a0 : ℕ) {a1 : State} (h1 : Keeps s₀ a1) :
    Keeps s₀ (@nakRepeat a0 a1) := by
  unfold nakRepeat
  repeat' first
    | with_reducible assumption
    | with_reducible apply sendNak_keeps
    | with_reducible apply Keeps.ite

theorem ackTimeout_keeps {s₀ : State} (a0 : ℕ) {a1 : State} (h1 : Keeps s₀ a1) :
    Keeps s₀ (@ackTimeout a0 a1) := by
  unfold ackTimeout
  repeat' first
    | with_reducible assumption
    | with_reducible apply groupLost_keeps
    | with_reducible apply Keeps.ite

theorem lostReqTimeout_keeps {s₀ : State} {a0 : State} (h0 : Keeps s₀ a0) :
    Keeps s₀ (@lostReqTimeout a0) := by
  unfold lostReqTimeout
  repeat' first
    | with_reducible assumption
    | with_reducible apply wholeRetrain_keeps
    | with_reducible apply Keeps.ite

theorem spareCheckerFail_keeps {s₀ : State} (a0 : ℕ) (a1 : ℕ) {a2 : State} (h2 : Keeps s₀ a2) :
    Keeps s₀ (@spareCheckerFail a0 a1 a2) := by
  unfold spareCheckerFail
  repeat' first
    | with_reducible assumption
    | with_reducible apply sendItem_keeps
    | with_reducible apply spareDead_keeps
    | with_reducible apply Keeps.ite

theorem urgencyRecompute_keeps {s₀ : State} {a0 : State} (h0 : Keeps s₀ a0) :
    Keeps s₀ (@urgencyRecompute a0) := Keeps.mkSub h0 (ids_map fun _ _ => rfl) rfl

theorem sliceFaultEvent_keeps {s₀ : State} (a0 : ℕ) (a1 : ℕ) {a2 : State} (h2 : Keeps s₀ a2) :
    Keeps s₀ (@sliceFaultEvent a0 a1 a2) := by
  unfold sliceFaultEvent
  repeat' first
    | with_reducible assumption
    | with_reducible apply sliceFault_keeps
    | with_reducible apply Keeps.ite

theorem dieReadings_keeps {s₀ : State} (a0 : ℕ) {a1 : State} (h1 : Keeps s₀ a1) :
    Keeps s₀ (@dieReadings a0 a1) := by
  unfold dieReadings
  repeat' first
    | with_reducible assumption
    | with_reducible apply dieReading_keeps
    | with_reducible refine Keeps.foldl ?_ (fun u x hu => ?_)
    | split

theorem doorbellRing_keeps {s₀ : State} (a0 : ℕ) (a1 : ℕ) {a2 : State} (h2 : Keeps s₀ a2) :
    Keeps s₀ (@doorbellRing a0 a1 a2) := by
  unfold doorbellRing
  repeat' first
    | with_reducible assumption
    | with_reducible apply doorbell_keeps
    | with_reducible apply wakeCause_keeps
    | with_reducible apply Keeps.ite

theorem droopDetect_keeps {s₀ : State} {a0 : State} (h0 : Keeps s₀ a0) :
    Keeps s₀ (@droopDetect a0) := by
  unfold droopDetect
  repeat' first
    | with_reducible apply flushVc2_keeps
    | with_reducible assumption
    | with_reducible apply runWaits_keeps
    | with_reducible apply pfStart_keeps
    | with_reducible apply Keeps.ite

end Sys2Proof.Machine
end

