-- ==== Sys2Proof/Laws/KeepsExec.lean ====
section
/-! SUPPORT. Every command keeps the queue as it was and the canonical form. -/

namespace Sys2Proof.Machine

theorem Keeps.next {s u t : State} (h : (Host.Outcome.next u : Answer) = .next t) (k : Keeps s u) : Keeps s t := by
  injection h with e
  exact e ▸ k

theorem execGroupDetectEnd_keeps (a0 : Fin 16) (a1 : BitVec 17) {s : State} {t : State}
    (h : execGroupDetectEnd a0 a1 s = .next t) : Keeps s t := by
  unfold execGroupDetectEnd at h
  with_reducible refine Keeps.next h ?_
  repeat' first
    | with_reducible refine Keeps.foldl ?_ (fun u x hu => ?_)
    | with_reducible exact Keeps.refl _
    | with_reducible apply serviceChange_keeps
    | with_reducible apply groupDetectEnd_keeps

theorem execGroupClockEnd_keeps (a0 : Fin 16) (a1 : Bool) (a2 : Bool) {s : State} {t : State}
    (h : execGroupClockEnd a0 a1 a2 s = .next t) : Keeps s t := by
  unfold execGroupClockEnd at h
  with_reducible refine Keeps.next h ?_
  repeat' first
    | with_reducible refine Keeps.foldl ?_ (fun u x hu => ?_)
    | with_reducible exact Keeps.refl _
    | with_reducible apply serviceChange_keeps
    | with_reducible apply groupClockEnd_keeps

theorem execTrainingSlotEnd_keeps (a0 : Fin 16) (a1 : SlotResult) {s : State} {t : State}
    (h : execTrainingSlotEnd a0 a1 s = .next t) : Keeps s t := by
  unfold execTrainingSlotEnd at h
  with_reducible refine Keeps.next h ?_
  repeat' first
    | with_reducible refine Keeps.foldl ?_ (fun u x hu => ?_)
    | with_reducible exact Keeps.refl _
    | with_reducible apply serviceChange_keeps
    | with_reducible apply trainingSlotEnd_keeps

theorem execStatusSend_keeps {s : State} {t : State}
    (h : execStatusSend s = .next t) : Keeps s t := by
  unfold execStatusSend at h
  with_reducible refine Keeps.next h ?_
  repeat' first
    | with_reducible refine Keeps.foldl ?_ (fun u x hu => ?_)
    | with_reducible exact Keeps.refl _
    | with_reducible apply sendStatus_keeps
    | with_reducible apply State.wr_keeps
    | with_reducible apply State.inc_keeps
    | with_reducible refine Keeps.foldl ?_ (fun u x hu => ?_)
    | with_reducible apply Keeps.ite

theorem execBgPromoteExpiry_keeps {s : State} {t : State} (h : execBgPromoteExpiry s = .next t) : Keeps s t := by
  unfold execBgPromoteExpiry at h
  exact Keeps.next h (.foldl (.refl _) fun u x hu => bgPromote_keeps _ hu)

theorem execBacklogTimeout_keeps {s : State} {t : State} (h : execBacklogTimeout s = .next t) : Keeps s t := by
  unfold execBacklogTimeout at h
  exact Keeps.next h (.foldl (.refl _) fun u x hu => backlogTimeout_keeps _ hu)

theorem execFoldUnitMove_keeps {s : State} {t : State}
    (h : execFoldUnitMove s = .next t) : Keeps s t := by
  unfold execFoldUnitMove at h
  with_reducible refine Keeps.next h ?_
  repeat' first
    | with_reducible refine Keeps.foldl ?_ (fun u x hu => ?_)
    | with_reducible exact Keeps.refl _
    | with_reducible apply foldUnitMove_keeps
    | with_reducible apply foldResume_keeps

theorem execMramWordWriteDone_keeps (a0 : Bool) {s : State} {t : State}
    (h : execMramWordWriteDone a0 s = .next t) : Keeps s t := by
  unfold execMramWordWriteDone at h
  with_reducible refine Keeps.next h ?_
  repeat' first
    | with_reducible refine Keeps.foldl ?_ (fun u x hu => ?_)
    | with_reducible exact Keeps.refl _
    | with_reducible apply flushVc2_keeps
    | with_reducible apply wordEnd_keeps

theorem execPwrFailAssert_keeps {s : State} {t : State}
    (h : execPwrFailAssert s = .next t) : Keeps s t := by
  unfold execPwrFailAssert at h
  with_reducible refine Keeps.next h ?_
  repeat' first
    | with_reducible refine Keeps.foldl ?_ (fun u x hu => ?_)
    | with_reducible exact Keeps.refl _
    | with_reducible apply flushVc2_keeps
    | with_reducible apply runWaits_keeps
    | with_reducible apply pfStart_keeps

theorem execWatchdogExpiry_keeps {s : State} {t : State}
    (h : execWatchdogExpiry s = .next t) : Keeps s t := by
  unfold execWatchdogExpiry at h
  with_reducible refine Keeps.next h ?_
  repeat' first
    | with_reducible refine Keeps.foldl ?_ (fun u x hu => ?_)
    | with_reducible exact Keeps.refl _
    | with_reducible apply watchdogExpiry_keeps

theorem execLeaseExpiry_keeps {s : State} {t : State} (h : execLeaseExpiry s = .next t) : Keeps s t := by
  unfold execLeaseExpiry at h
  exact Keeps.next h (.foldl (.refl _) fun u x hu => leaseExpiry_keeps _ hu)

theorem execPersistentWriteCommit_keeps (a0 : Bool) {s : State} {t : State}
    (h : execPersistentWriteCommit a0 s = .next t) : Keeps s t := by
  unfold execPersistentWriteCommit at h
  with_reducible refine Keeps.next h ?_
  repeat' first
    | with_reducible refine Keeps.foldl ?_ (fun u x hu => ?_)
    | with_reducible exact Keeps.refl _
    | with_reducible apply flushVc2_keeps
    | with_reducible apply persistentCommit_keeps

theorem execPurgeDone_keeps {s : State} {t : State} (h : execPurgeDone s = .next t) : Keeps s t := by
  unfold execPurgeDone at h
  exact Keeps.next h (.foldl (.refl _) fun u x hu => purgeDone_keeps _ hu)

theorem exec_keeps {s t : State} : (i : Instr) → exec i s = .next t → Keeps s t
  | .coldBoot, hx => Keeps.next hx (coldBoot_keeps (.refl _))
  | .powerOnResetRelease _ _ _ _ _ _, hx => Keeps.next hx (powerOnRelease_keeps _ _ _ _ _ _ (.refl _))
  | .bistBlockEnd _ _ _ _ _ _ _, hx => Keeps.next hx (bistBlockEnd_keeps _ _ _ _ _ _ _ (.refl _))
  | .dramTierReady _, hx => Keeps.next hx (dramTierReady_keeps _ (.refl _))
  | .rankTrainingEnd _ _ _ _ _ _, hx => Keeps.next hx (rankTrainingEnd_keeps _ _ _ _ _ _ (.refl _))
  | .initFillEnd _ _ _, hx => Keeps.next hx (initFillEnd_keeps _ _ _ (.refl _))
  | .coxBoot _ _, hx => Keeps.next hx (coxBoot_keeps _ _ (.refl _))
  | .coxABootTimeout _ _, hx => Keeps.next hx (coxATimeout_keeps _ _ (.refl _))
  | .groupPowerUp _, hx => Keeps.next hx (groupPowerUp_keeps _ (.refl _))
  | .groupDetectEnd g sensed, hx => execGroupDetectEnd_keeps g sensed hx
  | .groupClockEnd g locked burst, hx => execGroupClockEnd_keeps g locked burst hx
  | .trainingSlotEnd g task, hx => execTrainingSlotEnd_keeps g task hx
  | .confirmWordAccept _ _ _, hx => Keeps.next hx (confirmWordAccept_keeps _ _ _ (.refl _))
  | .groupTrainFail _, hx => Keeps.next hx (groupTrainFail_keeps _ (.refl _))
  | .linkReady, hx => Keeps.next hx (linkReadyStep_keeps (.refl _))
  | .wholeLinkRetrain, hx => Keeps.next hx (linkGone_keeps (.refl _))
  | .quietEntry _, hx => Keeps.next hx (quietEntry_keeps _ (.refl _))
  | .keepAliveBurst _, hx => Keeps.next hx (keepAlive_keeps _ (.refl _))
  | .wakePreambleReceive _, hx => Keeps.next hx (wakePreamble_keeps _ (.refl _))
  | .deepWakeDetect, hx => Keeps.next hx (wakeDetected_keeps (.refl _))
  | .laneFailureDetect _ _, hx => Keeps.next hx (laneDetect_keeps _ _ _ (.refl _))
  | .hlRefclkLoss, hx => Keeps.next hx (refclkLoss_keeps (.refl _))
  | .hlRefclkReturn, hx => Keeps.next hx (refclkReturn_keeps (.refl _))
  | .groupPllLoss _, hx => Keeps.next hx (groupPllLoss_keeps _ (.refl _))
  | .flitReceive _ _, hx => Keeps.next hx (flitIn_keeps _ _ (.refl _))
  | .nakRepeatTimeout _, hx => Keeps.next hx (nakRepeat_keeps _ (.refl _))
  | .statusSend, hx => execStatusSend_keeps hx
  | .status _ _ _ _ _, hx => Keeps.next hx (statusItemIn_keeps _ _ _ _ _ (.refl _))
  | .nak _ _ _, hx => Keeps.next hx (nakItemIn_keeps _ _ _ (.refl _))
  | .config _ _ _, hx => Keeps.next hx (configItemIn_keeps _ _ _ (.refl _))
  | .configSend, hx => Keeps.next hx (configSend_keeps (.refl _))
  | .groupSpareItem _ _ _ _, hx => Keeps.next hx (groupSpareIn_keeps _ _ _ _ (.refl _))
  | .groupSpareDeadItem _ _ _, hx => Keeps.next hx (groupSpareDeadIn_keeps _ _ _ (.refl _))
  | .groupLostItem _ _ _, hx => Keeps.next hx (groupLostIn_keeps _ _ _ (.refl _))
  | .groupLostReqItem _ _, hx => Keeps.next hx (groupLostReqIn_keeps _ _ (.refl _))
  | .ackTimeout _, hx => Keeps.next hx (ackTimeout_keeps _ (.refl _))
  | .groupLoss _ _, hx => Keeps.next hx (groupLost_keeps _ _ (.refl _))
  | .lostReqTimeout, hx => Keeps.next hx (lostReqTimeout_keeps (.refl _))
  | .turn _ _ _ _, hx => Keeps.next hx (arriveVc2_keeps _ _ (.refl _))
  | .turnAck _ _ _ _ _, hx => Keeps.next hx (arriveVc2_keeps _ _ (.refl _))
  | .turnAckTimeout, hx => Keeps.next hx (turnAckTimeout_keeps (.refl _))
  | .turnLastAccept, hx => Keeps.next hx (turnLastAccept_keeps (.refl _))
  | .turnSquelchDetect, hx => Keeps.next hx (turnSquelch_keeps (.refl _))
  | .turnTimeout, hx => Keeps.next hx (turnTimeout_keeps (.refl _))
  | .rd _ _ _ _, hx => Keeps.next hx (arriveVc0_keeps _ _ (.refl _))
  | .wr _ _ _ _ _ _, hx => Keeps.next hx (arriveVc0_keeps _ _ (.refl _))
  | .wrp _ _ _, hx => Keeps.next hx (arriveVc0_keeps _ _ (.refl _))
  | .afadd _ _ _, hx => Keeps.next hx (arriveVc0_keeps _ _ (.refl _))
  | .aswap _ _ _, hx => Keeps.next hx (arriveVc0_keeps _ _ (.refl _))
  | .acas _ _ _ _, hx => Keeps.next hx (arriveVc0_keeps _ _ (.refl _))
  | .aand _ _ _, hx => Keeps.next hx (arriveVc0_keeps _ _ (.refl _))
  | .aor _ _ _, hx => Keeps.next hx (arriveVc0_keeps _ _ (.refl _))
  | .flush _ _ _, hx => Keeps.next hx (arriveVc0_keeps _ _ (.refl _))
  | .zero _ _, hx => Keeps.next hx (arriveVc0_keeps _ _ (.refl _))
  | .fence _ _, hx => Keeps.next hx (arriveVc0_keeps _ _ (.refl _))
  | .reservedVc0Opcode _ _ _, hx => Keeps.next hx (reservedVc0_keeps _ _ _ (.refl _))
  | .waitingPacketAdmit _, hx => Keeps.next hx (settle_keeps (takeWaiting_keeps _ _ (.refl _)))
  | .requestIssue _ _, hx => Keeps.next hx (issue_keeps _ _ (.refl _))
  | .urgencyRecompute, hx => Keeps.next hx (urgencyRecompute_keeps (.refl _))
  | .reservationWindow, hx => Keeps.next hx (reservationWindow_keeps (.refl _))
  | .bankSchedule _, hx => Keeps.next hx (bankSchedule_keeps _ (.refl _))
  | .bgPromoteExpiry, hx => execBgPromoteExpiry_keeps hx
  | .powerDownEntry _ _, hx => Keeps.next hx (powerDownEntry_keeps _ _ (.refl _))
  | .powerDownExit _ _, hx => Keeps.next hx (powerDownExit_keeps _ _ (.refl _))
  | .readDataReturn _ _, hx => Keeps.next hx (readReturn_keeps _ _ (.refl _))
  | .completionPlace _ _ _, hx => Keeps.next hx (completionPlace_keeps _ _ _ (.refl _))
  | .cacheFillArrive _, hx => Keeps.next hx (fillArrive_keeps _ (.refl _))
  | .sliceReadDecode _ _ _ _ _, hx => Keeps.next hx (sliceDecode_keeps _ _ _ _ _ (.refl _))
  | .sliceFault _ _, hx => Keeps.next hx (sliceFaultEvent_keeps _ _ (.refl _))
  | .sliceDrainComplete _, hx => Keeps.next hx (drainComplete_keeps _ (.refl _))
  | .crossingTrack _ _ _ _ _, hx => Keeps.next hx (crossingTrack_keeps _ _ _ _ _ (.refl _))
  | .cacheOpComplete _, hx => Keeps.next hx (opComplete_keeps _ (.refl _))
  | .victimWritebackDone _, hx => Keeps.next hx (victimDone_keeps _ (.refl _))
  | .atomicPerform _ _ _, hx => Keeps.next hx (atomicPerform_keeps _ _ _ (.refl _))
  | .mergePerform _ _ _, hx => Keeps.next hx (mergePerform_keeps _ _ _ (.refl _))
  | .rangeWorkDone _, hx => Keeps.next hx (rangeDone_keeps _ (.refl _))
  | .refreshTick _ _, hx => Keeps.next hx (refreshTick_keeps _ _ (.refl _))
  | .dieTempReading _, hx => Keeps.next hx (dieReadings_keeps _ (.refl _))
  | .rowClose _ _, hx => Keeps.next hx (rowClose_keeps _ _ (.refl _))
  | .reportBurstReceive _ _ _, hx => Keeps.next hx (reportReceive_keeps _ _ _ (.refl _))
  | .backlogTimeout, hx => execBacklogTimeout_keeps hx
  | .victimRefreshDone _ _, hx => Keeps.next hx (victimRefreshDone_keeps _ _ (.refl _))
  | .hangDetect _ _, hx => Keeps.next hx (hangDetect_keeps _ _ (.refl _))
  | .hangResetComplete _, hx => Keeps.next hx (hangComplete_keeps _ (.refl _))
  | .scrubStep _ _, hx => Keeps.next hx (scrubStep_keeps _ _ (.refl _))
  | .scrubWriteback _ _, hx => Keeps.next hx (scrubWriteback_keeps _ _ (.refl _))
  | .cacheScrub _ _ _ _ _ _ _, hx => Keeps.next hx (cacheScrub_keeps _ _ _ _ _ _ _ (.refl _))
  | .rollingCalStep _, hx => Keeps.next hx (rollStep_keeps _ (.refl _))
  | .stallCalStep _ _ _ _, hx => Keeps.next hx (stallStep_keeps _ _ _ _ (.refl _))
  | .fastSwapIsolationEnd _ _, hx => Keeps.next hx (isolationEnd_keeps _ _ (.refl _))
  | .parityAlert _ _, hx => Keeps.next hx (parityAlert_keeps _ _ (.refl _))
  | .rowRepairStart, hx => Keeps.next hx (repairStart_keeps (.refl _))
  | .rowRepairComplete _, hx => Keeps.next hx (repairComplete_keeps _ (.refl _))
  | .foldUnitMove, hx => execFoldUnitMove_keeps hx
  | .foldChunkEnd, hx => Keeps.next hx (foldChunkEnd_keeps (.refl _))
  | .foldCleanEnd, hx => Keeps.next hx (foldCleanEnd_keeps (.refl _))
  | .foldDone, hx => Keeps.next hx (foldDone_keeps (.refl _))
  | .sRecompute, hx => Keeps.next hx (sRecompute_keeps (.refl _))
  | .bowContextResetDone _, hx => Keeps.next hx (bowReset_keeps _ (.refl _))
  | .rreg _ _ _ _, hx => Keeps.next hx (arriveVc2_keeps _ _ (.refl _))
  | .wreg _ _ _ _ _, hx => Keeps.next hx (arriveVc2_keeps _ _ (.refl _))
  | .reservedVc2Opcode _ _ _, hx => Keeps.next hx (reservedVc2Packet_keeps _ _ _ (.refl _))
  | .mbxWr _ _ _ _ _ _, hx => Keeps.next hx (arriveVc2_keeps _ _ (.refl _))
  | .mbxRd _ _ _ _ _, hx => Keeps.next hx (arriveVc2_keeps _ _ (.refl _))
  | .mbxDb _ _ _, hx => Keeps.next hx (arriveVc2_keeps _ _ (.refl _))
  | .mailboxDoorbell _ _, hx => Keeps.next hx (doorbellRing_keeps _ _ (.refl _))
  | .responsePost _, hx => Keeps.next hx (responsePost_keeps _ (.refl _))
  | .pmAck _ _ _ _, hx => Keeps.next hx (arriveVc2_keeps _ _ (.refl _))
  | .pmAckTimeout, hx => Keeps.next hx (pmTimeout_keeps (.refl _))
  | .evtSend _, hx => Keeps.next hx (evtSend_keeps _ (.refl _))
  | .eventRaise _ _ _, hx => Keeps.next hx (eventRaise_keeps _ _ _ (.refl _))
  | .easyPeriodEnd, hx => Keeps.next hx (easyEnd_keeps (.refl _))
  | .logRecordWrite, hx => Keeps.next hx (logWrite_keeps (.refl _))
  | .logTokenRefill, hx => Keeps.next hx (tokenRefill_keeps (.refl _))
  | .mramWordWriteDone torn, hx => execMramWordWriteDone_keeps torn hx
  | .lifetimeSecond, hx => Keeps.next hx (lifetimeSecond_keeps (.refl _))
  | .sensorConversion _ _ _, hx => Keeps.next hx (sensorConversion_keeps _ _ _ (.refl _))
  | .throttleCompute, hx => Keeps.next hx (throttleCompute_keeps (.refl _))
  | .managedShutdown _, hx => Keeps.next hx (managedShutdown_keeps _ (.refl _))
  | .hwThermalTrip _, hx => Keeps.next hx (hwThermalTrip_keeps _ (.refl _))
  | .thermtripLatchClear, hx => Keeps.next hx (thermtripLatchClear_keeps (.refl _))
  | .stkResetAssert, hx => Keeps.next hx (resetAssert_keeps (.refl _))
  | .warmResetStretchEnd, hx => Keeps.next hx (stretchEnd_keeps (.refl _))
  | .warmResetRelease _, hx => Keeps.next hx (resetRelease_keeps _ (.refl _))
  | .stkWakeRise, hx => Keeps.next hx (stkWake_keeps (.refl _))
  | .pwrFailAssert, hx => execPwrFailAssert_keeps hx
  | .droopDetect, hx => Keeps.next hx (droopDetect_keeps (.refl _))
  | .mainGoodFall, hx => Keeps.next hx (mainFall_keeps (.refl _))
  | .mainGoodRise, hx => Keeps.next hx (mainRise_keeps (.refl _))
  | .railLateFall, hx => Keeps.next hx (railLate_keeps (.refl _))
  | .powerFailSwitchover, hx => Keeps.next hx (pfSwitch_keeps (.refl _))
  | .retentionEntryDone, hx => Keeps.next hx (retentionDone_keeps (.refl _))
  | .keelLoadCheck _, hx => Keeps.next hx (keelCheck_keeps _ (.refl _))
  | .keelBrownout, hx => Keeps.next hx (keelBrownout_keeps (.refl _))
  | .keelFault _, hx => Keeps.next hx (keelFault_keeps _ (.refl _))
  | .vbkpLow _, hx => Keeps.next hx (vbkpLow_keeps _ (.refl _))
  | .vbkpCollapse, hx => Keeps.next hx (vbkpCollapse_keeps (.refl _))
  | .stkRefclkLoss, hx => Keeps.next hx (stkLoss_keeps (.refl _))
  | .stkRefclkReturn _, hx => Keeps.next hx (stkReturn_keeps _ (.refl _))
  | .fabPllLoss, hx => Keeps.next hx (fabLoss_keeps (.refl _))
  | .fabPllResume _, hx => Keeps.next hx (fabResume_keeps _ (.refl _))
  | .dckPllLoss _, hx => Keeps.next hx (dckLoss_keeps _ (.refl _))
  | .dckPllRelockTimeout _, hx => Keeps.next hx (dckTimeout_keeps _ (.refl _))
  | .dckPllRecover _ _, hx => Keeps.next hx (dckRecover_keeps _ _ (.refl _))
  | .mckPllLoss, hx => Keeps.next hx (mckLoss_keeps (.refl _))
  | .idleEntry, hx => Keeps.next hx (idleEntry_keeps (.refl _))
  | .idleExit, hx => Keeps.next hx (idleExit_keeps (.refl _))
  | .entryDrainEnd, hx => Keeps.next hx (entryDrainEnd_keeps (.refl _))
  | .sequencerEntry, hx => Keeps.next hx (sequencerEntry_keeps (.refl _))
  | .sleepExit _, hx => Keeps.next hx (sleepExit_keeps _ (.refl _))
  | .deepSleepExit _ _ _, hx => Keeps.next hx (deepExit_keeps _ _ _ (.refl _))
  | .serviceDoorbellWake, hx => Keeps.next hx (wakeCause_keeps _ (.refl _))
  | .watchdogExpiry, hx => execWatchdogExpiry_keeps hx
  | .coxFault _ _, hx => Keeps.next hx (coreFault_keeps _ _ (.refl _))
  | .standbyReloadDone _, hx => Keeps.next hx (standbyReload_keeps _ (.refl _))
  | .trialEnd, hx => Keeps.next hx (trialEnd_keeps (.refl _))
  | .leaseExpiry, hx => execLeaseExpiry_keeps hx
  | .sessionOpen _, hx => Keeps.next hx (sessionOpen_keeps _ (.refl _))
  | .sessionClose _, hx => Keeps.next hx (sessionClose_keeps _ (.refl _))
  | .leaseAcquire _, hx => Keeps.next hx (leaseAcquire_keeps _ (.refl _))
  | .leaseRenew _, hx => Keeps.next hx (leaseRenew_keeps _ (.refl _))
  | .leaseRelease _, hx => Keeps.next hx (leaseRelease_keeps _ (.refl _))
  | .getIdentity _, hx => Keeps.next hx (getIdentity_keeps _ (.refl _))
  | .spdmMsg _ _, hx => Keeps.next hx (spdmMsg_keeps _ _ (.refl _))
  | .svcAuthNonce _, hx => Keeps.next hx (svcAuthNonce_keeps _ (.refl _))
  | .svcAuthProve _ _, hx => Keeps.next hx (svcAuthProve_keeps _ _ (.refl _))
  | .nonceExpiry, hx => Keeps.next hx (nonceExpiry_keeps (.refl _))
  | .authLockEnd, hx => Keeps.next hx (authLockEnd_keeps (.refl _))
  | .cfgRegionSet _, hx => Keeps.next hx (cfgRegionSet_keeps _ (.refl _))
  | .cfgRegionGet _, hx => Keeps.next hx (cfgRegionGet_keeps _ (.refl _))
  | .cfgDomainSet _, hx => Keeps.next hx (cfgDomainSet_keeps _ (.refl _))
  | .cfgDomainGet _, hx => Keeps.next hx (cfgDomainGet_keeps _ (.refl _))
  | .cfgHashSet _, hx => Keeps.next hx (cfgHashSet_keeps _ (.refl _))
  | .cfgPurge _, hx => Keeps.next hx (cfgPurge_keeps _ (.refl _))
  | .cfgLinkSet _, hx => Keeps.next hx (cfgLinkSet_keeps _ (.refl _))
  | .cfgTurn _, hx => Keeps.next hx (cfgTurn_keeps _ (.refl _))
  | .regClassSet _, hx => Keeps.next hx (regClassSet_keeps _ (.refl _))
  | .regGlobalSet _, hx => Keeps.next hx (regGlobalSet_keeps _ (.refl _))
  | .regBowSet _, hx => Keeps.next hx (regBowSet_keeps _ (.refl _))
  | .regRsvSet _, hx => Keeps.next hx (regRsvSet_keeps _ (.refl _))
  | .regRsvFree _, hx => Keeps.next hx (regRsvFree_keeps _ (.refl _))
  | .regGet _, hx => Keeps.next hx (regGet_keeps _ (.refl _))
  | .cachePolicySet _, hx => Keeps.next hx (cachePolicySet_keeps _ (.refl _))
  | .cacheOp _, hx => Keeps.next hx (cacheOp_keeps _ (.refl _))
  | .cacheGet _, hx => Keeps.next hx (cacheGet_keeps _ (.refl _))
  | .memRead _, hx => Keeps.next hx (memRead_keeps _ (.refl _))
  | .memWrite _, hx => Keeps.next hx (memWrite_keeps _ (.refl _))
  | .memZero _, hx => Keeps.next hx (memZero_keeps _ (.refl _))
  | .rprRow _, hx => Keeps.next hx (rprRow_keeps _ (.refl _))
  | .rprGet _, hx => Keeps.next hx (rprGet_keeps _ (.refl _))
  | .foldMode _, hx => Keeps.next hx (foldMode_keeps _ (.refl _))
  | .foldStart _, hx => Keeps.next hx (foldStart_keeps _ (.refl _))
  | .tsvKill _, hx => Keeps.next hx (tsvKill_keeps _ (.refl _))
  | .rfmSet _, hx => Keeps.next hx (rfmSet_keeps _ (.refl _))
  | .dipSet _, hx => Keeps.next hx (dipSet_keeps _ (.refl _))
  | .dmcSet _, hx => Keeps.next hx (dmcSet_keeps _ (.refl _))
  | .pwrEnter _, hx => Keeps.next hx (pwrEnter_keeps _ (.refl _))
  | .pwrVote _, hx => Keeps.next hx (pwrVote_keeps _ (.refl _))
  | .pwrGet _, hx => Keeps.next hx (pwrGet_keeps _ (.refl _))
  | .thmSet _, hx => Keeps.next hx (thmSet_keeps _ (.refl _))
  | .calRun _, hx => Keeps.next hx (calRun_keeps _ (.refl _))
  | .calGet _, hx => Keeps.next hx (calGet_keeps _ (.refl _))
  | .fwLoadBegin _, hx => Keeps.next hx (fwLoadBegin_keeps _ (.refl _))
  | .fwLoad _, hx => Keeps.next hx (fwLoad_keeps _ (.refl _))
  | .fwVerify _ _, hx => Keeps.next hx (fwVerify_keeps _ _ (.refl _))
  | .fwActivate _ _, hx => Keeps.next hx (fwActivate_keeps _ _ (.refl _))
  | .fwTakeover _, hx => Keeps.next hx (fwTakeover_keeps _ (.refl _))
  | .fwSvnCommit _, hx => Keeps.next hx (fwSvnCommit_keeps _ (.refl _))
  | .fwGet _, hx => Keeps.next hx (fwGet_keeps _ (.refl _))
  | .fwSet _, hx => Keeps.next hx (fwSet_keeps _ (.refl _))
  | .logRead _, hx => Keeps.next hx (logRead_keeps _ (.refl _))
  | .faultGet _, hx => Keeps.next hx (faultGet_keeps _ (.refl _))
  | .evtRouteSet _, hx => Keeps.next hx (evtRouteSet_keeps _ (.refl _))
  | .evtRouteGet _, hx => Keeps.next hx (evtRouteGet_keeps _ (.refl _))
  | .fcrSet _, hx => Keeps.next hx (fcrSet_keeps _ (.refl _))
  | .weighEnough _, hx => Keeps.next hx (weighEnough_keeps _ (.refl _))
  | .resume _, hx => Keeps.next hx (resume_keeps _ (.refl _))
  | .testLane _, hx => Keeps.next hx (testLane_keeps _ (.refl _))
  | .testEccInj _, hx => Keeps.next hx (testEccInj_keeps _ (.refl _))
  | .fuseReadCmd _, hx => Keeps.next hx (fuseReadCmd_keeps _ (.refl _))
  | .fuseProgram _ _, hx => Keeps.next hx (fuseProgram_keeps _ _ (.refl _))
  | .fuseLock _, hx => Keeps.next hx (fuseLock_keeps _ (.refl _))
  | .fuseVerify _ _, hx => Keeps.next hx (fuseVerify_keeps _ _ (.refl _))
  | .registerWrite _ _ _, hx => Keeps.next hx (registerWrite_keeps _ _ _ (.refl _))
  | .persistentWriteCommit torn, hx => execPersistentWriteCommit_keeps torn hx
  | .retrain _ _ _, hx => Keeps.next hx (retrainWrite_keeps _ _ _ (.refl _))
  | .testModeSet _ _ _, hx => Keeps.next hx (testSet_keeps _ _ _ (.refl _))
  | .testModeClear _ _ _, hx => Keeps.next hx (testClear_keeps _ _ _ (.refl _))
  | .injGo _ _ _, hx => Keeps.next hx (injGo_keeps _ _ _ (.refl _))
  | .chkEnWrite _ _ _ _, hx => Keeps.next hx (chkEnWrite_keeps _ _ _ _ (.refl _))
  | .errorsRead _ _ _, hx => Keeps.next hx (errorsRead_keeps _ _ _ (.refl _))
  | .turnGo _ _, hx => Keeps.next hx (turnGo_keeps _ _ (.refl _))
  | .hllCntClr _ _, hx => Keeps.next hx (hllCntClr_keeps _ _ (.refl _))
  | .purge _ _ _, hx => Keeps.next hx (purgeWrite_keeps _ _ _ (.refl _))
  | .purgeDone, hx => execPurgeDone_keeps hx
  | .regionWrite _ _ _ _, hx => Keeps.next hx (regionWrite_keeps _ _ _ _ (.refl _))
  | .rqeCntClr _ _, hx => Keeps.next hx (rqeCntClr_keeps _ _ (.refl _))
  | .ctxRead _ _, hx => Keeps.next hx (ctxReadGo_keeps _ _ (.refl _))
  | .ctxWrite _ _, hx => Keeps.next hx (ctxWriteGo_keeps _ _ (.refl _))
  | .counterSnapshot _ _, hx => Keeps.next hx (counterSnapshot_keeps _ _ (.refl _))
  | .watchSelect _ _, hx => Keeps.next hx (watchSelect_keeps _ _ (.refl _))
  | .bowRangeWrite _ _ _ _, hx => Keeps.next hx (bowRangeWrite_keeps _ _ _ _ (.refl _))
  | .reservationWrite _ _ _, hx => Keeps.next hx (reservationWrite_keeps _ _ _ (.refl _))
  | .regCntClr _ _, hx => Keeps.next hx (regCntClr_keeps _ _ (.refl _))
  | .clean _ _ _, hx => Keeps.next hx (cleanWrite_keeps _ _ _ (.refl _))
  | .cleanInv _ _ _, hx => Keeps.next hx (cleanInvWrite_keeps _ _ _ (.refl _))
  | .writeThroughSet _ _ _, hx => Keeps.next hx (writeThroughSet_keeps _ _ _ (.refl _))
  | .bypassWrite _ _ _, hx => Keeps.next hx (bypassWrite_keeps _ _ _ (.refl _))
  | .wayDisableWrite _ _ _, hx => Keeps.next hx (wayDisable_keeps _ _ _ (.refl _))
  | .sccCntClr _ _ _, hx => Keeps.next hx (sccCntClr_keeps _ _ _ (.refl _))
  | .chRst _ _ _, hx => Keeps.next hx (chRst_keeps _ _ _ (.refl _))
  | .trainGo _ _ _, hx => Keeps.next hx (trainGo_keeps _ _ _ (.refl _))
  | .dmcCntClr _ _ _, hx => Keeps.next hx (dmcCntClr_keeps _ _ _ (.refl _))
  | .stThrWrite _ _, hx => Keeps.next hx (stThrWrite_keeps _ _ (.refl _))
  | .rfmCntClr _ _, hx => Keeps.next hx (rfmCntClr_keeps _ _ (.refl _))
  | .injArm _ _, hx => Keeps.next hx (injArm_keeps _ _ (.refl _))
  | .pop _ _, hx => Keeps.next hx (popWrite_keeps _ _ (.refl _))
  | .dipCntClr _ _, hx => Keeps.next hx (dipCntClr_keeps _ _ (.refl _))
  | .kill _ _ _, hx => Keeps.next hx (killWrite_keeps _ _ _ (.refl _))
  | .rprGo _ _ _, hx => Keeps.next hx (rprGo_keeps _ _ _ (.refl _))
  | .foldGo _ _, hx => Keeps.next hx (foldGoWrite_keeps _ _ (.refl _))
  | .tsvCntClr _ _ _, hx => Keeps.next hx (tsvCntClr_keeps _ _ _ (.refl _))
  | .take _ _, hx => Keeps.next hx (takeWrite_keeps _ _ (.refl _))
  | .beat _, hx => Keeps.next hx (beatWrite_keeps _ (.refl _))
  | .dbSeqWrite _ _ _, hx => Keeps.next hx (dbSeqWrite_keeps _ _ _ (.refl _))
  | .mdataAccess _ _ _ _, hx => Keeps.next hx (mdataAccess_keeps _ _ _ _ (.refl _))
  | .weStackWrite _ _, hx => Keeps.next hx (weStackWrite_keeps _ _ (.refl _))
  | .wrst _ _, hx => Keeps.next hx (wrstWrite_keeps _ _ (.refl _))
  | .scratchHighWrite _ _, hx => Keeps.next hx (scratchHigh_keeps _ _ (.refl _))
  | .plockSet _ _, hx => Keeps.next hx (plockSet_keeps _ _ (.refl _))
  | .punlock _ _, hx => Keeps.next hx (punlock_keeps _ _ (.refl _))
  | .fcrCntClr _ _, hx => Keeps.next hx (fcrCntClr_keeps _ _ (.refl _))
  | .ffClr _ _, hx => Keeps.next hx (ffClrWrite_keeps _ _ (.refl _))
  | .raiseGo _ _, hx => Keeps.next hx (raiseGoWrite_keeps _ _ (.refl _))
  | .alertClear _ _, hx => Keeps.next hx (alertClear_keeps _ _ (.refl _))
  | .calGo _ _, hx => Keeps.next hx (calGoWrite_keeps _ _ (.refl _))
  | .calibrationRunEnd _ _ _ _, hx => Keeps.next hx (calibrationRunEnd_keeps _ _ _ _ (.refl _))
  | .periodicCalibration, hx => Keeps.next hx (periodicCal_keeps (.refl _))
  | .modeWrite _ _, hx => Keeps.next hx (modeWriteReg_keeps _ _ (.refl _))
  | .mckSelWrite _ _, hx => Keeps.next hx (mckSelWrite_keeps _ _ (.refl _))
  | .nosleepWrite _ _ _, hx => Keeps.next hx (nosleepWrite_keeps _ _ _ (.refl _))
  | .pckCntClr _ _, hx => Keeps.next hx (pckCntClr_keeps _ _ (.refl _))
  | .thmCntClr _ _, hx => Keeps.next hx (thmCntClr_keeps _ _ (.refl _))
  | .svcEnWrite _ _, hx => Keeps.next hx (svcEnWrite_keeps _ _ (.refl _))
  | .deauth _ _, hx => Keeps.next hx (deauthWrite_keeps _ _ (.refl _))
  | .drnGo _ _, hx => Keeps.next hx (drnGoWrite_keeps _ _ (.refl _))
  | .drnAbort _ _, hx => Keeps.next hx (drnAbortWrite_keeps _ _ (.refl _))
  | .drainBlock, hx => Keeps.next hx (drainBlock_keeps (.refl _))
  | .fillBlock _, hx => Keeps.next hx (fillBlock_keeps _ (.refl _))
  | .mbxFrame _ _, hx => Keeps.next hx (mbxFrame_keeps _ _ (.refl _))
  | .svcRregFrame _ _, hx => Keeps.next hx (svcRreg_keeps _ _ (.refl _))
  | .svcWregFrame _ _ _, hx => Keeps.next hx (svcWreg_keeps _ _ _ (.refl _))
  | .frameErr _, hx => Keeps.next hx (frameArrive_keeps _ (.refl _))
  | .eventCopySend, hx => Keeps.next hx (copySend_keeps (.refl _))
  | .serviceLinkChange _ _, hx => Keeps.next hx (linkChange_keeps _ _ (.refl _))
  | .serviceLinkDown, hx => Keeps.next hx (svcDown_keeps (.refl _))
  | .spareCheckerFail _ _, hx => Keeps.next hx (spareCheckerFail_keeps _ _ (.refl _))
  | .keepAliveReceive _, hx => Keeps.next hx (keepAliveReceive_keeps _ (.refl _))
  | .turnCdrLock _, hx => Keeps.next hx (turnCdrLock_keeps _ (.refl _))
  | .strobeTracking _ _ _ _, hx => Keeps.next hx (strobeTrack_keeps _ _ _ _ (.refl _))
  | .shadowValidationEnd _ _ _ _, hx => Keeps.next hx (validationEnd_keeps _ _ _ _ (.refl _))
  | .spareInPlaceStepEnd _ _ _ _, hx => Keeps.next hx (inPlaceEnd_keeps _ _ _ _ (.refl _))
  | .suspectWindowEnd _, hx => Keeps.next hx (windowEnd_keeps _ (.refl _))
  | .remapEntryReloaded, hx => Keeps.next hx (remapReloaded_keeps (.refl _))
  | .contextRebuilt, hx => Keeps.next hx (contextRebuilt_keeps (.refl _))
  | .pllRelock _, hx => Keeps.next hx (pllRelock_keeps _ (.refl _))
  | .standbyPllUnusable, hx => Keeps.next hx (stbyUnusable_keeps (.refl _))
  | .ep0StandardRequest _ _ _, hx => Keeps.next hx (ep0Request_keeps _ _ _ (.refl _))

end Sys2Proof.Machine
end

