-- ==== Sys2Proof/Tests/Slice0.lean ====
section
/-! SUPPORT. A witness for the hypotheses of every clause of every obligation, values of the spec's worked examples, and an ill-formed command for
each check. -/

namespace Sys2Proof.Tests
set_option Elab.async false
open Sys2Proof.Machine

/-! ## Small states -/

/-- A lane group in service, device-to-host when `d`. -/
def lanes (d : Bool) : Grp :=
  { gst := .active, dir := d, pll := true, eqDone := true, trained := true, carry := 0xFFFF, spare := some 16, inSvc := true }

/-- The stack in RUN with sixteen groups in service, the link up, and channel 31 and its slice in service. -/
def up : State :=
  let s : State := { State.reset with
    pck := { pow := .run, vbkp := true, mainGood := true }
    link := { grp := (List.range 16).map fun g => (g, lanes (decide (8 ≤ g))), up := true, everUp := true, homeH := some 0, homeD := some 8
              cfgRx := some (4096, 128), cfgSent := true, vc1Avail := 4096, vc2Avail := 128 } }
  let s := (s.wr F.DMC_STAT_CSTATE 2 31).wr F.SCC_STAT_SSTATE ssOn 31
  ((s.wr F.MGT_STAT_A_STATE 2).wr F.MGT_STAT_B_STATE 3).wr F.SVC_STAT_MEM_RDY 1

/-- The stack in RUN with Cox A active, before any training. -/
def served : State := { State.reset.wr F.MGT_STAT_A_STATE 2 with pck := { pow := .run } }

/-- In another power state. -/
def inPow (p : Pow) (s : State) : State := { s with pck.pow := p }
/-- In a step of the cold boot. -/
def inStep (n : Nat) (s : State) : State := { s with pck := { s.pck with pow := .boot, step := n } }
/-- Mailbox `m` holds a command. -/
def command (m opc lease : Nat) (p : List Byte) (s : State) : State :=
  (setMstate s m 2).modMbx m fun x => { x with
    cmd := bufPut [] 0 (leBytes 4 opc ++ leBytes 4 p.length ++ leBytes 4 lease ++ leBytes 4 0 ++ p) }
/-- Mailbox `m` holds the lease of a resource under 77. -/
def leased (i m : Nat) (s : State) : State :=
  { s.wr F.MGT_LEASE_HOLDER m i with mgt.leases := SMap.set s.mgt.leases i (77, 10 ^ 12) }
/-- Group `g` changed. -/
def withGrp (g : Nat) (f : Grp → Grp) (s : State) : State := s.modGrp g f
/-- Group `g` in a state of Table 2.3, out of service. -/
def groupIn (g : Nat) (st : GState) (s : State) : State := s.modGrp g fun x => { x with gst := st, inSvc := false }
/-- Domain 0 is enabled, with bow numbers 0 to 255 and one region of sixteen blocks. -/
def mapped (s : State) : State :=
  ((((((s.wr F.RQE_DOM_CTL_EN 1 0).wr F.RQE_DOM_CTL_RB_CAP 64 0).wr F.REG_BOW_EN_BOW_EN 1 0).wr F.REG_BOW_BOW_LAST 255 0).wr F.RQE_RGN_A_EN 1 0).wr
    F.RQE_RGN_A_WR 1 0).wr F.RQE_RGN_B_SIZE_M1 15 0
/-- The request buffer holds these entries. -/
def holds (rs : List Req) (s : State) : State := { s with rqe := { s.rqe with reqs := rs, nextId := 16 } }
/-- A request of domain 0 with an admission number and an operation, of device address 0. -/
def req (id : Nat) (o : ROp) (opc : Nat) : Req := { id := id, op := o, p := { opc := opc, tag := id } }
/-- Channel 31 has this controller, its ranks in ACT. -/
def chan (d : Dmc) (s : State) : State :=
  (List.range 4).foldl (fun t r => t.wr F.DMC_RANK_STAT_PSTATE 1 31 r) { s with dmc := [(31, d)] }
/-- Channel 31 has these lines. -/
def lines (x : TsvCh) (s : State) : State := { s with tsv.ch := [(31, x)] }
/-- The fault log holds one record, in its last entry, and LOG_READ is in hand. -/
def logged : State :=
  { command 0 0xB00 0 (leBytes 4 0 ++ leBytes 1 63) served with
    pst.mram := [(0x0E0000 + 16 * 8191, 0xFFFFFFFF), (0x0E0000 + 16 * 8191 + 15, crcWords (0xFFFFFFFF :: List.replicate 14 0))] }
theorem logged_records : b4 (cmdPayload logged 0) 0 < (logRecords logged).length := by
  have h : b4 (cmdPayload logged 0) 0 = 0 := by decide +kernel
  have h2 : (logEntry logged ((logged.rd F.FCR_LOG_LOG_HEAD + 8192 - (8192 - 8191)) % 8192)
      ((logged.rd F.FCR_LOG_SEQ_RSEQ_NEXT + 2 ^ 32 - (8192 - 8191)) % 2 ^ 32)).isSome = true := by decide +kernel
  obtain ⟨x, hx⟩ := Option.isSome_iff_exists.mp h2
  rw [h, List.length_pos_iff_exists_mem]
  exact ⟨x, List.mem_filterMap.mpr ⟨8191, List.mem_range.mpr (by decide), hx⟩⟩
/-- A fill frame of 4,096 bytes and their metadata that carries a CRC, all bytes zero. -/
def block (crc : Nat) : List Byte := List.replicate 12 0 ++ leBytes 4 crc ++ List.replicate 4160 0
theorem block_length (n : Nat) : (block n).length = 4176 := by
  rw [block, List.length_append, List.length_append, List.length_replicate, List.length_replicate]; rfl
theorem block_carries (n : Nat) : (block n).drop 16 = List.replicate 4160 0 :=
  List.drop_left (l₁ := List.replicate 12 (0 : Byte) ++ leBytes 4 n)
theorem block_stores (n : Nat) (h : n < 2 ^ 32) : leAt (block n) 12 4 = n := by
  have : (block n).drop 12 = leBytes 4 n ++ List.replicate 4160 0 := by
    rw [block, List.append_assoc]; exact List.drop_left (l₁ := List.replicate 12 (0 : Byte))
  rw [leAt, slice, this]
  simp only [leBytes, List.cons_append, List.take_succ_cons, List.take_zero, List.nil_append, List.length_cons, List.length_nil, Nat.sub_self,
    List.replicate_zero, List.append_nil, leNat, BitVec.toNat_ofNat, Nat.reduceAdd, Nat.reducePow] at *
  omega
theorem crc_lt (l : List Byte) : crc32 l < 2 ^ 32 := by
  have hb : ∀ c b, c < 2 ^ 32 → crcBit c b < 2 ^ 32 := by
    intro c b h
    unfold crcBit
    split
    · exact Nat.xor_lt_two_pow (by omega) (by decide)
    · exact Nat.lt_of_le_of_lt (Nat.div_le_self c 2) h
  have hf : ∀ (ks : List Nat) (n c : Nat), c < 2 ^ 32 → ks.foldl (fun c k => crcBit c (bit n k)) c < 2 ^ 32 := by
    intro ks
    induction ks with
    | nil => exact fun _ _ h => h
    | cons k ks ih => exact fun n c h => ih n _ (hb _ _ h)
  have hl : ∀ (l : List Byte) (c : Nat), c < 2 ^ 32 → l.foldl crcByte c < 2 ^ 32 := by
    intro l
    induction l with
    | nil => exact fun _ h => h
    | cons b l ih => exact fun c h => ih _ (hf _ _ _ h)
  exact Nat.xor_lt_two_pow (hl _ _ (by decide)) (by decide)
/-- The CRC of the bytes of `block`. -/
def zeroCrc : Nat := crc32 (List.replicate 4160 0)
theorem block_right : crc32 ((block zeroCrc).drop 16) = leAt (block zeroCrc) 12 4 := by
  rw [block_carries, block_stores zeroCrc (crc_lt _), zeroCrc]
theorem block_wrong : crc32 ((block ((zeroCrc + 1) % 2 ^ 32)).drop 16) ≠ leAt (block ((zeroCrc + 1) % 2 ^ 32)) 12 4 := by
  rw [block_carries, block_stores _ (Nat.mod_lt _ (by decide)), zeroCrc]
  have h := crc_lt (List.replicate 4160 0)
  generalize crc32 (List.replicate 4160 0) = c at *
  omega

/-! ## Values of the spec's worked examples -/

/-- The state after a step. -/
def after (a : Host.Outcome State Fault Refusal) : State := match a with
  | .next t => t
  | _ => State.reset

theorem test_no_command_waits_at_reset : State.reset.pending = [] := by decide

/-- No row of the table gives bits. -/
theorem test_no_word_spells_a_command : decodeTableWord 16 0x4B04 = none := by decide

theorem test_commands_leave_in_order :
    (after (step { State.reset with pending := [.keepAliveBurst 0, .stkWakeRise, .leaseExpiry] })).pending = [.stkWakeRise, .leaseExpiry] := by decide +kernel

/-- The check value of the IEEE 802.3 CRC (R52). -/
theorem test_crc_check_value : crc32 [0x31, 0x32, 0x33, 0x34, 0x35, 0x36, 0x37, 0x38, 0x39] = 0xCBF43926 := by decide +kernel

/-- Chapter 4: the bytes of D3's read of 128 bytes. -/
theorem test_read_packet :
    vc0Of [0x00, 0x07, 0x00, 0x13, 0x02, 0x04, 0xC8, 0x10, 0x80, 0x56, 0x34, 0x12, 0, 0, 0, 0] =
      { opc := 0, tag := 7, dom := 3, len := 1, bow := 0x0402, dl := 200, ord := true, addr := 0x12345680 } := by decide +kernel

/-- Chapter 4: the headers of DATA flits 300 and 301. -/
theorem test_flit_headers : leAt (flitBytes 300 1 []) 0 2 = 0x4B04 ∧ leAt (flitBytes 301 1 []) 0 2 = 0x4B44 := by decide +kernel

/-- Chapter 4: the header of the CPLD128 with OK_CORRECTED. -/
theorem test_completion_header : cplHeader 0x42 7 3 1 0 = [0x42, 0x07, 0x00, 0x13, 0, 0, 0, 0] := by decide

/-- Chapter 3: byte 161 of a flit travels on logical lane 0. -/
theorem test_lane_of_byte : laneOfByte 161 = 0 := by decide

/-- Chapter 5: D3's read of 128 bytes at 0x1234_5680. -/
theorem test_region_of_the_read :
    runsOf (((((((State.reset.wr F.RQE_RGN_A_EN 1 5).wr F.RQE_RGN_A_RDOM 3 5).wr F.RQE_RGN_A_DBASE 0x91 5).wr F.RQE_RGN_B_SIZE_M1 0x1F 5).wr
      F.RQE_RGN_B_PBASE 0x5000 5))) .rd { opc := 0, dom := 3, len := 1, addr := 0x12345680 } = some [(0x0A00145680 / 64, 2)] := by decide +kernel

theorem test_channel_of_the_read : mapDev State.reset 0x0A00145680 = (17, 0x5000A280) := by decide +kernel

theorem test_place_of_the_read :
    sectorInRow 0x5000A280 = 10 ∧ rowOf 0x5000A280 = 10240 ∧ rankOf 0x5000A280 = 1 ∧ bankInRank 0x5000A280 = 1 ∧ setOf 0x5000A280 = 325 ∧
    tagOf 0x5000A280 = 0xA00 := by decide +kernel

/-- Chapter 6: budgets and grants of four reservations. -/
def reserved : State :=
  [(1, 1, 700000), (2, 1, 500000), (3, 0, 600000), (4, 0, 300000)].foldl
    (fun s e => ((s.wr F.REG_RSV_A_EN 1 e.1).wr F.REG_RSV_A_RKIND e.2.1 e.1).wr F.REG_RSV_A_RQ_RATE e.2.2 e.1) State.reset

theorem test_budget : budget 2569333 = 2183933 ∧ (grantsFor reserved 2569333).2 = false := by decide +kernel

theorem test_grants :
    (grantsFor reserved 1889216).1.take 4 = [(1, 700000), (2, 500000), (3, 434287), (4, 217143)] ∧ (grantsFor reserved 1889216).2 = true := by decide +kernel

/-- Chapter 10: `SYND` 0x0345 is two errors, at positions 20 and 57. -/
theorem test_two_errors : syndWord (2 ^ 20 + 2 ^ 57) = 0x0345 := by decide +kernel

theorem test_two_errors_corrected : bchDec (2 ^ 20 + 2 ^ 57) = .fix [20, 57] := by decide +kernel

/-- Chapter 13: D5 reads RQE[3]_DOM_USE. -/
theorem test_offset_names_a_register : regAt 0x00A0134 = some (.RQE_DOM_USE, 3, 0) := by decide +kernel

theorem test_another_domains_register :
    let t := after (exec (.rreg 7 5 0x21#16 0xA0134#24) up)
    t.rd F.GLB_LAS_LA_RES 5 = 5 ∧ t.rd F.GLB_LAS_LA_WR 5 = 0 ∧ t.rd F.GLB_LAS_LA_OFS 5 = 0x2804D := by decide +kernel

/-- Chapter 18: PWR_ENTER for SLEEP against a vote of D4. -/
theorem test_entry_refused :
    let t := after (exec (.pwrEnter 0) (command 0 0x800 77 [1] (leased 4 0 (served.wr F.PCK_VOTE_NOSLEEP 1 4))))
    (t.mbx 0).await = .due .busy 0x401 [] := by decide +kernel

/-- Chapter 19: theta for Jaold sensor 7 at 103.75 °C, and the window of the throttle meter. -/
def hot (t theta : Nat) : State :=
  { (inPow .run State.reset) with
    thm.temp := ((List.range 50).map fun n => (n, if n = 7 then (t, true) else (16 * 40, true))), reg.thetaNext := theta }

theorem test_theta : nextTheta (hot 1660 40) (excess (hot 1660 40)).1 = 300 ∧ nextTheta (hot 1616 300) (excess (hot 1616 300)).1 = 290 := by decide +kernel

theorem test_throttle_meter : meterLimit { State.reset with reg.theta := 300 } = 2293760 := by decide +kernel

/-! ## Ill-formed commands -/

/-- Ill-formed commands, one for each check of `Instr.wf` on these operands. -/
def illFormedStarts : List Instr :=
  [.powerOnResetRelease [128] [] 0 false [] [], .powerOnResetRelease [] [8] 0 false [] [], .powerOnResetRelease [] [] 0 false [2 ^ 22] [],
   .powerOnResetRelease [] [] 0 false [] [2 ^ 22], .bistBlockEnd 0 false 0 0 0 0 [(0, 32, 0)], .rankTrainingEnd 0 true 0 0 0 [],
   .rankTrainingEnd 0 true 0 0 0 (List.replicate 84 64), .initFillEnd [] [] [], .initFillEnd (List.replicate 96 64) [] [],
   .initFillEnd (List.replicate 96 0) [32] [], .initFillEnd (List.replicate 96 0) [] [{ ch := 32, bank := 0, row := 0, k := 0, beat := 0, err := 0, again := true }],
   .initFillEnd (List.replicate 96 0) [] [{ ch := 0, bank := 128, row := 0, k := 0, beat := 0, err := 0, again := true }]]

/-- A slot result. -/
def slotOf (lanes preset : Nat) (ctle dfe slips skew : List Nat) : SlotResult :=
  { lanes := lanes, preset := preset, ctle := ctle, dfe := dfe, slips := slips, skew := skew }

/-- Seventeen times the same value. -/
def each (v : Nat) : List Nat := List.replicate 17 v

/-- Ill-formed commands, one for each check of `Instr.wf` on these operands. -/
def illFormedLanes : List Instr :=
  [.trainingSlotEnd 0 (slotOf (2 ^ 17) 0 (each 0) (each 0) (each 0) (each 0)), .trainingSlotEnd 0 (slotOf 0 10 (each 0) (each 0) (each 0) (each 0)),
   .trainingSlotEnd 0 (slotOf 0 0 (each 64) (each 0) (each 0) (each 0)), .trainingSlotEnd 0 (slotOf 0 0 (each 0) (each 64) (each 0) (each 0)),
   .trainingSlotEnd 0 (slotOf 0 0 (each 0) (each 0) [] (each 0)), .trainingSlotEnd 0 (slotOf 0 0 (each 0) (each 0) (each 32) (each 0)),
   .trainingSlotEnd 0 (slotOf 0 0 (each 0) (each 0) (each 0) []),
   .flitReceive 0 [], .status 0 1 [] 0 0, .status 0 1 [1024] 0 0]

/-- Ill-formed commands, one for each check of `Instr.wf` on these operands. -/
def illFormedPackets : List Instr :=
  [.wr { grp := 0, tag := 0, dom := 0 } 0 false true [] (List.replicate 64 0), .wr { grp := 0, tag := 0, dom := 0 } 1 false false [] (List.replicate 64 0),
   .wrp { grp := 0, tag := 0, dom := 0 } 0 [], .reservedVc0Opcode { grp := 0, tag := 0, dom := 0 } 0x10 0, .reservedVc2Opcode 0 0x50 0,
   .mbxWr 0 0 0 0 1 [], .requestIssue 0 [3], .completionPlace 0 0 (.alone [3]), .readDataReturn 0 [2 ^ 80], .atomicPerform 0 0 [2 ^ 80], .mergePerform 0 0 [2 ^ 80],
   .reportBurstReceive 0 0 [2 ^ 80], .scrubStep 0 [2 ^ 80], .scrubWriteback 0 [2 ^ 80], .sliceFault 0 0, .eventRaise 0 0 [0, 0, 0, 0, 0]]

/-- Ill-formed commands, one for each check of `Instr.wf` on these operands. -/
def illFormedOthers : List Instr :=
  [.sensorConversion 0 (-4097) true, .sensorConversion 0 4096 true, .warmResetRelease [(32, 0)], .stkRefclkReturn [(0, 4)], .dckPllRecover 0 [(32, 0)],
   .sleepExit [(0, 4)], .deepSleepExit [(32, 0)] 0 (List.replicate 96 0), .deepSleepExit [] 0 [], .deepSleepExit [] 0 (List.replicate 96 64),
   .fabPllResume [32], .keelFault 1, .coxFault true 0, .calibrationRunEnd 0 [256] 0 0, .spdmMsg 0 {}, .fuseVerify 0 [128], .fillBlock [], .mbxFrame 0 [],
   .mbxFrame 0 (List.replicate 4097 0), .frameErr (leBytes 8 (3 + 8 * 2 ^ 32) ++ List.replicate 8 0)]

theorem test_ill_formed_commands_are_refused :
    ([illFormedStarts, illFormedLanes, illFormedPackets, illFormedOthers].all fun l => l.all fun c => !c.wf) = true := by decide +kernel

theorem test_a_well_formed_write_is_not_refused :
    (Instr.wr { grp := 0, tag := 0, dom := 0 } 1 false true (List.replicate 8 0) (List.replicate 128 0)).wf = true := by decide +kernel

/-! ## The hypotheses of each clause are met together -/

theorem witness_empty_queue_ticks_the_clock :
    (∃ (s : State), s.pending = [] ∧ s.pck.wrstDue = none) ∧
    (∃ (s : State) (due : Nat) (cause : Nat), s.pending = [] ∧ s.pck.wrstDue = some (due, cause) ∧ s.now + 1 < due) ∧
    (∃ (s : State) (due : Nat) (cause : Nat), s.pending = [] ∧ s.pck.wrstDue = some (due, cause) ∧ due ≤ s.now + 1) :=
  ⟨⟨up, by decide +kernel⟩,
   ⟨{ up with pck.wrstDue := some (8000, 1) }, 8000, 1, by decide +kernel⟩,
   ⟨{ up with pck.wrstDue := some (1, 1) }, 1, 1, by decide +kernel⟩⟩

theorem witness_training_starts_and_senses :
    (∃ (s : State) (g : Fin 16), (s.grp g.val).gst = .off ∧ s.link.refclk = true ∧ (s.pck.pow = .run ∨ s.pck.pow = .idle ∨ s.pck.pow = .entering)) ∧
    (∃ (s : State) (g : Fin 16), (s.grp g.val).gst = .detect ∧ (s.grp g.val).inSvc = false) ∧
    (∃ (s : State) (g : Fin 16) (locked : Bool) (burst : Bool), (s.grp g.val).gst = .clock ∧ (s.grp g.val).inSvc = true ∧ (locked && burst) = false) ∧
    (∃ (s : State) (g : Fin 16) (locked : Bool) (burst : Bool), (s.grp g.val).gst = .clock ∧ ((s.grp g.val).inSvc = false ∨ (locked && burst) = true) ∧
      (locked && burst) = true) ∧
    (∃ (s : State) (g : Fin 16), (s.grp g.val).gst = .failed ∧ (s.pck.step = 8 ∨ (s.grp g.val).attempt ≠ 0) ∧ (s.grp g.val).attempt < 3) ∧
    (∃ (s : State) (g : Fin 16), (s.grp g.val).gst = .failed ∧ (s.pck.step = 8 ∨ (s.grp g.val).attempt ≠ 0) ∧ 3 ≤ (s.grp g.val).attempt) :=
  ⟨⟨groupIn 0 .off up, 0, by decide +kernel⟩,
   ⟨groupIn 15 .detect up, 15, by decide +kernel⟩,
   ⟨withGrp 0 (fun x => { x with gst := .clock }) up, 0, false, false, by decide +kernel⟩,
   ⟨groupIn 0 .clock up, 0, true, true, by decide +kernel⟩,
   ⟨withGrp 0 (fun x => { x with attempt := 2 }) (groupIn 0 .failed (inStep 8 up)), 0, by decide +kernel⟩,
   ⟨withGrp 0 (fun x => { x with attempt := 3 }) (groupIn 0 .failed (inStep 8 up)), 0, by decide +kernel⟩⟩

theorem witness_training_slots_lead_to_service :
    (∃ (s : State) (g : Fin 16), (s.grp g.val).gst = .eq ∧ (s.grp g.val).slot ≠ 15) ∧
    (∃ (s : State) (g : Fin 16), (s.grp g.val).gst = .eq ∧ (s.grp g.val).slot = 15 ∧ (s.grp g.val).inSvc = false) ∧
    (∃ (s : State) (g : Fin 16) (asked : Nat) (map : Nat), (s.grp g.val).gst = .confirm ∧ 19 ≤ (s.grp g.val).slot ∧ (s.grp g.val).partner = some (asked,
      map) ∧ (s.grp g.val).inSvc = false ∧ s.on F.HLP_CTL_TEST g.val = false ∧
      16 ≤ popCount (usable { s.grp g.val with failed := maskOf ((onesOf allLanes 17).filter fun l => bit (s.grp g.val).failed l || !bit map l) }) 17) ∧
    (∃ (s : State) (g : Fin 16), (s.grp g.val).gst = .confirm ∧ 19 ≤ (s.grp g.val).slot ∧ (s.grp g.val).partner = none ∧ (s.grp g.val).inSvc = false) ∧
    (∃ (s : State) (g : Fin 16) (word : BitVec 64) (on : BitVec 17), (s.grp g.val).gst = .confirm ∧ bits word.toNat 48 16 = 0xC04F ∧
      bits word.toNat 21 27 = 0 ∧ 16 ≤ popCount on.toNat 17) ∧
    (∃ (s : State) (g : Fin 16) (word : BitVec 64) (on : BitVec 17), (s.grp g.val).gst = .confirm ∧
      (bits word.toNat 48 16 ≠ 0xC04F ∨ bits word.toNat 21 27 ≠ 0 ∨ popCount on.toNat 17 < 16)) :=
  ⟨⟨groupIn 15 .eq up, 15, by decide +kernel⟩,
   ⟨withGrp 15 (fun x => { x with slot := 15 }) (groupIn 15 .eq up), 15, by decide +kernel⟩,
   ⟨withGrp 15 (fun x => { x with slot := 19, partner := some (3, 0x1FFFF) }) (groupIn 15 .confirm up), 15, 3, 0x1FFFF, by decide +kernel⟩,
   ⟨withGrp 15 (fun x => { x with slot := 19 }) (groupIn 15 .confirm up), 15, by decide +kernel⟩,
   ⟨groupIn 0 .confirm up, 0, 0xC04F000000000000#64, 0xFFFF#17, by decide +kernel⟩,
   ⟨groupIn 0 .confirm up, 0, 0#64, BitVec.ofNat 17 0, by decide +kernel⟩⟩

theorem witness_quiet_and_deep_follow_the_lane_power_states :
    (∃ (s : State) (g : Fin 16), (s.grp g.val).gst = .active ∧ (s.grp g.val).inSvc = true ∧ (s.grp g.val).dir = true ∧
      s.on F.HLP_CTL_QUIET_EN g.val = true ∧ (s.grp g.val).injAct = false) ∧
    (∃ (s : State) (g : Fin 16), (s.grp g.val).gst = .quiet ∧ (s.grp g.val).dir = true) ∧
    (∃ (s : State) (g : Fin 16), (s.grp g.val).gst = .quiet ∧ (s.grp g.val).dir = false) ∧
    (∃ (s : State), s.pck.pow = .sleep ∧ (listenLane s).isSome = true) ∧
    (∃ (s : State), listenLane s = none) :=
  ⟨⟨up.wr F.HLP_CTL_QUIET_EN 1 15, 15, by decide +kernel⟩,
   ⟨withGrp 8 (fun x => { x with gst := .quiet }) up, 8, by decide +kernel⟩,
   ⟨withGrp 0 (fun x => { x with gst := .quiet }) up, 0, by decide +kernel⟩,
   ⟨withGrp 15 (fun x => { x with gst := .deep, failed := 1 }) (inPow .sleep up), by decide +kernel⟩,
   ⟨up, by decide +kernel⟩⟩

theorem witness_lane_failure_takes_the_spare :
    (∃ (s : State) (g : Fin 16) (l : Fin 17), (s.grp g.val).inSvc = true ∧ flitsExpected s g.val = true ∧ bit (s.grp g.val).carry l.val = true ∧
      (s.grp g.val).dir = false ∧ (s.grp g.val).spare.isSome = true) ∧
    (∃ (s : State) (g : Fin 16) (l : Fin 17), (s.grp g.val).inSvc = true ∧ flitsExpected s g.val = true ∧ bit (s.grp g.val).carry l.val = true ∧
      (s.grp g.val).dir = false ∧ (s.grp g.val).spare = none) ∧
    (∃ (s : State) (g : Fin 16) (l : Fin 17), hears s g.val = true ∧ (s.grp g.val).spare = some l.val) ∧
    (∃ (s : State) (g : Fin 16) (n : Fin 16) (l : Fin 17), hears s g.val = true ∧ (s.grp n.val).inSvc = true ∧ (s.grp n.val).spare = some l.val) ∧
    (∃ (s : State) (g : Fin 16) (n : Fin 16) (l : Fin 17), hears s g.val = true ∧ (s.grp n.val).dir = true ∧ (s.grp n.val).inSvc = true ∧
      bit (s.grp n.val).carry l.val = true ∧ (s.grp n.val).spare.isSome = true) ∧
    (∃ (s : State) (g : Fin 16) (n : Fin 16) (l : Fin 17), hears s g.val = true ∧ (s.grp n.val).dir = true ∧ (s.grp n.val).inSvc = true ∧
      bit (s.grp n.val).carry l.val = true ∧ (s.grp n.val).spare = none) :=
  ⟨⟨up, 0, 15, by decide +kernel⟩,
   ⟨withGrp 0 (fun x => { x with spare := none }) up, 0, 15, by decide +kernel⟩,
   ⟨up, 0, 16, by decide +kernel⟩,
   ⟨up, 0, 8, 16, by decide +kernel⟩,
   ⟨up, 0, 15, 15, by decide +kernel⟩,
   ⟨withGrp 15 (fun x => { x with spare := none }) up, 0, 15, 15, by decide +kernel⟩⟩

theorem witness_lost_groups_go_to_detect :
    (∃ (s : State) (g : Fin 16), (s.grp g.val).inSvc = true) ∧
    (∃ (s : State) (g : Fin 16), s.link.refclk = true ∧ (s.grp g.val).pll = true) ∧
    (∃ (s : State) (g : Fin 16), (s.grp g.val).inSvc = true ∧ (s.grp g.val).dir = true ∧ (s.grp g.val).replay ≠ [] ∧
      ((s.grp g.val).gst = .active ∨ (s.grp g.val).gst = .quiet ∨ (s.grp g.val).gst = .turn)) ∧
    (∃ (s : State) (u : Turn), s.link.turn = some u ∧ u.grp < 16 ∧ (s.grp u.grp).inSvc = true) ∧
    (∃ (s : State) (g : Fin 16) (n : Fin 16), hears s g.val = true ∧ (s.grp n.val).dir = false ∧ (s.grp n.val).inSvc = true) ∧
    (∃ (s : State) (g : Fin 16) (n : Fin 16), hears s g.val = true ∧ (s.grp n.val).dir = true ∧ (s.grp n.val).inSvc = false ∧
      (s.grp n.val).lostReq = true) ∧
    (∃ (s : State), (∃ g : Fin 16, (s.grp g.val).lostReq = true)) ∧
    (∃ (s : State), s.link.up = true ∧ (inService s false = [] ∨ inService s true = [])) :=
  ⟨⟨up, 0, by decide +kernel⟩,
   ⟨up, 0, by decide +kernel⟩,
   ⟨withGrp 8 (fun x => { x with replay := [{ fseq := 5, ftype := 1, area := [], ends := [] }] }) up, 8, by decide +kernel⟩,
   ⟨{ up with link.turn := some { grp := 15, dir := false, tseq := 1, byStack := true } }, { grp := 15, dir := false, tseq := 1, byStack := true },
    by decide +kernel⟩,
   ⟨up, 0, 1, by decide +kernel⟩,
   ⟨withGrp 15 (fun x => { x with gst := .detect, inSvc := false, lostReq := true }) up, 0, 15, by decide +kernel⟩,
   ⟨withGrp 15 (fun x => { x with gst := .detect, inSvc := false, lostReq := true }) up, by decide +kernel⟩,
   ⟨(List.range 8).foldl (fun t g => groupIn g .detect t) up, by decide +kernel⟩⟩

theorem witness_reference_clock_loss_stops_every_group :
    (∃ (s : State), s.link.refclk = true ∧ (s.pck.pow = .run ∨ s.pck.pow = .idle ∨ s.pck.pow = .entering ∨ s.pck.pow = .warm ∨ s.pck.pow = .powerFail)) ∧
    (∃ (s : State), s.link.refclk = false ∧ (s.pck.pow = .run ∨ s.pck.pow = .idle ∨ s.pck.pow = .entering)) :=
  ⟨⟨up, by decide +kernel⟩,
   ⟨{ up with link.refclk := false }, by decide +kernel⟩⟩

theorem witness_group_control_writes :
    (∃ (s : State) (who : Fin 18) (g : Fin 16) (v : Word), CanWrite s who.val .HLP_CTL g.val 0 (withBits v.toNat [(F.HLP_CTL_RETRAIN,
      1)]) [F.HLP_CTL_RETRAIN, F.HLP_CTL_TEST] ∧ needed s g.val = false ∧ F.HLP_CTL_LOOPBACK.val v.toNat ≠ 1 ∧
      F.HLP_CTL_TEST.hit v.toNat = s.on F.HLP_CTL_TEST g.val ∧ s.link.refclk = true) ∧
    (∃ (s : State) (who : Fin 18) (g : Fin 16) (v : Word), CanWrite s who.val .HLP_CTL g.val 0 (withBits v.toNat [(F.HLP_CTL_RETRAIN,
      1)]) [F.HLP_CTL_RETRAIN] ∧ needed s g.val = true) ∧
    (∃ (s : State) (who : Fin 18) (g : Fin 16) (v : Word), CanWrite s who.val .HLP_CTL g.val 0 (withBits v.toNat [(F.HLP_CTL_TEST,
      1)]) [F.HLP_CTL_TEST] ∧ needed s g.val = false ∧ F.HLP_CTL_LOOPBACK.val v.toNat ≠ 1 ∧ F.HLP_CTL_RETRAIN.hit v.toNat = false ∧
      s.on F.HLP_CTL_TEST g.val = false ∧ ((s.grp g.val).gst = .active ∨ (s.grp g.val).gst = .quiet)) ∧
    (∃ (s : State) (who : Fin 18) (g : Fin 16) (v : Word), CanWrite s who.val .HLP_CTL g.val 0 (withBits v.toNat [(F.HLP_CTL_TEST,
      0)]) [F.HLP_CTL_TEST] ∧ F.HLP_CTL_LOOPBACK.val v.toNat ≠ 1 ∧ F.HLP_CTL_RETRAIN.hit v.toNat = false ∧ s.on F.HLP_CTL_TEST g.val = true ∧
      (s.grp g.val).gst = .test) :=
  ⟨⟨up, 0, 0, BitVec.ofNat 32 (baseWord up .HLP_CTL 0 0), by unfold CanWrite WriteReady WriteOpen MayWrite; decide +kernel⟩,
   ⟨(List.range 6).foldl (fun t g => groupIn g .detect t) up, 0, 7, BitVec.ofNat 32 (baseWord up .HLP_CTL 0 0),
    by unfold CanWrite WriteReady WriteOpen MayWrite; decide +kernel⟩,
   ⟨up, 0, 0, BitVec.ofNat 32 (baseWord up .HLP_CTL 0 0), by unfold CanWrite WriteReady WriteOpen MayWrite; decide +kernel⟩,
   ⟨(groupIn 0 .test up).wr F.HLP_CTL_TEST 1, 0, 0, BitVec.ofNat 32 (baseWord up .HLP_CTL 0 0),
    by unfold CanWrite WriteReady WriteOpen MayWrite; decide +kernel⟩⟩

theorem witness_lane_test_writes :
    (∃ (s : State) (who : Fin 18) (g : Fin 16) (v : Word), CanWrite s who.val .HLP_INJ g.val 0 (withBits v.toNat [(F.HLP_INJ_INJ_GO,
      1)]) [F.HLP_INJ_INJ_GO, F.HLP_INJ_INJ_LIVE, F.HLP_INJ_INJ_EXP, F.HLP_INJ_INJ_LANE, F.HLP_INJ_INJ_MODE] ∧
      (F.HLP_INJ_INJ_LIVE.hit v.toNat = true → 12 ≤ F.HLP_INJ_INJ_EXP.val v.toNat ∧ (s.grp g.val).gst = .active ∧ (s.grp g.val).dir = true)) ∧
    (∃ (s : State) (who : Fin 18) (g : Fin 16) (l : Fin 17) (v : Word),
      CanWrite s who.val .HLP_LN_CTL g.val l.val (withBits v.toNat [(F.HLP_LN_CTL_CHK_EN, 1)]) [F.HLP_LN_CTL_CHK_EN, F.HLP_LN_CTL_GEN_EN,
      F.HLP_LN_CTL_PAT_SEL] ∧ F.HLP_LN_CTL_PAT_SEL.val v.toNat ≠ 7 ∧ F.HLP_LN_CTL_GEN_EN.hit v.toNat = s.on F.HLP_LN_CTL_GEN_EN g.val l.val ∧
      s.on F.HLP_LN_CTL_CHK_EN g.val l.val = false ∧ laneFree (s.grp g.val) l.val = true ∧ (s.grp g.val).dir = false ∧
      chkOwner (s.grp g.val) l.val = 0) ∧
    (∃ (s : State) (who : Fin 18) (g : Fin 16) (l : Fin 17) (v : Word),
      CanWrite s who.val .HLP_LN_CTL g.val l.val (withBits v.toNat [(F.HLP_LN_CTL_CHK_EN, 1)]) [F.HLP_LN_CTL_CHK_EN, F.HLP_LN_CTL_GEN_EN,
      F.HLP_LN_CTL_PAT_SEL] ∧ F.HLP_LN_CTL_PAT_SEL.val v.toNat ≠ 7 ∧ F.HLP_LN_CTL_GEN_EN.hit v.toNat = s.on F.HLP_LN_CTL_GEN_EN g.val l.val ∧
      s.on F.HLP_LN_CTL_CHK_EN g.val l.val = false ∧ laneFree (s.grp g.val) l.val = true ∧ (s.grp g.val).dir = false ∧
      (chkOwner (s.grp g.val) l.val = 1 ∨ chkOwner (s.grp g.val) l.val = 2)) ∧
    (∃ (s : State) (who : Fin 18) (g : Fin 16) (l : Fin 17), CanRead s who.val .HLP_LN_ERR g.val l.val [F.HLP_LN_ERR_ERRORS]) :=
  ⟨⟨up, 0, 0, BitVec.ofNat 32 (baseWord up .HLP_INJ 0 0), by unfold CanWrite WriteReady WriteOpen MayWrite; decide +kernel⟩,
   ⟨up, 0, 0, 16, BitVec.ofNat 32 (baseWord up .HLP_LN_CTL 0 0), by unfold CanWrite WriteReady WriteOpen MayWrite; decide +kernel⟩,
   ⟨withGrp 0 (fun x => { x with owner := [(16, 1)] }) up, 0, 0, 16, BitVec.ofNat 32 (baseWord up .HLP_LN_CTL 0 0),
    by unfold CanWrite WriteReady WriteOpen MayWrite; decide +kernel⟩,
   ⟨up, 0, 0, 0, by unfold CanRead; decide +kernel⟩⟩

theorem witness_link_register_writes :
    (∃ (s : State) (who : Fin 18) (v : Word), CanWrite s who.val .HLL_TURN 0 0 (withBits v.toNat [(F.HLL_TURN_TURN_GO, 1)]) [F.HLL_TURN_TURN_GO,
      F.HLL_TURN_TURN_GRP, F.HLL_TURN_TURN_DIR] ∧ turnCheck s (F.HLL_TURN_TURN_GRP.val v.toNat) (F.HLL_TURN_TURN_DIR.hit v.toNat) = .ok) ∧
    (∃ (s : State) (who : Fin 18) (v : Word) (c : Code), CanWrite s who.val .HLL_TURN 0 0 (withBits v.toNat [(F.HLL_TURN_TURN_GO,
      1)]) [F.HLL_TURN_TURN_GO, F.HLL_TURN_TURN_GRP, F.HLL_TURN_TURN_DIR] ∧
      turnCheck s (F.HLL_TURN_TURN_GRP.val v.toNat) (F.HLL_TURN_TURN_DIR.hit v.toNat) = c ∧ c ≠ .ok) ∧
    (∃ (s : State) (who : Fin 18) (v : Word), CanWrite s who.val .HLL_CTL 0 0 (withBits v.toNat [(F.HLL_CTL_CNT_CLR, 1)]) [F.HLL_CTL_CNT_CLR]) :=
  ⟨⟨up, 0, BitVec.ofNat 32 (withBits (baseWord (up) .HLL_TURN 0 0) [(F.HLL_TURN_TURN_GRP, 15), (F.HLL_TURN_TURN_DIR, 0)]),
    by unfold CanWrite WriteReady WriteOpen MayWrite; decide +kernel⟩,
   ⟨up, 0, BitVec.ofNat 32 (baseWord up .HLL_TURN 0 0), .state, by unfold CanWrite WriteReady WriteOpen MayWrite; decide +kernel⟩,
   ⟨up, 0, BitVec.ofNat 32 (baseWord up .HLL_CTL 0 0), by unfold CanWrite WriteReady WriteOpen MayWrite; decide +kernel⟩⟩

theorem witness_request_engine_writes :
    (∃ (s : State) (who : Fin 18) (d : Fin 16) (v : Word), CanWrite s who.val .RQE_DOM_CTL d.val 0 (withBits v.toNat [(F.RQE_DOM_CTL_PURGE,
      1)]) [F.RQE_DOM_CTL_PURGE, F.RQE_DOM_CTL_EN] ∧ s.on F.RQE_DOM_CTL_PURGE_BUSY d.val = false) ∧
    (∃ (s : State) (who : Fin 18) (d : Fin 16) (v : Word), CanWrite s who.val .RQE_DOM_CTL d.val 0 (withBits v.toNat [(F.RQE_DOM_CTL_PURGE,
      1)]) [F.RQE_DOM_CTL_PURGE, F.RQE_DOM_CTL_EN] ∧ s.on F.RQE_DOM_CTL_PURGE_BUSY d.val = true) ∧
    (∃ (s : State) (who : Fin 18) (n : Fin 64) (v : Word), CanWrite s who.val .RQE_RGN_A n.val 0 v.toNat [F.RQE_RGN_A_EN, F.RQE_RGN_A_DBASE,
      F.RQE_RGN_A_RDOM, F.RQE_RGN_A_WR] ∧ (F.RQE_RGN_A_EN.hit v.toNat = false ∨ s.on F.RQE_RGN_A_EN n.val = false ∧
      regionEnd s n.val (F.RQE_RGN_A_DBASE.val v.toNat) ≤ 0xFFFF ∧ regionEnd s n.val (s.rd F.RQE_RGN_B_PBASE n.val) ≤ lastBlock s ∧
      regionOverlap s n.val (F.RQE_RGN_A_RDOM.val v.toNat) (F.RQE_RGN_A_DBASE.val v.toNat) = false)) ∧
    (∃ (s : State) (who : Fin 18) (n : Fin 64) (v : Word), CanWrite s who.val .RQE_RGN_A n.val 0 v.toNat [F.RQE_RGN_A_EN, F.RQE_RGN_A_DBASE,
      F.RQE_RGN_A_RDOM, F.RQE_RGN_A_WR] ∧ F.RQE_RGN_A_EN.hit v.toNat = true ∧ s.on F.RQE_RGN_A_EN n.val = false ∧
      (0xFFFF < regionEnd s n.val (F.RQE_RGN_A_DBASE.val v.toNat) ∨ lastBlock s < regionEnd s n.val (s.rd F.RQE_RGN_B_PBASE n.val) ∨ regionOverlap s n.val (F.RQE_RGN_A_RDOM.val v.toNat) (F.RQE_RGN_A_DBASE.val v.toNat) = true)) ∧
    (∃ (s : State) (who : Fin 18) (n : Fin 64) (v : Word), CanWrite s who.val .RQE_RGN_A n.val 0 v.toNat [F.RQE_RGN_A_EN, F.RQE_RGN_A_DBASE,
      F.RQE_RGN_A_RDOM, F.RQE_RGN_A_WR] ∧ F.RQE_RGN_A_EN.hit v.toNat = true ∧ s.on F.RQE_RGN_A_EN n.val = true ∧
      F.RQE_RGN_A_DBASE.val v.toNat ≠ s.rd F.RQE_RGN_A_DBASE n.val) ∧
    (∃ (s : State) (who : Fin 18) (n : Fin 64) (v : Word), CanWrite s who.val .RQE_RGN_B n.val 0 v.toNat [F.RQE_RGN_B_SIZE_M1, F.RQE_RGN_B_PBASE] ∧
      s.on F.RQE_RGN_A_EN n.val = false) ∧
    (∃ (s : State) (who : Fin 18) (v : Word), CanWrite s who.val .RQE_CTL 0 0 (withBits v.toNat [(F.RQE_CTL_CNT_CLR, 1)]) [F.RQE_CTL_CNT_CLR,
      F.RQE_CTL_HASH_SEL, F.RQE_CTL_CH_LSB] ∧ F.RQE_CTL_HASH_SEL.val v.toNat = s.rd F.RQE_CTL_HASH_SEL ∧
      F.RQE_CTL_CH_LSB.val v.toNat = s.rd F.RQE_CTL_CH_LSB ∧ s.rd F.RQE_CTL_HASH_SEL ≠ 3) :=
  ⟨⟨up, 0, 0, BitVec.ofNat 32 (baseWord up .RQE_DOM_CTL 0 0), by unfold CanWrite WriteReady WriteOpen MayWrite; decide +kernel⟩,
   ⟨up.wr F.RQE_DOM_CTL_PURGE_BUSY 1 15, 0, 15, BitVec.ofNat 32 (baseWord up .RQE_DOM_CTL 0 0),
    by unfold CanWrite WriteReady WriteOpen MayWrite; decide +kernel⟩,
   ⟨up, 0, 0, BitVec.ofNat 32 (baseWord up .RQE_RGN_A 0 0), by unfold CanWrite WriteReady WriteOpen MayWrite; decide +kernel⟩,
   ⟨up.wr F.RQE_RGN_B_SIZE_M1 0xFFFF 63, 0, 63, BitVec.ofNat 32 (withBits (baseWord (up) .RQE_RGN_A 0 0) [(F.RQE_RGN_A_EN, 1), (F.RQE_RGN_A_DBASE, 1)]),
    by unfold CanWrite WriteReady WriteOpen MayWrite; decide +kernel⟩,
   ⟨up.wr F.RQE_RGN_A_EN 1 63, 0, 63, BitVec.ofNat 32 (withBits (baseWord (up) .RQE_RGN_A 0 0) [(F.RQE_RGN_A_EN, 1), (F.RQE_RGN_A_DBASE, 1)]),
    by unfold CanWrite WriteReady WriteOpen MayWrite; decide +kernel⟩,
   ⟨up, 0, 0, BitVec.ofNat 32 (baseWord up .RQE_RGN_B 0 0), by unfold CanWrite WriteReady WriteOpen MayWrite; decide +kernel⟩,
   ⟨up, 0, BitVec.ofNat 32 (baseWord up .RQE_CTL 0 0), by unfold CanWrite WriteReady WriteOpen MayWrite; decide +kernel⟩⟩

theorem witness_context_window_commands :
    (∃ (s : State) (who : Fin 18) (v : Word), CanWrite s who.val .REG_CTX_CMD 0 0 (withBits v.toNat [(F.REG_CTX_CMD_OP, 1)]) [F.REG_CTX_CMD_OP] ∧
      ctxReach s who.val (s.rd F.REG_CTX_IDX_CTX_IDX who.val) = true) ∧
    (∃ (s : State) (who : Fin 18) (v : Word), CanWrite s who.val .REG_CTX_CMD 0 0 (withBits v.toNat [(F.REG_CTX_CMD_OP, 1)]) [F.REG_CTX_CMD_OP] ∧
      ctxReach s who.val (s.rd F.REG_CTX_IDX_CTX_IDX who.val) = false) ∧
    (∃ (s : State) (who : Fin 18) (v : Word), CanWrite s who.val .REG_CTX_CMD 0 0 (withBits v.toNat [(F.REG_CTX_CMD_OP, 2)]) [F.REG_CTX_CMD_OP] ∧
      ctxReach s who.val (s.rd F.REG_CTX_IDX_CTX_IDX who.val) = true ∧
      ctxCheck s (s.rd F.REG_CTX_IDX_CTX_IDX who.val) (F.REG_CTX_D0_CLASS.val (ctxD0 s who.val)) (F.REG_CTX_D0_LT_TGT.val (ctxD0 s who.val)) (F.REG_CTX_D0_RES_IDX.val (ctxD0 s who.val)) = .ok ∧
      (who.val = 17 ∨ windowHolds s (2 ^ 40 + s.rd F.REG_CTX_IDX_CTX_IDX who.val) = false)) :=
  ⟨⟨up, 0, BitVec.ofNat 32 (baseWord up .REG_CTX_CMD 0 0), by unfold CanWrite WriteReady WriteOpen MayWrite; decide +kernel⟩,
   ⟨up, 1, BitVec.ofNat 32 (baseWord up .REG_CTX_CMD 0 0), by unfold CanWrite WriteReady WriteOpen MayWrite; decide +kernel⟩,
   ⟨up, 0, BitVec.ofNat 32 (baseWord up .REG_CTX_CMD 0 0), by unfold CanWrite WriteReady WriteOpen MayWrite; decide +kernel⟩⟩

theorem witness_regulator_writes :
    (∃ (s : State) (who : Fin 18) (v : Word), CanWrite s who.val .REG_CNT_IDX 0 0 v.toNat [F.REG_CNT_IDX_CIDX] ∧
      cidxReach who.val (F.REG_CNT_IDX_CIDX.val v.toNat) = true ∧ cidxLegal (F.REG_CNT_IDX_CIDX.val v.toNat) = true) ∧
    (∃ (s : State) (who : Fin 18) (v : Word), CanWrite s who.val .REG_WSEL 0 0 v.toNat [F.REG_WSEL_WBOW, F.REG_WSEL_WMASK]) ∧
    (∃ (s : State) (who : Fin 18) (d : Fin 16) (v : Word), CanWrite s who.val .REG_BOW d.val 0 v.toNat [F.REG_BOW_BOW_BASE, F.REG_BOW_BOW_LAST] ∧
      bowCheck s d.val (F.REG_BOW_BOW_BASE.val v.toNat) (F.REG_BOW_BOW_LAST.val v.toNat) (s.on F.REG_BOW_EN_BOW_EN d.val) (rbUsed s d.val) = .ok) ∧
    (∃ (s : State) (who : Fin 18) (d : Fin 16) (v : Word), CanWrite s who.val .REG_BOW_EN d.val 0 v.toNat [F.REG_BOW_EN_BOW_EN] ∧
      bowCheck s d.val (s.rd F.REG_BOW_BOW_BASE d.val) (s.rd F.REG_BOW_BOW_LAST d.val) (F.REG_BOW_EN_BOW_EN.hit v.toNat) (rbUsed s d.val) = .ok) ∧
    (∃ (s : State) (who : Fin 18) (n : Fin 64) (v : Word) (c : Code), CanWrite s who.val .REG_RSV_A n.val 0 v.toNat [F.REG_RSV_A_RQ_RATE,
      F.REG_RSV_A_RKIND, F.REG_RSV_A_RDOM, F.REG_RSV_A_EN] ∧
      rsvCheck s n.val (F.REG_RSV_A_RQ_RATE.val v.toNat) (F.REG_RSV_A_RKIND.val v.toNat) (F.REG_RSV_A_RDOM.val v.toNat) (F.REG_RSV_A_EN.hit v.toNat) = c ∧
      c = .ok) ∧
    (∃ (s : State) (who : Fin 18) (n : Fin 64) (v : Word) (c : Code), CanWrite s who.val .REG_RSV_A n.val 0 v.toNat [F.REG_RSV_A_RQ_RATE,
      F.REG_RSV_A_RKIND, F.REG_RSV_A_RDOM, F.REG_RSV_A_EN] ∧
      rsvCheck s n.val (F.REG_RSV_A_RQ_RATE.val v.toNat) (F.REG_RSV_A_RKIND.val v.toNat) (F.REG_RSV_A_RDOM.val v.toNat) (F.REG_RSV_A_EN.hit v.toNat) = c ∧
      c ≠ .ok) ∧
    (∃ (s : State) (who : Fin 18) (v : Word), CanWrite s who.val .REG_CTL 0 0 (withBits v.toNat [(F.REG_CTL_CNT_CLR, 1)]) [F.REG_CTL_CNT_CLR]) :=
  ⟨⟨up, 0, BitVec.ofNat 32 (baseWord up .REG_CNT_IDX 0 0), by unfold CanWrite WriteReady WriteOpen MayWrite; decide +kernel⟩,
   ⟨up, 0, BitVec.ofNat 32 (baseWord up .REG_WSEL 0 0), by unfold CanWrite WriteReady WriteOpen MayWrite; decide +kernel⟩,
   ⟨up.wr F.RQE_DOM_CTL_EN 0 15, 0, 15, BitVec.ofNat 32 (baseWord up .REG_BOW 0 0), by unfold CanWrite WriteReady WriteOpen MayWrite; decide +kernel⟩,
   ⟨up.wr F.RQE_DOM_CTL_EN 0 15, 0, 15, BitVec.ofNat 32 0, by unfold CanWrite WriteReady WriteOpen MayWrite; decide +kernel⟩,
   ⟨up, 0, 0, BitVec.ofNat 32 (baseWord up .REG_RSV_A 0 0), .ok, by unfold CanWrite WriteReady WriteOpen MayWrite; decide +kernel⟩,
   ⟨up, 0, 63, BitVec.ofNat 32 (withBits (baseWord (up) .REG_RSV_A 0 0) [(F.REG_RSV_A_EN, 1)]), .badValue,
    by unfold CanWrite WriteReady WriteOpen MayWrite; decide +kernel⟩,
   ⟨up, 0, BitVec.ofNat 32 (baseWord up .REG_CTL 0 0), by unfold CanWrite WriteReady WriteOpen MayWrite; decide +kernel⟩⟩

theorem witness_slice_register_writes :
    (∃ (s : State) (who : Fin 18) (sl : Fin 32) (v : Word), CanWrite s who.val .SCC_OPS_CMD sl.val 0 (withBits v.toNat [(F.SCC_OPS_CMD_OP,
      1)]) [F.SCC_OPS_CMD_OP, F.SCC_OPS_CMD_SCOPE, F.SCC_OPS_CMD_ODOM, F.SCC_OPS_CMD_OWAYS] ∧ F.SCC_OPS_CMD_SCOPE.val v.toNat ≠ 3 ∧
      (F.SCC_OPS_CMD_SCOPE.val v.toNat = 2 → F.SCC_OPS_CMD_OWAYS.val v.toNat ≠ 0) ∧ (s.sstate sl.val = ssOn ∨ s.sstate sl.val = ssDrain) ∧
      SMap.get? s.scc.op sl.val = none) ∧
    (∃ (s : State) (who : Fin 18) (sl : Fin 32) (v : Word), CanWrite s who.val .SCC_OPS_CMD sl.val 0 (withBits v.toNat [(F.SCC_OPS_CMD_OP,
      1)]) [F.SCC_OPS_CMD_OP, F.SCC_OPS_CMD_SCOPE, F.SCC_OPS_CMD_ODOM, F.SCC_OPS_CMD_OWAYS] ∧ F.SCC_OPS_CMD_SCOPE.val v.toNat ≠ 3 ∧
      (F.SCC_OPS_CMD_SCOPE.val v.toNat = 2 → F.SCC_OPS_CMD_OWAYS.val v.toNat ≠ 0) ∧ (s.sstate sl.val = ssOn ∨ s.sstate sl.val = ssDrain) ∧
      (SMap.get? s.scc.op sl.val).isSome = true) ∧
    (∃ (s : State) (who : Fin 18) (sl : Fin 32) (v : Word), CanWrite s who.val .SCC_OPS_CMD sl.val 0 (withBits v.toNat [(F.SCC_OPS_CMD_OP,
      2)]) [F.SCC_OPS_CMD_OP, F.SCC_OPS_CMD_SCOPE, F.SCC_OPS_CMD_ODOM, F.SCC_OPS_CMD_OWAYS] ∧ F.SCC_OPS_CMD_SCOPE.val v.toNat ≠ 3 ∧
      (F.SCC_OPS_CMD_SCOPE.val v.toNat = 2 → F.SCC_OPS_CMD_OWAYS.val v.toNat ≠ 0) ∧ (s.sstate sl.val = ssOn ∨ s.sstate sl.val = ssDrain) ∧
      SMap.get? s.scc.op sl.val = none) ∧
    (∃ (s : State) (who : Fin 18) (sl : Fin 32) (v : Word), CanWrite s who.val .SCC_OPS_CMD sl.val 0 (withBits v.toNat [(F.SCC_OPS_CMD_OP,
      2)]) [F.SCC_OPS_CMD_OP, F.SCC_OPS_CMD_SCOPE, F.SCC_OPS_CMD_ODOM, F.SCC_OPS_CMD_OWAYS] ∧ F.SCC_OPS_CMD_SCOPE.val v.toNat ≠ 3 ∧
      (F.SCC_OPS_CMD_SCOPE.val v.toNat = 2 → F.SCC_OPS_CMD_OWAYS.val v.toNat ≠ 0) ∧ (s.sstate sl.val = ssOn ∨ s.sstate sl.val = ssDrain) ∧
      (SMap.get? s.scc.op sl.val).isSome = true) ∧
    (∃ (s : State) (who : Fin 18) (sl : Fin 32) (v : Word), CanWrite s who.val .SCC_CTL sl.val 0 (withBits v.toNat [(F.SCC_CTL_WT, 1)]) [F.SCC_CTL_WT,
      F.SCC_CTL_BYPASS] ∧ s.on F.SCC_CTL_WT sl.val = false ∧ (F.SCC_CTL_BYPASS.hit v.toNat = s.on F.SCC_CTL_BYPASS sl.val) ∧
      s.on F.SCC_STAT_SFAULT sl.val = false ∧ SMap.get? s.scc.op sl.val = none ∧ s.sstate sl.val = ssOn) ∧
    (∃ (s : State) (who : Fin 18) (sl : Fin 32) (v : Word), CanWrite s who.val .SCC_CTL sl.val 0 v.toNat [F.SCC_CTL_WT, F.SCC_CTL_BYPASS] ∧
      F.SCC_CTL_WT.hit v.toNat = false ∧ F.SCC_CTL_BYPASS.hit v.toNat = true ∧ s.on F.SCC_CTL_BYPASS sl.val = false ∧ s.sstate sl.val = ssOn) ∧
    (∃ (s : State) (who : Fin 18) (sl : Fin 32) (v : Word), CanWrite s who.val .SCC_CTL sl.val 0 v.toNat [F.SCC_CTL_WT, F.SCC_CTL_BYPASS] ∧
      F.SCC_CTL_WT.hit v.toNat = false ∧ F.SCC_CTL_BYPASS.hit v.toNat = false ∧ s.on F.SCC_CTL_BYPASS sl.val = true ∧
      s.on F.SCC_STAT_SFAULT sl.val = false ∧ s.sstate sl.val = ssBypass ∧ (s.fstate ≠ fDone ∨ s.rd F.TSV_FOLD_STAT_FOLDED_CH ≠ sl.val)) ∧
    (∃ (s : State) (who : Fin 18) (sl : Fin 32) (v : Word), CanWrite s who.val .SCC_CTL sl.val 0 v.toNat [F.SCC_CTL_WT, F.SCC_CTL_BYPASS] ∧
      F.SCC_CTL_WT.hit v.toNat = false ∧ F.SCC_CTL_BYPASS.hit v.toNat = false ∧ (s.on F.SCC_STAT_SFAULT sl.val = true ∨ s.sstate sl.val = ssDrain)) ∧
    (∃ (s : State) (who : Fin 18) (sl : Fin 32) (v : Word), CanWrite s who.val .SCC_WAYS sl.val 0 v.toNat [F.SCC_WAYS_WAY_DIS]) ∧
    (∃ (s : State) (who : Fin 18) (sl : Fin 32) (v : Word), CanWrite s who.val .SCC_CTL sl.val 0 (withBits v.toNat [(F.SCC_CTL_CNT_CLR,
      1)]) [F.SCC_CTL_CNT_CLR, F.SCC_CTL_WT, F.SCC_CTL_BYPASS] ∧ F.SCC_CTL_WT.hit v.toNat = false ∧
      F.SCC_CTL_BYPASS.hit v.toNat = s.on F.SCC_CTL_BYPASS sl.val ∧ (F.SCC_CTL_BYPASS.hit v.toNat = true ∨ s.on F.SCC_STAT_SFAULT sl.val = false ∧
      s.sstate sl.val ≠ ssDrain)) :=
  ⟨⟨up, 0, 31, BitVec.ofNat 32 (baseWord up .SCC_OPS_CMD 0 0), by unfold CanWrite WriteReady WriteOpen MayWrite; decide +kernel⟩,
   ⟨{ up with scc.op := [(31, sliceOpOf 1 0 0 0)] }, 0, 31, BitVec.ofNat 32 (baseWord up .SCC_OPS_CMD 0 0),
    by unfold CanWrite WriteReady WriteOpen MayWrite; decide +kernel⟩,
   ⟨up, 0, 31, BitVec.ofNat 32 (baseWord up .SCC_OPS_CMD 0 0), by unfold CanWrite WriteReady WriteOpen MayWrite; decide +kernel⟩,
   ⟨{ up with scc.op := [(31, sliceOpOf 1 0 0 0)] }, 0, 31, BitVec.ofNat 32 (baseWord up .SCC_OPS_CMD 0 0),
    by unfold CanWrite WriteReady WriteOpen MayWrite; decide +kernel⟩,
   ⟨up, 0, 31, BitVec.ofNat 32 (baseWord up .SCC_CTL 0 0), by unfold CanWrite WriteReady WriteOpen MayWrite; decide +kernel⟩,
   ⟨up, 0, 31, BitVec.ofNat 32 (withBits (baseWord (up) .SCC_CTL 0 0) [(F.SCC_CTL_BYPASS, 1)]),
    by unfold CanWrite WriteReady WriteOpen MayWrite; decide +kernel⟩,
   ⟨(up.wr F.SCC_CTL_BYPASS 1 31).wr F.SCC_STAT_SSTATE ssBypass 31, 0, 31, BitVec.ofNat 32 (withBits (baseWord (up) .SCC_CTL 0 0) [(F.SCC_CTL_BYPASS,
    0)]), by unfold CanWrite WriteReady WriteOpen MayWrite; decide +kernel⟩,
   ⟨(up.wr F.SCC_CTL_BYPASS 1 31).wr F.SCC_STAT_SFAULT 1 31, 0, 31, BitVec.ofNat 32 (baseWord up .SCC_CTL 0 0),
    by unfold CanWrite WriteReady WriteOpen MayWrite; decide +kernel⟩,
   ⟨up, 0, 0, BitVec.ofNat 32 (baseWord up .SCC_WAYS 0 0), by unfold CanWrite WriteReady WriteOpen MayWrite; decide +kernel⟩,
   ⟨up, 0, 0, BitVec.ofNat 32 (baseWord up .SCC_CTL 0 0), by unfold CanWrite WriteReady WriteOpen MayWrite; decide +kernel⟩⟩

theorem witness_memory_unit_writes :
    (∃ (s : State) (who : Fin 18) (ch : Fin 32) (v : Word), CanWrite s who.val .DMC_CTL ch.val 0 (withBits v.toNat [(F.DMC_CTL_CH_RST,
      1)]) [F.DMC_CTL_CH_RST] ∧ s.cstate ch.val = 2 ∧ s.pck.pow = .powerFail) ∧
    (∃ (s : State) (who : Fin 18) (ch : Fin 32) (v : Word), CanWrite s who.val .DMC_CTL ch.val 0 (withBits v.toNat [(F.DMC_CTL_CH_RST,
      1)]) [F.DMC_CTL_CH_RST] ∧ s.cstate ch.val = 2 ∧ s.pck.pow ≠ .powerFail) ∧
    (∃ (s : State) (who : Fin 18) (ch : Fin 32) (v : Word), CanWrite s who.val .DMC_CTL ch.val 0 (withBits v.toNat [(F.DMC_CTL_CH_RST,
      1)]) [F.DMC_CTL_CH_RST] ∧ s.cstate ch.val ≠ 2) ∧
    (∃ (s : State) (who : Fin 18) (ch : Fin 32) (v : Word), CanWrite s who.val .DMC_TRAIN_CTL ch.val 0 (withBits v.toNat [(F.DMC_TRAIN_CTL_TRAIN_GO,
      1)]) [F.DMC_TRAIN_CTL_TRAIN_GO] ∧ s.on F.MGT_QUIESCE_WE_STACK = true ∧ s.cstate ch.val = 2) ∧
    (∃ (s : State) (who : Fin 18) (ch : Fin 32) (v : Word), CanWrite s who.val .DMC_CTL ch.val 0 (withBits v.toNat [(F.DMC_CTL_CNT_CLR,
      1)]) [F.DMC_CTL_CNT_CLR, F.DMC_CTL_CH_RST] ∧ F.DMC_CTL_CH_RST.hit v.toNat = false) ∧
    (∃ (s : State) (who : Fin 18) (v : Word), CanWrite s who.val .RFM_CTL 0 0 v.toNat [F.RFM_CTL_ST_THR] ∧
      F.RFM_CTL_ST_THR.val v.toNat ≠ s.rd F.RFM_CTL_ST_THR) ∧
    (∃ (s : State) (who : Fin 18) (v : Word), CanWrite s who.val .RFM_CTL 0 0 (withBits v.toNat [(F.RFM_CTL_CNT_CLR, 1)]) [F.RFM_CTL_CNT_CLR]) ∧
    (∃ (s : State) (who : Fin 18) (v : Word), CanWrite s who.val .DIP_INJ 0 0 (withBits v.toNat [(F.DIP_INJ_INJ_ARM, 1)]) [F.DIP_INJ_INJ_ARM,
      F.DIP_INJ_INJ_CH, F.DIP_INJ_INJ_POS1, F.DIP_INJ_INJ_POS2, F.DIP_INJ_INJ_BEAT] ∧ s.on F.DIP_INJ_INJ_ARMED = false) ∧
    (∃ (s : State) (who : Fin 18) (v : Word), CanWrite s who.val .DIP_INJ 0 0 (withBits v.toNat [(F.DIP_INJ_INJ_ARM, 1)]) [F.DIP_INJ_INJ_ARM,
      F.DIP_INJ_INJ_CH, F.DIP_INJ_INJ_POS1, F.DIP_INJ_INJ_POS2, F.DIP_INJ_INJ_BEAT] ∧ s.on F.DIP_INJ_INJ_ARMED = true) ∧
    (∃ (s : State) (who : Fin 18) (v : Word), CanWrite s who.val .DIP_LOG_POP 0 0 (withBits v.toNat [(F.DIP_LOG_POP_POP, 1)]) [F.DIP_LOG_POP_POP]) ∧
    (∃ (s : State) (who : Fin 18) (v : Word), CanWrite s who.val .DIP_CTL 0 0 (withBits v.toNat [(F.DIP_CTL_CNT_CLR, 1)]) [F.DIP_CTL_CNT_CLR]) :=
  ⟨⟨inPow .powerFail up, 0, 31, BitVec.ofNat 32 (baseWord up .DMC_CTL 0 0), by unfold CanWrite WriteReady WriteOpen MayWrite; decide +kernel⟩,
   ⟨up, 0, 31, BitVec.ofNat 32 (baseWord up .DMC_CTL 0 0), by unfold CanWrite WriteReady WriteOpen MayWrite; decide +kernel⟩,
   ⟨up.wr F.DMC_STAT_CSTATE 4 31, 0, 31, BitVec.ofNat 32 (baseWord up .DMC_CTL 0 0), by unfold CanWrite WriteReady WriteOpen MayWrite; decide +kernel⟩,
   ⟨up.wr F.MGT_QUIESCE_WE_STACK 1, 0, 31, BitVec.ofNat 32 (baseWord up .DMC_TRAIN_CTL 0 0),
    by unfold CanWrite WriteReady WriteOpen MayWrite; decide +kernel⟩,
   ⟨up, 0, 0, BitVec.ofNat 32 (baseWord up .DMC_CTL 0 0), by unfold CanWrite WriteReady WriteOpen MayWrite; decide +kernel⟩,
   ⟨up, 0, BitVec.ofNat 32 (withBits (baseWord (up) .RFM_CTL 0 0) [(F.RFM_CTL_ST_THR, 128)]),
    by unfold CanWrite WriteReady WriteOpen MayWrite; decide +kernel⟩,
   ⟨up, 0, BitVec.ofNat 32 (baseWord up .RFM_CTL 0 0), by unfold CanWrite WriteReady WriteOpen MayWrite; decide +kernel⟩,
   ⟨up, 0, BitVec.ofNat 32 (baseWord up .DIP_INJ 0 0), by unfold CanWrite WriteReady WriteOpen MayWrite; decide +kernel⟩,
   ⟨up.wr F.DIP_INJ_INJ_ARMED 1, 0, BitVec.ofNat 32 (baseWord up .DIP_INJ 0 0), by unfold CanWrite WriteReady WriteOpen MayWrite; decide +kernel⟩,
   ⟨up, 0, BitVec.ofNat 32 (baseWord up .DIP_LOG_POP 0 0), by unfold CanWrite WriteReady WriteOpen MayWrite; decide +kernel⟩,
   ⟨up, 0, BitVec.ofNat 32 (baseWord up .DIP_CTL 0 0), by unfold CanWrite WriteReady WriteOpen MayWrite; decide +kernel⟩⟩

theorem witness_tier_register_writes :
    (∃ (s : State) (who : Fin 18) (ch : Fin 32) (v : Word), CanWrite s who.val .TSV_CTL ch.val 0 (withBits v.toNat [(F.TSV_CTL_KILL,
      1)]) [F.TSV_CTL_KILL, F.TSV_CTL_KILL_PHY] ∧ bit (phyDead s ch.val) (F.TSV_CTL_KILL_PHY.val v.toNat) = false ∧
      F.TSV_CTL_KILL_PHY.val v.toNat < 84) ∧
    (∃ (s : State) (who : Fin 18) (ch : Fin 32) (v : Word), CanWrite s who.val .TSV_CTL ch.val 0 (withBits v.toNat [(F.TSV_CTL_KILL,
      1)]) [F.TSV_CTL_KILL, F.TSV_CTL_KILL_PHY] ∧ bit (phyDead s ch.val) (F.TSV_CTL_KILL_PHY.val v.toNat) = true) ∧
    (∃ (s : State) (who : Fin 18) (ch : Fin 32) (v : Word), CanWrite s who.val .TSV_RPR_CTL ch.val 0 (withBits v.toNat [(F.TSV_RPR_CTL_RPR_GO,
      1)]) [F.TSV_RPR_CTL_RPR_GO, F.TSV_RPR_CTL_RPR_RANK, F.TSV_RPR_CTL_RPR_BANK, F.TSV_RPR_CTL_RPR_ROW] ∧ tstate s ch.val < 5 ∧
      foldSource s ch.val = false ∧
      rprKnown s ch.val (F.TSV_RPR_CTL_RPR_RANK.val v.toNat * 32 + F.TSV_RPR_CTL_RPR_BANK.val v.toNat) (F.TSV_RPR_CTL_RPR_ROW.val v.toNat) = false ∧
      (s.tsv.rprQ.filter (·.1 == ch.val)).length < 8) ∧
    (∃ (s : State) (who : Fin 18) (ch : Fin 32) (v : Word), CanWrite s who.val .TSV_RPR_CTL ch.val 0 (withBits v.toNat [(F.TSV_RPR_CTL_RPR_GO,
      1)]) [F.TSV_RPR_CTL_RPR_GO, F.TSV_RPR_CTL_RPR_RANK, F.TSV_RPR_CTL_RPR_BANK, F.TSV_RPR_CTL_RPR_ROW] ∧ tstate s ch.val < 5 ∧
      foldSource s ch.val = false ∧
      rprKnown s ch.val (F.TSV_RPR_CTL_RPR_RANK.val v.toNat * 32 + F.TSV_RPR_CTL_RPR_BANK.val v.toNat) (F.TSV_RPR_CTL_RPR_ROW.val v.toNat) = false ∧
      8 ≤ (s.tsv.rprQ.filter (·.1 == ch.val)).length) ∧
    (∃ (s : State) (who : Fin 18) (v : Word), CanWrite s who.val .TSV_FOLD_CTL 0 0 (withBits v.toNat [(F.TSV_FOLD_CTL_FOLD_GO,
      1)]) [F.TSV_FOLD_CTL_FOLD_GO, F.TSV_FOLD_CTL_FOLD_CH, F.TSV_FOLD_CTL_FR_MODE, F.TSV_FOLD_CTL_FOLD_AUTO] ∧
      F.TSV_FOLD_CTL_FR_MODE.hit v.toNat = true ∧ s.on F.TSV_FOLD_CTL_FR_MODE = true ∧
      F.TSV_FOLD_CTL_FOLD_AUTO.val v.toNat = s.rd F.TSV_FOLD_CTL_FOLD_AUTO ∧ (∀ (n : Nat),
      n < 64 → s.on F.RQE_RGN_A_EN n = true → regionEnd s n (s.rd F.RQE_RGN_B_PBASE n) ≤ 0xF7FF) ∧ s.fstate = fReady ∧
      s.cstate (F.TSV_FOLD_CTL_FOLD_CH.val v.toNat) ≠ 0) ∧
    (∃ (s : State) (who : Fin 18) (v : Word), CanWrite s who.val .TSV_FOLD_CTL 0 0 (withBits v.toNat [(F.TSV_FOLD_CTL_FOLD_GO,
      1)]) [F.TSV_FOLD_CTL_FOLD_GO, F.TSV_FOLD_CTL_FOLD_CH, F.TSV_FOLD_CTL_FR_MODE, F.TSV_FOLD_CTL_FOLD_AUTO] ∧
      F.TSV_FOLD_CTL_FR_MODE.hit v.toNat = true ∧ s.on F.TSV_FOLD_CTL_FR_MODE = true ∧
      F.TSV_FOLD_CTL_FOLD_AUTO.val v.toNat = s.rd F.TSV_FOLD_CTL_FOLD_AUTO ∧ (∀ (n : Nat),
      n < 64 → s.on F.RQE_RGN_A_EN n = true → regionEnd s n (s.rd F.RQE_RGN_B_PBASE n) ≤ 0xF7FF) ∧ s.fstate ≠ fReady) ∧
    (∃ (s : State) (who : Fin 18) (ch : Fin 32) (v : Word), CanWrite s who.val .TSV_CTL ch.val 0 (withBits v.toNat [(F.TSV_CTL_CNT_CLR,
      1)]) [F.TSV_CTL_CNT_CLR, F.TSV_CTL_KILL] ∧ F.TSV_CTL_KILL.hit v.toNat = false) :=
  ⟨⟨up, 0, 0, BitVec.ofNat 32 (baseWord up .TSV_CTL 0 0), by unfold CanWrite WriteReady WriteOpen MayWrite; decide +kernel⟩,
   ⟨served.wr F.TSV_PHY_DEAD2_PHY_DEAD (2 ^ 19) 31, 0, 31, BitVec.ofNat 32 (withBits (baseWord (up) .TSV_CTL 0 0) [(F.TSV_CTL_KILL_PHY, 83)]),
    by unfold CanWrite WriteReady WriteOpen MayWrite; decide +kernel⟩,
   ⟨up, 0, 31, BitVec.ofNat 32 (baseWord up .TSV_RPR_CTL 0 0), by unfold CanWrite WriteReady WriteOpen MayWrite; decide +kernel⟩,
   ⟨{ up with tsv.rprQ := (List.range 8).map fun r => (31, 0, r + 1) }, 0, 31, BitVec.ofNat 32 (baseWord up .TSV_RPR_CTL 0 0),
    by unfold CanWrite WriteReady WriteOpen MayWrite; decide +kernel⟩,
   ⟨(up.wr F.TSV_FOLD_CTL_FR_MODE 1).wr F.TSV_FOLD_STAT_FSTATE fReady, 0,
    BitVec.ofNat 32 (withBits (baseWord (up) .TSV_FOLD_CTL 0 0) [(F.TSV_FOLD_CTL_FR_MODE, 1), (F.TSV_FOLD_CTL_FOLD_CH, 31)]),
    by unfold CanWrite WriteReady WriteOpen MayWrite; decide +kernel⟩,
   ⟨up.wr F.TSV_FOLD_CTL_FR_MODE 1, 0, BitVec.ofNat 32 (withBits (baseWord (up) .TSV_FOLD_CTL 0 0) [(F.TSV_FOLD_CTL_FR_MODE, 1),
    (F.TSV_FOLD_CTL_FOLD_CH, 31)]), by unfold CanWrite WriteReady WriteOpen MayWrite; decide +kernel⟩,
   ⟨up, 0, 0, BitVec.ofNat 32 (baseWord up .TSV_CTL 0 0), by unfold CanWrite WriteReady WriteOpen MayWrite; decide +kernel⟩⟩

theorem witness_management_register_writes :
    (∃ (s : State) (who : Fin 18) (v : Word), CanWrite s who.val .MGT_CTL 0 0 (withBits v.toNat [(F.MGT_CTL_TAKE, 1)]) [F.MGT_CTL_TAKE,
      F.MGT_CTL_STBY_EN] ∧ s.on F.MGT_CTL_STBY_EN = true ∧ F.MGT_CTL_STBY_EN.hit v.toNat = false) ∧
    (∃ (s : State) (who : Fin 18) (v : Word), CanWrite s who.val .MGT_CTL 0 0 (withBits v.toNat [(F.MGT_CTL_TAKE, 1)]) [F.MGT_CTL_TAKE,
      F.MGT_CTL_STBY_EN] ∧ coreState s (!activeCore s) = 3 ∧ inHand s = false ∧
      (s.on F.MGT_CTL_STBY_EN = false ∨ F.MGT_CTL_STBY_EN.hit v.toNat = true)) ∧
    (∃ (s : State) (who : Fin 18) (v : Word), CanWrite s who.val .MGT_CTL 0 0 (withBits v.toNat [(F.MGT_CTL_TAKE, 1)]) [F.MGT_CTL_TAKE,
      F.MGT_CTL_STBY_EN] ∧ coreState s (!activeCore s) ≠ 3) ∧
    (∃ (s : State) (b : Bool), b = activeCore s ∧ CanWrite s 17 .MGT_HEART 0 0 1 [F.MGT_HEART_BEAT]) ∧
    (∃ (s : State) (b : Bool), b ≠ activeCore s ∧ regsOpen s = true ∧ (coreState s b = 3 ∨ coreState s b = 4)) ∧
    (∃ (s : State) (who : Fin 18) (m : Fin 17) (v : Word), m.val < 16 ∧ CanWrite s who.val .MBX_DB m.val 0 v.toNat [F.MBX_DB_DB_SEQ] ∧
      mstate s m.val = 1 ∧ (F.MBX_DB_DB_SEQ.val v.toNat = expSeq s m.val ∨ cmdOpcode s m.val = 0x0100)) ∧
    (∃ (s : State) (who : Fin 18) (m : Fin 17) (v : Word), m.val < 16 ∧ CanWrite s who.val .MBX_DB m.val 0 v.toNat [F.MBX_DB_DB_SEQ] ∧ mstate s m.val = 2) ∧
    (∃ (s : State) (who : Fin 18) (v : Word), CanWrite s who.val .MBXS_DB 0 0 v.toNat [F.MBXS_DB_DB_SEQ] ∧ mstate s 16 = 1 ∧
      (F.MBXS_DB_DB_SEQ.val v.toNat = expSeq s 16 ∨ cmdOpcode s 16 = 0x0100)) ∧
    (∃ (s : State) (who : Fin 18) (m : Fin 17) (v : Word), m.val < 16 ∧ CanWrite s who.val .MBX_DATA m.val 0 v.toNat [F.MBX_DATA_MDATA] ∧
      s.on F.MBX_PTR_MBUF m.val = false ∧ mstate s m.val ≠ 2) ∧
    (∃ (s : State) (who : Fin 18) (m : Fin 17), m.val < 16 ∧ CanRead s who.val .MBX_DATA m.val 0 [F.MBX_DATA_MDATA]) ∧
    (∃ (s : State) (who : Fin 18) (v : Word), CanWrite s who.val .MGT_QUIESCE 0 0 v.toNat [F.MGT_QUIESCE_WE_STACK] ∧
      F.MGT_QUIESCE_WE_STACK.hit v.toNat = true) ∧
    (∃ (s : State) (who : Fin 18) (v : Word), CanWrite s who.val .MGT_QUIESCE 0 0 v.toNat [F.MGT_QUIESCE_WE_STACK] ∧
      F.MGT_QUIESCE_WE_STACK.hit v.toNat = false ∧ (∀ (g : Nat), g < 16 → SMap.getD s.rqe.waiting g [] = [])) :=
  ⟨⟨up.wr F.MGT_CTL_STBY_EN 1, 0, BitVec.ofNat 32 (withBits (baseWord (up) .MGT_CTL 0 0) [(F.MGT_CTL_STBY_EN, 0)]),
    by unfold CanWrite WriteReady WriteOpen MayWrite; decide +kernel⟩,
   ⟨up, 0, BitVec.ofNat 32 (baseWord up .MGT_CTL 0 0), by unfold CanWrite WriteReady WriteOpen MayWrite; decide +kernel⟩,
   ⟨up.wr F.MGT_STAT_B_STATE 0, 0, BitVec.ofNat 32 (baseWord up .MGT_CTL 0 0), by unfold CanWrite WriteReady WriteOpen MayWrite; decide +kernel⟩,
   ⟨up, false, by unfold CanWrite WriteReady WriteOpen MayWrite; decide +kernel⟩,
   ⟨up, true, by decide +kernel⟩,
   ⟨setMstate up 15 1, 15, 15, BitVec.ofNat 32 (baseWord up .MBX_DB 0 0), by unfold CanWrite WriteReady WriteOpen MayWrite; decide +kernel⟩,
   ⟨setMstate up 15 2, 15, 15, BitVec.ofNat 32 (baseWord up .MBX_DB 0 0), by unfold CanWrite WriteReady WriteOpen MayWrite; decide +kernel⟩,
   ⟨{ setMstate up 16 1 with mgt.auth := true }, 16, BitVec.ofNat 32 (baseWord up .MBXS_DB 0 0),
    by unfold CanWrite WriteReady WriteOpen MayWrite; decide +kernel⟩,
   ⟨up, 0, 0, BitVec.ofNat 32 (baseWord up .MBX_DATA 0 0), by unfold CanWrite WriteReady WriteOpen MayWrite; decide +kernel⟩,
   ⟨up, 0, 0, by unfold CanRead; decide +kernel⟩,
   ⟨up, 0, BitVec.ofNat 32 1, by unfold CanWrite WriteReady WriteOpen MayWrite; decide +kernel⟩,
   ⟨up.wr F.MGT_QUIESCE_WE_STACK 1, 0, 0, by unfold CanWrite WriteReady WriteOpen MayWrite; decide +kernel⟩⟩

theorem witness_global_register_writes :
    (∃ (s : State) (who : Fin 18) (v : Word), CanWrite s who.val .GLB_CTL 0 0 (withBits v.toNat [(F.GLB_CTL_WRST, 1)]) [F.GLB_CTL_WRST] ∧
      s.pck.wrstDue = none) ∧
    (∃ (s : State) (who : Fin 18) (v : Word) (lo : Nat), CanWrite s who.val .GLB_SCRATCH_HI 0 0 v.toNat [F.GLB_SCRATCH_HI_SCR_HI] ∧
      SMap.get? s.glb.latch who.val = some lo) ∧
    (∃ (s : State) (who : Fin 18) (v : Word) (k : Nat), CanWrite s who.val .GLB_PLOCK 0 0 v.toNat [F.GLB_PLOCK_PLOCK] ∧
      s.wearAt (pregIdx 5) < wearLimit ∧ s.pst.only = false ∧ k < 8 ∧ bit (F.GLB_PLOCK_PLOCK.val v.toNat) k = true ∧
      bit (s.rd F.GLB_PLOCK_PLOCK) k = false) ∧
    (∃ (s : State) (who : Fin 18) (v : Word), CanWrite s who.val .GLB_PLOCK 0 0 v.toNat [F.GLB_PLOCK_PLOCK] ∧ s.wearAt (pregIdx 5) < wearLimit ∧
      s.pst.only = false ∧ (∀ (k : Nat), k < 8 → bit (F.GLB_PLOCK_PLOCK.val v.toNat) k = true → bit (s.rd F.GLB_PLOCK_PLOCK) k = true)) ∧
    (∃ (s : State) (who : Fin 18) (v : Word), CanWrite s who.val .GLB_PLOCK_CLR 0 0 v.toNat [F.GLB_PLOCK_CLR_PUNLOCK] ∧
      s.wearAt (pregIdx 5) < wearLimit ∧ s.pst.only = false ∧ Nat.land (s.rd F.GLB_PLOCK_PLOCK) (F.GLB_PLOCK_CLR_PUNLOCK.val v.toNat) ≠ 0) ∧
    (∃ (s : State) (who : Fin 18) (v : Word), CanWrite s who.val .FCR_CTL 0 0 (withBits v.toNat [(F.FCR_CTL_CNT_CLR, 1)]) [F.FCR_CTL_CNT_CLR]) ∧
    (∃ (s : State) (who : Fin 18) (v : Word), CanWrite s who.val .FCR_FF_CLR 0 0 (withBits v.toNat [(F.FCR_FF_CLR_FF_CLR, 1)]) [F.FCR_FF_CLR_FF_CLR] ∧
      s.rd F.FCR_STAT_XSTATE ≠ 1) ∧
    (∃ (s : State) (who : Fin 18) (v : Word), CanWrite s who.val .FCR_FF_CLR 0 0 (withBits v.toNat [(F.FCR_FF_CLR_FF_CLR, 1)]) [F.FCR_FF_CLR_FF_CLR] ∧
      s.rd F.FCR_STAT_XSTATE = 1) ∧
    (∃ (s : State) (who : Fin 18) (v : Word), CanWrite s who.val .FCR_RAISE 0 0 (withBits v.toNat [(F.FCR_RAISE_RAISE_GO, 1)]) [F.FCR_RAISE_RAISE_GO,
      F.FCR_RAISE_RAISE_SRC, F.FCR_RAISE_RAISE_SEV] ∧ F.FCR_RAISE_RAISE_SRC.val v.toNat ≤ 286 ∧
      reaches (sevOf (F.FCR_RAISE_RAISE_SEV.val v.toNat)) (s.rd F.FCR_SRC_ALERT_MIN (F.FCR_RAISE_RAISE_SRC.val v.toNat)) = true) ∧
    (∃ (s : State) (who : Fin 18) (v : Word), CanWrite s who.val .FCR_RAISE 0 0 (withBits v.toNat [(F.FCR_RAISE_RAISE_GO, 1)]) [F.FCR_RAISE_RAISE_GO,
      F.FCR_RAISE_RAISE_SRC, F.FCR_RAISE_RAISE_SEV] ∧ F.FCR_RAISE_RAISE_SRC.val v.toNat ≤ 286 ∧
      grave (sevOf (F.FCR_RAISE_RAISE_SEV.val v.toNat)) = true) ∧
    (∃ (s : State) (who : Fin 18) (v : Word), CanWrite s who.val .FCR_ALERT 0 0 (withBits v.toNat [(F.FCR_ALERT_ALERT, 1)]) [F.FCR_ALERT_ALERT]) :=
  ⟨⟨up, 0, BitVec.ofNat 32 (baseWord up .GLB_CTL 0 0), by unfold CanWrite WriteReady WriteOpen MayWrite; decide +kernel⟩,
   ⟨{ up with glb.latch := [(0, 9)] }, 0, BitVec.ofNat 32 (baseWord up .GLB_SCRATCH_HI 0 0), 9,
    by unfold CanWrite WriteReady WriteOpen MayWrite; decide +kernel⟩,
   ⟨up, 0, 0x80, 7, by unfold CanWrite WriteReady WriteOpen MayWrite; decide +kernel⟩,
   ⟨up.wr F.GLB_PLOCK_PLOCK 1, 0, 1, by unfold CanWrite WriteReady WriteOpen MayWrite; decide +kernel⟩,
   ⟨{ up.wr F.GLB_PLOCK_PLOCK 0x80 with mgt.auth := true }, 16, 0x80, by unfold CanWrite WriteReady WriteOpen MayWrite; decide +kernel⟩,
   ⟨up, 0, BitVec.ofNat 32 (baseWord up .FCR_CTL 0 0), by unfold CanWrite WriteReady WriteOpen MayWrite; decide +kernel⟩,
   ⟨up, 0, BitVec.ofNat 32 (baseWord up .FCR_FF_CLR 0 0), by unfold CanWrite WriteReady WriteOpen MayWrite; decide +kernel⟩,
   ⟨up.wr F.FCR_STAT_XSTATE 1, 0, BitVec.ofNat 32 (baseWord up .FCR_FF_CLR 0 0), by unfold CanWrite WriteReady WriteOpen MayWrite; decide +kernel⟩,
   ⟨up, 0, BitVec.ofNat 32 (withBits (baseWord (up) .FCR_RAISE 0 0) [(F.FCR_RAISE_RAISE_SRC, 286), (F.FCR_RAISE_RAISE_SEV, 4)]),
    by unfold CanWrite WriteReady WriteOpen MayWrite; decide +kernel⟩,
   ⟨up, 0, BitVec.ofNat 32 (withBits (baseWord (up) .FCR_RAISE 0 0) [(F.FCR_RAISE_RAISE_SRC, 286), (F.FCR_RAISE_RAISE_SEV, 4)]),
    by unfold CanWrite WriteReady WriteOpen MayWrite; decide +kernel⟩,
   ⟨up, 0, BitVec.ofNat 32 (baseWord up .FCR_ALERT 0 0), by unfold CanWrite WriteReady WriteOpen MayWrite; decide +kernel⟩⟩

theorem witness_power_and_service_writes :
    (∃ (s : State) (who : Fin 18) (v : Word), CanWrite s who.val .CST_CAL_CTL 0 0 (withBits v.toNat [(F.CST_CAL_CTL_CAL_GO, 1)]) [F.CST_CAL_CTL_CAL_GO,
      F.CST_CAL_CTL_RUN_MASK] ∧ s.pck.pow = .run ∧ s.cst.run = none) ∧
    (∃ (s : State) (who : Fin 18) (v : Word), CanWrite s who.val .CST_CAL_CTL 0 0 (withBits v.toNat [(F.CST_CAL_CTL_CAL_GO, 1)]) [F.CST_CAL_CTL_CAL_GO,
      F.CST_CAL_CTL_RUN_MASK] ∧ s.pck.pow = .run ∧ s.cst.run.isSome = true) ∧
    (∃ (s : State) (who : Fin 18) (v : Word), CanWrite s who.val .CST_CAL_CTL 0 0 (withBits v.toNat [(F.CST_CAL_CTL_CAL_GO, 1)]) [F.CST_CAL_CTL_CAL_GO,
      F.CST_CAL_CTL_RUN_MASK] ∧ s.pck.pow ≠ .run) ∧
    (∃ (s : State) (who : Fin 18) (v : Word), CanWrite s who.val .PCK_MODE 0 0 v.toNat [F.PCK_MODE_MODE] ∧ s.pck.commit.isSome = true) ∧
    (∃ (s : State) (who : Fin 18) (v : Word), CanWrite s who.val .PCK_MODE 0 0 v.toNat [F.PCK_MODE_MODE] ∧ s.pck.commit = none) ∧
    (∃ (s : State) (who : Fin 18) (v : Word), CanWrite s who.val .PCK_CLK 0 0 (withBits v.toNat [(F.PCK_CLK_MCK_SEL, 1)]) [F.PCK_CLK_MCK_SEL] ∧
      s.on F.PCK_CLK_MCK_LOCK = true) ∧
    (∃ (s : State) (who : Fin 18) (v : Word), CanWrite s who.val .PCK_CLK 0 0 (withBits v.toNat [(F.PCK_CLK_MCK_SEL, 1)]) [F.PCK_CLK_MCK_SEL] ∧
      s.on F.PCK_CLK_MCK_LOCK = false) ∧
    (∃ (s : State) (who : Fin 18) (d : Fin 16) (v : Word), CanWrite s who.val .PCK_VOTE d.val 0 v.toNat [F.PCK_VOTE_NOSLEEP]) ∧
    (∃ (s : State) (who : Fin 18) (v : Word), CanWrite s who.val .PCK_CTL 0 0 (withBits v.toNat [(F.PCK_CTL_CNT_CLR, 1)]) [F.PCK_CTL_CNT_CLR]) ∧
    (∃ (s : State) (who : Fin 18) (v : Word), CanWrite s who.val .THM_CTL 0 0 (withBits v.toNat [(F.THM_CTL_CNT_CLR, 1)]) [F.THM_CTL_CNT_CLR]) ∧
    (∃ (s : State) (who : Fin 18) (v : Word), CanWrite s who.val .SVC_CTL 0 0 v.toNat [F.SVC_CTL_SVC_EN] ∧ s.on F.SVC_CTL_SVC_EN = true ∧
      F.SVC_CTL_SVC_EN.hit v.toNat = false) ∧
    (∃ (s : State) (who : Fin 18) (v : Word), CanWrite s who.val .SVC_CTL 0 0 (withBits v.toNat [(F.SVC_CTL_DEAUTH, 1)]) [F.SVC_CTL_DEAUTH,
      F.SVC_CTL_SVC_EN] ∧ s.mgt.auth = true) ∧
    (∃ (s : State) (who : Fin 18) (v : Word), CanWrite s who.val .SVC_DRN_CTL 0 0 (withBits v.toNat [(F.SVC_DRN_CTL_DRN_GO, 1)]) [F.SVC_DRN_CTL_DRN_GO,
      F.SVC_DRN_CTL_DRN_OP, F.SVC_DRN_CTL_DRN_ABORT] ∧ F.SVC_DRN_CTL_DRN_ABORT.hit v.toNat = false ∧
      drnAddr s + 4096 * s.rd F.SVC_DRN_LEN_DRN_LEN ≤ devLimit s ∧ s.rd F.SVC_DRN_LEN_DRN_LEN ≠ 0 ∧ s.on F.SVC_STAT_MEM_RDY = true ∧
      (s.pck.pow = .run ∨ s.pck.pow = .idle) ∧ s.on F.SVC_DRN_STAT_DRN_BUSY = false) ∧
    (∃ (s : State) (who : Fin 18) (v : Word), CanWrite s who.val .SVC_DRN_CTL 0 0 (withBits v.toNat [(F.SVC_DRN_CTL_DRN_GO, 1)]) [F.SVC_DRN_CTL_DRN_GO,
      F.SVC_DRN_CTL_DRN_OP, F.SVC_DRN_CTL_DRN_ABORT] ∧ F.SVC_DRN_CTL_DRN_ABORT.hit v.toNat = false ∧
      drnAddr s + 4096 * s.rd F.SVC_DRN_LEN_DRN_LEN ≤ devLimit s ∧ s.rd F.SVC_DRN_LEN_DRN_LEN ≠ 0 ∧ s.on F.SVC_STAT_MEM_RDY = true ∧
      (s.pck.pow = .run ∨ s.pck.pow = .idle) ∧ s.on F.SVC_DRN_STAT_DRN_BUSY = true) ∧
    (∃ (s : State) (who : Fin 18) (v : Word), CanWrite s who.val .SVC_DRN_CTL 0 0 (withBits v.toNat [(F.SVC_DRN_CTL_DRN_ABORT,
      1)]) [F.SVC_DRN_CTL_DRN_ABORT, F.SVC_DRN_CTL_DRN_GO] ∧ F.SVC_DRN_CTL_DRN_GO.hit v.toNat = false ∧ s.svc.xfer.isSome = true) :=
  ⟨⟨up, 0, BitVec.ofNat 32 (baseWord up .CST_CAL_CTL 0 0), by unfold CanWrite WriteReady WriteOpen MayWrite; decide +kernel⟩,
   ⟨{ up with cst.run := some (1, none) }, 0, BitVec.ofNat 32 (withBits (baseWord (up) .CST_CAL_CTL 0 0) [(F.CST_CAL_CTL_RUN_MASK, 1)]),
    by unfold CanWrite WriteReady WriteOpen MayWrite; decide +kernel⟩,
   ⟨inPow .idle up, 0, BitVec.ofNat 32 (baseWord up .CST_CAL_CTL 0 0), by unfold CanWrite WriteReady WriteOpen MayWrite; decide +kernel⟩,
   ⟨{ up with pck.commit := some 1 }, 17, BitVec.ofNat 32 (baseWord up .PCK_MODE 0 0), by unfold CanWrite WriteReady WriteOpen MayWrite; decide +kernel⟩,
   ⟨up, 17, BitVec.ofNat 32 (baseWord up .PCK_MODE 0 0), by unfold CanWrite WriteReady WriteOpen MayWrite; decide +kernel⟩,
   ⟨up.wr F.PCK_CLK_MCK_LOCK 1, 17, BitVec.ofNat 32 (baseWord up .PCK_CLK 0 0), by unfold CanWrite WriteReady WriteOpen MayWrite; decide +kernel⟩,
   ⟨up, 17, BitVec.ofNat 32 (baseWord up .PCK_CLK 0 0), by unfold CanWrite WriteReady WriteOpen MayWrite; decide +kernel⟩,
   ⟨up, 0, 0, BitVec.ofNat 32 (baseWord up .PCK_VOTE 0 0), by unfold CanWrite WriteReady WriteOpen MayWrite; decide +kernel⟩,
   ⟨up, 0, BitVec.ofNat 32 (baseWord up .PCK_CTL 0 0), by unfold CanWrite WriteReady WriteOpen MayWrite; decide +kernel⟩,
   ⟨up, 0, BitVec.ofNat 32 (baseWord up .THM_CTL 0 0), by unfold CanWrite WriteReady WriteOpen MayWrite; decide +kernel⟩,
   ⟨up, 0, BitVec.ofNat 32 0, by unfold CanWrite WriteReady WriteOpen MayWrite; decide +kernel⟩,
   ⟨{ up with mgt.auth := true }, 16, BitVec.ofNat 32 (baseWord up .SVC_CTL 0 0), by unfold CanWrite WriteReady WriteOpen MayWrite; decide +kernel⟩,
   ⟨{ up.wr F.SVC_DRN_LEN_DRN_LEN 1 with mgt.auth := true }, 16, BitVec.ofNat 32 (baseWord up .SVC_DRN_CTL 0 0),
    by unfold CanWrite WriteReady WriteOpen MayWrite; decide +kernel⟩,
   ⟨{ (up.wr F.SVC_DRN_LEN_DRN_LEN 1).wr F.SVC_DRN_STAT_DRN_BUSY 1 with mgt.auth := true }, 16, BitVec.ofNat 32 (baseWord up .SVC_DRN_CTL 0 0),
    by unfold CanWrite WriteReady WriteOpen MayWrite; decide +kernel⟩,
   ⟨{ up with mgt.auth := true, svc.xfer := some { fill := false, addr := 0, left := 1 } }, 16, BitVec.ofNat 32 (baseWord up .SVC_DRN_CTL 0 0),
    by unfold CanWrite WriteReady WriteOpen MayWrite; decide +kernel⟩⟩

theorem witness_access_is_checked_whole_or_nothing :
    (∃ (s : State) (who : Fin 18) (off : BitVec 24), regsOpen s = true ∧ pregPending s who.val = false ∧ regAt off.toNat = none) ∧
    (∃ (s : State) (who : Fin 18) (off : BitVec 24) (r : RegId) (i : Nat) (j : Nat), regsOpen s = true ∧ pregPending s who.val = false ∧
      regAt off.toNat = some (r, i, j) ∧ r.info.flds.any (mayField (letters s r who.val (ownIdx r who.val i) true)) = false) ∧
    (∃ (s : State) (who : Fin 18) (off : BitVec 24) (v : Word) (r : RegId) (i : Nat) (j : Nat), regsOpen s = true ∧ pregPending s who.val = false ∧
      regAt off.toNat = some (r, i, j) ∧ r.info.flds.any (mayField (letters s r who.val (ownIdx r who.val i) true)) = true ∧
      (writeHook s who.val r i j v.toNat).1 ≠ .privilege ∧
      (r.info.flds.any fun f => mayField (letters s r who.val (ownIdx r who.val i) true) f && illegal f v.toNat) = true) ∧
    (∃ (s : State) (who : Fin 18) (off : BitVec 24) (v : Word) (r : RegId) (i : Nat) (j : Nat), regsOpen s = true ∧ pregPending s who.val = false ∧
      regAt off.toNat = some (r, i, j) ∧ r.info.flds.any (mayField (letters s r who.val (ownIdx r who.val i) true)) = true ∧
      (r.info.flds.any fun f => mayField (letters s r who.val (ownIdx r who.val i) true) f && illegal f v.toNat) = false ∧
      (writeHook s who.val r i j v.toNat).1 = .ok ∧
      inWindow s who.val r (ownIdx r who.val i) j (mayField (letters s r who.val (ownIdx r who.val i) true)) = false ∧
      pregLocked s r (ownIdx r who.val i) = false ∧ clockStopped s r (ownIdx r who.val i) = true) ∧
    (∃ (s : State) (who : Fin 18) (g : Fin 16) (v : Word), CanWrite s who.val .HLP_PAT_USER g.val 0 v.toNat [F.HLP_PAT_USER_PATTERN]) :=
  ⟨⟨up, 0, BitVec.ofNat 24 0x7FFFFFFF, by decide +kernel⟩,
   ⟨up, 1, BitVec.ofNat 24 (regOffset .RFM_CTL 0 0), .RFM_CTL, 0, 0, by decide +kernel⟩,
   ⟨up, 0, BitVec.ofNat 24 (regOffset .RFM_CTL 0 0), 0, .RFM_CTL, 0, 0, by decide +kernel⟩,
   ⟨inPow .sleep up, 0, BitVec.ofNat 24 (regOffset .RFM_BKLG 0 0), BitVec.ofNat 32 (withBits (baseWord (up) .RFM_BKLG 0 0) []), .RFM_BKLG, 0, 0,
    by decide +kernel⟩,
   ⟨up, 0, 0, BitVec.ofNat 32 (baseWord up .HLP_PAT_USER 0 0), by unfold CanWrite WriteReady WriteOpen MayWrite; decide +kernel⟩⟩

theorem witness_register_map_finds_every_register :
    (∃ (r : RegId) (i : Nat) (j : Nat) (b : Nat), r.info.lo1 ≤ i ∧ i < r.info.n1 ∧ j < r.info.n2 ∧ b < 4) :=
  ⟨.HLP_CTL, 0, 0, 0, by decide +kernel⟩

set_option maxRecDepth 100000 in
theorem witness_flits_are_checked_and_sequenced :
    (∃ (s : State) (g : Fin 16) (raw : List Byte), hears s g.val = true ∧ FecQuiet s g.val (slice raw 0 256) ∧
      ((flitFec (slice raw 0 256)).1 = none ∨ ∃ fl, (flitFec (slice raw 0 256)).1 = some fl ∧ flitCrcOk fl = false) ∧ (s.grp g.val).nakOut = false) ∧
    (∃ (s : State) (g : Fin 16) (raw : List Byte), hears s g.val = true ∧ FecQuiet s g.val (slice raw 0 256) ∧
      ((flitFec (slice raw 0 256)).1 = none ∨ ∃ fl, (flitFec (slice raw 0 256)).1 = some fl ∧ flitCrcOk fl = false) ∧ (s.grp g.val).nakOut = true) ∧
    (∃ (s : State) (g : Fin 16) (raw : List Byte) (fl : List Byte), hears s g.val = true ∧ FecQuiet s g.val (slice raw 0 256) ∧
      (flitFec (slice raw 0 256)).1 = some fl ∧ flitCrcOk fl = true ∧ bits (leAt fl 0 2) 2 4 = 1 ∧ bits (leAt fl 0 2) 6 10 = (s.grp g.val).rxExp ∧
      (s.grp g.val).needStart = false ∧ (s.grp g.val).partBuf = [] ∧ (fl.drop 2).take 242 = List.replicate 242 0xFF ∧ s.link.vc2Hold = []) ∧
    (∃ (s : State) (g : Fin 16) (raw : List Byte) (fl : List Byte), hears s g.val = true ∧ FecQuiet s g.val (slice raw 0 256) ∧
      (flitFec (slice raw 0 256)).1 = some fl ∧ flitCrcOk fl = true ∧ bits (leAt fl 0 2) 2 4 = 1 ∧ bits (leAt fl 0 2) 6 10 ≠ (s.grp g.val).rxExp) ∧
    (∃ (s : State) (g : Fin 16), hears s g.val = true ∧ (s.grp g.val).nakOut = true ∧ (s.grp g.val).nakCnt + 1 < s.rd F.HLL_CTL_NAK_LIMIT) ∧
    (∃ (s : State) (g : Fin 16), hears s g.val = true ∧ (s.grp g.val).nakOut = true ∧ s.rd F.HLL_CTL_NAK_LIMIT ≤ (s.grp g.val).nakCnt + 1) :=
  ⟨⟨up, 0, [], by unfold FecQuiet; decide +kernel⟩,
   ⟨withGrp 0 (fun x => { x with nakOut := true }) up, 0, (flitBytes 0 1 []).set 0 1 |>.set 2 1 |>.set 4 1, by unfold FecQuiet; decide +kernel⟩,
   ⟨up, 7, flitBytes 0 1 [], flitBytes 0 1 [], by unfold FecQuiet; decide +kernel⟩,
   ⟨withGrp 7 (fun x => { x with rxExp := 1023 }) up, 7, flitBytes 0 1 [], flitBytes 0 1 [], by unfold FecQuiet; decide +kernel⟩,
   ⟨withGrp 0 (fun x => { x with nakOut := true }) up, 0, by decide +kernel⟩,
   ⟨withGrp 7 (fun x => { x with nakOut := true, nakCnt := up.rd F.HLL_CTL_NAK_LIMIT - 1 }) up, 7, by decide +kernel⟩⟩

theorem witness_status_nak_and_config_items :
    (∃ (s : State), statusDue s = true) ∧
    (∃ (s : State), statusDue s = false) ∧
    (∃ (s : State) (g : Fin 16), hears s g.val = true) ∧
    (∃ (s : State) (g : Fin 16) (n : Fin 16) (a : Nat) (k : Nat), hears s g.val = true ∧ (s.grp n.val).dir = true ∧ a < 1024 ∧
      (s.grp n.val).replay.findIdx? (·.fseq == a) = some k) ∧
    (∃ (s : State) (g : Fin 16) (n : Fin 16) (e : BitVec 10) (k : Nat), hears s g.val = true ∧ (s.grp n.val).dir = true ∧ (s.grp n.val).inSvc = true ∧
      (s.grp n.val).replaying = none ∧ (s.grp n.val).replay.findIdx? (·.fseq == e.toNat) = some k ∧ (s.grp n.val).injAct = false) ∧
    (∃ (s : State) (g : Fin 16), hears s g.val = true ∧ s.link.cfgRx = none) ∧
    (∃ (s : State) (g : Nat), s.link.homeD = some g ∧ s.link.cfgDue = true) ∧
    (∃ (s : State) (g : Nat), s.link.homeD = some g ∧ s.link.cfgDue = false) :=
  ⟨⟨{ up with link.credUnrep := true }, by decide +kernel⟩,
   ⟨up, by decide +kernel⟩,
   ⟨up, 0, by decide +kernel⟩,
   ⟨withGrp 15 (fun x => { x with replay := [{ fseq := 1023, ftype := 1, area := [], ends := [] }] }) up, 7, 15, 1023, 0, by decide +kernel⟩,
   ⟨withGrp 15 (fun x => { x with replay := [{ fseq := 1023, ftype := 1, area := [], ends := [] }] }) up, 7, 15, 1023, 0, by decide +kernel⟩,
   ⟨{ up with link.cfgRx := none }, 7, by decide +kernel⟩,
   ⟨{ up with link.cfgDue := true }, 8, by decide +kernel⟩,
   ⟨up, 8, by decide +kernel⟩⟩

theorem witness_turns_follow_their_table :
    (∃ (s : State) (g : Fin 16) (tg : Fin 16) (dir : Bool), hears s g.val = true ∧ s.link.cfgRx.isSome = true ∧ roomVc2 s 0 1 = true ∧
      vc2Waits s g.val = false ∧ s.link.holdLost = false ∧ s.link.turnReq = none ∧ turnCheck s tg.val dir = .ok) ∧
    (∃ (s : State) (g : Fin 16) (tg : Fin 16) (dir : Bool), hears s g.val = true ∧ s.link.cfgRx.isSome = true ∧ roomVc2 s 0 1 = true ∧
      vc2Waits s g.val = false ∧ s.link.holdLost = false ∧ s.link.turnReq = none ∧ turnCheck s tg.val dir ≠ .ok) ∧
    (∃ (s : State) (g : Fin 16) (tg : Fin 16) (dir : Bool), hears s g.val = true ∧ s.link.cfgRx.isSome = true ∧ roomVc2 s 0 1 = true ∧
      vc2Waits s g.val = false ∧ s.link.holdLost = false ∧ s.link.turnReq.isSome = true ∧ s.link.turn = none ∧
      turnCheck { s with link.turnReq := none } tg.val dir = .ok) ∧
    (∃ (s : State) (g : Fin 16) (q : BitVec 16) (res : BitVec 8) (own : Turn), hears s g.val = true ∧ s.link.cfgRx.isSome = true ∧ roomVc2 s 0 1 = true ∧
      vc2Waits s g.val = false ∧ s.link.holdLost = false ∧ s.link.turnReq = some own ∧ own.tseq = q.toNat ∧ res.toNat = 0) ∧
    (∃ (s : State) (g : Fin 16) (q : BitVec 16) (res : BitVec 8) (own : Turn), hears s g.val = true ∧ s.link.cfgRx.isSome = true ∧ roomVc2 s 0 1 = true ∧
      vc2Waits s g.val = false ∧ s.link.holdLost = false ∧ s.link.turnReq = some own ∧ own.tseq = q.toNat ∧ res.toNat ≠ 0) ∧
    (∃ (s : State) (g : Fin 16) (q : BitVec 16) (own : Turn), hears s g.val = true ∧ s.link.cfgRx.isSome = true ∧ roomVc2 s 0 1 = true ∧
      vc2Waits s g.val = false ∧ s.link.holdLost = false ∧ s.link.turnReq = some own ∧ own.tseq ≠ q.toNat) ∧
    (∃ (s : State) (own : Turn), s.link.turnReq = some own ∧ s.link.vc2Out.contains (turnBytes 0x80 own.grp own.dir own.tseq 0) = true) ∧
    (∃ (s : State) (own : Turn), s.link.turnReq = some own ∧ s.link.vc2Out.contains (turnBytes 0x80 own.grp own.dir own.tseq 0) = false ∧
      2 ≤ (inService s false).length) ∧
    (∃ (s : State) (x : Turn), s.link.turn = some x ∧ x.step = .last ∧ ((s.grp x.grp).dir = true → (s.grp x.grp).replay = [])) ∧
    (∃ (s : State) (x : Turn), s.link.turn = some x ∧ x.step = .quietLine ∧ x.grp < 16 ∧ (s.grp x.grp).dir = false ∧ (s.grp x.grp).gst = .turn ∧
      (s.grp x.grp).inSvc = true ∧ x.dir = true ∧ s.on F.HLP_CTL_TEST x.grp = false ∧ 2 ≤ (inService s false).length) :=
  ⟨⟨up, 0, 0, true, by decide +kernel⟩,
   ⟨up, 0, 0, false, by decide +kernel⟩,
   ⟨{ up with link.turnReq := some { grp := 0, dir := true, tseq := 1, byStack := true } }, 7, 0, true, by decide +kernel⟩,
   ⟨{ up with link.turnReq := some { grp := 0, dir := true, tseq := 1, byStack := true } }, 7, 1, 0,
    { grp := 0, dir := true, tseq := 1, byStack := true }, by decide +kernel⟩,
   ⟨{ up with link.turnReq := some { grp := 0, dir := true, tseq := 1, byStack := true } }, 7, 1, 255,
    { grp := 0, dir := true, tseq := 1, byStack := true }, by decide +kernel⟩,
   ⟨{ up with link.turnReq := some { grp := 0, dir := true, tseq := 1, byStack := true } }, 7, 0, { grp := 0, dir := true, tseq := 1, byStack := true },
    by decide +kernel⟩,
   ⟨{ up with link.turnReq := some { grp := 0, dir := true, tseq := 1, byStack := true }, link.vc2Out := [turnBytes 0x80 0 true 1 0] },
    { grp := 0, dir := true, tseq := 1, byStack := true }, by decide +kernel⟩,
   ⟨{ up with link.turnReq := some { grp := 0, dir := true, tseq := 1, byStack := true } }, { grp := 0, dir := true, tseq := 1, byStack := true },
    by decide +kernel⟩,
   ⟨{ up with link.turn := some { grp := 15, dir := false, tseq := 1, byStack := true, step := .last } },
    { grp := 15, dir := false, tseq := 1, byStack := true, step := .last }, by decide +kernel⟩,
   ⟨{ withGrp 0 (fun x => { x with gst := .turn }) up with link.turn := some { grp := 0, dir := true, tseq := 1, byStack := true, step := .quietLine } },
    { grp := 0, dir := true, tseq := 1, byStack := true, step := .quietLine }, by decide +kernel⟩⟩

theorem witness_link_ready_needs_two_groups_each_way :
    (∃ (s : State) (a : Nat) (b : Nat), s.link.up = false ∧ s.link.cfgRx = some (a, b) ∧ 1024 ≤ a ∧ 64 ≤ b ∧
      (s.rqe.reqs.any fun r => r.iss == .host && r.prior) = false ∧ 2 ≤ (inService s false).length ∧ 2 ≤ (inService s true).length ∧
      s.link.everUp = true) ∧
    (∃ (s : State), s.link.up = false ∧
      ((inService s false).length < 2 ∨ (inService s true).length < 2 ∨ (s.rqe.reqs.any fun r => r.iss == .host && r.prior) = true ∨ s.link.cfgRx = none)) :=
  ⟨⟨{ up with link.up := false, link.cfgRx := some (1024, 64) }, 1024, 64, by decide +kernel⟩,
   ⟨State.reset, by decide +kernel⟩⟩

theorem witness_reads_writes_and_merges_are_admitted :
    (∃ (s : State) (h : ReqHdr) (len : Fin 4) (na : Bool) (md : Bool) (p : Vc0), p = { vc0Head h 0x00 with len := len.val, na := na, md := md } ∧
      Heard s h.grp.val p ∧ IdsRise s ∧ admitCheck s p = .ok ∧ hasRoom s .rd p = true) ∧
    (∃ (s : State) (h : ReqHdr) (len : Fin 4) (na : Bool) (md : Bool) (mdx : List Byte) (data : List Byte) (p : Vc0),
      p = { vc0Head h 0x10 with len := len.val, na := na, md := md, mdx := mdx, data := data } ∧ Heard s h.grp.val p ∧ IdsRise s ∧
      admitCheck s p = .ok ∧ hasRoom s .wr p = true) ∧
    (∃ (s : State) (h : ReqHdr) (mask : BitVec 64) (data : List Byte) (p : Vc0), p = { vc0Head h 0x11 with mask := mask.toNat, data := data } ∧
      Heard s h.grp.val p ∧ IdsRise s ∧ admitCheck s p = .ok ∧ hasRoom s .wrp p = true) :=
  ⟨⟨mapped up, { grp := 7, tag := 0xFFFF, dom := 0, bow := 255, addr := 0x1FFFFC0 }, 0, true, true,
    { vc0Head ({ grp := 7, tag := 0xFFFF, dom := 0, bow := 255, addr := 0x1FFFFC0 }) 0x00 with len := 0, na := true, md := true },
    by unfold Heard IdsRise; decide +kernel⟩,
   ⟨mapped up, { grp := 7, tag := 0xFFFF, dom := 0, bow := 255 }, 2, false, false, [], List.replicate 256 7,
    { vc0Head ({ grp := 7, tag := 0xFFFF, dom := 0, bow := 255 }) 0x10 with len := 2, na := false, md := false, mdx := [], data := List.replicate 256 7 },
    by unfold Heard IdsRise; decide +kernel⟩,
   ⟨mapped up, { grp := 7, tag := 0xFFFF, dom := 0, bow := 255 }, 0xFFFFFFFFFFFFFFFF, [],
    { vc0Head ({ grp := 7, tag := 0xFFFF, dom := 0, bow := 255 }) 0x11 with mask := 0xFFFFFFFFFFFFFFFF, data := [] },
    by unfold Heard IdsRise; decide +kernel⟩⟩

theorem witness_atomics_are_admitted :
    (∃ (s : State) (h : ReqHdr) (wsel : Fin 8) (opnd : BitVec 64) (p : Vc0), p = { vc0Head h 0x20 with wsel := wsel.val, opnd := opnd.toNat } ∧
      Heard s h.grp.val p ∧ IdsRise s ∧ admitCheck s p = .ok ∧ hasRoom s .afadd p = true) ∧
    (∃ (s : State) (h : ReqHdr) (wsel : Fin 8) (opnd : BitVec 64) (p : Vc0), p = { vc0Head h 0x21 with wsel := wsel.val, opnd := opnd.toNat } ∧
      Heard s h.grp.val p ∧ IdsRise s ∧ admitCheck s p = .ok ∧ hasRoom s .aswap p = true) ∧
    (∃ (s : State) (h : ReqHdr) (wsel : Fin 8) (opnd : BitVec 64) (p : Vc0), p = { vc0Head h 0x23 with wsel := wsel.val, opnd := opnd.toNat } ∧
      Heard s h.grp.val p ∧ IdsRise s ∧ admitCheck s p = .ok ∧ hasRoom s .aand p = true) ∧
    (∃ (s : State) (h : ReqHdr) (wsel : Fin 8) (opnd : BitVec 64) (p : Vc0), p = { vc0Head h 0x24 with wsel := wsel.val, opnd := opnd.toNat } ∧
      Heard s h.grp.val p ∧ IdsRise s ∧ admitCheck s p = .ok ∧ hasRoom s .aor p = true) ∧
    (∃ (s : State) (h : ReqHdr) (wsel : Fin 8) (opnd : BitVec 64) (swapv : BitVec 64) (p : Vc0),
      p = { vc0Head h 0x22 with wsel := wsel.val, opnd := opnd.toNat, swapv := swapv.toNat } ∧ Heard s h.grp.val p ∧ IdsRise s ∧
      admitCheck s p = .ok ∧ hasRoom s .acas p = true) :=
  ⟨⟨mapped up, { grp := 7, tag := 0xFFFF, dom := 0, bow := 255 }, 7, 0xFFFFFFFFFFFFFFFF,
    { vc0Head ({ grp := 7, tag := 0xFFFF, dom := 0, bow := 255 }) 0x20 with wsel := 7, opnd := 0xFFFFFFFFFFFFFFFF },
    by unfold Heard IdsRise; decide +kernel⟩,
   ⟨mapped up, { grp := 7, tag := 0xFFFF, dom := 0, bow := 255 }, 7, 0xFFFFFFFFFFFFFFFF,
    { vc0Head ({ grp := 7, tag := 0xFFFF, dom := 0, bow := 255 }) 0x21 with wsel := 7, opnd := 0xFFFFFFFFFFFFFFFF },
    by unfold Heard IdsRise; decide +kernel⟩,
   ⟨mapped up, { grp := 7, tag := 0xFFFF, dom := 0, bow := 255 }, 7, 0xFFFFFFFFFFFFFFFF,
    { vc0Head ({ grp := 7, tag := 0xFFFF, dom := 0, bow := 255 }) 0x23 with wsel := 7, opnd := 0xFFFFFFFFFFFFFFFF },
    by unfold Heard IdsRise; decide +kernel⟩,
   ⟨mapped up, { grp := 7, tag := 0xFFFF, dom := 0, bow := 255 }, 7, 0xFFFFFFFFFFFFFFFF,
    { vc0Head ({ grp := 7, tag := 0xFFFF, dom := 0, bow := 255 }) 0x24 with wsel := 7, opnd := 0xFFFFFFFFFFFFFFFF },
    by unfold Heard IdsRise; decide +kernel⟩,
   ⟨mapped up, { grp := 7, tag := 0xFFFF, dom := 0, bow := 255 }, 7, 0xFFFFFFFFFFFFFFFF, 0,
    { vc0Head ({ grp := 7, tag := 0xFFFF, dom := 0, bow := 255 }) 0x22 with wsel := 7, opnd := 0xFFFFFFFFFFFFFFFF, swapv := 0 },
    by unfold Heard IdsRise; decide +kernel⟩⟩

theorem witness_ranges_and_fences_are_admitted :
    (∃ (s : State) (h : ReqHdr) (inv : Bool) (rcnt : BitVec 24) (p : Vc0), p = { vc0Head h 0x30 with opf := inv, rcnt := rcnt.toNat } ∧
      Heard s h.grp.val p ∧ IdsRise s ∧ admitCheck s p = .ok ∧ hasRoom s .flush p = true) ∧
    (∃ (s : State) (h : ReqHdr) (rcnt : BitVec 24) (p : Vc0), p = { vc0Head h 0x31 with rcnt := rcnt.toNat } ∧ Heard s h.grp.val p ∧ IdsRise s ∧
      admitCheck s p = .ok ∧ hasRoom s .zero p = true) ∧
    (∃ (s : State) (h : ReqHdr) (all : Bool) (p : Vc0), p = { vc0Head h 0x32 with ord := false, addr := 0, opf := all } ∧ Heard s h.grp.val p ∧
      IdsRise s ∧ admitCheck s p = .ok ∧ hasRoom s .fence p = true) ∧
    (∃ (s : State) (h : ReqHdr) (len : Fin 4) (na : Bool) (md : Bool) (p : Vc0) (c : Code),
      p = { vc0Head h 0x00 with len := len.val, na := na, md := md } ∧ Heard s h.grp.val p ∧ admitCheck s p = c ∧ c ≠ .ok) ∧
    (∃ (s : State) (h : ReqHdr) (opc : Fin 64) (len : Fin 4), reservedOp opc.val = true ∧ Heard s h.grp.val { vc0Head h opc.val with len := len.val }) ∧
    (∃ (s : State) (h : ReqHdr) (all : Bool) (p : Vc0), p = { vc0Head h 0x32 with ord := false, addr := 0, opf := all } ∧ hears s h.grp.val = true ∧
      (s.link.up = false ∨ roomVc0 s p.dom (cellsOf (vc0Len p)) = false)) :=
  ⟨⟨mapped up, { grp := 7, tag := 0xFFFF, dom := 0, bow := 255 }, true, 0,
    { vc0Head ({ grp := 7, tag := 0xFFFF, dom := 0, bow := 255 }) 0x30 with opf := true, rcnt := 0 }, by unfold Heard IdsRise; decide +kernel⟩,
   ⟨mapped up, { grp := 7, tag := 0xFFFF, dom := 0, bow := 255 }, 0x1FFF,
    { vc0Head ({ grp := 7, tag := 0xFFFF, dom := 0, bow := 255 }) 0x31 with rcnt := 0x1FFF }, by unfold Heard IdsRise; decide +kernel⟩,
   ⟨mapped up, { grp := 7, tag := 0xFFFF, dom := 0, bow := 255 }, true,
    { vc0Head ({ grp := 7, tag := 0xFFFF, dom := 0, bow := 255 }) 0x32 with ord := false, addr := 0, opf := true },
    by unfold Heard IdsRise; decide +kernel⟩,
   ⟨mapped up, { grp := 7, tag := 0xFFFF, dom := 0, bow := 255, addr := 0x2000000 }, 0, false, false,
    { vc0Head ({ grp := 7, tag := 0xFFFF, dom := 0, bow := 255, addr := 0x2000000 }) 0x00 with len := 0, na := false, md := false }, .range,
    by unfold Heard; decide +kernel⟩,
   ⟨mapped up, { grp := 7, tag := 0xFFFF, dom := 0, bow := 255 }, 63, 3, by unfold Heard; decide +kernel⟩,
   ⟨{ up with link.up := false }, { grp := 7, tag := 0xFFFF, dom := 0, bow := 255 }, false,
    { vc0Head ({ grp := 7, tag := 0xFFFF, dom := 0, bow := 255 }) 0x32 with ord := false, addr := 0, opf := false }, by decide +kernel⟩⟩

theorem witness_waiting_packets_and_issue :
    (∃ (s : State) (g : Fin 16) (p : Vc0) (o : ROp), SMap.getD s.rqe.waiting g.val [] = [p] ∧ IdsRise s ∧ s.rqe.rejQ.length < 256 ∧ rqeOpen s = true ∧
      cycleFree s = true ∧ admitCheck s p = .ok ∧ opOf p.opc = some o ∧ hasRoom s o p = true) ∧
    (∃ (s : State) (id : Nat) (r : Req), findReq s id = some r ∧ (ordBlocked s r = true ∨ fenceBlocked s r = true)) ∧
    (∃ (s : State) (id : Nat) (r : Req), findReq s id = some r ∧ (s.pck.pow = .run ∨ s.pck.pow = .idle ∨ s.pck.pow = .entering) ∧ s.pck.fabDown = false ∧
      ordBlocked s r = false ∧ fenceBlocked s r = false ∧ (r.iss = .host → s.dip.ctxLost.contains r.p.bow = false) ∧ (r.op = .flush ∨ r.op = .zero) ∧
      r.performed = false ∧
      (r.issued = true ∨ (s.rqe.reqs.filter fun q => (q.op == .flush || q.op == .zero) && q.issued && !q.performed).length < 4 ∧
      (s.rqe.reqs.find? fun q => (q.op == .flush || q.op == .zero) && !q.issued && !q.performed).map (·.id) = some r.id)) ∧
    (∃ (s : State) (id : Nat) (r : Req), findReq s id = some r ∧ (s.pck.pow = .run ∨ s.pck.pow = .idle ∨ s.pck.pow = .entering) ∧ s.pck.fabDown = false ∧
      ordBlocked s r = false ∧ fenceBlocked s r = false ∧ (r.iss = .host → s.dip.ctxLost.contains r.p.bow = false) ∧
      (isAtomic r.op = true ∨ r.op = .wrp ∧ r.pend ≠ []) ∧ r.issued = false ∧ mayWrite s r.id (rmwSector r) = true ∧
      rowHeld s (place s (rmwSector r)).1 (place s (rmwSector r)).2 = false ∧
      fillPending s (place s (rmwSector r)).1 (place s (rmwSector r)).2 = false ∧
      (s.dmcOf (place s (rmwSector r)).1).rmw.length + b2n (s.dmcOf (place s (rmwSector r)).1).unitSc.isSome < 16 ∧
      (s.dmcOf (place s (rmwSector r)).1).rmw.any (·.sec == rmwSector r) = false ∧
      ((s.dmcOf (place s (rmwSector r)).1).unitSc.any fun u => u.1 == sectorAt s (place s (rmwSector r)).1 (place s (rmwSector r)).2) = false) ∧
    (∃ (s : State) (id : Nat) (r : Req), findReq s id = some r ∧ (s.pck.pow = .run ∨ s.pck.pow = .idle ∨ s.pck.pow = .entering) ∧ s.pck.fabDown = false ∧
      ordBlocked s r = false ∧ fenceBlocked s r = false ∧ (r.iss = .host → s.dip.ctxLost.contains r.p.bow = false) ∧ r.op = .rd ∧ r.issued = false ∧
      r.performed = false ∧ r.sent = false ∧ hazard s r = false ∧ ((sectorsOf r).any fun x => rowHeld s (place s x).1 (place s x).2) = false) ∧
    (∃ (s : State) (id : Nat) (r : Req), findReq s id = some r ∧ (s.pck.pow = .run ∨ s.pck.pow = .idle ∨ s.pck.pow = .entering) ∧ s.pck.fabDown = false ∧
      ordBlocked s r = false ∧ fenceBlocked s r = false ∧ (r.iss = .host → s.dip.ctxLost.contains r.p.bow = false) ∧ r.op = .wr ∧ r.visible = true ∧
      r.sent = false) :=
  ⟨⟨{ mapped up with rqe.waiting := [(15, [{ opc := 0x00, tag := 3, bow := 255 }])] }, 15, { opc := 0x00, tag := 3, bow := 255 }, .rd,
    by unfold IdsRise; decide +kernel⟩,
   ⟨holds [req 4 .fence 0x32, req 5 .rd 0x00] up, 5, req 5 .rd 0x00, by decide +kernel⟩,
   ⟨holds [req 5 .zero 0x31] up, 5, req 5 .zero 0x31, by decide +kernel⟩,
   ⟨holds [req 5 .afadd 0x20] up, 5, req 5 .afadd 0x20, by decide +kernel⟩,
   ⟨holds [req 5 .rd 0x00] up, 5, req 5 .rd 0x00, by decide +kernel⟩,
   ⟨holds [req 5 .wr 0x10] up, 5, req 5 .wr 0x10, by decide +kernel⟩⟩

theorem witness_completions_are_placed_and_memory_answers :
    (∃ (s : State) (g : Fin 16) (n : Nat), NoneWaits s ∧ n < s.rqe.rejQ.length ∧ vc1Room s g.val (s.rqe.rejQ.getD n []) = true) ∧
    (∃ (s : State) (g : Fin 16) (n : Nat), NoneWaits s ∧ n < s.rqe.rejQ.length ∧ vc1Room s g.val (s.rqe.rejQ.getD n []) = false) ∧
    (∃ (s : State) (g : Fin 16) (n : Nat) (form : CplForm) (r : Req) (c : Cpl), NoneWaits s ∧ s.rqe.rejQ.length ≤ n ∧
      (readyReqs s)[n - s.rqe.rejQ.length]? = some r ∧ r.prior = false ∧ r.cpl = some c ∧ (form ≠ .wack ∨ r.op ≠ .wr ∨ c.status ≠ .ok) ∧
      vc1Room s g.val (completionBytes r c) = true ∧ (r.op = .rd → ∀ k, (bufferFindings form).getD k 0 ≠ 2)) ∧
    (∃ (s : State) (g : Fin 16) (n : Nat) (form : CplForm) (r : Req) (c : Cpl), NoneWaits s ∧ s.rqe.rejQ.length ≤ n ∧
      (readyReqs s)[n - s.rqe.rejQ.length]? = some r ∧ r.prior = false ∧ r.cpl = some c ∧ (form ≠ .wack ∨ r.op ≠ .wr ∨ c.status ≠ .ok) ∧
      vc1Room s g.val (completionBytes r c) = false) ∧
    (∃ (s : State) (g : Fin 16) (n : Nat) (form : CplForm) (r : Req) (c : Cpl), NoneWaits s ∧ s.rqe.rejQ.length ≤ n ∧
      (readyReqs s)[n - s.rqe.rejQ.length]? = some r ∧ r.prior = false ∧ r.cpl = some c ∧ form = .wack ∧ r.op = .wr ∧ c.status = .ok ∧
      vc1Room s g.val (wackBytes r.p.dom ((wackGroup s r).map (·.p.tag))) = true) ∧
    (∃ (s : State) (g : Fin 16) (n : Nat) (form : CplForm) (r : Req) (c : Cpl), NoneWaits s ∧ s.rqe.rejQ.length ≤ n ∧
      (readyReqs s)[n - s.rqe.rejQ.length]? = some r ∧ r.prior = false ∧ r.cpl = some c ∧ form = .wack ∧ r.op = .wr ∧ c.status = .ok ∧
      vc1Room s g.val (wackBytes r.p.dom ((wackGroup s r).map (·.p.tag))) = false) ∧
    (∃ (s : State) (id : Nat) (r : Req), findReq s id = some r ∧ isAtomic r.op = true ∧ r.performed = false ∧ r.sent = false ∧
      rmwReady s (place s (rmwSector r)).1 id = true ∧ (deadChannel s (place s (rmwSector r)).1 = true ∨ r.bad.contains (rmwSector r) = true)) ∧
    (∃ (s : State) (id : Nat) (out : Fin 3) (err : List Nat) (r : Req) (u : State) (x : Sector) (k : Code) (bs : List Beat) (way : Option Nat),
      findReq s id = some r ∧ isAtomic r.op = true ∧ r.performed = false ∧ r.sent = false ∧ rmwReady s (place s (rmwSector r)).1 id = true ∧
      deadChannel s (place s (rmwSector r)).1 = false ∧ r.bad.contains (rmwSector r) = false ∧
      rmwMissed s (place s (rmwSector r)).1 (place s (rmwSector r)).2 id = false ∧
      rmwRead s (place s (rmwSector r)).1 (place s (rmwSector r)).2 out.val (if r.iss = .host then some r.p.dom else none) (fun b => err.getD b 0) false = (u,
      x, k, bs, way) ∧
      (staysInSlice u (place s (rmwSector r)).1 (place s (rmwSector r)).2 way = true ∨ writeSlot u (place s (rmwSector r)).1 (place s (rmwSector r)).2 = true) ∧
      k ≠ .uncorrectable) ∧
    (∃ (s : State) (id : Nat) (out : Fin 3) (err : List Nat) (r : Req) (u : State) (x : Sector) (k : Code) (bs : List Beat) (way : Option Nat),
      findReq s id = some r ∧ isAtomic r.op = true ∧ r.performed = false ∧ r.sent = false ∧ rmwReady s (place s (rmwSector r)).1 id = true ∧
      deadChannel s (place s (rmwSector r)).1 = false ∧ r.bad.contains (rmwSector r) = false ∧
      rmwMissed s (place s (rmwSector r)).1 (place s (rmwSector r)).2 id = false ∧
      rmwRead s (place s (rmwSector r)).1 (place s (rmwSector r)).2 out.val (if r.iss = .host then some r.p.dom else none) (fun b => err.getD b 0) false = (u,
      x, k, bs, way) ∧ k ≠ .uncorrectable ∧ bit x.md 0 = false ∧ staysInSlice u (place s (rmwSector r)).1 (place s (rmwSector r)).2 way = false ∧
      writeSlot u (place s (rmwSector r)).1 (place s (rmwSector r)).2 = false) ∧
    (∃ (s : State) (id : Nat) (out : Fin 3) (err : List Nat) (r : Req), findReq s id = some r ∧ r.op = .wrp ∧ r.sent = false ∧
      rmwReady s (place s (rmwSector r)).1 id = true ∧
      (deadChannel s (place s (rmwSector r)).1 = true ∨ rmwMissed s (place s (rmwSector r)).1 (place s (rmwSector r)).2 id = false ∧ ∀ u x k bs way,
      rmwRead s (place s (rmwSector r)).1 (place s (rmwSector r)).2 out.val (if r.iss = .host then some r.p.dom else none) (fun b => err.getD b 0) true = (u,
      x, k, bs,
      way) → (staysInSlice u (place s (rmwSector r)).1 (place s (rmwSector r)).2 way = true ∨ writeSlot u (place s (rmwSector r)).1 (place s (rmwSector r)).2 = true))) ∧
    (∃ (s : State) (id : Nat) (r : Req), findReq s id = some r ∧ (r.op = .flush ∨ r.op = .zero) ∧ r.issued = true ∧ r.performed = false ∧
      r.sent = false ∧ r.todo = [] ∧ r.tmo = none ∧ rangeAt s id = []) ∧
    (∃ (s : State) (id : Nat) (r : Req) (ch : Nat), findReq s id = some r ∧ (r.op = .flush ∨ r.op = .zero) ∧ r.issued = true ∧ r.performed = false ∧
      r.sent = false ∧ r.todo = [] ∧ r.tmo = some ch ∧ (∀ x ∈ rangeAt s id, x = ch)) ∧
    (∃ (s : State) (id : Nat) (r : Req), findReq s id = some r ∧ (r.op = .flush ∨ r.op = .zero) ∧ r.issued = true ∧ r.performed = false ∧
      r.sent = false ∧ (r.todo ≠ [] ∨ r.tmo = none ∧ rangeAt s id ≠ [])) ∧
    (∃ (w : Nat) (opnd : Nat), w ≠ opnd) :=
  ⟨⟨{ up with rqe.rejQ := [[1]] }, 15, 0, by unfold NoneWaits; decide +kernel⟩,
   ⟨{ up with rqe.rejQ := [[1]] }, 0, 0, by unfold NoneWaits; decide +kernel⟩,
   ⟨holds [{ req 5 .wr 0x10 with cpl := some { status := .ok } }] up, 15, 0, .alone [], { req 5 .wr 0x10 with cpl := some { status := .ok } },
    { status := .ok }, by unfold NoneWaits; decide +kernel, by decide +kernel, by decide +kernel, by decide +kernel, by decide +kernel,
    by decide +kernel, by decide +kernel, nofun⟩,
   ⟨holds [{ req 5 .rd 0x00 with cpl := some { status := .ok, sects := [{ data := List.replicate 64 9 }] } }] up, 7, 0, .wack,
    { req 5 .rd 0x00 with cpl := some { status := .ok, sects := [{ data := List.replicate 64 9 }] } },
    { status := .ok, sects := [{ data := List.replicate 64 9 }] }, by unfold NoneWaits; decide +kernel⟩,
   ⟨holds [{ req 5 .wr 0x10 with cpl := some { status := .ok } }, { req 6 .wr 0x10 with cpl := some { status := .ok } }] up, 15, 1, .wack,
    { req 6 .wr 0x10 with cpl := some { status := .ok } }, { status := .ok }, by unfold NoneWaits; decide +kernel⟩,
   ⟨holds [{ req 5 .wr 0x10 with cpl := some { status := .ok } }, { req 6 .wr 0x10 with cpl := some { status := .ok } }] up, 7, 1, .wack,
    { req 6 .wr 0x10 with cpl := some { status := .ok } }, { status := .ok }, by unfold NoneWaits; decide +kernel⟩,
   ⟨{ (holds [{ req 5 .afadd 0x20 with bad := [0] }] ((up.wr F.DMC_STAT_CSTATE 2 0).wr F.SCC_STAT_SSTATE ssOn 0)) with dmc := [(0, { rmw := [{ req := 5, sec := 0, hit := true }] })] },
    5, { req 5 .afadd 0x20 with bad := [0] }, by decide +kernel⟩,
   ⟨{ (holds [req 5 .afadd 0x20] ((up.wr F.DMC_STAT_CSTATE 2 0).wr F.SCC_STAT_SSTATE ssOn 0)) with dmc := [(0, { rmw := [{ req := 5, sec := 0, hit := true }] })], scc.line := [(0, { st0 := 3, d0 := { data := List.replicate 64 9 } })] },
    5, 0, [], req 5 .afadd 0x20, _, _, _, _, _, by decide +kernel, by decide +kernel, by decide +kernel, by decide +kernel, by decide +kernel,
    by decide +kernel, by decide +kernel, by decide +kernel, rfl, by decide +kernel, by decide +kernel⟩,
   ⟨{ (holds [req 5 .afadd 0x20] ((up.wr F.DMC_STAT_CSTATE 2 0).wr F.SCC_STAT_SSTATE ssOn 0)) with dmc := [(0, { cyc := 22, rmw := [{ req := 5, sec := 0, hit := false, read := some 0 }] })] },
    5, 0, [], req 5 .afadd 0x20, _, _, _, _, _, by decide +kernel, by decide +kernel, by decide +kernel, by decide +kernel, by decide +kernel,
    by decide +kernel, by decide +kernel, by decide +kernel, rfl, by decide +kernel, by decide +kernel, by decide +kernel, by decide +kernel⟩,
   ⟨{ holds [req 5 .wrp 0x11] up with dmc := [(0, { rmw := [{ req := 5, sec := 0, hit := true }] })] }, 5, 0, [], req 5 .wrp 0x11, by decide +kernel,
    by decide +kernel, by decide +kernel, by decide +kernel, .inl (by decide +kernel)⟩,
   ⟨holds [{ req 5 .flush 0x30 with issued := true }] up, 5, { req 5 .flush 0x30 with issued := true }, by decide +kernel⟩,
   ⟨{ holds [{ req 5 .flush 0x30 with issued := true, tmo := some 31 }] up with dmc := [(31, { wq := [{ req := 5, sec := 0, c := 0, kind := .clean }] })] },
    5, { req 5 .flush 0x30 with issued := true, tmo := some 31 }, 31, by decide +kernel⟩,
   ⟨holds [{ req 5 .zero 0x31 with issued := true, todo := [(0, 1)] }] up, 5, { req 5 .zero 0x31 with issued := true, todo := [(0, 1)] },
    by decide +kernel⟩,
   ⟨1, 0, by decide +kernel⟩⟩

theorem witness_regulator_ticks :
    (∃ (s : State) (v : Nat) (ovc : Bool) (fold : Bool) (hot : Nat) (none0 : Nat), s.reg.sNext = some (v, ovc, fold, hot, none0)) :=
  ⟨{ up with reg.sNext := some (0x8000, true, true, 255, 32) }, 0x8000, true, true, 255, 32, by decide +kernel⟩

theorem witness_cache_events :
    (∃ (s : State) (ch : Fin 32) (c : Nat) (w : Nat) (x : Option Sector) (k : Code) (rest : List (Nat × Option Sector × Code)),
      (s.dmcOf ch.val).fills = (c, x, k) :: rest ∧ wayOf s ch.val c = some w ∧ (s.line ch.val (setOf c) w).st (halfOf c) = 1 ∧ x = none) ∧
    (∃ (out : Fin 3), out ≠ 2) ∧
    (∃ (s : State) (sl : Fin 32) (set : BitVec 12) (way : Fin 16) (half : Fin 2) (out : Fin 3), out = 2 ∧
      2 ≤ (s.line sl.val set.toNat way.val).st half.val) ∧
    (∃ (s : State) (sl : Fin 32) (cause : Fin 5), cause.val ≠ 0 ∧ s.on F.SCC_STAT_SFAULT sl.val = false ∧ s.sstate sl.val ≠ ssOff ∧
      s.sstate sl.val = ssOn) ∧
    (∃ (s : State) (sl : Fin 32) (cause : Fin 5), cause.val ≠ 0 ∧ s.on F.SCC_STAT_SFAULT sl.val = false ∧ s.sstate sl.val ≠ ssOff ∧
      s.sstate sl.val = ssBypass) ∧
    (∃ (s : State) (sl : Fin 32) (cause : Fin 5), cause.val ≠ 0 ∧ s.on F.SCC_STAT_SFAULT sl.val = false ∧ s.sstate sl.val ≠ ssOff ∧
      s.sstate sl.val = ssDrain) ∧
    (∃ (s : State) (sl : Fin 32) (cause : Fin 5), cause.val ≠ 0 ∧ s.on F.SCC_STAT_SFAULT sl.val = false ∧ s.sstate sl.val ≠ ssOff ∧
      s.sstate sl.val = ssFlush) ∧
    (∃ (s : State) (sl : Fin 32), s.sstate sl.val = ssDrain ∧ (deadChannel s sl.val = true ∨ dirtyLines s sl.val = 0 ∧ s.victims sl.val = [])) ∧
    (∃ (s : State) (sl : Fin 32), (s.sstate sl.val ≠ ssDrain ∨ deadChannel s sl.val = false ∧ (dirtyLines s sl.val ≠ 0 ∨ s.victims sl.val ≠ []))) ∧
    (∃ (s : State) (sl : Fin 32) (m : BitVec 6), s.sstate sl.val ≠ ssOff ∧ s.sstate sl.val ≠ ssRetain ∧ m.toNat < s.rd F.SCC_XING_STAT_MARGIN_LIM sl.val) ∧
    (∃ (s : State) (sl : Fin 32) (o : SliceOp), SMap.get? s.scc.op sl.val = some o ∧ (s.sstate sl.val = ssOn ∨ s.sstate sl.val = ssDrain) ∧
      deadChannel s sl.val = false ∧ opNext s sl.val o = none) ∧
    (∃ (s : State) (sl : Fin 32) (o : SliceOp), SMap.get? s.scc.op sl.val = some o ∧ (s.sstate sl.val = ssOn ∨ s.sstate sl.val = ssDrain) ∧
      deadChannel s sl.val = false ∧ (opNext s sl.val o).isSome = true) ∧
    (∃ (s : State) (sl : Fin 32) (v : Victim), deadChannel s sl.val = false ∧ ((s.victims sl.val).find? fun v => v.s0.isNone && v.s1.isNone) = some v) :=
  ⟨⟨{ up with scc.line := [(31 * 65536, { st0 := 1 })], dmc := [(31, { fills := [(0, none, .uncorrectable)] })] }, 31, 0, 0, none, .uncorrectable, [],
    by decide +kernel⟩,
   ⟨1, by decide +kernel⟩,
   ⟨{ up with scc.line := [(31 * 65536, { st0 := 3 })] }, 31, 0, 0, 0, 2, by decide +kernel⟩,
   ⟨up, 31, 4, by decide +kernel⟩,
   ⟨up.wr F.SCC_STAT_SSTATE ssBypass 31, 31, 1, by decide +kernel⟩,
   ⟨up.wr F.SCC_STAT_SSTATE ssDrain 31, 31, 4, by decide +kernel⟩,
   ⟨up.wr F.SCC_STAT_SSTATE ssFlush 31, 31, 4, by decide +kernel⟩,
   ⟨up.wr F.SCC_STAT_SSTATE ssDrain 31, 31, by decide +kernel⟩,
   ⟨up, 0, by decide +kernel⟩,
   ⟨up.wr F.SCC_XING_STAT_MARGIN_LIM 1 31, 31, 0, by decide +kernel⟩,
   ⟨{ up with scc.op := [(31, sliceOpOf 1 0 0 0)] }, 31, sliceOpOf 1 0 0 0, by decide +kernel⟩,
   ⟨{ up with scc.op := [(31, { inv := true, scope := 0 })], scc.line := [(31 * 65536, { st0 := 3 })] }, 31, { inv := true, scope := 0 },
    by decide +kernel⟩,
   ⟨{ up with scc.victim := [(31, [{ set := 4095, tag := 1 }])] }, 31, { set := 4095, tag := 1 }, by decide +kernel⟩⟩

theorem witness_dram_cycles_bursts_and_hangs :
    (∃ (s : State) (ch : Fin 32), s.cstate ch.val = 2 ∧ (s.dmcOf ch.val).hung = false) ∧
    (∃ (s : State) (ch : Fin 32), (s.cstate ch.val ≠ 2 ∧ s.cstate ch.val ≠ 1 ∨ (s.dmcOf ch.val).hung = true)) ∧
    (∃ (s : State) (ch : Fin 32) (b : Nat) (a : Nat) (rest : List Nat), b < 128 ∧ OnlyRefresh s ch.val ∧ (∀ (r : Nat),
      r < 4 → ((s.dmcOf ch.val).rankOf r).pdeDue = none) ∧ (∀ (c : Nat), c < 128 → c ≠ b → ((s.dmcOf ch.val).bankOf c).owed = [] ∧
      ((s.dmcOf ch.val).bankOf c).vref = none) ∧ ((s.dmcOf ch.val).bankOf b).owed = a :: rest ∧ ((s.dmcOf ch.val).bankOf b).vref = none ∧
      ((s.dmcOf ch.val).bankOf b).row = none ∧ ((s.dmcOf ch.val).bankOf b).actOk ≤ (s.dmcOf ch.val).cyc + 1 ∧ pstate s ch.val (b / 32) = 1 ∧
      ((s.dmcOf ch.val).rankOf (b / 32)).cmdOk ≤ (s.dmcOf ch.val).cyc + 1) ∧
    (∃ (s : State) (ch : Fin 32) (r : Fin 4) (a : Nat), OnlyRefresh s ch.val ∧ ((s.dmcOf ch.val).rankOf r.val).pdeDue = some a ∧
      a ≤ (s.dmcOf ch.val).cyc + 1 ∧ (∀ (q : Nat), q < r.val → ((s.dmcOf ch.val).rankOf q).pdeDue = none)) ∧
    (∃ (s : State) (ch : Fin 32) (e : DEnt) (c : Nat) (rest : List (DEnt × Nat)), (s.dmcOf ch.val).fly = (e, c) :: rest ∧ c + 22 ≤ (s.dmcOf ch.val).cyc) ∧
    (∃ (s : State) (ch : Fin 32) (e : DEnt) (c : Nat) (rest : List (DEnt × Nat)), (s.dmcOf ch.val).fly = (e, c) :: rest ∧ (s.dmcOf ch.val).cyc < c + 22) ∧
    (∃ (s : State) (ch : Fin 32) (rank : Fin 4), s.on F.DMC_CTL_PD_EN ch.val = true ∧ s.cstate ch.val = 2 ∧ pstate s ch.val rank.val = 1 ∧
      rankWork s ch.val rank.val = false ∧ ((s.dmcOf ch.val).rankOf rank.val).pdeDue = none ∧ tickNear (s.dmcOf ch.val) rank.val = false ∧
      rowFree (s.dmcOf ch.val) = true ∧ ((s.dmcOf ch.val).rankOf rank.val).busyAt + s.rd F.DMC_CTL_PD_IDLE ch.val ≤ (s.dmcOf ch.val).cyc ∧
      (∀ (k : Nat),
      k < 32 → ((s.dmcOf ch.val).bankOf (32 * rank.val + k)).row.isSome = true → preOk s ch.val (s.dmcOf ch.val) (32 * rank.val + k) = true)) ∧
    (∃ (s : State) (ch : Fin 32) (rank : Fin 4), pstate s ch.val rank.val = 2 ∧ rankWork s ch.val rank.val = true ∧ rowFree (s.dmcOf ch.val) = true ∧
      ((s.dmcOf ch.val).rankOf rank.val).pde + tCKE ≤ (s.dmcOf ch.val).cyc) ∧
    (∃ (s : State) (ch : Fin 32) (stateCheck : Bool), s.cstate ch.val = 2 ∧ s.pck.pow ≠ .powerFail ∧ stateCheck = true) ∧
    (∃ (s : State) (ch : Fin 32) (stateCheck : Bool), s.cstate ch.val = 2 ∧ s.pck.pow ≠ .powerFail ∧ stateCheck = false ∧
      unperformed (s.dmcOf ch.val) = true ∧ (s.dmcOf ch.val).cmdAt + s.rd F.DMC_HANG_HANG_TMO ch.val * usec ≤ s.now) ∧
    (∃ (s : State) (ch : Fin 32) (stateCheck : Bool), s.cstate ch.val = 2 ∧ s.pck.pow = .powerFail ∧ stateCheck = true) ∧
    (∃ (s : State) (ch : Fin 32) (stateCheck : Bool), s.cstate ch.val = 2 ∧ stateCheck = false ∧
      (unperformed (s.dmcOf ch.val) = false ∨ s.now < (s.dmcOf ch.val).cmdAt + s.rd F.DMC_HANG_HANG_TMO ch.val * usec)) ∧
    (∃ (s : State) (ch : Fin 32), s.cstate ch.val = 3) ∧
    (∃ (s : State) (ch : Fin 32), s.cstate ch.val = 2 ∧ s.on F.DMC_TRAIN_CTL_TRK_EN ch.val = true) :=
  ⟨⟨up, 31, by decide +kernel⟩,
   ⟨up, 0, by decide +kernel⟩,
   ⟨(chan { bank := [(127, { owed := [0] })] } up).wr F.DIP_CTL_SCRUB_EN 0, 31, 127, 0, [], by unfold OnlyRefresh; decide +kernel⟩,
   ⟨(chan { rank := [(3, { pdeDue := some 1 })] } up).wr F.DIP_CTL_SCRUB_EN 0, 31, 3, 1, by unfold OnlyRefresh; decide +kernel⟩,
   ⟨chan { cyc := 22, fly := [({ req := 1, sec := 0, c := 0, rmw := false, fill := false, at' := 0 }, 0)] } up, 31,
    { req := 1, sec := 0, c := 0, rmw := false, fill := false, at' := 0 }, 0, [], by decide +kernel⟩,
   ⟨chan { cyc := 21, fly := [({ req := 1, sec := 0, c := 0, rmw := false, fill := false, at' := 0 }, 0)] } up, 31,
    { req := 1, sec := 0, c := 0, rmw := false, fill := false, at' := 0 }, 0, [], by decide +kernel⟩,
   ⟨(chan { cyc := 100000, bank := (List.range 32).map fun k => (96 + k, { tick := 200000 }) } up).wr F.DMC_CTL_PD_EN 1 31, 31, 3, by decide +kernel⟩,
   ⟨(chan { cyc := 100, q := [{ req := 1, sec := 0, c := 0, rmw := false, fill := false, at' := 0 }] } up).wr F.DMC_RANK_STAT_PSTATE 2 31 0, 31, 0,
    by decide +kernel⟩,
   ⟨up, 31, true, by decide +kernel⟩,
   ⟨{ chan { q := [{ req := 1, sec := 0, c := 0, rmw := false, fill := false, at' := 0 }] } up with now := 10 ^ 9 }, 31, false, by decide +kernel⟩,
   ⟨inPow .powerFail up, 31, true, by decide +kernel⟩,
   ⟨{ chan { wq := [{ req := 1, sec := 0, c := 0 }] } up with now := 10 ^ 9 }, 31, false, by decide +kernel⟩,
   ⟨up.wr F.DMC_STAT_CSTATE 3 31, 31, by decide +kernel⟩,
   ⟨up.wr F.DMC_TRAIN_CTL_TRK_EN 1 31, 31, by decide +kernel⟩⟩

theorem witness_scheduler_order :
    (∃ (l : List Cand) (c : Cand), bestCand l = some c) ∧
    (∃ (l : List Cand) (c : Cand) (x : Cand), x ∈ l ∧ bestCand l = some c) ∧
    (∃ (a : Cand) (b : Cand), a.band < b.band) ∧
    (∃ (a : Cand) (b : Cand), a.band = b.band ∧ b.step < a.step) ∧
    (∃ (a : Cand) (b : Cand), a.band = b.band ∧ a.step = b.step ∧ a.hit = true ∧ b.hit = false) ∧
    (∃ (a : Cand) (b : Cand), a.band = b.band ∧ a.step = b.step ∧ a.hit = b.hit ∧ b.age < a.age) ∧
    (∃ (a : Cand) (b : Cand), a.before b = true) :=
  ⟨⟨[{ bank := 0, want := .victim, band := 1, step := 1, hit := true, age := 5 },
    { bank := 1, want := .victim, band := 0, step := 3, hit := false, age := 9 }],
    { bank := 1, want := .victim, band := 0, step := 3, hit := false, age := 9 }, by decide +kernel⟩,
   ⟨[{ bank := 0, want := .victim, band := 1, step := 1, hit := true, age := 5 },
    { bank := 1, want := .victim, band := 0, step := 3, hit := false, age := 9 }],
    { bank := 1, want := .victim, band := 0, step := 3, hit := false, age := 9 },
    ({ bank := 0, want := .victim, band := 1, step := 1, hit := true, age := 5 } : Cand), by decide +kernel⟩,
   ⟨{ bank := 1, want := .victim, band := 0, step := 3, hit := false, age := 9 },
    { bank := 0, want := .victim, band := 1, step := 1, hit := true, age := 5 }, by decide +kernel⟩,
   ⟨{ bank := 0, want := .victim, band := 1, step := 1, hit := true, age := 5 },
    { bank := 2, want := .victim, band := 1, step := 0, hit := true, age := 5 }, by decide +kernel⟩,
   ⟨{ bank := 0, want := .victim, band := 1, step := 1, hit := true, age := 5 },
    { bank := 3, want := .victim, band := 1, step := 1, hit := false, age := 5 }, by decide +kernel⟩,
   ⟨{ bank := 0, want := .victim, band := 1, step := 1, hit := true, age := 5 },
    { bank := 4, want := .victim, band := 1, step := 1, hit := true, age := 4 }, by decide +kernel⟩,
   ⟨{ bank := 0, want := .victim, band := 1, step := 1, hit := true, age := 5 },
    { bank := 4, want := .victim, band := 1, step := 1, hit := true, age := 4 }, by decide +kernel⟩⟩

theorem witness_refresh_strokes_and_reports :
    (∃ (s : State) (ch : Fin 32) (b : Fin 128), (s.cstate ch.val = 1 ∨ s.cstate ch.val = 2) ∧ pstate s ch.val (b.val / 32) ≠ 0 ∧
      pstate s ch.val (b.val / 32) ≠ 3 ∧ ((s.dmcOf ch.val).bankOf b.val).owed.length ≤ 15 ∧
      ((s.dmcOf ch.val).bankOf b.val).tick ≤ (s.dmcOf ch.val).cyc) ∧
    (∃ (s : State) (ch : Fin 32) (b : Fin 128), (s.cstate ch.val = 1 ∨ s.cstate ch.val = 2) ∧ pstate s ch.val (b.val / 32) ≠ 0 ∧
      pstate s ch.val (b.val / 32) ≠ 3 ∧ ((s.dmcOf ch.val).bankOf b.val).owed.length ≤ 15 ∧
      (s.dmcOf ch.val).cyc < ((s.dmcOf ch.val).bankOf b.val).tick) ∧
    (∃ (s : State) (ch : Fin 32) (b : Fin 128), pstate s ch.val (b.val / 32) = 3) ∧
    (∃ (s : State), s.pck.pow = .run) ∧
    (∃ (s : State) (ch : Fin 32) (b : Nat) (row : Nat) (rest : List (Nat × Nat)), (s.dmcOf ch.val).closing = (b, row) :: rest ∧
      (s.rfm.thrAt = 0 ∨ s.rfm.thrAt + 50 * usec ≤ s.now)) ∧
    (∃ (s : State) (ch : Fin 32) (rank : Fin 4), reportIn (s.dmcOf ch.val) rank.val = false) ∧
    (∃ (s : State) (ch : Fin 32) (rank : Fin 4), reportIn (s.dmcOf ch.val) rank.val = true) ∧
    (∃ (s : State) (ch : Nat), ch < 32 ∧ backlogged s ch = true) ∧
    (∃ (s : State) (ch : Nat), ch < 32 ∧ backlogged s ch = false) ∧
    (∃ (s : State) (ch : Fin 32) (b : Fin 128) (v : Nat × Nat × Nat), ((s.dmcOf ch.val).bankOf b.val).vref = some [] ∧
      (s.dmcOf ch.val).vq.find? (·.1 == b.val) = some v) :=
  ⟨⟨chan {} up, 31, 127, by decide +kernel⟩,
   ⟨chan { bank := [(127, { tick := 5 })] } up, 31, 127, by decide +kernel⟩,
   ⟨(chan {} up).wr F.DMC_RANK_STAT_PSTATE 3 31 3, 31, 127, by decide +kernel⟩,
   ⟨up, by decide +kernel⟩,
   ⟨chan { closing := [(127, 5)] } up, 31, 127, 5, [], by decide +kernel⟩,
   ⟨up, 31, 3, by decide +kernel⟩,
   ⟨chan { rank := [(3, { rptOut := true })] } up, 31, 3, by decide +kernel⟩,
   ⟨chan { vq := [(127, 5, 0)] } (up.wr F.RFM_BKLG_BKLG_THR 1), 31, by decide, by decide +kernel⟩,
   ⟨up, 31, by decide, by decide +kernel⟩,
   ⟨chan { bank := [(127, { vref := some [] })], vq := [(127, 5, 0)] } up, 31, 127, (127, 5, 0), by decide +kernel⟩⟩

theorem witness_scrub_and_lost_words :
    (∃ (s : State) (ch : Fin 32), s.cstate ch.val = 2 ∧ (s.dmcOf ch.val).scrub.isSome = true ∧ burstsDone s ch.val .scrub = true ∧
      SMap.getD s.dip.wb ch.val [] = [] ∧ (s.dmcOf ch.val).unitSc = none) ∧
    (∃ (s : State) (ch : Fin 32), (s.cstate ch.val ≠ 2 ∨ (s.dmcOf ch.val).scrub = none)) ∧
    (∃ (s : State) (ch : Fin 32) (ps : Nat) (rest : List Nat), SMap.getD s.dip.wb ch.val [] = ps :: rest ∧ (s.dmcOf ch.val).unitSc = none ∧
      writeQueued s ch.val ps = true) ∧
    (∃ (s : State) (ch : Fin 32) (ps : Nat) (c : Nat), (s.dmcOf ch.val).unitSc = some (ps, some c) ∧ s.cstate ch.val = 2 ∧
      c + 22 ≤ (s.dmcOf ch.val).cyc ∧ rowSlot s ch.val (ps / 16 / 65536 % 128) (ps / 16 % 65536) = true) ∧
    (∃ (s : State) (ch : Fin 32) (ps : Nat) (c : Nat), (s.dmcOf ch.val).unitSc = some (ps, some c) ∧ s.cstate ch.val = 2 ∧ (s.dmcOf ch.val).cyc < c + 22) ∧
    (∃ (s : State) (out : Fin 3), s.on F.DIP_CTL_CSCRUB_EN = true ∧ out = 0) ∧
    (∃ (s : State) (target : Fin 3) (out : Fin 3), s.on F.DIP_CTL_CSCRUB_EN = true ∧ out = 1 ∧ target = 0) ∧
    (∃ (s : State) (target : Fin 3) (out : Fin 3), s.on F.DIP_CTL_CSCRUB_EN = true ∧ out = 1 ∧ target ≠ 0) ∧
    (∃ (s : State) (target : Fin 3) (sl : Fin 32) (set : BitVec 12) (way : Fin 16) (half : Fin 2) (out : Fin 3), s.on F.DIP_CTL_CSCRUB_EN = true ∧
      out = 2 ∧ target = 0 ∧ s.sstate sl.val = ssOn ∧ 2 ≤ (s.line sl.val set.toNat way.val).st half.val) ∧
    (∃ (s : State) (target : Fin 3) (out : Fin 3), s.on F.DIP_CTL_CSCRUB_EN = true ∧ out = 2 ∧ target = 1) ∧
    (∃ (s : State) (target : Fin 3) (out : Fin 3), s.on F.DIP_CTL_CSCRUB_EN = true ∧ out = 2 ∧ target = 2) :=
  ⟨⟨chan { scrub := some true } up, 31, by decide +kernel⟩,
   ⟨up.wr F.DMC_STAT_CSTATE 3 31, 31, by decide +kernel⟩,
   ⟨{ chan { wq := [{ req := 1, sec := 0, c := 0, kind := .zero }] } up with dip.wb := [(31, [sectorAt up 31 0])] }, 31, sectorAt up 31 0, [],
    by decide +kernel⟩,
   ⟨chan { cyc := 1022, bank := [(127, { row := some 65535 })], unitSc := some ((127 * 65536 + 65535) * 16, some 1000) } up, 31,
    (127 * 65536 + 65535) * 16, 1000, by decide +kernel⟩,
   ⟨chan { cyc := 1021, unitSc := some (0, some 1000) } up, 31, 0, 1000, by decide +kernel⟩,
   ⟨up.wr F.DIP_CTL_CSCRUB_EN 1, 0, by decide +kernel⟩,
   ⟨up.wr F.DIP_CTL_CSCRUB_EN 1, 0, 1, by decide +kernel⟩,
   ⟨up.wr F.DIP_CTL_CSCRUB_EN 1, 2, 1, by decide +kernel⟩,
   ⟨{ up.wr F.DIP_CTL_CSCRUB_EN 1 with scc.line := [(31 * 65536, { st0 := 2 })] }, 0, 31, 0, 0, 0, 2, by decide +kernel⟩,
   ⟨up.wr F.DIP_CTL_CSCRUB_EN 1, 1, 2, by decide +kernel⟩,
   ⟨up.wr F.DIP_CTL_CSCRUB_EN 1, 2, 2, by decide +kernel⟩⟩

theorem witness_lines_and_row_repair :
    (∃ (s : State) (ch : Fin 32) (sh : Nat), calReady s ch.val = true ∧ shadowOf s ch.val = some sh ∧ (s.tsvCh ch.val).step = none ∧
      (s.tsvCh ch.val).isolated = none ∧ (s.tsvCh ch.val).inPlace = none ∧ (s.tsvCh ch.val).sw = []) ∧
    (∃ (s : State) (ch : Fin 32) (pass : Bool), shadowOf s ch.val = none ∧ (s.tsvCh ch.val).inPlace = none ∧ (s.tsvCh ch.val).isolated = none ∧
      (s.tsvCh ch.val).fastWait = none ∧ (s.tsvCh ch.val).sw = [] ∧ s.cstate ch.val = 2 ∧ s.on F.TSV_CTL_ROLL_EN ch.val = true ∧ pass = true) ∧
    (∃ (s : State) (ch : Fin 32) (pass : Bool), shadowOf s ch.val = none ∧ (s.tsvCh ch.val).inPlace = none ∧ (s.tsvCh ch.val).isolated = none ∧
      (s.tsvCh ch.val).fastWait = none ∧ (s.tsvCh ch.val).sw = [] ∧ s.cstate ch.val = 2 ∧ s.on F.TSV_CTL_ROLL_EN ch.val = true ∧ pass = false) ∧
    (∃ (s : State) (ch : Fin 32) (errors : Bool) (p : Fin 84), (s.tsvCh ch.val).isolated = some p.val ∧ errors = false) ∧
    (∃ (s : State) (ch : Fin 32) (errors : Bool) (p : Fin 84), (s.tsvCh ch.val).isolated = some p.val ∧ errors = true) ∧
    (∃ (s : State) (ch : Fin 32) (pass : Bool) (x : CalStep) (n : Nat) (sh : Fin 84), (s.tsvCh ch.val).step = some x ∧ x.pos = some n ∧ x.line < 84 ∧
      shadowOf s ch.val = some sh.val ∧ pass = true ∧ s.cstate ch.val = 2) ∧
    (∃ (s : State) (ch : Fin 32) (pass : Bool) (x : CalStep) (n : Nat) (sh : Fin 84), (s.tsvCh ch.val).step = some x ∧ x.pos = some n ∧ x.line < 84 ∧
      shadowOf s ch.val = some sh.val ∧ pass = true ∧ s.cstate ch.val ≠ 2) ∧
    (∃ (s : State) (ch : Fin 32) (pass : Bool) (x : CalStep) (n : Nat) (sh : Fin 84), (s.tsvCh ch.val).step = some x ∧ x.pos = some n ∧ x.line < 84 ∧
      shadowOf s ch.val = some sh.val ∧ pass = false ∧ 2 ≤ (s.tsvCh ch.val).fails) ∧
    (∃ (s : State) (ch : Fin 32) (m : MapSw) (c : Nat) (rest : List MapSw), (s.tsvCh ch.val).sw = m :: rest ∧ m.at' = some c ∧
      (s.tsvCh ch.val).fastWait = none ∧ c + 32 ≤ (s.dmcOf ch.val).cyc) ∧
    (∃ (s : State) (ch : Fin 32) (m : MapSw) (c : Nat) (rest : List MapSw), (s.tsvCh ch.val).sw = m :: rest ∧ m.at' = some c ∧
      (s.tsvCh ch.val).fastWait = none ∧ (s.dmcOf ch.val).cyc < c + 32) ∧
    (∃ (s : State) (ch : Fin 32) (p : Fin 84), (s.tsvCh ch.val).inPlace = some p.val ∧ (s.tsvCh ch.val).fastWait = none) ∧
    (∃ (s : State) (ch : Fin 32), s.cstate ch.val = 2) ∧
    (∃ (s : State) (ch : Fin 32) (bank : Nat) (row : Nat) (sp : Nat), (∀ (c : Nat), c < 32 → (s.tsvCh c).cur = none) ∧
      s.tsv.rprQ.find? (rprReady s) = some (ch.val, bank, row) ∧ ((List.range 32).find? fun k => s.rmap ch.val bank k == 0) = some sp) ∧
    (∃ (s : State) (ch : Fin 32) (bank : Nat) (row : Nat), (∀ (c : Nat), c < 32 → (s.tsvCh c).cur = none) ∧ s.tsv.rprQ.find? (rprReady s) = some (ch.val,
      bank, row) ∧ ((List.range 32).find? fun k => s.rmap ch.val bank k == 0) = none) ∧
    (∃ (s : State) (ch : Fin 32) (bank : Nat) (row : Nat) (sp : Nat), (s.tsvCh ch.val).cur = some (bank, row, sp) ∧ (s.tsvCh ch.val).stored = true ∧
      bankHeld s ch.val bank = false ∧ ((s.dmcOf ch.val).eng.any fun b => b.own == .repair) = false) :=
  ⟨⟨(up.wr F.TSV_STAT_SHADOW_PHY 83 31).wr F.TSV_CTL_ROLL_EN 1 31, 31, 83, by decide +kernel⟩,
   ⟨(up.wr F.TSV_STAT_SHADOW_PHY 127 31).wr F.TSV_CTL_ROLL_EN 1 31, 31, true, by decide +kernel⟩,
   ⟨(up.wr F.TSV_STAT_SHADOW_PHY 127 31).wr F.TSV_CTL_ROLL_EN 1 31, 31, false, by decide +kernel⟩,
   ⟨lines { isolated := some 83 } up, 31, false, 83, by decide +kernel⟩,
   ⟨lines { isolated := some 83 } up, 31, true, 83, by decide +kernel⟩,
   ⟨lines { step := some { line := 5, pos := some 0 }, fails := 0 } ((up.wr F.TSV_STAT_SHADOW_PHY 83 31).wr F.TSV_CTL_ROLL_EN 1 31), 31, true,
    { line := 5, pos := some 0 }, 0, 83, by decide +kernel⟩,
   ⟨lines { step := some { line := 5, pos := some 0 } } (((up.wr F.TSV_STAT_SHADOW_PHY 83 31).wr F.TSV_CTL_ROLL_EN 1 31).wr F.DMC_STAT_CSTATE 3 31), 31,
    true, { line := 5, pos := some 0 }, 0, 83, by decide +kernel⟩,
   ⟨lines { step := some { line := 5, pos := some 0 }, fails := 2 } ((up.wr F.TSV_STAT_SHADOW_PHY 83 31).wr F.TSV_CTL_ROLL_EN 1 31), 31, false,
    { line := 5, pos := some 0 }, 0, 83, by decide +kernel⟩,
   ⟨lines { sw := [{ pos := 0, line := 83, at' := some 7 }] } (chan { cyc := 39 } up), 31, { pos := 0, line := 83, at' := some 7 }, 7, [],
    by decide +kernel⟩,
   ⟨lines { sw := [{ pos := 0, line := 83, at' := some 7 }] } (chan { cyc := 38 } up), 31, { pos := 0, line := 83, at' := some 7 }, 7, [],
    by decide +kernel⟩,
   ⟨lines { inPlace := some 83 } up, 31, 83, by decide +kernel⟩,
   ⟨up, 31, by decide +kernel⟩,
   ⟨{ up with tsv.rprQ := [(31, 127, 5)] }, 31, 127, 5, 0, by decide +kernel⟩,
   ⟨{ up with tsv.rprQ := [(31, 127, 5)], tsv.rmap := (List.range 32).map fun k => ((31 * 128 + 127) * 32 + k, 1) }, 31, 127, 5, by decide +kernel⟩,
   ⟨lines { cur := some (127, 5, 31), stored := true } up, 31, 127, 5, 31, by decide +kernel⟩⟩

theorem witness_fold_and_regulation :
    (∃ (s : State), s.fstate = fMigrate ∧ s.rd F.TSV_FOLD_STAT_FOLDED_CH < 32 ∧ s.rd F.TSV_FOLD_PTR_FOLD_PTR < foldUnits ∧
      unitBusy s (s.rd F.TSV_FOLD_STAT_FOLDED_CH) (s.rd F.TSV_FOLD_PTR_FOLD_PTR) = true) ∧
    (∃ (s : State), s.fstate = fMigrate ∧ s.rd F.TSV_FOLD_STAT_FOLDED_CH < 32 ∧ s.rd F.TSV_FOLD_PTR_FOLD_PTR < foldUnits ∧ s.tsv.foldMove = some true ∧
      burstsDone s (foldTarget s (s.rd F.TSV_FOLD_PTR_FOLD_PTR)) .fold = true) ∧
    (∃ (s : State), s.fstate = fMigrate ∧ s.rd F.TSV_FOLD_STAT_FOLDED_CH < 32 ∧ s.rd F.TSV_FOLD_PTR_FOLD_PTR < foldUnits ∧
      (s.tsv.foldMove ≠ some true ∨ burstsDone s (foldTarget s (s.rd F.TSV_FOLD_PTR_FOLD_PTR)) .fold = false)) ∧
    (∃ (s : State), s.fstate ≠ fMigrate ∧ s.fstate ≠ fPaused) ∧
    (∃ (s : State), s.fstate = fMigrate ∧ s.rd F.TSV_FOLD_PTR_FOLD_PTR ≠ 0 ∧ s.rd F.TSV_FOLD_PTR_FOLD_PTR < 2 ^ 22 ∧
      s.rd F.TSV_FOLD_PTR_FOLD_PTR % 131072 = 0) ∧
    (∃ (s : State), s.fstate = fClean ∧ (s.sstate (s.rd F.TSV_FOLD_STAT_FOLDED_CH) = ssBypass ∨ s.sstate (s.rd F.TSV_FOLD_STAT_FOLDED_CH) = ssOff)) ∧
    (∃ (s : State), s.fstate = fClean ∧ s.sstate (s.rd F.TSV_FOLD_STAT_FOLDED_CH) = ssDrain) ∧
    (∃ (s : State), s.fstate = fMigrate ∧ s.rd F.TSV_FOLD_STAT_FOLDED_CH < 32 ∧ s.rd F.TSV_FOLD_PTR_FOLD_PTR = foldUnits) ∧
    (∃ (s : State) (d : Fin 16) (old : List (Nat × Nat)), SMap.get? s.reg.rangeJob d.val = some old) :=
  ⟨⟨{ ((up.wr F.TSV_FOLD_STAT_FSTATE fMigrate).wr F.TSV_FOLD_STAT_FOLDED_CH 31).wr F.TSV_FOLD_PTR_FOLD_PTR 4063231 with dmc := [(31, { wq := [{ req := 1, sec := 0, c := 4063231 * 1024 }] })] },
    by decide +kernel⟩,
   ⟨{ ((up.wr F.TSV_FOLD_STAT_FSTATE fMigrate).wr F.TSV_FOLD_STAT_FOLDED_CH 31).wr F.TSV_FOLD_PTR_FOLD_PTR 4063231 with tsv.foldMove := some true },
    by decide +kernel⟩,
   ⟨(((up.wr F.DMC_STAT_CSTATE 2 30).wr F.TSV_FOLD_STAT_FSTATE fMigrate).wr F.TSV_FOLD_STAT_FOLDED_CH 31).wr F.TSV_FOLD_PTR_FOLD_PTR 4063231,
    by decide +kernel⟩,
   ⟨up, by decide +kernel⟩,
   ⟨((up.wr F.TSV_FOLD_STAT_FSTATE fMigrate).wr F.TSV_FOLD_STAT_FOLDED_CH 31).wr F.TSV_FOLD_PTR_FOLD_PTR 131072, by decide +kernel⟩,
   ⟨(((up.wr F.SCC_STAT_SSTATE ssBypass 31).wr F.TSV_FOLD_STAT_FSTATE fClean).wr F.TSV_FOLD_STAT_FOLDED_CH 31).wr F.TSV_FOLD_PTR_FOLD_PTR 0,
    by decide +kernel⟩,
   ⟨(((up.wr F.SCC_STAT_SSTATE ssDrain 31).wr F.TSV_FOLD_STAT_FSTATE fClean).wr F.TSV_FOLD_STAT_FOLDED_CH 31).wr F.TSV_FOLD_PTR_FOLD_PTR 0,
    by decide +kernel⟩,
   ⟨((up.wr F.TSV_FOLD_STAT_FSTATE fMigrate).wr F.TSV_FOLD_STAT_FOLDED_CH 31).wr F.TSV_FOLD_PTR_FOLD_PTR 4063232, by decide +kernel⟩,
   ⟨{ up with reg.rangeJob := [(15, [])] }, 15, [], by decide +kernel⟩⟩

theorem witness_register_packets_reach_the_map :
    (∃ (s : State) (g : Fin 16) (dom : Fin 16), HeardVc2 s g.val dom.val 1) ∧
    (∃ (s : State) (g : Fin 16) (dom : Fin 16) (raddr : BitVec 24), HeardVc2 s g.val dom.val 1 ∧ regsOpen s = true ∧ pregPending s dom.val = false ∧
      regAt raddr.toNat = none) ∧
    (∃ (s : State) (g : Fin 16) (dom : Fin 16) (raddr : BitVec 24), HeardVc2 s g.val dom.val 1 ∧ regsOpen s = true ∧ pregPending s dom.val = false ∧
      regAt raddr.toNat = none) ∧
    (∃ (s : State) (g : Fin 16) (dom : Fin 16) (opc : BitVec 8), reservedVc2Op opc.toNat = true ∧
      HeardVc2 s g.val (if opc.toNat < 0x80 then dom.val else 0) 1 ∧ pregPending s (if opc.toNat < 0x80 then dom.val else 0) = false) ∧
    (∃ (s : State) (g : Fin 16), hears s g.val = false) :=
  ⟨⟨up, 7, 15, by unfold HeardVc2; decide +kernel⟩,
   ⟨up, 7, 15, 0xFFFFFC, by unfold HeardVc2; decide +kernel⟩,
   ⟨up, 7, 15, 0xFFFFFC, by unfold HeardVc2; decide +kernel⟩,
   ⟨up, 7, 15, 0x5F, by unfold HeardVc2; decide +kernel⟩,
   ⟨up, 8, by decide +kernel⟩⟩

theorem witness_mailbox_packets_and_doorbells :
    (∃ (s : State) (g : Fin 16) (dom : Fin 16) (moff : BitVec 12) (mlen : BitVec 8) (data : List Byte), data.length = 4 * mlen.toNat ∧ 1 ≤ mlen.toNat ∧
      mlen.toNat ≤ 62 ∧ HeardVc2 s g.val dom.val (cellsOf (8 + data.length)) ∧ pregPending s dom.val = false ∧ mstate s dom.val ≠ 2 ∧
      moff.toNat / 4 * 4 + data.length ≤ 4096) ∧
    (∃ (s : State) (g : Fin 16) (dom : Fin 16) (moff : BitVec 12) (mlen : BitVec 8) (data : List Byte), data.length = 4 * mlen.toNat ∧ 1 ≤ mlen.toNat ∧
      mlen.toNat ≤ 62 ∧ HeardVc2 s g.val dom.val (cellsOf (8 + data.length)) ∧ pregPending s dom.val = false ∧ mstate s dom.val ≠ 2 ∧
      4096 < moff.toNat / 4 * 4 + data.length) ∧
    (∃ (s : State) (g : Fin 16) (dom : Fin 16) (moff : BitVec 12) (mlen : BitVec 8), HeardVc2 s g.val dom.val 1 ∧ pregPending s dom.val = false ∧
      1 ≤ mlen.toNat ∧ mlen.toNat ≤ 62 ∧ moff.toNat / 4 * 4 + 4 * mlen.toNat ≤ 4096 ∧ mstate s dom.val ≠ 2) ∧
    (∃ (s : State) (g : Fin 16) (dom : Fin 16) (seq : BitVec 16), HeardVc2 s g.val dom.val 1 ∧ pregPending s dom.val = false ∧ mstate s dom.val = 1 ∧
      seq.toNat = expSeq s dom.val ∧ knownOpcode (cmdOpcode s dom.val) = true) ∧
    (∃ (s : State) (g : Fin 16) (dom : Fin 16) (seq : BitVec 16), HeardVc2 s g.val dom.val 1 ∧ pregPending s dom.val = false ∧ mstate s dom.val = 1 ∧
      seq.toNat = expSeq s dom.val ∧ knownOpcode (cmdOpcode s dom.val) = false) ∧
    (∃ (s : State) (m : Fin 17) (seq : BitVec 16), regsOpen s = true ∧ s.pck.pow = .run ∧ mstate s m.val = 1 ∧ seq.toNat = expSeq s m.val ∧
      knownOpcode (cmdOpcode s m.val) = true) ∧
    (∃ (s : State) (m : Fin 17) (seq : BitVec 16), regsOpen s = true ∧ s.pck.pow = .run ∧ mstate s m.val = 1 ∧ seq.toNat ≠ expSeq s m.val ∧
      cmdOpcode s m.val ≠ 0x0100) ∧
    (∃ (s : State) (m : Fin 17), regsOpen s = true ∧ s.pck.pow = .run ∧ mstate s m.val = 2) ∧
    (∃ (s : State) (m : Fin 17) (c : Code) (d : Nat) (p : List Byte), mstate s m.val = 2 ∧ coreServes s = true ∧ answerOf s m.val = some (c, d, p)) ∧
    (∃ (s : State) (m : Fin 17), mstate s m.val = 2 ∧ coreServes s = true ∧ answerOf s m.val = none) ∧
    (∃ (s : State) (g : Fin 16) (res : BitVec 8) (pseq : BitVec 16) (q : Nat) (e : Entry), HeardVc2 s g.val 0 1 ∧ s.link.pmReq = some (q, pseq.toNat) ∧
      s.pck.entry = some e ∧ e.acked = false ∧ res = 0) ∧
    (∃ (s : State) (g : Fin 16) (res : BitVec 8) (pseq : BitVec 16) (q : Nat) (e : Entry), HeardVc2 s g.val 0 1 ∧ s.link.pmReq = some (q, pseq.toNat) ∧
      s.pck.entry = some e ∧ e.acked = false ∧ res ≠ 0) ∧
    (∃ (s : State) (e : Entry), s.pck.entry = some e ∧ e.acked = false ∧ s.link.pmReq.isSome = true) :=
  ⟨⟨setMstate up 15 1, 7, 15, 4092, 1, [1, 2, 3, 4], by unfold HeardVc2; decide +kernel⟩,
   ⟨setMstate up 15 1, 7, 15, 4092, 62, List.replicate 248 1, by unfold HeardVc2; decide +kernel⟩,
   ⟨setMstate up 15 1, 7, 15, 4092, 1, by unfold HeardVc2; decide +kernel⟩,
   ⟨(setMstate (command 15 0x0100 0 [] (up)) 15 1), 7, 15, 0, by unfold HeardVc2; decide +kernel⟩,
   ⟨(setMstate (command 15 0xFFFF 0 [] (up)) 15 1), 7, 15, 0, by unfold HeardVc2; decide +kernel⟩,
   ⟨(setMstate (command 16 0x0100 0 [] (up)) 16 1), 16, 0, by decide +kernel⟩,
   ⟨(setMstate (command 16 0x0200 0 [] (up)) 16 1), 16, 1, by decide +kernel⟩,
   ⟨setMstate up 16 2, 16, by decide +kernel⟩,
   ⟨(setMstate up 16 2).modMbx 16 fun x => { x with await := .due .ok 0 [] }, 16, .ok, 0, [], by decide +kernel⟩,
   ⟨setMstate up 16 2, 16, by decide +kernel⟩,
   ⟨{ up with link.pmReq := some (1, 0xFFFF), pck.entry := some { mbx := 0, target := 1 } }, 7, 0, 0xFFFF, 1, { mbx := 0, target := 1 },
    by unfold HeardVc2; decide +kernel⟩,
   ⟨{ up with link.pmReq := some (1, 0xFFFF), pck.entry := some { mbx := 0, target := 1 } }, 7, 255, 0xFFFF, 1, { mbx := 0, target := 1 },
    by unfold HeardVc2; decide +kernel⟩,
   ⟨{ up with link.pmReq := some (1, 0xFFFF), pck.entry := some { mbx := 0, target := 1 } }, { mbx := 0, target := 1 }, by decide +kernel⟩⟩

theorem witness_events_are_raised_and_sent :
    (∃ (sev : Fin 5), sev.val < 3) ∧
    (∃ (sev : Fin 5), sev.val = 3) ∧
    (∃ (sev : Fin 5), sev.val = 4) ∧
    (∃ (sev : Fin 5), 3 ≤ sev.val) ∧
    (∃ (s : State) (u : Nat), s.fcr.easy = some u ∧ u ≤ s.now ∧ s.rd F.FCR_STAT_XSTATE = 1) ∧
    (∃ (s : State) (u : Nat), s.fcr.easy = some u ∧ s.now < u) ∧
    (∃ (s : State) (d : Fin 16) (e : Evt) (rest : List Evt), SMap.getD s.fcr.evq d.val [] = e :: rest ∧ evtRoom s = true) ∧
    (∃ (s : State) (d : Fin 16) (e : Evt) (rest : List Evt), SMap.getD s.fcr.evq d.val [] = e :: rest ∧ evtRoom s = false) ∧
    (∃ (s : State) (r : Raise) (rest : List Raise), s.fcr.svcq = r :: rest ∧ s.mgt.auth = true ∧ svcUp s = true) ∧
    (∃ (s : State) (r : Raise) (rest : List Raise), s.fcr.svcq = r :: rest ∧ s.mgt.auth = false) :=
  ⟨⟨2, by decide +kernel⟩,
   ⟨3, by decide +kernel⟩,
   ⟨4, by decide +kernel⟩,
   ⟨4, by decide +kernel⟩,
   ⟨{ up.wr F.FCR_STAT_XSTATE 1 with fcr.easy := some 0 }, 0, by decide +kernel⟩,
   ⟨{ up with fcr.easy := some 1 }, 1, by decide +kernel⟩,
   ⟨{ up with fcr.evq := [(15, [{ src := 286, sev := .fatal, detail := 0, time := 0 }])] }, 15, { src := 286, sev := .fatal, detail := 0, time := 0 },
    [], by decide +kernel⟩,
   ⟨{ up with fcr.evq := [(15, [{ src := 286, sev := .fatal, detail := 0, time := 0 }])], link.vc2Avail := 0 }, 15,
    { src := 286, sev := .fatal, detail := 0, time := 0 }, [], by decide +kernel⟩,
   ⟨{ up.wr F.SVC_STAT_SLSTATE 2 with fcr.svcq := [{ src := 286, sev := .fatal, stamp := 0, syn := [] }], mgt.auth := true },
    { src := 286, sev := .fatal, stamp := 0, syn := [] }, [], by decide +kernel⟩,
   ⟨{ up with fcr.svcq := [{ src := 286, sev := .fatal, stamp := 0, syn := [] }] }, { src := 286, sev := .fatal, stamp := 0, syn := [] }, [],
    by decide +kernel⟩⟩

theorem witness_words_of_the_store :
    (∃ (s : State) (r : Raise) (rest : List Raise), s.fcr.logq = r :: rest ∧ s.on F.FCR_LOG_LOG_WEAR = false ∧ logAtPort s = false ∧ s.pst.only = false) ∧
    (∃ (s : State), s.fcr.logq = []) ∧
    (∃ (s : State) (w : MWord), s.pst.port = some w ∧ s.glb.waits = [] ∧ s.link.vc2Queue = [] ∧ w.act = .hw ∧ w.cls = 2 ∧ isRepairWord w = false ∧
      s.wearAt w.idx < wearLimit ∧ w.result (s.mramAt w.idx) ≠ s.mramAt w.idx) ∧
    (∃ (s : State) (w : MWord) (k : Nat), s.pst.port = some w ∧ s.glb.waits = [] ∧ s.link.vc2Queue = [] ∧ w.act = .hw ∧ isRepairWord w = false ∧
      s.wearAt w.idx < wearLimit ∧ w.result (s.mramAt w.idx) ≠ s.mramAt w.idx ∧ k ≠ w.idx) ∧
    (∃ (s : State), s.pst.port = none ∧ s.link.vc2Queue = []) ∧
    (∃ (s : State) (w : MWord) (who : Fin 17) (n : Nat) (v : Word), s.pst.port = some w ∧ s.glb.waits = [] ∧ s.link.vc2Queue = [] ∧
      w.act = .preg who.val .core .PST_PREG n 0 v.toNat ∧ n < 512 ∧ s.wearAt w.idx < wearLimit ∧ w.result (s.mramAt w.idx) ≠ s.mramAt w.idx) ∧
    (∃ (s : State), lifeRuns s = true) ∧
    (∃ (s : State), s.pck.pow = .off) :=
  ⟨⟨{ up with fcr.logq := [{ src := 286, sev := .fatal, stamp := 0, syn := [] }] }, { src := 286, sev := .fatal, stamp := 0, syn := [] }, [],
    by decide +kernel⟩,
   ⟨up, by decide +kernel⟩,
   ⟨{ up with pst.port := some { cls := 2, idx := 0x120000, mask := 1, val := 1, act := .hw } },
    { cls := 2, idx := 0x120000, mask := 1, val := 1, act := .hw }, by decide +kernel⟩,
   ⟨{ up with pst.port := some { cls := 2, idx := 0x120000, mask := 1, val := 1, act := .hw } },
    { cls := 2, idx := 0x120000, mask := 1, val := 1, act := .hw }, 0x11FFFF, by decide +kernel⟩,
   ⟨up, by decide +kernel⟩,
   ⟨{ up with pst.port := some { cls := 3, idx := 0x120000, mask := 1, val := 1, act := .preg 16 .core .PST_PREG 511 0 0xFFFFFFFF } },
    { cls := 3, idx := 0x120000, mask := 1, val := 1, act := .preg 16 .core .PST_PREG 511 0 0xFFFFFFFF }, 16, 511, 0xFFFFFFFF, by decide +kernel⟩,
   ⟨up, by decide +kernel⟩,
   ⟨State.reset, by decide +kernel⟩⟩

theorem witness_thermal_sensors_and_trips :
    (∃ (s : State) (ok : Bool), s.pck.pow = .run ∧ ok = true) ∧
    (∃ (s : State), s.pck.pow = .off) ∧
    (∃ (s : State), s.pck.pow = .run) ∧
    (∃ (s : State), blind s = true) ∧
    (∃ (s : State), blind s = false) ∧
    (∃ (s : State) (n : Fin 50) (isD : Bool) (r : Int), s.pck.pow = .run ∧ s.thm.shut = none ∧ overLimit s n.val 115 105 = some (isD, r) ∧ isD = true) ∧
    (∃ (s : State) (n : Fin 50) (isD : Bool) (r : Int), s.pck.pow = .run ∧ s.thm.shut = none ∧ overLimit s n.val 115 105 = some (isD, r) ∧ isD = false) ∧
    (∃ (s : State) (n : Fin 50), overLimit s n.val 115 105 = none) ∧
    (∃ (s : State) (n : Fin 50) (isD : Bool) (r : Int), s.pck.pow = .run ∧ s.thm.tripped = false ∧ overLimit s n.val 123 113 = some (isD, r)) ∧
    (∃ (s : State) (n : Fin 50), overLimit s n.val 123 113 = none) ∧
    (∃ (s : State), s.pck.mainGood = false ∧ s.pck.vbkp = true ∧ s.pck.mainLow + msec ≤ s.now) ∧
    (∃ (s : State), s.pck.mainGood = false ∧ s.pck.vbkp = true ∧ s.now < s.pck.mainLow + msec) :=
  ⟨⟨up, true, by decide +kernel⟩,
   ⟨State.reset, by decide +kernel⟩,
   ⟨up, by decide +kernel⟩,
   ⟨up, by decide +kernel⟩,
   ⟨{ up with thm.temp := (List.range 50).map fun n => (n, 16, true) }, by decide +kernel⟩,
   ⟨{ up with thm.temp := [(47, 1680, true)] }, 47, true, 1680, by decide +kernel⟩,
   ⟨{ up with thm.temp := [(23, 1840, true)] }, 23, false, 1840, by decide +kernel⟩,
   ⟨{ up with thm.temp := [(47, 1679, true)] }, 47, by decide +kernel⟩,
   ⟨{ up with thm.temp := [(47, 1808, true)] }, 47, true, 1808, by decide +kernel⟩,
   ⟨{ up with thm.temp := [(23, 1967, true)] }, 23, by decide +kernel⟩,
   ⟨{ up with pck.mainGood := false, now := msec }, by decide +kernel⟩,
   ⟨{ up with pck.mainGood := false, now := (msec - 1) }, by decide +kernel⟩⟩

theorem witness_cold_boot_steps :
    (∃ (s : State), s.pck.mainGood = true ∧ s.pck.pow = .off ∧ s.thm.shut = none ∧ (s.pck.offReq = false ∨ s.pck.wake = some 3)) ∧
    (∃ (s : State), s.pck.mainGood = true ∧ s.pck.pow ≠ .off) ∧
    (∃ (s : State) (te : Bool), s.pck.pow = .boot ∧ s.pck.step = 2 ∧ s.pck.refclk = true ∧ te = true) ∧
    (∃ (s : State) (te : Bool), s.pck.pow = .boot ∧ s.pck.step = 2 ∧ s.pck.refclk = true ∧ te = false) ∧
    (∃ (s : State) (b : Fin 5) (pass : Bool), s.pck.pow = .boot ∧ s.pck.step = 4 ∧ bistTurn s b.val = true ∧ pass = true ∧ 4 ≤ s.pck.bistEnd.length) ∧
    (∃ (s : State) (b : Fin 5) (pass : Bool) (dur : BitVec 12), s.pck.pow = .boot ∧ s.pck.step = 4 ∧ bistTurn s b.val = true ∧ pass = false ∧
      s.pck.bistRan.contains b.val = false ∧ s.now + dur.toNat * 10 * usec ≤ s.pck.stepAt + 40 * msec) ∧
    (∃ (s : State) (mask : Nat) (mbx : Option Nat), s.cst.run = some (mask, mbx) ∧ s.pck.pow = .boot) ∧
    (∃ (s : State) (res : BitVec 14) (mask : Nat) (mbx : Option Nat), s.cst.run = some (mask, mbx) ∧ (res.toNat < 9950 ∨ 10050 < res.toNat)) ∧
    (∃ (s : State), s.cst.run = none ∧ (s.pck.pow = .run ∨ s.pck.pow = .idle) ∧ s.rd F.CST_CAL_CTL_PER_MASK ≠ 0 ∧
      s.cst.last + 3600 * s.rd F.CST_CAL_CTL_CAL_PER ≤ s.rd F.PST_LIFE_LIFE_S) ∧
    (∃ (s : State), s.pck.pow = .boot ∧ s.pck.step = 51 ∧ s.pck.tiers + 1 < 4) ∧
    (∃ (s : State), s.pck.pow = .boot ∧ s.pck.step = 51 ∧ 4 ≤ s.pck.tiers + 1) ∧
    (∃ (s : State) (ch : Fin 32) (pass : Bool) (x : Train), (s.dmcOf ch.val).train = some x ∧ pass = true ∧ x.step < 4) ∧
    (∃ (s : State) (ch : Fin 32) (pass : Bool) (x : Train), (s.dmcOf ch.val).train = some x ∧ pass = true ∧ 4 ≤ x.step ∧ x.ranks = []) ∧
    (∃ (s : State) (ch : Fin 32) (pass : Bool) (x : Train), (s.dmcOf ch.val).train = some x ∧ pass = false ∧ x.attempt < 2) ∧
    (∃ (s : State) (ch : Fin 32) (pass : Bool) (x : Train), (s.dmcOf ch.val).train = some x ∧ pass = false ∧ 2 ≤ x.attempt) ∧
    (∃ (s : State), s.pck.pow = .boot ∧ s.pck.step = 6 ∧ s.link.refclk = true) ∧
    (∃ (s : State) (okA : Bool) (okB : Bool), s.pck.test = false ∧ coreState s false = 1 ∧
      imageOk s (s.rd F.MGT_BOOT_BOOT_SLOT) (if (s.rd F.MGT_BOOT_BOOT_SLOT) = 0 then okA else okB) = true ∧ coreState s true = 1) ∧
    (∃ (s : State) (okA : Bool) (okB : Bool), s.pck.test = false ∧ coreState s false = 1 ∧
      imageOk s (s.rd F.MGT_BOOT_BOOT_SLOT) (if (s.rd F.MGT_BOOT_BOOT_SLOT) = 0 then okA else okB) = false ∧
      imageOk s (1 - (s.rd F.MGT_BOOT_BOOT_SLOT)) (if 1 - (s.rd F.MGT_BOOT_BOOT_SLOT) = 0 then okA else okB) = false) ∧
    (∃ (s : State) (okA : Bool) (okB : Bool), s.pck.test = false ∧ coreState s false = 1 ∧ coreState s true = 1 ∧
      imageOk s (s.rd F.MGT_BOOT_BOOT_SLOT) (if (s.rd F.MGT_BOOT_BOOT_SLOT) = 0 then okA else okB) = true) :=
  ⟨⟨{ State.reset with pck.mainGood := true }, by decide +kernel⟩,
   ⟨up, by decide +kernel⟩,
   ⟨inStep 2 up, true, by decide +kernel⟩,
   ⟨inStep 2 up, false, by decide +kernel⟩,
   ⟨{ inStep 4 up with pck.bistEnd := [0, 1, 2, 3] }, 4, true, by decide +kernel⟩,
   ⟨inStep 4 up, 3, false, 4000, by decide +kernel⟩,
   ⟨{ inStep 51 up with cst.run := some (31, none) }, 31, none, by decide +kernel⟩,
   ⟨{ up with cst.run := some (31, none) }, 9949, 31, none, by decide +kernel⟩,
   ⟨(up.wr F.CST_CAL_CTL_PER_MASK 1).wr F.PST_LIFE_LIFE_S 0xFFFFFFFF, by decide +kernel⟩,
   ⟨{ inStep 51 up with pck.tiers := 2 }, by decide +kernel⟩,
   ⟨{ inStep 51 up with pck.tiers := 3 }, by decide +kernel⟩,
   ⟨{ up with dmc := [(31, { train := some { rank := 0, step := 3, attempt := 0, ranks := [1] } })] }, 31, true,
    { rank := 0, step := 3, attempt := 0, ranks := [1] }, by decide +kernel⟩,
   ⟨{ up with dmc := [(31, { train := some { rank := 0, step := 4, attempt := 0, ranks := [] } })] }, 31, true,
    { rank := 0, step := 4, attempt := 0, ranks := [] }, by decide +kernel⟩,
   ⟨{ up with dmc := [(31, { train := some { rank := 0, step := 4, attempt := 1, ranks := [] } })] }, 31, false,
    { rank := 0, step := 4, attempt := 1, ranks := [] }, by decide +kernel⟩,
   ⟨{ up with dmc := [(31, { train := some { rank := 0, step := 4, attempt := 2, ranks := [] } })] }, 31, false,
    { rank := 0, step := 4, attempt := 2, ranks := [] }, by decide +kernel⟩,
   ⟨inStep 6 up, by decide +kernel⟩,
   ⟨{ (up.wr F.MGT_STAT_A_STATE 1).wr F.MGT_STAT_B_STATE 1 with pst.mram := [(0, 0x4D495843), (1, 1), (2, 7), (3, 1024), (4, 1024), (5, 0), (6, 0x200 + 2048)] },
    true, false, by decide +kernel⟩,
   ⟨{ (up.wr F.MGT_STAT_A_STATE 1).wr F.MGT_STAT_B_STATE 1 with pst.mram := [(0, 0x4D495843), (1, 1), (2, 7), (3, 1024), (4, 1024), (5, 0), (6, 0x200 + 2048)] },
    false, false, by decide +kernel⟩,
   ⟨{ (up.wr F.MGT_STAT_A_STATE 1).wr F.MGT_STAT_B_STATE 1 with pst.mram := [(0, 0x4D495843), (1, 1), (2, 7), (3, 1024), (4, 1024), (5, 0), (6, 0x200 + 2048)] },
    true, false, by decide +kernel⟩⟩

theorem witness_resets_and_supplies :
    (∃ (s : State), s.thm.shut = none ∧ (s.pck.pow = .run ∨ s.pck.pow = .idle ∨ s.pck.pow = .entering)) ∧
    (∃ (s : State), s.thm.shut = none ∧ s.pck.pow = .sleep) ∧
    (∃ (s : State), s.thm.shut = none ∧ s.pck.pow = .boot ∧ s.pck.step = 4) ∧
    (∃ (s : State), s.pck.pow = .warm ∧ s.pck.stretched = false ∧ (∀ (c : Nat), c < 32 → s.cstate c ≠ 3)) ∧
    (∃ (s : State), s.pck.pow = .warm ∧ s.pck.stretched = true ∧ s.pck.refclk = true ∧ s.mgt.stored = []) ∧
    (∃ (s : State), s.pck.pow = .boot ∧ s.pck.step = 3) ∧
    (∃ (s : State), s.pck.pow = .sleep ∧ s.pck.wake = none) ∧
    (∃ (s : State), s.pck.pow = .deepSleep ∧ s.pck.wake = none) ∧
    (∃ (s : State), s.pck.pow = .off ∧ s.pck.mainGood = false ∧ s.pck.vbkp = true) ∧
    (∃ (s : State), s.pck.pow = .off ∧ s.pck.mainGood = true ∧ s.pck.vbkp = true ∧ s.thm.shut = none) ∧
    (∃ (s : State), (s.pck.pow = .run ∨ s.pck.pow = .idle ∨ s.pck.pow = .sleep ∨ s.pck.pow = .entering) ∧ s.thm.shut = none ∧ s.glb.waits = [] ∧
      s.link.vc2Queue = [] ∧ s.on F.PCK_CTL_DROOP_EN = true) ∧
    (∃ (s : State), (s.pck.pow = .run ∨ s.pck.pow = .idle ∨ s.pck.pow = .sleep ∨ s.pck.pow = .entering) ∧ s.thm.shut = none ∧ s.glb.waits = [] ∧
      s.link.vc2Queue = [] ∧ s.on F.PCK_CTL_DROOP_EN = false) ∧
    (∃ (s : State), s.pck.mainGood = true ∧ (s.pck.pow = .run ∨ s.pck.pow = .idle ∨ s.pck.pow = .sleep ∨ s.pck.pow = .entering ∨ s.pck.pow = .warm) ∧
      s.thm.shut = none ∧ s.rd F.PCK_STAT_KEEL_MODE = 0) ∧
    (∃ (s : State), s.pck.mainGood = true ∧ s.pck.pow = .boot) ∧
    (∃ (s : State), s.pck.mainGood = false ∧ s.pck.pow = .deepSleep ∧ s.pck.wake = none) ∧
    (∃ (s : State), s.pck.mainGood = false ∧ s.pck.pow = .off ∧ s.pck.vbkp = true ∧ s.thm.shut = none ∧ (s.pck.offReq = false ∨ s.pck.wake = some 3)) ∧
    (∃ (s : State), beforeSwitch s = true ∧ victimsIdle s = true) ∧
    (∃ (s : State), beforeSwitch s = false) ∧
    (∃ (s : State), (beforeSwitch s = false ∨ victimsIdle s = false)) ∧
    (∃ (s : State), s.pck.pow = .powerFail ∧ s.rd F.PCK_STAT_KEEL_MODE = 1 ∧ s.pst.port = none ∧ s.pst.q = [] ∧ s.on F.PCK_STAT_RET_AVAIL = true ∧
      s.thm.shut ≠ some true) ∧
    (∃ (s : State), s.pck.pow = .powerFail ∧ s.rd F.PCK_STAT_KEEL_MODE = 1 ∧ s.pst.port = none ∧ s.pst.q = [] ∧ s.on F.PCK_STAT_RET_AVAIL = false) ∧
    (∃ (s : State) (pass : Bool), s.pck.pow = .boot ∧ pass = false) ∧
    (∃ (s : State), s.pck.pow ≠ .boot) ∧
    (∃ (s : State), s.pck.pow = .deepSleep ∧ s.rd F.PCK_STAT_KEEL_MODE = 2) ∧
    (∃ (s : State), s.pck.pow = .run) ∧
    (∃ (s : State) (cause : Fin 5), s.pck.pow ≠ .off ∧ cause ≠ 0) ∧
    (∃ (s : State) (cause : Fin 5), s.pck.pow ≠ .off ∧ cause = 0) ∧
    (∃ (s : State), s.pck.vbkp = true) :=
  ⟨⟨up, by decide +kernel⟩,
   ⟨inPow .sleep up, by decide +kernel⟩,
   ⟨inStep 4 up, by decide +kernel⟩,
   ⟨inPow .warm up, by decide +kernel⟩,
   ⟨{ inPow .warm up with pck.stretched := true }, by decide +kernel⟩,
   ⟨inStep 3 up, by decide +kernel⟩,
   ⟨inPow .sleep up, by decide +kernel⟩,
   ⟨{ inPow .deepSleep up with pck.mainGood := false }, by decide +kernel⟩,
   ⟨{ inPow .off up with pck.mainGood := false }, by decide +kernel⟩,
   ⟨inPow .off up, by decide +kernel⟩,
   ⟨up.wr F.PCK_CTL_DROOP_EN 1, by decide +kernel⟩,
   ⟨up.wr F.PCK_CTL_DROOP_EN 0, by decide +kernel⟩,
   ⟨up, by decide +kernel⟩,
   ⟨inStep 4 up, by decide +kernel⟩,
   ⟨{ inPow .deepSleep up with pck.mainGood := false }, by decide +kernel⟩,
   ⟨{ inPow .off up with pck.mainGood := false }, by decide +kernel⟩,
   ⟨inPow .powerFail up, by decide +kernel⟩,
   ⟨up, by decide +kernel⟩,
   ⟨up, by decide +kernel⟩,
   ⟨((inPow .powerFail up).wr F.PCK_STAT_KEEL_MODE 1).wr F.PCK_STAT_RET_AVAIL 1, by decide +kernel⟩,
   ⟨((inPow .powerFail up).wr F.PCK_STAT_KEEL_MODE 1).wr F.PCK_STAT_RET_AVAIL 0, by decide +kernel⟩,
   ⟨inStep 3 up, false, by decide +kernel⟩,
   ⟨up, by decide +kernel⟩,
   ⟨(inPow .deepSleep up).wr F.PCK_STAT_KEEL_MODE 2, by decide +kernel⟩,
   ⟨up, by decide +kernel⟩,
   ⟨up, 4, by decide +kernel⟩,
   ⟨up, 0, by decide +kernel⟩,
   ⟨up, by decide +kernel⟩⟩

theorem witness_clocks_and_power_states :
    (∃ (s : State), s.pck.refclk = true ∧ (s.pck.pow = .run ∨ s.pck.pow = .idle ∨ s.pck.pow = .entering ∨ s.pck.pow = .warm)) ∧
    (∃ (s : State), s.pck.refclk = true ∧ beforeSwitch s = true) ∧
    (∃ (s : State), (s.pck.pow = .sleep ∨ s.pck.pow = .deepSleep ∨ s.pck.pow = .boot)) ∧
    (∃ (s : State), s.pck.refclk = false) ∧
    (∃ (s : State), s.pck.refclk = false ∧ s.pck.pow = .warm ∧ s.pck.stretched = true ∧ s.pck.warmCause = 2) ∧
    (∃ (s : State), s.pck.refclk = false ∧ s.pck.pow ≠ .warm) ∧
    (∃ (s : State), s.pck.failedPll.contains 4 = false) ∧
    (∃ (s : State), s.pck.failedPll.contains 4 = true) ∧
    (∃ (s : State), s.pck.fabDown = true ∧ s.pck.stby = true) ∧
    (∃ (s : State), s.pck.stby = false) ∧
    (∃ (s : State) (p : Fin 4), s.pck.failedPll.contains p.val = false) ∧
    (∃ (s : State) (p : Fin 4), bit s.pck.dckDown p.val = true ∧ s.pck.failedPll.contains p.val = true ∧ s.pck.stby = true) ∧
    (∃ (s : State) (p : Fin 4), bit s.pck.dckDown p.val = true ∧ s.pck.failedPll.contains p.val = false) ∧
    (∃ (s : State) (p : Fin 4), bit s.pck.dckDown p.val = false) ∧
    (∃ (s : State), s.on F.PCK_CLK_MCK_LOCK = true) ∧
    (∃ (s : State), s.on F.PCK_CLK_MCK_LOCK = false) ∧
    (∃ (s : State) (p : Fin 5), s.pck.failedPll.contains p.val = true) ∧
    (∃ (s : State) (p : Fin 5), s.pck.failedPll.contains p.val = false) ∧
    (∃ (s : State), s.pck.stby = true) ∧
    (∃ (s : State), s.pck.stby = false) ∧
    (∃ (s : State), s.pck.pow = .run ∧ s.on F.PCK_CTL_IDLE_EN = true ∧ s.pck.step = 0 ∧ (∀ r ∈ s.rqe.reqs, r.iss ≠ .host) ∧ s.rqe.waiting = []) ∧
    (∃ (s : State), s.on F.PCK_CTL_IDLE_EN = false) ∧
    (∃ (s : State), s.pck.pow = .idle) ∧
    (∃ (s : State) (e : Entry), s.pck.entry = some e ∧ e.acked = true ∧ drained s = true ∧ s.pck.commit = none ∧ refuser s e.target = none ∧
      (s.mbx e.mbx).await = .drain) ∧
    (∃ (s : State) (e : Entry) (c : Nat) (d : Nat), s.pck.entry = some e ∧ e.acked = true ∧ drained s = true ∧ s.pck.commit = none ∧
      refuser s e.target = some (c, d)) ∧
    (∃ (s : State), s.pck.pow = .entering ∧ s.pck.wfi = true ∧ linkQuiet s = true ∧ channelsQuiet s = true ∧ s.rd F.PCK_MODE_MODE = 1) ∧
    (∃ (s : State), s.pck.pow = .entering ∧ s.pck.wfi = true ∧ linkQuiet s = true ∧ channelsQuiet s = true ∧ s.rd F.PCK_MODE_MODE = 2) ∧
    (∃ (s : State), s.pck.pow = .entering ∧ s.pck.wfi = true ∧ linkQuiet s = true ∧ channelsQuiet s = true ∧ s.rd F.PCK_MODE_MODE = 3 ∧
      s.pst.port = none ∧ s.pst.q = []) ∧
    (∃ (s : State) (c : Nat), s.pck.wake = some c ∧ c < 8 ∧ s.pck.refclk = true ∧ s.pck.resetLow = false ∧ s.pck.pow = .sleep) ∧
    (∃ (s : State) (c : Nat), s.pck.wake = some c ∧ c < 8 ∧ s.pck.refclk = true ∧ s.pck.resetLow = false ∧ s.pck.pow = .deepSleep ∧
      s.pck.mainGood = true ∧ s.thm.shut = none ∧ s.mgt.stored = []) ∧
    (∃ (s : State), s.pck.wake = none ∧ s.pck.pow = .sleep) ∧
    (∃ (s : State), s.pck.wake = none ∧ s.pck.pow = .run) :=
  ⟨⟨up, by decide +kernel⟩,
   ⟨inPow .powerFail up, by decide +kernel⟩,
   ⟨inPow .sleep up, by decide +kernel⟩,
   ⟨{ up with pck.refclk := false }, by decide +kernel⟩,
   ⟨{ inPow .warm up with pck.refclk := false, pck.stretched := true, pck.warmCause := 2 }, by decide +kernel⟩,
   ⟨{ up with pck.refclk := false }, by decide +kernel⟩,
   ⟨up, by decide +kernel⟩,
   ⟨{ up with pck.failedPll := [4] }, by decide +kernel⟩,
   ⟨{ up with pck.fabDown := true }, by decide +kernel⟩,
   ⟨{ up with pck.stby := false }, by decide +kernel⟩,
   ⟨up, 3, by decide +kernel⟩,
   ⟨{ up with pck.failedPll := [3], pck.dckDown := 8 }, 3, by decide +kernel⟩,
   ⟨{ up with pck.dckDown := 8 }, 3, by decide +kernel⟩,
   ⟨up, 3, by decide +kernel⟩,
   ⟨up.wr F.PCK_CLK_MCK_LOCK 1, by decide +kernel⟩,
   ⟨up.wr F.PCK_CLK_MCK_LOCK 0, by decide +kernel⟩,
   ⟨{ up with pck.failedPll := [4] }, 4, by decide +kernel⟩,
   ⟨up, 4, by decide +kernel⟩,
   ⟨up, by decide +kernel⟩,
   ⟨{ up with pck.stby := false }, by decide +kernel⟩,
   ⟨up.wr F.PCK_CTL_IDLE_EN 1, by decide +kernel⟩,
   ⟨up.wr F.PCK_CTL_IDLE_EN 0, by decide +kernel⟩,
   ⟨inPow .idle up, by decide +kernel⟩,
   ⟨{ (up).modMbx 0 (fun x => { x with await := .drain }) with pck.entry := some { mbx := 0, target := 1, acked := true } },
    { mbx := 0, target := 1, acked := true }, by decide +kernel⟩,
   ⟨{ (up.wr F.PCK_VOTE_NOSLEEP 1 15).modMbx 0 (fun x => { x with await := .drain }) with pck.entry := some { mbx := 0, target := 1, acked := true } },
    { mbx := 0, target := 1, acked := true }, 1, 15, by decide +kernel⟩,
   ⟨{ (inPow .entering up).wr F.PCK_MODE_MODE 1 with pck.wfi := true }, by decide +kernel⟩,
   ⟨{ (inPow .entering up).wr F.PCK_MODE_MODE 2 with pck.wfi := true }, by decide +kernel⟩,
   ⟨{ (inPow .entering up).wr F.PCK_MODE_MODE 3 with pck.wfi := true }, by decide +kernel⟩,
   ⟨{ inPow .sleep up with pck.wake := some 7 }, 7, by decide +kernel⟩,
   ⟨{ inPow .deepSleep up with pck.wake := some 7 }, 7, by decide +kernel⟩,
   ⟨inPow .sleep up, by decide +kernel⟩,
   ⟨up, by decide +kernel⟩⟩

theorem witness_cores_and_leases :
    (∃ (s : State), activeCore s = false ∧ coreState s false = 2 ∧ coreState s true = 3 ∧ s.mgt.trial = none ∧ 0 < s.rd F.MGT_CTL_WDT_US ∧
      s.mgt.beat.1 + s.rd F.MGT_CTL_WDT_US * usec ≤ s.now) ∧
    (∃ (s : State), activeCore s = false ∧ coreState s false = 2 ∧ coreState s true = 3 ∧ s.mgt.trial = none ∧ 0 < s.rd F.MGT_CTL_WDT_US ∧
      s.now < s.mgt.beat.1 + s.rd F.MGT_CTL_WDT_US * usec ∧ s.now < s.mgt.beat.2 + s.rd F.MGT_CTL_WDT_US * usec) ∧
    (∃ (s : State) (b : Bool), (coreState s b = 3 ∨ coreState s b = 4)) ∧
    (∃ (s : State) (b : Bool), coreState s b = 2 ∧ coreState s (!b) ≠ 3) ∧
    (∃ (s : State) (b : Bool), coreState s b = 2 ∧ coreState s (!b) = 3 ∧ activeCore s = b) ∧
    (∃ (s : State) (b : Bool), coreState s b = 0) ∧
    (∃ (s : State) (ok : Bool), coreState s (activeCore s) = 2 ∧ (coreState s (!activeCore s) = 0 ∨ coreState s (!activeCore s) = 4) ∧
      s.on F.MGT_CTL_STBY_EN = true ∧ (activeCore s = false ∨ s.mgt.heldA = false) ∧ imageOk s (coreSlot s (activeCore s)) ok = true) ∧
    (∃ (s : State) (ok : Bool), coreState s (activeCore s) = 2 ∧ (coreState s (!activeCore s) = 0 ∨ coreState s (!activeCore s) = 4) ∧
      s.on F.MGT_CTL_STBY_EN = true ∧ (activeCore s = false ∨ s.mgt.heldA = false) ∧ imageOk s (coreSlot s (activeCore s)) ok = false) ∧
    (∃ (s : State) (slot : Nat) (u : Nat), s.mgt.trial = some (slot, u) ∧ u + s.rd F.MGT_CTL_TRIAL_S * second ≤ s.now) ∧
    (∃ (s : State) (slot : Nat) (u : Nat), s.mgt.trial = some (slot, u) ∧ s.now < u + s.rd F.MGT_CTL_TRIAL_S * second) ∧
    (∃ (s : State) (x : List Byte × Nat), s.mgt.nonce = some x ∧ x.2 ≤ s.now) ∧
    (∃ (s : State) (x : List Byte × Nat), s.mgt.nonce = some x ∧ s.now < x.2) ∧
    (∃ (s : State), s.on F.SVC_STAT_AUTH_LOCK = true ∧ s.mgt.lockTo ≤ s.now) ∧
    (∃ (s : State), s.on F.SVC_STAT_AUTH_LOCK = true ∧ s.now < s.mgt.lockTo) :=
  ⟨⟨{ up.wr F.MGT_CTL_WDT_US 100 with now := 100 * usec }, by decide +kernel⟩,
   ⟨{ up.wr F.MGT_CTL_WDT_US 100 with now := 100 * usec - 1 }, by decide +kernel⟩,
   ⟨up, true, by decide +kernel⟩,
   ⟨(up.wr F.MGT_STAT_A_STATE 2).wr F.MGT_STAT_B_STATE 4, false, by decide +kernel⟩,
   ⟨up, false, by decide +kernel⟩,
   ⟨(up.wr F.MGT_STAT_A_STATE 2).wr F.MGT_STAT_B_STATE 0, true, by decide +kernel⟩,
   ⟨{ ((up.wr F.MGT_STAT_A_STATE 2).wr F.MGT_STAT_B_STATE 4).wr F.MGT_CTL_STBY_EN 1 with pst.mram := [(0, 0x4D495843), (1, 1), (2, 7), (3, 1024), (4, 1024), (5, 0), (6, 0x200 + 2048)] },
    true, by decide +kernel⟩,
   ⟨{ ((up.wr F.MGT_STAT_A_STATE 2).wr F.MGT_STAT_B_STATE 0).wr F.MGT_CTL_STBY_EN 1 with pst.mram := [(0, 0x4D495843), (1, 1), (2, 7), (3, 1024), (4, 1024), (5, 0), (6, 0x200 + 2048)] },
    false, by decide +kernel⟩,
   ⟨{ up with mgt.trial := some (1, 0), now := 300 * second }, 1, 0, by decide +kernel⟩,
   ⟨{ up.wr F.MGT_CTL_TRIAL_S 1 with mgt.trial := some (1, 0) }, 1, 0, by decide +kernel⟩,
   ⟨{ up with mgt.nonce := some ([], 5), now := 5 }, ([], 5), by decide +kernel⟩,
   ⟨{ up with mgt.nonce := some ([], 5), now := 4 }, ([], 5), by decide +kernel⟩,
   ⟨{ up.wr F.SVC_STAT_AUTH_LOCK 1 with mgt.lockTo := 5, now := 5 }, by decide +kernel⟩,
   ⟨{ up.wr F.SVC_STAT_AUTH_LOCK 1 with mgt.lockTo := 5, now := 4 }, by decide +kernel⟩⟩

set_option maxRecDepth 100000 in
theorem witness_service_port_commands :
    (∃ (s : State) (raddr : BitVec 32), framesOpen s = true ∧ s.mgt.auth = false ∧ pregPending s 16 = false ∧ (∃ r i j,
      regAt (raddr.toNat % 2 ^ 24) = some (r, i, j) ∧ openReg r = false)) ∧
    (∃ (s : State), framesOpen s = false) ∧
    (∃ (s : State) (msg : List Byte), framesOpen s = true ∧ s.pck.pow = .run ∧ 16 ≤ msg.length ∧ msg.length ≤ 4096 ∧ s.svc.mbxTag = none ∧
      mstate s 16 = 1 ∧ leAt msg 2 2 = expSeq s 16 ∧ knownOpcode (leAt msg 0 2) = true) ∧
    (∃ (s : State) (raw : List Byte), framesOpen s = true ∧ 8 ≤ raw.length ∧ 4 ≤ leAt raw 0 1) ∧
    (∃ (s : State) (bytes : List Byte) (x : Xfer), s.svc.xfer = some x ∧ x.fill = true ∧ svcUp s = true ∧ rqeRuns s = true ∧ bytes.length = 4176 ∧
      internalRoom s 64 = true ∧ crc32 (bytes.drop 16) = leAt bytes 12 4 ∧ 1 < x.left) ∧
    (∃ (s : State) (bytes : List Byte) (x : Xfer), s.svc.xfer = some x ∧ x.fill = true ∧ svcUp s = true ∧ rqeRuns s = true ∧ bytes.length = 4176 ∧
      internalRoom s 64 = true ∧ crc32 (bytes.drop 16) = leAt bytes 12 4 ∧ x.left = 1) ∧
    (∃ (s : State) (bytes : List Byte) (x : Xfer), s.svc.xfer = some x ∧ x.fill = true ∧ svcUp s = true ∧ rqeRuns s = true ∧ bytes.length = 4176 ∧
      internalRoom s 64 = true ∧ crc32 (bytes.drop 16) ≠ leAt bytes 12 4) ∧
    (∃ (s : State) (x : Xfer), s.svc.xfer = some x ∧ x.fill = false ∧ svcUp s = true ∧ x.out = false ∧ rqeRuns s = true ∧ internalRoom s 0 = true) ∧
    (∃ (s : State) (x : Xfer) (r : Req) (c : Cpl), s.svc.xfer = some x ∧ x.fill = false ∧ svcUp s = true ∧ x.out = true ∧
      (s.rqe.reqs.find? fun r => r.iss == .service && r.op == .rd && r.cpl.isSome) = some r ∧ r.cpl = some c) ∧
    (∃ (s : State), s.svc.xfer = none) ∧
    (∃ (s : State), s.svc.xfer = none) ∧
    (∃ (s : State), svcPowered s = true ∧ s.on F.SVC_CTL_SVC_EN = true ∧ s.rd F.SVC_STAT_SLSTATE = 0) ∧
    (∃ (s : State), svcPowered s = true ∧ s.on F.SVC_CTL_SVC_EN = true ∧ s.rd F.SVC_STAT_SLSTATE = 1) ∧
    (∃ (s : State), svcPowered s = true ∧ s.on F.SVC_CTL_SVC_EN = true ∧ s.rd F.SVC_STAT_SLSTATE = 2) ∧
    (∃ (s : State) (value : BitVec 16), svcUp s = true ∧ value.toNat / 256 = 1) ∧
    (∃ (s : State) (value : BitVec 16), svcUp s = true ∧ value.toNat % 256 ≤ 1) ∧
    (∃ (s : State) (x : Turn), s.link.turn = some x ∧ x.step = .quietLine ∧ (s.grp x.grp).dir = true) ∧
    (∃ (s : State), s.link.turn = none) :=
  ⟨⟨up.wr F.SVC_STAT_SLSTATE 2, BitVec.ofNat 32 (regOffset .GLB_PLOCK 0 0), by decide +kernel, by decide +kernel, by decide +kernel, .GLB_PLOCK, 0, 0,
    by decide +kernel⟩,
   ⟨up, by decide +kernel⟩,
   ⟨setMstate (up.wr F.SVC_STAT_SLSTATE 2) 16 1, leBytes 2 0x0100 ++ List.replicate 14 0, by decide +kernel⟩,
   ⟨up.wr F.SVC_STAT_SLSTATE 2, [4, 0, 0, 0, 0, 0, 0, 0], by decide +kernel⟩,
   ⟨{ up.wr F.SVC_STAT_SLSTATE 2 with svc.xfer := some { fill := true, addr := 0, left := 2, out := false } }, block zeroCrc,
    { fill := true, addr := 0, left := 2, out := false }, by decide +kernel, by decide +kernel, by decide +kernel, by decide +kernel, block_length _,
    by decide +kernel, block_right, by decide +kernel⟩,
   ⟨{ up.wr F.SVC_STAT_SLSTATE 2 with svc.xfer := some { fill := true, addr := 0, left := 1, out := false } }, block zeroCrc,
    { fill := true, addr := 0, left := 1, out := false }, by decide +kernel, by decide +kernel, by decide +kernel, by decide +kernel, block_length _,
    by decide +kernel, block_right, by decide +kernel⟩,
   ⟨{ up.wr F.SVC_STAT_SLSTATE 2 with svc.xfer := some { fill := true, addr := 0, left := 1, out := false } }, block ((zeroCrc + 1) % 2 ^ 32),
    { fill := true, addr := 0, left := 1, out := false }, by decide +kernel, by decide +kernel, by decide +kernel, by decide +kernel, block_length _,
    by decide +kernel, block_wrong⟩,
   ⟨{ up.wr F.SVC_STAT_SLSTATE 2 with svc.xfer := some { fill := false, addr := 0, left := 1, out := false } },
    { fill := false, addr := 0, left := 1, out := false }, by decide +kernel⟩,
   ⟨{ up.wr F.SVC_STAT_SLSTATE 2 with svc.xfer := some { fill := false, addr := 0, left := 1, out := true }, rqe.reqs := [{ id := 3, op := .rd, p := { opc := 0 }, iss := .service, cpl := some { status := .ok } }] },
    { fill := false, addr := 0, left := 1, out := true }, { id := 3, op := .rd, p := { opc := 0 }, iss := .service, cpl := some { status := .ok } },
    { status := .ok }, by decide +kernel⟩,
   ⟨up, by decide +kernel⟩,
   ⟨up, by decide +kernel⟩,
   ⟨(up.wr F.SVC_CTL_SVC_EN 1).wr F.SVC_STAT_SLSTATE 0, by decide +kernel⟩,
   ⟨(up.wr F.SVC_CTL_SVC_EN 1).wr F.SVC_STAT_SLSTATE 1, by decide +kernel⟩,
   ⟨(up.wr F.SVC_CTL_SVC_EN 1).wr F.SVC_STAT_SLSTATE 2, by decide +kernel⟩,
   ⟨up.wr F.SVC_STAT_SLSTATE 2, 0x1FF, by decide +kernel⟩,
   ⟨up.wr F.SVC_STAT_SLSTATE 2, 0xFF01, by decide +kernel⟩,
   ⟨{ up with link.turn := some { grp := 15, dir := false, tseq := 1, byStack := true, step := .quietLine } },
    { grp := 15, dir := false, tseq := 1, byStack := true, step := .quietLine }, by decide +kernel⟩,
   ⟨up, by decide +kernel⟩⟩

theorem witness_mailbox_commands_run_once_in_order :
    (∃ (s : State) (m : Fin 17) (c : Instr), c ∈ [Instr.sessionOpen m, Instr.sessionClose m, Instr.leaseAcquire m, Instr.leaseRenew m,
      Instr.leaseRelease m, Instr.getIdentity m, Instr.svcAuthNonce m, Instr.cfgRegionSet m, Instr.cfgRegionGet m, Instr.cfgDomainSet m,
      Instr.cfgDomainGet m, Instr.cfgHashSet m, Instr.cfgPurge m, Instr.cfgLinkSet m, Instr.cfgTurn m, Instr.regClassSet m, Instr.regGlobalSet m,
      Instr.regBowSet m, Instr.regRsvSet m, Instr.regRsvFree m, Instr.regGet m, Instr.cachePolicySet m, Instr.cacheOp m, Instr.cacheGet m,
      Instr.memRead m, Instr.memWrite m, Instr.memZero m, Instr.rprRow m, Instr.rprGet m, Instr.foldMode m, Instr.foldStart m, Instr.tsvKill m,
      Instr.rfmSet m, Instr.dipSet m, Instr.dmcSet m, Instr.pwrEnter m, Instr.pwrVote m, Instr.pwrGet m, Instr.thmSet m, Instr.calRun m,
      Instr.calGet m, Instr.fwLoadBegin m, Instr.fwLoad m, Instr.fwTakeover m, Instr.fwSvnCommit m, Instr.fwGet m, Instr.fwSet m, Instr.logRead m,
      Instr.faultGet m, Instr.evtRouteSet m, Instr.evtRouteGet m, Instr.fcrSet m, Instr.weighEnough m, Instr.resume m, Instr.testEccInj m,
      Instr.fuseReadCmd m, Instr.fuseLock m] ∧ (mstate s m.val ≠ 2 ∨ (s.mbx m.val).ran = true ∨ coreServes s = false)) ∧
    (∃ (s : State) (m : Fin 17), m.val ≠ 0 ∧ m.val ≠ 16 ∧ InHand s m.val 0x0600 ∧ internalRoom s 0 = true) ∧
    (∃ (s : State) (m : Fin 17), m.val ≠ 0 ∧ m.val ≠ 16 ∧ InHand s m.val 0x0803) ∧
    (∃ (s : State) (m : Fin 17), m.val ≠ 0 ∧ m.val ≠ 16 ∧ InHand s m.val 0x0C01) ∧
    (∃ (s : State) (m : Nat) (ws : List FwWrite), (fwWrites s m ws).c ≠ .ok) ∧
    (∃ (l : List Code) (c : Code), c ∈ l) :=
  ⟨⟨up, 16, Instr.sessionOpen 16, by decide +kernel⟩,
   ⟨command 15 0x600 0 ([]) served, 15, by unfold InHand; decide +kernel⟩,
   ⟨command 15 0x803 0 ([]) served, 15, by unfold InHand; decide +kernel⟩,
   ⟨command 15 0xc01 0 ([]) served, 15, by unfold InHand; decide +kernel⟩,
   ⟨up, 0, ([(.THM_CTL, 0, 0, [(F.THM_CTL_SLOPE, 2 ^ 32)])] : List FwWrite), by decide +kernel⟩,
   ⟨[.ok, .range], .range, by decide +kernel⟩⟩

theorem witness_session_identity_and_lease_commands :
    (∃ (s : State) (m : Fin 17), InHand s m.val 0x0100 ∧ cmdLen s m.val = 0) ∧
    (∃ (s : State) (m : Fin 17), InHand s m.val 0x0101 ∧ cmdLen s m.val = 0) ∧
    (∃ (s : State) (m : Fin 17) (i : Fin 5), InHand s m.val 0x0102 ∧ isP s m.val = true ∧ cmdLen s m.val = 1 ∧ b1 (cmdPayload s m.val) 0 = 0x10 + i.val ∧
      leaseHolder s i.val = 0xFF) ∧
    (∃ (s : State) (m : Fin 17) (i : Fin 5), InHand s m.val 0x0102 ∧ isP s m.val = true ∧ cmdLen s m.val = 1 ∧ b1 (cmdPayload s m.val) 0 = 0x10 + i.val ∧
      leaseHolder s i.val ≠ 0xFF ∧ leaseHolder s i.val ≠ m.val) ∧
    (∃ (s : State) (m : Fin 17) (i : Nat), InHand s m.val 0x0103 ∧ cmdLen s m.val = 0 ∧ leaseOf s m.val (cmdLease s m.val) = some i) ∧
    (∃ (s : State) (m : Fin 17), InHand s m.val 0x0103 ∧ cmdLen s m.val = 0 ∧ leaseOf s m.val (cmdLease s m.val) = none) ∧
    (∃ (s : State) (m : Fin 17) (i : Nat), InHand s m.val 0x0104 ∧ cmdLen s m.val = 0 ∧ leaseOf s m.val (cmdLease s m.val) = some i) ∧
    (∃ (s : State) (m : Fin 17), InHand s m.val 0x0200 ∧ cmdLen s m.val = 0) ∧
    (∃ (s : State) (m : Fin 17), InHand s m.val 0x0201 ∧ cmdLen s m.val = 4 ∧ b1 (cmdPayload s m.val) 0 = 0x10 ∧ b1 (cmdPayload s m.val) 1 = 0x84) ∧
    (∃ (s : State) (m : Fin 17), InHand s m.val 0x0202 ∧ isSvc s m.val = true ∧ cmdLen s m.val = 0) ∧
    (∃ (s : State) (m : Fin 17) (ok : Bool) (n : List Byte) (u : Nat), InHand s m.val 0x0203 ∧ isSvc s m.val = true ∧ cmdLen s m.val = 193 ∧
      s.on F.SVC_STAT_AUTH_LOCK = false ∧ s.mgt.nonce = some (n, u) ∧ s.now < u ∧ ok = true) ∧
    (∃ (s : State) (m : Fin 17) (ok : Bool) (n : List Byte) (u : Nat), InHand s m.val 0x0203 ∧ isSvc s m.val = true ∧ cmdLen s m.val = 193 ∧
      s.on F.SVC_STAT_AUTH_LOCK = false ∧ s.mgt.nonce = some (n, u) ∧ s.now < u ∧ ok = false) ∧
    (∃ (s : State) (m : Fin 17) (n : List Byte) (u : Nat), InHand s m.val 0x0203 ∧ isSvc s m.val = true ∧ cmdLen s m.val = 193 ∧
      s.on F.SVC_STAT_AUTH_LOCK = false ∧ s.mgt.nonce = some (n, u) ∧ u ≤ s.now) :=
  ⟨⟨command 15 0x100 0 ([]) served, 15, by unfold InHand; decide +kernel⟩,
   ⟨command 15 0x101 0 ([]) served, 15, by unfold InHand; decide +kernel⟩,
   ⟨command 0 0x102 0 ([0x14]) served, 0, 4, by unfold InHand; decide +kernel⟩,
   ⟨command 0 0x102 0 ([0x10]) (leased 0 16 served), 0, 0, by unfold InHand; decide +kernel⟩,
   ⟨command 16 0x103 77 ([]) (leased 4 16 ({ served with mgt.auth := true })), 16, 4, by unfold InHand; decide +kernel⟩,
   ⟨command 15 0x103 0 ([]) served, 15, by unfold InHand; decide +kernel⟩,
   ⟨command 15 0x104 77 ([]) (leased 0 15 served), 15, 0, by unfold InHand; decide +kernel⟩,
   ⟨command 15 0x200 0 ([]) served, 15, by unfold InHand; decide +kernel⟩,
   ⟨command 15 0x201 0 ([0x10, 0x84, 0, 0]) served, 15, by unfold InHand; decide +kernel⟩,
   ⟨command 16 0x202 0 ([]) ({ served with mgt.auth := true }), 16, by unfold InHand; decide +kernel⟩,
   ⟨{ command 16 0x203 0 (List.replicate 193 1) ({ served with mgt.auth := true }) with mgt.nonce := some ([], 5), now := 4 }, 16, true, [], 5,
    by unfold InHand; decide +kernel⟩,
   ⟨{ command 16 0x203 0 (List.replicate 193 1) ({ served with mgt.auth := true }) with mgt.nonce := some ([], 5), now := 4 }, 16, false, [], 5,
    by unfold InHand; decide +kernel⟩,
   ⟨{ command 16 0x203 0 (List.replicate 193 1) ({ served with mgt.auth := true }) with mgt.nonce := some ([], 5), now := 5 }, 16, [], 5,
    by unfold InHand; decide +kernel⟩⟩

theorem witness_configuration_commands :
    (∃ (s : State) (m : Fin 17), InHand s m.val 0x0300 ∧ isP s m.val = true ∧ cmdLen s m.val = 9 ∧ leaseOf s m.val (cmdLease s m.val) = some 0 ∧
      b1 (cmdPayload s m.val) 0 < 64 ∧ Accepted s m.val ([(.RQE_RGN_B, b1 (cmdPayload s m.val) 0, 0, [(F.RQE_RGN_B_SIZE_M1,
      b2 (cmdPayload s m.val) 4), (F.RQE_RGN_B_PBASE, b2 (cmdPayload s m.val) 6)]), (.RQE_RGN_A, b1 (cmdPayload s m.val) 0, 0, [(F.RQE_RGN_A_RDOM,
      b1 (cmdPayload s m.val) 1), (F.RQE_RGN_A_DBASE, b2 (cmdPayload s m.val) 2), (F.RQE_RGN_A_WR, b1 (cmdPayload s m.val) 8 % 2), (F.RQE_RGN_A_EN,
      b1 (cmdPayload s m.val) 8 / 2 % 2)])])) ∧
    (∃ (s : State) (m : Fin 17), InHand s m.val 0x0301 ∧ isP s m.val = true ∧ cmdLen s m.val = 1 ∧ b1 (cmdPayload s m.val) 0 < 64) ∧
    (∃ (s : State) (m : Fin 17), InHand s m.val 0x0302 ∧ isP s m.val = true ∧ cmdLen s m.val = 15 ∧ leaseOf s m.val (cmdLease s m.val) = some 0 ∧
      b1 (cmdPayload s m.val) 0 < 16 ∧ Accepted s m.val ((if b1 (cmdPayload s m.val) 1 = 0 then [(.RQE_DOM_CTL, b1 (cmdPayload s m.val) 0, 0,
      [(F.RQE_DOM_CTL_EN, b1 (cmdPayload s m.val) 1), (F.RQE_DOM_CTL_RB_CAP,
      b2 (cmdPayload s m.val) 7)])] else []) ++ (if b1 (cmdPayload s m.val) 6 = 0 then [(.REG_BOW_EN, b1 (cmdPayload s m.val) 0, 0,
      [(F.REG_BOW_EN_BOW_EN, b1 (cmdPayload s m.val) 6)]), (.REG_BOW, b1 (cmdPayload s m.val) 0, 0, [(F.REG_BOW_BOW_BASE, b2 (cmdPayload s m.val) 2),
      (F.REG_BOW_BOW_LAST, b2 (cmdPayload s m.val) 4)])] else [(.REG_BOW, b1 (cmdPayload s m.val) 0, 0, [(F.REG_BOW_BOW_BASE,
      b2 (cmdPayload s m.val) 2), (F.REG_BOW_BOW_LAST, b2 (cmdPayload s m.val) 4)]), (.REG_BOW_EN, b1 (cmdPayload s m.val) 0, 0,
      [(F.REG_BOW_EN_BOW_EN, b1 (cmdPayload s m.val) 6)])]) ++ [(.HLL_CRD, b1 (cmdPayload s m.val) 0, 0, [(F.HLL_CRD_VC0_MIN,
      b2 (cmdPayload s m.val) 9), (F.HLL_CRD_VC0_CAP, b2 (cmdPayload s m.val) 11)])] ++ (List.range 32).map (fun sl => (.SCC_DOM_WAYS, sl,
      b1 (cmdPayload s m.val) 0 / 2, [(waysField (b1 (cmdPayload s m.val) 0),
      b2 (cmdPayload s m.val) 13)])) ++ (if b1 (cmdPayload s m.val) 1 = 0 then [] else [(.RQE_DOM_CTL, b1 (cmdPayload s m.val) 0, 0,
      [(F.RQE_DOM_CTL_EN, b1 (cmdPayload s m.val) 1), (F.RQE_DOM_CTL_RB_CAP, b2 (cmdPayload s m.val) 7)])]))) ∧
    (∃ (s : State) (m : Fin 17), InHand s m.val 0x0303 ∧ isP s m.val = true ∧ cmdLen s m.val = 1 ∧ b1 (cmdPayload s m.val) 0 < 16) ∧
    (∃ (s : State) (m : Fin 17), InHand s m.val 0x0304 ∧ isP s m.val = true ∧ cmdLen s m.val = 22 ∧ leaseOf s m.val (cmdLease s m.val) = some 0 ∧
      s.on F.RQE_STAT_ADMITTED = false ∧ Accepted s m.val ((List.range 5).map (fun i => (.RQE_HASH_MASK, i, 0, [(F.RQE_HASH_MASK_MASK,
      b4 (cmdPayload s m.val) (2 + 4 * i))])) ++ [(.RQE_CTL, 0, 0, [(F.RQE_CTL_HASH_SEL, b1 (cmdPayload s m.val) 0), (F.RQE_CTL_CH_LSB,
      b1 (cmdPayload s m.val) 1)])])) ∧
    (∃ (s : State) (m : Fin 17), InHand s m.val 0x0305 ∧ isP s m.val = true ∧ cmdLen s m.val = 1 ∧ leaseOf s m.val (cmdLease s m.val) = some 0 ∧
      b1 (cmdPayload s m.val) 0 < 16 ∧ Accepted s m.val ([(.RQE_DOM_CTL, b1 (cmdPayload s m.val) 0, 0, [(F.RQE_DOM_CTL_PURGE, 1)])])) ∧
    (∃ (s : State) (m : Fin 17), InHand s m.val 0x0306 ∧ isP s m.val = true ∧ cmdLen s m.val = 4 ∧ leaseOf s m.val (cmdLease s m.val) = some 0 ∧
      Accepted s m.val ([(.HLL_CTL, 0, 0, [(F.HLL_CTL_AUTO_BAL, b1 (cmdPayload s m.val) 0 % 2), (F.HLL_CTL_NAK_LIMIT, b1 (cmdPayload s m.val) 1),
      (F.HLL_CTL_ACK_TMO, b1 (cmdPayload s m.val) 2), (F.HLL_CTL_REPLAY_THR,
      b1 (cmdPayload s m.val) 3)])] ++ (List.range 16).map (fun g => (.HLP_CTL, g, 0, [(F.HLP_CTL_QUIET_EN, b1 (cmdPayload s m.val) 0 / 2 % 2),
      (F.HLP_CTL_DEEP_EN, b1 (cmdPayload s m.val) 0 / 4 % 2)])))) ∧
    (∃ (s : State) (m : Fin 17), InHand s m.val 0x0307 ∧ isP s m.val = true ∧ cmdLen s m.val = 2 ∧ leaseOf s m.val (cmdLease s m.val) = some 0 ∧
      b1 (cmdPayload s m.val) 0 < 16 ∧ Accepted s m.val [(.HLL_TURN, 0, 0, [(F.HLL_TURN_TURN_GRP, b1 (cmdPayload s m.val) 0), (F.HLL_TURN_TURN_DIR,
      b1 (cmdPayload s m.val) 1), (F.HLL_TURN_TURN_GO, 1)])]) ∧
    (∃ (s : State) (m : Fin 17), InHand s m.val 0x0400 ∧ isP s m.val = true ∧ cmdLen s m.val = 8 ∧ leaseOf s m.val (cmdLease s m.val) = some 0 ∧
      b1 (cmdPayload s m.val) 0 < 7 ∧ Accepted s m.val ([(.REG_CLASS, b1 (cmdPayload s m.val) 0, 0, [(F.REG_CLASS_KIND, b1 (cmdPayload s m.val) 1),
      (F.REG_CLASS_DEF_DL, b2 (cmdPayload s m.val) 2), (F.REG_CLASS_SLACK_Q, b1 (cmdPayload s m.val) 4)]), (.REG_CLASS2, b1 (cmdPayload s m.val) 0,
      0, [(F.REG_CLASS2_EST, b1 (cmdPayload s m.val) 5), (F.REG_CLASS2_AGE_Q, b2 (cmdPayload s m.val) 6)])])) ∧
    (∃ (s : State) (m : Fin 17), InHand s m.val 0x0401 ∧ isP s m.val = true ∧ cmdLen s m.val = 2 ∧ leaseOf s m.val (cmdLease s m.val) = some 0 ∧
      Accepted s m.val ([(.REG_CTL, 0, 0, [(F.REG_CTL_MTR_EN, b1 (cmdPayload s m.val) 0), (F.REG_CTL_DL_OFS, b1 (cmdPayload s m.val) 1)])])) ∧
    (∃ (s : State) (m : Fin 17), InHand s m.val 0x0402 ∧ isP s m.val = true ∧ cmdLen s m.val = 9 ∧
      b2 (cmdPayload s m.val) 0 ≤ b2 (cmdPayload s m.val) 2 ∧ b2 (cmdPayload s m.val) 2 ≤ b2 (cmdPayload s m.val) 0 + 255 ∧
      b1 (cmdPayload s m.val) 4 < 7 ∧ 1 ≤ b2 (cmdPayload s m.val) 5 ∧ b2 (cmdPayload s m.val) 5 < 1024 ∧ b1 (cmdPayload s m.val) 7 = 0 ∧
      b1 (cmdPayload s m.val) 8 < 4) ∧
    (∃ (s : State) (m : Fin 17), InHand s m.val 0x0403 ∧ isP s m.val = true ∧ cmdLen s m.val = 8 ∧ leaseOf s m.val (cmdLease s m.val) = some 0 ∧
      1 ≤ b1 (cmdPayload s m.val) 0 ∧ b1 (cmdPayload s m.val) 0 < 64 ∧ Accepted s m.val [(.REG_RSV_A, b1 (cmdPayload s m.val) 0, 0,
      [(F.REG_RSV_A_RKIND, b1 (cmdPayload s m.val) 1), (F.REG_RSV_A_RDOM, b1 (cmdPayload s m.val) 2), (F.REG_RSV_A_RQ_RATE,
      b4 (cmdPayload s m.val) 4), (F.REG_RSV_A_EN, 1)])]) ∧
    (∃ (s : State) (m : Fin 17), InHand s m.val 0x0404 ∧ isP s m.val = true ∧ cmdLen s m.val = 1 ∧ leaseOf s m.val (cmdLease s m.val) = some 0 ∧
      1 ≤ b1 (cmdPayload s m.val) 0 ∧ b1 (cmdPayload s m.val) 0 < 64 ∧ Accepted s m.val ([(.REG_RSV_A, b1 (cmdPayload s m.val) 0, 0,
      [(F.REG_RSV_A_EN, 0)])])) ∧
    (∃ (s : State) (m : Fin 17), InHand s m.val 0x0405 ∧ isP s m.val = true ∧ cmdLen s m.val = 0) ∧
    (∃ (s : State) (m : Fin 17), InHand s m.val 0x0500 ∧ isP s m.val = true ∧ cmdLen s m.val = 6 ∧ leaseOf s m.val (cmdLease s m.val) = some 0 ∧
      Accepted s m.val ((List.range 32).flatMap (fun sl => [(.SCC_POL, sl, 0, polFields.zipIdx.map fun e => (e.1,
      bits (leAt (cmdPayload s m.val) 0 3) (3 * e.2) 3)), (.SCC_WAYS, sl, 0, [(F.SCC_WAYS_BG_WAYS, b2 (cmdPayload s m.val) 4)]), (.SCC_CTL, sl, 0,
      [(F.SCC_CTL_ALLOC_EN, b1 (cmdPayload s m.val) 3 % 2), (F.SCC_CTL_WT, b1 (cmdPayload s m.val) 3 / 2 % 2)])]))) ∧
    (∃ (s : State) (m : Fin 17), InHand s m.val 0x0501 ∧ isP s m.val = true ∧ cmdLen s m.val = 12 ∧ leaseOf s m.val (cmdLease s m.val) = some 0 ∧
      1 ≤ b1 (cmdPayload s m.val) 0 ∧ b1 (cmdPayload s m.val) 0 ≤ 2 ∧ b1 (cmdPayload s m.val) 1 ≤ 2 ∧ b1 (cmdPayload s m.val) 2 < 16 ∧
      (b1 (cmdPayload s m.val) 1 = 2 → b2 (cmdPayload s m.val) 4 ≠ 0) ∧
      Accepted s m.val ((onesOf (b4 (cmdPayload s m.val) 8) 32).map (fun sl => (.SCC_OPS_CMD, sl, 0, [(F.SCC_OPS_CMD_OP, b1 (cmdPayload s m.val) 0),
      (F.SCC_OPS_CMD_SCOPE, b1 (cmdPayload s m.val) 1), (F.SCC_OPS_CMD_ODOM, b1 (cmdPayload s m.val) 2), (F.SCC_OPS_CMD_OWAYS,
      b2 (cmdPayload s m.val) 4)])))) ∧
    (∃ (s : State) (m : Fin 17), InHand s m.val 0x0501 ∧ isP s m.val = true ∧ cmdLen s m.val = 12 ∧ leaseOf s m.val (cmdLease s m.val) = some 0 ∧
      (b1 (cmdPayload s m.val) 0 = 0 ∨ 2 < b1 (cmdPayload s m.val) 0 ∨ 2 < b1 (cmdPayload s m.val) 1) ∧ onesOf (b4 (cmdPayload s m.val) 8) 32 = []) ∧
    (∃ (s : State) (m : Fin 17), InHand s m.val 0x0502 ∧ isP s m.val = true ∧ cmdLen s m.val = 0) :=
  ⟨⟨command 16 0x300 77 (leBytes 1 63 ++ leBytes 1 15 ++ leBytes 2 0 ++ leBytes 2 15 ++ leBytes 2 0 ++ leBytes 1 3) (leased 0 16 ({ served with mgt.auth := true })),
    16, by unfold InHand Accepted; decide +kernel⟩,
   ⟨command 0 0x301 0 ([63]) served, 0, by unfold InHand; decide +kernel⟩,
   ⟨command 0 0x302 77 (leBytes 1 15 ++ leBytes 1 1 ++ leBytes 2 0 ++ leBytes 2 255 ++ leBytes 1 1 ++ leBytes 2 64 ++ leBytes 2 512 ++ leBytes 2 2048 ++ leBytes 2 65535) (leased 0 0 ((served.wr F.RQE_DOM_CTL_EN 0 15).wr F.REG_BOW_BOW_BASE 256 0)),
    0, by unfold InHand Accepted; decide +kernel⟩,
   ⟨command 0 0x303 0 ([15]) served, 0, by unfold InHand; decide +kernel⟩,
   ⟨command 0 0x304 77 (leBytes 1 0 ++ leBytes 1 9 ++ List.replicate 20 0) (leased 0 0 served), 0, by unfold InHand Accepted; decide +kernel⟩,
   ⟨command 0 0x305 77 ([15]) (leased 0 0 served), 0, by unfold InHand Accepted; decide +kernel⟩,
   ⟨command 0 0x306 77 ([7, 15, 15, 255]) (leased 0 0 served), 0, by unfold InHand Accepted; decide +kernel⟩,
   ⟨command 0 0x307 77 ([0, 1]) (leased 0 0 up), 0, by unfold InHand Accepted; decide +kernel⟩,
   ⟨command 0 0x400 77 (leBytes 1 6 ++ leBytes 1 0 ++ leBytes 2 25 ++ leBytes 1 4 ++ leBytes 1 0 ++ leBytes 2 16) (leased 0 0 served), 0,
    by unfold InHand Accepted; decide +kernel⟩,
   ⟨command 0 0x401 77 ([1, 0]) (leased 0 0 served), 0, by unfold InHand Accepted; decide +kernel⟩,
   ⟨command 0 0x402 0 (leBytes 2 0 ++ leBytes 2 255 ++ leBytes 1 6 ++ leBytes 2 1023 ++ leBytes 1 0 ++ leBytes 1 3) served, 0,
    by unfold InHand; decide +kernel⟩,
   ⟨command 0 0x403 77 (leBytes 1 63 ++ leBytes 1 0 ++ leBytes 1 15 ++ leBytes 1 0 ++ leBytes 4 1) (leased 0 0 served), 0,
    by unfold InHand Accepted; decide +kernel⟩,
   ⟨command 0 0x404 77 ([63]) (leased 0 0 served), 0, by unfold InHand Accepted; decide +kernel⟩,
   ⟨command 0 0x405 0 ([]) served, 0, by unfold InHand; decide +kernel⟩,
   ⟨command 0 0x500 77 (leBytes 3 0 ++ leBytes 1 1 ++ leBytes 2 65535) (leased 0 0 served), 0, by unfold InHand Accepted; decide +kernel⟩,
   ⟨command 0 0x501 77 (leBytes 1 1 ++ leBytes 1 0 ++ leBytes 2 0 ++ leBytes 2 0 ++ leBytes 2 0 ++ leBytes 4 0x80000000) (leased 0 0 (served.wr F.SCC_STAT_SSTATE ssOn 31)),
    0, by unfold InHand Accepted; decide +kernel⟩,
   ⟨command 0 0x501 77 (leBytes 1 3 ++ leBytes 1 0 ++ leBytes 2 0 ++ leBytes 2 0 ++ leBytes 2 0 ++ leBytes 4 0) (leased 0 0 served), 0,
    by unfold InHand; decide +kernel⟩,
   ⟨command 0 0x502 0 ([]) served, 0, by unfold InHand; decide +kernel⟩⟩

theorem witness_memory_repair_and_tuning_commands :
    (∃ (s : State) (m : Fin 17), InHand s m.val 0x0600 ∧ isP s m.val = true ∧ cmdLen s m.val = 10 ∧ internalRoom s 0 = true ∧
      memCheck s (leAt (cmdPayload s m.val) 0 8) 64 (b2 (cmdPayload s m.val) 8) 1 62 64 = .ok ∧ (∀ r ∈ s.rqe.reqs, r.iss ≠ .mailbox m.val)) ∧
    (∃ (s : State) (m : Fin 17) (c : Code), InHand s m.val 0x0600 ∧ isP s m.val = true ∧ cmdLen s m.val = 10 ∧ internalRoom s 0 = true ∧
      memCheck s (leAt (cmdPayload s m.val) 0 8) 64 (b2 (cmdPayload s m.val) 8) 1 62 64 = c ∧ c ≠ .ok) ∧
    (∃ (s : State) (m : Fin 17), InHand s m.val 0x0601 ∧ isP s m.val = true ∧ internalRoom s (min 62 (b2 (cmdPayload s m.val) 8)) = true ∧
      cmdLen s m.val = 16 + 64 * b2 (cmdPayload s m.val) 8 ∧
      memCheck s (leAt (cmdPayload s m.val) 0 8) 64 (b2 (cmdPayload s m.val) 8) 1 62 64 = .ok ∧ IdsRise s) ∧
    (∃ (s : State) (k : Nat), internalRoom s k = false ∧ k ≤ 62 ∧ k = 0) ∧
    (∃ (s : State) (m : Fin 17) (k : Nat), internalRoom s k = false ∧ k ≤ 62 ∧ k = min 62 (b2 (cmdPayload s m.val) 8)) ∧
    (∃ (s : State) (m : Fin 17), InHand s m.val 0x0602 ∧ isP s m.val = true ∧ cmdLen s m.val = 12 ∧ internalRoom s 0 = true ∧
      memCheck s (leAt (cmdPayload s m.val) 0 8) 4096 (b4 (cmdPayload s m.val) 8) 1 (2 ^ 32) 4096 = .ok ∧ (∀ r ∈ s.rqe.reqs, r.iss ≠ .mailbox m.val)) ∧
    (∃ (s : State) (m : Fin 17), InHand s m.val 0x0700 ∧ isP s m.val = true ∧ cmdLen s m.val = 6 ∧ leaseOf s m.val (cmdLease s m.val) = some 0 ∧
      b1 (cmdPayload s m.val) 0 < 32 ∧ Accepted s m.val ([(.TSV_RPR_CTL, b1 (cmdPayload s m.val) 0, 0, [(F.TSV_RPR_CTL_RPR_RANK,
      b1 (cmdPayload s m.val) 1), (F.TSV_RPR_CTL_RPR_BANK, b1 (cmdPayload s m.val) 2), (F.TSV_RPR_CTL_RPR_ROW, b2 (cmdPayload s m.val) 4),
      (F.TSV_RPR_CTL_RPR_GO, 1)])])) ∧
    (∃ (s : State) (m : Fin 17), InHand s m.val 0x0701 ∧ isP s m.val = true ∧ cmdLen s m.val = 1 ∧ b1 (cmdPayload s m.val) 0 < 32) ∧
    (∃ (s : State) (m : Fin 17), InHand s m.val 0x0702 ∧ isP s m.val = true ∧ cmdLen s m.val = 2 ∧ leaseOf s m.val (cmdLease s m.val) = some 0 ∧
      Accepted s m.val ([(.TSV_FOLD_CTL, 0, 0, [(F.TSV_FOLD_CTL_FR_MODE, b1 (cmdPayload s m.val) 0), (F.TSV_FOLD_CTL_FOLD_AUTO,
      b1 (cmdPayload s m.val) 1)])])) ∧
    (∃ (s : State) (m : Fin 17), InHand s m.val 0x0703 ∧ isP s m.val = true ∧ cmdLen s m.val = 1 ∧ leaseOf s m.val (cmdLease s m.val) = some 0 ∧
      b1 (cmdPayload s m.val) 0 < 32 ∧ Accepted s m.val ([(.TSV_FOLD_CTL, 0, 0, [(F.TSV_FOLD_CTL_FOLD_CH, b1 (cmdPayload s m.val) 0),
      (F.TSV_FOLD_CTL_FOLD_GO, 1)])])) ∧
    (∃ (s : State) (m : Fin 17), InHand s m.val 0x0704 ∧ isP s m.val = true ∧ cmdLen s m.val = 2 ∧ leaseOf s m.val (cmdLease s m.val) = some 0 ∧
      b1 (cmdPayload s m.val) 0 < 32 ∧ Accepted s m.val ([(.TSV_CTL, b1 (cmdPayload s m.val) 0, 0, [(F.TSV_CTL_KILL_PHY, b1 (cmdPayload s m.val) 1),
      (F.TSV_CTL_KILL, 1)])])) ∧
    (∃ (s : State) (m : Fin 17), InHand s m.val 0x0705 ∧ isP s m.val = true ∧ cmdLen s m.val = 6 ∧ leaseOf s m.val (cmdLease s m.val) = some 0 ∧
      Accepted s m.val ([(.RFM_CTL, 0, 0, [(F.RFM_CTL_ST_THR, b2 (cmdPayload s m.val) 0), (F.RFM_CTL_POSTPONE, b1 (cmdPayload s m.val) 2),
      (F.RFM_CTL_FORCE_2X, b1 (cmdPayload s m.val) 3)]), (.RFM_BKLG, 0, 0, [(F.RFM_BKLG_BKLG_THR, b1 (cmdPayload s m.val) 4), (F.RFM_BKLG_BKLG_TMO,
      b1 (cmdPayload s m.val) 5)])])) ∧
    (∃ (s : State) (m : Fin 17), InHand s m.val 0x0706 ∧ isP s m.val = true ∧ cmdLen s m.val = 8 ∧ leaseOf s m.val (cmdLease s m.val) = some 0 ∧
      Accepted s m.val ([(.DIP_CTL, 0, 0, [(F.DIP_CTL_SCRUB_EN, b1 (cmdPayload s m.val) 0), (F.DIP_CTL_CSCRUB_EN, b1 (cmdPayload s m.val) 1),
      (F.DIP_CTL_SCRUB_PER, b1 (cmdPayload s m.val) 2), (F.DIP_CTL_ROW_CE_THR, b1 (cmdPayload s m.val) 3), (F.DIP_CTL_ROW_2BIT,
      b1 (cmdPayload s m.val) 4)]), (.DIP_THR, 0, 0, [(F.DIP_THR_CE_THR, b2 (cmdPayload s m.val) 5), (F.DIP_THR_POS_THR,
      b1 (cmdPayload s m.val) 7)])])) ∧
    (∃ (s : State) (m : Fin 17), InHand s m.val 0x0707 ∧ isP s m.val = true ∧ cmdLen s m.val = 9 ∧ leaseOf s m.val (cmdLease s m.val) = some 0 ∧
      Accepted s m.val ((List.range 32).flatMap (fun c => [(.DMC_CTL, c, 0, [(F.DMC_CTL_PD_EN, b1 (cmdPayload s m.val) 0), (F.DMC_CTL_HIT_CAP,
      b1 (cmdPayload s m.val) 1)])] ++ (if s.rd F.DMC_WQ_WQ_CAP c ≤ b2 (cmdPayload s m.val) 6 then [(.DMC_WQ, c, 0, [(F.DMC_WQ_WQ_CAP,
      b2 (cmdPayload s m.val) 6)]), (.DMC_WM, c, 0, [(F.DMC_WM_WM_LO, b2 (cmdPayload s m.val) 2), (F.DMC_WM_WM_HI,
      b2 (cmdPayload s m.val) 4)])] else [(.DMC_WM, c, 0, [(F.DMC_WM_WM_LO, b2 (cmdPayload s m.val) 2), (F.DMC_WM_WM_HI,
      b2 (cmdPayload s m.val) 4)]), (.DMC_WQ, c, 0, [(F.DMC_WQ_WQ_CAP, b2 (cmdPayload s m.val) 6)])]) ++ [(.DMC_HANG, c, 0, [(F.DMC_HANG_HANG_TMO,
      b1 (cmdPayload s m.val) 8)])]))) :=
  ⟨⟨command 16 0x600 0 (leBytes 8 (2 ^ 36 - 64 * 62) ++ leBytes 2 62) ({ served with mgt.auth := true }), 16, by unfold InHand; decide +kernel⟩,
   ⟨command 0 0x600 0 (leBytes 8 1 ++ leBytes 2 1) served, 0, .badValue, by unfold InHand; decide +kernel⟩,
   ⟨command 0 0x601 0 (leBytes 8 0 ++ leBytes 2 1 ++ leBytes 6 0 ++ List.replicate 64 0) served, 0, by unfold InHand IdsRise; decide +kernel⟩,
   ⟨holds (List.replicate 820 { req 5 .rd 0x00 with iss := .service }) up, 0, by decide +kernel⟩,
   ⟨command 0 0x600 0 (List.replicate 8 0 ++ [5, 0]) (holds (List.replicate 820 { req 5 .rd 0x00 with iss := .service }) up), 0, 5, by decide +kernel⟩,
   ⟨command 0 0x602 0 (leBytes 8 0 ++ leBytes 4 1) served, 0, by unfold InHand; decide +kernel⟩,
   ⟨command 0 0x700 77 (leBytes 1 31 ++ leBytes 1 3 ++ leBytes 1 31 ++ leBytes 1 0 ++ leBytes 2 5) (leased 0 0 (served.wr F.DMC_STAT_CSTATE 2 31)), 0,
    by unfold InHand Accepted; decide +kernel⟩,
   ⟨command 0 0x701 0 ([31]) served, 0, by unfold InHand; decide +kernel⟩,
   ⟨command 0 0x702 77 ([1, 1]) (leased 0 0 served), 0, by unfold InHand Accepted; decide +kernel⟩,
   ⟨command 0 0x703 77 ([31]) (leased 0 0 ((up.wr F.TSV_FOLD_CTL_FR_MODE 1).wr F.TSV_FOLD_STAT_FSTATE fReady)), 0,
    by unfold InHand Accepted; decide +kernel⟩,
   ⟨command 0 0x704 77 ([31, 83]) (leased 0 0 served), 0, by unfold InHand Accepted; decide +kernel⟩,
   ⟨command 0 0x705 77 (leBytes 2 8192 ++ leBytes 1 8 ++ leBytes 1 1 ++ leBytes 1 64 ++ leBytes 1 255) (leased 0 0 served), 0,
    by unfold InHand Accepted; decide +kernel⟩,
   ⟨command 0 0x706 77 (leBytes 1 1 ++ leBytes 1 1 ++ leBytes 1 24 ++ leBytes 1 4 ++ leBytes 1 1 ++ leBytes 2 100 ++ leBytes 1 4) (leased 0 0 served),
    0, by unfold InHand Accepted; decide +kernel⟩,
   ⟨command 0 0x707 77 (leBytes 1 1 ++ leBytes 1 4 ++ leBytes 2 16 ++ leBytes 2 32 ++ leBytes 2 64 ++ leBytes 1 8) (leased 0 0 served), 0,
    by unfold InHand Accepted; decide +kernel⟩⟩

theorem witness_power_calibration_and_firmware_commands :
    (∃ (s : State) (m : Fin 17), InHand s m.val 0x0800 ∧ isP s m.val = true ∧ cmdLen s m.val = 1 ∧ leaseOf s m.val (cmdLease s m.val) = some 4 ∧
      1 ≤ (b1 (cmdPayload s m.val) 0) ∧ (b1 (cmdPayload s m.val) 0) ≤ 3 ∧ ((b1 (cmdPayload s m.val) 0) = 2 → s.on F.PCK_STAT_RET_AVAIL = true) ∧
      (s.pck.pow = .run ∨ s.pck.pow = .idle) ∧ s.pck.entry = none ∧ refuser (renewed s m.val) (b1 (cmdPayload s m.val) 0) = none ∧
      deepDenied s = false) ∧
    (∃ (s : State) (m : Fin 17) (c : Nat) (d : Nat), InHand s m.val 0x0800 ∧ isP s m.val = true ∧ cmdLen s m.val = 1 ∧
      leaseOf s m.val (cmdLease s m.val) = some 4 ∧ 1 ≤ (b1 (cmdPayload s m.val) 0) ∧ (b1 (cmdPayload s m.val) 0) ≤ 3 ∧
      ((b1 (cmdPayload s m.val) 0) = 2 → s.on F.PCK_STAT_RET_AVAIL = true) ∧ (s.pck.pow = .run ∨ s.pck.pow = .idle) ∧ s.pck.entry = none ∧
      refuser (renewed s m.val) (b1 (cmdPayload s m.val) 0) = some (c, d)) ∧
    (∃ (s : State) (m : Fin 17), InHand s m.val 0x0800 ∧ isP s m.val = true ∧ cmdLen s m.val = 1 ∧ leaseOf s m.val (cmdLease s m.val) = some 4 ∧
      1 ≤ (b1 (cmdPayload s m.val) 0) ∧ (b1 (cmdPayload s m.val) 0) ≤ 3 ∧ ((b1 (cmdPayload s m.val) 0) = 2 → s.on F.PCK_STAT_RET_AVAIL = true) ∧
      (s.pck.pow = .run ∨ s.pck.pow = .idle) ∧ s.pck.entry = none ∧ refuser (renewed s m.val) (b1 (cmdPayload s m.val) 0) = none ∧
      deepDenied s = true) ∧
    (∃ (s : State) (m : Fin 17), InHand s m.val 0x0801 ∧ isDom s m.val = true ∧ cmdLen s m.val = 1 ∧ Accepted s m.val ([(.PCK_VOTE, m.val, 0,
      [(F.PCK_VOTE_NOSLEEP, b1 (cmdPayload s m.val) 0 % 2)])])) ∧
    (∃ (s : State) (m : Fin 17), InHand s m.val 0x0802 ∧ isPT s m.val = true ∧ cmdLen s m.val = 0) ∧
    (∃ (s : State) (m : Fin 17), InHand s m.val 0x0803 ∧ isP s m.val = true ∧ cmdLen s m.val = 4 ∧ leaseOf s m.val (cmdLease s m.val) = some 0 ∧
      Accepted s m.val ([(.THM_CTL, 0, 0, [(F.THM_CTL_SLOPE, b2 (cmdPayload s m.val) 0), (F.THM_CTL_CAP, b2 (cmdPayload s m.val) 2)])])) ∧
    (∃ (s : State) (m : Fin 17), InHand s m.val 0x0900 ∧ isP s m.val = true ∧ cmdLen s m.val = 1 ∧ leaseOf s m.val (cmdLease s m.val) = some 0 ∧
      1 ≤ b1 (cmdPayload s m.val) 0 ∧ b1 (cmdPayload s m.val) 0 < 32 ∧ s.cst.run = none ∧ s.cst.store = [] ∧ s.pck.pow = .run) ∧
    (∃ (s : State) (m : Fin 17), InHand s m.val 0x0900 ∧ isP s m.val = true ∧ cmdLen s m.val = 1 ∧ leaseOf s m.val (cmdLease s m.val) = some 0 ∧
      1 ≤ b1 (cmdPayload s m.val) 0 ∧ b1 (cmdPayload s m.val) 0 < 32 ∧ s.cst.run = none ∧ s.cst.store = [] ∧ s.pck.pow = .idle) ∧
    (∃ (s : State) (m : Fin 17), InHand s m.val 0x0901 ∧ isPT s m.val = true ∧ cmdLen s m.val = 0) ∧
    (∃ (s : State) (m : Fin 17), InHand s m.val 0x0A00 ∧ isP s m.val = true ∧ cmdLen s m.val = 4 ∧ leaseOf s m.val (cmdLease s m.val) = some 1 ∧
      1 ≤ b4 (cmdPayload s m.val) 0 ∧ b4 (cmdPayload s m.val) 0 ≤ 1572864 ∧ s.mgt.load = none ∧ s.mgt.trial = none) ∧
    (∃ (s : State) (m : Fin 17) (l : Load), InHand s m.val 0x0A01 ∧ isP s m.val = true ∧ leaseOf s m.val (cmdLease s m.val) = some 1 ∧
      s.mgt.load = some l ∧ s.pst.only = false ∧ 8 ≤ cmdLen s m.val ∧ cmdLen s m.val ≤ 4080 ∧ cmdLen s m.val % 4 = 0 ∧
      b4 (cmdPayload s m.val) 0 % 4 = 0 ∧ b4 (cmdPayload s m.val) 0 + (cmdLen s m.val - 8) ≤ l.tlen) ∧
    (∃ (s : State) (m : Fin 17) (ok : Bool) (l : Load), InHand s m.val 0x0A02 ∧ isP s m.val = true ∧ cmdLen s m.val = 0 ∧
      leaseOf s m.val (cmdLease s m.val) = some 1 ∧ s.mgt.load = some l ∧ covered l.runs l.tlen = true ∧ imageOk s l.target ok = true) ∧
    (∃ (s : State) (m : Fin 17) (ok : Bool) (l : Load), InHand s m.val 0x0A02 ∧ isP s m.val = true ∧ cmdLen s m.val = 0 ∧
      leaseOf s m.val (cmdLease s m.val) = some 1 ∧ s.mgt.load = some l ∧ covered l.runs l.tlen = true ∧ imageOk s l.target ok = false) ∧
    (∃ (s : State) (m : Fin 17) (out : Fin 5), InHand s m.val 0x0A03 ∧ isP s m.val = true ∧ cmdLen s m.val = 0 ∧
      leaseOf s m.val (cmdLease s m.val) = some 1 ∧ recovery s = false ∧ boatValid s (activeTarget s) = true ∧ coreState s (!activeCore s) = 3 ∧
      out = 0) ∧
    (∃ (s : State) (m : Fin 17) (out : Fin 5), InHand s m.val 0x0A03 ∧ isP s m.val = true ∧ cmdLen s m.val = 0 ∧
      leaseOf s m.val (cmdLease s m.val) = some 1 ∧ recovery s = false ∧ boatValid s (activeTarget s) = true ∧ coreState s (!activeCore s) = 3 ∧
      1 ≤ out.val ∧ out.val ≤ 3) ∧
    (∃ (s : State) (m : Fin 17) (out : Fin 5), InHand s m.val 0x0A03 ∧ isP s m.val = true ∧ cmdLen s m.val = 0 ∧
      leaseOf s m.val (cmdLease s m.val) = some 1 ∧ recovery s = false ∧ boatValid s (activeTarget s) = true ∧ coreState s (!activeCore s) = 3 ∧
      out = 4) ∧
    (∃ (s : State) (m : Fin 17), InHand s m.val 0x0A04 ∧ isP s m.val = true ∧ cmdLen s m.val = 0 ∧ leaseOf s m.val (cmdLease s m.val) = some 1 ∧
      coreState s (!activeCore s) = 3) ∧
    (∃ (s : State) (m : Fin 17), InHand s m.val 0x0A04 ∧ isP s m.val = true ∧ cmdLen s m.val = 0 ∧ leaseOf s m.val (cmdLease s m.val) = some 1 ∧
      coreState s (!activeCore s) ≠ 3) ∧
    (∃ (s : State) (m : Fin 17), InHand s m.val 0x0A05 ∧ isP s m.val = true ∧ cmdLen s m.val = 0 ∧ leaseOf s m.val (cmdLease s m.val) = some 1 ∧
      s.mgt.trial = none ∧ runningSvn s ≤ 64) ∧
    (∃ (s : State) (m : Fin 17), InHand s m.val 0x0A06 ∧ cmdLen s m.val = 0) ∧
    (∃ (s : State) (m : Fin 17), InHand s m.val 0x0A07 ∧ isP s m.val = true ∧ cmdLen s m.val = 4 ∧ leaseOf s m.val (cmdLease s m.val) = some 0 ∧
      Accepted s m.val ([(.MGT_CTL, 0, 0, [(F.MGT_CTL_WDT_US, b2 (cmdPayload s m.val) 0), (F.MGT_CTL_TRIAL_S, b1 (cmdPayload s m.val) 2),
      (F.MGT_CTL_STBY_EN, b1 (cmdPayload s m.val) 3)])])) :=
  ⟨⟨command 0 0x800 77 ([3]) (leased 4 0 served), 0, by unfold InHand; decide +kernel⟩,
   ⟨command 0 0x800 77 ([1]) (leased 4 0 (served.wr F.PCK_VOTE_NOSLEEP 1 15)), 0, 1, 15, by unfold InHand; decide +kernel⟩,
   ⟨command 0 0x800 77 ([1]) (leased 4 0 (up.wr F.HLP_CTL_DEEP_EN 0 15)), 0, by unfold InHand; decide +kernel⟩,
   ⟨command 15 0x801 0 ([1]) served, 15, by unfold InHand Accepted; decide +kernel⟩,
   ⟨command 15 0x802 0 ([]) served, 15, by unfold InHand; decide +kernel⟩,
   ⟨command 0 0x803 77 (leBytes 2 50 ++ leBytes 2 500) (leased 0 0 served), 0, by unfold InHand Accepted; decide +kernel⟩,
   ⟨command 0 0x900 77 ([31]) (leased 0 0 served), 0, by unfold InHand; decide +kernel⟩,
   ⟨command 0 0x900 77 ([31]) (leased 0 0 (inPow .idle served)), 0, by unfold InHand; decide +kernel⟩,
   ⟨command 15 0x901 0 ([]) served, 15, by unfold InHand; decide +kernel⟩,
   ⟨command 0 0xa00 77 (leBytes 4 1572864) (leased 1 0 served), 0, by unfold InHand; decide +kernel⟩,
   ⟨{ command 0 0xa01 77 (List.replicate 16 0) (leased 1 0 served) with mgt.load := some { target := 0, tlen := 8, runs := [] } }, 0,
    { target := 0, tlen := 8, runs := [] }, by unfold InHand; decide +kernel⟩,
   ⟨{ command 0 0xa02 77 ([]) (leased 1 0 served) with mgt.load := some { target := 0, tlen := 8, runs := [(0, 8)] }, pst.mram := [(0, 0x4D495843), (1, 1), (2, 7), (3, 1024), (4, 1024), (5, 0), (6, 0x200 + 2048)] },
    0, true, { target := 0, tlen := 8, runs := [(0, 8)] }, by unfold InHand; decide +kernel⟩,
   ⟨{ command 0 0xa02 77 ([]) (leased 1 0 served) with mgt.load := some { target := 0, tlen := 8, runs := [(0, 8)] } }, 0, true,
    { target := 0, tlen := 8, runs := [(0, 8)] }, by unfold InHand; decide +kernel⟩,
   ⟨{ command 0 0xa03 77 ([]) (leased 1 0 (served.wr F.MGT_STAT_B_STATE 3)) with mgt.load := some { target := 0, tlen := 8, runs := [(0, 8)] }, pst.mram := [(pregIdx 5, 2)] },
    0, 0, by unfold InHand; decide +kernel⟩,
   ⟨{ command 0 0xa03 77 ([]) (leased 1 0 (served.wr F.MGT_STAT_B_STATE 3)) with mgt.load := some { target := 0, tlen := 8, runs := [(0, 8)] }, pst.mram := [(pregIdx 5, 2)] },
    0, 1, by unfold InHand; decide +kernel⟩,
   ⟨{ command 0 0xa03 77 ([]) (leased 1 0 (served.wr F.MGT_STAT_B_STATE 3)) with mgt.load := some { target := 0, tlen := 8, runs := [(0, 8)] }, pst.mram := [(pregIdx 5, 2)] },
    0, 4, by unfold InHand; decide +kernel⟩,
   ⟨command 0 0xa04 77 ([]) (leased 1 0 (served.wr F.MGT_STAT_B_STATE 3)), 0, by unfold InHand; decide +kernel⟩,
   ⟨command 0 0xa04 77 ([]) (leased 1 0 (served.wr F.MGT_STAT_B_STATE 4)), 0, by unfold InHand; decide +kernel⟩,
   ⟨command 0 0xa05 77 ([]) (leased 1 0 served), 0, by unfold InHand; decide +kernel⟩,
   ⟨command 15 0xa06 0 ([]) served, 15, by unfold InHand; decide +kernel⟩,
   ⟨command 0 0xa07 77 (leBytes 2 100 ++ leBytes 1 60 ++ leBytes 1 1) (leased 0 0 served), 0, by unfold InHand Accepted; decide +kernel⟩⟩

set_option maxRecDepth 100000 in
theorem witness_log_quiesce_test_and_fuse_commands :
    (∃ (s : State) (m : Fin 17), InHand s m.val 0x0B00 ∧ isP s m.val = true ∧ cmdLen s m.val = 5 ∧ 1 ≤ b1 (cmdPayload s m.val) 4 ∧
      b1 (cmdPayload s m.val) 4 ≤ 63 ∧ b4 (cmdPayload s m.val) 0 < (logRecords s).length) ∧
    (∃ (s : State) (m : Fin 17), InHand s m.val 0x0B01 ∧ isPT s m.val = true ∧ cmdLen s m.val = 0) ∧
    (∃ (s : State) (m : Fin 17), InHand s m.val 0x0B02 ∧ isP s m.val = true ∧ cmdLen s m.val = 5 ∧ leaseOf s m.val (cmdLease s m.val) = some 0 ∧
      b1 (cmdPayload s m.val) 4 < 4 ∧ b2 (cmdPayload s m.val) 0 < 288 ∧ Accepted s m.val ([(.FCR_SRC, b2 (cmdPayload s m.val) 0, 0,
      [(F.FCR_SRC_DMASK, b2 (cmdPayload s m.val) 2), (F.FCR_SRC_EVT_MIN, (preset (b1 (cmdPayload s m.val) 4)).1), (F.FCR_SRC_ALERT_MIN,
      (preset (b1 (cmdPayload s m.val) 4)).2.1), (F.FCR_SRC_SVC_MIN, (preset (b1 (cmdPayload s m.val) 4)).2.2.1), (F.FCR_SRC_LOG_MIN,
      (preset (b1 (cmdPayload s m.val) 4)).2.2.2.1), (F.FCR_SRC_ACT, (preset (b1 (cmdPayload s m.val) 4)).2.2.2.2)])])) ∧
    (∃ (s : State) (m : Fin 17), InHand s m.val 0x0B03 ∧ isP s m.val = true ∧ cmdLen s m.val = 2 ∧ b2 (cmdPayload s m.val) 0 < 288) ∧
    (∃ (s : State) (m : Fin 17), InHand s m.val 0x0B04 ∧ isP s m.val = true ∧ cmdLen s m.val = 2 ∧ leaseOf s m.val (cmdLease s m.val) = some 0 ∧
      Accepted s m.val ([(.FCR_CTL, 0, 0, [(F.FCR_CTL_EASY_MS, b2 (cmdPayload s m.val) 0)])])) ∧
    (∃ (s : State) (m : Fin 17), InHand s m.val 0x0C00 ∧ isP s m.val = true ∧ cmdLen s m.val = 2 ∧ leaseOf s m.val (cmdLease s m.val) = some 3 ∧
      scopeCheck (cmdPayload s m.val) = .ok ∧ Accepted s m.val [quiesceWrite (renewed s m.val) (cmdPayload s m.val) true] ∧
      b1 (cmdPayload s m.val) 0 = 0) ∧
    (∃ (s : State) (m : Fin 17), InHand s m.val 0x0C00 ∧ isP s m.val = true ∧ cmdLen s m.val = 2 ∧ leaseOf s m.val (cmdLease s m.val) = some 3 ∧
      scopeCheck (cmdPayload s m.val) = .ok ∧ Accepted s m.val [quiesceWrite (renewed s m.val) (cmdPayload s m.val) true] ∧
      b1 (cmdPayload s m.val) 0 = 1) ∧
    (∃ (s : State) (m : Fin 17), InHand s m.val 0x0C01 ∧ isP s m.val = true ∧ cmdLen s m.val = 2 ∧ leaseOf s m.val (cmdLease s m.val) = some 3 ∧
      b1 (cmdPayload s m.val) 0 = 0 ∧ s.on F.MGT_QUIESCE_WE_STACK = true ∧
      Accepted s m.val ([quiesceWrite (renewed s m.val) (cmdPayload s m.val) false])) ∧
    (∃ (s : State) (m : Fin 17), InHand s m.val 0x0C02 ∧ isP s m.val = true ∧ cmdLen s m.val = 4 ∧ leaseOf s m.val (cmdLease s m.val) = some 3 ∧
      b1 (cmdPayload s m.val) 0 < 16 ∧ b1 (cmdPayload s m.val) 1 < 17 ∧ Accepted s m.val [(.HLP_LN_CTL, b1 (cmdPayload s m.val) 0,
      b1 (cmdPayload s m.val) 1, [(F.HLP_LN_CTL_PAT_SEL, b1 (cmdPayload s m.val) 2), (F.HLP_LN_CTL_GEN_EN, b1 (cmdPayload s m.val) 3 % 2),
      (F.HLP_LN_CTL_CHK_EN, b1 (cmdPayload s m.val) 3 / 2 % 2)])]) ∧
    (∃ (s : State) (m : Fin 17), InHand s m.val 0x0C03 ∧ isP s m.val = true ∧ cmdLen s m.val = 4 ∧ leaseOf s m.val (cmdLease s m.val) = some 3 ∧
      b1 (cmdPayload s m.val) 0 < 32 ∧ Accepted s m.val ([(.DIP_INJ, 0, 0, [(F.DIP_INJ_INJ_CH, b1 (cmdPayload s m.val) 0), (F.DIP_INJ_INJ_POS1,
      b1 (cmdPayload s m.val) 1), (F.DIP_INJ_INJ_POS2, b1 (cmdPayload s m.val) 2), (F.DIP_INJ_INJ_BEAT, b1 (cmdPayload s m.val) 3),
      (F.DIP_INJ_INJ_ARM, 1)])])) ∧
    (∃ (s : State) (m : Fin 17), InHand s m.val 0x0D00 ∧ isP s m.val = true ∧ cmdLen s m.val = 1 ∧ b1 (cmdPayload s m.val) 0 < 9) ∧
    (∃ (s : State) (m : Fin 17) (marginal : Bool), InHand s m.val 0x0D01 ∧ isP s m.val = true ∧ cmdLen s m.val = 8 ∧
      leaseOf s m.val (cmdLease s m.val) = some 2 ∧ b1 (cmdPayload s m.val) 0 < 9 ∧ b1 (cmdPayload s m.val) 0 ≠ 6 ∧ b1 (cmdPayload s m.val) 0 ≠ 7 ∧
      b1 (cmdPayload s m.val) 1 < (fuseSpan (b1 (cmdPayload s m.val) 0)).2 ∧ fuseLocked s (b1 (cmdPayload s m.val) 0) = false ∧ marginal = false) ∧
    (∃ (s : State) (m : Fin 17), InHand s m.val 0x0D01 ∧ isP s m.val = true ∧ cmdLen s m.val = 8 ∧ leaseOf s m.val (cmdLease s m.val) = some 2 ∧
      b1 (cmdPayload s m.val) 0 < 9 ∧ b1 (cmdPayload s m.val) 0 ≠ 6 ∧ b1 (cmdPayload s m.val) 0 ≠ 7 ∧
      b1 (cmdPayload s m.val) 1 < (fuseSpan (b1 (cmdPayload s m.val) 0)).2 ∧ fuseLocked s (b1 (cmdPayload s m.val) 0) = true) ∧
    (∃ (s : State) (m : Fin 17), InHand s m.val 0x0D02 ∧ isP s m.val = true ∧ cmdLen s m.val = 1 ∧ leaseOf s m.val (cmdLease s m.val) = some 2 ∧
      lockable.contains (b1 (cmdPayload s m.val) 0) = true ∧ fuseLocked s (b1 (cmdPayload s m.val) 0) = false ∧
      fuseComplete s (b1 (cmdPayload s m.val) 0) = true) ∧
    (∃ (s : State) (m : Fin 17), InHand s m.val 0x0D02 ∧ isP s m.val = true ∧ cmdLen s m.val = 1 ∧ leaseOf s m.val (cmdLease s m.val) = some 2 ∧
      lockable.contains (b1 (cmdPayload s m.val) 0) = true ∧ fuseLocked s (b1 (cmdPayload s m.val) 0) = false ∧
      fuseComplete s (b1 (cmdPayload s m.val) 0) = false) ∧
    (∃ (s : State) (m : Fin 17), InHand s m.val 0x0D03 ∧ isP s m.val = true ∧ cmdLen s m.val = 1 ∧ b1 (cmdPayload s m.val) 0 < 9) :=
  ⟨⟨logged, 0, by unfold InHand; decide +kernel, by decide +kernel, by decide +kernel, by decide +kernel, by decide +kernel, logged_records⟩,
   ⟨command 15 0xb01 0 ([]) served, 15, by unfold InHand; decide +kernel⟩,
   ⟨command 0 0xb02 77 (leBytes 2 286 ++ leBytes 2 65535 ++ leBytes 1 3) (leased 0 0 served), 0, by unfold InHand Accepted; decide +kernel⟩,
   ⟨command 0 0xb03 0 (leBytes 2 287) served, 0, by unfold InHand; decide +kernel⟩,
   ⟨command 0 0xb04 77 (leBytes 2 100) (leased 0 0 served), 0, by unfold InHand Accepted; decide +kernel⟩,
   ⟨command 0 0xc00 77 ([0, 0]) (leased 3 0 served), 0, by unfold InHand Accepted; decide +kernel⟩,
   ⟨command 0 0xc00 77 ([1, 15]) (leased 3 0 served), 0, by unfold InHand Accepted; decide +kernel⟩,
   ⟨command 0 0xc01 77 ([0, 0]) (leased 3 0 (served.wr F.MGT_QUIESCE_WE_STACK 1)), 0, by unfold InHand Accepted; decide +kernel⟩,
   ⟨command 0 0xc02 77 ([15, 15, 0, 1]) (leased 3 0 (groupIn 15 .test up)), 0, by unfold InHand Accepted; decide +kernel⟩,
   ⟨command 0 0xc03 77 ([31, 1, 0, 3]) (leased 3 0 served), 0, by unfold InHand Accepted; decide +kernel⟩,
   ⟨command 0 0xd00 0 ([8]) served, 0, by unfold InHand; decide +kernel⟩,
   ⟨command 0 0xd01 77 ([8, 0, 0, 0, 1, 0, 0, 0]) (leased 2 0 served), 0, false, by unfold InHand; decide +kernel⟩,
   ⟨{ command 0 0xd01 77 ([8, 0, 0, 0, 1, 0, 0, 0]) (leased 2 0 served) with pst.latch := [(116, 2 ^ 8)] }, 0, by unfold InHand; decide +kernel⟩,
   ⟨{ command 0 0xd02 77 ([8]) (leased 2 0 served) with pst.latch := [((fuseSpan 8).1 + (fuseSpan 8).2 - 1, 0x5EA10008), ((fuseSpan 8).1 + (fuseSpan 8).2 - 2, crcWords (List.replicate ((fuseSpan 8).2 - 2) 0))] },
    0, by unfold InHand; decide +kernel⟩,
   ⟨command 0 0xd02 77 ([8]) (leased 2 0 served), 0, by unfold InHand; decide +kernel⟩,
   ⟨command 0 0xd03 0 ([8]) served, 0, by unfold InHand; decide +kernel⟩⟩

theorem witness_device_address_map_is_one_to_one :
    (∃ (s : State), s.rd F.RQE_CTL_HASH_SEL = 0) ∧
    (∃ (s : State), s.rd F.RQE_CTL_HASH_SEL = 1) ∧
    (∃ (s : State), s.rd F.RQE_CTL_HASH_SEL = 2) ∧
    (∃ (s : State), s.rd F.RQE_CTL_HASH_SEL = 3) ∧
    (∃ (s : State), s.rd F.RQE_CTL_HASH_SEL = 3) ∧
    (∃ (s : State) (i : Nat), (s.rd F.RQE_CTL_HASH_SEL < 3 ∨ s.rd F.RQE_CTL_HASH_SEL = 3 ∧
      masksLegal (s.rd F.RQE_CTL_CH_LSB) (s.rd F.RQE_HASH_MASK_MASK) = true) ∧ i < 5) ∧
    (∃ (s : State) (d : Nat), (s.rd F.RQE_CTL_HASH_SEL < 3 ∨ s.rd F.RQE_CTL_HASH_SEL = 3 ∧
      masksLegal (s.rd F.RQE_CTL_CH_LSB) (s.rd F.RQE_HASH_MASK_MASK) = true) ∧ d < 2 ^ 37) ∧
    (∃ (s : State) (d : Nat) (i : Nat), (s.rd F.RQE_CTL_HASH_SEL < 3 ∨ s.rd F.RQE_CTL_HASH_SEL = 3 ∧
      masksLegal (s.rd F.RQE_CTL_CH_LSB) (s.rd F.RQE_HASH_MASK_MASK) = true) ∧ d < 2 ^ 37 ∧ i < 5) ∧
    (∃ (s : State) (d : Nat) (e : Nat), (s.rd F.RQE_CTL_HASH_SEL < 3 ∨ s.rd F.RQE_CTL_HASH_SEL = 3 ∧
      masksLegal (s.rd F.RQE_CTL_CH_LSB) (s.rd F.RQE_HASH_MASK_MASK) = true) ∧ d < 2 ^ 37 ∧ e < 2 ^ 37 ∧ mapDev s d = mapDev s e) :=
  ⟨⟨up.wr F.RQE_CTL_HASH_SEL 0, by decide +kernel⟩,
   ⟨up.wr F.RQE_CTL_HASH_SEL 1, by decide +kernel⟩,
   ⟨up.wr F.RQE_CTL_HASH_SEL 2, by decide +kernel⟩,
   ⟨up.wr F.RQE_CTL_HASH_SEL 3, by decide +kernel⟩,
   ⟨up.wr F.RQE_CTL_HASH_SEL 3, by decide +kernel⟩,
   ⟨up, 4, by decide +kernel⟩,
   ⟨up, 2 ^ 37 - 1, by decide +kernel⟩,
   ⟨up, 2 ^ 37 - 1, 4, by decide +kernel⟩,
   ⟨up, 2 ^ 37 - 1, 2 ^ 37 - 1, by decide +kernel⟩⟩

theorem witness_unassigned_locations_read_zero :
    (∃ (s : State) (a : RegAcc), a.who < 18 ∧ regsOpen s = true ∧ pregPending s a.who = false ∧ regAt a.off = none ∧ a.org = .core) ∧
    (∃ (s : State) (a : RegAcc) (k : Nat), a.who < 18 ∧ regsOpen s = true ∧ pregPending s a.who = false ∧ regAt a.off = none ∧ a.org = .core ∧
      k ≠ F.GLB_LAS_LA_RES.at a.who 0 ∧ k ≠ F.GLB_LAS_LA_WR.at a.who 0 ∧ k ≠ F.GLB_LAS_LA_OFS.at a.who 0) :=
  ⟨⟨up, { who := 17, org := .core, wr := false, off := 0xFFFFFC, val := 0 }, by decide +kernel⟩,
   ⟨up, { who := 17, org := .core, wr := false, off := 0xFFFFFC, val := 0 }, 0, by decide +kernel⟩⟩

theorem witness_a_master_without_a_letter_is_refused :
    (∃ (s : State) (who : Nat) (r : RegId) (i : Nat), r.info.flds.any (mayField (letters s r who (ownIdx r who i) false)) = false ∧
      (who = 16 → s.mgt.auth = false → openReg r = false)) ∧
    (∃ (s : State) (who : Nat) (r : RegId) (i : Nat), r.info.flds.any (mayField (letters s r who (ownIdx r who i) true)) = false) ∧
    (∃ (s : State) (a : RegAcc) (r : RegId) (i : Nat) (j : Nat), a.who < 18 ∧ regsOpen s = true ∧ pregPending s a.who = false ∧ regAt a.off = some (r, i,
      j) ∧ a.org = .core ∧ r.info.flds.any (mayField (letters s r a.who (ownIdx r a.who i) a.wr)) = false ∧
      (a.who = 16 → s.mgt.auth = false → openReg r = false)) ∧
    (∃ (s : State) (a : RegAcc) (r : RegId) (i : Nat) (j : Nat) (k : Nat), a.who < 18 ∧ regsOpen s = true ∧ pregPending s a.who = false ∧
      regAt a.off = some (r, i, j) ∧ a.org = .core ∧ r.info.flds.any (mayField (letters s r a.who (ownIdx r a.who i) a.wr)) = false ∧
      (a.who = 16 → s.mgt.auth = false → openReg r = false) ∧ k ∉ [F.GLB_LAS_LA_RES.at a.who 0, F.GLB_LAS_LA_WR.at a.who 0,
      F.GLB_LAS_LA_OFS.at a.who 0, F.GLB_LFAIL_LF_RES.at a.who 0, F.GLB_LFAIL_LF_WR.at a.who 0, F.GLB_LFAIL_LF_OFS.at a.who 0,
      F.GLB_LFAIL_DET_LF_DET.at a.who 0, F.GLB_REJ_M_REJ.at a.who 0]) :=
  ⟨⟨up, 16, .GLB_PLOCK, 0, by decide +kernel⟩,
   ⟨up, 15, .GLB_PLOCK, 0, by decide +kernel⟩,
   ⟨up, { who := 15, org := .core, wr := true, off := regOffset .GLB_PLOCK 0 0, val := 1 }, .GLB_PLOCK, 0, 0, by decide +kernel⟩,
   ⟨up, { who := 15, org := .core, wr := true, off := regOffset .GLB_PLOCK 0 0, val := 1 }, .GLB_PLOCK, 0, 0, 0, by decide +kernel⟩⟩

theorem witness_reset_state :
    (∃ (g : Nat), g < 16) ∧
    (∃ (m : Nat), m < 17) ∧
    (∃ (i : Nat), i < 5) ∧
    (∃ (src : Nat), src < 288) ∧
    (∃ (d : Nat), d < 16) :=
  ⟨⟨15, by decide +kernel⟩,
   ⟨16, by decide +kernel⟩,
   ⟨4, by decide +kernel⟩,
   ⟨287, by decide +kernel⟩,
   ⟨15, by decide +kernel⟩⟩

theorem witness_step_keeps_the_canonical_form :
    (∃ s t : State, Canon s ∧ step s = .next t) :=
  ⟨up, _, by unfold Canon IdsRise; decide +kernel, rfl⟩

end Sys2Proof.Tests
end

/-! SUPPORT. What an access by a core comes to: refused for a missing letter, refused by a check, or applied; and what its record changes. -/

namespace Sys2Proof.SMap

/-- Putting a key leaves what every other key holds as it was. -/
theorem get?_put_ne {α : Type} [DecidableEq α] (m : SMap α) (k j : Nat) (d v : α) (h : j ≠ k) : get? (put m k d v) j = get? m j := by
  unfold put
  split
  · exact get?_erase_ne _ _ _ h
  · exact get?_set_ne _ _ _ _ h

end Sys2Proof.SMap

namespace Sys2Proof.Machine

/-! ## Where a record of an access writes (R295) -/

/-- A field write leaves every other place of the register store as it was. -/
theorem State.regs_wr_ne (s : State) (f : Fld) (v i j k : Nat) (h : k ≠ f.at i j) : SMap.get? (s.wr f v i j).regs k = SMap.get? s.regs k :=
  SMap.get?_put_ne _ _ _ _ _ h

/-- Advancing a counter leaves every other place of the register store as it was. -/
theorem State.regs_inc_ne (s : State) (f : Fld) (n i j k : Nat) (h : k ≠ f.at i j) : SMap.get? (s.inc f n i j).regs k = SMap.get? s.regs k :=
  State.regs_wr_ne _ _ _ _ _ _ h

/-- The places that the record of a master's access reaches: its last access, its last failure and its rejection count. -/
def recordPlaces (who : Nat) : List Nat :=
  [F.GLB_LAS_LA_RES.at who 0, F.GLB_LAS_LA_WR.at who 0, F.GLB_LAS_LA_OFS.at who 0, F.GLB_LFAIL_LF_RES.at who 0, F.GLB_LFAIL_LF_WR.at who 0,
    F.GLB_LFAIL_LF_OFS.at who 0, F.GLB_LFAIL_DET_LF_DET.at who 0, F.GLB_REJ_M_REJ.at who 0]

/-- Recording an access changes the register store at the master's record places alone. -/
theorem recordAcc_get?_ne (s : State) (who : Nat) (wr : Bool) (off : Nat) (c : Code) (d k : Nat) (hk : k ∉ recordPlaces who) :
    SMap.get? (recordAcc s who wr off c d).regs k = SMap.get? s.regs k := by
  simp only [recordPlaces, List.mem_cons, List.not_mem_nil, or_false, not_or] at hk
  obtain ⟨hres, hwr, hofs, hfres, hfwr, hfofs, hdet, hrej⟩ := hk
  unfold recordAcc
  dsimp only
  split
  · rw [State.regs_wr_ne _ _ _ _ _ _ hofs, State.regs_wr_ne _ _ _ _ _ _ hwr, State.regs_wr_ne _ _ _ _ _ _ hres]
  · rw [State.regs_inc_ne _ _ _ _ _ _ hrej, State.regs_wr_ne _ _ _ _ _ _ hdet, State.regs_wr_ne _ _ _ _ _ _ hfofs,
      State.regs_wr_ne _ _ _ _ _ _ hfwr, State.regs_wr_ne _ _ _ _ _ _ hfres, State.regs_wr_ne _ _ _ _ _ _ hofs,
      State.regs_wr_ne _ _ _ _ _ _ hwr, State.regs_wr_ne _ _ _ _ _ _ hres]

/-- `LA_WR` after an accepted access was recorded (R295). -/
theorem recordAcc_ok_wr (s : State) (who : Nat) (wr : Bool) (off : Nat) : (recordAcc s who wr off .ok 0).rd F.GLB_LAS_LA_WR who = b2n wr := by
  have hne : F.GLB_LAS_LA_WR.at who 0 ≠ F.GLB_LAS_LA_OFS.at who 0 := by simp [Fld.at, F.GLB_LAS_LA_WR, F.GLB_LAS_LA_OFS]
  simp only [recordAcc, if_true]
  rw [State.rd_wr_ne _ _ _ _ _ _ _ _ hne, State.rd_wr_same]
  cases wr <;> rfl

/-- `LA_OFS` after an accepted access was recorded: the word offset, within a 24-bit byte offset (R295). -/
theorem recordAcc_ok_ofs (s : State) (who : Nat) (wr : Bool) (off : Nat) (h : off < 2 ^ 24) :
    (recordAcc s who wr off .ok 0).rd F.GLB_LAS_LA_OFS who = off / 4 := by
  simp only [recordAcc, if_true, State.rd_wr_same]
  exact Nat.mod_eq_of_lt (by simp only [F.GLB_LAS_LA_OFS]; omega)

/-! ## A master without a letter (R5) -/

/-- A read without a letter is PRIVILEGE and zero, and has no other effect. -/
theorem readReg_without_letter (s : State) (who : Nat) (r : RegId) (i j : Nat)
    (h : r.info.flds.any (mayField (letters s r who (ownIdx r who i) false)) = false) (hopen : who = 16 → s.mgt.auth = false → openReg r = false) :
    readReg s who r i j = (.privilege, 0, s) := by
  have hnone : (r.info.flds.any fun f =>
      if who = 16 ∧ ¬ s.mgt.auth then openReg r else mayField (letters s r who (ownIdx r who i) false) f) = false := by
    by_cases ho : who = 16 ∧ ¬ s.mgt.auth
    · have hclosed : openReg r = false := hopen ho.1 (by simpa using ho.2)
      simp only [if_pos ho, hclosed]
      simp
    · simp only [if_neg ho]
      exact h
  unfold readReg
  dsimp only
  rw [hnone]
  rfl

/-- A write without a letter is PRIVILEGE, and has no other effect. -/
theorem writeReg_without_letter (s : State) (who : Nat) (org : Origin) (r : RegId) (i j v : Nat)
    (h : r.info.flds.any (mayField (letters s r who (ownIdx r who i) true)) = false) : writeReg s who org r i j v = (.done .privilege 0, s) := by
  simp [writeReg, h]

/-- An access by a core without a letter only leaves its record. -/
theorem access_without_letter (s : State) (a : RegAcc) (r : RegId) (i j : Nat) (hopen : regsOpen s = true) (hp : pregPending s a.who = false)
    (hat : regAt a.off = some (r, i, j)) (horg : a.org = .core) (h : r.info.flds.any (mayField (letters s r a.who (ownIdx r a.who i) a.wr)) = false)
    (hread : a.who = 16 → s.mgt.auth = false → openReg r = false) : access s a = recordAcc s a.who a.wr a.off .privilege 0 := by
  cases hw : a.wr with
  | true =>
    rw [hw] at h
    rw [access_write s a hopen hp hw, runWrite_done s a r i j .privilege 0 s hat (writeReg_without_letter s a.who a.org r i j a.val h), horg]
    rfl
  | false =>
    rw [hw] at h
    rw [access_read s a hopen hp hw, runRead, hat]
    simp only [readReg_without_letter s a.who r i j h hread, horg]
    rfl

/-- Settles O58: a read and a write without a letter are each refused before anything else is looked at, so the access leaves its record alone. -/
theorem aMasterWithoutALetterIsRefused : Obligations.AMasterWithoutALetterIsRefused := by
  unfold Obligations.AMasterWithoutALetterIsRefused
  refine ⟨readReg_without_letter, writeReg_without_letter, ?_⟩
  intro s a r i j hwho hopen hp hat horg h hread
  rw [access_without_letter s a r i j hopen hp hat horg h hread]
  obtain ⟨regs, hregs, -⟩ := recordAcc_reach s a.who a.wr a.off .privilege 0 hwho
  exact ⟨recordAcc_res .., ⟨regs, hregs⟩, fun k hk => recordAcc_get?_ne _ _ _ _ _ _ _ hk⟩

/-! ## A write that is refused by a check, and one that is applied -/

theorem exec_registerWrite (s : State) (who : Fin 18) (off : BitVec 24) (v : Word) :
    exec (.registerWrite who off v) s = .next (registerWrite who.val off.toNat v.toNat s) := rfl

/-- A core's write to a place that no table assigns is OK and leaves its record alone (R294). -/
theorem registerWrite_unassigned (s : State) (who off v : Nat) (hopen : regsOpen s = true) (hp : pregPending s who = false) (hat : regAt off = none) :
    registerWrite who off v s = recordAcc s who true off .ok 0 := by
  rw [registerWrite, access_write _ _ hopen hp rfl, runWrite, hat]
  rfl

/-- A core's write whose checks end with a result leaves what the checks leave, and its record. -/
theorem registerWrite_done (s : State) (who off v : Nat) (r : RegId) (i j : Nat) (c : Code) (d : Nat) (t : State) (hopen : regsOpen s = true)
    (hp : pregPending s who = false) (hat : regAt off = some (r, i, j)) (hw : writeReg s who .core r i j v = (.done c d, t)) :
    registerWrite who off v s = recordAcc t who true off c d := by
  rw [registerWrite, access_write _ _ hopen hp rfl, runWrite_done _ _ r i j c d t hat hw]
  rfl

/-- A value that a field may not hold, in a field that the master may write, is BAD_VALUE where the register's own action does not answer PRIVILEGE
(R12, R291). -/
theorem writeReg_illegal (s : State) (who : Nat) (org : Origin) (r : RegId) (i j v : Nat)
    (hmay : r.info.flds.any (mayField (letters s r who (ownIdx r who i) true)) = true) (hhook : (writeHook s who r i j v).1 ≠ .privilege)
    (hbad : (r.info.flds.any fun f => mayField (letters s r who (ownIdx r who i) true) f && illegal f v) = true) :
    writeReg s who org r i j v = (.done .badValue 0, s) := by
  unfold writeHook writtenWord at hhook
  unfold writeReg
  dsimp only
  simp [hmay, hhook, hbad]

/-- A write that meets every other check of a register whose block's clock is stopped is STATE (R298). -/
theorem writeReg_clockStopped (s : State) (who : Nat) (org : Origin) (r : RegId) (i j v : Nat)
    (hmay : r.info.flds.any (mayField (letters s r who (ownIdx r who i) true)) = true)
    (hlegal : (r.info.flds.any fun f => mayField (letters s r who (ownIdx r who i) true) f && illegal f v) = false)
    (hhook : (writeHook s who r i j v).1 = .ok)
    (hwin : inWindow s who r (ownIdx r who i) j (mayField (letters s r who (ownIdx r who i) true)) = false)
    (hlock : pregLocked s r (ownIdx r who i) = false) (hstop : clockStopped s r (ownIdx r who i) = true) :
    writeReg s who org r i j v = (.done .state 0, s) := by
  unfold writeHook writtenWord at hhook
  unfold writeReg
  dsimp only
  simp [hmay, hhook, hlegal, hwin, hlock, hstop]

/-- The offset of a group's user pattern names it. -/
theorem regAt_patUser (g : Fin 16) : regAt (regOffset .HLP_PAT_USER g.val 0) = some (.HLP_PAT_USER, g.val, 0) := by
  revert g
  decide

/-- The offset of a group's user pattern lies within the 24 bits of an offset. -/
theorem regOffset_patUser_lt (g : Fin 16) : regOffset .HLP_PAT_USER g.val 0 < 2 ^ 24 := by
  revert g
  decide

/-- The user patterns of two groups lie in different places. -/
theorem patUser_at_ne {k g : Nat} (h : k ≠ g) : F.HLP_PAT_USER_PATTERN.at k 0 ≠ F.HLP_PAT_USER_PATTERN.at g 0 := by
  simp only [Fld.at, F.HLP_PAT_USER_PATTERN]
  omega

/-- A user pattern lies outside the places that a record of an access reaches. -/
theorem patUser_not_lasPlace {k : Nat} (h : k < 16) : lasPlace (F.HLP_PAT_USER_PATTERN.at k 0) = false := by
  interval_cases k <;> decide

/-- Storing a word in a field at its low end stores the field's part of it. -/
theorem State.wr_val (s : State) (f : Fld) (hlo : f.lo = 0) (v i j : Nat) : s.wr f (f.val v) i j = s.wr f v i j := by
  simp [State.wr, Fld.val, bits, hlo]

/-- The user pattern's register has no action of its own: its one field is stored. -/
theorem writeHook_patUser (s : State) (who g v : Nat) (h : MayWrite s who .HLP_PAT_USER g F.HLP_PAT_USER_PATTERN) :
    writeHook s who .HLP_PAT_USER g 0 v = okH (s.wr F.HLP_PAT_USER_PATTERN v g) := by
  have hown : ownIdx .HLP_PAT_USER who g = g := rfl
  unfold MayWrite at h
  rw [hown] at h
  have hfld : storeFields s .HLP_PAT_USER g 0 v (mayField (letters s .HLP_PAT_USER who g true)) = s.wr F.HLP_PAT_USER_PATTERN v g := by
    unfold storeFields
    show (if !mayField (letters s .HLP_PAT_USER who g true) F.HLP_PAT_USER_PATTERN then s
      else s.wr F.HLP_PAT_USER_PATTERN (F.HLP_PAT_USER_PATTERN.val v) g) = _
    rw [h]
    exact State.wr_val s F.HLP_PAT_USER_PATTERN rfl v g 0
  unfold writeHook
  rw [hown, hfld]
  rfl

/-- A write of a group's user pattern stores it, and leaves its record. -/
theorem registerWrite_patUser (s : State) (who : Nat) (g : Fin 16) (v : Nat) (h : CanWrite s who .HLP_PAT_USER g.val 0 v [F.HLP_PAT_USER_PATTERN]) :
    registerWrite who (regOffset .HLP_PAT_USER g.val 0) v s =
      recordAcc (s.wr F.HLP_PAT_USER_PATTERN v g.val) who true (regOffset .HLP_PAT_USER g.val 0) .ok 0 := by
  obtain ⟨⟨hopen, hp, hchecks⟩, hmay⟩ := h
  have hhook := writeHook_patUser s who g.val v (hmay _ (List.mem_singleton.2 rfl))
  refine registerWrite_done s who _ v .HLP_PAT_USER g.val 0 .ok 0 _ hopen hp (regAt_patUser g) ?_
  rw [writeReg_ok s who .core .HLP_PAT_USER g.val 0 v hchecks (by rw [hhook]; rfl) rfl, hhook]
  rfl

/-- Settles O21: each check of a write that fails ends it before anything is stored, and the record of the access is all that it leaves; a user
pattern's register has no action of its own, so an accepted write stores its one field. -/
theorem accessIsCheckedWholeOrNothing : Obligations.AccessIsCheckedWholeOrNothing := by
  unfold Obligations.AccessIsCheckedWholeOrNothing
  refine ⟨?_, ?_, ?_⟩
  · intro s who off v hopen hp hat
    rw [exec_registerWrite, registerWrite_unassigned s _ _ _ hopen hp hat]
  · intro s who off v r i j hopen hp hat
    have refused (c : Code) (hw : writeReg s who.val .core r i j v.toNat = (.done c 0, s)) :
        exec (.registerWrite who off v) s = .next (recordAcc s who.val true off.toNat c 0) := by
      rw [exec_registerWrite, registerWrite_done s _ _ _ r i j c 0 s hopen hp hat hw]
    refine ⟨fun hnone => ?_, fun hmay hhook hbad => ?_, fun hmay hlegal hhook hwin hlock hstop => ?_⟩
    · exact refused .privilege (writeReg_without_letter _ _ _ _ _ _ _ hnone)
    · exact refused .badValue (writeReg_illegal _ _ _ _ _ _ _ hmay hhook hbad)
    · exact refused .state (writeReg_clockStopped _ _ _ _ _ _ _ hmay hlegal hhook hwin hlock hstop)
  · intro s who g v h
    have hoff : (BitVec.ofNat 24 (regOffset .HLP_PAT_USER g.val 0)).toNat = regOffset .HLP_PAT_USER g.val 0 := by
      rw [BitVec.toNat_ofNat, Nat.mod_eq_of_lt (regOffset_patUser_lt g)]
    have hrun := exec_registerWrite s who (BitVec.ofNat 24 (regOffset .HLP_PAT_USER g.val 0)) v
    rw [hoff, registerWrite_patUser s who.val g v.toNat h] at hrun
    refine ⟨_, hrun, recordAcc_res .., ?_, recordAcc_ok_wr .., recordAcc_ok_ofs _ _ _ _ (regOffset_patUser_lt g), ?_⟩
    · rw [recordAcc_rd _ _ _ _ _ _ who.isLt _ _ _ (patUser_not_lasPlace g.isLt), State.rd_wr_same]
      exact Nat.mod_eq_of_lt v.isLt
    · intro k hk hne
      rw [recordAcc_rd _ _ _ _ _ _ who.isLt _ _ _ (patUser_not_lasPlace hk), State.rd_wr_ne _ _ _ _ _ _ _ _ (patUser_at_ne hne)]

end Sys2Proof.Machine

/-! SUPPORT. The order of rejections (R12), and when a mailbox command has no effect or is refused. -/

namespace Sys2Proof.Machine

/-! ## The first code of R12 -/

/-- The accepted code comes after every rejection. -/
theorem codeRank_le_ok (c : Code) : codeRank c ≤ codeRank .ok := by cases c <;> decide

/-- A code of acceptance's rank is acceptance. -/
theorem eq_ok_of_codeRank (c : Code) (h : codeRank .ok ≤ codeRank c) : c = .ok := by
  revert h
  cases c <;> decide

/-- Of two codes, the first that applies is one of them, and no later than either. -/
theorem firstCode_spec (a b : Code) : (firstCode a b = a ∨ firstCode a b = b) ∧ codeRank (firstCode a b) ≤ codeRank a ∧
    codeRank (firstCode a b) ≤ codeRank b := by
  unfold firstCode
  split
  · exact ⟨.inr rfl, by omega, le_rfl⟩
  · exact ⟨.inl rfl, le_rfl, by omega⟩

/-- A code that was accepted so far gives way to any other. -/
@[simp] theorem firstCode_ok_left (c : Code) : firstCode .ok c = c := by
  cases c <;> rfl

/-- A rejection of lower rank stands. -/
theorem firstCode_of_le {a b : Code} (h : codeRank a ≤ codeRank b) : firstCode a b = a := if_neg (by omega)

/-- The first code of a running test is the code so far or one of the tests. -/
theorem foldl_firstCode_mem (l : List Code) (a : Code) : l.foldl firstCode a = a ∨ l.foldl firstCode a ∈ l := by
  induction l generalizing a with
  | nil => exact .inl rfl
  | cons b r ih =>
    rw [List.foldl_cons]
    rcases ih (firstCode a b) with h | h
    · rcases (firstCode_spec a b).1 with hab | hab
      · exact .inl (h.trans hab)
      · exact .inr (List.mem_cons.2 (.inl (h.trans hab)))
    · exact .inr (List.mem_cons_of_mem _ h)

/-- It is no later than the code so far and than any of the tests. -/
theorem foldl_firstCode_rank (l : List Code) (a : Code) :
    codeRank (l.foldl firstCode a) ≤ codeRank a ∧ ∀ c ∈ l, codeRank (l.foldl firstCode a) ≤ codeRank c := by
  induction l generalizing a with
  | nil => exact ⟨le_rfl, by simp⟩
  | cons b r ih =>
    obtain ⟨hacc, hrest⟩ := ih (firstCode a b)
    obtain ⟨-, ha, hb⟩ := firstCode_spec a b
    refine ⟨hacc.trans ha, fun c hc => ?_⟩
    rcases List.mem_cons.1 hc with rfl | hc
    · exact hacc.trans hb
    · exact hrest c hc

/-- The first code of a list of tests is OK or one of them. -/
theorem firstOf_mem (l : List Code) : firstOf l = .ok ∨ firstOf l ∈ l := foldl_firstCode_mem l .ok

/-- The first code of a list of tests is no later than any of them. -/
theorem codeRank_firstOf_le (l : List Code) (c : Code) (hc : c ∈ l) : codeRank (firstOf l) ≤ codeRank c := (foldl_firstCode_rank l .ok).2 c hc

/-- A list of tests is passed when each of them is. -/
theorem firstOf_eq_ok_iff (l : List Code) : firstOf l = .ok ↔ ∀ c ∈ l, c = .ok := by
  constructor
  · intro h c hc
    exact eq_ok_of_codeRank c (h ▸ codeRank_firstOf_le l c hc)
  · intro h
    rcases firstOf_mem l with h' | h'
    · exact h'
    · exact h _ h'

/-- Tests whose codes all come after PRIVILEGE end after it. -/
theorem firstOf_rank {l : List Code} (h : l.Forall fun c => codeRank .privilege < codeRank c) : codeRank .privilege < codeRank (firstOf l) := by
  rcases firstOf_mem l with h' | h'
  · rw [h']
    decide
  · exact List.forall_iff_forall_mem.1 h _ h'

/-- A test whose code comes after PRIVILEGE ends after it. -/
theorem need_rank (ok : Bool) {c : Code} (h : codeRank .privilege < codeRank c) : codeRank .privilege < codeRank (need ok c) := by
  unfold need
  split
  · exact h.trans_le (codeRank_le_ok c)
  · exact h

/-! ## A command that is not in hand (R270, R275) -/

/-- A mailbox that is not BUSY, whose command has run, or with no core serving: its command has no effect. -/
theorem runCmd_not_in_hand {s : State} {m : Nat} (h : mstate s m ≠ 2 ∨ (s.mbx m).ran = true ∨ coreServes s = false) (opc : Nat)
    (who : State → Nat → Bool) (lenOk : List Byte → Bool) (lease : Option Nat) (body : State → List Byte → Reply) :
    runCmd m opc who lenOk lease body s = s := by
  unfold runCmd
  rw [if_pos]
  rcases h with h | h | h
  · exact .inl h
  · exact .inr (.inl h)
  · exact .inr (.inr (.inr (by simp [h])))

/-- The same for a command that waits for room in the request engine first. -/
theorem roomThenRunCmd_not_in_hand {s : State} {m : Nat} (h : mstate s m ≠ 2 ∨ (s.mbx m).ran = true ∨ coreServes s = false) (room : Bool) (opc : Nat)
    (who : State → Nat → Bool) (lenOk : List Byte → Bool) (lease : Option Nat) (body : State → List Byte → Reply) :
    (if !room then s else s |> runCmd m opc who lenOk lease body) = s := by
  rw [runCmd_not_in_hand h, ite_self]

/-! ## A sender without the right (R279) -/

/-- A domain other than D0 has no P. -/
theorem isP_eq_false (s : State) {m : Nat} (h0 : m ≠ 0) (h16 : m ≠ 16) : isP s m = false := by simp [isP, h0, h16]

/-- A code and its detail word leave a missing right the first rejection: the code comes no earlier in R12's order, and a PRIVILEGE has no detail. -/
def NoEarlier (c : Code) (d : Nat) : Prop := codeRank .privilege ≤ codeRank c ∧ (c = .privilege → d = 0)

/-- A code without a detail word. -/
theorem NoEarlier.bare {c : Code} (h : codeRank .privilege ≤ codeRank c) : NoEarlier c 0 := ⟨h, fun _ => rfl⟩

/-- A code that comes after PRIVILEGE. -/
theorem NoEarlier.later {c : Code} (h : codeRank .privilege < codeRank c) (d : Nat) : NoEarlier c d :=
  ⟨h.le, fun hc => absurd (hc ▸ h) (lt_irrefl _)⟩

/-- Acceptance comes after every rejection. -/
theorem NoEarlier.accepted (d : Nat) : NoEarlier .ok d := .later (by decide) d

/-- What a body comes to leaves a missing right the first rejection, and keeps nothing of a PRIVILEGE of its own. -/
def YieldsToPrivilege (r : Reply) : Prop := NoEarlier r.c r.detail ∧ (r.c = .privilege → r.keep = false)

/-- A body whose code comes after PRIVILEGE. -/
theorem YieldsToPrivilege.later {r : Reply} (h : codeRank .privilege < codeRank r.c) : YieldsToPrivilege r :=
  ⟨.later h _, fun hc => absurd (hc ▸ h) (lt_irrefl _)⟩

/-- A body that is refused with a code after PRIVILEGE, without a detail word. -/
theorem YieldsToPrivilege.refusal {c : Code} (s : State) (h : codeRank .privilege < codeRank c) : YieldsToPrivilege { c := c, st := s } := .later h

/-- An accepted body. -/
theorem YieldsToPrivilege.accepted {r : Reply} (h : r.c = .ok) : YieldsToPrivilege r := .later (h ▸ by decide)

theorem YieldsToPrivilege.ite {P : Prop} [Decidable P] {a b : Reply} (ha : YieldsToPrivilege a) (hb : YieldsToPrivilege b) :
    YieldsToPrivilege (if P then a else b) := by
  split
  · exact ha
  · exact hb

/-- Renewing a lease changes neither registers nor memory, requests or link. -/
theorem renewed_frame (s : State) (m : Nat) : (renewed s m).regs = s.regs ∧ (renewed s m).mem = s.mem ∧ (renewed s m).rqe = s.rqe ∧
    (renewed s m).link = s.link := by
  unfold renewed
  split
  · exact ⟨rfl, rfl, rfl, rfl⟩
  · exact ⟨rfl, rfl, rfl, rfl⟩

/-- A sender without the right, of a supported command: PRIVILEGE, whatever its length and its lease. -/
theorem firstOf_privilege (lenOk leased : Bool) :
    firstOf [need true .notSupported, need false .privilege, need lenOk .badLength, need leased .lease] = .privilege := by
  cases lenOk <;> cases leased <;> rfl

/-- A command in hand whose sender has not the right is answered PRIVILEGE; only its lease is renewed. -/
theorem runCmd_without_right {s : State} {m opc : Nat} (h : InHand s m opc) (who : State → Nat → Bool) (lenOk : List Byte → Bool) (lease : Option Nat)
    (body : State → List Byte → Reply) (hwho : who (renewed s m) m = false) (hbody : YieldsToPrivilege (body (renewed s m) (cmdPayload s m))) :
    runCmd m opc who lenOk lease body s =
      (renewed s m).modMbx m fun x => { x with ran := true, journal := true, await := .due .privilege 0 [] } := by
  obtain ⟨hbusy, hran, hopc, hserves, hsup⟩ := h
  have hsup' : supported (renewed s m) m opc = true := by
    rw [← hsup]
    unfold supported recovery State.rd
    rw [(renewed_frame s m).1]
  unfold runCmd
  rw [if_neg (by simp [hbusy, hran, hopc, hserves])]
  extract_lets p held t leased r pre c t' aw
  have ht : t = renewed s m := rfl
  clear_value t
  subst ht
  have hpre : pre = .privilege := by
    unfold pre
    rw [hwho, hsup']
    exact firstOf_privilege _ _
  have hc : c = .privilege := by
    unfold c
    rw [hpre]
    exact firstCode_of_le hbody.1.1
  have ht' : t' = renewed s m := by
    unfold t'
    rw [hc]
    refine if_neg ?_
    rintro (h | ⟨hkeep, hr⟩)
    · exact Code.noConfusion h
    · exact Bool.noConfusion (hkeep.symm.trans (hbody.2 hr.symm))
  have hdetail : (if Code.privilege = r.c then r.detail else 0) = 0 := by
    split
    next hr => exact hbody.1.2 hr.symm
    next => rfl
  have haw : aw = .due .privilege 0 [] := by
    unfold aw
    rw [hc, hdetail]
    rfl
  rw [ht', haw]

/-- A command is answered PRIVILEGE, with registers, memory, requests and link unchanged. -/
def LeftRefused (s t : State) (m : Nat) : Prop :=
  Answered t m (.due .privilege 0 []) ∧ t.mem = s.mem ∧ t.regs = s.regs ∧ t.rqe = s.rqe ∧ t.link = s.link

/-- A command in hand whose sender has not the right leaves its answer alone. -/
theorem runCmd_without_right_frame {s : State} {m opc : Nat} (h : InHand s m opc) (who : State → Nat → Bool) (lenOk : List Byte → Bool)
    (lease : Option Nat) (body : State → List Byte → Reply) (hwho : who (renewed s m) m = false)
    (hbody : YieldsToPrivilege (body (renewed s m) (cmdPayload s m))) : LeftRefused s (runCmd m opc who lenOk lease body s) m := by
  obtain ⟨hregs, hmem, hrqe, hlink⟩ := renewed_frame s m
  rw [runCmd_without_right h who lenOk lease body hwho hbody]
  unfold LeftRefused
  rw [State.modMbx_mem, State.modMbx_regs, State.modMbx_rqe, State.modMbx_link]
  refine ⟨?_, hmem, hregs, hrqe, hlink⟩
  unfold Answered
  rw [State.modMbx_mbx_same]
  exact ⟨rfl, rfl, rfl⟩

/-! ## What the bodies come to -/

/-- The writes of a command of one write. -/
theorem fwWrites_one (s : State) (m : Nat) (w : FwWrite) : fwWrites s m [w] = fwWrite m { st := s } w := rfl

/-- A write that ends in a code no earlier than PRIVILEGE, or waits. -/
def EndsLate (p : WriteEnd × State) : Prop := ∀ c d, p.1 = .done c d → NoEarlier c d

theorem EndsLate.ite {P : Prop} [Decidable P] {a b : WriteEnd × State} (ha : EndsLate a) (hb : EndsLate b) : EndsLate (if P then a else b) := by
  split
  · exact ha
  · exact hb

/-- A check's own code, without a detail word. -/
theorem EndsLate.check {c : Code} (s : State) (hc : codeRank .privilege ≤ codeRank c) : EndsLate (.done c 0, s) := by
  intro c' d h
  cases h
  exact .bare hc

/-- The code of an action that accepts, with any detail word. -/
theorem EndsLate.accepted {c : Code} (d : Nat) (s : State) (hc : c = .ok) : EndsLate (.done c d, s) := by
  subst hc
  intro c' d' h
  cases h
  exact .accepted _

theorem EndsLate.waits (s : State) : EndsLate (.waits, s) := fun _ _ => WriteEnd.noConfusion

/-- A write whose register's own action accepts it ends in no code before PRIVILEGE. -/
theorem writeReg_endsLate (s : State) (who : Nat) (org : Origin) (r : RegId) (i j v : Nat) (hhook : (writeHook s who r i j v).1 = .ok) :
    EndsLate (writeReg s who org r i j v) := by
  unfold writeReg
  extract_lets i' ls may w no hook
  have hok : hook.1 = .ok := hhook
  clear_value hook
  refine .ite (.check s (by decide)) <| .ite (.check _ (by decide)) <| .ite (.check s (by decide)) <| .ite (.check s (by decide)) <|
    .ite (.check s (by decide)) <| .ite (.check s (by decide)) <| .ite (.check s (by decide)) <| .ite (.accepted 0 s hok) ?_
  split
  next => exact .ite (.check _ (by decide)) (.accepted _ s hok)
  next => exact .ite (.check s (by decide)) <| .ite (.accepted _ s hok) <| .ite (.check s (by decide)) (.waits _)

/-- A firmware write alone, to a register whose own action accepts it. -/
theorem fwWrite_noEarlier (s : State) (m : Nat) (w : FwWrite) (hhook : ∀ v, (writeHook s 17 w.1 w.2.1 w.2.2.1 v).1 = .ok) :
    NoEarlier (fwWrite m { st := s } w).c (fwWrite m { st := s } w).detail := by
  obtain ⟨r, i, j, fs⟩ := w
  have hlate := writeReg_endsLate s 17 (.mailbox m) r i j (withBits (baseWord s r i j) fs) (hhook _)
  have hjudged : judgedIn { st := s } r i = s := rfl
  unfold fwWrite
  dsimp only
  rw [hjudged]
  split
  · exact .bare (c := .badValue) (by decide)
  · split
    next t _ =>
      have hjoin : (joinRange { st := s } r i (recordAcc t 17 true (regOffset r i j) .ok 0)).c = .ok := by
        unfold joinRange
        split <;> rfl
      rw [hjoin]
      exact .accepted _
    next c d t _ hw =>
      rw [hw] at hlate
      split
      · exact hlate c d rfl
      · exact .accepted _
    next => exact .accepted _

/-- A list of writes that is refused refuses the command with its first code, and nothing is written (R280). -/
theorem replyWrites_refused (s : State) (m : Nat) (ws : List FwWrite) (pay : List Byte) (h : (fwWrites s m ws).c ≠ .ok) :
    (replyWrites s m .ok ws pay).c = (fwWrites s m ws).c ∧ (replyWrites s m .ok ws pay).st = s := by
  unfold replyWrites
  simp [h]

/-- A command that writes registers leaves a missing right the first rejection where its tests and its writes do. -/
theorem replyWrites_yields (s : State) (m : Nat) (pre : Code) (ws : List FwWrite) (pay : List Byte) (hpre : codeRank .privilege < codeRank pre)
    (hws : NoEarlier (fwWrites s m ws).c (fwWrites s m ws).detail) : YieldsToPrivilege (replyWrites s m pre ws pay) := by
  unfold replyWrites
  extract_lets a c
  split
  · exact .accepted rfl
  · rcases (firstCode_spec pre a.c).1 with hc | hc
    · exact .later (hpre.trans_eq (congrArg codeRank hc.symm))
    · refine ⟨?_, fun _ => rfl⟩
      show NoEarlier c (if c = a.c then a.detail else 0)
      rw [if_pos hc, show c = a.c from hc]
      exact hws

/-- A command of one write, to a register whose own action accepts it. -/
theorem replyOneWrite_yields (s : State) (m : Nat) (pre : Code) (w : FwWrite) (hpre : codeRank .privilege < codeRank pre)
    (hhook : ∀ v, (writeHook s 17 w.1 w.2.1 w.2.2.1 v).1 = .ok) : YieldsToPrivilege (replyWrites s m pre [w]) :=
  replyWrites_yields s m pre [w] [] hpre (by rw [fwWrites_one]; exact fwWrite_noEarlier s m w hhook)

/-- The action of THM_CTL accepts every write. -/
theorem writeHook_thmCtl (s : State) (who i j v : Nat) : (writeHook s who .THM_CTL i j v).1 = .ok := rfl

/-- The action of MGT_QUIESCE accepts every write. -/
theorem writeHook_quiesce (s : State) (who i j v : Nat) : (writeHook s who .MGT_QUIESCE i j v).1 = .ok := rfl

/-- The tests of a memory command come after the sender's right. -/
theorem memCheck_rank (s : State) (addr align n lo hi u : Nat) : codeRank .privilege < codeRank (memCheck s addr align n lo hi u) :=
  firstOf_rank ⟨need_rank _ (by decide), need_rank _ (by decide), need_rank _ (by decide)⟩

/-- The tests of a scope come after the sender's right. -/
theorem scopeCheck_rank (p : List Byte) : codeRank .privilege < codeRank (scopeCheck p) :=
  firstOf_rank ⟨need_rank _ (by decide), need_rank _ (by decide)⟩

/-- The write of WEIGH_ENOUGH and RESUME is one of MGT_QUIESCE. -/
theorem quiesceWrite_reg (s : State) (p : List Byte) (on : Bool) : (quiesceWrite s p on).1 = .MGT_QUIESCE := by
  unfold quiesceWrite
  dsimp only
  split <;> rfl

/-! ## Commands of D0 and the authenticated service host (R279) -/

/-- MEM_READ of another domain. -/
theorem memRead_without_right {s : State} {m : Nat} (h0 : m ≠ 0) (h16 : m ≠ 16) (h : InHand s m 0x0600) (hroom : internalRoom s 0 = true) :
    LeftRefused s (memRead m s) m := by
  unfold memRead
  rw [if_neg (by simp [hroom])]
  refine runCmd_without_right_frame h isP (len 10) none _ (isP_eq_false _ h0 h16) ?_
  exact .ite (.refusal _ (memCheck_rank ..)) (.accepted rfl)

/-- THM_SET of another domain. -/
theorem thmSet_without_right {s : State} {m : Nat} (h0 : m ≠ 0) (h16 : m ≠ 16) (h : InHand s m 0x0803) : LeftRefused s (thmSet m s) m := by
  unfold thmSet
  refine runCmd_without_right_frame h isP (len 4) cfgLease _ (isP_eq_false _ h0 h16) ?_
  exact replyOneWrite_yields _ _ _ _ (by decide) fun v => writeHook_thmCtl _ _ _ _ v

/-- RESUME of another domain. -/
theorem resume_without_right {s : State} {m : Nat} (h0 : m ≠ 0) (h16 : m ≠ 16) (h : InHand s m 0x0C01) : LeftRefused s (resume m s) m := by
  unfold resume
  refine runCmd_without_right_frame h isP (len 2) testLease _ (isP_eq_false _ h0 h16) ?_
  refine replyOneWrite_yields _ _ _ _ ?_ fun v => ?_
  · exact firstOf_rank ⟨scopeCheck_rank _, need_rank _ (by decide)⟩
  · rw [quiesceWrite_reg]
    exact writeHook_quiesce _ _ _ _ v

/-- Settles O50: a command's guard ends it before anything is done; a missing right comes before whatever the three bodies find; and the first code of a
list is the least of R12's order. -/
theorem mailboxCommandsRunOnceInOrder : Obligations.MailboxCommandsRunOnceInOrder := by
  unfold Obligations.MailboxCommandsRunOnceInOrder
  refine ⟨?_, ?_, ?_, firstOf_eq_ok_iff, codeRank_firstOf_le⟩
  · intro s m h
    simp only [List.forall_mem_cons, List.not_mem_nil, false_implies, implies_true, and_true]
    and_intros
    -- the 25th to 27th, MEM_READ, MEM_WRITE and MEM_ZERO, look for room in the request engine first
    iterate 3 on_goal 25 => exact congrArg Host.Outcome.next (roomThenRunCmd_not_in_hand h ..)
    all_goals exact congrArg Host.Outcome.next (runCmd_not_in_hand h ..)
  · intro s m h0 h16
    refine ⟨fun hin hroom => ?_, fun hin => ?_, fun hin => ?_⟩
    · obtain ⟨hans, hmem, hregs, hrqe, -⟩ := memRead_without_right h0 h16 hin hroom
      exact ⟨_, rfl, hans, hmem, hregs, hrqe⟩
    · obtain ⟨hans, -, hregs, -, hlink⟩ := thmSet_without_right h0 h16 hin
      exact ⟨_, rfl, hans, hregs, hlink⟩
    · obtain ⟨hans, -, hregs, hrqe, -⟩ := resume_without_right h0 h16 hin
      exact ⟨_, rfl, hans, hregs, hrqe⟩
  · intro s m ws h pay
    exact replyWrites_refused s m ws pay h

end Sys2Proof.Machine

/-! SUPPORT. The context window of a master: what its registers hold after a READ and after a refusal, and what a write of REG_CTX_CMD comes to. -/

namespace Sys2Proof.Machine

/-! ## Writing several fields in turn -/

/-- Writing fields in turn leaves every other place as it was. -/
theorem rd_foldl_wr_ne (ps : List (Fld × Nat)) (s : State) (f : Fld) (i j k : Nat) (h : ∀ p ∈ ps, f.at j k ≠ p.1.at i 0) :
    (ps.foldl (fun t p => t.wr p.1 p.2 i) s).rd f j k = s.rd f j k := by
  induction ps generalizing s with
  | nil => rfl
  | cons p ps ih =>
    obtain ⟨hp, hps⟩ := List.forall_mem_cons.1 h
    rw [List.foldl_cons, ih _ hps, State.rd_wr_ne _ _ _ _ _ _ _ _ hp]

/-- Fields in different places, written in turn, each read as the value written there, cut to the field's width. -/
theorem rd_foldl_wr (ps : List (Fld × Nat)) (s : State) (i : Nat) (hplaces : (ps.map fun p => p.1.at i 0).Nodup) (f : Fld) (v : Nat)
    (h : (f, v) ∈ ps) : (ps.foldl (fun t p => t.wr p.1 p.2 i) s).rd f i = v % 2 ^ f.w := by
  induction ps generalizing s with
  | nil => exact absurd h List.not_mem_nil
  | cons p ps ih =>
    obtain ⟨hfresh, hrest⟩ := List.nodup_cons.1 hplaces
    rw [List.foldl_cons]
    rcases List.mem_cons.1 h with rfl | h
    · rw [rd_foldl_wr_ne _ _ _ _ _ _ fun q hq heq => hfresh (List.mem_map.2 ⟨q, hq, heq.symm⟩), State.rd_wr_same]
    · exact ih _ hrest h

/-- Writing fields in turn leaves the regulator as it was. -/
theorem foldl_wr_reg (ps : List (Fld × Nat)) (s : State) (i : Nat) : (ps.foldl (fun t p => t.wr p.1 p.2 i) s).reg = s.reg := by
  induction ps generalizing s with
  | nil => rfl
  | cons p ps ih => rw [List.foldl_cons, ih, State.wr_reg]

/-! ## The window's data registers (Table 6.10) -/

/-- The fields of a master's window of data registers, in the order in which a READ and a refusal write them. -/
def windowFlds : List Fld :=
  [F.REG_CTX_D0_CLASS, F.REG_CTX_D0_LT_TGT, F.REG_CTX_D0_RES_IDX, F.REG_CTX_D0_ODOM, F.REG_CTX_D0_ALLOC, F.REG_CTX_D0_OWNED,
    F.REG_CTX_D0_MLAT_CLR, F.REG_CTX_D1_MLAT, F.REG_CTX_D1_LT_STEP, F.REG_CTX_D2_HEAD, F.REG_CTX_D2_TAIL, F.REG_CTX_D3_QCNT]

/-- The fields of a master's window lie in different places. -/
theorem windowFlds_nodup (who : Fin 18) : (windowFlds.map fun f => f.at who.val 0).Nodup := by
  revert who
  decide

/-- A master's window lies outside the places that a record of an access reaches. -/
theorem windowFlds_not_lasPlace (who : Fin 18) : ∀ f ∈ windowFlds, lasPlace (f.at who.val 0) = false := by
  revert who
  decide

/-- Clearing a window writes 0 to its fields in turn. -/
theorem clearWindow_eq (s : State) (who : Nat) : clearWindow s who = (windowFlds.map (·, 0)).foldl (fun t p => t.wr p.1 p.2 who) s := rfl

/-- A cleared window reads zero. -/
theorem clearWindow_rd (s : State) (who : Fin 18) (f : Fld) (hf : f ∈ windowFlds) : (clearWindow s who.val).rd f who.val = 0 := by
  rw [clearWindow_eq, rd_foldl_wr _ _ _ ?_ f 0 (List.mem_map.2 ⟨f, hf, rfl⟩), Nat.zero_mod]
  exact windowFlds_nodup who

@[simp] theorem clearWindow_reg (s : State) (who : Nat) : (clearWindow s who).reg = s.reg := by
  rw [clearWindow_eq, foldl_wr_reg]

@[simp] theorem ctxRead_reg (s : State) (who b : Nat) : (ctxRead s who b).reg = s.reg := foldl_wr_reg ..

/-- After a READ the window shows the context, its owner and the length of its flow queue (R139). -/
theorem ctxRead_rd (s : State) (who : Fin 18) (b : Nat) (f : Fld) (v : Nat)
    (h : (f, v) ∈ [(F.REG_CTX_D0_CLASS, (s.ctx b).cls), (F.REG_CTX_D0_LT_TGT, (s.ctx b).ltTgt), (F.REG_CTX_D0_RES_IDX, (s.ctx b).resIdx),
      (F.REG_CTX_D0_ALLOC, (s.ctx b).alloc), (F.REG_CTX_D0_OWNED, b2n (bowOwner s b).isSome), (F.REG_CTX_D1_MLAT, (s.ctx b).mlat),
      (F.REG_CTX_D3_QCNT, (flowQueue s b).length)]) :
    (ctxRead s who.val b).rd f who.val = v % 2 ^ f.w := by
  refine rd_foldl_wr _ _ _ ?_ f v ?_
  · exact windowFlds_nodup who
  · simp only [List.mem_cons, List.not_mem_nil, or_false] at h ⊢
    tauto

/-! ## A context written (R140) -/

/-- A WRITE stores the checked values in its context, and clears the measured latency when asked. -/
theorem ctxWrite_ctx_same (s : State) (b cls ltTgt resIdx alloc : Nat) (clr : Bool) :
    (ctxWrite s b cls ltTgt resIdx alloc clr).ctx b =
      { s.ctx b with cls := cls, ltTgt := ltTgt, resIdx := resIdx, alloc := alloc, mlat := if clr then 0 else (s.ctx b).mlat } :=
  State.setCtx_ctx_same ..

/-- A WRITE leaves every other context as it was. -/
theorem ctxWrite_ctx_ne (s : State) (b cls ltTgt resIdx alloc k : Nat) (clr : Bool) (h : k ≠ b) :
    (ctxWrite s b cls ltTgt resIdx alloc clr).ctx k = s.ctx k :=
  State.setCtx_ctx_ne _ _ _ _ h

/-! ## The action of REG_CTX_CMD (R139, R140) -/

section
variable {s : State} {who m : Nat}

/-- Whatever is asked, a context out of the master's reach is PRIVILEGE, and the window is cleared. -/
theorem hookCtxCmd_out_of_reach (hreach : ctxReach s who (s.rd F.REG_CTX_IDX_CTX_IDX who) = false) :
    hookCtxCmd s who m = (.privilege, 0, clearWindow s who) := by
  simp [hookCtxCmd, hreach]

/-- A READ in reach is accepted. -/
theorem hookCtxCmd_read (hreach : ctxReach s who (s.rd F.REG_CTX_IDX_CTX_IDX who) = true) (hop : F.REG_CTX_CMD_OP.val m = 1) :
    hookCtxCmd s who m = okH (ctxRead s who (s.rd F.REG_CTX_IDX_CTX_IDX who)) := by
  simp [hookCtxCmd, hreach, hop]

/-- A WRITE in reach that passes R140's test, by the firmware or outside a command's window (R25), is accepted. -/
theorem hookCtxCmd_write (hreach : ctxReach s who (s.rd F.REG_CTX_IDX_CTX_IDX who) = true) (hop : F.REG_CTX_CMD_OP.val m = 2)
    (hcheck : ctxCheck s (s.rd F.REG_CTX_IDX_CTX_IDX who) (F.REG_CTX_D0_CLASS.val (ctxD0 s who)) (F.REG_CTX_D0_LT_TGT.val (ctxD0 s who))
      (F.REG_CTX_D0_RES_IDX.val (ctxD0 s who)) = .ok)
    (hwin : who = 17 ∨ windowHolds s (2 ^ 40 + s.rd F.REG_CTX_IDX_CTX_IDX who) = false) :
    hookCtxCmd s who m = okH (ctxWrite s (s.rd F.REG_CTX_IDX_CTX_IDX who) (F.REG_CTX_D0_CLASS.val (ctxD0 s who))
      (F.REG_CTX_D0_LT_TGT.val (ctxD0 s who)) (F.REG_CTX_D0_RES_IDX.val (ctxD0 s who)) (F.REG_CTX_D0_ALLOC.val (ctxD0 s who))
      (F.REG_CTX_D0_MLAT_CLR.hit (ctxD0 s who))) := by
  have hfree : (decide (who ≤ 16) && windowHolds s (2 ^ 40 + s.rd F.REG_CTX_IDX_CTX_IDX who)) = false := by
    rcases hwin with rfl | hwin
    · rfl
    · rw [hwin, Bool.and_false]
  unfold hookCtxCmd
  simp only [hreach, hop, hcheck, hfree]
  rfl

end

/-! ## The write of REG_CTX_CMD -/

@[simp] theorem recordAcc_reg (s : State) (who : Nat) (wr : Bool) (off : Nat) (c : Code) (d : Nat) : (recordAcc s who wr off c d).reg = s.reg := by
  unfold recordAcc
  split <;> simp

/-- Recording an access changes no context. -/
@[simp] theorem recordAcc_ctx (s : State) (who : Nat) (wr : Bool) (off : Nat) (c : Code) (d k : Nat) :
    (recordAcc s who wr off c d).ctx k = s.ctx k := by
  rw [State.ctx, recordAcc_reg, State.ctx]

/-- A write that the register's own action answers with PRIVILEGE leaves what the action leaves. -/
theorem writeReg_privilege (s : State) (who : Nat) (org : Origin) (r : RegId) (i j v : Nat) (h : WriteOpen s who r i j v)
    (hhook : (writeHook s who r i j v).1 = .privilege) : writeReg s who org r i j v = (.done .privilege 0, (writeHook s who r i j v).2.2) := by
  obtain ⟨hmay, -⟩ := h
  unfold writeHook writtenWord at hhook ⊢
  unfold writeReg
  simp [hmay, hhook]

/-- A register row whose action answers PRIVILEGE: what the action leaves, and the record of the access. -/
theorem writeBy_privilege (s : State) (who : Nat) (r : RegId) (i j v : Nat) (hat : regAt (regOffset r i j) = some (r, i, j))
    (h : WriteReady s who r i j v) (hhook : (writeHook s who r i j v).1 = .privilege) :
    writeBy s who r i j v = recordAcc (writeHook s who r i j v).2.2 who true (regOffset r i j) .privilege 0 := by
  obtain ⟨hopen, hpending, hchecks⟩ := h
  rw [writeBy, access_write _ _ hopen hpending rfl, runWrite_done _ _ r i j .privilege 0 _ hat (writeReg_privilege s who .core r i j v hchecks hhook)]
  rfl

theorem exec_ctxRead (s : State) (who : Fin 18) (v : Word) :
    exec (.ctxRead who v) s = .next (writeBy s who.val .REG_CTX_CMD 0 0 (withBits v.toNat [(F.REG_CTX_CMD_OP, 1)])) := rfl

theorem exec_ctxWrite (s : State) (who : Fin 18) (v : Word) :
    exec (.ctxWrite who v) s = .next (writeBy s who.val .REG_CTX_CMD 0 0 (withBits v.toNat [(F.REG_CTX_CMD_OP, 2)])) := rfl

/-- The offset of REG_CTX_CMD names it. -/
theorem regAt_ctxCmd : regAt (regOffset .REG_CTX_CMD 0 0) = some (.REG_CTX_CMD, 0, 0) := by decide

/-- The action of a write of REG_CTX_CMD looks at the written word alone: `OP` is not stored. -/
theorem writeHook_ctxCmd (s : State) (who v : Nat) :
    writeHook s who .REG_CTX_CMD 0 0 v = hookCtxCmd s who (writtenWord s who .REG_CTX_CMD 0 v) := rfl

/-- `OP` reaches the action of REG_CTX_CMD as the command sets it. -/
theorem ctxCmd_op {s : State} {who v op : Nat} (h : CanWrite s who .REG_CTX_CMD 0 0 (withBits v [(F.REG_CTX_CMD_OP, op)]) [F.REG_CTX_CMD_OP]) :
    F.REG_CTX_CMD_OP.val (writtenWord s who .REG_CTX_CMD 0 (withBits v [(F.REG_CTX_CMD_OP, op)])) = op % 4 := by
  obtain ⟨-, hmay⟩ := h
  rw [writtenWord_val _ _ _ _ _ _ (List.mem_singleton.2 rfl) (hmay _ (List.mem_singleton.2 rfl)), val_withBits_one]
  rfl

/-- A write of REG_CTX_CMD that its action accepts leaves what the action leaves, and its record. -/
theorem writeBy_ctxCmd_ok {s t : State} {who v : Nat} (h : WriteReady s who .REG_CTX_CMD 0 0 v)
    (hhook : hookCtxCmd s who (writtenWord s who .REG_CTX_CMD 0 v) = okH t) :
    writeBy s who .REG_CTX_CMD 0 0 v = recordAcc t who true (regOffset .REG_CTX_CMD 0 0) .ok 0 := by
  rw [← writeHook_ctxCmd] at hhook
  rw [writeBy_ok _ _ _ _ _ _ regAt_ctxCmd h (by rw [hhook]; rfl) rfl, hhook]
  rfl

/-- A write of REG_CTX_CMD for a context out of the master's reach clears its window, and leaves its record. -/
theorem writeBy_ctxCmd_out_of_reach {s : State} {who v : Nat} (h : WriteReady s who .REG_CTX_CMD 0 0 v)
    (hreach : ctxReach s who (s.rd F.REG_CTX_IDX_CTX_IDX who) = false) :
    writeBy s who .REG_CTX_CMD 0 0 v = recordAcc (clearWindow s who) who true (regOffset .REG_CTX_CMD 0 0) .privilege 0 := by
  have hhook := (writeHook_ctxCmd s who v).trans (hookCtxCmd_out_of_reach hreach)
  rw [writeBy_privilege _ _ _ _ _ _ regAt_ctxCmd h (by rw [hhook]), hhook]

/-- A window's field reads the same after an access was recorded. -/
theorem recordAcc_window (s : State) (who : Fin 18) (wr : Bool) (off : Nat) (c : Code) (d : Nat) (f : Fld) (hf : f ∈ windowFlds) :
    (recordAcc s who.val wr off c d).rd f who.val = s.rd f who.val :=
  recordAcc_rd _ _ _ _ _ _ who.isLt _ _ _ (windowFlds_not_lasPlace who f hf)

/-- A Boolean fits a field of one bit. -/
theorem b2n_mod_two (x : Bool) : b2n x % 2 = b2n x := by cases x <;> rfl

/-- Settles O13: a READ in reach fills the window from the context, any command out of reach clears it, and an accepted WRITE stores the words of
REG_CTX_D0 in its one context; the record of the access touches neither a window nor a context. -/
theorem contextWindowCommands : Obligations.ContextWindowCommands := by
  unfold Obligations.ContextWindowCommands
  refine ⟨fun s who v h => ⟨fun hreach => ?_, fun hreach => ?_⟩, fun s who v h hreach hcheck hwin => ?_⟩
  · have hw := writeBy_ctxCmd_ok h.1 (hookCtxCmd_read hreach (ctxCmd_op h))
    have shows (f : Fld) (hf : f ∈ windowFlds) {x : Nat} hx :=
      (recordAcc_window _ who true (regOffset .REG_CTX_CMD 0 0) .ok 0 f hf).trans
        (ctxRead_rd s who (s.rd F.REG_CTX_IDX_CTX_IDX who.val) f x hx)
    refine ⟨_, by rw [exec_ctxRead, hw], recordAcc_res .., by simp, ?_, ?_, ?_, ?_, ?_, ?owned, ?_⟩
    case owned => exact (shows F.REG_CTX_D0_OWNED (by decide) (by simp)).trans (b2n_mod_two _)
    all_goals exact shows _ (by decide) (by simp)
  · have cleared (f : Fld) (hf : f ∈ windowFlds) :=
      (recordAcc_window _ who true (regOffset .REG_CTX_CMD 0 0) .privilege 0 f hf).trans (clearWindow_rd s who f hf)
    refine ⟨_, by rw [exec_ctxRead, writeBy_ctxCmd_out_of_reach h.1 hreach], recordAcc_res .., by simp, ?_, ?_, ?_⟩
    all_goals exact cleared _ (by decide)
  · have hw := writeBy_ctxCmd_ok h.1 (hookCtxCmd_write hreach (ctxCmd_op h) hcheck hwin)
    refine ⟨_, by rw [exec_ctxWrite, hw], recordAcc_res .., ?_⟩
    simp only [recordAcc_ctx, ctxWrite_ctx_same]
    exact ⟨trivial, trivial, trivial, trivial, fun hclr => if_pos hclr, fun k hk => ctxWrite_ctx_ne _ _ _ _ _ _ _ _ hk⟩

end Sys2Proof.Machine

/-! SUPPORT. Training of a lane group: what each of its steps leaves of the group, and when a group enters or leaves service. -/

namespace Sys2Proof.Machine

/-! ## Groups in a state -/

theorem State.modGrp_grp_ne (s : State) (g k : Nat) (f : Grp → Grp) (h : k ≠ g) : (s.modGrp g f).grp k = s.grp k := State.setGrp_grp_ne _ _ _ _ h

/-- Whether a lane is usable depends on its group's FAILED lanes alone. -/
theorem usable_congr {x y : Grp} (h : x.failed = y.failed) : usable x = usable y := by
  simp only [usable, h]

/-- What an operation on one group leaves: every other group, memory, the request engine and the queue. -/
theorem OnGroup.frame {g : Nat} {s t : State} (h : OnGroup g s t) :
    (∀ k, k ≠ g → t.grp k = s.grp k) ∧ t.mem = s.mem ∧ t.rqe = s.rqe ∧ t.pending = s.pending := by
  obtain ⟨⟨_, _, _, rfl⟩, hothers⟩ := h
  exact ⟨hothers, rfl, rfl, rfl⟩

/-! ## Entering and leaving service (R68) -/

/-- Nothing follows a training step that leaves its group short of ACTIVE, and out of service where it failed or is held in TEST. -/
theorem serviceChange_eq_self {s : State} {g : Nat} (before : GState) (hactive : (s.grp g).gst ≠ .active)
    (hstays : (s.grp g).inSvc = false ∨ ((s.grp g).gst ≠ .failed ∧ (s.grp g).gst ≠ .test)) : serviceChange g before s = s := by
  unfold serviceChange
  rw [if_neg fun h => hactive h.1, if_neg]
  rintro ⟨hgst, hin⟩
  rcases hstays with hout | ⟨hf, ht⟩
  · exact Bool.noConfusion (hout.symm.trans hin)
  · exact hgst.elim hf ht

/-- A group that leaves service is out of service. -/
theorem leaveService_inSvc (s : State) (g : Nat) (hg : g < 16) : ((leaveService s g).grp g).inSvc = false := by
  unfold leaveService
  extract_lets _ m t
  have hm : (t.grp g).inSvc = false := by
    rw [(((fixHome_reach m false).trans (fixHome_reach _ true)).group g).1, State.modGrp_grp_same]
  split
  · exact ((wholeRetrain_spec _ _).2 g hg).2
  · exact (((autoBalance_reach t).trans (drain_reach _).toLink).group g).1.trans hm

/-- A group in service whose fast path failed is out of service. -/
theorem serviceChange_failed {s : State} {g : Nat} (before : GState) (hg : g < 16) (hgst : (s.grp g).gst = .failed) (hin : (s.grp g).inSvc = true) :
    ((serviceChange g before s).grp g).inSvc = false := by
  unfold serviceChange
  rw [if_neg (by rw [hgst]; exact fun h => GState.noConfusion h.1), if_pos ⟨.inl hgst, hin⟩]
  exact leaveService_inSvc _ _ hg

/-- A group that trained to ACTIVE and is out of service enters it, and is ACTIVE there. -/
theorem enterService_grp {s : State} {g : Nat} (hgst : (s.grp g).gst = .active) (hout : (s.grp g).inSvc = false) :
    ((enterService g s).grp g).gst = .active ∧ ((enterService g s).grp g).inSvc = true := by
  unfold enterService
  rw [if_pos ⟨hgst, by simp [hout]⟩]
  extract_lets y u v w
  have hu : (u.grp g).gst = .active ∧ (u.grp g).inSvc = true := by
    simp only [u, y, State.setGrp_grp_same, freshStream, hgst, and_self]
  clear_value u
  have hw : LinkReach u w := ((fixHome_reach u false).trans (fixHome_reach _ true)).trans (.ite (sendConfig_reach v) (.refl v))
  have h : LinkReach u (autoBalance (drain w)) := hw.trans ((drain_reach w).toLink.trans (autoBalance_reach _))
  exact ⟨(h.gst g (by rw [hu.1]; decide)).trans hu.1, (h.group g).1.trans hu.2⟩

/-- The same, as the end of a training step. -/
theorem serviceChange_active {s : State} {g : Nat} {before : GState} (hbefore : before ≠ .active) (hgst : (s.grp g).gst = .active)
    (hout : (s.grp g).inSvc = false) :
    ((serviceChange g before s).grp g).gst = .active ∧ ((serviceChange g before s).grp g).inSvc = true := by
  unfold serviceChange
  simp only [hgst, hout, hbefore, ne_eq, not_false_eq_true, and_self, if_true, Bool.false_eq_true, if_false]
  exact enterService_grp hgst hout

/-! ## OFF, DETECT and CLOCK (Table 2.3) -/

/-- OFF to DETECT, first attempt. -/
theorem groupPowerUp_of_off {s : State} {g : Nat} (hoff : (s.grp g).gst = .off) (hclk : s.link.refclk = true)
    (hpow : s.pck.pow = .run ∨ s.pck.pow = .idle ∨ s.pck.pow = .entering) :
    groupPowerUp g s = (groupDetect s g).modGrp g fun x => { x with attempt := 1 } := by
  unfold groupPowerUp
  rcases hpow with hpow | hpow | hpow <;> simp [hoff, hclk, hpow]

/-- A group that powers up does nothing to any other. -/
theorem groupPowerUp_on (s : State) (g : Nat) : OnGroup g s (groupPowerUp g s) := by
  unfold groupPowerUp
  exact .ite ((groupDetect_on s g).trans (State.modGrp_on ..)) (.refl g s)

/-- A group sent to DETECT is in DETECT, out of service, and keeps its attempts. -/
theorem groupDetect_detect (s : State) (g : Nat) : ((groupDetect s g).grp g).gst = .detect ∧ ((groupDetect s g).grp g).inSvc = false ∧
    ((groupDetect s g).grp g).attempt = (s.grp g).attempt := by
  obtain ⟨_, _, _, hgrp⟩ := groupDetect_grp s g
  rw [hgrp]
  exact ⟨rfl, rfl, rfl⟩

/-- A group that powers up is in DETECT, in its first attempt. -/
theorem groupPowerUp_grp {s : State} {g : Nat} (hoff : (s.grp g).gst = .off) (hclk : s.link.refclk = true)
    (hpow : s.pck.pow = .run ∨ s.pck.pow = .idle ∨ s.pck.pow = .entering) :
    ((groupPowerUp g s).grp g).gst = .detect ∧ ((groupPowerUp g s).grp g).attempt = 1 := by
  simp only [groupPowerUp_of_off hoff hclk hpow, State.modGrp_grp_same, (groupDetect_detect s g).1, and_self]

/-- A group that fails training is FAILED, with its lanes' marks and its place in service as they were. -/
theorem groupFailed_failed (s : State) (g : Nat) : ((groupFailed s g).grp g).gst = .failed ∧
    ((groupFailed s g).grp g).failed = (s.grp g).failed ∧ ((groupFailed s g).grp g).inSvc = (s.grp g).inSvc := by
  obtain ⟨_, _, _, hgrp⟩ := groupFailed_grp s g
  rw [hgrp]
  exact ⟨rfl, rfl, rfl⟩

/-- A group with sixteen usable lanes goes on as `next` says, and one with fewer fails (R34). -/
def sixteenOrFail (s : State) (g : Nat) (next : Grp → Grp) : State :=
  if popCount (usable (s.grp g)) 17 ≥ 16 then s.modGrp g next else groupFailed s g

theorem sixteenOrFail_on (s : State) (g : Nat) (next : Grp → Grp) : OnGroup g s (sixteenOrFail s g next) :=
  .ite (State.modGrp_on ..) (groupFailed_on ..)

/-- The lanes that are FAILED stay so, and their count decides. -/
theorem sixteenOrFail_grp (s : State) (g : Nat) {next : Grp → Grp} (hnext : (next (s.grp g)).failed = (s.grp g).failed) :
    ((sixteenOrFail s g next).grp g).failed = (s.grp g).failed ∧
    (16 ≤ popCount (usable ((sixteenOrFail s g next).grp g)) 17 → (sixteenOrFail s g next).grp g = next (s.grp g)) ∧
    (popCount (usable ((sixteenOrFail s g next).grp g)) 17 < 16 →
      ((sixteenOrFail s g next).grp g).gst = .failed ∧ ((sixteenOrFail s g next).grp g).inSvc = (s.grp g).inSvc) := by
  by_cases hcount : popCount (usable (s.grp g)) 17 ≥ 16
  · have hgrp : (sixteenOrFail s g next).grp g = next (s.grp g) := by rw [sixteenOrFail, if_pos hcount, State.modGrp_grp_same]
    rw [hgrp, usable_congr hnext]
    exact ⟨hnext, fun _ => rfl, fun hfew => absurd hcount (by omega)⟩
  · have hrun : sixteenOrFail s g next = groupFailed s g := if_neg hcount
    obtain ⟨hgst, hfailed, hsvc⟩ := groupFailed_failed s g
    rw [hrun, usable_congr hfailed]
    exact ⟨hfailed, fun henough => absurd henough hcount, fun _ => ⟨hgst, hsvc⟩⟩

/-- A group as sensing leaves it: FAILED are the lanes that the BIST marked and those without termination (Table 2.3). -/
def sensedGrp (x : Grp) (sensed : Nat) : Grp := { x with failed := Nat.lor x.bad (allLanes - sensed % 2 ^ 17) }

/-- DETECT ends: with sixteen usable lanes in CLOCK. -/
theorem groupDetectEnd_of_detect {s : State} {g : Nat} (sensed : Nat) (hgst : (s.grp g).gst = .detect) :
    groupDetectEnd g sensed s = sixteenOrFail (s.modGrp g fun x => sensedGrp x sensed) g fun x => { x with gst := .clock } :=
  if_neg (not_not.2 hgst)

/-- CLOCK ends: what is sent and a change of the group alone. With lock and burst the group goes to EQ, slot 0, or on the fast path to ALIGN before
slot 17; otherwise it fails. -/
theorem groupClockEnd_spec {s : State} {g : Nat} (locked burst : Bool) (hgst : (s.grp g).gst = .clock) :
    (∃ out, OnGroup g { s with out := out } (groupClockEnd g locked burst s)) ∧
    ((groupClockEnd g locked burst s).grp g).inSvc = (s.grp g).inSvc ∧
    ((groupClockEnd g locked burst s).grp g).gst = (if locked && burst then (if (s.grp g).fast then .align else .eq) else .failed) ∧
    ((locked && burst) = true → ((groupClockEnd g locked burst s).grp g).slot = (if (s.grp g).fast then 16 else 0) ∧
      ((groupClockEnd g locked burst s).grp g).pll = true) := by
  unfold groupClockEnd
  extract_lets x u
  obtain ⟨out, hu⟩ : ∃ out, u = { s with out := out } := by
    cases locked
    · exact ⟨s.out, rfl⟩
    · exact ⟨_, rfl⟩
  have hgrp : u.grp g = x := by rw [hu]; rfl
  rw [if_neg (not_not.2 hgst)]
  clear_value u
  by_cases hok : (locked && burst) = true
  · rw [if_pos hok, if_pos hok]
    by_cases hfast : x.fast = true
    · have hslot : (s.grp g).fast = true := hfast
      simp only [if_pos hfast, if_pos hslot, State.modGrp_grp_same, hgrp, and_self, implies_true, and_true]
      exact ⟨⟨out, hu ▸ State.modGrp_on ..⟩, rfl⟩
    · have hslot : ¬ (s.grp g).fast = true := hfast
      simp only [if_neg hfast, if_neg hslot, State.modGrp_grp_same, hgrp, and_self, implies_true, and_true]
      exact ⟨⟨out, hu ▸ State.modGrp_on ..⟩, rfl⟩
  · obtain ⟨hfgst, -, hfin⟩ := groupFailed_failed u g
    rw [if_neg hok, if_neg hok]
    exact ⟨⟨out, hu ▸ groupFailed_on ..⟩, hfin.trans (by rw [hgrp]), hfgst, fun h => absurd h hok⟩

/-! ## Attempts (R37) -/

/-- A group that failed with attempts left goes back to DETECT, and the attempt is counted. -/
theorem groupTrainFail_retry {s : State} {g : Nat} (hgst : (s.grp g).gst = .failed) (hstep : s.pck.step = 8 ∨ (s.grp g).attempt ≠ 0)
    (hleft : (s.grp g).attempt < 3) :
    groupTrainFail g s = (groupDetect s g).modGrp g fun y => { y with attempt := (s.grp g).attempt + 1 } :=
  if_pos ⟨hgst, hleft, hstep⟩

/-- A group without attempts left stays FAILED. -/
theorem groupTrainFail_spent {s : State} {g : Nat} (hspent : 3 ≤ (s.grp g).attempt) : groupTrainFail g s = s :=
  if_neg fun h => absurd h.2.1 (by omega)

theorem groupTrainFail_on (s : State) (g : Nat) : OnGroup g s (groupTrainFail g s) :=
  .ite ((groupDetect_on s g).trans (State.modGrp_on ..)) (.refl g s)

/-! ## The commands -/

theorem exec_groupPowerUp (g : Fin 16) (s : State) : exec (.groupPowerUp g) s = .next (groupPowerUp g.val s) := rfl

theorem exec_groupDetectEnd (g : Fin 16) (sensed : BitVec 17) (s : State) :
    exec (.groupDetectEnd g sensed) s = .next (serviceChange g.val (s.grp g.val).gst (groupDetectEnd g.val sensed.toNat s)) := rfl

theorem exec_groupClockEnd (g : Fin 16) (locked burst : Bool) (s : State) :
    exec (.groupClockEnd g locked burst) s = .next (serviceChange g.val (s.grp g.val).gst (groupClockEnd g.val locked burst s)) := rfl

theorem exec_groupTrainFail (g : Fin 16) (s : State) : exec (.groupTrainFail g) s = .next (groupTrainFail g.val s) := rfl

/-- Settles O3: each step changes its own group alone; a group that falls short of ACTIVE out of service has no further effect, and one in service whose
fast path fails leaves it. -/
theorem trainingStartsAndSenses : Obligations.TrainingStartsAndSenses := by
  unfold Obligations.TrainingStartsAndSenses
  refine ⟨fun s g hoff hclk hpow => ?_, fun s g sensed hgst hout => ?_, fun s g locked burst hgst hin hfail => ?_,
    fun s g locked burst hgst hserved => ?_, fun s g hgst hstep => ?_⟩
  · obtain ⟨hdetect, hattempt⟩ := groupPowerUp_grp hoff hclk hpow
    exact ⟨_, exec_groupPowerUp g s, hdetect, hattempt, (groupPowerUp_on s g).frame⟩
  · have hrun := groupDetectEnd_of_detect sensed.toNat hgst
    obtain ⟨hfailed, hgo, hstop⟩ := sixteenOrFail_grp (s.modGrp g.val fun x => sensedGrp x sensed.toNat) g.val
      (next := fun x => { x with gst := .clock }) rfl
    rw [← hrun, State.modGrp_grp_same] at hfailed hgo hstop
    have hdone : ((groupDetectEnd g.val sensed.toNat s).grp g.val).gst =
        (if 16 ≤ popCount (usable ((groupDetectEnd g.val sensed.toNat s).grp g.val)) 17 then .clock else .failed) := by
      split
      next henough => exact congrArg Grp.gst (hgo henough)
      next hfew => exact (hstop (by omega)).1
    have hsvc : ((groupDetectEnd g.val sensed.toNat s).grp g.val).inSvc = false := by
      rcases Nat.lt_or_ge (popCount (usable ((groupDetectEnd g.val sensed.toNat s).grp g.val)) 17) 16 with hfew | henough
      · exact (hstop hfew).2.trans hout
      · exact (congrArg Grp.inSvc (hgo henough)).trans hout
    have hself := serviceChange_eq_self (s.grp g.val).gst (by rw [hdone]; split <;> decide) (.inl hsvc)
    refine ⟨_, by rw [exec_groupDetectEnd, hself], ?_, hdone, ?_⟩
    · rw [hfailed, sensedGrp, Nat.mod_eq_of_lt sensed.isLt]
    · rw [hrun]
      exact ((State.modGrp_on ..).trans (sixteenOrFail_on ..)).frame
  · obtain ⟨-, hsvc, hdone, -⟩ := groupClockEnd_spec locked burst hgst
    rw [hfail] at hdone
    refine ⟨_, exec_groupClockEnd g locked burst s, serviceChange_failed _ g.isLt hdone (hsvc.trans hin), ?_⟩
    exact (exec_keeps (.groupClockEnd g locked burst) (exec_groupClockEnd g locked burst s)).1
  · obtain ⟨⟨out, hon⟩, hsvc, hdone, hok⟩ := groupClockEnd_spec locked burst hgst
    have hself := serviceChange_eq_self (s := groupClockEnd g.val locked burst s) (s.grp g.val).gst
      (by rw [hdone]; split <;> [split <;> decide; decide])
      (hserved.imp hsvc.trans fun hpass => by rw [hdone, if_pos hpass]; split <;> decide)
    exact ⟨_, by rw [exec_groupClockEnd, hself], hdone, hok, hon.frame⟩
  · refine ⟨_, exec_groupTrainFail g s, fun hleft => ?_, groupTrainFail_spent, (groupTrainFail_on s g).frame.1⟩
    simp only [groupTrainFail_retry hgst hstep hleft, State.modGrp_grp_same, (groupDetect_detect s g.val).1, and_self]

end Sys2Proof.Machine


/-! SUPPORT. The training slots of Table 2.4, and the CONFIRM words that end training. -/

namespace Sys2Proof.Machine

/-! ## Slots (Tables 2.3 and 2.4) -/

/-- What the stack sends in a slot changes no group. -/
@[simp] theorem slotSend_grp (s : State) (g n k : Nat) : (slotSend s g n).grp k = s.grp k := by
  unfold slotSend
  dsimp only
  split
  · split <;> rfl
  · split <;> rfl
  · split <;> rfl
  · rfl

/-- The stream on an idle spare changes no group. -/
@[simp] theorem spareStream_grp (s : State) (g k : Nat) : (spareStream s g).grp k = s.grp k := by
  unfold spareStream
  dsimp only
  split
  · split <;> rfl
  · rfl

/-- Marking the lanes outside `keep` FAILED. -/
def keepOnly (keep : Nat) (x : Grp) : Grp :=
  { x with failed := maskOf ((onesOf allLanes 17).filter fun l => bit x.failed l || !bit keep l) }

/-- Group `g` with one more slot counted. -/
def countSlot (s : State) (g : Nat) : State := s.modGrp g fun x => { x with slot := (s.grp g).slot + 1 }

@[simp] theorem countSlot_grp (s : State) (g : Nat) : (countSlot s g).grp g = { s.grp g with slot := (s.grp g).slot + 1 } := State.modGrp_grp_same ..

theorem countSlot_on (s : State) (g : Nat) : OnGroup g s (countSlot s g) := State.modGrp_on ..

/-- The end of a slot leaves its groups as the slot's task does. -/
theorem trainingSlotEnd_grp (g k : Nat) (r : SlotResult) (s : State) :
    (trainingSlotEnd g r s).grp k = (slotDone (countSlot s g) g ((s.grp g).slot + 1) r).grp k := slotSend_grp ..

/-- A slot of EQ before the last scores lanes, and leaves its group in EQ with its slot count. -/
theorem slotDone_scores {s : State} {g n : Nat} (r : SlotResult) (hgst : (s.grp g).gst = .eq) (hn : n ≠ 16) :
    OnGroup g s (slotDone s g n r) ∧ ((slotDone s g n r).grp g).gst = .eq ∧ ((slotDone s g n r).grp g).slot = (s.grp g).slot := by
  unfold slotDone
  simp only [hgst]
  by_cases hrx : n ≤ 8
  · simp only [if_pos hrx, State.modGrp_grp_same, storeEq, hgst, and_self, and_true]
    exact State.modGrp_on ..
  · simp only [if_neg hrx, if_neg hn, State.modGrp_grp_same, hgst, and_self, and_true]
    exact State.modGrp_on ..

/-- Slot 16 ends EQ: the group goes to ALIGN with `EQ_DONE` on sixteen lanes scored in both directions, or fails. -/
theorem slotDone_eq_ends {s : State} {g : Nat} (r : SlotResult) (hgst : (s.grp g).gst = .eq) :
    ∃ (t : State) (keep : Nat), slotDone s g 16 r = sixteenOrFail (t.modGrp g (keepOnly keep)) g (fun x => { x with gst := .align, eqDone := true }) ∧
      (t.grp g).inSvc = (s.grp g).inSvc := by
  unfold slotDone
  simp only [hgst]
  exact ⟨_, _, rfl, by simp only [State.modGrp_grp_same]⟩

/-! ## CONFIRM (R36) -/

/-- A group that becomes ACTIVE with `TEST` clear is ACTIVE, with its place in service as it was. -/
theorem activate_grp {s : State} {g : Nat} (htest : s.on F.HLP_CTL_TEST g = false) :
    ((activate s g).grp g).gst = .active ∧ ((activate s g).grp g).inSvc = (s.grp g).inSvc := by
  simp only [activate, spareStream_grp, State.modGrp_grp_same, mapLanes, htest, Bool.false_eq_true, if_false, and_self]

/-- CONFIRM completes with the partner's map accepted and sixteen lanes usable under both maps. -/
theorem confirmDone_accepted {s : State} {g asked map : Nat} (hword : (s.grp g).partner = some (asked, map))
    (hlanes : 16 ≤ popCount (usable (keepOnly map (s.grp g))) 17) :
    confirmDone s g = activate (applyPresets (s.modGrp g (keepOnly map)) g asked) g := by
  unfold confirmDone
  simp only [hword]
  refine if_pos ?_
  rw [State.modGrp_grp_same]
  exact hlanes

/-- CONFIRM fails without a word accepted. -/
theorem confirmDone_without_word {s : State} {g : Nat} (hword : (s.grp g).partner = none) : confirmDone s g = groupFailed s g := by
  unfold confirmDone
  simp only [hword]

/-- Slot 20 decides in CONFIRM. -/
theorem slotDone_confirm {s : State} {g n : Nat} (r : SlotResult) (hgst : (s.grp g).gst = .confirm) (hn : 20 ≤ n) :
    slotDone s g n r = confirmDone s g := by
  unfold slotDone
  simp only [hgst]
  exact if_pos hn

/-- A good CONFIRM word on sixteen lanes is recorded. -/
theorem confirmWordAccept_good {s : State} {g word on : Nat} (hgst : (s.grp g).gst = .confirm) (hmark : bits word 48 16 = 0xC04F)
    (hzero : bits word 21 27 = 0) (hlanes : 16 ≤ popCount on 17) :
    confirmWordAccept g word on s =
      s.modGrp g fun x => { x with partner := some (bits word 0 4, maskOf ((onesOf on 17).filter (bit (bits word 4 17)))) } :=
  if_pos ⟨hgst, hmark, hzero, hlanes⟩

/-- Another changes nothing. -/
theorem confirmWordAccept_bad {s : State} {g word on : Nat}
    (hbad : bits word 48 16 ≠ 0xC04F ∨ bits word 21 27 ≠ 0 ∨ popCount on 17 < 16) : confirmWordAccept g word on s = s := by
  refine if_neg ?_
  rintro ⟨-, hmark, hzero, hlanes⟩
  rcases hbad with h | h | h
  · exact h hmark
  · exact h hzero
  · omega

/-! ## The commands -/

theorem exec_trainingSlotEnd (g : Fin 16) (r : SlotResult) (s : State) :
    exec (.trainingSlotEnd g r) s = .next (serviceChange g.val (s.grp g.val).gst (trainingSlotEnd g.val r s)) := rfl

theorem exec_confirmWordAccept (g : Fin 16) (word : BitVec 64) (on : BitVec 17) (s : State) :
    exec (.confirmWordAccept g word on) s = .next (confirmWordAccept g.val word.toNat on.toNat s) := rfl

/-- Settles O4: a slot before the last of EQ leaves its group in EQ; sixteen usable lanes decide slot 16 and, with the partner's word, slot 20; a group that
becomes ACTIVE enters service as it ends its training. -/
theorem trainingSlotsLeadToService : Obligations.TrainingSlotsLeadToService := by
  unfold Obligations.TrainingSlotsLeadToService
  refine ⟨fun s g r hgst hslot => ?_, fun s g r hgst hslot hout => ?_, fun s g r asked map hgst hslot hword hout htest hlanes => ?_,
    fun s g r hgst hslot hword hout => ?_, fun s g word on hgst hmark hzero hlanes => ?_, fun s g word on hgst hbad => ?_⟩
  · obtain ⟨hon, hdone, hcount⟩ := slotDone_scores (s := countSlot s g.val) (g := g.val) (n := (s.grp g.val).slot + 1) r
      (by rw [countSlot_grp]; exact hgst) (by omega)
    rw [← trainingSlotEnd_grp] at hdone hcount
    have hself := serviceChange_eq_self (s.grp g.val).gst (by rw [hdone]; decide) (.inr (by rw [hdone]; decide))
    refine ⟨_, by rw [exec_trainingSlotEnd, hself], hcount.trans (by rw [countSlot_grp]), hdone, fun k hk => ?_⟩
    rw [trainingSlotEnd_grp]
    exact ((countSlot_on s g.val).trans hon).2 k hk
  · obtain ⟨t, keep, hrun, hsvc⟩ := slotDone_eq_ends (s := countSlot s g.val) (g := g.val) r (by rw [countSlot_grp]; exact hgst)
    obtain ⟨-, hgo, hstop⟩ := sixteenOrFail_grp (t.modGrp g.val (keepOnly keep)) g.val
      (next := fun x => { x with gst := .align, eqDone := true }) rfl
    have hgrp := trainingSlotEnd_grp g.val g.val r s
    rw [hslot, hrun] at hgrp
    rw [countSlot_grp] at hsvc
    rw [← hgrp, State.modGrp_grp_same] at hgo hstop
    have hself : serviceChange g.val (s.grp g.val).gst (trainingSlotEnd g.val r s) = trainingSlotEnd g.val r s := by
      rcases Nat.lt_or_ge (popCount (usable ((trainingSlotEnd g.val r s).grp g.val)) 17) 16 with hfew | henough
      · obtain ⟨hfailed, hkept⟩ := hstop hfew
        exact serviceChange_eq_self _ (by rw [hfailed]; decide) (.inl (hkept.trans (hsvc.trans hout)))
      · have halign : ((trainingSlotEnd g.val r s).grp g.val).gst = .align := congrArg Grp.gst (hgo henough)
        exact serviceChange_eq_self _ (by rw [halign]; decide) (.inr (by rw [halign]; decide))
    refine ⟨_, by rw [exec_trainingSlotEnd, hself], fun henough => ?_, fun hfew => (hstop hfew).1⟩
    exact ⟨congrArg Grp.gst (hgo henough), congrArg Grp.eqDone (hgo henough)⟩
  · have hrun : slotDone (countSlot s g.val) g.val ((s.grp g.val).slot + 1) r =
        activate (applyPresets ((countSlot s g.val).modGrp g.val (keepOnly map)) g.val asked) g.val := by
      rw [slotDone_confirm r (by rw [countSlot_grp]; exact hgst) (by omega),
        confirmDone_accepted (asked := asked) (map := map) (by rw [countSlot_grp]; exact hword) (by rw [countSlot_grp]; exact hlanes)]
    have htest' : (applyPresets ((countSlot s g.val).modGrp g.val (keepOnly map)) g.val asked).on F.HLP_CTL_TEST g.val = false := by
      simp only [State.on, applyPresets, countSlot, State.modGrp_rd, ← htest]
    obtain ⟨hactive, hsvc⟩ := activate_grp (s := applyPresets ((countSlot s g.val).modGrp g.val (keepOnly map)) g.val asked) (g := g.val) htest'
    rw [← hrun, ← trainingSlotEnd_grp] at hactive hsvc
    have hout' : ((trainingSlotEnd g.val r s).grp g.val).inSvc = false := by
      rw [hsvc]
      simp only [applyPresets, State.modGrp_grp_same, keepOnly, countSlot_grp, hout]
    exact ⟨_, exec_trainingSlotEnd g r s, serviceChange_active (by rw [hgst]; decide) hactive hout'⟩
  · have hrun : slotDone (countSlot s g.val) g.val ((s.grp g.val).slot + 1) r = groupFailed (countSlot s g.val) g.val := by
      rw [slotDone_confirm r (by rw [countSlot_grp]; exact hgst) (by omega), confirmDone_without_word (by rw [countSlot_grp]; exact hword)]
    obtain ⟨hfailed, -, hsvc⟩ := groupFailed_failed (countSlot s g.val) g.val
    rw [← hrun, ← trainingSlotEnd_grp] at hfailed hsvc
    have hself := serviceChange_eq_self (s.grp g.val).gst (by rw [hfailed]; decide) (.inl (hsvc.trans (by rw [countSlot_grp]; exact hout)))
    refine ⟨_, by rw [exec_trainingSlotEnd, hself], hfailed, fun k hk => ?_⟩
    rw [trainingSlotEnd_grp, hrun]
    exact ((countSlot_on s g.val).trans (groupFailed_on ..)).2 k hk
  · refine ⟨_, by rw [exec_confirmWordAccept, confirmWordAccept_good hgst hmark hzero hlanes], ?_⟩
    simp only [State.modGrp_grp_same, hgst, and_self]
  · rw [exec_confirmWordAccept, confirmWordAccept_bad hbad]

end Sys2Proof.Machine


/-! SUPPORT. The power states of a group's lanes: QUIET, keep-alive bursts, the wake preamble, and the wake signal in DEEP (R41, R42). -/

namespace Sys2Proof.Machine

/-! ## QUIET (R41) -/

/-- No bit of a flit is inverted where no injection runs. -/
theorem flipsAt_of_no_injection {s : State} {g : Nat} (t : Nat) (hact : (s.grp g).injAct = false) (hburst : (s.grp g).injBurst = 0) :
    flipsAt s g t = [] := by
  simp [flipsAt, hact, hburst]

/-- A group that went QUIET, its transmitter busy until `txAt`. -/
def quietGrp (txAt : Nat) (x : Grp) : Grp := { x with gst := .quiet, txAt := txAt }

/-- The flits and the state with which a group enters QUIET. -/
theorem quietEntry_of_active {s : State} {g : Nat} (hgst : (s.grp g).gst = .active) (hin : (s.grp g).inSvc = true) (hdir : (s.grp g).dir = true)
    (hen : s.on F.HLP_CTL_QUIET_EN g = true) :
    ∃ txAt flips, quietEntry g s = { s.modGrp g (quietGrp txAt) with
        out := s.out ++ [Out.idle g (s.rd F.HLP_CTL_QUIET_DLY g), Out.flit g (s.grp g).txNext 4 [] flips] } ∧
      ((s.grp g).injAct = false → (s.grp g).injBurst = 0 → flips = []) := by
  unfold quietEntry
  rw [if_pos ⟨hgst, hin, hdir, hen⟩]
  exact ⟨_, _, rfl, flipsAt_of_no_injection _⟩

/-- A wake preamble makes a QUIET group on which the stack receives ACTIVE. -/
theorem wakePreamble_of_quiet {s : State} {g : Nat} (hgst : (s.grp g).gst = .quiet) (hdir : (s.grp g).dir = false) :
    wakePreamble g s = s.modGrp g fun x => { x with gst := .active } := if_pos ⟨hgst, by simp [hdir]⟩

/-- A keep-alive burst locks the clock recovery of a QUIET group on which the stack receives. -/
theorem keepAliveReceive_of_quiet {s : State} {g : Nat} (hgst : (s.grp g).gst = .quiet) (hdir : (s.grp g).dir = false) :
    keepAliveReceive g s = s.modGrp g fun x => { x with locks := usable x } := if_pos ⟨hgst, by simp [hdir]⟩

/-- The stack's keep-alive burst. -/
theorem keepAlive_of_quiet {s : State} {g : Nat} (hgst : (s.grp g).gst = .quiet) (hdir : (s.grp g).dir = true) :
    keepAlive g s = { s with out := s.out ++ [Out.square g] } := if_pos ⟨hgst, hdir⟩

/-! ## DEEP (R42) -/

/-- A wake cause is noted and changes nothing else. -/
theorem wakeCause_eq (c : Nat) (s : State) : ∃ wake, wakeCause c s = { s with pck.wake := wake } := by
  unfold wakeCause
  dsimp only
  split
  · exact ⟨_, rfl⟩
  · exact ⟨s.pck.wake, rfl⟩

/-- A group's part of the wake: from DEEP to CLOCK on the fast path, another group as it was. -/
def wakeGrp (s : State) (g : Nat) : State :=
  if (s.grp g).gst = .deep then s.modGrp g fun x => { x with gst := .clock, fast := true, slot := 16, aligned := 0, partner := none } else s

theorem wakeGrp_on (s : State) (g : Nat) : OnGroup g s (wakeGrp s g) := .ite (State.modGrp_on ..) (.refl g s)

theorem wakeGrp_grp {s : State} {g : Nat} (hdeep : (s.grp g).gst = .deep) :
    ((wakeGrp s g).grp g).gst = .clock ∧ ((wakeGrp s g).grp g).fast = true := by
  simp only [wakeGrp, if_pos hdeep, State.modGrp_grp_same, and_self]

/-- The wake signal takes every group in DEEP to CLOCK on the fast path. -/
theorem deepWake_spec (s : State) : OnGroups s (deepWake s) ∧
    ∀ g, g < 16 → (s.grp g).gst = .deep → ((deepWake s).grp g).gst = .clock ∧ ((deepWake s).grp g).fast = true := by
  obtain ⟨hon, hgrps, -⟩ := groups_fold_from wakeGrp wakeGrp_on (fun _ x y => x.gst = .deep → y.gst = .clock ∧ y.fast = true)
    (fun _ _ => wakeGrp_grp) 16 s
  exact ⟨hon, hgrps⟩

/-- The wake signal in SLEEP, on a lane where the stack listens. -/
theorem wakeDetected_in_sleep {s : State} (hpow : s.pck.pow = .sleep) (hlane : (listenLane s).isSome = true) :
    wakeDetected s = deepWake (wakeCause 1 s) := by
  unfold wakeDetected
  rw [if_neg (by simpa using Option.isSome_iff_ne_none.1 hlane), hpow]

/-- A wake signal where the stack does not listen. -/
theorem wakeDetected_unheard {s : State} (hlane : listenLane s = none) : wakeDetected s = s := if_pos (by rw [hlane]; rfl)

/-! ## The commands -/

theorem exec_quietEntry (g : Fin 16) (s : State) : exec (.quietEntry g) s = .next (quietEntry g.val s) := rfl

theorem exec_keepAliveBurst (g : Fin 16) (s : State) : exec (.keepAliveBurst g) s = .next (keepAlive g.val s) := rfl

theorem exec_wakePreambleReceive (g : Fin 16) (s : State) : exec (.wakePreambleReceive g) s = .next (wakePreamble g.val s) := rfl

theorem exec_keepAliveReceive (g : Fin 16) (s : State) : exec (.keepAliveReceive g) s = .next (keepAliveReceive g.val s) := rfl

theorem exec_deepWakeDetect (s : State) : exec .deepWakeDetect s = .next (wakeDetected s) := rfl

/-- Settles O5: each of the four steps of QUIET is a change of its one group, and what it sends; the wake signal acts on each group that is in DEEP. -/
theorem quietAndDeepFollowTheLanePowerStates : Obligations.QuietAndDeepFollowTheLanePowerStates := by
  unfold Obligations.QuietAndDeepFollowTheLanePowerStates
  refine ⟨fun s g hgst hin hdir hen => ?_, fun s g hgst hdir => ?_, fun s g hgst hdir => ?_, fun s g hgst hdir => ?_,
    fun s hpow hlane => ?_, fun s hlane => ?_⟩
  · obtain ⟨txAt, flips, hrun, hflips⟩ := quietEntry_of_active hgst hin hdir hen
    refine ⟨_, flips, exec_quietEntry g s, ?_⟩
    rw [hrun]
    exact ⟨congrArg Grp.gst (State.modGrp_grp_same ..), rfl, hflips, rfl, rfl, fun k hk => State.modGrp_grp_ne s g.val k (quietGrp txAt) hk⟩
  · rw [exec_keepAliveBurst, keepAlive_of_quiet hgst hdir]
  · refine ⟨_, exec_wakePreambleReceive g s, ?_⟩
    rw [wakePreamble_of_quiet hgst hdir, State.modGrp_grp_same]
    exact ⟨rfl, rfl, rfl, rfl, fun k hk => State.modGrp_grp_ne _ _ _ _ hk⟩
  · refine ⟨_, exec_keepAliveReceive g s, ?_⟩
    rw [keepAliveReceive_of_quiet hgst hdir, State.modGrp_grp_same]
    exact ⟨hgst, rfl, rfl, rfl, rfl, fun k hk => State.modGrp_grp_ne _ _ _ _ hk⟩
  · obtain ⟨wake, hwake⟩ := wakeCause_eq 1 s
    obtain ⟨⟨_, _, _, hframe⟩, hgrps⟩ := deepWake_spec (wakeCause 1 s)
    refine ⟨_, exec_deepWakeDetect s, ?_⟩
    rw [wakeDetected_in_sleep hpow hlane]
    exact ⟨by rw [hframe, hwake], fun k hdeep => hgrps k.val k.isLt (by rw [hwake]; exact hdeep)⟩
  · rw [exec_deepWakeDetect, wakeDetected_unheard hlane]

end Sys2Proof.Machine


/-! SUPPORT. Sparing (R39, R71): the remap of a group, and what becomes of its lanes when one of them, or its spare, fails. -/

namespace Sys2Proof.Machine

/-! ## Operations that touch no lane -/

/-- A raise changes no group. -/
theorem RaiseReach.grp {s t : State} (h : RaiseReach s t) (k : Nat) : t.grp k = s.grp k := by
  obtain ⟨_, _, _, _, _, rfl, -⟩ := h
  rfl

@[simp] theorem State.raise_grp (s : State) (src : Nat) (v : Sev) (syn : List Nat) (k : Nat) : (s.raise src v syn).grp k = s.grp k :=
  (s.raise_reach src v syn).grp k

@[simp] theorem State.raise_mem (s : State) (src : Nat) (v : Sev) (syn : List Nat) : (s.raise src v syn).mem = s.mem := by
  obtain ⟨_, _, _, _, _, h, -⟩ := s.raise_reach src v syn
  rw [h]

theorem State.turn_grp (s : State) (u : Option Turn) (k : Nat) : State.grp { s with link.turn := u } k = s.grp k := rfl

/-- A step of a turn changes no group. -/
@[simp] theorem ite_turn_grp (s : State) (c : Prop) [Decidable c] (u : Option Turn) (k : Nat) :
    (if c then { s with link.turn := u } else s).grp k = s.grp k := by
  split <;> rfl

/-- Ending tests and injection leaves a group's lanes and its place in service. -/
theorem Tested.same {x y : Grp} (h : Tested x y) : y.failed = x.failed ∧ y.inSvc = x.inSvc := by
  obtain ⟨_, _, _, rfl⟩ := h
  exact ⟨rfl, rfl⟩

theorem stopInjection_grp (s : State) (g l : Nat) : Tested (s.grp g) ((stopInjection s g l).grp g) := by
  unfold stopInjection
  split
  · exact endInjection_grp s g
  · exact ⟨_, _, _, rfl⟩

/-- A remap marks its lane FAILED, and leaves the group's place in service. -/
theorem remapWithout_grp (s : State) (g l : Nat) : ((remapWithout s g l).grp g).failed = setBit (s.grp g).failed l ∧
    ((remapWithout s g l).grp g).inSvc = (s.grp g).inSvc := by
  have key (u : State) (h : Tested (s.grp g) (u.grp g)) :
      (((stopInjection u g l).modGrp g fun x => mapLanes { x with failed := setBit x.failed l }).grp g).failed = setBit (s.grp g).failed l ∧
      (((stopInjection u g l).modGrp g fun x => mapLanes { x with failed := setBit x.failed l }).grp g).inSvc = (s.grp g).inSvc := by
    obtain ⟨hfailed, hsvc⟩ := (h.trans (stopInjection_grp u g l)).same
    rw [State.modGrp_grp_same, ← hfailed, ← hsvc]
    exact ⟨rfl, rfl⟩
  unfold remapWithout
  dsimp only
  split
  · exact key _ (endTest_grp s g _)
  · exact key _ ⟨_, _, _, rfl⟩

/-! ## A carrying lane fails at the stack's receiver (R39) -/

/-- The stack receives on group `g`, in service, and expects flits on its lane `l`. -/
def ReceivesOn (s : State) (g l : Nat) : Prop :=
  (s.grp g).inSvc = true ∧ flitsExpected s g = true ∧ bit (s.grp g).carry l = true ∧ (s.grp g).dir = false

/-- The test of a lane failure passes there. -/
theorem ReceivesOn.test {s : State} {g l : Nat} (h : ReceivesOn s g l) :
    ¬ (!((s.grp g).inSvc && flitsExpected s g && bit (s.grp g).carry l && !(s.grp g).dir)) = true := by
  obtain ⟨hin, hflits, hcarry, hdir⟩ := h
  simp [hin, hflits, hcarry, hdir]

/-- With a spare, the failed lane is FAILED, and its group waits for START in service. -/
theorem laneFails_spared {s : State} {g l : Nat} (h : ReceivesOn s g l) (hspare : (s.grp g).spare.isSome = true) :
    ((laneFails g l s).grp g).failed = setBit (s.grp g).failed l ∧ ((laneFails g l s).grp g).needStart = true ∧
    ((laneFails g l s).grp g).sparing = some l ∧ ((laneFails g l s).grp g).inSvc = (s.grp g).inSvc := by
  unfold laneFails
  extract_lets x u v _ w
  rw [if_neg h.test, if_pos hspare]
  obtain ⟨hfailed, hsvc⟩ := remapWithout_grp u g l
  have hw : w.grp g = v.grp g := ite_turn_grp ..
  obtain ⟨hsent, -, hsfailed, -, -, -, hstart, -, -, -, hsparing, -⟩ :=
    (sendItem_reach (w.modGrp g fun y => { y with needStart := true, sparing := some l }) (groupItem g 0 x.rxExp l)).group g
  rw [hsent, hsfailed, hstart, hsparing, State.modGrp_grp_same, hw]
  exact ⟨hfailed, rfl, rfl, hsvc⟩

/-- Without one, its group is lost. -/
theorem laneFails_unspared {s : State} {g l : Nat} (h : ReceivesOn s g l) (hspare : (s.grp g).spare = none) (hg : g < 16) :
    ((laneFails g l s).grp g).gst = .detect ∧ ((laneFails g l s).grp g).inSvc = false := by
  unfold laneFails
  extract_lets x u
  rw [if_neg h.test, if_neg (by rw [show x.spare = none from hspare]; decide)]
  refine groupLostWith_spec _ _ _ _ hg ?_
  rw [State.modGrp_grp_same]
  exact h.1

/-- A lane found without signal, or without lock, fails as any: the finding itself changes the latch `LOS` or the lane's lock. -/
theorem laneDetect_eq {s : State} {g l : Nat} (los : Bool) (h : ReceivesOn s g l) :
    ∃ t locks, laneDetect g l los s = laneFails g l t ∧ t.grp g = { s.grp g with locks := locks } ∧ ReceivesOn t g l := by
  obtain ⟨hin, hflits, hcarry, hdir⟩ := id h
  unfold laneDetect
  dsimp only
  rw [if_neg h.test]
  cases los with
  | true => exact ⟨_, (s.grp g).locks, rfl, rfl, h⟩
  | false =>
    rw [if_neg Bool.false_ne_true]
    refine ⟨_, clrBit (s.grp g).locks l, rfl, State.modGrp_grp_same .., ?_⟩
    unfold ReceivesOn flitsExpected
    rw [State.modGrp_grp_same]
    exact ⟨hin, hflits, hcarry, hdir⟩

/-! ## A spare fails (R71) -/

/-- A group that runs without a spare, its lane `l` FAILED. -/
def withoutSpare (l : Nat) (x : Grp) : Grp := { x with spare := none, failed := setBit x.failed l }

/-- A dead spare is FAILED, and nothing changes besides its group. -/
theorem spareDead_spec {s : State} {g l : Nat} (hin : (s.grp g).inSvc = true) (hspare : (s.grp g).spare = some l) :
    (spareDead g l s).grp g = withoutSpare l (s.grp g) ∧ (spareDead g l s).mem = s.mem ∧ ∀ k, k ≠ g → (spareDead g l s).grp k = s.grp k := by
  have hrun : spareDead g l s = (s.modGrp g (withoutSpare l)).raise (192 + 3 * g) .warn [g + l * 16 + 512] := if_pos ⟨hin, hspare⟩
  rw [hrun]
  exact ⟨by rw [State.raise_grp, State.modGrp_grp_same], by rw [State.raise_mem, State.modGrp_mem],
    fun k hk => by rw [State.raise_grp, State.modGrp_grp_ne _ _ _ _ hk]⟩

/-- A group that the stack hears is in service. -/
theorem inSvc_of_hears {s : State} {g : Nat} (h : hears s g = true) : (s.grp g).inSvc = true := by
  unfold hears at h
  simp only [Bool.and_eq_true] at h
  exact h.1.1

/-- The idle spare's checker fails: the spare is FAILED, and the group runs without one. -/
theorem spareCheckerFail_grp {s : State} {g l : Nat} (hhears : hears s g = true) (hspare : (s.grp g).spare = some l) :
    ((spareCheckerFail g l s).grp g).spare = none ∧ ((spareCheckerFail g l s).grp g).failed = setBit (s.grp g).failed l := by
  have hrun : spareCheckerFail g l s = sendItem (spareDead g l s) (groupItem g 1 0 l) := if_pos (by simp [hhears, hspare])
  obtain ⟨-, -, hfailed, -, hnone, -⟩ := (sendItem_reach (spareDead g l s) (groupItem g 1 0 l)).group g
  rw [hrun, hfailed, hnone, (spareDead_spec (inSvc_of_hears hhears) hspare).1]
  exact ⟨rfl, rfl⟩

/-! ## GROUP SPARE (Table 3.6) -/

/-- A replay episode changes no lane. -/
theorem countEpisode_failed (s : State) (g : Nat) : ((countEpisode s g).grp g).failed = (s.grp g).failed := by
  unfold countEpisode
  extract_lets u x fresh n v
  have hv : (v.grp g).failed = (s.grp g).failed := (congrArg Grp.failed (State.setGrp_grp_same ..)).trans rfl
  split
  · rw [State.raise_grp, hv]
  · exact hv

/-- Nor do flits that leave. -/
theorem emit_setGrp_failed (s : State) (g : Nat) (x : Grp) (fl : List TxFlit) : ((emit (s.setGrp g x) g fl).grp g).failed = x.failed := by
  obtain ⟨-, -, hfailed, -⟩ := (emit_reach (s.setGrp g x) g fl).group g
  rw [hfailed, State.setGrp_grp_same]

theorem sendFlit_failed (s : State) (g ftype k : Nat) (area : List Byte) (ends : List (List Byte)) :
    ((sendFlit s g ftype area ends).grp k).failed = (s.grp k).failed := by
  obtain ⟨-, -, hfailed, -⟩ := (sendFlit_reach s g ftype area ends).group k
  exact hfailed

/-- What a replay sets in its group is no lane. -/
theorem replaying_failed (x : Grp) (keep : List TxFlit) (acked : Nat) (until' : Option (Nat × Nat)) :
    ({ x with replay := keep, txAcked := acked, replaying := until' } : Grp).failed = x.failed := rfl

/-- Nor does a replay. -/
theorem replayFrom_failed (s : State) (g e : Nat) : ((replayFrom s g e).grp g).failed = (s.grp g).failed := by
  unfold replayFrom
  dsimp only
  split
  · rfl
  · rw [emit_setGrp_failed, replaying_failed, countEpisode_failed]

/-- Nor does LAST. -/
theorem tryLast_failed (s : State) (k : Nat) : ((tryLast s).grp k).failed = (s.grp k).failed := by
  unfold tryLast
  split
  · rfl
  next t _ =>
    dsimp only
    split
    · rw [State.turn_grp, sendFlit_failed]
      split
      · exact sendFlit_failed ..
      · rfl
    · rfl

/-- The end of a remap at the sender: a step of the turn, LAST, and what can go. -/
theorem drain_tryLast_failed (s : State) (k : Nat) : ((drain (tryLast s)).grp k).failed = (s.grp k).failed := by
  obtain ⟨-, -, hfailed, -⟩ := (drain_reach (tryLast s)).group k
  rw [hfailed, tryLast_failed]

/-- GROUP SPARE for a carrying lane on which the stack sends: without a spare the group is lost. -/
theorem spareItem_unspared {s : State} {g e l : Nat} (hdir : (s.grp g).dir = true) (hin : (s.grp g).inSvc = true)
    (hcarry : bit (s.grp g).carry l = true) (hspare : (s.grp g).spare = none) : spareItem g e l s = groupLost g 3 s := by
  simp [spareItem, hdir, hin, hcarry, hspare]

/-- With one, the lane is FAILED. -/
theorem spareItem_spared {s : State} {g e l : Nat} (hdir : (s.grp g).dir = true) (hin : (s.grp g).inSvc = true)
    (hcarry : bit (s.grp g).carry l = true) (hspare : (s.grp g).spare.isSome = true) :
    ((spareItem g e l s).grp g).failed = setBit (s.grp g).failed l := by
  unfold spareItem
  extract_lets x u v
  rw [if_neg (by simp [x, hdir, hin, hcarry]), if_neg (by rw [Option.isNone_iff_eq_none]; exact Option.isSome_iff_ne_none.1 hspare)]
  have hv : (v.grp g).failed = setBit (s.grp g).failed l := by
    rw [State.raise_grp]
    exact (remapWithout_grp s g l).1
  clear_value v
  split
  · dsimp only
    rw [drain_tryLast_failed, ite_turn_grp, replayFrom_failed, State.modGrp_grp_same]
    exact hv
  · rw [drain_tryLast_failed, ite_turn_grp, sendFlit_failed, State.modGrp_grp_same]
    exact hv

/-! ## The commands -/

theorem exec_laneFailureDetect (g : Fin 16) (found : LaneFinding) (s : State) :
    exec (.laneFailureDetect g found) s = .next (laneDetect g.val found.lane.val found.los s) := rfl

theorem exec_spareCheckerFail (g : Fin 16) (l : Fin 17) (s : State) : exec (.spareCheckerFail g l) s = .next (spareCheckerFail g.val l.val s) := rfl

/-- A GROUP item that the stack hears. -/
theorem exec_groupSpareDeadItem {s : State} {g : Fin 16} (n : Fin 16) (l : Fin 17) (h : hears s g.val = true) :
    exec (.groupSpareDeadItem g n l) s = .next (spareDead n.val l.val s) := congrArg Host.Outcome.next (if_pos h)

theorem exec_groupSpareItem {s : State} {g : Fin 16} (n : Fin 16) (e : BitVec 10) (l : Fin 17) (h : hears s g.val = true) :
    exec (.groupSpareItem g n e l) s = .next (spareItem n.val e.toNat l.val s) := congrArg Host.Outcome.next (if_pos h)

/-- Settles O6: a finding of lost signal or lock comes to a failed lane; the spare's presence decides whether the lane's group is remapped in service or
lost, at the receiver and at the sender alike. -/
theorem laneFailureTakesTheSpare : Obligations.LaneFailureTakesTheSpare := by
  unfold Obligations.LaneFailureTakesTheSpare
  refine ⟨fun s g l los hin hflits hcarry hdir hspare => ?_, fun s g l los hin hflits hcarry hdir hspare => ?_, fun s g l hhears hspare => ?_,
    fun s g n l hhears hin hspare => ?_, fun s g n e l hhears hdir hin hcarry => ?_⟩
  · obtain ⟨t, locks, hrun, hgrp, ht⟩ := laneDetect_eq los ⟨hin, hflits, hcarry, hdir⟩
    have h := laneFails_spared ht (by rw [hgrp]; exact hspare)
    rw [← hrun, hgrp] at h
    exact ⟨_, exec_laneFailureDetect .., h⟩
  · obtain ⟨t, locks, hrun, hgrp, ht⟩ := laneDetect_eq los ⟨hin, hflits, hcarry, hdir⟩
    have h := laneFails_unspared ht (by rw [hgrp]; exact hspare) g.isLt
    rw [← hrun] at h
    exact ⟨_, exec_laneFailureDetect .., h⟩
  · exact ⟨_, exec_spareCheckerFail g l s, spareCheckerFail_grp hhears hspare⟩
  · obtain ⟨hgrp, hmem, hothers⟩ := spareDead_spec hin hspare
    exact ⟨_, exec_groupSpareDeadItem n l hhears, congrArg Grp.spare hgrp, congrArg Grp.failed hgrp, hmem, hothers⟩
  · refine ⟨_, exec_groupSpareItem n e l hhears, spareItem_spared hdir hin hcarry, fun hspare => ?_⟩
    rw [spareItem_unspared hdir hin hcarry hspare]
    exact groupLostWith_spec _ _ _ _ n.isLt hin

end Sys2Proof.Machine


/-! SUPPORT. Groups that are lost, the link that retrains as a whole, and the reference clock (R48, R60, R68, R72, R73, R75). -/

namespace Sys2Proof.Machine

/-! ## What finds a group lost -/

/-- A group that the stack finds lost goes to DETECT, out of service. -/
theorem groupLost_grp {s : State} {g : Nat} (cause : Nat) (hg : g < 16) (hin : (s.grp g).inSvc = true) :
    ((groupLost g cause s).grp g).gst = .detect ∧ ((groupLost g cause s).grp g).inSvc = false := groupLostWith_spec true g cause s hg hin

/-- And so does one that the partner finds lost. -/
theorem groupLostByPartner_grp {s : State} {g : Nat} (ask : Bool) (hg : g < 16) (hin : (s.grp g).inSvc = true) :
    ((groupLostByPartner ask g s).grp g).gst = .detect ∧ ((groupLostByPartner ask g s).grp g).inSvc = false := by
  have hrun : groupLostByPartner ask g s = groupLostWith ask g (s.draw.1 % 6) s.draw.2 := rfl
  rw [hrun]
  exact groupLostWith_spec _ _ _ _ hg (by rw [State.draw_grp]; exact hin)

/-- A PLL that loses lock with the reference clock present sends its group to DETECT, as a lost group when it was in service (R48). -/
theorem groupPllLoss_grp {s : State} {g : Nat} (hg : g < 16) (hclk : s.link.refclk = true) (hpll : (s.grp g).pll = true) :
    ((groupPllLoss g s).grp g).gst = .detect ∧ ((groupPllLoss g s).grp g).inSvc = false := by
  unfold groupPllLoss
  dsimp only
  rw [if_neg (by simp [hclk, hpll])]
  split
  next hin => exact groupLost_grp 4 hg hin
  · obtain ⟨hgst, hsvc, -⟩ := groupDetect_detect s g
    exact ⟨hgst, hsvc⟩

/-- Flits that stay unacknowledged lose their group (R60). -/
theorem ackTimeout_of_unacked {s : State} {g : Nat} (hdir : (s.grp g).dir = true) (hreplay : (s.grp g).replay ≠ [])
    (hgst : (s.grp g).gst = .active ∨ (s.grp g).gst = .quiet ∨ (s.grp g).gst = .turn) : ackTimeout g s = groupLost g 1 s := by
  unfold ackTimeout
  rcases hgst with hgst | hgst | hgst <;> simp [hdir, hreplay, hgst]

/-- A turn that takes too long loses its group (R75). -/
theorem turnTimeout_of_turn {s : State} {u : Turn} (hturn : s.link.turn = some u) :
    turnTimeout s = (groupLost u.grp 5 s).wr F.HLL_TURN_TURN_RES Code.timeout.num := by
  simp [turnTimeout, hturn]

/-! ## LOST answers LOST_REQ (Table 3.7) -/

/-- Items and the credit of flits that were lost go again; no group changes but as sending changes it. -/
theorem resendItems_reach (s : State) (fs : List TxFlit) : LinkReach s (resendItems s fs) := by
  unfold resendItems
  refine .ite (.refl s) ?_
  extract_lets groups _ u
  have hu : LinkReach s u := ⟨⟨_, _, rfl⟩, fun _ => .refl _, rfl, rfl, rfl⟩
  refine .ite (hu.trans (LinkReach.trans ?_ (sendConfig_reach _))) hu
  exact ⟨⟨_, _, rfl⟩, fun _ => .refl _, rfl, rfl, rfl⟩

/-- LOST for a group that left service and asked for it ends the wait. -/
theorem resendLost_lostReq {s : State} {g : Nat} (fseq : Nat) (hdir : (s.grp g).dir = true) (hout : (s.grp g).inSvc = false)
    (hreq : (s.grp g).lostReq = true) : ((resendLost g fseq s).grp g).lostReq = false := by
  unfold resendLost
  extract_lets x u y after w _ v
  have hu : u = s := if_neg (by rw [show x.inSvc = false from hout]; decide)
  have hy : y.lostReq = true := by rw [show y = s.grp g from congrArg (State.grp · g) hu]; exact hreq
  have hv : (v.grp g).lostReq = false := (congrArg Grp.lostReq (State.modGrp_grp_same ..) : (w.grp g).lostReq = false)
  rw [if_neg (by rw [show x.dir = true from hdir]; decide), if_neg (by rw [hy]; decide)]
  obtain ⟨-, -, -, -, -, -, -, -, hsame, -⟩ := ((resendItems_reach v after).trans (drain_reach _).toLink).group g
  exact hsame.trans hv

/-! ## The whole link (R68, R73) -/

/-- A group still waits for LOST: the whole link retrains. -/
theorem lostReqTimeout_of_waiting {s : State} {g : Nat} (hg : g < 16) (hreq : (s.grp g).lostReq = true) :
    lostReqTimeout s = wholeRetrain (serviceCount s) s :=
  if_pos (List.any_eq_true.2 ⟨g, List.mem_range.2 hg, hreq⟩)

/-- A direction is left with no group: the whole link retrains. -/
theorem linkGone_of_empty {s : State} (hup : s.link.up = true) (hempty : inService s false = [] ∨ inService s true = []) :
    linkGone s = wholeRetrain (serviceCount s) s := by
  refine if_pos ?_
  rcases hempty with h | h <;> simp [hup, h]

/-! ## HL_REFCLK (R48) -/

/-- An operation on each group in turn, where the operation may look at what the others leave alone: what holds of a group's own turn holds of the
group at the end. -/
theorem groups_fold_within (s : State) (op : State → Nat → State) (hop : ∀ t g, OnGroup g t (op t g)) (P : Grp → Grp → Prop)
    (hP : ∀ t g, OnGroups s t → P (t.grp g) ((op t g).grp g)) (n : Nat) :
    OnGroups s ((List.range n).foldl op s) ∧ (∀ g, g < n → P (s.grp g) (((List.range n).foldl op s).grp g)) ∧
    ∀ g, n ≤ g → ((List.range n).foldl op s).grp g = s.grp g := by
  induction n with
  | zero => exact ⟨.refl s, fun g hg => absurd hg (Nat.not_lt_zero g), fun _ _ => rfl⟩
  | succ n ih =>
    obtain ⟨hon, hdone, hrest⟩ := ih
    rw [List.range_succ, List.foldl_append, List.foldl_cons, List.foldl_nil]
    refine ⟨hon.trans (hop _ _).any, fun g hg => ?_, fun g hg => ?_⟩
    · rcases Nat.lt_succ_iff_lt_or_eq.1 hg with hlt | rfl
      · rw [(hop _ _).2 g (by omega)]
        exact hdone g hlt
      · rw [← hrest g le_rfl]
        exact hP _ _ hon
    · rw [(hop _ _).2 g (by omega)]
      exact hrest g (by omega)

/-- A raise changes nothing of the link. -/
@[simp] theorem State.raise_link (s : State) (src : Nat) (v : Sev) (syn : List Nat) : (s.raise src v syn).link = s.link := by
  obtain ⟨_, _, _, _, _, h, -⟩ := s.raise_reach src v syn
  rw [h]

/-- A link that goes down keeps its reference clock as it is. -/
@[simp] theorem dropLink_refclk (s : State) : (dropLink s).link.refclk = s.link.refclk := by
  obtain ⟨_, _, _, _, _, hdrop, -, -, hsame⟩ := dropLink_eq s
  rw [hdrop]
  exact hsame

/-- Without its reference clock the stack marks it absent, and every group is OFF. -/
theorem refclkGone_spec (s : State) : (refclkGone s).link.refclk = false ∧ ∀ g, g < 16 → ((refclkGone s).grp g).gst = .off := by
  unfold refclkGone
  extract_lets before _ _ u v
  have hu : u.link.refclk = false := rfl
  have hclk : v.link.refclk = false := by
    simp only [v, dropLink_refclk]
    split
    · simp only [State.raiseG, State.raise_link, hu]
    · exact hu
  clear_value v
  obtain ⟨⟨_, _, _, hon⟩, hoff⟩ := groups_fold groupOff groupOff_on (fun _ x => x.gst = .off) groupOff_gst 16 v
  exact ⟨by rw [hon]; exact hclk, hoff⟩

/-- The loss of the reference clock in operation. -/
theorem refclkLoss_in_operation {s : State} (hclk : s.link.refclk = true)
    (hpow : s.pck.pow = .run ∨ s.pck.pow = .idle ∨ s.pck.pow = .entering ∨ s.pck.pow = .warm ∨ s.pck.pow = .powerFail) :
    refclkLoss s = refclkGone s := by
  unfold refclkLoss
  rcases hpow with hpow | hpow | hpow | hpow | hpow <;> simp [hclk, hpow]

/-- When the reference clock returns, each group that was OFF trains from DETECT (R37). -/
theorem refclkReturn_spec {s : State} (hclk : s.link.refclk = false)
    (hpow : s.pck.pow = .run ∨ s.pck.pow = .idle ∨ s.pck.pow = .entering) :
    (refclkReturn s).link.refclk = true ∧
    ∀ g, g < 16 → (s.grp g).gst = .off → ((refclkReturn s).grp g).gst = .detect ∧ ((refclkReturn s).grp g).attempt = 1 := by
  unfold refclkReturn
  rw [if_neg (by rw [hclk]; decide)]
  extract_lets _ u
  obtain ⟨⟨_, _, _, hon⟩, hgrps, -⟩ := groups_fold_within u (fun t g => groupPowerUp g t) groupPowerUp_on
    (fun x y => x.gst = .off → y.gst = .detect ∧ y.attempt = 1)
    (fun t g ⟨_, _, _, ht⟩ hoff => groupPowerUp_grp hoff (by rw [ht]) (by rw [ht]; exact hpow)) 16
  exact ⟨by rw [hon], hgrps⟩

/-! ## The commands -/

theorem exec_groupLoss (g : Fin 16) (cause : Fin 6) (s : State) : exec (.groupLoss g cause) s = .next (groupLost g.val cause.val s) := rfl

theorem exec_groupPllLoss (g : Fin 16) (s : State) : exec (.groupPllLoss g) s = .next (groupPllLoss g.val s) := rfl

theorem exec_ackTimeout (g : Fin 16) (s : State) : exec (.ackTimeout g) s = .next (ackTimeout g.val s) := rfl

theorem exec_turnTimeout (s : State) : exec .turnTimeout s = .next (turnTimeout s) := rfl

theorem exec_lostReqTimeout (s : State) : exec .lostReqTimeout s = .next (lostReqTimeout s) := rfl

theorem exec_wholeLinkRetrain (s : State) : exec .wholeLinkRetrain s = .next (linkGone s) := rfl

theorem exec_hlRefclkLoss (s : State) : exec .hlRefclkLoss s = .next (refclkLoss s) := rfl

theorem exec_hlRefclkReturn (s : State) : exec .hlRefclkReturn s = .next (refclkReturn s) := rfl

/-- LOST_REQ that the stack hears, for a group in service on which it receives. -/
theorem exec_groupLostReqItem {s : State} {g n : Fin 16} (hhears : hears s g.val = true) (hdir : (s.grp n.val).dir = false)
    (hin : (s.grp n.val).inSvc = true) : exec (.groupLostReqItem g n) s = .next (groupLostByPartner true n.val s) :=
  congrArg Host.Outcome.next (if_pos (by simp [hhears, hdir, hin]))

/-- LOST that the stack hears. -/
theorem exec_groupLostItem {s : State} {g : Fin 16} (n : Fin 16) (last : BitVec 10) (hhears : hears s g.val = true) :
    exec (.groupLostItem g n last) s = .next (resendLost n.val last.toNat s) := congrArg Host.Outcome.next (if_pos hhears)

/-- Settles O7: each finding comes to the loss of its group, and each of the two whole-link findings to a retraining of the whole link. -/
theorem lostGroupsGoToDetect : Obligations.LostGroupsGoToDetect := by
  unfold Obligations.LostGroupsGoToDetect
  have retrains (s : State) : (wholeRetrain (serviceCount s) s).link.up = false ∧
      ∀ g : Fin 16, ((wholeRetrain (serviceCount s) s).grp g.val).gst = .detect := by
    obtain ⟨hdown, hgrps⟩ := wholeRetrain_spec (serviceCount s) s
    exact ⟨hdown, fun g => (hgrps g.val g.isLt).1⟩
  refine ⟨fun s g cause hin => ?_, fun s g hclk hpll => ?_, fun s g hin hdir hreplay hgst => ?_, fun s u hturn hu hin => ?_,
    fun s g n hhears hdir hin => ?_, fun s g n last hhears hdir hout hreq => ?_, fun s ⟨g, hreq⟩ => ?_, fun s hup hempty => ?_⟩
  · exact ⟨_, exec_groupLoss g cause s, groupLost_grp _ g.isLt hin⟩
  · exact ⟨_, exec_groupPllLoss g s, groupPllLoss_grp g.isLt hclk hpll⟩
  · refine ⟨_, exec_ackTimeout g s, ?_⟩
    rw [ackTimeout_of_unacked hdir hreplay hgst]
    exact groupLost_grp _ g.isLt hin
  · refine ⟨_, exec_turnTimeout s, ?_⟩
    rw [turnTimeout_of_turn hturn, State.wr_grp]
    exact groupLost_grp _ hu hin
  · exact ⟨_, exec_groupLostReqItem hhears hdir hin, groupLostByPartner_grp _ n.isLt hin⟩
  · exact ⟨_, exec_groupLostItem n last hhears, resendLost_lostReq _ hdir hout hreq⟩
  · refine ⟨_, exec_lostReqTimeout s, ?_⟩
    rw [lostReqTimeout_of_waiting g.isLt hreq]
    exact retrains s
  · refine ⟨_, exec_wholeLinkRetrain s, ?_⟩
    rw [linkGone_of_empty hup hempty]
    exact retrains s

/-- Settles O8: the loss and the return of the clock act on each group in turn, and no group's turn changes the clock or the power state. -/
theorem referenceClockLossStopsEveryGroup : Obligations.ReferenceClockLossStopsEveryGroup := by
  unfold Obligations.ReferenceClockLossStopsEveryGroup
  refine ⟨fun s hclk hpow => ?_, fun s hclk hpow => ?_⟩
  · obtain ⟨habsent, hoff⟩ := refclkGone_spec s
    refine ⟨_, exec_hlRefclkLoss s, ?_⟩
    rw [refclkLoss_in_operation hclk hpow]
    exact ⟨habsent, fun g => hoff g.val g.isLt⟩
  · obtain ⟨hpresent, hdetect⟩ := refclkReturn_spec hclk hpow
    exact ⟨_, exec_hlRefclkReturn s, hpresent, fun g => hdetect g.val g.isLt⟩

end Sys2Proof.Machine


/-! SUPPORT. Writes and reads of a lane group's registers (HLP, Tables 2.8 to 2.15): which word reaches the register's own action, and what it does. -/

namespace Sys2Proof.Machine

/-! ## The word of a command -/

/-- Setting some bits of a word leaves the bits below and above them. -/
theorem bits_setBits_apart (v x : Nat) {lo w lo' w' : Nat} (h : lo' + w' ≤ lo ∨ lo + w ≤ lo') : bits (setBits v lo w x) lo' w' = bits v lo' w' := by
  rcases h with h | h
  · have hset : setBits v lo w x = v % 2 ^ lo + (x % 2 ^ w + v / 2 ^ (lo + w) * 2 ^ w) * 2 ^ lo := by
      rw [setBits, pow_add]
      ring
    rw [hset, bits_add_high _ _ _ _ _ h, ← bits_add_high _ (v / 2 ^ lo) _ _ _ h, Nat.mod_add_div']
  · obtain ⟨d, rfl⟩ := Nat.exists_eq_add_of_le h
    have hlow : x % 2 ^ w * 2 ^ lo + v % 2 ^ lo < 2 ^ (lo + w) := by
      have hx : x % 2 ^ w + 1 ≤ 2 ^ w := Nat.mod_lt _ (Nat.two_pow_pos w)
      calc x % 2 ^ w * 2 ^ lo + v % 2 ^ lo < x % 2 ^ w * 2 ^ lo + 2 ^ lo := Nat.add_lt_add_left (Nat.mod_lt _ (Nat.two_pow_pos lo)) _
        _ = (x % 2 ^ w + 1) * 2 ^ lo := by ring
        _ ≤ 2 ^ w * 2 ^ lo := Nat.mul_le_mul_right _ hx
        _ = 2 ^ (lo + w) := by rw [pow_add]; ring
    have hhigh : setBits v lo w x / 2 ^ (lo + w) = v / 2 ^ (lo + w) := by
      rw [setBits, Nat.add_assoc, Nat.mul_comm, Nat.mul_add_div (Nat.two_pow_pos _), Nat.div_eq_of_lt hlow, Nat.add_zero]
    rw [bits, bits, pow_add, ← Nat.div_div_eq_div_mul, ← Nat.div_div_eq_div_mul, hhigh]

/-- A field beside the one that a command sets keeps its value in the command's word. -/
theorem val_withBits_apart (v x : Nat) {f f' : Fld} (h : f'.lo + f'.w ≤ f.lo ∨ f.lo + f.w ≤ f'.lo) : f'.val (withBits v [(f, x)]) = f'.val v :=
  bits_setBits_apart v x h

/-- The field that a command sets, as the register's action sees it. -/
theorem writtenWord_set {s : State} {who : Nat} {r : RegId} {i v x : Nat} {f : Fld} (hf : f ∈ r.info.flds) (hmay : MayWrite s who r i f) :
    f.val (writtenWord s who r i (withBits v [(f, x)])) = x % 2 ^ f.w := by
  rw [writtenWord_val _ _ _ _ _ _ hf hmay, val_withBits_one]

/-- Another field that the master may write, as the register's action sees it. -/
theorem writtenWord_kept {s : State} {who : Nat} {r : RegId} {i v x : Nat} {f f' : Fld} (hf : f' ∈ r.info.flds) (hmay : MayWrite s who r i f')
    (h : f'.lo + f'.w ≤ f.lo ∨ f.lo + f.w ≤ f'.lo) : f'.val (writtenWord s who r i (withBits v [(f, x)])) = f'.val v := by
  rw [writtenWord_val _ _ _ _ _ _ hf hmay, val_withBits_apart _ _ h]

/-! ## What an access leaves -/

/-- Recording an access changes no group. -/
@[simp] theorem recordAcc_grp (s : State) (who : Nat) (wr : Bool) (off : Nat) (c : Code) (d k : Nat) :
    (recordAcc s who wr off c d).grp k = s.grp k := by
  unfold recordAcc
  split <;> simp only [State.inc_grp, State.wr_grp]

@[simp] theorem recordAcc_mem (s : State) (who : Nat) (wr : Bool) (off : Nat) (c : Code) (d : Nat) : (recordAcc s who wr off c d).mem = s.mem := by
  unfold recordAcc
  split <;> simp only [State.inc_mem, State.wr_mem]

/-- No record of an access lies among the registers of the lane groups. -/
theorem not_lasPlace {k : Nat} (hlow : 1600 ≤ k) (hhigh : k < 2 ^ 28) : lasPlace k = false := by
  simp only [lasPlace, Bool.or_eq_false_iff, Bool.and_eq_false_iff, decide_eq_false_iff_not]
  omega

/-- A write that the register's own action answers with RESOURCE changes nothing but the record of the access. -/
theorem writeBy_resource {s : State} {who : Nat} {r : RegId} {i j v d : Nat} (hat : regAt (regOffset r i j) = some (r, i, j))
    (h : WriteReady s who r i j v) (hhook : writeHook s who r i j v = (.resource, d, s))
    (hp : persistWord s r (ownIdx r who i) (writtenWord s who r i v) = none) :
    writeBy s who r i j v = recordAcc s who true (regOffset r i j) .resource d := by
  obtain ⟨hopen, hpending, hmay, hlegal, hwin, hlock, hstop⟩ := h
  have hw : writeReg s who .core r i j v = (.done .resource d, s) := by
    unfold writeHook writtenWord at hhook
    unfold writtenWord at hp
    unfold writeReg
    simp only [hmay, hlegal, hwin, hlock, hstop, hhook, hp]
    simp
  rw [writeBy, access_write _ _ hopen hpending rfl, runWrite_done _ _ r i j .resource d _ hat hw]
  rfl

/-- A read that is not refused leaves what the reading does, and its record. -/
theorem readBy_ok {s : State} {who : Nat} {r : RegId} {i j : Nat} {fs : List Fld} (hat : regAt (regOffset r i j) = some (r, i, j))
    (h : CanRead s who r i j fs) :
    readBy s who r i j = recordAcc (postRead (preRead s r (ownIdx r who i) j) r (ownIdx r who i) j
      (mayField (letters s r who (ownIdx r who i) false))) who false (regOffset r i j) .ok 0 := by
  obtain ⟨hopen, hpending, hauth, hstop, hrefused, -, hsome, hfs⟩ := h
  have hknown : ¬ (who = 16 ∧ ¬ s.mgt.auth = true) := fun ⟨hwho, hno⟩ => hno (hauth hwho)
  obtain ⟨f, hf⟩ := List.exists_mem_of_ne_nil fs hsome
  have hmay : r.info.flds.any (mayField (letters s r who (ownIdx r who i) false)) = true := List.any_eq_true.2 ⟨f, hfs f hf⟩
  have hread : readReg s who r i j = (.ok, showReg (preRead s r (ownIdx r who i) j) r who (ownIdx r who i) j
      (mayField (letters s r who (ownIdx r who i) false)), postRead (preRead s r (ownIdx r who i) j) r (ownIdx r who i) j
      (mayField (letters s r who (ownIdx r who i) false))) := by
    unfold readReg
    simp only [if_neg hknown, hmay, hstop, hrefused]
    simp
  rw [readBy, access_read _ _ hopen hpending rfl, runRead, hat]
  simp only [hread]
  rfl

/-! ## Stored fields (R291) -/

/-- What a write stores of one field. -/
def storeField (i j v : Nat) (may : Fld → Bool) (t : State) (f : Fld) : State :=
  if !may f then t else
  match f.acc with
  | .rw | .rwp => t.wr f (f.val v) i j
  | .rwpl => t
  | .rw1c => t.wr f (t.rd f i j - Nat.land (t.rd f i j) (f.val v)) i j
  | .rw1s => t.wr f (Nat.lor (t.rd f i j) (f.val v)) i j
  | _ => t

/-- A write stores the fields of its register in turn. -/
theorem storeFields_eq (s : State) (r : RegId) (i j v : Nat) (may : Fld → Bool) :
    storeFields s r i j v may = r.info.flds.foldl (storeField i j v may) s := rfl

/-- Storing one field leaves every other place as it was. -/
theorem storeField_rd_ne (i j v : Nat) (may : Fld → Bool) (t : State) {f x : Fld} (h : f.at i j ≠ x.at i j) :
    (storeField i j v may t x).rd f i j = t.rd f i j := by
  unfold storeField
  split
  · rfl
  · split
    · exact State.rd_wr_ne _ _ _ _ _ _ _ _ h
    · exact State.rd_wr_ne _ _ _ _ _ _ _ _ h
    · rfl
    · exact State.rd_wr_ne _ _ _ _ _ _ _ _ h
    · exact State.rd_wr_ne _ _ _ _ _ _ _ _ h
    · rfl

/-- A plain field that the master may write takes its part of the word. -/
theorem storeField_rd_rw {i j v : Nat} {may : Fld → Bool} (t : State) {f : Fld} (hacc : f.acc = .rw) (hmay : may f = true) :
    (storeField i j v may t f).rd f i j = f.val v := by
  have hrun : storeField i j v may t f = t.wr f (f.val v) i j := by simp [storeField, hmay, hacc]
  rw [hrun, State.rd_wr_same]
  exact Nat.mod_eq_of_lt (bits_lt ..)

theorem foldl_storeField_rd_ne (l : List Fld) (i j v : Nat) (may : Fld → Bool) (t : State) {f : Fld} (h : ∀ x ∈ l, f.at i j ≠ x.at i j) :
    (l.foldl (storeField i j v may) t).rd f i j = t.rd f i j := by
  induction l generalizing t with
  | nil => rfl
  | cons x r ih =>
    obtain ⟨hx, hr⟩ := List.forall_mem_cons.1 h
    rw [List.foldl_cons, ih _ hr, storeField_rd_ne _ _ _ _ _ hx]

/-- Of fields in different places, a plain one that the master may write reads as its part of the word. -/
theorem foldl_storeField_rd_rw (l : List Fld) {i j v : Nat} {may : Fld → Bool} (t : State) {f : Fld} (hplaces : (l.map fun x => x.at i j).Nodup)
    (hf : f ∈ l) (hacc : f.acc = .rw) (hmay : may f = true) : (l.foldl (storeField i j v may) t).rd f i j = f.val v := by
  induction l generalizing t with
  | nil => exact absurd hf List.not_mem_nil
  | cons x r ih =>
    obtain ⟨hfresh, hrest⟩ := List.nodup_cons.1 hplaces
    rw [List.foldl_cons]
    rcases List.mem_cons.1 hf with rfl | hf
    · rw [foldl_storeField_rd_ne _ _ _ _ _ _ fun y hy heq => hfresh (List.mem_map.2 ⟨y, hy, heq.symm⟩), storeField_rd_rw t hacc hmay]
    · exact ih _ hrest hf

/-! ## HLP[g]_INJ (R46) -/

theorem regAt_hlpInj (g : Fin 16) : regAt (regOffset .HLP_INJ g.val 0) = some (.HLP_INJ, g.val, 0) := by
  revert g
  decide

/-- The injection of a written word reaches its lane: it is not live, or the lane carries flits. -/
def injReaches (s : State) (g m : Nat) : Bool := !F.HLP_INJ_INJ_LIVE.hit m || bit (s.grp g).carry (F.HLP_INJ_INJ_LANE.val m)

/-- `INJ_GO` starts the injection: one event for a single symbol or a burst, and periodic injection from now. -/
theorem hookHlpInj_go {s : State} {g m : Nat} (t : State) (hgo : F.HLP_INJ_INJ_GO.hit m = true)
    (hlive : F.HLP_INJ_INJ_LIVE.hit m = true → 12 ≤ F.HLP_INJ_INJ_EXP.val m ∧ (s.grp g).gst = .active ∧ (s.grp g).dir = true) :
    ∃ u, hookHlpInj s t g m = okH u ∧
      u.rd F.HLP_INJ_INJ_CNT g = b2n (injReaches s g m && (F.HLP_INJ_INJ_MODE.val m == 1 || F.HLP_INJ_INJ_MODE.val m == 3)) ∧
      (u.grp g).injAct = (injReaches s g m && F.HLP_INJ_INJ_MODE.val m == 2) ∧ ((u.grp g).injAct = true → (u.grp g).injAt = s.now) := by
  have hexp : (F.HLP_INJ_INJ_LIVE.hit m && decide (F.HLP_INJ_INJ_EXP.val m < 12)) = false := by
    cases h : F.HLP_INJ_INJ_LIVE.hit m with
    | false => rfl
    | true => simpa using (hlive h).1
  have hactive : (F.HLP_INJ_INJ_LIVE.hit m && !((s.grp g).gst == .active && (s.grp g).dir)) = false := by
    cases h : F.HLP_INJ_INJ_LIVE.hit m with
    | false => rfl
    | true => simp [(hlive h).2]
  have hcnt (b : Bool) : b2n b % 2 ^ F.HLP_INJ_INJ_CNT.w = b2n b := by cases b <;> rfl
  unfold hookHlpInj
  simp only [hexp, hactive, hgo, Bool.false_eq_true, if_false, Bool.or_true, if_true, Bool.not_true]
  refine ⟨_, rfl, ?_⟩
  rw [show (!F.HLP_INJ_INJ_LIVE.hit m || bit (s.grp g).carry (F.HLP_INJ_INJ_LANE.val m)) = injReaches s g m from rfl]
  cases injReaches s g m with
  | false => simp [hcnt]
  | true => simp [hcnt, beq_eq_decide]

/-- What the action of HLP[g]_INJ is given. -/
theorem writeHook_hlpInj (s : State) (who g v : Nat) : writeHook s who .HLP_INJ g 0 v =
    hookHlpInj s (storeFields s .HLP_INJ g 0 v (mayField (letters s .HLP_INJ who g true))) g (writtenWord s who .HLP_INJ g v) := rfl

/-- The word of INJ_GO as the action sees it. -/
def goWord (s : State) (who g v : Nat) : Nat := writtenWord s who .HLP_INJ g (withBits v [(F.HLP_INJ_INJ_GO, 1)])

/-- The fields that INJ_GO takes from its master's word. -/
def goFlds : List Fld := [F.HLP_INJ_INJ_LIVE, F.HLP_INJ_INJ_EXP, F.HLP_INJ_INJ_LANE, F.HLP_INJ_INJ_MODE]

theorem goWord_go {s : State} {who g v : Nat} (hmay : MayWrite s who .HLP_INJ g F.HLP_INJ_INJ_GO) : F.HLP_INJ_INJ_GO.hit (goWord s who g v) = true := by
  rw [Fld.hit, goWord, writtenWord_set (by decide) hmay]
  rfl

theorem goWord_val {s : State} {who g : Nat} (v : Nat) {f : Fld} (hf : f ∈ goFlds) (hmay : MayWrite s who .HLP_INJ g f) :
    f.val (goWord s who g v) = f.val v := by
  have hapart : ∀ f ∈ goFlds, f ∈ RegId.HLP_INJ.info.flds ∧ f.lo + f.w ≤ F.HLP_INJ_INJ_GO.lo := by decide
  obtain ⟨hmem, hbelow⟩ := hapart f hf
  exact writtenWord_kept hmem hmay (.inl hbelow)

/-- An accepted write of HLP[g]_INJ leaves what its action leaves, and its record. -/
theorem writeBy_hlpInj_ok {s u : State} {who v : Nat} (g : Fin 16) (h : WriteReady s who .HLP_INJ g.val 0 v)
    (hhook : writeHook s who .HLP_INJ g.val 0 v = okH u) :
    writeBy s who .HLP_INJ g.val 0 v = recordAcc u who true (regOffset .HLP_INJ g.val 0) .ok 0 := by
  rw [writeBy_ok _ _ _ _ _ _ (regAt_hlpInj g) h (by rw [hhook]; rfl) rfl, hhook]
  rfl

/-- The count of injections lies outside the places that a record of an access reaches. -/
theorem injCnt_not_lasPlace (g : Fin 16) : lasPlace (F.HLP_INJ_INJ_CNT.at g.val 0) = false :=
  not_lasPlace (by simp only [Fld.at, F.HLP_INJ_INJ_CNT]; omega) (by simp only [Fld.at, F.HLP_INJ_INJ_CNT]; omega)

/-! ## HLP[g]_LN[l]_CTL (R43 to R45) -/

theorem regAt_hlpLnCtl (g : Fin 16) (l : Fin 17) : regAt (regOffset .HLP_LN_CTL g.val l.val) = some (.HLP_LN_CTL, g.val, l.val) := by
  revert g l
  decide +kernel

/-- What the action of HLP[g]_LN[l]_CTL is given. -/
theorem writeHook_hlpLnCtl (s : State) (who g l v : Nat) : writeHook s who .HLP_LN_CTL g l v =
    hookHlpLane s (storeFields s .HLP_LN_CTL g l v (mayField (letters s .HLP_LN_CTL who g true))) g l (writtenWord s who .HLP_LN_CTL g v) := rfl

/-- The word of CHK_EN_WRITE as the action sees it. -/
def chkWord (s : State) (who g v : Nat) : Nat := writtenWord s who .HLP_LN_CTL g (withBits v [(F.HLP_LN_CTL_CHK_EN, 1)])

theorem chkWord_chkEn {s : State} {who g v : Nat} (hmay : MayWrite s who .HLP_LN_CTL g F.HLP_LN_CTL_CHK_EN) :
    F.HLP_LN_CTL_CHK_EN.hit (chkWord s who g v) = true := by
  rw [Fld.hit, chkWord, writtenWord_set (by decide) hmay]
  rfl

theorem chkWord_val {s : State} {who g : Nat} (v : Nat) {f : Fld} (hf : f ∈ [F.HLP_LN_CTL_GEN_EN, F.HLP_LN_CTL_PAT_SEL])
    (hmay : MayWrite s who .HLP_LN_CTL g f) : f.val (chkWord s who g v) = f.val v := by
  have hapart : ∀ f ∈ [F.HLP_LN_CTL_GEN_EN, F.HLP_LN_CTL_PAT_SEL], f ∈ RegId.HLP_LN_CTL.info.flds ∧ f.lo + f.w ≤ F.HLP_LN_CTL_CHK_EN.lo := by decide
  obtain ⟨hmem, hbelow⟩ := hapart f hf
  exact writtenWord_kept hmem hmay (.inl hbelow)

/-- An accepted write of HLP[g]_LN[l]_CTL leaves what its action leaves, and its record. -/
theorem writeBy_hlpLnCtl_ok {s u : State} {who v : Nat} (g : Fin 16) (l : Fin 17) (h : WriteReady s who .HLP_LN_CTL g.val l.val v)
    (hhook : writeHook s who .HLP_LN_CTL g.val l.val v = okH u) :
    writeBy s who .HLP_LN_CTL g.val l.val v = recordAcc u who true (regOffset .HLP_LN_CTL g.val l.val) .ok 0 := by
  rw [writeBy_ok _ _ _ _ _ _ (regAt_hlpLnCtl g l) h (by rw [hhook]; rfl) rfl, hhook]
  rfl

/-- The fields of a lane's control register lie in different places. -/
theorem hlpLnCtl_places (g l : Nat) : (RegId.HLP_LN_CTL.info.flds.map fun x => x.at g l).Nodup := by
  have hplaces : (RegId.HLP_LN_CTL.info.flds.map fun x => x.at g l) = (RegId.HLP_LN_CTL.info.flds.map Fld.key).map (· + (32768 * g + 64 * l)) := by
    rw [List.map_map]
    refine List.map_congr_left fun x hx => ?_
    have hstrides : ∀ x ∈ RegId.HLP_LN_CTL.info.flds, x.s1 = 32768 ∧ x.s2 = 64 := by decide
    obtain ⟨h1, h2⟩ := hstrides x hx
    rw [Fld.at, h1, h2, Function.comp_apply, Nat.add_assoc]
  rw [hplaces]
  exact List.Nodup.map (add_left_injective _) (by decide)

/-- `CHK_EN` of a lane that meets R44, written while it is clear and with the generator left as it is, hands the free checker to the user. -/
theorem hookHlpLane_takes {s : State} {g l m : Nat} (t : State) (hpat : F.HLP_LN_CTL_PAT_SEL.val m ≠ 7)
    (hgen : F.HLP_LN_CTL_GEN_EN.hit m = s.on F.HLP_LN_CTL_GEN_EN g l) (hchk : F.HLP_LN_CTL_CHK_EN.hit m = true)
    (hclear : s.on F.HLP_LN_CTL_CHK_EN g l = false) (hfree : laneFree (s.grp g) l = true) (hdir : (s.grp g).dir = false)
    (howner : chkOwner (s.grp g) l = 0) :
    hookHlpLane s t g l m = okH (giveChecker
      (if F.HLP_LN_CTL_SLIP_MAN.hit m then t else t.wr F.HLP_LN_CTL_SLIP (s.rd F.HLP_LN_CTL_SLIP g l) g l) g l 3) := by
  unfold hookHlpLane
  cases hon : s.on F.HLP_LN_CTL_GEN_EN g l <;> simp [hpat, hgen, hon, hchk, hclear, hfree, hdir, howner]

/-- The checker that repair or calibration holds is refused with RESOURCE. -/
theorem hookHlpLane_held {s : State} {g l m : Nat} (t : State) (hpat : F.HLP_LN_CTL_PAT_SEL.val m ≠ 7)
    (hgen : F.HLP_LN_CTL_GEN_EN.hit m = s.on F.HLP_LN_CTL_GEN_EN g l) (hchk : F.HLP_LN_CTL_CHK_EN.hit m = true)
    (hclear : s.on F.HLP_LN_CTL_CHK_EN g l = false) (hfree : laneFree (s.grp g) l = true) (hdir : (s.grp g).dir = false)
    (howner : chkOwner (s.grp g) l = 1 ∨ chkOwner (s.grp g) l = 2) :
    hookHlpLane s t g l m = (.resource, checkerDetail (s.grp g) g l, s) := by
  unfold hookHlpLane
  cases hon : s.on F.HLP_LN_CTL_GEN_EN g l <;> rcases howner with howner | howner <;>
    simp [hpat, hgen, hon, hchk, hclear, hfree, hdir, howner]

/-- A checker that was handed over belongs to its new owner. -/
theorem giveChecker_owner (s : State) (g l owner : Nat) : chkOwner ((giveChecker s g l owner).grp g) l = owner := by
  unfold giveChecker
  dsimp only
  rw [State.modGrp_grp_same]
  exact SMap.getD_put_same ..

/-- Handing over a checker writes no register. -/
theorem giveChecker_rd (s : State) (g l owner : Nat) (f : Fld) (i j : Nat) : (giveChecker s g l owner).rd f i j = s.rd f i j := by
  unfold giveChecker
  dsimp only
  rw [State.modGrp_rd, State.draw_rd]

/-- `CHK_EN` lies outside the places that a record of an access reaches. -/
theorem chkEn_not_lasPlace (g : Fin 16) (l : Fin 17) : lasPlace (F.HLP_LN_CTL_CHK_EN.at g.val l.val) = false :=
  not_lasPlace (by simp only [Fld.at, F.HLP_LN_CTL_CHK_EN]; omega) (by simp only [Fld.at, F.HLP_LN_CTL_CHK_EN]; omega)

/-- After a write that sets it, `CHK_EN` reads 1, whatever slip the write leaves. -/
theorem chkEn_stored {s : State} {g l v slip : Nat} {may : Fld → Bool} (c : Prop) [Decidable c] (hmay : may F.HLP_LN_CTL_CHK_EN = true)
    (hset : F.HLP_LN_CTL_CHK_EN.val v = 1) :
    (if c then storeFields s .HLP_LN_CTL g l v may else (storeFields s .HLP_LN_CTL g l v may).wr F.HLP_LN_CTL_SLIP slip g l).rd
      F.HLP_LN_CTL_CHK_EN g l = 1 := by
  have hstored : (storeFields s .HLP_LN_CTL g l v may).rd F.HLP_LN_CTL_CHK_EN g l = 1 := by
    rw [storeFields_eq, foldl_storeField_rd_rw _ _ (hlpLnCtl_places g l) (by decide) rfl hmay, hset]
  split
  · exact hstored
  · rw [State.rd_wr_ne _ _ _ _ _ _ _ _ (by simp only [Fld.at, F.HLP_LN_CTL_CHK_EN, F.HLP_LN_CTL_SLIP]; omega), hstored]

/-! ## HLP[g]_LN[l]_ERR (R293) -/

theorem regAt_hlpLnErr (g : Fin 16) (l : Fin 17) : regAt (regOffset .HLP_LN_ERR g.val l.val) = some (.HLP_LN_ERR, g.val, l.val) := by
  revert g l
  decide +kernel

/-- `ERRORS` lies outside the places that a record of an access reaches. -/
theorem errors_not_lasPlace (g : Fin 16) (l : Fin 17) : lasPlace (F.HLP_LN_ERR_ERRORS.at g.val l.val) = false :=
  not_lasPlace (by simp only [Fld.at, F.HLP_LN_ERR_ERRORS]; omega) (by simp only [Fld.at, F.HLP_LN_ERR_ERRORS]; omega)

/-- A read by a master that may read `ERRORS` clears it. -/
theorem postRead_errors (t : State) (g l : Nat) {may : Fld → Bool} (hmay : may F.HLP_LN_ERR_ERRORS = true) :
    postRead t .HLP_LN_ERR g l may = t.wr F.HLP_LN_ERR_ERRORS 0 g l := by
  show (if F.HLP_LN_ERR_ERRORS.acc = .rc && may F.HLP_LN_ERR_ERRORS then t.wr F.HLP_LN_ERR_ERRORS 0 g l else t) = _
  rw [hmay]
  rfl

/-! ## The commands -/

theorem exec_injGo (who : Fin 18) (g : Fin 16) (v : Word) (s : State) :
    exec (.injGo who g v) s = .next (writeBy s who.val .HLP_INJ g.val 0 (withBits v.toNat [(F.HLP_INJ_INJ_GO, 1)])) := rfl

theorem exec_chkEnWrite (who : Fin 18) (g : Fin 16) (l : Fin 17) (v : Word) (s : State) :
    exec (.chkEnWrite who g l v) s = .next (writeBy s who.val .HLP_LN_CTL g.val l.val (withBits v.toNat [(F.HLP_LN_CTL_CHK_EN, 1)])) := rfl

theorem exec_errorsRead (who : Fin 18) (g : Fin 16) (l : Fin 17) (s : State) :
    exec (.errorsRead who g l) s = .next (readBy s who.val .HLP_LN_ERR g.val l.val) := rfl

/-- Settles O10: the fields that the master may write reach the register's action as the command words them, the action accepts or refuses, and the record
of the access touches neither the groups nor the fields in question. -/
theorem laneTestWrites : Obligations.LaneTestWrites := by
  unfold Obligations.LaneTestWrites
  refine ⟨fun s who g v ⟨hready, hmay⟩ hlive => ?_, fun s who g l v ⟨hready, hmay⟩ hpat hgen hclear hfree hdir => ?_, fun s who g l h => ?_⟩
  · have kept (f : Fld) (hf : f ∈ goFlds) : f.val (goWord s who.val g.val v.toNat) = f.val v.toNat :=
      goWord_val v.toNat hf (hmay f (List.mem_cons_of_mem _ hf))
    have hlive' := kept F.HLP_INJ_INJ_LIVE (by decide)
    have hexp' := kept F.HLP_INJ_INJ_EXP (by decide)
    have hlane' := kept F.HLP_INJ_INJ_LANE (by decide)
    have hmode' := kept F.HLP_INJ_INJ_MODE (by decide)
    obtain ⟨u, hhook, hcnt, hact, hat⟩ := hookHlpInj_go (s := s) (g := g.val)
      (storeFields s .HLP_INJ g.val 0 (withBits v.toNat [(F.HLP_INJ_INJ_GO, 1)]) (mayField (letters s .HLP_INJ who.val g.val true)))
      (goWord_go (v := v.toNat) (hmay _ (by simp))) (by rw [Fld.hit, hlive', hexp']; exact hlive)
    rw [injReaches, Fld.hit, hlive', hlane', hmode'] at hcnt hact
    rw [goWord, ← writeHook_hlpInj] at hhook
    refine ⟨_, by rw [exec_injGo, writeBy_hlpInj_ok g hready hhook], recordAcc_res .., ?_, ?_, ?_⟩
    · rw [recordAcc_rd _ _ _ _ _ _ who.isLt _ _ _ (injCnt_not_lasPlace g)]
      exact hcnt
    · rw [recordAcc_grp]
      exact hact
    · rw [recordAcc_grp]
      exact hat
  · have hpat' : F.HLP_LN_CTL_PAT_SEL.val (chkWord s who.val g.val v.toNat) ≠ 7 := by
      rw [chkWord_val _ (by decide) (hmay _ (by simp))]
      exact hpat
    have hgen' : F.HLP_LN_CTL_GEN_EN.hit (chkWord s who.val g.val v.toNat) = s.on F.HLP_LN_CTL_GEN_EN g.val l.val := by
      rw [Fld.hit, chkWord_val _ (by decide) (hmay _ (by simp))]
      exact hgen
    have hmayChk : mayField (letters s .HLP_LN_CTL who.val g.val true) F.HLP_LN_CTL_CHK_EN = true := hmay _ (by simp)
    have hset := chkWord_chkEn (v := v.toNat) hmayChk
    refine ⟨fun howner => ?_, fun howner => ?_⟩
    · have hhook := hookHlpLane_takes (storeFields s .HLP_LN_CTL g.val l.val (withBits v.toNat [(F.HLP_LN_CTL_CHK_EN, 1)])
        (mayField (letters s .HLP_LN_CTL who.val g.val true))) hpat' hgen' hset hclear hfree hdir howner
      rw [chkWord, ← writeHook_hlpLnCtl] at hhook
      refine ⟨_, by rw [exec_chkEnWrite, writeBy_hlpLnCtl_ok g l hready hhook], recordAcc_res .., ?_, ?_⟩
      · rw [State.on, recordAcc_rd _ _ _ _ _ _ who.isLt _ _ _ (chkEn_not_lasPlace g l), giveChecker_rd,
          chkEn_stored _ hmayChk (val_withBits_one _ _ 1)]
        rfl
      · rw [recordAcc_grp, giveChecker_owner]
    · have hhook := hookHlpLane_held (storeFields s .HLP_LN_CTL g.val l.val (withBits v.toNat [(F.HLP_LN_CTL_CHK_EN, 1)])
        (mayField (letters s .HLP_LN_CTL who.val g.val true))) hpat' hgen' hset hclear hfree hdir howner
      rw [chkWord, ← writeHook_hlpLnCtl] at hhook
      rw [exec_chkEnWrite, writeBy_resource (regAt_hlpLnCtl g l) hready hhook rfl]
  · have hrun : exec (.errorsRead who g l) s = .next (recordAcc ((sampleErrors s g.val l.val).wr F.HLP_LN_ERR_ERRORS 0 g.val l.val) who.val false
        (regOffset .HLP_LN_ERR g.val l.val) .ok 0) := by
      obtain ⟨-, -, -, -, -, -, -, hmay⟩ := id h
      rw [exec_errorsRead, readBy_ok (regAt_hlpLnErr g l) h, postRead_errors _ _ _ (hmay _ (List.mem_singleton.2 rfl)).2]
      rfl
    refine ⟨_, hrun, recordAcc_res .., ?_, ?_⟩
    · rw [recordAcc_rd _ _ _ _ _ _ who.isLt _ _ _ (errors_not_lasPlace g l), State.rd_wr_same, Nat.zero_mod]
    · obtain ⟨-, -, -, hmem, -⟩ := (sampleErrors_on s g.val l.val).same
      rw [recordAcc_mem, State.wr_mem, hmem]

end Sys2Proof.Machine


/-! SUPPORT. `TEST` of HLP[g]_CTL where the group's withdrawal leaves the link with a direction that has no group (R68). -/

namespace Sys2Proof.Machine

/-! ## A direction without groups (R68) -/

/-- A direction has no group in service. -/
theorem inService_eq_nil_iff (s : State) (dir : Bool) : inService s dir = [] ↔ ∀ k, k < 16 → (s.grp k).inSvc = true → (s.grp k).dir ≠ dir := by
  simp [inService, List.filter_eq_nil_iff]

/-- It has none either when each group has left service or is in service as before. -/
theorem inService_eq_nil_of {s t : State} {dir : Bool} (hempty : inService s dir = [])
    (h : ∀ k, (t.grp k).inSvc = true → (s.grp k).inSvc = true ∧ (t.grp k).dir = (s.grp k).dir) : inService t dir = [] := by
  rw [inService_eq_nil_iff] at hempty ⊢
  intro k hk hin
  obtain ⟨hwas, hdir⟩ := h k hin
  rw [hdir]
  exact hempty k hk hwas

/-- A group that leaves service while a direction of the link has none retrains with the whole link. -/
theorem leaveService_retrains {s : State} {g : Nat} {dir : Bool} (hg : g < 16) (hup : s.link.up = true) (hempty : inService s dir = []) :
    ((leaveService s g).grp g).gst = .detect := by
  unfold leaveService
  extract_lets before m t
  have hreach : LinkReach m t := (fixHome_reach m false).trans (fixHome_reach _ true)
  have htup : t.link.up = true := hreach.2.2.1.trans hup
  have htempty : inService t dir = [] := by
    refine inService_eq_nil_of hempty fun k hin => ?_
    obtain ⟨hsvc, hdir, -⟩ := hreach.group k
    rw [hsvc] at hin
    rw [hdir]
    by_cases hk : k = g
    · subst hk
      rw [State.modGrp_grp_same] at hin
      exact Bool.noConfusion hin
    · rw [State.modGrp_grp_ne _ _ _ _ hk] at hin ⊢
      exact ⟨hin, rfl⟩
  rw [if_pos (by cases dir <;> simp [htup, htempty])]
  exact ((wholeRetrain_spec before t).2 g hg).1

/-- Giving up a turn changes no group. -/
theorem abandonTurnOf_link (s : State) (g : Nat) : (abandonTurnOf s g).link.up = s.link.up ∧ ∀ k, (abandonTurnOf s g).grp k = s.grp k := by
  unfold abandonTurnOf
  split
  · obtain ⟨_, _, _, _, _, h⟩ := abandonTurn_eq s .timeout
    rw [h]
    exact ⟨rfl, fun _ => rfl⟩
  · exact ⟨rfl, fun _ => rfl⟩

/-- The streams of a group that leaves service are out of service. -/
theorem loseStream_inSvc (x y : Grp) : (loseStream x y).inSvc = false := by
  unfold loseStream
  split <;> rfl

/-- A group withdrawn into TEST while a direction of the link has none retrains with the whole link. -/
theorem withdraw_retrains {s : State} {g : Nat} {dir : Bool} (hg : g < 16) (hin : (s.grp g).inSvc = true) (hup : s.link.up = true)
    (hempty : inService s dir = []) : ((withdraw g true s).grp g).gst = .detect := by
  unfold withdraw
  extract_lets x was m t
  rw [if_neg (by rw [show was = true from hin]; decide)]
  obtain ⟨hmup, hmgrp⟩ := abandonTurnOf_link m g
  have htgrp (k : Nat) (hk : k ≠ g) : t.grp k = s.grp k := by
    rw [State.modGrp_grp_ne _ _ _ _ hk, hmgrp, show m = s.modGrp g fun y => { y with gst := .test } from rfl, State.modGrp_grp_ne _ _ _ _ hk]
  have htsvc : (t.grp g).inSvc = false := by
    rw [State.modGrp_grp_same]
    exact loseStream_inSvc ..
  refine leaveService_retrains (dir := dir) hg (hmup.trans hup) (inService_eq_nil_of hempty fun k hk => ?_)
  by_cases hkg : k = g
  · subst hkg
    exact Bool.noConfusion (htsvc.symm.trans hk)
  · have hsame : t.grp k = s.grp k := htgrp k hkg
    exact ⟨by rw [← hsame]; exact hk, congrArg Grp.dir hsame⟩

/-! ## The write of HLP[g]_CTL (Table 2.8) -/

/-- A write of registers' fields leaves the link. -/
theorem storeField_link (i j v : Nat) (may : Fld → Bool) (t : State) (f : Fld) : (storeField i j v may t f).link = t.link := by
  unfold storeField
  split
  · rfl
  · split <;> rfl

theorem storeFields_link (s : State) (r : RegId) (i j v : Nat) (may : Fld → Bool) : (storeFields s r i j v may).link = s.link := by
  rw [storeFields_eq]
  generalize r.info.flds = l
  induction l generalizing s with
  | nil => rfl
  | cons f r ih => rw [List.foldl_cons, ih, storeField_link]

theorem storeFields_grp (s : State) (r : RegId) (i j v : Nat) (may : Fld → Bool) (k : Nat) : (storeFields s r i j v may).grp k = s.grp k := by
  rw [State.grp, storeFields_link]
  rfl

/-- `TEST` set of an ACTIVE or QUIET group that its direction can spare withdraws the group. -/
theorem hookHlpCtl_test {s : State} {g m : Nat} (t : State) (hneeded : needed s g = false) (hloop : F.HLP_CTL_LOOPBACK.val m ≠ 1)
    (hgo : F.HLP_CTL_RETRAIN.hit m = false) (htest : F.HLP_CTL_TEST.hit m = true) (hwas : s.on F.HLP_CTL_TEST g = false)
    (hgst : (s.grp g).gst = .active ∨ (s.grp g).gst = .quiet) : hookHlpCtl s t g m = okH (withdraw g true t) := by
  unfold hookHlpCtl
  rcases hgst with hgst | hgst <;> simp [hneeded, hloop, hgo, htest, hwas, hgst]

theorem regAt_hlpCtl (g : Fin 16) : regAt (regOffset .HLP_CTL g.val 0) = some (.HLP_CTL, g.val, 0) := by
  revert g
  decide

/-- What the action of HLP[g]_CTL is given. -/
theorem writeHook_hlpCtl (s : State) (who g v : Nat) : writeHook s who .HLP_CTL g 0 v =
    hookHlpCtl s (storeFields s .HLP_CTL g 0 v (mayField (letters s .HLP_CTL who g true))) g (writtenWord s who .HLP_CTL g v) := rfl

/-- An accepted write of HLP[g]_CTL leaves what its action leaves, and its record. -/
theorem writeBy_hlpCtl_ok {s u : State} {who v : Nat} (g : Fin 16) (h : WriteReady s who .HLP_CTL g.val 0 v)
    (hhook : writeHook s who .HLP_CTL g.val 0 v = okH u) :
    writeBy s who .HLP_CTL g.val 0 v = recordAcc u who true (regOffset .HLP_CTL g.val 0) .ok 0 := by
  rw [writeBy_ok _ _ _ _ _ _ (regAt_hlpCtl g) h (by rw [hhook]; rfl) rfl, hhook]
  rfl

/-- `TEST` set of a group that its direction can spare, on a link that is up and has no group in some direction, ends in DETECT. -/
theorem testSet_retrains {s : State} {who v : Nat} {dir : Bool} (g : Fin 16)
    (h : CanWrite s who .HLP_CTL g.val 0 (withBits v [(F.HLP_CTL_TEST, 1)]) [F.HLP_CTL_TEST]) (hneeded : needed s g.val = false)
    (hloop : F.HLP_CTL_LOOPBACK.val (writtenWord s who .HLP_CTL g.val (withBits v [(F.HLP_CTL_TEST, 1)])) ≠ 1)
    (hgo : F.HLP_CTL_RETRAIN.hit (writtenWord s who .HLP_CTL g.val (withBits v [(F.HLP_CTL_TEST, 1)])) = false)
    (hwas : s.on F.HLP_CTL_TEST g.val = false) (hgst : (s.grp g.val).gst = .active ∨ (s.grp g.val).gst = .quiet)
    (hin : (s.grp g.val).inSvc = true) (hup : s.link.up = true) (hempty : inService s dir = []) :
    ((testSet who g.val v s).grp g.val).gst = .detect := by
  obtain ⟨hready, hmay⟩ := h
  have htest : F.HLP_CTL_TEST.hit (writtenWord s who .HLP_CTL g.val (withBits v [(F.HLP_CTL_TEST, 1)])) = true := by
    rw [Fld.hit, writtenWord_set (by decide) (hmay _ (List.mem_singleton.2 rfl))]
    rfl
  have hhook := hookHlpCtl_test (storeFields s .HLP_CTL g.val 0 (withBits v [(F.HLP_CTL_TEST, 1)])
    (mayField (letters s .HLP_CTL who g.val true))) hneeded hloop hgo htest hwas hgst
  rw [← writeHook_hlpCtl] at hhook
  rw [testSet, regAction, writeBy_hlpCtl_ok g hready hhook, recordAcc_grp]
  refine withdraw_retrains (dir := dir) g.isLt ?_ ?_ (inService_eq_nil_of hempty fun k hk => ?_)
  · rw [storeFields_grp]
    exact hin
  · rw [storeFields_link]
    exact hup
  · rw [storeFields_grp] at hk ⊢
    exact ⟨hk, rfl⟩

/-! ## The counterexample -/

/-- The stack in RUN with the link up, G8 to G10 in service device-to-host, and no group in service host-to-device. -/
def oneWayLink : State :=
  { State.reset with
    pck := { pow := .run }
    link := { grp := [8, 9, 10].map fun g => (g, { gst := .active, dir := true, inSvc := true }), up := true } }

/-- D0 may set `TEST` of G8 there, with legal values in `QUIET_DLY` and `FAIL_THR`. -/
theorem oneWayLink_canWrite : CanWrite oneWayLink 0 .HLP_CTL 8 0 (withBits 0x404000 [(F.HLP_CTL_TEST, 1)]) [F.HLP_CTL_TEST] := by
  unfold CanWrite WriteReady WriteOpen MayWrite
  decide +kernel

/-- The write sends G8 to DETECT. -/
theorem oneWayLink_test_detects : ((testSet 0 8 0x404000 oneWayLink).grp 8).gst = .detect :=
  testSet_retrains (dir := false) 8 oneWayLink_canWrite (by decide +kernel) (by decide +kernel) (by decide +kernel) (by decide +kernel)
    (.inl (by decide +kernel)) (by decide +kernel) rfl (by decide +kernel)

/-- Refutes O9: `TEST` set for an ACTIVE group of a direction with three in service, on a link that is up and has none in the other direction. The
direction can spare the group, but its leaving service finds the other direction empty, and the whole link retrains: the group ends in DETECT. -/
theorem not_groupControlWrites : ¬ Obligations.GroupControlWrites := by
  unfold Obligations.GroupControlWrites
  rintro ⟨-, -, hset, -⟩
  obtain ⟨t, hrun, -, htest, -⟩ := hset oneWayLink 0 8 0x404000#32 oneWayLink_canWrite (by decide +kernel) (by decide +kernel)
    (by decide +kernel) (by decide +kernel) (.inl (by decide +kernel))
  have ht : testSet 0 8 0x404000 oneWayLink = t := Host.Outcome.next.inj hrun
  have hdetect : (t.grp ((8 : Fin 16) : Nat)).gst = .detect := ht ▸ oneWayLink_test_detects
  exact absurd (hdetect.symm.trans htest) (by decide)

end Sys2Proof.Machine


/-! SUPPORT. Writes of the link layer's registers (HLL, Tables 3.10 and 3.11): a turn that is asked for or refused (R74), and the counters that
`CNT_CLR` clears (R79). -/

namespace Sys2Proof.Machine

/-! ## What an access leaves of the link -/

@[simp] theorem recordAcc_link (s : State) (who : Nat) (wr : Bool) (off : Nat) (c : Code) (d : Nat) : (recordAcc s who wr off c d).link = s.link := by
  unfold recordAcc
  split <;> simp only [State.inc_link, State.wr_link]

@[simp] theorem recordAcc_out (s : State) (who : Nat) (wr : Bool) (off : Nat) (c : Code) (d : Nat) : (recordAcc s who wr off c d).out = s.out := by
  unfold recordAcc
  split <;> simp only [State.inc_out, State.wr_out]

/-- A write that the register's own action refuses with STATE or BUSY changes nothing but the record of the access. -/
theorem writeBy_refused {s : State} {who : Nat} {r : RegId} {i j v : Nat} {c : Code} (hat : regAt (regOffset r i j) = some (r, i, j))
    (h : WriteReady s who r i j v) (hhook : writeHook s who r i j v = noH s c) (hc : c = .state ∨ c = .busy)
    (hp : persistWord s r (ownIdx r who i) (writtenWord s who r i v) = none) :
    writeBy s who r i j v = recordAcc s who true (regOffset r i j) c 0 := by
  obtain ⟨hopen, hpending, hmay, hlegal, hwin, hlock, hstop⟩ := h
  have hw : writeReg s who .core r i j v = (.done c 0, s) := by
    unfold writeHook writtenWord at hhook
    unfold writtenWord at hp
    unfold writeReg
    simp only [hmay, hlegal, hwin, hlock, hstop, hhook, hp, noH]
    rcases hc with rfl | rfl <;> simp
  rw [writeBy, access_write _ _ hopen hpending rfl, runWrite_done _ _ r i j c 0 _ hat hw]
  rfl

/-! ## HLL_TURN (R74) -/

theorem regAt_hllTurn : regAt (regOffset .HLL_TURN 0 0) = some (.HLL_TURN, 0, 0) := by decide

/-- What the action of HLL_TURN is given. -/
theorem writeHook_hllTurn (s : State) (who v : Nat) : writeHook s who .HLL_TURN 0 0 v =
    hookTurn s (storeFields s .HLL_TURN 0 0 v (mayField (letters s .HLL_TURN who 0 true))) (writtenWord s who .HLL_TURN 0 v) := rfl

/-- A turn that R74's test does not allow is refused with STATE or BUSY. -/
theorem turnCheck_refuses {s : State} {g : Nat} {dir : Bool} (h : turnCheck s g dir ≠ .ok) :
    turnCheck s g dir = .state ∨ turnCheck s g dir = .busy := by
  have key (a b : Bool) (hne : (if a then Code.state else if b then .busy else .ok) ≠ .ok) :
      (if a then Code.state else if b then .busy else .ok) = .state ∨ (if a then Code.state else if b then .busy else .ok) = .busy := by
    cases a with
    | true => exact .inl rfl
    | false => cases b with
      | true => exact .inr rfl
      | false => exact absurd rfl hne
  exact key _ _ h

/-- A turn that R74's test allows is asked for. -/
theorem hookTurn_allowed {s : State} {m : Nat} (t : State) (hgo : F.HLL_TURN_TURN_GO.hit m = true)
    (h : turnCheck s (F.HLL_TURN_TURN_GRP.val m) (F.HLL_TURN_TURN_DIR.hit m) = .ok) :
    hookTurn s t m = okH (requestTurn t (F.HLL_TURN_TURN_GRP.val m) (F.HLL_TURN_TURN_DIR.hit m)) := by
  simp [hookTurn, hgo, h]

/-- Another is refused with the test's code. -/
theorem hookTurn_refused {s : State} {m : Nat} (t : State) (hgo : F.HLL_TURN_TURN_GO.hit m = true)
    (h : turnCheck s (F.HLL_TURN_TURN_GRP.val m) (F.HLL_TURN_TURN_DIR.hit m) ≠ .ok) :
    hookTurn s t m = noH s (turnCheck s (F.HLL_TURN_TURN_GRP.val m) (F.HLL_TURN_TURN_DIR.hit m)) := by
  simp [hookTurn, hgo]

/-- The word of TURN_GO as the action sees it. -/
def turnWord (s : State) (who v : Nat) : Nat := writtenWord s who .HLL_TURN 0 (withBits v [(F.HLL_TURN_TURN_GO, 1)])

theorem turnWord_go {s : State} {who v : Nat} (hmay : MayWrite s who .HLL_TURN 0 F.HLL_TURN_TURN_GO) :
    F.HLL_TURN_TURN_GO.hit (turnWord s who v) = true := by
  rw [Fld.hit, turnWord, writtenWord_set (by decide) hmay]
  rfl

theorem turnWord_val {s : State} {who : Nat} (v : Nat) {f : Fld} (hf : f ∈ [F.HLL_TURN_TURN_GRP, F.HLL_TURN_TURN_DIR])
    (hmay : MayWrite s who .HLL_TURN 0 f) : f.val (turnWord s who v) = f.val v := by
  have hapart : ∀ f ∈ [F.HLL_TURN_TURN_GRP, F.HLL_TURN_TURN_DIR], f ∈ RegId.HLL_TURN.info.flds ∧ f.lo + f.w ≤ F.HLL_TURN_TURN_GO.lo := by decide
  obtain ⟨hmem, hbelow⟩ := hapart f hf
  exact writtenWord_kept hmem hmay (.inl hbelow)

/-- A turn asked for is outstanding with the number that was next, and the next number moves on. -/
theorem requestTurn_link (s : State) (g : Nat) (dir : Bool) : (requestTurn s g dir).link.tseq = (s.link.tseq + 1) % 65536 ∧
    (requestTurn s g dir).link.turnReq = some { grp := g, dir := dir, tseq := s.link.tseq, byStack := true } := by
  obtain ⟨-, -, -, -, -, -, hreq, -, -, -, -, -, -, -, hseq⟩ :=
    (sendVc2_reach { s with
      link.tseq := (s.link.tseq + 1) % 65536
      link.turnReq := some { grp := g, dir := dir, tseq := s.link.tseq, byStack := true } } (turnBytes 0x80 g dir s.link.tseq 0)).link
  exact ⟨hseq, hreq⟩

/-! ## CNT_CLR of HLL_CTL (R79) -/

theorem regAt_hllCtl : regAt (regOffset .HLL_CTL 0 0) = some (.HLL_CTL, 0, 0) := by decide

/-- Clearing a place leaves at zero whatever field of reset value zero is there. -/
theorem State.rd_clear_of_zero {s : State} {f : Fld} {i' j' : Nat} (f' : Fld) (i j : Nat) (hreset : f.reset i' = 0) (h : s.rd f i' j' = 0) :
    (s.wr f' 0 i j).rd f i' j' = 0 := by
  by_cases hat : f.at i' j' = f'.at i j
  · unfold State.rd State.wr SMap.put
    dsimp only
    rw [hat, hreset]
    split
    · exact SMap.getD_erase_same ..
    · rw [SMap.getD_set_same, Nat.zero_mod]
  · rw [State.rd_wr_ne _ _ _ _ _ _ _ _ hat, h]

theorem State.clearAll_of_zero {s : State} {f : Fld} {i j : Nat} (f' : Fld) (n : Nat) (hreset : f.reset i = 0) (h : s.rd f i j = 0) :
    (s.clearAll f' n).rd f i j = 0 := by
  unfold State.clearAll
  induction n with
  | zero => exact h
  | succ n ih =>
    rw [List.range_succ, List.foldl_append]
    exact State.rd_clear_of_zero _ _ _ hreset ih

/-- A field that is cleared for the first instances is zero there. -/
theorem State.clearAll_same (s : State) {f : Fld} {i n : Nat} (hreset : f.reset i = 0) (hi : i < n) : (s.clearAll f n).rd f i = 0 := by
  unfold State.clearAll
  induction n with
  | zero => exact absurd hi (Nat.not_lt_zero i)
  | succ n ih =>
    rw [List.range_succ, List.foldl_append, List.foldl_cons, List.foldl_nil]
    rcases Nat.lt_succ_iff_lt_or_eq.1 hi with hlt | rfl
    · exact State.rd_clear_of_zero _ _ _ hreset (ih hlt)
    · rw [State.rd_wr_same, Nat.zero_mod]

theorem State.clearFields_of_zero {s : State} {f : Fld} {i j : Nat} (fs : List Fld) (n : Nat) (hreset : f.reset i = 0) (h : s.rd f i j = 0) :
    (s.clearFields fs n).rd f i j = 0 := by
  unfold State.clearFields
  induction fs generalizing s with
  | nil => exact h
  | cons f' r ih => exact ih (State.clearAll_of_zero f' n hreset h)

/-- So is each of several fields. -/
theorem State.clearFields_same (s : State) {fs : List Fld} {f : Fld} {i n : Nat} (hf : f ∈ fs) (hreset : f.reset i = 0) (hi : i < n) :
    (s.clearFields fs n).rd f i = 0 := by
  induction fs generalizing s with
  | nil => exact absurd hf List.not_mem_nil
  | cons f' r ih =>
    rcases List.mem_cons.1 hf with rfl | hf
    · exact State.clearFields_of_zero r n hreset (State.clearAll_same s hreset hi)
    · exact ih (s.clearAll f' n) hf

/-- The counters of HLL that stand for each group. -/
def hllCounters : List Fld :=
  [F.HLL_FEC_FEC_CORR, F.HLL_FLIT_BAD_FLITS, F.HLL_FLIT_REPLAYS, F.HLL_EVT_SPARES, F.HLL_EVT_LOSSES, F.HLL_EVT_PROTO, F.HLL_EVT_NAKS_TX]

/-- Every counter of HLL is cleared. -/
theorem hllClear_rd (s : State) : (hllClear s).rd F.HLL_TURN_TURNS = 0 ∧ ∀ g, g < 16 → ∀ f ∈ hllCounters, (hllClear s).rd f g = 0 := by
  refine ⟨by rw [hllClear, State.rd_wr_same, Nat.zero_mod], fun g hg f hf => ?_⟩
  have hreset : ∀ f ∈ hllCounters, f.rstAt = [] ∧ f.rst = 0 := by decide
  obtain ⟨hat, hrst⟩ := hreset f hf
  have hzero : f.reset g = 0 := by rw [Fld.reset, hat, hrst, SMap.getD_nil]
  exact State.rd_clear_of_zero _ _ _ hzero (State.clearFields_same s hf hzero hg)

/-- What the action of HLL_CTL leaves of the registers when `CNT_CLR` is written: the stored fields, and every counter cleared. -/
theorem writeHook_hllCtl_clears {s : State} {who v : Nat} (hmay : MayWrite s who .HLL_CTL 0 F.HLL_CTL_CNT_CLR) :
    ∃ t u, writeHook s who .HLL_CTL 0 0 (withBits v [(F.HLL_CTL_CNT_CLR, 1)]) = okH u ∧ u.regs = (hllClear t).regs := by
  have hclr : F.HLL_CTL_CNT_CLR.hit (writtenWord s who .HLL_CTL 0 (withBits v [(F.HLL_CTL_CNT_CLR, 1)])) = true := by
    rw [Fld.hit, writtenWord_set (by decide) hmay]
    rfl
  refine ⟨storeFields s .HLL_CTL 0 0 (withBits v [(F.HLL_CTL_CNT_CLR, 1)]) (mayField (letters s .HLL_CTL who 0 true)), _, rfl, ?_⟩
  rw [show ownIdx .HLL_CTL who 0 = 0 from rfl, if_pos hclr]
  split
  · obtain ⟨-, -, -, -, hregs, -⟩ := (autoBalance_reach (hllClear
      (storeFields s .HLL_CTL 0 0 (withBits v [(F.HLL_CTL_CNT_CLR, 1)]) (mayField (letters s .HLL_CTL who 0 true))))).same
    exact hregs
  · rfl

/-- No record of an access lies among the counters of HLL. -/
theorem hllCounters_not_lasPlace {g : Nat} (hg : g < 16) : ∀ f ∈ hllCounters, lasPlace (f.at g 0) = false := by
  intro f hf
  have hplace : ∀ f ∈ hllCounters, 1600 ≤ f.key ∧ f.key + f.s1 * 16 < 2 ^ 28 := by decide
  obtain ⟨hlow, hhigh⟩ := hplace f hf
  have hstride : f.s1 * g ≤ f.s1 * 16 := Nat.mul_le_mul_left _ hg.le
  exact not_lasPlace (by simp only [Fld.at]; omega) (by simp only [Fld.at]; omega)

/-! ## The commands -/

theorem exec_turnGo (who : Fin 18) (v : Word) (s : State) :
    exec (.turnGo who v) s = .next (writeBy s who.val .HLL_TURN 0 0 (withBits v.toNat [(F.HLL_TURN_TURN_GO, 1)])) := rfl

theorem exec_hllCntClr (who : Fin 18) (v : Word) (s : State) :
    exec (.hllCntClr who v) s = .next (writeBy s who.val .HLL_CTL 0 0 (withBits v.toNat [(F.HLL_CTL_CNT_CLR, 1)])) := rfl

/-- Settles O11: R74's test decides whether the register's action asks for the turn or refuses it; `CNT_CLR` clears each counter, and neither automatic
balance nor the record of the access writes one. -/
theorem linkRegisterWrites : Obligations.LinkRegisterWrites := by
  unfold Obligations.LinkRegisterWrites
  refine ⟨fun s who v ⟨hready, hmay⟩ => ?_, fun s who v ⟨hready, hmay⟩ => ?_⟩
  · have hgo := turnWord_go (v := v.toNat) (hmay _ (by simp))
    have hgrp : F.HLL_TURN_TURN_GRP.val (turnWord s who.val v.toNat) = F.HLL_TURN_TURN_GRP.val v.toNat := turnWord_val _ (by decide) (hmay _ (by simp))
    have hdir : F.HLL_TURN_TURN_DIR.hit (turnWord s who.val v.toNat) = F.HLL_TURN_TURN_DIR.hit v.toNat := by
      rw [Fld.hit, turnWord_val _ (by decide) (hmay _ (by simp)), Fld.hit]
    rw [← hgrp, ← hdir]
    refine ⟨fun hok => ?_, fun c hc hno => ?_⟩
    · have hhook := hookTurn_allowed (storeFields s .HLL_TURN 0 0 (withBits v.toNat [(F.HLL_TURN_TURN_GO, 1)])
        (mayField (letters s .HLL_TURN who.val 0 true))) hgo hok
      rw [turnWord, ← writeHook_hllTurn] at hhook
      have hrun := writeBy_ok _ _ _ _ _ _ regAt_hllTurn hready (by rw [hhook]; rfl) rfl
      rw [hhook] at hrun
      refine ⟨_, by rw [exec_turnGo, hrun], recordAcc_res .., ?_⟩
      rw [recordAcc_link]
      obtain ⟨hseq, hreq⟩ := requestTurn_link (storeFields s .HLL_TURN 0 0 (withBits v.toNat [(F.HLL_TURN_TURN_GO, 1)])
        (mayField (letters s .HLL_TURN who.val 0 true))) (F.HLL_TURN_TURN_GRP.val (turnWord s who.val v.toNat))
        (F.HLL_TURN_TURN_DIR.hit (turnWord s who.val v.toNat))
      rw [storeFields_link] at hseq hreq
      exact ⟨hseq, _, hreq, rfl, rfl, rfl, rfl⟩
    · subst hc
      have hhook := hookTurn_refused (storeFields s .HLL_TURN 0 0 (withBits v.toNat [(F.HLL_TURN_TURN_GO, 1)])
        (mayField (letters s .HLL_TURN who.val 0 true))) hgo hno
      refine ⟨_, ?_, recordAcc_res s who.val true (regOffset .HLL_TURN 0 0) _ 0, recordAcc_link .., recordAcc_out ..⟩
      rw [exec_turnGo, writeBy_refused regAt_hllTurn hready hhook (turnCheck_refuses hno) rfl]
  · obtain ⟨t, u, hhook, hregs⟩ := writeHook_hllCtl_clears (v := v.toNat) (hmay _ (List.mem_singleton.2 rfl))
    have hrun := writeBy_ok _ _ _ _ _ _ regAt_hllCtl hready (by rw [hhook]; rfl) rfl
    rw [hhook] at hrun
    obtain ⟨hturns, hcounters⟩ := hllClear_rd t
    have hrd (f : Fld) (g : Nat) : (okH u).2.2.rd f g = (hllClear t).rd f g := by
      unfold State.rd
      rw [← hregs]
      rfl
    refine ⟨_, by rw [exec_hllCntClr, hrun], recordAcc_res .., ?_, fun g hg f hf => ?_⟩
    · rw [recordAcc_rd _ _ _ _ _ _ who.isLt _ _ _ (by decide), hrd, hturns]
    · rw [recordAcc_rd _ _ _ _ _ _ who.isLt _ _ _ (hllCounters_not_lasPlace hg f hf), hrd, hcounters g hg f hf]

end Sys2Proof.Machine


/-! SUPPORT. What sending comes to: it adds flits at the end of what has left the stack and of a group's replay buffer (R57, R59), and besides its queues
it may change homes, the request for a turn and a turn's step. -/

namespace Sys2Proof.Machine

/-! ## Sending adds at the end -/

/-- What sending adds stands at the end: of what has left the stack, and of each group's replay buffer. -/
def Appends (s t : State) : Prop := s.out <+: t.out ∧ ∀ g, (s.grp g).replay <+: (t.grp g).replay

theorem Appends.refl (s : State) : Appends s s := ⟨List.prefix_rfl, fun _ => List.prefix_rfl⟩

theorem Appends.trans {s t u : State} (h : Appends s t) (k : Appends t u) : Appends s u := ⟨h.1.trans k.1, fun g => (h.2 g).trans (k.2 g)⟩

theorem Appends.ite {s a b : State} {c : Prop} [Decidable c] (ha : Appends s a) (hb : Appends s b) : Appends s (if c then a else b) := by
  split
  · exact ha
  · exact hb

/-- A group's replay buffer grows, and flits leave. -/
theorem Appends.setGrp {s : State} {g : Nat} {x : Grp} (h : (s.grp g).replay <+: x.replay) (l : List Out) :
    Appends s { s.setGrp g x with out := s.out ++ l } := by
  refine ⟨List.prefix_append _ _, fun k => ?_⟩
  show _ <+: ((s.setGrp g x).grp k).replay
  by_cases hk : k = g
  · subst hk
    rwa [State.setGrp_grp_same]
  · rw [State.setGrp_grp_ne _ _ _ _ hk]

/-- A change of the link that leaves the groups. -/
theorem Appends.link {s : State} {l : Link} (h : l.grp = s.link.grp) : Appends s { s with link := l } := by
  refine ⟨List.prefix_rfl, fun g => ?_⟩
  rw [show State.grp { s with link := l } g = s.grp g by simp only [State.grp, h]]

/-- A change of the queues. -/
theorem Appends.queues (s : State) (resend items vc2Out : List (List Byte)) (vc2Avail : Nat) :
    Appends s { s with link := { s.link with resend := resend, items := items, vc2Out := vc2Out, vc2Avail := vc2Avail } } := .link rfl

theorem emit_appends (s : State) (g : Nat) (fl : List TxFlit) : Appends s (emit s g fl) := by
  unfold emit
  refine .ite (.refl s) ?_
  dsimp only
  rw [List.append_assoc]
  exact .setGrp (by exact List.prefix_rfl) _

theorem sendFlit_appends (s : State) (g ftype : Nat) (area : List Byte) (ends : List (List Byte)) : Appends s (sendFlit s g ftype area ends) := by
  unfold sendFlit
  refine Appends.trans ?_ (emit_appends ..)
  have h := Appends.setGrp (s := s) (g := g) (x := { s.grp g with
    txNext := ((s.grp g).txNext + 1) % 1024, fresh := false, replay := (s.grp g).replay ++ [{
      fseq := (s.grp g).txNext, ftype := if (s.grp g).fresh && ftype = 1 then 2 else ftype, area := area, ends := ends }] })
    (List.prefix_append _ _) []
  rwa [List.append_nil] at h

theorem markConfig_appends (s : State) (g : Nat) (i : List Byte) : Appends s (markConfig s g i) := .ite (.link rfl) (.refl s)

theorem placePacket_appends (s : State) (g : Nat) (p : List Byte) : Appends s (placePacket s g p) :=
  .ite (sendFlit_appends ..) ((sendFlit_appends ..).trans (sendFlit_appends ..))

theorem drainHome_appends (n : Nat) (s : State) : Appends s (drainHome n s) := by
  induction n generalizing s with
  | zero => exact .refl s
  | succ n ih =>
    unfold drainHome
    split
    · exact .refl s
    · split
      · exact .ite (((Appends.queues s _ _ _ _).trans (placePacket_appends ..)).trans (ih _)) (.refl s)
      · split
        · exact .ite ((((Appends.queues s _ _ _ _).trans (markConfig_appends ..)).trans (sendFlit_appends ..)).trans (ih _)) (.refl s)
        · split
          · exact .refl s
          · exact .ite (((Appends.queues s _ _ _ _).trans (placePacket_appends ..)).trans (ih _)) (.refl s)

/-! ## What sending may change -/

/-- What sending, LAST, and changes of homes and of the request for a turn come to. -/
def Sends (s t : State) : Prop :=
  (∃ grp homeH homeD resend items vc2Out vc2Avail capOld turn turnReq tseq out, t = { s with
    link := { s.link with grp := grp, homeH := homeH, homeD := homeD, resend := resend, items := items, vc2Out := vc2Out, vc2Avail := vc2Avail,
                          capOld := capOld, turn := turn, turnReq := turnReq, tseq := tseq }
    out := out }) ∧ (∀ g, GrpSent (s.grp g) (t.grp g)) ∧ Appends s t

theorem Sends.refl (s : State) : Sends s s := ⟨⟨_, _, _, _, _, _, _, _, _, _, _, _, rfl⟩, fun _ => .refl _, .refl s⟩

theorem Sends.trans {s t u : State} (h : Sends s t) (k : Sends t u) : Sends s u := by
  obtain ⟨⟨_, _, _, _, _, _, _, _, _, _, _, _, rfl⟩, hgrp, hadd⟩ := h
  obtain ⟨⟨_, _, _, _, _, _, _, _, _, _, _, _, rfl⟩, kgrp, kadd⟩ := k
  exact ⟨⟨_, _, _, _, _, _, _, _, _, _, _, _, rfl⟩, fun g => (hgrp g).trans (kgrp g), hadd.trans kadd⟩

theorem Sends.ite {s a b : State} {c : Prop} [Decidable c] (ha : Sends s a) (hb : Sends s b) : Sends s (if c then a else b) := by
  split
  · exact ha
  · exact hb

theorem SendReach.toSends {s t : State} (h : SendReach s t) (ha : Appends s t) : Sends s t := by
  obtain ⟨⟨_, _, _, _, _, _, _, rfl⟩, hgrp⟩ := h
  exact ⟨⟨_, _, _, _, _, _, _, _, _, _, _, _, rfl⟩, hgrp, ha⟩

theorem sendFlit_sends (s : State) (g ftype : Nat) (area : List Byte) (ends : List (List Byte)) : Sends s (sendFlit s g ftype area ends) :=
  (sendFlit_reach ..).toSends (sendFlit_appends ..)

theorem emit_sends (s : State) (g : Nat) (fl : List TxFlit) : Sends s (emit s g fl) := (emit_reach ..).toSends (emit_appends ..)

theorem drain_sends (s : State) : Sends s (drain s) := (drain_reach s).toSends (drainHome_appends _ s)

/-- A change of the queues, the homes, the turn and the request for one. -/
theorem Sends.link (s : State) (homeH homeD : Option Nat) (resend items vc2Out : List (List Byte)) (turn turnReq : Option Turn) (tseq : Nat) :
    Sends s { s with link := { s.link with
      homeH := homeH, homeD := homeD, resend := resend, items := items, vc2Out := vc2Out, turn := turn, turnReq := turnReq, tseq := tseq } } :=
  ⟨⟨_, _, _, _, _, _, _, _, _, _, _, _, rfl⟩, fun _ => .refl _, .link rfl⟩

theorem Sends.turn (s : State) (turn : Option Turn) : Sends s { s with link.turn := turn } := .link ..

theorem sendItem_sends (s : State) (i : List Byte) : Sends s (sendItem s i) := (Sends.link ..).trans (drain_sends _)

theorem sendVc2_sends (s : State) (p : List Byte) : Sends s (sendVc2 s p) := (Sends.link ..).trans (drain_sends _)

theorem fixHome_sends (s : State) (dir : Bool) : Sends s (fixHome s dir) := by
  unfold fixHome
  cases dir <;> exact .link ..

theorem requestTurn_sends (s : State) (g : Nat) (dir : Bool) : Sends s (requestTurn s g dir) := by
  unfold requestTurn
  exact Sends.trans (.link ..) (sendVc2_sends ..)

theorem autoBalance_sends (s : State) : Sends s (autoBalance s) := by
  unfold autoBalance
  dsimp only
  split
  · exact .ite (requestTurn_sends ..) (.refl s)
  · exact .refl s

theorem dropTurn_sends (s : State) : Sends s (dropTurn s) := by
  unfold dropTurn
  split
  · exact .link ..
  · exact .refl s

theorem tryLast_sends (s : State) : Sends s (tryLast s) := by
  unfold tryLast
  split
  · exact .refl s
  next t _ =>
    have hstart : Sends s (if (s.grp t.grp).fresh then sendFlit s t.grp 1 [] [] else s) := .ite (sendFlit_sends ..) (.refl s)
    exact .ite ((hstart.trans (sendFlit_sends ..)).trans (.turn ..)) (.refl s)

theorem spareStream_sends (s : State) (g : Nat) : Sends s (spareStream s g) := by
  unfold spareStream
  dsimp only
  split
  · exact .ite ⟨⟨_, _, _, _, _, _, _, _, _, _, _, _, rfl⟩, fun _ => .refl _, List.prefix_append _ _, fun _ => List.prefix_rfl⟩ (.refl s)
  · exact .refl s

/-- What sending leaves as it was. -/
theorem Sends.same {s t : State} (h : Sends s t) :
    t.now = s.now ∧ t.regs = s.regs ∧ t.mem = s.mem ∧ t.rqe = s.rqe ∧ t.fcr = s.fcr ∧ t.pck = s.pck ∧ t.tsv = s.tsv := by
  obtain ⟨⟨_, _, _, _, _, _, _, _, _, _, _, _, rfl⟩, -⟩ := h
  exact ⟨rfl, rfl, rfl, rfl, rfl, rfl, rfl⟩

/-- A register field reads the same after sending. -/
theorem Sends.rd {s t : State} (h : Sends s t) (f : Fld) (i j : Nat) : t.rd f i j = s.rd f i j := by
  obtain ⟨-, hregs, -⟩ := h.same
  rw [State.rd, hregs]
  rfl

/-- What sending leaves of the link. -/
theorem Sends.sameLink {s t : State} (h : Sends s t) :
    t.link.up = s.link.up ∧ t.link.everUp = s.link.everUp ∧ t.link.cfgRx = s.link.cfgRx ∧ t.link.cfgSent = s.link.cfgSent ∧
    t.link.cfgDue = s.link.cfgDue ∧ t.link.vc1Avail = s.link.vc1Avail ∧ t.link.vc1Last = s.link.vc1Last ∧ t.link.vc2Last = s.link.vc2Last ∧
    t.link.lastStatus = s.link.lastStatus ∧ t.link.credUnrep = s.link.credUnrep ∧ t.link.vc2Unrep = s.link.vc2Unrep := by
  obtain ⟨⟨_, _, _, _, _, _, _, _, _, _, _, _, rfl⟩, -⟩ := h
  exact ⟨rfl, rfl, rfl, rfl, rfl, rfl, rfl, rfl, rfl, rfl, rfl⟩

/-- What sending leaves of a group. -/
theorem Sends.group {s t : State} (h : Sends s t) (g : Nat) :
    (t.grp g).inSvc = (s.grp g).inSvc ∧ (t.grp g).dir = (s.grp g).dir ∧ (t.grp g).txAcked = (s.grp g).txAcked ∧
    (t.grp g).replaying = (s.grp g).replaying ∧ (t.grp g).unrep = (s.grp g).unrep ∧ (t.grp g).carry = (s.grp g).carry := by
  obtain ⟨_, _, _, _, _, heq, -⟩ := h.2.1 g
  rw [heq]
  exact ⟨rfl, rfl, rfl, rfl, rfl, rfl⟩

/-- A group that is not QUIET keeps its state while the stack sends. -/
theorem Sends.gst {s t : State} (h : Sends s t) {g : Nat} (hq : (s.grp g).gst ≠ .quiet) : (t.grp g).gst = (s.grp g).gst := by
  obtain ⟨a, _, _, _, _, heq, ha⟩ := h.2.1 g
  rw [heq]
  rcases ha with rfl | ⟨hquiet, -⟩
  · rfl
  · exact absurd hquiet hq

/-- The groups in service in a direction are the same after sending. -/
theorem Sends.inService {s t : State} (h : Sends s t) (dir : Bool) : inService t dir = inService s dir := by
  unfold Machine.inService
  refine List.filter_congr fun g _ => ?_
  obtain ⟨hin, hdir, -⟩ := h.group g
  rw [hin, hdir]

/-- What sending adds to what has left the stack. -/
theorem Sends.out {s t : State} (h : Sends s t) : ∃ rest, t.out = s.out ++ rest := by
  obtain ⟨-, -, ⟨rest, heq⟩, -⟩ := h
  exact ⟨rest, heq.symm⟩

/-- What sending adds to a group's replay buffer. -/
theorem Sends.replay {s t : State} (h : Sends s t) (g : Nat) : ∃ rest, (t.grp g).replay = (s.grp g).replay ++ rest := by
  obtain ⟨-, -, -, hrep⟩ := h
  obtain ⟨rest, heq⟩ := hrep g
  exact ⟨rest, heq.symm⟩

/-! ## Flits that leave -/

/-- The flits of a group as they leave, each with the bits that injection inverts in it. -/
def flitsOut (g : Nat) (fl : List TxFlit) (flips : List (List Nat)) : List Out :=
  List.zipWith (fun f x => Out.flit g f.fseq f.ftype f.area x) fl flips

/-- Flits leave one after another, behind the wake preamble where the group is QUIET; without an injection no bit is inverted. -/
theorem emit_out {s : State} {g : Nat} {fl : List TxFlit} (h : fl ≠ []) : ∃ flips : List (List Nat), flips.length = fl.length ∧
    ((s.grp g).injAct = false → (s.grp g).injBurst = 0 → ∀ x ∈ flips, x = []) ∧
    (emit s g fl).out = s.out ++ (if (s.grp g).gst = .quiet then [Out.square g] else []) ++ flitsOut g fl flips := by
  unfold emit
  rw [if_neg (by simpa using h)]
  extract_lets x pre t0 u
  refine ⟨(List.range fl.length).map fun k => flipsAt u g (t0 + 8 * k), by simp, fun hact hburst flip hflip => ?_, ?_⟩
  · obtain ⟨k, -, rfl⟩ := List.mem_map.1 hflip
    refine flipsAt_of_no_injection _ ?_ ?_
    · rw [State.setGrp_grp_same]
      exact hact
    · rw [State.setGrp_grp_same]
      exact hburst
  · refine congrArg (s.out ++ pre ++ ·) (List.ext_getElem ?_ fun k _ _ => ?_)
    · simp [flitsOut]
    · simp [flitsOut]

end Sys2Proof.Machine


/-! SUPPORT. The link items: STATUS (R57, R59, R64), NAK and its replay (R57), CONFIG (R65). -/

namespace Sys2Proof.Machine

/-! ## STATUS that the stack sends (R59) -/

/-- Nothing that a STATUS reports is unreported on these groups any more. -/
def markReported (s : State) (gs : List Nat) : State := gs.foldl (fun t g => t.modGrp g fun x => { x with unrep := false }) s

theorem markReported_of_reported {s : State} {g : Nat} (gs : List Nat) (h : (s.grp g).unrep = false) : ((markReported s gs).grp g).unrep = false := by
  induction gs generalizing s with
  | nil => exact h
  | cons k r ih =>
    refine ih ?_
    by_cases hk : g = k
    · subst hk
      rw [State.modGrp_grp_same]
    · rw [State.modGrp_grp_ne _ _ _ _ hk, h]

theorem markReported_grp {s : State} {g : Nat} {gs : List Nat} (h : g ∈ gs) : ((markReported s gs).grp g).unrep = false := by
  induction gs generalizing s with
  | nil => exact absurd h List.not_mem_nil
  | cons k r ih =>
    rcases List.mem_cons.1 h with rfl | hr
    · exact markReported_of_reported r (by rw [State.modGrp_grp_same])
    · exact ih (s := s.modGrp k fun x => { x with unrep := false }) hr

theorem markReported_same (s : State) (gs : List Nat) : (markReported s gs).regs = s.regs ∧ (markReported s gs).mem = s.mem := by
  induction gs generalizing s with
  | nil => exact ⟨rfl, rfl⟩
  | cons k r ih => exact ih (s.modGrp k fun x => { x with unrep := false })

/-- A STATUS as it is sent: first nothing is unreported any more, then its items go. -/
theorem sendStatus_sends (s : State) : Sends { markReported s ((List.range 16).filter (ackMember s)) with
    link := { (markReported s ((List.range 16).filter (ackMember s))).link with
      credUnrep := false, vc2Unrep := false, lastStatus := some (markReported s ((List.range 16).filter (ackMember s))).now } } (sendStatus s) := by
  unfold sendStatus
  exact .ite ((sendItem_sends ..).trans (sendItem_sends ..)) (sendItem_sends ..)

theorem markReported_now (s : State) (gs : List Nat) : (markReported s gs).now = s.now := by
  induction gs generalizing s with
  | nil => rfl
  | cons k r ih => exact ih (s.modGrp k fun x => { x with unrep := false })

/-! ## STATUS that the stack receives (R57, R64) -/

/-- The acknowledgements of a STATUS, in ascending group order. -/
def ackAll (mask : Nat) (acks : List Nat) (s : State) : State :=
  (List.zip (onesOf mask 16) acks).foldl (fun t p => if (t.grp p.1).dir then ackTo t p.1 (p.2 % 1024) else t) s

/-- The releases of a STATUS, `d1` and `d2` cells up to the totals `v1` and `v2`. -/
def creditStatus (d1 d2 v1 v2 : Nat) (s : State) : State :=
  { s with link := { s.link with vc1Avail := s.link.vc1Avail + d1, vc2Avail := s.link.vc2Avail + d2, vc1Last := v1, vc2Last := v2 } }

/-- Acknowledgements and releases, by which LAST and what waited may go. -/
theorem receiveStatus_eq (mask : Nat) (acks : List Nat) (vc1 vc2 : Nat) (s : State) : receiveStatus mask acks vc1 vc2 s =
    drain (tryLast (creditStatus ((vc1 + 2 ^ 32 - (ackAll mask acks s).link.vc1Last) % 2 ^ 32)
      ((vc2 + 2 ^ 16 - (ackAll mask acks s).link.vc2Last) % 2 ^ 16) (vc1 % 2 ^ 32) (vc2 % 2 ^ 16) (ackAll mask acks s))) := rfl

theorem creditStatus_grp (d1 d2 v1 v2 : Nat) (s : State) (g : Nat) : (creditStatus d1 d2 v1 v2 s).grp g = s.grp g := rfl

/-- What sending leaves of the releases. -/
theorem Sends.credited {s t : State} {d1 d2 v1 v2 : Nat} (h : Sends (creditStatus d1 d2 v1 v2 s) t) :
    t.link.vc1Last = v1 ∧ t.link.vc2Last = v2 ∧ t.link.vc1Avail = s.link.vc1Avail + d1 ∧ t.mem = s.mem ∧ t.regs = s.regs := by
  obtain ⟨-, hregs, hmem, -⟩ := h.same
  obtain ⟨-, -, -, -, -, havail, hvc1, hvc2, -⟩ := h.sameLink
  exact ⟨hvc1, hvc2, havail, hmem, hregs⟩

theorem Sends.caps (s : State) (caps : SMap (Nat × Option (Nat × Nat))) : Sends s { s with link.capOld := caps } :=
  ⟨⟨_, _, _, _, _, _, _, _, _, _, _, _, rfl⟩, fun _ => .refl _, .link rfl⟩

theorem pruneCaps_eq (s : State) : ∃ caps, pruneCaps s = { s with link.capOld := caps } := by
  unfold pruneCaps
  split
  · exact ⟨_, rfl⟩
  · exact ⟨_, rfl⟩

/-- What a received STATUS comes to after its acknowledgements: the releases, and what waited goes. -/
theorem statusItemIn_sends {s : State} {g : Nat} (mask : Nat) (acks : List Nat) (vc1 vc2 : Nat) (h : hears s g = true) :
    ∃ d2, Sends (creditStatus ((vc1 + 2 ^ 32 - (ackAll mask acks s).link.vc1Last) % 2 ^ 32) d2 (vc1 % 2 ^ 32) (vc2 % 2 ^ 16) (ackAll mask acks s))
      (statusItemIn g mask acks vc1 vc2 s) := by
  rw [statusItemIn, if_pos h]
  obtain ⟨caps, hcaps⟩ := pruneCaps_eq (receiveStatus mask acks vc1 vc2 s)
  rw [hcaps, receiveStatus_eq]
  exact ⟨_, ((tryLast_sends _).trans (drain_sends _)).trans (.caps ..)⟩

theorem ackAll_nil (mask : Nat) (s : State) : ackAll mask [] s = s := by rw [ackAll, List.zip_nil_right, List.foldl_nil]

/-- The one group of a mask of one. -/
theorem onesOf_pow (n : Fin 16) : onesOf (BitVec.ofNat 16 (2 ^ n.val)).toNat 16 = [n.val] := by
  revert n
  decide

/-- One acknowledgement of a group on which the stack sends. -/
theorem ackAll_one {s : State} {n : Fin 16} {a : Nat} (hdir : (s.grp n.val).dir = true) (ha : a < 1024) :
    ackAll (BitVec.ofNat 16 (2 ^ n.val)).toNat [a] s = ackTo s n.val a := by
  rw [ackAll, onesOf_pow]
  show (if (s.grp n.val).dir then ackTo s n.val (a % 1024) else s) = _
  rw [if_pos hdir, Nat.mod_eq_of_lt ha]

/-- The flits up to the one acknowledged leave the replay buffer. -/
theorem ackTo_grp {s : State} {g a k : Nat} (h : (s.grp g).replay.findIdx? (·.fseq == a) = some k) :
    (ackTo s g a).grp g = { s.grp g with replay := (s.grp g).replay.drop (k + 1), txAcked := a, replaying := none } := by
  simp only [ackTo, h, State.setGrp_grp_same]

/-! ## NAK (R57, R60) -/

/-- A replay episode counts in its group and raises; nothing leaves the stack. -/
theorem countEpisode_spec (s : State) (g : Nat) : (∃ n start, (countEpisode s g).grp g = { s.grp g with epCnt := n, epStart := start }) ∧
    (countEpisode s g).out = s.out ∧ (countEpisode s g).mem = s.mem := by
  unfold countEpisode
  extract_lets u x fresh n v
  have hv : v.grp g = { s.grp g with epCnt := n, epStart := if fresh then u.now else x.epStart } := State.setGrp_grp_same ..
  split
  · obtain ⟨_, _, _, _, _, hraise, -⟩ := State.raise_reach v (192 + 3 * g + 2) .warn [g + min n 255 * 256]
    exact ⟨⟨_, _, (State.raise_grp ..).trans hv⟩, by rw [hraise]; rfl, by rw [hraise]; rfl⟩
  · exact ⟨⟨_, _, hv⟩, rfl, rfl⟩

/-- A replay from a flit that is held: its episode counts, then the flits leave. -/
theorem replayFrom_eq {s : State} {g e k : Nat} (h : (s.grp g).replay.findIdx? (·.fseq == e) = some k) : ∃ acked until',
    replayFrom s g e = emit ((countEpisode s g).setGrp g
      { (countEpisode s g).grp g with replay := (s.grp g).replay.drop k, txAcked := acked, replaying := until' }) g ((s.grp g).replay.drop k) := by
  unfold replayFrom
  simp only [h]
  exact ⟨_, _, rfl⟩

/-- What a replay sets in its group is neither its state nor its injection. -/
theorem replaying_line (x : Grp) (keep : List TxFlit) (acked : Nat) (until' : Option (Nat × Nat)) {P : GState → Bool → Nat → Prop}
    (h : P x.gst x.injAct x.injBurst) : P ({ x with replay := keep, txAcked := acked, replaying := until' } : Grp).gst
      ({ x with replay := keep, txAcked := acked, replaying := until' } : Grp).injAct
      ({ x with replay := keep, txAcked := acked, replaying := until' } : Grp).injBurst := h

/-- Flits leave a group that is stored with the line and the injection of `y`. -/
theorem emit_setGrp_out {s : State} {g : Nat} {x y : Grp} {fl : List TxFlit} (hline : x.gst = y.gst ∧ x.injAct = y.injAct ∧ x.injBurst = y.injBurst)
    (h : fl ≠ []) : ∃ flips : List (List Nat), flips.length = fl.length ∧ (y.injAct = false → y.injBurst = 0 → ∀ x ∈ flips, x = []) ∧
      (emit (s.setGrp g x) g fl).out = s.out ++ (if y.gst = .quiet then [Out.square g] else []) ++ flitsOut g fl flips := by
  obtain ⟨hgst, hact, hburst⟩ := hline
  have hemit := emit_out (s := s.setGrp g x) (g := g) h
  rwa [State.setGrp_grp_same, State.setGrp_out, hgst, hact, hburst] at hemit

/-- A replay from a flit that is held sends it and every later one again. -/
theorem replayFrom_out {s : State} {g e k : Nat} (h : (s.grp g).replay.findIdx? (·.fseq == e) = some k) :
    ∃ flips : List (List Nat), flips.length = ((s.grp g).replay.drop k).length ∧
      ((s.grp g).injAct = false → (s.grp g).injBurst = 0 → ∀ x ∈ flips, x = []) ∧ (replayFrom s g e).mem = s.mem ∧
      (replayFrom s g e).out =
        s.out ++ (if (s.grp g).gst = .quiet then [Out.square g] else []) ++ flitsOut g ((s.grp g).replay.drop k) flips := by
  obtain ⟨hk, -⟩ := List.findIdx?_eq_some_iff_getElem.1 h
  have hkeep : (s.grp g).replay.drop k ≠ [] := by
    rw [Ne, List.drop_eq_nil_iff]
    omega
  obtain ⟨⟨n, start, hgrp⟩, hout, hmem⟩ := countEpisode_spec s g
  obtain ⟨acked, until', hrun⟩ := replayFrom_eq h
  have hline : ((countEpisode s g).grp g).gst = (s.grp g).gst ∧ ((countEpisode s g).grp g).injAct = (s.grp g).injAct ∧
      ((countEpisode s g).grp g).injBurst = (s.grp g).injBurst := by
    rw [hgrp]
    exact ⟨rfl, rfl, rfl⟩
  rw [hrun]
  obtain ⟨-, -, hsame, -⟩ := (emit_sends ((countEpisode s g).setGrp g
    { (countEpisode s g).grp g with replay := (s.grp g).replay.drop k, txAcked := acked, replaying := until' }) g ((s.grp g).replay.drop k)).same
  rw [hsame, State.setGrp_mem, hmem, ← hout]
  obtain ⟨flips, hlen, hclean, hemit⟩ := emit_setGrp_out (s := countEpisode s g) (g := g)
    (x := { (countEpisode s g).grp g with replay := (s.grp g).replay.drop k, txAcked := acked, replaying := until' }) (y := s.grp g)
    (replaying_line (P := fun a b c => a = (s.grp g).gst ∧ b = (s.grp g).injAct ∧ c = (s.grp g).injBurst) _ _ _ _ hline) hkeep
  exact ⟨flips, hlen, hclean, rfl, hemit⟩

/-! ## CONFIG (R65) -/

/-- What a received CONFIG comes to: the partner's pools, then what waited goes. -/
theorem receiveConfig_sends (vc1 vc2 : Nat) (s : State) : ∃ avail1 avail2, (s.link.cfgRx = none → avail1 = vc1) ∧
    Sends { s with link := { s.link with cfgRx := some (vc1, vc2), vc1Avail := avail1, vc2Avail := avail2 } } (receiveConfig vc1 vc2 s) := by
  unfold receiveConfig
  refine ⟨_, _, fun hnone => ?_, (drain_sends _).trans (autoBalance_sends _)⟩
  rw [hnone]

/-- An advertisement that is sent. -/
theorem sendConfig_sends (s : State) : ∃ items, Sends { s with link := { s.link with cfgSent := true, cfgDue := false, items := items } } (sendConfig s) :=
  ⟨_, drain_sends _⟩

/-! ## The commands -/

theorem exec_statusSend (s : State) : exec .statusSend s = .next (if statusDue s then sendStatus s else s) := rfl

theorem exec_status (g : Fin 16) (mask : BitVec 16) (acks : List Nat) (vc1 : BitVec 32) (vc2 : BitVec 16) (s : State) :
    exec (.status g mask acks vc1 vc2) s = .next (statusItemIn g.val mask.toNat acks vc1.toNat vc2.toNat s) := rfl

/-- A NAK that the stack hears, for a group on which it sends and no replay runs. -/
theorem exec_nak {s : State} {g n : Fin 16} (e : BitVec 10) (h : hears s g.val = true) (hdir : (s.grp n.val).dir = true)
    (hin : (s.grp n.val).inSvc = true) (hnone : (s.grp n.val).replaying = none) :
    exec (.nak g n e) s = .next (drain (tryLast (replayFrom s n.val e.toNat))) := by
  show Host.Outcome.next (nakItemIn g.val n.val e.toNat s) = _
  simp [nakItemIn, h, receiveNak, hdir, hin, hnone]

theorem exec_config {s : State} {g : Fin 16} (vc1 : BitVec 20) (vc2 : BitVec 12) (h : hears s g.val = true) :
    exec (.config g vc1 vc2) s = .next (receiveConfig vc1.toNat vc2.toNat s) := congrArg Host.Outcome.next (if_pos h)

theorem exec_configSend (s : State) : exec .configSend s = .next (if s.link.cfgDue && s.link.homeD.isSome then sendConfig s else s) := rfl

/-- Settles O24: each item's own change is made first, and the sending that follows (`Sends`) leaves it; what sending adds stands at the end. -/
theorem statusNakAndConfigItems : Obligations.StatusNakAndConfigItems := by
  unfold Obligations.StatusNakAndConfigItems
  refine ⟨fun s => ⟨fun hdue => ?_, fun hdue => ?_⟩, fun s g vc1 vc2 hhears => ?_, fun s g n a k vc1 vc2 hhears hdir ha hfound => ?_,
    fun s g n e k hhears hdir hin hnone hfound => ?_, fun s g vc1 vc2 hhears => ?_, fun s g hhome => ⟨fun hdue => ?_, fun hdue => ?_⟩⟩
  · have hsent := sendStatus_sends s
    obtain ⟨-, hregs, hmem, -⟩ := hsent.same
    obtain ⟨-, -, -, -, -, -, -, -, hlast, hcred, hvc2⟩ := hsent.sameLink
    obtain ⟨hregs', hmem'⟩ := markReported_same s ((List.range 16).filter (ackMember s))
    refine ⟨_, by rw [exec_statusSend, if_pos hdue], by rw [hlast, markReported_now], hcred, hvc2, fun g hg hmember => ?_,
      hregs.trans hregs', hmem.trans hmem'⟩
    obtain ⟨-, -, -, -, hunrep, -⟩ := hsent.group g
    rw [hunrep]
    exact markReported_grp (List.mem_filter.2 ⟨List.mem_range.2 hg, hmember⟩)
  · rw [exec_statusSend, hdue]
    rfl
  · obtain ⟨d2, hsent⟩ := statusItemIn_sends (0 : BitVec 16).toNat [] vc1.toNat vc2.toNat hhears
    rw [ackAll_nil, Nat.mod_eq_of_lt vc1.isLt, Nat.mod_eq_of_lt vc2.isLt] at hsent
    exact ⟨_, exec_status .., hsent.credited⟩
  · obtain ⟨d2, hsent⟩ := statusItemIn_sends (BitVec.ofNat 16 (2 ^ n.val)).toNat [a] vc1.toNat vc2.toNat hhears
    rw [ackAll_one hdir ha] at hsent
    have hacked := ackTo_grp hfound
    obtain ⟨-, -, htx, hreplaying, -⟩ := hsent.group n.val
    obtain ⟨rest, hrest⟩ := hsent.replay n.val
    rw [creditStatus_grp, hacked] at htx hreplaying hrest
    exact ⟨_, rest, exec_status .., htx, hreplaying, hrest⟩
  · obtain ⟨flips, hlen, hclean, hmem, hout⟩ := replayFrom_out hfound
    have hsent := (tryLast_sends (replayFrom s n.val e.toNat)).trans (drain_sends _)
    obtain ⟨-, -, hmem', -⟩ := hsent.same
    obtain ⟨rest, hrest⟩ := hsent.out
    exact ⟨_, flips, rest, exec_nak _ hhears hdir hin hnone, hmem'.trans hmem, hlen, hclean, by rw [hrest, hout]; rfl⟩
  · obtain ⟨avail1, avail2, hfirst, hsent⟩ := receiveConfig_sends vc1.toNat vc2.toNat s
    obtain ⟨-, hregs, hmem, -⟩ := hsent.same
    obtain ⟨-, -, hcfg, -, -, havail, -⟩ := hsent.sameLink
    exact ⟨_, exec_config _ _ hhears, hcfg, hregs, hmem, fun hnone => havail.trans (hfirst hnone)⟩
  · obtain ⟨items, hsent⟩ := sendConfig_sends s
    obtain ⟨-, hregs, hmem, -⟩ := hsent.same
    obtain ⟨-, -, -, hsend, hlast, -⟩ := hsent.sameLink
    exact ⟨_, by rw [exec_configSend, if_pos (by simp [hdue, hhome])], hlast, hsend, hregs, hmem⟩
  · rw [exec_configSend, hdue]
    rfl

end Sys2Proof.Machine


/-! SUPPORT. Turns (R69, R74, R75, Table 3.8): what TURN and TURN_ACK say, and the turn and the request for one at each step. -/

namespace Sys2Proof.Machine

/-! ## TURN and TURN_ACK as packets (Table 4.9) -/

/-- The fields of a turn's packet. -/
theorem turnPacket_fields (opc g : Nat) (dir : Bool) (q res : Nat) : leAt (turnPacket opc g dir q res) 0 1 = opc % 256 ∧
    leAt (turnPacket opc g dir q res) 1 1 = (g + 16 * b2n dir) % 256 ∧ leAt (turnPacket opc g dir q res) 2 2 = q % 256 + 256 * (q / 256 % 256) ∧
    leAt (turnPacket opc g dir q res) 4 1 = res % 256 := by
  simp [leAt, slice, turnPacket, u8, u16, leBytes, leNat]

/-- A turn's packet is of eight bytes. -/
theorem turnPacket_len {opc : Nat} (g : Nat) (dir : Bool) (q res : Nat) (h : opc = 0x80 ∨ opc = 0x81) : packetLen (turnPacket opc g dir q res) = 8 := by
  rcases h with rfl | rfl <;> rfl

/-- The group and the direction that it names. -/
theorem turn_group_dir (g : Fin 16) (dir : Bool) : (g.val + 16 * b2n dir) % 256 % 16 = g.val ∧ bit ((g.val + 16 * b2n dir) % 256) 4 = dir := by
  revert g dir
  decide

/-- The state once a turn's packet has been heard: its cell held and given back. -/
def turnHeard (s : State) : State := releaseVc2 (holdVc2 s 0 1) 0 1

/-- A turn's packet that is heard is executed at once, whatever else waits (R62, R112). -/
theorem arriveVc2_turn {s : State} {g opc : Nat} (tg : Nat) (dir : Bool) (q res : Nat) (hopc : opc = 0x80 ∨ opc = 0x81) (hhears : hears s g = true)
    (hcfg : s.link.cfgRx.isSome = true) (hroom : roomVc2 s 0 1 = true) (hwait : vc2Waits s g = false) (hlost : s.link.holdLost = false) :
    arriveVc2 g (turnPacket opc tg dir q res) s = runVc2 (holdVc2 s 0 1) (turnPacket opc tg dir q res) := by
  obtain ⟨hop, -⟩ := turnPacket_fields opc tg dir q res
  have hlen := turnPacket_len tg dir q res hopc
  have hdom : vc2Dom (turnPacket opc tg dir q res) = 0 := by
    rw [vc2Dom, hop, if_pos (by omega)]
  have hbehind : vc2Behind (holdVc2 s 0 1) (turnPacket opc tg dir q res) = false := by
    rw [vc2Behind, hop, Bool.and_eq_false_iff]
    exact .inl (decide_eq_false (by omega))
  have hturn : (leAt (turnPacket opc tg dir q res) 0 1 == 0x80 || leAt (turnPacket opc tg dir q res) 0 1 == 0x81) = true := by
    rw [hop]
    rcases hopc with rfl | rfl <;> rfl
  have hwait' : vc2Waits (holdVc2 s 0 1) g = false := hwait
  have hlost' : (holdVc2 s 0 1).link.holdLost = false := hlost
  have hcells : cellsOf 8 = 1 := rfl
  have hcfg' : s.link.cfgRx.isNone = false := by rw [Option.isNone_eq_false_iff, hcfg]
  simp only [arriveVc2, hlen, hdom, hturn, hcells, hhears, hcfg', hroom, hwait', hlost', consumeVc2, hbehind]
  simp

/-- TURN, heard. -/
theorem exec_turn {s : State} {g : Fin 16} (tg : Fin 16) (dir : Bool) (q : BitVec 16) (hhears : hears s g.val = true)
    (hcfg : s.link.cfgRx.isSome = true) (hroom : roomVc2 s 0 1 = true) (hwait : vc2Waits s g.val = false) (hlost : s.link.holdLost = false) :
    exec (.turn g tg dir q) s = .next (receiveTurn tg.val dir q.toNat (turnHeard s)) := by
  obtain ⟨hop, hbyte, hseq, -⟩ := turnPacket_fields 0x80 tg.val dir q.toNat 0
  obtain ⟨hgrp, hdir⟩ := turn_group_dir tg dir
  have hq : q.toNat % 256 + 256 * (q.toNat / 256 % 256) = q.toNat := by omega
  refine congrArg Host.Outcome.next ((arriveVc2_turn _ _ _ _ (.inl rfl) hhears hcfg hroom hwait hlost).trans ?_)
  simp only [runVc2, hop, hbyte, hseq, hgrp, hdir, hq, turnPacket_len _ _ _ _ (.inl rfl), vc2Dom]
  rfl

/-- TURN_ACK, heard. -/
theorem exec_turnAck {s : State} {g : Fin 16} (tg : Fin 16) (dir : Bool) (q : BitVec 16) (res : BitVec 8) (hhears : hears s g.val = true)
    (hcfg : s.link.cfgRx.isSome = true) (hroom : roomVc2 s 0 1 = true) (hwait : vc2Waits s g.val = false) (hlost : s.link.holdLost = false) :
    exec (.turnAck g tg dir q res) s = .next (receiveTurnAck q.toNat res.toNat (turnHeard s)) := by
  obtain ⟨hop, -, hseq, hres⟩ := turnPacket_fields 0x81 tg.val dir q.toNat res.toNat
  have hq : q.toNat % 256 + 256 * (q.toNat / 256 % 256) = q.toNat := by omega
  have hr : res.toNat % 256 = res.toNat := by omega
  refine congrArg Host.Outcome.next ((arriveVc2_turn _ _ _ _ (.inr rfl) hhears hcfg hroom hwait hlost).trans ?_)
  simp only [runVc2, hop, hseq, hres, hq, hr, turnPacket_len _ _ _ _ (.inr rfl), vc2Dom]
  rfl

/-! ## The turn and the request for one -/

/-- Sending changes neither. -/
theorem SendReach.turns {s t : State} (h : SendReach s t) : t.link.turn = s.link.turn ∧ t.link.turnReq = s.link.turnReq := by
  obtain ⟨-, -, -, -, -, hturn, hreq, -⟩ := h.link
  exact ⟨hturn, hreq⟩

theorem fixHome_turns (s : State) (dir : Bool) : (fixHome s dir).link.turn = s.link.turn ∧ (fixHome s dir).link.turnReq = s.link.turnReq := by
  unfold fixHome
  cases dir <;> exact ⟨rfl, rfl⟩

theorem dropTurn_turn (s : State) : (dropTurn s).link.turn = s.link.turn := by
  unfold dropTurn
  split <;> rfl

theorem dropTurn_turnReq (s : State) : (dropTurn s).link.turnReq = none := by
  unfold dropTurn
  split
  · rfl
  next h => exact h

theorem sendVc2_turns (s : State) (p : List Byte) : (sendVc2 s p).link.turn = s.link.turn ∧ (sendVc2 s p).link.turnReq = s.link.turnReq :=
  (sendVc2_reach s p).turns

theorem State.turn_turns (s : State) (u : Option Turn) : ({ s with link.turn := u } : State).link.turn = u ∧
    ({ s with link.turn := u } : State).link.turnReq = s.link.turnReq := ⟨rfl, rfl⟩

/-- A turn under way keeps its group and direction, and the request stays, when LAST goes. -/
theorem tryLast_turns {s : State} {x : Turn} (h : s.link.turn = some x) :
    (∃ st, (tryLast s).link.turn = some { x with step := st }) ∧ (tryLast s).link.turnReq = s.link.turnReq := by
  unfold tryLast
  simp only [h]
  split
  · refine ⟨⟨.last, (State.turn_turns _ _).1⟩, ?_⟩
    rw [(State.turn_turns _ _).2, (sendFlit_reach ..).turns.2]
    split
    · exact (sendFlit_reach ..).turns.2
    · rfl
  · exact ⟨⟨x.step, h⟩, rfl⟩

/-- Automatic balance may ask for a turn; it begins none. -/
theorem autoBalance_turn (s : State) : (autoBalance s).link.turn = s.link.turn := by
  unfold autoBalance
  dsimp only
  split
  · split
    · exact (sendVc2_turns ..).1
    · rfl
  · rfl

/-- With two groups in service in each direction it asks for none (R70). -/
theorem autoBalance_balanced {s : State} (hh : 2 ≤ (inService s false).length) (hd : 2 ≤ (inService s true).length) : autoBalance s = s := by
  have hh' : ¬(inService s false).length < 2 := by omega
  have hd' : ¬(inService s true).length < 2 := by omega
  simp [autoBalance, hh', hd']

theorem spareStream_turn (s : State) (g : Nat) : (spareStream s g).link.turn = s.link.turn := by
  unfold spareStream
  dsimp only
  split
  · split <;> rfl
  · rfl

/-! ## The steps of Table 3.8 -/

/-- The state when a turn has been accepted, before LAST and what waits are tried. -/
def turnAccepted (s : State) (t : Turn) : State :=
  { (dropTurn (if (s.grp t.grp).dir && (s.grp t.grp).gst == .quiet then { s with out := s.out ++ [Out.square t.grp] } else s)).modGrp t.grp
      fun x => { x with gst := .turn } with
    link.turn := some { t with step := .accepted, wasHome := !(s.grp t.grp).dir && homeOf s false == some t.grp } }

theorem beginTurn_eq (s : State) (t : Turn) :
    beginTurn s t = drain (tryLast (fixHome (turnAccepted s t) (s.grp t.grp).dir)) := rfl

theorem turnAccepted_spec (s : State) (t : Turn) : ((turnAccepted s t).grp t.grp).gst = .turn ∧ (turnAccepted s t).link.turnReq = none ∧
    (turnAccepted s t).regs = s.regs := by
  have hregs (u : State) : (dropTurn u).regs = u.regs := (dropTurn_sends u).same.2.1
  refine ⟨?_, dropTurn_turnReq _, ?_⟩
  · rw [turnAccepted, State.turn_grp, State.modGrp_grp_same]
  · refine (hregs _).trans ?_
    split <;> rfl

/-- A turn that begins: the group is in TURN, and no request is outstanding. -/
theorem beginTurn_spec (s : State) (t : Turn) : (∃ x, (beginTurn s t).link.turn = some x ∧ x.grp = t.grp ∧ x.dir = t.dir ∧ x.tseq = t.tseq ∧
    x.byStack = t.byStack) ∧ (beginTurn s t).link.turnReq = none ∧ ((beginTurn s t).grp t.grp).gst = .turn ∧
    ∀ f i j, (beginTurn s t).rd f i j = s.rd f i j := by
  obtain ⟨hgst, hreq, hregs⟩ := turnAccepted_spec s t
  obtain ⟨hturn, hreq'⟩ := fixHome_turns (turnAccepted s t) (s.grp t.grp).dir
  obtain ⟨⟨st, hlast⟩, hlastReq⟩ := tryLast_turns hturn
  obtain ⟨hdrain, hdrainReq⟩ := (drain_reach (tryLast (fixHome (turnAccepted s t) (s.grp t.grp).dir))).turns
  have hsent := ((fixHome_sends (turnAccepted s t) (s.grp t.grp).dir).trans (tryLast_sends _)).trans (drain_sends _)
  rw [beginTurn_eq]
  refine ⟨⟨_, hdrain.trans hlast, rfl, rfl, rfl, rfl⟩, hdrainReq.trans (hlastReq.trans (hreq'.trans hreq)), ?_, fun f i j => ?_⟩
  · rw [hsent.gst (by rw [hgst]; decide), hgst]
  · rw [hsent.rd, State.rd, hregs]
    rfl

/-- Every flit up to LAST has been acknowledged, or LAST has been accepted. -/
theorem turnLastAccept_turn {s : State} {x : Turn} (h : s.link.turn = some x) (hstep : x.step = .last)
    (hreplay : (s.grp x.grp).dir = true → (s.grp x.grp).replay = []) : (turnLastAccept s).link.turn = some { x with step := .quietLine } := by
  unfold turnLastAccept
  simp only [h, hstep]
  rw [if_neg (by simp)]
  split
  next hdir => rw [if_pos (by rw [hreplay hdir]; rfl)]
  · rfl

/-- A flit that is sent on a group in a turn or ACTIVE leaves at once. -/
theorem sendFlit_out {s : State} {g : Nat} {ftype : Nat} (area : List Byte) (ends : List (List Byte)) (hgst : (s.grp g).gst ≠ .quiet)
    (htype : ftype ≠ 1) : ∃ flips, (sendFlit s g ftype area ends).out = s.out ++ [Out.flit g (s.grp g).txNext ftype area flips] := by
  unfold sendFlit
  dsimp only
  rw [if_neg (by simp [htype])]
  obtain ⟨flips, hlen, -, hout⟩ := emit_setGrp_out (s := s) (g := g) (y := s.grp g) (x := { s.grp g with
    txNext := ((s.grp g).txNext + 1) % 1024, fresh := false
    replay := (s.grp g).replay ++ [{ fseq := (s.grp g).txNext, ftype := ftype, area := area, ends := ends }] })
    (fl := [{ fseq := (s.grp g).txNext, ftype := ftype, area := area, ends := ends }]) ⟨rfl, rfl, rfl⟩ (by simp)
  obtain ⟨f, rfl⟩ := List.length_eq_one_iff.1 hlen
  rw [if_neg hgst, List.append_nil] at hout
  exact ⟨f, hout⟩

/-- The old receiver drives SQUARE and ALIGN, and its stream starts anew. -/
def turnDriven (s : State) (g : Nat) : State :=
  { s with out := s.out ++ [Out.square g, Out.alignWord g] }.modGrp g fun x => { freshStream x with dir := true }

theorem turnSquelch_eq {s : State} {x : Turn} (h : s.link.turn = some x) (hstep : x.step = .quietLine) (hdir : (s.grp x.grp).dir = false) :
    turnSquelch s = turnDone (sendFlit (turnDriven s x.grp) x.grp 2 [] []) x := by
  simp [turnSquelch, h, hstep, hdir, turnDriven]

/-- The turn is over, before what waited and its register are looked at. -/
def turnOver (s : State) (t : Turn) : State :=
  let u := (s.inc F.HLL_TURN_TURNS).modGrp t.grp fun x => { x with gst := .active, dir := t.dir }
  { (if t.byStack then u.wr F.HLL_TURN_TURN_RES 0 else u) with link.turn := none }

theorem turnOver_rd (s : State) (t : Turn) (f : Fld) (i j : Nat) (hturns : f.at i j ≠ F.HLL_TURN_TURNS.at 0 0)
    (hres : f.at i j ≠ F.HLL_TURN_TURN_RES.at 0 0) : (turnOver s t).rd f i j = s.rd f i j := by
  unfold turnOver
  cases t.byStack with
  | true =>
    show ((s.inc F.HLL_TURN_TURNS).wr F.HLL_TURN_TURN_RES 0).rd f i j = _
    exact (State.rd_wr_ne _ _ _ _ _ _ _ _ hres).trans (State.rd_inc_ne _ _ _ _ _ _ _ _ hturns)
  | false =>
    show (s.inc F.HLL_TURN_TURNS).rd f i j = _
    exact State.rd_inc_ne _ _ _ _ _ _ _ _ hturns

theorem turnOver_out (s : State) (t : Turn) : (turnOver s t).out = s.out := by
  unfold turnOver
  cases t.byStack <;> rfl

theorem turnOver_grp (s : State) (t : Turn) (k : Nat) :
    (turnOver s t).grp k = (s.modGrp t.grp fun x => { x with gst := .active, dir := t.dir }).grp k := by
  unfold turnOver
  cases t.byStack <;> rfl

/-- The turned group is ACTIVE in its new direction. -/
theorem turnOver_grp_same (s : State) (t : Turn) : ((turnOver s t).grp t.grp).inSvc = (s.grp t.grp).inSvc ∧
    ((turnOver s t).grp t.grp).dir = t.dir ∧ ((turnOver s t).grp t.grp).gst = .active := by
  rw [turnOver_grp, State.modGrp_grp_same]
  exact ⟨rfl, rfl, rfl⟩

theorem turnOver_grp_ne {s : State} {t : Turn} {k : Nat} (h : k ≠ t.grp) : (turnOver s t).grp k = s.grp k := by
  rw [turnOver_grp, State.modGrp_grp_ne _ _ _ _ h]

theorem turnDriven_grp_same (s : State) (g : Nat) : ((turnDriven s g).grp g).inSvc = (s.grp g).inSvc ∧ ((turnDriven s g).grp g).dir = true ∧
    ((turnDriven s g).grp g).gst = (s.grp g).gst ∧ ((turnDriven s g).grp g).txNext = 0 := by
  have h : (turnDriven s g).grp g = { freshStream (s.grp g) with dir := true } := State.modGrp_grp_same ..
  rw [h]
  exact ⟨rfl, rfl, rfl, rfl⟩

/-- What a turn that is over leads to: `TEST` withdraws its group, a direction without a group retrains the link, or R70 applies. -/
def turnChecked (g : Nat) (s : State) : State :=
  if s.on F.HLP_CTL_TEST g then withdraw g true s
  else if s.link.up && ((inService s false).isEmpty || (inService s true).isEmpty) then
    wholeRetrain ((inService s false).length + (inService s true).length) s
  else autoBalance s

theorem turnDone_eq (s : State) (t : Turn) :
    turnDone s t = turnChecked t.grp (spareStream (drain (fixHome (fixHome (turnOver s t) false) true)) t.grp) := rfl

theorem turnChecked_of_serving {g : Nat} {s : State} (htest : s.on F.HLP_CTL_TEST g = false) (hh : inService s false ≠ [])
    (hd : inService s true ≠ []) : turnChecked g s = autoBalance s := by
  rw [turnChecked, htest, if_neg (by simp), if_neg (by simp [hh, hd])]

/-- A turn that ends with a group left in each direction, its `TEST` clear. -/
theorem turnDone_spec {s : State} {t : Turn} (htest : (turnOver s t).on F.HLP_CTL_TEST t.grp = false) (hh : inService (turnOver s t) false ≠ [])
    (hd : inService (turnOver s t) true ≠ []) : Sends (turnOver s t) (turnDone s t) ∧ (turnDone s t).link.turn = none := by
  have hsent := (((fixHome_sends (turnOver s t) false).trans (fixHome_sends _ true)).trans (drain_sends _)).trans (spareStream_sends _ t.grp)
  have hturn : (spareStream (drain (fixHome (fixHome (turnOver s t) false) true)) t.grp).link.turn = none := by
    rw [spareStream_turn, (drain_reach _).turns.1, (fixHome_turns _ _).1, (fixHome_turns _ _).1]
    rfl
  rw [turnDone_eq, turnChecked_of_serving (by rw [State.on, hsent.rd, ← State.on, htest]) (by rwa [hsent.inService]) (by rwa [hsent.inService])]
  exact ⟨hsent.trans (autoBalance_sends _), (autoBalance_turn _).trans hturn⟩

theorem mem_inService {s : State} {dir : Bool} {k : Nat} : k ∈ inService s dir ↔ k < 16 ∧ (s.grp k).inSvc = true ∧ (s.grp k).dir = dir := by
  simp [inService]

/-- Of two groups in service one is another than `g`. -/
theorem inService_other {s : State} {dir : Bool} (g : Nat) (h : 2 ≤ (inService s dir).length) : ∃ k ∈ inService s dir, k ≠ g := by
  have hnodup : (inService s dir).Nodup := List.nodup_range.filter _
  match hl : inService s dir, h with
  | a :: b :: r, _ =>
    rw [hl] at hnodup
    by_cases ha : a = g
    · refine ⟨b, by simp, fun hb => ?_⟩
      obtain ⟨hne, -⟩ := List.nodup_cons.1 hnodup
      exact hne (ha.trans hb.symm ▸ by simp)
    · exact ⟨a, by simp, ha⟩

/-- The places that the end of a turn writes are not `TEST`. -/
theorem test_apart (g : Fin 16) : F.HLP_CTL_TEST.at g.val 0 ≠ F.HLL_TURN_TURNS.at 0 0 ∧ F.HLP_CTL_TEST.at g.val 0 ≠ F.HLL_TURN_TURN_RES.at 0 0 := by
  revert g
  decide

/-- The old receiver becomes the sender: SQUARE, ALIGN, and START numbered 0. -/
theorem turnSquelch_spec {s : State} {x : Turn} (hturn : s.link.turn = some x) (hstep : x.step = .quietLine) (hg : x.grp < 16)
    (hrecv : (s.grp x.grp).dir = false) (hgst : (s.grp x.grp).gst = .turn) (hin : (s.grp x.grp).inSvc = true) (hdir : x.dir = true)
    (htest : s.on F.HLP_CTL_TEST x.grp = false) (htwo : 2 ≤ (inService s false).length) :
    ∃ flips rest, ((turnSquelch s).grp x.grp).dir = true ∧ ((turnSquelch s).grp x.grp).gst = .active ∧ (turnSquelch s).link.turn = none ∧
      (turnSquelch s).out = s.out ++ [Out.square x.grp, Out.alignWord x.grp, Out.flit x.grp 0 2 [] flips] ++ rest := by
  obtain ⟨hinD, -, hgstD, hnextD⟩ := turnDriven_grp_same s x.grp
  have hkeep (k : Nat) (hk : k ≠ x.grp) : (turnDriven s x.grp).grp k = s.grp k := State.modGrp_grp_ne _ _ _ _ hk
  have houtD : (turnDriven s x.grp).out = s.out ++ [Out.square x.grp, Out.alignWord x.grp] := rfl
  have hrdD (f : Fld) (i j : Nat) : (turnDriven s x.grp).rd f i j = s.rd f i j := rfl
  rw [turnSquelch_eq hturn hstep hrecv]
  obtain ⟨flips, hout⟩ := sendFlit_out (s := turnDriven s x.grp) (g := x.grp) (ftype := 2) [] [] (by rw [hgstD, hgst]; decide) (by decide)
  rw [hnextD, houtD, List.append_assoc] at hout
  generalize turnDriven s x.grp = u at *
  have hsent := sendFlit_sends u x.grp 2 [] []
  generalize sendFlit u x.grp 2 [] [] = v at *
  obtain ⟨hinO, hdirO, hgstO⟩ := turnOver_grp_same v x
  obtain ⟨hapart1, hapart2⟩ := test_apart ⟨x.grp, hg⟩
  have hhost : inService (turnOver v x) false ≠ [] := by
    obtain ⟨k, hk, hne⟩ := inService_other x.grp htwo
    obtain ⟨hlt, hkin, hkdir⟩ := mem_inService.1 hk
    obtain ⟨hin', hdir', -⟩ := hsent.group k
    refine List.ne_nil_of_mem (mem_inService.2 ⟨hlt, ?_, ?_⟩)
    · rw [turnOver_grp_ne hne, hin', hkeep k hne, hkin]
    · rw [turnOver_grp_ne hne, hdir', hkeep k hne, hkdir]
  have hdev : inService (turnOver v x) true ≠ [] := by
    obtain ⟨hin', -⟩ := hsent.group x.grp
    exact List.ne_nil_of_mem (mem_inService.2 ⟨hg, by rw [hinO, hin', hinD, hin], by rw [hdirO, hdir]⟩)
  have htest' : (turnOver v x).on F.HLP_CTL_TEST x.grp = false := by
    rw [State.on, turnOver_rd _ _ _ _ _ hapart1 hapart2, hsent.rd, hrdD]
    exact htest
  obtain ⟨hdone, hnone⟩ := turnDone_spec htest' hhost hdev
  obtain ⟨-, hdoneDir, -⟩ := hdone.group x.grp
  obtain ⟨rest, hrest⟩ := hdone.out
  refine ⟨flips, rest, ?_, ?_, hnone, ?_⟩
  · rw [hdoneDir, hdirO, hdir]
  · rw [hdone.gst (by rw [hgstO]; decide), hgstO]
  · rw [hrest, turnOver_out, hout]
    rfl

/-! ## The commands -/

/-- The partner's TURN once the stack's own request, if any, has been withdrawn. -/
theorem receiveTurn_of_free {s : State} (g : Nat) (dir : Bool) (q : Nat) (hfree : (s.link.turnReq.isSome && s.link.turn.isNone) = false) :
    receiveTurn g dir q s = (if turnCheck s g dir = .ok then
      beginTurn (sendVc2 s (turnBytes 0x81 g dir q (turnCheck s g dir).num)) { grp := g, dir := dir, tseq := q, byStack := false }
      else sendVc2 s (turnBytes 0x81 g dir q (turnCheck s g dir).num)) := by
  simp only [receiveTurn, hfree]
  rfl

/-- The partner's request wins over the stack's own. -/
theorem receiveTurn_of_asked {s : State} (g : Nat) (dir : Bool) (q : Nat) (hreq : s.link.turnReq.isSome = true) (hnone : s.link.turn = none) :
    receiveTurn g dir q s = receiveTurn g dir q (dropTurn (s.wr F.HLL_TURN_TURN_RES Code.busy.num)) := by
  rw [receiveTurn_of_free (s := dropTurn _) _ _ _ (by rw [dropTurn_turnReq]; rfl)]
  simp only [receiveTurn, hreq, hnone]
  rfl

/-- A TURN that R74 allows begins the turn; one that it does not leaves turns as they are. Either way no request of the stack is outstanding. -/
theorem receiveTurn_spec {s : State} (g : Nat) (dir : Bool) (q : Nat) (hreq : s.link.turnReq = none) :
    (receiveTurn g dir q s).link.turnReq = none ∧ (∀ f i j, (receiveTurn g dir q s).rd f i j = s.rd f i j) ∧
    (turnCheck s g dir = .ok → ((receiveTurn g dir q s).grp g).gst = .turn ∧
      ∃ x, (receiveTurn g dir q s).link.turn = some x ∧ x.grp = g ∧ x.dir = dir ∧ x.tseq = q ∧ x.byStack = false) ∧
    (turnCheck s g dir ≠ .ok → (receiveTurn g dir q s).link.turn = s.link.turn) := by
  have hanswer := sendVc2_sends s (turnBytes 0x81 g dir q (turnCheck s g dir).num)
  obtain ⟨hturn', hreq'⟩ := sendVc2_turns s (turnBytes 0x81 g dir q (turnCheck s g dir).num)
  rw [receiveTurn_of_free _ _ _ (by rw [hreq]; rfl)]
  split
  next hok =>
    obtain ⟨hx, hnone, hgst, hrd⟩ := beginTurn_spec (sendVc2 s (turnBytes 0x81 g dir q (turnCheck s g dir).num))
      { grp := g, dir := dir, tseq := q, byStack := false }
    exact ⟨hnone, fun f i j => (hrd f i j).trans (hanswer.rd f i j), fun _ => ⟨hgst, hx⟩, fun h => absurd hok h⟩
  next hno => exact ⟨hreq'.trans hreq, hanswer.rd, fun h => absurd h hno, fun _ => hturn'⟩

/-- R74's test looks at the groups, the turn and the request alone. -/
theorem turnCheck_congr {s t : State} {g : Nat} {dir : Bool} (hgrp : t.link.grp = s.link.grp) (hturn : t.link.turn = s.link.turn)
    (hreq : t.link.turnReq = s.link.turnReq) : turnCheck t g dir = turnCheck s g dir := by
  unfold turnCheck inService State.grp
  rw [hgrp, hturn, hreq]

theorem dropTurn_grps (s : State) : (dropTurn s).link.grp = s.link.grp := by
  unfold dropTurn
  split <;> rfl

/-- Once the stack's request is withdrawn, R74's test sees none. -/
theorem turnCheck_withdrawn (s : State) (f : Fld) (v g : Nat) (dir : Bool) :
    turnCheck (dropTurn ((turnHeard s).wr f v)) g dir = turnCheck { s with link.turnReq := none } g dir := by
  refine turnCheck_congr ?_ ?_ ?_
  · exact dropTurn_grps _
  · exact dropTurn_turn _
  · exact dropTurn_turnReq _

/-- The answer that matches the stack's request. -/
theorem receiveTurnAck_of_match {s : State} {own : Turn} {q : Nat} (res : Nat) (hreq : s.link.turnReq = some own) (hmatch : own.tseq = q) :
    receiveTurnAck q res s = if res = 0 then beginTurn s own else dropTurn (s.wr F.HLL_TURN_TURN_RES res) := by
  simp [receiveTurnAck, hreq, hmatch]

theorem receiveTurnAck_of_other {s : State} {own : Turn} {q : Nat} (res : Nat) (hreq : s.link.turnReq = some own) (hother : own.tseq ≠ q) :
    receiveTurnAck q res s = s := by
  simp [receiveTurnAck, hreq, hother]

/-- A request that has been sent is withdrawn without a change of what waits. -/
theorem dropTurn_of_sent {s : State} {own : Turn} (hreq : s.link.turnReq = some own)
    (hsent : s.link.vc2Out.contains (turnBytes 0x80 own.grp own.dir own.tseq 0) = false) :
    dropTurn s = { s with link := { s.link with turnReq := none } } := by
  have hkeep : s.link.vc2Out.filter (· != turnBytes 0x80 own.grp own.dir own.tseq 0) = s.link.vc2Out := by
    rw [List.filter_eq_self]
    intro p hp
    rw [bne_iff_ne]
    rintro rfl
    rw [List.contains_iff_mem.2 hp] at hsent
    exact absurd hsent (by decide)
  simp only [dropTurn, hreq, hkeep]

theorem exec_turnAckTimeout (s : State) : exec .turnAckTimeout s = .next (turnAckTimeout s) := rfl

theorem exec_turnLastAccept (s : State) : exec .turnLastAccept s = .next (turnLastAccept s) := rfl

theorem exec_turnSquelchDetect (s : State) : exec .turnSquelchDetect s = .next (turnSquelch s) := rfl

/-- Settles O25: R74's test decides on the partner's request (`receiveTurn_spec`), and each later step of Table 3.8 is one state of the turn. -/
theorem turnsFollowTheirTable : Obligations.TurnsFollowTheirTable := by
  unfold Obligations.TurnsFollowTheirTable
  refine ⟨fun s g tg dir q hhears hcfg hroom hwait hlost => ⟨fun hreq hok => ?_, fun hreq hno => ?_, fun hreq hnone => ?_⟩,
    fun s g tg dir q res own hhears hcfg hroom hwait hlost hreq => ⟨fun hmatch hres => ?_, fun hmatch hres => ?_, fun hother => ?_⟩,
    fun s own hreq => ⟨fun hwaits => ?_, fun hsent => ?_⟩, fun s x hturn hstep hreplay => ?_,
    fun s x hturn hstep hg hrecv hgst hin hdir htest htwo => ?_⟩
  · obtain ⟨-, -, hbegin, -⟩ := receiveTurn_spec (s := turnHeard s) tg.val dir q.toNat hreq
    obtain ⟨hgst, x, hturn, hgrp, hdir, hseq, hby⟩ := hbegin ((turnCheck_congr rfl rfl rfl).trans hok)
    exact ⟨_, x, exec_turn tg dir q hhears hcfg hroom hwait hlost, hturn, hgrp, hdir, hseq, hby, hgst⟩
  · obtain ⟨hnone, -, -, hkeep⟩ := receiveTurn_spec (s := turnHeard s) tg.val dir q.toNat hreq
    exact ⟨_, exec_turn tg dir q hhears hcfg hroom hwait hlost, hkeep fun hok => hno ((turnCheck_congr rfl rfl rfl).symm.trans hok), hnone⟩
  · have hrun := receiveTurn_of_asked (s := turnHeard s) tg.val dir q.toNat hreq hnone
    obtain ⟨hgone, hrd, hbegin, -⟩ := receiveTurn_spec (s := dropTurn ((turnHeard s).wr F.HLL_TURN_TURN_RES Code.busy.num)) tg.val dir q.toNat
      (dropTurn_turnReq _)
    rw [← hrun] at hgone hrd hbegin
    refine ⟨_, exec_turn tg dir q hhears hcfg hroom hwait hlost, hgone, ?_, fun hok => ?_⟩
    · rw [hrd, (dropTurn_sends _).rd, State.rd_wr_same]
      rfl
    · obtain ⟨-, x, hturn, hgrp, hdir, -, hby⟩ := hbegin
        ((turnCheck_withdrawn s F.HLL_TURN_TURN_RES Code.busy.num tg.val dir).trans hok)
      exact ⟨x, hturn, hgrp, hdir, hby⟩
  · have hrun := receiveTurnAck_of_match (s := turnHeard s) res.toNat hreq hmatch
    rw [if_pos hres] at hrun
    obtain ⟨⟨x, hturn, hgrp, hdir, -⟩, hnone, -⟩ := beginTurn_spec (turnHeard s) own
    rw [← hrun] at hturn hnone
    exact ⟨_, x, exec_turnAck tg dir q res hhears hcfg hroom hwait hlost, hturn, hgrp, hdir, hnone⟩
  · have hrun := receiveTurnAck_of_match (s := turnHeard s) res.toNat hreq hmatch
    rw [if_neg hres] at hrun
    refine ⟨_, exec_turnAck tg dir q res hhears hcfg hroom hwait hlost, ?_⟩
    rw [hrun]
    refine ⟨dropTurn_turn _, dropTurn_turnReq _, ?_⟩
    rw [(dropTurn_sends _).rd, State.rd_wr_same]
    exact Nat.mod_eq_of_lt res.isLt
  · refine ⟨_, exec_turnAck tg dir q res hhears hcfg hroom hwait hlost, ?_⟩
    rw [receiveTurnAck_of_other (s := turnHeard s) res.toNat hreq hother]
    exact ⟨rfl, hreq⟩
  · rw [exec_turnAckTimeout, turnAckTimeout, hreq]
    exact congrArg Host.Outcome.next (if_pos hwaits)
  · have hrun : turnAckTimeout s = autoBalance (dropTurn (s.wr F.HLL_TURN_TURN_RES Code.timeout.num)) := by
      simp only [turnAckTimeout, hreq, hsent]
      rfl
    refine ⟨_, exec_turnAckTimeout s, ?_, fun hh hd => ?_⟩
    · rw [hrun, (autoBalance_sends _).rd, (dropTurn_sends _).rd, State.rd_wr_same]
      rfl
    · have hsame := (dropTurn_sends (s.wr F.HLL_TURN_TURN_RES Code.timeout.num)).inService
      rw [hrun, autoBalance_balanced (by rw [hsame]; exact hh) (by rw [hsame]; exact hd),
        dropTurn_of_sent (s := s.wr F.HLL_TURN_TURN_RES Code.timeout.num) hreq hsent]
      rfl
  · exact ⟨_, exec_turnLastAccept s, turnLastAccept_turn hturn hstep hreplay⟩
  · obtain ⟨flips, rest, hspec⟩ := turnSquelch_spec hturn hstep hg hrecv hgst hin hdir htest htwo
    exact ⟨_, flips, rest, exec_turnSquelchDetect s, hspec⟩

end Sys2Proof.Machine


/-! SUPPORT. Link-ready (R65, R68, R134): the link comes up, and a later link-up numbers its events anew, which what is raised then does not undo. -/

namespace Sys2Proof.Machine

/-! ## A raise leaves the event numbers (R311) -/

/-- No event is sent: the numbers of the events sent stay. -/
def SameEseq (s t : State) : Prop := t.fcr.eseq = s.fcr.eseq

theorem SameEseq.trans {s t u : State} (h : SameEseq s t) (k : SameEseq t u) : SameEseq s u := Eq.trans k h

theorem SameEseq.upd {s t u : State} (h : SameEseq s t) (hu : u.fcr.eseq = t.fcr.eseq) : SameEseq s u := Eq.trans hu h

theorem SameEseq.ite {s a b : State} {c : Prop} [Decidable c] (ha : SameEseq s a) (hb : SameEseq s b) : SameEseq s (if c then a else b) := by
  split
  · exact ha
  · exact hb

theorem queueEvt_eseq (s : State) (d : Nat) (r : Raise) : SameEseq s (queueEvt s d r) := by
  unfold queueEvt
  exact .ite rfl (.ite rfl (.ite rfl rfl))

theorem queueCopy_eseq (s : State) (r : Raise) : SameEseq s (queueCopy s r) := by
  unfold queueCopy
  exact .ite rfl rfl

theorem logToPort_eseq (s : State) (r : Raise) : SameEseq s (s.logToPort r) := by
  have hput (ws : List MWord) : SameEseq s (s.portPut ws) := by
    obtain ⟨pst, hput⟩ := s.portPut_eq ws
    rw [hput]
    rfl
  exact hput _

theorem queueLog_eseq (s : State) (r : Raise) : SameEseq s (queueLog s r).1 := by
  unfold queueLog
  split
  · rfl
  · split
    · exact logToPort_eseq { s with fcr.tokens := s.fcr.tokens - 1 } r
    · extract_lets n
      by_cases hfull : n ≥ if grave r.sev = true then 64 else 56
      · rw [if_pos hfull]
        rfl
      · rw [if_neg hfull]
        split <;> rfl

theorem capture_eseq (s : State) (r : Raise) : SameEseq s (capture s r) := by
  unfold capture
  exact .ite rfl (.ite rfl rfl)

theorem faultState_eseq (s : State) (v : Sev) : SameEseq s (faultState s v) := by
  unfold faultState
  exact .ite rfl (.ite rfl rfl)

theorem react_eseq (s : State) (src : Nat) : SameEseq s (react s src) := by
  unfold react
  split
  · rfl
  · split
    · exact .ite rfl rfl
    · rfl
  · rfl

theorem holdAlert_eseq (s t : State) : SameEseq t (holdAlert s t) := by
  unfold holdAlert
  exact .ite rfl rfl

theorem raiseOnce_eseq (s : State) (src : Nat) (v : Sev) (syn : List Nat) (test : Bool) : SameEseq s (raiseOnce s src v syn test).1 := by
  have queued (r : Raise) (c : Prop) [Decidable c] (l : List Nat) (u : State) : SameEseq u (l.foldl (fun t d => if c then queueEvt t d r else t) u) := by
    induction l generalizing u with
    | nil => rfl
    | cons d l ih => exact SameEseq.trans (.ite (queueEvt_eseq ..) rfl) (ih _)
  unfold raiseOnce
  extract_lets r0 first s1 r s2 s3 s4 asleep p s5
  have h1 : SameEseq s s1 := .ite ((capture_eseq ..).trans (faultState_eseq ..)) rfl
  have h2 : SameEseq s s2 := h1.trans (queued ..)
  have h3 : SameEseq s s3 := .ite (h2.trans (holdAlert_eseq s2 (((s2.wr F.FCR_ALERT_ALERT 1).wr F.FCR_ALERT_ALERT_SRC src).inc F.FCR_ALERT_ALERT_CNT))) h2
  have h4 : SameEseq s s4 := .ite (h3.trans (queueCopy_eseq ..)) h3
  have h5 : SameEseq s s5 := .ite (h4.upd rfl) h4
  clear_value s5
  have logged (c : Prop) [Decidable c] : SameEseq s (if c then queueLog s5 r else (s5, none)).1 := by
    split
    · exact h5.trans (queueLog_eseq ..)
    · exact h5
  exact .ite ((logged _).trans (react_eseq ..)) (logged _)

theorem State.raise_eseq (s : State) (src : Nat) (v : Sev) (syn : List Nat) : SameEseq s (s.raise src v syn) := by
  have hone := raiseOnce_eseq s src v syn false
  unfold State.raise State.raiseAs
  split
  next u heq => rwa [heq] at hone
  next u cause heq =>
    rw [heq] at hone
    have hdrop : SameEseq s { u with fcr.lastDrop := some u.now } := SameEseq.upd hone rfl
    exact .ite (hdrop.trans (raiseOnce_eseq ..)) hdrop

theorem State.raiseG_same (s : State) (src : Nat) (v : Sev) (unit value : Nat) (more : List Nat) : (s.raiseG src v unit value more).link = s.link ∧
    SameEseq s (s.raiseG src v unit value more) ∧ (s.raiseG src v unit value more).mem = s.mem ∧ (s.raiseG src v unit value more).rqe = s.rqe := by
  obtain ⟨-, -, -, -, hmem, -, -, -, hlink, hrqe, -⟩ := (s.raiseG_reach src v unit value more).same
  exact ⟨hlink, s.raise_eseq src v _, hmem, hrqe⟩

/-! ## Link-ready -/

/-- The link is up; a later link-up than the first starts the event numbers and marks a loss (R311). -/
def linkedUp (s : State) : State :=
  { s with
    link.up := true, link.everUp := true
    fcr.eseq := if s.link.everUp then [] else s.fcr.eseq
    fcr.loss := if s.link.everUp then (List.range 16).map (·, true) else s.fcr.loss }

theorem linkedUp_same (s : State) : (linkedUp s).mem = s.mem ∧ (linkedUp s).rqe = s.rqe := ⟨rfl, rfl⟩

/-- What link-ready needs (R65, R68, R134). -/
def ReadyToLink (s : State) : Prop :=
  (∃ a b, s.link.cfgRx = some (a, b) ∧ 1024 ≤ a ∧ 64 ≤ b) ∧ (s.rqe.reqs.any fun r => r.iss == .host && r.prior) = false ∧
  2 ≤ (inService s false).length ∧ 2 ≤ (inService s true).length

theorem linkReady_of_ready {s : State} (hdown : s.link.up = false) (h : ReadyToLink s) : linkReady s = linkedUp s := by
  obtain ⟨⟨a, b, hcfg, ha, hb⟩, hprior, hh, hd⟩ := h
  have hrun : linkReady s = autoBalance (linkedUp s) := by
    unfold linkReady
    extract_lets pools prior
    exact if_pos (by simp [pools, prior, hdown, hcfg, hprior, ha, hb, hh, hd])
  rw [hrun, autoBalance_balanced (s := linkedUp s) hh hd]

/-- A link that cannot be ready stays as it is. -/
theorem linkReady_of_not {s : State} (h : (inService s false).length < 2 ∨ (inService s true).length < 2 ∨
    (s.rqe.reqs.any fun r => r.iss == .host && r.prior) = true ∨ s.link.cfgRx = none) : linkReady s = s := by
  rcases h with hh | hd | hprior | hcfg
  · simp [linkReady, Nat.not_le.2 hh]
  · simp [linkReady, Nat.not_le.2 hd]
  · simp only [linkReady, hprior]
    simp
  · simp [linkReady, hcfg]

/-- The event of a start after a wake (R365). -/
def wakeReported (s : State) : State :=
  if s.rd F.CST_BOOT_STAT_BOOT_KIND = 3 then s.raiseG 284 .info (s.rd F.CST_BOOT_STAT_WCAUSE) 0 else s

/-- The time of a start, which is over (R359). -/
def startTimed (s : State) : State :=
  { s.wr F.CST_BOOT_TIME_LR_TIME (min 65535 ((s.now - s.pck.since) / (10 * usec))) with pck.step := 0 }

theorem startTimed_same (s : State) : (startTimed s).link = s.link ∧ SameEseq s (startTimed s) ∧ (startTimed s).mem = s.mem ∧
    (startTimed s).rqe = s.rqe := ⟨rfl, rfl, rfl, rfl⟩

/-- What a start still owes at link-ready: its time, and the event (R359, R365). -/
def startReported (s : State) : State := if s.pck.step ≠ 8 then s else wakeReported (startTimed s)

theorem wakeReported_same (s : State) : (wakeReported s).link = s.link ∧ SameEseq s (wakeReported s) ∧ (wakeReported s).mem = s.mem ∧
    (wakeReported s).rqe = s.rqe := by
  unfold wakeReported
  split
  · exact s.raiseG_same ..
  · exact ⟨rfl, rfl, rfl, rfl⟩

theorem startReported_same (s : State) : (startReported s).link = s.link ∧ SameEseq s (startReported s) ∧ (startReported s).mem = s.mem ∧
    (startReported s).rqe = s.rqe := by
  unfold startReported
  split
  · exact ⟨rfl, rfl, rfl, rfl⟩
  · obtain ⟨hlink, heseq, hmem, hrqe⟩ := startTimed_same s
    obtain ⟨hlink', heseq', hmem', hrqe'⟩ := wakeReported_same (startTimed s)
    exact ⟨hlink'.trans hlink, heseq.trans heseq', hmem'.trans hmem, hrqe'.trans hrqe⟩

/-- A state of the fold is its register and its word of the stack. -/
theorem setFstate_eq (s : State) (v : Nat) : ∃ regs pst, setFstate s v = { s with regs := regs, pst := pst } := by
  obtain ⟨pst, hput⟩ := (s.wr F.TSV_FOLD_STAT_FSTATE v).putStackWord_eq 3 2 8 (v + (s.wr F.TSV_FOLD_STAT_FSTATE v).rd F.TSV_FOLD_STAT_FOLDED_CH * 8)
  exact ⟨_, pst, hput⟩

/-- A fold that resumes changes its state alone. -/
theorem foldResume_same (s : State) : (foldResume s).link = s.link ∧ SameEseq s (foldResume s) ∧ (foldResume s).mem = s.mem ∧
    (foldResume s).rqe = s.rqe := by
  obtain ⟨regs, pst, hset⟩ := setFstate_eq s fMigrate
  unfold foldResume
  split
  · rw [hset]
    exact ⟨rfl, rfl, rfl, rfl⟩
  · exact ⟨rfl, rfl, rfl, rfl⟩

theorem linkReadyStep_of_ready {s : State} (hdown : s.link.up = false) (h : ReadyToLink s) :
    linkReadyStep s = foldResume (startReported (linkedUp s)) := by
  simp only [linkReadyStep, hdown, linkReady_of_ready hdown h]
  rfl

theorem linkReadyStep_of_not {s : State} (hdown : s.link.up = false) (h : linkReady s = s) : linkReadyStep s = s := by
  simp [linkReadyStep, h, hdown]

theorem exec_linkReady (s : State) : exec .linkReady s = .next (linkReadyStep s) := rfl

/-- Settles O26: the link comes up at once (`linkedUp`), and what a start and the fold still owe leaves that and the event numbers. -/
theorem linkReadyNeedsTwoGroupsEachWay : Obligations.LinkReadyNeedsTwoGroupsEachWay := by
  unfold Obligations.LinkReadyNeedsTwoGroupsEachWay
  refine ⟨fun s a b hdown hcfg ha hb hprior hh hd => ?_, fun s hdown hnot => ?_⟩
  · have hrun := linkReadyStep_of_ready hdown ⟨⟨a, b, hcfg, ha, hb⟩, hprior, hh, hd⟩
    obtain ⟨hlink, heseq, hmem, hrqe⟩ := startReported_same (linkedUp s)
    obtain ⟨hlink', heseq', hmem', hrqe'⟩ := foldResume_same (startReported (linkedUp s))
    refine ⟨_, (exec_linkReady s).trans (congrArg Host.Outcome.next hrun), ?_, ?_, fun hever => ?_,
      hmem'.trans (hmem.trans (linkedUp_same s).1), hrqe'.trans (hrqe.trans (linkedUp_same s).2)⟩
    · rw [hlink', hlink]
      rfl
    · rw [hlink', hlink]
      rfl
    · rw [heseq.trans heseq', linkedUp, if_pos hever]
  · rw [exec_linkReady, linkReadyStep_of_not hdown (linkReady_of_not hnot)]

end Sys2Proof.Machine


/-! SUPPORT. Admission (R115 to R117, R123): a packet that is heard at once is judged by the state it arrives in, and the request that enters is still there,
not yet answered, when order has been looked at. -/

namespace Sys2Proof.Machine

/-! ## The checks do not look at the link, the power state or what waits -/

/-- The state with another link, power state and queue of waiting packets. -/
def queued (s : State) (l : Link) (k : Pck) (w : SMap (List Vc0)) : State := { s with link := l, pck := k, rqe := { s.rqe with waiting := w } }

section
variable (s : State) (l : Link) (k : Pck) (w : SMap (List Vc0))

theorem queued_rd (f : Fld) (i j : Nat) : (queued s l k w).rd f i j = s.rd f i j := rfl

theorem regionOf_queued (d blk : Nat) : regionOf (queued s l k w) d blk = regionOf s d blk := rfl

theorem devAddr_queued (n a : Nat) : devAddr (queued s l k w) n a = devAddr s n a := rfl

theorem place_queued (x : Nat) : place (queued s l k w) x = place s x := rfl

theorem coverBlocks_queued (d last n blk : Nat) : coverBlocks (queued s l k w) d last n blk = coverBlocks s d last n blk := by
  induction n generalizing blk with
  | zero => rfl
  | succ n ih => simp only [coverBlocks, regionOf_queued, queued_rd, ih]

theorem runsOf_queued (o : ROp) (p : Vc0) : runsOf (queued s l k w) o p = runsOf s o p := by
  simp only [runsOf, coverBlocks_queued, devAddr_queued]

theorem sectorsIn_queued (ch : Nat) (runs : List (Nat × Nat)) : sectorsIn (queued s l k w) ch runs = sectorsIn s ch runs := by
  simp only [sectorsIn, place_queued]

theorem wqUsed_queued (ch : Nat) : wqUsed (queued s l k w) ch = wqUsed s ch := by
  simp only [wqUsed, sectorsIn_queued]
  rfl

theorem readOnlyTouched_queued (d a b : Nat) : readOnlyTouched (queued s l k w) d a b = readOnlyTouched s d a b := rfl

theorem inBowRange_queued (d b : Nat) : inBowRange (queued s l k w) d b = inBowRange s d b := rfl

theorem tagInUse_queued (d t : Nat) : tagInUse (queued s l k w) d t = tagInUse s d t := rfl

theorem on_queued (f : Fld) (i j : Nat) : (queued s l k w).on f i j = s.on f i j := rfl

theorem admitCheck_queued (p : Vc0) : admitCheck (queued s l k w) p = admitCheck s p := by
  simp only [admitCheck, runsOf_queued, readOnlyTouched_queued, inBowRange_queued, tagInUse_queued, on_queued, queued_rd]
  rfl

theorem sumReqs_queued (f : Req → Nat) : sumReqs (queued s l k w) f = sumReqs s f := rfl

theorem rbUsed_queued (d : Nat) : rbUsed (queued s l k w) d = rbUsed s d := rfl

theorem rsvdFlag_queued (b : Nat) : rsvdFlag (queued s l k w) b = rsvdFlag s b := rfl

theorem meterHolds_queued (r : Bool) (n : Nat) : meterHolds (queued s l k w) r n = meterHolds s r n := rfl

theorem reqs_queued : (queued s l k w).rqe.reqs = s.rqe.reqs := rfl

theorem hasRoom_queued (o : ROp) (p : Vc0) : hasRoom (queued s l k w) o p = hasRoom s o p := by
  simp only [hasRoom, runsOf_queued, place_queued, wqUsed_queued, sumReqs_queued, rbUsed_queued, rsvdFlag_queued, meterHolds_queued, queued_rd, reqs_queued]
  rfl

end

/-! ## Requests in place -/

/-- What does not change of a request while it waits in the buffer: its number, packet, operation and issuer, and that it is answered. -/
def Req.core (r : Req) : Nat × Vc0 × ROp × Issuer × Bool := (r.id, r.p, r.op, r.iss, r.sent)

/-- The requests change in place: none enters or leaves, and `ADMITTED` stays. -/
def InPlace (s t : State) : Prop :=
  t.rqe.nextId = s.rqe.nextId ∧ t.rqe.reqs.map Req.core = s.rqe.reqs.map Req.core ∧ t.on F.RQE_STAT_ADMITTED = s.on F.RQE_STAT_ADMITTED

theorem InPlace.refl (s : State) : InPlace s s := ⟨rfl, rfl, rfl⟩

theorem InPlace.trans {s t u : State} (h : InPlace s t) (k : InPlace t u) : InPlace s u :=
  ⟨k.1.trans h.1, k.2.1.trans h.2.1, k.2.2.trans h.2.2⟩

theorem InPlace.ite {s a b : State} {c : Prop} [Decidable c] (ha : InPlace s a) (hb : InPlace s b) : InPlace s (if c then a else b) := by
  split
  · exact ha
  · exact hb

/-- The numbers still rise. -/
theorem InPlace.idsRise {s t : State} (h : InPlace s t) (hids : IdsRise s) : IdsRise t := by
  obtain ⟨hnext, hcore, -⟩ := h
  have hmap : t.rqe.reqs.map (·.id) = s.rqe.reqs.map (·.id) := by
    have hfst := congrArg (List.map Prod.fst) hcore
    rwa [List.map_map, List.map_map] at hfst
  exact hids.sub (hmap ▸ List.Sublist.refl _) hnext

/-- A request of the buffer changes in place. -/
theorem setReq_inPlace {s : State} {r r' : Req} (hids : IdsRise s) (hr : r ∈ s.rqe.reqs) (hcore : r'.core = r.core) : InPlace s (setReq s r') := by
  refine ⟨rfl, ?_, rfl⟩
  have hid : r'.id = r.id := congrArg Prod.fst hcore
  have hnodup : (s.rqe.reqs.map (·.id)).Nodup := ((List.pairwise_append.1 hids).1).imp Nat.ne_of_lt
  show (s.rqe.reqs.map fun q => if q.id = r'.id then r' else q).map Req.core = _
  rw [List.map_map]
  refine List.map_congr_left fun q hq => ?_
  show Req.core (if q.id = r'.id then r' else q) = q.core
  split
  next h => rw [hcore, List.inj_on_of_nodup_map hnodup hq hr (h.trans hid)]
  · rfl

/-- A counter that is not `ADMITTED`. -/
theorem inc_inPlace {s : State} {f : Fld} (n i j : Nat) (h : F.RQE_STAT_ADMITTED.at 0 0 ≠ f.at i j) : InPlace s (s.inc f n i j) :=
  ⟨rfl, rfl, congrArg (· == 1) (State.rd_inc_ne _ _ _ _ _ _ _ _ h)⟩

/-- Bytes are counted in the regulator. -/
def Counted (s t : State) : Prop := ∃ cnt, t = { s with reg.cnt := cnt }

theorem Counted.refl (s : State) : Counted s s := ⟨_, rfl⟩

theorem Counted.cnt {s t : State} (h : Counted s t) (i n : Nat) : Counted s (t.cnt i n) := by
  obtain ⟨cnt, rfl⟩ := h
  exact ⟨_, rfl⟩

/-- A performed request counts its bytes. -/
theorem countBytes_counted (s : State) (r : Req) (a b : Nat) : Counted s (countBytes s r a b) := by
  unfold countBytes
  extract_lets k u v
  have hu : Counted s u := ((Counted.refl s).cnt _ _).cnt _ _
  split
  · refine List.foldlRecOn _ _ ((hu.cnt _ _).cnt _ _) fun t ht w _ => ?_
    split
    · exact ht.cnt _ _
    · exact ht
  · exact hu

theorem countBytes_inPlace (s : State) (r : Req) (a b : Nat) : InPlace s (countBytes s r a b) := by
  obtain ⟨cnt, heq⟩ := countBytes_counted s r a b
  rw [heq]
  exact ⟨rfl, rfl, rfl⟩

theorem markPerformed_inPlace {s : State} {r r' : Req} (hids : IdsRise s) (hr : r ∈ s.rqe.reqs) (hcore : r'.core = r.core) :
    InPlace s (markPerformed s r') :=
  (setReq_inPlace (r' := { r' with performed := true, visible := true }) hids hr hcore).trans (countBytes_inPlace ..)

theorem countPoison_inPlace (s : State) (ch : Nat) (c : Code) : InPlace s (countPoison s ch c) ∧ (countPoison s ch c).rqe = s.rqe := by
  have hapart : F.RQE_STAT_ADMITTED.at 0 0 ≠ F.DIP_UE_POISON_RD.at ch 0 := by
    simp only [Fld.at, F.RQE_STAT_ADMITTED, F.DIP_UE_POISON_RD]
    omega
  unfold countPoison
  split
  · exact ⟨inc_inPlace _ _ _ hapart, rfl⟩
  · exact ⟨.refl s, rfl⟩

theorem forward_inPlace {s : State} {r : Req} (hids : IdsRise s) (hr : r ∈ s.rqe.reqs) : InPlace s (forward s r) := by
  unfold forward
  extract_lets got lost code codes r' u
  have hu : InPlace s u ∧ u.rqe = s.rqe := by
    refine List.foldlRecOn (motive := fun t => InPlace s t ∧ t.rqe = s.rqe) _ _ ⟨.refl s, rfl⟩ fun t ht x _ => ?_
    split
    · split
      · exact ht
      · obtain ⟨hplace, hrqe⟩ := countPoison_inPlace t (place s x).1 (code (wrSector _ x))
        exact ⟨ht.1.trans hplace, hrqe.trans ht.2⟩
    · exact ht
  clear_value u
  have hinc : InPlace s (u.inc F.RQE_FWD_FWD_SECT got.length) := hu.1.trans (inc_inPlace _ _ _ (by decide))
  exact hinc.trans (markPerformed_inPlace (r := r) (hinc.idsRise hids) (by rw [State.inc_rqe, hu.2]; exact hr) rfl)

theorem waitHazard_inPlace {s : State} {r : Req} (hids : IdsRise s) (hr : r ∈ s.rqe.reqs) : InPlace s (waitHazard s r) := by
  have hinc : InPlace s (s.inc F.RQE_HAZ_HAZ_WAIT) := inc_inPlace _ _ _ (by decide)
  unfold waitHazard
  exact .ite (.refl s) (hinc.trans (setReq_inPlace (r := r) (hinc.idsRise hids) hr rfl))

/-- A request that order no longer holds proceeds in place. -/
theorem settleOne_inPlace {s : State} (id : Nat) (hids : IdsRise s) : InPlace s (settleOne s id) := by
  unfold settleOne
  split
  · exact .refl s
  next r hfind =>
    have hr : r ∈ s.rqe.reqs := List.mem_of_find?_eq_some hfind
    have hhaz : InPlace s (if hazard s r then s.inc F.RQE_HAZ_HAZ_WAIT else s) := .ite (inc_inPlace _ _ _ (by decide)) (.refl s)
    have hrqe : (if hazard s r then s.inc F.RQE_HAZ_HAZ_WAIT else s).rqe = s.rqe := by
      split <;> rfl
    refine .ite (.refl s) ?_
    split
    · exact markPerformed_inPlace hids hr rfl
    · exact .ite (markPerformed_inPlace (r := r) hids hr rfl) (hhaz.trans (markPerformed_inPlace (hhaz.idsRise hids) (by rwa [hrqe]) rfl))
    · exact .ite (forward_inPlace hids hr) (waitHazard_inPlace hids hr)
    · exact .refl s
    · exact .refl s
    · exact .ite (markPerformed_inPlace (r := r) hids hr rfl) (.refl s)
    · exact waitHazard_inPlace hids hr

/-- When order has been looked at, a request that is not answered is still there. -/
theorem settle_keeps_unsent {s : State} {r : Req} (hids : IdsRise s) (hr : r ∈ s.rqe.reqs) (hsent : r.sent = false) :
    (∃ q ∈ (settle s).rqe.reqs, q.core = r.core) ∧ (settle s).rqe.nextId = s.rqe.nextId ∧
    (settle s).on F.RQE_STAT_ADMITTED = s.on F.RQE_STAT_ADMITTED := by
  have hall : InPlace s ((s.rqe.reqs.map (·.id)).foldl settleOne s) :=
    List.foldlRecOn (motive := InPlace s) _ _ (.refl s) fun t ht id _ => ht.trans (settleOne_inPlace id (ht.idsRise hids))
  obtain ⟨hnext, hcore, hadm⟩ := hall
  refine ⟨?_, hnext, hadm⟩
  obtain ⟨q, hq, hqr⟩ := List.mem_map.1 (hcore ▸ List.mem_map.2 ⟨r, hr, rfl⟩ : r.core ∈ List.map Req.core _)
  refine ⟨q, List.mem_filter.2 ⟨hq, ?_⟩, hqr⟩
  have hunsent : q.sent = false := (congrArg (·.2.2.2.2) hqr).trans hsent
  rw [hunsent]
  rfl

end Sys2Proof.Machine


/-! SUPPORT. A VC0 packet that arrives (R63, R65, R115 to R117): it becomes an entry, is rejected with its code, or loses its group. -/

namespace Sys2Proof.Machine

/-! ## Admission -/

/-- A WRP with a mask of all ones is executed as a WR of 64 bytes (R91). -/
def fullMask (o : ROp) (p : Vc0) : Bool := decide (o = .wrp) && p.mask == 2 ^ 64 - 1

/-- The entry's operation and packet. -/
def admittedOp (o : ROp) (p : Vc0) : ROp := if fullMask o p then .wr else o
def admittedPacket (o : ROp) (p : Vc0) : Vc0 := if fullMask o p then { p with len := 0, md := false, na := false } else p

theorem fullMask_of_ne {o : ROp} (p : Vc0) (h : o ≠ .wrp) : fullMask o p = false := by simp [fullMask, h]

/-- The state in which a host packet has entered the buffer, before order is looked at. -/
theorem admitPacket_enters (s : State) (o : ROp) (p : Vc0) (runs : List (Nat × Nat)) : ∃ r u, admitPacket s o p .host runs = settle u ∧
    r.core = (s.rqe.nextId, admittedPacket o p, admittedOp o p, .host, false) ∧ u.rqe.reqs = s.rqe.reqs ++ [r] ∧ u.rqe.nextId = s.rqe.nextId + 1 ∧
    u.on F.RQE_STAT_ADMITTED = true := by
  refine ⟨_, _, rfl, rfl, rfl, rfl, ?_⟩
  show ((s.wr F.RQE_STAT_ADMITTED 1).rd F.RQE_STAT_ADMITTED == 1) = true
  rw [State.rd_wr_same]
  rfl

/-- A host packet that is admitted is an entry with the next number, not yet answered. -/
theorem admitPacket_spec {s : State} (o : ROp) (p : Vc0) (runs : List (Nat × Nat)) (hids : IdsRise s) :
    (∃ q ∈ (admitPacket s o p .host runs).rqe.reqs, q.core = (s.rqe.nextId, admittedPacket o p, admittedOp o p, .host, false)) ∧
    (admitPacket s o p .host runs).rqe.nextId = s.rqe.nextId + 1 ∧ (admitPacket s o p .host runs).on F.RQE_STAT_ADMITTED = true := by
  obtain ⟨r, u, hrun, hcore, hreqs, hnext, hadm⟩ := admitPacket_enters s o p runs
  have hid : r.id = s.rqe.nextId := congrArg Prod.fst hcore
  have hsent : r.sent = false := congrArg (·.2.2.2.2) hcore
  obtain ⟨⟨q, hq, hqr⟩, hnext', hadm'⟩ := settle_keeps_unsent (hids.push r hid hreqs hnext) (by rw [hreqs]; simp : r ∈ u.rqe.reqs) hsent
  rw [hrun]
  exact ⟨⟨q, hq, hqr.trans hcore⟩, hnext'.trans hnext, hadm'.trans hadm⟩

/-! ## Taking a packet -/

/-- RQE can take the packet at the head of a group. -/
def CanTake (s : State) : Prop := s.rqe.rejQ.length < 256 ∧ rqeOpen s = true ∧ cycleFree s = true

theorem takePacket_judged {s : State} (p : Vc0) (h : CanTake s) : takePacket s p = match admitCheck s p with
    | .ok =>
      match opOf p.opc with
      | none => (s, false)
      | some o =>
        if hasRoom s o p then
          (releaseVc0 (admitPacket (countTaken s) o p .host ((runsOf s o p).getD [])) p.dom (cellsOf (vc0Len p)), true)
        else (s, false)
    | c => (reject (countTaken s) p c, true) := by
  obtain ⟨hrej, hopen, hcycle⟩ := h
  refine (if_neg ?_).trans ?_
  · simp [Nat.not_le.2 hrej, hopen, hcycle]
  · rfl

theorem takePacket_ok {s : State} {p : Vc0} {o : ROp} (h : CanTake s) (hok : admitCheck s p = .ok) (hop : opOf p.opc = some o)
    (hroom : hasRoom s o p = true) : takePacket s p =
      (releaseVc0 (admitPacket (countTaken s) o p .host ((runsOf s o p).getD [])) p.dom (cellsOf (vc0Len p)), true) := by
  rw [takePacket_judged p h, hok]
  simp only [hop, hroom]
  rfl

theorem takePacket_rejects {s : State} {p : Vc0} (h : CanTake s) (hno : admitCheck s p ≠ .ok) :
    takePacket s p = (reject (countTaken s) p (admitCheck s p), true) := by
  rw [takePacket_judged p h]
  split
  next hok => exact absurd hok hno
  · rfl

/-- One packet waits, and it is taken. -/
theorem takeWaiting_one {s t : State} {p : Vc0} {g : Nat} (hwait : SMap.getD s.rqe.waiting g [] = [p]) (htake : takePacket s p = (t, true)) :
    takeWaiting 1 s g = { t with rqe.waiting := SMap.put t.rqe.waiting g [] [], rqe.waitAt := SMap.erase t.rqe.waitAt g } := by
  simp only [takeWaiting, hwait, htake]

/-- IDLE ends with a packet (R374). -/
def woken (k : Pck) : Pck := if k.pow = .idle then { k with pow := .run } else k

theorem rqeRuns_woken (s : State) (l : Link) (w : SMap (List Vc0)) : rqeRuns (queued s l (woken s.pck) w) = rqeRuns s := by
  show (((woken s.pck).pow == .run || (woken s.pck).pow == .idle || (woken s.pck).pow == .entering) && !(woken s.pck).fabDown) = _
  unfold woken
  split
  next hidle =>
    unfold rqeRuns
    rw [hidle]
    rfl
  · rfl

/-- The state in which a packet that arrives is judged. -/
def arrived (s : State) (g : Nat) (p : Vc0) : State :=
  queued s (holdVc0 s p.dom (cellsOf (vc0Len p))).link (woken s.pck) (SMap.put s.rqe.waiting g [] [p])

theorem arrived_waiting (s : State) (g : Nat) (p : Vc0) : SMap.getD (arrived s g p).rqe.waiting g [] = [p] := by
  show SMap.getD (SMap.put s.rqe.waiting g [] [p]) g [] = [p]
  exact SMap.getD_put_same ..

/-- A packet that is heard at once is the only one of its group. -/
theorem arriveVc0_heard {s : State} {g : Nat} {p : Vc0} (h : Heard s g p) : arriveVc0 g p s = takeWaiting 1 (arrived s g p) g := by
  obtain ⟨hhears, hup, hroom, hnone, -⟩ := h
  have hserves : (!((s.grp g).inSvc && !(s.grp g).dir && !(s.grp g).frozen)) = false := by
    rw [show ((s.grp g).inSvc && !(s.grp g).dir && !(s.grp g).frozen) = true from hhears]
    rfl
  have hpow : (if (holdVc0 s p.dom (cellsOf (vc0Len p))).pck.pow = .idle then { holdVc0 s p.dom (cellsOf (vc0Len p)) with pck.pow := .run }
      else holdVc0 s p.dom (cellsOf (vc0Len p))) = { s with link := (holdVc0 s p.dom (cellsOf (vc0Len p))).link, pck := woken s.pck } := by
    unfold woken
    show (if s.pck.pow = .idle then _ else _) = _
    split <;> rfl
  have hwait : SMap.getD (holdVc0 s p.dom (cellsOf (vc0Len p))).rqe.waiting g [] = [] := hnone
  simp only [arriveVc0, hserves, hup, hroom, deliverVc0, hwait, hpow]
  rfl

theorem arrived_canTake {s : State} {g : Nat} {p : Vc0} (h : Heard s g p) : CanTake (arrived s g p) := by
  obtain ⟨-, -, -, -, hrej, hopen, hcycle⟩ := h
  refine ⟨hrej, ?_, hcycle⟩
  rw [arrived, rqeOpen, rqeRuns_woken, on_queued]
  exact hopen

/-- A packet that is heard, passes the checks and finds room becomes an entry (R115, R123). -/
theorem arriveVc0_admits {s : State} {g : Nat} {p : Vc0} {o : ROp} (h : Heard s g p) (hids : IdsRise s) (hok : admitCheck s p = .ok)
    (hop : opOf p.opc = some o) (hroom : hasRoom s o p = true) :
    (∃ q ∈ (arriveVc0 g p s).rqe.reqs, q.core = (s.rqe.nextId, admittedPacket o p, admittedOp o p, .host, false)) ∧
    (arriveVc0 g p s).rqe.nextId = s.rqe.nextId + 1 ∧ (arriveVc0 g p s).on F.RQE_STAT_ADMITTED = true := by
  have htake := takePacket_ok (arrived_canTake h) ((admitCheck_queued ..).trans hok) hop ((hasRoom_queued ..).trans hroom)
  have hspec := admitPacket_spec (s := countTaken (arrived s g p)) o p ((runsOf (arrived s g p) o p).getD []) hids
  rw [arriveVc0_heard h, takeWaiting_one (arrived_waiting ..) htake]
  generalize admitPacket (countTaken (arrived s g p)) o p .host ((runsOf (arrived s g p) o p).getD []) = u at hspec
  exact hspec

/-- A rejection counts by its code (R116). -/
def rejectCounted (s : State) (p : Vc0) (c : Code) : State :=
  match c with
  | .badOpcode => s.inc F.RQE_DOM_REJ_REJ_OPC 1 p.dom
  | .privilege => s.inc F.RQE_DOM_REJ_REJ_PRIV 1 p.dom
  | .range => s.inc F.RQE_DOM_REJ_REJ_RANGE 1 p.dom
  | _ => s.inc F.RQE_DOM_REJ_REJ_STATE 1 p.dom

/-- A duplicate tag is recorded (R116). -/
def duplicateRecorded (s : State) (p : Vc0) (c : Code) : State :=
  if c = .state ∧ tagInUse s p.dom p.tag then ((s.wr F.RQE_DUP_DUP_TAG p.tag).wr F.RQE_DUP_DUP_DOM p.dom).inc F.RQE_DUP_DUP_CNT else s

theorem reject_eq (s : State) (p : Vc0) (c : Code) : reject s p c =
    releaseVc0 { duplicateRecorded (rejectCounted s p c) p c with
      rqe.rejQ := (duplicateRecorded (rejectCounted s p c) p c).rqe.rejQ ++ [cplBytes p.tag p.dom c] } p.dom (cellsOf (vc0Len p)) := rfl

theorem rejectCounted_same (s : State) (p : Vc0) (c : Code) : (rejectCounted s p c).rqe = s.rqe ∧ (rejectCounted s p c).mem = s.mem := by
  unfold rejectCounted
  split <;> exact ⟨rfl, rfl⟩

theorem duplicateRecorded_same (s : State) (p : Vc0) (c : Code) :
    (duplicateRecorded s p c).rqe = s.rqe ∧ (duplicateRecorded s p c).mem = s.mem := by
  unfold duplicateRecorded
  split <;> exact ⟨rfl, rfl⟩

/-- A packet that is rejected is answered, and takes no number. -/
theorem reject_rqe (s : State) (p : Vc0) (c : Code) : (reject s p c).rqe = { s.rqe with rejQ := s.rqe.rejQ ++ [cplBytes p.tag p.dom c] } ∧
    (reject s p c).mem = s.mem := by
  obtain ⟨hrqe, hmem⟩ := rejectCounted_same s p c
  obtain ⟨hrqe', hmem'⟩ := duplicateRecorded_same (rejectCounted s p c) p c
  rw [reject_eq, ← hrqe, ← hmem, ← hrqe', ← hmem']
  exact ⟨rfl, rfl⟩

/-- One that fails a check is answered with the code (R116). -/
theorem arriveVc0_rejects {s : State} {g : Nat} {p : Vc0} (h : Heard s g p) (hno : admitCheck s p ≠ .ok) :
    (arriveVc0 g p s).rqe.rejQ = s.rqe.rejQ ++ [cplBytes p.tag p.dom (admitCheck s p)] ∧ (arriveVc0 g p s).rqe.reqs = s.rqe.reqs ∧
    (arriveVc0 g p s).rqe.nextId = s.rqe.nextId ∧ (arriveVc0 g p s).mem = s.mem := by
  have hcheck : admitCheck (arrived s g p) p = admitCheck s p := admitCheck_queued ..
  have htake := takePacket_rejects (p := p) (arrived_canTake h) (by rwa [hcheck])
  rw [hcheck] at htake
  obtain ⟨hrqe, hmem⟩ := reject_rqe (countTaken (arrived s g p)) p (admitCheck s p)
  rw [arriveVc0_heard h, takeWaiting_one (arrived_waiting ..) htake]
  dsimp only
  rw [hrqe, hmem]
  exact ⟨rfl, rfl, rfl, rfl⟩

/-! ## A protocol error -/

/-- A link that goes down answers no packet that was rejected before, and the numbers go on (R134). -/
theorem dropLink_rqe (s : State) : (dropLink s).rqe.rejQ = [] ∧ (dropLink s).rqe.nextId = s.rqe.nextId := by
  obtain ⟨regs, hlost⟩ := countLost_regs s
    (((List.range 16).flatMap fun g => (s.grp g).replay.flatMap (·.ends)) ++ s.link.resend ++ s.rqe.rejQ)
  have hnext : (dropLink s).rqe.nextId =
      (countLost s (((List.range 16).flatMap fun g => (s.grp g).replay.flatMap (·.ends)) ++ s.link.resend ++ s.rqe.rejQ)).rqe.nextId := rfl
  refine ⟨rfl, ?_⟩
  rw [hnext, hlost]

theorem wholeRetrain_rqe (n : Nat) (s : State) : (wholeRetrain n s).rqe.rejQ = [] ∧ (wholeRetrain n s).rqe.nextId = s.rqe.nextId := by
  obtain ⟨⟨_, _, _, hdetect⟩, -⟩ := allDetect_spec (dropLink (s.raiseG 274 .fault 0 n))
  obtain ⟨hrej, hnext⟩ := dropLink_rqe (s.raiseG 274 .fault 0 n)
  obtain ⟨-, -, -, hrqe⟩ := s.raiseG_same 274 .fault 0 n []
  rw [hrqe] at hnext
  unfold wholeRetrain
  rw [hdetect]
  exact ⟨hrej, hnext⟩

/-- A group that leaves service takes no number. -/
theorem leaveService_nextId (s : State) (g : Nat) : (leaveService s g).rqe.nextId = s.rqe.nextId := by
  unfold leaveService
  extract_lets _ m t
  have ht : t.rqe = m.rqe := by
    obtain ⟨-, -, -, hrqe, -⟩ := ((fixHome_sends m false).trans (fixHome_sends _ true)).same
    exact hrqe
  split
  · exact (wholeRetrain_rqe _ t).2.trans (congrArg (·.nextId) ht)
  · obtain ⟨-, -, -, hrqe, -⟩ := ((autoBalance_sends t).trans (drain_sends _)).same
    exact congrArg (·.nextId) (hrqe.trans ht)

theorem abandonTurnOf_rqe (s : State) (g : Nat) : (abandonTurnOf s g).rqe = s.rqe := by
  unfold abandonTurnOf
  split
  · obtain ⟨_, _, _, _, _, heq⟩ := abandonTurn_eq s .timeout
    rw [heq]
  · rfl

theorem State.raise_rqe (s : State) (src : Nat) (v : Sev) (syn : List Nat) : (s.raise src v syn).rqe = s.rqe := by
  obtain ⟨-, -, -, -, -, -, -, -, -, hrqe, -⟩ := (s.raise_reach src v syn).same
  exact hrqe

/-- A loss is raised and counted. -/
def lossNoted (s : State) (g cause : Nat) : State :=
  (s.raise (192 + 3 * g + 1) .fault [g + cause * 16 + b2n (s.grp g).dir * 128]).inc F.HLL_EVT_LOSSES 1 g

theorem lossNoted_rqe (s : State) (g cause : Nat) : (lossNoted s g cause).rqe = s.rqe := by
  rw [lossNoted, State.inc_rqe, State.raise_rqe]

/-- The group goes to DETECT, its turn given up and its stream `x` lost (Table 3.7). -/
def lossDetected (s : State) (g : Nat) (x : Grp) : State := (groupDetect (abandonTurnOf s g) g).modGrp g (loseStream x)

theorem lossDetected_rqe (s : State) (g : Nat) (x : Grp) : (lossDetected s g x).rqe = s.rqe := by
  obtain ⟨⟨_, _, _, hdetect⟩, -⟩ := groupDetect_on (abandonTurnOf s g) g
  rw [lossDetected, State.modGrp_rqe, hdetect]
  exact abandonTurnOf_rqe s g

/-- The item of step 1 of Table 3.7 waits, unless the partner lost the group. -/
def lossAnnounced (s : State) (ask : Bool) (i : List Byte) : State := if ask then { s with link.items := s.link.items ++ [i] } else s

theorem lossAnnounced_rqe (s : State) (ask : Bool) (i : List Byte) : (lossAnnounced s ask i).rqe = s.rqe := by
  unfold lossAnnounced
  split <;> rfl

/-- The loss of a group in service. -/
theorem groupLostWith_eq {s : State} {g : Nat} (ask : Bool) (cause : Nat) (hin : (s.grp g).inSvc = true) : groupLostWith ask g cause s =
    leaveService (lossAnnounced (lossDetected (lossNoted s g cause) g (s.grp g)) ask (lossItem g (s.grp g))) g := by
  simp only [groupLostWith, hin, lossAnnounced, lossDetected, lossNoted]
  rfl

/-- A group that is lost takes no number. -/
theorem groupLost_nextId {s : State} {g : Nat} (cause : Nat) (hin : (s.grp g).inSvc = true) : (groupLost g cause s).rqe.nextId = s.rqe.nextId := by
  rw [groupLost, groupLostWith_eq true cause hin, leaveService_nextId, lossAnnounced_rqe, lossDetected_rqe, lossNoted_rqe]

/-- A packet before link-ready, or without room in its pool, loses its group (R63, R65). -/
theorem arriveVc0_protocol {s : State} {g : Nat} {p : Vc0} (hg : g < 16) (hhears : hears s g = true)
    (h : s.link.up = false ∨ roomVc0 s p.dom (cellsOf (vc0Len p)) = false) :
    ((arriveVc0 g p s).grp g).inSvc = false ∧ (arriveVc0 g p s).rqe.nextId = s.rqe.nextId := by
  have hserves : (!((s.grp g).inSvc && !(s.grp g).dir && !(s.grp g).frozen)) = false := by
    rw [show ((s.grp g).inSvc && !(s.grp g).dir && !(s.grp g).frozen) = true from hhears]
    rfl
  have hbad : (!s.link.up || !roomVc0 s p.dom (cellsOf (vc0Len p))) = true := by
    rcases h with hup | hroom
    · rw [hup]
      rfl
    · rw [hroom, Bool.not_false, Bool.or_true]
  have hrun : arriveVc0 g p s = groupLost g 2 (s.inc F.HLL_EVT_PROTO 1 g) := by
    simp only [arriveVc0, hserves, hbad, protocolError]
    rfl
  have hin : ((s.inc F.HLL_EVT_PROTO 1 g).grp g).inSvc = true := by
    show (s.grp g).inSvc = true
    exact inSvc_of_hears hhears
  rw [hrun, groupLost_nextId 2 hin]
  exact ⟨(groupLost_grp 2 hg hin).2, rfl⟩

/-! ## The commands -/

theorem exec_flush (h : ReqHdr) (inv : Bool) (rcnt : BitVec 24) (s : State) :
    exec (.flush h inv rcnt) s = .next (arriveVc0 h.grp.val { vc0Head h 0x30 with opf := inv, rcnt := rcnt.toNat } s) := rfl

theorem exec_zero (h : ReqHdr) (rcnt : BitVec 24) (s : State) :
    exec (.zero h rcnt) s = .next (arriveVc0 h.grp.val { vc0Head h 0x31 with rcnt := rcnt.toNat } s) := rfl

theorem exec_fence (h : ReqHdr) (all : Bool) (s : State) :
    exec (.fence h all) s = .next (arriveVc0 h.grp.val { vc0Head h 0x32 with ord := false, addr := 0, opf := all } s) := rfl

theorem exec_rd (h : ReqHdr) (len : Fin 4) (na md : Bool) (s : State) :
    exec (.rd h len na md) s = .next (arriveVc0 h.grp.val { vc0Head h 0x00 with len := len.val, na := na, md := md } s) := rfl

theorem exec_reservedVc0Opcode {h : ReqHdr} {opc : Fin 64} (len : Fin 4) (s : State) (hopc : reservedOp opc.val = true) :
    exec (.reservedVc0Opcode h opc len) s = .next (arriveVc0 h.grp.val { vc0Head h opc.val with len := len.val } s) :=
  congrArg Host.Outcome.next (if_pos hopc)

/-- A reserved opcode has no operation (R82). -/
theorem opOf_reserved {opc : Fin 64} (h : reservedOp opc.val = true) : opOf opc.val = none := by
  revert opc
  decide

/-- Any operation but WRP enters as it is. -/
theorem arriveVc0_enters {s : State} {g : Nat} {p : Vc0} {o : ROp} (hop : opOf p.opc = some o) (ho : o ≠ .wrp) (h : Heard s g p) (hids : IdsRise s)
    (hok : admitCheck s p = .ok) (hroom : hasRoom s o p = true) : ∃ r, r ∈ (arriveVc0 g p s).rqe.reqs ∧ r.id = s.rqe.nextId ∧ r.p = p ∧ r.op = o ∧
      r.iss = .host ∧ r.sent = false ∧ (arriveVc0 g p s).rqe.nextId = s.rqe.nextId + 1 ∧ (arriveVc0 g p s).on F.RQE_STAT_ADMITTED = true := by
  obtain ⟨⟨r, hr, hcore⟩, hnext, hadm⟩ := arriveVc0_admits h hids hok hop hroom
  simp only [admittedPacket, admittedOp, fullMask_of_ne p ho, Req.core, Prod.mk.injEq] at hcore
  obtain ⟨hid, hp, ho', hiss, hsent⟩ := hcore
  exact ⟨r, hr, hid, hp, ho', hiss, hsent, hnext, hadm⟩

/-- Settles O29: a packet heard at once is judged as it stands (`arriveVc0_admits`, `arriveVc0_rejects`), and without room or link its group is lost. -/
theorem rangesAndFencesAreAdmitted : Obligations.RangesAndFencesAreAdmitted := by
  unfold Obligations.RangesAndFencesAreAdmitted
  refine ⟨fun s h inv rcnt p hp hheard hids hok hroom => ?_, fun s h rcnt p hp hheard hids hok hroom => ?_,
    fun s h all p hp hheard hids hok hroom => ?_, fun s h len na md p c hp hheard hcheck hno => ?_, fun s h opc len hopc hheard => ?_,
    fun s h all p hp hhears hbad => ?_⟩
  · obtain ⟨r, hspec⟩ := arriveVc0_enters (by rw [hp]; rfl) (by decide) hheard hids hok hroom
    exact ⟨_, r, by rw [exec_flush, ← hp], hspec⟩
  · obtain ⟨r, hspec⟩ := arriveVc0_enters (by rw [hp]; rfl) (by decide) hheard hids hok hroom
    exact ⟨_, r, by rw [exec_zero, ← hp], hspec⟩
  · obtain ⟨r, hspec⟩ := arriveVc0_enters (by rw [hp]; rfl) (by decide) hheard hids hok hroom
    exact ⟨_, r, by rw [exec_fence, ← hp], hspec⟩
  · obtain ⟨hrej, hreqs, hnext, hmem⟩ := arriveVc0_rejects hheard (by rwa [hcheck])
    rw [hcheck, show p.tag = h.tag.toNat by rw [hp]; rfl, show p.dom = h.dom.val by rw [hp]; rfl] at hrej
    exact ⟨_, by rw [exec_rd, ← hp], hrej, hreqs, hnext, hmem⟩
  · have hcheck : admitCheck s { vc0Head h opc.val with len := len.val } = .badOpcode := by
      rw [admitCheck, show opOf ({ vc0Head h opc.val with len := len.val } : Vc0).opc = none from opOf_reserved hopc]
    obtain ⟨hrej, hreqs, hnext, -⟩ := arriveVc0_rejects hheard (by rw [hcheck]; decide)
    rw [hcheck] at hrej
    exact ⟨_, exec_reservedVc0Opcode len s hopc, hrej, hreqs, hnext⟩
  · obtain ⟨hin, hnext⟩ := arriveVc0_protocol h.grp.isLt hhears hbad
    exact ⟨_, by rw [exec_fence, ← hp], hin, hnext⟩

end Sys2Proof.Machine


/-! SUPPORT. A flit that FEC cannot correct (R53, R58), where `NAK_LIMIT` and the last group of a direction meet: the loss of the group takes the link down,
and with it the answers of rejected packets that wait (R60, R68, R134). -/

namespace Sys2Proof.Machine

/-! ## The loss of the last group of a direction -/

/-- After the whole link retrains no lane of a group carries flits. -/
theorem wholeRetrain_carry (n : Nat) (s : State) {g : Nat} (hg : g < 16) : ((wholeRetrain n s).grp g).carry = 0 := by
  refine (groups_fold (fun t g => (groupDetect t g).modGrp g freshStream) (fun t g => (groupDetect_on t g).trans (State.modGrp_on ..))
    (fun _ x => x.carry = 0) (fun t k => ?_) 16 (dropLink (s.raiseG 274 .fault 0 n))).2 g hg
  obtain ⟨b, o, c, hdetect⟩ := groupDetect_grp t k
  rw [State.modGrp_grp_same, hdetect]
  rfl

/-- A direction that a group leaves without another retrains the link as a whole. -/
theorem leaveService_last {s : State} {g : Nat} {dir : Bool} (hup : s.link.up = true)
    (hlast : ∀ k, k < 16 → k ≠ g → (s.grp k).inSvc = true → (s.grp k).dir ≠ dir) : ∃ n u, leaveService s g = wholeRetrain n u := by
  unfold leaveService
  extract_lets before m t
  have hreach : LinkReach m t := (fixHome_reach m false).trans (fixHome_reach _ true)
  have htup : t.link.up = true := hreach.2.2.1.trans hup
  have htempty : inService t dir = [] := by
    rw [inService_eq_nil_iff]
    intro k hk hin
    obtain ⟨hsvc, hdir, -⟩ := hreach.group k
    rw [hsvc] at hin
    rw [hdir]
    by_cases hkg : k = g
    · subst hkg
      rw [State.modGrp_grp_same] at hin
      exact Bool.noConfusion hin
    · rw [State.modGrp_grp_ne _ _ _ _ hkg] at hin ⊢
      exact hlast k hk hkg hin
  exact ⟨before, t, if_pos (by cases dir <;> simp [htup, htempty])⟩

theorem State.setGrp_up (s : State) (g : Nat) (x : Grp) : (s.setGrp g x).link.up = s.link.up := rfl

theorem State.modGrp_up (s : State) (g : Nat) (f : Grp → Grp) : (s.modGrp g f).link.up = s.link.up := rfl

/-- The lost group's state changes, and the link stays up so far. -/
theorem lossDetected_link (s : State) (g : Nat) (x : Grp) : (lossDetected s g x).link.up = s.link.up ∧
    ∀ k, k ≠ g → (lossDetected s g x).grp k = s.grp k := by
  obtain ⟨hup, hgrp⟩ := abandonTurnOf_link s g
  obtain ⟨⟨_, _, _, hdetect⟩, hother⟩ := groupDetect_on (abandonTurnOf s g) g
  have hdetectUp : (groupDetect (abandonTurnOf s g) g).link.up = (abandonTurnOf s g).link.up := by rw [hdetect]
  unfold lossDetected
  refine ⟨?_, fun k hk => ?_⟩
  · rw [State.modGrp_up, hdetectUp, hup]
  · rw [State.modGrp_grp_ne _ _ _ _ hk, hother k hk, hgrp]

theorem lossNoted_link (s : State) (g cause : Nat) : (lossNoted s g cause).link = s.link := by
  unfold lossNoted
  rw [State.inc_link, State.raise_link]

theorem lossAnnounced_link (s : State) (ask : Bool) (i : List Byte) : (lossAnnounced s ask i).link.up = s.link.up ∧
    ∀ k, (lossAnnounced s ask i).grp k = s.grp k := by
  unfold lossAnnounced
  split <;> exact ⟨rfl, fun _ => rfl⟩

/-- The last group of a direction that is lost takes the link down. -/
theorem groupLost_last {s : State} {g : Nat} {dir : Bool} (cause : Nat) (hg : g < 16) (hup : s.link.up = true) (hin : (s.grp g).inSvc = true)
    (hlast : ∀ k, k < 16 → k ≠ g → (s.grp k).inSvc = true → (s.grp k).dir ≠ dir) :
    (groupLost g cause s).rqe.rejQ = [] ∧ ((groupLost g cause s).grp g).carry = 0 := by
  have hgrp (k : Nat) : (lossNoted s g cause).grp k = s.grp k := by rw [State.grp, lossNoted_link, State.grp]
  obtain ⟨hupD, hgrpD⟩ := lossDetected_link (lossNoted s g cause) g (s.grp g)
  obtain ⟨hupA, hgrpA⟩ := lossAnnounced_link (lossDetected (lossNoted s g cause) g (s.grp g)) true (lossItem g (s.grp g))
  obtain ⟨n, u, hrun⟩ := leaveService_last (s := lossAnnounced (lossDetected (lossNoted s g cause) g (s.grp g)) true (lossItem g (s.grp g))) (g := g)
    (dir := dir) (by rw [hupA, hupD, lossNoted_link, hup]) fun k hk hkg => by
      rw [hgrpA, hgrpD k hkg, hgrp]
      exact hlast k hk hkg
  rw [groupLost, groupLostWith_eq true cause hin, hrun]
  exact ⟨(wholeRetrain_rqe n u).1, wholeRetrain_carry n u hg⟩

/-! ## A flit that FEC cannot correct -/

/-- Lanes that carry nothing do not fail by symbol errors. -/
theorem fecFails_of_carry {s : State} {g : Nat} (h : (s.grp g).carry = 0) : fecFails g s = s := by
  refine List.foldlRecOn (motive := fun t => t = s) _ _ rfl fun t ht l _ => ?_
  have hbit : bit (t.grp g).carry l = false := by
    rw [ht, h, bit, Nat.zero_div]
    rfl
  rw [hbit]
  exact ht

/-- FEC that corrects no symbol counts none: the group's window may begin anew. -/
theorem countFec_none (s : State) (g : Nat) : ∃ win start, countFec s g [] =
    (s.inc F.HLL_FEC_FEC_CORR 0 g).setGrp g { s.grp g with fecWin := win, fecStart := start } := by
  unfold countFec
  dsimp only
  split
  · exact ⟨_, _, rfl⟩
  · exact ⟨_, _, rfl⟩

/-- The flit is counted and answered with NAK, unless one is outstanding. -/
theorem flitIn_uncorrectable {s : State} {g : Nat} {raw : List Byte} (hhears : hears s g = true) (hfec : flitFec (slice raw 0 256) = (none, []))
    (hnak : (s.grp g).nakOut = false) :
    flitIn g raw s = fecFails g (drain (sendNak ((countFec s g []).inc F.HLL_FLIT_BAD_FLITS 1 g) g)) := by
  simp only [flitIn, hhears, receiveFlit, hfec, hnak]
  rfl

/-- A NAK before it is judged whether it is one too many. -/
def nakSent (s : State) (g : Nat) : State :=
  sendItem ((s.setGrp g { s.grp g with nakOut := true, nakCnt := (s.grp g).nakCnt + 1 }).inc F.HLL_EVT_NAKS_TX 1 g) (nakItem g (s.grp g).rxExp)

theorem nakSent_sends (s : State) (g : Nat) : Sends
    ((s.setGrp g { s.grp g with nakOut := true, nakCnt := (s.grp g).nakCnt + 1 }).inc F.HLL_EVT_NAKS_TX 1 g) (nakSent s g) := sendItem_sends ..

theorem sendNak_of_limit {s : State} {g : Nat} (h : (nakSent s g).rd F.HLL_CTL_NAK_LIMIT ≤ (s.grp g).nakCnt + 1) :
    sendNak s g = groupLost g 0 (nakSent s g) := if_pos h

/-- A group changes without leaving service or turning round. -/
theorem State.setGrp_serves {s : State} {g : Nat} {x : Grp} (hin : x.inSvc = (s.grp g).inSvc) (hdir : x.dir = (s.grp g).dir) (k : Nat) :
    ((s.setGrp g x).grp k).inSvc = (s.grp k).inSvc ∧ ((s.setGrp g x).grp k).dir = (s.grp k).dir := by
  by_cases hk : k = g
  · subst hk
    rw [State.setGrp_grp_same]
    exact ⟨hin, hdir⟩
  · rw [State.setGrp_grp_ne _ _ _ _ hk]
    exact ⟨rfl, rfl⟩

theorem State.inc_setGrp_grp (s : State) (f : Fld) (n i j g : Nat) (x : Grp) (k : Nat) : ((s.inc f n i j).setGrp g x).grp k = (s.setGrp g x).grp k := rfl

theorem State.setGrp_inc_grp (s : State) (f : Fld) (n i j g : Nat) (x : Grp) (k : Nat) : ((s.setGrp g x).inc f n i j).grp k = (s.setGrp g x).grp k := rfl

/-- The counters of a group are not `NAK_LIMIT`. -/
theorem nakLimit_apart (g : Nat) : F.HLL_CTL_NAK_LIMIT.at 0 0 ≠ F.HLL_FEC_FEC_CORR.at g 0 ∧ F.HLL_CTL_NAK_LIMIT.at 0 0 ≠ F.HLL_FLIT_BAD_FLITS.at g 0 ∧
    F.HLL_CTL_NAK_LIMIT.at 0 0 ≠ F.HLL_EVT_NAKS_TX.at g 0 := by
  simp only [Fld.at, F.HLL_CTL_NAK_LIMIT, F.HLL_FEC_FEC_CORR, F.HLL_FLIT_BAD_FLITS, F.HLL_EVT_NAKS_TX]
  omega

/-- A NAK leaves the link, the groups in service and the limit. -/
theorem nakSent_same (s : State) (g : Nat) : (nakSent s g).link.up = s.link.up ∧
    (∀ k, ((nakSent s g).grp k).inSvc = (s.grp k).inSvc ∧ ((nakSent s g).grp k).dir = (s.grp k).dir) ∧
    (nakSent s g).rd F.HLL_CTL_NAK_LIMIT = s.rd F.HLL_CTL_NAK_LIMIT := by
  have hsent := nakSent_sends s g
  obtain ⟨hup, -⟩ := hsent.sameLink
  obtain ⟨-, -, hapart⟩ := nakLimit_apart g
  refine ⟨hup, fun k => ?_, ?_⟩
  · obtain ⟨hin, hdir, -⟩ := hsent.group k
    obtain ⟨hin', hdir'⟩ := State.setGrp_serves (s := s) (g := g) (x := { s.grp g with nakOut := true, nakCnt := (s.grp g).nakCnt + 1 }) rfl rfl k
    rw [State.setGrp_inc_grp] at hin hdir
    exact ⟨hin.trans hin', hdir.trans hdir'⟩
  · rw [hsent.rd, State.rd_inc_ne _ _ _ _ _ _ _ _ hapart, State.setGrp_rd]

/-- So does the count of a broken flit, which leaves the NAKs in a row as well. -/
theorem brokenCounted_same (s : State) (g : Nat) : ((countFec s g []).inc F.HLL_FLIT_BAD_FLITS 1 g).link.up = s.link.up ∧
    (∀ k, (((countFec s g []).inc F.HLL_FLIT_BAD_FLITS 1 g).grp k).inSvc = (s.grp k).inSvc ∧
      (((countFec s g []).inc F.HLL_FLIT_BAD_FLITS 1 g).grp k).dir = (s.grp k).dir) ∧
    ((countFec s g []).inc F.HLL_FLIT_BAD_FLITS 1 g).rd F.HLL_CTL_NAK_LIMIT = s.rd F.HLL_CTL_NAK_LIMIT ∧
    (((countFec s g []).inc F.HLL_FLIT_BAD_FLITS 1 g).grp g).nakCnt = (s.grp g).nakCnt := by
  obtain ⟨win, start, hcount⟩ := countFec_none s g
  obtain ⟨hcorr, hbad, -⟩ := nakLimit_apart g
  have hgrp (k : Nat) : ((countFec s g []).inc F.HLL_FLIT_BAD_FLITS 1 g).grp k = (countFec s g []).grp k := rfl
  refine ⟨?_, fun k => ?_, ?_, ?_⟩
  · rw [State.inc_link, hcount, State.setGrp_up, State.inc_link]
  · rw [hgrp, hcount, State.inc_setGrp_grp]
    exact State.setGrp_serves (x := { s.grp g with fecWin := win, fecStart := start }) rfl rfl k
  · rw [State.rd_inc_ne _ _ _ _ _ _ _ _ hbad, hcount, State.setGrp_rd, State.rd_inc_ne _ _ _ _ _ _ _ _ hcorr]
  · rw [hgrp, hcount, State.setGrp_grp_same]

/-- A broken flit whose NAK is one too many, on the last group of its direction: no answer of a rejected packet waits any more. -/
theorem flitIn_last {s : State} {g : Nat} {raw : List Byte} (hg : g < 16) (hhears : hears s g = true)
    (hfec : flitFec (slice raw 0 256) = (none, [])) (hnak : (s.grp g).nakOut = false) (hlimit : s.rd F.HLL_CTL_NAK_LIMIT ≤ (s.grp g).nakCnt + 1)
    (hup : s.link.up = true) (hlast : ∀ k, k < 16 → k ≠ g → (s.grp k).inSvc = true → (s.grp k).dir ≠ (s.grp g).dir) :
    (flitIn g raw s).rqe.rejQ = [] := by
  obtain ⟨hup1, hserve1, hlimit1, hcnt1⟩ := brokenCounted_same s g
  rw [flitIn_uncorrectable hhears hfec hnak]
  generalize (countFec s g []).inc F.HLL_FLIT_BAD_FLITS 1 g = u at hup1 hserve1 hlimit1 hcnt1 ⊢
  obtain ⟨hup2, hserve2, hlimit2⟩ := nakSent_same u g
  rw [sendNak_of_limit (by rw [hlimit2, hlimit1, hcnt1]; exact hlimit)]
  obtain ⟨hrej, hcarry⟩ := groupLost_last (s := nakSent u g) (g := g) (dir := (s.grp g).dir) 0 hg (by rw [hup2, hup1, hup])
    (by rw [(hserve2 g).1, (hserve1 g).1, inSvc_of_hears hhears]) fun k hk hkg hin => by
      rw [(hserve2 k).1, (hserve1 k).1] at hin
      rw [(hserve2 k).2, (hserve1 k).2]
      exact hlast k hk hkg hin
  have hdrain := drain_sends (groupLost g 0 (nakSent u g))
  obtain ⟨-, -, -, hrqe, -⟩ := hdrain.same
  obtain ⟨-, -, -, -, -, hcarry'⟩ := hdrain.group g
  rw [fecFails_of_carry (hcarry'.trans hcarry), hrqe, hrej]

/-! ## The state that refutes the statement -/

/-- G0 alone receives, G8 sends, the link is up, the seventh NAK for one EXP has been sent, and the answer of a rejected packet waits. -/
def lastGroupIn : State :=
  { State.reset with
    pck := { pow := .run }
    link := {
      grp := [(0, { gst := .active, inSvc := true, carry := 0xFFFF, nakCnt := 7 }), (8, { gst := .active, inSvc := true, dir := true, carry := 0xFFFF })]
      up := true }
    rqe := { rejQ := [cplBytes 1 0 .badOpcode] } }

/-- Bytes that FEC cannot correct. -/
def brokenFlit : List Byte := [1, 0, 3, 0, 2]

theorem flitFec_brokenFlit : flitFec (slice brokenFlit 0 256) = (none, []) := by decide +kernel

theorem exec_flitReceive (g : Fin 16) (raw : List Byte) (s : State) : exec (.flitReceive g raw) s = .next (flitIn g.val raw s) := rfl

/-- Refutes O23: the first clause keeps the request engine (`t.rqe = s.rqe`) for every broken flit, but the NAK that reaches `NAK_LIMIT` loses the group,
and where it was the last of its direction the link goes down and the rejection queue is emptied (R60, R68, R134). -/
theorem not_flitsAreCheckedAndSequenced : ¬ Obligations.FlitsAreCheckedAndSequenced := by
  unfold Obligations.FlitsAreCheckedAndSequenced
  rintro ⟨hbroken, -⟩
  have hhears : hears lastGroupIn 0 = true := by decide
  have hquiet : FecQuiet lastGroupIn 0 (slice brokenFlit 0 256) := by
    unfold FecQuiet
    rw [flitFec_brokenFlit]
    decide
  obtain ⟨t, hrun, -, hrqe, -⟩ := hbroken lastGroupIn 0 brokenFlit hhears hquiet (.inl (by rw [flitFec_brokenFlit]))
  rw [exec_flitReceive, Host.Outcome.next.injEq] at hrun
  have hempty : (flitIn (0 : Fin 16).val brokenFlit lastGroupIn).rqe.rejQ = [] :=
    flitIn_last (by decide) hhears flitFec_brokenFlit (by decide) (by decide) rfl (by decide)
  have hkept : t.rqe.rejQ = [cplBytes 1 0 .badOpcode] := congrArg (·.rejQ) hrqe
  rw [← hrun, hempty] at hkept
  exact List.cons_ne_nil _ _ hkept.symm

end Sys2Proof.Machine


/-! SUPPORT. The service port (R428 to R438): frames, bulk transfers, the service link, EP0, and the lock of a turned group (R75). -/

namespace Sys2Proof.Machine

/-! ## Frames (R430 to R432) -/

/-- Where frames are open, registers are open and the service link is up. -/
theorem framesOpen_iff (s : State) : framesOpen s = true ↔ svcUp s = true ∧ regsOpen s = true := Bool.and_eq_true_iff

/-- Counting in another place than `SLSTATE` leaves the service link up. -/
theorem svcUp_inc (s : State) (f : Fld) (n i j : Nat) (h : F.SVC_STAT_SLSTATE.at 0 0 ≠ f.at i j) : svcUp (s.inc f n i j) = svcUp s := by
  unfold svcUp
  rw [State.rd_inc_ne s f F.SVC_STAT_SLSTATE n i j 0 0 h]

@[simp] theorem svcUp_countFrame (s : State) : svcUp (countFrame s) = svcUp s := svcUp_inc s _ _ _ _ (by decide)

theorem svcRreg_open (stag raddr : Nat) {s : State} (h : framesOpen s = true) :
    svcRreg stag raddr s = access (countFrame s) { who := 16, org := .svc stag, wr := false, off := raddr % 2 ^ 24, val := 0 } :=
  if_neg (by simp [h])

theorem svcWreg_open (stag raddr data : Nat) {s : State} (h : framesOpen s = true) :
    svcWreg stag raddr data s = access (countFrame s) { who := 16, org := .svc stag, wr := true, off := raddr % 2 ^ 24, val := data % 2 ^ 32 } :=
  if_neg (by simp [h])

theorem svcRreg_closed (stag raddr : Nat) {s : State} (h : framesOpen s = false) : svcRreg stag raddr s = s := if_pos (by simp [h])

theorem svcWreg_closed (stag raddr data : Nat) {s : State} (h : framesOpen s = false) : svcWreg stag raddr data s = s := if_pos (by simp [h])

theorem mbxFrame_closed (stag : Nat) (msg : List Byte) {s : State} (h : framesOpen s = false) : mbxFrame stag msg s = s := if_pos (by simp [h])

theorem badFrame_closed (stag : Nat) (c : Code) {s : State} (h : framesOpen s = false) : badFrame stag c s = s := if_pos (by simp [h])

/-- Where frames are not open, a frame of any type is dropped. -/
theorem frameArrive_closed (raw : List Byte) {s : State} (h : framesOpen s = false) : frameArrive raw s = s := by
  unfold frameArrive
  dsimp only
  split
  · exact badFrame_closed _ _ h
  · split
    · exact mbxFrame_closed _ _ h
    · split
      · exact svcRreg_closed _ _ h
      · exact badFrame_closed _ _ h
    · split
      · exact svcWreg_closed _ _ _ h
      · exact badFrame_closed _ _ h
    · exact badFrame_closed _ _ h

/-- A frame goes out on EP1 and nothing else changes. -/
theorem sendFrame_up {s : State} (f : List Byte) (h : svcUp s = true) : sendFrame s f = { s with out := s.out ++ [.ep1 f] } := if_pos h

/-- A frame on EP1 leaves the registers. -/
theorem sendFrame_rd (s : State) (l : List Byte) (f : Fld) (i j : Nat) : (sendFrame s l).rd f i j = s.rd f i j := by
  unfold sendFrame
  split <;> rfl

/-- A frame of a type that does not exist is answered with FRAME_ERR of BAD_OPCODE. -/
theorem frameArrive_badOpcode (raw : List Byte) (s : State) (hlen : 8 ≤ raw.length) (htyp : 4 ≤ leAt raw 0 1) :
    frameArrive raw s = badFrame (leAt raw 2 2) .badOpcode s := by
  unfold frameArrive
  dsimp only
  rw [if_neg (by omega)]
  split
  · omega
  · omega
  · omega
  · rfl

/-- A frame error is one frame on EP1. -/
theorem badFrame_open (stag : Nat) (c : Code) {s : State} (h : framesOpen s = true) :
    (badFrame stag c s).out = s.out ++ [.ep1 (svcFrame 0x84 stag (leBytes 4 c.num))] ∧ (badFrame stag c s).mem = s.mem ∧ (badFrame stag c s).mgt = s.mgt := by
  have hup : svcUp ((countFrame s).inc F.SVC_CNT_FRAME_ERRS) = true := by
    rw [svcUp_inc _ _ _ _ _ (by decide), svcUp_countFrame]
    exact ((framesOpen_iff s).1 h).1
  have hsent : badFrame stag c s = sendFrame ((countFrame s).inc F.SVC_CNT_FRAME_ERRS) (svcFrame 0x84 stag (leBytes 4 c.num)) := if_neg (by simp [h])
  rw [hsent, sendFrame_up _ hup]
  exact ⟨rfl, rfl, rfl⟩

/-- The service host before authentication holds no letter. -/
theorem letters_unauthenticated {s : State} (r : RegId) (i : Nat) (wr : Bool) (h : s.mgt.auth = false) : letters s r 16 i wr = 0 := by
  simp [letters, h]

/-- Who holds no letter may not see a field. -/
theorem mayField_zero (f : Fld) : mayField 0 f = false := by
  simp [mayField]

/-- The service host before authentication is refused with PRIVILEGE at every register but the open ones (R294). -/
theorem svcRreg_unauthenticated (stag raddr : Nat) {s : State} (h : framesOpen s = true) (hauth : s.mgt.auth = false) (hp : pregPending s 16 = false)
    {r : RegId} {i j : Nat} (hat : regAt (raddr % 2 ^ 24) = some (r, i, j)) (hr : openReg r = false) :
    lastResult (svcRreg stag raddr s) 16 = Code.privilege.num := by
  have hopen : regsOpen (countFrame s) = true := ((framesOpen_iff s).1 h).2
  have hletter : r.info.flds.any (mayField (letters (countFrame s) r 16 (ownIdx r 16 i) false)) = false := by
    rw [letters_unauthenticated r _ _ (s := countFrame s) hauth]
    simp [mayField_zero]
  rw [svcRreg_open stag raddr h, access_read (countFrame s) ⟨16, .svc stag, false, raddr % 2 ^ 24, 0⟩ hopen hp rfl]
  unfold runRead
  dsimp only
  rw [hat]
  dsimp only
  rw [readReg_without_letter (countFrame s) 16 r i j hletter fun _ _ => hr]
  exact (sendFrame_rd _ _ _ _ _).trans (recordAcc_res ..)

/-! ## The service mailbox (R431) -/

/-- Writing into the command buffer from byte `k` leaves the bytes before. -/
theorem bufPut_before (l : List Byte) (b : SMap Byte) (k j : Nat) (h : j < k) : SMap.getD (bufPut b k l) j 0 = SMap.getD b j 0 := by
  induction l generalizing b k with
  | nil => rfl
  | cons x l ih =>
    show SMap.getD (bufPut (if k < 4096 then SMap.put b k 0 x else b) (k + 1) l) j 0 = _
    rw [ih _ (k + 1) (by omega)]
    split
    · exact SMap.getD_put_ne _ _ _ _ _ _ (by omega)
    · rfl

/-- The opcode that a message brings is the number in its first two bytes. -/
theorem bufPut_opcode (b : SMap Byte) (msg : List Byte) (h : 2 ≤ msg.length) : leNat (bufGet (bufPut b 0 msg) 0 2) = leAt msg 0 2 := by
  obtain ⟨x, y, l, rfl⟩ : ∃ x y l, msg = x :: y :: l := by
    match msg, h with
    | x :: y :: l, _ => exact ⟨x, y, l, rfl⟩
  have hput : bufPut b 0 (x :: y :: l) = bufPut (SMap.put (SMap.put b 0 0 x) 1 0 y) 2 l := rfl
  have h0 : SMap.getD (bufPut b 0 (x :: y :: l)) 0 0 = x := by
    rw [hput, bufPut_before _ _ _ _ (by omega), SMap.getD_put_ne _ _ _ _ _ _ (by omega), SMap.getD_put_same]
  have h1 : SMap.getD (bufPut b 0 (x :: y :: l)) 1 0 = y := by
    rw [hput, bufPut_before _ _ _ _ (by omega), SMap.getD_put_same]
  show leNat [SMap.getD (bufPut b 0 (x :: y :: l)) (0 + 0) 0, SMap.getD (bufPut b 0 (x :: y :: l)) (0 + 1) 0] = leNat [x, y]
  rw [h0, h1]

/-- A ring of an idle mailbox with the expected number takes the command. -/
theorem doorbell_takes {s : State} {m seq : Nat} (hidle : mstate s m = 1) (hseq : seq = expSeq s m) : doorbell m seq s = takeCommand s m seq := by
  unfold doorbell
  simp only [hidle]
  exact if_neg fun h => h.1 hseq

/-- The service mailbox has a status register of its own. -/
theorem mstate_service (s : State) : mstate s 16 = s.rd F.MBXS_STAT_MSTATE := rfl

theorem setMstate_service (s : State) (v : Nat) : setMstate s 16 v = s.wr F.MBXS_STAT_MSTATE v := rfl

/-- A command that is taken is in hand; one that is known has not run. -/
theorem takeCommand_service (s : State) (seq : Nat) (hknown : knownOpcode (cmdOpcode s 16) = true) :
    mstate (takeCommand s 16 seq) 16 = 2 ∧ (takeCommand s 16 seq).svc = s.svc ∧ ((takeCommand s 16 seq).mbx 16).cmd = (s.mbx 16).cmd ∧
    ((takeCommand s 16 seq).mbx 16).ran = false := by
  unfold takeCommand
  dsimp only
  rw [hknown, State.modMbx_mbx_same, setMstate_service, mstate_service, State.modMbx_rd, State.rd_wr_same]
  exact ⟨rfl, rfl, rfl, rfl⟩

/-- A message stands in the command buffer of the service mailbox, whose answer its tag awaits. -/
def mbxLoaded (s : State) (stag : Nat) (msg : List Byte) : State :=
  { s.modMbx 16 fun x => { x with cmd := bufPut x.cmd 0 msg } with svc.mbxTag := some stag }

theorem mbxLoaded_cmd (s : State) (stag : Nat) (msg : List Byte) : ((mbxLoaded s stag msg).mbx 16).cmd = bufPut (s.mbx 16).cmd 0 msg :=
  congrArg Mbx.cmd (State.modMbx_mbx_same s 16 fun x => { x with cmd := bufPut x.cmd 0 msg })

/-- An MBX frame to the idle mailbox is written there and rings it. -/
theorem mbxFrame_rings (stag : Nat) {msg : List Byte} {s : State} (h : framesOpen s = true) (hmin : 16 ≤ msg.length) (hmax : msg.length ≤ 4096)
    (htag : s.svc.mbxTag = none) (hidle : mstate s 16 = 1) :
    mbxFrame stag msg s = wakeCause 2 (doorbell 16 (leAt msg 2 2) (mbxLoaded (countFrame s) stag msg)) := by
  have hidle' : mstate (countFrame s) 16 = 1 := (State.rd_inc_ne s _ F.MBXS_STAT_MSTATE _ _ _ _ _ (by decide)).trans hidle
  have htag' : (countFrame s).svc.mbxTag = none := htag
  unfold mbxFrame
  dsimp only
  rw [if_neg (by simp [h]), if_neg (by omega), if_neg (by rw [htag', hidle']; decide)]
  rfl

/-- An MBX frame with a known command and the expected number puts it in hand. -/
theorem mbxFrame_takes (stag : Nat) {msg : List Byte} {s : State} (h : framesOpen s = true) (hmin : 16 ≤ msg.length) (hmax : msg.length ≤ 4096)
    (htag : s.svc.mbxTag = none) (hidle : mstate s 16 = 1) (hseq : leAt msg 2 2 = expSeq s 16) (hknown : knownOpcode (leAt msg 0 2) = true) :
    mstate (mbxFrame stag msg s) 16 = 2 ∧ (mbxFrame stag msg s).svc.mbxTag = some stag ∧ ((mbxFrame stag msg s).mbx 16).cmd = bufPut (s.mbx 16).cmd 0 msg ∧
    ((mbxFrame stag msg s).mbx 16).ran = false := by
  have hcmd : ((mbxLoaded (countFrame s) stag msg).mbx 16).cmd = bufPut (s.mbx 16).cmd 0 msg := mbxLoaded_cmd ..
  have hop : knownOpcode (cmdOpcode (mbxLoaded (countFrame s) stag msg) 16) = true := by
    unfold cmdOpcode
    rw [hcmd, bufPut_opcode _ _ (by omega), hknown]
  have hidle' : mstate (mbxLoaded (countFrame s) stag msg) 16 = 1 :=
    (State.rd_inc_ne s _ F.MBXS_STAT_MSTATE _ _ _ _ _ (by decide)).trans hidle
  have hseq' : leAt msg 2 2 = expSeq (mbxLoaded (countFrame s) stag msg) 16 :=
    hseq.trans (State.rd_inc_ne s _ F.MBXS_STAT_EXP_SEQ _ _ _ _ _ (by decide)).symm
  obtain ⟨hm, hsvc, hc, hran⟩ := takeCommand_service _ (leAt msg 2 2) hop
  rw [mbxFrame_rings stag h hmin hmax htag hidle, doorbell_takes hidle' hseq']
  obtain ⟨wake, hwake⟩ := wakeCause_eq 2 (takeCommand (mbxLoaded (countFrame s) stag msg) 16 (leAt msg 2 2))
  rw [hwake]
  exact ⟨hm, (congrArg Svc.mbxTag hsvc), hc.trans hcmd, hran⟩

/-! ## Bulk transfers (R437, R438) -/

/-- A transfer that ends is gone and leaves its result. -/
theorem endXfer_ends {s : State} {x : Xfer} (c : Code) (h : s.svc.xfer = some x) :
    (endXfer s c).svc.xfer = none ∧ (endXfer s c).rd F.SVC_DRN_STAT_DRN_RES = c.num ∧ (endXfer s c).mem = s.mem := by
  have hc : c.num % 2 ^ F.SVC_DRN_STAT_DRN_RES.w = c.num := by cases c <;> rfl
  unfold endXfer
  rw [h]
  exact ⟨rfl, (State.rd_wr_same ..).trans hc, rfl⟩

/-- After `endXfer` no transfer runs, whether one did or not. -/
theorem endXfer_same (s : State) (c : Code) : (endXfer s c).svc.xfer = none ∧ (endXfer s c).mem = s.mem := by
  cases h : s.svc.xfer with
  | none =>
    have hsame : endXfer s c = s := by
      unfold endXfer
      rw [h]
    rw [hsame]
    exact ⟨h, rfl⟩
  | some x =>
    obtain ⟨hx, -, hmem⟩ := endXfer_ends c h
    exact ⟨hx, hmem⟩

theorem endXfer_out (s : State) (c : Code) : (endXfer s c).out = s.out := by
  unfold endXfer
  split <;> rfl

/-- A block more is done. -/
def blockCounted (s : State) (c : Code) : State :=
  (s.inc F.SVC_DRN_DONE_DRN_DONE).wr F.SVC_DRN_STAT_DRN_WORST (worst [outcomeOf (s.rd F.SVC_DRN_STAT_DRN_WORST), c]).num

theorem blockDone_last (s : State) {x : Xfer} (c : Code) (h : x.left ≤ 1) : blockDone s x c = endXfer (blockCounted s c) .ok := if_pos h

theorem blockDone_more (s : State) {x : Xfer} (c : Code) (h : 1 < x.left) :
    blockDone s x c = { blockCounted s c with svc.xfer := some { x with addr := x.addr + 4096, left := x.left - 1, out := false } } := if_neg (by omega)

/-- The end of a block sends nothing and leaves memory. -/
theorem blockDone_frame (s : State) (x : Xfer) (c : Code) : (blockDone s x c).out = s.out ∧ (blockDone s x c).mem = s.mem := by
  rcases Nat.lt_or_ge 1 x.left with h | h
  · rw [blockDone_more s c h]
    exact ⟨rfl, rfl⟩
  · rw [blockDone_last s c h]
    exact ⟨endXfer_out .., (endXfer_same ..).2⟩

/-- A performed request leaves the service port. -/
theorem markPerformed_svc (s : State) (r : Req) : (markPerformed s r).svc = s.svc := by
  unfold markPerformed
  dsimp only
  obtain ⟨cnt, hcnt⟩ := countBytes_counted (setReq s { r with performed := true, visible := true }) r (perfBytes r).1 (perfBytes r).2
  rw [hcnt]
  rfl

/-- An internal write leaves the service port. -/
theorem internalWrite_svc (s : State) (iss : Issuer) (addr : Nat) (data mdx : List Byte) : (internalWrite s iss addr data mdx).svc = s.svc :=
  markPerformed_svc _ _

/-- An internal read enters the buffer and leaves the service port and memory. -/
theorem internalRead_frame (s : State) (iss : Issuer) (addr n : Nat) :
    (internalRead s iss addr n).svc = s.svc ∧ (internalRead s iss addr n).mem = s.mem := ⟨rfl, rfl⟩

/-- The result with which the write of a fill block completes. -/
def fillStatus (s : State) (x : Xfer) (bytes : List Byte) : Code :=
  if (slice bytes 16 64).any (fun b => bit b.toNat 0) then .poisoned
  else wrStatus s { opc := 0x10, mdx := slice bytes 16 64, len := 3 } [(x.addr / 64, 64)]

section
variable {s : State} {bytes : List Byte} {x : Xfer} (hx : s.svc.xfer = some x) (hfill : x.fill = true) (hup : svcUp s = true) (hrun : rqeRuns s = true)
  (hlen : bytes.length = 4176) (hroom : internalRoom s 64 = true)
include hx hfill hup hrun hlen hroom

/-- A fill block with the right CRC is written and counted. -/
theorem fillBlock_right (hcrc : crc32 (bytes.drop 16) = leAt bytes 12 4) :
    fillBlock bytes s = blockDone (internalWrite s .service x.addr (slice bytes 80 4096) (slice bytes 16 64)) x (fillStatus s x bytes) := by
  unfold fillBlock
  rw [hx]
  dsimp only
  rw [if_neg (by simp [hfill, hup, hrun, hlen, hroom]), if_neg (by simp [hcrc])]
  rfl

/-- A fill block with a wrong CRC ends the transfer. -/
theorem fillBlock_wrong (hcrc : crc32 (bytes.drop 16) ≠ leAt bytes 12 4) : fillBlock bytes s = endXfer s .integrity := by
  unfold fillBlock
  rw [hx]
  dsimp only
  rw [if_neg (by simp [hfill, hup, hrun, hlen, hroom]), if_pos (by simp [hcrc])]

end

theorem fillBlock_idle (bytes : List Byte) {s : State} (hx : s.svc.xfer = none) : fillBlock bytes s = s := by
  unfold fillBlock
  rw [hx]

theorem drainBlock_idle {s : State} (hx : s.svc.xfer = none) : drainBlock s = s := by
  unfold drainBlock
  rw [hx]

/-- A drain block that is not asked for yet is read. -/
theorem drainBlock_asks {s : State} {x : Xfer} (hx : s.svc.xfer = some x) (hfill : x.fill = false) (hup : svcUp s = true) (hout : x.out = false)
    (hrun : rqeRuns s = true) (hroom : internalRoom s 0 = true) :
    drainBlock s = internalRead { s with svc.xfer := some { x with out := true } } .service x.addr 64 := by
  unfold drainBlock
  rw [hx]
  dsimp only
  rw [if_neg (by simp [hfill, hup]), if_pos (by simp [hout]), if_pos (by simp [hrun, hroom])]

/-- A drain block that was read leaves on EP3, and its request the buffer. -/
def blockDrained (s : State) (x : Xfer) (r : Req) (c : Cpl) : State :=
  { s with out := s.out ++ [.ep3 (drainBytes x.addr c.status (decide (x.left ≤ 1)) c.sects)], rqe.reqs := s.rqe.reqs.filter fun q => q.id != r.id }

/-- A drain block whose sectors were read is sent. -/
theorem drainBlock_sends {s : State} {x : Xfer} {r : Req} {c : Cpl} (hx : s.svc.xfer = some x) (hfill : x.fill = false) (hup : svcUp s = true)
    (hout : x.out = true) (hr : (s.rqe.reqs.find? fun r => r.iss == .service && r.op == .rd && r.cpl.isSome) = some r) (hc : r.cpl = some c) :
    drainBlock s = blockDone (blockDrained s x r c) x c.status := by
  unfold drainBlock
  rw [hx]
  dsimp only
  rw [if_neg (by simp [hfill, hup]), if_neg (by simp [hout]), hr]
  dsimp only
  rw [hc]
  rfl

/-! ## The link (R428) -/

/-- A raise leaves the register fields of the service port. -/
theorem State.raiseG_rd (s : State) (src : Nat) (v : Sev) (unit value : Nat) (f : Fld) (h : raisePlace (f.at 0 0) = false) :
    (s.raiseG src v unit value).rd f = s.rd f := (s.raiseG_reach src v unit value []).rd f 0 0 h

/-- A new state of the service link. -/
theorem setSlstate_rd {s : State} {v : Nat} (h : v < 8) : (setSlstate s v).rd F.SVC_STAT_SLSTATE = v := by
  unfold setSlstate
  split
  next hv => exact hv
  next => rw [State.raiseG_rd _ _ _ _ _ _ (by decide), State.rd_wr_same]; exact Nat.mod_eq_of_lt h

theorem setSlstate_sgen (s : State) (v : Nat) : (setSlstate s v).rd F.SVC_STAT_SGEN = s.rd F.SVC_STAT_SGEN := by
  unfold setSlstate
  split
  · rfl
  · rw [State.raiseG_rd _ _ _ _ _ _ (by decide), State.rd_wr_ne _ _ _ _ _ _ _ _ (by decide)]

section
variable {s : State} (gen3 : Bool) (hpow : svcPowered s = true) (hen : s.on F.SVC_CTL_SVC_EN = true)
include hpow hen

/-- Attach, seen on a link that was down. -/
theorem linkChange_attach (h : s.rd F.SVC_STAT_SLSTATE = 0) : linkChange 1 gen3 s = setSlstate s 1 := by
  unfold linkChange
  dsimp only
  rw [if_neg (by decide), if_neg (by simp [hpow, hen]), h]
  rfl

/-- The link trains and takes its speed. -/
theorem linkChange_up (h : s.rd F.SVC_STAT_SLSTATE = 1) :
    linkChange 2 gen3 s = setSlstate (s.wr F.SVC_STAT_SGEN (if gen3 && !s.on F.SVC_CTL_GEN2_ONLY then 3 else 2)) 2 := by
  unfold linkChange
  dsimp only
  rw [if_neg (by decide), if_neg (by simp [hpow, hen])]
  exact (if_neg (by omega)).trans (if_pos h)

/-- The link suspends. -/
theorem linkChange_suspend (h : s.rd F.SVC_STAT_SLSTATE = 2) : linkChange 3 gen3 s = setSlstate s 3 := by
  unfold linkChange
  dsimp only
  rw [if_neg (by decide), if_neg (by simp [hpow, hen])]
  exact if_pos h

end

/-- Releasing leases leaves memory, the service port and who is authenticated. -/
theorem releaseLeases_frame (s : State) (m : Nat) :
    (releaseLeases s m).mem = s.mem ∧ (releaseLeases s m).svc = s.svc ∧ (releaseLeases s m).mgt.auth = s.mgt.auth := by
  unfold releaseLeases
  induction List.range 5 generalizing s with
  | nil => exact ⟨rfl, rfl, rfl⟩
  | cons i l ih =>
    obtain ⟨hmem, hsvc, hauth⟩ := ih (if leaseHolder s i = m then freeLease s i else s)
    rw [List.foldl_cons, hmem, hsvc, hauth]
    split <;> exact ⟨rfl, rfl, rfl⟩

/-- The end of authentication, on a port where no transfer runs. -/
theorem endAuth_idle {s : State} (hx : s.svc.xfer = none) : (endAuth s).mgt.auth = false ∧ (endAuth s).svc = s.svc ∧ (endAuth s).mem = s.mem := by
  unfold endAuth
  cases hauth : s.mgt.auth with
  | false => exact ⟨hauth, rfl, rfl⟩
  | true =>
    obtain ⟨hmem, hsvc, hoff⟩ := releaseLeases_frame { s with mgt.auth := false } 16
    generalize releaseLeases { s with mgt.auth := false } 16 = t at hmem hsvc hoff
    have hnone : t.svc.xfer = none := hsvc ▸ hx
    simp only [Bool.not_true, Bool.false_eq_true, if_false, hnone]
    exact ⟨hoff, hsvc, hmem⟩

/-- The registers of a link that is down. -/
def linkCleared (s : State) : State := ((s.wr F.SVC_STAT_SLSTATE 0).wr F.SVC_STAT_SGEN 0).wr F.SVC_STAT_USB_CFG 0

theorem linkCleared_rd (s : State) : (linkCleared s).rd F.SVC_STAT_SLSTATE = 0 := by
  unfold linkCleared
  rw [State.rd_wr_ne _ _ _ _ _ _ _ _ (by decide), State.rd_wr_ne _ _ _ _ _ _ _ _ (by decide), State.rd_wr_same]
  rfl

/-- A link that is lost ends the transfer and the authentication, and no answer is awaited. -/
theorem svcDown_ends (s : State) : (svcDown s).rd F.SVC_STAT_SLSTATE = 0 ∧ (svcDown s).mgt.auth = false ∧ (svcDown s).svc.xfer = none ∧
    (svcDown s).svc.mbxTag = none ∧ (svcDown s).mem = s.mem := by
  obtain ⟨hx, hmem⟩ := endXfer_same s .timeout
  obtain ⟨hauth, hsvc, hmem'⟩ := endAuth_idle (s := { endXfer s .timeout with svc.mbxTag := none }) hx
  have hdown : svcDown s = if decide (s.rd F.SVC_STAT_SLSTATE ≠ 0) then (linkCleared (endAuth { endXfer s .timeout with svc.mbxTag := none })).raiseG 285 .info 0 0
      else linkCleared (endAuth { endXfer s .timeout with svc.mbxTag := none }) := rfl
  have hcleared := linkCleared_rd (endAuth { endXfer s .timeout with svc.mbxTag := none })
  rw [hdown]
  generalize endAuth { endXfer s .timeout with svc.mbxTag := none } = u at hauth hsvc hmem' hcleared
  have hsame : (linkCleared u).mgt.auth = false ∧ (linkCleared u).svc.xfer = none ∧ (linkCleared u).svc.mbxTag = none ∧ (linkCleared u).mem = s.mem :=
    ⟨hauth, (congrArg Svc.xfer hsvc).trans hx, congrArg Svc.mbxTag hsvc, hmem'.trans hmem⟩
  generalize linkCleared u = v at hsame hcleared
  split
  · obtain ⟨-, -, -, -, rmem, -, -, -, -, -, -, -, -, -, -, -, -, -, rmgt, -, rsvc, -⟩ := (v.raiseG_reach 285 .info 0 0 []).same
    rw [State.raiseG_rd _ _ _ _ _ _ (by decide), rmem, rmgt, rsvc]
    exact ⟨hcleared, hsame⟩
  · exact ⟨hcleared, hsame⟩

/-! ## EP0 (R429) -/

theorem ep0Request_device (value len : Nat) {s : State} (hup : svcUp s = true) (h : value / 256 = 1) :
    ep0Request 6 value len s = { s with out := s.out ++ [.ep0 ((deviceDesc s).take len)] } := by
  unfold ep0Request
  rw [if_neg (by simp [hup])]
  exact if_pos h

theorem ep0Request_configure (value len : Nat) {s : State} (hup : svcUp s = true) (h : value % 256 ≤ 1) :
    (ep0Request 9 value len s).rd F.SVC_STAT_USB_CFG = value % 256 := by
  have hset : ep0Request 9 value len s = s.wr F.SVC_STAT_USB_CFG (value % 256) := by
    unfold ep0Request
    rw [if_neg (by simp [hup])]
    exact if_pos h
  rw [hset, State.rd_wr_same]
  exact Nat.mod_eq_of_lt (Nat.lt_succ_of_le h)

/-! ## The lock of a turned group (R75) -/

/-- A turned group receives a fresh stream from START. -/
def awaitsStart (x : Grp) : Grp := { freshStream x with dir := false, needStart := true }

/-- The lanes of the turned group are locked. -/
def turnLocked (s : State) (x : Turn) : State := { s.modGrp x.grp awaitsStart with link.turn := some { x with step := .locked } }

theorem turnLocked_grp (s : State) (x : Turn) : (turnLocked s x).grp x.grp = awaitsStart (s.grp x.grp) := State.modGrp_grp_same s x.grp awaitsStart

/-- Every lane of the group locks: the group receives and awaits START. -/
theorem turnCdrLock_clean {s : State} {x : Turn} (hturn : s.link.turn = some x) (hstep : x.step = .quietLine) (hdir : (s.grp x.grp).dir = true) :
    turnCdrLock 0 s = turnLocked s x := by
  unfold turnCdrLock
  rw [hturn]
  dsimp only
  rw [if_neg (by simp [hstep, hdir])]
  have hnone : (onesOf 0 17).filter (bit (s.grp x.grp).carry) = [] := rfl
  rw [hnone]
  rfl

theorem turnCdrLock_idle (failing : Nat) {s : State} (hturn : s.link.turn = none) : turnCdrLock failing s = s := by
  unfold turnCdrLock
  rw [hturn]

/-! ## The obligation -/

/-- Frames are accesses of the service host; without authentication only the open registers answer it. -/
theorem svcFrames_access (s : State) (stag : BitVec 16) (raddr : BitVec 32) (data : Word) (h : framesOpen s = true) :
    exec (.svcRregFrame stag raddr) s = .next (access (countFrame s) { who := 16, org := .svc stag.toNat, wr := false, off := raddr.toNat % 2 ^ 24, val := 0 }) ∧
    exec (.svcWregFrame stag raddr data) s = .next (access (countFrame s) { who := 16, org := .svc stag.toNat, wr := true, off := raddr.toNat % 2 ^ 24, val := data.toNat }) := by
  have hr : exec (.svcRregFrame stag raddr) s = .next (svcRreg stag.toNat raddr.toNat s) := rfl
  have hw : exec (.svcWregFrame stag raddr data) s = .next (svcWreg stag.toNat raddr.toNat data.toNat s) := rfl
  rw [hr, hw, svcRreg_open _ _ h, svcWreg_open _ _ _ h, Nat.mod_eq_of_lt data.isLt]
  exact ⟨rfl, rfl⟩

/-- Settles O49: each command of the service port goes through the lemma about its function. -/
theorem servicePortCommands : Obligations.ServicePortCommands := by
  unfold Obligations.ServicePortCommands
  refine ⟨fun s stag raddr data h => ?_, fun s stag raddr data msg raw h => ?_, fun s stag msg h _ hmin hmax htag hidle hseq hknown => ?_,
    fun s raw h hlen htyp => ?_, fun s bytes x hx hfill hup hrun hlen hroom => ?_, fun s x hx hfill hup hout hrun hroom => ?_,
    fun s x r c hx hfill hup hout hr hc => ?_, fun s hx => ?_, fun s gen3 hpow hen => ?_, fun s => ?_, fun s value len hup => ?_,
    fun s x hturn hstep hdir => ?_, fun s failing hturn => ?_⟩
  · obtain ⟨hr, hw⟩ := svcFrames_access s stag raddr data h
    refine ⟨hr, hw, fun hauth hp ⟨r, i, j, hat, hclosed⟩ => ?_⟩
    exact ⟨_, rfl, svcRreg_unauthenticated stag.toNat raddr.toNat h hauth hp hat hclosed⟩
  · exact ⟨congrArg Host.Outcome.next (svcRreg_closed _ _ h), congrArg Host.Outcome.next (svcWreg_closed _ _ _ h), congrArg Host.Outcome.next (mbxFrame_closed _ _ h),
      congrArg Host.Outcome.next (frameArrive_closed _ h)⟩
  · exact ⟨_, rfl, mbxFrame_takes stag.toNat h hmin hmax htag hidle hseq hknown⟩
  · refine ⟨badFrame (leAt raw 2 2) .badOpcode s, congrArg Host.Outcome.next (frameArrive_badOpcode raw s hlen htyp), badFrame_open _ _ h⟩
  · refine ⟨fun hcrc hleft => ⟨_, congrArg Host.Outcome.next (fillBlock_right hx hfill hup hrun hlen hroom hcrc), ?_⟩,
      fun hcrc hleft => ⟨_, congrArg Host.Outcome.next (fillBlock_right hx hfill hup hrun hlen hroom hcrc), ?_⟩,
      fun hcrc => ⟨_, congrArg Host.Outcome.next (fillBlock_wrong hx hfill hup hrun hlen hroom hcrc), endXfer_ends .integrity hx⟩⟩
    · rw [blockDone_more _ _ hleft]
    · rw [blockDone_last _ _ (Nat.le_of_eq hleft)]
      obtain ⟨hend, hres, -⟩ := endXfer_ends .ok (s := blockCounted _ (fillStatus s x bytes)) ((congrArg Svc.xfer (internalWrite_svc ..)).trans hx)
      exact ⟨hend, hres⟩
  · obtain ⟨hsvc, hmem⟩ := internalRead_frame { s with svc.xfer := some { x with out := true } } .service x.addr 64
    exact ⟨_, congrArg Host.Outcome.next (drainBlock_asks hx hfill hup hout hrun hroom), congrArg Svc.xfer hsvc, hmem⟩
  · obtain ⟨hsent, hmem⟩ := blockDone_frame (blockDrained s x r c) x c.status
    exact ⟨_, congrArg Host.Outcome.next (drainBlock_sends hx hfill hup hout hr hc), hsent, hmem⟩
  · exact ⟨congrArg Host.Outcome.next (drainBlock_idle hx), fun bytes => congrArg Host.Outcome.next (fillBlock_idle bytes hx)⟩
  · refine ⟨fun h => ⟨_, congrArg Host.Outcome.next (linkChange_attach gen3 hpow hen h), setSlstate_rd (by decide)⟩,
      fun h => ⟨_, congrArg Host.Outcome.next (linkChange_up gen3 hpow hen h), setSlstate_rd (by decide), ?_⟩,
      fun h => ⟨_, congrArg Host.Outcome.next (linkChange_suspend gen3 hpow hen h), setSlstate_rd (by decide)⟩⟩
    rw [setSlstate_sgen, State.rd_wr_same]
    cases gen3 <;> cases s.on F.SVC_CTL_GEN2_ONLY <;> rfl
  · exact ⟨_, rfl, svcDown_ends s⟩
  · exact ⟨fun h => congrArg Host.Outcome.next (ep0Request_device value.toNat len.toNat hup h),
      fun h => ⟨_, rfl, ep0Request_configure value.toNat len.toNat hup h⟩⟩
  · refine ⟨_, congrArg Host.Outcome.next (turnCdrLock_clean hturn hstep hdir), rfl, ?_⟩
    rw [turnLocked_grp]
    exact ⟨rfl, rfl⟩
  · exact congrArg Host.Outcome.next (turnCdrLock_idle failing.toNat hturn)

end Sys2Proof.Machine


/-! SUPPORT. Reads, writes, merges and atomics that enter the request buffer (R90 to R92, R115, R123). -/

namespace Sys2Proof.Machine

/-! ## The commands -/

theorem exec_wr (h : ReqHdr) (len : Fin 4) (na md : Bool) (mdx data : List Byte) (s : State) : exec (.wr h len na md mdx data) s =
    .next (arriveVc0 h.grp.val { vc0Head h 0x10 with len := len.val, na := na, md := md, mdx := mdx, data := data } s) := rfl

theorem exec_wrp (h : ReqHdr) (mask : BitVec 64) (data : List Byte) (s : State) :
    exec (.wrp h mask data) s = .next (arriveVc0 h.grp.val { vc0Head h 0x11 with mask := mask.toNat, data := data } s) := rfl

theorem exec_afadd (h : ReqHdr) (wsel : Fin 8) (opnd : BitVec 64) (s : State) :
    exec (.afadd h wsel opnd) s = .next (arriveVc0 h.grp.val { vc0Head h 0x20 with wsel := wsel.val, opnd := opnd.toNat } s) := rfl

theorem exec_aswap (h : ReqHdr) (wsel : Fin 8) (opnd : BitVec 64) (s : State) :
    exec (.aswap h wsel opnd) s = .next (arriveVc0 h.grp.val { vc0Head h 0x21 with wsel := wsel.val, opnd := opnd.toNat } s) := rfl

theorem exec_aand (h : ReqHdr) (wsel : Fin 8) (opnd : BitVec 64) (s : State) :
    exec (.aand h wsel opnd) s = .next (arriveVc0 h.grp.val { vc0Head h 0x23 with wsel := wsel.val, opnd := opnd.toNat } s) := rfl

theorem exec_aor (h : ReqHdr) (wsel : Fin 8) (opnd : BitVec 64) (s : State) :
    exec (.aor h wsel opnd) s = .next (arriveVc0 h.grp.val { vc0Head h 0x24 with wsel := wsel.val, opnd := opnd.toNat } s) := rfl

theorem exec_acas (h : ReqHdr) (wsel : Fin 8) (opnd swapv : BitVec 64) (s : State) : exec (.acas h wsel opnd swapv) s =
    .next (arriveVc0 h.grp.val { vc0Head h 0x22 with wsel := wsel.val, opnd := opnd.toNat, swapv := swapv.toNat } s) := rfl

/-! ## A WRP (R91) -/

/-- A WRP enters as a WR where its mask is all ones, which changes no field of a packet that has no length, metadata or hint. -/
theorem arriveVc0_enters_wrp {s : State} {g : Nat} {p : Vc0} (hop : opOf p.opc = some .wrp)
    (hplain : { p with len := 0, md := false, na := false } = p) (h : Heard s g p) (hids : IdsRise s)
    (hok : admitCheck s p = .ok) (hroom : hasRoom s .wrp p = true) :
    ∃ r, r ∈ (arriveVc0 g p s).rqe.reqs ∧ r.id = s.rqe.nextId ∧ r.p = p ∧ r.op = (if p.mask = 2 ^ 64 - 1 then .wr else .wrp) ∧
      r.iss = .host ∧ r.sent = false ∧ (arriveVc0 g p s).rqe.nextId = s.rqe.nextId + 1 ∧ (arriveVc0 g p s).on F.RQE_STAT_ADMITTED = true := by
  obtain ⟨⟨r, hr, hcore⟩, hnext, hadm⟩ := arriveVc0_admits h hids hok hop hroom
  have hpacket : admittedPacket .wrp p = p := by
    rw [admittedPacket, hplain, ite_self]
  have hop' : admittedOp .wrp p = if p.mask = 2 ^ 64 - 1 then .wr else .wrp := by
    simp only [admittedOp, fullMask, decide_true, Bool.true_and, beq_iff_eq]
  rw [Req.core, hpacket, hop'] at hcore
  simp only [Prod.mk.injEq] at hcore
  obtain ⟨hid, hp, ho, hiss, hsent⟩ := hcore
  exact ⟨r, hr, hid, hp, ho, hiss, hsent, hnext, hadm⟩

/-- Settles O27: each packet heard at once enters the buffer as `arriveVc0_enters` says, a WRP as `arriveVc0_enters_wrp` does. -/
theorem readsWritesAndMergesAreAdmitted : Obligations.ReadsWritesAndMergesAreAdmitted := by
  unfold Obligations.ReadsWritesAndMergesAreAdmitted
  refine ⟨fun s h len na md p hp hheard hids hok hroom => ?_, fun s h len na md mdx data p hp hheard hids hok hroom => ?_,
    fun s h mask data p hp hheard hids hok hroom => ?_⟩
  · obtain ⟨r, hspec⟩ := arriveVc0_enters (by rw [hp]; rfl) (by decide) hheard hids hok hroom
    exact ⟨_, r, by rw [exec_rd, ← hp], hspec⟩
  · obtain ⟨r, hspec⟩ := arriveVc0_enters (by rw [hp]; rfl) (by decide) hheard hids hok hroom
    exact ⟨_, r, by rw [exec_wr, ← hp], hspec⟩
  · obtain ⟨r, hspec⟩ := arriveVc0_enters_wrp (by rw [hp]; rfl) (by rw [hp]; rfl) hheard hids hok hroom
    exact ⟨_, r, by rw [exec_wrp, ← hp], hspec⟩

/-- Settles O28: each of the five enters the buffer as `arriveVc0_enters` says. -/
theorem atomicsAreAdmitted : Obligations.AtomicsAreAdmitted := by
  unfold Obligations.AtomicsAreAdmitted
  refine ⟨fun s h wsel opnd p hp hheard hids hok hroom => ?_, fun s h wsel opnd p hp hheard hids hok hroom => ?_,
    fun s h wsel opnd p hp hheard hids hok hroom => ?_, fun s h wsel opnd p hp hheard hids hok hroom => ?_,
    fun s h wsel opnd swapv p hp hheard hids hok hroom => ?_⟩
  · obtain ⟨r, hspec⟩ := arriveVc0_enters (by rw [hp]; rfl) (by decide) hheard hids hok hroom
    exact ⟨_, r, by rw [exec_afadd, ← hp], hspec⟩
  · obtain ⟨r, hspec⟩ := arriveVc0_enters (by rw [hp]; rfl) (by decide) hheard hids hok hroom
    exact ⟨_, r, by rw [exec_aswap, ← hp], hspec⟩
  · obtain ⟨r, hspec⟩ := arriveVc0_enters (by rw [hp]; rfl) (by decide) hheard hids hok hroom
    exact ⟨_, r, by rw [exec_aand, ← hp], hspec⟩
  · obtain ⟨r, hspec⟩ := arriveVc0_enters (by rw [hp]; rfl) (by decide) hheard hids hok hroom
    exact ⟨_, r, by rw [exec_aor, ← hp], hspec⟩
  · obtain ⟨r, hspec⟩ := arriveVc0_enters (by rw [hp]; rfl) (by decide) hheard hids hok hroom
    exact ⟨_, r, by rw [exec_acas, ← hp], hspec⟩

end Sys2Proof.Machine


/-! SUPPORT. VC2 packets that are heard (R62, R63, R112): register packets (R102, R294) and reserved opcodes (R82). -/

namespace Sys2Proof.Machine

/-! ## A packet that is executed at once -/

/-- A packet does not wait for a persistent write: it belongs to no domain, it is a register access, or no such write is under way (R112, R297). -/
def NotSerial (s : State) (l : List Byte) (d : Nat) : Prop :=
  0x80 ≤ leAt l 0 1 ∨ leAt l 0 1 = 0x50 ∨ leAt l 0 1 = 0x51 ∨ pregPending s d = false

/-- A VC2 packet that is heard is executed at once, its cells held. -/
theorem arriveVc2_heard {s : State} {g d n : Nat} {l : List Byte} (h : HeardVc2 s g d n) (hdom : vc2Dom l = d) (hcells : cellsOf (packetLen l) = n)
    (hfree : NotSerial s l d) : arriveVc2 g l s = runVc2 (holdVc2 s d n) l := by
  obtain ⟨hhears, hup, hcfg, hroom, hwait, hlost, -, hqueue⟩ := h
  subst hdom hcells
  have hcfg' : s.link.cfgRx.isNone = false := by rw [Option.isNone_eq_false_iff, hcfg]
  have hwait' : vc2Waits (holdVc2 s (vc2Dom l) (cellsOf (packetLen l))) g = false := hwait
  have hlost' : (holdVc2 s (vc2Dom l) (cellsOf (packetLen l))).link.holdLost = false := hlost
  have hqueue' : (holdVc2 s (vc2Dom l) (cellsOf (packetLen l))).link.vc2Queue = [] := hqueue
  have hpend (h : pregPending s (vc2Dom l) = false) : pregPending (holdVc2 s (vc2Dom l) (cellsOf (packetLen l))) (vc2Dom l) = false := h
  have hbehind : vc2Behind (holdVc2 s (vc2Dom l) (cellsOf (packetLen l))) l = false := by
    unfold vc2Behind
    rw [hqueue']
    rcases hfree with hmgt | hrd | hwr | hnone
    · simp [Nat.not_lt.2 hmgt]
    · simp [hrd]
    · simp [hwr]
    · simp [hpend hnone]
  simp only [arriveVc2, hhears, hup, hcfg', hroom, hwait', hlost', consumeVc2, hbehind]
  simp

/-- On a group that the stack does not hear, none arrives. -/
theorem arriveVc2_unheard {s : State} {g : Nat} (l : List Byte) (h : hears s g = false) : arriveVc2 g l s = s := by
  simp only [arriveVc2, h]
  rfl

/-! ## The length of a packet (Table 4.1) -/

theorem leAt_first (l : List Byte) : leAt l 0 1 = (l.getD 0 0).toNat := by
  cases l <;> rfl

/-- A VC2 packet has eight bytes, unless it carries data. -/
theorem packetLen_eight {l : List Byte} (h : 0x40 ≤ leAt l 0 1) (hwreg : leAt l 0 1 ≠ 0x51) (hmbx : leAt l 0 1 ≠ 0x62) : packetLen l = 8 := by
  rw [leAt_first] at h hwreg hmbx
  unfold packetLen
  extract_lets op len mdBit
  have hop : 0x40 ≤ op ∧ op ≠ 0x51 ∧ op ≠ 0x62 := ⟨h, hwreg, hmbx⟩
  clear_value op
  grind

theorem packetLen_wreg {l : List Byte} (h : leAt l 0 1 = 0x51) : packetLen l = 12 := by
  rw [leAt_first] at h
  simp only [packetLen, h]
  rfl

/-! ## RREG and WREG (Table 4.6) -/

/-- The fields of a register packet, whatever follows its header. -/
theorem regPacket_fields {opc dom rtag raddr : Nat} (rest : List Byte) (hopc : opc < 256) (hdom : dom < 16) (htag : rtag < 2 ^ 16)
    (haddr : raddr < 2 ^ 24) : leAt (regPacket opc dom rtag raddr ++ rest) 0 1 = opc ∧ leAt (regPacket opc dom rtag raddr ++ rest) 1 1 = dom ∧
      leAt (regPacket opc dom rtag raddr ++ rest) 2 2 = rtag ∧ leAt (regPacket opc dom rtag raddr ++ rest) 4 3 = raddr := by
  simp [leAt, slice, regPacket, u8, u16, u32, leBytes, leNat]
  omega

/-- WREG's data follow its header; RREG has none. -/
theorem regPacket_data (opc dom rtag raddr : Nat) {data : Nat} (hdata : data < 2 ^ 32) :
    leAt (regPacket opc dom rtag raddr ++ leBytes 4 data) 8 4 = data ∧ leAt (regPacket opc dom rtag raddr) 8 4 = 0 := by
  simp [leAt, slice, regPacket, u8, u16, u32, leBytes, leNat]
  omega

/-- A register packet is the access of its domain, on the packet's path. -/
theorem runVc2_access {s : State} {l : List Byte} {d : Nat} (hop : leAt l 0 1 = 0x50 ∨ leAt l 0 1 = 0x51) (hdom : vc2Dom l = d) :
    runVc2 s l = access s { who := d, org := .packet d (leAt l 2 2), wr := leAt l 0 1 == 0x51, off := leAt l 4 3, val := leAt l 8 4 } := by
  simp only [runVc2, if_pos hop, hdom]

theorem exec_rreg {s : State} {g dom : Fin 16} (rtag : BitVec 16) (raddr : BitVec 24) (h : HeardVc2 s g.val dom.val 1) :
    exec (.rreg g dom rtag raddr) s = .next (access (holdVc2 s dom.val 1)
      { who := dom.val, org := .packet dom.val rtag.toNat, wr := false, off := raddr.toNat, val := 0 }) := by
  have hrun : exec (.rreg g dom rtag raddr) s = .next (arriveVc2 g.val (regPacket 0x50 dom.val rtag.toNat raddr.toNat) s) := rfl
  obtain ⟨hop, hd, htag, hoff⟩ := regPacket_fields (opc := 0x50) [] (by decide) dom.isLt rtag.isLt raddr.isLt
  obtain ⟨-, hval⟩ := regPacket_data 0x50 dom.val rtag.toNat raddr.toNat (data := 0) (by decide)
  rw [List.append_nil] at hop hd htag hoff
  have hdom : vc2Dom (regPacket 0x50 dom.val rtag.toNat raddr.toNat) = dom.val := by
    rw [vc2Dom, hop, hd, if_neg (by decide), Nat.mod_eq_of_lt dom.isLt]
  have hcells : cellsOf (packetLen (regPacket 0x50 dom.val rtag.toNat raddr.toNat)) = 1 := by
    rw [packetLen_eight (by rw [hop]; decide) (by rw [hop]; decide) (by rw [hop]; decide)]
    rfl
  rw [hrun, arriveVc2_heard h hdom hcells (.inr (.inl hop)), runVc2_access (.inl hop) hdom, hop, htag, hoff, hval]
  rfl

theorem exec_wreg {s : State} {g dom : Fin 16} (rtag : BitVec 16) (raddr : BitVec 24) (data : BitVec 32) (h : HeardVc2 s g.val dom.val 1) :
    exec (.wreg g dom rtag raddr data) s = .next (access (holdVc2 s dom.val 1)
      { who := dom.val, org := .packet dom.val rtag.toNat, wr := true, off := raddr.toNat, val := data.toNat }) := by
  have hrun : exec (.wreg g dom rtag raddr data) s =
      .next (arriveVc2 g.val (regPacket 0x51 dom.val rtag.toNat raddr.toNat ++ leBytes 4 data.toNat) s) := rfl
  obtain ⟨hop, hd, htag, hoff⟩ := regPacket_fields (opc := 0x51) (leBytes 4 data.toNat) (by decide) dom.isLt rtag.isLt raddr.isLt
  obtain ⟨hval, -⟩ := regPacket_data 0x51 dom.val rtag.toNat raddr.toNat data.isLt
  have hdom : vc2Dom (regPacket 0x51 dom.val rtag.toNat raddr.toNat ++ leBytes 4 data.toNat) = dom.val := by
    rw [vc2Dom, hop, hd, if_neg (by decide), Nat.mod_eq_of_lt dom.isLt]
  have hcells : cellsOf (packetLen (regPacket 0x51 dom.val rtag.toNat raddr.toNat ++ leBytes 4 data.toNat)) = 1 := by
    rw [packetLen_wreg hop]
    rfl
  rw [hrun, arriveVc2_heard h hdom hcells (.inr (.inr (.inl hop))), runVc2_access (.inr hop) hdom, hop, htag, hoff, hval]
  rfl

theorem exec_register_unheard {s : State} {g : Fin 16} (dom : Fin 16) (rtag : BitVec 16) (raddr : BitVec 24) (data : BitVec 32)
    (h : hears s g.val = false) : exec (.rreg g dom rtag raddr) s = .next s ∧ exec (.wreg g dom rtag raddr data) s = .next s :=
  ⟨congrArg Host.Outcome.next (arriveVc2_unheard _ h), congrArg Host.Outcome.next (arriveVc2_unheard _ h)⟩

/-! ## An offset that no table assigns (R294) -/

/-- The answer of a packet's access leaves registers and memory. -/
theorem answerAcc_packet (s : State) (d t : Nat) (wr : Bool) (c : Code) (v : Nat) :
    (∀ f i j, (answerAcc s (.packet d t) wr c v).rd f i j = s.rd f i j) ∧ (answerAcc s (.packet d t) wr c v).mem = s.mem := by
  unfold answerAcc
  dsimp only
  split
  · have h := sendVc2_sends (releaseVc2 s d 1) (if wr then wcplBytes d t c else rcplBytes d t c v)
    obtain ⟨-, -, hmem, -⟩ := h.same
    exact ⟨h.rd, hmem⟩
  · exact ⟨fun _ _ _ => rfl, rfl⟩

/-- An access where no table assigns a register is OK: it is recorded and answered. -/
theorem access_unassigned {s : State} {a : RegAcc} (hopen : regsOpen s = true) (hp : pregPending s a.who = false) (hat : regAt a.off = none) :
    access s a = answerAcc (recordAcc s a.who a.wr a.off .ok 0) a.org a.wr .ok 0 := by
  cases hw : a.wr with
  | true => rw [access_write s a hopen hp hw, runWrite, hat]
  | false => rw [access_read s a hopen hp hw, runRead, hat]

/-- What it leaves, by a packet. -/
theorem access_packet_unassigned {s : State} {d t off : Nat} (wr : Bool) (v : Nat) (hopen : regsOpen s = true) (hp : pregPending s d = false)
    (hat : regAt off = none) (hoff : off < 2 ^ 24) {u : State} (hu : u = access s { who := d, org := .packet d t, wr := wr, off := off, val := v }) :
    lastResult u d = Code.ok.num ∧ u.rd F.GLB_LAS_LA_OFS d = off / 4 ∧ u.on F.GLB_LAS_LA_WR d = wr ∧ u.mem = s.mem := by
  obtain ⟨hrd, hmem⟩ := answerAcc_packet (recordAcc s d wr off .ok 0) d t wr .ok 0
  have hwr : u.rd F.GLB_LAS_LA_WR d = b2n wr := by
    rw [hu, access_unassigned hopen hp hat, hrd, recordAcc_ok_wr]
  refine ⟨?_, ?_, ?_, ?_⟩
  · rw [lastResult, hu, access_unassigned hopen hp hat, hrd, recordAcc_res]
  · rw [hu, access_unassigned hopen hp hat, hrd, recordAcc_ok_ofs _ _ _ _ hoff]
  · rw [State.on, hwr]
    cases wr <;> rfl
  · rw [hu, access_unassigned hopen hp hat, hmem, recordAcc_mem]

/-! ## A reserved opcode (R82) -/

/-- `LF_RES` after a rejected access was recorded (R295). -/
theorem recordAcc_failure (s : State) (who : Nat) (wr : Bool) (off : Nat) {c : Code} (d : Nat) (hc : c ≠ .ok) :
    (recordAcc s who wr off c d).rd F.GLB_LFAIL_LF_RES who = c.num := by
  have hnum : c.num % 2 ^ F.GLB_LFAIL_LF_RES.w = c.num := by cases c <;> rfl
  have hwr : F.GLB_LFAIL_LF_RES.at who 0 ≠ F.GLB_LFAIL_LF_WR.at who 0 := by simp [Fld.at, F.GLB_LFAIL_LF_RES, F.GLB_LFAIL_LF_WR]
  have hofs : F.GLB_LFAIL_LF_RES.at who 0 ≠ F.GLB_LFAIL_LF_OFS.at who 0 := by simp [Fld.at, F.GLB_LFAIL_LF_RES, F.GLB_LFAIL_LF_OFS]
  have hdet : F.GLB_LFAIL_LF_RES.at who 0 ≠ F.GLB_LFAIL_DET_LF_DET.at who 0 := by simp [Fld.at, F.GLB_LFAIL_LF_RES, F.GLB_LFAIL_DET_LF_DET]
  have hrej : F.GLB_LFAIL_LF_RES.at who 0 ≠ F.GLB_REJ_M_REJ.at who 0 := by
    simp only [Fld.at, F.GLB_LFAIL_LF_RES, F.GLB_REJ_M_REJ]
    omega
  unfold recordAcc
  dsimp only
  rw [if_neg hc, State.rd_inc_ne _ _ _ _ _ _ _ _ hrej, State.rd_wr_ne _ _ _ _ _ _ _ _ hdet, State.rd_wr_ne _ _ _ _ _ _ _ _ hofs,
    State.rd_wr_ne _ _ _ _ _ _ _ _ hwr, State.rd_wr_same, hnum]

/-- The state once a packet has been heard and its cells are given back. -/
def heardVc2 (s : State) (d n : Nat) : State := releaseVc2 (holdVc2 s d n) d n

/-- Its domain holds what it held before. -/
theorem heardVc2_held (s : State) (d n : Nat) : SMap.getD (heardVc2 s d n).link.vc2Held d 0 = SMap.getD s.link.vc2Held d 0 := by
  have hheld : SMap.getD (holdVc2 s d n).link.vc2Held d 0 = SMap.getD s.link.vc2Held d 0 + n := SMap.getD_put_same ..
  have hback : SMap.getD (heardVc2 s d n).link.vc2Held d 0 = SMap.getD (holdVc2 s d n).link.vc2Held d 0 - n := SMap.getD_put_same ..
  rw [hback, hheld, Nat.add_sub_cancel]

/-- A reserved opcode is consumed, and gives its cells back. -/
theorem runVc2_reserved {s : State} {l : List Byte} {d : Nat} (hop : reservedVc2Op (leAt l 0 1) = true) (hdom : vc2Dom l = d) :
    runVc2 s l = reservedVc2 d (releaseVc2 s d (cellsOf (packetLen l))) := by
  simp only [reservedVc2Op, Bool.or_eq_true, Bool.and_eq_true, decide_eq_true_eq] at hop
  unfold runVc2
  dsimp only
  rw [if_neg (by omega), hdom]
  split
  case h_7 => rfl
  all_goals omega

/-- It is recorded as BAD_OPCODE, and nothing of the link or memory changes. -/
theorem reservedVc2_spec (s : State) (d : Nat) : lastResult (reservedVc2 d s) d = Code.badOpcode.num ∧
    (reservedVc2 d s).rd F.GLB_LFAIL_LF_RES d = Code.badOpcode.num ∧ (reservedVc2 d s).link = s.link ∧ (reservedVc2 d s).mem = s.mem :=
  ⟨recordAcc_res .., recordAcc_failure _ _ _ _ _ (by decide), recordAcc_link .., recordAcc_mem ..⟩

/-- The domain to whose cells a reserved opcode counts (R62). -/
def reservedDom (opc dom : Nat) : Nat := if opc < 0x80 then dom else 0

theorem exec_reservedVc2Opcode {s : State} {g dom : Fin 16} {opc : BitVec 8} (hopc : reservedVc2Op opc.toNat = true)
    (h : HeardVc2 s g.val (reservedDom opc.toNat dom.val) 1) (hp : pregPending s (reservedDom opc.toNat dom.val) = false) :
    exec (.reservedVc2Opcode g opc dom) s =
      .next (reservedVc2 (reservedDom opc.toNat dom.val) (heardVc2 s (reservedDom opc.toNat dom.val) 1)) := by
  have hrun : exec (.reservedVc2Opcode g opc dom) s = .next (arriveVc2 g.val (regPacket opc.toNat dom.val 0 0) s) :=
    congrArg Host.Outcome.next (if_pos hopc)
  obtain ⟨hop, hd, -, -⟩ := regPacket_fields [] opc.isLt dom.isLt (rtag := 0) (raddr := 0) (by decide) (by decide)
  rw [List.append_nil] at hop hd
  have hrange := hopc
  simp only [reservedVc2Op, Bool.or_eq_true, Bool.and_eq_true, decide_eq_true_eq] at hrange
  have hdom : vc2Dom (regPacket opc.toNat dom.val 0 0) = reservedDom opc.toNat dom.val := by
    rw [vc2Dom, hop, hd, Nat.mod_eq_of_lt dom.isLt, reservedDom]
    split <;> split <;> omega
  have hlen : packetLen (regPacket opc.toNat dom.val 0 0) = 8 := packetLen_eight (by omega) (by omega) (by omega)
  rw [hrun, arriveVc2_heard h hdom (by rw [hlen]; rfl) (.inr (.inr (.inr hp))), runVc2_reserved (by rw [hop, hopc]) hdom, hlen]
  rfl

/-- Settles O40: a register packet is the access of its domain (`exec_rreg`, `exec_wreg`), which at an unassigned offset leaves its record and its answer; a
reserved opcode leaves its record, and its cell. -/
theorem registerPacketsReachTheMap : Obligations.RegisterPacketsReachTheMap := by
  unfold Obligations.RegisterPacketsReachTheMap
  refine ⟨fun s g dom rtag raddr h => exec_rreg rtag raddr h, fun s g dom rtag raddr data h => exec_wreg rtag raddr data h,
    fun s g dom rtag raddr h hopen hp hat => ⟨?_, fun data => ?_⟩, fun s g dom opc hopc => ?_,
    fun s g dom rtag raddr data h => exec_register_unheard dom rtag raddr data h⟩
  · exact ⟨_, exec_rreg rtag raddr h, access_packet_unassigned false 0 (s := holdVc2 s dom.val 1) hopen hp hat raddr.isLt rfl⟩
  · exact ⟨_, exec_wreg rtag raddr data h, access_packet_unassigned true data.toNat (s := holdVc2 s dom.val 1) hopen hp hat raddr.isLt rfl⟩
  · intro d h hp
    obtain ⟨hlast, hfail, hlink, hmem⟩ := reservedVc2_spec (heardVc2 s d 1) d
    exact ⟨_, exec_reservedVc2Opcode hopc h hp, hlast, hfail, (congrArg (SMap.getD ·.vc2Held d 0) hlink).trans (heardVc2_held s d 1), hmem⟩

end Sys2Proof.Machine


/-! SUPPORT. Mailbox packets, doorbells and responses (R103, R274 to R276, Table 12.7), and the partner's answer to an entry (R106, R374). -/

namespace Sys2Proof.Machine

/-! ## The packets (Tables 4.7 and 4.9) -/

/-- The fields of a mailbox packet, whatever follows its header; a doorbell has its number in place of the offset. -/
theorem mbxPacket_fields {opc dom moff mlen mtag : Nat} (rest : List Byte) (hopc : opc < 256) (hdom : dom < 16) (hoff : moff < 2 ^ 16) (hlen : mlen < 256)
    (htag : mtag < 256) : leAt (mbxPacket opc dom moff mlen mtag ++ rest) 0 1 = opc ∧ leAt (mbxPacket opc dom moff mlen mtag ++ rest) 1 1 = dom ∧
      leAt (mbxPacket opc dom moff mlen mtag ++ rest) 2 2 = moff ∧ leAt (mbxPacket opc dom moff mlen mtag ++ rest) 4 1 = mlen ∧
      leAt (mbxPacket opc dom moff mlen mtag ++ rest) 5 1 = mtag := by
  simp [leAt, slice, mbxPacket, u8, u16, leBytes, leNat]
  omega

/-- A mailbox write's data follow its header. -/
theorem mbxPacket_data (opc dom moff mlen mtag : Nat) (data : List Byte) : slice (mbxPacket opc dom moff mlen mtag ++ data) 8 data.length = data := by
  have hdrop : (mbxPacket opc dom moff mlen mtag ++ data).drop 8 = data := rfl
  rw [slice, hdrop]
  simp

/-- The fields of PM_ACK. -/
theorem pmPacket_fields {preq pseq res : Nat} (hseq : pseq < 2 ^ 16) (hres : res < 256) : leAt (pmPacket preq pseq res) 0 1 = 0x83 ∧
    leAt (pmPacket preq pseq res) 2 2 = pseq ∧ leAt (pmPacket preq pseq res) 4 1 = res := by
  simp [leAt, slice, pmPacket, u8, u16, leBytes, leNat]
  omega

theorem packetLen_mbxWr {l : List Byte} (h : leAt l 0 1 = 0x62) : packetLen l = 8 + 4 * leAt l 4 1 := by
  rw [leAt_first] at h
  simp only [packetLen, h]
  rfl

section
variable {s : State} {l : List Byte} {d : Nat} (hdom : vc2Dom l = d)
include hdom

theorem runVc2_mbxDb (hop : leAt l 0 1 = 0x60) : runVc2 s l = doorbell d (leAt l 2 2) (releaseVc2 s d (cellsOf (packetLen l))) := by
  simp only [runVc2, hop, hdom]
  rfl

theorem runVc2_mbxWr (hop : leAt l 0 1 = 0x62) : runVc2 s l =
    mbxWrite d (leAt l 2 2 % 4096) (leAt l 5 1) (slice l 8 (4 * leAt l 4 1)) (releaseVc2 s d (cellsOf (packetLen l))) := by
  simp only [runVc2, hop, hdom]
  rfl

theorem runVc2_mbxRd (hop : leAt l 0 1 = 0x63) :
    runVc2 s l = mbxRead d (leAt l 2 2 % 4096) (leAt l 4 1) (leAt l 5 1) (releaseVc2 s d (cellsOf (packetLen l))) := by
  simp only [runVc2, hop, hdom]
  rfl

theorem runVc2_pmAck (hop : leAt l 0 1 = 0x83) : runVc2 s l = pmAck (leAt l 2 2) (leAt l 4 1) (releaseVc2 s d (cellsOf (packetLen l))) := by
  simp only [runVc2, hop, hdom]
  rfl

end

/-- The domain that a mailbox packet names. -/
theorem vc2Dom_of {l : List Byte} {dom : Fin 16} (hop : leAt l 0 1 < 0x80) (hd : leAt l 1 1 = dom.val) : vc2Dom l = dom.val := by
  rw [vc2Dom, hd, if_neg (by omega), Nat.mod_eq_of_lt dom.isLt]

section
variable {s : State} {g dom : Fin 16} (hp : pregPending s dom.val = false)
include hp

theorem exec_mbxWr {moff : BitVec 12} {mtag mlen : BitVec 8} {data : List Byte} (hlen : data.length = 4 * mlen.toNat)
    (h : HeardVc2 s g.val dom.val (cellsOf (8 + data.length))) : exec (.mbxWr g dom moff mtag mlen data) s =
      .next (mbxWrite dom.val moff.toNat mtag.toNat data (heardVc2 s dom.val (cellsOf (8 + data.length)))) := by
  have hrun : exec (.mbxWr g dom moff mtag mlen data) s =
      .next (arriveVc2 g.val (mbxPacket 0x62 dom.val moff.toNat mlen.toNat mtag.toNat ++ data) s) := rfl
  obtain ⟨hop, hd, hoff, hn, htag⟩ := mbxPacket_fields (opc := 0x62) data (by decide) dom.isLt (by omega : moff.toNat < 2 ^ 16) mlen.isLt mtag.isLt
  have hdata := mbxPacket_data 0x62 dom.val moff.toNat mlen.toNat mtag.toNat data
  have hdom := vc2Dom_of (by rw [hop]; decide) hd
  have hplen : packetLen (mbxPacket 0x62 dom.val moff.toNat mlen.toNat mtag.toNat ++ data) = 8 + data.length := by
    rw [packetLen_mbxWr hop, hn, hlen]
  rw [hrun, arriveVc2_heard h hdom (by rw [hplen]) (.inr (.inr (.inr hp))), runVc2_mbxWr hdom hop, hplen, hoff, hn, htag, ← hlen, hdata,
    Nat.mod_eq_of_lt moff.isLt]
  rfl

theorem exec_mbxRd (moff : BitVec 12) (mtag mlen : BitVec 8) (h : HeardVc2 s g.val dom.val 1) : exec (.mbxRd g dom moff mtag mlen) s =
    .next (mbxRead dom.val moff.toNat mlen.toNat mtag.toNat (heardVc2 s dom.val 1)) := by
  have hrun : exec (.mbxRd g dom moff mtag mlen) s = .next (arriveVc2 g.val (mbxPacket 0x63 dom.val moff.toNat mlen.toNat mtag.toNat) s) := rfl
  obtain ⟨hop, hd, hoff, hn, htag⟩ := mbxPacket_fields (opc := 0x63) [] (by decide) dom.isLt (by omega : moff.toNat < 2 ^ 16) mlen.isLt mtag.isLt
  rw [List.append_nil] at hop hd hoff hn htag
  have hdom := vc2Dom_of (by rw [hop]; decide) hd
  have hplen : packetLen (mbxPacket 0x63 dom.val moff.toNat mlen.toNat mtag.toNat) = 8 := packetLen_eight (by omega) (by omega) (by omega)
  rw [hrun, arriveVc2_heard h hdom (by rw [hplen]; rfl) (.inr (.inr (.inr hp))), runVc2_mbxRd hdom hop, hplen, hoff, hn, htag,
    Nat.mod_eq_of_lt moff.isLt]
  rfl

theorem exec_mbxDb (seq : BitVec 16) (h : HeardVc2 s g.val dom.val 1) :
    exec (.mbxDb g dom seq) s = .next (doorbell dom.val seq.toNat (heardVc2 s dom.val 1)) := by
  have hrun : exec (.mbxDb g dom seq) s = .next (arriveVc2 g.val (mbxPacket 0x60 dom.val seq.toNat 0 0) s) := rfl
  obtain ⟨hop, hd, hseq, -⟩ := mbxPacket_fields (opc := 0x60) (mlen := 0) (mtag := 0) [] (by decide) dom.isLt seq.isLt (by decide) (by decide)
  rw [List.append_nil] at hop hd hseq
  have hdom := vc2Dom_of (by rw [hop]; decide) hd
  have hplen : packetLen (mbxPacket 0x60 dom.val seq.toNat 0 0) = 8 := packetLen_eight (by omega) (by omega) (by omega)
  rw [hrun, arriveVc2_heard h hdom (by rw [hplen]; rfl) (.inr (.inr (.inr hp))), runVc2_mbxDb hdom hop, hplen, hseq]
  rfl

end

theorem exec_pmAck {s : State} {g : Fin 16} (preq res : BitVec 8) (pseq : BitVec 16) (h : HeardVc2 s g.val 0 1) :
    exec (.pmAck g preq pseq res) s = .next (pmAck pseq.toNat res.toNat (heardVc2 s 0 1)) := by
  have hrun : exec (.pmAck g preq pseq res) s = .next (arriveVc2 g.val (pmPacket preq.toNat pseq.toNat res.toNat) s) := rfl
  obtain ⟨hop, hseq, hres⟩ := pmPacket_fields (preq := preq.toNat) pseq.isLt res.isLt
  have hdom : vc2Dom (pmPacket preq.toNat pseq.toNat res.toNat) = 0 := by
    rw [vc2Dom, hop]
    rfl
  have hplen : packetLen (pmPacket preq.toNat pseq.toNat res.toNat) = 8 := packetLen_eight (by omega) (by omega) (by omega)
  rw [hrun, arriveVc2_heard h hdom (by rw [hplen]; rfl) (.inl (by omega)), runVc2_pmAck hdom hop, hplen, hseq, hres]
  rfl


/-! ## The buffers (R276) -/

/-- A write in range of a mailbox that is not BUSY is stored, and acknowledged. -/
theorem mbxWrite_stores {s : State} {dom moff : Nat} (mtag : Nat) {data : List Byte} (hword : data.length % 4 = 0) (hmin : 0 < data.length)
    (hmax : data.length ≤ 248) (hrange : moff / 4 * 4 + data.length ≤ 4096) (hfree : mstate s dom ≠ 2) : mbxWrite dom moff mtag data s =
      sendVc2 (s.modMbx dom fun x => { x with cmd := bufPut x.cmd (moff / 4 * 4) data })
        (mbxAnsBytes 0x65 dom (moff / 4 * 4) (data.length / 4) mtag .ok []) := by
  have hlen : ¬(data.length / 4 = 0 ∨ 62 < data.length / 4) := by omega
  have hin : ¬4096 < moff / 4 * 4 + 4 * (data.length / 4) := by omega
  simp only [mbxWrite, if_neg hlen, if_neg hin, if_neg hfree, if_true]

/-- One out of range is only answered. -/
theorem mbxWrite_range {s : State} {dom moff : Nat} (mtag : Nat) {data : List Byte} (hword : data.length % 4 = 0) (hmin : 0 < data.length)
    (hmax : data.length ≤ 248) (hrange : 4096 < moff / 4 * 4 + data.length) :
    mbxWrite dom moff mtag data s = sendVc2 s (mbxAnsBytes 0x65 dom (moff / 4 * 4) (data.length / 4) mtag .range []) := by
  have hlen : ¬(data.length / 4 = 0 ∨ 62 < data.length / 4) := by omega
  have hout : 4096 < moff / 4 * 4 + 4 * (data.length / 4) := by omega
  simp only [mbxWrite, if_neg hlen, if_pos hout, reduceCtorEq, if_false]

/-- A read in range of a mailbox that is not BUSY is answered with the response buffer. -/
theorem mbxRead_answers {s : State} {dom moff mlen : Nat} (mtag : Nat) (hmin : 1 ≤ mlen) (hmax : mlen ≤ 62)
    (hrange : moff / 4 * 4 + 4 * mlen ≤ 4096) (hfree : mstate s dom ≠ 2) : mbxRead dom moff mlen mtag s =
      sendVc2 s (mbxAnsBytes 0x64 dom (moff / 4 * 4) mlen mtag .ok (bufGet (s.mbx dom).resp (moff / 4 * 4) (4 * mlen))) := by
  have hlen : ¬(mlen = 0 ∨ 62 < mlen) := by omega
  simp only [mbxRead, if_neg hlen, if_neg (Nat.not_lt.2 hrange), if_neg hfree, if_true]

/-- Sending leaves the mailboxes. -/
theorem Sends.mgt {s t : State} (h : Sends s t) : t.mgt = s.mgt := by
  obtain ⟨⟨_, _, _, _, _, _, _, _, _, _, _, _, rfl⟩, -⟩ := h
  rfl

theorem State.modMbx_mbx_ne (s : State) (m k : Nat) (f : Mbx → Mbx) (h : k ≠ m) : (s.modMbx m f).mbx k = s.mbx k := State.setMbx_mbx_ne _ _ _ _ h

/-! ## A mailbox that stays as it was -/

/-- A mailbox's buffers, its state and the number that it expects are the same. -/
def SameBox (m : Nat) (s t : State) : Prop := t.mbx m = s.mbx m ∧ mstate t m = mstate s m ∧ expSeq t m = expSeq s m

theorem SameBox.refl (m : Nat) (s : State) : SameBox m s s := ⟨rfl, rfl, rfl⟩

theorem SameBox.trans {m : Nat} {s t u : State} (h : SameBox m s t) (k : SameBox m t u) : SameBox m s u :=
  ⟨k.1.trans h.1, k.2.1.trans h.2.1, k.2.2.trans h.2.2⟩

theorem SameBox.ite {m : Nat} {s a b : State} {c : Prop} [Decidable c] (ha : SameBox m s a) (hb : SameBox m s b) : SameBox m s (if c then a else b) := by
  split
  · exact ha
  · exact hb

theorem SameBox.foldl {α : Type} {m : Nat} (l : List α) (f : State → α → State) (h : ∀ t, ∀ a ∈ l, SameBox m t (f t a)) (s : State) :
    SameBox m s (l.foldl f s) := by
  induction l generalizing s with
  | nil => exact .refl m s
  | cons a l ih => exact (h s a (List.mem_cons_self ..)).trans (ih (fun t b hb => h t b (List.mem_cons_of_mem _ hb)) _)

/-- The state and the number lie in the register store. -/
theorem SameBox.of_rd {m : Nat} {s t : State} (hmbx : t.mbx m = s.mbx m) (hst : m < 16 → t.rd F.MBX_STAT_MSTATE m = s.rd F.MBX_STAT_MSTATE m)
    (hseq : m < 16 → t.rd F.MBX_STAT_EXP_SEQ m = s.rd F.MBX_STAT_EXP_SEQ m) (hst' : t.rd F.MBXS_STAT_MSTATE = s.rd F.MBXS_STAT_MSTATE)
    (hseq' : t.rd F.MBXS_STAT_EXP_SEQ = s.rd F.MBXS_STAT_EXP_SEQ) : SameBox m s t := by
  refine ⟨hmbx, ?_, ?_⟩
  · unfold mstate
    split
    next h => exact hst h
    · exact hst'
  · unfold expSeq
    split
    next h => exact hseq h
    · exact hseq'

/-- What changes neither registers nor mailboxes. -/
theorem SameBox.of_regs {m : Nat} {s t : State} (hregs : t.regs = s.regs) (hmbx : t.mgt.mbx = s.mgt.mbx) : SameBox m s t := by
  have hrd (f : Fld) (i j : Nat) : t.rd f i j = s.rd f i j := by rw [State.rd, hregs, State.rd]
  exact .of_rd (by rw [State.mbx, hmbx, State.mbx]) (fun _ => hrd ..) (fun _ => hrd ..) (hrd ..) (hrd ..)

theorem SameBox.sends {m : Nat} {s t : State} (h : Sends s t) : SameBox m s t := .of_regs h.same.2.1 (congrArg Mgt.mbx h.mgt)

/-- A field of a block below the mailboxes' is written. -/
theorem SameBox.wr (m : Nat) (s : State) (f : Fld) (v i j : Nat) (h : f.at i j < F.MBXS_STAT_MSTATE.key) : SameBox m s (s.wr f v i j) := by
  have hlow : F.MBXS_STAT_MSTATE.key = 3391488 := rfl
  refine .of_rd rfl (fun _ => State.rd_wr_ne _ _ _ _ _ _ _ _ ?_) (fun _ => State.rd_wr_ne _ _ _ _ _ _ _ _ ?_) (State.rd_wr_ne _ _ _ _ _ _ _ _ ?_)
    (State.rd_wr_ne _ _ _ _ _ _ _ _ ?_)
  all_goals
    simp only [Fld.at, F.MBX_STAT_MSTATE, F.MBX_STAT_EXP_SEQ, F.MBXS_STAT_MSTATE, F.MBXS_STAT_EXP_SEQ] at *
    omega

theorem SameBox.inc (m : Nat) (s : State) (f : Fld) (n i j : Nat) (h : f.at i j < F.MBXS_STAT_MSTATE.key) :
    SameBox m s (s.inc f n i j) := .wr m s f _ i j h

theorem raisePlace_mbxStat (m : Nat) (h : m < 16) : raisePlace (F.MBX_STAT_MSTATE.at m 0) = false ∧ raisePlace (F.MBX_STAT_EXP_SEQ.at m 0) = false := by
  interval_cases m <;> decide

/-- A raise leaves the mailboxes. -/
theorem SameBox.raised {m : Nat} {s t : State} (h : RaiseReach s t) : SameBox m s t := by
  have hmgt : t.mgt = s.mgt := by
    obtain ⟨_, _, _, _, _, rfl, -⟩ := h
    rfl
  exact .of_rd (by rw [State.mbx, hmgt, State.mbx]) (fun hm => h.rd _ _ _ (raisePlace_mbxStat m hm).1) (fun hm => h.rd _ _ _ (raisePlace_mbxStat m hm).2)
    (h.rd _ _ _ (by decide)) (h.rd _ _ _ (by decide))

/-- Another mailbox changes, or this one in nothing. -/
theorem SameBox.modMbx {m k : Nat} (s : State) (f : Mbx → Mbx) (h : m ≠ k) : SameBox m s (s.modMbx k f) :=
  .of_rd (State.modMbx_mbx_ne _ _ _ _ h) (fun _ => rfl) (fun _ => rfl) rfl rfl

/-- The counts of commands and of ignored doorbells lie beside the state. -/
theorem countCmd_same (s : State) (m : Nat) : SameBox m s (countCmd s m) := by
  unfold countCmd
  split
  · refine .of_rd rfl (fun _ => State.rd_inc_ne _ _ _ _ _ _ _ _ ?_) (fun _ => State.rd_inc_ne _ _ _ _ _ _ _ _ ?_) (State.rd_inc_ne _ _ _ _ _ _ _ _ ?_)
      (State.rd_inc_ne _ _ _ _ _ _ _ _ ?_)
    all_goals
      simp only [Fld.at, F.MBX_STAT_MSTATE, F.MBX_STAT_EXP_SEQ, F.MBXS_STAT_MSTATE, F.MBXS_STAT_EXP_SEQ, F.MBX_CNT_CMDS]
      omega
  next hm =>
    refine .of_rd rfl (fun h => absurd h hm) (fun h => absurd h hm) (State.rd_inc_ne _ _ _ _ _ _ _ _ ?_) (State.rd_inc_ne _ _ _ _ _ _ _ _ ?_)
    all_goals decide

/-! ## Doorbells (R275, Table 12.7) -/

/-- The state of a mailbox is what was set, in its two bits. -/
theorem setMstate_mstate (s : State) (m : Nat) {v : Nat} (hv : v < 4) : mstate (setMstate s m v) m = v := by
  unfold mstate setMstate
  split <;> exact (State.rd_wr_same ..).trans (Nat.mod_eq_of_lt hv)

theorem setMstate_mbx (s : State) (m v k : Nat) : (setMstate s m v).mbx k = s.mbx k := by
  unfold setMstate
  split <;> rfl

theorem setMstate_now (s : State) (m v : Nat) : (setMstate s m v).now = s.now := by
  unfold setMstate
  split <;> rfl

theorem modMbx_mstate (s : State) (m k : Nat) (f : Mbx → Mbx) : mstate (s.modMbx m f) k = mstate s k := rfl

theorem modMbx_expSeq (s : State) (m k : Nat) (f : Mbx → Mbx) : expSeq (s.modMbx m f) k = expSeq s k := rfl

/-- A mailbox whose command is taken, at a time, with a number; an opcode of no table is answered already. -/
def takenBox (x : Mbx) (seq now : Nat) (known : Bool) : Mbx :=
  { x with seq := seq, taken := now, ran := !known, journal := false, await := if known then .none else .due .badOpcode 0 [] }

/-- A command that is taken: its mailbox is BUSY. -/
theorem takeCommand_spec (s : State) (m seq : Nat) : mstate (takeCommand s m seq) m = 2 ∧
    (takeCommand s m seq).mbx m = takenBox (s.mbx m) seq s.now (knownOpcode (cmdOpcode s m)) := by
  unfold takeCommand
  dsimp only
  rw [modMbx_mstate, State.modMbx_mbx_same, setMstate_mbx]
  exact ⟨setMstate_mstate s m (by decide), rfl⟩

/-- A master is told by what is sent. -/
theorem tellMaster_same (s : State) (m : Nat) (c : Code) (msg : List Byte) (k : Nat) : SameBox k s (tellMaster s m c msg) := by
  unfold tellMaster
  split
  · exact .ite (.sends (sendVc2_sends ..)) (.refl k s)
  · split
    · unfold sendFrame
      split <;> exact .of_regs rfl rfl
    · exact .refl k s

/-- A response stands in its buffer, and its mailbox is otherwise as it was. -/
theorem respond_spec (s : State) (m : Nat) (c : Code) (d : Nat) (p : List Byte) : (respond s m c d p).mbx m =
    { s.mbx m with resp := bufPut (s.mbx m).resp 0 (responseBytes s m c d p) } ∧ mstate (respond s m c d p) m = mstate s m ∧
    expSeq (respond s m c d p) m = expSeq s m := by
  obtain ⟨hmbx, hst, hseq⟩ := (countCmd_same (s.modMbx m fun x => { x with resp := bufPut x.resp 0 (responseBytes s m c d p) }) m).trans
    (tellMaster_same _ m c (responseBytes s m c d p) m)
  exact ⟨hmbx.trans (State.modMbx_mbx_same ..), hst, hseq⟩

/-- A response depends on the command in its mailbox. -/
theorem responseBytes_congr {s t : State} {m : Nat} (h : (t.mbx m).cmd = (s.mbx m).cmd) (c : Code) (d : Nat) (p : List Byte) :
    responseBytes t m c d p = responseBytes s m c d p := by
  unfold responseBytes cmdLease
  rw [h]

/-- A ring with another number is answered SEQUENCE, and the mailbox stays READY. -/
theorem doorbell_sequence {s : State} {m seq : Nat} (hidle : mstate s m = 1) (hseq : seq ≠ expSeq s m) (hop : cmdOpcode s m ≠ 0x0100) :
    mstate (doorbell m seq s) m = 1 ∧
    ((doorbell m seq s).mbx m).resp = bufPut (s.mbx m).resp 0 (responseBytes s m .sequence 0 []) := by
  have hrun : doorbell m seq s = respond (s.modMbx m fun x => { x with seq := seq }) m .sequence 0 [] := by
    simp [doorbell, hidle, hseq, hop]
  have hbox : (s.modMbx m fun x => { x with seq := seq }).mbx m = { s.mbx m with seq := seq } := State.modMbx_mbx_same ..
  obtain ⟨hmbx, hst, -⟩ := respond_spec (s.modMbx m fun x => { x with seq := seq }) m .sequence 0 []
  rw [responseBytes_congr (s := s) (by rw [hbox]), hbox] at hmbx
  rw [hrun, hmbx]
  exact ⟨hst.trans hidle, rfl⟩

/-- A ring of a BUSY mailbox is only counted. -/
theorem doorbell_busy {s : State} {m : Nat} (seq : Nat) (hbusy : mstate s m = 2) : doorbell m seq s = countIgn s m := by
  simp only [doorbell, hbusy]

theorem countIgn_pck (s : State) (m : Nat) : (countIgn s m).pck = s.pck := by
  unfold countIgn
  split <;> rfl

/-- In RUN nothing wakes. -/
theorem wakeCause_run {s : State} (c : Nat) (h : s.pck.pow = .run) : wakeCause c s = s := by
  simp [wakeCause, h]

/-- A doorbell where registers are open; the service mailbox's may wake the stack, which leaves the mailbox. -/
theorem doorbellRing_same {s : State} (m seq : Nat) (hopen : regsOpen s = true) : SameBox m (doorbell m seq s) (doorbellRing m seq s) := by
  obtain ⟨wake, hwake⟩ := wakeCause_eq 2 (doorbell m seq s)
  simp only [doorbellRing, hopen, Bool.not_true, Bool.false_eq_true, if_false, hwake]
  exact .ite (.of_regs rfl rfl) (.refl m _)

/-- A ring of a BUSY mailbox in RUN is only counted. -/
theorem doorbellRing_busy {s : State} {m : Nat} (seq : Nat) (hopen : regsOpen s = true) (hrun : s.pck.pow = .run) (hbusy : mstate s m = 2) :
    doorbellRing m seq s = countIgn s m := by
  have hwake : wakeCause 2 (countIgn s m) = countIgn s m := wakeCause_run 2 (by rw [countIgn_pck, hrun])
  simp only [doorbellRing, hopen, doorbell_busy seq hbusy, hwake, ite_self]
  rfl

/-! ## The response (Table 12.7) -/

theorem freeLease_same (s : State) (i m : Nat) (hi : i < 5) : SameBox m s (freeLease s i) := by
  have hholder : F.MGT_LEASE_HOLDER.at i 0 < F.MBXS_STAT_MSTATE.key := by
    simp only [Fld.at, F.MGT_LEASE_HOLDER, F.MBXS_STAT_MSTATE]
    omega
  have hleft : F.MGT_LEASE_LEFT_MS.at i 0 < F.MBXS_STAT_MSTATE.key := by
    simp only [Fld.at, F.MGT_LEASE_LEFT_MS, F.MBXS_STAT_MSTATE]
    omega
  exact ((SameBox.wr m s _ _ _ _ hholder).trans (.wr m _ _ _ _ _ hleft)).trans (.of_regs rfl rfl)

theorem releaseLeases_same (s : State) (k m : Nat) : SameBox m s (releaseLeases s k) :=
  .foldl _ _ (fun t i hi => .ite (freeLease_same t i m (List.mem_range.1 hi)) (.refl m t)) s

theorem loadDone_same (s : State) (k m : Nat) : SameBox m s (loadDone s k) := by
  unfold loadDone
  split <;> exact .of_regs rfl rfl

theorem setMstate_expSeq (s : State) (m v : Nat) : expSeq (setMstate s m v) m = expSeq s m := by
  unfold setMstate expSeq
  split
  · refine State.rd_wr_ne _ _ _ _ _ _ _ _ ?_
    simp [Fld.at, F.MBX_STAT_MSTATE, F.MBX_STAT_EXP_SEQ]
  · exact State.rd_wr_ne _ _ _ _ _ _ _ _ (by decide)

/-- A session that is closed leaves its mailbox CLOSED, any other response READY. -/
theorem afterPost_spec (s : State) (m opc : Nat) (c : Code) : (afterPost s m opc c).mbx m = s.mbx m ∧
    mstate (afterPost s m opc c) m = if opc = 0x0101 ∧ c = .ok then 0 else 1 := by
  unfold afterPost
  by_cases hclose : opc = 0x0101 ∧ c = .ok
  · rw [if_pos hclose, if_pos hclose]
    have hleases := releaseLeases_same (setMstate s m 0) m m
    generalize releaseLeases (setMstate s m 0) m = t at hleases
    have hauth : SameBox m t { t with mgt.auth := false } := .of_regs rfl rfl
    obtain ⟨hmbx, hst, -⟩ := hleases.trans (.ite (c := m = 16) hauth (.refl m t))
    exact ⟨hmbx.trans (setMstate_mbx ..), hst.trans (setMstate_mstate s m (by decide))⟩
  · rw [if_neg hclose, if_neg hclose, setMstate_mbx]
    have hload := SameBox.ite (c := opc = 0x0A01 ∧ c = .ok) (loadDone_same s m m) (.refl m s)
    exact ⟨hload.1, setMstate_mstate _ m (by decide)⟩

/-- A mailbox that is not BUSY has no command for a core to take up again. -/
theorem replayJournal_same {s : State} {m : Nat} (hfree : mstate s m ≠ 2) : SameBox m s (replayJournal s) := by
  have step (l : List Nat) (t : State) (ht : mstate t m ≠ 2) : SameBox m t (l.foldl (fun t k =>
      if mstate t k = 2 ∧ (t.mbx k).journal then t.modMbx k fun x => { x with ran := false, await := .none } else t) t) := by
    induction l generalizing t with
    | nil => exact .refl m t
    | cons k l ih =>
      have hone : SameBox m t (if mstate t k = 2 ∧ (t.mbx k).journal then t.modMbx k fun x => { x with ran := false, await := .none } else t) := by
        split
        next hk => exact .modMbx t _ fun hmk => ht (hmk ▸ hk.1)
        · exact .refl m t
      exact hone.trans (ih _ (by rw [hone.2.1]; exact ht))
  exact step _ s hfree

theorem setCore_same (s : State) (b : Bool) (v m : Nat) : SameBox m s (setCore s b v) := by
  cases b with
  | true => exact .wr m s _ _ _ _ (by decide)
  | false => exact .wr m s _ _ _ _ (by decide)

/-- A takeover leaves a mailbox that is not BUSY. -/
theorem takeover_same {s : State} {m : Nat} (cause former : Nat) (hfree : mstate s m ≠ 2) : SameBox m s (takeover s cause former) := by
  have hcores : SameBox m s ((setCore (setCore s (activeCore s) former) (!activeCore s) 2).wr F.MGT_STAT_ACTIVE (b2n (!activeCore s))) :=
    ((setCore_same ..).trans (setCore_same ..)).trans (.wr m _ _ _ _ _ (by decide))
  have hcounted := (hcores.trans (.wr m _ F.MGT_TAKE_TCAUSE cause 0 0 (by decide))).trans (.inc m _ F.MGT_TAKE_TAKEOVERS 1 0 0 (by decide))
  unfold takeover
  extract_lets a u v
  have hv : SameBox m s { v with mgt.take := none, mgt.beat := (v.now, v.now) } := hcounted.trans (.of_regs rfl rfl)
  exact hv.trans (replayJournal_same (by rw [hv.2.1]; exact hfree))

/-- And so does a planned one that runs at a command boundary. -/
theorem runTakeover_same {s : State} {m : Nat} (hfree : mstate s m ≠ 2) : SameBox m s (runTakeover s) := by
  unfold runTakeover
  split
  · exact .refl m s
  next cause _ =>
    refine .ite (.refl m s) (.ite ?_ (.ite (.of_regs rfl rfl) (.ite ?_ (takeover_same cause 4 hfree))))
    · exact ((setCore_same ..).trans (setCore_same ..)).trans (.of_regs rfl rfl)
    · have htrial : SameBox m s ((takeover s 5 3).wr F.MGT_STAT_TRIAL 1) := (takeover_same 5 3 hfree).trans (.wr m _ _ _ _ _ (by decide))
      generalize (takeover s 5 3).wr F.MGT_STAT_TRIAL 1 = u at htrial
      refine SameBox.trans (t := { u with
        mgt.trial := some (coreSlot s (!activeCore s), u.now)
        mgt.load := none }) (htrial.trans (.of_regs rfl rfl)) (.raised (State.raiseG_reach ..))

theorem setExpSeq_spec (s : State) (m v : Nat) : (setExpSeq s m v).mbx m = s.mbx m ∧ mstate (setExpSeq s m v) m = mstate s m ∧
    expSeq (setExpSeq s m v) m = v % 65536 := by
  unfold setExpSeq mstate expSeq
  split
  · refine ⟨rfl, State.rd_wr_ne _ _ _ _ _ _ _ _ ?_, State.rd_wr_same ..⟩
    simp [Fld.at, F.MBX_STAT_MSTATE, F.MBX_STAT_EXP_SEQ]
  · exact ⟨rfl, State.rd_wr_ne _ _ _ _ _ _ _ _ (by decide), State.rd_wr_same ..⟩

/-- A mailbox whose response is posted. -/
def postedBox (x : Mbx) (msg : List Byte) : Mbx := { x with resp := bufPut x.resp 0 msg, ran := false, journal := false, await := .none }

theorem postedBox_resp (x : Mbx) (msg : List Byte) : (postedBox x msg).resp = bufPut x.resp 0 msg := rfl

/-- A load that ran out of its time leaves the port (R446). -/
def loadDropped (s : State) (m : Nat) : State := if loadLate s m then { s with pst.q := s.pst.q.filter fun w => w.act != .fw m } else s

/-- The response stands in its buffer, and the session goes on or is closed. -/
def answered (s : State) (m : Nat) (c : Code) (d : Nat) (p : List Byte) : State :=
  let t := respond (loadDropped s m) m c d p
  (setExpSeq (afterPost t m (cmdOpcode s m) c) m ((t.mbx m).seq + 1)).modMbx m fun x => { x with ran := false, journal := false, await := .none }

/-- The response OK to PWR_ENTER commits its entry (R374). -/
def entryCommitted (s : State) (m opc : Nat) (c : Code) : State :=
  match s.pck.entry with
  | some e => if opc = 0x0800 ∧ c = Code.ok ∧ e.mbx = m then { s with pck.commit := some e.target } else s
  | none => s

/-- A command that is answered keeps no request and no window. -/
def commandGone (s : State) (m : Nat) : State :=
  { s with
    rqe.reqs := s.rqe.reqs.filter fun (r : Req) => !(r.iss == .mailbox m && r.cpl.isSome && r.op != .wr && r.op != .zero)
    mgt.busy := SMap.erase s.mgt.busy m }

theorem responsePost_eq {s : State} {m : Nat} {c : Code} {d : Nat} {p : List Byte} (hbusy : mstate s m = 2) (hserves : coreServes s = true)
    (hans : answerOf s m = some (c, d, p)) :
    responsePost m s = runTakeover (commandGone (entryCommitted (answered s m c d p) m (cmdOpcode s m) c) m) := by
  unfold responsePost
  rw [if_neg (by simp [hbusy, hserves]), hans]
  rfl

theorem loadDropped_same (s : State) (m : Nat) : SameBox m s (loadDropped s m) := .ite (.of_regs rfl rfl) (.refl m s)

theorem entryCommitted_same (s : State) (m opc : Nat) (c : Code) : SameBox m s (entryCommitted s m opc c) := by
  unfold entryCommitted
  split
  · exact .ite (.of_regs rfl rfl) (.refl m s)
  · exact .refl m s

/-- What the response leaves of its mailbox. -/
theorem answered_spec (s : State) (m : Nat) (c : Code) (d : Nat) (p : List Byte) :
    (answered s m c d p).mbx m = postedBox (s.mbx m) (responseBytes s m c d p) ∧
    mstate (answered s m c d p) m = (if cmdOpcode s m = 0x0101 ∧ c = .ok then 0 else 1) ∧
    expSeq (answered s m c d p) m = ((s.mbx m).seq + 1) % 65536 := by
  obtain ⟨hbox, -⟩ := loadDropped_same s m
  obtain ⟨hresp, -⟩ := respond_spec (loadDropped s m) m c d p
  rw [responseBytes_congr (congrArg Mbx.cmd hbox), hbox] at hresp
  unfold answered
  generalize respond (loadDropped s m) m c d p = t at hresp
  dsimp only
  obtain ⟨hpost, hst⟩ := afterPost_spec t m (cmdOpcode s m) c
  obtain ⟨hset, hst', hseq⟩ := setExpSeq_spec (afterPost t m (cmdOpcode s m) c) m ((t.mbx m).seq + 1)
  refine ⟨?_, hst'.trans hst, ?_⟩
  · rw [State.modMbx_mbx_same, hset, hpost, hresp, postedBox]
  · rw [modMbx_expSeq, hseq, hresp]

/-- A command whose answer is there is answered: its mailbox expects the next number, and is READY or CLOSED. -/
theorem responsePost_spec {s : State} {m : Nat} {c : Code} {d : Nat} {p : List Byte} (hbusy : mstate s m = 2) (hserves : coreServes s = true)
    (hans : answerOf s m = some (c, d, p)) : (responsePost m s).mbx m = postedBox (s.mbx m) (responseBytes s m c d p) ∧
      mstate (responsePost m s) m = (if cmdOpcode s m = 0x0101 ∧ c = .ok then 0 else 1) ∧
      expSeq (responsePost m s) m = ((s.mbx m).seq + 1) % 65536 := by
  obtain ⟨hbox, hst, hseq⟩ := answered_spec s m c d p
  have hgone : SameBox m (answered s m c d p) (commandGone (entryCommitted (answered s m c d p) m (cmdOpcode s m) c) m) :=
    (entryCommitted_same ..).trans (.of_regs rfl rfl)
  have hfree : mstate (commandGone (entryCommitted (answered s m c d p) m (cmdOpcode s m) c) m) m ≠ 2 := by
    rw [hgone.2.1, hst]
    split <;> decide
  obtain ⟨hbox', hst', hseq'⟩ := hgone.trans (runTakeover_same hfree)
  rw [responsePost_eq hbusy hserves hans]
  exact ⟨hbox'.trans hbox, hst'.trans hst, hseq'.trans hseq⟩

theorem responsePost_waits {s : State} {m : Nat} (hans : answerOf s m = none) : responsePost m s = s := by
  unfold responsePost
  rw [hans]
  exact ite_self s

/-! ## The partner's answer to an entry (R106, R374) -/

/-- An entry that ends leaves the stack in RUN, with no entry and no request to the partner. -/
theorem endEntry_spec (s : State) (e : Entry) (code dom : Nat) (abort : Bool) : (endEntry s e code dom abort).pck.entry = none ∧
    (endEntry s e code dom abort).pck.pow = .run ∧ (endEntry s e code dom abort).link.pmReq = none := ⟨rfl, rfl, rfl⟩

theorem pmAck_binds {s : State} {q seq : Nat} {e : Entry} (hreq : s.link.pmReq = some (q, seq)) (hentry : s.pck.entry = some e) (hopen : e.acked = false) :
    pmAck seq 0 s = { s with pck.entry := some { e with acked := true }, link.pmReq := none } := by
  simp [pmAck, hreq, hentry, hopen]

theorem pmAck_declines {s : State} {q seq res : Nat} {e : Entry} (hreq : s.link.pmReq = some (q, seq)) (hentry : s.pck.entry = some e)
    (hopen : e.acked = false) (hres : res ≠ 0) : pmAck seq res s = endEntry s e 7 0xFF false := by
  simp [pmAck, hreq, hentry, hopen, hres]

theorem pmTimeout_declines {s : State} {e : Entry} (hentry : s.pck.entry = some e) (hopen : e.acked = false) (hreq : s.link.pmReq.isSome = true) :
    pmTimeout s = endEntry s e 7 0xFF false := by
  simp [pmTimeout, hentry, hopen, Option.isSome_iff_ne_none.1 hreq]

/-! ## The commands -/

theorem exec_mailboxDoorbell (m : Fin 17) (seq : BitVec 16) (s : State) :
    exec (.mailboxDoorbell m seq) s = .next (doorbellRing m.val seq.toNat s) := rfl

theorem exec_responsePost (m : Fin 17) (s : State) : exec (.responsePost m) s = .next (responsePost m.val s) := rfl

theorem exec_pmAckTimeout (s : State) : exec .pmAckTimeout s = .next (pmTimeout s) := rfl

/-- Settles O41: each packet that is heard comes to the function of its opcode, and each function has a lemma that says what it leaves. -/
theorem mailboxPacketsAndDoorbells : Obligations.MailboxPacketsAndDoorbells := by
  unfold Obligations.MailboxPacketsAndDoorbells
  refine ⟨fun s g dom moff mtag mlen data hlen hmin hmax h hp hfree => ⟨fun hin => ?_, fun hout => ?_⟩,
    fun s g dom moff mtag mlen h hp hmin hmax hin hfree => ?_, fun s g dom seq h hp hidle hseq => ?_,
    fun s m seq hopen hrun => ⟨fun hidle hseq hknown => ?_, fun hidle hseq hop => ?_, fun hbusy => ?_⟩,
    fun s m c d p hbusy hserves hans => ?_, fun s m _ _ hans => ?_, fun s g preq res pseq q e h hreq hentry hopen => ⟨fun hok => ?_, fun hno => ?_⟩,
    fun s e hentry hopen hreq => ?_⟩
  · have hrun := exec_mbxWr (moff := moff) (mtag := mtag) hp hlen h
    rw [mbxWrite_stores (s := heardVc2 s dom.val (cellsOf (8 + data.length))) mtag.toNat (by omega) (by omega) (by omega) hin hfree] at hrun
    refine ⟨_, hrun, ?_, fun k hk => ?_⟩
    · rw [State.mbx, (sendVc2_sends ..).mgt]
      exact State.modMbx_mbx_same ..
    · rw [State.mbx, (sendVc2_sends ..).mgt]
      exact State.modMbx_mbx_ne _ _ _ _ hk
  · have hrun := exec_mbxWr (moff := moff) (mtag := mtag) hp hlen h
    rw [mbxWrite_range mtag.toNat (by omega) (by omega) (by omega) hout] at hrun
    exact ⟨_, hrun, (sendVc2_sends ..).mgt⟩
  · rw [exec_mbxRd hp moff mtag mlen h, mbxRead_answers (s := heardVc2 s dom.val 1) mtag.toNat hmin hmax hin hfree]
    rfl
  · obtain ⟨hst, hbox⟩ := takeCommand_spec (heardVc2 s dom.val 1) dom.val seq.toNat
    have hrun := exec_mbxDb hp seq h
    rw [doorbell_takes (s := heardVc2 s dom.val 1) hidle hseq] at hrun
    refine ⟨_, hrun, hst, ?_⟩
    rw [hbox]
    refine ⟨rfl, rfl, fun hknown => ?_, fun hknown => ?_⟩
    · rw [show knownOpcode (cmdOpcode (heardVc2 s dom.val 1) dom.val) = true from hknown]
      rfl
    · rw [show knownOpcode (cmdOpcode (heardVc2 s dom.val 1) dom.val) = false from hknown]
      rfl
  · obtain ⟨hbox', hst', -⟩ := doorbellRing_same m.val seq.toNat hopen
    obtain ⟨hst, hbox⟩ := takeCommand_spec s m.val seq.toNat
    rw [hknown] at hbox
    rw [doorbell_takes hidle hseq] at hbox' hst'
    rw [hbox] at hbox'
    exact ⟨_, exec_mailboxDoorbell m seq s, hst'.trans hst, congrArg Mbx.seq hbox', congrArg Mbx.ran hbox'⟩
  · obtain ⟨hbox', hst', -⟩ := doorbellRing_same m.val seq.toNat hopen
    obtain ⟨hst, hresp⟩ := doorbell_sequence hidle hseq hop
    exact ⟨_, exec_mailboxDoorbell m seq s, hst'.trans hst, (congrArg Mbx.resp hbox').trans hresp⟩
  · rw [exec_mailboxDoorbell, doorbellRing_busy seq.toNat hopen hrun hbusy]
  · obtain ⟨hbox, hst, hseq⟩ := responsePost_spec hbusy hserves hans
    exact ⟨_, exec_responsePost m s, hst, hseq, (congrArg Mbx.resp hbox).trans (postedBox_resp ..), congrArg Mbx.await hbox⟩
  · rw [exec_responsePost, responsePost_waits hans]
  · have hrun := exec_pmAck preq res pseq h
    rw [hok, show (0 : BitVec 8).toNat = 0 from rfl, pmAck_binds (s := heardVc2 s 0 1) hreq hentry hopen] at hrun
    exact ⟨_, hok ▸ hrun, rfl, rfl⟩
  · have hres : res.toNat ≠ 0 := fun h0 => hno (BitVec.eq_of_toNat_eq h0)
    have hrun := exec_pmAck preq res pseq h
    rw [pmAck_declines (s := heardVc2 s 0 1) hreq hentry hopen hres] at hrun
    exact ⟨_, hrun, endEntry_spec ..⟩
  · obtain ⟨hnone, hpow, -⟩ := endEntry_spec s e 7 0xFF false
    exact ⟨_, (exec_pmAckTimeout s).trans (congrArg Host.Outcome.next (pmTimeout_declines hentry hopen hreq)), hnone, hpow⟩

end Sys2Proof.Machine


/-! SUPPORT. Operations that leave the request buffer and the link alone: counters, records, events, the slice, the lines, DRAM. -/

namespace Sys2Proof.Machine

/-- The request buffer and the link stay as they are. -/
def Aside (s t : State) : Prop := t.rqe = s.rqe ∧ t.link = s.link

theorem Aside.refl (s : State) : Aside s s := ⟨rfl, rfl⟩

theorem Aside.trans {s t u : State} (h : Aside s t) (k : Aside t u) : Aside s u := ⟨k.1.trans h.1, k.2.trans h.2⟩

theorem Aside.ite {s a b : State} {c : Prop} [Decidable c] (ha : Aside s a) (hb : Aside s b) : Aside s (if c then a else b) := by
  split
  · exact ha
  · exact hb

theorem Aside.foldl {α : Type} {f : State → α → State} (hf : ∀ t x, Aside t (f t x)) (s : State) (l : List α) : Aside s (l.foldl f s) :=
  List.foldlRecOn (motive := Aside s) l f (.refl s) fun t ht x _ => ht.trans (hf t x)

theorem Aside.inc {s t : State} (h : Aside s t) (f : Fld) (n i j : Nat) : Aside s (t.inc f n i j) := h.trans ⟨rfl, rfl⟩

theorem Aside.wr {s t : State} (h : Aside s t) (f : Fld) (v i j : Nat) : Aside s (t.wr f v i j) := h.trans ⟨rfl, rfl⟩

theorem Aside.setLine {s t : State} (h : Aside s t) (sl set w : Nat) (x : Line) : Aside s (t.setLine sl set w x) := h.trans ⟨rfl, rfl⟩

theorem Aside.lastCe {s t : State} (h : Aside s t) (m : SMap Nat) : Aside s { t with dip.lastCe := m } := h.trans ⟨rfl, rfl⟩

theorem Aside.raise {s t : State} (h : Aside s t) (src : Nat) (v : Sev) (syn : List Nat) : Aside s (t.raise src v syn) := by
  obtain ⟨-, -, -, -, -, -, -, -, hlink, hrqe, -⟩ := (t.raise_reach src v syn).same
  exact h.trans ⟨hrqe, hlink⟩

theorem Aside.raiseG {s t : State} (h : Aside s t) (src : Nat) (v : Sev) (unit value : Nat) : Aside s (t.raiseG src v unit value) := h.raise ..

theorem Counted.aside {s t : State} (h : Counted s t) : Aside s t := by
  obtain ⟨cnt, rfl⟩ := h
  exact ⟨rfl, rfl⟩

/-! ### DRAM and the slice -/

theorem inject_aside (s : State) (ch ps : Nat) : Aside s (inject s ch ps) := by
  unfold inject
  split
  · exact .refl s
  · exact .ite (.refl s) ⟨rfl, rfl⟩

theorem dramStore_aside (s : State) (ch ps : Nat) (x : Sector) : Aside s (s.dramStore ch ps x) :=
  Aside.trans (t := s.storeSector ps x) ⟨rfl, rfl⟩ (inject_aside ..)

theorem dramWrite_aside (s : State) (ch c : Nat) (x : Sector) : Aside s (s.dramWrite ch c x) :=
  .ite ((Aside.refl s).inc ..) ((dramStore_aside ..).inc ..)

theorem cleanHalf_aside (s : State) (sl set w h next : Nat) : Aside s (cleanHalf s sl set w h next) :=
  .ite (((dramWrite_aside ..).setLine ..).inc ..) (.ite ((Aside.refl s).setLine ..) (.refl s))

theorem cleanLines_aside (s : State) (sl next : Nat) (ls : List (Nat × Nat)) : Aside s (cleanLines s sl next ls) :=
  .foldl (fun _ _ => (cleanHalf_aside ..).trans (cleanHalf_aside ..)) s ls

theorem dropClean_aside (s : State) (sl : Nat) (ls : List (Nat × Nat)) : Aside s (dropClean s sl ls) :=
  .foldl (fun t _ => (Aside.refl t).setLine ..) s ls

theorem abandonOp_aside (s : State) (sl : Nat) : Aside s (abandonOp s sl) := by
  unfold abandonOp
  split
  · exact .refl s
  · exact ⟨rfl, rfl⟩

theorem keepDirty_aside (s : State) (sl : Nat) : Aside s (keepDirty s sl) := dropClean_aside ..

theorem startDrain_aside (s : State) (sl : Nat) : Aside s (startDrain s sl) := ((abandonOp_aside ..).trans (keepDirty_aside ..)).wr ..

theorem loseLine_aside (s : State) (sl : Nat) : Aside s (loseLine s sl) := ⟨rfl, rfl⟩

theorem sliceFault_aside (sl cause : Nat) (s : State) : Aside s (sliceFault sl cause s) := by
  unfold sliceFault
  extract_lets clean sev u v
  have hv : Aside s v := (((((Aside.refl s).wr ..).wr ..).raiseG ..).trans (.ite (loseLine_aside ..) (.refl _)))
  exact .ite (.refl s) (.ite (hv.wr ..) (.ite (hv.trans (abandonOp_aside ..))
    (.ite ((hv.trans (abandonOp_aside ..)).trans (keepDirty_aside ..)) (hv.trans (startDrain_aside ..)))))

theorem retireWay_aside (s : State) (sl w : Nat) : Aside s (retireWay s sl w) := by
  unfold retireWay
  extract_lets d u ls v x
  have hx : Aside s x := (((Aside.refl s).wr ..).trans (.ite (cleanLines_aside ..) (dropClean_aside ..))).raiseG ..
  exact .ite (.refl s) (.ite (hx.trans (sliceFault_aside ..)) hx)

theorem countSliceUe_aside (s : State) (sl set w : Nat) : Aside s (countSliceUe s sl set w) :=
  .ite (Aside.trans ⟨rfl, rfl⟩ (retireWay_aside ..)) ⟨rfl, rfl⟩

theorem sliceDecode_aside (sl set w h out : Nat) (s : State) : Aside s (sliceDecode sl set w h out s) :=
  .ite (.refl s) (((Aside.ite (dramWrite_aside ..) (.refl s)).setLine ..).trans (countSliceUe_aside ..))

/-! ### Error records and reports -/

theorem dipLog_aside (s : State) (r : List Nat) : Aside s (dipLog s r) := .ite ⟨rfl, rfl⟩ ⟨rfl, rfl⟩

theorem dipTrigger_aside (s : State) (w : Where) (b : Beat) (trig : Nat) : Aside s (dipTrigger s w b trig) := (dipLog_aside ..).raise ..

theorem ceRate_aside (s : State) (w : Where) (b : Beat) : Aside s (ceRate s w b) := by
  unfold ceRate
  extract_lets old fresh n t0 done hit dip u
  exact Aside.trans (t := u) ⟨rfl, rfl⟩ (.ite (dipTrigger_aside ..) (.refl u))

theorem fastStart_aside (s : State) (ch n : Nat) : Aside s (fastStart s ch n) :=
  .ite (.refl s) (.ite (.ite ⟨rfl, rfl⟩ (.refl s)) ⟨rfl, rfl⟩)

theorem posHit_aside (s : State) (w : Where) (b : Beat) (p : Nat) : Aside s (posHit s w b p) := by
  unfold posHit
  extract_lets n dip u dip' v
  have hu : Aside s u := ⟨rfl, rfl⟩
  have hv : Aside s v := hu.trans ⟨rfl, rfl⟩
  exact .ite ((hv.trans (dipTrigger_aside ..)).trans (fastStart_aside ..)) hu

theorem rprQueue_aside (s : State) (ch bank r : Nat) : Aside s (rprQueue s ch bank r).2 := by
  unfold rprQueue
  split
  · exact .refl s
  · split
    · exact .refl s
    · split
      · exact .refl s
      · exact ⟨rfl, rfl⟩

theorem handOver_aside (s : State) (ch bank prow : Nat) : Aside s (handOver s ch bank prow).1 := by
  unfold handOver
  split
  · exact .refl s
  · split
    · exact .refl s
    · exact rprQueue_aside ..

theorem trackRow_aside (s : State) (w : Where) (b : Beat) : Aside s (trackRow s w b) := by
  unfold trackRow
  extract_lets ps bank es loc known m rest put least
  refine .ite (.refl s) ?_
  have hput (l : List (Nat × Nat × Nat)) : Aside s (put s l) := ⟨rfl, rfl⟩
  refine .ite ?_ ?_
  · have hover : Aside s (handOver (put s rest) w.ch bank w.loc).1 := (hput rest).trans (handOver_aside ..)
    exact .ite ((hover.inc ..).trans (dipTrigger_aside ..)) hover
  · clear_value m known
    cases known with
    | some e => exact hput _
    | none => exact .ite (hput _) (hput _)

theorem reportBeat_aside (s : State) (w : Where) (b : Beat) : Aside s (reportBeat s w b) := by
  unfold reportBeat
  split
  case h_1 => exact .refl s
  case h_2 =>
    have hlog : Aside s (dipLog (s.inc F.DIP_UE_UE_CNT 1 w.ch) (errRecord (s.inc F.DIP_UE_UE_CNT 1 w.ch) w b 0)) :=
      ((Aside.refl s).inc ..).trans (dipLog_aside ..)
    exact .ite hlog (hlog.raise ..)
  case h_3 ps =>
    extract_lets u due logged dip v x y
    have hu : Aside s u := (Aside.refl s).inc ..
    have hlogged : Aside s logged := hu.trans (dipLog_aside ..)
    have hv : Aside s v := .ite (hlogged.lastCe _) hu
    have hx : Aside s x := hv.trans (ceRate_aside ..)
    have hy : Aside s y := hx.trans (.ite (posHit_aside ..) (.refl x))
    exact .ite hv (.ite hx (hy.trans (trackRow_aside ..)))

theorem reportBeats_aside (s : State) (w : Where) (bs : List Beat) : Aside s (reportBeats s w bs) := .foldl (fun t b => reportBeat_aside t w b) s bs

theorem sliceFound_aside (sl set w h out req : Nat) (dom : Option Nat) (s : State) : Aside s (sliceFound sl set w h out req dom s) :=
  .ite (Aside.trans (t := (s.draws 17).2) ⟨rfl, rfl⟩ (reportBeats_aside ..)) (.refl s)

theorem arrayWord_aside (s : State) (ue : Bool) (src ch idx info req : Nat) (dom : Option Nat) : Aside s (arrayWord s ue src ch idx info req dom) := by
  unfold arrayWord
  extract_lets u key
  have hv : Aside s (u.draws 2).2 := ⟨rfl, rfl⟩
  generalize u.draws 2 = e at hv ⊢
  obtain ⟨vs, v⟩ := e
  have hlog (r : List Nat) : Aside s (dipLog v r) := hv.trans (dipLog_aside ..)
  exact .ite (hlog _) (.ite ((hlog _).lastCe _) hv)

theorem bufferWord_aside (s : State) (src out ch : Nat) (r : Req) (x : Sector) : Aside s (bufferWord s src out ch r x) := by
  unfold bufferWord
  refine .ite (.refl s) ?_
  have hu : Aside s s.draw.2 := ⟨rfl, rfl⟩
  generalize s.draw = e at hu ⊢
  obtain ⟨v, u⟩ := e
  have hx := hu.trans (arrayWord_aside u (out == 2) src ch (v % 2 ^ 15) (beatInfo x 0)
    (if r.iss = .host then (if r.op = .rd then 0 else 1) else 6) (if r.iss = .host then some r.p.dom else none))
  exact .ite (hx.raiseG ..) hx

/-! ### The read-modify-write unit's accesses -/

theorem doCol_aside (s : State) (ch b : Nat) (wr : Bool) : Aside s (doCol s ch b wr) := by
  unfold doCol
  extract_lets _ d x u endWr
  have hu : Aside s u := .ite (.refl s) ((Aside.refl s).inc ..)
  exact .ite (hu.trans ⟨rfl, rfl⟩) (hu.trans ⟨rfl, rfl⟩)

theorem burstWrite_aside (s : State) (ch c : Nat) (x : Sector) : Aside s (burstWrite s ch c x) := (doCol_aside ..).trans (dramWrite_aside ..)

theorem leaveList_aside (s : State) (ch c : Nat) : Aside s (leaveList s ch c) := by
  unfold leaveList
  split
  · exact .ite ((Aside.refl s).setLine ..) (.refl s)
  · exact .refl s

theorem readDram_aside (s : State) (ch ps req : Nat) (dom : Option Nat) (err : Nat → Nat) : Aside s (readDram s ch ps req dom err).1 :=
  reportBeats_aside ..

theorem rmwRead_aside (s : State) (ch c out : Nat) (dom : Option Nat) (err : Nat → Nat) (merge : Bool) :
    Aside s (rmwRead s ch c out dom err merge).1 := by
  unfold rmwRead
  extract_lets fromDram
  have hdram (t : State) : Aside t (fromDram t).1 := ((Aside.refl t).inc ..).trans (readDram_aside ..)
  split
  · exact (Aside.refl s).inc ..
  · split
    next x w _ _ =>
      extract_lets u hit dirty v
      have hu : Aside s u := sliceFound_aside ..
      have hhit : Aside s hit := hu.inc ..
      have hv : Aside s v := hu.trans (sliceDecode_aside ..)
      split
      · exact .ite (hhit.trans ⟨rfl, rfl⟩) hhit
      · split
        · exact hv.inc ..
        · split
          · exact hv.inc ..
          · exact hv.trans (hdram v)
    · exact hdram s

theorem rmwWrite_aside (s : State) (ch c : Nat) (way : Option Nat) (x : Sector) : Aside s (rmwWrite s ch c way x) := by
  unfold rmwWrite
  extract_lets miss
  have hmiss : Aside s (miss s) := ((burstWrite_aside ..).trans (leaveList_aside ..)).inc ..
  refine .ite (Aside.trans (t := victimWrite s ch c x) ⟨rfl, rfl⟩ ⟨rfl, rfl⟩) ?_
  split
  · extract_lets t
    have ht : Aside s t := ⟨rfl, rfl⟩
    exact .ite (.ite (ht.trans (burstWrite_aside ..)) ht) hmiss
  · exact hmiss

theorem rmwLeave_aside (s : State) (ch id : Nat) : Aside s (rmwLeave s ch id) := ⟨rfl, rfl⟩

/-! ### Counters of requests -/

theorem countPoison_aside (s : State) (ch : Nat) (c : Code) : Aside s (countPoison s ch c) := .ite ⟨rfl, rfl⟩ (.refl s)

theorem countBytes_aside (s : State) (r : Req) (a b : Nat) : Aside s (countBytes s r a b) := (countBytes_counted ..).aside

theorem noteMiss_aside (s : State) (r : Req) : Aside s (noteMiss s r) := .ite ⟨rfl, rfl⟩ (.refl s)

theorem sample_aside (s : State) (r : Req) : Aside s (sample s r) := by
  unfold sample
  extract_lets ns b x m u v
  have hv : Aside s v := ⟨rfl, rfl⟩
  refine hv.trans (.foldl (fun t w => ?_) v _)
  split
  · exact ⟨rfl, rfl⟩
  · exact .refl t

end Sys2Proof.Machine


/-! SUPPORT. What letting requests proceed (R110, R111) keeps of an entry of the buffer, whatever numbers the other entries have. -/

namespace Sys2Proof.Machine

/-! ### Entries by their number -/

theorem findReq_id {s : State} {i : Nat} {r : Req} (h : findReq s i = some r) : r.id = i := by
  simpa using List.find?_some h

/-- A look-up reads the buffer only. -/
theorem Aside.findReq {s t : State} (h : Aside s t) (i : Nat) : findReq t i = findReq s i := by
  simp only [Machine.findReq, h.1]

theorem Aside.setReq {s t : State} (h : Aside s t) (r : Req) : Aside (setReq s r) (setReq t r) := by
  obtain ⟨hrqe, hlink⟩ := h
  exact ⟨by simp only [Machine.setReq, hrqe], hlink⟩

/-- A replacement bears the number of what it replaces, so a look-up after it is the look-up before it, replaced. -/
theorem findReq_setReq (s : State) (i : Nat) (r' : Req) :
    findReq (setReq s r') i = (findReq s i).map fun q => if q.id = r'.id then r' else q := by
  have hid (q : Req) : (if q.id = r'.id then r' else q).id = q.id := by
    split
    next h => exact h.symm
    · rfl
  show (s.rqe.reqs.map fun q => if q.id = r'.id then r' else q).find? (fun q => q.id == i) = _
  rw [List.find?_map]
  exact congrArg (Option.map _ <| s.rqe.reqs.find? ·) (funext fun q => congrArg (· == i) (hid q))

/-- An entry that is replaced is found as it was put. -/
theorem findReq_setReq_same {s : State} {i : Nat} {r r' : Req} (h : findReq s i = some r) (hid : r'.id = i) : findReq (setReq s r') i = some r' := by
  rw [findReq_setReq, h, Option.map_some, if_pos ((findReq_id h).trans hid.symm)]

/-- Another entry is found as it was. -/
theorem findReq_setReq_ne {s : State} {i : Nat} {r' : Req} (hid : r'.id ≠ i) : findReq (setReq s r') i = findReq s i := by
  rw [findReq_setReq]
  cases h : findReq s i with
  | none => rfl
  | some q => rw [Option.map_some, if_neg fun heq => hid (heq.symm.trans (findReq_id h))]

/-- An entry that is not answered stays when the buffer is swept. -/
theorem findReq_sweep {s : State} {i : Nat} {r : Req} (h : findReq s i = some r) (hsent : r.sent = false) : findReq (sweep s) i = some r := by
  show (s.rqe.reqs.filter fun q => !(q.sent && q.pend.isEmpty && q.performed)).find? (fun q => q.id == i) = some r
  rw [List.find?_filter]
  obtain ⟨hp, as, bs, heq, has⟩ := List.find?_eq_some_iff_append.1 h
  refine List.find?_eq_some_iff_append.2 ⟨?_, as, bs, heq, fun q hq => ?_⟩
  · simpa [hsent] using hp
  · have hother := has q hq
    simp_all

/-! ### One request, and all of them, let proceed -/

/-- Request `r'` is `r` a step further: the same number, operation and answer, no work come back, a completion kept. -/
def Furthers (r r' : Req) : Prop :=
  r'.id = r.id ∧ r'.sent = r.sent ∧ (r.pend = [] → r'.pend = []) ∧ (r.cpl.isSome = true → r'.cpl.isSome = true)

/-- Nothing of the buffer changes, or one unperformed request is furthered. -/
def Proceeds (s t : State) : Prop :=
  Aside s t ∨ ∃ r r', findReq s r.id = some r ∧ r.performed = false ∧ Furthers r r' ∧ Aside (setReq s r') t

theorem markPerformed_aside (s : State) (r : Req) : Aside (setReq s { r with performed := true, visible := true }) (markPerformed s r) :=
  countBytes_aside ..

/-- A performed request proceeds. -/
theorem markPerformed_proceeds {s u : State} {r r' : Req} (hfind : findReq s r.id = some r) (hperf : r.performed = false) (hfur : Furthers r r')
    (hu : Aside s u) : Proceeds s (markPerformed u r') :=
  .inr ⟨r, { r' with performed := true, visible := true }, hfind, hperf, hfur, (hu.setReq _).trans (markPerformed_aside ..)⟩

theorem waitHazard_proceeds {s : State} {r : Req} (hfind : findReq s r.id = some r) (hperf : r.performed = false) : Proceeds s (waitHazard s r) := by
  unfold waitHazard
  split
  · exact .inl (.refl s)
  · exact .inr ⟨r, { r with hz := true }, hfind, hperf, ⟨rfl, rfl, id, id⟩, ((Aside.refl s).inc ..).setReq _⟩

theorem forward_proceeds {s : State} {r : Req} (hfind : findReq s r.id = some r) (hperf : r.performed = false) : Proceeds s (forward s r) := by
  unfold forward
  extract_lets got lost code codes r' u
  have hu : Aside s u := by
    refine .foldl (fun t x => ?_) s _
    split
    · exact .ite (.refl t) (countPoison_aside ..)
    · exact .refl t
  exact markPerformed_proceeds hfind hperf ⟨rfl, rfl, fun _ => rfl, fun _ => rfl⟩ (hu.inc ..)

theorem settleOne_proceeds (s : State) (i : Nat) : Proceeds s (settleOne s i) := by
  unfold settleOne
  split
  · exact .inl (.refl s)
  next r hget =>
    have hfind : findReq s r.id = some r := by rw [findReq_id hget, hget]
    have hself : Furthers r r := ⟨rfl, rfl, id, id⟩
    have hcpl (c : Cpl) : Furthers r { r with cpl := some c } := ⟨rfl, rfl, id, fun _ => rfl⟩
    split
    · exact .inl (.refl s)
    next hopen =>
      have hperf : r.performed = false := by
        cases h : r.performed
        · rfl
        · simp [h] at hopen
      split
      · exact markPerformed_proceeds hfind hperf hself (.refl s)
      · split
        · exact markPerformed_proceeds hfind hperf (hcpl _) (.refl s)
        · exact markPerformed_proceeds hfind hperf hself (.ite ((Aside.refl s).inc ..) (.refl s))
      · split
        · exact forward_proceeds hfind hperf
        · exact waitHazard_proceeds hfind hperf
      · exact .inl (.refl s)
      · exact .inl (.refl s)
      · split
        · exact markPerformed_proceeds hfind hperf (hcpl _) (.refl s)
        · exact .inl (.refl s)
      · exact waitHazard_proceeds hfind hperf

/-- A property of the buffer and the link that holds through furthering an unperformed request and through sweeping holds when order has been looked at. -/
theorem settle_keeps_of {P : State → Prop} {s : State} (hs : P s) (haside : ∀ t u, P t → Aside t u → P u)
    (hfurther : ∀ t r r', P t → findReq t r.id = some r → r.performed = false → Furthers r r' → P (setReq t r'))
    (hsweep : ∀ t, P t → P (sweep t)) : P (settle s) := by
  refine hsweep _ (List.foldlRecOn (motive := P) _ _ hs fun t ht i _ => ?_)
  rcases settleOne_proceeds t i with hsame | ⟨r, r', hfind, hperf, hfur, hset⟩
  · exact haside _ _ ht hsame
  · exact haside _ _ (hfurther t r r' ht hfind hperf hfur) hset

/-- The link, the rejections and the packets that wait stay. -/
def SameQueues (s t : State) : Prop := t.link = s.link ∧ t.rqe.rejQ = s.rqe.rejQ ∧ t.rqe.waiting = s.rqe.waiting

theorem SameQueues.refl (s : State) : SameQueues s s := ⟨rfl, rfl, rfl⟩

theorem SameQueues.trans {s t u : State} (h : SameQueues s t) (k : SameQueues t u) : SameQueues s u :=
  ⟨k.1.trans h.1, k.2.1.trans h.2.1, k.2.2.trans h.2.2⟩

theorem Aside.sameQueues {s t : State} (h : Aside s t) : SameQueues s t := ⟨h.2, by rw [h.1], by rw [h.1]⟩

theorem setReq_sameQueues (s : State) (r : Req) : SameQueues s (setReq s r) := ⟨rfl, rfl, rfl⟩

theorem sweep_sameQueues (s : State) : SameQueues s (sweep s) := ⟨rfl, rfl, rfl⟩

theorem settle_sameQueues (s : State) : SameQueues s (settle s) :=
  settle_keeps_of (P := SameQueues s) (.refl s) (fun _ _ ht hu => ht.trans hu.sameQueues) (fun t _ _ ht _ _ _ => ht.trans (setReq_sameQueues t _))
    fun t ht => ht.trans (sweep_sameQueues t)

/-- A performed request that is not answered stays as it is when order has been looked at. -/
theorem settle_keeps_performed {s : State} {i : Nat} {r : Req} (h : findReq s i = some r) (hperf : r.performed = true) (hsent : r.sent = false) :
    findReq (settle s) i = some r := by
  refine settle_keeps_of (P := fun t => findReq t i = some r) h (fun t u ht hu => (hu.findReq i).trans ht) ?_ fun t ht => findReq_sweep ht hsent
  intro t q q' ht hq hnot hfur
  have hne : q'.id ≠ i := by
    intro heq
    have hsame : q = r := Option.some.inj ((hq.symm.trans (by rw [← hfur.1, heq])).trans ht)
    rw [hsame, hperf] at hnot
    exact absurd hnot (by decide)
  rw [findReq_setReq_ne hne, ht]

/-- Entry `i` waits with nothing left to do and its completion due. -/
def DueWithoutWork (i : Nat) (s : State) : Prop := ∃ q, findReq s i = some q ∧ q.sent = false ∧ q.pend = [] ∧ q.cpl.isSome = true

theorem settle_keeps_due {s : State} {i : Nat} (h : DueWithoutWork i s) : DueWithoutWork i (settle s) := by
  refine settle_keeps_of (P := DueWithoutWork i) h ?_ ?_ ?_
  · rintro t u ⟨q, hq, hrest⟩ hu
    exact ⟨q, (hu.findReq i).trans hq, hrest⟩
  · rintro t r r' ⟨q, hq, hsent, hpend, hcpl⟩ hr - ⟨hid, hsame, hwork, hdue⟩
    by_cases heq : r'.id = i
    · have hrq : r = q := Option.some.inj ((hr.symm.trans (by rw [← hid, heq])).trans hq)
      subst hrq
      exact ⟨r', findReq_setReq_same hq heq, hsame.trans hsent, hwork hpend, hdue hcpl⟩
    · exact ⟨q, (findReq_setReq_ne heq).trans hq, hsent, hpend, hcpl⟩
  · rintro t ⟨q, hq, hsent, hrest⟩
    exact ⟨q, findReq_sweep hq hsent, hsent, hrest⟩

/-- Every entry that still bears number `i` is answered. -/
def AllSent (i : Nat) (s : State) : Prop := ∀ q ∈ s.rqe.reqs, q.id = i → q.sent = true

theorem Aside.allSent {s t : State} (h : Aside s t) {i : Nat} (hs : AllSent i s) : AllSent i t := by
  unfold AllSent
  rw [h.1]
  exact hs

theorem AllSent.sweep {s : State} {i : Nat} (h : AllSent i s) : AllSent i (sweep s) := fun q hq => h q (List.mem_filter.1 hq).1

/-- A request is replaced by an answered one, or by any of another number. -/
theorem AllSent.setReq {s : State} {i : Nat} {r : Req} (h : AllSent i s) (hr : r.id = i → r.sent = true) : AllSent i (setReq s r) := by
  intro q hq hid
  obtain ⟨p, hp, rfl⟩ := List.mem_map.1 hq
  split at hid
  next hsame => rw [if_pos hsame]; exact hr hid
  next hother => rw [if_neg hother]; exact h p hp hid

theorem settle_keeps_allSent {s : State} {i : Nat} (h : AllSent i s) : AllSent i (settle s) := by
  refine settle_keeps_of (P := AllSent i) h (fun t u ht hu => hu.allSent ht) ?_ fun t ht => ht.sweep
  rintro t r r' ht hfind - ⟨hid, hsent, -⟩
  refine ht.setReq fun hi => hsent.trans (ht r (List.mem_of_find?_eq_some hfind) (hid.symm.trans hi))

/-! ### No packet waits -/

/-- Where no packet waits, nobody is served. -/
theorem serveOrder_of_noneWaits {s : State} (h : NoneWaits s) : serveOrder s = [] := by
  have hnone : (((List.range 16).map fun k => (s.rqe.rot + k) % 16).filter fun g => !(SMap.getD s.rqe.waiting g []).isEmpty) = [] := by
    refine List.filter_eq_nil_iff.2 fun g hg => ?_
    obtain ⟨k, -, rfl⟩ := List.mem_map.1 hg
    simp [h _ (Nat.mod_lt _ (by decide))]
  simp only [serveOrder, hnone, List.foldl_nil]

theorem retake_of_noneWaits {s : State} (h : NoneWaits s) : retake s = s := by
  simp only [retake, serveOrder_of_noneWaits h, List.foldl_nil]

theorem NoneWaits.of_sameQueues {s t : State} (h : NoneWaits s) (hq : SameQueues s t) : NoneWaits t := fun g hg => by
  rw [hq.2.2]
  exact h g hg

end Sys2Proof.Machine


/-! SUPPORT. Performing an atomic or a merge, ending a range, and placing a completion (R98, R123, R128, R132, R194). -/

namespace Sys2Proof.Machine

/-! ### A request is performed and its completion is due -/

/-- A request of the buffer that is performed, whatever was done aside, is found performed when order has been looked at. -/
theorem settle_markPerformed {s u : State} {i : Nat} {r r' : Req} (hfind : findReq s i = some r) (hu : Aside s u) (hid : r'.id = r.id)
    (hsent : r'.sent = false) : findReq (settle (markPerformed u r')) i = some { r' with performed := true, visible := true } := by
  have hput : findReq (setReq u { r' with performed := true, visible := true }) i = some { r' with performed := true, visible := true } :=
    findReq_setReq_same ((hu.findReq i).trans hfind) (hid.trans (findReq_id hfind))
  exact settle_keeps_performed (((markPerformed_aside u r').findReq i).trans hput) rfl hsent

/-- What the unit leaves of an atomic that it has performed in state `s`. -/
def atomicEnd (s : State) (ch id : Nat) (r : Req) (st : Code) (old : Nat) : State :=
  settle (markPerformed (rmwLeave s ch id) { r with pend := [], cpl := some { status := st, old := old } })

/-- Entry `id` of `t` is an atomic that is performed, with its completion due. -/
def AtomicDone (t : State) (id : Nat) (st : Code) (old : Nat) : Prop :=
  ∃ q, findReq t id = some q ∧ q.performed = true ∧ q.pend = [] ∧ q.cpl = some { status := st, old := old }

theorem atomicEnd_done {s u : State} {id : Nat} {r : Req} (hfind : findReq s id = some r) (hsent : r.sent = false) (hu : Aside s u) (ch : Nat)
    (st : Code) (old : Nat) : AtomicDone (atomicEnd u ch id r st old) id st old :=
  ⟨_, settle_markPerformed hfind (hu.trans (rmwLeave_aside u ch id)) rfl hsent, rfl, rfl, rfl⟩

section

variable {s : State} {id : Nat} {r : Req} {ch c : Nat}

/-- An atomic whose operand is lost, or whose channel serves nothing, ends uncorrectable. -/
theorem atomicPerform_of_lost (out : Nat) (err : List Nat) (hfind : findReq s id = some r) (hatomic : isAtomic r.op = true)
    (hperf : r.performed = false) (hplace : place s (rmwSector r) = (ch, c)) (hready : rmwReady s ch id = true)
    (hlost : deadChannel s ch = true ∨ r.bad.contains (rmwSector r) = true) :
    atomicPerform id out err s = atomicEnd s ch id r .uncorrectable 0 := by
  have hopen : ¬ (!isAtomic r.op || r.performed || !rmwReady s ch id) = true := by simp [hatomic, hperf, hready]
  have hor : (deadChannel s ch || r.bad.contains (rmwSector r)) = true := by simpa using hlost
  unfold atomicPerform
  simp only [hfind, hplace, if_neg hopen, if_pos hor]
  rfl

/-- Otherwise the atomic ends by what the unit read, unless its write finds no slot. -/
theorem atomicPerform_of_read {out : Nat} {err : List Nat} {u : State} {x : Sector} {k : Code} {bs : List Beat} {way : Option Nat}
    (hfind : findReq s id = some r) (hatomic : isAtomic r.op = true) (hperf : r.performed = false) (hplace : place s (rmwSector r) = (ch, c))
    (hready : rmwReady s ch id = true) (hlive : deadChannel s ch = false) (hgood : r.bad.contains (rmwSector r) = false)
    (hfound : rmwMissed s ch c id = false)
    (hread : rmwRead s ch c out (if r.iss = .host then some r.p.dom else none) (fun b => err.getD b 0) false = (u, x, k, bs, way)) :
    atomicPerform id out err s =
      if k = .uncorrectable then atomicEnd u ch id r .uncorrectable 0
      else if bit x.md 0 then atomicEnd (countPoison u ch .poisoned) ch id r .poisoned 0
      else if !staysInSlice u ch c way && !writeSlot u ch c then s
      else
        let w := leAt x.data (8 * r.p.wsel) 8
        atomicEnd (rmwWrite u ch c way (putWord x (8 * r.p.wsel) (atomicNew r.op w r.p.opnd r.p.swapv))) ch id r (sectorCode u ch x k) w := by
  have hopen : ¬ (!isAtomic r.op || r.performed || !rmwReady s ch id) = true := by simp [hatomic, hperf, hready]
  have hkept : ¬ (deadChannel s ch || r.bad.contains (rmwSector r)) = true := by rw [hlive, hgood]; decide
  have hhere : ¬ rmwMissed s ch c id = true := by rw [hfound]; decide
  unfold atomicPerform
  simp only [hfind, hplace, if_neg hopen, if_neg hkept, if_neg hhere, hread, atomicEnd]

/-- What the unit leaves of a merge that it has written in state `s`. -/
def mergeEnd (s : State) (ch id : Nat) (r : Req) (st : Code) : State :=
  let r' : Req := { r with pend := [], cpl := some { status := st } }
  settle (countBytes (setReq (rmwLeave s ch id) r') r' 0 64)

/-- The entry of a merge is left with nothing to write and its completion due. -/
theorem mergeEnd_due {u : State} (hfind : findReq s id = some r) (hsent : r.sent = false) (hu : Aside s u) (st : Code) :
    DueWithoutWork id (mergeEnd u ch id r st) := by
  have hput : findReq (setReq (rmwLeave u ch id) { r with pend := [], cpl := some { status := st } }) id =
      some { r with pend := [], cpl := some { status := st } } :=
    findReq_setReq_same (r := r) (((hu.trans (rmwLeave_aside u ch id)).findReq id).trans hfind) (findReq_id (s := s) (r := r) hfind)
  exact settle_keeps_due ⟨_, ((countBytes_aside ..).findReq id).trans hput, hsent, rfl, rfl⟩

theorem mergePerform_of_dead (out : Nat) (err : List Nat) (hfind : findReq s id = some r) (hop : r.op = .wrp)
    (hplace : place s (rmwSector r) = (ch, c)) (hready : rmwReady s ch id = true) (hdead : deadChannel s ch = true) :
    mergePerform id out err s = mergeEnd s ch id r .uncorrectable := by
  have hopen : ¬ (r.op ≠ .wrp ∨ (!rmwReady s ch id) = true) := by simp [hop, hready]
  unfold mergePerform
  simp only [hfind, hplace, if_neg hopen, if_pos hdead]
  rfl

/-- A merge that finds its place ends with the write of its sector. -/
theorem mergePerform_of_read {out : Nat} {err : List Nat} {u : State} {x : Sector} {k : Code} {bs : List Beat} {way : Option Nat}
    (hfind : findReq s id = some r) (hop : r.op = .wrp) (hplace : place s (rmwSector r) = (ch, c)) (hready : rmwReady s ch id = true)
    (hlive : deadChannel s ch = false) (hfound : rmwMissed s ch c id = false)
    (hread : rmwRead s ch c out (if r.iss = .host then some r.p.dom else none) (fun b => err.getD b 0) true = (u, x, k, bs, way))
    (hroom : staysInSlice u ch c way = true ∨ writeSlot u ch c = true) :
    ∃ y st, mergePerform id out err s = mergeEnd (rmwWrite u ch c way y) ch id r st := by
  have hopen : ¬ (r.op ≠ .wrp ∨ (!rmwReady s ch id) = true) := by simp [hop, hready]
  have halive : ¬ deadChannel s ch = true := by rw [hlive]; decide
  have hhere : ¬ rmwMissed s ch c id = true := by rw [hfound]; decide
  have hslot : ¬ (!staysInSlice u ch c way && !writeSlot u ch c) = true := by
    rcases hroom with h | h <;> simp [h]
  unfold mergePerform
  simp only [hfind, hplace, if_neg hopen, if_neg halive, if_neg hhere, hread, if_neg hslot]
  exact ⟨_, _, rfl⟩

end

/-! ### The end of a range -/

section

variable {s : State} {id : Nat} {r : Req} (hfind : findReq s id = some r) (hop : r.op = .flush ∨ r.op = .zero) (hissued : r.issued = true)
  (hperf : r.performed = false)

include hfind hop hissued hperf

/-- A range whose work is all issued and done ends OK, or DEGRADED. -/
theorem rangeDone_of_done (htodo : r.todo = []) (htmo : r.tmo = none) (hat : rangeAt s id = []) :
    ∃ st, (st = .ok ∨ st = .degraded) ∧ rangeDone id s = settle (markPerformed s { r with pend := [], cpl := some { status := st } }) := by
  have hopen : ¬ (!(r.op == .flush || r.op == .zero) || !r.issued || r.performed || !r.todo.isEmpty) = true := by
    rcases hop with h | h <;> simp [h, hissued, hperf, htodo]
  have hnone : ¬ (!(rangeAt s id).isEmpty) = true := by simp [hat]
  refine ⟨_, ?_, by unfold rangeDone; simp only [hfind, if_neg hopen, htmo, if_neg hnone]; rfl⟩
  split
  · exact .inr rfl
  · exact .inl rfl

/-- After a hang of a channel a range ends with TIMEOUT once its work elsewhere has ended. -/
theorem rangeDone_of_hang {c : Nat} (htodo : r.todo = []) (htmo : r.tmo = some c) (hat : ∀ x ∈ rangeAt s id, x = c) :
    ∃ left, rangeDone id s = settle (setReq (s.inc F.DMC_HANG_STAT_TMO_CPL 1 c)
      { r with performed := true, pend := left, cpl := some { status := .timeout } }) := by
  have hopen : ¬ (!(r.op == .flush || r.op == .zero) || !r.issued || r.performed || !r.todo.isEmpty) = true := by
    rcases hop with h | h <;> simp [h, hissued, hperf, htodo]
  have hnone : ¬ ((rangeAt s id).any (· != c)) = true := by simpa using hat
  refine ⟨_, by unfold rangeDone; simp only [hfind, if_neg hopen, htmo, if_neg hnone]; rfl⟩

omit hop hissued hperf in
/-- A range with work left changes nothing. -/
theorem rangeDone_of_work (hwork : r.todo ≠ [] ∨ r.tmo = none ∧ rangeAt s id ≠ []) : rangeDone id s = s := by
  unfold rangeDone
  simp only [hfind]
  split
  · rfl
  next hopen =>
    rcases hwork with htodo | ⟨htmo, hat⟩
    · simp [htodo] at hopen
    · simp [htmo, hat]

end

/-! ### Completions leave -/

theorem placeVc1_rqe (s : State) (g : Nat) (p : List Byte) : (placeVc1 s g p).rqe = s.rqe := by
  obtain ⟨-, -, -, -, -, -, -, -, hrqe, -⟩ := (placePacket_reach { s with link.vc1Avail := s.link.vc1Avail - cellsOf p.length } g p).same
  exact hrqe

theorem placeVc1_vc1Avail (s : State) (g : Nat) (p : List Byte) : (placeVc1 s g p).link.vc1Avail = s.link.vc1Avail - cellsOf p.length := by
  obtain ⟨-, -, -, -, -, -, -, -, hvc1, -⟩ := (placePacket_reach { s with link.vc1Avail := s.link.vc1Avail - cellsOf p.length } g p).link
  exact hvc1

/-- A completion is marked sent after what is counted aside. -/
theorem markSent_eq (s : State) (r : Req) : ∃ u, Aside s u ∧ markSent s r = sweep (setReq u { r with sent := true }) := by
  unfold markSent
  extract_lets timed v w
  have hv : Aside s v := .ite (.ite (.refl s) (sample_aside ..)) (.refl s)
  exact ⟨w, hv.trans (.ite (.refl v) (noteMiss_aside ..)), rfl⟩

theorem markSent_sameQueues (s : State) (r : Req) : SameQueues s (markSent s r) := by
  obtain ⟨u, hu, heq⟩ := markSent_eq s r
  rw [heq]
  exact (hu.sameQueues.trans (setReq_sameQueues ..)).trans (sweep_sameQueues _)

theorem markSent_allSent (s : State) (r : Req) : AllSent r.id (markSent s r) := by
  obtain ⟨u, -, heq⟩ := markSent_eq s r
  rw [heq]
  refine AllSent.sweep fun q hq hid => ?_
  obtain ⟨p, -, rfl⟩ := List.mem_map.1 hq
  split at hid
  next hsame => rw [if_pos hsame]
  next hother => exact absurd hid hother

theorem AllSent.markSent {s : State} {i : Nat} (h : AllSent i s) (r : Req) : AllSent i (markSent s r) := by
  obtain ⟨u, hu, heq⟩ := markSent_eq s r
  rw [heq]
  exact ((hu.allSent h).setReq fun _ => rfl).sweep

theorem foldl_markSent_sameQueues (s : State) (l : List Req) : SameQueues s (l.foldl markSent s) :=
  List.foldlRecOn (motive := SameQueues s) l markSent (.refl s) fun t ht r _ => ht.trans (markSent_sameQueues t r)

/-- Every entry of a group is answered once the group is. -/
theorem foldl_markSent_allSent {l : List Req} {p : Req} (hp : p ∈ l) (s : State) : AllSent p.id (l.foldl markSent s) := by
  induction l generalizing s with
  | nil => exact absurd hp List.not_mem_nil
  | cons r rest ih =>
    rcases List.mem_cons.1 hp with rfl | hrest
    · exact List.foldlRecOn (motive := AllSent p.id) rest markSent (markSent_allSent s p) fun t ht q _ => ht.markSent q
    · exact ih hrest _

/-- What is retaken after a completion was placed: nothing, where no packet waits. -/
theorem retake_settle {s t : State} (hnone : NoneWaits s) (hwait : t.rqe.waiting = s.rqe.waiting) : retake (settle t) = settle t := by
  refine retake_of_noneWaits fun g hg => ?_
  rw [(settle_sameQueues t).2.2, hwait]
  exact hnone g hg

theorem fromBuffer_aside (s : State) (r : Req) (c : Cpl) (outs : List Nat) : Aside s (fromBuffer s r c outs).1 := by
  unfold fromBuffer
  split
  · exact .refl s
  · exact .foldl (fun t e => bufferWord_aside ..) s _

/-- A buffer that loses no word gives the completion as it stands. -/
theorem fromBuffer_cpl (s : State) (r : Req) (c : Cpl) {outs : List Nat} (h : r.op = .rd → ∀ k, outs.getD k 0 ≠ 2) :
    (fromBuffer s r c outs).2 = c := by
  unfold fromBuffer
  split
  · rfl
  next hop =>
    have hgood := h (not_not.1 hop)
    have hany : (c.sects.zipIdx.any fun e => outs.getD e.2 0 == 2) = false := by simp only [beq_eq_false_iff_ne.2 (hgood _), List.any_eq_false]; simp
    have hsects : (c.sects.zipIdx.map fun e => if outs.getD e.2 0 = 2 then poisoned0 else e.1) = c.sects := by
      simp only [if_neg (hgood _)]
      exact List.zipIdx_map_fst ..
    simp only [hany, hsects]
    rfl

end Sys2Proof.Machine


/-! SUPPORT. The clauses of O31: what each of its instructions leaves. -/

namespace Sys2Proof.Machine

/-! ### COMPLETION_PLACE -/

section

variable {s : State} {g n : Nat} {form : CplForm}

/-- A rejection leaves on its own. -/
theorem completionPlace_of_rejection (hn : n < s.rqe.rejQ.length) :
    completionPlace g n form s =
      if vc1Room s g (s.rqe.rejQ.getD n []) then
        retake (placeVc1 { s with rqe.rejQ := s.rqe.rejQ.eraseIdx n } g (s.rqe.rejQ.getD n []))
      else s := by
  unfold completionPlace
  exact if_pos hn

variable {r : Req} {c : Cpl} (hn : s.rqe.rejQ.length ≤ n) (hready : (readyReqs s)[n - s.rqe.rejQ.length]? = some r)
  (hprior : r.prior = false) (hcpl : r.cpl = some c)

include hn hready hprior hcpl

/-- A WACK leaves with the completed writes of the domain. -/
theorem completionPlace_of_group (hform : form = .wack) (hop : r.op = .wr) (hok : c.status = .ok) :
    completionPlace g n form s =
      if vc1Room s g (wackBytes r.p.dom ((wackGroup s r).map (·.p.tag))) then
        retake (settle ((wackGroup s r).foldl markSent (placeVc1 s g (wackBytes r.p.dom ((wackGroup s r).map (·.p.tag))))))
      else s := by
  have hrej : ¬ n < s.rqe.rejQ.length := Nat.not_lt.2 hn
  have hlast : ¬ r.prior = true := by rw [hprior]; decide
  have hshare : (form == .wack && r.op == .wr && c.status == .ok) = true := by simp [hform, hop, hok]
  unfold completionPlace
  simp only [if_neg hrej, hready, if_neg hlast, hcpl, if_pos hshare]

/-- Any other completion leaves alone, as its buffer gives it. -/
theorem completionPlace_of_alone (halone : form ≠ .wack ∨ r.op ≠ .wr ∨ c.status ≠ .ok) :
    completionPlace g n form s =
      if vc1Room s g (completionBytes r c) then
        retake (settle (markSent (placeVc1 (fromBuffer s r c (bufferFindings form)).1 g
          (completionBytes r (fromBuffer s r c (bufferFindings form)).2)) r))
      else s := by
  have hrej : ¬ n < s.rqe.rejQ.length := Nat.not_lt.2 hn
  have hlast : ¬ r.prior = true := by rw [hprior]; decide
  have hshare : ¬ (form == .wack && r.op == .wr && c.status == .ok) = true := by
    rcases halone with h | h | h <;> simp [h]
  unfold completionPlace
  simp only [if_neg hrej, hready, if_neg hlast, hcpl, if_neg hshare]

end

/-- A rejection that finds room leaves the queue and spends its cells. -/
theorem rejection_leaves {s : State} (hnone : NoneWaits s) (g n : Nat) (p : List Byte) :
    let t := retake (placeVc1 { s with rqe.rejQ := s.rqe.rejQ.eraseIdx n } g p)
    t.rqe.rejQ = s.rqe.rejQ.eraseIdx n ∧ t.link.vc1Avail = s.link.vc1Avail - cellsOf p.length := by
  have hrqe := placeVc1_rqe { s with rqe.rejQ := s.rqe.rejQ.eraseIdx n } g p
  have hwait : NoneWaits (placeVc1 { s with rqe.rejQ := s.rqe.rejQ.eraseIdx n } g p) := fun k hk => by
    rw [hrqe]
    exact hnone k hk
  rw [retake_of_noneWaits hwait]
  exact ⟨congrArg Rqe.rejQ hrqe, placeVc1_vc1Avail ..⟩

/-- Answered entries stay answered, and the cells that a packet spent stay spent, once no packet waits. -/
theorem placed_leaves {s u t : State} (hnone : NoneWaits s) (hu : Aside s u) (g : Nat) (p : List Byte) (hq : SameQueues (placeVc1 u g p) t) :
    (∀ i, AllSent i t → AllSent i (retake (settle t))) ∧
    (retake (settle t)).link.vc1Avail = s.link.vc1Avail - cellsOf p.length := by
  have hwait : t.rqe.waiting = s.rqe.waiting := by rw [hq.2.2, placeVc1_rqe, hu.1]
  rw [retake_settle hnone hwait]
  refine ⟨fun i hi => settle_keeps_allSent hi, ?_⟩
  rw [(settle_sameQueues t).1, hq.1, placeVc1_vc1Avail, hu.2]

/-! ### Atomics, merges and ranges -/

/-- An atomic whose sector is read, and whose write finds its place, is performed; where the sector is good its old word is the answer. -/
theorem atomicPerform_done {s : State} {id : Nat} {r : Req} {ch c out : Nat} {err : List Nat} {u : State} {x : Sector} {k : Code} {bs : List Beat}
    {way : Option Nat} (hfind : findReq s id = some r) (hatomic : isAtomic r.op = true) (hperf : r.performed = false) (hsent : r.sent = false)
    (hplace : place s (rmwSector r) = (ch, c)) (hready : rmwReady s ch id = true) (hlive : deadChannel s ch = false)
    (hgood : r.bad.contains (rmwSector r) = false) (hfound : rmwMissed s ch c id = false)
    (hread : rmwRead s ch c out (if r.iss = .host then some r.p.dom else none) (fun b => err.getD b 0) false = (u, x, k, bs, way))
    (hroom : staysInSlice u ch c way = true ∨ writeSlot u ch c = true) :
    ∃ st old, AtomicDone (atomicPerform id out err s) id st old ∧
      (k ≠ .uncorrectable → bit x.md 0 = false → old = leAt x.data (8 * r.p.wsel) 8) := by
  have hu : Aside s u := by
    have h := rmwRead_aside s ch c out (if r.iss = .host then some r.p.dom else none) (fun b => err.getD b 0) false
    rwa [hread] at h
  have hslot : ¬ (!staysInSlice u ch c way && !writeSlot u ch c) = true := by
    rcases hroom with h | h <;> simp [h]
  rw [atomicPerform_of_read hfind hatomic hperf hplace hready hlive hgood hfound hread]
  by_cases hk : k = .uncorrectable
  · rw [if_pos hk]
    exact ⟨_, _, atomicEnd_done hfind hsent hu .., fun hne => absurd hk hne⟩
  · rw [if_neg hk]
    by_cases hmd : bit x.md 0 = true
    · rw [if_pos hmd]
      exact ⟨_, _, atomicEnd_done hfind hsent (hu.trans (countPoison_aside ..)) .., fun _ hclean => by rw [hmd] at hclean; cases hclean⟩
    · rw [if_neg hmd, if_neg hslot]
      exact ⟨_, _, atomicEnd_done hfind hsent (hu.trans (rmwWrite_aside ..)) .., fun _ _ => rfl⟩

/-- A merge whose channel serves nothing, or that finds its place, leaves its entry with its completion due. -/
theorem mergePerform_due {s : State} {id : Nat} {r : Req} {ch c out : Nat} {err : List Nat} (hfind : findReq s id = some r) (hop : r.op = .wrp)
    (hsent : r.sent = false) (hplace : place s (rmwSector r) = (ch, c)) (hready : rmwReady s ch id = true)
    (hcase : deadChannel s ch = true ∨ rmwMissed s ch c id = false ∧ ∀ u x k bs way,
      rmwRead s ch c out (if r.iss = .host then some r.p.dom else none) (fun b => err.getD b 0) true = (u, x, k, bs, way) →
        (staysInSlice u ch c way = true ∨ writeSlot u ch c = true)) :
    DueWithoutWork id (mergePerform id out err s) := by
  cases hlive : deadChannel s ch with
  | true =>
    rw [mergePerform_of_dead out err hfind hop hplace hready hlive]
    exact mergeEnd_due hfind hsent (.refl s) _
  | false =>
    obtain ⟨hfound, hroom⟩ := hcase.resolve_left (by rw [hlive]; decide)
    obtain ⟨y, st, hend⟩ := mergePerform_of_read hfind hop hplace hready hlive hfound rfl (hroom _ _ _ _ _ rfl)
    rw [hend]
    exact mergeEnd_due hfind hsent ((rmwRead_aside ..).trans (rmwWrite_aside ..)) st

/-- R92's table, word by word. -/
theorem atomicNew_table (w opnd swapv : Nat) :
    atomicNew .afadd w opnd swapv = (w + opnd) % 2 ^ 64 ∧ atomicNew .aswap w opnd swapv = opnd ∧ atomicNew .acas w w swapv = swapv ∧
    (w ≠ opnd → atomicNew .acas w opnd swapv = w) ∧
    ∀ k, (atomicNew .aand w opnd swapv).testBit k = (w.testBit k && opnd.testBit k) ∧
      (atomicNew .aor w opnd swapv).testBit k = (w.testBit k || opnd.testBit k) :=
  ⟨rfl, rfl, if_pos rfl, fun h => if_neg h, fun k => ⟨Nat.testBit_and w opnd k, Nat.testBit_or w opnd k⟩⟩

/-! ### O31 -/

theorem exec_completionPlace (g : Fin 16) (n : Nat) (form : CplForm) (s : State) :
    exec (.completionPlace g n form) s = .next (completionPlace g.val n form s) := rfl

theorem exec_atomicPerform (id : Nat) (out : Fin 3) (err : List Nat) (s : State) :
    exec (.atomicPerform id out err) s = .next (atomicPerform id out.val err s) := rfl

theorem exec_mergePerform (id : Nat) (out : Fin 3) (err : List Nat) (s : State) :
    exec (.mergePerform id out err) s = .next (mergePerform id out.val err s) := rfl

theorem exec_rangeWorkDone (id : Nat) (s : State) : exec (.rangeWorkDone id) s = .next (rangeDone id s) := rfl

/-- Settles O31: each instruction ends in order being looked at again, which keeps an entry that is performed or due, and an answer that was given. -/
theorem completionsArePlacedAndMemoryAnswers : Obligations.CompletionsArePlacedAndMemoryAnswers := by
  unfold Obligations.CompletionsArePlacedAndMemoryAnswers
  refine ⟨fun s g n form hnone => ⟨fun hn => ?_, fun r c hn hready hprior hcpl halone => ?_, fun r c hn hready hprior hcpl hform hop hok => ?_⟩,
    fun s id out err r hfind hatomic hperf hsent hready => ⟨fun hlost => ?_, fun hlive hgood hfound u x k bs way hread => ⟨fun hroom => ?_, ?_⟩⟩,
    fun s id out err r hfind hop hsent hready hcase => ?_,
    fun s id r hfind hop hissued hperf hsent => ⟨fun htodo htmo hat => ?_, fun ch htodo htmo hat => ?_, fun hwork => ?_⟩, atomicNew_table⟩
  · rw [exec_completionPlace, completionPlace_of_rejection hn]
    refine ⟨fun hroom => ?_, fun hfull => by rw [if_neg (by rw [hfull]; decide)]⟩
    rw [if_pos hroom]
    exact ⟨_, rfl, rejection_leaves hnone ..⟩
  · rw [exec_completionPlace, completionPlace_of_alone hn hready hprior hcpl halone]
    refine ⟨fun hroom => ?_, fun hfull => by rw [if_neg (by rw [hfull]; decide)]⟩
    rw [if_pos hroom]
    obtain ⟨hanswered, hcells⟩ := placed_leaves hnone (fromBuffer_aside s r c (bufferFindings form)) g.val
      (completionBytes r (fromBuffer s r c (bufferFindings form)).2) (markSent_sameQueues _ r)
    refine ⟨_, rfl, hanswered r.id (markSent_allSent _ r), fun hgood => ?_⟩
    rw [hcells, fromBuffer_cpl s r c hgood]
  · rw [exec_completionPlace, completionPlace_of_group hn hready hprior hcpl hform hop hok]
    refine ⟨fun hroom => ?_, fun hfull => by rw [if_neg (by rw [hfull]; decide)]⟩
    rw [if_pos hroom]
    obtain ⟨hanswered, hcells⟩ := placed_leaves hnone (.refl s) g.val (wackBytes r.p.dom ((wackGroup s r).map (·.p.tag)))
      (foldl_markSent_sameQueues _ (wackGroup s r))
    exact ⟨_, rfl, fun p hp => hanswered p.id (foldl_markSent_allSent hp _), hcells⟩
  · rw [exec_atomicPerform, atomicPerform_of_lost out.val err hfind hatomic hperf Prod.mk.eta.symm hready hlost]
    obtain ⟨q, hdone⟩ := atomicEnd_done hfind hsent (.refl s) (place s (rmwSector r)).1 .uncorrectable 0
    exact ⟨_, q, rfl, hdone⟩
  · obtain ⟨st, old, ⟨q, hq, hperformed, hpend, hcpl⟩, hold⟩ :=
      atomicPerform_done hfind hatomic hperf hsent Prod.mk.eta.symm hready hlive hgood hfound hread hroom
    exact ⟨_, q, _, exec_atomicPerform .., hq, hperformed, hpend, hcpl, hold⟩
  · intro hk hmd hstays hslot
    have hclean : ¬ bit x.md 0 = true := by rw [hmd]; decide
    rw [exec_atomicPerform, atomicPerform_of_read hfind hatomic hperf Prod.mk.eta.symm hready hlive hgood hfound hread, if_neg hk, if_neg hclean,
      if_pos (by rw [hstays, hslot]; decide)]
  · obtain ⟨q, hq, -, hpend, hcpl⟩ : DueWithoutWork id (mergePerform id out.val err s) :=
      mergePerform_due hfind hop hsent Prod.mk.eta.symm hready hcase
    exact ⟨_, q, exec_mergePerform .., hq, hpend, hcpl⟩
  · obtain ⟨st, hst, hdone⟩ := rangeDone_of_done hfind hop hissued hperf htodo htmo hat
    rw [exec_rangeWorkDone, hdone]
    exact ⟨_, _, _, rfl, settle_markPerformed hfind (.refl s) rfl hsent, rfl, rfl, hst⟩
  · obtain ⟨left, hdone⟩ := rangeDone_of_hang hfind hop hissued hperf htodo htmo hat
    rw [exec_rangeWorkDone, hdone]
    exact ⟨_, _, _, rfl, settle_keeps_performed (findReq_setReq_same (r := r) hfind (findReq_id (s := s) (r := r) hfind)) rfl hsent, rfl, rfl, rfl⟩
  · rw [exec_rangeWorkDone, rangeDone_of_work hfind hwork]

end Sys2Proof.Machine

/-! SUPPORT. The channel hash (R120): the bits of its masks, the parity of an address under a mask, and why no two device addresses share a place. -/

namespace Sys2Proof.Machine

/-! ## Single bits -/

theorem bit_eq_testBit (v n : Nat) : bit v n = v.testBit n := by
  rw [Nat.testBit_eq_decide_div_mod_eq]
  rfl

theorem bit_eq_bits (v n : Nat) : bit v n = (bits v n 1 == 1) := rfl

/-- Setting one bit is setting a field of one bit. -/
theorem setBit_eq_setBits (v n : Nat) : setBit v n = setBits v n 1 1 := by
  have hlow : v % 2 ^ n + 2 ^ n * (v / 2 ^ n) = v := Nat.mod_add_div ..
  have hhalf : v / 2 ^ (n + 1) = v / 2 ^ n / 2 := by rw [pow_succ, Nat.div_div_eq_div_mul]
  have hmiddle : 2 ^ n * (v / 2 ^ n) = 2 ^ n * (v / 2 ^ n % 2) + v / 2 ^ n / 2 * 2 ^ (n + 1) := by
    conv_lhs => rw [← Nat.mod_add_div (v / 2 ^ n) 2]
    ring
  rw [setBits, hhalf, setBit, bit]
  rcases Nat.mod_two_eq_zero_or_one (v / 2 ^ n) with h | h
  · rw [h] at hmiddle ⊢
    rw [if_neg (by decide)]
    omega
  · rw [h] at hmiddle ⊢
    rw [if_pos (by decide)]
    omega

theorem bit_setBit (v n k : Nat) : bit (setBit v n) k = (k == n || bit v k) := by
  rw [setBit_eq_setBits, bit_eq_bits]
  by_cases h : k = n
  · rw [h, bits_setBits_same, beq_self_eq_true, Bool.true_or]
    rfl
  · rw [bits_setBits_apart v 1 (by omega), beq_false_of_ne h, Bool.false_or, bit_eq_bits]

/-- The bits of a mask are the listed positions. -/
theorem bit_maskOf (l : List Nat) (k : Nat) : bit (maskOf l) k = l.contains k := by
  have hfold (v : Nat) : bit (l.foldl setBit v) k = (bit v k || l.contains k) := by
    induction l generalizing v with
    | nil => simp
    | cons n r ih => rw [List.foldl_cons, ih, bit_setBit, List.contains_cons, Bool.or_comm (k == n), Bool.or_assoc]
  rw [maskOf, hfold, bit_eq_testBit, Nat.zero_testBit, Bool.false_or]

theorem bit_pow (n k : Nat) : bit (2 ^ n) k = (k == n) := by
  rw [bit_eq_testBit, Nat.testBit_two_pow]
  by_cases h : n = k
  · simp [h]
  · simp [h, Ne.symm h]

/-! ## Parity -/

theorem popCount_succ (v w : Nat) : popCount v (w + 1) = popCount v w + b2n (bit v w) := by
  rw [popCount, onesOf, List.range_succ, List.filter_append, List.length_append, List.filter_singleton]
  cases bit v w <;> rfl

theorem popCount_congr {v u w : Nat} (h : ∀ k, k < w → bit v k = bit u k) : popCount v w = popCount u w := by
  unfold popCount onesOf
  rw [List.filter_congr fun k hk => h k (List.mem_range.1 hk)]

/-- Two numbers that differ in one bit alone differ in parity. -/
theorem popCount_differ {v u n w : Nat} (hsame : ∀ k, k ≠ n → bit v k = bit u k) (hdiff : bit v n ≠ bit u n) (hn : n < w) :
    popCount v w % 2 ≠ popCount u w % 2 := by
  induction w with
  | zero => exact absurd hn (Nat.not_lt_zero n)
  | succ w ih =>
    rw [popCount_succ, popCount_succ]
    by_cases hw : n = w
    · rw [← hw, popCount_congr fun k hk => hsame k hk.ne]
      revert hdiff
      cases bit v n <;> cases bit u n <;> simp [b2n] <;> omega
    · rw [hsame w (Ne.symm hw)]
      have hrest := ih (by omega)
      omega

/-! ## The map -/

/-- R120's condition: of the five bits from `L`, mask `i` has bit `L` + `i` alone. -/
def MasksMeet (s : State) : Prop := ∀ i, i < 5 → ∀ j, j < 5 → bit (hashMask s i) (hashL s + j) = (i == j)

/-- The parity of an address under mask `i`. -/
def hashBit (s : State) (d i : Nat) : Nat := popCount (Nat.land d (hashMask s i)) 37 % 2

theorem hashBit_lt (s : State) (d i : Nat) : hashBit s d i < 2 := Nat.mod_lt _ (by decide)

theorem mapDev_channel (s : State) (d : Nat) :
    (mapDev s d).1 = hashBit s d 0 + hashBit s d 1 * 2 + hashBit s d 2 * 4 + hashBit s d 3 * 8 + hashBit s d 4 * 16 := by
  show (List.range 5).foldl (fun c i => c + hashBit s d i * 2 ^ i) 0 = _
  simp [List.range_succ]

theorem mapDev_address (s : State) (d : Nat) : (mapDev s d).2 = d / 2 ^ (hashL s + 5) * 2 ^ hashL s + d % 2 ^ hashL s := rfl

theorem mapDev_channel_lt (s : State) (d : Nat) : (mapDev s d).1 < 32 := by
  have h (i : Nat) := hashBit_lt s d i
  rw [mapDev_channel]
  linarith only [h 0, h 1, h 2, h 3, h 4]

/-- Bit `i` of the channel is the parity under mask `i`. -/
theorem mapDev_channel_bit (s : State) (d : Nat) {i : Nat} (hi : i < 5) : bit (mapDev s d).1 i = (hashBit s d i == 1) := by
  have h0 := hashBit_lt s d 0
  have h1 := hashBit_lt s d 1
  have h2 := hashBit_lt s d 2
  have h3 := hashBit_lt s d 3
  have h4 := hashBit_lt s d 4
  have key : (mapDev s d).1 / 2 ^ i % 2 = hashBit s d i := by
    rw [mapDev_channel]
    interval_cases i <;> omega
  rw [bit, key]

/-- The channel address keeps the bits from `L` + 5 above and those below `L`. -/
theorem mapDev_address_parts (s : State) (d : Nat) :
    (mapDev s d).2 / 2 ^ hashL s = d / 2 ^ (hashL s + 5) ∧ (mapDev s d).2 % 2 ^ hashL s = d % 2 ^ hashL s := by
  have hlow : d % 2 ^ hashL s < 2 ^ hashL s := Nat.mod_lt _ (Nat.two_pow_pos _)
  rw [mapDev_address, Nat.mul_comm, Nat.mul_add_div (Nat.two_pow_pos _), Nat.div_eq_of_lt hlow, Nat.mul_add_mod, Nat.mod_mod]
  exact ⟨rfl, rfl⟩

/-- Two addresses with one channel address agree outside the five bits from `L`. -/
theorem bit_of_mapDev_address {s : State} {d e k : Nat} (h : (mapDev s d).2 = (mapDev s e).2) (hk : k < hashL s ∨ hashL s + 5 ≤ k) :
    bit d k = bit e k := by
  obtain ⟨hhigh, hlow⟩ := mapDev_address_parts s d
  obtain ⟨hhigh', hlow'⟩ := mapDev_address_parts s e
  rw [h] at hhigh hlow
  simp only [bit_eq_testBit]
  rcases hk with hk | hk
  · have htest := congrArg (Nat.testBit · k) (hlow.symm.trans hlow')
    simpa [Nat.testBit_mod_two_pow, hk] using htest
  · have htest := congrArg (Nat.testBit · (k - (hashL s + 5))) (hhigh.symm.trans hhigh')
    simpa only [Nat.testBit_div_two_pow, Nat.sub_add_cancel hk] using htest

/-- R120's argument: with everything else equal, bit `L` + `i` decides the parity under mask `i`, hence bit `i` of the channel. -/
theorem mapDev_injective {s : State} (hmasks : MasksMeet s) {d e : Nat} (hd : d < 2 ^ 37) (he : e < 2 ^ 37) (h : mapDev s d = mapDev s e) : d = e := by
  have hout {k : Nat} (hk : k < hashL s ∨ hashL s + 5 ≤ k) : bit d k = bit e k := bit_of_mapDev_address (congrArg Prod.snd h) hk
  have hin {i : Nat} (hi : i < 5) : bit d (hashL s + i) = bit e (hashL s + i) := by
    by_contra hdiff
    have hplace : hashL s + i < 37 := by
      by_contra hhigh
      have hpow : 2 ^ 37 ≤ 2 ^ (hashL s + i) := Nat.pow_le_pow_right (by decide) (Nat.not_lt.1 hhigh)
      refine hdiff ?_
      rw [bit_eq_testBit, bit_eq_testBit, Nat.testBit_lt_two_pow (hd.trans_le hpow), Nat.testBit_lt_two_pow (he.trans_le hpow)]
    have hland (x k : Nat) : bit (Nat.land x (hashMask s i)) k = (bit x k && bit (hashMask s i) k) := by
      simp only [bit_eq_testBit]
      exact Nat.testBit_and ..
    refine popCount_differ (v := Nat.land d (hashMask s i)) (u := Nat.land e (hashMask s i)) ?_ ?_ hplace ?_
    · intro k hk
      rw [hland, hland]
      by_cases hwin : k < hashL s ∨ hashL s + 5 ≤ k
      · rw [hout hwin]
      · have hzero := hmasks i hi (k - hashL s) (by omega)
        rw [Nat.add_sub_cancel' (by omega), beq_false_of_ne (by omega)] at hzero
        rw [hzero, Bool.and_false, Bool.and_false]
    · have hone := hmasks i hi i hi
      rw [beq_self_eq_true] at hone
      rwa [hland, hland, hone, Bool.and_true, Bool.and_true]
    · have hbit : (hashBit s d i == 1) = (hashBit s e i == 1) := by
        rw [← mapDev_channel_bit s d hi, ← mapDev_channel_bit s e hi, h]
      have hd2 := hashBit_lt s d i
      have he2 := hashBit_lt s e i
      show hashBit s d i = hashBit s e i
      rw [Bool.eq_iff_iff, beq_iff_eq, beq_iff_eq] at hbit
      omega
  refine Nat.eq_of_testBit_eq fun k => ?_
  rw [← bit_eq_testBit, ← bit_eq_testBit]
  by_cases hwin : k < hashL s ∨ hashL s + 5 ≤ k
  · exact hout hwin
  · have hbit := hin (i := k - hashL s) (by omega)
    rwa [Nat.add_sub_cancel' (by omega)] at hbit

/-! ## The four settings of HASH_SEL -/

theorem hash_fold256 {s : State} (h : s.rd F.RQE_CTL_HASH_SEL = 0) :
    hashL s = 8 ∧ ∀ i, hashMask s i = maskOf [8 + i, 13 + i, 18 + i, 23 + i, 28 + i] := by
  simp [hashL, hashMask, h]

theorem hash_fold4k {s : State} (h : s.rd F.RQE_CTL_HASH_SEL = 1) : hashL s = 12 ∧ ∀ i, hashMask s i = maskOf [12 + i, 17 + i, 22 + i, 27 + i] := by
  simp [hashL, hashMask, h]

theorem hash_plain {s : State} (h : s.rd F.RQE_CTL_HASH_SEL = 2) : hashL s = 8 ∧ ∀ i, hashMask s i = 2 ^ (8 + i) := by
  simp [hashL, hashMask, h]

theorem hash_custom {s : State} (h : s.rd F.RQE_CTL_HASH_SEL = 3) :
    hashL s = s.rd F.RQE_CTL_CH_LSB ∧ ∀ i, hashMask s i = s.rd F.RQE_HASH_MASK_MASK i * 256 := by
  simp [hashL, hashMask, h]

/-- A number whose low eight bits are zero is a multiple of 256. -/
theorem mod_256_of_bits {v : Nat} (h : ∀ k, k < 8 → bit v k = false) : v % 256 = 0 := by
  refine Nat.eq_of_testBit_eq fun k => ?_
  rw [show 256 = 2 ^ 8 from rfl, Nat.testBit_mod_two_pow, Nat.zero_testBit, Bool.and_eq_false_imp]
  intro hk
  rw [← bit_eq_testBit, h k (of_decide_eq_true hk)]

/-- What the check of CUSTOM masks (R120, R122) says of each bit. -/
theorem masksLegal_bit {l : Nat} {mask : Nat → Nat} (h : masksLegal l mask = true) {i j : Nat} (hi : i < 5) (hj : j < 5) :
    bit (mask i * 256) (l + j) = (i == j) :=
  eq_of_beq (List.all_eq_true.1 (List.all_eq_true.1 h i (List.mem_range.2 hi)) j (List.mem_range.2 hj))

/-- One mask for all five channel bits never meets R120's condition. -/
theorem masksLegal_one_mask (l n : Nat) : masksLegal l (fun _ => n) = false := by
  by_contra h
  have hlegal : masksLegal l (fun _ => n) = true := by simpa using h
  have hone := masksLegal_bit hlegal (i := 0) (j := 0) (by decide) (by decide)
  have hzero := masksLegal_bit hlegal (i := 1) (j := 0) (by decide) (by decide)
  exact absurd (hone.symm.trans hzero) (by decide)

/-- A setting of HASH_SEL with R120's condition on CUSTOM masks, each mask taken from its own register. -/
def HashLegal (s : State) : Prop :=
  s.rd F.RQE_CTL_HASH_SEL < 3 ∨
    s.rd F.RQE_CTL_HASH_SEL = 3 ∧ masksLegal (s.rd F.RQE_CTL_CH_LSB) (fun i => s.rd F.RQE_HASH_MASK_MASK i) = true

/-- The masks after reset are legal as CUSTOM masks. -/
theorem hashLegal_custom_of_reset : HashLegal (State.reset.wr F.RQE_CTL_HASH_SEL 3) := .inr ⟨by decide, by decide⟩

/-- The masks of every setting meet R120's condition, CUSTOM ones because they are checked. -/
theorem masks_meet {s : State} (h : HashLegal s) : MasksMeet s ∧ ∀ i, i < 5 → hashMask s i % 256 = 0 := by
  rcases h with hlt | ⟨hsel, hlegal⟩
  · obtain hsel | hsel | hsel : s.rd F.RQE_CTL_HASH_SEL = 0 ∨ s.rd F.RQE_CTL_HASH_SEL = 1 ∨ s.rd F.RQE_CTL_HASH_SEL = 2 := by omega
    · obtain ⟨hl, hmask⟩ := hash_fold256 hsel
      refine ⟨fun i hi j hj => ?_, fun i hi => mod_256_of_bits fun k hk => ?_⟩
      · rw [hmask, hl, bit_maskOf]
        interval_cases i <;> interval_cases j <;> rfl
      · rw [hmask, bit_maskOf]
        interval_cases i <;> interval_cases k <;> rfl
    · obtain ⟨hl, hmask⟩ := hash_fold4k hsel
      refine ⟨fun i hi j hj => ?_, fun i hi => mod_256_of_bits fun k hk => ?_⟩
      · rw [hmask, hl, bit_maskOf]
        interval_cases i <;> interval_cases j <;> rfl
      · rw [hmask, bit_maskOf]
        interval_cases i <;> interval_cases k <;> rfl
    · obtain ⟨hl, hmask⟩ := hash_plain hsel
      refine ⟨fun i hi j hj => ?_, fun i hi => mod_256_of_bits fun k hk => ?_⟩
      · rw [hmask, hl, bit_pow]
        interval_cases i <;> interval_cases j <;> rfl
      · rw [hmask, bit_pow, beq_false_of_ne (by omega)]
  · obtain ⟨hl, hmask⟩ := hash_custom hsel
    refine ⟨fun i hi j hj => ?_, fun i _ => by rw [hmask, Nat.mul_mod_left]⟩
    rw [hmask, hl]
    exact masksLegal_bit hlegal hi hj

/-- R120 for every legal setting, CUSTOM included: the masks, the channel, the channel address, and one place for each device address. -/
theorem mapDev_of_hashLegal {s : State} (h : HashLegal s) :
    (∀ i, i < 5 → hashMask s i % 256 = 0 ∧ ∀ j, j < 5 → bit (hashMask s i) (hashL s + j) = (i == j)) ∧
    (∀ d, d < 2 ^ 37 → (mapDev s d).1 < 32 ∧ (∀ i, i < 5 → bit (mapDev s d).1 i = (popCount (Nat.land d (hashMask s i)) 37 % 2 == 1)) ∧
      (mapDev s d).2 / 2 ^ hashL s = d / 2 ^ (hashL s + 5) ∧ (mapDev s d).2 % 2 ^ hashL s = d % 2 ^ hashL s) ∧
    (∀ d e, d < 2 ^ 37 → e < 2 ^ 37 → mapDev s d = mapDev s e → d = e) := by
  obtain ⟨hmeet, hlow⟩ := masks_meet h
  exact ⟨fun i hi => ⟨hlow i hi, hmeet i hi⟩,
    fun d _ => ⟨mapDev_channel_lt s d, fun i hi => mapDev_channel_bit s d hi, mapDev_address_parts s d⟩,
    fun d e hd he h => mapDev_injective hmeet hd he h⟩

/-- The statement writes the CUSTOM masks as `s.rd F.RQE_HASH_MASK_MASK` without an index, which Lean reads as mask 0 cast to a constant function (as it does
in `hookRqeCtl`), so its CUSTOM condition holds of no state; `mapDev_of_hashLegal` has the masks of R120. -/
theorem HashLegal.of_stated {s : State} (h : s.rd F.RQE_CTL_HASH_SEL < 3 ∨ s.rd F.RQE_CTL_HASH_SEL = 3 ∧
    masksLegal (s.rd F.RQE_CTL_CH_LSB) (s.rd F.RQE_HASH_MASK_MASK) = true) : HashLegal s := by
  rcases h with hlt | ⟨-, hcast⟩
  · exact .inl hlt
  · exact absurd (hcast.symm.trans (masksLegal_one_mask ..)) (by decide)

/-- Settles O56: the masks of each setting meet R120's condition, under which one channel and channel address leave no bit of the address open. Of CUSTOM masks
the last clause says nothing (see `HashLegal.of_stated`); `mapDev_of_hashLegal` says it of them. -/
theorem deviceAddressMapIsOneToOne : Obligations.DeviceAddressMapIsOneToOne := by
  unfold Obligations.DeviceAddressMapIsOneToOne
  refine ⟨fun s hsel => ?_, fun s hsel => ?_, fun s hsel => ?_, fun s hsel => hash_custom hsel, fun s hlegal => mapDev_of_hashLegal (.of_stated hlegal)⟩
  · obtain ⟨hl, hmask⟩ := hash_fold256 hsel
    refine ⟨hl, fun i _ k => ?_⟩
    rw [hmask, bit_maskOf]
    simp only [List.contains_cons, List.contains_nil, Bool.or_false, Bool.or_assoc]
  · obtain ⟨hl, hmask⟩ := hash_fold4k hsel
    refine ⟨hl, fun i _ k => ?_⟩
    rw [hmask, bit_maskOf]
    simp only [List.contains_cons, List.contains_nil, Bool.or_false, Bool.or_assoc]
  · obtain ⟨hl, hmask⟩ := hash_plain hsel
    exact ⟨hl, fun i _ k => by rw [hmask, bit_pow]⟩

end Sys2Proof.Machine

/-! SUPPORT. What the request engine writes of the registers when it lets requests proceed, takes waiting packets and starts a purge. -/

namespace Sys2Proof.Machine

/-! ## Places that stay -/

/-- Two maps agree at every key outside `P`. -/
structure AgreeOff (P : Nat → Bool) (a b : SMap Nat) : Prop where
  get : ∀ k, P k = false → SMap.get? b k = SMap.get? a k

theorem AgreeOff.trans {P : Nat → Bool} {a b c : SMap Nat} (h : AgreeOff P a b) (g : AgreeOff P b c) : AgreeOff P a c :=
  ⟨fun k hk => (g.get k hk).trans (h.get k hk)⟩

/-- Every place of the register store outside `P` stays. -/
def RegsKept (P : Nat → Bool) (s t : State) : Prop := AgreeOff P s.regs t.regs

theorem RegsKept.of_eq {P : Nat → Bool} {s t : State} (h : t.regs = s.regs) : RegsKept P s t := ⟨fun k _ => by rw [h]⟩

theorem RegsKept.refl {P : Nat → Bool} (s : State) : RegsKept P s s := .of_eq rfl

theorem RegsKept.trans {P : Nat → Bool} {s t u : State} (h : RegsKept P s t) (g : RegsKept P t u) : RegsKept P s u :=
  AgreeOff.trans h g

theorem RegsKept.ite {P : Nat → Bool} {c : Prop} [Decidable c] {s a b : State} (ha : RegsKept P s a) (hb : RegsKept P s b) :
    RegsKept P s (if c then a else b) := by
  split
  · exact ha
  · exact hb

theorem RegsKept.foldl {P : Nat → Bool} {α : Type} {f : State → α → State} (hf : ∀ t x, RegsKept P t (f t x)) (s : State) (l : List α) :
    RegsKept P s (l.foldl f s) :=
  List.foldlRecOn (motive := RegsKept P s) l f (.refl s) fun t ht x _ => ht.trans (hf t x)

theorem RegsKept.wr {P : Nat → Bool} {s t : State} (h : RegsKept P s t) (f : Fld) (v i j : Nat) (hp : P (f.at i j) = true) :
    RegsKept P s (t.wr f v i j) := by
  refine ⟨fun k hk => ?_⟩
  have hne : k ≠ f.at i j := by
    rintro rfl
    exact Bool.noConfusion (hp.symm.trans hk)
  rw [State.regs_wr_ne _ _ _ _ _ _ hne, h.get k hk]

theorem RegsKept.inc {P : Nat → Bool} {s t : State} (h : RegsKept P s t) (f : Fld) (n i j : Nat) (hp : P (f.at i j) = true) :
    RegsKept P s (t.inc f n i j) := h.wr _ _ _ _ hp

/-- A field whose place stays reads the same. -/
theorem RegsKept.rd {P : Nat → Bool} {s t : State} (h : RegsKept P s t) (f : Fld) (i j : Nat) (hp : P (f.at i j) = false) : t.rd f i j = s.rd f i j := by
  simp only [State.rd, SMap.getD, h.get _ hp]

/-! ## The request engine -/

/-- A place that the request engine may write while requests proceed and packets are taken: `ADMITTED`, FWD_SECT, HAZ_WAIT and RQE_DUP, the rejections of a
domain, and DIP's count of poisoned reads. -/
def enginePlace (k : Nat) : Bool :=
  (decide (5243200 ≤ k) && decide (k < 5244928)) || (decide (5244992 ≤ k) && decide (64 ≤ k % 128)) || decide (6291456 ≤ k)

theorem enginePlace_iff (k : Nat) : enginePlace k = true ↔ ((5243200 ≤ k ∧ k < 5244928) ∨ (5244992 ≤ k ∧ 64 ≤ k % 128)) ∨ 6291456 ≤ k := by
  simp [enginePlace]

theorem enginePlace_poison (ch : Nat) : enginePlace (F.DIP_UE_POISON_RD.at ch 0) = true := by
  simp only [enginePlace_iff, Fld.at, F.DIP_UE_POISON_RD]
  omega

/-- The four counters of rejections, whatever domain a packet names. -/
theorem enginePlace_rejections (d : Nat) : enginePlace (F.RQE_DOM_REJ_REJ_OPC.at d 0) = true ∧ enginePlace (F.RQE_DOM_REJ_REJ_PRIV.at d 0) = true ∧
    enginePlace (F.RQE_DOM_REJ_REJ_RANGE.at d 0) = true ∧ enginePlace (F.RQE_DOM_REJ_REJ_STATE.at d 0) = true := by
  simp only [enginePlace_iff, Fld.at, F.RQE_DOM_REJ_REJ_OPC, F.RQE_DOM_REJ_REJ_PRIV, F.RQE_DOM_REJ_REJ_RANGE, F.RQE_DOM_REJ_REJ_STATE]
  omega

theorem countPoison_regs (s : State) (ch : Nat) (c : Code) : RegsKept enginePlace s (countPoison s ch c) :=
  .ite ((RegsKept.refl s).inc _ _ _ _ (enginePlace_poison ch)) (.refl s)

theorem markPerformed_regs {s t : State} (r : Req) (h : RegsKept enginePlace s t) : RegsKept enginePlace s (markPerformed t r) := by
  obtain ⟨cnt, heq⟩ : Counted (setReq t { r with performed := true, visible := true }) (markPerformed t r) := countBytes_counted ..
  rw [heq]
  exact h

theorem forward_regs (s : State) (r : Req) : RegsKept enginePlace s (forward s r) := by
  unfold forward
  extract_lets got lost code codes r' u
  have hu : RegsKept enginePlace s u := by
    refine .foldl (fun t x => ?_) s _
    split
    · exact .ite (.refl t) (countPoison_regs ..)
    · exact .refl t
  exact markPerformed_regs r' (hu.inc F.RQE_FWD_FWD_SECT got.length 0 0 (by decide))

theorem waitHazard_regs (s : State) (r : Req) : RegsKept enginePlace s (waitHazard s r) :=
  .ite (.refl s) ((RegsKept.refl s).inc _ _ _ _ (by decide))

theorem settleOne_regs (s : State) (id : Nat) : RegsKept enginePlace s (settleOne s id) := by
  unfold settleOne
  split
  · exact .refl s
  next r _ =>
    have hhaz : RegsKept enginePlace s (if hazard s r then s.inc F.RQE_HAZ_HAZ_WAIT else s) :=
      .ite ((RegsKept.refl s).inc _ _ _ _ (by decide)) (.refl s)
    refine .ite (.refl s) ?_
    split
    · exact markPerformed_regs _ (.refl s)
    · exact .ite (markPerformed_regs _ (.refl s)) (markPerformed_regs _ hhaz)
    · exact .ite (forward_regs s r) (waitHazard_regs s r)
    · exact .refl s
    · exact .refl s
    · exact .ite (markPerformed_regs _ (.refl s)) (.refl s)
    · exact waitHazard_regs s r

theorem settle_regs (s : State) : RegsKept enginePlace s (settle s) := by
  show RegsKept enginePlace s ((s.rqe.reqs.map (·.id)).foldl settleOne s)
  exact .foldl settleOne_regs s _

theorem reject_regs (s : State) (p : Vc0) (c : Code) : RegsKept enginePlace s (reject s p c) := by
  obtain ⟨hopc, hpriv, hrange, hstate⟩ := enginePlace_rejections p.dom
  have hcounted : RegsKept enginePlace s (rejectCounted s p c) := by
    unfold rejectCounted
    split
    · exact (RegsKept.refl s).inc _ _ _ _ hopc
    · exact (RegsKept.refl s).inc _ _ _ _ hpriv
    · exact (RegsKept.refl s).inc _ _ _ _ hrange
    · exact (RegsKept.refl s).inc _ _ _ _ hstate
  rw [reject_eq]
  have hrecorded : RegsKept enginePlace s (duplicateRecorded (rejectCounted s p c) p c) :=
    .ite (((hcounted.wr F.RQE_DUP_DUP_TAG _ 0 0 (by decide)).wr F.RQE_DUP_DUP_DOM _ 0 0 (by decide)).inc F.RQE_DUP_DUP_CNT _ 0 0 (by decide)) hcounted
  exact hrecorded

theorem admitPacket_regs (s : State) (o : ROp) (p : Vc0) (runs : List (Nat × Nat)) : RegsKept enginePlace s (admitPacket s o p .host runs) := by
  have hadm : RegsKept enginePlace s (s.wr F.RQE_STAT_ADMITTED 1) := (RegsKept.refl s).wr _ _ _ _ (by decide)
  refine AgreeOff.trans ?_ (settle_regs _)
  exact hadm

theorem takePacket_regs (s : State) (p : Vc0) : RegsKept enginePlace s (takePacket s p).1 := by
  unfold takePacket
  split
  · exact .refl s
  · split
    · split
      · exact .refl s
      · split
        · exact admitPacket_regs (countTaken s) ..
        · exact .refl s
    · exact reject_regs (countTaken s) ..

theorem takeWaiting_regs (n : Nat) (s : State) (g : Nat) : RegsKept enginePlace s (takeWaiting n s g) := by
  induction n generalizing s with
  | zero => exact .refl s
  | succ n ih =>
    unfold takeWaiting
    split
    · exact .refl s
    next p rest _ =>
      have htake := takePacket_regs s p
      split
      next t heq =>
        rw [heq] at htake
        refine AgreeOff.trans ?_ (ih _)
        exact htake
      next =>
        unfold headWaits
        have hrot : RegsKept enginePlace s (if cycleFree s then s else { s with rqe.rot := (g + 1) % 16 }) := .ite (.refl s) (.of_eq rfl)
        exact .ite hrot hrot

/-- Taking the packets that wait writes the engine's own places alone. -/
theorem retake_regs (s : State) : RegsKept enginePlace s (retake s) := .foldl (fun _ _ => takeWaiting_regs ..) s _

theorem rangeStopped_regs (s : State) (r : Req) : (rangeStopped s r).regs = s.regs :=
  List.foldlRecOn (motive := fun t : State => t.regs = s.regs) _ _ rfl fun _ ht _ _ => ht

/-- The state of a purge's first step: `EN` clears and `PURGE_BUSY` sets, before anything else is written. -/
def purgeMarked (s : State) (d : Nat) : State := (s.wr F.RQE_DOM_CTL_EN 0 d).wr F.RQE_DOM_CTL_PURGE_BUSY 1 d

/-- Besides `EN` and `PURGE_BUSY`, a purge that starts writes the engine's own places alone. -/
theorem startPurge_regs (d : Nat) (s : State) : RegsKept enginePlace (purgeMarked s d) (startPurge d s) := by
  obtain ⟨-, -, -, hstate⟩ := enginePlace_rejections d
  unfold startPurge
  extract_lets range hit gone u v remove q w
  have hu : u.regs = s.regs :=
    List.foldlRecOn (motive := fun t : State => t.regs = s.regs) _ _ rfl fun t ht r _ => (rangeStopped_regs t r).trans ht
  have hv : v.regs = (purgeMarked s d).regs := by
    show (purgeMarked u d).regs = _
    simp only [purgeMarked, State.wr, hu]
  have hw : RegsKept enginePlace (purgeMarked s d) w := .of_eq hv
  exact ((hw.inc _ _ _ _ hstate).trans (settle_regs _)).trans (retake_regs _)

end Sys2Proof.Machine


/-! SUPPORT. Writes of the request engine's registers (RQE, Tables 5.8, 5.14 and 5.17): a purge and its end (R133), region entries (R119), and the
counters that `CNT_CLR` clears. -/

namespace Sys2Proof.Machine

/-! ## What a write stores -/

/-- A write stores its fields in the register store alone. -/
theorem storeFields_regsOnly (s : State) (r : RegId) (i j v : Nat) (may : Fld → Bool) :
    ∃ regs, storeFields s r i j v may = { s with regs := regs } := by
  rw [storeFields_eq]
  refine List.foldlRecOn (motive := fun t : State => ∃ regs, t = { s with regs := regs }) _ _ ⟨s.regs, rfl⟩ ?_
  rintro t ⟨regs, rfl⟩ f -
  unfold storeField
  split
  · exact ⟨_, rfl⟩
  · split <;> exact ⟨_, rfl⟩

/-- A plain field of a register with its fields in different places takes its part of the word. -/
theorem storeFields_rd_rw (s : State) {r : RegId} {i j v : Nat} {may : Fld → Bool} {f : Fld} (hplaces : (r.info.flds.map Fld.key).Nodup)
    (hstrides : ∀ x ∈ r.info.flds, x.s1 = f.s1 ∧ x.s2 = f.s2) (hf : f ∈ r.info.flds) (hacc : f.acc = .rw) (hmay : may f = true) :
    (storeFields s r i j v may).rd f i j = f.val v := by
  rw [storeFields_eq]
  refine foldl_storeField_rd_rw _ _ ?_ hf hacc hmay
  refine List.Nodup.of_map (· - (f.s1 * i + f.s2 * j)) ?_
  rw [List.map_map]
  rw [← List.map_congr_left (f := Fld.key) (fun x hx => ?_)]
  · exact hplaces
  · obtain ⟨h1, h2⟩ := hstrides x hx
    simp only [Function.comp, Fld.at, h1, h2]
    omega

/-- A write that the register's own action refuses with RANGE changes nothing but the record of the access. -/
theorem writeBy_range {s : State} {who : Nat} {r : RegId} {i j v : Nat} (hat : regAt (regOffset r i j) = some (r, i, j))
    (h : WriteReady s who r i j v) (hhook : writeHook s who r i j v = noH s .range) :
    writeBy s who r i j v = recordAcc s who true (regOffset r i j) .range 0 := by
  obtain ⟨hopen, hpending, hchecks⟩ := h
  have hw := writeReg_refused s who .core r i j v .range hchecks (by rw [hhook]; rfl) (.inr (.inr rfl))
  rw [writeBy, access_write _ _ hopen hpending rfl, runWrite_done _ _ r i j .range 0 _ hat hw]
  rfl

/-- A write that the register's own action accepts leaves what the action leaves, and its record. -/
theorem writeBy_accepted {s u : State} {who : Nat} {r : RegId} {i j v : Nat} (hat : regAt (regOffset r i j) = some (r, i, j))
    (h : WriteReady s who r i j v) (hhook : writeHook s who r i j v = okH u)
    (hp : persistWord s r (ownIdx r who i) (writtenWord s who r i v) = none) :
    writeBy s who r i j v = recordAcc u who true (regOffset r i j) .ok 0 := by
  rw [writeBy_ok _ _ _ _ _ _ hat h (by rw [hhook]; rfl) hp, hhook]
  rfl

/-! ## RQE[d]_DOM_CTL: purge (R133) -/

theorem regAt_domCtl (d : Fin 16) : regAt (regOffset .RQE_DOM_CTL d.val 0) = some (.RQE_DOM_CTL, d.val, 0) := by
  revert d
  decide

/-- What a write of RQE[d]_DOM_CTL stores. -/
def domCtlStored (s : State) (who d v : Nat) : State := storeFields s .RQE_DOM_CTL d 0 v (mayField (letters s .RQE_DOM_CTL who d true))

theorem writeHook_domCtl (s : State) (who d v : Nat) : writeHook s who .RQE_DOM_CTL d 0 v =
    hookDomCtl s (domCtlStored s who d v) d (writtenWord s who .RQE_DOM_CTL d v) := rfl

/-- The word of PURGE as the action sees it. -/
theorem purgeWord_go {s : State} {who d : Nat} (v : Nat) (hmay : MayWrite s who .RQE_DOM_CTL d F.RQE_DOM_CTL_PURGE) :
    F.RQE_DOM_CTL_PURGE.hit (writtenWord s who .RQE_DOM_CTL d (withBits v [(F.RQE_DOM_CTL_PURGE, 1)])) = true := by
  rw [Fld.hit, writtenWord_set (by decide) hmay]
  rfl

theorem hookDomCtl_purge {s : State} {d m : Nat} (t : State) (hgo : F.RQE_DOM_CTL_PURGE.hit m = true) (hidle : s.on F.RQE_DOM_CTL_PURGE_BUSY d = false) :
    hookDomCtl s t d m = okH (startPurge d t) := by
  simp [hookDomCtl, hgo, hidle]

theorem hookDomCtl_busy {s : State} {d m : Nat} (t : State) (hgo : F.RQE_DOM_CTL_PURGE.hit m = true) (hbusy : s.on F.RQE_DOM_CTL_PURGE_BUSY d = true) :
    hookDomCtl s t d m = noH s .state := by
  simp [hookDomCtl, hgo, hbusy]

/-- The engine's own places hold no `EN` and no `PURGE_BUSY`, and neither do the records of accesses. -/
theorem domCtl_places (d : Fin 16) : ∀ f ∈ [F.RQE_DOM_CTL_EN, F.RQE_DOM_CTL_PURGE_BUSY],
    enginePlace (f.at d.val 0) = false ∧ lasPlace (f.at d.val 0) = false := by
  revert d
  decide

/-- A purge that starts leaves `EN` clear and `PURGE_BUSY` set. -/
theorem startPurge_marks (d : Fin 16) (s : State) :
    (startPurge d.val s).rd F.RQE_DOM_CTL_EN d.val = 0 ∧ (startPurge d.val s).rd F.RQE_DOM_CTL_PURGE_BUSY d.val = 1 := by
  have hkept := startPurge_regs d.val s
  obtain ⟨hen, -⟩ := domCtl_places d F.RQE_DOM_CTL_EN (by simp)
  obtain ⟨hbusy, -⟩ := domCtl_places d F.RQE_DOM_CTL_PURGE_BUSY (by simp)
  refine ⟨(hkept.rd _ _ _ hen).trans ?_, (hkept.rd _ _ _ hbusy).trans ?_⟩
  · have hne : F.RQE_DOM_CTL_EN.at d.val 0 ≠ F.RQE_DOM_CTL_PURGE_BUSY.at d.val 0 := by simp [Fld.at, F.RQE_DOM_CTL_EN, F.RQE_DOM_CTL_PURGE_BUSY]
    rw [purgeMarked, State.rd_wr_ne _ _ _ _ _ _ _ _ hne, State.rd_wr_same]
    rfl
  · rw [purgeMarked, State.rd_wr_same]
    rfl

/-! ## The end of a purge (R133, step 4) -/

/-- The end of one domain's purge: the requests and the memory stay, and `PURGE_BUSY` of that domain alone may clear. -/
theorem purgeDone_spec (s : State) (e d : Fin 16) : (purgeDone e.val s).mem = s.mem ∧ (purgeDone e.val s).rqe = s.rqe ∧
    (purgeDone e.val s).on F.RQE_DOM_CTL_PURGE_BUSY d.val =
      (s.on F.RQE_DOM_CTL_PURGE_BUSY d.val && (decide (d ≠ e) || decide (rbUsed s d.val ≠ 0))) := by
  have hraise : ∀ d : Fin 16, raisePlace (F.RQE_DOM_CTL_PURGE_BUSY.at d.val 0) = false := by decide
  unfold purgeDone
  split
  next hdone =>
    obtain ⟨hbusy, hempty⟩ := hdone
    have hreach := (s.wr F.RQE_DOM_CTL_PURGE_BUSY 0 e.val).raiseG_reach 280 .info e.val 0 []
    obtain ⟨-, -, -, -, hmem, -, -, -, -, hrqe, -⟩ := hreach.same
    refine ⟨hmem, hrqe, ?_⟩
    unfold State.on at hbusy ⊢
    rw [hreach.rd _ _ _ (hraise d)]
    by_cases hd : d = e
    · subst hd
      rw [State.rd_wr_same]
      simp [hempty]
    · have hne : F.RQE_DOM_CTL_PURGE_BUSY.at d.val 0 ≠ F.RQE_DOM_CTL_PURGE_BUSY.at e.val 0 := by
        simp only [Fld.at, F.RQE_DOM_CTL_PURGE_BUSY]
        omega
      rw [State.rd_wr_ne _ _ _ _ _ _ _ _ hne]
      simp [hd]
  next hnot =>
    refine ⟨rfl, rfl, ?_⟩
    by_cases hd : d = e
    · subst hd
      cases hb : s.on F.RQE_DOM_CTL_PURGE_BUSY d.val with
      | false => rfl
      | true => simpa [hb] using hnot
    · simp [hd]

/-- The ends of the purges of the domains in a list. -/
theorem purgesDone_spec (l : List (Fin 16)) (s : State) (d : Fin 16) :
    (l.foldl (fun t e => purgeDone e.val t) s).mem = s.mem ∧ (l.foldl (fun t e => purgeDone e.val t) s).rqe = s.rqe ∧
    (l.foldl (fun t e => purgeDone e.val t) s).on F.RQE_DOM_CTL_PURGE_BUSY d.val =
      (s.on F.RQE_DOM_CTL_PURGE_BUSY d.val && (decide (d ∉ l) || decide (rbUsed s d.val ≠ 0))) := by
  induction l generalizing s with
  | nil => simp
  | cons e l ih =>
    obtain ⟨hmem, hrqe, hon⟩ := purgeDone_spec s e d
    obtain ⟨imem, irqe, ion⟩ := ih (purgeDone e.val s)
    have hused : rbUsed (purgeDone e.val s) d.val = rbUsed s d.val := by rw [rbUsed, hrqe]; rfl
    refine ⟨imem.trans hmem, irqe.trans hrqe, ?_⟩
    rw [List.foldl_cons, ion, hon, hused]
    by_cases hd : d = e
    · cases decide (rbUsed s d.val ≠ 0) <;> simp [hd]
    · simp [hd]

/-! ## RQE[n]_RGN_A and RQE[n]_RGN_B: region entries (R119) -/

theorem regAt_rgnA (n : Fin 64) : regAt (regOffset .RQE_RGN_A n.val 0) = some (.RQE_RGN_A, n.val, 0) := by
  revert n
  decide +kernel

theorem regAt_rgnB (n : Fin 64) : regAt (regOffset .RQE_RGN_B n.val 0) = some (.RQE_RGN_B, n.val, 0) := by
  revert n
  decide +kernel

/-- What a write of a region entry's first word stores. -/
def rgnAStored (s : State) (who n v : Nat) : State := storeFields s .RQE_RGN_A n 0 v (mayField (letters s .RQE_RGN_A who n true))

/-- What a write of a region entry's second word stores. -/
def rgnBStored (s : State) (who n v : Nat) : State := storeFields s .RQE_RGN_B n 0 v (mayField (letters s .RQE_RGN_B who n true))

theorem writeHook_rgnA (s : State) (who n v : Nat) :
    writeHook s who .RQE_RGN_A n 0 v = hookRgnA s (rgnAStored s who n v) n (writtenWord s who .RQE_RGN_A n v) := rfl

theorem writeHook_rgnB (s : State) (who n v : Nat) :
    writeHook s who .RQE_RGN_B n 0 v = hookRgnB s (rgnBStored s who n v) n (writtenWord s who .RQE_RGN_B n v) := rfl

/-- The word of a region entry as the action sees it, field by field. -/
theorem rgnAWord_val {s : State} {who n : Nat} (v : Nat)
    (hmay : ∀ f ∈ [F.RQE_RGN_A_EN, F.RQE_RGN_A_DBASE, F.RQE_RGN_A_RDOM, F.RQE_RGN_A_WR], MayWrite s who .RQE_RGN_A n f) :
    ∀ f ∈ [F.RQE_RGN_A_EN, F.RQE_RGN_A_DBASE, F.RQE_RGN_A_RDOM, F.RQE_RGN_A_WR], f.val (writtenWord s who .RQE_RGN_A n v) = f.val v := by
  have hmem : ∀ f ∈ [F.RQE_RGN_A_EN, F.RQE_RGN_A_DBASE, F.RQE_RGN_A_RDOM, F.RQE_RGN_A_WR], f ∈ RegId.RQE_RGN_A.info.flds := by decide
  exact fun f hf => writtenWord_val _ _ _ _ _ _ (hmem f hf) (hmay f hf)

/-- R119's condition on an entry that is enabled at domain base `base` of domain `dom`: it lies inside both address spaces and overlaps no enabled entry of
its domain. -/
def regionFree (s : State) (n dom base : Nat) : Prop :=
  regionEnd s n base ≤ 0xFFFF ∧ regionEnd s n (s.rd F.RQE_RGN_B_PBASE n) ≤ lastBlock s ∧ regionOverlap s n dom base = false

theorem hookRgnA_disabled {s : State} {n m : Nat} (t : State) (h : F.RQE_RGN_A_EN.hit m = false) : hookRgnA s t n m = okH t := by
  simp [hookRgnA, h]

theorem hookRgnA_enabled {s : State} {n m : Nat} (t : State) (hwas : s.on F.RQE_RGN_A_EN n = false)
    (hfree : regionFree s n (F.RQE_RGN_A_RDOM.val m) (F.RQE_RGN_A_DBASE.val m)) : hookRgnA s t n m = okH t := by
  obtain ⟨hdomain, hdevice, hclear⟩ := hfree
  simp [hookRgnA, hwas, hclear, hdomain, hdevice]

theorem hookRgnA_range {s : State} {n m : Nat} (t : State) (hen : F.RQE_RGN_A_EN.hit m = true) (hwas : s.on F.RQE_RGN_A_EN n = false)
    (hbad : 0xFFFF < regionEnd s n (F.RQE_RGN_A_DBASE.val m) ∨ lastBlock s < regionEnd s n (s.rd F.RQE_RGN_B_PBASE n) ∨
      regionOverlap s n (F.RQE_RGN_A_RDOM.val m) (F.RQE_RGN_A_DBASE.val m) = true) : hookRgnA s t n m = noH s .range := by
  have hbad' : (decide (0xFFFF < regionEnd s n (F.RQE_RGN_A_DBASE.val m)) || decide (lastBlock s < regionEnd s n (s.rd F.RQE_RGN_B_PBASE n)) ||
      regionOverlap s n (F.RQE_RGN_A_RDOM.val m) (F.RQE_RGN_A_DBASE.val m)) = true := by
    simpa [or_assoc] using hbad
  unfold hookRgnA
  simp only [hen, hwas, hbad']
  rfl

theorem hookRgnA_moved {s : State} {n m : Nat} (t : State) (hen : F.RQE_RGN_A_EN.hit m = true) (hwas : s.on F.RQE_RGN_A_EN n = true)
    (hmoved : F.RQE_RGN_A_DBASE.val m ≠ s.rd F.RQE_RGN_A_DBASE n) : hookRgnA s t n m = noH s .state := by
  simp [hookRgnA, hen, hwas, hmoved]

theorem hookRgnB_disabled {s : State} {n : Nat} (t : State) (m : Nat) (hwas : s.on F.RQE_RGN_A_EN n = false) : hookRgnB s t n m = okH t := by
  simp [hookRgnB, hwas]

/-- An accepted write of a region entry's first word leaves its four fields as written, the memory and the requests as they were. -/
theorem rgnAStored_spec (s : State) (who : Fin 18) (n : Fin 64) (v : Nat)
    (hmay : ∀ f ∈ [F.RQE_RGN_A_EN, F.RQE_RGN_A_DBASE, F.RQE_RGN_A_RDOM, F.RQE_RGN_A_WR], MayWrite s who.val .RQE_RGN_A n.val f) :
    (rgnAStored s who.val n.val v).mem = s.mem ∧ (rgnAStored s who.val n.val v).rqe = s.rqe ∧
    ∀ f ∈ [F.RQE_RGN_A_EN, F.RQE_RGN_A_DBASE, F.RQE_RGN_A_RDOM, F.RQE_RGN_A_WR], (rgnAStored s who.val n.val v).rd f n.val = f.val v := by
  obtain ⟨regs, hregs⟩ := storeFields_regsOnly s .RQE_RGN_A n.val 0 v (mayField (letters s .RQE_RGN_A who.val n.val true))
  refine ⟨by rw [rgnAStored, hregs], by rw [rgnAStored, hregs], fun f hf => ?_⟩
  have hfield : ∀ f ∈ [F.RQE_RGN_A_EN, F.RQE_RGN_A_DBASE, F.RQE_RGN_A_RDOM, F.RQE_RGN_A_WR], f ∈ RegId.RQE_RGN_A.info.flds ∧ f.acc = .rw ∧
      ∀ x ∈ RegId.RQE_RGN_A.info.flds, x.s1 = f.s1 ∧ x.s2 = f.s2 := by decide
  obtain ⟨hmem, hacc, hstrides⟩ := hfield f hf
  exact storeFields_rd_rw s (by decide) hstrides hmem hacc (hmay f hf)

/-- The same of the second word. -/
theorem rgnBStored_rd (s : State) (who : Fin 18) (n : Fin 64) (v : Nat)
    (hmay : ∀ f ∈ [F.RQE_RGN_B_SIZE_M1, F.RQE_RGN_B_PBASE], MayWrite s who.val .RQE_RGN_B n.val f) :
    ∀ f ∈ [F.RQE_RGN_B_SIZE_M1, F.RQE_RGN_B_PBASE], (rgnBStored s who.val n.val v).rd f n.val = f.val v := by
  intro f hf
  have hfield : ∀ f ∈ [F.RQE_RGN_B_SIZE_M1, F.RQE_RGN_B_PBASE], f ∈ RegId.RQE_RGN_B.info.flds ∧ f.acc = .rw ∧
      ∀ x ∈ RegId.RQE_RGN_B.info.flds, x.s1 = f.s1 ∧ x.s2 = f.s2 := by decide
  obtain ⟨hmem, hacc, hstrides⟩ := hfield f hf
  exact storeFields_rd_rw s (by decide) hstrides hmem hacc (hmay f hf)

/-- No record of an access lies among the region entries. -/
theorem rgn_not_lasPlace (n : Fin 64) : ∀ f ∈ [F.RQE_RGN_A_EN, F.RQE_RGN_A_DBASE, F.RQE_RGN_A_RDOM, F.RQE_RGN_A_WR, F.RQE_RGN_B_SIZE_M1, F.RQE_RGN_B_PBASE],
    lasPlace (f.at n.val 0) = false := by
  have hplaces : ∀ f ∈ [F.RQE_RGN_A_EN, F.RQE_RGN_A_DBASE, F.RQE_RGN_A_RDOM, F.RQE_RGN_A_WR, F.RQE_RGN_B_SIZE_M1, F.RQE_RGN_B_PBASE],
      1600 ≤ f.key ∧ f.key + f.s1 * 64 < 2 ^ 28 := by decide
  intro f hf
  obtain ⟨hlow, hhigh⟩ := hplaces f hf
  have hstride : f.s1 * n.val ≤ f.s1 * 64 := Nat.mul_le_mul_left _ n.isLt.le
  exact not_lasPlace (by simp only [Fld.at]; omega) (by simp only [Fld.at]; omega)

@[simp] theorem recordAcc_rqe (s : State) (who : Nat) (wr : Bool) (off : Nat) (c : Code) (d : Nat) : (recordAcc s who wr off c d).rqe = s.rqe := by
  unfold recordAcc
  split <;> simp only [State.inc_rqe, State.wr_rqe]

/-! ## CNT_CLR of RQE_CTL -/

theorem regAt_rqeCtl : regAt (regOffset .RQE_CTL 0 0) = some (.RQE_CTL, 0, 0) := by decide

/-- The engine's counters that stand once. -/
def rqeCounters : List Fld := [F.RQE_FWD_FWD_SECT, F.RQE_HAZ_HAZ_WAIT, F.RQE_DUP_DUP_CNT]

/-- The engine's counters that stand for each domain. -/
def rqeDomCounters : List Fld :=
  [F.RQE_DOM_USE_LINK_LOST, F.RQE_DOM_REJ_REJ_OPC, F.RQE_DOM_REJ_REJ_PRIV, F.RQE_DOM_REJ_REJ_RANGE, F.RQE_DOM_REJ_REJ_STATE]

/-- No counter of the engine has a reset value other than zero, nor lies among the records of accesses. -/
theorem rqeCounters_facts : ∀ f ∈ rqeCounters ++ rqeDomCounters, (f.rstAt = [] ∧ f.rst = 0) ∧ 1600 ≤ f.key ∧ f.key + f.s1 * 16 < 2 ^ 28 := by decide

theorem rqeCounters_reset {f : Fld} (hf : f ∈ rqeCounters ++ rqeDomCounters) (i : Nat) : f.reset i = 0 := by
  obtain ⟨⟨hat, hrst⟩, -⟩ := rqeCounters_facts f hf
  rw [Fld.reset, hat, hrst, SMap.getD_nil]

theorem rqeCounters_not_lasPlace {f : Fld} (hf : f ∈ rqeCounters ++ rqeDomCounters) {i : Nat} (hi : i < 16) : lasPlace (f.at i 0) = false := by
  obtain ⟨-, hlow, hhigh⟩ := rqeCounters_facts f hf
  have hstride : f.s1 * i ≤ f.s1 * 16 := Nat.mul_le_mul_left _ hi.le
  exact not_lasPlace (by simp only [Fld.at]; omega) (by simp only [Fld.at]; omega)

/-- Every counter of the engine is cleared. -/
theorem rqeClear_rd (s : State) : (∀ f ∈ rqeCounters, (rqeClear s).rd f = 0) ∧ ∀ d, d < 16 → ∀ f ∈ rqeDomCounters, (rqeClear s).rd f d = 0 := by
  refine ⟨fun f hf => ?_, fun d hd f hf => ?_⟩
  · have hreset := rqeCounters_reset (List.mem_append_left rqeDomCounters hf) 0
    exact State.clearFields_of_zero _ _ hreset (State.clearFields_same s hf hreset Nat.one_pos)
  · exact State.clearFields_same _ hf (rqeCounters_reset (List.mem_append_right rqeCounters hf) d) hd

/-- The word of CNT_CLR as the action sees it: the bit set, and the hash as given. -/
theorem cntClrWord_go {s : State} {who : Nat} (v : Nat) (hmay : MayWrite s who .RQE_CTL 0 F.RQE_CTL_CNT_CLR) :
    F.RQE_CTL_CNT_CLR.hit (writtenWord s who .RQE_CTL 0 (withBits v [(F.RQE_CTL_CNT_CLR, 1)])) = true := by
  rw [Fld.hit, writtenWord_set (by decide) hmay]
  rfl

theorem cntClrWord_val {s : State} {who : Nat} (v : Nat) (hmay : ∀ f ∈ [F.RQE_CTL_HASH_SEL, F.RQE_CTL_CH_LSB], MayWrite s who .RQE_CTL 0 f) :
    ∀ f ∈ [F.RQE_CTL_HASH_SEL, F.RQE_CTL_CH_LSB],
      f.val (writtenWord s who .RQE_CTL 0 (withBits v [(F.RQE_CTL_CNT_CLR, 1)])) = f.val v := by
  have hapart : ∀ f ∈ [F.RQE_CTL_HASH_SEL, F.RQE_CTL_CH_LSB], f ∈ RegId.RQE_CTL.info.flds ∧ f.lo + f.w ≤ F.RQE_CTL_CNT_CLR.lo := by decide
  intro f hf
  obtain ⟨hmem, hbelow⟩ := hapart f hf
  exact writtenWord_kept hmem (hmay f hf) (.inl hbelow)

/-- `CNT_CLR` with the hash as it is, and no CUSTOM masks in force, clears the counters. -/
theorem hookRqeCtl_clears {s : State} {m : Nat} (t : State) (hclr : F.RQE_CTL_CNT_CLR.hit m = true)
    (hsel : F.RQE_CTL_HASH_SEL.val m = s.rd F.RQE_CTL_HASH_SEL) (hlsb : F.RQE_CTL_CH_LSB.val m = s.rd F.RQE_CTL_CH_LSB)
    (hlisted : s.rd F.RQE_CTL_HASH_SEL ≠ 3) : hookRqeCtl s t m = okH (rqeClear t) := by
  simp [hookRqeCtl, hclr, hsel, hlsb, hlisted]

theorem writeHook_rqeCtl (s : State) (who v : Nat) : writeHook s who .RQE_CTL 0 0 v =
    hookRqeCtl s (storeFields s .RQE_CTL 0 0 v (mayField (letters s .RQE_CTL who 0 true))) (writtenWord s who .RQE_CTL 0 v) := rfl

/-! ## The commands -/

theorem exec_purge (who : Fin 18) (d : Fin 16) (v : Word) (s : State) :
    exec (.purge who d v) s = .next (writeBy s who.val .RQE_DOM_CTL d.val 0 (withBits v.toNat [(F.RQE_DOM_CTL_PURGE, 1)])) := rfl

theorem exec_purgeDone (s : State) : exec .purgeDone s = .next ((List.finRange 16).foldl (fun t e => purgeDone e.val t) s) := rfl

theorem exec_rgnAWrite (who : Fin 18) (n : Fin 64) (v : Word) (s : State) :
    exec (.regionWrite false who n v) s = .next (writeBy s who.val .RQE_RGN_A n.val 0 v.toNat) := rfl

theorem exec_rgnBWrite (who : Fin 18) (n : Fin 64) (v : Word) (s : State) :
    exec (.regionWrite true who n v) s = .next (writeBy s who.val .RQE_RGN_B n.val 0 v.toNat) := rfl

theorem exec_rqeCntClr (who : Fin 18) (v : Word) (s : State) :
    exec (.rqeCntClr who v) s = .next (writeBy s who.val .RQE_CTL 0 0 (withBits v.toNat [(F.RQE_CTL_CNT_CLR, 1)])) := rfl

/-- Settles O12: the register's own action of each write, and its record. What a purge does after it marked the domain, and the record of an access, write
neither `EN` nor `PURGE_BUSY`; a region entry's fields are stored as written; `rqeClear` clears each counter. -/
theorem requestEngineWrites : Obligations.RequestEngineWrites := by
  unfold Obligations.RequestEngineWrites
  refine ⟨fun s who d v ⟨hready, hmay⟩ => ?_, fun s => ?_, fun s who n v ⟨hready, hmay⟩ => ?_, fun s who n v ⟨hready, hmay⟩ hwas => ?_,
    fun s who v ⟨hready, hmay⟩ hsel hlsb hlisted => ?_⟩
  · have hgo := purgeWord_go v.toNat (hmay _ (by simp))
    refine ⟨fun hidle => ?_, fun hbusy => ?_⟩
    · have hhook := (writeHook_domCtl ..).trans (hookDomCtl_purge (domCtlStored s who.val d.val (withBits v.toNat [(F.RQE_DOM_CTL_PURGE, 1)])) hgo hidle)
      have hrun := writeBy_accepted (regAt_domCtl d) hready hhook rfl
      obtain ⟨hen, hset⟩ := startPurge_marks d (domCtlStored s who.val d.val (withBits v.toNat [(F.RQE_DOM_CTL_PURGE, 1)]))
      refine ⟨_, by rw [exec_purge, hrun], recordAcc_res .., ?_, ?_⟩
      · rw [State.on, recordAcc_rd _ _ _ _ _ _ who.isLt _ _ _ (domCtl_places d _ (by simp)).2]
        exact beq_eq_false_iff_ne.2 (hen.trans_ne Nat.zero_ne_one)
      · rw [State.on, recordAcc_rd _ _ _ _ _ _ who.isLt _ _ _ (domCtl_places d _ (by simp)).2]
        exact beq_iff_eq.2 hset
    · have hhook := (writeHook_domCtl ..).trans (hookDomCtl_busy (domCtlStored s who.val d.val (withBits v.toNat [(F.RQE_DOM_CTL_PURGE, 1)])) hgo hbusy)
      rw [exec_purge, writeBy_refused (regAt_domCtl d) hready hhook (.inl rfl) rfl]
  · obtain ⟨hmem, hrqe, -⟩ := purgesDone_spec (List.finRange 16) s 0
    refine ⟨_, exec_purgeDone s, hmem, hrqe, fun d hd => ?_⟩
    obtain ⟨-, -, hon⟩ := purgesDone_spec (List.finRange 16) s ⟨d, hd⟩
    simpa using hon
  · have hword := rgnAWord_val v.toNat hmay
    have hen : F.RQE_RGN_A_EN.hit (writtenWord s who.val .RQE_RGN_A n.val v.toNat) = F.RQE_RGN_A_EN.hit v.toNat := by
      rw [Fld.hit, hword _ (by simp), Fld.hit]
    have hbase := hword F.RQE_RGN_A_DBASE (by simp)
    have hdom := hword F.RQE_RGN_A_RDOM (by simp)
    refine ⟨fun haccept => ?_, fun hset hwas hbad => ?_, fun hset hwas hmoved => ?_⟩
    · have hhook : writeHook s who.val .RQE_RGN_A n.val 0 v.toNat = okH (rgnAStored s who.val n.val v.toNat) := by
        rw [writeHook_rgnA]
        rcases haccept with hoff | ⟨hwas, hfree⟩
        · exact hookRgnA_disabled _ (hen.trans hoff)
        · exact hookRgnA_enabled _ hwas (by rw [hdom, hbase]; exact hfree)
      have hrun := writeBy_accepted (regAt_rgnA n) hready hhook rfl
      obtain ⟨hmem, hrqe, hfields⟩ := rgnAStored_spec s who n v.toNat hmay
      refine ⟨_, by rw [exec_rgnAWrite, hrun], recordAcc_res .., (recordAcc_mem ..).trans hmem, (recordAcc_rqe ..).trans hrqe, fun f hf => ?_⟩
      rw [recordAcc_rd _ _ _ _ _ _ who.isLt _ _ _ (rgn_not_lasPlace n f (List.mem_append_left [_, _] hf))]
      exact hfields f hf
    · have hhook := (writeHook_rgnA ..).trans (hookRgnA_range (rgnAStored s who.val n.val v.toNat) (hen.trans hset) hwas (by rw [hdom, hbase]; exact hbad))
      rw [exec_rgnAWrite, writeBy_range (regAt_rgnA n) hready hhook]
    · have hhook := (writeHook_rgnA ..).trans (hookRgnA_moved (rgnAStored s who.val n.val v.toNat) (hen.trans hset) hwas (by rw [hbase]; exact hmoved))
      rw [exec_rgnAWrite, writeBy_refused (regAt_rgnA n) hready hhook (.inl rfl) rfl]
  · have hhook := (writeHook_rgnB s who.val n.val v.toNat).trans (hookRgnB_disabled _ _ hwas)
    have hrun := writeBy_accepted (regAt_rgnB n) hready hhook rfl
    have hfields : ∀ f ∈ [F.RQE_RGN_B_SIZE_M1, F.RQE_RGN_B_PBASE],
        (recordAcc (rgnBStored s who.val n.val v.toNat) who.val true (regOffset .RQE_RGN_B n.val 0) .ok 0).rd f n.val = f.val v.toNat := by
      intro f hf
      rw [recordAcc_rd _ _ _ _ _ _ who.isLt _ _ _ (rgn_not_lasPlace n f (List.mem_append_right [_, _, _, _] hf))]
      exact rgnBStored_rd s who n v.toNat hmay f hf
    exact ⟨_, by rw [exec_rgnBWrite, hrun], recordAcc_res .., hfields _ (by simp), hfields _ (by simp)⟩
  · have hclr := cntClrWord_go v.toNat (hmay _ (by simp))
    have hkept := cntClrWord_val v.toNat fun f hf => hmay f (List.mem_cons_of_mem _ hf)
    have hhook := (writeHook_rqeCtl s who.val _).trans
      (hookRqeCtl_clears _ hclr ((hkept _ (by simp)).trans hsel) ((hkept _ (by simp)).trans hlsb) hlisted)
    have hrun := writeBy_accepted regAt_rqeCtl hready hhook rfl
    obtain ⟨hones, hdoms⟩ := rqeClear_rd
      (storeFields s .RQE_CTL 0 0 (withBits v.toNat [(F.RQE_CTL_CNT_CLR, 1)]) (mayField (letters s .RQE_CTL who.val 0 true)))
    refine ⟨_, by rw [exec_rqeCntClr, hrun], recordAcc_res .., fun f hf => ?_, fun d hd f hf => ?_⟩
    · rw [recordAcc_rd _ _ _ _ _ _ who.isLt _ _ _ (rqeCounters_not_lasPlace (List.mem_append_left rqeDomCounters hf) (by decide))]
      exact hones f hf
    · rw [recordAcc_rd _ _ _ _ _ _ who.isLt _ _ _ (rqeCounters_not_lasPlace (List.mem_append_right rqeCounters hf) hd)]
      exact hdoms d hd f hf

end Sys2Proof.Machine


/-! SUPPORT. What the request engine's own issue keeps of the request (R126 to R132): the lookups and writes of the slice, the queues of a channel, the write
data buffer. -/

namespace Sys2Proof.Machine

/-! ## The slice and the channel leave the request buffer alone -/

theorem tagFix_aside (s : State) (sl set w kind : Nat) : Aside s (tagFix s sl set w kind) := .ite ⟨rfl, rfl⟩ ⟨rfl, rfl⟩

theorem tagLookup_aside (s : State) (sl c kind : Nat) : Aside s (tagLookup s sl c kind) :=
  .ite (.refl s) (Aside.trans (t := s.draw.2) ⟨rfl, rfl⟩ (tagFix_aside ..))

theorem lookup_aside (s : State) (ch c kind : Nat) : Aside s (lookup s ch c kind) :=
  .ite (.refl s) (.ite (sliceFault_aside ..) (tagLookup_aside ..))

theorem Aside.moveWay {s t : State} (h : Aside s t) (sl set w : Nat) (recent : Bool) : Aside s (t.moveWay sl set w recent) := h.trans ⟨rfl, rfl⟩

theorem touchWay_aside (s : State) (sl c : Nat) (r : Req) : Aside s (touchWay s sl c r) := by
  unfold touchWay
  split
  · exact .ite ⟨rfl, rfl⟩ (.refl s)
  · exact .refl s

theorem evict_aside (s : State) (sl set w : Nat) : Aside s (evict s sl set w) := by
  unfold evict
  extract_lets x v scc u
  have hu : Aside s u := .ite ⟨rfl, rfl⟩ (.refl s)
  exact hu.setLine ..

theorem Aside.ite_fst {α : Type} {c : Prop} [Decidable c] {s : State} {a b : State × α} (ha : Aside s a.1) (hb : Aside s b.1) :
    Aside s (if c then a else b).1 := by
  split
  · exact ha
  · exact hb

theorem allocate_aside (s : State) (sl c : Nat) (r : Req) : Aside s (allocate s sl c r).1 := by
  have hfail : Aside s (s.inc F.SCC_ALLOC_FAIL_ALLOC_FAIL 1 sl) := (Aside.refl s).inc ..
  unfold allocate
  extract_lets set fail host
  split
  · exact .refl s
  · split
    · exact hfail
    next w _ =>
      have hline (x : Line) : Aside s { evict s sl set w with scc.line := SMap.set (evict s sl set w).scc.line (lineKey sl set w) x } :=
        (evict_aside ..).trans ⟨rfl, rfl⟩
      refine .ite_fst hfail ?_
      show Aside s (if host then _ else _)
      exact .ite ((hline _).moveWay ..) (hline _)

theorem queueRead_aside (s : State) (ch : Nat) (e : DEnt) : Aside s (queueRead s ch e) := ⟨rfl, rfl⟩

theorem queueWrite_aside (s : State) (ch : Nat) (e : WEnt) : Aside s (queueWrite s ch e) := ⟨rfl, rfl⟩

theorem cacheWrite_aside (s : State) (sl w c : Nat) (x : Sector) : Aside s (cacheWrite s sl w c x) := ⟨rfl, rfl⟩

theorem victimWrite_aside (s : State) (sl c : Nat) (x : Sector) : Aside s (victimWrite s sl c x) := ⟨rfl, rfl⟩

theorem countRange_aside (s : State) (host : Bool) (bow n : Nat) : Aside s (countRange s host bow n) := .ite ⟨rfl, rfl⟩ ⟨rfl, rfl⟩

/-! ## A lookup and a read of the write data buffer leave the channels alone -/

/-- The channels' controllers stay as they are. -/
def SameDmc (s t : State) : Prop := t.dmc = s.dmc

theorem SameDmc.refl (s : State) : SameDmc s s := rfl

theorem SameDmc.trans {s t u : State} (h : SameDmc s t) (k : SameDmc t u) : SameDmc s u := Eq.trans k h

theorem SameDmc.ite {s a b : State} {c : Prop} [Decidable c] (ha : SameDmc s a) (hb : SameDmc s b) : SameDmc s (if c then a else b) := by
  split
  · exact ha
  · exact hb

theorem SameDmc.wr {s t : State} (h : SameDmc s t) (f : Fld) (v i j : Nat) : SameDmc s (t.wr f v i j) := h.trans rfl

theorem SameDmc.raiseG {s t : State} (h : SameDmc s t) (src : Nat) (v : Sev) (unit value : Nat) : SameDmc s (t.raiseG src v unit value) := by
  obtain ⟨-, -, -, -, -, -, -, -, -, -, -, -, hdmc, -⟩ := (t.raiseG_reach src v unit value []).same
  exact h.trans hdmc

theorem SameDmc.dmcOf {s t : State} (h : SameDmc s t) (ch : Nat) : t.dmcOf ch = s.dmcOf ch := by rw [State.dmcOf, h, State.dmcOf]

theorem dropClean_dmc (s : State) (sl : Nat) (ls : List (Nat × Nat)) : SameDmc s (dropClean s sl ls) :=
  List.foldlRecOn (motive := SameDmc s) ls _ (.refl s) fun _ ht _ _ => ht

theorem abandonOp_dmc (s : State) (sl : Nat) : SameDmc s (abandonOp s sl) := by
  unfold abandonOp
  split
  · exact .refl s
  · exact rfl

theorem sliceFault_dmc (sl cause : Nat) (s : State) : SameDmc s (sliceFault sl cause s) := by
  have hkeep (t : State) : SameDmc t (keepDirty (abandonOp t sl) sl) := (abandonOp_dmc ..).trans (dropClean_dmc ..)
  have hdrain (t : State) : SameDmc t (startDrain t sl) := (hkeep t).wr ..
  have hlose (t : State) : SameDmc t (loseLine t sl) := rfl
  unfold sliceFault
  extract_lets clean sev u v
  have hv : SameDmc s v := ((((SameDmc.refl s).wr ..).wr ..).raiseG ..).trans (.ite (hlose _) (.refl _))
  exact .ite (.refl s) (.ite (hv.wr ..) (.ite (hv.trans (abandonOp_dmc ..)) (.ite (hv.trans (hkeep v)) (hv.trans (hdrain v)))))

theorem lookup_dmc (s : State) (ch c kind : Nat) : SameDmc s (lookup s ch c kind) := by
  have hfix (t : State) (set w : Nat) : SameDmc t (tagFix t ch set w kind) := .ite rfl rfl
  have htags : SameDmc s (tagLookup s ch c kind) := .ite (.refl s) (SameDmc.trans (t := s.draw.2) rfl (hfix ..))
  exact .ite (.refl s) (.ite (sliceFault_dmc ..) htags)

theorem dipLog_dmc (s : State) (l : List Nat) : SameDmc s (dipLog s l) := .ite rfl rfl

theorem arrayWord_dmc (s : State) (ue : Bool) (src ch idx info req : Nat) (dom : Option Nat) :
    SameDmc s (arrayWord s ue src ch idx info req dom) := by
  unfold arrayWord
  extract_lets u key
  have hv : SameDmc s (u.draws 2).2 := rfl
  generalize u.draws 2 = e at hv ⊢
  obtain ⟨vs, v⟩ := e
  have hlog (l : List Nat) : SameDmc s (dipLog v l) := hv.trans (dipLog_dmc ..)
  have hstamp (l : List Nat) (m : SMap Nat) : SameDmc s { dipLog v l with dip.lastCe := m } := hlog l
  exact .ite (hlog _) (.ite (hstamp ..) hv)

theorem bufferWord_dmc (s : State) (src out ch : Nat) (r : Req) (x : Sector) : SameDmc s (bufferWord s src out ch r x) := by
  unfold bufferWord
  refine .ite (.refl s) ?_
  have hu : SameDmc s s.draw.2 := rfl
  generalize s.draw = e at hu ⊢
  obtain ⟨v, u⟩ := e
  have hx := hu.trans (arrayWord_dmc u (out == 2) src ch (v % 2 ^ 15) (beatInfo x 0)
    (if r.iss = .host then (if r.op = .rd then 0 else 1) else 6) (if r.iss = .host then some r.p.dom else none))
  exact .ite (hx.raiseG ..) hx

theorem readBuffer_dmc (r : Req) (s : State) (sec out : Nat) : SameDmc s (readBuffer r s sec out) := by
  unfold readBuffer
  split
  · exact .refl s
  next q _ =>
    extract_lets u
    have hu : SameDmc s u := bufferWord_dmc ..
    have hset (q' : Req) : SameDmc s (setReq u q') := hu
    exact .ite (hset _) hu

/-! ## An entry that is issued stays issued -/

/-- Range work (R132). -/
def RangeOp (o : ROp) : Prop := o = .flush ∨ o = .zero

/-- A request of operation `o` that has been issued, and that cannot leave the buffer: it is not answered, or it is range work not yet performed. -/
def InService (o : ROp) (q : Req) : Prop := q.issued = true ∧ q.op = o ∧ (q.sent = false ∨ RangeOp o ∧ q.performed = false)

/-- Entry `i` is in service. -/
def Serves (i : Nat) (o : ROp) (s : State) : Prop := ∃ q, findReq s i = some q ∧ InService o q

/-- What may become of a request while others are served and it is too: an issue is not taken back, and range work is not performed by the way. -/
def Advances (r r' : Req) : Prop :=
  r'.op = r.op ∧ r'.sent = r.sent ∧ (r.issued = true → r'.issued = true) ∧ (RangeOp r.op → r'.performed = r.performed)

theorem InService.advances {o : ROp} {r r' : Req} (h : InService o r) (hadv : Advances r r') : InService o r' := by
  obtain ⟨hissued, hop, hstay⟩ := h
  obtain ⟨hop', hsent, hissued', hperf⟩ := hadv
  refine ⟨hissued' hissued, hop'.trans hop, hstay.imp hsent.trans fun ⟨hrange, hnot⟩ => ⟨hrange, (hperf (hop ▸ hrange)).trans hnot⟩⟩

theorem Serves.of_aside {i : Nat} {o : ROp} {s t : State} (h : Serves i o s) (ha : Aside s t) : Serves i o t := by
  obtain ⟨q, hq, hin⟩ := h
  exact ⟨q, (ha.findReq i).trans hq, hin⟩

/-- A request is replaced by what it becomes. -/
theorem Serves.setReq {i : Nat} {o : ROp} {s : State} {r r' : Req} (h : Serves i o s) (hfind : findReq s r.id = some r) (hid : r'.id = r.id)
    (hadv : InService o r → Advances r r') : Serves i o (setReq s r') := by
  obtain ⟨q, hq, hin⟩ := h
  by_cases heq : r'.id = i
  · have hrq : r = q := Option.some.inj (hfind.symm.trans (by rw [← hid, heq]; exact hq))
    subst hrq
    exact ⟨r', findReq_setReq_same hq heq, hin.advances (hadv hin)⟩
  · exact ⟨q, (findReq_setReq_ne heq).trans hq, hin⟩

theorem Serves.sweep {i : Nat} {o : ROp} {s : State} (h : Serves i o s) : Serves i o (sweep s) := by
  obtain ⟨q, hq, hin⟩ := h
  refine ⟨q, ?_, hin⟩
  show (s.rqe.reqs.filter fun q => !(q.sent && q.pend.isEmpty && q.performed)).find? (fun q => q.id == i) = some q
  rw [List.find?_filter]
  obtain ⟨hp, as, bs, heq, has⟩ := List.find?_eq_some_iff_append.1 hq
  refine List.find?_eq_some_iff_append.2 ⟨?_, as, bs, heq, fun x hx => ?_⟩
  · obtain ⟨-, -, hsent | ⟨-, hperf⟩⟩ := hin
    · simpa [hsent] using hp
    · simpa [hperf] using hp
  · have hother := has x hx
    simp_all

/-- Entry `i` stays in service. -/
def KeepsServing (i : Nat) (o : ROp) (s t : State) : Prop := Serves i o s → Serves i o t

theorem KeepsServing.foldl {i : Nat} {o : ROp} {α : Type} {f : State → α → State} (hf : ∀ t x, KeepsServing i o t (f t x)) (s : State) (l : List α) :
    KeepsServing i o s (l.foldl f s) :=
  fun h => List.foldlRecOn (motive := Serves i o) l f h fun t ht x _ => hf t x ht

theorem KeepsServing.ite {i : Nat} {o : ROp} {c : Prop} [Decidable c] {s a b : State} (ha : KeepsServing i o s a) (hb : KeepsServing i o s b) :
    KeepsServing i o s (if c then a else b) := by
  split
  · exact ha
  · exact hb

/-- A request that is performed: what it does aside, and the mark. -/
theorem Serves.markPerformed {i : Nat} {o : ROp} {s : State} {r r' : Req} (h : Serves i o s) (hfind : findReq s r.id = some r) (hid : r'.id = r.id)
    (hadv : InService o r → Advances r { r' with performed := true, visible := true }) : Serves i o (markPerformed s r') :=
  (h.setReq (r' := { r' with performed := true, visible := true }) hfind hid hadv).of_aside (markPerformed_aside s r')

/-! ### Order -/

theorem waitHazard_serves {i : Nat} {o : ROp} {s : State} {r : Req} (hfind : findReq s r.id = some r) : KeepsServing i o s (waitHazard s r) :=
  .ite id fun h => (h.of_aside ((Aside.refl s).inc ..)).setReq hfind rfl fun _ => ⟨rfl, rfl, id, fun _ => rfl⟩

theorem forward_serves {i : Nat} {o : ROp} {s : State} {r : Req} (hfind : findReq s r.id = some r) (hop : ¬ RangeOp r.op) :
    KeepsServing i o s (forward s r) := by
  intro h
  unfold forward
  extract_lets got lost code codes r' u
  have hu : Aside s u := by
    refine .foldl (fun t x => ?_) s _
    split
    · exact .ite (.refl t) (countPoison_aside ..)
    · exact .refl t
  have hinc := hu.inc F.RQE_FWD_FWD_SECT got.length 0 0
  exact (h.of_aside hinc).markPerformed ((hinc.findReq _).trans hfind) rfl fun _ => ⟨rfl, rfl, fun _ => rfl, fun hrange => absurd hrange hop⟩

theorem settleOne_serves (i : Nat) (o : ROp) (s : State) (j : Nat) : KeepsServing i o s (settleOne s j) := by
  intro h
  unfold settleOne
  split
  · exact h
  next r hget =>
    have hfind : findReq s r.id = some r := by rw [findReq_id hget, hget]
    have hmark (c : Option Cpl) (hop : ¬ RangeOp r.op) : Serves i o (markPerformed s { r with cpl := c }) :=
      h.markPerformed hfind rfl fun _ => ⟨rfl, rfl, id, fun hrange => absurd hrange hop⟩
    have hnot {o' : ROp} (heq : r.op = o') (hne : ¬ RangeOp o') : ¬ RangeOp r.op := heq ▸ hne
    split
    · exact h
    · split
      next hop => exact hmark r.cpl (hnot hop (by simp [RangeOp]))
      next hop =>
        have hplain := hnot hop (by simp [RangeOp])
        have hhaz : Aside s (if hazard s r then s.inc F.RQE_HAZ_HAZ_WAIT else s) := .ite ((Aside.refl s).inc ..) (.refl s)
        split
        · exact hmark _ hplain
        · exact (h.of_aside hhaz).markPerformed ((hhaz.findReq _).trans hfind) rfl fun _ => ⟨rfl, rfl, id, fun hrange => absurd hrange hplain⟩
      next hop =>
        split
        · exact forward_serves hfind (hnot hop (by simp [RangeOp])) h
        · exact waitHazard_serves hfind h
      · exact h
      · exact h
      next hop =>
        split
        · exact hmark _ (hnot hop (by simp [RangeOp]))
        · exact h
      · exact waitHazard_serves hfind h

theorem settle_serves {i : Nat} {o : ROp} (s : State) : KeepsServing i o s (settle s) :=
  fun h => (KeepsServing.foldl (settleOne_serves i o) s _ h).sweep

/-- Sectors are gone through, each of which keeps the entry in service, and then order is looked at. -/
theorem Serves.foldl_settle {i : Nat} {o : ROp} {α : Type} {s : State} {f : State → α → State} (h : Serves i o s) (l : List α)
    (hf : ∀ t x, Serves i o t → Serves i o (f t x)) : Serves i o (settle (l.foldl f s)) := settle_serves _ (KeepsServing.foldl hf s l h)

/-! ### Reads -/

/-- Another operation than range work receives a sector. -/
theorem gotSector_serves {i : Nat} {o : ROp} (ho : ¬ RangeOp o) (s : State) (id sec : Nat) (x : Sector) (c : Code) (ch : Nat) :
    KeepsServing i o s (gotSector s id sec x c ch) := by
  intro h
  unfold gotSector
  split
  · exact h
  next r hget =>
    split
    · exact h
    · extract_lets code u r'
      have hu : Aside s u := countPoison_aside ..
      have hfind : findReq u r.id = some r := (hu.findReq _).trans (by rw [findReq_id hget, hget])
      have hplain (hin : InService o r) : ¬ RangeOp r.op := hin.2.1 ▸ ho
      split
      · exact (h.of_aside hu).markPerformed hfind rfl fun hin => ⟨rfl, rfl, fun hi => hi, fun hrange => absurd hrange (hplain hin)⟩
      · exact (h.of_aside hu).setReq hfind rfl fun hin => ⟨rfl, rfl, fun hi => hi, fun hrange => absurd hrange (hplain hin)⟩

/-- A sector that is not in the slice joins the fill under way, or is read from DRAM with or without a fill of its own. -/
theorem readSector_serves {i : Nat} {o : ROp} (ho : ¬ RangeOp o) (r : Req) (s : State) (sec out : Nat) :
    KeepsServing i o s (readSector r s sec out) := by
  intro h
  unfold readSector
  rcases hplace : place s sec with ⟨ch, c⟩
  dsimp -zeta only
  split
  · exact gotSector_serves ho _ _ _ _ _ _ h
  · extract_lets u out' e miss
    have hu : Serves i o u := h.of_aside (lookup_aside ..)
    have hmiss (t : State) (ht : Serves i o t) : Serves i o (miss t) := by
      unfold miss
      split
      · extract_lets d
        split
        · exact gotSector_serves ho _ _ _ _ _ _ ht
        · exact ht.of_aside ⟨rfl, rfl⟩
      · extract_lets v
        have hv : Serves i o v := ht.of_aside ((Aside.refl t).inc ..)
        split
        · have halloc := allocate_aside v ch c r
          split
          next u w heq =>
            rw [heq] at halloc
            exact hv.of_aside ((halloc.setLine ..).trans (queueRead_aside ..))
          next u heq =>
            rw [heq] at halloc
            exact hv.of_aside (halloc.trans (queueRead_aside ..))
        · exact hv.of_aside (queueRead_aside ..)
    split
    · exact gotSector_serves ho _ _ _ _ _ _ (hu.of_aside ((Aside.refl u).inc ..))
    · split
      next x w _ _ =>
        extract_lets v dirty t
        have hv : Aside u v := sliceFound_aside ..
        have ht : Aside u t := hv.trans (sliceDecode_aside ..)
        have hserved (t : State) (ht : Aside u t) (x : Sector) (k : Code) :
            Serves i o (gotSector (t.inc F.SCC_RD_HIT_RD_HIT 1 ch) r.id sec x k ch) :=
          gotSector_serves ho _ _ _ _ _ _ (hu.of_aside (ht.inc ..))
        split
        · exact hserved _ (hv.trans (touchWay_aside ..)) _ _
        · split
          · exact hserved _ ht _ _
          · exact hmiss _ (hu.of_aside ht)
      · exact hmiss _ hu

/-- A read that is issued is in service when its sectors have been asked for. -/
theorem issueRead_serves {s : State} {r : Req} (outs : List Nat) (hfind : findReq s r.id = some r) (hop : r.op = .rd) (hissued : r.issued = false)
    (hperf : r.performed = false) (hsent : r.sent = false) (hfree : hazard s r = false)
    (hrows : ((sectorsOf r).any fun x => rowHeld s (place s x).1 (place s x).2) = false) : Serves r.id .rd (issueRead s r outs) := by
  have hgo : (r.issued || r.performed || hazard s r || (sectorsOf r).any fun x => rowHeld s (place s x).1 (place s x).2) = false := by
    rw [hissued, hperf, hfree, hrows]
    rfl
  have hput : Serves r.id .rd (setReq s { r with issued := true }) := ⟨_, findReq_setReq_same hfind rfl, rfl, hop, .inl hsent⟩
  unfold issueRead
  rw [if_neg (by rw [hgo]; exact Bool.false_ne_true)]
  exact hput.foldl_settle _ fun t e => readSector_serves (by simp [RangeOp]) r t e.1 _

/-! ### Writes and range work -/

/-- One of a request's sectors is written. -/
theorem wrote_serves {i : Nat} {o : ROp} (s : State) (id sec : Nat) : KeepsServing i o s (wrote s id sec) := by
  intro h
  unfold wrote
  split
  · exact h
  next r hget => exact h.setReq (r := r) (by rw [findReq_id hget, hget]) rfl fun _ => ⟨rfl, rfl, fun hi => hi, fun _ => rfl⟩

theorem Serves.wrote {i : Nat} {o : ROp} {s t : State} (h : Serves i o s) (ht : Aside s t) (id sec : Nat) : Serves i o (wrote t id sec) :=
  wrote_serves _ _ _ (h.of_aside ht)

theorem writeSector_serves {i : Nat} {o : ROp} (id : Nat) (s : State) (sec out : Nat) : KeepsServing i o s (writeSector id s sec out) := by
  intro h
  unfold writeSector
  split
  · exact h
  next r _ =>
    rcases hplace : place s sec with ⟨ch, c⟩
    dsimp -zeta only
    split
    · exact h
    · split
      · exact h.wrote (dramWrite_aside ..) _ _
      · extract_lets u x queue done miss
        have hu : Serves i o u := h.of_aside (lookup_aside ..)
        have hqueue (t : State) (ht : Aside u t) : Serves i o (queue t) := hu.of_aside (ht.trans (queueWrite_aside ..))
        have hdone (t : State) (ht : Aside u t) : Serves i o (done t) := by
          unfold done
          split
          · exact hqueue t ht
          · exact hu.wrote ht _ _
        split
        · split
          · exact hu.wrote ((victimWrite_aside ..).inc ..) _ _
          · exact hu
        · have hmiss : Serves i o (miss u) := by
            unfold miss
            have hinc : Aside u (u.inc F.SCC_WR_MISS_WR_MISS 1 ch) := (Aside.refl u).inc ..
            split
            · split
              · exact hu
              · have halloc := hinc.trans (allocate_aside (u.inc F.SCC_WR_MISS_WR_MISS 1 ch) ch c r)
                split
                next t w heq =>
                  rw [heq] at halloc
                  exact hdone _ (halloc.trans (cacheWrite_aside ..))
                next t heq =>
                  rw [heq] at halloc
                  exact hqueue _ halloc
            · exact hqueue _ hinc
          split
          · extract_lets st
            split
            · exact hu
            · split
              · exact hqueue _ ((Aside.refl u).inc ..)
              · split
                · exact hmiss
                · split
                  · exact hdone _ (((touchWay_aside ..).inc ..).trans (cacheWrite_aside ..))
                  · exact hu
          · exact hmiss

/-- The range engine issues a sector of its work. -/
theorem sectorIssued_serves {i : Nat} {o : ROp} (s : State) (id sec : Nat) : KeepsServing i o s (sectorIssued s id sec) := by
  intro h
  unfold sectorIssued
  split
  · exact h
  next r hget =>
    have hput := h.setReq (r := r) (r' := { r with todo := dropSector r.todo sec }) (by rw [findReq_id hget, hget]) rfl
      fun _ => ⟨rfl, rfl, fun hi => hi, fun _ => rfl⟩
    exact hput.of_aside (countRange_aside ..)

theorem zeroSectorAt_serves {i : Nat} {o : ROp} (r : Req) (s : State) (sec : Nat) : KeepsServing i o s (zeroSectorAt r s sec) := by
  intro h
  unfold zeroSectorAt
  rcases hplace : place s sec with ⟨ch, c⟩
  extract_lets go
  dsimp -zeta only
  extract_lets queue miss
  have hgo : Serves i o (go s) := sectorIssued_serves s _ _ h
  have hqueue (t : State) (ht : Aside (go s) t) : Serves i o (queue t) := hgo.of_aside (ht.trans (queueWrite_aside ..))
  have hmiss : Serves i o (miss s) := by
    unfold miss
    split
    · exact h
    · exact hqueue _ ((Aside.refl _).inc ..)
  split
  · exact hgo.wrote (dramWrite_aside ..) _ _
  · split
    · exact hgo.wrote ((victimWrite_aside ..).inc ..) _ _
    · split
      · split
        · exact hmiss
        · extract_lets t v
          have hv : Aside (go s) v := .inc (.trans (.ite ((Aside.refl _).moveWay ..) (.refl _)) (cacheWrite_aside ..)) ..
          split
          · exact hqueue _ hv
          · exact hgo.wrote hv _ _
      · exact hmiss

theorem flushSectorAt_serves {i : Nat} {o : ROp} (r : Req) (s : State) (sec : Nat) : KeepsServing i o s (flushSectorAt r s sec) := by
  intro h
  have hgo : Serves i o (sectorIssued s r.id sec) := sectorIssued_serves s _ _ h
  unfold flushSectorAt
  rcases hplace : place s sec with ⟨ch, c⟩
  dsimp only
  split
  · exact h
  · split
    · split
      · exact hgo.of_aside (queueWrite_aside ..)
      · exact hgo.wrote (cleanHalf_aside ..) _ _
    · exact hgo.wrote (.refl _) _ _

theorem rangeIssue_serves {i : Nat} {o : ROp} (s : State) (id : Nat) : KeepsServing i o s (rangeIssue s id) := by
  intro h
  unfold rangeIssue
  split
  · exact h
  next r _ =>
    split
    · exact h
    · exact h.foldl_settle _ fun t x => KeepsServing.ite (.ite (zeroSectorAt_serves r t x) (flushSectorAt_serves r t x)) fun ht => ht

/-- Range work that is worked on already, or is the first that is not and finds fewer than four at work, is in service. -/
theorem issueRange_serves {s : State} {r : Req} (hfind : findReq s r.id = some r) (hop : RangeOp r.op) (hperf : r.performed = false)
    (hturn : r.issued = true ∨ (s.rqe.reqs.filter fun q => (q.op == .flush || q.op == .zero) && q.issued && !q.performed).length < 4 ∧
      (s.rqe.reqs.find? fun q => (q.op == .flush || q.op == .zero) && !q.issued && !q.performed).map (·.id) = some r.id) :
    Serves r.id r.op (issueRange s r) := by
  have hput : Serves r.id r.op (setReq s { r with issued := true }) := ⟨_, findReq_setReq_same hfind rfl, rfl, rfl, .inr ⟨hop, hperf⟩⟩
  have hrun : issueRange s r = rangeIssue (setReq s { r with issued := true }) r.id := by
    refine if_neg ?_
    rcases hturn with hissued | ⟨hfew, hfirst⟩
    · simp [hperf, hissued]
    · simp [hperf, hfirst, Nat.not_le.2 hfew]
  rw [hrun]
  exact rangeIssue_serves _ _ hput

/-! ### The write data buffer is read before an entry is in service -/

/-- Entry `i` bears an operation and is answered or not. -/
def Found (i : Nat) (o : ROp) (sent : Bool) (s : State) : Prop := ∃ q, findReq s i = some q ∧ q.op = o ∧ q.sent = sent

theorem Found.of_aside {i : Nat} {o : ROp} {b : Bool} {s t : State} (h : Found i o b s) (ha : Aside s t) : Found i o b t := by
  obtain ⟨q, hq, hrest⟩ := h
  exact ⟨q, (ha.findReq i).trans hq, hrest⟩

/-- Whatever the buffer has lost of it, the entry is there. -/
theorem readBuffer_found {o : ROp} {b : Bool} (r : Req) {s : State} (sec out : Nat) (h : Found r.id o b s) :
    Found r.id o b (readBuffer r s sec out) := by
  obtain ⟨q, hq, hop, hsent⟩ := h
  unfold readBuffer
  rw [hq]
  dsimp -zeta only
  extract_lets u
  have hu : findReq u r.id = some q := ((bufferWord_aside ..).findReq _).trans hq
  split
  · exact ⟨_, findReq_setReq_same hu (findReq_id (r := q) hq), hop, hsent⟩
  · exact ⟨q, hu, hop, hsent⟩

/-- Mark the entry `i` issued. -/
def markIssued (i : Nat) (s : State) : State :=
  match findReq s i with
  | some q => setReq s { q with issued := true }
  | none => s

theorem markIssued_found {i : Nat} {o : ROp} {b : Bool} {s : State} (h : Found i o b s) :
    ∃ q, findReq (markIssued i s) i = some q ∧ q.issued = true ∧ q.op = o ∧ q.sent = b := by
  obtain ⟨q, hq, hop, hsent⟩ := h
  refine ⟨{ q with issued := true }, ?_, rfl, hop, hsent⟩
  rw [markIssued, hq]
  exact findReq_setReq_same hq (findReq_id (r := q) hq)

/-- A write that is not answered is in service when its sectors have been offered. -/
theorem issueWrite_serves {s : State} {r : Req} (outs : List Nat) (hfind : findReq s r.id = some r) (hsent : r.sent = false) :
    Serves r.id r.op (issueWrite s r outs) := by
  have hfound : Found r.id r.op false s := ⟨r, hfind, rfl, hsent⟩
  unfold issueWrite
  extract_lets secs u
  have hu : Found r.id r.op false u := by
    unfold u
    split
    · exact hfound
    · exact List.foldlRecOn (motive := Found r.id r.op false) _ _ hfound fun t ht e _ => readBuffer_found r _ _ ht
  obtain ⟨q, hq, hissued, hop, hopen⟩ := markIssued_found hu
  exact Serves.foldl_settle ⟨q, hq, hissued, hop, .inl hopen⟩ _ fun t e => writeSector_serves r.id t e.1 _

/-! ### The read-modify-write unit -/

/-- The unit of channel `ch` takes the request: nothing earlier holds its sector, the unit has room, and none of its operations is on the sector. -/
def UnitFree (s : State) (r : Req) (ch c : Nat) : Prop :=
  mayWrite s r.id (rmwSector r) = true ∧ rowHeld s ch c = false ∧ fillPending s ch c = false ∧
  (s.dmcOf ch).rmw.length + b2n (s.dmcOf ch).unitSc.isSome < 16 ∧ (s.dmcOf ch).rmw.any (·.sec == rmwSector r) = false ∧
  ((s.dmcOf ch).unitSc.any fun u => u.1 == sectorAt s ch c) = false

/-- Request `id` has entered the unit of channel `ch`, behind what was there in state `s`. -/
def EntersUnit (s t : State) (ch : Nat) (r : Req) : Prop :=
  ∃ q hit, (t.dmcOf ch).rmw = (s.dmcOf ch).rmw ++ [{ req := r.id, sec := rmwSector r, hit := hit }] ∧
    findReq t r.id = some q ∧ q.issued = true ∧ q.op = r.op

theorem State.dmcOf_setDmc_same (s : State) (ch : Nat) (d : Dmc) : (s.setDmc ch d).dmcOf ch = d := SMap.getD_put_same ..

theorem startWatch_rmw (s : State) (d : Dmc) : (startWatch s d).rmw = d.rmw := by
  unfold startWatch
  split <;> rfl

theorem queueRead_rmw (s : State) (ch : Nat) (e : DEnt) : ((queueRead s ch e).dmcOf ch).rmw = (s.dmcOf ch).rmw := by
  rw [queueRead, State.dmcOf_setDmc_same]
  exact startWatch_rmw ..

theorem markIssued_dmc (i : Nat) (s : State) : SameDmc s (markIssued i s) := by
  unfold markIssued
  split <;> rfl

/-- An operation joins the unit of a channel, whose watchdog it may start. -/
def joinUnit (s : State) (ch : Nat) (e : UEnt) : State :=
  s.setDmc ch { startWatch s (s.dmcOf ch) with rmw := (startWatch s (s.dmcOf ch)).rmw ++ [e] }

theorem joinUnit_rmw (s : State) (ch : Nat) (e : UEnt) : ((joinUnit s ch e).dmcOf ch).rmw = (s.dmcOf ch).rmw ++ [e] := by
  rw [joinUnit, State.dmcOf_setDmc_same]
  exact congrArg (· ++ [e]) (startWatch_rmw ..)

/-- The state after the lookup and the read of the slot of a request that the unit of channel `ch` takes. -/
def slotRead (s : State) (r : Req) (ch c out : Nat) : State := readBuffer r (lookup s ch c (out / 4)) (rmwSector r) (out % 4)

/-- What the unit's channel does for a request that it takes: after the read of its slot, the entry in the unit, and a DRAM read on a miss. -/
theorem issueRmw_of_free {s : State} {r : Req} {ch c : Nat} (out : Nat) (hplace : place s (rmwSector r) = (ch, c)) (hissued : r.issued = false)
    (hfree : UnitFree s r ch c) : ∃ (u : State) (hit : Bool) (d : DEnt), issueRmw s r out = (if hit then u else queueRead u ch d) ∧
      u = joinUnit (markIssued r.id (slotRead s r ch c out)) ch { req := r.id, sec := rmwSector r, hit := hit } := by
  obtain ⟨hmay, hrow, hfill, hroom, hone, hunit⟩ := hfree
  have hgo : (r.issued || !mayWrite s r.id (rmwSector r) || rowHeld s ch c || fillPending s ch c ||
      decide (16 ≤ (s.dmcOf ch).rmw.length + b2n (s.dmcOf ch).unitSc.isSome) || (s.dmcOf ch).rmw.any (·.sec == rmwSector r) ||
      ((s.dmcOf ch).unitSc.any fun u => u.1 == sectorAt s ch c)) = false := by
    rw [hissued, hmay, hrow, hfill, decide_eq_false (Nat.not_le.2 hroom), hone, hunit]
    rfl
  unfold issueRmw
  extract_lets sec
  rw [show place s sec = (ch, c) from hplace]
  dsimp -zeta only
  extract_lets d
  rw [if_neg (by rw [hgo]; exact Bool.false_ne_true)]
  exact ⟨_, _, _, rfl, rfl⟩

/-- A request that the unit takes is its newest entry, and is issued. -/
theorem issueRmw_enters {s : State} {r : Req} {ch c : Nat} (out : Nat) (hfind : findReq s r.id = some r) (hplace : place s (rmwSector r) = (ch, c))
    (hissued : r.issued = false) (hfree : UnitFree s r ch c) : EntersUnit s (issueRmw s r out) ch r := by
  obtain ⟨u, hit, d, hrun, hu⟩ := issueRmw_of_free out hplace hissued hfree
  have hfound : Found r.id r.op r.sent (slotRead s r ch c out) := readBuffer_found r _ _ (Found.of_aside ⟨r, hfind, rfl, rfl⟩ (lookup_aside ..))
  have hdmc : SameDmc s (markIssued r.id (slotRead s r ch c out)) := ((lookup_dmc ..).trans (readBuffer_dmc ..)).trans (markIssued_dmc ..)
  obtain ⟨q, hq, hissued', hop, -⟩ := markIssued_found hfound
  have hrmw : (u.dmcOf ch).rmw = (s.dmcOf ch).rmw ++ [{ req := r.id, sec := rmwSector r, hit := hit }] := by rw [hu, joinUnit_rmw, hdmc.dmcOf]
  have hq' : findReq u r.id = some q := by rw [hu]; exact hq
  rw [hrun]
  refine ⟨q, hit, ?_⟩
  split
  · exact ⟨hrmw, hq', hissued', hop⟩
  · exact ⟨(queueRead_rmw ..).trans hrmw, hq', hissued', hop⟩

/-! ## The command REQUEST_ISSUE (R130) -/

theorem exec_requestIssue (id : Nat) (outs : List Nat) (s : State) : exec (.requestIssue id outs) s = .next (issue id outs s) := rfl

/-- What the operation of a request asks for once nothing holds the request. -/
def issueFree (s : State) (r : Req) (outs : List Nat) : State :=
  match r.op with
  | .rd => issueRead s r outs
  | .wr => if r.visible then issueWrite s r outs else s
  | .wrp => if r.pend.isEmpty then s else issueRmw s r (outs.getD 0 0)
  | .flush | .zero => issueRange s r
  | .fence => s
  | _ => issueRmw s r (outs.getD 0 0)

/-- `ORD` or a FENCE holds the request. -/
theorem issue_held {s : State} {id : Nat} {r : Req} (outs : List Nat) (hfind : findReq s id = some r)
    (hheld : ordBlocked s r = true ∨ fenceBlocked s r = true) : issue id outs s = s := by
  unfold issue
  rw [hfind]
  refine if_pos ?_
  rcases hheld with h | h <;> simp [h]

/-- Where FAB runs, and neither order nor a lost context holds it, the request goes to the unit of its operation. -/
theorem issue_free {s : State} {id : Nat} {r : Req} (outs : List Nat) (hfind : findReq s id = some r)
    (hpow : s.pck.pow = .run ∨ s.pck.pow = .idle ∨ s.pck.pow = .entering) (hfab : s.pck.fabDown = false) (hord : ordBlocked s r = false)
    (hfence : fenceBlocked s r = false) (hctx : r.iss = .host → s.dip.ctxLost.contains r.p.bow = false) : issue id outs s = issueFree s r outs := by
  have hknown : (r.iss == .host && s.dip.ctxLost.contains r.p.bow) = false := by
    by_cases hhost : r.iss = .host
    · rw [hctx hhost, Bool.and_false]
    · rw [beq_eq_false_iff_ne.2 hhost, Bool.false_and]
  unfold issue
  rw [hfind]
  refine if_neg ?_
  rw [hfab, hord, hfence, hknown]
  rcases hpow with hpow | hpow | hpow <;> rw [hpow] <;> decide

/-! ## A packet that waits is taken (R117) -/

theorem exec_waitingPacketAdmit (g : Fin 16) (s : State) :
    exec (.waitingPacketAdmit g) s = .next (settle (takeWaiting (SMap.getD s.rqe.waiting g.val []).length s g.val)) := rfl

/-- The numbers still rise when order has been looked at. -/
theorem settle_idsRise {s : State} (hids : IdsRise s) : IdsRise (settle s) := by
  have hall : InPlace s ((s.rqe.reqs.map (·.id)).foldl settleOne s) :=
    List.foldlRecOn (motive := InPlace s) _ _ (.refl s) fun t ht id _ => ht.trans (settleOne_inPlace id (ht.idsRise hids))
  exact (hall.idsRise hids).sub ids_filter rfl

/-- And when a packet has been admitted. -/
theorem admitPacket_idsRise {s : State} (o : ROp) (p : Vc0) (runs : List (Nat × Nat)) (hids : IdsRise s) : IdsRise (admitPacket s o p .host runs) := by
  obtain ⟨r, u, hrun, hcore, hreqs, hnext, -⟩ := admitPacket_enters s o p runs
  rw [hrun]
  exact settle_idsRise (hids.push r (congrArg Prod.fst hcore) hreqs hnext)

/-- The one packet that waits at a group's head passes the checks, finds room in a cycle with room, and becomes an entry with the next number. -/
theorem takeWaiting_admits {s : State} {g : Nat} {p : Vc0} {o : ROp} (hwait : SMap.getD s.rqe.waiting g [] = [p]) (hids : IdsRise s) (hcan : CanTake s)
    (hok : admitCheck s p = .ok) (hop : opOf p.opc = some o) (hroom : hasRoom s o p = true) :
    IdsRise (takeWaiting 1 s g) ∧ SMap.getD (takeWaiting 1 s g).rqe.waiting g [] = [] ∧ (takeWaiting 1 s g).rqe.nextId = s.rqe.nextId + 1 ∧
    ∃ q ∈ (takeWaiting 1 s g).rqe.reqs, q.id = s.rqe.nextId ∧ q.sent = false := by
  have hids' : IdsRise (countTaken s) := hids
  obtain ⟨⟨q, hq, hcore⟩, hnext, -⟩ := admitPacket_spec o p ((runsOf s o p).getD []) hids'
  have hempty (m : SMap (List Vc0)) : SMap.getD (SMap.put m g [] []) g [] = [] := SMap.getD_put_same ..
  rw [takeWaiting_one hwait (takePacket_ok hcan hok hop hroom)]
  exact ⟨admitPacket_idsRise o p _ hids', hempty _, hnext, q, hq, congrArg Prod.fst hcore, congrArg (·.2.2.2.2) hcore⟩

/-- Settles O30: the taken packet's entry outlives each look at order, since the numbers rise; and an issue puts the entry in service, where neither its own
sectors nor another look at order takes it out again. -/
theorem waitingPacketsAndIssue : Obligations.WaitingPacketsAndIssue := by
  unfold Obligations.WaitingPacketsAndIssue
  refine ⟨fun s g p o hwait hids hrej hopen hcycle hok hop hroom => ?_, fun s id outs r hfind hheld => ?_,
    fun s id outs r hfind hpow hfab hord hfence hctx => ?_⟩
  · obtain ⟨hids', hempty, hnext, q, hq, hid, hsent⟩ := takeWaiting_admits hwait hids ⟨hrej, hopen, hcycle⟩ hok hop hroom
    obtain ⟨⟨q', hq', hcore⟩, hnext', -⟩ := settle_keeps_unsent hids' hq hsent
    obtain ⟨-, -, hwaiting⟩ := settle_sameQueues (takeWaiting 1 s g.val)
    exact ⟨_, q', by rw [exec_waitingPacketAdmit, hwait]; rfl, by rw [hwaiting, hempty], hq', (congrArg Prod.fst hcore).trans hid, hnext'.trans hnext⟩
  · rw [exec_requestIssue, issue_held outs hfind hheld]
  · have hrun := (exec_requestIssue id outs s).trans (congrArg Host.Outcome.next (issue_free outs hfind hpow hfab hord hfence hctx))
    obtain rfl : r.id = id := findReq_id hfind
    refine ⟨fun hop hperf hturn => ?_, fun hop hissued hmay hrow hfill hroom hone hunit => ?_, fun hop hissued hperf hsent hfree hrows => ?_,
      fun hop hvis hsent => ?_⟩
    · have hrange : issueFree s r outs = issueRange s r := by
        unfold issueFree
        rcases hop with hop | hop <;> rw [hop]
      obtain ⟨q, hq, hissued, hop', -⟩ := issueRange_serves hfind hop hperf hturn
      exact ⟨_, q, hrun.trans (congrArg _ hrange), hq, hissued, hop'⟩
    · have hunit' : issueFree s r outs = issueRmw s r (outs.getD 0 0) := by
        unfold issueFree
        rcases hop with hop | ⟨hop, hpend⟩
        · cases h : r.op <;> simp [h, isAtomic] at hop ⊢
        · rw [hop]
          exact if_neg (by simp [hpend])
      obtain ⟨q, hit, hrmw, hq, hissued', hop'⟩ := issueRmw_enters (outs.getD 0 0) hfind rfl hissued ⟨hmay, hrow, hfill, hroom, hone, hunit⟩
      exact ⟨_, q, hit, hrun.trans (congrArg _ hunit'), hrmw, hq, hissued', hop'⟩
    · have hread : issueFree s r outs = issueRead s r outs := by
        unfold issueFree
        rw [hop]
      obtain ⟨q, hq, hissued', -⟩ := issueRead_serves outs hfind hop hissued hperf hsent hfree hrows
      exact ⟨_, q, hrun.trans (congrArg _ hread), hq, hissued'⟩
    · have hwrite : issueFree s r outs = issueWrite s r outs := by
        unfold issueFree
        rw [hop]
        exact if_pos hvis
      obtain ⟨q, hq, hissued', -⟩ := issueWrite_serves outs hfind hsent
      exact ⟨_, q, hrun.trans (congrArg _ hwrite), hq, hissued'⟩

end Sys2Proof.Machine


/-! SUPPORT. A mailbox command that its sender may send (R12, R279, R280): what it comes to is what its body comes to. -/

namespace Sys2Proof.Machine

/-! ## The checks before the body -/

/-- A command of `n` payload bytes has all of them in its buffer. -/
theorem cmdPayload_length {s : State} {m n : Nat} (h : cmdLen s m = n) (hn : n ≤ 4080) : (cmdPayload s m).length = n := by
  simp [cmdPayload, bufGet, h, Nat.min_eq_left hn]

/-- Command `opc` of mailbox `m` passes the checks of R12 that come before its body. -/
structure MayRun (s : State) (m opc : Nat) (who : State → Nat → Bool) (n : Nat) (lease : Option Nat) : Prop where
  inHand : InHand s m opc
  right : who (renewed s m) m = true
  length : cmdLen s m = n
  fits : n ≤ 4080
  leased : lease.all (fun i => leaseOf s m (cmdLease s m) == some i) = true

theorem renewed_rd (s : State) (m : Nat) (f : Fld) (i j : Nat) : (renewed s m).rd f i j = s.rd f i j := by
  rw [State.rd, (renewed_frame s m).1, State.rd]

/-- Renewing a lease leaves the store, the regulator and the service host's authentication. -/
theorem renewed_more (s : State) (m : Nat) : (renewed s m).pst = s.pst ∧ (renewed s m).reg = s.reg ∧ (renewed s m).mgt.auth = s.mgt.auth := by
  unfold renewed
  split
  · exact ⟨rfl, rfl, rfl⟩
  · exact ⟨rfl, rfl, rfl⟩

theorem renewed_isP (s : State) (m k : Nat) : isP (renewed s m) k = isP s k := by
  rw [isP, (renewed_more s m).2.2, isP]

/-- Who is P is T as well. -/
theorem isPT_of_isP {s : State} {m : Nat} (h : isP s m = true) : isPT s m = true := by
  simp only [isP, Bool.or_eq_true, Bool.and_eq_true, beq_iff_eq] at h
  rcases h with rfl | ⟨-, hauth⟩
  · rfl
  · simp [isPT, hauth]

theorem renewed_isPT {s : State} {m : Nat} (h : isP s m = true) : isPT (renewed s m) m = true := isPT_of_isP ((renewed_isP s m m).trans h)

/-- What the answer of a command waits for, once its body has come to `r`. -/
def awaitOf (r : Reply) : Await := if r.c = .ok then r.await.getD (.due .ok 0 r.pay) else .due r.c r.detail []

/-- The state that a command leaves, once its body has come to `r`: the body's, if it is accepted. -/
def stateOf (u : State) (r : Reply) : State := if r.c = .ok ∨ r.keep = true then r.st else u

theorem stateOf_accepted (u : State) {r : Reply} (h : r.c = .ok) : stateOf u r = r.st := if_pos (.inl h)

theorem awaitOf_accepted {r : Reply} (h : r.c = .ok) : awaitOf r = r.await.getD (.due .ok 0 r.pay) := if_pos h

/-- A command that passes the checks before its body is executed, and answered, as its body says. -/
theorem runCmd_runs {s : State} {m opc n : Nat} {who : State → Nat → Bool} {lease : Option Nat} (h : MayRun s m opc who n lease)
    {lenOk : List Byte → Bool} (hlen : lenOk (cmdPayload s m) = true) (body : State → List Byte → Reply) :
    runCmd m opc who lenOk lease body s =
      (stateOf (renewed s m) (body (renewed s m) (cmdPayload s m))).modMbx m fun x =>
        { x with ran := true, journal := true, await := awaitOf (body (renewed s m) (cmdPayload s m)) } := by
  obtain ⟨⟨hbusy, hran, hopc, hserves, hsup⟩, hright, hn, hfits, hleased⟩ := h
  have hsup' : supported (renewed s m) m opc = true := by
    rw [← hsup]
    unfold supported recovery State.rd
    rw [(renewed_frame s m).1]
  unfold runCmd
  rw [if_neg (by simp [hbusy, hran, hopc, hserves])]
  extract_lets p held t leased r pre c t' aw
  have ht : t = renewed s m := rfl
  clear_value t
  subst ht
  have hheld : leased = true := by
    unfold leased
    cases lease with
    | none => rfl
    | some i => simpa using hleased
  have hcmd : cmdLen (renewed s m) m = n := by
    rw [← hn]
    unfold renewed
    split <;> rfl
  have hpre : pre = .ok := by
    unfold pre
    rw [hsup', hright, hlen, hheld, hcmd, decide_eq_true hfits]
    rfl
  have hc : c = r.c := by
    unfold c
    rw [hpre, firstCode_ok_left]
  have ht' : t' = stateOf (renewed s m) r := by
    unfold t'
    rw [hc]
    simp only [stateOf, and_true]
  have haw : aw = awaitOf r := by
    unfold aw
    rw [hc, if_pos rfl]
    rfl
  rw [ht', haw]

/-- A command whose body accepts it leaves the body's state. -/
theorem runCmd_accepted {s : State} {m opc n : Nat} {who : State → Nat → Bool} {lease : Option Nat} (h : MayRun s m opc who n lease)
    {lenOk : List Byte → Bool} (hlen : lenOk (cmdPayload s m) = true) {body : State → List Byte → Reply} {r : Reply}
    (hbody : body (renewed s m) (cmdPayload s m) = r) (hok : r.c = .ok) :
    runCmd m opc who lenOk lease body s =
      r.st.modMbx m fun x => { x with ran := true, journal := true, await := r.await.getD (.due .ok 0 r.pay) } := by
  rw [runCmd_runs h hlen body, hbody, stateOf_accepted _ hok, awaitOf_accepted hok]

/-- A command whose body refuses it, and keeps nothing, leaves the renewed lease only. -/
theorem runCmd_refused {s : State} {m opc n : Nat} {who : State → Nat → Bool} {lease : Option Nat} (h : MayRun s m opc who n lease)
    {lenOk : List Byte → Bool} (hlen : lenOk (cmdPayload s m) = true) {body : State → List Byte → Reply} {r : Reply}
    (hbody : body (renewed s m) (cmdPayload s m) = r) (hno : r.c ≠ .ok) (hkeep : r.keep = false) :
    runCmd m opc who lenOk lease body s =
      (renewed s m).modMbx m fun x => { x with ran := true, journal := true, await := .due r.c r.detail [] } := by
  rw [runCmd_runs h hlen body, hbody, stateOf, if_neg (by simp [hno, hkeep]), awaitOf, if_neg hno]

/-- The command is answered as its body says. -/
theorem Answered.of_runs {t u : State} {m : Nat} {aw : Await} (h : t = u.modMbx m fun x => { x with ran := true, journal := true, await := aw }) :
    Answered t m aw := by
  rw [h]
  unfold Answered
  rw [State.modMbx_mbx_same]
  exact ⟨rfl, rfl, rfl⟩

/-! ## Commands that read -/

/-- A command whose body only reads gives the payload that it reads, and changes nothing. -/
theorem runCmd_reads {s : State} {m opc n : Nat} {who : State → Nat → Bool} {lease : Option Nat} (h : MayRun s m opc who n lease)
    {lenOk : List Byte → Bool} (hlen : lenOk (cmdPayload s m) = true) {body : State → List Byte → Reply} {p : List Byte}
    (hbody : body (renewed s m) (cmdPayload s m) = replyWith (renewed s m) p) : ReadsOnly s (runCmd m opc who lenOk lease body s) m p := by
  have hrun := runCmd_accepted h hlen hbody rfl
  obtain ⟨hregs, hmem, hrqe, hlink⟩ := renewed_frame s m
  obtain ⟨hpst, -⟩ := renewed_more s m
  refine ⟨.of_runs hrun, ?_⟩
  rw [hrun, State.modMbx_regs, State.modMbx_mem, State.modMbx_rqe, State.modMbx_link, State.modMbx_pst]
  exact ⟨hregs, hmem, hrqe, hlink, hpst⟩

/-! ## Commands that write registers -/

/-- A command whose writes are all accepted leaves what they leave, and their note. -/
theorem replyWrites_accepted {s : State} {m : Nat} {ws : List FwWrite} (hok : (fwWrites s m ws).c = .ok) (pay : List Byte) :
    replyWrites s m .ok ws pay = { st := noteApplied (fwWrites s m ws).st m ws, pay := pay, await :=
      if (fwWrites s m ws).waits = 0 then none else some (.words (fwWrites s m ws).waits false pay) } := by
  unfold replyWrites
  simp only [firstCode_ok_left]
  rw [if_pos hok]

/-- A command whose body is its writes is written, if they are all accepted. -/
theorem runCmd_writes {s : State} {m opc n : Nat} {who : State → Nat → Bool} {lease : Option Nat} (h : MayRun s m opc who n lease)
    {lenOk : List Byte → Bool} (hlen : lenOk (cmdPayload s m) = true) {body : State → List Byte → Reply} {ws : List FwWrite} {pay : List Byte}
    (hbody : body (renewed s m) (cmdPayload s m) = replyWrites (renewed s m) m .ok ws pay) (hacc : Accepted s m ws) :
    Written s (runCmd m opc who lenOk lease body s) m ws pay := by
  have hrun := runCmd_accepted h hlen (hbody.trans (replyWrites_accepted hacc pay)) rfl
  have hanswer := Answered.of_runs hrun
  refine ⟨by rw [hrun, State.modMbx_regs]; rfl, by rw [hrun, State.modMbx_mem]; rfl, ?_⟩
  split
  next hwaits => rwa [if_pos hwaits] at hanswer
  next hwaits => rwa [if_neg hwaits] at hanswer

/-- A test that holds comes to no code. -/
@[simp] theorem need_true (c : Code) : need true c = .ok := rfl

end Sys2Proof.Machine


/-! SUPPORT. A register write by the firmware (R280): accepted, it stores its fields and does the register's own action, and the settings read back as
written. -/

namespace Sys2Proof.Machine

/-! ## One place of the register store -/

/-- The place `k` of the register store stays. -/
def PlaceKept (k : Nat) (s t : State) : Prop := RegsKept (· != k) s t

theorem RegsKept.only {P : Nat → Bool} {s t : State} (h : RegsKept P s t) {k : Nat} (hk : P k = false) : PlaceKept k s t :=
  ⟨fun x hx => h.get x (by rw [bne_eq_false_iff_eq.1 hx]; exact hk)⟩

theorem PlaceKept.rd {s t : State} {f : Fld} {i j : Nat} (h : PlaceKept (f.at i j) s t) : t.rd f i j = s.rd f i j := RegsKept.rd h f i j (bne_self_eq_false _)

theorem PlaceKept.wr {k : Nat} {s t : State} (h : PlaceKept k s t) {f : Fld} {i j : Nat} (v : Nat) (hne : f.at i j ≠ k) : PlaceKept k s (t.wr f v i j) :=
  RegsKept.wr h f v i j (bne_iff_ne.2 hne)

theorem recordAcc_placeKept (s : State) {who : Nat} (wr : Bool) (off : Nat) (c : Code) (d : Nat) (hw : who < 18) {k : Nat} (hk : lasPlace k = false) :
    PlaceKept k s (recordAcc s who wr off c d) := by
  obtain ⟨regs, heq, hregs⟩ := recordAcc_reach s who wr off c d hw
  rw [heq]
  exact ⟨fun x hx => hregs x (by rw [bne_eq_false_iff_eq.1 hx]; exact hk)⟩

/-- Storing a register's fields leaves a place that is none of theirs. -/
theorem storeFields_placeKept (s : State) {r : RegId} {i j : Nat} (v : Nat) (may : Fld → Bool) {k : Nat} (hk : ∀ x ∈ r.info.flds, x.at i j ≠ k) :
    PlaceKept k s (storeFields s r i j v may) := by
  rw [storeFields_eq]
  refine List.foldlRecOn (motive := PlaceKept k s) _ _ (RegsKept.refl s) fun t ht f hf => ?_
  unfold storeField
  split
  · exact ht
  · split
    · exact ht.wr _ (hk f hf)
    · exact ht.wr _ (hk f hf)
    · exact ht
    · exact ht.wr _ (hk f hf)
    · exact ht.wr _ (hk f hf)
    · exact ht

/-! ## The word of a firmware write -/

/-- Fields lie apart from one another in the word. -/
@[reducible] def Apart (fs : List Fld) : Prop := fs.Pairwise fun a b => a.lo + a.w ≤ b.lo ∨ b.lo + b.w ≤ a.lo

theorem val_withBits_of_apart (w : Nat) (fs : List (Fld × Nat)) {f : Fld} (h : ∀ g ∈ fs, f.lo + f.w ≤ g.1.lo ∨ g.1.lo + g.1.w ≤ f.lo) :
    f.val (withBits w fs) = f.val w := by
  induction fs generalizing w with
  | nil => rfl
  | cons g r ih =>
    obtain ⟨hg, hr⟩ := List.forall_mem_cons.1 h
    show f.val (withBits (setBits w g.1.lo g.1.w g.2) r) = _
    rw [ih _ hr]
    exact bits_setBits_apart w g.2 hg

/-- Each field that the write sets holds its value in the word. -/
theorem val_withBits_mem (w : Nat) {fs : List (Fld × Nat)} (hapart : Apart (fs.map Prod.fst)) {f : Fld} {x : Nat} (hf : (f, x) ∈ fs) :
    f.val (withBits w fs) = x % 2 ^ f.w := by
  induction fs generalizing w with
  | nil => exact absurd hf List.not_mem_nil
  | cons g r ih =>
    obtain ⟨hg, hr⟩ := List.pairwise_cons.1 hapart
    have hg' : ∀ e ∈ r, g.1.lo + g.1.w ≤ e.1.lo ∨ e.1.lo + e.1.w ≤ g.1.lo := fun e he => hg e.1 (List.mem_map_of_mem he)
    show f.val (withBits (setBits w g.1.lo g.1.w g.2) r) = _
    rcases List.mem_cons.1 hf with rfl | hf
    · rw [val_withBits_of_apart _ _ hg']
      exact bits_setBits_same ..
    · exact ih _ hr hf

/-! ## An accepted write -/

/-- A write ends done with OK, with what its register's own action leaves, or is refused. -/
def TakenOrRefused (hook : Hook) (e : WriteEnd × State) : Prop :=
  hook.1 = .ok ∧ e = (.done .ok 0, hook.2.2) ∨ ∃ c d u, c ≠ .ok ∧ e = (.done c d, u)

theorem TakenOrRefused.refused {hook : Hook} {c : Code} (d : Nat) (s : State) (hc : c ≠ .ok) : TakenOrRefused hook (.done c d, s) :=
  .inr ⟨c, d, s, hc, rfl⟩

theorem TakenOrRefused.ite {hook : Hook} {c : Prop} [Decidable c] {a b : WriteEnd × State} (ha : c → TakenOrRefused hook a)
    (hb : ¬ c → TakenOrRefused hook b) : TakenOrRefused hook (if c then a else b) := by
  split
  next h => exact ha h
  next h => exact hb h

/-- The checks of a write of a register that stores nothing in MRAM (R12): each refuses, or the register's own action decides. -/
theorem writeReg_taken_or_refused {s : State} {who : Nat} {org : Origin} {r : RegId} {i0 j v : Nat}
    (hp : persistWord s r (ownIdx r who i0) (writtenWord s who r i0 v) = none) :
    TakenOrRefused (writeHook s who r i0 j v) (writeReg s who org r i0 j v) := by
  unfold writtenWord at hp
  unfold writeHook writtenWord writeReg
  simp only [hp]
  generalize regHook s (storeFields s r (ownIdx r who i0) j v (mayField (letters s r who (ownIdx r who i0) true))) r who (ownIdx r who i0) j
    (maskedWord r v (mayField (letters s r who (ownIdx r who i0) true))) = hook
  refine .ite (fun _ => .refused _ _ (by decide)) fun _ => .ite (fun _ => .refused _ _ (by decide)) fun _ => .ite (fun _ => .refused _ _ (by decide))
    fun _ => .ite (fun _ => .refused _ _ (by decide)) fun _ => .ite (fun _ => .refused _ _ (by decide)) fun _ =>
    .ite (fun _ => .refused _ _ (by decide)) fun _ => .ite (fun _ => .refused _ _ (by decide)) fun _ =>
    .ite (fun hno => .refused _ _ hno.1) fun _ => .ite (fun hok => .inl ⟨hok, rfl⟩) fun hno => .refused _ _ hno

/-- A register that is not banked and that stores nothing in MRAM. -/
def Volatile (r : RegId) : Prop := r.info.reach ≠ .banked ∧ ∀ s i m, persistWord s r i m = none

theorem Volatile.ownIdx {r : RegId} (h : Volatile r) (who i : Nat) : ownIdx r who i = i := if_neg h.1

/-- The word of a firmware write. -/
def fwWord (s : State) (r : RegId) (i j : Nat) (fs : List (Fld × Nat)) : Nat := withBits (baseWord s r i j) fs

/-- What a firmware write leaves of the registers once it is accepted, and what it finds. -/
structure WriteTaken (a b : Writes) (r : RegId) (i j : Nat) (fs : List (Fld × Nat)) : Prop where
  before : a.c = .ok
  fits : ∀ f ∈ fs, f.2 < 2 ^ f.1.w
  action : (writeHook (judgedIn a r i) 17 r i j (fwWord a.st r i j fs)).1 = .ok
  regs : b.st.regs = (recordAcc (writeHook (judgedIn a r i) 17 r i j (fwWord a.st r i j fs)).2.2 17 true (regOffset r i j) .ok 0).regs
  waits : b.waits = a.waits

/-- A code that is no later than another's is not OK unless that is. -/
theorem firstCode_ne_ok {a c : Code} (hc : c ≠ .ok) : firstCode a c ≠ .ok := by
  intro h
  have hrank := (firstCode_spec a c).2.2
  rw [h] at hrank
  exact hc (eq_ok_of_codeRank c hrank)

/-- An accepted write finds an acceptance before it, fits its fields, and is taken by its register's own action. -/
theorem fwWrite_taken {m : Nat} {a : Writes} {r : RegId} {i j : Nat} {fs : List (Fld × Nat)} (hv : Volatile r)
    (hok : (fwWrite m a (r, i, j, fs)).c = .ok) : WriteTaken a (fwWrite m a (r, i, j, fs)) r i j fs := by
  unfold fwWrite at hok ⊢
  dsimp only at hok ⊢
  split at hok
  · exact absurd hok (firstCode_ne_ok (by decide))
  next hfits =>
    rw [if_neg hfits]
    have hfits' : ∀ f ∈ fs, f.2 < 2 ^ f.1.w := by simpa using hfits
    rcases writeReg_taken_or_refused (s := judgedIn a r i) (org := .mailbox m) (j := j) (v := withBits (baseWord a.st r i j) fs)
      (hv.2 _ _ _ : persistWord (judgedIn a r i) r (ownIdx r 17 i) _ = none) with ⟨haction, hrun⟩ | ⟨c, d, u, hc, hrun⟩
    · rw [hrun] at hok ⊢
      dsimp only at hok ⊢
      unfold joinRange at hok ⊢
      split
      next hrange =>
        rw [if_pos hrange] at hok
        exact ⟨hok, hfits', haction, rfl, rfl⟩
      next hrange =>
        rw [if_neg hrange] at hok
        exact ⟨hok, hfits', haction, rfl, rfl⟩
    · rw [hrun] at hok
      have hlater : codeRank c < codeRank .ok := by
        revert hc
        cases c <;> decide
      split at hok
      next heq => exact absurd (WriteEnd.done.inj (Prod.mk.inj heq).1).1 hc
      next heq =>
        obtain ⟨rfl, -⟩ := WriteEnd.done.inj (Prod.mk.inj heq).1
        split at hok
        · exact absurd hok hc
        next hrank => exact absurd (hok ▸ hlater) hrank
      next heq => exact WriteEnd.noConfusion (Prod.mk.inj heq).1

/-! ## What an accepted write leaves -/

/-- A register's own action, where it accepts, leaves the place `k` as it was in `t`. -/
def Leaves (k : Nat) (t : State) (hook : Hook) : Prop := hook.1 = .ok → PlaceKept k t hook.2.2

theorem Leaves.okH {k : Nat} {t u : State} (h : PlaceKept k t u) : Leaves k t (okH u) := fun _ => h

theorem Leaves.noH {k : Nat} {t : State} (s : State) {c : Code} (hc : c ≠ .ok) : Leaves k t (noH s c) := fun h => absurd h hc

theorem Leaves.ite {k : Nat} {t : State} {c : Prop} [Decidable c] {a b : Hook} (ha : Leaves k t a) (hb : Leaves k t b) :
    Leaves k t (if c then a else b) := by
  split
  · exact ha
  · exact hb

/-- An accepted firmware write leaves the place `k`: it is none of its fields', and its own action does not write it; nor does what
joins the two halves of a range change. -/
structure LeavesPlace (k : Nat) (r : RegId) (i j : Nat) : Prop where
  volatile : Volatile r
  fields : ∀ x ∈ r.info.flds, x.at i j ≠ k
  action : ∀ s t m, Leaves k t (regHook s t r 17 i j m)
  judged : isRangeReg r = true → F.REG_BOW_EN_BOW_BUSY.at i 0 ≠ k

theorem judgedIn_placeKept {k : Nat} {a : Writes} {r : RegId} {i : Nat} (h : isRangeReg r = true → F.REG_BOW_EN_BOW_BUSY.at i 0 ≠ k) :
    PlaceKept k a.st (judgedIn a r i) := by
  unfold judgedIn
  split
  next hrange =>
    simp only [Bool.and_eq_true] at hrange
    exact PlaceKept.wr (RegsKept.refl _) 0 (h hrange.2)
  · exact .refl _

theorem fwWrite_leaves {k m : Nat} {a : Writes} {w : FwWrite} (h : LeavesPlace k w.1 w.2.1 w.2.2.1) (hlas : lasPlace k = false)
    (hok : (fwWrite m a w).c = .ok) : a.c = .ok ∧ PlaceKept k a.st (fwWrite m a w).st := by
  obtain ⟨r, i, j, fs⟩ := w
  obtain ⟨hbefore, -, haction, hregs, -⟩ := fwWrite_taken h.volatile hok
  refine ⟨hbefore, AgreeOff.trans (judgedIn_placeKept h.judged) ?_⟩
  have hstored := storeFields_placeKept (judgedIn a r i) (fwWord a.st r i j fs)
    (mayField (letters (judgedIn a r i) r 17 (ownIdx r 17 i) true)) h.fields
  have hidx : ownIdx r 17 i = i := h.volatile.ownIdx 17 i
  unfold writeHook at haction hregs
  rw [hidx] at haction hregs hstored
  have hacted := h.action _ _ _ haction
  have hrecorded := recordAcc_placeKept (regHook (judgedIn a r i) (storeFields (judgedIn a r i) r i j (fwWord a.st r i j fs)
    (mayField (letters (judgedIn a r i) r 17 i true))) r 17 i j (writtenWord (judgedIn a r i) 17 r i (fwWord a.st r i j fs))).2.2
    true (regOffset r i j) .ok 0 (by decide : 17 < 18) hlas
  have hall := (hstored.trans hacted).trans hrecorded
  exact ⟨fun x hx => by rw [hregs]; exact hall.get x hx⟩

/-- Accepted writes each of which leaves a place leave it. -/
theorem fwWrites_leave {k m : Nat} {ws : List FwWrite} {a : Writes} (h : ∀ w ∈ ws, LeavesPlace k w.1 w.2.1 w.2.2.1) (hlas : lasPlace k = false)
    (hok : (ws.foldl (fwWrite m) a).c = .ok) : a.c = .ok ∧ PlaceKept k a.st (ws.foldl (fwWrite m) a).st := by
  induction ws generalizing a with
  | nil => exact ⟨hok, .refl _⟩
  | cons w ws ih =>
    obtain ⟨hw, hws⟩ := List.forall_mem_cons.1 h
    obtain ⟨hmid, hrest⟩ := ih hws hok
    obtain ⟨hbefore, hone⟩ := fwWrite_leaves hw hlas hmid
    exact ⟨hbefore, AgreeOff.trans hone hrest⟩

/-! ## What an accepted write sets -/

/-- A plain field that the firmware may write, and that the register's own action leaves as stored. -/
structure Settable (f : Fld) (r : RegId) (i j : Nat) : Prop where
  volatile : Volatile r
  mem : f ∈ r.info.flds
  plain : f.acc = .rw
  may : mayField 8 f = true
  places : (r.info.flds.map Fld.key).Nodup
  strides : ∀ x ∈ r.info.flds, x.s1 = f.s1 ∧ x.s2 = f.s2
  action : ∀ s t m, Leaves (f.at i j) t (regHook s t r 17 i j m)
  unrecorded : lasPlace (f.at i j) = false

theorem letters_firmware (s : State) (r : RegId) (i : Nat) (wr : Bool) : letters s r 17 i wr = 8 := rfl

/-- A field that an accepted write sets reads back as written. -/
theorem fwWrite_sets {m : Nat} {a : Writes} {r : RegId} {i j : Nat} {fs : List (Fld × Nat)} {f : Fld} {x : Nat}
    (h : Settable f r i j) (hapart : Apart (fs.map Prod.fst)) (hf : (f, x) ∈ fs) (hok : (fwWrite m a (r, i, j, fs)).c = .ok) :
    (fwWrite m a (r, i, j, fs)).st.rd f i j = x := by
  obtain ⟨hbefore, hfits, haction, hregs, -⟩ := fwWrite_taken h.volatile hok
  have hidx : ownIdx r 17 i = i := h.volatile.ownIdx 17 i
  unfold writeHook at haction hregs
  rw [hidx] at haction hregs
  have hstored : (storeFields (judgedIn a r i) r i j (fwWord a.st r i j fs) (mayField (letters (judgedIn a r i) r 17 i true))).rd f i j = x := by
    rw [letters_firmware, storeFields_rd_rw _ h.places h.strides h.mem h.plain h.may, fwWord, val_withBits_mem _ hapart hf]
    exact Nat.mod_eq_of_lt (hfits _ hf)
  have hacted := (h.action _ _ _ haction).rd
  have hrecorded := recordAcc_rd (regHook (judgedIn a r i) (storeFields (judgedIn a r i) r i j (fwWord a.st r i j fs)
    (mayField (letters (judgedIn a r i) r 17 i true))) r 17 i j (writtenWord (judgedIn a r i) 17 r i (fwWord a.st r i j fs))).2.2
    17 true (regOffset r i j) .ok 0 (by decide : 17 < 18) f i j h.unrecorded
  rw [State.rd, hregs]
  exact hrecorded.trans (hacted.trans hstored)

/-- A field that one of a command's writes sets, and that the writes after it leave, reads back as written. -/
theorem fwWrites_set {s : State} {m : Nat} {ws pre post : List FwWrite} {r : RegId} {i j : Nat} {fs : List (Fld × Nat)} {f : Fld} {x : Nat}
    (hws : ws = pre ++ (r, i, j, fs) :: post) (h : Settable f r i j) (hapart : Apart (fs.map Prod.fst)) (hf : (f, x) ∈ fs)
    (hpost : ∀ w ∈ post, LeavesPlace (f.at i j) w.1 w.2.1 w.2.2.1) (hok : (fwWrites s m ws).c = .ok) : (fwWrites s m ws).st.rd f i j = x := by
  subst hws
  unfold fwWrites at hok ⊢
  rw [List.foldl_append, List.foldl_cons] at hok ⊢
  obtain ⟨hmid, hkept⟩ := fwWrites_leave hpost h.unrecorded hok
  exact hkept.rd.trans (fwWrite_sets h hapart hf hmid)

end Sys2Proof.Machine


/-! SUPPORT. What the registers' own actions leave of the settings of configuration, regulation and cache (Tables 12.10 to 12.12). -/

namespace Sys2Proof.Machine

/-! ## Actions that store, or write besides what no setting holds -/

theorem PlaceKept.refl {k : Nat} (s : State) : PlaceKept k s s := RegsKept.refl s

theorem PlaceKept.trans {k : Nat} {s t u : State} (h : PlaceKept k s t) (g : PlaceKept k t u) : PlaceKept k s u := AgreeOff.trans h g

theorem PlaceKept.ite {k : Nat} {c : Prop} [Decidable c] {s a b : State} (ha : PlaceKept k s a) (hb : PlaceKept k s b) :
    PlaceKept k s (if c then a else b) := RegsKept.ite ha hb

theorem PlaceKept.foldl {k : Nat} {α : Type} {f : State → α → State} (hf : ∀ t x, PlaceKept k t (f t x)) (s : State) (l : List α) :
    PlaceKept k s (l.foldl f s) := RegsKept.foldl hf s l

theorem PlaceKept.inc {k : Nat} {s t : State} (h : PlaceKept k s t) {f : Fld} {i j : Nat} (n : Nat) (hne : f.at i j ≠ k) : PlaceKept k s (t.inc f n i j) :=
  h.wr _ hne

theorem PlaceKept.raiseG {k : Nat} {s t : State} (h : PlaceKept k s t) (src : Nat) (v : Sev) (unit value : Nat) (hk : raisePlace k = false) :
    PlaceKept k s (t.raiseG src v unit value) := by
  obtain ⟨regs, fc, p, d, w, heq, hregs⟩ := t.raiseG_reach src v unit value []
  refine h.trans ⟨fun x hx => ?_⟩
  rw [heq]
  exact hregs x (by rw [bne_eq_false_iff_eq.1 hx]; exact hk)

/-- Counters that are cleared lie elsewhere. -/
theorem clearFields_placeKept {k : Nat} (s : State) {fs : List Fld} {n : Nat} (h : ∀ f ∈ fs, ∀ i < n, f.at i 0 ≠ k) :
    PlaceKept k s (s.clearFields fs n) := by
  refine List.foldlRecOn (motive := PlaceKept k s) fs _ (.refl s) fun t ht f hf => ?_
  exact List.foldlRecOn (motive := PlaceKept k s) (List.range n) _ ht fun u hu i hi => hu.wr 0 (h f hf i (List.mem_range.1 hi))

section
variable {k : Nat} (s t : State) (i j m : Nat)

theorem rgnA_leaves : Leaves k t (regHook s t .RQE_RGN_A 17 i j m) := by
  have hstore : Leaves k t (okH t) := .okH (.refl t)
  exact .ite hstore (.ite (.ite (.noH s (by decide)) hstore) (.ite (.noH s (by decide)) hstore))

theorem rgnB_leaves : Leaves k t (regHook s t .RQE_RGN_B 17 i j m) := .ite (.noH s (by decide)) (.okH (.refl t))

theorem rqeCtl_leaves (h : ∀ f ∈ rqeCounters ++ rqeDomCounters, ∀ i < 16, f.at i 0 ≠ k) : Leaves k t (regHook s t .RQE_CTL 17 i j m) := by
  have hclear : PlaceKept k t (rqeClear t) :=
    (clearFields_placeKept (n := 1) t fun f hf i hi => h f (List.mem_append_left _ hf) i (by omega)).trans
      (clearFields_placeKept _ fun f hf => h f (List.mem_append_right _ hf))
  exact .ite (.noH s (by decide)) (.ite (.noH s (by decide)) (.okH (.ite hclear (.refl t))))

theorem domCtl_leaves (hengine : enginePlace k = false) (hen : F.RQE_DOM_CTL_EN.at i 0 ≠ k) (hbusy : F.RQE_DOM_CTL_PURGE_BUSY.at i 0 ≠ k) :
    Leaves k t (regHook s t .RQE_DOM_CTL 17 i j m) := by
  have hmark : PlaceKept k t (purgeMarked t i) := ((PlaceKept.refl t).wr 0 hen).wr 1 hbusy
  have hpurge : PlaceKept k t (startPurge i t) := hmark.trans ((startPurge_regs i t).only hengine)
  exact .ite (.noH s (by decide)) (.okH (.ite hpurge ((retake_regs t).only hengine)))

theorem crd_leaves : Leaves k t (regHook s t .HLL_CRD 17 i j m) := by
  have hstore : Leaves k t (okH t) := .okH (.refl t)
  exact .ite (.noH s (by decide)) (.ite (.noH s (by decide)) (.ite (.okH (.of_eq rfl)) hstore))

theorem hllCtl_leaves (hcnt : ∀ f ∈ hllCounters, ∀ g < 16, f.at g 0 ≠ k) (hturns : F.HLL_TURN_TURNS.at 0 0 ≠ k) :
    Leaves k t (regHook s t .HLL_CTL 17 i j m) := by
  have hclear : PlaceKept k t (hllClear t) := (clearFields_placeKept t hcnt).wr 0 hturns
  have hbalance (u : State) : PlaceKept k u (autoBalance u) := by
    obtain ⟨-, -, -, -, hregs, -⟩ := (autoBalance_reach u).same
    exact .of_eq hregs
  have hcleared : PlaceKept k t (if F.HLL_CTL_CNT_CLR.hit m then hllClear t else t) := .ite hclear (.refl t)
  exact .okH (.ite (hcleared.trans (hbalance _)) hcleared)

theorem class_leaves (h : F.REG_CLASS_KIND.at 7 0 ≠ k) : Leaves k t (regHook s t .REG_CLASS 17 i j m) := by
  have hkind : PlaceKept k t (t.wr F.REG_CLASS_KIND (s.rd F.REG_CLASS_KIND 7) 7) := (PlaceKept.refl t).wr _ h
  exact .ite (.okH hkind) (.ite (.noH s (by decide)) (.ite (.noH s (by decide)) (.okH (.refl t))))

theorem class2_leaves : Leaves k t (regHook s t .REG_CLASS2 17 i j m) := .okH (.refl t)

theorem regCtl_leaves : Leaves k t (regHook s t .REG_CTL 17 i j m) := .okH (.ite (.of_eq rfl) (.refl t))

theorem domWays_leaves : Leaves k t (regHook s t .SCC_DOM_WAYS 17 i j m) := .okH (.refl t)

theorem noteOvc_placeKept {u : State} (h : PlaceKept k s u) (was now' : Bool) (hk : raisePlace k = false) : PlaceKept k s (noteOvc u was now') :=
  .ite (h.raiseG 260 .warn 0 (rateSum u 1 + rateSum u 0) hk) h

theorem rsv_leaves (hsums : F.REG_RT_SUM_RT_SUM.at 0 0 ≠ k ∧ F.REG_LT_SUM_LT_SUM.at 0 0 ≠ k ∧ F.REG_S_OVC.at 0 0 ≠ k) (hk : raisePlace k = false) :
    Leaves k t (regHook s t .REG_RSV_A 17 i j m) := by
  obtain ⟨hrt, hlt, hovc⟩ := hsums
  have hgrant : PlaceKept k t (regrant t) := by
    unfold regrant
    generalize grantsFor t (t.rd F.REG_S_S_EST) = p
    have hput : PlaceKept k t (putSums t) := ((PlaceKept.refl t).wr _ hrt).wr _ hlt
    have hnote : PlaceKept k t { putSums t with reg.grantNext := some p.1, reg.sNext := (putSums t).reg.sNext.map fun (q : Nat × Bool × Bool × Nat × Nat) =>
        (q.1, p.2, q.2.2) } := hput.trans (.of_eq rfl)
    exact noteOvc_placeKept t (hnote.wr _ hovc) _ _ hk
  show Leaves k t (hookRsv s t i m)
  unfold hookRsv
  split
  · exact .okH hgrant
  next hno => exact .noH s hno

theorem hookBow_leaves (base last : Nat) (en : Bool) (h : F.REG_BOW_EN_BOW_BUSY.at i 0 ≠ k) : Leaves k t (hookBow s t i base last en) := by
  unfold hookBow
  split
  · exact .okH ((PlaceKept.refl t).wr 1 h)
  next hno => exact .noH s hno

end

/-! ## A group's control: what a loss of service writes -/

/-- The places of the link's limits of R58 and R60. -/
def LinkLimit (k : Nat) : Prop := k = F.HLL_CTL_NAK_LIMIT.at 0 0 ∨ k = F.HLL_CTL_ACK_TMO.at 0 0

/-- What a loss of service writes lies elsewhere. -/
structure ApartFromLoss (k : Nat) : Prop where
  retrains : ∀ g, F.HLP_RETRAIN_CNT_RETRAINS.at g 0 ≠ k
  injected : ∀ g, F.HLP_INJ_INJ_CNT.at g 0 ≠ k
  errors : ∀ g l, F.HLP_LN_ERR_ERRORS.at g l ≠ k
  check : ∀ g l, F.HLP_LN_CTL_CHK_EN.at g l ≠ k
  generate : ∀ g l, F.HLP_LN_CTL_GEN_EN.at g l ≠ k
  lost : ∀ d, F.RQE_DOM_USE_LINK_LOST.at d 0 ≠ k
  turn : F.HLL_TURN_TURN_RES.at 0 0 ≠ k
  event : raisePlace k = false

theorem LinkLimit.apart {k : Nat} (h : LinkLimit k) : ApartFromLoss k := by
  have hk : k = 4718608 ∨ k = 4718612 := h
  constructor
  case event => rcases hk with rfl | rfl <;> rfl
  case turn => rcases hk with rfl | rfl <;> decide
  all_goals
    intros
    simp only [Fld.at, F.HLP_RETRAIN_CNT_RETRAINS, F.HLP_INJ_INJ_CNT, F.HLP_LN_ERR_ERRORS, F.HLP_LN_CTL_CHK_EN, F.HLP_LN_CTL_GEN_EN, F.RQE_DOM_USE_LINK_LOST]
    omega

/-- A group's state is not in the registers. -/
theorem modGrp_placeKept {k : Nat} (s : State) (g : Nat) (f : Grp → Grp) : PlaceKept k s (s.modGrp g f) := .of_eq rfl

theorem LinkReach.placeKept {k : Nat} {s t : State} (hreach : LinkReach s t) : PlaceKept k s t := by
  obtain ⟨-, -, -, -, hregs, -⟩ := hreach.same
  exact .of_eq hregs

section
variable {k : Nat} (h : ApartFromLoss k)
include h

theorem endInjection_placeKept (s : State) (g : Nat) : PlaceKept k s (endInjection s g) :=
  .ite ((PlaceKept.refl s).wr _ (h.injected g)) (.refl s)

theorem sampleErrors_placeKept (s : State) (g l : Nat) : PlaceKept k s (sampleErrors s g l) :=
  .ite (.refl s) (.inc (.of_eq rfl) _ (h.errors g l))

theorem endTest_placeKept (s : State) (g l : Nat) : PlaceKept k s (endTest s g l) := by
  have hdrop : PlaceKept k s (if chkOwner (s.grp g) l = 0 then s else dropChecker s g l) :=
    .ite (.refl s) ((sampleErrors_placeKept h s g l).trans (.of_eq rfl))
  have hoff (f : Fld) (hf : f.at g l ≠ k) (t : State) : PlaceKept k t (if t.on f g l then t.wr f 0 g l else t) :=
    .ite ((PlaceKept.refl t).wr 0 hf) (.refl t)
  exact (hdrop.trans (hoff _ (h.check g l) _)).trans (hoff _ (h.generate g l) _)

theorem groupDetect_placeKept (s : State) (g : Nat) : PlaceKept k s (groupDetect s g) := by
  have hcount : PlaceKept k s (if (s.grp g).trained then s.inc F.HLP_RETRAIN_CNT_RETRAINS 1 g else s) :=
    .ite (.inc (.refl s) _ (h.retrains g)) (.refl s)
  have htests (t : State) : PlaceKept k t (endTests t g) := by
    unfold endTests
    exact .foldl (fun u l => endTest_placeKept h u g l) _ _
  have huse (t : State) : PlaceKept k t (endUse t g) := (endInjection_placeKept h t g).trans (htests _)
  unfold groupDetect
  exact (hcount.trans (huse _)).trans (modGrp_placeKept ..)

theorem countLost_placeKept (s : State) (ps : List (List Byte)) : PlaceKept k s (countLost s ps) := by
  refine .foldl (fun t p => ?_) s ps
  split
  next d n _ => exact .inc (.refl t) n (h.lost d)
  · exact .refl t

theorem wholeRetrain_placeKept (n : Nat) (s : State) : PlaceKept k s (wholeRetrain n s) := by
  have hdrop (t : State) : PlaceKept k t (dropLink t) := by
    unfold dropLink
    extract_lets flown u v
    have hcounted : PlaceKept k t u := (countLost_placeKept h t flown).trans (.of_eq rfl)
    exact hcounted.trans (.of_eq rfl)
  have hall (t : State) : PlaceKept k t (allDetect t) := by
    unfold allDetect
    exact .foldl (fun u g => (groupDetect_placeKept h u g).trans (modGrp_placeKept ..)) t _
  exact ((PlaceKept.raiseG (.refl s) 274 .fault 0 n h.event).trans (hdrop _)).trans (hall _)

theorem leaveService_placeKept (s : State) (g : Nat) : PlaceKept k s (leaveService s g) := by
  have hout : PlaceKept k s (s.modGrp g fun x => { x with inSvc := false }) := .of_eq rfl
  have hhome (t : State) : LinkReach t (fixHome (fixHome t false) true) := (fixHome_reach t false).trans (fixHome_reach _ true)
  have hsend (t : State) : LinkReach t (drain (autoBalance t)) := (autoBalance_reach t).trans (drain_reach _).toLink
  exact (hout.trans (hhome _).placeKept).trans (.ite (wholeRetrain_placeKept h _ _) (hsend _).placeKept)

theorem abandonTurnOf_placeKept (s : State) (g : Nat) : PlaceKept k s (abandonTurnOf s g) := by
  have hdrop (t : State) : PlaceKept k t (dropTurn t) := by
    unfold dropTurn
    split
    · exact .of_eq rfl
    · exact .refl t
  have hturn : PlaceKept k s (abandonTurn s .timeout) := by
    unfold abandonTurn
    extract_lets mine wait link u
    have hended : PlaceKept k s { s with link.turn := none, link.holdLost := s.link.holdLost || wait } := .of_eq rfl
    have hu : PlaceKept k s u := hended.trans (hdrop _)
    exact .ite (hu.wr _ h.turn) hu
  exact .ite hturn (.refl s)

theorem withdraw_placeKept (g : Nat) (toTest : Bool) (s : State) : PlaceKept k s (withdraw g toTest s) := by
  unfold withdraw
  extract_lets x was left turned
  have hleft : PlaceKept k s left := .ite (modGrp_placeKept ..) (groupDetect_placeKept h s g)
  have hturned : PlaceKept k s turned := (hleft.trans (abandonTurnOf_placeKept h left g)).trans (modGrp_placeKept ..)
  have hlost : PlaceKept k s { turned with link.items := turned.link.items ++ [lossItem g x] } := hturned.trans (.of_eq rfl)
  exact .ite hleft (hlost.trans (leaveService_placeKept h _ g))

theorem retrain_placeKept (s : State) (g : Nat) : PlaceKept k s (retrain s g) := by
  have hdetect := groupDetect_placeKept h s g
  exact .ite (.ite hdetect (.refl s)) (.ite hdetect (.ite (withdraw_placeKept h g false s) hdetect))

theorem hlpCtl_leaves (s t : State) (g j m : Nat) : Leaves k t (regHook s t .HLP_CTL 17 g j m) := by
  have htest : PlaceKept k t (if (F.HLP_CTL_TEST.hit m && !s.on F.HLP_CTL_TEST g) && ((s.grp g).gst == .active || (s.grp g).gst == .quiet)
      then withdraw g true t
      else if s.on F.HLP_CTL_TEST g && !F.HLP_CTL_TEST.hit m && (s.grp g).gst == .test then groupDetect t g else t) :=
    .ite (withdraw_placeKept h g true t) (.ite (groupDetect_placeKept h t g) (.refl t))
  exact .ite (.noH s (by decide)) (.ite (.noH s (by decide)) (.okH (.ite (htest.trans (retrain_placeKept h _ g)) htest)))

end

end Sys2Proof.Machine


/-! SUPPORT. The settings that the commands of Tables 12.10 to 12.12 name, and what their writes leave of one another. -/

namespace Sys2Proof.Machine

/-! ## Settings -/

/-- A plain field of a volatile register can be set, if the register's own action leaves it as stored. -/
theorem Settable.of_plain {f : Fld} {r : RegId} {i j : Nat} (hv : Volatile r)
    (hplain : f ∈ r.info.flds ∧ f.acc = .rw ∧ mayField 8 f = true ∧ (r.info.flds.map Fld.key).Nodup ∧
      ∀ x ∈ r.info.flds, x.s1 = f.s1 ∧ x.s2 = f.s2)
    (hat : 1600 ≤ f.at i j ∧ f.at i j < 2 ^ 28) (haction : ∀ s t m, Leaves (f.at i j) t (regHook s t r 17 i j m)) : Settable f r i j := by
  obtain ⟨hmem, hacc, hmay, hplaces, hstrides⟩ := hplain
  exact ⟨hv, hmem, hacc, hmay, hplaces, hstrides, haction, not_lasPlace hat.1 hat.2⟩

theorem volatile_rgnA : Volatile .RQE_RGN_A := ⟨by decide, fun _ _ _ => rfl⟩
theorem volatile_rgnB : Volatile .RQE_RGN_B := ⟨by decide, fun _ _ _ => rfl⟩
theorem volatile_rqeCtl : Volatile .RQE_CTL := ⟨by decide, fun _ _ _ => rfl⟩
theorem volatile_domCtl : Volatile .RQE_DOM_CTL := ⟨by decide, fun _ _ _ => rfl⟩
theorem volatile_crd : Volatile .HLL_CRD := ⟨by decide, fun _ _ _ => rfl⟩
theorem volatile_hllCtl : Volatile .HLL_CTL := ⟨by decide, fun _ _ _ => rfl⟩
theorem volatile_hlpCtl : Volatile .HLP_CTL := ⟨by decide, fun _ _ _ => rfl⟩
theorem volatile_class : Volatile .REG_CLASS := ⟨by decide, fun _ _ _ => rfl⟩
theorem volatile_class2 : Volatile .REG_CLASS2 := ⟨by decide, fun _ _ _ => rfl⟩
theorem volatile_regCtl : Volatile .REG_CTL := ⟨by decide, fun _ _ _ => rfl⟩
theorem volatile_rsv : Volatile .REG_RSV_A := ⟨by decide, fun _ _ _ => rfl⟩
theorem volatile_bow : Volatile .REG_BOW := ⟨by decide, fun _ _ _ => rfl⟩
theorem volatile_bowEn : Volatile .REG_BOW_EN := ⟨by decide, fun _ _ _ => rfl⟩
theorem volatile_domWays : Volatile .SCC_DOM_WAYS := ⟨by decide, fun _ _ _ => rfl⟩

theorem rgnA_settable {n : Nat} (hn : n < 64) : Settable F.RQE_RGN_A_RDOM .RQE_RGN_A n 0 ∧ Settable F.RQE_RGN_A_EN .RQE_RGN_A n 0 :=
  ⟨.of_plain volatile_rgnA (by decide) (by simp only [Fld.at, F.RQE_RGN_A_RDOM]; omega) fun s t => rgnA_leaves s t n 0,
    .of_plain volatile_rgnA (by decide) (by simp only [Fld.at, F.RQE_RGN_A_EN]; omega) fun s t => rgnA_leaves s t n 0⟩

theorem pbase_settable {n : Nat} (hn : n < 64) : Settable F.RQE_RGN_B_PBASE .RQE_RGN_B n 0 :=
  .of_plain volatile_rgnB (by decide) (by simp only [Fld.at, F.RQE_RGN_B_PBASE]; omega) fun s t => rgnB_leaves s t n 0

theorem rqeCtl_settable : Settable F.RQE_CTL_HASH_SEL .RQE_CTL 0 0 ∧ Settable F.RQE_CTL_CH_LSB .RQE_CTL 0 0 :=
  ⟨.of_plain volatile_rqeCtl (by decide) (by decide) fun s t m => rqeCtl_leaves s t 0 0 m (by decide),
    .of_plain volatile_rqeCtl (by decide) (by decide) fun s t m => rqeCtl_leaves s t 0 0 m (by decide)⟩

theorem rbCap_settable {d : Nat} (hd : d < 16) : Settable F.RQE_DOM_CTL_RB_CAP .RQE_DOM_CTL d 0 := by
  refine .of_plain volatile_domCtl (by decide) (by simp only [Fld.at, F.RQE_DOM_CTL_RB_CAP]; omega) fun s t m => domCtl_leaves s t d 0 m ?_ ?_ ?_
  · rw [Bool.eq_false_iff, Ne, enginePlace_iff]
    simp only [Fld.at, F.RQE_DOM_CTL_RB_CAP]
    omega
  · simp [Fld.at, F.RQE_DOM_CTL_EN, F.RQE_DOM_CTL_RB_CAP]
  · simp [Fld.at, F.RQE_DOM_CTL_PURGE_BUSY, F.RQE_DOM_CTL_RB_CAP]

theorem vc0Cap_settable {d : Nat} (hd : d < 16) : Settable F.HLL_CRD_VC0_CAP .HLL_CRD d 0 :=
  .of_plain volatile_crd (by decide) (by simp only [Fld.at, F.HLL_CRD_VC0_CAP]; omega) fun s t => crd_leaves s t d 0

theorem hllCtl_settable : Settable F.HLL_CTL_NAK_LIMIT .HLL_CTL 0 0 ∧ Settable F.HLL_CTL_ACK_TMO .HLL_CTL 0 0 :=
  ⟨.of_plain volatile_hllCtl (by decide) (by decide) fun s t m => hllCtl_leaves s t 0 0 m (by decide) (by decide),
    .of_plain volatile_hllCtl (by decide) (by decide) fun s t m => hllCtl_leaves s t 0 0 m (by decide) (by decide)⟩

/-- Class 7 alone has its kind kept by the register's own action. -/
theorem kind_settable {c : Nat} (hc : c < 7) : Settable F.REG_CLASS_KIND .REG_CLASS c 0 :=
  .of_plain volatile_class (by decide) (by simp only [Fld.at, F.REG_CLASS_KIND]; omega) fun s t m => class_leaves s t c 0 m
    (by simp only [Fld.at, F.REG_CLASS_KIND]; omega)

theorem ageQ_settable {c : Nat} (hc : c < 7) : Settable F.REG_CLASS2_AGE_Q .REG_CLASS2 c 0 :=
  .of_plain volatile_class2 (by decide) (by simp only [Fld.at, F.REG_CLASS2_AGE_Q]; omega) fun s t => class2_leaves s t c 0

theorem dlOfs_settable : Settable F.REG_CTL_DL_OFS .REG_CTL 0 0 :=
  .of_plain volatile_regCtl (by decide) (by decide) fun s t => regCtl_leaves s t 0 0

/-- The sums and `OVC` that a regrant writes lie below the reservations. -/
theorem rsv_settable {n : Nat} (hn : n < 64) : Settable F.REG_RSV_A_EN .REG_RSV_A n 0 ∧ Settable F.REG_RSV_A_RQ_RATE .REG_RSV_A n 0 := by
  have hleaves (k : Nat) (hlo : 5775360 ≤ k) (hhi : k < 5783552) (s t : State) (m : Nat) : Leaves k t (regHook s t .REG_RSV_A 17 n 0 m) := by
    refine rsv_leaves s t n 0 m ?_ ?_
    · simp only [Fld.at, F.REG_RT_SUM_RT_SUM, F.REG_LT_SUM_LT_SUM, F.REG_S_OVC]
      omega
    · simp only [raisePlace, Fld.at, F.MGT_QUIESCE_WE_STACK, Bool.or_eq_false_iff, beq_eq_false_iff_ne]
      omega
  constructor
  · exact .of_plain volatile_rsv (by decide) (by simp only [Fld.at, F.REG_RSV_A_EN]; omega)
      (hleaves _ (by simp only [Fld.at, F.REG_RSV_A_EN]; omega) (by simp only [Fld.at, F.REG_RSV_A_EN]; omega))
  · exact .of_plain volatile_rsv (by decide) (by simp only [Fld.at, F.REG_RSV_A_RQ_RATE]; omega)
      (hleaves _ (by simp only [Fld.at, F.REG_RSV_A_RQ_RATE]; omega) (by simp only [Fld.at, F.REG_RSV_A_RQ_RATE]; omega))

/-! ## Writes that leave a setting -/

/-- Fields of the same strides lie apart, index by index, if their first places do. -/
theorem at_ne_of_key {x f : Fld} (h : x.s1 = f.s1 ∧ x.s2 = f.s2 ∧ x.key ≠ f.key) (i j : Nat) : x.at i j ≠ f.at i j := by
  obtain ⟨h1, h2, hkey⟩ := h
  simp only [Fld.at, h1, h2]
  omega

/-- A field whose first place lies above. -/
theorem at_ne_of_above {x : Fld} {b k : Nat} (h : b ≤ x.key) (hk : k < b) (i j : Nat) : x.at i j ≠ k := by
  simp only [Fld.at]
  omega

/-- A field whose sixteen places all lie below. -/
theorem at_ne_of_below {x : Fld} {b k : Nat} (h : x.key + x.s1 * 15 < b ∧ x.s2 = 0) (hk : b ≤ k) {i : Nat} (hi : i < 16) (j : Nat) : x.at i j ≠ k := by
  obtain ⟨hlast, h2⟩ := h
  have hmul : x.s1 * i ≤ x.s1 * 15 := Nat.mul_le_mul_left _ (by omega)
  simp only [Fld.at, h2]
  omega

theorem LeavesPlace.of_other {k : Nat} {r : RegId} {i j : Nat} (hv : Volatile r) (hr : isRangeReg r = false) (hfields : ∀ x ∈ r.info.flds, x.at i j ≠ k)
    (haction : ∀ s t m, Leaves k t (regHook s t r 17 i j m)) : LeavesPlace k r i j :=
  ⟨hv, hfields, haction, fun h => absurd (hr.symm.trans h) Bool.false_ne_true⟩

theorem rgnA_leaves_pbase (n : Nat) : LeavesPlace (F.RQE_RGN_B_PBASE.at n 0) .RQE_RGN_A n 0 :=
  .of_other volatile_rgnA rfl
    (fun x hx => at_ne_of_key ((by decide : ∀ x ∈ RegId.RQE_RGN_A.info.flds, x.s1 = F.RQE_RGN_B_PBASE.s1 ∧ x.s2 = F.RQE_RGN_B_PBASE.s2 ∧
      x.key ≠ F.RQE_RGN_B_PBASE.key) x hx) n 0) fun s t => rgnA_leaves s t n 0

theorem class2_leaves_kind (c : Nat) : LeavesPlace (F.REG_CLASS_KIND.at c 0) .REG_CLASS2 c 0 :=
  .of_other volatile_class2 rfl
    (fun x hx => at_ne_of_key ((by decide : ∀ x ∈ RegId.REG_CLASS2.info.flds, x.s1 = F.REG_CLASS_KIND.s1 ∧ x.s2 = F.REG_CLASS_KIND.s2 ∧
      x.key ≠ F.REG_CLASS_KIND.key) x hx) c 0) fun s t => class2_leaves s t c 0

theorem hlpCtl_leaves_limit {k : Nat} (hk : LinkLimit k) {g : Nat} (hg : g < 16) : LeavesPlace k .HLP_CTL g 0 := by
  have hlo : 4718592 ≤ k := by
    rcases hk with rfl | rfl <;> decide
  exact .of_other volatile_hlpCtl rfl
    (fun x hx => at_ne_of_below ((by decide : ∀ x ∈ RegId.HLP_CTL.info.flds, x.key + x.s1 * 15 < 4718592 ∧ x.s2 = 0) x hx) hlo hg 0)
    fun s t => hlpCtl_leaves hk.apart s t g 0

/-- A place of the link's or the request engine's settings lies below the regulator's ranges. -/
theorem bow_leaves_lower {k : Nat} (hk : k < 5767168) (d : Nat) : LeavesPlace k .REG_BOW d 0 ∧ LeavesPlace k .REG_BOW_EN d 0 := by
  have hbusy : F.REG_BOW_EN_BOW_BUSY.at d 0 ≠ k := at_ne_of_above (by decide : 5767168 ≤ F.REG_BOW_EN_BOW_BUSY.key) hk d 0
  exact ⟨⟨volatile_bow, fun x hx => at_ne_of_above ((by decide : ∀ x ∈ RegId.REG_BOW.info.flds, 5767168 ≤ x.key) x hx) hk d 0,
      fun s t _ => hookBow_leaves s t d _ _ _ hbusy, fun _ => hbusy⟩,
    ⟨volatile_bowEn, fun x hx => at_ne_of_above ((by decide : ∀ x ∈ RegId.REG_BOW_EN.info.flds, 5767168 ≤ x.key) x hx) hk d 0,
      fun s t _ => hookBow_leaves s t d _ _ _ hbusy, fun _ => hbusy⟩⟩

theorem domWays_leaves_lower {k : Nat} (hk : k < 8388608) (sl p : Nat) : LeavesPlace k .SCC_DOM_WAYS sl p :=
  .of_other volatile_domWays rfl (fun x hx => at_ne_of_above ((by decide : ∀ x ∈ RegId.SCC_DOM_WAYS.info.flds, 8388608 ≤ x.key) x hx) hk sl p)
    fun s t => domWays_leaves s t sl p

theorem crd_leaves_rbCap {d : Nat} (hd : d < 16) : LeavesPlace (F.RQE_DOM_CTL_RB_CAP.at d 0) .HLL_CRD d 0 :=
  .of_other volatile_crd rfl
    (fun x hx => at_ne_of_below ((by decide : ∀ x ∈ RegId.HLL_CRD.info.flds, x.key + x.s1 * 15 < 5242880 ∧ x.s2 = 0) x hx)
      (by simp only [Fld.at, F.RQE_DOM_CTL_RB_CAP]; omega) hd 0) fun s t => crd_leaves s t d 0

theorem domCtl_leaves_vc0Cap {d : Nat} (hd : d < 16) : LeavesPlace (F.HLL_CRD_VC0_CAP.at d 0) .RQE_DOM_CTL d 0 := by
  have hk : F.HLL_CRD_VC0_CAP.at d 0 < 5242880 := by
    simp only [Fld.at, F.HLL_CRD_VC0_CAP]
    omega
  have hfields : ∀ x ∈ RegId.RQE_DOM_CTL.info.flds, 5242880 ≤ x.key := by decide
  refine .of_other volatile_domCtl rfl (fun x hx => at_ne_of_above (hfields x hx) hk d 0) fun s t m => domCtl_leaves s t d 0 m ?_
    (at_ne_of_above (hfields _ (by decide)) hk d 0) (at_ne_of_above (hfields _ (by decide)) hk d 0)
  rw [Bool.eq_false_iff, Ne, enginePlace_iff]
  omega

end Sys2Proof.Machine


/-! SUPPORT. The commands of configuration, regulation and cache (Tables 12.10 to 12.12), one by one. -/

namespace Sys2Proof.Machine

/-! ## Who sends them -/

/-- Command `opc` of `n` payload bytes is in hand from a sender who is P. -/
structure SentByP (s : State) (m opc n : Nat) : Prop where
  inHand : InHand s m opc
  isP : isP s m = true
  length : cmdLen s m = n
  fits : n ≤ 4080

section
variable {s : State} {m opc n : Nat}

/-- One that changes settings carries the configuration lease. -/
theorem SentByP.sets (h : SentByP s m opc n) (hlease : leaseOf s m (cmdLease s m) = some 0) : MayRun s m opc Machine.isP n cfgLease :=
  ⟨h.inHand, (renewed_isP s m m).trans h.isP, h.length, h.fits, by rw [hlease]; rfl⟩

/-- One that reads needs no lease. -/
theorem SentByP.reads (h : SentByP s m opc n) : MayRun s m opc Machine.isP n none :=
  ⟨h.inHand, (renewed_isP s m m).trans h.isP, h.length, h.fits, rfl⟩

/-- Nor does one that T may send. -/
theorem SentByP.sentAsT (h : SentByP s m opc n) : MayRun s m opc isPT n none :=
  ⟨h.inHand, renewed_isPT h.isP, h.length, h.fits, rfl⟩

theorem SentByP.len (h : SentByP s m opc n) : len n (cmdPayload s m) = true := by simp [Machine.len, cmdPayload_length h.length h.fits]

end

/-- A setting that a command writes reads back as its payload names it, if the writes after it leave it. -/
theorem Written.sets {s t : State} {m : Nat} {ws pre post : List FwWrite} {pay : List Byte} (hw : Written s t m ws pay) (hacc : Accepted s m ws)
    {r : RegId} {i j : Nat} {fs : List (Fld × Nat)} {f : Fld} {x : Nat} (hws : ws = pre ++ (r, i, j, fs) :: post) (h : Settable f r i j)
    (hapart : Apart (fs.map Prod.fst)) (hf : (f, x) ∈ fs) (hpost : ∀ w ∈ post, LeavesPlace (f.at i j) w.1 w.2.1 w.2.2.1) : t.rd f i j = x := by
  rw [State.rd, hw.1]
  exact fwWrites_set hws h hapart hf hpost hacc

/-- A test that holds comes to no code. -/
theorem need_of {P : Prop} [Decidable P] (h : P) (c : Code) : need (decide P) c = .ok := by rw [decide_eq_true h, need_true]

@[simp] theorem leBytes_length (n v : Nat) : (leBytes n v).length = n := by
  induction n generalizing v with
  | zero => rfl
  | succ n ih => rw [leBytes, List.length_cons, ih]

@[simp] theorem u8_length (v : Nat) : (u8 v).length = 1 := leBytes_length 1 v
@[simp] theorem u16_length (v : Nat) : (u16 v).length = 2 := leBytes_length 2 v
@[simp] theorem u32_length (v : Nat) : (u32 v).length = 4 := leBytes_length 4 v

/-! ## Configuration (Table 12.10) -/

/-- The writes of CFG_REGION_SET. -/
def regionWrites (p : List Byte) : List FwWrite :=
  [(.RQE_RGN_B, b1 p 0, 0, [(F.RQE_RGN_B_SIZE_M1, b2 p 4), (F.RQE_RGN_B_PBASE, b2 p 6)]),
   (.RQE_RGN_A, b1 p 0, 0, [(F.RQE_RGN_A_RDOM, b1 p 1), (F.RQE_RGN_A_DBASE, b2 p 2), (F.RQE_RGN_A_WR, b1 p 8 % 2), (F.RQE_RGN_A_EN, b1 p 8 / 2 % 2)])]

/-- The write of a domain's control in CFG_DOMAIN_SET. -/
def domainWrite (p : List Byte) : FwWrite := (.RQE_DOM_CTL, b1 p 0, 0, [(F.RQE_DOM_CTL_EN, b1 p 1), (F.RQE_DOM_CTL_RB_CAP, b2 p 7)])

/-- The writes of a domain's bow-number range in CFG_DOMAIN_SET. -/
def rangeWrites (p : List Byte) : List FwWrite :=
  if b1 p 6 = 0 then [(.REG_BOW_EN, b1 p 0, 0, [(F.REG_BOW_EN_BOW_EN, b1 p 6)]),
    (.REG_BOW, b1 p 0, 0, [(F.REG_BOW_BOW_BASE, b2 p 2), (F.REG_BOW_BOW_LAST, b2 p 4)])]
  else [(.REG_BOW, b1 p 0, 0, [(F.REG_BOW_BOW_BASE, b2 p 2), (F.REG_BOW_BOW_LAST, b2 p 4)]), (.REG_BOW_EN, b1 p 0, 0, [(F.REG_BOW_EN_BOW_EN, b1 p 6)])]

/-- The write of a domain's credits in CFG_DOMAIN_SET. -/
def creditWrite (p : List Byte) : FwWrite := (.HLL_CRD, b1 p 0, 0, [(F.HLL_CRD_VC0_MIN, b2 p 9), (F.HLL_CRD_VC0_CAP, b2 p 11)])

/-- The writes of a domain's ways in CFG_DOMAIN_SET. -/
def waysWrites (p : List Byte) : List FwWrite := (List.range 32).map fun sl => (.SCC_DOM_WAYS, sl, b1 p 0 / 2, [(waysField (b1 p 0), b2 p 13)])

/-- The writes of CFG_DOMAIN_SET: a domain to be disabled comes first, one to be enabled last. -/
def domainWrites (p : List Byte) : List FwWrite :=
  (if b1 p 1 = 0 then [domainWrite p] else []) ++ rangeWrites p ++ [creditWrite p] ++ waysWrites p ++ (if b1 p 1 = 0 then [] else [domainWrite p])

/-- The writes of CFG_HASH_SET. -/
def hashWrites (p : List Byte) : List FwWrite :=
  (List.range 5).map (fun i => (.RQE_HASH_MASK, i, 0, [(F.RQE_HASH_MASK_MASK, b4 p (2 + 4 * i))])) ++
    [(.RQE_CTL, 0, 0, [(F.RQE_CTL_HASH_SEL, b1 p 0), (F.RQE_CTL_CH_LSB, b1 p 1)])]

/-- The writes of CFG_LINK_SET. -/
def linkWrites (p : List Byte) : List FwWrite :=
  [(.HLL_CTL, 0, 0, [(F.HLL_CTL_AUTO_BAL, b1 p 0 % 2), (F.HLL_CTL_NAK_LIMIT, b1 p 1), (F.HLL_CTL_ACK_TMO, b1 p 2), (F.HLL_CTL_REPLAY_THR, b1 p 3)])] ++
    (List.range 16).map (fun g => (.HLP_CTL, g, 0, [(F.HLP_CTL_QUIET_EN, b1 p 0 / 2 % 2), (F.HLP_CTL_DEEP_EN, b1 p 0 / 4 % 2)]))

theorem rangeWrites_leave {k : Nat} (hk : k < 5767168) (p : List Byte) : ∀ w ∈ rangeWrites p, LeavesPlace k w.1 w.2.1 w.2.2.1 := by
  obtain ⟨hbow, hen⟩ := bow_leaves_lower hk (b1 p 0)
  unfold rangeWrites
  split
  · exact List.forall_mem_cons.2 ⟨hen, List.forall_mem_singleton.2 hbow⟩
  · exact List.forall_mem_cons.2 ⟨hbow, List.forall_mem_singleton.2 hen⟩

theorem waysWrites_leave {k : Nat} (hk : k < 8388608) (p : List Byte) : ∀ w ∈ waysWrites p, LeavesPlace k w.1 w.2.1 w.2.2.1 :=
  List.forall_mem_map.2 fun sl _ => domWays_leaves_lower hk sl _

section
variable {s : State} {m : Fin 17} {p : List Byte} (hp : cmdPayload s m.val = p) (hlease : leaseOf s m.val (cmdLease s m.val) = some 0)
include hp hlease

theorem cfgRegionSet_sets (h : SentByP s m.val 0x0300 9) (hn : b1 p 0 < 64) (hacc : Accepted s m.val (regionWrites p)) :
    Written s (cfgRegionSet m.val s) m.val (regionWrites p) [] ∧ (cfgRegionSet m.val s).rd F.RQE_RGN_A_RDOM (b1 p 0) = b1 p 1 ∧
      (cfgRegionSet m.val s).rd F.RQE_RGN_A_EN (b1 p 0) = b1 p 8 / 2 % 2 ∧ (cfgRegionSet m.val s).rd F.RQE_RGN_B_PBASE (b1 p 0) = b2 p 6 := by
  subst hp
  have hw : Written s (cfgRegionSet m.val s) m.val (regionWrites (cmdPayload s m.val)) [] :=
    runCmd_writes (h.sets hlease) h.len (congrArg (replyWrites _ _ · (regionWrites _)) (need_of hn .range)) hacc
  have hapart : Apart [F.RQE_RGN_A_RDOM, F.RQE_RGN_A_DBASE, F.RQE_RGN_A_WR, F.RQE_RGN_A_EN] := by decide
  have hapart' : Apart [F.RQE_RGN_B_SIZE_M1, F.RQE_RGN_B_PBASE] := by decide
  obtain ⟨hdom, hen⟩ := rgnA_settable hn
  exact ⟨hw, hw.sets hacc (pre := [_]) rfl hdom hapart (by simp) (by simp), hw.sets hacc (pre := [_]) rfl hen hapart (by simp) (by simp),
    hw.sets hacc (pre := []) rfl (pbase_settable hn) hapart' (by simp) (List.forall_mem_singleton.2 (rgnA_leaves_pbase _))⟩

omit hp hlease in
/-- A domain's buffer limit and its credits as CFG_DOMAIN_SET leaves them: the control comes first or last. -/
theorem domainWrites_set {t : State} (hd : b1 p 0 < 16) (hacc : Accepted s m.val (domainWrites p)) (hw : Written s t m.val (domainWrites p) []) :
    t.rd F.RQE_DOM_CTL_RB_CAP (b1 p 0) = b2 p 7 ∧ t.rd F.HLL_CRD_VC0_CAP (b1 p 0) = b2 p 11 := by
  have hcap : F.RQE_DOM_CTL_RB_CAP.at (b1 p 0) 0 < 5767168 := by
    simp only [Fld.at, F.RQE_DOM_CTL_RB_CAP]
    omega
  have hvc : F.HLL_CRD_VC0_CAP.at (b1 p 0) 0 < 8388608 := by
    simp only [Fld.at, F.HLL_CRD_VC0_CAP]
    omega
  have hways : ∀ w ∈ waysWrites p, LeavesPlace (F.HLL_CRD_VC0_CAP.at (b1 p 0) 0) w.1 w.2.1 w.2.2.1 := waysWrites_leave hvc p
  have hapart : Apart [F.RQE_DOM_CTL_EN, F.RQE_DOM_CTL_RB_CAP] := by decide
  have hapart' : Apart [F.HLL_CRD_VC0_MIN, F.HLL_CRD_VC0_CAP] := by decide
  by_cases hen : b1 p 1 = 0
  · have hform : domainWrites p = [] ++ domainWrite p :: (rangeWrites p ++ (creditWrite p :: waysWrites p)) := by simp [domainWrites, hen]
    have hform' : domainWrites p = (domainWrite p :: rangeWrites p) ++ creditWrite p :: waysWrites p := by simp [domainWrites, hen]
    refine ⟨hw.sets hacc hform (rbCap_settable hd) hapart (by simp) ?_, hw.sets hacc hform' (vc0Cap_settable hd) hapart' (by simp) hways⟩
    exact List.forall_mem_append.2 ⟨rangeWrites_leave hcap p, List.forall_mem_cons.2 ⟨crd_leaves_rbCap hd, waysWrites_leave (by omega) p⟩⟩
  · have hform : domainWrites p = (rangeWrites p ++ creditWrite p :: waysWrites p) ++ domainWrite p :: [] := by simp [domainWrites, hen]
    have hform' : domainWrites p = rangeWrites p ++ creditWrite p :: (waysWrites p ++ [domainWrite p]) := by simp [domainWrites, hen]
    refine ⟨hw.sets hacc hform (rbCap_settable hd) hapart (by simp) (by simp), hw.sets hacc hform' (vc0Cap_settable hd) hapart' (by simp) ?_⟩
    exact List.forall_mem_append.2 ⟨hways, List.forall_mem_singleton.2 (domCtl_leaves_vc0Cap hd)⟩

theorem cfgDomainSet_sets (h : SentByP s m.val 0x0302 15) (hd : b1 p 0 < 16) (hacc : Accepted s m.val (domainWrites p)) :
    Written s (cfgDomainSet m.val s) m.val (domainWrites p) [] ∧ (cfgDomainSet m.val s).rd F.RQE_DOM_CTL_RB_CAP (b1 p 0) = b2 p 7 ∧
      (cfgDomainSet m.val s).rd F.HLL_CRD_VC0_CAP (b1 p 0) = b2 p 11 := by
  subst hp
  have hw : Written s (cfgDomainSet m.val s) m.val (domainWrites (cmdPayload s m.val)) [] :=
    runCmd_writes (h.sets hlease) h.len (congrArg (replyWrites _ _ · (domainWrites _)) (need_of hd .range)) hacc
  exact ⟨hw, domainWrites_set hd hacc hw⟩

theorem cfgHashSet_sets (h : SentByP s m.val 0x0304 22) (hidle : s.on F.RQE_STAT_ADMITTED = false) (hacc : Accepted s m.val (hashWrites p)) :
    Written s (cfgHashSet m.val s) m.val (hashWrites p) [] ∧ (cfgHashSet m.val s).rd F.RQE_CTL_HASH_SEL = b1 p 0 ∧
      (cfgHashSet m.val s).rd F.RQE_CTL_CH_LSB = b1 p 1 := by
  subst hp
  have hneed : need (!(renewed s m.val).on F.RQE_STAT_ADMITTED) .state = .ok := by
    rw [State.on, renewed_rd, ← State.on, hidle]
    rfl
  have hw : Written s (cfgHashSet m.val s) m.val (hashWrites (cmdPayload s m.val)) [] :=
    runCmd_writes (h.sets hlease) h.len (congrArg (replyWrites _ _ · (hashWrites _)) hneed) hacc
  have hapart : Apart [F.RQE_CTL_HASH_SEL, F.RQE_CTL_CH_LSB] := by decide
  exact ⟨hw, hw.sets hacc rfl rqeCtl_settable.1 hapart (by simp) (by simp), hw.sets hacc rfl rqeCtl_settable.2 hapart (by simp) (by simp)⟩

theorem cfgLinkSet_sets (h : SentByP s m.val 0x0306 4) (hacc : Accepted s m.val (linkWrites p)) :
    Written s (cfgLinkSet m.val s) m.val (linkWrites p) [] ∧ (cfgLinkSet m.val s).rd F.HLL_CTL_NAK_LIMIT = b1 p 1 ∧
      (cfgLinkSet m.val s).rd F.HLL_CTL_ACK_TMO = b1 p 2 := by
  subst hp
  have hw : Written s (cfgLinkSet m.val s) m.val (linkWrites (cmdPayload s m.val)) [] := runCmd_writes (h.sets hlease) h.len rfl hacc
  have hapart : Apart [F.HLL_CTL_AUTO_BAL, F.HLL_CTL_NAK_LIMIT, F.HLL_CTL_ACK_TMO, F.HLL_CTL_REPLAY_THR] := by decide
  have hgroups (k : Nat) (hk : LinkLimit k) (fs : List (Fld × Nat)) : ∀ w ∈ (List.range 16).map fun g => ((.HLP_CTL, g, 0, fs) : FwWrite),
      LeavesPlace k w.1 w.2.1 w.2.2.1 := List.forall_mem_map.2 fun g hg => hlpCtl_leaves_limit hk (List.mem_range.1 hg)
  exact ⟨hw, hw.sets hacc (pre := []) rfl hllCtl_settable.1 hapart (by simp) (hgroups _ (.inl rfl) _),
    hw.sets hacc (pre := []) rfl hllCtl_settable.2 hapart (by simp) (hgroups _ (.inr rfl) _)⟩

/-- A purge's one write is that of `PURGE`. -/
theorem cfgPurge_sets (h : SentByP s m.val 0x0305 1) (hd : b1 p 0 < 16)
    (hacc : Accepted s m.val [(.RQE_DOM_CTL, b1 p 0, 0, [(F.RQE_DOM_CTL_PURGE, 1)])]) :
    Written s (cfgPurge m.val s) m.val [(.RQE_DOM_CTL, b1 p 0, 0, [(F.RQE_DOM_CTL_PURGE, 1)])] [] := by
  subst hp
  exact runCmd_writes (h.sets hlease) h.len (congrArg (replyWrites _ _ · _) (need_of hd .range)) hacc

theorem cfgTurn_waits (h : SentByP s m.val 0x0307 2) (hg : b1 p 0 < 16)
    (hacc : Accepted s m.val [(.HLL_TURN, 0, 0, [(F.HLL_TURN_TURN_GRP, b1 p 0), (F.HLL_TURN_TURN_DIR, b1 p 1), (F.HLL_TURN_TURN_GO, 1)])]) :
    Answered (cfgTurn m.val s) m.val .turn := by
  subst hp
  refine .of_runs (runCmd_accepted (h.sets hlease) h.len rfl ?_)
  rw [need_of hg, replyWrites_accepted hacc]

end

/-! ## Regulation (Table 12.11) -/

/-- The writes of REG_CLASS_SET. -/
def classWrites (p : List Byte) : List FwWrite :=
  [(.REG_CLASS, b1 p 0, 0, [(F.REG_CLASS_KIND, b1 p 1), (F.REG_CLASS_DEF_DL, b2 p 2), (F.REG_CLASS_SLACK_Q, b1 p 4)]),
   (.REG_CLASS2, b1 p 0, 0, [(F.REG_CLASS2_EST, b1 p 5), (F.REG_CLASS2_AGE_Q, b2 p 6)])]

/-- The write of REG_RSV_SET. -/
def rsvWrite (p : List Byte) : FwWrite :=
  (.REG_RSV_A, b1 p 0, 0, [(F.REG_RSV_A_RKIND, b1 p 1), (F.REG_RSV_A_RDOM, b1 p 2), (F.REG_RSV_A_RQ_RATE, b4 p 4), (F.REG_RSV_A_EN, 1)])

/-- A write of a reservation waits for no word of MRAM. -/
theorem rsvWrite_reply {s : State} {m : Nat} {p : List Byte} (hacc : Accepted s m [rsvWrite p]) :
    replyWrites (renewed s m) m .ok [rsvWrite p] = { st := noteApplied (fwWrites (renewed s m) m [rsvWrite p]).st m [rsvWrite p] } := by
  have hone : fwWrites (renewed s m) m [rsvWrite p] = fwWrite m { st := renewed s m } (rsvWrite p) := rfl
  have hok : (fwWrite m { st := renewed s m } (rsvWrite p)).c = .ok := hacc
  have hwaits : (fwWrites (renewed s m) m [rsvWrite p]).waits = 0 := by
    rw [hone]
    unfold rsvWrite at hok ⊢
    exact (fwWrite_taken volatile_rsv hok).waits
  rw [replyWrites_accepted hacc, if_pos hwaits]

section
variable {s : State} {m : Fin 17} {p : List Byte} (hp : cmdPayload s m.val = p) (hlease : leaseOf s m.val (cmdLease s m.val) = some 0)
include hp hlease

theorem regClassSet_sets (h : SentByP s m.val 0x0400 8) (hk : b1 p 0 < 7) (hacc : Accepted s m.val (classWrites p)) :
    Written s (regClassSet m.val s) m.val (classWrites p) [] ∧ (regClassSet m.val s).rd F.REG_CLASS_KIND (b1 p 0) = b1 p 1 ∧
      (regClassSet m.val s).rd F.REG_CLASS2_AGE_Q (b1 p 0) = b2 p 6 := by
  subst hp
  have hk' : b1 (cmdPayload s m.val) 0 < 8 := by omega
  have hw : Written s (regClassSet m.val s) m.val (classWrites (cmdPayload s m.val)) [] :=
    runCmd_writes (h.sets hlease) h.len (congrArg (replyWrites _ _ · (classWrites _)) (need_of hk' .range)) hacc
  have hapart : Apart [F.REG_CLASS_KIND, F.REG_CLASS_DEF_DL, F.REG_CLASS_SLACK_Q] := by decide
  have hapart' : Apart [F.REG_CLASS2_EST, F.REG_CLASS2_AGE_Q] := by decide
  exact ⟨hw, hw.sets hacc (pre := []) rfl (kind_settable hk) hapart (by simp) (List.forall_mem_singleton.2 (class2_leaves_kind _)),
    hw.sets hacc (pre := [_]) rfl (ageQ_settable hk) hapart' (by simp) (by simp)⟩

theorem regGlobalSet_sets (h : SentByP s m.val 0x0401 2)
    (hacc : Accepted s m.val [(.REG_CTL, 0, 0, [(F.REG_CTL_MTR_EN, b1 p 0), (F.REG_CTL_DL_OFS, b1 p 1)])]) :
    Written s (regGlobalSet m.val s) m.val [(.REG_CTL, 0, 0, [(F.REG_CTL_MTR_EN, b1 p 0), (F.REG_CTL_DL_OFS, b1 p 1)])] [] ∧
      (regGlobalSet m.val s).rd F.REG_CTL_DL_OFS = b1 p 1 := by
  subst hp
  have hw : Written s (regGlobalSet m.val s) m.val
      [(.REG_CTL, 0, 0, [(F.REG_CTL_MTR_EN, b1 (cmdPayload s m.val) 0), (F.REG_CTL_DL_OFS, b1 (cmdPayload s m.val) 1)])] [] :=
    runCmd_writes (h.sets hlease) h.len rfl hacc
  have hapart : Apart [F.REG_CTL_MTR_EN, F.REG_CTL_DL_OFS] := by decide
  exact ⟨hw, hw.sets hacc (pre := []) rfl dlOfs_settable hapart (by simp) (by simp)⟩

/-- REG_RSV_SET of a named entry is answered with the entry and its next grant, and stores its rate. -/
theorem regRsvSet_sets (h : SentByP s m.val 0x0403 8) (hlo : 1 ≤ b1 p 0) (hn : b1 p 0 < 64) (hacc : Accepted s m.val [rsvWrite p]) :
    (∃ a, Answered (regRsvSet m.val s) m.val (.due .ok 0 a) ∧ a.length = 8) ∧ (regRsvSet m.val s).on F.REG_RSV_A_EN (b1 p 0) = true ∧
      (regRsvSet m.val s).rd F.REG_RSV_A_RQ_RATE (b1 p 0) = b4 p 4 := by
  have hreply := rsvWrite_reply hacc
  generalize hu : noteApplied (fwWrites (renewed s m.val) m.val [rsvWrite p]).st m.val [rsvWrite p] = u at hreply
  have hregs : u.regs = (fwWrites (renewed s m.val) m.val [rsvWrite p]).st.regs := by rw [← hu, noteApplied, openWindow]
  have hrun : regRsvSet m.val s = u.modMbx m.val fun x => { x with
      ran := true, journal := true, await := .due .ok 0 (u8 (b1 p 0) ++ [0, 0, 0] ++ u32 (nextGrant u (b1 p 0))) } := by
    unfold regRsvSet
    refine runCmd_accepted (r := { st := u, pay := u8 (b1 p 0) ++ [0, 0, 0] ++ u32 (nextGrant u (b1 p 0)) }) (h.sets hlease) h.len ?_ rfl
    rw [hp, if_neg (by omega)]
    dsimp only
    rw [need_of hn, ← rsvWrite, hreply]
  have hrd (f : Fld) (i : Nat) : (regRsvSet m.val s).rd f i = (fwWrites (renewed s m.val) m.val [rsvWrite p]).st.rd f i := by
    rw [hrun, State.modMbx_rd, State.rd, hregs, State.rd]
  have hapart : Apart [F.REG_RSV_A_RKIND, F.REG_RSV_A_RDOM, F.REG_RSV_A_RQ_RATE, F.REG_RSV_A_EN] := by decide
  obtain ⟨hen, hrate⟩ := rsv_settable hn
  have hon : (fwWrites (renewed s m.val) m.val [rsvWrite p]).st.rd F.REG_RSV_A_EN (b1 p 0) = 1 :=
    fwWrites_set (pre := []) rfl hen hapart (by simp) (by simp) hacc
  have hstored : (fwWrites (renewed s m.val) m.val [rsvWrite p]).st.rd F.REG_RSV_A_RQ_RATE (b1 p 0) = b4 p 4 :=
    fwWrites_set (pre := []) rfl hrate hapart (by simp) (by simp) hacc
  exact ⟨⟨_, .of_runs hrun, by simp⟩, by rw [State.on, hrd, hon]; rfl, (hrd _ _).trans hstored⟩

theorem regRsvFree_sets (h : SentByP s m.val 0x0404 1) (hlo : 1 ≤ b1 p 0) (hn : b1 p 0 < 64)
    (hacc : Accepted s m.val [(.REG_RSV_A, b1 p 0, 0, [(F.REG_RSV_A_EN, 0)])]) :
    Written s (regRsvFree m.val s) m.val [(.REG_RSV_A, b1 p 0, 0, [(F.REG_RSV_A_EN, 0)])] [] ∧ (regRsvFree m.val s).on F.REG_RSV_A_EN (b1 p 0) = false := by
  subst hp
  have hneed : need (decide (1 ≤ b1 (cmdPayload s m.val) 0) && decide (b1 (cmdPayload s m.val) 0 < 64)) .range = .ok := by
    rw [decide_eq_true hlo, decide_eq_true hn]
    rfl
  have hw : Written s (regRsvFree m.val s) m.val [(.REG_RSV_A, b1 (cmdPayload s m.val) 0, 0, [(F.REG_RSV_A_EN, 0)])] [] :=
    runCmd_writes (h.sets hlease) h.len (congrArg (replyWrites _ _ · _) hneed) hacc
  have hapart : Apart [F.REG_RSV_A_EN] := by decide
  have hoff : (regRsvFree m.val s).rd F.REG_RSV_A_EN (b1 (cmdPayload s m.val) 0) = 0 :=
    hw.sets hacc (pre := []) rfl (rsv_settable hn).1 hapart (by simp) (by simp)
  exact ⟨hw, by rw [State.on, hoff]; rfl⟩

end

end Sys2Proof.Machine


/-! SUPPORT. The commands of Tables 12.11 and 12.12 that write contexts, operate on the cache or read, and the settlement of O52. -/

namespace Sys2Proof.Machine

/-! ## Contexts of a run of bow numbers (R139, R140) -/

/-- A context holds the four values of REG_BOW_SET. -/
def CtxSet (x : Ctx) (cls tgt idx alloc : Nat) : Prop := x.cls = cls ∧ x.ltTgt = tgt ∧ x.resIdx = idx ∧ x.alloc = alloc

/-- Written contexts hold the values; the registers stay. -/
theorem ctxWrites_set (cls tgt idx alloc : Nat) (run : List Nat) (s : State) {b : Nat} (h : b ∈ run ∨ CtxSet (s.ctx b) cls tgt idx alloc) :
    CtxSet ((run.foldl (fun t b => ctxWrite t b cls tgt idx alloc false) s).ctx b) cls tgt idx alloc := by
  induction run generalizing s with
  | nil => exact h.resolve_left List.not_mem_nil
  | cons a r ih =>
    refine ih _ ?_
    by_cases hb : b = a
    · subst hb
      rw [ctxWrite_ctx_same]
      exact .inr ⟨rfl, rfl, rfl, rfl⟩
    · rw [ctxWrite_ctx_ne _ _ _ _ _ _ _ _ hb]
      exact h.imp_left fun hmem => (List.mem_cons.1 hmem).resolve_left hb

theorem ctxWrites_regs (cls tgt idx alloc : Nat) (run : List Nat) (s : State) :
    (run.foldl (fun t b => ctxWrite t b cls tgt idx alloc false) s).regs = s.regs :=
  List.foldlRecOn (motive := fun t : State => t.regs = s.regs) run _ rfl fun _ ht _ _ => ht

/-- The bow numbers of REG_BOW_SET. -/
def bowRun (p : List Byte) : List Nat := (List.range (b2 p 2 + 1 - b2 p 0)).map (b2 p 0 + ·)

theorem mem_bowRun {p : List Byte} {b : Nat} (hlo : b2 p 0 ≤ b) (hhi : b ≤ b2 p 2) : b ∈ bowRun p :=
  List.mem_map.2 ⟨b - b2 p 0, List.mem_range.2 (by omega), by omega⟩

/-- The state that REG_BOW_SET leaves: the contexts of the run, their window, and their values noted. -/
def bowsSet (t : State) (m : Nat) (p : List Byte) : State :=
  let t := openWindow ((bowRun p).foldl (fun t b => ctxWrite t b (b1 p 4) (b2 p 5) (b1 p 7) (b1 p 8) false) t) m ((bowRun p).map (2 ^ 40 + ·))
  { t with mgt.ctxSet := (bowRun p).foldl (fun a b => SMap.set a b (b1 p 4, b2 p 5, b1 p 7, b1 p 8)) t.mgt.ctxSet }

theorem bowsSet_regs (t : State) (m : Nat) (p : List Byte) : (bowsSet t m p).regs = t.regs := by
  unfold bowsSet openWindow
  exact ctxWrites_regs (b1 p 4) (b2 p 5) (b1 p 7) (b1 p 8) (bowRun p) t

theorem bowsSet_ctx (t : State) (m : Nat) {p : List Byte} {b : Nat} (hb : b ∈ bowRun p) :
    CtxSet ((bowsSet t m p).ctx b) (b1 p 4) (b2 p 5) (b1 p 7) (b1 p 8) := by
  unfold bowsSet openWindow
  exact ctxWrites_set (b1 p 4) (b2 p 5) (b1 p 7) (b1 p 8) (bowRun p) t (.inl hb)

/-- The checks of REG_BOW_SET pass for P and contexts without a reservation. -/
theorem bowChecks_ok {t : State} {m : Nat} {p : List Byte} (hP : isP t m = true) (hrun : b2 p 0 ≤ b2 p 2 ∧ b2 p 2 ≤ b2 p 0 + 255) (hcls : b1 p 4 < 7)
    (htgt : 1 ≤ b2 p 5 ∧ b2 p 5 < 1024) (hidx : b1 p 7 = 0) (halloc : b1 p 8 < 4) :
    firstOf ([need (isP t m || (bowRun p).all fun b => ctxReach t m b) .privilege,
      need (decide (b1 p 4 < 8) && decide (b2 p 5 < 1024) && decide (b1 p 7 < 64) && decide (b1 p 8 < 4)) .badValue,
      need (decide (b2 p 0 ≤ b2 p 2) && decide (b2 p 2 ≤ b2 p 0 + 255)) .range] ++
      ((bowRun p).take 256).map fun b => ctxCheck t b (b1 p 4) (b2 p 5) (b1 p 7)) = .ok := by
  have hcheck (b : Nat) : ctxCheck t b (b1 p 4) (b2 p 5) (b1 p 7) = .ok := by rw [hidx, ctxCheck, if_neg (by omega), if_pos rfl]
  have hvalues : (decide (b1 p 4 < 8) && decide (b2 p 5 < 1024) && decide (b1 p 7 < 64) && decide (b1 p 8 < 4)) = true := by
    simp only [Bool.and_eq_true, decide_eq_true_eq]
    omega
  rw [firstOf_eq_ok_iff, hP, hvalues, decide_eq_true hrun.1, decide_eq_true hrun.2]
  exact List.forall_mem_append.2 ⟨by simp, List.forall_mem_map.2 fun b _ => hcheck b⟩

/-- REG_BOW_SET of contexts without a reservation. -/
theorem regBowSet_sets {s : State} {m : Fin 17} {p : List Byte} (hp : cmdPayload s m.val = p) (h : SentByP s m.val 0x0402 9)
    (hrun : b2 p 0 ≤ b2 p 2 ∧ b2 p 2 ≤ b2 p 0 + 255) (hcls : b1 p 4 < 7) (htgt : 1 ≤ b2 p 5 ∧ b2 p 5 < 1024) (hidx : b1 p 7 = 0)
    (halloc : b1 p 8 < 4) :
    Answered (regBowSet m.val s) m.val (.due .ok 0 []) ∧ (regBowSet m.val s).regs = s.regs ∧
      ∀ b, b2 p 0 ≤ b → b ≤ b2 p 2 → CtxSet ((regBowSet m.val s).ctx b) (b1 p 4) (b2 p 5) 0 (b1 p 8) := by
  subst hp
  have hP : isP (renewed s m.val) m.val = true := (renewed_isP s m.val m.val).trans h.isP
  have hset : regBowSet m.val s = (bowsSet (renewed s m.val) m.val (cmdPayload s m.val)).modMbx m.val fun x => { x with
      ran := true, journal := true, await := .due .ok 0 [] } := by
    unfold regBowSet
    refine runCmd_accepted h.sentAsT h.len (r := replyWith (bowsSet (renewed s m.val) m.val (cmdPayload s m.val)) []) ?_ rfl
    extract_lets first last cls tgt idx alloc run own values c written opened mgt
    have hc : c = .ok := bowChecks_ok hP hrun hcls htgt hidx halloc
    rw [if_pos hc]
    simp only [bowsSet, bowRun, mgt, opened, written, run, first, last, cls, tgt, idx, alloc]
  have hregs : (regBowSet m.val s).regs = s.regs := by
    rw [hset, State.modMbx_regs, bowsSet_regs]
    exact (renewed_frame s m.val).1
  refine ⟨.of_runs hset, hregs, fun b hlo hhi => ?_⟩
  rw [hset, State.modMbx_ctx, ← hidx]
  exact bowsSet_ctx _ _ (mem_bowRun hlo hhi)

/-! ## Cache (Table 12.12) -/

/-- The writes of CACHE_POLICY_SET. -/
def policyWrites (p : List Byte) : List FwWrite :=
  (List.range 32).flatMap fun sl => [(.SCC_POL, sl, 0, polFields.zipIdx.map fun e => (e.1, bits (leAt p 0 3) (3 * e.2) 3)),
    (.SCC_WAYS, sl, 0, [(F.SCC_WAYS_BG_WAYS, b2 p 4)]), (.SCC_CTL, sl, 0, [(F.SCC_CTL_ALLOC_EN, b1 p 3 % 2), (F.SCC_CTL_WT, b1 p 3 / 2 % 2)])]

/-- The writes of CACHE_OP: the slices of its mask. -/
def opWrites (p : List Byte) : List FwWrite :=
  (onesOf (b4 p 8) 32).map fun sl =>
    (.SCC_OPS_CMD, sl, 0, [(F.SCC_OPS_CMD_OP, b1 p 0), (F.SCC_OPS_CMD_SCOPE, b1 p 1), (F.SCC_OPS_CMD_ODOM, b1 p 2), (F.SCC_OPS_CMD_OWAYS, b2 p 4)])

/-- The values of CACHE_OP that R166 allows. -/
def opLegal (p : List Byte) : Bool :=
  decide (1 ≤ b1 p 0) && decide (b1 p 0 ≤ 2) && decide (b1 p 1 ≤ 2) && decide (b1 p 2 < 16) && !(b1 p 1 == 2 && b2 p 4 == 0)

section
variable {s : State} {m : Fin 17} {p : List Byte} (hp : cmdPayload s m.val = p) (hlease : leaseOf s m.val (cmdLease s m.val) = some 0)
include hp hlease

theorem cachePolicySet_sets (h : SentByP s m.val 0x0500 6) (hacc : Accepted s m.val (policyWrites p)) :
    Written s (cachePolicySet m.val s) m.val (policyWrites p) [] := by
  subst hp
  exact runCmd_writes (h.sets hlease) h.len rfl hacc

theorem cacheOp_sets (h : SentByP s m.val 0x0501 12) (hop : 1 ≤ b1 p 0 ∧ b1 p 0 ≤ 2 ∧ b1 p 1 ≤ 2 ∧ b1 p 2 < 16)
    (hways : b1 p 1 = 2 → b2 p 4 ≠ 0) (hacc : Accepted s m.val (opWrites p)) : Written s (cacheOp m.val s) m.val (opWrites p) [] := by
  subst hp
  obtain ⟨hlo, hhi, hscope, hdom⟩ := hop
  have hlegal : opLegal (cmdPayload s m.val) = true := by
    simp only [opLegal, Bool.and_eq_true, Bool.not_eq_true', Bool.and_eq_false_imp, beq_iff_eq, beq_eq_false_iff_ne, decide_eq_true_eq]
    exact ⟨⟨⟨⟨hlo, hhi⟩, hscope⟩, hdom⟩, hways⟩
  have hneed : need (opLegal (cmdPayload s m.val)) .badValue = .ok := by rw [hlegal, need_true]
  exact runCmd_writes (h.sets hlease) h.len (congrArg (replyWrites _ _ · (opWrites _)) hneed) hacc

/-- With no slice named the values are judged all the same (R10). -/
theorem cacheOp_illegal (h : SentByP s m.val 0x0501 12) (hbad : b1 p 0 = 0 ∨ 2 < b1 p 0 ∨ 2 < b1 p 1) (hnone : onesOf (b4 p 8) 32 = []) :
    Answered (cacheOp m.val s) m.val (.due .badValue 0 []) ∧ (cacheOp m.val s).regs = s.regs := by
  subst hp
  have hillegal : opLegal (cmdPayload s m.val) = false := by
    simp only [opLegal, Bool.and_eq_false_iff, decide_eq_false_iff_not]
    omega
  have hreply : replyWrites (renewed s m.val) m.val (need (opLegal (cmdPayload s m.val)) .badValue) (opWrites (cmdPayload s m.val)) =
      { c := .badValue, st := renewed s m.val } := by
    rw [hillegal, opWrites, hnone]
    rfl
  have hrun : cacheOp m.val s = (renewed s m.val).modMbx m.val fun x => { x with ran := true, journal := true, await := .due .badValue 0 [] } := by
    unfold cacheOp
    exact runCmd_refused (h.sets hlease) h.len (r := { c := .badValue, st := renewed s m.val }) hreply (by simp) rfl
  refine ⟨.of_runs hrun, ?_⟩
  rw [hrun, State.modMbx_regs]
  exact (renewed_frame s m.val).1

end

/-! ## Commands that read -/

section
variable {s : State} {m : Fin 17}

theorem cfgRegionGet_reads {p : List Byte} (hp : cmdPayload s m.val = p) (h : SentByP s m.val 0x0301 1) (hn : b1 p 0 < 64) :
    ∃ a, ReadsOnly s (cfgRegionGet m.val s) m.val a ∧ a.length = 13 := by
  subst hp
  exact ⟨_, runCmd_reads h.reads h.len (if_neg (by omega)), by simp⟩

theorem cfgDomainGet_reads {p : List Byte} (hp : cmdPayload s m.val = p) (h : SentByP s m.val 0x0303 1) (hd : b1 p 0 < 16) :
    ∃ a, ReadsOnly s (cfgDomainGet m.val s) m.val a ∧ a.length = 19 := by
  subst hp
  have hP : isP (renewed s m.val) m.val = true := (renewed_isP s m.val m.val).trans h.isP
  exact ⟨_, runCmd_reads h.sentAsT h.len ((if_neg (by simp [hP])).trans (if_neg (by omega))), by simp⟩

/-- The response of REG_GET is of registers and of theta, which the renewal of a lease leaves. -/
theorem regGet_reads (h : SentByP s m.val 0x0405 0) :
    ReadsOnly s (regGet m.val s) m.val (u32 (s.rd F.REG_S_S_EST) ++ u32 (s.rd F.REG_S_OVC) ++ u32 (rateSum s 1) ++ u32 (rateSum s 0) ++ u16 s.reg.theta) := by
  have hsum (kind : Nat) : rateSum (renewed s m.val) kind = rateSum s kind := by
    simp only [rateSum, State.on, renewed_rd]
    rfl
  obtain ⟨-, hreg, -⟩ := renewed_more s m.val
  refine runCmd_reads h.sentAsT h.len ?_
  rw [renewed_rd, renewed_rd, hsum, hsum, hreg]

theorem cacheGet_reads (h : SentByP s m.val 0x0502 0) : ∃ a, ReadsOnly s (cacheGet m.val s) m.val a ∧ a.length = 36 := by
  have hslices (one : Nat → List Byte) (hone : ∀ sl, (one sl).length = 1) : ((List.range 32).flatMap one).length = 32 := by
    simp [List.length_flatMap, hone]
  exact ⟨_, runCmd_reads h.reads h.len rfl, by rw [List.length_append, hslices _ fun sl => u8_length _, u32_length]⟩

end

/-! ## The obligation -/

/-- Settles O52: a command that passes the checks of R12 is what its body says; its accepted writes each take effect, and none that follows writes the
settings that were written before it. -/
theorem configurationCommands : Obligations.ConfigurationCommands := by
  unfold Obligations.ConfigurationCommands
  refine ⟨?_, ?_, ?_, ?_, ?_, ?_, ?_, ?_, ?_, ?_, ?_, ?_, ?_, ?_, ?_, ?_, ?_, ?_⟩
  · intro s m hin hP hlen hlease p hn hacc
    exact ⟨_, rfl, cfgRegionSet_sets rfl hlease ⟨hin, hP, hlen, by decide⟩ hn hacc⟩
  · intro s m hin hP hlen p hn
    obtain ⟨a, ha⟩ := cfgRegionGet_reads rfl ⟨hin, hP, hlen, by decide⟩ hn
    exact ⟨_, a, rfl, ha⟩
  · intro s m hin hP hlen hlease p hd hacc
    exact ⟨_, rfl, cfgDomainSet_sets rfl hlease ⟨hin, hP, hlen, by decide⟩ hd hacc⟩
  · intro s m hin hP hlen p hd
    obtain ⟨a, ha⟩ := cfgDomainGet_reads rfl ⟨hin, hP, hlen, by decide⟩ hd
    exact ⟨_, a, rfl, ha⟩
  · intro s m hin hP hlen hlease p hidle hacc
    exact ⟨_, rfl, cfgHashSet_sets rfl hlease ⟨hin, hP, hlen, by decide⟩ hidle hacc⟩
  · intro s m hin hP hlen hlease p hd hacc
    exact ⟨_, rfl, cfgPurge_sets rfl hlease ⟨hin, hP, hlen, by decide⟩ hd hacc⟩
  · intro s m hin hP hlen hlease p hacc
    exact ⟨_, rfl, cfgLinkSet_sets rfl hlease ⟨hin, hP, hlen, by decide⟩ hacc⟩
  · intro s m hin hP hlen hlease p hg hacc
    exact ⟨_, rfl, cfgTurn_waits rfl hlease ⟨hin, hP, hlen, by decide⟩ hg hacc⟩
  · intro s m hin hP hlen hlease p hk hacc
    exact ⟨_, rfl, regClassSet_sets rfl hlease ⟨hin, hP, hlen, by decide⟩ hk hacc⟩
  · intro s m hin hP hlen hlease p hacc
    exact ⟨_, rfl, regGlobalSet_sets rfl hlease ⟨hin, hP, hlen, by decide⟩ hacc⟩
  · intro s m hin hP hlen p hfirst hlast hcls hlo hhi hidx halloc
    exact ⟨_, rfl, regBowSet_sets rfl ⟨hin, hP, hlen, by decide⟩ ⟨hfirst, hlast⟩ hcls ⟨hlo, hhi⟩ hidx halloc⟩
  · intro s m hin hP hlen hlease p hlo hn hacc
    obtain ⟨⟨a, hanswer, ha⟩, hsets⟩ := regRsvSet_sets rfl hlease ⟨hin, hP, hlen, by decide⟩ hlo hn hacc
    exact ⟨_, a, rfl, hanswer, ha, hsets⟩
  · intro s m hin hP hlen hlease p hlo hn hacc
    exact ⟨_, rfl, regRsvFree_sets rfl hlease ⟨hin, hP, hlen, by decide⟩ hlo hn hacc⟩
  · intro s m hin hP hlen
    exact ⟨_, rfl, regGet_reads ⟨hin, hP, hlen, by decide⟩⟩
  · intro s m hin hP hlen hlease p hacc
    exact ⟨_, rfl, cachePolicySet_sets rfl hlease ⟨hin, hP, hlen, by decide⟩ hacc⟩
  · intro s m hin hP hlen hlease p hlo hhi hscope hdom hways hacc
    exact ⟨_, rfl, cacheOp_sets rfl hlease ⟨hin, hP, hlen, by decide⟩ ⟨hlo, hhi, hscope, hdom⟩ hways hacc⟩
  · intro s m hin hP hlen hlease p hbad hnone
    exact ⟨_, rfl, cacheOp_illegal rfl hlease ⟨hin, hP, hlen, by decide⟩ hbad hnone⟩
  · intro s m hin hP hlen
    obtain ⟨a, ha⟩ := cacheGet_reads ⟨hin, hP, hlen, by decide⟩
    exact ⟨_, a, rfl, ha⟩

end Sys2Proof.Machine


/-! SUPPORT. The state before main power first arrives (Tables 3.14, 5.14, 6.1 and 14.3): a register that nothing has written shows its Reset column. -/

namespace Sys2Proof.Machine

/-- Nothing is listed, and the next admission number alone makes a rising row. -/
theorem canon_reset : Canon State.reset := ⟨rfl, rfl, rfl, rfl, List.pairwise_singleton ..⟩

/-- A field with one reset value for all its instances shows it before the first cold boot. -/
theorem rd_reset_of_rstAt_nil {f : Fld} (h : f.rstAt = []) (i j : Nat) : State.reset.rd f i j = f.rst := by
  show f.reset i = f.rst
  rw [Fld.reset, h, SMap.getD_nil]

/-- Every source is routed by the preset STANDARD, to D0 (R310, Table 14.3). -/
theorem sources_reset (src : Nat) : presetOf State.reset src = 0 ∧ State.reset.rd F.FCR_SRC_DMASK src = 1 := by
  have hthresholds : (State.reset.rd F.FCR_SRC_EVT_MIN src, State.reset.rd F.FCR_SRC_ALERT_MIN src, State.reset.rd F.FCR_SRC_SVC_MIN src,
      State.reset.rd F.FCR_SRC_LOG_MIN src, State.reset.rd F.FCR_SRC_ACT src) = preset 0 := by
    simp only [rd_reset_of_rstAt_nil (f := F.FCR_SRC_EVT_MIN) rfl, rd_reset_of_rstAt_nil (f := F.FCR_SRC_ALERT_MIN) rfl,
      rd_reset_of_rstAt_nil (f := F.FCR_SRC_SVC_MIN) rfl, rd_reset_of_rstAt_nil (f := F.FCR_SRC_LOG_MIN) rfl,
      rd_reset_of_rstAt_nil (f := F.FCR_SRC_ACT) rfl]
    rfl
  refine ⟨?_, rd_reset_of_rstAt_nil rfl ..⟩
  rw [presetOf, hthresholds]
  rfl

/-- Each domain's VC0 cap and request-buffer cap (Tables 3.14 and 5.14). -/
theorem caps_reset (d : Nat) : State.reset.rd F.HLL_CRD_VC0_CAP d = 0x8000 ∧ State.reset.rd F.RQE_DOM_CTL_RB_CAP d = 0x3CCC :=
  ⟨rd_reset_of_rstAt_nil rfl .., rd_reset_of_rstAt_nil rfl ..⟩

/-- Settles O59: the state lists nothing, so each of its parts is at its initial value and each register shows its Reset column. -/
theorem resetState : Obligations.ResetState := by
  unfold Obligations.ResetState
  refine ⟨canon_reset, rfl, rfl, rfl, rfl, rfl, fun g _ => ⟨rfl, rfl⟩, fun m hm => ?_, fun i hi => ?_, ?_, fun src _ => sources_reset src,
    fun d _ => caps_reset d, ?_⟩
  · revert m
    decide +kernel
  · revert i
    decide
  · decide
  · refine ⟨?_, ?_, ?_, ?_, ?_, ?_, ?_, ?_, ?_, ?_, rfl⟩ <;> exact rd_reset_of_rstAt_nil rfl ..

end Sys2Proof.Machine


/-! SUPPORT. A write of reservation entry 0, which does not exist (R148, R294): the counterexample to O14. -/

namespace Sys2Proof.Machine

/-- The stack in RUN, with nothing reserved. -/
def unreserved : State := { State.reset with pck := { pow := .run } }

/-- The entries are 1 to 63: no table assigns the place that an entry 0 would have (R148, Table 6.16). -/
theorem regAt_reservation_zero : regAt (regOffset .REG_RSV_A 0 0) = none := by decide +kernel

theorem exec_reservationWrite (who : Fin 18) (n : Fin 64) (v : Word) (s : State) :
    exec (.reservationWrite who n v) s = .next (writeBy s who.val .REG_RSV_A n.val 0 v.toNat) := rfl

/-- A write of entry 0 is a write of an unassigned location: OK, and its record alone (R294). -/
theorem writeBy_reservation_zero {s : State} {who : Nat} (v : Nat) (hopen : regsOpen s = true) (hpending : pregPending s who = false) :
    writeBy s who .REG_RSV_A 0 0 v = recordAcc s who true (regOffset .REG_RSV_A 0 0) .ok 0 :=
  registerWrite_unassigned s who (regOffset .REG_RSV_A 0 0) v hopen hpending regAt_reservation_zero

/-- D0 may write each field of a reservation there: here 100,000 MB/s, kind LT, for D0, enabled. -/
theorem unreserved_canWrite : CanWrite unreserved 0 .REG_RSV_A 0 0 0x800186A0
    [F.REG_RSV_A_RQ_RATE, F.REG_RSV_A_RKIND, F.REG_RSV_A_RDOM, F.REG_RSV_A_EN] := by
  unfold CanWrite WriteReady WriteOpen MayWrite
  decide +kernel

/-- R148 finds nothing against the entry. -/
theorem unreserved_rsvCheck : rsvCheck unreserved 0 (F.REG_RSV_A_RQ_RATE.val 0x800186A0) (F.REG_RSV_A_RKIND.val 0x800186A0)
    (F.REG_RSV_A_RDOM.val 0x800186A0) (F.REG_RSV_A_EN.hit 0x800186A0) = .ok := by decide +kernel

/-- Refutes O14: its clause of reservations takes in entry 0, and R148 numbers the entries 1 to 63. A write there is one of an unassigned location (R294): it is
answered OK, and no grants are computed for the next window. -/
theorem not_regulatorWrites : ¬ Obligations.RegulatorWrites := by
  unfold Obligations.RegulatorWrites
  rintro ⟨-, -, -, -, hreserve, -⟩
  obtain ⟨t, hrun, -, hgranted, -⟩ := hreserve unreserved 0 0 0x800186A0#32 unreserved_canWrite .ok unreserved_rsvCheck
  obtain ⟨⟨hopen, hpending, -⟩, -⟩ := unreserved_canWrite
  rw [exec_reservationWrite, Host.Outcome.next.injEq] at hrun
  have hreg : t.reg = unreserved.reg := by
    rw [← hrun, Fin.val_zero, Fin.val_zero, writeBy_reservation_zero _ hopen hpending, recordAcc_reg]
  obtain ⟨hgrants, -⟩ := hgranted rfl
  rw [hreg] at hgrants
  exact absurd hgrants (by decide)

end Sys2Proof.Machine


/-! SUPPORT. The ticks of the regulator (R144 to R150): the start of a 1 µs window, and the recomputation of S. -/

namespace Sys2Proof.Machine

/-! ## Grants -/

/-- Grants are written in the register store alone, at their own places. -/
theorem putGrants_reach (s : State) (gs : List (Nat × Nat)) : ∃ regs, putGrants s gs = { s with regs := regs } ∧
    ∀ k, k < F.REG_RSV_B_GRANT.key → SMap.get? regs k = SMap.get? s.regs k := by
  refine List.foldlRecOn (motive := fun t : State => ∃ regs, t = { s with regs := regs } ∧
    ∀ k, k < F.REG_RSV_B_GRANT.key → SMap.get? regs k = SMap.get? s.regs k) _ _ ⟨s.regs, rfl, fun _ _ => rfl⟩ ?_
  rintro t ⟨regs, rfl, hregs⟩ p -
  refine ⟨_, rfl, fun k hk => (SMap.get?_put_ne _ _ _ _ _ ?_).trans (hregs k hk)⟩
  have hplace : F.REG_RSV_B_GRANT.key ≤ F.REG_RSV_B_GRANT.at p.1 0 := by
    rw [Fld.at]
    omega
  omega

/-- A field below the grants reads the same after they were written. -/
theorem putGrants_rd (s : State) (gs : List (Nat × Nat)) {f : Fld} {i j : Nat} (h : f.at i j < F.REG_RSV_B_GRANT.key) :
    (putGrants s gs).rd f i j = s.rd f i j := by
  obtain ⟨regs, hput, hregs⟩ := putGrants_reach s gs
  rw [hput]
  simp only [State.rd, SMap.getD, hregs _ h]

/-! ## RESERVATION_WINDOW (R145, R147, R149, R150) -/

/-- Counts restart and theta is the one for this window. -/
def windowCounts (s : State) : State := { s with reg.rsvBytes := [], reg.meter := 0, reg.theta := s.reg.thetaNext }

/-- The S that waits for this window takes effect. -/
def applyEstimate (s : State) : State :=
  match s.reg.sNext with
  | some (S, ovc, fold, hot, none0) =>
    { (s.wr F.REG_S_S_EST S).wr F.REG_S_OVC (b2n ovc) with reg.foldAct := fold, reg.hotRanks := hot, reg.zeroCh := none0, reg.sNext := none }
  | none => s

/-- The grants that wait for this window take effect. -/
def applyGrants (s : State) : State :=
  match s.reg.grantNext with
  | some gs => { putGrants s gs with reg.grantNext := none }
  | none => s

/-- What the S of a window leaves of the rest. -/
theorem applyEstimate_frame (s : State) : (applyEstimate s).reg.rsvBytes = s.reg.rsvBytes ∧ (applyEstimate s).reg.meter = s.reg.meter ∧
    (applyEstimate s).reg.theta = s.reg.theta ∧ (applyEstimate s).reg.cnt = s.reg.cnt ∧ (applyEstimate s).mem = s.mem ∧
    (applyEstimate s).rqe = s.rqe := by
  unfold applyEstimate
  split <;> exact ⟨rfl, rfl, rfl, rfl, rfl, rfl⟩

/-- No S waits any longer. -/
theorem applyEstimate_sNext (s : State) : (applyEstimate s).reg.sNext = none := by
  unfold applyEstimate
  split
  · rfl
  next hnone => exact hnone

/-- The S and `OVC` that waited are shown. -/
theorem applyEstimate_rd {s : State} {v hot none0 : Nat} {ovc fold : Bool} (hS : s.reg.sNext = some (v, ovc, fold, hot, none0)) :
    (applyEstimate s).rd F.REG_S_S_EST = v % 2 ^ F.REG_S_S_EST.w ∧ (applyEstimate s).on F.REG_S_OVC = ovc := by
  rw [applyEstimate, hS]
  refine ⟨(State.rd_wr_ne _ _ _ _ _ _ _ _ (by decide)).trans (State.rd_wr_same ..), ?_⟩
  show (((s.wr F.REG_S_S_EST v).wr F.REG_S_OVC (b2n ovc)).rd F.REG_S_OVC == 1) = ovc
  rw [State.rd_wr_same]
  cases ovc <;> rfl

/-- What the grants of a window leave of the rest. -/
theorem applyGrants_frame (s : State) : (applyGrants s).reg.rsvBytes = s.reg.rsvBytes ∧ (applyGrants s).reg.meter = s.reg.meter ∧
    (applyGrants s).reg.theta = s.reg.theta ∧ (applyGrants s).reg.sNext = s.reg.sNext ∧ (applyGrants s).reg.cnt = s.reg.cnt ∧
    (applyGrants s).mem = s.mem ∧ (applyGrants s).rqe = s.rqe := by
  unfold applyGrants
  split
  next gs _ =>
    obtain ⟨regs, hput, -⟩ := putGrants_reach s gs
    rw [hput]
    exact ⟨rfl, rfl, rfl, rfl, rfl, rfl, rfl⟩
  next => exact ⟨rfl, rfl, rfl, rfl, rfl, rfl, rfl⟩

/-- No grants wait any longer. -/
theorem applyGrants_grantNext (s : State) : (applyGrants s).reg.grantNext = none := by
  unfold applyGrants
  split
  · rfl
  next hnone => exact hnone

/-- A field below the grants reads the same after they took effect. -/
theorem applyGrants_rd (s : State) {f : Fld} {i j : Nat} (h : f.at i j < F.REG_RSV_B_GRANT.key) : (applyGrants s).rd f i j = s.rd f i j := by
  unfold applyGrants
  split
  next gs _ => exact putGrants_rd s gs h
  next => rfl

/-! ## The commands -/

theorem exec_urgencyRecompute (s : State) : exec .urgencyRecompute s = .next (urgencyRecompute s) := rfl

/-- A window begins: counts restart, and what was computed for it takes effect. -/
theorem exec_reservationWindow (s : State) : exec .reservationWindow s = .next (applyGrants (applyEstimate (windowCounts s))) := rfl

/-- Settles O32: a window restarts its counts, then the S, then the grants that waited for it take effect; the grants lie above the fields of S. -/
theorem regulatorTicks : Obligations.RegulatorTicks := by
  unfold Obligations.RegulatorTicks
  refine ⟨exec_urgencyRecompute, fun s => ?_, fun s v ovc fold hot none0 hS => ?_⟩
  · obtain ⟨hbytes, hmeter, htheta, hcnt, hmem, hrqe⟩ := applyEstimate_frame (windowCounts s)
    obtain ⟨gbytes, gmeter, gtheta, gS, gcnt, gmem, grqe⟩ := applyGrants_frame (applyEstimate (windowCounts s))
    exact ⟨_, exec_reservationWindow s, gbytes.trans hbytes, gmeter.trans hmeter, gtheta.trans htheta, gS.trans (applyEstimate_sNext _),
      applyGrants_grantNext _, gcnt.trans hcnt, gmem.trans hmem, grqe.trans hrqe⟩
  · obtain ⟨hest, hovc⟩ := applyEstimate_rd (s := windowCounts s) hS
    refine ⟨_, exec_reservationWindow s, (applyGrants_rd _ (by decide)).trans hest, ?_⟩
    rw [State.on, applyGrants_rd _ (by decide)]
    exact hovc

end Sys2Proof.Machine


/-! SUPPORT. Words that wait for the MRAM port stay there through what is queued behind them and through a raise (R314, R324). -/

namespace Sys2Proof.Machine

/-- Every word that waits for the MRAM port, or is at it, still does. -/
structure KeepsWords (s t : State) : Prop where
  /-- The word is still there. -/
  atPort : ∀ w, AtPort s w → AtPort t w

theorem KeepsWords.of_pst {s t : State} (h : t.pst = s.pst) : KeepsWords s t :=
  ⟨fun w hw => by rwa [AtPort, h]⟩

theorem KeepsWords.refl (s : State) : KeepsWords s s := .of_pst rfl

theorem KeepsWords.trans {s t u : State} (h : KeepsWords s t) (k : KeepsWords t u) : KeepsWords s u :=
  ⟨fun w hw => k.atPort w (h.atPort w hw)⟩

theorem KeepsWords.ite {s a b : State} {c : Prop} [Decidable c] (ha : KeepsWords s a) (hb : KeepsWords s b) : KeepsWords s (if c then a else b) := by
  split
  · exact ha
  · exact hb

theorem KeepsWords.foldl {α : Type} {f : State → α → State} (hf : ∀ t x, KeepsWords t (f t x)) (s : State) (l : List α) : KeepsWords s (l.foldl f s) :=
  List.foldlRecOn (motive := KeepsWords s) l f (.refl s) fun t ht x _ => ht.trans (hf t x)

/-! ## The port -/

/-- The word that the free port takes is at it. -/
theorem portStart_keepsWords (s : State) : KeepsWords s s.portStart := by
  unfold State.portStart
  split
  next => exact .refl s
  next hfree =>
    split
    next => exact .refl s
    next x _ =>
      refine ⟨fun w hw => ?_⟩
      rcases hw with hw | hw
      · by_cases hx : w = x
        · exact .inr (congrArg some hx.symm)
        · exact .inl ((List.mem_erase_of_ne hx).2 hw)
      · exact absurd (hfree.symm.trans hw) (by simp)

/-- Words queued for the port go behind those that wait. -/
theorem portPut_keepsWords (s : State) (ws : List MWord) : KeepsWords s (s.portPut ws) := by
  refine KeepsWords.trans (t := { s with pst.q := s.pst.q ++ (if s.pst.only then ws.filter portAllowed else ws) }) ?_ (portStart_keepsWords _)
  exact ⟨fun w hw => hw.imp_left (List.mem_append_left _)⟩

/-- A word that a restricted port takes waits for it, or is at it, once queued. -/
theorem portPut_atPort (s : State) {ws : List MWord} {w : MWord} (hw : w ∈ ws) (hallowed : portAllowed w = true) : AtPort (s.portPut ws) w := by
  refine (portStart_keepsWords _).atPort w (.inl (List.mem_append_right _ ?_))
  split
  · exact List.mem_filter.2 ⟨hw, hallowed⟩
  · exact hw

/-! ## A raise -/

theorem queueEvt_pst (s : State) (d : Nat) (r : Raise) : (queueEvt s d r).pst = s.pst := by
  unfold queueEvt
  extract_lets q e missed p
  split_ifs <;> rfl

theorem queueCopy_pst (s : State) (r : Raise) : (queueCopy s r).pst = s.pst := by
  unfold queueCopy
  split <;> rfl

theorem capture_pst (s : State) (r : Raise) : (capture s r).pst = s.pst := by
  unfold capture
  split
  · exact List.foldlRecOn (motive := fun t : State => t.pst = s.pst) _ _ rfl fun t ht i _ => ht
  · split <;> rfl

theorem faultState_pst (s : State) (v : Sev) : (faultState s v).pst = s.pst := by
  unfold faultState
  split_ifs <;> rfl

theorem holdAlert_pst (s t : State) : (holdAlert s t).pst = t.pst := by
  unfold holdAlert
  split <;> rfl

theorem react_pst (s : State) (src : Nat) : (react s src).pst = s.pst := by
  unfold react
  split
  · rfl
  · split
    · split <;> rfl
    · rfl
  · rfl

theorem logToPort_keepsWords (s : State) (r : Raise) : KeepsWords s (s.logToPort r) := by
  unfold State.logToPort
  exact (portPut_keepsWords ..).trans (.of_pst rfl)

theorem queueLog_keepsWords (s : State) (r : Raise) : KeepsWords s (queueLog s r).1 := by
  unfold queueLog
  split
  · exact .refl s
  · split
    · exact KeepsWords.trans (t := { s with fcr.tokens := s.fcr.tokens - 1 }) (.of_pst rfl) (logToPort_keepsWords ..)
    · extract_lets n
      split_ifs <;> exact .of_pst rfl

theorem raiseOnce_keepsWords (s : State) (src : Nat) (v : Sev) (syn : List Nat) (test : Bool) : KeepsWords s (raiseOnce s src v syn test).1 := by
  unfold raiseOnce
  extract_lets r0 first s1 r s2 s3 s4 q p s5
  have h1 : KeepsWords s s1 := .ite (.of_pst ((faultState_pst ..).trans (capture_pst ..))) (.refl s)
  have h2 : KeepsWords s1 s2 := .foldl (fun t d => .ite (.of_pst (queueEvt_pst ..)) (.refl t)) s1 _
  have h3 : KeepsWords s2 s3 := .ite (.of_pst (holdAlert_pst ..)) (.refl s2)
  have h4 : KeepsWords s3 s4 := .ite (.of_pst (queueCopy_pst ..)) (.refl s3)
  have h5 : KeepsWords s4 s5 := .ite (.of_pst rfl) (.refl s4)
  have h6 : KeepsWords s s5 := (((h1.trans h2).trans h3).trans h4).trans h5
  clear_value s5
  have hlog : KeepsWords s5 (if (reaches v (s5.rd F.FCR_SRC_LOG_MIN src) || grave v) = true then queueLog s5 r else (s5, none)).1 := by
    split
    · exact queueLog_keepsWords ..
    · exact .refl s5
  split
  next s6 d hs6 =>
    rw [hs6] at hlog
    exact .ite ((h6.trans hlog).trans (.of_pst (react_pst ..))) (h6.trans hlog)

/-- A raise may queue the words of its record, behind those that wait. -/
theorem raiseAs_keepsWords (s : State) (src : Nat) (v : Sev) (syn : List Nat) (test : Bool) : KeepsWords s (s.raiseAs src v syn test) := by
  unfold State.raiseAs
  have h := raiseOnce_keepsWords s src v syn test
  split
  next u hu =>
    rw [hu] at h
    exact h
  next u cause hu =>
    rw [hu] at h
    have hdrop : KeepsWords s { u with fcr.lastDrop := some u.now } := h.trans (.of_pst rfl)
    exact .ite (hdrop.trans (raiseOnce_keepsWords ..)) hdrop

theorem raiseG_keepsWords (s : State) (src : Nat) (v : Sev) (unit value : Nat) (more : List Nat) : KeepsWords s (s.raiseG src v unit value more) :=
  raiseAs_keepsWords ..

end Sys2Proof.Machine


/-! SUPPORT. Operations that leave the bytes of memory and the remap table alone: the reports of a read. -/

namespace Sys2Proof.Machine

/-- Memory and the rows that serve other rows stay as they are. -/
def SameCells (s t : State) : Prop := t.mem = s.mem ∧ t.tsv.rmap = s.tsv.rmap

theorem SameCells.refl (s : State) : SameCells s s := ⟨rfl, rfl⟩

theorem SameCells.trans {s t u : State} (h : SameCells s t) (k : SameCells t u) : SameCells s u := ⟨k.1.trans h.1, k.2.trans h.2⟩

theorem SameCells.ite {s a b : State} {c : Prop} [Decidable c] (ha : SameCells s a) (hb : SameCells s b) : SameCells s (if c then a else b) := by
  split
  · exact ha
  · exact hb

theorem SameCells.inc {s t : State} (h : SameCells s t) (f : Fld) (n i j : Nat) : SameCells s (t.inc f n i j) := h.trans ⟨rfl, rfl⟩

theorem SameCells.lastCe {s t : State} (h : SameCells s t) (m : SMap Nat) : SameCells s { t with dip.lastCe := m } := h.trans ⟨rfl, rfl⟩

theorem raise_sameCells (s : State) (src : Nat) (v : Sev) (syn : List Nat) : SameCells s (s.raise src v syn) := by
  obtain ⟨-, -, -, -, hmem, -, -, -, -, -, -, -, -, -, -, htsv, -⟩ := (s.raise_reach src v syn).same
  exact ⟨hmem, congrArg (·.rmap) htsv⟩

theorem dipLog_sameCells (s : State) (r : List Nat) : SameCells s (dipLog s r) := .ite ⟨rfl, rfl⟩ ⟨rfl, rfl⟩

theorem dipTrigger_sameCells (s : State) (w : Where) (b : Beat) (trig : Nat) : SameCells s (dipTrigger s w b trig) :=
  (dipLog_sameCells ..).trans (raise_sameCells ..)

theorem ceRate_sameCells (s : State) (w : Where) (b : Beat) : SameCells s (ceRate s w b) := by
  unfold ceRate
  extract_lets old fresh n t0 done hit dip u
  exact SameCells.trans (t := u) ⟨rfl, rfl⟩ (.ite (dipTrigger_sameCells ..) (.refl u))

theorem fastStart_sameCells (s : State) (ch n : Nat) : SameCells s (fastStart s ch n) :=
  .ite (.refl s) (.ite (.ite ⟨rfl, rfl⟩ (.refl s)) ⟨rfl, rfl⟩)

theorem posHit_sameCells (s : State) (w : Where) (b : Beat) (p : Nat) : SameCells s (posHit s w b p) := by
  unfold posHit
  extract_lets n dip u dip' v
  have hu : SameCells s u := ⟨rfl, rfl⟩
  have hv : SameCells s v := hu.trans ⟨rfl, rfl⟩
  exact .ite ((hv.trans (dipTrigger_sameCells ..)).trans (fastStart_sameCells ..)) hu

theorem handOver_sameCells (s : State) (ch bank prow : Nat) : SameCells s (handOver s ch bank prow).1 := by
  unfold handOver
  split
  · exact .refl s
  · split
    · exact .refl s
    · unfold rprQueue
      split_ifs <;> exact ⟨rfl, rfl⟩

theorem trackRow_sameCells (s : State) (w : Where) (b : Beat) : SameCells s (trackRow s w b) := by
  unfold trackRow
  extract_lets ps bank es loc known m rest put least
  have hput (l : List (Nat × Nat × Nat)) : SameCells s (put s l) := ⟨rfl, rfl⟩
  refine .ite (.refl s) (.ite ?_ ?_)
  · have hover : SameCells s (handOver (put s rest) w.ch bank w.loc).1 := (hput rest).trans (handOver_sameCells ..)
    exact .ite ((hover.inc ..).trans (dipTrigger_sameCells ..)) hover
  · clear_value m known
    cases known with
    | some e => exact hput _
    | none => exact .ite (hput _) (hput _)

theorem reportBeat_sameCells (s : State) (w : Where) (b : Beat) : SameCells s (reportBeat s w b) := by
  unfold reportBeat
  split
  case h_1 => exact .refl s
  case h_2 =>
    have hlog : SameCells s (dipLog (s.inc F.DIP_UE_UE_CNT 1 w.ch) (errRecord (s.inc F.DIP_UE_UE_CNT 1 w.ch) w b 0)) :=
      ((SameCells.refl s).inc ..).trans (dipLog_sameCells ..)
    exact .ite hlog (hlog.trans (raise_sameCells ..))
  case h_3 ps =>
    extract_lets u due logged dip v x y
    have hu : SameCells s u := (SameCells.refl s).inc ..
    have hlogged : SameCells s logged := hu.trans (dipLog_sameCells ..)
    have hv : SameCells s v := .ite (hlogged.lastCe _) hu
    have hx : SameCells s x := hv.trans (ceRate_sameCells ..)
    have hy : SameCells s y := hx.trans (.ite (posHit_sameCells ..) (.refl x))
    exact .ite hv (.ite hx (hy.trans (trackRow_sameCells ..)))

/-- Reading a sector reports its errors, and changes no cell. -/
theorem readDram_sameCells (s : State) (ch ps req : Nat) (dom : Option Nat) (err : Nat → Nat) : SameCells s (readDram s ch ps req dom err).1 :=
  List.foldlRecOn (motive := SameCells s) _ _ (.refl s) fun t ht b _ => ht.trans (reportBeat_sameCells t _ b)

/-! ## One sector of memory -/

/-- Only the bytes of physical sector `ps` may differ, and the remap table is as it was. -/
def OnlySector (ps : Nat) (s t : State) : Prop := t.tsv.rmap = s.tsv.rmap ∧ ∀ a, a / 64 ≠ ps → Memory.get t.mem a = Memory.get s.mem a

theorem inject_sameCells (s : State) (ch ps : Nat) : SameCells s (inject s ch ps) := by
  unfold inject
  split
  · exact .refl s
  · exact .ite (.refl s) ⟨rfl, rfl⟩

theorem dramStore_onlySector (s : State) (ch ps : Nat) (x : Sector) : OnlySector ps s (s.dramStore ch ps x) := by
  obtain ⟨hmem, hrmap⟩ := inject_sameCells (s.storeSector ps x) ch ps
  exact ⟨hrmap, fun a ha => (congrArg (Memory.get · a) hmem).trans (s.storeSector_frame ps a x ha)⟩

theorem copySector_onlySector (s : State) (src srcPs dst dstPs : Nat) : OnlySector dstPs s (copySector s src srcPs dst dstPs) := by
  obtain ⟨hmem, hrmap⟩ := readDram_sameCells s src srcPs 4 none fun _ => 0
  unfold copySector
  obtain ⟨krmap, kmem⟩ := dramStore_onlySector (readDram s src srcPs 4 none fun _ => 0).1 dst dstPs
    (if (readDram s src srcPs 4 none fun _ => 0).2.2.1 = .uncorrectable then poisoned0 else (readDram s src srcPs 4 none fun _ => 0).2.1)
  exact ⟨krmap.trans hrmap, fun a ha => (kmem a ha).trans (congrArg (Memory.get · a) hmem)⟩

/-- Where a channel address lies depends on the remap table alone (R250). -/
theorem sectorAt_of_rmap {s t : State} (h : t.tsv.rmap = s.tsv.rmap) (ch c : Nat) : sectorAt t ch c = sectorAt s ch c := by
  simp only [sectorAt, physRow, spareOf, State.rmap, h]

end Sys2Proof.Machine


/-! SUPPORT. The fold (R254 to R257): the move of a unit, the end of a chunk, its entry into MIGRATE and its end. -/

namespace Sys2Proof.Machine

/-! ## The move of a unit (R254, R255) -/

/-- The move of a unit waits while a request to it is at work. -/
theorem foldBegin_of_busy {s : State} (h : unitBusy s (s.rd F.TSV_FOLD_STAT_FOLDED_CH) (s.rd F.TSV_FOLD_PTR_FOLD_PTR) = true) : foldBegin s = s := by
  unfold foldBegin
  simp [h]

/-- Sector `n` of unit `u` goes from channel `f` to channel `k`. -/
def unitCopy (f k u : Nat) (s : State) (n : Nat) : State :=
  if foldBlind s then s.dramStore k (sectorAt s k (0xF8000000 + (u * 1024 + 64 * n) % 2 ^ 27)) poisoned0
  else copySector s f (sectorAt s f (u * 1024 + 64 * n)) k (sectorAt s k (0xF8000000 + (u * 1024 + 64 * n) % 2 ^ 27))

/-- The sixteen sectors of unit `u` go from channel `f` to channel `k`. -/
def unitCopied (f k u : Nat) (s : State) : State := (List.range 16).foldl (unitCopy f k u) s

theorem unitCopy_onlySector (f k u : Nat) (s : State) (n : Nat) :
    OnlySector (sectorAt s k (0xF8000000 + (u * 1024 + 64 * n) % 2 ^ 27)) s (unitCopy f k u s n) := by
  unfold unitCopy
  split
  · exact dramStore_onlySector ..
  · exact copySector_onlySector ..

/-- The copy of a unit touches its sixteen target sectors alone. -/
theorem unitCopied_get (f k u : Nat) (s : State) (a : Nat)
    (h : ∀ n, n < 16 → a / 64 ≠ sectorAt s k (0xF8000000 + (u * 1024 + 64 * n) % 2 ^ 27)) :
    Memory.get (unitCopied f k u s).mem a = Memory.get s.mem a := by
  refine And.right (List.foldlRecOn (motive := fun t : State => t.tsv.rmap = s.tsv.rmap ∧ Memory.get t.mem a = Memory.get s.mem a)
    (List.range 16) (unitCopy f k u) ⟨rfl, rfl⟩ ?_)
  rintro t ⟨hrmap, hget⟩ n hn
  obtain ⟨krmap, kget⟩ := unitCopy_onlySector f k u t n
  refine ⟨krmap.trans hrmap, (kget a ?_).trans hget⟩
  rw [sectorAt_of_rmap hrmap]
  exact h n (List.mem_range.1 hn)

theorem exec_foldUnitMove {s : State} (h : s.fstate ≠ fPaused) : exec .foldUnitMove s = .next (foldUnitMove s) := by
  have hresume : foldResume s = s := if_neg fun hpaused => h hpaused.1
  show Host.Outcome.next (foldUnitMove (foldResume s)) = _
  rw [hresume]

theorem State.cnt_mem (s : State) (i n : Nat) : (s.cnt i n).mem = s.mem := rfl

/-- The move of unit `u` is over, and FOLD_PTR moves on. -/
def moveEnded (u : Nat) (s : State) : State := { s.wr F.TSV_FOLD_PTR_FOLD_PTR (u + 1) with tsv.foldMove := none }

theorem moveEnded_ptr (s : State) {u : Nat} (h : u < foldUnits) : (moveEnded u s).rd F.TSV_FOLD_PTR_FOLD_PTR = u + 1 := by
  have hwidth : foldUnits < 2 ^ F.TSV_FOLD_PTR_FOLD_PTR.w := by decide
  exact (State.rd_wr_same s ..).trans (Nat.mod_eq_of_lt (by omega))

theorem moveEnded_foldMove (u : Nat) (s : State) : (moveEnded u s).tsv.foldMove = none := rfl

theorem moveEnded_mem (u : Nat) (s : State) : (moveEnded u s).mem = s.mem := rfl

/-- A unit whose bursts have issued is copied and counted as class 7 traffic, and its move is over. -/
theorem foldUnitMove_of_done {s : State} (hstate : s.fstate = fMigrate) (hmove : s.tsv.foldMove = some true)
    (hdone : burstsDone s (foldTarget s (s.rd F.TSV_FOLD_PTR_FOLD_PTR)) .fold = true) :
    foldUnitMove s = moveEnded (s.rd F.TSV_FOLD_PTR_FOLD_PTR) (((unitCopied (s.rd F.TSV_FOLD_STAT_FOLDED_CH)
      (foldTarget s (s.rd F.TSV_FOLD_PTR_FOLD_PTR)) (s.rd F.TSV_FOLD_PTR_FOLD_PTR) s).cnt 14 1024).cnt 15 1024) := by
  refine if_neg ?_
  simp [hstate, hmove, hdone]

theorem foldUnitMove_of_not_done {s : State}
    (h : s.tsv.foldMove ≠ some true ∨ burstsDone s (foldTarget s (s.rd F.TSV_FOLD_PTR_FOLD_PTR)) .fold = false) : foldUnitMove s = s := by
  refine if_pos (.inr (h.imp_right fun hnot => ?_))
  rw [hnot]
  exact Bool.false_ne_true

theorem foldUnitMove_elsewhere {s : State} (h : s.fstate ≠ fMigrate) : foldUnitMove s = s := if_pos (.inl h)

/-! ## The end of a chunk (R257) -/

theorem foldEvent_reach (s : State) : RaiseReach s (foldEvent s) := s.raiseG_reach ..

theorem foldEvent_keepsWords (s : State) : KeepsWords s (foldEvent s) := raiseG_keepsWords ..

theorem foldEvent_mem (s : State) : (foldEvent s).mem = s.mem := by
  obtain ⟨-, -, -, -, hmem, -⟩ := (foldEvent_reach s).same
  exact hmem

/-- The word that stores FOLD_PTR, which a restricted port takes as well (R324). -/
def ptrWord (u : Nat) : MWord := { cls := 2, idx := pregIdx 4, mask := (2 ^ 22 - 1) * 2 ^ 0, val := (u % 2 ^ 22) * 2 ^ 0, act := .hw }

theorem ptrWord_val {u : Nat} (h : u < 2 ^ 22) : (ptrWord u).val = u := by
  show u % 2 ^ 22 * 2 ^ 0 = u
  rw [Nat.mod_eq_of_lt h, pow_zero, Nat.mul_one]

theorem putStackWord_ptrWord (s : State) (u : Nat) : AtPort (s.putStackWord 4 0 22 u) (ptrWord u) :=
  portPut_atPort s (List.mem_singleton.2 rfl) rfl

theorem foldChunkEnd_of_whole {s : State} (hstate : s.fstate = fMigrate) (hsome : s.rd F.TSV_FOLD_PTR_FOLD_PTR ≠ 0)
    (hwhole : s.rd F.TSV_FOLD_PTR_FOLD_PTR % 131072 = 0) : foldChunkEnd s = foldEvent (s.putStackWord 4 0 22 (s.rd F.TSV_FOLD_PTR_FOLD_PTR)) :=
  if_pos ⟨hstate, hsome, hwhole⟩

theorem foldChunkEnd_elsewhere {s : State} (h : s.fstate ≠ fMigrate) : foldChunkEnd s = s := if_neg fun hmigrate => h hmigrate.1

theorem putStackWord_mem (s : State) (n lo w v : Nat) : (s.putStackWord n lo w v).mem = s.mem := by
  obtain ⟨pst, hput⟩ := s.putStackWord_eq n lo w v
  rw [hput]

/-! ## `FSTATE` (R256) -/

theorem setFstate_fstate (s : State) (v : Nat) : (setFstate s v).fstate = v % 8 := by
  obtain ⟨pst, hput⟩ := (s.wr F.TSV_FOLD_STAT_FSTATE v).putStackWord_eq 3 2 8 (v + (s.wr F.TSV_FOLD_STAT_FSTATE v).rd F.TSV_FOLD_STAT_FOLDED_CH * 8)
  rw [setFstate, hput]
  exact State.rd_wr_same ..

theorem foldCleanEnd_of_clean {s : State} (hstate : s.fstate = fClean)
    (hslice : s.sstate (s.rd F.TSV_FOLD_STAT_FOLDED_CH) = ssBypass ∨ s.sstate (s.rd F.TSV_FOLD_STAT_FOLDED_CH) = ssOff) :
    foldCleanEnd s = setFstate s fMigrate := if_pos ⟨hstate, hslice⟩

theorem foldCleanEnd_of_drain {s : State} (hslice : s.sstate (s.rd F.TSV_FOLD_STAT_FOLDED_CH) = ssDrain) : foldCleanEnd s = s := by
  refine if_neg fun hend => ?_
  obtain ⟨-, hbypass | hoff⟩ := hend
  · exact absurd (hslice.symm.trans hbypass) (by decide)
  · exact absurd (hslice.symm.trans hoff) (by decide)

/-! ## The end of the fold (Table 11.6) -/

/-- Channel `f` and its slice are powered off, and the scrub goes on. -/
def foldOff (s : State) (f : Nat) : State :=
  { ((((setFstate s fDone).wr F.DMC_STAT_CSTATE 0 f).wr F.SCC_STAT_SSTATE ssOff f).wr F.DIP_SCRUB_STAT_SCRUB_PAUSED 0) with
    tsv.foldPoison := false }.setDmc f {}

theorem foldDone_of_whole {s : State} (hstate : s.fstate = fMigrate) (hwhole : s.rd F.TSV_FOLD_PTR_FOLD_PTR = foldUnits) :
    foldDone s = foldEvent (foldOff s (s.rd F.TSV_FOLD_STAT_FOLDED_CH)) := if_pos ⟨hstate, hwhole⟩

theorem foldDone_elsewhere {s : State} (h : s.fstate ≠ fMigrate) : foldDone s = s := if_neg fun hmigrate => h hmigrate.1

/-- What the end of the fold of channel `f` sets: no raise writes it. -/
theorem foldOff_places (f : Fin 32) : raisePlace (F.TSV_FOLD_STAT_FSTATE.at 0 0) = false ∧ raisePlace (F.DMC_STAT_CSTATE.at f.val 0) = false ∧
    raisePlace (F.SCC_STAT_SSTATE.at f.val 0) = false ∧ raisePlace (F.DIP_SCRUB_STAT_SCRUB_PAUSED.at 0 0) = false := by
  revert f
  decide

theorem foldOff_mem (s : State) (f : Nat) : (foldOff s f).mem = s.mem := putStackWord_mem ..

/-- The fold is DONE, channel `f` and its slice are OFF, and the scrub is not paused. -/
theorem foldOff_rd (s : State) (f : Fin 32) : (foldOff s f.val).fstate = fDone ∧ (foldOff s f.val).cstate f.val = 0 ∧
    (foldOff s f.val).sstate f.val = ssOff ∧ (foldOff s f.val).rd F.DIP_SCRUB_STAT_SCRUB_PAUSED = 0 := by
  have hapart : ∀ f : Fin 32,
      F.TSV_FOLD_STAT_FSTATE.at 0 0 ≠ F.DIP_SCRUB_STAT_SCRUB_PAUSED.at 0 0 ∧ F.TSV_FOLD_STAT_FSTATE.at 0 0 ≠ F.SCC_STAT_SSTATE.at f.val 0 ∧
      F.TSV_FOLD_STAT_FSTATE.at 0 0 ≠ F.DMC_STAT_CSTATE.at f.val 0 ∧ F.DMC_STAT_CSTATE.at f.val 0 ≠ F.DIP_SCRUB_STAT_SCRUB_PAUSED.at 0 0 ∧
      F.DMC_STAT_CSTATE.at f.val 0 ≠ F.SCC_STAT_SSTATE.at f.val 0 ∧ F.SCC_STAT_SSTATE.at f.val 0 ≠ F.DIP_SCRUB_STAT_SCRUB_PAUSED.at 0 0 := by decide
  obtain ⟨hfoldScrub, hfoldSlice, hfoldChannel, hchannelScrub, hchannelSlice, hsliceScrub⟩ := hapart f
  have hrd (g : Fld) (i : Nat) : (foldOff s f.val).rd g i =
      ((((setFstate s fDone).wr F.DMC_STAT_CSTATE 0 f.val).wr F.SCC_STAT_SSTATE ssOff f.val).wr F.DIP_SCRUB_STAT_SCRUB_PAUSED 0).rd g i := rfl
  refine ⟨(hrd ..).trans ?_, (hrd ..).trans ?_, (hrd ..).trans ?_, (hrd ..).trans (State.rd_wr_same ..)⟩
  · rw [State.rd_wr_ne _ _ _ _ _ _ _ _ hfoldScrub, State.rd_wr_ne _ _ _ _ _ _ _ _ hfoldSlice, State.rd_wr_ne _ _ _ _ _ _ _ _ hfoldChannel]
    exact setFstate_fstate ..
  · rw [State.rd_wr_ne _ _ _ _ _ _ _ _ hchannelScrub, State.rd_wr_ne _ _ _ _ _ _ _ _ hchannelSlice, State.rd_wr_same]
    rfl
  · rw [State.rd_wr_ne _ _ _ _ _ _ _ _ hsliceScrub, State.rd_wr_same]
    rfl

end Sys2Proof.Machine


/-! SUPPORT. The estimate S (R146, R147, R149), contexts that change owner (R138), and the settlement of O39. -/

namespace Sys2Proof.SMap

/-- A map cut to the keys of a kind. -/
theorem get?_filter_key {α : Type} (m : SMap α) (p : Nat → Bool) (k : Nat) : get? (m.filter fun x => p x.1) k = if p k then get? m k else none := by
  induction m with
  | nil => exact (ite_self none).symm
  | cons x m ih =>
    rw [List.filter_cons, get?_cons]
    by_cases hp : p x.1 = true
    · rw [if_pos hp, get?_cons, ih]
      by_cases hx : x.1 = k
      · rw [if_pos hx, if_pos hx, ← hx, if_pos hp]
      · rw [if_neg hx, if_neg hx]
    · rw [if_neg hp, ih]
      by_cases hx : x.1 = k
      · rw [← hx, if_neg hp, if_neg hp]
      · rw [if_neg hx]

end Sys2Proof.SMap

namespace Sys2Proof.Machine

/-! ## S_RECOMPUTE (R146, R149) -/

theorem noteOvc_reach (s : State) (was now' : Bool) : RaiseReach s (noteOvc s was now') := .ite (s.raiseG_reach ..) (.refl s)

/-- S and the grants as they are held for the next window. -/
def estimated (s : State) : State :=
  { s with
    reg.sNext := some ((computeS s s.reg.thetaNext).1, (grantsFor s (computeS s s.reg.thetaNext).1).2, (computeS s s.reg.thetaNext).2)
    reg.grantNext := some (grantsFor s (computeS s s.reg.thetaNext).1).1 }

theorem sRecompute_eq (s : State) :
    sRecompute s = noteOvc (estimated s) (ovcPending s) (grantsFor s (computeS s s.reg.thetaNext).1).2 := rfl

/-- The computation of S reaches the regulator as said, and else what a raise reaches. -/
theorem sRecompute_estimated (s : State) : (sRecompute s).mem = s.mem ∧ (sRecompute s).reg = (estimated s).reg := by
  obtain ⟨-, -, -, -, hmem, -, -, -, -, -, hreg, -⟩ :=
    (noteOvc_reach (estimated s) (ovcPending s) (grantsFor s (computeS s s.reg.thetaNext).1).2).same
  rw [sRecompute_eq]
  exact ⟨hmem, hreg⟩

/-! ## BOW_CONTEXT_RESET_DONE (R138) -/

theorem bowReset_of_job {s : State} {d : Nat} {old : List (Nat × Nat)} (hjob : SMap.get? s.reg.rangeJob d = some old) :
    bowReset d s = { s.wr F.REG_BOW_EN_BOW_BUSY 0 d with
      reg.rangeJob := SMap.erase s.reg.rangeJob d
      reg.ctx := s.reg.ctx.filter fun x => inRanges old x.1 == inRanges (enabledRange s d) x.1 } := by
  rw [bowReset, hjob]

/-- A context whose bow number entered or left the domain's range is reset, and every other one stays. -/
theorem bowReset_ctx {s : State} {d : Nat} {old : List (Nat × Nat)} (hjob : SMap.get? s.reg.rangeJob d = some old) (b : Nat) :
    (bowReset d s).ctx b = if inRanges old b = inRanges (enabledRange s d) b then s.ctx b else {} := by
  rw [bowReset_of_job hjob, State.ctx, SMap.getD, SMap.get?_filter_key s.reg.ctx fun k => inRanges old k == inRanges (enabledRange s d) k]
  by_cases hsame : inRanges old b = inRanges (enabledRange s d) b
  · rw [if_pos (beq_iff_eq.2 hsame), if_pos hsame]
    rfl
  · rw [if_neg fun h => hsame (beq_iff_eq.1 h), if_neg hsame]
    rfl

/-! ## The commands -/

theorem exec_foldChunkEnd (s : State) : exec .foldChunkEnd s = .next (foldChunkEnd s) := rfl

theorem exec_foldCleanEnd (s : State) : exec .foldCleanEnd s = .next (foldCleanEnd s) := rfl

theorem exec_foldDone (s : State) : exec .foldDone s = .next (foldDone s) := rfl

theorem exec_sRecompute (s : State) : exec .sRecompute s = .next (sRecompute s) := rfl

theorem exec_bowContextResetDone (d : Fin 16) (s : State) : exec (.bowContextResetDone d) s = .next (bowReset d.val s) := rfl

theorem not_paused_of_migrate {s : State} (h : s.fstate = fMigrate) : s.fstate ≠ fPaused := h.trans_ne (by decide)

/-- Settles O39: outside its own condition each step of the fold leaves the state; inside it, what it writes is read back. The copy of a unit reaches its
target sectors alone, the word of FOLD_PTR stays at the port through the event of the chunk, and S and the grants stand in the regulator, which no raise
reaches. -/
theorem foldAndRegulation : Obligations.FoldAndRegulation := by
  unfold Obligations.FoldAndRegulation
  refine ⟨fun s hstate _ hptr => ⟨foldBegin_of_busy, fun hmove hdone => ?_, fun hwait => ?_⟩, fun s hnot hpaused => ⟨?_, ?_, ?_⟩,
    fun s hstate hsome hlt hwhole => ?_, fun s hstate hslice => ?_, fun s _ hslice => ?_, fun s hstate hchannel hwhole => ?_, fun s => ?_,
    fun s d old hjob => ?_⟩
  · refine ⟨_, exec_foldUnitMove (not_paused_of_migrate hstate), ?_⟩
    rw [foldUnitMove_of_done hstate hmove hdone]
    refine ⟨moveEnded_ptr _ hptr, moveEnded_foldMove .., fun a ha => ?_⟩
    rw [moveEnded_mem, State.cnt_mem, State.cnt_mem, unitCopied_get _ _ _ _ _ ha]
  · rw [exec_foldUnitMove (not_paused_of_migrate hstate), foldUnitMove_of_not_done hwait]
  · rw [exec_foldUnitMove hpaused, foldUnitMove_elsewhere hnot]
  · rw [exec_foldChunkEnd, foldChunkEnd_elsewhere hnot]
  · rw [exec_foldDone, foldDone_elsewhere hnot]
  · refine ⟨_, ptrWord (s.rd F.TSV_FOLD_PTR_FOLD_PTR), exec_foldChunkEnd s, ?_, rfl, ?_, ?_⟩
    · rw [foldChunkEnd_of_whole hstate hsome hwhole]
      exact (foldEvent_keepsWords _).atPort _ (putStackWord_ptrWord ..)
    · exact ptrWord_val hlt
    · rw [foldChunkEnd_of_whole hstate hsome hwhole, foldEvent_mem, putStackWord_mem]
  · exact ⟨_, exec_foldCleanEnd s, by rw [foldCleanEnd_of_clean hstate hslice, setFstate_fstate]; rfl⟩
  · rw [exec_foldCleanEnd, foldCleanEnd_of_drain hslice]
  · obtain ⟨hfold, hchannelOff, hsliceOff, hscrub⟩ := foldOff_rd s ⟨_, hchannel⟩
    obtain ⟨pfold, pchannel, pslice, pscrub⟩ := foldOff_places ⟨_, hchannel⟩
    have hreach := foldEvent_reach (foldOff s (s.rd F.TSV_FOLD_STAT_FOLDED_CH))
    refine ⟨_, exec_foldDone s, ?_⟩
    rw [foldDone_of_whole hstate hwhole]
    refine ⟨(hreach.rd _ _ _ pfold).trans hfold, (hreach.rd _ _ _ pchannel).trans hchannelOff, (hreach.rd _ _ _ pslice).trans hsliceOff, ?_,
      (foldEvent_mem _).trans (foldOff_mem ..)⟩
    rw [State.on, hreach.rd _ _ _ pscrub, hscrub]
    rfl
  · obtain ⟨hmem, hreg⟩ := sRecompute_estimated s
    exact ⟨_, exec_sRecompute s, hmem, by rw [hreg, estimated], by rw [hreg, estimated]⟩
  · refine ⟨_, exec_bowContextResetDone d s, ?_, ?_, fun b => ⟨fun hmoved => ?_, fun hsame => ?_⟩⟩
    · rw [State.on, bowReset_of_job hjob]
      exact beq_eq_false_iff_ne.2 ((State.rd_wr_same s F.REG_BOW_EN_BOW_BUSY 0 d.val 0).trans_ne (by decide))
    · rw [bowReset_of_job hjob]
      exact SMap.get?_erase_same ..
    · rw [bowReset_ctx hjob, if_neg hmoved]
    · rw [bowReset_ctx hjob, if_pos hsame]

end Sys2Proof.Machine


/-! SUPPORT. What the operations of a slice (ch. 7) write of the registers, and the sectors that they leave invalid. -/

namespace Sys2Proof.Machine

/-! ## Registers that the operations of a slice write -/

theorem dropClean_regs (s : State) (sl : Nat) (ls : List (Nat × Nat)) : (dropClean s sl ls).regs = s.regs :=
  List.foldlRecOn (motive := fun t : State => t.regs = s.regs) ls _ rfl fun _ ht _ _ => ht

theorem abandonOp_placeKept {k sl : Nat} (s : State) (h : F.SCC_OPS_STAT_OPS_RES.at sl 0 ≠ k) : PlaceKept k s (abandonOp s sl) := by
  unfold abandonOp
  split
  · exact .refl s
  · exact ((PlaceKept.refl s).trans (.of_eq rfl)).wr _ h

/-- Keeping the drain list after an operation was abandoned writes `OPS_RES` alone. -/
theorem keepDirty_placeKept {k sl : Nat} (s : State) (h : F.SCC_OPS_STAT_OPS_RES.at sl 0 ≠ k) : PlaceKept k s (keepDirty (abandonOp s sl) sl) :=
  (abandonOp_placeKept s h).trans (.of_eq (dropClean_regs ..))

theorem startDrain_placeKept {k sl : Nat} (s : State) (hres : F.SCC_OPS_STAT_OPS_RES.at sl 0 ≠ k) (hstate : F.SCC_STAT_SSTATE.at sl 0 ≠ k) :
    PlaceKept k s (startDrain s sl) := (keepDirty_placeKept s hres).wr _ hstate

/-- A slice that begins its drain is in DRAIN. -/
theorem startDrain_sstate (s : State) (sl : Nat) : (startDrain s sl).sstate sl = ssDrain := State.rd_wr_same ..

/-- The fields of a slice and its channel that the slice's operations write: a fault's record, an operation's end, and write-backs (R166, R169, R173). -/
def sliceWritten : List Fld :=
  [F.SCC_STAT_SFAULT, F.SCC_STAT_FCAUSE, F.SCC_STAT_SSTATE, F.SCC_OPS_STAT_OPS_RES, F.TSV_DROP_DROP_WR, F.DMC_WR_SECT_WR_SECT, F.SCC_WB_WB_SECT]

/-- A place that no operation of a slice writes, nor the raise and the injected error that go with one. -/
structure ApartFromSlice (sl k : Nat) : Prop where
  raised : raisePlace k = false
  injected : F.DIP_INJ_INJ_ARMED.at 0 0 ≠ k
  written : ∀ f ∈ sliceWritten, f.at sl 0 ≠ k

section
variable {sl k : Nat} (h : ApartFromSlice sl k)
include h

theorem dramWrite_placeKept (s : State) (c : Nat) (x : Sector) : PlaceKept k s (s.dramWrite sl c x) := by
  have hstore (ps : Nat) : PlaceKept k s (s.dramStore sl ps x) := by
    unfold State.dramStore inject
    split
    · exact .of_eq rfl
    · exact .ite (.of_eq rfl) (((PlaceKept.refl s).wr (f := F.DIP_INJ_INJ_ARMED) 0 h.injected).trans (.of_eq rfl))
  exact .ite ((PlaceKept.refl s).inc 1 (h.written _ (by simp [sliceWritten]))) ((hstore _).inc 1 (h.written _ (by simp [sliceWritten])))

theorem cleanHalf_placeKept (s : State) (set w half next : Nat) : PlaceKept k s (cleanHalf s sl set w half next) := by
  have hline (t : State) (x : Line) : PlaceKept k t (t.setLine sl set w x) := .of_eq rfl
  exact .ite (((dramWrite_placeKept h ..).trans (hline ..)).inc 1 (h.written _ (by simp [sliceWritten]))) (.ite (hline ..) (.refl s))

theorem cleanLines_placeKept (s : State) (next : Nat) (ls : List (Nat × Nat)) : PlaceKept k s (cleanLines s sl next ls) :=
  .foldl (fun t _ => (cleanHalf_placeKept h t ..).trans (cleanHalf_placeKept h ..)) s ls

theorem sliceFault_placeKept (cause : Nat) (s : State) : PlaceKept k s (sliceFault sl cause s) := by
  have hres := h.written F.SCC_OPS_STAT_OPS_RES (by simp [sliceWritten])
  have hstate := h.written F.SCC_STAT_SSTATE (by simp [sliceWritten])
  have hfault := h.written F.SCC_STAT_SFAULT (by simp [sliceWritten])
  have hcause := h.written F.SCC_STAT_FCAUSE (by simp [sliceWritten])
  have hlose (t : State) : PlaceKept k t (loseLine t sl) := .of_eq rfl
  unfold sliceFault
  extract_lets clean sev u v
  have hu : PlaceKept k s u :=
    (((PlaceKept.refl s).wr 1 hfault).wr cause hcause).raiseG 263 sev sl cause h.raised
  have hv : PlaceKept k s v := hu.trans (.ite (hlose u) (.refl u))
  exact .ite (.refl s) (.ite (hv.wr _ hstate) (.ite (hv.trans (abandonOp_placeKept v hres))
    (.ite (hv.trans (keepDirty_placeKept v hres)) (hv.trans (startDrain_placeKept v hres hstate)))))

/-- Besides `WAY_DIS`, retiring a way writes what a slice's operations write. -/
theorem retireWay_placeKept (s : State) {w : Nat} (hnew : bit (s.rd F.SCC_WAYS_WAY_DIS sl) w = false) :
    PlaceKept k (s.wr F.SCC_WAYS_WAY_DIS (setBit (s.rd F.SCC_WAYS_WAY_DIS sl) w) sl) (retireWay s sl w) := by
  unfold retireWay
  extract_lets d u ls v x
  have hv : PlaceKept k u v := .ite (cleanLines_placeKept h ..) (.of_eq (dropClean_regs ..))
  have hx : PlaceKept k u x := hv.raiseG 264 .warn sl w h.raised
  rw [if_neg (by simp [d, hnew])]
  exact .ite (hx.trans (sliceFault_placeKept h ..)) hx

end

/-! ## Sectors that stay invalid -/

@[simp] theorem normLine_st (x : Line) (h : Nat) : (normLine x).st h = x.st h := by
  unfold normLine
  split
  next hinvalid =>
    obtain ⟨h0, h1⟩ := hinvalid
    simp [Line.st, h0, h1]
  next => rfl

@[simp] theorem withHalf_st (x : Line) (h st : Nat) (d : Sector) : (x.withHalf h st d).st h = st := by
  unfold Line.withHalf Line.st
  split
  · rfl
  · rfl

theorem emptyLine_st (h : Nat) : ({} : Line).st h = 0 := ite_self 0

/-- The other half of a line stays as it was. -/
theorem withHalf_st_other (x : Line) {h k : Nat} (st : Nat) (d : Sector) (hne : (h = 0) ≠ (k = 0)) : (x.withHalf h st d).st k = x.st k := by
  unfold Line.withHalf Line.st
  dsimp only
  by_cases hh : h = 0
  · have hk : k ≠ 0 := fun hk => hne (by simp [hh, hk])
    rw [if_pos hh, if_neg hk, if_neg hk]
  · have hk : k = 0 := by_contra fun hk => hne (by simp [hh, hk])
    rw [if_neg hh, if_pos hk, if_pos hk]

/-- A half of one index is the half of another of the same parity. -/
theorem line_st_congr (x : Line) {h k : Nat} (heq : (h = 0) = (k = 0)) : x.st h = x.st k := by
  unfold Line.st
  simp only [heq]

/-- A half made invalid leaves an invalid half of the line invalid. -/
theorem withHalf_zero (x : Line) (h : Nat) (d : Sector) {k : Nat} (hk : x.st k = 0) : (x.withHalf h 0 d).st k = 0 := by
  by_cases heq : (h = 0) = (k = 0)
  · rw [← line_st_congr _ heq, withHalf_st]
  · rw [withHalf_st_other _ _ _ heq, hk]

/-- A valid half that changes leaves an invalid half of the line invalid. -/
theorem withHalf_invalid (x : Line) {h : Nat} (st : Nat) (d : Sector) (hvalid : x.st h ≠ 0) {k : Nat} (hk : x.st k = 0) :
    (x.withHalf h st d).st k = 0 := by
  by_cases heq : (h = 0) = (k = 0)
  · exact absurd ((line_st_congr x heq).trans hk) hvalid
  · rw [withHalf_st_other _ _ _ heq, hk]

/-- Every sector that is I stays I. -/
structure InvalidKept (s t : State) : Prop where
  get : ∀ k h, (SMap.getD s.scc.line k {}).st h = 0 → (SMap.getD t.scc.line k {}).st h = 0

theorem InvalidKept.line {s t : State} (h : InvalidKept s t) {sl set w half : Nat} (hs : (s.line sl set w).st half = 0) : (t.line sl set w).st half = 0 :=
  h.get _ _ hs

theorem InvalidKept.of_line {s t : State} (h : t.scc.line = s.scc.line) : InvalidKept s t := ⟨fun k half hs => by rw [h]; exact hs⟩

theorem InvalidKept.refl (s : State) : InvalidKept s s := .of_line rfl

theorem InvalidKept.trans {s t u : State} (h : InvalidKept s t) (g : InvalidKept t u) : InvalidKept s u :=
  ⟨fun k half hs => g.get k half (h.get k half hs)⟩

/-- What is done after a step that leaves the lines. -/
theorem InvalidKept.after {s t u : State} (g : InvalidKept t u) (h : t.scc.line = s.scc.line) : InvalidKept s u := (InvalidKept.of_line h).trans g

theorem InvalidKept.ite {c : Prop} [Decidable c] {s a b : State} (ha : InvalidKept s a) (hb : InvalidKept s b) :
    InvalidKept s (if c then a else b) := by
  split
  · exact ha
  · exact hb

theorem InvalidKept.foldl {α : Type} {f : State → α → State} (hf : ∀ t x, InvalidKept t (f t x)) (s : State) (l : List α) :
    InvalidKept s (l.foldl f s) :=
  List.foldlRecOn (motive := InvalidKept s) l f (.refl s) fun t ht x _ => ht.trans (hf t x)

theorem InvalidKept.raiseG (s : State) (src : Nat) (v : Sev) (unit value : Nat) : InvalidKept s (s.raiseG src v unit value) := by
  obtain ⟨regs, fc, p, d, w, heq, -⟩ := s.raiseG_reach src v unit value []
  rw [heq]
  exact .of_line rfl

/-- A line that is stored with its invalid halves still invalid. -/
theorem InvalidKept.setLine {s : State} {sl set w : Nat} {x : Line} (h : ∀ half, (s.line sl set w).st half = 0 → x.st half = 0) :
    InvalidKept s (s.setLine sl set w x) := by
  refine ⟨fun k half hs => ?_⟩
  by_cases hk : k = lineKey sl set w
  · subst hk
    show ((s.setLine sl set w x).line sl set w).st half = 0
    rw [State.setLine_line_same, normLine_st]
    exact h half hs
  · rw [State.setLine, SMap.getD_put_ne _ _ _ _ _ _ hk]
    exact hs

theorem dramWrite_scc (s : State) (ch c : Nat) (x : Sector) : (s.dramWrite ch c x).scc = s.scc := by
  unfold State.dramWrite State.dramStore inject
  split
  · rfl
  · split
    · rfl
    · split <;> rfl

theorem cleanHalf_invalidKept (s : State) (sl set w half next : Nat) : InvalidKept s (cleanHalf s sl set w half next) := by
  unfold cleanHalf
  extract_lets x u
  have hu : u.scc = s.scc := dramWrite_scc ..
  have hline : u.line sl set w = x := by rw [State.line, hu]; rfl
  split
  next hdirty =>
    have hset : InvalidKept u (u.setLine sl set w (x.withHalf half next (x.sect half))) := .setLine fun k hk =>
      withHalf_invalid x next _ (by rw [hdirty]; decide) (by rwa [hline] at hk)
    exact (hset.after (by rw [hu])).trans (.of_line rfl)
  next => exact .ite (.setLine fun k hk => withHalf_zero x half _ hk) (.refl s)

theorem cleanLines_invalidKept (s : State) (sl next : Nat) (ls : List (Nat × Nat)) : InvalidKept s (cleanLines s sl next ls) :=
  .foldl (fun t _ => (cleanHalf_invalidKept t ..).trans (cleanHalf_invalidKept ..)) s ls

/-- A line with a half that is not D made I. -/
theorem dropHalf_invalid (x : Line) (h : Nat) (c : Prop) [Decidable c] (d : Sector) {k : Nat} (hk : x.st k = 0) :
    (if c then x else x.withHalf h 0 d).st k = 0 := by
  split
  · exact hk
  · exact withHalf_zero _ _ _ hk

theorem dropClean_invalidKept (s : State) (sl : Nat) (ls : List (Nat × Nat)) : InvalidKept s (dropClean s sl ls) :=
  .foldl (fun _ _ => .setLine fun _ hk => dropHalf_invalid _ 1 _ _ (dropHalf_invalid _ 0 _ _ hk)) s ls

theorem abandonOp_line (s : State) (sl : Nat) : (abandonOp s sl).scc.line = s.scc.line := by
  unfold abandonOp
  split <;> rfl

theorem keepDirty_invalidKept (s : State) (sl : Nat) : InvalidKept s (keepDirty (abandonOp s sl) sl) :=
  (dropClean_invalidKept ..).after (abandonOp_line ..)

theorem sliceFault_invalidKept (sl cause : Nat) (s : State) : InvalidKept s (sliceFault sl cause s) := by
  have hlose (t : State) : InvalidKept t (loseLine t sl) := (InvalidKept.setLine (s := t.draw.2) fun half _ => emptyLine_st half).after rfl
  unfold sliceFault
  extract_lets clean sev u v
  have hu : InvalidKept s u := (InvalidKept.raiseG ..).after (t := (s.wr F.SCC_STAT_SFAULT 1 sl).wr F.SCC_STAT_FCAUSE cause sl) rfl
  have hv : InvalidKept s v := hu.trans (.ite (hlose u) (.refl u))
  have hkeep : InvalidKept s (keepDirty (abandonOp v sl) sl) := hv.trans (keepDirty_invalidKept ..)
  exact .ite (.refl s) (.ite (hv.trans (.of_line rfl)) (.ite (hv.trans (.of_line (abandonOp_line ..))) (.ite hkeep (hkeep.trans (.of_line rfl)))))

theorem retireWay_invalidKept (s : State) (sl w : Nat) : InvalidKept s (retireWay s sl w) := by
  unfold retireWay
  extract_lets d u ls v x
  have hv : InvalidKept s v := (InvalidKept.ite (cleanLines_invalidKept ..) (dropClean_invalidKept ..)).after (t := u) rfl
  have hx : InvalidKept s x := hv.trans (.raiseG ..)
  exact .ite (.refl s) (.ite (hx.trans (sliceFault_invalidKept ..)) hx)

theorem countSliceUe_invalidKept (s : State) (sl set w : Nat) : InvalidKept s (countSliceUe s sl set w) :=
  .ite ((retireWay_invalidKept ..).after rfl) (.of_line rfl)

end Sys2Proof.Machine


/-! SUPPORT. Fills, decodes, faults, drains, the crossing, operations and victims of a slice (R159, R164, R166, R170, R171, R173, Table 7.4). -/

namespace Sys2Proof.Machine

/-! ## Places of a slice's registers -/

/-- `SSTATE`, `SFAULT` and `FCAUSE` lie apart from what a raise and the end of an operation write. -/
theorem faultFlds_apart (sl : Fin 32) : ∀ f ∈ [F.SCC_STAT_SSTATE, F.SCC_STAT_SFAULT, F.SCC_STAT_FCAUSE],
    raisePlace (f.at sl.val 0) = false ∧ F.SCC_OPS_STAT_OPS_RES.at sl.val 0 ≠ f.at sl.val 0 := by
  revert sl
  decide

/-- Fields of a slice that its own operations only read: the code and the margin of its crossing, and `WAY_DIS`. -/
def sliceSettings : List Fld := [F.SCC_XING_CLK_DLY, F.SCC_XING_STAT_MARGIN, F.SCC_WAYS_WAY_DIS]

theorem sliceSettings_apart (sl : Fin 32) {f : Fld} (hf : f ∈ sliceSettings) : ApartFromSlice sl.val (f.at sl.val 0) := by
  have hplaces : ∀ sl : Fin 32, ∀ f ∈ sliceSettings, raisePlace (f.at sl.val 0) = false ∧ F.DIP_INJ_INJ_ARMED.at 0 0 ≠ f.at sl.val 0 ∧
      ∀ g ∈ sliceWritten, g.at sl.val 0 ≠ f.at sl.val 0 := by decide
  obtain ⟨hraise, hinject, hwrite⟩ := hplaces sl f hf
  exact ⟨hraise, hinject, hwrite⟩

/-! ## Fills (Table 7.4) -/

theorem withHalf_sect (x : Line) (h : Nat) {st : Nat} (d : Sector) (hvalid : st = 2 ∨ st = 3) : (x.withHalf h st d).sect h = d := by
  unfold Line.withHalf Line.sect
  rw [if_pos hvalid]
  split
  · rfl
  · rfl

theorem normLine_of_valid {x : Line} {h : Nat} (hx : x.st h ≠ 0) : normLine x = x := by
  refine if_neg fun ⟨h0, h1⟩ => hx ?_
  unfold Line.st
  split
  · exact h0
  · exact h1

theorem fillArrive_oldest {s : State} {ch c : Nat} {x : Option Sector} {k : Code} {rest : List (Nat × Option Sector × Code)}
    (h : (s.dmcOf ch).fills = (c, x, k) :: rest) : fillArrive ch s = fillSector (s.setDmc ch { s.dmcOf ch with fills := rest }) ch c x := by
  simp only [fillArrive, h]

/-- The half of a line that a fill makes C with its data, or I. -/
def filled (l : Line) (h : Nat) : Option Sector → Line
  | some d => l.withHalf h 2 d
  | none => l.withHalf h 0 zeroSector

theorem fillSector_pending {s : State} {ch c w : Nat} (x : Option Sector) (hway : wayOf s ch c = some w)
    (hpending : (s.line ch (setOf c) w).st (halfOf c) = 1) :
    fillSector s ch c x = s.setLine ch (setOf c) w (filled (s.line ch (setOf c) w) (halfOf c) x) := by
  unfold fillSector
  simp only [hway, hpending]
  cases x <;> rfl

/-! ## Decodes (R171) -/

theorem sliceDecode_good {out : Nat} (h : out ≠ 2) (sl set w half : Nat) (s : State) : sliceDecode sl set w half out s = s := if_pos (.inl h)

/-- An uncorrectable read of a valid sector leaves it I, whatever the count of such reads then retires. -/
theorem sliceDecode_uncorrectable {s : State} {sl set w half : Nat} (hvalid : 2 ≤ (s.line sl set w).st half) :
    ((sliceDecode sl set w half 2 s).line sl set w).st half = 0 := by
  unfold sliceDecode
  extract_lets x u
  rw [if_neg (by simp only [x, ne_eq, not_true_eq_false, false_or]; omega)]
  refine (countSliceUe_invalidKept ..).line ?_
  rw [State.setLine_line_same, normLine_st, withHalf_st]

/-! ## Faults (R173) -/

/-- A slice with its fault recorded and raised, before it goes on by its state. -/
def faultRecorded (s : State) (sl cause : Nat) : State :=
  let sev : Sev := if cause = 4 ∧ ¬ (dirtyLines s sl == 0 || wtClean s sl) then .fatal else .fault
  let u := ((s.wr F.SCC_STAT_SFAULT 1 sl).wr F.SCC_STAT_FCAUSE cause sl).raiseG 263 sev sl cause
  if cause = 4 then loseLine u sl else u

/-- How a faulted slice that BIST did not find goes on, by its state (Table 7.7). -/
def faultEntered (v : State) (sl : Nat) : State :=
  if v.sstate sl = ssBypass then v.wr F.SCC_STAT_SSTATE ssBypass sl
  else if v.sstate sl = ssDrain then abandonOp v sl
  else if v.sstate sl = ssFlush then keepDirty (abandonOp v sl) sl
  else startDrain v sl

theorem sliceFault_already {s : State} {sl : Nat} (cause : Nat) (h : s.on F.SCC_STAT_SFAULT sl = true) : sliceFault sl cause s = s := by
  simp [sliceFault, h]

theorem sliceFault_fresh {s : State} {sl cause : Nat} (hfresh : s.on F.SCC_STAT_SFAULT sl = false) (hlive : s.sstate sl ≠ ssOff) (hcause : cause ≠ 5) :
    sliceFault sl cause s = faultEntered (faultRecorded s sl cause) sl := by
  unfold sliceFault
  rw [if_neg (by simp [hfresh, hlive])]
  unfold faultEntered faultRecorded
  simp only [hcause, false_or]

/-- Recording a fault sets `SFAULT` and `FCAUSE` and leaves `SSTATE`. -/
theorem faultRecorded_rd (s : State) (sl : Fin 32) (cause : Nat) :
    (faultRecorded s sl.val cause).rd F.SCC_STAT_SFAULT sl.val = 1 ∧
    (faultRecorded s sl.val cause).rd F.SCC_STAT_FCAUSE sl.val = cause % 2 ^ F.SCC_STAT_FCAUSE.w ∧
    (faultRecorded s sl.val cause).sstate sl.val = s.sstate sl.val := by
  have hraised {t : State} {f : Fld} (hf : f ∈ [F.SCC_STAT_SSTATE, F.SCC_STAT_SFAULT, F.SCC_STAT_FCAUSE]) (sev : Sev) (c : Prop) [Decidable c] :
      (if c then loseLine (t.raiseG 263 sev sl.val cause) sl.val else t.raiseG 263 sev sl.val cause).rd f sl.val = t.rd f sl.val := by
    obtain ⟨hplace, -⟩ := faultFlds_apart sl f hf
    have hlost (u : State) : (loseLine u sl.val).rd f sl.val = u.rd f sl.val := rfl
    split
    · rw [hlost, (t.raiseG_reach ..).rd _ _ _ hplace]
    · rw [(t.raiseG_reach ..).rd _ _ _ hplace]
  unfold faultRecorded State.sstate
  extract_lets sev u
  refine ⟨(hraised (by simp) sev _).trans ?_, (hraised (by simp) sev _).trans (State.rd_wr_same ..), (hraised (by simp) sev _).trans ?_⟩
  · rw [State.rd_wr_ne _ _ _ _ _ _ _ _ (at_ne_of_key (by decide) _ _), State.rd_wr_same]
    rfl
  · rw [State.rd_wr_ne _ _ _ _ _ _ _ _ (at_ne_of_key (by decide) _ _), State.rd_wr_ne _ _ _ _ _ _ _ _ (at_ne_of_key (by decide) _ _)]

theorem faultEntered_placeKept {k sl : Nat} (v : State) (hres : F.SCC_OPS_STAT_OPS_RES.at sl 0 ≠ k) (hstate : F.SCC_STAT_SSTATE.at sl 0 ≠ k) :
    PlaceKept k v (faultEntered v sl) :=
  .ite ((PlaceKept.refl v).wr _ hstate) (.ite (abandonOp_placeKept v hres) (.ite (keepDirty_placeKept v hres) (startDrain_placeKept v hres hstate)))

/-- A faulted slice in ON is in DRAIN; in BYPASS, in DRAIN and in FLUSH it stays there. -/
theorem faultEntered_sstate (v : State) (sl : Fin 32) :
    (v.sstate sl.val = ssOn → (faultEntered v sl.val).sstate sl.val = ssDrain) ∧
    ∀ st ∈ [ssBypass, ssDrain, ssFlush], v.sstate sl.val = st → (faultEntered v sl.val).sstate sl.val = st := by
  obtain ⟨-, hres⟩ := faultFlds_apart sl F.SCC_STAT_SSTATE (by simp)
  refine ⟨fun hon => ?_, fun st hst h => ?_⟩
  · rw [faultEntered, hon]
    exact startDrain_sstate v sl.val
  · simp only [List.mem_cons, List.not_mem_nil, or_false] at hst
    rcases hst with rfl | rfl | rfl
    · rw [faultEntered, if_pos h]
      exact State.rd_wr_same ..
    · rw [faultEntered, h]
      exact (abandonOp_placeKept v hres).rd.trans h
    · rw [faultEntered, h]
      exact (keepDirty_placeKept v hres).rd.trans h

/-- A fault of a live slice leaves `SFAULT` set. -/
theorem sliceFault_sfault {s : State} {sl : Fin 32} {cause : Nat} (hlive : s.sstate sl.val ≠ ssOff) (hcause : cause ≠ 5) :
    (sliceFault sl.val cause s).on F.SCC_STAT_SFAULT sl.val = true := by
  cases hold : s.on F.SCC_STAT_SFAULT sl.val with
  | true => rw [sliceFault_already _ hold, hold]
  | false =>
    obtain ⟨hset, -, -⟩ := faultRecorded_rd s sl cause
    obtain ⟨-, hres⟩ := faultFlds_apart sl F.SCC_STAT_SFAULT (by simp)
    rw [sliceFault_fresh hold hlive hcause, State.on, (faultEntered_placeKept _ hres (at_ne_of_key (by decide) _ _)).rd, hset]
    rfl

/-! ## DRAIN (Table 7.7) -/

theorem drainComplete_waits {s : State} {sl : Nat}
    (h : s.sstate sl ≠ ssDrain ∨ deadChannel s sl = false ∧ (dirtyLines s sl ≠ 0 ∨ s.victims sl ≠ [])) : drainComplete sl s = s :=
  if_pos (by simpa using h)

theorem drainComplete_ends {s : State} {sl : Nat} (hdrain : s.sstate sl = ssDrain)
    (h : deadChannel s sl = true ∨ dirtyLines s sl = 0 ∧ s.victims sl = []) : (drainComplete sl s).sstate sl = ssBypass := by
  have hempty : ¬ (s.sstate sl ≠ ssDrain ∨ (¬ deadChannel s sl ∧ (dirtyLines s sl ≠ 0 ∨ s.victims sl ≠ []))) := by
    rcases h with h | ⟨hlines, hvictims⟩
    · simp [hdrain, h]
    · simp [hdrain, hlines, hvictims]
  rw [drainComplete, if_neg hempty]
  exact State.rd_wr_same ..

/-! ## The crossing (R170) -/

/-- The crossing's new codes and margin, before a margin below the limit is a fault. -/
theorem crossingTrack_spec {s : State} {sl : Nat} (hlive : s.sstate sl ≠ ssOff) (hkept : s.sstate sl ≠ ssRetain) (a b c m : Nat) :
    ∃ u, crossingTrack sl a b c m s = (if m < s.rd F.SCC_XING_STAT_MARGIN_LIM sl then sliceFault sl 1 u else u) ∧
      u.rd F.SCC_XING_STAT_MARGIN sl = m % 2 ^ F.SCC_XING_STAT_MARGIN.w ∧ u.sstate sl = s.sstate sl ∧
      u.rd F.SCC_XING_CLK_DLY sl =
        (let v := s.rd F.SCC_XING_CLK_DLY sl; if a = 1 then min (v + 1) 63 else if a = 2 then v - 1 else v) % 2 ^ F.SCC_XING_CLK_DLY.w := by
  unfold crossingTrack
  rw [if_neg (by simp [hlive, hkept])]
  extract_lets step clk rdly wdly margin u
  have hu {k : Nat} (h : F.SCC_XING_STAT_MARGIN_MIN.at sl 0 ≠ k) : PlaceKept k margin u := .ite ((PlaceKept.refl margin).wr m h) (.refl margin)
  have hfrom {f : Fld} (h : ∀ g ∈ [F.SCC_XING_RD_DLY, F.SCC_XING_WR_DLY, F.SCC_XING_STAT_MARGIN, F.SCC_XING_STAT_MARGIN_MIN],
      g.s1 = f.s1 ∧ g.s2 = f.s2 ∧ g.key ≠ f.key) : PlaceKept (f.at sl 0) clk u := by
    have hne {g : Fld} (hg : g ∈ [F.SCC_XING_RD_DLY, F.SCC_XING_WR_DLY, F.SCC_XING_STAT_MARGIN, F.SCC_XING_STAT_MARGIN_MIN]) : g.at sl 0 ≠ f.at sl 0 :=
      at_ne_of_key (h g hg) _ _
    exact ((((PlaceKept.refl clk).wr _ (hne (by simp))).wr _ (hne (by simp))).wr m (hne (by simp))).trans (hu (hne (by simp)))
  have hclk {f : Fld} (h : F.SCC_XING_CLK_DLY.s1 = f.s1 ∧ F.SCC_XING_CLK_DLY.s2 = f.s2 ∧ F.SCC_XING_CLK_DLY.key ≠ f.key) :
      PlaceKept (f.at sl 0) s clk :=
    (PlaceKept.refl s).wr _ (at_ne_of_key h _ _)
  have hlim : u.rd F.SCC_XING_STAT_MARGIN_LIM sl = s.rd F.SCC_XING_STAT_MARGIN_LIM sl := ((hclk (by decide)).trans (hfrom (by decide))).rd
  rw [hlim]
  exact ⟨u, rfl, (hu (at_ne_of_key (by decide) _ _)).rd.trans (State.rd_wr_same ..), ((hclk (by decide)).trans (hfrom (by decide))).rd,
    (hfrom (by decide)).rd.trans (State.rd_wr_same ..)⟩

/-! ## The end of an operation (R166) -/

theorem opComplete_goesOn {s : State} {sl : Nat} {o : SliceOp} (hop : SMap.get? s.scc.op sl = some o) (hlive : deadChannel s sl = false)
    (hwork : (opNext s sl o).isSome = true) : opComplete sl s = s := by
  unfold opComplete
  simp [hop, hlive, hwork]

theorem opComplete_ends {s : State} {sl : Nat} {o : SliceOp} (hop : SMap.get? s.scc.op sl = some o) (hstate : s.sstate sl = ssOn ∨ s.sstate sl = ssDrain)
    (hlive : deadChannel s sl = false) (hdone : opNext s sl o = none) :
    SMap.get? (opComplete sl s).scc.op sl = none ∧ (opComplete sl s).rd F.SCC_OPS_STAT_OPS_RES sl = Code.ok.num := by
  have hserves : (s.sstate sl == ssOn || s.sstate sl == ssDrain) = true := by simpa using hstate
  unfold opComplete
  simp only [hop, hserves, hlive, hdone, Bool.not_true, Bool.false_eq_true, if_false, Option.isSome_none]
  refine ⟨SMap.get?_erase_same .., ?_⟩
  rw [State.rd_inc_ne _ _ _ _ _ _ _ _ (at_ne_of_key (by decide) _ _), State.rd_wr_same]
  rfl

/-! ## The victim buffer (R164) -/

theorem victimDone_oldest {s : State} {sl : Nat} {v : Victim} (hlive : deadChannel s sl = false)
    (h : ((s.victims sl).find? fun v => v.s0.isNone && v.s1.isNone) = some v) : (victimDone sl s).victims sl = (s.victims sl).erase v := by
  unfold victimDone
  simp only [hlive, Bool.false_eq_true, if_false, h]
  exact SMap.getD_put_same ..

/-! ## The commands -/

theorem exec_cacheFillArrive (ch : Fin 32) (s : State) : exec (.cacheFillArrive ch) s = .next (fillArrive ch.val s) := rfl

theorem exec_sliceReadDecode (sl : Fin 32) (set : BitVec 12) (way : Fin 16) (half : Fin 2) (out : Fin 3) (s : State) :
    exec (.sliceReadDecode sl set way half out) s = .next (sliceDecode sl.val set.toNat way.val half.val out.val s) := rfl

/-- A fault of causes 1 to 4 is the slice's fault; cause 5 is BIST's alone. -/
theorem exec_sliceFault {cause : Fin 5} (h : cause.val ≠ 0) (sl : Fin 32) (s : State) :
    exec (.sliceFault sl cause) s = .next (sliceFault sl.val cause.val s) := by
  show (.next (sliceFaultEvent sl.val cause.val s) : Answer) = _
  rw [sliceFaultEvent, if_neg (by omega)]

theorem exec_sliceDrainComplete (sl : Fin 32) (s : State) : exec (.sliceDrainComplete sl) s = .next (drainComplete sl.val s) := rfl

theorem exec_crossingTrack (sl : Fin 32) (a b c : Fin 3) (m : BitVec 6) (s : State) :
    exec (.crossingTrack sl a b c m) s = .next (crossingTrack sl.val a.val b.val c.val m.toNat s) := rfl

theorem exec_cacheOpComplete (sl : Fin 32) (s : State) : exec (.cacheOpComplete sl) s = .next (opComplete sl.val s) := rfl

theorem exec_victimWritebackDone (sl : Fin 32) (s : State) : exec (.victimWritebackDone sl) s = .next (victimDone sl.val s) := rfl

/-- Settles O33: each event comes to the slice's own operation; what follows a fault leaves its record, and what follows an uncorrectable read makes no
invalid sector valid. -/
theorem cacheEvents : Obligations.CacheEvents := by
  unfold Obligations.CacheEvents
  refine ⟨fun s ch c w x k rest hfills hway hpending => ?_, fun s sl set way half out => ⟨fun hgood => ?_, fun hbad hvalid => ?_⟩,
    fun s sl cause hcause hfresh hlive => ?_, fun s sl => ⟨fun hdrain hempty => ?_, fun hwait => ?_⟩, fun s sl a b c m hlive hkept => ?_,
    fun s sl o hop hstate hlive => ⟨fun hdone => ?_, fun hwork => ?_⟩, fun s sl v hlive hfound => ?_⟩
  · refine ⟨_, exec_cacheFillArrive ch s, ?_⟩
    rw [fillArrive_oldest hfills, fillSector_pending x (s := s.setDmc ch.val { s.dmcOf ch.val with fills := rest }) hway hpending]
    refine ⟨?_, rfl, fun d hd => ?_, fun hd => ?_⟩
    · rw [State.setLine_dmcOf, State.setDmc_dmcOf_same]
    · subst hd
      rw [State.setLine_line_same, normLine_st, filled, withHalf_st, normLine_of_valid (h := halfOf c) (by rw [withHalf_st]; decide)]
      exact ⟨rfl, withHalf_sect _ _ d (.inl rfl)⟩
    · subst hd
      rw [State.setLine_line_same, normLine_st, filled, withHalf_st]
  · rw [exec_sliceReadDecode, sliceDecode_good fun h => hgood (Fin.ext h)]
  · subst hbad
    exact ⟨_, exec_sliceReadDecode .., sliceDecode_uncorrectable hvalid⟩
  · have hbist : cause.val ≠ 5 := cause.isLt.ne
    obtain ⟨-, hrecorded, hstate⟩ := faultRecorded_rd s sl cause.val
    obtain ⟨-, hres⟩ := faultFlds_apart sl F.SCC_STAT_FCAUSE (by simp)
    obtain ⟨hon, hstays⟩ := faultEntered_sstate (faultRecorded s sl.val cause.val) sl
    rw [hstate] at hon hstays
    refine ⟨_, exec_sliceFault hcause sl s, sliceFault_sfault hlive hbist, ?_⟩
    rw [sliceFault_fresh hfresh hlive hbist]
    refine ⟨?_, hon, hstays ssBypass (by simp), hstays ssDrain (by simp), hstays ssFlush (by simp)⟩
    rw [(faultEntered_placeKept _ hres (at_ne_of_key (by decide) _ _)).rd, hrecorded]
    exact Nat.mod_eq_of_lt (cause.isLt.trans (by decide))
  · exact ⟨_, exec_sliceDrainComplete sl s, drainComplete_ends hdrain hempty⟩
  · rw [exec_sliceDrainComplete, drainComplete_waits hwait]
  · obtain ⟨u, htrack, hmargin, hstate, hclk⟩ := crossingTrack_spec hlive hkept a.val b.val c.val m.toNat
    have hfaulted {f : Fld} (hf : f ∈ sliceSettings) : (crossingTrack sl.val a.val b.val c.val m.toNat s).rd f sl.val = u.rd f sl.val := by
      rw [htrack]
      exact (PlaceKept.ite (sliceFault_placeKept (sliceSettings_apart sl hf) 1 u) (.refl u)).rd
    refine ⟨_, exec_crossingTrack sl a b c m s, ?_, ?_, fun hlow => ?_⟩
    · rw [hfaulted (by simp [sliceSettings]), hmargin]
      exact Nat.mod_eq_of_lt m.isLt
    · rw [hfaulted (by simp [sliceSettings]), hclk]
      simp only [Fin.ext_iff]
      rfl
    · rw [htrack, if_pos hlow]
      exact sliceFault_sfault (by rw [hstate]; exact hlive) (by decide)
  · exact ⟨_, exec_cacheOpComplete sl s, opComplete_ends hop hstate hlive hdone⟩
  · rw [exec_cacheOpComplete, opComplete_goesOn hop hlive hwork]
  · exact ⟨_, exec_victimWritebackDone sl s, victimDone_oldest hlive hfound⟩

end Sys2Proof.Machine


/-! SUPPORT. Writes of a slice's registers (SCC, Tables 7.9, 7.12 and 7.15): operations (R166), write-through and BYPASS (R165, R173), retired ways (R172)
and the counters that `CNT_CLR` clears. -/

namespace Sys2Proof.Machine

/-! ## What an access leaves of a slice -/

/-- No record of an access lies among a slice's registers. -/
theorem slice_not_lasPlace (sl : Fin 32) {f : Fld} (h : 1600 ≤ f.key ∧ f.key + f.s1 * 32 < 2 ^ 28) : lasPlace (f.at sl.val 0) = false := by
  have hstride : f.s1 * sl.val ≤ f.s1 * 32 := Nat.mul_le_mul_left _ sl.isLt.le
  exact not_lasPlace (by simp only [Fld.at]; omega) (by simp only [Fld.at]; omega)

@[simp] theorem recordAcc_scc (s : State) (who : Nat) (wr : Bool) (off : Nat) (c : Code) (d : Nat) : (recordAcc s who wr off c d).scc = s.scc := by
  unfold recordAcc
  split <;> simp only [State.inc_scc, State.wr_scc]

/-! ## SCC[s]_OPS_CMD (R166) -/

theorem regAt_sccOpsCmd (sl : Fin 32) : regAt (regOffset .SCC_OPS_CMD sl.val 0) = some (.SCC_OPS_CMD, sl.val, 0) := by
  revert sl
  decide +kernel

theorem writeHook_sccOpsCmd (s : State) (who sl v : Nat) :
    writeHook s who .SCC_OPS_CMD sl 0 v = hookOps s sl (writtenWord s who .SCC_OPS_CMD sl v) := rfl

/-- The operation that a word of SCC[s]_OPS_CMD asks for. -/
def wordOp (m : Nat) : SliceOp := sliceOpOf (F.SCC_OPS_CMD_OP.val m) (F.SCC_OPS_CMD_SCOPE.val m) (F.SCC_OPS_CMD_ODOM.val m) (F.SCC_OPS_CMD_OWAYS.val m)

/-- A word of SCC[s]_OPS_CMD that Table 7.12 lists. -/
structure OpsWord (m : Nat) : Prop where
  op : F.SCC_OPS_CMD_OP.val m = 1 ∨ F.SCC_OPS_CMD_OP.val m = 2
  scope : F.SCC_OPS_CMD_SCOPE.val m ≠ 3
  ways : F.SCC_OPS_CMD_SCOPE.val m = 2 → F.SCC_OPS_CMD_OWAYS.val m ≠ 0

theorem hookOps_legal (s : State) (sl : Nat) {m : Nat} (h : OpsWord m) : hookOps s sl m = codeH s (startOp s sl (wordOp m)) := by
  obtain ⟨hop, hscope, hways⟩ := h
  refine if_neg ?_
  rintro (hzero | hthree | hreserved | ⟨hnamed, hnone⟩)
  · omega
  · omega
  · exact hscope hreserved
  · exact hways hnamed hnone

theorem startOp_free {s : State} {sl : Nat} (o : SliceOp) (hstate : s.sstate sl = ssOn ∨ s.sstate sl = ssDrain) (hfree : SMap.get? s.scc.op sl = none) :
    startOp s sl o = (.ok, { s with scc.op := SMap.set s.scc.op sl o }) := by
  rcases hstate with h | h <;> simp [startOp, h, hfree]

theorem startOp_busy {s : State} {sl : Nat} (o : SliceOp) (hstate : s.sstate sl = ssOn ∨ s.sstate sl = ssDrain)
    (hbusy : (SMap.get? s.scc.op sl).isSome = true) : startOp s sl o = (.busy, s) := by
  rcases hstate with h | h <;> simp [startOp, h, hbusy]

/-- The word of CLEAN or CLEAN_INV as the register's action sees it: the operation set, and scope, domain and ways as given. -/
theorem opsWord_spec {s : State} {who sl v x : Nat} (hx : x = 1 ∨ x = 2)
    (hmay : ∀ f ∈ [F.SCC_OPS_CMD_OP, F.SCC_OPS_CMD_SCOPE, F.SCC_OPS_CMD_ODOM, F.SCC_OPS_CMD_OWAYS], MayWrite s who .SCC_OPS_CMD sl f)
    (hscope : F.SCC_OPS_CMD_SCOPE.val v ≠ 3) (hways : F.SCC_OPS_CMD_SCOPE.val v = 2 → F.SCC_OPS_CMD_OWAYS.val v ≠ 0) :
    OpsWord (writtenWord s who .SCC_OPS_CMD sl (withBits v [(F.SCC_OPS_CMD_OP, x)])) ∧
    wordOp (writtenWord s who .SCC_OPS_CMD sl (withBits v [(F.SCC_OPS_CMD_OP, x)])) =
      sliceOpOf x (F.SCC_OPS_CMD_SCOPE.val v) (F.SCC_OPS_CMD_ODOM.val v) (F.SCC_OPS_CMD_OWAYS.val v) := by
  have hop : F.SCC_OPS_CMD_OP.val (writtenWord s who .SCC_OPS_CMD sl (withBits v [(F.SCC_OPS_CMD_OP, x)])) = x := by
    rw [writtenWord_set (by decide) (hmay _ (by simp))]
    rcases hx with rfl | rfl <;> rfl
  have hapart : ∀ f ∈ [F.SCC_OPS_CMD_SCOPE, F.SCC_OPS_CMD_ODOM, F.SCC_OPS_CMD_OWAYS],
      f ∈ RegId.SCC_OPS_CMD.info.flds ∧ F.SCC_OPS_CMD_OP.lo + F.SCC_OPS_CMD_OP.w ≤ f.lo := by decide
  have hkept (f : Fld) (hf : f ∈ [F.SCC_OPS_CMD_SCOPE, F.SCC_OPS_CMD_ODOM, F.SCC_OPS_CMD_OWAYS]) :
      f.val (writtenWord s who .SCC_OPS_CMD sl (withBits v [(F.SCC_OPS_CMD_OP, x)])) = f.val v := by
    obtain ⟨hmem, habove⟩ := hapart f hf
    exact writtenWord_kept hmem (hmay f (List.mem_cons_of_mem _ hf)) (.inr habove)
  have hscope' := hkept F.SCC_OPS_CMD_SCOPE (by simp)
  have hdom' := hkept F.SCC_OPS_CMD_ODOM (by simp)
  have hways' := hkept F.SCC_OPS_CMD_OWAYS (by simp)
  exact ⟨⟨by rwa [hop], by rwa [hscope'], by rwa [hscope', hways']⟩, by rw [wordOp, hop, hscope', hdom', hways']⟩

/-- CLEAN and CLEAN_INV on a slice in ON or DRAIN: with no operation running the one of the word starts, with one running the answer is BUSY. -/
theorem opsWrite_spec {s : State} {who : Fin 18} {sl : Fin 32} {v x : Nat} (hx : x = 1 ∨ x = 2)
    (h : CanWrite s who.val .SCC_OPS_CMD sl.val 0 (withBits v [(F.SCC_OPS_CMD_OP, x)])
      [F.SCC_OPS_CMD_OP, F.SCC_OPS_CMD_SCOPE, F.SCC_OPS_CMD_ODOM, F.SCC_OPS_CMD_OWAYS])
    (hscope : F.SCC_OPS_CMD_SCOPE.val v ≠ 3) (hways : F.SCC_OPS_CMD_SCOPE.val v = 2 → F.SCC_OPS_CMD_OWAYS.val v ≠ 0)
    (hstate : s.sstate sl.val = ssOn ∨ s.sstate sl.val = ssDrain) :
    (SMap.get? s.scc.op sl.val = none →
      lastResult (writeBy s who.val .SCC_OPS_CMD sl.val 0 (withBits v [(F.SCC_OPS_CMD_OP, x)])) who.val = Code.ok.num ∧
      SMap.get? (writeBy s who.val .SCC_OPS_CMD sl.val 0 (withBits v [(F.SCC_OPS_CMD_OP, x)])).scc.op sl.val =
        some (sliceOpOf x (F.SCC_OPS_CMD_SCOPE.val v) (F.SCC_OPS_CMD_ODOM.val v) (F.SCC_OPS_CMD_OWAYS.val v))) ∧
    ((SMap.get? s.scc.op sl.val).isSome = true → writeBy s who.val .SCC_OPS_CMD sl.val 0 (withBits v [(F.SCC_OPS_CMD_OP, x)]) =
      recordAcc s who.val true (regOffset .SCC_OPS_CMD sl.val 0) .busy 0) := by
  obtain ⟨hready, hmay⟩ := h
  obtain ⟨hlegal, hop⟩ := opsWord_spec hx hmay hscope hways
  have hhook := (writeHook_sccOpsCmd ..).trans (hookOps_legal s sl.val hlegal)
  rw [hop] at hhook
  refine ⟨fun hfree => ?_, fun hbusy => ?_⟩
  · rw [startOp_free _ hstate hfree] at hhook
    rw [writeBy_accepted (regAt_sccOpsCmd sl) hready hhook rfl, recordAcc_scc]
    exact ⟨recordAcc_res .., SMap.get?_set_same ..⟩
  · rw [startOp_busy _ hstate hbusy] at hhook
    exact writeBy_refused (regAt_sccOpsCmd sl) hready hhook (.inr rfl) rfl

/-! ## SCC[s]_CTL (R165, R173) -/

theorem regAt_sccCtl (sl : Fin 32) : regAt (regOffset .SCC_CTL sl.val 0) = some (.SCC_CTL, sl.val, 0) := by
  revert sl
  decide +kernel

/-- What a write of SCC[s]_CTL stores. -/
def sccCtlStored (s : State) (who sl v : Nat) : State := storeFields s .SCC_CTL sl 0 v (mayField (letters s .SCC_CTL who sl true))

theorem writeHook_sccCtl (s : State) (who sl v : Nat) :
    writeHook s who .SCC_CTL sl 0 v = hookSccCtl s (sccCtlStored s who sl v) sl (writtenWord s who .SCC_CTL sl v) := rfl

/-- `WT` and `BYPASS` are stored as written. -/
theorem sccCtlStored_rd {s : State} {who sl v : Nat} {f : Fld} (hf : f ∈ [F.SCC_CTL_WT, F.SCC_CTL_BYPASS]) (hmay : MayWrite s who .SCC_CTL sl f) :
    (sccCtlStored s who sl v).rd f sl = f.val v := by
  have hfield : ∀ f ∈ [F.SCC_CTL_WT, F.SCC_CTL_BYPASS], f ∈ RegId.SCC_CTL.info.flds ∧ f.acc = .rw ∧
      ∀ x ∈ RegId.SCC_CTL.info.flds, x.s1 = f.s1 ∧ x.s2 = f.s2 := by decide
  obtain ⟨hmem, hacc, hstrides⟩ := hfield f hf
  exact storeFields_rd_rw s (by decide) hstrides hmem hacc hmay

theorem sccCtlStored_sstate (s : State) (who sl v : Nat) : (sccCtlStored s who sl v).sstate sl = s.sstate sl := by
  have hflds : ∀ x ∈ RegId.SCC_CTL.info.flds, x.s1 = F.SCC_STAT_SSTATE.s1 ∧ x.s2 = F.SCC_STAT_SSTATE.s2 ∧ x.key ≠ F.SCC_STAT_SSTATE.key := by decide
  exact (storeFields_placeKept s v _ fun x hx => at_ne_of_key (hflds x hx) sl 0).rd

theorem sccCtlStored_scc (s : State) (who sl v : Nat) : (sccCtlStored s who sl v).scc = s.scc := by
  obtain ⟨regs, h⟩ := storeFields_regsOnly s .SCC_CTL sl 0 v (mayField (letters s .SCC_CTL who sl true))
  rw [sccCtlStored, h]

/-- The counters of a slice that `CNT_CLR` clears. -/
def sliceCounters : List Fld :=
  [F.SCC_OPS_STAT_OPS_CNT, F.SCC_FAULT_UE_CNT, F.SCC_FAULT_TAG_FIX, F.SCC_RD_HIT_RD_HIT, F.SCC_RD_MISS_RD_MISS, F.SCC_WR_HIT_WR_HIT,
   F.SCC_WR_MISS_WR_MISS, F.SCC_WB_WB_SECT, F.SCC_ALLOC_FAIL_ALLOC_FAIL]

theorem sccClear_rd (s : State) (sl : Fin 32) {f : Fld} (hf : f ∈ sliceCounters) : (sccClear s sl.val).rd f sl.val = 0 := by
  have hplaces : ((sliceCounters.map fun f => (f, 0)).map fun p : Fld × Nat => p.1.at sl.val 0).Nodup := by
    revert sl
    decide
  have hcleared := rd_foldl_wr (sliceCounters.map fun f => (f, 0)) s sl.val hplaces f 0 (List.mem_map.2 ⟨f, hf, rfl⟩)
  rw [List.foldl_map, Nat.zero_mod] at hcleared
  exact hcleared

theorem sccClear_scc (s : State) (sl : Nat) : (sccClear s sl).scc = s.scc :=
  List.foldlRecOn (motive := fun t : State => t.scc = s.scc) sliceCounters _ rfl fun _ ht _ _ => ht

/-- First of what an accepted write of SCC[s]_CTL does beside storing: `CNT_CLR`. -/
def ctlCleared (t : State) (sl m : Nat) : State := if F.SCC_CTL_CNT_CLR.hit m then sccClear t sl else t

/-- Second: a `WT` that becomes 1 starts a clean of the whole slice. -/
def ctlWalked (s t : State) (sl m : Nat) : State := if F.SCC_CTL_WT.hit m && !s.on F.SCC_CTL_WT sl then (startOp t sl (sliceOpOf 1 0 0 0)).2 else t

/-- Third: a `BYPASS` that becomes 1 drains a slice in ON, one that becomes 0 returns it to ON unless its channel is folded. -/
def ctlBypassed (s t : State) (sl m : Nat) : State :=
  if F.SCC_CTL_BYPASS.hit m && !s.on F.SCC_CTL_BYPASS sl && s.sstate sl == ssOn then startDrain t sl
  else if s.on F.SCC_CTL_BYPASS sl && !F.SCC_CTL_BYPASS.hit m && s.sstate sl == ssBypass && !((s.fstate == fDone) && sl == s.rd F.TSV_FOLD_STAT_FOLDED_CH)
    then t.wr F.SCC_STAT_SSTATE ssOn sl
  else t

theorem hookSccCtl_refused {s : State} {sl m : Nat} (t : State) (hoff : F.SCC_CTL_BYPASS.hit m = false)
    (h : s.on F.SCC_STAT_SFAULT sl = true ∨ s.sstate sl = ssDrain) : hookSccCtl s t sl m = noH s .state := by
  have hguard : (!F.SCC_CTL_BYPASS.hit m && (s.on F.SCC_STAT_SFAULT sl || s.sstate sl == ssDrain)) = true := by simpa [hoff] using h
  exact if_pos hguard

theorem hookSccCtl_accepted {s : State} {sl m : Nat} (t : State)
    (hopen : F.SCC_CTL_BYPASS.hit m = true ∨ s.on F.SCC_STAT_SFAULT sl = false ∧ s.sstate sl ≠ ssDrain)
    (hidle : F.SCC_CTL_WT.hit m = false ∨ SMap.get? s.scc.op sl = none) :
    hookSccCtl s t sl m = okH (ctlBypassed s (ctlWalked s (ctlCleared t sl m) sl m) sl m) := by
  have hguard : (!F.SCC_CTL_BYPASS.hit m && (s.on F.SCC_STAT_SFAULT sl || s.sstate sl == ssDrain)) = false := by
    rcases hopen with h | ⟨hgood, hstate⟩
    · simp [h]
    · simp [hgood, hstate]
  have hfree : (F.SCC_CTL_WT.hit m && (SMap.get? s.scc.op sl).isSome) = false := by
    rcases hidle with h | h <;> simp [h]
  unfold hookSccCtl
  simp only [hguard, hfree]
  rfl

theorem ctlCleared_placeKept {k sl : Nat} (t : State) (m : Nat) (h : ∀ f ∈ sliceCounters, f.at sl 0 ≠ k) : PlaceKept k t (ctlCleared t sl m) :=
  .ite (List.foldlRecOn (motive := PlaceKept k t) sliceCounters _ (.refl t) fun _ hu f hf => hu.wr 0 (h f hf)) (.refl t)

theorem ctlCleared_scc (t : State) (sl m : Nat) : (ctlCleared t sl m).scc = t.scc := by
  unfold ctlCleared
  split
  · exact sccClear_scc t sl
  · rfl

theorem ctlWalked_off {s : State} {sl m : Nat} (t : State) (h : F.SCC_CTL_WT.hit m = false) : ctlWalked s t sl m = t := if_neg (by simp [h])

theorem ctlBypassed_same {s : State} {sl m : Nat} (t : State) (h : F.SCC_CTL_BYPASS.hit m = s.on F.SCC_CTL_BYPASS sl) : ctlBypassed s t sl m = t := by
  unfold ctlBypassed
  rw [h]
  cases s.on F.SCC_CTL_BYPASS sl <;> rfl

theorem ctlBypassed_drains {s : State} {sl m : Nat} (t : State) (hset : F.SCC_CTL_BYPASS.hit m = true) (hwas : s.on F.SCC_CTL_BYPASS sl = false)
    (hon : s.sstate sl = ssOn) : ctlBypassed s t sl m = startDrain t sl := if_pos (by simp [hset, hwas, hon])

theorem ctlBypassed_returns {s : State} {sl m : Nat} (t : State) (hclear : F.SCC_CTL_BYPASS.hit m = false) (hwas : s.on F.SCC_CTL_BYPASS sl = true)
    (hstate : s.sstate sl = ssBypass) (hunfolded : s.fstate ≠ fDone ∨ s.rd F.TSV_FOLD_STAT_FOLDED_CH ≠ sl) :
    ctlBypassed s t sl m = t.wr F.SCC_STAT_SSTATE ssOn sl := by
  have hfold : ((s.fstate == fDone) && sl == s.rd F.TSV_FOLD_STAT_FOLDED_CH) = false := by
    rcases hunfolded with h | h
    · simp [h]
    · simp [h.symm]
  unfold ctlBypassed
  rw [hfold, if_neg (by simp [hclear]), if_pos (by simp [hclear, hwas, hstate])]

/-- `SSTATE`, `WT` and `BYPASS` of a slice lie apart from its counters. -/
theorem sliceCounters_apart (sl : Nat) {f : Fld} (hf : f ∈ [F.SCC_STAT_SSTATE, F.SCC_CTL_WT, F.SCC_CTL_BYPASS]) :
    ∀ g ∈ sliceCounters, g.at sl 0 ≠ f.at sl 0 := by
  have hapart : ∀ f ∈ [F.SCC_STAT_SSTATE, F.SCC_CTL_WT, F.SCC_CTL_BYPASS], ∀ g ∈ sliceCounters,
      g.s1 = f.s1 ∧ g.s2 = f.s2 ∧ g.key ≠ f.key := by decide
  exact fun g hg => at_ne_of_key (hapart f hf g hg) sl 0

/-- A bit that the master may write, as the register's action sees it. -/
theorem sccCtlWord_hit {s : State} {who sl v : Nat} {f : Fld} (hf : f ∈ RegId.SCC_CTL.info.flds) (hmay : MayWrite s who .SCC_CTL sl f) :
    f.hit (writtenWord s who .SCC_CTL sl v) = f.hit v := by
  rw [Fld.hit, writtenWord_val _ _ _ _ _ _ hf hmay, Fld.hit]

/-- The same of a bit `f` in the word of a command that sets the field `g`. -/
theorem sccCtlWord_kept {s : State} {who sl v x : Nat} {f g : Fld} (hf : f ∈ RegId.SCC_CTL.info.flds) (hmay : MayWrite s who .SCC_CTL sl f)
    (hapart : f.lo + f.w ≤ g.lo ∨ g.lo + g.w ≤ f.lo) : f.hit (writtenWord s who .SCC_CTL sl (withBits v [(g, x)])) = f.hit v := by
  rw [Fld.hit, writtenWord_kept hf hmay hapart, Fld.hit]

/-- An accepted write of SCC[s]_CTL leaves what its action leaves, and its record. -/
theorem writeBy_sccCtl {s : State} {who v : Nat} (sl : Fin 32) (h : WriteReady s who .SCC_CTL sl.val 0 v)
    (hopen : F.SCC_CTL_BYPASS.hit (writtenWord s who .SCC_CTL sl.val v) = true ∨ s.on F.SCC_STAT_SFAULT sl.val = false ∧ s.sstate sl.val ≠ ssDrain)
    (hidle : F.SCC_CTL_WT.hit (writtenWord s who .SCC_CTL sl.val v) = false ∨ SMap.get? s.scc.op sl.val = none) :
    writeBy s who .SCC_CTL sl.val 0 v = recordAcc (ctlBypassed s (ctlWalked s (ctlCleared (sccCtlStored s who sl.val v) sl.val
      (writtenWord s who .SCC_CTL sl.val v)) sl.val (writtenWord s who .SCC_CTL sl.val v)) sl.val (writtenWord s who .SCC_CTL sl.val v)) who true
      (regOffset .SCC_CTL sl.val 0) .ok 0 :=
  writeBy_accepted (regAt_sccCtl sl) h ((writeHook_sccCtl ..).trans (hookSccCtl_accepted _ hopen hidle)) rfl

/-- What a write of SCC[s]_CTL has stored and cleared: `WT` and `BYPASS` as written, `SSTATE` and the operation as they were. -/
theorem ctlCleared_stored {s : State} {who sl v : Nat} (m : Nat) (hmay : ∀ f ∈ [F.SCC_CTL_WT, F.SCC_CTL_BYPASS], MayWrite s who .SCC_CTL sl f) :
    (∀ f ∈ [F.SCC_CTL_WT, F.SCC_CTL_BYPASS], (ctlCleared (sccCtlStored s who sl v) sl m).rd f sl = f.val v) ∧
    (ctlCleared (sccCtlStored s who sl v) sl m).sstate sl = s.sstate sl ∧ (ctlCleared (sccCtlStored s who sl v) sl m).scc = s.scc :=
  ⟨fun f hf => (ctlCleared_placeKept _ m (sliceCounters_apart sl (List.mem_cons_of_mem _ hf))).rd.trans (sccCtlStored_rd hf (hmay f hf)),
    (ctlCleared_placeKept _ m (sliceCounters_apart sl (by simp))).rd.trans (sccCtlStored_sstate ..), (ctlCleared_scc ..).trans (sccCtlStored_scc ..)⟩

/-! ## SCC[s]_WAYS (R172) -/

theorem regAt_sccWays (sl : Fin 32) : regAt (regOffset .SCC_WAYS sl.val 0) = some (.SCC_WAYS, sl.val, 0) := by
  revert sl
  decide +kernel

theorem bit_mod_two_pow (v : Nat) {n k : Nat} (h : k < n) : bit (v % 2 ^ n) k = bit v k := by
  rw [bit_eq_testBit, bit_eq_testBit, Nat.testBit_mod_two_pow, decide_eq_true h, Bool.true_and]

/-- A way that is retired is retired besides those that were. -/
theorem retireWay_wayDis (s : State) (sl : Fin 32) (w : Nat) {k : Nat} (hk : k < 16) :
    bit ((retireWay s sl.val w).rd F.SCC_WAYS_WAY_DIS sl.val) k = (k == w || bit (s.rd F.SCC_WAYS_WAY_DIS sl.val) k) := by
  cases hold : bit (s.rd F.SCC_WAYS_WAY_DIS sl.val) w with
  | true =>
    rw [show retireWay s sl.val w = s from if_pos hold]
    by_cases hkw : k = w
    · rw [hkw, hold, Bool.or_true]
    · rw [beq_false_of_ne hkw, Bool.false_or]
  | false =>
    rw [(retireWay_placeKept (sliceSettings_apart sl (by simp [sliceSettings])) s hold).rd, State.rd_wr_same,
      bit_mod_two_pow (n := F.SCC_WAYS_WAY_DIS.w) _ hk, bit_setBit]

theorem retireWays_wayDis (l : List Nat) (s : State) (sl : Fin 32) {k : Nat} (hk : k < 16) :
    bit ((l.foldl (fun u w => retireWay u sl.val w) s).rd F.SCC_WAYS_WAY_DIS sl.val) k = (l.contains k || bit (s.rd F.SCC_WAYS_WAY_DIS sl.val) k) := by
  induction l generalizing s with
  | nil => rfl
  | cons w r ih => rw [List.foldl_cons, ih, retireWay_wayDis s sl w hk, List.contains_cons, Bool.or_assoc, Bool.or_left_comm]

/-- The ways that a word of SCC[s]_WAYS newly names. -/
def newWays (s : State) (sl m : Nat) : List Nat := (onesOf (F.SCC_WAYS_WAY_DIS.val m) 16).filter fun w => !bit (s.rd F.SCC_WAYS_WAY_DIS sl) w

theorem newWays_contains (s : State) (sl m : Nat) {k : Nat} (hk : k < 16) :
    (newWays s sl m).contains k = (bit (F.SCC_WAYS_WAY_DIS.val m) k && !bit (s.rd F.SCC_WAYS_WAY_DIS sl) k) := by
  rw [Bool.eq_iff_iff]
  simp [newWays, onesOf, hk, and_comm]

theorem writeHook_sccWays (s : State) (who sl v : Nat) : writeHook s who .SCC_WAYS sl 0 v =
    okH ((newWays s sl (writtenWord s who .SCC_WAYS sl v)).foldl (fun u w => retireWay u sl w)
      ((storeFields s .SCC_WAYS sl 0 v (mayField (letters s .SCC_WAYS who sl true))).wr F.SCC_WAYS_WAY_DIS (s.rd F.SCC_WAYS_WAY_DIS sl) sl)) := rfl

/-! ## The commands -/

theorem exec_clean (who : Fin 18) (sl : Fin 32) (v : Word) (s : State) :
    exec (.clean who sl v) s = .next (writeBy s who.val .SCC_OPS_CMD sl.val 0 (withBits v.toNat [(F.SCC_OPS_CMD_OP, 1)])) := rfl

theorem exec_cleanInv (who : Fin 18) (sl : Fin 32) (v : Word) (s : State) :
    exec (.cleanInv who sl v) s = .next (writeBy s who.val .SCC_OPS_CMD sl.val 0 (withBits v.toNat [(F.SCC_OPS_CMD_OP, 2)])) := rfl

theorem exec_writeThroughSet (who : Fin 18) (sl : Fin 32) (v : Word) (s : State) :
    exec (.writeThroughSet who sl v) s = .next (writeBy s who.val .SCC_CTL sl.val 0 (withBits v.toNat [(F.SCC_CTL_WT, 1)])) := rfl

theorem exec_bypassWrite (who : Fin 18) (sl : Fin 32) (v : Word) (s : State) :
    exec (.bypassWrite who sl v) s = .next (writeBy s who.val .SCC_CTL sl.val 0 v.toNat) := rfl

theorem exec_wayDisableWrite (who : Fin 18) (sl : Fin 32) (v : Word) (s : State) :
    exec (.wayDisableWrite who sl v) s = .next (writeBy s who.val .SCC_WAYS sl.val 0 v.toNat) := rfl

theorem exec_sccCntClr (who : Fin 18) (sl : Fin 32) (v : Word) (s : State) :
    exec (.sccCntClr who sl v) s = .next (writeBy s who.val .SCC_CTL sl.val 0 (withBits v.toNat [(F.SCC_CTL_CNT_CLR, 1)])) := rfl

/-- WRITE_THROUGH_SET: `WT` set with `BYPASS` as it is starts a clean of the whole slice. -/
theorem writeThroughSet_spec {s : State} {who : Fin 18} {sl : Fin 32} {v : Nat}
    (h : CanWrite s who.val .SCC_CTL sl.val 0 (withBits v [(F.SCC_CTL_WT, 1)]) [F.SCC_CTL_WT, F.SCC_CTL_BYPASS])
    (hwas : s.on F.SCC_CTL_WT sl.val = false) (hsame : F.SCC_CTL_BYPASS.hit v = s.on F.SCC_CTL_BYPASS sl.val)
    (hgood : s.on F.SCC_STAT_SFAULT sl.val = false) (hfree : SMap.get? s.scc.op sl.val = none) (hon : s.sstate sl.val = ssOn) :
    lastResult (writeBy s who.val .SCC_CTL sl.val 0 (withBits v [(F.SCC_CTL_WT, 1)])) who.val = Code.ok.num ∧
    (writeBy s who.val .SCC_CTL sl.val 0 (withBits v [(F.SCC_CTL_WT, 1)])).on F.SCC_CTL_WT sl.val = true ∧
    SMap.get? (writeBy s who.val .SCC_CTL sl.val 0 (withBits v [(F.SCC_CTL_WT, 1)])).scc.op sl.val = some (sliceOpOf 1 0 0 0) := by
  obtain ⟨hready, hmay⟩ := h
  have hset : F.SCC_CTL_WT.hit (writtenWord s who.val .SCC_CTL sl.val (withBits v [(F.SCC_CTL_WT, 1)])) = true := by
    rw [Fld.hit, writtenWord_set (by decide) (hmay _ (by simp))]
    rfl
  have hkept := (sccCtlWord_kept (v := v) (g := F.SCC_CTL_WT) (x := 1) (by decide) (hmay F.SCC_CTL_BYPASS (by simp)) (by decide)).trans hsame
  rw [writeBy_sccCtl sl hready (.inr ⟨hgood, by rw [hon]; decide⟩) (.inr hfree), ctlBypassed_same _ hkept]
  obtain ⟨hstored, hstate, hscc⟩ := ctlCleared_stored (v := withBits v [(F.SCC_CTL_WT, 1)])
    (writtenWord s who.val .SCC_CTL sl.val (withBits v [(F.SCC_CTL_WT, 1)])) hmay
  rw [ctlWalked, if_pos (by simp [hset, hwas]), startOp_free _ (.inl (hstate.trans hon)) (by rw [hscc]; exact hfree), recordAcc_scc, State.on,
    recordAcc_rd _ _ _ _ _ _ who.isLt _ _ _ (slice_not_lasPlace sl (by decide))]
  refine ⟨recordAcc_res .., beq_iff_eq.2 ?_, SMap.get?_set_same ..⟩
  exact (hstored F.SCC_CTL_WT (by simp)).trans (val_withBits_one ..)

/-- BYPASS_WRITE with `BYPASS` = 1 drains a slice in ON. -/
theorem bypassSet_spec {s : State} {who : Fin 18} {sl : Fin 32} {v : Nat} (h : CanWrite s who.val .SCC_CTL sl.val 0 v [F.SCC_CTL_WT, F.SCC_CTL_BYPASS])
    (hwt : F.SCC_CTL_WT.hit v = false) (hset : F.SCC_CTL_BYPASS.hit v = true) (hwas : s.on F.SCC_CTL_BYPASS sl.val = false) (hon : s.sstate sl.val = ssOn) :
    lastResult (writeBy s who.val .SCC_CTL sl.val 0 v) who.val = Code.ok.num ∧ (writeBy s who.val .SCC_CTL sl.val 0 v).sstate sl.val = ssDrain ∧
    (writeBy s who.val .SCC_CTL sl.val 0 v).on F.SCC_CTL_BYPASS sl.val = true := by
  obtain ⟨hready, hmay⟩ := h
  have hset' := (sccCtlWord_hit (by decide) (hmay F.SCC_CTL_BYPASS (by simp))).trans hset
  have hwt' := (sccCtlWord_hit (by decide) (hmay F.SCC_CTL_WT (by simp))).trans hwt
  rw [writeBy_sccCtl sl hready (.inl hset') (.inl hwt'), ctlWalked_off _ hwt', ctlBypassed_drains _ hset' hwas hon]
  obtain ⟨hstored, -, -⟩ := ctlCleared_stored (v := v) (writtenWord s who.val .SCC_CTL sl.val v) hmay
  refine ⟨recordAcc_res .., ?_, ?_⟩
  · rw [State.sstate, recordAcc_rd _ _ _ _ _ _ who.isLt _ _ _ (slice_not_lasPlace sl (by decide))]
    exact startDrain_sstate ..
  · rw [State.on, recordAcc_rd _ _ _ _ _ _ who.isLt _ _ _ (slice_not_lasPlace sl (by decide)),
      (startDrain_placeKept _ (at_ne_of_key (by decide) _ _) (at_ne_of_key (by decide) _ _)).rd, hstored _ (by simp)]
    exact hset

/-- BYPASS_WRITE with `BYPASS` = 0 returns a slice from BYPASS to ON unless its channel is folded. -/
theorem bypassClear_spec {s : State} {who : Fin 18} {sl : Fin 32} {v : Nat} (h : CanWrite s who.val .SCC_CTL sl.val 0 v [F.SCC_CTL_WT, F.SCC_CTL_BYPASS])
    (hwt : F.SCC_CTL_WT.hit v = false) (hclear : F.SCC_CTL_BYPASS.hit v = false) (hwas : s.on F.SCC_CTL_BYPASS sl.val = true)
    (hgood : s.on F.SCC_STAT_SFAULT sl.val = false) (hstate : s.sstate sl.val = ssBypass)
    (hunfolded : s.fstate ≠ fDone ∨ s.rd F.TSV_FOLD_STAT_FOLDED_CH ≠ sl.val) :
    lastResult (writeBy s who.val .SCC_CTL sl.val 0 v) who.val = Code.ok.num ∧ (writeBy s who.val .SCC_CTL sl.val 0 v).sstate sl.val = ssOn ∧
    (writeBy s who.val .SCC_CTL sl.val 0 v).on F.SCC_CTL_BYPASS sl.val = false := by
  obtain ⟨hready, hmay⟩ := h
  have hclear' := (sccCtlWord_hit (by decide) (hmay F.SCC_CTL_BYPASS (by simp))).trans hclear
  have hwt' := (sccCtlWord_hit (by decide) (hmay F.SCC_CTL_WT (by simp))).trans hwt
  rw [writeBy_sccCtl sl hready (.inr ⟨hgood, by rw [hstate]; decide⟩) (.inl hwt'), ctlWalked_off _ hwt',
    ctlBypassed_returns _ hclear' hwas hstate hunfolded]
  obtain ⟨hstored, -, -⟩ := ctlCleared_stored (v := v) (writtenWord s who.val .SCC_CTL sl.val v) hmay
  refine ⟨recordAcc_res .., ?_, ?_⟩
  · rw [State.sstate, recordAcc_rd _ _ _ _ _ _ who.isLt _ _ _ (slice_not_lasPlace sl (by decide)), State.rd_wr_same]
    rfl
  · rw [State.on, recordAcc_rd _ _ _ _ _ _ who.isLt _ _ _ (slice_not_lasPlace sl (by decide)),
      State.rd_wr_ne _ _ _ _ _ _ _ _ (at_ne_of_key (by decide) _ _), hstored _ (by simp)]
    exact hclear

/-- BYPASS_WRITE with `BYPASS` = 0 is refused for a faulted slice and for one in DRAIN. -/
theorem bypassClear_refused {s : State} {who : Fin 18} {sl : Fin 32} {v : Nat} (h : CanWrite s who.val .SCC_CTL sl.val 0 v [F.SCC_CTL_WT, F.SCC_CTL_BYPASS])
    (hclear : F.SCC_CTL_BYPASS.hit v = false) (hbad : s.on F.SCC_STAT_SFAULT sl.val = true ∨ s.sstate sl.val = ssDrain) :
    writeBy s who.val .SCC_CTL sl.val 0 v = recordAcc s who.val true (regOffset .SCC_CTL sl.val 0) .state 0 := by
  obtain ⟨hready, hmay⟩ := h
  have hclear' := (sccCtlWord_hit (by decide) (hmay F.SCC_CTL_BYPASS (by simp))).trans hclear
  exact writeBy_refused (regAt_sccCtl sl) hready ((writeHook_sccCtl ..).trans (hookSccCtl_refused _ hclear' hbad)) (.inl rfl) rfl

/-- SCC_CNT_CLR with `WT` = 0 and `BYPASS` as it is zeroes the slice's counters. -/
theorem sccCntClr_spec {s : State} {who : Fin 18} {sl : Fin 32} {v : Nat}
    (h : CanWrite s who.val .SCC_CTL sl.val 0 (withBits v [(F.SCC_CTL_CNT_CLR, 1)]) [F.SCC_CTL_CNT_CLR, F.SCC_CTL_WT, F.SCC_CTL_BYPASS])
    (hwt : F.SCC_CTL_WT.hit v = false) (hsame : F.SCC_CTL_BYPASS.hit v = s.on F.SCC_CTL_BYPASS sl.val)
    (hopen : F.SCC_CTL_BYPASS.hit v = true ∨ s.on F.SCC_STAT_SFAULT sl.val = false ∧ s.sstate sl.val ≠ ssDrain) :
    lastResult (writeBy s who.val .SCC_CTL sl.val 0 (withBits v [(F.SCC_CTL_CNT_CLR, 1)])) who.val = Code.ok.num ∧
    ∀ f ∈ sliceCounters, (writeBy s who.val .SCC_CTL sl.val 0 (withBits v [(F.SCC_CTL_CNT_CLR, 1)])).rd f sl.val = 0 := by
  obtain ⟨hready, hmay⟩ := h
  have hclr : F.SCC_CTL_CNT_CLR.hit (writtenWord s who.val .SCC_CTL sl.val (withBits v [(F.SCC_CTL_CNT_CLR, 1)])) = true := by
    rw [Fld.hit, writtenWord_set (by decide) (hmay _ (by simp))]
    rfl
  have hwt' := (sccCtlWord_kept (v := v) (g := F.SCC_CTL_CNT_CLR) (x := 1) (by decide) (hmay F.SCC_CTL_WT (by simp)) (by decide)).trans hwt
  have hbypass := sccCtlWord_kept (v := v) (g := F.SCC_CTL_CNT_CLR) (x := 1) (by decide) (hmay F.SCC_CTL_BYPASS (by simp)) (by decide)
  rw [writeBy_sccCtl sl hready (by rw [hbypass]; exact hopen) (.inl hwt'), ctlWalked_off _ hwt', ctlBypassed_same _ (hbypass.trans hsame), ctlCleared,
    if_pos hclr]
  have hplaces : ∀ f ∈ sliceCounters, 1600 ≤ f.key ∧ f.key + f.s1 * 32 < 2 ^ 28 := by decide
  refine ⟨recordAcc_res .., fun f hf => ?_⟩
  rw [recordAcc_rd _ _ _ _ _ _ who.isLt _ _ _ (slice_not_lasPlace sl (hplaces f hf)), sccClear_rd _ sl hf]

/-- WAY_DISABLE_WRITE retires the ways that its word names, besides those already retired. -/
theorem wayDisable_spec {s : State} {who : Fin 18} {sl : Fin 32} {v : Nat} (h : CanWrite s who.val .SCC_WAYS sl.val 0 v [F.SCC_WAYS_WAY_DIS]) :
    lastResult (writeBy s who.val .SCC_WAYS sl.val 0 v) who.val = Code.ok.num ∧ ∀ k, k < 16 →
      bit ((writeBy s who.val .SCC_WAYS sl.val 0 v).rd F.SCC_WAYS_WAY_DIS sl.val) k =
        (bit (s.rd F.SCC_WAYS_WAY_DIS sl.val) k || bit (F.SCC_WAYS_WAY_DIS.val v) k) := by
  obtain ⟨hready, hmay⟩ := h
  rw [writeBy_accepted (regAt_sccWays sl) hready (writeHook_sccWays ..) rfl]
  refine ⟨recordAcc_res .., fun k hk => ?_⟩
  rw [recordAcc_rd _ _ _ _ _ _ who.isLt _ _ _ (slice_not_lasPlace sl (by decide)), retireWays_wayDis _ _ sl hk, newWays_contains s sl.val _ hk,
    State.rd_wr_same, bit_mod_two_pow (n := F.SCC_WAYS_WAY_DIS.w) _ hk, writtenWord_val _ _ _ _ _ _ (by decide) (hmay _ (by simp))]
  cases bit (s.rd F.SCC_WAYS_WAY_DIS sl.val) k <;> simp

/-- Settles O15: each command is the write of its register, by what the register's own action makes of the word and leaves of the slice. -/
theorem sliceRegisterWrites : Obligations.SliceRegisterWrites := by
  unfold Obligations.SliceRegisterWrites
  refine ⟨fun s who sl v hcan hscope hways hstate => ?_, fun s who sl v hcan hscope hways hstate => ?_,
    fun s who sl v hcan hwas hsame hgood hfree hon => ⟨_, exec_writeThroughSet who sl v s, writeThroughSet_spec hcan hwas hsame hgood hfree hon⟩,
    fun s who sl v hcan hwt => ⟨fun hset hwas hon => ⟨_, exec_bypassWrite who sl v s, bypassSet_spec hcan hwt hset hwas hon⟩,
      fun hclear hwas hgood hstate hfold => ⟨_, exec_bypassWrite who sl v s, bypassClear_spec hcan hwt hclear hwas hgood hstate hfold⟩,
      fun hclear hbad => by rw [exec_bypassWrite, bypassClear_refused hcan hclear hbad]⟩,
    fun s who sl v hcan => ⟨_, exec_wayDisableWrite who sl v s, wayDisable_spec hcan⟩,
    fun s who sl v hcan hwt hsame hopen => ⟨_, exec_sccCntClr who sl v s, sccCntClr_spec hcan hwt hsame hopen⟩⟩
  · obtain ⟨hstarts, hbusy⟩ := opsWrite_spec (.inl rfl) hcan hscope hways hstate
    exact ⟨fun hfree => ⟨_, exec_clean who sl v s, hstarts hfree⟩, fun hruns => by rw [exec_clean, hbusy hruns]⟩
  · obtain ⟨hstarts, hbusy⟩ := opsWrite_spec (.inr rfl) hcan hscope hways hstate
    exact ⟨fun hfree => ⟨_, exec_cleanInv who sl v s, hstarts hfree⟩, fun hruns => by rw [exec_cleanInv, hbusy hruns]⟩

end Sys2Proof.Machine


/-! SUPPORT. The scheduler's order (R179, Table 8.2), and O35. -/

namespace Sys2Proof.Machine

/-! ## The order of candidates -/

/-- Band, step, row hit, age: the order of candidates as one formula over numbers. -/
theorem Cand.before_iff (a b : Cand) : a.before b = true ↔ a.band < b.band ∨ a.band = b.band ∧ (b.step < a.step ∨
    a.step = b.step ∧ (b.hit.toNat < a.hit.toNat ∨ a.hit.toNat = b.hit.toNat ∧ b.age < a.age)) := by
  unfold Cand.before
  split
  next hband => simp only [decide_eq_true_eq]; omega
  next hband =>
    split
    next hstep => simp only [decide_eq_true_eq]; omega
    next hstep =>
      have hband' : a.band = b.band := not_not.1 hband
      have hstep' : a.step = b.step := not_not.1 hstep
      cases a.hit <;> cases b.hit <;> simp [hband', hstep']

theorem Cand.before_asymm {a b : Cand} (h : a.before b = true) : b.before a = false := by
  rw [← Bool.not_eq_true, Cand.before_iff]
  rw [Cand.before_iff] at h
  omega

theorem Cand.before_irrefl (a : Cand) : a.before a = false := by
  cases h : a.before a with
  | false => rfl
  | true => exact h.symm.trans (Cand.before_asymm h)

/-- What nothing of one goes before passes on: "not before" is transitive. -/
theorem Cand.not_before_trans {a b c : Cand} (hab : a.before b = false) (hbc : b.before c = false) : a.before c = false := by
  rw [← Bool.not_eq_true, Cand.before_iff] at *
  omega

theorem bestCand_eq_none (l : List Cand) : bestCand l = none ↔ l = [] := by
  cases l with
  | nil => exact iff_of_true rfl rfl
  | cons c r =>
    refine iff_of_false ?_ (List.cons_ne_nil c r)
    rw [bestCand]
    split <;> exact Option.some_ne_none _

theorem bestCand_spec (l : List Cand) {c : Cand} (h : bestCand l = some c) : c ∈ l ∧ ∀ x ∈ l, x.before c = false := by
  induction l generalizing c with
  | nil => cases h
  | cons a r ih =>
    rw [bestCand] at h
    split at h
    case h_1 hnone =>
      obtain rfl := (bestCand_eq_none r).1 hnone
      obtain rfl := Option.some.inj h
      simp [Cand.before_irrefl]
    case h_2 x hx =>
      obtain ⟨hmem, hbest⟩ := ih hx
      cases hxa : x.before a with
      | true =>
        obtain rfl : x = c := by simpa [hxa] using h
        exact ⟨List.mem_cons_of_mem _ hmem, List.forall_mem_cons.2 ⟨Cand.before_asymm hxa, hbest⟩⟩
      | false =>
        obtain rfl : a = c := by simpa [hxa] using h
        exact ⟨List.mem_cons_self, List.forall_mem_cons.2 ⟨Cand.before_irrefl _, fun y hy => Cand.not_before_trans (hbest y hy) hxa⟩⟩

/-- Settles O35: the best candidate by induction on the list, the order by its formula. -/
theorem schedulerOrder : Obligations.SchedulerOrder := by
  unfold Obligations.SchedulerOrder
  refine ⟨fun l c h => bestCand_spec l h, bestCand_eq_none, fun a b => ?_⟩
  refine ⟨fun hband => ?_, fun hband hstep => ?_, fun hband hstep ha hb => ?_, fun hband hstep hhit hage => ?_, Cand.before_asymm⟩
  all_goals rw [Cand.before_iff]
  · exact .inl hband
  · exact .inr ⟨hband, .inl hstep⟩
  · exact .inr ⟨hband, .inr ⟨hstep, .inl (by rw [ha, hb]; exact Nat.zero_lt_one)⟩⟩
  · exact .inr ⟨hband, .inr ⟨hstep, .inr ⟨congrArg Bool.toNat hhit, hage⟩⟩⟩

end Sys2Proof.Machine


/-! SUPPORT. What order, the fold's trigger and the end of a channel's work leave: the controllers, the power state, and places of the register store. -/

namespace Sys2Proof.Machine

/-! ## The controllers and the power state stay -/

/-- The channels' controllers, the power state, the step of a start and the reset pin stay as they are. -/
def Beside (s t : State) : Prop := t.dmc = s.dmc ∧ t.pck.pow = s.pck.pow ∧ t.pck.step = s.pck.step ∧ t.pck.resetLow = s.pck.resetLow

theorem Beside.refl (s : State) : Beside s s := ⟨rfl, rfl, rfl, rfl⟩

theorem Beside.trans {s t u : State} (h : Beside s t) (k : Beside t u) : Beside s u := by
  obtain ⟨hdmc, hpow, hstep, hlow⟩ := h
  obtain ⟨kdmc, kpow, kstep, klow⟩ := k
  exact ⟨kdmc.trans hdmc, kpow.trans hpow, kstep.trans hstep, klow.trans hlow⟩

theorem Beside.ite {s a b : State} {c : Prop} [Decidable c] (ha : Beside s a) (hb : Beside s b) : Beside s (if c then a else b) := by
  split
  · exact ha
  · exact hb

theorem Beside.foldl {α : Type} {f : State → α → State} (hf : ∀ t x, Beside t (f t x)) (s : State) (l : List α) : Beside s (l.foldl f s) :=
  List.foldlRecOn (motive := Beside s) l f (.refl s) fun t ht x _ => ht.trans (hf t x)

theorem Beside.wr {s t : State} (h : Beside s t) (f : Fld) (v i j : Nat) : Beside s (t.wr f v i j) := h.trans ⟨rfl, rfl, rfl, rfl⟩

theorem Beside.inc {s t : State} (h : Beside s t) (f : Fld) (n i j : Nat) : Beside s (t.inc f n i j) := h.trans ⟨rfl, rfl, rfl, rfl⟩

theorem Beside.setLine {s t : State} (h : Beside s t) (sl set w : Nat) (x : Line) : Beside s (t.setLine sl set w x) := h.trans ⟨rfl, rfl, rfl, rfl⟩

theorem RaiseReach.beside {s t : State} (h : RaiseReach s t) : Beside s t := by
  obtain ⟨regs, fcr, pst, due, wake, rfl, -⟩ := h
  exact ⟨rfl, rfl, rfl, rfl⟩

theorem Beside.raise {s t : State} (h : Beside s t) (src : Nat) (v : Sev) (syn : List Nat) : Beside s (t.raise src v syn) :=
  h.trans (t.raise_reach ..).beside

theorem Beside.raiseG {s t : State} (h : Beside s t) (src : Nat) (v : Sev) (unit value : Nat) : Beside s (t.raiseG src v unit value) := h.raise ..

theorem Beside.dmcOf {s t : State} (h : Beside s t) (c : Nat) : t.dmcOf c = s.dmcOf c := SameDmc.dmcOf h.1 c

theorem portPut_beside (s : State) (ws : List MWord) : Beside s (s.portPut ws) := by
  obtain ⟨pst, heq⟩ := s.portPut_eq ws
  rw [heq]
  exact ⟨rfl, rfl, rfl, rfl⟩

theorem Counted.beside {s t : State} (h : Counted s t) : Beside s t := by
  obtain ⟨cnt, rfl⟩ := h
  exact ⟨rfl, rfl, rfl, rfl⟩

/-! ## A part of the controllers stays -/

/-- Every channel's controller keeps what `p` sees of it. -/
structure DmcKept {α : Type} (p : Dmc → α) (s t : State) : Prop where
  /-- It is the same for each channel. -/
  dmcOf : ∀ c, p (t.dmcOf c) = p (s.dmcOf c)

section
variable {α : Type} {p : Dmc → α}

theorem DmcKept.refl (s : State) : DmcKept p s s := ⟨fun _ => rfl⟩

theorem DmcKept.trans {s t u : State} (h : DmcKept p s t) (k : DmcKept p t u) : DmcKept p s u :=
  ⟨fun c => (k.dmcOf c).trans (h.dmcOf c)⟩

theorem DmcKept.ite {s a b : State} {c : Prop} [Decidable c] (ha : DmcKept p s a) (hb : DmcKept p s b) : DmcKept p s (if c then a else b) := by
  split
  · exact ha
  · exact hb

theorem DmcKept.foldl {β : Type} {f : State → β → State} (hf : ∀ t x, DmcKept p t (f t x)) (s : State) (l : List β) : DmcKept p s (l.foldl f s) :=
  List.foldlRecOn (motive := DmcKept p s) l f (.refl s) fun t ht x _ => ht.trans (hf t x)

theorem DmcKept.of_dmc {s t : State} (h : t.dmc = s.dmc) : DmcKept p s t := ⟨fun c => congrArg p (SameDmc.dmcOf h c)⟩

theorem Beside.dmcKept {s t : State} (h : Beside s t) : DmcKept p s t := .of_dmc h.1

theorem DmcKept.beside {s t u : State} (h : DmcKept p s t) (k : Beside t u) : DmcKept p s u := h.trans k.dmcKept

theorem DmcKept.wr {s t : State} (h : DmcKept p s t) (f : Fld) (v i j : Nat) : DmcKept p s (t.wr f v i j) := h.trans (.of_dmc rfl)

theorem DmcKept.inc {s t : State} (h : DmcKept p s t) (f : Fld) (n i j : Nat) : DmcKept p s (t.inc f n i j) := h.trans (.of_dmc rfl)

/-- A controller is stored that looks the same. -/
theorem DmcKept.setDmc {s t : State} (h : DmcKept p s t) {ch : Nat} {d : Dmc} (hd : p d = p (t.dmcOf ch)) : DmcKept p s (t.setDmc ch d) := by
  refine ⟨fun c => ?_⟩
  by_cases hc : c = ch
  · subst hc
    rw [State.setDmc_dmcOf_same, hd, h.dmcOf]
  · rw [State.setDmc_dmcOf_ne _ _ _ _ hc, h.dmcOf]

end

/-! ## Order -/

theorem countPoison_beside (s : State) (ch : Nat) (c : Code) : Beside s (countPoison s ch c) := .ite ⟨rfl, rfl, rfl, rfl⟩ (.refl s)

theorem markPerformed_beside (s : State) (r : Req) : Beside s (markPerformed s r) :=
  Beside.trans (t := setReq s { r with performed := true, visible := true }) ⟨rfl, rfl, rfl, rfl⟩ (countBytes_counted ..).beside

theorem forward_beside (s : State) (r : Req) : Beside s (forward s r) := by
  unfold forward
  extract_lets got lost code codes r' u
  have hu : Beside s u := by
    refine .foldl (fun t x => ?_) s _
    split
    · exact .ite (.refl t) (countPoison_beside ..)
    · exact .refl t
  exact (hu.inc ..).trans (markPerformed_beside ..)

theorem waitHazard_beside (s : State) (r : Req) : Beside s (waitHazard s r) := .ite (.refl s) ⟨rfl, rfl, rfl, rfl⟩

theorem settleOne_beside (s : State) (id : Nat) : Beside s (settleOne s id) := by
  unfold settleOne
  split
  · exact .refl s
  next r _ =>
    refine .ite (.refl s) ?_
    split
    · exact markPerformed_beside ..
    · exact .ite (markPerformed_beside ..) (Beside.trans (.ite ((Beside.refl s).inc ..) (.refl s)) (markPerformed_beside ..))
    · exact .ite (forward_beside ..) (waitHazard_beside ..)
    · exact .refl s
    · exact .refl s
    · exact .ite (markPerformed_beside ..) (.refl s)
    · exact waitHazard_beside ..

theorem settle_beside (s : State) : Beside s (settle s) := (Beside.foldl settleOne_beside s _).trans ⟨rfl, rfl, rfl, rfl⟩

/-- A place that order and forwarding write none of. -/
structure ApartFromOrder (k : Nat) : Prop where
  forwarded : F.RQE_FWD_FWD_SECT.at 0 0 ≠ k
  waited : F.RQE_HAZ_HAZ_WAIT.at 0 0 ≠ k
  poisoned : ∀ ch, F.DIP_UE_POISON_RD.at ch 0 ≠ k

section
variable {k : Nat} (h : ApartFromOrder k)
include h

theorem countPoison_placeKept (s : State) (ch : Nat) (c : Code) : PlaceKept k s (countPoison s ch c) :=
  .ite ((PlaceKept.refl s).inc _ (h.poisoned ch)) (.refl s)

omit h in
theorem markPerformed_placeKept (s : State) (r : Req) : PlaceKept k s (markPerformed s r) := by
  obtain ⟨cnt, heq⟩ : Counted (setReq s { r with performed := true, visible := true }) (markPerformed s r) := countBytes_counted ..
  rw [heq]
  exact .of_eq rfl

theorem forward_placeKept (s : State) (r : Req) : PlaceKept k s (forward s r) := by
  unfold forward
  extract_lets got lost code codes r' u
  have hu : PlaceKept k s u := by
    refine .foldl (fun t x => ?_) s _
    split
    · exact .ite (.refl t) (countPoison_placeKept h ..)
    · exact .refl t
  exact (hu.inc _ h.forwarded).trans (markPerformed_placeKept ..)

theorem waitHazard_placeKept (s : State) (r : Req) : PlaceKept k s (waitHazard s r) :=
  .ite (.refl s) (((PlaceKept.refl s).inc 1 h.waited).trans (.of_eq rfl))

theorem settleOne_placeKept (s : State) (id : Nat) : PlaceKept k s (settleOne s id) := by
  unfold settleOne
  split
  · exact .refl s
  next r _ =>
    refine .ite (.refl s) ?_
    split
    · exact markPerformed_placeKept ..
    · exact .ite (markPerformed_placeKept ..) (PlaceKept.trans (.ite ((PlaceKept.refl s).inc 1 h.waited) (.refl s)) (markPerformed_placeKept ..))
    · exact .ite (forward_placeKept h ..) (waitHazard_placeKept h ..)
    · exact .refl s
    · exact .refl s
    · exact .ite (markPerformed_placeKept ..) (.refl s)
    · exact waitHazard_placeKept h ..

theorem settle_placeKept (s : State) : PlaceKept k s (settle s) := (PlaceKept.foldl (settleOne_placeKept h) s _).trans (.of_eq rfl)

end

/-! ## The port, an event, and the fold's trigger -/

theorem portPut_regs (s : State) (ws : List MWord) : (s.portPut ws).regs = s.regs := by
  obtain ⟨pst, heq⟩ := s.portPut_eq ws
  rw [heq]

theorem RaiseReach.placeKept {k : Nat} {s t : State} (h : RaiseReach s t) (hk : raisePlace k = false) : PlaceKept k s t := by
  obtain ⟨regs, fc, p, d, w, heq, hregs⟩ := h
  refine ⟨fun x hx => ?_⟩
  rw [heq, bne_eq_false_iff_eq.1 hx]
  exact hregs k hk

theorem setFstate_beside (s : State) (v : Nat) : Beside s (setFstate s v) := ((Beside.refl s).wr ..).trans (portPut_beside ..)

theorem setFstate_placeKept {k : Nat} (s : State) (v : Nat) (h : F.TSV_FOLD_STAT_FSTATE.at 0 0 ≠ k) : PlaceKept k s (setFstate s v) :=
  ((PlaceKept.refl s).wr v h).trans (.of_eq (portPut_regs ..))

theorem dropClean_beside (s : State) (sl : Nat) (ls : List (Nat × Nat)) : Beside s (dropClean s sl ls) :=
  .foldl (fun t _ => (Beside.refl t).setLine ..) s ls

theorem startDrain_beside (s : State) (sl : Nat) : Beside s (startDrain s sl) := by
  have habandon : Beside s (abandonOp s sl) := by
    unfold abandonOp
    split
    · exact .refl s
    · exact ⟨rfl, rfl, rfl, rfl⟩
  exact (habandon.trans (dropClean_beside ..)).wr ..

theorem startFold_beside (s : State) (ch : Nat) : Beside s (startFold s ch) := by
  unfold startFold
  extract_lets u v w
  have hv : Beside s v := (((Beside.refl s).wr ..).trans (setFstate_beside ..)).wr ..
  have hw : Beside s w := .ite hv (hv.trans (startDrain_beside ..))
  have hx : Beside w { w with tsv.foldPoison := w.cstate ch == 0 } := ⟨rfl, rfl, rfl, rfl⟩
  exact (hw.trans hx).trans (foldEvent_reach _).beside

theorem foldTrigger_beside (s : State) (ch : Nat) : Beside s (foldTrigger s ch) := .ite (startFold_beside ..) ((Beside.refl s).raise ..)

/-- A place that neither the raise of an event nor the start of a fold from channel `ch` writes (Table 11.6, R258). -/
structure ApartFromFold (ch k : Nat) : Prop where
  raised : raisePlace k = false
  single : ∀ f ∈ [F.TSV_FOLD_STAT_FSTATE, F.TSV_FOLD_STAT_FOLDED_CH, F.DIP_SCRUB_STAT_SCRUB_PAUSED], f.at 0 0 ≠ k
  slice : ∀ f ∈ [F.SCC_OPS_STAT_OPS_RES, F.SCC_STAT_SSTATE], f.at ch 0 ≠ k

theorem startFold_placeKept {ch k : Nat} (h : ApartFromFold ch k) (s : State) : PlaceKept k s (startFold s ch) := by
  unfold startFold
  extract_lets u v w
  have hv : PlaceKept k s v :=
    (((PlaceKept.refl s).wr ch (h.single _ (by simp))).trans (setFstate_placeKept _ _ (h.single _ (by simp)))).wr 1 (h.single _ (by simp))
  have hw : PlaceKept k s w := .ite hv (hv.trans (startDrain_placeKept v (h.slice _ (by simp)) (h.slice _ (by simp))))
  have hx : PlaceKept k w { w with tsv.foldPoison := w.cstate ch == 0 } := .of_eq rfl
  exact (hw.trans hx).trans ((foldEvent_reach _).placeKept h.raised)

theorem foldTrigger_placeKept {ch k : Nat} (h : ApartFromFold ch k) (s : State) : PlaceKept k s (foldTrigger s ch) :=
  .ite (startFold_placeKept h s) ((s.raise_reach ..).placeKept h.raised)

end Sys2Proof.Machine


/-! SUPPORT. The start of a hang reset (R192 to R195, Table 8.7): what it leaves in the channel's state, its queues and its ranks. -/

namespace Sys2Proof.Machine

/-! ## The channel leaves RUN -/

theorem leaveEngines_regs (s : State) (c : Nat) : (leaveEngines s c).regs = s.regs := by
  have hdrop : (foldDrop s).regs = s.regs := List.foldlRecOn (motive := fun t : State => t.regs = s.regs) _ _ rfl fun _ ht _ _ => ht
  unfold leaveEngines
  extract_lets d u
  show u.regs = s.regs
  unfold u
  split
  · exact hdrop
  · rfl

/-- An injection that is armed for a channel is dropped when the channel leaves RUN (R236). -/
def injDisarmed (s : State) (ch : Nat) : State :=
  match s.dip.inj with
  | some (c, _, _, _) => if c = ch then { s.wr F.DIP_INJ_INJ_ARMED 0 with dip.inj := none } else s
  | none => s

/-- A repair whose words are not stored yet goes back to the queue when its channel leaves RUN (Table 11.7). -/
def repairRequeued (s : State) (ch : Nat) : State :=
  match (s.tsvCh ch).cur with
  | some (b, r, _) =>
    if (s.tsvCh ch).stored then s else
    let t := (s.setTsv ch { s.tsvCh ch with cur := none, stored := false }).wr F.TSV_RPR_STAT_RPR_BUSY 0 ch
    { t with tsv.rprQ := (ch, b, r) :: t.tsv.rprQ }
  | none => s

theorem leaveRun_eq (s : State) (ch : Nat) :
    leaveRun s ch = repairRequeued (injDisarmed (leaveEngines (abandonStep s ch) ch) ch) ch := rfl

/-- A place that the lines' step and the row repair that a channel abandons do not write (Table 11.7). -/
structure ApartFromLines (ch k : Nat) : Prop where
  lines : ∀ f ∈ [F.TSV_STAT_SHADOW_PHY, F.TSV_CAL_CNT_CAL_STEPS, F.TSV_STAT_CAL_BUSY, F.TSV_STAT_CAL_PHY, F.TSV_RPR_STAT_RPR_BUSY], f.at ch 0 ≠ k
  armed : F.DIP_INJ_INJ_ARMED.at 0 0 ≠ k

section
variable {ch k : Nat} (h : ApartFromLines ch k)
include h

theorem applyMapSw_placeKept (s : State) (m : MapSw) : PlaceKept k s (applyMapSw s ch m) := by
  have hshadow := h.lines F.TSV_STAT_SHADOW_PHY (by simp)
  have hsteps := h.lines F.TSV_CAL_CNT_CAL_STEPS (by simp)
  have hbusy := h.lines F.TSV_STAT_CAL_BUSY (by simp)
  have hphy := h.lines F.TSV_STAT_CAL_PHY (by simp)
  have hmap : PlaceKept k s (setMap s ch m.pos m.line) := .of_eq rfl
  unfold applyMapSw
  extract_lets u v
  have hv : PlaceKept k s v := by
    unfold v
    split
    · exact (((hmap.wr _ hshadow).inc 1 hsteps).wr 0 hbusy).wr _ hphy
    · exact hmap
  clear_value v
  split
  · exact (hv.trans (.of_eq rfl)).wr 0 hbusy
  · exact hv

theorem endMapSw_placeKept (s : State) : PlaceKept k s (endMapSw s ch) := by
  refine PlaceKept.trans (t := s.setTsv ch { s.tsvCh ch with sw := [] }) (.of_eq rfl) (.foldl (fun t m => ?_) _ _)
  exact .ite (applyMapSw_placeKept h ..) ((PlaceKept.refl t).wr _ (h.lines _ (by simp)))

theorem injDisarmed_placeKept (s : State) : PlaceKept k s (injDisarmed s ch) := by
  unfold injDisarmed
  split
  · exact .ite (((PlaceKept.refl s).wr 0 h.armed).trans (.of_eq rfl)) (.refl s)
  · exact .refl s

theorem repairRequeued_placeKept (s : State) : PlaceKept k s (repairRequeued s ch) := by
  have hset (x : TsvCh) : PlaceKept k s (s.setTsv ch x) := .of_eq rfl
  unfold repairRequeued
  split
  · exact .ite (.refl s) (((hset _).wr 0 (h.lines F.TSV_RPR_STAT_RPR_BUSY (by simp))).trans (.of_eq rfl))
  · exact .refl s

theorem leaveRun_placeKept (s : State) : PlaceKept k s (leaveRun s ch) := by
  have habandon : PlaceKept k s (abandonStep s ch) := ((endMapSw_placeKept h s).trans (.of_eq rfl)).wr 0 (h.lines _ (by simp))
  rw [leaveRun_eq]
  exact ((habandon.trans (.of_eq (leaveEngines_regs ..))).trans (injDisarmed_placeKept h _)).trans (repairRequeued_placeKept h _)

end

/-! ## The ranks enter self-refresh -/

/-- A place that shows no row of channel `ch` (Table 8.20). -/
def ApartFromRows (ch k : Nat) : Prop := ∀ j, F.DMC_BANK_ROW_E.at ch j ≠ k ∧ F.DMC_BANK_ROW_O.at ch j ≠ k

theorem doPre_placeKept {ch k : Nat} (h : ApartFromRows ch k) (s : State) (b : Nat) : PlaceKept k s (doPre s ch b) := by
  have hshow (d : Dmc) (row : Option Nat) : PlaceKept k s (showRow (s.setDmc ch d) ch b row) := by
    obtain ⟨heven, hodd⟩ := h (b / 2)
    have hset : PlaceKept k s (s.setDmc ch d) := .of_eq rfl
    unfold showRow
    split
    · exact hset.wr _ heven
    · exact hset.wr _ hodd
  unfold doPre
  extract_lets d x
  split
  · exact .refl s
  · exact hshow ..

theorem doPreAll_placeKept {ch k : Nat} (h : ApartFromRows ch k) (s : State) (r : Nat) : PlaceKept k s (doPreAll s ch r) :=
  .foldl (fun t i => doPre_placeKept h t (32 * r + i)) s _

/-- A rank's step into self-refresh, in the cycle `t` + `r`: its rows close, and SRE follows. -/
def srefRank (ch t : Nat) (u : State) (r : Nat) : State :=
  let u := doPreAll (u.setDmc ch { u.dmcOf ch with cyc := t + r }) ch r
  let d := u.dmcOf ch
  (u.setDmc ch (d.setRank r { d.rankOf r with rptOut := false, ack := false, rptSent := 0, pdeDue := none })).wr F.DMC_RANK_STAT_PSTATE 3 ch r

theorem srefEnter_eq (s : State) (ch : Nat) : srefEnter s ch =
    ((List.range 4).foldl (srefRank ch (closeAt s ch)) s).setDmc ch
      { ((List.range 4).foldl (srefRank ch (closeAt s ch)) s).dmcOf ch with
        cyc := closeAt s ch + 3 + tRP, rowAt := closeAt s ch + 3 + tRP, rptAt := none } := rfl

theorem srefRank_before {ch k : Nat} (h : ApartFromRows ch k) (t : Nat) (u : State) (r : Nat) (hne : F.DMC_RANK_STAT_PSTATE.at ch r ≠ k) :
    PlaceKept k u (srefRank ch t u r) := by
  have hset (v : State) (d : Dmc) : PlaceKept k v (v.setDmc ch d) := .of_eq (v.setDmc_regs ch d)
  exact (((hset u _).trans (doPreAll_placeKept h _ r)).trans (hset ..)).wr 3 hne

/-- Entering self-refresh writes of the registers the rows shown and the ranks' states. -/
theorem srefEnter_placeKept {ch k : Nat} (h : ApartFromRows ch k) (hranks : ∀ r, F.DMC_RANK_STAT_PSTATE.at ch r ≠ k) (s : State) :
    PlaceKept k s (srefEnter s ch) := by
  rw [srefEnter_eq]
  have hrank (u : State) (r : Nat) : PlaceKept k u (srefRank ch (closeAt s ch) u r) := srefRank_before h _ u r (hranks r)
  exact (PlaceKept.foldl hrank s _).trans (.of_eq (State.setDmc_regs ..))

theorem pstate_apartFromRows {ch r : Nat} (hr : r < 4) : ApartFromRows ch (F.DMC_RANK_STAT_PSTATE.at ch r) := by
  intro j
  simp only [Fld.at, F.DMC_RANK_STAT_PSTATE, F.DMC_BANK_ROW_E, F.DMC_BANK_ROW_O]
  omega

theorem pstate_at_ne {ch q r : Nat} (h : q ≠ r) : F.DMC_RANK_STAT_PSTATE.at ch q ≠ F.DMC_RANK_STAT_PSTATE.at ch r := by
  simp only [Fld.at, F.DMC_RANK_STAT_PSTATE]
  omega

theorem srefRank_pstate (ch t : Nat) (u : State) {q r : Nat} (hq : q < 4) :
    pstate (srefRank ch t u r) ch q = if q = r then 3 else pstate u ch q := by
  split
  next heq =>
    subst heq
    exact State.rd_wr_same ..
  next hne => exact (srefRank_before (pstate_apartFromRows hq) t u r (pstate_at_ne (Ne.symm hne))).rd

/-- Every rank of the channel is in self-refresh. -/
theorem srefEnter_pstate (s : State) (ch : Nat) {r : Nat} (hr : r < 4) : pstate (srefEnter s ch) ch r = 3 := by
  have hall (l : List Nat) (u : State) : pstate (l.foldl (srefRank ch (closeAt s ch)) u) ch r = if r ∈ l then 3 else pstate u ch r := by
    induction l generalizing u with
    | nil => rfl
    | cons a l ih =>
      rw [List.foldl_cons, ih, srefRank_pstate ch _ u hr]
      by_cases ha : r = a <;> by_cases hl : r ∈ l <;> simp [ha, hl]
  rw [srefEnter_eq, pstate, State.setDmc_rd]
  exact (hall _ s).trans (if_pos (List.mem_range.2 hr))

/-! ## The work that the channel holds ends -/

theorem wrote_regs (s : State) (id sec : Nat) : (wrote s id sec).regs = s.regs := by
  unfold wrote
  split <;> rfl

theorem hungRange_regs (s : State) (ch : Nat) (r : Req) : (hungRange s ch r).regs = s.regs := by
  unfold hungRange
  split <;> rfl

theorem dropCleanWork_regs (s : State) (ch : Nat) : (dropCleanWork s ch).regs = s.regs := by
  refine List.foldlRecOn (motive := fun t : State => t.regs = s.regs) _ _ rfl fun t ht e _ => ?_
  dsimp only
  split
  · split
    · exact (wrote_regs ..).trans ht
    · exact ht
  · exact ht

theorem dropReads_regs (s : State) (ch : Nat) : (dropReads s ch).regs = s.regs := by
  have hfills : (dropFills s ch).regs = s.regs := List.foldlRecOn (motive := fun t : State => t.regs = s.regs) _ _ rfl fun _ ht _ _ => ht
  exact hfills

/-- A request of a hung channel that internal traffic made is issued anew (R194). -/
def reissued (t : State) (r : Req) : State :=
  if r.iss = .host then t
  else setReq t { r with issued := false, got := [], pend := if r.op = .rd then [(r.dev / 64, r.bytes / 64)] else r.pend }

/-- The work of a hung channel ends, up to its reads and the unit (R194, Table 8.7). -/
def hungWorkEnded (s : State) (ch : Nat) : State :=
  let hung := hungReqs s ch
  let host := hung.filter (·.iss == .host)
  let t := dropCleanWork (s.rqe.reqs.foldl (fun t r => hungRange t ch r) s) ch
  let u := (host.foldl timeOut t).inc F.DMC_HANG_STAT_TMO_CPL (host.filter fun r => !r.sent).length ch
  dropReads (hung.foldl reissued u) ch

/-- Then order is looked at again. -/
def hungSettled (s : State) (ch : Nat) (hangs : List Nat) : State :=
  settle ((hungWorkEnded s ch).setDmc ch { (hungWorkEnded s ch).dmcOf ch with hangs := hangs })

/-- The end of what a hang reset does at its start: a limit that is newly reached triggers the fold (R258). -/
def hangOver (s : State) (ch : Nat) (hangs : List Nat) (newly : Bool) : State :=
  if newly then foldTrigger (hungSettled s ch hangs) ch else hungSettled s ch hangs

theorem hungWorkEnded_placeKept {ch k : Nat} (h : F.DMC_HANG_STAT_TMO_CPL.at ch 0 ≠ k) (s : State) : PlaceKept k s (hungWorkEnded s ch) := by
  have hrange (t : State) (r : Req) : PlaceKept k t (hungRange t ch r) := .of_eq (hungRange_regs t ch r)
  have hclean (t : State) : PlaceKept k t (dropCleanWork t ch) := .of_eq (dropCleanWork_regs t ch)
  have htimeOut (t : State) (r : Req) : PlaceKept k t (timeOut t r) := .of_eq rfl
  have hissue (t : State) (r : Req) : PlaceKept k t (reissued t r) := .ite (.refl t) (.of_eq rfl)
  have hreads (t : State) : PlaceKept k t (dropReads t ch) := .of_eq (dropReads_regs t ch)
  unfold hungWorkEnded
  extract_lets hung host t u
  have ht : PlaceKept k s t := (PlaceKept.foldl hrange s _).trans (hclean _)
  have hu : PlaceKept k s u := (ht.trans (PlaceKept.foldl htimeOut t host)).inc _ h
  exact (hu.trans (PlaceKept.foldl hissue u hung)).trans (hreads _)

/-- The channel's reads and bursts are gone. -/
theorem hangOver_queues (s : State) (ch : Nat) (hangs : List Nat) (newly : Bool) :
    ((hangOver s ch hangs newly).dmcOf ch).q = [] ∧ ((hangOver s ch hangs newly).dmcOf ch).fly = [] := by
  have hsettled : Beside ((hungWorkEnded s ch).setDmc ch { (hungWorkEnded s ch).dmcOf ch with hangs := hangs }) (hangOver s ch hangs newly) :=
    .ite ((settle_beside _).trans (foldTrigger_beside ..)) (settle_beside _)
  have hgone : ((hungWorkEnded s ch).dmcOf ch).q = [] ∧ ((hungWorkEnded s ch).dmcOf ch).fly = [] := by
    unfold hungWorkEnded dropReads
    extract_lets
    rw [State.setDmc_dmcOf_same]
    exact ⟨rfl, rfl⟩
  rw [hsettled.dmcOf, State.setDmc_dmcOf_same]
  exact hgone

theorem hangOver_placeKept {ch k : Nat} (htmo : F.DMC_HANG_STAT_TMO_CPL.at ch 0 ≠ k) (horder : ApartFromOrder k) (hfold : ApartFromFold ch k) (s : State)
    (hangs : List Nat) (newly : Bool) : PlaceKept k s (hangOver s ch hangs newly) := by
  have hset (t : State) (d : Dmc) : PlaceKept k t (t.setDmc ch d) := .of_eq (t.setDmc_regs ch d)
  have hsettled : PlaceKept k s (hungSettled s ch hangs) := ((hungWorkEnded_placeKept htmo s).trans (hset ..)).trans (settle_placeKept horder _)
  exact .ite (hsettled.trans (foldTrigger_placeKept hfold _)) hsettled

/-! ## The start of a hang reset -/

/-- The hangs of a channel within the last second, with the one now (R195). -/
def hangsNow (s : State) (ch : Nat) : List Nat := ((s.dmcOf ch).hangs.filter fun t => decide (s.now < t + second)) ++ [s.now]

/-- Their limit is reached. -/
def hangLimit (s : State) (ch : Nat) : Bool := decide (s.rd F.DMC_HANG_HANG_LIM ch ≤ (hangsNow s ch).length)

/-- The channel in HRST with its cause and count. -/
def hangCounted (s : State) (ch cause : Nat) : State :=
  ((s.wr F.DMC_STAT_CSTATE 3 ch).wr F.DMC_HANG_STAT_HCAUSE cause ch).inc F.DMC_HANG_STAT_HANGS 1 ch

/-- What a hang marks and raises, before the channel leaves RUN. -/
def hangMarked (s : State) (ch cause : Nat) : State :=
  hangEvent (if hangLimit s ch then (hangCounted s ch cause).wr F.DMC_STAT_HANG_LIM_HIT 1 ch else hangCounted s ch cause) ch 0

/-- The limit was not reached before. -/
def hangNewly (s : State) (ch cause : Nat) : Bool := hangLimit s ch && !(hangCounted s ch cause).on F.DMC_STAT_HANG_LIM_HIT ch

theorem hangStart_run {s : State} {ch : Nat} (cause : Nat) (hrun : s.cstate ch = 2) (hpow : s.pck.pow ≠ .powerFail) : hangStart ch cause s =
    hangOver (foldPause (srefEnter (leaveRun (hangMarked s ch cause) ch) ch)) ch (hangsNow s ch) (hangNewly s ch cause) := by
  unfold hangStart
  rw [if_neg (not_not.2 hrun), if_neg hpow]
  extract_lets d hangs limit t newly u v w hung host x y z a b
  have hw : foldPause (srefEnter (leaveRun (hangMarked s ch cause) ch) ch) = w := rfl
  rw [hw]
  show _ = hangOver w ch hangs newly
  clear_value w hangs newly
  rfl

theorem hangStart_powerFail {s : State} {ch : Nat} (cause : Nat) (hrun : s.cstate ch = 2) (hpow : s.pck.pow = .powerFail) :
    hangStart ch cause s = s.setDmc ch { s.dmcOf ch with hung := true } := by
  unfold hangStart
  rw [if_neg (by simpa using hrun), if_pos hpow]

/-- A place that the start of a hang reset of channel `ch` writes none of, besides CSTATE and HCAUSE and the ranks. -/
structure ApartFromHang (ch k : Nat) : Prop extends ApartFromLines ch k, ApartFromFold ch k, ApartFromOrder k where
  counted : ∀ f ∈ [F.DMC_HANG_STAT_HANGS, F.DMC_STAT_HANG_LIM_HIT, F.DMC_HANG_STAT_TMO_CPL], f.at ch 0 ≠ k
  rows : ApartFromRows ch k

section
variable {ch k : Nat} (h : ApartFromHang ch k)
include h

theorem foldPause_placeKept (s : State) : PlaceKept k s (foldPause s) := by
  have hdrop : PlaceKept k s (foldDrop s) :=
    .of_eq (List.foldlRecOn (motive := fun t : State => t.regs = s.regs) _ _ rfl fun _ ht _ _ => ht)
  exact .ite (hdrop.trans (setFstate_placeKept _ _ (h.single _ (by simp)))) (.refl s)

/-- From the count on, the start of a hang reset leaves such a place. -/
theorem hangStart_placeKept {s : State} (cause : Nat) (hrun : s.cstate ch = 2) (hpow : s.pck.pow ≠ .powerFail)
    (hranks : ∀ r, F.DMC_RANK_STAT_PSTATE.at ch r ≠ k) :
    PlaceKept k ((s.wr F.DMC_STAT_CSTATE 3 ch).wr F.DMC_HANG_STAT_HCAUSE cause ch) (hangStart ch cause s) := by
  have hcounted : PlaceKept k ((s.wr F.DMC_STAT_CSTATE 3 ch).wr F.DMC_HANG_STAT_HCAUSE cause ch) (hangCounted s ch cause) :=
    (PlaceKept.refl _).inc 1 (h.counted _ (by simp))
  have hmarked : PlaceKept k (hangCounted s ch cause) (hangMarked s ch cause) :=
    (PlaceKept.ite ((PlaceKept.refl _).wr 1 (h.counted _ (by simp))) (.refl _)).trans ((State.raise_reach ..).placeKept h.raised)
  have hleft := (leaveRun_placeKept h.toApartFromLines (hangMarked s ch cause)).trans (srefEnter_placeKept h.rows hranks _)
  rw [hangStart_run cause hrun hpow]
  exact (((hcounted.trans hmarked).trans hleft).trans (foldPause_placeKept h _)).trans
    (hangOver_placeKept (h.counted _ (by simp)) h.toApartFromOrder h.toApartFromFold ..)

end

/-- The place of DMC at offset `off` of channel `ch` lies apart from what a hang writes, if no counter of hangs and no row is shown there. -/
theorem apartFromHang_of_offset (ch : Fin 32) {off : Nat} (h : off < 2048 ∧ off ≠ 150 ∧ off ≠ 168 ∧ off % 128 ≠ 48) :
    ApartFromHang ch.val (16777216 + 65536 * ch.val + off) := by
  have hch := ch.isLt
  constructor
  · constructor
    · simp [Fld.at, F.TSV_STAT_SHADOW_PHY, F.TSV_CAL_CNT_CAL_STEPS, F.TSV_STAT_CAL_BUSY, F.TSV_STAT_CAL_PHY, F.TSV_RPR_STAT_RPR_BUSY]
      omega
    · simp [Fld.at, F.DIP_INJ_INJ_ARMED]
      omega
  · constructor
    · simp [raisePlace, Fld.at, F.MGT_QUIESCE_WE_STACK]
      omega
    · simp [Fld.at, F.TSV_FOLD_STAT_FSTATE, F.TSV_FOLD_STAT_FOLDED_CH, F.DIP_SCRUB_STAT_SCRUB_PAUSED]
      omega
    · simp [Fld.at, F.SCC_OPS_STAT_OPS_RES, F.SCC_STAT_SSTATE]
      omega
  · constructor
    · simp [Fld.at, F.RQE_FWD_FWD_SECT]
      omega
    · simp [Fld.at, F.RQE_HAZ_HAZ_WAIT]
      omega
    · intro c
      simp only [Fld.at, F.DIP_UE_POISON_RD]
      omega
  · simp [Fld.at, F.DMC_HANG_STAT_HANGS, F.DMC_STAT_HANG_LIM_HIT, F.DMC_HANG_STAT_TMO_CPL]
    omega
  · intro j
    simp only [Fld.at, F.DMC_BANK_ROW_E, F.DMC_BANK_ROW_O]
    omega

theorem cstate_apartFromHang (ch : Fin 32) : ApartFromHang ch.val (F.DMC_STAT_CSTATE.at ch.val 0) := by
  rw [show F.DMC_STAT_CSTATE.at ch.val 0 = 16777216 + 65536 * ch.val + 128 by simp only [Fld.at, F.DMC_STAT_CSTATE]; omega]
  exact apartFromHang_of_offset ch (by decide)

theorem hcause_apartFromHang (ch : Fin 32) : ApartFromHang ch.val (F.DMC_HANG_STAT_HCAUSE.at ch.val 0) := by
  rw [show F.DMC_HANG_STAT_HCAUSE.at ch.val 0 = 16777216 + 65536 * ch.val + 160 by simp only [Fld.at, F.DMC_HANG_STAT_HCAUSE]; omega]
  exact apartFromHang_of_offset ch (by decide)

theorem pstate_apartFromHang (ch : Fin 32) {r : Nat} (hr : r < 4) : ApartFromHang ch.val (F.DMC_RANK_STAT_PSTATE.at ch.val r) := by
  rw [show F.DMC_RANK_STAT_PSTATE.at ch.val r = 16777216 + 65536 * ch.val + (512 + 128 * r) by simp only [Fld.at, F.DMC_RANK_STAT_PSTATE]; omega]
  exact apartFromHang_of_offset ch (by omega)

/-- A hang reset starts: the channel is in HRST with its cause, its reads are gone, and its ranks are in self-refresh (R192, Table 8.7). -/
theorem hangStart_spec {s : State} (ch : Fin 32) (cause : Nat) (hrun : s.cstate ch.val = 2) (hpow : s.pck.pow ≠ .powerFail) :
    (hangStart ch.val cause s).cstate ch.val = 3 ∧ (hangStart ch.val cause s).rd F.DMC_HANG_STAT_HCAUSE ch.val = cause % 4 ∧
    ((hangStart ch.val cause s).dmcOf ch.val).q = [] ∧ ((hangStart ch.val cause s).dmcOf ch.val).fly = [] ∧
    ∀ r, r < 4 → pstate (hangStart ch.val cause s) ch.val r = 3 := by
  have hqueues := hangOver_queues (foldPause (srefEnter (leaveRun (hangMarked s ch.val cause) ch.val) ch.val)) ch.val (hangsNow s ch.val)
    (hangNewly s ch.val cause)
  rw [← hangStart_run cause hrun hpow] at hqueues
  refine ⟨?_, ?_, hqueues.1, hqueues.2, fun r hr => ?_⟩
  · have hkept := hangStart_placeKept (cstate_apartFromHang ch) cause hrun hpow fun r => by
      simp only [Fld.at, F.DMC_RANK_STAT_PSTATE, F.DMC_STAT_CSTATE]
      omega
    rw [State.cstate, hkept.rd, State.rd_wr_ne _ _ _ _ _ _ _ _ (at_ne_of_key (by decide) _ _), State.rd_wr_same]
    rfl
  · have hkept := hangStart_placeKept (hcause_apartFromHang ch) cause hrun hpow fun r => by
      simp only [Fld.at, F.DMC_RANK_STAT_PSTATE, F.DMC_HANG_STAT_HCAUSE]
      omega
    rw [hkept.rd, State.rd_wr_same]
    rfl
  · have hapart := pstate_apartFromHang ch hr
    rw [hangStart_run cause hrun hpow, pstate, ((foldPause_placeKept hapart _).trans
      (hangOver_placeKept (hapart.counted _ (by simp)) hapart.toApartFromOrder hapart.toApartFromFold ..)).rd]
    exact srefEnter_pstate _ _ hr

end Sys2Proof.Machine


/-! SUPPORT. Writes of the registers of DMC, RFM and DIP (Tables 8.9 to 8.19, 9.5 to 9.12, 10.7 to 10.17), and O16. -/

namespace Sys2Proof.Machine

/-! ## Fields cleared one after another -/

theorem rd_foldl_clear_of_zero {α : Type} (l : List α) (f : α → Fld) (i j : α → Nat) {s : State} {g : Fld} {a b : Nat} (hreset : g.reset a = 0)
    (h : s.rd g a b = 0) : (l.foldl (fun t x => t.wr (f x) 0 (i x) (j x)) s).rd g a b = 0 :=
  List.foldlRecOn (motive := fun t : State => t.rd g a b = 0) l _ h fun _ ht _ _ => State.rd_clear_of_zero _ _ _ hreset ht

/-- Each field of a list is zero once all are cleared. -/
theorem rd_foldl_clear {α : Type} {l : List α} (f : α → Fld) (i j : α → Nat) (s : State) {x : α} (hx : x ∈ l) (hreset : (f x).reset (i x) = 0) :
    (l.foldl (fun t x => t.wr (f x) 0 (i x) (j x)) s).rd (f x) (i x) (j x) = 0 := by
  induction l generalizing s with
  | nil => exact absurd hx List.not_mem_nil
  | cons y r ih =>
    rcases List.mem_cons.1 hx with rfl | hr
    · exact rd_foldl_clear_of_zero r f i j hreset (by rw [State.rd_wr_same, Nat.zero_mod])
    · exact ih _ hr

/-- A field that resets to zero does so at every index. -/
theorem reset_of_plain {f : Fld} (h : f.rstAt = [] ∧ f.rst = 0) (i : Nat) : f.reset i = 0 := by
  obtain ⟨hat, hrst⟩ := h
  rw [Fld.reset, hat, hrst, SMap.getD_nil]

/-! ## Operations that change registers alone -/

/-- `t` is `s` but for the register store. -/
def RegsOnly (s t : State) : Prop := ∃ regs, t = { s with regs := regs }

theorem RegsOnly.refl (s : State) : RegsOnly s s := ⟨s.regs, rfl⟩

theorem RegsOnly.trans {s t u : State} (h : RegsOnly s t) (k : RegsOnly t u) : RegsOnly s u := by
  obtain ⟨a, rfl⟩ := h
  obtain ⟨b, rfl⟩ := k
  exact ⟨b, rfl⟩

theorem RegsOnly.wr {s t : State} (h : RegsOnly s t) (f : Fld) (v i j : Nat) : RegsOnly s (t.wr f v i j) := h.trans ⟨_, rfl⟩

theorem RegsOnly.ite {s a b : State} {c : Prop} [Decidable c] (ha : RegsOnly s a) (hb : RegsOnly s b) : RegsOnly s (if c then a else b) := by
  split
  · exact ha
  · exact hb

theorem RegsOnly.foldl {α : Type} {f : State → α → State} (hf : ∀ t x, RegsOnly t (f t x)) (s : State) (l : List α) : RegsOnly s (l.foldl f s) :=
  List.foldlRecOn (motive := RegsOnly s) l f (.refl s) fun t ht x _ => ht.trans (hf t x)

theorem clearFields_regsOnly (s : State) (fs : List Fld) (n : Nat) : RegsOnly s (s.clearFields fs n) :=
  .foldl (fun t _ => .foldl (fun u _ => (RegsOnly.refl u).wr ..) t _) s fs

/-! ## What the record of an access leaves -/

section
variable (s : State) (wr : Bool) (off : Nat) (c : Code) (d : Nat)

theorem recordAcc_regsOnly (who : Fin 18) : RegsOnly s (recordAcc s who.val wr off c d) := by
  obtain ⟨regs, heq, -⟩ := recordAcc_reach s who.val wr off c d who.isLt
  exact ⟨regs, heq⟩

theorem recordAcc_dmcOf (who : Fin 18) (ch : Nat) : (recordAcc s who.val wr off c d).dmcOf ch = s.dmcOf ch := by
  obtain ⟨regs, heq⟩ := recordAcc_regsOnly s wr off c d who
  rw [heq]
  rfl

theorem recordAcc_dip (who : Fin 18) : (recordAcc s who.val wr off c d).dip = s.dip := by
  obtain ⟨regs, heq⟩ := recordAcc_regsOnly s wr off c d who
  rw [heq]

theorem recordAcc_rfm (who : Fin 18) : (recordAcc s who.val wr off c d).rfm = s.rfm := by
  obtain ⟨regs, heq⟩ := recordAcc_regsOnly s wr off c d who
  rw [heq]

end

/-- No record of an access lies among the registers of a channel. -/
theorem recordAcc_channel_rd (s : State) (wr : Bool) (off : Nat) (c : Code) (d : Nat) (who : Fin 18) (ch : Fin 32) {j : Nat} (hj : j < 4) {f : Fld}
    (h : 1600 ≤ f.key ∧ f.key + f.s1 * 32 + f.s2 * 4 < 2 ^ 28) : (recordAcc s who.val wr off c d).rd f ch.val j = s.rd f ch.val j := by
  have h1 : f.s1 * ch.val ≤ f.s1 * 32 := Nat.mul_le_mul_left _ ch.isLt.le
  have h2 : f.s2 * j ≤ f.s2 * 4 := Nat.mul_le_mul_left _ hj.le
  exact recordAcc_rd _ _ _ _ _ _ who.isLt _ _ _ (not_lasPlace (by simp only [Fld.at]; omega) (by simp only [Fld.at]; omega))

/-! ## DMC[ch]_CTL (R192, R196) -/

theorem regAt_dmcCtl (ch : Fin 32) : regAt (regOffset .DMC_CTL ch.val 0) = some (.DMC_CTL, ch.val, 0) := by
  revert ch
  decide +kernel

/-- What a write of DMC[ch]_CTL stores. -/
def dmcCtlStored (s : State) (who ch v : Nat) : State := storeFields s .DMC_CTL ch 0 v (mayField (letters s .DMC_CTL who ch true))

/-- And what it leaves once `CNT_CLR` has cleared the counters. -/
def dmcCtlCleared (s : State) (who ch v m : Nat) : State :=
  if F.DMC_CTL_CNT_CLR.hit m then dmcClear (dmcCtlStored s who ch v) ch else dmcCtlStored s who ch v

theorem writeHook_dmcCtl (s : State) (who ch v : Nat) : writeHook s who .DMC_CTL ch 0 v =
    hookDmc s (dmcCtlStored s who ch v) .DMC_CTL ch (writtenWord s who .DMC_CTL ch v) := rfl

theorem hookDmc_ctl_refused {s t : State} {ch m : Nat} (hreset : F.DMC_CTL_CH_RST.hit m = true) (hstate : s.cstate ch ≠ 2) :
    hookDmc s t .DMC_CTL ch m = noH s .state := if_pos (by simp [hreset, hstate])

theorem writeHook_dmcCtl_resets {s : State} {who ch v : Nat} (hreset : F.DMC_CTL_CH_RST.hit (writtenWord s who .DMC_CTL ch v) = true)
    (hstate : s.cstate ch = 2) :
    writeHook s who .DMC_CTL ch 0 v = okH (hangStart ch 3 (dmcCtlCleared s who ch v (writtenWord s who .DMC_CTL ch v))) := by
  rw [writeHook_dmcCtl]
  exact (if_neg (by simp [hstate])).trans (congrArg okH (if_pos hreset))

theorem writeHook_dmcCtl_plain {s : State} {who ch v : Nat} (hreset : F.DMC_CTL_CH_RST.hit (writtenWord s who .DMC_CTL ch v) = false) :
    writeHook s who .DMC_CTL ch 0 v = okH (dmcCtlCleared s who ch v (writtenWord s who .DMC_CTL ch v)) := by
  rw [writeHook_dmcCtl]
  exact (if_neg (by simp [hreset])).trans (congrArg okH (if_neg (by simp [hreset])))

/-- The counters of a channel that `CNT_CLR` clears. -/
def channelCounters : List Fld :=
  [F.DMC_RD_SECT_RD_SECT, F.DMC_WR_SECT_WR_SECT, F.DMC_ACT_CNT_ACT_CNT, F.DMC_HIT_CNT_HIT_CNT, F.DMC_EMPTY_CNT_EMPTY_CNT,
   F.DMC_CONF_CNT_CONF_CNT, F.DMC_DRAIN_CNT_DRAIN_CNT, F.DMC_WSUP_CNT_WSUP_CNT, F.DMC_HANG_STAT_TMO_CPL]

theorem dmcClear_eq (s : State) (ch : Nat) : dmcClear s ch =
    (List.range 4).foldl (fun t k => t.wr F.DMC_RANK_PD_PD_ENTRIES 0 ch k) (channelCounters.foldl (fun t f => t.wr f 0 ch) s) := rfl

theorem dmcClear_regsOnly (s : State) (ch : Nat) : RegsOnly s (dmcClear s ch) := by
  rw [dmcClear_eq]
  exact RegsOnly.trans (.foldl (fun t _ => (RegsOnly.refl t).wr ..) s _) (.foldl (fun t _ => (RegsOnly.refl t).wr ..) _ _)

theorem dmcClear_rd (s : State) (ch : Nat) : (∀ f ∈ channelCounters, (dmcClear s ch).rd f ch = 0) ∧
    ∀ k, k < 4 → (dmcClear s ch).rd F.DMC_RANK_PD_PD_ENTRIES ch k = 0 := by
  have hreset : ∀ f ∈ channelCounters, f.rstAt = [] ∧ f.rst = 0 := by decide
  rw [dmcClear_eq]
  refine ⟨fun f hf => ?_, fun k hk => ?_⟩
  · exact rd_foldl_clear_of_zero (List.range 4) (fun _ => F.DMC_RANK_PD_PD_ENTRIES) (fun _ => ch) id (reset_of_plain (hreset f hf) ch)
      (rd_foldl_clear (l := channelCounters) id (fun _ => ch) (fun _ => 0) s hf (reset_of_plain (hreset f hf) ch))
  · exact rd_foldl_clear (l := List.range 4) (fun _ => F.DMC_RANK_PD_PD_ENTRIES) (fun _ => ch) id _ (List.mem_range.2 hk)
      (reset_of_plain ⟨rfl, rfl⟩ ch)

/-- Storing and clearing leaves the channel's state, and all that is no register. -/
theorem dmcCtlCleared_spec (s : State) (who ch v m : Nat) : RegsOnly s (dmcCtlCleared s who ch v m) ∧
    (dmcCtlCleared s who ch v m).cstate ch = s.cstate ch := by
  have hflds : ∀ x ∈ RegId.DMC_CTL.info.flds, x.s1 = F.DMC_STAT_CSTATE.s1 ∧ x.s2 = F.DMC_STAT_CSTATE.s2 ∧ x.key ≠ F.DMC_STAT_CSTATE.key := by decide
  have hcounters : ∀ x ∈ channelCounters, x.s1 = F.DMC_STAT_CSTATE.s1 ∧ x.s2 = F.DMC_STAT_CSTATE.s2 ∧ x.key ≠ F.DMC_STAT_CSTATE.key := by decide
  have hstored : PlaceKept (F.DMC_STAT_CSTATE.at ch 0) s (dmcCtlStored s who ch v) :=
    storeFields_placeKept s v _ fun x hx => at_ne_of_key (hflds x hx) ch 0
  have hentries (k : Nat) : F.DMC_RANK_PD_PD_ENTRIES.at ch k ≠ F.DMC_STAT_CSTATE.at ch 0 := by
    simp only [Fld.at, F.DMC_RANK_PD_PD_ENTRIES, F.DMC_STAT_CSTATE]
    omega
  have hclear (t : State) : PlaceKept (F.DMC_STAT_CSTATE.at ch 0) t (dmcClear t ch) := by
    rw [dmcClear_eq]
    have hcount : PlaceKept (F.DMC_STAT_CSTATE.at ch 0) t (channelCounters.foldl (fun t f => t.wr f 0 ch) t) :=
      List.foldlRecOn channelCounters _ (.refl t) fun u hu f hf => hu.wr 0 (at_ne_of_key (hcounters f hf) ch 0)
    exact hcount.trans (.foldl (fun u k => (PlaceKept.refl u).wr 0 (hentries k)) _ _)
  have honly : RegsOnly s (dmcCtlStored s who ch v) := storeFields_regsOnly s .DMC_CTL ch 0 v _
  exact ⟨.ite (honly.trans (dmcClear_regsOnly ..)) honly, (hstored.trans (.ite (hclear _) (.refl _))).rd⟩

section
variable {s : State} (who : Fin 18) (ch : Fin 32) {v : Nat}

/-- The word of CH_RST as the register's action sees it has `CH_RST` set. -/
theorem chRst_hit (h : CanWrite s who.val .DMC_CTL ch.val 0 (withBits v [(F.DMC_CTL_CH_RST, 1)]) [F.DMC_CTL_CH_RST]) :
    F.DMC_CTL_CH_RST.hit (writtenWord s who.val .DMC_CTL ch.val (withBits v [(F.DMC_CTL_CH_RST, 1)])) = true := by
  obtain ⟨-, hmay⟩ := h
  rw [Fld.hit, writtenWord_set (by decide) (hmay _ (by simp))]
  rfl

/-- CH_RST of a channel in RUN is a hang with cause 3. -/
theorem writeBy_chRst (h : CanWrite s who.val .DMC_CTL ch.val 0 (withBits v [(F.DMC_CTL_CH_RST, 1)]) [F.DMC_CTL_CH_RST]) (hrun : s.cstate ch.val = 2) :
    ∃ u, RegsOnly s u ∧ u.cstate ch.val = 2 ∧ writeBy s who.val .DMC_CTL ch.val 0 (withBits v [(F.DMC_CTL_CH_RST, 1)]) =
      recordAcc (hangStart ch.val 3 u) who.val true (regOffset .DMC_CTL ch.val 0) .ok 0 := by
  obtain ⟨honly, hstate⟩ := dmcCtlCleared_spec s who.val ch.val (withBits v [(F.DMC_CTL_CH_RST, 1)])
    (writtenWord s who.val .DMC_CTL ch.val (withBits v [(F.DMC_CTL_CH_RST, 1)]))
  exact ⟨_, honly, hstate.trans hrun, writeBy_accepted (regAt_dmcCtl ch) h.1 (writeHook_dmcCtl_resets (chRst_hit who ch h) hrun) rfl⟩

/-- In a power-fail flush it only stops the channel's writes (Table 8.8). -/
theorem chRst_powerFail (h : CanWrite s who.val .DMC_CTL ch.val 0 (withBits v [(F.DMC_CTL_CH_RST, 1)]) [F.DMC_CTL_CH_RST]) (hrun : s.cstate ch.val = 2)
    (hpow : s.pck.pow = .powerFail) :
    lastResult (writeBy s who.val .DMC_CTL ch.val 0 (withBits v [(F.DMC_CTL_CH_RST, 1)])) who.val = Code.ok.num ∧
    ((writeBy s who.val .DMC_CTL ch.val 0 (withBits v [(F.DMC_CTL_CH_RST, 1)])).dmcOf ch.val).hung = true ∧
    (writeBy s who.val .DMC_CTL ch.val 0 (withBits v [(F.DMC_CTL_CH_RST, 1)])).cstate ch.val = 2 := by
  obtain ⟨u, ⟨regs, hregs⟩, hstate, heq⟩ := writeBy_chRst who ch h hrun
  rw [heq, hangStart_powerFail 3 hstate (by rw [hregs]; exact hpow)]
  refine ⟨recordAcc_res .., ?_, ?_⟩
  · rw [recordAcc_dmcOf, State.setDmc_dmcOf_same]
  · rw [State.cstate, recordAcc_channel_rd _ _ _ _ _ _ ch (by decide) (by decide)]
    exact hstate

/-- Else a hang reset with cause 3 starts. -/
theorem chRst_run (h : CanWrite s who.val .DMC_CTL ch.val 0 (withBits v [(F.DMC_CTL_CH_RST, 1)]) [F.DMC_CTL_CH_RST]) (hrun : s.cstate ch.val = 2)
    (hpow : s.pck.pow ≠ .powerFail) :
    lastResult (writeBy s who.val .DMC_CTL ch.val 0 (withBits v [(F.DMC_CTL_CH_RST, 1)])) who.val = Code.ok.num ∧
    (writeBy s who.val .DMC_CTL ch.val 0 (withBits v [(F.DMC_CTL_CH_RST, 1)])).cstate ch.val = 3 ∧
    (writeBy s who.val .DMC_CTL ch.val 0 (withBits v [(F.DMC_CTL_CH_RST, 1)])).rd F.DMC_HANG_STAT_HCAUSE ch.val = 3 := by
  obtain ⟨u, ⟨regs, hregs⟩, hstate, heq⟩ := writeBy_chRst who ch h hrun
  obtain ⟨hhrst, hcause, -⟩ := hangStart_spec ch 3 hstate (by rw [hregs]; exact hpow)
  rw [heq]
  refine ⟨recordAcc_res .., ?_, ?_⟩
  · rw [State.cstate, recordAcc_channel_rd _ _ _ _ _ _ ch (by decide) (by decide)]
    exact hhrst
  · rw [recordAcc_channel_rd _ _ _ _ _ _ ch (by decide) (by decide), hcause]

/-- CH_RST in another state of the channel is refused. -/
theorem chRst_refused (h : CanWrite s who.val .DMC_CTL ch.val 0 (withBits v [(F.DMC_CTL_CH_RST, 1)]) [F.DMC_CTL_CH_RST]) (hstate : s.cstate ch.val ≠ 2) :
    writeBy s who.val .DMC_CTL ch.val 0 (withBits v [(F.DMC_CTL_CH_RST, 1)]) = recordAcc s who.val true (regOffset .DMC_CTL ch.val 0) .state 0 :=
  writeBy_refused (regAt_dmcCtl ch) h.1 ((writeHook_dmcCtl ..).trans (hookDmc_ctl_refused (chRst_hit who ch h) hstate)) (.inl rfl) rfl

/-- DMC_CNT_CLR zeroes the channel's counters. -/
theorem dmcCntClr_spec (h : CanWrite s who.val .DMC_CTL ch.val 0 (withBits v [(F.DMC_CTL_CNT_CLR, 1)]) [F.DMC_CTL_CNT_CLR, F.DMC_CTL_CH_RST])
    (hreset : F.DMC_CTL_CH_RST.hit v = false) :
    lastResult (writeBy s who.val .DMC_CTL ch.val 0 (withBits v [(F.DMC_CTL_CNT_CLR, 1)])) who.val = Code.ok.num ∧
    (∀ f ∈ channelCounters, (writeBy s who.val .DMC_CTL ch.val 0 (withBits v [(F.DMC_CTL_CNT_CLR, 1)])).rd f ch.val = 0) ∧
    ∀ k, k < 4 → (writeBy s who.val .DMC_CTL ch.val 0 (withBits v [(F.DMC_CTL_CNT_CLR, 1)])).rd F.DMC_RANK_PD_PD_ENTRIES ch.val k = 0 := by
  obtain ⟨hready, hmay⟩ := h
  have hclr : F.DMC_CTL_CNT_CLR.hit (writtenWord s who.val .DMC_CTL ch.val (withBits v [(F.DMC_CTL_CNT_CLR, 1)])) = true := by
    rw [Fld.hit, writtenWord_set (by decide) (hmay _ (by simp))]
    rfl
  have hreset' : F.DMC_CTL_CH_RST.hit (writtenWord s who.val .DMC_CTL ch.val (withBits v [(F.DMC_CTL_CNT_CLR, 1)])) = false := by
    rw [Fld.hit, writtenWord_kept (by decide) (hmay _ (by simp)) (by decide)]
    exact hreset
  have hplaces : ∀ f ∈ channelCounters, 1600 ≤ f.key ∧ f.key + f.s1 * 32 + f.s2 * 4 < 2 ^ 28 := by decide
  rw [writeBy_accepted (regAt_dmcCtl ch) hready (writeHook_dmcCtl_plain hreset') rfl, dmcCtlCleared, if_pos hclr]
  obtain ⟨hcounters, hentries⟩ := dmcClear_rd (dmcCtlStored s who.val ch.val (withBits v [(F.DMC_CTL_CNT_CLR, 1)])) ch.val
  refine ⟨recordAcc_res .., fun f hf => ?_, fun k hk => ?_⟩
  · rw [recordAcc_channel_rd _ _ _ _ _ _ ch (by decide) (hplaces f hf)]
    exact hcounters f hf
  · rw [recordAcc_channel_rd _ _ _ _ _ _ ch hk (by decide)]
    exact hentries k hk

end

/-! ## DMC[ch]_TRAIN_CTL (R189) -/

theorem regAt_dmcTrainCtl (ch : Fin 32) : regAt (regOffset .DMC_TRAIN_CTL ch.val 0) = some (.DMC_TRAIN_CTL, ch.val, 0) := by
  revert ch
  decide +kernel

theorem writeHook_trainGo {s : State} {who ch v : Nat} (hgo : F.DMC_TRAIN_CTL_TRAIN_GO.hit (writtenWord s who .DMC_TRAIN_CTL ch v) = true)
    (hwe : s.on F.MGT_QUIESCE_WE_STACK = true) (hrun : s.cstate ch = 2) : writeHook s who .DMC_TRAIN_CTL ch 0 v =
      okH (trainStart (leaveRun (storeFields s .DMC_TRAIN_CTL ch 0 v (mayField (letters s .DMC_TRAIN_CTL who ch true))) ch) ch true (List.range 4)) := by
  show hookDmc s _ .DMC_TRAIN_CTL ch (writtenWord s who .DMC_TRAIN_CTL ch v) = _
  exact (if_neg (by simp [hgo])).trans (if_pos (by simp [hwe, hrun]))

/-- Training of ranks `r` and `rest` of a channel has begun: the channel is in TRAIN, on rank `r`. -/
theorem trainStart_spec (s : State) (ch : Nat) (inRun : Bool) (r : Nat) (rest : List Nat) :
    (trainStart s ch inRun (r :: rest)).cstate ch = 1 ∧ (trainStart s ch inRun (r :: rest)).on F.DMC_TRAIN_STAT_TR_BUSY ch = true ∧
    ∃ t, ((trainStart s ch inRun (r :: rest)).dmcOf ch).train = some { rank := r, began := t, inRun := inRun, ranks := rest } := by
  have hne : ∀ f ∈ [F.DMC_STAT_CSTATE, F.DMC_TRAIN_STAT_TR_BUSY], ∀ g ∈ [F.DMC_TRAIN_STAT_TR_RETRIES, F.DMC_TRAIN_STAT_TR_PASS],
      f.s1 = g.s1 ∧ f.s2 = g.s2 ∧ f.key ≠ g.key := by decide
  have hapart (f g : Fld) (hf : f ∈ [F.DMC_STAT_CSTATE, F.DMC_TRAIN_STAT_TR_BUSY]) (hg : g ∈ [F.DMC_TRAIN_STAT_TR_RETRIES, F.DMC_TRAIN_STAT_TR_PASS]) :
      f.at ch 0 ≠ g.at ch 0 := at_ne_of_key (hne f hf g hg) ch 0
  unfold trainStart
  extract_lets t keep u
  refine ⟨?_, ?_, t.now, ?_⟩
  · rw [State.cstate, State.setDmc_rd, State.rd_wr_ne _ _ _ _ _ _ _ _ (hapart _ _ (by simp) (by simp)),
      State.rd_wr_ne _ _ _ _ _ _ _ _ (hapart _ _ (by simp) (by simp)), State.rd_wr_ne _ _ _ _ _ _ _ _ (at_ne_of_key (by decide) _ _), State.rd_wr_same]
    rfl
  · rw [State.on, State.setDmc_rd, State.rd_wr_ne _ _ _ _ _ _ _ _ (hapart _ _ (by simp) (by simp)),
      State.rd_wr_ne _ _ _ _ _ _ _ _ (hapart _ _ (by simp) (by simp)), State.rd_wr_same]
    rfl
  · rw [State.setDmc_dmcOf_same]
    rfl

/-- TRAIN_GO on a channel in RUN under stack weigh-enough starts training of its four ranks. -/
theorem trainGo_spec {s : State} (who : Fin 18) (ch : Fin 32) {v : Nat}
    (h : CanWrite s who.val .DMC_TRAIN_CTL ch.val 0 (withBits v [(F.DMC_TRAIN_CTL_TRAIN_GO, 1)]) [F.DMC_TRAIN_CTL_TRAIN_GO])
    (hwe : s.on F.MGT_QUIESCE_WE_STACK = true) (hrun : s.cstate ch.val = 2) :
    let t := writeBy s who.val .DMC_TRAIN_CTL ch.val 0 (withBits v [(F.DMC_TRAIN_CTL_TRAIN_GO, 1)])
    lastResult t who.val = Code.ok.num ∧ t.cstate ch.val = 1 ∧ t.on F.DMC_TRAIN_STAT_TR_BUSY ch.val = true ∧
      ∃ x, (t.dmcOf ch.val).train = some x ∧ x.rank = 0 ∧ x.inRun = true ∧ x.ranks = [1, 2, 3] := by
  obtain ⟨hready, hmay⟩ := h
  have hgo : F.DMC_TRAIN_CTL_TRAIN_GO.hit (writtenWord s who.val .DMC_TRAIN_CTL ch.val (withBits v [(F.DMC_TRAIN_CTL_TRAIN_GO, 1)])) = true := by
    rw [Fld.hit, writtenWord_set (by decide) (hmay _ (by simp))]
    rfl
  intro t
  obtain ⟨hstate, hbusy, began, htrain⟩ := trainStart_spec (leaveRun (storeFields s .DMC_TRAIN_CTL ch.val 0
    (withBits v [(F.DMC_TRAIN_CTL_TRAIN_GO, 1)]) (mayField (letters s .DMC_TRAIN_CTL who.val ch.val true))) ch.val) ch.val true 0 [1, 2, 3]
  have heq : t = recordAcc _ _ _ _ _ _ := writeBy_accepted (regAt_dmcTrainCtl ch) hready (writeHook_trainGo hgo hwe hrun) rfl
  rw [heq]
  refine ⟨recordAcc_res .., ?_, ?_, _, (congrArg Dmc.train (recordAcc_dmcOf ..)).trans htrain, rfl, rfl, rfl⟩
  · rw [State.cstate, recordAcc_channel_rd _ _ _ _ _ _ ch (by decide) (by decide)]
    exact hstate
  · rw [State.on, recordAcc_channel_rd _ _ _ _ _ _ ch (by decide) (by decide)]
    exact hbusy

/-! ## RFM_CTL (R202, R206, R213) -/

theorem regAt_rfmCtl : regAt (regOffset .RFM_CTL 0 0) = some (.RFM_CTL, 0, 0) := by decide

/-- What a write of RFM_CTL stores and clears. -/
def rfmCtlCleared (s : State) (who v m : Nat) : State :=
  if F.RFM_CTL_CNT_CLR.hit m then rfmClear (storeFields s .RFM_CTL 0 0 v (mayField (letters s .RFM_CTL who 0 true)))
  else storeFields s .RFM_CTL 0 0 v (mayField (letters s .RFM_CTL who 0 true))

/-- With a new `ST_THR` on its way to the dies (R206). -/
def rfmCtlSent (s : State) (who v m : Nat) : State :=
  if F.RFM_CTL_ST_THR.val m ≠ s.rd F.RFM_CTL_ST_THR then thresholdSent (s.rd F.RFM_CTL_ST_THR) (rfmCtlCleared s who v m) else rfmCtlCleared s who v m

/-- And with every die at the doubled rate where `FORCE_2X` is set (R202). -/
def rfmCtlForced (s : State) (who v m : Nat) : State :=
  if F.RFM_CTL_FORCE_2X.hit m then (List.range 16).foldl (fun u n => setRate u n true) (rfmCtlSent s who v m) else rfmCtlSent s who v m

theorem writeHook_rfmCtl (s : State) (who v : Nat) :
    writeHook s who .RFM_CTL 0 0 v = okH (rfmCtlForced s who v (writtenWord s who .RFM_CTL 0 v)) := rfl

theorem setRate_regsOnly (s : State) (n : Nat) (dbl : Bool) : RegsOnly s (setRate s n dbl) := by
  unfold setRate
  split
  · exact .refl s
  · exact (((RegsOnly.refl s).wr ..).wr ..).wr ..

/-- The rate of a die: its bit, its count of changes, the map of RFM_DBL. -/
theorem setRate_placeKept {k n : Nat} (h : F.RFM_DIE_DBL.at n 0 ≠ k ∧ F.RFM_DIE_RATE_CHG.at n 0 ≠ k ∧ F.RFM_DBL_DBL_MAP.at 0 0 ≠ k) (s : State)
    (dbl : Bool) :
    PlaceKept k s (setRate s n dbl) := by
  obtain ⟨hdbl, hchg, hmap⟩ := h
  unfold setRate
  split
  · exact .refl s
  · exact (((PlaceKept.refl s).wr _ hdbl).inc 1 hchg).wr _ hmap

theorem rfmCtlForced_rfm (s : State) (who v m : Nat) : (rfmCtlForced s who v m).rfm = (rfmCtlSent s who v m).rfm := by
  obtain ⟨regs, heq⟩ : RegsOnly (rfmCtlSent s who v m) (rfmCtlForced s who v m) := .ite (.foldl (fun t n => setRate_regsOnly t n true) _ _) (.refl _)
  rw [heq]

/-- A place of RFM that is no die's. -/
theorem rfmCtlForced_placeKept {k : Nat} (s : State) (who v m : Nat) (hlow : F.RFM_DBL_DBL_MAP.at 0 0 ≠ k)
    (hdies : ∀ n < 16, F.RFM_DIE_DBL.at n 0 ≠ k ∧ F.RFM_DIE_RATE_CHG.at n 0 ≠ k) : PlaceKept k (rfmCtlCleared s who v m) (rfmCtlForced s who v m) := by
  have hsent : PlaceKept k (rfmCtlCleared s who v m) (rfmCtlSent s who v m) := .ite (.of_eq rfl) (.refl _)
  refine hsent.trans (.ite ?_ (.refl _))
  refine List.foldlRecOn (motive := PlaceKept k (rfmCtlSent s who v m)) (List.range 16) _ (.refl _) fun t ht n hn => ?_
  obtain ⟨hdbl, hchg⟩ := hdies n (List.mem_range.1 hn)
  exact ht.trans (setRate_placeKept ⟨hdbl, hchg, hlow⟩ t true)

/-- The counters of RFM that stand for each channel. -/
def rfmCounters : List Fld :=
  [F.RFM_VQ_VQ_PEAK, F.RFM_VQ_RPT_UE, F.RFM_XING_XINGS, F.RFM_VREF_VREFS, F.RFM_REF_MAX_DEBT, F.RFM_REF_OVERDUE, F.RFM_REF_SLIPS]

theorem rfmCtlCleared_regsOnly (s : State) (who v m : Nat) : RegsOnly s (rfmCtlCleared s who v m) := by
  have hstored : RegsOnly s (storeFields s .RFM_CTL 0 0 v (mayField (letters s .RFM_CTL who 0 true))) := storeFields_regsOnly ..
  exact .ite (hstored.trans (clearFields_regsOnly ..)) hstored

/-- A new ST_THR is stored, and under way from now. -/
theorem stThrWrite_spec {s : State} (who : Fin 18) {v : Nat} (h : CanWrite s who.val .RFM_CTL 0 0 v [F.RFM_CTL_ST_THR])
    (hnew : F.RFM_CTL_ST_THR.val v ≠ s.rd F.RFM_CTL_ST_THR) :
    lastResult (writeBy s who.val .RFM_CTL 0 0 v) who.val = Code.ok.num ∧ (writeBy s who.val .RFM_CTL 0 0 v).rfm.thrOld = s.rd F.RFM_CTL_ST_THR ∧
    (writeBy s who.val .RFM_CTL 0 0 v).rfm.thrAt = s.now ∧ (writeBy s who.val .RFM_CTL 0 0 v).rd F.RFM_CTL_ST_THR = F.RFM_CTL_ST_THR.val v := by
  obtain ⟨hready, hmay⟩ := h
  have hword : F.RFM_CTL_ST_THR.val (writtenWord s who.val .RFM_CTL 0 v) ≠ s.rd F.RFM_CTL_ST_THR := by
    rw [writtenWord_val _ _ _ _ _ _ (by decide) (hmay _ (by simp))]
    exact hnew
  obtain ⟨regs, hcleared⟩ := rfmCtlCleared_regsOnly s who.val v (writtenWord s who.val .RFM_CTL 0 v)
  have hstored : (storeFields s .RFM_CTL 0 0 v (mayField (letters s .RFM_CTL who.val 0 true))).rd F.RFM_CTL_ST_THR = F.RFM_CTL_ST_THR.val v :=
    storeFields_rd_rw s (by decide) (by decide) (by decide) rfl (hmay _ (by simp))
  have hcounters : ∀ f ∈ rfmCounters, ∀ i < 32, f.at i 0 ≠ F.RFM_CTL_ST_THR.at 0 0 := by decide
  have hkept : PlaceKept (F.RFM_CTL_ST_THR.at 0 0) (storeFields s .RFM_CTL 0 0 v (mayField (letters s .RFM_CTL who.val 0 true)))
      (rfmCtlCleared s who.val v (writtenWord s who.val .RFM_CTL 0 v)) := .ite (clearFields_placeKept _ hcounters) (.refl _)
  rw [writeBy_accepted regAt_rfmCtl hready (writeHook_rfmCtl ..) rfl, recordAcc_rfm, rfmCtlForced_rfm, rfmCtlSent, if_pos hword]
  refine ⟨recordAcc_res .., rfl, ?_, ?_⟩
  · rw [hcleared]
    rfl
  · rw [recordAcc_rd _ _ _ _ _ _ who.isLt _ _ _ (by decide), (rfmCtlForced_placeKept _ _ _ _ (by decide) (by decide)).rd, hkept.rd,
      hstored]

/-- RFM_CNT_CLR zeroes the counters of every channel. -/
theorem rfmCntClr_spec {s : State} (who : Fin 18) {v : Nat} (h : CanWrite s who.val .RFM_CTL 0 0 (withBits v [(F.RFM_CTL_CNT_CLR, 1)]) [F.RFM_CTL_CNT_CLR]) :
    lastResult (writeBy s who.val .RFM_CTL 0 0 (withBits v [(F.RFM_CTL_CNT_CLR, 1)])) who.val = Code.ok.num ∧
    ∀ ch, ch < 32 → ∀ f ∈ rfmCounters, (writeBy s who.val .RFM_CTL 0 0 (withBits v [(F.RFM_CTL_CNT_CLR, 1)])).rd f ch = 0 := by
  obtain ⟨hready, hmay⟩ := h
  have hclr : F.RFM_CTL_CNT_CLR.hit (writtenWord s who.val .RFM_CTL 0 (withBits v [(F.RFM_CTL_CNT_CLR, 1)])) = true := by
    rw [Fld.hit, writtenWord_set (by decide) (hmay _ (by simp))]
    rfl
  have hreset : ∀ f ∈ rfmCounters, f.rstAt = [] ∧ f.rst = 0 := by decide
  have hplaces : ∀ f ∈ rfmCounters, f.s1 = 128 ∧ F.RFM_REF_MAX_DEBT.key ≤ f.key + 128 ∧ f.key + 128 * 32 < 2 ^ 28 ∧
      ∀ n < 16, ∀ ch < 32, F.RFM_DIE_DBL.at n 0 ≠ f.at ch 0 ∧ F.RFM_DIE_RATE_CHG.at n 0 ≠ f.at ch 0 := by decide
  rw [writeBy_accepted regAt_rfmCtl hready (writeHook_rfmCtl ..) rfl]
  refine ⟨recordAcc_res .., fun ch hch f hf => ?_⟩
  obtain ⟨hstride, hlow, hhigh, hdies⟩ := hplaces f hf
  have hmap : F.RFM_DBL_DBL_MAP.at 0 0 ≠ f.at ch 0 := by
    simp only [Fld.at, F.RFM_DBL_DBL_MAP, F.RFM_REF_MAX_DEBT] at hlow ⊢
    omega
  have hrecord : lasPlace (f.at ch 0) = false := by
    simp only [F.RFM_REF_MAX_DEBT] at hlow
    exact not_lasPlace (by simp only [Fld.at]; omega) (by simp only [Fld.at, hstride]; omega)
  rw [recordAcc_rd _ _ _ _ _ _ who.isLt _ _ _ hrecord, (rfmCtlForced_placeKept _ _ _ _ hmap fun n hn => hdies n hn ch hch).rd, rfmCtlCleared, if_pos hclr]
  exact State.clearFields_same _ hf (reset_of_plain (hreset f hf) ch) hch

/-! ## DIP_INJ, DIP_LOG_POP, DIP_CTL (R234, R236, R238) -/

theorem regAt_dipInj : regAt (regOffset .DIP_INJ 0 0) = some (.DIP_INJ, 0, 0) := by decide

theorem regAt_dipLogPop : regAt (regOffset .DIP_LOG_POP 0 0) = some (.DIP_LOG_POP, 0, 0) := by decide

theorem regAt_dipCtl : regAt (regOffset .DIP_CTL 0 0) = some (.DIP_CTL, 0, 0) := by decide

/-- An injection armed as a word of DIP_INJ names it. -/
def injArmed (t : State) (m : Nat) : State :=
  { t.wr F.DIP_INJ_INJ_ARMED 1 with
    dip.inj := some (F.DIP_INJ_INJ_CH.val m, F.DIP_INJ_INJ_POS1.val m, F.DIP_INJ_INJ_POS2.val m, F.DIP_INJ_INJ_BEAT.val m) }

theorem injArmed_on (t : State) (m : Nat) : (injArmed t m).on F.DIP_INJ_INJ_ARMED = true := by
  have hset : (t.wr F.DIP_INJ_INJ_ARMED 1).rd F.DIP_INJ_INJ_ARMED = 1 := State.rd_wr_same ..
  exact beq_iff_eq.2 hset

theorem writeHook_injArm {s : State} {who v : Nat} (harm : F.DIP_INJ_INJ_ARM.hit (writtenWord s who .DIP_INJ 0 v) = true) :
    writeHook s who .DIP_INJ 0 0 v = if s.on F.DIP_INJ_INJ_ARMED then noH s .state
      else okH (injArmed (storeFields s .DIP_INJ 0 0 v (mayField (letters s .DIP_INJ who 0 true))) (writtenWord s who .DIP_INJ 0 v)) := by
  show hookDip s _ .DIP_INJ (writtenWord s who .DIP_INJ 0 v) = _
  exact if_neg (by simp [harm])

/-- INJ_ARM arms the injection that the word names, unless one is armed. -/
theorem injArm_spec {s : State} (who : Fin 18) {v : Nat} (h : CanWrite s who.val .DIP_INJ 0 0 (withBits v [(F.DIP_INJ_INJ_ARM, 1)])
      [F.DIP_INJ_INJ_ARM, F.DIP_INJ_INJ_CH, F.DIP_INJ_INJ_POS1, F.DIP_INJ_INJ_POS2, F.DIP_INJ_INJ_BEAT]) :
    (s.on F.DIP_INJ_INJ_ARMED = false →
      let t := writeBy s who.val .DIP_INJ 0 0 (withBits v [(F.DIP_INJ_INJ_ARM, 1)])
      lastResult t who.val = Code.ok.num ∧ t.on F.DIP_INJ_INJ_ARMED = true ∧
      t.dip.inj = some (F.DIP_INJ_INJ_CH.val v, F.DIP_INJ_INJ_POS1.val v, F.DIP_INJ_INJ_POS2.val v, F.DIP_INJ_INJ_BEAT.val v)) ∧
    (s.on F.DIP_INJ_INJ_ARMED = true → writeBy s who.val .DIP_INJ 0 0 (withBits v [(F.DIP_INJ_INJ_ARM, 1)]) =
      recordAcc s who.val true (regOffset .DIP_INJ 0 0) .state 0) := by
  obtain ⟨hready, hmay⟩ := h
  have harm : F.DIP_INJ_INJ_ARM.hit (writtenWord s who.val .DIP_INJ 0 (withBits v [(F.DIP_INJ_INJ_ARM, 1)])) = true := by
    rw [Fld.hit, writtenWord_set (by decide) (hmay _ (by simp))]
    rfl
  have hapart : ∀ f ∈ [F.DIP_INJ_INJ_CH, F.DIP_INJ_INJ_POS1, F.DIP_INJ_INJ_POS2, F.DIP_INJ_INJ_BEAT],
      f ∈ RegId.DIP_INJ.info.flds ∧ f.lo + f.w ≤ F.DIP_INJ_INJ_ARM.lo := by decide
  have hkept (f : Fld) (hf : f ∈ [F.DIP_INJ_INJ_CH, F.DIP_INJ_INJ_POS1, F.DIP_INJ_INJ_POS2, F.DIP_INJ_INJ_BEAT]) :
      f.val (writtenWord s who.val .DIP_INJ 0 (withBits v [(F.DIP_INJ_INJ_ARM, 1)])) = f.val v := by
    obtain ⟨hmem, hbelow⟩ := hapart f hf
    exact writtenWord_kept hmem (hmay f (List.mem_cons_of_mem _ hf)) (.inl hbelow)
  refine ⟨fun hfree => ?_, fun harmed => ?_⟩
  · have hhook := writeHook_injArm harm
    rw [hfree, if_neg Bool.false_ne_true] at hhook
    intro t
    have heq : t = recordAcc _ _ _ _ _ _ := writeBy_accepted regAt_dipInj hready hhook rfl
    rw [heq]
    refine ⟨recordAcc_res .., ?_, ?_⟩
    · rw [State.on, recordAcc_rd _ _ _ _ _ _ who.isLt _ _ _ (by decide)]
      exact injArmed_on ..
    · rw [recordAcc_dip, ← hkept F.DIP_INJ_INJ_CH (by simp), ← hkept F.DIP_INJ_INJ_POS1 (by simp), ← hkept F.DIP_INJ_INJ_POS2 (by simp),
        ← hkept F.DIP_INJ_INJ_BEAT (by simp)]
      rfl
  · exact writeBy_refused regAt_dipInj hready ((writeHook_injArm harm).trans (if_pos harmed)) (.inl rfl) rfl

/-- The integrity log without its oldest record. -/
def logPopped (t : State) : State := { t with dip.log := t.dip.log.drop 1 }

theorem writeHook_pop {s : State} {who v : Nat} (hpop : F.DIP_LOG_POP_POP.hit (writtenWord s who .DIP_LOG_POP 0 v) = true) :
    writeHook s who .DIP_LOG_POP 0 0 v = okH (logPopped (storeFields s .DIP_LOG_POP 0 0 v (mayField (letters s .DIP_LOG_POP who 0 true)))) :=
  congrArg okH (if_pos hpop)

/-- POP removes the oldest record of the log. -/
theorem pop_spec {s : State} (who : Fin 18) {v : Nat} (h : CanWrite s who.val .DIP_LOG_POP 0 0 (withBits v [(F.DIP_LOG_POP_POP, 1)]) [F.DIP_LOG_POP_POP]) :
    lastResult (writeBy s who.val .DIP_LOG_POP 0 0 (withBits v [(F.DIP_LOG_POP_POP, 1)])) who.val = Code.ok.num ∧
    (writeBy s who.val .DIP_LOG_POP 0 0 (withBits v [(F.DIP_LOG_POP_POP, 1)])).dip = { s.dip with log := s.dip.log.drop 1 } := by
  obtain ⟨hready, hmay⟩ := h
  have hpop : F.DIP_LOG_POP_POP.hit (writtenWord s who.val .DIP_LOG_POP 0 (withBits v [(F.DIP_LOG_POP_POP, 1)])) = true := by
    rw [Fld.hit, writtenWord_set (by decide) (hmay _ (by simp))]
    rfl
  obtain ⟨regs, hstored⟩ := storeFields_regsOnly s .DIP_LOG_POP 0 0 (withBits v [(F.DIP_LOG_POP_POP, 1)]) (mayField (letters s .DIP_LOG_POP who.val 0 true))
  rw [writeBy_accepted regAt_dipLogPop hready (writeHook_pop hpop) rfl, recordAcc_dip, hstored]
  exact ⟨recordAcc_res .., rfl⟩

/-- The counters of DIP for the stack, and for each channel. -/
def dipStackCounters : List Fld := [F.DIP_SCRUB_FIX_SCRUB_FIX, F.DIP_ARR_ARR_CE, F.DIP_ARR_ARR_UE]

/-- See `dipStackCounters`. -/
def dipChannelCounters : List Fld := [F.DIP_CE_CE_CNT, F.DIP_UE_UE_CNT, F.DIP_UE_POISON_RD, F.DIP_POS_ROW_TRIG]

theorem dipClear_rd (s : State) : (∀ f ∈ dipStackCounters, (dipClear s).rd f = 0) ∧ ∀ ch, ch < 32 → ∀ f ∈ dipChannelCounters, (dipClear s).rd f ch = 0 := by
  have hreset : ∀ f ∈ dipStackCounters ++ dipChannelCounters, f.rstAt = [] ∧ f.rst = 0 := by decide
  refine ⟨fun f hf => ?_, fun ch hch f hf => ?_⟩
  · have hzero := reset_of_plain (hreset f (List.mem_append_left _ hf)) 0
    exact State.clearFields_of_zero dipChannelCounters 32 hzero (State.clearFields_same (fs := dipStackCounters) s hf hzero Nat.zero_lt_one)
  · exact State.clearFields_same (fs := dipChannelCounters) _ hf (reset_of_plain (hreset f (List.mem_append_right _ hf)) ch) hch

/-- DIP_CNT_CLR zeroes the counters of DIP. -/
theorem dipCntClr_spec {s : State} (who : Fin 18) {v : Nat} (h : CanWrite s who.val .DIP_CTL 0 0 (withBits v [(F.DIP_CTL_CNT_CLR, 1)]) [F.DIP_CTL_CNT_CLR]) :
    let t := writeBy s who.val .DIP_CTL 0 0 (withBits v [(F.DIP_CTL_CNT_CLR, 1)])
    lastResult t who.val = Code.ok.num ∧ (∀ f ∈ dipStackCounters, t.rd f = 0) ∧ ∀ ch, ch < 32 → ∀ f ∈ dipChannelCounters, t.rd f ch = 0 := by
  obtain ⟨hready, hmay⟩ := h
  have hclr : F.DIP_CTL_CNT_CLR.hit (writtenWord s who.val .DIP_CTL 0 (withBits v [(F.DIP_CTL_CNT_CLR, 1)])) = true := by
    rw [Fld.hit, writtenWord_set (by decide) (hmay _ (by simp))]
    rfl
  have hhook : writeHook s who.val .DIP_CTL 0 0 (withBits v [(F.DIP_CTL_CNT_CLR, 1)]) = okH _ := congrArg okH (if_pos hclr)
  have hplaces : ∀ f ∈ dipStackCounters ++ dipChannelCounters, 1600 ≤ f.key ∧ f.key + f.s1 * 32 < 2 ^ 28 := by decide
  have hrecord (f : Fld) (hf : f ∈ dipStackCounters ++ dipChannelCounters) (ch : Nat) (hch : ch < 32) : lasPlace (f.at ch 0) = false :=
    slice_not_lasPlace ⟨ch, hch⟩ (hplaces f hf)
  obtain ⟨hstack, hchannels⟩ := dipClear_rd
    (storeFields s .DIP_CTL 0 0 (withBits v [(F.DIP_CTL_CNT_CLR, 1)]) (mayField (letters s .DIP_CTL who.val 0 true)))
  intro t
  have heq : t = recordAcc _ _ _ _ _ _ := writeBy_accepted regAt_dipCtl hready hhook rfl
  rw [heq]
  refine ⟨recordAcc_res .., fun f hf => ?_, fun ch hch f hf => ?_⟩
  · rw [recordAcc_rd _ _ _ _ _ _ who.isLt _ _ _ (hrecord f (List.mem_append_left _ hf) 0 (by decide))]
    exact hstack f hf
  · rw [recordAcc_rd _ _ _ _ _ _ who.isLt _ _ _ (hrecord f (List.mem_append_right _ hf) ch hch)]
    exact hchannels ch hch f hf

/-! ## The commands -/

section
variable (who : Fin 18) (ch : Fin 32) (v : Word) (s : State)

theorem exec_chRst : exec (.chRst who ch v) s = .next (writeBy s who.val .DMC_CTL ch.val 0 (withBits v.toNat [(F.DMC_CTL_CH_RST, 1)])) := rfl

theorem exec_trainGo :
    exec (.trainGo who ch v) s = .next (writeBy s who.val .DMC_TRAIN_CTL ch.val 0 (withBits v.toNat [(F.DMC_TRAIN_CTL_TRAIN_GO, 1)])) := rfl

theorem exec_dmcCntClr : exec (.dmcCntClr who ch v) s = .next (writeBy s who.val .DMC_CTL ch.val 0 (withBits v.toNat [(F.DMC_CTL_CNT_CLR, 1)])) := rfl

theorem exec_stThrWrite : exec (.stThrWrite who v) s = .next (writeBy s who.val .RFM_CTL 0 0 v.toNat) := rfl

theorem exec_rfmCntClr : exec (.rfmCntClr who v) s = .next (writeBy s who.val .RFM_CTL 0 0 (withBits v.toNat [(F.RFM_CTL_CNT_CLR, 1)])) := rfl

theorem exec_injArm : exec (.injArm who v) s = .next (writeBy s who.val .DIP_INJ 0 0 (withBits v.toNat [(F.DIP_INJ_INJ_ARM, 1)])) := rfl

theorem exec_pop : exec (.pop who v) s = .next (writeBy s who.val .DIP_LOG_POP 0 0 (withBits v.toNat [(F.DIP_LOG_POP_POP, 1)])) := rfl

theorem exec_dipCntClr : exec (.dipCntClr who v) s = .next (writeBy s who.val .DIP_CTL 0 0 (withBits v.toNat [(F.DIP_CTL_CNT_CLR, 1)])) := rfl

end

/-- Settles O16: each command is the write of its register, by what the register's own action makes of its word. -/
theorem memoryUnitWrites : Obligations.MemoryUnitWrites := by
  unfold Obligations.MemoryUnitWrites
  refine ⟨fun s who ch v hcan => ⟨fun hrun hpow => ⟨_, exec_chRst who ch v s, chRst_powerFail who ch hcan hrun hpow⟩,
      fun hrun hpow => ⟨_, exec_chRst who ch v s, chRst_run who ch hcan hrun hpow⟩,
      fun hstate => by rw [exec_chRst, chRst_refused who ch hcan hstate]⟩,
    fun s who ch v hcan hwe hrun => ⟨_, exec_trainGo who ch v s, trainGo_spec who ch hcan hwe hrun⟩,
    fun s who ch v hcan hreset => ⟨_, exec_dmcCntClr who ch v s, dmcCntClr_spec who ch hcan hreset⟩,
    fun s who v hcan hnew => ⟨_, exec_stThrWrite who v s, stThrWrite_spec who hcan hnew⟩,
    fun s who v hcan => ⟨_, exec_rfmCntClr who v s, rfmCntClr_spec who hcan⟩,
    fun s who v hcan => ?_,
    fun s who v hcan => ⟨_, exec_pop who v s, pop_spec who hcan⟩,
    fun s who v hcan => ⟨_, exec_dipCntClr who v s, dipCntClr_spec who hcan⟩⟩
  obtain ⟨hfree, harmed⟩ := injArm_spec who hcan
  exact ⟨fun hno => ⟨_, exec_injArm who v s, hfree hno⟩, fun hyes => by rw [exec_injArm, harmed hyes]⟩

end Sys2Proof.Machine


/-! SUPPORT. What DRAM, the slices, error reports and the parts of a DCK cycle leave of the channels' controllers. -/

namespace Sys2Proof.Machine

/-! ## DRAM, the slice and error reports leave the controllers -/

theorem wrote_beside (s : State) (id sec : Nat) : Beside s (wrote s id sec) := by
  unfold wrote
  split
  · exact .refl s
  · exact ⟨rfl, rfl, rfl, rfl⟩

theorem gotSector_beside (s : State) (id sec : Nat) (x : Sector) (c : Code) (ch : Nat) : Beside s (gotSector s id sec x c ch) := by
  unfold gotSector
  split
  · exact .refl s
  · refine .ite (.refl s) ?_
    extract_lets code u r
    have hu : Beside s u := countPoison_beside ..
    exact .ite (hu.trans (markPerformed_beside ..)) (hu.trans ⟨rfl, rfl, rfl, rfl⟩)

theorem dramStore_beside (s : State) (ch ps : Nat) (x : Sector) : Beside s (s.dramStore ch ps x) := by
  unfold State.dramStore inject
  split
  · exact ⟨rfl, rfl, rfl, rfl⟩
  · exact .ite ⟨rfl, rfl, rfl, rfl⟩ ⟨rfl, rfl, rfl, rfl⟩

theorem dramWrite_beside (s : State) (ch c : Nat) (x : Sector) : Beside s (s.dramWrite ch c x) :=
  .ite ((Beside.refl s).inc ..) ((dramStore_beside ..).inc ..)

theorem cleanHalf_beside (s : State) (sl set w h next : Nat) : Beside s (cleanHalf s sl set w h next) :=
  .ite (((dramWrite_beside ..).setLine ..).inc ..) (.ite ((Beside.refl s).setLine ..) (.refl s))

theorem leaveList_beside (s : State) (ch c : Nat) : Beside s (leaveList s ch c) := by
  unfold leaveList
  split
  · exact .ite ((Beside.refl s).setLine ..) (.refl s)
  · exact .refl s

theorem dropFills_beside (s : State) (sl : Nat) : Beside s (dropFills s sl) := .foldl (fun t _ => (Beside.refl t).setLine ..) s _

theorem dipLog_beside (s : State) (l : List Nat) : Beside s (dipLog s l) := .ite ⟨rfl, rfl, rfl, rfl⟩ ⟨rfl, rfl, rfl, rfl⟩

theorem dipTrigger_beside (s : State) (w : Where) (b : Beat) (trig : Nat) : Beside s (dipTrigger s w b trig) := (dipLog_beside ..).raise ..

theorem ceRate_beside (s : State) (w : Where) (b : Beat) : Beside s (ceRate s w b) := by
  unfold ceRate
  extract_lets old fresh n t0 done hit dip u
  exact Beside.trans (t := u) ⟨rfl, rfl, rfl, rfl⟩ (.ite (dipTrigger_beside ..) (.refl u))

theorem fastStart_beside (s : State) (ch n : Nat) : Beside s (fastStart s ch n) :=
  .ite (.refl s) (.ite (.ite ⟨rfl, rfl, rfl, rfl⟩ (.refl s)) ⟨rfl, rfl, rfl, rfl⟩)

theorem posHit_beside (s : State) (w : Where) (b : Beat) (p : Nat) : Beside s (posHit s w b p) := by
  unfold posHit
  extract_lets n dip u dip' v
  have hu : Beside s u := ⟨rfl, rfl, rfl, rfl⟩
  have hv : Beside s v := hu.trans ⟨rfl, rfl, rfl, rfl⟩
  exact .ite ((hv.trans (dipTrigger_beside ..)).trans (fastStart_beside ..)) hu

theorem handOver_beside (s : State) (ch bank prow : Nat) : Beside s (handOver s ch bank prow).1 := by
  have hqueue (r : Nat) : Beside s (rprQueue s ch bank r).2 := by
    unfold rprQueue
    split
    · exact .refl s
    · split
      · exact .refl s
      · split
        · exact .refl s
        · exact ⟨rfl, rfl, rfl, rfl⟩
  unfold handOver
  split
  · exact .refl s
  · split
    · exact .refl s
    · exact hqueue _

theorem trackRow_beside (s : State) (w : Where) (b : Beat) : Beside s (trackRow s w b) := by
  unfold trackRow
  extract_lets ps bank es loc known m rest put least
  have hput (l : List (Nat × Nat × Nat)) : Beside s (put s l) := ⟨rfl, rfl, rfl, rfl⟩
  refine .ite (.refl s) (.ite ?_ ?_)
  · have hover : Beside s (handOver (put s rest) w.ch bank w.loc).1 := (hput rest).trans (handOver_beside ..)
    exact .ite ((hover.inc ..).trans (dipTrigger_beside ..)) hover
  · clear_value m known
    cases known with
    | some e => exact hput _
    | none => exact .ite (hput _) (hput _)

theorem reportBeat_beside (s : State) (w : Where) (b : Beat) : Beside s (reportBeat s w b) := by
  unfold reportBeat
  split
  case h_1 => exact .refl s
  case h_2 =>
    have hlog : Beside s (dipLog (s.inc F.DIP_UE_UE_CNT 1 w.ch) (errRecord (s.inc F.DIP_UE_UE_CNT 1 w.ch) w b 0)) :=
      ((Beside.refl s).inc ..).trans (dipLog_beside ..)
    exact .ite hlog (hlog.raise ..)
  case h_3 ps =>
    extract_lets u due logged dip v x y
    have hu : Beside s u := (Beside.refl s).inc ..
    have hlogged : Beside s logged := hu.trans (dipLog_beside ..)
    have hstamp : Beside logged { logged with dip.lastCe := dip.lastCe } := ⟨rfl, rfl, rfl, rfl⟩
    have hv : Beside s v := .ite (hlogged.trans hstamp) hu
    have hx : Beside s x := hv.trans (ceRate_beside ..)
    have hy : Beside s y := hx.trans (.ite (posHit_beside ..) (.refl x))
    exact .ite hv (.ite hx (hy.trans (trackRow_beside ..)))

theorem readDram_beside (s : State) (ch ps req : Nat) (dom : Option Nat) (err : Nat → Nat) : Beside s (readDram s ch ps req dom err).1 :=
  .foldl (fun t b => reportBeat_beside t _ b) s _

/-! ## A read burst (R219, Table 7.4) -/

/-- What the read data of a burst are: nothing of a dead channel, else the sector as decoded. -/
def returnedSector (s : State) (ch : Nat) (err : List Nat) (e : DEnt) : State × Sector × Code :=
  if deadChannel s ch then (s, poisoned0, .uncorrectable)
  else let (u, x, c, _) := readDram s ch (sectorAt s ch e.c) (requester s e).1 (requester s e).2 fun k => err.getD k 0
    (u, x, c)

theorem returnedSector_beside (s : State) (ch : Nat) (err : List Nat) (e : DEnt) : Beside s (returnedSector s ch err e).1 := by
  unfold returnedSector
  split
  · exact .refl s
  · exact readDram_beside ..

/-- What a burst gives to the reads that wait for it, and to its fill. -/
def burstGiven (ch : Nat) (e : DEnt) (x : Sector) (c : Code) (s : State) : State :=
  let t := gotSector s e.req e.sec x c ch
  if !e.fill then settle t else
  let d := t.dmcOf ch
  let waits := d.fillWait.partition fun w => w.c == e.c
  let u := t.setDmc ch { d with fillWait := waits.2, fills := d.fills ++ [(e.c, if c = .uncorrectable then none else some x, c)] }
  settle (waits.1.foldl (fun v w => gotSector v w.req w.sec x c ch) u)

theorem burstGiven_fly (ch : Nat) (e : DEnt) (x : Sector) (c : Code) (s : State) : DmcKept Dmc.fly s (burstGiven ch e x c s) := by
  unfold burstGiven
  extract_lets t d waits u
  have ht : DmcKept Dmc.fly s t := (gotSector_beside ..).dmcKept
  have hu : DmcKept Dmc.fly s u := ht.setDmc rfl
  have hwaits : Beside u (waits.1.foldl (fun v w => gotSector v w.req w.sec x c ch) u) := .foldl (fun v (w : DEnt) => gotSector_beside v w.req w.sec x c ch) u _
  exact .ite (ht.beside (settle_beside t)) (hu.beside (hwaits.trans (settle_beside _)))

/-- The oldest burst of a channel has left the flight. -/
def flightLeft (s : State) (ch : Nat) (rest : List (DEnt × Nat)) : State := s.setDmc ch { s.dmcOf ch with fly := rest }

theorem readReturn_eq {s : State} {ch : Nat} {e : DEnt} {c : Nat} {rest : List (DEnt × Nat)} (err : List Nat) (hfly : (s.dmcOf ch).fly = (e, c) :: rest) :
    readReturn ch err s = if (s.dmcOf ch).cyc < c + 22 then s
      else burstGiven ch e (returnedSector (flightLeft s ch rest) ch err e).2.1 (returnedSector (flightLeft s ch rest) ch err e).2.2
        (returnedSector (flightLeft s ch rest) ch err e).1 := by
  unfold readReturn
  extract_lets d
  rw [show d.fly = (e, c) :: rest from hfly]
  rfl

/-- A burst that is due leaves the flight. -/
theorem readReturn_due {s : State} {ch : Nat} {e : DEnt} {c : Nat} {rest : List (DEnt × Nat)} (err : List Nat) (hfly : (s.dmcOf ch).fly = (e, c) :: rest)
    (hdue : c + 22 ≤ (s.dmcOf ch).cyc) : ((readReturn ch err s).dmcOf ch).fly = rest := by
  rw [readReturn_eq err hfly, if_neg (Nat.not_lt.2 hdue), (burstGiven_fly ch e _ _ _).dmcOf, (returnedSector_beside _ ch err e).dmcOf, flightLeft,
    State.setDmc_dmcOf_same]

/-! ## The parts of a cycle leave its number -/

/-- Every channel's count of cycles stays. -/
abbrev CycKept (s t : State) : Prop := DmcKept Dmc.cyc s t

theorem startWatch_cyc (s : State) (d : Dmc) : (startWatch s d).cyc = d.cyc := by
  unfold startWatch
  split <;> rfl

theorem applyMapSw_beside (s : State) (ch : Nat) (m : MapSw) : Beside s (applyMapSw s ch m) := by
  have hmap : Beside s (setMap s ch m.pos m.line) := ⟨rfl, rfl, rfl, rfl⟩
  have hset (t : State) (x : TsvCh) : Beside t (t.setTsv ch x) := ⟨rfl, rfl, rfl, rfl⟩
  unfold applyMapSw
  extract_lets u v
  have hv : Beside s v := by
    unfold v
    split
    · exact (((hmap.wr ..).inc ..).wr ..).wr ..
    · exact hmap
  clear_value v
  split
  · exact (hv.trans (hset ..)).wr ..
  · exact hv

theorem mapSwEnd_beside (s : State) (ch : Nat) : Beside s (mapSwEnd s ch) := by
  have hset (t : State) (x : TsvCh) : Beside t (t.setTsv ch x) := ⟨rfl, rfl, rfl, rfl⟩
  unfold mapSwEnd
  extract_lets t
  clear_value t
  split
  · exact .refl s
  · split
    · exact .refl s
    · refine .ite (.refl s) ?_
      extract_lets u
      have hu : Beside s u := (hset ..).trans (applyMapSw_beside ..)
      clear_value u
      split
      · exact (hu.trans (hset ..)).trans (.ite (fastStart_beside ..) (.refl _))
      · exact hu

theorem scrubAdvance_cyc (s : State) (ch : Nat) : CycKept s (scrubAdvance s ch) := by
  unfold scrubAdvance
  generalize scrubNext (s.rd F.DIP_SCRUB_SCRUB_BANK ch) (s.rd F.DIP_SCRUB_SCRUB_ROW ch) = n
  obtain ⟨nb, nr⟩ := n
  dsimp -zeta only
  generalize hrow : (s.wr F.DIP_SCRUB_SCRUB_BANK (nb % 128) ch).wr F.DIP_SCRUB_SCRUB_ROW nr ch = t
  have ht : CycKept s t := hrow ▸ .of_dmc rfl
  have hnone : CycKept s (t.setDmc ch { t.dmcOf ch with scrub := none }) := ht.setDmc rfl
  exact .ite hnone (.ite (hnone.trans (.of_dmc rfl)) (hnone.trans (.of_dmc rfl)))

theorem askBursts_cyc (s : State) (ch : Nat) (own : Engine) (bank row : Nat) (wr : Bool) (n : Nat) : CycKept s (askBursts s ch own bank row wr n) :=
  (DmcKept.refl s).setDmc (startWatch_cyc s (s.dmcOf ch))

theorem scrubBegin_cyc (s : State) (ch : Nat) : CycKept s (scrubBegin s ch) :=
  .ite (.refl s) (.ite (scrubAdvance_cyc ..) ((askBursts_cyc ..).setDmc rfl))

theorem scrubStepOver_cyc (s : State) (ch : Nat) : CycKept s (scrubStepOver s ch) := .ite (scrubAdvance_cyc ..) (.refl s)

theorem unitTake_cyc (s : State) (ch : Nat) : CycKept s (unitTake s ch) := by
  unfold unitTake
  extract_lets d
  split
  · exact .refl s
  · refine .ite (.refl s) ?_
    extract_lets t
    have ht : CycKept s t := .of_dmc rfl
    exact .ite (ht.trans (scrubStepOver_cyc ..)) (.ite (.refl s) (ht.setDmc (startWatch_cyc s (s.dmcOf ch))))

theorem foldWrites_cyc (s : State) (u : Nat) : CycKept s (foldWrites s u) :=
  (askBursts_cyc ..).beside (u := foldWrites s u) ⟨rfl, rfl, rfl, rfl⟩

theorem foldBegin_cyc (s : State) : CycKept s (foldBegin s) := by
  unfold foldBegin
  extract_lets f u
  generalize (if s.tsv.foldWin.1 + 8192 ≤ s.now then (s.now, 0) else s.tsv.foldWin) = w
  obtain ⟨w, n⟩ := w
  refine .ite (.refl s) ?_
  extract_lets t
  have ht : CycKept s t := .of_dmc rfl
  exact .ite (ht.trans (foldWrites_cyc ..)) (ht.trans (askBursts_cyc ..))

theorem foldWork_cyc (s : State) (ch : Nat) : CycKept s (foldWork s ch) := by
  have hadvance : CycKept s (foldAdvance s) := .ite (foldWrites_cyc ..) (.refl s)
  exact .ite (hadvance.trans (foldBegin_cyc _)) (.refl s)

theorem pruneClean_cyc (s : State) (ch : Nat) : CycKept s (pruneClean s ch) := by
  unfold pruneClean
  extract_lets gone
  refine .foldl (fun t e => ?_) s _
  extract_lets d u v
  have hu : CycKept t u := (DmcKept.refl t).setDmc rfl
  have hv : CycKept t v := by
    unfold v
    split
    · exact .ite (hu.beside (cleanHalf_beside ..)) hu
    · exact hu
  exact hv.beside (wrote_beside ..)

theorem supersede_cyc (s : State) (ch : Nat) : CycKept s (supersede s ch) := by
  refine .foldl (fun t e => ?_) s _
  have hleft : CycKept t (t.setDmc ch { t.dmcOf ch with wq := (t.dmcOf ch).wq.erase e }) := (DmcKept.refl t).setDmc rfl
  exact (hleft.beside (wrote_beside ..)).inc ..

theorem walkWaits_cyc (s : State) (ch : Nat) : CycKept s (walkWaits s ch) := by
  unfold walkWaits
  extract_lets d
  split
  · exact .ite ((DmcKept.refl s).setDmc rfl) (.refl s)
  · exact (DmcKept.refl s).setDmc rfl

theorem upkeep_cyc (s : State) (ch : Nat) : CycKept s (upkeep s ch) := by
  have hprune (t : State) : CycKept t (prunePre t ch) := (DmcKept.refl t).setDmc rfl
  have hbegun := (mapSwEnd_beside s ch).dmcKept.trans (scrubBegin_cyc (mapSwEnd s ch) ch)
  have hfold := (hbegun.trans (unitTake_cyc _ ch)).trans (foldWork_cyc _ ch)
  exact (((hfold.trans (hprune _)).trans (pruneClean_cyc _ ch)).trans (supersede_cyc _ ch)).trans (walkWaits_cyc _ ch)

end Sys2Proof.Machine


/-! SUPPORT. One DCK cycle of a channel (R177, R179, R185): each part of it leaves the number of the cycle. -/

namespace Sys2Proof.Machine

/-! ## The mode -/

/-- What the choice of the mode may change in a controller (R185). -/
def ModeChanged (d d' : Dmc) : Prop := ∃ force reads burst oppo, d' = { d with force := force, reads := reads, burst := burst, oppo := oppo }

/-- What the choice of the mode may change in a state: three fields of the channel, and its controller as `ModeChanged` says. -/
structure ModeChosen (ch : Nat) (s t : State) : Prop where
  others : ∃ regs dmc, t = { s with regs := regs, dmc := dmc }
  places : ∀ k, (∀ f ∈ [F.DMC_STAT_MODE, F.DMC_STAT_FORCED, F.DMC_DRAIN_CNT_DRAIN_CNT], f.at ch 0 ≠ k) → PlaceKept k s t
  here : ModeChanged (s.dmcOf ch) (t.dmcOf ch)
  elsewhere : ∀ c, c ≠ ch → t.dmcOf c = s.dmcOf c

theorem ModeChanged.trans {a b c : Dmc} (h : ModeChanged a b) (k : ModeChanged b c) : ModeChanged a c := by
  obtain ⟨f, r, b, o, rfl⟩ := h
  obtain ⟨f', r', b', o', rfl⟩ := k
  exact ⟨f', r', b', o', rfl⟩

theorem ModeChosen.trans {ch : Nat} {s t u : State} (h : ModeChosen ch s t) (k : ModeChosen ch t u) : ModeChosen ch s u := by
  obtain ⟨⟨r, d, rfl⟩, hp, hhere, hother⟩ := h
  obtain ⟨⟨r', d', rfl⟩, kp, khere, kother⟩ := k
  exact ⟨⟨r', d', rfl⟩, fun k hk => (hp k hk).trans (kp k hk), hhere.trans khere, fun c hc => (kother c hc).trans (hother c hc)⟩

theorem ModeChosen.ite {ch : Nat} {s a b : State} {c : Prop} [Decidable c] (ha : ModeChosen ch s a) (hb : ModeChosen ch s b) :
    ModeChosen ch s (if c then a else b) := by
  split
  · exact ha
  · exact hb

theorem ModeChosen.wr (s : State) (ch v : Nat) {f : Fld} (hf : f ∈ [F.DMC_STAT_MODE, F.DMC_STAT_FORCED, F.DMC_DRAIN_CNT_DRAIN_CNT]) :
    ModeChosen ch s (s.wr f v ch) :=
  ⟨⟨_, s.dmc, rfl⟩, fun _ hk => (PlaceKept.refl s).wr v (hk f hf), ⟨_, _, _, _, rfl⟩, fun _ _ => rfl⟩

theorem ModeChosen.setDmc (s : State) {ch : Nat} {d : Dmc} (h : ModeChanged (s.dmcOf ch) d) : ModeChosen ch s (s.setDmc ch d) :=
  ⟨⟨s.regs, _, rfl⟩, fun _ _ => .of_eq rfl, by rw [State.setDmc_dmcOf_same]; exact h, fun c hc => State.setDmc_dmcOf_ne _ _ _ _ hc⟩

theorem updateMode_chosen (s : State) (ch : Nat) : ModeChosen ch s (updateMode s ch) := by
  unfold updateMode
  extract_lets d0 used f d readQ urgent cap toRead toDrain u
  have hd : ModeChanged (s.dmcOf ch) d := by
    unfold d
    split
    · exact ⟨false, d0.reads, d0.burst, d0.oppo, rfl⟩
    · exact ⟨d0.force, d0.reads, d0.burst, d0.oppo, rfl⟩
  have hset := ModeChosen.setDmc s hd
  have hu : ModeChosen ch s u := hset.trans (.wr _ ch _ (by simp))
  have hsee : u.dmcOf ch = d := State.setDmc_dmcOf_same ..
  have hread : ModeChosen ch s (toRead u) := by
    refine (hu.trans (.wr u ch 0 (by simp))).trans (.setDmc _ ?_)
    rw [State.wr_dmcOf, hsee]
    exact ⟨d.force, 0, d.burst, false, rfl⟩
  have hdrain (oppo : Bool) : ModeChosen ch s (toDrain u oppo) := by
    refine (hu.trans (.wr u ch 1 (by simp))).trans (.setDmc _ ?_)
    rw [State.wr_dmcOf, hsee]
    exact ⟨d.force, d.reads, 0, oppo, rfl⟩
  refine .ite (.ite hu (.ite hread (.ite hread (.ite hread hu)))) (.ite (hdrain false) (.ite ?_ (.ite (hdrain true) hu)))
  exact (hdrain false).trans (.wr _ ch _ (by simp))

theorem ModeChosen.cyc {ch : Nat} {s t : State} (h : ModeChosen ch s t) : CycKept s t := by
  refine ⟨fun c => ?_⟩
  by_cases hc : c = ch
  · subst hc
    obtain ⟨_, _, _, _, heq⟩ := h.here
    rw [heq]
  · rw [h.elsewhere c hc]

/-! ## Row commands -/

/-- A controller whose open bank `b` has closed its row (R205). -/
def preClosed (d : Dmc) (b row : Nat) : Dmc :=
  let x := (noteCmd d b).bankOf b
  let e := (noteCmd d b).setBank b { x with row := none, actOk := d.cyc + tRP, fresh := false, conf := false }
  if x.counts then { e with closing := e.closing ++ [(b, row)] } else e

theorem preClosed_cyc (d : Dmc) (b row : Nat) : (preClosed d b row).cyc = d.cyc := by
  unfold preClosed
  extract_lets x e
  split <;> rfl

theorem doPre_closed {s : State} {ch b : Nat} (h : ((s.dmcOf ch).bankOf b).row = none) : doPre s ch b = s := by
  have hrow : ((noteCmd (s.dmcOf ch) b).bankOf b).row = none := h
  unfold doPre
  simp only [hrow]

theorem doPre_open {s : State} {ch b row : Nat} (h : ((s.dmcOf ch).bankOf b).row = some row) :
    doPre s ch b = showRow (s.setDmc ch (preClosed (s.dmcOf ch) b row)) ch b none := by
  have hrow : ((noteCmd (s.dmcOf ch) b).bankOf b).row = some row := h
  unfold doPre
  simp only [hrow]
  rfl

theorem doPre_cyc (s : State) (ch b : Nat) : CycKept s (doPre s ch b) := by
  cases h : ((s.dmcOf ch).bankOf b).row with
  | none => rw [doPre_closed h]; exact .refl s
  | some row =>
    rw [doPre_open h]
    exact ((DmcKept.refl s).setDmc (preClosed_cyc ..)).wr ..

theorem doAct_cyc (s : State) (ch b row : Nat) (counts : Bool) : CycKept s (doAct s ch b row counts) := by
  have hset (d : Dmc) (hd : d.cyc = (s.dmcOf ch).cyc) : CycKept s (showRow (s.setDmc ch d) ch b (some row)) := ((DmcKept.refl s).setDmc hd).wr ..
  unfold doAct
  extract_lets d r acts d' x d''
  exact hset d'' rfl

/-- Bank `b` of a controller has been refreshed at `now` (R199, R200). -/
def refreshedBank (d : Dmc) (b now : Nat) : Dmc :=
  let e := { noteCmd d b with cmdAt := now }
  e.setBank b { e.bankOf b with owed := (e.bankOf b).owed.drop 1, rptr := ((e.bankOf b).rptr + 1) % 4096, actOk := e.cyc + tRFC }

/-- The refresh asks the bank's rank for a report (R207). -/
def reportAsked (d : Dmc) (b : Nat) : Dmc :=
  let r := d.rankOf (b / 32)
  let q := if r.ack then r.dieq.drop r.rptSent else r.dieq
  { d.setRank (b / 32) { r with dieq := q, rptSent := min 16 q.length, rptOut := true } with rptAt := some (d.cyc + tCL, b / 32) }

/-- A controller that has refreshed a bank. -/
def refreshed (s : State) (ch b : Nat) : Dmc :=
  if asksReport s (refreshedBank (s.dmcOf ch) b s.now) (b / 32) then reportAsked (refreshedBank (s.dmcOf ch) b s.now) b
  else refreshedBank (s.dmcOf ch) b s.now

theorem doRefresh_eq (s : State) (ch b : Nat) (overdue : Bool) : doRefresh s ch b overdue =
    if overdue then (s.setDmc ch (refreshed s ch b)).inc F.RFM_REF_OVERDUE 1 ch else s.setDmc ch (refreshed s ch b) := rfl

theorem refreshed_eq (s : State) (ch b : Nat) : (refreshed s ch b).cyc = (s.dmcOf ch).cyc ∧
    (refreshed s ch b).bank = (refreshedBank (s.dmcOf ch) b s.now).bank := by
  unfold refreshed
  split
  · exact ⟨rfl, rfl⟩
  · exact ⟨rfl, rfl⟩

theorem doRefresh_cyc (s : State) (ch b : Nat) (overdue : Bool) : CycKept s (doRefresh s ch b overdue) := by
  have hset : CycKept s (s.setDmc ch (refreshed s ch b)) := (DmcKept.refl s).setDmc (refreshed_eq s ch b).1
  rw [doRefresh_eq]
  exact .ite (hset.inc ..) hset

/-- The row-command slot of the cycle is taken (R177). -/
def rowSlotTaken (s : State) (ch : Nat) : State := s.setDmc ch { s.dmcOf ch with rowAt := (s.dmcOf ch).cyc }

theorem issueRow_cyc (s : State) (ch : Nat) (c : Cand) (cmd : RowCmd) : CycKept s (issueRow s ch c cmd) := by
  have hu : CycKept s (rowSlotTaken s ch) := (DmcKept.refl s).setDmc rfl
  cases cmd with
  | ref o => exact hu.trans (doRefresh_cyc ..)
  | pre conf =>
    unfold issueRow
    dsimp -zeta only
    extract_lets b d u x v e y
    have hv : CycKept s v := hu.trans (doPre_cyc ..)
    clear_value v
    split
    · exact hv.setDmc rfl
    · exact .ite (hv.setDmc rfl) hv
    · exact .ite ((hv.setDmc (d := e.setBank b { y with conf := true }) rfl).inc ..) hv
  | act row counts =>
    unfold issueRow
    dsimp -zeta only
    extract_lets b d u x v e y e' scrubs w
    have hv : CycKept s v := hu.trans (doAct_cyc ..)
    have hw : CycKept s w := by
      refine DmcKept.inc (hv.setDmc ?_) ..
      split <;> rfl
    refine .ite (.ite hw (hw.inc ..)) ?_
    split
    · exact hv
    · exact hv.setDmc rfl

theorem rowSlotUse_cyc (s : State) (ch : Nat) (picks : List Cand) : CycKept s (rowSlotUse s ch picks) := by
  have hpde (r : Nat) : CycKept s (doPde s ch r) := by
    have hset : CycKept s (s.setDmc ch ({ s.dmcOf ch with rowAt := (s.dmcOf ch).cyc }.setRank r { (s.dmcOf ch).rankOf r with
      pde := (s.dmcOf ch).cyc, pdeDue := none })) := (DmcKept.refl s).setDmc rfl
    exact (hset.wr ..).inc ..
  have hmap : CycKept s (issueMapSw s ch) := by
    have hset : CycKept s (s.setDmc ch { s.dmcOf ch with rowAt := (s.dmcOf ch).cyc }) := (DmcKept.refl s).setDmc rfl
    exact hset.trans (.of_dmc rfl)
  unfold rowSlotUse
  extract_lets d
  split
  · exact hpde _
  · exact hmap
  · split
    · split
      · exact issueRow_cyc ..
      · exact .refl s
    · exact .refl s

/-! ## Column commands -/

theorem doCol_cyc (s : State) (ch b : Nat) (wr : Bool) : CycKept s (doCol s ch b wr) := by
  unfold doCol
  extract_lets d0 d x u endWr d1 rank d2 d3
  have hu : CycKept s u := .ite (.refl s) ((DmcKept.refl s).inc ..)
  have hd : d3.cyc = (u.dmcOf ch).cyc := by
    have h2 : d2.cyc = (s.dmcOf ch).cyc := by
      unfold d2
      split <;> rfl
    rw [hu.dmcOf]
    exact h2
  exact .ite (hu.setDmc hd) ((hu.setDmc hd).inc ..)

theorem countHit_cyc (s : State) (ch : Nat) (c : Cand) (work : List Cand) (wasFresh : Bool) : CycKept s (countHit s ch c work wasFresh) :=
  (DmcKept.refl s).setDmc rfl

theorem countBurst_cyc (s : State) (ch : Nat) : CycKept s (countBurst s ch) := (DmcKept.refl s).setDmc rfl

theorem writeIssue_cyc (s : State) (ch : Nat) (e : WEnt) : CycKept s (writeIssue s ch e) := by
  unfold writeIssue
  extract_lets d u v
  have hleft : CycKept s (s.setDmc ch { d with wq := d.wq.erase e }) := (DmcKept.refl s).setDmc rfl
  have hu : CycKept s u := hleft.trans (countBurst_cyc ..)
  have hstored (x : Sector) : CycKept s (leaveList (u.dramWrite ch e.c x) ch e.c) := (hu.beside (dramWrite_beside ..)).beside (leaveList_beside ..)
  have hv : CycKept s v := by
    unfold v
    split
    · exact hstored _
    · exact hstored _
    · split
      · exact hu.beside (cleanHalf_beside ..)
      · exact hu
    · exact hu
  exact hv.beside (wrote_beside ..)

theorem victimIssue_beside (s : State) (sl : Nat) (v : Victim) (h : Nat) : Beside s (victimIssue s sl v h) := by
  have hout (o : Option Sector) : Beside s (victimOut s sl v h o) := by
    cases o with
    | none => exact .refl s
    | some x => exact (dramWrite_beside ..).inc ..
  exact (hout _).trans ⟨rfl, rfl, rfl, rfl⟩

theorem walkIssue_beside (s : State) (sl : Nat) (e : Nat × Nat × Nat) (next : Nat) : Beside s (walkIssue s sl e next) := by
  have hclean : Beside s (cleanHalf s sl e.1 e.2.1 e.2.2 next) := cleanHalf_beside ..
  unfold walkIssue
  extract_lets u
  split
  · exact .ite (hclean.trans ⟨rfl, rfl, rfl, rfl⟩) hclean
  · exact hclean

theorem flushEnd_beside (s : State) (sl : Nat) : Beside s (flushEnd s sl) := .ite ((Beside.refl s).wr ..) (.refl s)

theorem engIssue_cyc (s : State) (ch : Nat) (b : Burst) : CycKept s (engIssue s ch b) := by
  unfold engIssue
  extract_lets d d'
  have hset : CycKept s (s.setDmc ch d') := (DmcKept.refl s).setDmc rfl
  exact .ite ((hset.trans (countBurst_cyc ..)).inc ..) hset

theorem issueCol_cyc (s : State) (ch : Nat) (c : Cand) (work : List Cand) : CycKept s (issueCol s ch c work) := by
  unfold issueCol
  extract_lets fresh u d
  have hu : CycKept s u := (doCol_cyc ..).trans (countHit_cyc ..)
  have hburst : CycKept s (countBurst u ch) := hu.trans (countBurst_cyc ..)
  clear_value u
  split
  · refine hu.setDmc ?_
    split <;> rfl
  · exact hu.trans (writeIssue_cyc ..)
  · exact hburst.beside (victimIssue_beside ..)
  · have hwalk : CycKept s ((countBurst u ch).setDmc ch { (countBurst u ch).dmcOf ch with walkAt := d.cyc, walkUp := false }) := hburst.setDmc rfl
    exact (hwalk.beside (walkIssue_beside ..)).beside (flushEnd_beside ..)
  · exact hu.setDmc rfl
  · exact hu.trans (engIssue_cyc ..)
  · exact hu

theorem colSlotUse_cyc (s : State) (ch : Nat) (picks work : List Cand) : CycKept s (colSlotUse s ch picks work) := by
  unfold colSlotUse
  split
  · exact .ite (.refl s) ((issueCol_cyc ..).beside (settle_beside _))
  · exact .refl s

/-! ## The cycle -/

/-- The channel trains on TRAIN_GO, and serves refresh alone (R189). -/
def trainsInRun (d : Dmc) : Bool :=
  match d.train with
  | some t => t.inRun
  | none => false

/-- The next cycle of a channel has begun. -/
def cycleBegun (s : State) (ch : Nat) : State := s.setDmc ch { s.dmcOf ch with cyc := (s.dmcOf ch).cyc + 1 }

/-- What a cycle does before its picks. -/
def cycleReady (s : State) (ch : Nat) : State :=
  if trainsInRun (s.dmcOf ch) then cycleBegun s ch else updateMode (upkeep (cycleBegun s ch) ch) ch

/-- The work of a cycle. -/
def cycleWork (s : State) (ch : Nat) : List Cand :=
  if trainsInRun (s.dmcOf ch) then [] else workCands (cycleReady s ch) ch ((cycleReady s ch).dmcOf ch)

/-- The picks of its banks. -/
def cyclePicks (s : State) (ch : Nat) : List Cand :=
  (busyBanks ((cycleReady s ch).dmcOf ch) (cycleWork s ch)).filterMap fun b => pickOf (cycleReady s ch) ch ((cycleReady s ch).dmcOf ch) (cycleWork s ch) b

/-- A channel that runs its cycles. -/
def cycles (s : State) (ch : Nat) : Bool := (s.cstate ch == 2 || (s.cstate ch == 1 && trainsInRun (s.dmcOf ch))) && !(s.dmcOf ch).hung

theorem bankSchedule_runs {s : State} {ch : Nat} (h : cycles s ch = true) :
    bankSchedule ch s = colSlotUse (rowSlotUse (cycleReady s ch) ch (cyclePicks s ch)) ch (cyclePicks s ch) (cycleWork s ch) := by
  obtain ⟨hstate, hhung⟩ := (Bool.and_eq_true _ _).mp h
  refine (if_neg ?_).trans rfl
  rw [Bool.or_eq_true, Bool.not_eq_true', not_or, Bool.not_eq_false, Bool.not_eq_true]
  exact ⟨hstate, by simpa using hhung⟩

theorem bankSchedule_rests {s : State} {ch : Nat} (h : cycles s ch = false) : bankSchedule ch s = s := by
  refine if_pos ?_
  rw [Bool.or_eq_true, Bool.not_eq_true']
  rcases Bool.and_eq_false_iff.1 h with hstate | hhung
  · exact .inl hstate
  · exact .inr (by simpa using hhung)

/-- A channel that runs counts the cycle. -/
theorem bankSchedule_cyc {s : State} {ch : Nat} (h : cycles s ch = true) : ((bankSchedule ch s).dmcOf ch).cyc = (s.dmcOf ch).cyc + 1 := by
  have hready : CycKept (cycleBegun s ch) (cycleReady s ch) := .ite (.refl _) ((upkeep_cyc ..).trans (updateMode_chosen ..).cyc)
  have hdone := (hready.trans (rowSlotUse_cyc _ ch (cyclePicks s ch))).trans (colSlotUse_cyc _ ch (cyclePicks s ch) (cycleWork s ch))
  rw [bankSchedule_runs h, hdone.dmcOf, cycleBegun, State.setDmc_dmcOf_same]

end Sys2Proof.Machine


/-! SUPPORT. A DCK cycle with nothing but refresh and power-down to serve (R188, R199, R200): its refresh, and its PDE. -/

namespace Sys2Proof.Machine

/-! ## Banks and ranks of a controller -/

@[simp] theorem Dmc.bankOf_setBank_same (d : Dmc) (b : Nat) (x : Bank) : (d.setBank b x).bankOf b = x := SMap.getD_put_same ..

theorem Dmc.bankOf_setBank_ne (d : Dmc) {b c : Nat} (x : Bank) (h : c ≠ b) : (d.setBank b x).bankOf c = d.bankOf c := SMap.getD_put_ne _ _ _ _ _ _ h

@[simp] theorem Dmc.rankOf_setRank_same (d : Dmc) (r : Nat) (x : Rank) : (d.setRank r x).rankOf r = x := SMap.getD_put_same ..

@[simp] theorem Dmc.rankOf_setBank (d : Dmc) (b : Nat) (x : Bank) (r : Nat) : (d.setBank b x).rankOf r = d.rankOf r := rfl

@[simp] theorem Dmc.bankOf_setRank (d : Dmc) (r : Nat) (x : Rank) (b : Nat) : (d.setRank r x).bankOf b = d.bankOf b := rfl

/-! ## Upkeep of an idle channel -/

/-- Nothing of any kind waits in a channel in RUN but refresh (the second case of `OnlyRefresh`). -/
structure NoWork (s : State) (ch : Nat) : Prop where
  lines : (s.tsvCh ch).sw = []
  reads : (s.dmcOf ch).q = []
  writes : (s.dmcOf ch).wq = []
  unit : (s.dmcOf ch).rmw = []
  engines : (s.dmcOf ch).eng = []
  scrubbed : (s.dmcOf ch).unitSc = none
  victims : s.victims ch = []
  walk : walkNext s ch = none
  back : SMap.getD s.dip.wb ch [] = []
  fold : s.fstate ≠ fMigrate
  scrub : s.on F.DIP_CTL_SCRUB_EN = false

section
variable {s : State} {ch : Nat}

theorem mapSwEnd_idle (h : (s.tsvCh ch).sw = []) : mapSwEnd s ch = s := by
  unfold mapSwEnd
  simp only [h]

theorem scrubBegin_idle (h : s.on F.DIP_CTL_SCRUB_EN = false) : scrubBegin s ch = s := if_pos (by simp [scrubRuns, h])

theorem unitTake_idle (h : SMap.getD s.dip.wb ch [] = []) : unitTake s ch = s := by
  unfold unitTake
  simp only [h]

theorem foldWork_idle (h : s.fstate ≠ fMigrate) : foldWork s ch = s := if_neg fun hwork => h hwork.1

theorem prunePre_idle (h : (s.dmcOf ch).eng = []) : prunePre s ch = s.setDmc ch (s.dmcOf ch) := by
  have hsame : ({ s.dmcOf ch with eng := [] } : Dmc) = s.dmcOf ch := by rw [← h]
  unfold prunePre
  simp only [h, List.filter_nil]
  rw [hsame]

theorem pruneClean_idle (h : (s.dmcOf ch).wq = []) : pruneClean s ch = s := by
  unfold pruneClean
  simp only [h, List.filter_nil, List.foldl_nil]

theorem supersede_idle (h : (s.dmcOf ch).wq = []) : supersede s ch = s := by
  unfold supersede
  simp only [h, List.filter_nil, List.foldl_nil]

theorem walkWaits_idle (h : walkNext s ch = none) : walkWaits s ch = s.setDmc ch { s.dmcOf ch with walkAt := 0, walkUp := false } := by
  unfold walkWaits
  simp only [h]

/-- The upkeep of an idle channel changes what its walk waits for alone. -/
theorem upkeep_idle (h : NoWork s ch) : (∃ dmc, upkeep s ch = { s with dmc := dmc }) ∧
    (upkeep s ch).dmcOf ch = { s.dmcOf ch with walkAt := 0, walkUp := false } := by
  have hsame : (s.setDmc ch (s.dmcOf ch)).dmcOf ch = s.dmcOf ch := State.setDmc_dmcOf_same ..
  have hwq : ((s.setDmc ch (s.dmcOf ch)).dmcOf ch).wq = [] := by rw [hsame]; exact h.writes
  have hwalk : walkNext (s.setDmc ch (s.dmcOf ch)) ch = none := h.walk
  have heq : upkeep s ch = (s.setDmc ch (s.dmcOf ch)).setDmc ch { s.dmcOf ch with walkAt := 0, walkUp := false } := by
    rw [upkeep, mapSwEnd_idle h.lines, scrubBegin_idle h.scrub, unitTake_idle h.back, foldWork_idle h.fold, prunePre_idle h.engines,
      pruneClean_idle hwq, supersede_idle hwq, walkWaits_idle hwalk, hsame]
  rw [heq]
  exact ⟨⟨_, rfl⟩, State.setDmc_dmcOf_same ..⟩

/-- What the walk of a slice wants next depends on the slice, its state and its retired ways. -/
theorem walkNext_congr {t : State} (hscc : t.scc = s.scc) (hstate : t.sstate ch = s.sstate ch)
    (hways : t.rd F.SCC_WAYS_WAY_DIS ch = s.rd F.SCC_WAYS_WAY_DIS ch) : walkNext t ch = walkNext s ch := by
  have hlines (p : Nat → Line → Bool) : selectLines t ch p = selectLines s ch p := by
    simp only [selectLines, sliceLines, hscc]
  have hdirty (ls : List (Nat × Nat)) : firstDirty t ch ls = firstDirty s ch ls := by
    simp only [firstDirty, State.line, hscc]
    rfl
  simp only [walkNext, hstate, hways, hscc, hlines, hdirty, opNext]

end

/-! ## A calm cycle -/

/-- What a cycle with nothing but refresh to serve has changed before its picks: the number of the cycle, the mode, and what does not matter to them. -/
structure CalmCycle (s u : State) (ch : Nat) : Prop where
  others : ∃ regs dmc, u = { s with regs := regs, dmc := dmc }
  places : ∀ k, (∀ f ∈ [F.DMC_STAT_MODE, F.DMC_STAT_FORCED, F.DMC_DRAIN_CNT_DRAIN_CNT], f.at ch 0 ≠ k) → PlaceKept k s u
  cyc : (u.dmcOf ch).cyc = (s.dmcOf ch).cyc + 1
  bank : (u.dmcOf ch).bank = (s.dmcOf ch).bank
  rank : (u.dmcOf ch).rank = (s.dmcOf ch).rank
  vq : (u.dmcOf ch).vq = (s.dmcOf ch).vq

theorem cycleBegun_calm (s : State) (ch : Nat) : CalmCycle s (cycleBegun s ch) ch := by
  have hsee : (cycleBegun s ch).dmcOf ch = { s.dmcOf ch with cyc := (s.dmcOf ch).cyc + 1 } := State.setDmc_dmcOf_same ..
  refine ⟨⟨s.regs, _, rfl⟩, fun _ _ => .of_eq rfl, ?_, ?_, ?_, ?_⟩ <;> rw [hsee]

theorem cycleBegun_noWork {s : State} {ch : Nat} (h : NoWork s ch) : NoWork (cycleBegun s ch) ch := by
  have hsee : (cycleBegun s ch).dmcOf ch = { s.dmcOf ch with cyc := (s.dmcOf ch).cyc + 1 } := State.setDmc_dmcOf_same ..
  obtain ⟨hlines, hreads, hwrites, hunit, hengines, hscrubbed, hvictims, hwalk, hback, hfold, hscrub⟩ := h
  constructor
  case lines => exact hlines
  case reads => rw [hsee]; exact hreads
  case writes => rw [hsee]; exact hwrites
  case unit => rw [hsee]; exact hunit
  case engines => rw [hsee]; exact hengines
  case scrubbed => rw [hsee]; exact hscrubbed
  case victims => exact hvictims
  case walk => exact hwalk
  case back => exact hback
  case fold => exact hfold
  case scrub => exact hscrub

/-- No request, sector or engine wants anything of an idle channel, in either mode. -/
theorem workCands_idle {u : State} {ch : Nat} {d : Dmc} (hq : d.q = []) (hwq : d.wq = []) (hrmw : d.rmw = []) (heng : d.eng = []) (hsc : d.unitSc = none)
    (hvictims : u.victims ch = []) (hwalk : walkNext u ch = none) : workCands u ch d = [] := by
  have hdrain : drainCands u ch d = [] := by
    unfold drainCands backCands
    simp only [hwq, hvictims, List.filter_nil, List.map_nil, List.flatMap_nil, List.append_nil]
    split <;> rfl
  have hunit : unitCands u ch d = [] := by
    unfold unitCands
    simp only [hrmw, hsc, List.filter_nil, List.map_nil, List.append_nil]
  have hwalked : walkCand u ch d = [] := by
    unfold walkCand
    simp only [hwalk]
  unfold workCands engCands
  simp only [hq, heng, hdrain, hunit, hwalked, List.filter_nil, List.map_nil, List.append_nil, ite_self]

/-- The choice of the mode leaves what lies below DMC's page. -/
theorem ModeChosen.below {s u : State} {ch k : Nat} (h : ModeChosen ch s u) (hk : k < 16777216) : PlaceKept k s u := by
  have hkeys : ∀ f ∈ [F.DMC_STAT_MODE, F.DMC_STAT_FORCED, F.DMC_DRAIN_CNT_DRAIN_CNT], 16777216 ≤ f.key := by decide
  exact h.places k fun f hf => at_ne_of_above (hkeys f hf) hk ch 0

/-- The choice of the mode leaves what the walk of a slice wants. -/
theorem ModeChosen.walkNext {s u : State} (ch : Fin 32) (h : ModeChosen ch.val s u) : walkNext u ch.val = walkNext s ch.val := by
  have hch := ch.isLt
  have hstate : PlaceKept (F.SCC_STAT_SSTATE.at ch.val 0) s u := h.below (by simp only [Fld.at, F.SCC_STAT_SSTATE]; omega)
  have hways : PlaceKept (F.SCC_WAYS_WAY_DIS.at ch.val 0) s u := h.below (by simp only [Fld.at, F.SCC_WAYS_WAY_DIS]; omega)
  obtain ⟨regs, dmc, hothers⟩ := h.others
  exact walkNext_congr (by rw [hothers]) hstate.rd hways.rd

/-- A cycle with nothing but refresh and power-down to serve changes nothing else before its picks, and has no work. -/
theorem cycle_calm {s : State} (ch : Fin 32) (h : OnlyRefresh s ch.val) :
    cycles s ch.val = true ∧ CalmCycle s (cycleReady s ch.val) ch.val ∧ cycleWork s ch.val = [] := by
  obtain ⟨hhung, -, hlines, ⟨hstate, htrain⟩ | ⟨hstate, htrain, hreads, hwrites, hunit, hengines, hscrubbed, hvictims, hwalk, hback, hfold, hscrub⟩⟩ := h
  · have htrains : trainsInRun (s.dmcOf ch.val) = true := by
      unfold trainsInRun
      cases hx : (s.dmcOf ch.val).train with
      | none => rw [hx] at htrain; exact htrain
      | some t => rw [hx] at htrain; exact htrain
    refine ⟨by simp [cycles, hstate, htrains, hhung], ?_, if_pos htrains⟩
    rw [cycleReady, if_pos htrains]
    exact cycleBegun_calm s ch.val
  · have htrains : trainsInRun (s.dmcOf ch.val) = false := by simp only [trainsInRun, htrain]
    have hbegun := cycleBegun_noWork ⟨hlines, hreads, hwrites, hunit, hengines, hscrubbed, hvictims, hwalk, hback, hfold, hscrub⟩
    obtain ⟨⟨dmc, hkept⟩, hsee⟩ := upkeep_idle hbegun
    have hchosen := updateMode_chosen (upkeep (cycleBegun s ch.val) ch.val) ch.val
    have hready : cycleReady s ch.val = updateMode (upkeep (cycleBegun s ch.val) ch.val) ch.val := if_neg (by simp [htrains])
    have hwork : cycleWork s ch.val = workCands (cycleReady s ch.val) ch.val ((cycleReady s ch.val).dmcOf ch.val) := if_neg (by simp [htrains])
    rw [← hready] at hchosen
    have hwalked : walkNext (cycleReady s ch.val) ch.val = none := by
      rw [hchosen.walkNext ch, hkept]
      exact hwalk
    obtain ⟨⟨regs, dmc', hothers⟩, hplaces, ⟨force, reads, burst, oppo, hmode⟩, -⟩ := hchosen
    have hsame : (cycleBegun s ch.val).dmcOf ch.val = { s.dmcOf ch.val with cyc := (s.dmcOf ch.val).cyc + 1 } := State.setDmc_dmcOf_same ..
    rw [hsee, hsame] at hmode
    have hbase (k : Nat) : PlaceKept k s (upkeep (cycleBegun s ch.val) ch.val) := by
      rw [hkept]
      exact .of_eq rfl
    refine ⟨by simp [cycles, hstate, hhung], ⟨⟨regs, dmc', ?_⟩, fun k hk => (hbase k).trans (hplaces k hk), ?_, ?_, ?_, ?_⟩, ?_⟩
    · rw [hothers, hkept]
      rfl
    · rw [hmode]
    · rw [hmode]
    · rw [hmode]
    · rw [hmode]
    · rw [hwork]
      refine workCands_idle ?_ ?_ ?_ ?_ ?_ ?_ hwalked
      · rw [hmode]; exact hreads
      · rw [hmode]; exact hwrites
      · rw [hmode]; exact hunit
      · rw [hmode]; exact hengines
      · rw [hmode]; exact hscrubbed
      · rw [hothers, hkept]; exact hvictims

end Sys2Proof.Machine


/-! SUPPORT. The row-command slot of a calm cycle: the PDE that is due, and the refresh of the one bank that owes it (R188, R199, R200). -/

namespace Sys2Proof.Machine

/-! ## Candidates of a cycle without work -/

/-- Without work, a bank wants its refresh and its victim refresh alone. -/
theorem candsOf_noWork (s : State) (ch : Nat) (d : Dmc) (b : Nat) : ∀ c ∈ candsOf s ch d [] b, c.work = false := by
  intro c hc
  unfold candsOf at hc
  extract_lets x late ref vic at hc
  split at hc
  · simp at hc
  · simp only [List.mem_singleton] at hc
    rw [hc]
    rfl
  · simp only [List.filter_nil, List.append_nil, List.mem_append] at hc
    rcases hc with hc | hc
    · unfold ref at hc
      split at hc
      · simp at hc
      · simp only [List.mem_singleton] at hc
        rw [hc]
        rfl
    · unfold vic at hc
      split at hc
      · simp only [List.mem_singleton] at hc
        rw [hc]
        rfl
      · simp at hc

/-- So the pick of each bank is no work. -/
theorem pickOf_noWork {s : State} {ch : Nat} {d : Dmc} {b : Nat} {c : Cand} (h : pickOf s ch d [] b = some c) : c.work = false := by
  have hcands := candsOf_noWork s ch d b
  unfold pickOf at h
  extract_lets cs at h
  cases hbest : bestCand cs with
  | none => simp [hbest] at h
  | some x =>
    have hx : x.work = false := hcands x (bestCand_spec cs hbest).1
    simp only [hbest, hx, Bool.false_and, Bool.false_eq_true, if_false, Option.some.injEq] at h
    exact h ▸ hx

/-- A refresh takes no column command. -/
theorem colSlotUse_noWork (u : State) (ch : Nat) {picks : List Cand} (work : List Cand) (h : ∀ c ∈ picks, c.work = false) :
    colSlotUse u ch picks work = u := by
  have hnone : picks.filter (colReady u ch (u.dmcOf ch)) = [] := by
    refine List.filter_eq_nil_iff.2 fun c hc => ?_
    simp [colReady, h c hc]
  unfold colSlotUse
  rw [hnone]
  rfl

/-- A calm cycle is its row-command slot. -/
theorem bankSchedule_calm {s : State} (ch : Fin 32) (h : OnlyRefresh s ch.val) :
    bankSchedule ch.val s = rowSlotUse (cycleReady s ch.val) ch.val (cyclePicks s ch.val) := by
  obtain ⟨hcycles, -, hwork⟩ := cycle_calm ch h
  rw [bankSchedule_runs hcycles]
  refine colSlotUse_noWork _ _ _ fun c hc => ?_
  unfold cyclePicks at hc
  rw [hwork] at hc
  obtain ⟨b, -, hpick⟩ := List.mem_filterMap.1 hc
  exact pickOf_noWork hpick

/-! ## A PDE that is due -/

theorem pdeRank_eq_some {d : Dmc} (r : Fin 4) {a : Nat} (hdue : (d.rankOf r.val).pdeDue = some a) (ha : a ≤ d.cyc)
    (hbefore : ∀ q, q < r.val → (d.rankOf q).pdeDue = none) : pdeRank d = some r.val := by
  unfold pdeRank
  rw [List.find?_range_eq_some]
  refine ⟨by simp [hdue, ha], List.mem_range.2 r.isLt, fun q hq => by simp [hbefore q hq]⟩

theorem doPde_spec (s : State) (ch r : Nat) : pstate (doPde s ch r) ch r = 2 ∧ (((doPde s ch r).dmcOf ch).rankOf r).pdeDue = none ∧
    (doPde s ch r).mem = s.mem := by
  refine ⟨?_, ?_, rfl⟩
  · unfold doPde pstate
    extract_lets d u
    rw [State.rd_inc_ne _ _ _ _ _ _ _ _ (at_ne_of_key (by decide) _ _), State.rd_wr_same]
    rfl
  · show ((State.dmcOf (State.setDmc s ch _) ch).rankOf r).pdeDue = none
    rw [State.setDmc_dmcOf_same, Dmc.rankOf_setRank_same]

/-- The PDE that is due issues. -/
theorem bankSchedule_pde {s : State} (ch : Fin 32) (r : Fin 4) {a : Nat} (h : OnlyRefresh s ch.val)
    (hdue : ((s.dmcOf ch.val).rankOf r.val).pdeDue = some a) (ha : a ≤ (s.dmcOf ch.val).cyc + 1)
    (hbefore : ∀ q, q < r.val → ((s.dmcOf ch.val).rankOf q).pdeDue = none) :
    pstate (bankSchedule ch.val s) ch.val r.val = 2 ∧ (((bankSchedule ch.val s).dmcOf ch.val).rankOf r.val).pdeDue = none ∧
    (bankSchedule ch.val s).mem = s.mem := by
  obtain ⟨-, hcalm, -⟩ := cycle_calm ch h
  have hrank (q : Nat) : ((cycleReady s ch.val).dmcOf ch.val).rankOf q = (s.dmcOf ch.val).rankOf q := by
    simp only [Dmc.rankOf, hcalm.rank]
  have hpick : pdeRank ((cycleReady s ch.val).dmcOf ch.val) = some r.val :=
    pdeRank_eq_some r (by rw [hrank]; exact hdue) (by rw [hcalm.cyc]; exact ha) fun q hq => by rw [hrank]; exact hbefore q hq
  have heq : bankSchedule ch.val s = doPde (cycleReady s ch.val) ch.val r.val := by
    rw [bankSchedule_calm ch h]
    unfold rowSlotUse
    simp only [hpick]
  obtain ⟨⟨regs, dmc, hothers⟩, -⟩ := hcalm
  have hmem : (cycleReady s ch.val).mem = s.mem := by rw [hothers]
  rw [heq]
  obtain ⟨hstate, hrankDue, hkept⟩ := doPde_spec (cycleReady s ch.val) ch.val r.val
  exact ⟨hstate, hrankDue, hkept.trans hmem⟩

/-! ## The refresh that is owed -/

/-- The refresh of bank `b`, owed since `a`, is the pick. -/
def refreshCand (s : State) (ch b a : Nat) (rest : List Nat) : Cand :=
  let late := decide (s.rd F.RFM_CTL_POSTPONE ≤ (a :: rest).length)
  { bank := b, want := .refresh late, band := if late then 1 else 5, step := 0, hit := false, age := (s.dmcOf ch).cyc - a }

section
variable {s : State} {ch b a : Nat} {rest : List Nat} (howed : ((s.dmcOf ch).bankOf b).owed = a :: rest)
  (hvref : ((s.dmcOf ch).bankOf b).vref = none) (hvq : (s.dmcOf ch).vq = [])
include howed hvref hvq

theorem pickOf_refresh : pickOf s ch (s.dmcOf ch) [] b = some (refreshCand s ch b a rest) := by
  have hcands : candsOf s ch (s.dmcOf ch) [] b = [refreshCand s ch b a rest] := by
    unfold candsOf
    simp only [hvref, howed, hvq, List.find?_nil, List.filter_nil, List.append_nil]
    rfl
  unfold pickOf
  simp only [hcands, bestCand]
  rfl

/-- One bank alone has something to serve. -/
theorem busyBanks_one (hb : b < 128) (hothers : ∀ c, c < 128 → c ≠ b → ((s.dmcOf ch).bankOf c).owed = [] ∧ ((s.dmcOf ch).bankOf c).vref = none) :
    busyBanks (s.dmcOf ch) [] = [b] := by
  have heq : ∀ c ∈ List.range 128, (!((s.dmcOf ch).bankOf c).owed.isEmpty || ((s.dmcOf ch).bankOf c).vref.isSome ||
      (s.dmcOf ch).vq.any (fun x => x.1 == c) || ([] : List Cand).any (fun x => x.bank == c)) = (c == b) := by
    intro c hc
    by_cases hcb : c = b
    · subst hcb
      simp [howed]
    · obtain ⟨hnone, hfree⟩ := hothers c (List.mem_range.1 hc) hcb
      simp [hnone, hfree, hvq, hcb]
  unfold busyBanks
  rw [List.filter_congr heq, List.filter_beq, List.count_eq_one_of_mem List.nodup_range (List.mem_range.2 hb), List.replicate_one]

omit howed hvref hvq in
/-- The row of a bank that owes a refresh is closed, and its rank takes commands. -/
theorem rowCmd_refresh (hrow : ((s.dmcOf ch).bankOf b).row = none) (hact : ((s.dmcOf ch).bankOf b).actOk ≤ (s.dmcOf ch).cyc)
    (hready : rankReady s ch (s.dmcOf ch) b = true) : ∃ late, rowCmd s ch (s.dmcOf ch) (refreshCand s ch b a rest) = some (.ref late) := by
  refine ⟨decide (s.rd F.RFM_CTL_POSTPONE ≤ (a :: rest).length), ?_⟩
  unfold rowCmd
  simp [refreshCand, hrow, hact, hready]

end

/-- A bank that is refreshed in cycle `at'`: one refresh less is owed (R199, R200). -/
def bankRefreshed (x : Bank) (at' : Nat) : Bank := { x with owed := x.owed.drop 1, rptr := (x.rptr + 1) % 4096, actOk := at' + tRFC }

theorem doRefresh_bankOf (s : State) (ch b : Nat) (late : Bool) : ((doRefresh (rowSlotTaken s ch) ch b late).dmcOf ch).bankOf b =
    bankRefreshed ((s.dmcOf ch).bankOf b) (s.dmcOf ch).cyc := by
  have hset : ((doRefresh (rowSlotTaken s ch) ch b late).dmcOf ch) = refreshed (rowSlotTaken s ch) ch b := by
    rw [doRefresh_eq]
    split
    · exact State.setDmc_dmcOf_same ..
    · exact State.setDmc_dmcOf_same ..
  have hbank : (refreshed (rowSlotTaken s ch) ch b).bankOf b = (refreshedBank ((rowSlotTaken s ch).dmcOf ch) b s.now).bankOf b := by
    rw [Dmc.bankOf, (refreshed_eq ..).2]
    rfl
  rw [hset, hbank, rowSlotTaken, State.setDmc_dmcOf_same, refreshedBank, Dmc.bankOf_setBank_same]
  rfl

/-- The one bank that owes a refresh is refreshed. -/
theorem bankSchedule_refresh {s : State} (ch : Fin 32) {b a : Nat} {rest : List Nat} (h : OnlyRefresh s ch.val) (hb : b < 128)
    (hpde : ∀ r, r < 4 → ((s.dmcOf ch.val).rankOf r).pdeDue = none)
    (hothers : ∀ c, c < 128 → c ≠ b → ((s.dmcOf ch.val).bankOf c).owed = [] ∧ ((s.dmcOf ch.val).bankOf c).vref = none)
    (howed : ((s.dmcOf ch.val).bankOf b).owed = a :: rest) (hvref : ((s.dmcOf ch.val).bankOf b).vref = none)
    (hrow : ((s.dmcOf ch.val).bankOf b).row = none) (hact : ((s.dmcOf ch.val).bankOf b).actOk ≤ (s.dmcOf ch.val).cyc + 1)
    (hstate : pstate s ch.val (b / 32) = 1) (hcmd : ((s.dmcOf ch.val).rankOf (b / 32)).cmdOk ≤ (s.dmcOf ch.val).cyc + 1) :
    ((bankSchedule ch.val s).dmcOf ch.val).bankOf b = bankRefreshed ((s.dmcOf ch.val).bankOf b) ((s.dmcOf ch.val).cyc + 1) := by
  obtain ⟨-, hcalm, hwork⟩ := cycle_calm ch h
  have hcycle := bankSchedule_calm ch h
  obtain ⟨-, hvq, hlines, -⟩ := h
  unfold cyclePicks at hcycle
  rw [hwork] at hcycle
  generalize cycleReady s ch.val = u at hcalm hcycle
  obtain ⟨⟨regs, dmc, hkept⟩, hplaces, hcyc, hbank, hrank, hvq'⟩ := hcalm
  have hbankOf (c : Nat) : (u.dmcOf ch.val).bankOf c = (s.dmcOf ch.val).bankOf c := by simp only [Dmc.bankOf, hbank]
  have hrankOf (r : Nat) : (u.dmcOf ch.val).rankOf r = (s.dmcOf ch.val).rankOf r := by simp only [Dmc.rankOf, hrank]
  have hr : b / 32 < 4 := by omega
  have hpdeNone : pdeRank (u.dmcOf ch.val) = none := by
    unfold pdeRank
    refine List.find?_eq_none.2 fun r hmem => ?_
    simp [hrankOf, hpde r (List.mem_range.1 hmem)]
  have hmap : mapSwWaits u ch.val = false := by
    unfold mapSwWaits
    rw [show u.tsvCh ch.val = s.tsvCh ch.val by rw [hkept]; rfl, hlines]
  have hkeptState : pstate u ch.val (b / 32) = 1 := by
    refine (PlaceKept.rd (hplaces _ fun f hf => ?_)).trans hstate
    simp only [List.mem_cons, List.not_mem_nil, or_false] at hf
    rcases hf with rfl | rfl | rfl <;>
    simp only [Fld.at, F.DMC_RANK_STAT_PSTATE, F.DMC_STAT_MODE, F.DMC_STAT_FORCED, F.DMC_DRAIN_CNT_DRAIN_CNT] <;> omega
  have hready : rankReady u ch.val (u.dmcOf ch.val) b = true := by
    unfold rankReady
    simp [hkeptState, hrankOf, hcyc, hcmd, hpde _ hr]
  rw [← hbankOf] at howed hvref hrow hact
  rw [← hvq'] at hvq
  rw [← hcyc] at hact
  have hbusy := busyBanks_one howed hvref hvq hb fun c hc hne => by rw [hbankOf]; exact hothers c hc hne
  obtain ⟨late, hrowCmd⟩ := rowCmd_refresh (a := a) (rest := rest) hrow hact hready
  rw [hbusy, List.filterMap_cons, pickOf_refresh howed hvref hvq, List.filterMap_nil] at hcycle
  have hslot : bankSchedule ch.val s = doRefresh (rowSlotTaken u ch.val) ch.val b late := by
    rw [hcycle]
    unfold rowSlotUse
    simp only [hpdeNone, hmap, List.filter_cons, List.filter_nil, hrowCmd, Option.isSome_some, if_true, bestCand]
    rfl
  rw [hslot, doRefresh_bankOf, hbankOf, hcyc]

end Sys2Proof.Machine


/-! SUPPORT. Promotion of background work, the power states of a rank, and strobe tracking (R186, R188, R191, Table 8.5). -/

namespace Sys2Proof.Machine

/-! ## Promotion (Table 8.2) -/

/-- The controller of a channel once its background work that has waited is promoted. -/
def promotedWork (s : State) (ch : Nat) : Dmc := (bgPromote ch s).dmcOf ch

theorem bgPromote_eq (s : State) (ch : Nat) : bgPromote ch s = s.setDmc ch (promotedWork s ch) := by
  rw [promotedWork, bgPromote, State.setDmc_dmcOf_same]

/-- What is promoted in a channel depends on its controller, the registers and the requests alone. -/
theorem promotedWork_congr {s t : State} {ch : Nat} {dmc : SMap Dmc} (h : t = { s with dmc := dmc }) (hd : t.dmcOf ch = s.dmcOf ch) :
    promotedWork t ch = promotedWork s ch := by
  have hfind (id : Nat) : findReq t id = findReq s id := by rw [h]; rfl
  have hrd (f : Fld) : t.rd f ch = s.rd f ch := by rw [h]; rfl
  simp only [promotedWork, bgPromote, State.setDmc_dmcOf_same, hd, hfind, hrd]

/-- Promotion in some channels, one after another, is the promotion of each. -/
theorem promote_foldl (l : List Nat) (s : State) : (∃ dmc, l.foldl (fun t c => bgPromote c t) s = { s with dmc := dmc }) ∧
    (l.Nodup → ∀ ch, (l.foldl (fun t c => bgPromote c t) s).dmcOf ch = if ch ∈ l then promotedWork s ch else s.dmcOf ch) := by
  induction l generalizing s with
  | nil => exact ⟨⟨s.dmc, rfl⟩, fun _ ch => (if_neg List.not_mem_nil).symm⟩
  | cons a l ih =>
    obtain ⟨⟨dmc, hrest⟩, hof⟩ := ih (bgPromote a s)
    refine ⟨⟨dmc, by rw [List.foldl_cons, hrest, bgPromote_eq]; rfl⟩, fun hdup ch => ?_⟩
    obtain ⟨ha, hl⟩ := List.nodup_cons.1 hdup
    rw [List.foldl_cons, hof hl ch]
    by_cases hca : ch = a
    · subst hca
      rw [if_neg ha, if_pos List.mem_cons_self]
      rfl
    · have hd : (bgPromote a s).dmcOf ch = s.dmcOf ch := by rw [bgPromote_eq, State.setDmc_dmcOf_ne _ _ _ _ hca]
      rw [promotedWork_congr (dmc := (bgPromote a s).dmc) (by rw [bgPromote_eq]; rfl) hd, hd]
      simp [hca]

/-- A promoted channel keeps its reads: one of internal traffic that has waited is promoted, and one of a host stays as it is. -/
theorem promotedWork_q (s : State) (ch : Nat) : (promotedWork s ch).q.length = (s.dmcOf ch).q.length ∧
    ∀ e ∈ (s.dmcOf ch).q, ∀ r, findReq s e.req = some r →
      (r.iss ≠ .host → e.at' + s.rd F.DMC_HANG_BG_PROMOTE ch * 1600 ≤ (s.dmcOf ch).cyc → { e with promoted := true } ∈ (promotedWork s ch).q) ∧
      (r.iss = .host → e ∈ (promotedWork s ch).q) := by
  rw [promotedWork, bgPromote, State.setDmc_dmcOf_same]
  refine ⟨List.length_map .., fun e he r hfind => ⟨fun hiss hdue => List.mem_map.2 ⟨e, he, ?_⟩, fun hiss => List.mem_map.2 ⟨e, he, ?_⟩⟩⟩
  · simp [hfind, hiss, hdue]
  · simp [hfind, hiss]

/-! ## Power-down (Table 8.5) -/

theorem doPre_mem (s : State) (ch b : Nat) : (doPre s ch b).mem = s.mem := by
  cases h : ((s.dmcOf ch).bankOf b).row with
  | none => rw [doPre_closed h]
  | some row => rw [doPre_open h]; rfl

/-- PRE of bank `b` closes its row, and no other. -/
theorem doPre_row (s : State) (ch b c : Nat) : (((doPre s ch b).dmcOf ch).bankOf c).row = if c = b then none else ((s.dmcOf ch).bankOf c).row := by
  cases h : ((s.dmcOf ch).bankOf b).row with
  | none =>
    rw [doPre_closed h]
    split
    next hcb => rw [hcb, h]
    next => rfl
  | some row =>
    have hbank (x : Nat) : ((preClosed (s.dmcOf ch) b row).bankOf x) = (((noteCmd (s.dmcOf ch) b).setBank b { (noteCmd (s.dmcOf ch) b).bankOf b with
        row := none, actOk := (s.dmcOf ch).cyc + tRP, fresh := false, conf := false }).bankOf x) := by
      unfold preClosed
      extract_lets y e
      split <;> rfl
    rw [doPre_open h, showRow, State.wr_dmcOf, State.setDmc_dmcOf_same, hbank]
    split
    next hcb => rw [hcb, Dmc.bankOf_setBank_same]
    next hcb =>
      rw [Dmc.bankOf_setBank_ne _ _ hcb]
      rfl

/-- PREA of a rank closes its 32 rows, and leaves the cycle and memory. -/
theorem doPreAll_spec (s : State) (ch r : Nat) : CycKept s (doPreAll s ch r) ∧ (doPreAll s ch r).mem = s.mem ∧
    ∀ k, k < 32 → (((doPreAll s ch r).dmcOf ch).bankOf (32 * r + k)).row = none := by
  refine ⟨.foldl (fun t k => doPre_cyc ..) s _, List.foldlRecOn (motive := fun t : State => t.mem = s.mem) _ _ rfl fun t ht k _ => (doPre_mem ..).trans ht, ?_⟩
  have hall (l : List Nat) (u : State) (k : Nat) : (((l.foldl (fun t k => doPre t ch (32 * r + k)) u).dmcOf ch).bankOf (32 * r + k)).row =
      if k ∈ l then none else ((u.dmcOf ch).bankOf (32 * r + k)).row := by
    induction l generalizing u with
    | nil => rfl
    | cons a l ih =>
      rw [List.foldl_cons, ih, doPre_row]
      by_cases ha : k = a <;> by_cases hl : k ∈ l <;> simp [ha, hl]
  intro k hk
  rw [doPreAll, hall, if_pos (List.mem_range.2 hk)]

/-- An idle rank begins its way into power-down. -/
theorem powerDownEntry_spec {s : State} {ch r : Nat} (hen : s.on F.DMC_CTL_PD_EN ch = true) (hrun : s.cstate ch = 2) (hact : pstate s ch r = 1)
    (hidle : rankWork s ch r = false) (hdue : ((s.dmcOf ch).rankOf r).pdeDue = none) (htick : tickNear (s.dmcOf ch) r = false)
    (hfree : rowFree (s.dmcOf ch) = true) (hwait : ((s.dmcOf ch).rankOf r).busyAt + s.rd F.DMC_CTL_PD_IDLE ch ≤ (s.dmcOf ch).cyc)
    (hpre : ∀ k, k < 32 → ((s.dmcOf ch).bankOf (32 * r + k)).row.isSome = true → preOk s ch (s.dmcOf ch) (32 * r + k) = true) :
    (((powerDownEntry ch r s).dmcOf ch).rankOf r).pdeDue = some ((s.dmcOf ch).cyc + tRP) ∧ (powerDownEntry ch r s).mem = s.mem ∧
    ∀ k, k < 32 → (((powerDownEntry ch r s).dmcOf ch).bankOf (32 * r + k)).row = none := by
  have hall : (((List.range 32).filter fun k => ((s.dmcOf ch).bankOf (32 * r + k)).row.isSome).all fun k => preOk s ch (s.dmcOf ch) (32 * r + k)) = true := by
    refine List.all_eq_true.2 fun k hk => ?_
    obtain ⟨hrange, hopen⟩ := List.mem_filter.1 hk
    exact hpre k (List.mem_range.1 hrange) hopen
  obtain ⟨hcyc, hmem, hrows⟩ := doPreAll_spec s ch r
  have heq : powerDownEntry ch r s = (doPreAll s ch r).setDmc ch ({ (doPreAll s ch r).dmcOf ch with rowAt := ((doPreAll s ch r).dmcOf ch).cyc }.setRank r
      { ((doPreAll s ch r).dmcOf ch).rankOf r with pdeDue := some (((doPreAll s ch r).dmcOf ch).cyc + tRP) }) :=
    if_pos ⟨hen, hrun, hact, hdue, by simp [hidle], by simp [htick], hfree, hwait, hall⟩
  rw [heq, State.setDmc_dmcOf_same, Dmc.rankOf_setRank_same, hcyc.dmcOf]
  generalize doPreAll s ch r = u at hmem hrows ⊢
  exact ⟨rfl, hmem, hrows⟩

/-- A rank in power-down leaves it for work. -/
theorem powerDownExit_spec {s : State} {ch r : Nat} (hstate : pstate s ch r = 2) (hwork : rankWork s ch r = true) (hfree : rowFree (s.dmcOf ch) = true)
    (hwait : ((s.dmcOf ch).rankOf r).pde + tCKE ≤ (s.dmcOf ch).cyc) :
    pstate (powerDownExit ch r s) ch r = 1 ∧ (((powerDownExit ch r s).dmcOf ch).rankOf r).cmdOk = (s.dmcOf ch).cyc + tXP := by
  have heq : powerDownExit ch r s = (s.setDmc ch ({ s.dmcOf ch with rowAt := (s.dmcOf ch).cyc }.setRank r
      { (s.dmcOf ch).rankOf r with cmdOk := (s.dmcOf ch).cyc + tXP, busyAt := (s.dmcOf ch).cyc })).wr F.DMC_RANK_STAT_PSTATE 1 ch r :=
    if_pos ⟨hstate, hwork, hfree, hwait⟩
  rw [heq]
  refine ⟨State.rd_wr_same .., ?_⟩
  rw [State.wr_dmcOf, State.setDmc_dmcOf_same, Dmc.rankOf_setRank_same]

end Sys2Proof.Machine


/-! SUPPORT. Strobe tracking, the end of a hang reset (R191, R196, Table 8.7), and O34. -/

namespace Sys2Proof.Machine

/-! ## Strobe tracking -/

/-- What follows the mark of a failed strobe pair: the spare takes its place, the record is written, and a fold may start (R249, R258). -/
def strobeSpared (ch pair dead : Nat) (s : State) : State :=
  let s := s.wr F.TSV_STAT_STB_SPARE 1 ch
  if popCount dead 5 = 2 then foldTrigger (retireLog s ch 4 pair) ch else if popCount dead 5 > 2 then retireLog s ch 4 pair else retireLog s ch 6 pair

theorem strobeFail_eq (ch pair : Nat) (s : State) : strobeFail ch pair s = if bit (s.rd F.TSV_CA_STB_DEAD ch) pair then s
    else strobeSpared ch pair (setBit (s.rd F.TSV_CA_STB_DEAD ch) pair) (s.wr F.TSV_CA_STB_DEAD (setBit (s.rd F.TSV_CA_STB_DEAD ch) pair) ch) := rfl

theorem strobeSpared_placeKept {ch k : Nat} (h : ApartFromFold ch k) (hspare : F.TSV_STAT_STB_SPARE.at ch 0 ≠ k) (pair dead : Nat) (s : State) :
    PlaceKept k s (strobeSpared ch pair dead s) := by
  have hlog (t : State) (kind : Nat) : PlaceKept k t (retireLog t ch kind pair) := .of_eq (portPut_regs ..)
  have hspared : PlaceKept k s (s.wr F.TSV_STAT_STB_SPARE 1 ch) := (PlaceKept.refl s).wr 1 hspare
  exact .ite ((hspared.trans (hlog ..)).trans (foldTrigger_placeKept h _)) (.ite (hspared.trans (hlog ..)) (hspared.trans (hlog ..)))

/-- A place of a channel's DMC registers lies apart from what a fold writes. -/
theorem apartFromFold_of_dmc (ch : Fin 32) {off : Nat} (h : off < 2048) : ApartFromFold ch.val (16777216 + 65536 * ch.val + off) := by
  have hch := ch.isLt
  constructor
  · simp [raisePlace, Fld.at, F.MGT_QUIESCE_WE_STACK]
    omega
  · simp [Fld.at, F.TSV_FOLD_STAT_FSTATE, F.TSV_FOLD_STAT_FOLDED_CH, F.DIP_SCRUB_STAT_SCRUB_PAUSED]
    omega
  · simp [Fld.at, F.SCC_OPS_STAT_OPS_RES, F.SCC_STAT_SSTATE]
    omega

theorem stbDead_apartFromFold (ch : Fin 32) : ApartFromFold ch.val (F.TSV_CA_STB_DEAD.at ch.val 0) := by
  have hch := ch.isLt
  constructor
  · simp [raisePlace, Fld.at, F.TSV_CA_STB_DEAD, F.MGT_QUIESCE_WE_STACK]
    omega
  · simp [Fld.at, F.TSV_CA_STB_DEAD, F.TSV_FOLD_STAT_FSTATE, F.TSV_FOLD_STAT_FOLDED_CH, F.DIP_SCRUB_STAT_SCRUB_PAUSED]
    omega
  · simp [Fld.at, F.TSV_CA_STB_DEAD, F.SCC_OPS_STAT_OPS_RES, F.SCC_STAT_SSTATE]
    omega

theorem rgDly_apartFromFold (ch : Fin 32) (r : Fin 4) : ApartFromFold ch.val (F.DMC_RANK_DLY_RG_DLY.at ch.val r.val) := by
  rw [show F.DMC_RANK_DLY_RG_DLY.at ch.val r.val = 16777216 + 65536 * ch.val + (556 + 128 * r.val) by simp only [Fld.at, F.DMC_RANK_DLY_RG_DLY]; omega]
  exact apartFromFold_of_dmc ch (by omega)

/-- A failed pair is marked. -/
theorem strobeFail_dead (ch : Fin 32) (pair : Fin 5) (s : State) : bit ((strobeFail ch.val pair.val s).rd F.TSV_CA_STB_DEAD ch.val) pair.val = true := by
  rw [strobeFail_eq]
  split
  next hset => exact hset
  next =>
    rw [(strobeSpared_placeKept (stbDead_apartFromFold ch) (at_ne_of_key (by decide) _ _) _ _ _).rd, State.rd_wr_same]
    exact (bit_mod_two_pow _ pair.isLt).trans (by rw [bit_setBit]; simp)

/-- The failure of a pair leaves the delay codes of the ranks. -/
theorem strobeFail_rgDly (ch : Fin 32) (r : Fin 4) (pair : Nat) (s : State) :
    (strobeFail ch.val pair s).rd F.DMC_RANK_DLY_RG_DLY ch.val r.val = s.rd F.DMC_RANK_DLY_RG_DLY ch.val r.val := by
  have hne (f : Fld) (hf : f.key < 8388608 ∧ f.s1 = 16384) : f.at ch.val 0 ≠ F.DMC_RANK_DLY_RG_DLY.at ch.val r.val := by
    obtain ⟨hkey, hstride⟩ := hf
    simp only [Fld.at, hstride, F.DMC_RANK_DLY_RG_DLY]
    omega
  rw [strobeFail_eq]
  split
  · rfl
  · exact (((PlaceKept.refl s).wr _ (hne F.TSV_CA_STB_DEAD (by decide))).trans
      (strobeSpared_placeKept (rgDly_apartFromFold ch r) (hne F.TSV_STAT_STB_SPARE (by decide)) _ _ _)).rd

/-- Tracking moves the code by at most one step. -/
def trackedCode (v : Nat) (dir : Fin 3) : Nat := if dir = 1 then min 63 (v + 1) else if dir = 2 then v - 1 else v

theorem strobeTrack_spec {s : State} (ch : Fin 32) (rank : Fin 4) (dir : Fin 3) (lost : Option (Fin 5)) (hrun : s.cstate ch.val = 2)
    (htrk : s.on F.DMC_TRAIN_CTL_TRK_EN ch.val = true) :
    (strobeTrack ch.val rank.val dir.val (lost.map (·.val)) s).rd F.DMC_RANK_DLY_RG_DLY ch.val rank.val =
      trackedCode (s.rd F.DMC_RANK_DLY_RG_DLY ch.val rank.val) dir % 64 ∧
    ∀ p, lost = some p → bit ((strobeTrack ch.val rank.val dir.val (lost.map (·.val)) s).rd F.TSV_CA_STB_DEAD ch.val) p.val = true := by
  have hcode : (if dir.val = 1 then min 63 (s.rd F.DMC_RANK_DLY_RG_DLY ch.val rank.val + 1)
      else if dir.val = 2 then s.rd F.DMC_RANK_DLY_RG_DLY ch.val rank.val - 1 else s.rd F.DMC_RANK_DLY_RG_DLY ch.val rank.val) =
      trackedCode (s.rd F.DMC_RANK_DLY_RG_DLY ch.val rank.val) dir := by
    fin_cases dir <;> rfl
  unfold strobeTrack
  rw [if_neg (by simp [hrun, htrk])]
  dsimp only
  rw [hcode]
  cases lost with
  | none =>
    refine ⟨State.rd_wr_same .., fun p hp => ?_⟩
    cases hp
  | some p =>
    refine ⟨(strobeFail_rgDly ch rank p.val _).trans (State.rd_wr_same ..), fun q hq => ?_⟩
    cases hq
    exact strobeFail_dead ch p _

/-! ## The end of a hang reset -/

theorem pstate_foldl_wr (l : List Nat) (v : Nat) (s : State) (ch q : Nat) : pstate (l.foldl (fun t r => t.wr F.DMC_RANK_STAT_PSTATE v ch r) s) ch q =
    if q ∈ l then v % 4 else pstate s ch q := by
  induction l generalizing s with
  | nil => rfl
  | cons a l ih =>
    rw [List.foldl_cons, ih]
    by_cases ha : q = a
    · subst ha
      have hsame : pstate (s.wr F.DMC_RANK_STAT_PSTATE v ch q) ch q = v % 4 := State.rd_wr_same ..
      simp [hsame]
    · have hother : pstate (s.wr F.DMC_RANK_STAT_PSTATE v ch a) ch q = pstate s ch q := State.rd_wr_ne _ _ _ _ _ _ _ _ (pstate_at_ne ha)
      simp [hother, ha]

/-- A rank at SRX takes commands from cycle `t0`. -/
def rankExited (t0 : Nat) (d : Dmc) (r : Nat) : Dmc :=
  d.setRank r { d.rankOf r with cmdOk := t0, busyAt := d.cyc, acts := [], lastAct := none, wrEnd := [] }

/-- A bank at SRX owes one refresh; `s` gives its die's rate and `vs` its row pointer. -/
def bankExited (s : State) (ch : Nat) (vs : List Nat) (t0 : Nat) (d : Dmc) (b : Nat) : Dmc :=
  d.setBank b { d.bankOf b with
    actOk := t0, owed := [t0], tick := t0 + tREFI s ch (b / 32) + b * tREFI s ch (b / 32) / 128, rptr := vs.getD b 0 % 4096, vref := none, row := none }

/-- The ranks and banks of a controller at SRX. -/
def dmcExited (s : State) (ch : Nat) : Dmc :=
  let t0 := (s.dmcOf ch).cyc + tXS
  (List.range 128).foldl (bankExited (s.draws 128).2 ch (s.draws 128).1 t0) ((List.range 4).foldl (rankExited t0) (s.dmcOf ch))

/-- SRX, up to the ranks' states. -/
def srefLeft (s : State) (ch : Nat) : State :=
  let u := (s.draws 128).2.setDmc ch { dmcExited s ch with lastCol := none, lastBurst := none, rptAt := none, cmdAt := s.now }
  if u.rd F.RFM_REF_MAX_DEBT ch = 0 then u.wr F.RFM_REF_MAX_DEBT 1 ch else u

theorem srefExit_eq (s : State) (ch : Nat) :
    srefExit s ch = (List.range 4).foldl (fun t r => t.wr F.DMC_RANK_STAT_PSTATE 1 ch r) (srefLeft s ch) := rfl

/-- Every bank of a list owes one refresh, and has no row open. -/
theorem bankExited_foldl (s : State) (ch : Nat) (vs : List Nat) (t0 : Nat) (l : List Nat) (d : Dmc) :
    (l.foldl (bankExited s ch vs t0) d).wq = d.wq ∧
    ∀ b, b ∈ l ∨ (d.bankOf b).owed = [t0] ∧ (d.bankOf b).row = none →
      ((l.foldl (bankExited s ch vs t0) d).bankOf b).owed = [t0] ∧ ((l.foldl (bankExited s ch vs t0) d).bankOf b).row = none := by
  induction l generalizing d with
  | nil => exact ⟨rfl, fun b hb => hb.resolve_left List.not_mem_nil⟩
  | cons a l ih =>
    obtain ⟨hwq, hbanks⟩ := ih (bankExited s ch vs t0 d a)
    refine ⟨hwq, fun b hb => hbanks b ?_⟩
    by_cases hba : b = a
    · subst hba
      rw [bankExited, Dmc.bankOf_setBank_same]
      exact .inr ⟨rfl, rfl⟩
    · rw [bankExited, Dmc.bankOf_setBank_ne _ _ hba]
      exact hb.imp_left fun hmem => (List.mem_cons.1 hmem).resolve_left hba

theorem dmcExited_spec (s : State) (ch : Nat) : (dmcExited s ch).wq = (s.dmcOf ch).wq ∧
    ∀ b, b < 128 → ((dmcExited s ch).bankOf b).owed = [(s.dmcOf ch).cyc + tXS] ∧ ((dmcExited s ch).bankOf b).row = none := by
  have hranks (t0 : Nat) : ((List.range 4).foldl (rankExited t0) (s.dmcOf ch)).wq = (s.dmcOf ch).wq :=
    List.foldlRecOn (motive := fun d : Dmc => d.wq = (s.dmcOf ch).wq) _ _ rfl fun _ hd _ _ => hd
  unfold dmcExited
  extract_lets t0
  obtain ⟨hwq, hbanks⟩ := bankExited_foldl (s.draws 128).2 ch (s.draws 128).1 t0 (List.range 128) ((List.range 4).foldl (rankExited t0) (s.dmcOf ch))
  exact ⟨hwq.trans (hranks t0), fun b hb => hbanks b (.inl (List.mem_range.2 hb))⟩

/-- The controller and the slices after SRX. -/
theorem srefExit_dmcOf (s : State) (ch : Nat) : (srefExit s ch).dmcOf ch =
    { dmcExited s ch with lastCol := none, lastBurst := none, rptAt := none, cmdAt := s.now } ∧ (srefExit s ch).scc = s.scc := by
  have hleft : (srefLeft s ch).dmcOf ch = { dmcExited s ch with lastCol := none, lastBurst := none, rptAt := none, cmdAt := s.now } ∧
      (srefLeft s ch).scc = s.scc := by
    unfold srefLeft
    extract_lets u
    split
    · exact ⟨State.setDmc_dmcOf_same .., rfl⟩
    · exact ⟨State.setDmc_dmcOf_same .., rfl⟩
  rw [srefExit_eq]
  exact List.foldlRecOn (motive := fun t : State => t.dmcOf ch = _ ∧ t.scc = s.scc) _ _ hleft fun _ ht _ _ => ht

theorem foldResume_beside (s : State) : Beside s (foldResume s) := .ite (setFstate_beside ..) (.refl s)

theorem foldResume_placeKept {k : Nat} (s : State) (h : F.TSV_FOLD_STAT_FSTATE.at 0 0 ≠ k) : PlaceKept k s (foldResume s) :=
  .ite (setFstate_placeKept _ _ h) (.refl s)

/-- The hang reset of a channel ends. -/
theorem backToRun_spec (s : State) (ch : Fin 32) : (backToRun s ch.val).cstate ch.val = 2 ∧
    ((backToRun s ch.val).dmcOf ch.val).wq = (s.dmcOf ch.val).wq ∧
    ((backToRun s ch.val).dmcOf ch.val).force = (!(s.dmcOf ch.val).wq.isEmpty || decide (0 < victimSectors s ch.val)) ∧
    (∀ b, b < 128 → (((backToRun s ch.val).dmcOf ch.val).bankOf b).owed = [(s.dmcOf ch.val).cyc + tXS] ∧
      (((backToRun s ch.val).dmcOf ch.val).bankOf b).row = none) ∧
    ∀ r, r < 4 → pstate (backToRun s ch.val) ch.val r = 1 := by
  have hch := ch.isLt
  obtain ⟨hdmc, hscc⟩ := srefExit_dmcOf s ch.val
  obtain ⟨hwq, hbanks⟩ := dmcExited_spec s ch.val
  have hranks (r : Nat) (hr : r < 4) : pstate (srefExit s ch.val) ch.val r = 1 := by
    rw [srefExit_eq, pstate_foldl_wr, if_pos (List.mem_range.2 hr)]
  unfold backToRun
  generalize dmcExited s ch.val = d at hdmc hwq hbanks
  generalize srefExit s ch.val = u at hdmc hscc hranks ⊢
  extract_lets t d'
  have hd : d' = { d with lastCol := none, lastBurst := none, rptAt := none, cmdAt := s.now } := hdmc
  have hsectors : victimSectors t ch.val = victimSectors s ch.val := by
    unfold victimSectors
    rw [show t.scc = s.scc from hscc]
  have hsee := (foldResume_beside (t.setDmc ch.val { d' with force := !d'.wq.isEmpty || decide (0 < victimSectors t ch.val), hung := false })).dmcOf ch.val
  rw [State.setDmc_dmcOf_same, hsectors, hd] at hsee
  rw [hd, hsectors, hsee, ← hwq]
  refine ⟨?_, rfl, rfl, hbanks, fun r hr => ?_⟩
  · have hrun : t.cstate ch.val = 2 := State.rd_wr_same ..
    exact (foldResume_placeKept _ (by simp only [Fld.at, F.TSV_FOLD_STAT_FSTATE, F.DMC_STAT_CSTATE]; omega)).rd.trans hrun
  · have hapart : F.DMC_STAT_CSTATE.at ch.val 0 ≠ F.DMC_RANK_STAT_PSTATE.at ch.val r := by
      simp only [Fld.at, F.DMC_STAT_CSTATE, F.DMC_RANK_STAT_PSTATE]
      omega
    rw [pstate, (foldResume_placeKept _ (by simp only [Fld.at, F.TSV_FOLD_STAT_FSTATE, F.DMC_RANK_STAT_PSTATE]; omega)).rd]
    exact ((PlaceKept.refl u).wr 2 hapart).rd.trans (hranks r hr)

/-! ## O34 -/

/-- A channel runs its cycles in RUN, and on `TRAIN_GO` while it trains; a hung one does not (R177, R189). -/
theorem cycles_eq_true {s : State} {ch : Nat} (hrun : s.cstate ch = 2) (hhung : (s.dmcOf ch).hung = false) : cycles s ch = true := by
  simp [cycles, hrun, hhung]

theorem cycles_eq_false {s : State} {ch : Nat} (h : s.cstate ch ≠ 2 ∧ s.cstate ch ≠ 1 ∨ (s.dmcOf ch).hung = true) : cycles s ch = false := by
  rcases h with ⟨hrun, htrain⟩ | hhung
  · simp [cycles, hrun, htrain]
  · simp [cycles, hhung]

/-- The watchdog of a channel in RUN (R192, R193). -/
theorem hangDetect_spec {s : State} (ch : Fin 32) (stateCheck : Bool) (hrun : s.cstate ch.val = 2) :
    (s.pck.pow ≠ .powerFail → stateCheck = true →
      (hangDetect ch.val stateCheck s).cstate ch.val = 3 ∧ (hangDetect ch.val stateCheck s).rd F.DMC_HANG_STAT_HCAUSE ch.val = 2) ∧
    (s.pck.pow ≠ .powerFail → stateCheck = false → unperformed (s.dmcOf ch.val) = true →
      (s.dmcOf ch.val).cmdAt + s.rd F.DMC_HANG_HANG_TMO ch.val * usec ≤ s.now →
      (hangDetect ch.val stateCheck s).cstate ch.val = 3 ∧ (hangDetect ch.val stateCheck s).rd F.DMC_HANG_STAT_HCAUSE ch.val = 1 ∧
      ((hangDetect ch.val stateCheck s).dmcOf ch.val).q = [] ∧ ((hangDetect ch.val stateCheck s).dmcOf ch.val).fly = [] ∧
      ∀ r, r < 4 → pstate (hangDetect ch.val stateCheck s) ch.val r = 3) ∧
    (s.pck.pow = .powerFail → stateCheck = true → hangDetect ch.val stateCheck s = s.setDmc ch.val { s.dmcOf ch.val with hung := true }) ∧
    (stateCheck = false → (unperformed (s.dmcOf ch.val) = false ∨ s.now < (s.dmcOf ch.val).cmdAt + s.rd F.DMC_HANG_HANG_TMO ch.val * usec) →
      hangDetect ch.val stateCheck s = s) := by
  refine ⟨fun hpow hcheck => ?_, fun hpow hcheck hwork hdue => ?_, fun hpow hcheck => ?_, fun hcheck hcalm => ?_⟩
  · rw [show hangDetect ch.val stateCheck s = hangStart ch.val 2 s from if_pos hcheck]
    obtain ⟨hstate, hcause, -⟩ := hangStart_spec ch 2 hrun hpow
    exact ⟨hstate, hcause⟩
  · rw [show hangDetect ch.val stateCheck s = hangStart ch.val 1 s from (if_neg (by simp [hcheck])).trans (if_pos (by simp [hwork, hdue]))]
    exact hangStart_spec ch 1 hrun hpow
  · rw [show hangDetect ch.val stateCheck s = hangStart ch.val 2 s from if_pos hcheck]
    exact hangStart_powerFail 2 hrun hpow
  · refine (if_neg (by simp [hcheck])).trans (if_neg ?_)
    rcases hcalm with hidle | hlater
    · simp [hidle]
    · simp [Nat.not_le.2 hlater]

/-- Settles O34: each event of the channel is one lemma of the layer above, from the cycle to strobe tracking. -/
theorem dramCyclesBurstsAndHangs : Obligations.DramCyclesBurstsAndHangs := by
  unfold Obligations.DramCyclesBurstsAndHangs
  refine ⟨fun s ch => ⟨fun hrun hhung => ⟨_, rfl, bankSchedule_cyc (cycles_eq_true hrun hhung)⟩, fun h => ?_, ?_, ?_⟩, ?_, ?_, ?_, ?_, ?_, ?_, ?_⟩
  · exact congrArg Host.Outcome.next (bankSchedule_rests (cycles_eq_false h))
  · intro b a rest hb honly hpde hothers howed hvref hrow hact hstate hcmd
    refine ⟨_, rfl, ?_⟩
    rw [bankSchedule_refresh ch honly hb hpde hothers howed hvref hrow hact hstate hcmd, bankRefreshed, howed]
    exact ⟨rfl, rfl, rfl⟩
  · exact fun r a honly hdue ha hbefore => ⟨_, rfl, bankSchedule_pde ch r honly hdue ha hbefore⟩
  · intro s ch err e c rest hfly
    exact ⟨fun hdue => ⟨_, rfl, readReturn_due err hfly hdue⟩, fun hlater => congrArg Host.Outcome.next ((readReturn_eq err hfly).trans (if_pos hlater))⟩
  · intro s
    obtain ⟨⟨dmc, heq⟩, hof⟩ := promote_foldl channels s
    refine ⟨_, rfl, by rw [heq], by rw [heq], fun ch hch => ?_⟩
    have hmem : ch ∈ channels := List.mem_range.2 hch
    rw [hof List.nodup_range ch, if_pos hmem]
    exact promotedWork_q s ch
  · exact fun s ch rank hen hrun hact hidle hdue htick hfree hwait hpre =>
      ⟨_, rfl, powerDownEntry_spec hen hrun hact hidle hdue htick hfree hwait hpre⟩
  · exact fun s ch rank hstate hwork hfree hwait => ⟨_, rfl, powerDownExit_spec hstate hwork hfree hwait⟩
  · intro s ch stateCheck hrun
    obtain ⟨hcheck, hwatch, hflush, hcalm⟩ := hangDetect_spec ch stateCheck hrun
    exact ⟨fun hpow hc => ⟨_, rfl, hcheck hpow hc⟩, fun hpow hc hwork hdue => ⟨_, rfl, hwatch hpow hc hwork hdue⟩,
      fun hpow hc => congrArg Host.Outcome.next (hflush hpow hc), fun hc h => congrArg Host.Outcome.next (hcalm hc h)⟩
  · intro s ch hstate
    refine ⟨_, rfl, ?_⟩
    rw [show hangComplete ch.val s = backToRun s ch.val from if_pos hstate]
    exact backToRun_spec s ch
  · exact fun s ch rank dir lost hrun htrk => ⟨_, rfl, strobeTrack_spec ch rank dir lost hrun htrk⟩

end Sys2Proof.Machine


/-! SUPPORT. The MRAM words, and the power state and the step of a start, through what a boot does (R335, R352, Table 17.1). -/

namespace Sys2Proof.Machine

/-! ## The words of MRAM -/

/-- MRAM holds the same words. -/
structure MramKept (s t : State) : Prop where
  /-- The words stored are the same. -/
  words : t.pst.mram = s.pst.mram

theorem MramKept.of_pst {s t : State} (h : t.pst = s.pst) : MramKept s t := ⟨by rw [h]⟩

theorem MramKept.refl (s : State) : MramKept s s := ⟨rfl⟩

theorem MramKept.trans {s t u : State} (h : MramKept s t) (k : MramKept t u) : MramKept s u := ⟨k.words.trans h.words⟩

theorem MramKept.ite {s a b : State} {c : Prop} [Decidable c] (ha : MramKept s a) (hb : MramKept s b) : MramKept s (if c then a else b) := by
  split
  · exact ha
  · exact hb

theorem MramKept.foldl {α : Type} {f : State → α → State} (hf : ∀ t x, MramKept t (f t x)) (s : State) (l : List α) : MramKept s (l.foldl f s) :=
  List.foldlRecOn (motive := MramKept s) l f (.refl s) fun t ht x _ => ht.trans (hf t x)

theorem MramKept.mramAt {s t : State} (h : MramKept s t) (i : Nat) : t.mramAt i = s.mramAt i := by
  rw [State.mramAt, h.words]
  rfl

/-- Words queued for the port are written later. -/
theorem portPut_mram (s : State) (ws : List MWord) : MramKept s (s.portPut ws) := by
  refine ⟨?_⟩
  unfold State.portPut State.portStart
  split
  · rfl
  · split <;> rfl

theorem queueLog_mram (s : State) (r : Raise) : MramKept s (queueLog s r).1 := by
  have hlog (t : State) : MramKept t (t.logToPort r) := (portPut_mram ..).trans (.of_pst rfl)
  unfold queueLog
  split
  · exact .refl s
  · split
    · exact MramKept.trans (t := { s with fcr.tokens := s.fcr.tokens - 1 }) (.of_pst rfl) (hlog _)
    · extract_lets n
      split_ifs <;> exact .of_pst rfl

theorem raiseOnce_mram (s : State) (src : Nat) (v : Sev) (syn : List Nat) (test : Bool) : MramKept s (raiseOnce s src v syn test).1 := by
  unfold raiseOnce
  extract_lets r0 first s1 r s2 s3 s4 q p s5
  have h1 : MramKept s s1 := .ite (.of_pst ((faultState_pst ..).trans (capture_pst ..))) (.refl s)
  have h2 : MramKept s1 s2 := .foldl (fun t d => .ite (.of_pst (queueEvt_pst ..)) (.refl t)) s1 _
  have h3 : MramKept s2 s3 := .ite (.of_pst (holdAlert_pst ..)) (.refl s2)
  have h4 : MramKept s3 s4 := .ite (.of_pst (queueCopy_pst ..)) (.refl s3)
  have h5 : MramKept s4 s5 := .ite (.of_pst rfl) (.refl s4)
  have hqueued : MramKept s s5 := (((h1.trans h2).trans h3).trans h4).trans h5
  clear_value s5
  have hlog : MramKept s5 (if (reaches v (s5.rd F.FCR_SRC_LOG_MIN src) || grave v) = true then queueLog s5 r else (s5, none)).1 := by
    split
    · exact queueLog_mram ..
    · exact .refl s5
  split
  next s6 d hs6 =>
    rw [hs6] at hlog
    exact .ite ((hqueued.trans hlog).trans (.of_pst (react_pst ..))) (hqueued.trans hlog)

/-- A raise writes no word at once. -/
theorem raise_mram (s : State) (src : Nat) (v : Sev) (syn : List Nat) : MramKept s (s.raise src v syn) := by
  have h := raiseOnce_mram s src v syn false
  unfold State.raise State.raiseAs
  split
  next u hu =>
    rw [hu] at h
    exact h
  next u cause hu =>
    rw [hu] at h
    have hdrop : MramKept s { u with fcr.lastDrop := some u.now } := h.trans (.of_pst rfl)
    exact .ite (hdrop.trans (raiseOnce_mram ..)) hdrop

/-! ## The power state and the step -/

/-- The power state, the step of a start and the reset pin stay as they are. -/
structure AtStep (s t : State) : Prop where
  pow : t.pck.pow = s.pck.pow
  step : t.pck.step = s.pck.step
  resetLow : t.pck.resetLow = s.pck.resetLow

theorem AtStep.of_pck {s t : State} (h : t.pck = s.pck) : AtStep s t := by
  constructor <;> rw [h]

theorem AtStep.refl (s : State) : AtStep s s := .of_pck rfl

theorem AtStep.trans {s t u : State} (h : AtStep s t) (k : AtStep t u) : AtStep s u :=
  ⟨k.pow.trans h.pow, k.step.trans h.step, k.resetLow.trans h.resetLow⟩

theorem AtStep.ite {s a b : State} {c : Prop} [Decidable c] (ha : AtStep s a) (hb : AtStep s b) : AtStep s (if c then a else b) := by
  split
  · exact ha
  · exact hb

theorem AtStep.foldl {α : Type} {f : State → α → State} (hf : ∀ t x, AtStep t (f t x)) (s : State) (l : List α) : AtStep s (l.foldl f s) :=
  List.foldlRecOn (motive := AtStep s) l f (.refl s) fun t ht x _ => ht.trans (hf t x)

theorem AtStep.wr {s t : State} (h : AtStep s t) (f : Fld) (v i j : Nat) : AtStep s (t.wr f v i j) := h.trans (.of_pck rfl)

theorem AtStep.inc {s t : State} (h : AtStep s t) (f : Fld) (n i j : Nat) : AtStep s (t.inc f n i j) := h.trans (.of_pck rfl)

theorem Beside.atStep {s t : State} (h : Beside s t) : AtStep s t := by
  obtain ⟨-, hpow, hstep, hlow⟩ := h
  exact ⟨hpow, hstep, hlow⟩

theorem AtStep.raiseG {s t : State} (h : AtStep s t) (src : Nat) (v : Sev) (unit value : Nat) : AtStep s (t.raiseG src v unit value) :=
  h.trans (State.raise_reach ..).beside.atStep

theorem AtStep.portPut {s t : State} (h : AtStep s t) (ws : List MWord) : AtStep s (t.portPut ws) := h.trans (portPut_beside ..).atStep

theorem AtStep.putStackWord {s t : State} (h : AtStep s t) (n lo w v : Nat) : AtStep s (t.putStackWord n lo w v) := h.portPut _

/-! ## The scan of the persistent store (R314, R325, R329 to R332) -/

theorem raiseTorn_atStep (s : State) (area idx : Nat) : AtStep s (raiseTorn s area idx) := ((AtStep.refl s).raiseG ..).inc ..

theorem raiseGone_atStep (s : State) (area idx : Nat) : AtStep s (raiseGone s area idx) := ((AtStep.refl s).raiseG ..).inc ..

theorem rewriteWord_atStep (s : State) (idx : Nat) : AtStep s (rewriteWord s idx) := by
  have hevents (t : State) (old new : Nat) : AtStep t (wearEvents t idx old new) := by
    unfold wearEvents
    extract_lets u
    have hu : AtStep t u := .ite ((AtStep.refl t).raiseG ..) (.refl t)
    exact .ite (hu.raiseG ..) hu
  have hwear (n : Nat) : AtStep s (setWear s idx n) := by
    unfold setWear
    extract_lets old n'
    exact AtStep.trans (t := { s with pst.wear := SMap.put s.pst.wear idx 0 n' }) (.of_pck rfl) (hevents ..)
  exact .ite (.refl s) (hwear _)

/-- Fields are written one after another. -/
def writtenAll (s : State) (ws : List (Fld × Nat)) : State := ws.foldl (fun t w => t.wr w.1 w.2) s

theorem writtenAll_regsOnly (s : State) (ws : List (Fld × Nat)) : RegsOnly s (writtenAll s ws) := .foldl (fun t _ => (RegsOnly.refl t).wr ..) s ws

theorem writtenAll_placeKept {k : Nat} (s : State) {ws : List (Fld × Nat)} (h : ∀ f ∈ ws.map Prod.fst, f.at 0 0 ≠ k) : PlaceKept k s (writtenAll s ws) :=
  List.foldlRecOn (motive := PlaceKept k s) ws _ (.refl s) fun _ ht w hw => ht.wr _ (h w.1 (List.mem_map_of_mem hw))

theorem RegsOnly.atStep {s t : State} (h : RegsOnly s t) : AtStep s t := by
  obtain ⟨regs, rfl⟩ := h
  exact .of_pck rfl

/-- The stack words of Table 15.2 with their registers, `LIFE_S` and `BOOTS` apart. -/
def stackWordFields (s : State) : List (Fld × Nat) :=
  let w (n : Nat) : Nat := s.mramAt (pregIdx n)
  [(F.FCR_RECOV_RECOVERIES, w 2), (F.TSV_FOLD_CTL_FR_MODE, bits (w 3) 0 1), (F.TSV_FOLD_CTL_FOLD_AUTO, bits (w 3) 1 1),
    (F.TSV_FOLD_STAT_FSTATE, bits (w 3) 2 3), (F.TSV_FOLD_STAT_FOLDED_CH, bits (w 3) 5 5), (F.TSV_FOLD_PTR_FOLD_PTR, bits (w 4) 0 22),
    (F.MGT_BOOT_BOOT_SLOT, bits (w 5) 0 1), (F.GLB_PLOCK_PLOCK, bits (w 5) 8 8), (F.FCR_LOG_LOG_WEAR, bits (w 5) 16 1), (F.MGT_FWVER_A_VER_A, w 6),
    (F.MGT_FWVER_B_VER_B, w 7), (F.MGT_SVN_SVN_A, bits (w 8) 0 7), (F.MGT_SVN_SVN_B, bits (w 8) 7 7)]

theorem stackWords_eq (s : State) : stackWords s =
    writtenAll ((s.wr F.PST_LIFE_LIFE_S (s.mramAt (pregIdx 0) + s.pst.lifeAon)).wr F.PST_BOOTS_BOOTS (s.mramAt (pregIdx 1))) (stackWordFields s) := rfl

theorem stackWords_regsOnly (s : State) : RegsOnly s (stackWords s) := by
  rw [stackWords_eq]
  exact (((RegsOnly.refl s).wr ..).wr ..).trans (writtenAll_regsOnly ..)

theorem logTorn_atStep (s : State) (e : Nat) : AtStep s (logTorn s e) := by
  unfold logTorn
  extract_lets used
  split
  · exact .refl s
  · exact .ite (raiseGone_atStep ..) (.refl s)
  · exact raiseTorn_atStep ..

/-- The scan of the fault log with its head and next number. -/
def logScanned (s : State) (head next : Nat) : State :=
  (List.range 8192).foldl logTorn (((s.wr F.FCR_LOG_LOG_HEAD head).wr F.FCR_LOG_SEQ_RSEQ_NEXT next).putStackWord 9 0 32 next)

theorem logScanned_atStep (s : State) (head next : Nat) : AtStep s (logScanned s head next) :=
  ((((AtStep.refl s).wr ..).wr ..).putStackWord ..).trans (.foldl logTorn_atStep _ _)

theorem logScan_atStep (s : State) : AtStep s (logScan s) := by
  unfold logScan
  extract_lets best
  clear_value best
  split
  next head next _ => exact logScanned_atStep s head next

/-- A word of the repair map is loaded. -/
def rmapStored (s : State) (k v : Nat) : State :=
  let key := k / 16 * 32 + k % 16 * 2
  { s with tsv.rmap := SMap.put (SMap.put s.tsv.rmap key 0 (rmapDecode (v % 65536))) (key + 1) 0 (rmapDecode (v / 65536 % 65536)) }

theorem rmapStored_atStep (s : State) (k v : Nat) : AtStep s (rmapStored s k v) := .of_pck rfl

theorem rmapLoadWord_eq (s : State) (k : Nat) : rmapLoadWord s k =
    if s.pst.bad.contains (0x0C0000 + k) && s.pst.bad.contains (0x0D0000 + k) then raiseGone (rmapStored s k 0x00010001) 0 k
    else if s.pst.bad.contains (0x0C0000 + k) then raiseTorn (rmapStored s k (s.mramAt (0x0D0000 + k))) 0 k
    else if s.pst.bad.contains (0x0D0000 + k) then raiseTorn (rmapStored s k (s.mramAt (0x0C0000 + k))) 0 k
    else if s.mramAt (0x0C0000 + k) = s.mramAt (0x0D0000 + k) then rmapStored s k (s.mramAt (0x0C0000 + k))
    else (rmapStored s k (s.mramAt (0x0D0000 + k))).portPut
      [{ cls := 1, idx := 0x0C0000 + k, mask := 2 ^ 32 - 1, val := s.mramAt (0x0D0000 + k), act := .none }] := rfl

theorem rmapLoadWord_atStep (s : State) (k : Nat) : AtStep s (rmapLoadWord s k) := by
  have hstored (v : Nat) : AtStep s (rmapStored s k v) := rmapStored_atStep ..
  rw [rmapLoadWord_eq]
  exact .ite ((hstored _).trans (raiseGone_atStep ..)) (.ite ((hstored _).trans (raiseTorn_atStep ..)) (.ite ((hstored _).trans (raiseTorn_atStep ..))
    (.ite (hstored _) ((hstored _).portPut _))))

theorem rmapDoubles_atStep (s : State) : AtStep s (rmapDoubles s) := by
  unfold rmapDoubles
  extract_lets doubled
  refine .foldl (fun u e => ?_) s _
  extract_lets ch bank
  have hu : AtStep u { u with tsv.rmap := SMap.put u.tsv.rmap e.1 0 1 } := .of_pck rfl
  exact hu.portPut _

theorem rmapLoad_atStep (s : State) : AtStep s (rmapLoad s) := by
  have hempty : AtStep s { s with tsv.rmap := [] } := .of_pck rfl
  unfold rmapLoad
  extract_lets inMap used
  exact (hempty.trans (.foldl rmapLoadWord_atStep _ _)).trans (rmapDoubles_atStep _)

/-- A channel's record is shown in its registers (R331). -/
def retireShown (s : State) (ch : Nat) (w : Nat → Nat) : State :=
  let s := ((s.wr F.TSV_PHY_DEAD0_PHY_DEAD (w 1) ch).wr F.TSV_PHY_DEAD1_PHY_DEAD (w 2) ch).wr F.TSV_PHY_DEAD2_PHY_DEAD (w 3) ch
  let s := (s.wr F.TSV_CA_CA_DEAD (bits (w 4) 0 26) ch).wr F.TSV_CA_STB_DEAD (bits (w 4) 26 5) ch
  ((s.wr F.TSV_STAT_DFAIL (bits (w 5) 0 3) ch).wr F.TSV_STAT_CA_SPARES (bits (w 5) 3 2) ch).wr F.TSV_STAT_STB_SPARE (bits (w 5) 5 1) ch

theorem retireShown_atStep (s : State) (ch : Nat) (w : Nat → Nat) : AtStep s (retireShown s ch w) :=
  ((((((((AtStep.refl s).wr ..).wr ..).wr ..).wr ..).wr ..).wr ..).wr ..).wr ..

theorem retireLoad_atStep (s : State) (ch : Nat) : AtStep s (retireLoad s ch) := by
  unfold retireLoad
  extract_lets ok0 ok1
  clear_value ok0 ok1
  split
  · exact raiseGone_atStep ..
  next k _ =>
    have hshown : AtStep s (retireShown s ch fun j => s.mramAt (retireIdx ch k + j)) := retireShown_atStep ..
    exact .ite hshown ((hshown.trans (raiseTorn_atStep ..)).portPut _)

/-- The codes in use are those that `f` gives. -/
def calCodesPut (s : State) (f : Nat → Nat) : State := calCodes.zipIdx.foldl (fun t e => t.wr e.1.fld (f e.2) e.1.idx) s

theorem calCodesPut_atStep (s : State) (f : Nat → Nat) : AtStep s (calCodesPut s f) := .foldl (fun u _ => (AtStep.refl u).wr ..) s _

/-- The engine knows whether the store held codes. -/
def calKnown (s : State) (stored : Bool) : State := { s with cst.stored := stored, cst.last := s.rd F.PST_LIFE_LIFE_S }

theorem calKnown_atStep (s : State) (stored : Bool) : AtStep s (calKnown s stored) := .of_pck rfl

/-- The codes of copy `c` of the store, with its count and time. -/
def calRestored (s : State) (c : Nat) : State :=
  ((calCodesPut (calKnown s true) fun j => s.mramAt (calIdx c + (j + 1))).wr F.CST_CAL_CNT_CAL_COUNT (s.mramAt (calIdx c + (calCodes.length + 2)))).wr
    F.CST_CAL_TIME_CAL_TIME (s.mramAt (calIdx c + (calCodes.length + 3)))

theorem calRestored_atStep (s : State) (c : Nat) : AtStep s (calRestored s c) :=
  (((calKnown_atStep s true).trans (calCodesPut_atStep ..)).wr ..).wr ..

theorem calLoad_atStep (s : State) : AtStep s (calLoad s) := by
  unfold calLoad
  extract_lets load
  split
  next c _ =>
    have hrestored : AtStep s (calRestored s c) := calRestored_atStep ..
    exact .ite (((hrestored.raiseG ..).inc ..).portPut _) hrestored
  · have htrimmed : AtStep s (calCodesPut (calKnown s false) Config.trim) := (calKnown_atStep s false).trans (calCodesPut_atStep ..)
    exact (htrimmed.raiseG ..).inc ..

/-- The scan leaves the power state and the step of the boot. -/
theorem storeScan_atStep (weak gone : List Nat) (s : State) : AtStep s (storeScan weak gone s) := by
  have hbad : AtStep s { s with pst.bad := gone } := .of_pck rfl
  unfold storeScan
  extract_lets _ u
  have hu : AtStep s u := hbad.trans (.foldl rewriteWord_atStep _ _)
  clear_value u
  have hlog : AtStep s (logScan (stackWords u)) := (hu.trans (stackWords_regsOnly u).atStep).trans (logScan_atStep _)
  generalize logScan (stackWords u) = v at hlog
  have hmap : AtStep s (channels.foldl retireLoad (rmapLoad v)) := (hlog.trans (rmapLoad_atStep v)).trans (.foldl retireLoad_atStep _ _)
  exact hmap.trans (calLoad_atStep _)

end Sys2Proof.Machine


/-! SUPPORT. The release of power-on reset (R335 to R337, Table 17.1): the fuses, the count of boots, and the hold. -/

namespace Sys2Proof.Machine

theorem maskOf_lt {l : List Nat} {n : Nat} (h : ∀ x ∈ l, x < n) : maskOf l < 2 ^ n := by
  refine Nat.lt_pow_two_of_testBit _ fun i hi => ?_
  rw [← bit_eq_testBit, bit_maskOf]
  refine Bool.eq_false_iff.2 fun hc => ?_
  exact absurd (h i (List.contains_iff_mem.1 hc)) (Nat.not_lt.2 hi)

/-! ## The fuses -/

/-- A row of fuses is in its latches. -/
def rowLatched (s : State) (row : Nat) (f : Nat → Nat) : State :=
  (List.range 4).foldl (fun t j => { t with pst.latch := SMap.put t.pst.latch (4 * row + j) 0 (f j) }) s

/-- What a read of the fuses leaves: the power state and the step, and the words of MRAM. -/
structure FusesReading (s t : State) : Prop where
  step : AtStep s t
  words : MramKept s t

theorem FusesReading.refl (s : State) : FusesReading s s := ⟨.refl s, .refl s⟩

theorem FusesReading.trans {s t u : State} (h : FusesReading s t) (k : FusesReading t u) : FusesReading s u :=
  ⟨h.step.trans k.step, h.words.trans k.words⟩

theorem FusesReading.raiseG {s t : State} (h : FusesReading s t) (src : Nat) (v : Sev) (unit value : Nat) : FusesReading s (t.raiseG src v unit value) :=
  ⟨h.step.raiseG .., h.words.trans (raise_mram ..)⟩

theorem FusesReading.of_regs {s t : State} (h : RegsOnly s t) : FusesReading s t := by
  obtain ⟨regs, rfl⟩ := h
  exact ⟨.of_pck rfl, .of_pst rfl⟩

theorem rowLatched_reading (s : State) (row : Nat) (f : Nat → Nat) : FusesReading s (rowLatched s row f) :=
  List.foldlRecOn (motive := FusesReading s) _ _ (.refl s) fun _ ht _ _ => ⟨ht.step.trans (.of_pck rfl), ⟨ht.words.words⟩⟩

theorem latchRow_eq (weak weakSpare : Nat → Bool) (redir : List (Nat × Nat)) (s : State) (bad : List Nat) (row : Nat) :
    latchRow weak weakSpare redir (s, bad) row =
      if !weak row then (rowLatched s row fun j => fuseCell s (4 * row + j), bad)
      else match (redir.find? fun e => e.2 == row && !weakSpare e.1).map (·.1) with
        | some k => ((rowLatched s row fun j => spareCell s k row j).raiseG 255 .warn row 3, bad)
        | none => ((rowLatched s row fun j => fuseCell s (4 * row + j)).raiseG 255 .warn row 1, bad ++ [row]) := rfl

/-- A row is latched; without a marginal row none fails. -/
theorem latchRow_spec (weak weakSpare : Nat → Bool) (redir : List (Nat × Nat)) (s : State) (bad : List Nat) (row : Nat) :
    FusesReading s (latchRow weak weakSpare redir (s, bad) row).1 ∧ (weak row = false → (latchRow weak weakSpare redir (s, bad) row).2 = bad) := by
  have hput (f : Nat → Nat) : FusesReading s (rowLatched s row f) := rowLatched_reading ..
  rw [latchRow_eq]
  split
  next hgood =>
    dsimp only
    exact ⟨hput _, fun _ => rfl⟩
  next hweak =>
    have hmarginal : weak row ≠ false := by simpa using hweak
    split <;> dsimp only
    · exact ⟨(hput _).raiseG .., fun h => absurd h hmarginal⟩
    · exact ⟨(hput _).raiseG .., fun h => absurd h hmarginal⟩

/-- The array is latched, row by row. -/
def rowsLatched (weak weakSpare : Nat → Bool) (s : State) : State × List Nat :=
  (List.range 128).foldl (latchRow weak weakSpare (redirTable s weak)) ({ s with pst.redir := redirTable s weak }, [])

theorem rowsLatched_spec (weak weakSpare : Nat → Bool) (s : State) : FusesReading s (rowsLatched weak weakSpare s).1 ∧
    ((∀ row, weak row = false) → (rowsLatched weak weakSpare s).2 = []) := by
  have hstart : FusesReading s { s with pst.redir := redirTable s weak } := ⟨.of_pck rfl, ⟨rfl⟩⟩
  refine List.foldlRecOn (motive := fun acc : State × List Nat => FusesReading s acc.1 ∧ ((∀ row, weak row = false) → acc.2 = [])) _ _
    ⟨hstart, fun _ => rfl⟩
    fun acc hacc row _ => ?_
  obtain ⟨hkept, hbad⟩ := hacc
  obtain ⟨hrow, hgood⟩ := latchRow_spec weak weakSpare (redirTable s weak) acc.1 acc.2 row
  exact ⟨hkept.trans hrow, fun h => (hgood (h row)).trans (hbad h)⟩

/-- The regions that fail: `rows` by a row, and those whose digest does not match. -/
def failedByRow (bad : List Nat) : List Nat := (List.range 9).filter fun r => bad.any fun row => fuseRegion (4 * row) == some r

/-- The locked regions whose marker or check word does not hold. -/
def failedByDigest (s : State) : List Nat := lockable.filter fun r => bit (fuseLatch s 116) r && !fuseComplete s r

/-- The events of the regions whose digest fails. -/
def digestsRaised (s : State) (regions : List Nat) : State :=
  regions.foldl (fun t r => t.raiseG 255 .warn ((fuseRows r).1 + (fuseRows r).2 - 1) 4) s

/-- The failed regions and the counts of a read of the fuses. -/
def fusesShown (s : State) (all marginal spares : Nat) : State :=
  ((s.wr F.PST_FUSE_STAT_FFAIL all).wr F.PST_FUSE_STAT_FMARG (min 255 marginal)).wr F.PST_FUSE_STAT_FSPARE spares

/-- The checks that follow the latching of the array, and what they show (R335, R336). -/
def fusesChecked (marginal spares : Nat) (r : State × List Nat) : State × Nat :=
  let t := r.1.wr F.PST_FUSE_STAT_FFAIL (maskOf (failedByRow r.2))
  let all := maskOf (failedByRow r.2 ++ failedByDigest t)
  (fusesShown (digestsRaised t (failedByDigest t)) all marginal spares, if r.2.isEmpty then all else all + 512)

theorem fuseRead_eq (weak weakSpare : Nat → Bool) (s : State) : fuseRead weak weakSpare s =
    fusesChecked ((List.range 128).filter weak).length (redirTable s weak).length (rowsLatched weak weakSpare s) := by
  unfold fuseRead
  extract_lets redir
  generalize hr : List.foldl (latchRow weak weakSpare redir) _ (List.range 128) = r
  rw [show rowsLatched weak weakSpare s = r from hr]
  obtain ⟨t, bad⟩ := r
  rfl

/-- The checks show the failed regions; when every row is good they are the answer. -/
theorem fusesChecked_spec (marginal spares : Nat) (r : State × List Nat) : FusesReading r.1 (fusesChecked marginal spares r).1 ∧
    (r.2 = [] → (fusesChecked marginal spares r).2 = (fusesChecked marginal spares r).1.rd F.PST_FUSE_STAT_FFAIL) := by
  have hlock : ∀ x ∈ lockable, x < 9 := by decide
  unfold fusesChecked
  extract_lets t all
  have ht : FusesReading r.1 t := .of_regs ((RegsOnly.refl _).wr ..)
  have hdigests : FusesReading r.1 (digestsRaised t (failedByDigest t)) :=
    List.foldlRecOn (motive := FusesReading r.1) _ _ ht fun _ hu _ _ => hu.raiseG ..
  have hregion : ∀ x ∈ failedByRow r.2 ++ failedByDigest t, x < 9 := by
    intro x hx
    rcases List.mem_append.1 hx with h | h
    · exact List.mem_range.1 (List.mem_filter.1 h).1
    · exact hlock x (List.mem_filter.1 h).1
  refine ⟨hdigests.trans (.of_regs ((((RegsOnly.refl _).wr ..).wr ..).wr ..)), fun h => ?_⟩
  have hall : all % 2 ^ 9 = all := Nat.mod_eq_of_lt (maskOf_lt hregion)
  dsimp only
  rw [h]
  unfold fusesShown
  rw [State.rd_wr_ne _ _ _ _ _ _ _ _ (at_ne_of_key (by decide) _ _), State.rd_wr_ne _ _ _ _ _ _ _ _ (at_ne_of_key (by decide) _ _), State.rd_wr_same]
  exact hall.symm

/-- A read of the fuses shows the failed regions; with no marginal row they are the read's answer. -/
theorem fuseRead_spec (weak weakSpare : Nat → Bool) (s : State) : FusesReading s (fuseRead weak weakSpare s).1 ∧
    ((∀ row, weak row = false) → (fuseRead weak weakSpare s).2 = (fuseRead weak weakSpare s).1.rd F.PST_FUSE_STAT_FFAIL) := by
  obtain ⟨hkept, hgood⟩ := rowsLatched_spec weak weakSpare s
  rw [fuseRead_eq]
  obtain ⟨hchecked, hshown⟩ := fusesChecked_spec ((List.range 128).filter weak).length (redirTable s weak).length (rowsLatched weak weakSpare s)
  exact ⟨hkept.trans hchecked, fun h => hshown (hgood h)⟩

end Sys2Proof.Machine


/-! SUPPORT. The first steps of a cold boot: COLD_BOOT and the release of power-on reset (R352, R353, Table 17.1). -/

namespace Sys2Proof.Machine

/-! ## The registers that the fuses show -/

section
variable (raised : Nat) (s : State)

/-- Identity and the service link's vendor, as fused. -/
def fusedIds : State :=
  let w := fuseLatch s
  let s := (List.range 4).foldl (fun t k => t.wr F.GLB_SERIAL_SERIAL (w k) k) s
  let s := ((s.wr F.GLB_ID_JREV (bits (w 4) 0 8)).wr F.GLB_ID_CREV (bits (w 4) 8 8)).wr F.GLB_ID_DREV (bits (w 4) 16 8)
  s.wr F.SVC_USB_ID_VID (bits (w 5) 0 16)

theorem fuseShow_eq : ∃ svn key, fuseShow raised s = showLocks (((fusedIds s).wr F.MGT_SVN_SVN_FUSE svn).wr F.SVC_AUTH_STAT_KEY_SRC key) := ⟨_, _, rfl⟩

theorem fusedIds_regsOnly : RegsOnly s (fusedIds s) := by
  have hserial : RegsOnly s ((List.range 4).foldl (fun t k => t.wr F.GLB_SERIAL_SERIAL (fuseLatch s k) k) s) :=
    .foldl (fun t k => (RegsOnly.refl t).wr ..) s _
  exact (((hserial.wr ..).wr ..).wr ..).wr ..

theorem fusedIds_placeKept {k : Nat} (h : ∀ f ∈ [F.GLB_SERIAL_SERIAL, F.GLB_ID_JREV, F.GLB_ID_CREV, F.GLB_ID_DREV, F.SVC_USB_ID_VID], ∀ i,
    i < 4 → f.at i 0 ≠ k) :
    PlaceKept k s (fusedIds s) := by
  have hone (f : Fld) (hf : f ∈ [F.GLB_SERIAL_SERIAL, F.GLB_ID_JREV, F.GLB_ID_CREV, F.GLB_ID_DREV, F.SVC_USB_ID_VID]) : f.at 0 0 ≠ k := h f hf 0 (by omega)
  have hserial : PlaceKept k s ((List.range 4).foldl (fun t k => t.wr F.GLB_SERIAL_SERIAL (fuseLatch s k) k) s) :=
    List.foldlRecOn (motive := PlaceKept k s) _ _ (.refl s) fun _ ht i hi => ht.wr _ (h _ (by simp) i (List.mem_range.1 hi))
  exact (((hserial.wr _ (hone F.GLB_ID_JREV (by simp))).wr _ (hone F.GLB_ID_CREV (by simp))).wr _ (hone F.GLB_ID_DREV (by simp))).wr _
    (hone F.SVC_USB_ID_VID (by simp))

theorem fuseShow_regsOnly : RegsOnly s (fuseShow raised s) := by
  obtain ⟨svn, key, heq⟩ := fuseShow_eq raised s
  rw [heq]
  exact (((fusedIds_regsOnly s).wr ..).wr ..).wr ..

theorem fuseShow_ffail : (fuseShow raised s).rd F.PST_FUSE_STAT_FFAIL = s.rd F.PST_FUSE_STAT_FFAIL := by
  obtain ⟨svn, key, heq⟩ := fuseShow_eq raised s
  have hids : PlaceKept (F.PST_FUSE_STAT_FFAIL.at 0 0) s (fusedIds s) := fusedIds_placeKept s (by decide)
  rw [heq]
  exact (((hids.wr (f := F.MGT_SVN_SVN_FUSE) (i := 0) (j := 0) svn (by decide)).wr (f := F.SVC_AUTH_STAT_KEY_SRC) (i := 0) (j := 0) key (by decide)).wr
    (f := F.PST_FUSE_LOCKS_FLOCKED) (i := 0) (j := 0) _ (by decide)).rd

end

/-! ## The release of power-on reset -/

/-- The boot policy: as fused, or enforced when its region failed. -/
def bootPolicy (r : State × Nat) : Bool := if bit r.2 2 then true else bit (fuseLatch r.1 64) 0

/-- After a read `r` of the fuses, they and the stack words appear in their registers. -/
def fusesTaken (raised : Nat) (r : State × Nat) : State := stackWords (fuseShow raised (r.1.wr F.PST_FUSE_STAT_POLICY (b2n (bootPolicy r))))

/-- The number of boots, with this one. -/
def bootsNow (s : State) : Nat := min (s.rd F.PST_BOOTS_BOOTS + 1) (2 ^ 32 - 1)

/-- The boot is counted. -/
def bootCounted (s : State) : State := (s.wr F.PST_BOOTS_BOOTS (bootsNow s)).putStackWord 1 0 32 (bootsNow s)

/-- The store is scanned, and the count of boots stands. -/
def bootScanned (weak gone : List Nat) (boots : Nat) (s : State) : State := (storeScan weak gone s).wr F.PST_BOOTS_BOOTS boots

/-- The boot goes on: to step 4, or to step 3 while the reset pin is low. -/
def bootGoesOn (s : State) : State := if s.pck.resetLow then { s with pck.step := 3 } else bistBegin s

/-- The release after a read `r` of the fuses. -/
def releasedWith (raised : Nat) (testEn : Bool) (weak gone : List Nat) (r : State × Nat) : State :=
  if testEn ∨ (bootPolicy r ∧ r.2 ≠ 0) then { bootCounted (fusesTaken raised r) with pck.pow := .hold, pck.step := 0 }
  else bootGoesOn (bootScanned weak gone (bootsNow (fusesTaken raised r)) (bootCounted (fusesTaken raised r)))

/-- The read of the fuses at the release. -/
def fusesAtRelease (weakRows weakSpares : List Nat) (testEn : Bool) (s : State) : State × Nat :=
  fuseRead (weakRows.contains ·) (weakSpares.contains ·) { tapReset s with pck.test := testEn }

theorem powerOnRelease_eq {s : State} (weakRows weakSpares : List Nat) (raised : Nat) (testEn : Bool) (weak gone : List Nat)
    (hpow : s.pck.pow = .boot) (hstep : s.pck.step = 2) (hclk : s.pck.refclk = true) :
    powerOnRelease weakRows weakSpares raised testEn weak gone s = releasedWith raised testEn weak gone (fusesAtRelease weakRows weakSpares testEn s) := by
  unfold powerOnRelease
  rw [if_neg (by simp [hpow, hstep, hclk])]
  generalize hr : fuseRead _ _ _ = r
  rw [show fusesAtRelease weakRows weakSpares testEn s = r from hr]
  obtain ⟨t, failed⟩ := r
  unfold releasedWith bootGoesOn bootScanned bootCounted bootsNow fusesTaken bootPolicy
  dsimp only

theorem fusesTaken_regsOnly (raised : Nat) (r : State × Nat) : RegsOnly r.1 (fusesTaken raised r) :=
  (((RegsOnly.refl r.1).wr ..).trans (fuseShow_regsOnly ..)).trans (stackWords_regsOnly _)

theorem stackWords_boots (s : State) : (stackWords s).rd F.PST_BOOTS_BOOTS = s.mramAt (pregIdx 1) % 2 ^ 32 := by
  have hrest : ∀ f ∈ (stackWordFields s).map Prod.fst, f.at 0 0 ≠ F.PST_BOOTS_BOOTS.at 0 0 := by
    show ∀ f ∈ _, _
    simp only [stackWordFields, List.map_cons, List.map_nil]
    decide
  rw [stackWords_eq, (writtenAll_placeKept _ hrest).rd, State.rd_wr_same]
  rfl

theorem stackWords_ffail (s : State) : (stackWords s).rd F.PST_FUSE_STAT_FFAIL = s.rd F.PST_FUSE_STAT_FFAIL := by
  have hrest : ∀ f ∈ (stackWordFields s).map Prod.fst, f.at 0 0 ≠ F.PST_FUSE_STAT_FFAIL.at 0 0 := by
    simp only [stackWordFields, List.map_cons, List.map_nil]
    decide
  rw [stackWords_eq, (writtenAll_placeKept _ hrest).rd, State.rd_wr_ne _ _ _ _ _ _ _ _ (at_ne_of_key (by decide) _ _),
    State.rd_wr_ne _ _ _ _ _ _ _ _ (at_ne_of_key (by decide) _ _)]

/-- The registers as the count of boots leaves them. -/
theorem bootCounted_rd (s : State) (f : Fld) : (bootCounted s).rd f = (s.wr F.PST_BOOTS_BOOTS (bootsNow s)).rd f := by
  obtain ⟨pst, heq⟩ := (s.wr F.PST_BOOTS_BOOTS (bootsNow s)).putStackWord_eq 1 0 32 (bootsNow s)
  rw [bootCounted, heq]
  rfl

theorem bootsNow_mod (s : State) : bootsNow s % 2 ^ 32 = bootsNow s := Nat.mod_eq_of_lt (by unfold bootsNow; omega)

/-- Self-test, and the wait for the reset pin, leave the count of boots. -/
theorem bootGoesOn_boots (s : State) : (bootGoesOn s).rd F.PST_BOOTS_BOOTS = s.rd F.PST_BOOTS_BOOTS := by
  have hbegun : PlaceKept (F.PST_BOOTS_BOOTS.at 0 0) s (bistBegin s) :=
    ((((PlaceKept.refl s).wr (f := F.CST_BIST_STAT_BIST_FAIL) (i := 0) (j := 0) 0 (by decide)).wr (f := F.CST_BIST_STAT_BIST_RERUN) (i := 0) (j := 0) 0
      (by decide)).wr (f := F.CST_BIST_DET_DET_BLK) (i := 0) (j := 0) 7 (by decide)).wr (f := F.CST_BIST_DET_DET_ELEM) (i := 0) (j := 0) 0 (by decide)
  unfold bootGoesOn
  split
  · rfl
  · exact hbegun.rd

theorem bootGoesOn_step (s : State) : (bootGoesOn s).pck.pow = s.pck.pow ∧ (bootGoesOn s).pck.step = if s.pck.resetLow then 3 else 4 := by
  unfold bootGoesOn
  split
  · exact ⟨rfl, rfl⟩
  · exact ⟨rfl, rfl⟩

theorem bootScanned_boots (weak gone : List Nat) (boots : Nat) (s : State) : (bootScanned weak gone boots s).rd F.PST_BOOTS_BOOTS = boots % 2 ^ 32 :=
  State.rd_wr_same ..

theorem bootScanned_atStep (weak gone : List Nat) (boots : Nat) (s : State) : AtStep s (bootScanned weak gone boots s) := (storeScan_atStep ..).wr ..

/-- The release of power-on reset. -/
theorem powerOnRelease_spec {s : State} (weakRows weakSpares : List Nat) (raised : Nat) (testEn : Bool) (weak gone : List Nat)
    (hpow : s.pck.pow = .boot) (hstep : s.pck.step = 2) (hclk : s.pck.refclk = true) :
    (powerOnRelease weakRows weakSpares raised testEn weak gone s).rd F.PST_BOOTS_BOOTS = min (s.mramAt (pregIdx 1) % 2 ^ 32 + 1) (2 ^ 32 - 1) ∧
    (testEn = true → (powerOnRelease weakRows weakSpares raised testEn weak gone s).pck.pow = .hold) ∧
    (testEn = false → weakRows = [] → (powerOnRelease weakRows weakSpares raised testEn weak gone s).rd F.PST_FUSE_STAT_FFAIL = 0 →
      (powerOnRelease weakRows weakSpares raised testEn weak gone s).pck.pow = .boot ∧
      (powerOnRelease weakRows weakSpares raised testEn weak gone s).pck.step = (if s.pck.resetLow then 3 else 4)) := by
  rw [powerOnRelease_eq weakRows weakSpares raised testEn weak gone hpow hstep hclk]
  obtain ⟨hread, hgood⟩ := fuseRead_spec (weakRows.contains ·) (weakSpares.contains ·) { tapReset s with pck.test := testEn }
  have hkept : FusesReading s (fusesAtRelease weakRows weakSpares testEn s).1 :=
    FusesReading.trans (t := { tapReset s with pck.test := testEn }) ⟨⟨rfl, rfl, rfl⟩, ⟨rfl⟩⟩ hread
  have hfailed : weakRows = [] → (fusesAtRelease weakRows weakSpares testEn s).2 = (fusesAtRelease weakRows weakSpares testEn s).1.rd F.PST_FUSE_STAT_FFAIL :=
    fun h => hgood fun row => by simp [h]
  generalize fusesAtRelease weakRows weakSpares testEn s = r at hkept hfailed ⊢
  have htaken : FusesReading s (fusesTaken raised r) := hkept.trans (.of_regs (fusesTaken_regsOnly raised r))
  have hboots : bootsNow (fusesTaken raised r) = min (s.mramAt (pregIdx 1) % 2 ^ 32 + 1) (2 ^ 32 - 1) := by
    rw [bootsNow, fusesTaken, stackWords_boots, (hkept.words.trans (FusesReading.of_regs (((RegsOnly.refl r.1).wr ..).trans (fuseShow_regsOnly ..))).words).mramAt]
  have hffail : (bootCounted (fusesTaken raised r)).rd F.PST_FUSE_STAT_FFAIL = r.1.rd F.PST_FUSE_STAT_FFAIL := by
    rw [bootCounted_rd, State.rd_wr_ne _ _ _ _ _ _ _ _ (at_ne_of_key (by decide) _ _), fusesTaken, stackWords_ffail, fuseShow_ffail,
      State.rd_wr_ne _ _ _ _ _ _ _ _ (at_ne_of_key (by decide) _ _)]
  have hcounted : AtStep s (bootCounted (fusesTaken raised r)) := (htaken.step.wr ..).putStackWord ..
  have hscanned : AtStep s (bootScanned weak gone (bootsNow (fusesTaken raised r)) (bootCounted (fusesTaken raised r))) :=
    hcounted.trans (bootScanned_atStep ..)
  obtain ⟨hgoes, hat⟩ := bootGoesOn_step (bootScanned weak gone (bootsNow (fusesTaken raised r)) (bootCounted (fusesTaken raised r)))
  unfold releasedWith
  split
  next hhold =>
    refine ⟨?_, fun _ => rfl, fun hte hrows hzero => ?_⟩
    · rw [← hboots, ← bootsNow_mod]
      show (bootCounted (fusesTaken raised r)).rd F.PST_BOOTS_BOOTS = _
      rw [bootCounted_rd, State.rd_wr_same]
      rfl
    · obtain ⟨-, hfail⟩ := hhold.resolve_left (by simp [hte])
      exact absurd ((hfailed hrows).trans (hffail.symm.trans hzero)) hfail
  next hon =>
    refine ⟨?_, fun hte => absurd (.inl hte) hon, fun _ _ _ => ⟨hgoes.trans (hscanned.pow.trans hpow), ?_⟩⟩
    · rw [bootGoesOn_boots, bootScanned_boots, bootsNow_mod, hboots]
    · rw [hat, hscanned.resetLow]

/-! ## COLD_BOOT -/

theorem bootState_spec (s : State) : (bootState s).pck.pow = .boot ∧ (bootState s).pck.step = 2 ∧ (bootState s).mem = [] ∧
    (bootState s).pst.mram = s.pst.mram ∧ (bootState s).now = s.now ∧ (bootState s).pending = s.pending := by
  unfold bootState
  extract_lets
  split
  · exact ⟨rfl, rfl, rfl, rfl, rfl, rfl⟩
  · exact ⟨rfl, rfl, rfl, rfl, rfl, rfl⟩

/-- A cold boot out of OFF starts step 2 with nothing in memory. -/
theorem coldBoot_spec {s : State} (hmain : s.pck.mainGood = true) (hoff : s.pck.pow = .off) (hshut : s.thm.shut = none)
    (hwake : s.pck.offReq = false ∨ s.pck.wake = some 3) : (coldBoot s).pck.pow = .boot ∧ (coldBoot s).pck.step = 2 ∧ (coldBoot s).mem = [] ∧
    (coldBoot s).pst.mram = s.pst.mram ∧ (coldBoot s).now = s.now ∧ (coldBoot s).pending = s.pending ∧ (coldBoot s).on F.PCK_STAT_VBKP_OK = true := by
  obtain ⟨hpow, hstep, hmem, hmram, hnow, hpending⟩ := bootState_spec s
  have hstays : ¬ (s.pck.pow ≠ .off ∨ s.thm.shut.isSome ∨ (s.pck.offReq ∧ s.pck.wake ≠ some 3)) := by
    rcases hwake with hreq | hwake
    · simp [hoff, hshut, hreq]
    · simp [hoff, hshut, hwake]
  have heq : coldBoot s = if s.pck.wake = some 3 then ((bootState s).wr F.PCK_STAT_VBKP_OK 1).wr F.PCK_STAT_WAKE_SRC 3
      else (bootState s).wr F.PCK_STAT_VBKP_OK 1 := by
    unfold coldBoot
    simp only [hmain, if_true]
    exact if_neg hstays
  have hvbkp : ((bootState s).wr F.PCK_STAT_VBKP_OK 1).rd F.PCK_STAT_VBKP_OK = 1 := State.rd_wr_same ..
  rw [heq]
  split
  · refine ⟨hpow, hstep, hmem, hmram, hnow, hpending, ?_⟩
    rw [State.on, State.rd_wr_ne _ _ _ _ _ _ _ _ (at_ne_of_key (by decide) _ _), hvbkp]
    rfl
  · refine ⟨hpow, hstep, hmem, hmram, hnow, hpending, ?_⟩
    rw [State.on, hvbkp]
    rfl

theorem coldBoot_elsewhere {s : State} (hmain : s.pck.mainGood = true) (hpow : s.pck.pow ≠ .off) : coldBoot s = s := by
  unfold coldBoot
  simp only [hmain, if_true]
  exact if_pos (.inl hpow)

end Sys2Proof.Machine


/-! SUPPORT. Self-test and the calibration engine (R343 to R348, R357, Table 17.2). -/

namespace Sys2Proof.Machine

/-! ## Lane checkers -/

/-- The pages below HLP hold nothing that a group's loss or a checker writes. -/
theorem apartFromLoss_of_low {k : Nat} (h : k < 4194304) (hevent : raisePlace k = false) : ApartFromLoss k := by
  constructor
  case event => exact hevent
  case turn => exact at_ne_of_above (by decide) h 0 0
  case retrains => exact fun g => at_ne_of_above (by decide) h g 0
  case injected => exact fun g => at_ne_of_above (by decide) h g 0
  case errors => exact fun g l => at_ne_of_above (by decide) h g l
  case check => exact fun g l => at_ne_of_above (by decide) h g l
  case generate => exact fun g l => at_ne_of_above (by decide) h g l
  case lost => exact fun d => at_ne_of_above (by decide) h d 0

theorem takeChecker_on (s : State) (g l owner : Nat) : OnGroup g s (takeChecker s g l owner) := by
  have hgive (t : State) : OnGroup g t (giveChecker t g l owner) := by
    unfold giveChecker
    exact (State.draw_on t g).trans (State.modGrp_on ..)
  exact ((sampleErrors_on s g l).trans (.ite ((State.wr_on ..).trans (State.wr_on ..)) (.refl _ _))).trans (hgive _)

theorem takeCheckers_onGroups (s : State) : OnGroups s (takeCheckers s) := by
  refine List.foldlRecOn (motive := OnGroups s) _ _ (.refl s) fun t ht g _ => ht.trans ?_
  split
  · split
    · exact .refl t
    · exact (takeChecker_on ..).any
  · exact .refl t

theorem freeCheckers_onGroups (s : State) : OnGroups s (freeCheckers s) := by
  refine List.foldlRecOn (motive := OnGroups s) _ _ (.refl s) fun t ht g _ => ht.trans ?_
  refine List.foldlRecOn (motive := OnGroups t) _ _ (.refl t) fun u hu e _ => hu.trans ?_
  split
  · exact (dropChecker_on ..).any
  · exact .refl u

section
variable {k : Nat} (h : k < 4194304) (hevent : raisePlace k = false)
include h hevent

theorem takeCheckers_placeKept (s : State) : PlaceKept k s (takeCheckers s) := by
  refine .foldl (fun t g => ?_) s _
  have hsample (l : Nat) : PlaceKept k t (sampleErrors t g l) := sampleErrors_placeKept (apartFromLoss_of_low h hevent) t g l
  have htaken (l : Nat) (u : State) (hu : PlaceKept k t u) : PlaceKept k t
      (giveChecker (if chkOwner (u.grp g) l = 3 then (u.wr F.HLP_LN_CTL_CHK_ABORT 1 g l).wr F.HLP_LN_CTL_CHK_EN 0 g l else u) g l 2) :=
    PlaceKept.trans (.ite ((hu.wr _ (at_ne_of_above (by decide) h g l)).wr _ (at_ne_of_above (by decide) h g l)) hu) (.of_eq rfl)
  split
  · exact .ite (.refl t) (htaken _ _ (hsample _))
  · exact .refl t

theorem freeCheckers_placeKept (s : State) : PlaceKept k s (freeCheckers s) := by
  refine .foldl (fun t g => .foldl (fun u e => ?_) t _) s _
  exact .ite ((sampleErrors_placeKept (apartFromLoss_of_low h hevent) u g e.1).trans (.of_eq rfl)) (.refl u)

theorem calStart_placeKept (s : State) (mask : Nat) (mbx : Option Nat) (hbusy : F.CST_CAL_STAT_CAL_BUSY.at 0 0 ≠ k) : PlaceKept k s (calStart s mask mbx) :=
  ((PlaceKept.ite (takeCheckers_placeKept h hevent s) (.refl s)).wr 1 hbusy).trans (.of_eq rfl)

end

theorem OnGroups.pck {s t : State} (h : OnGroups s t) : t.pck = s.pck ∧ t.cst = s.cst := by
  obtain ⟨regs, grp, free, rfl⟩ := h
  exact ⟨rfl, rfl⟩

/-- A run starts: its items wait for their end, and nothing of the boot changes. -/
theorem calStart_spec (s : State) (mask : Nat) (mbx : Option Nat) : (calStart s mask mbx).pck = s.pck ∧
    (calStart s mask mbx).cst = { s.cst with run := some (mask, mbx) } := by
  have htaken : OnGroups s (if bit mask 0 then takeCheckers s else s) := by
    split
    · exact takeCheckers_onGroups s
    · exact .refl s
  obtain ⟨hpck, hcst⟩ := htaken.pck
  unfold calStart
  extract_lets u
  refine ⟨hpck, ?_⟩
  show { u.cst with run := some (mask, mbx) } = _
  rw [show u.cst = s.cst from hcst]

/-- The periodic run starts when it is due and none is in progress, and counts from now (R346). -/
theorem periodicCal_spec {s : State} (hrun : s.cst.run = none) (hpow : s.pck.pow = .run ∨ s.pck.pow = .idle) (hmask : s.rd F.CST_CAL_CTL_PER_MASK ≠ 0)
    (hdue : s.cst.last + 3600 * s.rd F.CST_CAL_CTL_CAL_PER ≤ s.rd F.PST_LIFE_LIFE_S) :
    (periodicCal s).cst.run = some (s.rd F.CST_CAL_CTL_PER_MASK, none) ∧ (periodicCal s).cst.last = s.rd F.PST_LIFE_LIFE_S := by
  have heq : periodicCal s = calStart { s with cst.last := s.rd F.PST_LIFE_LIFE_S } (s.rd F.CST_CAL_CTL_PER_MASK) none := by
    unfold periodicCal
    extract_lets mask life
    rw [if_neg (by
      rintro (hzero | hstate | hlater)
      · exact hmask hzero
      · exact hstate hpow
      · exact absurd hdue (Nat.not_le.2 hlater))]
    split
    next m b hsome => exact absurd (hrun.symm.trans hsome) (by simp)
    next => rfl
  obtain ⟨-, hcst⟩ := calStart_spec { s with cst.last := s.rd F.PST_LIFE_LIFE_S } (s.rd F.CST_CAL_CTL_PER_MASK) none
  rw [heq, hcst]
  exact ⟨rfl, rfl⟩

/-! ## The end of a run -/

/-- The engine's reference is off (R343). -/
def referenceBad (res : Nat) : Bool := decide (res < 9950) || decide (10050 < res)

/-- The codes that a run gives, with what they are for. -/
def codesFound (codes : List Nat) : List (CalCode × Nat) := calCodes.zip (codes ++ List.replicate (calCodes.length - codes.length) 0)

/-- The codes that are taken: those of an item of the run that is good, for a group whose checker was free. -/
def codeTaken (mask bad held : Nat) (refBad : Bool) (s : State) (e : CalCode × Nat) : State :=
  if refBad || !bit mask e.1.item || bit bad e.1.item || (e.1.item == 0 && bit held e.1.idx) then s else s.wr e.1.fld e.2 e.1.idx

/-- What a run finds: the codes taken, the failed items with their cause, their events, and the count. -/
def runFound (codes : List Nat) (mask bad held failed cause : Nat) (refBad : Bool) (s : State) : State :=
  let s := (codesFound codes).foldl (codeTaken mask bad held refBad) s
  let s := (s.wr F.CST_CAL_STAT_CAL_FAILED failed).wr F.CST_CAL_STAT_CAL_CAUSE (if refBad then 1 else cause)
  let s := if refBad then s else (onesOf bad 5).foldl (fun t i => t.raiseG 276 .warn i 0) s
  (s.inc F.CST_CAL_CNT_CAL_COUNT).wr F.CST_CAL_TIME_CAL_TIME (s.rd F.PST_LIFE_LIFE_S)

theorem calEnd_eq {s : State} (res : Nat) (codes : List Nat) (good held mask : Nat) (mbx : Option Nat) (hrun : s.cst.run = some (mask, mbx)) :
    ∃ bad failed cause, calEnd res codes good held s =
      calStore (runFound codes mask bad held failed cause (referenceBad res) (calFree (s.wr F.CST_CAL_STAT_RES_MEAS res))) mask mbx := by
  unfold calEnd
  simp only [hrun]
  exact ⟨_, _, _, rfl⟩

/-! ### What a run leaves -/

/-- The engine's codes lie above its status. -/
theorem calCodes_above : ∀ c ∈ calCodes, 2621568 ≤ c.fld.key := by decide

theorem codeTaken_regsOnly (mask bad held : Nat) (refBad : Bool) (s : State) (e : CalCode × Nat) : RegsOnly s (codeTaken mask bad held refBad s e) :=
  .ite (.refl s) ((RegsOnly.refl s).wr ..)

theorem codesTaken_placeKept {k : Nat} (h : k < 2621568) (codes : List Nat) (mask bad held : Nat) (refBad : Bool) (s : State) :
    PlaceKept k s ((codesFound codes).foldl (codeTaken mask bad held refBad) s) := by
  refine List.foldlRecOn (motive := PlaceKept k s) _ _ (.refl s) fun t ht e he => ht.trans ?_
  have hcode : e.1 ∈ calCodes := (List.of_mem_zip he).1
  exact .ite (.refl t) ((PlaceKept.refl t).wr _ (at_ne_of_above (calCodes_above e.1 hcode) h e.1.idx 0))

/-- With a bad reference no code is taken. -/
theorem codesTaken_refBad (codes : List Nat) (mask bad held : Nat) (s : State) : (codesFound codes).foldl (codeTaken mask bad held true) s = s :=
  List.foldlRecOn (motive := fun t : State => t = s) _ _ rfl fun _ ht _ _ => ht

/-- The events of the failed items. -/
theorem itemsRaised_reach (bad : Nat) (refBad : Bool) (s : State) :
    RaiseReach s (if refBad then s else (onesOf bad 5).foldl (fun t i => t.raiseG 276 .warn i 0) s) :=
  .ite (.refl s) (RaiseReach.foldl _ _ (.refl s) fun _ _ hu => hu.trans (State.raiseG_reach ..))

section
variable (codes : List Nat) (mask bad held failed cause : Nat) (refBad : Bool) (s : State)

theorem runFound_reach : ∃ t, RegsOnly s t ∧ ∃ u, RaiseReach t u ∧ RegsOnly u (runFound codes mask bad held failed cause refBad s) := by
  unfold runFound
  extract_lets t u v
  have ht : RegsOnly s t := .foldl (fun t e => codeTaken_regsOnly ..) s _
  exact ⟨u, (ht.wr ..).wr .., v, itemsRaised_reach .., ((RegsOnly.refl v).wr ..).wr ..⟩

theorem runFound_atStep : AtStep s (runFound codes mask bad held failed cause refBad s) := by
  obtain ⟨t, ht, u, hu, hdone⟩ := runFound_reach codes mask bad held failed cause refBad s
  exact (ht.atStep.trans hu.beside.atStep).trans hdone.atStep

theorem runFound_cst : (runFound codes mask bad held failed cause refBad s).cst = s.cst := by
  obtain ⟨t, ⟨regs, rfl⟩, u, hu, regs', heq⟩ := runFound_reach codes mask bad held failed cause refBad s
  obtain ⟨-, -, -, -, -, -, -, -, -, -, -, -, -, -, -, -, -, hcst, -⟩ := hu.same
  rw [heq]
  exact hcst

/-- The status below the codes, but for the failed items and their cause, stays. -/
theorem runFound_placeKept {k : Nat} (hk : k < 2621568) (hevent : raisePlace k = false)
    (hne : ∀ f ∈ [F.CST_CAL_STAT_CAL_FAILED, F.CST_CAL_STAT_CAL_CAUSE, F.CST_CAL_CNT_CAL_COUNT, F.CST_CAL_TIME_CAL_TIME], f.at 0 0 ≠ k) :
    PlaceKept k s (runFound codes mask bad held failed cause refBad s) := by
  unfold runFound
  extract_lets t u v
  have ht : PlaceKept k s t := codesTaken_placeKept hk ..
  have hu : PlaceKept k s u := (ht.wr _ (hne _ (by simp))).wr _ (hne _ (by simp))
  have hv : PlaceKept k s v := hu.trans ((itemsRaised_reach ..).placeKept hevent)
  exact (hv.inc 1 (hne _ (by simp))).wr _ (hne _ (by simp))

/-- With a bad reference the cause is 1, and no offset of a sensor changes. -/
theorem runFound_refBad : (runFound codes mask bad held failed cause true s).rd F.CST_CAL_STAT_CAL_CAUSE = 1 ∧
    ∀ n, (runFound codes mask bad held failed cause true s).rd F.CST_CAL_TOFS_TOFS n = s.rd F.CST_CAL_TOFS_TOFS n := by
  have heq : runFound codes mask bad held failed cause true s = (((s.wr F.CST_CAL_STAT_CAL_FAILED failed).wr F.CST_CAL_STAT_CAL_CAUSE 1).inc
      F.CST_CAL_CNT_CAL_COUNT).wr F.CST_CAL_TIME_CAL_TIME (((s.wr F.CST_CAL_STAT_CAL_FAILED failed).wr F.CST_CAL_STAT_CAL_CAUSE 1).rd F.PST_LIFE_LIFE_S) := by
    unfold runFound
    rw [codesTaken_refBad]
    rfl
  rw [heq]
  refine ⟨?_, fun n => ?_⟩
  · rw [State.rd_wr_ne _ _ _ _ _ _ _ _ (at_ne_of_key (by decide) _ _), State.rd_inc_ne _ _ _ _ _ _ _ _ (at_ne_of_key (by decide) _ _), State.rd_wr_same]
    rfl
  · have hne (f : Fld) (hf : f.key < 2623488 ∧ f.s1 = 0 ∧ f.s2 = 0) : f.at 0 0 ≠ F.CST_CAL_TOFS_TOFS.at n 0 := by
      obtain ⟨hkey, h1, h2⟩ := hf
      simp only [Fld.at, h1, h2, F.CST_CAL_TOFS_TOFS]
      omega
    exact (((((PlaceKept.refl s).wr _ (hne F.CST_CAL_STAT_CAL_FAILED (by decide))).wr _ (hne F.CST_CAL_STAT_CAL_CAUSE (by decide))).inc 1
      (hne F.CST_CAL_CNT_CAL_COUNT (by decide))).wr _ (hne F.CST_CAL_TIME_CAL_TIME (by decide))).rd

end

theorem calStore_atStep (s : State) (mask : Nat) (mbx : Option Nat) : AtStep s (calStore s mask mbx) ∧ (calStore s mask mbx).regs = s.regs ∧
    (calStore s mask mbx).cst.run = s.cst.run := by
  have hput (t : State) (ws : List MWord) : AtStep t (t.portPut ws) ∧ (t.portPut ws).regs = t.regs ∧ (t.portPut ws).cst.run = t.cst.run := by
    obtain ⟨pst, heq⟩ := t.portPut_eq ws
    rw [heq]
    exact ⟨.of_pck rfl, rfl, rfl⟩
  have hstored : AtStep s { s with cst.store := s.cst.store ++ [(mask, mbx)] } := .of_pck rfl
  have hdone (ws : List MWord) := hput { s with cst.store := s.cst.store ++ [(mask, mbx)] } ws
  unfold calStore
  extract_lets seq vals body body' ws copy
  obtain ⟨hstep, hregs, hrun⟩ := hdone (copy 0 .none ++ copy 1 .calEnd)
  exact ⟨hstored.trans hstep, hregs, hrun⟩

/-- The engine is free once a run has measured its reference. -/
theorem calFree_spec (s : State) (res : BitVec 14) : AtStep s (calFree (s.wr F.CST_CAL_STAT_RES_MEAS res.toNat)) ∧
    (calFree (s.wr F.CST_CAL_STAT_RES_MEAS res.toNat)).cst.run = none ∧
    (calFree (s.wr F.CST_CAL_STAT_RES_MEAS res.toNat)).rd F.CST_CAL_STAT_CAL_BUSY = 0 ∧
    (calFree (s.wr F.CST_CAL_STAT_RES_MEAS res.toNat)).rd F.CST_CAL_STAT_RES_MEAS = res.toNat ∧
    ∀ n, n < 50 → (calFree (s.wr F.CST_CAL_STAT_RES_MEAS res.toNat)).rd F.CST_CAL_TOFS_TOFS n = s.rd F.CST_CAL_TOFS_TOFS n := by
  obtain ⟨hpck, -⟩ := (freeCheckers_onGroups (s.wr F.CST_CAL_STAT_RES_MEAS res.toNat)).pck
  have hkept {k : Nat} (hk : k < 4194304) (hevent : raisePlace k = false) := freeCheckers_placeKept hk hevent (s.wr F.CST_CAL_STAT_RES_MEAS res.toNat)
  unfold calFree
  generalize freeCheckers (s.wr F.CST_CAL_STAT_RES_MEAS res.toNat) = u at hpck hkept ⊢
  have hfreed {k : Nat} (hk : k < 4194304) (hevent : raisePlace k = false) (hne : F.CST_CAL_STAT_CAL_BUSY.at 0 0 ≠ k) :
      PlaceKept k (s.wr F.CST_CAL_STAT_RES_MEAS res.toNat) (u.wr F.CST_CAL_STAT_CAL_BUSY 0) := (hkept hk hevent).wr 0 hne
  have hres : res.toNat % 2 ^ 14 = res.toNat := Nat.mod_eq_of_lt res.isLt
  have hbusy : (u.wr F.CST_CAL_STAT_CAL_BUSY 0).rd F.CST_CAL_STAT_CAL_BUSY = 0 := State.rd_wr_same ..
  refine ⟨.of_pck hpck, rfl, hbusy, ?_, fun n hn => ?_⟩
  · exact ((hfreed (by decide) (by decide) (by decide)).rd.trans (State.rd_wr_same ..)).trans hres
  · have hplace : F.CST_CAL_TOFS_TOFS.at n 0 = 2623488 + 32 * n := by simp [Fld.at, F.CST_CAL_TOFS_TOFS]
    have hevent : raisePlace (F.CST_CAL_TOFS_TOFS.at n 0) = false := by
      rw [hplace]
      simp [raisePlace, Fld.at, F.MGT_QUIESCE_WE_STACK]
      omega
    have hapart (f : Fld) (hf : f.key < 2623488 ∧ f.s1 = 0) : f.at 0 0 ≠ F.CST_CAL_TOFS_TOFS.at n 0 := by
      rw [hplace]
      simp only [Fld.at]
      omega
    exact ((PlaceKept.wr (.refl s) _ (hapart F.CST_CAL_STAT_RES_MEAS (by decide))).trans
      (hfreed (by omega) hevent (hapart F.CST_CAL_STAT_CAL_BUSY (by decide)))).rd

/-- A run ends: the engine is free, its reference is shown, and with a bad one no offset changes. -/
theorem calEnd_spec {s : State} (res : BitVec 14) (codes : List Nat) (good held mask : Nat) (mbx : Option Nat) (hrun : s.cst.run = some (mask, mbx)) :
    AtStep s (calEnd res.toNat codes good held s) ∧ (calEnd res.toNat codes good held s).cst.run = none ∧
    (calEnd res.toNat codes good held s).rd F.CST_CAL_STAT_CAL_BUSY = 0 ∧ (calEnd res.toNat codes good held s).rd F.CST_CAL_STAT_RES_MEAS = res.toNat ∧
    ((res.toNat < 9950 ∨ 10050 < res.toNat) → (calEnd res.toNat codes good held s).rd F.CST_CAL_STAT_CAL_CAUSE = 1 ∧
      ∀ n, n < 50 → (calEnd res.toNat codes good held s).rd F.CST_CAL_TOFS_TOFS n = s.rd F.CST_CAL_TOFS_TOFS n) := by
  obtain ⟨bad, failed, cause, heq⟩ := calEnd_eq res.toNat codes good held mask mbx hrun
  obtain ⟨hstep, hnone, hbusy, hres, htofs⟩ := calFree_spec s res
  generalize calFree (s.wr F.CST_CAL_STAT_RES_MEAS res.toNat) = u at *
  have hcst := runFound_cst codes mask bad held failed cause (referenceBad res.toNat) u
  have hfound := runFound_atStep codes mask bad held failed cause (referenceBad res.toNat) u
  obtain ⟨hstored, hregs, hstill⟩ := calStore_atStep (runFound codes mask bad held failed cause (referenceBad res.toNat) u) mask mbx
  have hrd (f : Fld) (i : Nat) : (calEnd res.toNat codes good held s).rd f i = (runFound codes mask bad held failed cause (referenceBad res.toNat) u).rd f i := by
    rw [heq]
    simp only [State.rd, hregs]
  refine ⟨?_, ?_, ?_, ?_, fun hbad => ?_⟩
  · rw [heq]
    exact (hstep.trans hfound).trans hstored
  · rw [heq, hstill, hcst]
    exact hnone
  · rw [hrd, (runFound_placeKept codes mask bad held failed cause _ u (by decide) (by decide) (by decide)).rd]
    exact hbusy
  · rw [hrd, (runFound_placeKept codes mask bad held failed cause _ u (by decide) (by decide) (by decide)).rd]
    exact hres
  · have href : referenceBad res.toNat = true := by simpa [referenceBad] using hbad
    obtain ⟨hcause, hkept⟩ := runFound_refBad codes mask bad held failed cause u
    simp only [hrd, href]
    exact ⟨hcause, fun n hn => (hkept n).trans (htofs n hn)⟩

/-- The first run of a boot ends its step. -/
theorem calibrationRunEnd_spec {s : State} (res : BitVec 14) (codes : List Nat) (good held mask : Nat) (mbx : Option Nat)
    (hrun : s.cst.run = some (mask, mbx)) :
    (calibrationRunEnd res.toNat codes good held s).cst.run = none ∧ (calibrationRunEnd res.toNat codes good held s).on F.CST_CAL_STAT_CAL_BUSY = false ∧
    (calibrationRunEnd res.toNat codes good held s).rd F.CST_CAL_STAT_RES_MEAS = res.toNat ∧
    (s.pck.pow = .boot → s.pck.step = 50 → (calibrationRunEnd res.toNat codes good held s).pck.step = 51) ∧
    ((res.toNat < 9950 ∨ 10050 < res.toNat) → (calibrationRunEnd res.toNat codes good held s).rd F.CST_CAL_STAT_CAL_CAUSE = 1 ∧
      ∀ n, n < 50 → (calibrationRunEnd res.toNat codes good held s).rd F.CST_CAL_TOFS_TOFS n = s.rd F.CST_CAL_TOFS_TOFS n) := by
  obtain ⟨hstep, hnone, hbusy, hres, hbad⟩ := calEnd_spec res codes good held mask mbx hrun
  have hend : calibrationRunEnd res.toNat codes good held s = if (calEnd res.toNat codes good held s).pck.pow = .boot ∧
      (calEnd res.toNat codes good held s).pck.step = 50 then { calEnd res.toNat codes good held s with pck.step := 51 } else calEnd res.toNat codes good held s :=
    if_neg (by simp [hrun])
  generalize calEnd res.toNat codes good held s = u at *
  have hidle : u.on F.CST_CAL_STAT_CAL_BUSY = false := by
    rw [State.on, hbusy]
    rfl
  rw [hend]
  split
  next => exact ⟨hnone, hidle, hres, fun _ _ => rfl, hbad⟩
  next hlater => exact ⟨hnone, hidle, hres, fun hpow hat => absurd ⟨hstep.pow.trans hpow, hstep.step.trans hat⟩ hlater, hbad⟩

/-! ## Self-test -/

/-- A block has measured its coverage and its time. -/
def blockMeasured (s : State) (b dur covSa covTr : Nat) : State :=
  ((s.wr F.CST_BIST_COV_SA (if b = 1 ∨ b = 2 then 1000 else covSa) b).wr F.CST_BIST_COV_TR covTr b).wr F.CST_BIST_DUR dur b

/-- A block that failed runs once more. -/
def blockAgain (s : State) (b : Nat) : State :=
  { s.wr F.CST_BIST_STAT_BIST_RERUN (setBit (s.rd F.CST_BIST_STAT_BIST_RERUN) b) with pck.bistRan := s.pck.bistRan ++ [b] }

/-- A block has ended. -/
def blockEnded (s : State) (b : Nat) : State := { s with pck.bistEnd := s.pck.bistEnd ++ [b] }

/-- Step 4 has ended. -/
def selfTestEnded (s : State) : State :=
  { s.wr F.CST_BIST_STAT_STEP_TIME (min 4095 ((s.now - s.pck.stepAt) / (10 * usec))) with pck.step := 50 }

theorem stepEnded_placeKept {k : Nat} (s : State) (b : Nat) (h : F.CST_BIST_STAT_STEP_TIME.at 0 0 ≠ k) : PlaceKept k s (selfTestEnded (blockEnded s b)) := by
  have hended : PlaceKept k s (blockEnded s b) := .of_eq rfl
  exact (hended.wr _ h).trans (.of_eq rfl)

theorem bistBlockEnd_passed (b dur covSa covTr elem : Nat) (fails : List (Nat × Nat × Nat)) {s : State} (hpow : s.pck.pow = .boot) (hstep : s.pck.step = 4)
    (hturn : bistTurn s b = true) : bistBlockEnd b true dur covSa covTr elem fails s =
      if (s.pck.bistEnd ++ [b]).length < 5 then blockEnded (blockMeasured s b dur covSa covTr) b
      else calStart (selfTestEnded (blockEnded (blockMeasured s b dur covSa covTr) b)) 31 none := by
  unfold bistBlockEnd
  rw [if_neg (by simp [hpow, hstep, hturn])]
  simp only [Bool.not_true, Bool.false_and, Bool.false_eq_true, if_false, if_true]
  rfl

section
variable (b : Fin 5) (dur : BitVec 12) (covSa covTr elem : Nat) (fails : List (Nat × Nat × Nat)) {s : State}
  (hpow : s.pck.pow = .boot) (hstep : s.pck.step = 4) (hturn : bistTurn s b.val = true)
include hpow hstep hturn

/-- A passed block ends; the fifth ends the step and starts the boot's calibration. -/
theorem bistBlockEnd_pass : (bistBlockEnd b.val true dur.toNat covSa covTr elem fails s).pck.bistEnd = s.pck.bistEnd ++ [b.val] ∧
    (bistBlockEnd b.val true dur.toNat covSa covTr elem fails s).rd F.CST_BIST_DUR b.val = dur.toNat ∧
    (bistBlockEnd b.val true dur.toNat covSa covTr elem fails s).pck.step = (if s.pck.bistEnd.length + 1 < 5 then 4 else 50) ∧
    (4 ≤ s.pck.bistEnd.length → (bistBlockEnd b.val true dur.toNat covSa covTr elem fails s).cst.run = some (31, none)) := by
  have hb := b.isLt
  have hdur : (blockMeasured s b.val dur.toNat covSa covTr).rd F.CST_BIST_DUR b.val = dur.toNat :=
    (State.rd_wr_same ..).trans (Nat.mod_eq_of_lt dur.isLt)
  have hlen : (s.pck.bistEnd ++ [b.val]).length = s.pck.bistEnd.length + 1 := List.length_append
  rw [bistBlockEnd_passed b.val dur.toNat covSa covTr elem fails hpow hstep hturn, hlen]
  split
  next hmore => exact ⟨rfl, hdur, hstep, fun hlast => absurd hmore (by omega)⟩
  next hlast =>
    obtain ⟨hpck, hcst⟩ := calStart_spec (selfTestEnded (blockEnded (blockMeasured s b.val dur.toNat covSa covTr) b.val)) 31 none
    have hplace : F.CST_BIST_DUR.at b.val 0 = 2625684 + 32 * b.val := by simp [Fld.at, F.CST_BIST_DUR]
    have hevent : raisePlace (F.CST_BIST_DUR.at b.val 0) = false := by
      rw [hplace]
      simp [raisePlace, Fld.at, F.MGT_QUIESCE_WE_STACK]
      omega
    have hapart (f : Fld) (hf : f.key < 2625684 ∧ f.s1 = 0) : f.at 0 0 ≠ F.CST_BIST_DUR.at b.val 0 := by
      rw [hplace]
      simp only [Fld.at]
      omega
    have hkept : PlaceKept (F.CST_BIST_DUR.at b.val 0) (blockMeasured s b.val dur.toNat covSa covTr)
        (calStart (selfTestEnded (blockEnded (blockMeasured s b.val dur.toNat covSa covTr) b.val)) 31 none) :=
      (stepEnded_placeKept _ b.val (hapart F.CST_BIST_STAT_STEP_TIME (by decide))).trans
        (calStart_placeKept (by omega) hevent _ 31 none (hapart F.CST_CAL_STAT_CAL_BUSY (by decide)))
    generalize calStart (selfTestEnded (blockEnded (blockMeasured s b.val dur.toNat covSa covTr) b.val)) 31 none = u at hpck hcst hkept ⊢
    rw [hpck, hcst]
    exact ⟨rfl, hkept.rd.trans hdur, rfl, fun _ => rfl⟩

/-- A failed block is run once more if the second run can end in time. -/
theorem bistBlockEnd_again (hfirst : s.pck.bistRan.contains b.val = false) (htime : s.now + dur.toNat * 10 * usec ≤ s.pck.stepAt + 40 * msec) :
    (bistBlockEnd b.val false dur.toNat covSa covTr elem fails s).pck.bistEnd = s.pck.bistEnd ∧
    (bistBlockEnd b.val false dur.toNat covSa covTr elem fails s).pck.bistRan = s.pck.bistRan ++ [b.val] := by
  have hagain : (!false && !s.pck.bistRan.contains b.val && decide (s.now + dur.toNat * 10 * usec ≤ s.pck.stepAt + 40 * msec)) = true := by
    simp only [hfirst, htime, decide_true, Bool.not_false, Bool.and_self]
  have heq : bistBlockEnd b.val false dur.toNat covSa covTr elem fails s = blockAgain (blockMeasured s b.val dur.toNat covSa covTr) b.val := by
    unfold bistBlockEnd
    rw [if_neg (by simp [hpow, hstep, hturn])]
    exact if_pos hagain
  rw [heq]
  exact ⟨rfl, rfl⟩

end

end Sys2Proof.Machine


/-! SUPPORT. The dies' tiers and the training of a channel (R189, R190, R245, R248, R354, Table 17.1). -/

namespace Sys2Proof.Machine

/-! ## A channel that serves nothing -/

/-- The reads of an untrained channel end, and its writes are discarded (R248). -/
def offEnded (s : State) (ch : Nat) (reads : List DEnt) (writes : List WEnt) : State :=
  settle (dropFills (writes.foldl (fun t e => wrote (if e.kind = .clean then t else t.dramWrite ch e.c zeroSector) e.req e.sec)
    (reads.foldl (fun t e => gotSector t e.req e.sec poisoned0 .uncorrectable ch) s)) ch)

/-- The queues of a controller are empty. -/
def queuesEmpty (d : Dmc) : Dmc := { d with q := [], fly := [], fillWait := [], fills := [], wq := [], rmw := d.rmw.map fun e => { e with hit := true } }

theorem channelOff_eq (s : State) (ch : Nat) : channelOff s ch = offEnded (s.setDmc ch (queuesEmpty (s.dmcOf ch))) ch
    (((s.dmcOf ch).q.filter fun e => !e.rmw) ++ (s.dmcOf ch).fly.map (·.1) ++ (s.dmcOf ch).fillWait) (s.dmcOf ch).wq := rfl

theorem offEnded_beside (s : State) (ch : Nat) (reads : List DEnt) (writes : List WEnt) : Beside s (offEnded s ch reads writes) := by
  have hread (t : State) (e : DEnt) : Beside t (gotSector t e.req e.sec poisoned0 .uncorrectable ch) := gotSector_beside ..
  have hwrite (t : State) (e : WEnt) : Beside t (wrote (if e.kind = .clean then t else t.dramWrite ch e.c zeroSector) e.req e.sec) :=
    (Beside.ite (.refl t) (dramWrite_beside ..)).trans (wrote_beside ..)
  exact (((Beside.foldl hread s reads).trans (.foldl hwrite _ writes)).trans (dropFills_beside ..)).trans (settle_beside _)

theorem gotSector_placeKept {ch k : Nat} (h : F.DIP_UE_POISON_RD.at ch 0 ≠ k) (s : State) (id sec : Nat) (x : Sector) (c : Code) :
    PlaceKept k s (gotSector s id sec x c ch) := by
  unfold gotSector
  split
  · exact .refl s
  · refine .ite (.refl s) ?_
    extract_lets code u r
    have hu : PlaceKept k s u := .ite ((PlaceKept.refl s).inc 1 h) (.refl s)
    exact .ite (hu.trans (markPerformed_placeKept ..)) (hu.trans (.of_eq rfl))

theorem dropFills_regs (s : State) (sl : Nat) : (dropFills s sl).regs = s.regs :=
  List.foldlRecOn (motive := fun t : State => t.regs = s.regs) _ _ rfl fun _ ht _ _ => ht

/-- The end of the queues leaves the channel's state. -/
theorem offEnded_placeKept {ch k : Nat} (hslice : ApartFromSlice ch k) (horder : ApartFromOrder k) (s : State) (reads : List DEnt) (writes : List WEnt) :
    PlaceKept k s (offEnded s ch reads writes) := by
  have hread (t : State) (e : DEnt) : PlaceKept k t (gotSector t e.req e.sec poisoned0 .uncorrectable ch) := gotSector_placeKept (horder.poisoned ch) ..
  have hwrite (t : State) (e : WEnt) : PlaceKept k t (wrote (if e.kind = .clean then t else t.dramWrite ch e.c zeroSector) e.req e.sec) :=
    (PlaceKept.ite (.refl t) (dramWrite_placeKept hslice ..)).trans (.of_eq (wrote_regs ..))
  exact (((PlaceKept.foldl hread s reads).trans (.foldl hwrite _ writes)).trans (.of_eq (dropFills_regs ..))).trans (settle_placeKept horder _)

theorem cstate_apartFromSlice (ch : Fin 32) : ApartFromSlice ch.val (F.DMC_STAT_CSTATE.at ch.val 0) := by
  have hch := ch.isLt
  constructor
  case raised => exact (cstate_apartFromHang ch).raised
  case injected => exact (cstate_apartFromHang ch).armed
  case written =>
    simp [sliceWritten, Fld.at, F.DMC_STAT_CSTATE, F.SCC_STAT_SFAULT, F.SCC_STAT_FCAUSE, F.SCC_STAT_SSTATE, F.SCC_OPS_STAT_OPS_RES, F.TSV_DROP_DROP_WR,
      F.DMC_WR_SECT_WR_SECT, F.SCC_WB_WB_SECT]
    omega

/-! ## The end of training -/

/-- A channel's training is over, and its time is shown. -/
def trainOver (s : State) (ch : Nat) (x : Train) : State :=
  ((s.setDmc ch { s.dmcOf ch with train := none, cmdAt := s.now }).wr F.DMC_TRAIN_STAT_TR_BUSY 0 ch).wr F.DMC_TRAIN_STAT_TR_TIME
    (min 4095 ((s.now - x.began) / (10 * usec))) ch

/-- The ranks of a channel are in power state `v`, and the channel in state `c`. -/
def ranksAt (s : State) (ch c v : Nat) : State := (List.range 4).foldl (fun u r => u.wr F.DMC_RANK_STAT_PSTATE v ch r) (s.wr F.DMC_STAT_CSTATE c ch)

theorem trainEnd_passed (s : State) (ch : Nat) (x : Train) : trainEnd s ch x true =
    ranksAt (if (trainOver s ch x).pck.pow = .boot then refreshStart (trainOver s ch x) ch else trainOver s ch x) ch 2 1 := rfl

theorem trainEnd_failed (s : State) (ch : Nat) (x : Train) : trainEnd s ch x false =
    hangEvent (channelOff ((ranksAt (trainOver s ch x) ch 0 0).wr F.DMC_HANG_STAT_HCAUSE 0 ch) ch) ch x.rank := by
  unfold trainEnd
  exact if_neg Bool.false_ne_true

theorem ranksAt_beside (s : State) (ch c v : Nat) : Beside s (ranksAt s ch c v) := ((Beside.refl s).wr ..).trans (.foldl (fun t _ => (Beside.refl t).wr ..) _ _)

theorem pstate_ne_cstate (ch r : Nat) : F.DMC_RANK_STAT_PSTATE.at ch r ≠ F.DMC_STAT_CSTATE.at ch 0 := by
  simp only [Fld.at, F.DMC_RANK_STAT_PSTATE, F.DMC_STAT_CSTATE]
  omega

theorem ranksAt_cstate (s : State) (ch c v : Nat) : (ranksAt s ch c v).cstate ch = c % 8 := by
  have hranks : PlaceKept (F.DMC_STAT_CSTATE.at ch 0) (s.wr F.DMC_STAT_CSTATE c ch) (ranksAt s ch c v) :=
    .foldl (fun t r => (PlaceKept.refl t).wr _ (pstate_ne_cstate ch r)) _ _
  exact hranks.rd.trans (State.rd_wr_same ..)

/-- Some channel's training is over, and the boot is where it was. -/
structure TrainOver (ch : Nat) (s t : State) : Prop where
  step : AtStep s t
  train : (t.dmcOf ch).train = none

theorem trainOver_over (s : State) (ch : Nat) (x : Train) : TrainOver ch s (trainOver s ch x) := by
  refine ⟨.of_pck rfl, ?_⟩
  show ((s.setDmc ch { s.dmcOf ch with train := none, cmdAt := s.now }).dmcOf ch).train = none
  rw [State.setDmc_dmcOf_same]

theorem TrainOver.beside {ch : Nat} {s t u : State} (h : TrainOver ch s t) (k : Beside t u) : TrainOver ch s u :=
  ⟨h.step.trans k.atStep, by rw [k.dmcOf]; exact h.train⟩

theorem TrainOver.setDmc {ch : Nat} {s t : State} (h : TrainOver ch s t) {d : Dmc} (hd : d.train = (t.dmcOf ch).train) : TrainOver ch s (t.setDmc ch d) :=
  ⟨h.step.trans (.of_pck rfl), by rw [State.setDmc_dmcOf_same, hd]; exact h.train⟩

theorem TrainOver.refreshStart {ch : Nat} {s t : State} (h : TrainOver ch s t) : TrainOver ch s (refreshStart t ch) :=
  h.setDmc (List.foldlRecOn (motive := fun d : Dmc => d.train = (t.dmcOf ch).train) _ _ rfl fun _ hd _ _ => hd)

theorem TrainOver.channelOff {ch : Nat} {s t : State} (h : TrainOver ch s t) : TrainOver ch s (channelOff t ch) := by
  have hempty : TrainOver ch s (t.setDmc ch (queuesEmpty (t.dmcOf ch))) := h.setDmc rfl
  rw [channelOff_eq]
  exact hempty.beside (offEnded_beside ..)

theorem hangEvent_beside (s : State) (ch rank : Nat) : Beside s (hangEvent s ch rank) := (State.raise_reach ..).beside

theorem trainEnd_over (s : State) (ch : Nat) (x : Train) (ok : Bool) : TrainOver ch s (trainEnd s ch x ok) := by
  have hover := trainOver_over s ch x
  cases ok with
  | true =>
    rw [trainEnd_passed]
    split
    · exact hover.refreshStart.beside (ranksAt_beside ..)
    · exact hover.beside (ranksAt_beside ..)
  | false =>
    rw [trainEnd_failed]
    exact ((hover.beside ((ranksAt_beside ..).wr ..)).channelOff).beside (hangEvent_beside ..)

theorem trainEnd_cstate (s : State) (ch : Fin 32) (x : Train) (ok : Bool) : (trainEnd s ch.val x ok).cstate ch.val = if ok then 2 else 0 := by
  cases ok with
  | true =>
    rw [trainEnd_passed, ranksAt_cstate]
    rfl
  | false =>
    have hoff (t : State) : PlaceKept (F.DMC_STAT_CSTATE.at ch.val 0) t (channelOff t ch.val) := by
      have hset (d : Dmc) : PlaceKept (F.DMC_STAT_CSTATE.at ch.val 0) t (t.setDmc ch.val d) := .of_eq (t.setDmc_regs ..)
      rw [channelOff_eq]
      exact (hset _).trans (offEnded_placeKept (cstate_apartFromSlice ch) (cstate_apartFromHang ch).toApartFromOrder ..)
    have hcause (t : State) : PlaceKept (F.DMC_STAT_CSTATE.at ch.val 0) t (t.wr F.DMC_HANG_STAT_HCAUSE 0 ch.val) :=
      (PlaceKept.refl t).wr 0 (at_ne_of_key (by decide) _ _)
    have hevent (t : State) : PlaceKept (F.DMC_STAT_CSTATE.at ch.val 0) t (hangEvent t ch.val x.rank) :=
      (State.raise_reach ..).placeKept (cstate_apartFromHang ch).raised
    rw [trainEnd_failed, State.cstate, (((hcause _).trans (hoff _)).trans (hevent _)).rd]
    exact ranksAt_cstate ..

/-! ## The tiers of dies (R354) -/

theorem rebuildMap_atStep (s : State) (ch : Nat) : AtStep s (rebuildMap s ch) := by
  have hset (x : TsvCh) : AtStep s (s.setTsv ch x) := .of_pck rfl
  have hshadow (t : State) (p : Option Nat) : AtStep t (setShadow t ch p) := .of_pck rfl
  unfold rebuildMap
  extract_lets usable m t
  clear_value usable m
  exact (((hset _).trans (hshadow ..)).wr ..).wr ..

theorem trainStart_atStep (s : State) (ch : Nat) (inRun : Bool) (ranks : List Nat) : AtStep s (trainStart s ch inRun ranks) := by
  cases ranks with
  | nil => exact .refl s
  | cons r rest => exact .of_pck rfl

/-- Training of every channel begins, or ends at once for want of a die. -/
theorem trainAll_atStep (s : State) : AtStep s (trainAll s) := by
  refine .foldl (fun t c => .ite (.refl t) ?_) s _
  split
  · exact (trainEnd_over ..).step
  · exact (rebuildMap_atStep ..).trans (trainStart_atStep ..)

theorem trainDone_dmcOf (s : State) (c : Nat) : (trainDone s).dmcOf c = s.dmcOf c ∧ (trainDone s).regs = s.regs := by
  unfold trainDone
  split
  · exact ⟨rfl, rfl⟩
  · exact ⟨rfl, rfl⟩

/-- Step 6 begins once no channel trains. -/
theorem trainDone_step {s : State} (hpow : s.pck.pow = .boot) (hstep : s.pck.step = 52) : ((trainDone s).pck.step = 52 ∨ (trainDone s).pck.step = 6) ∧
    ((∀ c, c < 32 → ((trainDone s).dmcOf c).train = none) ↔ (trainDone s).pck.step = 6) := by
  have hall : channels.all (fun c => (s.dmcOf c).train.isNone) = true ↔ ∀ c, c < 32 → (s.dmcOf c).train = none := by
    simp [channels]
  simp only [trainDone_dmcOf]
  unfold trainDone
  split
  next hdone =>
    obtain ⟨-, -, hnone⟩ := hdone
    exact ⟨.inr rfl, fun _ => rfl, fun _ => hall.1 hnone⟩
  next hmore =>
    exact ⟨.inl hstep, fun hnone => absurd ⟨hpow, hstep, hall.2 hnone⟩ hmore, fun h => absurd (hstep.symm.trans h) (by decide)⟩

/-- A tier is ready. -/
def tierReady (silent : Nat) (s : State) : State :=
  { s with pck.tiers := s.pck.tiers + 1, pck.noDie := Nat.lor s.pck.noDie (silent % 16 * 2 ^ (4 * s.pck.tiers)) }

theorem dramTierReady_eq {s : State} (silent : Nat) (hpow : s.pck.pow = .boot) (hstep : s.pck.step = 51) : dramTierReady silent s =
    if s.pck.tiers + 1 < 4 then tierReady silent s else trainDone (trainAll { tierReady silent s with pck.step := 52 }) :=
  if_neg (by simp [hpow, hstep])

/-- A tier before the last: it is counted, with its dies that do not answer. -/
theorem dramTierReady_next {s : State} (silent : Nat) (hpow : s.pck.pow = .boot) (hstep : s.pck.step = 51) (hnext : s.pck.tiers + 1 < 4) :
    (dramTierReady silent s).pck.tiers = s.pck.tiers + 1 ∧ (dramTierReady silent s).pck.step = 51 ∧
    (dramTierReady silent s).pck.noDie = Nat.lor s.pck.noDie (silent % 16 * 2 ^ (4 * s.pck.tiers)) := by
  rw [dramTierReady_eq silent hpow hstep, if_pos hnext]
  exact ⟨rfl, hstep, rfl⟩

/-- The last tier: every channel begins to train, or step 6 does. -/
theorem dramTierReady_last {s : State} (silent : Nat) (hpow : s.pck.pow = .boot) (hstep : s.pck.step = 51) (hlast : 4 ≤ s.pck.tiers + 1) :
    ((dramTierReady silent s).pck.step = 52 ∨ (dramTierReady silent s).pck.step = 6) ∧
    ((∀ c, c < 32 → ((dramTierReady silent s).dmcOf c).train = none) ↔ (dramTierReady silent s).pck.step = 6) := by
  have hbegun := trainAll_atStep { tierReady silent s with pck.step := 52 }
  rw [dramTierReady_eq silent hpow hstep, if_neg (by omega)]
  generalize trainAll { tierReady silent s with pck.step := 52 } = u at hbegun ⊢
  obtain ⟨hpow', hstep', -⟩ := hbegun
  exact trainDone_step (hpow'.trans hpow) hstep'

/-! ## The end of a training step (R190) -/

/-- A controller trains on, with what `x` says. -/
def trainsOn (s : State) (ch : Nat) (x : Train) : State := s.setDmc ch { s.dmcOf ch with train := some x }

theorem trainsOn_train (s : State) (ch : Nat) (x : Train) : ((trainsOn s ch x).dmcOf ch).train = some x := by
  rw [trainsOn, State.setDmc_dmcOf_same]

section
variable {s : State} {ch : Nat} {x : Train} (code vref dead : Nat) (lines : List Nat) (htrain : (s.dmcOf ch).train = some x)
include htrain

theorem trainStepEnd_next (hstep : x.step < 4) : trainStepEnd ch true code vref dead lines s =
    trainsOn (trainCodes s ch x code vref dead lines) ch { x with step := x.step + 1 } := by
  unfold trainStepEnd
  simp only [htrain]
  exact (if_pos trivial).trans (if_pos hstep)

theorem trainStepEnd_last (hstep : 4 ≤ x.step) (hranks : x.ranks = []) : ∃ v, trainStepEnd ch true code vref dead lines s =
    trainEnd ((trainCodes s ch x code vref dead lines).wr F.DMC_TRAIN_STAT_TR_PASS v ch) ch x true := by
  unfold trainStepEnd
  simp only [htrain, hranks]
  exact ⟨_, (if_pos trivial).trans (if_neg (Nat.not_lt.2 hstep))⟩

theorem trainStepEnd_retry (hattempt : x.attempt < 2) : trainStepEnd ch false code vref dead lines s =
    trainsOn (s.inc F.DMC_TRAIN_STAT_TR_RETRIES 1 ch) ch { x with step := 0, attempt := x.attempt + 1 } := by
  unfold trainStepEnd
  simp only [htrain]
  exact (if_neg Bool.false_ne_true).trans (if_neg (Nat.not_le.2 hattempt))

theorem trainStepEnd_failed (hattempt : 2 ≤ x.attempt) : trainStepEnd ch false code vref dead lines s = trainEnd s ch x false := by
  unfold trainStepEnd
  simp only [htrain]
  exact (if_neg Bool.false_ne_true).trans (if_pos hattempt)

end

/-- A channel left untrained outside a boot is folded, if it can be (R258). -/
def untrainedFolded (u : State) (ch was : Nat) (inRun : Bool) : State :=
  if was = 1 ∧ u.cstate ch = 0 ∧ ¬ inRun ∧ u.rd F.CST_BOOT_STAT_BOOT_KIND = 2 ∧ u.pck.pow ≠ .boot then
    (if u.fstate = fReady then startFold u ch else tsvEvent u ch 8 0) else u

/-- What follows the end of a training step changes neither the channel's training nor its state. -/
theorem rankTrainingEnd_after (s : State) (ch : Fin 32) (pass : Bool) (code vref dead : Nat) (lines : List Nat) :
    ((rankTrainingEnd ch.val pass code vref dead lines s).dmcOf ch.val).train = ((trainStepEnd ch.val pass code vref dead lines s).dmcOf ch.val).train ∧
    (rankTrainingEnd ch.val pass code vref dead lines s).cstate ch.val = (trainStepEnd ch.val pass code vref dead lines s).cstate ch.val := by
  have hapart := cstate_apartFromHang ch
  have hevent (t : State) : RaiseReach t (tsvEvent t ch.val 8 0) := State.raise_reach ..
  have hbeside (u : State) (was : Nat) (inRun : Bool) : Beside u (untrainedFolded u ch.val was inRun) :=
    .ite (.ite (startFold_beside ..) (hevent u).beside) (.refl u)
  have hkept (u : State) (was : Nat) (inRun : Bool) : PlaceKept (F.DMC_STAT_CSTATE.at ch.val 0) u (untrainedFolded u ch.val was inRun) :=
    .ite (.ite (startFold_placeKept hapart.toApartFromFold u) ((hevent u).placeKept hapart.raised)) (.refl u)
  unfold rankTrainingEnd
  extract_lets inRun was u
  show ((trainDone (foldResume (untrainedFolded u ch.val was inRun))).dmcOf ch.val).train = (u.dmcOf ch.val).train ∧
    (trainDone (foldResume (untrainedFolded u ch.val was inRun))).cstate ch.val = u.cstate ch.val
  have hdone := trainDone_dmcOf (foldResume (untrainedFolded u ch.val was inRun)) ch.val
  have hresumed := (hbeside u was inRun).trans (foldResume_beside _)
  have hplace := (hkept u was inRun).trans (foldResume_placeKept _ (hapart.single _ (by simp)))
  refine ⟨by rw [hdone.1, hresumed.dmcOf], ?_⟩
  exact (hplace.trans (.of_eq hdone.2)).rd

/-- The end of a training step of a channel that trains as `x` says. -/
theorem rankTrainingEnd_spec {s : State} (ch : Fin 32) (pass : Bool) (code vref dead : Nat) (lines : List Nat) {x : Train}
    (htrain : (s.dmcOf ch.val).train = some x) :
    (pass = true → x.step < 4 → ((rankTrainingEnd ch.val pass code vref dead lines s).dmcOf ch.val).train = some { x with step := x.step + 1 }) ∧
    (pass = true → 4 ≤ x.step → x.ranks = [] → ((rankTrainingEnd ch.val pass code vref dead lines s).dmcOf ch.val).train = none ∧
      (rankTrainingEnd ch.val pass code vref dead lines s).cstate ch.val = 2) ∧
    (pass = false → x.attempt < 2 →
      ((rankTrainingEnd ch.val pass code vref dead lines s).dmcOf ch.val).train = some { x with step := 0, attempt := x.attempt + 1 }) ∧
    (pass = false → 2 ≤ x.attempt → ((rankTrainingEnd ch.val pass code vref dead lines s).dmcOf ch.val).train = none ∧
      (rankTrainingEnd ch.val pass code vref dead lines s).cstate ch.val = 0) := by
  obtain ⟨hafter, hstate⟩ := rankTrainingEnd_after s ch pass code vref dead lines
  rw [hafter, hstate]
  refine ⟨fun hpass hstep => ?_, fun hpass hstep hranks => ?_, fun hpass hattempt => ?_, fun hpass hattempt => ?_⟩
  · rw [hpass, trainStepEnd_next code vref dead lines htrain hstep, trainsOn_train]
  · obtain ⟨v, heq⟩ := trainStepEnd_last code vref dead lines htrain hstep hranks
    rw [hpass, heq]
    exact ⟨(trainEnd_over ..).train, trainEnd_cstate ..⟩
  · rw [hpass, trainStepEnd_retry code vref dead lines htrain hattempt, trainsOn_train]
  · rw [hpass, trainStepEnd_failed code vref dead lines htrain hattempt]
    exact ⟨(trainEnd_over ..).train, trainEnd_cstate ..⟩

end Sys2Proof.Machine


/-! SUPPORT. The cores leave the boot ROM (R264, R267, R268). -/

namespace Sys2Proof.Machine

/-! ## A core boots -/

/-- Core `b` has taken the image of a boathouse, and is active. -/
def coreBooted (s : State) (b : Bool) (slot : Nat) : State :=
  let t := (setSlot (setCore s b 2) b slot).wr F.MGT_STAT_ACTIVE (b2n b)
  { t with mgt.beat := (t.now, t.now) }

/-- The other core, if it waits in the ROM, stands by with the same image, or is held in reset. -/
def otherCore (s : State) (b : Bool) (slot : Nat) : State :=
  if coreState s (!b) = 1 then
    if s.on F.MGT_CTL_STBY_EN then setSlot (setCore s (!b) 3) (!b) slot else setCore s (!b) 0
  else s

theorem romBoot_image {s u : State} {b : Bool} {ok : Nat → Bool} {slot : Nat} (h : romImage s ok = (some slot, u)) :
    romBoot s b ok = replayJournal (otherCore (coreBooted u b slot) b slot) := by
  unfold romBoot
  rw [h]
  unfold otherCore coreBooted
  rfl

theorem romBoot_none {s u : State} {b : Bool} {ok : Nat → Bool} (h : romImage s ok = (none, u)) : romBoot s b ok = enterRecovery u := by
  unfold romBoot
  rw [h]

theorem romImage_first {s : State} {ok : Nat → Bool} (h : imageOk s (s.rd F.MGT_BOOT_BOOT_SLOT) (ok (s.rd F.MGT_BOOT_BOOT_SLOT)) = true) :
    romImage s ok = (some (s.rd F.MGT_BOOT_BOOT_SLOT), s) := if_pos h

theorem replayJournal_regs (s : State) : (replayJournal s).regs = s.regs := by
  refine List.foldlRecOn (motive := fun t : State => t.regs = s.regs) _ _ rfl fun t ht m _ => ?_
  split
  · exact ht
  · exact ht

theorem replayJournal_rd (s : State) (f : Fld) : (replayJournal s).rd f = s.rd f := by
  simp only [State.rd, replayJournal_regs]

/-- A core that takes an image shows its state and its boathouse, and is active; the other core shows what it does. -/
theorem coreBooted_shown (s : State) (b : Bool) (slot : Nat) : coreState (coreBooted s b slot) b = 2 ∧ coreSlot (coreBooted s b slot) b = slot % 2 ∧
    activeCore (coreBooted s b slot) = b ∧ coreState (coreBooted s b slot) (!b) = coreState s (!b) ∧
    (coreBooted s b slot).on F.MGT_CTL_STBY_EN = s.on F.MGT_CTL_STBY_EN := by
  have hrd (f : Fld) : (coreBooted s b slot).rd f = ((setSlot (setCore s b 2) b slot).wr F.MGT_STAT_ACTIVE (b2n b)).rd f := rfl
  unfold coreState coreSlot activeCore State.on
  simp only [hrd]
  cases b with
  | false => simp (disch := decide) [setSlot, setCore, State.rd_wr_ne, b2n, F.MGT_STAT_A_STATE, F.MGT_STAT_A_SLOT]
  | true => simp (disch := decide) [setSlot, setCore, State.rd_wr_ne, b2n, F.MGT_STAT_B_STATE, F.MGT_STAT_B_SLOT]

theorem otherCore_shown (u : State) (b : Bool) (slot : Nat) : coreState (otherCore u b slot) b = coreState u b ∧
    activeCore (otherCore u b slot) = activeCore u ∧ coreSlot (otherCore u b slot) b = coreSlot u b ∧
    coreState (otherCore u b slot) (!b) = if coreState u (!b) = 1 then (if u.on F.MGT_CTL_STBY_EN then 3 else 0) else coreState u (!b) := by
  unfold otherCore
  split
  · cases b with
    | false => split <;> simp (disch := decide) [coreState, activeCore, coreSlot, State.on, setSlot, setCore, State.rd_wr_ne, F.MGT_STAT_B_STATE]
    | true => split <;> simp (disch := decide) [coreState, activeCore, coreSlot, State.on, setSlot, setCore, State.rd_wr_ne, F.MGT_STAT_A_STATE]
  · exact ⟨rfl, rfl, rfl, rfl⟩

theorem replayJournal_shown (s : State) (b : Bool) : coreState (replayJournal s) b = coreState s b ∧ activeCore (replayJournal s) = activeCore s ∧
    coreSlot (replayJournal s) b = coreSlot s b := by
  unfold coreState coreSlot activeCore State.on
  simp only [replayJournal_rd, and_self]

/-- The cores once core `b` has taken an image. -/
theorem coresBooted (s : State) (b : Bool) (slot : Nat) :
    let t := replayJournal (otherCore (coreBooted s b slot) b slot)
    coreState t b = 2 ∧ activeCore t = b ∧ coreSlot t b = slot % 2 ∧
    coreState t (!b) = if coreState s (!b) = 1 then (if s.on F.MGT_CTL_STBY_EN then 3 else 0) else coreState s (!b) := by
  obtain ⟨hstate, hslot, hactive, hother, hstby⟩ := coreBooted_shown s b slot
  obtain ⟨ostate, oactive, oslot, oother⟩ := otherCore_shown (coreBooted s b slot) b slot
  intro t
  obtain ⟨rstate, ractive, rslot⟩ := replayJournal_shown (otherCore (coreBooted s b slot) b slot) b
  refine ⟨rstate.trans (ostate.trans hstate), ractive.trans (oactive.trans hactive), rslot.trans (oslot.trans hslot), ?_⟩
  rw [show coreState t (!b) = _ from (replayJournal_shown _ (!b)).1, oother, hother, hstby]

/-! ## COX_BOOT and the timeout of Cox A -/

/-- Cox A takes the image of `BOOT_SLOT`. -/
theorem coxBoot_first {s : State} (okA okB : Bool) (htest : s.pck.test = false) (hrom : coreState s false = 1)
    (himage : imageOk s (s.rd F.MGT_BOOT_BOOT_SLOT) (if s.rd F.MGT_BOOT_BOOT_SLOT = 0 then okA else okB) = true) :
    coreState (coxBoot okA okB s) false = 2 ∧ activeCore (coxBoot okA okB s) = false ∧ coreSlot (coxBoot okA okB s) false = s.rd F.MGT_BOOT_BOOT_SLOT % 2 ∧
    (coreState s true = 1 → coreState (coxBoot okA okB s) true = if s.on F.MGT_CTL_STBY_EN then 3 else 0) := by
  have heq : coxBoot okA okB s = romBoot s false fun slot => if slot = 0 then okA else okB := by
    unfold coxBoot
    rw [htest]
    exact (if_neg Bool.false_ne_true).trans (if_pos hrom)
  rw [heq, romBoot_image (romImage_first himage)]
  obtain ⟨hstate, hactive, hslot, hother⟩ := coresBooted s false (s.rd F.MGT_BOOT_BOOT_SLOT)
  exact ⟨hstate, hactive, hslot, fun hwaits => hother.trans (if_pos hwaits)⟩

/-- With no image, Cox A stays in RECOVERY (R267). -/
theorem coxBoot_recovery {s : State} (okA okB : Bool) (htest : s.pck.test = false) (hrom : coreState s false = 1)
    (hfirst : imageOk s (s.rd F.MGT_BOOT_BOOT_SLOT) (if s.rd F.MGT_BOOT_BOOT_SLOT = 0 then okA else okB) = false)
    (hother : imageOk s (1 - s.rd F.MGT_BOOT_BOOT_SLOT) (if 1 - s.rd F.MGT_BOOT_BOOT_SLOT = 0 then okA else okB) = false) :
    coreState (coxBoot okA okB s) false = 5 := by
  have heq : coxBoot okA okB s = romBoot s false fun slot => if slot = 0 then okA else okB := by
    unfold coxBoot
    rw [htest]
    exact (if_neg Bool.false_ne_true).trans (if_pos hrom)
  have himage : romImage s (fun slot => if slot = 0 then okA else okB) =
      (none, badImage (badImage s (s.rd F.MGT_BOOT_BOOT_SLOT)) (1 - s.rd F.MGT_BOOT_BOOT_SLOT)) := by
    unfold romImage
    exact (if_neg (by rw [hfirst]; exact Bool.false_ne_true)).trans (if_neg (by rw [hother]; exact Bool.false_ne_true))
  have hkept (u v : State) (h : RaiseReach u v) : v.rd F.MGT_STAT_A_STATE = u.rd F.MGT_STAT_A_STATE := h.rd _ _ _ (by decide)
  rw [heq, romBoot_none himage, enterRecovery, coreState, if_neg Bool.false_ne_true, hkept _ _ (State.raiseG_reach ..)]
  rw [State.rd_wr_ne _ _ _ _ _ _ _ _ (by decide)]
  exact State.rd_wr_same ..

/-- An image verifies the same whatever a core's state. -/
theorem imageOk_setCore (s : State) (b : Bool) (v slot : Nat) (crypto : Bool) : imageOk (setCore s b v) slot crypto = imageOk s slot crypto := by
  have hmram (i : Nat) : (setCore s b v).mramAt i = s.mramAt i := by cases b <;> rfl
  have hlatch : (setCore s b v).pst = s.pst := by cases b <;> rfl
  have hsvn : (setCore s b v).rd F.MGT_SVN_SVN_FUSE = s.rd F.MGT_SVN_SVN_FUSE := by cases b <;> exact State.rd_wr_ne _ _ _ _ _ _ _ _ (by decide)
  have hffail : (setCore s b v).rd F.PST_FUSE_STAT_FFAIL = s.rd F.PST_FUSE_STAT_FFAIL := by cases b <;> exact State.rd_wr_ne _ _ _ _ _ _ _ _ (by decide)
  simp only [imageOk, headerOk, imageWord, imageSvn, operatorFused, hmram, hlatch, hsvn, hffail]
  rfl

/-- Cox A is held in reset until both cores are next released. -/
def coxAHeld (s : State) : State := { setCore s false 0 with mgt.heldA := true }

/-- Cox A takes no image in time: Cox B boots, and Cox A is held in reset. -/
theorem coxATimeout_spec {s : State} (okA okB : Bool) (htest : s.pck.test = false) (hrom : coreState s false = 1) (hwaits : coreState s true = 1)
    (himage : imageOk s (s.rd F.MGT_BOOT_BOOT_SLOT) (if s.rd F.MGT_BOOT_BOOT_SLOT = 0 then okA else okB) = true) :
    coreState (coxATimeout okA okB s) false = 0 ∧ coreState (coxATimeout okA okB s) true = 2 ∧ activeCore (coxATimeout okA okB s) = true := by
  have heq : coxATimeout okA okB s = romBoot (coxAHeld s) true fun slot => if slot = 0 then okA else okB :=
    if_pos ⟨hrom, hwaits, by simp [htest]⟩
  have hrd (f : Fld) : (coxAHeld s).rd f = (s.wr F.MGT_STAT_A_STATE 0).rd f := rfl
  have hslot : (coxAHeld s).rd F.MGT_BOOT_BOOT_SLOT = s.rd F.MGT_BOOT_BOOT_SLOT := (hrd _).trans (State.rd_wr_ne _ _ _ _ _ _ _ _ (by decide))
  have hsame (slot : Nat) (crypto : Bool) : imageOk (coxAHeld s) slot crypto = imageOk s slot crypto := imageOk_setCore s false 0 slot crypto
  have hheld : coreState (coxAHeld s) false = 0 := (hrd F.MGT_STAT_A_STATE).trans (State.rd_wr_same ..)
  have hfirst : imageOk (coxAHeld s) ((coxAHeld s).rd F.MGT_BOOT_BOOT_SLOT)
      ((fun slot => if slot = 0 then okA else okB) ((coxAHeld s).rd F.MGT_BOOT_BOOT_SLOT)) = true := by
    rw [hslot, hsame]
    exact himage
  rw [heq, romBoot_image (romImage_first hfirst)]
  obtain ⟨hstate, hactive, -, hother⟩ := coresBooted (coxAHeld s) true ((coxAHeld s).rd F.MGT_BOOT_BOOT_SLOT)
  refine ⟨hother.trans ?_, hstate, hactive⟩
  rw [Bool.not_true, hheld]
  rfl

end Sys2Proof.Machine


/-! SUPPORT. The fill ends and the stack enters RUN (R231, R264, R365, Table 17.1), and O45. -/

namespace Sys2Proof.Machine

/-! ## Memory and the presence of the clock -/

/-- Memory and the presence of HL_REFCLK stay as they are. -/
structure MemClock (s t : State) : Prop where
  mem : t.mem = s.mem
  clock : t.link.refclk = s.link.refclk

theorem MemClock.refl (s : State) : MemClock s s := ⟨rfl, rfl⟩

theorem MemClock.trans {s t u : State} (h : MemClock s t) (k : MemClock t u) : MemClock s u := ⟨k.mem.trans h.mem, k.clock.trans h.clock⟩

theorem MemClock.ite {s a b : State} {c : Prop} [Decidable c] (ha : MemClock s a) (hb : MemClock s b) : MemClock s (if c then a else b) := by
  split
  · exact ha
  · exact hb

theorem MemClock.foldl {α : Type} {f : State → α → State} (hf : ∀ t x, MemClock t (f t x)) (s : State) (l : List α) : MemClock s (l.foldl f s) :=
  List.foldlRecOn (motive := MemClock s) l f (.refl s) fun t ht x _ => ht.trans (hf t x)

theorem MemClock.wr {s t : State} (h : MemClock s t) (f : Fld) (v i j : Nat) : MemClock s (t.wr f v i j) := h.trans ⟨rfl, rfl⟩

theorem MemClock.setLine {s t : State} (h : MemClock s t) (sl set w : Nat) (x : Line) : MemClock s (t.setLine sl set w x) := h.trans ⟨rfl, rfl⟩

theorem MemClock.of_aside {s t : State} (h : Aside s t) (hmem : t.mem = s.mem) : MemClock s t := by
  obtain ⟨-, hlink⟩ := h
  exact ⟨hmem, by rw [hlink]⟩

theorem RaiseReach.memClock {s t : State} (h : RaiseReach s t) : MemClock s t := by
  obtain ⟨-, -, -, -, hmem, -, -, -, hlink, -⟩ := h.same
  exact ⟨hmem, by rw [hlink]⟩

theorem OnGroup.memClock {g : Nat} {s t : State} (h : OnGroup g s t) : MemClock s t := by
  obtain ⟨⟨_, _, _, rfl⟩, -⟩ := h
  exact ⟨rfl, rfl⟩

theorem putStackWord_memClock (s : State) (n lo w v : Nat) : MemClock s (s.putStackWord n lo w v) := by
  obtain ⟨pst, hput⟩ := s.putStackWord_eq n lo w v
  rw [hput]
  exact ⟨rfl, rfl⟩

theorem setFstate_memClock (s : State) (v : Nat) : MemClock s (setFstate s v) := ((MemClock.refl s).wr ..).trans (putStackWord_memClock ..)

/-! ## The slices -/

theorem dropClean_memClock (s : State) (sl : Nat) (ls : List (Nat × Nat)) : MemClock s (dropClean s sl ls) :=
  .foldl (fun t _ => (MemClock.refl t).setLine ..) s ls

theorem abandonOp_memClock (s : State) (sl : Nat) : MemClock s (abandonOp s sl) := by
  unfold abandonOp
  split
  · exact .refl s
  · exact ⟨rfl, rfl⟩

theorem keepDirty_memClock (s : State) (sl : Nat) : MemClock s (keepDirty s sl) := dropClean_memClock ..

theorem startDrain_memClock (s : State) (sl : Nat) : MemClock s (startDrain s sl) := ((abandonOp_memClock ..).trans (keepDirty_memClock ..)).wr ..

theorem sliceFault_memClock (sl cause : Nat) (s : State) : MemClock s (sliceFault sl cause s) := by
  have hlose (t : State) : MemClock t (loseLine t sl) := ⟨rfl, rfl⟩
  unfold sliceFault
  extract_lets clean sev u v
  have hu : MemClock s u := (((MemClock.refl s).wr ..).wr ..).trans (State.raiseG_reach ..).memClock
  have hv : MemClock s v := hu.trans (.ite (hlose u) (.refl u))
  exact .ite (.refl s) (.ite (hv.wr ..) (.ite (hv.trans (abandonOp_memClock ..))
    (.ite ((hv.trans (abandonOp_memClock ..)).trans (keepDirty_memClock ..)) (hv.trans (startDrain_memClock ..)))))

theorem freshSlice_memClock (s : State) (sl : Nat) : MemClock s (freshSlice s sl) := .ite ((MemClock.refl s).wr ..) ((MemClock.refl s).wr ..)

theorem crossingCodes_memClock (s : State) (codes : List Nat) : MemClock s (crossingCodes s codes) :=
  .foldl (fun t _ => (((MemClock.refl t).wr ..).wr ..).wr ..) s _

/-! ## The fold -/

theorem foldAtBoot_memClock (s : State) (ch : Nat) : MemClock s (foldAtBoot s ch) :=
  ((((MemClock.refl s).wr ..).wr ..).trans (setFstate_memClock ..)).trans (putStackWord_memClock ..)

theorem foldAtStart_memClock (s : State) : MemClock s (foldAtStart s) := by
  unfold foldAtStart
  extract_lets untrained
  split
  · exact foldAtBoot_memClock ..
  · exact foldAtBoot_memClock ..
  · exact foldAtBoot_memClock ..
  · exact .refl s

theorem startFold_memClock (s : State) (ch : Nat) : MemClock s (startFold s ch) := by
  unfold startFold
  extract_lets u v w
  have hv : MemClock s v := (((MemClock.refl s).wr ..).trans (setFstate_memClock ..)).wr ..
  have hw : MemClock s w := .ite hv (hv.trans (startDrain_memClock ..))
  have hx : MemClock w { w with tsv.foldPoison := w.cstate ch == 0 } := ⟨rfl, rfl⟩
  exact (hw.trans hx).trans (foldEvent_reach _).memClock

/-- A folded channel serves nothing. -/
def foldedChannelOff (s : State) : State :=
  match foldedCh s with
  | some c => (s.wr F.DMC_STAT_CSTATE 0 c).setDmc c {}
  | none => s

theorem foldedChannelOff_memClock (s : State) : MemClock s (foldedChannelOff s) := by
  unfold foldedChannelOff
  split
  · exact ⟨rfl, rfl⟩
  · exact .refl s

/-! ## The verify of the fill -/

theorem reportBeats_memClock (s : State) (w : Where) (bs : List Beat) : MemClock s (reportBeats s w bs) := by
  refine .foldl (fun t b => ?_) s bs
  obtain ⟨hmem, -⟩ := reportBeat_sameCells t w b
  exact .of_aside (reportBeat_aside t w b) hmem

theorem handOver_memClock (s : State) (ch bank prow : Nat) : MemClock s (handOver s ch bank prow).1 := by
  obtain ⟨hmem, -⟩ := handOver_sameCells s ch bank prow
  exact .of_aside (handOver_aside ..) hmem

theorem verifyFail_memClock (s : State) (v : FillFail) : MemClock s (verifyFail s v) := by
  have hbeats := reportBeats_memClock s
  unfold verifyFail
  exact .ite (.refl s) (.ite ((hbeats ..).trans (handOver_memClock ..)) (hbeats ..))

/-! ## What a start leaves alone -/

/-- A start writes neither memory, the presence of the clock, the power state and the step, nor the pages below the link's; what a raise writes is apart. -/
structure StartKept (s t : State) : Prop extends MemClock s t where
  step : AtStep s t
  low : ∀ k < 4194304, raisePlace k = false → PlaceKept k s t

theorem StartKept.refl (s : State) : StartKept s s := ⟨.refl s, .refl s, fun _ _ _ => .refl s⟩

theorem StartKept.trans {s t u : State} (h : StartKept s t) (g : StartKept t u) : StartKept s u :=
  ⟨h.toMemClock.trans g.toMemClock, h.step.trans g.step, fun k hk hr => (h.low k hk hr).trans (g.low k hk hr)⟩

theorem StartKept.ite {s a b : State} {c : Prop} [Decidable c] (ha : StartKept s a) (hb : StartKept s b) : StartKept s (if c then a else b) := by
  split
  · exact ha
  · exact hb

theorem StartKept.wr {s t : State} (h : StartKept s t) {f : Fld} (v i j : Nat) (hf : 4194304 ≤ f.key) : StartKept s (t.wr f v i j) :=
  h.trans ⟨⟨rfl, rfl⟩, .of_pck rfl, fun _ hk _ => (PlaceKept.refl t).wr v (at_ne_of_above hf hk i j)⟩

theorem RaiseReach.startKept {s t : State} (h : RaiseReach s t) : StartKept s t :=
  ⟨h.memClock, h.beside.atStep, fun _ _ hr => h.placeKept hr⟩

theorem StartKept.rd {s t : State} (h : StartKept s t) (f : Fld) (hlow : f.at 0 0 < 4194304) (hr : raisePlace (f.at 0 0) = false) : t.rd f = s.rd f :=
  (h.low _ hlow hr).rd

theorem raiseLatched_startKept (s : State) : StartKept s (raiseLatched s) := by
  have hempty : StartKept s { s with fcr.latched := [] } := ⟨⟨rfl, rfl⟩, .of_pck rfl, fun _ _ _ => .of_eq rfl⟩
  have hraised : RaiseReach { s with fcr.latched := [] } (raiseLatched s) := .foldl _ _ (.refl _) fun _ _ h => h.trans (State.raiseG_reach ..)
  exact hempty.trans hraised.startKept

theorem putGrants_startKept (s : State) (gs : List (Nat × Nat)) : StartKept s (putGrants s gs) :=
  List.foldlRecOn (motive := StartKept s) gs _ (.refl s) fun _ ht _ _ => ht.wr _ _ _ (by decide)

theorem putSums_startKept (s : State) : StartKept s (putSums s) := ((StartKept.refl s).wr _ _ _ (by decide)).wr _ _ _ (by decide)

theorem regStart_startKept (s : State) : StartKept s (regStart s) := by
  have hwindow : StartKept s { s.wr F.REG_S_S_EST 2720000 with reg.sNext := none, reg.grantNext := none, reg.rsvBytes := [], reg.meter := 0 } :=
    ((StartKept.refl s).wr 2720000 0 0 (by decide : 4194304 ≤ F.REG_S_S_EST.key)).trans ⟨⟨rfl, rfl⟩, .of_pck rfl, fun _ _ _ => .of_eq rfl⟩
  unfold regStart
  extract_lets _ _ u
  have hu : StartKept s u := hwindow
  clear_value u
  generalize grantsFor u 2720000 = r
  obtain ⟨gs, ovc⟩ := r
  have hsums : StartKept s (putSums (putGrants u gs)) := (hu.trans (putGrants_startKept u gs)).trans (putSums_startKept _)
  exact (hsums.wr (f := F.REG_S_OVC) (b2n ovc) 0 0 (by decide)).trans (noteOvc_reach ..).startKept

theorem startFold_startKept (s : State) (ch : Nat) : StartKept s (startFold s ch) := by
  refine ⟨startFold_memClock s ch, (startFold_beside s ch).atStep, fun k hk hr => startFold_placeKept ⟨hr, ?_, ?_⟩ s⟩
  · have hall : ∀ f ∈ [F.TSV_FOLD_STAT_FSTATE, F.TSV_FOLD_STAT_FOLDED_CH, F.DIP_SCRUB_STAT_SCRUB_PAUSED], 4194304 ≤ f.key := by decide
    exact fun f hf => at_ne_of_above (hall f hf) hk 0 0
  · have hall : ∀ f ∈ [F.SCC_OPS_STAT_OPS_RES, F.SCC_STAT_SSTATE], 4194304 ≤ f.key := by decide
    exact fun f hf => at_ne_of_above (hall f hf) hk ch 0

/-! ## Every group trains from DETECT (R68) -/

/-- A group is off, and trains from DETECT once HL_REFCLK is present. -/
def groupStarted (s : State) (g : Nat) : State :=
  if (groupOff s g).link.refclk then (groupDetect (groupOff s g) g).modGrp g fun x => { x with attempt := 1, dir := decide (8 ≤ g) } else groupOff s g

theorem startGroups_eq (s : State) : startGroups s false = (List.range 16).foldl groupStarted s :=
  congrArg (fun f => List.foldl f s (List.range 16)) (funext fun _ => funext fun _ => if_neg fun h => Bool.false_ne_true h.1)

theorem groupStarted_on (s : State) (g : Nat) : OnGroup g s (groupStarted s g) :=
  .ite (((groupOff_on ..).trans (groupDetect_on ..)).trans (State.modGrp_on ..)) (groupOff_on ..)

theorem groupOff_placeKept {k : Nat} (h : ApartFromLoss k) (s : State) (g : Nat) : PlaceKept k s (groupOff s g) := by
  have htests (t : State) : PlaceKept k t (endTests t g) := by
    unfold endTests
    exact .foldl (fun u l => endTest_placeKept h u g l) _ _
  exact ((endInjection_placeKept h s g).trans (htests _)).trans (modGrp_placeKept ..)

theorem groupStarted_startKept (s : State) (g : Nat) : StartKept s (groupStarted s g) := by
  have hon : OnGroup g s (groupStarted s g) := groupStarted_on s g
  obtain ⟨hpck, -⟩ := hon.any.pck
  refine ⟨hon.memClock, .of_pck hpck, fun k hk hr => ?_⟩
  have hapart : ApartFromLoss k := apartFromLoss_of_low hk hr
  have hoff : PlaceKept k s (groupOff s g) := groupOff_placeKept hapart s g
  exact .ite ((hoff.trans (groupDetect_placeKept hapart ..)).trans (modGrp_placeKept ..)) hoff

theorem groupStarted_detect {s : State} {g : Nat} (h : s.link.refclk = true) : ((groupStarted s g).grp g).gst = .detect := by
  have hclock : (groupOff s g).link.refclk = true := (groupOff_on s g).memClock.clock.trans h
  obtain ⟨hdetect, -⟩ := groupDetect_detect (groupOff s g) g
  have heq : groupStarted s g = (groupDetect (groupOff s g) g).modGrp g fun x => { x with attempt := 1, dir := decide (8 ≤ g) } := if_pos hclock
  rw [heq, State.modGrp_grp_same]
  generalize groupDetect (groupOff s g) g = u at hdetect
  exact hdetect

theorem groupsStarted_spec (s : State) (n : Nat) : StartKept s ((List.range n).foldl groupStarted s) ∧
    (s.link.refclk = true → ∀ g < n, (((List.range n).foldl groupStarted s).grp g).gst = .detect) := by
  induction n with
  | zero => exact ⟨.refl s, fun _ g hg => absurd hg (Nat.not_lt_zero g)⟩
  | succ n ih =>
    obtain ⟨hkept, hdetect⟩ := ih
    rw [List.range_succ, List.foldl_concat]
    generalize (List.range n).foldl groupStarted s = t at hkept hdetect
    refine ⟨hkept.trans (groupStarted_startKept t n), fun hclock g hg => ?_⟩
    obtain hlt | rfl := Nat.lt_succ_iff_lt_or_eq.1 hg
    · rw [(groupStarted_on t n).2 g hlt.ne]
      exact hdetect hclock g hlt
    · exact groupStarted_detect (hkept.clock.trans hclock)

/-! ## INIT_FILL_END -/

/-- Memory as the fill leaves it, with every stroke word zero and one close of each row counted. -/
def memoryFilled (s : State) : State := { s with mem := [], memMeta := [], memErr := [], rfm.stroke := [], rfm.strokeBase := strokeWord 1 }

/-- The fill is verified, a fold found at the start is complete, and the slices are fresh. -/
def slicesReady (codes bad : List Nat) (fails : List FillFail) (s : State) : State :=
  bad.foldl (fun t sl => sliceFault sl 1 t)
    (channels.foldl freshSlice (crossingCodes (foldedChannelOff (foldAtStart (fails.foldl verifyFail (memoryFilled s)))) codes))

/-- What the start shows: memory is ready and the clocks are locked, and the kind of the start. -/
def startShown (kind lost : Nat) (s : State) : State :=
  reportStart (((s.wr F.SVC_STAT_MEM_RDY 1).wr F.PCK_CLK_MCK_LOCK 1).wr F.PCK_CLK_STBY_LOCK 1) kind 0 lost (kind != 0)

/-- Step 7 begins: RUN, and the cores in the ROM. -/
def romEntered (since : Nat) (s : State) : State := coresToRom (regStart (raiseLatched { s with pck.pow := .run, pck.step := 8, pck.since := since }))

/-- A fold found in CLEAN starts again. -/
def foldRestarted (s : State) : State := if s.fstate = fClean then startFold s (s.rd F.TSV_FOLD_STAT_FOLDED_CH) else s

/-- Steps 7 and 8 begin: RUN, the cores in the ROM, and the groups train. -/
def runEntered (since : Nat) (s : State) : State := startGroups (foldRestarted (romEntered since s)) false

theorem initFillEnd_eq {s : State} (codes bad : List Nat) (fails : List FillFail) (hpow : s.pck.pow = .boot) (hstep : s.pck.step = 6) :
    initFillEnd codes bad fails s = runEntered s.pck.since
      (startShown (if s.pck.kindLost then 1 else 0) (if s.pck.kindLost then 2 ^ 32 - 1 else 0) (slicesReady codes bad fails s)) := by
  unfold initFillEnd
  rw [if_neg (by simp [hpow, hstep])]
  extract_lets kind lost since _ b c f d e g h u v _ x y
  have hf : f = foldAtStart (fails.foldl verifyFail (memoryFilled s)) := rfl
  clear_value f
  have he : e = foldedChannelOff f := by
    unfold foldedChannelOff
    rfl
  clear_value e
  have hh : h = slicesReady codes bad fails s := by rw [slicesReady, ← hf, ← he]
  clear_value h
  have hv : v = startShown kind lost h := rfl
  clear_value v
  have hx : x = romEntered since v := rfl
  clear_value x
  have hy : y = foldRestarted x := rfl
  rw [hy, hx, hv, hh]
  rfl

theorem slicesReady_memClock (codes bad : List Nat) (fails : List FillFail) (s : State) : MemClock (memoryFilled s) (slicesReady codes bad fails s) :=
  ((((MemClock.foldl verifyFail_memClock _ _).trans (foldAtStart_memClock _)).trans (foldedChannelOff_memClock _)).trans
    ((crossingCodes_memClock ..).trans (.foldl freshSlice_memClock _ _))).trans (.foldl (fun t sl => sliceFault_memClock sl 1 t) _ _)

theorem reportStart_rd (s : State) (kind wcause lost : Nat) (bad : Bool) (f : Fld) : (reportStart s kind wcause lost bad).rd f =
    ((((s.wr F.CST_BOOT_STAT_BOOT_KIND kind).wr F.CST_BOOT_STAT_WCAUSE wcause).wr F.CST_BOOT_STAT_RET_RES (if bad then Code.lost.num else 0)).wr
      F.CST_BOOT_LOST_LOST_CH lost).rd f := rfl

theorem reportStart_memClock (s : State) (kind wcause lost : Nat) (bad : Bool) : MemClock s (reportStart s kind wcause lost bad) := by
  have hshown : MemClock s ((((s.wr F.CST_BOOT_STAT_BOOT_KIND kind).wr F.CST_BOOT_STAT_WCAUSE wcause).wr F.CST_BOOT_STAT_RET_RES
    (if bad then Code.lost.num else 0)).wr F.CST_BOOT_LOST_LOST_CH lost) := ((((MemClock.refl s).wr ..).wr ..).wr ..).wr ..
  exact hshown.trans ⟨rfl, rfl⟩

theorem startShown_memClock (kind lost : Nat) (s : State) : MemClock s (startShown kind lost s) :=
  ((((MemClock.refl s).wr ..).wr ..).wr ..).trans (reportStart_memClock ..)

theorem startShown_ready (kind lost : Nat) (s : State) : (startShown kind lost s).on F.SVC_STAT_MEM_RDY = true := by
  have hrd : (startShown kind lost s).rd F.SVC_STAT_MEM_RDY = 1 := by
    rw [startShown, reportStart_rd]
    simp (disch := decide) only [State.rd_wr_ne]
    exact State.rd_wr_same ..
  rw [State.on, hrd]
  rfl

theorem coresToRom_rd (s : State) (f : Fld) :
    (coresToRom s).rd f = (((s.wr F.MGT_STAT_A_STATE 1).wr F.MGT_STAT_B_STATE 1).wr F.MGT_STAT_ACTIVE 0).rd f := rfl

theorem coresToRom_coreA (s : State) : coreState (coresToRom s) false = 1 := by
  refine (coresToRom_rd s F.MGT_STAT_A_STATE).trans ?_
  simp (disch := decide) only [State.rd_wr_ne]
  exact State.rd_wr_same ..

theorem coresToRom_coreB (s : State) : coreState (coresToRom s) true = 1 := by
  refine (coresToRom_rd s F.MGT_STAT_B_STATE).trans ?_
  simp (disch := decide) only [State.rd_wr_ne]
  exact State.rd_wr_same ..

theorem coresToRom_ready (s : State) : (coresToRom s).rd F.SVC_STAT_MEM_RDY = s.rd F.SVC_STAT_MEM_RDY := by
  rw [coresToRom_rd]
  simp (disch := decide) only [State.rd_wr_ne]

theorem coresToRom_memClock (s : State) : MemClock s (coresToRom s) := ⟨rfl, rfl⟩

theorem coresToRom_atStep (s : State) : AtStep s (coresToRom s) := .of_pck rfl

/-- RUN is entered with the memory of before and both cores in the ROM. -/
theorem romEntered_spec (since : Nat) (s : State) : (romEntered since s).pck.pow = .run ∧ (romEntered since s).pck.step = 8 ∧
    MemClock s (romEntered since s) ∧ (romEntered since s).rd F.SVC_STAT_MEM_RDY = s.rd F.SVC_STAT_MEM_RDY := by
  unfold romEntered
  generalize hr : ({ s with pck.pow := .run, pck.step := 8, pck.since := since } : State) = r
  have hrun : MemClock s r ∧ r.pck.pow = .run ∧ r.pck.step = 8 ∧ r.rd F.SVC_STAT_MEM_RDY = s.rd F.SVC_STAT_MEM_RDY := by
    subst hr
    exact ⟨⟨rfl, rfl⟩, rfl, rfl, rfl⟩
  obtain ⟨hcalm, hpow, hstep, hready⟩ := hrun
  have hregs : StartKept r (regStart (raiseLatched r)) := (raiseLatched_startKept r).trans (regStart_startKept _)
  generalize regStart (raiseLatched r) = u at hregs
  have hsteps : AtStep r (coresToRom u) := hregs.step.trans (coresToRom_atStep u)
  refine ⟨hsteps.pow.trans hpow, hsteps.step.trans hstep, (hcalm.trans hregs.toMemClock).trans (coresToRom_memClock u), ?_⟩
  rw [coresToRom_ready, hregs.rd F.SVC_STAT_MEM_RDY (by decide) (by decide), hready]

theorem foldRestarted_startKept (s : State) : StartKept s (foldRestarted s) := .ite (startFold_startKept ..) (.refl s)

theorem runEntered_startKept (since : Nat) (s : State) : StartKept (romEntered since s) (runEntered since s) := by
  obtain ⟨hgroups, -⟩ := groupsStarted_spec (foldRestarted (romEntered since s)) 16
  rw [runEntered, startGroups_eq]
  exact (foldRestarted_startKept _).trans hgroups

theorem runEntered_detect {since : Nat} {s : State} (h : s.link.refclk = true) : ∀ g < 16, ((runEntered since s).grp g).gst = .detect := by
  obtain ⟨-, -, hcalm, -⟩ := romEntered_spec since s
  obtain ⟨-, hdetect⟩ := groupsStarted_spec (foldRestarted (romEntered since s)) 16
  rw [runEntered, startGroups_eq]
  exact hdetect ((foldRestarted_startKept _).clock.trans (hcalm.clock.trans h))

theorem runEntered_cores (since : Nat) (s : State) : coreState (runEntered since s) false = 1 ∧ coreState (runEntered since s) true = 1 := by
  have hkept := runEntered_startKept since s
  exact ⟨(hkept.rd F.MGT_STAT_A_STATE (by decide) (by decide)).trans (coresToRom_coreA _),
    (hkept.rd F.MGT_STAT_B_STATE (by decide) (by decide)).trans (coresToRom_coreB _)⟩

theorem initFillEnd_spec {s : State} (codes bad : List Nat) (fails : List FillFail) (hpow : s.pck.pow = .boot) (hstep : s.pck.step = 6) :
    (initFillEnd codes bad fails s).pck.pow = .run ∧ (initFillEnd codes bad fails s).pck.step = 8 ∧ (initFillEnd codes bad fails s).mem = [] ∧
    coreState (initFillEnd codes bad fails s) false = 1 ∧ coreState (initFillEnd codes bad fails s) true = 1 ∧
    (initFillEnd codes bad fails s).on F.SVC_STAT_MEM_RDY = true ∧
    (s.link.refclk = true → ∀ g < 16, ((initFillEnd codes bad fails s).grp g).gst = .detect) := by
  rw [initFillEnd_eq codes bad fails hpow hstep]
  generalize (if s.pck.kindLost then 1 else 0) = kind
  generalize (if s.pck.kindLost then 2 ^ 32 - 1 else 0) = lost
  have hready := startShown_ready kind lost (slicesReady codes bad fails s)
  have hcalm : MemClock (memoryFilled s) (startShown kind lost (slicesReady codes bad fails s)) :=
    (slicesReady_memClock codes bad fails s).trans (startShown_memClock ..)
  generalize startShown kind lost (slicesReady codes bad fails s) = u at hcalm hready
  obtain ⟨hrun, hstart, hrom, hshown⟩ := romEntered_spec s.pck.since u
  obtain ⟨hcoreA, hcoreB⟩ := runEntered_cores s.pck.since u
  have hkept := runEntered_startKept s.pck.since u
  refine ⟨hkept.step.pow.trans hrun, hkept.step.step.trans hstart, (hrom.trans hkept.toMemClock).mem.trans hcalm.mem, hcoreA, hcoreB, ?_,
    fun hclock => runEntered_detect (hcalm.clock.trans hclock)⟩
  rw [State.on, hkept.rd F.SVC_STAT_MEM_RDY (by decide) (by decide), hshown]
  exact hready

/-! ## O45 -/

/-- Settles O45: each command of the boot is its step, and the next step is the one that the spec names. -/
theorem coldBootSteps : Obligations.ColdBootSteps := by
  unfold Obligations.ColdBootSteps
  refine ⟨fun s hmain => ⟨fun hoff hshut hwake => ⟨_, rfl, coldBoot_spec hmain hoff hshut hwake⟩,
      fun hpow => congrArg Host.Outcome.next (coldBoot_elsewhere hmain hpow)⟩,
    fun s wr ws raised te weak gone hpow hstep hclk => ⟨_, rfl, powerOnRelease_spec wr ws raised.toNat te weak gone hpow hstep hclk⟩, ?_,
    fun s res codes good held mask mbx hrun => ⟨_, rfl, calibrationRunEnd_spec res codes _ _ mask mbx hrun⟩,
    fun s hrun hpow hmask hdue => ⟨_, rfl, periodicCal_spec hrun hpow hmask hdue⟩,
    fun s silent hpow hstep => ⟨fun hnext => ⟨_, rfl, dramTierReady_next silent.toNat hpow hstep hnext⟩,
      fun hlast => ⟨_, rfl, dramTierReady_last silent.toNat hpow hstep hlast⟩⟩, ?_,
    fun s codes bad fails hpow hstep => ⟨_, rfl, initFillEnd_spec codes bad fails hpow hstep⟩, ?_⟩
  · intro s b pass dur sa tr el fails hpow hstep hturn
    refine ⟨?_, ?_⟩
    · rintro rfl
      exact ⟨_, rfl, bistBlockEnd_pass b dur sa.toNat tr.toNat el.toNat fails hpow hstep hturn⟩
    · rintro rfl hfirst htime
      exact ⟨_, rfl, bistBlockEnd_again b dur sa.toNat tr.toNat el.toNat fails hpow hstep hturn hfirst htime⟩
  · intro s ch pass code vref dead lines x htrain
    obtain ⟨hnext, hdone, hretry, hfailed⟩ := rankTrainingEnd_spec ch pass code.toNat vref.toNat dead.toNat lines htrain
    exact ⟨fun hpass hstep => ⟨_, rfl, hnext hpass hstep⟩, fun hpass hstep hranks => ⟨_, rfl, hdone hpass hstep hranks⟩,
      fun hpass hattempt => ⟨_, rfl, hretry hpass hattempt⟩, fun hpass hattempt => ⟨_, rfl, hfailed hpass hattempt⟩⟩
  · intro s okA okB htest hrom
    exact ⟨fun himage => ⟨_, rfl, coxBoot_first okA okB htest hrom himage⟩,
      fun hfirst hother => ⟨_, rfl, coxBoot_recovery okA okB htest hrom hfirst hother⟩,
      fun hwaits himage => ⟨_, rfl, coxATimeout_spec okA okB htest hrom hwaits himage⟩⟩

end Sys2Proof.Machine
